-- ==== Sys2Proof/Word.lean ====
section
/-!
DEFINITION. Word.lean: the word type of the register space and the plainest arithmetic on it. The register space is made
of 32-bit registers (R3 of spec/00_scope.md); an MMIO word is a bit vector because software sees it as bits.
-/
namespace Sys2Proof

/-- One 32-bit register of the register space (R3). -/
abbrev Word := BitVec 32

/-- One byte of the boot flash or of a frame. -/
abbrev Byte := BitVec 8

/-- FN48 values live modulo 2^48 (R12). -/
def fnModulus : Nat := 281474976710656

/-- RT64 values live modulo 2^64 (R12). -/
def rtModulus : Nat := 18446744073709551616

/-- Nanoseconds of one frame (R15). -/
def frameNs : Nat := 20000

end Sys2Proof
end

