-- ==== Sys2Proof/Operand.lean ====
section
/-!
DEFINITION. Operand.lean: the types of the commands' operands: who makes an access, control cells, command-frame headers,
frames of the Ridgeline, and sampled values.
-/
namespace Sys2Proof

/-- Who makes a register access (R39): the lockstep core, the application firmware, or a session of the command engine. -/
inductive Initiator where
  | core | fw | session (i : Fin 64)
  deriving DecidableEq, Repr

/-- The PLLs whose relock is a command (R100). -/
inductive PllId where
  | ridgeline | application | serdes (k : Fin 4)
  deriving DecidableEq, Repr

/-- The data set of a clock that an Announce message carries: what the default best-master algorithm of IEEE 1588 compares (R107). -/
structure Announce where
  priority1 : BitVec 8
  clockClass : BitVec 8
  accuracy : BitVec 8
  variance : BitVec 16
  priority2 : BitVec 8
  identity : BitVec 64
  steps : BitVec 16
  deriving DecidableEq, Repr

/-- What comes to the best-master algorithm on a ring port group (R107): a master's Announce message, or its absence. -/
inductive BmcaInput where
  | message (g : Fin 4) (a : Announce)
  | absent (g : Fin 4)
  deriving DecidableEq, Repr

/-- What a window's known-level and swap check sees (R263 to R266): the four comparator readings at the two reference
levels, whether the reading changed, and the steady and swapped readings. -/
structure WinSample where
  hi125 : Bool
  lo125 : Bool
  hi1125 : Bool
  lo1125 : Bool
  changed : Bool
  steadyHi : Bool
  steadyLo : Bool
  swapHi : Bool
  swapLo : Bool
  deriving DecidableEq, Repr

/-- An anchor cell's payload (R379). -/
structure AncCell where
  ancId : Nat
  brkOpen : Bool
  gridDead : Bool
  unsynced : Bool
  dtt : Bool
  seq : Nat
  fn : Nat
  angle : Nat
  v1 : Nat
  freq : Nat
  rocof : Nat
  deriving DecidableEq, Repr

/-- The short command form (R628). -/
structure ShortCmd where
  sop : Nat
  role : Nat
  session : Nat
  tag : Nat
  snonce : List Byte
  seq : Nat
  arg0 : Nat
  arg1 : Nat
  hmac : BitVec 128
  deriving DecidableEq, Repr

/-- The payload of a control cell (R587, R545); a PTP frame counts as a cell too (R590): its kind, 0 = Sync, 1 = Pdelay, else not an event message,
and its correctionField in 1/256 ns (R107). -/
inductive CellBody where
  | anchor (payload : List Byte)
  | tickMark (fn : Nat)
  | announce (words : List Nat)
  | command (c : ShortCmd)
  | commandResp (sop status tag : Nat) (snonce : List Byte) (seq : Nat) (hmac : BitVec 128)
  | ringBreak (ring span : Nat) (planned drowse : Bool) (seq : Nat)
  | leave (rings frame : Nat)
  | wake (group : Nat)
  | ringHeal (ring span seq : Nat)
  | insertPlan (ring frame : Nat)
  | drowseReq (ring frame : Nat)
  | drowseAck (ring frame : Nat)
  | drowseNak (ring frame reason : Nat)
  | nbrId (node ins size : Nat)
  | ptp (kind corr : Nat)
  | other (type : Nat)
  deriving DecidableEq, Repr

/-- A signature window of a duplicated unit that ends (R467, R468): the output words of its leading and trailing copies, and whether comparator
sets A and B disagree about it (R476). -/
structure SigWindow where
  lead : List (BitVec 64)
  trail : List (BitVec 64)
  ab : Bool
  deriving DecidableEq, Repr

/-- When a class-7 frame is received (R107, R108): nanoseconds since this node's frame tick, the correction that a tick marker has accumulated on
its way in nanoseconds, and the residence time of a frame that is forwarded, in 1/256 ns. -/
structure CellTime where
  ns : Nat
  corr : Nat
  stay : Nat
  deriving DecidableEq, Repr

/-- A control cell (R586): REACH is 0 = neighbour, 1 = unicast, 2 = flood. -/
structure Cell where
  body : CellBody
  origin : Nat
  reach : Nat
  hops : Nat
  ringB : Bool
  west : Bool
  fn : Nat
  hseq : Nat
  dest : Nat
  deriving DecidableEq, Repr

/-- A tenant or management frame (R569): plot none = management; class, DEI, addresses, length in bytes from DA to FCS as
on the access side. -/
structure Frame where
  plot : Option Nat
  cls : Nat
  yellow : Bool
  da : Nat
  sa : Nat
  len : Nat
  deriving DecidableEq, Repr

/-- The ring tag of a frame (R569). -/
structure RingTag where
  dst : Nat
  src : Nat
  hops : Nat
  deriving DecidableEq, Repr

/-- The header of a command frame (R605, R606): the transport it came over (0 = management port, 1 = ring, 2 to 4 = CSP1 to CSP3),
for transport 0 the first lane of the management port and for transport 1 that of the ring port, session index or 0xFF, tag, sequence number, and ARG_LEN. -/
structure Hdr where
  transport : Fin 5
  port : Fin 128
  session : BitVec 8
  tag : BitVec 12
  seq : BitVec 32
  argLen : Nat
  deriving DecidableEq, Repr

end Sys2Proof
end

