-- ==== Sys2Proof/Syntax.lean ====
section
/-!
DEFINITION. Syntax.lean: the commands of the block, one constructor for each row of spec/opcode_table.json: the rows with
operands first, then those without, each in the table's order. A command's operands are what its source brings: the initiator and word of a register access, the fields of a command frame or a cell, the numbers
of the units an event concerns, and what the part measures or is told at it.
-/
namespace Sys2Proof

/-- A command or an event of the block. -/
inductive Instr where
  /-- REGISTER_WRITE (R5): A register write from any initiator to a register that has no row of its own takes effect under its access codes. -/
  | registerWrite (i : Initiator) (a : Word) (size : Nat) (v : Word)
  /-- RC_FIELD_READ (R5): A read of a read-clear field returns its value and clears it, with a same-cycle hardware set winning. -/
  | rcFieldRead (i : Initiator) (a : Word) (size : Nat)
  /-- FRAME_TICK (R15): At each frame tick the part performs the activities that R22 places there in the tick cycle. -/
  | frameTick (sinA sinB : BitVec 32) (srb : BitVec 16) (ack : Bool)
  /-- REQ_RUN (R75): A request for Run wakes the domains of Run and starts the loop engine at the next frame tick. -/
  | reqRun (i : Initiator)
  /-- REQ_IDLE (R75): A request for Idle drains and switches off APP1 to APP3 and lowers APP0. -/
  | reqIdle (i : Initiator)
  /-- REQ_RING_ONLY (R75): A request for Ring-only stops the stages, trips all pairs and switches off CT_CONV and the unkept ADC cores. -/
  | reqRingOnly (i : Initiator)
  /-- REQ_BIVOUAC (R75): A request for Bivouac drains all domains, switches off the rails and hands over to the Lantern. -/
  | reqBivouac (i : Initiator)
  /-- REQ_DORMANT (R75): A request for Dormant drains all domains, switches off the rails and leaves the Lantern with RTC and log only. -/
  | reqDormant (i : Initiator)
  /-- DRAIN_ABORT (R83): DRAIN_TIMEOUT expires, remaining transfers end with a bus error and the domain is switched off. -/
  | drainAbort (n us : Nat)
  /-- RAIL_SEQUENCE_STEP (R70): When a rail's REG_PG_nn has been high for PG_DELAY, the power manager switches on the next rail class. -/
  | railSequenceStep (pg : BitVec 16) (mv : List Nat) (goodFor offFor : Nat)
  /-- RAIL_PG_TIMEOUT (R70): A rail not good 10 ms after its enable causes a rail fault and the rails are switched off in reverse order. -/
  | railPgTimeout (n : Fin 16)
  /-- RAIL_FAULT (R73): REG_PG_nn of an enabled rail low for 2 µs, or a PMBus fault, is logged and handled per rail as the table states. -/
  | railFault (n : Fin 16)
  /-- PMB_ALERT (R72): PMB_ALERT_N low makes the master read STATUS_WORD of each regulator, log RAIL_ALERT and set PMB_ALERT. -/
  | pmbAlert (alerted faulty : BitVec 16)
  /-- PMBUS_POLL (R72): Every 100 ms the PMBus master reads READ_VOUT and READ_IOUT of each named regulator. -/
  | pmbusPoll (vout iout : List Nat) (margin : Option (Initiator × Fin 16 × Int))
  /-- IO_BANK_SUPPLY_LOSS (R54): A bank supply falling below the present threshold trips its PWM pairs, or locks out safety I/O for banks 6 and 7. -/
  | ioBankSupplyLoss (b : Fin 8)
  /-- CTRL_PLL_GATED (R103): Loss of lock, a lock-pin reading of no lock or fault, or a missing SYSCLK gates the control PLL, setting TICK_LOST and forcing the safe state. -/
  | ctrlPllGated (slip : Bool) (lockV : BitVec 8)
  /-- CTRL_PLL_LOCK (R103): The control PLL is declared locked after PLL_LOCK reads lock and 256 locked comparisons, and its output is ungated. -/
  | ctrlPllLock (lockV : BitVec 8)
  /-- SERDES_PLL_LOSS (R105): Loss of a SerDes PLL group idles its 32 lanes and takes their links down. -/
  | serdesPllLoss (k : Fin 4)
  /-- REFCLK_LOSS (R99): Loss of a SerDes reference is recorded; for REFCLK_SD_0 the timebase fails over to SYSCLK. -/
  | refclkLoss (k : Fin 4)
  /-- PLL_RELOCK (R104): A PLL other than the control PLL declares lock after 256 locked comparisons once its reference returns. -/
  | pllRelock (p : PllId) (locked : Bool)
  /-- SYNC_MESSAGE (R112): A received PTP Sync updates the filtered offset, sets or clears UNSYNCED and feeds the servo. -/
  | syncMessage (group : Fin 4) (t1 t2 corr : Nat) (filtered : Int)
  /-- PDELAY_MESSAGE (R107): A peer-delay message is timestamped and processed on its ring port. -/
  | pdelayMessage (group : Fin 4) (request : Bool) (t1 t2 t3 t4 : Nat)
  /-- TICK_MARK (R108): A received tick marker whose frame number differs raises FN_MISMATCH and is adopted at the next frame tick. -/
  | tickMark (mark : BitVec 48) (ns corr : Nat)
  /-- RT_NOW_READ (R118): A read of RT_NOW_LO returns ring time bits 31:0 and latches bits 63:32 into RT_NOW_HI. -/
  | rtNowRead (i : Initiator) (ns : Fin 20000)
  /-- LANTERN_COLD_START (R123): Release of the Lantern power-on reset resets all Lantern registers, restarts the RTC and empties the log with one COLD_START entry. -/
  | lanternColdStart (src : Fin 3)
  /-- HARVEST_OCV_MEASURE (R125): Every 16 s the boost pauses 10 ms to measure the TEG open-circuit voltage. -/
  | harvestOcvMeasure (ocv : Nat)
  /-- CHARGER_PHASE (R126): The cell charger changes phase when VCELL crosses its thresholds or its current falls below ICHG/10. -/
  | chargerPhase (vcell icell vlan avail : Nat)
  /-- CHG_FAULT (R126): Cell over-voltage or die temperature out of range stops the charger, sets CHG_FAULT and logs it. -/
  | chgFault (vcell : Nat) (dieTemp : Int)
  /-- CELL_UV (R127): VCELL below UVD for 1 s opens the cell switch and logs CELL_UV. -/
  | cellUv (vcell : Nat)
  /-- CELL_RECONNECT (R127): VCELL reaching UVD + 0.30 V closes the cell switch and logs CELL_RECONNECT. -/
  | cellReconnect (vcell : Nat)
  /-- RTC_READ (R149): A read of RTC_LO returns RTC bits 31:0 and latches bits 47:32 into RTC_HI. -/
  | rtcRead (i : Initiator)
  /-- APP_KICK (R159): A write of APP_KICK by the application cores renews the application heartbeat. -/
  | appKick (i : Initiator)
  /-- HOLD_WAIT_END (R133): When the 10 ms wait since a pin's last edge ends, a pending hold request starts the toggling. -/
  | holdWaitEnd (r : Fin 2)
  /-- BYPASS_COUNTED (R64): 10 ms after the last edge on a hold pin the switch is counted as bypassed and the pin may be driven again. -/
  | bypassCounted (r : Fin 2)
  /-- BYP_POS_SAMPLE (R65): A sample of the bypass position contact, every 1 ms while held or once after release. -/
  | bypPosSample (r : Fin 2) (closed : Bool)
  /-- BIVOUAC_CYCLE (R137): Every PERIOD in Bivouac the Lantern converts its LMON inputs and VCELL, evaluates matches and sleeps. -/
  | bivouacCycle (l0 l1 l2 l3 vcell : BitVec 12)
  /-- LMON_CONVERT (R138): While the main domain is on, all four LMON inputs are converted every 10 ms for LMON_DATA. -/
  | lmonConvert (l0 l1 l2 l3 vlan vcell : BitVec 12)
  /-- LOG_CLEAR (R146): A write of CLEAR from SERVICE empties the trouble log and writes LOG_CLEARED; from others it is DENIED. -/
  | logClear (i : Initiator)
  /-- LOG_ENTRY_READ (R146): A read of LOG_E0 copies the selected entry into LOG_E1 to LOG_E3 in the same cycle. -/
  | logEntryRead (i : Initiator)
  /-- STAGE_COMPLETE (R177): The staged slot is verified and preloaded and becomes STAGED, or becomes EMPTY with STAGE_FAIL. -/
  | stageComplete (j : Fin 16)
  /-- ANNOUNCE_RX (R190): A received announcement updates NBR_DIGEST and NBR_EPOCH and is compared with EXP. -/
  | announceRx (g : Fin 4) (digest : BitVec 128) (epoch : Word) (pend : Option (BitVec 48 × BitVec 128))
  /-- EXP_DIGEST_COMMIT (R190): A write of EXP_DIGEST_3 commits the four words and compares the node's own values with them. -/
  | expDigestCommit (i : Initiator) (v : Word)
  /-- NBR_SILENT (R190): A group receiving no announcement for 150,000 frames becomes SILENT and is logged. -/
  | nbrSilent (g : Fin 4)
  /-- OTP_PROGRAM_DONE (R191): Programming of a counted setting completes, or fails with SETTING_FAIL leaving the old value. -/
  | otpProgramDone (success : Bool)
  /-- ADC_TRIGGER (R218): A trigger of an enabled ADC entry starts it if the core is free, otherwise queues it, or drops it with TRIG_OVR. -/
  | adcTrigger (c : Fin 40) (e : Fin 16)
  /-- ADC_SW_TRIG (R243): A write of 1 to an entry's bit in ADC_SW_TRIG triggers a software-triggered entry. -/
  | adcSwTrig (i : Initiator) (c : Fin 40) (v : Word)
  /-- ENTRY_START (R219): A queued entry starts at the first sample instant after the core becomes free. -/
  | entryStart (c : Fin 40) (cycle : BitVec 13)
  /-- ENTRY_RESULT (R224): At the end of a window or burst the result and count registers are written together. -/
  | entryResult (c : Fin 40) (l : List Int) (cycle : BitVec 13)
  /-- URGENT_REQUEST (R226): An urgent request aborts a running non-urgent entry and starts the urgent entry at the next sample instant. -/
  | urgentRequest (i : Initiator) (c : Fin 40) (v : Word)
  /-- REF_LOST (R216): A reference outside ±1.0 % for 1 µs drops REF_OK, excludes its samples and logs REF_LOST. -/
  | refLost (g : Fin 10)
  /-- REF_RESTORED (R215): A reference within ±0.5 % for 10 µs raises REF_OK, logs REF_RESTORED and counts as a change. -/
  | refRestored (g : Fin 10)
  /-- OPEN_WIRE_CHECK (R231): At the injection instant of an input the part injects and withdraws 1 µA and sets or clears OPEN. -/
  | openWireCheck (c : Fin 40) (m : Fin 4)
  /-- WIN_TRIP (R262): A comparator assertion outside blanking sets its window latch, asserts its trip lines and logs WIN_TRIP. -/
  | winTrip (n : Fin 32) (v hi lo at' : Nat) (forced : Bool)
  /-- BLANK_END (R256): When a blanking mask ends, an assertion still present acts at once. -/
  | blankEnd (n : Fin 32)
  /-- WIN_CLR (R259): A write to WIN_CLR clears a window's latches, or is refused with CLR_REFUSED if a comparator is asserted. -/
  | winClr (i : Initiator) (v : Word)
  /-- WIN_CHK_START (R263): A write of GO to WIN_CHK_CTRL starts the window self-checks, or is refused with CHK_REFUSED. -/
  | winChkStart (i : Initiator) (v : Word)
  /-- WIN_CHK_DONE (R266): The check of one window ends, passing or failing with CHK_FAIL, or inconclusive. -/
  | winChkDone (m : WinSample)
  /-- SLOT_COMPUTE (R288): A due slot, once its inputs are ready or its wait limit passes, computes its output or applies its stale response. -/
  | slotCompute (n : Fin 96) (doneAt : BitVec 13)
  /-- OPERATOR_COMPUTE (R293): A due operator instance computes its outputs and writes its pair duties in one cycle. -/
  | operatorCompute (k : Fin 128) (doneAt : BitVec 13) (agree ab : Bool) (cycle : Nat)
  /-- REARM (R298): A write of 1 to LE_REARM clears HALTED at the next tick cycle and reinitialises the slot. -/
  | rearm (i : Initiator) (b : Fin 3) (v : Word)
  /-- ARM_AT (R302): CMD = ARM_AT arms a loop-engine bank swap at frame F and starts the bank digest. -/
  | armAt (i : Initiator)
  /-- ARM_NEXT (R302): CMD = ARM_NEXT arms a bank swap at the current frame + 2. -/
  | armNext (i : Initiator)
  /-- DISARM (R302): CMD = DISARM before F returns the engine to no swap. -/
  | disarm (i : Initiator)
  /-- COPY (R304): CMD = COPY copies the active bank into the inactive bank. -/
  | copy (i : Initiator)
  /-- SEC_STATE_READ (R324): A read of S1_LO latches all four state words of the section. -/
  | secStateRead (i : Initiator) (j : Fin 512)
  /-- GS_UPDATE (R326): Once per control tick a grid-sync unit updates from its three results, or coasts. -/
  | gsUpdate (u : Fin 9)
  /-- GS_LOCK (R331): A unit meeting its lock conditions for 100 ms raises LOCKED and logs GS_LOCK. -/
  | gsLock (u : Fin 9)
  /-- RT_POINT_EXPIRY (R345): The timer of a low-voltage, high-voltage or frequency point reaches its time and trips the stage. -/
  | rtPointExpiry (g : Fin 8) (kind : Fin 5) (i : Fin 16)
  /-- GRID_START (R339): CMD = START takes a stage from OFF to WAIT_GRID, or is refused with START_REFUSED. -/
  | gridStart (i : Initiator) (g : Fin 8)
  /-- GRID_STOP (R341): CMD = STOP ramps the references to zero and takes the stage to STOPPING, or straight to OFF. -/
  | gridStop (i : Initiator) (g : Fin 8)
  /-- GRID_RESET_FAULT (R339): CMD = RESET_FAULT takes a stage in FAULT to OFF once its contactor and pairs permit. -/
  | gridResetFault (i : Initiator) (g : Fin 8)
  /-- CONNECT_DELAY_END (R340): The connection conditions held for ENTER_DELAY or RECONNECT_DELAY take the stage to CLOSING. -/
  | connectDelayEnd (g : Fin 8)
  /-- CONTACTOR_CLOSED (R339): CONT_FB = 1 held for 20 ms takes the stage to STARTING and requests the PWM clear. -/
  | contactorClosed (g : Fin 8)
  /-- CONTACTOR_TIMEOUT (R339): CONT_FB not following CONNECT within 100 ms takes the stage to FAULT with cause CONTACTOR. -/
  | contactorTimeout (g : Fin 8)
  /-- RAMP_START (R339): 20 ms after a successful clear in STARTING the stage enters RAMP. -/
  | rampStart (g : Fin 8)
  /-- RAMP_END (R339): P_ENTER reaching 2.0 takes the stage from RAMP to RUN. -/
  | rampEnd (g : Fin 8)
  /-- STOP_RAMP_END (R341): The stop ramp reaches zero, STAGE_STOP is asserted and CONNECT falls. -/
  | stopRampEnd (g : Fin 8)
  /-- CONT_FB_CHANGE (R343): A change of a contactor read-back moves a stopping or tripped stage on, or faults a running one. -/
  | contFbChange (g : Fin 8)
  /-- TRACK_STEP (R366): At a due frame tick the tracker moves V_REF by the P&O or incremental-conductance rule. -/
  | trackStep (k : Fin 24)
  /-- TRK_START (R362): CMD = START takes a tracker from OFF to WAIT, or is refused with START_REFUSED. -/
  | trkStart (i : Initiator) (k : Fin 24)
  /-- TRK_STOP (R362): CMD = STOP stops the pair and takes the tracker to OFF. -/
  | trkStop (i : Initiator) (k : Fin 24)
  /-- TRK_RESET_FAULT (R362): CMD = RESET_FAULT takes a tracker in FAULT to OFF once its pair permits. -/
  | trkResetFault (i : Initiator) (k : Fin 24)
  /-- SCAN_NOW (R370): CMD = SCAN_NOW requests one scan at the next frame tick, or sets SCAN_REF outside TRACK. -/
  | scanNow (i : Initiator) (k : Fin 24)
  /-- TRK_START_DELAY_END (R363): Start conditions held for START_DELAY take the tracker from WAIT to STARTING. -/
  | trkStartDelayEnd (k : Fin 24)
  /-- TRK_DUSK_STOP (R364): P_MEAN at or below P_STOP for 60 s takes the tracker to WAIT with the pair stopped. -/
  | trkDuskStop (k : Fin 24)
  /-- SCAN_START (R371): A due scan starts from TRACK, or is skipped with SCAN_SKIPPED in another state. -/
  | scanStart (k : Fin 24)
  /-- SCAN_DONE (R371): At the last frame of a scan V_REF moves to V_BEST or returns, and SCAN_DONE is logged. -/
  | scanDone (k : Fin 24)
  /-- ANCHOR_CELL_RX (R382): A node accepts the first valid copy of a bound anchor's cell for comparison. -/
  | anchorCellRx (c : AncCell)
  /-- ANC_SILENT (R385): An anchor delivering no cell for 3 × PUB_FRAMES + MAX_AGE frames becomes SILENT. -/
  | ancSilent (a : Fin 2)
  /-- FORCE_DISC (R388): CMD = FORCE_DISC forces a disconnect with cause OPERATOR. -/
  | forceDisc (i : Initiator)
  /-- RELEASE (R396): CMD = RELEASE permits the release of an operator-forced disconnect. -/
  | release (i : Initiator)
  /-- PERIOD_BOUNDARY (R416): At a pair's period boundary the pending shadow values become active and the duty is converted to edges. -/
  | periodBoundary (p : Fin 72)
  /-- PWM_TRIP (R423): An asserted latching trip source sets a pair's trip latch, forces its outputs low and logs PWM_TRIP. -/
  | pwmTrip (p : Fin 72) (railFault loopStale : Bool)
  /-- CYCLE_HOLD (R421): An asserted cycle-by-cycle trip line holds a pair low for the rest of the period. -/
  | cycleHold (p : Fin 72)
  /-- PWM_CLR (R426): A clear request for a tripped pair takes it to ARMED, or is refused with CLR_REFUSED. -/
  | pwmClr (i : Initiator) (w : Fin 3) (v : Word)
  /-- PWM_FORCE (R420): A write of PWM_FORCE asserts or withdraws SW_FORCE on the named pairs. -/
  | pwmForce (i : Initiator) (w : Fin 3) (v : Word)
  /-- LINE_CALIBRATION (R410): One delay line is measured per frame and its new map installed at the pair's next boundary. -/
  | lineCalibration (map : Option (List (Fin 48)))
  /-- CAL_DONE (R410): The first calibration round completes after the control PLL locks and CAL_DONE becomes 1. -/
  | calDone (maps : List (Option (List (Fin 48))))
  /-- GD_FLT (R439): A low of 40 ns or more on GDFLT_N_nn sets the pair's gate-drive latch with cause FLT. -/
  | gdFlt (p : Fin 72) (low : Bool)
  /-- STATUS_WORD_RX (R442): A received status word is validated; a valid word renews the link and its flags may set the latch. -/
  | statusWordRx (p : Fin 72) (w : BitVec 24) (codeOk : Bool)
  /-- LINK_LOST (R444): STAT_TO without a valid word takes the link DOWN and sets the latch with cause LINK. -/
  | linkLost (p : Fin 72) (ns : Nat)
  /-- GD_EN_RISE (R449): A rise of GD_EN after 10 µs low clears latches free of causes; a shorter low sets SHORT_TOGGLE. -/
  | gdEnRise (low : Nat) (locked : Bool)
  /-- SIGNATURE_COMPARE (R468): At the end of a window the checker compares the leading and trailing signatures. -/
  | signatureCompare (core eng : Option SigWindow)
  /-- SAFETY_CHANGE_RELEASE (R470): A safety output change or safety-block write is released 6 cycles after the leading copy once both copies agree. -/
  | safetyChangeRelease (agree ab : Bool) (cycle : Nat)
  /-- LS_TEST (R476): A write of GO to LS_TEST starts the checker self-test on demand. -/
  | lsTest (i : Initiator) (v : Word)
  /-- LS_TEST_DONE (R476): The checker self-test completes, setting TEST_OK or logging LS_TEST_FAIL with its reaction. -/
  | lsTestDone (failA failB : Bool)
  /-- METER_SAMPLE (R488): A channel forms a meter sample per control tick and integrates or fills its energy increments. -/
  | meterSample (m : Fin 9)
  /-- CLEAR (R495): Metering CMD = CLEAR zeroes the target accumulator at the next frame tick. -/
  | clear (i : Initiator) (target : BitVec 8)
  /-- PRESET (R495): Metering CMD = PRESET loads the target accumulator with MTR_PRESET at the next frame tick. -/
  | preset (i : Initiator) (target : BitVec 8)
  /-- INT_LEN_WRITE (R495): A write of INT_LEN ends the running interval at the next frame tick with reason CONFIG. -/
  | intLenWrite (i : Initiator) (v : Word)
  /-- METER_LO_READ (R507): A read of a metering LO word latches its HI word. -/
  | meterLoRead (i : Initiator) (k : Fin 2048)
  /-- PULSE_SAMPLE (R497): Every 100 µs the pulse inputs are sampled and an accepted fall counts one pulse. -/
  | pulseSample (levels : BitVec 16)
  /-- POUT_PULSE (R501): An idle pulse output with PENDING > 0 starts a pulse at the next frame tick. -/
  | poutPulse (j : Fin 8)
  /-- POUT_PULSE_END (R501): A pulse output ends its high time after PW and then its low time. -/
  | poutPulseEnd (j : Fin 8)
  /-- DISCREPANCY (R515): A discrepancy timer reaching DISC_T faults the input and locks out. -/
  | discrepancy (n : Fin 32)
  /-- TEST_PULSE (R516): A test-pulse source pulses low and the channels are tested at its test sample. -/
  | testPulse (k : Fin 8) (sa sb : BitVec 32)
  /-- RB_FAIL (R520): A read-back differing for longer than RB_T sets RB_FAIL and locks out. -/
  | rbFail (n : Fin 16)
  /-- OFF_PULSE (R521): An energised output is switched off briefly and its read-back must read low. -/
  | offPulse (n : Fin 16) (rb : Bool)
  /-- SAFE_TRIP (R522): A write of TRIP in SAFE_CTRL enters lockout with cause COMMAND. -/
  | safeTrip (i : Initiator) (v : Word)
  /-- LANE_DOWN (R540): A lane is declared down on loss of signal, lock or excessive uncorrectable codewords. -/
  | laneDown (l : Fin 128) (cause : Fin 16)
  /-- GROUP_DOWN (R548): A ring port group going down stops forwarding on it, enters a break and sends RING_BREAK. -/
  | groupDown (g : Fin 4) (cause : Fin 16)
  /-- RING_BREAK (R548): A received RING_BREAK enters the span in the break list at the next frame tick. -/
  | ringBreak (r : Fin 2) (span : BitVec 10) (planned drowse : Bool)
  /-- RING_HEAL (R549): A received RING_HEAL removes the span from the break list at the next frame tick. -/
  | ringHeal (r : Fin 2) (span : BitVec 10)
  /-- HEAL_HOLD_END (R549): Both groups of a broken span UP for HEAL_HOLD make the lower end send RING_HEAL. -/
  | healHoldEnd (g : Fin 4)
  /-- NBR_ID_SEND (R546): A node sends NBR_ID on each group when it comes UP and once per second. -/
  | nbrIdSend (g : Fin 4)
  /-- NBR_ID (R546): A received NBR_ID is checked; a wrong one takes the group DOWN with NBR_WRONG. -/
  | nbrId (g : Fin 4) (node : BitVec 10) (ins : Fin 8) (size : BitVec 10)
  /-- NBR_RETRY (R546): 10 s after NBR_WRONG the group is tried again. -/
  | nbrRetry (g : Fin 4)
  /-- LOOP_TEST_START (R550): With its conditions held and any backoff passed, a ring enters LOOP_TEST. -/
  | loopTestStart (r : Fin 2)
  /-- LOOP_TEST_PASS (R550): Both groups align in loopback and run 20 ms clean, taking the ring to HOLD_WAIT. -/
  | loopTestPass (r : Fin 2) (corr uncorr : Nat)
  /-- LOOP_FAIL (R550): Groups not aligned within 200 ms or failing the test take the ring to OUT with a 10 s backoff. -/
  | loopFail (r : Fin 2) (lane : Fin 128) (corr uncorr : Nat)
  /-- JOIN_START (R550): 10 ms after the first edge on the hold pin the ring enters JOINING. -/
  | joinStart (r : Fin 2)
  /-- INSERTED (R550): A joining ring with a group UP and valid NBR_ID enters IN and logs INSERTED. -/
  | inserted (r : Fin 2)
  /-- JOIN_TIMEOUT (R550): Neither group UP 500 ms after JOINING takes the ring to SELF_BYPASS. -/
  | joinTimeout (r : Fin 2)
  /-- SELF_BYPASS (R550): Both groups down for 500 ms in IN take the ring to SELF_BYPASS with a backoff. -/
  | selfBypass (r : Fin 2)
  /-- BACKOFF_END (R550): A ring's backoff expires and it returns to OUT. -/
  | backoffEnd (r : Fin 2)
  /-- INSERT_PLAN (R551): A received INSERT_PLAN makes the neighbour send a planned RING_BREAK for the span to be cut. -/
  | insertPlan (g : Fin 4) (r : Fin 2)
  /-- PLANNED_INSERT (R551): At frame N the second ring enters HOLD_WAIT if its loop test has passed. -/
  | plannedInsert (r : Fin 2)
  /-- LEAVE (R553): CMD = LEAVE sends LEAVE to the neighbours with a target frame N for an orderly removal. -/
  | leave (i : Initiator) (rings : BitVec 4)
  /-- INSERT (R562): CMD = INSERT ends a ring's backoff at once. -/
  | insert (i : Initiator) (rings : BitVec 4)
  /-- WAKE (R556): CMD = WAKE requests the wake of a drowsed or drowsing group. -/
  | wake (i : Initiator) (groups : BitVec 4)
  /-- LEAVE_CELL (R553): A received LEAVE makes the neighbour send planned RING_BREAK for both spans. -/
  | leaveCell (g : Fin 4) (rings : BitVec 2)
  /-- RELEASE_COUNTED (R554): 10 ms after the last hold edge the ring's release is counted complete and it enters OUT. -/
  | releaseCounted (r : Fin 2)
  /-- DROWSE_PROPOSE (R555): Low load for DROWSE_WIN makes the lower end send DROWSE_REQ. -/
  | drowsePropose (g : Fin 4)
  /-- DROWSE_REQ (R555): A received DROWSE_REQ is answered with DROWSE_ACK or DROWSE_NAK. -/
  | drowseReq (g : Fin 4) (q : BitVec 48) (loadOk : Bool)
  /-- DROWSE_ACK (R555): A received DROWSE_ACK reaches agreement, enters a drowse break and freezes lanes 1 to 15. -/
  | drowseAck (g : Fin 4) (q : BitVec 48)
  /-- DROWSE_NAK (R555): A received DROWSE_NAK abandons the proposal. -/
  | drowseNak (g : Fin 4)
  /-- DROWSE_REPLY_TIMEOUT (R555): No reply within 100 frames abandons a drowse proposal. -/
  | drowseReplyTimeout (g : Fin 4)
  /-- DROWSE_QUIESCE (R555): At the tick cycle of Q lanes 1 to 15 go to electrical idle and the group is DROWSED. -/
  | drowseQuiesce (g : Fin 4)
  /-- WAKE_CELL (R556): A received WAKE cell or other wake request cancels or ends the drowse and retrains lanes 1 to 15. -/
  | wakeCell (g : Fin 4) (received : Bool)
  /-- RETRAIN_DONE (R556): All 16 lanes are aligned again and the lower end sends RING_HEAL. -/
  | retrainDone (g : Fin 4)
  /-- TENANT_FRAME (R570): A frame at an access port is classified, policed, admitted and forwarded or flooded within its plot. -/
  | tenantFrame (l : Fin 128) (tag : Option (BitVec 3)) (da sa : BitVec 48) (len : Nat)
  /-- RING_FRAME (R570): A ring frame is validated, delivered at DST or forwarded with HOPS_LEFT decremented. -/
  | ringFrame (g : Fin 4) (vid : BitVec 12) (pcp : BitVec 3) (dei : Bool) (dst src hops : BitVec 10) (secOk : Bool) (da sa : BitVec 48) (len frags : Nat)
  /-- FDB_AGE (R572): A learned entry without a hit for AGE_TIME is removed from both banks. -/
  | fdbAge (p : Fin 64) (mac : BitVec 48)
  /-- POLICER_UPDATE (R577): A written policer rate takes effect at the next frame tick with the buckets limited to the new sizes. -/
  | policerUpdate (i : Initiator) (p : Fin 64) (c : Fin 6) (burst : Bool) (v : Word)
  /-- FDB_ARM_AT (R584): CMD = ARM_AT arms a forwarding-table bank swap at frame F. -/
  | fdbArmAt (i : Initiator)
  /-- FDB_DISARM (R584): CMD = DISARM leaves no forwarding-table swap armed. -/
  | fdbDisarm (i : Initiator)
  /-- FDB_COPY (R584): CMD = COPY copies the active forwarding bank into the inactive bank. -/
  | fdbCopy (i : Initiator)
  /-- FDB_WRITE (R583): CMD = WRITE writes an entry into the inactive bank, or is refused while armed or copying. -/
  | fdbWrite (i : Initiator)
  /-- FDB_READ (R583): CMD = READ reads an entry of the inactive bank into PQ_FDB_RES. -/
  | fdbRead (i : Initiator)
  /-- FDB_DELETE (R583): CMD = DELETE removes an entry from the inactive bank. -/
  | fdbDelete (i : Initiator)
  /-- CONTROL_CELL (R588): A received control cell is authenticated, checked for replay, consumed or forwarded. -/
  | controlCell (g : Fin 4) (c : Cell) (valid : Bool) (t : CellTime)
  /-- CELL_INSERT (R590): A group's insertion slot takes a planned cell or the highest-priority queued cell. -/
  | cellInsert (g : Fin 4)
  /-- UNAUTHENTIC_FRAME (R607): A command frame failing its MAC or SEQ is discarded silently and counted, closing the session after 16. -/
  | unauthenticFrame (session : BitVec 8) (transport : Fin 5) (prove : Bool)
  /-- SESSION_OPEN (R613): SESSION_OPEN allots a session index and returns PNONCE, holding the session half-open. -/
  | sessionOpen (h : Hdr) (role plot : BitVec 8) (cnonce : BitVec 128)
  /-- SESSION_PROVE (R613): SESSION_PROVE under the derived key opens the half-open session. -/
  | sessionProve (h : Hdr)
  /-- SESSION_CLOSE (R616): SESSION_CLOSE closes the session. -/
  | sessionClose (h : Hdr)
  /-- NOP (R618): NOP renews the session's idle time. -/
  | nop (h : Hdr)
  /-- PASSWORD_PRESENT (R617): PASSWORD_PRESENT checks the proof against CS_SPW and sets PW_OK, or counts a wrong presentation. -/
  | passwordPresent (h : Hdr) (proof : BitVec 256)
  /-- REG_READ (R619): REG_READ reads consecutive words, stopping at the first refused word. -/
  | regRead (h : Hdr) (a : Word) (count : BitVec 16)
  /-- REG_WRITE (R619): REG_WRITE writes consecutive words, stopping at the first refused word. -/
  | regWrite (h : Hdr) (a : Word) (count : BitVec 16) (words : List Word)
  /-- IMAGE_STAGE (R177): IMAGE_STAGE starts a long operation that writes an image into the non-active slot. -/
  | imageStage (h : Hdr) (len : Word)
  /-- DATA (R625): DATA feeds bytes at NEXT_OFS to a staging or flash write, returning the new NEXT_OFS. -/
  | data (h : Hdr) (target : BitVec 12) (ofs : Word) (l : List Byte) (bufFull : Bool)
  /-- IMAGE_ACTIVATE_AT (R180): IMAGE_ACTIVATE_AT writes a pending activation for frame N into the boot record. -/
  | imageActivateAt (h : Hdr) (n : BitVec 48) (digest : BitVec 128) (isLocal : BitVec 8)
  /-- SAFETY_CONSENT (R620): SAFETY_CONSENT records a SAFETY session's consent for the staged digest. -/
  | safetyConsent (h : Hdr) (digest : BitVec 128)
  /-- PLOT_REPITCH (R188): PLOT_REPITCH writes a pending re-pitch of plot p at frame N. -/
  | plotRepitch (h : Hdr) (p : BitVec 8) (n : BitVec 48) (digest : BitVec 128)
  /-- FLASH_WRITE (R621): FLASH_WRITE starts writing raw image bytes into a slot for the next boot. -/
  | flashWrite (h : Hdr) (slot : BitVec 8) (len : Word)
  /-- BANK_SWAP (R302): BANK_SWAP arms a loop-engine bank swap at F or at the next frame + 2. -/
  | bankSwap (h : Hdr) (mode : BitVec 8) (f : BitVec 48)
  /-- SETTING_WRITE (R191): SETTING_WRITE changes CS_GRID or CS_ROLE, consuming a count and programming OTP. -/
  | settingWrite (h : Hdr) (offset : BitVec 16) (value : Word)
  /-- SPW_CHANGE (R191): SPW_CHANGE replaces the safety password, consuming a count. -/
  | spwChange (h : Hdr) (new : BitVec 256)
  /-- LIFECYCLE_ADVANCE (R192): LIFECYCLE_ADVANCE moves the lifecycle forward and completes with a main-domain reset. -/
  | lifecycleAdvance (h : Hdr) (target : BitVec 8)
  /-- SERVICE_UNLOCK (R656): SERVICE_UNLOCK checks a signed token and opens test access within its scope, consuming a count. -/
  | serviceUnlock (h : Hdr) (token : List Byte)
  /-- KEY_ENROL (R193): KEY_ENROL enrols an image key slot in MANUFACTURE or DEVELOP. -/
  | keyEnrol (h : Hdr) (slot : BitVec 8) (hash : BitVec 384)
  /-- KEY_REVOKE (R193): KEY_REVOKE revokes a key slot, except the key of the active image. -/
  | keyRevoke (h : Hdr) (slot : BitVec 8)
  /-- CRED_SET (R615): CRED_SET installs a wrapped role credential. -/
  | credSet (h : Hdr) (role plot : BitVec 8) (wrapped : List Byte)
  /-- CAK_INSTALL (R573): CAK_INSTALL installs a wrapped MACsec CAK for a plot or management. -/
  | cakInstall (h : Hdr) (plot : BitVec 8) (ckn : BitVec 128) (wrapped : List Byte)
  /-- SYS_RESET (R164): SYS_RESET responds and then causes a main-domain reset. -/
  | sysReset (h : Hdr)
  /-- CT_RESET (R166): CT_RESET resets the control die and reloads its sections. -/
  | ctReset (h : Hdr)
  /-- LOG_DUMP (R626): LOG_DUMP starts a long operation that reads the trouble or change log. -/
  | logDump (h : Hdr) (log : BitVec 8) (from' : BitVec 64) (count : Word)
  /-- SELF_TEST_FULL (R626): SELF_TEST_FULL starts a long operation running the selected checker and window self-tests. -/
  | selfTestFull (h : Hdr) (parts : BitVec 8)
  /-- OP_STATUS (R623): OP_STATUS returns the state, final status and progress of a long operation. -/
  | opStatus (h : Hdr) (tag : BitVec 16)
  /-- OP_SUSPEND (R623): OP_SUSPEND suspends a queued or running long operation. -/
  | opSuspend (h : Hdr) (tag : BitVec 16)
  /-- OP_RESUME (R623): OP_RESUME resumes a suspended operation and makes the session its feeder. -/
  | opResume (h : Hdr) (tag : BitVec 16)
  /-- OP_CANCEL (R623): OP_CANCEL cancels a non-final long operation or a pending activation. -/
  | opCancel (h : Hdr) (tag : BitVec 16)
  /-- PLOT_QUENCH (R594): PLOT_QUENCH discards every frame of a plot from the next frame tick. -/
  | plotQuench (h : Hdr) (dest : BitVec 16) (p : BitVec 8)
  /-- PLOT_THROTTLE (R594): PLOT_THROTTLE sets the rate of a plot's throttle policer. -/
  | plotThrottle (h : Hdr) (dest : BitVec 16) (p : BitVec 8) (r : BitVec 16)
  /-- PLOT_RELEASE (R594): PLOT_RELEASE removes a plot's quench and throttle. -/
  | plotRelease (h : Hdr) (dest : BitVec 16) (p : BitVec 8)
  /-- PORT_SHUT (R594): PORT_SHUT makes an access port discard everything it receives. -/
  | portShut (h : Hdr) (dest : BitVec 16) (lane : BitVec 8)
  /-- PORT_OPEN (R594): PORT_OPEN ends a PORT_SHUT. -/
  | portOpen (h : Hdr) (dest : BitVec 16) (lane : BitVec 8)
  /-- HALF_OPEN_TIMEOUT (R613): No SESSION_PROVE within 5 s frees the half-open index and logs AUTH_FAIL. -/
  | halfOpenTimeout (k : Fin 64)
  /-- SESSION_IDLE (R616): SESS_IDLE without an authentic command closes the session. -/
  | sessionIdle (k : Fin 64)
  /-- OP_RUN (R623): A queued long operation starts running once its resource is free and the part is in Run. -/
  | opRun (j : Fin 16)
  /-- DATA_TIMEOUT (R625): A data-fed operation without DATA for 60 s becomes SUSPENDED. -/
  | dataTimeout (j : Fin 16)
  /-- SUSPEND_TIMEOUT (R623): An operation SUSPENDED for 3,600 s without OP_RESUME is cancelled. -/
  | suspendTimeout (j : Fin 16)
  /-- SHORT_COMMAND (R629): A COMMAND cell is authenticated by the front end of its target and executed under R38. -/
  | shortCommand (origin dest : BitVec 10) (fn : BitVec 48) (c : ShortCmd)
  /-- COMMAND_RESP (R629): A received COMMAND_RESP gives the holder the status to answer its session. -/
  | commandResp (sop status : BitVec 8) (tag : BitVec 12) (snonce : BitVec 64) (seq : BitVec 32) (hmac : BitVec 128)
  /-- SHORT_RESP_TIMEOUT (R629): No COMMAND_RESP within 10 ms makes the holder answer FAILED. -/
  | shortRespTimeout (tag : BitVec 12)
  /-- CSP_GO (R632): A write of GO starts a master serial transfer, or is refused with XFER_REF. -/
  | cspGo (i : Initiator) (n : Fin 4) (len : BitVec 12)
  /-- CSP_XFER_DONE (R632): A master transfer completes and its received bits are in the RX FIFO. -/
  | cspXferDone (n : Fin 4) (rx : List Word)
  /-- CSP_SLAVE_XFER (R633): A raw slave transfer ends with CS_N high, pushing its bits and length into the FIFOs. -/
  | cspSlaveXfer (n : Fin 4) (bits : Nat) (rx : List Word)
  /-- CSP_CMD_XFER (R634): A slave transfer with the command function carries one command frame in and one response out. -/
  | cspCmdXfer (n : Fin 4) (bits len : Nat)
  /-- CSP_TX_PUSH (R642): A write of CSP_TXDATA pushes a word into the TX FIFO, or sets TX_OVF if full. -/
  | cspTxPush (i : Initiator) (n : Fin 4) (v : Word)
  /-- CSP_RX_POP (R642): A read of CSP_RXDATA returns and removes the oldest word, or sets RX_UNF. -/
  | cspRxPop (i : Initiator) (n : Fin 4)
  /-- CSP_RXLEN_POP (R642): A read of CSP_RXLEN returns and removes the oldest transfer length. -/
  | cspRxlenPop (i : Initiator) (n : Fin 4)
  /-- PC_SEL_WRITE (R647): A write of PC_SEL selects the event of a counter, or returns BAD_ARG. -/
  | pcSelWrite (i : Initiator) (c : Fin 64) (v : Word)
  /-- CNT_LO_WRITE (R648): A write of CNT_LO is held until CNT_HI is written. -/
  | cntLoWrite (i : Initiator) (c : Fin 64) (v : Word)
  /-- CNT_HI_WRITE (R648): A write of CNT_HI presets the counter together with the held CNT_LO. -/
  | cntHiWrite (i : Initiator) (c : Fin 64) (v : Word)
  /-- COUNTER_LO_READ (R643): A read of a counter LO word latches its HI word. -/
  | counterLoRead (i : Initiator) (ofs : BitVec 17)
  /-- COUNTER_OVF (R649): A counter reaching 2^48 sets its PC_OVF bit and may interrupt the firmware. -/
  | counterOvf (c : Fin 64)
  /-- SNAP_NEXT (R652): CMD = SNAP_NEXT takes a counter snapshot at the next frame tick. -/
  | snapNext (i : Initiator)
  /-- SNAP_AT (R652): CMD = SNAP_AT schedules a counter snapshot at frame F. -/
  | snapAt (i : Initiator)
  /-- FREEZE (R654): CMD = FREEZE stops the selectable and loop-engine counters from the next frame tick. -/
  | freeze (i : Initiator)
  /-- UNFREEZE (R654): CMD = UNFREEZE resumes counting from the next frame tick. -/
  | unfreeze (i : Initiator)
  /-- DBG_LOCK (R671): A write of LOCK by the unlocking session ends the unlock. -/
  | dbgLock (i : Initiator)
  /-- ATEST_ROUTE (R659): A write of an ATEST route connects a source after an undriven gap and sets DISTURB for an input. -/
  | atestRoute (i : Initiator) (n : Fin 2) (v : Word)
  /-- DEBUG_HALT (R662): A debug halt of a core or the loop engine trips the pairs, breaks lockstep where applicable and logs DBG_HALT. -/
  | debugHalt (core eng : Bool) (apps : BitVec 4)
  /-- LANE_ALIGNED (R539): A lane's receiver adapts to a detected signal and reaches block and alignment-marker lock, and a port whose lanes are all aligned and deskewed comes UP. -/
  | laneAligned (l : Fin 128)
  /-- LANTERN_SUPPLY_CHANGE (R122): An external source or harvest power appears at VDD_LAN or goes away, changing SUPPLY and the conditions of the charger and of CELL_LOW. -/
  | lanternSupplyChange (ext harv : Bool)
  /-- PTP_ANNOUNCE_MESSAGE (R112): A PTP Announce message, or its absence, drives the default BMCA, which decides the master or makes a time-source node grandmaster and clears UNSYNCED. -/
  | ptpAnnounceMessage (d : BmcaInput)
  /-- SA_STATE_CHANGE (R574): The MKA firmware installs or retires a MACsec secure association of a plot on a group, at a re-pitch or at the end of SAK_LIFE, raising or dropping SA_UP and logging SA_DOWN. -/
  | saStateChange (plot : Fin 65) (g : Fin 4) (up : Bool)
  /-- FLASH_WRITE_COMPLETE (R621): After the last byte, FLASH_WRITE verifies the slot, which becomes ACTIVE from the next boot, or EMPTY with the status of R176, and the operation ends. -/
  | flashWriteComplete (j : Fin 16)
  /-- LOG_DUMP_COMPLETE (R626): A LOG_DUMP has read its last entry and sends its final response with SKIPPED and BROKEN_SEQ, ending DONE. -/
  | logDumpComplete (j : Fin 16)
  /-- LS_SIG_LO_READ (R485): A read of a LO word of LS_SIG latches its HI word in the same cycle. -/
  | lsSigLoRead (i : Initiator) (k : Fin 4)
  /-- CONTROL_TICK (R19): At each control tick edge the loop engine, grid-sync units, stages and trackers begin the work of the new tick. -/
  | controlTick
  /-- TICK_RESUME (R26): After the control PLL relocks, the control die realigns from the first time transfer and ticks resume at the following frame tick. -/
  | tickResume
  /-- TICK_STEP (R113): Once 8 offset measurements agree, the frame number steps by whole frames at the next frame tick and the remainder is slewed. -/
  | tickStep
  /-- BIAS_CHANGE_DONE (R79): A bias or assist change completes within 20 µs and the state change continues. -/
  | biasChangeDone
  /-- IDLE_AUTO_ENTRY (R75): After IDLE_DELAY with no long operation and no session command, IDLE_AUTO takes the part to Idle. -/
  | idleAutoEntry
  /-- STATE_CHANGE_DONE (R76): A state change completes, PWR_STATE is updated and any pending request is applied. -/
  | stateChangeDone
  /-- WAKE_ADMIT (R80): The head of the wake queue is admitted once no wake is in progress and the budget allows it. -/
  | wakeAdmit
  /-- DOMAIN_GOOD (R68): A waking domain reports good after its wake time and LOAD includes its max load. -/
  | domainGood
  /-- WAKE_TIMEOUT (R81): A wake that waits longer than WAKE_WAIT is removed, the state change fails and woken domains are switched off again. -/
  | wakeTimeout
  /-- DRAIN_COMPLETE (R83): The last transfer to a draining domain completes and the domain is switched off. -/
  | drainComplete
  /-- TIER1_FAULT (R73): PG_TIER1 low for 2 µs loses the main domain; the Lantern drops WAKE_OUT and enters Bivouac or Dormant. -/
  | tier1Fault
  /-- RG_PLL_LOSS (R105): Loss of the Ridgeline PLL stops forwarding, idles the lanes and lets the bypass hold release. -/
  | rgPllLoss
  /-- APP_PLL_LOSS (R105): Loss of the application PLL stops the application cores, closes sessions and stops the CSP master clocks. -/
  | appPllLoss
  /-- SYSCLK_LOSS (R105): Loss of SYSCLK acts as loss of the control, Ridgeline and application PLLs at once. -/
  | sysclkLoss
  /-- TB_FAILBACK (R99): The timebase changes back to REFCLK_SD_0 once it has been present for 100 ms. -/
  | tbFailback
  /-- SYNC_TIMEOUT (R112): No valid Sync for 2 s sets UNSYNCED. -/
  | syncTimeout
  /-- TICK_MARK_SEND (R108): The time source inserts a tick marker every 50 frames. -/
  | tickMarkSend
  /-- BOOST_TAKEOVER (R124): After the power-on reset releases, the cold-start oscillator stops and the harvest boost takes over within 2 ms. -/
  | boostTakeover
  /-- CHG_RESTART (R126): The charger restarts 60 s after its fault condition clears. -/
  | chgRestart
  /-- LXTAL_FAIL (R129): No crystal edge for 125 µs sets LXTAL_FAIL, moves the RTC to the RC oscillator and stops the hold drive. -/
  | lxtalFail
  /-- LXTAL_RETURN (R129): When crystal edges return, the RTC changes back to LXTAL within one cycle. -/
  | lxtalReturn
  /-- TRIM_PERIOD_END (R131): At the end of each 2^20-cycle period the RTC adds or skips TRIM counts. -/
  | trimPeriodEnd
  /-- RTC_SYNC_LOAD (R130): At each whole second of synchronised ring time the Lantern compares and, if needed, loads the RTC and sets RTC_VALID. -/
  | rtcSyncLoad
  /-- RIDGELINE_HEARTBEAT (R133): A Ridgeline heartbeat carries the hold requests of rings A and B, which start or stop the toggling of the hold pins. -/
  | ridgelineHeartbeat
  /-- RG_HB_LOST (R64): 2.0 ms without a Ridgeline heartbeat stops the hold drive, sets RG_HB_LOST and records the RTC time. -/
  | rgHbLost
  /-- CT_HB_LOST (R132): 100 µs without a control-die heartbeat sets CT_HB_LOST and logs it. -/
  | ctHbLost
  /-- APP_HB_LOST (R132): APP_PERIOD without a kick sets APP_HB_LOST and, with APP_ACT, restarts the application cores. -/
  | appHbLost
  /-- WAKE_IN (R134): WAKE_IN_N low for 10 ms without interruption becomes an active wake source. -/
  | wakeIn (low : Bool) (counts : Nat)
  /-- WAKE_TIMER_EXPIRY (R152): The WAKE_TIMER count reaches zero and becomes an active wake source. -/
  | wakeTimerExpiry (counts : Nat)
  /-- MAIN_WAKE (R134): With a wake source active and 50 ms since WAKE_OUT fell, the Lantern drives WAKE_OUT high and logs WAKE. -/
  | mainWake (counts : Nat)
  /-- WAKE_FAIL (R135): PG_TIER1 not high within 100 ms after WAKE_OUT rises drops WAKE_OUT, sets WAKE_FAIL and logs it. -/
  | wakeFail (counts : Nat)
  /-- WAKE_RETRY (R135): 60 s after a failed wake, with a source still active, the Lantern tries again. -/
  | wakeRetry (counts : Nat)
  /-- LOG_WRITE_SLOT (R145): At each 2 µs writing slot the Lantern writes the oldest queued entry into the trouble log. -/
  | logWriteSlot
  /-- SYS_RST (R164): SYS_RST_N low for 1 µs or more causes a main-domain reset. -/
  | sysRst
  /-- RESET_RELEASE (R169): The main-domain reset is released 1.0 ms after PG_TIER1 and SYS_RST_N are high. -/
  | resetRelease (vio0 vio1 counts : Nat)
  /-- BOOT (R169): The boot ROM reads OTP and the boot record, verifies an image slot and starts the firmware and rail plan. -/
  | boot
  /-- CONTROL_SECTIONS_LOAD (R169): Once the rail plan is complete and the control PLL is locked, the control sections are loaded and the safety sequencer starts. -/
  | controlSectionsLoad
  /-- LOCAL_ACTIVATION (R169): At the first frame tick after the control sections load, the image is activated locally and TICK_RUN becomes 1. -/
  | localActivation
  /-- PENDING_RESOLVE (R170): At the first frame tick with UNSYNCED clear after boot, a pending activation is compared with its target and kept, met or missed. -/
  | pendingResolve
  /-- ACTIVATION (R181): In the tick cycle of frame N the staged image is activated, its changed sections handled by class, and the operation ends. -/
  | activation
  /-- COMMIT_MARKER (R181): No later than 1 ms after activation the commit marker is programmed into the pending record. -/
  | commitMarker
  /-- BOOT_RECORD_REWRITE (R181): No later than 100 ms after activation the boot record is rewritten with the new slot states. -/
  | bootRecordRewrite
  /-- REPITCH (R188): At frame N a plot is re-pitched: its frames discarded, its queues and policers restarted and its SAs renewed. -/
  | repitch
  /-- SEC_MIN_RAISE (R186): After 24 h active without reset, an image with RAISE_MIN raises SEC_MIN in OTP. -/
  | secMinRaise
  /-- ANNOUNCE_SEND (R189): Once every 50,000 frames each node sends an announcement cell on each ring port group. -/
  | announceSend
  /-- CLOG_FLASH_WRITE (R196): A queued change-log entry is written to flash and the NVCA chain head is updated. -/
  | clogFlashWrite
  /-- ENGINE_START (R299): The loop engine starts with all states zero and a two-frame grace period. -/
  | engineStart
  /-- BANK_DIGEST_DONE (R302): The bank digest is computed and ARM_STATE becomes armed. -/
  | bankDigestDone
  /-- COPY_DONE (R304): The bank copy completes and COPY_BUSY clears. -/
  | copyDone
  /-- LE_SWAP (R303): In the tick cycle of F the armed bank becomes active, SWAP_DONE is set and a change-log entry is appended. -/
  | leSwap
  /-- PHASOR_PUBLISH (R378): An anchor publishes a phasor cell per ring direction at its publication frames. -/
  | phasorPublish
  /-- BREAKER_CHANGE (R381): A rise of BRK_OPEN or GRID_DEAD on an anchor sends three breaker cells and acts as DTT for itself. -/
  | breakerChange
  /-- ROCOF_CRITERION (R392): |ROCOF| above ROCOF_LIM for ROCOF_T meets the ROCOF disconnect criterion. -/
  | rocofCriterion
  /-- AFD_CRITERION (R394): |F − F_NOM| above AFD_FLIM for AFD_T with AFD on meets the AFD criterion. -/
  | afdCriterion
  /-- ISL_RELEASE (R396): Release conditions held for CLR_DELAY drop DISC and log ISL_RELEASE. -/
  | islRelease
  /-- BASE_CLOCK_LOSS (R428): No base clock edge for 10 ns asserts CLK_LOSS and forces every pair low. -/
  | baseClockLoss
  /-- GD_EN_LOW (R448): GD_EN low for 2 µs or more sets the latch of every watched pair with cause ENABLE. -/
  | gdEnLow
  /-- INTERVAL_LATCH (R493): At an interval boundary each record is latched with its deltas and reasons. -/
  | intervalLatch
  /-- METER_RETAIN (R496): At every whole second and sleep entry the accumulators are copied under CRC into the Lantern. -/
  | meterRetain
  /-- SEQ_WDOG (R513): Three frames without an image write drive every safety output low with cause SEQ_WDOG. -/
  | seqWdog
  /-- SAFE_ACK_PRESS (R523): The accepted fall of a SAFE_ACK press ends the lockout if valid and no cause is pending, or is refused or rejected. -/
  | safeAckPress
  /-- PW_BLOCK_END (R526): 60 s after the fifth wrong password presentation the block on presentations ends. -/
  | pwBlockEnd
  /-- LEAVE_AT_N (R553): At frame N of a removal the node withdraws its hold requests, with a reset 1 ms later where requested. -/
  | leaveAtN
  /-- FDB_COPY_DONE (R584): The forwarding-table copy completes. -/
  | fdbCopyDone
  /-- FDB_SWAP (R584): At frame F the inactive forwarding bank becomes active, or the swap is discarded. -/
  | fdbSwap
  /-- PLOT_COMMAND_EFFECT (R594): A quench, throttle, release, shut or open takes effect at the first frame tick after arrival. -/
  | plotCommandEffect
  /-- BW_WINDOW_END (R651): At the end of a bandwidth window the min, max and mean rates are latched. -/
  | bwWindowEnd
  /-- SNAPSHOT (R653): At the scheduled tick every counter is copied into the snapshot window, or the snapshot is missed. -/
  | snapshot
  /-- UNLOCK_END (R657): An unlock ends by time, session close, reset or lifecycle change, closing all test routes. -/
  | unlockEnd
  /-- IDCODE (R661): The IDCODE instruction selects the identification register. -/
  | idcode
  /-- SAMPLE_PRELOAD (R661): The SAMPLE/PRELOAD instruction samples the boundary-scan cells. -/
  | samplePreload
  /-- EXTEST (R60): The EXTEST instruction drives observed outputs low while the pins are tested. -/
  | extest
  /-- INTEST (R60): The INTEST instruction tests the internal logic with the safety outputs driven low. -/
  | intest
  /-- EXTEST_PULSE (R661): The EXTEST_PULSE instruction tests the AC-coupled lanes under IEEE 1149.6. -/
  | extestPulse
  /-- EXTEST_TRAIN (R661): The EXTEST_TRAIN instruction tests the AC-coupled lanes with pulse trains. -/
  | extestTrain
  /-- BYPASS (R661): The BYPASS instruction, or any code not permitted, selects the bypass register. -/
  | bypass
  /-- DEBUG (R662): The DEBUG instruction gives access to the debug ports of the cores and loop engine. -/
  | debug
  /-- DEBUG_RESUME (R307): A resume from a debug halt restarts the engine in test-stand mode or clears the halt while LOCKSTEP holds. -/
  | debugResume
  /-- LANTERN_RESET_ASSERT (R123): VDD_LAN falls below 1.55 V, the Lantern power-on reset asserts and the Lantern stops entirely, losing RTC, log and settings. -/
  | lanternResetAssert
  /-- PRELOAD_COMPLETE (R170): The preload of the staged slot after boot completes and PRELOADED becomes 1. -/
  | preloadComplete
  deriving DecidableEq, Repr

end Sys2Proof
end

