-- ==== Sys2Proof/WellFormed.lean ====
section
/-!
DEFINITION. WellFormed.lean: which terms of Instr a source can send: the widths that a frame, a cell and a register give their
fields (R379, R569, R586, R606, R628).
-/
namespace Sys2Proof

/-- A header whose ARG_LEN its transport carries (R606): 4,096 bytes, 462 on a serial port. -/
def Hdr.wf (h : Hdr) : Bool := decide (h.argLen ≤ (if 2 ≤ h.transport.val then 462 else 4096))

/-- An anchor cell's payload in its widths (R379). -/
def AncCell.wf (c : AncCell) : Bool :=
  decide (c.ancId < 2 ^ 16 ∧ c.seq < 2 ^ 8 ∧ c.fn < 2 ^ 48 ∧ c.angle < 2 ^ 32 ∧ c.v1 < 2 ^ 32 ∧ c.freq < 2 ^ 32 ∧ c.rocof < 2 ^ 32)

/-- A short command in its widths (R628). -/
def ShortCmd.wf (c : ShortCmd) : Bool :=
  decide (c.sop < 2 ^ 8 ∧ c.role < 2 ^ 8 ∧ c.session < 2 ^ 8 ∧ c.tag < 2 ^ 12 ∧ c.snonce.length = 8 ∧ c.seq < 2 ^ 32 ∧ c.arg0 < 2 ^ 32
    ∧ c.arg1 < 2 ^ 32)

/-- The payload of a cell in its widths (R545, R587, R629). -/
def CellBody.wf : CellBody → Bool
  | .anchor p => decide (p.length ≤ 72)
  | .tickMark fn => decide (fn < 2 ^ 48)
  | .announce l => decide (l.length = 5 ∨ l.length = 10)
  | .command c => c.wf
  | .commandResp sop st tag sn seq _ => decide (sop < 2 ^ 8 ∧ st < 2 ^ 8 ∧ tag < 2 ^ 12 ∧ sn.length = 8 ∧ seq < 2 ^ 32)
  | .ringBreak r span _ _ _ => decide (r < 2 ∧ span < 2 ^ 10)
  | .leave rings n => decide (rings < 4 ∧ n < 2 ^ 48)
  | .wake g => decide (g < 4)
  | .ringHeal r span _ => decide (r < 2 ∧ span < 2 ^ 10)
  | .insertPlan r n => decide (r < 2 ∧ n < 2 ^ 48)
  | .drowseReq r n => decide (r < 2 ∧ n < 2 ^ 48)
  | .drowseAck r n => decide (r < 2 ∧ n < 2 ^ 48)
  | .drowseNak r n _ => decide (r < 2 ∧ n < 2 ^ 48)
  | .nbrId node ins size => decide (node < 2 ^ 10 ∧ ins < 8 ∧ size < 2 ^ 10)
  | .ptp _ _ => true
  | .other t => decide (t < 2 ^ 8)

/-- A signature window of 1 to 4,096 cycles, in both copies (R468). -/
def windowWf (w : Option SigWindow) : Bool :=
  match w with | some w => decide (w.lead.length = w.trail.length ∧ 1 ≤ w.lead.length ∧ w.lead.length ≤ 4096) | none => true

/-- A calibrated map selects 32 of the 48 taps (R409). -/
def mapWf (m : Option (List (Fin 48))) : Bool := match m with | some l => decide (l.length = 32) | none => true

/-- A control cell in its widths (R586). -/
def Cell.wf (c : Cell) : Bool :=
  c.body.wf && decide (c.origin < 2 ^ 10 ∧ c.reach < 4 ∧ c.hops < 2 ^ 10 ∧ c.fn < 2 ^ 48 ∧ c.hseq < 2 ^ 16 ∧ c.dest < 2 ^ 10)

/-- A command that its source can send. -/
def Instr.wf : Instr → Bool
  | .registerWrite _ _ _ _ => true
  | .rcFieldRead _ _ _ => true
  | .frameTick _ _ _ _ => true
  | .controlTick => true
  | .tickResume => true
  | .tickStep => true
  | .biasChangeDone => true
  | .reqRun _ => true
  | .reqIdle _ => true
  | .reqRingOnly _ => true
  | .reqBivouac _ => true
  | .reqDormant _ => true
  | .idleAutoEntry => true
  | .stateChangeDone => true
  | .wakeAdmit => true
  | .domainGood => true
  | .wakeTimeout => true
  | .drainComplete => true
  | .drainAbort n _ => decide (n < 65536)
  | .railSequenceStep _ mv _ _ => decide (mv.length = 8)
  | .railPgTimeout _ => true
  | .railFault _ => true
  | .tier1Fault => true
  | .pmbAlert _ _ => true
  | .pmbusPoll vout iout _ => decide (vout.length ≤ 16 ∧ iout.length ≤ 16)
  | .ioBankSupplyLoss _ => true
  | .ctrlPllGated _ _ => true
  | .ctrlPllLock _ => true
  | .rgPllLoss => true
  | .appPllLoss => true
  | .serdesPllLoss _ => true
  | .sysclkLoss => true
  | .refclkLoss _ => true
  | .tbFailback => true
  | .pllRelock _ _ => true
  | .syncMessage _ _ _ _ _ => true
  | .pdelayMessage _ _ _ _ _ _ => true
  | .syncTimeout => true
  | .tickMark _ ns _ => decide (ns < 20000)
  | .tickMarkSend => true
  | .rtNowRead _ _ => true
  | .lanternColdStart _ => true
  | .boostTakeover => true
  | .harvestOcvMeasure _ => true
  | .chargerPhase _ _ _ _ => true
  | .chgFault _ _ => true
  | .chgRestart => true
  | .cellUv _ => true
  | .cellReconnect _ => true
  | .lxtalFail => true
  | .lxtalReturn => true
  | .trimPeriodEnd => true
  | .rtcSyncLoad => true
  | .rtcRead _ => true
  | .ridgelineHeartbeat => true
  | .appKick _ => true
  | .rgHbLost => true
  | .ctHbLost => true
  | .appHbLost => true
  | .holdWaitEnd _ => true
  | .bypassCounted _ => true
  | .bypPosSample _ _ => true
  | .wakeIn _ _ => true
  | .wakeTimerExpiry _ => true
  | .mainWake _ => true
  | .wakeFail _ => true
  | .wakeRetry _ => true
  | .bivouacCycle _ _ _ _ _ => true
  | .lmonConvert _ _ _ _ _ _ => true
  | .logWriteSlot => true
  | .logClear _ => true
  | .logEntryRead _ => true
  | .sysRst => true
  | .resetRelease _ _ _ => true
  | .boot => true
  | .controlSectionsLoad => true
  | .localActivation => true
  | .pendingResolve => true
  | .stageComplete _ => true
  | .activation => true
  | .commitMarker => true
  | .bootRecordRewrite => true
  | .repitch => true
  | .secMinRaise => true
  | .announceSend => true
  | .announceRx _ _ _ _ => true
  | .expDigestCommit _ _ => true
  | .nbrSilent _ => true
  | .otpProgramDone _ => true
  | .clogFlashWrite => true
  | .adcTrigger _ _ => true
  | .adcSwTrig _ _ _ => true
  | .entryStart _ _ => true
  | .entryResult _ l _ => decide (l.length ≤ 2500)
  | .urgentRequest _ _ _ => true
  | .refLost _ => true
  | .refRestored _ => true
  | .openWireCheck _ _ => true
  | .winTrip _ v hi lo _ _ => decide (v ≤ 2100000 ∧ hi ≤ 2100000 ∧ lo ≤ 2100000)
  | .blankEnd _ => true
  | .winClr _ _ => true
  | .winChkStart _ _ => true
  | .winChkDone _ => true
  | .slotCompute _ _ => true
  | .operatorCompute _ _ _ _ _ => true
  | .rearm _ _ _ => true
  | .engineStart => true
  | .armAt _ => true
  | .armNext _ => true
  | .disarm _ => true
  | .copy _ => true
  | .bankDigestDone => true
  | .copyDone => true
  | .leSwap => true
  | .secStateRead _ _ => true
  | .gsUpdate _ => true
  | .gsLock _ => true
  | .rtPointExpiry _ _ _ => true
  | .gridStart _ _ => true
  | .gridStop _ _ => true
  | .gridResetFault _ _ => true
  | .connectDelayEnd _ => true
  | .contactorClosed _ => true
  | .contactorTimeout _ => true
  | .rampStart _ => true
  | .rampEnd _ => true
  | .stopRampEnd _ => true
  | .contFbChange _ => true
  | .trackStep _ => true
  | .trkStart _ _ => true
  | .trkStop _ _ => true
  | .trkResetFault _ _ => true
  | .scanNow _ _ => true
  | .trkStartDelayEnd _ => true
  | .trkDuskStop _ => true
  | .scanStart _ => true
  | .scanDone _ => true
  | .phasorPublish => true
  | .breakerChange => true
  | .anchorCellRx c => c.wf
  | .ancSilent _ => true
  | .rocofCriterion => true
  | .afdCriterion => true
  | .islRelease => true
  | .forceDisc _ => true
  | .release _ => true
  | .periodBoundary _ => true
  | .pwmTrip _ _ _ => true
  | .cycleHold _ => true
  | .pwmClr _ _ _ => true
  | .pwmForce _ _ _ => true
  | .lineCalibration m => mapWf m
  | .calDone maps => decide (maps.length = 144) && maps.all mapWf
  | .baseClockLoss => true
  | .gdFlt _ _ => true
  | .statusWordRx _ _ _ => true
  | .linkLost _ _ => true
  | .gdEnLow => true
  | .gdEnRise _ _ => true
  | .signatureCompare core eng => windowWf core && windowWf eng && (core.isSome || eng.isSome)
  | .safetyChangeRelease _ _ _ => true
  | .lsTest _ _ => true
  | .lsTestDone _ _ => true
  | .meterSample _ => true
  | .intervalLatch => true
  | .clear _ _ => true
  | .preset _ _ => true
  | .intLenWrite _ _ => true
  | .meterRetain => true
  | .meterLoRead _ _ => true
  | .pulseSample _ => true
  | .poutPulse _ => true
  | .poutPulseEnd _ => true
  | .discrepancy _ => true
  | .testPulse _ _ _ => true
  | .seqWdog => true
  | .rbFail _ => true
  | .offPulse _ _ => true
  | .safeTrip _ _ => true
  | .safeAckPress => true
  | .pwBlockEnd => true
  | .laneDown _ _ => true
  | .groupDown _ _ => true
  | .ringBreak _ _ _ _ => true
  | .ringHeal _ _ => true
  | .healHoldEnd _ => true
  | .nbrIdSend _ => true
  | .nbrId _ _ _ _ => true
  | .nbrRetry _ => true
  | .loopTestStart _ => true
  | .loopTestPass _ _ _ => true
  | .loopFail _ _ _ _ => true
  | .joinStart _ => true
  | .inserted _ => true
  | .joinTimeout _ => true
  | .selfBypass _ => true
  | .backoffEnd _ => true
  | .insertPlan _ _ => true
  | .plannedInsert _ => true
  | .leave _ _ => true
  | .insert _ _ => true
  | .wake _ _ => true
  | .leaveCell _ _ => true
  | .leaveAtN => true
  | .releaseCounted _ => true
  | .drowsePropose _ => true
  | .drowseReq _ _ _ => true
  | .drowseAck _ _ => true
  | .drowseNak _ => true
  | .drowseReplyTimeout _ => true
  | .drowseQuiesce _ => true
  | .wakeCell _ _ => true
  | .retrainDone _ => true
  | .tenantFrame _ _ _ _ len => decide (64 ≤ len)
  | .ringFrame _ _ _ _ _ _ _ _ _ _ len _ => decide (64 ≤ len)
  | .fdbAge _ _ => true
  | .policerUpdate _ _ _ _ _ => true
  | .fdbArmAt _ => true
  | .fdbDisarm _ => true
  | .fdbCopy _ => true
  | .fdbCopyDone => true
  | .fdbWrite _ => true
  | .fdbRead _ => true
  | .fdbDelete _ => true
  | .fdbSwap => true
  | .controlCell _ c _ t => c.wf && decide (t.ns < 20000)
  | .cellInsert _ => true
  | .plotCommandEffect => true
  | .unauthenticFrame _ _ _ => true
  | .sessionOpen h _ _ _ => h.wf
  | .sessionProve h => h.wf
  | .sessionClose h => h.wf
  | .nop h => h.wf
  | .passwordPresent h _ => h.wf
  | .regRead h _ _ => h.wf
  | .regWrite h _ _ words => h.wf && decide (words.length ≤ 1024)
  | .imageStage h _ => h.wf
  | .data h _ _ l _ => h.wf && decide (l.length + 6 = h.argLen)
  | .imageActivateAt h _ _ _ => h.wf
  | .safetyConsent h _ => h.wf
  | .plotRepitch h _ _ _ => h.wf
  | .flashWrite h _ _ => h.wf
  | .bankSwap h _ _ => h.wf
  | .settingWrite h _ _ => h.wf
  | .spwChange h _ => h.wf
  | .lifecycleAdvance h _ => h.wf
  | .serviceUnlock h token => h.wf && decide (token.length ≤ h.argLen)
  | .keyEnrol h _ _ => h.wf
  | .keyRevoke h _ => h.wf
  | .credSet h _ _ wrapped => h.wf && decide (wrapped.length ≤ h.argLen)
  | .cakInstall h _ _ wrapped => h.wf && decide (wrapped.length ≤ h.argLen)
  | .sysReset h => h.wf
  | .ctReset h => h.wf
  | .logDump h _ _ _ => h.wf
  | .selfTestFull h _ => h.wf
  | .opStatus h _ => h.wf
  | .opSuspend h _ => h.wf
  | .opResume h _ => h.wf
  | .opCancel h _ => h.wf
  | .plotQuench h _ _ => h.wf
  | .plotThrottle h _ _ _ => h.wf
  | .plotRelease h _ _ => h.wf
  | .portShut h _ _ => h.wf
  | .portOpen h _ _ => h.wf
  | .halfOpenTimeout _ => true
  | .sessionIdle _ => true
  | .opRun _ => true
  | .dataTimeout _ => true
  | .suspendTimeout _ => true
  | .shortCommand _ _ _ c => c.wf
  | .commandResp _ _ _ _ _ _ => true
  | .shortRespTimeout _ => true
  | .cspGo _ _ _ => true
  | .cspXferDone _ rx => decide (rx.length ≤ 128)
  | .cspSlaveXfer _ bits rx => decide (32 * rx.length ≤ bits + 31)
  | .cspCmdXfer _ _ len => decide (len ≤ 65535)
  | .cspTxPush _ _ _ => true
  | .cspRxPop _ _ => true
  | .cspRxlenPop _ _ => true
  | .pcSelWrite _ _ _ => true
  | .cntLoWrite _ _ _ => true
  | .cntHiWrite _ _ _ => true
  | .counterLoRead _ _ => true
  | .counterOvf _ => true
  | .bwWindowEnd => true
  | .snapNext _ => true
  | .snapAt _ => true
  | .freeze _ => true
  | .unfreeze _ => true
  | .snapshot => true
  | .unlockEnd => true
  | .dbgLock _ => true
  | .atestRoute _ _ _ => true
  | .idcode => true
  | .samplePreload => true
  | .extest => true
  | .intest => true
  | .extestPulse => true
  | .extestTrain => true
  | .bypass => true
  | .debug => true
  | .debugHalt _ _ _ => true
  | .debugResume => true
  | .laneAligned _ => true
  | .lanternResetAssert => true
  | .lanternSupplyChange _ _ => true
  | .ptpAnnounceMessage _ => true
  | .saStateChange _ _ _ => true
  | .preloadComplete => true
  | .flashWriteComplete _ => true
  | .logDumpComplete _ => true
  | .lsSigLoRead _ _ => true

end Sys2Proof
end

