-- ==== Sys2Proof/Decode.lean ====
section
/-!
DEFINITION. Decode.lean: the commands that a word spells by the bits of spec/opcode_table.json. No row of the table gives bits: a command is
a frame, a register access or an event, and no word spells one.
-/
namespace Sys2Proof

/-- The command that the `nbits` bits of `w` spell by the table's bits: none, since no row has any. -/
def decodeTableWord (_nbits _w : Nat) : Option Instr := none

end Sys2Proof
end

