-- ==== Sys2Proof/Config.lean ====
section
/-!
DEFINITION. Config.lean: what is fixed for one machine and what the spec leaves open. Every `opaque` constant is a free
value: nothing in Lean can evaluate it, so a statement proved of the model holds for every value of it. The `def`s of
this file are the choices of one fitted part (its grade, its flash); each has its row in notes/assumptions.
-/
namespace Sys2Proof.Config

/-! ### The fitted part -/

/-- The part is a BX6400-X, not a BX6400-I (R2, R11): free. -/
opaque isX : Bool

/-- DEV_ID of the first steppings (R11), of either grade. -/
def devId : Word := if isX then 0x64002111#32 else 0x64001111#32

/-- GRADE of DEV_ID: 1 = BX6400-I, 2 = BX6400-X (R11). -/
def grade : Nat := (devId.toNat >>> 12) % 16

/-- Process level P_SW of the switch die, 0 to 2, read from fuses at boot (R78): free. -/
opaque pSw : Nat

/-- Goravaug's manufacturer identity in the IDCODE, as the BSDL file gives it (R661): free. -/
opaque makerId : Nat

/-- The serial number of the switch die (R656): free. -/
opaque switchSerial : BitVec 64

/-- The die serial numbers that the first change-log LINK hashes (R195): free. -/
opaque dieSerials : List Byte

/-! ### Free values of the arithmetic and of the open corners -/

/-- The `n`-th free value a step uses: a value the spec leaves open (undefined, unspecified, or not stated). -/
opaque freeValue : Nat → Nat
/-- The error of the part's sine at an ANG32 angle, in units of 2^-60, before it is limited to 1.5 × 10^-8 (R293). -/
opaque sinError : Nat → Int
/-- The relative error of the part's reciprocal of a number, in units of 2^-60, before it is limited to 2^-24 (R293). -/
opaque recipError : Int → Int

/-- What a duty computation of R293 forms from a DC input of 0, for which the spec states no reciprocal. -/
opaque recipZero : Int → Int

/-! ### Cryptography (free functions: no cipher is computed in this model, assumption 5) -/

/-- SHA-384 of a byte string. -/
opaque sha384 : List Byte → BitVec 384
/-- SHA-256 of a byte string. -/
opaque sha256 : List Byte → BitVec 256
/-- HMAC-SHA-256 of a message under a key. -/
opaque hmac256 : BitVec 256 → List Byte → BitVec 256
/-- AES key unwrap: the key a wrapped blob holds under a wrapping key, none where its integrity check fails. -/
opaque keyUnwrap : BitVec 256 → List Byte → Option (BitVec 256)
/-- ECDSA P-384: does the signature (r, s as bytes) verify over the hash under the public key. -/
opaque ecdsaVerify : List Byte → BitVec 384 → List Byte → Bool
/-- The SERVICE credential set at shipment, unique to the part (R615). -/
opaque serviceCredential : BitVec 256
/-- SHA-256 of the safety password at shipment (R617): the spec names none. -/
opaque shippedPassword : BitVec 256
/-- The public key whose SHA-384 a key slot holds: a service token is verified under it (R656), and the spec does not say where
the part finds it (assumption 5). -/
opaque publicKey : BitVec 384 → List Byte

/-! ### Image sections (the spec gives no binary format inside a section, assumption 6) -/

/-- The register values a section carries: pairs of byte address and word. Argument: section ID and content. -/
opaque sectionLoads : Nat → List Byte → List (Nat × Word)
/-- The register values of a grid code's table set in a GRID section (R344): none where it holds no set for the code. -/
opaque gridSet : List Byte → Nat → Option (List (Nat × Word))
/-- EVT_N routing of the SUPERVISION section (R50): pin, register address, bit. -/
opaque evtRouting : List Byte → List (Nat × Nat × Nat)

/-- The lengths of the FIRMWARE section's own signature: does it verify under the Goravaug key (R174, R176). -/
opaque firmwareVerifies : List Byte → Bool
/-- The static forwarding entries of a PLOT section (R585): MAC, TYPE, node, port. -/
opaque plotEntries : List Byte → List (Nat × Nat × Nat × Nat)
/-- The bucket of a forwarding-table key (plot × 2^48 + MAC): the spec gives no hash (R583). -/
opaque fdbBucket : Nat → Nat
/-- Whether the image names this node a PTP time source (R107, R112). -/
opaque timeSource : List Byte → Bool
/-- The priority1 of this node's clock that the image gives (R107). -/
opaque ptpPriority1 : List Byte → BitVec 8
/-- The rest of this node's PTP data set, which the spec does not give: clock class, accuracy, variance, priority2 and identity. -/
opaque ptpClock : BitVec 8 × BitVec 8 × BitVec 16 × BitVec 8 × BitVec 64
/-- Whether the image declares the position contacts of ring A and ring B (R65). -/
opaque posContacts : List Byte → Bool × Bool
/-- The frame offset of the announcements, within 50,000 frames, that a CLASSES section gives (R174, R189). -/
opaque announceOffset : List Byte → Nat
/-- The switched power domains an image uses, as a 16-bit mask (R74). -/
opaque usedDomains : List Byte → Nat

end Sys2Proof.Config
end

