-- ==== Sys2Proof/Machine/Math.lean ====
section
/-!
DEFINITION. Machine/Math.lean: number formats and arithmetic (R12, R13 of spec/00_scope.md; R287, R293 of
spec/09_loop_engine.md): rounding, saturation, square roots, sine and cosine, each on integers.
-/
namespace Sys2Proof.Machine

/-- Rounds a quotient to the nearest whole number, ties away from zero (R13). -/
def roundDiv (n : Int) (d : Nat) : Int :=
  if 0 ≤ n then (2 * n + d) / (2 * d) else -((2 * (-n) + d) / (2 * d))

/-- A number limited to a range. -/
def clampInt (lo hi v : Int) : Int := if v < lo then lo else if hi < v then hi else v

/-- A number limited to a symmetric range. -/
def clampSym (m v : Int) : Int := clampInt (-m) m v

/-- The 40-bit internal state (R12). -/
def sat40 (v : Int) : Int := clampInt (-(2 ^ 39)) (2 ^ 39 - 1) v

/-- PU32, CF32 and every other signed 32-bit value (R12, R13). -/
def sat32 (v : Int) : Int := clampInt (-(2 ^ 31)) (2 ^ 31 - 1) v

/-- The product of an internal value and a CF32 coefficient before saturation (R287). -/
def mulCf (x c : Int) : Int := roundDiv (x * c) (2 ^ 28)

/-- The product of two numbers in units of 2^-30, rounded. -/
def mulPu (x y : Int) : Int := roundDiv (x * y) (2 ^ 30)

/-- A product of two internal values, narrowed to internal state (R287). -/
def mul40 (x y : Int) : Int := sat40 (mulPu x y)

/-- A sum of two internal values (R287). -/
def add40 (x y : Int) : Int := sat40 (x + y)

/-- A word as a two's-complement number. -/
def wInt (w : Word) : Int := w.toInt

/-- A two's-complement number as a word. -/
def intW (v : Int) : Word := BitVec.ofInt 32 v

/-- 1.0 in PU32. -/
def pu1 : Int := 2 ^ 30

/-- The whole part of a square root, found bit by bit from bit `b - 1` down. -/
def isqrt (b n : Nat) : Nat :=
  (List.range b).foldl (fun r i => let t := r + 2 ^ (b - 1 - i); if t * t ≤ n then t else r) 0

/-- The whole number nearest to the square root of p / q. -/
def sqrtRound (p q : Nat) : Nat := (isqrt 64 (4 * p / q) + 1) / 2

/-- √3 in units of 2^-40. -/
def sqrt3 : Int := 1904410002820

/-- π / 2 in units of 2^-60. -/
def halfPi : Nat := 1811004864519280710

/-- Terms of the sine series from x in units of 2^-60: the sum and the next term, for the term numbers of a list. -/
def sinSeries (x2 : Nat) (first : Nat) (l : List Nat) : Int :=
  (l.foldl (fun (a : Int × Nat) k =>
    let t : Nat := a.2 * x2 / 2 ^ 60 / (k * (k + 1))
    (if (k / 2) % 2 = 1 then a.1 - (t : Int) else a.1 + (t : Int), t)) ((first : Int), first)).1

/-- Sine of an angle of x / 2^60, 0 ≤ x ≤ π/2, in units of 2^-60 (series to the 23rd power). -/
def sinQuad (x : Nat) : Int := sinSeries (x * x / 2 ^ 60) x [2, 4, 6, 8, 10, 12, 14, 16, 18, 20, 22]

/-- Sine of an ANG32 angle in units of 2^-60, before the part's own error. -/
def sinBase (a : Nat) : Int :=
  let q := a % 2 ^ 32 / 2 ^ 30
  let r := a % 2 ^ 30
  let x := (if q % 2 = 0 then r else 2 ^ 30 - r) * halfPi / 2 ^ 30
  if q < 2 then sinQuad x else -(sinQuad x)

/-- 1.5 × 10^-8 in units of 2^-60 (R293). -/
def trigTolerance : Int := 17293822569

/-- Sine of an ANG32 angle in units of 2^-60: within 1.5 × 10^-8 of the exact value; the error is free (R293). -/
def sin60 (a : Nat) : Int := sinBase a + clampSym trigTolerance (Config.sinError (a % 2 ^ 32))

/-- Cosine of an ANG32 angle: the sine a quarter turn on. -/
def cos60 (a : Nat) : Int := sin60 (a + 2 ^ 30)

/-- A quotient n / d formed through a reciprocal accurate to within 2^-24 relative, the error being free (R293): rounded.
Of a zero divisor the spec states no result. -/
def quotient (n d : Int) : Int :=
  let e := clampSym (2 ^ 36) (Config.recipError d)
  if d = 0 then Config.recipZero n else
  let m := n * (2 ^ 60 + e)
  if 0 < d then roundDiv m (d.toNat * 2 ^ 60) else roundDiv (-m) ((-d).toNat * 2 ^ 60)

end Sys2Proof.Machine
end

