-- ==== Sys2Proof/Machine/RegMap.lean ====
section
/-!
DEFINITION. Machine/RegMap.lean: the byte address of every register of the register space, under the spec's own name
(R40 of spec/01_architecture.md gives the block bases, each chapter's register headings the offsets). An argument is the
unit number a name carries (the pair of PWM_CFG_p, the core and entry of ADC_RESULT_e).
-/
namespace Sys2Proof.Machine.Reg

/-- ADC core bases: cores 0 to 31 and cores 32 to 39 lie in two ranges (R40). -/
abbrev adcBase (c : Nat) : Nat := if c < 32 then 0x100000 + 0x1000 * c else 0x130000 + 0x1000 * (c - 32)

/-! ### Registers of spec/00_scope.md -/

/-- R11. -/
abbrev DEV_ID : Nat := 0

/-! ### Registers of spec/06_startup_and_pitch_image.md -/

/-- R199. -/
abbrev RESET_CAUSE : Nat := 0x10
/-- R200. -/
abbrev LIFECYCLE : Nat := 0x14
/-- R201. -/
abbrev IMG_STATUS : Nat := 0x40000
/-- R202. -/
abbrev ACT_EPOCH : Nat := 0x40004
abbrev STG_EPOCH : Nat := 0x40008
abbrev EXP_EPOCH : Nat := 0x4000C
/-- R203. -/
abbrev ACT_DIGEST (p : Nat) : Nat := 0x40010 + 4 * p
abbrev STG_DIGEST (p : Nat) : Nat := 0x40020 + 4 * p
abbrev EXP_DIGEST (p : Nat) : Nat := 0x40030 + 4 * p
/-- R204. -/
abbrev ACT_AT_LO : Nat := 0x40050
abbrev ACT_AT_HI : Nat := 0x40054
/-- R205. -/
abbrev AGREE_STATUS : Nat := 0x40060
/-- R206. -/
abbrev NBR_EPOCH (p : Nat) : Nat := 0x40070 + 4 * p
abbrev NBR_DIGEST (p q : Nat) : Nat := 0x40080 + 0x10 * p + 4 * q
/-- R207. -/
abbrev CS_GRID : Nat := 0x40100
abbrev CS_ROLE : Nat := 0x40104
abbrev CS_SPW : Nat := 0x40108
abbrev CS_TOKEN : Nat := 0x4010C
/-- R208. -/
abbrev IMG_KEYS : Nat := 0x40110
/-- R209. -/
abbrev CLOG_STATUS : Nat := 0x40200
abbrev CLOG_SEQ : Nat := 0x40204

/-! ### Registers of spec/03_supplies_and_power_states.md -/

/-- R87. -/
abbrev PWR_STATE : Nat := 0x10000
/-- R88. -/
abbrev PWR_CTRL : Nat := 0x10004
/-- R89. -/
abbrev DOM_STATUS : Nat := 0x10010
/-- R90. -/
abbrev DOM_REQ : Nat := 0x10014
/-- R91. -/
abbrev PWR_EVENTS : Nat := 0x10018
/-- R92. -/
abbrev INRUSH_CFG : Nat := 0x10020
/-- R93. -/
abbrev INRUSH_STATUS : Nat := 0x10024
/-- R94. -/
abbrev DRAIN_CFG : Nat := 0x10028
/-- R95. -/
abbrev RAIL_STATUS : Nat := 0x10040
/-- R96. -/
abbrev RAIL_CFG (p : Nat) : Nat := 0x10100 + 4 * p

/-! ### Registers of spec/02_package_and_pins.md -/

/-- R56. -/
abbrev IO_BANK_STATUS : Nat := 0x10800
/-- R66. -/
abbrev BYP_PINS : Nat := 0x30400

/-! ### Registers of spec/04_clocks_and_timebase.md -/

/-- R115. -/
abbrev CLK_STATUS : Nat := 0x20000
/-- R116. -/
abbrev CLK_EVENTS : Nat := 0x20004
/-- R117. -/
abbrev SSC_CFG : Nat := 0x20010
/-- R118. -/
abbrev RT_NOW_LO : Nat := 0x20100
/-- R119. -/
abbrev RT_NOW_HI : Nat := 0x20104
/-- R120. -/
abbrev TIME_SYNC : Nat := 0x20110
/-- R121. -/
abbrev SYNCE_CFG : Nat := 0x20120

/-! ### Registers of spec/01_architecture.md -/

/-- R29. -/
abbrev SCHED_CFG : Nat := 0x20400
/-- R30. -/
abbrev SCHED_STATUS : Nat := 0x20404

/-! ### Registers of spec/05_lantern_domain.md -/

/-- R147. -/
abbrev LAN_STATUS : Nat := 0x30000
/-- R148. -/
abbrev LAN_EVENTS : Nat := 0x30004
/-- R149. -/
abbrev RTC_LO : Nat := 0x30010
/-- R150. -/
abbrev RTC_HI : Nat := 0x30014
/-- R151. -/
abbrev RTC_TRIM : Nat := 0x30018
/-- R152. -/
abbrev WAKE_TIMER : Nat := 0x30020
/-- R153. -/
abbrev POWER_CFG : Nat := 0x30100
/-- R154. -/
abbrev BIV_CFG : Nat := 0x30200
/-- R155. -/
abbrev LMON_CFG (p : Nat) : Nat := 0x30210 + 4 * p
/-- R156. -/
abbrev LMON_DATA_01 : Nat := 0x30220
/-- R157. -/
abbrev LMON_DATA_23 : Nat := 0x30224
/-- R158. -/
abbrev SUPPLY_DATA : Nat := 0x30228
/-- R159. -/
abbrev HB_CTRL : Nat := 0x30300
/-- R160. -/
abbrev LOG_STATUS : Nat := 0x30500
/-- R161. -/
abbrev LOG_OVF : Nat := 0x30504
/-- R162. -/
abbrev LOG_CTRL : Nat := 0x30508
/-- R163. -/
abbrev LOG_E (p : Nat) : Nat := 0x30510 + 4 * p

/-! ### Registers of spec/07_analogue_acquisition.md -/

/-- R238. -/
abbrev ADC_CORE_CFG (c : Nat): Nat := adcBase c + 0
/-- R239. -/
abbrev ADC_CORE_STATUS (c : Nat): Nat := adcBase c + 4
/-- R240. -/
abbrev ADC_CORE_EVENTS (c : Nat): Nat := adcBase c + 8
/-- R241. -/
abbrev ADC_ENTRY_EVENTS (c : Nat): Nat := adcBase c + 0xC
/-- R242. -/
abbrev ADC_URG_REQ (c : Nat): Nat := adcBase c + 0x10
/-- R243. -/
abbrev ADC_SW_TRIG (c : Nat): Nat := adcBase c + 0x14
/-- R244. -/
abbrev ADC_OW_CFG (c : Nat): Nat := adcBase c + 0x20
/-- R245. -/
abbrev ADC_OW_OFS (c e : Nat): Nat := adcBase c + 0x24 + 4 * e
/-- R246. -/
abbrev ADC_REF_CFG (c : Nat): Nat := adcBase c + 0x40
/-- R247. -/
abbrev ADC_ENTRY_A (c e : Nat): Nat := adcBase c + 0x100 + 8 * e
/-- R248. -/
abbrev ADC_ENTRY_B (c e : Nat): Nat := adcBase c + 0x104 + 8 * e
/-- R249. -/
abbrev ADC_RESULT (c e : Nat): Nat := adcBase c + 0x200 + 4 * e
/-- R250. -/
abbrev ADC_NCOUNT (c e : Nat): Nat := adcBase c + 0x240 + 4 * e

/-! ### Registers of spec/08_window_monitors.md -/

/-- R268. -/
abbrev WIN_CFG (p : Nat) : Nat := 0x120000 + 0x10 * p
/-- R269. -/
abbrev WIN_DAC (p : Nat) : Nat := 0x120004 + 0x10 * p
/-- R270. -/
abbrev WIN_ROUTE (p : Nat) : Nat := 0x120008 + 0x10 * p
/-- R271. -/
abbrev WIN_LATCH_HI : Nat := 0x120200
abbrev WIN_LATCH_LO : Nat := 0x120204
abbrev WIN_RAW_HI : Nat := 0x120208
abbrev WIN_RAW_LO : Nat := 0x12020C
/-- R272. -/
abbrev WIN_CLR : Nat := 0x120210
/-- R273. -/
abbrev WIN_CLR_REF : Nat := 0x120220
abbrev WIN_TRIP_EV : Nat := 0x120224
abbrev WIN_CHK_FAIL : Nat := 0x120228
/-- R274. -/
abbrev WIN_CHK_CTRL : Nat := 0x120240
/-- R275. -/
abbrev TL_STATUS : Nat := 0x120260

/-! ### Registers of spec/09_loop_engine.md -/

/-- R309. -/
abbrev LE_STATUS : Nat := 0x140000
/-- R310. -/
abbrev LE_EVENTS : Nat := 0x140004
/-- R311. -/
abbrev LE_BANK_CTRL : Nat := 0x140010
/-- R312. -/
abbrev LE_SWAP_AT_LO : Nat := 0x140014
abbrev LE_SWAP_AT_HI : Nat := 0x140018
abbrev LE_BANK_DIGEST (p : Nat) : Nat := 0x140020 + 4 * p
/-- R313. -/
abbrev LE_STRAND_USE (p : Nat) : Nat := 0x140040 + 4 * p
/-- R314. -/
abbrev LE_SLOT_STALE (p : Nat) : Nat := 0x140080 + 4 * p
abbrev LE_SLOT_HALT (p : Nat) : Nat := 0x140090 + 4 * p
abbrev LE_REARM (p : Nat) : Nat := 0x1400A0 + 4 * p
abbrev LE_OP_STALE (p : Nat) : Nat := 0x1400B0 + 4 * p
/-- R315. -/
abbrev SLOT_SRC (p : Nat) : Nat := 0x141000 + 0x20 * p
abbrev SLOT_EXEC (p : Nat) : Nat := 0x141004 + 0x20 * p
/-- R316. -/
abbrev SLOT_SEC (p : Nat) : Nat := 0x141008 + 0x20 * p
abbrev SLOT_WAIT (p : Nat) : Nat := 0x14100C + 0x20 * p
/-- R317. -/
abbrev SLOT_SP (p : Nat) : Nat := 0x141010 + 0x20 * p
abbrev SLOT_OUT (p : Nat) : Nat := 0x141014 + 0x20 * p
abbrev SLOT_STATUS (p : Nat) : Nat := 0x141018 + 0x20 * p
/-- R318. -/
abbrev IN_CFG (p : Nat) : Nat := 0x142000 + 4 * p
/-- R319. -/
abbrev OP_CTL (p : Nat) : Nat := 0x143000 + 0x20 * p
abbrev OP_IN01 (p : Nat) : Nat := 0x143004 + 0x20 * p
abbrev OP_IN23 (p : Nat) : Nat := 0x143008 + 0x20 * p
abbrev OP_IN4 (p : Nat) : Nat := 0x14300C + 0x20 * p
abbrev OP_OUT (p q : Nat) : Nat := 0x143010 + 0x20 * p + 4 * q
/-- R320. -/
abbrev SLOT_OUT_MIN (p : Nat) : Nat := 0x150000 + 0x20 * p
abbrev SLOT_OUT_MAX (p : Nat) : Nat := 0x150004 + 0x20 * p
abbrev SLOT_RISE (p : Nat) : Nat := 0x150008 + 0x20 * p
abbrev SLOT_FALL (p : Nat) : Nat := 0x15000C + 0x20 * p
abbrev SLOT_FF_W (p : Nat) : Nat := 0x150010 + 0x20 * p
abbrev SLOT_RAMP (p : Nat) : Nat := 0x150014 + 0x20 * p
/-- R321. -/
abbrev IN_OFFS (p : Nat) : Nat := 0x151000 + 0x10 * p
abbrev IN_GAIN (p : Nat) : Nat := 0x151004 + 0x10 * p
abbrev IN_SHIFT (p : Nat) : Nat := 0x151008 + 0x10 * p
/-- R322. -/
abbrev OP_P (p q : Nat) : Nat := 0x152000 + 0x20 * p + 4 * q
/-- R323. -/
abbrev SEC_B0 (p : Nat) : Nat := 0x154000 + 0x20 * p
abbrev SEC_B1 (p : Nat) : Nat := 0x154004 + 0x20 * p
abbrev SEC_B2 (p : Nat) : Nat := 0x154008 + 0x20 * p
abbrev SEC_A1 (p : Nat) : Nat := 0x15400C + 0x20 * p
abbrev SEC_A2 (p : Nat) : Nat := 0x154010 + 0x20 * p
/-- R320. -/
abbrev SLOT_OUT_MIN_ACT (p : Nat) : Nat := 0x160000 + 0x20 * p
abbrev SLOT_OUT_MAX_ACT (p : Nat) : Nat := 0x160004 + 0x20 * p
abbrev SLOT_RISE_ACT (p : Nat) : Nat := 0x160008 + 0x20 * p
abbrev SLOT_FALL_ACT (p : Nat) : Nat := 0x16000C + 0x20 * p
abbrev SLOT_FF_W_ACT (p : Nat) : Nat := 0x160010 + 0x20 * p
abbrev SLOT_RAMP_ACT (p : Nat) : Nat := 0x160014 + 0x20 * p
/-- R321. -/
abbrev IN_OFFS_ACT (p : Nat) : Nat := 0x161000 + 0x10 * p
abbrev IN_GAIN_ACT (p : Nat) : Nat := 0x161004 + 0x10 * p
abbrev IN_SHIFT_ACT (p : Nat) : Nat := 0x161008 + 0x10 * p
/-- R322. -/
abbrev OP_P_ACT (p q : Nat) : Nat := 0x162000 + 0x20 * p + 4 * q
/-- R323. -/
abbrev SEC_B0_ACT (p : Nat) : Nat := 0x164000 + 0x20 * p
abbrev SEC_B1_ACT (p : Nat) : Nat := 0x164004 + 0x20 * p
abbrev SEC_B2_ACT (p : Nat) : Nat := 0x164008 + 0x20 * p
abbrev SEC_A1_ACT (p : Nat) : Nat := 0x16400C + 0x20 * p
abbrev SEC_A2_ACT (p : Nat) : Nat := 0x164010 + 0x20 * p
/-- R324. -/
abbrev SEC_S1_LO (p : Nat) : Nat := 0x170000 + 0x10 * p
abbrev SEC_S1_HI (p : Nat) : Nat := 0x170004 + 0x10 * p
abbrev SEC_S2_LO (p : Nat) : Nat := 0x170008 + 0x10 * p
abbrev SEC_S2_HI (p : Nat) : Nat := 0x17000C + 0x10 * p

/-! ### Registers of spec/10_grid_stages.md -/

/-- R350. -/
abbrev GS_CFG (p : Nat) : Nat := 0x180000 + 0x80 * p
abbrev GS_SRC (p : Nat) : Nat := 0x180004 + 0x80 * p
abbrev GS_ANG_CAL (p : Nat) : Nat := 0x180008 + 0x80 * p
abbrev GS_TIMING (p : Nat) : Nat := 0x18000C + 0x80 * p
/-- R351. -/
abbrev GS_CAL_OFFS (p q : Nat) : Nat := 0x180010 + 0x80 * p + 0x10 * q
abbrev GS_CAL_GAIN (p q : Nat) : Nat := 0x180014 + 0x80 * p + 0x10 * q
abbrev GS_CAL_SHIFT (p q : Nat) : Nat := 0x180018 + 0x80 * p + 0x10 * q
/-- R352. -/
abbrev GS_STATUS (p : Nat) : Nat := 0x180040 + 0x80 * p
abbrev GS_EVENTS (p : Nat) : Nat := 0x180044 + 0x80 * p
/-- R353. -/
abbrev GS_V1 (p : Nat) : Nat := 0x180048 + 0x80 * p
abbrev GS_V2 (p : Nat) : Nat := 0x18004C + 0x80 * p
abbrev GS_VPH_MIN (p : Nat) : Nat := 0x180050 + 0x80 * p
abbrev GS_VPH_MAX (p : Nat) : Nat := 0x180054 + 0x80 * p
abbrev GS_VFAST (p : Nat) : Nat := 0x180058 + 0x80 * p
abbrev GS_THETA1 (p : Nat) : Nat := 0x18005C + 0x80 * p
abbrev GS_THETA2 (p : Nat) : Nat := 0x180060 + 0x80 * p
abbrev GS_FREQ (p : Nat) : Nat := 0x180064 + 0x80 * p
abbrev GS_ROCOF (p : Nat) : Nat := 0x180068 + 0x80 * p
abbrev GS_FT_ANGLE (p : Nat) : Nat := 0x18006C + 0x80 * p
abbrev GS_FT_V1 (p : Nat) : Nat := 0x180070 + 0x80 * p
abbrev GS_FT_FREQ (p : Nat) : Nat := 0x180074 + 0x80 * p
/-- R354. -/
abbrev GST_CTRL (p : Nat) : Nat := 0x181000 + 0x100 * p
abbrev GST_STATUS (p : Nat) : Nat := 0x181004 + 0x100 * p
abbrev GST_EVENTS (p : Nat) : Nat := 0x181008 + 0x100 * p
/-- R355. -/
abbrev GST_P_SET (p : Nat) : Nat := 0x181010 + 0x100 * p
abbrev GST_Q_SET (p : Nat) : Nat := 0x181014 + 0x100 * p
abbrev GST_PF_SET (p : Nat) : Nat := 0x181018 + 0x100 * p
abbrev GST_I_MAX (p : Nat) : Nat := 0x18101C + 0x100 * p
abbrev GST_QV (p q : Nat) : Nat := 0x181020 + 0x100 * p + 4 * q
abbrev GST_QV_TAU (p : Nat) : Nat := 0x181030 + 0x100 * p
/-- R356. -/
abbrev GST_REF (p q : Nat) : Nat := 0x181040 + 0x100 * p + 4 * q
abbrev GST_MAP (p : Nat) : Nat := 0x181060 + 0x100 * p
/-- R357. -/
abbrev GC_STAT : Nat := 0x184000
abbrev GC_ENTER : Nat := 0x184004
abbrev GC_K : Nat := 0x184008
abbrev GC_CEASE : Nat := 0x18400C
abbrev GC_EN_V : Nat := 0x184010
abbrev GC_EN_F : Nat := 0x184014
abbrev GC_DELAY : Nat := 0x184018
abbrev GC_RAMP : Nat := 0x18401C
abbrev GC_DROOP : Nat := 0x184020
abbrev GC_LV (p : Nat) : Nat := 0x184040 + 4 * p
abbrev GC_HV (p : Nat) : Nat := 0x184080 + 4 * p
abbrev GC_F (p : Nat) : Nat := 0x1840C0 + 4 * p

/-! ### Registers of spec/11_string_tracking.md -/

/-- R375. -/
abbrev TRK_CFG (p : Nat) : Nat := 0x190000 + 0x80 * p
abbrev TRK_LINK (p : Nat) : Nat := 0x190004 + 0x80 * p
abbrev TRK_TIMING (p : Nat) : Nat := 0x190008 + 0x80 * p
abbrev TRK_SCAN (p : Nat) : Nat := 0x19000C + 0x80 * p
/-- R376. -/
abbrev TRK_CTRL (p : Nat) : Nat := 0x190010 + 0x80 * p
abbrev TRK_STATUS (p : Nat) : Nat := 0x190014 + 0x80 * p
abbrev TRK_EVENTS (p : Nat) : Nat := 0x190018 + 0x80 * p
abbrev TRK_WIN (p : Nat) : Nat := 0x19001C + 0x80 * p
/-- R377. -/
abbrev TRK_V_MIN (p : Nat) : Nat := 0x190020 + 0x80 * p
abbrev TRK_V_MAX (p : Nat) : Nat := 0x190024 + 0x80 * p
abbrev TRK_STEP_MIN (p : Nat) : Nat := 0x190028 + 0x80 * p
abbrev TRK_STEP_MAX (p : Nat) : Nat := 0x19002C + 0x80 * p
abbrev TRK_K_ADAPT (p : Nat) : Nat := 0x190030 + 0x80 * p
abbrev TRK_DB (p : Nat) : Nat := 0x190034 + 0x80 * p
abbrev TRK_P_LIM (p : Nat) : Nat := 0x190038 + 0x80 * p
abbrev TRK_P_BAND (p : Nat) : Nat := 0x19003C + 0x80 * p
abbrev TRK_V_START (p : Nat) : Nat := 0x190040 + 0x80 * p
abbrev TRK_K_START (p : Nat) : Nat := 0x190044 + 0x80 * p
abbrev TRK_I_TRIP (p : Nat) : Nat := 0x190048 + 0x80 * p
abbrev TRK_I_REV (p : Nat) : Nat := 0x19004C + 0x80 * p
abbrev TRK_VDC_CURT (p : Nat) : Nat := 0x190050 + 0x80 * p
abbrev TRK_VDC_RES (p : Nat) : Nat := 0x190054 + 0x80 * p
abbrev TRK_CURT_STEP (p : Nat) : Nat := 0x190058 + 0x80 * p
abbrev TRK_P_STOP (p : Nat) : Nat := 0x19005C + 0x80 * p
abbrev TRK_V_REF (p : Nat) : Nat := 0x190060 + 0x80 * p
abbrev TRK_V_MEAN (p : Nat) : Nat := 0x190064 + 0x80 * p
abbrev TRK_I_MEAN (p : Nat) : Nat := 0x190068 + 0x80 * p
abbrev TRK_P_MEAN (p : Nat) : Nat := 0x19006C + 0x80 * p
abbrev TRK_V_BEST (p : Nat) : Nat := 0x190070 + 0x80 * p
abbrev TRK_P_BEST (p : Nat) : Nat := 0x190074 + 0x80 * p
abbrev TRK_COUNT (p : Nat) : Nat := 0x190078 + 0x80 * p
abbrev TRK_RSVD (p : Nat) : Nat := 0x19007C + 0x80 * p

/-! ### Registers of spec/12_islanding.md -/

/-- R399. -/
abbrev ISL_CFG : Nat := 0x1A0000
/-- R400. -/
abbrev ISL_ANC : Nat := 0x1A0004
abbrev ISL_MAP : Nat := 0x1A0008
/-- R401. -/
abbrev ISL_THR : Nat := 0x1A000C
abbrev ISL_TIME : Nat := 0x1A0010
abbrev ISL_FB : Nat := 0x1A0014
abbrev ISL_FB_TIME : Nat := 0x1A0018
abbrev ISL_AFD : Nat := 0x1A001C
/-- R402. -/
abbrev ISL_CTRL : Nat := 0x1A0020
/-- R403. -/
abbrev ISL_STATUS : Nat := 0x1A0040
abbrev ISL_EVENTS : Nat := 0x1A0044
abbrev ISL_PHI : Nat := 0x1A0048
/-- R404. -/
abbrev ISL_ANC_DELTA (p : Nat) : Nat := 0x1A0080 + 0x10 * p
abbrev ISL_ANC_DRIFT (p : Nat) : Nat := 0x1A0084 + 0x10 * p
abbrev ISL_ANC_BASE (p : Nat) : Nat := 0x1A0088 + 0x10 * p
abbrev ISL_ANC_ST (p : Nat) : Nat := 0x1A008C + 0x10 * p
/-- R405. -/
abbrev ISL_PUB : Nat := 0x1A00A0
abbrev ISL_RX : Nat := 0x1A00A4

/-! ### Registers of spec/13_pwm.md -/

/-- R432. -/
abbrev PWM_CFG (p : Nat) : Nat := 0x1C0000 + 0x80 * p
abbrev PWM_PHASE (p : Nat) : Nat := 0x1C0004 + 0x80 * p
abbrev PWM_TRIP_CFG (p : Nat) : Nat := 0x1C0008 + 0x80 * p
/-- R433. -/
abbrev PWM_PER (p : Nat) : Nat := 0x1C0010 + 0x80 * p
abbrev PWM_DUTY (p : Nat) : Nat := 0x1C0014 + 0x80 * p
abbrev PWM_DT (p : Nat) : Nat := 0x1C0018 + 0x80 * p
abbrev PWM_CMP (p q : Nat) : Nat := 0x1C001C + 0x80 * p + 4 * q
/-- R434. -/
abbrev PWM_ACT_ON (p : Nat) : Nat := 0x1C0030 + 0x80 * p
abbrev PWM_ACT_PER (p : Nat) : Nat := 0x1C0034 + 0x80 * p
/-- R435. -/
abbrev PWM_STATUS (p : Nat) : Nat := 0x1C0040 + 0x80 * p
abbrev PWM_TRIP_SRC (p : Nat) : Nat := 0x1C0044 + 0x80 * p
abbrev PWM_TRIP_LIVE (p : Nat) : Nat := 0x1C0048 + 0x80 * p
abbrev PWM_EVENTS (p : Nat) : Nat := 0x1C004C + 0x80 * p
abbrev PWM_COUNT (p : Nat) : Nat := 0x1C0050 + 0x80 * p
/-- R436. -/
abbrev PWM_CLR (p : Nat) : Nat := 0x1D0000 + 4 * p
abbrev PWM_FORCE (p : Nat) : Nat := 0x1D0010 + 4 * p
abbrev PWM_HOLD (p : Nat) : Nat := 0x1D0020 + 4 * p
abbrev PWM_TRIPPED (p : Nat) : Nat := 0x1D0030 + 4 * p
/-- R437. -/
abbrev PWM_CAL : Nat := 0x1D0040

/-! ### Registers of spec/14_gate_drive_protection.md -/

/-- R455. -/
abbrev GDL_CFG (p : Nat) : Nat := 0x1E0000 + 0x10 * p
/-- R456. -/
abbrev GDL_STATUS (p : Nat) : Nat := 0x1E0004 + 0x10 * p
/-- R457. -/
abbrev GDL_CAUSE (p : Nat) : Nat := 0x1E0008 + 0x10 * p
/-- R458. -/
abbrev GDL_COUNT (p : Nat) : Nat := 0x1E000C + 0x10 * p
/-- R459. -/
abbrev GDL_EN_CFG : Nat := 0x1E0800
/-- R460. -/
abbrev GDL_EN_STATUS : Nat := 0x1E0804
/-- R461. -/
abbrev GDL_EVENTS : Nat := 0x1E0808
/-- R462. -/
abbrev GDL_LATCHED (p : Nat) : Nat := 0x1E0810 + 4 * p

/-! ### Registers of spec/15_lockstep.md -/

/-- R481. -/
abbrev LS_CFG : Nat := 0x1F0000
/-- R482. -/
abbrev LS_STATUS : Nat := 0x1F0004
/-- R483. -/
abbrev LS_EVENTS : Nat := 0x1F0008
/-- R484. -/
abbrev LS_MM_INFO : Nat := 0x1F000C
/-- R485. -/
abbrev LS_SIG_CORE_L_LO : Nat := 0x1F0010
abbrev LS_SIG_CORE_L_HI : Nat := 0x1F0014
abbrev LS_SIG_CORE_T_LO : Nat := 0x1F0018
abbrev LS_SIG_CORE_T_HI : Nat := 0x1F001C
abbrev LS_SIG_ENG_L_LO : Nat := 0x1F0020
abbrev LS_SIG_ENG_L_HI : Nat := 0x1F0024
abbrev LS_SIG_ENG_T_LO : Nat := 0x1F0028
abbrev LS_SIG_ENG_T_HI : Nat := 0x1F002C
/-- R486. -/
abbrev LS_COUNT : Nat := 0x1F0030
abbrev LS_TEST : Nat := 0x1F0034

/-! ### Registers of spec/16_metering.md -/

/-- R504. -/
abbrev MTR_CFG (p : Nat) : Nat := 0x200000 + 0x100 * p
abbrev MTR_IN (p q : Nat) : Nat := 0x200004 + 0x100 * p + 4 * q
abbrev MTR_PBASE (p : Nat) : Nat := 0x200080 + 0x100 * p
/-- R505. -/
abbrev MTR_CAL_OFFS (p q : Nat) : Nat := 0x200020 + 0x100 * p + 0x10 * q
abbrev MTR_CAL_GAIN (p q : Nat) : Nat := 0x200024 + 0x100 * p + 0x10 * q
abbrev MTR_CAL_SHIFT (p q : Nat) : Nat := 0x200028 + 0x100 * p + 0x10 * q
/-- R506. -/
abbrev MTR_ACC_CFG (p : Nat) : Nat := 0x200084 + 0x100 * p
abbrev MTR_STATUS (p : Nat) : Nat := 0x200088 + 0x100 * p
abbrev MTR_EVENTS (p : Nat) : Nat := 0x20008C + 0x100 * p
/-- R507. -/
abbrev MTR_P (p : Nat) : Nat := 0x200090 + 0x100 * p
abbrev MTR_Q (p : Nat) : Nat := 0x200094 + 0x100 * p
abbrev MTR_ACC_LO (p q : Nat) : Nat := 0x2000A0 + 0x100 * p + 8 * q
abbrev MTR_ACC_HI (p q : Nat) : Nat := 0x2000A4 + 0x100 * p + 8 * q
/-- R508. -/
abbrev MTR_DELTA_LO (p q : Nat) : Nat := 0x2000C0 + 0x100 * p + 8 * q
abbrev MTR_DELTA_HI (p q : Nat) : Nat := 0x2000C4 + 0x100 * p + 8 * q
abbrev MTR_REC (p : Nat) : Nat := 0x2000E0 + 0x100 * p
abbrev MTR_NSAMP (p : Nat) : Nat := 0x2000E4 + 0x100 * p
abbrev MTR_FILLED (p : Nat) : Nat := 0x2000E8 + 0x100 * p
abbrev MTR_V1_MEAN (p : Nat) : Nat := 0x2000EC + 0x100 * p
abbrev MTR_F_MEAN (p : Nat) : Nat := 0x2000F0 + 0x100 * p
abbrev MTR_END_LO (p : Nat) : Nat := 0x2000F4 + 0x100 * p
abbrev MTR_END_HI (p : Nat) : Nat := 0x2000F8 + 0x100 * p
/-- R509. -/
abbrev MTR_INT_CFG : Nat := 0x201000
abbrev MTR_CMD : Nat := 0x201004
abbrev MTR_PRESET_LO : Nat := 0x201008
abbrev MTR_PRESET_HI : Nat := 0x20100C
abbrev MTR_GLB_EV : Nat := 0x201010
/-- R510. -/
abbrev PIN_CFG (p : Nat) : Nat := 0x201100 + 0x20 * p
abbrev PIN_WT (p : Nat) : Nat := 0x201104 + 0x20 * p
abbrev PIN_ACC_LO (p : Nat) : Nat := 0x201108 + 0x20 * p
abbrev PIN_ACC_HI (p : Nat) : Nat := 0x20110C + 0x20 * p
abbrev PIN_DELTA_LO (p : Nat) : Nat := 0x201110 + 0x20 * p
abbrev PIN_DELTA_HI (p : Nat) : Nat := 0x201114 + 0x20 * p
abbrev PIN_ST (p : Nat) : Nat := 0x201118 + 0x20 * p
abbrev PIN_CNT (p : Nat) : Nat := 0x20111C + 0x20 * p
/-- R511. -/
abbrev POUT_CFG (p : Nat) : Nat := 0x201400 + 0x10 * p
abbrev POUT_KC (p : Nat) : Nat := 0x201404 + 0x10 * p
abbrev POUT_ST (p : Nat) : Nat := 0x201408 + 0x10 * p
abbrev POUT_CNT (p : Nat) : Nat := 0x20140C + 0x10 * p

/-! ### Registers of spec/17_safety_io.md -/

/-- R530. -/
abbrev SAFE_STATUS : Nat := 0x220000
/-- R531. -/
abbrev SAFE_CAUSE : Nat := 0x220004
/-- R532. -/
abbrev SAFE_EVENTS : Nat := 0x220008
abbrev SAFE_CTRL : Nat := 0x22000C
abbrev SAFE_COUNT : Nat := 0x220010
/-- R533. -/
abbrev SAFE_CFG : Nat := 0x220014
/-- R534. -/
abbrev SIN_CFG (p : Nat) : Nat := 0x220100 + 4 * p
/-- R535. -/
abbrev SIN_RUN : Nat := 0x220180
abbrev SIN_FAULT : Nat := 0x220184
abbrev SIN_RAW_A : Nat := 0x220188
abbrev SIN_RAW_B : Nat := 0x22018C
abbrev SIN_DEMAND_EV : Nat := 0x220190
/-- R536. -/
abbrev SOUT_CFG (p : Nat) : Nat := 0x220200 + 8 * p
abbrev SOUT_IN (p : Nat) : Nat := 0x220204 + 8 * p
/-- R537. -/
abbrev SOUT_STATE : Nat := 0x220280
abbrev SOUT_WAIT : Nat := 0x220284
abbrev SOUT_REQ : Nat := 0x220288
abbrev SOUT_FAULT : Nat := 0x22028C

/-! ### Registers of spec/18_ridgeline_lanes_ports.md -/

/-- R559. -/
abbrev RG_LANE_CFG (p : Nat) : Nat := 0x400000 + 0x10 * p
abbrev RG_LANE_STATUS (p : Nat) : Nat := 0x400004 + 0x10 * p
abbrev RG_LANE_FEC (p : Nat) : Nat := 0x400008 + 0x10 * p
/-- R560. -/
abbrev RG_PORT_CFG (p : Nat) : Nat := 0x410000 + 0x10 * p
abbrev RG_PORT_STATUS (p : Nat) : Nat := 0x410004 + 0x10 * p
/-- R561. -/
abbrev RG_RING_CFG : Nat := 0x420000
abbrev RG_RING_TIMING : Nat := 0x420004
abbrev RG_DROWSE_CFG : Nat := 0x420008
/-- R562. -/
abbrev RG_RING_CTRL : Nat := 0x420010
/-- R563. -/
abbrev RG_RING_STATUS : Nat := 0x420014
abbrev RG_RING_EVENTS : Nat := 0x420018
/-- R564. -/
abbrev RG_GROUP_STATUS (p : Nat) : Nat := 0x420020 + 4 * p
/-- R565. -/
abbrev RG_BREAK (p q : Nat) : Nat := 0x420100 + 0x40 * p + 4 * q

/-! ### Registers of spec/19_plots_and_classes.md -/

/-- R597. -/
abbrev PQ_PLOT_CFG (p : Nat) : Nat := 0x500000 + 0x40 * p
abbrev PQ_PLOT_BUF (p : Nat) : Nat := 0x500004 + 0x40 * p
abbrev PQ_PLOT_LIM (p : Nat) : Nat := 0x500008 + 0x40 * p
/-- R598. -/
abbrev PQ_PLOT_STATUS (p : Nat) : Nat := 0x50000C + 0x40 * p
abbrev PQ_PLOT_USE (p : Nat) : Nat := 0x500010 + 0x40 * p
abbrev PQ_PLOT_DROP (p : Nat) : Nat := 0x500014 + 0x40 * p
abbrev PQ_PLOT_DROP2 (p : Nat) : Nat := 0x500018 + 0x40 * p
/-- R599. -/
abbrev PQ_POL_RATE (p q : Nat) : Nat := 0x502000 + 0x40 * p + 8 * q
abbrev PQ_POL_BURST (p q : Nat) : Nat := 0x502004 + 0x40 * p + 8 * q
/-- R600. -/
abbrev PQ_PORT_MAP (p : Nat) : Nat := 0x504000 + 0x10 * p
abbrev PQ_PORT_PCP (p : Nat) : Nat := 0x504004 + 0x10 * p
/-- R601. -/
abbrev PQ_FDB_CFG : Nat := 0x510000
abbrev PQ_FDB_CTRL : Nat := 0x510004
abbrev PQ_FDB_STATUS : Nat := 0x510008
/-- R602. -/
abbrev PQ_FDB_AT_LO : Nat := 0x51000C
abbrev PQ_FDB_AT_HI : Nat := 0x510010
abbrev PQ_FDB_KEY_LO : Nat := 0x510014
abbrev PQ_FDB_KEY_HI : Nat := 0x510018
abbrev PQ_FDB_RES : Nat := 0x51001C
/-- R603. -/
abbrev PQ_CLASS_CFG : Nat := 0x520000
abbrev PQ_CTL_STATUS : Nat := 0x520004
/-- R604. -/
abbrev PQ_CTL_CNT0 (p : Nat) : Nat := 0x520010 + 8 * p
abbrev PQ_CTL_CNT1 (p : Nat) : Nat := 0x520014 + 8 * p

/-! ### Registers of spec/20_commands_and_serial_ports.md -/

/-- R637. -/
abbrev CE_CFG : Nat := 0x600000
/-- R638. -/
abbrev CE_STATUS : Nat := 0x600004
abbrev CE_EVENTS : Nat := 0x600008
abbrev CE_COUNT : Nat := 0x60000C
/-- R639. -/
abbrev CE_SESS (p : Nat) : Nat := 0x600100 + 4 * p
/-- R640. -/
abbrev CE_OP (p : Nat) : Nat := 0x600200 + 8 * p
abbrev CE_OP2 (p : Nat) : Nat := 0x600204 + 8 * p
/-- R641. -/
abbrev CSP_CFG (p : Nat) : Nat := 0x680000 + 0x100 * p
abbrev CSP_XFER (p : Nat) : Nat := 0x680004 + 0x100 * p
/-- R642. -/
abbrev CSP_STATUS (p : Nat) : Nat := 0x680008 + 0x100 * p
abbrev CSP_TXDATA (p : Nat) : Nat := 0x68000C + 0x100 * p
abbrev CSP_RXDATA (p : Nat) : Nat := 0x680010 + 0x100 * p
abbrev CSP_RXLEN (p : Nat) : Nat := 0x680014 + 0x100 * p

/-! ### Registers of spec/21_counters_and_observation.md -/

/-- R664. -/
abbrev PCN_RX_BYTES_LO (p : Nat) : Nat := 0x700000 + 0x40 * p
abbrev PCN_RX_BYTES_HI (p : Nat) : Nat := 0x700004 + 0x40 * p
abbrev PCN_RX_FRAMES_LO (p : Nat) : Nat := 0x700008 + 0x40 * p
abbrev PCN_RX_FRAMES_HI (p : Nat) : Nat := 0x70000C + 0x40 * p
abbrev PCN_RX_DROPS_LO (p : Nat) : Nat := 0x700010 + 0x40 * p
abbrev PCN_RX_DROPS_HI (p : Nat) : Nat := 0x700014 + 0x40 * p
abbrev PCN_RX_FRAGS_LO (p : Nat) : Nat := 0x700018 + 0x40 * p
abbrev PCN_RX_FRAGS_HI (p : Nat) : Nat := 0x70001C + 0x40 * p
abbrev PCN_TX_BYTES_LO (p : Nat) : Nat := 0x700020 + 0x40 * p
abbrev PCN_TX_BYTES_HI (p : Nat) : Nat := 0x700024 + 0x40 * p
abbrev PCN_TX_FRAMES_LO (p : Nat) : Nat := 0x700028 + 0x40 * p
abbrev PCN_TX_FRAMES_HI (p : Nat) : Nat := 0x70002C + 0x40 * p
abbrev PCN_TX_DROPS_LO (p : Nat) : Nat := 0x700030 + 0x40 * p
abbrev PCN_TX_DROPS_HI (p : Nat) : Nat := 0x700034 + 0x40 * p
abbrev PCN_TX_FRAGS_LO (p : Nat) : Nat := 0x700038 + 0x40 * p
abbrev PCN_TX_FRAGS_HI (p : Nat) : Nat := 0x70003C + 0x40 * p
/-- R665. -/
abbrev BW_RX_MIN (p : Nat) : Nat := 0x702000 + 0x20 * p
abbrev BW_RX_MAX (p : Nat) : Nat := 0x702004 + 0x20 * p
abbrev BW_RX_MEAN (p : Nat) : Nat := 0x702008 + 0x20 * p
abbrev BW_TX_MIN (p : Nat) : Nat := 0x70200C + 0x20 * p
abbrev BW_TX_MAX (p : Nat) : Nat := 0x702010 + 0x20 * p
abbrev BW_TX_MEAN (p : Nat) : Nat := 0x702014 + 0x20 * p
/-- R666. -/
abbrev LE_CYC_LO (p : Nat) : Nat := 0x704000 + 8 * p
abbrev LE_CYC_HI (p : Nat) : Nat := 0x704004 + 8 * p
abbrev LE_TICKS_LO : Nat := 0x704020
abbrev LE_TICKS_HI : Nat := 0x704024
abbrev LE_MAX (p : Nat) : Nat := 0x704030 + 4 * p
abbrev LE_OVR (p : Nat) : Nat := 0x704040 + 4 * p
/-- R667. -/
abbrev PC_SEL (p : Nat) : Nat := 0x705000 + 0x10 * p
abbrev PC_CNT_LO (p : Nat) : Nat := 0x705004 + 0x10 * p
abbrev PC_CNT_HI (p : Nat) : Nat := 0x705008 + 0x10 * p
/-- R668. -/
abbrev PC_CTRL : Nat := 0x706000
abbrev PC_AT_LO : Nat := 0x706004
abbrev PC_AT_HI : Nat := 0x706008
abbrev PC_STATUS : Nat := 0x70600C
abbrev PC_SNAP_FN_LO : Nat := 0x706010
abbrev PC_SNAP_FN_HI : Nat := 0x706014
abbrev PC_BW_CFG : Nat := 0x706018
/-- R669. -/
abbrev PC_OVF (p : Nat) : Nat := 0x706020 + 4 * p
abbrev PC_RAIL (p : Nat) : Nat := 0x706100 + 4 * p
/-- R671. -/
abbrev DBG_UNLOCK : Nat := 0x780000
/-- R672. -/
abbrev DBG_OBS_SEL (p : Nat) : Nat := 0x780010 + 4 * p
abbrev DBG_ATEST_SEL (p : Nat) : Nat := 0x780020 + 4 * p
abbrev DBG_HALT_STATUS : Nat := 0x780030

end Sys2Proof.Machine.Reg
end

