-- ==== Sys2Proof/Machine/Fields.lean ====
section
/-!
DEFINITION. Machine/Fields.lean: every field of every register, as the register's address and the bit range the spec
gives it (the field tables of each chapter; an RSVD range has no field: it reads as zero, R4).
-/
namespace Sys2Proof.Machine

/-- A field of a register: the byte address and the bit range hi:lo. -/
structure FRef where
  addr : Nat
  hi : Nat
  lo : Nat
  deriving DecidableEq, Repr

/-- How many bits a field has. -/
def FRef.width (f : FRef) : Nat := f.hi + 1 - f.lo

/-- The word with ones in the field. -/
def FRef.mask (f : FRef) : Word := (BitVec.allOnes 32 >>> (31 - (f.hi - f.lo))) <<< f.lo

/-- The value of a field in a word. -/
def FRef.get (f : FRef) (w : Word) : Nat := ((w &&& f.mask) >>> f.lo).toNat

/-- A word with one field replaced; the value is taken modulo the field's range. -/
def FRef.put (f : FRef) (w : Word) (v : Nat) : Word := (w &&& ~~~f.mask) ||| ((BitVec.ofNat 32 v <<< f.lo) &&& f.mask)

namespace Fld

/-! ### Fields of spec/00_scope.md -/

abbrev DEV_ID_PART : FRef := .mk Reg.DEV_ID 31 16
abbrev DEV_ID_GRADE : FRef := .mk Reg.DEV_ID 15 12
abbrev DEV_ID_STEP_SW : FRef := .mk Reg.DEV_ID 11 8
abbrev DEV_ID_STEP_CT : FRef := .mk Reg.DEV_ID 7 4
abbrev DEV_ID_STEP_LAN : FRef := .mk Reg.DEV_ID 3 0

/-! ### Fields of spec/06_startup_and_pitch_image.md -/

abbrev RESET_CAUSE_CT_RESETS : FRef := .mk Reg.RESET_CAUSE 23 16
abbrev RESET_CAUSE_LAN_COLD : FRef := .mk Reg.RESET_CAUSE 8 8
abbrev RESET_CAUSE_CAUSE : FRef := .mk Reg.RESET_CAUSE 1 0
abbrev LIFECYCLE_STATE : FRef := .mk Reg.LIFECYCLE 1 0
abbrev IMG_STATUS_MISS_REASON : FRef := .mk Reg.IMG_STATUS 23 20
abbrev IMG_STATUS_PEND_LOCAL : FRef := .mk Reg.IMG_STATUS 17 17
abbrev IMG_STATUS_PENDING : FRef := .mk Reg.IMG_STATUS 16 16
abbrev IMG_STATUS_SLOT_B : FRef := .mk Reg.IMG_STATUS 15 12
abbrev IMG_STATUS_SLOT_A : FRef := .mk Reg.IMG_STATUS 11 8
abbrev IMG_STATUS_CLOG_GAP : FRef := .mk Reg.IMG_STATUS 6 6
abbrev IMG_STATUS_CLOG_BROKEN : FRef := .mk Reg.IMG_STATUS 5 5
abbrev IMG_STATUS_EPOCH_MISSED : FRef := .mk Reg.IMG_STATUS 4 4
abbrev IMG_STATUS_BOOT_FALLBACK : FRef := .mk Reg.IMG_STATUS 3 3
abbrev IMG_STATUS_NO_IMAGE : FRef := .mk Reg.IMG_STATUS 2 2
abbrev IMG_STATUS_PRELOADED : FRef := .mk Reg.IMG_STATUS 1 1
abbrev IMG_STATUS_ACT_SLOT : FRef := .mk Reg.IMG_STATUS 0 0
abbrev ACT_EPOCH : FRef := .mk Reg.ACT_EPOCH 31 0
abbrev STG_EPOCH : FRef := .mk Reg.STG_EPOCH 31 0
abbrev EXP_EPOCH : FRef := .mk Reg.EXP_EPOCH 31 0
abbrev ACT_DIGEST (p : Nat) : FRef := .mk (Reg.ACT_DIGEST p) 31 0
abbrev STG_DIGEST (p : Nat) : FRef := .mk (Reg.STG_DIGEST p) 31 0
abbrev EXP_DIGEST (p : Nat) : FRef := .mk (Reg.EXP_DIGEST p) 31 0
abbrev ACT_AT_LO : FRef := .mk Reg.ACT_AT_LO 31 0
abbrev ACT_AT_HI : FRef := .mk Reg.ACT_AT_HI 15 0
abbrev AGREE_STATUS_NBR_PEND : FRef := .mk Reg.AGREE_STATUS 31 28
abbrev AGREE_STATUS_SILENT_EV : FRef := .mk Reg.AGREE_STATUS 23 20
abbrev AGREE_STATUS_MISMATCH_EV : FRef := .mk Reg.AGREE_STATUS 19 16
abbrev AGREE_STATUS_SILENT : FRef := .mk Reg.AGREE_STATUS 15 12
abbrev AGREE_STATUS_MISMATCH : FRef := .mk Reg.AGREE_STATUS 11 8
abbrev AGREE_STATUS_SELF_MISMATCH_EV : FRef := .mk Reg.AGREE_STATUS 1 1
abbrev AGREE_STATUS_SELF_MISMATCH : FRef := .mk Reg.AGREE_STATUS 0 0
abbrev NBR_EPOCH (p : Nat) : FRef := .mk (Reg.NBR_EPOCH p) 31 0
abbrev NBR_DIGEST (p q : Nat) : FRef := .mk (Reg.NBR_DIGEST p q) 31 0
abbrev CS_GRID_REMAIN : FRef := .mk Reg.CS_GRID 31 24
abbrev CS_GRID_CODE : FRef := .mk Reg.CS_GRID 3 0
abbrev CS_ROLE_REMAIN : FRef := .mk Reg.CS_ROLE 31 24
abbrev CS_ROLE_ROLE_IN_FORCE : FRef := .mk Reg.CS_ROLE 8 8
abbrev CS_ROLE_ROLE : FRef := .mk Reg.CS_ROLE 0 0
abbrev CS_SPW_REMAIN : FRef := .mk Reg.CS_SPW 31 24
abbrev CS_TOKEN_REMAIN : FRef := .mk Reg.CS_TOKEN 31 24
abbrev IMG_KEYS_SEC_MIN : FRef := .mk Reg.IMG_KEYS 21 16
abbrev IMG_KEYS_REVOKED : FRef := .mk Reg.IMG_KEYS 7 4
abbrev IMG_KEYS_ENROLLED : FRef := .mk Reg.IMG_KEYS 3 0
abbrev CLOG_STATUS_QUEUED : FRef := .mk Reg.CLOG_STATUS 6 0
abbrev CLOG_SEQ_SEQ_LO : FRef := .mk Reg.CLOG_SEQ 31 0

/-! ### Fields of spec/03_supplies_and_power_states.md -/

abbrev PWR_STATE_LAST_CAUSE : FRef := .mk Reg.PWR_STATE 23 20
abbrev PWR_STATE_TARGET : FRef := .mk Reg.PWR_STATE 18 16
abbrev PWR_STATE_BUSY : FRef := .mk Reg.PWR_STATE 8 8
abbrev PWR_STATE_STATE : FRef := .mk Reg.PWR_STATE 2 0
abbrev PWR_CTRL_IDLE_DELAY : FRef := .mk Reg.PWR_CTRL 15 8
abbrev PWR_CTRL_IDLE_AUTO : FRef := .mk Reg.PWR_CTRL 4 4
abbrev PWR_CTRL_REQ : FRef := .mk Reg.PWR_CTRL 2 0
abbrev DOM_STATUS_ON : FRef := .mk Reg.DOM_STATUS 15 0
abbrev DOM_REQ_REQ_CT : FRef := .mk Reg.DOM_REQ 15 13
abbrev DOM_REQ_REQ_SDG : FRef := .mk Reg.DOM_REQ 12 5
abbrev DOM_REQ_REQ_SW : FRef := .mk Reg.DOM_REQ 4 0
abbrev PWR_EVENTS_LAST_DOM : FRef := .mk Reg.PWR_EVENTS 20 16
abbrev PWR_EVENTS_REQ_DROPPED : FRef := .mk Reg.PWR_EVENTS 5 5
abbrev PWR_EVENTS_WAKE_TIMEOUT : FRef := .mk Reg.PWR_EVENTS 4 4
abbrev PWR_EVENTS_WAKE_REFUSED : FRef := .mk Reg.PWR_EVENTS 3 3
abbrev PWR_EVENTS_DRAIN_ABORT : FRef := .mk Reg.PWR_EVENTS 2 2
abbrev PWR_EVENTS_PMB_ALERT : FRef := .mk Reg.PWR_EVENTS 1 1
abbrev PWR_EVENTS_RAIL_FAULT : FRef := .mk Reg.PWR_EVENTS 0 0
abbrev INRUSH_CFG_WAKE_WAIT : FRef := .mk Reg.INRUSH_CFG 23 16
abbrev INRUSH_CFG_BUDGET : FRef := .mk Reg.INRUSH_CFG 9 0
abbrev INRUSH_STATUS_WAKING : FRef := .mk Reg.INRUSH_STATUS 28 24
abbrev INRUSH_STATUS_QUEUED : FRef := .mk Reg.INRUSH_STATUS 20 16
abbrev INRUSH_STATUS_LOAD : FRef := .mk Reg.INRUSH_STATUS 9 0
abbrev DRAIN_CFG_DRAIN_TIMEOUT : FRef := .mk Reg.DRAIN_CFG 15 0
abbrev RAIL_STATUS_PG : FRef := .mk Reg.RAIL_STATUS 31 16
abbrev RAIL_STATUS_EN : FRef := .mk Reg.RAIL_STATUS 15 0
abbrev RAIL_CFG_PMB_EN (p : Nat) : FRef := .mk (Reg.RAIL_CFG p) 31 31
abbrev RAIL_CFG_PMB_ADDR (p : Nat) : FRef := .mk (Reg.RAIL_CFG p) 30 24
abbrev RAIL_CFG_BANK (p : Nat) : FRef := .mk (Reg.RAIL_CFG p) 19 16
abbrev RAIL_CFG_PG_DELAY (p : Nat) : FRef := .mk (Reg.RAIL_CFG p) 15 8
abbrev RAIL_CFG_CLASS (p : Nat) : FRef := .mk (Reg.RAIL_CFG p) 3 0

/-! ### Fields of spec/02_package_and_pins.md -/

abbrev IO_BANK_STATUS_MISMATCH : FRef := .mk Reg.IO_BANK_STATUS 31 24
abbrev IO_BANK_STATUS_DECL_3V3 : FRef := .mk Reg.IO_BANK_STATUS 23 16
abbrev IO_BANK_STATUS_DET_3V3 : FRef := .mk Reg.IO_BANK_STATUS 15 8
abbrev IO_BANK_STATUS_PRESENT : FRef := .mk Reg.IO_BANK_STATUS 7 0
abbrev BYP_PINS_POS_MISMATCH_B : FRef := .mk Reg.BYP_PINS 7 7
abbrev BYP_PINS_POS_MISMATCH_A : FRef := .mk Reg.BYP_PINS 6 6
abbrev BYP_PINS_POS_B : FRef := .mk Reg.BYP_PINS 5 5
abbrev BYP_PINS_POS_A : FRef := .mk Reg.BYP_PINS 4 4
abbrev BYP_PINS_POS_FIT_B : FRef := .mk Reg.BYP_PINS 3 3
abbrev BYP_PINS_POS_FIT_A : FRef := .mk Reg.BYP_PINS 2 2
abbrev BYP_PINS_HOLD_B : FRef := .mk Reg.BYP_PINS 1 1
abbrev BYP_PINS_HOLD_A : FRef := .mk Reg.BYP_PINS 0 0

/-! ### Fields of spec/04_clocks_and_timebase.md -/

abbrev CLK_STATUS_LOCK_V : FRef := .mk Reg.CLK_STATUS 31 24
abbrev CLK_STATUS_REFCLK_OK : FRef := .mk Reg.CLK_STATUS 23 20
abbrev CLK_STATUS_SD_LOCK : FRef := .mk Reg.CLK_STATUS 19 16
abbrev CLK_STATUS_TB_SRC : FRef := .mk Reg.CLK_STATUS 8 8
abbrev CLK_STATUS_SYSCLK_OK : FRef := .mk Reg.CLK_STATUS 3 3
abbrev CLK_STATUS_APP_LOCK : FRef := .mk Reg.CLK_STATUS 2 2
abbrev CLK_STATUS_RG_LOCK : FRef := .mk Reg.CLK_STATUS 1 1
abbrev CLK_STATUS_CTRL_LOCK : FRef := .mk Reg.CLK_STATUS 0 0
abbrev CLK_EVENTS_FN_MISMATCH : FRef := .mk Reg.CLK_EVENTS 16 16
abbrev CLK_EVENTS_TB_FAILOVER : FRef := .mk Reg.CLK_EVENTS 15 15
abbrev CLK_EVENTS_LOCK_PIN_FAULT : FRef := .mk Reg.CLK_EVENTS 14 14
abbrev CLK_EVENTS_REFCLK_LOSS : FRef := .mk Reg.CLK_EVENTS 13 10
abbrev CLK_EVENTS_SD_UNLOCK : FRef := .mk Reg.CLK_EVENTS 9 6
abbrev CLK_EVENTS_SYSCLK_LOSS : FRef := .mk Reg.CLK_EVENTS 3 3
abbrev CLK_EVENTS_APP_UNLOCK : FRef := .mk Reg.CLK_EVENTS 2 2
abbrev CLK_EVENTS_RG_UNLOCK : FRef := .mk Reg.CLK_EVENTS 1 1
abbrev CLK_EVENTS_CTRL_UNLOCK : FRef := .mk Reg.CLK_EVENTS 0 0
abbrev SSC_CFG_APP_DEPTH : FRef := .mk Reg.SSC_CFG 15 12
abbrev SSC_CFG_APP_MODE : FRef := .mk Reg.SSC_CFG 9 8
abbrev SSC_CFG_RG_DEPTH : FRef := .mk Reg.SSC_CFG 7 4
abbrev SSC_CFG_RG_MODE : FRef := .mk Reg.SSC_CFG 1 0
abbrev RT_NOW_LO_RT_LO : FRef := .mk Reg.RT_NOW_LO 31 0
abbrev RT_NOW_HI_RT_HI : FRef := .mk Reg.RT_NOW_HI 31 0
abbrev TIME_SYNC_OFFSET : FRef := .mk Reg.TIME_SYNC 31 16
abbrev TIME_SYNC_MASTER_PORT : FRef := .mk Reg.TIME_SYNC 9 8
abbrev TIME_SYNC_SERVO : FRef := .mk Reg.TIME_SYNC 5 4
abbrev TIME_SYNC_UNSYNCED : FRef := .mk Reg.TIME_SYNC 0 0
abbrev SYNCE_CFG_SQ1 : FRef := .mk Reg.SYNCE_CFG 31 31
abbrev SYNCE_CFG_EN1 : FRef := .mk Reg.SYNCE_CFG 23 23
abbrev SYNCE_CFG_LANE1 : FRef := .mk Reg.SYNCE_CFG 22 16
abbrev SYNCE_CFG_SQ0 : FRef := .mk Reg.SYNCE_CFG 15 15
abbrev SYNCE_CFG_EN0 : FRef := .mk Reg.SYNCE_CFG 7 7
abbrev SYNCE_CFG_LANE0 : FRef := .mk Reg.SYNCE_CFG 6 0

/-! ### Fields of spec/01_architecture.md -/

abbrev SCHED_CFG_TICK_RUN : FRef := .mk Reg.SCHED_CFG 8 8
abbrev SCHED_CFG_OVR_RESP : FRef := .mk Reg.SCHED_CFG 5 4
abbrev SCHED_CFG_TICKS : FRef := .mk Reg.SCHED_CFG 1 0
abbrev SCHED_STATUS_OVR_STRAND : FRef := .mk Reg.SCHED_STATUS 19 16
abbrev SCHED_STATUS_TICK_IDX : FRef := .mk Reg.SCHED_STATUS 9 8
abbrev SCHED_STATUS_UNSYNCED : FRef := .mk Reg.SCHED_STATUS 4 4
abbrev SCHED_STATUS_CTRL_BOUND_VOID : FRef := .mk Reg.SCHED_STATUS 3 3
abbrev SCHED_STATUS_TICK_STEP : FRef := .mk Reg.SCHED_STATUS 2 2
abbrev SCHED_STATUS_TICK_LOST : FRef := .mk Reg.SCHED_STATUS 1 1
abbrev SCHED_STATUS_TICK_OVERRUN : FRef := .mk Reg.SCHED_STATUS 0 0

/-! ### Fields of spec/05_lantern_domain.md -/

abbrev LAN_STATUS_SUPPLY : FRef := .mk Reg.LAN_STATUS 31 30
abbrev LAN_STATUS_WAKE_CAUSE : FRef := .mk Reg.LAN_STATUS 22 16
abbrev LAN_STATUS_CELL_CONN : FRef := .mk Reg.LAN_STATUS 15 15
abbrev LAN_STATUS_CHG_PHASE : FRef := .mk Reg.LAN_STATUS 13 12
abbrev LAN_STATUS_LXTAL_OK : FRef := .mk Reg.LAN_STATUS 8 8
abbrev LAN_STATUS_ORDERLY : FRef := .mk Reg.LAN_STATUS 4 4
abbrev LAN_STATUS_RTC_VALID : FRef := .mk Reg.LAN_STATUS 0 0
abbrev LAN_EVENTS_LMON_MATCH : FRef := .mk Reg.LAN_EVENTS 12 9
abbrev LAN_EVENTS_WAKE_FAIL : FRef := .mk Reg.LAN_EVENTS 8 8
abbrev LAN_EVENTS_APP_HB_LOST : FRef := .mk Reg.LAN_EVENTS 7 7
abbrev LAN_EVENTS_CT_HB_LOST : FRef := .mk Reg.LAN_EVENTS 6 6
abbrev LAN_EVENTS_RG_HB_LOST : FRef := .mk Reg.LAN_EVENTS 5 5
abbrev LAN_EVENTS_CHG_FAULT : FRef := .mk Reg.LAN_EVENTS 4 4
abbrev LAN_EVENTS_CELL_LOW : FRef := .mk Reg.LAN_EVENTS 3 3
abbrev LAN_EVENTS_CELL_UV : FRef := .mk Reg.LAN_EVENTS 2 2
abbrev LAN_EVENTS_LXTAL_FAIL : FRef := .mk Reg.LAN_EVENTS 1 1
abbrev LAN_EVENTS_COLD_START : FRef := .mk Reg.LAN_EVENTS 0 0
abbrev RTC_LO_RTC_L : FRef := .mk Reg.RTC_LO 31 0
abbrev RTC_HI_RTC_H : FRef := .mk Reg.RTC_HI 15 0
abbrev RTC_TRIM_RTC_SYNC : FRef := .mk Reg.RTC_TRIM 16 16
abbrev RTC_TRIM_TRIM : FRef := .mk Reg.RTC_TRIM 9 0
abbrev WAKE_TIMER_SECONDS : FRef := .mk Reg.WAKE_TIMER 31 0
abbrev POWER_CFG_ICHG : FRef := .mk Reg.POWER_CFG 23 16
abbrev POWER_CFG_UVD : FRef := .mk Reg.POWER_CFG 15 12
abbrev POWER_CFG_CELL_TYPE : FRef := .mk Reg.POWER_CFG 9 8
abbrev POWER_CFG_CELL_LOW_DORM : FRef := .mk Reg.POWER_CFG 1 1
abbrev POWER_CFG_HARV_EN : FRef := .mk Reg.POWER_CFG 0 0
abbrev BIV_CFG_BIV_EN : FRef := .mk Reg.BIV_CFG 31 31
abbrev BIV_CFG_PERIOD : FRef := .mk Reg.BIV_CFG 19 16
abbrev LMON_CFG_ACT (p : Nat) : FRef := .mk (Reg.LMON_CFG p) 31 30
abbrev LMON_CFG_MODE (p : Nat) : FRef := .mk (Reg.LMON_CFG p) 29 29
abbrev LMON_CFG_COUNT (p : Nat) : FRef := .mk (Reg.LMON_CFG p) 27 24
abbrev LMON_CFG_HI (p : Nat) : FRef := .mk (Reg.LMON_CFG p) 23 12
abbrev LMON_CFG_LO (p : Nat) : FRef := .mk (Reg.LMON_CFG p) 11 0
abbrev LMON_DATA_01_LMON_1 : FRef := .mk Reg.LMON_DATA_01 27 16
abbrev LMON_DATA_01_LMON_0 : FRef := .mk Reg.LMON_DATA_01 11 0
abbrev LMON_DATA_23_LMON_3 : FRef := .mk Reg.LMON_DATA_23 27 16
abbrev LMON_DATA_23_LMON_2 : FRef := .mk Reg.LMON_DATA_23 11 0
abbrev SUPPLY_DATA_VLAN : FRef := .mk Reg.SUPPLY_DATA 27 16
abbrev SUPPLY_DATA_VCELL_V : FRef := .mk Reg.SUPPLY_DATA 11 0
abbrev HB_CTRL_APP_KICK : FRef := .mk Reg.HB_CTRL 31 31
abbrev HB_CTRL_APP_PERIOD : FRef := .mk Reg.HB_CTRL 15 8
abbrev HB_CTRL_APP_ACT : FRef := .mk Reg.HB_CTRL 0 0
abbrev LOG_STATUS_DROPPED : FRef := .mk Reg.LOG_STATUS 31 16
abbrev LOG_STATUS_COUNT : FRef := .mk Reg.LOG_STATUS 10 0
abbrev LOG_OVF_OVERWRITTEN : FRef := .mk Reg.LOG_OVF 31 0
abbrev LOG_CTRL_CLEAR : FRef := .mk Reg.LOG_CTRL 31 31
abbrev LOG_CTRL_LOG_SEL : FRef := .mk Reg.LOG_CTRL 9 0
abbrev LOG_E_ENTRY (p : Nat) : FRef := .mk (Reg.LOG_E p) 31 0

/-! ### Fields of spec/07_analogue_acquisition.md -/

abbrev ADC_CORE_CFG_KEEP (c : Nat) : FRef := .mk (Reg.ADC_CORE_CFG c) 16 16
abbrev ADC_CORE_CFG_PAIR_EN (c : Nat) : FRef := .mk (Reg.ADC_CORE_CFG c) 8 8
abbrev ADC_CORE_CFG_SLAVE (c : Nat) : FRef := .mk (Reg.ADC_CORE_CFG c) 1 1
abbrev ADC_CORE_CFG_EN (c : Nat) : FRef := .mk (Reg.ADC_CORE_CFG c) 0 0
abbrev ADC_CORE_STATUS_ABORTS (c : Nat) : FRef := .mk (Reg.ADC_CORE_STATUS c) 31 24
abbrev ADC_CORE_STATUS_OPEN (c : Nat) : FRef := .mk (Reg.ADC_CORE_STATUS c) 23 20
abbrev ADC_CORE_STATUS_QUEUED (c : Nat) : FRef := .mk (Reg.ADC_CORE_STATUS c) 19 16
abbrev ADC_CORE_STATUS_URG_RUN (c : Nat) : FRef := .mk (Reg.ADC_CORE_STATUS c) 12 12
abbrev ADC_CORE_STATUS_ENTRY (c : Nat) : FRef := .mk (Reg.ADC_CORE_STATUS c) 11 8
abbrev ADC_CORE_STATUS_STATE (c : Nat) : FRef := .mk (Reg.ADC_CORE_STATUS c) 5 4
abbrev ADC_CORE_STATUS_DISTURB (c : Nat) : FRef := .mk (Reg.ADC_CORE_STATUS c) 3 0
abbrev ADC_CORE_EVENTS_OW_EV (c : Nat) : FRef := .mk (Reg.ADC_CORE_EVENTS c) 19 16
abbrev ADC_CORE_EVENTS_DISTURB_EV (c : Nat) : FRef := .mk (Reg.ADC_CORE_EVENTS c) 4 4
abbrev ADC_CORE_EVENTS_REF_LOST (c : Nat) : FRef := .mk (Reg.ADC_CORE_EVENTS c) 3 3
abbrev ADC_CORE_EVENTS_ABORT_EV (c : Nat) : FRef := .mk (Reg.ADC_CORE_EVENTS c) 2 2
abbrev ADC_CORE_EVENTS_URG_REJ (c : Nat) : FRef := .mk (Reg.ADC_CORE_EVENTS c) 1 1
abbrev ADC_CORE_EVENTS_TRIG_OVR (c : Nat) : FRef := .mk (Reg.ADC_CORE_EVENTS c) 0 0
abbrev ADC_ENTRY_EVENTS_LATE_EV (c : Nat) : FRef := .mk (Reg.ADC_ENTRY_EVENTS c) 31 16
abbrev ADC_ENTRY_EVENTS_FRZ_EV (c : Nat) : FRef := .mk (Reg.ADC_ENTRY_EVENTS c) 15 0
abbrev ADC_URG_REQ_GO (c : Nat) : FRef := .mk (Reg.ADC_URG_REQ c) 31 31
abbrev ADC_URG_REQ_ENTRY (c : Nat) : FRef := .mk (Reg.ADC_URG_REQ c) 3 0
abbrev ADC_SW_TRIG_TRIG (c : Nat) : FRef := .mk (Reg.ADC_SW_TRIG c) 15 0
abbrev ADC_OW_CFG_OW_THR (c : Nat) : FRef := .mk (Reg.ADC_OW_CFG c) 11 4
abbrev ADC_OW_CFG_OW_EN (c : Nat) : FRef := .mk (Reg.ADC_OW_CFG c) 3 0
abbrev ADC_OW_OFS_OW_OFS (c e : Nat) : FRef := .mk (Reg.ADC_OW_OFS c e) 11 0
abbrev ADC_REF_CFG_REF_OK (c : Nat) : FRef := .mk (Reg.ADC_REF_CFG c) 31 31
abbrev ADC_REF_CFG_EXT_NOM (c : Nat) : FRef := .mk (Reg.ADC_REF_CFG c) 15 8
abbrev ADC_REF_CFG_SEL (c : Nat) : FRef := .mk (Reg.ADC_REF_CFG c) 1 0
abbrev ADC_ENTRY_A_EN (c e : Nat) : FRef := .mk (Reg.ADC_ENTRY_A c e) 31 31
abbrev ADC_ENTRY_A_URGENT (c e : Nat) : FRef := .mk (Reg.ADC_ENTRY_A c e) 30 30
abbrev ADC_ENTRY_A_MODE (c e : Nat) : FRef := .mk (Reg.ADC_ENTRY_A c e) 29 28
abbrev ADC_ENTRY_A_FRESH (c e : Nat) : FRef := .mk (Reg.ADC_ENTRY_A c e) 27 27
abbrev ADC_ENTRY_A_BW (c e : Nat) : FRef := .mk (Reg.ADC_ENTRY_A c e) 26 26
abbrev ADC_ENTRY_A_GAIN (c e : Nat) : FRef := .mk (Reg.ADC_ENTRY_A c e) 25 24
abbrev ADC_ENTRY_A_MUX (c e : Nat) : FRef := .mk (Reg.ADC_ENTRY_A c e) 23 22
abbrev ADC_ENTRY_A_TRIG (c e : Nat) : FRef := .mk (Reg.ADC_ENTRY_A c e) 21 20
abbrev ADC_ENTRY_A_OPEN_EV (c e : Nat) : FRef := .mk (Reg.ADC_ENTRY_A c e) 19 17
abbrev ADC_ENTRY_A_CLOSE_EV (c e : Nat) : FRef := .mk (Reg.ADC_ENTRY_A c e) 16 14
abbrev ADC_ENTRY_A_PAIR (c e : Nat) : FRef := .mk (Reg.ADC_ENTRY_A c e) 13 7
abbrev ADC_ENTRY_B_FRZ_N (c e : Nat) : FRef := .mk (Reg.ADC_ENTRY_B c e) 31 24
abbrev ADC_ENTRY_B_PERIODS (c e : Nat) : FRef := .mk (Reg.ADC_ENTRY_B c e) 23 20
abbrev ADC_ENTRY_B_BURST_N (c e : Nat) : FRef := .mk (Reg.ADC_ENTRY_B c e) 15 8
abbrev ADC_RESULT_VALID (c e : Nat) : FRef := .mk (Reg.ADC_RESULT c e) 31 31
abbrev ADC_RESULT_FROZEN (c e : Nat) : FRef := .mk (Reg.ADC_RESULT c e) 30 30
abbrev ADC_RESULT_OW (c e : Nat) : FRef := .mk (Reg.ADC_RESULT c e) 29 29
abbrev ADC_RESULT_SRC (c e : Nat) : FRef := .mk (Reg.ADC_RESULT c e) 28 28
abbrev ADC_RESULT_SEQ (c e : Nat) : FRef := .mk (Reg.ADC_RESULT c e) 27 20
abbrev ADC_RESULT_VALUE (c e : Nat) : FRef := .mk (Reg.ADC_RESULT c e) 19 0
abbrev ADC_NCOUNT_EXCL (c e : Nat) : FRef := .mk (Reg.ADC_NCOUNT c e) 31 20
abbrev ADC_NCOUNT_NVALID (c e : Nat) : FRef := .mk (Reg.ADC_NCOUNT c e) 19 0

/-! ### Fields of spec/08_window_monitors.md -/

abbrev WIN_CFG_EN (p : Nat) : FRef := .mk (Reg.WIN_CFG p) 31 31
abbrev WIN_CFG_HI_EN (p : Nat) : FRef := .mk (Reg.WIN_CFG p) 30 30
abbrev WIN_CFG_LO_EN (p : Nat) : FRef := .mk (Reg.WIN_CFG p) 29 29
abbrev WIN_CFG_HI_SRC (p : Nat) : FRef := .mk (Reg.WIN_CFG p) 28 28
abbrev WIN_CFG_LO_SRC (p : Nat) : FRef := .mk (Reg.WIN_CFG p) 27 27
abbrev WIN_CFG_HYST (p : Nat) : FRef := .mk (Reg.WIN_CFG p) 26 25
abbrev WIN_CFG_CLR_MODE (p : Nat) : FRef := .mk (Reg.WIN_CFG p) 24 24
abbrev WIN_CFG_CT_NOTIFY (p : Nat) : FRef := .mk (Reg.WIN_CFG p) 23 23
abbrev WIN_CFG_PAIR (p : Nat) : FRef := .mk (Reg.WIN_CFG p) 22 16
abbrev WIN_CFG_BLANK (p : Nat) : FRef := .mk (Reg.WIN_CFG p) 15 8
abbrev WIN_DAC_DAC_HI (p : Nat) : FRef := .mk (Reg.WIN_DAC p) 25 16
abbrev WIN_DAC_DAC_LO (p : Nat) : FRef := .mk (Reg.WIN_DAC p) 9 0
abbrev WIN_ROUTE_TL_MASK (p : Nat) : FRef := .mk (Reg.WIN_ROUTE p) 15 0
abbrev WIN_LATCH_HI : FRef := .mk Reg.WIN_LATCH_HI 31 0
abbrev WIN_LATCH_LO : FRef := .mk Reg.WIN_LATCH_LO 31 0
abbrev WIN_RAW_HI : FRef := .mk Reg.WIN_RAW_HI 31 0
abbrev WIN_RAW_LO : FRef := .mk Reg.WIN_RAW_LO 31 0
abbrev WIN_CLR : FRef := .mk Reg.WIN_CLR 31 0
abbrev WIN_CLR_REF : FRef := .mk Reg.WIN_CLR_REF 31 0
abbrev WIN_TRIP_EV : FRef := .mk Reg.WIN_TRIP_EV 31 0
abbrev WIN_CHK_FAIL : FRef := .mk Reg.WIN_CHK_FAIL 31 0
abbrev WIN_CHK_CTRL_GO : FRef := .mk Reg.WIN_CHK_CTRL 31 31
abbrev WIN_CHK_CTRL_BUSY : FRef := .mk Reg.WIN_CHK_CTRL 30 30
abbrev WIN_CHK_CTRL_CHK_REFUSED : FRef := .mk Reg.WIN_CHK_CTRL 29 29
abbrev WIN_CHK_CTRL_INCONCL : FRef := .mk Reg.WIN_CHK_CTRL 28 28
abbrev WIN_CHK_CTRL_MODE : FRef := .mk Reg.WIN_CHK_CTRL 25 24
abbrev WIN_CHK_CTRL_ALL : FRef := .mk Reg.WIN_CHK_CTRL 8 8
abbrev WIN_CHK_CTRL_WIN : FRef := .mk Reg.WIN_CHK_CTRL 4 0
abbrev TL_STATUS_TL : FRef := .mk Reg.TL_STATUS 15 0

/-! ### Fields of spec/09_loop_engine.md -/

abbrev LE_STATUS_HALTED_N : FRef := .mk Reg.LE_STATUS 23 16
abbrev LE_STATUS_STALE_N : FRef := .mk Reg.LE_STATUS 15 8
abbrev LE_STATUS_COPY_BUSY : FRef := .mk Reg.LE_STATUS 7 7
abbrev LE_STATUS_ARM_STATE : FRef := .mk Reg.LE_STATUS 6 5
abbrev LE_STATUS_ACT_BANK : FRef := .mk Reg.LE_STATUS 4 4
abbrev LE_STATUS_DBG_HALT : FRef := .mk Reg.LE_STATUS 2 2
abbrev LE_STATUS_GRACE : FRef := .mk Reg.LE_STATUS 1 1
abbrev LE_STATUS_RUN : FRef := .mk Reg.LE_STATUS 0 0
abbrev LE_EVENTS_SAT_EV : FRef := .mk Reg.LE_EVENTS 6 6
abbrev LE_EVENTS_OP_STALE_EV : FRef := .mk Reg.LE_EVENTS 5 5
abbrev LE_EVENTS_STALE_EV : FRef := .mk Reg.LE_EVENTS 4 4
abbrev LE_EVENTS_ARM_REFUSED : FRef := .mk Reg.LE_EVENTS 3 3
abbrev LE_EVENTS_WR_REFUSED : FRef := .mk Reg.LE_EVENTS 2 2
abbrev LE_EVENTS_SWAP_DISCARDED : FRef := .mk Reg.LE_EVENTS 1 1
abbrev LE_EVENTS_SWAP_DONE : FRef := .mk Reg.LE_EVENTS 0 0
abbrev LE_BANK_CTRL_GO : FRef := .mk Reg.LE_BANK_CTRL 31 31
abbrev LE_BANK_CTRL_CMD : FRef := .mk Reg.LE_BANK_CTRL 30 28
abbrev LE_SWAP_AT_LO : FRef := .mk Reg.LE_SWAP_AT_LO 31 0
abbrev LE_SWAP_AT_HI : FRef := .mk Reg.LE_SWAP_AT_HI 15 0
abbrev LE_BANK_DIGEST (p : Nat) : FRef := .mk (Reg.LE_BANK_DIGEST p) 31 0
abbrev LE_STRAND_USE_MAX (p : Nat) : FRef := .mk (Reg.LE_STRAND_USE p) 31 16
abbrev LE_STRAND_USE_USED (p : Nat) : FRef := .mk (Reg.LE_STRAND_USE p) 15 0
abbrev LE_SLOT_STALE (p : Nat) : FRef := .mk (Reg.LE_SLOT_STALE p) 31 0
abbrev LE_SLOT_HALT (p : Nat) : FRef := .mk (Reg.LE_SLOT_HALT p) 31 0
abbrev LE_REARM (p : Nat) : FRef := .mk (Reg.LE_REARM p) 31 0
abbrev LE_OP_STALE (p : Nat) : FRef := .mk (Reg.LE_OP_STALE p) 31 0
abbrev SLOT_SRC_FB_KIND (p : Nat) : FRef := .mk (Reg.SLOT_SRC p) 31 29
abbrev SLOT_SRC_FB_IDX (p : Nat) : FRef := .mk (Reg.SLOT_SRC p) 28 20
abbrev SLOT_SRC_SP_KIND (p : Nat) : FRef := .mk (Reg.SLOT_SRC p) 19 17
abbrev SLOT_SRC_SP_IDX (p : Nat) : FRef := .mk (Reg.SLOT_SRC p) 16 8
abbrev SLOT_EXEC_FF_KIND (p : Nat) : FRef := .mk (Reg.SLOT_EXEC p) 31 29
abbrev SLOT_EXEC_FF_IDX (p : Nat) : FRef := .mk (Reg.SLOT_EXEC p) 28 20
abbrev SLOT_EXEC_FF_CHECK (p : Nat) : FRef := .mk (Reg.SLOT_EXEC p) 19 19
abbrev SLOT_EXEC_OW_STALE (p : Nat) : FRef := .mk (Reg.SLOT_EXEC p) 18 18
abbrev SLOT_EXEC_STRAND (p : Nat) : FRef := .mk (Reg.SLOT_EXEC p) 17 16
abbrev SLOT_EXEC_ORDER (p : Nat) : FRef := .mk (Reg.SLOT_EXEC p) 15 9
abbrev SLOT_EXEC_DIV (p : Nat) : FRef := .mk (Reg.SLOT_EXEC p) 8 6
abbrev SLOT_EXEC_PHASE (p : Nat) : FRef := .mk (Reg.SLOT_EXEC p) 5 2
abbrev SLOT_SEC_SEC_BASE (p : Nat) : FRef := .mk (Reg.SLOT_SEC p) 31 23
abbrev SLOT_SEC_NSEC (p : Nat) : FRef := .mk (Reg.SLOT_SEC p) 22 19
abbrev SLOT_SEC_INTEG (p : Nat) : FRef := .mk (Reg.SLOT_SEC p) 18 11
abbrev SLOT_SEC_STALE_RESP (p : Nat) : FRef := .mk (Reg.SLOT_SEC p) 10 9
abbrev SLOT_SEC_STALE_TOL (p : Nat) : FRef := .mk (Reg.SLOT_SEC p) 8 5
abbrev SLOT_SEC_SLEW_INIT (p : Nat) : FRef := .mk (Reg.SLOT_SEC p) 4 4
abbrev SLOT_SEC_DEPTH (p : Nat) : FRef := .mk (Reg.SLOT_SEC p) 3 2
abbrev SLOT_WAIT_WC_DONE (p : Nat) : FRef := .mk (Reg.SLOT_WAIT p) 31 16
abbrev SLOT_WAIT_WAIT_LIMIT (p : Nat) : FRef := .mk (Reg.SLOT_WAIT p) 12 0
abbrev SLOT_SP (p : Nat) : FRef := .mk (Reg.SLOT_SP p) 31 0
abbrev SLOT_OUT (p : Nat) : FRef := .mk (Reg.SLOT_OUT p) 31 0
abbrev SLOT_STATUS_HALTED (p : Nat) : FRef := .mk (Reg.SLOT_STATUS p) 31 31
abbrev SLOT_STATUS_STALE (p : Nat) : FRef := .mk (Reg.SLOT_STATUS p) 30 30
abbrev SLOT_STATUS_CLAMPED (p : Nat) : FRef := .mk (Reg.SLOT_STATUS p) 29 29
abbrev SLOT_STATUS_OUT_OK (p : Nat) : FRef := .mk (Reg.SLOT_STATUS p) 28 28
abbrev SLOT_STATUS_SAT (p : Nat) : FRef := .mk (Reg.SLOT_STATUS p) 27 27
abbrev SLOT_STATUS_RAMPING (p : Nat) : FRef := .mk (Reg.SLOT_STATUS p) 26 26
abbrev SLOT_STATUS_STALE_CAUSE (p : Nat) : FRef := .mk (Reg.SLOT_STATUS p) 25 21
abbrev SLOT_STATUS_STALE_CNT (p : Nat) : FRef := .mk (Reg.SLOT_STATUS p) 20 17
abbrev SLOT_STATUS_DONE_AT (p : Nat) : FRef := .mk (Reg.SLOT_STATUS p) 12 0
abbrev IN_CFG_EN (p : Nat) : FRef := .mk (Reg.IN_CFG p) 31 31
abbrev IN_CFG_FRESH_MODE (p : Nat) : FRef := .mk (Reg.IN_CFG p) 30 30
abbrev IN_CFG_CORE (p : Nat) : FRef := .mk (Reg.IN_CFG p) 29 24
abbrev IN_CFG_ENTRY (p : Nat) : FRef := .mk (Reg.IN_CFG p) 23 20
abbrev OP_CTL_TYPE (p : Nat) : FRef := .mk (Reg.OP_CTL p) 31 28
abbrev OP_CTL_UNIT (p : Nat) : FRef := .mk (Reg.OP_CTL p) 27 23
abbrev OP_CTL_STRAND (p : Nat) : FRef := .mk (Reg.OP_CTL p) 22 21
abbrev OP_CTL_ORDER (p : Nat) : FRef := .mk (Reg.OP_CTL p) 20 14
abbrev OP_CTL_DIV (p : Nat) : FRef := .mk (Reg.OP_CTL p) 13 11
abbrev OP_CTL_PHASE (p : Nat) : FRef := .mk (Reg.OP_CTL p) 10 7
abbrev OP_CTL_PAIR (p : Nat) : FRef := .mk (Reg.OP_CTL p) 6 0
abbrev OP_IN01_IN1 (p : Nat) : FRef := .mk (Reg.OP_IN01 p) 27 16
abbrev OP_IN01_IN0 (p : Nat) : FRef := .mk (Reg.OP_IN01 p) 11 0
abbrev OP_IN23_IN3 (p : Nat) : FRef := .mk (Reg.OP_IN23 p) 27 16
abbrev OP_IN23_IN2 (p : Nat) : FRef := .mk (Reg.OP_IN23 p) 11 0
abbrev OP_IN4_WAIT_LIMIT (p : Nat) : FRef := .mk (Reg.OP_IN4 p) 28 16
abbrev OP_IN4_IN4 (p : Nat) : FRef := .mk (Reg.OP_IN4 p) 11 0
abbrev OP_OUT (p q : Nat) : FRef := .mk (Reg.OP_OUT p q) 31 0
abbrev SLOT_OUT_MIN (p : Nat) : FRef := .mk (Reg.SLOT_OUT_MIN p) 31 0
abbrev SLOT_OUT_MAX (p : Nat) : FRef := .mk (Reg.SLOT_OUT_MAX p) 31 0
abbrev SLOT_RISE (p : Nat) : FRef := .mk (Reg.SLOT_RISE p) 31 0
abbrev SLOT_FALL (p : Nat) : FRef := .mk (Reg.SLOT_FALL p) 31 0
abbrev SLOT_FF_W (p : Nat) : FRef := .mk (Reg.SLOT_FF_W p) 31 0
abbrev SLOT_RAMP (p : Nat) : FRef := .mk (Reg.SLOT_RAMP p) 31 0
abbrev IN_OFFS (p : Nat) : FRef := .mk (Reg.IN_OFFS p) 19 0
abbrev IN_GAIN (p : Nat) : FRef := .mk (Reg.IN_GAIN p) 31 0
abbrev IN_SHIFT (p : Nat) : FRef := .mk (Reg.IN_SHIFT p) 4 0
abbrev OP_P (p q : Nat) : FRef := .mk (Reg.OP_P p q) 31 0
abbrev SEC_B0 (p : Nat) : FRef := .mk (Reg.SEC_B0 p) 31 0
abbrev SEC_B1 (p : Nat) : FRef := .mk (Reg.SEC_B1 p) 31 0
abbrev SEC_B2 (p : Nat) : FRef := .mk (Reg.SEC_B2 p) 31 0
abbrev SEC_A1 (p : Nat) : FRef := .mk (Reg.SEC_A1 p) 31 0
abbrev SEC_A2 (p : Nat) : FRef := .mk (Reg.SEC_A2 p) 31 0
abbrev SLOT_OUT_MIN_ACT (p : Nat) : FRef := .mk (Reg.SLOT_OUT_MIN_ACT p) 31 0
abbrev SLOT_OUT_MAX_ACT (p : Nat) : FRef := .mk (Reg.SLOT_OUT_MAX_ACT p) 31 0
abbrev SLOT_RISE_ACT (p : Nat) : FRef := .mk (Reg.SLOT_RISE_ACT p) 31 0
abbrev SLOT_FALL_ACT (p : Nat) : FRef := .mk (Reg.SLOT_FALL_ACT p) 31 0
abbrev SLOT_FF_W_ACT (p : Nat) : FRef := .mk (Reg.SLOT_FF_W_ACT p) 31 0
abbrev SLOT_RAMP_ACT (p : Nat) : FRef := .mk (Reg.SLOT_RAMP_ACT p) 31 0
abbrev IN_OFFS_ACT (p : Nat) : FRef := .mk (Reg.IN_OFFS_ACT p) 19 0
abbrev IN_GAIN_ACT (p : Nat) : FRef := .mk (Reg.IN_GAIN_ACT p) 31 0
abbrev IN_SHIFT_ACT (p : Nat) : FRef := .mk (Reg.IN_SHIFT_ACT p) 4 0
abbrev OP_P_ACT (p q : Nat) : FRef := .mk (Reg.OP_P_ACT p q) 31 0
abbrev SEC_B0_ACT (p : Nat) : FRef := .mk (Reg.SEC_B0_ACT p) 31 0
abbrev SEC_B1_ACT (p : Nat) : FRef := .mk (Reg.SEC_B1_ACT p) 31 0
abbrev SEC_B2_ACT (p : Nat) : FRef := .mk (Reg.SEC_B2_ACT p) 31 0
abbrev SEC_A1_ACT (p : Nat) : FRef := .mk (Reg.SEC_A1_ACT p) 31 0
abbrev SEC_A2_ACT (p : Nat) : FRef := .mk (Reg.SEC_A2_ACT p) 31 0
abbrev SEC_S1_LO (p : Nat) : FRef := .mk (Reg.SEC_S1_LO p) 31 0
abbrev SEC_S1_HI (p : Nat) : FRef := .mk (Reg.SEC_S1_HI p) 7 0
abbrev SEC_S2_LO (p : Nat) : FRef := .mk (Reg.SEC_S2_LO p) 31 0
abbrev SEC_S2_HI (p : Nat) : FRef := .mk (Reg.SEC_S2_HI p) 7 0

/-! ### Fields of spec/10_grid_stages.md -/

abbrev GS_CFG_EN (p : Nat) : FRef := .mk (Reg.GS_CFG p) 31 31
abbrev GS_CFG_F_NOM (p : Nat) : FRef := .mk (Reg.GS_CFG p) 30 30
abbrev GS_CFG_VMON (p : Nat) : FRef := .mk (Reg.GS_CFG p) 29 29
abbrev GS_CFG_K_SOGI (p : Nat) : FRef := .mk (Reg.GS_CFG p) 23 16
abbrev GS_CFG_GAMMA (p : Nat) : FRef := .mk (Reg.GS_CFG p) 15 8
abbrev GS_CFG_STALE_TICKS (p : Nat) : FRef := .mk (Reg.GS_CFG p) 7 0
abbrev GS_SRC_IN_A (p : Nat) : FRef := .mk (Reg.GS_SRC p) 29 20
abbrev GS_SRC_IN_B (p : Nat) : FRef := .mk (Reg.GS_SRC p) 19 10
abbrev GS_SRC_IN_C (p : Nat) : FRef := .mk (Reg.GS_SRC p) 9 0
abbrev GS_ANG_CAL (p : Nat) : FRef := .mk (Reg.GS_ANG_CAL p) 31 0
abbrev GS_TIMING_CENTRE_OFS (p : Nat) : FRef := .mk (Reg.GS_TIMING p) 31 16
abbrev GS_TIMING_ROCOF_WIN (p : Nat) : FRef := .mk (Reg.GS_TIMING p) 15 0
abbrev GS_CAL_OFFS (p q : Nat) : FRef := .mk (Reg.GS_CAL_OFFS p q) 19 0
abbrev GS_CAL_GAIN (p q : Nat) : FRef := .mk (Reg.GS_CAL_GAIN p q) 31 0
abbrev GS_CAL_SHIFT (p q : Nat) : FRef := .mk (Reg.GS_CAL_SHIFT p q) 4 0
abbrev GS_STATUS_STALE_CNT (p : Nat) : FRef := .mk (Reg.GS_STATUS p) 15 8
abbrev GS_STATUS_COAST (p : Nat) : FRef := .mk (Reg.GS_STATUS p) 3 3
abbrev GS_STATUS_ANG_OK (p : Nat) : FRef := .mk (Reg.GS_STATUS p) 2 2
abbrev GS_STATUS_FREEZE (p : Nat) : FRef := .mk (Reg.GS_STATUS p) 1 1
abbrev GS_STATUS_LOCKED (p : Nat) : FRef := .mk (Reg.GS_STATUS p) 0 0
abbrev GS_EVENTS_STALE_EV (p : Nat) : FRef := .mk (Reg.GS_EVENTS p) 2 2
abbrev GS_EVENTS_UNLOCK_EV (p : Nat) : FRef := .mk (Reg.GS_EVENTS p) 1 1
abbrev GS_EVENTS_LOCK_EV (p : Nat) : FRef := .mk (Reg.GS_EVENTS p) 0 0
abbrev GS_V1 (p : Nat) : FRef := .mk (Reg.GS_V1 p) 31 0
abbrev GS_V2 (p : Nat) : FRef := .mk (Reg.GS_V2 p) 31 0
abbrev GS_VPH_MIN (p : Nat) : FRef := .mk (Reg.GS_VPH_MIN p) 31 0
abbrev GS_VPH_MAX (p : Nat) : FRef := .mk (Reg.GS_VPH_MAX p) 31 0
abbrev GS_VFAST (p : Nat) : FRef := .mk (Reg.GS_VFAST p) 31 0
abbrev GS_THETA1 (p : Nat) : FRef := .mk (Reg.GS_THETA1 p) 31 0
abbrev GS_THETA2 (p : Nat) : FRef := .mk (Reg.GS_THETA2 p) 31 0
abbrev GS_FREQ (p : Nat) : FRef := .mk (Reg.GS_FREQ p) 31 0
abbrev GS_ROCOF (p : Nat) : FRef := .mk (Reg.GS_ROCOF p) 31 0
abbrev GS_FT_ANGLE (p : Nat) : FRef := .mk (Reg.GS_FT_ANGLE p) 31 0
abbrev GS_FT_V1 (p : Nat) : FRef := .mk (Reg.GS_FT_V1 p) 31 0
abbrev GS_FT_FREQ (p : Nat) : FRef := .mk (Reg.GS_FT_FREQ p) 31 0
abbrev GST_CTRL_AUTO (p : Nat) : FRef := .mk (Reg.GST_CTRL p) 15 15
abbrev GST_CTRL_IMPORT_EN (p : Nat) : FRef := .mk (Reg.GST_CTRL p) 14 14
abbrev GST_CTRL_PRIO (p : Nat) : FRef := .mk (Reg.GST_CTRL p) 13 13
abbrev GST_CTRL_QMODE (p : Nat) : FRef := .mk (Reg.GST_CTRL p) 12 11
abbrev GST_CTRL_CMD (p : Nat) : FRef := .mk (Reg.GST_CTRL p) 2 0
abbrev GST_STATUS_LAST_CAUSE (p : Nat) : FRef := .mk (Reg.GST_STATUS p) 31 24
abbrev GST_STATUS_RT_POINT (p : Nat) : FRef := .mk (Reg.GST_STATUS p) 23 20
abbrev GST_STATUS_RT_STATE (p : Nat) : FRef := .mk (Reg.GST_STATUS p) 11 9
abbrev GST_STATUS_CONT_FB (p : Nat) : FRef := .mk (Reg.GST_STATUS p) 8 8
abbrev GST_STATUS_CONNECT (p : Nat) : FRef := .mk (Reg.GST_STATUS p) 7 7
abbrev GST_STATUS_FR_ACTIVE (p : Nat) : FRef := .mk (Reg.GST_STATUS p) 6 6
abbrev GST_STATUS_LIMIT (p : Nat) : FRef := .mk (Reg.GST_STATUS p) 5 5
abbrev GST_STATUS_STATE (p : Nat) : FRef := .mk (Reg.GST_STATUS p) 3 0
abbrev GST_EVENTS_LIMIT_EV (p : Nat) : FRef := .mk (Reg.GST_EVENTS p) 5 5
abbrev GST_EVENTS_START_REF (p : Nat) : FRef := .mk (Reg.GST_EVENTS p) 4 4
abbrev GST_EVENTS_CONT_FAULT (p : Nat) : FRef := .mk (Reg.GST_EVENTS p) 3 3
abbrev GST_EVENTS_TRIP_EV (p : Nat) : FRef := .mk (Reg.GST_EVENTS p) 2 2
abbrev GST_EVENTS_RT_EV (p : Nat) : FRef := .mk (Reg.GST_EVENTS p) 1 1
abbrev GST_EVENTS_STATE_EV (p : Nat) : FRef := .mk (Reg.GST_EVENTS p) 0 0
abbrev GST_P_SET (p : Nat) : FRef := .mk (Reg.GST_P_SET p) 31 0
abbrev GST_Q_SET (p : Nat) : FRef := .mk (Reg.GST_Q_SET p) 31 0
abbrev GST_PF_SET (p : Nat) : FRef := .mk (Reg.GST_PF_SET p) 31 0
abbrev GST_I_MAX (p : Nat) : FRef := .mk (Reg.GST_I_MAX p) 31 0
abbrev GST_QV_V (p q : Nat) : FRef := .mk (Reg.GST_QV p q) 31 16
abbrev GST_QV_Q (p q : Nat) : FRef := .mk (Reg.GST_QV p q) 15 0
abbrev GST_QV_TAU (p : Nat) : FRef := .mk (Reg.GST_QV_TAU p) 15 0
abbrev GST_REF (p q : Nat) : FRef := .mk (Reg.GST_REF p q) 31 0
abbrev GST_MAP_EN (p : Nat) : FRef := .mk (Reg.GST_MAP p) 31 31
abbrev GST_MAP_TYPE (p : Nat) : FRef := .mk (Reg.GST_MAP p) 30 30
abbrev GST_MAP_ACT_SRC (p : Nat) : FRef := .mk (Reg.GST_MAP p) 29 29
abbrev GST_MAP_CONT_OUT (p : Nat) : FRef := .mk (Reg.GST_MAP p) 27 24
abbrev GST_MAP_DCL_SLOT (p : Nat) : FRef := .mk (Reg.GST_MAP p) 22 16
abbrev GST_MAP_PAIR_FIRST (p : Nat) : FRef := .mk (Reg.GST_MAP p) 6 0
abbrev GC_STAT_SET_OK : FRef := .mk Reg.GC_STAT 3 3
abbrev GC_STAT_CODE_IN_FORCE : FRef := .mk Reg.GC_STAT 2 0
abbrev GC_ENTER_LV_ENTER : FRef := .mk Reg.GC_ENTER 31 16
abbrev GC_ENTER_HV_ENTER : FRef := .mk Reg.GC_ENTER 15 0
abbrev GC_K_K1 : FRef := .mk Reg.GC_K 31 24
abbrev GC_K_K2 : FRef := .mk Reg.GC_K 23 16
abbrev GC_K_DB : FRef := .mk Reg.GC_K 15 8
abbrev GC_K_CEASE_EN : FRef := .mk Reg.GC_K 0 0
abbrev GC_CEASE_V_CEASE : FRef := .mk Reg.GC_CEASE 31 16
abbrev GC_CEASE_PREC_RATE : FRef := .mk Reg.GC_CEASE 15 0
abbrev GC_EN_V_EN_V_LO : FRef := .mk Reg.GC_EN_V 31 16
abbrev GC_EN_V_EN_V_HI : FRef := .mk Reg.GC_EN_V 15 0
abbrev GC_EN_F_EN_F_LO : FRef := .mk Reg.GC_EN_F 31 16
abbrev GC_EN_F_EN_F_HI : FRef := .mk Reg.GC_EN_F 15 0
abbrev GC_DELAY_ENTER_DELAY : FRef := .mk Reg.GC_DELAY 31 16
abbrev GC_DELAY_RECONNECT_DELAY : FRef := .mk Reg.GC_DELAY 15 0
abbrev GC_RAMP_ENTER_RAMP : FRef := .mk Reg.GC_RAMP 31 16
abbrev GC_DROOP_F_PTH : FRef := .mk Reg.GC_DROOP 31 16
abbrev GC_DROOP_DROOP : FRef := .mk Reg.GC_DROOP 15 0
abbrev GC_LV_V (p : Nat) : FRef := .mk (Reg.GC_LV p) 31 16
abbrev GC_LV_T (p : Nat) : FRef := .mk (Reg.GC_LV p) 15 0
abbrev GC_HV_V (p : Nat) : FRef := .mk (Reg.GC_HV p) 31 16
abbrev GC_HV_T (p : Nat) : FRef := .mk (Reg.GC_HV p) 15 0
abbrev GC_F_F (p : Nat) : FRef := .mk (Reg.GC_F p) 31 16
abbrev GC_F_T (p : Nat) : FRef := .mk (Reg.GC_F p) 15 0

/-! ### Fields of spec/11_string_tracking.md -/

abbrev TRK_CFG_EN (p : Nat) : FRef := .mk (Reg.TRK_CFG p) 31 31
abbrev TRK_CFG_ALG (p : Nat) : FRef := .mk (Reg.TRK_CFG p) 30 30
abbrev TRK_CFG_AUTO (p : Nat) : FRef := .mk (Reg.TRK_CFG p) 29 29
abbrev TRK_CFG_VDC_EN (p : Nat) : FRef := .mk (Reg.TRK_CFG p) 28 28
abbrev TRK_CFG_IN_V (p : Nat) : FRef := .mk (Reg.TRK_CFG p) 27 20
abbrev TRK_CFG_IN_I (p : Nat) : FRef := .mk (Reg.TRK_CFG p) 19 12
abbrev TRK_CFG_PAIR (p : Nat) : FRef := .mk (Reg.TRK_CFG p) 6 0
abbrev TRK_LINK_IN_VDC (p : Nat) : FRef := .mk (Reg.TRK_LINK p) 31 24
abbrev TRK_LINK_VSLOT (p : Nat) : FRef := .mk (Reg.TRK_LINK p) 22 16
abbrev TRK_LINK_ISLOT (p : Nat) : FRef := .mk (Reg.TRK_LINK p) 14 8
abbrev TRK_TIMING_STEP_FRAMES (p : Nat) : FRef := .mk (Reg.TRK_TIMING p) 31 16
abbrev TRK_TIMING_STEP_PHASE (p : Nat) : FRef := .mk (Reg.TRK_TIMING p) 15 0
abbrev TRK_SCAN_SCAN_OFS (p : Nat) : FRef := .mk (Reg.TRK_SCAN p) 31 16
abbrev TRK_SCAN_SCAN_PERIOD (p : Nat) : FRef := .mk (Reg.TRK_SCAN p) 15 0
abbrev TRK_CTRL_CMD (p : Nat) : FRef := .mk (Reg.TRK_CTRL p) 2 0
abbrev TRK_STATUS_LAST_CAUSE (p : Nat) : FRef := .mk (Reg.TRK_STATUS p) 31 24
abbrev TRK_STATUS_STALE (p : Nat) : FRef := .mk (Reg.TRK_STATUS p) 11 11
abbrev TRK_STATUS_BOUND (p : Nat) : FRef := .mk (Reg.TRK_STATUS p) 10 10
abbrev TRK_STATUS_DIR (p : Nat) : FRef := .mk (Reg.TRK_STATUS p) 9 8
abbrev TRK_STATUS_STATE (p : Nat) : FRef := .mk (Reg.TRK_STATUS p) 3 0
abbrev TRK_EVENTS_CURT_EV (p : Nat) : FRef := .mk (Reg.TRK_EVENTS p) 7 7
abbrev TRK_EVENTS_SCAN_SKIP (p : Nat) : FRef := .mk (Reg.TRK_EVENTS p) 6 6
abbrev TRK_EVENTS_SCAN_REF (p : Nat) : FRef := .mk (Reg.TRK_EVENTS p) 5 5
abbrev TRK_EVENTS_SCAN_DONE (p : Nat) : FRef := .mk (Reg.TRK_EVENTS p) 4 4
abbrev TRK_EVENTS_START_REF (p : Nat) : FRef := .mk (Reg.TRK_EVENTS p) 3 3
abbrev TRK_EVENTS_STALE_EV (p : Nat) : FRef := .mk (Reg.TRK_EVENTS p) 2 2
abbrev TRK_EVENTS_FAULT_EV (p : Nat) : FRef := .mk (Reg.TRK_EVENTS p) 1 1
abbrev TRK_EVENTS_STATE_EV (p : Nat) : FRef := .mk (Reg.TRK_EVENTS p) 0 0
abbrev TRK_WIN_AVG_FRAMES (p : Nat) : FRef := .mk (Reg.TRK_WIN p) 31 24
abbrev TRK_WIN_START_DELAY (p : Nat) : FRef := .mk (Reg.TRK_WIN p) 23 16
abbrev TRK_WIN_SCAN_TIME (p : Nat) : FRef := .mk (Reg.TRK_WIN p) 15 8
abbrev TRK_WIN_SCAN_MARGIN (p : Nat) : FRef := .mk (Reg.TRK_WIN p) 7 0
abbrev TRK_V_MIN (p : Nat) : FRef := .mk (Reg.TRK_V_MIN p) 31 0
abbrev TRK_V_MAX (p : Nat) : FRef := .mk (Reg.TRK_V_MAX p) 31 0
abbrev TRK_STEP_MIN (p : Nat) : FRef := .mk (Reg.TRK_STEP_MIN p) 31 0
abbrev TRK_STEP_MAX (p : Nat) : FRef := .mk (Reg.TRK_STEP_MAX p) 31 0
abbrev TRK_K_ADAPT (p : Nat) : FRef := .mk (Reg.TRK_K_ADAPT p) 31 0
abbrev TRK_DB (p : Nat) : FRef := .mk (Reg.TRK_DB p) 31 0
abbrev TRK_P_LIM (p : Nat) : FRef := .mk (Reg.TRK_P_LIM p) 31 0
abbrev TRK_P_BAND (p : Nat) : FRef := .mk (Reg.TRK_P_BAND p) 31 0
abbrev TRK_V_START (p : Nat) : FRef := .mk (Reg.TRK_V_START p) 31 0
abbrev TRK_K_START (p : Nat) : FRef := .mk (Reg.TRK_K_START p) 31 0
abbrev TRK_I_TRIP (p : Nat) : FRef := .mk (Reg.TRK_I_TRIP p) 31 0
abbrev TRK_I_REV (p : Nat) : FRef := .mk (Reg.TRK_I_REV p) 31 0
abbrev TRK_VDC_CURT (p : Nat) : FRef := .mk (Reg.TRK_VDC_CURT p) 31 0
abbrev TRK_VDC_RES (p : Nat) : FRef := .mk (Reg.TRK_VDC_RES p) 31 0
abbrev TRK_CURT_STEP (p : Nat) : FRef := .mk (Reg.TRK_CURT_STEP p) 31 0
abbrev TRK_P_STOP (p : Nat) : FRef := .mk (Reg.TRK_P_STOP p) 31 0
abbrev TRK_V_REF (p : Nat) : FRef := .mk (Reg.TRK_V_REF p) 31 0
abbrev TRK_V_MEAN (p : Nat) : FRef := .mk (Reg.TRK_V_MEAN p) 31 0
abbrev TRK_I_MEAN (p : Nat) : FRef := .mk (Reg.TRK_I_MEAN p) 31 0
abbrev TRK_P_MEAN (p : Nat) : FRef := .mk (Reg.TRK_P_MEAN p) 31 0
abbrev TRK_V_BEST (p : Nat) : FRef := .mk (Reg.TRK_V_BEST p) 31 0
abbrev TRK_P_BEST (p : Nat) : FRef := .mk (Reg.TRK_P_BEST p) 31 0
abbrev TRK_COUNT_SKIPPED (p : Nat) : FRef := .mk (Reg.TRK_COUNT p) 31 16
abbrev TRK_COUNT_SCANS (p : Nat) : FRef := .mk (Reg.TRK_COUNT p) 15 0

/-! ### Fields of spec/12_islanding.md -/

abbrev ISL_CFG_EN : FRef := .mk Reg.ISL_CFG 31 31
abbrev ISL_CFG_ANC_EN : FRef := .mk Reg.ISL_CFG 30 30
abbrev ISL_CFG_ROCOF_EN : FRef := .mk Reg.ISL_CFG 29 29
abbrev ISL_CFG_VS_EN : FRef := .mk Reg.ISL_CFG 28 28
abbrev ISL_CFG_AFD_EN : FRef := .mk Reg.ISL_CFG 27 27
abbrev ISL_CFG_PUB : FRef := .mk Reg.ISL_CFG 26 26
abbrev ISL_CFG_ANC0_EN : FRef := .mk Reg.ISL_CFG 25 25
abbrev ISL_CFG_ANC1_EN : FRef := .mk Reg.ISL_CFG 24 24
abbrev ISL_CFG_DTT_RULE : FRef := .mk Reg.ISL_CFG 23 23
abbrev ISL_CFG_PUB_FRAMES : FRef := .mk Reg.ISL_CFG 15 0
abbrev ISL_ANC_ANC1_ID : FRef := .mk Reg.ISL_ANC 31 16
abbrev ISL_ANC_ANC0_ID : FRef := .mk Reg.ISL_ANC 15 0
abbrev ISL_MAP_PUB_PHASE : FRef := .mk Reg.ISL_MAP 31 16
abbrev ISL_MAP_PCC_OUT_EN : FRef := .mk Reg.ISL_MAP 15 15
abbrev ISL_MAP_PCC_OUT : FRef := .mk Reg.ISL_MAP 11 8
abbrev ISL_MAP_BRK_IN : FRef := .mk Reg.ISL_MAP 4 0
abbrev ISL_THR_DRIFT_ANG : FRef := .mk Reg.ISL_THR 31 16
abbrev ISL_THR_ABS_ANG : FRef := .mk Reg.ISL_THR 15 0
abbrev ISL_TIME_MAX_AGE : FRef := .mk Reg.ISL_TIME 31 24
abbrev ISL_TIME_CLR_DELAY : FRef := .mk Reg.ISL_TIME 15 0
abbrev ISL_FB_ROCOF_LIM : FRef := .mk Reg.ISL_FB 31 16
abbrev ISL_FB_VS_LIM : FRef := .mk Reg.ISL_FB 15 0
abbrev ISL_FB_TIME_ROCOF_T : FRef := .mk Reg.ISL_FB_TIME 31 16
abbrev ISL_FB_TIME_AFD_T : FRef := .mk Reg.ISL_FB_TIME 15 0
abbrev ISL_AFD_CF0 : FRef := .mk Reg.ISL_AFD 31 24
abbrev ISL_AFD_K_AFD : FRef := .mk Reg.ISL_AFD 23 16
abbrev ISL_AFD_PHI_MAX : FRef := .mk Reg.ISL_AFD 15 8
abbrev ISL_AFD_AFD_FLIM : FRef := .mk Reg.ISL_AFD 7 0
abbrev ISL_CTRL_CMD : FRef := .mk Reg.ISL_CTRL 2 0
abbrev ISL_STATUS_LAST_CAUSE : FRef := .mk Reg.ISL_STATUS 23 20
abbrev ISL_STATUS_MODE : FRef := .mk Reg.ISL_STATUS 17 16
abbrev ISL_STATUS_FB_REASON : FRef := .mk Reg.ISL_STATUS 15 12
abbrev ISL_STATUS_OP_FORCED : FRef := .mk Reg.ISL_STATUS 11 11
abbrev ISL_STATUS_AFD_ON : FRef := .mk Reg.ISL_STATUS 10 10
abbrev ISL_STATUS_ACT_ANC : FRef := .mk Reg.ISL_STATUS 9 9
abbrev ISL_STATUS_DISC : FRef := .mk Reg.ISL_STATUS 8 8
abbrev ISL_EVENTS_ANC_SWITCH_EV : FRef := .mk Reg.ISL_EVENTS 5 5
abbrev ISL_EVENTS_SILENT_EV : FRef := .mk Reg.ISL_EVENTS 4 4
abbrev ISL_EVENTS_MODE_ANC_EV : FRef := .mk Reg.ISL_EVENTS 3 3
abbrev ISL_EVENTS_MODE_FB_EV : FRef := .mk Reg.ISL_EVENTS 2 2
abbrev ISL_EVENTS_RELEASE_EV : FRef := .mk Reg.ISL_EVENTS 1 1
abbrev ISL_EVENTS_DISC_EV : FRef := .mk Reg.ISL_EVENTS 0 0
abbrev ISL_PHI : FRef := .mk Reg.ISL_PHI 31 0
abbrev ISL_ANC_DELTA (p : Nat) : FRef := .mk (Reg.ISL_ANC_DELTA p) 31 0
abbrev ISL_ANC_DRIFT (p : Nat) : FRef := .mk (Reg.ISL_ANC_DRIFT p) 31 0
abbrev ISL_ANC_BASE (p : Nat) : FRef := .mk (Reg.ISL_ANC_BASE p) 31 0
abbrev ISL_ANC_ST_LAST_SEQ (p : Nat) : FRef := .mk (Reg.ISL_ANC_ST p) 31 24
abbrev ISL_ANC_ST_AGE (p : Nat) : FRef := .mk (Reg.ISL_ANC_ST p) 23 16
abbrev ISL_ANC_ST_STATE (p : Nat) : FRef := .mk (Reg.ISL_ANC_ST p) 1 0
abbrev ISL_PUB_PUB_SENT : FRef := .mk Reg.ISL_PUB 31 16
abbrev ISL_PUB_SEQ : FRef := .mk Reg.ISL_PUB 15 8
abbrev ISL_PUB_GRID_DEAD : FRef := .mk Reg.ISL_PUB 1 1
abbrev ISL_PUB_BRK_OPEN : FRef := .mk Reg.ISL_PUB 0 0
abbrev ISL_RX_RX_OK : FRef := .mk Reg.ISL_RX 31 16
abbrev ISL_RX_RX_STALE : FRef := .mk Reg.ISL_RX 15 0

/-! ### Fields of spec/13_pwm.md -/

abbrev PWM_CFG_EN (p : Nat) : FRef := .mk (Reg.PWM_CFG p) 31 31
abbrev PWM_CFG_TLOCK (p : Nat) : FRef := .mk (Reg.PWM_CFG p) 30 30
abbrev PWM_CFG_SLOT_DRV (p : Nat) : FRef := .mk (Reg.PWM_CFG p) 29 29
abbrev PWM_CFG_L_EN (p : Nat) : FRef := .mk (Reg.PWM_CFG p) 28 28
abbrev PWM_CFG_ALIGN (p : Nat) : FRef := .mk (Reg.PWM_CFG p) 27 26
abbrev PWM_CFG_SAFE_EN (p : Nat) : FRef := .mk (Reg.PWM_CFG p) 25 25
abbrev PWM_CFG_DIVMODE (p : Nat) : FRef := .mk (Reg.PWM_CFG p) 24 24
abbrev PWM_CFG_FACTOR (p : Nat) : FRef := .mk (Reg.PWM_CFG p) 23 17
abbrev PWM_PHASE_PHASE (p : Nat) : FRef := .mk (Reg.PWM_PHASE p) 19 0
abbrev PWM_TRIP_CFG_TL_LATCH (p : Nat) : FRef := .mk (Reg.PWM_TRIP_CFG p) 31 16
abbrev PWM_TRIP_CFG_TL_CYCLE (p : Nat) : FRef := .mk (Reg.PWM_TRIP_CFG p) 15 0
abbrev PWM_PER_PER (p : Nat) : FRef := .mk (Reg.PWM_PER p) 19 0
abbrev PWM_DUTY (p : Nat) : FRef := .mk (Reg.PWM_DUTY p) 31 0
abbrev PWM_DT_DT_RISE (p : Nat) : FRef := .mk (Reg.PWM_DT p) 29 16
abbrev PWM_DT_DT_FALL (p : Nat) : FRef := .mk (Reg.PWM_DT p) 13 0
abbrev PWM_CMP (p q : Nat) : FRef := .mk (Reg.PWM_CMP p q) 24 0
abbrev PWM_ACT_ON_ON (p : Nat) : FRef := .mk (Reg.PWM_ACT_ON p) 24 0
abbrev PWM_ACT_PER_LEN (p : Nat) : FRef := .mk (Reg.PWM_ACT_PER p) 19 0
abbrev PWM_STATUS_FIRST_SRC (p : Nat) : FRef := .mk (Reg.PWM_STATUS p) 12 8
abbrev PWM_STATUS_OUT_H (p : Nat) : FRef := .mk (Reg.PWM_STATUS p) 7 7
abbrev PWM_STATUS_OUT_L (p : Nat) : FRef := .mk (Reg.PWM_STATUS p) 6 6
abbrev PWM_STATUS_CAL_COARSE (p : Nat) : FRef := .mk (Reg.PWM_STATUS p) 5 5
abbrev PWM_STATUS_HOLD (p : Nat) : FRef := .mk (Reg.PWM_STATUS p) 4 4
abbrev PWM_STATUS_FIRST_VALID (p : Nat) : FRef := .mk (Reg.PWM_STATUS p) 3 3
abbrev PWM_STATUS_STATE (p : Nat) : FRef := .mk (Reg.PWM_STATUS p) 2 0
abbrev PWM_TRIP_SRC (p : Nat) : FRef := .mk (Reg.PWM_TRIP_SRC p) 31 0
abbrev PWM_TRIP_LIVE (p : Nat) : FRef := .mk (Reg.PWM_TRIP_LIVE p) 31 0
abbrev PWM_EVENTS_CAL_EV (p : Nat) : FRef := .mk (Reg.PWM_EVENTS p) 3 3
abbrev PWM_EVENTS_CYC_EV (p : Nat) : FRef := .mk (Reg.PWM_EVENTS p) 2 2
abbrev PWM_EVENTS_TRIP_CLR_REFUSED (p : Nat) : FRef := .mk (Reg.PWM_EVENTS p) 1 1
abbrev PWM_EVENTS_TRIP_EV (p : Nat) : FRef := .mk (Reg.PWM_EVENTS p) 0 0
abbrev PWM_COUNT_TRIPS (p : Nat) : FRef := .mk (Reg.PWM_COUNT p) 31 16
abbrev PWM_COUNT_CYC_HOLDS (p : Nat) : FRef := .mk (Reg.PWM_COUNT p) 15 0
abbrev PWM_CLR (p : Nat) : FRef := .mk (Reg.PWM_CLR p) 31 0
abbrev PWM_FORCE (p : Nat) : FRef := .mk (Reg.PWM_FORCE p) 31 0
abbrev PWM_HOLD (p : Nat) : FRef := .mk (Reg.PWM_HOLD p) 31 0
abbrev PWM_TRIPPED (p : Nat) : FRef := .mk (Reg.PWM_TRIPPED p) 31 0
abbrev PWM_CAL_CAL_DONE : FRef := .mk Reg.PWM_CAL 31 31
abbrev PWM_CAL_COARSE_N : FRef := .mk Reg.PWM_CAL 6 0

/-! ### Fields of spec/14_gate_drive_protection.md -/

abbrev GDL_CFG_FLT_EN (p : Nat) : FRef := .mk (Reg.GDL_CFG p) 31 31
abbrev GDL_CFG_STAT_EN (p : Nat) : FRef := .mk (Reg.GDL_CFG p) 30 30
abbrev GDL_CFG_STAT_TO (p : Nat) : FRef := .mk (Reg.GDL_CFG p) 19 10
abbrev GDL_STATUS_LAST_SEQ (p : Nat) : FRef := .mk (Reg.GDL_STATUS p) 31 28
abbrev GDL_STATUS_LINK_UP (p : Nat) : FRef := .mk (Reg.GDL_STATUS p) 27 27
abbrev GDL_STATUS_FLT_LIVE (p : Nat) : FRef := .mk (Reg.GDL_STATUS p) 26 26
abbrev GDL_STATUS_LATCHED (p : Nat) : FRef := .mk (Reg.GDL_STATUS p) 25 25
abbrev GDL_STATUS_FIRST_CAUSE (p : Nat) : FRef := .mk (Reg.GDL_STATUS p) 20 16
abbrev GDL_STATUS_LAST_FLAGS (p : Nat) : FRef := .mk (Reg.GDL_STATUS p) 10 0
abbrev GDL_CAUSE_CAUSE (p : Nat) : FRef := .mk (Reg.GDL_CAUSE p) 15 0
abbrev GDL_COUNT_FAULTS (p : Nat) : FRef := .mk (Reg.GDL_COUNT p) 31 24
abbrev GDL_COUNT_LINK_LOSSES (p : Nat) : FRef := .mk (Reg.GDL_COUNT p) 23 16
abbrev GDL_COUNT_BAD_WORDS (p : Nat) : FRef := .mk (Reg.GDL_COUNT p) 15 0
abbrev GDL_EN_CFG_EN_SRC_EN : FRef := .mk Reg.GDL_EN_CFG 31 31
abbrev GDL_EN_CFG_EN_SRC : FRef := .mk Reg.GDL_EN_CFG 27 24
abbrev GDL_EN_STATUS_GD_EN_LEVEL : FRef := .mk Reg.GDL_EN_STATUS 31 31
abbrev GDL_EN_STATUS_BANK_OK : FRef := .mk Reg.GDL_EN_STATUS 30 30
abbrev GDL_EN_STATUS_GD_ANY : FRef := .mk Reg.GDL_EN_STATUS 29 29
abbrev GDL_EN_STATUS_LOW_TIME : FRef := .mk Reg.GDL_EN_STATUS 15 0
abbrev GDL_EVENTS_LINK_EV : FRef := .mk Reg.GDL_EVENTS 4 4
abbrev GDL_EVENTS_CLR_BLOCKED : FRef := .mk Reg.GDL_EVENTS 3 3
abbrev GDL_EVENTS_SHORT_TOGGLE : FRef := .mk Reg.GDL_EVENTS 2 2
abbrev GDL_EVENTS_CLEARED_EV : FRef := .mk Reg.GDL_EVENTS 1 1
abbrev GDL_EVENTS_FAULT_EV : FRef := .mk Reg.GDL_EVENTS 0 0
abbrev GDL_LATCHED (p : Nat) : FRef := .mk (Reg.GDL_LATCHED p) 31 0

/-! ### Fields of spec/15_lockstep.md -/

abbrev LS_CFG_ENG_WIN : FRef := .mk Reg.LS_CFG 28 16
abbrev LS_CFG_CORE_WIN : FRef := .mk Reg.LS_CFG 12 0
abbrev LS_STATUS_LOCKSTEP_BROKEN : FRef := .mk Reg.LS_STATUS 31 31
abbrev LS_STATUS_TEST_OK : FRef := .mk Reg.LS_STATUS 28 28
abbrev LS_STATUS_BROKEN_UNIT : FRef := .mk Reg.LS_STATUS 9 8
abbrev LS_STATUS_ENG_STATE : FRef := .mk Reg.LS_STATUS 5 4
abbrev LS_STATUS_CORE_STATE : FRef := .mk Reg.LS_STATUS 1 0
abbrev LS_EVENTS_TEST_FAIL_EV : FRef := .mk Reg.LS_EVENTS 3 3
abbrev LS_EVENTS_BROKEN_EV : FRef := .mk Reg.LS_EVENTS 2 2
abbrev LS_EVENTS_ENG_MM_EV : FRef := .mk Reg.LS_EVENTS 1 1
abbrev LS_EVENTS_CORE_MM_EV : FRef := .mk Reg.LS_EVENTS 0 0
abbrev LS_MM_INFO_VALID : FRef := .mk Reg.LS_MM_INFO 31 31
abbrev LS_MM_INFO_UNIT : FRef := .mk Reg.LS_MM_INFO 30 29
abbrev LS_MM_INFO_DIRECT : FRef := .mk Reg.LS_MM_INFO 28 28
abbrev LS_MM_INFO_AB : FRef := .mk Reg.LS_MM_INFO 27 27
abbrev LS_MM_INFO_CYCLE : FRef := .mk Reg.LS_MM_INFO 12 0
abbrev LS_SIG_CORE_L_LO : FRef := .mk Reg.LS_SIG_CORE_L_LO 31 0
abbrev LS_SIG_CORE_L_HI : FRef := .mk Reg.LS_SIG_CORE_L_HI 31 0
abbrev LS_SIG_CORE_T_LO : FRef := .mk Reg.LS_SIG_CORE_T_LO 31 0
abbrev LS_SIG_CORE_T_HI : FRef := .mk Reg.LS_SIG_CORE_T_HI 31 0
abbrev LS_SIG_ENG_L_LO : FRef := .mk Reg.LS_SIG_ENG_L_LO 31 0
abbrev LS_SIG_ENG_L_HI : FRef := .mk Reg.LS_SIG_ENG_L_HI 31 0
abbrev LS_SIG_ENG_T_LO : FRef := .mk Reg.LS_SIG_ENG_T_LO 31 0
abbrev LS_SIG_ENG_T_HI : FRef := .mk Reg.LS_SIG_ENG_T_HI 31 0
abbrev LS_COUNT_WINDOWS : FRef := .mk Reg.LS_COUNT 31 0
abbrev LS_TEST_GO : FRef := .mk Reg.LS_TEST 31 31
abbrev LS_TEST_BUSY : FRef := .mk Reg.LS_TEST 30 30
abbrev LS_TEST_PASS : FRef := .mk Reg.LS_TEST 29 29

/-! ### Fields of spec/16_metering.md -/

abbrev MTR_CFG_EN (p : Nat) : FRef := .mk (Reg.MTR_CFG p) 31 31
abbrev MTR_CFG_DIR (p : Nat) : FRef := .mk (Reg.MTR_CFG p) 30 30
abbrev MTR_CFG_FILL_MAX (p : Nat) : FRef := .mk (Reg.MTR_CFG p) 15 0
abbrev MTR_IN_CORE (p q : Nat) : FRef := .mk (Reg.MTR_IN p q) 9 4
abbrev MTR_IN_ENTRY (p q : Nat) : FRef := .mk (Reg.MTR_IN p q) 3 0
abbrev MTR_PBASE (p : Nat) : FRef := .mk (Reg.MTR_PBASE p) 31 0
abbrev MTR_CAL_OFFS (p q : Nat) : FRef := .mk (Reg.MTR_CAL_OFFS p q) 19 0
abbrev MTR_CAL_GAIN (p q : Nat) : FRef := .mk (Reg.MTR_CAL_GAIN p q) 31 0
abbrev MTR_CAL_SHIFT (p q : Nat) : FRef := .mk (Reg.MTR_CAL_SHIFT p q) 4 0
abbrev MTR_ACC_CFG_EN_0 (p : Nat) : FRef := .mk (Reg.MTR_ACC_CFG p) 7 7
abbrev MTR_ACC_CFG_QTY_0 (p : Nat) : FRef := .mk (Reg.MTR_ACC_CFG p) 2 2
abbrev MTR_ACC_CFG_KIND_0 (p : Nat) : FRef := .mk (Reg.MTR_ACC_CFG p) 1 0
abbrev MTR_ACC_CFG_EN_1 (p : Nat) : FRef := .mk (Reg.MTR_ACC_CFG p) 15 15
abbrev MTR_ACC_CFG_QTY_1 (p : Nat) : FRef := .mk (Reg.MTR_ACC_CFG p) 10 10
abbrev MTR_ACC_CFG_KIND_1 (p : Nat) : FRef := .mk (Reg.MTR_ACC_CFG p) 9 8
abbrev MTR_ACC_CFG_EN_2 (p : Nat) : FRef := .mk (Reg.MTR_ACC_CFG p) 23 23
abbrev MTR_ACC_CFG_QTY_2 (p : Nat) : FRef := .mk (Reg.MTR_ACC_CFG p) 18 18
abbrev MTR_ACC_CFG_KIND_2 (p : Nat) : FRef := .mk (Reg.MTR_ACC_CFG p) 17 16
abbrev MTR_ACC_CFG_EN_3 (p : Nat) : FRef := .mk (Reg.MTR_ACC_CFG p) 31 31
abbrev MTR_ACC_CFG_QTY_3 (p : Nat) : FRef := .mk (Reg.MTR_ACC_CFG p) 26 26
abbrev MTR_ACC_CFG_KIND_3 (p : Nat) : FRef := .mk (Reg.MTR_ACC_CFG p) 25 24
abbrev MTR_STATUS_SAT (p : Nat) : FRef := .mk (Reg.MTR_STATUS p) 31 28
abbrev MTR_STATUS_INV_NOW (p : Nat) : FRef := .mk (Reg.MTR_STATUS p) 15 8
abbrev MTR_STATUS_HOLDING (p : Nat) : FRef := .mk (Reg.MTR_STATUS p) 1 1
abbrev MTR_STATUS_ACTIVE (p : Nat) : FRef := .mk (Reg.MTR_STATUS p) 0 0
abbrev MTR_EVENTS_GUARD_OVF (p : Nat) : FRef := .mk (Reg.MTR_EVENTS p) 7 4
abbrev MTR_EVENTS_INT_OVR (p : Nat) : FRef := .mk (Reg.MTR_EVENTS p) 2 2
abbrev MTR_EVENTS_INVALID_EV (p : Nat) : FRef := .mk (Reg.MTR_EVENTS p) 1 1
abbrev MTR_EVENTS_INT_EV (p : Nat) : FRef := .mk (Reg.MTR_EVENTS p) 0 0
abbrev MTR_P (p : Nat) : FRef := .mk (Reg.MTR_P p) 31 0
abbrev MTR_Q (p : Nat) : FRef := .mk (Reg.MTR_Q p) 31 0
abbrev MTR_ACC_LO (p q : Nat) : FRef := .mk (Reg.MTR_ACC_LO p q) 31 0
abbrev MTR_ACC_HI (p q : Nat) : FRef := .mk (Reg.MTR_ACC_HI p q) 31 0
abbrev MTR_DELTA_LO (p q : Nat) : FRef := .mk (Reg.MTR_DELTA_LO p q) 31 0
abbrev MTR_DELTA_HI (p q : Nat) : FRef := .mk (Reg.MTR_DELTA_HI p q) 31 0
abbrev MTR_REC_NEW (p : Nat) : FRef := .mk (Reg.MTR_REC p) 31 31
abbrev MTR_REC_INV (p : Nat) : FRef := .mk (Reg.MTR_REC p) 15 8
abbrev MTR_NSAMP (p : Nat) : FRef := .mk (Reg.MTR_NSAMP p) 31 0
abbrev MTR_FILLED (p : Nat) : FRef := .mk (Reg.MTR_FILLED p) 31 0
abbrev MTR_V1_MEAN (p : Nat) : FRef := .mk (Reg.MTR_V1_MEAN p) 31 0
abbrev MTR_F_MEAN (p : Nat) : FRef := .mk (Reg.MTR_F_MEAN p) 31 0
abbrev MTR_END_LO (p : Nat) : FRef := .mk (Reg.MTR_END_LO p) 31 0
abbrev MTR_END_HI (p : Nat) : FRef := .mk (Reg.MTR_END_HI p) 15 0
abbrev MTR_INT_CFG_INT_LEN : FRef := .mk Reg.MTR_INT_CFG 15 0
abbrev MTR_CMD_CMD : FRef := .mk Reg.MTR_CMD 30 28
abbrev MTR_CMD_TARGET : FRef := .mk Reg.MTR_CMD 7 0
abbrev MTR_PRESET_LO : FRef := .mk Reg.MTR_PRESET_LO 31 0
abbrev MTR_PRESET_HI : FRef := .mk Reg.MTR_PRESET_HI 31 0
abbrev MTR_GLB_EV_CMD_REF : FRef := .mk Reg.MTR_GLB_EV 2 2
abbrev MTR_GLB_EV_RESTORE_LOST : FRef := .mk Reg.MTR_GLB_EV 1 1
abbrev MTR_GLB_EV_RESTORED : FRef := .mk Reg.MTR_GLB_EV 0 0
abbrev PIN_CFG_EN (p : Nat) : FRef := .mk (Reg.PIN_CFG p) 31 31
abbrev PIN_CFG_UNIT (p : Nat) : FRef := .mk (Reg.PIN_CFG p) 30 29
abbrev PIN_CFG_DEBOUNCE (p : Nat) : FRef := .mk (Reg.PIN_CFG p) 15 8
abbrev PIN_WT (p : Nat) : FRef := .mk (Reg.PIN_WT p) 31 0
abbrev PIN_ACC_LO (p : Nat) : FRef := .mk (Reg.PIN_ACC_LO p) 31 0
abbrev PIN_ACC_HI (p : Nat) : FRef := .mk (Reg.PIN_ACC_HI p) 31 0
abbrev PIN_DELTA_LO (p : Nat) : FRef := .mk (Reg.PIN_DELTA_LO p) 31 0
abbrev PIN_DELTA_HI (p : Nat) : FRef := .mk (Reg.PIN_DELTA_HI p) 31 0
abbrev PIN_ST_LEVEL (p : Nat) : FRef := .mk (Reg.PIN_ST p) 31 31
abbrev PIN_ST_SAT (p : Nat) : FRef := .mk (Reg.PIN_ST p) 30 30
abbrev PIN_ST_NEW (p : Nat) : FRef := .mk (Reg.PIN_ST p) 29 29
abbrev PIN_ST_INV (p : Nat) : FRef := .mk (Reg.PIN_ST p) 15 8
abbrev PIN_ST_GUARD_OVF (p : Nat) : FRef := .mk (Reg.PIN_ST p) 7 7
abbrev PIN_ST_INT_OVR (p : Nat) : FRef := .mk (Reg.PIN_ST p) 6 6
abbrev PIN_CNT_PULSES (p : Nat) : FRef := .mk (Reg.PIN_CNT p) 31 16
abbrev PIN_CNT_REJ (p : Nat) : FRef := .mk (Reg.PIN_CNT p) 15 0
abbrev POUT_CFG_EN (p : Nat) : FRef := .mk (Reg.POUT_CFG p) 31 31
abbrev POUT_CFG_SRC_CH (p : Nat) : FRef := .mk (Reg.POUT_CFG p) 27 24
abbrev POUT_CFG_SRC_ACC (p : Nat) : FRef := .mk (Reg.POUT_CFG p) 23 22
abbrev POUT_CFG_PW (p : Nat) : FRef := .mk (Reg.POUT_CFG p) 15 8
abbrev POUT_KC (p : Nat) : FRef := .mk (Reg.POUT_KC p) 16 0
abbrev POUT_ST_PENDING (p : Nat) : FRef := .mk (Reg.POUT_ST p) 31 24
abbrev POUT_ST_OVF (p : Nat) : FRef := .mk (Reg.POUT_ST p) 1 1
abbrev POUT_ST_ACTIVE (p : Nat) : FRef := .mk (Reg.POUT_ST p) 0 0
abbrev POUT_CNT_PULSES (p : Nat) : FRef := .mk (Reg.POUT_CNT p) 31 16
abbrev POUT_CNT_LOST (p : Nat) : FRef := .mk (Reg.POUT_CNT p) 15 0

/-! ### Fields of spec/17_safety_io.md -/

abbrev SAFE_STATUS_FIRST_CAUSE : FRef := .mk Reg.SAFE_STATUS 20 16
abbrev SAFE_STATUS_CONFORM : FRef := .mk Reg.SAFE_STATUS 12 12
abbrev SAFE_STATUS_TEST_STAND : FRef := .mk Reg.SAFE_STATUS 11 11
abbrev SAFE_STATUS_ACK_LEVEL : FRef := .mk Reg.SAFE_STATUS 10 10
abbrev SAFE_STATUS_ACK_ARMED : FRef := .mk Reg.SAFE_STATUS 9 9
abbrev SAFE_STATUS_SEQ_RUN : FRef := .mk Reg.SAFE_STATUS 8 8
abbrev SAFE_STATUS_LOCKED : FRef := .mk Reg.SAFE_STATUS 0 0
abbrev SAFE_CAUSE_PENDING : FRef := .mk Reg.SAFE_CAUSE 31 16
abbrev SAFE_CAUSE_LATCHED : FRef := .mk Reg.SAFE_CAUSE 15 0
abbrev SAFE_EVENTS_ACK_REJ : FRef := .mk Reg.SAFE_EVENTS 3 3
abbrev SAFE_EVENTS_ACK_REF : FRef := .mk Reg.SAFE_EVENTS 2 2
abbrev SAFE_EVENTS_RELEASE_EV : FRef := .mk Reg.SAFE_EVENTS 1 1
abbrev SAFE_EVENTS_LOCK_EV : FRef := .mk Reg.SAFE_EVENTS 0 0
abbrev SAFE_CTRL_TRIP : FRef := .mk Reg.SAFE_CTRL 31 31
abbrev SAFE_COUNT_LOCKOUTS : FRef := .mk Reg.SAFE_COUNT 31 16
abbrev SAFE_COUNT_RESETS : FRef := .mk Reg.SAFE_COUNT 15 0
abbrev SAFE_CFG_TEST_STAND_REQ : FRef := .mk Reg.SAFE_CFG 31 31
abbrev SAFE_CFG_TP_PERIOD : FRef := .mk Reg.SAFE_CFG 23 16
abbrev SAFE_CFG_TP_W : FRef := .mk Reg.SAFE_CFG 15 8
abbrev SAFE_CFG_OP_PERIOD : FRef := .mk Reg.SAFE_CFG 7 0
abbrev SIN_CFG_EN (p : Nat) : FRef := .mk (Reg.SIN_CFG p) 31 31
abbrev SIN_CFG_TP_A_EN (p : Nat) : FRef := .mk (Reg.SIN_CFG p) 30 30
abbrev SIN_CFG_TP_A (p : Nat) : FRef := .mk (Reg.SIN_CFG p) 29 27
abbrev SIN_CFG_TP_B_EN (p : Nat) : FRef := .mk (Reg.SIN_CFG p) 26 26
abbrev SIN_CFG_TP_B (p : Nat) : FRef := .mk (Reg.SIN_CFG p) 25 23
abbrev SIN_CFG_DISC_T (p : Nat) : FRef := .mk (Reg.SIN_CFG p) 19 10
abbrev SIN_CFG_FILT (p : Nat) : FRef := .mk (Reg.SIN_CFG p) 7 0
abbrev SIN_RUN : FRef := .mk Reg.SIN_RUN 31 0
abbrev SIN_FAULT : FRef := .mk Reg.SIN_FAULT 31 0
abbrev SIN_RAW_A : FRef := .mk Reg.SIN_RAW_A 31 0
abbrev SIN_RAW_B : FRef := .mk Reg.SIN_RAW_B 31 0
abbrev SIN_DEMAND_EV : FRef := .mk Reg.SIN_DEMAND_EV 31 0
abbrev SOUT_CFG_EN (p : Nat) : FRef := .mk (Reg.SOUT_CFG p) 31 31
abbrev SOUT_CFG_RESTART (p : Nat) : FRef := .mk (Reg.SOUT_CFG p) 30 30
abbrev SOUT_CFG_OP_EN (p : Nat) : FRef := .mk (Reg.SOUT_CFG p) 29 29
abbrev SOUT_CFG_G_GDANY (p : Nat) : FRef := .mk (Reg.SOUT_CFG p) 28 28
abbrev SOUT_CFG_REQ_SRC (p : Nat) : FRef := .mk (Reg.SOUT_CFG p) 27 24
abbrev SOUT_CFG_REQ_IDX (p : Nat) : FRef := .mk (Reg.SOUT_CFG p) 23 20
abbrev SOUT_CFG_OP_W (p : Nat) : FRef := .mk (Reg.SOUT_CFG p) 19 8
abbrev SOUT_CFG_RB_T (p : Nat) : FRef := .mk (Reg.SOUT_CFG p) 7 0
abbrev SOUT_IN (p : Nat) : FRef := .mk (Reg.SOUT_IN p) 31 0
abbrev SOUT_STATE_SRB : FRef := .mk Reg.SOUT_STATE 31 16
abbrev SOUT_STATE_ON : FRef := .mk Reg.SOUT_STATE 15 0
abbrev SOUT_WAIT_ALLOW : FRef := .mk Reg.SOUT_WAIT 31 16
abbrev SOUT_WAIT_WAIT_ACK : FRef := .mk Reg.SOUT_WAIT 15 0
abbrev SOUT_REQ_REQ : FRef := .mk Reg.SOUT_REQ 15 0
abbrev SOUT_FAULT_OP_FAIL : FRef := .mk Reg.SOUT_FAULT 31 16
abbrev SOUT_FAULT_RB_FAIL : FRef := .mk Reg.SOUT_FAULT 15 0

/-! ### Fields of spec/18_ridgeline_lanes_ports.md -/

abbrev RG_LANE_CFG_EN (p : Nat) : FRef := .mk (Reg.RG_LANE_CFG p) 31 31
abbrev RG_LANE_CFG_MODE (p : Nat) : FRef := .mk (Reg.RG_LANE_CFG p) 30 30
abbrev RG_LANE_CFG_REACH (p : Nat) : FRef := .mk (Reg.RG_LANE_CFG p) 29 29
abbrev RG_LANE_CFG_TX_PRE (p : Nat) : FRef := .mk (Reg.RG_LANE_CFG p) 20 16
abbrev RG_LANE_STATUS_SIG (p : Nat) : FRef := .mk (Reg.RG_LANE_STATUS p) 31 31
abbrev RG_LANE_STATUS_BLOCK_LOCK (p : Nat) : FRef := .mk (Reg.RG_LANE_STATUS p) 30 30
abbrev RG_LANE_STATUS_AM_LOCK (p : Nat) : FRef := .mk (Reg.RG_LANE_STATUS p) 29 29
abbrev RG_LANE_STATUS_STATE (p : Nat) : FRef := .mk (Reg.RG_LANE_STATUS p) 2 0
abbrev RG_LANE_FEC_CORR (p : Nat) : FRef := .mk (Reg.RG_LANE_FEC p) 31 16
abbrev RG_LANE_FEC_UNCORR (p : Nat) : FRef := .mk (Reg.RG_LANE_FEC p) 15 0
abbrev RG_PORT_CFG_EN (p : Nat) : FRef := .mk (Reg.RG_PORT_CFG p) 31 31
abbrev RG_PORT_CFG_RING (p : Nat) : FRef := .mk (Reg.RG_PORT_CFG p) 30 30
abbrev RG_PORT_CFG_WIDTH (p : Nat) : FRef := .mk (Reg.RG_PORT_CFG p) 29 27
abbrev RG_PORT_CFG_PIPE (p : Nat) : FRef := .mk (Reg.RG_PORT_CFG p) 26 25
abbrev RG_PORT_CFG_MTU (p : Nat) : FRef := .mk (Reg.RG_PORT_CFG p) 13 0
abbrev RG_PORT_STATUS_UP (p : Nat) : FRef := .mk (Reg.RG_PORT_STATUS p) 31 31
abbrev RG_PORT_STATUS_DOWNS (p : Nat) : FRef := .mk (Reg.RG_PORT_STATUS p) 15 0
abbrev RG_RING_CFG_RING_A_EN : FRef := .mk Reg.RG_RING_CFG 31 31
abbrev RG_RING_CFG_RING_B_EN : FRef := .mk Reg.RG_RING_CFG 30 30
abbrev RG_RING_CFG_LOOP_FIT_A : FRef := .mk Reg.RG_RING_CFG 29 29
abbrev RG_RING_CFG_LOOP_FIT_B : FRef := .mk Reg.RG_RING_CFG 28 28
abbrev RG_RING_CFG_FIRST_RING : FRef := .mk Reg.RG_RING_CFG 27 27
abbrev RG_RING_CFG_DROWSE_EN : FRef := .mk Reg.RG_RING_CFG 26 26
abbrev RG_RING_CFG_RING_SIZE : FRef := .mk Reg.RG_RING_CFG 25 16
abbrev RG_RING_CFG_NODE : FRef := .mk Reg.RG_RING_CFG 9 0
abbrev RG_RING_TIMING_LEAVE_FRAMES : FRef := .mk Reg.RG_RING_TIMING 31 16
abbrev RG_RING_TIMING_HEAL_HOLD : FRef := .mk Reg.RG_RING_TIMING 15 0
abbrev RG_DROWSE_CFG_DROWSE_WIN : FRef := .mk Reg.RG_DROWSE_CFG 31 24
abbrev RG_DROWSE_CFG_DROWSE_LOAD : FRef := .mk Reg.RG_DROWSE_CFG 23 16
abbrev RG_DROWSE_CFG_WAKE_LOAD : FRef := .mk Reg.RG_DROWSE_CFG 15 8
abbrev RG_RING_CTRL_CMD : FRef := .mk Reg.RG_RING_CTRL 31 28
abbrev RG_RING_CTRL_TARGET : FRef := .mk Reg.RG_RING_CTRL 3 0
abbrev RG_RING_STATUS_BREAKS_B : FRef := .mk Reg.RG_RING_STATUS 31 27
abbrev RG_RING_STATUS_BREAKS_A : FRef := .mk Reg.RG_RING_STATUS 26 22
abbrev RG_RING_STATUS_UNUSABLE_B : FRef := .mk Reg.RG_RING_STATUS 21 21
abbrev RG_RING_STATUS_UNUSABLE_A : FRef := .mk Reg.RG_RING_STATUS 20 20
abbrev RG_RING_STATUS_HOLD_REQ_B : FRef := .mk Reg.RG_RING_STATUS 9 9
abbrev RG_RING_STATUS_HOLD_REQ_A : FRef := .mk Reg.RG_RING_STATUS 8 8
abbrev RG_RING_STATUS_INS_B : FRef := .mk Reg.RG_RING_STATUS 6 4
abbrev RG_RING_STATUS_INS_A : FRef := .mk Reg.RG_RING_STATUS 2 0
abbrev RG_RING_EVENTS_NBR_WRONG : FRef := .mk Reg.RG_RING_EVENTS 6 6
abbrev RG_RING_EVENTS_DROWSE_EV : FRef := .mk Reg.RG_RING_EVENTS 5 5
abbrev RG_RING_EVENTS_BREAK_EV : FRef := .mk Reg.RG_RING_EVENTS 4 4
abbrev RG_RING_EVENTS_SELF_BYPASS_EV : FRef := .mk Reg.RG_RING_EVENTS 3 3
abbrev RG_RING_EVENTS_LOOP_FAIL_EV : FRef := .mk Reg.RG_RING_EVENTS 2 2
abbrev RG_RING_EVENTS_GROUP_DOWN_EV : FRef := .mk Reg.RG_RING_EVENTS 1 1
abbrev RG_RING_EVENTS_INSERTED_EV : FRef := .mk Reg.RG_RING_EVENTS 0 0
abbrev RG_GROUP_STATUS_NBR_VALID (p : Nat) : FRef := .mk (Reg.RG_GROUP_STATUS p) 31 31
abbrev RG_GROUP_STATUS_NBR_NODE (p : Nat) : FRef := .mk (Reg.RG_GROUP_STATUS p) 25 16
abbrev RG_GROUP_STATUS_STATE (p : Nat) : FRef := .mk (Reg.RG_GROUP_STATUS p) 3 0
abbrev RG_BREAK_VALID (p q : Nat) : FRef := .mk (Reg.RG_BREAK p q) 31 31
abbrev RG_BREAK_PLANNED (p q : Nat) : FRef := .mk (Reg.RG_BREAK p q) 30 30
abbrev RG_BREAK_DROWSE (p q : Nat) : FRef := .mk (Reg.RG_BREAK p q) 29 29
abbrev RG_BREAK_SPAN (p q : Nat) : FRef := .mk (Reg.RG_BREAK p q) 25 16
abbrev RG_BREAK_AGE (p q : Nat) : FRef := .mk (Reg.RG_BREAK p q) 15 0

/-! ### Fields of spec/19_plots_and_classes.md -/

abbrev PQ_PLOT_CFG_EN (p : Nat) : FRef := .mk (Reg.PQ_PLOT_CFG p) 31 31
abbrev PQ_PLOT_CFG_PIN (p : Nat) : FRef := .mk (Reg.PQ_PLOT_CFG p) 30 29
abbrev PQ_PLOT_CFG_LEARN (p : Nat) : FRef := .mk (Reg.PQ_PLOT_CFG p) 28 28
abbrev PQ_PLOT_CFG_MACSEC (p : Nat) : FRef := .mk (Reg.PQ_PLOT_CFG p) 27 27
abbrev PQ_PLOT_CFG_YEL_THR (p : Nat) : FRef := .mk (Reg.PQ_PLOT_CFG p) 26 24
abbrev PQ_PLOT_CFG_WEIGHT (p : Nat) : FRef := .mk (Reg.PQ_PLOT_CFG p) 23 16
abbrev PQ_PLOT_CFG_FDB_MAX (p : Nat) : FRef := .mk (Reg.PQ_PLOT_CFG p) 14 0
abbrev PQ_PLOT_BUF_BUF_MAX (p : Nat) : FRef := .mk (Reg.PQ_PLOT_BUF p) 28 16
abbrev PQ_PLOT_BUF_BUF_MIN (p : Nat) : FRef := .mk (Reg.PQ_PLOT_BUF p) 12 0
abbrev PQ_PLOT_LIM_DESC_MAX (p : Nat) : FRef := .mk (Reg.PQ_PLOT_LIM p) 31 16
abbrev PQ_PLOT_LIM_DESC_MIN (p : Nat) : FRef := .mk (Reg.PQ_PLOT_LIM p) 15 0
abbrev PQ_PLOT_STATUS_QUENCHED (p : Nat) : FRef := .mk (Reg.PQ_PLOT_STATUS p) 31 31
abbrev PQ_PLOT_STATUS_THROTTLED (p : Nat) : FRef := .mk (Reg.PQ_PLOT_STATUS p) 30 30
abbrev PQ_PLOT_STATUS_SA_UP (p : Nat) : FRef := .mk (Reg.PQ_PLOT_STATUS p) 27 24
abbrev PQ_PLOT_STATUS_DESC_USE (p : Nat) : FRef := .mk (Reg.PQ_PLOT_STATUS p) 15 0
abbrev PQ_PLOT_USE_BUF_USE (p : Nat) : FRef := .mk (Reg.PQ_PLOT_USE p) 18 0
abbrev PQ_PLOT_DROP_QUOTA_DROP (p : Nat) : FRef := .mk (Reg.PQ_PLOT_DROP p) 31 16
abbrev PQ_PLOT_DROP_RED_DROP (p : Nat) : FRef := .mk (Reg.PQ_PLOT_DROP p) 15 0
abbrev PQ_PLOT_DROP2_QUENCH_DROP (p : Nat) : FRef := .mk (Reg.PQ_PLOT_DROP2 p) 31 16
abbrev PQ_PLOT_DROP2_LEARN_FAIL (p : Nat) : FRef := .mk (Reg.PQ_PLOT_DROP2 p) 15 0
abbrev PQ_POL_RATE_PIR (p q : Nat) : FRef := .mk (Reg.PQ_POL_RATE p q) 31 16
abbrev PQ_POL_RATE_CIR (p q : Nat) : FRef := .mk (Reg.PQ_POL_RATE p q) 15 0
abbrev PQ_POL_BURST_PBS (p q : Nat) : FRef := .mk (Reg.PQ_POL_BURST p q) 31 16
abbrev PQ_POL_BURST_CBS (p q : Nat) : FRef := .mk (Reg.PQ_POL_BURST p q) 15 0
abbrev PQ_PORT_MAP_ROLE (p : Nat) : FRef := .mk (Reg.PQ_PORT_MAP p) 31 30
abbrev PQ_PORT_MAP_SHUT (p : Nat) : FRef := .mk (Reg.PQ_PORT_MAP p) 29 29
abbrev PQ_PORT_MAP_DEF_CLASS (p : Nat) : FRef := .mk (Reg.PQ_PORT_MAP p) 26 24
abbrev PQ_PORT_MAP_PLOT (p : Nat) : FRef := .mk (Reg.PQ_PORT_MAP p) 21 16
abbrev PQ_PORT_PCP_PCP_MAP (p : Nat) : FRef := .mk (Reg.PQ_PORT_PCP p) 23 0
abbrev PQ_FDB_CFG_AGE_TIME : FRef := .mk Reg.PQ_FDB_CFG 15 0
abbrev PQ_FDB_CTRL_GO : FRef := .mk Reg.PQ_FDB_CTRL 31 31
abbrev PQ_FDB_CTRL_CMD : FRef := .mk Reg.PQ_FDB_CTRL 30 28
abbrev PQ_FDB_STATUS_ARMED : FRef := .mk Reg.PQ_FDB_STATUS 7 7
abbrev PQ_FDB_STATUS_COPY_BUSY : FRef := .mk Reg.PQ_FDB_STATUS 6 6
abbrev PQ_FDB_STATUS_ACT_BANK : FRef := .mk Reg.PQ_FDB_STATUS 5 5
abbrev PQ_FDB_STATUS_ACC_OK : FRef := .mk Reg.PQ_FDB_STATUS 4 4
abbrev PQ_FDB_STATUS_SWAP_DONE : FRef := .mk Reg.PQ_FDB_STATUS 3 3
abbrev PQ_FDB_STATUS_SWAP_DISC : FRef := .mk Reg.PQ_FDB_STATUS 2 2
abbrev PQ_FDB_STATUS_WR_REF : FRef := .mk Reg.PQ_FDB_STATUS 1 1
abbrev PQ_FDB_AT_LO : FRef := .mk Reg.PQ_FDB_AT_LO 31 0
abbrev PQ_FDB_AT_HI : FRef := .mk Reg.PQ_FDB_AT_HI 15 0
abbrev PQ_FDB_KEY_LO : FRef := .mk Reg.PQ_FDB_KEY_LO 31 0
abbrev PQ_FDB_KEY_HI_PLOT : FRef := .mk Reg.PQ_FDB_KEY_HI 21 16
abbrev PQ_FDB_KEY_HI_MAC_HI : FRef := .mk Reg.PQ_FDB_KEY_HI 15 0
abbrev PQ_FDB_RES_VALID : FRef := .mk Reg.PQ_FDB_RES 31 31
abbrev PQ_FDB_RES_STATIC : FRef := .mk Reg.PQ_FDB_RES 30 30
abbrev PQ_FDB_RES_TYPE : FRef := .mk Reg.PQ_FDB_RES 29 28
abbrev PQ_FDB_RES_NODE : FRef := .mk Reg.PQ_FDB_RES 25 16
abbrev PQ_FDB_RES_PORT : FRef := .mk Reg.PQ_FDB_RES 6 0
abbrev PQ_CLASS_CFG_MGMT_RATE : FRef := .mk Reg.PQ_CLASS_CFG 7 0
abbrev PQ_CTL_STATUS_INS_MAX : FRef := .mk Reg.PQ_CTL_STATUS 23 16
abbrev PQ_CTL_STATUS_RX_VOID : FRef := .mk Reg.PQ_CTL_STATUS 7 4
abbrev PQ_CTL_STATUS_LANE_VOID : FRef := .mk Reg.PQ_CTL_STATUS 3 0
abbrev PQ_CTL_CNT0_RX_OVER (p : Nat) : FRef := .mk (Reg.PQ_CTL_CNT0 p) 31 16
abbrev PQ_CTL_CNT0_BAD (p : Nat) : FRef := .mk (Reg.PQ_CTL_CNT0 p) 15 0
abbrev PQ_CTL_CNT1_REPLAY (p : Nat) : FRef := .mk (Reg.PQ_CTL_CNT1 p) 31 16
abbrev PQ_CTL_CNT1_INS_DROP (p : Nat) : FRef := .mk (Reg.PQ_CTL_CNT1 p) 15 0

/-! ### Fields of spec/20_commands_and_serial_ports.md -/

abbrev CE_CFG_TEN_BURST : FRef := .mk Reg.CE_CFG 31 24
abbrev CE_CFG_TEN_RATE : FRef := .mk Reg.CE_CFG 23 16
abbrev CE_CFG_SESS_IDLE : FRef := .mk Reg.CE_CFG 15 0
abbrev CE_STATUS_FRONT_ONLY : FRef := .mk Reg.CE_STATUS 31 31
abbrev CE_STATUS_SESSIONS : FRef := .mk Reg.CE_STATUS 30 24
abbrev CE_STATUS_LONG_OPS : FRef := .mk Reg.CE_STATUS 20 16
abbrev CE_STATUS_INFLIGHT : FRef := .mk Reg.CE_STATUS 12 0
abbrev CE_EVENTS_OP_FAIL_EV : FRef := .mk Reg.CE_EVENTS 5 5
abbrev CE_EVENTS_RATE_EV : FRef := .mk Reg.CE_EVENTS 4 4
abbrev CE_EVENTS_TAGS_FULL_EV : FRef := .mk Reg.CE_EVENTS 3 3
abbrev CE_EVENTS_SESS_FULL_EV : FRef := .mk Reg.CE_EVENTS 2 2
abbrev CE_EVENTS_CONFLICT_EV : FRef := .mk Reg.CE_EVENTS 1 1
abbrev CE_EVENTS_AUTH_FAIL_EV : FRef := .mk Reg.CE_EVENTS 0 0
abbrev CE_COUNT_ACCEPTED : FRef := .mk Reg.CE_COUNT 31 16
abbrev CE_COUNT_REJECTED : FRef := .mk Reg.CE_COUNT 15 0
abbrev CE_SESS_VALID (p : Nat) : FRef := .mk (Reg.CE_SESS p) 31 31
abbrev CE_SESS_HALF_OPEN (p : Nat) : FRef := .mk (Reg.CE_SESS p) 30 30
abbrev CE_SESS_ROLE (p : Nat) : FRef := .mk (Reg.CE_SESS p) 29 27
abbrev CE_SESS_PW_OK (p : Nat) : FRef := .mk (Reg.CE_SESS p) 26 26
abbrev CE_SESS_TRANSPORT (p : Nat) : FRef := .mk (Reg.CE_SESS p) 23 21
abbrev CE_SESS_PLOT (p : Nat) : FRef := .mk (Reg.CE_SESS p) 20 15
abbrev CE_SESS_IDLE (p : Nat) : FRef := .mk (Reg.CE_SESS p) 14 0
abbrev CE_OP_VALID (p : Nat) : FRef := .mk (Reg.CE_OP p) 31 31
abbrev CE_OP_STATE (p : Nat) : FRef := .mk (Reg.CE_OP p) 30 28
abbrev CE_OP_STATUS (p : Nat) : FRef := .mk (Reg.CE_OP p) 27 24
abbrev CE_OP_OPCODE (p : Nat) : FRef := .mk (Reg.CE_OP p) 23 16
abbrev CE_OP_TAG (p : Nat) : FRef := .mk (Reg.CE_OP p) 11 0
abbrev CE_OP2_SESSION (p : Nat) : FRef := .mk (Reg.CE_OP2 p) 31 24
abbrev CE_OP2_PROGRESS (p : Nat) : FRef := .mk (Reg.CE_OP2 p) 23 16
abbrev CSP_CFG_EN (p : Nat) : FRef := .mk (Reg.CSP_CFG p) 31 31
abbrev CSP_CFG_MODE (p : Nat) : FRef := .mk (Reg.CSP_CFG p) 30 30
abbrev CSP_CFG_FUNC (p : Nat) : FRef := .mk (Reg.CSP_CFG p) 29 28
abbrev CSP_CFG_CPOL (p : Nat) : FRef := .mk (Reg.CSP_CFG p) 27 27
abbrev CSP_CFG_CPHA (p : Nat) : FRef := .mk (Reg.CSP_CFG p) 26 26
abbrev CSP_CFG_LSB_FIRST (p : Nat) : FRef := .mk (Reg.CSP_CFG p) 25 25
abbrev CSP_CFG_DIV (p : Nat) : FRef := .mk (Reg.CSP_CFG p) 15 0
abbrev CSP_XFER_GO (p : Nat) : FRef := .mk (Reg.CSP_XFER p) 31 31
abbrev CSP_XFER_BUSY (p : Nat) : FRef := .mk (Reg.CSP_XFER p) 30 30
abbrev CSP_XFER_LEN (p : Nat) : FRef := .mk (Reg.CSP_XFER p) 11 0
abbrev CSP_STATUS_TX_LEVEL (p : Nat) : FRef := .mk (Reg.CSP_STATUS p) 31 22
abbrev CSP_STATUS_RX_LEVEL (p : Nat) : FRef := .mk (Reg.CSP_STATUS p) 21 12
abbrev CSP_STATUS_SHORT_EV (p : Nat) : FRef := .mk (Reg.CSP_STATUS p) 6 6
abbrev CSP_STATUS_LONG_EV (p : Nat) : FRef := .mk (Reg.CSP_STATUS p) 5 5
abbrev CSP_STATUS_XFER_REF (p : Nat) : FRef := .mk (Reg.CSP_STATUS p) 4 4
abbrev CSP_STATUS_RX_UNF (p : Nat) : FRef := .mk (Reg.CSP_STATUS p) 3 3
abbrev CSP_STATUS_RX_OVF (p : Nat) : FRef := .mk (Reg.CSP_STATUS p) 2 2
abbrev CSP_STATUS_TX_UNF (p : Nat) : FRef := .mk (Reg.CSP_STATUS p) 1 1
abbrev CSP_STATUS_TX_OVF (p : Nat) : FRef := .mk (Reg.CSP_STATUS p) 0 0
abbrev CSP_TXDATA_TX (p : Nat) : FRef := .mk (Reg.CSP_TXDATA p) 31 0
abbrev CSP_RXDATA_RX (p : Nat) : FRef := .mk (Reg.CSP_RXDATA p) 31 0
abbrev CSP_RXLEN_BITS (p : Nat) : FRef := .mk (Reg.CSP_RXLEN p) 12 0

/-! ### Fields of spec/21_counters_and_observation.md -/

abbrev PCN_RX_BYTES_LO (p : Nat) : FRef := .mk (Reg.PCN_RX_BYTES_LO p) 31 0
abbrev PCN_RX_BYTES_HI (p : Nat) : FRef := .mk (Reg.PCN_RX_BYTES_HI p) 31 0
abbrev PCN_RX_FRAMES_LO (p : Nat) : FRef := .mk (Reg.PCN_RX_FRAMES_LO p) 31 0
abbrev PCN_RX_FRAMES_HI (p : Nat) : FRef := .mk (Reg.PCN_RX_FRAMES_HI p) 31 0
abbrev PCN_RX_DROPS_LO (p : Nat) : FRef := .mk (Reg.PCN_RX_DROPS_LO p) 31 0
abbrev PCN_RX_DROPS_HI (p : Nat) : FRef := .mk (Reg.PCN_RX_DROPS_HI p) 31 0
abbrev PCN_RX_FRAGS_LO (p : Nat) : FRef := .mk (Reg.PCN_RX_FRAGS_LO p) 31 0
abbrev PCN_RX_FRAGS_HI (p : Nat) : FRef := .mk (Reg.PCN_RX_FRAGS_HI p) 31 0
abbrev PCN_TX_BYTES_LO (p : Nat) : FRef := .mk (Reg.PCN_TX_BYTES_LO p) 31 0
abbrev PCN_TX_BYTES_HI (p : Nat) : FRef := .mk (Reg.PCN_TX_BYTES_HI p) 31 0
abbrev PCN_TX_FRAMES_LO (p : Nat) : FRef := .mk (Reg.PCN_TX_FRAMES_LO p) 31 0
abbrev PCN_TX_FRAMES_HI (p : Nat) : FRef := .mk (Reg.PCN_TX_FRAMES_HI p) 31 0
abbrev PCN_TX_DROPS_LO (p : Nat) : FRef := .mk (Reg.PCN_TX_DROPS_LO p) 31 0
abbrev PCN_TX_DROPS_HI (p : Nat) : FRef := .mk (Reg.PCN_TX_DROPS_HI p) 31 0
abbrev PCN_TX_FRAGS_LO (p : Nat) : FRef := .mk (Reg.PCN_TX_FRAGS_LO p) 31 0
abbrev PCN_TX_FRAGS_HI (p : Nat) : FRef := .mk (Reg.PCN_TX_FRAGS_HI p) 31 0
abbrev BW_RX_MIN (p : Nat) : FRef := .mk (Reg.BW_RX_MIN p) 31 0
abbrev BW_RX_MAX (p : Nat) : FRef := .mk (Reg.BW_RX_MAX p) 31 0
abbrev BW_RX_MEAN (p : Nat) : FRef := .mk (Reg.BW_RX_MEAN p) 31 0
abbrev BW_TX_MIN (p : Nat) : FRef := .mk (Reg.BW_TX_MIN p) 31 0
abbrev BW_TX_MAX (p : Nat) : FRef := .mk (Reg.BW_TX_MAX p) 31 0
abbrev BW_TX_MEAN (p : Nat) : FRef := .mk (Reg.BW_TX_MEAN p) 31 0
abbrev LE_CYC_LO (p : Nat) : FRef := .mk (Reg.LE_CYC_LO p) 31 0
abbrev LE_CYC_HI (p : Nat) : FRef := .mk (Reg.LE_CYC_HI p) 31 0
abbrev LE_TICKS_LO : FRef := .mk Reg.LE_TICKS_LO 31 0
abbrev LE_TICKS_HI : FRef := .mk Reg.LE_TICKS_HI 31 0
abbrev LE_MAX (p : Nat) : FRef := .mk (Reg.LE_MAX p) 15 0
abbrev LE_OVR (p : Nat) : FRef := .mk (Reg.LE_OVR p) 31 0
abbrev PC_SEL_EN (p : Nat) : FRef := .mk (Reg.PC_SEL p) 31 31
abbrev PC_SEL_OVF_EN (p : Nat) : FRef := .mk (Reg.PC_SEL p) 30 30
abbrev PC_SEL_EVENT (p : Nat) : FRef := .mk (Reg.PC_SEL p) 17 8
abbrev PC_SEL_QUAL (p : Nat) : FRef := .mk (Reg.PC_SEL p) 7 0
abbrev PC_CNT_LO (p : Nat) : FRef := .mk (Reg.PC_CNT_LO p) 31 0
abbrev PC_CNT_HI (p : Nat) : FRef := .mk (Reg.PC_CNT_HI p) 31 0
abbrev PC_CTRL_CMD : FRef := .mk Reg.PC_CTRL 2 0
abbrev PC_AT_LO : FRef := .mk Reg.PC_AT_LO 31 0
abbrev PC_AT_HI : FRef := .mk Reg.PC_AT_HI 15 0
abbrev PC_STATUS_BW_VALID : FRef := .mk Reg.PC_STATUS 4 4
abbrev PC_STATUS_FROZEN : FRef := .mk Reg.PC_STATUS 3 3
abbrev PC_STATUS_SNAP_PART : FRef := .mk Reg.PC_STATUS 2 2
abbrev PC_STATUS_SNAP_MISSED : FRef := .mk Reg.PC_STATUS 1 1
abbrev PC_STATUS_SNAP_DONE : FRef := .mk Reg.PC_STATUS 0 0
abbrev PC_SNAP_FN_LO : FRef := .mk Reg.PC_SNAP_FN_LO 31 0
abbrev PC_SNAP_FN_HI : FRef := .mk Reg.PC_SNAP_FN_HI 15 0
abbrev PC_BW_CFG_BW_WIN : FRef := .mk Reg.PC_BW_CFG 13 0
abbrev PC_OVF (p : Nat) : FRef := .mk (Reg.PC_OVF p) 31 0
abbrev PC_RAIL_VOUT (p : Nat) : FRef := .mk (Reg.PC_RAIL p) 31 16
abbrev PC_RAIL_IOUT (p : Nat) : FRef := .mk (Reg.PC_RAIL p) 15 0
abbrev DBG_UNLOCK_LOCK : FRef := .mk Reg.DBG_UNLOCK 31 31
abbrev DBG_UNLOCK_OPEN : FRef := .mk Reg.DBG_UNLOCK 30 30
abbrev DBG_UNLOCK_SESSION : FRef := .mk Reg.DBG_UNLOCK 29 24
abbrev DBG_UNLOCK_SCOPE : FRef := .mk Reg.DBG_UNLOCK 23 20
abbrev DBG_UNLOCK_MIN_LEFT : FRef := .mk Reg.DBG_UNLOCK 10 0
abbrev DBG_OBS_SEL_GROUP (p : Nat) : FRef := .mk (Reg.DBG_OBS_SEL p) 11 8
abbrev DBG_OBS_SEL_INDEX (p : Nat) : FRef := .mk (Reg.DBG_OBS_SEL p) 7 0
abbrev DBG_ATEST_SEL_GROUP (p : Nat) : FRef := .mk (Reg.DBG_ATEST_SEL p) 11 8
abbrev DBG_ATEST_SEL_INDEX (p : Nat) : FRef := .mk (Reg.DBG_ATEST_SEL p) 7 0
abbrev DBG_HALT_STATUS_APP : FRef := .mk Reg.DBG_HALT_STATUS 7 4
abbrev DBG_HALT_STATUS_ENGINE : FRef := .mk Reg.DBG_HALT_STATUS 1 1
abbrev DBG_HALT_STATUS_CORE : FRef := .mk Reg.DBG_HALT_STATUS 0 0

end Fld

end Sys2Proof.Machine
end

