-- ==== Sys2Proof/Machine/ResetWord.lean ====
section
/-!
DEFINITION. Machine/ResetWord.lean: what a register reads as after a reset (R10): the reset word of its heading, for every
register whose reset word is not zero; every other register resets to zero.
-/
namespace Sys2Proof.Machine

/-- A register or an array of registers: base + s1 * i + s2 * j for i < n1 and j < n2. -/
structure Span where
  base : Nat
  s1 : Nat
  n1 : Nat
  s2 : Nat
  n2 : Nat
  word : Word
  deriving DecidableEq, Repr

/-- One step of a span: the index and the rest of an offset. -/
def stepOf (s n o : Nat) : Nat × Nat := if s = 0 then (0, o) else (Nat.min (o / s) (n - 1), o - s * Nat.min (o / s) (n - 1))

/-- The indices of an address in a strided array, if it lies in it. -/
def indexIn (base s1 n1 s2 n2 a : Nat) : Option (Nat × Nat) :=
  if a < base then none
  else
    let p := stepOf s1 n1 (a - base)
    let q := stepOf s2 n2 p.2
    if q.2 = 0 then some (p.1, q.1) else none

/-- The registers with a non-zero reset word, by heading. -/
def resetSpans : List Span := [
  ⟨0, 0, 1, 0, 1, Config.devId⟩,  -- DEV_ID (R11)
  ⟨0x10000, 0, 1, 0, 1, 0x00000102#32⟩,  -- PWR_STATE (R87)
  ⟨0x10004, 0, 1, 0, 1, 0x00000A10#32⟩,  -- PWR_CTRL (R88)
  ⟨0x10010, 0, 1, 0, 1, 0x00000003#32⟩,  -- DOM_STATUS (R89)
  ⟨0x10014, 0, 1, 0, 1, 0x00000003#32⟩,  -- DOM_REQ (R90)
  ⟨0x10020, 0, 1, 0, 1, 0x00640258#32⟩,  -- INRUSH_CFG (R92)
  ⟨0x10024, 0, 1, 0, 1, 0x1F0000D5#32⟩,  -- INRUSH_STATUS (R93)
  ⟨0x10028, 0, 1, 0, 1, 0x00000064#32⟩,  -- DRAIN_CFG (R94)
  ⟨0x10100, 4, 16, 0, 1, 0x00000A00#32⟩,  -- RAIL_CFG (R96)
  ⟨0x20110, 0, 1, 0, 1, 0x00000001#32⟩,  -- TIME_SYNC (R120)
  ⟨0x20400, 0, 1, 0, 1, 0x00000020#32⟩,  -- SCHED_CFG (R29)
  ⟨0x20404, 0, 1, 0, 1, 0x00000010#32⟩,  -- SCHED_STATUS (R30)
  ⟨0x30004, 0, 1, 0, 1, 0x00000001#32⟩,  -- LAN_EVENTS (R148)
  ⟨0x30018, 0, 1, 0, 1, 0x00010000#32⟩,  -- RTC_TRIM (R151)
  ⟨0x30100, 0, 1, 0, 1, 0x00146103#32⟩,  -- POWER_CFG (R153)
  ⟨0x30200, 0, 1, 0, 1, 0x00050000#32⟩,  -- BIV_CFG (R154)
  ⟨0x30300, 0, 1, 0, 1, 0x00000A01#32⟩,  -- HB_CTRL (R159)
  ⟨0x30500, 0, 1, 0, 1, 0x00000001#32⟩,  -- LOG_STATUS (R160)
  ⟨0x40060, 0, 1, 0, 1, 0x0000F000#32⟩,  -- AGREE_STATUS (R205)
  ⟨0x100020, 0x1000, 32, 0, 1, 0x00000200#32⟩,  -- ADC_OW_CFG (R244)
  ⟨0x130020, 0x1000, 8, 0, 1, 0x00000200#32⟩,  -- ADC_OW_CFG (R244)
  ⟨0x120200, 0, 1, 0, 1, 0xFFFFFFFF#32⟩,  -- WIN_LATCH_HI (R271)
  ⟨0x120204, 0, 1, 0, 1, 0xFFFFFFFF#32⟩,  -- WIN_LATCH_LO (R271)
  ⟨0x181018, 0x100, 8, 0, 1, 0x40000000#32⟩,  -- GST_PF_SET (R355)
  ⟨0x181030, 0x100, 8, 0, 1, 0x00000BB8#32⟩,  -- GST_QV_TAU (R355)
  ⟨0x1C0040, 0x80, 72, 0, 1, 0x00000003#32⟩,  -- PWM_STATUS (R435)
  ⟨0x1C0044, 0x80, 72, 0, 1, 0x00100000#32⟩,  -- PWM_TRIP_SRC (R435)
  ⟨0x1D0030, 4, 2, 0, 1, 0xFFFFFFFF#32⟩,  -- PWM_TRIPPED, words 0 and 1 (R436)
  ⟨0x1D0038, 0, 1, 0, 1, 0x000000FF#32⟩,  -- PWM_TRIPPED, word 2 (R436)
  ⟨0x1E0004, 0x10, 72, 0, 1, 0x02000000#32⟩,  -- GDL_STATUS (R456)
  ⟨0x1E0804, 0, 1, 0, 1, 0x20000000#32⟩,  -- GDL_EN_STATUS: GD_ANY, with GD_EN low and bank 4 absent (R460)
  ⟨0x1E0810, 4, 2, 0, 1, 0xFFFFFFFF#32⟩,  -- GDL_LATCHED, words 0 and 1 (R462)
  ⟨0x1E0818, 0, 1, 0, 1, 0x000000FF#32⟩,  -- GDL_LATCHED, word 2 (R462)
  ⟨0x1E0008, 0x10, 72, 0, 1, 0x00000001#32⟩,  -- GDL_CAUSE (R457)
  ⟨0x1F0000, 0, 1, 0, 1, 0x01000100#32⟩,  -- LS_CFG (R481)
  ⟨0x201000, 0, 1, 0, 1, 0x00000384#32⟩,  -- MTR_INT_CFG (R509)
  ⟨0x220000, 0, 1, 0, 1, 0x00000001#32⟩,  -- SAFE_STATUS (R530)
  ⟨0x220004, 0, 1, 0, 1, 0x00010001#32⟩,  -- SAFE_CAUSE (R531)
  ⟨0x420004, 0, 1, 0, 1, 0x00FA03E8#32⟩,  -- RG_RING_TIMING (R561)
  ⟨0x420008, 0, 1, 0, 1, 0x3C053200#32⟩,  -- RG_DROWSE_CFG (R561)
  ⟨0x510000, 0, 1, 0, 1, 0x0000012C#32⟩,  -- PQ_FDB_CFG (R601)
  ⟨0x520000, 0, 1, 0, 1, 0x00000014#32⟩,  -- PQ_CLASS_CFG (R603)
  ⟨0x600000, 0, 1, 0, 1, 0x2814012C#32⟩,  -- CE_CFG (R637)
  ⟨0x600004, 0, 1, 0, 1, 0x80000000#32⟩,  -- CE_STATUS (R638)
  ⟨0x706018, 0, 1, 0, 1, 0x000003E8#32⟩,  -- PC_BW_CFG (R668)
  ⟨0x680000, 0, 1, 0, 1, 0xC0000002#32⟩,  -- CSP_CFG_0 (R641)
  ⟨0x680100, 0, 1, 0, 1, 0x90000000#32⟩]  -- CSP_CFG_1 (R641)

/-- The first span that holds an address. -/
def findSpan (a : Nat) : List Span → Option Span
  | [] => none
  | p :: t => if (indexIn p.base p.s1 p.n1 p.s2 p.n2 a).isSome then some p else findSpan a t

/-- The word a register holds after a main-domain reset, or after a Lantern cold start in the Lantern window (R10). -/
def resetWord (a : Nat) : Word := match findSpan a resetSpans with | some p => p.word | none => 0#32

end Sys2Proof.Machine
end

