-- ==== Sys2Proof/Machine/Tab.lean ====
section
/-!
DEFINITION. Machine/Tab.lean: sparse tables in one canonical form: keys strictly rising, no entry equal to what an unlisted
key reads as. The register file and every numbered hidden store of the part are such tables.
-/
namespace Sys2Proof.Machine

/-- A sparse table from a number (a register's byte address, a unit's index) to a value. -/
abbrev Tab (α : Type) := List (Nat × α)

/-- The value at a key; an unlisted key reads as `d`. -/
def Tab.get {α : Type} (d : α) : Tab α → Nat → α
  | [], _ => d
  | (k, v) :: t, a => if k = a then v else Tab.get d t a

/-- Every entry but those of one key. -/
def Tab.erase {α : Type} : Tab α → Nat → Tab α
  | [], _ => []
  | (k, v) :: t, a => if k = a then Tab.erase t a else (k, v) :: Tab.erase t a

/-- Places an entry before the first greater key. -/
def Tab.insert {α : Type} : Tab α → Nat → α → Tab α
  | [], a, v => [(a, v)]
  | (k, w) :: t, a, v => if a < k then (a, v) :: (k, w) :: t else (k, w) :: Tab.insert t a v

/-- Writes one key; writing what an unlisted key reads as removes the entry. -/
def Tab.set {α : Type} [DecidableEq α] (d : α) (t : Tab α) (a : Nat) (v : α) : Tab α :=
  if v = d then t.erase a else (t.erase a).insert a v

/-- The keys rise strictly, and are greater than `lo` where one is given. -/
def Tab.rising {α : Type} : Option Nat → Tab α → Bool
  | _, [] => true
  | lo, (k, _) :: t => (match lo with | none => true | some l => decide (l < k)) && Tab.rising (some k) t

/-- The canonical form of a table whose unlisted key `a` reads as `d a`. -/
def Tab.wf {α : Type} [DecidableEq α] (d : Nat → α) (t : Tab α) : Bool :=
  Tab.rising none t && t.all (fun e => decide (e.2 ≠ d e.1))

/-- Keeps the entries whose key satisfies `p`. -/
def Tab.keep {α : Type} (p : Nat → Bool) : Tab α → Tab α
  | [] => []
  | (k, v) :: t => if p k then (k, v) :: Tab.keep p t else Tab.keep p t

end Sys2Proof.Machine
end

