-- ==== Sys2Proof/Machine/State.lean ====
section
/-!
DEFINITION. Machine/State.lean: the state of the part as plain data: its register file, the hidden state of every block, and
the queue of commands that wait; what stops it; and the machine after reset.
-/
namespace Sys2Proof.Machine

/-- Command status codes 0 to 8 (R609). -/
inductive Status where
  | ok | busy | stateConflict | denied | badArg | noResource | integrity | cancelled | failed
  deriving DecidableEq, Repr

/-- How a register access ended on the bus (R42, R105). -/
inductive BusKind where
  | done | domainOff | busError
  deriving DecidableEq, Repr

/-- The answer of the last register access: its data, how it ended, and its status on the command path. -/
structure BusResp where
  value : Word
  kind : BusKind
  status : Status
  deriving DecidableEq, Repr

/-- A trouble-log entry as the reporting die makes it (R142, R145): FN16 is stamped when the event happens. -/
structure LogEntry where
  source : Nat
  code : Nat
  datum : Word
  fn16 : Nat
  fnNone : Bool
  unsynced : Bool
  /-- The recorded RTC time of an entry written late (R106). -/
  late : Option Nat
  /-- The cycle of the event: the oldest queued entry is written first (R145). -/
  stamp : Nat
  deriving DecidableEq, Repr

/-- A written trouble-log entry: with the RTC time of the write and RTC_INVALID (R142). -/
structure LogRec where
  entry : LogEntry
  rtc : Nat
  rtcInvalid : Bool
  deriving DecidableEq, Repr

/-- The trouble log and its ingress queues (R142, R145). -/
structure TroubleLog where
  lanQ : List LogEntry
  ctrlQ : List LogEntry
  switchQ : List LogEntry
  /-- Written entries, newest first, at most 1,024. -/
  ring : List LogRec
  /-- Events already logged in the current frame, where a code is logged at most once per frame: (source, code, unit). -/
  once : List (Nat × Nat × Nat)
  deriving DecidableEq, Repr

/-- A change-log entry (R195). -/
structure ClogEntry where
  seq : Nat
  rt : Nat
  rtc : Nat
  unsynced : Bool
  rtcInvalid : Bool
  wrap : Bool
  role : Nat
  session : Nat
  kind : Nat
  subject : Nat
  new : BitVec 128
  link : BitVec 128
  deriving DecidableEq, Repr

/-- The change log's volatile and non-volatile parts outside the flash (R196, R197). -/
structure ChangeLog where
  /-- The 64-entry queue retained in the Lantern domain. -/
  queue : List ClogEntry
  /-- NVCA: the highest SEQ reserved. -/
  reservedSeq : Nat
  /-- NVCA chain head: last written SEQ and its hash. -/
  writtenSeq : Nat
  headHash : BitVec 128
  deriving DecidableEq, Repr

/-- States of an image slot in the boot record (R168, R201). -/
inductive SlotState where
  | empty | staged | active | previous | writing
  deriving DecidableEq, Repr

/-- A pending activation or re-pitch in a boot record (R168, R188). -/
structure PendingAct where
  slot : Nat
  target : Nat
  isLocal : Bool
  /-- The plot of a re-pitch; none for an activation. -/
  plot : Option Nat
  deriving DecidableEq, Repr

/-- One copy of the boot record (R168). `valid` stands for its CRC-32. -/
structure BootRec where
  valid : Bool
  seq : Nat
  slotA : SlotState
  slotB : SlotState
  pending : Option PendingAct
  commit : Bool
  deriving DecidableEq, Repr

/-- The boot flash (R167): both boot-record copies, both image slots and the change log's written entries. -/
structure Flash where
  rec0 : BootRec
  rec1 : BootRec
  slotA : List Byte
  slotB : List Byte
  /-- Written change-log entries, oldest first, at most 65,536. -/
  clog : List ClogEntry
  deriving DecidableEq, Repr

/-- The programming of a counted setting (R191): the register offset, the number or the password hash that it puts in place, and the
command that it answers: session, role, opcode and tag. -/
structure OtpJob where
  offset : Nat
  value : Nat
  hash : BitVec 256
  session : Nat
  role : Nat
  opcode : Nat
  tag : Nat
  deriving DecidableEq, Repr

/-- One-time programmable settings (R191 to R193, R208). -/
structure Otp where
  lifecycle : Nat
  /-- SHA-384 of the public key of slots 0 to 3. -/
  keyHash : Tab (BitVec 384)
  enrolled : Nat
  revoked : Nat
  secMin : Nat
  gridCode : Nat
  gridRemain : Nat
  role : Nat
  roleRemain : Nat
  /-- SHA-256 of the safety password (R617; never readable). -/
  spw : BitVec 256
  spwRemain : Nat
  tokenRemain : Nat
  programming : Option OtpJob
  deriving DecidableEq, Repr

/-- How far the boot has come (R169): held in reset; released; firmware running; control sections loaded; image activated
locally; no image verified (R171). -/
inductive BootPhase where
  | inReset | released | firmware | controlLoaded | booted | noImage
  deriving DecidableEq, Repr

/-- Images in the part's own stores and the image control unit (R166 to R190). -/
structure Images where
  phase : BootPhase
  /-- The verified copy of the active image, and the preloaded shadow of the staged one. -/
  active : List Byte
  shadow : List Byte
  /-- A pending record was found at boot without its marker and is still to be compared (R170). -/
  unresolved : Bool
  /-- The commit marker is still to be programmed; the boot record is still to be rewritten (R181). -/
  commitDue : Bool
  rewriteDue : Bool
  /-- Words of EXP_DIGEST_0 to 2 held until EXP_DIGEST_3 is written (R190). -/
  expHeld : Tab (Option Word)
  /-- The pending target frame and staged digest that each neighbour announces (R189, R190). -/
  nbrPend : Tab (Option (Nat × BitVec 128))
  /-- Frame of the last announcement received on each group. -/
  nbrAt : Tab Nat
  /-- Frames the active image has run without a main-domain reset (R186). -/
  activeFrames : Nat
  /-- The staged digest for which a SAFETY session has consented (R620). -/
  consent : Option (BitVec 128)
  /-- Frames for which OPERATOR sessions that open are still alerted of the Lantern's cold start, and the sessions alerted, one bit each
  (R169 step 10). -/
  alertLeft : Nat
  alerted : Nat
  /-- Frame of the node's latest announcement (R189). -/
  announcedAt : Option Nat
  deriving DecidableEq, Repr

/-- Ring time (R15, R107 to R114). -/
structure Time where
  /-- RT64 of the latest frame tick, in ns. -/
  rt : Nat
  /-- Remaining slew in tenths of a nanosecond: positive while local time is to be lowered (R113). -/
  slew : Int
  /-- Base cycles of the frame in progress and of the one before: 8,000 plus or minus one (R111). -/
  frameCycles : Nat
  lastCycles : Nat
  /-- The last offset measurements, newest first (R113). -/
  offsets : List Int
  /-- Sync intervals in a row with the filtered offset within 10 ns (R112). -/
  inBand : Nat
  /-- A frame-number step waits for the next frame tick (R113, R108): frames, signed. -/
  stepPending : Option Int
  /-- Realignment after the control PLL locked (R26): 2 = no time transfer yet, 1 = transfer received, ticks may resume. -/
  resume : Option Nat
  /-- The next control tick of this frame (R19). -/
  nextTick : Nat
  /-- Ring time has been loaded since the main-domain reset (R114). -/
  loaded : Bool
  /-- Entries that wait for the Ridgeline clock, and for the application clock, to be logged late (R106): source, code, datum. -/
  lateRg : List (Nat × Nat × Nat)
  lateApp : List (Nat × Nat × Nat)
  /-- Mean path delay measured on each ring port group, in 1/256 ns (R107). -/
  pdelay : Tab Int
  /-- The master that each ring port group announces (R107). -/
  foreign : Tab (Option Announce)
  /-- Base clock edges are missing (R428). -/
  baseLost : Bool
  /-- What the comparator of PLL_LOCK reads: lock, or no lock (R102). -/
  pinLock : Bool
  deriving DecidableEq, Repr

/-- Where a change of power state stands (R75, R83): APP0's bias is being changed before any wake; the stages are being stopped; domains are
being drained and woken; the rails are being switched off. -/
inductive PwrPhase where
  | bias | stopping | domains | rails
  deriving DecidableEq, Repr

/-- A change of power state in progress (R75, R76). Codes are those of PWR_CTRL.REQ. -/
structure PwrChange where
  /-- The state asked for, and the state the present leg of the change enters (Run is entered before Ring-only from Idle). -/
  goal : Nat
  leg : Nat
  cause : Nat
  /-- STATE when the change began, and the domains on then (R81). -/
  fromState : Nat
  fromOn : Nat
  phase : PwrPhase
  /-- Frames left of the 200 ms for which the stages may take to stop. -/
  stopLeft : Nat
  /-- A rail has been switched off in this entry (R76). -/
  railOff : Bool
  deriving DecidableEq, Repr

/-- Memory assist modes (R78): no assist, write assist, retention. -/
inductive Assist where
  | nom | wa | ret
  deriving DecidableEq, Repr

/-- The power manager (R67 to R84). -/
structure Power where
  change : Option PwrChange
  /-- A request held until the change completes: target and cause (R76). -/
  pendingReq : Option (Nat × Nat)
  wakeQ : List Nat
  /-- Frames that each queued wake has waited (R81). -/
  wakeAge : Tab Nat
  drainQ : List Nat
  /-- Domains the active image uses (R74). -/
  used : Nat
  /-- Rail sequencing: none, or switching on (true) or off (false) at the step `seqStep` (R70). -/
  seqUp : Option Bool
  seqStep : Nat
  /-- Every rail class that the plan uses has been reported good (R169). -/
  railsUp : Bool
  /-- REG_EN latches: a main-domain reset leaves them (R71), with the class and bank for which each rail was enabled. -/
  regEn : Nat
  plan : Tab (Nat × Nat)
  /-- The rails to be switched off by the sequence in progress, and whether the plan's rails are switched on after it (R71). -/
  offSet : Nat
  thenUp : Bool
  /-- VDD_CT has come good and has not failed since: the supply of the control die's output stage (R58). -/
  ctSupply : Bool
  /-- A bias change waits for its frame tick, or is in progress (R79): the reverse body bias level and assist mode wanted. -/
  biasDue : Option (Nat × Assist)
  biasBusy : Option (Nat × Assist)
  /-- Bias level and assist mode of APP0 in force (R78). -/
  biasApp0 : Nat
  assistApp0 : Assist
  /-- APP0 runs at 500 MHz: from before its bias rises until after it has fallen (R74, R79). -/
  app0Slow : Bool
  startState : Nat
  /-- The supply levels of banks 0 to 7 now: present mask and 3.3 V mask (R52). -/
  bankPresent : Nat
  bank3v3 : Nat
  /-- PMBus: margining offset per rail, in 0.01 % (R72). -/
  margin : Tab Int
  /-- ADC cores that are powered down while ANA is on, bit c (R74, R234). -/
  coresOff : Nat
  /-- A rail fault of VDDA has powered every core down: none comes up before the next return to Run or power-up of ANA (R234). -/
  vddaLost : Bool
  deriving DecidableEq, Repr

/-- The retained copy of the accumulators (R496): values in units of 2^-32 by ID, the IDs with SAT, and the configuration bytes. -/
structure MeterCopy where
  acc : Tab Int
  sat : List Nat
  cfg : List (Nat × Nat)
  deriving DecidableEq, Repr

/-- What the Lantern does with the main domain (R134 to R136). -/
inductive LanMode where
  | mainOn | waking | bivouac | dormant | stopped
  deriving DecidableEq, Repr

/-- The Lantern die's state outside its registers (R122 to R146). -/
structure Lantern where
  mode : LanMode
  /-- RTC time in counts, and the fraction of a count in units of 1/10^9 (R128). -/
  rtc : Nat
  rtcFrac : Nat
  /-- The RTC counts on the RC oscillator (R129). -/
  onRc : Bool
  /-- Supplies present besides the cell (R122), and the harvest boost running (R124). -/
  extSupply : Bool
  harvest : Bool
  boostOn : Bool
  /-- The charger is stopped by a fault (R126). -/
  chgFault : Bool
  /-- TEG open-circuit voltage last measured, and the terminal voltage that the boost holds, in units of 10 uV (R125). -/
  tegOcv : Nat
  tegHold : Nat
  /-- The charger has finished, and what it draws for the cell now in uA (R126). -/
  chgDone : Bool
  chgUa : Nat
  /-- RTC counts since the trim period began, and the ends of a trim period that wait for their correction (R131). -/
  period : Nat
  periodDue : Nat
  /-- RTC counts left of a timed wake; none where none is set (R152). -/
  wakeLeft : Option Nat
  /-- WAKE_OUT, the wake sources active now (bit numbers of WAKE_CAUSE), and a failed wake waiting for its retry (R134, R135). -/
  wakeOut : Bool
  wakeActive : Nat
  wakeFailed : Bool
  /-- RTC counts since WAKE_OUT fell (R134, R135). -/
  lowFor : Nat
  /-- Consecutive matching cycles of LMON_0 to 3, and the channels in match, bit n (R138). -/
  lmonRun : Tab Nat
  lmonIn : Nat
  /-- Per ring, bit 0 = A and bit 1 = B: requests of the latest heartbeat, pins in their 10 ms wait, switches counted as
  bypassed (R64, R133). -/
  holdReq : Nat
  holdWait : Nat
  bypassed : Nat
  /-- Disagreeing position samples in a row, per ring (R65). -/
  posBad : Tab Nat
  /-- A control-die heartbeat has arrived since TICK_RUN rose (R132). -/
  ctHbSeen : Bool
  /-- Frames since the last application heartbeat (R132). -/
  appAge : Nat
  /-- RTC times of the loss of the Ridgeline and the application heartbeat (R106, R132). -/
  rgLossRtc : Option Nat
  appLossRtc : Option Nat
  /-- The pair (RT64, RTC time) stored at an orderly entry (R114). -/
  pair : Option (Nat × Nat)
  /-- No main-domain reset has followed the last cold start yet (R199). -/
  coldSince : Bool
  /-- CELL_LOW has been logged since the cell fell below its threshold, and has changed Bivouac to Dormant (R139). -/
  cellLowLogged : Bool
  cellDorm : Bool
  /-- The metering copy retained under its CRC (R496). -/
  meterCopy : Option MeterCopy
  deriving DecidableEq, Repr

/-- The active values of a pair (R416): what the period in progress runs on. -/
structure PwmAct where
  duty : Nat
  per : Nat
  dtRise : Nat
  dtFall : Nat
  cmp : List Nat
  deriving DecidableEq, Repr

/-- One output of a pair at a period boundary: its level, the fine steps since its last edge and since the edge before that, each at most
8,192, and the fine steps until a rise that dead time still delays (R413). -/
structure PwmOut where
  level : Bool
  since : Nat
  last : Nat
  rise : Option Nat
  deriving DecidableEq, Repr

/-- The edges of a pair in its current period: (position in fine steps, new level), and both outputs at its end, with the level of the ideal
signal there. An edge in the last 20 fine steps is not among the edges: the next period decides whether its pulse is produced (R413). -/
structure PwmWave where
  ideal : Bool
  high : PwmOut
  low : PwmOut
  edgesH : List (Nat × Bool)
  edgesL : List (Nat × Bool)
  /-- Fine steps from the last edge that either output made before the period to its start, at most 8,192: longer than any blanking (R256). -/
  tail : Nat
  deriving DecidableEq, Repr

/-- The PWM unit outside its registers (R406 to R430). Masks have one bit for each of the 72 pairs. -/
structure Pwm where
  /-- Source INIT is asserted, and the PWM section has been loaded since the reset (R420). -/
  initSrc : Bool
  loaded : Bool
  act : Tab PwmAct
  wave : Tab PwmWave
  /-- Boundaries of a pair since the last frame tick: the index k of its next period (R407). -/
  index : Tab Nat
  /-- Pairs whose counter has started (R31, R408, R428), and the base cycles that R111 has so far added to the present period of a pair
  of several frames. -/
  begun : Nat
  stretch : Tab Int
  /-- The start of a pair's present period, in base cycles after the present frame tick, and its length (R406 to R408). -/
  span : Tab (Option (Int × Int))
  /-- How a pair stood at the start of its present period, and whether it then started afresh (R407). -/
  before : Tab (Option (PwmWave × Bool))
  /-- STAGE_STOP, GRID_TRIP, STRING_TRIP and TICK_OVR as the owners assert them (R420). -/
  stageStop : Nat
  gridTrip : Nat
  stringTrip : Nat
  ovrTrip : Nat
  /-- Delay lines, of 144, whose last measurement failed (R411). -/
  calBad : Nat
  /-- The calibrated map of a delay line: for each of 32 equal steps of a base cycle the physical tap, 0 to 47; and a new map that waits for the
  line's next period boundary (R409, R410). -/
  map : Tab (List (Fin 48))
  newMap : Tab (Option (List (Fin 48)))
  /-- A line has been measured in this frame; frame ticks since the control PLL was declared locked, while the first round lasts (R410). -/
  calSeen : Bool
  calFrames : Nat
  deriving DecidableEq, Repr

/-- The gate-drive block outside its registers (R438 to R453). -/
structure Gate where
  tripLoaded : Bool
  /-- Pairs from which a valid word has been received since the reset, and pairs whose link is DOWN only because the clock
  was lost (R453). -/
  wordSeen : Nat
  quietDown : Nat
  /-- The inputs as they stand, whatever is reset: the filtered level of GD_EN, and the pairs whose GDFLT_N reads low (R456, R460). -/
  enHigh : Bool
  fltLow : Nat
  deriving DecidableEq, Repr

/-- A running window self-check (R263): the window under check, those that follow, and the mode; `load` marks the check
of R261, after which the passing windows' latches clear. -/
structure WinCheck where
  now : Nat
  rest : List Nat
  mode : Nat
  load : Bool
  deriving DecidableEq, Repr

/-- The window monitors outside their registers (R251 to R266). -/
structure Windows where
  check : Option WinCheck
  /-- Windows whose blanking mask is in force (R256). -/
  blanked : Nat
  /-- The level at WIN_IN_nn, and the levels at WTH_HI_g and WTH_LO_g, in microvolts, once one has been presented (R251). -/
  level : Tab (Option Nat)
  pins : Tab (Option (Nat × Nat))
  deriving DecidableEq, Repr

/-- The lockstep checker outside its registers (R463 to R479). -/
structure Lockstep where
  /-- Source LOCKSTEP is asserted on all pairs (R472, R473, R476, R478). -/
  trip : Bool
  /-- The core is held in reset (R472, R476). -/
  coreHeld : Bool
  /-- The signatures of the last comparison: leading and trailing of the core (0, 1) and of the engine (2, 3) (R485). -/
  sig : Tab Nat
  /-- Window lengths in force (R475). -/
  coreWin : Nat
  engWin : Nat
  /-- A window that a control tick, or a clock loss, has ended and that is still to be compared: its length in force (R468, R479). -/
  coreCut : Option Nat
  engCut : Option Nat
  /-- The automatic self-test after a reset is still to begin, and is the one that runs (R476). -/
  autoDue : Bool
  auto : Bool
  /-- Safety changes that the leading copy has produced and the checker has not released, oldest first (R470). -/
  changes : List (Nat × Word)
  /-- The lockstep core, and the loop engine, are halted by a debugger (R477). -/
  coreHalted : Bool
  engHalted : Bool
  deriving DecidableEq, Repr

/-- A filtered input level: the accepted level and how many scans in a row have shown the other one. -/
structure Filt where
  level : Bool
  run : Nat
  deriving DecidableEq, Repr

/-- A safety input outside its registers (R514 to R517). -/
structure SafeIn where
  a : Filt
  b : Filt
  /-- Frames for which the accepted levels have differed (R515). -/
  disc : Nat
  discFault : Bool
  /-- Test-pulse faults of channels A and B, by the source under which they failed (R517). -/
  tpA : Option Nat
  tpB : Option Nat
  /-- A cross-short to a source, to be confirmed at the next scan (R517). -/
  crossA : Option Nat
  crossB : Option Nat
  /-- FN48 of the last DEMAND entry logged (R514). -/
  demandAt : Option Nat
  deriving DecidableEq, Repr

/-- The safety block outside its registers (R512 to R528). -/
structure Safety where
  loaded : Bool
  inputs : Tab SafeIn
  /-- SAFE_ACK: its filter and its ball, whether its rise came inside the lockout, and the outputs
  whose WAIT_ACK was set before its rise (R523). -/
  ack : Filt
  /-- Frames since the accepted rise, and an accepted fall still to be judged. -/
  press : Nat
  ackFall : Bool
  pressInLock : Bool
  pressWait : Nat
  /-- Frames since the last image write (R513). -/
  sinceWrite : Nat
  /-- Per output: frames of read-back disagreement, and frames of agreement while a fault stands (R520). -/
  rbBad : Tab Nat
  rbGood : Tab Nat
  /-- Wrong presentations in a row, and the block on presentations (R526). -/
  pwWrong : Nat
  pwBlocked : Bool
  /-- Frames left of that block (R526). -/
  pwLeft : Nat
  /-- The frame in which a cause last arose, and the causes that arose in it (R523). -/
  arisen : Nat × Nat
  /-- Per output: the frame of its last off-pulse (R521). -/
  offAt : Tab (Option Nat)
  /-- The test-pulse source that pulsed in this frame (R516). -/
  pulsed : Option Nat
  /-- The output image last produced by the sequencer (R512). -/
  image : Nat
  deriving DecidableEq, Repr

/-- An entry waiting in a core's queue (R219, R226). -/
structure AdcQ where
  entry : Nat
  urgent : Bool
  aborted : Bool
  /-- Of a window: the occurrences of CLOSE_EV still to come, and t_close in fine steps after the present frame tick once it is known (R220). -/
  closes : Nat
  closeAt : Option Int
  deriving DecidableEq, Repr

/-- A sample instant near an injection (R231): its number from the present frame tick, its mux position, the ×1 code, and whether nothing but an
injection excludes it. -/
structure NearSample where
  k : Int
  mux : Nat
  code : Nat
  clean : Bool
  deriving DecidableEq, Repr

/-- An ADC core outside its registers (R217 to R233). -/
structure AdcCore where
  /-- The running entry. -/
  running : Option AdcQ
  queue : List AdcQ
  /-- The mux, gain and bandwidth of the preceding sample instant; none since power-up (R225). -/
  settings : Option (Nat × Nat × Nat)
  /-- Sample instants still to be excluded after a change (R225). -/
  exclude : Nat
  /-- Repeat runs (R233): for key 2e + k, entry e on the core (k = 0) or its slave (k = 1), the last raw code and its run. -/
  runs : Tab (Nat × Nat)
  /-- The cycle of this tick in which an entry has written a result (R281), and the stall check (R233): 1 and 2 = suspended at as many tick
  edges, 3 = made at the next edge and suspended at the one after it. -/
  wroteAt : Tab (Option Nat)
  stallOff : Nat
  /-- The next sample instant, counted from the present frame tick. -/
  next : Int
  /-- What the running entry has gathered: the sum, the valid and the excluded samples, and SRC (R223, R224, R230). -/
  sum : Nat
  n : Nat
  excl : Nat
  src : Bool
  /-- Triggers that have fallen due and are not yet taken, with their times in fine steps after the present frame tick (R218). -/
  due : List (AdcQ × Int)
  near : List NearSample
  deriving DecidableEq, Repr

/-- A loop slot outside its registers (R288, R289, R298). -/
structure LoopSlot where
  /-- r_prev, and whether it is still to be taken from the first valid feedback (R289). -/
  rPrev : Int
  rInit : Bool
  /-- A rearm waits for the next tick cycle (R298). -/
  rearm : Bool
  /-- The snapshots of R284: the set-point and the output at the end of the last tick. -/
  sp : Word
  prevOut : Word
  deriving DecidableEq, Repr

/-- The loop engine outside its registers (R276 to R307). -/
structure LoopEngine where
  slots : Tab LoopSlot
  /-- The two 40-bit states of each section. -/
  sec : Tab (Int × Int)
  /-- Banks 0 and 1: the word at each window offset (R300). -/
  bank0 : Tab Word
  bank1 : Tab Word
  /-- Reference ports as written, and their snapshot (R284). -/
  ports : Tab Word
  portSnap : Tab Word
  /-- Steps that have completed in this tick, slots that were stale in it, and operator instances whose outputs are OK. -/
  slotDone : Nat
  opDone : Nat
  slotStale : Nat
  opOk : Nat
  /-- Used cycles of each strand in this tick (R283). -/
  used : Tab Nat
  /-- Frames of grace left (R299). -/
  grace : Nat
  /-- Halted by an overrun with OVR_RESP = TRIP (R24). -/
  ovrHalt : Bool
  /-- The initiator that armed a swap: role and session (R195, R303). -/
  armedBy : Nat × Nat
  /-- The global tick count G of the tick in progress (R278); the engine has started and no tick has begun since (R299). -/
  tick : Nat
  fresh : Bool
  deriving DecidableEq, Repr

/-- A grid-sync unit outside its registers (R327 to R331). -/
structure GsUnit where
  /-- States of the two integrators in units of 2^-30, and w in units of 2^-30 rad/s; `started` once w is set. -/
  x1a : Int
  x2a : Int
  x1b : Int
  x2b : Int
  w : Int
  started : Bool
  /-- The angle source in force in this tick (R285, R329). -/
  angle : Nat
  /-- The unit has been updated in this tick (R22). -/
  done : Bool
  /-- Ticks for which the lock conditions have held, and the range of F in them (R331). -/
  lockTicks : Nat
  fMin : Nat
  fMax : Nat
  /-- FT_FREQ of the last frames, newest first (R330). -/
  hist : List Nat
  deriving DecidableEq, Repr

/-- A grid stage outside its registers (R333 to R347). Times are in control ticks unless stated. -/
structure Stage where
  /-- Time for which the connection conditions have held, whether RECONNECT_DELAY applies, time since CONNECT changed,
  time for which CONT_FB has been 1, time since the clear, time in RAMP, and time in STOPPING. -/
  delay : Nat
  reconnect : Bool
  conn : Nat
  fb : Nat
  clear : Nat
  ramp : Nat
  stop : Nat
  /-- STOPPING: the references when the stop began, and whether the pairs are stopped. -/
  stopRefs : List Int
  stopped : Bool
  /-- Timers of the low-voltage, high-voltage (ticks) and frequency points (frames) (R345). -/
  lv : Tab Nat
  hv : Tab Nat
  fr : Tab Nat
  /-- P_REF of R335, V1_PRE and iq_pre of R346, t_rt, VFAST of the last millisecond, the Q(V) filter, the last id+. -/
  pRef : Option Int
  v1Pre : Int
  iqPre : Int
  tRt : Nat
  vf : List Int
  qv : Int
  idLast : Int
  /-- P_SET, Q_SET, PF_SET, I_MAX and the Q(V) points as they stood in the tick cycle, by register (R334). -/
  snap : Tab Word
  deriving DecidableEq, Repr

/-- The sums of one frame of a tracker (R359): ticks, usable ticks, sums of v, i and p over these, and the fresh DC-link
values of the frame: how many, and how many above VDC_RES (R369). -/
structure TrkFrame where
  ticks : Nat
  n : Nat
  v : Int
  i : Int
  p : Int
  vdc : Nat
  vdcHigh : Nat
  deriving DecidableEq, Repr

/-- A scan in progress (R371): V_before, P_before, frames since its start, and the best frame so far: (power, voltage). -/
structure TrkScan where
  vBefore : Int
  pBefore : Int
  frame : Nat
  best : Option (Int × Int)
  deriving DecidableEq, Repr

/-- A tracker outside its registers (R358 to R372). -/
structure Tracker where
  /-- The frame in progress, and the complete frames, newest first. -/
  cur : TrkFrame
  frames : List TrkFrame
  vPrev : Int
  iPrev : Int
  pPrev : Int
  dir : Int
  /-- The next step only records (R366). -/
  record : Bool
  /-- At least half of the ticks of the last step window were usable (R363). -/
  windowOk : Bool
  /-- Frames for which the start conditions have held (R363), and frames since the first of the steps in a row with P_MEAN ≤ P_STOP
  (R364). -/
  delay : Nat
  dusk : Option Nat
  /-- Consecutive skipped steps (R367). -/
  skips : Nat
  /-- The latest fresh DC-link value (R363, R369). -/
  vdc : Option Int
  /-- A SCAN_NOW waits; the scan, and the step, of this frame tick have been dealt with (R361). -/
  scanReq : Bool
  scanSeen : Bool
  stepSeen : Bool
  scan : Option TrkScan
  /-- The slots' states are set to 0 in the next tick cycle (R363). -/
  slotInit : Bool
  deriving DecidableEq, Repr

/-- An anchor as a node sees it (R382 to R386). -/
structure Anchor where
  /-- Valid comparisons, newest first: FN and δ as a signed ANG32 number (R384). -/
  cmps : List (Nat × Int)
  /-- Whether d could be computed at the latest valid comparison and at the one before it (R385). -/
  dNow : Bool
  dBefore : Bool
  armed : Bool
  silent : Bool
  /-- Frame of the last cell's arrival, or of the start (R385). -/
  cellAt : Nat
  /-- FN and DTT of the copies used (R382). -/
  seen : List (Nat × Bool)
  /-- Flags of the latest cell (R396). -/
  brkOpen : Bool
  gridDead : Bool
  /-- Frame of the last CELL_STALE entry (R383). -/
  staleAt : Option Nat
  deriving DecidableEq, Repr

/-- An anchor cell that has arrived and waits for the frame tick: anchor, cell, its age, and the node's own angle at the cell's FN
where the unit was locked there (R382, R383). -/
structure CellIn where
  anchor : Nat
  cell : AncCell
  age : Nat
  own : Option Nat
  deriving DecidableEq, Repr

/-- The islanding block outside its registers (R378 to R397). -/
structure Island where
  cells : List CellIn
  anchors : Tab Anchor
  /-- FT_ANGLE, FT_FREQ and LOCKED of the PCC unit at the last frame ticks, newest first (R383, R393). -/
  hist : List (Nat × Nat × Bool)
  /-- Frames for which the ROCOF, AFD and release conditions have held (R392, R394, R396). -/
  rocof : Nat
  afd : Nat
  clear : Nat
  /-- Causes that applied at the last evaluation. -/
  causes : Nat
  /-- φ when ANCHOR was entered, and the frames left of its ramp to 0 (R394). -/
  phiFrom : Int
  phiLeft : Nat
  /-- Breaker cells still to be sent, one a frame (R381). -/
  brkLeft : Nat
  deriving DecidableEq, Repr

/-- A metering channel outside its registers (R487 to R495). -/
structure MeterChan where
  /-- P and Q of the last usable sample, and the filled samples in a row. -/
  last : Option (Int × Int)
  run : Nat
  /-- A sample of this tick has been formed. -/
  done : Bool
  /-- Accumulator values at the start of the interval, in whole units. -/
  start : Tab Int
  nsamp : Nat
  filled : Nat
  v1Sum : Nat
  fSum : Nat
  frames : Nat
  deriving DecidableEq, Repr

/-- A pulse input outside its registers (R497, R498): the last sampled level with its run, whether a level has been accepted, the
interval's start value and reasons. -/
structure PulseIn where
  raw : Bool
  run : Nat
  known : Bool
  start : Int
  inv : Nat
  deriving DecidableEq, Repr

/-- A pulse output outside its registers (R500, R501): the residue in units of 2^-32 of 10^-6 pulses, and the phase: high or low, with
the frames left. -/
structure PulseOut where
  residue : Int
  phase : Option (Bool × Nat)
  deriving DecidableEq, Repr


/-- The metering block outside its registers (R487 to R502). -/
structure Meter where
  chans : Tab MeterChan
  pins : Tab PulseIn
  outs : Tab PulseOut
  /-- Accumulators by ID in units of 2^-32 (R490, R503). -/
  acc : Tab Int
  /-- 64-bit and 48-bit values of records by the address of their LO word. -/
  wide : Tab Nat
  /-- A latch is due: reasons of the ending intervals and of the next ones (R493, R495). -/
  due : Option (Nat × Nat)
  /-- A write of INT_LEN waits for the frame tick; the role and session of the MTR_CMD that waits for it (R495). -/
  lenDue : Bool
  cmdBy : Nat × Nat
  /-- What the frame tick of a due latch brings to the next interval: by channel, FT_V1, FT_FREQ and reasons. -/
  next : Tab (Nat × Nat × Nat)
  /-- And the reasons that it brings to the next interval of every pulse input. -/
  nextPins : Nat
  /-- The frame at which ticks were lost, until they run again (R495). -/
  gap : Option Nat
  /-- A forward step has jumped over a boundary since the last frame tick (R495). -/
  stepDue : Bool
  /-- The copy of R496 has been looked for since the reset. -/
  restored : Bool
  deriving DecidableEq, Repr

/-- The insertion queue of a ring port group (R590): queued cells with their priority, planned cells, the slots used and the class-7 frames
received in this frame. -/
structure CellQ where
  queue : List (Nat × Cell)
  planned : List Cell
  slots : Nat
  rx : Nat
  deriving DecidableEq, Repr

/-- A command of R594 that has arrived and waits for the frame tick: opcode low byte, plot or first lane, and R. -/
structure PlotCmd where
  sop : Nat
  arg0 : Nat
  arg1 : Nat
  deriving DecidableEq, Repr

/-- The control class outside its registers (R586 to R591). -/
structure Ctl where
  groups : Tab CellQ
  /-- This node's cell count. -/
  hseq : Nat
  /-- H of each origin, the accepted (ORIGIN, FN, HSEQ), and (ORIGIN, HSEQ, frame) of the cells forwarded. -/
  high : Tab (Option Nat)
  seen : List (Nat × Nat × Nat)
  sent : List (Nat × Nat × Nat)
  /-- Frame of the last CELL_BAD entry of a group, and of the last CTRL_VOID entry. -/
  badAt : Tab (Option Nat)
  voidAt : Option Nat
  plotCmds : List PlotCmd
  /-- The commands of R594 that take effect at the frame tick of this frame. -/
  plotDue : List PlotCmd
  deriving DecidableEq, Repr

/-- A break of a ring (R548, R565): its span, flags, frames since its entry, frames for which both its groups have been UP, and whether an
NBR_ID at one of its ends has shown JOINING (R549). -/
structure Break where
  span : Nat
  planned : Bool
  drowse : Bool
  age : Nat
  up : Nat
  quick : Bool
  deriving DecidableEq, Repr

/-- A ring outside its registers (R548 to R556). -/
structure RingIns where
  /-- Frames in the present INS_STATE, frames of backoff left, and consecutive SELF_BYPASS. -/
  since : Nat
  backoff : Nat
  bypasses : Nat
  /-- The loop test has been passed; frames for which both groups have been aligned, and for which both have been down. -/
  passed : Bool
  up : Nat
  down : Nat
  /-- Target frames of a planned insertion and of a removal, and the frames since the hold request was withdrawn. -/
  planAt : Option Nat
  leaveAt : Option Nat
  breaks : List Break
  /-- Nodes whose LEAVE has been received (R546). -/
  left : List Nat
  deriving DecidableEq, Repr

/-- A ring port group outside its registers (R546, R555, R556). -/
structure GroupSt where
  /-- Frames left until a wrong neighbour is tried again. -/
  retry : Nat
  /-- The neighbour's last INS_STATE. -/
  nbrIns : Nat
  /-- A proposal that waits for its reply: Q, and the frames since it was sent. -/
  proposal : Option (Nat × Nat)
  /-- The agreed Q. -/
  quiesce : Option Nat
  /-- Frames since NBR_ID was last sent on the group (R546), and frames for which a drowse has been possible apart from the loads (R555). -/
  sent : Nat
  quiet : Nat
  deriving DecidableEq, Repr

/-- The rings outside their registers (R538 to R557). -/
structure Ring where
  forwarding : Bool
  ins : Tab RingIns
  groups : Tab GroupSt
  /-- SEQ of the flooded ring-management cells. -/
  seq : Nat
  /-- The next attempt takes the other ring first (R551). -/
  swapFirst : Bool
  /-- A reset that waits for the removal: its cause code and its frame (R553). -/
  reset : Option (Nat × Nat)
  /-- RING_BREAK and RING_HEAL cells that have arrived and wait for the frame tick (R548, R549), oldest first. -/
  arrived : List CellBody
  /-- Origin, SEQ and frame of the RING_BREAK and RING_HEAL cells seen within the last 64 frames (R545). -/
  floods : List (Nat × Nat × Nat)
  /-- Groups that went down since the last frame tick, with the span that each broke: the paths change at the frame tick (R548). -/
  fresh : List (Nat × Nat)
  deriving DecidableEq, Repr

/-- A frame held in the buffer (R544): its plot (none = management), cells, and the copies still to be sent. -/
structure Buf where
  plot : Option Nat
  cells : Nat
  copies : Nat
  deriving DecidableEq, Repr

/-- A queued copy of a frame. -/
structure QFrame where
  buf : Nat
  frame : Frame
  tag : Option RingTag
  deriving DecidableEq, Repr

/-- The egress side of a port (R581): its queue in order of arrival, the bytes it may still send in this frame, the management shaper's
tokens in bytes, each plot's deficit, and the plot served last. -/
structure PortQ where
  queue : List QFrame
  credit : Int
  mgmt : Int
  deficit : Tab Nat
  last : Nat
  deriving DecidableEq, Repr

/-- An entry of the forwarding table (R583): TYPE 0 = LOCAL, 1 = REMOTE, 2 = DROP; the frame of its last hit. -/
structure FdbEntry where
  static : Bool
  type : Nat
  node : Nat
  port : Nat
  hitAt : Nat
  deriving DecidableEq, Repr

/-- Plots, buffer and forwarding table outside their registers (R566 to R585). -/
structure Plots where
  bufs : Tab (Option Buf)
  nextBuf : Nat
  ports : Tab PortQ
  /-- Banks 0 and 1 by plot × 2^48 + MAC. -/
  bank0 : Tab (Option FdbEntry)
  bank1 : Tab (Option FdbEntry)
  /-- Tokens missing from the buckets: (Tc, Tp) of policer c of plot p at 8p + c, and the throttle's at 8p + 6 (R575, R576). -/
  missing : Tab (Nat × Nat)
  /-- The rate and burst words in force of a policer with a written word that waits for the frame tick, at 8p + c (R577). -/
  polHeld : Tab (Option (Word × Word))
  /-- F of the armed swap (R584). -/
  armedAt : Option Nat
  deriving DecidableEq, Repr

/-- A response on its way to its client (R606, R698). -/
structure Response where
  session : Nat
  opcode : Nat
  tag : Nat
  status : Nat
  final : Bool
  more : Bool
  seq : Nat
  data : List Byte
  mac : BitVec 256
  deriving DecidableEq, Repr

/-- A session outside CE_SESS_s (R607, R613 to R617). -/
structure Sess where
  seqIn : Nat
  seqOut : Nat
  key : BitVec 256
  snonce : List Byte
  /-- Frames since the last authentic command, or since SESSION_OPEN while half-open. -/
  idle : Nat
  /-- Frames in a row that were not authentic, and the frame of the last AUTH_FAIL entry. -/
  rejects : Nat
  rejectAt : Option Nat
  /-- Tenant commands taken from the bucket, in units of 1/50,000 command. -/
  spent : Nat
  /-- The first lane of the port the session came over (R616). -/
  port : Nat
  deriving DecidableEq, Repr

/-- A long operation outside CE_OP_k (R623 to R626). -/
structure LongOp where
  opcode : Nat
  tag : Nat
  session : Nat
  role : Nat
  /-- Image operations: slot, length, NEXT_OFS. -/
  slot : Nat
  length : Nat
  next : Nat
  /-- LOG_DUMP: log, position, entries left, entries skipped, first broken SEQ. -/
  log : Nat
  pos : Nat
  left : Nat
  skipped : Nat
  broken : Nat
  /-- SELF_TEST_FULL: parts to run and parts passed. -/
  parts : Nat
  pass : Nat
  /-- Image operations: bytes of a header that is not complete yet (R625). -/
  buf : List Byte
  /-- Frames since the last DATA, and since the suspension. -/
  idle : Nat
  held : Nat
  /-- Order of ending, for the reuse of the oldest (R624); 0 while not final. -/
  ended : Nat
  deriving DecidableEq, Repr

/-- A short-form command whose COMMAND_RESP is awaited (R629). -/
structure ShortWait where
  session : Nat
  tag : Nat
  opcode : Nat
  seq : Nat
  age : Nat
  deriving DecidableEq, Repr

/-- The command engine outside its registers (R605 to R629). -/
structure Engine where
  sess : Tab Sess
  ops : Tab (Option LongOp)
  endCount : Nat
  waits : List ShortWait
  /-- Credentials by role × 64 + plot, and CAKs by plot with their CKN (R615). -/
  creds : Tab (Option (BitVec 256))
  caks : Tab (Option (List Byte × BitVec 256))
  tagsAt : Option Nat
  shortAt : Tab (Option Nat)
  /-- Frames since the last session command (R75). -/
  quiet : Nat
  deriving DecidableEq, Repr

/-- A clocked serial port outside its registers (R630 to R634). -/
structure Csp where
  tx : List Word
  rx : List Word
  lens : List Nat
  responses : List Response
  /-- Bits of the master transfer in progress. -/
  busy : Option Nat
  deriving DecidableEq, Repr

/-- Bandwidth figures of one port and direction (R651): BYTES at the start of the window and of the sub-interval, and the lowest and
highest sub-interval in bytes. -/
structure BwPort where
  winAt : Nat
  subAt : Nat
  lo : Option Nat
  hi : Nat
  deriving DecidableEq, Repr

/-- A snapshot as its tick cycle has taken it (R653): its frame, whether the control die had no ticks, the 64-bit counters by the address of
their LO word, and LE_MAX_s and LE_OVR_s of the strands. -/
structure Held where
  frame : Nat
  part : Bool
  wide : Tab Nat
  le : List (Word × Word)
  deriving DecidableEq, Repr

/-- Performance counters outside their registers (R643 to R654). -/
structure Perf where
  /-- Counters with EN = 1. -/
  on : List Nat
  /-- CNT_LO words held until CNT_HI is written. -/
  loHeld : Tab (Option Word)
  /-- 64-bit values by the address of their LO word. -/
  wide : Tab Nat
  /-- Counters that have reached 2^48 since their bit was last looked at (R649). -/
  passed : List Nat
  /-- The frame of a scheduled snapshot, and the snapshot of this frame's tick cycle until its window shows it. -/
  snapAt : Option Nat
  held : Option Held
  bw : Tab BwPort
  /-- The bandwidth window in force in ms, and whether it runs from its own start (R651). -/
  win : Nat
  whole : Bool
  /-- The frame at whose tick a window ended, until its rates are latched. -/
  ended : Option Nat
  deriving DecidableEq, Repr

/-- Debug and test access outside its registers (R655 to R662): frames left of the unlock, the TAP's instruction, and the levels of REG_EN_nn that
a scan instruction holds (R60). -/
structure Debug where
  unlockLeft : Option Nat
  tap : Nat
  heldEn : Nat
  deriving DecidableEq, Repr

/-- Something the part sends to the outside. -/
inductive Out where
  | ptp (group : Nat) (args : List Nat)
  | coreIrq (source n : Nat)
  | fwIrq (source n : Nat)
  | cell (group : Nat) (c : Cell)
  | frame (port : Nat) (f : Frame) (tag : Option RingTag)
  | host (f : Frame)
  | response (transport : Nat) (r : Response)
  | alert (transport session : Nat)
  | serial (port bits : Nat) (words : List Word)
  | tap (word : Nat)
  | nor (opcode : Nat) (addr : Option Nat) (dummy data : Nat)
  deriving DecidableEq, Repr

/-- The machine: registers, hidden state of every block, and the commands that wait (R3 of spec/00_scope.md and the
chapters that each field's structure names). -/
structure State where
  /-- Commands that wait, oldest first. -/
  pending : List Instr
  /-- Commands executed so far. -/
  cycle : Nat
  /-- Every register of the register space by byte address; an unlisted one holds its reset word. -/
  regs : Tab Word
  /-- The answer of the last register access. -/
  bus : BusResp
  /-- What the part has sent to the outside, oldest first. -/
  out : List Out
  /-- Index of the next free value: a field of the model, not of the part. -/
  freeIx : Nat
  log : TroubleLog
  clog : ChangeLog
  otp : Otp
  flash : Flash
  img : Images
  time : Time
  pwr : Power
  lan : Lantern
  pwm : Pwm
  gate : Gate
  win : Windows
  ls : Lockstep
  safe : Safety
  adc : Tab AdcCore
  loop : LoopEngine
  units : Tab GsUnit
  stages : Tab Stage
  trks : Tab Tracker
  isl : Island
  meter : Meter
  ctl : Ctl
  ring : Ring
  plots : Plots
  eng : Engine
  csp : Tab Csp
  perf : Perf
  dbg : Debug
  deriving DecidableEq, Repr

/-- Why the machine stops. No command of this part stops it: the spec gives every row an effect. -/
inductive Fault where
  /-- Raised by nobody; kept because the interface asks for a type of faults. Safe: it is never answered. -/
  | none
  deriving DecidableEq, Repr

/-- Why a command has no meaning. -/
inductive Refusal where
  /-- Answered only by an arm of `exec` whose command has no meaning yet. Safe: the machine stops. -/
  | notModelled (mnemonic : String)
  deriving DecidableEq, Repr

/-! ### The machine after reset (assumption 1) -/

/-- A boot record that has never been written. -/
def BootRec.blank : BootRec := { valid := false, seq := 0, slotA := .empty, slotB := .empty, pending := none, commit := false }

/-- A safety input at rest. -/
def SafeIn.rest : SafeIn :=
  { a := ⟨false, 0⟩, b := ⟨false, 0⟩, disc := 0, discFault := false, tpA := none, tpB := none, crossA := none, crossB := none, demandAt := none }

/-- The hash that the first change-log entry links to (R195). -/
def firstLink : BitVec 128 :=
  (Config.sha384 ((List.range 4).map (fun i => BitVec.ofNat 8 (Config.devId.toNat / 256 ^ i)) ++ Config.dieSerials) >>> 256).setWidth 128

/-- The COLD_START entry of a Lantern that the external supply has started (R123). -/
def coldEntry : LogRec :=
  { entry := { source := 0, code := 1, datum := 0#32, fn16 := 0xFFFF, fnNone := true, unsynced := true, late := none, stamp := 0 },
    rtc := 0, rtcInvalid := true }

/-- The WAKE entry of the wake by WAKE_IN_N that follows the cold start; it waits to be written (R134). -/
def wakeEntry : LogEntry :=
  { source := 0, code := 0x0B, datum := 0x41#32, fn16 := 0xFFFF, fnNone := true, unsynced := true, late := none, stamp := 0 }

/-- The Lantern after a cold start on external supply whose wake has brought the main domain up (R123, R134). -/
def Lantern.start : Lantern :=
  { mode := .mainOn, rtc := 0, rtcFrac := 0, onRc := false, extSupply := true, harvest := false, boostOn := false, chgFault := false,
    tegOcv := 0, tegHold := 0, chgDone := false, chgUa := 0, period := 0, periodDue := 0, wakeLeft := none, wakeOut := true, wakeActive := 0, wakeFailed := false, lowFor := 0, lmonRun := [], lmonIn := 0, holdReq := 0, holdWait := 0,
    bypassed := 3, posBad := [], ctHbSeen := false, appAge := 0, rgLossRtc := none, appLossRtc := none, pair := none,
    coldSince := false, cellLowLogged := false, cellDorm := false, meterCopy := none }

/-- The machine right after the main-domain reset that follows a cold start of the Lantern on external supply, the reset just
released and the boot not begun (R123, R134, R169, R199). Where the spec gives no value the log's row 1 says what is taken. -/
def State.reset : State where
  pending := []
  cycle := 0
  regs := [(0x10, 0x00000100#32), (0x10800, 0x00000003#32), (0x20000, 0x00F00008#32), (0x30000, 0x00410100#32),
           (0x40100, 0x10000000#32), (0x40104, 0x08000000#32), (0x40108, 0x20000000#32), (0x4010C, 0x40000000#32)]
  bus := ⟨0#32, .done, .ok⟩
  out := []
  freeIx := 0
  log := { lanQ := [wakeEntry], ctrlQ := [], switchQ := [], ring := [coldEntry], once := [] }
  clog := { queue := [], reservedSeq := 0, writtenSeq := 0, headHash := firstLink }
  otp := { lifecycle := 0, keyHash := [], enrolled := 0, revoked := 0, secMin := 0, gridCode := 0, gridRemain := 16, role := 0, roleRemain := 8,
           spw := Config.shippedPassword, spwRemain := 32, tokenRemain := 64, programming := none }
  flash := { rec0 := BootRec.blank, rec1 := BootRec.blank, slotA := [], slotB := [], clog := [] }
  img := { phase := .released, active := [], shadow := [], unresolved := false, commitDue := false, rewriteDue := false, expHeld := [],
           nbrPend := [], nbrAt := [], activeFrames := 0, consent := none, alertLeft := 0, alerted := 0, announcedAt := none }
  time := { rt := 0, slew := 0, frameCycles := 8000, lastCycles := 8000, offsets := [], inBand := 0, stepPending := none, resume := none, nextTick := 0,
            loaded := false, lateRg := [], lateApp := [], pdelay := [], foreign := [], baseLost := false, pinLock := false }
  pwr := { change := none, pendingReq := none, wakeQ := [], wakeAge := [], drainQ := [], used := 0, seqUp := none, seqStep := 0,
           railsUp := false, regEn := 0, plan := [], offSet := 0, thenUp := false, ctSupply := false, biasDue := none, biasBusy := none,
           biasApp0 := Config.pSw, assistApp0 := .nom, app0Slow := false, startState := 0, bankPresent := 3, bank3v3 := 0,
           margin := [], coresOff := 0, vddaLost := false }
  lan := Lantern.start
  pwm := { initSrc := true, loaded := false, act := [], wave := [], index := [], begun := 0, stretch := [], span := [], before := [], stageStop := 0, gridTrip := 0, stringTrip := 0, ovrTrip := 0,
           calBad := 0, map := [], newMap := [], calSeen := false, calFrames := 0 }
  gate := { tripLoaded := false, wordSeen := 0, quietDown := 0, enHigh := false, fltLow := 0 }
  win := { check := none, blanked := 0, level := [], pins := [] }
  ls := { trip := true, coreHeld := true, sig := [], coreWin := 256, engWin := 256, coreCut := none, engCut := none, autoDue := true, auto := false,
          changes := [], coreHalted := false, engHalted := false }
  safe := { loaded := false, inputs := [], ack := ⟨false, 0⟩, press := 0, ackFall := false, pressInLock := false, pressWait := 0, sinceWrite := 0,
            rbBad := [], rbGood := [], pwWrong := 0, pwBlocked := false, pwLeft := 0, arisen := (0, 0), offAt := [], pulsed := none, image := 0 }
  adc := []
  loop := { slots := [], sec := [], bank0 := [], bank1 := [], ports := [], portSnap := [], slotDone := 0, opDone := 0, slotStale := 0, opOk := 0,
            used := [], grace := 0, ovrHalt := false, armedBy := (0, 0xFFFF), tick := 0, fresh := false }
  units := []
  stages := []
  trks := []
  isl := { cells := [], anchors := [], hist := [], rocof := 0, afd := 0, clear := 0, causes := 0, phiFrom := 0, phiLeft := 0, brkLeft := 0 }
  meter := { chans := [], pins := [], outs := [], acc := [], wide := [], due := none, lenDue := false, cmdBy := (0, 0xFFFF), next := [],
             nextPins := 0, gap := none, stepDue := false, restored := false }
  ctl := { groups := [], hseq := 0, high := [], seen := [], sent := [], badAt := [], voidAt := none, plotCmds := [], plotDue := [] }
  ring := { forwarding := false, ins := [], groups := [], seq := 0, swapFirst := false, reset := none, arrived := [], floods := [], fresh := [] }
  plots := { bufs := [], nextBuf := 0, ports := [], bank0 := [], bank1 := [], missing := [], polHeld := [], armedAt := none }
  eng := { sess := [], ops := [], endCount := 0, waits := [], creds := [(192, some Config.serviceCredential)], caks := [], tagsAt := none,
           shortAt := [], quiet := 0 }
  csp := []
  perf := { on := [], loHeld := [], wide := [], passed := [], snapAt := none, held := none, bw := [], win := 0, whole := false, ended := none }
  dbg := { unlockLeft := none, tap := 1, heldEn := 0 }

end Sys2Proof.Machine
end

