-- ==== Sys2Proof/Machine/Ops.lean ====
section
/-!
DEFINITION. Machine/Ops.lean: the named operations over the register file, the trouble log, the change log and the
outgoing traffic. Every register read and write of every meaning goes through `rd`, `wr` and their kin.
-/
namespace Sys2Proof.Machine

/-! ### Registers and fields -/

/-- The word a register holds; one nothing has written holds its reset word (R10). -/
def State.reg (s : State) (a : Nat) : Word := Tab.get (resetWord a) s.regs a

/-- A register with a new word. -/
def State.setReg (s : State) (a : Nat) (w : Word) : State := { s with regs := Tab.set (resetWord a) s.regs a w }

/-- The value of a field. -/
def State.rd (s : State) (f : FRef) : Nat := f.get (s.reg f.addr)

/-- A field with a new value; the other fields of its register keep theirs. -/
def State.wr (s : State) (f : FRef) (v : Nat) : State := s.setReg f.addr (f.put (s.reg f.addr) v)

/-- A one-bit field as a truth value. -/
def State.rdB (s : State) (f : FRef) : Bool := decide (s.rd f ≠ 0)

/-- A one-bit field written from a truth value. -/
def State.wrB (s : State) (f : FRef) (b : Bool) : State := s.wr f b.toNat

/-- Bit `i` of a field. -/
def State.bit (s : State) (f : FRef) (i : Nat) : Bool := (s.rd f).testBit i

/-- A number with one bit set or cleared. -/
def setBitOf (n i : Nat) (b : Bool) : Nat := if b then n ||| (1 <<< i) else n - (n &&& (1 <<< i))

/-- Bit `i` of a field written. -/
def State.wrBit (s : State) (f : FRef) (i : Nat) (b : Bool) : State := s.wr f (setBitOf (s.rd f) i b)

/-- A field read as a two's-complement number. -/
def State.rdI (s : State) (f : FRef) : Int :=
  if s.rd f < 2 ^ (f.width - 1) then (s.rd f : Int) else (s.rd f : Int) - 2 ^ f.width

/-- A two's-complement number as the bits of a word of `w` bits. -/
def ofInt (w : Nat) (v : Int) : Nat := (v % (2 ^ w : Int)).toNat

/-- A field written with a two's-complement number, modulo its range. -/
def State.wrI (s : State) (f : FRef) (v : Int) : State := s.wr f (ofInt f.width v)

/-- A counter field raised by `n`, saturating at all ones. -/
def State.incBy (s : State) (f : FRef) (n : Nat) : State := s.wr f (Nat.min (s.rd f + n) (2 ^ f.width - 1))

/-- A counter field raised by one, saturating at all ones. -/
def State.inc (s : State) (f : FRef) : State := s.incBy f 1

/-- Both halves of a 48-bit or 64-bit value held in a LO and a HI register. -/
def State.rd64 (s : State) (lo hi : FRef) : Nat := s.rd lo + 2 ^ 32 * s.rd hi

/-- A value written to a LO and a HI register. -/
def State.wr64 (s : State) (lo hi : FRef) (v : Nat) : State := (s.wr lo (v % 2 ^ 32)).wr hi (v / 2 ^ 32)

/-- Does something for each of a list of numbers in turn. -/
def forEach (l : List Nat) (f : Nat → State → State) (s : State) : State := l.foldl (fun t i => f i t) s

/-- Applies a change if a condition holds. -/
def when (b : Bool) (f : State → State) (s : State) : State := if b then f s else s

/-! ### The outcome of a meaning -/

/-- Every command takes one cycle of the model: its effect on the state whose cycle number it advances. -/
def run (f : State → State) (s : State) : Host.Outcome State Fault Refusal := .next (f { s with cycle := s.cycle + 1 })

/-- The next free value (a value the spec leaves open) and the state that has used it. -/
def State.free (s : State) : Nat × State := (Config.freeValue s.freeIx, { s with freeIx := s.freeIx + 1 })

/-- A field takes a free value. -/
def State.wrFree (s : State) (f : FRef) : State := (s.free.2).wr f s.free.1

/-! ### Frame numbers -/

/-- FN48 of the current frame (R15). -/
def State.fn (s : State) : Nat := s.time.rt / frameNs % fnModulus

/-- Ticks per frame (R29). -/
def ticksPerFrame (s : State) : Nat := 2 ^ s.rd Fld.SCHED_CFG_TICKS

/-- How far `a` is ahead of `b`, modulo 2^48 (R16). -/
def fnDiff (a b : Nat) : Nat := (a + fnModulus - b % fnModulus) % fnModulus

/-- Frame `a` is later than frame `b` (R16). -/
def fnLater (a b : Nat) : Bool := decide (1 ≤ fnDiff a b ∧ fnDiff a b < 2 ^ 47)

/-- Frame `a` has been reached at frame `b`. -/
def fnReached (a b : Nat) : Bool := !fnLater a b

/-- The main domain is on. -/
def State.mainOn (s : State) : Bool := s.lan.mode == .mainOn

/-- Ring time is not synchronised (R112). -/
def State.unsynced (s : State) : Bool := s.rdB Fld.TIME_SYNC_UNSYNCED

/-- UNSYNCED and its mirror in SCHED_STATUS (R30, R120). -/
def State.setUnsynced (s : State) (b : Bool) : State :=
  (s.wrB Fld.TIME_SYNC_UNSYNCED b).wrB Fld.SCHED_STATUS_UNSYNCED b

/-! ### The trouble log (R142 to R146) -/

/-- Which ingress queue a source reports through: 0 Lantern, 1 control die, 2 switch die (R143, R145). -/
def dieOf (source : Nat) : Nat := if source = 0 then 0 else if 0x10 ≤ source ∧ source ≤ 0x1A then 1 else 2

/-- A trouble-log entry made now. -/
def State.logEntry (s : State) (source code datum : Nat) (late : Option Nat) : LogEntry :=
  { source := source, code := code, datum := BitVec.ofNat 32 datum,
    fn16 := if s.mainOn then s.fn % 65536 else 0xFFFF, fnNone := !s.mainOn, unsynced := s.unsynced,
    late := late, stamp := s.cycle }

/-- An entry enters the ingress queue of its die, or is discarded and counted in DROPPED if that is full; with the main domain off only Lantern
entries arise (R145). -/
def State.enqueue (s : State) (e : LogEntry) : State :=
  if !s.mainOn && decide (dieOf e.source ≠ 0) then s else
  match dieOf e.source with
  | 0 => if s.log.lanQ.length < 8 then { s with log := { s.log with lanQ := s.log.lanQ ++ [e] } }
         else s.inc Fld.LOG_STATUS_DROPPED
  | 1 => if s.log.ctrlQ.length < 32 then { s with log := { s.log with ctrlQ := s.log.ctrlQ ++ [e] } }
         else s.inc Fld.LOG_STATUS_DROPPED
  | _ => if s.log.switchQ.length < 32 then { s with log := { s.log with switchQ := s.log.switchQ ++ [e] } }
         else s.inc Fld.LOG_STATUS_DROPPED

/-- Logs an event. -/
def State.logEv (s : State) (source code datum : Nat) : State := s.enqueue (s.logEntry source code datum none)

/-- Logs an event with the RTC time the Lantern recorded for it (R106). -/
def State.logLate (s : State) (source code datum rtc : Nat) : State := s.enqueue (s.logEntry source code datum (some rtc))

/-- Logs an event at most once per unit and frame. -/
def State.logOnce (s : State) (source code unit datum : Nat) : State :=
  if s.log.once.contains (source, code, unit) then s
  else { s.logEv source code datum with log := { (s.logEv source code datum).log with
           once := (source, code, unit) :: (s.logEv source code datum).log.once } }

/-! ### Byte strings -/

/-- The `n` little-endian bytes of a number. -/
def leBytes : Nat → Nat → List Byte
  | 0, _ => []
  | n + 1, v => BitVec.ofNat 8 v :: leBytes n (v / 256)

/-- The number a little-endian byte string holds. -/
def leNat : List Byte → Nat
  | [] => 0
  | b :: t => b.toNat + 256 * leNat t

/-- The `n` big-endian bytes of a number. -/
def beBytes (n v : Nat) : List Byte := (leBytes n v).reverse

/-- `n` bytes of a byte string from an offset; the erased flash beyond its end reads 0xFF (PRESUMED, assumption 7). -/
def bytesAt (l : List Byte) (ofs n : Nat) : List Byte := (l.drop ofs).take n ++ List.replicate (n - ((l.drop ofs).take n).length) 0xFF#8

/-- The little-endian number at an offset of a byte string. -/
def leAt (l : List Byte) (ofs n : Nat) : Nat := leNat (bytesAt l ofs n)

/-- The first 16 bytes of a SHA-384, byte 0 the most significant. -/
def first16 (h : BitVec 384) : BitVec 128 := (h >>> 256).setWidth 128

/-- A digest as 16 bytes, byte 0 first. -/
def digestBytes (d : BitVec 128) : List Byte := beBytes 16 d.toNat

/-- Word `w` of a digest: digest bytes 4w to 4w + 3 with byte 4w in bits 7:0 (R175). -/
def digestWord (d : BitVec 128) (w : Nat) : Nat := leAt (digestBytes d) (4 * w) 4

/-- The digest whose 16 bytes are given. -/
def digestOf (l : List Byte) : BitVec 128 := BitVec.ofNat 128 (leNat (l.reverse))

/-- The digest that four digest registers hold. -/
def digestOfWords (w0 w1 w2 w3 : Nat) : BitVec 128 := digestOf (leBytes 4 w0 ++ leBytes 4 w1 ++ leBytes 4 w2 ++ leBytes 4 w3)

/-! ### The change log (R194 to R197) -/

/-- The 64 bytes of a change-log entry (R195). -/
def clogBytes (e : ClogEntry) : List Byte :=
  leBytes 8 e.seq ++ leBytes 8 e.rt ++ leBytes 6 e.rtc
    ++ leBytes 1 (e.unsynced.toNat + 2 * e.rtcInvalid.toNat + 4 * e.wrap.toNat)
    ++ leBytes 1 e.role ++ leBytes 2 e.session ++ leBytes 2 e.kind ++ leBytes 4 e.subject
    ++ digestBytes e.new ++ digestBytes e.link

/-- The first 16 bytes of the SHA-384 of an entry: the LINK of the next. -/
def clogHash (e : ClogEntry) : BitVec 128 := first16 (Config.sha384 (clogBytes e))

/-- A number as a NEW field: zero-extended, little-endian (R195). -/
def newOf (v : Nat) : BitVec 128 := digestOf (leBytes 16 v)

/-- Places of the change queue that are taken: its entries, and the one kept for the counted setting that is being programmed, whose change takes
effect, with its entry, when that ends (R191, R196; DEDUCED, assumption 97). -/
def State.clogUsed (s : State) : Nat := s.clog.queue.length + (if s.otp.programming.isSome then 1 else 0)

/-- The change queue is full: a logged change must answer BUSY (R196). -/
def State.clogFull (s : State) : Bool := decide (64 ≤ s.clogUsed)

/-- Places a change-log entry in the queue and reserves its SEQ; no effect on a full queue (R196). Its LINK is
computed when it is written to the flash. -/
def State.clogPush (s : State) (role session kind subject : Nat) (new : BitVec 128) : State :=
  if s.clogFull then s else
  let seq := s.clog.reservedSeq + 1
  let e : ClogEntry :=
    { seq := seq, rt := s.time.rt, rtc := s.lan.rtc, unsynced := s.unsynced,
      rtcInvalid := !(s.rdB Fld.LAN_STATUS_RTC_VALID), wrap := false, role := role, session := session,
      kind := kind, subject := subject, new := new, link := 0#128 }
  { s with clog := { s.clog with queue := s.clog.queue ++ [e], reservedSeq := seq } }.wr Fld.CLOG_STATUS_QUEUED (s.clog.queue.length + 1)

/-! ### Initiators and roles -/

/-- The role code of an initiator (R195): 0 = lockstep core or firmware, else the session's role. -/
def State.roleOf (s : State) : Initiator → Nat
  | .core => 0
  | .fw => 0
  | .session i => s.rd (Fld.CE_SESS_ROLE i.val)

/-- The session index of an initiator, 0xFFFF for none (R195). -/
def sessOf : Initiator → Nat
  | .core => 0xFFFF
  | .fw => 0xFFFF
  | .session i => i.val

/-- The answer of a register access. -/
def State.answer (s : State) (v : Word) (k : BusKind) (st : Status) : State := { s with bus := ⟨v, k, st⟩ }

/-- An access that is done with a status. -/
def State.answerSt (s : State) (st : Status) : State := s.answer 0#32 .done st

/-! ### Outgoing traffic -/

/-- Something the part sends to the outside. -/
def State.send (s : State) (o : Out) : State := { s with out := s.out ++ [o] }

end Sys2Proof.Machine
end

