-- ==== Sys2Proof/Machine/Flags.lean ====
section
/-!
DEFINITION. Machine/Flags.lean: what counts and flags events for every block: the 64-bit counters and the events that the
selectable counters count (R643 to R649 of spec/21_counters_and_observation.md), and the W1C write (R6).
-/
namespace Sys2Proof.Machine

/-- W1C: writing 1 clears a bit (R6); every bit of the word is such a bit or reads 0. -/
def w1cWrite (a : Nat) (v : Word) (s : State) : State := s.setReg a (s.reg a &&& ~~~v)

/-- The 64-bit counter whose LO word lies at an address. -/
def State.wide (s : State) (a : Nat) : Nat := Tab.get 0 s.perf.wide a

/-- Stores a 64-bit counter. -/
def State.setWide (s : State) (a v : Nat) : State := { s with perf := { s.perf with wide := Tab.set 0 s.perf.wide a v } }

/-- Adds to a 64-bit counter, modulo 2^64 (R644). -/
def State.bump (s : State) (a n : Nat) : State := s.setWide a ((s.wide a + n) % 2 ^ 64)

/-- Selectable counter `c` counts `n` events (R647, R649): it wraps, and its passing 2^48 is kept for COUNTER_OVF. -/
def countSel (c n : Nat) (s : State) : State :=
  let a := Reg.PC_CNT_LO c
  let old := s.wide a
  let s := s.bump a n
  if old < 2 ^ 48 ∧ 2 ^ 48 ≤ old + n then { s with perf := { s.perf with passed := c :: s.perf.passed } } else s

/-- `n` events of a kind at a unit, for every selectable counter that is enabled and counts them, unless frozen (R647, R654). -/
def countEv (event unit n : Nat) (s : State) : State :=
  if s.perf.on.isEmpty || s.rdB Fld.PC_STATUS_FROZEN then s
  else forEach s.perf.on (fun c s =>
    if s.rd (Fld.PC_SEL_EVENT c) = event ∧ s.rd (Fld.PC_SEL_QUAL c) = unit then countSel c n s else s) s

/-- A read of a LO word shows it and latches its HI word in the same cycle (R643, R507). -/
def latchRead (lo hi v : Nat) (s : State) : State :=
  ((s.setReg lo (BitVec.ofNat 32 v)).setReg hi (BitVec.ofNat 32 (v / 2 ^ 32))).answer (BitVec.ofNat 32 v) .done .ok

end Sys2Proof.Machine
end

