-- ==== Sys2Proof/Machine/Trips.lean ====
section
/-!
DEFINITION. Machine/Trips.lean: what forces pairs and outputs safe: the trip lines (spec/08_window_monitors.md), the
gate-drive latches (spec/14_gate_drive_protection.md), the PWM trip latches (spec/13_pwm.md) and the safety lockout
(spec/17_safety_io.md). Every event that asserts or withdraws a source ends in `settleTrips`.
-/
namespace Sys2Proof.Machine

/-- The number with bit `i` set where `b` holds. -/
def bitIf (b : Bool) (i : Nat) : Nat := if b then 2 ^ i else 0

/-- The lowest bit set below 32. -/
def lowestBit (m : Nat) : Nat := ((List.range 32).find? (fun i => m.testBit i)).getD 0

/-- How many of the lowest `n` bits are set. -/
def popCount (n m : Nat) : Nat := ((List.range n).filter (fun i => m.testBit i)).length

/-- Bit `i` of a map that spreads over 32-bit words. -/
def State.mapBit (s : State) (f : Nat → FRef) (i : Nat) : Bool := s.bit (f (i / 32)) (i % 32)

/-- Writes bit `i` of a map that spreads over 32-bit words. -/
def State.wrMapBit (s : State) (f : Nat → FRef) (i : Nat) (b : Bool) : State := s.wrBit (f (i / 32)) (i % 32) b

/-- The 72 pairs. -/
def pairs : List Nat := List.range 72

/-! ### Trip lines (R257, R263) -/

/-- An enabled window `n` asserts its trip lines while a latch is set or it is under check; one with EN = 0 asserts nothing (R251). -/
def winAsserts (s : State) (n : Nat) : Bool :=
  s.rdB (Fld.WIN_CFG_EN n) && (s.bit Fld.WIN_LATCH_HI n || s.bit Fld.WIN_LATCH_LO n ||
    (match s.win.check with | some c => c.now == n | none => false))

/-- The trip lines asserted now. -/
def tripLines (s : State) : Nat :=
  (List.range 32).foldl (fun m n => if winAsserts s n then m ||| s.rd (Fld.WIN_ROUTE_TL_MASK n) else m) 0

/-! ### Gate-drive latches (R438, R445, R446) -/

/-- Pair `p` is watched: every pair until the TRIP section is loaded (R438). -/
def watched (s : State) (p : Nat) : Bool :=
  !s.gate.tripLoaded || (s.rdB (Fld.PWM_CFG_EN p) && (s.rdB (Fld.GDL_CFG_FLT_EN p) || s.rdB (Fld.GDL_CFG_STAT_EN p)))

/-- Causes 5 to 15 that the last valid word of a pair shows (R441, R445). -/
def wordCauses (flags : Nat) : Nat :=
  bitIf (!flags.testBit 10) 5 + (List.range 10).foldl (fun m j => m + bitIf (flags.testBit (9 - j)) (6 + j)) 0

/-- The causes of pair `p` that are asserted now (R445). `quiet` leaves out a link that is DOWN only after a clock loss. -/
def gateCauses (quiet : Bool) (s : State) (p : Nat) : Nat :=
  bitIf (!s.gate.tripLoaded) 0 + bitIf (!s.rdB Fld.GDL_EN_STATUS_GD_EN_LEVEL) 1
    + bitIf (!s.rdB Fld.GDL_EN_STATUS_BANK_OK) 2
    + bitIf (s.rdB (Fld.GDL_CFG_FLT_EN p) && s.rdB (Fld.GDL_STATUS_FLT_LIVE p)) 3
    + (if s.rdB (Fld.GDL_CFG_STAT_EN p) then
        bitIf (!s.rdB (Fld.GDL_STATUS_LINK_UP p) && !(quiet && s.gate.quietDown.testBit p)) 4
          + (if s.gate.wordSeen.testBit p then wordCauses (s.rd (Fld.GDL_STATUS_LAST_FLAGS p)) else 0)
       else 0)

/-- The latch of pair `p` rises (R446): FIRST_CAUSE, CAUSE, FAULTS, FAULT_EV and GD_FAULT; ENABLE and BANK are logged for
the whole block elsewhere. -/
def gateRise (p causes : Nat) (s : State) : State :=
  let c := lowestBit causes
  let s := ((s.wr (Fld.GDL_STATUS_LATCHED p) 1).wr (Fld.GDL_STATUS_FIRST_CAUSE p) c).wr (Fld.GDL_CAUSE_CAUSE p) causes
  let s := ((s.inc (Fld.GDL_COUNT_FAULTS p)).wr Fld.GDL_EVENTS_FAULT_EV 1).wrMapBit Fld.GDL_LATCHED p true
  if c = 1 ∨ c = 2 then s else s.logOnce 0x17 0x0001 p (p + c * 256)

/-- The gate-drive latch of pair `p` follows its causes (R445, R446). -/
def settleGatePair (p : Nat) (s : State) : State :=
  if !watched s p then s
  else if s.rdB (Fld.GDL_STATUS_LATCHED p) then
    s.wr (Fld.GDL_CAUSE_CAUSE p) (s.rd (Fld.GDL_CAUSE_CAUSE p) ||| gateCauses true s p)
  else if gateCauses true s p ≠ 0 then gateRise p (gateCauses true s p) s else s

/-- GD_ANY: a watched pair has its latch set (R452). -/
def gdAny (s : State) : Bool := pairs.any (fun p => watched s p && s.rdB (Fld.GDL_STATUS_LATCHED p))

/-- Every gate-drive latch follows its causes, and GD_ANY follows the latches. -/
def settleGate (s : State) : State :=
  let s := forEach pairs settleGatePair s
  s.wrB Fld.GDL_EN_STATUS_GD_ANY (gdAny s)

/-! ### PWM trips (R420 to R424) -/

/-- No pulse source is asserted in this cycle. -/
def noPulse : Nat → Nat := fun _ => 0

/-- The bank of a pair's balls (R48). -/
def pairBank (p : Nat) : Nat := if p < 36 then 2 else 3

/-- DECL_3V3 of banks 0 and 1 mirrors DET_3V3 (R56). -/
def declMirror (s : State) : State :=
  s.wr Fld.IO_BANK_STATUS_DECL_3V3 (s.rd Fld.IO_BANK_STATUS_DECL_3V3 / 4 * 4 + s.rd Fld.IO_BANK_STATUS_DET_3V3 % 4)

/-- The banks whose supplies, in mV, are above the present threshold (R52). -/
def banksPresent (mv : List Nat) : Nat := (List.range 8).foldl (fun m b => if 1400 < mv.getD b 0 then m + 2 ^ b else m) 0

/-- The banks whose supplies, in mV, make them 3.3 V banks (R52). -/
def banks3v3 (mv : List Nat) : Nat := (List.range 8).foldl (fun m b => if 2600 < mv.getD b 0 then m + 2 ^ b else m) 0

/-- A bank is below its present threshold or set in MISMATCH (R53, R54). -/
def bankBad (s : State) (b : Nat) : Bool := !s.bit Fld.IO_BANK_STATUS_PRESENT b || s.bit Fld.IO_BANK_STATUS_MISMATCH b

/-- Sources 16 to 30 of pair `p` that are asserted now as levels (R420). -/
def tripLevels (s : State) (p : Nat) : Nat :=
  bitIf (watched s p && s.rdB (Fld.GDL_STATUS_LATCHED p)) 16
    + bitIf (!s.rdB Fld.CLK_STATUS_CTRL_LOCK || s.rdB Fld.SCHED_STATUS_TICK_LOST || s.time.baseLost) 17
    + bitIf s.ls.trip 18
    + bitIf (s.ls.coreHalted || s.ls.engHalted) 19
    + bitIf (s.pwm.initSrc || !s.rdB (Fld.PWM_CFG_EN p)) 20
    + bitIf (!s.bit Fld.DOM_STATUS_ON 14) 21
    + bitIf (bankBad s (pairBank p) || bankBad s 4) 23
    + bitIf (s.rdB Fld.SCHED_STATUS_TICK_OVERRUN && s.pwm.ovrTrip.testBit p) 24
    + bitIf (s.pwm.stageStop.testBit p) 26
    + bitIf (s.pwm.gridTrip.testBit p) 27
    + bitIf (s.pwm.stringTrip.testBit p) 28
    + bitIf (s.mapBit Fld.PWM_FORCE p) 29
    + bitIf (s.rdB Fld.SAFE_STATUS_LOCKED && s.rdB (Fld.PWM_CFG_SAFE_EN p)) 30

/-- Every source of pair `p` asserted now: lines it names, levels, and the pulses of this cycle (R420, R423). -/
def tripLive (pulse : Nat) (s : State) (p : Nat) : Nat :=
  (s.rd Fld.TL_STATUS_TL &&& (s.rd (Fld.PWM_TRIP_CFG_TL_LATCH p) ||| s.rd (Fld.PWM_TRIP_CFG_TL_CYCLE p)))
    + (tripLevels s p ||| pulse)

/-- The sources of pair `p` that act by latching (R421). -/
def latchingMask (s : State) (p : Nat) : Nat := 0xFFFF0000 + s.rd (Fld.PWM_TRIP_CFG_TL_LATCH p)

/-- The lines of pair `p` that act cycle by cycle (R421). -/
def cycleMask (s : State) (p : Nat) : Nat :=
  s.rd (Fld.PWM_TRIP_CFG_TL_CYCLE p) - (s.rd (Fld.PWM_TRIP_CFG_TL_CYCLE p) &&& s.rd (Fld.PWM_TRIP_CFG_TL_LATCH p))

/-- Both outputs of pair `p` are driven low. -/
def outputsLow (p : Nat) (s : State) : State := (s.wr (Fld.PWM_STATUS_OUT_H p) 0).wr (Fld.PWM_STATUS_OUT_L p) 0

/-- The trip latch of pair `p` rises with the latching sources `src` (R423). -/
def pairTrip (p src : Nat) (s : State) : State :=
  let s := ((s.wr (Fld.PWM_STATUS_STATE p) 3).wr (Fld.PWM_TRIP_SRC p) src).wr (Fld.PWM_STATUS_FIRST_SRC p) (lowestBit src)
  let s := ((s.wr (Fld.PWM_STATUS_FIRST_VALID p) 1).wr (Fld.PWM_EVENTS_TRIP_EV p) 1).inc (Fld.PWM_COUNT_TRIPS p)
  countEv 0x085 p 1 ((outputsLow p s).wrMapBit Fld.PWM_TRIPPED p true)

/-- A cycle-by-cycle hold begins on pair `p` (R421). -/
def pairHold (p : Nat) (s : State) : State :=
  countEv 0x086 p 1 (outputsLow p (((s.wr (Fld.PWM_STATUS_STATE p) 2).wr (Fld.PWM_EVENTS_CYC_EV p) 1).inc (Fld.PWM_COUNT_CYC_HOLDS p)))

/-- A latching source of pair `p` is asserted, and its trip latch is not set (R421). -/
def pairRises (pulse : Nat) (s : State) (p : Nat) : Bool :=
  let st := s.rd (Fld.PWM_STATUS_STATE p)
  (st == 1 || st == 2 || st == 4) && decide (tripLive pulse s p &&& latchingMask s p ≠ 0)

/-- Pair `p` follows its sources: it trips, adds sources to TRIP_SRC, or enters a cycle hold. -/
def settlePair (pulse : Nat) (p : Nat) (s : State) : State :=
  let live := tripLive pulse s p
  let src := live &&& latchingMask s p
  let st := s.rd (Fld.PWM_STATUS_STATE p)
  if st = 3 then s.wr (Fld.PWM_TRIP_SRC p) (s.rd (Fld.PWM_TRIP_SRC p) ||| src)
  else if pairRises pulse s p then pairTrip p src s
  else if st = 1 ∧ live &&& cycleMask s p ≠ 0 then pairHold p s
  else s

/-- The pairs of a list whose first source is `k`. -/
def ofSource (k : Nat) (l : List (Nat × Nat)) : List Nat := (l.filter (fun e => e.2 == k)).map (·.1)

/-- Logs the trips of one source in one cycle: one PWM_TRIP, or one PWM_TRIP_MULTI for several pairs (R423, R431). -/
def logTrips (rising : List (Nat × Nat)) (k : Nat) (s : State) : State :=
  match (ofSource k rising).filter (fun p => !s.log.once.contains (0x16, 1, p)) with
  | [] => s
  | [p] => s.logOnce 0x16 0x0001 p (p + k * 256)
  | ps => forEach ps (fun p s => { s with log := { s.log with once := (0x16, 1, p) :: s.log.once } })
            (s.logEv 0x16 0x0002 (k * 256 + ps.length * 65536))

/-- Trip lines, gate-drive latches and every pair follow their sources; `pulse` gives each pair's pulse sources. -/
def settleTrips (pulse : Nat → Nat) (s : State) : State :=
  let s := settleGate (s.wr Fld.TL_STATUS_TL (tripLines s))
  let rising := (pairs.filter (fun p => pairRises (pulse p) s p)).map
    (fun p => (p, lowestBit (tripLive (pulse p) s p &&& latchingMask s p)))
  let s := forEach pairs (fun p s => settlePair (pulse p) p s) s
  forEach (List.range 32) (logTrips rising) s

/-! ### The safety lockout (R518, R519, R522) -/

/-- What makes each cause of R522 pending now, by bit number. -/
def causeConditions (s : State) : Nat :=
  bitIf (!s.safe.loaded) 0
    + bitIf (s.safe.inputs.any (fun e => e.2.discFault)) 3
    + bitIf (s.safe.inputs.any (fun e => e.2.tpA.isSome || e.2.tpB.isSome)) 4
    + bitIf (decide (s.rd Fld.SOUT_FAULT_RB_FAIL ≠ 0)) 5
    + bitIf (decide (s.rd Fld.SOUT_FAULT_OP_FAIL &&& s.rd Fld.SOUT_STATE_SRB ≠ 0)) 6
    + bitIf (s.ls.coreHeld || decide (s.rd Fld.LS_STATUS_CORE_STATE = 2)
        || (s.rdB Fld.LS_STATUS_LOCKSTEP_BROKEN && !s.rdB Fld.SAFE_STATUS_TEST_STAND)) 7
    + bitIf (!s.rdB Fld.CLK_STATUS_CTRL_LOCK) 8
    + bitIf (bankBad s 6 || bankBad s 7) 9
    + bitIf (!s.rdB Fld.SAFE_STATUS_SEQ_RUN) 10
    + bitIf (!s.rdB Fld.LS_STATUS_TEST_OK) 11

/-- The causes of R522 that are still pending: those that have arisen since the lockout began and whose condition still holds (DEDUCED from the
reset value of PENDING in R531, assumption 109). -/
def pendingCauses (s : State) : Nat := causeConditions s &&& s.rd Fld.SAFE_CAUSE_LATCHED

/-- PENDING follows the causes (R531). -/
def safetyPending (s : State) : State := s.wr Fld.SAFE_CAUSE_PENDING (pendingCauses s)

/-- Every output goes off; WAIT_ACK is set where ALLOW falls on an energised output with manual restart (R519). -/
def outputsOff (s : State) : State :=
  let manual := (List.range 16).foldl (fun m n =>
    if s.bit Fld.SOUT_STATE_ON n && s.rdB (Fld.SOUT_CFG_RESTART n) then m ||| 2 ^ n else m) 0
  ((s.wr Fld.SOUT_WAIT_WAIT_ACK (s.rd Fld.SOUT_WAIT_WAIT_ACK ||| manual)).wr Fld.SOUT_STATE_ON 0).wr Fld.SOUT_WAIT_ALLOW 0

/-- A debugger has halted the lockstep core in lifecycle DEVELOP with the safety I/O in test-stand mode: each SOUT_nn keeps its level (R59, R513). -/
def standHalt (s : State) : Bool := s.ls.coreHalted && s.otp.lifecycle == 1 && s.rdB Fld.SAFE_STATUS_TEST_STAND

/-- A lockout cause arises (R522): the entry into lockout, or a cause added to the latched ones. `unit` is the input or
output of the datum, with bit 7 for an output (R529). In a test-stand halt only the causes of the clock-free path and of the output stage move
the outputs; those of the halted core's release step wait for its resume (R59). -/
def enterLockout (cause unit : Nat) (s : State) : State :=
  let s := { s with safe := { s.safe with arisen := (s.fn, 2 ^ cause ||| (if s.safe.arisen.1 = s.fn then s.safe.arisen.2 else 0)) } }
  let s := if standHalt s && !([7, 8, 9, 10].contains cause) then s else outputsOff s
  let s := if s.rdB Fld.SAFE_STATUS_LOCKED then
      s.wr Fld.SAFE_CAUSE_LATCHED (s.rd Fld.SAFE_CAUSE_LATCHED ||| 2 ^ cause)
    else
      let s := ((s.wr Fld.SAFE_STATUS_LOCKED 1).wr Fld.SAFE_STATUS_FIRST_CAUSE cause).wr Fld.SAFE_CAUSE_LATCHED (2 ^ cause)
      ((s.wr Fld.SAFE_EVENTS_LOCK_EV 1).inc Fld.SAFE_COUNT_LOCKOUTS).logEv 0x1A 0x0001 (cause + unit * 256)
  settleTrips noPulse (safetyPending s)

end Sys2Proof.Machine
end

