-- ==== Sys2Proof/Machine/Access.lean ====
section
/-!
DEFINITION. Machine/Access.lean: when a register access is admitted at all (R41 to R43 of spec/01_architecture.md, R105
of spec/04_clocks_and_timebase.md, and each block's own sentence on who may write it).
-/
namespace Sys2Proof.Machine

/-- The power domain in which a block's registers lie (R68): the PWM and grid-sync blocks answer while CT_SUP is on. -/
def blockDomain (a : Nat) : Option Nat :=
  if 0x100000 ≤ a ∧ a < 0x120000 then some 15
  else if 0x120000 ≤ a ∧ a < 0x130000 then some 13
  else if 0x130000 ≤ a ∧ a < 0x138000 then some 15
  else if 0x140000 ≤ a ∧ a < 0x180000 then some 14
  else if 0x180000 ≤ a ∧ a < 0x190000 then some 13
  else if 0x190000 ≤ a ∧ a < 0x1A0000 then some 14
  else if 0x1A0000 ≤ a ∧ a < 0x230000 then some 13
  else if 0x400000 ≤ a ∧ a < 0x600000 then some 0
  else none

/-- The block lies on the control die. -/
def onControlDie (a : Nat) : Bool := decide (0x100000 ≤ a ∧ a < 0x400000)

/-- The block lies in the Ridgeline (R105). -/
def inRidgeline (a : Nat) : Bool := decide (0x400000 ≤ a ∧ a < 0x600000)

/-- The ADC core whose window an address lies in (R40). -/
def adcCoreOf (a : Nat) : Option Nat :=
  if 0x100000 ≤ a ∧ a < 0x120000 then some ((a - 0x100000) / 0x1000)
  else if 0x130000 ≤ a ∧ a < 0x138000 then some (32 + (a - 0x130000) / 0x1000)
  else none

/-- The address lies in an ADC core that is powered down (R234). -/
def coreDown (s : State) (a : Nat) : Bool := match adcCoreOf a with | some c => s.pwr.coresOff.testBit c | none => false

/-- APP0 is stalled: its bias is being changed (R79). -/
def app0Stalled (s : State) : Bool := s.pwr.biasBusy.isSome

/-- The firmware runs on APP0 alone, APP1 to APP3 being off, and APP0 is stalled (R79): it makes no access. -/
def fwStalled (s : State) (i : Initiator) : Bool :=
  match i with
  | .fw => app0Stalled s && !s.bit Fld.DOM_STATUS_ON 2 && !s.bit Fld.DOM_STATUS_ON 3 && !s.bit Fld.DOM_STATUS_ON 4
  | _ => false

/-- How an access to a block fails for want of its domain (R42) or of its clock (R105); none where it does not. -/
def accessFault (s : State) (a : Nat) : Option (BusKind × Status) :=
  if !s.mainOn then some (.domainOff, .stateConflict)
  else match blockDomain a with
    | none => none
    | some d =>
      if !s.bit Fld.DOM_STATUS_ON d || coreDown s a then some (.domainOff, .stateConflict)
      else if onControlDie a && !s.rdB Fld.CLK_STATUS_CTRL_LOCK then some (.busError, .failed)
      else if inRidgeline a && !s.rdB Fld.CLK_STATUS_RG_LOCK then some (.busError, .failed)
      else none

/-- The session has presented the safety password (R526). -/
def pwOk (s : State) (i : Initiator) : Bool :=
  match i with | .session k => s.rdB (Fld.CE_SESS_PW_OK k.val) | _ => false

/-- The address lies in the Safety I/O or the Lockstep checker block (R43). -/
def inSafetyBlock (a : Nat) : Bool :=
  decide (0x1F0000 ≤ a ∧ a < 0x200000) || decide (0x220000 ≤ a ∧ a < 0x230000)

/-- Who may write a safety block (R43): the lockstep core, and a SAFETY session that has presented the password. -/
def mayWriteSafety (s : State) (i : Initiator) : Bool :=
  match i with
  | .core => true
  | .fw => false
  | .session _ => s.roleOf i == 2 && pwOk s i

/-- The initiator is a session of one of the roles given. -/
def sessionOf (roles : List Nat) (s : State) (i : Initiator) : Bool :=
  match i with | .session _ => roles.contains (s.roleOf i) | _ => false

/-- The initiator is the lockstep core, the firmware, or a session of one of the roles given. -/
def coreFwOr (roles : List Nat) (s : State) (i : Initiator) : Bool :=
  match i with | .session _ => roles.contains (s.roleOf i) | _ => true

/-- The initiator is the lockstep core or a session of one of the roles given. -/
def coreOr (roles : List Nat) (s : State) (i : Initiator) : Bool :=
  match i with | .core => true | .fw => false | .session _ => roles.contains (s.roleOf i)

/-- The blocks whose chapter admits only the lockstep core, the firmware, OPERATOR and SERVICE as writers. -/
def operatorBlock (a : Nat) : Bool :=
  decide (0x140000 ≤ a ∧ a < 0x1B0000) || decide (0x1C0000 ≤ a ∧ a < 0x1E0000) || decide (0x200000 ≤ a ∧ a < 0x210000)

/-- The performance counters' block (R643). -/
def counterBlock (a : Nat) : Bool := decide (0x700000 ≤ a ∧ a < 0x780000)

/-- Whether an initiator may write an address at all, apart from locked fields: R301, R417, R643, R227, R562, R601 and the
like sentences of the other chapters. -/
def mayWrite (s : State) (i : Initiator) (a : Nat) : Bool :=
  if operatorBlock a then coreFwOr [1, 3] s i
  else if counterBlock a then (match i with | .core => false | .fw => true | .session _ => sessionOf [1, 3] s i)
  else if a = Reg.PQ_FDB_CTRL then (match i with | .core => false | .fw => true | .session _ => sessionOf [3] s i)
  else if a = Reg.RG_RING_CTRL then (match i with | .core => false | .fw => true | .session _ => sessionOf [1, 3] s i)
  else true

/-- Whether an initiator may read an address at all (R643; the plot limits of R617 stand with REG_READ). -/
def mayRead (s : State) (i : Initiator) (a : Nat) : Bool :=
  if counterBlock a then coreFwOr [1, 2, 3, 4] s i else true

/-- A read of a register that does `f` where the access is admitted (R42, R105); a stalled core makes none (R79). -/
def readAdmitted (i : Initiator) (a : Nat) (f : State → State) (s : State) : State :=
  if fwStalled s i then s
  else match accessFault s a with
  | some (k, st) => s.answer 0#32 k st
  | none => if mayRead s i a then f s else s.answerSt .denied

/-- A write of a register that does `f` where the access is admitted (R42, R43, R105): else it changes nothing, and a
write to a safety block by one who may not is logged as SAFETY_DENIED; a stalled core makes none (R79). -/
def writeAdmitted (i : Initiator) (a : Nat) (f : State → State) (s : State) : State :=
  if fwStalled s i then s
  else match accessFault s a with
  | some (k, st) => s.answer 0#32 k st
  | none =>
    if inSafetyBlock a && !mayWriteSafety s i then (s.logEv 0x01 0x0004 a).answerSt .denied
    else if !mayWrite s i a then s.answerSt .denied
    else f (s.answerSt .ok)

/-- A write that a locked field refuses (R8). -/
def refuseLocked (a : Nat) (s : State) : State := (s.logEv 0x01 0x0003 a).answerSt .denied

/-- A write of a register whose fields are unlocked for some roles: refused as a locked write for every other initiator. -/
def unlockedFor (roles : List Nat) (i : Initiator) (a : Nat) (f : State → State) (s : State) : State :=
  writeAdmitted i a (fun s => if sessionOf roles s i then f s else refuseLocked a s) s

/-- Clears a field and gives the value it had: the read of a read-clear field (R5, R6). -/
def readClear (f : FRef) (s : State) : State := (s.answer (BitVec.ofNat 32 (s.rd f)) .done .ok).wr f 0

end Sys2Proof.Machine
end

