-- ==== Sys2Proof/Machine/Window.lean ====
section
/-!
DEFINITION. Machine/Window.lean: the window monitors (spec/08_window_monitors.md): comparator latches, blanking, clears
and self-checks.
-/
namespace Sys2Proof.Machine

/-- Sets the latches of window `n` as asked (R257, R262): at each rise WIN_TRIP_EV, WIN_TRIP once per frame, and the
interrupt at the lockstep core. `chk` is bit 10 of the datum. -/
def winLatch (n : Nat) (hi lo chk : Bool) (s : State) : State :=
  let riseHi := hi && !s.bit Fld.WIN_LATCH_HI n
  let riseLo := lo && !s.bit Fld.WIN_LATCH_LO n
  if riseHi || riseLo then
    let s := when riseHi (fun s => s.wrBit Fld.WIN_LATCH_HI n true) s
    let s := when riseLo (fun s => s.wrBit Fld.WIN_LATCH_LO n true) s
    let s := s.wrBit Fld.WIN_TRIP_EV n true
    let s := s.logOnce 0x11 0x0001 n (n + bitIf riseHi 8 + bitIf riseLo 9 + bitIf chk 10)
    when (s.rdB (Fld.WIN_CFG_CT_NOTIFY n)) (fun s => s.send (.coreIrq 0x11 n)) s
  else s

/-- Window `n` is under check (R263). -/
def underCheck (s : State) (n : Nat) : Bool := match s.win.check with | some c => c.now == n | none => false

/-- The asserted comparators of window `n` act on its latches, outside a check and a blanking mask (R256, R257, R263). -/
def winAct (n : Nat) (s : State) : State :=
  if underCheck s n || s.win.blanked.testBit n then s
  else winLatch n (s.bit Fld.WIN_RAW_HI n) (s.bit Fld.WIN_RAW_LO n) false s

/-! ### Comparators and thresholds (R251 to R254) -/

/-- What a comparator of a window has for a threshold, in 1/1,024 of a microvolt (R251, R252): that of its DAC, code × 1.250 V / 1,024, or the
level of its pin. A pin outside 0.10 V to VDDA − 0.10 V, at the nominal 1.80 V, gives a level that the spec leaves open (R253): `open'`. -/
inductive Threshold where
  | at (v : Nat) | open' | absent
  deriving DecidableEq, Repr

/-- A threshold pin as a threshold. -/
def pinThreshold (uv : Nat) : Threshold := if 100000 ≤ uv ∧ uv ≤ 1700000 then .at (uv * 1024) else .open'

/-- The threshold of the HI comparator of window `n`. -/
def hiThreshold (s : State) (n : Nat) : Threshold :=
  if s.rdB (Fld.WIN_CFG_HI_SRC n) then .at (s.rd (Fld.WIN_DAC_DAC_HI n) * 1250000)
  else match Tab.get none s.win.pins (n / 4) with | some p => pinThreshold p.1 | none => .absent

/-- The threshold of the LO comparator of window `n`. -/
def loThreshold (s : State) (n : Nat) : Threshold :=
  if s.rdB (Fld.WIN_CFG_LO_SRC n) then .at (s.rd (Fld.WIN_DAC_DAC_LO n) * 1250000)
  else match Tab.get none s.win.pins (n / 4) with | some p => pinThreshold p.2 | none => .absent

/-- The hysteresis of window `n` (R254, R268), in 1/1,024 of a microvolt. -/
def hysteresis (s : State) (n : Nat) : Nat := [0, 4096000, 8192000, 16384000].getD (s.rd (Fld.WIN_CFG_HYST n)) 0

/-- The HI comparator asserts above its threshold, and releases below the threshold less the hysteresis (R251, R254). -/
def hiOutput (was : Bool) (v th hyst : Nat) : Bool := decide (th < v) || (was && decide (th ≤ v + hyst))

/-- The LO comparator asserts below its threshold, and releases above the threshold and the hysteresis (R251, R254). -/
def loOutput (was : Bool) (v th hyst : Nat) : Bool := decide (v < th) || (was && decide (v ≤ th + hyst))

/-- The output of an enabled comparator: `f` from its previous output, the level and the threshold; a free value where the spec specifies no
level, and its previous output, which is released, before any level has been presented (DESIGN CHOICE, assumption 73). -/
def compOut (f : Bool → Nat → Nat → Nat → Bool) (was : Bool) (v : Option Nat) (th : Threshold) (hyst : Nat) (s : State) : Bool × State :=
  match v, th with
  | some v, .at t => (f was (v * 1024) t hyst, s)
  | some _, .open' => (s.free.1.testBit 0, s.free.2)
  | _, _ => (was, s)

/-- The comparators of window `n` follow their signal and their thresholds (R251, R252, R254, R271); one that is not enabled never asserts. -/
def compEval (n : Nat) (s : State) : State :=
  let v := Tab.get none s.win.level n
  let hi := if s.rdB (Fld.WIN_CFG_EN n) && s.rdB (Fld.WIN_CFG_HI_EN n) then
      compOut hiOutput (s.bit Fld.WIN_RAW_HI n) v (hiThreshold s n) (hysteresis s n) s else (false, s)
  let s := hi.2.wrBit Fld.WIN_RAW_HI n hi.1
  let lo := if s.rdB (Fld.WIN_CFG_EN n) && s.rdB (Fld.WIN_CFG_LO_EN n) then
      compOut loOutput (s.bit Fld.WIN_RAW_LO n) v (loThreshold s n) (hysteresis s n) s else (false, s)
  lo.2.wrBit Fld.WIN_RAW_LO n lo.1

/-- The mask of window `n` when a register write comes, whose place in the period of the pair no operand gives: a free value where a mask may be
in force (R256; DESIGN CHOICE, assumption 102). -/
def maskFree (n : Nat) (s : State) : State :=
  if s.rd (Fld.WIN_CFG_BLANK n) ≠ 0 ∧ s.rdB Fld.CLK_STATUS_CTRL_LOCK = true then
    { s.free.2 with win := { s.free.2.win with blanked := setBitOf s.win.blanked n (s.free.1.testBit 0) } }
  else { s with win := { s.win with blanked := setBitOf s.win.blanked n false } }

/-- A comparator whose DAC code has been written follows it at once (R252). -/
def dacWritten (n : Nat) (s : State) : State := settleTrips noPulse (winAct n (compEval n (maskFree n s)))

/-- Every window follows what has been loaded. -/
def windowsFollow (s : State) : State := settleTrips noPulse (forEach (List.range 32) (fun n s => winAct n (compEval n s)) s)

/-! ### Blanking (R256) -/

/-- An output that has been low for long. -/
def lowOut : PwmOut := { level := false, since := 8192, last := 8192, rise := none }

/-- A pair at rest with both outputs low. -/
def lowWave : PwmWave := { ideal := false, high := lowOut, low := lowOut, edgesH := [], edgesL := [], tail := 8192 }

/-- An edge of PWMH or PWML of pair `p`, as the wave of its period makes it, came within `blank` fine steps before the instant `at'` of that
period. A pair that has tripped or is held makes none of the edges of its wave any more. -/
def edgeWithin (s : State) (p at' blank : Nat) : Bool :=
  let w := Tab.get lowWave s.pwm.wave p
  s.rd (Fld.PWM_STATUS_STATE p) == 1
    && (decide (at' + w.tail < blank) || (w.edgesH ++ w.edgesL).any (fun e => decide (e.1 ≤ at' ∧ at' < e.1 + blank)))

/-- The mask of window `n` is in force `at'` fine steps into the period of its pair, or for an edge of the pair that its wave does not show
(`forced`): one that a trip, a hold or a clear made, or one shortly before it (R256). -/
def masked (s : State) (n at' : Nat) (forced : Bool) : Bool :=
  let blank := s.rd (Fld.WIN_CFG_BLANK n)
  decide (blank ≠ 0) && s.rdB Fld.CLK_STATUS_CTRL_LOCK && (forced || edgeWithin s (s.rd (Fld.WIN_CFG_PAIR n)) at' (32 * blank))

/-- While the control PLL is not locked no mask applies: what is asserted acts at once (R256). -/
def masksLift (s : State) : State := forEach (List.range 32) winAct { s with win := { s.win with blanked := 0 } }

/-- WIN_TRIP (R251 to R257, R262): the signal of window `n` and the threshold pins of its group take levels in microvolts, `at'` fine steps into
the period of the window's pair; the four windows of the group follow. -/
def execWinTrip (n : Fin 32) (v hi lo at' : Nat) (forced : Bool) (s : State) : Host.Outcome State Fault Refusal :=
  run (fun s =>
    let s := { s with win := { s.win with level := Tab.set none s.win.level n.val (some v), pins := Tab.set none s.win.pins (n.val / 4) (some (hi, lo)),
                                          blanked := setBitOf s.win.blanked n.val (masked s n.val at' forced) } }
    settleTrips noPulse (forEach ((List.range 4).map (n.val / 4 * 4 + ·)) (fun k s => winAct k (compEval k s)) s)) s

/-- BLANK_END (R256). -/
def execBlankEnd (n : Fin 32) (s : State) : Host.Outcome State Fault Refusal :=
  run (fun s =>
    settleTrips noPulse (winAct n.val { s with win := { s.win with blanked := setBitOf s.win.blanked n.val false } })) s

/-- A software clear of window `n` (R258, R259, R266): refused while a comparator is asserted or its check has failed. -/
def winClear (n : Nat) (s : State) : State :=
  if s.rdB (Fld.WIN_CFG_CLR_MODE n) || underCheck s n then s
  else if s.bit Fld.WIN_RAW_HI n || s.bit Fld.WIN_RAW_LO n || s.bit Fld.WIN_CHK_FAIL n then
    (s.wrBit Fld.WIN_CLR_REF n true).logEv 0x11 0x0002 n
  else (s.wrBit Fld.WIN_LATCH_HI n false).wrBit Fld.WIN_LATCH_LO n false

/-- A write of WIN_CLR (R259, R272). -/
def winClrWrite (v : Word) (s : State) : State :=
  settleTrips noPulse (forEach (List.range 32) (fun n s => when (v.getLsbD n) (winClear n) s) s)

/-- WIN_CLR (R259, R272). -/
def execWinClr (i : Initiator) (v : Word) (s : State) : Host.Outcome State Fault Refusal :=
  run (writeAdmitted i Reg.WIN_CLR (winClrWrite v)) s

/-- A period boundary of pair `p` clears what CLR_MODE 1 leaves to it, where no comparator is asserted (R258 to R260). -/
def winPeriodClear (p : Nat) (s : State) : State :=
  forEach (List.range 32) (fun n s =>
    if s.rdB (Fld.WIN_CFG_CLR_MODE n) && decide (s.rd (Fld.WIN_CFG_PAIR n) = p) && !underCheck s n
        && !s.bit Fld.WIN_CHK_FAIL n then
      when (!s.bit Fld.WIN_RAW_LO n) (fun s => s.wrBit Fld.WIN_LATCH_LO n false)
        (when (!s.bit Fld.WIN_RAW_HI n) (fun s => s.wrBit Fld.WIN_LATCH_HI n false) s)
    else s) s

/-- Starts self-checks on a list of windows (R263); none on an empty list. -/
def startChecks (l : List Nat) (mode : Nat) (load : Bool) (s : State) : State :=
  match l with
  | [] => s
  | n :: rest => settleTrips noPulse
      ({ s with win := { s.win with check := some ⟨n, rest, mode, load⟩ } }.wr Fld.WIN_CHK_CTRL_BUSY 1)

/-- The enabled windows, ascending. -/
def enabledWindows (s : State) : List Nat := (List.range 32).filter (fun n => s.rdB (Fld.WIN_CFG_EN n))

/-- A write of WIN_CHK_CTRL (R263, R274). -/
def winChkWrite (v : Word) (s : State) : State :=
  let s := when (Fld.WIN_CHK_CTRL_CHK_REFUSED.get v = 1) (fun s => s.wr Fld.WIN_CHK_CTRL_CHK_REFUSED 0) s
  let s := when (Fld.WIN_CHK_CTRL_INCONCL.get v = 1) (fun s => s.wr Fld.WIN_CHK_CTRL_INCONCL 0) s
  let mode := Fld.WIN_CHK_CTRL_MODE.get v
  if Fld.WIN_CHK_CTRL_GO.get v = 0 ∨ mode = 0 then s
  else if s.win.check.isSome then
    ((s.wr Fld.WIN_CHK_CTRL_CHK_REFUSED 1).logEv 0x11 0x0005 (Fld.WIN_CHK_CTRL_WIN.get v)).answerSt .busy
  else startChecks (if Fld.WIN_CHK_CTRL_ALL.get v = 1 then enabledWindows s else [Fld.WIN_CHK_CTRL_WIN.get v]) mode false s

/-- A written word asks for a check (R274). -/
def checkAsked (v : Word) : Bool := Fld.WIN_CHK_CTRL_GO.get v == 1 && Fld.WIN_CHK_CTRL_MODE.get v != 0

/-- A write of WIN_CHK_CTRL by an initiator (R263, R274): the lockstep core, and sessions of role SAFETY or SERVICE, start checks; a word that
starts none only clears W1C bits. -/
def winChkFrom (i : Initiator) (v : Word) (s : State) : State :=
  if coreOr [2, 3] s i || !checkAsked v then winChkWrite v s else s.answerSt .denied

/-- WIN_CHK_START (R263): from the lockstep core or a session of role SAFETY or SERVICE. -/
def execWinChkStart (i : Initiator) (v : Word) (s : State) : Host.Outcome State Fault Refusal :=
  run (writeAdmitted i Reg.WIN_CHK_CTRL (winChkFrom i v)) s

/-- The known-level check passes for the enabled comparators of window `n` (R264). -/
def knownOk (s : State) (n : Nat) (m : WinSample) : Bool :=
  (!s.rdB (Fld.WIN_CFG_HI_EN n) || (!m.hi125 && m.hi1125)) && (!s.rdB (Fld.WIN_CFG_LO_EN n) || (m.lo125 && !m.lo1125))

/-- The swap check passes for the enabled comparators of window `n` (R265). -/
def swapOk (s : State) (n : Nat) (m : WinSample) : Bool :=
  (!s.rdB (Fld.WIN_CFG_HI_EN n) || (m.swapHi != m.steadyHi)) && (!s.rdB (Fld.WIN_CFG_LO_EN n) || (m.swapLo != m.steadyLo))

/-- One check of window `n` passes: its fail bit clears (R266). -/
def chkPass (n : Nat) (s : State) : State := s.wrBit Fld.WIN_CHK_FAIL n false

/-- One check of window `n` fails (R266): logged, its fail bit and both its latches are set. `kind` is 8 or 9 (R267). -/
def chkFail (n kind : Nat) (s : State) : State :=
  winLatch n true true true ((s.wrBit Fld.WIN_CHK_FAIL n true).logEv 0x11 0x0003 (n + 2 ^ kind))

/-- The result of the checks of one window (R264 to R266): known-level first. -/
def chkResult (n mode : Nat) (m : WinSample) (s : State) : State :=
  let s := if mode.testBit 0 then (if knownOk s n m then chkPass n s else chkFail n 8 s) else s
  if mode.testBit 1 then
    if m.changed then (s.wr Fld.WIN_CHK_CTRL_INCONCL 1).logEv 0x11 0x0004 n
    else if swapOk s n m then
      (if mode.testBit 0 && !knownOk s n m then s else chkPass n s)
    else chkFail n 9 s
  else s

/-- The end of a check (R263, R266, R261): the check of the window under check ends with the samples given; asserted comparators
act at once; in the check of R261 a window that passed with no comparator asserted has its latches cleared. -/
def winChkDone (m : WinSample) (s : State) : State :=
  match s.win.check with
    | none => s
    | some c =>
      let s := chkResult c.now c.mode m s
      let s := when (c.load && !s.bit Fld.WIN_CHK_FAIL c.now && !s.bit Fld.WIN_RAW_HI c.now && !s.bit Fld.WIN_RAW_LO c.now)
        (fun s => (s.wrBit Fld.WIN_LATCH_HI c.now false).wrBit Fld.WIN_LATCH_LO c.now false) s
      let s := match c.rest with
        | [] => { s with win := { s.win with check := none } }.wr Fld.WIN_CHK_CTRL_BUSY 0
        | n :: rest => { s with win := { s.win with check := some { c with now := n, rest := rest } } }
      settleTrips noPulse (winAct c.now s)

/-- The load of the TRIP section, and the reload after a control-domain reset (R261): the comparators follow it, latches of windows that are
not enabled clear, and every enabled window undergoes the known-level check. -/
def winLoad (s : State) : State :=
  let s := { s with win := { s.win with check := none } }.wr Fld.WIN_CHK_CTRL_BUSY 0
  let s := forEach (List.range 32) (fun n s => winAct n (compEval n s)) s
  let off := (List.range 32).filter (fun n => !s.rdB (Fld.WIN_CFG_EN n))
  let s := forEach off (fun n s => (s.wrBit Fld.WIN_LATCH_HI n false).wrBit Fld.WIN_LATCH_LO n false) s
  settleTrips noPulse (startChecks (enabledWindows s) 1 true s)

end Sys2Proof.Machine
end

