-- ==== Sys2Proof/Machine/Pwm.lean ====
section
/-!
DEFINITION. Machine/Pwm.lean: the high-resolution PWM (spec/13_pwm.md): period boundaries, the conversion of a duty to
edges with dead time, clears, forces and the delay-line calibration.
-/
namespace Sys2Proof.Machine

/-! ### Periods and edges (R407 to R414) -/

/-- Nominal length of period `k` of a frame divided into `n` (R407). -/
def dividedPeriod (n k : Nat) : Nat := (k + 1) * 8000 / n - k * 8000 / n

/-- Nominal length L, in base cycles, of the period of pair `p` that begins as its `k`-th of the frame (R407, R408). -/
def periodLen (s : State) (p k : Nat) : Nat :=
  if s.rdB (Fld.PWM_CFG_TLOCK p) then
    let m := s.rd (Fld.PWM_CFG_FACTOR p) + 1
    if s.rdB (Fld.PWM_CFG_DIVMODE p) then dividedPeriod m (k % m) else 8000 * m
  else Nat.max 400 (s.rd (Fld.PWM_PER_PER p))

/-- A 32-bit PU32 pattern as an integer in units of 2^-30 (R12). -/
def pu32 (v : Nat) : Int := if v % 2 ^ 32 < 2 ^ 31 then ((v % 2 ^ 32 : Nat) : Int) else ((v % 2 ^ 32 : Nat) : Int) - 2 ^ 32

/-- The on-time in fine steps of a duty (R412): the duty is limited to 0 to 1.0 and the product rounds under R13. -/
def onTime (duty len : Nat) : Nat :=
  let d := pu32 duty
  let c := if d < 0 then 0 else if (2 ^ 30 : Int) < d then 2 ^ 30 else d.toNat
  (2 * (c * len * 32) + 2 ^ 30) / 2 ^ 31

/-- The ideal signal of a period of `len` fine steps (R412): its level at the start, and its changes after it. -/
def idealSignal (align on len : Nat) : Bool × List (Nat × Bool) :=
  if on = 0 then (false, [])
  else if len ≤ on then (true, [])
  else if align = 1 then
    if (len - on) / 2 = 0 then (true, [(on, false)]) else (false, [((len - on) / 2, true), ((len - on) / 2 + on, false)])
  else if align = 2 then
    if on / 2 = 0 then (false, [(len - on, true)]) else (true, [(on / 2, false), (len - (on - on / 2), true)])
  else (true, [(on, false)])

/-- Dead-time insertion in progress: the edges so far, newest first, and the rises that are still delayed (R413). -/
structure DeadTime where
  edgesH : List (Nat × Bool)
  edgesL : List (Nat × Bool)
  riseH : Option Nat
  riseL : Option Nat
  deriving DecidableEq, Repr

/-- The delayed rises that have come due by step `t`. -/
def riseUntil (t : Nat) (d : DeadTime) : DeadTime :=
  let d := match d.riseH with
    | some r => if r ≤ t then { d with edgesH := (r, true) :: d.edgesH, riseH := none } else d
    | none => d
  match d.riseL with
    | some r => if r ≤ t then { d with edgesL := (r, true) :: d.edgesL, riseL := none } else d
    | none => d

/-- One change of the ideal signal: the output that was high falls at once and the other rises after its dead time. -/
def idealChange (dtRise dtFall : Nat) (d : DeadTime) (e : Nat × Bool) : DeadTime :=
  let d := riseUntil e.1 d
  if e.2 then { d with edgesL := (e.1, false) :: d.edgesL, riseL := none, riseH := some (e.1 + dtRise) }
  else { d with edgesH := (e.1, false) :: d.edgesH, riseH := none, riseL := some (e.1 + dtFall) }

/-- Removes edges that do not change the level. -/
def realEdges : Bool → List (Nat × Bool) → List (Nat × Bool)
  | _, [] => []
  | l, (t, b) :: r => if b = l then realEdges l r else (t, b) :: realEdges b r

/-- Drops every pulse shorter than 20 fine steps, with both its edges (R413); the edges are given oldest first. -/
def dropShort : List (Nat × Bool) → List (Nat × Bool)
  | [] => []
  | e :: r => match dropShort r with
    | [] => [e]
    | f :: q => if f.1 < e.1 + 20 then q else e :: f :: q

/-- On coarse edges every position is rounded down to a whole base cycle (R411). -/
def coarseEdges (coarse : Bool) (l : List (Nat × Bool)) : List (Nat × Bool) :=
  if coarse then l.map (fun e => (e.1 - e.1 % 32, e.2)) else l

/-- One output over a period: its level at the start, the edges that are sure to be made in it, how it stands at the end, and how long before
the start its last edge was made. -/
structure OutSpan where
  start : Bool
  edges : List (Nat × Bool)
  fin : PwmOut
  carried : Nat
  deriving DecidableEq, Repr

/-- What one output does in a period. A pulse that spans the boundary and is shorter than 20 steps is dropped too, with the edge of it that lies
in the period before; so an edge in the last 20 steps is decided in the next period (R413). -/
def outputPeriod (len : Nat) (o : PwmOut) (edges : List (Nat × Bool)) (rise : Option Nat) : OutSpan :=
  let l := dropShort (realEdges o.level edges)
  let spans := match l with | e :: _ => decide (e.1 + o.since < 20) | [] => false
  let start := if spans then !o.level else o.level
  let carried := if spans then o.last else o.since
  let l := if spans then l.drop 1 else l
  let fin : PwmOut := match l.reverse with
    | [] => { level := start, since := Nat.min 8192 (carried + len), last := Nat.min 8192 (o.last + len), rise := rise.map (· - len) }
    | [e] => { level := e.2, since := Nat.min 8192 (len - e.1), last := Nat.min 8192 (carried + len), rise := rise.map (· - len) }
    | e :: f :: _ => { level := e.2, since := Nat.min 8192 (len - e.1), last := Nat.min 8192 (len - f.1), rise := rise.map (· - len) }
  { start := start, edges := l.filter (fun e => decide (e.1 + 20 ≤ len)), fin := fin, carried := carried }

/-- The wave of one period (R412 to R414) of nominal length `nom` that ends after `len` fine steps: what falls in a removed cycle does not
occur (R407). `fresh` starts it as if both outputs had just been low for a full dead time. -/
def periodWave (align dtRise dtFall on nom len : Nat) (coarse lEn fresh : Bool) (w : PwmWave) : PwmWave × Bool × Bool :=
  let whole := idealSignal align on nom
  let ideal := (whole.1, whole.2.filter (fun e => decide (e.1 < len)))
  let d0 : DeadTime := if fresh then ⟨[], [], none, none⟩ else ⟨[], [], w.high.rise, w.low.rise⟩
  let first := if fresh || ideal.1 != w.ideal then [(0, ideal.1)] else []
  let d := (first ++ ideal.2).foldl (idealChange dtRise dtFall) d0
  let d := riseUntil (len - 1) d
  let lEdges := if lEn then d.edgesL.reverse else []
  let h := outputPeriod len (if fresh then lowOut else w.high) (coarseEdges coarse d.edgesH.reverse) d.riseH
  let l := outputPeriod len (if fresh then lowOut else w.low) (coarseEdges coarse lEdges) (if lEn then d.riseL else none)
  let fin := match ideal.2.getLast? with | some e => e.2 | none => ideal.1
  ({ ideal := fin, high := h.fin, low := l.fin, edgesH := h.edges, edgesL := l.edges, tail := Nat.min h.carried l.carried },
    (match h.edges with | (0, b) :: _ => b | _ => h.start), (match l.edges with | (0, b) :: _ => b | _ => l.start))

/-- The level of an output at step `t` of its period: that of its latest edge, or what it was. -/
def levelAt (edges : List (Nat × Bool)) (t : Int) (was : Bool) : Bool :=
  match (edges.filter (fun e => decide ((e.1 : Int) ≤ t))).getLast? with | some e => e.2 | none => was

/-- OUT_H and OUT_L of a running pair `p` at `t` base cycles after the frame tick (R435): a register access has no time of its own, so the levels
shown between period boundaries are those at the last control tick (DESIGN CHOICE, assumption 103). -/
def levelsShow (t : Int) (p : Nat) (s : State) : State :=
  match Tab.get none s.pwm.span p with
  | some (start, _) =>
    if s.rd (Fld.PWM_STATUS_STATE p) = 1 then
      let w := Tab.get lowWave s.pwm.wave p
      (s.wrB (Fld.PWM_STATUS_OUT_H p) (levelAt w.edgesH (32 * (t - start)) (s.rdB (Fld.PWM_STATUS_OUT_H p)))).wrB
        (Fld.PWM_STATUS_OUT_L p) (levelAt w.edgesL (32 * (t - start)) (s.rdB (Fld.PWM_STATUS_OUT_L p)))
    else s
  | none => s

/-- The values a pair runs on after a reload (R430). -/
def zeroAct : PwmAct := { duty := 0, per := 0, dtRise := 0, dtFall := 0, cmp := [0, 0, 0, 0] }

/-- The pending values of pair `p` (R416). -/
def pendingAct (s : State) (p : Nat) : PwmAct :=
  { duty := s.rd (Fld.PWM_DUTY p), per := s.rd (Fld.PWM_PER_PER p), dtRise := s.rd (Fld.PWM_DT_DT_RISE p),
    dtFall := s.rd (Fld.PWM_DT_DT_FALL p), cmp := (List.range 4).map (fun x => s.rd (Fld.PWM_CMP p x)) }

/-- PWM_HOLD is in force on pair `p` (R418). -/
def pairHeld (s : State) (p : Nat) : Bool := s.mapBit Fld.PWM_HOLD p && !s.rdB (Fld.PWM_CFG_SLOT_DRV p)

/-- A line of pair `p` failed its last measurement (R411). -/
def lineBad (s : State) (p : Nat) : Bool := s.pwm.calBad.testBit (2 * p) || s.pwm.calBad.testBit (2 * p + 1)

/-- At its boundary a pair goes to coarse edges, or back to fine ones, as its lines' last measurements say (R411). -/
def coarseBoundary (p : Nat) (s : State) : State :=
  let was := s.rdB (Fld.PWM_STATUS_CAL_COARSE p)
  if lineBad s p && !was then
    (s.wr (Fld.PWM_STATUS_CAL_COARSE p) 1).wr Fld.PWM_CAL_COARSE_N (s.rd Fld.PWM_CAL_COARSE_N + 1)
  else if !lineBad s p && was then
    ((s.wr (Fld.PWM_STATUS_CAL_COARSE p) 0).wr Fld.PWM_CAL_COARSE_N (s.rd Fld.PWM_CAL_COARSE_N - 1)).logOnce 0x16 0x0005 p p
  else s

/-- The state of a pair after its boundary (R421, R427): an ARMED pair, and one whose hold ends, run; a line still asserted
holds it. -/
def stateAfterBoundary (s : State) (p : Nat) : Nat :=
  let st := s.rd (Fld.PWM_STATUS_STATE p)
  let held := decide (tripLive 0 s p &&& cycleMask s p ≠ 0)
  if st = 4 ∨ st = 2 then (if held then 2 else 1) else st

/-- Base cycles that R111 adds to the frame in progress. -/
def frameExtra (s : State) : Int := (s.time.frameCycles : Int) - 8000

/-- Base cycles by which the period that begins as the `k`-th of this frame ends later than its nominal end (R111, R407): those of a period
that ends at the next frame tick. -/
def periodExtra (s : State) (p k : Nat) : Int :=
  let m := s.rd (Fld.PWM_CFG_FACTOR p) + 1
  if s.rdB (Fld.PWM_CFG_TLOCK p) && (if s.rdB (Fld.PWM_CFG_DIVMODE p) then k + 1 == m else m == 1) then frameExtra s else 0

/-- The wave of pair `p` from how it stood at the start of its period. -/
def pairWave (p len on : Nat) (extra : Int) (a : PwmAct) (b : PwmWave × Bool) (s : State) : PwmWave × Bool × Bool :=
  periodWave (s.rd (Fld.PWM_CFG_ALIGN p)) a.dtRise a.dtFall on (32 * len) (32 * ((len : Int) + extra).toNat)
    (s.rdB (Fld.PWM_STATUS_CAL_COARSE p)) (s.rdB (Fld.PWM_CFG_L_EN p)) b.2 b.1

/-- The outputs of a period that begins in state RUN, else both low. -/
def driveBoundary (p len on : Nat) (extra : Int) (a : PwmAct) (fresh : Bool) (s : State) : State :=
  if s.rd (Fld.PWM_STATUS_STATE p) = 1 then
    let b := (Tab.get lowWave s.pwm.wave p, fresh)
    let w := pairWave p len on extra a b s
    let s := { s with pwm := { s.pwm with wave := Tab.set lowWave s.pwm.wave p w.1, before := Tab.set none s.pwm.before p (some b) } }
    (s.wrB (Fld.PWM_STATUS_OUT_H p) w.2.1).wrB (Fld.PWM_STATUS_OUT_L p) w.2.2
  else outputsLow p { s with pwm := { s.pwm with wave := Tab.set lowWave s.pwm.wave p lowWave, before := Tab.set none s.pwm.before p none } }

/-- Where the period of pair `p` that begins as its `k`-th of the frame starts, in base cycles after the frame tick (R407, R408): a free-running
pair's counter starts PHASE cycles after its first frame tick, which stands as the end of a period of no length, and runs on. -/
def pairStart (s : State) (p k : Nat) : Int :=
  if s.rdB (Fld.PWM_CFG_TLOCK p) then
    (if s.rdB (Fld.PWM_CFG_DIVMODE p) then ((k * 8000 / (s.rd (Fld.PWM_CFG_FACTOR p) + 1) : Nat) : Int) else 0)
  else match Tab.get none s.pwm.span p with
    | some (a, l) => a + l
    | none => 0

/-- The new maps of the two delay lines of pair `p` are installed at its boundary (R410). -/
def mapsInstall (p : Nat) (s : State) : State :=
  forEach [2 * p, 2 * p + 1] (fun j s => match Tab.get none s.pwm.newMap j with
    | some m => { s with pwm := { s.pwm with map := Tab.set [] s.pwm.map j m, newMap := Tab.set none s.pwm.newMap j none } }
    | none => s) s

/-- The physical tap of line `j` that delays an edge at position `e` (R409): none before the line has a map. -/
def edgeTap (s : State) (j e : Nat) : Option (Fin 48) := (Tab.get [] s.pwm.map j)[e % 32]?

/-- A period boundary of pair `p`, the `k`-th of the frame (R406 to R427): windows clear, pending values become active, the duty becomes an
on-time, coarse edges are taken up or left, and an ARMED or held pair starts. -/
def periodBoundary (p k : Nat) (s : State) : State :=
  let s := settleTrips noPulse (winPeriodClear p s)
  let act := if pairHeld s p then Tab.get zeroAct s.pwm.act p else pendingAct s p
  let len := if s.rdB (Fld.PWM_CFG_TLOCK p) then periodLen s p k else Nat.max 400 act.per
  let on := onTime act.duty len
  let span := (pairStart s p k, (len : Int) + periodExtra s p k)
  let s := { s with pwm := { s.pwm with act := Tab.set zeroAct s.pwm.act p act, index := Tab.set 0 s.pwm.index p (k + 1),
                                        begun := setBitOf s.pwm.begun p true, stretch := Tab.set 0 s.pwm.stretch p (frameExtra s),
                                        span := Tab.set none s.pwm.span p (some span) } }
  let s := (s.wr (Fld.PWM_ACT_ON_ON p) on).wr (Fld.PWM_ACT_PER_LEN p) len
  let s := coarseBoundary p (mapsInstall p s)
  let st := s.rd (Fld.PWM_STATUS_STATE p)
  let st' := stateAfterBoundary s p
  let s := if st = 4 ∧ st' = 2 then pairHold p s else s.wr (Fld.PWM_STATUS_STATE p) st'
  let s := when (st == 4) (fun s => s.wrMapBit Fld.PWM_TRIPPED p false) s
  driveBoundary p len on (periodExtra s p k) act (st ≠ 1) s

/-- The counter of pair `p` runs (R406, R419, R428): no tick, no period once the clock has been lost, until ticks resume. -/
def counterRuns (s : State) (p : Nat) : Bool :=
  s.rdB (Fld.PWM_CFG_EN p) && s.bit Fld.DOM_STATUS_ON 14 && s.rdB Fld.CLK_STATUS_CTRL_LOCK && s.rdB Fld.SCHED_CFG_TICK_RUN && !s.time.baseLost

/-- Where in the frame a boundary of pair `p` falls now, if one may (R31, R407, R408). A period of a pair with a divisor n begins in the
control tick that holds its nominal start, the first one at a frame tick; one with a multiple m begins at a frame tick whose number is 0
modulo m; a free-running pair once its counter has started. -/
def boundaryIndex (s : State) (p : Nat) : Option Nat :=
  let m := s.rd (Fld.PWM_CFG_FACTOR p) + 1
  let k := Nat.max (Tab.get 0 s.pwm.index p) ((s.time.nextTick - 1) * m / ticksPerFrame s)
  if !s.rdB (Fld.PWM_CFG_TLOCK p) then
    (if s.pwm.begun.testBit p = true ∧ (Tab.get none s.pwm.span p).isSome = true
        ∧ pairStart s p 0 < Nat.max 1 (s.time.nextTick * 8000 / ticksPerFrame s) then some (Tab.get 0 s.pwm.index p)
     else none)
  else if s.rdB (Fld.PWM_CFG_DIVMODE p) then
    (if k < Nat.max 1 (s.time.nextTick * m / ticksPerFrame s) ∧ (k = 0 ∨ s.pwm.begun.testBit p = true) then some k else none)
  else if s.fn % m = 0 ∧ Tab.get 0 s.pwm.index p = 0 ∧ s.time.nextTick ≤ 1 then some 0
  else none

/-- In the last frame of a period of several frames the cycles that R111 has added or removed in them fall at its end (R407). -/
def stretchWave (p : Nat) (s : State) : State :=
  let span := (Tab.get none s.pwm.span p).map (fun x => (x.1, x.2 + Tab.get 0 s.pwm.stretch p))
  let s := { s with pwm := { s.pwm with span := Tab.set none s.pwm.span p span } }
  match Tab.get none s.pwm.before p with
  | some b =>
    if s.rd (Fld.PWM_STATUS_STATE p) = 1 then
      let w := pairWave p (s.rd (Fld.PWM_ACT_PER_LEN p)) (s.rd (Fld.PWM_ACT_ON_ON p)) (Tab.get 0 s.pwm.stretch p) (Tab.get zeroAct s.pwm.act p) b s
      { s with pwm := { s.pwm with wave := Tab.set lowWave s.pwm.wave p w.1 } }
    else s
  | none => s

/-- A frame tick for pair `p` (R111, R407, R408, R428): the counter of a free-running pair starts PHASE cycles after it, but not at the frame tick
at which ticks resume, and the period of a pair with a multiple takes the frame's cycles. -/
def pairFrame (p : Nat) (s : State) : State :=
  let m := s.rd (Fld.PWM_CFG_FACTOR p) + 1
  if !counterRuns s p then s
  else if !s.rdB (Fld.PWM_CFG_TLOCK p) then
    if s.pwm.begun.testBit p || s.time.resume == some 0 then s
    else { s with pwm := { s.pwm with begun := setBitOf s.pwm.begun p true,
                                      span := Tab.set none s.pwm.span p (some ((s.rd (Fld.PWM_PHASE_PHASE p) : Int), 0)) } }
  else if s.rdB (Fld.PWM_CFG_DIVMODE p) || s.fn % m == 0 then s
  else
    let s := { s with pwm := { s.pwm with stretch := Tab.set 0 s.pwm.stretch p (Tab.get 0 s.pwm.stretch p + frameExtra s) } }
    if s.fn % m + 1 = m then stretchWave p s else s

/-- The periods of all pairs, counted from a frame tick `d` cycles later than the one before. -/
def spansShift (d : Int) (t : Tab (Option (Int × Int))) : Tab (Option (Int × Int)) := t.map (fun e => (e.1, e.2.map (fun x => (x.1 - d, x.2))))

/-- The PWM at a frame tick. -/
def pwmFrame (s : State) : State := forEach pairs pairFrame s

/-! ### Trips, holds, clears and forces (R420 to R427) -/

/-- The pulse sources of an event on pair `p`: RAIL_FAULT (bit 22) and LOOP_STALE (bit 25) (R420). -/
def pulseOn (p : Nat) (railFault loopStale : Bool) : Nat → Nat :=
  fun q => if q = p then bitIf railFault 22 + bitIf loopStale 25 else 0

/-- PWM_TRIP (R423): pair `p` meets its latching sources, with the pulse sources asserted in this cycle. -/
def execPwmTrip (p : Fin 72) (railFault loopStale : Bool) (s : State) : Host.Outcome State Fault Refusal :=
  run (settleTrips (pulseOn p.val railFault loopStale)) s

/-- CYCLE_HOLD (R421): pair `p` meets its cycle-by-cycle lines. -/
def execCycleHold (p : Fin 72) (s : State) : Host.Outcome State Fault Refusal := run (settlePair 0 p.val) s

/-- What blocks a clear of pair `p` (R426). -/
def clearBlocks (s : State) (p : Nat) : Nat := tripLive 0 s p &&& latchingMask s p

/-- A clear request for pair `p` (R426): only a TRIPPED pair is concerned. -/
def pairClear (p : Nat) (s : State) : State :=
  if s.rd (Fld.PWM_STATUS_STATE p) ≠ 3 then s
  else if clearBlocks s p ≠ 0 then
    (s.wr (Fld.PWM_EVENTS_TRIP_CLR_REFUSED p) 1).logOnce 0x16 0x0003 p (p + lowestBit (clearBlocks s p) * 256)
  else (s.wr (Fld.PWM_TRIP_SRC p) 0).wr (Fld.PWM_STATUS_STATE p) 4

/-- The pairs that word `w` of a pair map names with a value. -/
def pairsIn (w : Nat) (v : Word) : List Nat := pairs.filter (fun p => p / 32 == w && v.getLsbD (p % 32))

/-- PWM_CLR (R426, R436): clear requests for the pairs of word `w`. -/
def execPwmClr (i : Initiator) (w : Fin 3) (v : Word) (s : State) : Host.Outcome State Fault Refusal :=
  run (fun s => writeAdmitted i (Reg.PWM_CLR w.val) (forEach (pairsIn w.val v) pairClear) s) s

/-- A pair map holds 72 bits: word 2 has 8 of them (R436). -/
def mapWord (w : Nat) (v : Word) : Word := if w = 2 then v &&& 0xFF#32 else v

/-- A write of PWM_FORCE word `w` (R420, R436). -/
def pwmForceWrite (w : Nat) (v : Word) (s : State) : State := settleTrips noPulse (s.setReg (Reg.PWM_FORCE w) (mapWord w v))

/-- PWM_FORCE (R420, R436). -/
def execPwmForce (i : Initiator) (w : Fin 3) (v : Word) (s : State) : Host.Outcome State Fault Refusal :=
  run (writeAdmitted i (Reg.PWM_FORCE w.val) (pwmForceWrite w.val v)) s

/-! ### Calibration (R409 to R411) -/

/-- Delay line `j` is measured (R410, R411): its new map waits for the line's next period boundary; one whose taps cannot span a base cycle gives
none and fails. -/
def lineMeasured (j : Nat) (m : Option (List (Fin 48))) (s : State) : State :=
  let s := { s with pwm := { s.pwm with calBad := setBitOf s.pwm.calBad j m.isNone,
                                        newMap := if m.isSome then Tab.set none s.pwm.newMap j m else s.pwm.newMap } }
  if m.isSome then s
  else (s.wr (Fld.PWM_EVENTS_CAL_EV (j / 2)) 1).logOnce 0x16 0x0004 (j / 2) (j / 2 + 2 ^ (8 + j % 2))

/-- LINE_CALIBRATION (R410): in the steady round the line of this frame, FN48 modulo 144, is measured, once in the frame; `m` is its map. -/
def execLineCalibration (m : Option (List (Fin 48))) (s : State) : Host.Outcome State Fault Refusal :=
  run (fun s => if s.rdB Fld.CLK_STATUS_CTRL_LOCK && s.rdB Fld.PWM_CAL_CAL_DONE && !s.pwm.calSeen then
      lineMeasured (s.fn % 144) m { s with pwm := { s.pwm with calSeen := true } }
    else s) s

/-- The calibrator at a frame tick (R410): a line may be measured in the new frame, and the first round, of 144 lines at 4 us, goes on. -/
def calFrame (s : State) : State :=
  { s with pwm := { s.pwm with calSeen := false,
                               calFrames := if s.rdB Fld.CLK_STATUS_CTRL_LOCK then Nat.min 29 (s.pwm.calFrames + 1) else 0 } }

/-- Source INIT ends once the PWM section is loaded and CAL_DONE is 1 (R420). -/
def initEnds (s : State) : State :=
  if s.pwm.loaded && s.rdB Fld.PWM_CAL_CAL_DONE then { s with pwm := { s.pwm with initSrc := false } } else s

/-- CAL_DONE (R410): at the first frame tick after the first round, which takes 144 x 4 us after the lock and so reaches into the 29th frame;
`maps` are the maps of the lines in ascending order, none for one that failed. -/
def execCalDone (maps : List (Option (List (Fin 48)))) (s : State) : Host.Outcome State Fault Refusal :=
  run (fun s => if s.rdB Fld.CLK_STATUS_CTRL_LOCK && !s.rdB Fld.PWM_CAL_CAL_DONE && decide (29 ≤ s.pwm.calFrames) then
      let s := forEach (List.range 144) (fun j s => lineMeasured j (maps.getD j none) s) s
      settleTrips noPulse (initEnds (s.wr Fld.PWM_CAL_CAL_DONE 1))
    else s) s

/-- Every counter has stopped (R419, R428): no period is in progress. -/
def countersStop (s : State) : State := { s with pwm := { s.pwm with begun := 0, span := [], before := [] } }

/-! ### Resets (R430) -/

/-- The PWM section has been loaded: STATE of each pair, its active values, and source INIT (R420, R430, R435). -/
def pwmLoaded (s : State) : State :=
  let s := { countersStop s with pwm := { (countersStop s).pwm with loaded := true } }
  let s := forEach pairs (fun p s =>
    let s := { s with pwm := { s.pwm with act := Tab.set zeroAct s.pwm.act p (pendingAct s p),
                                          wave := Tab.set lowWave s.pwm.wave p lowWave } }
    if s.rdB (Fld.PWM_CFG_EN p) then s
    else (s.wr (Fld.PWM_STATUS_STATE p) 0).wrMapBit Fld.PWM_TRIPPED p false) s
  settleTrips noPulse (initEnds s)

/-- CT_CONV is powered up (R430): every pair starts TRIPPED with PWR_STATE. -/
def pwmPowerUp (s : State) : State :=
  let s := countersStop s
  forEach pairs (fun p s =>
    if s.rdB (Fld.PWM_CFG_EN p) then
      let s := ((s.wr (Fld.PWM_STATUS_STATE p) 3).wr (Fld.PWM_TRIP_SRC p) (2 ^ 21)).wr (Fld.PWM_STATUS_FIRST_VALID p) 0
      (outputsLow p (s.wr (Fld.PWM_STATUS_FIRST_SRC p) 0)).wrMapBit Fld.PWM_TRIPPED p true
    else s) s

end Sys2Proof.Machine
end

