-- ==== Sys2Proof/Machine/Gate.lean ====
section
/-!
DEFINITION. Machine/Gate.lean: gate-drive links and power-stage protection (spec/14_gate_drive_protection.md): the fast
fault input, the status link, GD_EN and its clearing edge.
-/
namespace Sys2Proof.Machine

/-- GD_FLT (R439): the filtered level of GDFLT_N of pair `p`; a low sets the latch with cause FLT. -/
def execGdFlt (p : Fin 72) (low : Bool) (s : State) : Host.Outcome State Fault Refusal :=
  run (fun s =>
    let s := { s with gate := { s.gate with fltLow := setBitOf s.gate.fltLow p.val low } }
    settleTrips noPulse (s.wrB (Fld.GDL_STATUS_FLT_LIVE p.val) low)) s

/-- One bit of the CRC-4 with polynomial x^4 + x + 1 (R441). -/
def crc4Step (c : Nat) (b : Bool) : Nat :=
  let t := (c * 2) % 16
  if b == c.testBit 3 then t else t ^^^ 3

/-- The CRC-4 over bits 23:4 of a status word, most significant first. -/
def crc4 (w : BitVec 24) : Nat := (List.range 20).foldl (fun c i => crc4Step c (w.getLsbD (23 - i))) 0

/-- A status word is valid (R442): its line code, its CRC, and a SEQ that differs from that of the last valid word. -/
def wordValid (s : State) (p : Nat) (w : BitVec 24) (codeOk : Bool) : Bool :=
  codeOk && crc4 w == w.toNat % 16
    && (!s.gate.wordSeen.testBit p || decide (w.toNat / 2 ^ 20 ≠ s.rd (Fld.GDL_STATUS_LAST_SEQ p)))

/-- A valid word renews the link of pair `p` and its flags act (R442, R444, R445). -/
def validWord (p : Nat) (w : BitVec 24) (s : State) : State :=
  let s := (s.wr (Fld.GDL_STATUS_LAST_SEQ p) (w.toNat / 2 ^ 20)).wr (Fld.GDL_STATUS_LAST_FLAGS p) (w.toNat / 2 ^ 9)
  let s := { s with gate := { s.gate with wordSeen := setBitOf s.gate.wordSeen p true,
                                          quietDown := setBitOf s.gate.quietDown p false } }
  let s := if s.rdB (Fld.GDL_STATUS_LINK_UP p) then s
    else (s.wr (Fld.GDL_STATUS_LINK_UP p) 1).logEv 0x17 0x0008 p
  settleTrips noPulse s

/-- STATUS_WORD_RX (R442): a word ends on GDSTAT of pair `p`; `codeOk` says its sync and every bit cell were good. The link of a pair that the
image does not use is ignored (R51). -/
def execStatusWordRx (p : Fin 72) (w : BitVec 24) (codeOk : Bool) (s : State) : Host.Outcome State Fault Refusal :=
  run (fun s =>
    if watched s p.val && s.rdB (Fld.GDL_CFG_STAT_EN p.val) && s.rdB Fld.CLK_STATUS_CTRL_LOCK then
      if wordValid s p.val w codeOk then validWord p.val w s else countEv 0x087 p.val 1 (s.inc (Fld.GDL_COUNT_BAD_WORDS p.val))
    else s) s

/-- STAT_TO of pair `p` as it acts, in microseconds (R455). -/
def linkTimeout (s : State) (p : Nat) : Nat := Nat.max 5 (s.rd (Fld.GDL_CFG_STAT_TO p))

/-- LINK_LOST (R444): `ns` nanoseconds, STAT_TO or more, have passed without a valid word on a link that is watched (R51). -/
def execLinkLost (p : Fin 72) (ns : Nat) (s : State) : Host.Outcome State Fault Refusal :=
  run (fun s =>
    if watched s p.val && s.rdB (Fld.GDL_CFG_STAT_EN p.val) && s.rdB (Fld.GDL_STATUS_LINK_UP p.val) && s.rdB Fld.CLK_STATUS_CTRL_LOCK
        && decide (1000 * linkTimeout s p.val ≤ ns) then
      let s := (s.wr (Fld.GDL_STATUS_LINK_UP p.val) 0).inc (Fld.GDL_COUNT_LINK_LOSSES p.val)
      settleTrips noPulse ((s.wr Fld.GDL_EVENTS_LINK_EV 1).logEv 0x17 0x0007 p.val)
    else s) s

/-- GD_EN_LOW (R448): GD_EN has been low for 2 us or more. -/
def execGdEnLow (s : State) : Host.Outcome State Fault Refusal :=
  run (fun s =>
    let s := when (s.rdB Fld.GDL_EN_STATUS_GD_EN_LEVEL) (fun s => s.logEv 0x17 0x0005 0) s
    settleTrips noPulse ({ s with gate := { s.gate with enHigh := false } }.wr Fld.GDL_EN_STATUS_GD_EN_LEVEL 0)) s

/-- The watched pairs whose latch is set. -/
def latchedPairs (s : State) : List Nat := pairs.filter (fun p => watched s p && s.rdB (Fld.GDL_STATUS_LATCHED p))

/-- The latch of pair `p` clears: CAUSE is zeroed, FIRST_CAUSE and the counters stay (R449). -/
def gateClear (p : Nat) (s : State) : State :=
  ((s.wr (Fld.GDL_STATUS_LATCHED p) 0).wr (Fld.GDL_CAUSE_CAUSE p) 0).wrMapBit Fld.GDL_LATCHED p false

/-- A clearing edge (R449): each latch free of causes clears; what stays latched is reported. -/
def clearingEdge (s : State) : State :=
  let free := (latchedPairs s).filter (fun p => gateCauses false s p == 0)
  let left := (latchedPairs s).filter (fun p => gateCauses false s p != 0)
  let blocked := match left with | p :: _ => some (p, lowestBit (gateCauses false s p)) | [] => none
  let s := forEach free gateClear s
  let s := (s.wr Fld.GDL_EVENTS_CLEARED_EV 1).logEv 0x17 0x0002 (free.length + left.length * 256)
  let s := match blocked with
    | some (p, c) => (s.wr Fld.GDL_EVENTS_CLR_BLOCKED 1).logEv 0x17 0x0003 (p + c * 256)
    | none => s
  settleTrips noPulse s

/-- GD_EN_RISE (R448, R449): GD_EN rises after `low` base cycles low; `locked` says that the control PLL was declared
locked throughout the last 4,000 of them. -/
def execGdEnRise (low : Nat) (locked : Bool) (s : State) : Host.Outcome State Fault Refusal :=
  run (fun s =>
    let us := Nat.min (low / 400) 0xFFFF
    let s := { s with gate := { s.gate with enHigh := true } }
    let s := (s.wr Fld.GDL_EN_STATUS_GD_EN_LEVEL 1).wr Fld.GDL_EN_STATUS_LOW_TIME us
    if !s.gate.tripLoaded then s
    else if decide (4000 ≤ low) && locked && s.rdB Fld.CLK_STATUS_CTRL_LOCK then clearingEdge s
    else (s.wr Fld.GDL_EVENTS_SHORT_TOGGLE 1).logEv 0x17 0x0004 us) s

/-- Bank 4 is present and matching, or not (R445): GD_BANK_LOSS is logged once for the block. -/
def gateBank (s : State) : State :=
  let ok := !bankBad s 4
  let s := when (s.rdB Fld.GDL_EN_STATUS_BANK_OK && !ok) (fun s => s.logEv 0x17 0x0006 0) s
  settleTrips noPulse (s.wrB Fld.GDL_EN_STATUS_BANK_OK ok)

/-- The fields that show the inputs live, as the inputs stand after a reset (R456, R460). -/
def gateShow (s : State) : State :=
  let s := forEach (pairs.filter (fun p => s.gate.fltLow.testBit p)) (fun p s => s.wr (Fld.GDL_STATUS_FLT_LIVE p) 1) s
  (s.wrB Fld.GDL_EN_STATUS_GD_EN_LEVEL s.gate.enHigh).wrB Fld.GDL_EN_STATUS_BANK_OK (!bankBad s 4)

/-- The TRIP section is loaded (R438): the latches of pairs that are not watched clear for good. -/
def gateLoad (s : State) : State :=
  let s := { s with gate := { s.gate with tripLoaded := true } }
  settleTrips noPulse (forEach (pairs.filter (fun p => !watched s p)) gateClear s)

/-- The control PLL is lost (R453): every link starts DOWN at recovery, without cause LINK. -/
def gateClockLost (s : State) : State :=
  let s := { s with gate := { s.gate with quietDown := 2 ^ 72 - 1 } }
  forEach pairs (fun p s => when (s.rdB (Fld.GDL_STATUS_LINK_UP p)) (fun s => s.wr (Fld.GDL_STATUS_LINK_UP p) 0) s) s

end Sys2Proof.Machine
end

