-- ==== Sys2Proof/Machine/SafetyIo.lean ====
section
/-!
DEFINITION. Machine/SafetyIo.lean: safety inputs and outputs (spec/17_safety_io.md) and the lockstep checker
(spec/15_lockstep.md): the scan of each frame, test pulses, off-pulses, read-back, the deliberate reset, signatures and
the release of safety changes.
-/
namespace Sys2Proof.Machine

/-! ### The lockstep checker (R463 to R479) -/

/-- One cycle of the signature register (R467). -/
def sigStep (sig o : BitVec 64) : BitVec 64 :=
  if sig.msb then ((sig <<< 1) ^^^ o) ^^^ 0x1B#64 else (sig <<< 1) ^^^ o

/-- The signature of a window's output words (R467). -/
def signature (l : List (BitVec 64)) : BitVec 64 := l.foldl sigStep (BitVec.allOnes 64)

/-- LS_MM_INFO records the first mismatch since the main-domain reset (R484); `unit` is 1 for the core, 2 for the engine. -/
def mmInfo (unit : Nat) (direct ab : Bool) (cycle : Nat) (s : State) : State :=
  if s.rdB Fld.LS_MM_INFO_VALID then s
  else
    let s := ((s.wr Fld.LS_MM_INFO_VALID 1).wr Fld.LS_MM_INFO_UNIT unit).wrB Fld.LS_MM_INFO_DIRECT direct
    (s.wrB Fld.LS_MM_INFO_AB ab).wr Fld.LS_MM_INFO_CYCLE cycle

/-- The datum of LS_MISMATCH (R480). -/
def mmDatum (unit : Nat) (direct ab : Bool) (cycle : Nat) : Nat :=
  unit + bitIf direct 4 + bitIf ab 5 + (cycle % 8192) * 65536

/-- The loop engine stops: a unit that is compared is stopped, and one that holds a mismatch or is broken stays so (R474, R477, R482). -/
def engineStops (s : State) : State :=
  let s := s.wr Fld.LE_STATUS_RUN 0
  if s.rd Fld.LS_STATUS_ENG_STATE = 1 then s.wr Fld.LS_STATUS_ENG_STATE 0 else s

/-- The core is held in reset, its unreleased changes are discarded, and its outputs are safe, in a test-stand halt too (R472). -/
def coreSafe (cause : Nat) (s : State) : State :=
  let s := { s with ls := { s.ls with coreHeld := true, trip := true, changes := [] } }
  enterLockout cause 0 (outputsOff (s.wr Fld.LS_STATUS_CORE_STATE 2))

/-- A mismatch of the lockstep core (R472). -/
def coreMismatch (direct ab : Bool) (cycle : Nat) (s : State) : State :=
  let s := mmInfo 1 direct ab cycle (s.wr Fld.LS_EVENTS_CORE_MM_EV 1)
  coreSafe 7 (s.logEv 0x18 0x0001 (mmDatum 1 direct ab cycle))

/-- The engine is stopped with its mismatch, and LOCKSTEP holds every pair (R473). -/
def engSafe (s : State) : State :=
  settleTrips noPulse ({ s with ls := { s.ls with trip := true } }.wr Fld.LS_STATUS_ENG_STATE 2 |>.wr Fld.LE_STATUS_RUN 0)

/-- A mismatch of the loop engine (R473). -/
def engMismatch (direct ab : Bool) (cycle : Nat) (s : State) : State :=
  let s := mmInfo 2 direct ab cycle (s.wr Fld.LS_EVENTS_ENG_MM_EV 1)
  engSafe (s.logEv 0x18 0x0001 (mmDatum 2 direct ab cycle))

/-- A mismatch of the core and one of the engine in the same cycle (R475): both reactions, and one entry with both units; its cycle, and that of
LS_MM_INFO, is the core's (DESIGN CHOICE, assumption 104). -/
def bothMismatch (ab : Bool) (cycle : Nat) (s : State) : State :=
  let s := mmInfo 3 false ab cycle ((s.wr Fld.LS_EVENTS_CORE_MM_EV 1).wr Fld.LS_EVENTS_ENG_MM_EV 1)
  engSafe (coreSafe 7 (s.logEv 0x18 0x0001 (mmDatum 3 false ab cycle)))

/-- The LO word of signature `k` of LS_SIG (R485). -/
def sigLo (k : Nat) : Nat := Reg.LS_SIG_CORE_L_LO + 8 * k

/-- A window of `n` cycles may end now (R468, R479): one of the length in force, or one that a control tick or a clock loss has cut short. -/
def windowEnds (inForce : Nat) (cut : Option Nat) (n : Nat) : Bool :=
  match cut with | some w => decide (n ≤ w) | none => n == inForce

/-- The window of the core that the checker compares, if it compares one. -/
def coreWindow (s : State) (w : Option SigWindow) : Option SigWindow :=
  w.filter (fun w => s.rd Fld.LS_STATUS_CORE_STATE == 1 && windowEnds s.ls.coreWin s.ls.coreCut w.lead.length)

/-- The window of the engine that the checker compares, if it compares one: the one that a clock loss cut short too, whose engine has stopped. -/
def engWindow (s : State) (w : Option SigWindow) : Option SigWindow :=
  w.filter (fun w => (s.rd Fld.LS_STATUS_ENG_STATE == 1 || (s.rd Fld.LS_STATUS_ENG_STATE == 0 && s.ls.engCut.isSome))
    && windowEnds s.ls.engWin s.ls.engCut w.lead.length)

/-- The signatures of a window are taken and counted (R485, R486): `b` is 0 for the core, 2 for the engine. -/
def sigTake (b : Nat) (w : Option SigWindow) (s : State) : State :=
  match w with
  | none => s
  | some w =>
    let sig := Tab.set 0 (Tab.set 0 s.ls.sig b (signature w.lead).toNat) (b + 1) (signature w.trail).toNat
    let s := { s with ls := { s.ls with sig := sig } }.inc Fld.LS_COUNT_WINDOWS
    (s.setReg (sigLo b) (BitVec.ofNat 32 (signature w.lead).toNat)).setReg (sigLo (b + 1)) (BitVec.ofNat 32 (signature w.trail).toNat)

/-- A window shows a mismatch, or its comparators disagree (R468, R476): in which cycle, and whether A and B disagree. -/
def sigFault (w : Option SigWindow) : Option (Bool × Nat) :=
  match w with
  | some w => if signature w.lead = signature w.trail ∧ w.ab = false then none else some (w.ab, w.lead.length - 1)
  | none => none

/-- The windows that end in one cycle are compared (R467, R468, R475). -/
def windowsCompare (c e : Option SigWindow) (s : State) : State :=
  let s := { s with ls := { s.ls with coreCut := if c.isSome then none else s.ls.coreCut, engCut := if e.isSome then none else s.ls.engCut } }
  let s := sigTake 2 e (sigTake 0 c s)
  match sigFault c, sigFault e with
  | some a, some b => bothMismatch (a.1 || b.1) a.2 s
  | some a, none => coreMismatch false a.1 a.2 s
  | none, some b => engMismatch false b.1 b.2 s
  | none, none => s

/-- SIGNATURE_COMPARE (R467, R468, R475, R485): a window of the core, of the engine, or of both ends; a window's length is the number of its
words. -/
def execSignatureCompare (core eng : Option SigWindow) (s : State) : Host.Outcome State Fault Refusal :=
  run (fun s => if s.rdB Fld.CLK_STATUS_CTRL_LOCK then windowsCompare (coreWindow s core) (engWindow s eng) s else s) s

/-- The windows that run end at a control tick, or with the clock (R468, R479). -/
def windowsCut (s : State) : State :=
  let cut := fun (on : Bool) (old : Option Nat) (w : Nat) => if on then some w else old
  { s with ls := { s.ls with coreCut := cut (s.rd Fld.LS_STATUS_CORE_STATE == 1) s.ls.coreCut s.ls.coreWin,
                             engCut := cut (s.rd Fld.LS_STATUS_ENG_STATE == 1) s.ls.engCut s.ls.engWin } }

/-- The lockstep windows written to LS_CFG are in force, 64 to 4,096 (R475, R481). -/
def windowsTake (s : State) : State :=
  let clamp := fun n => Nat.min 4096 (Nat.max 64 n)
  { s with ls := { s.ls with coreWin := clamp (s.rd Fld.LS_CFG_CORE_WIN), engWin := clamp (s.rd Fld.LS_CFG_ENG_WIN) } }

/-- A read of LO word `k` (0 CORE_L, 1 CORE_T, 2 ENG_L, 3 ENG_T) latches its HI word (R485). -/
def sigRead (k : Nat) (s : State) : State :=
  (s.setReg (sigLo k + 4) (BitVec.ofNat 32 (Tab.get 0 s.ls.sig k / 2 ^ 32))).answer (s.reg (sigLo k)) .done .ok

/-- LS_SIG_LO_READ (R485). -/
def execLsSigLoRead (i : Initiator) (k : Fin 4) (s : State) : Host.Outcome State Fault Refusal :=
  run (readAdmitted i (sigLo k.val) (sigRead k.val)) s

/-! ### Writes to the two safety blocks (R43, R194, R470) -/

/-- The effect of a write to a register of the Safety I/O or the Lockstep checker block (R481 to R486, R530 to R537). -/
def safetyEffect (a : Nat) (v : Word) (s : State) : State :=
  if a = Reg.SAFE_CTRL then when (Fld.SAFE_CTRL_TRIP.get v = 1) (enterLockout 2 0) s
  else if a = Reg.SAFE_EVENTS ∨ a = Reg.SIN_DEMAND_EV ∨ a = Reg.LS_EVENTS then w1cWrite a v s
  else if a = Reg.SOUT_REQ then s.wr Fld.SOUT_REQ_REQ (Fld.SOUT_REQ_REQ.get v)
  else if a = Reg.LS_CFG then
    (s.wr Fld.LS_CFG_ENG_WIN (Fld.LS_CFG_ENG_WIN.get v)).wr Fld.LS_CFG_CORE_WIN (Fld.LS_CFG_CORE_WIN.get v)
  else if a = Reg.LS_TEST then
    when (Fld.LS_TEST_GO.get v == 1 && !s.rdB Fld.LS_TEST_BUSY) (fun s => { s with ls := { s.ls with auto := false } }.wr Fld.LS_TEST_BUSY 1) s
  else s

/-- A change that the change log must hold is made with its entry, or answers BUSY with no effect (R196). -/
def logged (i : Initiator) (kind subject : Nat) (new : BitVec 128) (f : State → State) (s : State) : State :=
  if s.clogFull then s.answerSt .busy else f (s.clogPush (s.roleOf i) (sessOf i) kind subject new)

/-- A write to one of the two blocks: the lockstep core's is a change to be released by the checker (R470), a SAFETY
session's takes effect at once; each is recorded in the change log (R194). -/
def safetyWrite (i : Initiator) (a : Nat) (v : Word) (s : State) : State :=
  writeAdmitted i a (fun s => match i with
    | .core => { s with ls := { s.ls with changes := s.ls.changes ++ [(a, v)] } }
    | _ => logged i 4 a (newOf v.toNat) (safetyEffect a v) s) s

/-- SAFE_TRIP (R522, R532): a write of SAFE_CTRL. -/
def execSafeTrip (i : Initiator) (v : Word) (s : State) : Host.Outcome State Fault Refusal :=
  run (safetyWrite i Reg.SAFE_CTRL v) s

/-- LS_TEST (R476, R486): a write of LS_TEST; a request while a test runs changes nothing. -/
def execLsTest (i : Initiator) (v : Word) (s : State) : Host.Outcome State Fault Refusal :=
  run (safetyWrite i Reg.LS_TEST v) s

/-- A released change takes effect (R470): the image of the safety outputs, or a register write of the core. An image is
taken with the lockout in force. -/
def releaseChange (a : Nat) (v : Word) (s : State) : State :=
  if a = Reg.SOUT_STATE then s.wr Fld.SOUT_STATE_ON (if s.rdB Fld.SAFE_STATUS_LOCKED then 0 else v.toNat % 65536)
  else logged .core 4 a (newOf v.toNat) (safetyEffect a v) s

/-- SAFETY_CHANGE_RELEASE (R470, R476 to R478): the checker has both copies' versions of the oldest change: it releases it if they agree and its
comparator sets agree about it (`ab` says that they do not); else it is a mismatch, `cycle` cycles into the window. A core that is no longer
compared runs uncompared in test-stand mode; outside it nothing of it is released and no comparison is made (DEDUCED, assumption 105). A core
that is held or halted releases nothing: the output stage holds the last image (R59, R513). -/
def execSafetyChangeRelease (agree ab : Bool) (cycle : Nat) (s : State) : Host.Outcome State Fault Refusal :=
  run (fun s => match s.ls.changes with
    | [] => s
    | (a, v) :: rest =>
      if s.ls.coreHeld || s.ls.coreHalted || !s.rdB Fld.CLK_STATUS_CTRL_LOCK then s
      else if s.rd Fld.LS_STATUS_CORE_STATE = 3 then
        if s.rdB Fld.SAFE_STATUS_TEST_STAND then releaseChange a v { s with ls := { s.ls with changes := rest } } else s
      else if agree && !ab then releaseChange a v { s with ls := { s.ls with changes := rest } }
      else coreMismatch true ab cycle s) s

/-- The automatic self-test begins once the checker has its clock (R476). -/
def autoTest (s : State) : State :=
  if s.ls.autoDue then { s with ls := { s.ls with autoDue := false, auto := true } }.wr Fld.LS_TEST_BUSY 1 else s

/-- The checker's self-test ends; `failA` and `failB` are the comparator sets that did not flag. -/
def lsTestDone (failA failB : Bool) (s : State) : State :=
  let demand := !s.ls.auto
  let s := { s with ls := { s.ls with auto := false } }.wr Fld.LS_TEST_BUSY 0
  if failA || failB then
    let s := (s.wr Fld.LS_STATUS_TEST_OK 0).wr Fld.LS_TEST_PASS 0
    let s := s.logEv 0x18 0x0003 (bitIf failA 0 + bitIf failB 1 + bitIf demand 8)
    if demand then coreSafe 11 (s.wr Fld.LS_EVENTS_TEST_FAIL_EV 1)
    else enterLockout 11 0 { s with ls := { s.ls with trip := true } }
  else
    let s := (s.wr Fld.LS_STATUS_TEST_OK 1).wr Fld.LS_TEST_PASS 1
    if !demand && s.ls.coreHeld && decide (s.rd Fld.LS_STATUS_CORE_STATE = 0) then
      let s := { s with ls := { s.ls with coreHeld := false, trip := false } }.wr Fld.LS_STATUS_CORE_STATE 1
      settleTrips noPulse (safetyPending s)
    else safetyPending s

/-! ### The scan of a frame (R512, R514 to R520, R523) -/

/-- A channel that has never been high. -/
def restIn : SafeIn :=
  { a := ⟨false, 0⟩, b := ⟨false, 0⟩, disc := 0, discFault := false, tpA := none, tpB := none, crossA := none,
    crossB := none, demandAt := none }

/-- A level is accepted after `n` consecutive scans (R514, R523). -/
def filtStep (n : Nat) (f : Filt) (x : Bool) : Filt :=
  if x = f.level then { f with run := 0 }
  else if n ≤ f.run + 1 then { level := x, run := 0 } else { f with run := f.run + 1 }

/-- The sample of a channel in this scan: a channel fed by the source that pulsed in the last frame keeps its last (R516). -/
def channelSample (last : Bool) (fed : Bool) (source : Nat) (pulsed : Option Nat) (x : Bool) : Bool :=
  if fed && pulsed == some source then last else x

/-- DISC_T in frames. -/
def discFrames (s : State) (n : Nat) : Nat := s.rd (Fld.SIN_CFG_DISC_T n) * 50

/-- The datum of TP_FAIL (R529). -/
def tpDatum (n : Nat) (chB cross : Bool) (source : Nat) : Nat := n + bitIf chB 8 + bitIf cross 9 + source * 65536

/-- A test-pulse fault of one channel arises (R517): logged, the input held, lockout with cause TEST_PULSE. -/
def tpFail (n : Nat) (chB cross : Bool) (source : Nat) (s : State) : State :=
  enterLockout 4 n ((s.wrBit Fld.SIN_FAULT n true).logEv 0x1A 0x0007 (tpDatum n chB cross source))

/-- The fault bit of input `n` follows its faults (R515, R517, R535). -/
def faultBit (n : Nat) (q : SafeIn) (s : State) : State :=
  s.wrBit Fld.SIN_FAULT n (q.discFault || q.tpA.isSome || q.tpB.isSome)

/-- Stores what an input has become. -/
def State.setIn (s : State) (n : Nat) (q : SafeIn) : State :=
  { s with safe := { s.safe with inputs := Tab.set restIn s.safe.inputs n q } }

/-- The samples of the channels of input `n` in this scan, used or not (R512, R516, R535). -/
def scanRaw (sa sb : BitVec 32) (n : Nat) (s : State) : State :=
  let xa := channelSample (s.bit Fld.SIN_RAW_A n) (s.rdB (Fld.SIN_CFG_TP_A_EN n)) (s.rd (Fld.SIN_CFG_TP_A n)) s.safe.pulsed (sa.getLsbD n)
  let xb := channelSample (s.bit Fld.SIN_RAW_B n) (s.rdB (Fld.SIN_CFG_TP_B_EN n)) (s.rd (Fld.SIN_CFG_TP_B n)) s.safe.pulsed (sb.getLsbD n)
  (s.wrBit Fld.SIN_RAW_A n xa).wrBit Fld.SIN_RAW_B n xb

/-- Input `n` is in RUN or in DEMAND; an entry into DEMAND sets its event and is logged at most once per second (R514). -/
def inputState (n : Nat) (runs : Bool) (s : State) : State :=
  let was := s.bit Fld.SIN_RUN n
  let s := s.wrBit Fld.SIN_RUN n runs
  if was && !runs then
    let q := Tab.get restIn s.safe.inputs n
    let s := s.wrBit Fld.SIN_DEMAND_EV n true
    if (match q.demandAt with | some f => decide (fnDiff s.fn f < 50000) | none => false) then s
    else (s.setIn n { q with demandAt := some s.fn }).logEv 0x1A 0x0005 n
  else s

/-- The scan of one enabled input (R514 to R517) after its samples: filters, the discrepancy timer, cross-short confirmation, the
input's state, and DEMAND. -/
def scanInput (n : Nat) (s : State) : State :=
  let q := Tab.get restIn s.safe.inputs n
  let xa := s.bit Fld.SIN_RAW_A n
  let xb := s.bit Fld.SIN_RAW_B n
  let filt := Nat.max 1 (s.rd (Fld.SIN_CFG_FILT n))
  let a := filtStep filt q.a xa
  let b := filtStep filt q.b xb
  let disc := if a.level != b.level then q.disc + 1 else 0
  let discFault := q.discFault && (a.level || b.level)
  let crossFailA := q.crossA.filter (fun _ => xa && q.tpA.isNone)
  let crossFailB := q.crossB.filter (fun _ => xb && q.tpB.isNone)
  let q' : SafeIn := { q with a := a, b := b, disc := disc, discFault := discFault, crossA := none, crossB := none,
                              tpA := if crossFailA.isSome then crossFailA else q.tpA,
                              tpB := if crossFailB.isSome then crossFailB else q.tpB }
  let s := faultBit n q' (s.setIn n q')
  let s := match crossFailA with | some k => tpFail n false true k s | none => s
  let s := match crossFailB with | some k => tpFail n true true k s | none => s
  inputState n (a.level && b.level && !s.bit Fld.SIN_FAULT n) s

/-- ALLOW of output `n` (R518). -/
def outAllow (s : State) (n : Nat) : Bool :=
  s.rdB (Fld.SOUT_CFG_EN n) && !s.rdB Fld.SAFE_STATUS_LOCKED
    && decide (s.rd (Fld.SOUT_IN n) &&& s.rd Fld.SIN_RUN = s.rd (Fld.SOUT_IN n))
    && (!s.rdB (Fld.SOUT_CFG_G_GDANY n) || !gdAny s)

/-- The owners of output `n` permit it: a stage whose contactor it drives asks for it by CONNECT (R343), and no disconnect is in force where it
is the PCC breaker's (R390, R397, R400). -/
def outOwned (s : State) (n : Nat) : Bool :=
  (List.range 8).all (fun g => !(s.rdB (Fld.GST_MAP_EN g) && s.rd (Fld.GST_MAP_CONT_OUT g) == n) || s.rdB (Fld.GST_STATUS_CONNECT g))
    && !(s.rdB Fld.ISL_MAP_PCC_OUT_EN && s.rd Fld.ISL_MAP_PCC_OUT == n && s.rdB Fld.ISL_STATUS_DISC)

/-- REQUEST of output `n` (R518), with what its owners permit. -/
def outRequest (s : State) (n : Nat) : Bool :=
  outOwned s n && match s.rd (Fld.SOUT_CFG_REQ_SRC n) with
  | 0 => true
  | 1 => s.rdB (Fld.GST_STATUS_CONNECT (s.rd (Fld.SOUT_CFG_REQ_IDX n)))
  | 2 => !s.rdB Fld.ISL_STATUS_DISC
  | 3 => s.bit Fld.SOUT_REQ_REQ n
  | _ => false

/-- The sequencer decides output `n` (R518, R519): ALLOW, WAIT_ACK, and its bit of the image. -/
def evalOutput (n : Nat) (s : State) : State :=
  let allow := outAllow s n
  let waits := s.bit Fld.SOUT_WAIT_WAIT_ACK n
    || (s.rdB (Fld.SOUT_CFG_RESTART n) && s.bit Fld.SOUT_STATE_ON n && s.bit Fld.SOUT_WAIT_ALLOW n && !allow)
  let on := s.rdB (Fld.SOUT_CFG_EN n) && allow && outRequest s n && !waits
  let s := (s.wrBit Fld.SOUT_WAIT_ALLOW n allow).wrBit Fld.SOUT_WAIT_WAIT_ACK n waits
  { s with safe := { s.safe with image := setBitOf s.safe.image n on } }

/-- RB_T of output `n` in microseconds; 0 acts as 1 (R536). -/
def rbMicros (s : State) (n : Nat) : Nat := Nat.max 1 (s.rd (Fld.SOUT_CFG_RB_T n)) * 100

/-- SOUT_nn as a scan finds it: an energised output is low in its off-pulse, from 12.0 us after the frame tick of the pulse for OP_W, in units of
0.1 us (R520, R521). -/
def soutLevel (s : State) (n : Nat) : Bool :=
  s.bit Fld.SOUT_STATE_ON n && !(match Tab.get none s.safe.offAt n with
    | some f => decide (120 ≤ 200 * fnDiff s.fn f ∧ 200 * fnDiff s.fn f < 120 + s.rd (Fld.SOUT_CFG_OP_W n)) | none => false)

/-- The read-back of output `n` at a scan (R520): counts the scans of disagreement and of agreement; a fault clears once
the levels have matched for RB_T. -/
def scanReadback (rb : BitVec 16) (n : Nat) (s : State) : State :=
  let x := rb.getLsbD n
  let same := x == soutLevel s n
  let bad := if same then 0 else Tab.get 0 s.safe.rbBad n + 1
  let good := if same && s.bit Fld.SOUT_FAULT_RB_FAIL n then Tab.get 0 s.safe.rbGood n + 1 else 0
  let s := { s with safe := { s.safe with rbBad := Tab.set 0 s.safe.rbBad n bad, rbGood := Tab.set 0 s.safe.rbGood n good } }
  let s := s.wrBit Fld.SOUT_STATE_SRB n x
  if decide (rbMicros s n ≤ (good - 1) * 20) && decide (0 < good) then s.wrBit Fld.SOUT_FAULT_RB_FAIL n false else s

/-- SAFE_ACK at a scan (R523): its accepted level, and the press in progress. -/
def scanAck (x : Bool) (s : State) : State :=
  let f := filtStep 500 s.safe.ack x
  let locked := s.rdB Fld.SAFE_STATUS_LOCKED
  let s0 := s.wrB Fld.SAFE_STATUS_ACK_LEVEL f.level
  if f.level && !s.safe.ack.level then
    { s0 with safe := { s.safe with ack := f, press := 0, ackFall := false, pressInLock := locked,
                                    pressWait := s.rd Fld.SOUT_WAIT_WAIT_ACK } }.wrB Fld.SAFE_STATUS_ACK_ARMED
      (locked || decide (s.rd Fld.SOUT_WAIT_WAIT_ACK ≠ 0))
  else if !f.level && s.safe.ack.level then
    { s0 with safe := { s.safe with ack := f, press := s.safe.press + 1, ackFall := true } }.wr Fld.SAFE_STATUS_ACK_ARMED 0
  else
    let s := { s0 with safe := { s.safe with ack := f, press := if f.level then s.safe.press + 1 else s.safe.press } }
    if f.level && decide (250000 < s.safe.press) then s.wr Fld.SAFE_STATUS_ACK_ARMED 0 else s

/-- The enabled inputs and outputs. -/
def enabledInputs (s : State) : List Nat := (List.range 32).filter (fun n => s.rdB (Fld.SIN_CFG_EN n))
/-- The enabled outputs. -/
def enabledOutputs (s : State) : List Nat := (List.range 16).filter (fun n => s.rdB (Fld.SOUT_CFG_EN n))

/-- The safety sequencer writes an image in this frame: its core runs (R513). -/
def sequencerRuns (s : State) : Bool := !s.ls.coreHeld && !s.ls.coreHalted

/-- The evaluation of a frame (R512, R513, R518): the image of the outputs; a change of it waits for its release (R470). -/
def evalFrame (s : State) : State :=
  if sequencerRuns s then
    let old := s.safe.image
    let s := forEach (List.range 16) evalOutput s
    let s := { s with safe := { s.safe with sinceWrite := 0 } }.wr Fld.SAFE_STATUS_SEQ_RUN 1
    if s.safe.image = old then s
    else { s with ls := { s.ls with changes := s.ls.changes ++ [(Reg.SOUT_STATE, BitVec.ofNat 32 s.safe.image)] } }
  else if s.ls.coreHalted && s.rdB Fld.SAFE_STATUS_TEST_STAND then s
  else { s with safe := { s.safe with sinceWrite := s.safe.sinceWrite + 1 } }

/-- The safety scan of a frame (R512): inputs, SAFE_ACK, read-backs, and the evaluation, once the section is loaded. -/
def safetyScan (sa sb : BitVec 32) (rb : BitVec 16) (ack : Bool) (s : State) : State :=
  if !s.safe.loaded || !s.rdB Fld.CLK_STATUS_CTRL_LOCK then s
  else
    let s := forEach (enabledInputs s) scanInput (forEach (List.range 32) (scanRaw sa sb) s)
    let s := forEach (List.range 16) (fun n s => s.wrBit Fld.SOUT_STATE_SRB n (rb.getLsbD n)) s
    let s := scanAck ack (forEach (enabledOutputs s) (scanReadback rb) s)
    let s := safetyPending (evalFrame s)
    { s with safe := { s.safe with pulsed := none } }

/-! ### Faults found between scans (R513, R515, R517, R520, R521) -/

/-- DISCREPANCY (R515): the discrepancy timer of input `n` has reached DISC_T. -/
def execDiscrepancy (n : Fin 32) (s : State) : Host.Outcome State Fault Refusal :=
  run (fun s =>
    let q := Tab.get restIn s.safe.inputs n.val
    if s.rdB (Fld.SIN_CFG_EN n.val) && decide (0 < q.disc) && decide (discFrames s n.val ≤ q.disc - 1) && !q.discFault then
      let q := { q with discFault := true }
      let s := (faultBit n.val q (s.setIn n.val q)).wrBit Fld.SIN_RUN n.val false
      enterLockout 3 n.val (s.logEv 0x1A 0x0006 n.val)
    else s) s

/-- One channel of input `n` at the test sample of source `k` (R517): the fault of the channel afterwards, a cross-short
to be confirmed, and whether a fault arises. A channel fed by no source, or whose accepted level is low, is not tested; an uncleared fault stays
the one that it is. -/
def testChannel (k : Nat) (en fed : Bool) (src : Nat) (high x : Bool) (fault cross : Option Nat) :
    Option Nat × Option Nat × Bool :=
  if en && fed && high then
    if src = k then
      if x then (if fault.isNone then some k else fault, cross, fault.isNone)
      else (if fault = some k then none else fault, cross, false)
    else if x then (if fault = some k then none else fault, cross, false)
    else (fault, some k, false)
  else (fault, cross, false)

/-- The test sample of source `k` on input `n` (R517). -/
def testInput (k : Nat) (sa sb : BitVec 32) (n : Nat) (s : State) : State :=
  let q := Tab.get restIn s.safe.inputs n
  let en := s.rdB (Fld.SIN_CFG_EN n)
  let ra := testChannel k en (s.rdB (Fld.SIN_CFG_TP_A_EN n)) (s.rd (Fld.SIN_CFG_TP_A n)) q.a.level (sa.getLsbD n) q.tpA q.crossA
  let rb := testChannel k en (s.rdB (Fld.SIN_CFG_TP_B_EN n)) (s.rd (Fld.SIN_CFG_TP_B n)) q.b.level (sb.getLsbD n) q.tpB q.crossB
  let q := { q with tpA := ra.1, crossA := ra.2.1, tpB := rb.1, crossB := rb.2.1 }
  let s := faultBit n q (s.setIn n q)
  let s := when ra.2.2 (tpFail n false false k) s
  let s := when rb.2.2 (tpFail n true false k) s
  if s.bit Fld.SIN_FAULT n then inputState n false s else s

/-- TEST_PULSE (R516, R517): source `k` pulses in the frame whose FN48 modulo TP_PERIOD is k; the channel levels at its
test sample. -/
def execTestPulse (k : Fin 8) (sa sb : BitVec 32) (s : State) : Host.Outcome State Fault Refusal :=
  run (fun s =>
    if s.safe.loaded && s.rdB Fld.CLK_STATUS_CTRL_LOCK && decide (s.fn % Nat.max 8 (s.rd Fld.SAFE_CFG_TP_PERIOD) = k.val) then
      let s := { s with safe := { s.safe with pulsed := some k.val } }
      safetyPending (forEach (enabledInputs s) (testInput k.val sa sb) s)
    else s) s

/-- SEQ_WDOG (R513): three frames in a row have passed without an image write; it acts once until the writes arrive again. -/
def execSeqWdog (s : State) : Host.Outcome State Fault Refusal :=
  run (fun s => if 3 ≤ s.safe.sinceWrite ∧ ¬(s.bit Fld.SAFE_CAUSE_LATCHED 10 = true ∧ s.rd Fld.SAFE_STATUS_SEQ_RUN = 0) then
      enterLockout 10 0 ((s.wr Fld.SAFE_STATUS_SEQ_RUN 0).logEv 0x1A 0x000C 0)
    else s) s

/-- RB_FAIL (R520): the read-back of output `n` has differed at every scan for longer than RB_T. -/
def execRbFail (n : Fin 16) (s : State) : Host.Outcome State Fault Refusal :=
  run (fun s =>
    if s.rdB (Fld.SOUT_CFG_EN n.val) && decide (rbMicros s n.val < (Tab.get 0 s.safe.rbBad n.val - 1) * 20)
        && !s.bit Fld.SOUT_FAULT_RB_FAIL n.val then
      enterLockout 5 (128 + n.val) ((s.wrBit Fld.SOUT_FAULT_RB_FAIL n.val true).logEv 0x1A 0x0008 n.val)
    else s) s

/-- Output `n` is pulsed at the frame tick of this frame (R521). -/
def offPulseDue (s : State) (n : Nat) : Bool :=
  s.safe.loaded && s.rdB (Fld.SOUT_CFG_EN n) && s.rdB (Fld.SOUT_CFG_OP_EN n) && s.bit Fld.SOUT_STATE_ON n
    && !(s.ls.coreHalted && s.rdB Fld.SAFE_STATUS_TEST_STAND)
    && decide (((s.fn : Int) - 31 * n) % ((Nat.max 1 (s.rd Fld.SAFE_CFG_OP_PERIOD) * 500 : Nat) : Int) = 0)

/-- OFF_PULSE (R521): the off-pulse of output `n`; `rb` is SRB in its last 100 ns. -/
def execOffPulse (n : Fin 16) (rb : Bool) (s : State) : Host.Outcome State Fault Refusal :=
  run (fun s => if offPulseDue s n.val then
      let s := { s with safe := { s.safe with offAt := Tab.set none s.safe.offAt n.val (some s.fn) } }
      if rb then enterLockout 6 (128 + n.val) ((s.wrBit Fld.SOUT_FAULT_OP_FAIL n.val true).logEv 0x1A 0x0009 n.val)
      else safetyPending (s.wrBit Fld.SOUT_FAULT_OP_FAIL n.val false)
    else s) s

/-! ### The deliberate reset (R523) and the password block (R526) -/

/-- A press of 100 ms to 5 s, in frames. -/
def pressLenOk (frames : Nat) : Bool := decide (5000 ≤ frames ∧ frames ≤ 250000)

/-- The lockout ends (R523). -/
def lockoutRelease (s : State) : State :=
  let s := s.logEv 0x1A 0x0002 (s.rd Fld.SAFE_CAUSE_LATCHED)
  let s := ((s.wr Fld.SAFE_STATUS_LOCKED 0).wr Fld.SAFE_CAUSE_LATCHED 0).wr Fld.SAFE_EVENTS_RELEASE_EV 1
  settleTrips noPulse (safetyPending (s.inc Fld.SAFE_COUNT_RESETS))

/-- A valid press clears the WAIT_ACK of every output of a mask whose ALLOW holds now (R519, R523). -/
def waitsClear (mask : Nat) (s : State) : State :=
  s.wr Fld.SOUT_WAIT_WAIT_ACK ((List.range 16).foldl (fun m n =>
    if mask.testBit n && outAllow s n then setBitOf m n false else m) (s.rd Fld.SOUT_WAIT_WAIT_ACK))

/-- The causes that bar a release at this scan (R523): those still pending, and those that arose at it. -/
def barring (s : State) : Nat := pendingCauses s ||| (if s.safe.arisen.1 = s.fn then s.safe.arisen.2 else 0)

/-- The accepted fall of a press (R523). In lockout it releases only where no cause bars it; one that arose at this very scan and is not pending
is named by ACK_REFUSED too (DESIGN CHOICE, assumption 109). What a press lets on is in the image of this frame (R512, R524). -/
def ackPressed (s : State) : State :=
  let locked := s.rdB Fld.SAFE_STATUS_LOCKED
  let waits := s.rd Fld.SOUT_WAIT_WAIT_ACK
  if !locked && waits = 0 then s
  else if pressLenOk s.safe.press && (if locked then s.safe.pressInLock else decide (s.safe.pressWait &&& waits ≠ 0)) then
    if !locked then evalFrame (waitsClear s.safe.pressWait s)
    else if barring s = 0 then evalFrame (waitsClear 0xFFFF (lockoutRelease s))
    else (s.wr Fld.SAFE_EVENTS_ACK_REF 1).logEv 0x1A 0x0003 (lowestBit (barring s))
  else (s.wr Fld.SAFE_EVENTS_ACK_REJ 1).logEv 0x1A 0x0004 (Nat.min 0xFFFF (s.safe.press / 50))

/-- SAFE_ACK_PRESS (R523): the accepted fall of a press of SAFE_ACK, at the frame tick that found it; the sequencer decides (R512), while it runs. -/
def execSafeAckPress (s : State) : Host.Outcome State Fault Refusal :=
  run (fun s => if s.safe.ackFall && sequencerRuns s then
      let s := ackPressed s
      { s with safe := { s.safe with ackFall := false } }
    else s) s

/-- A frame of the password block passes (R526). -/
def pwFrame (s : State) : State := { s with safe := { s.safe with pwLeft := s.safe.pwLeft - 1 } }

/-- PW_BLOCK_END (R526): 60 s after the wrong presentation that began the block. The count of wrong presentations stays: only a correct one resets
it. -/
def execPwBlockEnd (s : State) : Host.Outcome State Fault Refusal :=
  run (fun s => if s.safe.pwLeft = 0 then { s with safe := { s.safe with pwBlocked := false } } else s) s

end Sys2Proof.Machine
end

