-- ==== Sys2Proof/Machine/Adc.lean ====
section
/-!
DEFINITION. Machine/Adc.lean: analogue acquisition (spec/07_analogue_acquisition.md): the sequencer of each ADC core,
windows and bursts, dual-gain pairs, references, open-wire checks and freshness.
-/
namespace Sys2Proof.Machine

/-- A core that has just powered up (R225, R233, R234). -/
def restCore : AdcCore :=
  { running := none, queue := [], settings := none, exclude := 0, runs := [], wroteAt := [], stallOff := 2, next := 0, sum := 0, n := 0,
    excl := 0, src := false, due := [], near := [] }

/-- The hidden part of core `c`. -/
def State.core (s : State) (c : Nat) : AdcCore := Tab.get restCore s.adc c

/-- The 40 cores. -/
def adcCores : List Nat := List.range 40

/-- The core is used and no slave of a pair (R229, R238). -/
def coreUsed (s : State) (c : Nat) : Bool := s.rdB (Fld.ADC_CORE_CFG_EN c) && !s.rdB (Fld.ADC_CORE_CFG_SLAVE c)

/-- REF_OK of the group of core `c` (R210, R215). -/
def refOk (s : State) (c : Nat) : Bool := s.rdB (Fld.ADC_REF_CFG_REF_OK (4 * (c / 4)))

/-- The queued software-triggered entries of a core (R243). -/
def swQueued (s : State) (c : Nat) (q : List AdcQ) : Nat :=
  q.foldl (fun m e => if s.rd (Fld.ADC_ENTRY_A_TRIG c e.entry) = 0 then setBitOf m e.entry true else m) 0

/-- Stores what a core has become; STATE, ENTRY, URG_RUN, QUEUED and ADC_SW_TRIG follow (R239, R243). -/
def State.setCore (s : State) (c : Nat) (q : AdcCore) : State :=
  let s := { s with adc := Tab.set restCore s.adc c q }
  let st := if !s.rdB (Fld.ADC_CORE_CFG_EN c) then 0 else if !refOk s c then 3 else if q.running.isSome then 2 else 1
  let s := (s.wr (Fld.ADC_CORE_STATUS_STATE c) st).wr (Fld.ADC_CORE_STATUS_QUEUED c) q.queue.length
  let s := match q.running with
    | some x => (s.wr (Fld.ADC_CORE_STATUS_ENTRY c) x.entry).wrB (Fld.ADC_CORE_STATUS_URG_RUN c) x.urgent
    | none => s.wr (Fld.ADC_CORE_STATUS_URG_RUN c) 0
  s.wr (Fld.ADC_SW_TRIG_TRIG c) (swQueued s c q.queue)

/-- The datum of an entry's log codes (R237). -/
def adcDatum (c e : Nat) : Nat := c * 2 ^ 24 + e

/-- A change on a core (R225): the next 12 sample instants are excluded and every run starts again (R233). -/
def coreChange (q : AdcCore) : AdcCore := { q with exclude := 12, runs := [] }

/-! ### Sample instants and PWM events (R211, R212, R218, R220) -/

/-- Sample instant `k`, counted from the present frame tick, in fifths of a fine step after that tick: 8 ns are 512 of them. The instants of the
frame before, which have negative numbers, lie as that frame's length puts them (R212). -/
def instantAt (s : State) (k : Int) : Int :=
  512 * k + (if k < 0 then -160 * ((s.time.lastCycles : Int) - 8000) else if 2500 ≤ k then 160 * ((s.time.frameCycles : Int) - 8000) else 0)

/-- The first sample instant strictly after a time in fine steps (R219): the frames before and after the present one are 2,500 instants each,
whatever the length of the frame in which they end (R212). -/
def firstAfter (s : State) (t : Int) : Int :=
  if t < 0 then min 0 ((5 * t + 160 * ((s.time.lastCycles : Int) - 8000)) / 512 + 1)
  else if 5 * t / 512 + 1 < 2500 then 5 * t / 512 + 1
  else max 2500 ((5 * t - 160 * ((s.time.frameCycles : Int) - 8000)) / 512 + 1)

/-- Event `ev` of pair `p` in its present period, in fine steps after the frame tick (R218, R220, R419): its boundary, or a compare that lies
within the period; before its first period there is none. -/
def eventTime (s : State) (p ev : Nat) : Option Int :=
  match Tab.get none s.pwm.span p with
  | some (start, len) =>
    if len ≤ 0 then none
    else if ev = 4 then some (32 * start)
    else match (Tab.get zeroAct s.pwm.act p).cmp[ev]? with
      | some x => if (x : Int) < 32 * len then some (32 * start + x) else none
      | none => none
  | none => none

/-- An entry as a trigger at time `t` opens it (R220): a window counts the occurrences of CLOSE_EV strictly after that, and closes at its
P-th one. -/
def openEntry (s : State) (c e : Nat) (t : Int) (urgent : Bool) : AdcQ :=
  if s.rd (Fld.ADC_ENTRY_A_MODE c e) ≠ 1 then ⟨e, urgent, false, 0, none⟩
  else
    let p := s.rd (Fld.ADC_ENTRY_B_PERIODS c e)
    match eventTime s (s.rd (Fld.ADC_ENTRY_A_PAIR c e)) (s.rd (Fld.ADC_ENTRY_A_CLOSE_EV c e)) with
    | some x => if t < x then ⟨e, urgent, false, p, if p = 0 then some x else none⟩ else ⟨e, urgent, false, p + 1, none⟩
    | none => ⟨e, urgent, false, p + 1, none⟩

/-- A CLOSE_EV at time `x` as an entry on the event's pair counts it (R220). -/
def countClose (s : State) (c p : Nat) (q : AdcQ) : AdcQ :=
  if s.rd (Fld.ADC_ENTRY_A_MODE c q.entry) = 1 ∧ s.rd (Fld.ADC_ENTRY_A_PAIR c q.entry) = p ∧ 0 < q.closes then
    match eventTime s p (s.rd (Fld.ADC_ENTRY_A_CLOSE_EV c q.entry)) with
    | some x => { q with closes := q.closes - 1, closeAt := if q.closes = 1 then some x else none }
    | none => q
  else q

/-- A trigger of entry `e` of core `c` at time `t` falls due (R218); a later one of the same entry takes its place. A WINDOW entry runs only
with TRIG 1. -/
def addDue (s : State) (c e : Nat) (t : Int) (q : AdcCore) : AdcCore :=
  if s.rd (Fld.ADC_ENTRY_A_MODE c e) = 1 ∧ s.rd (Fld.ADC_ENTRY_A_TRIG c e) ≠ 1 then q
  else { q with due := q.due.filter (fun d => d.1.entry != e) ++ [(openEntry s c e t (s.rdB (Fld.ADC_ENTRY_A_URGENT c e)), t)] }

/-- The entries of core `c` that a source of triggers concerns. -/
def entriesWith (s : State) (c : Nat) (p : Nat → Bool) : List Nat :=
  if coreUsed s c then (List.range 16).filter (fun e => s.rdB (Fld.ADC_ENTRY_A_EN c e) && p e) else []

/-- Stores the hidden part of a core whose registers it leaves alone. -/
def State.putCore (s : State) (c : Nat) (q : AdcCore) : State := { s with adc := Tab.set restCore s.adc c q }

/-- What the period of pair `p` that begins now brings to core `c`: triggers of its OPEN_EV and occurrences of CLOSE_EV (R218, R220). -/
def corePeriod (p c : Nat) (s : State) : State :=
  let q := s.core c
  let q := { q with running := q.running.map (countClose s c p), queue := q.queue.map (countClose s c p),
                    due := q.due.map (fun d => (countClose s c p d.1, d.2)) }
  let hit := entriesWith s c (fun e => s.rd (Fld.ADC_ENTRY_A_TRIG c e) == 1 && s.rd (Fld.ADC_ENTRY_A_PAIR c e) == p)
  s.putCore c (hit.foldl (fun q e => match eventTime s p (s.rd (Fld.ADC_ENTRY_A_OPEN_EV c e)) with
    | some x => addDue s c e x q
    | none => q) q)

/-- A period of pair `p` begins. -/
def adcPeriod (p : Nat) (s : State) : State := forEach adcCores (corePeriod p) s

/-- A close that was to come at a time no longer comes in this period: the next occurrence closes the window. -/
def closeGone (gone : Int → Bool) (q : AdcQ) : AdcQ :=
  match q.closeAt with | some t => if gone t then { q with closes := 1, closeAt := none } else q | none => q

/-- The events of pair `p` at the times `gone` do not occur on core `c` (R407, R419): neither what they trigger nor what they close. -/
def eventsGone (gone : Int → Bool) (p c : Nat) (s : State) : State :=
  let q := s.core c
  let ofPair := fun (x : AdcQ) => s.rd (Fld.ADC_ENTRY_A_TRIG c x.entry) == 1 && s.rd (Fld.ADC_ENTRY_A_PAIR c x.entry) == p
  let close := fun (x : AdcQ) => if ofPair x then closeGone gone x else x
  let t := { q with running := q.running.map close, queue := q.queue.map close,
                    due := (q.due.filter (fun d => !(ofPair d.1 && gone d.2))).map (fun d => (close d.1, d.2)) }
  if t = q then s else s.putCore c t

/-- The counter of pair `p` has stopped: none of its events occurs until it runs again (R419). -/
def adcPairStops (p : Nat) (s : State) : State := forEach adcCores (eventsGone (fun _ => true) p) s

/-- Every counter has stopped. -/
def adcPairsStop (s : State) : State := forEach pairs adcPairStops s

/-- The present period of pair `p` ends later or earlier than it was to end (R407): its events in removed cycles do not occur, and compares in
added ones do. `old` is the state with the period as it was. -/
def adcStretch (old : State) (p : Nat) (s : State) : State :=
  match Tab.get none s.pwm.span p with
  | none => s
  | some (start, len) =>
    let s := forEach adcCores (eventsGone (fun t => decide (32 * (start + len) ≤ t)) p) s
    forEach adcCores (fun c s =>
      match entriesWith s c (fun e => s.rd (Fld.ADC_ENTRY_A_TRIG c e) == 1 && s.rd (Fld.ADC_ENTRY_A_PAIR c e) == p
          && (eventTime old p (s.rd (Fld.ADC_ENTRY_A_OPEN_EV c e))).isNone) with
      | [] => s
      | l => s.putCore c (l.foldl (fun q e => match eventTime s p (s.rd (Fld.ADC_ENTRY_A_OPEN_EV c e)) with
        | some x => addDue s c e x q
        | none => q) (s.core c))) s

/-- A control tick (TRIG 2) or a frame tick (TRIG 3) at time `t` triggers its entries (R218). -/
def adcTick (trig : Nat) (t : Int) (s : State) : State :=
  forEach adcCores (fun c s =>
    match entriesWith s c (fun e => s.rd (Fld.ADC_ENTRY_A_TRIG c e) == trig) with
    | [] => s
    | l => s.putCore c (l.foldl (fun q e => addDue s c e t q) (s.core c))) s

/-- A waiting entry's close, counted from the next frame tick. -/
def closeShift (d : Int) (q : AdcQ) : AdcQ := { q with closeAt := q.closeAt.map (· - d) }

/-- The samples near an injection, counted from the next frame tick; those of earlier frames go. -/
def nearShift (l : List NearSample) : List NearSample :=
  (l.map (fun (x : NearSample) => { x with k := x.k - 2500 })).filter (fun x => decide (-2600 < x.k))

/-- A core at a frame tick: its times count from the new one, `d` fine steps later; an idle core's instants of the past frame are over, or did
not come where its sample clock stands still (`runs`). -/
def coreFrame (runs : Bool) (d : Int) (q : AdcCore) : AdcCore :=
  let k := q.next - 2500
  let q := { q with
    running := q.running.map (closeShift d), queue := q.queue.map (closeShift d)
    due := q.due.map (fun (x : AdcQ × Int) => (closeShift d x.1, x.2 - d)), near := nearShift q.near }
  if q.running.isNone && decide (k < 0) then { q with exclude := if runs then q.exclude - (-k).toNat else q.exclude, next := 0 }
  else { q with next := k }

/-- The sample clock runs (R234): ANA is on and the control PLL is locked. -/
def sampling (s : State) : Bool := s.bit Fld.DOM_STATUS_ON 15 && s.rdB Fld.CLK_STATUS_CTRL_LOCK

/-- The cores at a frame tick, `d` fine steps after the one before. -/
def adcFrame (d : Int) (s : State) : State :=
  forEach adcCores (fun c s => if s.core c = restCore then s else s.putCore c (coreFrame (sampling s) d (s.core c))) s

/-! ### Triggers, starts and aborts (R218, R219, R226, R227) -/

/-- The mux, gain and bandwidth that an entry asks for; a pair ignores GAIN, and its even core converts at ×8 (R229). -/
def entrySettings (s : State) (c e : Nat) : Nat × Nat × Nat :=
  (s.rd (Fld.ADC_ENTRY_A_MUX c e),
    if s.rdB (Fld.ADC_CORE_CFG_PAIR_EN c) then 3 else s.rd (Fld.ADC_ENTRY_A_GAIN c e), s.rd (Fld.ADC_ENTRY_A_BW c e))

/-- Entry `x` starts at sample instant `k`, or at the next one if that has passed (R219, R225): the idle instants before it count towards the
excluded ones. R225 does not say with which settings an idle core converts between its power-up and its first entry: the first entry after a
power-up counts as a change, whatever its settings (DESIGN CHOICE, assumption 98). -/
def startEntry (c : Nat) (x : AdcQ) (k : Int) (s : State) : State :=
  let q := s.core c
  let q := { q with exclude := q.exclude - (k - q.next).toNat, next := max k q.next, running := some x, sum := 0, n := 0, excl := 0, src := false }
  let q := if q.settings = some (entrySettings s c x.entry) then q
    else { coreChange q with settings := some (entrySettings s c x.entry) }
  s.setCore c q

/-- The entry that the queue serves next (R219): urgent ones, then an aborted one, then the others in order of arrival. R219 orders the last
alone by arrival; the model serves several urgent ones by arrival too (DESIGN CHOICE, assumption 100). -/
def nextQueued (l : List AdcQ) : Option AdcQ :=
  match l.find? (·.urgent) with
  | some x => some x
  | none => match l.find? (·.aborted) with
    | some x => some x
    | none => l.head?

/-- The entry is running or queued. -/
def entryBusy (q : AdcCore) (e : Nat) : Bool :=
  (match q.running with | some x => x.entry == e | none => false) || q.queue.any (fun x => x.entry == e)

/-- A trigger that is dropped (R219). -/
def trigOver (c e : Nat) (s : State) : State :=
  (s.wr (Fld.ADC_CORE_EVENTS_TRIG_OVR c) 1).logOnce 0x10 0x0007 c (adcDatum c e)

/-- Entries run (R234): with the sample clock, and after a main-domain reset not before the image activation of the boot. -/
def entriesRun (s : State) : Bool := sampling s && s.img.phase == .booted

/-- An entry joins the queue of its core. -/
def enqueueEntry (c : Nat) (x : AdcQ) (s : State) : State := s.setCore c { s.core c with queue := (s.core c).queue ++ [x] }

/-- An urgent request for entry `x` (R226): a running entry that is not urgent is aborted. A request in the clock of its last sample instant
comes when that instant has been taken, and finds it ended. While entries do not run one waits in the queue (R234). R226 does not say what
becomes of a write of ADC_URG_REQ that names an entry running or queued: it is dropped as R219 drops a trigger (DESIGN CHOICE, assumption 99). -/
def urgentRequest (c : Nat) (x : AdcQ) (k : Int) (s : State) : State :=
  let q := s.core c
  if entryBusy q x.entry then trigOver c x.entry s
  else match q.running with
    | none => if entriesRun s && !q.queue.any (·.urgent) then startEntry c x k s else enqueueEntry c x s
    | some r =>
      if r.urgent then enqueueEntry c x s
      else
        let s := countEv 0x082 c 1 ((s.inc (Fld.ADC_CORE_STATUS_ABORTS c)).wr (Fld.ADC_CORE_EVENTS_ABORT_EV c) 1)
        startEntry c x k (enqueueEntry c { r with aborted := true } (s.setCore c { q with running := none }))

/-- A trigger of the entry that `x` opens, which starts it at instant `k` if the core is free (R218, R219). -/
def triggerEntry (c : Nat) (x : AdcQ) (k : Int) (s : State) : State :=
  if !coreUsed s c || !s.rdB (Fld.ADC_ENTRY_A_EN c x.entry) then s
  else if x.urgent then urgentRequest c x k s
  else if entryBusy (s.core c) x.entry then trigOver c x.entry s
  else if (s.core c).running.isNone && (s.core c).queue.isEmpty && entriesRun s then startEntry c x k s
  else enqueueEntry c x s

/-- Trigger `a` is taken before trigger `b`, or is it (R39): the earlier one, then the urgent one, then the lower index. -/
def dueFirst (a b : AdcQ × Int) : Bool :=
  let rank (d : AdcQ × Int) : Nat := d.1.entry + (if d.1.urgent then 0 else 16)
  decide (a.2 < b.2) || (a.2 == b.2 && decide (rank a ≤ rank b))

/-- ADC_TRIGGER (R39, R218, R219): a trigger of entry `e` that has fallen due is taken, in its order. On a core with a running entry the sample
instants up to the trigger come first. -/
def execAdcTrigger (c : Fin 40) (e : Fin 16) (s : State) : Host.Outcome State Fault Refusal :=
  run (fun s =>
    let q := s.core c.val
    match q.due.find? (fun d => d.1.entry == e.val) with
    | none => s
    | some d =>
      if !sampling s || !q.due.all (dueFirst d) || (q.running.isSome && decide (instantAt s q.next ≤ 5 * d.2)) then s
      else triggerEntry c.val d.1 (firstAfter s d.2) (s.putCore c.val { q with due := q.due.filter (fun x => x.1.entry != e.val) })) s

/-- The entries of a core in the order in which triggers of one clock are taken (R39): the urgent ones first, then the lower index. -/
def triggerOrder (c : Nat) (s : State) : List Nat :=
  (List.range 16).filter (fun e => s.rdB (Fld.ADC_ENTRY_A_URGENT c e)) ++ (List.range 16).filter (fun e => !s.rdB (Fld.ADC_ENTRY_A_URGENT c e))

/-- A write of ADC_SW_TRIG (R218, R243): a 1 triggers an entry with TRIG 0, in the clock of the core's latest sample instant; other bits are
ignored. -/
def swTrigWrite (c : Nat) (v : Word) (s : State) : State :=
  let k := (s.core c).next
  forEach (triggerOrder c s) (fun e s =>
    when (v.getLsbD e && decide (s.rd (Fld.ADC_ENTRY_A_TRIG c e) = 0) && decide (s.rd (Fld.ADC_ENTRY_A_MODE c e) = 0))
      (triggerEntry c ⟨e, s.rdB (Fld.ADC_ENTRY_A_URGENT c e), false, 0, none⟩ k) s) s

/-- ADC_SW_TRIG (R218, R243). -/
def execAdcSwTrig (i : Initiator) (c : Fin 40) (v : Word) (s : State) : Host.Outcome State Fault Refusal :=
  run (writeAdmitted i (Reg.ADC_SW_TRIG c.val) (swTrigWrite c.val v)) s

/-- A write of ADC_URG_REQ (R226, R227), in the clock of the core's latest sample instant. -/
def urgentWrite (i : Initiator) (c : Nat) (v : Word) (s : State) : State :=
  let e := (Fld.ADC_URG_REQ_ENTRY c).get v
  if !coreFwOr [1, 3] s i then s.answerSt .denied
  else if (Fld.ADC_URG_REQ_GO c).get v = 0 then s
  else if s.rdB (Fld.ADC_CORE_CFG_SLAVE c) || !s.rdB (Fld.ADC_ENTRY_A_EN c e)
      || decide (s.rd (Fld.ADC_ENTRY_A_MODE c e) = 1) then
    ((s.wr (Fld.ADC_CORE_EVENTS_URG_REJ c) 1).logOnce 0x10 0x0008 c (adcDatum c e)).answerSt .badArg
  else urgentRequest c ⟨e, true, false, 0, none⟩ (s.core c).next s

/-- URGENT_REQUEST (R226, R227): a write of ADC_URG_REQ. -/
def execUrgentRequest (i : Initiator) (c : Fin 40) (v : Word) (s : State) : Host.Outcome State Fault Refusal :=
  run (writeAdmitted i (Reg.ADC_URG_REQ c.val) (urgentWrite i c.val v)) s

/-! ### Samples (R213, R222 to R225, R229, R231, R236) -/

/-- The reference of group `g` in microvolts, at its nominal (R213, R215; DESIGN CHOICE, assumption 74). -/
def vref (s : State) (g : Nat) : Nat :=
  match s.rd (Fld.ADC_REF_CFG_SEL (4 * g)) with
  | 1 => 10000 * s.rd (Fld.ADC_REF_CFG_EXT_NOM (4 * g))
  | 2 => 1800000
  | _ => 1250000

/-- The 14-bit code of an input of `uv` microvolts at gain `gain` (R213). -/
def adcCode (gain ref : Nat) (uv : Int) : Nat := (clampInt 0 16383 (8192 + roundDiv (gain * (2 * uv - ref) * 8192) ref)).toNat

/-- Instant `k` of a frame is the injection instant of input `m` of core `c`, or the one after it (R231). -/
def injectedAt (s : State) (c m : Nat) (k : Int) : Bool :=
  let o := s.rd (Fld.ADC_OW_OFS_OW_OFS c m)
  s.bit (Fld.ADC_OW_CFG_OW_EN c) m && decide (o ≤ 2499)
    && (decide (k % 2500 = (o : Int)) || decide (k % 2500 = ((o + 1 : Nat) : Int) % 2500))

/-- The value of one sample in units of 1/64 of a code, and its source (R223, R229): `x8` is the code of a pair's core 2k, `x1` that of core
2k + 1 or of a single core. -/
def sampleValue (pair : Bool) (x8 x1 : Nat) : Nat × Bool :=
  if !pair then (64 * x1, false)
  else if x8 ≤ 1023 ∨ 15360 ≤ x8 then (64 * x1, true)
  else (524288 + 8 * x8 - 65536, false)

/-- The repeat run of one raw code (R233). -/
def runStep (t : Tab (Nat × Nat)) (k code : Nat) : Tab (Nat × Nat) :=
  let r := Tab.get (0, 0) t k
  Tab.set (0, 0) t k (code, if r.2 = 0 ∨ r.1 ≠ code then 1 else r.2 + 1)

/-- What a sample instant of core `c` finds, for entry `e`: whether the core leads a pair, its gain, its reference, REF_OK, DISTURB and the
valid samples that count (R213, R216, R222, R236). -/
structure Taking where
  pair : Bool
  gain : Nat
  ref : Nat
  refOk : Bool
  disturbed : Bool
  mux : Nat
  cap : Nat
  deriving DecidableEq, Repr

/-- How core `c` takes samples for entry `e` now. -/
def takingOf (s : State) (c e : Nat) : Taking :=
  let m := s.rd (Fld.ADC_ENTRY_A_MUX c e)
  { pair := s.rdB (Fld.ADC_CORE_CFG_PAIR_EN c), gain := 2 ^ s.rd (Fld.ADC_ENTRY_A_GAIN c e), ref := vref s (c / 4), refOk := refOk s c,
    disturbed := s.bit (Fld.ADC_CORE_STATUS_DISTURB c) m, mux := m,
    cap := if s.rd (Fld.ADC_ENTRY_A_MODE c e) = 1 then 1048575 else s.rd (Fld.ADC_ENTRY_B_BURST_N c e) + 1 }

/-- One sample instant of the running entry `e` (R222 to R225, R229, R231, R236), at which the input has `uv` microvolts: excluded after a
change, without the reference, at an injection and while the input is disturbed. Once a window has its 1,048,575 valid samples, R222 ignores
the later ones and R224 does not say whether their excluded instants count: EXCL counts none of them (DESIGN CHOICE, assumption 101). -/
def takeSample (s : State) (c e : Nat) (t : Taking) (q : AdcCore) (uv : Int) : AdcCore :=
  let x1 := adcCode (if t.pair then 1 else t.gain) t.ref uv
  let x8 := adcCode 8 t.ref uv
  let inj := injectedAt s c t.mux q.next
  let clean := q.exclude == 0 && t.refOk && !t.disturbed
  let q := if inj || injectedAt s c t.mux (q.next + 1) || injectedAt s c t.mux (q.next - 1) then
      { q with near := q.near ++ [⟨q.next, t.mux, x1, clean⟩] } else q
  let q := { q with next := q.next + 1, exclude := q.exclude - 1 }
  if t.cap ≤ q.n then q
  else if !clean || inj then { q with excl := Nat.min 0xFFF (q.excl + 1) }
  else
    let v := sampleValue t.pair x8 x1
    let r := runStep q.runs (2 * e) (if t.pair then x8 else x1)
    let r := if t.pair then runStep r (2 * e + 1) x1 else r
    { q with sum := q.sum + v.1, n := q.n + 1, src := q.src || v.2, runs := r }

/-- The running entry `x` has had its last sample instant (R220, R224): a burst its N valid samples, a window every instant up to t_close. -/
def entryEnded (s : State) (c : Nat) (x : AdcQ) (q : AdcCore) : Bool :=
  if s.rd (Fld.ADC_ENTRY_A_MODE c x.entry) = 1 then
    (match x.closeAt with | some t => decide (5 * t < instantAt s q.next) | none => false)
  else decide (s.rd (Fld.ADC_ENTRY_B_BURST_N c x.entry) < q.n)

/-- The running entry takes sample instants until it has ended. -/
def gather (s : State) (c : Nat) (x : AdcQ) (t : Taking) : List Int → AdcCore → AdcCore
  | [], q => q
  | v :: l, q => if entryEnded s c x q then q else gather s c x t l (takeSample s c x.entry t q v)

/-! ### Results (R220 to R224, R229, R230, R233) -/

/-- FRZ_N of an entry as it acts (R233, R248). -/
def frzN (s : State) (c e : Nat) : Nat :=
  let n := s.rd (Fld.ADC_ENTRY_B_FRZ_N c e)
  if n = 1 then 2 else n

/-- A run of the entry has reached FRZ_N (R233). -/
def runFrozen (s : State) (c e : Nat) (q : AdcCore) : Bool :=
  decide (frzN s c e ≠ 0) && (decide (frzN s c e ≤ (Tab.get (0, 0) q.runs (2 * e)).2)
    || (s.rdB (Fld.ADC_CORE_CFG_PAIR_EN c) && decide (frzN s c e ≤ (Tab.get (0, 0) q.runs (2 * e + 1)).2)))

/-- FROZEN of an entry takes a value; a rise is an event (R233). `repeatRun` is bit 16 of the datum (R237). -/
def setFrozen (c e : Nat) (v repeatRun : Bool) (s : State) : State :=
  let rise := v && !s.rdB (Fld.ADC_RESULT_FROZEN c e)
  let s := s.wrB (Fld.ADC_RESULT_FROZEN c e) v
  if rise then (s.wrBit (Fld.ADC_ENTRY_EVENTS_FRZ_EV c) e true).logOnce 0x10 0x0003 c (adcDatum c e + bitIf repeatRun 16)
  else s

/-- The result and count registers of an entry are written from what core state `q` has gathered, in cycle `cycle` of the tick (R223, R224,
R230); the first result of a tick makes its input ready (R281). -/
def writeResult (c e cycle : Nat) (q : AdcCore) (s : State) : State :=
  let s := s.setCore c (if (Tab.get none q.wroteAt e).isSome then q else { q with wroteAt := Tab.set none q.wroteAt e (some cycle) })
  let s := countEv 0x080 c 1 (when (q.n == 0) (countEv 0x081 c 1) (s.wrB (Fld.ADC_RESULT_VALID c e) (decide (1 ≤ q.n))))
  let s := if 1 ≤ q.n then s.wr (Fld.ADC_RESULT_VALUE c e) ((q.sum + q.n / 2) / q.n) else s
  let s := s.wr (Fld.ADC_RESULT_SEQ c e) ((s.rd (Fld.ADC_RESULT_SEQ c e) + 1) % 256)
  let s := s.wrB (Fld.ADC_RESULT_SRC c e) q.src
  let s := s.wrB (Fld.ADC_RESULT_OW c e) (s.bit (Fld.ADC_CORE_STATUS_OPEN c) (s.rd (Fld.ADC_ENTRY_A_MUX c e)))
  let s := (s.wr (Fld.ADC_NCOUNT_NVALID c e) q.n).wr (Fld.ADC_NCOUNT_EXCL c e) q.excl
  setFrozen c e (runFrozen s c e q) true s

/-- A core without a running entry converts and discards (R210). -/
def idleSamples (k : Nat) (q : AdcCore) : AdcCore := { q with next := q.next + k, exclude := q.exclude - k }

/-- ENTRY_RESULT (R213, R220 to R224): core `c` takes its next sample instants, at which the input it converts has the levels `l` in
microvolts; once the running entry has had its last one, its result is written in cycle `cycle` of the tick. -/
def execEntryResult (c : Fin 40) (l : List Int) (cycle : BitVec 13) (s : State) : Host.Outcome State Fault Refusal :=
  run (fun s =>
    if !sampling s then s
    else match (s.core c.val).running with
    | none => s.setCore c.val (idleSamples l.length (s.core c.val))
    | some x =>
      let q := gather s c.val x (takingOf s c.val x.entry) l (s.core c.val)
      if entryEnded s c.val x q then writeResult c.val x.entry cycle.toNat { q with running := none } s else s.setCore c.val q) s

/-- ENTRY_START (R219, R221): the core is free and serves its queue; where t_close of a queued window lies before the sample instant at which
it would start, its empty result is written at once, in cycle `cycle` of the tick. -/
def execEntryStart (c : Fin 40) (cycle : BitVec 13) (s : State) : Host.Outcome State Fault Refusal :=
  run (fun s =>
    let q := s.core c.val
    match nextQueued q.queue with
    | none => s
    | some x =>
      if q.running.isSome || !entriesRun s then s
      else
        let s := s.setCore c.val { q with queue := q.queue.erase x }
        if entryEnded s c.val x { q with n := 0 } then
          let s := (s.wrBit (Fld.ADC_ENTRY_EVENTS_LATE_EV c.val) x.entry true).logOnce 0x10 0x0006 c.val (adcDatum c.val x.entry)
          writeResult c.val x.entry cycle.toNat { s.core c.val with sum := 0, n := 0, excl := 0, src := false } s
        else startEntry c.val x q.next s) s

/-- At a control-tick edge each FRESH entry that wrote no result in the ending tick has FROZEN set (R233), unless the check is suspended for
that tick. What the tick wrote stands until `ticksForget`. -/
def stallCheck (s : State) : State :=
  forEach adcCores (fun c s =>
    let q := s.core c
    let off := q.stallOff == 1 || q.stallOff == 2
    if !coreUsed s c || off then s
    else forEach (List.range 16) (fun e s =>
      when (s.rdB (Fld.ADC_ENTRY_A_EN c e) && s.rdB (Fld.ADC_ENTRY_A_FRESH c e) && (Tab.get none q.wroteAt e).isNone)
        (setFrozen c e true false) s) s) s

/-- The new tick has written no result yet (R20, R281); a suspension of the stall check goes on. -/
def ticksForget (s : State) : State :=
  forEach adcCores (fun c s =>
    let q := s.core c
    if q = restCore && !coreUsed s c then s
    else s.putCore c { q with wroteAt := [], stallOff := if q.stallOff = 3 then 1 else q.stallOff - 1 }) s

/-! ### References, open wires and power (R215, R216, R231, R234, R696) -/

/-- The four cores of group `g`. -/
def groupCores (g : Nat) : List Nat := [4 * g, 4 * g + 1, 4 * g + 2, 4 * g + 3]

/-- REF_OK of group `g` falls (R216). -/
def refFalls (g : Nat) (s : State) : State :=
  if !s.rdB (Fld.ADC_REF_CFG_REF_OK (4 * g)) then s
  else
    let hit := (groupCores g).filter (fun c => (s.core c).running.isSome)
    let s := s.wr (Fld.ADC_REF_CFG_REF_OK (4 * g)) 0
    let s := forEach hit (fun c s => s.wr (Fld.ADC_CORE_EVENTS_REF_LOST c) 1) s
    let s := forEach (groupCores g) (fun c s => s.setCore c (s.core c)) s
    if hit.isEmpty then s else s.logOnce 0x10 0x0001 (4 * g) (g * 2 ^ 24)

/-- REF_LOST (R216). -/
def execRefLost (g : Fin 10) (s : State) : Host.Outcome State Fault Refusal := run (refFalls g.val) s

/-- REF_RESTORED (R215, R216): the rise of REF_OK is a change on every core of the group. -/
def execRefRestored (g : Fin 10) (s : State) : Host.Outcome State Fault Refusal :=
  run (fun s => if s.rdB (Fld.ADC_REF_CFG_REF_OK (4 * g.val)) || !s.bit Fld.DOM_STATUS_ON 15 then s
    else
      let s := (s.wr (Fld.ADC_REF_CFG_REF_OK (4 * g.val)) 1).logOnce 0x10 0x0002 (4 * g.val) (g.val * 2 ^ 24)
      forEach (groupCores g.val) (fun c s => s.setCore c (coreChange (s.core c))) s) s

/-- OPEN of input `m` of core `c` takes a value (R231). -/
def setOpen (c m : Nat) (v : Bool) (s : State) : State :=
  let was := s.bit (Fld.ADC_CORE_STATUS_OPEN c) m
  let s := s.wrBit (Fld.ADC_CORE_STATUS_OPEN c) m v
  if v && !was then (s.wrBit (Fld.ADC_CORE_EVENTS_OW_EV c) m true).logOnce 0x10 0x0004 c (4 * c + m)
  else if !v && was then s.logOnce 0x10 0x0005 c (4 * c + m)
  else s

/-- A code that clips cannot show the step (R231). -/
def clipped (x : Nat) : Bool := x == 0 || x == 16383

/-- The four instants around the injection instant `o` of input `m`, t - 8 ns to t + 16 ns, all taken by running entries on the input without
change or other exclusion (R231): their codes. -/
def nearCodes (q : AdcCore) (m : Nat) (o : Int) : Option (List Nat) :=
  let at' (k : Int) : Option Nat := (q.near.find? (fun x => x.k == k && x.mux == m && x.clean)).map (·.code)
  match at' (o - 1), at' o, at' (o + 1), at' (o + 2) with
  | some a, some b, some c, some d => some [a, b, c, d]
  | _, _, _, _ => none

/-- OPEN_WIRE_CHECK (R229, R231): the check of input `m` at its injection instant of this frame, or of the frame before; a slave's inputs are
not converted. Each injection is judged once. -/
def execOpenWireCheck (c : Fin 40) (m : Fin 4) (s : State) : Host.Outcome State Fault Refusal :=
  run (fun s =>
    let q := s.core c.val
    let o : Int := s.rd (Fld.ADC_OW_OFS_OW_OFS c.val m.val)
    let now := (nearCodes q m.val o).isSome
    let k := if now then o else o - 2500
    match nearCodes q m.val k with
    | some [a, b, _, d] =>
      if s.bit (Fld.ADC_OW_CFG_OW_EN c.val) m.val && coreUsed s c.val && decide (o ≤ 2499) && sampling s && !clipped a && !clipped b && !clipped d then
        let s := s.putCore c.val { q with near := q.near.filter (fun x => !(x.mux == m.val && decide (k - 1 ≤ x.k ∧ x.k ≤ k + 2))) }
        setOpen c.val m.val (decide (2 * s.rd (Fld.ADC_OW_CFG_OW_THR c.val) < (2 * (b : Int) - (a + d : Nat)).natAbs)) s
      else s
    | _ => s) s

/-- Running and queued entries of every core are discarded without a result, as the clock is lost (R234). -/
def adcClockLost (s : State) : State :=
  forEach adcCores (fun c s => if s.core c = restCore then s
    else s.setCore c { coreChange (s.core c) with running := none, queue := [], due := [], near := [], stallOff := 2 }) s

/-- Ticks resume (R225, R233): a change on every core, and the stall check is suspended for the first tick. -/
def adcResume (s : State) : State :=
  forEach adcCores (fun c s => if s.core c = restCore then s else s.putCore c { coreChange (s.core c) with stallOff := 2 }) s

/-- The registers of a core that its power-up resets: all of its window (R234). -/
def inCore (c a : Nat) : Bool := decide (Reg.adcBase c ≤ a ∧ a < Reg.adcBase c + 0x1000)

/-- Core `c` is powered down (R234): what it held is lost; its registers take their reset values. -/
def adcCoreOff (c : Nat) (s : State) : State :=
  { s with adc := Tab.set restCore s.adc c restCore, regs := Tab.keep (fun a => !inCore c a) s.regs }

/-- Core `c` is the odd half of a pair (R229). -/
def slaveCore (s : State) (c : Nat) : Bool := c % 2 == 1 && s.rdB (Fld.ADC_CORE_CFG_PAIR_EN (c - 1))

/-- The entries, results and open-wire settings of a slave read zero (R229, R244). -/
def slaveZero (c : Nat) (s : State) : State :=
  let s := forEach (List.range 16) (fun e s =>
    (((s.setReg (Reg.ADC_ENTRY_A c e) 0#32).setReg (Reg.ADC_ENTRY_B c e) 0#32).setReg (Reg.ADC_RESULT c e) 0#32).setReg (Reg.ADC_NCOUNT c e) 0#32) s
  forEach [0, 1, 2, 3] (fun m s => s.setReg (Reg.ADC_OW_OFS c m) 0#32) (s.setReg (Reg.ADC_OW_CFG c) 0#32)

/-- What a section cannot give core `c` (R229, R238, R244, R246): PAIR_EN on an odd core, SLAVE but by the pair, ADC_REF_CFG but at cores 4g. -/
def coreTidy (c : Nat) (s : State) : State :=
  let s := when (c % 2 == 1) (fun s => s.wr (Fld.ADC_CORE_CFG_PAIR_EN c) 0) s
  let s := s.wrB (Fld.ADC_CORE_CFG_SLAVE c) (slaveCore s c)
  let s := when (slaveCore s c) (slaveZero c) s
  when (c % 4 != 0) (fun s => s.setReg (Reg.ADC_REF_CFG c) 0#32) s

/-- Every core has what the section can give it. -/
def adcTidy (s : State) : State := forEach adcCores coreTidy s

/-- The input that ATEST_n carries, 0 to 159 (R659). -/
def atestInput (s : State) (n : Nat) : Option Nat :=
  if s.rd (Fld.DBG_ATEST_SEL_GROUP n) = 1 then some (s.rd (Fld.DBG_ATEST_SEL_INDEX n)) else none

/-- DISTURB of one input follows the routes (R236); its fall is a change of the core (R225, R660). -/
def disturbEval (m : Nat) (s : State) : State :=
  let c := m / 4
  let now := decide (atestInput s 0 = some m) || decide (atestInput s 1 = some m)
  let was := s.bit (Fld.ADC_CORE_STATUS_DISTURB c) (m % 4)
  let s := s.wrBit (Fld.ADC_CORE_STATUS_DISTURB c) (m % 4) now
  if now && !was then (s.wr (Fld.ADC_CORE_EVENTS_DISTURB_EV c) 1).logOnce 0x10 0x0009 c m
  else if was && !now then s.setCore c (coreChange (s.core c))
  else s

/-- The routes that stand disturb the inputs of cores that have powered up (R236). -/
def disturbAll (s : State) : State :=
  forEach [0, 1] (fun n s => match atestInput s n with | some m => disturbEval m s | none => s) s

/-- Some cores have powered up with the ADC section (R225, R233, R234): STATE, 12 excluded samples, the stall check suspended. -/
def coresStart (l : List Nat) (s : State) : State :=
  disturbAll (forEach l (fun c s => s.setCore c { restCore with exclude := 12 }) (adcTidy s))

/-- After a load of the ADC section by a boot, a reload or a power-up. -/
def adcLoaded (s : State) : State := coresStart adcCores s

/-- The groups whose reference the section changes between two states (R696). -/
def refChanged (old new : State) : List Nat :=
  (List.range 10).filter (fun g => decide (old.rd (Fld.ADC_REF_CFG_SEL (4 * g)) ≠ new.rd (Fld.ADC_REF_CFG_SEL (4 * g)))
    || (s1 new g && decide (old.rd (Fld.ADC_REF_CFG_EXT_NOM (4 * g)) ≠ new.rd (Fld.ADC_REF_CFG_EXT_NOM (4 * g)))))
where
  /-- EXT_NOM acts only with SEL 1 (R246). -/
  s1 (s : State) (g : Nat) : Bool := s.rd (Fld.ADC_REF_CFG_SEL (4 * g)) == 1

/-- A core that has joined or left a pair converts another input or at another gain: a change (R225, R229). A slave runs and queues nothing. -/
def corePaired (old : State) (c : Nat) (s : State) : State :=
  if slaveCore old c = slaveCore s c ∧ old.rdB (Fld.ADC_CORE_CFG_PAIR_EN c) = s.rdB (Fld.ADC_CORE_CFG_PAIR_EN c) then s
  else
    let q := { coreChange (s.core c) with settings := none }
    s.putCore c (if slaveCore s c then { q with running := none, queue := [], due := [], near := [] } else q)

/-- After an activation that changes the ADC section (R185, R229, R696): REF_OK of a group whose reference changes falls, and cores join or leave
pairs; nothing else is disturbed. -/
def adcChanged (old s : State) : State :=
  let s := adcTidy s
  let s := forEach adcCores (corePaired old) s
  let s := forEach (refChanged old s) refFalls s
  forEach adcCores (fun c s => s.setCore c (s.core c)) s

/-- An activation suspends the stall check for its first tick (R233); the tick that ends there is still checked. -/
def adcSuspendStall (s : State) : State :=
  forEach adcCores (fun c s => if s.rdB (Fld.ADC_CORE_CFG_EN c) then
      s.putCore c { s.core c with stallOff := if (s.core c).stallOff = 0 then 3 else 2 } else s) s

end Sys2Proof.Machine
end

