-- ==== Sys2Proof/Machine/Pins.lean ====
section
/-!
DEFINITION. Machine/Pins.lean: what the output balls show (R48, R52, R57 to R61 of spec/02_package_and_pins.md): low through the passive
resistor, undriven, released, or driven by the block behind them, in every condition of the table of R57.
-/
namespace Sys2Proof.Machine

/-- What a ball shows (R48, R57): its level, or that nothing drives it; `signal` where it carries its function's signal, `source` where it
carries an analogue source of R659, `centivolts` where it is a voltage. -/
inductive PinLevel where
  | passiveLow | undriven | released | low | high | idle | toggling | signal | source (group index : Nat) | centivolts (v : Nat)
  deriving DecidableEq, Repr

/-- A driven level. -/
def PinLevel.drive (b : Bool) : PinLevel := if b then .high else .low

/-- PWMH_p, PWML_p, SOUT_n and TP_OUT_n are driven low and REG_EN_nn hold their levels while EXTEST or INTEST is selected (R60). -/
def scanHolds (s : State) : Bool := s.dbg.tap == 0x03 || s.dbg.tap == 0x04

/-- The column "Reset" of R57: up to the first image activation. -/
def pinsReset (s : State) : Bool := decide (s.img.phase ≠ .booted)

/-- A debugger has halted the lockstep core or the loop engine: the column "Halt" of R57. -/
def pinsHalt (s : State) : Bool := s.ls.coreHalted || s.ls.engHalted

/-- The power-on reset of the control die's output stage has released for a bank (R58): the die's supply and the bank's are good. -/
def driverOn (s : State) (b : Nat) : Bool := s.mainOn && s.pwr.ctSupply && s.pwr.bankPresent.testBit b

/-- The outputs of a bank are driven: not while its driver is disabled (R58), nor while the bank is set in MISMATCH (R53). -/
def bankDriven (s : State) (b : Nat) : Bool := driverOn s b && !s.bit Fld.IO_BANK_STATUS_MISMATCH b

/-- PWMH_p or PWML_p (R57, R58, R60): what the pair's output stage drives. -/
def pwmPin (s : State) (p : Nat) (high : Bool) : PinLevel :=
  if !bankDriven s (pairBank p) then .passiveLow
  else if scanHolds s then .low
  else .drive (s.rdB (if high then Fld.PWM_STATUS_OUT_H p else Fld.PWM_STATUS_OUT_L p))

/-- SOUT_n (R57, R58, R60, R518). -/
def soutPin (s : State) (n : Nat) : PinLevel :=
  if !bankDriven s 7 then .passiveLow else .drive (s.bit Fld.SOUT_STATE_ON n && !scanHolds s)

/-- TP_OUT_k between its test pulses (R57, R60, R516): high while the safety I/O runs. -/
def tpPin (s : State) : PinLevel :=
  if !bankDriven s 6 then .undriven
  else .drive (s.safe.loaded && s.rdB Fld.CLK_STATUS_CTRL_LOCK && !pinsReset s && !pinsHalt s && !scanHolds s)

/-- POUT_j (R57, R502): high during its pulse. -/
def poutPin (s : State) (j : Nat) : PinLevel :=
  if !bankDriven s 5 then .undriven
  else .drive ((Tab.get ⟨0, none⟩ s.meter.outs j).phase.any Prod.fst && s.rdB Fld.CLK_STATUS_CTRL_LOCK && !pinsReset s)

/-- SD_TX of a lane (R57, R105): electrical idle in a reset and without the Ridgeline's clock or that of its SerDes group; no output while its
domain is off. -/
def sdTxPin (s : State) (l : Nat) : PinLevel :=
  if !s.mainOn then .undriven
  else if pinsReset s then .idle
  else if !s.bit Fld.DOM_STATUS_ON (5 + l / 16) then .undriven
  else if !s.rdB Fld.CLK_STATUS_RG_LOCK || !s.bit Fld.CLK_STATUS_SD_LOCK (l / 32) then .idle else .signal

/-- SYNCE_CLK_n (R57, R109, R121): driven low while disabled, squelched, or without the Ridgeline's clock. -/
def syncePin (s : State) (n : Nat) : PinLevel :=
  let on := if n = 0 then s.rdB Fld.SYNCE_CFG_EN0 && !s.rdB Fld.SYNCE_CFG_SQ0 else s.rdB Fld.SYNCE_CFG_EN1 && !s.rdB Fld.SYNCE_CFG_SQ1
  if !s.mainOn || !s.pwr.bankPresent.testBit 1 then .undriven
  else if pinsReset s || !s.rdB Fld.CLK_STATUS_RG_LOCK || !on then .low else .signal

/-- The levels on REG_EN_00 to REG_EN_15: those of the latches, held while a scan instruction holds them (R57, R60, R71, R95). -/
def regEnOut (s : State) : Nat := if scanHolds s then s.dbg.heldEn else s.pwr.regEn

/-- REG_EN_n (R57): low through its resistor while the main domain is off. -/
def regEnPin (s : State) (n : Nat) : PinLevel := if !s.mainOn then .passiveLow else .drive ((regEnOut s).testBit n)

/-- The outputs of serial port `n` are undriven: the column "Reset", no supply, or a port that is off (R57). -/
def cspUndriven (s : State) (n : Nat) : Bool :=
  !s.mainOn || !s.pwr.bankPresent.testBit 0 || pinsReset s || !s.rdB (Fld.CSP_CFG_EN n)

/-- CSPn_CLK of a master port (R57, R105, R631): it rests at its idle level without the application clock. A slave's is an input. -/
def cspClkPin (s : State) (n : Nat) : PinLevel :=
  if cspUndriven s n || !s.rdB (Fld.CSP_CFG_MODE n) then .undriven
  else if s.rdB Fld.CLK_STATUS_APP_LOCK && s.rdB (Fld.CSP_XFER_BUSY n) then .signal
  else .drive (s.rdB (Fld.CSP_CFG_CPOL n))

/-- CSPn_CS_N of a master port (R57, R631): low for a transfer. A slave's is an input. -/
def cspCsPin (s : State) (n : Nat) : PinLevel :=
  if cspUndriven s n || !s.rdB (Fld.CSP_CFG_MODE n) then .undriven else .drive (!s.rdB (Fld.CSP_XFER_BUSY n))

/-- CSPn_DO (R57, R631): the port's data out. -/
def cspDoPin (s : State) (n : Nat) : PinLevel := if cspUndriven s n then .undriven else .signal

/-- PMB_SCL and PMB_SDA (R57). -/
def pmbPin (s : State) : PinLevel := if !s.mainOn || pinsReset s then .released else .signal

/-- The signal that OBS_n mirrors (R658); ticks, strands, whole seconds and heartbeats are pulses. -/
def obsSignal (s : State) (g i : Nat) : PinLevel :=
  match g with
  | 1 => if i = 2 then .drive (s.rdB Fld.SCHED_CFG_TICK_RUN) else .signal
  | 2 => .drive (s.rdB (Fld.PWM_STATUS_OUT_H i) && !scanHolds s)
  | 3 => .drive (s.rdB (Fld.PWM_STATUS_OUT_L i) && !scanHolds s)
  | 4 => .drive (s.bit Fld.TL_STATUS_TL i)
  | 5 => .drive (if i < 32 then s.bit Fld.WIN_RAW_HI i else s.bit Fld.WIN_RAW_LO (i - 32))
  | 7 => .drive (s.rdB (Fld.RG_LANE_STATUS_AM_LOCK i))
  | _ => .signal

/-- OBS_n (R48, R57, R658): low unless it is routed, and where its die has no clock. -/
def obsPin (s : State) (n : Nat) : PinLevel :=
  let g := s.rd (Fld.DBG_OBS_SEL_GROUP n)
  if !s.mainOn || !s.pwr.bankPresent.testBit 0 then .undriven
  else if pinsReset s || decide (g = 0) then .low
  else if g ≤ 6 then (if s.rdB Fld.CLK_STATUS_CTRL_LOCK then obsSignal s g (s.rd (Fld.DBG_OBS_SEL_INDEX n)) else .low)
  else if s.rdB Fld.CLK_STATUS_RG_LOCK && s.rdB Fld.CLK_STATUS_APP_LOCK then obsSignal s g (s.rd (Fld.DBG_OBS_SEL_INDEX n)) else .low

/-- ATEST_n (R48, R57, R659): high impedance unless routed. -/
def atestPin (s : State) (n : Nat) : PinLevel :=
  if !s.mainOn || pinsReset s || decide (s.rd (Fld.DBG_ATEST_SEL_GROUP n) = 0) then .undriven
  else .source (s.rd (Fld.DBG_ATEST_SEL_GROUP n)) (s.rd (Fld.DBG_ATEST_SEL_INDEX n))

/-- TDO (R48, R57): undriven except while shifting, when it carries the scan data. -/
def tdoPin (s : State) (shifting : Bool) : PinLevel :=
  if !s.mainOn || !s.pwr.bankPresent.testBit 0 || pinsReset s || !shifting then .undriven else .signal

/-- PLL_LOCK (R49, R57, R102): the voltage of the ball; it falls to 0 V in a reset and with the control PLL lost, where nothing injects its
charge. -/
def pllLockPin (s : State) : PinLevel :=
  .centivolts (if !s.mainOn || !s.rdB Fld.CLK_STATUS_CTRL_LOCK then 0 else s.rd Fld.CLK_STATUS_LOCK_V)

/-- BYP_HOLD_A and BYP_HOLD_B (R57, R62): the square wave, or low. -/
def bypHoldPin (s : State) (r : Nat) : PinLevel :=
  if s.lan.mode = .stopped then .passiveLow
  else if s.rdB (if r = 0 then Fld.BYP_PINS_HOLD_A else Fld.BYP_PINS_HOLD_B) then .toggling else .low

/-- The pull-up of BYP_POS_A or BYP_POS_B is enabled only while the matching hold is driven (R48). -/
def bypPosPull (s : State) (r : Nat) : Bool := bypHoldPin s r == .toggling

/-- WAKE_OUT (R57, R134). -/
def wakeOutPin (s : State) : PinLevel := if s.lan.mode = .stopped then .passiveLow else .drive s.lan.wakeOut

/-- What the boundary-scan register observes (R60): PWMH_p and PWML_p of each pair, SOUT_n, TP_OUT_n and REG_EN_nn, in this order from bit 0
(the order of the cells is the BSDL file's: DESIGN CHOICE, assumption 70). -/
def scanWord (s : State) : Nat :=
  let l := (pairs.flatMap (fun p => [pwmPin s p true, pwmPin s p false])) ++ (List.range 16).map (soutPin s)
    ++ (List.range 8).map (fun _ => tpPin s) ++ (List.range 16).map (regEnPin s)
  l.foldr (fun x m => 2 * m + (x == .high).toNat) 0

end Sys2Proof.Machine
end

