-- ==== Sys2Proof/Machine/Debug.lean ====
section
/-!
DEFINITION. Machine/Debug.lean: test access (R655 to R663, R671, R672 of spec/21_counters_and_observation.md): unlocks, the
observation and analogue test pins, the TAP, and halts by a debugger (R59, R307, R429, R477, R478).
-/
namespace Sys2Proof.Machine

/-- The TAP selects an instruction: one that holds REG_EN_nn keeps the levels that it found, and its end gives them back to the latches (R60). -/
def tapTo (code : Nat) (s : State) : State :=
  let held := regEnOut s
  let s := { s with dbg := { s.dbg with tap := code, heldEn := held } }
  if regEnOut s = held then s else s.wr Fld.RAIL_STATUS_EN (regEnOut s)

/-! ### Test access (R655, R671) -/

/-- The scope in force (R655, R671): 0xF while the lifecycle opens access, that of the token during an unlock, else none. -/
def testScope (s : State) : Nat :=
  if s.otp.lifecycle ≤ 1 then 15
  else if s.otp.lifecycle = 2 ∧ s.dbg.unlockLeft.isSome = true then s.rd Fld.DBG_UNLOCK_SCOPE
  else 0

/-- Test access is open (R655). -/
def testOpen (s : State) : Bool := decide (s.otp.lifecycle ≤ 1) || (s.otp.lifecycle == 2 && s.dbg.unlockLeft.isSome)

/-- A scope bit is in force: 0 OBS, 1 ATEST, 2 JTAG test instructions, 3 DEBUG (R656). -/
def scopeBit (b : Nat) (s : State) : Bool := testOpen s && (testScope s).testBit b

/-- DBG_UNLOCK shows the access in force (R671). -/
def dbgShow (s : State) : State :=
  let s := (s.wr Fld.DBG_UNLOCK_SCOPE (testScope s)).wrB Fld.DBG_UNLOCK_OPEN (testOpen s)
  match s.dbg.unlockLeft with
  | some n => s.wr Fld.DBG_UNLOCK_MIN_LEFT ((n + 2999999) / 3000000)
  | none => (s.wr Fld.DBG_UNLOCK_MIN_LEFT 0).wr Fld.DBG_UNLOCK_SESSION 0

/-! ### Observation and analogue test pins (R658 to R660) -/

/-- The number of signals of an observation group (R658); none for a group that is not listed. Group 0 has no index. -/
def obsLimit (g : Nat) : Option Nat :=
  match g with
  | 0 => some 256 | 1 => some 3 | 2 => some 72 | 3 => some 72 | 4 => some 16 | 5 => some 64 | 6 => some 4 | 7 => some 128
  | 8 => some 1 | 9 => some 1 | _ => none

/-- The number of sources of an analogue test group (R659). -/
def atestLimit (g : Nat) : Option Nat :=
  match g with
  | 0 => some 256 | 1 => some 160 | 2 => some 10 | 3 => some 1 | 4 => some 64 | 5 => some 1 | _ => none

/-- A route word names a source of its list. -/
def routeOk (limit : Nat → Option Nat) (v : Word) : Bool :=
  match limit (v.toNat / 256 % 16) with | some n => decide (v.toNat % 256 < n) | none => false

/-- A write of a route register: locked unless its scope bit is in force (R655, R672); an INDEX outside the range returns
BAD_ARG; an effective write is logged in the change log (R194). -/
def routeWrite (i : Initiator) (a scope : Nat) (limit : Nat → Option Nat) (v : Word) (f : State → State) (s : State) : State :=
  let v := v &&& 0xFFF#32
  if s.reg a = v then s
  else if !scopeBit scope s then refuseLocked a s
  else if !routeOk limit v then s.answerSt .badArg
  else logged i 4 a (newOf v.toNat) f s

/-- OBS_n takes a route (R658). -/
def obsRoute (i : Initiator) (n : Nat) (v : Word) (s : State) : State :=
  routeWrite i (Reg.DBG_OBS_SEL n) 0 obsLimit v (fun s => s.setReg (Reg.DBG_OBS_SEL n) (v &&& 0xFFF#32)) s

/-- A route of ATEST_n is put in place: the input it leaves and the one it takes are judged anew. -/
def atestPut (n : Nat) (v : Word) (s : State) : State :=
  let old := atestInput s n
  let s := s.setReg (Reg.DBG_ATEST_SEL n) v
  let s := match old with | some m => disturbEval m s | none => s
  match atestInput s n with | some m => disturbEval m s | none => s

/-- ATEST_ROUTE (R659, R236): a write of DBG_ATEST_SEL_n. -/
def atestRoute (i : Initiator) (n : Nat) (v : Word) (s : State) : State :=
  routeWrite i (Reg.DBG_ATEST_SEL n) 1 atestLimit v (atestPut n (v &&& 0xFFF#32)) s

/-- ATEST_ROUTE (R659). -/
def execAtestRoute (i : Initiator) (n : Fin 2) (v : Word) (s : State) : Host.Outcome State Fault Refusal :=
  run (writeAdmitted i (Reg.DBG_ATEST_SEL n.val) (atestRoute i n.val v)) s

/-! ### Halts by a debugger (R59, R307, R429, R477, R478, R662) -/

/-- Lockstep broken outside test-stand mode (R478): the safety outputs go off and lock out, after the resume LOCKSTEP holds every pair, and an
engine that is no longer compared stays stopped. -/
def brokenSafety (s : State) : State :=
  if s.rdB Fld.LS_STATUS_LOCKSTEP_BROKEN && !s.rdB Fld.SAFE_STATUS_TEST_STAND then
    let s := enterLockout 7 0 (if s.rd Fld.LS_STATUS_ENG_STATE = 3 then engineStops s else s)
    if s.ls.coreHalted || s.ls.engHalted then s
    else settleTrips noPulse { s with ls := { s.ls with trip := true } }
  else s

/-- The checker stops comparing a unit: bit 0 of `unit` is the core, bit 1 the engine (R477, R480). A mismatch is held (R474). -/
def lockstepBroken (unit : Nat) (s : State) : State :=
  let s := (s.wr Fld.LS_STATUS_LOCKSTEP_BROKEN 1).wr Fld.LS_STATUS_BROKEN_UNIT (s.rd Fld.LS_STATUS_BROKEN_UNIT ||| unit)
  let s := when (unit.testBit 0 && decide (s.rd Fld.LS_STATUS_CORE_STATE ≠ 2)) (fun s => s.wr Fld.LS_STATUS_CORE_STATE 3) s
  let s := when (unit.testBit 1 && decide (s.rd Fld.LS_STATUS_ENG_STATE ≠ 2)) (fun s => s.wr Fld.LS_STATUS_ENG_STATE 3) s
  (s.wr Fld.LS_EVENTS_BROKEN_EV 1).logEv 0x18 0x0002 (unit + bitIf (s.rdB Fld.SAFE_STATUS_TEST_STAND) 8)

/-- A debugger halts units: the lockstep core, the loop engine, and application cores by mask. A halt of application cores
alone changes no output (R59) and suspends the supervision of their heartbeat (R662). -/
def debugHalt (core eng : Bool) (apps : Nat) (s : State) : State :=
  let s := s.wr Fld.DBG_HALT_STATUS_APP (s.rd Fld.DBG_HALT_STATUS_APP ||| apps)
  let s := s.logEv 0x22 0x0004 (bitIf core 0 + bitIf eng 1 + apps * 16)
  if !core && !eng then s
  else
    let s := { s with ls := { s.ls with coreHalted := s.ls.coreHalted || core, engHalted := s.ls.engHalted || eng } }
    let s := when core (fun s => s.wr Fld.DBG_HALT_STATUS_CORE 1) s
    let s := when eng (fun s => ((s.wr Fld.DBG_HALT_STATUS_ENGINE 1).wr Fld.LE_STATUS_DBG_HALT 1).wr Fld.LE_STATUS_RUN 0) s
    brokenSafety (settleTrips noPulse (lockstepBroken (bitIf core 0 + bitIf eng 1) s))

/-- The TAP's DEBUG instruction gives access while its scope bit is in force (R661, R662). -/
def debugAccess (s : State) : Bool := s.dbg.tap == 0x10 && scopeBit 3 s

/-- DEBUG_HALT (R662): through the DEBUG instruction. -/
def execDebugHalt (core eng : Bool) (apps : BitVec 4) (s : State) : Host.Outcome State Fault Refusal :=
  run (fun s => if debugAccess s && (core || eng || decide (apps ≠ 0#4)) then debugHalt core eng apps.toNat s else s) s

/-- Every unit halted by a debugger resumes (R307, R478, R662): outside test-stand mode LOCKSTEP then holds every pair until
a control-domain reset. The pairs stay tripped, and an engine that may run starts by ENGINE_START. -/
def debugResume (s : State) : State :=
  let s := when (s.rdB Fld.DBG_HALT_STATUS_APP) (fun s => { s with lan := { s.lan with appAge := 0 } }) s
  let s := s.wr Fld.DBG_HALT_STATUS_APP 0
  if !s.ls.coreHalted && !s.ls.engHalted then s
  else
    let s := { s with ls := { s.ls with coreHalted := false, engHalted := false } }
    let s := ((s.wr Fld.DBG_HALT_STATUS_CORE 0).wr Fld.DBG_HALT_STATUS_ENGINE 0).wr Fld.LE_STATUS_DBG_HALT 0
    let s := if s.rdB Fld.SAFE_STATUS_TEST_STAND then s else { s with ls := { s.ls with trip := true } }
    settleTrips noPulse (when (s.rdB Fld.SAFE_STATUS_LOCKED) outputsOff s)

/-- DEBUG_RESUME (R307, R478). -/
def execDebugResume (s : State) : Host.Outcome State Fault Refusal :=
  run (fun s => if debugAccess s then debugResume s else s) s

/-! ### The end of an unlock (R657) -/

/-- Test access closes: every route returns to none, and the TAP goes to Test-Logic-Reset (R655, R657). -/
def accessShut (s : State) : State :=
  let s := tapTo 1 { s with dbg := { s.dbg with unlockLeft := none } }
  let s := forEach [0, 1, 2, 3] (fun n s => s.setReg (Reg.DBG_OBS_SEL n) 0#32) s
  dbgShow (forEach [0, 1] (fun n s => atestPut n 0#32 s) s)

/-- An unlock ends: every route returns to none, the TAP to Test-Logic-Reset, halted units resume (R657, R663): `reason` is
1 = time, 2 = session, 3 = LOCK, 4 = reset or lifecycle. -/
def unlockEnd (reason : Nat) (s : State) : State :=
  if s.dbg.unlockLeft.isNone then s
  else (debugResume (accessShut s)).logEv 0x22 0x0002 reason

/-- A frame of an unlock passes. -/
def unlockFrame (s : State) : State :=
  match s.dbg.unlockLeft with
  | some n => dbgShow { s with dbg := { s.dbg with unlockLeft := some (n - 1) } }
  | none => s

/-- UNLOCK_END (R657): MINUTES have elapsed. The other ends follow from their own commands. -/
def execUnlockEnd (s : State) : Host.Outcome State Fault Refusal :=
  run (fun s => if s.dbg.unlockLeft = some 0 then unlockEnd 1 s else s) s

/-- A write of DBG_UNLOCK with LOCK = 1: accepted only from the session that made the unlock (R657, R671). -/
def dbgLock (i : Initiator) (s : State) : State :=
  match i with
  | .session k =>
    if s.dbg.unlockLeft.isSome && s.rd Fld.DBG_UNLOCK_SESSION == k.val then unlockEnd 3 s else s.answerSt .denied
  | _ => s.answerSt .denied

/-- DBG_LOCK (R671). -/
def execDbgLock (i : Initiator) (s : State) : Host.Outcome State Fault Refusal :=
  run (writeAdmitted i Reg.DBG_UNLOCK (dbgLock i)) s

/-! ### The TAP (R60, R661) -/

/-- The instruction that a code selects (R60, R655, R661): any other code, and one outside the scope in force, acts as
BYPASS. -/
def tapSelect (code : Nat) (s : State) : Nat :=
  if code = 0x01 ∨ code = 0x02 then code
  else if 0x03 ≤ code ∧ code ≤ 0x06 then (if scopeBit 2 s then code else 0xFF)
  else if code = 0x10 then (if scopeBit 3 s then code else 0xFF)
  else 0xFF

/-- An instruction is loaded into the TAP. -/
def tapLoad (code : Nat) (s : State) : State := tapTo (tapSelect code s) s

/-- The boundary-scan register is captured and shifted out, where its instruction was accepted (R60, R661). -/
def scanOut (s : State) : State := if s.dbg.tap = 0xFF then s else s.send (.tap (scanWord s))

/-- The identification word (R661). -/
def idcode : Nat := Config.devId.toNat / 256 % 16 * 2 ^ 28 + 0x6400 * 2 ^ 12 + Config.makerId % 2048 * 2 + 1

/-- IDCODE (R661): the identification register is shifted out. -/
def execIdcode (s : State) : Host.Outcome State Fault Refusal := run (fun s => (tapLoad 0x01 s).send (.tap idcode)) s
/-- SAMPLE/PRELOAD (R60, R661): accepted at all times; the boundary-scan register observes the outputs and no output changes. -/
def execSamplePreload (s : State) : Host.Outcome State Fault Refusal := run (fun s => scanOut (tapLoad 0x02 s)) s
/-- EXTEST (R60). -/
def execExtest (s : State) : Host.Outcome State Fault Refusal := run (fun s => scanOut (tapLoad 0x03 s)) s
/-- INTEST (R60). -/
def execIntest (s : State) : Host.Outcome State Fault Refusal := run (fun s => scanOut (tapLoad 0x04 s)) s
/-- EXTEST_PULSE (R661). -/
def execExtestPulse (s : State) : Host.Outcome State Fault Refusal := run (tapLoad 0x05) s
/-- EXTEST_TRAIN (R661). -/
def execExtestTrain (s : State) : Host.Outcome State Fault Refusal := run (tapLoad 0x06) s
/-- BYPASS (R661): the code 0xFF, or any code that is not listed or not permitted. -/
def execBypass (s : State) : Host.Outcome State Fault Refusal := run (tapLoad 0xFF) s
/-- DEBUG (R661, R662). -/
def execDebug (s : State) : Host.Outcome State Fault Refusal := run (tapLoad 0x10) s

end Sys2Proof.Machine
end

