-- ==== Sys2Proof/Machine/Operands.lean ====
section
/-!
DEFINITION. Machine/Operands.lean: the register space as a table (R3 to R10 of spec/00_scope.md, R40 and R41 of
spec/01_architecture.md): for every register its place, the access code of each of its bits, who unlocks its RWL fields, and which
section of the image loads which of its bits.
-/
namespace Sys2Proof.Machine

/-- Who unlocks the RWL fields of a register (R8): each register's own rule names them. -/
inductive Unlock where
  | never | operator | service | fwOperatorService | coreOperatorService | safety | debug
  deriving DecidableEq, Repr

/-- A register, or an array of registers: base + s1 * i + s2 * j for i < n1 and j < n2, the bits of each access code (R5 to R9), who
unlocks its RWL bits, and the bits that a section loads, by section ID (R184; 0x20 stands for every PLOT section). -/
structure RegDesc where
  base : Nat
  s1 : Nat
  n1 : Nat
  s2 : Nat
  n2 : Nat
  ro : Nat
  rw : Nat
  rws : Nat
  rwl : Nat
  rwc : Nat
  w1c : Nat
  w1s : Nat
  wo : Nat
  rc : Nat
  unlock : Unlock
  loads : List (Nat × Nat)
  deriving DecidableEq, Repr

/-- Registers of the 64 KiB at 0x0000_0000. -/
def regs00 : List RegDesc := [
  ⟨0, 0, 1, 0, 1, 0xFFFFFFFF, 0, 0, 0, 0, 0, 0, 0, 0, .never, []⟩,  -- DEV_ID
  ⟨0x10, 0, 1, 0, 1, 0xFF0103, 0, 0, 0, 0, 0, 0, 0, 0, .never, []⟩,  -- RESET_CAUSE
  ⟨0x14, 0, 1, 0, 1, 3, 0, 0, 0, 0, 0, 0, 0, 0, .never, []⟩]  -- LIFECYCLE

/-- Registers of the 64 KiB at 0x0001_0000. -/
def regs01 : List RegDesc := [
  ⟨0x10000, 0, 1, 0, 1, 0xF70107, 0, 0, 0, 0, 0, 0, 0, 0, .never, []⟩,  -- PWR_STATE
  ⟨0x10004, 0, 1, 0, 1, 0, 0xFF10, 0, 7, 0, 0, 0, 0, 0, .fwOperatorService, []⟩,  -- PWR_CTRL
  ⟨0x10010, 0, 1, 0, 1, 0xFFFF, 0, 0, 0, 0, 0, 0, 0, 0, .never, []⟩,  -- DOM_STATUS
  ⟨0x10014, 0, 1, 0, 1, 0xE01F, 0, 0, 0x1FE0, 0, 0, 0, 0, 0, .operator, []⟩,  -- DOM_REQ
  ⟨0x10018, 0, 1, 0, 1, 0x1F0000, 0, 0, 0, 0, 0x3F, 0, 0, 0, .never, []⟩,  -- PWR_EVENTS
  ⟨0x10020, 0, 1, 0, 1, 0, 0xFF03FF, 0, 0, 0, 0, 0, 0, 0, .never, []⟩,  -- INRUSH_CFG
  ⟨0x10024, 0, 1, 0, 1, 0x1F1F03FF, 0, 0, 0, 0, 0, 0, 0, 0, .never, []⟩,  -- INRUSH_STATUS
  ⟨0x10028, 0, 1, 0, 1, 0, 0xFFFF, 0, 0, 0, 0, 0, 0, 0, .never, []⟩,  -- DRAIN_CFG
  ⟨0x10040, 0, 1, 0, 1, 0xFFFFFFFF, 0, 0, 0, 0, 0, 0, 0, 0, .never, []⟩,  -- RAIL_STATUS
  ⟨0x10100, 4, 16, 0, 1, 0xFF0FFF0F, 0, 0, 0, 0, 0, 0, 0, 0, .never, []⟩,  -- RAIL_CFG
  ⟨0x10800, 0, 1, 0, 1, 0xFFFFFFFF, 0, 0, 0, 0, 0, 0, 0, 0, .never, []⟩]  -- IO_BANK_STATUS

/-- Registers of the 64 KiB at 0x0002_0000. -/
def regs02 : List RegDesc := [
  ⟨0x20000, 0, 1, 0, 1, 0xFFFF010F, 0, 0, 0, 0, 0, 0, 0, 0, .never, []⟩,  -- CLK_STATUS
  ⟨0x20004, 0, 1, 0, 1, 0, 0, 0, 0, 0, 0x1FFCF, 0, 0, 0, .never, []⟩,  -- CLK_EVENTS
  ⟨0x20010, 0, 1, 0, 1, 0xF3F3, 0, 0, 0, 0, 0, 0, 0, 0, .never, []⟩,  -- SSC_CFG
  ⟨0x20100, 0, 1, 0, 1, 0xFFFFFFFF, 0, 0, 0, 0, 0, 0, 0, 0, .never, []⟩,  -- RT_NOW_LO
  ⟨0x20104, 0, 1, 0, 1, 0xFFFFFFFF, 0, 0, 0, 0, 0, 0, 0, 0, .never, []⟩,  -- RT_NOW_HI
  ⟨0x20110, 0, 1, 0, 1, 0xFFFF0331, 0, 0, 0, 0, 0, 0, 0, 0, .never, []⟩,  -- TIME_SYNC
  ⟨0x20120, 0, 1, 0, 1, 0x80008000, 0, 0, 0xFF00FF, 0, 0, 0, 0, 0, .operator, [(3, 0xFF00FF)]⟩,  -- SYNCE_CFG
  ⟨0x20400, 0, 1, 0, 1, 0x133, 0, 0, 0, 0, 0, 0, 0, 0, .never, [(5, 0x33)]⟩,  -- SCHED_CFG
  ⟨0x20404, 0, 1, 0, 1, 0xF0310, 0, 0, 0, 0, 0xF, 0, 0, 0, .never, []⟩]  -- SCHED_STATUS

/-- Registers of the 64 KiB at 0x0003_0000. -/
def regs03 : List RegDesc := [
  ⟨0x30000, 0, 1, 0, 1, 0xC07FB111, 0, 0, 0, 0, 0, 0, 0, 0, .never, []⟩,  -- LAN_STATUS
  ⟨0x30004, 0, 1, 0, 1, 0, 0, 0, 0, 0, 0x1FFF, 0, 0, 0, .never, []⟩,  -- LAN_EVENTS
  ⟨0x30010, 0, 1, 0, 1, 0xFFFFFFFF, 0, 0, 0, 0, 0, 0, 0, 0, .never, []⟩,  -- RTC_LO
  ⟨0x30014, 0, 1, 0, 1, 0xFFFF, 0, 0, 0, 0, 0, 0, 0, 0, .never, []⟩,  -- RTC_HI
  ⟨0x30018, 0, 1, 0, 1, 0, 0, 0, 0x103FF, 0, 0, 0, 0, 0, .service, [(0x10, 0x103FF)]⟩,  -- RTC_TRIM
  ⟨0x30020, 0, 1, 0, 1, 0, 0, 0, 0xFFFFFFFF, 0, 0, 0, 0, 0, .service, [(0x10, 0xFFFFFFFF)]⟩,  -- WAKE_TIMER
  ⟨0x30100, 0, 1, 0, 1, 0, 0, 0, 0xFFF303, 0, 0, 0, 0, 0, .service, [(0x10, 0xFFF303)]⟩,  -- POWER_CFG
  ⟨0x30200, 0, 1, 0, 1, 0, 0, 0, 0x800F0000, 0, 0, 0, 0, 0, .service, [(0x10, 0x800F0000)]⟩,  -- BIV_CFG
  ⟨0x30210, 4, 4, 0, 1, 0, 0, 0, 0xEFFFFFFF, 0, 0, 0, 0, 0, .service, [(0x10, 0xEFFFFFFF)]⟩,  -- LMON_CFG
  ⟨0x30220, 0, 1, 0, 1, 0xFFF0FFF, 0, 0, 0, 0, 0, 0, 0, 0, .never, []⟩,  -- LMON_DATA_01
  ⟨0x30224, 0, 1, 0, 1, 0xFFF0FFF, 0, 0, 0, 0, 0, 0, 0, 0, .never, []⟩,  -- LMON_DATA_23
  ⟨0x30228, 0, 1, 0, 1, 0xFFF0FFF, 0, 0, 0, 0, 0, 0, 0, 0, .never, []⟩,  -- SUPPLY_DATA
  ⟨0x30300, 0, 1, 0, 1, 0, 0, 0, 0xFF01, 0, 0, 0, 0x80000000, 0, .service, [(0x10, 0xFF01)]⟩,  -- HB_CTRL
  ⟨0x30400, 0, 1, 0, 1, 0x3F, 0, 0, 0, 0, 0xC0, 0, 0, 0, .never, []⟩,  -- BYP_PINS
  ⟨0x30500, 0, 1, 0, 1, 0xFFFF07FF, 0, 0, 0, 0, 0, 0, 0, 0, .never, []⟩,  -- LOG_STATUS
  ⟨0x30504, 0, 1, 0, 1, 0xFFFFFFFF, 0, 0, 0, 0, 0, 0, 0, 0, .never, []⟩,  -- LOG_OVF
  ⟨0x30508, 0, 1, 0, 1, 0, 0x3FF, 0, 0, 0, 0, 0, 0x80000000, 0, .never, []⟩,  -- LOG_CTRL
  ⟨0x30510, 4, 4, 0, 1, 0xFFFFFFFF, 0, 0, 0, 0, 0, 0, 0, 0, .never, []⟩]  -- LOG_E

/-- Registers of the 64 KiB at 0x0004_0000. -/
def regs04 : List RegDesc := [
  ⟨0x40000, 0, 1, 0, 1, 0xF3FF07, 0, 0, 0, 0, 0x78, 0, 0, 0, .never, []⟩,  -- IMG_STATUS
  ⟨0x40004, 0, 1, 0, 1, 0xFFFFFFFF, 0, 0, 0, 0, 0, 0, 0, 0, .never, []⟩,  -- ACT_EPOCH
  ⟨0x40008, 0, 1, 0, 1, 0xFFFFFFFF, 0, 0, 0, 0, 0, 0, 0, 0, .never, []⟩,  -- STG_EPOCH
  ⟨0x4000C, 0, 1, 0, 1, 0, 0, 0, 0xFFFFFFFF, 0, 0, 0, 0, 0, .operator, []⟩,  -- EXP_EPOCH
  ⟨0x40010, 4, 4, 0, 1, 0xFFFFFFFF, 0, 0, 0, 0, 0, 0, 0, 0, .never, []⟩,  -- ACT_DIGEST
  ⟨0x40020, 4, 4, 0, 1, 0xFFFFFFFF, 0, 0, 0, 0, 0, 0, 0, 0, .never, []⟩,  -- STG_DIGEST
  ⟨0x40030, 4, 4, 0, 1, 0, 0, 0, 0xFFFFFFFF, 0, 0, 0, 0, 0, .operator, []⟩,  -- EXP_DIGEST
  ⟨0x40050, 0, 1, 0, 1, 0xFFFFFFFF, 0, 0, 0, 0, 0, 0, 0, 0, .never, []⟩,  -- ACT_AT_LO
  ⟨0x40054, 0, 1, 0, 1, 0xFFFF, 0, 0, 0, 0, 0, 0, 0, 0, .never, []⟩,  -- ACT_AT_HI
  ⟨0x40060, 0, 1, 0, 1, 0xF000FF01, 0, 0, 0, 0, 0xFF0002, 0, 0, 0, .never, []⟩,  -- AGREE_STATUS
  ⟨0x40070, 4, 4, 0, 1, 0xFFFFFFFF, 0, 0, 0, 0, 0, 0, 0, 0, .never, []⟩,  -- NBR_EPOCH
  ⟨0x40080, 0x10, 4, 4, 4, 0xFFFFFFFF, 0, 0, 0, 0, 0, 0, 0, 0, .never, []⟩,  -- NBR_DIGEST
  ⟨0x40100, 0, 1, 0, 1, 0xFF000000, 0, 0, 0, 0xF, 0, 0, 0, 0, .never, []⟩,  -- CS_GRID
  ⟨0x40104, 0, 1, 0, 1, 0xFF000100, 0, 0, 0, 1, 0, 0, 0, 0, .never, []⟩,  -- CS_ROLE
  ⟨0x40108, 0, 1, 0, 1, 0xFF000000, 0, 0, 0, 0, 0, 0, 0, 0, .never, []⟩,  -- CS_SPW
  ⟨0x4010C, 0, 1, 0, 1, 0xFF000000, 0, 0, 0, 0, 0, 0, 0, 0, .never, []⟩,  -- CS_TOKEN
  ⟨0x40110, 0, 1, 0, 1, 0x3F00FF, 0, 0, 0, 0, 0, 0, 0, 0, .never, []⟩,  -- IMG_KEYS
  ⟨0x40200, 0, 1, 0, 1, 0x7F, 0, 0, 0, 0, 0, 0, 0, 0, .never, []⟩,  -- CLOG_STATUS
  ⟨0x40204, 0, 1, 0, 1, 0xFFFFFFFF, 0, 0, 0, 0, 0, 0, 0, 0, .never, []⟩]  -- CLOG_SEQ

/-- Registers of the 64 KiB at 0x0010_0000. -/
def regs10 : List RegDesc := [
  ⟨0x100000, 0x1000, 32, 0, 1, 0x10103, 0, 0, 0, 0, 0, 0, 0, 0, .never, [(6, 0x10103)]⟩,  -- ADC_CORE_CFG
  ⟨0x100004, 0x1000, 32, 0, 1, 0xFF1F3F, 0, 0, 0, 0, 0, 0, 0, 0xFF000000, .never, []⟩,  -- ADC_CORE_STATUS
  ⟨0x100008, 0x1000, 32, 0, 1, 0, 0, 0, 0, 0, 0xF001F, 0, 0, 0, .never, []⟩,  -- ADC_CORE_EVENTS
  ⟨0x10000C, 0x1000, 32, 0, 1, 0, 0, 0, 0, 0, 0xFFFFFFFF, 0, 0, 0, .never, []⟩,  -- ADC_ENTRY_EVENTS
  ⟨0x100010, 0x1000, 32, 0, 1, 0, 0, 0, 0, 0, 0, 0, 0x8000000F, 0, .never, []⟩,  -- ADC_URG_REQ
  ⟨0x100014, 0x1000, 32, 0, 1, 0, 0, 0, 0, 0, 0, 0xFFFF, 0, 0, .never, []⟩,  -- ADC_SW_TRIG
  ⟨0x100020, 0x1000, 32, 0, 1, 0xF, 0, 0, 0xFF0, 0, 0, 0, 0, 0, .service, [(6, 0xFFF)]⟩,  -- ADC_OW_CFG
  ⟨0x100024, 0x1000, 32, 4, 4, 0xFFF, 0, 0, 0, 0, 0, 0, 0, 0, .never, [(6, 0xFFF), (0x7F, 0xFFF)]⟩,  -- ADC_OW_OFS
  ⟨0x100040, 0x1000, 32, 0, 1, 0x8000FF03, 0, 0, 0, 0, 0, 0, 0, 0, .never, [(6, 0xFF03)]⟩,  -- ADC_REF_CFG
  ⟨0x100100, 0x1000, 32, 8, 16, 0xFFFFFF80, 0, 0, 0, 0, 0, 0, 0, 0, .never, [(6, 0xFFFFFF80)]⟩,  -- ADC_ENTRY_A
  ⟨0x100104, 0x1000, 32, 8, 16, 0xF0FF00, 0, 0, 0xFF000000, 0, 0, 0, 0, 0, .service, [(6, 0xFFF0FF00)]⟩,  -- ADC_ENTRY_B
  ⟨0x100200, 0x1000, 32, 4, 16, 0xFFFFFFFF, 0, 0, 0, 0, 0, 0, 0, 0, .never, []⟩,  -- ADC_RESULT
  ⟨0x100240, 0x1000, 32, 4, 16, 0xFFFFFFFF, 0, 0, 0, 0, 0, 0, 0, 0, .never, []⟩]  -- ADC_NCOUNT

/-- Registers of the 64 KiB at 0x0013_0000. -/
def regs13 : List RegDesc := [
  ⟨0x130000, 0x1000, 8, 0, 1, 0x10103, 0, 0, 0, 0, 0, 0, 0, 0, .never, [(6, 0x10103)]⟩,  -- ADC_CORE_CFG
  ⟨0x130004, 0x1000, 8, 0, 1, 0xFF1F3F, 0, 0, 0, 0, 0, 0, 0, 0xFF000000, .never, []⟩,  -- ADC_CORE_STATUS
  ⟨0x130008, 0x1000, 8, 0, 1, 0, 0, 0, 0, 0, 0xF001F, 0, 0, 0, .never, []⟩,  -- ADC_CORE_EVENTS
  ⟨0x13000C, 0x1000, 8, 0, 1, 0, 0, 0, 0, 0, 0xFFFFFFFF, 0, 0, 0, .never, []⟩,  -- ADC_ENTRY_EVENTS
  ⟨0x130010, 0x1000, 8, 0, 1, 0, 0, 0, 0, 0, 0, 0, 0x8000000F, 0, .never, []⟩,  -- ADC_URG_REQ
  ⟨0x130014, 0x1000, 8, 0, 1, 0, 0, 0, 0, 0, 0, 0xFFFF, 0, 0, .never, []⟩,  -- ADC_SW_TRIG
  ⟨0x130020, 0x1000, 8, 0, 1, 0xF, 0, 0, 0xFF0, 0, 0, 0, 0, 0, .service, [(6, 0xFFF)]⟩,  -- ADC_OW_CFG
  ⟨0x130024, 0x1000, 8, 4, 4, 0xFFF, 0, 0, 0, 0, 0, 0, 0, 0, .never, [(6, 0xFFF), (0x7F, 0xFFF)]⟩,  -- ADC_OW_OFS
  ⟨0x130040, 0x1000, 8, 0, 1, 0x8000FF03, 0, 0, 0, 0, 0, 0, 0, 0, .never, [(6, 0xFF03)]⟩,  -- ADC_REF_CFG
  ⟨0x130100, 0x1000, 8, 8, 16, 0xFFFFFF80, 0, 0, 0, 0, 0, 0, 0, 0, .never, [(6, 0xFFFFFF80)]⟩,  -- ADC_ENTRY_A
  ⟨0x130104, 0x1000, 8, 8, 16, 0xF0FF00, 0, 0, 0xFF000000, 0, 0, 0, 0, 0, .service, [(6, 0xFFF0FF00)]⟩,  -- ADC_ENTRY_B
  ⟨0x130200, 0x1000, 8, 4, 16, 0xFFFFFFFF, 0, 0, 0, 0, 0, 0, 0, 0, .never, []⟩,  -- ADC_RESULT
  ⟨0x130240, 0x1000, 8, 4, 16, 0xFFFFFFFF, 0, 0, 0, 0, 0, 0, 0, 0, .never, []⟩]  -- ADC_NCOUNT

/-- Registers of the 64 KiB at 0x0012_0000. -/
def regs12 : List RegDesc := [
  ⟨0x120000, 0x10, 32, 0, 1, 0xFFFFFF00, 0, 0, 0, 0, 0, 0, 0, 0, .never, [(7, 0xFFFFFF00)]⟩,  -- WIN_CFG
  ⟨0x120004, 0x10, 32, 0, 1, 0, 0, 0, 0x3FF03FF, 0, 0, 0, 0, 0, .coreOperatorService, [(7, 0x3FF03FF)]⟩,  -- WIN_DAC
  ⟨0x120008, 0x10, 32, 0, 1, 0xFFFF, 0, 0, 0, 0, 0, 0, 0, 0, .never, [(7, 0xFFFF)]⟩,  -- WIN_ROUTE
  ⟨0x120200, 0, 1, 0, 1, 0xFFFFFFFF, 0, 0, 0, 0, 0, 0, 0, 0, .never, []⟩,  -- WIN_LATCH_HI
  ⟨0x120204, 0, 1, 0, 1, 0xFFFFFFFF, 0, 0, 0, 0, 0, 0, 0, 0, .never, []⟩,  -- WIN_LATCH_LO
  ⟨0x120208, 0, 1, 0, 1, 0xFFFFFFFF, 0, 0, 0, 0, 0, 0, 0, 0, .never, []⟩,  -- WIN_RAW_HI
  ⟨0x12020C, 0, 1, 0, 1, 0xFFFFFFFF, 0, 0, 0, 0, 0, 0, 0, 0, .never, []⟩,  -- WIN_RAW_LO
  ⟨0x120210, 0, 1, 0, 1, 0, 0, 0, 0, 0, 0, 0, 0xFFFFFFFF, 0, .never, []⟩,  -- WIN_CLR
  ⟨0x120220, 0, 1, 0, 1, 0, 0, 0, 0, 0, 0xFFFFFFFF, 0, 0, 0, .never, []⟩,  -- WIN_CLR_REF
  ⟨0x120224, 0, 1, 0, 1, 0, 0, 0, 0, 0, 0xFFFFFFFF, 0, 0, 0, .never, []⟩,  -- WIN_TRIP_EV
  ⟨0x120228, 0, 1, 0, 1, 0xFFFFFFFF, 0, 0, 0, 0, 0, 0, 0, 0, .never, []⟩,  -- WIN_CHK_FAIL
  ⟨0x120240, 0, 1, 0, 1, 0x40000000, 0, 0, 0, 0, 0x30000000, 0, 0x8300011F, 0, .never, []⟩,  -- WIN_CHK_CTRL
  ⟨0x120260, 0, 1, 0, 1, 0xFFFF, 0, 0, 0, 0, 0, 0, 0, 0, .never, []⟩]  -- TL_STATUS

/-- Registers of the 64 KiB at 0x0014_0000. -/
def regs14 : List RegDesc := [
  ⟨0x140000, 0, 1, 0, 1, 0xFFFFF7, 0, 0, 0, 0, 0, 0, 0, 0, .never, []⟩,  -- LE_STATUS
  ⟨0x140004, 0, 1, 0, 1, 0, 0, 0, 0, 0, 0x7F, 0, 0, 0, .never, []⟩,  -- LE_EVENTS
  ⟨0x140010, 0, 1, 0, 1, 0, 0, 0, 0, 0, 0, 0, 0xF0000000, 0, .never, []⟩,  -- LE_BANK_CTRL
  ⟨0x140014, 0, 1, 0, 1, 0, 0xFFFFFFFF, 0, 0, 0, 0, 0, 0, 0, .never, []⟩,  -- LE_SWAP_AT_LO
  ⟨0x140018, 0, 1, 0, 1, 0, 0xFFFF, 0, 0, 0, 0, 0, 0, 0, .never, []⟩,  -- LE_SWAP_AT_HI
  ⟨0x140020, 4, 4, 0, 1, 0xFFFFFFFF, 0, 0, 0, 0, 0, 0, 0, 0, .never, []⟩,  -- LE_BANK_DIGEST
  ⟨0x140040, 4, 4, 0, 1, 0xFFFF, 0, 0, 0, 0, 0, 0, 0, 0xFFFF0000, .never, []⟩,  -- LE_STRAND_USE
  ⟨0x140080, 4, 3, 0, 1, 0xFFFFFFFF, 0, 0, 0, 0, 0, 0, 0, 0, .never, []⟩,  -- LE_SLOT_STALE
  ⟨0x140090, 4, 3, 0, 1, 0xFFFFFFFF, 0, 0, 0, 0, 0, 0, 0, 0, .never, []⟩,  -- LE_SLOT_HALT
  ⟨0x1400A0, 4, 3, 0, 1, 0, 0, 0, 0, 0, 0, 0, 0xFFFFFFFF, 0, .never, []⟩,  -- LE_REARM
  ⟨0x1400B0, 4, 4, 0, 1, 0xFFFFFFFF, 0, 0, 0, 0, 0, 0, 0, 0, .never, []⟩,  -- LE_OP_STALE
  ⟨0x141000, 0x20, 96, 0, 1, 0xFFFFFF00, 0, 0, 0, 0, 0, 0, 0, 0, .never, [(8, 0xFFFFFF00)]⟩,  -- SLOT_SRC
  ⟨0x141004, 0x20, 96, 0, 1, 0xFFFFFFFC, 0, 0, 0, 0, 0, 0, 0, 0, .never, [(8, 0xFFFFFFFC)]⟩,  -- SLOT_EXEC
  ⟨0x141008, 0x20, 96, 0, 1, 0xFFFFFFFC, 0, 0, 0, 0, 0, 0, 0, 0, .never, [(8, 0xFFFFFFFC)]⟩,  -- SLOT_SEC
  ⟨0x14100C, 0x20, 96, 0, 1, 0xFFFF1FFF, 0, 0, 0, 0, 0, 0, 0, 0, .never, [(8, 0xFFFF1FFF)]⟩,  -- SLOT_WAIT
  ⟨0x141010, 0x20, 96, 0, 1, 0, 0xFFFFFFFF, 0, 0, 0, 0, 0, 0, 0, .never, [(8, 0xFFFFFFFF)]⟩,  -- SLOT_SP
  ⟨0x141014, 0x20, 96, 0, 1, 0xFFFFFFFF, 0, 0, 0, 0, 0, 0, 0, 0, .never, []⟩,  -- SLOT_OUT
  ⟨0x141018, 0x20, 96, 0, 1, 0xF7FE1FFF, 0, 0, 0, 0, 0x8000000, 0, 0, 0, .never, []⟩,  -- SLOT_STATUS
  ⟨0x142000, 4, 192, 0, 1, 0xFFF00000, 0, 0, 0, 0, 0, 0, 0, 0, .never, [(8, 0xFFF00000)]⟩,  -- IN_CFG
  ⟨0x143000, 0x20, 128, 0, 1, 0xFFFFFFFF, 0, 0, 0, 0, 0, 0, 0, 0, .never, [(8, 0xFFFFFFFF)]⟩,  -- OP_CTL
  ⟨0x143004, 0x20, 128, 0, 1, 0xFFF0FFF, 0, 0, 0, 0, 0, 0, 0, 0, .never, [(8, 0xFFF0FFF)]⟩,  -- OP_IN01
  ⟨0x143008, 0x20, 128, 0, 1, 0xFFF0FFF, 0, 0, 0, 0, 0, 0, 0, 0, .never, [(8, 0xFFF0FFF)]⟩,  -- OP_IN23
  ⟨0x14300C, 0x20, 128, 0, 1, 0x1FFF0FFF, 0, 0, 0, 0, 0, 0, 0, 0, .never, [(8, 0x1FFF0FFF)]⟩,  -- OP_IN4
  ⟨0x143010, 0x20, 128, 4, 4, 0xFFFFFFFF, 0, 0, 0, 0, 0, 0, 0, 0, .never, []⟩]  -- OP_OUT

/-- Registers of the 64 KiB at 0x0015_0000. -/
def regs15 : List RegDesc := [
  ⟨0x150000, 0x20, 96, 0, 1, 0, 0xFFFFFFFF, 0, 0, 0, 0, 0, 0, 0, .never, []⟩,  -- SLOT_OUT_MIN
  ⟨0x150004, 0x20, 96, 0, 1, 0, 0xFFFFFFFF, 0, 0, 0, 0, 0, 0, 0, .never, []⟩,  -- SLOT_OUT_MAX
  ⟨0x150008, 0x20, 96, 0, 1, 0, 0xFFFFFFFF, 0, 0, 0, 0, 0, 0, 0, .never, []⟩,  -- SLOT_RISE
  ⟨0x15000C, 0x20, 96, 0, 1, 0, 0xFFFFFFFF, 0, 0, 0, 0, 0, 0, 0, .never, []⟩,  -- SLOT_FALL
  ⟨0x150010, 0x20, 96, 0, 1, 0, 0xFFFFFFFF, 0, 0, 0, 0, 0, 0, 0, .never, []⟩,  -- SLOT_FF_W
  ⟨0x150014, 0x20, 96, 0, 1, 0, 0xFFFFFFFF, 0, 0, 0, 0, 0, 0, 0, .never, []⟩,  -- SLOT_RAMP
  ⟨0x151000, 0x10, 192, 0, 1, 0, 0xFFFFF, 0, 0, 0, 0, 0, 0, 0, .never, []⟩,  -- IN_OFFS
  ⟨0x151004, 0x10, 192, 0, 1, 0, 0xFFFFFFFF, 0, 0, 0, 0, 0, 0, 0, .never, []⟩,  -- IN_GAIN
  ⟨0x151008, 0x10, 192, 0, 1, 0, 0x1F, 0, 0, 0, 0, 0, 0, 0, .never, []⟩,  -- IN_SHIFT
  ⟨0x152000, 0x20, 128, 4, 4, 0, 0xFFFFFFFF, 0, 0, 0, 0, 0, 0, 0, .never, []⟩,  -- OP_P
  ⟨0x154000, 0x20, 512, 0, 1, 0, 0xFFFFFFFF, 0, 0, 0, 0, 0, 0, 0, .never, []⟩,  -- SEC_B0
  ⟨0x154004, 0x20, 512, 0, 1, 0, 0xFFFFFFFF, 0, 0, 0, 0, 0, 0, 0, .never, []⟩,  -- SEC_B1
  ⟨0x154008, 0x20, 512, 0, 1, 0, 0xFFFFFFFF, 0, 0, 0, 0, 0, 0, 0, .never, []⟩,  -- SEC_B2
  ⟨0x15400C, 0x20, 512, 0, 1, 0, 0xFFFFFFFF, 0, 0, 0, 0, 0, 0, 0, .never, []⟩,  -- SEC_A1
  ⟨0x154010, 0x20, 512, 0, 1, 0, 0xFFFFFFFF, 0, 0, 0, 0, 0, 0, 0, .never, []⟩]  -- SEC_A2

/-- Registers of the 64 KiB at 0x0016_0000. -/
def regs16 : List RegDesc := [
  ⟨0x160000, 0x20, 96, 0, 1, 0xFFFFFFFF, 0, 0, 0, 0, 0, 0, 0, 0, .never, []⟩,  -- SLOT_OUT_MIN_ACT
  ⟨0x160004, 0x20, 96, 0, 1, 0xFFFFFFFF, 0, 0, 0, 0, 0, 0, 0, 0, .never, []⟩,  -- SLOT_OUT_MAX_ACT
  ⟨0x160008, 0x20, 96, 0, 1, 0xFFFFFFFF, 0, 0, 0, 0, 0, 0, 0, 0, .never, []⟩,  -- SLOT_RISE_ACT
  ⟨0x16000C, 0x20, 96, 0, 1, 0xFFFFFFFF, 0, 0, 0, 0, 0, 0, 0, 0, .never, []⟩,  -- SLOT_FALL_ACT
  ⟨0x160010, 0x20, 96, 0, 1, 0xFFFFFFFF, 0, 0, 0, 0, 0, 0, 0, 0, .never, []⟩,  -- SLOT_FF_W_ACT
  ⟨0x160014, 0x20, 96, 0, 1, 0xFFFFFFFF, 0, 0, 0, 0, 0, 0, 0, 0, .never, []⟩,  -- SLOT_RAMP_ACT
  ⟨0x161000, 0x10, 192, 0, 1, 0xFFFFF, 0, 0, 0, 0, 0, 0, 0, 0, .never, []⟩,  -- IN_OFFS_ACT
  ⟨0x161004, 0x10, 192, 0, 1, 0xFFFFFFFF, 0, 0, 0, 0, 0, 0, 0, 0, .never, []⟩,  -- IN_GAIN_ACT
  ⟨0x161008, 0x10, 192, 0, 1, 0x1F, 0, 0, 0, 0, 0, 0, 0, 0, .never, []⟩,  -- IN_SHIFT_ACT
  ⟨0x162000, 0x20, 128, 4, 4, 0xFFFFFFFF, 0, 0, 0, 0, 0, 0, 0, 0, .never, []⟩,  -- OP_P_ACT
  ⟨0x164000, 0x20, 512, 0, 1, 0xFFFFFFFF, 0, 0, 0, 0, 0, 0, 0, 0, .never, []⟩,  -- SEC_B0_ACT
  ⟨0x164004, 0x20, 512, 0, 1, 0xFFFFFFFF, 0, 0, 0, 0, 0, 0, 0, 0, .never, []⟩,  -- SEC_B1_ACT
  ⟨0x164008, 0x20, 512, 0, 1, 0xFFFFFFFF, 0, 0, 0, 0, 0, 0, 0, 0, .never, []⟩,  -- SEC_B2_ACT
  ⟨0x16400C, 0x20, 512, 0, 1, 0xFFFFFFFF, 0, 0, 0, 0, 0, 0, 0, 0, .never, []⟩,  -- SEC_A1_ACT
  ⟨0x164010, 0x20, 512, 0, 1, 0xFFFFFFFF, 0, 0, 0, 0, 0, 0, 0, 0, .never, []⟩]  -- SEC_A2_ACT

/-- Registers of the 64 KiB at 0x0017_0000. -/
def regs17 : List RegDesc := [
  ⟨0x170000, 0x10, 512, 0, 1, 0xFFFFFFFF, 0, 0, 0, 0, 0, 0, 0, 0, .never, []⟩,  -- SEC_S1_LO
  ⟨0x170004, 0x10, 512, 0, 1, 0xFF, 0, 0, 0, 0, 0, 0, 0, 0, .never, []⟩,  -- SEC_S1_HI
  ⟨0x170008, 0x10, 512, 0, 1, 0xFFFFFFFF, 0, 0, 0, 0, 0, 0, 0, 0, .never, []⟩,  -- SEC_S2_LO
  ⟨0x17000C, 0x10, 512, 0, 1, 0xFF, 0, 0, 0, 0, 0, 0, 0, 0, .never, []⟩]  -- SEC_S2_HI

/-- Registers of the 64 KiB at 0x0018_0000. -/
def regs18 : List RegDesc := [
  ⟨0x180000, 0x80, 9, 0, 1, 0xE0FFFFFF, 0, 0, 0, 0, 0, 0, 0, 0, .never, [(0xA, 0xE0FFFFFF)]⟩,  -- GS_CFG
  ⟨0x180004, 0x80, 9, 0, 1, 0x3FFFFFFF, 0, 0, 0, 0, 0, 0, 0, 0, .never, [(0xA, 0x3FFFFFFF)]⟩,  -- GS_SRC
  ⟨0x180008, 0x80, 9, 0, 1, 0, 0, 0, 0xFFFFFFFF, 0, 0, 0, 0, 0, .service, [(0xA, 0xFFFFFFFF), (0x7F, 0xFFFFFFFF)]⟩,  -- GS_ANG_CAL
  ⟨0x18000C, 0x80, 9, 0, 1, 0xFFFFFFFF, 0, 0, 0, 0, 0, 0, 0, 0, .never, [(0xA, 0xFFFFFFFF)]⟩,  -- GS_TIMING
  ⟨0x180010, 0x80, 9, 0x10, 3, 0, 0, 0, 0xFFFFF, 0, 0, 0, 0, 0, .service, [(0xA, 0xFFFFF), (0x7F, 0xFFFFF)]⟩,  -- GS_CAL_OFFS
  ⟨0x180014, 0x80, 9, 0x10, 3, 0, 0, 0, 0xFFFFFFFF, 0, 0, 0, 0, 0, .service, [(0xA, 0xFFFFFFFF), (0x7F, 0xFFFFFFFF)]⟩,  -- GS_CAL_GAIN
  ⟨0x180018, 0x80, 9, 0x10, 3, 0, 0, 0, 0x1F, 0, 0, 0, 0, 0, .service, [(0xA, 0x1F), (0x7F, 0x1F)]⟩,  -- GS_CAL_SHIFT
  ⟨0x180040, 0x80, 9, 0, 1, 0xFF0F, 0, 0, 0, 0, 0, 0, 0, 0, .never, []⟩,  -- GS_STATUS
  ⟨0x180044, 0x80, 9, 0, 1, 0, 0, 0, 0, 0, 7, 0, 0, 0, .never, []⟩,  -- GS_EVENTS
  ⟨0x180048, 0x80, 9, 0, 1, 0xFFFFFFFF, 0, 0, 0, 0, 0, 0, 0, 0, .never, []⟩,  -- GS_V1
  ⟨0x18004C, 0x80, 9, 0, 1, 0xFFFFFFFF, 0, 0, 0, 0, 0, 0, 0, 0, .never, []⟩,  -- GS_V2
  ⟨0x180050, 0x80, 9, 0, 1, 0xFFFFFFFF, 0, 0, 0, 0, 0, 0, 0, 0, .never, []⟩,  -- GS_VPH_MIN
  ⟨0x180054, 0x80, 9, 0, 1, 0xFFFFFFFF, 0, 0, 0, 0, 0, 0, 0, 0, .never, []⟩,  -- GS_VPH_MAX
  ⟨0x180058, 0x80, 9, 0, 1, 0xFFFFFFFF, 0, 0, 0, 0, 0, 0, 0, 0, .never, []⟩,  -- GS_VFAST
  ⟨0x18005C, 0x80, 9, 0, 1, 0xFFFFFFFF, 0, 0, 0, 0, 0, 0, 0, 0, .never, []⟩,  -- GS_THETA1
  ⟨0x180060, 0x80, 9, 0, 1, 0xFFFFFFFF, 0, 0, 0, 0, 0, 0, 0, 0, .never, []⟩,  -- GS_THETA2
  ⟨0x180064, 0x80, 9, 0, 1, 0xFFFFFFFF, 0, 0, 0, 0, 0, 0, 0, 0, .never, []⟩,  -- GS_FREQ
  ⟨0x180068, 0x80, 9, 0, 1, 0xFFFFFFFF, 0, 0, 0, 0, 0, 0, 0, 0, .never, []⟩,  -- GS_ROCOF
  ⟨0x18006C, 0x80, 9, 0, 1, 0xFFFFFFFF, 0, 0, 0, 0, 0, 0, 0, 0, .never, []⟩,  -- GS_FT_ANGLE
  ⟨0x180070, 0x80, 9, 0, 1, 0xFFFFFFFF, 0, 0, 0, 0, 0, 0, 0, 0, .never, []⟩,  -- GS_FT_V1
  ⟨0x180074, 0x80, 9, 0, 1, 0xFFFFFFFF, 0, 0, 0, 0, 0, 0, 0, 0, .never, []⟩,  -- GS_FT_FREQ
  ⟨0x181000, 0x100, 8, 0, 1, 0, 0xB800, 7, 0x4000, 0, 0, 0, 0, 0, .service, [(0xA, 0xF800)]⟩,  -- GST_CTRL
  ⟨0x181004, 0x100, 8, 0, 1, 0xFFF00FEF, 0, 0, 0, 0, 0, 0, 0, 0, .never, []⟩,  -- GST_STATUS
  ⟨0x181008, 0x100, 8, 0, 1, 0, 0, 0, 0, 0, 0x3F, 0, 0, 0, .never, []⟩,  -- GST_EVENTS
  ⟨0x181010, 0x100, 8, 0, 1, 0, 0xFFFFFFFF, 0, 0, 0, 0, 0, 0, 0, .never, []⟩,  -- GST_P_SET
  ⟨0x181014, 0x100, 8, 0, 1, 0, 0xFFFFFFFF, 0, 0, 0, 0, 0, 0, 0, .never, []⟩,  -- GST_Q_SET
  ⟨0x181018, 0x100, 8, 0, 1, 0, 0xFFFFFFFF, 0, 0, 0, 0, 0, 0, 0, .never, []⟩,  -- GST_PF_SET
  ⟨0x18101C, 0x100, 8, 0, 1, 0, 0, 0, 0xFFFFFFFF, 0, 0, 0, 0, 0, .service, [(0xA, 0xFFFFFFFF)]⟩,  -- GST_I_MAX
  ⟨0x181020, 0x100, 8, 4, 4, 0, 0xFFFFFFFF, 0, 0, 0, 0, 0, 0, 0, .never, []⟩,  -- GST_QV
  ⟨0x181030, 0x100, 8, 0, 1, 0, 0xFFFF, 0, 0, 0, 0, 0, 0, 0, .never, []⟩,  -- GST_QV_TAU
  ⟨0x181040, 0x100, 8, 4, 4, 0xFFFFFFFF, 0, 0, 0, 0, 0, 0, 0, 0, .never, []⟩,  -- GST_REF
  ⟨0x181060, 0x100, 8, 0, 1, 0xEF7F007F, 0, 0, 0, 0, 0, 0, 0, 0, .never, [(0xA, 0xEF7F007F)]⟩,  -- GST_MAP
  ⟨0x184000, 0, 1, 0, 1, 0xF, 0, 0, 0, 0, 0, 0, 0, 0, .never, []⟩,  -- GC_STAT
  ⟨0x184004, 0, 1, 0, 1, 0xFFFFFFFF, 0, 0, 0, 0, 0, 0, 0, 0, .never, []⟩,  -- GC_ENTER
  ⟨0x184008, 0, 1, 0, 1, 0xFFFFFF01, 0, 0, 0, 0, 0, 0, 0, 0, .never, []⟩,  -- GC_K
  ⟨0x18400C, 0, 1, 0, 1, 0xFFFFFFFF, 0, 0, 0, 0, 0, 0, 0, 0, .never, []⟩,  -- GC_CEASE
  ⟨0x184010, 0, 1, 0, 1, 0xFFFFFFFF, 0, 0, 0, 0, 0, 0, 0, 0, .never, []⟩,  -- GC_EN_V
  ⟨0x184014, 0, 1, 0, 1, 0xFFFFFFFF, 0, 0, 0, 0, 0, 0, 0, 0, .never, []⟩,  -- GC_EN_F
  ⟨0x184018, 0, 1, 0, 1, 0xFFFFFFFF, 0, 0, 0, 0, 0, 0, 0, 0, .never, []⟩,  -- GC_DELAY
  ⟨0x18401C, 0, 1, 0, 1, 0xFFFF0000, 0, 0, 0, 0, 0, 0, 0, 0, .never, []⟩,  -- GC_RAMP
  ⟨0x184020, 0, 1, 0, 1, 0xFFFFFFFF, 0, 0, 0, 0, 0, 0, 0, 0, .never, []⟩,  -- GC_DROOP
  ⟨0x184040, 4, 16, 0, 1, 0xFFFFFFFF, 0, 0, 0, 0, 0, 0, 0, 0, .never, []⟩,  -- GC_LV
  ⟨0x184080, 4, 16, 0, 1, 0xFFFFFFFF, 0, 0, 0, 0, 0, 0, 0, 0, .never, []⟩,  -- GC_HV
  ⟨0x1840C0, 4, 4, 0, 1, 0xFFFFFFFF, 0, 0, 0, 0, 0, 0, 0, 0, .never, []⟩]  -- GC_F

/-- Registers of the 64 KiB at 0x0019_0000. -/
def regs19 : List RegDesc := [
  ⟨0x190000, 0x80, 24, 0, 1, 0x9FFFF07F, 0x20000000, 0, 0x40000000, 0, 0, 0, 0, 0, .service, [(0xB, 0xFFFFF07F)]⟩,  -- TRK_CFG
  ⟨0x190004, 0x80, 24, 0, 1, 0xFF7F7F00, 0, 0, 0, 0, 0, 0, 0, 0, .never, [(0xB, 0xFF7F7F00)]⟩,  -- TRK_LINK
  ⟨0x190008, 0x80, 24, 0, 1, 0xFFFFFFFF, 0, 0, 0, 0, 0, 0, 0, 0, .never, [(0xB, 0xFFFFFFFF)]⟩,  -- TRK_TIMING
  ⟨0x19000C, 0x80, 24, 0, 1, 0, 0xFFFFFFFF, 0, 0, 0, 0, 0, 0, 0, .never, [(0xB, 0xFFFFFFFF)]⟩,  -- TRK_SCAN
  ⟨0x190010, 0x80, 24, 0, 1, 0, 0, 7, 0, 0, 0, 0, 0, 0, .never, []⟩,  -- TRK_CTRL
  ⟨0x190014, 0x80, 24, 0, 1, 0xFF000F0F, 0, 0, 0, 0, 0, 0, 0, 0, .never, []⟩,  -- TRK_STATUS
  ⟨0x190018, 0x80, 24, 0, 1, 0, 0, 0, 0, 0, 0xFF, 0, 0, 0, .never, []⟩,  -- TRK_EVENTS
  ⟨0x19001C, 0x80, 24, 0, 1, 0, 0xFFFFFFFF, 0, 0, 0, 0, 0, 0, 0, .never, [(0xB, 0xFFFFFFFF)]⟩,  -- TRK_WIN
  ⟨0x190020, 0x80, 24, 0, 1, 0, 0, 0, 0xFFFFFFFF, 0, 0, 0, 0, 0, .service, [(0xB, 0xFFFFFFFF)]⟩,  -- TRK_V_MIN
  ⟨0x190024, 0x80, 24, 0, 1, 0, 0, 0, 0xFFFFFFFF, 0, 0, 0, 0, 0, .service, [(0xB, 0xFFFFFFFF)]⟩,  -- TRK_V_MAX
  ⟨0x190028, 0x80, 24, 0, 1, 0, 0xFFFFFFFF, 0, 0, 0, 0, 0, 0, 0, .never, [(0xB, 0xFFFFFFFF)]⟩,  -- TRK_STEP_MIN
  ⟨0x19002C, 0x80, 24, 0, 1, 0, 0xFFFFFFFF, 0, 0, 0, 0, 0, 0, 0, .never, [(0xB, 0xFFFFFFFF)]⟩,  -- TRK_STEP_MAX
  ⟨0x190030, 0x80, 24, 0, 1, 0, 0xFFFFFFFF, 0, 0, 0, 0, 0, 0, 0, .never, [(0xB, 0xFFFFFFFF)]⟩,  -- TRK_K_ADAPT
  ⟨0x190034, 0x80, 24, 0, 1, 0, 0xFFFFFFFF, 0, 0, 0, 0, 0, 0, 0, .never, [(0xB, 0xFFFFFFFF)]⟩,  -- TRK_DB
  ⟨0x190038, 0x80, 24, 0, 1, 0, 0xFFFFFFFF, 0, 0, 0, 0, 0, 0, 0, .never, [(0xB, 0xFFFFFFFF)]⟩,  -- TRK_P_LIM
  ⟨0x19003C, 0x80, 24, 0, 1, 0, 0xFFFFFFFF, 0, 0, 0, 0, 0, 0, 0, .never, [(0xB, 0xFFFFFFFF)]⟩,  -- TRK_P_BAND
  ⟨0x190040, 0x80, 24, 0, 1, 0, 0, 0, 0xFFFFFFFF, 0, 0, 0, 0, 0, .service, [(0xB, 0xFFFFFFFF)]⟩,  -- TRK_V_START
  ⟨0x190044, 0x80, 24, 0, 1, 0, 0, 0, 0xFFFFFFFF, 0, 0, 0, 0, 0, .service, [(0xB, 0xFFFFFFFF)]⟩,  -- TRK_K_START
  ⟨0x190048, 0x80, 24, 0, 1, 0, 0, 0, 0xFFFFFFFF, 0, 0, 0, 0, 0, .service, [(0xB, 0xFFFFFFFF)]⟩,  -- TRK_I_TRIP
  ⟨0x19004C, 0x80, 24, 0, 1, 0, 0, 0, 0xFFFFFFFF, 0, 0, 0, 0, 0, .service, [(0xB, 0xFFFFFFFF)]⟩,  -- TRK_I_REV
  ⟨0x190050, 0x80, 24, 0, 1, 0, 0, 0, 0xFFFFFFFF, 0, 0, 0, 0, 0, .service, [(0xB, 0xFFFFFFFF)]⟩,  -- TRK_VDC_CURT
  ⟨0x190054, 0x80, 24, 0, 1, 0, 0, 0, 0xFFFFFFFF, 0, 0, 0, 0, 0, .service, [(0xB, 0xFFFFFFFF)]⟩,  -- TRK_VDC_RES
  ⟨0x190058, 0x80, 24, 0, 1, 0, 0, 0, 0xFFFFFFFF, 0, 0, 0, 0, 0, .service, [(0xB, 0xFFFFFFFF)]⟩,  -- TRK_CURT_STEP
  ⟨0x19005C, 0x80, 24, 0, 1, 0, 0xFFFFFFFF, 0, 0, 0, 0, 0, 0, 0, .never, [(0xB, 0xFFFFFFFF)]⟩,  -- TRK_P_STOP
  ⟨0x190060, 0x80, 24, 0, 1, 0xFFFFFFFF, 0, 0, 0, 0, 0, 0, 0, 0, .never, []⟩,  -- TRK_V_REF
  ⟨0x190064, 0x80, 24, 0, 1, 0xFFFFFFFF, 0, 0, 0, 0, 0, 0, 0, 0, .never, []⟩,  -- TRK_V_MEAN
  ⟨0x190068, 0x80, 24, 0, 1, 0xFFFFFFFF, 0, 0, 0, 0, 0, 0, 0, 0, .never, []⟩,  -- TRK_I_MEAN
  ⟨0x19006C, 0x80, 24, 0, 1, 0xFFFFFFFF, 0, 0, 0, 0, 0, 0, 0, 0, .never, []⟩,  -- TRK_P_MEAN
  ⟨0x190070, 0x80, 24, 0, 1, 0xFFFFFFFF, 0, 0, 0, 0, 0, 0, 0, 0, .never, []⟩,  -- TRK_V_BEST
  ⟨0x190074, 0x80, 24, 0, 1, 0xFFFFFFFF, 0, 0, 0, 0, 0, 0, 0, 0, .never, []⟩,  -- TRK_P_BEST
  ⟨0x190078, 0x80, 24, 0, 1, 0, 0, 0, 0, 0, 0, 0, 0, 0xFFFFFFFF, .never, []⟩,  -- TRK_COUNT
  ⟨0x19007C, 0x80, 24, 0, 1, 0, 0, 0, 0, 0, 0, 0, 0, 0, .never, []⟩]  -- TRK_RSVD

/-- Registers of the 64 KiB at 0x001A_0000. -/
def regs1A : List RegDesc := [
  ⟨0x1A0000, 0, 1, 0, 1, 0xF780FFFF, 0, 0, 0x8000000, 0, 0, 0, 0, 0, .service, [(0xC, 0xFF80FFFF)]⟩,  -- ISL_CFG
  ⟨0x1A0004, 0, 1, 0, 1, 0xFFFFFFFF, 0, 0, 0, 0, 0, 0, 0, 0, .never, [(0xC, 0xFFFFFFFF)]⟩,  -- ISL_ANC
  ⟨0x1A0008, 0, 1, 0, 1, 0xFFFF8F1F, 0, 0, 0, 0, 0, 0, 0, 0, .never, [(0xC, 0xFFFF8F1F)]⟩,  -- ISL_MAP
  ⟨0x1A000C, 0, 1, 0, 1, 0, 0, 0, 0xFFFFFFFF, 0, 0, 0, 0, 0, .service, [(0xC, 0xFFFFFFFF)]⟩,  -- ISL_THR
  ⟨0x1A0010, 0, 1, 0, 1, 0, 0, 0, 0xFF00FFFF, 0, 0, 0, 0, 0, .service, [(0xC, 0xFF00FFFF)]⟩,  -- ISL_TIME
  ⟨0x1A0014, 0, 1, 0, 1, 0, 0, 0, 0xFFFFFFFF, 0, 0, 0, 0, 0, .service, [(0xC, 0xFFFFFFFF)]⟩,  -- ISL_FB
  ⟨0x1A0018, 0, 1, 0, 1, 0, 0, 0, 0xFFFFFFFF, 0, 0, 0, 0, 0, .service, [(0xC, 0xFFFFFFFF)]⟩,  -- ISL_FB_TIME
  ⟨0x1A001C, 0, 1, 0, 1, 0, 0, 0, 0xFFFFFFFF, 0, 0, 0, 0, 0, .service, [(0xC, 0xFFFFFFFF)]⟩,  -- ISL_AFD
  ⟨0x1A0020, 0, 1, 0, 1, 0, 0, 7, 0, 0, 0, 0, 0, 0, .never, []⟩,  -- ISL_CTRL
  ⟨0x1A0040, 0, 1, 0, 1, 0xF3FF00, 0, 0, 0, 0, 0, 0, 0, 0, .never, []⟩,  -- ISL_STATUS
  ⟨0x1A0044, 0, 1, 0, 1, 0, 0, 0, 0, 0, 0x3F, 0, 0, 0, .never, []⟩,  -- ISL_EVENTS
  ⟨0x1A0048, 0, 1, 0, 1, 0xFFFFFFFF, 0, 0, 0, 0, 0, 0, 0, 0, .never, []⟩,  -- ISL_PHI
  ⟨0x1A0080, 0x10, 2, 0, 1, 0xFFFFFFFF, 0, 0, 0, 0, 0, 0, 0, 0, .never, []⟩,  -- ISL_ANC_DELTA
  ⟨0x1A0084, 0x10, 2, 0, 1, 0xFFFFFFFF, 0, 0, 0, 0, 0, 0, 0, 0, .never, []⟩,  -- ISL_ANC_DRIFT
  ⟨0x1A0088, 0x10, 2, 0, 1, 0xFFFFFFFF, 0, 0, 0, 0, 0, 0, 0, 0, .never, []⟩,  -- ISL_ANC_BASE
  ⟨0x1A008C, 0x10, 2, 0, 1, 0xFFFF0003, 0, 0, 0, 0, 0, 0, 0, 0, .never, []⟩,  -- ISL_ANC_ST
  ⟨0x1A00A0, 0, 1, 0, 1, 0xFF03, 0, 0, 0, 0, 0, 0, 0, 0xFFFF0000, .never, []⟩,  -- ISL_PUB
  ⟨0x1A00A4, 0, 1, 0, 1, 0, 0, 0, 0, 0, 0, 0, 0, 0xFFFFFFFF, .never, []⟩]  -- ISL_RX

/-- Registers of the 64 KiB at 0x001C_0000. -/
def regs1C : List RegDesc := [
  ⟨0x1C0000, 0x80, 72, 0, 1, 0xFFFE0000, 0, 0, 0, 0, 0, 0, 0, 0, .never, [(9, 0xFFFE0000)]⟩,  -- PWM_CFG
  ⟨0x1C0004, 0x80, 72, 0, 1, 0xFFFFF, 0, 0, 0, 0, 0, 0, 0, 0, .never, [(9, 0xFFFFF)]⟩,  -- PWM_PHASE
  ⟨0x1C0008, 0x80, 72, 0, 1, 0xFFFFFFFF, 0, 0, 0, 0, 0, 0, 0, 0, .never, [(7, 0xFFFFFFFF)]⟩,  -- PWM_TRIP_CFG
  ⟨0x1C0010, 0x80, 72, 0, 1, 0, 0, 0xFFFFF, 0, 0, 0, 0, 0, 0, .never, [(9, 0xFFFFF)]⟩,  -- PWM_PER
  ⟨0x1C0014, 0x80, 72, 0, 1, 0, 0, 0xFFFFFFFF, 0, 0, 0, 0, 0, 0, .never, [(9, 0xFFFFFFFF)]⟩,  -- PWM_DUTY
  ⟨0x1C0018, 0x80, 72, 0, 1, 0, 0, 0x3FFF3FFF, 0, 0, 0, 0, 0, 0, .never, [(9, 0x3FFF3FFF)]⟩,  -- PWM_DT
  ⟨0x1C001C, 0x80, 72, 4, 4, 0, 0, 0x1FFFFFF, 0, 0, 0, 0, 0, 0, .never, [(9, 0x1FFFFFF)]⟩,  -- PWM_CMP
  ⟨0x1C0030, 0x80, 72, 0, 1, 0x1FFFFFF, 0, 0, 0, 0, 0, 0, 0, 0, .never, []⟩,  -- PWM_ACT_ON
  ⟨0x1C0034, 0x80, 72, 0, 1, 0xFFFFF, 0, 0, 0, 0, 0, 0, 0, 0, .never, []⟩,  -- PWM_ACT_PER
  ⟨0x1C0040, 0x80, 72, 0, 1, 0x1FFF, 0, 0, 0, 0, 0, 0, 0, 0, .never, []⟩,  -- PWM_STATUS
  ⟨0x1C0044, 0x80, 72, 0, 1, 0xFFFFFFFF, 0, 0, 0, 0, 0, 0, 0, 0, .never, []⟩,  -- PWM_TRIP_SRC
  ⟨0x1C0048, 0x80, 72, 0, 1, 0xFFFFFFFF, 0, 0, 0, 0, 0, 0, 0, 0, .never, []⟩,  -- PWM_TRIP_LIVE
  ⟨0x1C004C, 0x80, 72, 0, 1, 0, 0, 0, 0, 0, 0xF, 0, 0, 0, .never, []⟩,  -- PWM_EVENTS
  ⟨0x1C0050, 0x80, 72, 0, 1, 0, 0, 0, 0, 0, 0, 0, 0, 0xFFFFFFFF, .never, []⟩]  -- PWM_COUNT

/-- Registers of the 64 KiB at 0x001D_0000. -/
def regs1D : List RegDesc := [
  ⟨0x1D0000, 4, 3, 0, 1, 0, 0, 0, 0, 0, 0, 0, 0xFFFFFFFF, 0, .never, []⟩,  -- PWM_CLR
  ⟨0x1D0010, 4, 3, 0, 1, 0, 0xFFFFFFFF, 0, 0, 0, 0, 0, 0, 0, .never, []⟩,  -- PWM_FORCE
  ⟨0x1D0020, 4, 3, 0, 1, 0, 0xFFFFFFFF, 0, 0, 0, 0, 0, 0, 0, .never, []⟩,  -- PWM_HOLD
  ⟨0x1D0030, 4, 3, 0, 1, 0xFFFFFFFF, 0, 0, 0, 0, 0, 0, 0, 0, .never, []⟩,  -- PWM_TRIPPED
  ⟨0x1D0040, 0, 1, 0, 1, 0x8000007F, 0, 0, 0, 0, 0, 0, 0, 0, .never, []⟩]  -- PWM_CAL

/-- Registers of the 64 KiB at 0x001E_0000. -/
def regs1E : List RegDesc := [
  ⟨0x1E0000, 0x10, 72, 0, 1, 0xC0000000, 0, 0, 0xFFC00, 0, 0, 0, 0, 0, .service, [(7, 0xC00FFC00)]⟩,  -- GDL_CFG
  ⟨0x1E0004, 0x10, 72, 0, 1, 0xFE1F07FF, 0, 0, 0, 0, 0, 0, 0, 0, .never, []⟩,  -- GDL_STATUS
  ⟨0x1E0008, 0x10, 72, 0, 1, 0xFFFF, 0, 0, 0, 0, 0, 0, 0, 0, .never, []⟩,  -- GDL_CAUSE
  ⟨0x1E000C, 0x10, 72, 0, 1, 0, 0, 0, 0, 0, 0, 0, 0, 0xFFFFFFFF, .never, []⟩,  -- GDL_COUNT
  ⟨0x1E0800, 0, 1, 0, 1, 0x8F000000, 0, 0, 0, 0, 0, 0, 0, 0, .never, [(7, 0x8F000000)]⟩,  -- GDL_EN_CFG
  ⟨0x1E0804, 0, 1, 0, 1, 0xE000FFFF, 0, 0, 0, 0, 0, 0, 0, 0, .never, []⟩,  -- GDL_EN_STATUS
  ⟨0x1E0808, 0, 1, 0, 1, 0, 0, 0, 0, 0, 0x1F, 0, 0, 0, .never, []⟩,  -- GDL_EVENTS
  ⟨0x1E0810, 4, 3, 0, 1, 0xFFFFFFFF, 0, 0, 0, 0, 0, 0, 0, 0, .never, []⟩]  -- GDL_LATCHED

/-- Registers of the 64 KiB at 0x001F_0000. -/
def regs1F : List RegDesc := [
  ⟨0x1F0000, 0, 1, 0, 1, 0, 0, 0, 0x1FFF1FFF, 0, 0, 0, 0, 0, .safety, [(0xF, 0x1FFF1FFF)]⟩,  -- LS_CFG
  ⟨0x1F0004, 0, 1, 0, 1, 0x90000333, 0, 0, 0, 0, 0, 0, 0, 0, .never, []⟩,  -- LS_STATUS
  ⟨0x1F0008, 0, 1, 0, 1, 0, 0, 0, 0, 0, 0xF, 0, 0, 0, .never, []⟩,  -- LS_EVENTS
  ⟨0x1F000C, 0, 1, 0, 1, 0xF8001FFF, 0, 0, 0, 0, 0, 0, 0, 0, .never, []⟩,  -- LS_MM_INFO
  ⟨0x1F0010, 0, 1, 0, 1, 0xFFFFFFFF, 0, 0, 0, 0, 0, 0, 0, 0, .never, []⟩,  -- LS_SIG_CORE_L_LO
  ⟨0x1F0014, 0, 1, 0, 1, 0xFFFFFFFF, 0, 0, 0, 0, 0, 0, 0, 0, .never, []⟩,  -- LS_SIG_CORE_L_HI
  ⟨0x1F0018, 0, 1, 0, 1, 0xFFFFFFFF, 0, 0, 0, 0, 0, 0, 0, 0, .never, []⟩,  -- LS_SIG_CORE_T_LO
  ⟨0x1F001C, 0, 1, 0, 1, 0xFFFFFFFF, 0, 0, 0, 0, 0, 0, 0, 0, .never, []⟩,  -- LS_SIG_CORE_T_HI
  ⟨0x1F0020, 0, 1, 0, 1, 0xFFFFFFFF, 0, 0, 0, 0, 0, 0, 0, 0, .never, []⟩,  -- LS_SIG_ENG_L_LO
  ⟨0x1F0024, 0, 1, 0, 1, 0xFFFFFFFF, 0, 0, 0, 0, 0, 0, 0, 0, .never, []⟩,  -- LS_SIG_ENG_L_HI
  ⟨0x1F0028, 0, 1, 0, 1, 0xFFFFFFFF, 0, 0, 0, 0, 0, 0, 0, 0, .never, []⟩,  -- LS_SIG_ENG_T_LO
  ⟨0x1F002C, 0, 1, 0, 1, 0xFFFFFFFF, 0, 0, 0, 0, 0, 0, 0, 0, .never, []⟩,  -- LS_SIG_ENG_T_HI
  ⟨0x1F0030, 0, 1, 0, 1, 0, 0, 0, 0, 0, 0, 0, 0, 0xFFFFFFFF, .never, []⟩,  -- LS_COUNT
  ⟨0x1F0034, 0, 1, 0, 1, 0x60000000, 0, 0, 0, 0, 0, 0, 0x80000000, 0, .never, []⟩]  -- LS_TEST

/-- Registers of the 64 KiB at 0x0020_0000. -/
def regs20 : List RegDesc := [
  ⟨0x200000, 0x100, 9, 0, 1, 0xC0000000, 0, 0, 0xFFFF, 0, 0, 0, 0, 0, .service, [(0xD, 0xC000FFFF)]⟩,  -- MTR_CFG
  ⟨0x200004, 0x100, 9, 4, 6, 0x3FF, 0, 0, 0, 0, 0, 0, 0, 0, .never, [(0xD, 0x3FF)]⟩,  -- MTR_IN
  ⟨0x200080, 0x100, 9, 0, 1, 0, 0, 0, 0xFFFFFFFF, 0, 0, 0, 0, 0, .service, [(0xD, 0xFFFFFFFF)]⟩,  -- MTR_PBASE
  ⟨0x200020, 0x100, 9, 0x10, 6, 0, 0, 0, 0xFFFFF, 0, 0, 0, 0, 0, .service, [(0xD, 0xFFFFF), (0x7F, 0xFFFFF)]⟩,  -- MTR_CAL_OFFS
  ⟨0x200024, 0x100, 9, 0x10, 6, 0, 0, 0, 0xFFFFFFFF, 0, 0, 0, 0, 0, .service, [(0xD, 0xFFFFFFFF), (0x7F, 0xFFFFFFFF)]⟩,  -- MTR_CAL_GAIN
  ⟨0x200028, 0x100, 9, 0x10, 6, 0, 0, 0, 0x1F, 0, 0, 0, 0, 0, .service, [(0xD, 0x1F), (0x7F, 0x1F)]⟩,  -- MTR_CAL_SHIFT
  ⟨0x200084, 0x100, 9, 0, 1, 0x87878787, 0, 0, 0, 0, 0, 0, 0, 0, .never, [(0xD, 0x87878787)]⟩,  -- MTR_ACC_CFG
  ⟨0x200088, 0x100, 9, 0, 1, 0xF000FF03, 0, 0, 0, 0, 0, 0, 0, 0, .never, []⟩,  -- MTR_STATUS
  ⟨0x20008C, 0x100, 9, 0, 1, 0, 0, 0, 0, 0, 0xF7, 0, 0, 0, .never, []⟩,  -- MTR_EVENTS
  ⟨0x200090, 0x100, 9, 0, 1, 0xFFFFFFFF, 0, 0, 0, 0, 0, 0, 0, 0, .never, []⟩,  -- MTR_P
  ⟨0x200094, 0x100, 9, 0, 1, 0xFFFFFFFF, 0, 0, 0, 0, 0, 0, 0, 0, .never, []⟩,  -- MTR_Q
  ⟨0x2000A0, 0x100, 9, 8, 4, 0xFFFFFFFF, 0, 0, 0, 0, 0, 0, 0, 0, .never, []⟩,  -- MTR_ACC_LO
  ⟨0x2000A4, 0x100, 9, 8, 4, 0xFFFFFFFF, 0, 0, 0, 0, 0, 0, 0, 0, .never, []⟩,  -- MTR_ACC_HI
  ⟨0x2000C0, 0x100, 9, 8, 4, 0xFFFFFFFF, 0, 0, 0, 0, 0, 0, 0, 0, .never, []⟩,  -- MTR_DELTA_LO
  ⟨0x2000C4, 0x100, 9, 8, 4, 0xFFFFFFFF, 0, 0, 0, 0, 0, 0, 0, 0, .never, []⟩,  -- MTR_DELTA_HI
  ⟨0x2000E0, 0x100, 9, 0, 1, 0xFF00, 0, 0, 0, 0, 0, 0, 0, 0x80000000, .never, []⟩,  -- MTR_REC
  ⟨0x2000E4, 0x100, 9, 0, 1, 0xFFFFFFFF, 0, 0, 0, 0, 0, 0, 0, 0, .never, []⟩,  -- MTR_NSAMP
  ⟨0x2000E8, 0x100, 9, 0, 1, 0xFFFFFFFF, 0, 0, 0, 0, 0, 0, 0, 0, .never, []⟩,  -- MTR_FILLED
  ⟨0x2000EC, 0x100, 9, 0, 1, 0xFFFFFFFF, 0, 0, 0, 0, 0, 0, 0, 0, .never, []⟩,  -- MTR_V1_MEAN
  ⟨0x2000F0, 0x100, 9, 0, 1, 0xFFFFFFFF, 0, 0, 0, 0, 0, 0, 0, 0, .never, []⟩,  -- MTR_F_MEAN
  ⟨0x2000F4, 0x100, 9, 0, 1, 0xFFFFFFFF, 0, 0, 0, 0, 0, 0, 0, 0, .never, []⟩,  -- MTR_END_LO
  ⟨0x2000F8, 0x100, 9, 0, 1, 0xFFFF, 0, 0, 0, 0, 0, 0, 0, 0, .never, []⟩,  -- MTR_END_HI
  ⟨0x201000, 0, 1, 0, 1, 0, 0, 0, 0xFFFF, 0, 0, 0, 0, 0, .service, [(0xD, 0xFFFF)]⟩,  -- MTR_INT_CFG
  ⟨0x201004, 0, 1, 0, 1, 0, 0, 0x700000FF, 0, 0, 0, 0, 0, 0, .never, []⟩,  -- MTR_CMD
  ⟨0x201008, 0, 1, 0, 1, 0, 0, 0, 0xFFFFFFFF, 0, 0, 0, 0, 0, .service, []⟩,  -- MTR_PRESET_LO
  ⟨0x20100C, 0, 1, 0, 1, 0, 0, 0, 0xFFFFFFFF, 0, 0, 0, 0, 0, .service, []⟩,  -- MTR_PRESET_HI
  ⟨0x201010, 0, 1, 0, 1, 0, 0, 0, 0, 0, 7, 0, 0, 0, .never, []⟩,  -- MTR_GLB_EV
  ⟨0x201100, 0x20, 16, 0, 1, 0xE0000000, 0, 0, 0xFF00, 0, 0, 0, 0, 0, .service, [(0xD, 0xE000FF00)]⟩,  -- PIN_CFG
  ⟨0x201104, 0x20, 16, 0, 1, 0, 0, 0, 0xFFFFFFFF, 0, 0, 0, 0, 0, .service, [(0xD, 0xFFFFFFFF)]⟩,  -- PIN_WT
  ⟨0x201108, 0x20, 16, 0, 1, 0xFFFFFFFF, 0, 0, 0, 0, 0, 0, 0, 0, .never, []⟩,  -- PIN_ACC_LO
  ⟨0x20110C, 0x20, 16, 0, 1, 0xFFFFFFFF, 0, 0, 0, 0, 0, 0, 0, 0, .never, []⟩,  -- PIN_ACC_HI
  ⟨0x201110, 0x20, 16, 0, 1, 0xFFFFFFFF, 0, 0, 0, 0, 0, 0, 0, 0, .never, []⟩,  -- PIN_DELTA_LO
  ⟨0x201114, 0x20, 16, 0, 1, 0xFFFFFFFF, 0, 0, 0, 0, 0, 0, 0, 0, .never, []⟩,  -- PIN_DELTA_HI
  ⟨0x201118, 0x20, 16, 0, 1, 0xC000FF00, 0, 0, 0, 0, 0xC0, 0, 0, 0x20000000, .never, []⟩,  -- PIN_ST
  ⟨0x20111C, 0x20, 16, 0, 1, 0, 0, 0, 0, 0, 0, 0, 0, 0xFFFFFFFF, .never, []⟩,  -- PIN_CNT
  ⟨0x201400, 0x10, 8, 0, 1, 0x8FC00000, 0, 0, 0xFF00, 0, 0, 0, 0, 0, .service, [(0xD, 0x8FC0FF00)]⟩,  -- POUT_CFG
  ⟨0x201404, 0x10, 8, 0, 1, 0, 0, 0, 0x1FFFF, 0, 0, 0, 0, 0, .service, [(0xD, 0x1FFFF)]⟩,  -- POUT_KC
  ⟨0x201408, 0x10, 8, 0, 1, 0xFF000001, 0, 0, 0, 0, 2, 0, 0, 0, .never, []⟩,  -- POUT_ST
  ⟨0x20140C, 0x10, 8, 0, 1, 0, 0, 0, 0, 0, 0, 0, 0, 0xFFFFFFFF, .never, []⟩]  -- POUT_CNT

/-- Registers of the 64 KiB at 0x0022_0000. -/
def regs22 : List RegDesc := [
  ⟨0x220000, 0, 1, 0, 1, 0x1F1F01, 0, 0, 0, 0, 0, 0, 0, 0, .never, [(0xE, 0x1000)]⟩,  -- SAFE_STATUS
  ⟨0x220004, 0, 1, 0, 1, 0xFFFFFFFF, 0, 0, 0, 0, 0, 0, 0, 0, .never, []⟩,  -- SAFE_CAUSE
  ⟨0x220008, 0, 1, 0, 1, 0, 0, 0, 0, 0, 0xF, 0, 0, 0, .never, []⟩,  -- SAFE_EVENTS
  ⟨0x22000C, 0, 1, 0, 1, 0, 0, 0, 0, 0, 0, 0, 0x80000000, 0, .never, []⟩,  -- SAFE_CTRL
  ⟨0x220010, 0, 1, 0, 1, 0, 0, 0, 0, 0, 0, 0, 0, 0xFFFFFFFF, .never, []⟩,  -- SAFE_COUNT
  ⟨0x220014, 0, 1, 0, 1, 0x80FFFFFF, 0, 0, 0, 0, 0, 0, 0, 0, .never, [(0xE, 0x80FFFFFF)]⟩,  -- SAFE_CFG
  ⟨0x220100, 4, 32, 0, 1, 0xFF8FFCFF, 0, 0, 0, 0, 0, 0, 0, 0, .never, [(0xE, 0xFF8FFCFF)]⟩,  -- SIN_CFG
  ⟨0x220180, 0, 1, 0, 1, 0xFFFFFFFF, 0, 0, 0, 0, 0, 0, 0, 0, .never, []⟩,  -- SIN_RUN
  ⟨0x220184, 0, 1, 0, 1, 0xFFFFFFFF, 0, 0, 0, 0, 0, 0, 0, 0, .never, []⟩,  -- SIN_FAULT
  ⟨0x220188, 0, 1, 0, 1, 0xFFFFFFFF, 0, 0, 0, 0, 0, 0, 0, 0, .never, []⟩,  -- SIN_RAW_A
  ⟨0x22018C, 0, 1, 0, 1, 0xFFFFFFFF, 0, 0, 0, 0, 0, 0, 0, 0, .never, []⟩,  -- SIN_RAW_B
  ⟨0x220190, 0, 1, 0, 1, 0, 0, 0, 0, 0, 0xFFFFFFFF, 0, 0, 0, .never, []⟩,  -- SIN_DEMAND_EV
  ⟨0x220200, 8, 16, 0, 1, 0xFFFFFFFF, 0, 0, 0, 0, 0, 0, 0, 0, .never, [(0xE, 0xFFFFFFFF)]⟩,  -- SOUT_CFG
  ⟨0x220204, 8, 16, 0, 1, 0xFFFFFFFF, 0, 0, 0, 0, 0, 0, 0, 0, .never, [(0xE, 0xFFFFFFFF)]⟩,  -- SOUT_IN
  ⟨0x220280, 0, 1, 0, 1, 0xFFFFFFFF, 0, 0, 0, 0, 0, 0, 0, 0, .never, []⟩,  -- SOUT_STATE
  ⟨0x220284, 0, 1, 0, 1, 0xFFFFFFFF, 0, 0, 0, 0, 0, 0, 0, 0, .never, []⟩,  -- SOUT_WAIT
  ⟨0x220288, 0, 1, 0, 1, 0, 0xFFFF, 0, 0, 0, 0, 0, 0, 0, .never, []⟩,  -- SOUT_REQ
  ⟨0x22028C, 0, 1, 0, 1, 0xFFFFFFFF, 0, 0, 0, 0, 0, 0, 0, 0, .never, []⟩]  -- SOUT_FAULT

/-- Registers of the 64 KiB at 0x0040_0000. -/
def regs40 : List RegDesc := [
  ⟨0x400000, 0x10, 128, 0, 1, 0xE01F0000, 0, 0, 0, 0, 0, 0, 0, 0, .never, [(3, 0xE01F0000)]⟩,  -- RG_LANE_CFG
  ⟨0x400004, 0x10, 128, 0, 1, 0xE0000007, 0, 0, 0, 0, 0, 0, 0, 0, .never, []⟩,  -- RG_LANE_STATUS
  ⟨0x400008, 0x10, 128, 0, 1, 0, 0, 0, 0, 0, 0, 0, 0, 0xFFFFFFFF, .never, []⟩]  -- RG_LANE_FEC

/-- Registers of the 64 KiB at 0x0041_0000. -/
def regs41 : List RegDesc := [
  ⟨0x410000, 0x10, 128, 0, 1, 0xFE003FFF, 0, 0, 0, 0, 0, 0, 0, 0, .never, [(3, 0xFE003FFF)]⟩,  -- RG_PORT_CFG
  ⟨0x410004, 0x10, 128, 0, 1, 0x80000000, 0, 0, 0, 0, 0, 0, 0, 0xFFFF, .never, []⟩]  -- RG_PORT_STATUS

/-- Registers of the 64 KiB at 0x0042_0000. -/
def regs42 : List RegDesc := [
  ⟨0x420000, 0, 1, 0, 1, 0xFBFF03FF, 0, 0, 0x4000000, 0, 0, 0, 0, 0, .operator, [(3, 0xFC000000), (0x7F, 0x3FF03FF)]⟩,  -- RG_RING_CFG
  ⟨0x420004, 0, 1, 0, 1, 0, 0, 0, 0xFFFFFFFF, 0, 0, 0, 0, 0, .operator, [(3, 0xFFFFFFFF)]⟩,  -- RG_RING_TIMING
  ⟨0x420008, 0, 1, 0, 1, 0, 0, 0, 0xFFFFFF00, 0, 0, 0, 0, 0, .operator, [(3, 0xFFFFFF00)]⟩,  -- RG_DROWSE_CFG
  ⟨0x420010, 0, 1, 0, 1, 0, 0, 0xF000000F, 0, 0, 0, 0, 0, 0, .never, []⟩,  -- RG_RING_CTRL
  ⟨0x420014, 0, 1, 0, 1, 0xFFF00377, 0, 0, 0, 0, 0, 0, 0, 0, .never, []⟩,  -- RG_RING_STATUS
  ⟨0x420018, 0, 1, 0, 1, 0, 0, 0, 0, 0, 0x7F, 0, 0, 0, .never, []⟩,  -- RG_RING_EVENTS
  ⟨0x420020, 4, 4, 0, 1, 0x83FF000F, 0, 0, 0, 0, 0, 0, 0, 0, .never, []⟩,  -- RG_GROUP_STATUS
  ⟨0x420100, 0x40, 2, 4, 16, 0xE3FFFFFF, 0, 0, 0, 0, 0, 0, 0, 0, .never, []⟩]  -- RG_BREAK

/-- Registers of the 64 KiB at 0x0050_0000. -/
def regs50 : List RegDesc := [
  ⟨0x500000, 0x40, 64, 0, 1, 0xF8000000, 0, 0, 0x7FF7FFF, 0, 0, 0, 0, 0, .operator, [(0x20, 0xFFFF7FFF)]⟩,  -- PQ_PLOT_CFG
  ⟨0x500004, 0x40, 64, 0, 1, 0x1FFF, 0, 0, 0x1FFF0000, 0, 0, 0, 0, 0, .operator, [(0x20, 0x1FFF1FFF)]⟩,  -- PQ_PLOT_BUF
  ⟨0x500008, 0x40, 64, 0, 1, 0xFFFF, 0, 0, 0xFFFF0000, 0, 0, 0, 0, 0, .operator, [(0x20, 0xFFFFFFFF)]⟩,  -- PQ_PLOT_LIM
  ⟨0x50000C, 0x40, 64, 0, 1, 0xCF00FFFF, 0, 0, 0, 0, 0, 0, 0, 0, .never, []⟩,  -- PQ_PLOT_STATUS
  ⟨0x500010, 0x40, 64, 0, 1, 0x7FFFF, 0, 0, 0, 0, 0, 0, 0, 0, .never, []⟩,  -- PQ_PLOT_USE
  ⟨0x500014, 0x40, 64, 0, 1, 0, 0, 0, 0, 0, 0, 0, 0, 0xFFFFFFFF, .never, []⟩,  -- PQ_PLOT_DROP
  ⟨0x500018, 0x40, 64, 0, 1, 0, 0, 0, 0, 0, 0, 0, 0, 0xFFFFFFFF, .never, []⟩,  -- PQ_PLOT_DROP2
  ⟨0x502000, 0x40, 64, 8, 7, 0, 0, 0xFFFFFFFF, 0, 0, 0, 0, 0, 0, .never, [(0x20, 0xFFFFFFFF)]⟩,  -- PQ_POL_RATE
  ⟨0x502004, 0x40, 64, 8, 7, 0, 0, 0xFFFFFFFF, 0, 0, 0, 0, 0, 0, .never, [(0x20, 0xFFFFFFFF)]⟩,  -- PQ_POL_BURST
  ⟨0x504000, 0x10, 128, 0, 1, 0xE73F0000, 0, 0, 0, 0, 0, 0, 0, 0, .never, [(4, 0xC73F0000), (0x20, 0xC73F0000)]⟩,  -- PQ_PORT_MAP
  ⟨0x504004, 0x10, 128, 0, 1, 0xFFFFFF, 0, 0, 0, 0, 0, 0, 0, 0, .never, [(4, 0xFFFFFF), (0x20, 0xFFFFFF)]⟩]  -- PQ_PORT_PCP

/-- Registers of the 64 KiB at 0x0051_0000. -/
def regs51 : List RegDesc := [
  ⟨0x510000, 0, 1, 0, 1, 0, 0, 0, 0xFFFF, 0, 0, 0, 0, 0, .operator, [(4, 0xFFFF)]⟩,  -- PQ_FDB_CFG
  ⟨0x510004, 0, 1, 0, 1, 0, 0, 0, 0, 0, 0, 0, 0xF0000000, 0, .never, []⟩,  -- PQ_FDB_CTRL
  ⟨0x510008, 0, 1, 0, 1, 0xF0, 0, 0, 0, 0, 0xE, 0, 0, 0, .never, []⟩,  -- PQ_FDB_STATUS
  ⟨0x51000C, 0, 1, 0, 1, 0, 0xFFFFFFFF, 0, 0, 0, 0, 0, 0, 0, .never, []⟩,  -- PQ_FDB_AT_LO
  ⟨0x510010, 0, 1, 0, 1, 0, 0xFFFF, 0, 0, 0, 0, 0, 0, 0, .never, []⟩,  -- PQ_FDB_AT_HI
  ⟨0x510014, 0, 1, 0, 1, 0, 0xFFFFFFFF, 0, 0, 0, 0, 0, 0, 0, .never, []⟩,  -- PQ_FDB_KEY_LO
  ⟨0x510018, 0, 1, 0, 1, 0, 0x3FFFFF, 0, 0, 0, 0, 0, 0, 0, .never, []⟩,  -- PQ_FDB_KEY_HI
  ⟨0x51001C, 0, 1, 0, 1, 0, 0xF3FF007F, 0, 0, 0, 0, 0, 0, 0, .never, []⟩]  -- PQ_FDB_RES

/-- Registers of the 64 KiB at 0x0052_0000. -/
def regs52 : List RegDesc := [
  ⟨0x520000, 0, 1, 0, 1, 0, 0, 0, 0xFF, 0, 0, 0, 0, 0, .operator, [(4, 0xFF)]⟩,  -- PQ_CLASS_CFG
  ⟨0x520004, 0, 1, 0, 1, 0xFF, 0, 0, 0, 0, 0, 0, 0, 0xFF0000, .never, []⟩,  -- PQ_CTL_STATUS
  ⟨0x520010, 8, 4, 0, 1, 0, 0, 0, 0, 0, 0, 0, 0, 0xFFFFFFFF, .never, []⟩,  -- PQ_CTL_CNT0
  ⟨0x520014, 8, 4, 0, 1, 0, 0, 0, 0, 0, 0, 0, 0, 0xFFFFFFFF, .never, []⟩]  -- PQ_CTL_CNT1

/-- Registers of the 64 KiB at 0x0060_0000. -/
def regs60 : List RegDesc := [
  ⟨0x600000, 0, 1, 0, 1, 0, 0, 0, 0xFFFFFFFF, 0, 0, 0, 0, 0, .operator, [(0x7F, 0xFFFFFFFF)]⟩,  -- CE_CFG
  ⟨0x600004, 0, 1, 0, 1, 0xFF1F1FFF, 0, 0, 0, 0, 0, 0, 0, 0, .never, []⟩,  -- CE_STATUS
  ⟨0x600008, 0, 1, 0, 1, 0, 0, 0, 0, 0, 0x3F, 0, 0, 0, .never, []⟩,  -- CE_EVENTS
  ⟨0x60000C, 0, 1, 0, 1, 0, 0, 0, 0, 0, 0, 0, 0, 0xFFFFFFFF, .never, []⟩,  -- CE_COUNT
  ⟨0x600100, 4, 64, 0, 1, 0xFCFFFFFF, 0, 0, 0, 0, 0, 0, 0, 0, .never, []⟩,  -- CE_SESS
  ⟨0x600200, 8, 16, 0, 1, 0xFFFF0FFF, 0, 0, 0, 0, 0, 0, 0, 0, .never, []⟩,  -- CE_OP
  ⟨0x600204, 8, 16, 0, 1, 0xFFFF0000, 0, 0, 0, 0, 0, 0, 0, 0, .never, []⟩]  -- CE_OP2

/-- Registers of the 64 KiB at 0x0068_0000. -/
def regs68 : List RegDesc := [
  ⟨0x680000, 0x100, 4, 0, 1, 0, 0, 0, 0xFE00FFFF, 0, 0, 0, 0, 0, .service, [(0x7F, 0xFE00FFFF)]⟩,  -- CSP_CFG
  ⟨0x680004, 0x100, 4, 0, 1, 0x40000000, 0xFFF, 0, 0, 0, 0, 0, 0x80000000, 0, .never, []⟩,  -- CSP_XFER
  ⟨0x680008, 0x100, 4, 0, 1, 0xFFFFF000, 0, 0, 0, 0, 0x7F, 0, 0, 0, .never, []⟩,  -- CSP_STATUS
  ⟨0x68000C, 0x100, 4, 0, 1, 0, 0, 0, 0, 0, 0, 0, 0xFFFFFFFF, 0, .never, []⟩,  -- CSP_TXDATA
  ⟨0x680010, 0x100, 4, 0, 1, 0, 0, 0, 0, 0, 0, 0, 0, 0xFFFFFFFF, .never, []⟩,  -- CSP_RXDATA
  ⟨0x680014, 0x100, 4, 0, 1, 0, 0, 0, 0, 0, 0, 0, 0, 0x1FFF, .never, []⟩]  -- CSP_RXLEN

/-- Registers of the 64 KiB at 0x0070_0000. -/
def regs70 : List RegDesc := [
  ⟨0x700000, 0x40, 128, 0, 1, 0xFFFFFFFF, 0, 0, 0, 0, 0, 0, 0, 0, .never, []⟩,  -- PCN_RX_BYTES_LO
  ⟨0x700004, 0x40, 128, 0, 1, 0xFFFFFFFF, 0, 0, 0, 0, 0, 0, 0, 0, .never, []⟩,  -- PCN_RX_BYTES_HI
  ⟨0x700008, 0x40, 128, 0, 1, 0xFFFFFFFF, 0, 0, 0, 0, 0, 0, 0, 0, .never, []⟩,  -- PCN_RX_FRAMES_LO
  ⟨0x70000C, 0x40, 128, 0, 1, 0xFFFFFFFF, 0, 0, 0, 0, 0, 0, 0, 0, .never, []⟩,  -- PCN_RX_FRAMES_HI
  ⟨0x700010, 0x40, 128, 0, 1, 0xFFFFFFFF, 0, 0, 0, 0, 0, 0, 0, 0, .never, []⟩,  -- PCN_RX_DROPS_LO
  ⟨0x700014, 0x40, 128, 0, 1, 0xFFFFFFFF, 0, 0, 0, 0, 0, 0, 0, 0, .never, []⟩,  -- PCN_RX_DROPS_HI
  ⟨0x700018, 0x40, 128, 0, 1, 0xFFFFFFFF, 0, 0, 0, 0, 0, 0, 0, 0, .never, []⟩,  -- PCN_RX_FRAGS_LO
  ⟨0x70001C, 0x40, 128, 0, 1, 0xFFFFFFFF, 0, 0, 0, 0, 0, 0, 0, 0, .never, []⟩,  -- PCN_RX_FRAGS_HI
  ⟨0x700020, 0x40, 128, 0, 1, 0xFFFFFFFF, 0, 0, 0, 0, 0, 0, 0, 0, .never, []⟩,  -- PCN_TX_BYTES_LO
  ⟨0x700024, 0x40, 128, 0, 1, 0xFFFFFFFF, 0, 0, 0, 0, 0, 0, 0, 0, .never, []⟩,  -- PCN_TX_BYTES_HI
  ⟨0x700028, 0x40, 128, 0, 1, 0xFFFFFFFF, 0, 0, 0, 0, 0, 0, 0, 0, .never, []⟩,  -- PCN_TX_FRAMES_LO
  ⟨0x70002C, 0x40, 128, 0, 1, 0xFFFFFFFF, 0, 0, 0, 0, 0, 0, 0, 0, .never, []⟩,  -- PCN_TX_FRAMES_HI
  ⟨0x700030, 0x40, 128, 0, 1, 0xFFFFFFFF, 0, 0, 0, 0, 0, 0, 0, 0, .never, []⟩,  -- PCN_TX_DROPS_LO
  ⟨0x700034, 0x40, 128, 0, 1, 0xFFFFFFFF, 0, 0, 0, 0, 0, 0, 0, 0, .never, []⟩,  -- PCN_TX_DROPS_HI
  ⟨0x700038, 0x40, 128, 0, 1, 0xFFFFFFFF, 0, 0, 0, 0, 0, 0, 0, 0, .never, []⟩,  -- PCN_TX_FRAGS_LO
  ⟨0x70003C, 0x40, 128, 0, 1, 0xFFFFFFFF, 0, 0, 0, 0, 0, 0, 0, 0, .never, []⟩,  -- PCN_TX_FRAGS_HI
  ⟨0x702000, 0x20, 128, 0, 1, 0xFFFFFFFF, 0, 0, 0, 0, 0, 0, 0, 0, .never, []⟩,  -- BW_RX_MIN
  ⟨0x702004, 0x20, 128, 0, 1, 0xFFFFFFFF, 0, 0, 0, 0, 0, 0, 0, 0, .never, []⟩,  -- BW_RX_MAX
  ⟨0x702008, 0x20, 128, 0, 1, 0xFFFFFFFF, 0, 0, 0, 0, 0, 0, 0, 0, .never, []⟩,  -- BW_RX_MEAN
  ⟨0x70200C, 0x20, 128, 0, 1, 0xFFFFFFFF, 0, 0, 0, 0, 0, 0, 0, 0, .never, []⟩,  -- BW_TX_MIN
  ⟨0x702010, 0x20, 128, 0, 1, 0xFFFFFFFF, 0, 0, 0, 0, 0, 0, 0, 0, .never, []⟩,  -- BW_TX_MAX
  ⟨0x702014, 0x20, 128, 0, 1, 0xFFFFFFFF, 0, 0, 0, 0, 0, 0, 0, 0, .never, []⟩,  -- BW_TX_MEAN
  ⟨0x704000, 8, 4, 0, 1, 0xFFFFFFFF, 0, 0, 0, 0, 0, 0, 0, 0, .never, []⟩,  -- LE_CYC_LO
  ⟨0x704004, 8, 4, 0, 1, 0xFFFFFFFF, 0, 0, 0, 0, 0, 0, 0, 0, .never, []⟩,  -- LE_CYC_HI
  ⟨0x704020, 0, 1, 0, 1, 0xFFFFFFFF, 0, 0, 0, 0, 0, 0, 0, 0, .never, []⟩,  -- LE_TICKS_LO
  ⟨0x704024, 0, 1, 0, 1, 0xFFFFFFFF, 0, 0, 0, 0, 0, 0, 0, 0, .never, []⟩,  -- LE_TICKS_HI
  ⟨0x704030, 4, 4, 0, 1, 0xFFFF, 0, 0, 0, 0, 0, 0, 0, 0, .never, []⟩,  -- LE_MAX
  ⟨0x704040, 4, 4, 0, 1, 0xFFFFFFFF, 0, 0, 0, 0, 0, 0, 0, 0, .never, []⟩,  -- LE_OVR
  ⟨0x705000, 0x10, 64, 0, 1, 0, 0xC003FFFF, 0, 0, 0, 0, 0, 0, 0, .never, []⟩,  -- PC_SEL
  ⟨0x705004, 0x10, 64, 0, 1, 0, 0xFFFFFFFF, 0, 0, 0, 0, 0, 0, 0, .never, []⟩,  -- PC_CNT_LO
  ⟨0x705008, 0x10, 64, 0, 1, 0, 0xFFFFFFFF, 0, 0, 0, 0, 0, 0, 0, .never, []⟩,  -- PC_CNT_HI
  ⟨0x706000, 0, 1, 0, 1, 0, 0, 7, 0, 0, 0, 0, 0, 0, .never, []⟩,  -- PC_CTRL
  ⟨0x706004, 0, 1, 0, 1, 0, 0xFFFFFFFF, 0, 0, 0, 0, 0, 0, 0, .never, []⟩,  -- PC_AT_LO
  ⟨0x706008, 0, 1, 0, 1, 0, 0xFFFF, 0, 0, 0, 0, 0, 0, 0, .never, []⟩,  -- PC_AT_HI
  ⟨0x70600C, 0, 1, 0, 1, 0x18, 0, 0, 0, 0, 7, 0, 0, 0, .never, []⟩,  -- PC_STATUS
  ⟨0x706010, 0, 1, 0, 1, 0xFFFFFFFF, 0, 0, 0, 0, 0, 0, 0, 0, .never, []⟩,  -- PC_SNAP_FN_LO
  ⟨0x706014, 0, 1, 0, 1, 0xFFFF, 0, 0, 0, 0, 0, 0, 0, 0, .never, []⟩,  -- PC_SNAP_FN_HI
  ⟨0x706018, 0, 1, 0, 1, 0, 0x3FFF, 0, 0, 0, 0, 0, 0, 0, .never, []⟩,  -- PC_BW_CFG
  ⟨0x706020, 4, 2, 0, 1, 0, 0, 0, 0, 0, 0xFFFFFFFF, 0, 0, 0, .never, []⟩,  -- PC_OVF
  ⟨0x706100, 4, 16, 0, 1, 0xFFFFFFFF, 0, 0, 0, 0, 0, 0, 0, 0, .never, []⟩]  -- PC_RAIL

/-- Registers of the 64 KiB at 0x0078_0000. -/
def regs78 : List RegDesc := [
  ⟨0x780000, 0, 1, 0, 1, 0x7FF007FF, 0, 0, 0, 0, 0, 0, 0x80000000, 0, .never, []⟩,  -- DBG_UNLOCK
  ⟨0x780010, 4, 4, 0, 1, 0, 0, 0, 0xFFF, 0, 0, 0, 0, 0, .debug, []⟩,  -- DBG_OBS_SEL
  ⟨0x780020, 4, 2, 0, 1, 0, 0, 0, 0xFFF, 0, 0, 0, 0, 0, .debug, []⟩,  -- DBG_ATEST_SEL
  ⟨0x780030, 0, 1, 0, 1, 0xF3, 0, 0, 0, 0, 0, 0, 0, 0, .never, []⟩]  -- DBG_HALT_STATUS

/-- The registers of each 64 KiB of the register space, by the upper bits of their address (R40). -/
def regBlocks : List (Nat × List RegDesc) := [
  (0x0, regs00),
  (0x1, regs01),
  (0x2, regs02),
  (0x3, regs03),
  (0x4, regs04),
  (0x10, regs10),
  (0x11, regs10),
  (0x13, regs13),
  (0x12, regs12),
  (0x14, regs14),
  (0x15, regs15),
  (0x16, regs16),
  (0x17, regs17),
  (0x18, regs18),
  (0x19, regs19),
  (0x1A, regs1A),
  (0x1C, regs1C),
  (0x1D, regs1D),
  (0x1E, regs1E),
  (0x1F, regs1F),
  (0x20, regs20),
  (0x22, regs22),
  (0x40, regs40),
  (0x41, regs41),
  (0x42, regs42),
  (0x50, regs50),
  (0x51, regs51),
  (0x52, regs52),
  (0x60, regs60),
  (0x68, regs68),
  (0x70, regs70),
  (0x78, regs78)]

/-- The descriptors that may hold an address. -/
def descsAt (a : Nat) : List RegDesc :=
  match regBlocks.find? (fun b => b.1 == a / 65536) with | some b => b.2 | none => []

/-- The descriptor of the register at an address; none where no register lies (R41). -/
def descOf (a : Nat) : Option RegDesc :=
  (descsAt a).find? (fun d => (indexIn d.base d.s1 d.n1 d.s2 d.n2 a).isSome)

/-- Every descriptor. -/
def allDescs : List RegDesc := regBlocks.flatMap Prod.snd

/-- The address of member (i, j) of an array. -/
def RegDesc.at (d : RegDesc) (i j : Nat) : Nat := d.base + d.s1 * i + d.s2 * j

/-! ### Access codes (R5 to R9) -/

/-- An initiator finds the RWL fields of a register unlocked (R8 and the register's own rule). -/
def unlockedBy (u : Unlock) (s : State) (i : Initiator) (a : Nat) : Bool :=
  match u with
  | .never => false
  | .operator => sessionOf [1] s i
  | .service => sessionOf [3] s i
  | .fwOperatorService => (match i with | .core => false | .fw => true | .session _ => sessionOf [1, 3] s i)
  | .coreOperatorService => coreOr [1, 3] s i
  | .safety => mayWriteSafety s i
  | .debug => scopeBit (if a < Reg.DBG_ATEST_SEL 0 then 0 else 1) s

/-- The bits of a register that a written word sets directly: RW, RWS, and RWL where they are unlocked. -/
def writtenBits (d : RegDesc) (open' : Bool) : Nat := d.rw ||| d.rws ||| (if open' then d.rwl else 0)

/-- A written word changes a locked RWL field (R8): the whole word is refused. -/
def lockedChange (d : RegDesc) (open' : Bool) (old v : Word) : Bool :=
  !open' && decide ((old ^^^ v) &&& BitVec.ofNat 32 d.rwl ≠ 0#32)

/-- The word a register holds after a write of `v` (R5, R6): RW, RWS and open RWL bits take it, W1C bits at 1 clear, W1S bits at 1
set; RO, WO, RC and RWC bits keep. -/
def afterWrite (d : RegDesc) (open' : Bool) (old v : Word) : Word :=
  let m := BitVec.ofNat 32 (writtenBits d open')
  let c := BitVec.ofNat 32 d.w1c
  ((old &&& ~~~m &&& ~~~(v &&& c)) ||| (v &&& m)) ||| (v &&& BitVec.ofNat 32 d.w1s)

/-- A write makes an effective change of an RWL field, which the change log records (R194). -/
def effectiveLocked (d : RegDesc) (open' : Bool) (old v : Word) : Bool :=
  open' && decide ((old ^^^ v) &&& BitVec.ofNat 32 d.rwl ≠ 0#32)

/-- What a read shows: WO bits read as zero (R5). -/
def shownBits (d : RegDesc) (w : Word) : Word := w &&& ~~~(BitVec.ofNat 32 d.wo)

/-- The word after a read: RC bits are clear (R5, R6). -/
def afterRead (d : RegDesc) (w : Word) : Word := w &&& ~~~(BitVec.ofNat 32 d.rc)

/-! ### What a section loads (R184, R585 and each block's rule) -/

/-- The bits that a section loads into the register at an address. -/
def loadMask (sec a : Nat) : Word :=
  let k := if 0x20 ≤ sec ∧ sec < 0x60 then 0x20 else sec
  match descOf a with
  | some d => (match d.loads.find? (fun l => l.1 == k) with | some l => BitVec.ofNat 32 l.2 | none => 0#32)
  | none => 0#32

end Sys2Proof.Machine
end

