-- ==== Sys2Proof/Machine/Engine.lean ====
section
/-!
DEFINITION. Machine/Engine.lean: sessions, responses and long operations (R605 to R627 of
spec/20_commands_and_serial_ports.md): what the commands of Machine/Command.lean share.
-/
namespace Sys2Proof.Machine

/-! ### Sessions (R607, R613, R616) -/

/-- A session index not in use. -/
def restSess : Sess := { seqIn := 0, seqOut := 0, key := 0, snonce := [], idle := 0, rejects := 0, rejectAt := none, spent := 0, port := 0 }

/-- The hidden part of session `k`. -/
def State.sess (s : State) (k : Nat) : Sess := Tab.get restSess s.eng.sess k
/-- Stores the hidden part of session `k`. -/
def State.setSess (s : State) (k : Nat) (x : Sess) : State := { s with eng := { s.eng with sess := Tab.set restSess s.eng.sess k x } }

/-- Session `k` is open: VALID and not half-open. -/
def sessOpen (s : State) (k : Nat) : Bool := s.rdB (Fld.CE_SESS_VALID k) && !s.rdB (Fld.CE_SESS_HALF_OPEN k)

/-- The sessions that are open or half-open. -/
def sessionsValid (s : State) : List Nat := (List.range 64).filter (fun k => s.rdB (Fld.CE_SESS_VALID k))

/-- SESSIONS of CE_STATUS (R638). -/
def showSessions (s : State) : State := s.wr Fld.CE_STATUS_SESSIONS (sessionsValid s).length

/-- The node number that enters the session key (R614, R172): 0x03FF while no image is active. -/
def keyNode (s : State) : Nat := if s.img.phase = .booted then s.rd Fld.RG_RING_CFG_NODE else 0x3FF

/-- K_s under the credential of a role (R614), for a node, a session index and SNONCE. -/
def sessionKey (role : BitVec 256) (node k : Nat) (snonce : List Byte) : BitVec 256 :=
  Config.hmac256 role ([0x42#8, 0x58#8, 0x53#8, 0x4B#8] ++ leBytes 2 node ++ leBytes 1 k ++ snonce)

/-- SNONCE: the first 8 bytes of SHA-256 of both nonces (R614). -/
def snonceOf (cnonce pnonce : List Byte) : List Byte := (beBytes 32 (Config.sha256 (cnonce ++ pnonce)).toNat).take 8

/-- The credential of a role, and for TENANT of a plot (R614). -/
def credential (s : State) (role plot : Nat) : Option (BitVec 256) :=
  Tab.get none s.eng.creds (role * 64 + (if role = 4 then plot else 0))

/-! ### Responses (R606 to R608, R698) -/

/-- The bytes that the MAC of a response covers (R606): byte 0 to the end of ARGS. -/
def responseBytes (r : Response) : List Byte :=
  [0x21#8] ++ leBytes 1 r.session ++ leBytes 2 r.opcode ++ leBytes 2 r.tag ++ leBytes 1 r.status
    ++ leBytes 1 (r.final.toNat + 2 * r.more.toNat) ++ leBytes 4 r.seq ++ leBytes 2 r.data.length ++ [0#8, 0#8] ++ r.data

/-- A clocked serial port at rest. -/
def restCsp : Csp := { tx := [], rx := [], lens := [], responses := [], busy := none }
/-- Serial port `n`. -/
def State.cspOf (s : State) (n : Nat) : Csp := Tab.get restCsp s.csp n
/-- Stores serial port `n`. -/
def State.setCsp (s : State) (n : Nat) (x : Csp) : State := { s with csp := Tab.set restCsp s.csp n x }

/-- A response leaves over a transport: to the queue of a serial port (R634), else to the ring or a management port. -/
def deliver (transport : Nat) (r : Response) (s : State) : State :=
  if 2 ≤ transport ∧ transport ≤ 4 then
    let n := transport - 1
    s.setCsp n { s.cspOf n with responses := (s.cspOf n).responses ++ [r] }
  else s.send (.response transport r)

/-- A response of session `k` under its next SEQ and its key; the responses of a closed session are discarded (R607, R616). -/
def respond (k opcode tag status : Nat) (final more : Bool) (data : List Byte) (s : State) : State :=
  if k < 64 ∧ s.rdB (Fld.CE_SESS_VALID k) = true then
    let q := s.sess k
    let r : Response := { session := k, opcode := opcode, tag := tag, status := status, final := final, more := more,
                          seq := q.seqOut + 1, data := data, mac := 0 }
    let r := { r with mac := Config.hmac256 q.key (responseBytes r) }
    deliver (s.rd (Fld.CE_SESS_TRANSPORT k)) r (s.setSess k { q with seqOut := q.seqOut + 1 })
  else s

/-- A response with SESSION = 0xFF: no MAC and no SEQ (R606, R622). -/
def respondOpen (transport opcode tag status : Nat) (final more : Bool) (data : List Byte) (s : State) : State :=
  deliver transport { session := 0xFF, opcode := opcode, tag := tag, status := status, final := final, more := more, seq := 0,
                      data := data, mac := 0 } s

/-! ### Long operations (R623 to R627) -/

/-- The hidden part of operation `k`. -/
def State.op (s : State) (k : Nat) : Option LongOp := Tab.get none s.eng.ops k
/-- Stores the hidden part of operation `k`. -/
def State.setOp (s : State) (k : Nat) (o : LongOp) : State := { s with eng := { s.eng with ops := Tab.set none s.eng.ops k (some o) } }

/-- The 16 entries of the operation table. -/
def opKeys : List Nat := List.range 16

/-- Operation `k` is not final: QUEUED, RUNNING or SUSPENDED. -/
def opLive (s : State) (k : Nat) : Bool := s.rdB (Fld.CE_OP_VALID k) && decide (s.rd (Fld.CE_OP_STATE k) < 3)

/-- The entry that holds a tag, and a live one if there is one (R612, R624). -/
def opOfTag (s : State) (tag : Nat) : Option Nat :=
  match opKeys.find? (fun k => opLive s k && s.rd (Fld.CE_OP_TAG k) == tag) with
  | some k => some k
  | none => (opKeys.filter (fun k => s.rdB (Fld.CE_OP_VALID k) && s.rd (Fld.CE_OP_TAG k) == tag)).foldl
      (fun best k => match best with
        | none => some k
        | some b => if ((s.op b).map LongOp.ended).getD 0 < ((s.op k).map LongOp.ended).getD 0 then some k else some b) none

/-- LONG_OPS and INFLIGHT of CE_STATUS (R612, R638). -/
def showOps (s : State) : State :=
  let n := (opKeys.filter (opLive s)).length
  (s.wr Fld.CE_STATUS_LONG_OPS n).wr Fld.CE_STATUS_INFLIGHT (n + s.eng.waits.length + s.otp.programming.isSome.toNat)

/-- The entry for a new operation: a free one, else the one that has been final for longest (R624). -/
def opFree (s : State) : Option Nat :=
  match opKeys.find? (fun k => !s.rdB (Fld.CE_OP_VALID k)) with
  | some k => some k
  | none => (opKeys.filter (fun k => !opLive s k)).foldl (fun best k => match best with
      | none => some k
      | some b => if ((s.op k).map LongOp.ended).getD 0 < ((s.op b).map LongOp.ended).getD 0 then some k else some b) none

/-- An operation with no progress. -/
def newOp (opcode tag session role : Nat) : LongOp :=
  { opcode := opcode, tag := tag, session := session, role := role, slot := 0, length := 0, next := 0, log := 0, pos := 0, left := 0,
    skipped := 0, broken := 0, parts := 0, pass := 0, buf := [], idle := 0, held := 0, ended := 0 }

/-- Entry `k` takes an operation in a state (R640). -/
def opPlace (k state : Nat) (o : LongOp) (s : State) : State :=
  let s := (s.setReg (Reg.CE_OP k) 0#32).setReg (Reg.CE_OP2 k) 0#32
  let s := ((s.wr (Fld.CE_OP_VALID k) 1).wr (Fld.CE_OP_STATE k) state).wr (Fld.CE_OP_OPCODE k) (o.opcode % 256)
  let s := (s.wr (Fld.CE_OP_TAG k) o.tag).wr (Fld.CE_OP2_SESSION k) o.session
  showOps (s.setOp k o)

/-- A response of an operation: to its session, or over CSP1 without a session in lifecycle RETIRED (R608, R622). -/
def opRespond (o : LongOp) (status : Nat) (final more : Bool) (data : List Byte) (s : State) : State :=
  if o.session = 0xFF ∧ s.otp.lifecycle = 3 then respondOpen 2 o.opcode o.tag status final more data s
  else respond o.session o.opcode o.tag status final more data s

/-- Operation `k` ends: state 3 DONE, 4 CANCELLED, 5 FAILED, with its status; the final response goes to its session if that
is open (R608, R623, R636). -/
def opEnd (k state status : Nat) (data : List Byte) (s : State) : State :=
  match s.op k with
  | none => s
  | some o =>
    let s := { s with eng := { s.eng with endCount := s.eng.endCount + 1 } }
    let s := s.setOp k { o with ended := s.eng.endCount }
    let s := (s.wr (Fld.CE_OP_STATE k) state).wr (Fld.CE_OP_STATUS k) status
    let s := when (state == 3) (fun s => s.wr (Fld.CE_OP2_PROGRESS k) 100) s
    let s := when (state == 5) (fun s => s.wr Fld.CE_EVENTS_OP_FAIL_EV 1) s
    let s := s.logEv 0x05 0x0006 (o.tag + state * 4096 + status * 65536)
    opRespond o status true false data (showOps s)

/-- The live operations with an opcode. -/
def opsWith (s : State) (opcode : Nat) : List Nat :=
  opKeys.filter (fun k => opLive s k && (match s.op k with | some o => o.opcode == opcode | none => false))

/-- The live data-fed operations: IMAGE_STAGE and FLASH_WRITE (R625). -/
def dataFed (s : State) : List Nat := opsWith s 0x20 ++ opsWith s 0x25

/-- Operation `k` becomes SUSPENDED (R623, R625). -/
def opSuspend (k : Nat) (s : State) : State :=
  match s.op k with
  | some o => (s.setOp k { o with held := 0 }).wr (Fld.CE_OP_STATE k) 2
  | none => s

/-! ### The close of a session (R616, R625, R657) -/

/-- Index `k` becomes free (R613, R616): the session's operations go on without it, but those that it feeds are suspended; its unlock
ends. -/
def freeSession (k : Nat) (s : State) : State :=
  let s := (s.setReg (Reg.CE_SESS k) 0#32).setSess k restSess
  let s := forEach (dataFed s) (fun j s => match s.op j with
    | some o => if o.session = k ∧ s.rd (Fld.CE_OP_STATE j) ≠ 2 then opSuspend j s else s
    | none => s) s
  let s := forEach (opKeys.filter (opLive s)) (fun j s => match s.op j with
    | some o => if o.session = k then (s.setOp j { o with session := 0xFF }).wr (Fld.CE_OP2_SESSION j) 0xFF else s
    | none => s) s
  let s := { s with eng := { s.eng with waits := s.eng.waits.map (fun w => if w.session = k then { w with session := 0xFF } else w) } }
  let s := when (s.rd Fld.DBG_UNLOCK_SESSION == k) (unlockEnd 2) s
  showSessions s

/-- Session `k` closes for a reason (R616, R636): 1 = command, 2 = idle, 3 = transport, 4 = R607, 5 = cores, 6 = half-open
timeout. -/
def closeSession (k reason : Nat) (s : State) : State :=
  if s.rdB (Fld.CE_SESS_VALID k) then freeSession k (s.logEv 0x05 0x0002 (k + reason * 256)) else s

/-- The port whose first lane is `p`, or its management SecY, is lost: the sessions that came over it close (R616). -/
def transportLost (transport p : Nat) (s : State) : State :=
  forEach ((sessionsValid s).filter (fun k => s.rd (Fld.CE_SESS_TRANSPORT k) == transport && (s.sess k).port == p))
    (fun k s => closeSession k 3 s) s

/-! ### Frames that are not authentic (R607) -/

/-- Frames in a second (R12, R15). -/
def framesPerSecond : Nat := 50000

/-- A frame is discarded without a response: counted, flagged, and logged at most once per session and second; the 16th in a
row closes the session (R607). -/
def rejectFrame (k transport : Nat) (s : State) : State :=
  let s := (s.inc Fld.CE_COUNT_REJECTED).wr Fld.CE_EVENTS_AUTH_FAIL_EV 1
  if k < 64 ∧ s.rdB (Fld.CE_SESS_VALID k) = true then
    let q := s.sess k
    let due := match q.rejectAt with | some f => decide (framesPerSecond ≤ fnDiff s.fn f) | none => true
    let s := when due (fun s => s.logEv 0x05 0x0003 (k + transport * 4096)) s
    let s := s.setSess k { q with rejects := q.rejects + 1, rejectAt := if due then some s.fn else q.rejectAt }
    if 16 ≤ q.rejects + 1 then closeSession k 4 s else s
  else s.logOnce 0x05 0x0003 0xFF (0xFF + transport * 4096)

/-- SESSION_IDLE (R616): SESS_IDLE seconds, at least 10, have passed without an authentic command of session `k`. -/
def sessionIdle (k : Nat) (s : State) : State :=
  if sessOpen s k && decide (Nat.max 10 (s.rd Fld.CE_CFG_SESS_IDLE) * framesPerSecond ≤ (s.sess k).idle) then closeSession k 2 s
  else s

/-- SESSION_IDLE (R616). -/
def execSessionIdle (k : Fin 64) (s : State) : Host.Outcome State Fault Refusal := run (sessionIdle k.val) s

/-- HALF_OPEN_TIMEOUT (R613): 5 s without SESSION_PROVE free the index and log AUTH_FAIL. -/
def halfOpenTimeout (k : Nat) (s : State) : State :=
  if s.rdB (Fld.CE_SESS_HALF_OPEN k) && decide (5 * framesPerSecond ≤ (s.sess k).idle) then
    closeSession k 6 (s.logEv 0x05 0x0003 (k + s.rd (Fld.CE_SESS_TRANSPORT k) * 4096))
  else s

/-- HALF_OPEN_TIMEOUT (R613). -/
def execHalfOpenTimeout (k : Fin 64) (s : State) : Host.Outcome State Fault Refusal := run (halfOpenTimeout k.val) s

/-- A frame passes for one session: its idle time, shown in seconds (R639), and a tenant's bucket (R617). -/
def sessFrame (k : Nat) (s : State) : State :=
  let q := s.sess k
  let idle := q.idle + 1
  let s := s.setSess k { q with idle := idle, spent := q.spent - Nat.max 1 (s.rd Fld.CE_CFG_TEN_RATE) }
  if idle % framesPerSecond = 0 then s.wr (Fld.CE_SESS_IDLE k) (Nat.min 0x7FFF (idle / framesPerSecond)) else s

/-- A frame passes for one operation: the time since its last DATA while it runs, and since its suspension (R623, R625). -/
def opFrame (k : Nat) (s : State) : State :=
  match s.op k with
  | some o =>
    match s.rd (Fld.CE_OP_STATE k) with
    | 1 => s.setOp k { o with idle := o.idle + 1 }
    | 2 => s.setOp k { o with held := o.held + 1 }
    | _ => s
  | none => s

/-- What a frame tick counts for the command engine. -/
def engineFrame (s : State) : State :=
  let s := forEach (sessionsValid s) sessFrame s
  let s := forEach (opKeys.filter (opLive s)) opFrame s
  { s with eng := { s.eng with waits := s.eng.waits.map (fun w => { w with age := w.age + 1 }), quiet := s.eng.quiet + 1 } }

/-! ### Loss and return of the cores (R105, R627) -/

/-- The application cores stop: every session closes, and only the front end serves (R627). -/
def appCoresStop (s : State) : State :=
  let s := forEach (sessionsValid s) (fun k s => closeSession k 5 s) s
  s.wr Fld.CE_STATUS_FRONT_ONLY 1

/-- Operation `k` ends FAILED (R105, R627). -/
def opFail (k : Nat) (s : State) : State := opEnd k 5 8 [] s

/-- Every operation that is not final ends FAILED (R105, R627). -/
def opsFail (s : State) : State := forEach (opKeys.filter (opLive s)) opFail s

/-- No short-form command waits for its response any more. -/
def waitsDrop (s : State) : State := { s with eng := { s.eng with waits := [] } }

/-- Once the boot has got as far as the firmware, or the recovery server, sessions are served (R169, R627). -/
def coresServe (s : State) : State :=
  if s.img.phase = .inReset ∨ s.img.phase = .released then s else s.wr Fld.CE_STATUS_FRONT_ONLY 0

/-- The application cores run again, once they have their clock: operations that were not final end FAILED; a pending activation stays in force
in the boot record (R105, R627). -/
def appCoresRestart (s : State) : State := if s.rdB Fld.CLK_STATUS_APP_LOCK then showOps (coresServe (waitsDrop (opsFail s))) else s

/-- The Goravaug firmware starts and the command engine accepts sessions (R169 step 5). -/
def firmwareStart (s : State) : State := s.wr Fld.CE_STATUS_FRONT_ONLY 0

/-- The recovery server serves CSP1 as a slave with the command function (R172, R630). -/
def recoveryServe (s : State) : State :=
  (s.setReg (Reg.CSP_CFG 1) 0x90000000#32).wr Fld.CE_STATUS_FRONT_ONLY 0

/-- A change of lifecycle zeroises what it must: in RETIRED the key slots and the session secrets (R192). -/
def zeroise (s : State) : State :=
  { s with otp := { s.otp with keyHash := [], enrolled := 0 },
           eng := { s.eng with sess := [], creds := [], caks := [] } }

end Sys2Proof.Machine
end

