-- ==== Sys2Proof/Machine/Serial.lean ====
section
/-!
DEFINITION. Machine/Serial.lean: the clocked serial ports (R630 to R634, R641, R642 of spec/20_commands_and_serial_ports.md): master
transfers, raw slave transfers, the command function, and the FIFOs.
-/
namespace Sys2Proof.Machine

/-! ### The FIFOs (R642) -/

/-- Port `n` is used with the command function (R634, R641). -/
def cspCommand (s : State) (n : Nat) : Bool :=
  s.rdB (Fld.CSP_CFG_EN n) && !s.rdB (Fld.CSP_CFG_MODE n) && s.rd (Fld.CSP_CFG_FUNC n) == 1

/-- Port `n` is a raw slave. -/
def cspRawSlave (s : State) (n : Nat) : Bool :=
  s.rdB (Fld.CSP_CFG_EN n) && !s.rdB (Fld.CSP_CFG_MODE n) && s.rd (Fld.CSP_CFG_FUNC n) == 0

/-- TX_LEVEL and RX_LEVEL follow the FIFOs. -/
def cspShow (n : Nat) (s : State) : State :=
  (s.wr (Fld.CSP_STATUS_TX_LEVEL n) (s.cspOf n).tx.length).wr (Fld.CSP_STATUS_RX_LEVEL n) (s.cspOf n).rx.length

/-- A word is pushed into the TX FIFO of port `n`, or sets TX_OVF (R642). CSP0 belongs to the firmware and takes no write (R641); a port
with the command function has no FIFO. -/
def cspPush (n : Nat) (v : Word) (s : State) : State :=
  if n = 0 ∨ cspCommand s n = true then s
  else if 512 ≤ (s.cspOf n).tx.length then s.wr (Fld.CSP_STATUS_TX_OVF n) 1
  else cspShow n (s.setCsp n { s.cspOf n with tx := (s.cspOf n).tx ++ [v] })

/-- The oldest received word is removed and returned; an empty FIFO reads 0 and sets RX_UNF (R642). -/
def cspPop (n : Nat) (s : State) : State :=
  if cspCommand s n then s.answer 0#32 .done .ok
  else match (s.cspOf n).rx with
    | [] => (s.wr (Fld.CSP_STATUS_RX_UNF n) 1).answer 0#32 .done .ok
    | w :: q => (cspShow n (s.setCsp n { s.cspOf n with rx := q })).answer w .done .ok

/-- The oldest length is removed and returned (R642). -/
def cspLenPop (n : Nat) (s : State) : State :=
  if cspCommand s n then s.answer 0#32 .done .ok
  else match (s.cspOf n).lens with
    | [] => (s.wr (Fld.CSP_STATUS_RX_UNF n) 1).answer 0#32 .done .ok
    | k :: q => (s.setCsp n { s.cspOf n with lens := q }).answer (BitVec.ofNat 32 k) .done .ok

/-- CSP_TX_PUSH (R642). -/
def execCspTxPush (i : Initiator) (n : Fin 4) (v : Word) (s : State) : Host.Outcome State Fault Refusal :=
  run (writeAdmitted i (Reg.CSP_TXDATA n.val) (cspPush n.val v)) s
/-- CSP_RX_POP (R642). -/
def execCspRxPop (i : Initiator) (n : Fin 4) (s : State) : Host.Outcome State Fault Refusal :=
  run (readAdmitted i (Reg.CSP_RXDATA n.val) (cspPop n.val)) s
/-- CSP_RXLEN_POP (R642). -/
def execCspRxlenPop (i : Initiator) (n : Fin 4) (s : State) : Host.Outcome State Fault Refusal :=
  run (readAdmitted i (Reg.CSP_RXLEN n.val) (cspLenPop n.val)) s

/-- Words that hold some bits. -/
def wordsOf (bits : Nat) : Nat := (bits + 31) / 32

/-- The unused bits of a last word of `k` bits, 1 to 32, read 0: the first bit on the wire is bit 31, or bit 0 with LSB_FIRST (R631, R632). -/
def lastWord (lsb : Bool) (k : Nat) (w : Word) : Word :=
  if lsb then w &&& (BitVec.allOnes 32 >>> (32 - k)) else w &&& (BitVec.allOnes 32 <<< (32 - k))

/-- The words that `bits` received bits fill: missing words read 0. -/
def rxWords (lsb : Bool) (bits : Nat) (l : List Word) : List Word :=
  (List.range (wordsOf bits)).map (fun j =>
    let w := l.getD j 0#32
    if 32 * (j + 1) ≤ bits then w else lastWord lsb (bits - 32 * j) w)

/-- Received words go to the RX FIFO; what finds it full is discarded and sets RX_OVF (R633). -/
def cspReceive (n : Nat) (l : List Word) (s : State) : State :=
  let q := s.cspOf n
  let s := s.setCsp n { q with rx := (q.rx ++ l).take 512 }
  cspShow n (if 512 < q.rx.length + l.length then s.wr (Fld.CSP_STATUS_RX_OVF n) 1 else s)

/-! ### Master transfers (R632) -/

/-- A write of CSP_XFER: LEN, and with GO = 1 a transfer of LEN + 1 bits, refused while BUSY or short of words; only a port that is a master
has transfers to start (R632, R641). -/
def cspXferWrite (n : Nat) (v : Word) (s : State) : State :=
  if n = 0 then s
  else
    let s := s.wr (Fld.CSP_XFER_LEN n) ((Fld.CSP_XFER_LEN n).get v)
    if (Fld.CSP_XFER_GO n).get v = 0 ∨ s.rdB (Fld.CSP_CFG_EN n) = false ∨ s.rdB (Fld.CSP_CFG_MODE n) = false then s
    else
      let q := s.cspOf n
      let bits := (Fld.CSP_XFER_LEN n).get v + 1
      if q.busy.isSome ∨ q.tx.length < wordsOf bits then s.wr (Fld.CSP_STATUS_XFER_REF n) 1
      else
        let s := s.setCsp n { q with tx := q.tx.drop (wordsOf bits), busy := some bits }
        cspShow n ((s.wr (Fld.CSP_XFER_BUSY n) 1).send (.serial n bits (q.tx.take (wordsOf bits))))

/-- CSP_GO (R632): a write of GO with LEN. -/
def execCspGo (i : Initiator) (n : Fin 4) (len : BitVec 12) (s : State) : Host.Outcome State Fault Refusal :=
  run (writeAdmitted i (Reg.CSP_XFER n.val) (cspXferWrite n.val (0x80000000#32 ||| len.setWidth 32))) s

/-- CSP_XFER_DONE (R632): the transfer completes; `rx` are the words received. Without the application clock the master clock has stopped (R105). -/
def execCspXferDone (n : Fin 4) (rx : List Word) (s : State) : Host.Outcome State Fault Refusal :=
  run (fun s => if !s.rdB Fld.CLK_STATUS_APP_LOCK then s else match (s.cspOf n.val).busy with
    | none => s
    | some bits =>
      let s := (s.setCsp n.val { s.cspOf n.val with busy := none }).wr (Fld.CSP_XFER_BUSY n.val) 0
      cspReceive n.val (rxWords (s.rdB (Fld.CSP_CFG_LSB_FIRST n.val)) bits rx) s) s

/-! ### Slave transfers (R633, R634) -/

/-- A raw slave transfer of some bits ends (R633): at most 4,096 are received; words of the TX FIFO go out, 0 bits for want of them. -/
def cspSlave (n bits : Nat) (rx : List Word) (s : State) : State :=
  let q := s.cspOf n
  let k := Nat.min bits 4096
  let s := if q.tx.length < wordsOf bits then s.wr (Fld.CSP_STATUS_TX_UNF n) 1 else s
  let s := (s.setCsp n { q with tx := q.tx.drop (wordsOf bits) }).send (.serial n bits (q.tx.take (wordsOf bits)))
  let s := if 4096 < bits then s.wr (Fld.CSP_STATUS_LONG_EV n) 1 else s
  let s := cspReceive n (rxWords (s.rdB (Fld.CSP_CFG_LSB_FIRST n)) k rx) s
  s.setCsp n { s.cspOf n with lens := ((s.cspOf n).lens ++ [k]).take 16 }

/-- CSP_SLAVE_XFER (R633): CS_N rises after `bits` clocks; a transfer without a clock leaves nothing. -/
def execCspSlaveXfer (n : Fin 4) (bits : Nat) (rx : List Word) (s : State) : Host.Outcome State Fault Refusal :=
  run (fun s => if cspRawSlave s n.val && decide (bits ≠ 0) then cspSlave n.val bits rx s else s) s

/-- Bytes of a response on the wire (R606). -/
def responseLen (r : Response) : Nat := 48 + r.data.length

/-- A transfer of the command function (R634): a frame of `len` bytes cut short is discarded with SHORT_EV, and the oldest response leaves
once all of its bytes have gone out. -/
def cspFrame (n bits len : Nat) (s : State) : State :=
  let s := if bits < 16 + 8 * len then s.wr (Fld.CSP_STATUS_SHORT_EV n) 1 else s
  match (s.cspOf n).responses with
  | [] => s
  | r :: q => if 16 + 8 * responseLen r ≤ bits then
      (s.setCsp n { s.cspOf n with responses := q }).send (.response (n + 1) r) else s

/-- CSP_CMD_XFER (R634): a transfer of `bits` clocks whose DI announced a frame of `len` bytes. The command of a frame that was whole
arrives as its own row. -/
def execCspCmdXfer (n : Fin 4) (bits len : Nat) (s : State) : Host.Outcome State Fault Refusal :=
  run (fun s => if cspCommand s n.val then cspFrame n.val bits len s else s) s

end Sys2Proof.Machine
end

