-- ==== Sys2Proof/Machine/ImageFile.lean ====
section
/-!
DEFINITION. Machine/ImageFile.lean: the pitch image as bytes (R173 to R176 of spec/06_startup_and_pitch_image.md): header
fields, section table, configuration digest and the verification in the order of R176; and the boot record (R168).
-/
namespace Sys2Proof.Machine

/-! ### Header (R173) -/

/-- EPOCH. -/
def imgEpoch (m : List Byte) : Nat := leAt m 0x10 4
/-- LENGTH. -/
def imgLength (m : List Byte) : Nat := leAt m 0x14 4
/-- SECTIONS. -/
def imgSections (m : List Byte) : Nat := leAt m 0x18 2
/-- START_STATE. -/
def imgStart (m : List Byte) : Nat := leAt m 0x1A 1
/-- DIGEST, declared. -/
def imgDigest (m : List Byte) : BitVec 128 := digestOf (bytesAt m 0x20 16)
/-- RAIL_PLAN entry `n`: the fields of RAIL_CFG_nn in its first four bytes (DEDUCED, assumption 15). -/
def imgRail (m : List Byte) (n : Nat) : Nat := leAt m (0x40 + 8 * n) 4
/-- CLOCK, laid out as SSC_CFG bits 15:0. -/
def imgClock (m : List Byte) : Nat := leAt m 0xC0 4
/-- BANKS. -/
def imgBanks (m : List Byte) : Nat := leAt m 0xC4 1
/-- HFLAGS bit 0: a development image. -/
def imgDev (m : List Byte) : Bool := (leAt m 6 2).testBit 0
/-- HFLAGS bit 1: RAISE_MIN (R186). -/
def imgRaiseMin (m : List Byte) : Bool := (leAt m 6 2).testBit 1
/-- KEY_SLOT. -/
def imgKeySlot (m : List Byte) : Nat := leAt m 0xA 1
/-- SEC_VERSION. -/
def imgSecVersion (m : List Byte) : Nat := leAt m 0xC 2

/-- One entry of the section table. -/
structure SecEntry where
  id : Nat
  offset : Nat
  length : Nat
  hash : List Byte
  deriving DecidableEq, Repr

/-- Entry `i` of the section table. -/
def secEntry (m : List Byte) (i : Nat) : SecEntry :=
  let o := 0x1000 + 64 * i
  ⟨leAt m o 2, leAt m (o + 8) 4, leAt m (o + 12) 4, bytesAt m (o + 16) 48⟩

/-- The section table. -/
def secTable (m : List Byte) : List SecEntry := (List.range (Nat.min (imgSections m) 96)).map (secEntry m)

/-- The content of a section, none where the image has no such section. -/
def imgSection (m : List Byte) (id : Nat) : Option (List Byte) :=
  match (secTable m).find? (fun e => e.id == id) with
  | some e => some (bytesAt m e.offset e.length)
  | none => none

/-- The section IDs there are (R174). -/
def sectionIds : List Nat :=
  [0x02, 0x03, 0x04, 0x05, 0x06, 0x07, 0x08, 0x09, 0x0A, 0x0B, 0x0C, 0x0D, 0x0E, 0x0F, 0x10]
    ++ (List.range 64).map (fun p => 0x20 + p) ++ [0x7F]

/-- A section differs between two images (R185). -/
def secChanged (old new : List Byte) (id : Nat) : Bool := decide (imgSection old id ≠ imgSection new id)

/-- What a section adds to the digest: ID, LENGTH and content (R175). -/
def digestPart (m : List Byte) (e : SecEntry) : List Byte := leBytes 2 e.id ++ leBytes 4 e.length ++ bytesAt m e.offset e.length

/-- The configuration digest: every section of the table but NODE, in ascending ID order (R175). -/
def computedDigest (m : List Byte) : BitVec 128 :=
  let parts := ((secTable m).filter (fun e => e.id != 0x7F)).foldl (fun t e => Tab.set ([] : List Byte) t e.id (digestPart m e)) ([] : Tab (List Byte))
  first16 (Config.sha384 (parts.flatMap Prod.snd))

/-! ### Verification (R176) -/

/-- A hash as its 48 bytes. -/
def hashBytes (h : BitVec 384) : List Byte := beBytes 48 h.toNat

/-- MAGIC, FORMAT, LENGTH, section table and section bounds are consistent. A section whose ID the table of R174 does not hold makes no image
fail, and it loads nothing (DESIGN CHOICE, assumption 93: R174 and R176 do not say). -/
def imgShapeOk (m : List Byte) : Bool :=
  decide (leAt m 0 4 = 0x4E595242 ∧ leAt m 4 2 = 1 ∧ imgLength m ≤ 12582912
    ∧ 1 ≤ imgSections m ∧ imgSections m ≤ 96 ∧ 0x1000 + 64 * imgSections m ≤ imgLength m)
  && (secTable m).all (fun e => decide (e.offset % 4096 = 0 ∧ e.offset + e.length ≤ imgLength m))
  && decide (((secTable m).map SecEntry.id).Nodup)

/-- TARGET and MIN_STEP fit the part. -/
def imgTargetOk (m : List Byte) : Bool :=
  decide ((leAt m 8 1 = Config.grade ∨ leAt m 8 1 = 3) ∧ leAt m 9 1 ≤ Config.devId.toNat / 16 % 16)

/-- The key is that of its slot, enrolled and not revoked. -/
def imgKeyOk (o : Otp) (m : List Byte) : Bool :=
  let k := imgKeySlot m
  decide (k < 4) && o.enrolled.testBit k && !o.revoked.testBit k
    && decide (Config.sha384 (bytesAt m 0xF00 97) = Tab.get 0#384 o.keyHash k)

/-- SIG verifies over header bytes 0x000 to 0xF9F and the section table. -/
def imgSigOk (m : List Byte) : Bool :=
  Config.ecdsaVerify (bytesAt m 0xF00 97)
    (Config.sha384 (bytesAt m 0 0xFA0 ++ bytesAt m 0x1000 (64 * imgSections m))) (bytesAt m 0xFA0 96)

/-- The registers that the LANES section of an image gives. -/
def laneWords (m : List Byte) : Tab Word :=
  match imgSection m 0x03 with
  | some c => (Config.sectionLoads 0x03 c).foldl (fun t e => Tab.set 0#32 t e.1 e.2) []
  | none => []

/-- The payload of one lane in tenths of a Gbit/s by its configuration: 51.3 Gbit/s of a RING56 lane, 50.0 Gbit/s of an STD50 lane, none of a
lane that is not enabled (R2, R538). -/
def lanePayload (w : Word) : Nat :=
  if (Fld.RG_LANE_CFG_EN 0).get w = 0 then 0 else if (Fld.RG_LANE_CFG_MODE 0).get w = 0 then 513 else 500

/-- The payload per direction of the enabled lanes of an image, in tenths of a Gbit/s (R2). -/
def imgPayload (m : List Byte) : Nat := ((List.range 128).map (fun l => lanePayload (Tab.get 0#32 (laneWords m) (Reg.RG_LANE_CFG l)))).sum

/-- Every section hashes to its table entry, and FIRMWARE verifies under the Goravaug key; an image without a FIRMWARE section passes (DESIGN
CHOICE, assumption 94: R176 does not say). -/
def imgHashesOk (m : List Byte) : Bool :=
  (secTable m).all (fun e => decide (hashBytes (Config.sha384 (bytesAt m e.offset e.length)) = e.hash))
  && (match imgSection m 0x02 with | some c => Config.firmwareVerifies c | none => true)

/-- The verification of an image: OK, or the status of the first check that fails (R176). -/
def verifyImage (o : Otp) (m : List Byte) : Status :=
  if imgShapeOk m = false then .badArg
  else if imgTargetOk m = false then .badArg
  else if imgKeyOk o m = false then .integrity
  else if imgSigOk m = false then .integrity
  else if imgHashesOk m = false then .integrity
  else if computedDigest m ≠ imgDigest m then .integrity
  else if imgSecVersion m < o.secMin then .integrity
  else if imgDev m = true ∧ 2 ≤ o.lifecycle then .denied
  else if Config.grade = 2 ∧ 52000 < imgPayload m then .noResource
  else .ok

/-! ### Boot record (R168) -/

/-- The record in use: the valid copy with the higher sequence number. -/
def currentRec (f : Flash) : BootRec :=
  if f.rec0.valid && (!f.rec1.valid || decide (f.rec1.seq ≤ f.rec0.seq)) then f.rec0
  else if f.rec1.valid then f.rec1 else BootRec.blank

/-- Rewrites the copy with the lower sequence number and gives it the next number (an invalid copy counts as lower). -/
def writeRec (r : BootRec) (f : Flash) : Flash :=
  let n := (currentRec f).seq + 1
  let r := { r with valid := true, seq := n % 2 ^ 32 }
  if f.rec0.valid && (!f.rec1.valid || decide (f.rec1.seq ≤ f.rec0.seq)) then { f with rec1 := r } else { f with rec0 := r }

/-- The commit marker is programmed into the record in use without rewriting it. -/
def markRec (f : Flash) : Flash :=
  if f.rec0.valid && (!f.rec1.valid || decide (f.rec1.seq ≤ f.rec0.seq)) then { f with rec0 := { f.rec0 with commit := true } }
  else { f with rec1 := { f.rec1 with commit := true } }

/-- State of slot 0 (A) or 1 (B) in a record. -/
def BootRec.slot (r : BootRec) (k : Nat) : SlotState := if k = 0 then r.slotA else r.slotB

/-- A record with the state of one slot replaced. -/
def BootRec.setSlot (r : BootRec) (k : Nat) (x : SlotState) : BootRec :=
  if k = 0 then { r with slotA := x } else { r with slotB := x }

/-- The content of slot 0 (A) or 1 (B). -/
def Flash.slot (f : Flash) (k : Nat) : List Byte := if k = 0 then f.slotA else f.slotB

/-! ### The boot flash behind CSP0 (R167, R635) -/

/-- Transfers are sent on CSP0, each a flash command with its 4-byte address, its dummy clocks and its data bytes. -/
def norSend (l : List Out) (s : State) : State := { s with out := s.out ++ l }

/-- Fast read of `n` bytes: command 0x0C, with 8 dummy clocks. -/
def norRead (a n : Nat) : List Out := [.nor 0x0C (some a) 8 n]

/-- A write enable, a command that writes, and the status read that finds bit 0, busy, at 0 again: 0x06, the command, 0x05. -/
def norWriting (c : Out) : List Out := [.nor 0x06 none 0 0, c, .nor 0x05 none 0 1]

/-- Erase of the 64 KiB block at an address: command 0xDC. -/
def norErase (a : Nat) : List Out := norWriting (.nor 0xDC (some a) 0 0)

/-- Program of up to 256 bytes of a page: command 0x12. -/
def norPage (a n : Nat) : List Out := norWriting (.nor 0x12 (some a) 0 n)

/-- The programming of `n` bytes at `a`, page by page, each 64 KiB block erased before its first byte (R625); `fuel` bounds the pages. -/
def norProgram : Nat → Nat → Nat → List Out
  | 0, _, _ => []
  | fuel + 1, a, n =>
    if n = 0 then []
    else
      let k := Nat.min n (256 - a % 256)
      (if a % 65536 = 0 then norErase a else []) ++ norPage a k ++ norProgram fuel (a + k) (n - k)

/-- The pages that `n` bytes touch at most. -/
def norFuel (n : Nat) : Nat := n / 256 + 2

/-- The address of slot 0 (A) or 1 (B). -/
def slotBase (k : Nat) : Nat := if k = 0 then 0x00100000 else 0x00D00000

/-- The copy of the boot record that a rewrite takes: the one with the lower sequence number (R168). -/
def staleCopy (f : Flash) : Nat := if f.rec0.valid && (!f.rec1.valid || decide (f.rec1.seq ≤ f.rec0.seq)) then 1 else 0

/-- A copy of the boot record is rewritten in the flash (R168). -/
def norRecord (f : Flash) : List Out := norErase (65536 * staleCopy f) ++ norPage (65536 * staleCopy f) 256

/-- The commit marker is programmed into the copy in use (R181). -/
def norMarker (f : Flash) : List Out := norPage (65536 * (1 - staleCopy f)) 256

/-- A change-log entry of 64 bytes is programmed; the 4,096 entries of a block that is needed again are erased before (R167, R197). The entry
of SEQ n is the one of index n − 1 modulo 65,536 in the region (DESIGN CHOICE, assumption 92: the spec gives it no address). -/
def norClog (seq : Nat) (full : Bool) : List Out :=
  let a := 0x01900000 + 64 * ((seq - 1) % 65536)
  (if full then norErase a ++ norErase (a + 65536) ++ norErase (a + 131072) ++ norErase (a + 196608) else []) ++ norPage a 64

/-- The slot in a given state, if any. -/
def slotWith (r : BootRec) (x : SlotState) : Option Nat :=
  if r.slotA = x then some 0 else if r.slotB = x then some 1 else none

/-- Code of a slot state in IMG_STATUS (R201). -/
def slotCode : SlotState → Nat
  | .empty => 0
  | .staged => 1
  | .active => 2
  | .previous => 3
  | .writing => 4

/-- The record after the activation of slot `k`: ACTIVE and PREVIOUS, and nothing pending (R181). -/
def committed (r : BootRec) (k : Nat) : BootRec := { (r.setSlot k .active).setSlot (1 - k) .previous with pending := none, commit := false }

/-- The slot states and the pending activation as the part acts on them: between an activation and the rewrite of the boot record they run
ahead of the flash (R181). -/
def liveRec (s : State) : BootRec :=
  if s.img.rewriteDue then committed (currentRec s.flash) (s.rd Fld.IMG_STATUS_ACT_SLOT) else currentRec s.flash

/-- IMG_STATUS shows the slot states in force, and STG_EPOCH and STG_DIGEST the staged image (R201 to R203). -/
def showSlots (s : State) : State :=
  let r := liveRec s
  let s := (s.wr Fld.IMG_STATUS_SLOT_A (slotCode r.slotA)).wr Fld.IMG_STATUS_SLOT_B (slotCode r.slotB)
  match slotWith r .staged with
  | some k =>
    let m := s.flash.slot k
    forEach [0, 1, 2, 3] (fun w s => s.wr (Fld.STG_DIGEST w) (digestWord (imgDigest m) w)) (s.wr Fld.STG_EPOCH (imgEpoch m))
  | none => forEach [0, 1, 2, 3] (fun w s => s.wr (Fld.STG_DIGEST w) 0) (s.wr Fld.STG_EPOCH 0)

/-- NBR_PEND_g: the neighbour announces the same pending target and staged digest (R190). -/
def nbrPendEval (g : Nat) (s : State) : State :=
  let own := (liveRec s).pending.map (fun p =>
    (p.target, digestOfWords (s.rd (Fld.STG_DIGEST 0)) (s.rd (Fld.STG_DIGEST 1)) (s.rd (Fld.STG_DIGEST 2)) (s.rd (Fld.STG_DIGEST 3))))
  s.wrBit Fld.AGREE_STATUS_NBR_PEND g (own.isSome && decide (Tab.get none s.img.nbrPend g = own))

/-- PENDING, PEND_LOCAL and ACT_AT show the pending record (R201, R204), and NBR_PEND is compared with it (R190). -/
def showPending (s : State) : State :=
  forEach [0, 1, 2, 3] nbrPendEval (match (liveRec s).pending with
    | some p => ((s.wr Fld.IMG_STATUS_PENDING 1).wrB Fld.IMG_STATUS_PEND_LOCAL p.isLocal).wr64 Fld.ACT_AT_LO Fld.ACT_AT_HI p.target
    | none => ((s.wr Fld.IMG_STATUS_PENDING 0).wr Fld.IMG_STATUS_PEND_LOCAL 0).wr64 Fld.ACT_AT_LO Fld.ACT_AT_HI 0)

/-- The boot record is rewritten with what now holds, and the registers show it (R168). -/
def saveRec (r : BootRec) (s : State) : State :=
  let s := norSend (norRecord s.flash) s
  showPending (showSlots { s with flash := writeRec r s.flash, img := { s.img with rewriteDue := false, commitDue := false } })

/-- ACT_EPOCH and ACT_DIGEST show the active image (R202, R203). -/
def showActive (s : State) : State :=
  let m := s.img.active
  forEach [0, 1, 2, 3] (fun w s => s.wr (Fld.ACT_DIGEST w) (digestWord (imgDigest m) w)) (s.wr Fld.ACT_EPOCH (imgEpoch m))

end Sys2Proof.Machine
end

