-- ==== Sys2Proof/Machine/Egress.lean ====
section
/-!
DEFINITION. Machine/Egress.lean: what leaves the node: the insertion of control cells (R586, R590 of
spec/19_plots_and_classes.md), the ports, the frame buffer and its descriptors (R544, R578), and the egress queues with
their scheduler (R581).
-/
namespace Sys2Proof.Machine

/-! ### Ports and their counters (R541, R644) -/

/-- The width of the port whose first lane is `p` (R560). -/
def portWidth (s : State) (p : Nat) : Nat := 2 ^ s.rd (Fld.RG_PORT_CFG_WIDTH p)

/-- The lanes of a port. -/
def portLanes (s : State) (p : Nat) : List Nat := (List.range (portWidth s p)).map (p + ·)

/-- The used port that holds a lane. -/
def portOf (s : State) (l : Nat) : Option Nat :=
  ([0, 1, 2, 3, 4].map (fun k => l / 2 ^ k * 2 ^ k)).find? (fun p => s.rdB (Fld.RG_PORT_CFG_EN p) && decide (l < p + portWidth s p))

/-- The used ports. -/
def portsOn (s : State) : List Nat := (List.range 128).filter (fun p => s.rdB (Fld.RG_PORT_CFG_EN p))

/-- A port is UP (R541). -/
def portUp (s : State) (p : Nat) : Bool := s.rdB (Fld.RG_PORT_STATUS_UP p)

/-- The first lane of a ring port group (R542). -/
def groupPort (g : Nat) : Nat := 16 * g

/-- STATE of a ring port group (R564): 3 = UP. -/
def groupState (s : State) (g : Nat) : Nat := s.rd (Fld.RG_GROUP_STATUS_STATE g)

/-- The ring port groups that are UP. -/
def upGroups (s : State) : List Nat := [0, 1, 2, 3].filter (fun g => groupState s g == 3)

/-- A received frame is counted at its port (R644). -/
def countRx (p len : Nat) (s : State) : State := (s.bump (Reg.PCN_RX_BYTES_LO p) len).bump (Reg.PCN_RX_FRAMES_LO p) 1
/-- A sent frame is counted at its port (R644). -/
def countTx (p len : Nat) (s : State) : State := (s.bump (Reg.PCN_TX_BYTES_LO p) len).bump (Reg.PCN_TX_FRAMES_LO p) 1
/-- An ingress discard (R644). -/
def dropRx (p : Nat) (s : State) : State := s.bump (Reg.PCN_RX_DROPS_LO p) 1
/-- An egress discard (R644). -/
def dropTx (p : Nat) (s : State) : State := s.bump (Reg.PCN_TX_DROPS_LO p) 1

/-! ### The payload of an anchor cell (R379) -/

/-- The FLAGS byte of an anchor cell (R379). -/
def ancFlags (c : AncCell) : Nat := c.brkOpen.toNat + 2 * c.gridDead.toNat + 4 * c.unsynced.toNat + 8 * c.dtt.toNat

/-- The payload bytes of an anchor cell, little-endian (R379): ANC_ID, FLAGS, SEQ, FN, ANGLE, V1, FREQ, ROCOF. -/
def ancBytes (c : AncCell) : List Byte :=
  leBytes 2 c.ancId ++ leBytes 1 (ancFlags c) ++ leBytes 1 c.seq ++ leBytes 6 c.fn ++ leBytes 4 c.angle ++ leBytes 4 c.v1 ++ leBytes 4 c.freq
    ++ leBytes 4 c.rocof

/-- The fields of an anchor cell's payload (R379): unused payload bytes are 0 (R586), and the RSVD bits of FLAGS are not looked at. -/
def ancOf (l : List Byte) : AncCell :=
  let p := l ++ List.replicate 26 0#8
  let f := leAt p 2 1
  { ancId := leAt p 0 2, brkOpen := f.testBit 0, gridDead := f.testBit 1, unsynced := f.testBit 2, dtt := f.testBit 3, seq := leAt p 3 1,
    fn := leAt p 4 6, angle := leAt p 10 4, v1 := leAt p 14 4, freq := leAt p 18 4, rocof := leAt p 22 4 }

/-! ### The header of a control cell (R586, R587) -/

/-- TYPE of a control cell (R587); a PTP message is none and has no TYPE. -/
def cellType : CellBody → Nat
  | .anchor _ => 0x01
  | .tickMark _ => 0x02
  | .announce _ => 0x03
  | .command _ => 0x20
  | .commandResp .. => 0x21
  | .ringBreak .. => 0x30
  | .leave .. => 0x31
  | .wake _ => 0x32
  | .ringHeal .. => 0x33
  | .insertPlan .. => 0x34
  | .drowseReq .. => 0x35
  | .drowseAck .. => 0x36
  | .drowseNak .. => 0x36
  | .nbrId .. => 0x37
  | .ptp _ _ => 0
  | .other t => t

/-- Bytes 0 to 39 of a control cell (R586), in network byte order: the MAC address of the origin, the key slot and the payload bytes used are
what the cell is sent with. -/
def cellHeader (sa keyId len : Nat) (c : Cell) : List Byte :=
  [0x03#8, 0x47#8, 0x52#8, 0x59#8, 0x00#8, 0x07#8] ++ beBytes 6 sa ++ beBytes 2 0x88A8 ++ beBytes 2 0xE0FE ++ beBytes 2 0x88B5
    ++ beBytes 1 (0x10 + keyId % 2) ++ beBytes 1 (cellType c.body) ++ beBytes 2 (c.origin % 1024 + c.reach * 2 ^ 12)
    ++ beBytes 2 (c.hops % 1024 + bitIf c.ringB 14 + bitIf c.west 15) ++ beBytes 6 c.fn ++ beBytes 2 c.hseq ++ beBytes 2 c.dest ++ beBytes 1 len
    ++ List.replicate 5 0#8

/-! ### Control cells: the insertion queue (R545, R590) -/

/-- A group's insertion state at rest. -/
def restCq : CellQ := { queue := [], planned := [], slots := 0, rx := 0 }
/-- The insertion state of group `g`. -/
def State.cq (s : State) (g : Nat) : CellQ := Tab.get restCq s.ctl.groups g
/-- Stores the insertion state of group `g`. -/
def State.setCq (s : State) (g : Nat) (q : CellQ) : State := { s with ctl := { s.ctl with groups := Tab.set restCq s.ctl.groups g q } }

/-- The priority of a cell in the insertion queue (R590; ring management in the order of R545); none for a planned cell. -/
def cellPriority : CellBody → Option Nat
  | .anchor p => if (ancOf p).dtt then some 1 else none
  | .tickMark _ => none
  | .announce _ => none
  | .command _ => some 2
  | .commandResp .. => some 2
  | .ringBreak .. => some 0x30
  | .leave .. => some 0x31
  | .wake _ => some 0x32
  | .ringHeal .. => some 0x33
  | .insertPlan .. => some 0x34
  | .drowseReq .. => some 0x35
  | .drowseAck .. => some 0x36
  | .drowseNak .. => some 0x36
  | .nbrId .. => some 0x37
  | .ptp _ _ => some 0x40
  | .other _ => some 0x40

/-- A cell joins the insertion queue of group `g`, or its planned cells; a full queue drops it (R590). -/
def queueOn (c : Cell) (g : Nat) (s : State) : State :=
  let q := s.cq g
  match cellPriority c.body with
  | none => s.setCq g { q with planned := q.planned ++ [c] }
  | some k =>
    if 64 ≤ q.queue.length then (s.inc (Fld.PQ_CTL_CNT1_INS_DROP g)).logEv 0x21 0x000A g
    else
      let s := s.setCq g { q with queue := q.queue ++ [(k, c)] }
      s.wr Fld.PQ_CTL_STATUS_INS_MAX (Nat.max (s.rd Fld.PQ_CTL_STATUS_INS_MAX) (q.queue.length + 1))

/-- A new cell of this node goes to some groups; all its copies carry one HSEQ (R586). -/
def sendCell (body : CellBody) (reach dest : Nat) (groups : List Nat) (s : State) : State :=
  let h := s.ctl.hseq
  let s := { s with ctl := { s.ctl with hseq := (h + 1) % 65536 } }
  forEach groups (fun g s => queueOn
    { body := body, origin := s.rd Fld.RG_RING_CFG_NODE, reach := reach, hops := 0, ringB := decide (2 ≤ g), west := decide (g % 2 = 1),
      fn := s.fn, hseq := h, dest := dest } g s) s

/-- A flooded cell goes out on every UP group (R545). -/
def floodCell (body : CellBody) (s : State) : State := sendCell body 2 0x3FF (upGroups s) s
/-- A unicast cell goes out on every UP group (R589). -/
def unicastCell (body : CellBody) (dest : Nat) (s : State) : State := sendCell body 1 dest (upGroups s) s
/-- A cell to a neighbour goes only to the group that faces it (R545). -/
def nbrCell (body : CellBody) (g : Nat) (s : State) : State := sendCell body 0 0x3FF [g] s

/-- The first entry of lowest priority number, and the rest. -/
def takeFirst (l : List (Nat × Cell)) : Option (Cell × List (Nat × Cell)) :=
  match l with
  | [] => none
  | e :: t =>
    let best := t.foldl (fun (m : Nat) x => Nat.min m x.1) e.1
    let i := (e :: t).findIdx (fun x => x.1 == best)
    ((e :: t)[i]?).map (fun x => (x.2, (e :: t).eraseIdx i))

/-- The cell that group `g` inserts next: a planned cell in its slot, else the queued cell of highest priority (R590). -/
def nextCell (q : CellQ) : Option (Cell × CellQ) :=
  match q.planned with
  | c :: t => some (c, { q with planned := t })
  | [] => (takeFirst q.queue).map (fun r => (r.1, { q with queue := r.2 }))

/-- The bytes of a short-form command that its HMAC covers (R628): payload bytes 40 to 67, then the cell's DEST and FN. -/
def shortBytes (c : ShortCmd) (dest fn : Nat) : List Byte :=
  beBytes 1 c.sop ++ beBytes 1 c.role ++ beBytes 1 c.session ++ [0#8] ++ beBytes 2 c.tag ++ [0#8, 0#8] ++ c.snonce ++ beBytes 4 c.seq
    ++ beBytes 4 c.arg0 ++ beBytes 4 c.arg1 ++ beBytes 2 dest ++ beBytes 6 fn

/-- The first 16 bytes of an HMAC-SHA-256 (R628). -/
def hmac16 (key : BitVec 256) (l : List Byte) : BitVec 128 := ((Config.hmac256 key l) >>> 128).setWidth 128

/-- The key of a session of this node, none once it has closed. -/
def sessKey (s : State) (k : Nat) : Option (BitVec 256) := (s.eng.sess.find? (fun e => e.1 == k)).map (fun e => e.2.key)

/-- A COMMAND cell of this node carries the HMAC over its FN at insertion (R586, R628). -/
def sealCell (s : State) (c : Cell) : Cell :=
  match c.body with
  | .command q => match sessKey s q.session with
    | some key => { c with body := .command { q with hmac := hmac16 key (shortBytes q c.dest c.fn) } }
    | none => c
  | _ => c

/-- CELL_INSERT (R590): an insertion slot of group `g`, at most 4 in a frame, takes a cell; a drowsed group's sentinel lane
carries neighbour cells only (R555). -/
def execCellInsert (g : Fin 4) (s : State) : Host.Outcome State Fault Refusal :=
  run (fun s =>
    let st := groupState s g.val
    if s.ring.forwarding && (st == 3 || st == 5 || st == 6 || st == 7) && decide ((s.cq g.val).slots < 4) then
      match nextCell (s.cq g.val) with
      | some (c, q) =>
        if st = 6 ∧ c.reach ≠ 0 then s
        else
          let s := s.setCq g.val { q with slots := q.slots + 1 }
          let s := countTx (groupPort g.val) 128 (countEv 0x018 g.val 1 s)
          s.send (.cell g.val (sealCell s { c with fn := s.fn }))
      | none => s
    else s) s

/-- The ring-management cells that a group still holds (R545). -/
def deferred (s : State) : Nat :=
  [0, 1, 2, 3].foldl (fun n g => n + ((s.cq g).queue.filter (fun e => decide (0x30 ≤ e.1 ∧ e.1 < 0x40))).length) 0

/-! ### The buffer (R544, R578, R579) -/

/-- The cells of a frame (R544). -/
def cellsOf (len : Nat) : Nat := (len + 255) / 256

/-- Plots in use. -/
def plotsOn (s : State) : List Nat := (List.range 64).filter (fun p => s.rdB (Fld.PQ_PLOT_CFG_EN p))

/-- The shared part of the plot pool (R578) that is not in use: cells (`c` = true) or descriptors. -/
def sharedFree (s : State) (c : Bool) : Nat :=
  let lo := fun p => if c then 64 * s.rd (Fld.PQ_PLOT_BUF_BUF_MIN p) else s.rd (Fld.PQ_PLOT_LIM_DESC_MIN p)
  let use := fun p => if c then s.rd (Fld.PQ_PLOT_USE_BUF_USE p) else s.rd (Fld.PQ_PLOT_STATUS_DESC_USE p)
  (plotsOn s).foldl (fun n p => n - Nat.max (lo p) (use p)) (if c then 382976 else 62464)

/-- A use of U with n more is admitted from the minimum, or, where the shared part has n left, from it; a yellow frame only up to its threshold
(R579). The rule is the same for cells (`c` = true) and for descriptors. -/
def quotaOk (s : State) (c : Bool) (yellow : Option Nat) (lo hi use n : Nat) : Bool :=
  (decide (use + n ≤ lo) || (decide (use + n ≤ hi) && decide (n ≤ sharedFree s c)))
    && (match yellow with | some thr => !decide ((thr + 1) * hi < 8 * (use + n)) | none => true)

/-- The quotas of plot `p` allow a frame of some cells (R579). -/
def plotAdmits (s : State) (p cells : Nat) (yellow : Bool) : Bool :=
  let y := if yellow then some (s.rd (Fld.PQ_PLOT_CFG_YEL_THR p)) else none
  quotaOk s true y (64 * s.rd (Fld.PQ_PLOT_BUF_BUF_MIN p)) (64 * s.rd (Fld.PQ_PLOT_BUF_BUF_MAX p)) (s.rd (Fld.PQ_PLOT_USE_BUF_USE p)) cells
    && quotaOk s false y (s.rd (Fld.PQ_PLOT_LIM_DESC_MIN p)) (s.rd (Fld.PQ_PLOT_LIM_DESC_MAX p)) (s.rd (Fld.PQ_PLOT_STATUS_DESC_USE p)) 1

/-- Cells and descriptors that management frames hold (R578). -/
def mgmtUse (s : State) : Nat × Nat :=
  s.plots.bufs.foldl (fun a e => match e.2 with
    | some b => if b.plot.isNone then (a.1 + b.cells, a.2 + 1) else a | none => a) (0, 0)

/-- The pool of a frame admits it (R579, R580). -/
def poolAdmits (s : State) (f : Frame) : Bool :=
  match f.plot with
  | some p => plotAdmits s p (cellsOf f.len) f.yellow
  | none => decide ((mgmtUse s).1 + cellsOf f.len ≤ 8192 ∧ (mgmtUse s).2 + 1 ≤ 1024)

/-- The plot's use rises by the cells and one descriptor of a frame. -/
def useUp (plot : Option Nat) (cells : Nat) (s : State) : State :=
  match plot with
  | some p => (s.wr (Fld.PQ_PLOT_USE_BUF_USE p) (s.rd (Fld.PQ_PLOT_USE_BUF_USE p) + cells)).wr (Fld.PQ_PLOT_STATUS_DESC_USE p)
      (s.rd (Fld.PQ_PLOT_STATUS_DESC_USE p) + 1)
  | none => s

/-- The plot's use falls. -/
def useDown (plot : Option Nat) (cells : Nat) (s : State) : State :=
  match plot with
  | some p => (s.wr (Fld.PQ_PLOT_USE_BUF_USE p) (s.rd (Fld.PQ_PLOT_USE_BUF_USE p) - cells)).wr (Fld.PQ_PLOT_STATUS_DESC_USE p)
      (s.rd (Fld.PQ_PLOT_STATUS_DESC_USE p) - 1)
  | none => s

/-- One copy of a held frame is done with; after the last its cells and descriptor are free. -/
def bufRelease (b : Nat) (s : State) : State :=
  match Tab.get none s.plots.bufs b with
  | none => s
  | some x =>
    if x.copies ≤ 1 then useDown x.plot x.cells { s with plots := { s.plots with bufs := Tab.set none s.plots.bufs b none } }
    else { s with plots := { s.plots with bufs := Tab.set none s.plots.bufs b (some { x with copies := x.copies - 1 }) } }

/-! ### Egress queues and the scheduler (R581) -/

/-- A port's egress side at rest; the management shaper's bucket of 16 KiB is full. -/
def restPq : PortQ := { queue := [], credit := 0, mgmt := 16384, deficit := [], last := 0 }
/-- The egress side of a port. -/
def State.pq (s : State) (p : Nat) : PortQ := Tab.get restPq s.plots.ports p
/-- Stores the egress side of a port. -/
def State.setPq (s : State) (p : Nat) (q : PortQ) : State := { s with plots := { s.plots with ports := Tab.set restPq s.plots.ports p q } }

/-- The bytes that a copy takes on its port: a ring frame carries 42 more (R569). -/
def wireLen (x : QFrame) : Nat := if x.tag.isSome then x.frame.len + 42 else x.frame.len

/-- A frame is admitted and its copies queued, or discarded at ingress port `inp` and counted (R544, R579). A copy for a
port that is not UP waits (DESIGN CHOICE, assumption 119). -/
def intake (inp : Nat) (f : Frame) (dests : List (Nat × Option RingTag)) (s : State) : State :=
  if dests.isEmpty then s
  else if poolAdmits s f then
    let b := s.plots.nextBuf
    let held : Buf := { plot := f.plot, cells := cellsOf f.len, copies := dests.length }
    let s := { s with plots := { s.plots with nextBuf := b + 1, bufs := Tab.set none s.plots.bufs b (some held) } }
    let s := useUp f.plot (cellsOf f.len) s
    dests.foldl (fun s d => s.setPq d.1 { s.pq d.1 with queue := (s.pq d.1).queue ++ [{ buf := b, frame := f, tag := d.2 }] }) s
  else
    let s := dropRx inp s
    match f.plot with
    | some p => countEv 0x013 p 1 (s.inc (Fld.PQ_PLOT_DROP_QUOTA_DROP p))
    | none => s

/-- The queue of a port that goes down is discarded and counted (R544). -/
def flushPort (p : Nat) (s : State) : State :=
  let l := (s.pq p).queue
  l.foldl (fun s x => bufRelease x.buf (dropTx p s)) (s.setPq p { s.pq p with queue := [] })

/-- The bytes a port may send in one frame of 20 us at full payload (R538, R541). -/
def portBytes (s : State) (p : Nat) : Int :=
  (if s.rdB (Fld.RG_LANE_CFG_MODE p) then 125000 else 128250) * portWidth s p

/-- WEIGHT of a plot as it acts (R597). -/
def plotWeight (s : State) (p : Nat) : Nat := Nat.max 1 (s.rd (Fld.PQ_PLOT_CFG_WEIGHT p))

/-- The plots that have frames in a queue, rising. -/
def plotsIn (l : List QFrame) : List Nat := (List.range 64).filter (fun p => l.any (fun x => x.frame.plot == some p))

/-- The next copy of plot `p` in a queue: classes 5 to 0 in strict priority, in order of arrival within a class. -/
def plotHead (l : List QFrame) (p : Nat) : Option Nat :=
  let c := (l.filter (fun x => x.frame.plot == some p)).foldl (fun m x => Nat.max m x.frame.cls) 0
  l.findIdx? (fun x => x.frame.plot == some p && x.frame.cls == c)

/-- The plots of a list in round-robin order after `last`. -/
def rotation (l : List Nat) (last : Nat) : List Nat := l.filter (fun p => decide (last < p)) ++ l.filter (fun p => decide (p ≤ last))

/-- Deficit-weighted round robin (R581): the first plot in turn whose deficit covers its head; where none does, each plot with
frames gains its quantum of WEIGHT × 512 bytes. Gives the index in the queue and the port's new round-robin state. -/
def drr (s : State) : Nat → PortQ → Option (Nat × PortQ)
  | 0, _ => none
  | k + 1, q =>
    let ps := plotsIn q.queue
    let fits := fun p => match plotHead q.queue p with
      | some i => decide (((q.queue[i]?).map wireLen).getD 0 ≤ Tab.get 0 q.deficit p) | none => false
    match (rotation ps q.last).find? fits with
    | some p =>
      match plotHead q.queue p with
      | some i =>
        let n := ((q.queue[i]?).map wireLen).getD 0
        some (i, { q with deficit := Tab.set 0 q.deficit p (Tab.get 0 q.deficit p - n), last := if p = 0 then 64 else p - 1 })
      | none => none
    | none =>
      if ps.isEmpty then none
      else drr s k { q with deficit := ps.foldl (fun t p => Tab.set 0 t p (Tab.get 0 t p + plotWeight s p * 512)) q.deficit, last := 64 }

/-- The copy that the scheduler takes next (R581): class 6 as its shaper allows, then the plots. -/
def schedule (s : State) (q : PortQ) : Option (Nat × PortQ) :=
  match q.queue.findIdx? (fun x => x.frame.plot.isNone) with
  | some i =>
    let n := ((q.queue[i]?).map wireLen).getD 0
    if (n : Int) ≤ q.mgmt then some (i, { q with mgmt := q.mgmt - n }) else drr s 40 q
  | none => drr s 40 q

/-- A frame of a quenched plot (R594). -/
def quenched (s : State) (f : Frame) : Bool :=
  match f.plot with | some p => s.rdB (Fld.PQ_PLOT_STATUS_QUENCHED p) | none => false

/-- A queued copy of a quenched plot's frame is discarded and counted (R594). -/
def quenchOut (p : Nat) (x : QFrame) (s : State) : State :=
  let s := bufRelease x.buf (dropTx p s)
  match x.frame.plot with | some t => s.inc (Fld.PQ_PLOT_DROP2_QUENCH_DROP t) | none => s

/-- The copies of quenched plots are dequeued before all others and discarded: their cells are free within 200 us (R594). -/
def quenchFlush (p : Nat) (s : State) : State :=
  let q := s.pq p
  let l := q.queue.filter (fun x => quenched s x.frame)
  if l.isEmpty then s
  else l.foldl (fun s x => quenchOut p x s) (s.setPq p { q with queue := q.queue.filter (fun x => !quenched s x.frame) })

/-- A port sends while its credit and its queue last: `k` bounds the copies sent. -/
def portServe (p : Nat) : Nat → State → State
  | 0, s => s
  | k + 1, s =>
    if (s.pq p).credit ≤ 0 then s
    else match schedule s (s.pq p) with
      | none => s
      | some (i, q) =>
        match q.queue[i]? with
        | none => s
        | some x =>
          let s := s.setPq p { q with queue := q.queue.eraseIdx i, credit := q.credit - wireLen x }
          portServe p k ((countTx p (wireLen x) (bufRelease x.buf s)).send (.frame p x.frame x.tag))

/-- The egress of a port in one frame: its payload, the shaper's fill of MGMT_RATE in units of 0.1 % up to 16 KiB (R581). How many
fragments the control cells cut off on a ring port is a free value: their places in the frame are not modelled (R582, R644). -/
def portFrame (p : Nat) (s : State) : State :=
  let s := quenchFlush p s
  let q := s.pq p
  if q.queue.isEmpty then (if q = restPq then s else s.setPq p { q with credit := 0, mgmt := min 16384 (q.mgmt + portBytes s p * s.rd Fld.PQ_CLASS_CFG_MGMT_RATE / 1000), deficit := [], last := 0 })
  else if !(s.ring.forwarding && portUp s p) then s
  else
    let q := { q with credit := (if q.credit < 0 then q.credit else 0) + portBytes s p,
                      mgmt := min 16384 (q.mgmt + portBytes s p * s.rd Fld.PQ_CLASS_CFG_MGMT_RATE / 1000) }
    let s := portServe p q.queue.length (s.setPq p q)
    if s.rdB (Fld.RG_PORT_CFG_RING p) then (s.free.2).bump (Reg.PCN_TX_FRAGS_LO p) s.free.1 else s

end Sys2Proof.Machine
end

