-- ==== Sys2Proof/Machine/LanternCore.lean ====
section
/-!
DEFINITION. Machine/LanternCore.lean: the Lantern's own operations that other blocks use (spec/05_lantern_domain.md): the
RTC, the hold pins, and the supply carrying VDD_LAN.
-/
namespace Sys2Proof.Machine

/-- The number of RTC values (R12: 48 bits). -/
def rtcModulus : Nat := 281474976710656

/-- The RTC counts on by some counts, and with it the trim period (R128, R131). -/
def rtcCount (n : Nat) (s : State) : State :=
  { s with lan := { s.lan with rtc := (s.lan.rtc + n) % rtcModulus, period := (s.lan.period + n) % 2 ^ 20,
                               periodDue := s.lan.periodDue + (s.lan.period + n) / 2 ^ 20 } }

/-- The RTC counts on by some nanoseconds at its nominal rate (R128). -/
def rtcAdvance (ns : Nat) (s : State) : State :=
  let acc := s.lan.rtcFrac + ns * 32768
  rtcCount (acc / 1000000000) { s with lan := { s.lan with rtcFrac := acc % 1000000000 } }

/-- A wake source becomes active or is active no longer. One that becomes active may wake at once although a wake has failed before (R134); once
none is active, nothing is left to be tried again (R135). -/
def wakeSet (bit : Nat) (on : Bool) (s : State) : State :=
  let active := setBitOf s.lan.wakeActive bit on
  let failed := s.lan.wakeFailed && (!on || s.lan.wakeActive.testBit bit) && decide (active ≠ 0)
  { s with lan := { s.lan with wakeActive := active, wakeFailed := failed } }

/-- A timed wake counts down by some RTC counts; at zero it is an active source until the next sleep entry (R134, R152). -/
def wakeTimer (n : Int) (s : State) : State :=
  match s.lan.wakeLeft with
  | some k =>
    let s := { s with lan := { s.lan with wakeLeft := some ((k : Int) - n).toNat } }
    if (k : Int) ≤ n then wakeSet 1 true s else s
  | none => s

/-- RTC counts pass while the main domain is off: the RTC and a timed wake count on (R128, R152). -/
def sleepPass (n : Nat) (s : State) : State :=
  if s.mainOn || decide (s.lan.mode = .stopped) then s
  else wakeTimer n (rtcCount n { s with lan := { s.lan with lowFor := s.lan.lowFor + n } })

/-- Harvest power comes in: the boost is enabled and the TEG delivers (R122). -/
def harvests (s : State) : Bool := s.lan.harvest && s.rdB Fld.POWER_CFG_HARV_EN

/-- HOLD_A or HOLD_B (ring 0 or 1). -/
def holdField (r : Nat) : FRef := if r = 0 then Fld.BYP_PINS_HOLD_A else Fld.BYP_PINS_HOLD_B

/-- The pin of ring `r` stops toggling and is driven low; its 10 ms wait begins at the last edge (R62, R64). -/
def holdStop (r : Nat) (s : State) : State :=
  if s.rdB (holdField r) then
    { s with lan := { s.lan with holdWait := setBitOf s.lan.holdWait r true } }.wr (holdField r) 0
  else s

/-- The pin of ring `r` toggles while the latest heartbeat requests it, the crystal runs and its wait has passed (R133). -/
def holdEval (r : Nat) (s : State) : State :=
  if s.lan.holdReq.testBit r && s.rdB Fld.LAN_STATUS_LXTAL_OK then
    if s.lan.holdWait.testBit r || s.rdB (holdField r) then s
    else { s with lan := { s.lan with bypassed := setBitOf s.lan.bypassed r false } }.wr (holdField r) 1
  else holdStop r s

/-- The source that carries VDD_LAN: the highest regulated one present (R122); SUPPLY shows the cold-start oscillator where none is, for which
the spec gives no code (DESIGN CHOICE, assumption 65). -/
def supplyEval (s : State) : State :=
  s.wr Fld.LAN_STATUS_SUPPLY
    (if s.lan.extSupply then 0 else if harvests s then 1
     else if s.rdB Fld.LAN_STATUS_CELL_CONN then 2 else 3)


/-- The under-voltage disconnect threshold in mV (R153). -/
def uvdMv (s : State) : Nat := 2700 + 50 * Nat.min (s.rd Fld.POWER_CFG_UVD) 12

/-- The entry into Bivouac or Dormant leaves the Lantern alone (R135, R136, R152): WAKE_OUT low, the pair of R114 stored at an
orderly entry, the wake timer started, SLEEP_ENTER logged. A WAKE_IN_N that is low already stays an active source. The match states and runs of
R138 start afresh at each entry (DESIGN CHOICE, assumption 89), and the seconds of WAKE_TIMER run from it, 32,768 RTC counts each, whatever second
the RTC shows (DESIGN CHOICE, assumption 90). -/
def lanternSleep (orderly : Bool) (s : State) : State :=
  let b := s.rdB Fld.BIV_CFG_BIV_EN
  let s := s.wrB Fld.LAN_STATUS_ORDERLY orderly
  let s := { s with lan := { s.lan with mode := if b then .bivouac else .dormant, wakeOut := false, wakeFailed := false, lowFor := 0,
                                        lmonRun := [], lmonIn := 0, ctHbSeen := false, cellDorm := false,
                                        wakeActive := s.lan.wakeActive &&& 1,
                                        wakeLeft := if s.rd Fld.WAKE_TIMER_SECONDS = 0 then none
                                          else some (s.rd Fld.WAKE_TIMER_SECONDS * 32768),
                                        pair := if orderly then some (s.time.rt, s.lan.rtc) else none } }
  s.logEv 0x00 0x0011 (if b then 1 else 2)

end Sys2Proof.Machine
end

