-- ==== Sys2Proof/Machine/Ring.lean ====
section
/-!
DEFINITION. Machine/Ring.lean: lanes and ports, ring-management cells, insertion into and removal from a ring, ring
protection and ring drowse (spec/18_ridgeline_lanes_ports.md).
-/
namespace Sys2Proof.Machine

/-! ### The rings and their groups (R542) -/

/-- A ring at rest. -/
def restIns : RingIns :=
  { since := 0, backoff := 0, bypasses := 0, passed := false, up := 0, down := 0, planAt := none, leaveAt := none, breaks := [], left := [] }
/-- Ring `r` outside its registers. -/
def State.ins (s : State) (r : Nat) : RingIns := Tab.get restIns s.ring.ins r
/-- Stores ring `r`. -/
def State.setIns (s : State) (r : Nat) (x : RingIns) : State := { s with ring := { s.ring with ins := Tab.set restIns s.ring.ins r x } }
/-- A group at rest. -/
def restGrp : GroupSt := { retry := 0, nbrIns := 0, proposal := none, quiesce := none, sent := 0, quiet := 0 }
/-- Group `g` outside its registers. -/
def State.grp (s : State) (g : Nat) : GroupSt := Tab.get restGrp s.ring.groups g
/-- Stores group `g`. -/
def State.setGrp (s : State) (g : Nat) (x : GroupSt) : State := { s with ring := { s.ring with groups := Tab.set restGrp s.ring.groups g x } }

/-- INS_STATE of ring `r` (R563). -/
def insField (r : Nat) : FRef := if r = 0 then Fld.RG_RING_STATUS_INS_A else Fld.RG_RING_STATUS_INS_B
/-- HOLD_REQ of ring `r`. -/
def holdReqField (r : Nat) : FRef := if r = 0 then Fld.RG_RING_STATUS_HOLD_REQ_A else Fld.RG_RING_STATUS_HOLD_REQ_B
/-- LOOP_FIT of ring `r`. -/
def loopFitField (r : Nat) : FRef := if r = 0 then Fld.RG_RING_CFG_LOOP_FIT_A else Fld.RG_RING_CFG_LOOP_FIT_B
/-- The groups of ring `r`, east first. -/
def ringGroups (r : Nat) : List Nat := [2 * r, 2 * r + 1]
/-- The ring is used (R552, R561). -/
def ringUsed (s : State) (r : Nat) : Bool := s.rdB Fld.RG_RING_CFG_RING_A_EN && (r == 0 || s.rdB Fld.RG_RING_CFG_RING_B_EN)
/-- INS_STATE. -/
def insState (s : State) (r : Nat) : Nat := s.rd (insField r)

/-- STATE of a group is written. -/
def setGroup (g st : Nat) (s : State) : State := s.wr (Fld.RG_GROUP_STATUS_STATE g) st

/-- A ring enters an INS_STATE (R550): hold requested in HOLD_WAIT, JOINING, IN and, until frame N, LEAVING. -/
def insTo (r st : Nat) (s : State) : State :=
  ((s.setIns r { s.ins r with since := 0 }).wr (insField r) st).wrB (holdReqField r) (decide (2 ≤ st ∧ st ≤ 5))

/-- The first ring of the next attempt (R551, R552): ring B unless FIRST_RING or two failures in a row say otherwise. -/
def firstRing (s : State) : Nat :=
  if s.rdB Fld.RG_RING_CFG_RING_B_EN then (if s.rdB Fld.RG_RING_CFG_FIRST_RING != s.ring.swapFirst then 0 else 1) else 0

/-- RING_SIZE, at least 1. -/
def ringSize (s : State) : Nat := Nat.max 1 (s.rd Fld.RG_RING_CFG_RING_SIZE)
/-- NODE. -/
def nodeNo (s : State) : Nat := s.rd Fld.RG_RING_CFG_NODE

/-- LEAVE_FRAMES frames from now. -/
def leadFrame (s : State) : Nat := (s.fn + s.rd Fld.RG_RING_TIMING_LEAVE_FRAMES) % fnModulus

/-- A node of ring `r` is known to be bypassed (R546): its LEAVE has been received and not followed by a heal of one of its spans, or
breaks of both its spans are known (DEDUCED, assumption 40). -/
def bypassedNode (s : State) (r x : Nat) : Bool :=
  (s.ins r).left.contains x
    || ((s.ins r).breaks.any (fun b => b.span == x) && (s.ins r).breaks.any (fun b => b.span == (x + ringSize s - 1) % ringSize s))

/-- The node expected on the side of group `g` (R546). -/
def expectedNode (s : State) (g : Nat) : Nat :=
  let n := ringSize s
  let nth := fun k => if g % 2 = 0 then (nodeNo s + 1 + k) % n else (nodeNo s + 2 * n - 1 - k) % n
  ((List.range (n - 1)).find? (fun k => !bypassedNode s (g / 2) (nth k))).elim (nth 0) nth

/-- The span that group `g` faces: the number of the node at its west end. -/
def spanOf (s : State) (g : Nat) : Nat := if g % 2 = 0 then nodeNo s else expectedNode s g

/-- This node is the end with the lower number of the span that group `g` faces. -/
def lowerEnd (s : State) (g : Nat) : Bool := decide (nodeNo s < s.rd (Fld.RG_GROUP_STATUS_NBR_NODE g))

/-! ### Wake requests (R556) -/

/-- Lanes 1 to 15 of a group take a state. -/
def sideLanes (g st : Nat) (s : State) : State :=
  forEach (List.range 15) (fun k s => s.wr (Fld.RG_LANE_STATUS_STATE (16 * g + 1 + k)) st) s

/-- A wake request for group `g` (R556): before agreement a proposal is abandoned; after it the wake wins, and from Q on the group
is woken; WAKE is sent unless the request came from the other end. -/
def wakeGroup (g : Nat) (received : Bool) (s : State) : State :=
  let st := groupState s g
  if st = 5 ∨ st = 6 then
    let s := when (!received) (nbrCell (.wake g) g) s
    let s := s.setGrp g { s.grp g with quiesce := none, proposal := none }
    (sideLanes g 1 (setGroup g 7 s)).logEv 0x20 0x000B (g + (if st = 5 then 256 else 0))
  else s.setGrp g { s.grp g with proposal := none }

/-! ### The break lists (R548, R549, R565) -/

/-- The register word of a break. -/
def breakWord (b : Break) : Word :=
  BitVec.ofNat 32 (2 ^ 31 + (if b.planned then 2 ^ 30 else 0) + (if b.drowse then 2 ^ 29 else 0) + b.span * 2 ^ 16 + Nat.min 65535 (b.age / 50000))

/-- The registers show the break list of ring `r`; more than 16 make the ring UNUSABLE, which is logged (R549). -/
def showBreaks (r : Nat) (s : State) : State :=
  let l := (s.ins r).breaks
  let s := forEach (List.range 16) (fun i s => s.setReg (Reg.RG_BREAK r i) ((l[i]?).elim 0#32 breakWord)) s
  let s := s.wr (if r = 0 then Fld.RG_RING_STATUS_BREAKS_A else Fld.RG_RING_STATUS_BREAKS_B) (Nat.min 16 l.length)
  let f := if r = 0 then Fld.RG_RING_STATUS_UNUSABLE_A else Fld.RG_RING_STATUS_UNUSABLE_B
  let was := s.rdB f
  let s := s.wrB f (decide (16 < l.length))
  when (decide (16 < l.length) && !was) (fun s => s.logEv 0x20 0x0009 r) s

/-- A span enters the break list of ring `r`, or its entry takes the flags of a planned break; an entry listed as planned stays so
(R548). A break wakes the groups of the other ring (R556). -/
def breakAdd (r span : Nat) (planned drowse : Bool) (s : State) : State :=
  let x := s.ins r
  let s := if x.breaks.any (fun b => b.span == span) then
      s.setIns r { x with breaks := x.breaks.map (fun b => if b.span == span then { b with planned := b.planned || planned, drowse := b.drowse || drowse } else b) }
    else
      let b : Break := { span := span, planned := planned, drowse := drowse, age := 0, up := 0, quick := false }
      (s.setIns r { x with breaks := x.breaks ++ [b] }).wr Fld.RG_RING_EVENTS_BREAK_EV 1
  forEach (ringGroups (1 - r)) (fun g s => wakeGroup g false s) (showBreaks r s)

/-- A span leaves the break list of ring `r`; the nodes at its ends count as bypassed no more. -/
def breakHeal (r span : Nat) (s : State) : State :=
  let x := s.ins r
  showBreaks r (s.setIns r { x with breaks := x.breaks.filter (fun b => b.span != span),
                                    left := x.left.filter (fun k => k != span && k != (span + 1) % ringSize s) })

/-- The next SEQ of the flooded ring-management cells. -/
def nextSeq (s : State) : State := { s with ring := { s.ring with seq := (s.ring.seq + 1) % 65536 } }

/-- RING_BREAK is sent. -/
def sendBreak (r span : Nat) (planned drowse : Bool) (s : State) : State := nextSeq (floodCell (.ringBreak r span planned drowse s.ring.seq) s)
/-- RING_HEAL is sent. -/
def sendHeal (r span : Nat) (s : State) : State := nextSeq (floodCell (.ringHeal r span s.ring.seq) s)

/-! ### Lanes, ports and groups going down and coming up (R540, R541, R546, R548) -/

/-- The group of a planned break has fallen: once its ends have joined, the span heals at once (R554; DEDUCED, assumption 29). -/
def planFell (r span : Nat) (s : State) : State :=
  let x := s.ins r
  s.setIns r { x with breaks := x.breaks.map (fun b => if b.span == span && b.planned then { b with quick := true } else b) }

/-- A group stops: nothing is forwarded on it, its span is broken and RING_BREAK goes out, and the paths change at the frame tick (R548); the other
ring's group on the same side is woken (R556). -/
def groupFall (g : Nat) (s : State) : State :=
  let span := spanOf s g
  let s := if (s.ins (g / 2)).breaks.any (fun b => b.span == span) then s else { s with ring := { s.ring with fresh := (g, span) :: s.ring.fresh } }
  let s := (setGroup g 4 s).wr (Fld.RG_GROUP_STATUS_NBR_VALID g) 0
  let s := flushPort (groupPort g) (s.setGrp g { s.grp g with nbrIns := 0, proposal := none, quiesce := none })
  let s := s.wr Fld.RG_RING_EVENTS_GROUP_DOWN_EV 1
  let s := sendBreak (g / 2) span false false (planFell (g / 2) span (breakAdd (g / 2) span false false s))
  wakeGroup ((g + 2) % 4) false s

/-- GROUP_DOWN (R548): a group whose port is no longer UP goes down; `cause` is 1 = signal, 2 = lock, 3 = FEC, 4 = PLL group (R558). -/
def execGroupDown (g : Fin 4) (cause : Fin 16) (s : State) : Host.Outcome State Fault Refusal :=
  run (fun s =>
    let st := groupState s g.val
    if (st == 3 || st == 5 || st == 7) && !portUp s (groupPort g.val) then
      groupFall g.val (s.logEv 0x20 0x0001 (g.val + 256 * cause.val))
    else s) s

/-- SYNCE_CLK outputs whose lane has no signal are squelched (R109, R119). -/
def synceEval (s : State) : State :=
  let sq := fun en lane => s.rdB en && !s.rdB (Fld.RG_LANE_STATUS_SIG (s.rd lane))
  (s.wrB Fld.SYNCE_CFG_SQ0 (sq Fld.SYNCE_CFG_EN0 Fld.SYNCE_CFG_LANE0)).wrB Fld.SYNCE_CFG_SQ1 (sq Fld.SYNCE_CFG_EN1 Fld.SYNCE_CFG_LANE1)

/-- The port of a lane that has gone down falls from UP; its queue is discarded and counted (R541, R544), and the sessions that
came over it as a management port close (R616). -/
def portFall (p : Nat) (s : State) : State :=
  if portUp s p then transportLost 0 p (flushPort p ((s.wr (Fld.RG_PORT_STATUS_UP p) 0).inc (Fld.RG_PORT_STATUS_DOWNS p))) else s

/-- What the lanes that are started do (R105, R539): they adapt where the Ridgeline forwards and their PLL group is locked, are idle where it does
not forward, and are down without their PLL group. -/
def laneStart (s : State) (l : Nat) : Nat :=
  if !s.bit Fld.CLK_STATUS_SD_LOCK (l / 32) then 5 else if !s.ring.forwarding then 4 else 1

/-- A drowsed group whose sentinel lane goes down becomes DOWN; its span stays broken with PLANNED = 0 (R557). Lanes 1 to 15 train again, so that
the group can come UP (DEDUCED, assumption 96). -/
def sentinelLost (g cause : Nat) (s : State) : State :=
  let r := g / 2
  let span := spanOf s g
  let s := sideLanes g (laneStart s (groupPort g)) s
  let s := (setGroup g 4 s).wr (Fld.RG_GROUP_STATUS_NBR_VALID g) 0
  let s := (s.wr Fld.RG_RING_EVENTS_GROUP_DOWN_EV 1).logEv 0x20 0x0001 (g + 256 * cause)
  let x := s.ins r
  let s := showBreaks r (s.setIns r { x with breaks := x.breaks.map (fun b => if b.span == span then { b with planned := false, drowse := false } else b) })
  wakeGroup ((g + 2) % 4) false s

/-- What a lane loses by the cause that takes it down (R119, R540): its signal and locks with the signal or the PLL group, its locks with a lock;
an output that recovers its clock is squelched (R109). -/
def laneLoses (l cause : Nat) (s : State) : State :=
  let s := if cause = 1 ∨ cause = 4 then s.wr (Fld.RG_LANE_STATUS_SIG l) 0 else s
  let s := if cause = 1 ∨ cause = 2 ∨ cause = 4 then (s.wr (Fld.RG_LANE_STATUS_BLOCK_LOCK l) 0).wr (Fld.RG_LANE_STATUS_AM_LOCK l) 0 else s
  synceEval s

/-- Lane `l` goes down (R540, R541, R557); one that carries nothing loses its signal alone. -/
def laneDown (l cause : Nat) (s : State) : State :=
  let st := s.rd (Fld.RG_LANE_STATUS_STATE l)
  if st = 0 then s
  else if st = 4 ∨ st = 5 then laneLoses l cause s
  else
    let s := laneLoses l cause (s.wr (Fld.RG_LANE_STATUS_STATE l) 5)
    match portOf s l with
    | none => s
    | some p =>
      let s := portFall p s
      if s.rdB (Fld.RG_PORT_CFG_RING p) && groupState s (p / 16) == 6 && l == p then sentinelLost (p / 16) cause s else s

/-- LANE_DOWN (R540): loss of signal (1), of lock (2), 8 or more uncorrectable codewords in 1 ms (3), or of its PLL group (4). -/
def execLaneDown (l : Fin 128) (cause : Fin 16) (s : State) : Host.Outcome State Fault Refusal :=
  run (fun s => if s.rdB (Fld.RG_LANE_CFG_EN l.val) then laneDown l.val cause.val s else s) s

/-- Lanes go down with their PLL group (R105, R540), and the groups they make up (R548). -/
def lanesDown (l : List Nat) (s : State) : State :=
  let s := forEach l (fun i s => laneDown i 4 s) s
  forEach [0, 1, 2, 3] (fun g s =>
    let st := groupState s g
    if l.contains (16 * g) && (st == 3 || st == 5 || st == 7) then groupFall g (s.logEv 0x20 0x0001 (g + 1024)) else s) s

/-- NBR_ID is sent on a group (R546). -/
def sendNbrId (g : Nat) (s : State) : State :=
  nbrCell (.nbrId (nodeNo s) (insState s (g / 2)) (s.rd Fld.RG_RING_CFG_RING_SIZE)) g (s.setGrp g { s.grp g with sent := 0 })

/-- A group whose lanes are all aligned comes UP and sends NBR_ID (R541, R546); in LOOP_TEST it is in loopback, and a ring that is OUT or
held back keeps it off. -/
def groupUp (g : Nat) (s : State) : State :=
  let i := insState s (g / 2)
  if i = 1 ∨ i = 2 then setGroup g 1 s
  else if (i = 3 ∨ i = 4 ∨ i = 5) ∧ (s.grp g).retry = 0 then sendNbrId g ((setGroup g 3 s).wr (Fld.RG_GROUP_STATUS_NBR_VALID g) 0)
  else s

/-- LANE_ALIGNED (R539, R541): a lane reaches alignment; with its last lane its port is UP. -/
def execLaneAligned (l : Fin 128) (s : State) : Host.Outcome State Fault Refusal :=
  run (fun s =>
    let st := s.rd (Fld.RG_LANE_STATUS_STATE l.val)
    if s.rdB (Fld.RG_LANE_CFG_EN l.val) && s.bit Fld.DOM_STATUS_ON (5 + l.val / 16) && s.bit Fld.CLK_STATUS_SD_LOCK (l.val / 32)
        && st != 3 && st != 4 && st != 2 then
      let s := s.wr (Fld.RG_LANE_STATUS_STATE l.val) 2
      let s := ((s.wr (Fld.RG_LANE_STATUS_SIG l.val) 1).wr (Fld.RG_LANE_STATUS_BLOCK_LOCK l.val) 1).wr (Fld.RG_LANE_STATUS_AM_LOCK l.val) 1
      let s := synceEval s
      match portOf s l.val with
      | none => s
      | some p =>
        if (portLanes s p).all (fun k => s.rd (Fld.RG_LANE_STATUS_STATE k) == 2) then
          let s := s.wr (Fld.RG_PORT_STATUS_UP p) 1
          if s.rdB (Fld.RG_PORT_CFG_RING p) && groupState s (p / 16) != 7 then groupUp (p / 16) s else s
        else s
    else s) s

/-- NBR_ID_SEND (R546): once per second since the group came UP. -/
def execNbrIdSend (g : Fin 4) (s : State) : Host.Outcome State Fault Refusal :=
  run (fun s => let st := groupState s g.val
    if (st = 3 ∨ 5 ≤ st) ∧ framesPerSecond ≤ (s.grp g.val).sent then sendNbrId g.val s else s) s

/-- What an NBR_ID does (R546, R549): a wrong RING_SIZE or node takes the group DOWN, to be tried again after 10 s. -/
def nbrIdRx (g node ins size : Nat) (s : State) : State :=
  let st := groupState s g
  if !(st == 3 || 5 ≤ st) then s
  else if size ≠ s.rd Fld.RG_RING_CFG_RING_SIZE ∨ node ≠ expectedNode s g then
    let s := groupFall g s
    let s := (s.wr Fld.RG_RING_EVENTS_NBR_WRONG 1).logEv 0x20 0x000C (g + node * 65536)
    s.setGrp g { s.grp g with retry := 500000 }
  else
    let s := if s.rdB (Fld.RG_GROUP_STATUS_NBR_VALID g) then s else s.logEv 0x20 0x0002 (g + node * 65536)
    let s := (s.wr (Fld.RG_GROUP_STATUS_NBR_VALID g) 1).wr (Fld.RG_GROUP_STATUS_NBR_NODE g) node
    let s := s.setGrp g { s.grp g with nbrIns := ins }
    if ins = 3 ∨ insState s (g / 2) = 3 then
      let x := s.ins (g / 2)
      s.setIns (g / 2) { x with breaks := x.breaks.map (fun b => if b.span == spanOf s g then { b with quick := true } else b) }
    else s

/-- NBR_ID (R546). -/
def execNbrId (g : Fin 4) (node : BitVec 10) (ins : Fin 8) (size : BitVec 10) (s : State) : Host.Outcome State Fault Refusal :=
  run (nbrIdRx g.val node.toNat ins.val size.toNat) s

/-- NBR_RETRY (R546): 10 s after NBR_WRONG the group is tried again. -/
def execNbrRetry (g : Fin 4) (s : State) : Host.Outcome State Fault Refusal :=
  run (fun s => if groupState s g.val = 4 ∧ (s.grp g.val).retry = 0 ∧ portUp s (groupPort g.val) = true then groupUp g.val s else s) s

/-! ### Breaks and heals received (R548, R549) -/

/-- A received RING_BREAK (R548, R556). -/
def ringBreakRx (r span : Nat) (planned drowse : Bool) (s : State) : State :=
  (breakAdd r span planned drowse s).logEv 0x20 0x0007 (r + (if planned then 256 else 0) + (if drowse then 512 else 0) + span * 65536)

/-- RING_BREAK (R548): a received cell's break is entered at the frame tick. -/
def execRingBreak (r : Fin 2) (span : BitVec 10) (planned drowse : Bool) (s : State) : Host.Outcome State Fault Refusal :=
  run (ringBreakRx r.val span.toNat planned drowse) s

/-- A received RING_HEAL (R549). -/
def ringHealRx (r span : Nat) (s : State) : State := (breakHeal r span s).logEv 0x20 0x0008 (r + span * 65536)

/-- RING_HEAL (R549). -/
def execRingHeal (r : Fin 2) (span : BitVec 10) (s : State) : Host.Outcome State Fault Refusal := run (ringHealRx r.val span.toNat) s

/-- A group is UP with a valid neighbour. -/
def groupValid (s : State) (g : Nat) : Bool := groupState s g == 3 && s.rdB (Fld.RG_GROUP_STATUS_NBR_VALID g)

/-- HEAL_HOLD_END (R549, R554): the span of group `g` has had both groups UP for HEAL_HOLD, or at all where an end showed JOINING or
a planned break took the group down; the lower end sends RING_HEAL. -/
def execHealHoldEnd (g : Fin 4) (s : State) : Host.Outcome State Fault Refusal :=
  run (fun s =>
    let span := spanOf s g.val
    match (s.ins (g.val / 2)).breaks.find? (fun b => b.span == span) with
    | none => s
    | some b =>
      if groupValid s g.val && lowerEnd s g.val && (b.quick || decide (50 * s.rd Fld.RG_RING_TIMING_HEAL_HOLD ≤ b.up)) then
        sendHeal (g.val / 2) span (breakHeal (g.val / 2) span s)
      else s) s

/-! ### Insertion (R550 to R552) -/

/-- What a ring's LOOP_TEST needs (R550): ticks, its SerDes domains, forwarding, and Run, Idle or Ring-only. -/
def loopReady (s : State) (r : Nat) : Bool :=
  ringUsed s r && s.rdB Fld.SCHED_CFG_TICK_RUN && s.bit Fld.DOM_STATUS_ON (5 + 2 * r) && s.bit Fld.DOM_STATUS_ON (6 + 2 * r)
    && s.ring.forwarding && decide (s.rd Fld.PWR_STATE_STATE ≤ 2)

/-- LOOP_TEST_START (R550). -/
def execLoopTestStart (r : Fin 2) (s : State) : Host.Outcome State Fault Refusal :=
  run (fun s => if insState s r.val = 0 ∧ (s.ins r.val).backoff = 0 ∧ loopReady s r.val = true then
      let s := s.setIns r.val { s.ins r.val with passed := false, up := 0 }
      let s := insTo r.val 1 s
      forEach (ringGroups r.val) (fun g s => if portUp s (groupPort g) then setGroup g 1 s else s) s
    else s) s

/-- INSERT_PLAN for ring `r` goes to both neighbours on the ring that is IN, N frames ahead (R551). -/
def sendPlan (r : Nat) (s : State) : State :=
  let n := leadFrame s
  let s := forEach (ringGroups (1 - r)) (fun g s => if groupState s g = 3 ∨ 5 ≤ groupState s g then nbrCell (.insertPlan r n) g s else s) s
  s.setIns r { s.ins r with planAt := some n }

/-- LOOP_TEST_PASS (R550, R551): with LOOP_FIT = 1 both groups have been aligned for 20 ms with no uncorrectable codeword and fewer than
1,024 corrected ones on each lane (`corr` and `uncorr` are the highest counts); with LOOP_FIT = 0 at once. The ring inserted second
stays until its planned insertion, or until it is the one that the next attempt takes first. -/
def execLoopTestPass (r : Fin 2) (corr uncorr : Nat) (s : State) : Host.Outcome State Fault Refusal :=
  run (fun s =>
    let x := s.ins r.val
    if insState s r.val = 1
        ∧ (x.passed = true ∨ s.rdB (loopFitField r.val) = false ∨ (1000 ≤ x.up ∧ corr < 1024 ∧ uncorr = 0)) then
      let s := s.setIns r.val { x with passed := true }
      if ringUsed s (1 - r.val) && insState s (1 - r.val) == 4 then (if x.planAt.isNone then sendPlan r.val s else s)
      else if firstRing s = r.val then insTo r.val 2 (s.setIns r.val { s.ins r.val with planAt := none })
      else s
    else s) s

/-- LOOP_FAIL (R550, R551): not aligned within 200 ms, or the criteria of the 20 ms test are breached, then or later; `lane` is the
first failing lane. A planned insertion stays planned: it follows at the first frame tick after a test passes
(DEDUCED, assumption 120). -/
def execLoopFail (r : Fin 2) (lane : Fin 128) (corr uncorr : Nat) (s : State) : Host.Outcome State Fault Refusal :=
  run (fun s =>
    let x := s.ins r.val
    let up := (ringGroups r.val).all (fun g => portUp s (groupPort g))
    if insState s r.val = 1 ∧ s.rdB (loopFitField r.val) = true
        ∧ ((up = false ∧ (10000 ≤ x.since ∨ x.passed = true)) ∨ 1024 ≤ corr ∨ 0 < uncorr) then
      let s := insTo r.val 0 (s.setIns r.val { x with passed := false, backoff := 500000 })
      let s := forEach (ringGroups r.val) (setGroup · 0) s
      (s.wr Fld.RG_RING_EVENTS_LOOP_FAIL_EV 1).logEv 0x20 0x0003 (r.val + 256 * lane.val)
    else s) s

/-- JOIN_START (R550): 10 ms after the first edge on the hold pin; `since` counts from it in HOLD_WAIT. -/
def execJoinStart (r : Fin 2) (s : State) : Host.Outcome State Fault Refusal :=
  run (fun s => if insState s r.val = 2 ∧ s.rdB (holdField r.val) = true ∧ 500 ≤ (s.ins r.val).since then
      let s := insTo r.val 3 s
      forEach (ringGroups r.val) (fun g s => if portUp s (groupPort g) then groupUp g s else setGroup g 2 s) s
    else s) s

/-- INSERTED (R550, R551): both groups UP with a valid NBR_ID, or one of them 500 ms after entry into JOINING; the plan of the other
ring goes out. -/
def execInserted (r : Fin 2) (s : State) : Host.Outcome State Fault Refusal :=
  run (fun s =>
    let x := s.ins r.val
    let v := fun g => groupValid s g
    if insState s r.val = 3 ∧ ((v (2 * r.val) && v (2 * r.val + 1)) = true ∨ (25000 ≤ x.since ∧ (v (2 * r.val) || v (2 * r.val + 1)) = true)) then
      let s := insTo r.val 4 (s.setIns r.val { x with bypasses := 0, backoff := 0, down := 0 })
      let s := (s.wr Fld.RG_RING_EVENTS_INSERTED_EV 1).logEv 0x20 0x0004 r.val
      if ringUsed s (1 - r.val) && insState s (1 - r.val) != 4 && (s.ins (1 - r.val)).planAt.isNone then sendPlan (1 - r.val) s else s
    else s) s

/-- The backoff of a SELF_BYPASS: 10 s doubled at each consecutive one, up to 320 s, in frames (R550). -/
def bypassBackoff (n : Nat) : Nat := Nat.min 16000000 (500000 * 2 ^ (Nat.min n 6 - 1))

/-- A ring bypasses itself (R550, R551): two in a row of the first ring make the next attempt take the other ring first. -/
def selfBypass (r : Nat) (s : State) : State :=
  let n := (s.ins r).bypasses + 1
  let first := firstRing s == r
  let s := insTo r 6 (s.setIns r { s.ins r with bypasses := n, backoff := bypassBackoff n, passed := false, planAt := none })
  let s := forEach (ringGroups r) (setGroup · 0) s
  let s := if first && n % 2 == 0 then { s with ring := { s.ring with swapFirst := !s.ring.swapFirst } } else s
  (s.wr Fld.RG_RING_EVENTS_SELF_BYPASS_EV 1).logEv 0x20 0x0005 (r + 256 * Nat.min n 255)

/-- JOIN_TIMEOUT (R550): 500 ms after JOINING neither group is UP with a valid NBR_ID. -/
def execJoinTimeout (r : Fin 2) (s : State) : Host.Outcome State Fault Refusal :=
  run (fun s => if insState s r.val = 3 ∧ 25000 ≤ (s.ins r.val).since ∧ (ringGroups r.val).all (fun g => !groupValid s g) = true then
      selfBypass r.val s else s) s

/-- SELF_BYPASS (R550): both groups of a ring that is IN have been down for 500 ms without a break. -/
def execSelfBypass (r : Fin 2) (s : State) : Host.Outcome State Fault Refusal :=
  run (fun s => if insState s r.val = 4 ∧ 25000 ≤ (s.ins r.val).down then selfBypass r.val s else s) s

/-- BACKOFF_END (R550): a ring in SELF_BYPASS whose backoff has passed returns to OUT. -/
def execBackoffEnd (r : Fin 2) (s : State) : Host.Outcome State Fault Refusal :=
  run (fun s => if insState s r.val = 6 ∧ (s.ins r.val).backoff = 0 then insTo r.val 0 s else s) s

/-- A received INSERT_PLAN (R551): the neighbour sends RING_BREAK, planned, for the span of that ring which the insertion will cut. -/
def insertPlanRx (g r : Nat) (s : State) : State :=
  let span := spanOf s (2 * r + g % 2)
  sendBreak r span true false (breakAdd r span true false s)

/-- INSERT_PLAN (R551). -/
def execInsertPlan (g : Fin 4) (r : Fin 2) (s : State) : Host.Outcome State Fault Refusal := run (insertPlanRx g.val r.val) s

/-- PLANNED_INSERT (R551): at frame N, or at the first frame tick after its loop test passes, the second ring enters HOLD_WAIT. -/
def execPlannedInsert (r : Fin 2) (s : State) : Host.Outcome State Fault Refusal :=
  run (fun s => match (s.ins r.val).planAt with
    | some n => if insState s r.val = 1 ∧ (s.ins r.val).passed = true ∧ fnReached n s.fn = true then
        insTo r.val 2 (s.setIns r.val { s.ins r.val with planAt := none }) else s
    | none => s) s

/-! ### Removal (R553, R554) -/

/-- An orderly removal (R553): LEAVE goes to the neighbours of every ring of the mask that is IN, with N LEAVE_FRAMES ahead. -/
def leaveRings (mask : Nat) (s : State) : State :=
  let n := leadFrame s
  let l := [0, 1].filter (fun r => mask.testBit r && insState s r == 4)
  if l.isEmpty then s
  else
    let bits := l.foldl (fun a r => a + 2 ^ r) 0
    let s := forEach l (fun r s =>
      let s := forEach (ringGroups r) (fun g s => if groupState s g = 3 ∨ 5 ≤ groupState s g then nbrCell (.leave bits n) g s else s) s
      insTo r 5 (s.setIns r { s.ins r with leaveAt := some n })) s
    s.logEv 0x20 0x0006 (bits + n % 65536 * 65536)

/-- A removal that a reset waits for (R553): the reset follows 1 ms after frame N. -/
def leaveForReset (cause : Nat) (s : State) : State :=
  let n := leadFrame s
  let s := leaveRings 3 s
  { s with ring := { s.ring with reset := some (cause, (n + 50) % fnModulus) } }

/-- The hold requests whose frame N has come are withdrawn (R553). -/
def withdrawHolds (s : State) : State :=
  forEach [0, 1] (fun r s => match (s.ins r).leaveAt with
    | some n => if insState s r = 5 ∧ fnReached n s.fn = true then
        (s.setIns r { s.ins r with leaveAt := none }).wr (holdReqField r) 0 else s
    | none => s) s

/-- A forward step of the frame number jumps over the frame of a planned insertion, of a removal or of a quiesce (R28): it is missed. A missed
insertion leaves its ring in LOOP_TEST, a missed removal its ring IN, and a missed quiesce its lanes as they are until the group wakes
(assumption 60). -/
def ringMissed (jump : Nat → Bool) (s : State) : State :=
  let s := forEach [0, 1] (fun r s => match (s.ins r).planAt with
    | some n => when (jump n) (fun s => s.setIns r { s.ins r with planAt := none }) s
    | none => s) s
  let s := forEach [0, 1] (fun r s => match (s.ins r).leaveAt with
    | some n => when (jump n) (fun s => when (insState s r == 5) (insTo r 4) (s.setIns r { s.ins r with leaveAt := none })) s
    | none => s) s
  forEach [0, 1, 2, 3] (fun g s => match (s.grp g).quiesce with
    | some q => when (jump q) (fun s => s.setGrp g { s.grp g with quiesce := none }) s
    | none => s) s

/-- CMD = INSERT ends a backoff at once (R562). -/
def insertCmd (mask : Nat) (s : State) : State :=
  forEach [0, 1] (fun r s => when (mask.testBit r) (fun s => s.setIns r { s.ins r with backoff := 0 }) s) s

/-- CMD = WAKE requests the wake of groups (R556). -/
def wakeCmd (mask : Nat) (s : State) : State := forEach [0, 1, 2, 3] (fun g s => when (mask.testBit g) (wakeGroup g false) s) s

/-- A command of RG_RING_CTRL is taken, and the register reads 0 again (R562). -/
def ringTake (cmd target : Nat) (s : State) : State :=
  let s := (s.wr Fld.RG_RING_CTRL_CMD 0).wr Fld.RG_RING_CTRL_TARGET 0
  match cmd with
  | 1 => leaveRings target s
  | 2 => insertCmd target s
  | 3 => wakeCmd target s
  | _ => s

/-- A ring command is written: it waits for the frame tick, in place of one that waits (R5, R562). -/
def ringCommand (cmd target : Nat) (s : State) : State := (s.wr Fld.RG_RING_CTRL_CMD cmd).wr Fld.RG_RING_CTRL_TARGET target

/-- LEAVE (R553, R562). -/
def execLeave (i : Initiator) (rings : BitVec 4) (s : State) : Host.Outcome State Fault Refusal :=
  run (writeAdmitted i Reg.RG_RING_CTRL (ringCommand 1 rings.toNat)) s
/-- INSERT (R562). -/
def execInsert (i : Initiator) (rings : BitVec 4) (s : State) : Host.Outcome State Fault Refusal :=
  run (writeAdmitted i Reg.RG_RING_CTRL (ringCommand 2 rings.toNat)) s
/-- WAKE (R556, R562). -/
def execWake (i : Initiator) (groups : BitVec 4) (s : State) : Host.Outcome State Fault Refusal :=
  run (writeAdmitted i Reg.RG_RING_CTRL (ringCommand 3 groups.toNat)) s

/-- A received LEAVE (R553): the neighbour on the side of group `g` leaves some rings; RING_BREAK, planned, goes out for the spans on
both sides of that node. -/
def leaveRx (g rings : Nat) (s : State) : State :=
  let node := s.rd (Fld.RG_GROUP_STATUS_NBR_NODE g)
  forEach [0, 1] (fun r s => if rings.testBit r then
      let s := s.setIns r { s.ins r with left := if (s.ins r).left.contains node then (s.ins r).left else node :: (s.ins r).left }
      forEach [(node + ringSize s - 1) % ringSize s, node] (fun x s => sendBreak r x true false (breakAdd r x true false s)) s
    else s) s

/-- LEAVE_CELL (R553). -/
def execLeaveCell (g : Fin 4) (rings : BitVec 2) (s : State) : Host.Outcome State Fault Refusal := run (leaveRx g.val rings.toNat) s

/-- RELEASE_COUNTED (R554): 10 ms after the last edge on the hold pin the ring is OUT; `since` counts from it in LEAVING. -/
def execReleaseCounted (r : Fin 2) (s : State) : Host.Outcome State Fault Refusal :=
  run (fun s => if insState s r.val = 5 ∧ s.rdB (holdReqField r.val) = false ∧ s.rdB (holdField r.val) = false ∧ 500 ≤ (s.ins r.val).since then
      forEach (ringGroups r.val) (setGroup · 0) (insTo r.val 0 s) else s) s

/-! ### Drowse (R555 to R557) -/

/-- The group on the same side of the other ring. -/
def otherGroup (g : Nat) : Nat := (g + 2) % 4

/-- The conditions of a drowse apart from the loads (R555). -/
def drowseOk (s : State) (g : Nat) : Bool :=
  s.rdB Fld.RG_RING_CFG_DROWSE_EN && groupValid s g && groupState s (otherGroup g) == 3 && (s.ins (1 - g / 2)).breaks.isEmpty

/-- Agreement (R555): the span is broken, planned and drowsed, RING_BREAK goes out, and lanes 1 to 15 freeze. -/
def drowseAgree (g q : Nat) (s : State) : State :=
  let span := spanOf s g
  let s := s.setGrp g { s.grp g with proposal := none, quiesce := some q }
  let s := sideLanes g 3 (setGroup g 5 s)
  let s := sendBreak (g / 2) span true true (breakAdd (g / 2) span true true s)
  s.logEv 0x20 0x000A (g + 256)

/-- The conditions of a drowse apart from the loads have held for DROWSE_WIN (R555). -/
def drowseQuiet (s : State) (g : Nat) : Bool :=
  drowseOk s g && decide (framesPerSecond * s.rd Fld.RG_DROWSE_CFG_DROWSE_WIN ≤ (s.grp g).quiet)

/-- DROWSE_PROPOSE (R555): the conditions have held for DROWSE_WIN at the lower end; that the loads have is what the command says. -/
def execDrowsePropose (g : Fin 4) (s : State) : Host.Outcome State Fault Refusal :=
  run (fun s => if drowseQuiet s g.val && lowerEnd s g.val && (s.grp g.val).proposal.isNone then
      let q := leadFrame s
      nbrCell (.drowseReq (g.val / 2) q) g.val (s.setGrp g.val { s.grp g.val with proposal := some (q, 0) })
    else s) s

/-- A received DROWSE_REQ (R555): DROWSE_ACK where the same conditions hold and the proposer is the lower end; the reason of a NAK is
a value the spec leaves open. `loadOk`: the loads have been low for DROWSE_WIN. -/
def drowseReqRx (g q : Nat) (loadOk : Bool) (s : State) : State :=
  if drowseQuiet s g && loadOk && !lowerEnd s g then drowseAgree g q (nbrCell (.drowseAck (g / 2) q) g s)
  else nbrCell (.drowseNak (g / 2) q s.free.1) g s.free.2

/-- A DROWSE_REQ reaches a group that is UP, or drowsing, over its sentinel lane: there it is answered with a NAK (R555). -/
def drowseReqAt (g q : Nat) (loadOk : Bool) (s : State) : State :=
  if groupState s g = 3 ∨ 5 ≤ groupState s g then drowseReqRx g q loadOk s else s

/-- DROWSE_REQ (R555). -/
def execDrowseReq (g : Fin 4) (q : BitVec 48) (loadOk : Bool) (s : State) : Host.Outcome State Fault Refusal :=
  run (drowseReqAt g.val q.toNat loadOk) s

/-- A received DROWSE_ACK (R555): it agrees to the proposal that names Q. -/
def drowseAckRx (g q : Nat) (s : State) : State :=
  match (s.grp g).proposal with
  | some (p, _) => if p = q ∧ groupState s g = 3 then drowseAgree g q s else s
  | none => s

/-- DROWSE_ACK (R555). -/
def execDrowseAck (g : Fin 4) (q : BitVec 48) (s : State) : Host.Outcome State Fault Refusal := run (drowseAckRx g.val q.toNat) s

/-- A received DROWSE_NAK (R555): the proposal is abandoned, and a new one waits another DROWSE_WIN. -/
def drowseNakRx (g : Nat) (s : State) : State := s.setGrp g { s.grp g with proposal := none, quiet := 0 }

/-- DROWSE_NAK (R555). -/
def execDrowseNak (g : Fin 4) (s : State) : Host.Outcome State Fault Refusal := run (drowseNakRx g.val) s

/-- DROWSE_REPLY_TIMEOUT (R555): no reply within 100 frames. -/
def execDrowseReplyTimeout (g : Fin 4) (s : State) : Host.Outcome State Fault Refusal :=
  run (fun s => match (s.grp g.val).proposal with
    | some (_, age) => if 100 ≤ age then drowseNakRx g.val s else s
    | none => s) s

/-- DROWSE_QUIESCE (R109, R555): at the tick cycle of Q lanes 1 to 15 go to electrical idle, at both ends, and have no signal. -/
def execDrowseQuiesce (g : Fin 4) (s : State) : Host.Outcome State Fault Refusal :=
  run (fun s => match (s.grp g.val).quiesce with
    | some q => if groupState s g.val = 5 ∧ fnReached q s.fn = true then
        let s := sideLanes g.val 4 (setGroup g.val 6 (s.setGrp g.val { s.grp g.val with quiesce := none }))
        let s := forEach (List.range 15) (fun k => laneLoses (16 * g.val + 1 + k) 1) s
        (s.wr Fld.RG_RING_EVENTS_DROWSE_EV 1).logEv 0x20 0x000A (g.val + 512)
      else s
    | none => s) s

/-- WAKE_CELL (R556): a WAKE cell received on group `g`, or (`received` = false) another request of R556, such as the load of the other
ring's group exceeding WAKE_LOAD over 1 ms. -/
def execWakeCell (g : Fin 4) (received : Bool) (s : State) : Host.Outcome State Fault Refusal :=
  run (wakeGroup g.val received) s

/-- Lanes 1 to 15 of a group are aligned. -/
def sideAligned (g : Nat) (s : State) : State :=
  forEach (List.range 15) (fun k s =>
    let l := 16 * g + 1 + k
    (((s.wr (Fld.RG_LANE_STATUS_STATE l) 2).wr (Fld.RG_LANE_STATUS_SIG l) 1).wr (Fld.RG_LANE_STATUS_BLOCK_LOCK l) 1).wr (Fld.RG_LANE_STATUS_AM_LOCK l) 1) s

/-- RETRAIN_DONE (R556): all 16 lanes of a waking group are aligned; the lower end sends RING_HEAL. -/
def execRetrainDone (g : Fin 4) (s : State) : Host.Outcome State Fault Refusal :=
  run (fun s => if groupState s g.val = 7 ∧ s.rd (Fld.RG_LANE_STATUS_STATE (16 * g.val)) = 2 then
      let s := synceEval (sideAligned g.val (setGroup g.val 3 s))
      if lowerEnd s g.val then sendHeal (g.val / 2) (spanOf s g.val) (breakHeal (g.val / 2) (spanOf s g.val) s) else s
    else s) s

/-! ### The Ridgeline's clock and domain (R105), and the frame tick -/

/-- Forwarding stops (R105, R553): lanes to electrical idle, ports and groups off, the rings OUT and their hold no longer requested. -/
def forwardingStop (s : State) : State :=
  if !s.ring.forwarding then s else
  let s := { s with ring := { s.ring with forwarding := false, groups := [], arrived := [], fresh := [] } }
  let s := forEach (List.range 128) (fun l s => if s.rdB (Fld.RG_LANE_CFG_EN l) then s.wr (Fld.RG_LANE_STATUS_STATE l) 4 else s) s
  let s := forEach (portsOn s) (fun p s => if portUp s p then transportLost 0 p ((s.wr (Fld.RG_PORT_STATUS_UP p) 0).inc (Fld.RG_PORT_STATUS_DOWNS p)) else s) s
  let s := forEach [0, 1, 2, 3] (fun g s => (setGroup g 0 s).wr (Fld.RG_GROUP_STATUS_NBR_VALID g) 0) s
  let s := forEach [0, 1] (fun r s => insTo r 0 (s.setIns r { s.ins r with passed := false, planAt := none, leaveAt := none, up := 0, down := 0 })) s
  synceEval s

/-- Forwarding resumes once the Ridgeline is clocked and its domain is good: the packets in the buffer are discarded and counted, and the
lanes of the domains that are on adapt again (R105). -/
def forwardingResume (s : State) : State :=
  if s.ring.forwarding || !s.rdB Fld.CLK_STATUS_RG_LOCK || !s.bit Fld.DOM_STATUS_ON 0 then s else
  let s := forEach (portsOn s) flushPort { s with ring := { s.ring with forwarding := true } }
  forEach (List.range 128) (fun l s =>
    if s.rdB (Fld.RG_LANE_CFG_EN l) && s.bit Fld.DOM_STATUS_ON (5 + l / 16) then s.wr (Fld.RG_LANE_STATUS_STATE l) (laneStart s l) else s) s

/-- The lanes of SerDes domain `g` start to adapt (R539). -/
def lanesOn (g : Nat) (s : State) : State :=
  forEach (List.range 16) (fun k s => if s.rdB (Fld.RG_LANE_CFG_EN (16 * g + k)) then
    s.wr (Fld.RG_LANE_STATUS_STATE (16 * g + k)) (laneStart s (16 * g + k)) else s) s

/-- The lanes of SerDes domain `g` go off. -/
def lanesOff (g : Nat) (s : State) : State :=
  let s := lanesDown ((List.range 16).map (16 * g + ·)) s
  synceEval (forEach (List.range 16) (fun k s => s.setReg (Reg.RG_LANE_STATUS (16 * g + k)) 0#32) s)

/-- A frame's counts of ring `r` (R549, R550): time in its state, both groups aligned, both down, and its breaks. -/
def ringCounts (r : Nat) (s : State) : State :=
  let x := s.ins r
  let gs := ringGroups r
  let downNow := insState s r == 4 && gs.all (fun g => let st := groupState s g; st != 3 && st < 5)
  let facing := fun span => gs.any (fun g => groupValid s g && spanOf s g == span)
  let s := s.setIns r { x with
    since := if (insState s r = 2 ∧ s.rdB (holdField r) = false) ∨ (insState s r = 5 ∧ s.rdB (holdField r) = true) then 0 else x.since + 1, backoff := x.backoff - 1, up := if gs.all (fun g => portUp s (groupPort g)) then x.up + 1 else 0,
    down := if downNow then x.down + 1 else 0,
    breaks := x.breaks.map (fun b => { b with age := b.age + 1, up := if facing b.span then b.up + 1 else 0 }) }
  if x.breaks.isEmpty then s else showBreaks r s

/-- The corrected and uncorrectable codewords of an aligned lane in a frame, which the link decides (R559). -/
def laneCodewords (l : Nat) (s : State) : State :=
  if s.rd (Fld.RG_LANE_STATUS_STATE l) = 2 then
    let s := (s.free.2).incBy (Fld.RG_LANE_FEC_CORR l) s.free.1
    (s.free.2).incBy (Fld.RG_LANE_FEC_UNCORR l) s.free.1
  else s

/-- The RING_BREAK and RING_HEAL cells that have arrived are applied (R548, R549). -/
def arrivedTake (s : State) : State :=
  s.ring.arrived.foldl (fun s b => match b with
    | .ringBreak r span planned drowse _ => ringBreakRx r span planned drowse s
    | .ringHeal r span _ => ringHealRx r span s
    | _ => s) { s with ring := { s.ring with arrived := [] } }

/-- What the rings do in a frame tick: a written command is taken (R562), cells that have arrived are applied, and counts
advance. -/
def ringFrame (s : State) : State :=
  let s := if s.rd Fld.RG_RING_CTRL_CMD = 0 then s else ringTake (s.rd Fld.RG_RING_CTRL_CMD) (s.rd Fld.RG_RING_CTRL_TARGET) s
  if !s.ring.forwarding then s else
  let s := forEach [0, 1] ringCounts (arrivedTake { s with ring := { s.ring with fresh := [] } })
  let s := forEach [0, 1, 2, 3] (fun g s =>
    s.setGrp g { s.grp g with retry := (s.grp g).retry - 1, proposal := (s.grp g).proposal.map (fun p => (p.1, p.2 + 1)),
                              sent := (s.grp g).sent + 1, quiet := if drowseOk s g then (s.grp g).quiet + 1 else 0 }) s
  forEach (List.range 128) laneCodewords s

end Sys2Proof.Machine
end

