-- ==== Sys2Proof/Machine/Plot.lean ====
section
/-!
DEFINITION. Machine/Plot.lean: tenant and ring frames, policers, the forwarding table and its banks, and the plot commands'
effect (spec/19_plots_and_classes.md).
-/
namespace Sys2Proof.Machine

/-! ### The forwarding table (R572, R583) -/

/-- The key of an entry. -/
def fdbKey (p mac : Nat) : Nat := p * 2 ^ 48 + mac

/-- Bank `b`. -/
def State.bank (s : State) (b : Nat) : Tab (Option FdbEntry) := if b = 0 then s.plots.bank0 else s.plots.bank1
/-- Stores bank `b`. -/
def State.setBank (s : State) (b : Nat) (t : Tab (Option FdbEntry)) : State :=
  if b = 0 then { s with plots := { s.plots with bank0 := t } } else { s with plots := { s.plots with bank1 := t } }
/-- The active bank. -/
def actBank (s : State) : Nat := s.rd Fld.PQ_FDB_STATUS_ACT_BANK
/-- The inactive bank. -/
def idleBank (s : State) : Nat := 1 - actBank s

/-- The entry of a key in a bank. -/
def fdbGet (s : State) (b k : Nat) : Option FdbEntry := Tab.get none (s.bank b) k
/-- Writes or removes the entry of a key in a bank. -/
def fdbPut (b k : Nat) (e : Option FdbEntry) (s : State) : State := s.setBank b (Tab.set none (s.bank b) k e)

/-- The bucket of a key. -/
def bucketOf (k : Nat) : Nat := Config.fdbBucket k % 65536
/-- The bucket of a key holds four entries already (R583). -/
def bucketFull (s : State) (b k : Nat) : Bool := decide (4 ≤ ((s.bank b).filter (fun e => e.2.isSome && bucketOf e.1 == bucketOf k)).length)
/-- Entries of plot `p` in a bank. -/
def fdbCount (s : State) (b p : Nat) : Nat := ((s.bank b).filter (fun e => e.2.isSome && e.1 / 2 ^ 48 == p)).length
/-- FDB_MAX in entries (R597). -/
def fdbMax (s : State) (p : Nat) : Nat := 16 * Nat.min 16384 (s.rd (Fld.PQ_PLOT_CFG_FDB_MAX p))

/-- A learn (R572): it writes both banks, never over a static entry; beyond FDB_MAX or with its bucket full it is not made. A
learn of a known address counts as a hit (DESIGN CHOICE, assumption 118). -/
def fdbLearn (p mac type node port : Nat) (s : State) : State :=
  if !s.rdB (Fld.PQ_PLOT_CFG_LEARN p) then s
  else
    let k := fdbKey p mac
    let e : FdbEntry := { static := false, type := type, node := node, port := port, hitAt := s.fn }
    let missing := fun b => (fdbGet s b k).isNone
    if [0, 1].any (fun b => missing b && (bucketFull s b k || decide (fdbMax s p ≤ fdbCount s b p))) then s.inc (Fld.PQ_PLOT_DROP2_LEARN_FAIL p)
    else
      let s := if missing 0 || missing 1 then countEv 0x012 p 1 s else s
      forEach [0, 1] (fun b s => match fdbGet s b k with
        | some old => if old.static then s else fdbPut b k (some e) s
        | none => fdbPut b k (some e) s) s

/-- A lookup of (p, DA) in the active bank, counted for its pipeline; a hit is marked in both banks (R570, R572, R583). -/
def fdbLookup (p da pipe : Nat) (s : State) : Option FdbEntry × State :=
  let k := fdbKey p da
  let s := countEv 0x010 pipe 1 s
  match fdbGet s (actBank s) k with
  | none => (none, s)
  | some e => (some e, forEach [0, 1] (fun b s => match fdbGet s b k with
      | some x => fdbPut b k (some { x with hitAt := s.fn }) s | none => s) s)

/-- FDB_AGE (R572): a learned entry without a hit for AGE_TIME leaves both banks. -/
def execFdbAge (p : Fin 64) (mac : BitVec 48) (s : State) : Host.Outcome State Fault Refusal :=
  run (fun s =>
    let k := fdbKey p.val mac.toNat
    let t := 50000 * s.rd Fld.PQ_FDB_CFG_AGE_TIME
    forEach [0, 1] (fun b s => match fdbGet s b k with
      | some e => if !e.static && decide (0 < t ∧ t ≤ fnDiff s.fn e.hitAt) then fdbPut b k none s else s
      | none => s) s) s

/-- A firmware write of the table is refused while a swap is armed or a copy runs (R583). -/
def fdbWritable (f : State → State) (s : State) : State :=
  if s.plots.armedAt.isSome || s.rdB Fld.PQ_FDB_STATUS_COPY_BUSY then
    ((s.wr Fld.PQ_FDB_STATUS_WR_REF 1).wr Fld.PQ_FDB_STATUS_ACC_OK 0).logEv 0x21 0x0006 0
  else f s

/-- The key that PQ_FDB_KEY holds (R602). -/
def accessKey (s : State) : Nat :=
  fdbKey (s.rd Fld.PQ_FDB_KEY_HI_PLOT) (s.rd Fld.PQ_FDB_KEY_LO + 2 ^ 32 * s.rd Fld.PQ_FDB_KEY_HI_MAC_HI)

/-- CMD = WRITE: the entry of PQ_FDB_RES goes to the inactive bank; a full bucket or a TYPE that is not issued fails, and
VALID = 0 removes the entry (DESIGN CHOICE, assumption 124). -/
def fdbWrite (s : State) : State :=
  fdbWritable (fun s =>
    let k := accessKey s
    let b := idleBank s
    let e : FdbEntry := { static := s.rdB Fld.PQ_FDB_RES_STATIC, type := s.rd Fld.PQ_FDB_RES_TYPE, node := s.rd Fld.PQ_FDB_RES_NODE,
                          port := s.rd Fld.PQ_FDB_RES_PORT, hitAt := s.fn }
    if !s.rdB Fld.PQ_FDB_RES_VALID then (fdbPut b k none s).wr Fld.PQ_FDB_STATUS_ACC_OK 1
    else if e.type = 3 ∨ ((fdbGet s b k).isNone = true ∧ bucketFull s b k = true) then s.wr Fld.PQ_FDB_STATUS_ACC_OK 0
    else (fdbPut b k (some e) s).wr Fld.PQ_FDB_STATUS_ACC_OK 1) s

/-- CMD = READ: the entry of the inactive bank goes to PQ_FDB_RES; a miss clears ACC_OK. -/
def fdbRead (s : State) : State :=
  match fdbGet s (idleBank s) (accessKey s) with
  | some e =>
    let s := ((s.wr Fld.PQ_FDB_RES_VALID 1).wrB Fld.PQ_FDB_RES_STATIC e.static).wr Fld.PQ_FDB_RES_TYPE e.type
    ((s.wr Fld.PQ_FDB_RES_NODE e.node).wr Fld.PQ_FDB_RES_PORT e.port).wr Fld.PQ_FDB_STATUS_ACC_OK 1
  | none => (s.setReg Reg.PQ_FDB_RES 0#32).wr Fld.PQ_FDB_STATUS_ACC_OK 0

/-- CMD = DELETE: the entry leaves the inactive bank; a miss clears ACC_OK. -/
def fdbDelete (s : State) : State :=
  fdbWritable (fun s =>
    let k := accessKey s
    if (fdbGet s (idleBank s) k).isSome then (fdbPut (idleBank s) k none s).wr Fld.PQ_FDB_STATUS_ACC_OK 1
    else s.wr Fld.PQ_FDB_STATUS_ACC_OK 0) s

/-- CMD = ARM_AT: F must lie 2 to 2^47 - 1 frames ahead (R16), with no other swap armed (R584). -/
def fdbArm (s : State) : State :=
  let f := s.rd Fld.PQ_FDB_AT_LO + 2 ^ 32 * s.rd Fld.PQ_FDB_AT_HI
  if !(fnLater f s.fn && decide (2 ≤ fnDiff f s.fn)) then s.answerSt .badArg
  else if s.plots.armedAt.isSome then s.answerSt .stateConflict
  else { s with plots := { s.plots with armedAt := some f } }.wr Fld.PQ_FDB_STATUS_ARMED 1

/-- CMD = DISARM (R584). -/
def fdbDisarm (s : State) : State := { s with plots := { s.plots with armedAt := none } }.wr Fld.PQ_FDB_STATUS_ARMED 0

/-- CMD = COPY (R584): a copy is a write of the inactive bank (DEDUCED, assumption 123). -/
def fdbCopy (s : State) : State := fdbWritable (fun s => s.wr Fld.PQ_FDB_STATUS_COPY_BUSY 1) s

/-- The access command of a write to PQ_FDB_CTRL with GO = 1 (R601). -/
def fdbCommand (cmd : Nat) (s : State) : State :=
  match cmd with
  | 1 => fdbArm s
  | 2 => fdbDisarm s
  | 3 => fdbCopy s
  | 4 => fdbWrite s
  | 5 => fdbRead s
  | 6 => fdbDelete s
  | _ => s

/-- FDB_ARM_AT (R584). -/
def execFdbArmAt (i : Initiator) (s : State) : Host.Outcome State Fault Refusal := run (writeAdmitted i Reg.PQ_FDB_CTRL (fdbCommand 1)) s
/-- FDB_DISARM (R584). -/
def execFdbDisarm (i : Initiator) (s : State) : Host.Outcome State Fault Refusal := run (writeAdmitted i Reg.PQ_FDB_CTRL (fdbCommand 2)) s
/-- FDB_COPY (R584). -/
def execFdbCopy (i : Initiator) (s : State) : Host.Outcome State Fault Refusal := run (writeAdmitted i Reg.PQ_FDB_CTRL (fdbCommand 3)) s
/-- FDB_WRITE (R583). -/
def execFdbWrite (i : Initiator) (s : State) : Host.Outcome State Fault Refusal := run (writeAdmitted i Reg.PQ_FDB_CTRL (fdbCommand 4)) s
/-- FDB_READ (R583). -/
def execFdbRead (i : Initiator) (s : State) : Host.Outcome State Fault Refusal := run (writeAdmitted i Reg.PQ_FDB_CTRL (fdbCommand 5)) s
/-- FDB_DELETE (R583). -/
def execFdbDelete (i : Initiator) (s : State) : Host.Outcome State Fault Refusal := run (writeAdmitted i Reg.PQ_FDB_CTRL (fdbCommand 6)) s

/-- FDB_COPY_DONE (R584): the inactive bank holds what the active one holds. -/
def execFdbCopyDone (s : State) : Host.Outcome State Fault Refusal :=
  run (fun s => if s.rdB Fld.PQ_FDB_STATUS_COPY_BUSY then
      (s.setBank (idleBank s) (s.bank (actBank s))).wr Fld.PQ_FDB_STATUS_COPY_BUSY 0 else s) s

/-- An armed swap is discarded (R584): 1 = activation or re-pitch at F, 2 = step over F, 3 = forwarding stopped. -/
def fdbDiscard (reason : Nat) (s : State) : State :=
  (fdbDisarm s).wr Fld.PQ_FDB_STATUS_SWAP_DISC 1 |>.logEv 0x21 0x0005 reason

/-- An armed swap is made (R584): the inactive bank becomes active. -/
def fdbSwapNow (s : State) : State :=
  let b := idleBank s
  ((fdbDisarm s).wr Fld.PQ_FDB_STATUS_ACT_BANK b).wr Fld.PQ_FDB_STATUS_SWAP_DONE 1 |>.logEv 0x21 0x0004 b

/-- The learned entries of plot `p` leave both banks, and the static ones of a section replace the old ones (R585). -/
def fdbRepitch (p : Nat) (content : List Byte) (s : State) : State :=
  forEach [0, 1] (fun b s =>
    let s := s.setBank b ((s.bank b).keep (fun k => k / 2 ^ 48 != p))
    (Config.plotEntries content).foldl (fun s e =>
      fdbPut b (fdbKey p (e.1 % 2 ^ 48)) (some { static := true, type := e.2.1 % 3, node := e.2.2.1 % 1024, port := e.2.2.2 % 128, hitAt := s.fn }) s) s) s

/-! ### Policers (R575 to R577) -/

/-- The rate and burst words in force at a policer: a written word waits for the frame tick (R577). -/
def polWords (s : State) (p c : Nat) : Word × Word :=
  match Tab.get none s.plots.polHeld (8 * p + c) with
  | some w => w
  | none => (s.reg (Reg.PQ_POL_RATE p c), s.reg (Reg.PQ_POL_BURST p c))

/-- CIR and PIR in force, in units of 0.1 Gbit/s. -/
def polRate (s : State) (p c : Nat) : Nat × Nat :=
  ((Fld.PQ_POL_RATE_CIR p c).get (polWords s p c).1, (Fld.PQ_POL_RATE_PIR p c).get (polWords s p c).1)

/-- The sizes of the two buckets in bytes: units of 1 KiB. -/
def polSize (s : State) (p c : Nat) : Nat × Nat :=
  (1024 * (Fld.PQ_POL_BURST_CBS p c).get (polWords s p c).2, 1024 * (Fld.PQ_POL_BURST_PBS p c).get (polWords s p c).2)

/-- Tokens missing from the buckets of policer `c` of plot `p`. -/
def polMiss (s : State) (p c : Nat) : Nat × Nat := Tab.get (0, 0) s.plots.missing (8 * p + c)
/-- Stores the missing tokens. -/
def setMiss (p c : Nat) (m : Nat × Nat) (s : State) : State :=
  { s with plots := { s.plots with missing := Tab.set (0, 0) s.plots.missing (8 * p + c) m } }

/-- Every bucket of a plot is full, and what its registers hold is in force (R577). -/
def polFull (p : Nat) (s : State) : State :=
  let s := { s with plots := { s.plots with polHeld := s.plots.polHeld.keep (fun k => k / 8 != p) } }
  forEach (List.range 7) (fun c s => setMiss p c (0, 0) s) s

/-- A frame fills every bucket: 0.1 Gbit/s is 250 bytes a frame. -/
def polFrame (s : State) : State :=
  { s with plots := { s.plots with missing := s.plots.missing.foldl (fun t e =>
      let r := polRate s (e.1 / 8) (e.1 % 8)
      Tab.set (0, 0) t e.1 (e.2.1 - 250 * r.1, e.2.2 - 250 * r.2)) [] } }

/-- The written words of a policer take effect: the buckets keep their fill, limited to the new sizes (R577). -/
def polTakeOne (p c : Nat) (s : State) : State :=
  let old := polSize s p c
  let m := polMiss s p c
  let s := { s with plots := { s.plots with polHeld := Tab.set none s.plots.polHeld (8 * p + c) none } }
  let new := polSize s p c
  setMiss p c (new.1 - Nat.min (old.1 - m.1) new.1, new.2 - Nat.min (old.2 - m.2) new.2) s

/-- The frame tick takes every written rate and burst (R577). -/
def polTake (s : State) : State := forEach (s.plots.polHeld.map Prod.fst) (fun k s => polTakeOne (k / 8) (k % 8) s) s

/-- A rate or burst word is written: it waits for the next frame tick, in place of one that waits (R5, R577). -/
def polWrite (p c : Nat) (burst : Bool) (v : Word) (s : State) : State :=
  let s := { s with plots := { s.plots with polHeld := Tab.set none s.plots.polHeld (8 * p + c) (some (polWords s p c)) } }
  s.setReg (if burst then Reg.PQ_POL_BURST p c else Reg.PQ_POL_RATE p c) v

/-- POLICER_UPDATE (R577, R599): a rate (`burst` false) or burst word written to a class policer, in force from the frame tick. -/
def execPolicerUpdate (i : Initiator) (p : Fin 64) (c : Fin 6) (burst : Bool) (v : Word) (s : State) : Host.Outcome State Fault Refusal :=
  run (unlockedFor [1] i (if burst then Reg.PQ_POL_BURST p.val c.val else Reg.PQ_POL_RATE p.val c.val) (polWrite p.val c.val burst v)) s

/-- What the policers decide of a frame of `len` bytes of class `c` (R575, R576): none = red, else whether it is yellow. -/
def police (p c len : Nat) (s : State) : Option Bool × State :=
  let size := polSize s p c
  let m := polMiss s p c
  let colour : Option Bool × State :=
    if polRate s p c = (0, 0) then (some false, s)
    else if size.2 - m.2 < len then (none, s)
    else if size.1 - m.1 < len then (some true, setMiss p c (m.1, m.2 + len) s)
    else (some false, setMiss p c (m.1 + len, m.2 + len) s)
  match colour with
  | (none, s) => (none, s)
  | (some y, s) =>
    if !s.rdB (Fld.PQ_PLOT_STATUS_THROTTLED p) then (some y, s)
    else
      let t := polMiss s p 6
      if 65536 - t.1 < len then (none, s) else (some y, setMiss p 6 (t.1 + len, t.2 + len) s)

/-! ### Paths (R547, R571, R574) -/

/-- The span `k` hops out on the side of a group. -/
def spanAt (s : State) (g k : Nat) : Nat :=
  let n := ringSize s
  if g % 2 = 0 then (nodeNo s + k) % n else (nodeNo s + 2 * n - 1 - k % n) % n

/-- The breaks of a ring that the paths heed: one that this node has entered since the last frame tick counts from the next one (R548). -/
def routeBreaks (s : State) (r : Nat) : List Break :=
  (s.ins r).breaks.filter (fun b => !s.ring.fresh.any (fun f => f.1 / 2 == r && f.2 == b.span))

/-- The paths heed a break of a span. -/
def isBroken (s : State) (r span : Nat) : Bool := (routeBreaks s r).any (fun b => b.span == span)

/-- A group that went down since the last frame tick: the paths still name it, and its frames are lost (R548). -/
def justDown (s : State) (g : Nat) : Bool := s.ring.fresh.any (fun f => f.1 == g)

/-- More than 16 breaks are known (R549). -/
def unusable (s : State) (r : Nat) : Bool := decide (16 < (s.ins r).breaks.length)

/-- Frames of a plot, or management frames, may leave on a group (R547, R574). -/
def groupUsable (s : State) (plot : Option Nat) (g : Nat) : Bool :=
  (groupState s g == 3 || justDown s g) && ringUsed s (g / 2) && !unusable s (g / 2)
    && (match plot with
        | some p => !s.rdB (Fld.PQ_PLOT_CFG_MACSEC p) || s.bit (Fld.PQ_PLOT_STATUS_SA_UP p) g
        | none => true)

/-- The rings that a plot may use (R597): pinned to one, or both. -/
def ringsOf (s : State) (plot : Option Nat) : List Nat :=
  match plot with
  | some p => if s.rd (Fld.PQ_PLOT_CFG_PIN p) = 1 then [0] else if s.rd (Fld.PQ_PLOT_CFG_PIN p) = 2 then [1] else [0, 1]
  | none => [0, 1]

/-- The four paths to node `j` that are usable, as (hops, group), in the order of the ties of R547. -/
def pathsTo (s : State) (plot : Option Nat) (j : Nat) : List (Nat × Nat) :=
  let n := ringSize s
  let east := (j + n - nodeNo s % n) % n
  let all := (ringsOf s plot).flatMap (fun r => [(east, 2 * r), (n - east, 2 * r + 1)])
  all.filter (fun p => groupUsable s plot p.2 && (List.range p.1).all (fun k => !isBroken s (p.2 / 2) (spanAt s p.2 k)))

/-- The usable path with the fewest hops (R547). -/
def pathTo (s : State) (plot : Option Nat) (j : Nat) : Option (Nat × Nat) :=
  (pathsTo s plot j).foldl (fun b p => match b with | none => some p | some q => if p.1 < q.1 then some p else some q) none

/-- The ring on which a plot's frames are flooded (R571): one with at most one break, ring A first; with none, the first that is usable (DESIGN
CHOICE, assumption 125). -/
def floodRing (s : State) (plot : Option Nat) : Option Nat :=
  let l := (ringsOf s plot).filter (fun r => ringUsed s r && !unusable s r)
  match l.find? (fun r => decide ((routeBreaks s r).length ≤ 1)) with
  | some r => some r
  | none => l.head?

/-- Hops up to the first break on the side of a group, at most `n`. -/
def hopsFree (s : State) (g n : Nat) : Nat :=
  ((List.range n).find? (fun k => isBroken s (g / 2) (spanAt s g k))).getD n

/-- The ring copies of a flooded frame: group and HOPS_LEFT (R571). -/
def floodCopies (s : State) (plot : Option Nat) : List (Nat × Nat) :=
  match floodRing s plot with
  | none => []
  | some r =>
    let e := ringSize s / 2
    [(2 * r, hopsFree s (2 * r) e), (2 * r + 1, hopsFree s (2 * r + 1) (ringSize s - 1 - e))].filter
      (fun c => decide (0 < c.2) && groupUsable s plot c.1)

/-! ### Frames (R567 to R571) -/

/-- The tenant ports of plot `p`. -/
def plotPorts (s : State) (p : Nat) : List Nat :=
  (portsOn s).filter (fun l => decide (s.rd (Fld.PQ_PORT_MAP_ROLE l) = 1 ∧ s.rd (Fld.PQ_PORT_MAP_PLOT l) = p))

/-- The copies of a frame of plot `p` for a lookup result, where it enters the ring here (R570, R571). -/
def originCopies (s : State) (p inp : Nat) (r : Option FdbEntry) (group : Bool) : List (Nat × Option RingTag) × Bool :=
  let flood := ((plotPorts s p).filter (· ≠ inp)).map (fun l => (l, none))
    ++ (floodCopies s (some p)).map (fun c => (groupPort c.1, some { dst := 0x3FF, src := nodeNo s, hops := c.2 }))
  match (if group then none else r) with
  | none => (flood, true)
  | some e =>
    if e.type = 2 then ([], false)
    else if e.type = 1 then
      (match pathTo s (some p) e.node with
        | some (h, g) => [(groupPort g, some { dst := e.node, src := nodeNo s, hops := h })]
        | none => [], false)
    else (if (plotPorts s p).contains e.port then [(e.port, none)] else [], false)

/-- The copies that a frame delivered at this node makes (R570, item 3). -/
def deliverCopies (s : State) (p : Nat) (r : Option FdbEntry) : List (Nat × Option RingTag) :=
  match r with
  | some e => if e.type = 0 ∧ (plotPorts s p).contains e.port = true then [(e.port, none)] else (plotPorts s p).map (fun l => (l, none))
  | none => (plotPorts s p).map (fun l => (l, none))

/-- The group bit of a MAC address: bit 0 of its first byte, byte 0 being bits 47:40. -/
def groupMac (da : Nat) : Bool := da.testBit 40

/-- The class of a frame at a tenant port (R568). -/
def classOf (s : State) (l : Nat) (tag : Option Nat) : Nat :=
  Nat.min 5 (match tag with
    | some pcp => s.rd (Fld.PQ_PORT_PCP_PCP_MAP l) / 2 ^ (3 * pcp) % 8
    | none => s.rd (Fld.PQ_PORT_MAP_DEF_CLASS l))

/-- A frame of a quenched plot is discarded and counted (R594). -/
def quenchDrop (p inp : Nat) (s : State) : State := dropRx inp (s.inc (Fld.PQ_PLOT_DROP2_QUENCH_DROP p))

/-- A frame of plot `p` at its port `l`, of a length that is accepted (R568 to R577). -/
def tenantFrame (l p : Nat) (tag : Option Nat) (da sa len : Nat) (s : State) : State :=
  if !s.rdB (Fld.PQ_PLOT_CFG_EN p) then dropRx l s
  else if s.rdB (Fld.PQ_PLOT_STATUS_QUENCHED p) then quenchDrop p l s
  else
    let c := classOf s l tag
    match police p c len s with
    | (none, s) => countEv 0x015 p 1 (dropRx l (s.inc (Fld.PQ_PLOT_DROP_RED_DROP p)))
    | (some y, s) =>
      let s := when y (countEv 0x014 p 1) s
      let s := fdbLearn p sa 0 0 l s
      let (r, s) := fdbLookup p da (l / 32) s
      let (copies, flooded) := originCopies s p l r (groupMac da)
      let s := when flooded (countEv 0x011 p 1) s
      if copies.isEmpty then dropRx l s
      else
        let lost := copies.filter (fun d => d.2.isSome && justDown s (d.1 / 16))
        intake l { plot := some p, cls := c, yellow := y, da := da, sa := sa, len := len } (copies.filter (fun d => !lost.contains d))
          (forEach (lost.map Prod.fst) dropTx s)

/-- TENANT_FRAME (R567 to R572): a frame received whole at an access port: PCP of its outermost tag, DA, SA, and its length from DA to FCS.
A management port's frames go to the application cores. -/
def execTenantFrame (l : Fin 128) (tag : Option (BitVec 3)) (da sa : BitVec 48) (len : Nat) (s : State) : Host.Outcome State Fault Refusal :=
  run (fun s =>
    if s.ring.forwarding && portUp s l.val && !s.rdB (Fld.RG_PORT_CFG_RING l.val) then
      let s := countRx l.val len s
      let role := s.rd (Fld.PQ_PORT_MAP_ROLE l.val)
      if s.rdB (Fld.PQ_PORT_MAP_SHUT l.val) || role == 0 || role == 3 || decide (len < 64 ∨ 9174 < len ∨ s.rd (Fld.RG_PORT_CFG_MTU l.val) < len) then
        dropRx l.val s
      else if role = 2 then s.send (.host { plot := none, cls := 6, yellow := false, da := da.toNat, sa := sa.toNat, len := len })
      else tenantFrame l.val (s.rd (Fld.PQ_PORT_MAP_PLOT l.val)) (tag.map BitVec.toNat) da.toNat sa.toNat len s
    else s) s

/-- The group on which a frame received on group `g` travels on. -/
def onward (g : Nat) : Nat := 2 * (g / 2) + (1 - g % 2)

/-- The transit copy of a frame received on group `g` (R570, R571): HOPS_LEFT falls by one; at 0, or with no group to go on, none. A group in a drowse
that is agreed carries frames until Q (R555). -/
def transitCopy (s : State) (g : Nat) (tag : RingTag) : List (Nat × Option RingTag) :=
  if tag.hops ≤ 1 ∨ ¬(groupState s (onward g) = 3 ∨ groupState s (onward g) = 5) then [] else [(groupPort (onward g), some { tag with hops := tag.hops - 1 })]

/-- A ring frame of plot `p` (R570 to R572). -/
def ringPlotFrame (g p : Nat) (tag : RingTag) (f : Frame) (s : State) : State :=
  if !s.rdB (Fld.PQ_PLOT_CFG_EN p) then dropRx (groupPort g) s
  else if s.rdB (Fld.PQ_PLOT_STATUS_QUENCHED p) then quenchDrop p (groupPort g) s
  else
    let here := decide (tag.dst = nodeNo s ∨ tag.dst = 0x3FF)
    let s := when here (fdbLearn p f.sa 1 tag.src 0) s
    let (r, s) := if tag.dst = nodeNo s then fdbLookup p f.da (g / 2) s else (none, s)
    let local' := if tag.dst = nodeNo s then deliverCopies s p r
      else if tag.dst = 0x3FF then (plotPorts s p).map (fun l => (l, none)) else []
    let go := if tag.dst = nodeNo s then [] else transitCopy s g tag
    if (local' ++ go).isEmpty then (if tag.dst = 0x3FF then s else dropRx (groupPort g) s)
    else intake (groupPort g) f (local' ++ go) s

/-- A management frame on the ring: delivered to the application cores of its node, and sent on like a plot's frame. -/
def ringMgmtFrame (g : Nat) (tag : RingTag) (f : Frame) (s : State) : State :=
  let s := when (decide (tag.dst = nodeNo s ∨ tag.dst = 0x3FF)) (fun s => s.send (.host f)) s
  if tag.dst = nodeNo s then s
  else
    let go := transitCopy s g tag
    if go.isEmpty then (if tag.dst = 0x3FF then s else dropRx (groupPort g) s) else intake (groupPort g) f go s

/-- RING_FRAME (R566, R569 to R573): a frame received on a ring port group: VID, PCP and DEI of its S-tag, its ring tag, whether its SecY
validates it, its addresses, its length on the access side, and the fragments it was cut into besides the last. -/
def execRingFrame (g : Fin 4) (vid : BitVec 12) (pcp : BitVec 3) (dei : Bool) (dst src hops : BitVec 10) (secOk : Bool) (da sa : BitVec 48)
    (len frags : Nat) (s : State) : Host.Outcome State Fault Refusal :=
  run (fun s =>
    if s.ring.forwarding && (groupState s g.val == 3 || groupState s g.val == 5) then
      let s := (countRx (groupPort g.val) (len + 42) s).bump (Reg.PCN_RX_FRAGS_LO (groupPort g.val)) frags
      let tag : RingTag := { dst := dst.toNat, src := src.toNat, hops := hops.toNat }
      let v := vid.toNat
      let plot := if v = 0x0FF then none else some (v - 0x100)
      let known := v == 0x0FF || decide (0x100 ≤ v ∧ v < 0x140)
      let sec := match plot with | some p => s.rdB (Fld.PQ_PLOT_CFG_MACSEC p) | none => true
      if !known || decide (len + 42 < 64 ∨ 9216 < len + 42) then dropRx (groupPort g.val) s
      else if sec && !secOk then countEv 0x016 g.val 1 (dropRx (groupPort g.val) s)
      else match plot with
        | some p => ringPlotFrame g.val p tag { plot := some p, cls := Nat.min 5 pcp.toNat, yellow := dei, da := da.toNat, sa := sa.toNat, len := len } s
        | none => ringMgmtFrame g.val tag { plot := none, cls := 6, yellow := false, da := da.toNat, sa := sa.toNat, len := len } s
    else s) s

/-- SA_STATE_CHANGE (R574, R596): the SA of a plot (64 = management) on a group comes into use or goes; a plot that loses it loses the
paths that begin there, and the sessions that came over the management SecY of the group close (R616). -/
def execSaStateChange (plot : Fin 65) (g : Fin 4) (up : Bool) (s : State) : Host.Outcome State Fault Refusal :=
  run (fun s =>
    let was := plot.val = 64 ∨ s.bit (Fld.PQ_PLOT_STATUS_SA_UP plot.val) g.val = true
    let s := when (decide (plot.val < 64)) (fun s => s.wrBit (Fld.PQ_PLOT_STATUS_SA_UP plot.val) g.val up) s
    let s := when (!up && decide was) (fun s => s.logEv 0x21 0x0007 (Nat.min plot.val 63 + 256 * g.val)) s
    when (!up && plot.val == 64) (transportLost 1 (groupPort g.val)) s) s

/-! ### The plot commands' effect (R594, R595) -/

/-- A plot's quench and throttle go; its policers restart full (R594). One log entry tells of it (DESIGN CHOICE, assumption 121). -/
def plotRelease (p : Nat) (s : State) : State :=
  let s := (s.wr (Fld.PQ_PLOT_STATUS_QUENCHED p) 0).wr (Fld.PQ_PLOT_STATUS_THROTTLED p) 0
  let s := (s.setReg (Reg.PQ_POL_RATE p 6) 0#32).setReg (Reg.PQ_POL_BURST p 6) 0#32
  (polFull p s).logEv 0x21 0x0001 (p + 256)

/-- The throttle of a plot runs at R, or is removed at R = 0 (R594, R599); without one CBS and PBS read 0 (DESIGN CHOICE, assumption 122). -/
def plotThrottle (p r : Nat) (s : State) : State :=
  let s := s.wrB (Fld.PQ_PLOT_STATUS_THROTTLED p) (decide (0 < r))
  let b := if r = 0 then 0 else 64
  let s := (s.wr (Fld.PQ_POL_RATE_PIR p 6) r).wr (Fld.PQ_POL_RATE_CIR p 6) r
  let s := (s.wr (Fld.PQ_POL_BURST_PBS p 6) b).wr (Fld.PQ_POL_BURST_CBS p 6) b
  (setMiss p 6 (0, 0) s).logEv 0x21 0x0002 (p + r % 65536 * 65536)

/-- One plot command, by the low byte of its opcode (R593, R594). -/
def plotCommand (c : PlotCmd) (s : State) : State :=
  match c.sop with
  | 0x70 => (s.wr (Fld.PQ_PLOT_STATUS_QUENCHED c.arg0) 1).logEv 0x21 0x0001 c.arg0
  | 0x71 => plotThrottle c.arg0 c.arg1 s
  | 0x72 => plotRelease c.arg0 s
  | 0x73 => (s.wr (Fld.PQ_PORT_MAP_SHUT c.arg0) 1).logEv 0x21 0x0003 c.arg0
  | 0x74 => (s.wr (Fld.PQ_PORT_MAP_SHUT c.arg0) 0).logEv 0x21 0x0003 (c.arg0 + 256)
  | _ => s

/-- The commands that wait take effect: a quench wins over a release and over a throttle of its plot (R595). -/
def plotCommandsTake (s : State) : State :=
  let l := s.ctl.plotDue
  let wins := fun (c : PlotCmd) => (c.sop == 0x71 || c.sop == 0x72) && l.any (fun d => d.sop == 0x70 && d.arg0 == c.arg0)
  (l.filter (fun c => !wins c)).foldl (fun s c => plotCommand c s) { s with ctl := { s.ctl with plotDue := [] } }

/-- The frame tick at which the commands that have arrived take effect (R38). -/
def plotDueFrame (s : State) : State := { s with ctl := { s.ctl with plotDue := s.ctl.plotDue ++ s.ctl.plotCmds, plotCmds := [] } }

/-- PLOT_COMMAND_EFFECT (R38, R594): the commands that had arrived by this frame's tick take effect at it. -/
def execPlotCommandEffect (s : State) : Host.Outcome State Fault Refusal :=
  run (fun s => if s.ring.forwarding then plotCommandsTake s else s) s

/-! ### The frame tick (R37, R545, R591) -/

/-- Bit g: the lanes of group g, in a ring that is IN, are not all aligned. -/
def laneVoid (s : State) : Nat :=
  [0, 1, 2, 3].foldl (fun m g => if insState s (g / 2) = 4 ∧ (portLanes s (groupPort g)).all (fun l => s.rd (Fld.RG_LANE_STATUS_STATE l) == 2) = false
    then m + 2 ^ g else m) 0

/-- Bit g: more than 320 class-7 frames came in on group g in the frame. -/
def rxVoid (s : State) : Nat := [0, 1, 2, 3].foldl (fun m g => if 320 < (s.cq g).rx then m + 2 ^ g else m) 0

/-- The frame ends for the control class: deferred cells are logged, a void bound is recorded, at most once a second in the log, and
the slots begin anew (R37, R545, R590, R591). -/
def ctlFrame (s : State) : State :=
  let s := plotDueFrame s
  if !s.ring.forwarding then s else
  let n := deferred s
  let s := if n = 0 then s else s.logEv 0x20 0x000D n
  let lv := laneVoid s
  let rv := rxVoid s
  let s := if lv = 0 ∧ rv = 0 then s
    else
      let s := ((s.wr Fld.SCHED_STATUS_CTRL_BOUND_VOID 1).wr Fld.PQ_CTL_STATUS_LANE_VOID lv).wr Fld.PQ_CTL_STATUS_RX_VOID rv
      let due := match s.ctl.voidAt with | some t => decide (50000 ≤ fnDiff s.fn t) | none => true
      if due then { s with ctl := { s.ctl with voidAt := some s.fn } }.logEv 0x21 0x0008 (lv + 16 * rv) else s
  forEach [0, 1, 2, 3] (fun g s => s.setCq g { s.cq g with slots := 0, rx := 0 }) s

/-- What plots and ports do in a frame tick. -/
def plotsFrame (s : State) : State :=
  if !s.ring.forwarding then polTake s else forEach (portsOn s) portFrame (polTake (polFrame s))

end Sys2Proof.Machine
end

