-- ==== Sys2Proof/Machine/Counter.lean ====
section
/-!
DEFINITION. Machine/Counter.lean: the performance counters (R643 to R654, R664 to R670 of
spec/21_counters_and_observation.md): selection and presets, reads, overflows, bandwidth windows, snapshots and freezes.
-/
namespace Sys2Proof.Machine

/-! ### Selectable counters (R647 to R650) -/

/-- The largest QUAL of an event, none for an event that is not listed (R647). -/
def qualMax (e : Nat) : Option Nat :=
  if e = 0x010 then some 3
  else if 0x011 ≤ e ∧ e ≤ 0x015 then some 63
  else if 0x016 ≤ e ∧ e ≤ 0x018 then some 3
  else if (0x040 ≤ e ∧ e ≤ 0x044) ∨ e = 0x07E ∨ e = 0x07F then some 3
  else if 0x080 ≤ e ∧ e ≤ 0x082 then some 39
  else if e = 0x083 ∨ e = 0x084 then some 95
  else if 0x085 ≤ e ∧ e ≤ 0x087 then some 71
  else if e = 0x088 then some 8
  else if e = 0x0C0 then some 4
  else if e = 0x0D0 then some 15
  else none

/-- The event counts speculative work (R650). -/
def speculative (e : Nat) : Bool := e == 0x07E || e == 0x07F

/-- Whether an initiator may select and see the speculative events (R650): the firmware and role SERVICE. -/
def seesSpeculation (s : State) (i : Initiator) : Bool :=
  match i with | .core => false | .fw => true | .session _ => sessionOf [3] s i

/-- A write of PC_SEL_c (R647, R650): an event or unit outside the list changes nothing; the counter keeps its value. -/
def pcSelWrite (i : Initiator) (c : Nat) (v : Word) (s : State) : State :=
  let e := v.toNat / 256 % 1024
  let ok := match qualMax e with | some m => decide (v.toNat % 256 ≤ m) | none => false
  if speculative e && !seesSpeculation s i then s.answerSt .denied
  else if !ok then s.answerSt .badArg
  else
    let s := s.setReg (Reg.PC_SEL c) (v &&& 0xC003FFFF#32)
    let on := s.perf.on.filter (· ≠ c)
    { s with perf := { s.perf with on := if v.getLsbD 31 then on ++ [c] else on } }

/-- PC_SEL_WRITE (R647). -/
def execPcSelWrite (i : Initiator) (c : Fin 64) (v : Word) (s : State) : Host.Outcome State Fault Refusal :=
  run (writeAdmitted i (Reg.PC_SEL c.val) (pcSelWrite i c.val v)) s

/-- A write of CNT_LO is held until CNT_HI is written (R648). -/
def cntLoWrite (c : Nat) (v : Word) (s : State) : State :=
  { s with perf := { s.perf with loHeld := Tab.set none s.perf.loHeld c (some v) } }

/-- CNT_LO_WRITE (R648). -/
def execCntLoWrite (i : Initiator) (c : Fin 64) (v : Word) (s : State) : Host.Outcome State Fault Refusal :=
  run (writeAdmitted i (Reg.PC_CNT_LO c.val) (cntLoWrite c.val v)) s

/-- A write of CNT_HI presets the counter, together with the held CNT_LO if one is held (R648). -/
def cntHiWrite (c : Nat) (v : Word) (s : State) : State :=
  if 65536 ≤ v.toNat then s.answerSt .badArg
  else
    let lo := match Tab.get none s.perf.loHeld c with
      | some w => w.toNat
      | none => s.wide (Reg.PC_CNT_LO c) % 2 ^ 32
    let s := s.setWide (Reg.PC_CNT_LO c) (v.toNat * 2 ^ 32 + lo)
    { s with perf := { s.perf with loHeld := Tab.set none s.perf.loHeld c none } }

/-- CNT_HI_WRITE (R648). -/
def execCntHiWrite (i : Initiator) (c : Fin 64) (v : Word) (s : State) : Host.Outcome State Fault Refusal :=
  run (writeAdmitted i (Reg.PC_CNT_HI c.val) (cntHiWrite c.val v)) s

/-! ### Reads (R643, R650) -/

/-- The selectable counter whose LO word, or its copy in the snapshot window, lies at an address. -/
def selCounterAt (a : Nat) : Option Nat :=
  let o := a % 0x10000
  if 0x5000 ≤ o ∧ o < 0x5400 ∧ o % 16 = 4 then some ((o - 0x5000) / 16) else none

/-- An address is the LO word of a 64-bit counter: a port counter, a loop engine counter or a selectable one, or its copy. -/
def isCounterLo (a : Nat) : Bool :=
  let o := a % 0x10000
  decide (0x700000 ≤ a ∧ a < 0x720000) &&
    (decide (o < 0x2000 ∧ o % 8 = 0) || decide (0x4000 ≤ o ∧ o ≤ 0x4020 ∧ o % 8 = 0) || (selCounterAt a).isSome)

/-- The lane of a register that belongs to a port (R560, R600, R664): RG_PORT, PQ_PORT, the port counters and their copies. -/
def portLaneAt (a : Nat) : Option Nat :=
  if 0x410000 ≤ a ∧ a < 0x410800 then some ((a - 0x410000) / 0x10)
  else if 0x504000 ≤ a ∧ a < 0x504800 then some ((a - 0x504000) / 0x10)
  else if 0x700000 ≤ a ∧ a < 0x702000 then some ((a - 0x700000) / 0x40)
  else if 0x710000 ≤ a ∧ a < 0x712000 then some ((a - 0x710000) / 0x40)
  else none

/-- A register of a port at a lane that is the first lane of no used port reads zero (R560, R600, R664). -/
def noPort (s : State) (a : Nat) : Bool := (portLaneAt a).any (fun p => !s.rdB (Fld.RG_PORT_CFG_EN p))

/-- What an initiator sees of the counter at an address: one that holds a speculative event reads 0 to others (R650), one of no port 0 (R664). -/
def counterSeen (i : Initiator) (a : Nat) (s : State) : Nat :=
  if noPort s a then 0 else match selCounterAt a with
  | some c => if speculative (s.rd (Fld.PC_SEL_EVENT c)) && !seesSpeculation s i then 0 else s.wide a
  | none => s.wide a

/-- The HI word of a selectable counter, or of its copy, that holds a speculative event: it reads 0 to those who may not see it (R650); one of no
port reads 0 to all (R664). -/
def hiddenHi (i : Initiator) (a : Nat) (s : State) : Bool :=
  (decide (0x700000 ≤ a) && noPort s a) || match selCounterAt (a - 4) with
  | some c => decide (0x700000 ≤ a ∧ a < 0x720000) && speculative (s.rd (Fld.PC_SEL_EVENT c)) && !seesSpeculation s i
  | none => false

/-- A read of a LO word latches its HI word (R643). -/
def counterLoRead (i : Initiator) (a : Nat) (s : State) : State := latchRead a (a + 4) (counterSeen i a s) s

/-- COUNTER_LO_READ (R643): `ofs` is the offset of the LO word in the counter block. -/
def execCounterLoRead (i : Initiator) (ofs : BitVec 17) (s : State) : Host.Outcome State Fault Refusal :=
  run (fun s => if isCounterLo (0x700000 + ofs.toNat) then
      readAdmitted i (0x700000 + ofs.toNat) (counterLoRead i (0x700000 + ofs.toNat)) s else s) s

/-- A counter has passed 2^48: its bit is set, and the firmware is interrupted if OVF_EN asks for it (R649). -/
def counterOvf (c : Nat) (s : State) : State :=
  if s.perf.passed.contains c then
    let s := { s with perf := { s.perf with passed := s.perf.passed.filter (· ≠ c) } }
    let s := s.wrMapBit Fld.PC_OVF c true
    when (s.rdB (Fld.PC_SEL_OVF_EN c)) (fun s => s.send (.fwIrq 0x22 c)) s
  else s

/-- COUNTER_OVF (R649). -/
def execCounterOvf (c : Fin 64) (s : State) : Host.Outcome State Fault Refusal := run (counterOvf c.val) s

/-! ### Bandwidth windows (R651) -/

/-- A bandwidth record at rest. -/
def restBw : BwPort := { winAt := 0, subAt := 0, lo := none, hi := 0 }

/-- The bytes of port `k / 2` received (`k` even) or sent (`k` odd). -/
def bwBytes (s : State) (k : Nat) : Nat :=
  s.wide (if k % 2 = 0 then Reg.PCN_RX_BYTES_LO (k / 2) else Reg.PCN_TX_BYTES_LO (k / 2))

/-- Bytes counted between two readings, modulo 2^64. -/
def bytesSince (now was : Nat) : Nat := (now + 2 ^ 64 - was) % 2 ^ 64

/-- The records of the used ports and both directions. -/
def bwKeys (s : State) : List Nat := (portsOn s).flatMap (fun p => [2 * p, 2 * p + 1])

/-- Every record starts a window here. -/
def bwRestart (s : State) : State :=
  forEach (bwKeys s) (fun k s => { s with perf := { s.perf with
    bw := Tab.set restBw s.perf.bw k { winAt := bwBytes s k, subAt := bwBytes s k, lo := none, hi := 0 } } }) s

/-- A sub-interval of 5 frames ends: the lowest and highest so far. -/
def bwSub (s : State) : State :=
  forEach (bwKeys s) (fun k s =>
    let r := Tab.get restBw s.perf.bw k
    let n := bytesSince (bwBytes s k) r.subAt
    let lo := match r.lo with | some m => Nat.min m n | none => n
    { s with perf := { s.perf with bw := Tab.set restBw s.perf.bw k { r with subAt := bwBytes s k, lo := some lo, hi := Nat.max r.hi n } } }) s

/-- W in ms; a value outside 1 to 10,000 acts as the nearest in range (DESIGN CHOICE, assumption 41). -/
def bwWindow (s : State) : Nat := Nat.max 1 (Nat.min 10000 (s.rd Fld.PC_BW_CFG_BW_WIN))

/-- A complete window of `w` ms is latched: the rates are in Mbit/s, rounded (R651). -/
def bwLatch (w : Nat) (s : State) : State :=
  let s := forEach (bwKeys s) (fun k s =>
    let r := Tab.get restBw s.perf.bw k
    let rate := fun n => Nat.min (roundDiv (n * 8) 100).toNat (2 ^ 32 - 1)
    let mean := Nat.min (roundDiv (bytesSince r.subAt r.winAt * 8) (1000 * w)).toNat (2 ^ 32 - 1)
    let p := k / 2
    if k % 2 = 0 then ((s.wr (Fld.BW_RX_MIN p) (rate (r.lo.getD 0))).wr (Fld.BW_RX_MAX p) (rate r.hi)).wr (Fld.BW_RX_MEAN p) mean
    else ((s.wr (Fld.BW_TX_MIN p) (rate (r.lo.getD 0))).wr (Fld.BW_TX_MAX p) (rate r.hi)).wr (Fld.BW_TX_MEAN p) mean) s
  s.wr Fld.PC_STATUS_BW_VALID 1

/-- Every record starts a window at the bytes of its last sub-interval's end, which are those of the cycle before the tick cycle (R651). -/
def bwNext (s : State) : State :=
  forEach (bwKeys s) (fun k s =>
    let r := Tab.get restBw s.perf.bw k
    { s with perf := { s.perf with bw := Tab.set restBw s.perf.bw k { r with winAt := r.subAt, lo := none, hi := 0 } } }) s

/-- The end of a bandwidth window, and the start of the next (R651): nothing is latched of a window that began late. -/
def bwWindowEnd (s : State) : State :=
  if s.perf.ended.isSome then
    let s := when s.perf.whole (bwLatch s.perf.win) s
    bwNext { s with perf := { s.perf with whole := true, ended := none } }
  else s

/-- BW_WINDOW_END (R651). -/
def execBwWindowEnd (s : State) : Host.Outcome State Fault Refusal := run bwWindowEnd s

/-! ### Snapshot and freeze (R652 to R654) -/

/-- The F that PC_AT holds. -/
def snapF (s : State) : Nat := s.rd64 Fld.PC_AT_LO Fld.PC_AT_HI

/-- F lies 1 to 2^47 - 1 frames ahead (R652). -/
def snapInRange (s : State) : Bool := fnLater (snapF s) s.fn

/-- A command of PC_CTRL waits in CMD for the next frame tick, in place of one that waits already (R652, R668); an F of SNAP_AT that is out of
range is refused. -/
def counterCommand (cmd : Nat) (s : State) : State :=
  if cmd = 2 ∧ snapInRange s = false then s.answerSt .badArg else s.wr Fld.PC_CTRL_CMD cmd

/-- SNAP_NEXT (R652). -/
def execSnapNext (i : Initiator) (s : State) : Host.Outcome State Fault Refusal :=
  run (writeAdmitted i Reg.PC_CTRL (counterCommand 1)) s

/-- SNAP_AT (R652). -/
def execSnapAt (i : Initiator) (s : State) : Host.Outcome State Fault Refusal :=
  run (writeAdmitted i Reg.PC_CTRL (counterCommand 2)) s

/-- FREEZE (R654). -/
def execFreeze (i : Initiator) (s : State) : Host.Outcome State Fault Refusal :=
  run (writeAdmitted i Reg.PC_CTRL (counterCommand 3)) s

/-- UNFREEZE (R654). -/
def execUnfreeze (i : Initiator) (s : State) : Host.Outcome State Fault Refusal :=
  run (writeAdmitted i Reg.PC_CTRL (counterCommand 4)) s

/-- A counter of the control die: the loop engine's, and a selectable one that counts a control-die event (R653). -/
def controlCounter (s : State) (a : Nat) : Bool :=
  decide (0x704000 ≤ a ∧ a < 0x705000) ||
    (decide (0x705000 ≤ a ∧ a < 0x705400) && (let e := s.rd (Fld.PC_SEL_EVENT ((a - 0x705000) / 16)); decide (0x080 ≤ e ∧ e ≤ 0x088)))

/-- A register whose value a snapshot copies (R653, R670). -/
def snapped (a : Nat) : Bool :=
  decide (0x700000 ≤ a ∧ a < 0x702000) || decide (0x704000 ≤ a ∧ a < 0x704050) || (decide (a < 0x710000) && (selCounterAt a).isSome)

/-- A snapshot takes the counters (R22, R39, R653): nothing of the frame that begins is in it. LE_MAX_s begin anew where they are taken
(R645). -/
def snapTake (s : State) : State :=
  let h : Held := { frame := s.fn, part := !s.rdB Fld.SCHED_CFG_TICK_RUN, wide := Tab.keep snapped s.perf.wide,
                    le := [0, 1, 2, 3].map (fun st => (s.reg (Reg.LE_MAX st), s.reg (Reg.LE_OVR st))) }
  let s := if h.part then s else forEach [0, 1, 2, 3] (fun st s => s.wr (Fld.LE_MAX st) 0) s
  { s with perf := { s.perf with snapAt := none, held := some h } }

/-- The snapshot window shows the snapshot taken (R653): with no ticks on the control die its counters keep their previous copies. -/
def snapShow (h : Held) (s : State) : State :=
  let copied := fun a => snapped a && !(h.part && controlCounter s a)
  let s := { s with perf := { s.perf with
    held := none,
    wide := Tab.keep (fun a => !(decide (0x710000 ≤ a ∧ a < 0x720000) && copied (a - 0x10000))) s.perf.wide } }
  let s := forEach ((h.wide.map Prod.fst).filter copied) (fun a s => s.setWide (a + 0x10000) (Tab.get 0 h.wide a)) s
  let s := if h.part then s.wr Fld.PC_STATUS_SNAP_PART 1 else
    forEach [0, 1, 2, 3] (fun st s =>
      let w := (h.le[st]?).getD (0#32, 0#32)
      (s.setReg (Reg.LE_MAX st + 0x10000) w.1).setReg (Reg.LE_OVR st + 0x10000) w.2) s
  (s.wr64 Fld.PC_SNAP_FN_LO Fld.PC_SNAP_FN_HI h.frame).wr Fld.PC_STATUS_SNAP_DONE 1

/-- The snapshot of this frame's tick cycle reaches the window; one whose frame a step of the frame number has reached after its tick is taken
here (R652, R653). -/
def snapshotDue (s : State) : State :=
  let s := when (s.perf.held.isNone && decide (s.perf.snapAt = some s.fn)) snapTake s
  match s.perf.held with | some h => snapShow h s | none => s

/-- SNAPSHOT (R653). -/
def execSnapshot (s : State) : Host.Outcome State Fault Refusal := run snapshotDue s

/-- SNAP_MISSED (R652, R663). -/
def snapMiss (f : Nat) (s : State) : State :=
  ({ s with perf := { s.perf with snapAt := none } }.wr Fld.PC_STATUS_SNAP_MISSED 1).logEv 0x22 0x0005 (f % 2 ^ 32)

/-- A forward step over F discards the snapshot (R652, R663). -/
def snapMissed (s : State) : State :=
  match s.perf.snapAt with
  | some f =>
    if fnLater f s.fn then s
    else if f = s.fn then s
    else snapMiss f s
  | none => s

/-! ### Each frame -/

/-- The events of the application cores that a counter counts have no rule that gives their number: each enabled counter
adds a free number of them (R647). -/
def coreEvents (s : State) : State :=
  if s.rdB Fld.PC_STATUS_FROZEN then s
  else forEach s.perf.on (fun c s =>
    let e := s.rd (Fld.PC_SEL_EVENT c)
    if (0x040 ≤ e ∧ e ≤ 0x044) ∨ speculative e = true then countSel c s.free.1 s.free.2 else s) s

/-- The frame tick takes the command that waits in PC_CTRL; a snapshot that falls at it is made before a freeze (R652, R654). -/
def counterTake (s : State) : State :=
  let cmd := s.rd Fld.PC_CTRL_CMD
  let f := snapF s
  let s := s.wr Fld.PC_CTRL_CMD 0
  let s := match cmd with
    | 1 => { s with perf := { s.perf with snapAt := some s.fn } }
    | 2 => if fnLater f s.fn || f == s.fn then { s with perf := { s.perf with snapAt := some f } } else snapMiss f s
    | _ => s
  let s := when (decide (s.perf.snapAt = some s.fn)) snapTake s
  if cmd = 3 then s.wr Fld.PC_STATUS_FROZEN 1 else if cmd = 4 then s.wr Fld.PC_STATUS_FROZEN 0 else s

/-- What the counters do at a frame tick: each enabled counter of core events has counted on; a snapshot that its window does not show yet
reaches it, and the command that waits is taken (R652 to R654); a change of BW_WIN discards the running window (R651); sub-intervals end every
5 frames, and a window at its own frames. -/
def perfFrame (s : State) : State :=
  let s := bwWindowEnd (coreEvents s)
  let s := counterTake (match s.perf.held with | some h => snapShow h s | none => s)
  let s := if s.perf.win = bwWindow s then s
    else bwRestart ({ s with perf := { s.perf with win := bwWindow s, whole := false } }.wr Fld.PC_STATUS_BW_VALID 0)
  let s := if s.fn % 5 = 0 then bwSub s else s
  if s.fn % (50 * bwWindow s) = 0 then { s with perf := { s.perf with ended := some s.fn } } else s


end Sys2Proof.Machine
end

