-- ==== Sys2Proof/Machine/Loop.lean ====
section
/-!
DEFINITION. Machine/Loop.lean: the loop engine (spec/09_loop_engine.md): steps and their readiness, sources, the slot
computation, operators, stale feedback, the double-banked parameters and swaps.
-/
namespace Sys2Proof.Machine

/-! ### Banks and hidden state (R300) -/

/-- The slots and the operator instances. -/
def slots : List Nat := List.range 96
/-- The operator instances. -/
def instances : List Nat := List.range 128

/-- A slot at rest. -/
def restSlot : LoopSlot := { rPrev := 0, rInit := false, rearm := false, sp := 0#32, prevOut := 0#32 }

/-- The hidden part of slot `n`. -/
def State.slot (s : State) (n : Nat) : LoopSlot := Tab.get restSlot s.loop.slots n

/-- Stores the hidden part of slot `n`. -/
def State.setSlot (s : State) (n : Nat) (q : LoopSlot) : State :=
  { s with loop := { s.loop with slots := Tab.set restSlot s.loop.slots n q } }

/-- The word of bank `b` at a window offset. -/
def State.bankWord (s : State) (b o : Nat) : Word := Tab.get 0#32 (if b = 0 then s.loop.bank0 else s.loop.bank1) o

/-- Bank `b` with a word written. -/
def State.setBankWord (s : State) (b o : Nat) (w : Word) : State :=
  if b = 0 then { s with loop := { s.loop with bank0 := Tab.set 0#32 s.loop.bank0 o w } }
  else { s with loop := { s.loop with bank1 := Tab.set 0#32 s.loop.bank1 o w } }

/-- How many of the parameter words of an operator TYPE are used (R322). -/
def paramWords (type : Nat) : Nat := match type with | 2 => 1 | 3 => 1 | 4 => 3 | 5 => 3 | 6 => 3 | _ => 0

/-- The words of a bank's window that are reserved: the parameter words that the TYPE of their instance leaves unused (R4, R322). -/
def rsvdWord (s : State) (o : Nat) : Bool :=
  decide (0x2000 ≤ o ∧ o < 0x3000) && decide (paramWords (s.rd (Fld.OP_CTL_TYPE ((o - 0x2000) / 0x20))) ≤ (o - 0x2000) % 0x20 / 4)

/-- The word of bank `b` at a window offset as a read shows it (R4, R320 to R323). -/
def bankShown (s : State) (b o : Nat) : Word := if rsvdWord s o then 0#32 else s.bankWord b o

/-- The active bank's word at a window offset. -/
def State.act (s : State) (o : Nat) : Word := s.bankWord (s.rd Fld.LE_STATUS_ACT_BANK) o

/-- The number of the inactive bank. -/
def inactive (s : State) : Nat := 1 - s.rd Fld.LE_STATUS_ACT_BANK

/-- The window word that an address of the register space names: its bank and offset, in the inactive window at 0x1_0000
or the active one at 0x2_0000 (R300, R320 to R323). -/
def bankWindow (s : State) (a : Nat) : Option (Nat × Nat) :=
  if 0x150000 ≤ a ∧ a < 0x158000 then some (inactive s, a - 0x150000)
  else if 0x160000 ≤ a ∧ a < 0x168000 then some (s.rd Fld.LE_STATUS_ACT_BANK, a - 0x160000)
  else none

/-- The states of section `k`. -/
def State.sec (s : State) (k : Nat) : Int × Int := Tab.get (0, 0) s.loop.sec k

/-! ### Steps (R277 to R282) -/

/-- The global tick count G (R278) of tick `i` of the present frame. -/
def tickNumber (s : State) (i : Nat) : Nat := s.fn * ticksPerFrame s + i

/-- A step with codes DIV and PHASE is due in this tick (R278). -/
def dueNow (s : State) (div phase : Nat) : Bool := decide (s.loop.tick % 2 ^ div = phase)

/-- Slot `n` is used (R315). -/
def slotUsed (s : State) (n : Nat) : Bool :=
  decide (s.reg (Reg.SLOT_SRC n) ≠ 0#32 ∨ s.reg (Reg.SLOT_EXEC n) ≠ 0#32 ∨ s.reg (Reg.SLOT_SEC n) ≠ 0#32)

/-- Slot `n` is due in this tick. -/
def slotDue (s : State) (n : Nat) : Bool :=
  slotUsed s n && dueNow s (s.rd (Fld.SLOT_EXEC_DIV n)) (s.rd (Fld.SLOT_EXEC_PHASE n))

/-- Instance `k` is used and due in this tick. -/
def opDue (s : State) (k : Nat) : Bool :=
  decide (s.rd (Fld.OP_CTL_TYPE k) ≠ 0) && dueNow s (s.rd (Fld.OP_CTL_DIV k)) (s.rd (Fld.OP_CTL_PHASE k))

/-- Every due step of strand `st` before position `order` has completed (R277). -/
def earlierDone (s : State) (st order : Nat) : Bool :=
  slots.all (fun n => !(slotDue s n && decide (s.rd (Fld.SLOT_EXEC_STRAND n) = st ∧ s.rd (Fld.SLOT_EXEC_ORDER n) < order)
      && !s.loop.slotDone.testBit n))
    && instances.all (fun k => !(opDue s k && decide (s.rd (Fld.OP_CTL_STRAND k) = st ∧ s.rd (Fld.OP_CTL_ORDER k) < order)
      && !s.loop.opDone.testBit k))

/-- A "same tick" source has completed in this tick (R282). -/
def sameTickReady (s : State) (kind idx : Nat) : Bool := decide (kind ≠ 3) || s.loop.slotDone.testBit idx

/-- The engine executes its strands: RUN, with ticks (R299, R309). -/
def engineRuns (s : State) : Bool := s.rdB Fld.LE_STATUS_RUN && s.rdB Fld.SCHED_CFG_TICK_RUN && !s.rdB Fld.LE_STATUS_DBG_HALT

/-! ### Sources (R281, R285, R286, R296) -/

/-- The cycle of this tick in which the entry of input `i` has written a result. -/
def inputWrote (s : State) (i : Nat) : Option Nat := Tab.get none (s.core (s.rd (Fld.IN_CFG_CORE i))).wroteAt (s.rd (Fld.IN_CFG_ENTRY i))

/-- A source is an input of FRESH_MODE 0 whose entry has written no result in this tick (R281). -/
def notReady (s : State) (kind idx : Nat) : Bool :=
  decide (kind = 1) && !s.rdB (Fld.IN_CFG_FRESH_MODE idx) && (inputWrote s idx).isNone

/-- An input of FRESH_MODE 0 was not ready at cycle `limit` of the tick (R281): a result written after it does not count. -/
def lateInput (s : State) (i limit : Nat) : Bool :=
  !s.rdB (Fld.IN_CFG_FRESH_MODE i) && (match inputWrote s i with | some c => decide (limit < c) | none => true)

/-- A source read for one step: its value in units of 2^-30, and the stale causes found (R296). -/
structure Read where
  value : Int
  causes : Nat
  deriving DecidableEq, Repr

/-- Input descriptor `i` (R281, R286): the scaled value of its result, with the causes of R296 for a step with WAIT_LIMIT `limit`; `owStale`
takes OW as stale. -/
def readInput (s : State) (i : Nat) (owStale : Bool) (limit : Nat) : Read :=
  let c := s.rd (Fld.IN_CFG_CORE i)
  let e := s.rd (Fld.IN_CFG_ENTRY i)
  let v : Int := s.rd (Fld.ADC_RESULT_VALUE c e)
  let o := 0x1000 + 0x10 * i
  let x := (v - (s.act o).toNat % 2 ^ 20) * wInt (s.act (o + 4)) * 4
  let fb := sat32 (roundDiv x (2 ^ ((s.act (o + 8)).toNat % 32)))
  { value := fb,
    causes := if lateInput s i limit then 1 else
      bitIf (!s.rdB (Fld.ADC_RESULT_VALID c e)) 1 + bitIf (s.rdB (Fld.ADC_RESULT_FROZEN c e)) 2
        + bitIf (owStale && s.rdB (Fld.ADC_RESULT_OW c e)) 3 }

/-- A grid-sync unit that has not started. -/
def restUnit : GsUnit :=
  { x1a := 0, x2a := 0, x1b := 0, x2b := 0, w := 0, started := false, angle := 0, done := false, lockTicks := 0, fMin := 0, fMax := 0,
    hist := [] }

/-- The hidden part of unit `u`. -/
def State.unit (s : State) (u : Nat) : GsUnit := Tab.get restUnit s.units u

/-- Stores the hidden part of unit `u`. -/
def State.setUnit (s : State) (u : Nat) (q : GsUnit) : State := { s with units := Tab.set restUnit s.units u q }

/-- The angle that a grid-sync unit published for this tick (R285). -/
def angleOf (s : State) (u : Nat) : Nat := (s.unit u).angle

/-- A source of KIND and IDX (R285), read for slot `own` (its set-point snapshot). -/
def readSource (s : State) (kind idx : Nat) (owStale : Bool) (own limit : Nat) : Read :=
  match kind with
  | 1 => readInput s idx owStale limit
  | 2 => { value := wInt (s.reg (Reg.OP_OUT (idx / 4) (idx % 4))), causes := bitIf (!s.loop.opOk.testBit (idx / 4)) 4 }
  | 3 => { value := wInt (s.reg (Reg.SLOT_OUT idx)), causes := bitIf (s.rdB (Fld.SLOT_STATUS_HALTED idx)) 4 }
  | 4 => { value := wInt (s.slot idx).prevOut, causes := bitIf (s.rdB (Fld.SLOT_STATUS_HALTED idx)) 4 }
  | 5 => { value := wInt (Tab.get 0#32 s.loop.portSnap idx), causes := 0 }
  | 6 => { value := wInt (s.slot own).sp, causes := 0 }
  | 7 => { value := angleOf s idx, causes := 0 }
  | _ => { value := 0, causes := 0 }

/-! ### Which pairs a slot drives (R294) -/

/-- The pairs that instance `k` writes (R293). -/
def opPairs (s : State) (k : Nat) : List Nat :=
  let p := s.rd (Fld.OP_CTL_PAIR k)
  match s.rd (Fld.OP_CTL_TYPE k) with
  | 4 => [p, p + 1, p + 2]
  | 5 => [p, p + 1, p + 2, p + 3, p + 4, p + 5]
  | 6 => [p]
  | _ => []

/-- The five 12-bit sources of instance `k` (R319). -/
def opSources (s : State) (k : Nat) : List Nat :=
  [s.rd (Fld.OP_IN01_IN0 k), s.rd (Fld.OP_IN01_IN1 k), s.rd (Fld.OP_IN23_IN2 k), s.rd (Fld.OP_IN23_IN3 k),
    s.rd (Fld.OP_IN4_IN4 k)]

/-- A source field names one of the slots or instances of two masks. -/
def namesOne (slotSet opSet src : Nat) : Bool :=
  let kind := src / 512
  let idx := src % 512
  ((kind == 3 || kind == 4) && slotSet.testBit idx) || (kind == 2 && opSet.testBit (idx / 4))

/-- One round of following outputs: operators that take an input from the set, and slots whose set-point comes from it. -/
def reachStep (s : State) (m : Nat × Nat) : Nat × Nat :=
  (slots.foldl (fun a n => if namesOne m.1 m.2 (s.rd (Fld.SLOT_SRC_SP_KIND n) * 512 + s.rd (Fld.SLOT_SRC_SP_IDX n))
      then a ||| 2 ^ n else a) m.1,
   instances.foldl (fun a k => if decide (s.rd (Fld.OP_CTL_TYPE k) ≠ 0) && (opSources s k).any (namesOne m.1 m.2)
      then a ||| 2 ^ k else a) m.2)

/-- What the slots of a mask reach within a number of rounds. -/
def reach (s : State) : Nat → Nat × Nat → Nat × Nat
  | 0, m => m
  | k + 1, m => let m' := reachStep s m; if m' = m then m else reach s k m'

/-- The pairs driven by the slots of a mask, as a mask (R294). -/
def drivenPairs (s : State) (slotSet : Nat) : Nat :=
  let ops := (reach s 224 (slotSet, 0)).2
  instances.foldl (fun a k => if ops.testBit k then (opPairs s k).foldl (fun b p => b ||| 2 ^ p) a else a) 0

/-- The pulse LOOP_STALE on the pairs of a mask (R420). -/
def stalePulse (m : Nat) : Nat → Nat := fun p => bitIf (m.testBit p) 25

/-! ### The slot computation (R287 to R291) -/

/-- A value and whether a saturation has occurred on the way (R287). -/
structure Acc where
  v : Int
  sat : Bool
  deriving DecidableEq, Repr

/-- Saturates at the 40-bit limits and notes it. -/
def narrow (v : Int) (sat : Bool) : Acc := { v := sat40 v, sat := sat || decide (sat40 v ≠ v) }

/-- mul() of R288. -/
def mul (x c : Int) : Acc := narrow (mulCf x c) false

/-- A sum of two values, saturating (sat40 of R288). -/
def Acc.add (a b : Acc) : Acc := narrow (a.v + b.v) (a.sat || b.sat)

/-- A difference of two values, saturating. -/
def Acc.sub (a b : Acc) : Acc := narrow (a.v - b.v) (a.sat || b.sat)

/-- The slew limiter (R289). -/
def slew (r tgt rise fall : Int) : Int :=
  if r < tgt then (if rise ≤ 0 then tgt else min tgt (sat32 (r + rise)))
  else if tgt < r then (if fall ≤ 0 then tgt else max tgt (sat32 (r - fall)))
  else r

/-- A coefficient of section `k`: q = 0 to 4 for B0, B1, B2, A1, A2 (R323). -/
def coef (s : State) (k q : Nat) : Int := wInt (s.act (0x4000 + 0x20 * k + 4 * q))

/-- One section in transposed direct form II (R288): its output, and its new states. -/
def section2 (s : State) (k : Nat) (x : Acc) : Acc × Int × Int :=
  let st := s.sec k
  let y := (mul x.v (coef s k 0)).add ⟨st.1, x.sat⟩
  let n1 := ((mul x.v (coef s k 1)).sub (mul y.v (coef s k 3))).add ⟨st.2, false⟩
  let n2 := (mul x.v (coef s k 2)).sub (mul y.v (coef s k 4))
  ({ v := y.v, sat := y.sat || n1.sat || n2.sat }, n1.v, n2.v)

/-- The cascade of sections from `base`: the last output, and each section's number and new states. -/
def cascade (s : State) (base : Nat) : List Nat → Acc → Acc × List (Nat × Int × Int)
  | [], x => (x, [])
  | j :: t, x =>
    let r := section2 s (base + j) x
    let q := cascade s base t r.1
    (q.1, (j, r.2.1, r.2.2) :: q.2)

/-- The states of slot `n` at zero: its sections (R298, R299). -/
def zeroSections (n : Nat) (s : State) : State :=
  let b := s.rd (Fld.SLOT_SEC_SEC_BASE n)
  { s with loop := { s.loop with sec :=
      (List.range (s.rd (Fld.SLOT_SEC_NSEC n))).foldl (fun t j => Tab.set (0, 0) t (b + j) (0, 0)) s.loop.sec } }

/-- Slot `n` halts (R298): output 0, OUT_OK 0, all its section states 0. -/
def slotHalt (n : Nat) (s : State) : State :=
  let s := ((s.setReg (Reg.SLOT_OUT n) 0#32).wr (Fld.SLOT_STATUS_OUT_OK n) 0).wr (Fld.SLOT_STATUS_HALTED n) 1
  let s := (s.wr (Fld.SLOT_STATUS_RAMPING n) 0).wrMapBit Fld.LE_SLOT_HALT n true
  zeroSections n (s.wr Fld.LE_STATUS_HALTED_N (s.rd Fld.LE_STATUS_HALTED_N + 1))

/-- SAT of slot `n` (R287): at its rise SAT_EV; logged at most once per slot per frame (R308). -/
def slotSat (n : Nat) (s : State) : State :=
  let s := if s.rdB (Fld.SLOT_STATUS_SAT n) then s else (s.wr (Fld.SLOT_STATUS_SAT n) 1).wr Fld.LE_EVENTS_SAT_EV 1
  s.logOnce 0x12 0x000A n n

/-- One due tick of the RAMP response (R297): towards 0 by the magnitude of RAMP; at 0 the slot halts. -/
def rampStep (n : Nat) (s : State) : State :=
  let r : Int := (wInt (s.act (0x20 * n + 0x14))).natAbs
  let o := wInt (s.reg (Reg.SLOT_OUT n))
  let o' : Int := if r = 0 then 0 else if 0 < o then max 0 (o - r) else min 0 (o + r)
  if o' = 0 then slotHalt n s
  else (s.setReg (Reg.SLOT_OUT n) (intW o')).wr (Fld.SLOT_STATUS_RAMPING n) 1

/-- A due slot is stale with some causes (R296, R297): HOLD within its tolerance and during the grace period; beyond the
tolerance its response. -/
def slotStaleResp (n causes : Nat) (s : State) : State :=
  let s := ((s.wr (Fld.SLOT_STATUS_STALE n) 1).wr (Fld.SLOT_STATUS_STALE_CAUSE n) causes).wrMapBit Fld.LE_SLOT_STALE n true
  let s := countEv 0x083 n 1 { s with loop := { s.loop with slotStale := s.loop.slotStale ||| 2 ^ n } }
  if s.rdB Fld.LE_STATUS_GRACE then s
  else
    let tol := s.rd (Fld.SLOT_SEC_STALE_TOL n)
    let old := s.rd (Fld.SLOT_STATUS_STALE_CNT n)
    let cnt := Nat.min 15 (old + 1)
    let resp := s.rd (Fld.SLOT_SEC_STALE_RESP n)
    let s := s.wr (Fld.SLOT_STATUS_STALE_CNT n) cnt
    if cnt ≤ tol then s
    else
      let s := if old ≤ tol then
          (s.wr Fld.LE_EVENTS_STALE_EV 1).logEv 0x12 0x0003 (n + causes * 256 + resp * 65536) else s
      match resp with
      | 1 => rampStep n s
      | 2 => slotHalt n (settleTrips (stalePulse (drivenPairs s (2 ^ n))) s)
      | _ => s

/-- The computation of a slot that is not stale (R288): `fb`, `ff` and `tgt` are its sources' values. -/
def slotCompute (n : Nat) (fb ff tgt : Int) (s : State) : State :=
  let q := s.slot n
  let r0 := if q.rInit then fb else q.rPrev
  let r := slew r0 tgt (wInt (s.act (0x20 * n + 0x08))) (wInt (s.act (0x20 * n + 0x0C)))
  let nsec := s.rd (Fld.SLOT_SEC_NSEC n)
  let base := s.rd (Fld.SLOT_SEC_SEC_BASE n)
  let c := cascade s base (List.range nsec) ⟨r - fb, false⟩
  let u := if s.rd (Fld.SLOT_EXEC_FF_KIND n) = 0 then c.1
    else c.1.add (mul ff (wInt (s.act (0x20 * n + 0x10))))
  let lo := wInt (s.act (0x20 * n))
  let hi := wInt (s.act (0x20 * n + 0x04))
  let clamped := decide (hi < u.v) || decide (u.v < lo)
  let out := min (max u.v lo) hi
  let integ := s.rd (Fld.SLOT_SEC_INTEG n)
  let sec := c.2.foldl (fun t e => if clamped && integ.testBit e.1 then t
    else Tab.set (0, 0) t (base + e.1) e.2) s.loop.sec
  let s := { s.setSlot n { q with rPrev := r, rInit := false } with loop :=
    { (s.setSlot n { q with rPrev := r, rInit := false }).loop with sec := sec } }
  let s := (s.setReg (Reg.SLOT_OUT n) (intW out)).wrB (Fld.SLOT_STATUS_CLAMPED n) clamped
  let s := ((s.wr (Fld.SLOT_STATUS_OUT_OK n) 1).wr (Fld.SLOT_STATUS_STALE n) 0).wr (Fld.SLOT_STATUS_STALE_CNT n) 0
  let s := when clamped (countEv 0x084 n 1) (s.wrMapBit Fld.LE_SLOT_STALE n false)
  if u.sat then slotSat n s else s

/-- A due tick of a slot that ramps (R297): the ramp goes on even where the sources are good again; STALE and its count follow them. -/
def rampTick (n causes : Nat) (s : State) : State :=
  let stale := decide (causes ≠ 0)
  let s := (s.wrB (Fld.SLOT_STATUS_STALE n) stale).wrMapBit Fld.LE_SLOT_STALE n stale
  let s := s.wr (Fld.SLOT_STATUS_STALE_CNT n) (if stale then Nat.min 15 (s.rd (Fld.SLOT_STATUS_STALE_CNT n) + 1) else 0)
  let s := if stale then countEv 0x083 n 1 { s.wr (Fld.SLOT_STATUS_STALE_CAUSE n) causes with loop :=
      { s.loop with slotStale := s.loop.slotStale ||| 2 ^ n } } else s
  rampStep n s

/-- The sources of slot `n` and what it makes of them in a due tick (R288, R296 to R298). -/
def slotBody (n : Nat) (s : State) : State :=
  let ow := s.rdB (Fld.SLOT_EXEC_OW_STALE n)
  let w := s.rd (Fld.SLOT_WAIT_WAIT_LIMIT n)
  let fb := readSource s (s.rd (Fld.SLOT_SRC_FB_KIND n)) (s.rd (Fld.SLOT_SRC_FB_IDX n)) ow n w
  let ff := readSource s (s.rd (Fld.SLOT_EXEC_FF_KIND n)) (s.rd (Fld.SLOT_EXEC_FF_IDX n)) ow n w
  let sp := readSource s (s.rd (Fld.SLOT_SRC_SP_KIND n)) (s.rd (Fld.SLOT_SRC_SP_IDX n)) ow n w
  let causes := fb.causes ||| (if s.rdB (Fld.SLOT_EXEC_FF_CHECK n) then ff.causes else 0)
  if s.rdB (Fld.SLOT_STATUS_HALTED n) then s.setReg (Reg.SLOT_OUT n) 0#32
  else if s.rdB (Fld.SLOT_STATUS_RAMPING n) then rampTick n causes s
  else if causes ≠ 0 then slotStaleResp n causes s
  else slotCompute n fb.value ff.value sp.value s

/-- A step of strand `st` completes in cycle `at'` of the tick (R283). -/
def stepUsed (st at' : Nat) (s : State) : State :=
  { s with loop := { s.loop with used := Tab.set 0 s.loop.used st (Nat.max (Tab.get 0 s.loop.used st) at') } }

/-- The step of slot `n` waits in cycle `at'` of the tick for an input that is not ready (R281). -/
def slotWaits (s : State) (n at' : Nat) : Bool :=
  (notReady s (s.rd (Fld.SLOT_SRC_FB_KIND n)) (s.rd (Fld.SLOT_SRC_FB_IDX n))
    || notReady s (s.rd (Fld.SLOT_SRC_SP_KIND n)) (s.rd (Fld.SLOT_SRC_SP_IDX n))
    || notReady s (s.rd (Fld.SLOT_EXEC_FF_KIND n)) (s.rd (Fld.SLOT_EXEC_FF_IDX n)))
    && decide (at' < s.rd (Fld.SLOT_WAIT_WAIT_LIMIT n))

/-- SLOT_COMPUTE (R288): slot `n` is due, its turn on its strand has come, its "same tick" sources are complete and it waits for no
input; it completes in cycle `doneAt` of the tick. -/
def execSlotCompute (n : Fin 96) (doneAt : BitVec 13) (s : State) : Host.Outcome State Fault Refusal :=
  run (fun s =>
    let st := s.rd (Fld.SLOT_EXEC_STRAND n.val)
    if engineRuns s && slotDue s n.val && !s.loop.slotDone.testBit n.val
        && earlierDone s st (s.rd (Fld.SLOT_EXEC_ORDER n.val))
        && sameTickReady s (s.rd (Fld.SLOT_SRC_FB_KIND n.val)) (s.rd (Fld.SLOT_SRC_FB_IDX n.val))
        && sameTickReady s (s.rd (Fld.SLOT_SRC_SP_KIND n.val)) (s.rd (Fld.SLOT_SRC_SP_IDX n.val))
        && sameTickReady s (s.rd (Fld.SLOT_EXEC_FF_KIND n.val)) (s.rd (Fld.SLOT_EXEC_FF_IDX n.val))
        && !slotWaits s n.val doneAt.toNat then
      let s := slotBody n.val s
      let s := { s with loop := { s.loop with slotDone := s.loop.slotDone ||| 2 ^ n.val } }
      stepUsed st doneAt.toNat (s.wr (Fld.SLOT_STATUS_DONE_AT n.val) doneAt.toNat)
    else s) s

/-! ### Operators (R293 to R295) -/

/-- Parameter `q` of instance `k` (R322). -/
def opParam (s : State) (k q : Nat) : Word := s.act (0x2000 + 0x20 * k + 4 * q)

/-- v_b and v_c of SVM2 in units of 2^-50, from α and β in units of 2^-30. -/
def phaseB (al be : Int) : Int := -(al * 2 ^ 19) + roundDiv (be * sqrt3) (2 ^ 21)
/-- v_c of SVM2. -/
def phaseC (al be : Int) : Int := -(al * 2 ^ 19) - roundDiv (be * sqrt3) (2 ^ 21)

/-- The three phases less their common mode, in units of 2^-50 (R293). -/
def phases (al be : Int) : List Int :=
  let a := al * 2 ^ 20
  let b := phaseB al be
  let c := phaseC al be
  let cm := roundDiv (max a (max b c) + min a (min b c)) 2
  [a - cm, b - cm, c - cm]

/-- A rotation term: x cos φ + y sin φ in units of 2^-30, rounded (R293). -/
def rotate (x y : Int) (c sn : Int) : Int := sat32 (roundDiv (x * c + y * sn) (2 ^ 60))

/-- What an operator computes (R293): its output ports, and the duties of its pairs. -/
structure OpResult where
  ports : List Int
  duties : List (Nat × Int)
  deriving DecidableEq, Repr

/-- One leg of SVM3 (R293): the two duties, and whether m was limited. -/
def svm3Leg (dmin dmax vdc np v : Int) : Int × Int × Bool :=
  let m := quotient (2 * v * 2 ^ 10) vdc + np
  let l := clampSym dmax m
  let f := fun x : Int => if x < dmin then 0 else x
  (f (max l 0), f (max (-l) 0), decide (l ≠ m))

/-- The computation of instance `k` of a type from its inputs (R293). -/
def opResult (s : State) (k type : Nat) (x : List Int) : OpResult :=
  let i := fun n => x.getD n 0
  let p := s.rd (Fld.OP_CTL_PAIR k)
  let p0 := wInt (opParam s k 0)
  let p1 := wInt (opParam s k 1)
  let p2 := wInt (opParam s k 2)
  let phi := ((i 4).toNat + (opParam s k 0).toNat) % 2 ^ 32
  let c := cos60 phi
  let sn := sin60 phi
  match type with
  | 1 => ⟨[sat32 (roundDiv (2 * i 0 - i 1 - i 2) 3), sat32 (roundDiv ((i 1 - i 2) * sqrt3) (3 * 2 ^ 40)),
           sat32 (roundDiv (i 0 + i 1 + i 2) 3)], []⟩
  | 2 => ⟨[rotate (i 0) (i 1) c sn, rotate (i 1) (-(i 0)) c sn, rotate (i 0) (-(i 1)) c sn, rotate (i 1) (i 0) c sn], []⟩
  | 3 => ⟨[sat32 (roundDiv ((i 0 + i 2) * c + (i 3 - i 1) * sn) (2 ^ 60)),
           sat32 (roundDiv ((i 1 + i 3) * c + (i 0 - i 2) * sn) (2 ^ 60))], []⟩
  | 4 =>
    let d := (phases (i 0) (i 1)).map (fun v => pu1 / 2 + quotient (v * 2 ^ 10) (i 2))
    ⟨[if d.any (fun v => decide (clampInt p0 p1 v ≠ v)) then pu1 else 0],
      [(p, clampInt p0 p1 (d.getD 0 0)), (p + 1, clampInt p0 p1 (d.getD 1 0)), (p + 2, clampInt p0 p1 (d.getD 2 0))]⟩
  | 5 =>
    let l := (phases (i 0) (i 1)).map (svm3Leg p0 p1 (i 2 + i 3) (i 4))
    let g := fun n => l.getD n (0, 0, false)
    ⟨[if l.any (fun e => e.2.2) then pu1 else 0],
      [(p, (g 0).1), (p + 1, (g 0).2.1), (p + 2, (g 1).1), (p + 3, (g 1).2.1), (p + 4, (g 2).1), (p + 5, (g 2).2.1)]⟩
  | 6 =>
    let d := clampInt p0 p1 (i 0)
    let d := if d < p2 then 0 else if pu1 - p2 < d then pu1 else d
    ⟨[d], [(p, d)]⟩
  | _ => ⟨[], []⟩

/-- How many inputs a type has (R293), IN4 being the angle of PARK and IPARK. -/
def opInputs (type : Nat) : List Nat :=
  match type with
  | 1 => [0, 1, 2] | 2 => [0, 1, 4] | 3 => [0, 1, 2, 3, 4] | 4 => [0, 1, 2] | 5 => [0, 1, 2, 3, 4] | 6 => [0] | _ => []

/-- The DC input of an SVM lies at or below VDC_MIN (R295). -/
def dcLow (s : State) (k type : Nat) (x : List Int) : Bool :=
  match type with
  | 4 => decide (x.getD 2 0 ≤ wInt (opParam s k 2))
  | 5 => decide (x.getD 2 0 + x.getD 3 0 ≤ wInt (opParam s k 2))
  | _ => false

/-- The reads of all five inputs of instance `k`. -/
def opReads (s : State) (k : Nat) : List Read :=
  (opSources s k).map (fun f => readSource s (f / 512) (f % 512) false 0 (s.rd (Fld.OP_IN4_WAIT_LIMIT k)))

/-- Instance `k` is stale in this tick (R295). -/
def opStale (s : State) (k type : Nat) (r : List Read) : Bool :=
  (opInputs type).any (fun n => decide ((r.getD n ⟨0, 0⟩).causes ≠ 0)) || dcLow s k type (r.map (·.value))

/-- A stale instance (R295): no pair is written, the outputs keep and are not OK; its pairs trip with LOOP_STALE. -/
def opStaleResp (k : Nat) (s : State) : State :=
  let first := !s.mapBit Fld.LE_OP_STALE k
  let s := { s.wrMapBit Fld.LE_OP_STALE k true with loop := { s.loop with opOk := setBitOf s.loop.opOk k false } }
  let s := if first then (s.wr Fld.LE_EVENTS_OP_STALE_EV 1).logEv 0x12 0x0004 k else s
  match opPairs s k with
  | [] => s
  | l => settleTrips (stalePulse (l.foldl (fun m p => m ||| 2 ^ p) 0)) s

/-- An instance that is not stale: its outputs, and every duty shadow of its pairs, in one cycle (R294). -/
def opWrites (k : Nat) (r : OpResult) (s : State) : State :=
  let s := { s.wrMapBit Fld.LE_OP_STALE k false with loop := { s.loop with opOk := setBitOf s.loop.opOk k true } }
  let s := forEach (List.range r.ports.length) (fun q s => s.setReg (Reg.OP_OUT k q) (intW (r.ports.getD q 0))) s
  r.duties.foldl (fun s d => if d.1 < 72 then s.setReg (Reg.PWM_DUTY d.1) (intW d.2) else s) s

/-- Instance `k` waits in cycle `at'` of the tick for an input that is not ready (R281). -/
def opWaits (s : State) (k at' : Nat) : Bool :=
  (opInputs (s.rd (Fld.OP_CTL_TYPE k))).any (fun n => let f := (opSources s k).getD n 0; notReady s (f / 512) (f % 512))
    && decide (at' < s.rd (Fld.OP_IN4_WAIT_LIMIT k))

/-- OPERATOR_COMPUTE (R293 to R295, R471, R476): instance `k` completes in cycle `doneAt`; `agree` says that the trailing copy makes the same duty
writes, `ab` that the comparator sets disagree about them, `cycle` where in the checker's window that is. -/
def execOperatorCompute (k : Fin 128) (doneAt : BitVec 13) (agree ab : Bool) (cycle : Nat) (s : State) :
    Host.Outcome State Fault Refusal :=
  run (fun s =>
    let st := s.rd (Fld.OP_CTL_STRAND k.val)
    let type := s.rd (Fld.OP_CTL_TYPE k.val)
    if engineRuns s && opDue s k.val && !s.loop.opDone.testBit k.val && earlierDone s st (s.rd (Fld.OP_CTL_ORDER k.val))
        && (opSources s k.val).all (fun f => sameTickReady s (f / 512) (f % 512)) && !opWaits s k.val doneAt.toNat then
      let r := opReads s k.val
      let stale := opStale s k.val type r
      let s := if stale then opStaleResp k.val s else opWrites k.val (opResult s k.val type (r.map (·.value))) s
      let s := stepUsed st doneAt.toNat { s with loop := { s.loop with opDone := s.loop.opDone ||| 2 ^ k.val } }
      if !stale && (!agree || ab) && !(opPairs s k.val).isEmpty && decide (s.rd Fld.LS_STATUS_ENG_STATE = 1) then
        engMismatch true ab cycle s
      else s
    else s) s

/-! ### Rearm, start, overrun (R24, R284, R298, R299) -/

/-- The rearm of slot `n` at a tick cycle (R298): only a halted slot is concerned. -/
def applyRearm (n : Nat) (s : State) : State :=
  let q := s.slot n
  if !q.rearm then s
  else if !s.rdB (Fld.SLOT_STATUS_HALTED n) then s.setSlot n { q with rearm := false }
  else
    let s := s.setSlot n { q with rearm := false, rPrev := 0, rInit := s.rdB (Fld.SLOT_SEC_SLEW_INIT n) }
    let s := ((s.wr (Fld.SLOT_STATUS_HALTED n) 0).wr (Fld.SLOT_STATUS_STALE_CNT n) 0).wrMapBit Fld.LE_SLOT_HALT n false
    (s.wr Fld.LE_STATUS_HALTED_N (s.rd Fld.LE_STATUS_HALTED_N - 1)).logEv 0x12 0x0005 n

/-- LE_REARM word `b` (R298): the slots named rearm at the next tick cycle. -/
def rearmWrite (b : Nat) (v : Word) (s : State) : State :=
  forEach (slots.filter (fun n => n / 32 == b && v.getLsbD (n % 32))) (fun n s => s.setSlot n { s.slot n with rearm := true }) s

/-- REARM (R298): a write of LE_REARM word `b`; HALTED clears at the tick cycle that takes the write. -/
def execRearm (i : Initiator) (b : Fin 3) (v : Word) (s : State) : Host.Outcome State Fault Refusal :=
  run (writeAdmitted i (Reg.LE_REARM b.val) (rearmWrite b.val v)) s

/-- No slot is halted at an engine start (R299): a slot that was leaves the halt as at a rearm, with STALE_CNT zeroed, and a RAMP response, whose
output the start zeroes, is over (DEDUCED, assumption 91); what the last due tick reported stays. -/
def slotUnhalt (n : Nat) (s : State) : State :=
  let s := if s.rdB (Fld.SLOT_STATUS_HALTED n) then (s.wr (Fld.SLOT_STATUS_HALTED n) 0).wr (Fld.SLOT_STATUS_STALE_CNT n) 0 else s
  (s.wr (Fld.SLOT_STATUS_RAMPING n) 0).wrB (Fld.SLOT_STATUS_OUT_OK n) (slotUsed s n)

/-- The engine's states at every start (R299). -/
def engineZero (s : State) : State :=
  let s := forEach slots (fun n s =>
    let s := s.setSlot n { restSlot with rInit := s.rdB (Fld.SLOT_SEC_SLEW_INIT n) }
    slotUnhalt n (s.setReg (Reg.SLOT_OUT n) 0#32)) s
  let s := forEach instances (fun k s => forEach [0, 1, 2, 3] (fun q s => s.setReg (Reg.OP_OUT k q) 0#32) s) s
  let s := forEach [0, 1, 2] (fun b s => s.setReg (Reg.LE_SLOT_HALT b) 0#32) s
  let s := s.wr Fld.LE_STATUS_HALTED_N 0
  { s with loop := { s.loop with sec := [], slotDone := 0, opDone := 0, slotStale := 0, opOk := 2 ^ 128 - 1, used := [], ovrHalt := false } }

/-- The engine's own counters at a start (R645). -/
def countersZero (s : State) : State :=
  forEach [0, 1, 2, 3] (fun st s => ((s.setWide (Reg.LE_CYC_LO st) 0).wr (Fld.LE_MAX st) 0).wr (Fld.LE_OVR st) 0)
    (s.setWide Reg.LE_TICKS_LO 0)

/-- The engine starts (R299): all states zero and a grace period of two frames. -/
def engineStart (s : State) : State :=
  let s := ((engineZero (countersZero s)).wr Fld.LE_STATUS_RUN 1).wr Fld.LE_STATUS_GRACE 1
  let s := { s with loop := { s.loop with grace := 2, fresh := decide (s.time.nextTick = 0) } }
  if s.rd Fld.LS_STATUS_ENG_STATE = 0 then s.wr Fld.LS_STATUS_ENG_STATE 1 else s

/-- The engine may start now (R299, R306, R307, R473). -/
def engineMayStart (s : State) : Bool :=
  s.rdB Fld.SCHED_CFG_TICK_RUN && !s.rdB Fld.SCHED_STATUS_TICK_LOST && s.bit Fld.DOM_STATUS_ON 14
    && !s.rdB Fld.LE_STATUS_RUN && !s.rdB Fld.LE_STATUS_DBG_HALT && decide (s.rd Fld.LS_STATUS_ENG_STATE ≠ 2)
    && (decide (s.rd Fld.LS_STATUS_ENG_STATE ≠ 3) || s.rdB Fld.SAFE_STATUS_TEST_STAND)
    && !(s.loop.ovrHalt && s.rdB Fld.SCHED_STATUS_TICK_OVERRUN) && !s.ls.coreHeld

/-- The strands that have a due step unfinished (R24). -/
def unfinished (s : State) : Nat :=
  (List.range 4).foldl (fun m st =>
    if slots.any (fun n => slotDue s n && decide (s.rd (Fld.SLOT_EXEC_STRAND n) = st) && !s.loop.slotDone.testBit n)
        || instances.any (fun k => opDue s k && decide (s.rd (Fld.OP_CTL_STRAND k) = st) && !s.loop.opDone.testBit k)
    then m ||| 2 ^ st else m) 0

/-- The slots on the strands of a mask. -/
def slotsOn (s : State) (strands : Nat) : Nat :=
  slots.foldl (fun m n => if slotUsed s n && strands.testBit (s.rd (Fld.SLOT_EXEC_STRAND n)) then m ||| 2 ^ n else m) 0

/-- An overrun (R24, R306): flags, the log, and the response of the image. -/
def overrun (strands : Nat) (s : State) : State :=
  let idx := s.rd Fld.SCHED_STATUS_TICK_IDX
  let s := (s.wr Fld.SCHED_STATUS_TICK_OVERRUN 1).wr Fld.SCHED_STATUS_OVR_STRAND strands
  let s := s.logOnce 0x12 0x0001 0 (strands + idx * 256)
  match s.rd Fld.SCHED_CFG_OVR_RESP with
  | 1 => settleTrips noPulse { s with pwm := { s.pwm with ovrTrip := s.pwm.ovrTrip ||| drivenPairs s (slotsOn s strands) } }
  | 2 =>
    let s := { s with pwm := { s.pwm with ovrTrip := s.pwm.ovrTrip ||| drivenPairs s (slotsOn s 15) },
                      loop := { s.loop with ovrHalt := true } }
    settleTrips noPulse (engineStops s)
  | _ => s

/-- The loop engine's counters of the ending tick (R645): an overrunning strand counts 8,000 / T cycles. -/
def strandCount (strands : Nat) (s : State) : State :=
  let s := forEach [0, 1, 2, 3] (fun st s =>
    let u := if strands.testBit st then 8000 / ticksPerFrame s else Tab.get 0 s.loop.used st
    let s := (s.bump (Reg.LE_CYC_LO st) u).wr (Fld.LE_MAX st) (Nat.max u (s.rd (Fld.LE_MAX st)))
    if strands.testBit st then s.inc (Fld.LE_OVR st) else s) s
  s.bump Reg.LE_TICKS_LO 1

/-- The used cycles of the ending tick are reported (R283, R313) and counted (R645). -/
def strandReport (strands : Nat) (s : State) : State :=
  let s := forEach [0, 1, 2, 3] (fun st s =>
    let u := if strands.testBit st then 0xFFFF else Tab.get 0 s.loop.used st
    (s.wr (Fld.LE_STRAND_USE_USED st) u).wr (Fld.LE_STRAND_USE_MAX st) (Nat.max u (s.rd (Fld.LE_STRAND_USE_MAX st)))) s
  let s := if s.rdB Fld.PC_STATUS_FROZEN then s else strandCount strands s
  { s with loop := { s.loop with used := [] } }

/-- What the engine does in the tick cycle before its strands start, at the end of the tick of the old index (R284): the
overrun check and its report. -/
def engineTickEnd (s : State) : State :=
  if engineRuns s && !s.loop.fresh then
    let u := unfinished s
    let s := strandReport u (s.wr Fld.LE_STATUS_STALE_N (popCount 96 s.loop.slotStale))
    if u = 0 then s else overrun u s
  else s

/-- What the engine does in the tick cycle for the new tick (R284, R298): the snapshots and the rearms. -/
def engineTickBegin (s : State) : State :=
  let s := forEach slots (fun n s => s.setSlot n { s.slot n with sp := s.reg (Reg.SLOT_SP n), prevOut := s.reg (Reg.SLOT_OUT n) }) s
  let s := forEach slots applyRearm s
  { s with loop := { s.loop with portSnap := s.loop.ports, slotDone := 0, opDone := 0, slotStale := 0, fresh := false } }

/-- A frame of grace passes (R299). -/
def graceFrame (s : State) : State :=
  let s := { s with loop := { s.loop with grace := s.loop.grace - 1 } }
  if s.loop.grace = 0 then s.wr Fld.LE_STATUS_GRACE 0 else s

/-! ### Banks (R300 to R305) -/

/-- A slot of the inactive bank has OUT_MIN > OUT_MAX (R302). -/
def limitsBad (s : State) : Bool :=
  slots.any (fun n => decide (wInt (s.bankWord (inactive s) (0x20 * n + 4)) < wInt (s.bankWord (inactive s) (0x20 * n))))

/-- The status of arming a swap for frame `f` (R302): the range of F and the limits first. -/
def armStatus (f : Nat) (s : State) : Status :=
  if !(decide (2 ≤ fnDiff f s.fn) && decide (fnDiff f s.fn ≤ 2 ^ 47 - 1)) || limitsBad s then .badArg
  else if s.rd Fld.LE_STATUS_ARM_STATE ≠ 0 ∨ s.rdB Fld.LE_STATUS_COPY_BUSY = true then .stateConflict
  else .ok

/-- The code of a status (R609). -/
def Status.code : Status → Nat
  | .ok => 0 | .busy => 1 | .stateConflict => 2 | .denied => 3 | .badArg => 4 | .noResource => 5 | .integrity => 6
  | .cancelled => 7 | .failed => 8

/-- ARM_REFUSED (R302). -/
def armRefused (st : Status) (s : State) : State :=
  ((s.wr Fld.LE_EVENTS_ARM_REFUSED 1).logEv 0x12 0x0009 st.code).answerSt st

/-- Arms a swap for frame `f` (R302): F is written into LE_SWAP_AT and hashing begins. -/
def armSwap (i : Initiator) (f : Nat) (s : State) : State :=
  match armStatus f s with
  | .ok =>
    let s := (s.wr64 Fld.LE_SWAP_AT_LO Fld.LE_SWAP_AT_HI f).wr Fld.LE_STATUS_ARM_STATE 1
    { s with loop := { s.loop with armedBy := (s.roleOf i, sessOf i) } }.answerSt .ok
  | st => armRefused st s

/-- Arms a swap for the F of LE_SWAP_AT (R302). -/
def armAt (i : Initiator) (s : State) : State := armSwap i (s.rd64 Fld.LE_SWAP_AT_LO Fld.LE_SWAP_AT_HI) s
/-- Arms a swap for the current frame + 2 (R302). -/
def armNext (i : Initiator) (s : State) : State := armSwap i ((s.fn + 2) % fnModulus) s
/-- Back to no swap; nothing else changes (R302). -/
def swapDisarm (s : State) : State := s.wr Fld.LE_STATUS_ARM_STATE 0
/-- A copy of the active bank begins (R304): refused under the conditions of R302 other than those on F. -/
def bankCopy (s : State) : State :=
  if limitsBad s then armRefused .badArg s
  else if s.rd Fld.LE_STATUS_ARM_STATE ≠ 0 ∨ s.rdB Fld.LE_STATUS_COPY_BUSY = true then armRefused .stateConflict s
  else s.wr Fld.LE_STATUS_COPY_BUSY 1

/-- ARM_AT (R302). -/
def execArmAt (i : Initiator) (s : State) : Host.Outcome State Fault Refusal :=
  run (writeAdmitted i Reg.LE_BANK_CTRL (armAt i)) s

/-- ARM_NEXT (R302): F is the current frame + 2. -/
def execArmNext (i : Initiator) (s : State) : Host.Outcome State Fault Refusal :=
  run (writeAdmitted i Reg.LE_BANK_CTRL (armNext i)) s

/-- DISARM (R302): back to no swap; nothing else changes. -/
def execDisarm (i : Initiator) (s : State) : Host.Outcome State Fault Refusal :=
  run (writeAdmitted i Reg.LE_BANK_CTRL swapDisarm) s

/-- COPY (R304): refused under the conditions of R302 other than those on F. -/
def execCopy (i : Initiator) (s : State) : Host.Outcome State Fault Refusal :=
  run (writeAdmitted i Reg.LE_BANK_CTRL bankCopy) s

/-- COPY_DONE (R304). -/
def execCopyDone (s : State) : Host.Outcome State Fault Refusal :=
  run (fun s => if s.rdB Fld.LE_STATUS_COPY_BUSY then
      let s := if s.rd Fld.LE_STATUS_ACT_BANK = 0 then { s with loop := { s.loop with bank1 := s.loop.bank0 } }
        else { s with loop := { s.loop with bank0 := s.loop.bank1 } }
      s.wr Fld.LE_STATUS_COPY_BUSY 0
    else s) s

/-- The bytes of a bank: window offsets 0x0000 to 0x7FFF as little-endian words (R302). -/
def bankBytes (s : State) (b : Nat) : List Byte := (List.range 8192).flatMap (fun k => leBytes 4 (bankShown s b (4 * k)).toNat)

/-- The digest of a bank (R302). -/
def bankDigest (s : State) (b : Nat) : BitVec 128 := first16 (Config.sha384 (bankBytes s b))

/-- A digest shown in four digest registers, in the word order of R175. -/
def showDigest (f : Nat → FRef) (d : BitVec 128) (s : State) : State :=
  forEach [0, 1, 2, 3] (fun w s => s.wr (f w) (digestWord d w)) s

/-- BANK_DIGEST_DONE (R302). -/
def execBankDigestDone (s : State) : Host.Outcome State Fault Refusal :=
  run (fun s => if s.rd Fld.LE_STATUS_ARM_STATE = 1 then
      (showDigest Fld.LE_BANK_DIGEST (bankDigest s (inactive s)) s).wr Fld.LE_STATUS_ARM_STATE 2
    else s) s

/-- A swap is discarded for a reason of R308 (R303). -/
def swapDiscard (reason : Nat) (s : State) : State :=
  if s.rd Fld.LE_STATUS_ARM_STATE = 0 then s
  else ((s.wr Fld.LE_STATUS_ARM_STATE 0).wr Fld.LE_EVENTS_SWAP_DISCARDED 1).logEv 0x12 0x0007 reason

/-- The target frame of the armed swap. -/
def swapAt (s : State) : Nat := s.rd64 Fld.LE_SWAP_AT_LO Fld.LE_SWAP_AT_HI

/-- An armed swap is made (R303): the banks change, and both logs take it; the change log's entry has KIND 5 and the digest. -/
def bankSwapNow (s : State) : State :=
  let d := digestOfWords (s.rd (Fld.LE_BANK_DIGEST 0)) (s.rd (Fld.LE_BANK_DIGEST 1)) (s.rd (Fld.LE_BANK_DIGEST 2))
    (s.rd (Fld.LE_BANK_DIGEST 3))
  let b := inactive s
  let s := ((s.wr Fld.LE_STATUS_ACT_BANK b).wr Fld.LE_STATUS_ARM_STATE 0).wr Fld.LE_EVENTS_SWAP_DONE 1
  (s.logEv 0x12 0x0006 b).clogPush s.loop.armedBy.1 s.loop.armedBy.2 5 Reg.LE_BANK_CTRL d

/-- Frames of a swap that have passed without its being made (R303): no tick occurred at F. -/
def swapMissed (s : State) : State :=
  if s.rd Fld.LE_STATUS_ARM_STATE ≠ 0 ∧ fnLater s.fn (swapAt s) = true then swapDiscard 3 s else s

/-- The bits of a word that a bank holds at a window offset (R320 to R323): a timing word has 20, and a shift word 5. -/
def bankBits (o : Nat) (v : Word) : Word :=
  if 0x1000 ≤ o ∧ o < 0x2000 then (if o % 0x10 = 0 then v &&& 0xFFFFF#32 else if o % 0x10 = 8 then v &&& 0x1F#32 else v) else v

/-- A write to the loop engine block outside its command register (R301, R312, R320 to R323): the inactive window and
LE_SWAP_AT are refused while a swap is armed or a copy runs; SLOT_SP is always written. -/
def leWrite (a : Nat) (v : Word) (s : State) : State :=
  let refuse := fun (st : Status) => ((s.wr Fld.LE_EVENTS_WR_REFUSED 1).logEv 0x12 0x0008 a).answerSt st
  if a = Reg.LE_EVENTS then w1cWrite a v s
  else if a = Reg.LE_SWAP_AT_LO ∨ a = Reg.LE_SWAP_AT_HI then
    if s.rd Fld.LE_STATUS_ARM_STATE ≠ 0 then refuse .stateConflict
    else s.setReg a (if a = Reg.LE_SWAP_AT_HI then v &&& 0xFFFF#32 else v)
  else if 0x150000 ≤ a ∧ a < 0x158000 then
    if s.rd Fld.LE_STATUS_ARM_STATE ≠ 0 then refuse .stateConflict
    else if s.rdB Fld.LE_STATUS_COPY_BUSY then refuse .busy
    else if rsvdWord s (a - 0x150000) then s
    else s.setBankWord (inactive s) (a - 0x150000) (bankBits (a - 0x150000) v)
  else s

/-- A read of S1_LO of section `j` latches the other words (R324). -/
def secStateRead (j : Nat) (s : State) : State :=
  let st := s.sec j
  let lo := ofInt 40 st.1
  let s := (s.wr (Fld.SEC_S1_HI j) (lo / 2 ^ 32)).wr (Fld.SEC_S2_LO j) (ofInt 40 st.2 % 2 ^ 32)
  ((s.wr (Fld.SEC_S2_HI j) (ofInt 40 st.2 / 2 ^ 32)).wr (Fld.SEC_S1_LO j) (lo % 2 ^ 32)).answer (BitVec.ofNat 32 lo) .done .ok

/-- SEC_STATE_READ (R324). -/
def execSecStateRead (i : Initiator) (j : Fin 512) (s : State) : Host.Outcome State Fault Refusal :=
  run (readAdmitted i (Reg.SEC_S1_LO j.val) (secStateRead j.val)) s

/-- A slot that the section leaves unused reads OUT = 0 and OUT_OK = 0 (R315). -/
def unusedClear (s : State) : State :=
  forEach slots (fun n s => when (!slotUsed s n) (fun s => (s.setReg (Reg.SLOT_OUT n) 0#32).wr (Fld.SLOT_STATUS_OUT_OK n) 0) s) s

/-- The LOOP section is loaded (R299, R300, R303, R312, R315): bank A active as bank 0, an armed swap discarded, digest 0. -/
def loopLoaded (s : State) : State :=
  let s := unusedClear (swapDiscard 4 s)
  showDigest Fld.LE_BANK_DIGEST 0#128 ((s.wr Fld.LE_STATUS_ACT_BANK 0).wr Fld.LE_STATUS_COPY_BUSY 0)

end Sys2Proof.Machine
end

