-- ==== Sys2Proof/Machine/Grid.lean ====
section
/-!
DEFINITION. Machine/Grid.lean: grid-sync units, grid stages and ride-through (spec/10_grid_stages.md). Per-unit quantities
are integers in units of 2^-30; angles are ANG32, frequencies FRQ32. The rounding of the intermediate terms of R327 is the
model's (assumption 20).
-/
namespace Sys2Proof.Machine

/-! ### Grid-sync units (R325 to R331) -/

/-- 2π in units of 2^-30. -/
def twoPi : Int := 6746518852

/-- F_NOM of unit `u` in Hz (R350). -/
def fNom (s : State) (u : Nat) : Nat := if s.rdB (Fld.GS_CFG_F_NOM u) then 60 else 50

/-- A unit starts (R327): its states are 0 and w is 2π × F_NOM. -/
def unitStart (u : Nat) (s : State) : State :=
  s.setUnit u { restUnit with started := true, w := twoPi * fNom s u }

/-- The three sources of unit `u`: core and entry (R350). -/
def unitSources (s : State) (u : Nat) : List (Nat × Nat) :=
  [s.rd (Fld.GS_SRC_IN_A u), s.rd (Fld.GS_SRC_IN_B u), s.rd (Fld.GS_SRC_IN_C u)].map (fun f => (f / 16, f % 16))

/-- A result can be used in this tick: written, valid and not frozen (R326). -/
def resultUsable (s : State) (src : Nat × Nat) : Bool :=
  (Tab.get none (s.core src.1).wroteAt src.2).isSome && s.rdB (Fld.ADC_RESULT_VALID src.1 src.2) && !s.rdB (Fld.ADC_RESULT_FROZEN src.1 src.2)

/-- Phase `x` of unit `u` in PU32 by the formula of R286 (R325). -/
def phaseValue (s : State) (u x : Nat) (src : Nat × Nat) : Int :=
  let v : Int := s.rd (Fld.ADC_RESULT_VALUE src.1 src.2)
  sat32 (roundDiv ((v - s.rd (Fld.GS_CAL_OFFS u x)) * wInt (s.reg (Reg.GS_CAL_GAIN u x)) * 4) (2 ^ s.rd (Fld.GS_CAL_SHIFT u x)))

/-- Ts × v in internal state (R327), for a tick of 20 us / `t`. -/
def perTick (t : Nat) (v : Int) : Int := sat40 (roundDiv (20 * v) (1000000 * t))

/-- K_SOGI × v in internal state, K_SOGI in units of 1/64 (R350). -/
def timesK (k : Nat) (v : Int) : Int := sat40 (roundDiv (k * v) 64)

/-- One phase's generalised integrator for one tick (R327), each product and each sum in internal state: the new x1 and x2. -/
def sogi (k t : Nat) (w e x1 x2 : Int) : Int × Int :=
  let tw := perTick t w
  let x1' := add40 x1 (mul40 tw (add40 (timesK k e) (-x2)))
  (x1', add40 x2 (mul40 tw x1'))

/-- Half the sum of two internal values. -/
def half40 (a b : Int) : Int := roundDiv (add40 a b) 2

/-- The magnitude of a pair of components (R327): the squares and their sum in internal state, and the nearest root. -/
def magnitude (a b : Int) : Int := sqrtRound ((add40 (mul40 a a) (mul40 b b)).toNat * 2 ^ 30) 1

/-- The angle in the first quadrant whose tangent is y / x, as a fraction of a turn in units of 2^-32, to the nearest: bit by bit, and then by
the tangent half a unit on. -/
def atanQuad (y x : Nat) : Nat :=
  let a := (List.range 30).foldl (fun a i =>
    let t := a + 2 ^ (29 - i)
    if (x : Int) * sinBase t ≤ (y : Int) * sinBase (t + 2 ^ 30) then t else a) 0
  if (x : Int) * (sinBase a + sinBase (a + 1)) ≤ (y : Int) * (sinBase (a + 2 ^ 30) + sinBase (a + 1 + 2 ^ 30)) then a + 1 else a

/-- atan2 as ANG32 (R327). -/
def atan2 (y x : Int) : Nat :=
  let q := atanQuad y.natAbs x.natAbs
  (if 0 ≤ x then (if 0 ≤ y then q else 2 ^ 32 - q) else (if 0 ≤ y then 2 ^ 31 - q else 2 ^ 31 + q)) % 2 ^ 32

/-- F in FRQ32 from w (R327). -/
def freqOf (w : Int) : Nat := (roundDiv (w * 65536) twoPi.toNat).toNat

/-- The advance of an angle over some nanoseconds at a frequency, as ANG32 (R329). -/
def angleAdvance (f : Nat) (ns : Int) : Int := roundDiv (f * 65536 * ns) 1000000000

/-- A phase's in-phase or quadrature part times 2^41, for phase 0, 1, 2, from its α and β parts (R328). -/
def phasePart (x : Nat) (al be : Int) : Int :=
  match x with | 0 => al * 2 ^ 41 | 1 => -(al * 2 ^ 40) + be * sqrt3 | _ => -(al * 2 ^ 40) - be * sqrt3

/-- The three phase magnitudes (R328): phase-to-neutral, or phase-to-phase over √3. -/
def phaseMags (vmon : Bool) (x1a x2a x1b x2b : Int) : List Int :=
  let p := fun x => (phasePart x x1a x1b, phasePart x x2a x2b)
  [0, 1, 2].map (fun x =>
    let a := p x
    let b := p ((x + 1) % 3)
    if vmon then (sqrtRound ((a.1 - b.1).natAbs * (a.1 - b.1).natAbs + (a.2 - b.2).natAbs * (a.2 - b.2).natAbs) (3 * 2 ^ 82) : Int)
    else sqrtRound (a.1.natAbs * a.1.natAbs + a.2.natAbs * a.2.natAbs) (2 ^ 82))

/-- The lowest and the highest of a list of values. -/
def minOf (l : List Int) : Int := l.foldl min (l.headD 0)
/-- The highest of a list of values. -/
def maxOf (l : List Int) : Int := l.foldl max (l.headD 0)

/-- F lies within some hertz of F_NOM. -/
def nearNom (s : State) (u hz f : Nat) : Bool := decide ((fNom s u - hz) * 65536 ≤ f ∧ f ≤ (fNom s u + hz) * 65536)

/-- The lock conditions over time (R331): V1, F, and the spread of F in the time for which they have held. -/
def lockCount (s : State) (u : Nat) (v1 : Int) (f : Nat) (q : GsUnit) : GsUnit :=
  if roundDiv pu1 10 ≤ v1 ∧ nearNom s u 5 f = true then
    let lo := Nat.min q.fMin f
    let hi := Nat.max q.fMax f
    if q.lockTicks = 0 ∨ 32768 < hi - lo then { q with lockTicks := 1, fMin := f, fMax := f }
    else { q with lockTicks := q.lockTicks + 1, fMin := lo, fMax := hi }
  else { q with lockTicks := 0 }

/-- The published angle a tick on, at frequency `f` (R326, R331). -/
def angleHeld (s : State) (u f : Nat) : Nat :=
  (((s.rd (Fld.GS_THETA1 u) : Int) + angleAdvance f (20000 / ticksPerFrame s)) % 2 ^ 32).toNat

/-- A coasted tick (R326): the integrators stand, the angle advances at the held frequency, and the time of the lock conditions runs on. -/
def unitCoast (u : Nat) (s : State) : State :=
  let th := angleHeld s u (freqOf (s.unit u).w)
  let old := s.rd (Fld.GS_STATUS_STALE_CNT u)
  let s := s.setUnit u (lockCount s u (s.rdI (Fld.GS_V1 u)) (s.rd (Fld.GS_FREQ u)) (s.unit u))
  let s := (s.wr (Fld.GS_STATUS_COAST u) 1).wr (Fld.GS_THETA1 u) th
  let s := s.inc (Fld.GS_STATUS_STALE_CNT u)
  let n := s.rd (Fld.GS_CFG_STALE_TICKS u)
  if old ≤ n ∧ n < s.rd (Fld.GS_STATUS_STALE_CNT u) then
    ((s.wr (Fld.GS_STATUS_ANG_OK u) 0).wr (Fld.GS_EVENTS_STALE_EV u) 1).logEv 0x13 0x0003 u
  else s

/-- 0.05 p.u. -/
def vFloor : Int := 53687091

/-- LOCKED falls where R331 says so. -/
def unlockCheck (u : Nat) (s : State) : State :=
  let low := decide (s.rdI (Fld.GS_V1 u) < vFloor)
  let off := !nearNom s u 6 (s.rd (Fld.GS_FREQ u))
  let noAng := !s.rdB (Fld.GS_STATUS_ANG_OK u)
  if s.rdB (Fld.GS_STATUS_LOCKED u) && (low || off || noAng) then
    ((s.wr (Fld.GS_STATUS_LOCKED u) 0).wr (Fld.GS_EVENTS_UNLOCK_EV u) 1).logEv 0x13 0x0002
      (u + bitIf low 8 + bitIf off 9 + bitIf noAng 10)
  else s

/-- The frequency-locked loop (R327): w after a tick, from the sum of the phases' errors times their quadrature parts. -/
def fllStep (s : State) (u : Nat) (w ef v1 : Int) : Int :=
  let g := timesK (s.rd (Fld.GS_CFG_K_SOGI u)) (perTick (ticksPerFrame s) (5 * s.rd (Fld.GS_CFG_GAMMA u) * pu1))
  add40 w (-(sat40 (roundDiv (mul40 (mul40 g w) ef * 2 ^ 30) (mul40 v1 v1).natAbs)))

/-- An update of unit `u` from its three results (R327 to R329). While V1 is below 0.05 p.u. w is held and the angle advances with it (R331). -/
def unitCompute (u : Nat) (s : State) : State :=
  let q := s.unit u
  let t := ticksPerFrame s
  let src := unitSources s u
  let v := (List.range 3).map (fun x => phaseValue s u x (src.getD x (0, 0)))
  let i := fun n => v.getD n 0
  let va := sat32 (roundDiv (2 * i 0 - i 1 - i 2) 3)
  let vb := sat32 (roundDiv ((i 1 - i 2) * sqrt3) (3 * 2 ^ 40))
  let k := s.rd (Fld.GS_CFG_K_SOGI u)
  let ea := add40 va (-q.x1a)
  let eb := add40 vb (-q.x1b)
  let a := sogi k t q.w ea q.x1a q.x2a
  let b := sogi k t q.w eb q.x1b q.x2b
  let v1a := half40 a.1 (-b.2)
  let v1b := half40 a.2 b.1
  let v2a := half40 a.1 b.2
  let v2b := half40 b.1 (-a.2)
  let v1 := magnitude v1a v1b
  let v2 := magnitude v2a v2b
  let freeze := decide (v1 < vFloor)
  let ef := add40 (mul40 ea a.2) (mul40 eb b.2)
  let w := if freeze then q.w else fllStep s u q.w ef v1
  let w := clampInt (twoPi * (fNom s u - 10 : Nat)) (twoPi * (fNom s u + 10 : Nat)) w
  let f := freqOf w
  let th1 := atan2 v1b v1a
  let pub := if freeze then angleHeld s u f
    else (((th1 : Int) + angleAdvance f (20000 / t - s.rdI (Fld.GS_TIMING_CENTRE_OFS u)) + s.rd (Fld.GS_ANG_CAL u)) % 2 ^ 32).toNat
  let m := phaseMags (s.rdB (Fld.GS_CFG_VMON u)) a.1 a.2 b.1 b.2
  let s := s.setUnit u (lockCount s u v1 f { q with x1a := a.1, x2a := a.2, x1b := b.1, x2b := b.2, w := w })
  let s := (s.wrI (Fld.GS_V1 u) (sat32 v1)).wrI (Fld.GS_V2 u) (sat32 v2)
  let s := (s.wrI (Fld.GS_VPH_MIN u) (sat32 (minOf m))).wrI (Fld.GS_VPH_MAX u) (sat32 (maxOf m))
  let s := (s.wrI (Fld.GS_VFAST u) (sat32 (magnitude va vb))).wr (Fld.GS_THETA1 u) pub
  let s := (s.wr (Fld.GS_THETA2 u) (atan2 v2b v2a)).wr (Fld.GS_FREQ u) f
  let s := (s.wrB (Fld.GS_STATUS_FREEZE u) freeze).wr (Fld.GS_STATUS_COAST u) 0
  (s.wr (Fld.GS_STATUS_STALE_CNT u) 0).wr (Fld.GS_STATUS_ANG_OK u) 1

/-- The update of unit `u` in a tick: from its results, or coasting (R326); then its lock. -/
def unitUpdate (u : Nat) (s : State) : State :=
  let s := if (s.unit u).started then s else unitStart u s
  unlockCheck u (if (unitSources s u).all (resultUsable s) then unitCompute u s else unitCoast u s)

/-- The unit's domain is on (R68, R325): CT_SUP for the PCC, CT_CONV for the others. -/
def unitOn (s : State) (u : Nat) : Bool := s.rdB (Fld.GS_CFG_EN u) && s.bit Fld.DOM_STATUS_ON (if u = 8 then 13 else 14)

/-- At the tick cycle the angle published for this tick becomes the unit's angle source (R285, R329), and its update in the new tick
is still to come (R22). -/
def anglesTake (s : State) : State :=
  forEach (List.range 9) (fun u s =>
    when (unitOn s u) (fun s => s.setUnit u { s.unit u with angle := s.rd (Fld.GS_THETA1 u), done := false }) s) s

/-- ROCOF of unit `u` (R330): reads 0 until 2W frames have passed. -/
def rocofOf (w : Nat) (hist : List Nat) : Int :=
  if w = 0 ∨ hist.length < 2 * w then 0
  else roundDiv ((((hist.take w).foldl (· + ·) 0 : Nat) - (((hist.drop w).take w).foldl (· + ·) 0 : Nat) : Int) * 50000) (w * w)

/-- At a frame tick each unit copies its values for the frame and forms ROCOF (R329, R330). -/
def unitFrame (u : Nat) (s : State) : State :=
  if !unitOn s u then s
  else
    let f := s.rd (Fld.GS_FREQ u)
    let w := s.rd (Fld.GS_TIMING_ROCOF_WIN u)
    let h := (f :: (s.unit u).hist).take (2 * w)
    let s := s.setUnit u { s.unit u with hist := h }
    let s := (s.wr (Fld.GS_FT_ANGLE u) (s.rd (Fld.GS_THETA1 u))).wr (Fld.GS_FT_V1 u) (s.rd (Fld.GS_V1 u))
    (s.wr (Fld.GS_FT_FREQ u) f).wrI (Fld.GS_ROCOF u) (rocofOf w h)

/-- GS_LOCK (R331): the lock conditions of unit `u` have held for 100 ms. -/
def execGsLock (u : Fin 9) (s : State) : Host.Outcome State Fault Refusal :=
  run (fun s => if 5000 * ticksPerFrame s ≤ (s.unit u.val).lockTicks ∧ s.rdB (Fld.GS_STATUS_LOCKED u.val) = false
        ∧ s.rdB (Fld.GS_STATUS_ANG_OK u.val) = true then
      ((s.wr (Fld.GS_STATUS_LOCKED u.val) 1).wr (Fld.GS_EVENTS_LOCK_EV u.val) 1).logEv 0x13 0x0001 u.val
    else s) s

/-! ### Stage states (R338 to R343) -/

/-- The eight stages. -/
def stages : List Nat := List.range 8

/-- A stage at rest. -/
def restStage : Stage :=
  { delay := 0, reconnect := false, conn := 0, fb := 0, clear := 0, ramp := 0, stop := 0, stopRefs := [], stopped := true,
    lv := [], hv := [], fr := [], pRef := none, v1Pre := 0, iqPre := 0, tRt := 0, vf := [], qv := 0, idLast := 0, snap := [] }

/-- The hidden part of stage `g`. -/
def State.stage (s : State) (g : Nat) : Stage := Tab.get restStage s.stages g

/-- Stores the hidden part of stage `g`. -/
def State.setStage (s : State) (g : Nat) (q : Stage) : State := { s with stages := Tab.set restStage s.stages g q }

/-- The pairs of stage `g` (R332). -/
def stagePairs (s : State) (g : Nat) : List Nat :=
  (List.range (if s.rdB (Fld.GST_MAP_TYPE g) then 6 else 3)).map (fun i => s.rd (Fld.GST_MAP_PAIR_FIRST g) + i)

/-- A mask of pairs with those of a list set or cleared. -/
def maskSet (m : Nat) (l : List Nat) (b : Bool) : Nat := l.foldl (fun a p => setBitOf a p b) m

/-- The sources that the stage asserts on its pairs in its state (R339). -/
def stageSources (g : Nat) (s : State) : State :=
  let st := s.rd (Fld.GST_STATUS_STATE g)
  let stop := decide (st ≤ 2) || (decide (st = 6) && (s.stage g).stopped)
  let l := stagePairs s g
  settleTrips noPulse { s with pwm := { s.pwm with stageStop := maskSet s.pwm.stageStop l stop,
                                                   gridTrip := maskSet s.pwm.gridTrip l (decide (7 ≤ st)) } }

/-- Writes the references of stage `g` to its ports (R333, R356). -/
def writeRefs (g : Nat) (r : List Int) (s : State) : State :=
  let s := forEach [0, 1, 2, 3] (fun q s => s.setReg (Reg.GST_REF g q) (intW (r.getD q 0))) s
  let ports := (List.range 4).foldl (fun t q => Tab.set 0#32 t (4 * g + q) (intW (r.getD q 0))) s.loop.ports
  { s with loop := { s.loop with ports := ports } }

/-- Ride-through is over (R346): NORMAL, with RT_EXIT. A stage that leaves RAMP and RUN leaves it too (DEDUCED, assumption 106). -/
def rtExit (g : Nat) (s : State) : State :=
  if s.rd (Fld.GST_STATUS_RT_STATE g) = 0 then s else (s.wr (Fld.GST_STATUS_RT_STATE g) 0).logEv 0x13 0x0005 g

/-- A change of state (R339): STATE_EV, STAGE_STATE, the sources of the new state, references 0 outside STARTING to RUN, LIMIT only in RAMP and
RUN (R337). -/
def stageTo (g st : Nat) (s : State) : State :=
  if s.rd (Fld.GST_STATUS_STATE g) = st then s
  else
    let s := ((s.wr (Fld.GST_STATUS_STATE g) st).wr (Fld.GST_EVENTS_STATE_EV g) 1).logEv 0x13 0x0007 (g + st * 256)
    let q := s.stage g
    let s := if st = 2 ∨ st = 3 ∨ st = 4 ∨ st = 5 ∨ st = 6 then s else s.setStage g { q with lv := [], hv := [], fr := [] }
    let s := if st = 4 ∨ st = 5 then s else rtExit g (s.wr (Fld.GST_STATUS_LIMIT g) 0)
    let s := if st = 3 ∨ st = 4 ∨ st = 5 ∨ st = 6 then s else writeRefs g [0, 0, 0, 0] s
    stageSources g s

/-- CONNECT of stage `g` (R339, R343). -/
def stageConnect (g : Nat) (b : Bool) (s : State) : State :=
  if s.rdB (Fld.GST_STATUS_CONNECT g) = b then s
  else (s.setStage g { s.stage g with conn := 0 }).wrB (Fld.GST_STATUS_CONNECT g) b

/-- The codes of the trip causes whose state is TRIPPED, the others being FAULT (R342). -/
def tripState (cause : Nat) : Nat := if 1 ≤ cause ∧ cause ≤ 6 then 7 else 8

/-- A trip cause of R342 takes stage `g` to TRIPPED or FAULT; RT_POINT, here and in the log, is that of the last point that expired (R349,
R354). -/
def stageTrip (g cause point : Nat) (s : State) : State :=
  let s := when (decide (1 ≤ cause ∧ cause ≤ 4)) (fun s => s.wr (Fld.GST_STATUS_RT_POINT g) point) s
  let s := (s.wr (Fld.GST_STATUS_LAST_CAUSE g) cause).wr (Fld.GST_EVENTS_TRIP_EV g) 1
  let s := when (cause == 0x0A) (fun s => s.wr (Fld.GST_EVENTS_CONT_FAULT g) 1) s
  let s := s.logEv 0x13 0x0006 (g + cause * 256 + s.rd (Fld.GST_STATUS_RT_POINT g) * 65536)
  stageTo g (tripState cause) (stageConnect g false s)

/-- Stage `g` is in a state that R342 trips: CLOSING to STOPPING. -/
def tripsNow (s : State) (g : Nat) : Bool :=
  let st := s.rd (Fld.GST_STATUS_STATE g)
  decide (2 ≤ st ∧ st ≤ 6)

/-- STAGE_STOP and GRID_TRIP in a set of trip sources. -/
def ownSources : Nat := 2 ^ 26 + 2 ^ 27

/-- The sources other than some that are asserted on a pair now. -/
def otherTrips (s : State) (skip p : Nat) : Nat := tripLive 0 s p - (tripLive 0 s p &&& skip)

/-- Another trip is asserted on a pair of stage `g`, or one of its switching pairs has tripped (cause PWM, R342). -/
def pairTrouble (s : State) (g : Nat) : Bool :=
  let st := s.rd (Fld.GST_STATUS_STATE g)
  let switching := decide (4 ≤ st ∧ st ≤ 6) && !(s.stage g).stopped
  (stagePairs s g).any (fun p => decide (otherTrips s ownSources p &&& latchingMask s p ≠ 0)
    || (switching && decide (s.rd (Fld.PWM_STATUS_STATE p) = 3 ∧ s.rd (Fld.PWM_TRIP_SRC p) - (s.rd (Fld.PWM_TRIP_SRC p) &&& ownSources) ≠ 0)))

/-- The trip cause of stage `g` in this tick, lowest code first (R342): SYNC, ISLAND, PWM, SAFETY, DCLINK. -/
def stageCause (s : State) (g : Nat) : Option Nat :=
  if !s.rdB (Fld.GS_STATUS_ANG_OK g) || !s.rdB (Fld.GS_STATUS_LOCKED g) then some 5
  else if s.rdB Fld.ISL_STATUS_DISC then some 6
  else if pairTrouble s g then some 7
  else if s.rdB Fld.SAFE_STATUS_LOCKED then some 8
  else if s.rdB (Fld.SLOT_STATUS_HALTED (s.rd (Fld.GST_MAP_DCL_SLOT g))) then some 9
  else none

/-- A PU32 register value compared with a field in units of 0.0001 p.u.: their difference, scaled. -/
def puMinus (v : Int) (units : Nat) : Int := v * 10000 - units * pu1

/-- F of unit `u` compared with a field in units of 0.01 Hz. -/
def frMinus (f units : Nat) : Int := (f : Int) * 100 - units * 65536

/-- Every condition of R340 holds for stage `g`. -/
def mayConnect (s : State) (g : Nat) : Bool :=
  decide (s.rd Fld.GC_STAT_CODE_IN_FORCE ≠ 0) && s.rdB Fld.GC_STAT_SET_OK
    && s.rdB (Fld.GS_STATUS_LOCKED g) && s.rdB (Fld.GS_STATUS_LOCKED 8)
    && decide (0 ≤ puMinus (s.rdI (Fld.GS_VPH_MIN g)) (s.rd Fld.GC_EN_V_EN_V_LO))
    && decide (puMinus (s.rdI (Fld.GS_VPH_MAX g)) (s.rd Fld.GC_EN_V_EN_V_HI) ≤ 0)
    && decide (0 ≤ frMinus (s.rd (Fld.GS_FREQ g)) (s.rd Fld.GC_EN_F_EN_F_LO))
    && decide (frMinus (s.rd (Fld.GS_FREQ g)) (s.rd Fld.GC_EN_F_EN_F_HI) ≤ 0)
    && !s.rdB Fld.ISL_STATUS_DISC && !s.rdB Fld.SAFE_STATUS_LOCKED
    && (stagePairs s g).all (fun p => decide (otherTrips s (2 ^ 26) p = 0))

/-- The stage's pairs are free of every source but its own two (R339, FAULT). -/
def pairsFree (s : State) (g : Nat) : Bool :=
  (stagePairs s g).all (fun p => decide (otherTrips s ownSources p = 0))

/-- START (R339, R340): from OFF to WAIT_GRID, or refused; in Ring-only and while TICK_LOST is set a stage stays OFF. -/
def stageStart (g : Nat) (s : State) : State :=
  if s.rd (Fld.GST_STATUS_STATE g) ≠ 0 ∨ s.rdB Fld.SCHED_STATUS_TICK_LOST = true ∨ s.bit Fld.DOM_STATUS_ON 14 = false then s
  else if s.rd Fld.GC_STAT_CODE_IN_FORCE = 0 ∨ s.rdB Fld.GC_STAT_SET_OK = false then
    (s.wr (Fld.GST_EVENTS_START_REF g) 1).logEv 0x13 0x0008 g
  else stageTo g 1 (s.setStage g { s.stage g with delay := 0, reconnect := false })

/-- The references that stage `g` last wrote. -/
def lastRefs (s : State) (g : Nat) : List Int := (List.range 4).map (fun q => wInt (s.reg (Reg.GST_REF g q)))

/-- STOP (R341): to STOPPING from RAMP and RUN; straight to OFF before them. -/
def stageStop (g : Nat) (s : State) : State :=
  let st := s.rd (Fld.GST_STATUS_STATE g)
  if st = 4 ∨ st = 5 then
    stageTo g 6 (s.setStage g { s.stage g with stop := 0, stopRefs := lastRefs s g, stopped := false })
  else if st = 1 ∨ st = 2 ∨ st = 3 then stageTo g 0 (stageConnect g false s)
  else s

/-- RESET_FAULT (R339): from FAULT to OFF once CONT_FB = 0 and the pairs permit. -/
def stageResetFault (g : Nat) (s : State) : State :=
  if s.rd (Fld.GST_STATUS_STATE g) = 8 ∧ s.rdB (Fld.GST_STATUS_CONT_FB g) = false ∧ pairsFree s g = true then stageTo g 0 s
  else s

/-- A pending CMD is taken once (R338, R354). -/
def takeCmd (g : Nat) (s : State) : State :=
  let c := s.rd (Fld.GST_CTRL_CMD g)
  let s := s.wr (Fld.GST_CTRL_CMD g) 0
  match c with | 1 => stageStart g s | 2 => stageStop g s | 3 => stageResetFault g s | _ => s

/-! ### References (R334 to R337, R346, R347) -/

/-- The registers of stage `g` that the reference computation reads as they stand in the tick cycle (R334). -/
def snapRegs (g : Nat) : List Nat :=
  [Reg.GST_P_SET g, Reg.GST_Q_SET g, Reg.GST_PF_SET g, Reg.GST_I_MAX g, Reg.GST_QV g 0, Reg.GST_QV g 1, Reg.GST_QV g 2, Reg.GST_QV g 3]

/-- In the tick cycle the stages take these registers (R20, R334). -/
def stagesTake (s : State) : State :=
  forEach stages (fun g s =>
    let words := (snapRegs g).foldl (fun t a => Tab.set 0#32 t a (s.reg a)) []
    if s.rdB (Fld.GST_MAP_EN g) then s.setStage g { s.stage g with snap := words } else s) s

/-- A field of such a register in this tick. -/
def snapRd (s : State) (g : Nat) (f : FRef) : Nat := f.get (Tab.get 0#32 (s.stage g).snap f.addr)

/-- A signed field of such a register in this tick. -/
def snapI (s : State) (g : Nat) (f : FRef) : Int :=
  if snapRd s g f < 2 ^ (f.width - 1) then (snapRd s g f : Int) else (snapRd s g f : Int) - 2 ^ f.width

/-- V1g (R334). -/
def v1g (s : State) (g : Nat) : Int := max (s.rdI (Fld.GS_V1 g)) vFloor

/-- I_MAX as it acts (R355). -/
def iMax (s : State) (g : Nat) : Int := clampInt 0 (3 * 2 ^ 29) (snapI s g (Fld.GST_I_MAX g))

/-- P_ENTER (R335): 0 to 2.0 over twice ENTER_RAMP in RAMP; 2.0 in every other state. -/
def pEnter (s : State) (g : Nat) : Int :=
  if s.rd (Fld.GST_STATUS_STATE g) ≠ 4 ∨ s.rd Fld.GC_RAMP_ENTER_RAMP = 0 then 2 * pu1
  else min (2 * pu1) (roundDiv (2 * pu1 * (s.stage g).ramp) (s.rd Fld.GC_RAMP_ENTER_RAMP * 100000 * ticksPerFrame s))

/-- P_FREQ (R335): 2.0 while F does not exceed F_PTH. -/
def pFreq (s : State) (g : Nat) : Int :=
  match (s.stage g).pRef with
  | none => 2 * pu1
  | some p => if frMinus (s.rd (Fld.GS_FREQ g)) (s.rd Fld.GC_DROOP_F_PTH) ≤ 0 then 2 * pu1 else max 0 (p - roundDiv (p * frMinus (s.rd (Fld.GS_FREQ g)) (s.rd Fld.GC_DROOP_F_PTH) * 1000)
      (6553600 * fNom s g * s.rd Fld.GC_DROOP_DROOP))

/-- The active current demand over a voltage (R335). -/
def idDemand (s : State) (g : Nat) (v : Int) : Int :=
  let cap := min (snapI s g (Fld.GST_P_SET g)) (min (pEnter s g) (pFreq s g))
  let i := roundDiv (cap * pu1) v.natAbs
  let d := if s.rdB (Fld.GST_MAP_ACT_SRC g) then min (wInt (s.slot (s.rd (Fld.GST_MAP_DCL_SLOT g))).prevOut) i else i
  if s.rdB (Fld.GST_CTRL_IMPORT_EN g) then d else max d 0

/-- A point inserted in ascending order of voltage. -/
def insertPoint (p : Int × Int) : List (Int × Int) → List (Int × Int)
  | [] => [p]
  | q :: t => if p.1 < q.1 then p :: q :: t else q :: insertPoint p t

/-- The Q(V) curve at a voltage (R336): linear between points, flat outside them. -/
def qvCurve (v : Int) : List (Int × Int) → Int
  | [] => 0
  | [p] => p.2
  | p :: q :: t => if v ≤ p.1 then p.2
      else if v < q.1 then p.2 + roundDiv ((q.2 - p.2) * (v - p.1)) (q.1 - p.1).natAbs
      else qvCurve v (q :: t)

/-- The four Q(V) points in units of 2^-30, ascending (R336, R355). -/
def qvPoints (s : State) (g : Nat) : List (Int × Int) :=
  ((List.range 4).map (fun p => (roundDiv (snapRd s g (Fld.GST_QV_V g p) * pu1) 10000, roundDiv (snapI s g (Fld.GST_QV_Q g p) * pu1) 10000))).foldl
    (fun l p => insertPoint p l) []

/-- The reactive demand q (R336). -/
def qDemand (s : State) (g : Nat) (id : Int) : Int :=
  match s.rd (Fld.GST_CTRL_QMODE g) with
  | 1 =>
    let pf := snapI s g (Fld.GST_PF_SET g)
    let m := clampInt 858993459 pu1 pf.natAbs
    let q := roundDiv ((roundDiv (v1g s g * id) (2 ^ 30)).natAbs * (isqrt 31 (2 ^ 60 - m.natAbs * m.natAbs) : Int)) m.natAbs
    if pf < 0 then -q else q
  | 2 => qvCurve (s.stage g).qv (qvPoints s g)
  | _ => snapI s g (Fld.GST_Q_SET g)

/-- √(a² - b²), 0 where it is not real. -/
def remainder (a b : Int) : Int := isqrt 33 (a.natAbs * a.natAbs - b.natAbs * b.natAbs)

/-- The limited references outside ride-through (R337): id, iq, and whether a clamp acted. -/
def limitedRefs (s : State) (g : Nat) : Int × Int × Bool :=
  let m := iMax s g
  let lo := fun x : Int => if s.rdB (Fld.GST_CTRL_IMPORT_EN g) then -x else 0
  let idDem := idDemand s g (v1g s g)
  let iqDem := -(roundDiv (qDemand s g idDem * pu1) (v1g s g).natAbs)
  if s.rdB (Fld.GST_CTRL_PRIO g) then
    let iq := clampSym m iqDem
    let id := clampInt (lo (remainder m iq)) (remainder m iq) idDem
    (id, iq, decide (id ≠ idDem) || decide (iq ≠ iqDem))
  else
    let id := clampInt (lo m) m idDem
    let iq := clampSym (remainder m id) iqDem
    (id, iq, decide (id ≠ idDem) || decide (iq ≠ iqDem))

/-- VPH_MIN or VFAST lies below LV_ENTER plus some units of 0.0001 p.u. -/
def rtLow (s : State) (g units : Nat) : Bool :=
  decide (puMinus (s.rdI (Fld.GS_VPH_MIN g)) (s.rd Fld.GC_ENTER_LV_ENTER + units) < 0)
    || decide (puMinus (s.rdI (Fld.GS_VFAST g)) (s.rd Fld.GC_ENTER_LV_ENTER + units) < 0)

/-- Entry into LVRT, CEASE or HVRT (R346). -/
def rtEnter (g st : Nat) (s : State) : State :=
  ((s.wr (Fld.GST_STATUS_RT_STATE g) st).wr (Fld.GST_EVENTS_RT_EV g) 1).logEv 0x13 0x0004 (g + st * 256)

/-- RT_STATE for one tick of RAMP or RUN (R346); in RECOVERY id+ has reached its R337 value where it is no longer below it. -/
def rtStep (g : Nat) (s : State) : State :=
  let rt := s.rd (Fld.GST_STATUS_RT_STATE g)
  let cease := s.rdB Fld.GC_K_CEASE_EN && decide (puMinus (s.rdI (Fld.GS_VPH_MIN g)) (s.rd Fld.GC_CEASE_V_CEASE) < 0)
  let hold := fun s : State => s.setStage g { s.stage g with tRt := 0 }
  match rt with
  | 1 => if cease then rtEnter g 2 s
         else if !rtLow s g 200 then s.wr (Fld.GST_STATUS_RT_STATE g) 4 else s
  | 2 => if 0 ≤ puMinus (s.rdI (Fld.GS_VPH_MIN g)) (s.rd Fld.GC_CEASE_V_CEASE + 200) then rtEnter g 1 s else s
  | 3 => if puMinus (s.rdI (Fld.GS_VPH_MAX g) + roundDiv pu1 50) (s.rd Fld.GC_ENTER_HV_ENTER) ≤ 0
         then s.wr (Fld.GST_STATUS_RT_STATE g) 4 else s
  | _ => if rtLow s g 0 then rtEnter g (if cease then 2 else 1) (hold s)
         else if 0 < puMinus (s.rdI (Fld.GS_VPH_MAX g)) (s.rd Fld.GC_ENTER_HV_ENTER) then rtEnter g 3 (hold s)
         else if rt = 4 ∧ (limitedRefs s g).1 ≤ (s.stage g).idLast then rtExit g s
         else s

/-- The mean of a list, rounded. -/
def meanOf (l : List Int) : Int := if l.isEmpty then 0 else roundDiv (l.foldl (· + ·) 0) l.length

/-- The references of LVRT and HVRT (R347). -/
def rtRefs (s : State) (g : Nat) : List Int :=
  let q := s.stage g
  let v1 := s.rdI (Fld.GS_V1 g)
  let vrt := if q.tRt < 1000 * ticksPerFrame s then min v1 (meanOf q.vf) else v1
  let dv := vrt - q.v1Pre
  let diq := if roundDiv (s.rd Fld.GC_K_DB * pu1) 100 < dv.natAbs then roundDiv (s.rd Fld.GC_K_K1 * dv) 20 else 0
  let iq := q.iqPre + diq
  let x := s.unit g
  let v2a := roundDiv (x.x1a + x.x2b) 2
  let v2b := roundDiv (x.x1b - x.x2a) 2
  let th := s.rd (Fld.GS_THETA1 g)
  let vd2 := rotate v2a (-v2b) (cos60 th) (sin60 th)
  let vq2 := rotate v2b v2a (cos60 th) (sin60 th)
  let k2 := (s.rd Fld.GC_K_K2 : Int)
  let id2 := roundDiv (k2 * vq2) 20
  let iq2 := -(roundDiv (k2 * vd2) 20)
  let mn := roundDiv (k2 * s.rdI (Fld.GS_V2 g)) 20
  let mq : Int := iq.natAbs
  let m := iMax s g
  let sc := fun v : Int => if m < mq + mn then roundDiv (v * m) (mq + mn).natAbs else v
  let idDem := idDemand s g (max q.v1Pre vFloor)
  let mm : Int := remainder (max 0 (m - sc mn)) (sc iq)
  let id := clampInt (if s.rdB (Fld.GST_CTRL_IMPORT_EN g) then -mm else 0) mm idDem
  [id, sc iq, sc id2, sc iq2]

/-- The positive-sequence references turned by the angle of ISL_PHI (R394 of spec/12_islanding.md). -/
def turned (s : State) (id iq : Int) : List Int :=
  let a := s.rd Fld.ISL_PHI
  if a = 0 then [id, iq, 0, 0]
  else [roundDiv (id * cos60 a - iq * sin60 a) (2 ^ 60), roundDiv (id * sin60 a + iq * cos60 a) (2 ^ 60), 0, 0]

/-- One tick of the references of a stage in RAMP or RUN (R337, R346, R347); iq_pre is the iq+ of the port. -/
def runRefs (g : Nat) (s : State) : State :=
  let l := limitedRefs s g
  let q := s.stage g
  let flag := fun (b : Bool) (s : State) =>
    when b (fun s => s.wr (Fld.GST_EVENTS_LIMIT_EV g) 1) (s.wrB (Fld.GST_STATUS_LIMIT g) b)
  match s.rd (Fld.GST_STATUS_RT_STATE g) with
  | 0 =>
    let r := turned s l.1 l.2.1
    writeRefs g r (flag l.2.2 (s.setStage g { q with iqPre := r.getD 1 0, idLast := l.1 }))
  | 2 => writeRefs g [0, 0, 0, 0] (flag false (s.setStage g { q with tRt := q.tRt + 1, idLast := 0 }))
  | 4 =>
    let step := roundDiv (s.rd Fld.GC_CEASE_PREC_RATE * pu1 * 20) (100000000 * ticksPerFrame s)
    let id := if l.1 ≤ q.idLast then l.1 else min l.1 (q.idLast + step)
    writeRefs g [id, l.2.1, 0, 0] (flag l.2.2 (s.setStage g { q with idLast := id }))
  | _ =>
    let r := rtRefs s g
    writeRefs g r (flag false (s.setStage g { q with tRt := q.tRt + 1, idLast := r.getD 0 0 }))

/-- The references of STOPPING (R341): linearly to 0 over 100 ms. -/
def stopRefs (g : Nat) (s : State) : State :=
  let q := s.stage g
  let n := 5000 * ticksPerFrame s
  if q.stopped then writeRefs g [0, 0, 0, 0] s
  else writeRefs g (q.stopRefs.map (fun r => roundDiv (r * (n - q.stop : Nat)) n)) s

/-- The references of this tick (R333 to R337). -/
def stageRefs (g : Nat) (s : State) : State :=
  let st := s.rd (Fld.GST_STATUS_STATE g)
  let s := { s with loop := { s.loop with ports := Tab.set 0#32 s.loop.ports (56 + g) (s.reg (Reg.GS_V1 g)) } }
  if st = 4 ∨ st = 5 then runRefs g s
  else
    let s := s.wr (Fld.GST_STATUS_LIMIT g) 0
    if st = 6 then stopRefs g s else writeRefs g [0, 0, 0, 0] s

/-- One tick of a voltage point's timer (R345). -/
def pointTimer (on : Bool) (t : Tab Nat) (i : Nat) : Tab Nat := Tab.set 0 t i (if on then Tab.get 0 t i + 1 else 0)

/-- The timers of stage `g` advance by one tick (R339 to R347). -/
def stageTimers (g : Nat) (s : State) : State :=
  let st := s.rd (Fld.GST_STATUS_STATE g)
  let q := s.stage g
  let vmin := s.rdI (Fld.GS_VPH_MIN g)
  let vmax := s.rdI (Fld.GS_VPH_MAX g)
  let volt := decide (2 ≤ st ∧ st ≤ 6)
  let lv := if volt then (List.range 16).foldl (fun t i => pointTimer
    (decide (s.rd (Fld.GC_LV_V i) ≠ 0) && decide (puMinus vmin (s.rd (Fld.GC_LV_V i)) < 0)) t i) q.lv else []
  let hv := if volt then (List.range 16).foldl (fun t i => pointTimer
    (decide (s.rd (Fld.GC_HV_V i) ≠ 0) && decide (0 < puMinus vmax (s.rd (Fld.GC_HV_V i)))) t i) q.hv else []
  let tau := clampInt 100 60000 (s.rd (Fld.GST_QV_TAU g))
  let freed := decide (frMinus (s.rd (Fld.GS_FREQ g)) (s.rd Fld.GC_DROOP_F_PTH) ≤ 0)
  let s := when freed (fun s => s.wr (Fld.GST_STATUS_FR_ACTIVE g) 0) s
  s.setStage g { q with
    pRef := if freed then none else q.pRef,
    delay := if st = 1 ∧ mayConnect s g = true then q.delay + 1 else 0,
    conn := q.conn + 1, fb := if s.rdB (Fld.GST_STATUS_CONT_FB g) then q.fb + 1 else 0,
    clear := if st = 3 then q.clear + 1 else 0, ramp := if st = 4 then q.ramp + 1 else 0,
    stop := if st = 6 then q.stop + 1 else 0, lv := lv, hv := hv,
    vf := (s.rdI (Fld.GS_VFAST g) :: q.vf).take (50 * ticksPerFrame s),
    qv := q.qv + roundDiv ((s.rdI (Fld.GS_V1 g) - q.qv) * 20) (1000 * tau.toNat * ticksPerFrame s) }

/-- A stage in TRIPPED whose contactor is open goes on to WAIT_GRID (R339). -/
def stageReopen (g : Nat) (s : State) : State :=
  if s.rd (Fld.GST_STATUS_STATE g) = 7 ∧ s.rdB (Fld.GST_STATUS_CONT_FB g) = false then
    stageTo g 1 (s.setStage g { s.stage g with delay := 0, reconnect := true })
  else s

/-- The timer of a point has reached its time: kind 1 = LV, 2 = HV, 3 = UF, 4 = OF, the cause codes of R342 (R345). -/
def pointExpired (s : State) (g kind i : Nat) : Bool :=
  let q := s.stage g
  match kind with
  | 1 => decide (s.rd (Fld.GC_LV_V i) ≠ 0) && decide (0 < Tab.get 0 q.lv i) && decide (s.rd (Fld.GC_LV_T i) * 50 * ticksPerFrame s ≤ Tab.get 0 q.lv i)
  | 2 => decide (s.rd (Fld.GC_HV_V i) ≠ 0) && decide (0 < Tab.get 0 q.hv i) && decide (s.rd (Fld.GC_HV_T i) * 50 * ticksPerFrame s ≤ Tab.get 0 q.hv i)
  | 3 => decide (i < 2) && decide (s.rd (Fld.GC_F_F i) ≠ 0) && decide (0 < Tab.get 0 q.fr i) && decide (s.rd (Fld.GC_F_T i) * 500 ≤ Tab.get 0 q.fr i)
  | 4 => decide (i < 2) && decide (s.rd (Fld.GC_F_F (i + 2)) ≠ 0) && decide (0 < Tab.get 0 q.fr (i + 2))
      && decide (s.rd (Fld.GC_F_T (i + 2)) * 500 ≤ Tab.get 0 q.fr (i + 2))
  | _ => false

/-- CONT_FB has not followed CONNECT within 100 ms (R339, R341). -/
def contactorLate (s : State) (g : Nat) : Bool :=
  let st := s.rd (Fld.GST_STATUS_STATE g)
  let fb := s.rdB (Fld.GST_STATUS_CONT_FB g)
  let con := s.rdB (Fld.GST_STATUS_CONNECT g)
  decide (5000 * ticksPerFrame s ≤ (s.stage g).conn) && ((st == 2 && con && !fb) || (st == 6 && !con && fb))

/-- A timer of stage `g` trips it in this tick: RT_POINT_EXPIRY or CONTACTOR_TIMEOUT makes the trip (R338). -/
def timerTrips (s : State) (g : Nat) : Bool :=
  tripsNow s g && (contactorLate s g || [1, 2, 3, 4].any (fun kind => (List.range 16).any (pointExpired s g kind)))

/-- The trip checks of stage `g` in a tick, and then its pending CMD (R338): a trip wins, and the CMD is discarded. -/
def stageChecks (g : Nat) (s : State) : State :=
  let cause := if tripsNow s g then stageCause s g else none
  match cause with
  | some c => (stageTrip g c 0 s).wr (Fld.GST_CTRL_CMD g) 0
  | none => if timerTrips s g then s.wr (Fld.GST_CTRL_CMD g) 0 else takeCmd g s

/-- One tick of stage `g` after its unit's update (R338): trip checks, a pending CMD, ride-through, references. -/
def stageUpdate (g : Nat) (s : State) : State :=
  if !s.rdB (Fld.GST_MAP_EN g) then s
  else
    let s := stageChecks g (stageTimers g (stageReopen g s))
    let st := s.rd (Fld.GST_STATUS_STATE g)
    let s := if st = 4 ∨ st = 5 then rtStep g s else s
    stageRefs g s

/-- A CMD as the tick takes it (R338): trip checks, the CMD, and the references of the state it leads to. The times of the tick and the
references of RAMP and RUN are left to GS_UPDATE, which comes once in a tick (R22). -/
def stageTake (g : Nat) (s : State) : State :=
  if !s.rdB (Fld.GST_MAP_EN g) then s
  else
    let s := stageChecks g (stageReopen g s)
    let st := s.rd (Fld.GST_STATUS_STATE g)
    if st = 4 ∨ st = 5 then s else stageRefs g s

/-- GS_UPDATE (R22, R326, R338): the one update of unit `u` in this tick, and then that of stage `u`. -/
def execGsUpdate (u : Fin 9) (s : State) : Host.Outcome State Fault Refusal :=
  run (fun s => if unitOn s u.val && s.rdB Fld.SCHED_CFG_TICK_RUN && s.rdB Fld.CLK_STATUS_CTRL_LOCK && !(s.unit u.val).done then
      let s := unitUpdate u.val s
      let s := s.setUnit u.val { s.unit u.val with done := true }
      if u.val = 8 then s else stageUpdate u.val s
    else s) s

/-! ### Commands and events of a stage (R339 to R345) -/

/-- A CMD written to stage `g` and taken at the control tick (R338). -/
def stageCmd (i : Initiator) (g cmd : Nat) (s : State) : State :=
  writeAdmitted i (Reg.GST_CTRL g) (fun s => stageTake g (s.wr (Fld.GST_CTRL_CMD g) cmd)) s

/-- GRID_START (R339). -/
def execGridStart (i : Initiator) (g : Fin 8) (s : State) : Host.Outcome State Fault Refusal := run (stageCmd i g.val 1) s
/-- GRID_STOP (R341). -/
def execGridStop (i : Initiator) (g : Fin 8) (s : State) : Host.Outcome State Fault Refusal := run (stageCmd i g.val 2) s
/-- GRID_RESET_FAULT (R339). -/
def execGridResetFault (i : Initiator) (g : Fin 8) (s : State) : Host.Outcome State Fault Refusal := run (stageCmd i g.val 3) s

/-- RT_POINT_EXPIRY (R345): the timer of point `i` of a kind reaches its time. -/
def execRtPointExpiry (g : Fin 8) (kind : Fin 5) (i : Fin 16) (s : State) : Host.Outcome State Fault Refusal :=
  run (fun s => if tripsNow s g.val && pointExpired s g.val kind.val i.val then stageTrip g.val kind.val i.val s else s) s

/-- The delay that stage `g` waits out, in ticks (R340). -/
def connectDelay (s : State) (g : Nat) : Nat :=
  (if (s.stage g).reconnect then s.rd Fld.GC_DELAY_RECONNECT_DELAY else s.rd Fld.GC_DELAY_ENTER_DELAY) * 50000 * ticksPerFrame s

/-- CONNECT_DELAY_END (R340): the conditions have held for the delay. -/
def execConnectDelayEnd (g : Fin 8) (s : State) : Host.Outcome State Fault Refusal :=
  run (fun s => if s.rd (Fld.GST_STATUS_STATE g.val) = 1 ∧ mayConnect s g.val = true ∧ connectDelay s g.val ≤ (s.stage g.val).delay then
      stageTo g.val 2 (stageConnect g.val true s) else s) s

/-- STARTING (R339): STAGE_STOP is withdrawn and the pairs' clear requested; a refusal is FAULT with cause CLEAR. -/
def stageStarting (g : Nat) (s : State) : State :=
  let s := stageTo g 3 (s.setStage g { s.stage g with clear := 0 })
  let s := forEach (stagePairs s g) pairClear s
  if (stagePairs s g).any (fun p => s.rd (Fld.PWM_STATUS_STATE p) == 3) then stageTrip g 0x0B 0 s else s

/-- CONTACTOR_CLOSED (R339): CONT_FB = 1 has held for 20 ms in CLOSING. -/
def execContactorClosed (g : Fin 8) (s : State) : Host.Outcome State Fault Refusal :=
  run (fun s => if s.rd (Fld.GST_STATUS_STATE g.val) = 2 ∧ s.rdB (Fld.GST_STATUS_CONT_FB g.val) = true
        ∧ 1000 * ticksPerFrame s ≤ (s.stage g.val).fb then stageStarting g.val s else s) s

/-- CONTACTOR_TIMEOUT (R339, R341): CONT_FB has not followed CONNECT within 100 ms. -/
def execContactorTimeout (g : Fin 8) (s : State) : Host.Outcome State Fault Refusal :=
  run (fun s => if contactorLate s g.val then stageTrip g.val 0x0A 0 s else s) s

/-- RAMP_START (R339): 20 ms after the clear succeeded. -/
def execRampStart (g : Fin 8) (s : State) : Host.Outcome State Fault Refusal :=
  run (fun s => if s.rd (Fld.GST_STATUS_STATE g.val) = 3 ∧ 1000 * ticksPerFrame s ≤ (s.stage g.val).clear then
      stageTo g.val 4 (s.setStage g.val { s.stage g.val with ramp := 0, stopped := false }) else s) s

/-- RAMP_END (R339): P_ENTER has reached 2.0. -/
def execRampEnd (g : Fin 8) (s : State) : Host.Outcome State Fault Refusal :=
  run (fun s => if s.rd (Fld.GST_STATUS_STATE g.val) = 4 ∧ 2 * pu1 ≤ pEnter s g.val then stageTo g.val 5 s else s) s

/-- STOP_RAMP_END (R341): the references have reached 0: the pairs stop and CONNECT falls; OFF at once if CONT_FB is 0. -/
def execStopRampEnd (g : Fin 8) (s : State) : Host.Outcome State Fault Refusal :=
  run (fun s => if s.rd (Fld.GST_STATUS_STATE g.val) = 6 ∧ (s.stage g.val).stopped = false
        ∧ 5000 * ticksPerFrame s ≤ (s.stage g.val).stop then
      let s := stageSources g.val (s.setStage g.val { s.stage g.val with stopped := true })
      let s := writeRefs g.val [0, 0, 0, 0] (stageConnect g.val false s)
      if s.rdB (Fld.GST_STATUS_CONT_FB g.val) then s else stageTo g.val 0 s
    else s) s

/-- CONT_FB_CHANGE (R339, R341 to R343): CONT_FB of stage `g` follows the read-back of the output that drives its contactor. -/
def execContFbChange (g : Fin 8) (s : State) : Host.Outcome State Fault Refusal :=
  run (fun s =>
    let level := s.bit Fld.SOUT_STATE_SRB (s.rd (Fld.GST_MAP_CONT_OUT g.val))
    let fell := s.rdB (Fld.GST_STATUS_CONT_FB g.val) && !level
    let s := s.wrB (Fld.GST_STATUS_CONT_FB g.val) level
    let st := s.rd (Fld.GST_STATUS_STATE g.val)
    if fell && s.rdB (Fld.GST_STATUS_CONNECT g.val) && tripsNow s g.val then stageTrip g.val 8 0 s
    else if !level && decide (st = 6) && !s.rdB (Fld.GST_STATUS_CONNECT g.val) then stageTo g.val 0 s
    else if !level && decide (st = 7) then
      stageTo g.val 1 (s.setStage g.val { s.stage g.val with delay := 0, reconnect := true })
    else s) s

/-- A frame tick of stage `g` (R335, R345, R346): the frequency points' timers, P_REF, and V1_PRE. -/
def stageFrame (g : Nat) (s : State) : State :=
  if !s.rdB (Fld.GST_MAP_EN g) then s
  else
    let q := s.stage g
    let f := s.rd (Fld.GS_FREQ g)
    let fr := if tripsNow s g then (List.range 4).foldl (fun t i => pointTimer (decide (s.rd (Fld.GC_F_F i) ≠ 0)
      && (if i < 2 then decide (frMinus f (s.rd (Fld.GC_F_F i)) < 0) else decide (0 < frMinus f (s.rd (Fld.GC_F_F i))))) t i) q.fr else []
    let isOver := decide (0 < frMinus f (s.rd Fld.GC_DROOP_F_PTH)) && decide (s.rd Fld.GC_DROOP_DROOP ≠ 0)
    let pRef := if !isOver then none else match q.pRef with
      | some p => some p
      | none => some (roundDiv (v1g s g * wInt (s.reg (Reg.GST_REF g 0))) (2 ^ 30))
    let v1Pre := if s.rd (Fld.GST_STATUS_RT_STATE g) = 0 then q.v1Pre + roundDiv (s.rdI (Fld.GS_V1 g) - q.v1Pre) 50000 else q.v1Pre
    (s.setStage g { q with fr := fr, pRef := pRef, v1Pre := v1Pre }).wrB (Fld.GST_STATUS_FR_ACTIVE g) isOver

/-- In Ring-only and while TICK_LOST is set every stage is OFF (R339). -/
def stagesOff (s : State) : State :=
  forEach stages (fun g s => when (s.rdB (Fld.GST_MAP_EN g)) (fun s => stageTo g 0 (stageConnect g false s)) s) s

/-- Entry into Ring-only: every stage stops as an operator stop would (R75, R341). -/
def stagesStop (s : State) : State := forEach stages (fun g s => when (s.rdB (Fld.GST_MAP_EN g)) (stageStop g) s) s

/-- At an engine start a stage with AUTO = 1 starts (R339). -/
def stagesAuto (s : State) : State :=
  forEach stages (fun g s => when (s.rdB (Fld.GST_MAP_EN g) && s.rdB (Fld.GST_CTRL_AUTO g)) (stageStart g) s) s

/-- Every stage has come to rest: OFF, TRIPPED or FAULT. -/
def stagesAtRest (s : State) : Bool :=
  stages.all (fun g => !s.rdB (Fld.GST_MAP_EN g) || (let st := s.rd (Fld.GST_STATUS_STATE g); st == 0 || st == 7 || st == 8))

end Sys2Proof.Machine
end

