-- ==== Sys2Proof/Machine/Island.lean ====
section
/-!
DEFINITION. Machine/Island.lean: the islanding block (spec/12_islanding.md): publication, the phasor comparison, the mode,
the disconnect criteria, the fallback methods and the release.
-/
namespace Sys2Proof.Machine

/-! ### Angles and settings -/

/-- An ANG32 number read as signed (R14). -/
def signed32 (v : Int) : Int := let m := v % 2 ^ 32; if m < 2 ^ 31 then m else m - 2 ^ 32

/-- An ANG32 number is greater than some units of 0.01 degrees. -/
def angExceeds (a : Int) (units : Nat) : Bool := decide (units * 2 ^ 32 < a.natAbs * 36000)

/-- PUB_FRAMES, at least 1. -/
def pubFrames (s : State) : Nat := Nat.max 1 (s.rd Fld.ISL_CFG_PUB_FRAMES)
/-- MAX_AGE (R401). -/
def maxAge (s : State) : Nat := Nat.max 1 (s.rd Fld.ISL_TIME_MAX_AGE)
/-- MODE (R386). -/
def islMode (s : State) : Nat := s.rd Fld.ISL_STATUS_MODE
/-- Anchor `a` is bound (R399). -/
def bound (s : State) (a : Nat) : Bool := s.rdB (if a = 0 then Fld.ISL_CFG_ANC0_EN else Fld.ISL_CFG_ANC1_EN)
/-- The node number of anchor `a`. -/
def anchorId (s : State) (a : Nat) : Nat := s.rd (if a = 0 then Fld.ISL_ANC_ANC0_ID else Fld.ISL_ANC_ANC1_ID)
/-- DTT_RULE names anchor `a` (R388). -/
def dttNames (s : State) (a : Nat) : Bool := a == 0 || s.rdB Fld.ISL_CFG_DTT_RULE
/-- This node is an anchor (R378, R380, R381): its role says so, whatever EN and PUB are. -/
def isAnchor (s : State) : Bool := s.rdB Fld.CS_ROLE_ROLE_IN_FORCE

/-- An anchor at rest. -/
def restAnchor : Anchor :=
  { cmps := [], dNow := false, dBefore := false, armed := false, silent := false, cellAt := 0, seen := [], brkOpen := false, gridDead := false,
    staleAt := none }
/-- Anchor `a`. -/
def State.anc (s : State) (a : Nat) : Anchor := Tab.get restAnchor s.isl.anchors a
/-- Stores anchor `a`. -/
def State.setAnc (s : State) (a : Nat) (x : Anchor) : State := { s with isl := { s.isl with anchors := Tab.set restAnchor s.isl.anchors a x } }

/-- STATE of anchor `a` is shown (R404). -/
def showAnchor (a : Nat) (s : State) : State :=
  s.wr (Fld.ISL_ANC_ST_STATE a)
    (if !bound s a then 0 else if (s.anc a).armed then 3 else if (s.anc a).silent then 1 else 2)

/-! ### Publication (R378 to R381) -/

/-- An anchor cell of this node. -/
def ownCell (s : State) (dtt : Bool) (seq : Nat) : AncCell :=
  { ancId := nodeNo s, brkOpen := s.rdB Fld.ISL_PUB_BRK_OPEN, gridDead := s.rdB Fld.ISL_PUB_GRID_DEAD, unsynced := s.unsynced, dtt := dtt,
    seq := seq, fn := s.fn, angle := s.rd (Fld.GS_FT_ANGLE 8), v1 := s.rd (Fld.GS_FT_V1 8), freq := s.rd (Fld.GS_FT_FREQ 8),
    rocof := s.rd (Fld.GS_ROCOF 8) }

/-- PHASOR_PUBLISH (R378): the phasor cell of an anchor with PUB at its publication frames. -/
def execPhasorPublish (s : State) : Host.Outcome State Fault Refusal :=
  run (fun s => if isAnchor s && s.rdB Fld.ISL_CFG_PUB && s.rdB Fld.SCHED_CFG_TICK_RUN && s.fn % pubFrames s == s.rd Fld.ISL_MAP_PUB_PHASE % pubFrames s then
      let n := (s.rd Fld.ISL_PUB_SEQ + 1) % 256
      let s := (s.wr Fld.ISL_PUB_SEQ n).inc Fld.ISL_PUB_PUB_SENT
      floodCell (.anchor (ancBytes (ownCell s false n))) s
    else s) s

/-- A disconnect of some cause comes into force, or a later cause is logged only (R388, R390). -/
def disconnect (cause anchor : Nat) (s : State) : State :=
  if s.rdB Fld.ISL_STATUS_DISC then s.logEv 0x15 0x0001 (cause + 256 * anchor + 512)
  else
    let s := ((s.wr Fld.ISL_STATUS_DISC 1).wr Fld.ISL_STATUS_LAST_CAUSE cause).wr Fld.ISL_EVENTS_DISC_EV 1
    { s with isl := { s.isl with clear := 0 } }.logEv 0x15 0x0001 (cause + 256 * anchor)

/-- A cause applies (R388): it comes into force while no disconnect is, and a later one is logged once for as long as it applies. -/
def causeOnce (cause anchor : Nat) (s : State) : State :=
  if s.isl.causes.testBit cause && s.rdB Fld.ISL_STATUS_DISC then s
  else disconnect cause anchor { s with isl := { s.isl with causes := setBitOf s.isl.causes cause true } }

/-- Half of the nominal voltage (R380). -/
def halfPu : Int := 536870912

/-- BREAKER_CHANGE (R380, R381): the anchor looks at its breaker input and at its PCC unit: a rise of BRK_OPEN or GRID_DEAD is sent in a
breaker cell in each of the next 3 frames, and is a direct transfer trip for the anchor itself. -/
def execBreakerChange (s : State) : Host.Outcome State Fault Refusal :=
  run (fun s => if isAnchor s && s.rdB Fld.SCHED_CFG_TICK_RUN then
      let brk := !s.bit Fld.SIN_RUN (s.rd Fld.ISL_MAP_BRK_IN)
      let dead := !s.rdB (Fld.GS_STATUS_LOCKED 8) || decide (s.rdI (Fld.GS_FT_V1 8) < halfPu)
      let wasB := s.rdB Fld.ISL_PUB_BRK_OPEN
      let wasD := s.rdB Fld.ISL_PUB_GRID_DEAD
      let s := (s.wrB Fld.ISL_PUB_BRK_OPEN brk).wrB Fld.ISL_PUB_GRID_DEAD dead
      let s := when (brk != wasB) (fun s => s.logEv 0x15 0x0008 brk.toNat) s
      let opens := brk && !wasB
      let dies := dead && !wasD
      let s := if opens || dies then { s with isl := { s.isl with brkLeft := 3 } } else s
      if islMode s = 0 then s else when dies (causeOnce 2 0) (when opens (causeOnce 1 0) s)
    else s) s

/-- A breaker cell goes out in each of the 3 frames after the change (R381). -/
def breakerCells (s : State) : State :=
  if s.isl.brkLeft = 0 then s
  else floodCell (.anchor (ancBytes (ownCell s true (s.rd Fld.ISL_PUB_SEQ)))) { s with isl := { s.isl with brkLeft := s.isl.brkLeft - 1 } }

/-! ### Cells received and compared (R382 to R385) -/

/-- A cell from a bound anchor waits for the frame tick; copies of one already used are ignored (R382). -/
def anchorCellRx (c : AncCell) (s : State) : State :=
  if !s.rdB Fld.ISL_CFG_EN then s
  else match [0, 1].find? (fun a => bound s a && anchorId s a == c.ancId) with
    | none => s
    | some a =>
      let x := s.anc a
      if x.seen.contains (c.fn, c.dtt) then s
      else
        let age := fnDiff s.fn c.fn
        let own := if age < 256 then (match s.isl.hist[age]? with | some h => if h.2.2 then some h.1 else none | none => none) else none
        let s := s.setAnc a { x with seen := ((c.fn, c.dtt) :: x.seen).take 64 }
        { s with isl := { s.isl with cells := s.isl.cells ++ [{ anchor := a, cell := c, age := age, own := own }] } }

/-- ANCHOR_CELL_RX (R382). -/
def execAnchorCellRx (c : AncCell) (s : State) : Host.Outcome State Fault Refusal := run (anchorCellRx c) s

/-- What the comparisons of a frame showed for an anchor: drift beyond DRIFT_ANG, baseline beyond ABS_ANG, drift beyond half. -/
structure CmpFlags where
  drift : Bool
  base : Bool
  half : Bool
  deriving DecidableEq, Repr

/-- A cell that is too old is counted, and logged at most once per anchor per second (R383). -/
def staleCell (a age : Nat) (s : State) : State :=
  let s := s.inc Fld.ISL_RX_RX_STALE
  let due := match (s.anc a).staleAt with | some t => decide (50000 ≤ fnDiff s.fn t) | none => true
  if due then (s.setAnc a { s.anc a with staleAt := some s.fn }).logEv 0x15 0x0007 (256 * a + Nat.min 255 age) else s

/-- BASE follows δ with a time constant of 10 s over the frames since the last comparison (R384). -/
def baseStep (base delta : Int) (frames : Nat) : Int := signed32 (base + roundDiv (signed32 (delta - base) * Nat.min frames 500000) 500000)

/-- A valid comparison of anchor `a` (R383, R384). -/
def compare (a fn : Nat) (delta : Int) (s : State) : CmpFlags × State :=
  let x := s.anc a
  let d := (x.cmps.find? (fun c => fnDiff fn c.1 == 3 * pubFrames s)).map (fun c => signed32 (delta - c.2))
  let base := s.rdI (Fld.ISL_ANC_BASE a)
  let first := !x.armed || x.cmps.isEmpty
  let fl : CmpFlags :=
    { drift := (d.map (fun v => angExceeds v (s.rd Fld.ISL_THR_DRIFT_ANG))).getD false,
      base := !first && angExceeds (signed32 (delta - base)) (s.rd Fld.ISL_THR_ABS_ANG),
      half := (d.map (fun v => angExceeds (2 * v) (s.rd Fld.ISL_THR_DRIFT_ANG))).getD false }
  let since := match x.cmps with | c :: _ => fnDiff fn c.1 | [] => 0
  let base' := if first || s.rdB Fld.ISL_STATUS_DISC then delta else if fl.drift || fl.base then base else baseStep base delta since
  let s := s.setAnc a { x with cmps := ((fn, delta) :: x.cmps).filter (fun c => decide (fnDiff fn c.1 ≤ 4 * pubFrames s)),
                               dBefore := x.dNow, dNow := d.isSome }
  let s := (s.inc Fld.ISL_RX_RX_OK).wrI (Fld.ISL_ANC_DELTA a) delta
  let s := match d with | some v => s.wrI (Fld.ISL_ANC_DRIFT a) v | none => s
  (fl, s.wrI (Fld.ISL_ANC_BASE a) base')

/-- One arrived cell at the frame tick (R389, step 1). -/
def takeCell (acc : Tab CmpFlags × State) (c : CellIn) : Tab CmpFlags × State :=
  let none' : CmpFlags := ⟨false, false, false⟩
  let s := acc.2
  let a := c.anchor
  let s := s.setAnc a { s.anc a with silent := false, cellAt := s.fn, brkOpen := c.cell.brkOpen, gridDead := c.cell.gridDead }
  let s := (s.wr (Fld.ISL_ANC_ST_LAST_SEQ a) c.cell.seq).wr (Fld.ISL_ANC_ST_AGE a) (Nat.min 255 c.age)
  if maxAge s < c.age then (acc.1, staleCell a c.age s)
  else match c.own with
    | some th =>
      if s.unsynced || c.cell.unsynced then (acc.1, s)
      else
        let r := compare a c.cell.fn (signed32 ((th : Int) - c.cell.angle)) s
        let o := Tab.get none' acc.1 a
        (Tab.set none' acc.1 a ⟨o.drift || r.1.drift, o.base || r.1.base, o.half || r.1.half⟩, r.2)
    | none => (acc.1, s)

/-- ARMED of anchor `a` (R385). -/
def armEval (a : Nat) (s : State) : State :=
  let x := s.anc a
  let fresh := match x.cmps with | c :: _ => decide (fnDiff s.fn c.1 ≤ 2 * pubFrames s + maxAge s) | [] => false
  showAnchor a (s.setAnc a { x with armed := bound s a && fresh && (x.dNow || x.dBefore) })

/-- ANC_SILENT (R385): a bound anchor has delivered no cell for 3 × PUB_FRAMES + MAX_AGE frames. -/
def execAncSilent (a : Fin 2) (s : State) : Host.Outcome State Fault Refusal :=
  run (fun s => if islMode s ≠ 0 ∧ bound s a.val = true ∧ (s.anc a.val).silent = false
        ∧ 3 * pubFrames s + maxAge s ≤ fnDiff s.fn (s.anc a.val).cellAt then
      showAnchor a.val (((s.setAnc a.val { s.anc a.val with silent := true, armed := false }).wr Fld.ISL_EVENTS_SILENT_EV 1).logEv 0x15 0x0005 a.val)
    else s) s

/-! ### Mode (R386, R387) -/

/-- Entry into FALLBACK, with its reason; the times of the ROCOF criterion and of the release restart (R392, R396). -/
def toFallback (s : State) : State :=
  let why := if s.unsynced then 1 else if !s.rdB Fld.ISL_CFG_ANC_EN then 3 else 2
  let s := { s with isl := { s.isl with rocof := 0, clear := 0, phiLeft := 0 } }
  (((s.wr Fld.ISL_STATUS_MODE 1).wr Fld.ISL_STATUS_FB_REASON why).wr Fld.ISL_EVENTS_MODE_FB_EV 1).logEv 0x15 0x0003 why

/-- Entry into ANCHOR: the angle of the active method goes to 0 over 1 s (R394). -/
def toAnchor (a : Nat) (s : State) : State :=
  let s := { s with isl := { s.isl with clear := 0, phiFrom := s.rdI Fld.ISL_PHI, phiLeft := if s.rdI Fld.ISL_PHI = 0 then 0 else 50000 } }
  (((s.wr Fld.ISL_STATUS_MODE 2).wr Fld.ISL_STATUS_ACT_ANC a).wr Fld.ISL_EVENTS_MODE_ANC_EV 1).logEv 0x15 0x0004 a

/-- The mode and the active anchor of this frame tick (R386). -/
def modeEval (s : State) : State :=
  let armed := fun a => (s.anc a).armed
  let act := if armed 0 then 0 else 1
  if s.rdB Fld.ISL_CFG_ANC_EN && !s.unsynced && (armed 0 || armed 1) then
    if islMode s ≠ 2 then toAnchor act s
    else if s.rd Fld.ISL_STATUS_ACT_ANC = act then s
    else ((s.wr Fld.ISL_STATUS_ACT_ANC act).wr Fld.ISL_EVENTS_ANC_SWITCH_EV 1).logEv 0x15 0x0006 act
  else if islMode s = 1 then s else toFallback s

/-- DISC falls (R396). -/
def discFalls (s : State) : State :=
  ((s.wr Fld.ISL_STATUS_DISC 0).wr Fld.ISL_EVENTS_RELEASE_EV 1).logEv 0x15 0x0002 (s.rd Fld.ISL_STATUS_LAST_CAUSE)

/-- MODE OFF (R386): no disconnect is in force, its fall is recorded as every fall is (R396), and no command waits (R402); a FORCE_DISC
no longer awaits RELEASE (DEDUCED, assumption 107). -/
def toOff (s : State) : State :=
  let s := when (s.rdB Fld.ISL_STATUS_DISC) discFalls s
  ((((s.wr Fld.ISL_STATUS_MODE 0).wr Fld.ISL_STATUS_AFD_ON 0).wr Fld.ISL_STATUS_OP_FORCED 0).wr Fld.ISL_CTRL_CMD 0).wr Fld.ISL_PHI 0

/-- The block starts in FALLBACK with no comparison history (R387); with EN = 0 it is OFF, with no disconnect (R386). -/
def islandStart (s : State) : State :=
  let s := { s with isl := { s.isl with cells := [], anchors := [], causes := 0, brkLeft := 0 } }
  let s := forEach [0, 1] (fun a s => showAnchor a (if bound s a then s.setAnc a { restAnchor with cellAt := s.fn } else s)) s
  if s.rdB Fld.ISL_CFG_EN then toFallback s else toOff s

/-- Ticks do not run (R386, R397): the block is OFF, and no disconnect is in force. -/
def islandOff (s : State) : State :=
  toOff { s with isl := { s.isl with cells := [], anchors := [], hist := [], rocof := 0, afd := 0, clear := 0, causes := 0, phiLeft := 0, brkLeft := 0 } }

/-! ### Fallback criteria (R391 to R394) -/

/-- The frequency of the PCC unit less its nominal frequency, in units of 1/65,536 Hz. -/
def pccDeviation (s : State) : Int := (s.rd (Fld.GS_FT_FREQ 8) : Int) - fNom s 8 * 65536

/-- |F - F_NOM| exceeds some units of 0.01 Hz. -/
def freqExceeds (s : State) (units : Nat) : Bool := decide (units * 65536 < (pccDeviation s).natAbs * 100)

/-- |ROCOF| of the PCC unit exceeds some units of 0.01 Hz/s. -/
def rocofExceeds (s : State) (units : Nat) : Bool := decide (units * 65536 < (s.rdI (Fld.GS_ROCOF 8)).natAbs * 100)

/-- The vector-shift criterion over the values of the last 2C frames (R393). -/
def vshiftMet (s : State) : Bool :=
  let c := pubFrames s
  let h := s.isl.hist
  let w := (h.take (2 * c))
  if s.rdB Fld.ISL_CFG_VS_EN && decide (w.length = 2 * c) && w.all (fun x => x.2.2) then
    let f := ((w.drop c).foldl (fun n x => n + x.2.1) 0 : Nat)
    let pred := ((h[c]?.map (fun x => x.1)).getD 0 : Nat) + roundDiv (f * 131072) 100000
    angExceeds (signed32 (((h.head?.map (fun x => x.1)).getD 0 : Nat) - pred)) (s.rd Fld.ISL_FB_VS_LIM)
  else false

/-- ROCOF has exceeded its limit for ROCOF_T (R392). -/
def rocofDue (s : State) : Bool :=
  s.rdB Fld.ISL_CFG_ROCOF_EN && islMode s == 1 && decide (Nat.max 1 (50 * s.rd Fld.ISL_FB_TIME_ROCOF_T) ≤ s.isl.rocof)

/-- The frequency has been outside the window for AFD_T (R394). -/
def afdDue (s : State) : Bool := islMode s == 1 && s.rdB Fld.ISL_STATUS_AFD_ON && decide (Nat.max 1 (50 * s.rd Fld.ISL_FB_TIME_AFD_T) ≤ s.isl.afd)


/-- ROCOF_CRITERION (R388, R392). -/
def execRocofCriterion (s : State) : Host.Outcome State Fault Refusal :=
  run (fun s => if rocofDue s then causeOnce 5 0 s else s) s

/-- AFD_CRITERION (R388, R394): after ROCOF where both criteria are met, since causes are checked in ascending order of code. -/
def execAfdCriterion (s : State) : Host.Outcome State Fault Refusal :=
  run (fun s => if afdDue s then causeOnce 7 0 (if rocofDue s then causeOnce 5 0 s else s) else s) s

/-- The causes that the frame tick itself finds (R388), lowest code first: (code, anchor). The ROCOF and AFD criteria have their own commands, and
are taken here only where a higher code applies in the same frame tick. -/
def frameCauses (s : State) (cells : List CellIn) (fl : Tab CmpFlags) : List (Nat × Nat) :=
  let own := fun (f : FRef) => isAnchor s && s.rdB f
  let from' := fun (p : AncCell → Bool) => cells.find? (fun c => dttNames s c.anchor && p c.cell)
  let act := s.rd Fld.ISL_STATUS_ACT_ANC
  let x := Tab.get (⟨false, false, false⟩ : CmpFlags) fl act
  let vs := islMode s == 1 && vshiftMet s
  let forced := s.rd Fld.ISL_CTRL_CMD == 1
  (match from' (fun c => c.brkOpen) with | some c => [(1, c.anchor)] | none => if own Fld.ISL_PUB_BRK_OPEN then [(1, 0)] else [])
    ++ (match from' (fun c => c.gridDead) with | some c => [(2, c.anchor)] | none => if own Fld.ISL_PUB_GRID_DEAD then [(2, 0)] else [])
    ++ (if islMode s == 2 && x.drift then [(3, act)] else []) ++ (if islMode s == 2 && x.base then [(4, act)] else [])
    ++ (if rocofDue s && (vs || forced) then [(5, 0)] else []) ++ (if vs then [(6, 0)] else []) ++ (if afdDue s && forced then [(7, 0)] else [])

/-- The causes act: the first that applies comes into force, the others are later causes; one that no longer applies is forgotten. -/
def actCauses (l : List (Nat × Nat)) (s : State) : State :=
  let keep := (if rocofDue s then 32 else 0) + (if afdDue s then 128 else 0)
  let now := l.foldl (fun m c => setBitOf m c.1 true) 0
  let s := l.foldl (fun s c => causeOnce c.1 c.2 s) s
  { s with isl := { s.isl with causes := s.isl.causes &&& (now ||| keep) } }

/-! ### Operator commands and release (R396, R402) -/

/-- A CMD is taken (R402); it is ignored in MODE OFF. -/
def islTake (cmd : Nat) (s : State) : State :=
  let s := s.wr Fld.ISL_CTRL_CMD 0
  if islMode s = 0 then s
  else match cmd with
    | 1 => let s := disconnect 8 0 (s.wr Fld.ISL_STATUS_OP_FORCED 1)
           { s with isl := { s.isl with clear := 0 } }
    | 2 => s.wr Fld.ISL_STATUS_OP_FORCED 0
    | _ => s

/-- A command is written (R402): it waits for the frame tick, in place of one that waits (R5); it is ignored in MODE OFF. -/
def islCommand (cmd : Nat) (s : State) : State := if islMode s = 0 then s else s.wr Fld.ISL_CTRL_CMD cmd

/-- FORCE_DISC (R388, R402). -/
def execForceDisc (i : Initiator) (s : State) : Host.Outcome State Fault Refusal := run (writeAdmitted i Reg.ISL_CTRL (islCommand 1)) s
/-- RELEASE (R396, R402). -/
def execRelease (i : Initiator) (s : State) : Host.Outcome State Fault Refusal := run (writeAdmitted i Reg.ISL_CTRL (islCommand 2)) s

/-- The release conditions of this frame tick (R396). -/
def releaseOk (s : State) (cells : List CellIn) (fl : Tab CmpFlags) : Bool :=
  !s.rdB Fld.ISL_STATUS_OP_FORCED &&
  (if islMode s = 2 then
    let a := s.rd Fld.ISL_STATUS_ACT_ANC
    (s.anc a).armed && !(s.anc a).brkOpen && !(s.anc a).gridDead && !(Tab.get (⟨false, false, false⟩ : CmpFlags) fl a).half
  else
    !(cells.any (fun c => dttNames s c.anchor && (c.cell.brkOpen || c.cell.gridDead))) && s.rdB (Fld.GS_STATUS_LOCKED 8)
      && decide (2 * (s.rdI (Fld.GS_ROCOF 8)).natAbs * 100 ≤ s.rd Fld.ISL_FB_ROCOF_LIM * 65536)
      && decide (2 * (pccDeviation s).natAbs * 100 ≤ s.rd Fld.ISL_AFD_AFD_FLIM * 65536))

/-- CLR_DELAY in frames (R401). -/
def clrFrames (s : State) : Nat := 5000 * Nat.max 1 (s.rd Fld.ISL_TIME_CLR_DELAY)

/-- ISL_RELEASE (R396): the conditions have held for CLR_DELAY. -/
def execIslRelease (s : State) : Host.Outcome State Fault Refusal :=
  run (fun s => if s.rdB Fld.ISL_STATUS_DISC && decide (islMode s ≠ 0 ∧ clrFrames s ≤ s.isl.clear) then
      discFalls s
    else s) s

/-- φ and AFD_ON of this frame tick (R394), as ANG32: CF0 in 0.05°, K_AFD in 0.1°/Hz, PHI_MAX in 0.1°. -/
def phiEval (s : State) : State :=
  if islMode s = 1 then
    if s.rdB Fld.ISL_CFG_AFD_EN then
      let v := roundDiv ((s.rdI Fld.ISL_AFD_CF0 * 65536 + 2 * s.rd Fld.ISL_AFD_K_AFD * pccDeviation s) * 2 ^ 32) (20 * 65536 * 360)
      (s.wrI Fld.ISL_PHI (clampSym (roundDiv (s.rd Fld.ISL_AFD_PHI_MAX * 2 ^ 32) 3600) v)).wr Fld.ISL_STATUS_AFD_ON 1
    else (s.wr Fld.ISL_PHI 0).wr Fld.ISL_STATUS_AFD_ON 0
  else
    let left := s.isl.phiLeft - 1
    let s := { s with isl := { s.isl with phiLeft := left } }
    (s.wrI Fld.ISL_PHI (roundDiv (s.isl.phiFrom * left) 50000)).wrB Fld.ISL_STATUS_AFD_ON (decide (0 < left))

/-- The block's evaluation at a frame tick, in the order of R389; not while it is OFF. -/
def islandFrame (s : State) : State :=
  let h := (s.rd (Fld.GS_FT_ANGLE 8), s.rd (Fld.GS_FT_FREQ 8), s.rdB (Fld.GS_STATUS_LOCKED 8))
  let s := { s with isl := { s.isl with hist := (h :: s.isl.hist).take 4001 } }
  let s := breakerCells s
  if islMode s = 0 then s
  else
    let cells := s.isl.cells
    let r := cells.foldl takeCell ([], { s with isl := { s.isl with cells := [] } })
    let s := modeEval (armEval 1 (armEval 0 r.2))
    let s := { s with isl := { s.isl with
      rocof := if rocofExceeds s (s.rd Fld.ISL_FB_ROCOF_LIM) then s.isl.rocof + 1 else 0,
      afd := if s.rdB Fld.ISL_STATUS_AFD_ON && freqExceeds s (s.rd Fld.ISL_AFD_AFD_FLIM) then s.isl.afd + 1 else 0 } }
    let s := actCauses (frameCauses s cells r.1) s
    let s := if s.rd Fld.ISL_CTRL_CMD = 0 then s else islTake (s.rd Fld.ISL_CTRL_CMD) s
    let s := { s with isl := { s.isl with clear := if releaseOk s cells r.1 then s.isl.clear + 1 else 0 } }
    phiEval s

end Sys2Proof.Machine
end

