-- ==== Sys2Proof/Machine/Meter.lean ====
section
/-!
DEFINITION. Machine/Meter.lean: energy metering and pulse I/O (spec/16_metering.md). Accumulators are integers in units of
2^-32 mWh, mvarh or pulses (R490); a record is latched by INTERVAL_LATCH at the frame tick that makes it due.
-/
namespace Sys2Proof.Machine

/-! ### Hidden state and identifiers -/

/-- A channel at rest. -/
def restChan : MeterChan :=
  { last := none, run := 0, done := false, start := [], nsamp := 0, filled := 0, v1Sum := 0, fSum := 0, frames := 0 }
/-- A pulse input at rest. -/
def restPin : PulseIn := { raw := true, run := 0, known := false, start := 0, inv := 0 }
/-- A pulse output at rest. -/
def restPout : PulseOut := { residue := 0, phase := none }

/-- The nine channels, the sixteen pulse inputs and the eight pulse outputs. -/
def channels : List Nat := List.range 9
/-- The sixteen pulse inputs. -/
def pulseIns : List Nat := List.range 16
/-- The eight pulse outputs. -/
def pulseOuts : List Nat := List.range 8

/-- The hidden part of channel `m`. -/
def State.chan (s : State) (m : Nat) : MeterChan := Tab.get restChan s.meter.chans m
/-- Stores the hidden part of channel `m`. -/
def State.setChan (s : State) (m : Nat) (q : MeterChan) : State :=
  { s with meter := { s.meter with chans := Tab.set restChan s.meter.chans m q } }
/-- The hidden part of pulse input `n`. -/
def State.pin (s : State) (n : Nat) : PulseIn := Tab.get restPin s.meter.pins n
/-- Stores the hidden part of pulse input `n`. -/
def State.setPin (s : State) (n : Nat) (q : PulseIn) : State :=
  { s with meter := { s.meter with pins := Tab.set restPin s.meter.pins n q } }
/-- The hidden part of pulse output `j`. -/
def State.pout (s : State) (j : Nat) : PulseOut := Tab.get restPout s.meter.outs j
/-- Stores the hidden part of pulse output `j`. -/
def State.setPout (s : State) (j : Nat) (q : PulseOut) : State :=
  { s with meter := { s.meter with outs := Tab.set restPout s.meter.outs j q } }

/-- The accumulator of an ID (R503), in units of 2^-32. -/
def State.acc (s : State) (id : Nat) : Int := Tab.get 0 s.meter.acc id
/-- Stores an accumulator. -/
def State.setAcc (s : State) (id : Nat) (v : Int) : State := { s with meter := { s.meter with acc := Tab.set 0 s.meter.acc id v } }

/-- The integer part of an accumulator. -/
def wholeOf (v : Int) : Int := v / 2 ^ 32

/-- The configuration byte of ACC_k of channel m (R506); of a pulse input, its EN and UNIT (R510). -/
def accByte (s : State) (id : Nat) : Nat :=
  if id < 0x24 then (s.reg (Reg.MTR_ACC_CFG (id / 4))).toNat / 2 ^ (8 * (id % 4)) % 256
  else if 0x40 ≤ id ∧ id < 0x50 then 128 * s.rd (Fld.PIN_CFG_EN (id - 0x40)) + s.rd (Fld.PIN_CFG_UNIT (id - 0x40)) + 4
  else 0

/-- The accumulator of an ID is enabled. -/
def accEn (s : State) (id : Nat) : Bool := decide (128 ≤ accByte s id)
/-- QTY of ACC_k: true = Q. -/
def accQty (s : State) (id : Nat) : Bool := (accByte s id).testBit 2
/-- KIND of an accumulator; a pulse input's is ABSOLUTE (R498). -/
def accKind (s : State) (id : Nat) : Nat := if id < 0x24 then accByte s id % 4 else 3

/-- The field bit that shows SAT of an accumulator (R506, R510). -/
def accSat (s : State) (id : Nat) : Bool :=
  if id < 0x24 then s.bit (Fld.MTR_STATUS_SAT (id / 4)) (id % 4) else s.rdB (Fld.PIN_ST_SAT (id - 0x40))

/-- Writes SAT of an accumulator. -/
def setSat (id : Nat) (b : Bool) (s : State) : State :=
  if id < 0x24 then s.wrBit (Fld.MTR_STATUS_SAT (id / 4)) (id % 4) b else s.wrB (Fld.PIN_ST_SAT (id - 0x40)) b

/-- A reason of R494 arises for channel `m`: its mask enters INV_NOW. -/
def chanReason (m mask : Nat) (s : State) : State := s.wr (Fld.MTR_STATUS_INV_NOW m) (s.rd (Fld.MTR_STATUS_INV_NOW m) ||| mask)
/-- A reason of R494 arises for pulse input `n`. -/
def pinReason (n mask : Nat) (s : State) : State := s.setPin n { s.pin n with inv := (s.pin n).inv ||| mask }

/-- The used channels and pulse inputs. -/
def chansOn (s : State) : List Nat := channels.filter (fun m => s.rdB (Fld.MTR_CFG_EN m))
/-- The used pulse inputs. -/
def pinsOn (s : State) : List Nat := pulseIns.filter (fun n => s.rdB (Fld.PIN_CFG_EN n))

/-- A reason arises for every used channel and pulse input. -/
def meterInvalidAll (mask : Nat) (s : State) : State :=
  forEach (pinsOn s) (fun n => pinReason n mask) (forEach (chansOn s) (fun m => chanReason m mask) s)

/-- A reason arises for every used pulse input (R494, bank 5). -/
def pulseInvalid (mask : Nat) (s : State) : State := forEach (pinsOn s) (fun n => pinReason n mask) s

/-- Bank 5 is off (R497): no level of any pulse input has been accepted since. -/
def pinsForget (s : State) : State := forEach pulseIns (fun n s => s.setPin n { s.pin n with raw := true, run := 0, known := false }) s

/-- The block runs: CT_SUP is on and the control PLL is locked. -/
def meterRuns (s : State) : Bool := s.bit Fld.DOM_STATUS_ON 13 && s.rdB Fld.CLK_STATUS_CTRL_LOCK

/-! ### Accumulators (R491, R492) and pulse outputs (R500) -/

/-- The limits of an accumulator's integer part by its kind (R492). -/
def accLow (kind : Nat) : Int := if kind = 2 then -(2 ^ 47) else 0
/-- The upper limit (R492). -/
def accHigh (kind : Nat) : Int := if kind = 2 then 2 ^ 47 - 1 else 2 ^ 48 - 1

/-- The increment that a kind adds of an increment e (R491). -/
def accIncrement (kind : Nat) (e : Int) : Int :=
  match kind with | 0 => if 0 ≤ e then e else 0 | 1 => if e < 0 then -e else 0 | 2 => e | _ => e.natAbs

/-- A guard overflow (R492): the limit that was passed, the fraction zeroed; SAT, the event, and the log once an episode. -/
def guardOverflow (id : Nat) (limit : Int) (s : State) : State :=
  let s := (setSat id true (s.setAcc id (limit * 2 ^ 32))).logEv 0x19 0x0002 id
  if id < 0x24 then s.wrBit (Fld.MTR_EVENTS_GUARD_OVF (id / 4)) (id % 4) true else s.wr (Fld.PIN_ST_GUARD_OVF (id - 0x40)) 1

/-- An accumulator takes an increment, unless it is saturated (R492). -/
def accAdd (id : Nat) (inc : Int) (s : State) : State :=
  if accSat s id then s
  else
    let v := s.acc id + inc
    let k := accKind s id
    if wholeOf v < accLow k then guardOverflow id (accLow k) s
    else if accHigh k < wholeOf v then guardOverflow id (accHigh k) s
    else s.setAcc id v

/-- Pulses join PENDING; beyond 255 they are lost, with OVF, logged once an episode (R501), which the clear
of OVF ends (DESIGN CHOICE, assumption 117). -/
def poutPend (j n : Nat) (s : State) : State :=
  let p := s.rd (Fld.POUT_ST_PENDING j)
  let lost := p + n - 255
  let s := s.wr (Fld.POUT_ST_PENDING j) (Nat.min 255 (p + n))
  if lost = 0 then s
  else
    let s := if s.rdB (Fld.POUT_ST_OVF j) then s else s.logEv 0x19 0x0007 j
    (s.incBy (Fld.POUT_CNT_LOST j) lost).wr (Fld.POUT_ST_OVF j) 1

/-- One pulse of KC impulses per kWh, in the residue's units. -/
def pulseUnit : Int := 1000000 * 2 ^ 32

/-- Output `j` takes the increment of its source at a sample (R500). -/
def poutFeed (j : Nat) (inc : Int) (s : State) : State :=
  let q := s.pout j
  let r := q.residue + inc * s.rd (Fld.POUT_KC j)
  let n := (r / pulseUnit).toNat
  let s := s.setPout j { q with residue := r - n * pulseUnit }
  if n = 0 then s else poutPend j n s

/-- Output `j` emits (R500): it is used, and its source is enabled and not SIGNED. -/
def poutOn (s : State) (j : Nat) : Bool :=
  let id := s.rd (Fld.POUT_CFG_SRC_CH j) * 4 + s.rd (Fld.POUT_CFG_SRC_ACC j)
  s.rdB (Fld.POUT_CFG_EN j) && decide (s.rd (Fld.POUT_CFG_SRC_CH j) < 9) && accEn s id && accKind s id != 2

/-- The used outputs that a source of kind EXPORT, IMPORT or ABSOLUTE feeds (R500). -/
def fedBy (s : State) (id : Nat) : List Nat :=
  pulseOuts.filter (fun j => poutOn s j && decide (s.rd (Fld.POUT_CFG_SRC_CH j) * 4 + s.rd (Fld.POUT_CFG_SRC_ACC j) = id))

/-! ### The meter sample (R487 to R490) -/

/-- Input `x` of channel `m` in PU32, by the formula of R286 with the channel's own figures (R487). -/
def meterInput (s : State) (m x : Nat) : Int :=
  let c := s.rd (Fld.MTR_IN_CORE m x)
  let e := s.rd (Fld.MTR_IN_ENTRY m x)
  sat32 (roundDiv (((s.rd (Fld.ADC_RESULT_VALUE c e) : Int) - s.rd (Fld.MTR_CAL_OFFS m x)) * wInt (s.reg (Reg.MTR_CAL_GAIN m x)) * 4)
    (2 ^ s.rd (Fld.MTR_CAL_SHIFT m x)))

/-- All six results were written in this tick with VALID = 1, FROZEN = 0 and OW = 0 (R488). -/
def sampleUsable (s : State) (m : Nat) : Bool :=
  (List.range 6).all (fun x =>
    let c := s.rd (Fld.MTR_IN_CORE m x)
    let e := s.rd (Fld.MTR_IN_ENTRY m x)
    resultUsable s (c, e) && !s.rdB (Fld.ADC_RESULT_OW c e))

/-- All six cores of a channel are powered. -/
def coresPowered (s : State) (m : Nat) : Bool :=
  (List.range 6).all (fun x => decide (s.rd (Fld.ADC_CORE_STATUS_STATE (s.rd (Fld.MTR_IN_CORE m x))) ≠ 0))

/-- P and Q of a usable sample, in internal-state arithmetic (R287), each narrowed to PU32 (R489). -/
def samplePQ (s : State) (m : Nat) : Int × Int :=
  let v := fun x => meterInput s m x
  let p := add40 (add40 (mul40 (v 0) (v 3)) (mul40 (v 1) (v 4))) (mul40 (v 2) (v 5))
  let q := add40 (add40 (mul40 (add40 (v 1) (-(v 2))) (v 3)) (mul40 (add40 (v 2) (-(v 0))) (v 4))) (mul40 (add40 (v 0) (-(v 1))) (v 5))
  let p := sat32 (sat40 (roundDiv (2 * p) 3))
  let q := sat32 (sat40 (roundDiv (2 * q * 2 ^ 40) (3 * sqrt3.toNat)))
  if s.rdB (Fld.MTR_CFG_DIR m) then (sat32 (-p), sat32 (-q)) else (p, q)

/-- The energy increment of a per-unit power, in units of 2^-32 (R490). -/
def energyOf (s : State) (m : Nat) (p : Int) : Int :=
  roundDiv (p * s.rd (Fld.MTR_PBASE m) * 4) (180000 * ticksPerFrame s)

/-- The accumulators of channel `m` and their outputs take P and Q (R490, R491). -/
def integrate (m : Nat) (pq : Int × Int) (s : State) : State :=
  let s := forEach [0, 1, 2, 3] (fun k s =>
    let id := 4 * m + k
    if accEn s id then
      let inc := accIncrement (accKind s id) (energyOf s m (if accQty s id then pq.2 else pq.1))
      accAdd id inc (forEach (fedBy s id) (fun j => poutFeed j inc) s)
    else s) s
  let s := s.setChan m { s.chan m with nsamp := (s.chan m).nsamp + 1 }
  s.wr (Fld.MTR_STATUS_ACTIVE m) 1

/-- A sample that integrates nothing (R488, R494). -/
def integrateNone (m : Nat) (s : State) : State :=
  chanReason m (if coresPowered s m then 0x02 else 0x22) ((s.wr (Fld.MTR_STATUS_ACTIVE m) 0).wr (Fld.MTR_STATUS_HOLDING m) 0)

/-- A filled sample (R488, R494). -/
def integrateFilled (m : Nat) (pq : Int × Int) (s : State) : State :=
  let q := s.chan m
  let s := s.setChan m { q with run := q.run + 1, filled := q.filled + 1 }
  let s := countEv 0x088 m 1 ((integrate m pq s).wr (Fld.MTR_STATUS_HOLDING m) 1)
  if s.rd (Fld.MTR_CFG_FILL_MAX m) < (s.chan m).filled then chanReason m 0x02 s else s

/-- The sample of channel `m` in a control tick (R488, R489). -/
def meterSample (m : Nat) (s : State) : State :=
  let q := s.chan m
  let s := s.setChan m { q with done := true }
  let s := if sampleUsable s m then
      let pq := samplePQ s m
      let s := s.setChan m { s.chan m with last := some pq, run := 0 }
      let s := ((s.wrI (Fld.MTR_P m) pq.1).wrI (Fld.MTR_Q m) pq.2).wr (Fld.MTR_STATUS_HOLDING m) 0
      if s.rd (Fld.MTR_PBASE m) = 0 then integrateNone m s else integrate m pq s
    else match q.last with
      | some pq => if coresPowered s m && s.rdB Fld.SCHED_CFG_TICK_RUN && decide (q.run < 16 ∧ s.rd (Fld.MTR_PBASE m) ≠ 0) then integrateFilled m pq s
                   else integrateNone m (s.setChan m { s.chan m with run := q.run + 1 })
      | none => integrateNone m s
  if [0, 1, 2, 3].any (fun k => accEn s (4 * m + k) && accSat s (4 * m + k)) then chanReason m 0x01 s else s

/-- METER_SAMPLE (R488): the sample of channel `m` in this control tick. -/
def execMeterSample (m : Fin 9) (s : State) : Host.Outcome State Fault Refusal :=
  run (fun s => if meterRuns s && s.rdB Fld.SCHED_CFG_TICK_RUN && s.rdB (Fld.MTR_CFG_EN m.val) && !(s.chan m.val).done then
      meterSample m.val s else s) s

/-- A new control tick: every channel may form a sample again. -/
def meterTick (s : State) : State :=
  forEach (chansOn s) (fun m s => if (s.chan m).done then s.setChan m { s.chan m with done := false } else s) s

/-! ### Intervals (R493 to R495) -/

/-- INT_LEN as it acts (R509). -/
def intLen (s : State) : Nat := Nat.min 3600 (Nat.max 1 (s.rd Fld.MTR_INT_CFG_INT_LEN))

/-- The frame is an interval boundary (R493). -/
def boundary (s : State) : Bool := decide (s.fn % (intLen s * 50000) = 0)

/-- The delta of an accumulator over the running interval, as a 64-bit two's-complement number. -/
def deltaOf (s : State) (id : Nat) (start : Int) : Nat := ofInt 64 (wholeOf (s.acc id) - start)

/-- A record that is latched over an unread one (R493). -/
def recOver (unread : Bool) (f : FRef) (id : Nat) (s : State) : State :=
  if unread then (s.wr f 1).logEv 0x19 0x0006 id else s

/-- The record of channel `m` is latched with extra reasons, and its next interval begins (R493, R494). -/
def latchChan (m extra next : Nat) (s : State) : State :=
  let q := s.chan m
  let inv := s.rd (Fld.MTR_STATUS_INV_NOW m) ||| extra
  let s := recOver (s.rdB (Fld.MTR_REC_NEW m)) (Fld.MTR_EVENTS_INT_OVR m) (0x80 + m) s
  let w := [0, 1, 2, 3].foldl (fun t k => Tab.set 0 t (Reg.MTR_DELTA_LO m k) (deltaOf s (4 * m + k) (Tab.get 0 q.start k))) s.meter.wide
  let s := { s with meter := { s.meter with wide := Tab.set 0 w (Reg.MTR_END_LO m) s.fn } }
  let s := ((s.wr (Fld.MTR_REC_NEW m) 1).wr (Fld.MTR_REC_INV m) inv).wr (Fld.MTR_EVENTS_INT_EV m) 1
  let s := ((s.wr (Fld.MTR_NSAMP m) q.nsamp).wr (Fld.MTR_FILLED m) q.filled)
  let s := if q.frames = 0 then (s.wrFree (Fld.MTR_V1_MEAN m)).wrFree (Fld.MTR_F_MEAN m)
    else (s.wrI (Fld.MTR_V1_MEAN m) (roundDiv q.v1Sum q.frames)).wrI (Fld.MTR_F_MEAN m) (roundDiv q.fSum q.frames)
  let s := if inv = 0 then s else (s.wr (Fld.MTR_EVENTS_INVALID_EV m) 1).logEv 0x19 0x0001 (0x80 + m + inv * 256)
  let start := [0, 1, 2, 3].foldl (fun t k => Tab.set 0 t k (wholeOf (s.acc (4 * m + k)))) []
  let nx := Tab.get (0, 0, 0) s.meter.next m
  let has := s.meter.next.any (fun e => e.1 == m)
  let s := s.setChan m { s.chan m with start := start, nsamp := 0, filled := 0, v1Sum := nx.1, fSum := nx.2.1, frames := has.toNat }
  s.wr (Fld.MTR_STATUS_INV_NOW m) (next ||| nx.2.2)

/-- The record of pulse input `n` is latched (R498). -/
def latchPin (n extra next : Nat) (s : State) : State :=
  let q := s.pin n
  let inv := q.inv ||| extra
  let s := recOver (s.rdB (Fld.PIN_ST_NEW n)) (Fld.PIN_ST_INT_OVR n) (0x40 + n) s
  let s := { s with meter := { s.meter with wide := Tab.set 0 s.meter.wide (Reg.PIN_DELTA_LO n) (deltaOf s (0x40 + n) q.start) } }
  let s := (s.wr (Fld.PIN_ST_NEW n) 1).wr (Fld.PIN_ST_INV n) inv
  let s := if inv = 0 then s else s.logEv 0x19 0x0001 (0x40 + n + inv * 256)
  s.setPin n { s.pin n with start := wholeOf (s.acc (0x40 + n)), inv := next }

/-- Every record is latched (R493): SAT and powering reasons have been collected as they arose. -/
def latchAll (extra next : Nat) (s : State) : State :=
  let s := forEach (chansOn s) (fun m => latchChan m extra next) s
  let s := forEach (pinsOn s) (fun n => latchPin n extra (next ||| s.meter.nextPins)) s
  { s with meter := { s.meter with due := none, next := [], nextPins := 0 } }

/-! ### Clear and preset (R495) -/

/-- The address of the LO register of an accumulator (R507, R510). -/
def accLoAddr (id : Nat) : Nat := if id < 0x24 then Reg.MTR_ACC_LO (id / 4) (id % 4) else Reg.PIN_ACC_LO (id - 0x40)

/-- An accumulator takes a value by command: SAT and fraction are zeroed, and the interval carries CONFIG (R494, R495). -/
def accLoad (id : Nat) (v : Int) (s : State) : State :=
  let s := setSat id false (s.setAcc id (v * 2 ^ 32))
  if id < 0x24 then chanReason (id / 4) 0x40 s else pinReason (id - 0x40) 0x40 s

/-- The 64-bit preset value as a number of the accumulator's kind. -/
def presetValue (s : State) (id : Nat) : Int :=
  let v := s.rd64 Fld.MTR_PRESET_LO Fld.MTR_PRESET_HI
  if accKind s id = 2 then (BitVec.ofNat 64 v).toInt else v

/-- The value that CMD of MTR_CMD gives an accumulator: 1 = CLEAR, 2 = PRESET (R509). -/
def cmdValue (s : State) (cmd id : Nat) : Int := if cmd = 1 then 0 else presetValue s id

/-- The value lies within the range of an accumulator (R492, R509). -/
def inAccRange (s : State) (id : Nat) (v : Int) : Bool := decide (accLow (accKind s id) ≤ v ∧ v ≤ accHigh (accKind s id))

/-- CMD of MTR_CMD is written on a target (R5, R495, R509): it waits for the next frame tick, in place of one that waits. A preset out
of the range of R492 answers BAD_ARG, and a full change queue BUSY (R196). -/
def meterCmd (i : Initiator) (cmd id : Nat) (s : State) : State :=
  unlockedFor [3] i Reg.MTR_CMD (fun s =>
    if accEn s id && !inAccRange s id (cmdValue s cmd id) then s.answerSt .badArg
    else if s.clogFull then s.answerSt .busy
    else { (s.wr Fld.MTR_CMD_TARGET id).wr Fld.MTR_CMD_CMD cmd with
             meter := { s.meter with cmdBy := (s.roleOf i, sessOf i) } }) s

/-- A command that waits is taken (R495): a target that is not enabled, or a preset that has left its range since, is refused and
logged; else the accumulator takes its value, which enters both logs. -/
def meterCmdDo (cmd id : Nat) (s : State) : State :=
  let v := cmdValue s cmd id
  if !accEn s id || !inAccRange s id v then (s.wr Fld.MTR_GLB_EV_CMD_REF 1).logEv 0x19 0x0008 id
  else
    let s := s.clogPush s.meter.cmdBy.1 s.meter.cmdBy.2 4 (accLoAddr id) (newOf (ofInt 64 v))
    (accLoad id v s).logEv 0x19 (if cmd = 1 then 0x0003 else 0x0004) id

/-- The frame tick takes MTR_CMD (R495, R509); CMD then reads 0. It waits on while the change queue has no place for its entry (R196). -/
def meterCmdTake (s : State) : State :=
  let cmd := s.rd Fld.MTR_CMD_CMD
  if cmd = 0 then s
  else if cmd = 1 ∨ cmd = 2 then
    if s.clogFull then s else meterCmdDo cmd (s.rd Fld.MTR_CMD_TARGET) (s.wr Fld.MTR_CMD_CMD 0)
  else s.wr Fld.MTR_CMD_CMD 0

/-- CLEAR (R495): taken at the frame tick. -/
def execClear (i : Initiator) (target : BitVec 8) (s : State) : Host.Outcome State Fault Refusal :=
  run (meterCmd i 1 target.toNat) s
/-- PRESET (R495): to the value of MTR_PRESET, at the frame tick. -/
def execPreset (i : Initiator) (target : BitVec 8) (s : State) : Host.Outcome State Fault Refusal :=
  run (meterCmd i 2 target.toNat) s

/-- INTERVAL_LATCH (R493, R495): a latch that this frame tick has made due; a command that waits follows it in the tick cycle. -/
def execIntervalLatch (s : State) : Host.Outcome State Fault Refusal :=
  run (fun s => if meterRuns s then (match s.meter.due with | some (e, n) => meterCmdTake (latchAll e n s) | none => s) else s) s

/-- A write of INT_LEN by one who finds it unlocked (R495, R509): the running interval ends at the next frame tick, with reason CONFIG. -/
def intLenTake (i : Initiator) (n : Nat) (s : State) : State :=
  let due := fun s : State => { s with meter := { s.meter with lenDue := true } }
  if s.rd Fld.MTR_INT_CFG_INT_LEN = n then due s
  else logged i 4 Reg.MTR_INT_CFG (newOf n) (fun s => due (s.wr Fld.MTR_INT_CFG_INT_LEN n)) s

/-- A write of INT_LEN (R495, R509): locked for all but SERVICE; the value already held is then no write at all (R8). -/
def intLenWrite (i : Initiator) (v : Word) (s : State) : State :=
  let n := Fld.MTR_INT_CFG_INT_LEN.get v
  writeAdmitted i Reg.MTR_INT_CFG (fun s =>
    if sessionOf [3] s i then intLenTake i n s
    else if s.rd Fld.MTR_INT_CFG_INT_LEN = n then s else refuseLocked Reg.MTR_INT_CFG s) s

/-- INT_LEN_WRITE (R495, R509). -/
def execIntLenWrite (i : Initiator) (v : Word) (s : State) : Host.Outcome State Fault Refusal := run (intLenWrite i v) s

/-- The reasons that a frame tick finds for channel `m` (R494): SYNC and TIME. -/
def frameReasons (s : State) (m : Nat) : Nat :=
  bitIf (!s.rdB (Fld.GS_STATUS_ANG_OK m)) 2 + bitIf s.unsynced 3

/-- Boundaries lie between the loss of ticks and this frame tick (R495). -/
def gapCrossed (s : State) : Bool :=
  match s.meter.gap with | some f => decide (f / (intLen s * 50000) ≠ s.fn / (intLen s * 50000)) | none => false

/-- The latch that is due at this frame tick, if any (R493, R495): the reasons of the ending intervals, CLOCK and TIME after a gap over a boundary,
TIME after a forward step over one, CONFIG at a new length; and TIME for the next intervals where they do not start at a boundary. -/
def latchDue (s : State) : Option (Nat × Nat) :=
  let g := gapCrossed s
  let l := s.meter.lenDue
  if s.meter.due.isSome || g || l || s.meter.stepDue || boundary s then
    let d := s.meter.due.getD (0, 0)
    some (d.1 ||| (if g then 0x18 else 0) ||| (if s.meter.stepDue then 0x08 else 0) ||| (if l then 0x40 else 0),
          d.2 ||| (if l || !boundary s then 0x08 else 0))
  else none

/-- The reasons that a frame tick finds for every pulse input (R494): TIME and POWER. -/
def pinReasons (s : State) : Nat := bitIf s.unsynced 3 + bitIf (bankBad s 5) 5

/-- What a frame tick makes due, and the frame's figures (R493 to R495): those of the frame tick that makes the latch due enter the next interval. -/
def meterFigures (s : State) : State :=
  let due := latchDue s
  let fresh := due.isSome && s.meter.due.isNone
  let s := { s with meter := { s.meter with due := due, gap := none, stepDue := false, lenDue := false } }
  let s := forEach (chansOn s) (fun m s =>
    let v := s.rd (Fld.GS_FT_V1 m)
    let f := s.rd (Fld.GS_FT_FREQ m)
    let r := frameReasons s m
    if fresh then { s with meter := { s.meter with next := Tab.set (0, 0, 0) s.meter.next m (v, f, r) } }
    else
      let q := s.chan m
      chanReason m r (s.setChan m { q with v1Sum := q.v1Sum + v, fSum := q.fSum + f, frames := q.frames + 1 })) s
  if fresh then { s with meter := { s.meter with nextPins := pinReasons s } } else pulseInvalid (pinReasons s) s

/-- A frame tick (R493 to R495, R501): what the tick makes due, the frame's figures, the command that waits, and the pulse outputs'
times. A command waits on for the latch that this tick has made due, which comes first (R495). -/
def meterFrame (s : State) : State :=
  if !meterRuns s then s
  else
    let s := meterFigures s
    let s := when s.meter.due.isNone meterCmdTake s
    forEach pulseOuts (fun j s => match (s.pout j).phase with
      | some (h, k) => s.setPout j { s.pout j with phase := some (h, k - 1) } | none => s) s

/-- A step of the frame number (R28, R494, R495): a forward step over a boundary makes a latch due; any step is a TIME reason. -/
def meterStepped (old new : Nat) (s : State) : State :=
  let n := intLen s * 50000
  let s := meterInvalidAll 0x08 s
  if fnLater new old ∧ old / n ≠ new / n then { s with meter := { s.meter with stepDue := true } } else s

/-- Ticks are lost (R494, R495, R502): CLOCK, and pulses in progress are cut short. The frame of the loss is kept until ticks run again. -/
def meterTicksLost (s : State) : State :=
  let s := meterInvalidAll 0x10 s
  let s := { s with meter := { s.meter with gap := some (s.meter.gap.getD s.fn) } }
  forEach pulseOuts (fun j s => if (s.pout j).phase.isSome then
    (s.setPout j { s.pout j with phase := none }).wr (Fld.POUT_ST_ACTIVE j) 0 else s) s

/-! ### Retention (R496) -/

/-- The enabled accumulators. -/
def accIds (s : State) : List Nat :=
  ((List.range 36) ++ (List.range 16).map (0x40 + ·)).filter (accEn s)

/-- Every accumulator with SAT and configuration byte is copied into the Lantern domain (R496). -/
def meterCopyOut (s : State) : State :=
  let ids := accIds s
  let copy : MeterCopy := { acc := s.meter.acc, sat := ids.filter (accSat s), cfg := ids.map (fun id => (id, accByte s id)) }
  { s with lan := { s.lan with meterCopy := some copy } }

/-- METER_RETAIN (R496): at a whole second of ring time. -/
def execMeterRetain (s : State) : Host.Outcome State Fault Refusal :=
  run (fun s => if meterRuns s && decide (s.fn % 50000 = 0) then meterCopyOut s else s) s

/-- Channel `m` starts, and an interval begins in it with some reasons (R488, R494): there is no last usable sample. -/
def chanBegin (reasons m : Nat) (s : State) : State :=
  let start := [0, 1, 2, 3].foldl (fun t k => Tab.set 0 t k (wholeOf (s.acc (4 * m + k)))) []
  (s.setChan m { restChan with start := start }).wr (Fld.MTR_STATUS_INV_NOW m) reasons

/-- An interval of pulse input `n` begins with some reasons (R494). -/
def pinBegin (reasons n : Nat) (s : State) : State := s.setPin n { s.pin n with start := wholeOf (s.acc (0x40 + n)), inv := reasons }

/-- Every running interval starts afresh with some reasons. -/
def intervalsBegin (reasons : Nat) (s : State) : State :=
  forEach (pinsOn s) (pinBegin reasons) (forEach (chansOn s) (chanBegin reasons) s)

/-- The accumulators are restored from the copy at the first activation after a reset, or start at zero (R496). -/
def meterRestore (s : State) : State :=
  if s.meter.restored then s
  else
    let s := { s with meter := { s.meter with restored := true } }
    match s.lan.meterCopy with
    | some c =>
      let ids := (accIds s).filter (fun id => Tab.get 0 c.cfg id == accByte s id)
      let s := forEach ids (fun id s => setSat id (c.sat.contains id) (s.setAcc id (Tab.get 0 c.acc id))) s
      intervalsBegin 0x88 ((s.wr Fld.MTR_GLB_EV_RESTORED 1).logEv 0x19 0x0005 0)
    | none => intervalsBegin 0x08 ((s.wr Fld.MTR_GLB_EV_RESTORE_LOST 1).logEv 0x19 0x0005 1)

/-- An activation that changes the METER section (R494, R495): CONFIG; an accumulator whose byte changes is zeroed. `old` gives the
configuration bytes before it, `chans` and `pins` the channels and inputs used before it: one that is used from now on starts here, between
boundaries (TIME). -/
def meterReconfigured (old : List (Nat × Nat)) (chans pins : List Nat) (s : State) : State :=
  let ids := ((List.range 36) ++ (List.range 16).map (0x40 + ·)).filter (fun id => Tab.get 0 old id != accByte s id)
  let s := forEach ids (fun id s => setSat id false (s.setAcc id 0)) s
  let s := forEach ((chansOn s).filter (fun m => !chans.contains m)) (chanBegin 0x08) s
  let s := forEach ((pinsOn s).filter (fun n => !pins.contains n)) (pinBegin 0x08) s
  meterInvalidAll 0x40 s

/-- The calibration words of channel `m` (R505). -/
def calWords (s : State) (m : Nat) : List Word :=
  (List.range 6).flatMap (fun x => [s.reg (Reg.MTR_CAL_OFFS m x), s.reg (Reg.MTR_CAL_GAIN m x), s.reg (Reg.MTR_CAL_SHIFT m x)])

/-- A section load has written the calibration (R494): CONFIG for every used channel that it changes; `old` is the state before it. -/
def calibrated (old s : State) : State :=
  forEach ((chansOn s).filter (fun m => decide (calWords old m ≠ calWords s m))) (fun m => chanReason m 0x40) s

/-- The configuration bytes of every accumulator. -/
def accBytes (s : State) : List (Nat × Nat) := (accIds s).map (fun id => (id, accByte s id))

/-! ### Reads of LO words (R507) -/

/-- The value behind a LO word of the block: an accumulator's whole part, or a record's. -/
def meterLo (s : State) (a : Nat) : Nat :=
  match (accIds s).find? (fun id => accLoAddr id == a) with
  | some id => ofInt 64 (wholeOf (s.acc id))
  | none => Tab.get 0 s.meter.wide a

/-- An address is the LO word of an accumulator, a delta, or an END of the block. -/
def isMeterLo (a : Nat) : Bool :=
  (indexIn (Reg.MTR_ACC_LO 0 0) 0x100 9 8 4 a).isSome || (indexIn (Reg.MTR_DELTA_LO 0 0) 0x100 9 8 4 a).isSome
    || (indexIn (Reg.MTR_END_LO 0) 0x100 9 0 1 a).isSome || (indexIn (Reg.PIN_ACC_LO 0) 0x20 16 0 1 a).isSome
    || (indexIn (Reg.PIN_DELTA_LO 0) 0x20 16 0 1 a).isSome

/-- A read of a LO word latches its HI word (R507). -/
def meterLoRead (a : Nat) (s : State) : State := latchRead a (a + 4) (meterLo s a) s

/-- METER_LO_READ (R507): a read of the word at offset `4 k` of the block, which is a LO word. -/
def execMeterLoRead (i : Initiator) (k : Fin 2048) (s : State) : Host.Outcome State Fault Refusal :=
  run (fun s => if isMeterLo (0x200000 + 4 * k.val) then readAdmitted i (0x200000 + 4 * k.val) (meterLoRead (0x200000 + 4 * k.val)) s else s) s

/-! ### Pulse inputs and outputs (R497, R501, R502) -/

/-- One pulse of input `n` (R498). -/
def pinPulse (n : Nat) (s : State) : State :=
  let w : Int := if s.rd (Fld.PIN_CFG_UNIT n) = 2 then 1 else s.rd (Fld.PIN_WT n)
  accAdd (0x40 + n) (w * 2 ^ 32) (s.inc (Fld.PIN_CNT_PULSES n))

/-- The level of input `n` after a sample, true = high (R497). -/
def pinLevel (n : Nat) (high : Bool) (s : State) : State :=
  let q := s.pin n
  let d := Nat.max 1 (s.rd (Fld.PIN_CFG_DEBOUNCE n)) * 10
  let closed := s.rdB (Fld.PIN_ST_LEVEL n)
  let run := if high = q.raw then Nat.min d (q.run + 1) else 1
  let s := if high && !q.raw && decide (q.run < d) && !closed then s.inc (Fld.PIN_CNT_REJ n) else s
  let s := s.setPin n { q with raw := high, run := run, known := q.known || decide (run = d) }
  if run < d ∨ closed = !high then s
  else
    let s := s.wrB (Fld.PIN_ST_LEVEL n) (!high)
    if !high && q.known then pinPulse n s else s

/-- One sample of input `n` (R497); GUARD while its accumulator is saturated at a sample (R492, R498). -/
def pinSample (n : Nat) (high : Bool) (s : State) : State :=
  let s := pinLevel n high s
  if s.rdB (Fld.PIN_ST_SAT n) then pinReason n 0x01 s else s

/-- PULSE_SAMPLE (R497): every fifth frame tick; `levels` are PIN_00 to PIN_15. -/
def execPulseSample (levels : BitVec 16) (s : State) : Host.Outcome State Fault Refusal :=
  run (fun s =>
    if !(meterRuns s) || decide (s.fn % 5 ≠ 0) then s
    else if bankBad s 5 then pinsForget s
    else forEach (pinsOn s) (fun n => pinSample n (levels.getLsbD n)) s) s

/-- PW of output `j` in frames (R501). -/
def poutFrames (s : State) (j : Nat) : Nat := Nat.max 1 (s.rd (Fld.POUT_CFG_PW j)) * 50

/-- POUT_PULSE (R501, R502): an idle output with PENDING > 0 starts a pulse at the frame tick. -/
def execPoutPulse (j : Fin 8) (s : State) : Host.Outcome State Fault Refusal :=
  run (fun s =>
    let p := s.rd (Fld.POUT_ST_PENDING j.val)
    if meterRuns s && poutOn s j.val && (s.pout j.val).phase.isNone && decide (p ≠ 0) && s.rdB Fld.SCHED_CFG_TICK_RUN then
      let s := (s.setPout j.val { s.pout j.val with phase := some (true, poutFrames s j.val) }).wr (Fld.POUT_ST_PENDING j.val) (p - 1)
      let s := (s.wr (Fld.POUT_ST_ACTIVE j.val) 1).inc (Fld.POUT_CNT_PULSES j.val)
      if bankBad s 5 then s.inc (Fld.POUT_CNT_LOST j.val) else s
    else s) s

/-- POUT_PULSE_END (R501): the high time ends after PW and the low time begins; the low time ends after PW. -/
def execPoutPulseEnd (j : Fin 8) (s : State) : Host.Outcome State Fault Refusal :=
  run (fun s => match (s.pout j.val).phase with
    | some (true, 0) => (s.setPout j.val { s.pout j.val with phase := some (false, poutFrames s j.val) }).wr (Fld.POUT_ST_ACTIVE j.val) 0
    | some (false, 0) => s.setPout j.val { s.pout j.val with phase := none }
    | _ => s) s

/-- The block is reset with the control domain: residues and PENDING are lost, and R496 applies again (R500). -/
def meterReset (s : State) : State :=
  { s with meter := { chans := [], pins := [], outs := [], acc := [], wide := [], due := none, lenDue := false, cmdBy := (0, 0xFFFF),
                      next := [], nextPins := 0, gap := none, stepDue := false, restored := false } }

end Sys2Proof.Machine
end

