-- ==== Sys2Proof/Machine/Tracker.lean ====
section
/-!
DEFINITION. Machine/Tracker.lean: string stages and maximum-power tracking (spec/11_string_tracking.md). Values are
integers in units of 2^-30 (PU32). What a tracker does in every control tick stands in `trackerTick`; the step and the
scan of a frame tick are commands of their own, each taken once per frame.
-/
namespace Sys2Proof.Machine

/-- A frame with nothing in it. -/
def emptyFrame : TrkFrame := { ticks := 0, n := 0, v := 0, i := 0, p := 0, vdc := 0, vdcHigh := 0 }

/-- A tracker at rest; dir starts at -1 (R366). -/
def restTracker : Tracker :=
  { cur := emptyFrame, frames := [], vPrev := 0, iPrev := 0, pPrev := 0, dir := -1, record := false, windowOk := false,
    delay := 0, dusk := none, skips := 0, vdc := none, scanReq := false, scanSeen := false, stepSeen := false,
    scan := none, slotInit := false }

/-- The 24 trackers. -/
def trackers : List Nat := List.range 24

/-- The hidden part of tracker `k`. -/
def State.trk (s : State) (k : Nat) : Tracker := Tab.get restTracker s.trks k

/-- Stores the hidden part of tracker `k`. -/
def State.setTrk (s : State) (k : Nat) (q : Tracker) : State := { s with trks := Tab.set restTracker s.trks k q }

/-- STATE of tracker `k` (R362): 0 OFF, 1 WAIT, 2 STARTING, 3 TRACK, 4 LIMIT, 5 CURTAIL, 6 SCAN, 7 FAULT. -/
def trkState (s : State) (k : Nat) : Nat := s.rd (Fld.TRK_STATUS_STATE k)

/-- Tracker `k` is used and its domain is on. -/
def trkOn (s : State) (k : Nat) : Bool := s.rdB (Fld.TRK_CFG_EN k) && s.bit Fld.DOM_STATUS_ON 14

/-- STEP_FRAMES and AVG_FRAMES as they act (R375, R376). -/
def stepFrames (s : State) (k : Nat) : Nat := Nat.max 50 (s.rd (Fld.TRK_TIMING_STEP_FRAMES k))
/-- AVG_FRAMES as it acts (R376). -/
def avgFrames (s : State) (k : Nat) : Nat := Nat.min (Nat.max 1 (s.rd (Fld.TRK_WIN_AVG_FRAMES k))) (stepFrames s k)

/-! ### Trip sources, states and the port (R362, R365) -/

/-- STAGE_STOP and STRING_TRIP, as bits of TRIP_LIVE. -/
def stringSources : Nat := 2 ^ 26 + 2 ^ 28

/-- The sources that tracker `k` asserts on its pair in its state (R362). -/
def trkSources (k : Nat) (s : State) : State :=
  let p := s.rd (Fld.TRK_CFG_PAIR k)
  settleTrips noPulse { s with pwm := { s.pwm with
    stageStop := setBitOf s.pwm.stageStop p (decide (trkState s k ≤ 1)),
    stringTrip := setBitOf s.pwm.stringTrip p (decide (trkState s k = 7)) } }

/-- The port of tracker `k` and its register V_REF (R358, R377). -/
def trkPort (k : Nat) (v : Int) (s : State) : State :=
  let s := s.wrI (Fld.TRK_V_REF k) v
  { s with loop := { s.loop with ports := Tab.set 0#32 s.loop.ports (32 + k) (intW v) } }

/-- A change of state (R362). A scan that is left, and a SCAN_NOW that waits, are dropped. -/
def trkTo (k st : Nat) (s : State) : State :=
  if trkState s k = st then s
  else
    let s := ((s.wr (Fld.TRK_STATUS_STATE k) st).wr (Fld.TRK_EVENTS_STATE_EV k) 1).logEv 0x14 0x0001 (k + st * 256)
    let s := s.setTrk k { s.trk k with delay := 0, dusk := if st = 3 ∨ st = 4 then (s.trk k).dusk else none, scanReq := false,
                                       scan := if st = 6 then (s.trk k).scan else none }
    trkSources k s

/-- A fault of R365. -/
def trkFault (k cause : Nat) (s : State) : State :=
  let s := ((s.wr (Fld.TRK_STATUS_LAST_CAUSE k) cause).wr (Fld.TRK_EVENTS_FAULT_EV k) 1).logEv 0x14 0x0002 (k + cause * 256)
  trkTo k 7 s

/-- The direction, as DIR shows it (R376). -/
def trkDir (k : Nat) (d : Int) (s : State) : State :=
  (s.setTrk k { s.trk k with dir := d }).wr (Fld.TRK_STATUS_DIR k) (if d = 0 then 0 else if 0 < d then 1 else 2)

/-- What the port carries in OFF, WAIT and STARTING (R362); V_REF elsewhere. -/
def trkRef (s : State) (k : Nat) : Int :=
  match trkState s k with
  | 0 => s.rdI (Fld.TRK_V_MEAN k)
  | 1 => s.rdI (Fld.TRK_V_MEAN k)
  | 2 => sat32 (mulPu (s.rdI (Fld.TRK_K_START k)) (s.rdI (Fld.TRK_V_MEAN k)))
  | _ => s.rdI (Fld.TRK_V_REF k)

/-! ### Commands (R362, R363, R372) -/

/-- START (R362, R363). -/
def trkStart (k : Nat) (s : State) : State :=
  if trkState s k ≠ 0 then s
  else if s.rdB (Fld.TRK_CFG_EN k) then trkTo k 1 s
  else (s.wr (Fld.TRK_EVENTS_START_REF k) 1).logEv 0x14 0x0006 k

/-- STOP (R362). -/
def trkStop (k : Nat) (s : State) : State := if trkState s k = 7 then s else trkTo k 0 s

/-- RESET_FAULT (R362). -/
def trkResetFault (k : Nat) (s : State) : State :=
  if trkState s k = 7 ∧ otherTrips s stringSources (s.rd (Fld.TRK_CFG_PAIR k)) = 0 then trkTo k 0 s else s

/-- SCAN_NOW (R370, R372). -/
def trkScanNow (k : Nat) (s : State) : State :=
  if trkState s k = 3 then s.setTrk k { s.trk k with scanReq := true } else s.wr (Fld.TRK_EVENTS_SCAN_REF k) 1

/-- A pending CMD is taken at a frame tick; it reads 0 once taken (R376). -/
def trkTake (k : Nat) (s : State) : State :=
  let c := s.rd (Fld.TRK_CTRL_CMD k)
  let s := s.wr (Fld.TRK_CTRL_CMD k) 0
  match c with | 1 => trkStart k s | 2 => trkStop k s | 3 => trkResetFault k s | 4 => trkScanNow k s | _ => s

/-! ### One control tick (R359, R361, R365, R369) -/

/-- The result behind input descriptor `i` was written in this tick with VALID = 1 and FROZEN = 0; OW is refused where
`ow` says so (R359). -/
def inputFresh (s : State) (i : Nat) (ow : Bool) : Bool :=
  let c := s.rd (Fld.IN_CFG_CORE i)
  let e := s.rd (Fld.IN_CFG_ENTRY i)
  resultUsable s (c, e) && !(ow && s.rdB (Fld.ADC_RESULT_OW c e))

/-- The value of input descriptor `i` in PU32 (R286). -/
def inputValue (s : State) (i : Nat) : Int := (readInput s i false 0).value

/-- The tick values v, i and p where the tick is usable (R359). -/
def tickValues (s : State) (k : Nat) : Option (Int × Int × Int) :=
  if inputFresh s (s.rd (Fld.TRK_CFG_IN_V k)) true && inputFresh s (s.rd (Fld.TRK_CFG_IN_I k)) true then
    let v := inputValue s (s.rd (Fld.TRK_CFG_IN_V k))
    let i := inputValue s (s.rd (Fld.TRK_CFG_IN_I k))
    some (v, i, sat32 (mulPu v i))
  else none

/-- The DC-link value where it is used and was written in this tick (R369). -/
def tickVdc (s : State) (k : Nat) : Option Int :=
  if s.rdB (Fld.TRK_CFG_VDC_EN k) && inputFresh s (s.rd (Fld.TRK_LINK_IN_VDC k)) false then
    some (inputValue s (s.rd (Fld.TRK_LINK_IN_VDC k))) else none

/-- The tick enters the sums of its frame. -/
def trkSample (k : Nat) (s : State) : State :=
  let q := s.trk k
  let c := { q.cur with ticks := q.cur.ticks + 1 }
  let c := match tickValues s k with
    | some (v, i, p) => { c with n := c.n + 1, v := c.v + v, i := c.i + i, p := c.p + p } | none => c
  match tickVdc s k with
  | some d =>
    let high := c.vdcHigh + (decide (s.rdI (Fld.TRK_VDC_RES k) < d)).toNat
    s.setTrk k { q with vdc := some d, cur := { c with vdc := c.vdc + 1, vdcHigh := high } }
  | none => s.setTrk k { q with cur := c }

/-- Another trip is asserted on the pair, or the pair has tripped on one since the clear (cause PWM, R365). -/
def trkPairTrouble (s : State) (k : Nat) : Bool :=
  let p := s.rd (Fld.TRK_CFG_PAIR k)
  decide (otherTrips s stringSources p &&& latchingMask s p ≠ 0)
    || decide (2 ≤ trkState s k ∧ s.rd (Fld.PWM_STATUS_STATE p) = 3
        ∧ s.rd (Fld.PWM_TRIP_SRC p) - (s.rd (Fld.PWM_TRIP_SRC p) &&& stringSources) ≠ 0)

/-- Tracker `k` is in a state that R365 trips: STARTING to SCAN. -/
def trkTrips (s : State) (k : Nat) : Bool := decide (2 ≤ trkState s k ∧ trkState s k ≤ 6)

/-- The sums of a step window. -/
def windowSum (l : List TrkFrame) : TrkFrame :=
  l.foldl (fun a f => { ticks := a.ticks + f.ticks, n := a.n + f.n, v := a.v + f.v, i := a.i + f.i, p := a.p + f.p,
                        vdc := a.vdc + f.vdc, vdcHigh := a.vdcHigh + f.vdcHigh }) emptyFrame

/-- The window of a step at this frame tick (R359). -/
def stepWindow (s : State) (k : Nat) : TrkFrame := windowSum ((s.trk k).frames.take (avgFrames s k))

/-- A step of tracker `k` is due at this frame tick (R360). -/
def stepDue (s : State) (k : Nat) : Bool :=
  decide (s.fn % stepFrames s k = s.rd (Fld.TRK_TIMING_STEP_PHASE k) % stepFrames s k)

/-- The string feeds back beyond I_REV in the window of a step (cause REV, R365). -/
def reverse (s : State) (k : Nat) : Bool :=
  let w := stepWindow s k
  decide (w.n ≠ 0 ∧ roundDiv w.i w.n < -(s.rdI (Fld.TRK_I_REV k)))

/-- The cause of R365 that a control tick finds, lowest code first; `step` marks a tick with a due step, which looks for REV too. -/
def trkCause (s : State) (k : Nat) (step : Bool) : Option Nat :=
  if (match tickValues s k with | some (_, i, _) => decide (s.rdI (Fld.TRK_I_TRIP k) < i) | none => false) then some 1
  else if step && reverse s k then some 2
  else if trkPairTrouble s k then some 3
  else if s.rdB (Fld.SLOT_STATUS_HALTED (s.rd (Fld.TRK_LINK_VSLOT k))) || s.rdB (Fld.SLOT_STATUS_HALTED (s.rd (Fld.TRK_LINK_ISLOT k)))
  then some 4 else none

/-- A scheduled scan is due at this frame tick (R370). -/
def scanDue (s : State) (k : Nat) : Bool :=
  let p := s.rd (Fld.TRK_SCAN_SCAN_PERIOD k)
  decide (p ≠ 0 ∧ s.fn % 50000 = 0 ∧ s.fn / 50000 % p = s.rd (Fld.TRK_SCAN_SCAN_OFS k) % p)

/-- A scan, scheduled or asked for, is still to be dealt with at this frame tick. -/
def scanWaits (s : State) (k : Nat) : Bool :=
  ((s.trk k).scanReq || scanDue s k) && !(s.trk k).scanSeen

/-- A step is due and no scan takes its place (R361). -/
def stepComes (s : State) (k : Nat) : Bool :=
  stepDue s k && !(s.trk k).stepSeen && decide (trkState s k ≠ 6) && !(scanWaits s k && trkState s k == 3)

/-- The fault checks of a control tick; `none` where no fault is taken. -/
def trkFaults (k : Nat) (step : Bool) (s : State) : Option State :=
  if trkTrips s k then (trkCause s k step).map (fun c => trkFault k c s) else none

/-- The DC-link check (R369): entry into CURTAIL from TRACK, LIMIT and SCAN; in CURTAIL V_REF rises. -/
def trkVdcCheck (k : Nat) (s : State) : State :=
  let st := trkState s k
  let s := match tickVdc s k with
    | some d => if 3 ≤ st ∧ st ≤ 6 ∧ st ≠ 5 ∧ s.rdI (Fld.TRK_VDC_CURT k) ≤ d then
        trkTo k 5 ((s.wr (Fld.TRK_EVENTS_CURT_EV k) 1).logEv 0x14 0x0007 k) else s
    | none => s
  if trkState s k = 5 then
    s.wrI (Fld.TRK_V_REF k) (max (s.rdI (Fld.TRK_V_REF k))
      (min (s.rdI (Fld.TRK_V_MAX k)) (sat32 (s.rdI (Fld.TRK_V_REF k) + s.rdI (Fld.TRK_CURT_STEP k)))))
  else s

/-- The slots' states are set to 0 and their r_prev initialised as at a rearm, in the tick cycle after the entry into
STARTING (R363). -/
def trkSlotInit (k : Nat) (s : State) : State :=
  let q := s.trk k
  if !q.slotInit then s
  else forEach [s.rd (Fld.TRK_LINK_VSLOT k), s.rd (Fld.TRK_LINK_ISLOT k)] (fun n s =>
    zeroSections n (s.setSlot n { s.slot n with rPrev := 0, rInit := s.rdB (Fld.SLOT_SEC_SLEW_INIT n) }))
    (s.setTrk k { q with slotInit := false })

/-- N of a scan (R371, R376): SCAN_TIME in units of 10 ms, 500 frames each. -/
def scanFrames (s : State) (k : Nat) : Nat := 500 * Nat.max 1 (s.rd (Fld.TRK_WIN_SCAN_TIME k))

/-- The scan reference at frame `f` of a scan (R371). -/
def scanRef (s : State) (k : Nat) (vBefore : Int) (f : Nat) : Int :=
  let n := scanFrames s k
  let m := n / 10
  let hi := s.rdI (Fld.TRK_V_MAX k)
  if f ≤ m then vBefore + roundDiv ((hi - vBefore) * f) m
  else hi + roundDiv ((s.rdI (Fld.TRK_V_MIN k) - hi) * (f - m : Nat)) (n - m)

/-- The progress of a scan at a frame tick (R371): the frame just ended is weighed in phase 3; V_REF moves on. -/
def scanProgress (k : Nat) (ended : TrkFrame) (s : State) : State :=
  match (s.trk k).scan with
  | none => s
  | some c =>
    if scanFrames s k ≤ c.frame then s
    else
      let weigh := decide (scanFrames s k / 10 ≤ c.frame ∧ ended.n ≠ 0)
      let p := roundDiv ended.p ended.n
      let v := roundDiv ended.v ended.n
      let best := if !weigh then c.best else match c.best with
        | some b => if b.1 < p then some (p, v) else some b
        | none => some (p, v)
      let s := s.setTrk k { s.trk k with scan := some { c with frame := c.frame + 1, best := best } }
      s.wrI (Fld.TRK_V_REF k) (scanRef s k c.vBefore (c.frame + 1))

/-- The conditions of R363 hold now; V_MEAN and the usable half are those of the last step. -/
def startOk (s : State) (k : Nat) : Bool :=
  let q := s.trk k
  decide (s.rdI (Fld.TRK_V_START k) ≤ s.rdI (Fld.TRK_V_MEAN k)) && q.windowOk
    && decide (otherTrips s (2 ^ 26) (s.rd (Fld.TRK_CFG_PAIR k)) = 0) && !s.rdB Fld.SAFE_STATUS_LOCKED
    && (!s.rdB (Fld.TRK_CFG_VDC_EN k) || (match q.vdc with
        | some d => decide (s.rdI (Fld.TRK_V_START k) * 105 ≤ d * 100) | none => false))

/-- A break of the start conditions restarts the delay (R363). -/
def trkWait (k : Nat) (s : State) : State :=
  if trkState s k = 1 ∧ startOk s k = false then s.setTrk k { s.trk k with delay := 0 } else s

/-- A frame tick of tracker `k`: the frame in progress closes, and the frame counts of WAIT and of dusk advance. As many frames are kept as
AVG_FRAMES can name (R376). -/
def trkFrame (k : Nat) (s : State) : State :=
  let q := s.trk k
  s.setTrk k { q with
    frames := (q.cur :: q.frames).take 255, cur := emptyFrame, scanSeen := false, stepSeen := false,
    delay := if trkState s k = 1 then q.delay + 1 else 0, dusk := q.dusk.map (· + 1) }

/-- What tracker `k` does in a control tick (R361) with the results of the tick that ends; `frame` marks a frame tick. -/
def trackerTick (frame : Bool) (k : Nat) (s : State) : State :=
  if !trkOn s k then (if frame && s.bit Fld.DOM_STATUS_ON 14 then trkTake k s else s)
  else
    let s := trkSample k (trkSlotInit k s)
    let ended := (s.trk k).cur
    let s := when frame (trkFrame k) s
    let s := match trkFaults k (frame && stepComes s k) s with
      | some t => when frame (fun t => t.wr (Fld.TRK_CTRL_CMD k) 0) t
      | none => when frame (trkTake k) s
    let s := trkVdcCheck k (trkWait k s)
    let s := when (frame && trkState s k == 6) (scanProgress k ended) s
    trkPort k (trkRef s k) s

/-- Every tracker's control tick. -/
def trackersTick (frame : Bool) (s : State) : State := forEach trackers (trackerTick frame) s

/-- A CMD written to tracker `k` and taken at the frame tick (R361, R376): a fault of that tick wins. -/
def trkCmd (i : Initiator) (k cmd : Nat) (s : State) : State :=
  writeAdmitted i (Reg.TRK_CTRL k) (fun s =>
    match (if trkOn s k then trkFaults k (stepComes s k) s else none) with
    | some t => t
    | none => let s := trkTake k (s.wr (Fld.TRK_CTRL_CMD k) cmd)
              if trkOn s k then trkPort k (trkRef s k) s else s) s

/-- TRK_START (R362, R363). -/
def execTrkStart (i : Initiator) (k : Fin 24) (s : State) : Host.Outcome State Fault Refusal := run (trkCmd i k.val 1) s
/-- TRK_STOP (R362). -/
def execTrkStop (i : Initiator) (k : Fin 24) (s : State) : Host.Outcome State Fault Refusal := run (trkCmd i k.val 2) s
/-- TRK_RESET_FAULT (R362). -/
def execTrkResetFault (i : Initiator) (k : Fin 24) (s : State) : Host.Outcome State Fault Refusal := run (trkCmd i k.val 3) s
/-- SCAN_NOW (R370, R372). -/
def execScanNow (i : Initiator) (k : Fin 24) (s : State) : Host.Outcome State Fault Refusal := run (trkCmd i k.val 4) s

/-! ### The step (R360, R366, R367) -/

/-- V_MEAN, I_MEAN and P_MEAN of a window (R359); with no usable tick they are free values. -/
def trkMeans (k : Nat) (w : TrkFrame) (s : State) : State :=
  if w.n = 0 then ((s.wrFree (Fld.TRK_V_MEAN k)).wrFree (Fld.TRK_I_MEAN k)).wrFree (Fld.TRK_P_MEAN k)
  else ((s.wrI (Fld.TRK_V_MEAN k) (roundDiv w.v w.n)).wrI (Fld.TRK_I_MEAN k) (roundDiv w.i w.n)).wrI
    (Fld.TRK_P_MEAN k) (roundDiv w.p w.n)

/-- A skipped step (R367). -/
def trkSkip (k : Nat) (s : State) : State :=
  let n := (s.trk k).skips + 1
  let s := (s.setTrk k { s.trk k with skips := n, windowOk := false }).inc (Fld.TRK_COUNT_SKIPPED k)
  if n = 8 then ((s.wr (Fld.TRK_STATUS_STALE k) 1).wr (Fld.TRK_EVENTS_STALE_EV k) 1).logEv 0x14 0x0003 k else s

/-- |a| / max(|b|, 2^-20) in the internal-state format (R366). -/
def slopeOf (a b : Int) : Int := sat40 (quotient (a.natAbs * 2 ^ 30) (max (b.natAbs : Int) 1024))

/-- The sign of a number. -/
def signOf (v : Int) : Int := if v = 0 then 0 else if 0 < v then 1 else -1

/-- The rule of R366 outside the limit band: the new direction, and g. -/
def moveRule (alg : Bool) (db dir v i dv di dp : Int) : Int × Int :=
  if !alg then
    let g := if (dp.natAbs : Int) ≤ db then 0 else slopeOf dp dv
    let d := if (dp.natAbs : Int) ≤ db then dir else if dp < 0 then -dir else dir
    (if d = 0 then -1 else d, g)
  else if (dv.natAbs : Int) < 2 ^ 14 then (if (di.natAbs : Int) ≤ db then 0 else signOf di, di.natAbs)
  else
    let e := sat40 (i + sat40 (quotient (sat40 (mulPu v di) * 2 ^ 30) dv))
    (if (e.natAbs : Int) ≤ db then 0 else signOf e, e.natAbs)

/-- V_REF moves by dir × step within its limits (R366). -/
def trkMove (k : Nat) (dir g : Int) (s : State) : State :=
  let step := clampInt (s.rdI (Fld.TRK_STEP_MIN k)) (s.rdI (Fld.TRK_STEP_MAX k)) (sat40 (mulCf g (s.rdI (Fld.TRK_K_ADAPT k))))
  let v := sat40 (s.rdI (Fld.TRK_V_REF k) + dir * step)
  let lo := s.rdI (Fld.TRK_V_MIN k)
  let hi := s.rdI (Fld.TRK_V_MAX k)
  if hi ≤ v then (trkDir k (-1) (s.wrI (Fld.TRK_V_REF k) hi)).wr (Fld.TRK_STATUS_BOUND k) 1
  else if v ≤ lo then (trkDir k 1 (s.wrI (Fld.TRK_V_REF k) lo)).wr (Fld.TRK_STATUS_BOUND k) 1
  else (trkDir k dir (s.wrI (Fld.TRK_V_REF k) (sat32 v))).wr (Fld.TRK_STATUS_BOUND k) 0

/-- The computation of a due step in TRACK or LIMIT (R366). -/
def trkStep (k : Nat) (s : State) : State :=
  let q := s.trk k
  let v := s.rdI (Fld.TRK_V_MEAN k)
  let i := s.rdI (Fld.TRK_I_MEAN k)
  let p := s.rdI (Fld.TRK_P_MEAN k)
  let keep := fun s : State => s.setTrk k { s.trk k with vPrev := v, iPrev := i, pPrev := p, record := false }
  if q.record then keep s
  else
    let dv := v - q.vPrev
    let di := i - q.iPrev
    let dp := p - q.pPrev
    let lim := s.rdI (Fld.TRK_P_LIM k)
    if lim < p then keep (trkMove k 1 (slopeOf dp dv) (trkTo k 4 s))
    else if lim - s.rdI (Fld.TRK_P_BAND k) ≤ p ∧ trkState s k = 4 then keep (trkMove k 0 0 s)
    else
      let r := moveRule (s.rdB (Fld.TRK_CFG_ALG k)) (s.rdI (Fld.TRK_DB k)) q.dir v i dv di dp
      keep (trkMove k r.1 r.2 (trkTo k 3 s))

/-- Whether P_MEAN ≤ P_STOP has gone on holding (R364). -/
def trkDusk (k : Nat) (s : State) : State :=
  let q := s.trk k
  if (trkState s k = 3 ∨ trkState s k = 4) ∧ s.rdI (Fld.TRK_P_MEAN k) ≤ s.rdI (Fld.TRK_P_STOP k) then
    s.setTrk k { q with dusk := some (q.dusk.getD 0) }
  else s.setTrk k { q with dusk := none }

/-- CURTAIL ends at the first step whose window saw no DC-link value above VDC_RES (R369). -/
def trkUncurtail (k : Nat) (w : TrkFrame) (s : State) : State :=
  if trkState s k = 5 ∧ w.vdc ≠ 0 ∧ w.vdcHigh = 0 then
    let s := trkDir k (-1) (trkTo k 3 s)
    s.setTrk k { s.trk k with record := true }
  else s

/-- STARTING ends at the first step once the clear has succeeded (R362); that step records (R366). -/
def trkStarted (k : Nat) (s : State) : State :=
  if trkState s k = 2 then
    let s := trkTo k 3 s
    s.setTrk k { s.trk k with record := true }
  else s

/-- The step of tracker `k` at a due frame tick, with the REV check of R365. -/
def trkDueStep (k : Nat) (s : State) : State :=
  let w := stepWindow s k
  let rev := trkTrips s k && reverse s k
  let s := when rev (trkFault k 2) (trkMeans k w s)
  let s := trkStarted k (trkUncurtail k w s)
  let s := if w.n = 0 ∨ 2 * w.n < w.ticks then trkSkip k s
    else
      let s := (s.setTrk k { s.trk k with skips := 0, windowOk := true }).wr (Fld.TRK_STATUS_STALE k) 0
      let s := trkDusk k s
      if trkState s k = 3 ∨ trkState s k = 4 then trkStep k s else s
  trkPort k (trkRef s k) (trkWait k s)

/-- TRACK_STEP (R360, R361, R366): the step of tracker `k`, due at this frame tick and not yet made; a scan that starts takes its
place. -/
def execTrackStep (k : Fin 24) (s : State) : Host.Outcome State Fault Refusal :=
  run (fun s =>
    if trkOn s k.val && s.rdB Fld.SCHED_CFG_TICK_RUN && stepComes s k.val then
      trkDueStep k.val (s.setTrk k.val { s.trk k.val with stepSeen := true })
    else s) s

/-- SCAN_START (R370 to R372): a due scan starts from TRACK; a scheduled one in another state is skipped. -/
def execScanStart (k : Fin 24) (s : State) : Host.Outcome State Fault Refusal :=
  run (fun s =>
    if trkOn s k.val && s.rdB Fld.SCHED_CFG_TICK_RUN && scanWaits s k.val then
      let q := s.trk k.val
      if trkState s k.val = 3 then
        let s := s.setTrk k.val { q with
          stepSeen := true, scanSeen := true,
          scan := some { vBefore := s.rdI (Fld.TRK_V_REF k.val), pBefore := s.rdI (Fld.TRK_P_MEAN k.val), frame := 0, best := none } }
        trkTo k.val 6 s
      else
        ((s.setTrk k.val { q with scanSeen := true }).wr (Fld.TRK_EVENTS_SCAN_SKIP k.val) 1).logEv 0x14 0x0005
          (k.val + trkState s k.val * 256)
    else s) s

/-- V_BEST and P_BEST of a completed scan; with no usable frame they are free values (R371, R377). -/
def scanBest (k : Nat) (best : Option (Int × Int)) (s : State) : State :=
  match best with
  | some b => (s.wrI (Fld.TRK_P_BEST k) b.1).wrI (Fld.TRK_V_BEST k) b.2
  | none => (s.wrFree (Fld.TRK_P_BEST k)).wrFree (Fld.TRK_V_BEST k)

/-- SCAN_DONE (R371): the last frame tick of a scan. -/
def execScanDone (k : Fin 24) (s : State) : Host.Outcome State Fault Refusal :=
  run (fun s =>
    match (s.trk k.val).scan with
    | none => s
    | some c =>
      if trkState s k.val = 6 ∧ scanFrames s k.val ≤ c.frame then
        let s := scanBest k.val c.best s
        let moved := match c.best with
          | some b => decide (c.pBefore * (1000 + s.rd (Fld.TRK_WIN_SCAN_MARGIN k.val)) ≤ b.1 * 1000)
          | none => false
        let v := if moved then s.rdI (Fld.TRK_V_BEST k.val) else c.vBefore
        let d := (roundDiv (s.rdI (Fld.TRK_V_BEST k.val) * 10000) (2 ^ 30) % 65536).toNat
        let s := trkTo k.val 3 (s.wrI (Fld.TRK_V_REF k.val) v)
        let s := (s.setTrk k.val { s.trk k.val with record := true }).wr (Fld.TRK_EVENTS_SCAN_DONE k.val) 1
        let s := (s.inc (Fld.TRK_COUNT_SCANS k.val)).logEv 0x14 0x0004 (k.val + bitIf moved 8 + d * 65536)
        trkPort k.val v s
      else s) s

/-! ### Start, dusk, and the stops of the whole block -/

/-- STARTING (R362, R363, R365): STAGE_STOP is withdrawn and the clear requested; a refusal is the fault CLEAR. -/
def trkStarting (k : Nat) (s : State) : State :=
  let s := trkDir k (-1) (trkTo k 2 s)
  let s := pairClear (s.rd (Fld.TRK_CFG_PAIR k)) (s.setTrk k { s.trk k with slotInit := true })
  if s.rd (Fld.PWM_STATUS_STATE (s.rd (Fld.TRK_CFG_PAIR k))) = 3 then trkFault k 5 s else trkPort k (trkRef s k) s

/-- TRK_START_DELAY_END (R363): the start conditions have held for START_DELAY. -/
def execTrkStartDelayEnd (k : Fin 24) (s : State) : Host.Outcome State Fault Refusal :=
  run (fun s => if trkOn s k.val && decide (trkState s k.val = 1) && startOk s k.val
        && decide (s.rd (Fld.TRK_WIN_START_DELAY k.val) * 50000 ≤ (s.trk k.val).delay) then trkStarting k.val s else s) s

/-- TRK_DUSK_STOP (R364): P_MEAN ≤ P_STOP has held at every step for 60 s. -/
def execTrkDuskStop (k : Fin 24) (s : State) : Host.Outcome State Fault Refusal :=
  run (fun s => if trkOn s k.val && decide (trkState s k.val = 3 ∨ trkState s k.val = 4)
        && decide (3000000 ≤ ((s.trk k.val).dusk.getD 0)) then
      let s := trkTo k.val 1 s
      trkPort k.val (trkRef s k.val) s
    else s) s

/-- In Ring-only and while TICK_LOST is set every tracker is OFF. -/
def trackersOff (s : State) : State := forEach trackers (fun k s => when (s.rdB (Fld.TRK_CFG_EN k)) (trkTo k 0) s) s

/-- Entry into Ring-only (R75, R362): every tracker stops as on a STOP. -/
def trackersStop (s : State) : State := forEach trackers (fun k s => when (s.rdB (Fld.TRK_CFG_EN k)) (trkStop k) s) s

/-- At an engine start a tracker with AUTO = 1 goes to WAIT (R362). -/
def trackersAuto (s : State) : State :=
  forEach trackers (fun k s => when (s.rdB (Fld.TRK_CFG_EN k) && s.rdB (Fld.TRK_CFG_AUTO k)) (trkStart k) s) s

/-- Every used tracker is in OFF or FAULT. -/
def trackersAtRest (s : State) : Bool :=
  trackers.all (fun k => !s.rdB (Fld.TRK_CFG_EN k) || trkState s k == 0 || trkState s k == 7)

/-- The pairs that used grid stages, and used trackers, own (R332, R358). -/
def stageOwned (s : State) : Nat := maskSet 0 ((stages.filter (fun g => s.rdB (Fld.GST_MAP_EN g))).flatMap (stagePairs s)) true
/-- The pairs of the used trackers. -/
def trkOwned (s : State) : Nat :=
  maskSet 0 ((trackers.filter (fun k => s.rdB (Fld.TRK_CFG_EN k))).map (fun k => s.rd (Fld.TRK_CFG_PAIR k))) true

/-- The sources of an owner go from the pairs that it owns no longer (R420). -/
def ownersRelease (s : State) : State :=
  { s with pwm := { s.pwm with stageStop := s.pwm.stageStop &&& (stageOwned s ||| trkOwned s), gridTrip := s.pwm.gridTrip &&& stageOwned s,
                               stringTrip := s.pwm.stringTrip &&& trkOwned s } }

/-- The STRING section is loaded: a pair that no tracker owns any longer is released, and each used tracker asserts the sources of its state
(R362, R420). -/
def stringLoaded (s : State) : State :=
  forEach trackers (fun k s => when (s.rdB (Fld.TRK_CFG_EN k)) (trkSources k) s) (ownersRelease s)

end Sys2Proof.Machine
end

