-- ==== Sys2Proof/Machine/Stop.lean ====
section
/-!
DEFINITION. Machine/Stop.lean: what the whole part loses: its ticks (R26, R105), a power domain (R68, R75, R84), the control
die at a control-domain reset (R166), the main domain at a reset or a sleep entry (R10, R164).
-/
namespace Sys2Proof.Machine

/-- Grid and string stages stop as for an operator stop (R75). -/
def stopAll (s : State) : State := trackersStop (stagesStop s)

/-- Every grid stage and tracker has come to rest. -/
def allStopped (s : State) : Bool := stagesAtRest s && trackersAtRest s

/-- The registers that show a tick that no longer comes (R26, R30, R410). -/
def ticksShow (s : State) : State :=
  engineStops (((s.wr Fld.SCHED_STATUS_TICK_LOST 1).wr Fld.SCHED_CFG_TICK_RUN 0).wr Fld.PWM_CAL_CAL_DONE 0)

/-- The control die receives no ticks (R26, R105): the engine is halted, the safe state comes through the clock-free paths. -/
def ticksLost (s : State) : State :=
  let s := (countersStop (ticksShow (windowsCut s))).logEv 0x12 0x0002 0
  let s := settleTrips noPulse (gateClockLost (adcClockLost s))
  islandOff (meterTicksLost (trackersOff (stagesOff s)))

/-- CT_SUP goes off: outputs off, no ticks, no conversion, no islanding (R74). -/
def ctSupLost (s : State) : State :=
  let s := islandOff (outputsOff s)
  let s := engineStops (s.wr Fld.SCHED_CFG_TICK_RUN 0)
  trackersOff (stagesOff s)

/-- CT_CONV goes off (R75, R305, R306): every pair holds PWR_STATE. -/
def ctConvLost (s : State) : State :=
  settleTrips noPulse (trackersOff (stagesOff (engineStops (adcPairsStop (countersStop s)))))

/-- BASE_CLOCK_LOSS (R428): the missing-clock detector asserts CLK_LOSS on every pair, and the counters stop. -/
def execBaseClockLoss (s : State) : Host.Outcome State Fault Refusal :=
  run (fun s =>
    let s := { s with time := { s.time with baseLost := true } }
    settleTrips noPulse (adcPairsStop (countersStop s))) s

/-- What is lost with a power domain (R68). -/
def domainLost (d : Nat) (s : State) : State :=
  if d = 0 then forwardingStop s
  else if 5 ≤ d ∧ d ≤ 12 then lanesOff (d - 5) s
  else if d = 13 then ctSupLost s
  else if d = 14 then ctConvLost s
  else if d = 15 then forEach adcCores adcCoreOff { s with pwr := { s.pwr with coresOff := 0, vddaLost := false } }
  else s

/-! ### Settings that a reset shows again (R191, R200, R207, R208) -/

/-- The one-time programmable settings as their registers show them. -/
def otpShow (s : State) : State :=
  let o := s.otp
  let s := (s.wr Fld.CS_GRID_REMAIN o.gridRemain).wr Fld.CS_GRID_CODE o.gridCode
  let s := (s.wr Fld.CS_ROLE_REMAIN o.roleRemain).wr Fld.CS_ROLE_ROLE o.role
  let s := (s.wr Fld.CS_SPW_REMAIN o.spwRemain).wr Fld.CS_TOKEN_REMAIN o.tokenRemain
  let s := ((s.wr Fld.IMG_KEYS_SEC_MIN o.secMin).wr Fld.IMG_KEYS_REVOKED o.revoked).wr Fld.IMG_KEYS_ENROLLED o.enrolled
  s.wr Fld.LIFECYCLE_STATE o.lifecycle

/-! ### Resets -/

/-- Addresses of the Lantern window (R40). -/
def inLantern (a : Nat) : Bool := decide (0x30000 ≤ a ∧ a ≤ 0x3FFFF)

/-- The main domain without anything a reset clears: the Lantern, the flash, the OTP, the key store, the regulator latches
and what the model itself counts stay (R10, R71, R142, R164, R196). -/
def mainKept (s : State) : State :=
  { State.reset with
    pending := s.pending, cycle := s.cycle, out := s.out, freeIx := s.freeIx, bus := s.bus
    regs := Tab.keep inLantern s.regs
    log := { s.log with once := [] }, clog := s.clog, otp := s.otp, flash := s.flash, lan := s.lan
    safe := { State.reset.safe with pwWrong := s.safe.pwWrong, pwBlocked := s.safe.pwBlocked, pwLeft := s.safe.pwLeft }
    win := { State.reset.win with level := s.win.level, pins := s.win.pins }
    gate := { State.reset.gate with enHigh := s.gate.enHigh, fltLow := s.gate.fltLow }
    pwr := { State.reset.pwr with regEn := s.pwr.regEn, plan := s.pwr.plan, ctSupply := s.pwr.ctSupply, bankPresent := s.pwr.bankPresent,
                                  bank3v3 := s.pwr.bank3v3 }
    eng := { State.reset.eng with creds := s.eng.creds, caks := s.eng.caks } }

/-- The registers whose values a main-domain reset takes from what it leaves alone (R52, R71, R95, R115, R191). -/
def mainClear (s : State) : State :=
  let t := mainKept s
  let t := t.setReg Reg.CLK_STATUS (s.reg Reg.CLK_STATUS &&& 0x00F00108#32)
  let t := (t.wr Fld.RAIL_STATUS_EN s.pwr.regEn).wr Fld.RAIL_STATUS_PG (s.rd Fld.RAIL_STATUS_PG)
  let t := gateShow (declMirror ((t.wr Fld.IO_BANK_STATUS_PRESENT s.pwr.bankPresent).wr Fld.IO_BANK_STATUS_DET_3V3 s.pwr.bank3v3))
  (otpShow t).wr Fld.CS_ROLE_ROLE_IN_FORCE s.otp.role

/-- The main domain loses its supply: nothing of it is left but what `mainClear` keeps, and every regulator is off. -/
def mainOff (s : State) : State :=
  let s := mainClear (unlockEnd 4 s)
  let p := { s.pwr with regEn := 0, plan := [], ctSupply := false, bankPresent := 0, bank3v3 := 0 }
  let s := { s with img := { s.img with phase := .inReset }, pwr := p }
  ((s.wr Fld.RAIL_STATUS_EN 0).wr Fld.RAIL_STATUS_PG 0).setReg Reg.IO_BANK_STATUS 0#32

/-- A main-domain reset (R164, R165, R199): its cause, and LAN_COLD at the first one after a cold start. -/
def mainReset (cause : Nat) (s : State) : State :=
  let s := mainClear (unlockEnd 4 s)
  let s := { s with img := { s.img with phase := .inReset } }
  let s := (s.wr Fld.RESET_CAUSE_CAUSE cause).wrB Fld.RESET_CAUSE_LAN_COLD s.lan.coldSince
  { s with lan := { s.lan with coldSince := false } }

/-- The registers of the control die that a control-domain reset clears: LS_MM_INFO and the last signatures stay (R474, R484,
R485), and the table set in force comes back with the control sections (R344; DEDUCED). -/
def ctCleared (a : Nat) : Bool :=
  onControlDie a && !decide (Reg.LS_MM_INFO ≤ a ∧ a < 0x1F0030) && !decide (Reg.GC_STAT ≤ a ∧ a < 0x184100)

/-- The state of the control die after its reset (R166, R261, R430, R453). -/
def controlKept (s : State) : State :=
  { s with
    regs := Tab.keep (fun a => !ctCleared a) s.regs
    pwm := State.reset.pwm, gate := { State.reset.gate with enHigh := s.gate.enHigh, fltLow := s.gate.fltLow }, win := { State.reset.win with level := s.win.level, pins := s.win.pins }
    ls := { State.reset.ls with sig := s.ls.sig }
    safe := { State.reset.safe with pwWrong := s.safe.pwWrong, pwBlocked := s.safe.pwBlocked, pwLeft := s.safe.pwLeft }
    adc := [], loop := State.reset.loop, units := [], stages := [], trks := [], isl := State.reset.isl }

/-- A control-domain reset (R164, R166): no ticks until the control PLL is declared locked again and its copy of ring time is
aligned; a SELF_TEST_FULL in progress ends FAILED (R627). -/
def controlReset (s : State) : State :=
  let s := gateShow (meterReset (controlKept s))
  let s := { s with time := { s.time with resume := none, baseLost := false } }
  let s := ((s.wr Fld.CLK_STATUS_CTRL_LOCK 0).wr Fld.SCHED_CFG_TICK_RUN 0).inc Fld.RESET_CAUSE_CT_RESETS
  let s := (s.wr Fld.DBG_HALT_STATUS_CORE 0).wr Fld.DBG_HALT_STATUS_ENGINE 0
  forEach (opsWith s 0x51) opFail s

/-- The entry into Bivouac or Dormant (R75, R135, R136): at an orderly one the accumulators are copied first (R496). -/
def sleepEntry (orderly : Bool) (s : State) : State :=
  let s := if orderly then meterCopyOut s else s
  mainOff (lanternSleep orderly s)

end Sys2Proof.Machine
end

