-- ==== Sys2Proof/Machine/Sections.lean ====
section
/-!
DEFINITION. Machine/Sections.lean: what the sections of a pitch image load and what each load does to its block (R174, R184,
R585 of the chapters that name a section); the format inside a section is free (assumption 6).
-/
namespace Sys2Proof.Machine

/-! ### Loading registers -/

/-- The bits of a mask in a register take those of a word. -/
def putBits (a : Nat) (m w : Word) (s : State) : State := s.setReg a ((s.reg a &&& ~~~m) ||| (w &&& m))

/-- The sections whose calibration registers NODE also gives per cabinet (R174). -/
def calSections : List Nat := [0x06, 0x0A, 0x0D]

/-- The bits of a register that a load of section `sec` returns to their reset value before it: NODE leaves the calibrations
of other sections in place where it gives none. -/
def clearMask (sec a : Nat) : Word :=
  if sec = 0x7F then loadMask sec a &&& ~~~(calSections.foldl (fun m k => m ||| loadMask k a) 0#32) else loadMask sec a

/-- The registers a section loads, within some addresses, return to their reset values (DEDUCED: a section states every value
of its own). -/
def secClear (own : Nat → Bool) (sec : Nat) (s : State) : State :=
  s.regs.foldl (fun t e => if own e.1 then putBits e.1 (clearMask sec e.1) (resetWord e.1) t else t) s

/-- One value that a section gives: a register, or a word of bank A or B of the loop engine at the address that bank has in
the windows while bank A is active (R300). -/
def loadWord (own : Nat → Bool) (sec : Nat) (e : Nat × Word) (s : State) : State :=
  if sec = 0x08 ∧ 0x160000 ≤ e.1 ∧ e.1 < 0x168000 then s.setBankWord 0 (e.1 - 0x160000) (bankBits (e.1 - 0x160000) e.2)
  else if sec = 0x08 ∧ 0x150000 ≤ e.1 ∧ e.1 < 0x158000 then s.setBankWord 1 (e.1 - 0x150000) (bankBits (e.1 - 0x150000) e.2)
  else if own e.1 then putBits e.1 (loadMask sec e.1) e.2 s
  else s

/-- The values of NODE for the calibration registers of another section. -/
def nodeOverlay (own : Nat → Bool) (sec : Nat) (m : List Byte) (s : State) : State :=
  match imgSection m 0x7F with
  | some c => (Config.sectionLoads 0x7F c).foldl (fun s e =>
      if own e.1 then putBits e.1 (loadMask 0x7F e.1 &&& loadMask sec e.1) e.2 s else s) s
  | none => s

/-- The registers of section `sec` of an image, within some addresses. -/
def loadWithin (own : Nat → Bool) (sec : Nat) (m : List Byte) (s : State) : State :=
  let s := secClear own sec s
  let s := match imgSection m sec with
    | some c => (Config.sectionLoads sec c).foldl (fun s e => loadWord own sec e s) s
    | none => s
  if calSections.contains sec then nodeOverlay own sec m s else s

/-- Every register of section `sec`. -/
def loadRegs (sec : Nat) (m : List Byte) (s : State) : State := loadWithin (fun _ => true) sec m s

/-! ### Sections of the control die -/

/-- The LOOP section: both banks, from the control die's copy (R300, R305). -/
def loadLoop (m : List Byte) (s : State) : State :=
  loopLoaded (loadRegs 0x08 m { s with loop := { s.loop with bank0 := [], bank1 := [] } })

/-- The PWM section (R430). -/
def loadPwm (m : List Byte) (s : State) : State := pwmLoaded (loadRegs 0x09 m s)

/-- The TRIP section (R261, R438). -/
def loadTrip (m : List Byte) (s : State) : State := winLoad (gateLoad (loadRegs 0x07 m s))

/-- The ADC section (R225, R233, R238). -/
def loadAdc (m : List Byte) (s : State) : State := adcLoaded (loadRegs 0x06 m s)

/-- The ADC section at an activation that changes it (R185, R696). -/
def loadAdcNow (m : List Byte) (s : State) : State := adcChanged s (loadRegs 0x06 m s)

/-- The GRID section: a pair that no stage owns any longer is released, and each used stage asserts the sources of its state (R340, R420). -/
def loadGrid (m : List Byte) (s : State) : State :=
  let s := forEach stages (fun g s => when (s.rdB (Fld.GST_MAP_EN g)) (stageSources g) s) (ownersRelease (loadRegs 0x0A m s))
  settleTrips noPulse s

/-- The STRING section (R362). -/
def loadString (m : List Byte) (s : State) : State := settleTrips noPulse (stringLoaded (loadRegs 0x0B m s))

/-- The ISLAND section; while ticks run the block starts afresh in FALLBACK (R387). -/
def loadIsland (m : List Byte) (s : State) : State :=
  let s := loadRegs 0x0C m s
  if s.rdB Fld.SCHED_CFG_TICK_RUN then islandStart s else s

/-- The METER section at an activation that changes it (R494, R495). -/
def loadMeter (m : List Byte) (s : State) : State :=
  meterReconfigured (accBytes s) (chansOn s) (pinsOn s) (loadRegs 0x0D m s)

/-- Test-stand mode (R527): a departure from it with lockstep broken is a safety fault (R478). -/
def testStandEval (s : State) : State :=
  brokenSafety (s.wrB Fld.SAFE_STATUS_TEST_STAND (s.otp.lifecycle == 1 && s.rdB Fld.SAFE_CFG_TEST_STAND_REQ))

/-- The lockstep core restarts its safety sequencer (R169, R185, R525, R527). -/
def sequencerStart (s : State) : State :=
  safetyPending (testStandEval { s with safe := { s.safe with loaded := true, inputs := [], rbBad := [], rbGood := [], image := 0, sinceWrite := 0 } })

/-- The SAFETY section: the sequencer starts with it. -/
def loadSafety (m : List Byte) (s : State) : State := sequencerStart (loadRegs 0x0E m s)

/-- The SUPERVISION section (R481), of class Safety too: the sequencer restarts (R174, R185). -/
def loadSupervision (m : List Byte) (s : State) : State := sequencerStart (loadRegs 0x0F m s)

/-- The control sections of an image, as a boot or the reload after a control-domain reset brings them (R166, R169): the PWM section before the
TRIP section, whose load asks which pairs are used (R438). -/
def loadControl (m : List Byte) (s : State) : State :=
  let s := loadGrid m (loadTrip m (loadPwm m (loadLoop m (loadAdc m s))))
  let s := loadRegs 0x0D m (loadIsland m (loadString m s))
  loadSupervision m (loadSafety m s)

/-- EVT_N_n is driven low while a flag that the image routes to it is set (R50); it is released up to the first activation (R57). -/
def evtLow (s : State) (n : Nat) : Bool :=
  !pinsReset s && s.mainOn &&
    match imgSection s.img.active 0x0F with
    | some c => (Config.evtRouting c).any (fun e => e.1 == n && (s.reg e.2.1).getLsbD e.2.2)
    | none => false

/-- The ball EVT_N_n (R50, R57). -/
def evtPin (s : State) (n : Nat) : PinLevel := if evtLow s n then .low else .released

/-- The bits of a GC register that a table set gives: the register's own, and none of a register that is not of the set (R4, R344, R357). -/
def gcMask (a : Nat) : Word :=
  if Reg.GC_STAT < a ∧ a < 0x184100 then match descOf a with | some d => BitVec.ofNat 32 d.ro | none => 0#32 else 0#32

/-- The GC registers of a table set, before one is loaded: what the set does not give holds its reset word (DEDUCED, assumption 21). -/
def gcClear (s : State) : State :=
  forEach ((List.range 63).map (fun i => Reg.GC_STAT + 4 + 4 * i)) (fun a s => putBits a (gcMask a) (resetWord a) s) s

/-- The table set of the grid code in force is loaded (R344): at a main-domain reset, and at an activation while CT_CONV is
off. A code without a set leaves SET_OK 0 and is logged. -/
def gridSetLoad (s : State) : State :=
  if s.bit Fld.DOM_STATUS_ON 14 then s
  else
    let code := s.otp.gridCode
    let s := gcClear (s.wr Fld.GC_STAT_CODE_IN_FORCE code)
    let set := match imgSection s.img.active 0x0A with | some c => Config.gridSet c code | none => none
    match set with
    | some l => (l.foldl (fun s e => putBits e.1 (gcMask e.1) e.2 s) s).wr Fld.GC_STAT_SET_OK 1
    | none => (s.wr Fld.GC_STAT_SET_OK 0).logEv 0x13 0x0009 code

/-! ### Sections of the switch die and the Lantern -/

/-- The lanes among 0 to 127 whose own words or whose port differ between two states. -/
def ownLanesChanged (old new : State) : List Nat :=
  (List.range 128).filter (fun l =>
    decide (old.reg (Reg.RG_LANE_CFG l) ≠ new.reg (Reg.RG_LANE_CFG l)) || decide (portOf old l ≠ portOf new l))

/-- The lanes that retrain (R185): those that changed, and every lane of a port one of whose lanes or whose bonding changed. -/
def lanesChanged (old new : State) : List Nat :=
  let own := ownLanesChanged old new
  let ports := own.flatMap (fun l => (portOf old l).toList ++ (portOf new l).toList)
  (List.range 128).filter (fun l => own.contains l
    || (match portOf new l with
      | some p => ports.contains p || decide (old.reg (Reg.RG_PORT_CFG p) ≠ new.reg (Reg.RG_PORT_CFG p))
      | none => false))

/-- Lanes retrain where their domain is on, and are off where they are not used (R185, R539). -/
def lanesRetrain (l : List Nat) (s : State) : State :=
  forEach l (fun i s => s.wr (Fld.RG_LANE_STATUS_STATE i)
    (if s.rdB (Fld.RG_LANE_CFG_EN i) && s.bit Fld.DOM_STATUS_ON (5 + i / 16) then laneStart s i else 0)) (lanesDown l s)

/-- The LANES section (R121, R185, R562). -/
def loadLanes (m : List Byte) (s : State) : State :=
  let t := loadRegs 0x03 m s
  synceEval (lanesRetrain (lanesChanged s t) t)

/-- The registers that belong to plot `p` alone (R597, R599). -/
def ofPlot (p a : Nat) : Bool :=
  decide ((Reg.PQ_PLOT_CFG p ≤ a ∧ a < Reg.PQ_PLOT_CFG p + 0x40) ∨ (Reg.PQ_POL_RATE p 0 ≤ a ∧ a < Reg.PQ_POL_RATE p 0 + 0x30))

/-- The registers of the access ports (R600). -/
def portRegs (a : Nat) : Bool := decide (Reg.PQ_PORT_MAP 64 ≤ a ∧ a < Reg.PQ_PORT_MAP 128)

/-- The access ports that PLOT_p gives its plot. -/
def plotPortsLoad (p : Nat) (m : List Byte) (s : State) : State :=
  match imgSection m (0x20 + p) with
  | some c => (Config.sectionLoads (0x20 + p) c).foldl (fun s e => if portRegs e.1 then putBits e.1 (loadMask 0x20 e.1) e.2 s else s) s
  | none => s

/-- A port that belonged to plot `p` is unused until a section names it again; SHUT stays (R595). -/
def plotPortsClear (p : Nat) (s : State) : State :=
  forEach (List.range 64) (fun k s =>
    if s.rd (Fld.PQ_PORT_MAP_ROLE (64 + k)) = 1 ∧ s.rd (Fld.PQ_PORT_MAP_PLOT (64 + k)) = p then
      putBits (Reg.PQ_PORT_PCP (64 + k)) (loadMask 0x20 (Reg.PQ_PORT_PCP (64 + k))) 0#32
        (putBits (Reg.PQ_PORT_MAP (64 + k)) (loadMask 0x20 (Reg.PQ_PORT_MAP (64 + k))) 0#32 s)
    else s) s

/-- The frames of plot `p` leave a port's queue: discarded and counted there (R188). -/
def flushPlot (p port : Nat) (s : State) : State :=
  let q := s.pq port
  let out := q.queue.filter (fun x => x.frame.plot == some p)
  if out.isEmpty then s
  else out.foldl (fun s x => bufRelease x.buf (dropTx port s)) (s.setPq port { q with queue := q.queue.filter (fun x => x.frame.plot != some p) })

/-- A plot takes its section (R188, R574, R577, R585): its registers, its ports, its static entries; its buckets start full and
its secure associations are established anew; its frames in the buffer are discarded. -/
def loadPlot (p : Nat) (m : List Byte) (s : State) : State :=
  let s := forEach (portsOn s) (flushPlot p) s
  let s := plotPortsLoad p m (plotPortsClear p (loadWithin (ofPlot p) (0x20 + p) m s))
  let s := polFull p (fdbRepitch p ((imgSection m (0x20 + p)).getD []) s)
  s.wr (Fld.PQ_PLOT_STATUS_SA_UP p) 0

/-- The CLASSES section; the ports keep what their plots give them. -/
def loadClasses (m : List Byte) (s : State) : State :=
  forEach (List.range 64) (fun p s => plotPortsLoad p m s) (loadRegs 0x04 m s)

/-- With HARV_EN = 0 the boost is off; with HARV_EN = 1 it runs where the TEG delivers (R122, R125). -/
def harvEnApply (s : State) : State :=
  if s.rdB Fld.POWER_CFG_HARV_EN then { s with lan := { s.lan with boostOn := s.lan.boostOn || s.lan.harvest } }
  else { s with lan := { s.lan with boostOn := false, tegHold := 0 } }

/-- With CELL_TYPE = 0 no cell is declared: the switch is open; without a cell or a charge current nothing charges (R126, R127, R153). -/
def cellTypeApply (s : State) : State :=
  let s := harvEnApply s
  let s := if s.rd Fld.POWER_CFG_CELL_TYPE = 0 ∨ s.rd Fld.POWER_CFG_ICHG = 0 then
      { s with lan := { s.lan with chgDone := false, chgUa := 0 } }.wr Fld.LAN_STATUS_CHG_PHASE 0 else s
  supplyEval (if s.rd Fld.POWER_CFG_CELL_TYPE = 0 then s.wr Fld.LAN_STATUS_CELL_CONN 0 else s)

/-- The LANTERN section, and the position contacts that the image declares (R65, R66); a CELL_TYPE of 3 is ignored (R153). -/
def loadLantern (m : List Byte) (s : State) : State :=
  let old := s.rd Fld.POWER_CFG_CELL_TYPE
  let s := loadRegs 0x10 m s
  let s := cellTypeApply (if s.rd Fld.POWER_CFG_CELL_TYPE = 3 then s.wr Fld.POWER_CFG_CELL_TYPE old else s)
  let p := Config.posContacts m
  let s := (s.wrB Fld.BYP_PINS_POS_FIT_A p.1).wrB Fld.BYP_PINS_POS_FIT_B p.2
  (s.wrB Fld.BYP_PINS_POS_A (s.rdB Fld.BYP_PINS_POS_A && p.1)).wrB Fld.BYP_PINS_POS_B (s.rdB Fld.BYP_PINS_POS_B && p.2)

/-- What an activation does for one changed section (R185). FIRMWARE has no registers: its cores restart elsewhere. -/
def loadSection (m : List Byte) (id : Nat) (s : State) : State :=
  if id = 0x03 then loadLanes m s
  else if id = 0x04 then loadClasses m s
  else if id = 0x05 then loadRegs 0x05 m s
  else if id = 0x06 then loadAdcNow m s
  else if id = 0x07 then loadTrip m s
  else if id = 0x08 then loadLoop m s
  else if id = 0x09 then loadPwm m s
  else if id = 0x0A then loadGrid m s
  else if id = 0x0B then loadString m s
  else if id = 0x0C then loadIsland m s
  else if id = 0x0D then loadMeter m s
  else if id = 0x0E then loadSafety m s
  else if id = 0x0F then loadSupervision m s
  else if id = 0x10 then loadLantern m s
  else if 0x20 ≤ id ∧ id ≤ 0x5F then loadPlot (id - 0x20) m s
  else if id = 0x7F then calibrated s (adcTidy (loadRegs 0x7F m s))
  else s

/-- The sections of the switch die and the Lantern, and SCHEDULE and NODE, as the local activation of a boot brings them
(R169 step 7). -/
def loadSwitch (m : List Byte) (s : State) : State :=
  forEach ([0x03, 0x04, 0x05, 0x10] ++ (List.range 64).map (0x20 + ·) ++ [0x7F]) (loadSection m) s

end Sys2Proof.Machine
end

