-- ==== Sys2Proof/Machine/Activate.lean ====
section
/-!
DEFINITION. Machine/Activate.lean: what the image brings into force (spec/06_startup_and_pitch_image.md): the reload of the
control die, the domains that come up, steps of the frame number, activations, re-pitches and their misses (R53, R166, R180 to R190).
-/
namespace Sys2Proof.Machine

/-! ### Digest agreement and banks (R53, R190) -/

/-- The node's own ACT values are compared with EXP: a rise of SELF_MISMATCH is recorded and logged (R190, R198, R205). -/
def selfCompare (s : State) : State :=
  let zero := (List.range 4).all (fun w => s.rd (Fld.EXP_DIGEST w) == 0)
  let bad := !zero && ((List.range 4).any (fun w => s.rd (Fld.ACT_DIGEST w) != s.rd (Fld.EXP_DIGEST w))
    || s.rd Fld.ACT_EPOCH != s.rd Fld.EXP_EPOCH)
  let was := s.rdB Fld.AGREE_STATUS_SELF_MISMATCH
  let s := s.wrB Fld.AGREE_STATUS_SELF_MISMATCH bad
  if bad && !was then (s.wr Fld.AGREE_STATUS_SELF_MISMATCH_EV 1).logEv 0x04 0x0008 16 else s

/-- Bank `b` differs from its declaration, or is not present (R53; BANKS declares every bank 2 to 7). -/
def bankMismatch (s : State) (b : Nat) : Bool :=
  !s.bit Fld.IO_BANK_STATUS_PRESENT b || (s.bit Fld.IO_BANK_STATUS_DET_3V3 b != s.bit Fld.IO_BANK_STATUS_DECL_3V3 b)

/-- The bank checks of an activation (R53). -/
def bankCheck (s : State) : State :=
  let s := forEach [2, 3, 4, 5, 6, 7] (fun b s =>
    when (bankMismatch s b) (fun s => s.logEv 0x02 0x0006 b) (s.wrBit Fld.IO_BANK_STATUS_MISMATCH b (bankMismatch s b))) s
  let s := safetyPending (gateBank s)
  if bankBad s 6 || bankBad s 7 then enterLockout 9 0 s else s

/-! ### Ticks, reloads and domains (R26, R74, R75, R166, R169, R234, R430) -/

/-- The control die generates ticks (R26, R169, R387). -/
def ticksStart (s : State) : State :=
  let s := s.wr Fld.SCHED_CFG_TICK_RUN 1
  islandStart { s with lan := { s.lan with ctHbSeen := false }, time := { s.time with resume := none } }

/-- The boot has loaded the control sections (R169 step 6). -/
def controlDue (s : State) : Bool := s.img.phase == .booted || s.img.phase == .controlLoaded

/-- The control sections of the verified copy are reloaded once the control PLL is locked after a control-domain reset (R166,
R496); nothing else reloads them. -/
def controlReload (s : State) : State :=
  if controlDue s = true ∧ s.safe.loaded = false then meterRestore (loadControl s.img.active s) else s

/-- CT_CONV is powered up: banks, shadows and the grid-sync units G0 to G7 start from the control die's copy (R305, R430). -/
def convUp (s : State) : State :=
  let s := if s.img.phase = .booted then loadPwm s.img.active (loadLoop s.img.active s) else s
  pwmPowerUp { s with units := Tab.keep (fun u => u == 8) s.units }

/-- What starts with a domain that has come up (R68, R539). -/
def domainUp (d : Nat) (s : State) : State :=
  if d = 0 then forwardingResume s
  else if 5 ≤ d ∧ d ≤ 12 then lanesOn (d - 5) s
  else if d = 14 then convUp s
  else if d = 15 ∧ s.img.phase = .booted then loadAdc s.img.active s
  else s

/-- An ADC core that Ring-only does not keep is powered down; the reference of a group with a kept core stays (R74, R216, R234). -/
def coreOff (kept : List Nat) (c : Nat) (s : State) : State :=
  let r := Reg.ADC_REF_CFG (4 * (c / 4))
  let w := s.reg r
  let s := adcCoreOff c { s with pwr := { s.pwr with coresOff := setBitOf s.pwr.coresOff c true } }
  if kept.any (fun k => k / 4 == c / 4) then s.setReg r w else s

/-- Entry into Ring-only: the unkept cores go off (R75, R235). -/
def coresDown (s : State) : State :=
  let kept := adcCores.filter (fun c => s.rdB (Fld.ADC_CORE_CFG_KEEP c))
  forEach (adcCores.filter (fun c => !kept.contains c)) (coreOff kept) s

/-- A rail fault of VDDA (R73, R234): every core is powered down, the kept ones too. They power up at the next return to Run or power-up of ANA
(DEDUCED, assumption 108). -/
def coresLost (s : State) : State :=
  if s.bit Fld.DOM_STATUS_ON 15 then
    let s := forEach adcCores (coreOff []) s
    { s with pwr := { s.pwr with vddaLost := true } }
  else s

/-- Return to Run: the unkept cores power up and reload the ADC section (R75, R234). -/
def coresUp (s : State) : State :=
  if s.pwr.coresOff = 0 then s
  else
    let off := s.pwr.coresOff
    let s := { s with pwr := { s.pwr with coresOff := 0, vddaLost := false } }
    let s := loadWithin (fun a => match adcCoreOf a with | some c => off.testBit c | none => false) 0x06 s.img.active s
    coresStart (adcCores.filter (fun c => off.testBit c)) s

/-- An activation in Ring-only judges KEEP anew (R235): a core that is kept now powers up, and one that is no longer kept goes off. -/
def coresKeep (s : State) : State :=
  if s.rd Fld.PWR_STATE_STATE ≠ 2 then s
  else if s.pwr.vddaLost then forEach adcCores (coreOff []) s
  else
    let off := s.pwr.coresOff
    let kept := adcCores.filter (fun c => s.rdB (Fld.ADC_CORE_CFG_KEEP c))
    let s := forEach (adcCores.filter (fun c => !kept.contains c)) (coreOff kept) s
    let up := kept.filter (fun c => off.testBit c)
    if up.isEmpty then s
    else coresStart up { s with pwr := { s.pwr with coresOff := up.foldl (fun m c => setBitOf m c false) s.pwr.coresOff } }

/-! ### Misses (R28, R187) -/

/-- The long operation of a pending activation or re-pitch, if it is still in the table. -/
def actOp (s : State) : Option Nat := (opsWith s 0x22 ++ opsWith s 0x24).head?

/-- The activation's operation ends (R181, R187). -/
def actOpEnd (state status : Nat) (s : State) : State := match actOp s with | some k => opEnd k state status [] s | none => s

/-- The pending record is erased; the slot stays STAGED (R182, R187), and the consent lapses (R620). -/
def pendingErase (s : State) : State :=
  let s := saveRec { liveRec s with pending := none, commit := false } s
  { s with img := { s.img with consent := none, unresolved := false } }

/-- A missed activation (R187). -/
def missActivation (reason : Nat) (s : State) : State :=
  let s := (s.wr Fld.IMG_STATUS_EPOCH_MISSED 1).wr Fld.IMG_STATUS_MISS_REASON reason
  actOpEnd 5 8 (pendingErase (s.logEv 0x04 0x0006 reason))

/-- Frame `f` lies between two frame numbers: a forward step from `old` to `new` jumps over it (R28). -/
def jumped (old new f : Nat) : Bool := fnLater f old && fnLater new f

/-- What a forward step jumps over is missed: an activation, a bank swap, a table swap, an insertion, a removal or a quiesce of a ring, a
snapshot (R28, R187, R308, R584). -/
def jumpOver (old new : Nat) (s : State) : State :=
  let s := when (decide (s.rd Fld.LE_STATUS_ARM_STATE ≠ 0) && jumped old new (swapAt s)) (swapDiscard 2) s
  let s := match s.plots.armedAt with | some f => when (jumped old new f) (fdbDiscard 2) s | none => s
  let s := match (liveRec s).pending with | some p => when (!s.img.unresolved && jumped old new p.target) (missActivation 1) s | none => s
  snapMissed (ringMissed (jumped old new) s)

/-- The frame number has stepped from `old` to `new` (R28, R494). -/
def stepped (old new : Nat) (s : State) : State :=
  let s := meterStepped old new s
  if fnLater new old then jumpOver old new s else s

/-! ### Activation and re-pitch (R181, R185, R188) -/

/-- A section of a class changes between two images. -/
def anyChanged (ids : List Nat) (old new : List Byte) : Bool := ids.any (secChanged old new)

/-- The conversion sections (R174). -/
def conversionIds : List Nat := [0x05, 0x06, 0x07, 0x08, 0x09, 0x0A, 0x0B]

/-- Why a pending activation cannot be made now (R181, R185, R187): the lowest reason that applies. -/
def missReason (p : PendingAct) (s : State) : Option Nat :=
  if s.unsynced && !p.isLocal then some 2
  else if !s.rdB Fld.IMG_STATUS_PRELOADED then some 3
  else if s.bit Fld.DOM_STATUS_ON 14 && anyChanged conversionIds s.img.active (s.flash.slot p.slot) then some 4
  else none

/-- An activation or a re-pitch is made in the tick cycle of this frame (R39). That a re-pitch too discards a BANK_SWAP armed for its frame is
the model's choice (DESIGN CHOICE, assumption 86): R39, R182 and R303 name an image activation alone, R584 names both for the table swap. -/
def activatesNow (s : State) : Bool :=
  match (liveRec s).pending with
  | some p => decide (s.img.phase = .booted) && !s.img.unresolved && p.target == s.fn && (missReason p s).isNone && !s.clogFull
  | none => false

/-- LE_SWAP (R303): in the tick cycle of frame F; the change log's entry has KIND 5 and the digest. An activation in the same tick cycle
discards the swap, whichever is looked at first (R39). -/
def execLeSwap (s : State) : Host.Outcome State Fault Refusal :=
  run (fun s =>
    if s.rd Fld.LE_STATUS_ARM_STATE = 2 ∧ swapAt s = s.fn ∧ s.rdB Fld.SCHED_CFG_TICK_RUN = true then
      if activatesNow s then swapDiscard 1 s else if s.clogFull then s else bankSwapNow s
    else s) s

/-- FDB_SWAP (R39, R584): at frame F the inactive bank becomes active, or the swap is discarded where an activation or a re-pitch falls on
F or forwarding is stopped; never late. -/
def execFdbSwap (s : State) : Host.Outcome State Fault Refusal :=
  run (fun s => match s.plots.armedAt with
    | none => s
    | some f =>
      if fnLater f s.fn then s
      else if f ≠ s.fn then fdbDiscard 2 s
      else if activatesNow s then fdbDiscard 1 s
      else if !s.ring.forwarding then fdbDiscard 3 s
      else fdbSwapNow s) s

/-- Swaps targeted at the frame of an activation are discarded (R39, R182, R584). -/
def swapsGive (s : State) : State :=
  let s := when (decide (s.rd Fld.LE_STATUS_ARM_STATE ≠ 0) && swapAt s == s.fn) (swapDiscard 1) s
  when (s.plots.armedAt == some s.fn) (fdbDiscard 1) s

/-- The registers that every activation loads, whether or not it changes their section (R121, R217, R269, "Lantern domain", R238): what a
session has written into them since goes, and nothing else is disturbed (DEDUCED, assumption 71). -/
def loadAlways (new : List Byte) (id : Nat) (s : State) : State :=
  if id = 0x03 then synceEval (loadWithin (fun a => a == Reg.SYNCE_CFG) 0x03 new s)
  else if id = 0x06 then adcTidy (loadRegs 0x06 new s)
  else if id = 0x07 then windowsFollow (loadWithin (fun a => decide (0x120000 ≤ a ∧ a < 0x121000)) 0x07 new s)
  else if id = 0x10 then loadLantern new s
  else s

/-- The order in which an activation loads the sections: the PWM section before the TRIP section, whose load asks which pairs are used (R438). -/
def loadOrder : List Nat := 0x09 :: sectionIds.filter (fun id => id != 0x09)

/-- The changed sections come into force, each by its class (R185). -/
def swapSections (old new : List Byte) (s : State) : State :=
  let s := if anyChanged [0x0E, 0x0F] old new then enterLockout 1 0 s else s
  forEach loadOrder (fun id => if secChanged old new id then loadSection new id else loadAlways new id) s

/-- The slot and the registers after an activation (R181): the record is rewritten later. -/
def slotsSwap (k : Nat) (s : State) : State :=
  let s := { s with img := { s.img with commitDue := true, rewriteDue := true, activeFrames := 0, shadow := [], consent := none } }
  let s := (s.wr Fld.IMG_STATUS_ACT_SLOT k).wr Fld.IMG_STATUS_PRELOADED 0
  selfCompare (showActive (showPending (showSlots s)))

/-- The record of an activation or a re-pitch: trouble log, change log, and the end of its operation (R181, R188, R194). -/
def actRecord (p : PendingAct) (s : State) : State :=
  let d := imgDigest s.img.active
  let o := match actOp s with | some k => s.op k | none => none
  let role := match o with | some o => o.role | none => 0
  let sess := match o with | some o => if o.session < 64 then o.session else 0xFFFF | none => 0xFFFF
  let s := match p.plot with
    | some q => (s.logEv 0x04 0x0007 q).clogPush role sess 2 q d
    | none => (s.logEv 0x04 0x0005 (imgEpoch s.img.active)).clogPush role sess 1 p.slot d
  actOpEnd 3 0 s

/-- What an image activation does to the sections, whose classes it changes, and to the registers that it always loads (R181, R185). -/
def activateAll (old new : List Byte) (s : State) : State :=
  let s := if anyChanged [0x03, 0x04] old new then wakeCmd 15 s else s
  let s := bankCheck (adcSuspendStall (coresKeep (gridSetLoad (swapSections old new s))))
  if secChanged old new 0x02 then appCoresRestart (appCoresStop s) else s

/-- The staged image becomes active (R181, R185); a re-pitch disturbs nothing but its plot (R188). -/
def activate (p : PendingAct) (s : State) : State :=
  let old := s.img.active
  let new := s.flash.slot p.slot
  let s := { swapsGive s with img := { (swapsGive s).img with active := new } }
  let s := match p.plot with
    | some q => loadSection new (0x20 + q) s
    | none => activateAll old new s
  actRecord p (slotsSwap p.slot s)

/-- In the tick cycle of its target, a pending activation is made or missed (R181, R187). A full change queue leaves no place for
its entry, so it is not made (R196); the spec names no reason for that: it is a free value. -/
def activateNow (s : State) : State :=
  match (liveRec s).pending with
  | none => s
  | some p =>
    match missReason p s with
    | some r => missActivation r s
    | none => if s.clogFull then missActivation (s.free.1 % 16) s.free.2 else activate p s

/-! ### Counted settings (R191, R192) -/

/-- A counted setting takes effect (R191, R194): its value, and its entry in both logs. -/
def otpApply (j : OtpJob) (s : State) : State :=
  let o := s.otp
  let s := if j.offset = 0x100 then { s with otp := { o with gridCode := j.value } }
    else if j.offset = 0x104 then { s with otp := { o with role := j.value } }
    else if j.offset = 0x108 then { s with otp := { o with spw := j.hash } }
    else if j.offset = 0x14 then { s with otp := { o with lifecycle := j.value } }
    else s
  let s := s.logEv 0x04 0x000A j.offset
  let new := if j.offset = 0x108 then 0 else if j.offset = 0x10C then o.tokenRemain else j.value
  otpShow (s.clogPush j.role (if j.session < 64 then j.session else 0xFFFF) 3 j.offset (newOf new))

end Sys2Proof.Machine
end

