-- ==== Sys2Proof/Machine/Power.lean ====
section
/-!
DEFINITION. Machine/Power.lean: supplies, domains and power states (spec/03_supplies_and_power_states.md) and the I/O
banks (spec/02_package_and_pins.md): rail sequencing, wake admission, draining, state changes and rail faults.
-/
namespace Sys2Proof.Machine

/-! ### Domains and loads (R68) -/

/-- Max load of a domain in units of 0.25 W (R68). -/
def maxLoad (d : Nat) : Nat :=
  if d = 0 then 200 else if d < 5 then 13 else if d < 13 then 26
  else if d = 13 then 9 else if d = 14 then 15 else if d = 15 then 12 else 0

/-- Surge of a domain in units of 0.25 W (R68). -/
def surge (d : Nat) : Nat :=
  if d = 0 then 80 else if d < 5 then 12 else if d < 13 then 16
  else if d = 13 then 8 else if d = 14 then 12 else if d = 15 then 6 else 0

/-- The bits of a 16-bit mask that are set, ascending. -/
def bitsOf (n m : Nat) : List Nat := (List.range n).filter (fun i => m.testBit i)

/-- Domain masks of the power states (R74): Run, Idle without APP1 to APP3, Ring-only without CT_CONV, Switch-only without the control die; the
sleep states have none. -/
def stateMask (used st : Nat) : Nat :=
  match st with
  | 0 => used
  | 1 => used &&& 0xFFE3
  | 2 => used &&& 0xBFFF
  | 3 => used &&& 0x1FFF
  | _ => 0

/-- The state whose domains a leg of a change asks for (R75): a leg into Bivouac or Dormant asks for none. -/
def legState (leg : Nat) : Nat := if leg ≤ 2 then leg else 4

/-- A domain is on and good (R89). -/
def State.domOn (s : State) (d : Nat) : Bool := s.bit Fld.DOM_STATUS_ON d

/-- QUEUED follows the wake queue (R93), and what has left it waits no longer. -/
def State.setWakeQ (s : State) (q : List Nat) : State :=
  { s with pwr := { s.pwr with wakeQ := q, wakeAge := Tab.keep q.contains s.pwr.wakeAge } }.wr Fld.INRUSH_STATUS_QUEUED q.length

/-- The wake of domain `d` is in progress (R93). -/
def State.waking (s : State) (d : Nat) : Bool := s.rd Fld.INRUSH_STATUS_WAKING == d

/-- The head of the drain queue stops admitting transfers: from that cycle it reads 0 in DOM_STATUS (R83, R84, R89). -/
def State.setDrainQ (s : State) (q : List Nat) : State :=
  let s := { s with pwr := { s.pwr with drainQ := q } }
  match q with
  | d :: _ => settleTrips noPulse (s.wrBit Fld.DOM_STATUS_ON d false)
  | [] => s

/-- A wake request for domain `d` (R81, R82): cancels its drain; is refused if it can never fit the budget; else queued once. -/
def requestWake (d : Nat) (s : State) : State :=
  if s.pwr.drainQ.contains d then
    (s.wrBit Fld.DOM_STATUS_ON d (!s.waking d)).setDrainQ (s.pwr.drainQ.filter (· ≠ d))
  else if s.domOn d || s.pwr.wakeQ.contains d || s.waking d then s
  else if maxLoad d + surge d > s.rd Fld.INRUSH_CFG_BUDGET then
    ((s.wr Fld.PWR_EVENTS_WAKE_REFUSED 1).wr Fld.PWR_EVENTS_LAST_DOM d).answerSt .noResource
  else s.setWakeQ (s.pwr.wakeQ ++ [d])

/-- A power-down request for domain `d` (R82, R84): removes a queued wake, else joins the drain queue, where that of a domain that is waking is
served once it is good (DESIGN CHOICE, assumption 61). -/
def requestDown (d : Nat) (s : State) : State :=
  if s.pwr.wakeQ.contains d then s.setWakeQ (s.pwr.wakeQ.filter (· ≠ d))
  else if (s.domOn d || s.waking d) && !s.pwr.drainQ.contains d then s.setDrainQ (s.pwr.drainQ ++ [d])
  else s

/-- The power manager rewrites DOM_REQ and asks for every domain of a mask, and for no other (R90). -/
def requestMask (m : Nat) (s : State) : State :=
  let s := ((s.wr Fld.DOM_REQ_REQ_SW (m % 32)).wr Fld.DOM_REQ_REQ_SDG (m / 32 % 256)).wr Fld.DOM_REQ_REQ_CT (m / 8192 % 8)
  forEach (List.range 16) (fun d s => if m.testBit d then requestWake d s else requestDown d s) s

/-! ### Rails (R67 to R73) -/

/-- Steps of the rail sequence (R70): class, and the bank for class VDDIO. -/
def railSteps : List (Nat × Nat) :=
  [(1, 0), (2, 0), (3, 2), (3, 3), (3, 4), (3, 5), (3, 6), (3, 7), (4, 0), (5, 0), (6, 0), (7, 0)]

/-- The rails of one step of the sequence, as a mask of REG_EN_nn. AUX_CONV (step 11) is on only while CT_CONV is on (R70). -/
def railsOfStep (s : State) (k : Nat) : Nat :=
  match railSteps[k]? with
  | none => 0
  | some (c, b) =>
    if c = 7 ∧ s.domOn 14 = false then 0 else
    (List.range 16).foldl (fun m n =>
      if s.rd (Fld.RAIL_CFG_CLASS n) = c ∧ (c ≠ 3 ∨ s.rd (Fld.RAIL_CFG_BANK n) = b) then setBitOf m n true else m) 0

/-- REG_EN levels follow the latches (R95), but those that a scan instruction holds (R60). -/
def State.setRegEn (s : State) (m : Nat) : State :=
  let s := { s with pwr := { s.pwr with regEn := m } }
  s.wr Fld.RAIL_STATUS_EN (regEnOut s)

/-- The next step at or after `k` that has rails. -/
def nextStepUp (s : State) : Nat → Nat → Option Nat
  | 0, _ => none
  | n + 1, k => if railsOfStep s k ≠ 0 then some k else nextStepUp s n (k + 1)

/-- Enables the rails of the next step that has any, from step `k` on; with none left, every rail of the plan is good. -/
def railsOn (k : Nat) (s : State) : State :=
  match nextStepUp s (12 - k) k with
  | some j => { s with pwr := { s.pwr with seqUp := some true, seqStep := j } }.setRegEn (s.pwr.regEn ||| railsOfStep s j)
  | none => { s with pwr := { s.pwr with seqUp := none, railsUp := true } }

/-- The rails that were enabled as those of step `k`, by the plan that enabled them (R70, R71). -/
def railsOfPlan (s : State) (k : Nat) : Nat :=
  match railSteps[k]? with
  | none => 0
  | some (c, b) =>
    (List.range 16).foldl (fun m n =>
      if (Tab.get (0, 0) s.pwr.plan n).1 = c ∧ (c ≠ 3 ∨ (Tab.get (0, 0) s.pwr.plan n).2 = b) then setBitOf m n true else m) 0

/-- The rails of step `k` that are enabled now and are to be switched off, whatever the state of CT_CONV. -/
def railsOnAt (s : State) (k : Nat) : Nat := railsOfPlan s k &&& s.pwr.regEn &&& s.pwr.offSet

/-- AUX_CONV is on only while CT_CONV is on (R70): its rails go off with the domain. -/
def auxOff (s : State) : State := s.setRegEn (s.pwr.regEn - (s.pwr.regEn &&& railsOfPlan s 11))

/-- VDD_CT is switched off, or has failed: the control die's output stage has no supply (R58). -/
def ctSupplyOff (k : Nat) (s : State) : State := if k = 0 then { s with pwr := { s.pwr with ctSupply := false } } else s

/-- The last step at or before `k - 1` with a rail enabled. -/
def nextStepDown (s : State) : Nat → Option Nat
  | 0 => none
  | k + 1 => if railsOnAt s k ≠ 0 then some k else nextStepDown s k

/-- Domain `d` is switched off in this cycle: LOAD falls by its max load (R84), and what the domain held stops. -/
def domainOff (d : Nat) (s : State) : State :=
  let s := s.wrBit Fld.DOM_STATUS_ON d false
  let s := s.wr Fld.INRUSH_STATUS_LOAD (s.rd Fld.INRUSH_STATUS_LOAD - maxLoad d)
  domainLost d (if d = 14 then auxOff s else s)

/-- Domain `d` loses its supply at once (R73): on or draining it goes off, and its wake, queued wake or power-down request is void. -/
def domainForceOff (d : Nat) (s : State) : State :=
  let draining := s.pwr.drainQ.head? == some d && !s.waking d
  let s := when (s.pwr.wakeQ.contains d) (fun s => s.setWakeQ (s.pwr.wakeQ.filter (· ≠ d))) s
  let s := if s.waking d then (s.wrBit Fld.DOM_STATUS_ON d false).wr Fld.INRUSH_STATUS_WAKING 0x1F
    else if s.domOn d || draining then domainOff d s else s
  when (s.pwr.drainQ.contains d) (fun s => s.setDrainQ (s.pwr.drainQ.filter (· ≠ d))) s

/-- The domains that the rails of a step of the sequence supply (R68): VDD_CT, VDDA, VDD_SD and VDDH_SD. -/
def domainsOfStep (k : Nat) : List Nat :=
  if k = 0 then [13, 14, 15] else if k = 1 then [15] else if k = 8 ∨ k = 9 then (List.range 8).map (5 + ·) else []

/-- Switches off the rails of the last step below `k` that has any to be switched off, and with them the domains that they supply; with none left,
the sequence has ended (R70), and the rails of the plan are switched on where a boot waits for that (R71). -/
def railsDown (k : Nat) (s : State) : State :=
  match nextStepDown s k with
  | some j =>
    let off := railsOnAt s j
    let s := forEach (domainsOfStep j) domainForceOff s
    let s := ctSupplyOff j (s.setRegEn (s.pwr.regEn - (s.pwr.regEn &&& off)))
    let p := { s.pwr with seqUp := some false, seqStep := j, railsUp := false }
    { s with pwr := { p with change := p.change.map fun c => { c with railOff := true } } }
  | none =>
    let s := s.setRegEn (s.pwr.regEn - (s.pwr.regEn &&& s.pwr.offSet))
    let s := { s with pwr := { s.pwr with seqUp := none, railsUp := false } }
    if s.pwr.thenUp then railsOn 0 { s with pwr := { s.pwr with thenUp := false } } else s

/-- Begins to switch off the rails of a set, the last step of the sequence first (R70, R71). -/
def railsOff (set : Nat) (thenUp : Bool) (s : State) : State :=
  railsDown 12 { s with pwr := { s.pwr with offSet := set, thenUp := thenUp } }


/-- AUX_CONV is switched on once CT_CONV is on (R70), unless a sequence runs already. -/
def auxOn (s : State) : State := if s.pwr.seqUp.isNone && decide (railsOfStep s 11 ≠ 0) then railsOn 11 s else s

/-! ### Pairs and banks (R52 to R54) -/

/-- A bank supply is below its present threshold: IO_BANK_STATUS follows, the pairs with a ball in bank 2, 3 or 4 trip with IO_SUPPLY
(a live source), and banks 6 and 7 lock out (R54, R522). For bank 5 the pulse-input intervals are marked POWER (R73, R494), and the first level
accepted once it is powered again counts no pulse (R497). -/
def bankLost (b : Nat) (s : State) : State :=
  let s := { s with pwr := { s.pwr with bankPresent := setBitOf s.pwr.bankPresent b false,
                                         bank3v3 := setBitOf s.pwr.bank3v3 b false } }
  let s := declMirror ((s.wrBit Fld.IO_BANK_STATUS_PRESENT b false).wrBit Fld.IO_BANK_STATUS_DET_3V3 b false)
  let s := gateBank s
  let s := when (b == 5) (fun s => pinsForget (pulseInvalid 0x20 s)) s
  when (b == 6 || b == 7) (enterLockout 9 0) s

/-- The supplies of the banks have new levels (R52): present, and 3.3 V. -/
def bankLevels (present det : Nat) (s : State) : State :=
  let s := forEach ((List.range 8).filter (fun b => s.pwr.bankPresent.testBit b && !present.testBit b)) bankLost s
  let s := { s with pwr := { s.pwr with bankPresent := present, bank3v3 := det &&& present } }
  safetyPending (gateBank (declMirror ((s.wr Fld.IO_BANK_STATUS_PRESENT present).wr Fld.IO_BANK_STATUS_DET_3V3 (det &&& present))))

/-- IO_BANK_SUPPLY_LOSS (R54). -/
def execIoBankSupplyLoss (b : Fin 8) (s : State) : Host.Outcome State Fault Refusal := run (bankLost b.val) s

/-! ### Changes of state (R74 to R79) -/

/-- The bias and assist of APP0 in a power state (R78). -/
def biasOf (st : Nat) : Nat × Assist := if st = 1 then (Config.pSw + 1, .wa) else (Config.pSw, .nom)

/-- The reverse body bias level and assist mode of a domain (R78): those of APP0 follow the state; APP1 to APP3 keep their L2 arrays at
retention while they are off, which a domain that still drains is not; the SerDes groups and the control die have no bias. -/
def domainBias (s : State) (d : Nat) : Nat × Assist :=
  if d = 1 then (s.pwr.biasApp0, s.pwr.assistApp0)
  else if 2 ≤ d ∧ d ≤ 4 ∧ s.bit Fld.DOM_STATUS_ON d = false ∧ s.pwr.drainQ.head? ≠ some d then (Config.pSw, .ret)
  else if d ≤ 4 then (Config.pSw, .nom)
  else (0, .nom)


/-- A bias change that is due starts, unless one is in progress; the clock of APP0 is lowered before its bias rises (R79). -/
def biasTick (s : State) : State :=
  match s.pwr.biasDue, s.pwr.biasBusy with
  | some b, none => { s with pwr := { s.pwr with biasDue := none, biasBusy := some b,
                                                  app0Slow := s.pwr.app0Slow || decide (s.pwr.biasApp0 < b.1) } }
  | _, _ => s

/-- A bias change starts at once while no ticks run (R79). -/
def biasStart (s : State) : State := if s.rdB Fld.SCHED_CFG_TICK_RUN then s else biasTick s

/-- Asks for the bias of APP0 in a state: changed at the next frame tick, or at once while no ticks run (R79); a change in progress is
completed first. -/
def requestBias (st : Nat) (s : State) : State :=
  let now := s.pwr.biasBusy.getD (s.pwr.biasApp0, s.pwr.assistApp0)
  biasStart { s with pwr := { s.pwr with biasDue := if now = biasOf st then none else some (biasOf st) } }

/-- No bias change is due or in progress. -/
def biasQuiet (s : State) : Bool := s.pwr.biasDue.isNone && s.pwr.biasBusy.isNone

/-- A pending request is taken out and handed on (R76). -/
def pendingTake (s : State) : Option (Nat × Nat) × State := (s.pwr.pendingReq, { s with pwr := { s.pwr with pendingReq := none } })

/-- The change ends in a state of the main domain: PWR_STATE is updated (R76, R77). -/
def endChange (st cause : Nat) (s : State) : State :=
  let s := { s with pwr := { s.pwr with change := none } }
  (((s.wr Fld.PWR_STATE_STATE st).wr Fld.PWR_STATE_TARGET st).wr Fld.PWR_STATE_BUSY 0).wr Fld.PWR_STATE_LAST_CAUSE cause

/-- A wake that the change needed has failed (R81): the part returns to its previous state, and the domains already woken are
drained again. -/
def changeFail (s : State) : State :=
  match s.pwr.change with
  | none => s
  | some c => endChange c.fromState 5 (requestBias c.fromState (requestMask c.fromOn s))

/-- Every domain of a mask is on, waking or queued. -/
def domainsComing (m : Nat) (s : State) : Bool :=
  (bitsOf 16 m).all (fun d => s.domOn d || s.pwr.wakeQ.contains d || s.waking d)

/-- The domains part of a leg begins: the entry into Ring-only trips every pair (R75); a wake refused for want of budget fails
the change (R81; DEDUCED). -/
def startDomains (s : State) : State :=
  match s.pwr.change with
  | none => s
  | some c =>
    let s := { s with pwr := { s.pwr with change := some { c with phase := .domains } } }
    let m := stateMask s.pwr.used (legState c.leg)
    let s := requestMask m (if c.leg = 2 then settleTrips (fun _ => 2 ^ 21) s else s)
    if domainsComing m s then s else changeFail s

/-- Begins one leg of a change (R75): Run is entered by changing APP0's bias before any wake, Ring-only by stopping the stages first, as an
operator stop would. -/
def startLeg (c : PwrChange) (s : State) : State :=
  let s := { s with pwr := { s.pwr with change := some c } }
  let s := ((s.wr Fld.PWR_STATE_TARGET c.goal).wr Fld.PWR_STATE_BUSY 1)
  match c.leg with
  | 0 =>
    let s := requestBias 0 s
    if biasQuiet s then startDomains s else { s with pwr := { s.pwr with change := some { c with phase := .bias } } }
  | 1 => startDomains (requestBias 1 s)
  | 2 =>
    let s := stopAll (requestBias 2 s)
    if allStopped s then startDomains s
    else { s with pwr := { s.pwr with change := some { c with phase := .stopping, stopLeft := 9999 } } }
  | _ => startDomains s

/-- The first leg from one state towards a goal (R75): Run before Ring-only from Idle; Ring-only before a sleep state. The table has no
transition from Ring-only to Idle: it is made in one leg (DESIGN CHOICE, assumption 77). -/
def firstLeg (st goal : Nat) : Nat :=
  if goal ≤ 1 then goal
  else if st = 1 then 0
  else if goal = 2 then 2
  else if st = 0 then 2
  else goal

/-- Starts a change to a goal now; an orderly entry into Bivouac or Dormant removes the node from its rings (R553). -/
def startChange (goal cause : Nat) (s : State) : State :=
  let st := s.rd Fld.PWR_STATE_STATE
  let s := if 3 ≤ goal then leaveRings 3 s else s
  startLeg { goal := goal, leg := firstLeg st goal, cause := cause, fromState := st, fromOn := s.rd Fld.DOM_STATUS_ON,
             phase := .domains, stopLeft := 0, railOff := false } s

/-- A request for a power state (R74 to R77, R88): ignored and logged as BAD_VALUE in Switch-only unless it asks for sleep;
held while a change or the boot is in progress, a held one being dropped; nothing if the part is in that state (code 3 is Switch-only in STATE and
Bivouac in REQ). -/
def requestState (goal cause : Nat) (s : State) : State :=
  if 4 < goal ∨ (s.rd Fld.PWR_STATE_STATE = 3 ∧ goal ≤ 2) then s.logEv 0x01 0x0005 Reg.PWR_CTRL
  else if s.pwr.change.isSome || s.rdB Fld.PWR_STATE_BUSY then
    let s := when s.pwr.pendingReq.isSome (fun s => s.wr Fld.PWR_EVENTS_REQ_DROPPED 1) s
    { s with pwr := { s.pwr with pendingReq := some (goal, cause) } }
  else if s.rd Fld.PWR_STATE_STATE = goal ∧ goal ≤ 2 then s else startChange goal cause s

/-- A request that was held is applied once no change is in progress (R76). -/
def pendingApply (s : State) : State :=
  let p := pendingTake s
  if s.pwr.change.isSome || s.rdB Fld.PWR_STATE_BUSY then s
  else match p.1 with
    | some (g, c) => requestState g c p.2
    | none => s

/-- The state that the part is in once what has been asked for is done: that of the held request, of the change in progress, or the present one
(R76). -/
def finalState (s : State) : Nat :=
  match s.pwr.pendingReq, s.pwr.change with
  | some (g, _), _ => g
  | none, some c => c.goal
  | none, none => s.rd Fld.PWR_STATE_STATE

/-- In Idle, or on the way to it, a queued long operation or a fifth open session brings about Run (R75, R626). -/
def runNeeded (s : State) : State := if finalState s = 1 then requestState 0 2 s else s

/-- Whether an initiator may write PWR_CTRL.REQ: the firmware and sessions of role OPERATOR or SERVICE (R88). -/
def mayRequestState (s : State) (i : Initiator) : Bool :=
  match i with
  | .core => false
  | .fw => true
  | .session _ => sessionOf [1, 3] s i

/-- A write of PWR_CTRL.REQ by an initiator: refused as a locked write where REQ is locked for it and changes (R8, R88); a change
of its value is an entry of the change log (R194). LAST_CAUSE is 2 for a session's write, which is a command, and 1 for the firmware's (R87;
DESIGN CHOICE, assumption 78). -/
def reqWrite (i : Initiator) (goal : Nat) (s : State) : State :=
  let cause := match i with | .session _ => 2 | _ => 1
  if !mayRequestState s i then (if s.rd Fld.PWR_CTRL_REQ = goal then s else refuseLocked Reg.PWR_CTRL s)
  else if s.rd Fld.PWR_CTRL_REQ = goal then requestState goal cause s
  else logged i 4 Reg.PWR_CTRL (newOf (Fld.PWR_CTRL_REQ.put (s.reg Reg.PWR_CTRL) goal).toNat)
    (fun s => requestState goal cause (s.wr Fld.PWR_CTRL_REQ goal)) s

/-- REQ_RUN (R75). -/
def execReqRun (i : Initiator) (s : State) : Host.Outcome State Fault Refusal := run (writeAdmitted i Reg.PWR_CTRL (reqWrite i 0)) s
/-- REQ_IDLE (R75). -/
def execReqIdle (i : Initiator) (s : State) : Host.Outcome State Fault Refusal := run (writeAdmitted i Reg.PWR_CTRL (reqWrite i 1)) s
/-- REQ_RING_ONLY (R75). -/
def execReqRingOnly (i : Initiator) (s : State) : Host.Outcome State Fault Refusal := run (writeAdmitted i Reg.PWR_CTRL (reqWrite i 2)) s
/-- REQ_BIVOUAC (R75). -/
def execReqBivouac (i : Initiator) (s : State) : Host.Outcome State Fault Refusal := run (writeAdmitted i Reg.PWR_CTRL (reqWrite i 3)) s
/-- REQ_DORMANT (R75). -/
def execReqDormant (i : Initiator) (s : State) : Host.Outcome State Fault Refusal := run (writeAdmitted i Reg.PWR_CTRL (reqWrite i 4)) s

/-- No long operation is queued or running. -/
def noLongOp (s : State) : Bool :=
  (List.range 16).all (fun k => !s.rdB (Fld.CE_OP_VALID k) || decide (2 ≤ s.rd (Fld.CE_OP_STATE k)))

/-- IDLE_AUTO_ENTRY (R75): the idle delay has passed in Run with IDLE_AUTO = 1 and no long operation queued or running. -/
def execIdleAutoEntry (s : State) : Host.Outcome State Fault Refusal :=
  run (fun s => if s.rdB Fld.PWR_CTRL_IDLE_AUTO && s.rd Fld.PWR_STATE_STATE == 0 && s.pwr.change.isNone && noLongOp s
      && decide (Nat.max 1 (s.rd Fld.PWR_CTRL_IDLE_DELAY) * 5000 ≤ s.eng.quiet) && !s.rdB Fld.PWR_STATE_BUSY
    then startChange 1 3 s else s) s

/-- APP0's bias has changed: its clock is raised after its bias has fallen (R79), a further change that is due begins, and an entry into Run
that waited for it wakes its domains (R75). -/
def biasDone (b : Nat × Assist) (s : State) : State :=
  let p := { s.pwr with biasBusy := none, biasApp0 := b.1, assistApp0 := b.2, app0Slow := decide (Config.pSw < b.1) }
  let s := biasStart { s with pwr := p }
  match s.pwr.change with
  | some c => if c.phase = .bias ∧ biasQuiet s = true then pendingApply (startDomains s) else s
  | none => s

/-- BIAS_CHANGE_DONE (R79): the change in progress is complete. -/
def execBiasChangeDone (s : State) : Host.Outcome State Fault Refusal :=
  run (fun s => match s.pwr.biasBusy with | some b => biasDone b s | none => s) s

/-- Nothing of the present leg is outstanding. -/
def legReady (s : State) : Bool :=
  s.pwr.wakeQ.isEmpty && s.pwr.drainQ.isEmpty && s.rd Fld.INRUSH_STATUS_WAKING == 0x1F
    && biasQuiet s && s.pwr.seqUp.isNone

/-- The change ends, and a pending request is applied (R76). -/
def finishChange (st cause : Nat) (s : State) : State := pendingApply (endChange st cause s)

/-- The ADC cores follow the state entered (R74, R75). -/
def enterState (st : Nat) (s : State) : State :=
  let s := s.wr Fld.PWR_STATE_STATE st
  if st = 2 then coresDown s else if st ≤ 1 then coresUp s else s

/-- A leg of a change is complete: the next leg follows, or the change ends; a sleep entry drains every domain, switches
the rails off and hands over to the Lantern (R75, R136). -/
def changeDone (s : State) : State :=
  match s.pwr.change with
  | none => s
  | some c =>
    if legReady s = false then s
    else match c.phase with
      | .bias => s
      | .stopping => s
      | .rails => sleepEntry true s
      | .domains =>
        if c.leg ≤ 2 then
          let s := enterState c.leg s
          if c.leg = c.goal then finishChange c.leg c.cause s
          else pendingApply (startLeg { c with leg := firstLeg c.leg c.goal } s)
        else railsOff 0xFFFF false { s with pwr := { s.pwr with change := some { c with phase := .rails } } }

/-- STATE_CHANGE_DONE (R76). -/
def execStateChangeDone (s : State) : Host.Outcome State Fault Refusal := run changeDone s

/-- The queued wakes have waited for a frame more (R81). -/
def wakesAge (s : State) : State :=
  { s with pwr := { s.pwr with wakeAge := s.pwr.wakeQ.foldl (fun t d => Tab.set 0 t d (Tab.get 0 t d + 1)) s.pwr.wakeAge } }

/-- A frame tick: queued wakes grow older, and in a change that waits for the stages to stop the drain starts once they have, or after 200 ms
(R75). -/
def pwrTick (s : State) : State :=
  let s := wakesAge s
  match s.pwr.change with
  | some c =>
    if c.phase = .stopping then
      if allStopped s ∨ c.stopLeft = 0 then pendingApply (startDomains s)
      else { s with pwr := { s.pwr with change := some { c with stopLeft := c.stopLeft - 1 } } }
    else s
  | none => s

/-- A wake source during an orderly sleep entry cancels it unless a rail has been switched off: the part stays in
Ring-only and logs SLEEP_CANCELLED (R76); one that began in Switch-only goes back there, since only a main-domain reset leaves that state
(R74; DEDUCED, assumption 62). -/
def cancelSleep (s : State) : State :=
  match s.pwr.change with
  | some c =>
    if 3 ≤ c.goal ∧ c.railOff = false then
      let s := { s.logEv 0x02 0x0005 0 with pwr := { s.pwr with seqUp := none } }
      if c.fromState = 3 then pendingApply (endChange 3 (s.rd Fld.PWR_STATE_LAST_CAUSE) (requestMask (stateMask s.pwr.used 3) s))
      else if c.leg ≤ 2 then { s with pwr := { s.pwr with change := some { c with goal := 2 } } }.wr Fld.PWR_STATE_TARGET 2
      else pendingApply (startLeg { c with goal := 2, leg := 2, phase := .domains } s)
    else s
  | none => s

/-! ### Wakes and drains (R80 to R84) -/

/-- WAKE_ADMIT (R80, R81): the head of the queue is admitted when no wake is in progress and it fits the budget. -/
def execWakeAdmit (s : State) : Host.Outcome State Fault Refusal :=
  run (fun s => match s.pwr.wakeQ with
    | [] => s
    | d :: q =>
      if s.rd Fld.INRUSH_STATUS_WAKING = 0x1F
          ∧ s.rd Fld.INRUSH_STATUS_LOAD + maxLoad d + surge d ≤ s.rd Fld.INRUSH_CFG_BUDGET
      then (s.setWakeQ q).wr Fld.INRUSH_STATUS_WAKING d else s) s

/-- DOMAIN_GOOD (R68, R80): the waking domain reports good and LOAD includes it; one at the head of the power-down requests drains from then on. -/
def execDomainGood (s : State) : Host.Outcome State Fault Refusal :=
  run (fun s =>
    let d := s.rd Fld.INRUSH_STATUS_WAKING
    if d ≤ 15 then
      let s := (s.wrBit Fld.DOM_STATUS_ON d (s.pwr.drainQ.head? != some d)).wr Fld.INRUSH_STATUS_WAKING 0x1F
      let s := domainUp d (s.wr Fld.INRUSH_STATUS_LOAD (s.rd Fld.INRUSH_STATUS_LOAD + maxLoad d))
      if d = 14 then auxOn s else s
    else s) s

/-- The change in progress needs the wake of domain `d` (R81): it has asked for the domains of its leg, and `d` is one. -/
def wakeNeeded (s : State) (d : Nat) : Bool :=
  match s.pwr.change with
  | some c => decide (c.phase = .domains) && (stateMask s.pwr.used (legState c.leg)).testBit d
  | none => false

/-- The head of the queue has waited longer than WAKE_WAIT, in units of 10 ms (R81, R92). -/
def wakeOverdue (s : State) : Bool :=
  match s.pwr.wakeQ with
  | d :: _ => decide (Nat.max 1 (s.rd Fld.INRUSH_CFG_WAKE_WAIT) * 500 ≤ Tab.get 0 s.pwr.wakeAge d)
  | [] => false

/-- The head of the queue has waited too long (R81): it leaves the queue, and the change that needed it fails and the domains it woke are
drained again. -/
def wakeTimeout (s : State) : State :=
  match s.pwr.wakeQ with
  | [] => s
  | d :: q =>
    let s := ((s.setWakeQ q).wr Fld.PWR_EVENTS_WAKE_TIMEOUT 1).wr Fld.PWR_EVENTS_LAST_DOM d
    let s := s.logEv 0x02 0x0004 d
    if wakeNeeded s d then pendingApply (changeFail s) else s

/-- WAKE_TIMEOUT (R81, R92): a queued wake has waited longer than WAKE_WAIT. -/
def execWakeTimeout (s : State) : Host.Outcome State Fault Refusal := run (fun s => if wakeOverdue s then wakeTimeout s else s) s

/-- A domain is draining: the head of the power-down requests, unless it is still waking (R82, R84). -/
def State.drains (s : State) : Bool :=
  match s.pwr.drainQ with
  | d :: _ => !s.waking d
  | [] => false

/-- The draining domain is switched off and the next power-down request is served (R84). -/
def drainNext (s : State) : State :=
  match s.pwr.drainQ with
  | [] => s
  | d :: q => (domainOff d s).setDrainQ q

/-- DRAIN_TIMEOUT in microseconds, within its limits (R94). -/
def drainLimit (s : State) : Nat := Nat.min 10000 (Nat.max 10 (s.rd Fld.DRAIN_CFG_DRAIN_TIMEOUT))

/-- DRAIN_COMPLETE (R83): the last transfer of the draining domain has completed. -/
def execDrainComplete (s : State) : Host.Outcome State Fault Refusal := run (fun s => if s.drains then drainNext s else s) s

/-- DRAIN_ABORT (R83, R94): a drain that began `us` microseconds ago has outlasted DRAIN_TIMEOUT with `n` transfers left, which end with a bus
error. -/
def execDrainAbort (n us : Nat) (s : State) : Host.Outcome State Fault Refusal :=
  run (fun s => if s.drains && decide (drainLimit s ≤ us) then
      let d := s.pwr.drainQ.headD 0
      let s := (s.wr Fld.PWR_EVENTS_DRAIN_ABORT 1).wr Fld.PWR_EVENTS_LAST_DOM d
      drainNext (s.logEv 0x02 0x0003 (d * 2 ^ 24 + n % 65536))
    else s) s

/-- The start state of the image is entered once it is active (R77, R169 step 9), and a request that was held is applied if that has failed
already (R76); from Switch-only only a main-domain reset returns (R74). A START_STATE above 2 has no meaning in the spec: it is taken modulo 3
(DESIGN CHOICE, assumption 79). -/
def startBootState (s : State) : State :=
  if s.rd Fld.PWR_STATE_STATE = 3 then requestMask (stateMask s.pwr.used 3) s
  else pendingApply (startLeg { goal := s.pwr.startState % 3, leg := s.pwr.startState % 3, cause := 0, fromState := 2,
                                fromOn := s.rd Fld.DOM_STATUS_ON, phase := .domains, stopLeft := 0, railOff := false } s)

/-- The domains that an activated image uses are asked for in the state in force, or in that which a change is entering; a change that has not
come to its domains yet asks for them itself (R74, R185). -/
def usedChanged (s : State) : State :=
  let used := Config.usedDomains s.img.active
  if used = s.pwr.used then s
  else
    let s := { s with pwr := { s.pwr with used := used } }
    match s.pwr.change with
    | none => requestMask (stateMask used (s.rd Fld.PWR_STATE_STATE)) s
    | some c => if c.phase = .domains then requestMask (stateMask used (legState c.leg)) s else s

/-- A write of DOM_REQ.REQ_SDG (R90): each group whose bit changes is woken or powered down; a request for a group that the image
does not use is ignored and logged. -/
def sdgWrite (v : Nat) (s : State) : State :=
  let old := s.rd Fld.DOM_REQ_REQ_SDG
  forEach (List.range 8) (fun g s =>
    if old.testBit g = v.testBit g then s
    else if v.testBit g && !s.pwr.used.testBit (5 + g) then s.logEv 0x01 0x0005 Reg.DOM_REQ
    else (if v.testBit g then requestWake (5 + g) else requestDown (5 + g)) (s.wrBit Fld.DOM_REQ_REQ_SDG g (v.testBit g))) s

/-! ### Rail sequencing and rail faults -/

/-- After the last rail class of the boot is good, the control die's supervision domains are woken (R169). -/
def railsDone (s : State) : State :=
  if s.pwr.railsUp && s.img.phase == .firmware then
    requestMask ((s.pwr.used &&& 0xBFFF) &&& 0xE01F) s
  else s

/-- The rails of the step being switched on are good, and have been for the longest PG_DELAY among them, in units of 0.1 ms (R69, R70). -/
def stepGood (pg goodFor : Nat) (s : State) : Bool :=
  (List.range 16).all (fun n => !(railsOfStep s s.pwr.seqStep).testBit n
    || (pg.testBit n && decide (s.rd (Fld.RAIL_CFG_PG_DELAY n) ≤ goodFor)))

/-- The rails of the step being switched off are low, or were disabled 5 ms ago (R70). -/
def stepOff (pg offFor : Nat) (s : State) : Bool :=
  decide (pg &&& (railsOfPlan s s.pwr.seqStep &&& s.pwr.offSet) = 0) || decide (50 ≤ offFor)

/-- The step that has come good was that of VDD_CT: the control die's output stage has its supply (R58). -/
def ctSupplyOn (s : State) : State := if s.pwr.seqStep = 0 then { s with pwr := { s.pwr with ctSupply := true } } else s

/-- RAIL_SEQUENCE_STEP (R52, R70): `pg` is the level of REG_PG_00 to 15 and `mv` the supplies of banks 0 to 7 in mV; the REG_PG_nn of the step being
switched on have been high for `goodFor`, and the rails of the step being switched off were disabled `offFor` ago, both in units of 0.1 ms. The
next class follows once R70 lets it. -/
def execRailSequenceStep (pg : BitVec 16) (mv : List Nat) (goodFor offFor : Nat) (s : State) : Host.Outcome State Fault Refusal :=
  run (fun s =>
    let s := bankLevels (banksPresent mv) (banks3v3 mv) (s.wr Fld.RAIL_STATUS_PG pg.toNat)
    match s.pwr.seqUp with
    | some true => if stepGood pg.toNat goodFor s then railsDone (railsOn (s.pwr.seqStep + 1) (ctSupplyOn s)) else s
    | some false => if stepOff pg.toNat offFor s then railsDown s.pwr.seqStep s else s
    | none => s) s

/-- A rail fault is flagged and logged (R73). -/
def railFaultMark (n : Nat) (s : State) : State := (s.wr Fld.PWR_EVENTS_RAIL_FAULT 1).logEv 0x02 0x0001 n

/-- A sleep entry that has switched a rail off completes, whatever comes (R76). -/
def sleepCommitted (s : State) : Bool := match s.pwr.change with | some c => c.railOff && decide (3 ≤ c.goal) | none => false

/-- A rail fault of VDD_CT: the control die goes off at once, its rails are disabled, and the state becomes Switch-only, in which the switch
die's domains are those of Ring-only (R73, R74, R75, R90). TARGET then shows 3, the code of STATE: REQ has none for Switch-only (DESIGN
CHOICE, assumption 63). -/
def controlDieOff (s : State) : State :=
  let s := forEach [13, 14, 15] domainForceOff s
  let s := ctSupplyOff 0 (s.setRegEn (s.pwr.regEn - (s.pwr.regEn &&& railsOfPlan s 0)))
  if sleepCommitted s then s
  else
    let s := { s with pwr := { s.pwr with change := none } }
    let s := ((s.wr Fld.PWR_STATE_STATE 3).wr Fld.PWR_STATE_TARGET 3).wr Fld.PWR_STATE_BUSY 0
    requestMask (stateMask s.pwr.used 3) (requestBias 3 (s.wr Fld.PWR_STATE_LAST_CAUSE 4))

/-- The change to Ring-only that a rail fault makes: it acts at once (R73, R76); in Ring-only and Switch-only there is nothing to enter, and a
sleep entry that has switched a rail off goes on. -/
def faultToRingOnly (s : State) : State :=
  if sleepCommitted s ∨ s.rd Fld.PWR_STATE_STATE = 3 ∨ (s.rd Fld.PWR_STATE_STATE = 2 ∧ s.pwr.change.isNone) then s
  else startChange 2 4 { s with pwr := { s.pwr with change := none } }

/-- The SerDes lane groups lose their supply, and forwarding stops (R73). -/
def serdesOff (s : State) : State := forwardingStop (forEach (List.range 8) (fun g => domainForceOff (5 + g)) s)

/-- What the part does on a fault of rail `n`, by its class (R73); a pending request is discarded (R76). -/
def railFault (n : Nat) (s : State) : State :=
  let s := { (railFaultMark n s) with pwr := { (railFaultMark n s).pwr with pendingReq := none } }
  match s.rd (Fld.RAIL_CFG_CLASS n) with
  | 1 => controlDieOff s
  | 2 => faultToRingOnly (coresLost (meterInvalidAll 0x20 (settleTrips (fun _ => 2 ^ 22) s)))
  | 7 => faultToRingOnly (meterInvalidAll 0x20 (settleTrips (fun _ => 2 ^ 22) s))
  | 3 => bankLost (s.rd (Fld.RAIL_CFG_BANK n)) s
  | 4 => serdesOff s
  | 5 => serdesOff s
  | _ => s

/-- RAIL_FAULT (R73): REG_PG_nn of an enabled rail has been low for 2 us. -/
def execRailFault (n : Fin 16) (s : State) : Host.Outcome State Fault Refusal :=
  run (fun s => if s.pwr.regEn.testBit n.val then
      railFault n.val (s.wrBit Fld.RAIL_STATUS_PG n.val false) else s) s

/-- RAIL_PG_TIMEOUT (R70): a rail of the step being switched on is not good 10 ms after its enable: a rail fault with its
reaction (R73), and the rails already on are switched off in reverse order. -/
def execRailPgTimeout (n : Fin 16) (s : State) : Host.Outcome State Fault Refusal :=
  run (fun s => if s.pwr.seqUp = some true ∧ (railsOfStep s s.pwr.seqStep).testBit n.val then
      railsOff 0xFFFF false (railFault n.val s) else s) s

/-- PMB_ALERT (R72): STATUS_WORD of each named regulator is read; `alerted` gives those that answer with the alert and
`faulty` those whose word reports an output-voltage or output-current fault, which is a rail fault of that rail. -/
def execPmbAlert (alerted faulty : BitVec 16) (s : State) : Host.Outcome State Fault Refusal :=
  run (fun s =>
    let s := s.wr Fld.PWR_EVENTS_PMB_ALERT 1
    let named := (List.range 16).filter (fun n => s.rdB (Fld.RAIL_CFG_PMB_EN n))
    let s := forEach (named.filter (fun n => alerted.toNat.testBit n)) (fun n s => s.logEv 0x02 0x0002 (s.rd (Fld.RAIL_CFG_PMB_ADDR n))) s
    forEach (named.filter (fun n => faulty.toNat.testBit n)) railFault s) s

/-- VOUT_COMMAND to the regulator of rail `n` (R72): its output margined by `v` units of 0.01 % of the nominal voltage; accepted only from the
SERVICE role, for a named regulator, and within 5 %. -/
def marginRail (i : Initiator) (n : Nat) (v : Int) (s : State) : State :=
  if !sessionOf [3] s i then s.answerSt .denied
  else if !s.rdB (Fld.RAIL_CFG_PMB_EN n) || decide (500 < v.natAbs) then s.answerSt .badArg
  else { s with pwr := { s.pwr with margin := Tab.set 0 s.pwr.margin n v } }.answerSt .ok

/-- PMBUS_POLL (R72, R647, R669): READ_VOUT in mV and READ_IOUT in mA of each named regulator go to its PC_RAIL register. `margin` is a request to
margin a rail that the PMBus master carries out before the poll, if there is one: the table gives VOUT_COMMAND no row of its own (DESIGN
CHOICE, assumption 64). -/
def execPmbusPoll (vout iout : List Nat) (margin : Option (Initiator × Fin 16 × Int)) (s : State) : Host.Outcome State Fault Refusal :=
  run (fun s => forEach (List.range 16) (fun n s => if s.rdB (Fld.RAIL_CFG_PMB_EN n) then
      let s := (s.wr (Fld.PC_RAIL_VOUT n) (Nat.min 0xFFFF (vout.getD n 0))).wr (Fld.PC_RAIL_IOUT n) (Nat.min 0xFFFF ((iout.getD n 0 + 5) / 10))
      countEv 0x0D0 n (iout.getD n 0) s else s) (match margin with | some (i, n, v) => marginRail i n.val v s | none => s)) s

/-- The Lantern writes the entry of a first-tier fault itself (R73). -/
def tier1Log (s : State) : State :=
  if s.log.lanQ.length < 8 then { s with log := { s.log with lanQ := s.log.lanQ ++ [s.logEntry 0x02 0x0001 0x10 none] } }
  else s.inc Fld.LOG_STATUS_DROPPED

/-- TIER1_FAULT (R73, R135, R136): the main domain is lost; the Lantern logs RAIL_FAULT with datum 0x10, drives WAKE_OUT low
and enters Bivouac or Dormant. -/
def execTier1Fault (s : State) : Host.Outcome State Fault Refusal :=
  run (fun s => if s.lan.mode = .mainOn then
      sleepEntry false (tier1Log s) else s) s

end Sys2Proof.Machine
end

