-- ==== Sys2Proof/Machine/Clock.lean ====
section
/-!
DEFINITION. Machine/Clock.lean: references, PLLs and ring time (spec/04_clocks_and_timebase.md): loss and return of each
clock, the servo's offsets, UNSYNCED, frame-number steps and tick markers.
-/
namespace Sys2Proof.Machine

/-! ### Loss of a clock (R99, R103 to R106) -/

/-- What the control die does when its clock is gated (R26, R105): no ticks, TICK_LOST, the engine halted, every pair low
through the clock-free path, the safety outputs off and locked out with cause CLOCK. -/
def controlClockLost (s : State) : State :=
  let s := (s.wr Fld.CLK_STATUS_CTRL_LOCK 0).wr Fld.CLK_EVENTS_CTRL_UNLOCK 1
  let s := { s with time := { s.time with resume := none } }
  let s := ticksLost s
  enterLockout 8 0 (settleTrips noPulse (masksLift s))

/-- The comparator of PLL_LOCK (R102): no lock above 1.40 V, lock from 0.80 V rising, and still lock down to 0.60 V falling; `v` is the
voltage of the ball in units of 10 mV. -/
def pinReads (was : Bool) (v : Nat) : Bool := decide (v ≤ 140) && (decide (80 ≤ v) || (was && decide (60 ≤ v)))

/-- The part reads PLL_LOCK (R102): a pin fault, above 1.40 V, is flagged and logged as it arises. -/
def pinRead (v : Nat) (s : State) : State :=
  let was := decide (140 < s.rd Fld.CLK_STATUS_LOCK_V)
  let s := { s with time := { s.time with pinLock := pinReads s.time.pinLock v } }.wr Fld.CLK_STATUS_LOCK_V v
  if 140 < v ∧ was = false then (s.wr Fld.CLK_EVENTS_LOCK_PIN_FAULT 1).logEv 0x03 0x0001 12
  else if 140 < v then s.wr Fld.CLK_EVENTS_LOCK_PIN_FAULT 1 else s

/-- CTRL_PLL_GATED (R102, R103): the control PLL's output is gated where PLL_LOCK, whose ball is at `lockV` units of 10 mV, reads no lock or a pin
fault, or where two comparisons in a row find a phase error (`slip`). The loss is logged at once (R106). -/
def execCtrlPllGated (slip : Bool) (lockV : BitVec 8) (s : State) : Host.Outcome State Fault Refusal :=
  run (fun s =>
    let s := pinRead lockV.toNat s
    if s.rdB Fld.CLK_STATUS_CTRL_LOCK && (slip || !s.time.pinLock) then controlClockLost (s.logEv 0x03 0x0001 0) else s) s

/-- CTRL_PLL_LOCK (R102, R103, R26): the PLL has made 256 locked comparisons in a row, so that its reference is present; where PLL_LOCK reads lock
its output is ungated, the calibrator starts its first round and the realignment of the ticks begins. -/
def execCtrlPllLock (lockV : BitVec 8) (s : State) : Host.Outcome State Fault Refusal :=
  run (fun s =>
    let s := (pinRead lockV.toNat s).wr Fld.CLK_STATUS_SYSCLK_OK 1
    if s.time.pinLock && !s.rdB Fld.CLK_STATUS_CTRL_LOCK then
      let s := s.wr Fld.CLK_STATUS_CTRL_LOCK 1
      let s := { s with time := { s.time with resume := some 2, baseLost := false }, pwm := { s.pwm with calFrames := 0 } }
      settleTrips noPulse (safetyPending (autoTest (controlReload s)))
    else s) s

/-- TICK_RESUME (R26): at the frame tick after the first time transfer received since the control PLL was declared locked,
ticks resume; the loop engine stays halted until TICK_LOST has been cleared. The next FRAME_TICK is that frame tick: `resume` 0 says so. -/
def execTickResume (s : State) : Host.Outcome State Fault Refusal :=
  run (fun s => if s.time.resume = some 1 ∧ s.rdB Fld.CLK_STATUS_CTRL_LOCK = true ∧ s.img.phase = .booted then
      { ticksStart s with time := { (ticksStart s).time with resume := some 0 } }
    else s) s

/-- The entries that an event makes while the dies cannot write them: source, code and datum (R106). -/
def entriesOf (l : List LogEntry) : List (Nat × Nat × Nat) := l.map (fun e => (e.source, e.code, e.datum.toNat))

/-- What an event does with its entries held back (R106): the state with the queues of the dies as they were, and the entries. -/
def heldBack (f : State → State) (s : State) : State × List (Nat × Nat × Nat) :=
  let t := f { s with log := { s.log with ctrlQ := [], switchQ := [] } }
  ({ t with log := { t.log with ctrlQ := s.log.ctrlQ, switchQ := s.log.switchQ } }, entriesOf (t.log.switchQ ++ t.log.ctrlQ))

/-- An event whose entries are written once the Ridgeline runs again (R106). -/
def lateWithRg (f : State → State) (s : State) : State :=
  let r := heldBack f s
  { r.1 with time := { r.1.time with lateRg := r.1.time.lateRg ++ r.2 } }

/-- An event whose entries are written once the application cores run again (R106). -/
def lateWithApp (f : State → State) (s : State) : State :=
  let r := heldBack f s
  { r.1 with time := { r.1.time with lateApp := r.1.time.lateApp ++ r.2 } }

/-- The Ridgeline stops for want of its clock (R105): recorded, to be logged once the clock is back (R106). -/
def ridgelineClockLost (s : State) : State :=
  let s := (s.wr Fld.CLK_STATUS_RG_LOCK 0).wr Fld.CLK_EVENTS_RG_UNLOCK 1
  lateWithRg forwardingStop { s with time := { s.time with lateRg := s.time.lateRg ++ [(0x03, 0x0001, 1)] } }

/-- RG_PLL_LOSS (R105). -/
def execRgPllLoss (s : State) : Host.Outcome State Fault Refusal :=
  run (fun s => if s.rdB Fld.CLK_STATUS_RG_LOCK then ridgelineClockLost s else s) s

/-- The application cores stop (R105): sessions close, long operations will end FAILED when the cores restart, the CSP
master clocks stop. -/
def appClockLost (s : State) : State :=
  let s := (s.wr Fld.CLK_STATUS_APP_LOCK 0).wr Fld.CLK_EVENTS_APP_UNLOCK 1
  lateWithApp appCoresStop { s with time := { s.time with lateApp := s.time.lateApp ++ [(0x03, 0x0001, 2)] } }

/-- APP_PLL_LOSS (R105). -/
def execAppPllLoss (s : State) : Host.Outcome State Fault Refusal :=
  run (fun s => if s.rdB Fld.CLK_STATUS_APP_LOCK then appClockLost s else s) s

/-- SerDes PLL group `k` loses lock: its lanes go to electrical idle and their links go down (R105). -/
def serdesLost (k : Nat) (s : State) : State :=
  let s := (s.wrBit Fld.CLK_STATUS_SD_LOCK k false).wrBit Fld.CLK_EVENTS_SD_UNLOCK k true
  lanesDown ((List.range 32).map (fun i => 32 * k + i)) (s.logEv 0x03 0x0001 (4 + k))

/-- SERDES_PLL_LOSS (R105). -/
def execSerdesPllLoss (k : Fin 4) (s : State) : Host.Outcome State Fault Refusal :=
  run (fun s => if s.bit Fld.CLK_STATUS_SD_LOCK k.val then serdesLost k.val s else s) s

/-- SYSCLK_LOSS (R105, R106): the rows of the control, Ridgeline and application PLLs at once; every entry is written once
the switch die runs again, with the RTC time of the loss. No comparison injects charge any more, and the ball of PLL_LOCK falls (R57, R102). -/
def execSysclkLoss (s : State) : Host.Outcome State Fault Refusal :=
  run (fun s => if s.rdB Fld.CLK_STATUS_SYSCLK_OK then
      let s := ((pinRead 0 s).wr Fld.CLK_STATUS_SYSCLK_OK 0).wr Fld.CLK_EVENTS_SYSCLK_LOSS 1
      let s := { s with time := { s.time with lateRg := s.time.lateRg ++ [(0x03, 0x0001, 3)] } }
      let s := if s.rdB Fld.CLK_STATUS_CTRL_LOCK then
          lateWithRg controlClockLost { s with time := { s.time with lateRg := s.time.lateRg ++ [(0x03, 0x0001, 0)] } } else s
      let s := if s.rdB Fld.CLK_STATUS_RG_LOCK then ridgelineClockLost s else s
      if s.rdB Fld.CLK_STATUS_APP_LOCK then appClockLost s else s
    else s) s

/-- REFCLK_LOSS (R99, R105): the reference's bits; REFCLK_SD_0 fails the timebase over to SYSCLK and takes group 0 with it. With the main domain off
nothing watches the references (R145). -/
def execRefclkLoss (k : Fin 4) (s : State) : Host.Outcome State Fault Refusal :=
  run (fun s => if s.mainOn && s.bit Fld.CLK_STATUS_REFCLK_OK k.val then
      let s := (s.wrBit Fld.CLK_STATUS_REFCLK_OK k.val false).wrBit Fld.CLK_EVENTS_REFCLK_LOSS k.val true
      let s := s.logEv 0x03 0x0001 (8 + k.val)
      if k.val = 0 then
        let s := ((s.wr Fld.CLK_STATUS_TB_SRC 1).wr Fld.CLK_EVENTS_TB_FAILOVER 1).logEv 0x03 0x0002 0
        if s.bit Fld.CLK_STATUS_SD_LOCK 0 then serdesLost 0 s else s
      else s
    else s) s

/-- TB_FAILBACK (R99): REFCLK_SD_0 has been present for 100 ms; the timebase changes back to it. -/
def execTbFailback (s : State) : Host.Outcome State Fault Refusal :=
  run (fun s => (s.wrBit Fld.CLK_STATUS_REFCLK_OK 0 true).wr Fld.CLK_STATUS_TB_SRC 0) s

/-- The entries that waited for a clock are logged with the RTC time of the loss that the Lantern recorded (R106). -/
def logLateAll (l : List (Nat × Nat × Nat)) (rtc : Nat) (s : State) : State :=
  l.foldl (fun s e => s.logLate e.1 e.2.1 e.2.2 rtc) s

/-- The lanes of SerDes PLL group `k` that are down train (R105); those of a group that went down drowsed are down with it (R557). -/
def groupTrain (k : Nat) (s : State) : State :=
  forEach (List.range 32) (fun j s =>
    let l := 32 * k + j
    if s.rdB (Fld.RG_LANE_CFG_EN l) && s.rd (Fld.RG_LANE_STATUS_STATE l) == 5 && s.bit Fld.DOM_STATUS_ON (5 + l / 16)
    then s.wr (Fld.RG_LANE_STATUS_STATE l) 1 else s) s

/-- The Ridgeline PLL is locked again. A late entry carries the RTC time at which the heartbeat was lost; where the loss was shorter than the
heartbeat's limit and none was recorded, that of the return (DESIGN CHOICE, assumption 66). -/
def ridgelineLocked (s : State) : State :=
  let l := s.time.lateRg
  let rtc := s.lan.rgLossRtc.getD s.lan.rtc
  let s := { s with time := { s.time with lateRg := [] }, lan := { s.lan with rgLossRtc := none } }
  logLateAll l rtc (forwardingResume (s.wr Fld.CLK_STATUS_RG_LOCK 1))

/-- The application PLL is locked again, and its cores restart (R105); late entries as those of the Ridgeline. -/
def applicationLocked (s : State) : State :=
  let l := s.time.lateApp
  let rtc := s.lan.appLossRtc.getD s.lan.rtc
  let s := { s with time := { s.time with lateApp := [] }, lan := { s.lan with appLossRtc := none } }
  logLateAll l rtc (appCoresRestart (s.wr Fld.CLK_STATUS_APP_LOCK 1))

/-- PLL_RELOCK (R100, R104 to R106, R115): the reference of the Ridgeline PLL, of the application PLL or of a SerDes group is present again, and
the PLL tries to relock; `locked` once it has made its 256 locked comparisons. -/
def execPllRelock (p : PllId) (locked : Bool) (s : State) : Host.Outcome State Fault Refusal :=
  run (fun s => match p with
    | .ridgeline => when locked ridgelineLocked (s.wr Fld.CLK_STATUS_SYSCLK_OK 1)
    | .application => when locked applicationLocked (s.wr Fld.CLK_STATUS_SYSCLK_OK 1)
    | .serdes k => when locked (fun s => groupTrain k.val (s.wrBit Fld.CLK_STATUS_SD_LOCK k.val true))
        (s.wrBit Fld.CLK_STATUS_REFCLK_OK k.val true)) s

/-! ### Ring time (R107 to R113) -/

/-- The last 8 measurements agree within 1 us (R113). -/
def offsetsAgree (l : List Int) : Bool :=
  decide (8 ≤ l.length) && (l.take 8).all (fun a => (l.take 8).all (fun b => decide ((a - b).natAbs ≤ 1000)))

/-- What the servo does with a filtered offset (R112, R113, R120): OFFSET, UNSYNCED, slewing, and a step once 8 offset
measurements agree. -/
def servo (group : Nat) (measured filtered : Int) (s : State) : State :=
  let s := (s.wrI Fld.TIME_SYNC_OFFSET (clampSym 32767 filtered)).wr Fld.TIME_SYNC_MASTER_PORT group
  let band := if filtered.natAbs ≤ 10 then s.time.inBand + 1 else 0
  let s := { s with time := { s.time with inBand := band, offsets := (measured :: s.time.offsets).take 8 } }
  let s := if 100 < filtered.natAbs then s.setUnsynced true else if 16 ≤ band then s.setUnsynced false else s
  let s := s.wr Fld.TIME_SYNC_SERVO (if s.unsynced then 1 else 2)
  if filtered.natAbs ≤ frameNs then { s with time := { s.time with slew := 10 * filtered } }
  else if offsetsAgree s.time.offsets then
    { s with time := { s.time with stepPending := some (-(roundDiv filtered frameNs)),
                                   slew := 10 * (filtered - frameNs * roundDiv filtered frameNs), offsets := [] } }
  else s

/-- An offset measurement in ns (R107, R113): local time less master time, from the time stamps of a Sync, its correctionField and the port's mean
path delay, all in 1/256 ns. -/
def offsetMeasured (g t1 t2 corr : Nat) (s : State) : Int :=
  roundDiv ((t2 : Int) - t1 - corr - Tab.get 0 s.time.pdelay g) 256

/-- SYNC_MESSAGE (R112, R113): a valid Sync from the master on a ring port group: sent at `t1`, received at `t2`, with its correctionField, in
1/256 ns; `filtered` is what the servo's filter makes of this measurement, in ns (assumption 12: the filter is an input). -/
def execSyncMessage (group : Fin 4) (t1 t2 corr : Nat) (filtered : Int) (s : State) : Host.Outcome State Fault Refusal :=
  run (fun s => if s.rd Fld.TIME_SYNC_SERVO = 3 then s else servo group.val (offsetMeasured group.val t1 t2 corr s) filtered s) s

/-- A frame in which a Sync of a grandmaster is due: 128 in a second (R107). -/
def syncDue (fn : Nat) : Bool := decide (fn % 50000 * 128 % 50000 < 128)

/-- This node's own data set (R107): priority1 comes from the image. -/
def ownAnnounce (s : State) : Announce :=
  let c := Config.ptpClock
  { priority1 := Config.ptpPriority1 s.img.active, clockClass := c.1, accuracy := c.2.1, variance := c.2.2.1, priority2 := c.2.2.2.1,
    identity := c.2.2.2.2, steps := 0#16 }

/-- The fields of a data set as an Announce message carries them. -/
def announceArgs (a : Announce) : List Nat :=
  [a.priority1.toNat, a.clockClass.toNat, a.accuracy.toNat, a.variance.toNat, a.priority2.toNat, a.identity.toNat, a.steps.toNat]

/-- What the part sends for ring time at a frame tick (R107): a Pdelay request 8 times a second on each ring port, a drowsed one included, whose
sentinel lane carries it; and as grandmaster its Sync messages, with ring time in 1/256 ns, and an Announce message every 2 s (PRESUMED,
assumption 95: the interval of the default profile of IEEE 1588). -/
def ptpFrame (s : State) : State :=
  if !s.ring.forwarding then s
  else
    let up := [0, 1, 2, 3].filter (fun g => groupState s g == 3 || groupState s g == 5)
    let linked := [0, 1, 2, 3].filter (fun g => groupState s g == 3 || decide (5 ≤ groupState s g))
    let s := if s.fn % 6250 = 0 then forEach linked (fun g s => s.send (.ptp g [1])) s else s
    if s.rd Fld.TIME_SYNC_SERVO = 3 then
      let s := if s.fn % 100000 = 0 then forEach up (fun g s => s.send (.ptp g (3 :: announceArgs (ownAnnounce s)))) s else s
      if syncDue s.fn then forEach up (fun g s => s.send (.ptp g [0, 256 * s.time.rt])) s else s
    else s

/-- PDELAY_MESSAGE (R107): a peer-delay request is answered on its ring port with its time stamps; the four time stamps of
a completed exchange, in 1/256 ns, give the port's mean path delay. -/
def execPdelayMessage (group : Fin 4) (request : Bool) (t1 t2 t3 t4 : Nat) (s : State) : Host.Outcome State Fault Refusal :=
  run (fun s => if request then s.send (.ptp group.val [2, t1, t2])
    else
      let d : Int := (((t4 : Int) - t1) - ((t3 : Int) - t2)) / 2
      { s with time := { s.time with pdelay := Tab.set 0 s.time.pdelay group.val d } }) s

/-- No master is followed any more (R112): UNSYNCED, and no count of good offsets. -/
def syncLost (s : State) : State := ({ s with time := { s.time with inBand := 0 } } : State).setUnsynced true

/-- SYNC_TIMEOUT (R112): no valid Sync for 2 s. A servo that had a master acquires again; one that runs free stays so (DESIGN CHOICE,
assumption 67). -/
def execSyncTimeout (s : State) : Host.Outcome State Fault Refusal :=
  run (fun s => if s.rd Fld.TIME_SYNC_SERVO = 3 then s
    else if s.rd Fld.TIME_SYNC_SERVO = 0 then syncLost s
    else (syncLost s).wr Fld.TIME_SYNC_SERVO 1) s

/-- The order of two data sets in the default BMCA of IEEE 1588, as one number: the lower is the better clock (PRESUMED, assumption 95). -/
def announceRank (a : Announce) : Nat :=
  ((((a.priority1.toNat * 2 ^ 8 + a.clockClass.toNat) * 2 ^ 8 + a.accuracy.toNat) * 2 ^ 16 + a.variance.toNat) * 2 ^ 8 + a.priority2.toNat) * 2 ^ 64
    + a.identity.toNat

/-- Data set `a` is better than `b` (PRESUMED, assumption 95): the better clock, or the shorter way to the same one. -/
def announceBetter (a b : Announce) : Bool :=
  if a.identity = b.identity then decide (a.steps.toNat < b.steps.toNat) else decide (announceRank a < announceRank b)

/-- The best master that the ring port groups announce, and its group; the lowest group among equals. -/
def bestForeign (s : State) : Option (Nat × Announce) :=
  [0, 1, 2, 3].foldl (fun m g => match Tab.get none s.time.foreign g with
    | none => m
    | some a => (match m with
      | none => some (g, a)
      | some b => if announceBetter a b.2 then some (g, a) else m)) none

/-- What the default BMCA decides (R107, R112): this node is grandmaster where the image names it a time source and no better clock is announced;
else it follows the best one; with none it runs free. -/
def bmca (s : State) : State :=
  let follow := fun (g : Nat) => if s.rd Fld.TIME_SYNC_SERVO = 2 ∧ s.rd Fld.TIME_SYNC_MASTER_PORT = g then s
    else ({ s with time := { s.time with inBand := 0, offsets := [] } }.wr Fld.TIME_SYNC_SERVO 1).wr Fld.TIME_SYNC_MASTER_PORT g
  let master := (s.setUnsynced false).wr Fld.TIME_SYNC_SERVO 3
  match bestForeign s with
  | some (g, a) => if Config.timeSource s.img.active && announceBetter (ownAnnounce s) a then master else follow g
  | none => if Config.timeSource s.img.active then master else s.wr Fld.TIME_SYNC_SERVO 0

/-- PTP_ANNOUNCE_MESSAGE (R107, R112): a master's data set is announced on a ring port group, or its announcements have failed to come; the default
BMCA decides anew. -/
def execPtpAnnounceMessage (d : BmcaInput) (s : State) : Host.Outcome State Fault Refusal :=
  run (fun s => match d with
    | .message g a => bmca { s with time := { s.time with foreign := Tab.set none s.time.foreign g.val (some a) } }
    | .absent g => bmca { s with time := { s.time with foreign := Tab.set none s.time.foreign g.val none } }) s

/-- A frame number, read as the signed distance from another, modulo 2^48. -/
def fnSigned (a b : Nat) : Int := if fnDiff a b < 2 ^ 47 then (fnDiff a b : Int) else (fnDiff a b : Int) - fnModulus

/-- This node's frame number when the marker's source passed its frame tick (R108): `ns` nanoseconds after this node's frame tick, less the
correction of `corr` nanoseconds that the marker has accumulated. R587 gives the marker only FN48, and no rule gives the correction a field: the
model takes it as an operand of the receiving command, and the cell that is forwarded does not hold it (DESIGN CHOICE, assumption 87). -/
def fnCorrected (ns corr : Nat) (s : State) : Nat :=
  ((((s.time.rt + ns : Nat) : Int) - corr) / (frameNs : Int) % (fnModulus : Int)).toNat

/-- A received tick marker (R108) whose frame number differs from the node's own, the accumulated correction removed, is adopted at
the next frame tick. -/
def tickMark (mark ns corr : Nat) (s : State) : State :=
  let own := fnCorrected ns corr s
  if mark = own then s
  else
    let s := (s.wr Fld.CLK_EVENTS_FN_MISMATCH 1).logEv 0x03 0x0004 0
    { s with time := { s.time with stepPending := some (fnSigned mark own) } }

/-- TICK_MARK (R108). -/
def execTickMark (mark : BitVec 48) (ns corr : Nat) (s : State) : Host.Outcome State Fault Refusal := run (tickMark mark.toNat ns corr) s

/-- TICK_MARK_SEND (R108): every 50 frames the time source inserts a marker with FN48 of its frame tick on both rings. Every node that its image
names a time source does so, grandmaster or not (DESIGN CHOICE, assumption 88: R108 does not say which one does, where there are several). -/
def execTickMarkSend (s : State) : Host.Outcome State Fault Refusal :=
  run (fun s => if Config.timeSource s.img.active ∧ s.fn % 50 = 0 ∧ s.img.phase = .booted then
      floodCell (.tickMark s.fn) s else s) s

/-- TICK_STEP (R28, R113): in the tick cycle the frame number steps by whole frames; an action targeted at a frame that a
forward step jumps over is missed and never executed late. -/
def execTickStep (s : State) : Host.Outcome State Fault Refusal :=
  run (fun s => match s.time.stepPending with
    | none => s
    | some k =>
      let old := s.fn
      let rt := (((s.time.rt : Int) + k * (frameNs : Int)) % (rtModulus : Int)).toNat
      let s := { s with time := { s.time with rt := rt, stepPending := none } }
      let s := (s.wr Fld.SCHED_STATUS_TICK_STEP 1).logEv 0x03 0x0003 (ofInt 32 k)
      stepped old s.fn s) s

/-- RT_NOW_READ (R118): ring time `ns` nanoseconds after the latest frame tick; bits 63:32 are latched into RT_NOW_HI. -/
def rtNowRead (ns : Nat) (s : State) : State :=
  let rt := (s.time.rt + ns) % rtModulus
  latchRead Reg.RT_NOW_LO Reg.RT_NOW_HI rt s

/-- RT_NOW_READ (R118). -/
def execRtNowRead (i : Initiator) (ns : Fin 20000) (s : State) : Host.Outcome State Fault Refusal :=
  run (fun s => readAdmitted i Reg.RT_NOW_LO (rtNowRead ns.val) s) s

end Sys2Proof.Machine
end

