-- ==== Sys2Proof/Machine/Lantern.lean ====
section
/-!
DEFINITION. Machine/Lantern.lean: the always-on domain (spec/05_lantern_domain.md): harvest, cell, RTC, heartbeats and the
bypass hold, waking the main domain, Bivouac cycles and the trouble log.
-/
namespace Sys2Proof.Machine

/-- A Lantern meaning: nothing happens while the power-on reset holds the Lantern (R123). -/
def runLan (f : State → State) (s : State) : Host.Outcome State Fault Refusal :=
  run (fun s => if s.lan.mode = .stopped then s else f s) s

/-! ### The power-on reset and the supplies (R122 to R127) -/

/-- The one entry of a log that starts empty. -/
def firstRec (s : State) (code datum : Nat) : LogRec :=
  ⟨s.logEntry 0x00 code datum none, s.lan.rtc, !(s.rdB Fld.LAN_STATUS_RTC_VALID)⟩

/-- Every Lantern register and store at its cold-start value; the main domain is off (R123, R141). The cell switch stays as it is (R127). -/
def lanternClear (m : LanMode) (s : State) : State :=
  let cell := s.rdB Fld.LAN_STATUS_CELL_CONN
  let s := mainOff s
  { s with
    regs := Tab.keep (fun a => !inLantern a) s.regs
    log := { lanQ := [], ctrlQ := [], switchQ := [], ring := [], once := [] }
    clog := { s.clog with queue := [] }
    lan := { State.reset.lan with mode := m, wakeOut := false, lowFor := 1639, coldSince := true, extSupply := s.lan.extSupply,
                                  harvest := s.lan.harvest, meterCopy := none } }.wrB Fld.LAN_STATUS_CELL_CONN cell

/-- LANTERN_RESET_ASSERT (R123, R141): VDD_LAN fell below 1.55 V; the Lantern stops and loses RTC, log and settings. -/
def execLanternResetAssert (s : State) : Host.Outcome State Fault Refusal :=
  run (fun s => (lanternClear .stopped s).wr Fld.LAN_STATUS_SUPPLY 3) s

/-- LANTERN_COLD_START (R123, R141): the power-on reset releases; `src` started the Lantern: 0 = external, 1 = harvest,
2 = cell. The log holds the one entry COLD_START. -/
def execLanternColdStart (src : Fin 3) (s : State) : Host.Outcome State Fault Refusal :=
  run (fun s =>
    let cell := src.val == 2 || s.rdB Fld.LAN_STATUS_CELL_CONN
    let s := lanternClear .dormant s
    let s := { s with lan := { s.lan with extSupply := src.val == 0, harvest := src.val == 1 } }
    let s := (s.wr Fld.LAN_STATUS_SUPPLY src.val).wrB Fld.LAN_STATUS_CELL_CONN cell
    { s with log := { s.log with ring := [firstRec s 0x0001 src.val] } }) s

/-- BOOST_TAKEOVER (R124, R125): the cold-start oscillator stops and the boost takes over, if HARV_EN = 1. -/
def execBoostTakeover (s : State) : Host.Outcome State Fault Refusal :=
  runLan (fun s => if s.rdB Fld.POWER_CFG_HARV_EN then
      supplyEval { s with lan := { s.lan with boostOn := true, harvest := true } } else s) s

/-- The boost skips pulses (R125): VDD_LAN, in mV, is at 3.10 V and the charger draws nothing. -/
def boostSkips (vlan : Nat) (s : State) : Bool := s.lan.boostOn && decide (3100 ≤ vlan ∧ s.lan.chgUa = 0)

/-- HARVEST_OCV_MEASURE (R125): the running boost measures the TEG open-circuit voltage, in units of 10 uV, and holds the terminals at half of it;
it stops where that is below its limit of 10 mV. -/
def execHarvestOcvMeasure (ocv : Nat) (s : State) : Host.Outcome State Fault Refusal :=
  runLan (fun s => if s.rdB Fld.POWER_CFG_HARV_EN && s.lan.boostOn then
      if 1000 ≤ ocv / 2 then { s with lan := { s.lan with tegOcv := ocv, tegHold := ocv / 2 } }
      else supplyEval { s with lan := { s.lan with tegOcv := ocv, tegHold := 0, boostOn := false, harvest := false } }
    else s) s

/-- LANTERN_SUPPLY_CHANGE (R122, R125, R139): external supply or the TEG's power appears or goes away, and with the latter the boost runs or not
as HARV_EN says; it holds no voltage before it has measured. A source other than the cell brings a Lantern that CELL_LOW sent to Dormant back to
Bivouac. -/
def execLanternSupplyChange (ext harv : Bool) (s : State) : Host.Outcome State Fault Refusal :=
  runLan (fun s =>
    let on := harv && s.rdB Fld.POWER_CFG_HARV_EN
    let s := supplyEval { s with lan := { s.lan with extSupply := ext, harvest := harv, boostOn := on,
                                                     tegHold := if on then s.lan.tegHold else 0 } }
    if s.lan.mode = .dormant ∧ s.lan.cellDorm = true ∧ (ext || on) = true then
      { s with lan := { s.lan with mode := .bivouac, cellDorm := false, cellLowLogged := false } }
    else s) s

/-- VCHG in mV (R126). -/
def vchgMv (s : State) : Nat := if s.rd Fld.POWER_CFG_CELL_TYPE = 2 then 4200 else 4100

/-- The charger may run: a cell is fitted, a charge current is set and no fault holds it (R126, R127, R153). -/
def chargerOk (s : State) : Bool :=
  s.rdB Fld.POWER_CFG_CELL_TYPE && s.rdB Fld.POWER_CFG_ICHG && !s.lan.chgFault

/-- The phase in which a charge begins (R126): from 2.50 V to 2.70 V, which the table leaves open, it precharges (DESIGN CHOICE, assumption 68). -/
def firstPhase (s : State) (vcell : Nat) : Nat := if vcell < 2700 then 1 else if vchgMv s ≤ vcell then 3 else 2

/-- The next charger phase for VCELL in mV, the cell current in uA and VDD_LAN in mV (R126): 0 = off or done, 1 = precharge,
2 = constant current, 3 = constant voltage. A charger that is done starts again below VCHG less 0.10 V. -/
def nextPhase (s : State) (vcell icell vlan : Nat) : Nat :=
  let p := s.rd Fld.LAN_STATUS_CHG_PHASE
  if chargerOk s = false then 0
  else if vlan < 3050 then p
  else match p with
    | 0 => if s.lan.chgDone = true ∧ vchgMv s ≤ vcell + 100 then 0 else firstPhase s vcell
    | 1 => if 2700 ≤ vcell then 2 else 1
    | 2 => if vchgMv s ≤ vcell then 3 else if vcell < 2500 then 1 else 2
    | _ => if 10 * icell < 5 * s.rd Fld.POWER_CFG_ICHG then 0 else 3

/-- What the charger draws for the cell in uA (R126, R153): nothing below 3.05 V on VDD_LAN, else what its phase gives; in constant voltage, the
cell's own current. It is no more than `avail`, what VDD_LAN can give without falling below 3.05 V. -/
def chargeUa (s : State) (phase icell vlan avail : Nat) : Nat :=
  if vlan < 3050 then 0
  else Nat.min avail (match phase with
    | 1 => 5 * s.rd Fld.POWER_CFG_ICHG / 10
    | 2 => 5 * s.rd Fld.POWER_CFG_ICHG
    | 3 => icell
    | _ => 0)

/-- CHARGER_PHASE (R126): VCELL and VDD_LAN in mV, the cell's current in uA, and the current in uA that VDD_LAN can give at 3.05 V. -/
def execChargerPhase (vcell icell vlan avail : Nat) (s : State) : Host.Outcome State Fault Refusal :=
  runLan (fun s =>
    let p := nextPhase s vcell icell vlan
    let done := chargerOk s && decide (p = 0) && (s.lan.chgDone || decide (s.rd Fld.LAN_STATUS_CHG_PHASE = 3))
    { s with lan := { s.lan with chgDone := done, chgUa := chargeUa s p icell vlan avail } }.wr Fld.LAN_STATUS_CHG_PHASE p) s

/-- The cell is above VCHG + 0.15 V (R126). -/
def cellOver (s : State) (vcell : Nat) : Bool := decide (vchgMv s + 150 < vcell)

/-- The Lantern die is below 0 degrees C or above 60 degrees C (R126). -/
def dieOut (temp : Int) : Bool := decide (temp < 0 ∨ 60 < temp)

/-- CHG_FAULT (R126): VCELL in mV above its limit (1), or a die temperature in degrees C out of range (2), stops the charger. -/
def execChgFault (vcell : Nat) (dieTemp : Int) (s : State) : Host.Outcome State Fault Refusal :=
  runLan (fun s => if s.rdB Fld.POWER_CFG_CELL_TYPE && (cellOver s vcell || dieOut dieTemp) then
      let datum := if cellOver s vcell then 1 else 2
      let s := { s with lan := { s.lan with chgFault := true, chgDone := false, chgUa := 0 } }
      ((s.wr Fld.LAN_STATUS_CHG_PHASE 0).wr Fld.LAN_EVENTS_CHG_FAULT 1).logEv 0x00 0x0007 datum
    else s) s

/-- CHG_RESTART (R126): 60 s after its fault condition cleared the charger may run again. -/
def execChgRestart (s : State) : Host.Outcome State Fault Refusal :=
  runLan (fun s => { s with lan := { s.lan with chgFault := false } }) s

/-- CELL_UV (R127): VCELL (mV) has been below UVD for 1 s; the cell switch opens. The switch works with the Lantern stopped too, which then flags
and logs nothing. -/
def execCellUv (vcell : Nat) (s : State) : Host.Outcome State Fault Refusal :=
  run (fun s => if s.rdB Fld.LAN_STATUS_CELL_CONN && decide (vcell < uvdMv s) then
      let s := s.wr Fld.LAN_STATUS_CELL_CONN 0
      if s.lan.mode = .stopped then s else supplyEval ((s.wr Fld.LAN_EVENTS_CELL_UV 1).logEv 0x00 0x0004 vcell)
    else s) s

/-- CELL_RECONNECT (R127): VCELL (mV) reaches UVD + 0.30 V; the switch closes, unless no cell is declared. The switch works with the
Lantern stopped too, which then logs nothing. -/
def execCellReconnect (vcell : Nat) (s : State) : Host.Outcome State Fault Refusal :=
  run (fun s => if !s.rdB Fld.LAN_STATUS_CELL_CONN && s.rdB Fld.POWER_CFG_CELL_TYPE && decide (uvdMv s + 300 ≤ vcell) then
      let s := s.wr Fld.LAN_STATUS_CELL_CONN 1
      if s.lan.mode = .stopped then s else supplyEval (s.logEv 0x00 0x0005 0)
    else s) s

/-! ### RTC (R128 to R131) -/

/-- LXTAL_FAIL (R129, R64): no crystal edge for 125 us, also where the crystal has not started; the RTC counts on the RC oscillator and the hold
drive stops. -/
def execLxtalFail (s : State) : Host.Outcome State Fault Refusal :=
  runLan (fun s => if !s.lan.onRc then
      let s := ((s.wr Fld.LAN_STATUS_LXTAL_OK 0).wr Fld.LAN_STATUS_RTC_VALID 0).wr Fld.LAN_EVENTS_LXTAL_FAIL 1
      let s := { s with lan := { s.lan with onRc := true } }.logEv 0x00 0x0002 0
      holdStop 1 (holdStop 0 s)
    else s) s

/-- LXTAL_RETURN (R129): crystal edges are back. -/
def execLxtalReturn (s : State) : Host.Outcome State Fault Refusal :=
  runLan (fun s => holdEval 1 (holdEval 0 ({ s with lan := { s.lan with onRc := false } }.wr Fld.LAN_STATUS_LXTAL_OK 1))) s

/-- TRIM_PERIOD_END (R131, R152): at the end of a period of 2^20 cycles, which the period counter has found, the RTC adds TRIM counts, and with it
a timed wake, which counts RTC time; but not on the RC oscillator. -/
def execTrimPeriodEnd (s : State) : Host.Outcome State Fault Refusal :=
  runLan (fun s =>
    let d := if s.lan.onRc then 0 else s.rdI Fld.RTC_TRIM_TRIM
    if s.lan.periodDue = 0 then s
    else wakeTimer d { s with lan := { s.lan with rtc := (((s.lan.rtc : Int) + d) % rtcModulus).toNat, periodDue := s.lan.periodDue - 1 } }) s

/-- RTC_SYNC_LOAD (R130): at a whole second of synchronised ring time with RTC_SYNC = 1. -/
def execRtcSyncLoad (s : State) : Host.Outcome State Fault Refusal :=
  runLan (fun s =>
    if s.mainOn && !s.unsynced && s.rdB Fld.RTC_TRIM_RTC_SYNC && decide (s.time.rt % 1000000000 = 0) then
      let v := s.time.rt * 32768 / 1000000000 % rtcModulus
      let d := fnSigned v s.lan.rtc
      if 2 ≤ d.natAbs ∨ s.rdB Fld.LAN_STATUS_RTC_VALID = false then
        let s := { s with lan := { s.lan with rtc := v, rtcFrac := 0 } }.wr Fld.LAN_STATUS_RTC_VALID 1
        when (decide (32768 ≤ d.natAbs)) (fun s => s.logEv 0x00 0x0010 (ofInt 32 (sat32 d))) s
      else s
    else s) s

/-- A read of RTC_LO (R149). -/
def rtcRead (s : State) : State :=
  latchRead Reg.RTC_LO Reg.RTC_HI s.lan.rtc s

/-- RTC_READ (R149). -/
def execRtcRead (i : Initiator) (s : State) : Host.Outcome State Fault Refusal :=
  runLan (readAdmitted i Reg.RTC_LO rtcRead) s

/-! ### Heartbeats and the bypass hold (R62 to R66, R132, R133) -/

/-- RIDGELINE_HEARTBEAT (R106, R133): while the Ridgeline forwards, its heartbeat carries the hold requests of both rings; the time of an earlier
loss is kept no longer. -/
def execRidgelineHeartbeat (s : State) : Host.Outcome State Fault Refusal :=
  runLan (fun s => if s.mainOn && s.ring.forwarding then
      holdEval 1 (holdEval 0 { s with lan := { s.lan with
        holdReq := s.rd Fld.RG_RING_STATUS_HOLD_REQ_A + 2 * s.rd Fld.RG_RING_STATUS_HOLD_REQ_B, rgLossRtc := none } })
    else s) s

/-- APP_KICK (R132, R159): a write of APP_KICK by the application cores renews their heartbeat; from any other initiator it
is ignored. -/
def appKick (i : Initiator) (s : State) : State :=
  match i with
  | .fw => { s with lan := { s.lan with appAge := 0, appLossRtc := none } }.answerSt .ok
  | _ => s.answerSt .ok

/-- APP_KICK (R159). -/
def execAppKick (i : Initiator) (s : State) : Host.Outcome State Fault Refusal := runLan (fun s => if fwStalled s i then s else appKick i s) s

/-- RG_HB_LOST (R64, R132): 2.0 ms without a Ridgeline heartbeat; the hold drive stops. While the main domain is on, the loss is flagged and
logged and its RTC time kept. -/
def execRgHbLost (s : State) : Host.Outcome State Fault Refusal :=
  runLan (fun s =>
    let s := { s with lan := { s.lan with holdReq := 0 } }
    let s := when s.mainOn (fun s => ({ s with lan := { s.lan with rgLossRtc := some s.lan.rtc } }.wr Fld.LAN_EVENTS_RG_HB_LOST 1).logEv 0x00 0x0008 0) s
    holdStop 1 (holdStop 0 s)) s

/-- CT_HB_LOST (R132): 100 us without a control-die heartbeat after at least one since TICK_RUN rose. -/
def execCtHbLost (s : State) : Host.Outcome State Fault Refusal :=
  runLan (fun s => if s.lan.ctHbSeen && s.mainOn then
      ({ s with lan := { s.lan with ctHbSeen := false } }.wr Fld.LAN_EVENTS_CT_HB_LOST 1).logEv 0x00 0x0009 0
    else s) s

/-- APP_HB_LOST (R132): APP_PERIOD, in units of 100 ms, without a kick, by the Lantern's own oscillator; with APP_ACT = 1 the application cores
restart. -/
def execAppHbLost (s : State) : Host.Outcome State Fault Refusal :=
  runLan (fun s =>
    if s.mainOn && s.rd Fld.DBG_HALT_STATUS_APP == 0 && decide (Nat.max 1 (s.rd Fld.HB_CTRL_APP_PERIOD) * 5000 ≤ s.lan.appAge) then
      let s := { s with lan := { s.lan with appLossRtc := some s.lan.rtc, appAge := 0 } }
      let s := (s.wr Fld.LAN_EVENTS_APP_HB_LOST 1).logEv 0x00 0x000A 0
      when (s.rdB Fld.HB_CTRL_APP_ACT) (fun s => appCoresRestart (appCoresStop s)) s
    else s) s

/-- HOLD_WAIT_END (R64, R133): the 10 ms since a pin's last edge have passed; a pending request starts the toggling. -/
def execHoldWaitEnd (r : Fin 2) (s : State) : Host.Outcome State Fault Refusal :=
  runLan (fun s => if s.lan.holdWait.testBit r.val then
      holdEval r.val { s with lan := { s.lan with holdWait := setBitOf s.lan.holdWait r.val false } } else s) s

/-- BYPASS_COUNTED (R64): 10 ms after the last edge the switch counts as bypassed, whatever its contact reports. -/
def execBypassCounted (r : Fin 2) (s : State) : Host.Outcome State Fault Refusal :=
  runLan (fun s => if s.rdB (holdField r.val) then s
    else { s with lan := { s.lan with bypassed := setBitOf s.lan.bypassed r.val true } }) s

/-- Fields of BYP_PINS for one ring. -/
def posField (r : Nat) : FRef := if r = 0 then Fld.BYP_PINS_POS_A else Fld.BYP_PINS_POS_B
/-- POS_FIT of a ring. -/
def posFitField (r : Nat) : FRef := if r = 0 then Fld.BYP_PINS_POS_FIT_A else Fld.BYP_PINS_POS_FIT_B
/-- POS_MISMATCH of a ring. -/
def posMisField (r : Nat) : FRef := if r = 0 then Fld.BYP_PINS_POS_MISMATCH_A else Fld.BYP_PINS_POS_MISMATCH_B

/-- BYP_POS_SAMPLE (R65): a sample of the contact of ring `r`; two samples in a row against the hold state are a mismatch.
The hold drive is not changed. A mismatch that goes on is set and logged once, at its second sample (DESIGN CHOICE, assumption 76). -/
def execBypPosSample (r : Fin 2) (closed : Bool) (s : State) : Host.Outcome State Fault Refusal :=
  runLan (fun s => if s.rdB (posFitField r.val) then
      let s := s.wrB (posField r.val) closed
      if closed = s.rdB (holdField r.val) then { s with lan := { s.lan with posBad := Tab.set 0 s.lan.posBad r.val 0 } }
      else
        let n := Tab.get 0 s.lan.posBad r.val + 1
        let s := { s with lan := { s.lan with posBad := Tab.set 0 s.lan.posBad r.val n } }
        if n = 2 then (s.wr (posMisField r.val) 1).logEv 0x00 0x000E r.val else s
    else s) s

/-! ### Waking the main domain (R134 to R136) -/

/-- The Lantern sleeps. -/
def asleep (s : State) : Bool := s.lan.mode == .bivouac || s.lan.mode == .dormant

/-- A sleep entry is in progress (R76). -/
def enteringSleep (s : State) : Bool :=
  match s.pwr.change with
  | some c => decide (3 ≤ c.goal)
  | none => false

/-- A wake source becomes active, or is active no longer; one that becomes active cancels a sleep entry that still can be (R76). -/
def wakeSource (bit : Nat) (on : Bool) (s : State) : State :=
  if on && !s.lan.wakeActive.testBit bit then cancelSleep (wakeSet bit on s) else wakeSet bit on s

/-- WAKE_IN (R134): WAKE_IN_N has been low for 10 ms, or is high again. `counts` RTC counts have passed since the Lantern's last command of the
sleep. -/
def execWakeIn (low : Bool) (counts : Nat) (s : State) : Host.Outcome State Fault Refusal :=
  runLan (fun s => wakeSource 0 low (sleepPass counts s)) s

/-- WAKE_TIMER_EXPIRY (R134, R152): the count of a timed wake has reached zero after `counts` more RTC counts; it is then an active source. -/
def execWakeTimerExpiry (counts : Nat) (s : State) : Host.Outcome State Fault Refusal := runLan (sleepPass counts) s

/-- The sources that can wake in the present mode: LMON inputs only in Bivouac (R134). -/
def wakeMask (s : State) : Nat := if s.lan.mode = .bivouac then s.lan.wakeActive else s.lan.wakeActive &&& 3

/-- The wake itself: WAKE_OUT high; the active sources go to WAKE_CAUSE and the WAKE entry, bit 6 after a cold start. -/
def wakeNow (s : State) : State :=
  let c := wakeMask s + (if s.lan.coldSince then 64 else 0)
  let s := { s with lan := { s.lan with mode := .waking, wakeOut := true, wakeFailed := false, cellDorm := false } }
  (s.wr Fld.LAN_STATUS_WAKE_CAUSE c).logEv 0x00 0x000B c

/-- RTC counts for which WAKE_OUT stays low at least: 50 ms (R76, R134). -/
def wakeGap : Nat := 1639

/-- RTC counts from a failed wake to the next: 60 s (R135). -/
def wakeRetryGap : Nat := 1966080

/-- MAIN_WAKE (R76, R134): a source is active and 50 ms have passed since WAKE_OUT fell. -/
def execMainWake (counts : Nat) (s : State) : Host.Outcome State Fault Refusal :=
  runLan (fun s =>
    let s := sleepPass counts s
    if asleep s && !s.lan.wakeFailed && decide (wakeMask s ≠ 0 ∧ wakeGap ≤ s.lan.lowFor) then wakeNow s else s) s

/-- WAKE_FAIL (R135): PG_TIER1 is not high 100 ms after WAKE_OUT rose. The Lantern sleeps again as BIV_EN says (R136; DESIGN CHOICE,
assumption 69). -/
def execWakeFail (counts : Nat) (s : State) : Host.Outcome State Fault Refusal :=
  runLan (fun s => if s.lan.mode = .waking then
      let s := sleepPass counts s
      let m : LanMode := if s.rdB Fld.BIV_CFG_BIV_EN then .bivouac else .dormant
      let s := { s with lan := { s.lan with mode := m, wakeOut := false, lowFor := 0, wakeFailed := true } }
      (s.wr Fld.LAN_EVENTS_WAKE_FAIL 1).logEv 0x00 0x000C 0
    else s) s

/-- WAKE_RETRY (R135): 60 s after a failed wake, with a source still active. -/
def execWakeRetry (counts : Nat) (s : State) : Host.Outcome State Fault Refusal :=
  runLan (fun s =>
    let s := sleepPass counts s
    if asleep s && s.lan.wakeFailed && decide (wakeMask s ≠ 0 ∧ wakeRetryGap ≤ s.lan.lowFor) then wakeNow s else s) s

/-! ### Bivouac (R137 to R139) -/

/-- The sample field of LMON_n. -/
def lmonField (n : Nat) : FRef :=
  if n = 0 then Fld.LMON_DATA_01_LMON_0 else if n = 1 then Fld.LMON_DATA_01_LMON_1
  else if n = 2 then Fld.LMON_DATA_23_LMON_2 else Fld.LMON_DATA_23_LMON_3

/-- A sample of LMON_n matches (R138). -/
def lmonMatches (s : State) (n v : Nat) : Bool :=
  let inside := decide (s.rd (Fld.LMON_CFG_LO n) ≤ v ∧ v ≤ s.rd (Fld.LMON_CFG_HI n))
  if s.rdB (Fld.LMON_CFG_MODE n) then inside else !inside

/-- One channel of a Bivouac cycle: converted unless ACT = 0; entry into match after COUNT matching cycles in a row (R138). -/
def lmonCycle (n v : Nat) (s : State) : State :=
  if s.rd (Fld.LMON_CFG_ACT n) = 0 then s
  else
    let s := s.wr (lmonField n) v
    if lmonMatches s n v then
      let r := Nat.min 15 (Tab.get 0 s.lan.lmonRun n + 1)
      let s := { s with lan := { s.lan with lmonRun := Tab.set 0 s.lan.lmonRun n r } }
      if s.lan.lmonIn.testBit n || decide (r < Nat.max 1 (s.rd (Fld.LMON_CFG_COUNT n))) then s
      else
        let s := { s with lan := { s.lan with lmonIn := setBitOf s.lan.lmonIn n true } }
        let s := if s.rd (Fld.LMON_CFG_ACT n) = 2 then wakeSet (2 + n) true s else s
        (s.wrBit Fld.LAN_EVENTS_LMON_MATCH n true).logEv 0x00 0x000D (n * 2 ^ 24 + v % 4096)
    else
      wakeSet (2 + n) false { s with lan := { s.lan with lmonRun := Tab.set 0 s.lan.lmonRun n 0, lmonIn := setBitOf s.lan.lmonIn n false } }

/-- The cell alone carries the Lantern and is low: VCELL, 4,800 / 4,096 mV per code, is below UVD + 0.15 V (R139, R158). -/
def cellIsLow (code : Nat) (s : State) : Bool :=
  s.rdB Fld.LAN_STATUS_CELL_CONN && !s.lan.extSupply && !harvests s && decide (code * 4800 < (uvdMv s + 150) * 4096)

/-- The cell-low condition of a Bivouac cycle (R139): logged once as VCELL falls, and each time it is found there the Lantern changes to Dormant
if CELL_LOW_DORM says so. -/
def cellLow (code : Nat) (s : State) : State :=
  if cellIsLow code s then
    let s := if s.lan.cellLowLogged then s
      else ({ s with lan := { s.lan with cellLowLogged := true } }.wr Fld.LAN_EVENTS_CELL_LOW 1).logEv 0x00 0x0006 0
    if s.rdB Fld.POWER_CFG_CELL_LOW_DORM then { s with lan := { s.lan with mode := .dormant, cellDorm := true } } else s
  else { s with lan := { s.lan with cellLowLogged := false } }

/-- BIVOUAC_CYCLE (R137): one cycle, PERIOD of RTC time after the last. -/
def execBivouacCycle (l0 l1 l2 l3 vcell : BitVec 12) (s : State) : Host.Outcome State Fault Refusal :=
  runLan (fun s => if s.lan.mode = .bivouac then
      let s := sleepPass (1024 * 2 ^ Nat.min 13 (s.rd Fld.BIV_CFG_PERIOD)) s
      let s := lmonCycle 3 l3.toNat (lmonCycle 2 l2.toNat (lmonCycle 1 l1.toNat (lmonCycle 0 l0.toNat s)))
      cellLow vcell.toNat (s.wr Fld.SUPPLY_DATA_VCELL_V vcell.toNat)
    else s) s

/-- LMON_CONVERT (R138, R139, R158): with the main domain on, all inputs and supplies are converted and no match is evaluated; a cell that is
low no longer can fall again. -/
def execLmonConvert (l0 l1 l2 l3 vlan vcell : BitVec 12) (s : State) : Host.Outcome State Fault Refusal :=
  runLan (fun s => if s.mainOn then
      let s := (((((s.wr (lmonField 0) l0.toNat).wr (lmonField 1) l1.toNat).wr (lmonField 2) l2.toNat).wr (lmonField 3) l3.toNat).wr
        Fld.SUPPLY_DATA_VLAN vlan.toNat).wr Fld.SUPPLY_DATA_VCELL_V vcell.toNat
      { s with lan := { s.lan with cellLowLogged := s.lan.cellLowLogged && cellIsLow vcell.toNat s } }
    else s) s

/-! ### The trouble log (R142 to R146, R160 to R163) -/

/-- The older of two queue heads goes first; in the same cycle the Lantern, then the control die, then the switch die (R145). -/
def older (a : LogEntry) (b : Option LogEntry) : Bool :=
  match b with
  | none => true
  | some e => decide (a.stamp ≤ e.stamp)

/-- The oldest queued entry, and the log without it. -/
def logPop (l : TroubleLog) : Option (LogEntry × TroubleLog) :=
  match l.lanQ, l.ctrlQ, l.switchQ with
  | a :: q, c, w =>
    if older a c.head? && older a w.head? then some (a, { l with lanQ := q })
    else match c, w with
      | b :: r, w => if older b w.head? then some (b, { l with ctrlQ := r })
                     else (match w with | d :: x => some (d, { l with switchQ := x }) | [] => some (b, { l with ctrlQ := r }))
      | [], d :: x => some (d, { l with switchQ := x })
      | [], [] => some (a, { l with lanQ := q })
  | [], b :: r, w => if older b w.head? then some (b, { l with ctrlQ := r })
                     else (match w with | d :: x => some (d, { l with switchQ := x }) | [] => some (b, { l with ctrlQ := r }))
  | [], [], d :: x => some (d, { l with switchQ := x })
  | [], [], [] => none

/-- An entry is written: the newest of at most 1,024; over a full log the oldest is overwritten and counted (R142). -/
def logWrite (e : LogEntry) (s : State) : State :=
  let r : LogRec := ⟨e, e.late.getD s.lan.rtc, !(s.rdB Fld.LAN_STATUS_RTC_VALID)⟩
  let s := when (decide (1024 ≤ s.log.ring.length)) (fun s => s.inc Fld.LOG_OVF_OVERWRITTEN) s
  let ring := (r :: s.log.ring).take 1024
  { s with log := { s.log with ring := ring } }.wr Fld.LOG_STATUS_COUNT ring.length

/-- LOG_WRITE_SLOT (R145): one entry, the oldest queued, is written; from Bivouac and Dormant only Lantern entries arise. -/
def execLogWriteSlot (s : State) : Host.Outcome State Fault Refusal :=
  runLan (fun s => match logPop s.log with
    | some (e, l) => logWrite e { s with log := l }
    | none => s) s

/-- LOG_CLEAR (R146): only a session of role SERVICE empties the log; LOG_CLEARED is then its first entry. -/
def logClear (i : Initiator) (s : State) : State :=
  match i with
  | .session k =>
    if s.rd (Fld.CE_SESS_ROLE k.val) = 3 then
      let s := (s.wr Fld.LOG_STATUS_DROPPED 0).wr Fld.LOG_OVF_OVERWRITTEN 0
      (logWrite (s.logEntry 0x00 0x000F 0 none) { s with log := { s.log with ring := [] } }).answerSt .ok
    else s.answerSt .denied
  | _ => s.answerSt .denied

/-- LOG_CLEAR (R146). -/
def execLogClear (i : Initiator) (s : State) : Host.Outcome State Fault Refusal := runLan (logClear i) s

/-- The 16 bytes of a written entry, little-endian (R142). -/
def logBytes (r : LogRec) : List Byte :=
  leBytes 6 r.rtc ++ leBytes 2 r.entry.fn16 ++ leBytes 1 r.entry.source
    ++ leBytes 1 (r.rtcInvalid.toNat + 2 * r.entry.fnNone.toNat + 4 * r.entry.late.isSome.toNat + 8 * r.entry.unsynced.toNat)
    ++ leBytes 2 r.entry.code ++ leBytes 4 r.entry.datum.toNat

/-- A read of LOG_E0 (R146): the selected entry is copied into LOG_E0 to LOG_E3 in the same cycle; none reads as zero. -/
def logEntryRead (s : State) : State :=
  let b := match s.log.ring[s.rd Fld.LOG_CTRL_LOG_SEL]? with
    | some r => logBytes r
    | none => List.replicate 16 0#8
  let s := forEach [0, 1, 2, 3] (fun k s => s.wr (Fld.LOG_E_ENTRY k) (leAt b (4 * k) 4)) s
  s.answer (BitVec.ofNat 32 (leAt b 0 4)) .done .ok

/-- LOG_ENTRY_READ (R146). -/
def execLogEntryRead (i : Initiator) (s : State) : Host.Outcome State Fault Refusal :=
  runLan (readAdmitted i (Reg.LOG_E 0) logEntryRead) s

end Sys2Proof.Machine
end

