-- ==== Sys2Proof/Machine/Image.lean ====
section
/-!
DEFINITION. Machine/Image.lean: start-up, the pitch image, counted settings and the change log
(spec/06_startup_and_pitch_image.md): resets, the boot, activations and re-pitches at a frame number, digest agreement.
-/
namespace Sys2Proof.Machine

/-! ### Resets (R164 to R166) -/

/-- SYS_RST (R164): SYS_RST_N low for 1 us or more. -/
def execSysRst (s : State) : Host.Outcome State Fault Refusal :=
  run (fun s => if s.mainOn then mainReset 1 s else s) s

/-- RESET_RELEASE (R169 step 1): 1.0 ms after PG_TIER1 and SYS_RST_N are high; after a Lantern wake the main domain powers
up with CAUSE 0, and banks 0 and 1 take their levels from their supplies, `vio0` and `vio1` in mV (R52). `counts` RTC counts have passed since
the Lantern's last command of the sleep (R128). -/
def execResetRelease (vio0 vio1 counts : Nat) (s : State) : Host.Outcome State Fault Refusal :=
  run (fun s =>
    if s.lan.mode = .waking then
      let s := sleepPass counts s
      let s := { s with lan := { s.lan with mode := .mainOn, wakeActive := s.lan.wakeActive &&& 1, wakeLeft := none, appAge := 0 } }
      let s := { s with pwr := { s.pwr with bankPresent := banksPresent [vio0, vio1], bank3v3 := banks3v3 [vio0, vio1] } }
      let s := mainReset 0 s
      { s with img := { s.img with phase := .released } }
    else if s.mainOn = true ∧ s.img.phase = .inReset then { s with img := { s.img with phase := .released } }
    else s) s

/-! ### Boot (R169 to R172, R197) -/

/-- The change log is checked against the NVCA chain head (R197). -/
def clogCheck (s : State) : State :=
  let last := s.flash.clog.getLast?
  let ok := match last with
    | some e => decide (e.seq = s.clog.writtenSeq ∧ clogHash e = s.clog.headHash)
    | none => decide (s.clog.writtenSeq = 0)
  let s := if ok then s else (s.wr Fld.IMG_STATUS_CLOG_BROKEN 1).logEv 0x04 0x000C s.clog.writtenSeq
  let lost := s.clog.reservedSeq - s.clog.writtenSeq - s.clog.queue.length
  let s := if s.rdB Fld.RESET_CAUSE_LAN_COLD && decide (0 < lost) then
      (s.wr Fld.IMG_STATUS_CLOG_GAP 1).logEv 0x04 0x000D lost else s
  (s.wr Fld.CLOG_STATUS_QUEUED s.clog.queue.length).wr Fld.CLOG_SEQ_SEQ_LO (s.clog.writtenSeq % 2 ^ 32)

/-- No slot verifies, or the part is RETIRED (R71, R171, R172): the rails go off, the last class first, and the recovery server serves CSP1. -/
def noImage (s : State) : State :=
  let s := (s.wr Fld.IMG_STATUS_NO_IMAGE 1).logEv 0x04 0x0003 0
  let s := { s with img := { s.img with phase := .noImage } }
  let s := forEach (List.range 16) (fun n s => s.setReg (Reg.RAIL_CFG n) (resetWord (Reg.RAIL_CFG n))) s
  recoveryServe (railsOff 0xFFFF false s)

/-- The rail plan of the verified image (R69 to R71): rails it uses stay on, the others go off in the reverse order by the classes for which
they were enabled, and the sequence of the plan begins after that. -/
def applyRailPlan (m : List Byte) (s : State) : State :=
  let s := forEach (List.range 16) (fun n s =>
    (((((s.wr (Fld.RAIL_CFG_PMB_EN n) (imgRail m n / 2 ^ 31)).wr (Fld.RAIL_CFG_PMB_ADDR n) (imgRail m n / 2 ^ 24 % 128)).wr
      (Fld.RAIL_CFG_BANK n) (imgRail m n / 2 ^ 16 % 16)).wr (Fld.RAIL_CFG_PG_DELAY n) (imgRail m n / 2 ^ 8 % 256)).wr
      (Fld.RAIL_CFG_CLASS n) (imgRail m n % 16))) s
  let planned := (List.range 16).foldl (fun k n => if s.rd (Fld.RAIL_CFG_CLASS n) = 0 then k else setBitOf k n true) 0
  let plan := (List.range 16).foldl (fun p n =>
    if planned.testBit n then Tab.set (0, 0) p n (s.rd (Fld.RAIL_CFG_CLASS n), s.rd (Fld.RAIL_CFG_BANK n)) else p) s.pwr.plan
  let s := { s with pwr := { s.pwr with plan := plan } }
  let others := s.pwr.regEn - (s.pwr.regEn &&& planned)
  if others = 0 then railsOn 0 s else railsOff others true s

/-- The image of slot `k` boots (R169 step 5): rail plan, spread profiles, declared bank levels, role, firmware. -/
def bootFrom (k : Nat) (s : State) : State :=
  let m := s.flash.slot k
  let s := { s with img := { s.img with phase := .firmware, active := m },
                    pwr := { s.pwr with used := Config.usedDomains m, startState := imgStart m } }
  let s := (s.wr Fld.IMG_STATUS_ACT_SLOT k).setReg Reg.SSC_CFG (BitVec.ofNat 32 (imgClock m % 65536) &&& 0xF3F3#32)
  let s := s.wr Fld.IO_BANK_STATUS_DECL_3V3 (imgBanks m / 4 * 4 + s.rd Fld.IO_BANK_STATUS_DET_3V3 % 4)
  let s := s.logEv 0x04 0x0001 (imgEpoch m)
  dbgShow (firmwareStart (applyRailPlan m s))

/-- The slot to boot from and whether it is a fallback (R169 step 4). -/
def bootChoice (o : Otp) (f : Flash) (r : BootRec) : Option (Nat × Bool) :=
  let good (k : Option Nat) : Option Nat := match k with
    | some j => if verifyImage o (f.slot j) = .ok then some j else none
    | none => none
  match good (slotWith r .active) with
  | some k => some (k, false)
  | none => match good (slotWith r .previous) with
    | some k => some (k, true)
    | none => none

/-- The boot record as the boot takes it (R169 step 3, R179): a pending activation with the commit marker has been made, and a slot left
WRITING counts as EMPTY. -/
def bootRecord (r : BootRec) : BootRec :=
  let r := match r.pending with
    | some p => if r.commit then
        { (r.setSlot (1 - p.slot) (if r.slot (1 - p.slot) = SlotState.active then .previous else r.slot (1 - p.slot))).setSlot p.slot .active
          with pending := none, commit := false }
      else r
    | none => r
  { r with slotA := if r.slotA = SlotState.writing then .empty else r.slotA,
           slotB := if r.slotB = SlotState.writing then .empty else r.slotB }

/-- The boot reads the slot marked ACTIVE and, where it does not boot from that, the one marked PREVIOUS, over CSP0 (R169 step 4, R635). -/
def bootReads (r : BootRec) (f : Flash) (c : Option (Nat × Bool)) : List Out :=
  let read (x : SlotState) : List Out := match slotWith r x with | some k => norRead (slotBase k) (f.slot k).length | none => []
  match c with
  | some (_, false) => read .active
  | _ => read .active ++ read .previous

/-- BOOT (R169 steps 2 to 5, R170, R171, R197). -/
def boot (s : State) : State :=
  let s := { s with lan := { s.lan with appAge := 0 } }
  let s := clogCheck s
  if s.otp.lifecycle = 3 then noImage s
  else
    let s := norSend (norRead 0 65536 ++ norRead 65536 65536) s
    let r := bootRecord (currentRec s.flash)
    let s := if r = currentRec s.flash then s else { norSend (norRecord s.flash) s with flash := writeRec r s.flash }
    let s := norSend (bootReads r s.flash (bootChoice s.otp s.flash r)) s
    match bootChoice s.otp s.flash r with
    | none => noImage (showPending (showSlots s))
    | some (k, fallback) =>
      let s := if fallback then
          let r' := (r.setSlot k .active).setSlot (1 - k) .empty
          ({ norSend (norRecord s.flash) s with flash := writeRec { r' with pending := none, commit := false } s.flash }.wr Fld.IMG_STATUS_BOOT_FALLBACK 1).logEv 0x04 0x0002
            ((1 - k) + (if r.slot (1 - k) = SlotState.active then 0 else 256))
        else s
      let s := { s with img := { s.img with unresolved := (currentRec s.flash).pending.isSome } }
      bootFrom k (showPending (showSlots s))

/-- BOOT (R169). -/
def execBoot (s : State) : Host.Outcome State Fault Refusal :=
  run (fun s => if s.mainOn = true ∧ s.img.phase = .released then boot s else s) s

/-- Ring time at the boot (R114): the stored pair plus the RTC time elapsed, or the RTC time itself. A boot after a reset without a sleep uses
the pair of the last orderly sleep still, and the time is cut to a whole frame (DESIGN CHOICE, assumption 80). -/
def loadTime (s : State) : State :=
  let ns (c : Nat) : Nat := c * 1000000000 / 32768
  let rt := match s.lan.pair with
    | some (rt, rtc) => if s.rdB Fld.LAN_STATUS_RTC_VALID && s.rdB Fld.LAN_STATUS_ORDERLY then
        rt + ns ((s.lan.rtc + rtcModulus - rtc) % rtcModulus) else ns s.lan.rtc
    | none => ns s.lan.rtc
  ({ s with time := { s.time with rt := rt / frameNs * frameNs % rtModulus, loaded := true } }).setUnsynced true

/-- CONTROL_SECTIONS_LOAD (R169 step 6): once every rail class is good and the control PLL is locked; the sequencer starts
and the safety I/O starts in lockout. Ring time is loaded (step 7). -/
def execControlSectionsLoad (s : State) : Host.Outcome State Fault Refusal :=
  run (fun s => if s.img.phase = .firmware ∧ s.pwr.railsUp = true ∧ s.rdB Fld.CLK_STATUS_CTRL_LOCK = true then
      let s := loadControl s.img.active s
      loadTime { s with img := { s.img with phase := .controlLoaded } }
    else s) s

/-- Ticks start with the local activation while the control die has its clock; else when the control PLL has locked again (R26, R169). -/
def firstTicks (s : State) : State := if s.rdB Fld.CLK_STATUS_CTRL_LOCK then ticksStart s else s

/-- The registers and domains of the image that becomes active at the boot (R169 step 7 to 10, R496, R53). After a cold start of the Lantern
the alerts of step 10 begin: 24 h are 4,320,000,000 frames. -/
def localActivate (s : State) : State :=
  let s := { s with img := { s.img with phase := .booted, activeFrames := 0, alerted := 0,
                                        alertLeft := if s.rdB Fld.RESET_CAUSE_LAN_COLD then 4320000000 else 0 } }
  let s := selfCompare (showActive (loadSwitch s.img.active s))
  let s := bankCheck (meterRestore (gridSetLoad s))
  startBootState (requestMask (s.pwr.used &&& 0xBFFF) (firstTicks s))

/-- LOCAL_ACTIVATION (R169 steps 7 to 9): at the first frame tick after the control sections are loaded. -/
def execLocalActivation (s : State) : Host.Outcome State Fault Refusal :=
  run (fun s => if s.img.phase = .controlLoaded then localActivate s else s) s

/-- PRELOAD_COMPLETE (R170): the preload of the staged slot that a pending activation found at the boot calls for completes. -/
def execPreloadComplete (s : State) : Host.Outcome State Fault Refusal :=
  run (fun s => match (liveRec s).pending with
    | some p => if s.img.phase = .booted then
        { s with img := { s.img with shadow := s.flash.slot p.slot } }.wr Fld.IMG_STATUS_PRELOADED 1 else s
    | none => s) s

/-! ### Activation, re-pitch and their misses (R181 to R188) -/

/-- The pending activation or re-pitch, compared with the present frame (R170). -/
def pendingResolve (s : State) : State :=
  let s := { s with img := { s.img with unresolved := false } }
  match (liveRec s).pending with
  | none => s
  | some p =>
    if fnLater p.target s.fn then s
    else if p.target = s.fn then usedChanged (activateNow s)
    else missActivation 5 s

/-- PENDING_RESOLVE (R170): at the first frame tick with UNSYNCED clear after the boot. -/
def execPendingResolve (s : State) : Host.Outcome State Fault Refusal :=
  run (fun s => if s.img.unresolved && !s.unsynced && decide (s.img.phase = .booted) then pendingResolve s else s) s

/-- The pending activation (`re` = false) or re-pitch (`re` = true) whose frame has come is made or missed. -/
def pendingNow (re : Bool) (s : State) : State :=
  match (liveRec s).pending with
  | some p => if p.plot.isSome = re ∧ p.target = s.fn ∧ s.img.unresolved = false then usedChanged (activateNow s) else s
  | none => s

/-- ACTIVATION (R181, R185, R187): in the tick cycle of frame N. -/
def execActivation (s : State) : Host.Outcome State Fault Refusal := run (pendingNow false) s

/-- REPITCH (R188): in the tick cycle of frame N of a pending re-pitch. -/
def execRepitch (s : State) : Host.Outcome State Fault Refusal := run (pendingNow true) s

/-- COMMIT_MARKER (R181): no later than 1 ms after the activation. -/
def execCommitMarker (s : State) : Host.Outcome State Fault Refusal :=
  run (fun s => if s.img.commitDue then
      let s := norSend (norMarker s.flash) s
      { s with flash := markRec s.flash, img := { s.img with commitDue := false } } else s) s

/-- BOOT_RECORD_REWRITE (R181): no later than 100 ms after the activation the new slot states are written. -/
def execBootRecordRewrite (s : State) : Host.Outcome State Fault Refusal :=
  run (fun s => if s.img.rewriteDue then saveRec (liveRec s) s else s) s

/-- SEC_MIN_RAISE (R186): an image with RAISE_MIN has been active for 24 h without a main-domain reset. -/
def execSecMinRaise (s : State) : Host.Outcome State Fault Refusal :=
  run (fun s =>
    let v := imgSecVersion s.img.active
    if imgRaiseMin s.img.active && decide (s.otp.secMin < v ∧ v ≤ 63 ∧ 4320000000 ≤ s.img.activeFrames) && !s.clogFull then
      let s := { s with otp := { s.otp with secMin := v } }.wr Fld.IMG_KEYS_SEC_MIN v
      (s.logEv 0x04 0x000A 0x110).clogPush 0 0xFFFF 6 0x110 (newOf v)
    else s) s

/-! ### Digest and epoch agreement (R189, R190) -/

/-- The words of this node's announcement (R189): the active digest and epoch, and the pending target with the staged digest. -/
def announceWords (s : State) : List Nat :=
  let own := [s.rd (Fld.ACT_DIGEST 0), s.rd (Fld.ACT_DIGEST 1), s.rd (Fld.ACT_DIGEST 2), s.rd (Fld.ACT_DIGEST 3), s.rd Fld.ACT_EPOCH]
  match (liveRec s).pending with
  | some p => own ++ [p.target, s.rd (Fld.STG_DIGEST 0), s.rd (Fld.STG_DIGEST 1), s.rd (Fld.STG_DIGEST 2), s.rd (Fld.STG_DIGEST 3)]
  | none => own

/-- This frame is the node's announcement frame: one in 50,000, at the offset of the CLASSES section (R189), and not served yet. -/
def announceDue (s : State) : Bool :=
  (match imgSection s.img.active 0x04 with
    | some c => s.fn % 50000 == Config.announceOffset c % 50000
    | none => false) && s.img.announcedAt != some s.fn

/-- ANNOUNCE_SEND (R189): one announcement cell on each ring port group. -/
def execAnnounceSend (s : State) : Host.Outcome State Fault Refusal :=
  run (fun s => if s.img.phase = .booted ∧ announceDue s = true then
      forEach [0, 1, 2, 3] (nbrCell (.announce (announceWords s))) { s with img := { s.img with announcedAt := some s.fn } }
    else s) s

/-- The mismatch of a group with EXP: a rise is recorded and logged (R190, R198, R205). -/
def nbrCompare (g : Nat) (s : State) : State :=
  let zero := (List.range 4).all (fun w => s.rd (Fld.EXP_DIGEST w) == 0)
  let bad := !zero && ((List.range 4).any (fun w => s.rd (Fld.NBR_DIGEST g w) != s.rd (Fld.EXP_DIGEST w))
    || s.rd (Fld.NBR_EPOCH g) != s.rd Fld.EXP_EPOCH)
  let was := s.bit Fld.AGREE_STATUS_MISMATCH g
  let s := s.wrBit Fld.AGREE_STATUS_MISMATCH g bad
  if bad && !was then (s.wrBit Fld.AGREE_STATUS_MISMATCH_EV g true).logEv 0x04 0x0008 (2 ^ g) else s

/-- An announcement received (R190) on group `g`, with the neighbour's pending target and staged digest. -/
def announceRx (g : Nat) (digest : BitVec 128) (epoch : Nat) (pend : Option (Nat × BitVec 128)) (s : State) : State :=
  let s := forEach [0, 1, 2, 3] (fun w s => s.wr (Fld.NBR_DIGEST g w) (digestWord digest w)) s
  let s := (s.wr (Fld.NBR_EPOCH g) epoch).wrBit Fld.AGREE_STATUS_SILENT g false
  let s := { s with img := { s.img with nbrAt := Tab.set 0 s.img.nbrAt g s.fn, nbrPend := Tab.set none s.img.nbrPend g pend } }
  nbrPendEval g (nbrCompare g s)

/-- ANNOUNCE_RX (R190). -/
def execAnnounceRx (g : Fin 4) (digest : BitVec 128) (epoch : Word) (pend : Option (BitVec 48 × BitVec 128)) (s : State) :
    Host.Outcome State Fault Refusal :=
  run (announceRx g.val digest epoch.toNat (pend.map (fun p => (p.1.toNat, p.2)))) s

/-- The mismatch bits of the groups read 0 while EXP_DIGEST is all zeros (R190, R205). -/
def zeroExpClears (s : State) : State :=
  if (List.range 4).all (fun w => s.rd (Fld.EXP_DIGEST w) == 0) then s.wr Fld.AGREE_STATUS_MISMATCH 0 else s

/-- A write of EXP_DIGEST_w: words 0 to 2 are held; word 3 commits the four together and the node's own values are compared
with them; each word that changes is a change-log entry (R190, R194, R203). -/
def expWrite (i : Initiator) (w : Nat) (v : Word) (s : State) : State :=
  if s.roleOf i ≠ 1 then
    if s.reg (Reg.EXP_DIGEST w) = v then s.answerSt .ok else (s.logEv 0x01 0x0003 (Reg.EXP_DIGEST w)).answerSt .denied
  else if w < 3 then { s with img := { s.img with expHeld := Tab.set none s.img.expHeld w (some v) } }.answerSt .ok
  else
    let new (k : Nat) : Word := if k = 3 then v else (Tab.get none s.img.expHeld k).getD (s.reg (Reg.EXP_DIGEST k))
    let changed := (List.range 4).filter (fun k => s.reg (Reg.EXP_DIGEST k) != new k)
    if 64 < s.clogUsed + changed.length then s.answerSt .busy
    else
      let s := forEach changed (fun k s => (s.setReg (Reg.EXP_DIGEST k) (new k)).clogPush (s.roleOf i) (sessOf i) 4 (Reg.EXP_DIGEST k)
        (newOf (new k).toNat)) s
      (zeroExpClears (selfCompare { s with img := { s.img with expHeld := [] } })).answerSt .ok

/-- EXP_DIGEST_COMMIT (R190): a write of EXP_DIGEST_3. -/
def execExpDigestCommit (i : Initiator) (v : Word) (s : State) : Host.Outcome State Fault Refusal :=
  run (writeAdmitted i (Reg.EXP_DIGEST 3) (expWrite i 3 v)) s

/-- NBR_SILENT (R190): no announcement on group `g` for 150,000 frames. -/
def execNbrSilent (g : Fin 4) (s : State) : Host.Outcome State Fault Refusal :=
  run (fun s => if s.bit Fld.AGREE_STATUS_SILENT g.val = false ∧ 150000 ≤ fnDiff s.fn (Tab.get 0 s.img.nbrAt g.val) then
      ((s.wrBit Fld.AGREE_STATUS_SILENT g.val true).wrBit Fld.AGREE_STATUS_SILENT_EV g.val true).logEv 0x04 0x0009 g.val
    else s) s

/-! ### Counted settings and the change log (R191, R196) -/

/-- A completed LIFECYCLE_ADVANCE resets the main domain (R164, R192); into RETIRED it first zeroises. A node on its rings leaves
them first (R553). -/
def lifecycleDone (j : OtpJob) (s : State) : State :=
  let s := if j.value = 3 then otpShow (zeroise s) else s
  let s := if s.dbg.unlockLeft.isSome then unlockEnd 4 s else if testOpen s then dbgShow s else accessShut s
  if s.img.phase = .booted then leaveForReset 3 s else mainReset 3 s

/-- The unlock of an accepted token begins (R656, R657, R663): VALUE holds its scope and its minutes; the session that made it must
still be open. -/
def unlockBegin (j : OtpJob) (s : State) : State :=
  if j.session < 64 ∧ s.rdB (Fld.CE_SESS_VALID j.session) = true then
    let s := { s with dbg := { s.dbg with unlockLeft := some (j.value / 256 * 3000000) } }
    let s := (s.wr Fld.DBG_UNLOCK_SCOPE (j.value % 16)).wr Fld.DBG_UNLOCK_SESSION j.session
    dbgShow (s.logEv 0x22 0x0001 (j.value % 16 + j.session * 256))
  else s

/-- The programming of a counted setting ends (R191): the setting takes effect, or the old value remains and SETTING_FAIL is logged. -/
def otpDone (success : Bool) (s : State) : State :=
  match s.otp.programming with
  | none => s
  | some j =>
    let s := { s with otp := { s.otp with programming := none } }
    if success then
      let s := respond j.session j.opcode j.tag 0 true false [] (showOps (otpApply j s))
      let s := if j.offset = 0x10C then unlockBegin j s else s
      if j.offset = 0x14 then lifecycleDone j s else s
    else respond j.session j.opcode j.tag 8 true false [] (showOps (s.logEv 0x04 0x000B j.offset))

/-- OTP_PROGRAM_DONE (R191): the programming of a counted setting ends; on failure the old value remains. -/
def execOtpProgramDone (success : Bool) (s : State) : Host.Outcome State Fault Refusal := run (otpDone success) s

/-- CLOG_FLASH_WRITE (R196, R197): the oldest queued entry is written with its LINK; a full region loses its oldest block
of 4,096 first. -/
def execClogFlashWrite (s : State) : Host.Outcome State Fault Refusal :=
  run (fun s => match s.clog.queue with
    | [] => s
    | e :: q =>
      let full := decide (65536 ≤ s.flash.clog.length)
      let e := { e with link := s.clog.headHash, wrap := full }
      let old := if full then s.flash.clog.drop 4096 else s.flash.clog
      let s := norSend (norClog e.seq full) s
      let s := { s with flash := { s.flash with clog := old ++ [e] },
                        clog := { s.clog with queue := q, writtenSeq := e.seq, headHash := clogHash e } }
      (s.wr Fld.CLOG_STATUS_QUEUED q.length).wr Fld.CLOG_SEQ_SEQ_LO (e.seq % 2 ^ 32)) s

end Sys2Proof.Machine
end

