-- ==== Sys2Proof/Machine/Tick.lean ====
section
/-!
DEFINITION. Machine/Tick.lean: the frame tick and the control tick (R15, R19, R22 of spec/01_architecture.md): what every
block does at each, in the order of the part.
-/
namespace Sys2Proof.Machine

/-- A frame of the control die is one cycle longer or shorter while ring time is slewed (R111, R113): 2.5 ns a frame. -/
def slewFrame (s : State) : State :=
  let s := { s with time := { s.time with lastCycles := s.time.frameCycles } }
  let k := s.time.slew
  if 25 ≤ k then { s with time := { s.time with slew := k - 25, frameCycles := 8001 } }
  else if k ≤ -25 then { s with time := { s.time with slew := k + 25, frameCycles := 7999 } }
  else { s with time := { s.time with frameCycles := 8000 } }

/-- The switch die sends a time transfer while its clocks run; the first since the control PLL locked lets ticks resume (R26, R111). -/
def transferFrame (s : State) : State :=
  if s.rdB Fld.CLK_STATUS_RG_LOCK && s.time.resume == some 2 then { s with time := { s.time with resume := some 1 } } else s

/-- Ring time and the RTC go on by a frame; what is counted per frame begins anew (R15, R24, R128, R186, R407). -/
def timeFrame (s : State) : State :=
  let n := if s.img.phase = .booted then s.img.activeFrames + 1 else s.img.activeFrames
  let s := { s with
    time := { s.time with rt := (s.time.rt + frameNs) % rtModulus, nextTick := 0 }
    img := { s.img with activeFrames := n, alertLeft := s.img.alertLeft - 1 }
    log := { s.log with once := [] }
    pwm := { s.pwm with index := [], span := spansShift s.time.frameCycles s.pwm.span } }
  let s := adcFrame (32 * s.time.frameCycles) (calFrame s)
  rtcAdvance frameNs (transferFrame (slewFrame { s with lan := { s.lan with appAge := s.lan.appAge + 1 } }))

/-- The control die sends its heartbeat (R132). -/
def heartbeatFrame (s : State) : State := { s with lan := { s.lan with ctHbSeen := true } }

/-- The first frame tick at which ticks run again (R225, R233, R428): a change on every core; free-running pairs restart at the next one. -/
def resumeFrame (s : State) : State :=
  if s.time.resume = some 0 then adcResume { s with time := { s.time with resume := none } } else s

/-- The ADC cores follow the periods of several frames that end later or earlier than they were to end (R407); `old` is the state before the
frame tick. -/
def stretchAdc (old s : State) : State :=
  forEach (pairs.filter (fun p => Tab.get none old.pwm.span p != Tab.get none s.pwm.span p && (Tab.get none old.pwm.span p).isSome)) (adcStretch old) s

/-- What the control die does at a frame tick (R22): grid-sync copies, stages, islanding, metering, the engine's grace and swaps, and the
safety scan. -/
def controlFrame (sa sb : BitVec 32) (rb : BitVec 16) (ack : Bool) (s : State) : State :=
  let s := adcTick 3 0 (stretchAdc s (resumeFrame (pwmFrame (swapMissed (graceFrame s)))))
  let s := forEach (List.range 9) unitFrame s
  let s := islandFrame (forEach stages stageFrame s)
  safetyScan sa sb rb ack (meterFrame (heartbeatFrame s))

/-- Ticks run: the control die has its clock and an image (R26, R29). -/
def ticksRun (s : State) : Bool := s.rdB Fld.SCHED_CFG_TICK_RUN && s.rdB Fld.CLK_STATUS_CTRL_LOCK

/-- What the switch die does at a frame tick. -/
def switchFrame (s : State) : State :=
  pwFrame (unlockFrame (engineFrame (plotsFrame (ctlFrame (ringFrame (ptpFrame (pwrTick (biasTick s))))))))

/-- A frame tick (R15, R22). -/
def frameTick (sa sb : BitVec 32) (rb : BitVec 16) (ack : Bool) (s : State) : State :=
  let s := perfFrame (timeFrame s)
  let s := if ticksRun s then controlFrame sa sb rb ack s else s
  switchFrame s

/-- FRAME_TICK (R15, R22): SIN_A, SIN_B, SRB and SAFE_ACK are the levels that the safety scan of the frame samples. -/
def execFrameTick (sinA sinB : BitVec 32) (srb : BitVec 16) (ack : Bool) (s : State) : Host.Outcome State Fault Refusal :=
  run (fun s => if s.mainOn then frameTick sinA sinB srb ack s else s) s


/-- Control tick `i` of the present frame (R19, R22): the ending tick is checked, then the new one begins; trackers take the results of the
tick that ends (R359). -/
def controlTick (i : Nat) (s : State) : State :=
  let s := forEach pairs (levelsShow ((i * 8000 / ticksPerFrame s : Nat) : Int)) s
  let s := (engineTickEnd (stallCheck s)).wr Fld.SCHED_STATUS_TICK_IDX i
  let s := { s with time := { s.time with nextTick := i + 1 } }
  let s := { s with loop := { s.loop with tick := tickNumber s i } }
  let s := engineTickBegin (stagesTake (anglesTake (windowsTake (windowsCut (adcTick 2 (i * 256000 / ticksPerFrame s) s)))))
  ticksForget (trackersTick (decide (i = 0)) (meterTick s))

/-- CONTROL_TICK (R19, R24, R233, R361): the next control tick of the frame. -/
def execControlTick (s : State) : Host.Outcome State Fault Refusal :=
  run (fun s => if s.mainOn && ticksRun s && decide (s.time.resume ≠ some 0) && decide (s.time.nextTick < ticksPerFrame s) then controlTick s.time.nextTick s else s) s

/-- PERIOD_BOUNDARY (R31, R218, R416): a tick-locked pair has its boundaries in phase with ring time, and no others; the ADC cores follow the
events of the period that begins. -/
def execPeriodBoundary (p : Fin 72) (s : State) : Host.Outcome State Fault Refusal :=
  run (fun s => match boundaryIndex s p.val with
    | some k => if counterRuns s p.val then adcPeriod p.val (periodBoundary p.val k s) else s
    | none => s) s

/-- ENGINE_START (R299): at a frame tick at which the engine may start; stages and trackers with AUTO = 1 start with it. -/
def execEngineStart (s : State) : Host.Outcome State Fault Refusal :=
  run (fun s => if engineMayStart s then trackersAuto (stagesAuto (engineStart s)) else s) s

/-- LEAVE_AT_N (R553): at frame N the hold requests are withdrawn; a reset that the removal serves follows 1 ms after frame N. -/
def execLeaveAtN (s : State) : Host.Outcome State Fault Refusal :=
  run (fun s =>
    let s := withdrawHolds s
    match s.ring.reset with
    | some (c, f) => if fnReached f s.fn then mainReset c s else s
    | none => s) s

end Sys2Proof.Machine
end

