-- ==== Sys2Proof/Machine/Bus.lean ====
section
/-!
DEFINITION. Machine/Bus.lean: a register access from any initiator (R3 to R10 of spec/00_scope.md, R39 to R43 of
spec/01_architecture.md): what a written word and a read do at every address of the register space.
-/
namespace Sys2Proof.Machine

/-! ### Accesses that reach no register (R3, R41) -/

/-- An access of another width than 32 bits, or unaligned (R3). -/
def badWidth (a size : Nat) : Bool := decide (size ≠ 4) || decide (a % 4 ≠ 0)

/-- An access of a wrong width: no effect, BAD_ARG, logged (R3). -/
def widthRefused (a : Nat) (s : State) : State := (s.logEv 0x01 0x0001 a).answerSt .badArg

/-- An access to an address that no decoded range contains or no chapter defines: zero, BAD_ARG, logged (R41). -/
def undecoded (a : Nat) (s : State) : State := (s.logEv 0x01 0x0002 a).answerSt .badArg

/-- The snapshot window of the counter block (R653): copies of the registers 0x1_0000 below. -/
def inSnapshot (a : Nat) : Bool := decide (0x710000 ≤ a ∧ a < 0x720000)

/-- A register lies at an address. -/
def decoded (a : Nat) : Bool := inSnapshot a || (descOf a).isSome

/-! ### Writes under the access codes (R5 to R9) -/

/-- A write judged by the access codes alone: a locked RWL field that would change refuses the word (R8); an effective change of
an RWL field enters the change log with it (R194). `after` is what follows from the new word. -/
def plainWrite (i : Initiator) (d : RegDesc) (a : Nat) (v : Word) (after : State → State) (s : State) : State :=
  let o := unlockedBy d.unlock s i a
  let old := s.reg a
  if lockedChange d o old v then refuseLocked a s
  else
    let new := afterWrite d o old v
    if effectiveLocked d o old v then logged i 4 a (newOf new.toNat) (fun s => after (s.setReg a new)) s
    else after (s.setReg a new)

/-! ### Registers whose writes do more -/

/-- PWR_CTRL (R88): IDLE_DELAY and IDLE_AUTO are written, and REQ asks for a state; a REQ locked for the initiator that would change
refuses the whole word (R8), one whose change finds no place in the change queue answers BUSY (R196), and a value above 4 is ignored and
logged. -/
def pwrCtrlWrite (i : Initiator) (v : Word) (s : State) : State :=
  let goal := Fld.PWR_CTRL_REQ.get v
  let change := decide (s.rd Fld.PWR_CTRL_REQ ≠ goal)
  if !mayRequestState s i && change then refuseLocked Reg.PWR_CTRL s
  else if change && decide (goal ≤ 4) && s.clogFull then s.answerSt .busy
  else
    let s := (s.wr Fld.PWR_CTRL_IDLE_DELAY (Fld.PWR_CTRL_IDLE_DELAY.get v)).wr Fld.PWR_CTRL_IDLE_AUTO (Fld.PWR_CTRL_IDLE_AUTO.get v)
    if 4 < goal then s.logEv 0x01 0x0005 Reg.PWR_CTRL else reqWrite i goal s

/-- DOM_REQ (R90): REQ_SDG wakes and powers down lane groups. -/
def domReqWrite (i : Initiator) (v : Word) (s : State) : State :=
  let g := Fld.DOM_REQ_REQ_SDG.get v
  if s.rd Fld.DOM_REQ_REQ_SDG = g then s
  else if !sessionOf [1] s i then refuseLocked Reg.DOM_REQ s
  else logged i 4 Reg.DOM_REQ (newOf (Fld.DOM_REQ_REQ_SDG.put (s.reg Reg.DOM_REQ) g).toNat) (sdgWrite g) s

/-- SCHED_STATUS (R27, R30, R306): W1C; a clear of TICK_LOST is refused and logged while the control PLL is not locked; a clear of
TICK_OVERRUN ends source TICK_OVR. -/
def schedWrite (v : Word) (s : State) : State :=
  let refuse := decide (Fld.SCHED_STATUS_TICK_LOST.get v = 1) && s.rdB Fld.SCHED_STATUS_TICK_LOST && !s.rdB Fld.CLK_STATUS_CTRL_LOCK
  let clear := if refuse then Fld.SCHED_STATUS_TICK_LOST.put v 0 else v
  let isOver := decide (Fld.SCHED_STATUS_TICK_OVERRUN.get v = 1)
  let s := w1cWrite Reg.SCHED_STATUS (clear &&& 0xF#32) s
  let s := when refuse (fun s => s.logEv 0x03 0x0005 0) s
  if isOver then settleTrips noPulse { s with pwm := { s.pwm with ovrTrip := 0 } } else s

/-- CELL_TYPE 3 is ignored: the field keeps its value (R153). -/
def powerCfgWord (v : Word) (s : State) : Word :=
  if Fld.POWER_CFG_CELL_TYPE.get v = 3 then Fld.POWER_CFG_CELL_TYPE.put v (s.rd Fld.POWER_CFG_CELL_TYPE) else v

/-- LOG_CTRL (R146, R162): LOG_SEL selects an entry, and CLEAR empties the log; a CLEAR from any but a SERVICE session changes nothing. -/
def logCtrlWrite (i : Initiator) (v : Word) (s : State) : State :=
  if Fld.LOG_CTRL_CLEAR.get v = 1 ∧ sessionOf [3] s i = false then s.answerSt .denied
  else
    let s := s.wr Fld.LOG_CTRL_LOG_SEL (Fld.LOG_CTRL_LOG_SEL.get v)
    if Fld.LOG_CTRL_CLEAR.get v = 1 then logClear i s else s

/-- LE_BANK_CTRL (R302, R304). -/
def bankCtrlWrite (i : Initiator) (v : Word) (s : State) : State :=
  if Fld.LE_BANK_CTRL_GO.get v = 0 then s
  else match Fld.LE_BANK_CTRL_CMD.get v with
    | 1 => armAt i s
    | 2 => armNext i s
    | 3 => swapDisarm s
    | 4 => bankCopy s
    | _ => s


/-- A write of the loop engine block (R298 to R304, R312, R320 to R323). -/
def loopWrite (i : Initiator) (d : RegDesc) (a : Nat) (v : Word) (s : State) : State :=
  if a = Reg.LE_BANK_CTRL then bankCtrlWrite i v s
  else match indexIn (Reg.LE_REARM 0) 4 3 0 1 a with
    | some (b, _) => rearmWrite b v s
    | none =>
      if a = Reg.LE_SWAP_AT_LO ∨ a = Reg.LE_SWAP_AT_HI ∨ (0x150000 ≤ a ∧ a < 0x158000) then leWrite a v s
      else plainWrite i d a v id s

/-- A write of the PWM block (R405 to R436): a slot-driven DUTY and a locked PER are refused (R417). -/
def pwmWrite (i : Initiator) (d : RegDesc) (a : Nat) (v : Word) (s : State) : State :=
  if 0x1D0000 ≤ a then
    match indexIn (Reg.PWM_CLR 0) 4 3 0 1 a, indexIn (Reg.PWM_FORCE 0) 4 3 0 1 a, indexIn (Reg.PWM_HOLD 0) 4 3 0 1 a with
    | some (w, _), _, _ => forEach (pairsIn w v) pairClear s
    | _, some (w, _), _ => pwmForceWrite w v s
    | _, _, some (w, _) => s.setReg a (mapWord w v)
    | _, _, _ => plainWrite i d a v id s
  else
    match indexIn (Reg.PWM_DUTY 0) 0x80 72 0 1 a, indexIn (Reg.PWM_PER 0) 0x80 72 0 1 a with
    | some (p, _), _ => if s.rdB (Fld.PWM_CFG_SLOT_DRV p) then refuseLocked a s else plainWrite i d a v id s
    | _, some (p, _) => if s.rdB (Fld.PWM_CFG_TLOCK p) then refuseLocked a s else plainWrite i d a v id s
    | _, _ => plainWrite i d a v id s

/-- A write of an ADC core (R227, R229, R243); the open-wire settings of a slave are not used. -/
def adcWrite (i : Initiator) (d : RegDesc) (a : Nat) (v : Word) (s : State) : State :=
  match adcCoreOf a with
  | none => s
  | some c =>
    if a = Reg.ADC_URG_REQ c then urgentWrite i c v s
    else if a = Reg.ADC_SW_TRIG c then swTrigWrite c v s
    else if s.rdB (Fld.ADC_CORE_CFG_SLAVE c) then s
    else plainWrite i d a v id s

/-- A write of the metering block (R495, R504 to R511): MTR_CMD and MTR_INT_CFG act as their commands, and a change of a calibration
register marks the running interval CONFIG (R494). -/
def meterWrite (i : Initiator) (d : RegDesc) (a : Nat) (v : Word) (s : State) : State :=
  if a = Reg.MTR_CMD then
    let cmd := Fld.MTR_CMD_CMD.get v
    let id := Fld.MTR_CMD_TARGET.get v
    if cmd = 1 ∨ cmd = 2 then meterCmd i cmd id s
    else unlockedFor [3] i a (fun s => (s.wr Fld.MTR_CMD_TARGET id).wr Fld.MTR_CMD_CMD cmd) s
  else if a = Reg.MTR_INT_CFG then intLenWrite i v s
  else match indexIn (Reg.MTR_CAL_OFFS 0 0) 0x100 9 4 24 a with
    | some (m, _) => plainWrite i d a v (chanReason m 0x40) s
    | none => plainWrite i d a v id s

/-- A write of the plots' block (R577, R599 to R603): policer words keep their buckets' fill, and PQ_FDB_CTRL runs its command. The word
of the plot's throttle is read-only (R576). -/
def plotWrite (i : Initiator) (d : RegDesc) (a : Nat) (v : Word) (s : State) : State :=
  if a = Reg.PQ_FDB_CTRL then (if Fld.PQ_FDB_CTRL_GO.get v = 1 then fdbCommand (Fld.PQ_FDB_CTRL_CMD.get v) s else s)
  else match indexIn (Reg.PQ_POL_RATE 0 0) 0x40 64 4 14 a with
    | some (p, k) =>
      if 12 ≤ k then s else unlockedFor [1] i a (polWrite p (k / 2) (k % 2 == 1) v) s
    | none => plainWrite i d a v id s

/-- A write of a clocked serial port (R632, R641, R642). CSP0 is the firmware's: its registers take no write. -/
def cspWrite (i : Initiator) (d : RegDesc) (a : Nat) (v : Word) (s : State) : State :=
  let n := (a - 0x680000) / 0x100
  if n = 0 then s
  else if a = Reg.CSP_XFER n then cspXferWrite n v s
  else if a = Reg.CSP_TXDATA n then cspPush n v s
  else plainWrite i d a v id s

/-- A write of the counter block (R647 to R654, R665 to R670). -/
def counterWrite (i : Initiator) (d : RegDesc) (a : Nat) (v : Word) (s : State) : State :=
  if inSnapshot a then s
  else
    match indexIn (Reg.PC_SEL 0) 16 64 4 3 a with
    | some (c, 0) => pcSelWrite i c v s
    | some (c, 1) => cntLoWrite c v s
    | some (c, _) => cntHiWrite c v s
    | none => if a = Reg.PC_CTRL then counterCommand (Fld.PC_CTRL_CMD.get v) s else plainWrite i d a v id s

/-- A write of the debug block (R655 to R672). -/
def debugWrite (i : Initiator) (a : Nat) (v : Word) (s : State) : State :=
  if a = Reg.DBG_UNLOCK then (if Fld.DBG_UNLOCK_LOCK.get v = 1 then dbgLock i s else s)
  else match indexIn (Reg.DBG_OBS_SEL 0) 4 4 0 1 a, indexIn (Reg.DBG_ATEST_SEL 0) 4 2 0 1 a with
    | some (n, _), _ => obsRoute i n v s
    | _, some (n, _) => atestRoute i n v s
    | _, _ => s

/-- A write of the power manager, the clocks, the Lantern window or the image control unit. -/
def switchWrite (i : Initiator) (d : RegDesc) (a : Nat) (v : Word) (s : State) : State :=
  if a = Reg.PWR_CTRL then pwrCtrlWrite i v s
  else if a = Reg.DOM_REQ then domReqWrite i v s
  else if a = Reg.SCHED_STATUS then schedWrite v s
  else if a = Reg.SYNCE_CFG then plainWrite i d a v synceEval s
  else if a = Reg.HB_CTRL then
    let s := plainWrite i d a v id s
    if s.bus.status = .ok ∧ Fld.HB_CTRL_APP_KICK.get v = 1 then appKick i s else s
  else if a = Reg.LOG_CTRL then logCtrlWrite i v s
  else if a = Reg.POWER_CFG then plainWrite i d a (powerCfgWord v s) cellTypeApply s
  else if a = Reg.EXP_EPOCH then plainWrite i d a v selfCompare s
  else match indexIn (Reg.EXP_DIGEST 0) 4 4 0 1 a with
    | some (w, _) => expWrite i w v s
    | none => if a = Reg.CS_GRID ∨ a = Reg.CS_ROLE ∨ a = Reg.CS_SPW ∨ a = Reg.CS_TOKEN ∨ a = Reg.LIFECYCLE then s.answerSt .denied
              else plainWrite i d a v id s

/-- A write of ISL_CTRL (R402): a command waits for the frame tick; in MODE OFF it is ignored. -/
def islCtrlWrite (i : Initiator) (d : RegDesc) (v : Word) (s : State) : State :=
  if islMode s = 0 then s else plainWrite i d Reg.ISL_CTRL v id s

/-- What a word written to a register does, by its block (R40). -/
def blockWrite (i : Initiator) (d : RegDesc) (a : Nat) (v : Word) (s : State) : State :=
  if a < 0x100000 then switchWrite i d a v s
  else if a < 0x120000 ∨ (0x130000 ≤ a ∧ a < 0x138000) then adcWrite i d a v s
  else if a = Reg.WIN_CLR then winClrWrite v s
  else if a = Reg.WIN_CHK_CTRL then winChkFrom i v s
  else if 0x120000 ≤ a ∧ a < 0x120200 ∧ a % 16 = 4 then plainWrite i d a v (dacWritten ((a - 0x120000) / 16)) s
  else if 0x140000 ≤ a ∧ a < 0x180000 then loopWrite i d a v s
  else if a = Reg.ISL_CTRL then islCtrlWrite i d v s
  else if 0x1C0000 ≤ a ∧ a < 0x1E0000 then pwmWrite i d a v s
  else if 0x200000 ≤ a ∧ a < 0x210000 then meterWrite i d a v s
  else if 0x500000 ≤ a ∧ a < 0x600000 then plotWrite i d a v s
  else if 0x680000 ≤ a ∧ a < 0x700000 then cspWrite i d a v s
  else if 0x700000 ≤ a ∧ a < 0x780000 then counterWrite i d a v s
  else if 0x780000 ≤ a then debugWrite i a v s
  else plainWrite i d a v id s

/-- A word written at an address by an initiator (R3 to R9, R39 to R43). An undefined address inside a block without power meets R41 and R42, and
the spec gives no order: R41 is judged first (DESIGN CHOICE, assumption 75). -/
def writeWord (i : Initiator) (a : Nat) (v : Word) (s : State) : State :=
  if decoded a = false then undecoded a s
  else if inSafetyBlock a then safetyWrite i a v s
  else writeAdmitted i a (fun s => match descOf a with
    | some d => blockWrite i d a v s
    | none => s) s

/-! ### Reads -/

/-- A register as a read shows it: 0 for one of no port (R560, R600), PWM_STATUS with a hold in force now (R418, R435), ISL_PUB as 0 on a node that is no anchor (R405), and the
FIFO levels of a serial port with the command function as 0 (R634). -/
def liveBits (d : RegDesc) (a : Nat) (s : State) : Word :=
  if a = Reg.ISL_PUB ∧ s.rd Fld.CS_ROLE_ROLE_IN_FORCE = 0 then 0
  else if 0x680000 ≤ a ∧ a = Reg.CSP_STATUS ((a - 0x680000) / 0x100) ∧ cspCommand s ((a - 0x680000) / 0x100) = true then
    shownBits d (s.reg a) &&& 0xFFF#32
  else if noPort s a then 0
  else match indexIn (Reg.PWM_STATUS 0) 0x80 72 0 1 a with
  | some (p, _) => shownBits d ((s.wrB (Fld.PWM_STATUS_HOLD p) (pairHeld s p)).reg a)
  | none => shownBits d (s.reg a)

/-- The word at an address as a read without side effect shows it: a bank window of the loop engine, the sources of a pair asserted now
(R435), else the register. -/
def wordAt (d : RegDesc) (a : Nat) (s : State) : Word :=
  match bankWindow s a, indexIn (Reg.PWM_TRIP_LIVE 0) 0x80 72 0 1 a with
  | some (b, o), _ => bankShown s b o
  | _, some (p, _) => BitVec.ofNat 32 (tripLive 0 s p)
  | _, _ => liveBits d a s

/-- A read of a register that no latch or FIFO stands behind (R5): its RC bits clear. -/
def plainRead (d : RegDesc) (a : Nat) (s : State) : State :=
  let w := wordAt d a s
  (if d.rc = 0 then s else s.setReg a (afterRead d (s.reg a))).answer w .done .ok

/-- A read of the snapshot window: the copies, or zero (R653). -/
def snapshotRead (i : Initiator) (a : Nat) (s : State) : State :=
  if isCounterLo a then counterLoRead i a s
  else s.answer (if hiddenHi i a s then 0#32 else s.reg a) .done .ok

/-- What a read of a register does, by its block. -/
def blockRead (i : Initiator) (d : RegDesc) (a : Nat) (s : State) : State :=
  if a = Reg.RT_NOW_LO then rtNowRead (s.free.1 % 20000) s.free.2
  else if a = Reg.RTC_LO then rtcRead s
  else if a = Reg.LOG_E 0 then logEntryRead s
  else match indexIn (Reg.SEC_S1_LO 0) 0x10 512 0 1 a, indexIn (sigLo 0) 8 4 0 1 a with
    | some (j, _), _ => secStateRead j s
    | _, some (k, _) => sigRead k s
    | _, _ =>
      if isMeterLo a then meterLoRead a s
      else if isCounterLo a then counterLoRead i a s
      else if hiddenHi i a s then s.answer 0#32 .done .ok
      else
        let n := (a - 0x680000) / 0x100
        if 0x680000 ≤ a ∧ a = Reg.CSP_RXDATA n then cspPop n s
        else if 0x680000 ≤ a ∧ a = Reg.CSP_RXLEN n then cspLenPop n s
        else plainRead d a s

/-- A read of the word at an address by an initiator (R3, R5, R6, R41, R42). -/
def readWord (i : Initiator) (a : Nat) (s : State) : State :=
  if decoded a = false then undecoded a s
  else readAdmitted i a (fun s => match descOf a with
    | some d => blockRead i d a s
    | none => snapshotRead i a s) s

/-- REGISTER_WRITE (R3 to R9, R39 to R43): an access of `size` bytes. -/
def execRegisterWrite (i : Initiator) (a : Word) (size : Nat) (v : Word) (s : State) : Host.Outcome State Fault Refusal :=
  run (if badWidth a.toNat size then widthRefused a.toNat else writeWord i a.toNat v) s

/-- RC_FIELD_READ (R5, R6): a read of a register; its read-clear fields clear. -/
def execRcFieldRead (i : Initiator) (a : Word) (size : Nat) (s : State) : Host.Outcome State Fault Refusal :=
  run (if badWidth a.toNat size then widthRefused a.toNat else readWord i a.toNat) s

end Sys2Proof.Machine
end

