-- ==== Sys2Proof/Machine/Session.lean ====
section
/-!
DEFINITION. Machine/Session.lean: command frames as the engine takes them (R605 to R619 of spec/20_commands_and_serial_ports.md): which
frames are served, the order of checks, sessions, the password, and register access by command.
-/
namespace Sys2Proof.Machine

/-! ### Which frames are served (R171, R172, R607, R622, R627) -/

/-- The cores, or the recovery server on CSP1, serve frames of sessions. -/
def serves (h : Hdr) (s : State) : Bool :=
  s.mainOn && !s.rdB Fld.CE_STATUS_FRONT_ONLY && decide (s.otp.lifecycle ≠ 3) && (decide (s.img.phase ≠ .noImage) || h.transport.val == 2)

/-- A frame that lifecycle RETIRED serves (R622): CSP1, SESSION = 0xFF. -/
def servesRetired (h : Hdr) (s : State) : Bool :=
  s.mainOn && !s.rdB Fld.CE_STATUS_FRONT_ONLY && s.otp.lifecycle == 3 && h.transport.val == 2 && h.session == 0xFF#8

/-- A command of session `k` is authentic (R607): its SEQ exceeds the last one accepted. Its MAC is right: a frame whose MAC is wrong is
UNAUTHENTIC_FRAME. -/
def authentic (h : Hdr) (s : State) : Bool :=
  decide (h.session.toNat < 64) && sessOpen s h.session.toNat && decide ((s.sess h.session.toNat).seqIn < h.seq.toNat)

/-- An alerted session acknowledges the cold-start alert with its next accepted command: no opcode does it (DESIGN CHOICE, assumption 72), and
the alerts end (R169 step 10). -/
def alertHeard (k : Nat) (s : State) : State :=
  if s.img.alerted.testBit k then { s with img := { s.img with alertLeft := 0, alerted := 0 } } else s

/-- An authentic command of session `k` is accepted (R607, R616, R638, R639). -/
def accepted (h : Hdr) (s : State) : State :=
  let k := h.session.toNat
  let s := countEv 0x0C0 h.transport.val 1 (s.inc Fld.CE_COUNT_ACCEPTED)
  let s := s.setSess k { s.sess k with seqIn := h.seq.toNat, idle := 0, rejects := 0 }
  let s := alertHeard k (s.wr (Fld.CE_SESS_IDLE k) 0)
  { s with eng := { s.eng with quiet := 0 } }

/-- A frame of a session: `f` acts on it if it is served and authentic; one that is not authentic is rejected (R607). -/
def withSession (h : Hdr) (f : Nat → State → State) (s : State) : State :=
  if serves h s = false then s
  else if authentic h s then f h.session.toNat (accepted h s)
  else rejectFrame h.session.toNat h.transport.val s

/-! ### The checks (R610, R612, R617) -/

/-- A command with the tag is in flight (R612). -/
def tagInFlight (s : State) (tag : Nat) : Bool :=
  opKeys.any (fun j => opLive s j && s.rd (Fld.CE_OP_TAG j) == tag) || s.eng.waits.any (fun w => w.tag == tag)
    || (match s.otp.programming with | some j => j.tag == tag | none => false)

/-- 4,096 commands are in flight (R612). -/
def tagsFull (s : State) : Bool :=
  decide (4096 ≤ (opKeys.filter (opLive s)).length + s.eng.waits.length + s.otp.programming.isSome.toNat)

/-- The role of session `k`. -/
def sessRole (s : State) (k : Nat) : Nat := s.rd (Fld.CE_SESS_ROLE k)

/-- The bucket of a TENANT session is empty (R617): TEN_BURST commands, in units of 1/50,000 command. -/
def bucketEmpty (s : State) (k : Nat) : Bool :=
  sessRole s k == 4 && decide (Nat.max 1 (s.rd Fld.CE_CFG_TEN_BURST) * 50000 < (s.sess k).spent + 50000)

/-- An admitted command of a TENANT session takes one from its bucket. -/
def bucketTake (k : Nat) (s : State) : State :=
  if sessRole s k = 4 then s.setSess k { s.sess k with spent := (s.sess k).spent + 50000 } else s

/-- The part is in a state that R618 names for an opcode: Img while an image runs in Run, Idle or Ring-only, else NoImg. -/
def stateNamed (noImg : Bool) (s : State) : Bool :=
  if s.img.phase = .noImage then noImg
  else decide (s.img.phase ≠ .inReset ∧ s.img.phase ≠ .released) && decide (s.rd Fld.PWR_STATE_STATE ≤ 2)

/-- What the checks of R610 find of a command: role and password; arguments; state; resources. -/
structure Finding where
  role : Bool
  args : Bool
  state : Bool
  res : Status
  deriving DecidableEq, Repr

/-- The first check that fails decides the status (R610, R612). -/
def verdict (h : Hdr) (k : Nat) (noImg : Bool) (c : Finding) (s : State) : Status :=
  if c.role = false then .denied
  else if c.args = false ∨ tagInFlight s h.tag.toNat = true then .badArg
  else if stateNamed noImg s = false ∨ c.state = false then .stateConflict
  else if bucketEmpty s k = true ∨ tagsFull s = true then .busy
  else c.res

/-- TAGS_FULL_EV, and TAGS_FULL once per second (R612). -/
def tagsFullShow (s : State) : State :=
  let s := s.wr Fld.CE_EVENTS_TAGS_FULL_EV 1
  let due := match s.eng.tagsAt with | some f => decide (framesPerSecond ≤ fnDiff s.fn f) | none => true
  if due then { s with eng := { s.eng with tagsAt := some s.fn } }.logEv 0x05 0x0009 0 else s

/-- A refusal with STATE_CONFLICT or DENIED is flagged and logged (R610); `k` is 0x3F for a command without a session
(DESIGN CHOICE, assumption 126). -/
def refusalLog (opcode k : Nat) (st : Status) (s : State) : State :=
  match st with
  | .stateConflict => (s.wr Fld.CE_EVENTS_CONFLICT_EV 1).logEv 0x05 0x0004 (opcode + k % 64 * 65536)
  | .denied => (s.wr Fld.CE_EVENTS_CONFLICT_EV 1).logEv 0x05 0x0005 (opcode + k % 64 * 65536)
  | _ => s

/-- What a full part shows of a refusal with BUSY: RATE_EV for an empty bucket, TAGS_FULL for 4,096 tags (R612, R617). -/
def busyShow (k : Nat) (st : Status) (s : State) : State :=
  if st ≠ .busy then s
  else if bucketEmpty s k then s.wr Fld.CE_EVENTS_RATE_EV 1
  else if tagsFull s then tagsFullShow s else s

/-- A command refused at the checks receives a final response with the status (R608, R610). -/
def refuse (h : Hdr) (opcode k : Nat) (st : Status) (s : State) : State :=
  respond k opcode h.tag.toNat st.code true false [] (refusalLog opcode k st (busyShow k st s))

/-- The final response of a command that has run (R608). -/
def finish (h : Hdr) (opcode k : Nat) (st : Status) (data : List Byte) (s : State) : State :=
  respond k opcode h.tag.toNat st.code true false data s

/-- The response to an accepted long command (R608). -/
def longAck (h : Hdr) (opcode k : Nat) (s : State) : State := respond k opcode h.tag.toNat 0 false false [] s

/-- A command of a session: accepted, checked, and run or refused (R607, R610). -/
def command (h : Hdr) (opcode : Nat) (noImg : Bool) (find : Nat → State → Finding) (act : Nat → State → State) (s : State) : State :=
  withSession h (fun k s => match verdict h k noImg (find k s) s with
    | .ok => act k (bucketTake k s)
    | st => refuse h opcode k st s) s

/-- The session has one of the roles. -/
def roleIn (roles : List Nat) (k : Nat) (s : State) : Bool := roles.contains (sessRole s k)

/-- The session is of role SAFETY and has presented the password (R526, R617). -/
def safetyOk (k : Nat) (s : State) : Bool := sessRole s k == 2 && s.rdB (Fld.CE_SESS_PW_OK k)

/-- The session as an initiator. -/
def sessInit (k : Nat) : Initiator := .session (Fin.ofNat 64 k)

/-! ### Sessions (R613 to R616) -/

/-- The index that a SESSION_OPEN is given (R172, R613): 62 and 63 are CSP1's; the recovery server uses no others. -/
def freeIndex (transport : Nat) (s : State) : Option Nat :=
  let l := if s.img.phase = .noImage then [62, 63] else if transport = 2 then [62, 63] ++ List.range 62 else List.range 62
  l.find? (fun k => !s.rdB (Fld.CE_SESS_VALID k))

/-- Sessions of TENANT for a plot (R617). -/
def tenantSessions (s : State) (plot : Nat) : Nat :=
  ((sessionsValid s).filter (fun k => sessRole s k == 4 && s.rd (Fld.CE_SESS_PLOT k) == plot)).length

/-- The checks of a SESSION_OPEN (R610, R613, R617). -/
def openVerdict (h : Hdr) (role plot : Nat) (s : State) : Status :=
  if 1 ≤ role ∧ role ≤ 4 ∧ (credential s role plot).isNone = true then .denied
  else if ¬(1 ≤ role ∧ role ≤ 4 ∧ plot < (if role = 4 then 64 else 1) ∧ h.argLen = 18) ∨ tagInFlight s h.tag.toNat = true then .badArg
  else if stateNamed true s = false then .stateConflict
  else if tagsFull s then .busy
  else if (role = 4 ∧ 4 ≤ tenantSessions s plot) ∨ (freeIndex h.transport.val s).isNone = true then .noResource
  else .ok

/-- Index `k` is allotted and held half-open (R613): PNONCE is a value the part chooses; the key follows from both nonces. -/
def openAt (h : Hdr) (k role plot : Nat) (cnonce : List Byte) (s : State) : State :=
  let pnonce := leBytes 16 s.free.1
  let s := s.free.2
  let sn := snonceOf cnonce pnonce
  let key := sessionKey ((credential s role plot).getD 0) (keyNode s) k sn
  let s := s.setSess k { restSess with key := key, snonce := sn, port := h.port.val }
  let s := { s with img := { s.img with alerted := setBitOf s.img.alerted k false } }
  let s := s.setReg (Reg.CE_SESS k) 0#32
  let s := ((s.wr (Fld.CE_SESS_VALID k) 1).wr (Fld.CE_SESS_HALF_OPEN k) 1).wr (Fld.CE_SESS_ROLE k) role
  let s := (s.wr (Fld.CE_SESS_TRANSPORT k) h.transport.val).wr (Fld.CE_SESS_PLOT k) plot
  respondOpen h.transport.val 1 h.tag.toNat 0 true false (leBytes 4 k ++ pnonce) (showSessions s)

/-- A SESSION_OPEN that finds no index sets SESS_FULL_EV and logs SESS_FULL; a fifth TENANT session of a plot does not (R613, R617). -/
def openRefuse (h : Hdr) (st : Status) (s : State) : State :=
  let s := match st with
    | .noResource => if (freeIndex h.transport.val s).isNone then (s.wr Fld.CE_EVENTS_SESS_FULL_EV 1).logEv 0x05 0x000A 0 else s
    | .busy => tagsFullShow s
    | _ => s
  respondOpen h.transport.val 1 h.tag.toNat st.code true false [] (refusalLog 1 0x3F st s)

/-- SESSION_OPEN (R613). Within a session it is no opcode of a session (DEDUCED, assumption 127). -/
def sessionOpen (h : Hdr) (role plot : Nat) (cnonce : List Byte) (s : State) : State :=
  if h.session ≠ 0xFF#8 then withSession h (fun k s => refuse h 1 k .badArg s) s
  else if serves h s = false then s
  else match openVerdict h role plot s, freeIndex h.transport.val s with
    | .ok, some k => openAt h k role plot cnonce s
    | st, _ => openRefuse h st s

/-- SESSION_OPEN (R613). -/
def execSessionOpen (h : Hdr) (role plot : BitVec 8) (cnonce : BitVec 128) (s : State) : Host.Outcome State Fault Refusal :=
  run (sessionOpen h role.toNat plot.toNat (beBytes 16 cnonce.toNat)) s

/-- An OPERATOR session opened in the 24 h after the first boot that follows a Lantern cold start is alerted (R169 step 10). -/
def coldAlert (k : Nat) (s : State) : State :=
  if sessRole s k == 1 && decide (0 < s.img.alertLeft) then
    State.send { s with img := { s.img with alerted := setBitOf s.img.alerted k true } } (.alert (s.rd (Fld.CE_SESS_TRANSPORT k)) k)
  else s

/-- Session `k` opens (R613, R75): with more than 4 open, Run is brought about. -/
def sessionProved (h : Hdr) (k : Nat) (s : State) : State :=
  let s := s.wr (Fld.CE_SESS_HALF_OPEN k) 0
  let s := s.logEv 0x05 0x0001 (k + sessRole s k * 256 + s.rd (Fld.CE_SESS_TRANSPORT k) * 4096)
  let s := finish h 2 k .ok [] s
  let s := if 4 < ((List.range 64).filter (sessOpen s)).length then runNeeded s else s
  coldAlert k s

/-- SESSION_PROVE (R613): with SEQ = 1 in a half-open session; in an open one it is refused (R618). -/
def sessionProve (h : Hdr) (s : State) : State :=
  let k := h.session.toNat
  if serves h s = false then s
  else if k < 64 ∧ s.rdB (Fld.CE_SESS_VALID k) = true ∧ s.rdB (Fld.CE_SESS_HALF_OPEN k) = true ∧ h.seq = 1#32 then
    let s := accepted h s
    match verdict h k true ⟨true, h.argLen == 0, true, .ok⟩ s with
    | .ok => sessionProved h k s
    | st => refuse h 2 k st s
  else command h 2 true (fun _ _ => ⟨false, true, true, .ok⟩) (fun _ s => s) s

/-- SESSION_PROVE (R613). -/
def execSessionProve (h : Hdr) (s : State) : Host.Outcome State Fault Refusal := run (sessionProve h) s

/-- UNAUTHENTIC_FRAME (R607, R613): a frame whose MAC does not verify. A wrong SESSION_PROVE frees its half-open index. -/
def unauthenticFrame (k transport : Nat) (prove : Bool) (s : State) : State :=
  if s.rdB Fld.CE_STATUS_FRONT_ONLY = true ∨ s.mainOn = false ∨ s.otp.lifecycle = 3 ∨ (s.img.phase = .noImage ∧ transport ≠ 2) then s
  else if prove = true ∧ k < 64 ∧ s.rdB (Fld.CE_SESS_VALID k) = true ∧ s.rdB (Fld.CE_SESS_HALF_OPEN k) = true then
    let s := (s.inc Fld.CE_COUNT_REJECTED).wr Fld.CE_EVENTS_AUTH_FAIL_EV 1
    freeSession k (s.logEv 0x05 0x0003 (k + transport * 4096))
  else rejectFrame k transport s

/-- UNAUTHENTIC_FRAME (R607, R613). -/
def execUnauthenticFrame (session : BitVec 8) (transport : Fin 5) (prove : Bool) (s : State) : Host.Outcome State Fault Refusal :=
  run (unauthenticFrame session.toNat transport.val prove) s

/-- SESSION_CLOSE (R616): the response goes out before the session closes. -/
def execSessionClose (h : Hdr) (s : State) : Host.Outcome State Fault Refusal :=
  run (command h 3 true (fun _ _ => ⟨true, h.argLen == 0, true, .ok⟩) (fun k s => closeSession k 1 (finish h 3 k .ok [] s))) s

/-- NOP (R618): it renews the idle time of its session. -/
def execNop (h : Hdr) (s : State) : Host.Outcome State Fault Refusal :=
  run (command h 4 true (fun _ _ => ⟨true, h.argLen == 0, true, .ok⟩) (fun k s => finish h 4 k .ok [] s)) s

/-! ### The safety password (R526, R617) -/

/-- A wrong presentation is counted and logged; the fifth in a row and every later one blocks all of them for 60 s (R526). -/
def passwordWrong (k : Nat) (s : State) : State :=
  let n := s.safe.pwWrong + 1
  let s := { s with safe := { s.safe with pwWrong := n } }.logEv 0x1A 0x000A k
  if 5 ≤ n then { s with safe := { s.safe with pwBlocked := true, pwLeft := 3000000 } }.logEv 0x1A 0x000B 0 else s

/-- A presentation is judged (R526, R617): PROOF is the HMAC of SNONCE under the stored hash. -/
def present (h : Hdr) (k : Nat) (proof : BitVec 256) (s : State) : State :=
  if Config.hmac256 s.otp.spw (s.sess k).snonce = proof then
    let s := { s with safe := { s.safe with pwWrong := 0 } }
    finish h 5 k .ok [] (s.wr (Fld.CE_SESS_PW_OK k) 1)
  else finish h 5 k .denied [] (passwordWrong k s)

/-- PASSWORD_PRESENT (R617). -/
def execPasswordPresent (h : Hdr) (proof : BitVec 256) (s : State) : Host.Outcome State Fault Refusal :=
  run (command h 5 false
    (fun k s => ⟨roleIn [2] k s, h.argLen == 32, true, if s.safe.pwBlocked then .busy else .ok⟩)
    (fun k s => present h k proof s)) s

/-! ### Register access by command (R617, R618, R619, R622) -/

/-- Port `l` is an access port of plot `p`. -/
def ownPort (s : State) (p l : Nat) : Bool := s.rd (Fld.PQ_PORT_MAP_ROLE l) == 1 && s.rd (Fld.PQ_PORT_MAP_PLOT l) == p

/-- A TENANT of plot `p` may read the word at an address (R617): PQ_PLOT and PQ_POL of its plot, PQ_PORT and the counters of its ports, not
their snapshots (DESIGN CHOICE, assumption 128). -/
def tenantWord (s : State) (p a : Nat) : Bool :=
  decide (a % 4 = 0) && (descOf a).isSome &&
    (if 0x500000 ≤ a ∧ a < 0x502000 then (a - 0x500000) / 0x40 == p
     else if 0x502000 ≤ a ∧ a < 0x504000 then (a - 0x502000) / 0x40 == p
     else if 0x504000 ≤ a ∧ a < 0x505000 then ownPort s p ((a - 0x504000) / 0x10)
     else if 0x700000 ≤ a ∧ a < 0x702000 then ownPort s p ((a - 0x700000) / 0x40)
     else if 0x702000 ≤ a ∧ a < 0x703000 then ownPort s p ((a - 0x702000) / 0x20)
     else false)

/-- The addresses of `n` consecutive words. -/
def wordAddrs (a n : Nat) : List Nat := (List.range n).map (fun i => a + 4 * i)

/-- A range that the role of the session may read: a TENANT's is judged whole (R617). -/
def rangeRole (s : State) (k a n : Nat) : Bool :=
  decide (sessRole s k ≠ 4) || (wordAddrs a n).all (tenantWord s (s.rd (Fld.CE_SESS_PLOT k)))

/-- Words read in ascending order to the first that is refused (R619): the words and the status. -/
def readWords (i : Initiator) : List Nat → List Word → State → List Word × Status × State
  | [], l, s => (l, .ok, s)
  | a :: t, l, s =>
    let s := if a % 4 = 0 then readWord i a s else widthRefused a s
    if s.bus.status = .ok then readWords i t (l ++ [s.bus.value]) s else (l, s.bus.status, s)

/-- The data of a REG_READ response (R698). -/
def readData (l : List Word) : List Byte := leBytes 4 l.length ++ l.flatMap (fun w => leBytes 4 w.toNat)

/-- A REG_READ of session `k` (R619). -/
def regRead (h : Hdr) (k a n : Nat) (s : State) : State :=
  let r := readWords (sessInit k) (wordAddrs a n) [] s
  finish h 0x10 k r.2.1 (readData r.1) r.2.2

/-- A REG_READ of lifecycle RETIRED (R622): only within the identity block; every other frame is discarded. -/
def regReadRetired (h : Hdr) (a n : Nat) (s : State) : State :=
  if h.argLen = 6 ∧ 1 ≤ n ∧ n ≤ 64 ∧ a + 4 * n ≤ 0x10000 then
    let r := readWords .fw (wordAddrs a n) [] s
    respondOpen 2 0x10 h.tag.toNat r.2.1.code true false (readData r.1) r.2.2
  else s

/-- REG_READ (R619, R622). -/
def execRegRead (h : Hdr) (a : Word) (count : BitVec 16) (s : State) : Host.Outcome State Fault Refusal :=
  run (fun s => if servesRetired h s then regReadRetired h a.toNat count.toNat s
    else command h 0x10 true
      (fun k s => ⟨roleIn [1, 2, 3, 4] k s && rangeRole s k a.toNat count.toNat, h.argLen == 6 && decide (1 ≤ count.toNat ∧ count.toNat ≤ 64),
        decide (s.img.phase ≠ .noImage) || decide (a.toNat + 4 * count.toNat ≤ 0x50000), .ok⟩)
      (fun k s => regRead h k a.toNat count.toNat s) s) s

/-- Words written in ascending order to the first that is refused (R619): how many, and the status. -/
def writeWords (i : Initiator) : List (Nat × Word) → Nat → State → Nat × Status × State
  | [], n, s => (n, .ok, s)
  | (a, v) :: t, n, s =>
    let s := if a % 4 = 0 then writeWord i a v (s.answerSt .ok) else widthRefused a s
    if s.bus.status = .ok then writeWords i t (n + 1) s else (n, s.bus.status, s)

/-- A REG_WRITE of session `k` (R619, R698). -/
def regWrite (h : Hdr) (k a : Nat) (l : List Word) (s : State) : State :=
  let r := writeWords (sessInit k) ((wordAddrs a l.length).zip l) 0 s
  finish h 0x11 k r.2.1 (leBytes 4 r.1) r.2.2

/-- REG_WRITE (R619). -/
def execRegWrite (h : Hdr) (a : Word) (count : BitVec 16) (words : List Word) (s : State) : Host.Outcome State Fault Refusal :=
  run (command h 0x11 false
    (fun k s => ⟨roleIn [1, 2, 3] k s, decide (1 ≤ count.toNat ∧ count.toNat ≤ 64 ∧ words.length = count.toNat ∧ h.argLen = 6 + 4 * count.toNat), true, .ok⟩)
    (fun k s => regWrite h k a.toNat words s)) s

end Sys2Proof.Machine
end

