-- ==== Sys2Proof/Machine/LongOp.lean ====
section
/-!
DEFINITION. Machine/LongOp.lean: long operations as they run (R177, R178, R621 to R627): staging and flash writes fed by DATA, log dumps,
the full self-test, and the commands on operations.
-/
namespace Sys2Proof.Machine

/-! ### Image slots that are written (R177, R178, R621, R625) -/

/-- The slot that is not ACTIVE (R177): A where neither is. -/
def stageSlot (s : State) : Nat := if (liveRec s).slotA = SlotState.active then 1 else 0

/-- The content of a slot is replaced. -/
def setSlotBytes (k : Nat) (l : List Byte) (s : State) : State :=
  { s with flash := if k = 0 then { s.flash with slotA := l } else { s.flash with slotB := l } }

/-- The staged image is gone with its slot: nothing is preloaded, and a consent lapses (R178, R620). -/
def stagedLost (s : State) : State :=
  let s := { s with img := { s.img with consent := none } }
  if (slotWith (liveRec s) .staged).isSome then s
  else { s with img := { s.img with shadow := [] } }.wr Fld.IMG_STATUS_PRELOADED 0

/-- Slot `k` takes a state in the boot record. -/
def slotTo (k : Nat) (x : SlotState) (s : State) : State := stagedLost (saveRec ((liveRec s).setSlot k x) s)

/-- Slot `k` is marked WRITING in the boot record before it is erased (R177). -/
def slotBegin (k : Nat) (s : State) : State := setSlotBytes k [] (slotTo k .writing s)

/-- A slot whose writing has failed or was cancelled is EMPTY (R177, R621, R625). -/
def slotDrop (k : Nat) (s : State) : State := slotTo k .empty (setSlotBytes k [] s)

/-- The operation writes an image: IMAGE_STAGE or FLASH_WRITE. -/
def feeds (o : LongOp) : Bool := o.opcode == 0x20 || o.opcode == 0x25

/-- The bytes of an operation's header: 4,096, or all of a shorter image. -/
def headerLen (o : LongOp) : Nat := Nat.min 4096 o.length

/-- The operation has begun to write its slot: FLASH_WRITE at its first DATA, IMAGE_STAGE once its header is complete (R178, R625). -/
def begun (o : LongOp) : Bool := if o.opcode = 0x20 then decide (0 < o.next ∧ headerLen o ≤ o.next) else decide (0 < o.next)

/-- NEXT_OFS is `n`, and the progress with it (R640). -/
def opAdvance (j n : Nat) (o : LongOp) (s : State) : State :=
  (s.setOp j { o with next := n, idle := 0 }).wr (Fld.CE_OP2_PROGRESS j) (if o.length = 0 then 0 else n * 100 / o.length)

/-- Bytes go into slot `k` of the flash after the `n` that it holds (R625, R635). -/
def slotProgram (k n : Nat) (l : List Byte) (s : State) : State :=
  norSend (norProgram (norFuel l.length) (slotBase k + n) l.length) (setSlotBytes k (s.flash.slot k ++ l) s)

/-- Bytes are programmed at the end of what the slot of an operation holds (R177, R625). -/
def program (j : Nat) (o : LongOp) (l : List Byte) (s : State) : State := opAdvance j (o.next + l.length) o (slotProgram o.slot o.next l s)

/-- The header that DATA completes is judged (R178): no activation pending, and EPOCH above ACT_EPOCH; then the slot that is not ACTIVE is
begun. A failure leaves the slot as it is, and ends the operation. -/
def stageHeader (j : Nat) (o : LongOp) (l : List Byte) (s : State) : Status × State :=
  let all := o.buf ++ l
  if (liveRec s).pending.isSome = true ∨ imgEpoch all ≤ s.rd Fld.ACT_EPOCH then
    (.stateConflict, opEnd j 5 2 [] s)
  else
    let k := stageSlot s
    let s := slotBegin k s
    (.ok, opAdvance j (o.next + l.length) { o with slot := k, buf := [] } (slotProgram k 0 all s))

/-- A slot that FLASH_WRITE may write (R621): it is not ACTIVE, and no activation is pending. What has changed since the command was accepted is
judged again when the slot is begun (DEDUCED, assumption 112). -/
def slotFree (k : Nat) (s : State) : Bool := decide ((liveRec s).slot k ≠ SlotState.active) && (liveRec s).pending.isNone

/-- DATA that an operation takes (R625). -/
def feed (j : Nat) (o : LongOp) (l : List Byte) (s : State) : Status × State :=
  if begun o then (.ok, program j o l s)
  else if o.opcode = 0x25 then
    if l.isEmpty then (.ok, s)
    else if slotFree o.slot s then (.ok, program j o l (slotBegin o.slot s))
    else (.stateConflict, opEnd j 5 2 [] s)
  else if headerLen o ≤ o.next + l.length then stageHeader j o l s
  else (.ok, opAdvance j (o.next + l.length) { o with buf := o.buf ++ l } s)

/-- The checks of DATA (R610, R618, R625): the holder of the operation; its tag, OFFSET and length; RUNNING; the buffer of 64 KiB. -/
def dataFind (h : Hdr) (target ofs len : Nat) (bufFull : Bool) (k : Nat) (s : State) : Finding :=
  let j := opOfTag s target
  let o := match j with | some j => s.op j | none => none
  match j, o with
  | some j, some o =>
    { role := o.session == k
      args := feeds o && h.argLen == 6 + len && (!opLive s j || decide (ofs = o.next ∧ ofs + len ≤ o.length))
      state := s.rd (Fld.CE_OP_STATE j) == 1
      res := if bufFull then .busy else .ok }
  | _, _ => ⟨true, false, true, .ok⟩

/-- DATA is taken (R625): the response returns NEXT_OFS; a header that fails the epoch check answers STATE_CONFLICT. -/
def dataTake (h : Hdr) (target : Nat) (l : List Byte) (k : Nat) (s : State) : State :=
  match opOfTag s target with
  | none => s
  | some j => match s.op j with
    | none => s
    | some o =>
      let r := feed j o l s
      match r.1 with
      | .ok => finish h 0x21 k .ok (leBytes 4 (o.next + l.length)) r.2
      | st => refuse h 0x21 k st r.2

/-- DATA (R625): `bufFull` says that the 64 KiB of the engine's buffer still wait to be programmed. -/
def execData (h : Hdr) (target : BitVec 12) (ofs : Word) (l : List Byte) (bufFull : Bool) (s : State) : Host.Outcome State Fault Refusal :=
  run (command h 0x21 true (dataFind h target.toNat ofs.toNat l.length bufFull) (dataTake h target.toNat l)) s

/-- The slot that has verified takes its place (R177, R621): STAGED and preloaded; by FLASH_WRITE, and in the no-image state, ACTIVE from
the next boot, and the slot that was ACTIVE becomes PREVIOUS. -/
def slotGood (o : LongOp) (s : State) : State :=
  if o.opcode = 0x20 ∧ s.img.phase ≠ .noImage then
    let s := slotTo o.slot .staged s
    { s with img := { s.img with shadow := s.flash.slot o.slot } }.wr Fld.IMG_STATUS_PRELOADED 1
  else
    let r := (liveRec s).setSlot o.slot .active
    let r := if r.slot (1 - o.slot) = SlotState.active then r.setSlot (1 - o.slot) .previous else r
    stagedLost (saveRec r s)

/-- The written slot is verified, and its operation ends (R176, R177, R621). -/
def slotVerify (j : Nat) (o : LongOp) (s : State) : State :=
  match verifyImage s.otp (s.flash.slot o.slot) with
  | .ok => opEnd j 3 0 [] (slotGood o s)
  | st =>
    let s := slotDrop o.slot s
    let s := when (o.opcode == 0x20) (fun s => s.logEv 0x04 0x0004 st.code) s
    opEnd j 5 st.code [] s

/-- An image of no bytes has begun no slot when its writing is complete: its slot is begun then (R177), a staging's only with no activation pending
(R178). -/
def emptyComplete (j : Nat) (o : LongOp) (s : State) : State :=
  if (if o.opcode = 0x20 then (liveRec s).pending.isNone else slotFree o.slot s) = false then opEnd j 5 2 [] s
  else
    let o := { o with slot := if o.opcode = 0x20 then stageSlot s else o.slot }
    slotVerify j o (slotBegin o.slot s)

/-- All bytes of a running operation have been programmed: its slot is verified. -/
def writeComplete (opcode j : Nat) (s : State) : State :=
  match s.op j with
  | some o =>
    if opLive s j && s.rd (Fld.CE_OP_STATE j) == 1 && o.opcode == opcode && o.next == o.length then
      if begun o then slotVerify j o s else emptyComplete j o s
    else s
  | none => s

/-- STAGE_COMPLETE (R177). -/
def execStageComplete (j : Fin 16) (s : State) : Host.Outcome State Fault Refusal := run (writeComplete 0x20 j.val) s
/-- FLASH_WRITE_COMPLETE (R621). -/
def execFlashWriteComplete (j : Fin 16) (s : State) : Host.Outcome State Fault Refusal := run (writeComplete 0x25 j.val) s

/-! ### LOG_DUMP (R142, R195, R197, R626, R698) -/

/-- Entries of the trouble log written since it was last emptied. -/
def logTotal (s : State) : Nat := s.rd Fld.LOG_OVF_OVERWRITTEN + s.log.ring.length

/-- The ages that a dump of the trouble log reads, from FROM towards the newest: how many, and the first. -/
def dumpRange (count from' n : Nat) : Nat × Nat :=
  let hi := Nat.min (from' + 1) count
  (hi - (from' + 1 - n), hi - 1)

/-- The bytes of a dump's entry that was `age` old when `pos` entries had been written; none once it is overwritten. -/
def dumpEntry (s : State) (pos age : Nat) : Option (List Byte) :=
  let i := pos - 1 - age
  if i < logTotal s then (s.log.ring[logTotal s - 1 - i]?).map logBytes else none

/-- The written change-log entries of a dump, each with the entry before it. -/
def dumpChanges (s : State) (from' n : Nat) : List (ClogEntry × Option ClogEntry) :=
  let l := s.flash.clog
  (l.zip (none :: l.map some)).filter (fun e => decide (from' ≤ e.1.seq ∧ e.1.seq < from' + n))

/-- The LINK of an entry agrees with the entry before it, or, for SEQ 1, with DEV_ID and the serial numbers (R195); an entry whose
predecessor has been erased has nothing to be compared with. -/
def linkOk (e : ClogEntry × Option ClogEntry) : Bool :=
  match e.2 with
  | some p => decide (e.1.link = clogHash p)
  | none => decide (e.1.seq ≠ 1) || decide (e.1.link = firstLink)

/-- What a dump reads: its entries' bytes, SKIPPED and BROKEN_SEQ. -/
def dumpRead (o : LongOp) (s : State) : List (List Byte) × Nat × Nat :=
  if o.log = 0 then
    let l := (List.range o.left).map (fun i => dumpEntry s o.pos (o.next - i))
    (l.filterMap id, (l.filter Option.isNone).length, 0)
  else
    let l := dumpChanges s o.pos o.left
    (l.map (fun e => clogBytes e.1), 0, ((l.find? (fun e => !linkOk e)).map (fun e => e.1.seq)).getD 0)

/-- A list in pieces of at most `n`. -/
def chunks (n : Nat) : Nat → List (List Byte) → List (List Byte)
  | 0, _ => []
  | f + 1, l => if l.isEmpty then [] else (l.take n).flatten :: chunks n f (l.drop n)

/-- Entries in one data response (R606, R698): 4,096 bytes, or 462 on a serial port. -/
def dumpChunk (o : LongOp) (s : State) : Nat :=
  let serial := if o.session < 64 then decide (2 ≤ s.rd (Fld.CE_SESS_TRANSPORT o.session)) else true
  if o.log = 0 then (if serial then 28 else 256) else (if serial then 7 else 64)

/-- The dump is read and its responses go out (R626, R698). -/
def dumpDone (j : Nat) (o : LongOp) (s : State) : State :=
  let r := dumpRead o s
  let l := chunks (dumpChunk o s) r.1.length r.1
  let s := l.foldl (fun s c => opRespond o 0 false true c s) s
  opEnd j 3 0 (leBytes 4 r.2.1 ++ leBytes 8 r.2.2) s

/-- LOG_DUMP_COMPLETE (R626). -/
def execLogDumpComplete (j : Fin 16) (s : State) : Host.Outcome State Fault Refusal :=
  run (fun s => match s.op j.val with
    | some o => if opLive s j.val && s.rd (Fld.CE_OP_STATE j.val) == 1 && o.opcode == 0x50 then dumpDone j.val o s else s
    | none => s) s

/-! ### SELF_TEST_FULL (R263 to R266, R476, R626) -/

/-- Every stage is OFF, WAIT_GRID or FAULT and every tracker OFF, WAIT or FAULT (R618). -/
def testQuiet (s : State) : Bool :=
  stages.all (fun g => let st := s.rd (Fld.GST_STATUS_STATE g); st == 0 || st == 1 || st == 8)
    && trackers.all (fun t => trkState s t == 0 || trkState s t == 1 || trkState s t == 7)

/-- The first part that an operation still has to run: 0 = checker, 1 = known-level, 2 = swap. -/
def nextPart (o : LongOp) : Nat := if o.parts % 2 = 1 then 0 else if o.parts / 2 % 2 = 1 then 1 else 2

/-- Part `p` of an operation ends. -/
def partEnd (p : Nat) (pass : Bool) (o : LongOp) : LongOp :=
  { o with parts := setBitOf o.parts p false, pass := setBitOf o.pass p pass, pos := 0 }

/-- An operation goes on at the end of a part (R626): a suspend (1) or a cancel (2) that waited takes effect; the next part starts as soon as
no other test of its kind runs; after the last part the operation is DONE. A window part with no window enabled passes at once. -/
def partNext (j : Nat) : Nat → State → State
  | 0, s => s
  | f + 1, s => match s.op j with
    | none => s
    | some o =>
      if o.left = 2 then opEnd j 4 7 [] s
      else if o.left = 1 then opSuspend j (s.setOp j { o with left := 0 })
      else if o.parts % 8 = 0 then opEnd j 3 0 (leBytes 4 o.pass) s
      else if nextPart o = 0 then
        if s.rdB Fld.LS_TEST_BUSY then s else (s.setOp j { o with pos := 1 }).wr Fld.LS_TEST_BUSY 1
      else if s.win.check.isSome then s
      else if (enabledWindows s).isEmpty then partNext j f (s.setOp j (partEnd (nextPart o) true o))
      else startChecks (enabledWindows s) (nextPart o) false (s.setOp j { o with pos := 1 })

/-- A test of one kind has ended (R626): it was a part of the running SELF_TEST_FULL, or one waits for it. -/
def partDone (window pass : Bool) (s : State) : State :=
  match (opsWith s 0x51).find? (fun j => s.rd (Fld.CE_OP_STATE j) == 1) with
  | none => s
  | some j => match s.op j with
    | none => s
    | some o =>
      if o.pos = 1 ∧ (nextPart o ≠ 0) = window then partNext j 4 (s.setOp j (partEnd (nextPart o) pass o))
      else if o.pos = 0 then partNext j 4 s else s

/-- LS_TEST_DONE (R476, R626): the checker's self-test that runs ends; `failA` and `failB` are the comparator sets that did not flag. -/
def execLsTestDone (failA failB : Bool) (s : State) : Host.Outcome State Fault Refusal :=
  run (fun s => if s.rdB Fld.LS_TEST_BUSY then
      let s := lsTestDone failA failB s
      partDone false (s.rdB Fld.LS_STATUS_TEST_OK) s
    else s) s

/-- WIN_CHK_DONE (R263 to R266, R626): the check of the window under check ends. -/
def execWinChkDone (m : WinSample) (s : State) : Host.Outcome State Fault Refusal :=
  run (fun s =>
    let s := winChkDone m s
    if s.win.check.isSome then s
    else partDone true ((enabledWindows s).all (fun n => !s.bit Fld.WIN_CHK_FAIL n)) s) s

/-! ### Running, suspending, ending (R623 to R627) -/

/-- A running operation, or a suspended one that has begun its slot, holds its resource. -/
def holds (s : State) (j : Nat) : Bool :=
  s.rd (Fld.CE_OP_STATE j) == 1 ||
    (s.rd (Fld.CE_OP_STATE j) == 2 && (match s.op j with | some o => feeds o && begun o | none => false))

/-- The execution resource of an operation is free (R172, R626). -/
def resourceFree (j : Nat) (o : LongOp) (s : State) : Bool :=
  let others := fun l => (l : List Nat).filter (fun i => i != j && holds s i)
  if s.img.phase = .noImage then (others (opKeys.filter (opLive s))).isEmpty
  else if feeds o then (others (dataFed s)).isEmpty
  else if o.opcode = 0x51 then (others (opsWith s 0x51)).isEmpty
  else if o.opcode = 0x50 then decide ((others (opsWith s 0x50)).length < 4)
  else true

/-- The part can run queued operations: it is in Run, or in the no-image state (R172, R623). -/
def opsMayRun (s : State) : Bool := s.img.phase == .noImage || s.rd Fld.PWR_STATE_STATE == 0

/-- Operation `j` becomes RUNNING. A staging that finds an activation pending ends FAILED (R178). -/
def opBegin (j : Nat) (o : LongOp) (s : State) : State :=
  let s := (s.setOp j { o with idle := 0 }).wr (Fld.CE_OP_STATE j) 1
  if o.opcode = 0x20 ∧ begun o = false ∧ (liveRec s).pending.isSome = true then opEnd j 5 2 [] s
  else if o.opcode = 0x51 then partNext j 4 s else s

/-- OP_RUN (R623, R626). -/
def execOpRun (j : Fin 16) (s : State) : Host.Outcome State Fault Refusal :=
  run (fun s => match s.op j.val with
    | some o => if opLive s j.val && s.rd (Fld.CE_OP_STATE j.val) == 0 && opsMayRun s && resourceFree j.val o s then opBegin j.val o s else s
    | none => s) s

/-- Operation `j` is cancelled (R182, R623, R625): a pending record is erased, a begun slot is left EMPTY; a self-test ends with its part. -/
def opCancel (j : Nat) (s : State) : State :=
  match s.op j with
  | none => s
  | some o =>
    if o.opcode = 0x22 ∨ o.opcode = 0x24 then opEnd j 4 7 [] (pendingErase s)
    else if o.opcode = 0x51 ∧ o.pos = 1 ∧ s.rd (Fld.CE_OP_STATE j) = 1 then s.setOp j { o with left := 2 }
    else opEnd j 4 7 [] (if feeds o && begun o then slotDrop o.slot s else s)

/-- Operation `j` is suspended by command (R623, R626): a self-test at the end of its part. -/
def opHold (j : Nat) (s : State) : State :=
  match s.op j with
  | none => s
  | some o => if o.opcode = 0x51 ∧ o.pos = 1 ∧ s.rd (Fld.CE_OP_STATE j) = 1 then s.setOp j { o with left := 1 } else opSuspend j s

/-- A suspended operation is resumed (R623, R625): it runs if its resource is free, else it is queued; the session that resumes a data-fed
one feeds it. -/
def opResume (j k : Nat) (s : State) : State :=
  match s.op j with
  | none => s
  | some o =>
    let o := { o with session := if feeds o then k else o.session, idle := 0 }
    let s := (s.setOp j o).wr (Fld.CE_OP2_SESSION j) o.session
    if opsMayRun s && resourceFree j o s then opBegin j o s
    else runNeeded (s.wr (Fld.CE_OP_STATE j) 0)

/-- The operation that a tag names. -/
def opNamed (s : State) (tag : Nat) : Option (Nat × LongOp) :=
  match opOfTag s tag with
  | some j => (s.op j).map (fun o => (j, o))
  | none => none

/-- The checks of an OP_* command (R610, R618, R624): the role of the operation or SERVICE; a known tag; the state of the operation. -/
def opFind (h : Hdr) (tag k : Nat) (ok : Nat → LongOp → State → Bool) (s : State) : Finding :=
  match opNamed s tag with
  | some (j, o) => ⟨sessRole s k == o.role || sessRole s k == 3, h.argLen == 2, ok j o s, .ok⟩
  | none => ⟨roleIn [1, 2, 3] k s, false, true, .ok⟩

/-- OP_STATUS, or another command on an operation: `f` acts on the operation that the tag names. -/
def opCommand (h : Hdr) (opcode tag : Nat) (ok : Nat → LongOp → State → Bool) (f : Nat → Nat → LongOp → State → State) (s : State) : State :=
  command h opcode true (fun k s => opFind h tag k ok s)
    (fun k s => match opNamed s tag with | some (j, o) => f k j o s | none => s) s

/-- The operation is an activation or a re-pitch. -/
def isAct (o : LongOp) : Bool := o.opcode == 0x22 || o.opcode == 0x24

/-- The pending record of an activation has not come to the tick cycle of its frame (R182). -/
def actAhead (s : State) : Bool :=
  match (liveRec s).pending with
  | some p => s.img.unresolved || fnLater p.target s.fn
  | none => false

/-- OP_STATUS (R623, R698): state, final status and progress, of a final operation too. -/
def execOpStatus (h : Hdr) (tag : BitVec 16) (s : State) : Host.Outcome State Fault Refusal :=
  run (opCommand h 0x60 tag.toNat (fun _ _ _ => true) (fun k j _ s =>
    finish h 0x60 k .ok (leBytes 1 (s.rd (Fld.CE_OP_STATE j)) ++ leBytes 1 (s.rd (Fld.CE_OP_STATUS j)) ++
      leBytes 1 (s.rd (Fld.CE_OP2_PROGRESS j)) ++ [0#8]) s)) s

/-- OP_SUSPEND (R182, R623). -/
def execOpSuspend (h : Hdr) (tag : BitVec 16) (s : State) : Host.Outcome State Fault Refusal :=
  run (opCommand h 0x61 tag.toNat (fun j o s => decide (s.rd (Fld.CE_OP_STATE j) < 2) && !isAct o)
    (fun k j _ s => finish h 0x61 k .ok [] (opHold j s))) s

/-- OP_RESUME (R623, R625): the response of a data-fed operation returns NEXT_OFS. -/
def execOpResume (h : Hdr) (tag : BitVec 16) (s : State) : Host.Outcome State Fault Refusal :=
  run (opCommand h 0x62 tag.toNat (fun j _ s => s.rd (Fld.CE_OP_STATE j) == 2)
    (fun k j o s => opResume j k (finish h 0x62 k .ok (if feeds o then leBytes 4 o.next else []) s))) s

/-- OP_CANCEL (R182, R623). -/
def execOpCancel (h : Hdr) (tag : BitVec 16) (s : State) : Host.Outcome State Fault Refusal :=
  run (opCommand h 0x63 tag.toNat (fun j o s => decide (s.rd (Fld.CE_OP_STATE j) < 3) && (!isAct o || actAhead s))
    (fun k j _ s => opCancel j (finish h 0x63 k .ok [] s))) s

/-- DATA_TIMEOUT (R625): 60 s without DATA. -/
def execDataTimeout (j : Fin 16) (s : State) : Host.Outcome State Fault Refusal :=
  run (fun s => match s.op j.val with
    | some o => if opLive s j.val && s.rd (Fld.CE_OP_STATE j.val) == 1 && feeds o && decide (60 * framesPerSecond ≤ o.idle) then
        opSuspend j.val s else s
    | none => s) s

/-- SUSPEND_TIMEOUT (R623): 3,600 s suspended. -/
def execSuspendTimeout (j : Fin 16) (s : State) : Host.Outcome State Fault Refusal :=
  run (fun s => match s.op j.val with
    | some o => if opLive s j.val && s.rd (Fld.CE_OP_STATE j.val) == 2 && decide (3600 * framesPerSecond ≤ o.held) then opCancel j.val s else s
    | none => s) s

/-! ### Long commands taken up (R608, R623, R624) -/

/-- A long command finds a free entry of the table, or NO_RESOURCE (R624). -/
def longRes (s : State) : Status := if (opFree s).isSome then .ok else .noResource

/-- A long command is accepted: its entry, and the first response (R608, R623). In Idle it brings about Run (R75, R626). -/
def longStart (h : Hdr) (k state : Nat) (o : LongOp) (s : State) : State :=
  match opFree s with
  | none => s
  | some j => longAck h o.opcode k (opPlace j state o s)

/-- IMAGE_STAGE (R177, R178, R625). -/
def execImageStage (h : Hdr) (len : Word) (s : State) : Host.Outcome State Fault Refusal :=
  run (command h 0x20 true
    (fun k s => ⟨roleIn [1, 3] k s, h.argLen == 4 && decide (len.toNat ≤ 12582912), (liveRec s).pending.isNone, longRes s⟩)
    (fun k s => runNeeded (longStart h k 0 { newOp 0x20 h.tag.toNat k (sessRole s k) with length := len.toNat } s))) s

/-- FLASH_WRITE (R621): a slot that is not ACTIVE, nothing pending; with an image only in MANUFACTURE. -/
def execFlashWrite (h : Hdr) (slot : BitVec 8) (len : Word) (s : State) : Host.Outcome State Fault Refusal :=
  run (command h 0x25 true
    (fun k s => ⟨roleIn [1, 3] k s, h.argLen == 5 && decide (slot.toNat ≤ 1 ∧ len.toNat ≤ 12582912),
      slotFree slot.toNat s && (s.img.phase == .noImage || s.otp.lifecycle == 0),
      longRes s⟩)
    (fun k s => runNeeded (longStart h k 0 { newOp 0x25 h.tag.toNat k (sessRole s k) with slot := slot.toNat, length := len.toNat } s))) s

/-- The operation of a LOG_DUMP: of the trouble log by age, of the change log by SEQ (R626). -/
def dumpOp (h : Hdr) (k role log from' n : Nat) (s : State) : LongOp :=
  let o := newOp 0x50 h.tag.toNat k role
  if log = 0 then
    let r := dumpRange s.log.ring.length from' n
    { o with log := 0, pos := logTotal s, left := r.1, next := r.2 }
  else { o with log := 1, pos := from', left := n }

/-- A LOG_DUMP of lifecycle RETIRED (R622): LOG = 1 over CSP1, without a session; every other frame is discarded. -/
def dumpRetired (h : Hdr) (log from' n : Nat) (s : State) : State :=
  if log = 1 ∧ h.argLen = 13 then
    match opFree s with
    | some j => respondOpen 2 0x50 h.tag.toNat 0 false false [] (opPlace j 0 (dumpOp h 0xFF 0 1 from' n s) s)
    | none => respondOpen 2 0x50 h.tag.toNat 5 true false [] s
  else s

/-- LOG_DUMP (R622, R626). -/
def execLogDump (h : Hdr) (log : BitVec 8) (from' : BitVec 64) (count : Word) (s : State) : Host.Outcome State Fault Refusal :=
  run (fun s => if servesRetired h s then dumpRetired h log.toNat from'.toNat count.toNat s
    else command h 0x50 true
      (fun k s => ⟨roleIn [1, 2, 3] k s, h.argLen == 13 && decide (log.toNat ≤ 1), true, longRes s⟩)
      (fun k s => runNeeded (longStart h k 0 (dumpOp h k (sessRole s k) log.toNat from'.toNat count.toNat s) s)) s) s

/-- SELF_TEST_FULL (R618, R626): PARTS has three bits. -/
def execSelfTestFull (h : Hdr) (parts : BitVec 8) (s : State) : Host.Outcome State Fault Refusal :=
  run (command h 0x51 false
    (fun k s => ⟨roleIn [1, 2, 3] k s, h.argLen == 1 && decide (parts.toNat ≤ 7), testQuiet s, longRes s⟩)
    (fun k s => runNeeded (longStart h k 0 { newOp 0x51 h.tag.toNat k (sessRole s k) with parts := parts.toNat } s))) s

end Sys2Proof.Machine
end

