-- ==== Sys2Proof/Machine/Command.lean ====
section
/-!
DEFINITION. Machine/Command.lean: the commands on images, counted settings, keys, credentials and resets (R180, R188, R191 to R193, R553,
R615, R618, R620, R656).
-/
namespace Sys2Proof.Machine

/-! ### Activation and re-pitch (R180 to R182, R188, R620) -/

/-- The digest that STG_DIGEST shows. -/
def stagedDigest (s : State) : BitVec 128 :=
  digestOfWords (s.rd (Fld.STG_DIGEST 0)) (s.rd (Fld.STG_DIGEST 1)) (s.rd (Fld.STG_DIGEST 2)) (s.rd (Fld.STG_DIGEST 3))

/-- The staged image, if a slot is STAGED. -/
def stagedImage (s : State) : Option (List Byte) := (slotWith (liveRec s) .staged).map s.flash.slot

/-- A consent is needed and none is held for the staged digest (R620): the SAFETY or SUPERVISION section differs from the active one. -/
def consentMissing (s : State) : Bool :=
  match stagedImage s with
  | some m => anyChanged [0x0E, 0x0F] s.img.active m && decide (s.img.consent ≠ some (stagedDigest s))
  | none => false

/-- A target frame lies 50 to 2^47 − 1 frames ahead (R16, R180). -/
def targetOk (n : Nat) (s : State) : Bool := decide (50 ≤ fnDiff n s.fn ∧ fnDiff n s.fn ≤ 2 ^ 47 - 1)

/-- A slot is STAGED and preloaded, its digest is the one named, and nothing is pending (R180). -/
def actReady (digest : BitVec 128) (s : State) : Bool :=
  (slotWith (liveRec s) .staged).isSome && s.rdB Fld.IMG_STATUS_PRELOADED && decide (digest = stagedDigest s) && (liveRec s).pending.isNone

/-- The checks of an activation or a re-pitch (R180, R610, R620): the range of N is judged before the consent, and the consent before the
state (DEDUCED, assumption 42). -/
def actVerdict (h : Hdr) (k : Nat) (args : Bool) (digest : BitVec 128) (more : Bool) (s : State) : Status :=
  match verdict h k false ⟨roleIn [1] k s, args, true, .ok⟩ s with
  | .stateConflict => .stateConflict
  | .denied => .denied
  | .badArg => .badArg
  | st =>
    if consentMissing s then .denied
    else if actReady digest s = false ∨ more = false then .stateConflict
    else if st = .ok then longRes s else st

/-- An accepted activation or re-pitch (R180, R188): its pending record is written and its operation runs. -/
def actAccept (h : Hdr) (opcode k n : Nat) (isLocal : Bool) (plot : Option Nat) (s : State) : State :=
  match slotWith (liveRec s) .staged with
  | none => s
  | some j =>
    let p : PendingAct := { slot := j, target := n, isLocal := isLocal, plot := plot }
    let s := saveRec { liveRec s with pending := some p, commit := false } s
    longStart h k 1 (newOp opcode h.tag.toNat k (sessRole s k)) s

/-- An activation or a re-pitch by command. -/
def actCommand (h : Hdr) (opcode n : Nat) (args : State → Bool) (digest : BitVec 128) (more : State → Bool) (isLocal : Bool)
    (plot : Option Nat) (s : State) : State :=
  withSession h (fun k s => match actVerdict h k (args s) digest (more s) s with
    | .ok => actAccept h opcode k n isLocal plot (bucketTake k s)
    | st => refuse h opcode k st s) s

/-- IMAGE_ACTIVATE_AT (R180, R620). -/
def execImageActivateAt (h : Hdr) (n : BitVec 48) (digest : BitVec 128) (isLocal : BitVec 8) (s : State) : Host.Outcome State Fault Refusal :=
  run (actCommand h 0x22 n.toNat (fun s => h.argLen == 23 && decide (isLocal.toNat ≤ 1) && targetOk n.toNat s) digest (fun _ => true)
    (isLocal == 1#8) none) s

/-- The header but for EPOCH, DIGEST and SIG (R188). -/
def headerRest (m : List Byte) : List Byte := bytesAt m 0 0x10 ++ bytesAt m 0x14 0xC ++ bytesAt m 0x30 0xF70

/-- The staged image differs from the active one only in the section of plot `p` and in EPOCH, DIGEST and SIG (R188). -/
def repitchOnly (p : Nat) (s : State) : Bool :=
  match stagedImage s with
  | some m =>
    let ids := (secTable m ++ secTable s.img.active).map SecEntry.id
    decide (headerRest m = headerRest s.img.active) && (ids.filter (· ≠ 0x20 + p)).all (fun id => !secChanged s.img.active m id)
  | none => false

/-- PLOT_REPITCH (R188). -/
def execPlotRepitch (h : Hdr) (p : BitVec 8) (n : BitVec 48) (digest : BitVec 128) (s : State) : Host.Outcome State Fault Refusal :=
  run (actCommand h 0x24 n.toNat (fun s => h.argLen == 23 && decide (p.toNat ≤ 63) && targetOk n.toNat s) digest (repitchOnly p.toNat)
    false (some p.toNat)) s

/-- SAFETY_CONSENT (R620). -/
def execSafetyConsent (h : Hdr) (digest : BitVec 128) (s : State) : Host.Outcome State Fault Refusal :=
  run (command h 0x23 false
    (fun k s => ⟨safetyOk k s, h.argLen == 16, (slotWith (liveRec s) .staged).isSome && decide (digest = stagedDigest s), .ok⟩)
    (fun k s => finish h 0x23 k .ok [] { s with img := { s.img with consent := some digest } })) s

/-! ### Bank swaps (R302) -/

/-- A BANK_SWAP arms as LE_BANK_CTRL does; what that refuses, the command refuses. -/
def bankSwap (h : Hdr) (k mode f : Nat) (s : State) : State :=
  let i := sessInit k
  let s := writeAdmitted i Reg.LE_BANK_CTRL (if mode = 0 then armSwap i f else armNext i) s
  match s.bus.status with
  | .ok => finish h 0x26 k .ok [] s
  | st => refuse h 0x26 k st s

/-- BANK_SWAP (R302). -/
def execBankSwap (h : Hdr) (mode : BitVec 8) (f : BitVec 48) (s : State) : Host.Outcome State Fault Refusal :=
  run (command h 0x26 false
    (fun k s => ⟨roleIn [1, 3] k s, h.argLen == 7 && decide (mode.toNat ≤ 1), true, .ok⟩)
    (fun k s => bankSwap h k mode.toNat f.toNat s)) s

/-! ### Counted settings (R9, R191, R192, R656) -/

/-- The resources of a change of a counted setting (R9, R191, R196): a count left, no other programming, a place in the change queue. -/
def otpRes (remain : Nat) (s : State) : Status :=
  if remain = 0 then .noResource else if s.otp.programming.isSome = true ∨ s.clogFull = true then .busy else .ok

/-- The programming of a counted setting begins; its count has been consumed (R191). The command is answered when it ends. -/
def otpStart (h : Hdr) (k offset value : Nat) (hash : BitVec 256) (opcode : Nat) (s : State) : State :=
  let j : OtpJob := { offset := offset, value := value, hash := hash, session := k, role := sessRole s k, opcode := opcode, tag := h.tag.toNat }
  showOps (otpShow { s with otp := { s.otp with programming := some j } })

/-- The number that a counted setting holds, and its count. -/
def settingNow (s : State) (offset : Nat) : Nat × Nat :=
  if offset = 0x100 then (s.otp.gridCode, s.otp.gridRemain) else (s.otp.role, s.otp.roleRemain)

/-- One count of CS_GRID or CS_ROLE is consumed. -/
def settingSpend (offset : Nat) (s : State) : State :=
  if offset = 0x100 then { s with otp := { s.otp with gridRemain := s.otp.gridRemain - 1 } }
  else { s with otp := { s.otp with roleRemain := s.otp.roleRemain - 1 } }

/-- SETTING_WRITE (R9, R191): CS_GRID takes CODE 0 to 4, CS_ROLE 0 or 1; the value already held consumes no count. -/
def execSettingWrite (h : Hdr) (offset : BitVec 16) (value : Word) (s : State) : Host.Outcome State Fault Refusal :=
  run (command h 0x30 false
    (fun k s => ⟨roleIn [1] k s,
      h.argLen == 6 && decide ((offset.toNat = 0x100 ∧ value.toNat ≤ 4) ∨ (offset.toNat = 0x104 ∧ value.toNat ≤ 1)), true,
      if (settingNow s offset.toNat).1 = value.toNat ∧ (settingNow s offset.toNat).2 ≠ 0 then .ok else otpRes (settingNow s offset.toNat).2 s⟩)
    (fun k s => if (settingNow s offset.toNat).1 = value.toNat then finish h 0x30 k .ok [] s
      else otpStart h k offset.toNat value.toNat 0 0x30 (settingSpend offset.toNat s))) s

/-- The hash of the new password that SPW_CHANGE carries (R618). -/
def newPassword (h : Hdr) (k : Nat) (new : BitVec 256) (s : State) : BitVec 256 :=
  new ^^^ Config.hmac256 (s.sess k).key ([0x53#8, 0x50#8, 0x57#8] ++ leBytes 4 h.seq.toNat)

/-- SPW_CHANGE (R191, R618). -/
def execSpwChange (h : Hdr) (new : BitVec 256) (s : State) : Host.Outcome State Fault Refusal :=
  run (command h 0x31 false
    (fun k s => ⟨safetyOk k s, h.argLen == 32, true,
      if newPassword h k new s = s.otp.spw ∧ s.otp.spwRemain ≠ 0 then .ok else otpRes s.otp.spwRemain s⟩)
    (fun k s => if newPassword h k new s = s.otp.spw then finish h 0x31 k .ok [] s
      else otpStart h k 0x108 0 (newPassword h k new s) 0x31 { s with otp := { s.otp with spwRemain := s.otp.spwRemain - 1 } })) s

/-- LIFECYCLE_ADVANCE (R192): SERVICE from MANUFACTURE, OPERATOR from then on; TARGET is the next state. -/
def execLifecycleAdvance (h : Hdr) (target : BitVec 8) (s : State) : Host.Outcome State Fault Refusal :=
  run (command h 0x32 true
    (fun k s => ⟨roleIn [if s.otp.lifecycle = 0 then 3 else 1] k s, h.argLen == 1 && decide (target.toNat = s.otp.lifecycle + 1 ∧ target.toNat ≤ 3),
      true, otpRes 1 s⟩)
    (fun k s => otpStart h k 0x14 target.toNat 0 0x32 s)) s

/-- The checks of a service token in the order of R656. -/
def tokenStatus (t : List Byte) (s : State) : Status :=
  if s.otp.lifecycle ≠ 2 ∨ s.dbg.unlockLeft.isSome = true then .stateConflict
  else if leAt t 0 8 ≠ Config.switchSerial.toNat ∨ leAt t 10 2 < 1 ∨ 1440 < leAt t 10 2 then .badArg
  else if s.otp.tokenRemain = 0 then .noResource
  else if ¬(leAt t 9 1 < 4 ∧ s.otp.enrolled.testBit (leAt t 9 1) = true ∧ s.otp.revoked.testBit (leAt t 9 1) = false)
      ∨ Config.ecdsaVerify (Config.publicKey (Tab.get 0#384 s.otp.keyHash (leAt t 9 1))) (Config.sha384 (bytesAt t 0 64)) (bytesAt t 64 96) = false
    then .integrity
  else if leAt t 12 1 ≠ s.otp.tokenRemain then .stateConflict
  else if s.otp.programming.isSome = true ∨ s.clogFull = true then .busy
  else .ok

/-- A token is judged (R656, R663): on success one count is consumed, and the unlock follows its programming. -/
def serviceUnlock (h : Hdr) (k : Nat) (t : List Byte) (s : State) : State :=
  match tokenStatus t s with
  | .ok => otpStart h k 0x10C (leAt t 8 1 + 256 * leAt t 10 2) 0 0x33 { s with otp := { s.otp with tokenRemain := s.otp.tokenRemain - 1 } }
  | st => refuse h 0x33 k st (s.logEv 0x22 0x0003 st.code)

/-- SERVICE_UNLOCK (R656). -/
def execServiceUnlock (h : Hdr) (token : List Byte) (s : State) : Host.Outcome State Fault Refusal :=
  run (command h 0x33 false
    (fun k s => ⟨roleIn [3] k s, h.argLen == 160 && decide (token.length = 160), true, .ok⟩)
    (fun k s => serviceUnlock h k token s)) s

/-! ### Keys and credentials (R193, R194, R573, R615) -/

/-- A change of the key slots shows and enters the change log, kind 6, with the new word of IMG_KEYS (R194, R195, R207). -/
def keyChange (k slot : Nat) (o : Otp) (s : State) : State :=
  let s := otpShow { s with otp := o }
  s.clogPush (sessRole s k) k 6 slot (newOf (s.reg Reg.IMG_KEYS).toNat)

/-- KEY_ENROL (R193): in MANUFACTURE or DEVELOP, a slot that has never been enrolled. -/
def execKeyEnrol (h : Hdr) (slot : BitVec 8) (hash : BitVec 384) (s : State) : Host.Outcome State Fault Refusal :=
  run (command h 0x34 true
    (fun k s => ⟨roleIn [3] k s, h.argLen == 49 && decide (slot.toNat < 4),
      decide (s.otp.lifecycle ≤ 1) && !s.otp.enrolled.testBit slot.toNat && !s.otp.revoked.testBit slot.toNat, if s.clogFull then .busy else .ok⟩)
    (fun k s => finish h 0x34 k .ok [] (keyChange k slot.toNat
      { s.otp with keyHash := Tab.set 0#384 s.otp.keyHash slot.toNat hash, enrolled := setBitOf s.otp.enrolled slot.toNat true } s))) s

/-- The slot holds the key of the ACTIVE image (R193): the one that runs, or, where none runs, the one in the ACTIVE slot. -/
def keyInUse (slot : Nat) (s : State) : Bool :=
  (!s.img.active.isEmpty && imgKeySlot s.img.active == slot)
    || (match slotWith (liveRec s) .active with | some k => imgKeySlot (s.flash.slot k) == slot | none => false)

/-- KEY_REVOKE (R193). -/
def execKeyRevoke (h : Hdr) (slot : BitVec 8) (s : State) : Host.Outcome State Fault Refusal :=
  run (command h 0x35 true
    (fun k s => ⟨roleIn [1] k s, h.argLen == 1 && decide (slot.toNat < 4), !keyInUse slot.toNat s, if s.clogFull then .busy else .ok⟩)
    (fun k s => finish h 0x35 k .ok [] (keyChange k slot.toNat { s.otp with revoked := setBitOf s.otp.revoked slot.toNat true } s))) s

/-- The key-encryption key of a session (R615). -/
def wrapKey (k : Nat) (s : State) : BitVec 256 := Config.hmac256 (s.sess k).key [0x57#8, 0x52#8, 0x41#8, 0x50#8]

/-- CRED_SET (R615): from SERVICE for any role, from a role for its own credential, from OPERATOR for TENANT. -/
def execCredSet (h : Hdr) (role plot : BitVec 8) (wrapped : List Byte) (s : State) : Host.Outcome State Fault Refusal :=
  run (command h 0x36 true
    (fun k s => ⟨sessRole s k == 3 || (roleIn [1, 2] k s && (role.toNat == sessRole s k || (sessRole s k == 1 && role.toNat == 4))),
      h.argLen == 42 && decide (wrapped.length = 40 ∧ 1 ≤ role.toNat ∧ role.toNat ≤ 4 ∧ plot.toNat < (if role.toNat = 4 then 64 else 1)), true, .ok⟩)
    (fun k s => match Config.keyUnwrap (wrapKey k s) wrapped with
      | some c => finish h 0x36 k .ok [] { s with eng := { s.eng with creds := Tab.set none s.eng.creds (role.toNat * 64 + plot.toNat) (some c) } }
      | none => finish h 0x36 k .integrity [] s)) s

/-- CAK_INSTALL (R573, R615): the connectivity association key of a plot, or (0x3F) of management. -/
def execCakInstall (h : Hdr) (plot : BitVec 8) (ckn : BitVec 128) (wrapped : List Byte) (s : State) : Host.Outcome State Fault Refusal :=
  run (command h 0x37 false
    (fun k s => ⟨roleIn [1] k s, h.argLen == 57 && decide (wrapped.length = 40 ∧ plot.toNat ≤ 63), true, .ok⟩)
    (fun k s => match Config.keyUnwrap (wrapKey k s) wrapped with
      | some c => finish h 0x37 k .ok []
          { s with eng := { s.eng with caks := Tab.set none s.eng.caks plot.toNat (some (beBytes 16 ckn.toNat, c)) } }
      | none => finish h 0x37 k .integrity [] s)) s

/-! ### Resets (R164, R166, R553) -/

/-- SYS_RESET (R164, R553): the response precedes the reset; a node on its rings leaves them first. -/
def execSysReset (h : Hdr) (s : State) : Host.Outcome State Fault Refusal :=
  run (command h 0x40 true (fun k s => ⟨roleIn [1, 3] k s, h.argLen == 0, true, .ok⟩)
    (fun k s =>
      let s := finish h 0x40 k .ok [] s
      if s.img.phase = .booted then leaveForReset 2 s else mainReset 2 s)) s

/-- CT_RESET (R166, R617): SAFETY after its password, or SERVICE. -/
def execCtReset (h : Hdr) (s : State) : Host.Outcome State Fault Refusal :=
  run (command h 0x41 false (fun k s => ⟨sessRole s k == 3 || safetyOk k s, h.argLen == 0, true, .ok⟩)
    (fun k s => controlReset (finish h 0x41 k .ok [] s))) s

end Sys2Proof.Machine
end

