-- ==== Sys2Proof/Machine/Cells.lean ====
section
/-!
DEFINITION. Machine/Cells.lean: the plot commands and their short form (R593, R594, R628, R629), and control cells as a ring port group
receives them (R587 to R591).
-/
namespace Sys2Proof.Machine

/-! ### Plot commands (R594, R618, R628, R629) -/

/-- Port `l` is an access port (R600). -/
def accessPort (s : State) (l : Nat) : Bool := s.rd (Fld.PQ_PORT_MAP_ROLE l) == 1 || s.rd (Fld.PQ_PORT_MAP_ROLE l) == 2

/-- A plot command's own arguments are in range: a plot, or the first lane of a port. -/
def plotArgs (sop arg0 : Nat) : Bool := if sop < 0x73 then decide (arg0 ≤ 63) else decide (arg0 < 128)

/-- This node can execute a plot command: a port named must be an access port here. -/
def plotHere (sop arg0 : Nat) (s : State) : Bool := plotArgs sop arg0 && (decide (sop < 0x73) || accessPort s arg0)

/-- A plot command has arrived (R38): it takes effect at the next frame tick. -/
def plotArrive (c : PlotCmd) (s : State) : State := { s with ctl := { s.ctl with plotCmds := s.ctl.plotCmds ++ [c] } }

/-- The short form that the holder inserts (R628); its HMAC is put in at insertion. -/
def shortOf (h : Hdr) (k : Nat) (c : PlotCmd) (s : State) : ShortCmd :=
  { sop := c.sop, role := sessRole s k, session := k, tag := h.tag.toNat, snonce := (s.sess k).snonce, seq := h.seq.toNat, arg0 := c.arg0,
    arg1 := c.arg1, hmac := 0 }

/-- A plot command of a session (R593, R628): here, flooded, or sent to another node and answered when its COMMAND_RESP comes. -/
def plotSend (h : Hdr) (k dest : Nat) (c : PlotCmd) (s : State) : State :=
  if dest = nodeNo s then
    if plotHere c.sop c.arg0 s then finish h c.sop k .ok [] (plotArrive c s) else refuse h c.sop k .badArg s
  else if dest = 0x3FF then
    let s := floodCell (.command (shortOf h k c s)) s
    if plotHere c.sop c.arg0 s then finish h c.sop k .ok [] (plotArrive c s) else finish h c.sop k .badArg [] s
  else
    let s := unicastCell (.command (shortOf h k c s)) dest s
    let w : ShortWait := { session := k, tag := h.tag.toNat, opcode := c.sop, seq := h.seq.toNat, age := 0 }
    showOps { s with eng := { s.eng with waits := s.eng.waits ++ [w] } }

/-- A plot command by its opcode (R618): `len` is its ARG_LEN. -/
def plotBy (h : Hdr) (dest len : Nat) (c : PlotCmd) (s : State) : State :=
  command h c.sop false
    (fun k s => ⟨roleIn [1] k s, h.argLen == len && decide (dest ≤ 0x3FF) && plotArgs c.sop c.arg0, true, .ok⟩)
    (fun k s => plotSend h k dest c s) s

/-- PLOT_QUENCH (R594). -/
def execPlotQuench (h : Hdr) (dest : BitVec 16) (p : BitVec 8) (s : State) : Host.Outcome State Fault Refusal :=
  run (plotBy h dest.toNat 3 ⟨0x70, p.toNat, 0⟩) s
/-- PLOT_THROTTLE (R594). -/
def execPlotThrottle (h : Hdr) (dest : BitVec 16) (p : BitVec 8) (r : BitVec 16) (s : State) : Host.Outcome State Fault Refusal :=
  run (plotBy h dest.toNat 5 ⟨0x71, p.toNat, r.toNat⟩) s
/-- PLOT_RELEASE (R594). -/
def execPlotRelease (h : Hdr) (dest : BitVec 16) (p : BitVec 8) (s : State) : Host.Outcome State Fault Refusal :=
  run (plotBy h dest.toNat 3 ⟨0x72, p.toNat, 0⟩) s
/-- PORT_SHUT (R594). -/
def execPortShut (h : Hdr) (dest : BitVec 16) (lane : BitVec 8) (s : State) : Host.Outcome State Fault Refusal :=
  run (plotBy h dest.toNat 3 ⟨0x73, lane.toNat, 0⟩) s
/-- PORT_OPEN (R594). -/
def execPortOpen (h : Hdr) (dest : BitVec 16) (lane : BitVec 8) (s : State) : Host.Outcome State Fault Refusal :=
  run (plotBy h dest.toNat 3 ⟨0x74, lane.toNat, 0⟩) s

/-! ### The front end of the target (R38, R629) -/

/-- The bytes that the HMAC of a COMMAND_RESP covers (R629, DEDUCED): payload bytes 40 to 59. -/
def respBytes (sop status tag : Nat) (snonce : List Byte) (seq : Nat) : List Byte :=
  beBytes 1 sop ++ beBytes 1 status ++ [0#8, 0#8] ++ beBytes 2 tag ++ [0#8, 0#8] ++ snonce ++ beBytes 4 seq

/-- SHORT_AUTH_FAIL, at most once per origin per second (R629). -/
def shortFail (origin : Nat) (s : State) : State :=
  let due := match Tab.get none s.eng.shortAt origin with | some f => decide (framesPerSecond ≤ fnDiff s.fn f) | none => true
  if due then { s with eng := { s.eng with shortAt := Tab.set none s.eng.shortAt origin (some s.fn) } }.logEv 0x05 0x0008 origin else s

/-- The status of an authenticated short command (R610, R629): only ROLE OPERATOR is accepted. -/
def shortStatus (c : ShortCmd) (s : State) : Status :=
  if c.role ≠ 1 then .denied
  else if ¬(0x70 ≤ c.sop ∧ c.sop ≤ 0x74) ∨ plotHere c.sop c.arg0 s = false ∨ 65535 < c.arg1 then .badArg
  else .ok

/-- A unicast target answers with a COMMAND_RESP (R629). -/
def shortAnswer (key : BitVec 256) (origin : Nat) (flood : Bool) (c : ShortCmd) (st : Status) (s : State) : State :=
  if flood then s
  else unicastCell (.commandResp c.sop st.code c.tag c.snonce c.seq (hmac16 key (respBytes c.sop st.code c.tag c.snonce c.seq))) origin s

/-- An authentic short command is executed (R38, R629). -/
def shortRun (key : BitVec 256) (origin : Nat) (flood : Bool) (c : ShortCmd) (s : State) : State :=
  let st := shortStatus c s
  let s := match st with
    | .ok => (plotArrive ⟨c.sop, c.arg0, c.arg1⟩ s).logEv 0x05 0x0007 (origin + c.sop * 65536)
    | _ => s
  shortAnswer key origin flood c st s

/-- A COMMAND cell from a node reaches its target's front end (R629): its key follows from ORIGIN, SESSION and SNONCE. The front end has
joined no ring before an image is active (R172). -/
def shortCommand (origin dest fn : Nat) (c : ShortCmd) (s : State) : State :=
  if s.img.phase ≠ .booted then s
  else match (if 1 ≤ c.role ∧ c.role ≤ 3 then credential s c.role 0 else none) with
    | none => shortFail origin s
    | some cred =>
      let key := sessionKey cred origin c.session c.snonce
      if c.hmac = hmac16 key (shortBytes c dest fn) then shortRun key origin (dest == 0x3FF) c s else shortFail origin s

/-- SHORT_COMMAND (R629). -/
def execShortCommand (origin dest : BitVec 10) (fn : BitVec 48) (c : ShortCmd) (s : State) : Host.Outcome State Fault Refusal :=
  run (shortCommand origin.toNat dest.toNat fn.toNat c) s

/-- A COMMAND_RESP answers the command that waits for it (R629). -/
def commandResp (sop status tag : Nat) (snonce : List Byte) (seq : Nat) (hmac : BitVec 128) (s : State) : State :=
  match s.eng.waits.find? (fun w => w.tag == tag && w.seq == seq && w.opcode == sop && decide ((s.sess w.session).snonce = snonce)) with
  | none => s
  | some w =>
    if hmac = hmac16 (s.sess w.session).key (respBytes sop status tag snonce seq) then
      let s := { s with eng := { s.eng with waits := s.eng.waits.erase w } }
      respond w.session w.opcode w.tag status true false [] (showOps s)
    else s

/-- COMMAND_RESP (R629). -/
def execCommandResp (sop status : BitVec 8) (tag : BitVec 12) (snonce : BitVec 64) (seq : BitVec 32) (hmac : BitVec 128) (s : State) :
    Host.Outcome State Fault Refusal :=
  run (commandResp sop.toNat status.toNat tag.toNat (beBytes 8 snonce.toNat) seq.toNat hmac) s

/-- No COMMAND_RESP within 10 ms (R629): the holder answers FAILED. -/
def shortTimeout (tag : Nat) (s : State) : State :=
  match s.eng.waits.find? (fun w => w.tag == tag && decide (500 ≤ w.age)) with
  | none => s
  | some w =>
    let s := { s with eng := { s.eng with waits := s.eng.waits.erase w } }
    respond w.session w.opcode w.tag 8 true false [] (showOps s)

/-- SHORT_RESP_TIMEOUT (R629). -/
def execShortRespTimeout (tag : BitVec 12) (s : State) : Host.Outcome State Fault Refusal := run (shortTimeout tag.toNat) s

/-! ### Control cells received (R587 to R591) -/

/-- A TYPE of R587. -/
def knownType : CellBody → Bool
  | .other _ => false
  | .ptp _ _ => false
  | _ => true

/-- A cell with an FN more than 255 behind the highest of its origin, or one already accepted, is a replay (R588). -/
def replayed (s : State) (c : Cell) : Bool :=
  (match Tab.get none s.ctl.high c.origin with | some h => fnLater h ((c.fn + 255) % fnModulus) | none => false)
    || s.ctl.seen.contains (c.origin, c.fn, c.hseq)

/-- A failing cell is logged once per group per second (R588): `replay` in bit 8. -/
def badCell (g : Nat) (replay : Bool) (s : State) : State :=
  let s := if replay then s.inc (Fld.PQ_CTL_CNT1_REPLAY g) else s.inc (Fld.PQ_CTL_CNT0_BAD g)
  let due := match Tab.get none s.ctl.badAt g with | some f => decide (framesPerSecond ≤ fnDiff s.fn f) | none => true
  if due then { s with ctl := { s.ctl with badAt := Tab.set none s.ctl.badAt g (some s.fn) } }.logEv 0x21 0x0009 (g + bitIf replay 8) else s

/-- An accepted cell sets H and is remembered while it can be replayed (R588). -/
def cellSeen (c : Cell) (s : State) : State :=
  let h := match Tab.get none s.ctl.high c.origin with | some h => if fnLater c.fn h then c.fn else h | none => c.fn
  let keep := s.ctl.seen.filter (fun e => decide (e.1 ≠ c.origin) || !fnLater h ((e.2.1 + 255) % fnModulus))
  { s with ctl := { s.ctl with high := Tab.set none s.ctl.high c.origin (some h), seen := (c.origin, c.fn, c.hseq) :: keep } }

/-- A cell is forwarded (R549, R589): not past RING_SIZE hops, not twice within 64 frames, and not on a group that is DOWN, joining or
drowsed. -/
def cellForward (g : Nat) (c : Cell) (s : State) : State :=
  let o := onward g
  let again := s.ctl.sent.any (fun e => e.1 == c.origin && e.2.1 == c.hseq && decide (fnDiff s.fn e.2.2 ≤ 64))
  if ringSize s ≤ c.hops + 1 ∨ again = true ∨ ¬(groupState s o = 3 ∨ groupState s o = 5) then s
  else
    let keep := s.ctl.sent.filter (fun e => decide (fnDiff s.fn e.2.2 ≤ 64))
    let s := { s with ctl := { s.ctl with sent := (c.origin, c.hseq, s.fn) :: keep } }
    (countTx (groupPort o) 128 s).send (.cell o { c with hops := c.hops + 1 })

/-- A cell of ring management (R545): a break and a heal wait for the frame tick (R548, R549). -/
def ringCell (g : Nat) (b : CellBody) (s : State) : State :=
  match b with
  | .ringBreak .. => { s with ring := { s.ring with arrived := s.ring.arrived ++ [b] } }
  | .ringHeal .. => { s with ring := { s.ring with arrived := s.ring.arrived ++ [b] } }
  | .leave rings _ => leaveRx g rings s
  | .wake _ => wakeGroup g true s
  | .insertPlan r _ => insertPlanRx g r s
  | .drowseReq _ q => drowseReqAt g q (s.free.1 % 2 == 1) s.free.2
  | .drowseAck _ q => drowseAckRx g q s
  | .drowseNak .. => drowseNakRx g s
  | .nbrId node ins size => nbrIdRx g node ins size s
  | _ => s

/-- The announcement in a cell (R189): ACT_DIGEST, ACT_EPOCH, and the pending target with STG_DIGEST. -/
def announceWordsRx (g : Nat) (w : List Nat) (s : State) : State :=
  let d := digestOfWords (w.getD 0 0) (w.getD 1 0) (w.getD 2 0) (w.getD 3 0)
  let pend := (w[5]?).map (fun t => (t, digestOfWords (w.getD 6 0) (w.getD 7 0) (w.getD 8 0) (w.getD 9 0)))
  announceRx g d (w.getD 4 0) pend s

/-- A cell is consumed, by its TYPE (R587, R589). -/
def cellConsume (g : Nat) (c : Cell) (at' : CellTime) (s : State) : State :=
  match c.body with
  | .anchor p => anchorCellRx (ancOf p) s
  | .tickMark fn => tickMark fn at'.ns at'.corr s
  | .announce w => announceWordsRx g w s
  | .command q => shortCommand c.origin c.dest c.fn q s
  | .commandResp sop st tag sn seq hm => commandResp sop st tag sn seq hm s
  | b => ringCell g b s

/-- The SEQ of a flooded cell of ring management (R545). -/
def floodSeq : CellBody → Option Nat
  | .ringBreak _ _ _ _ seq => some seq
  | .ringHeal _ _ seq => some seq
  | _ => none

/-- A cell of ring management whose origin and SEQ this node has seen within the last 64 frames is a further copy (R545). -/
def furtherCopy (s : State) (c : Cell) : Bool :=
  match floodSeq c.body with
  | some q => s.ring.floods.any (fun e => e.1 == c.origin && e.2.1 == q && decide (fnDiff s.fn e.2.2 ≤ 64))
  | none => false

/-- The origin and SEQ of a flooded cell of ring management are remembered for 64 frames (R545). -/
def floodSeen (c : Cell) (s : State) : State :=
  match floodSeq c.body with
  | some q =>
    let keep := s.ring.floods.filter (fun e => decide (fnDiff s.fn e.2.2 ≤ 64))
    { s with ring := { s.ring with floods := (c.origin, q, s.fn) :: keep } }
  | none => s

/-- An accepted cell by its REACH (R589): a neighbour cell is consumed, a flood is consumed and forwarded, a unicast is consumed by DEST
and forwarded by every other node; a further copy of a flood of ring management is dropped (R545). -/
def cellReach (g : Nat) (c : Cell) (t : CellTime) (s : State) : State :=
  if c.reach = 0 then cellConsume g c t s
  else if c.reach = 1 then (if c.dest = nodeNo s then cellConsume g c t s else cellForward g c s)
  else if furtherCopy s c then s
  else cellForward g c (cellConsume g c t (floodSeen c s))

/-- A transit event message goes on with this node's residence time in its correctionField (R107). -/
def ptpForward (g : Nat) (c : Cell) (kind corr stay : Nat) (s : State) : State :=
  let o := onward g
  if 1 < kind ∨ c.origin = nodeNo s ∨ ¬(groupState s o = 3 ∨ groupState s o = 5) then s
  else (countTx (groupPort o) 128 s).send (.cell o { c with body := .ptp kind (corr + stay) })

/-- The checks of a received cell (R587, R588): `valid` says that its FCS and ICV are correct. PTP messages carry no ICV and are not control
cells: what this node itself does at one has its own rows. -/
def cellChecked (g : Nat) (c : Cell) (valid : Bool) (t : CellTime) (s : State) : State :=
  match c.body with
  | .ptp kind corr => ptpForward g c kind corr t.stay s
  | b =>
    if valid = false ∨ knownType b = false then badCell g false s
    else if c.origin = nodeNo s then s
    else if replayed s c then badCell g true s
    else cellReach g c t (countEv 0x017 g 1 (cellSeen c s))

/-- A class-7 frame is received on group `g` (R580, R591): at most 320 in a frame are accepted. -/
def controlCell (g : Nat) (c : Cell) (valid : Bool) (t : CellTime) (s : State) : State :=
  let st := groupState s g
  if !s.ring.forwarding || !(st == 3 || st == 5 || st == 6 || st == 7) then s
  else
    let n := (s.cq g).rx
    let s := countRx (groupPort g) 128 (s.setCq g { s.cq g with rx := n + 1 })
    if 320 ≤ n then s.inc (Fld.PQ_CTL_CNT0_RX_OVER g) else cellChecked g c valid t s

/-- CONTROL_CELL (R588). -/
def execControlCell (g : Fin 4) (c : Cell) (valid : Bool) (t : CellTime) (s : State) : Host.Outcome State Fault Refusal :=
  run (controlCell g.val c valid t) s

end Sys2Proof.Machine
end

