-- ==== Sys2Proof/Machine/Dispatch.lean ====
section
/-!
DEFINITION. Machine/Dispatch.lean: every command and its meaning.
-/
namespace Sys2Proof.Machine

/-- The effect of a command on everything but the queue. -/
def exec (i : Instr) (s : State) : Host.Outcome State Fault Refusal :=
  match i with
  | .registerWrite who a size v => Sys2Proof.Machine.execRegisterWrite who a size v s
  | .rcFieldRead who a size => Sys2Proof.Machine.execRcFieldRead who a size s
  | .frameTick sinA sinB srb ack => Sys2Proof.Machine.execFrameTick sinA sinB srb ack s
  | .controlTick => Sys2Proof.Machine.execControlTick s
  | .tickResume => Sys2Proof.Machine.execTickResume s
  | .tickStep => Sys2Proof.Machine.execTickStep s
  | .biasChangeDone => Sys2Proof.Machine.execBiasChangeDone s
  | .reqRun who => Sys2Proof.Machine.execReqRun who s
  | .reqIdle who => Sys2Proof.Machine.execReqIdle who s
  | .reqRingOnly who => Sys2Proof.Machine.execReqRingOnly who s
  | .reqBivouac who => Sys2Proof.Machine.execReqBivouac who s
  | .reqDormant who => Sys2Proof.Machine.execReqDormant who s
  | .idleAutoEntry => Sys2Proof.Machine.execIdleAutoEntry s
  | .stateChangeDone => Sys2Proof.Machine.execStateChangeDone s
  | .wakeAdmit => Sys2Proof.Machine.execWakeAdmit s
  | .domainGood => Sys2Proof.Machine.execDomainGood s
  | .wakeTimeout => Sys2Proof.Machine.execWakeTimeout s
  | .drainComplete => Sys2Proof.Machine.execDrainComplete s
  | .drainAbort n us => Sys2Proof.Machine.execDrainAbort n us s
  | .railSequenceStep pg mv goodFor offFor => Sys2Proof.Machine.execRailSequenceStep pg mv goodFor offFor s
  | .railPgTimeout n => Sys2Proof.Machine.execRailPgTimeout n s
  | .railFault n => Sys2Proof.Machine.execRailFault n s
  | .tier1Fault => Sys2Proof.Machine.execTier1Fault s
  | .pmbAlert alerted faulty => Sys2Proof.Machine.execPmbAlert alerted faulty s
  | .pmbusPoll vout iout margin => Sys2Proof.Machine.execPmbusPoll vout iout margin s
  | .ioBankSupplyLoss b => Sys2Proof.Machine.execIoBankSupplyLoss b s
  | .ctrlPllGated slip lockV => Sys2Proof.Machine.execCtrlPllGated slip lockV s
  | .ctrlPllLock lockV => Sys2Proof.Machine.execCtrlPllLock lockV s
  | .rgPllLoss => Sys2Proof.Machine.execRgPllLoss s
  | .appPllLoss => Sys2Proof.Machine.execAppPllLoss s
  | .serdesPllLoss k => Sys2Proof.Machine.execSerdesPllLoss k s
  | .sysclkLoss => Sys2Proof.Machine.execSysclkLoss s
  | .refclkLoss k => Sys2Proof.Machine.execRefclkLoss k s
  | .tbFailback => Sys2Proof.Machine.execTbFailback s
  | .pllRelock p locked => Sys2Proof.Machine.execPllRelock p locked s
  | .syncMessage group t1 t2 corr filtered => Sys2Proof.Machine.execSyncMessage group t1 t2 corr filtered s
  | .pdelayMessage group request t1 t2 t3 t4 => Sys2Proof.Machine.execPdelayMessage group request t1 t2 t3 t4 s
  | .syncTimeout => Sys2Proof.Machine.execSyncTimeout s
  | .tickMark mark ns corr => Sys2Proof.Machine.execTickMark mark ns corr s
  | .tickMarkSend => Sys2Proof.Machine.execTickMarkSend s
  | .rtNowRead who ns => Sys2Proof.Machine.execRtNowRead who ns s
  | .lanternColdStart src => Sys2Proof.Machine.execLanternColdStart src s
  | .boostTakeover => Sys2Proof.Machine.execBoostTakeover s
  | .harvestOcvMeasure ocv => Sys2Proof.Machine.execHarvestOcvMeasure ocv s
  | .chargerPhase vcell icell vlan avail => Sys2Proof.Machine.execChargerPhase vcell icell vlan avail s
  | .chgFault vcell dieTemp => Sys2Proof.Machine.execChgFault vcell dieTemp s
  | .chgRestart => Sys2Proof.Machine.execChgRestart s
  | .cellUv vcell => Sys2Proof.Machine.execCellUv vcell s
  | .cellReconnect vcell => Sys2Proof.Machine.execCellReconnect vcell s
  | .lxtalFail => Sys2Proof.Machine.execLxtalFail s
  | .lxtalReturn => Sys2Proof.Machine.execLxtalReturn s
  | .trimPeriodEnd => Sys2Proof.Machine.execTrimPeriodEnd s
  | .rtcSyncLoad => Sys2Proof.Machine.execRtcSyncLoad s
  | .rtcRead who => Sys2Proof.Machine.execRtcRead who s
  | .ridgelineHeartbeat => Sys2Proof.Machine.execRidgelineHeartbeat s
  | .appKick who => Sys2Proof.Machine.execAppKick who s
  | .rgHbLost => Sys2Proof.Machine.execRgHbLost s
  | .ctHbLost => Sys2Proof.Machine.execCtHbLost s
  | .appHbLost => Sys2Proof.Machine.execAppHbLost s
  | .holdWaitEnd r => Sys2Proof.Machine.execHoldWaitEnd r s
  | .bypassCounted r => Sys2Proof.Machine.execBypassCounted r s
  | .bypPosSample r closed => Sys2Proof.Machine.execBypPosSample r closed s
  | .wakeIn low counts => Sys2Proof.Machine.execWakeIn low counts s
  | .wakeTimerExpiry counts => Sys2Proof.Machine.execWakeTimerExpiry counts s
  | .mainWake counts => Sys2Proof.Machine.execMainWake counts s
  | .wakeFail counts => Sys2Proof.Machine.execWakeFail counts s
  | .wakeRetry counts => Sys2Proof.Machine.execWakeRetry counts s
  | .bivouacCycle l0 l1 l2 l3 vcell => Sys2Proof.Machine.execBivouacCycle l0 l1 l2 l3 vcell s
  | .lmonConvert l0 l1 l2 l3 vlan vcell => Sys2Proof.Machine.execLmonConvert l0 l1 l2 l3 vlan vcell s
  | .logWriteSlot => Sys2Proof.Machine.execLogWriteSlot s
  | .logClear who => Sys2Proof.Machine.execLogClear who s
  | .logEntryRead who => Sys2Proof.Machine.execLogEntryRead who s
  | .sysRst => Sys2Proof.Machine.execSysRst s
  | .resetRelease vio0 vio1 counts => Sys2Proof.Machine.execResetRelease vio0 vio1 counts s
  | .boot => Sys2Proof.Machine.execBoot s
  | .controlSectionsLoad => Sys2Proof.Machine.execControlSectionsLoad s
  | .localActivation => Sys2Proof.Machine.execLocalActivation s
  | .pendingResolve => Sys2Proof.Machine.execPendingResolve s
  | .stageComplete j => Sys2Proof.Machine.execStageComplete j s
  | .activation => Sys2Proof.Machine.execActivation s
  | .commitMarker => Sys2Proof.Machine.execCommitMarker s
  | .bootRecordRewrite => Sys2Proof.Machine.execBootRecordRewrite s
  | .repitch => Sys2Proof.Machine.execRepitch s
  | .secMinRaise => Sys2Proof.Machine.execSecMinRaise s
  | .announceSend => Sys2Proof.Machine.execAnnounceSend s
  | .announceRx g digest epoch pend => Sys2Proof.Machine.execAnnounceRx g digest epoch pend s
  | .expDigestCommit who v => Sys2Proof.Machine.execExpDigestCommit who v s
  | .nbrSilent g => Sys2Proof.Machine.execNbrSilent g s
  | .otpProgramDone success => Sys2Proof.Machine.execOtpProgramDone success s
  | .clogFlashWrite => Sys2Proof.Machine.execClogFlashWrite s
  | .adcTrigger c e => Sys2Proof.Machine.execAdcTrigger c e s
  | .adcSwTrig who c v => Sys2Proof.Machine.execAdcSwTrig who c v s
  | .entryStart c cyc => Sys2Proof.Machine.execEntryStart c cyc s
  | .entryResult c l cyc => Sys2Proof.Machine.execEntryResult c l cyc s
  | .urgentRequest who c v => Sys2Proof.Machine.execUrgentRequest who c v s
  | .refLost g => Sys2Proof.Machine.execRefLost g s
  | .refRestored g => Sys2Proof.Machine.execRefRestored g s
  | .openWireCheck c m => Sys2Proof.Machine.execOpenWireCheck c m s
  | .winTrip n v hi lo at' forced => Sys2Proof.Machine.execWinTrip n v hi lo at' forced s
  | .blankEnd n => Sys2Proof.Machine.execBlankEnd n s
  | .winClr who v => Sys2Proof.Machine.execWinClr who v s
  | .winChkStart who v => Sys2Proof.Machine.execWinChkStart who v s
  | .winChkDone m => Sys2Proof.Machine.execWinChkDone m s
  | .slotCompute n doneAt => Sys2Proof.Machine.execSlotCompute n doneAt s
  | .operatorCompute k doneAt agree ab cycle => Sys2Proof.Machine.execOperatorCompute k doneAt agree ab cycle s
  | .rearm who b v => Sys2Proof.Machine.execRearm who b v s
  | .engineStart => Sys2Proof.Machine.execEngineStart s
  | .armAt who => Sys2Proof.Machine.execArmAt who s
  | .armNext who => Sys2Proof.Machine.execArmNext who s
  | .disarm who => Sys2Proof.Machine.execDisarm who s
  | .copy who => Sys2Proof.Machine.execCopy who s
  | .bankDigestDone => Sys2Proof.Machine.execBankDigestDone s
  | .copyDone => Sys2Proof.Machine.execCopyDone s
  | .leSwap => Sys2Proof.Machine.execLeSwap s
  | .secStateRead who j => Sys2Proof.Machine.execSecStateRead who j s
  | .gsUpdate u => Sys2Proof.Machine.execGsUpdate u s
  | .gsLock u => Sys2Proof.Machine.execGsLock u s
  | .rtPointExpiry g kind who => Sys2Proof.Machine.execRtPointExpiry g kind who s
  | .gridStart who g => Sys2Proof.Machine.execGridStart who g s
  | .gridStop who g => Sys2Proof.Machine.execGridStop who g s
  | .gridResetFault who g => Sys2Proof.Machine.execGridResetFault who g s
  | .connectDelayEnd g => Sys2Proof.Machine.execConnectDelayEnd g s
  | .contactorClosed g => Sys2Proof.Machine.execContactorClosed g s
  | .contactorTimeout g => Sys2Proof.Machine.execContactorTimeout g s
  | .rampStart g => Sys2Proof.Machine.execRampStart g s
  | .rampEnd g => Sys2Proof.Machine.execRampEnd g s
  | .stopRampEnd g => Sys2Proof.Machine.execStopRampEnd g s
  | .contFbChange g => Sys2Proof.Machine.execContFbChange g s
  | .trackStep k => Sys2Proof.Machine.execTrackStep k s
  | .trkStart who k => Sys2Proof.Machine.execTrkStart who k s
  | .trkStop who k => Sys2Proof.Machine.execTrkStop who k s
  | .trkResetFault who k => Sys2Proof.Machine.execTrkResetFault who k s
  | .scanNow who k => Sys2Proof.Machine.execScanNow who k s
  | .trkStartDelayEnd k => Sys2Proof.Machine.execTrkStartDelayEnd k s
  | .trkDuskStop k => Sys2Proof.Machine.execTrkDuskStop k s
  | .scanStart k => Sys2Proof.Machine.execScanStart k s
  | .scanDone k => Sys2Proof.Machine.execScanDone k s
  | .phasorPublish => Sys2Proof.Machine.execPhasorPublish s
  | .breakerChange => Sys2Proof.Machine.execBreakerChange s
  | .anchorCellRx c => Sys2Proof.Machine.execAnchorCellRx c s
  | .ancSilent a => Sys2Proof.Machine.execAncSilent a s
  | .rocofCriterion => Sys2Proof.Machine.execRocofCriterion s
  | .afdCriterion => Sys2Proof.Machine.execAfdCriterion s
  | .islRelease => Sys2Proof.Machine.execIslRelease s
  | .forceDisc who => Sys2Proof.Machine.execForceDisc who s
  | .release who => Sys2Proof.Machine.execRelease who s
  | .periodBoundary p => Sys2Proof.Machine.execPeriodBoundary p s
  | .pwmTrip p railFault loopStale => Sys2Proof.Machine.execPwmTrip p railFault loopStale s
  | .cycleHold p => Sys2Proof.Machine.execCycleHold p s
  | .pwmClr who w v => Sys2Proof.Machine.execPwmClr who w v s
  | .pwmForce who w v => Sys2Proof.Machine.execPwmForce who w v s
  | .lineCalibration map => Sys2Proof.Machine.execLineCalibration map s
  | .calDone maps => Sys2Proof.Machine.execCalDone maps s
  | .baseClockLoss => Sys2Proof.Machine.execBaseClockLoss s
  | .gdFlt p low => Sys2Proof.Machine.execGdFlt p low s
  | .statusWordRx p w codeOk => Sys2Proof.Machine.execStatusWordRx p w codeOk s
  | .linkLost p ns => Sys2Proof.Machine.execLinkLost p ns s
  | .gdEnLow => Sys2Proof.Machine.execGdEnLow s
  | .gdEnRise low locked => Sys2Proof.Machine.execGdEnRise low locked s
  | .signatureCompare core eng => Sys2Proof.Machine.execSignatureCompare core eng s
  | .safetyChangeRelease agree ab cycle => Sys2Proof.Machine.execSafetyChangeRelease agree ab cycle s
  | .lsTest who v => Sys2Proof.Machine.execLsTest who v s
  | .lsTestDone failA failB => Sys2Proof.Machine.execLsTestDone failA failB s
  | .meterSample m => Sys2Proof.Machine.execMeterSample m s
  | .intervalLatch => Sys2Proof.Machine.execIntervalLatch s
  | .clear who target => Sys2Proof.Machine.execClear who target s
  | .preset who target => Sys2Proof.Machine.execPreset who target s
  | .intLenWrite who v => Sys2Proof.Machine.execIntLenWrite who v s
  | .meterRetain => Sys2Proof.Machine.execMeterRetain s
  | .meterLoRead who k => Sys2Proof.Machine.execMeterLoRead who k s
  | .pulseSample levels => Sys2Proof.Machine.execPulseSample levels s
  | .poutPulse j => Sys2Proof.Machine.execPoutPulse j s
  | .poutPulseEnd j => Sys2Proof.Machine.execPoutPulseEnd j s
  | .discrepancy n => Sys2Proof.Machine.execDiscrepancy n s
  | .testPulse k sa sb => Sys2Proof.Machine.execTestPulse k sa sb s
  | .seqWdog => Sys2Proof.Machine.execSeqWdog s
  | .rbFail n => Sys2Proof.Machine.execRbFail n s
  | .offPulse n rb => Sys2Proof.Machine.execOffPulse n rb s
  | .safeTrip who v => Sys2Proof.Machine.execSafeTrip who v s
  | .safeAckPress => Sys2Proof.Machine.execSafeAckPress s
  | .pwBlockEnd => Sys2Proof.Machine.execPwBlockEnd s
  | .laneDown l cause => Sys2Proof.Machine.execLaneDown l cause s
  | .groupDown g cause => Sys2Proof.Machine.execGroupDown g cause s
  | .ringBreak r span planned drowse => Sys2Proof.Machine.execRingBreak r span planned drowse s
  | .ringHeal r span => Sys2Proof.Machine.execRingHeal r span s
  | .healHoldEnd g => Sys2Proof.Machine.execHealHoldEnd g s
  | .nbrIdSend g => Sys2Proof.Machine.execNbrIdSend g s
  | .nbrId g node ins size => Sys2Proof.Machine.execNbrId g node ins size s
  | .nbrRetry g => Sys2Proof.Machine.execNbrRetry g s
  | .loopTestStart r => Sys2Proof.Machine.execLoopTestStart r s
  | .loopTestPass r corr uncorr => Sys2Proof.Machine.execLoopTestPass r corr uncorr s
  | .loopFail r lane corr uncorr => Sys2Proof.Machine.execLoopFail r lane corr uncorr s
  | .joinStart r => Sys2Proof.Machine.execJoinStart r s
  | .inserted r => Sys2Proof.Machine.execInserted r s
  | .joinTimeout r => Sys2Proof.Machine.execJoinTimeout r s
  | .selfBypass r => Sys2Proof.Machine.execSelfBypass r s
  | .backoffEnd r => Sys2Proof.Machine.execBackoffEnd r s
  | .insertPlan g r => Sys2Proof.Machine.execInsertPlan g r s
  | .plannedInsert r => Sys2Proof.Machine.execPlannedInsert r s
  | .leave who rings => Sys2Proof.Machine.execLeave who rings s
  | .insert who rings => Sys2Proof.Machine.execInsert who rings s
  | .wake who groups => Sys2Proof.Machine.execWake who groups s
  | .leaveCell g rings => Sys2Proof.Machine.execLeaveCell g rings s
  | .leaveAtN => Sys2Proof.Machine.execLeaveAtN s
  | .releaseCounted r => Sys2Proof.Machine.execReleaseCounted r s
  | .drowsePropose g => Sys2Proof.Machine.execDrowsePropose g s
  | .drowseReq g q loadOk => Sys2Proof.Machine.execDrowseReq g q loadOk s
  | .drowseAck g q => Sys2Proof.Machine.execDrowseAck g q s
  | .drowseNak g => Sys2Proof.Machine.execDrowseNak g s
  | .drowseReplyTimeout g => Sys2Proof.Machine.execDrowseReplyTimeout g s
  | .drowseQuiesce g => Sys2Proof.Machine.execDrowseQuiesce g s
  | .wakeCell g received => Sys2Proof.Machine.execWakeCell g received s
  | .retrainDone g => Sys2Proof.Machine.execRetrainDone g s
  | .tenantFrame l tag da sa len => Sys2Proof.Machine.execTenantFrame l tag da sa len s
  | .ringFrame g vid pcp dei dst src hops secOk da sa len frags => Sys2Proof.Machine.execRingFrame g vid pcp dei dst src hops secOk da sa len frags s
  | .fdbAge p mac => Sys2Proof.Machine.execFdbAge p mac s
  | .policerUpdate who p c burst v => Sys2Proof.Machine.execPolicerUpdate who p c burst v s
  | .fdbArmAt who => Sys2Proof.Machine.execFdbArmAt who s
  | .fdbDisarm who => Sys2Proof.Machine.execFdbDisarm who s
  | .fdbCopy who => Sys2Proof.Machine.execFdbCopy who s
  | .fdbCopyDone => Sys2Proof.Machine.execFdbCopyDone s
  | .fdbWrite who => Sys2Proof.Machine.execFdbWrite who s
  | .fdbRead who => Sys2Proof.Machine.execFdbRead who s
  | .fdbDelete who => Sys2Proof.Machine.execFdbDelete who s
  | .fdbSwap => Sys2Proof.Machine.execFdbSwap s
  | .controlCell g c valid t => Sys2Proof.Machine.execControlCell g c valid t s
  | .cellInsert g => Sys2Proof.Machine.execCellInsert g s
  | .plotCommandEffect => Sys2Proof.Machine.execPlotCommandEffect s
  | .unauthenticFrame session transport prove => Sys2Proof.Machine.execUnauthenticFrame session transport prove s
  | .sessionOpen h role plot cnonce => Sys2Proof.Machine.execSessionOpen h role plot cnonce s
  | .sessionProve h => Sys2Proof.Machine.execSessionProve h s
  | .sessionClose h => Sys2Proof.Machine.execSessionClose h s
  | .nop h => Sys2Proof.Machine.execNop h s
  | .passwordPresent h proof => Sys2Proof.Machine.execPasswordPresent h proof s
  | .regRead h a count => Sys2Proof.Machine.execRegRead h a count s
  | .regWrite h a count words => Sys2Proof.Machine.execRegWrite h a count words s
  | .imageStage h len => Sys2Proof.Machine.execImageStage h len s
  | .data h target ofs l bufFull => Sys2Proof.Machine.execData h target ofs l bufFull s
  | .imageActivateAt h n digest isLocal => Sys2Proof.Machine.execImageActivateAt h n digest isLocal s
  | .safetyConsent h digest => Sys2Proof.Machine.execSafetyConsent h digest s
  | .plotRepitch h p n digest => Sys2Proof.Machine.execPlotRepitch h p n digest s
  | .flashWrite h slot len => Sys2Proof.Machine.execFlashWrite h slot len s
  | .bankSwap h mode f => Sys2Proof.Machine.execBankSwap h mode f s
  | .settingWrite h offset value => Sys2Proof.Machine.execSettingWrite h offset value s
  | .spwChange h new => Sys2Proof.Machine.execSpwChange h new s
  | .lifecycleAdvance h target => Sys2Proof.Machine.execLifecycleAdvance h target s
  | .serviceUnlock h token => Sys2Proof.Machine.execServiceUnlock h token s
  | .keyEnrol h slot hash => Sys2Proof.Machine.execKeyEnrol h slot hash s
  | .keyRevoke h slot => Sys2Proof.Machine.execKeyRevoke h slot s
  | .credSet h role plot wrapped => Sys2Proof.Machine.execCredSet h role plot wrapped s
  | .cakInstall h plot ckn wrapped => Sys2Proof.Machine.execCakInstall h plot ckn wrapped s
  | .sysReset h => Sys2Proof.Machine.execSysReset h s
  | .ctReset h => Sys2Proof.Machine.execCtReset h s
  | .logDump h log from' count => Sys2Proof.Machine.execLogDump h log from' count s
  | .selfTestFull h parts => Sys2Proof.Machine.execSelfTestFull h parts s
  | .opStatus h tag => Sys2Proof.Machine.execOpStatus h tag s
  | .opSuspend h tag => Sys2Proof.Machine.execOpSuspend h tag s
  | .opResume h tag => Sys2Proof.Machine.execOpResume h tag s
  | .opCancel h tag => Sys2Proof.Machine.execOpCancel h tag s
  | .plotQuench h dest p => Sys2Proof.Machine.execPlotQuench h dest p s
  | .plotThrottle h dest p r => Sys2Proof.Machine.execPlotThrottle h dest p r s
  | .plotRelease h dest p => Sys2Proof.Machine.execPlotRelease h dest p s
  | .portShut h dest lane => Sys2Proof.Machine.execPortShut h dest lane s
  | .portOpen h dest lane => Sys2Proof.Machine.execPortOpen h dest lane s
  | .halfOpenTimeout k => Sys2Proof.Machine.execHalfOpenTimeout k s
  | .sessionIdle k => Sys2Proof.Machine.execSessionIdle k s
  | .opRun j => Sys2Proof.Machine.execOpRun j s
  | .dataTimeout j => Sys2Proof.Machine.execDataTimeout j s
  | .suspendTimeout j => Sys2Proof.Machine.execSuspendTimeout j s
  | .shortCommand origin dest fn c => Sys2Proof.Machine.execShortCommand origin dest fn c s
  | .commandResp sop status tag snonce seq hmac => Sys2Proof.Machine.execCommandResp sop status tag snonce seq hmac s
  | .shortRespTimeout tag => Sys2Proof.Machine.execShortRespTimeout tag s
  | .cspGo who n len => Sys2Proof.Machine.execCspGo who n len s
  | .cspXferDone n rx => Sys2Proof.Machine.execCspXferDone n rx s
  | .cspSlaveXfer n bits rx => Sys2Proof.Machine.execCspSlaveXfer n bits rx s
  | .cspCmdXfer n bits len => Sys2Proof.Machine.execCspCmdXfer n bits len s
  | .cspTxPush who n v => Sys2Proof.Machine.execCspTxPush who n v s
  | .cspRxPop who n => Sys2Proof.Machine.execCspRxPop who n s
  | .cspRxlenPop who n => Sys2Proof.Machine.execCspRxlenPop who n s
  | .pcSelWrite who c v => Sys2Proof.Machine.execPcSelWrite who c v s
  | .cntLoWrite who c v => Sys2Proof.Machine.execCntLoWrite who c v s
  | .cntHiWrite who c v => Sys2Proof.Machine.execCntHiWrite who c v s
  | .counterLoRead who ofs => Sys2Proof.Machine.execCounterLoRead who ofs s
  | .counterOvf c => Sys2Proof.Machine.execCounterOvf c s
  | .bwWindowEnd => Sys2Proof.Machine.execBwWindowEnd s
  | .snapNext who => Sys2Proof.Machine.execSnapNext who s
  | .snapAt who => Sys2Proof.Machine.execSnapAt who s
  | .freeze who => Sys2Proof.Machine.execFreeze who s
  | .unfreeze who => Sys2Proof.Machine.execUnfreeze who s
  | .snapshot => Sys2Proof.Machine.execSnapshot s
  | .unlockEnd => Sys2Proof.Machine.execUnlockEnd s
  | .dbgLock who => Sys2Proof.Machine.execDbgLock who s
  | .atestRoute who n v => Sys2Proof.Machine.execAtestRoute who n v s
  | .idcode => Sys2Proof.Machine.execIdcode s
  | .samplePreload => Sys2Proof.Machine.execSamplePreload s
  | .extest => Sys2Proof.Machine.execExtest s
  | .intest => Sys2Proof.Machine.execIntest s
  | .extestPulse => Sys2Proof.Machine.execExtestPulse s
  | .extestTrain => Sys2Proof.Machine.execExtestTrain s
  | .bypass => Sys2Proof.Machine.execBypass s
  | .debug => Sys2Proof.Machine.execDebug s
  | .debugHalt core eng apps => Sys2Proof.Machine.execDebugHalt core eng apps s
  | .debugResume => Sys2Proof.Machine.execDebugResume s
  | .laneAligned l => Sys2Proof.Machine.execLaneAligned l s
  | .lanternResetAssert => Sys2Proof.Machine.execLanternResetAssert s
  | .lanternSupplyChange ext harv => Sys2Proof.Machine.execLanternSupplyChange ext harv s
  | .ptpAnnounceMessage d => Sys2Proof.Machine.execPtpAnnounceMessage d s
  | .saStateChange plot g up => Sys2Proof.Machine.execSaStateChange plot g up s
  | .preloadComplete => Sys2Proof.Machine.execPreloadComplete s
  | .flashWriteComplete j => Sys2Proof.Machine.execFlashWriteComplete j s
  | .logDumpComplete j => Sys2Proof.Machine.execLogDumpComplete j s
  | .lsSigLoRead who k => Sys2Proof.Machine.execLsSigLoRead who k s

end Sys2Proof.Machine
end

