-- ==== Sys2Proof/Safety.lean ====
section
/-!
DEFINITION. Safety.lean: the terms in which claims speak: the canonical form of the register file, what a command answers, and what it leaves
as it was.
-/
namespace Sys2Proof.Machine

/-- Bit `n` of a register mask. -/
def hasBit (m n : Nat) : Bool := m.testBit n

/-- The register file is in its canonical form: addresses strictly rising, and no entry equal to its reset word. -/
def State.RegsOk (s : State) : Prop := Tab.wf resetWord s.regs = true

/-- The stores of the logs are within their size (R142, R145, R196). -/
def State.LogsOk (s : State) : Prop :=
  s.log.lanQ.length ≤ 8 ∧ s.log.ctrlQ.length ≤ 32 ∧ s.log.switchQ.length ≤ 32 ∧ s.log.ring.length ≤ 1024 ∧ s.clog.queue.length ≤ 64

/-- A command answers a next state. -/
def Answers (i : Instr) (s t : State) : Prop := exec i s = .next t

/-- Every register of the register space but those at some addresses is as it was. -/
def RegsKept (l : List Nat) (s t : State) : Prop := ∀ a, a ∉ l → t.reg a = s.reg a

/-- A register is as it was but for the bits of some fields. -/
def BitsKept (a : Nat) (l : List FRef) (s t : State) : Prop :=
  ∀ n, n < 32 → (∀ f ∈ l, n < f.lo ∨ f.hi < n) → (t.reg a).getLsbD n = (s.reg a).getLsbD n

/-- Every register of the register space is as it was but those that satisfy a test. -/
def RegsKeptBut (p : Nat → Bool) (s t : State) : Prop := ∀ a, p a = false → t.reg a = s.reg a

/-- The command answers a next state of which `p` holds. -/
def Does (c : Instr) (s : State) (p : State → Prop) : Prop := ∃ t, exec c s = .next t ∧ p t

/-- The access of an initiator comes to the register at an address (R42, R79, R105): its block has power and clock, and the initiator is not the
firmware on a core that is stalled. -/
abbrev Reaches (s : State) (i : Initiator) (a : Nat) : Prop := fwStalled s i = false ∧ accessFault s a = none

/-- An address is that of a member of a register array of `n` members. -/
def inArray (base stride n a : Nat) : Bool := decide (base ≤ a ∧ a < base + stride * n ∧ (a - base) % stride = 0)

/-- The registers that follow the sources of the trips: TL_STATUS, the status, sources, events and counts of the pairs, PWM_TRIPPED, the
gate-drive latches with their causes, counts and events, and DROPPED of LOG_STATUS where an entry finds its queue full (R145, R257,
R423, R446). -/
def tripReg (a : Nat) : Bool :=
  decide (a = Reg.LOG_STATUS) || decide (a = Reg.TL_STATUS)
    || inArray (Reg.PWM_STATUS 0) 0x80 72 a || inArray (Reg.PWM_TRIP_SRC 0) 0x80 72 a || inArray (Reg.PWM_EVENTS 0) 0x80 72 a
    || inArray (Reg.PWM_COUNT 0) 0x80 72 a || inArray (Reg.PWM_TRIPPED 0) 4 3 a
    || inArray (Reg.GDL_STATUS 0) 0x10 72 a || inArray (Reg.GDL_CAUSE 0) 0x10 72 a || inArray (Reg.GDL_COUNT 0) 0x10 72 a
    || decide (a = Reg.GDL_EN_STATUS) || decide (a = Reg.GDL_EVENTS) || inArray (Reg.GDL_LATCHED 0) 4 3 a

/-- The registers that a safety lockout follows beside those of the trips (R519, R522). -/
def lockReg (a : Nat) : Bool :=
  tripReg a || decide (a = Reg.SOUT_STATE) || decide (a = Reg.SOUT_WAIT) || decide (a = Reg.SAFE_STATUS) || decide (a = Reg.SAFE_CAUSE)
    || decide (a = Reg.SAFE_EVENTS) || decide (a = Reg.SAFE_COUNT)

/-- The registers whose write does more than the access codes of their fields say: those that carry a command, take a value at a later
moment, or have a further rule of their own. -/
def ruledReg (a : Nat) : Bool :=
  [Reg.LIFECYCLE, Reg.PWR_CTRL, Reg.DOM_REQ, Reg.SCHED_STATUS, Reg.SYNCE_CFG, Reg.HB_CTRL, Reg.LOG_CTRL, Reg.POWER_CFG, Reg.EXP_EPOCH, Reg.CS_GRID,
   Reg.CS_ROLE, Reg.CS_SPW, Reg.CS_TOKEN, Reg.WIN_CLR, Reg.WIN_CHK_CTRL, Reg.LE_BANK_CTRL, Reg.LE_SWAP_AT_LO, Reg.LE_SWAP_AT_HI,
   Reg.MTR_CMD, Reg.MTR_INT_CFG, Reg.PQ_FDB_CTRL, Reg.PC_CTRL].contains a
    || inArray (Reg.EXP_DIGEST 0) 4 4 a || decide (0x100000 ≤ a ∧ a < 0x120000) || decide (0x130000 ≤ a ∧ a < 0x138000)
    || inArray (Reg.WIN_DAC 0) 16 32 a || inArray (Reg.LE_REARM 0) 4 3 a
    || decide (0x150000 ≤ a ∧ a < 0x158000) || inArray (Reg.PWM_CLR 0) 4 3 a || inArray (Reg.PWM_FORCE 0) 4 3 a
    || inArray (Reg.PWM_HOLD 0) 4 3 a || inArray (Reg.PWM_DUTY 0) 0x80 72 a || inArray (Reg.PWM_PER 0) 0x80 72 a
    || (List.range 9).any (fun m => inArray (Reg.MTR_CAL_OFFS m 0) 4 24 a)
    || (List.range 64).any (fun p => inArray (Reg.PQ_POL_RATE p 0) 4 14 a)
    || (List.range 64).any (fun c => inArray (Reg.PC_SEL c) 4 3 a) || decide (0x680000 ≤ a ∧ a < 0x700000)
    || decide (0x710000 ≤ a ∧ a < 0x720000) || decide (0x780000 ≤ a) || inSafetyBlock a

/-- An address lies in one of some ranges (first address, and the first address past the end). -/
def within (l : List (Nat × Nat)) (a : Nat) : Bool := l.any (fun r => decide (r.1 ≤ a ∧ a < r.2))

/-- What hardly any command touches: the queue, the counted settings, the flash, the change log, and the count of free values taken; the
command counts as one cycle. -/
def StoresKept (s t : State) : Prop :=
  t.cycle = s.cycle + 1 ∧ t.pending = s.pending ∧ t.otp = s.otp ∧ t.flash = s.flash ∧ t.clog = s.clog ∧ t.freeIx = s.freeIx

/-- The command makes one entry of the trouble log, or counts it in DROPPED where its queue is full (R142, R145). -/
def Logged (source code datum : Nat) (s t : State) : Prop := t.log = ({ s with cycle := s.cycle + 1 }.logEv source code datum).log

/-- The 64-bit counters at addresses that do not satisfy a test are as they were. -/
def WideKept (p : Nat → Bool) (s t : State) : Prop := ∀ a, p a = false → t.wide a = s.wide a


/-- Every register that does not satisfy a test holds its reset word. -/
def RegsReset (p : Nat → Bool) (t : State) : Prop := ∀ a, p a = false → t.reg a = resetWord a

/-- A cell joins the cells that wait on group `g`: the planned ones, or the insertion queue, which drops it when it holds 64 (R590). -/
def Queues (body : CellBody) (g : Nat) (s t : State) : Prop :=
  ((t.cq g).planned.map (·.body), (t.cq g).queue.map (fun e => (e.1, e.2.body))) =
    (match cellPriority body with
     | none => ((s.cq g).planned.map (·.body) ++ [body], (s.cq g).queue.map (fun e => (e.1, e.2.body)))
     | some k => ((s.cq g).planned.map (·.body),
         if 64 ≤ (s.cq g).queue.length then (s.cq g).queue.map (fun e => (e.1, e.2.body))
         else (s.cq g).queue.map (fun e => (e.1, e.2.body)) ++ [(k, body)]))


/-- The registers of the main domain whose value after its reset is taken from what the reset leaves alone: its cause, the clocks, the
rails, the banks and the counted settings (R52, R71, R95, R115, R191, R199). -/
def resetTaken (a : Nat) : Bool :=
  [Reg.RESET_CAUSE, Reg.CLK_STATUS, Reg.RAIL_STATUS, Reg.IO_BANK_STATUS, Reg.CS_GRID, Reg.CS_ROLE, Reg.CS_SPW, Reg.CS_TOKEN, Reg.IMG_KEYS,
   Reg.LIFECYCLE].contains a

/-- It is the turn of slot `n` (R277, R278, R281, R282): the engine runs, the slot is due and has not completed in this tick, the steps
before it on its strand have, its "same tick" sources have, and it waits for no input in cycle `at'`. -/
def slotTurn (s : State) (n at' : Nat) : Bool :=
  engineRuns s && slotDue s n && !s.loop.slotDone.testBit n && earlierDone s (s.rd (Fld.SLOT_EXEC_STRAND n)) (s.rd (Fld.SLOT_EXEC_ORDER n))
    && [(s.rd (Fld.SLOT_SRC_FB_KIND n), s.rd (Fld.SLOT_SRC_FB_IDX n)), (s.rd (Fld.SLOT_SRC_SP_KIND n), s.rd (Fld.SLOT_SRC_SP_IDX n)),
        (s.rd (Fld.SLOT_EXEC_FF_KIND n), s.rd (Fld.SLOT_EXEC_FF_IDX n))].all (fun k => sameTickReady s k.1 k.2)
    && !slotWaits s n at'

/-- It is the turn of operator instance `k` (R277, R278, R281, R282). -/
def opTurn (s : State) (k at' : Nat) : Bool :=
  engineRuns s && opDue s k && !s.loop.opDone.testBit k && earlierDone s (s.rd (Fld.OP_CTL_STRAND k)) (s.rd (Fld.OP_CTL_ORDER k))
    && (opSources s k).all (fun f => sameTickReady s (f / 512) (f % 512)) && !opWaits s k at'

/-- The feedback, feed-forward and set-point of slot `n` as its step reads them (R285, R288). -/
def slotReads (s : State) (n : Nat) : Read × Read × Read :=
  let ow := s.rdB (Fld.SLOT_EXEC_OW_STALE n)
  let w := s.rd (Fld.SLOT_WAIT_WAIT_LIMIT n)
  (readSource s (s.rd (Fld.SLOT_SRC_FB_KIND n)) (s.rd (Fld.SLOT_SRC_FB_IDX n)) ow n w,
    readSource s (s.rd (Fld.SLOT_EXEC_FF_KIND n)) (s.rd (Fld.SLOT_EXEC_FF_IDX n)) ow n w,
    readSource s (s.rd (Fld.SLOT_SRC_SP_KIND n)) (s.rd (Fld.SLOT_SRC_SP_IDX n)) ow n w)

/-- The causes for which slot `n` is stale (R288, R296). -/
def slotCauses (s : State) (n : Nat) : Nat :=
  (slotReads s n).1.causes ||| (if s.rdB (Fld.SLOT_EXEC_FF_CHECK n) then (slotReads s n).2.1.causes else 0)

/-- Port `q` of operator instance `k` as a number (R319). -/
def portValue (t : State) (k q : Nat) : Int := wInt (t.reg (Reg.OP_OUT k q))

/-- The duty shadow of pair `p` as a number (R294). -/
def dutyValue (t : State) (p : Nat) : Int := wInt (t.reg (Reg.PWM_DUTY p))

/-- What the step of a stage leaves alone: everything but the stage's own registers, references and hidden part, and what follows the trips. -/
def StageFrame (g : Nat) (s t : State) : Prop :=
  t = { s with cycle := s.cycle + 1, regs := t.regs, log := t.log, perf := t.perf, out := t.out, stages := t.stages,
               pwm := { s.pwm with stageStop := t.pwm.stageStop, gridTrip := t.pwm.gridTrip }, loop := { s.loop with ports := t.loop.ports } } ∧
  (∀ h, h < 8 → h ≠ g → t.stage h = s.stage h) ∧
  (∀ n, n < 64 → n / 4 ≠ g → n ≠ 56 + g → Tab.get 0#32 t.loop.ports n = Tab.get 0#32 s.loop.ports n) ∧
  RegsKeptBut (fun a => tripReg a || [Reg.GST_STATUS g, Reg.GST_EVENTS g, Reg.GST_CTRL g, Reg.GST_REF g 0, Reg.GST_REF g 1, Reg.GST_REF g 2,
    Reg.GST_REF g 3].contains a) s t

/-- Stage `g` has entered a state (R339): STATE_EV is set, CONNECT has a value, and STAGE_STOP and GRID_TRIP on its pairs are those of it. -/
def StageIn (g st : Nat) (connect : Bool) (t : State) : Prop :=
  t.rd (Fld.GST_STATUS_STATE g) = st ∧ t.rdB (Fld.GST_STATUS_CONNECT g) = connect ∧ t.rd (Fld.GST_EVENTS_STATE_EV g) = 1 ∧
  (∀ p ∈ stagePairs t g, hasBit t.pwm.stageStop p = (decide (st ≤ 2) || (decide (st = 6) && (t.stage g).stopped)) ∧ hasBit t.pwm.gridTrip p = decide (7 ≤ st))

/-- A trip cause has taken stage `g` to TRIPPED or FAULT (R342). -/
def StageTripped (g cause : Nat) (t : State) : Prop :=
  StageIn g (if cause ≤ 6 then 7 else 8) false t ∧ t.rd (Fld.GST_STATUS_LAST_CAUSE g) = cause ∧ t.rd (Fld.GST_EVENTS_TRIP_EV g) = 1


/-- What a step of tracker `k` leaves alone: everything but the tracker's own registers, port and hidden part, and what follows the trips. -/
def TrackerFrame (k : Nat) (s t : State) : Prop :=
  t = { s with cycle := s.cycle + 1, regs := t.regs, log := t.log, perf := t.perf, out := t.out, trks := t.trks, freeIx := t.freeIx,
               pwm := { s.pwm with stageStop := t.pwm.stageStop, stringTrip := t.pwm.stringTrip }, loop := { s.loop with ports := t.loop.ports } } ∧
  (∀ h, h < 24 → h ≠ k → t.trk h = s.trk h) ∧ (∀ n, n < 64 → n ≠ 32 + k → Tab.get 0#32 t.loop.ports n = Tab.get 0#32 s.loop.ports n) ∧
  RegsKeptBut (fun a => tripReg a || [Reg.TRK_CTRL k, Reg.TRK_STATUS k, Reg.TRK_EVENTS k, Reg.TRK_V_REF k, Reg.TRK_V_MEAN k, Reg.TRK_I_MEAN k,
    Reg.TRK_P_MEAN k, Reg.TRK_V_BEST k, Reg.TRK_P_BEST k, Reg.TRK_COUNT k].contains a) s t

/-- Tracker `k` has entered a state (R362): STATE_EV is set, STAGE_STOP holds its pair in OFF and WAIT, and STRING_TRIP in FAULT. -/
def TrackerIn (k st : Nat) (t : State) : Prop :=
  t.rd (Fld.TRK_STATUS_STATE k) = st ∧ t.rd (Fld.TRK_EVENTS_STATE_EV k) = 1 ∧
  hasBit t.pwm.stageStop (t.rd (Fld.TRK_CFG_PAIR k)) = decide (st ≤ 1) ∧ hasBit t.pwm.stringTrip (t.rd (Fld.TRK_CFG_PAIR k)) = decide (st = 7)

/-- A fault has taken tracker `k` to FAULT (R365). -/
def TrackerFaulted (k cause : Nat) (t : State) : Prop :=
  TrackerIn k 7 t ∧ t.rd (Fld.TRK_STATUS_LAST_CAUSE k) = cause ∧ t.rd (Fld.TRK_EVENTS_FAULT_EV k) = 1

/-- The port of tracker `k` carries a value, which V_REF shows (R358, R377). -/
def TrackerRefers (k : Nat) (v : Int) (t : State) : Prop :=
  t.reg (Reg.TRK_V_REF k) = intW v ∧ Tab.get 0#32 t.loop.ports (32 + k) = intW v

/-- The registers that follow the insertion of a control cell: the counts of its queues (R590), and LOG_STATUS. -/
def cellReg (a : Nat) : Bool :=
  decide (a = Reg.LOG_STATUS) || decide (a = Reg.PQ_CTL_STATUS) || (List.range 4).any (fun g => decide (a = Reg.PQ_CTL_CNT1 g))

/-- A disconnect cause has acted (R388, R390): it comes into force as LAST_CAUSE with DISC_EV, or, with a disconnect in force, is only logged. -/
def DisconnectActs (cause anchor : Nat) (s t : State) : Prop :=
  t.rd Fld.ISL_STATUS_DISC = 1 ∧
  t.rd Fld.ISL_STATUS_LAST_CAUSE = (if s.rd Fld.ISL_STATUS_DISC = 0 then cause else s.rd Fld.ISL_STATUS_LAST_CAUSE) ∧
  (s.rd Fld.ISL_STATUS_DISC = 0 → t.rd Fld.ISL_EVENTS_DISC_EV = 1) ∧
  Logged 0x15 1 (cause + 256 * anchor + (if s.rd Fld.ISL_STATUS_DISC = 0 then 0 else 512)) s t

/-- Pair `p` has met its sources, with the pulse sources `pulse` of this cycle (R421, R423): a latching source trips a pair in RUN, hold or ARMED
and records what is asserted; a TRIPPED pair adds to TRIP_SRC; a cycle-by-cycle line holds a running pair; else the pair is as it was. -/
def PairSettled (pulse p : Nat) (s t : State) : Prop :=
  let st := s.rd (Fld.PWM_STATUS_STATE p)
  let live := tripLive pulse t p
  let src := live &&& latchingMask t p
  if st = 3 then
    t.rd (Fld.PWM_STATUS_STATE p) = 3 ∧ t.rd (Fld.PWM_TRIP_SRC p) = s.rd (Fld.PWM_TRIP_SRC p) ||| src ∧
    t.reg (Reg.PWM_STATUS p) = s.reg (Reg.PWM_STATUS p) ∧ t.rd (Fld.PWM_COUNT_TRIPS p) = s.rd (Fld.PWM_COUNT_TRIPS p)
  else if (st = 1 ∨ st = 2 ∨ st = 4) ∧ src ≠ 0 then
    t.rd (Fld.PWM_STATUS_STATE p) = 3 ∧ t.rd (Fld.PWM_TRIP_SRC p) = src ∧ t.rd (Fld.PWM_STATUS_FIRST_SRC p) = lowestBit src ∧
    t.rd (Fld.PWM_STATUS_FIRST_VALID p) = 1 ∧ t.rd (Fld.PWM_EVENTS_TRIP_EV p) = 1 ∧ t.rd (Fld.PWM_STATUS_OUT_H p) = 0 ∧
    t.rd (Fld.PWM_STATUS_OUT_L p) = 0 ∧ t.rd (Fld.PWM_COUNT_TRIPS p) = min (s.rd (Fld.PWM_COUNT_TRIPS p) + 1) 0xFFFF ∧
    t.mapBit Fld.PWM_TRIPPED p = true
  else if st = 1 ∧ live &&& cycleMask t p ≠ 0 then
    t.rd (Fld.PWM_STATUS_STATE p) = 2 ∧ t.rd (Fld.PWM_EVENTS_CYC_EV p) = 1 ∧ t.rd (Fld.PWM_STATUS_OUT_H p) = 0 ∧
    t.rd (Fld.PWM_STATUS_OUT_L p) = 0 ∧ t.rd (Fld.PWM_COUNT_CYC_HOLDS p) = min (s.rd (Fld.PWM_COUNT_CYC_HOLDS p) + 1) 0xFFFF ∧
    t.reg (Reg.PWM_TRIP_SRC p) = s.reg (Reg.PWM_TRIP_SRC p)
  else t.reg (Reg.PWM_STATUS p) = s.reg (Reg.PWM_STATUS p) ∧ t.reg (Reg.PWM_TRIP_SRC p) = s.reg (Reg.PWM_TRIP_SRC p) ∧
    t.reg (Reg.PWM_EVENTS p) = s.reg (Reg.PWM_EVENTS p) ∧ t.reg (Reg.PWM_COUNT p) = s.reg (Reg.PWM_COUNT p)

/-- The gate-drive latch of pair `p` has met its causes (R445, R446): a cause sets the latch of a watched pair, with FIRST_CAUSE and FAULTS, or is
added to CAUSE while it is set. -/
def LatchSettled (p : Nat) (s t : State) : Prop :=
  let causes := gateCauses true t p
  if watched t p = false then t.rd (Fld.GDL_STATUS_LATCHED p) = s.rd (Fld.GDL_STATUS_LATCHED p) ∧ t.reg (Reg.GDL_CAUSE p) = s.reg (Reg.GDL_CAUSE p)
  else if s.rd (Fld.GDL_STATUS_LATCHED p) = 1 then
    t.rd (Fld.GDL_STATUS_LATCHED p) = 1 ∧ t.rd (Fld.GDL_CAUSE_CAUSE p) = s.rd (Fld.GDL_CAUSE_CAUSE p) ||| causes ∧
    t.rd (Fld.GDL_STATUS_FIRST_CAUSE p) = s.rd (Fld.GDL_STATUS_FIRST_CAUSE p) ∧ t.rd (Fld.GDL_COUNT_FAULTS p) = s.rd (Fld.GDL_COUNT_FAULTS p)
  else if causes ≠ 0 then
    t.rd (Fld.GDL_STATUS_LATCHED p) = 1 ∧ t.rd (Fld.GDL_CAUSE_CAUSE p) = causes ∧ t.rd (Fld.GDL_STATUS_FIRST_CAUSE p) = lowestBit causes ∧
    t.rd (Fld.GDL_COUNT_FAULTS p) = min (s.rd (Fld.GDL_COUNT_FAULTS p) + 1) 0xFF ∧ t.rd Fld.GDL_EVENTS_FAULT_EV = 1 ∧ t.mapBit Fld.GDL_LATCHED p = true
  else t.rd (Fld.GDL_STATUS_LATCHED p) = 0 ∧ t.reg (Reg.GDL_CAUSE p) = s.reg (Reg.GDL_CAUSE p)

/-- The latches and the pairs have met their sources, of which GD_FAULT is one, and no pulse source is asserted. -/
def AllSettled (s t : State) : Prop := ∀ p, p < 72 → PairSettled 0 p s t ∧ LatchSettled p s t

/-- A lockout cause has acted (R522), but for the outputs: LOCKED is 1; at an entry FIRST_CAUSE, LATCHED, LOCK_EV and LOCKOUTS are those of the
cause, and in a lockout it joins LATCHED; the pairs are settled with SAFE_LOCK as a source. -/
def Locks (cause : Nat) (s t : State) : Prop :=
  t.rd Fld.SAFE_STATUS_LOCKED = 1 ∧ t.rd Fld.SAFE_CAUSE_PENDING = pendingCauses t ∧ t.safe.arisen.1 = s.fn ∧ hasBit t.safe.arisen.2 cause = true ∧
  (if s.rd Fld.SAFE_STATUS_LOCKED = 0 then
    t.rd Fld.SAFE_STATUS_FIRST_CAUSE = cause ∧ t.rd Fld.SAFE_CAUSE_LATCHED = 2 ^ cause ∧ t.rd Fld.SAFE_EVENTS_LOCK_EV = 1 ∧
    t.rd Fld.SAFE_COUNT_LOCKOUTS = min (s.rd Fld.SAFE_COUNT_LOCKOUTS + 1) 0xFFFF
   else t.rd Fld.SAFE_STATUS_FIRST_CAUSE = s.rd Fld.SAFE_STATUS_FIRST_CAUSE ∧
    t.rd Fld.SAFE_CAUSE_LATCHED = s.rd Fld.SAFE_CAUSE_LATCHED ||| 2 ^ cause ∧ t.reg Reg.SAFE_COUNT = s.reg Reg.SAFE_COUNT) ∧
  AllSettled s t

/-- Every safety output is off (R519). -/
def OutputsOff (t : State) : Prop := t.rd Fld.SOUT_STATE_ON = 0 ∧ t.rd Fld.SOUT_WAIT_ALLOW = 0

/-- A lockout cause has acted (R522): every output is off, but in a test-stand halt, where the causes other than 7 to 10 leave them (R59). -/
def LockedOut (cause : Nat) (s t : State) : Prop :=
  Locks cause s t ∧
  (if standHalt s && !([7, 8, 9, 10].contains cause) then t.reg Reg.SOUT_STATE = s.reg Reg.SOUT_STATE ∧ t.reg Reg.SOUT_WAIT = s.reg Reg.SOUT_WAIT
   else OutputsOff t)

/-- A mismatch of the lockstep core has acted (R472): it is held in reset, its changes are discarded, LOCKSTEP trips the pairs, and the safety I/O
is in lockout for a cause. -/
def CoreMade (cause : Nat) (s t : State) : Prop :=
  t.rd Fld.LS_STATUS_CORE_STATE = 2 ∧ t.ls = { s.ls with coreHeld := true, trip := true, changes := [], sig := t.ls.sig, coreCut := t.ls.coreCut, engCut := t.ls.engCut, auto := t.ls.auto } ∧
  Locks cause s t ∧ OutputsOff t

/-- LS_MM_INFO after a mismatch of a unit (R484): the first since the main-domain reset is recorded. -/
def MismatchNoted (unit : Nat) (direct ab : Bool) (at' : Nat) (s t : State) : Prop :=
  if s.rd Fld.LS_MM_INFO_VALID = 1 then t.reg Reg.LS_MM_INFO = s.reg Reg.LS_MM_INFO
  else t.rd Fld.LS_MM_INFO_VALID = 1 ∧ t.rd Fld.LS_MM_INFO_UNIT = unit ∧ t.rdB Fld.LS_MM_INFO_DIRECT = direct ∧ t.rdB Fld.LS_MM_INFO_AB = ab ∧
    t.rd Fld.LS_MM_INFO_CYCLE = at' % 2 ^ 13

/-- The registers of the rings (R559, R561 to R565), the squelch bits that follow their lanes (R119), and those that follow the cells sent. -/
def ringReg (a : Nat) : Bool :=
  cellReg a || [Reg.RG_RING_CTRL, Reg.RG_RING_STATUS, Reg.RG_RING_EVENTS, Reg.SYNCE_CFG].contains a || inArray (Reg.RG_GROUP_STATUS 0) 4 4 a
    || inArray (Reg.RG_BREAK 0 0) 4 16 a || inArray (Reg.RG_BREAK 1 0) 4 16 a || inArray (Reg.RG_LANE_STATUS 0) 0x10 128 a

/-- What an event of a ring leaves alone: everything but the rings, the control cells, the logs and their registers. -/
def RingFrame (s t : State) : Prop :=
  t = { s with cycle := s.cycle + 1, regs := t.regs, log := t.log, ring := t.ring, ctl := t.ctl } ∧ RegsKeptBut ringReg s t

/-- Ring `r` is in an INS_STATE, with its hold requested as the table of R550 says. -/
def RingIn (r st : Nat) (t : State) : Prop :=
  t.rd (insField r) = st ∧ t.rdB (holdReqField r) = decide (2 ≤ st ∧ st ≤ 5) ∧ (t.ins r).since = 0

/-- The other ring is as it was. -/
def OtherRingKept (r : Nat) (s t : State) : Prop :=
  t.ins (1 - r) = s.ins (1 - r) ∧ t.rd (insField (1 - r)) = s.rd (insField (1 - r)) ∧ t.rdB (holdReqField (1 - r)) = s.rdB (holdReqField (1 - r)) ∧
  (∀ g, g < 4 → g / 2 ≠ r → t.reg (Reg.RG_GROUP_STATUS g) = s.reg (Reg.RG_GROUP_STATUS g))

/-- The break list of ring `r` holds a span with these flags, beside the other spans as they were, and its registers show it (R548, R565);
the groups of the other ring that are drowsing or drowsed wake (R556). -/
def BreakHeld (r span : Nat) (planned drowse : Bool) (s t : State) : Prop :=
  (t.ins r).breaks.any (fun b => b.span == span && (b.planned || !planned) && (b.drowse || !drowse)) = true ∧
  (t.ins r).breaks.filter (fun b => b.span != span) = (s.ins r).breaks.filter (fun b => b.span != span) ∧
  (∀ i, i < 16 → t.reg (Reg.RG_BREAK r i) = ((t.ins r).breaks[i]?).elim 0#32 breakWord) ∧
  ((s.ins r).breaks.any (fun b => b.span == span) = false → t.rd Fld.RG_RING_EVENTS_BREAK_EV = 1) ∧
  (∀ g, g < 4 → g / 2 ≠ r → (groupState s g = 5 ∨ groupState s g = 6) → groupState t g = 7)

/-- The break list of ring `r` has lost a span, and its registers show it (R549). -/
def BreakHealed (r span : Nat) (s t : State) : Prop :=
  (t.ins r).breaks = (s.ins r).breaks.filter (fun b => b.span != span) ∧
  (∀ i, i < 16 → t.reg (Reg.RG_BREAK r i) = ((t.ins r).breaks[i]?).elim 0#32 breakWord)

/-- Lanes 1 to 15 of group `g` are in a state, and the lanes of every other group are as they were. -/
def SideLanes (g st : Nat) (s t : State) : Prop :=
  (∀ k, k < 15 → t.rd (Fld.RG_LANE_STATUS_STATE (16 * g + 1 + k)) = st) ∧
  (∀ l, l < 128 → l / 16 ≠ g → t.reg (Reg.RG_LANE_STATUS l) = s.reg (Reg.RG_LANE_STATUS l))

/-- Group `g` takes a cell for its neighbour, and no other group does. -/
def CellFor (body : CellBody) (g : Nat) (s t : State) : Prop := Queues body g s t ∧ ∀ h, h < 4 → h ≠ g → t.cq h = s.cq h

/-- A command of a session comes as far as its own checks (R607, R610, R612, R617): it is served and authentic, its tag is free, the part is in
a state that the command's row names (`noImg`: NoImg too), and there is room for it. -/
def CommandReady (h : Hdr) (noImg : Bool) (s : State) : Prop :=
  serves h s = true ∧ authentic h s = true ∧ tagInFlight s h.tag.toNat = false ∧ stateNamed noImg s = true ∧
  bucketEmpty s h.session.toNat = false ∧ tagsFull s = false

/-- An authentic command has been accepted (R607, R616, R638). -/
def CommandTaken (h : Hdr) (s t : State) : Prop :=
  t.rd Fld.CE_COUNT_ACCEPTED = min (s.rd Fld.CE_COUNT_ACCEPTED + 1) 0xFFFF ∧ (t.sess h.session.toNat).seqIn = h.seq.toNat ∧
  (t.sess h.session.toNat).idle = 0 ∧ (t.sess h.session.toNat).rejects = 0

/-- The last thing to leave over a transport is a response (R606, R634): on a serial port it waits in the port's queue. -/
def Delivered (transport : Nat) (r : Response) (t : State) : Prop :=
  if 2 ≤ transport ∧ transport ≤ 4 then (t.cspOf (transport - 1)).responses.getLast? = some r else t.out.getLast? = some (.response transport r)

/-- The response that session `k` gives next (R606, R607): under its next SEQ and with the MAC under its key. -/
def nextResponse (k opcode tag status : Nat) (final : Bool) (data : List Byte) (s : State) : Response :=
  let r : Response := { session := k, opcode := opcode, tag := tag, status := status, final := final, more := false,
                        seq := (s.sess k).seqOut + 1, data := data, mac := 0 }
  { r with mac := Config.hmac256 (s.sess k).key (responseBytes r) }

/-- The session of a command is answered with a status and data over its transport (R608). -/
def Responds (h : Hdr) (opcode : Nat) (status : Status) (data : List Byte) (s t : State) : Prop :=
  Delivered (s.rd (Fld.CE_SESS_TRANSPORT h.session.toNat)) (nextResponse h.session.toNat opcode h.tag.toNat status.code true data s) t

/-- What every command of a session may change: its session, the counts, and what leaves the part. -/
def commandBase (s t : State) : State :=
  { s with cycle := s.cycle + 1, regs := t.regs, out := t.out, csp := t.csp, perf := t.perf, eng := { s.eng with sess := t.eng.sess, quiet := 0 },
           img := { s.img with alertLeft := t.img.alertLeft, alerted := t.img.alerted } }

/-- The registers that every command of a session may change: its session's and the counts. -/
def commandReg (h : Hdr) (a : Nat) : Bool := decide (a = Reg.CE_COUNT) || decide (a = Reg.CE_SESS h.session.toNat)

/-- A long command has been taken up (R608, R623, R624): entry `j` of the operation table is QUEUED with its operation, and the session has its
first response. -/
def LongTaken (h : Hdr) (j : Nat) (o : LongOp) (s t : State) : Prop :=
  CommandTaken h s t ∧ t.rd (Fld.CE_OP_VALID j) = 1 ∧ t.rd (Fld.CE_OP_STATE j) = 0 ∧ t.rd (Fld.CE_OP_OPCODE j) = o.opcode % 256 ∧
  t.rd (Fld.CE_OP_TAG j) = h.tag.toNat ∧ t.rd (Fld.CE_OP2_SESSION j) = h.session.toNat ∧ t.rd (Fld.CE_OP2_PROGRESS j) = 0 ∧ t.op j = some o ∧
  (∀ i, i < 16 → i ≠ j → t.op i = s.op i ∧ t.reg (Reg.CE_OP i) = s.reg (Reg.CE_OP i)) ∧
  Delivered (s.rd (Fld.CE_SESS_TRANSPORT h.session.toNat)) (nextResponse h.session.toNat o.opcode h.tag.toNat 0 false [] s) t ∧
  t.otp = s.otp ∧ t.flash = s.flash ∧ t.clog = s.clog

/-- Operation `j` is final (R608, R623): its state and status, and the last response to its session where that is open. -/
def OpEnded (j state status : Nat) (t : State) : Prop :=
  t.rd (Fld.CE_OP_STATE j) = state ∧ t.rd (Fld.CE_OP_STATUS j) = status ∧ opLive t j = false

/-- The other operations are as they were. -/
def OtherOpsKept (j : Nat) (s t : State) : Prop := ∀ i, i < 16 → i ≠ j → t.op i = s.op i ∧ t.reg (Reg.CE_OP i) = s.reg (Reg.CE_OP i)

/-- What a plot command of a session does (R593, R618, R628, R629): at this node it waits for the frame tick and is answered, or answers BAD_ARG where
it names no access port here; to all nodes it is also flooded; to another node its short form goes out on every UP group, and the session's
answer waits for the response. -/
def PlotCommandTaken (h : Hdr) (dest sop arg0 arg1 : Nat) (s t : State) : Prop :=
  let here := decide (sop < 0x73) || accessPort s arg0
  let short : ShortCmd := ⟨sop, 1, h.session.toNat, h.tag.toNat, (s.sess h.session.toNat).snonce, h.seq.toNat, arg0, arg1, 0⟩
  let mine := decide (dest = nodeNo s) || decide (dest = 0x3FF)
  CommandTaken h s t ∧
  t.ctl.plotCmds = s.ctl.plotCmds ++ (if mine && here then [⟨sop, arg0, arg1⟩] else []) ∧
  (mine = true → Responds h sop (if here then .ok else .badArg) [] s t ∧ t.eng.waits = s.eng.waits) ∧
  (mine = false → t.eng.waits = s.eng.waits ++ [⟨h.session.toNat, h.tag.toNat, sop, h.seq.toNat, 0⟩] ∧ t.out = s.out ∧ t.csp = s.csp) ∧
  (∀ g, g < 4 → if groupState s g = 3 ∧ dest ≠ nodeNo s then Queues (.command short) g s t else t.cq g = s.cq g) ∧
  t = { commandBase s t with log := t.log, ctl := t.ctl, eng := { s.eng with sess := t.eng.sess, quiet := 0, waits := t.eng.waits } }

end Sys2Proof.Machine
end

