-- ==== Sys2Proof/Certificates/Slice0/Obligations.lean ====
section
/-!
DEFINITION. Certificates/Slice0/Obligations.lean: the statements for the provers, chapter by chapter of the spec. `Does c s p` says that command
`c` answers a next state at `s` and that `p` holds of it.
-/
open Sys2Proof Sys2Proof.Machine

/-- The block takes its commands first in, first out: a step runs the command at the front of the queue on the state with the rest of the queue, and on an
empty queue the block idles (the order of the queue and the idling are the model's own choices, log entries 3 and 9). -/
def Obligations.StepRunsTheFrontCommand : Prop :=
  (∀ (s : State) (c : Instr) (rest : List Instr), step { s with pending := c :: rest } = exec c { s with pending := rest }) ∧
  (∀ (s : State), step { s with pending := [] } = .next { s with pending := [] })

/-- R3, R41, R42, R43, R79, R105: a register access that reaches no register. One of another width than 32 bits or unaligned has no effect, answers BAD_ARG and
is logged; so is one to an address where no register lies, which reads zero; one to a block whose domain is off ends with DOMAIN_OFF and
STATE_CONFLICT, one to a block whose clock is lost with a bus error; the firmware of a stalled APP0 makes none; a write to a safety block by one who
may not is logged and answers DENIED. In every case no register but the log's DROPPED changes. -/
def Obligations.AccessRefused : Prop :=
  (∀ (s : State) (i : Initiator) (a v : Word) (size : Nat), size ≠ 4 ∨ a.toNat % 4 ≠ 0 →
    (Does (.registerWrite i a size v) s fun t =>
      t = { (s.logEv 0x01 0x0001 a.toNat) with cycle := s.cycle + 1, log := t.log, bus := ⟨0#32, .done, .badArg⟩ } ∧
      RegsKept [Reg.LOG_STATUS] s t) ∧
    (Does (.rcFieldRead i a size) s fun t =>
      t = { (s.logEv 0x01 0x0001 a.toNat) with cycle := s.cycle + 1, log := t.log, bus := ⟨0#32, .done, .badArg⟩ } ∧
      RegsKept [Reg.LOG_STATUS] s t)) ∧
  (∀ (s : State) (i : Initiator) (a v : Word), a.toNat % 4 = 0 → decoded a.toNat = false →
    (Does (.registerWrite i a 4 v) s fun t =>
      t = { (s.logEv 0x01 0x0002 a.toNat) with cycle := s.cycle + 1, log := t.log, bus := ⟨0#32, .done, .badArg⟩ } ∧
      RegsKept [Reg.LOG_STATUS] s t) ∧
    (Does (.rcFieldRead i a 4) s fun t =>
      t = { (s.logEv 0x01 0x0002 a.toNat) with cycle := s.cycle + 1, log := t.log, bus := ⟨0#32, .done, .badArg⟩ } ∧
      RegsKept [Reg.LOG_STATUS] s t)) ∧
  (∀ (s : State) (i : Initiator) (a v : Word), a.toNat % 4 = 0 → decoded a.toNat = true → fwStalled s i = true →
    (Does (.registerWrite i a 4 v) s fun t => t = { s with cycle := s.cycle + 1 }) ∧
    (Does (.rcFieldRead i a 4) s fun t => t = { s with cycle := s.cycle + 1 })) ∧
  (∀ (s : State) (i : Initiator) (a v : Word) (k : BusKind) (st : Status), a.toNat % 4 = 0 → decoded a.toNat = true → fwStalled s i = false →
    accessFault s a.toNat = some (k, st) →
    (Does (.registerWrite i a 4 v) s fun t => t = { s with cycle := s.cycle + 1, bus := ⟨0#32, k, st⟩ }) ∧
    (Does (.rcFieldRead i a 4) s fun t => t = { s with cycle := s.cycle + 1, bus := ⟨0#32, k, st⟩ })) ∧
  (∀ (s : State) (i : Initiator) (a v : Word), a.toNat % 4 = 0 → decoded a.toNat = true → Reaches s i a.toNat →
    inSafetyBlock a.toNat = true → mayWriteSafety s i = false →
    Does (.registerWrite i a 4 v) s fun t =>
      t = { (s.logEv 0x01 0x0004 a.toNat) with cycle := s.cycle + 1, log := t.log, bus := ⟨0#32, .done, .denied⟩ } ∧
      RegsKept [Reg.LOG_STATUS] s t)

/-- R4 to R6, R8, R194: A write of a register that has no further rule. Where a locked RWL field would change, the whole word is refused with DENIED and
LOCKED_WRITE. Else each RW and RWS bit, and each RWL bit while it is unlocked, takes the bit written; a W1C bit written with 1 clears and a W1S bit
written with 1 sets; every other bit of the register keeps, and so does every other register but, where an unlocked RWL field changes, the count of
the change queue, which then holds one more entry; with a full change queue such a write answers BUSY and changes nothing (R196). A read of a register
with RC bits and no FIFO behind it (the serial ports have rows of their own) answers the word with its WO bits as zero (zero whole for a port
register of no used port), and its RC bits are clear
after it; nothing else changes. Every write and every read completes, whatever the register: neither touches the queue, the counted settings or the
flash; one that comes to a register is answered by it; and a write or a read of a register that has a row of its own does exactly what that row
does. -/
def Obligations.RegisterAccess : Prop :=
  (∀ (s : State) (i : Initiator) (a v : Word) (d : RegDesc), a.toNat % 4 = 0 → descOf a.toNat = some d → ruledReg a.toNat = false →
    Reaches s i a.toNat → mayWrite s i a.toNat = true →
    lockedChange d (unlockedBy d.unlock s i a.toNat) (s.reg a.toNat) v = true →
    Does (.registerWrite i a 4 v) s fun t =>
      t = { (s.logEv 0x01 0x0003 a.toNat) with cycle := s.cycle + 1, log := t.log, bus := ⟨0#32, .done, .denied⟩ } ∧
      RegsKept [Reg.LOG_STATUS] s t) ∧
  (∀ (s : State) (i : Initiator) (a v : Word) (d : RegDesc), a.toNat % 4 = 0 → descOf a.toNat = some d → ruledReg a.toNat = false →
    Reaches s i a.toNat → mayWrite s i a.toNat = true →
    let o := unlockedBy d.unlock s i a.toNat
    lockedChange d o (s.reg a.toNat) v = false → (effectiveLocked d o (s.reg a.toNat) v = true → s.clogFull = false) →
    Does (.registerWrite i a 4 v) s fun t =>
      (∀ n, n < 32 → (t.reg a.toNat).getLsbD n =
        (if hasBit d.w1s n && v.getLsbD n then true
         else if hasBit d.rw n || hasBit d.rws n || (hasBit d.rwl n && o) then v.getLsbD n
         else if hasBit d.w1c n then (s.reg a.toNat).getLsbD n && !v.getLsbD n
         else (s.reg a.toNat).getLsbD n)) ∧
      t.bus = ⟨0#32, .done, .ok⟩ ∧
      (if effectiveLocked d o (s.reg a.toNat) v then
        t.clog.queue.length = s.clog.queue.length + 1 ∧ RegsKept [a.toNat, Reg.CLOG_STATUS] s t ∧
        t = { s with cycle := s.cycle + 1, regs := t.regs, clog := t.clog, bus := t.bus }
       else RegsKept [a.toNat] s t ∧ t = { s with cycle := s.cycle + 1, regs := t.regs, bus := t.bus })) ∧
  (∀ (s : State) (i : Initiator) (a v : Word) (d : RegDesc), a.toNat % 4 = 0 → descOf a.toNat = some d → ruledReg a.toNat = false →
    Reaches s i a.toNat → mayWrite s i a.toNat = true → s.clogFull = true →
    effectiveLocked d (unlockedBy d.unlock s i a.toNat) (s.reg a.toNat) v = true →
    Does (.registerWrite i a 4 v) s fun t => t = { s with cycle := s.cycle + 1, bus := ⟨0#32, .done, .busy⟩ }) ∧
  (∀ (s : State) (i : Initiator) (a : Word) (d : RegDesc), a.toNat % 4 = 0 → descOf a.toNat = some d →
    Reaches s i a.toNat → mayRead s i a.toNat = true → d.rc ≠ 0 → ¬ (0x680000 ≤ a.toNat ∧ a.toNat < 0x700000) →
    Does (.rcFieldRead i a 4) s fun t =>
      t.bus.kind = .done ∧ t.bus.status = .ok ∧
      (∀ n, n < 32 → t.bus.value.getLsbD n = ((s.reg a.toNat).getLsbD n && !hasBit d.wo n && !(a.toNat == Reg.ISL_PUB && !s.rdB Fld.CS_ROLE_ROLE_IN_FORCE) && !noPort s a.toNat)) ∧
      (∀ n, n < 32 → (t.reg a.toNat).getLsbD n = ((s.reg a.toNat).getLsbD n && !hasBit d.rc n)) ∧
      t = { s with cycle := s.cycle + 1, regs := t.regs, bus := t.bus } ∧ RegsKept [a.toNat] s t) ∧
  (∀ (s : State) (i : Initiator) (a : Word) (size : Nat) (v : Word),
    (Does (.registerWrite i a size v) s fun t =>
      t.cycle = s.cycle + 1 ∧ t.pending = s.pending ∧ t.otp = s.otp ∧ t.flash = s.flash ∧
      (Reaches s i a.toNat → size = 4 → a.toNat % 4 = 0 → decoded a.toNat = true → t.bus.kind = .done)) ∧
    (Does (.rcFieldRead i a size) s fun t =>
      t.cycle = s.cycle + 1 ∧ t.pending = s.pending ∧ t.otp = s.otp ∧ t.flash = s.flash ∧ t.log.ring = s.log.ring ∧
      (Reaches s i a.toNat → size = 4 → a.toNat % 4 = 0 → decoded a.toNat = true → t.bus.kind = .done))) ∧
  (∀ (s : State) (i : Initiator) (v : Word) (c : Fin 40) (b : Fin 3) (k : Fin 64) (p : Fin 64) (q : Fin 6) (r : Fin 2),
    let same : Nat → Instr → Prop := fun a c => Does (.registerWrite i (BitVec.ofNat 32 a) 4 v) s fun t => exec c s = .next t
    same Reg.WIN_CLR (.winClr i v) ∧ same Reg.WIN_CHK_CTRL (.winChkStart i v) ∧ same (Reg.LE_REARM b) (.rearm i b v) ∧
    same (Reg.PWM_CLR b) (.pwmClr i b v) ∧ same (Reg.PWM_FORCE b) (.pwmForce i b v) ∧ same (Reg.ADC_SW_TRIG c) (.adcSwTrig i c v) ∧
    same (Reg.ADC_URG_REQ c) (.urgentRequest i c v) ∧ same (Reg.EXP_DIGEST 3) (.expDigestCommit i v) ∧
    same Reg.MTR_INT_CFG (.intLenWrite i v) ∧ same Reg.LS_TEST (.lsTest i v) ∧ same Reg.SAFE_CTRL (.safeTrip i v) ∧
    same (Reg.CSP_TXDATA (1 + r.val)) (.cspTxPush i (Fin.ofNat 4 (1 + r.val)) v) ∧ same (Reg.PC_SEL k) (.pcSelWrite i k v) ∧
    same (Reg.PC_CNT_LO k) (.cntLoWrite i k v) ∧ same (Reg.PC_CNT_HI k) (.cntHiWrite i k v) ∧ same (Reg.DBG_ATEST_SEL r) (.atestRoute i r v) ∧
    same (Reg.PQ_POL_RATE p q) (.policerUpdate i p q false v) ∧ same (Reg.PQ_POL_BURST p q) (.policerUpdate i p q true v)) ∧
  (∀ (s : State) (i : Initiator) (j : Fin 512) (n : Fin 4) (k : Fin 2048) (ofs : BitVec 17),
    let same : Nat → Instr → Prop := fun a c => Does (.rcFieldRead i (BitVec.ofNat 32 a) 4) s fun t => exec c s = .next t
    same Reg.RTC_LO (.rtcRead i) ∧ same (Reg.LOG_E 0) (.logEntryRead i) ∧ same (Reg.SEC_S1_LO j) (.secStateRead i j) ∧
    same (sigLo n) (.lsSigLoRead i n) ∧ same (Reg.CSP_RXDATA n) (.cspRxPop i n) ∧ same (Reg.CSP_RXLEN n) (.cspRxlenPop i n) ∧
    (isMeterLo (0x200000 + 4 * k) = true → same (0x200000 + 4 * k) (.meterLoRead i k)) ∧
    (isCounterLo (0x700000 + ofs.toNat) = true → same (0x700000 + ofs.toNat) (.counterLoRead i ofs)))

/-- R15, R19, R20: a frame tick takes ring time one frame further and begins the frame's control ticks anew; the commands that wait, the counted settings,
the flash and the change log stay as they are. A control tick of a part whose ticks run makes the next tick of the frame the current one. -/
def Obligations.TicksAdvance : Prop :=
  (∀ (s : State) (sinA sinB : BitVec 32) (srb : BitVec 16) (ack : Bool), s.mainOn = true →
    Does (.frameTick sinA sinB srb ack) s fun t =>
      t.time.rt = (s.time.rt + 20000) % rtModulus ∧ (s.time.rt + 20000 < 2 ^ 64 → t.fn = (s.fn + 1) % 2 ^ 48) ∧ t.time.nextTick = 0 ∧
      t.cycle = s.cycle + 1 ∧ t.pending = s.pending ∧ t.otp = s.otp ∧ t.flash = s.flash ∧ t.clog = s.clog) ∧
  (∀ (s : State), ticksRun s = true → s.time.nextTick < ticksPerFrame s →
    Does .controlTick s fun t =>
      t.rd Fld.SCHED_STATUS_TICK_IDX = s.time.nextTick % 4 ∧ t.time = { s.time with nextTick := s.time.nextTick + 1 } ∧
      t.loop.tick = s.fn * ticksPerFrame s + s.time.nextTick ∧
      t.cycle = s.cycle + 1 ∧ t.pending = s.pending ∧ t.otp = s.otp ∧ t.flash = s.flash ∧ t.clog = s.clog ∧ t.img = s.img ∧
      t.eng = s.eng ∧ t.ring = s.ring ∧ t.plots = s.plots ∧ t.pwr = s.pwr ∧ t.lan = s.lan ∧ t.safe = s.safe ∧ t.isl = s.isl)

/-- R74, R75, R76, R88, R8: a request for a power state, written to REQ of PWR_CTRL by an initiator. One that may not write REQ, and would change it, is
refused with DENIED and LOCKED_WRITE. While a change or the boot is in progress the request is held, and one held before it is dropped and sets
REQ_DROPPED. In Switch-only only BIVOUAC and DORMANT act, and others are logged. A request for the state the part is in changes nothing. Else a change
begins: TARGET and BUSY show it, and the entry into Ring-only trips every pair with PWR_STATE once the stages have stopped. IDLE_AUTO_ENTRY begins the
change from Run to Idle when IDLE_AUTO is set, no long operation is queued or running, no change is in progress, and no session command has come for
IDLE_DELAY. -/
def Obligations.PowerStateRequest : Prop :=
  (∀ (s : State) (i : Initiator), Reaches s i Reg.PWR_CTRL → mayRequestState s i = false →
    let refused : State → Prop := fun t =>
      t = { (s.logEv 0x01 0x0003 Reg.PWR_CTRL) with cycle := s.cycle + 1, log := t.log, bus := ⟨0#32, .done, .denied⟩ } ∧
      RegsKept [Reg.LOG_STATUS] s t
    (s.rd Fld.PWR_CTRL_REQ ≠ 0 → Does (.reqRun i) s refused) ∧ (s.rd Fld.PWR_CTRL_REQ ≠ 1 → Does (.reqIdle i) s refused) ∧
    (s.rd Fld.PWR_CTRL_REQ ≠ 2 → Does (.reqRingOnly i) s refused) ∧ (s.rd Fld.PWR_CTRL_REQ ≠ 3 → Does (.reqBivouac i) s refused) ∧
    (s.rd Fld.PWR_CTRL_REQ ≠ 4 → Does (.reqDormant i) s refused)) ∧
  (∀ (s : State) (i : Initiator), Reaches s i Reg.PWR_CTRL → mayRequestState s i = true → s.clogFull = false → s.rd Fld.PWR_STATE_STATE = 3 →
    let logged : Nat → State → Prop := fun g t =>
      t.rd Fld.PWR_CTRL_REQ = g ∧
      t = { s with cycle := s.cycle + 1, regs := t.regs, log := t.log, clog := t.clog, bus := ⟨0#32, .done, .ok⟩ } ∧
      RegsKept [Reg.PWR_CTRL, Reg.LOG_STATUS, Reg.CLOG_STATUS] s t
    Does (.reqRun i) s (logged 0) ∧ Does (.reqIdle i) s (logged 1) ∧ Does (.reqRingOnly i) s (logged 2)) ∧
  (∀ (s : State) (i : Initiator), Reaches s i Reg.PWR_CTRL → mayRequestState s i = true → s.clogFull = false →
    s.pwr.change ≠ none ∨ s.rdB Fld.PWR_STATE_BUSY = true →
    let held : Nat → State → Prop := fun g t =>
      t.rd Fld.PWR_CTRL_REQ = g ∧
      t.rdB Fld.PWR_EVENTS_REQ_DROPPED = (s.rdB Fld.PWR_EVENTS_REQ_DROPPED || s.pwr.pendingReq.isSome) ∧
      t = { s with cycle := s.cycle + 1, regs := t.regs, clog := t.clog, bus := ⟨0#32, .done, .ok⟩,
                   pwr := { s.pwr with pendingReq := some (g, (if i = .fw then 1 else 2)) } } ∧
      RegsKept [Reg.PWR_CTRL, Reg.PWR_EVENTS, Reg.CLOG_STATUS] s t
    (s.rd Fld.PWR_STATE_STATE ≠ 3 → Does (.reqRun i) s (held 0) ∧ Does (.reqIdle i) s (held 1) ∧ Does (.reqRingOnly i) s (held 2)) ∧
    Does (.reqBivouac i) s (held 3) ∧ Does (.reqDormant i) s (held 4)) ∧
  (∀ (s : State) (i : Initiator), Reaches s i Reg.PWR_CTRL → mayRequestState s i = true → s.clogFull = false → s.pwr.change = none →
    s.rdB Fld.PWR_STATE_BUSY = false →
    let nothing : Nat → State → Prop := fun g t =>
      t.rd Fld.PWR_CTRL_REQ = g ∧
      t = { s with cycle := s.cycle + 1, regs := t.regs, clog := t.clog, bus := ⟨0#32, .done, .ok⟩ } ∧
      RegsKept [Reg.PWR_CTRL, Reg.CLOG_STATUS] s t
    (s.rd Fld.PWR_STATE_STATE = 0 → Does (.reqRun i) s (nothing 0)) ∧ (s.rd Fld.PWR_STATE_STATE = 1 → Does (.reqIdle i) s (nothing 1)) ∧
    (s.rd Fld.PWR_STATE_STATE = 2 → Does (.reqRingOnly i) s (nothing 2))) ∧
  (∀ (s : State) (i : Initiator), Reaches s i Reg.PWR_CTRL → mayRequestState s i = true → s.clogFull = false → s.pwr.change = none →
    s.rdB Fld.PWR_STATE_BUSY = false → s.rd Fld.PWR_STATE_STATE ≤ 3 → 280 ≤ s.rd Fld.INRUSH_CFG_BUDGET →
    let st := s.rd Fld.PWR_STATE_STATE
    let begins : Nat → State → Prop := fun g t =>
      t.rd Fld.PWR_CTRL_REQ = g ∧ t.rd Fld.PWR_STATE_TARGET = g ∧ t.rd Fld.PWR_STATE_BUSY = 1 ∧ t.rd Fld.PWR_STATE_STATE = st ∧
      t.pwr.change.map (fun c => (c.goal, c.leg, c.fromState, c.fromOn)) =
        some (g, if g ≤ 1 then g else if st = 1 then 0 else if g = 2 ∨ st = 0 then 2 else g, st, s.rd Fld.DOM_STATUS_ON) ∧
      (t.pwr.change.map (fun c => (c.leg, c.phase)) = some (2, .domains) →
        ∀ p, p < 72 → 1 ≤ s.rd (Fld.PWM_STATUS_STATE p) ∧ s.rd (Fld.PWM_STATUS_STATE p) ≤ 4 → (t.reg (Reg.PWM_TRIP_SRC p)).getLsbD 21 = true) ∧
      t.bus = ⟨0#32, .done, .ok⟩ ∧ t.cycle = s.cycle + 1 ∧ t.pending = s.pending ∧ t.otp = s.otp ∧ t.flash = s.flash ∧ t.freeIx = s.freeIx ∧
      RegsKeptBut (fun a => tripReg a || decide (a = Reg.CLOG_STATUS) ||
        within [(0x10000, 0x10100), (0x180000, 0x1A0000), (0x400000, 0x500000)] a) s t
    (st ≠ 0 → st ≠ 3 → Does (.reqRun i) s (begins 0)) ∧ (st ≠ 1 → st ≠ 3 → Does (.reqIdle i) s (begins 1)) ∧
    (st ≠ 2 → st ≠ 3 → Does (.reqRingOnly i) s (begins 2)) ∧ Does (.reqBivouac i) s (begins 3) ∧ Does (.reqDormant i) s (begins 4)) ∧
  (∀ (s : State), s.rdB Fld.PWR_CTRL_IDLE_AUTO = true → s.rd Fld.PWR_STATE_STATE = 0 → s.pwr.change = none →
    s.rdB Fld.PWR_STATE_BUSY = false → noLongOp s = true → Nat.max 1 (s.rd Fld.PWR_CTRL_IDLE_DELAY) * 5000 ≤ s.eng.quiet →
    280 ≤ s.rd Fld.INRUSH_CFG_BUDGET →
    Does .idleAutoEntry s fun t =>
      t.rd Fld.PWR_STATE_TARGET = 1 ∧ t.rd Fld.PWR_STATE_BUSY = 1 ∧ t.rd Fld.PWR_STATE_STATE = 0 ∧
      t.pwr.change = some { goal := 1, leg := 1, cause := 3, fromState := 0, fromOn := s.rd Fld.DOM_STATUS_ON, phase := .domains,
                            stopLeft := 0, railOff := false } ∧
      t = { s with cycle := s.cycle + 1, regs := t.regs, pwr := t.pwr, log := t.log, perf := t.perf } ∧
      RegsKeptBut (fun a => tripReg a || [Reg.PWR_STATE, Reg.DOM_STATUS, Reg.DOM_REQ, Reg.INRUSH_STATUS].contains a) s t)

/-- R75, R76, R79, R136: a leg of a change ends once no wake, drain, bias change or rail step of it is outstanding. The leg that enters the state asked
for ends the change: STATE is that state, BUSY is clear and LAST_CAUSE says what brought it about; with no request pending nothing further begins. A
sleep entry whose drains are complete switches the rails off, and one whose rails are off turns the main domain off and hands over to the Lantern in
Bivouac or Dormant by BIV_EN. A change that still waits, or that waits for the stages to stop or the bias to change, goes on. A bias change of APP0
that is in progress completes, and the level and assist mode it wanted are in force; with none in progress nothing happens. -/
def Obligations.StateChangeCompletes : Prop :=
  (∀ (s : State) (c : PwrChange), s.pwr.change = some c → legReady s = true → c.phase = .domains → c.leg ≤ 2 → c.leg = c.goal → s.pwr.pendingReq = none → c.cause < 16 →
    Does .stateChangeDone s fun t =>
      t.rd Fld.PWR_STATE_STATE = c.goal ∧ t.rd Fld.PWR_STATE_TARGET = c.goal ∧ t.rd Fld.PWR_STATE_BUSY = 0 ∧
      t.rd Fld.PWR_STATE_LAST_CAUSE = c.cause ∧ t.pwr.change = none ∧
      (c.goal = 1 → t = { s with cycle := s.cycle + 1, regs := t.regs, pwr := { s.pwr with change := none } } ∧ RegsKept [Reg.PWR_STATE] s t) ∧
      StoresKept s t ∧ RegsKeptBut (fun a => tripReg a || within [(0x10000, 0x10100), (0x100000, 0x200000)] a) s t) ∧
  (∀ (s : State) (c : PwrChange), s.pwr.change = some c → legReady s = true → c.phase = .domains → 2 < c.leg →
    let s1 := { s with pwr := { s.pwr with offSet := 0xFFFF, thenUp := false } }
    Does .stateChangeDone s fun t =>
      t.pwr.change = some { c with phase := .rails, railOff := c.railOff || (nextStepDown s1 12).isSome } ∧
      t.pwr.seqUp = (nextStepDown s1 12).map (fun _ => false) ∧ t.pwr.railsUp = false ∧
      t.pwr.regEn = (match nextStepDown s1 12 with | some j => s.pwr.regEn - (s.pwr.regEn &&& railsOnAt s1 j) | none => s.pwr.regEn - (s.pwr.regEn &&& 0xFFFF)) ∧
      t.rd Fld.RAIL_STATUS_EN = regEnOut t % 65536 ∧
      StoresKept s t ∧ t.bus = s.bus ∧
      (s.rd Fld.DOM_STATUS_ON = 0 → t = { s with cycle := s.cycle + 1, regs := t.regs, pwr := t.pwr } ∧ RegsKept [Reg.RAIL_STATUS] s t)) ∧
  (∀ (s : State) (c : PwrChange), s.pwr.change = some c → legReady s = true → c.phase = .rails →
    Does .stateChangeDone s fun t =>
      t.mainOn = false ∧ t.lan.mode = (if s.rdB Fld.BIV_CFG_BIV_EN = true then .bivouac else .dormant) ∧ t.pwr.regEn = 0 ∧
      t.img.phase = .inReset ∧ t.pwr.change = none ∧
      t.pending = s.pending ∧ t.cycle = s.cycle + 1 ∧ t.otp = s.otp ∧ t.flash = s.flash ∧ t.clog = s.clog) ∧
  (∀ (s : State) (c : PwrChange), s.pwr.change = some c → legReady s = false ∨ c.phase = .stopping ∨ c.phase = .bias →
    Does .stateChangeDone s fun t => t = { s with cycle := s.cycle + 1 }) ∧
  (∀ (s : State), s.pwr.change = none → Does .stateChangeDone s fun t => t = { s with cycle := s.cycle + 1 }) ∧
  (∀ (s : State) (b : Nat) (a : Assist), s.pwr.biasBusy = some (b, a) →
    Does .biasChangeDone s fun t =>
      t.pwr.biasApp0 = b ∧ t.pwr.assistApp0 = a ∧ t.cycle = s.cycle + 1 ∧ t.pending = s.pending ∧ t.otp = s.otp ∧ t.flash = s.flash ∧
      (s.pwr.change = none → s.pwr.biasDue = none →
        t = { s with cycle := s.cycle + 1, pwr := { s.pwr with biasBusy := none, biasApp0 := b, assistApp0 := a, app0Slow := decide (Config.pSw < b) } })) ∧
  (∀ (s : State), s.pwr.biasBusy = none → Does .biasChangeDone s fun t => t = { s with cycle := s.cycle + 1 })

/-- R68, R80, R81, R83, R84, R89, R94: the head of the queue of wakes is admitted when no wake is in progress and LOAD with its max load and surge is
within the budget, and it waits where it does not; a waking domain that reports good is on (unless its power-down is the next to be served), and LOAD
includes its max load. A wake that has waited longer than WAKE_WAIT leaves the queue; WAKE_TIMEOUT, LAST_DOM and an entry of the trouble log say so,
and the change of state that needed it fails: the part shows the state it came from with LAST_CAUSE = 5, and asks for the domains of that state again.
The domain whose drain is complete, or has outlasted DRAIN_TIMEOUT, is switched off in that cycle: its bit of DOM_STATUS is clear and LOAD falls by
its max load, and the next power-down request is served. DRAIN_ABORT sets its event with the domain and logs it with the number of transfers. With no
drain in progress nothing happens. -/
def Obligations.DomainsWakeAndDrain : Prop :=
  (∀ (s : State) (d : Nat) (q : List Nat), s.pwr.wakeQ = d :: q → d < 16 → q.length < 32 → s.rd Fld.INRUSH_STATUS_WAKING = 0x1F →
    s.rd Fld.INRUSH_STATUS_LOAD + maxLoad d + surge d ≤ s.rd Fld.INRUSH_CFG_BUDGET →
    Does .wakeAdmit s fun t =>
      t.rd Fld.INRUSH_STATUS_WAKING = d ∧ t.rd Fld.INRUSH_STATUS_QUEUED = q.length ∧
      t.rd Fld.INRUSH_STATUS_LOAD = s.rd Fld.INRUSH_STATUS_LOAD ∧
      t = { s with cycle := s.cycle + 1, regs := t.regs, pwr := { s.pwr with wakeQ := q, wakeAge := t.pwr.wakeAge } } ∧ RegsKept [Reg.INRUSH_STATUS] s t) ∧
  (∀ (s : State), s.pwr.wakeQ = [] ∨ s.rd Fld.INRUSH_STATUS_WAKING ≠ 0x1F ∨
      s.rd Fld.INRUSH_CFG_BUDGET < s.rd Fld.INRUSH_STATUS_LOAD + maxLoad (s.pwr.wakeQ.headD 0) + surge (s.pwr.wakeQ.headD 0) →
    Does .wakeAdmit s fun t => t = { s with cycle := s.cycle + 1 }) ∧
  (∀ (s : State) (d : Nat), s.rd Fld.INRUSH_STATUS_WAKING = d → d ≤ 15 → s.rd Fld.INRUSH_STATUS_LOAD + maxLoad d < 1024 →
    Does .domainGood s fun t =>
      (∀ k, k < 16 → t.domOn k = (if k = d then decide (s.pwr.drainQ.head? ≠ some d) else s.domOn k)) ∧ t.rd Fld.INRUSH_STATUS_WAKING = 0x1F ∧
      t.rd Fld.INRUSH_STATUS_LOAD = s.rd Fld.INRUSH_STATUS_LOAD + maxLoad d ∧
      (1 ≤ d ∧ d ≤ 4 → t = { s with cycle := s.cycle + 1, regs := t.regs } ∧ RegsKept [Reg.DOM_STATUS, Reg.INRUSH_STATUS] s t) ∧
      StoresKept s t ∧ t.bus = s.bus ∧
      RegsKeptBut (fun a => tripReg a || within [(0x10000, 0x10100), (0x100000, 0x200000), (0x400000, 0x600000)] a) s t) ∧
  (∀ (s : State), 15 < s.rd Fld.INRUSH_STATUS_WAKING → Does .domainGood s fun t => t = { s with cycle := s.cycle + 1 }) ∧
  (∀ (s : State) (d : Nat) (q : List Nat), s.pwr.wakeQ = d :: q → d < 16 → wakeOverdue s = true → q.length < 32 → wakeNeeded s d = false →
    Does .wakeTimeout s fun t =>
      t.rd Fld.PWR_EVENTS_WAKE_TIMEOUT = 1 ∧ t.rd Fld.PWR_EVENTS_LAST_DOM = d ∧ t.rd Fld.INRUSH_STATUS_QUEUED = q.length ∧
      t = { s with cycle := s.cycle + 1, regs := t.regs, log := t.log, pwr := { s.pwr with wakeQ := q, wakeAge := t.pwr.wakeAge } } ∧
      Logged 0x02 0x0004 d s t ∧ RegsKept [Reg.PWR_EVENTS, Reg.INRUSH_STATUS, Reg.LOG_STATUS] s t) ∧
  (∀ (s : State) (d : Nat) (q : List Nat) (c : PwrChange), s.pwr.wakeQ = d :: q → d < 16 → wakeOverdue s = true → wakeNeeded s d = true → q.length < 16 → s.pwr.change = some c →
    s.pwr.pendingReq = none → c.fromState < 8 → c.fromOn < 65536 →
    Does .wakeTimeout s fun t =>
      t.rd Fld.PWR_EVENTS_WAKE_TIMEOUT = 1 ∧ t.pwr.change = none ∧ t.rd Fld.PWR_STATE_STATE = c.fromState ∧ t.rd Fld.PWR_STATE_BUSY = 0 ∧
      t.rd Fld.PWR_STATE_LAST_CAUSE = 5 ∧ t.reg Reg.DOM_REQ = BitVec.ofNat 32 c.fromOn ∧
      StoresKept s t ∧ RegsKeptBut (fun a => tripReg a || within [(0x10000, 0x10100)] a) s t) ∧
  (∀ (s : State), wakeOverdue s = false → Does .wakeTimeout s fun t => t = { s with cycle := s.cycle + 1 }) ∧
  (∀ (s : State) (d : Nat) (q : List Nat), s.pwr.drainQ = d :: q → d < 16 → s.waking d = false →
    Does .drainComplete s fun t =>
      (∀ k, k < 16 → t.domOn k = (s.domOn k && !decide (k = d) && !decide (q.head? = some k))) ∧
      t.rd Fld.INRUSH_STATUS_LOAD = s.rd Fld.INRUSH_STATUS_LOAD - maxLoad d ∧ t.pwr.drainQ = q ∧
      (d = 0 → t.ring.forwarding = false) ∧ (d = 13 → t.rd Fld.SOUT_STATE_ON = 0 ∧ t.rd Fld.SCHED_CFG_TICK_RUN = 0) ∧
      (d = 14 → ∀ p, p < 72 → 1 ≤ s.rd (Fld.PWM_STATUS_STATE p) ∧ s.rd (Fld.PWM_STATUS_STATE p) ≤ 4 → (t.reg (Reg.PWM_TRIP_SRC p)).getLsbD 21 = true) ∧
      (1 ≤ d ∧ d ≤ 4 → q = [] → t = { s with cycle := s.cycle + 1, regs := t.regs, pwr := { s.pwr with drainQ := [] } } ∧
        RegsKept [Reg.DOM_STATUS, Reg.INRUSH_STATUS] s t) ∧
      StoresKept s t ∧ t.bus = s.bus) ∧
  (∀ (s : State) (n us d : Nat) (q : List Nat), s.pwr.drainQ = d :: q → d < 16 → s.waking d = false → drainLimit s ≤ us →
    Does (.drainAbort n us) s fun t =>
      t.rd Fld.PWR_EVENTS_DRAIN_ABORT = 1 ∧ t.rd Fld.PWR_EVENTS_LAST_DOM = d ∧
      (∀ k, k < 16 → t.domOn k = (s.domOn k && !decide (k = d) && !decide (q.head? = some k))) ∧
      t.rd Fld.INRUSH_STATUS_LOAD = s.rd Fld.INRUSH_STATUS_LOAD - maxLoad d ∧ t.pwr.drainQ = q ∧
      (1 ≤ d ∧ d ≤ 4 → q = [] → Logged 0x02 0x0003 (d * 2 ^ 24 + n % 65536) s t ∧
        t = { s with cycle := s.cycle + 1, regs := t.regs, log := t.log, pwr := { s.pwr with drainQ := [] } } ∧
        RegsKept [Reg.DOM_STATUS, Reg.INRUSH_STATUS, Reg.PWR_EVENTS, Reg.LOG_STATUS] s t) ∧
      StoresKept s t ∧ t.bus = s.bus) ∧
  (∀ (s : State) (n us : Nat), s.drains = false →
    (Does .drainComplete s fun t => t = { s with cycle := s.cycle + 1 }) ∧ (Does (.drainAbort n us) s fun t => t = { s with cycle := s.cycle + 1 })) ∧
  (∀ (s : State) (n us : Nat), us < drainLimit s → Does (.drainAbort n us) s fun t => t = { s with cycle := s.cycle + 1 })

/-- R52, R69, R70, R72, R669: a step of the rail sequence shows the levels of REG_PG_nn and of the bank supplies. Switching on, once every rail of the
present step has been good for its PG_DELAY the next step that has rails is enabled, and after the last the plan is complete; switching off, once the
rails of a step are low, or after 5 ms, the next step below is disabled, and after the last none of them is enabled and the sequence has ended. When
PMB_ALERT_N goes low PMB_ALERT is set, RAIL_ALERT is logged for each named regulator that answers, and one whose STATUS_WORD reports a voltage or
current fault has a rail fault. A poll of the regulators shows the output voltage in mV and the output current in units of 10 mA, saturated, of each
named regulator in its PC_RAIL register, and of no other; SERVICE margins a named regulator's output by up to 5 %. -/
def Obligations.RailsAndRegulators : Prop :=
  (∀ (s : State) (pg : BitVec 16) (mv : List Nat) (goodFor offFor : Nat),
    Does (.railSequenceStep pg mv goodFor offFor) s fun t =>
      t.rd Fld.RAIL_STATUS_PG = pg.toNat ∧ t.rd Fld.IO_BANK_STATUS_PRESENT = banksPresent mv ∧
      t.rd Fld.IO_BANK_STATUS_DET_3V3 = banks3v3 mv &&& banksPresent mv ∧ t.pwr.bankPresent = banksPresent mv ∧
      t.pwr.bank3v3 = banks3v3 mv &&& banksPresent mv ∧ StoresKept s t) ∧
  (∀ (s : State) (pg : BitVec 16) (mv : List Nat) (goodFor offFor : Nat), s.pwr.seqUp = some true → s.img.phase ≠ .firmware →
    stepGood pg.toNat goodFor s = true →
    Does (.railSequenceStep pg mv goodFor offFor) s fun t =>
      (t.pwr.seqUp, t.pwr.regEn, t.pwr.railsUp) = (match nextStepUp s (12 - (s.pwr.seqStep + 1)) (s.pwr.seqStep + 1) with
       | some j => (some true, s.pwr.regEn ||| railsOfStep s j, s.pwr.railsUp)
       | none => (none, s.pwr.regEn, true)) ∧
      t.pwr.seqStep = (nextStepUp s (12 - (s.pwr.seqStep + 1)) (s.pwr.seqStep + 1)).getD s.pwr.seqStep ∧
      (t.pwr.seqUp = some true → t.rd Fld.RAIL_STATUS_EN = regEnOut t % 65536) ∧
      t.bus = s.bus ∧ t.img = s.img ∧
      RegsKeptBut (fun a => lockReg a || [Reg.RAIL_STATUS, Reg.IO_BANK_STATUS].contains a || within [(0x180000, 0x1A0000), (0x200000, 0x210000)] a) s t) ∧
  (∀ (s : State) (pg : BitVec 16) (mv : List Nat) (goodFor offFor : Nat),
    (s.pwr.seqUp = some true ∧ stepGood pg.toNat goodFor s = false) ∨ (s.pwr.seqUp = some false ∧ stepOff pg.toNat offFor s = false) ∨ s.pwr.seqUp = none →
    Does (.railSequenceStep pg mv goodFor offFor) s fun t =>
      t.pwr = { s.pwr with bankPresent := t.pwr.bankPresent, bank3v3 := t.pwr.bank3v3 }) ∧
  (∀ (s : State) (pg : BitVec 16) (mv : List Nat) (goodFor offFor : Nat), s.pwr.seqUp = some false → stepOff pg.toNat offFor s = true →
    s.pwr.thenUp = false →
    Does (.railSequenceStep pg mv goodFor offFor) s fun t =>
      (t.pwr.seqUp, t.pwr.regEn) = (match nextStepDown s s.pwr.seqStep with
       | some j => (some false, s.pwr.regEn - (s.pwr.regEn &&& railsOnAt s j))
       | none => (none, s.pwr.regEn - (s.pwr.regEn &&& s.pwr.offSet))) ∧
      t.pwr.seqStep = (nextStepDown s s.pwr.seqStep).getD s.pwr.seqStep ∧
      t.rd Fld.RAIL_STATUS_EN = regEnOut t % 65536 ∧ t.pwr.railsUp = false) ∧
  (∀ (s : State) (alerted faulty : BitVec 16), (∀ n, n < 16 → s.rdB (Fld.RAIL_CFG_PMB_EN n) = true → faulty.getLsbD n = false) →
    Does (.pmbAlert alerted faulty) s fun t =>
      t.rd Fld.PWR_EVENTS_PMB_ALERT = 1 ∧
      t = { s with cycle := s.cycle + 1, regs := t.regs, log := t.log } ∧ RegsKept [Reg.PWR_EVENTS, Reg.LOG_STATUS] s t ∧
      ((∀ n, n < 16 → s.rdB (Fld.RAIL_CFG_PMB_EN n) = true → alerted.getLsbD n = false) → t.log = s.log)) ∧
  (∀ (s : State) (alerted faulty : BitVec 16) (n : Fin 16), s.rdB (Fld.RAIL_CFG_PMB_EN n.val) = true → faulty.getLsbD n.val = true →
    Does (.pmbAlert alerted faulty) s fun t => t.rd Fld.PWR_EVENTS_PMB_ALERT = 1 ∧ t.rd Fld.PWR_EVENTS_RAIL_FAULT = 1 ∧ StoresKept s t) ∧
  (∀ (s : State) (vout iout : List Nat) (margin : Option (Initiator × Fin 16 × Int)),
    Does (.pmbusPoll vout iout margin) s fun t =>
      (∀ n, n < 16 → t.rd (Fld.PC_RAIL_VOUT n) = (if s.rdB (Fld.RAIL_CFG_PMB_EN n) then min (vout.getD n 0) 65535 else s.rd (Fld.PC_RAIL_VOUT n))) ∧
      (∀ n, n < 16 → t.rd (Fld.PC_RAIL_IOUT n) = (if s.rdB (Fld.RAIL_CFG_PMB_EN n) then min ((iout.getD n 0 + 5) / 10) 65535 else s.rd (Fld.PC_RAIL_IOUT n))) ∧
      t = { s with cycle := s.cycle + 1, regs := t.regs, perf := t.perf, bus := t.bus, pwr := { s.pwr with margin := t.pwr.margin } } ∧
      RegsKeptBut (inArray (Reg.PC_RAIL 0) 4 16) s t ∧ (margin = none → t.bus = s.bus ∧ t.pwr = s.pwr)) ∧
  (∀ (s : State) (vout iout : List Nat) (i : Initiator) (n : Fin 16) (v : Int), sessionOf [3] s i = true → s.rdB (Fld.RAIL_CFG_PMB_EN n.val) = true →
    v.natAbs ≤ 500 →
    Does (.pmbusPoll vout iout (some (i, n, v))) s fun t =>
      t.bus.status = .ok ∧ ∀ k, k < 16 → Tab.get 0 t.pwr.margin k = if k = n.val then v else Tab.get 0 s.pwr.margin k)

/-- R52, R54, R70, R73, R74, R76, R135, R136: a fault of an enabled rail sets RAIL_FAULT, discards a pending request and is logged with the rail as the
datum; a rail that is not good 10 ms after its enable counts as one, and the rails already on go off, the last step first. By the class of the rail:
with VDD_CT the control die goes off at once and the state is Switch-only; with VDDA or AUX_CONV the pairs trip with RAIL_FAULT and Ring-only is
entered; with VDD_SD or VDDH_SD the SerDes domains go off and forwarding stops; with a bank its supply is lost; AUX_RUN is logged only. A rail that is
not enabled has no fault. On a fault of the first tier the main domain is lost: every regulator is off, the Lantern drives WAKE_OUT low and enters
Bivouac where BIV_EN is set and Dormant otherwise, with ORDERLY clear. The supply of a bank that falls below its present threshold shows in
IO_BANK_STATUS; the loss of bank 2 or 3 trips the pairs with a ball in it with IO_SUPPLY, that of bank 6 or 7 locks the safety outputs out. -/
def Obligations.SupplyFaults : Prop :=
  (∀ (s : State) (n : Fin 16), s.pwr.regEn.testBit n.val = true →
    let class' := s.rd (Fld.RAIL_CFG_CLASS n.val)
    Does (.railFault n) s fun t =>
      t.rd Fld.PWR_EVENTS_RAIL_FAULT = 1 ∧ t.pwr.pendingReq = none ∧ t.bit Fld.RAIL_STATUS_PG n.val = false ∧
      (class' = 1 → t.domOn 13 = false ∧ t.domOn 14 = false ∧ t.domOn 15 = false ∧ t.rd Fld.PWR_STATE_STATE = 3 ∧
        t.rd Fld.PWR_STATE_BUSY = 0 ∧ t.rd Fld.PWR_STATE_LAST_CAUSE = 4 ∧ t.pwr.change = none ∧
        (s.domOn 13 = true → t.rd Fld.SOUT_STATE_ON = 0)) ∧
      (class' = 2 ∨ class' = 7 →
        (∀ p, p < 72 → 1 ≤ s.rd (Fld.PWM_STATUS_STATE p) ∧ s.rd (Fld.PWM_STATUS_STATE p) ≤ 4 → (t.reg (Reg.PWM_TRIP_SRC p)).getLsbD 22 = true) ∧
        (s.rd Fld.PWR_STATE_STATE ≤ 1 → 280 ≤ s.rd Fld.INRUSH_CFG_BUDGET → sleepCommitted s = false → t.pwr.change.map (fun c => (c.goal, c.cause)) = some (2, 4))) ∧
      (class' = 3 → s.rd (Fld.RAIL_CFG_BANK n.val) < 8 → t.bit Fld.IO_BANK_STATUS_PRESENT (s.rd (Fld.RAIL_CFG_BANK n.val)) = false) ∧
      (class' = 4 ∨ class' = 5 → t.ring.forwarding = false ∧ ∀ g, g < 8 → t.domOn (5 + g) = false) ∧
      (class' = 6 → Logged 0x02 0x0001 n.val s t ∧
        t = { s with cycle := s.cycle + 1, regs := t.regs, log := t.log, pwr := { s.pwr with pendingReq := none } } ∧
        RegsKept [Reg.PWR_EVENTS, Reg.RAIL_STATUS, Reg.LOG_STATUS] s t) ∧
      StoresKept s t) ∧
  (∀ (s : State) (n : Fin 16), s.pwr.regEn.testBit n.val = false → Does (.railFault n) s fun t => t = { s with cycle := s.cycle + 1 }) ∧
  (∀ (s : State) (n : Fin 16), s.pwr.seqUp = some true → (railsOfStep s s.pwr.seqStep).testBit n.val = true →
    Does (.railPgTimeout n) s fun t =>
      t.rd Fld.PWR_EVENTS_RAIL_FAULT = 1 ∧ t.pwr.railsUp = false ∧ t.rd Fld.RAIL_STATUS_EN = regEnOut t % 65536 ∧
      (s.rd (Fld.RAIL_CFG_CLASS n.val) = 6 → Logged 0x02 0x0001 n.val s t ∧
        t.pwr.offSet = 0xFFFF ∧ t.pwr.thenUp = false ∧
        t = { s with cycle := s.cycle + 1, regs := t.regs, log := t.log, pwr := t.pwr } ∧
        RegsKept [Reg.PWR_EVENTS, Reg.RAIL_STATUS, Reg.LOG_STATUS] s t) ∧
      StoresKept s t) ∧
  (∀ (s : State) (n : Fin 16), s.pwr.seqUp ≠ some true ∨ (railsOfStep s s.pwr.seqStep).testBit n.val = false →
    Does (.railPgTimeout n) s fun t => t = { s with cycle := s.cycle + 1 }) ∧
  (∀ (s : State), s.lan.mode = .mainOn →
    Does .tier1Fault s fun t =>
      t.mainOn = false ∧ t.lan.mode = (if s.rdB Fld.BIV_CFG_BIV_EN = true then .bivouac else .dormant) ∧ t.lan.wakeOut = false ∧
      t.rd Fld.LAN_STATUS_ORDERLY = 0 ∧ t.pwr.regEn = 0 ∧ t.img.phase = .inReset ∧ t.pwr.change = none ∧
      t.pending = s.pending ∧ t.cycle = s.cycle + 1 ∧ t.otp = s.otp ∧ t.flash = s.flash ∧ t.clog = s.clog) ∧
  (∀ (s : State), s.lan.mode ≠ .mainOn → Does .tier1Fault s fun t => t = { s with cycle := s.cycle + 1 }) ∧
  (∀ (s : State) (b : Fin 8),
    Does (.ioBankSupplyLoss b) s fun t =>
      (∀ k, k < 8 → t.bit Fld.IO_BANK_STATUS_PRESENT k = (s.bit Fld.IO_BANK_STATUS_PRESENT k && !decide (k = b.val))) ∧
      (∀ k, k < 8 → t.bit Fld.IO_BANK_STATUS_DET_3V3 k = (s.bit Fld.IO_BANK_STATUS_DET_3V3 k && !decide (k = b.val))) ∧
      (b.val = 2 ∨ b.val = 3 → ∀ p, p < 72 → pairBank p = b.val → 1 ≤ s.rd (Fld.PWM_STATUS_STATE p) ∧ s.rd (Fld.PWM_STATUS_STATE p) ≤ 4 →
        (t.reg (Reg.PWM_TRIP_SRC p)).getLsbD 23 = true) ∧
      (b.val = 6 ∨ b.val = 7 → t.rd Fld.SAFE_STATUS_LOCKED = 1 ∧ t.rd Fld.SOUT_STATE_ON = 0 ∧ t.rd Fld.SOUT_WAIT_ALLOW = 0 ∧
        t.bit Fld.SAFE_CAUSE_LATCHED 9 = true) ∧
      StoresKept s t ∧ t.bus = s.bus ∧ t.lan = s.lan ∧ t.ring = s.ring ∧ t.plots = s.plots ∧ t.eng = s.eng ∧ t.img = s.img ∧ t.time = s.time ∧
      RegsKeptBut (fun a => lockReg a || decide (a = Reg.IO_BANK_STATUS) || within [(0x180000, 0x1A0000), (0x200000, 0x210000)] a) s t)

/-- R26, R102, R103, R105, R106, R116, R420: the output of the control PLL is gated where PLL_LOCK reads no lock or a pin fault, or a phase slip is found:
while it was declared locked, CTRL_LOCK is clear and CTRL_UNLOCK set, ticks are lost and no longer run, the loop engine is halted, every pair that is
not disabled carries the trip source CLOCK, and the safety outputs are off and locked out with cause CLOCK. A pin fault sets LOCK_PIN_FAULT.
PLL_LOCK's voltage shows in LOCK_V. A loss of the Ridgeline PLL stops forwarding, and a loss of the application PLL stops the application cores and
closes every session; their entries wait for the clock to return. A loss of SYSCLK is the loss of the control, Ridgeline and application PLLs at once.
Each sets its bit of CLK_EVENTS. A loss of a SerDes PLL group unlocks it and logs CLK_LOSS; a loss of REFCLK_SD_0 moves the timebase to SYSCLK and
takes group 0 with it. What is already lost changes nothing, and nothing watches the references while the main domain is off. -/
def Obligations.ClockLosses : Prop :=
  (∀ (s : State) (slip : Bool) (lockV : BitVec 8), s.rdB Fld.CLK_STATUS_CTRL_LOCK = true →
    slip = true ∨ pinReads s.time.pinLock lockV.toNat = false →
    Does (.ctrlPllGated slip lockV) s fun t =>
      t.rd Fld.CLK_STATUS_LOCK_V = lockV.toNat ∧ t.rd Fld.CLK_STATUS_CTRL_LOCK = 0 ∧ t.rd Fld.CLK_EVENTS_CTRL_UNLOCK = 1 ∧
      t.rdB Fld.CLK_EVENTS_LOCK_PIN_FAULT = (s.rdB Fld.CLK_EVENTS_LOCK_PIN_FAULT || decide (140 < lockV.toNat)) ∧
      t.rd Fld.SCHED_STATUS_TICK_LOST = 1 ∧ t.rd Fld.SCHED_CFG_TICK_RUN = 0 ∧ t.rd Fld.LE_STATUS_RUN = 0 ∧ t.time.resume = none ∧
      (∀ p, p < 72 → 1 ≤ s.rd (Fld.PWM_STATUS_STATE p) ∧ s.rd (Fld.PWM_STATUS_STATE p) ≤ 4 → (t.reg (Reg.PWM_TRIP_SRC p)).getLsbD 17 = true) ∧
      t.rd Fld.SAFE_STATUS_LOCKED = 1 ∧ t.bit Fld.SAFE_CAUSE_LATCHED 8 = true ∧ t.rd Fld.SOUT_STATE_ON = 0 ∧ t.rd Fld.SOUT_WAIT_ALLOW = 0 ∧
      StoresKept s t ∧ t.bus = s.bus ∧ t.pwr = s.pwr ∧ t.lan = s.lan ∧ t.img = s.img ∧ t.ring = s.ring ∧ t.plots = s.plots ∧ t.eng = s.eng ∧
      RegsKeptBut (fun a => lockReg a || [Reg.CLK_STATUS, Reg.CLK_EVENTS, Reg.SCHED_CFG, Reg.SCHED_STATUS].contains a ||
        within [(0x100000, 0x220000)] a) s t) ∧
  (∀ (s : State) (slip : Bool) (lockV : BitVec 8), s.rdB Fld.CLK_STATUS_CTRL_LOCK = false ∨ (slip = false ∧ pinReads s.time.pinLock lockV.toNat = true) →
    Does (.ctrlPllGated slip lockV) s fun t =>
      t.rd Fld.CLK_STATUS_LOCK_V = lockV.toNat ∧
      t.rdB Fld.CLK_EVENTS_LOCK_PIN_FAULT = (s.rdB Fld.CLK_EVENTS_LOCK_PIN_FAULT || decide (140 < lockV.toNat)) ∧
      t = { s with cycle := s.cycle + 1, regs := t.regs, log := t.log, time := { s.time with pinLock := pinReads s.time.pinLock lockV.toNat } } ∧
      BitsKept Reg.CLK_STATUS [Fld.CLK_STATUS_LOCK_V] s t ∧ BitsKept Reg.CLK_EVENTS [Fld.CLK_EVENTS_LOCK_PIN_FAULT] s t ∧
      RegsKept [Reg.CLK_STATUS, Reg.CLK_EVENTS, Reg.LOG_STATUS] s t) ∧
  (∀ (s : State), s.rdB Fld.CLK_STATUS_RG_LOCK = true →
    Does .rgPllLoss s fun t =>
      t.rd Fld.CLK_STATUS_RG_LOCK = 0 ∧ t.rd Fld.CLK_EVENTS_RG_UNLOCK = 1 ∧ t.ring.forwarding = false ∧
      t.time = { s.time with lateRg := t.time.lateRg } ∧ t.time.lateRg.take (s.time.lateRg.length + 1) = s.time.lateRg ++ [(0x03, 0x0001, 1)] ∧
      t.log = s.log ∧ StoresKept s t ∧ t.pwr = s.pwr ∧ t.lan = s.lan ∧ t.img = s.img ∧ t.bus = s.bus) ∧
  (∀ (s : State), s.rdB Fld.CLK_STATUS_APP_LOCK = true →
    Does .appPllLoss s fun t =>
      t.rd Fld.CLK_STATUS_APP_LOCK = 0 ∧ t.rd Fld.CLK_EVENTS_APP_UNLOCK = 1 ∧ t.rd Fld.CE_STATUS_FRONT_ONLY = 1 ∧ t.rd Fld.CE_STATUS_SESSIONS = 0 ∧
      (∀ k, k < 64 → t.rdB (Fld.CE_SESS_VALID k) = false) ∧
      t.time = { s.time with lateApp := t.time.lateApp } ∧ t.time.lateApp.take (s.time.lateApp.length + 1) = s.time.lateApp ++ [(0x03, 0x0001, 2)] ∧
      StoresKept s t ∧ t.ring = s.ring ∧ t.pwr = s.pwr ∧ t.lan = s.lan ∧ t.img = s.img ∧ t.bus = s.bus) ∧
  (∀ (s : State), s.rdB Fld.CLK_STATUS_SYSCLK_OK = true →
    Does .sysclkLoss s fun t =>
      t.rd Fld.CLK_STATUS_SYSCLK_OK = 0 ∧ t.rd Fld.CLK_EVENTS_SYSCLK_LOSS = 1 ∧
      t.rd Fld.CLK_STATUS_CTRL_LOCK = 0 ∧ t.rd Fld.CLK_STATUS_RG_LOCK = 0 ∧ t.rd Fld.CLK_STATUS_APP_LOCK = 0 ∧
      (s.rdB Fld.CLK_STATUS_CTRL_LOCK = true → t.rd Fld.CLK_EVENTS_CTRL_UNLOCK = 1 ∧ t.rd Fld.SCHED_STATUS_TICK_LOST = 1 ∧
        t.rd Fld.SAFE_STATUS_LOCKED = 1 ∧ t.rd Fld.SOUT_STATE_ON = 0) ∧
      (s.rdB Fld.CLK_STATUS_RG_LOCK = true → t.rd Fld.CLK_EVENTS_RG_UNLOCK = 1 ∧ t.ring.forwarding = false) ∧
      (s.rdB Fld.CLK_STATUS_APP_LOCK = true → t.rd Fld.CLK_EVENTS_APP_UNLOCK = 1 ∧ t.rd Fld.CE_STATUS_SESSIONS = 0) ∧
      t.log.lanQ = s.log.lanQ ∧ t.log.ctrlQ = s.log.ctrlQ ∧ t.log.switchQ = s.log.switchQ ∧ StoresKept s t ∧ t.pwr = s.pwr) ∧
  (∀ (s : State) (k : Fin 4), s.bit Fld.CLK_STATUS_SD_LOCK k.val = true →
    Does (.serdesPllLoss k) s fun t =>
      (∀ j, j < 4 → t.bit Fld.CLK_STATUS_SD_LOCK j = (s.bit Fld.CLK_STATUS_SD_LOCK j && !decide (j = k.val))) ∧
      (∀ j, j < 4 → t.bit Fld.CLK_EVENTS_SD_UNLOCK j = (s.bit Fld.CLK_EVENTS_SD_UNLOCK j || decide (j = k.val))) ∧
      (∀ i, i < 32 → 1 ≤ s.rd (Fld.RG_LANE_STATUS_STATE (32 * k.val + i)) ∧ s.rd (Fld.RG_LANE_STATUS_STATE (32 * k.val + i)) ≠ 4 →
        t.rd (Fld.RG_LANE_STATUS_STATE (32 * k.val + i)) = 5) ∧
      StoresKept s t ∧ t.pwr = s.pwr ∧ t.lan = s.lan ∧ t.img = s.img ∧ t.bus = s.bus) ∧
  (∀ (s : State) (k : Fin 4), s.mainOn = true → s.bit Fld.CLK_STATUS_REFCLK_OK k.val = true →
    Does (.refclkLoss k) s fun t =>
      (∀ j, j < 4 → t.bit Fld.CLK_STATUS_REFCLK_OK j = (s.bit Fld.CLK_STATUS_REFCLK_OK j && !decide (j = k.val))) ∧
      (∀ j, j < 4 → t.bit Fld.CLK_EVENTS_REFCLK_LOSS j = (s.bit Fld.CLK_EVENTS_REFCLK_LOSS j || decide (j = k.val))) ∧
      (k = 0 → t.rd Fld.CLK_STATUS_TB_SRC = 1 ∧ t.rd Fld.CLK_EVENTS_TB_FAILOVER = 1 ∧ t.bit Fld.CLK_STATUS_SD_LOCK 0 = false) ∧
      (k ≠ 0 → Logged 0x03 0x0001 (8 + k.val) s t ∧ t = { s with cycle := s.cycle + 1, regs := t.regs, log := t.log } ∧
        RegsKept [Reg.CLK_STATUS, Reg.CLK_EVENTS, Reg.LOG_STATUS] s t) ∧
      StoresKept s t ∧ t.pwr = s.pwr ∧ t.bus = s.bus) ∧
  (∀ (s : State) (k : Fin 4),
    (s.rdB Fld.CLK_STATUS_RG_LOCK = false → Does .rgPllLoss s fun t => t = { s with cycle := s.cycle + 1 }) ∧
    (s.rdB Fld.CLK_STATUS_APP_LOCK = false → Does .appPllLoss s fun t => t = { s with cycle := s.cycle + 1 }) ∧
    (s.rdB Fld.CLK_STATUS_SYSCLK_OK = false → Does .sysclkLoss s fun t => t = { s with cycle := s.cycle + 1 }) ∧
    (s.bit Fld.CLK_STATUS_SD_LOCK k.val = false → Does (.serdesPllLoss k) s fun t => t = { s with cycle := s.cycle + 1 }) ∧
    (s.mainOn = false ∨ s.bit Fld.CLK_STATUS_REFCLK_OK k.val = false → Does (.refclkLoss k) s fun t => t = { s with cycle := s.cycle + 1 }))

/-- R26, R99, R102, R103, R104, R105, R106: the control PLL is declared locked when PLL_LOCK reads lock, which is 0.80 V rising, and down to 0.60 V
falling, to 1.40 V; the realignment of the ticks begins. With no such reading, or with the PLL locked already, only what the ball shows changes, and
SYSCLK_OK, which a locked comparison shows (the model's reading). Ticks resume once a time transfer has been received since, while the part is booted.
Once REFCLK_SD_0 has been present for 100 ms the timebase is clocked from it again. A reference that is present again shows so; a PLL that then relocks
shows its lock; lanes that are down with a SerDes group train again; with the Ridgeline's the held-back entries are written, with the application cores'
every operation that was not final ends FAILED. -/
def Obligations.ClockReturns : Prop :=
  (∀ (s : State) (lockV : BitVec 8), s.rdB Fld.CLK_STATUS_CTRL_LOCK = false →
    pinReads s.time.pinLock lockV.toNat = true →
    Does (.ctrlPllLock lockV) s fun t =>
      t.rd Fld.CLK_STATUS_LOCK_V = lockV.toNat ∧ t.rd Fld.CLK_STATUS_CTRL_LOCK = 1 ∧ t.rd Fld.CLK_STATUS_SYSCLK_OK = 1 ∧ t.time.resume = some 2 ∧ t.time.baseLost = false ∧
      BitsKept Reg.CLK_STATUS [Fld.CLK_STATUS_LOCK_V, Fld.CLK_STATUS_CTRL_LOCK, Fld.CLK_STATUS_SYSCLK_OK] s t ∧
      t.rd Fld.SCHED_CFG_TICK_RUN = s.rd Fld.SCHED_CFG_TICK_RUN ∧ StoresKept s t ∧ t.bus = s.bus ∧
      RegsKeptBut (fun a => decide (a = Reg.CLK_STATUS) || decide (a = Reg.LOG_STATUS) || within [(0x100000, 0x230000)] a) s t) ∧
  (∀ (s : State) (lockV : BitVec 8),
    s.rdB Fld.CLK_STATUS_CTRL_LOCK = true ∨ pinReads s.time.pinLock lockV.toNat = false →
    Does (.ctrlPllLock lockV) s fun t =>
      t.rd Fld.CLK_STATUS_LOCK_V = lockV.toNat ∧ t.rd Fld.CLK_STATUS_SYSCLK_OK = 1 ∧
      t.rdB Fld.CLK_EVENTS_LOCK_PIN_FAULT = (s.rdB Fld.CLK_EVENTS_LOCK_PIN_FAULT || decide (140 < lockV.toNat)) ∧
      BitsKept Reg.CLK_STATUS [Fld.CLK_STATUS_LOCK_V, Fld.CLK_STATUS_SYSCLK_OK] s t ∧
      t = { s with cycle := s.cycle + 1, regs := t.regs, log := t.log, time := { s.time with pinLock := pinReads s.time.pinLock lockV.toNat } } ∧
      RegsKept [Reg.CLK_STATUS, Reg.CLK_EVENTS, Reg.LOG_STATUS] s t) ∧
  (∀ (s : State), s.time.resume = some 1 → s.rdB Fld.CLK_STATUS_CTRL_LOCK = true → s.img.phase = .booted →
    Does .tickResume s fun t =>
      t.rd Fld.SCHED_CFG_TICK_RUN = 1 ∧ t.time = { s.time with resume := some 0 } ∧ t.rd Fld.LE_STATUS_RUN = s.rd Fld.LE_STATUS_RUN ∧
      StoresKept s t ∧ t.pwr = s.pwr ∧ t.eng = s.eng ∧ t.ring = s.ring ∧
      RegsKeptBut (fun a => decide (a = Reg.SCHED_CFG) || within [(0x1B0000, 0x1C0000)] a) s t) ∧
  (∀ (s : State), s.time.resume ≠ some 1 ∨ s.rdB Fld.CLK_STATUS_CTRL_LOCK = false ∨ s.img.phase ≠ .booted →
    Does .tickResume s fun t => t = { s with cycle := s.cycle + 1 }) ∧
  (∀ (was : Bool) (v : Nat), (140 < v ∨ v < 60 → pinReads was v = false) ∧ (80 ≤ v ∧ v ≤ 140 → pinReads was v = true) ∧
    (60 ≤ v ∧ v < 80 → pinReads was v = was)) ∧
  (∀ (s : State),
    Does .tbFailback s fun t => t.rd Fld.CLK_STATUS_TB_SRC = 0 ∧ t.bit Fld.CLK_STATUS_REFCLK_OK 0 = true ∧
      BitsKept Reg.CLK_STATUS [Fld.CLK_STATUS_TB_SRC, ⟨Reg.CLK_STATUS, 20, 20⟩] s t ∧
      t = { s with cycle := s.cycle + 1, regs := t.regs } ∧ RegsKept [Reg.CLK_STATUS] s t) ∧
  (∀ (s : State) (k : Fin 4),
    Does (.pllRelock (.serdes k) true) s fun t =>
      (∀ j, j < 4 → t.bit Fld.CLK_STATUS_SD_LOCK j = (s.bit Fld.CLK_STATUS_SD_LOCK j || decide (j = k.val))) ∧
      (∀ j, j < 4 → t.bit Fld.CLK_STATUS_REFCLK_OK j = (s.bit Fld.CLK_STATUS_REFCLK_OK j || decide (j = k.val))) ∧
      (∀ j, j < 32 → t.rd (Fld.RG_LANE_STATUS_STATE (32 * k.val + j)) =
        if s.rdB (Fld.RG_LANE_CFG_EN (32 * k.val + j)) ∧ s.rd (Fld.RG_LANE_STATUS_STATE (32 * k.val + j)) = 5 ∧ s.domOn (5 + (32 * k.val + j) / 16) = true
        then 1 else s.rd (Fld.RG_LANE_STATUS_STATE (32 * k.val + j))) ∧
      t = { s with cycle := s.cycle + 1, regs := t.regs } ∧ RegsKeptBut (fun a => decide (a = Reg.CLK_STATUS) || inArray (Reg.RG_LANE_STATUS 0) 16 128 a) s t) ∧
  (∀ (s : State),
    Does (.pllRelock .ridgeline true) s fun t =>
      t.rd Fld.CLK_STATUS_RG_LOCK = 1 ∧ t.rd Fld.CLK_STATUS_SYSCLK_OK = 1 ∧ t.time = { s.time with lateRg := [] } ∧
      t.ring.forwarding = (s.ring.forwarding || s.domOn 0) ∧
      t.eng = s.eng ∧ StoresKept s t ∧ t.pwr = s.pwr ∧ t.lan = { s.lan with rgLossRtc := none } ∧ t.bus = s.bus) ∧
  (∀ (s : State),
    Does (.pllRelock .application true) s fun t =>
      t.rd Fld.CLK_STATUS_APP_LOCK = 1 ∧ t.rd Fld.CLK_STATUS_SYSCLK_OK = 1 ∧ t.time = { s.time with lateApp := [] } ∧
      (∀ k, k < 16 → opLive s k = true → s.op k ≠ none → t.rd (Fld.CE_OP_STATE k) = 5) ∧ t.rd Fld.CE_STATUS_LONG_OPS = ((List.range 16).filter (fun k => opLive s k && (s.op k).isNone)).length ∧
      t.eng.waits = [] ∧ (s.img.phase ≠ .inReset ∧ s.img.phase ≠ .released → t.rd Fld.CE_STATUS_FRONT_ONLY = 0) ∧
      StoresKept s t ∧ t.ring = s.ring ∧ t.pwr = s.pwr ∧ t.lan = { s.lan with appLossRtc := none } ∧ t.bus = s.bus) ∧
  (∀ (s : State) (k : Fin 4),
    let present : FRef → State → Prop := fun f t =>
      t.rd f = 1 ∧ BitsKept Reg.CLK_STATUS [f] s t ∧ t = { s with cycle := s.cycle + 1, regs := t.regs } ∧ RegsKept [Reg.CLK_STATUS] s t
    (Does (.pllRelock .ridgeline false) s (present Fld.CLK_STATUS_SYSCLK_OK)) ∧
    (Does (.pllRelock .application false) s (present Fld.CLK_STATUS_SYSCLK_OK)) ∧
    (Does (.pllRelock (.serdes k) false) s (present ⟨Reg.CLK_STATUS, 20 + k.val, 20 + k.val⟩)))

/-- R28, R107, R108, R112, R113, R118, R119, R120: a Sync message shows the filtered offset, saturated, and the port group of the master. UNSYNCED is set
when the offset exceeds 100 ns and cleared at the 16th Sync in a row within 10 ns. An offset of at most one frame is slewed; a larger one waits for 8
measurements that agree, and the step is then minus the offset in whole frames with the remainder slewed. A grandmaster takes no Sync. When no valid
Sync has come for 2 s UNSYNCED is set. A peer-delay request is answered on its port; a completed exchange gives the mean path delay of its port. The
best master that the announcements of the port groups name decides the servo's state: acquiring a new master on a port group, grandmaster with
UNSYNCED clear where the image names the node a time source and no better clock is announced, or free-running with no master (the order of two clocks
is that of IEEE 1588, log entry 95). A tick marker whose frame number differs from this node's, the accumulated correction removed, sets
FN_MISMATCH, is logged, and the difference waits for the next frame tick; an equal one changes nothing. A step that waits moves ring time by whole
frames and sets TICK_STEP. The time source sends a marker every 50 frames on each port group that is up (which node that is: log entry 88). The servo's
filter is an operand (log entry 12), and so is the marker's accumulated correction (log entry 87). -/
def Obligations.RingTimeFollowsTheMaster : Prop :=
  (∀ (s : State) (g : Fin 4) (t1 t2 corr : Nat) (filtered : Int), s.rd Fld.TIME_SYNC_SERVO ≠ 3 →
    let measured := roundDiv ((t2 : Int) - t1 - corr - Tab.get 0 s.time.pdelay g.val) 256
    let band := if filtered.natAbs ≤ 10 then s.time.inBand + 1 else 0
    let seen := (measured :: s.time.offsets).take 8
    let agree := decide (8 ≤ seen.length) && seen.all (fun a => seen.all (fun b => decide ((a - b).natAbs ≤ 1000)))
    let whole := roundDiv filtered 20000
    let un := if 100 < filtered.natAbs then true else if 16 ≤ band then false else s.rdB Fld.TIME_SYNC_UNSYNCED
    Does (.syncMessage g t1 t2 corr filtered) s fun t =>
      (t.rd Fld.TIME_SYNC_OFFSET : Int) = (if filtered > 32767 then 32767 else if filtered < -32767 then -32767 else filtered) % 65536 ∧
      t.rd Fld.TIME_SYNC_MASTER_PORT = g.val ∧ t.rdB Fld.TIME_SYNC_UNSYNCED = un ∧ t.rdB Fld.SCHED_STATUS_UNSYNCED = (if 100 < filtered.natAbs then true else if 16 ≤ band then false else s.rdB Fld.SCHED_STATUS_UNSYNCED) ∧
      t.rd Fld.TIME_SYNC_SERVO = (if un then 1 else 2) ∧
      t.time = (if filtered.natAbs ≤ 20000 then { s.time with inBand := band, offsets := seen, slew := 10 * filtered }
        else if agree then { s.time with inBand := band, offsets := [], stepPending := some (-whole), slew := 10 * (filtered - 20000 * whole) }
        else { s.time with inBand := band, offsets := seen }) ∧
      t = { s with cycle := s.cycle + 1, regs := t.regs, time := t.time } ∧ RegsKept [Reg.TIME_SYNC, Reg.SCHED_STATUS] s t) ∧
  (∀ (s : State) (g : Fin 4) (t1 t2 corr : Nat) (filtered : Int), s.rd Fld.TIME_SYNC_SERVO = 3 →
    (Does (.syncMessage g t1 t2 corr filtered) s fun t => t = { s with cycle := s.cycle + 1 }) ∧
    (Does .syncTimeout s fun t => t = { s with cycle := s.cycle + 1 })) ∧
  (∀ (s : State), s.rd Fld.TIME_SYNC_SERVO ≠ 3 →
    Does .syncTimeout s fun t =>
      t.rd Fld.TIME_SYNC_UNSYNCED = 1 ∧ t.rd Fld.SCHED_STATUS_UNSYNCED = 1 ∧ t.rd Fld.TIME_SYNC_SERVO = min 1 (s.rd Fld.TIME_SYNC_SERVO) ∧
      t = { s with cycle := s.cycle + 1, regs := t.regs, time := { s.time with inBand := 0 } } ∧
      RegsKept [Reg.TIME_SYNC, Reg.SCHED_STATUS] s t) ∧
  (∀ (s : State) (g : Fin 4) (t1 t2 t3 t4 : Nat),
    (Does (.pdelayMessage g true t1 t2 t3 t4) s fun t => t = { s with cycle := s.cycle + 1, out := t.out } ∧ t.out = ({ s with cycle := s.cycle + 1 }.send (.ptp g.val [2, t1, t2])).out) ∧
    (Does (.pdelayMessage g false t1 t2 t3 t4) s fun t =>
      Tab.get 0 t.time.pdelay g.val = (((t4 : Int) - t1) - ((t3 : Int) - t2)) / 2 ∧
      t = { s with cycle := s.cycle + 1, time := { s.time with pdelay := t.time.pdelay } })) ∧
  (∀ (s : State) (d : BmcaInput),
    let heard := match d with | .message g a => Tab.set none s.time.foreign g.val (some a) | .absent g => Tab.set none s.time.foreign g.val none
    let best := bestForeign { s with time := { s.time with foreign := heard } }
    let own := Config.timeSource s.img.active && (match best with | some (_, a) => announceBetter (ownAnnounce s) a | none => true)
    let g := (best.map (fun b => b.1)).getD 0
    Does (.ptpAnnounceMessage d) s fun t =>
      t.time.foreign = heard ∧
      (own = true → t.rd Fld.TIME_SYNC_SERVO = 3 ∧ t.rd Fld.TIME_SYNC_UNSYNCED = 0 ∧ t.rd Fld.SCHED_STATUS_UNSYNCED = 0) ∧
      (own = false → best ≠ none →
        if s.rd Fld.TIME_SYNC_SERVO = 2 ∧ s.rd Fld.TIME_SYNC_MASTER_PORT = g then t = { s with cycle := s.cycle + 1, time := t.time }
        else t.rd Fld.TIME_SYNC_SERVO = 1 ∧ t.rd Fld.TIME_SYNC_MASTER_PORT = g % 4 ∧ t.time = { s.time with foreign := heard, inBand := 0, offsets := [] }) ∧
      (own = false → best = none → t.rd Fld.TIME_SYNC_SERVO = 0 ∧ BitsKept Reg.TIME_SYNC [Fld.TIME_SYNC_SERVO] s t) ∧
      t.time = { s.time with foreign := heard, inBand := t.time.inBand, offsets := t.time.offsets } ∧
      t = { s with cycle := s.cycle + 1, regs := t.regs, time := t.time } ∧ RegsKept [Reg.TIME_SYNC, Reg.SCHED_STATUS] s t) ∧
  (∀ (s : State) (g : Nat) (a : Announce), bestForeign s = some (g, a) →
    (∀ h, h < 4 → ∀ k, k < 4 → (Tab.get none s.time.foreign h).all (fun b => (Tab.get none s.time.foreign k).all (fun c =>
      decide (b.identity = c.identity → announceRank b = announceRank c))) = true) →
    g < 4 ∧ Tab.get none s.time.foreign g = some a ∧
    (∀ h, h < 4 → (Tab.get none s.time.foreign h).all (fun b => decide (announceRank a ≤ announceRank b)) = true)) ∧
  (∀ (s : State) (mark : BitVec 48) (ns corr : Nat), mark.toNat ≠ fnCorrected ns corr s →
    Does (.tickMark mark ns corr) s fun t =>
      t.rd Fld.CLK_EVENTS_FN_MISMATCH = 1 ∧ t.time = { s.time with stepPending := t.time.stepPending } ∧
      t.time.stepPending.map (fun k => decide (((fnCorrected ns corr s : Int) + k - mark.toNat) % 2 ^ 48 = 0 ∧ k.natAbs ≤ 2 ^ 47)) = some true ∧ Logged 0x03 0x0004 0 s t ∧
      t = { s with cycle := s.cycle + 1, regs := t.regs, log := t.log, time := t.time } ∧ RegsKept [Reg.CLK_EVENTS, Reg.LOG_STATUS] s t) ∧
  (∀ (s : State) (mark : BitVec 48) (ns corr : Nat), mark.toNat = fnCorrected ns corr s → Does (.tickMark mark ns corr) s fun t => t = { s with cycle := s.cycle + 1 }) ∧
  (∀ (s : State) (k : Int), s.time.stepPending = some k → s.time.rt < 2 ^ 64 →
    Does .tickStep s fun t =>
      (t.time.rt : Int) = ((s.time.rt : Int) + k * 20000) % 2 ^ 64 ∧ t.time.stepPending = none ∧ t.rd Fld.SCHED_STATUS_TICK_STEP = 1 ∧
      t.time = { s.time with rt := t.time.rt, stepPending := none } ∧
      t.pending = s.pending ∧ t.cycle = s.cycle + 1 ∧ t.flash = s.flash ∧ t.pwr = s.pwr ∧ t.safe = s.safe ∧ t.win = s.win) ∧
  (∀ (s : State), s.time.stepPending = none → Does .tickStep s fun t => t = { s with cycle := s.cycle + 1 }) ∧
  (∀ (s : State), s.fn % 50 = 0 → s.img.phase = .booted →
    Does .tickMarkSend s fun t =>
      (Config.timeSource s.img.active = true → ∀ g, g < 4 → if (upGroups s).contains g then Queues (.tickMark s.fn) g s t else t.cq g = s.cq g) ∧
      (Config.timeSource s.img.active = false → t.ctl = s.ctl) ∧
      t = { s with cycle := s.cycle + 1, ctl := t.ctl }) ∧
  (∀ (s : State), s.fn % 50 ≠ 0 ∨ s.img.phase ≠ .booted → Does .tickMarkSend s fun t => t = { s with cycle := s.cycle + 1 })

/-- R118: a read of RT_NOW_LO returns bits 31:0 of RT64 and latches bits 63:32 into RT_NOW_HI in the same cycle; where the access is refused it answers
the refusal and changes no register. -/
def Obligations.RingTimeRead : Prop :=
  (∀ (s : State) (i : Initiator) (ns : Fin 20000), Reaches s i Reg.RT_NOW_LO →
    let rt := (s.time.rt + ns.val) % 2 ^ 64
    Does (.rtNowRead i ns) s fun t =>
      t.bus = ⟨BitVec.ofNat 32 rt, .done, .ok⟩ ∧ t.reg Reg.RT_NOW_LO = BitVec.ofNat 32 rt ∧ t.reg Reg.RT_NOW_HI = BitVec.ofNat 32 (rt / 2 ^ 32) ∧
      t = { s with cycle := s.cycle + 1, regs := t.regs, bus := t.bus } ∧ RegsKept [Reg.RT_NOW_LO, Reg.RT_NOW_HI] s t) ∧
  (∀ (s : State) (i : Initiator) (ns : Fin 20000), fwStalled s i = true → Does (.rtNowRead i ns) s fun t => t = { s with cycle := s.cycle + 1 }) ∧
  (∀ (s : State) (i : Initiator) (ns : Fin 20000) (k : BusKind) (st : Status), fwStalled s i = false → accessFault s Reg.RT_NOW_LO = some (k, st) →
    Does (.rtNowRead i ns) s fun t => t = { s with cycle := s.cycle + 1, bus := ⟨0#32, k, st⟩ })

/-- R122, R123, R124, R125, R126, R127, R139, R141: the assertion of the Lantern's power-on reset stops it; its release is a cold start. Each clears the
RTC and every Lantern register but the state of the cell switch; after a cold start the trouble log holds the one entry COLD_START with the source
that started the Lantern. The flash and the counted settings stay. While the reset holds the Lantern, none of its events but the cell switch does
anything. The harvest boost takes over if HARV_EN = 1, holds the TEG at half its open-circuit voltage and stops below 10 mV; the highest source
present carries VDD_LAN. The charger is off without a cell, without a charge current and in a fault, and keeps its phase while VDD_LAN is below 3.05
V; a charger that is done starts again more than 0.10 V below VCHG; precharge ends at 2.70 V; constant current ends at VCHG; constant voltage ends
with the current below a tenth of ICHG; it draws what its phase gives, at most what VDD_LAN can give without falling below 3.05 V. A cell above VCHG +
0.15 V or a die outside 0 to 60 degrees C is a fault: it turns the charger off, sets CHG_FAULT and is logged. The cell switch opens below UVD and closes again 0.30 V
above it. -/
def Obligations.LanternSuppliesAndCell : Prop :=
  (∀ (s : State) (c : Instr) (low : Bool) (counts : Nat), s.lan.mode = .stopped →
    [Instr.boostTakeover, .chgRestart, .lxtalFail, .lxtalReturn, .trimPeriodEnd, .rtcSyncLoad, .ridgelineHeartbeat, .rgHbLost, .ctHbLost, .appHbLost, .wakeIn low counts,
     .wakeTimerExpiry counts, .mainWake counts, .wakeFail counts, .wakeRetry counts, .logWriteSlot].contains c = true →
    Does c s fun t => t = { s with cycle := s.cycle + 1 }) ∧
  (∀ (s : State),
    Does .lanternResetAssert s fun t =>
      t.lan.mode = .stopped ∧ t.mainOn = false ∧ t.lan.rtc = 0 ∧ t.lan.wakeOut = false ∧ t.rd Fld.LAN_STATUS_SUPPLY = 3 ∧ t.log.ring = [] ∧
      t.rd Fld.LAN_STATUS_CELL_CONN = s.rd Fld.LAN_STATUS_CELL_CONN ∧
      (∀ a, a < 0x10000 → 0 < a → t.reg (0x30000 + a) = resetWord (0x30000 + a)) ∧
      t.cycle = s.cycle + 1 ∧ t.pending = s.pending ∧ t.otp = s.otp ∧ t.flash = s.flash ∧ t.bus = s.bus ∧ t.freeIx = s.freeIx) ∧
  (∀ (s : State) (src : Fin 3),
    Does (.lanternColdStart src) s fun t =>
      t.lan.mode = .dormant ∧ t.lan.rtc = 0 ∧ t.lan.coldSince = true ∧ t.lan.wakeOut = false ∧ t.rd Fld.LAN_STATUS_SUPPLY = src.val ∧
      t.rd Fld.LAN_STATUS_RTC_VALID = 0 ∧ t.rd Fld.LAN_STATUS_ORDERLY = 0 ∧ t.rd Fld.LOG_STATUS_COUNT = 1 ∧
      (t.log.ring.map (fun r => (r.entry.source, r.entry.code, r.entry.datum, r.rtc))) = [(0x00, 0x0001, BitVec.ofNat 32 src.val, 0)] ∧
      t.lan.extSupply = decide (src = 0) ∧ t.lan.harvest = decide (src = 1) ∧ t.rdB Fld.LAN_STATUS_CELL_CONN = (decide (src = 2) || s.rdB Fld.LAN_STATUS_CELL_CONN) ∧
      (∀ a, a < 0x10000 → 0 < a → t.reg (0x30000 + a) = resetWord (0x30000 + a)) ∧
      t.cycle = s.cycle + 1 ∧ t.pending = s.pending ∧ t.otp = s.otp ∧ t.flash = s.flash ∧ t.bus = s.bus ∧ t.freeIx = s.freeIx) ∧
  (∀ (s : State), s.lan.mode ≠ .stopped → s.rdB Fld.POWER_CFG_HARV_EN = true →
    Does .boostTakeover s fun t =>
      t.rd Fld.LAN_STATUS_SUPPLY = (if s.lan.extSupply then 0 else 1) ∧
      t = { s with cycle := s.cycle + 1, regs := t.regs, lan := { s.lan with boostOn := true, harvest := true } } ∧ RegsKept [Reg.LAN_STATUS] s t) ∧
  (∀ (s : State), s.rdB Fld.POWER_CFG_HARV_EN = false → Does .boostTakeover s fun t => t = { s with cycle := s.cycle + 1 }) ∧
  (∀ (s : State) (ocv : Nat), s.lan.mode ≠ .stopped → s.rdB Fld.POWER_CFG_HARV_EN = true → s.lan.boostOn = true →
    Does (.harvestOcvMeasure ocv) s fun t =>
      t.lan = (if 1000 ≤ ocv / 2 then { s.lan with tegOcv := ocv, tegHold := ocv / 2 }
        else { s.lan with tegOcv := ocv, tegHold := 0, boostOn := false, harvest := false }) ∧
      t = { s with cycle := s.cycle + 1, regs := t.regs, lan := t.lan } ∧ RegsKept [Reg.LAN_STATUS] s t) ∧
  (∀ (s : State) (ext harv : Bool), s.lan.mode ≠ .stopped →
    let on := harv && s.rdB Fld.POWER_CFG_HARV_EN
    let back := decide (s.lan.mode = .dormant) && s.lan.cellDorm && (ext || on)
    Does (.lanternSupplyChange ext harv) s fun t =>
      t.rd Fld.LAN_STATUS_SUPPLY = (if ext then 0 else if on then 1 else if s.rdB Fld.LAN_STATUS_CELL_CONN then 2 else 3) ∧
      t = { s with cycle := s.cycle + 1, regs := t.regs, lan := { s.lan with extSupply := ext, harvest := harv, boostOn := on, tegHold := (if on then s.lan.tegHold else 0), mode := (if back then .bivouac else s.lan.mode), cellDorm := s.lan.cellDorm && !back, cellLowLogged := s.lan.cellLowLogged && !back } } ∧
      RegsKept [Reg.LAN_STATUS] s t) ∧
  (∀ (s : State) (ocv : Nat), s.rdB Fld.POWER_CFG_HARV_EN = false ∨ s.lan.boostOn = false → Does (.harvestOcvMeasure ocv) s fun t => t = { s with cycle := s.cycle + 1 }) ∧
  (∀ (s : State) (vcell icell vlan avail : Nat), s.lan.mode ≠ .stopped →
    let p := s.rd Fld.LAN_STATUS_CHG_PHASE
    let on := s.rdB Fld.POWER_CFG_CELL_TYPE && s.rdB Fld.POWER_CFG_ICHG && !s.lan.chgFault
    Does (.chargerPhase vcell icell vlan avail) s fun t =>
      (on = false → t.rd Fld.LAN_STATUS_CHG_PHASE = 0) ∧
      (on = true → vlan < 3050 → t.rd Fld.LAN_STATUS_CHG_PHASE = p) ∧
      (on = true → 3050 ≤ vlan → p = 0 → s.lan.chgDone = true → vchgMv s ≤ vcell + 100 → t.rd Fld.LAN_STATUS_CHG_PHASE = 0) ∧
      (on = true → 3050 ≤ vlan → p = 0 → s.lan.chgDone = false ∨ vcell + 100 < vchgMv s → vcell < 2500 → t.rd Fld.LAN_STATUS_CHG_PHASE = 1) ∧
      (on = true → 3050 ≤ vlan → p = 0 → s.lan.chgDone = false ∨ vcell + 100 < vchgMv s → 2700 ≤ vcell → vcell < vchgMv s → t.rd Fld.LAN_STATUS_CHG_PHASE = 2) ∧
      (on = true → 3050 ≤ vlan → p = 1 → t.rd Fld.LAN_STATUS_CHG_PHASE = (if 2700 ≤ vcell then 2 else 1)) ∧
      (on = true → 3050 ≤ vlan → p = 2 → 2700 ≤ vcell → t.rd Fld.LAN_STATUS_CHG_PHASE = (if vchgMv s ≤ vcell then 3 else 2)) ∧
      (on = true → 3050 ≤ vlan → p = 3 → t.rd Fld.LAN_STATUS_CHG_PHASE = (if 10 * icell < 5 * s.rd Fld.POWER_CFG_ICHG then 0 else 3)) ∧
      BitsKept Reg.LAN_STATUS [Fld.LAN_STATUS_CHG_PHASE] s t ∧
      t.lan.chgUa = (if vlan < 3050 then 0 else min avail (match t.rd Fld.LAN_STATUS_CHG_PHASE with
        | 1 => 5 * s.rd Fld.POWER_CFG_ICHG / 10 | 2 => 5 * s.rd Fld.POWER_CFG_ICHG | 3 => icell | _ => 0)) ∧
      t = { s with cycle := s.cycle + 1, regs := t.regs, lan := { s.lan with chgDone := t.lan.chgDone, chgUa := t.lan.chgUa } } ∧ RegsKept [Reg.LAN_STATUS] s t) ∧
  (∀ (s : State) (vcell : Nat) (temp : Int), s.lan.mode ≠ .stopped → s.rdB Fld.POWER_CFG_CELL_TYPE = true →
    vchgMv s + 150 < vcell ∨ temp < 0 ∨ 60 < temp →
    Does (.chgFault vcell temp) s fun t =>
      t.rd Fld.LAN_STATUS_CHG_PHASE = 0 ∧ t.rd Fld.LAN_EVENTS_CHG_FAULT = 1 ∧ Logged 0x00 0x0007 (if vchgMv s + 150 < vcell then 1 else 2) s t ∧
      t = { s with cycle := s.cycle + 1, regs := t.regs, log := t.log, lan := { s.lan with chgFault := true, chgDone := false, chgUa := 0 } } ∧
      RegsKept [Reg.LAN_STATUS, Reg.LAN_EVENTS, Reg.LOG_STATUS] s t) ∧
  (∀ (s : State) (vcell : Nat) (temp : Int), s.rdB Fld.POWER_CFG_CELL_TYPE = false ∨ (vcell ≤ vchgMv s + 150 ∧ 0 ≤ temp ∧ temp ≤ 60) →
    Does (.chgFault vcell temp) s fun t => t = { s with cycle := s.cycle + 1 }) ∧
  (∀ (s : State), s.lan.mode ≠ .stopped → Does .chgRestart s fun t => t = { s with cycle := s.cycle + 1, lan := { s.lan with chgFault := false } }) ∧
  (∀ (s : State) (vcell : Nat), s.lan.mode ≠ .stopped → s.rdB Fld.LAN_STATUS_CELL_CONN = true → vcell < uvdMv s →
    Does (.cellUv vcell) s fun t =>
      t.rd Fld.LAN_STATUS_CELL_CONN = 0 ∧ t.rd Fld.LAN_EVENTS_CELL_UV = 1 ∧ Logged 0x00 0x0004 vcell s t ∧
      t.rd Fld.LAN_STATUS_SUPPLY = (if s.lan.extSupply then 0 else if s.lan.harvest && s.rdB Fld.POWER_CFG_HARV_EN then 1 else 3) ∧
      t = { s with cycle := s.cycle + 1, regs := t.regs, log := t.log } ∧ RegsKept [Reg.LAN_STATUS, Reg.LAN_EVENTS, Reg.LOG_STATUS] s t) ∧
  (∀ (s : State) (vcell : Nat), s.rdB Fld.LAN_STATUS_CELL_CONN = false ∨ uvdMv s ≤ vcell → Does (.cellUv vcell) s fun t => t = { s with cycle := s.cycle + 1 }) ∧
  (∀ (s : State) (vcell : Nat), s.lan.mode ≠ .stopped → s.rdB Fld.LAN_STATUS_CELL_CONN = false → s.rdB Fld.POWER_CFG_CELL_TYPE = true → uvdMv s + 300 ≤ vcell →
    Does (.cellReconnect vcell) s fun t =>
      t.rd Fld.LAN_STATUS_CELL_CONN = 1 ∧ Logged 0x00 0x0005 0 s t ∧
      t.rd Fld.LAN_STATUS_SUPPLY = (if s.lan.extSupply then 0 else if s.lan.harvest && s.rdB Fld.POWER_CFG_HARV_EN then 1 else 2) ∧
      t = { s with cycle := s.cycle + 1, regs := t.regs, log := t.log } ∧ RegsKept [Reg.LAN_STATUS, Reg.LOG_STATUS] s t) ∧
  (∀ (s : State) (vcell : Nat), s.rdB Fld.LAN_STATUS_CELL_CONN = true ∨ s.rdB Fld.POWER_CFG_CELL_TYPE = false ∨ vcell < uvdMv s + 300 →
    Does (.cellReconnect vcell) s fun t => t = { s with cycle := s.cycle + 1 }) ∧
  (∀ (s : State) (vcell : Nat), s.lan.mode = .stopped →
    (s.rdB Fld.LAN_STATUS_CELL_CONN = true → vcell < uvdMv s →
      Does (.cellUv vcell) s fun t => t.rd Fld.LAN_STATUS_CELL_CONN = 0 ∧ t = { s with cycle := s.cycle + 1, regs := t.regs } ∧ RegsKept [Reg.LAN_STATUS] s t) ∧
    (s.rdB Fld.LAN_STATUS_CELL_CONN = false → s.rdB Fld.POWER_CFG_CELL_TYPE = true → uvdMv s + 300 ≤ vcell →
      Does (.cellReconnect vcell) s fun t => t.rd Fld.LAN_STATUS_CELL_CONN = 1 ∧ t = { s with cycle := s.cycle + 1, regs := t.regs } ∧ RegsKept [Reg.LAN_STATUS] s t))

/-- R64, R65, R128, R129, R130, R131, R132, R133, R149, R159: on loss of the crystal LXTAL_OK and RTC_VALID are clear, LXTAL_FAIL is set and logged, the
RTC counts on the RC oscillator and both hold pins stop; on its return the RTC counts on the crystal again. TRIM is added at the end of a period, and a timed wake counts it
too, but not on the RC oscillator. At a whole second of synchronised ring time with RTC_SYNC = 1 the RTC takes floor(RT64 × 32,768 / 10^9) where it is 2 counts
or more off or RTC_VALID is 0. A read of RTC_LO answers bits 31:0 and latches bits 47:32. A heartbeat of the Ridgeline carries the hold request of
each ring; a pin toggles while it is requested, the crystal runs and its 10 ms wait has passed. Without a heartbeat, or without its request, a pin
stops and waits; at the end of the wait it may toggle again, and a pin that does not toggle counts as bypassed. A loss of a heartbeat sets its event
and is logged; that of the application cores, APP_PERIOD after the last kick, restarts them if APP_ACT = 1. Two samples in a row of a position contact
against the hold state set POS_MISMATCH (the moment of the second one is the model's choice, log entry 76). -/
def Obligations.LanternClockAndHeartbeats : Prop :=
  (∀ (s : State), s.lan.mode ≠ .stopped → s.lan.onRc = false →
    Does .lxtalFail s fun t =>
      t.rd Fld.LAN_STATUS_LXTAL_OK = 0 ∧ t.rd Fld.LAN_STATUS_RTC_VALID = 0 ∧ t.rd Fld.LAN_EVENTS_LXTAL_FAIL = 1 ∧ Logged 0x00 0x0002 0 s t ∧
      t.rd Fld.BYP_PINS_HOLD_A = 0 ∧ t.rd Fld.BYP_PINS_HOLD_B = 0 ∧
      t = { s with cycle := s.cycle + 1, regs := t.regs, log := t.log, lan := { s.lan with onRc := true, holdWait := t.lan.holdWait } } ∧
      RegsKept [Reg.LAN_STATUS, Reg.LAN_EVENTS, Reg.BYP_PINS, Reg.LOG_STATUS] s t) ∧
  (∀ (s : State), s.lan.onRc = true → Does .lxtalFail s fun t => t = { s with cycle := s.cycle + 1 }) ∧
  (∀ (s : State), s.lan.mode ≠ .stopped →
    Does .lxtalReturn s fun t =>
      t.rd Fld.LAN_STATUS_LXTAL_OK = 1 ∧ t.rd Fld.LAN_STATUS_RTC_VALID = s.rd Fld.LAN_STATUS_RTC_VALID ∧
      (t.rdB Fld.BYP_PINS_HOLD_A = (s.lan.holdReq.testBit 0 && (s.rdB Fld.BYP_PINS_HOLD_A || !s.lan.holdWait.testBit 0))) ∧
      (t.rdB Fld.BYP_PINS_HOLD_B = (s.lan.holdReq.testBit 1 && (s.rdB Fld.BYP_PINS_HOLD_B || !s.lan.holdWait.testBit 1))) ∧
      t = { s with cycle := s.cycle + 1, regs := t.regs, lan := { s.lan with onRc := false, holdWait := t.lan.holdWait, bypassed := t.lan.bypassed } } ∧
      RegsKept [Reg.LAN_STATUS, Reg.BYP_PINS] s t) ∧
  (∀ (s : State), s.lan.mode ≠ .stopped →
    let d := if s.lan.onRc then 0 else s.rdI Fld.RTC_TRIM_TRIM
    let wakes := s.lan.wakeLeft.any (fun k => decide ((k : Int) ≤ d))
    (0 < s.lan.periodDue → Does .trimPeriodEnd s fun t =>
      t = { s with cycle := s.cycle + 1, lan := { s.lan with periodDue := s.lan.periodDue - 1, rtc := (((s.lan.rtc : Int) + d) % 2 ^ 48).toNat, wakeLeft := s.lan.wakeLeft.map (fun k => ((k : Int) - d).toNat), wakeActive := (if wakes then setBitOf s.lan.wakeActive 1 true else s.lan.wakeActive), wakeFailed := s.lan.wakeFailed && (!wakes || s.lan.wakeActive.testBit 1) } }) ∧
    (s.lan.periodDue = 0 → Does .trimPeriodEnd s fun t => t = { s with cycle := s.cycle + 1 })) ∧
  (∀ (s : State), s.lan.mode = .mainOn → s.rdB Fld.TIME_SYNC_UNSYNCED = false → s.rdB Fld.RTC_TRIM_RTC_SYNC = true → s.time.rt % 1000000000 = 0 →
    let v := s.time.rt * 32768 / 1000000000 % 2 ^ 48
    let load := decide (2 ≤ (fnSigned v s.lan.rtc).natAbs ∨ s.rdB Fld.LAN_STATUS_RTC_VALID = false)
    Does .rtcSyncLoad s fun t =>
      t.lan.rtc = (if load then v else s.lan.rtc) ∧ t.rd Fld.LAN_STATUS_RTC_VALID = 1 ∧
      ((fnSigned v s.lan.rtc).natAbs < 32768 → t.log = s.log) ∧
      t = { s with cycle := s.cycle + 1, regs := t.regs, log := t.log, lan := { s.lan with rtc := t.lan.rtc, rtcFrac := if load then 0 else s.lan.rtcFrac } } ∧
      RegsKept [Reg.LAN_STATUS, Reg.LOG_STATUS] s t) ∧
  (∀ (s : State), s.lan.mode ≠ .mainOn ∨ s.rdB Fld.TIME_SYNC_UNSYNCED = true ∨ s.rdB Fld.RTC_TRIM_RTC_SYNC = false ∨ s.time.rt % 1000000000 ≠ 0 →
    Does .rtcSyncLoad s fun t => t = { s with cycle := s.cycle + 1 }) ∧
  (∀ (s : State) (i : Initiator), s.lan.mode = .mainOn → fwStalled s i = false →
    Does (.rtcRead i) s fun t =>
      t.bus = ⟨BitVec.ofNat 32 s.lan.rtc, .done, .ok⟩ ∧ t.reg Reg.RTC_HI = BitVec.ofNat 32 (s.lan.rtc / 2 ^ 32) ∧
      t = { s with cycle := s.cycle + 1, regs := t.regs, bus := t.bus } ∧ RegsKept [Reg.RTC_LO, Reg.RTC_HI] s t) ∧
  (∀ (s : State), s.lan.mode = .mainOn → s.ring.forwarding = true →
    Does .ridgelineHeartbeat s fun t =>
      (t.rdB Fld.BYP_PINS_HOLD_A = (s.rdB Fld.RG_RING_STATUS_HOLD_REQ_A && s.rdB Fld.LAN_STATUS_LXTAL_OK && (s.rdB Fld.BYP_PINS_HOLD_A || !s.lan.holdWait.testBit 0))) ∧
      (t.rdB Fld.BYP_PINS_HOLD_B = (s.rdB Fld.RG_RING_STATUS_HOLD_REQ_B && s.rdB Fld.LAN_STATUS_LXTAL_OK && (s.rdB Fld.BYP_PINS_HOLD_B || !s.lan.holdWait.testBit 1))) ∧
      t.lan.holdReq = s.rd Fld.RG_RING_STATUS_HOLD_REQ_A + 2 * s.rd Fld.RG_RING_STATUS_HOLD_REQ_B ∧
      t = { s with cycle := s.cycle + 1, regs := t.regs, lan := { s.lan with holdReq := t.lan.holdReq, rgLossRtc := none, holdWait := t.lan.holdWait, bypassed := t.lan.bypassed } } ∧
      RegsKept [Reg.BYP_PINS] s t) ∧
  (∀ (s : State), s.lan.mode ≠ .mainOn ∨ s.ring.forwarding = false → Does .ridgelineHeartbeat s fun t => t = { s with cycle := s.cycle + 1 }) ∧
  (∀ (s : State) (i : Initiator), s.lan.mode ≠ .stopped → fwStalled s i = false →
    Does (.appKick i) s fun t =>
      t = { s with cycle := s.cycle + 1, bus := ⟨0#32, .done, .ok⟩, lan := if i = .fw then { s.lan with appAge := 0, appLossRtc := none } else s.lan }) ∧
  (∀ (s : State), s.lan.mode = .mainOn →
    Does .rgHbLost s fun t =>
      t.rd Fld.BYP_PINS_HOLD_A = 0 ∧ t.rd Fld.BYP_PINS_HOLD_B = 0 ∧ t.rd Fld.LAN_EVENTS_RG_HB_LOST = 1 ∧ Logged 0x00 0x0008 0 s t ∧
      (∀ r, r < 2 → t.lan.holdWait.testBit r = (s.lan.holdWait.testBit r || s.rdB (holdField r))) ∧
      t = { s with cycle := s.cycle + 1, regs := t.regs, log := t.log, lan := { s.lan with holdReq := 0, rgLossRtc := some s.lan.rtc, holdWait := t.lan.holdWait } } ∧
      RegsKept [Reg.BYP_PINS, Reg.LAN_EVENTS, Reg.LOG_STATUS] s t) ∧
  (∀ (s : State), s.lan.mode = .mainOn →
    Does .ctHbLost s fun t =>
      (s.lan.ctHbSeen = true → t.rd Fld.LAN_EVENTS_CT_HB_LOST = 1 ∧ Logged 0x00 0x0009 0 s t) ∧
      (s.lan.ctHbSeen = false → t.regs = s.regs ∧ t.log = s.log) ∧
      t = { s with cycle := s.cycle + 1, regs := t.regs, log := t.log, lan := { s.lan with ctHbSeen := false } } ∧
      RegsKept [Reg.LAN_EVENTS, Reg.LOG_STATUS] s t) ∧
  (∀ (s : State), s.lan.mode = .mainOn → s.rd Fld.DBG_HALT_STATUS_APP = 0 →
    Nat.max 1 (s.rd Fld.HB_CTRL_APP_PERIOD) * 5000 ≤ s.lan.appAge →
    Does .appHbLost s fun t =>
      t.rd Fld.LAN_EVENTS_APP_HB_LOST = 1 ∧ t.lan = { s.lan with appLossRtc := some s.lan.rtc, appAge := 0 } ∧
      (s.rdB Fld.HB_CTRL_APP_ACT = true → t.rd Fld.CE_STATUS_SESSIONS = 0 ∧ (∀ k, k < 64 → t.rdB (Fld.CE_SESS_VALID k) = false)) ∧
      (s.rdB Fld.HB_CTRL_APP_ACT = false → Logged 0x00 0x000A 0 s t ∧ t = { s with cycle := s.cycle + 1, regs := t.regs, log := t.log, lan := t.lan } ∧
        RegsKept [Reg.LAN_EVENTS, Reg.LOG_STATUS] s t) ∧
      StoresKept s t ∧ t.ring = s.ring ∧ t.pwr = s.pwr ∧ t.time = s.time ∧ t.bus = s.bus) ∧
  (∀ (s : State) (r : Fin 2), s.lan.mode ≠ .stopped → s.lan.holdWait.testBit r.val = true →
    Does (.holdWaitEnd r) s fun t =>
      t.rdB (holdField r.val) = (s.lan.holdReq.testBit r.val && s.rdB Fld.LAN_STATUS_LXTAL_OK) ∧
      (s.rdB (holdField r.val) = false → t.lan.holdWait.testBit r.val = false) ∧
      t = { s with cycle := s.cycle + 1, regs := t.regs, lan := { s.lan with holdWait := t.lan.holdWait, bypassed := t.lan.bypassed } } ∧
      BitsKept Reg.BYP_PINS [holdField r.val] s t ∧ RegsKept [Reg.BYP_PINS] s t) ∧
  (∀ (s : State) (r : Fin 2), s.lan.mode ≠ .stopped →
    Does (.bypassCounted r) s fun t =>
      (∀ k, k < 2 → t.lan.bypassed.testBit k = (s.lan.bypassed.testBit k || (decide (k = r.val) && !s.rdB (holdField k)))) ∧
      t = { s with cycle := s.cycle + 1, lan := { s.lan with bypassed := t.lan.bypassed } }) ∧
  (∀ (s : State) (r : Fin 2) (closed : Bool), s.lan.mode ≠ .stopped → s.rdB (posFitField r.val) = true →
    let bad := closed != s.rdB (holdField r.val)
    let n := Tab.get 0 s.lan.posBad r.val + 1
    Does (.bypPosSample r closed) s fun t =>
      t.rdB (posField r.val) = closed ∧ Tab.get 0 t.lan.posBad r.val = (if bad then n else 0) ∧
      t.rdB (posMisField r.val) = (s.rdB (posMisField r.val) || (bad && n == 2)) ∧
      (if bad && n == 2 then Logged 0x00 0x000E r.val s t else t.log = s.log) ∧
      t.rdB (holdField r.val) = s.rdB (holdField r.val) ∧
      t = { s with cycle := s.cycle + 1, regs := t.regs, log := t.log, lan := { s.lan with posBad := t.lan.posBad } } ∧
      RegsKept [Reg.BYP_PINS, Reg.LOG_STATUS] s t) ∧
  (∀ (s : State), s.lan.mode = .mainOn →
    s.rd Fld.DBG_HALT_STATUS_APP ≠ 0 ∨ s.lan.appAge < Nat.max 1 (s.rd Fld.HB_CTRL_APP_PERIOD) * 5000 →
    Does .appHbLost s fun t => t = { s with cycle := s.cycle + 1 })

/-- R76, R128, R134, R135, R137, R138, R139, R152: asleep, the RTC and a timed wake count on, a wake source becomes active and is kept while it is; a wake
needs an active source, of which LMON inputs count only in Bivouac. It drives WAKE_OUT high and records the sources in WAKE_CAUSE and in the entry
WAKE. A failed wake drives WAKE_OUT low and sets WAKE_FAIL; a retry wakes again after 60 s while a source is still active; a source that becomes active afresh wakes at once, once WAKE_OUT has been low for 50 ms. A source that becomes active while a sleep
is being entered cancels it. A cycle of Bivouac converts each LMON input whose ACT is not 0, and VCELL. An input matches outside [LO, HI], or inside
it with MODE = 1; it enters match after COUNT matching cycles in a row, which sets its bit in LMON_MATCH and with ACT = 2 makes it a wake source, and
leaves after one cycle without. With the main domain on all inputs and supplies are converted and nothing is evaluated. How many RTC counts have
passed is an operand, and the state after a failed wake is the model's choice (log entry 69). -/
def Obligations.SleepAndWake : Prop :=
  (∀ (s : State) (low : Bool) (counts : Nat), asleep s = true → s.pwr.change = none →
    let s1 := sleepPass counts s
    (s1.lan.rtc = (s.lan.rtc + counts) % 2 ^ 48) ∧
    (s.lan.wakeLeft.all (fun k => s1.lan.wakeLeft == some (k - counts) && (decide (counts < k) || s1.lan.wakeActive.testBit 1)) = true) ∧
    (Does (.wakeIn low counts) s fun t => t = { s1 with cycle := s.cycle + 1, lan := { s1.lan with wakeActive := setBitOf s1.lan.wakeActive 0 low, wakeFailed := s1.lan.wakeFailed && (!low || s1.lan.wakeActive.testBit 0) && decide (setBitOf s1.lan.wakeActive 0 low ≠ 0) } }) ∧
    (Does (.wakeTimerExpiry counts) s fun t => t = { s1 with cycle := s.cycle + 1 })) ∧
  (∀ (s : State) (low : Bool) (counts : Nat), s.lan.mode = .mainOn → s.pwr.change = none →
    (Does (.wakeIn low counts) s fun t => t = { s with cycle := s.cycle + 1, lan := { s.lan with wakeActive := setBitOf s.lan.wakeActive 0 low, wakeFailed := s.lan.wakeFailed && (!low || s.lan.wakeActive.testBit 0) && decide (setBitOf s.lan.wakeActive 0 low ≠ 0) } }) ∧
    (Does (.wakeTimerExpiry counts) s fun t => t = { s with cycle := s.cycle + 1 })) ∧
  (∀ (s : State) (counts : Nat), s.lan.mode = .mainOn → enteringSleep s = true → s.lan.wakeActive.testBit 0 = false →
    s.pwr.change.map (fun c => (c.railOff, decide (c.leg ≤ 2), decide (c.fromState = 3))) = some (false, true, false) →
    Does (.wakeIn true counts) s fun t =>
      t.pwr.change.map (·.goal) = some 2 ∧ t.rd Fld.PWR_STATE_TARGET = 2 ∧ Logged 0x02 0x0005 0 s t ∧ t.mainOn = true ∧
      t = { s with cycle := s.cycle + 1, regs := t.regs, log := t.log, pwr := t.pwr, lan := { s.lan with wakeActive := setBitOf s.lan.wakeActive 0 true, wakeFailed := false } } ∧
      RegsKept [Reg.PWR_STATE, Reg.LOG_STATUS] s t) ∧
  (∀ (s : State) (counts : Nat), asleep s = true → wakeMask (sleepPass counts s) ≠ 0 → wakeMask (sleepPass counts s) < 64 →
    (sleepPass counts s).lan.wakeFailed = false → 1639 ≤ s.lan.lowFor + counts →
    let s1 := sleepPass counts s
    let cause := wakeMask s1 + (if s.lan.coldSince then 64 else 0)
    Does (.mainWake counts) s fun t =>
      t.rd Fld.LAN_STATUS_WAKE_CAUSE = cause ∧ t.log.lanQ.map (fun e => (e.source, e.code, e.datum)) =
        (if s.log.lanQ.length < 8 then s.log.lanQ.map (fun e => (e.source, e.code, e.datum)) ++ [(0x00, 0x000B, BitVec.ofNat 32 cause)]
         else s.log.lanQ.map (fun e => (e.source, e.code, e.datum))) ∧
      t = { s with cycle := s.cycle + 1, regs := t.regs, log := t.log, lan := { s1.lan with mode := .waking, wakeOut := true, wakeFailed := false, cellDorm := false } } ∧
      RegsKept [Reg.LAN_STATUS, Reg.LOG_STATUS] s t) ∧
  (∀ (s : State) (counts : Nat), asleep s = true → wakeMask (sleepPass counts s) ≠ 0 → wakeMask (sleepPass counts s) < 64 →
    (sleepPass counts s).lan.wakeFailed = true → 1966080 ≤ s.lan.lowFor + counts →
    let s1 := sleepPass counts s
    let cause := wakeMask s1 + (if s.lan.coldSince then 64 else 0)
    Does (.wakeRetry counts) s fun t =>
      t.rd Fld.LAN_STATUS_WAKE_CAUSE = cause ∧ t.log.lanQ.map (fun e => (e.source, e.code, e.datum)) =
        (if s.log.lanQ.length < 8 then s.log.lanQ.map (fun e => (e.source, e.code, e.datum)) ++ [(0x00, 0x000B, BitVec.ofNat 32 cause)]
         else s.log.lanQ.map (fun e => (e.source, e.code, e.datum))) ∧
      t = { s with cycle := s.cycle + 1, regs := t.regs, log := t.log, lan := { s1.lan with mode := .waking, wakeOut := true, wakeFailed := false, cellDorm := false } } ∧
      RegsKept [Reg.LAN_STATUS, Reg.LOG_STATUS] s t) ∧
  (∀ (s : State) (counts : Nat), asleep s = true →
    ((wakeMask (sleepPass counts s) = 0 ∨ (sleepPass counts s).lan.wakeFailed = true ∨ s.lan.lowFor + counts < 1639) → Does (.mainWake counts) s fun t => t = { sleepPass counts s with cycle := s.cycle + 1 }) ∧
    ((wakeMask (sleepPass counts s) = 0 ∨ (sleepPass counts s).lan.wakeFailed = false ∨ s.lan.lowFor + counts < 1966080) → Does (.wakeRetry counts) s fun t => t = { sleepPass counts s with cycle := s.cycle + 1 })) ∧
  (∀ (s : State) (counts : Nat), s.lan.mode = .mainOn →
    (Does (.mainWake counts) s fun t => t = { s with cycle := s.cycle + 1 }) ∧ (Does (.wakeRetry counts) s fun t => t = { s with cycle := s.cycle + 1 }) ∧
    (Does (.wakeFail counts) s fun t => t = { s with cycle := s.cycle + 1 })) ∧
  (∀ (s : State) (counts : Nat), s.lan.mode = .waking →
    Does (.wakeFail counts) s fun t =>
      t.rd Fld.LAN_EVENTS_WAKE_FAIL = 1 ∧
      t = { s with cycle := s.cycle + 1, regs := t.regs, log := t.log, lan := { (sleepPass counts s).lan with mode := (if s.rdB Fld.BIV_CFG_BIV_EN then .bivouac else .dormant), wakeOut := false, lowFor := 0, wakeFailed := true } } ∧
      RegsKept [Reg.LAN_EVENTS, Reg.LOG_STATUS] s t) ∧
  (∀ (s : State) (l0 l1 l2 l3 vcell : BitVec 12), s.lan.mode = .bivouac →
    let v := fun n => if n = 0 then l0.toNat else if n = 1 then l1.toNat else if n = 2 then l2.toNat else l3.toNat
    let used := fun n => decide (s.rd (Fld.LMON_CFG_ACT n) ≠ 0)
    let hit := fun n => (decide (s.rd (Fld.LMON_CFG_LO n) ≤ v n ∧ v n ≤ s.rd (Fld.LMON_CFG_HI n))) == s.rdB (Fld.LMON_CFG_MODE n)
    let run := fun n => Nat.min 15 (Tab.get 0 s.lan.lmonRun n + 1)
    let enters := fun n => used n && hit n && !s.lan.lmonIn.testBit n && decide (Nat.max 1 (s.rd (Fld.LMON_CFG_COUNT n)) ≤ run n)
    Does (.bivouacCycle l0 l1 l2 l3 vcell) s fun t =>
      (∀ n, n < 4 → t.rd (lmonField n) = (if used n then v n else s.rd (lmonField n))) ∧ t.rd Fld.SUPPLY_DATA_VCELL_V = vcell.toNat ∧
      (∀ n, n < 4 → Tab.get 0 t.lan.lmonRun n = (if used n then (if hit n then run n else 0) else Tab.get 0 s.lan.lmonRun n)) ∧
      (∀ n, n < 4 → t.lan.lmonIn.testBit n = (if used n then hit n && (s.lan.lmonIn.testBit n || enters n) else s.lan.lmonIn.testBit n)) ∧
      (∀ n, n < 4 → t.bit Fld.LAN_EVENTS_LMON_MATCH n = (s.bit Fld.LAN_EVENTS_LMON_MATCH n || enters n)) ∧
      (∀ n, n < 4 → t.lan.wakeActive.testBit (2 + n) = (if used n && !hit n then false
        else s.lan.wakeActive.testBit (2 + n) || (enters n && decide (s.rd (Fld.LMON_CFG_ACT n) = 2)))) ∧
      t.lan.rtc = (s.lan.rtc + 1024 * 2 ^ Nat.min 13 (s.rd Fld.BIV_CFG_PERIOD)) % 2 ^ 48 ∧
      (t.lan.mode = .bivouac ∨ t.lan.mode = .dormant) ∧
      t = { s with cycle := s.cycle + 1, regs := t.regs, log := t.log, lan := t.lan } ∧
      RegsKept [Reg.LMON_DATA_01, Reg.LMON_DATA_23, Reg.SUPPLY_DATA, Reg.LAN_EVENTS, Reg.LOG_STATUS] s t) ∧
  (∀ (s : State) (l0 l1 l2 l3 vcell : BitVec 12), s.lan.mode ≠ .bivouac → Does (.bivouacCycle l0 l1 l2 l3 vcell) s fun t => t = { s with cycle := s.cycle + 1 }) ∧
  (∀ (s : State) (l0 l1 l2 l3 vlan vcell : BitVec 12), s.lan.mode = .mainOn →
    Does (.lmonConvert l0 l1 l2 l3 vlan vcell) s fun t =>
      t.rd Fld.LMON_DATA_01_LMON_0 = l0.toNat ∧ t.rd Fld.LMON_DATA_01_LMON_1 = l1.toNat ∧ t.rd Fld.LMON_DATA_23_LMON_2 = l2.toNat ∧
      t.rd Fld.LMON_DATA_23_LMON_3 = l3.toNat ∧ t.rd Fld.SUPPLY_DATA_VLAN = vlan.toNat ∧ t.rd Fld.SUPPLY_DATA_VCELL_V = vcell.toNat ∧
      t = { s with cycle := s.cycle + 1, regs := t.regs, lan := { s.lan with cellLowLogged := t.lan.cellLowLogged } } ∧ RegsKept [Reg.LMON_DATA_01, Reg.LMON_DATA_23, Reg.SUPPLY_DATA] s t) ∧
  (∀ (s : State) (l0 l1 l2 l3 vlan vcell : BitVec 12), s.lan.mode ≠ .mainOn → Does (.lmonConvert l0 l1 l2 l3 vlan vcell) s fun t => t = { s with cycle := s.cycle + 1 })

/-- R142, R145, R146: in a writing slot the oldest queued entry becomes the newest of the log, which holds at most 1,024; over a full log the oldest is
lost and counted in OVERWRITTEN. LOG_CLEAR from a session of role SERVICE leaves the one entry LOG_CLEARED and both counts at 0; from anyone else it
is denied and changes nothing. A read of LOG_E0 copies the selected entry into LOG_E0 to LOG_E3, and zeros at or beyond COUNT. -/
def Obligations.TroubleLogAccess : Prop :=
  (∀ (s : State) (e : LogEntry) (l : TroubleLog), s.lan.mode ≠ .stopped → logPop s.log = some (e, l) →
    Does .logWriteSlot s fun t =>
      t.log = { l with ring := (⟨e, e.late.getD s.lan.rtc, !s.rdB Fld.LAN_STATUS_RTC_VALID⟩ :: s.log.ring).take 1024 } ∧
      t.rd Fld.LOG_STATUS_COUNT = t.log.ring.length % 2048 ∧
      t.rd Fld.LOG_OVF_OVERWRITTEN = (if 1024 ≤ s.log.ring.length then Nat.min 0xFFFFFFFF (s.rd Fld.LOG_OVF_OVERWRITTEN + 1) else s.rd Fld.LOG_OVF_OVERWRITTEN) ∧
      t = { s with cycle := s.cycle + 1, regs := t.regs, log := t.log } ∧ RegsKept [Reg.LOG_STATUS, Reg.LOG_OVF] s t) ∧
  (∀ (s : State), s.log.lanQ = [] → s.log.ctrlQ = [] → s.log.switchQ = [] → Does .logWriteSlot s fun t => t = { s with cycle := s.cycle + 1 }) ∧
  (∀ (s : State) (k : Fin 64), s.lan.mode ≠ .stopped → s.rd (Fld.CE_SESS_ROLE k.val) = 3 →
    Does (.logClear (.session k)) s fun t =>
      t.log.ring.map (fun r => (r.entry.source, r.entry.code, r.entry.datum, r.rtc)) = [(0x00, 0x000F, 0#32, s.lan.rtc)] ∧
      t.rd Fld.LOG_STATUS_COUNT = 1 ∧ t.rd Fld.LOG_STATUS_DROPPED = 0 ∧ t.rd Fld.LOG_OVF_OVERWRITTEN = 0 ∧ t.bus = ⟨0#32, .done, .ok⟩ ∧
      t = { s with cycle := s.cycle + 1, regs := t.regs, log := { s.log with ring := t.log.ring }, bus := t.bus } ∧ RegsKept [Reg.LOG_STATUS, Reg.LOG_OVF] s t) ∧
  (∀ (s : State) (i : Initiator), s.lan.mode ≠ .stopped → sessionOf [3] s i = false →
    Does (.logClear i) s fun t => t = { s with cycle := s.cycle + 1, bus := ⟨0#32, .done, .denied⟩ }) ∧
  (∀ (s : State) (i : Initiator), s.lan.mode = .mainOn → fwStalled s i = false →
    let b := ((s.log.ring[s.rd Fld.LOG_CTRL_LOG_SEL]?).map logBytes).getD (List.replicate 16 0#8)
    Does (.logEntryRead i) s fun t =>
      (∀ k, k < 4 → t.reg (Reg.LOG_E k) = BitVec.ofNat 32 (leAt b (4 * k) 4)) ∧ t.bus = ⟨BitVec.ofNat 32 (leAt b 0 4), .done, .ok⟩ ∧
      t = { s with cycle := s.cycle + 1, regs := t.regs, bus := t.bus } ∧ RegsKeptBut (inArray (Reg.LOG_E 0) 4 4) s t)

/-- R10, R71, R114, R164, R165, R169, R170, R171, R181, R197, R199: SYS_RST_N low resets the main domain while it is on: its registers take their reset
words, RESET_CAUSE shows cause 1 and LAN_COLD for the first reset after a cold start; the Lantern, the regulator enables, the flash, the counted
settings and the change log stay. Release lets the boot begin; after a wake by the Lantern the main domain powers up with cause 0. The boot takes the
ACTIVE slot if it verifies and else the PREVIOUS one, as a fallback; a pending activation with the commit marker has been made before. From the slot
taken it applies the rail plan, and the command engine accepts sessions. Where no slot verifies, and in lifecycle RETIRED, the part is in the no-image
state: no rail planned, and the recovery server on CSP1. Once the rail plan is complete and the control PLL locked the control sections are loaded,
the safety I/O is loaded, ring time comes from the Lantern (a stored pair used again and the cut to a whole frame are the model's choice, log entry
80) and UNSYNCED is set. At the next frame tick the image is activated locally: ticks run, ACT_EPOCH and ACT_DIGEST show it and the start state is
entered (START_STATE modulo 3: the model's choice, log entry 79). Out of their phase these events change nothing. A preload of a pending activation
that completes after the boot shows PRELOADED. -/
def Obligations.ResetAndBoot : Prop :=
  (∀ (s : State), s.lan.mode = .mainOn →
    Does .sysRst s fun t =>
      t.img = { State.reset.img with phase := .inReset } ∧ t.lan = { s.lan with coldSince := false } ∧ t.rd Fld.RESET_CAUSE_CAUSE = 1 ∧
      t.rdB Fld.RESET_CAUSE_LAN_COLD = s.lan.coldSince ∧ t.pwr.regEn = s.pwr.regEn ∧ t.rd Fld.RAIL_STATUS_EN = regEnOut t % 65536 ∧
      t.rd Fld.LIFECYCLE_STATE = s.otp.lifecycle % 8 ∧ t.rd Fld.CS_GRID_CODE = s.otp.gridCode % 256 ∧
      t.eng = { State.reset.eng with creds := s.eng.creds, caks := s.eng.caks } ∧ t.ring = State.reset.ring ∧ t.plots = State.reset.plots ∧ t.win = { State.reset.win with level := s.win.level, pins := s.win.pins } ∧
      t.time = State.reset.time ∧ StoresKept s t ∧ t.out = s.out ∧ t.bus = s.bus ∧
      RegsReset (fun a => inLantern a || resetTaken a) t ∧ RegsKeptBut (fun a => !inLantern a || decide (a = Reg.LOG_STATUS)) s t) ∧
  (∀ (s : State), s.lan.mode ≠ .mainOn → Does .sysRst s fun t => t = { s with cycle := s.cycle + 1 }) ∧
  (∀ (s : State) (vio0 vio1 counts : Nat), s.lan.mode = .waking →
    Does (.resetRelease vio0 vio1 counts) s fun t =>
      t.lan = { (sleepPass counts s).lan with mode := .mainOn, wakeActive := (sleepPass counts s).lan.wakeActive &&& 1, wakeLeft := none, appAge := 0, coldSince := false } ∧ t.img.phase = .released ∧ t.rd Fld.RESET_CAUSE_CAUSE = 0 ∧
      t.rdB Fld.RESET_CAUSE_LAN_COLD = s.lan.coldSince ∧ t.pwr.bankPresent = banksPresent [vio0, vio1] ∧ t.rd Fld.IO_BANK_STATUS_PRESENT = banksPresent [vio0, vio1] ∧ StoresKept s t ∧
      RegsReset (fun a => inLantern a || resetTaken a) t ∧ RegsKeptBut (fun a => !inLantern a || decide (a = Reg.LOG_STATUS)) s t) ∧
  (∀ (s : State) (vio0 vio1 counts : Nat), s.lan.mode = .mainOn →
    Does (.resetRelease vio0 vio1 counts) s fun t => t = { s with cycle := s.cycle + 1, img := { s.img with phase := if s.img.phase = .inReset then .released else s.img.phase } }) ∧
  (∀ (s : State) (vio0 vio1 counts : Nat), s.lan.mode ≠ .mainOn → s.lan.mode ≠ .waking → Does (.resetRelease vio0 vio1 counts) s fun t => t = { s with cycle := s.cycle + 1 }) ∧
  (∀ (s : State), s.lan.mode = .mainOn → s.img.phase = .released →
    let r := bootRecord (currentRec s.flash)
    let choice := if s.otp.lifecycle = 3 then none else bootChoice s.otp s.flash r
    Does .boot s fun t =>
      (choice = none → t.img.phase = .noImage ∧ t.rd Fld.IMG_STATUS_NO_IMAGE = 1 ∧ t.reg (Reg.CSP_CFG 1) = 0x90000000#32 ∧
        t.rd Fld.CE_STATUS_FRONT_ONLY = 0 ∧ (∀ n, n < 16 → t.reg (Reg.RAIL_CFG n) = resetWord (Reg.RAIL_CFG n)) ∧
        t.pwr.railsUp = false ∧ t.rd Fld.RAIL_STATUS_EN = regEnOut t % 65536) ∧
      (choice ≠ none → t.img.phase = .firmware ∧ t.rd Fld.CE_STATUS_FRONT_ONLY = 0) ∧
      (∀ k, k < 2 → choice.map (·.1) = some k → t.img.active = s.flash.slot k ∧ t.rd Fld.IMG_STATUS_ACT_SLOT = k ∧
        t.pwr.used = Config.usedDomains (s.flash.slot k) ∧ t.pwr.startState = imgStart (s.flash.slot k) ∧
        (∀ n, n < 16 → t.rd (Fld.RAIL_CFG_CLASS n) = imgRail (s.flash.slot k) n % 16) ∧
        (choice = some (k, true) → t.rd Fld.IMG_STATUS_BOOT_FALLBACK = 1 ∧ (currentRec t.flash).slot k = .active ∧ (currentRec t.flash).slot (1 - k) = .empty)) ∧
      (t.flash.slotA = s.flash.slotA ∧ t.flash.slotB = s.flash.slotB ∧ t.flash.clog = s.flash.clog) ∧
      t.pending = s.pending ∧ t.cycle = s.cycle + 1 ∧ t.otp = s.otp ∧ t.clog = s.clog ∧ t.bus = s.bus ∧ t.ring = s.ring ∧ t.time = s.time) ∧
  (∀ (s : State), s.img.phase = .firmware → s.pwr.railsUp = true → s.rdB Fld.CLK_STATUS_CTRL_LOCK = true →
    let ns := fun c => c * 1000000000 / 32768
    let rt := match s.lan.pair with
      | some p => if s.rdB Fld.LAN_STATUS_RTC_VALID && s.rdB Fld.LAN_STATUS_ORDERLY then p.1 + ns ((s.lan.rtc + 2 ^ 48 - p.2) % 2 ^ 48) else ns s.lan.rtc
      | none => ns s.lan.rtc
    Does .controlSectionsLoad s fun t =>
      t.img = { s.img with phase := .controlLoaded } ∧ t.safe.loaded = true ∧ t.time.rt = rt / 20000 * 20000 % 2 ^ 64 ∧ t.time.loaded = true ∧
      t.rd Fld.TIME_SYNC_UNSYNCED = 1 ∧ t.rd Fld.SCHED_STATUS_UNSYNCED = 1 ∧ StoresKept s t ∧ t.bus = s.bus ∧ t.pwr = s.pwr ∧ t.lan = s.lan ∧ t.ring = s.ring) ∧
  (∀ (s : State), s.img.phase ≠ .firmware ∨ s.pwr.railsUp = false ∨ s.rdB Fld.CLK_STATUS_CTRL_LOCK = false →
    Does .controlSectionsLoad s fun t => t = { s with cycle := s.cycle + 1 }) ∧
  (∀ (s : State), s.img.phase = .controlLoaded →
    Does .localActivation s fun t =>
      t.img.phase = .booted ∧ t.img.active = s.img.active ∧ t.img.activeFrames = 0 ∧ (s.rdB Fld.CLK_STATUS_CTRL_LOCK = true → t.rd Fld.SCHED_CFG_TICK_RUN = 1) ∧
      t.rd Fld.ACT_EPOCH = imgEpoch s.img.active ∧ (∀ w, w < 4 → t.rd (Fld.ACT_DIGEST w) = digestWord (imgDigest s.img.active) w) ∧
      t.rd Fld.PWR_STATE_TARGET = (if t.pwr.change.isSome then s.pwr.startState % 3 else 2) ∧
      t.pending = s.pending ∧ t.cycle = s.cycle + 1 ∧ t.otp = s.otp ∧ t.flash = s.flash ∧ t.clog = s.clog) ∧
  (∀ (s : State), s.img.phase ≠ .controlLoaded → Does .localActivation s fun t => t = { s with cycle := s.cycle + 1 }) ∧
  (∀ (s : State) (k : Nat), s.img.phase = .booted → (liveRec s).pending.map (·.slot) = some k →
    Does .preloadComplete s fun t =>
      t.rd Fld.IMG_STATUS_PRELOADED = 1 ∧ t = { s with cycle := s.cycle + 1, regs := t.regs, img := { s.img with shadow := s.flash.slot k } } ∧
      BitsKept Reg.IMG_STATUS [Fld.IMG_STATUS_PRELOADED] s t ∧ RegsKept [Reg.IMG_STATUS] s t) ∧
  (∀ (s : State), s.img.phase ≠ .booted ∨ (liveRec s).pending = none → Does .preloadComplete s fun t => t = { s with cycle := s.cycle + 1 })

/-- R181, R185, R187, R188, R170: a pending activation, or a pending re-pitch, whose frame has come is made, or is missed with the lowest reason that
applies. Made: the staged image is the active one, its slot shows in ACT_SLOT, ACT_EPOCH and ACT_DIGEST are its own, and PRELOADED is clear. Missed:
EPOCH_MISSED and MISS_REASON say so, the record is erased, and the active image stays. Before its frame, and for a record of the other kind, nothing
happens. After a boot the pending frame is compared first: later stays pending, earlier is missed with reason 5. R181, R186: after an activation the
commit marker is programmed into the record in use, and then the record is rewritten with the new slot states: the running slot is ACTIVE, the other
PREVIOUS, nothing is pending. SEC_MIN rises to the version of an image with RAISE_MIN that has been active for 24 h; not otherwise. -/
def Obligations.Activations : Prop :=
  (∀ (s : State) (p : PendingAct),
    (liveRec s).pending = some p → p.target = s.fn → s.img.unresolved = false → p.slot < 2 → missReason p s = none → s.clogFull = false → s.img.rewriteDue = false →
    let made : State → Prop := fun t =>
      t.img.active = s.flash.slot p.slot ∧ t.rd Fld.IMG_STATUS_ACT_SLOT = p.slot ∧ t.rd Fld.IMG_STATUS_PRELOADED = 0 ∧
      t.rd Fld.ACT_EPOCH = imgEpoch (s.flash.slot p.slot) ∧ (∀ w, w < 4 → t.rd (Fld.ACT_DIGEST w) = digestWord (imgDigest (s.flash.slot p.slot)) w) ∧
      t.img.commitDue = true ∧ t.img.rewriteDue = true ∧ t.img.activeFrames = 0 ∧ t.img.consent = none ∧
      t.rd Fld.IMG_STATUS_PENDING = 0 ∧ t.clog.queue.length = s.clog.queue.length + 1 ∧
      t.pending = s.pending ∧ t.cycle = s.cycle + 1 ∧ t.otp = s.otp ∧ t.flash = s.flash
    (p.plot.isSome = false → Does .activation s made) ∧ (p.plot.isSome = true → Does .repitch s made)) ∧
  (∀ (s : State) (p : PendingAct) (r : Nat),
    (liveRec s).pending = some p → p.target = s.fn → s.img.unresolved = false → missReason p s = some r → r < 16 →
    let missed : State → Prop := fun t =>
      t.rd Fld.IMG_STATUS_EPOCH_MISSED = 1 ∧ t.rd Fld.IMG_STATUS_MISS_REASON = r ∧ (liveRec t).pending = none ∧ t.rd Fld.IMG_STATUS_PENDING = 0 ∧
      t.img = { s.img with consent := none, unresolved := false, rewriteDue := false, commitDue := false } ∧
      t.flash.slotA = s.flash.slotA ∧ t.flash.slotB = s.flash.slotB ∧ t.flash.clog = s.flash.clog ∧
      t.pending = s.pending ∧ t.cycle = s.cycle + 1 ∧ t.otp = s.otp ∧ t.clog = s.clog
    (p.plot.isSome = false → Does .activation s missed) ∧ (p.plot.isSome = true → Does .repitch s missed)) ∧
  (∀ (s : State),
    let waits : Bool → Bool := fun re => ((liveRec s).pending.map (fun p => decide (p.plot.isSome = re ∧ p.target = s.fn)) != some true) || s.img.unresolved
    (waits false = true → Does .activation s fun t => t = { s with cycle := s.cycle + 1 }) ∧
    (waits true = true → Does .repitch s fun t => t = { s with cycle := s.cycle + 1 })) ∧
  (∀ (s : State) (p : PendingAct), s.img.unresolved = true → s.unsynced = false → s.img.phase = .booted → (liveRec s).pending = some p → p.target ≠ s.fn →
    Does .pendingResolve s fun t =>
      t.img.active = s.img.active ∧ t.img.unresolved = false ∧
      (if fnLater p.target s.fn then t = { s with cycle := s.cycle + 1, img := { s.img with unresolved := false } }
       else t.rd Fld.IMG_STATUS_EPOCH_MISSED = 1 ∧ t.rd Fld.IMG_STATUS_MISS_REASON = 5 ∧ (liveRec t).pending = none) ∧
      t.pending = s.pending ∧ t.cycle = s.cycle + 1 ∧ t.otp = s.otp ∧ t.clog = s.clog) ∧
  (∀ (s : State), s.img.unresolved = false ∨ s.unsynced = true ∨ s.img.phase ≠ .booted → Does .pendingResolve s fun t => t = { s with cycle := s.cycle + 1 }) ∧
  (∀ (s : State), s.img.commitDue = true →
    Does .commitMarker s fun t =>
      (currentRec t.flash).pending = (currentRec s.flash).pending ∧ ((currentRec s.flash).valid = true → (currentRec t.flash).commit = true) ∧
      t = { s with cycle := s.cycle + 1, out := t.out, flash := { s.flash with rec0 := t.flash.rec0, rec1 := t.flash.rec1 }, img := { s.img with commitDue := false } }) ∧
  (∀ (s : State), s.img.rewriteDue = true → (currentRec s.flash).seq + 1 < 2 ^ 32 →
    let k := s.rd Fld.IMG_STATUS_ACT_SLOT
    Does .bootRecordRewrite s fun t =>
      (currentRec t.flash).slot k = .active ∧ (currentRec t.flash).slot (1 - k) = .previous ∧ (currentRec t.flash).pending = none ∧
      (currentRec t.flash).valid = true ∧ (currentRec t.flash).seq = (currentRec s.flash).seq + 1 ∧ t.rd Fld.IMG_STATUS_PENDING = 0 ∧
      t = { s with cycle := s.cycle + 1, regs := t.regs, out := t.out, flash := { s.flash with rec0 := t.flash.rec0, rec1 := t.flash.rec1 },
                   img := { s.img with commitDue := false, rewriteDue := false } } ∧
      RegsKeptBut (fun a => [Reg.IMG_STATUS, Reg.STG_EPOCH, Reg.ACT_AT_LO, Reg.ACT_AT_HI, Reg.AGREE_STATUS].contains a || inArray (Reg.STG_DIGEST 0) 4 4 a) s t) ∧
  (∀ (s : State),
    (s.img.commitDue = false → Does .commitMarker s fun t => t = { s with cycle := s.cycle + 1 }) ∧
    (s.img.rewriteDue = false → Does .bootRecordRewrite s fun t => t = { s with cycle := s.cycle + 1 })) ∧
  (∀ (s : State),
    let v := imgSecVersion s.img.active
    let due := imgRaiseMin s.img.active && decide (s.otp.secMin < v ∧ v ≤ 63 ∧ 4320000000 ≤ s.img.activeFrames) && !s.clogFull
    Does .secMinRaise s fun t =>
      t.otp = (if due then { s.otp with secMin := v } else s.otp) ∧
      (due = true → t.rd Fld.IMG_KEYS_SEC_MIN = v ∧ t.clog.queue.length = s.clog.queue.length + 1) ∧
      (due = false → t = { s with cycle := s.cycle + 1 }) ∧
      t = { s with cycle := s.cycle + 1, regs := t.regs, otp := t.otp, log := t.log, clog := t.clog } ∧
      RegsKept [Reg.IMG_KEYS, Reg.LOG_STATUS, Reg.CLOG_STATUS] s t)

/-- R189, R190, R203, R205, R206: an announcement goes out on each ring port group with the node's digest, epoch and pending target. One that is received
shows in NBR_DIGEST and NBR_EPOCH; it is compared with EXP unless EXP_DIGEST is all zeros, and NBR_PEND says whether the neighbour announces the same
target and staged digest. A group without an announcement for 150,000 frames is SILENT. A write of EXP_DIGEST_3 by OPERATOR makes the four words take
effect together. -/
def Obligations.DigestAgreement : Prop :=
  (∀ (s : State), s.img.phase = .booted → announceDue s = true →
    Does .announceSend s fun t => (∀ g, g < 4 → Queues (.announce (announceWords s)) g s t) ∧
      t = { s with cycle := s.cycle + 1, regs := t.regs, log := t.log, ctl := t.ctl, img := { s.img with announcedAt := some s.fn } } ∧ RegsKeptBut (fun a => decide (a = Reg.LOG_STATUS) || within [(0x500000, 0x600000)] a) s t) ∧
  (∀ (s : State), s.img.phase ≠ .booted ∨ announceDue s = false → Does .announceSend s fun t => t = { s with cycle := s.cycle + 1 }) ∧
  (∀ (s : State) (g : Fin 4) (digest : BitVec 128) (epoch : Word) (pend : Option (BitVec 48 × BitVec 128)),
    let zero := (List.range 4).all (fun w => s.rd (Fld.EXP_DIGEST w) == 0)
    let bad := !zero && ((List.range 4).any (fun w => digestWord digest w != s.rd (Fld.EXP_DIGEST w)) || epoch.toNat != s.rd Fld.EXP_EPOCH)
    Does (.announceRx g digest epoch pend) s fun t =>
      (∀ w, w < 4 → t.rd (Fld.NBR_DIGEST g.val w) = digestWord digest w) ∧ t.rd (Fld.NBR_EPOCH g.val) = epoch.toNat ∧
      t.bit Fld.AGREE_STATUS_SILENT g.val = false ∧ t.bit Fld.AGREE_STATUS_MISMATCH g.val = bad ∧
      t.bit Fld.AGREE_STATUS_MISMATCH_EV g.val = (s.bit Fld.AGREE_STATUS_MISMATCH_EV g.val || (bad && !s.bit Fld.AGREE_STATUS_MISMATCH g.val)) ∧
      t.bit Fld.AGREE_STATUS_NBR_PEND g.val = ((liveRec s).pending.isSome && decide (pend.map (fun p => (p.1.toNat, p.2)) =
        (liveRec s).pending.map (fun p => (p.target, digestOfWords (s.rd (Fld.STG_DIGEST 0)) (s.rd (Fld.STG_DIGEST 1)) (s.rd (Fld.STG_DIGEST 2)) (s.rd (Fld.STG_DIGEST 3)))))) ∧
      (if bad && !s.bit Fld.AGREE_STATUS_MISMATCH g.val then Logged 0x04 0x0008 (2 ^ g.val) s t else t.log = s.log) ∧
      t = { s with cycle := s.cycle + 1, regs := t.regs, log := t.log, img := { s.img with nbrAt := t.img.nbrAt, nbrPend := t.img.nbrPend } } ∧
      RegsKeptBut (fun a => decide (a = Reg.LOG_STATUS) || decide (a = Reg.AGREE_STATUS) || decide (a = Reg.NBR_EPOCH g.val) ||
        [Reg.NBR_DIGEST g.val 0, Reg.NBR_DIGEST g.val 1, Reg.NBR_DIGEST g.val 2, Reg.NBR_DIGEST g.val 3].contains a) s t) ∧
  (∀ (s : State) (g : Fin 4),
    let late := !s.bit Fld.AGREE_STATUS_SILENT g.val && decide (150000 ≤ fnDiff s.fn (Tab.get 0 s.img.nbrAt g.val))
    Does (.nbrSilent g) s fun t =>
      (late = true → t.bit Fld.AGREE_STATUS_SILENT g.val = true ∧ t.bit Fld.AGREE_STATUS_SILENT_EV g.val = true ∧ Logged 0x04 0x0009 g.val s t) ∧
      (late = false → t = { s with cycle := s.cycle + 1 }) ∧
      t = { s with cycle := s.cycle + 1, regs := t.regs, log := t.log } ∧ RegsKept [Reg.AGREE_STATUS, Reg.LOG_STATUS] s t) ∧
  (∀ (s : State) (i : Initiator) (v : Word), Reaches s i (Reg.EXP_DIGEST 3) → s.roleOf i = 1 → s.clog.queue.length ≤ 60 →
    let new := fun k => if k = 3 then v else (Tab.get none s.img.expHeld k).getD (s.reg (Reg.EXP_DIGEST k))
    Does (.expDigestCommit i v) s fun t =>
      (∀ k, k < 4 → t.reg (Reg.EXP_DIGEST k) = new k) ∧ t.bus = ⟨0#32, .done, .ok⟩ ∧
      t.clog.queue.length = s.clog.queue.length + ((List.range 4).filter (fun k => s.reg (Reg.EXP_DIGEST k) != new k)).length ∧
      t.rdB Fld.AGREE_STATUS_SELF_MISMATCH = (!(List.range 4).all (fun w => new w == 0#32) &&
        ((List.range 4).any (fun w => s.reg (Reg.ACT_DIGEST w) != new w) || s.rd Fld.ACT_EPOCH != s.rd Fld.EXP_EPOCH)) ∧
      t = { s with cycle := s.cycle + 1, regs := t.regs, log := t.log, clog := t.clog, bus := t.bus, img := { s.img with expHeld := [] } } ∧
      RegsKeptBut (fun a => [Reg.AGREE_STATUS, Reg.LOG_STATUS, Reg.CLOG_STATUS].contains a || inArray (Reg.EXP_DIGEST 0) 4 4 a) s t) ∧
  (∀ (s : State) (i : Initiator) (v : Word), Reaches s i (Reg.EXP_DIGEST 3) → s.roleOf i ≠ 1 → s.reg (Reg.EXP_DIGEST 3) ≠ v →
    Does (.expDigestCommit i v) s fun t =>
      t = { (s.logEv 0x01 0x0003 (Reg.EXP_DIGEST 3)) with cycle := s.cycle + 1, log := t.log, bus := ⟨0#32, .done, .denied⟩ } ∧ RegsKept [Reg.LOG_STATUS] s t)

/-- R191, R192, R194: when the programming of a counted setting succeeds the setting takes effect and both logs record it; when it fails the old value
remains and SETTING_FAIL is logged. Either way no setting is being programmed any more, and with none nothing happens. A completed change of lifecycle
leads to a main-domain reset. R195, R196, R197: the oldest queued entry of the change log is written to the flash with the hash of the last one as its
link; it becomes the chain head. A full region first loses its oldest 4,096 entries, and the entry then carries WRAP. With nothing queued nothing
happens. -/
def Obligations.CountedSettingsAndChangeLog : Prop :=
  (∀ (s : State) (j : OtpJob), s.otp.programming = some j → j.offset = 0x100 ∨ j.offset = 0x104 ∨ j.offset = 0x108 → s.clogFull = false →
    Does (.otpProgramDone true) s fun t =>
      t.otp = { s.otp with programming := none, gridCode := (if j.offset = 0x100 then j.value else s.otp.gridCode),
                           role := (if j.offset = 0x104 then j.value else s.otp.role), spw := (if j.offset = 0x108 then j.hash else s.otp.spw) } ∧
      t.rd Fld.CS_GRID_CODE = t.otp.gridCode % 256 ∧ t.clog.queue.length = s.clog.queue.length + 1 ∧
      t = { s with cycle := s.cycle + 1, regs := t.regs, otp := t.otp, log := t.log, clog := t.clog, eng := t.eng, csp := t.csp, out := t.out }) ∧
  (∀ (s : State) (j : OtpJob), s.otp.programming = some j → j.offset = 0x14 → s.img.phase ≠ .booted → s.lan.mode = .mainOn →
    Does (.otpProgramDone true) s fun t =>
      t.otp = { s.otp with programming := none, lifecycle := j.value, keyHash := (if j.value = 3 then [] else s.otp.keyHash), enrolled := (if j.value = 3 then 0 else s.otp.enrolled) } ∧
      t.img.phase = .inReset ∧ t.rd Fld.RESET_CAUSE_CAUSE = 3 ∧ (j.value = 3 → t.eng.creds = [] ∧ t.eng.caks = []) ∧
      t.pending = s.pending ∧ t.cycle = s.cycle + 1 ∧ t.flash = s.flash) ∧
  (∀ (s : State) (j : OtpJob), s.otp.programming = some j →
    Does (.otpProgramDone false) s fun t =>
      t.otp = { s.otp with programming := none } ∧ t.clog = s.clog ∧ Logged 0x04 0x000B j.offset s t ∧
      t = { s with cycle := s.cycle + 1, regs := t.regs, otp := t.otp, log := t.log, eng := t.eng, csp := t.csp, out := t.out } ∧
      RegsKept [Reg.LOG_STATUS, Reg.CE_STATUS] s t) ∧
  (∀ (s : State) (b : Bool), s.otp.programming = none → Does (.otpProgramDone b) s fun t => t = { s with cycle := s.cycle + 1 }) ∧
  (∀ (s : State) (e : ClogEntry) (q : List ClogEntry), s.clog.queue = e :: q → q.length < 128 →
    let full := decide (65536 ≤ s.flash.clog.length)
    let w := { e with link := s.clog.headHash, wrap := full }
    Does .clogFlashWrite s fun t =>
      t.flash = { s.flash with clog := (if full then s.flash.clog.drop 4096 else s.flash.clog) ++ [w] } ∧
      t.clog = { s.clog with queue := q, writtenSeq := e.seq, headHash := clogHash w } ∧
      t.rd Fld.CLOG_STATUS_QUEUED = q.length ∧ t.rd Fld.CLOG_SEQ_SEQ_LO = e.seq % 2 ^ 32 ∧
      t = { s with cycle := s.cycle + 1, regs := t.regs, flash := t.flash, clog := t.clog, out := t.out } ∧ RegsKept [Reg.CLOG_STATUS, Reg.CLOG_SEQ] s t) ∧
  (∀ (s : State), s.clog.queue = [] → Does .clogFlashWrite s fun t => t = { s with cycle := s.cycle + 1 })

/-- R39, R218, R219, R226, R227, R243: a trigger that has fallen due is taken in its order, once the sample instants up to it have been taken. A trigger
of an enabled entry of a core in use that is neither running nor queued starts the entry where the core is free and nothing waits, and else queues it
in order of arrival; a trigger of an entry that is running or queued is dropped with TRIG_OVR. The trigger of an urgent entry, and a write of
ADC_URG_REQ that names an enabled BURST entry, start it at once where no urgent entry runs or waits: a running entry that is not urgent is aborted
and waits to restart. Before the image activation of a boot entries only queue (R234). That an ADC_URG_REQ naming a running or queued entry is
dropped, and the order among urgent ones, are the model's choices (log entries 99, 100). A write of
ADC_URG_REQ that names another entry answers BAD_ARG and sets URG_REJ, and one from an initiator that may not is denied. Other cores and the results
stay. -/
def Obligations.SequencerTriggers : Prop :=
  (∀ (s : State) (c : Fin 40) (e : Fin 16) (d : AdcQ × Int),
    (s.core c).due.find? (fun d => d.1.entry == e.val) = some d → sampling s = true → (s.core c).due.all (dueFirst d) = true →
    (s.core c).running = none ∨ 5 * d.2 < instantAt s (s.core c).next → coreUsed s c = true → s.rdB (Fld.ADC_ENTRY_A_EN c e) = true →
    let q := { s.core c with due := (s.core c).due.filter (fun x => x.1.entry != e.val) }
    let starts := entriesRun s && q.running.isNone && (if d.1.urgent then !q.queue.any (·.urgent) else q.queue.isEmpty)
    Does (.adcTrigger c e) s fun t =>
      (entryBusy q e = true → t.core c = q ∧ t.rd (Fld.ADC_CORE_EVENTS_TRIG_OVR c) = 1) ∧
      (entryBusy q e = false → starts = true →
        (t.core c).running = some d.1 ∧ (t.core c).queue = q.queue ∧ (t.core c).next = max (firstAfter s d.2) q.next ∧
        (t.core c).settings = some (entrySettings s c e) ∧
        (t.core c).exclude = (if q.settings = some (entrySettings s c e) then q.exclude - (firstAfter s d.2 - q.next).toNat else 12)) ∧
      (entryBusy q e = false → starts = false → (d.1.urgent = false ∨ q.running = none) →
        t.core c = { q with queue := q.queue ++ [d.1] }) ∧
      (∀ k, k < 40 → k ≠ c.val → t.core k = s.core k) ∧
      t = { s with cycle := s.cycle + 1, regs := t.regs, log := t.log, perf := t.perf, adc := t.adc } ∧
      RegsKept [Reg.ADC_CORE_STATUS c, Reg.ADC_CORE_EVENTS c, Reg.ADC_SW_TRIG c, Reg.LOG_STATUS] s t) ∧
  (∀ (s : State) (c : Fin 40) (e : Fin 16) (d : AdcQ × Int) (r : AdcQ),
    (s.core c).due.find? (fun d => d.1.entry == e.val) = some d → sampling s = true → (s.core c).due.all (dueFirst d) = true →
    (s.core c).running = some r → 5 * d.2 < instantAt s (s.core c).next → coreUsed s c = true → s.rdB (Fld.ADC_ENTRY_A_EN c e) = true →
    entryBusy (s.core c) e = false → d.1.urgent = true →
    Does (.adcTrigger c e) s fun t =>
      (if r.urgent then (t.core c).running = some r ∧ (t.core c).queue = (s.core c).queue ++ [d.1]
       else (t.core c).running = some d.1 ∧ (t.core c).queue = (s.core c).queue ++ [{ r with aborted := true }] ∧
         t.rd (Fld.ADC_CORE_EVENTS_ABORT_EV c) = 1 ∧ t.rd (Fld.ADC_CORE_STATUS_ABORTS c) = Nat.min 255 (s.rd (Fld.ADC_CORE_STATUS_ABORTS c) + 1))) ∧
  (∀ (s : State) (c : Fin 40) (e : Fin 16), (s.core c).due.find? (fun d => d.1.entry == e.val) = none ∨ sampling s = false →
    Does (.adcTrigger c e) s fun t => t = { s with cycle := s.cycle + 1 }) ∧
  (∀ (s : State) (i : Initiator) (c : Fin 40) (v : Word), Reaches s i (Reg.ADC_SW_TRIG c) →
    mayWrite s i (Reg.ADC_SW_TRIG c) = true → coreUsed s c = true →
    (∀ e, e < 16 → v.getLsbD e = true → s.rdB (Fld.ADC_ENTRY_A_URGENT c e) = false) → (s.core c).running.isSome = true →
    let hit := fun e => v.getLsbD e && decide (s.rd (Fld.ADC_ENTRY_A_TRIG c e) = 0) && decide (s.rd (Fld.ADC_ENTRY_A_MODE c e) = 0)
      && s.rdB (Fld.ADC_ENTRY_A_EN c e)
    let order := (List.range 16).filter (fun e => s.rdB (Fld.ADC_ENTRY_A_URGENT c e)) ++ (List.range 16).filter (fun e => !s.rdB (Fld.ADC_ENTRY_A_URGENT c e))
    let new := order.filter (fun e => hit e && !entryBusy (s.core c) e)
    Does (.adcSwTrig i c v) s fun t =>
      t.core c = { s.core c with queue := (s.core c).queue ++ new.map (fun e => ⟨e, false, false, 0, none⟩) } ∧
      t.rdB (Fld.ADC_CORE_EVENTS_TRIG_OVR c) = (s.rdB (Fld.ADC_CORE_EVENTS_TRIG_OVR c)
        || (List.range 16).any (fun e => hit e && entryBusy (s.core c) e)) ∧
      t.bus = ⟨0#32, .done, .ok⟩ ∧ (∀ k, k < 40 → k ≠ c.val → t.core k = s.core k) ∧
      t = { s with cycle := s.cycle + 1, regs := t.regs, log := t.log, bus := t.bus, adc := t.adc } ∧
      RegsKept [Reg.ADC_CORE_STATUS c, Reg.ADC_CORE_EVENTS c, Reg.ADC_SW_TRIG c, Reg.LOG_STATUS] s t) ∧
  (∀ (s : State) (i : Initiator) (c : Fin 40) (v : Word), Reaches s i (Reg.ADC_URG_REQ c) →
    coreFwOr [1, 3] s i = true → mayWrite s i (Reg.ADC_URG_REQ c) = true → v.getLsbD 31 = true →
    let e := (v.extractLsb' 0 4).toNat
    let q := s.core c
    let bad := s.rdB (Fld.ADC_CORE_CFG_SLAVE c) || !s.rdB (Fld.ADC_ENTRY_A_EN c e) || decide (s.rd (Fld.ADC_ENTRY_A_MODE c e) = 1)
    Does (.urgentRequest i c v) s fun t =>
      (bad = true → t.adc = s.adc ∧ t.bus = ⟨0#32, .done, .badArg⟩ ∧ t.rd (Fld.ADC_CORE_EVENTS_URG_REJ c) = 1) ∧
      (bad = false → t.bus = ⟨0#32, .done, .ok⟩) ∧
      (bad = false → entryBusy q e = true → t.core c = q ∧ t.rd (Fld.ADC_CORE_EVENTS_TRIG_OVR c) = 1) ∧
      (bad = false → entryBusy q e = false → q.running = none →
        if entriesRun s && !q.queue.any (·.urgent) then (t.core c).running = some ⟨e, true, false, 0, none⟩ ∧ (t.core c).queue = q.queue
        else t.core c = { q with queue := q.queue ++ [⟨e, true, false, 0, none⟩] }) ∧
      (bad = false → entryBusy q e = false → q.running.isSome = true →
        if q.running.any (·.urgent) then (t.core c).running = q.running ∧ (t.core c).queue = q.queue ++ [⟨e, true, false, 0, none⟩]
        else (t.core c).running = some ⟨e, true, false, 0, none⟩ ∧
          (t.core c).queue = q.queue ++ q.running.toList.map (fun r => { r with aborted := true }) ∧ t.rd (Fld.ADC_CORE_EVENTS_ABORT_EV c) = 1) ∧
      (∀ k, k < 40 → k ≠ c.val → t.core k = s.core k) ∧
      t = { s with cycle := s.cycle + 1, regs := t.regs, log := t.log, perf := t.perf, bus := t.bus, adc := t.adc } ∧
      RegsKept [Reg.ADC_CORE_STATUS c, Reg.ADC_CORE_EVENTS c, Reg.ADC_SW_TRIG c, Reg.LOG_STATUS] s t) ∧
  (∀ (s : State) (i : Initiator) (c : Fin 40) (v : Word), Reaches s i (Reg.ADC_URG_REQ c) →
    mayWrite s i (Reg.ADC_URG_REQ c) = true → coreFwOr [1, 3] s i = false →
    Does (.urgentRequest i c v) s fun t => t = { s with cycle := s.cycle + 1, bus := ⟨0#32, .done, .denied⟩ })

/-- R213, R219, R220, R221, R222, R223, R224, R225, R229, R230, R233: where no entry runs, the queue is served: an urgent entry first, then an aborted
one, then the first that came (of several urgent ones the first that came: log entry 100); a window whose t_close has passed is written at once without samples, sets LATE_EV and occupies no instant. A running
entry takes sample instants until its burst is complete or its window closes; then the result register and the count register are written together:
VALID, VALUE rounded to nearest with ties upward or unchanged without a valid sample, SEQ plus one, SRC, OW, FROZEN, NVALID and EXCL. A valid sample
of a single core has the code round(8192 + G (V − VREF/2) 16384 / VREF), from 0 to 16383, and counts 64 times that. A free core discards its samples,
and without the sample clock nothing happens. Other entries and cores stay. VREF is its nominal value (log entry 74). -/
def Obligations.EntryResults : Prop :=
  (∀ (s : State) (c : Fin 40) (cycle : BitVec 13) (x : AdcQ),
    entriesRun s = true → (s.core c).running = none → nextQueued (s.core c).queue = some x →
    let late := decide (s.rd (Fld.ADC_ENTRY_A_MODE c x.entry) = 1) && x.closeAt.any (fun v => decide (5 * v < instantAt s (s.core c).next))
    Does (.entryStart c cycle) s fun t =>
      (t.core c).queue = (s.core c).queue.erase x ∧ (t.core c).running = (if late then none else some x) ∧
      (x.entry < 16 → late = true → t.bit (Fld.ADC_ENTRY_EVENTS_LATE_EV c) x.entry = true ∧
        t.rd (Fld.ADC_RESULT_VALID c x.entry) = 0 ∧ t.rd (Fld.ADC_RESULT_VALUE c x.entry) = s.rd (Fld.ADC_RESULT_VALUE c x.entry) ∧
        t.rd (Fld.ADC_RESULT_SEQ c x.entry) = (s.rd (Fld.ADC_RESULT_SEQ c x.entry) + 1) % 256 ∧
        t.rd (Fld.ADC_NCOUNT_NVALID c x.entry) = 0 ∧ t.rd (Fld.ADC_NCOUNT_EXCL c x.entry) = 0) ∧
      (∀ k, k < 40 → k ≠ c.val → t.core k = s.core k) ∧
      t = { s with cycle := s.cycle + 1, regs := t.regs, log := t.log, perf := t.perf, adc := t.adc } ∧
      RegsKept ([Reg.ADC_CORE_STATUS c, Reg.ADC_ENTRY_EVENTS c, Reg.ADC_SW_TRIG c, Reg.LOG_STATUS] ++
        (if late then [Reg.ADC_RESULT c x.entry, Reg.ADC_NCOUNT c x.entry] else [])) s t) ∧
  (∀ (s : State) (c : Fin 40) (cycle : BitVec 13), (s.core c).running ≠ none ∨ (s.core c).queue = [] ∨ entriesRun s = false →
    Does (.entryStart c cycle) s fun t => t = { s with cycle := s.cycle + 1 }) ∧
  (∀ (s : State) (c : Fin 40) (x : AdcQ) (l : List Int) (cycle : BitVec 13),
    sampling s = true → (s.core c).running = some x → x.entry < 16 →
    let q := gather s c x (takingOf s c x.entry) l (s.core c)
    q.n < 1048576 → q.sum < 64 * 16384 * q.n + 1 → q.excl < 4096 →
    let e := x.entry
    Does (.entryResult c l cycle) s fun t =>
      (entryEnded s c x q = true →
        t.rd (Fld.ADC_RESULT_VALID c e) = (if 1 ≤ q.n then 1 else 0) ∧
        t.rd (Fld.ADC_RESULT_VALUE c e) = (if 1 ≤ q.n then (q.sum + q.n / 2) / q.n % 1048576 else s.rd (Fld.ADC_RESULT_VALUE c e)) ∧
        t.rd (Fld.ADC_RESULT_SEQ c e) = (s.rd (Fld.ADC_RESULT_SEQ c e) + 1) % 256 ∧ t.rdB (Fld.ADC_RESULT_SRC c e) = q.src ∧
        t.rdB (Fld.ADC_RESULT_OW c e) = s.bit (Fld.ADC_CORE_STATUS_OPEN c) (s.rd (Fld.ADC_ENTRY_A_MUX c e)) ∧
        t.rd (Fld.ADC_NCOUNT_NVALID c e) = q.n ∧ t.rd (Fld.ADC_NCOUNT_EXCL c e) = q.excl ∧ t.rdB (Fld.ADC_RESULT_FROZEN c e) = runFrozen s c e q ∧
        t.bit (Fld.ADC_ENTRY_EVENTS_FRZ_EV c) e = (s.bit (Fld.ADC_ENTRY_EVENTS_FRZ_EV c) e || (runFrozen s c e q && !s.rdB (Fld.ADC_RESULT_FROZEN c e))) ∧
        t.core c = { q with running := none, wroteAt := if (Tab.get none q.wroteAt e).isSome then q.wroteAt else Tab.set none q.wroteAt e (some cycle.toNat) }) ∧
      (entryEnded s c x q = false → t.core c = q ∧ t.reg (Reg.ADC_RESULT c e) = s.reg (Reg.ADC_RESULT c e)) ∧
      (∀ k, k < 40 → k ≠ c.val → t.core k = s.core k) ∧
      t = { s with cycle := s.cycle + 1, regs := t.regs, log := t.log, perf := t.perf, adc := t.adc } ∧
      RegsKept [Reg.ADC_CORE_STATUS c, Reg.ADC_ENTRY_EVENTS c, Reg.ADC_SW_TRIG c, Reg.LOG_STATUS, Reg.ADC_RESULT c e, Reg.ADC_NCOUNT c e] s t) ∧
  (∀ (s : State) (c : Fin 40) (e : Fin 16) (u ab : Bool) (uv : Int) (cycle : BitVec 13),
    sampling s = true → (s.core c).running = some ⟨e, u, ab, 0, none⟩ → refOk s c = true → s.rdB (Fld.ADC_CORE_CFG_PAIR_EN c) = false →
    s.rd (Fld.ADC_ENTRY_A_MODE c e) = 0 → s.rd (Fld.ADC_ENTRY_B_BURST_N c e) = 0 → (s.core c).n = 0 → (s.core c).sum = 0 → (s.core c).exclude = 0 →
    s.bit (Fld.ADC_CORE_STATUS_DISTURB c) (s.rd (Fld.ADC_ENTRY_A_MUX c e)) = false → injectedAt s c (s.rd (Fld.ADC_ENTRY_A_MUX c e)) (s.core c).next = false →
    let code := clampInt 0 16383 (8192 + roundDiv ((2 ^ s.rd (Fld.ADC_ENTRY_A_GAIN c e) : Nat) * (2 * uv - vref s (c / 4)) * 8192) (vref s (c / 4)))
    Does (.entryResult c [uv] cycle) s fun t =>
      t.rd (Fld.ADC_RESULT_VALID c e) = 1 ∧ (t.rd (Fld.ADC_RESULT_VALUE c e) : Int) = 64 * code ∧ t.rd (Fld.ADC_NCOUNT_NVALID c e) = 1) ∧
  (∀ (s : State) (c : Fin 40) (l : List Int) (cycle : BitVec 13), sampling s = true → (s.core c).running = none →
    Does (.entryResult c l cycle) s fun t =>
      t.core c = { s.core c with next := (s.core c).next + l.length, exclude := (s.core c).exclude - l.length } ∧
      t = { s with cycle := s.cycle + 1, regs := t.regs, adc := t.adc } ∧ RegsKept [Reg.ADC_CORE_STATUS c, Reg.ADC_SW_TRIG c] s t) ∧
  (∀ (s : State) (c : Fin 40) (l : List Int) (cycle : BitVec 13), sampling s = false →
    Does (.entryResult c l cycle) s fun t => t = { s with cycle := s.cycle + 1 })

/-- R215, R216, R225, R231: the fall of REF_OK of a group puts each of its cores in use into the state waiting, and sets REF_LOST in each one on which an
entry runs; its rise is a change on every core of the group, which excludes the next 12 sample instants and ends the runs of equal codes. A check of
an open wire compares, at the injection instant, twice the distance of the middle code from the mean of its neighbours with twice OW_THR: OPEN
follows, and a rise sets OW_EV; it is skipped where a code clips or the instants have not been taken, and OPEN keeps its state. -/
def Obligations.ReferencesAndOpenWires : Prop :=
  (∀ (s : State) (g : Fin 10), s.rd (Fld.ADC_REF_CFG_REF_OK (4 * g)) = 1 →
    Does (.refLost g) s fun t =>
      t.rd (Fld.ADC_REF_CFG_REF_OK (4 * g)) = 0 ∧
      (∀ k, k < 4 → t.rdB (Fld.ADC_CORE_EVENTS_REF_LOST (4 * g + k)) =
        (s.rdB (Fld.ADC_CORE_EVENTS_REF_LOST (4 * g + k)) || (s.core (4 * g + k)).running.isSome)) ∧
      (∀ k, k < 4 → s.rdB (Fld.ADC_CORE_CFG_EN (4 * g + k)) = true → t.rd (Fld.ADC_CORE_STATUS_STATE (4 * g + k)) = 3) ∧
      (∀ k, k < 40 → t.core k = s.core k) ∧
      t = { s with cycle := s.cycle + 1, regs := t.regs, log := t.log, adc := t.adc } ∧
      RegsKept ([Reg.ADC_REF_CFG (4 * g), Reg.LOG_STATUS] ++
        [0, 1, 2, 3].flatMap (fun k => [Reg.ADC_CORE_EVENTS (4 * g + k), Reg.ADC_CORE_STATUS (4 * g + k), Reg.ADC_SW_TRIG (4 * g + k)])) s t) ∧
  (∀ (s : State) (g : Fin 10), s.rd (Fld.ADC_REF_CFG_REF_OK (4 * g)) = 0 → Does (.refLost g) s fun t => t = { s with cycle := s.cycle + 1 }) ∧
  (∀ (s : State) (g : Fin 10), s.rd (Fld.ADC_REF_CFG_REF_OK (4 * g)) = 0 → s.bit Fld.DOM_STATUS_ON 15 = true →
    Does (.refRestored g) s fun t =>
      t.rd (Fld.ADC_REF_CFG_REF_OK (4 * g)) = 1 ∧
      (∀ k, k < 40 → t.core k = (if k / 4 = g.val then { s.core k with exclude := 12, runs := [] } else s.core k)) ∧
      (∀ k, k < 4 → s.rdB (Fld.ADC_CORE_CFG_EN (4 * g + k)) = true → t.rd (Fld.ADC_CORE_STATUS_STATE (4 * g + k)) =
        (if (s.core (4 * g + k)).running.isSome then 2 else 1)) ∧
      t = { s with cycle := s.cycle + 1, regs := t.regs, log := t.log, adc := t.adc } ∧
      RegsKept ([Reg.ADC_REF_CFG (4 * g), Reg.LOG_STATUS] ++
        [0, 1, 2, 3].flatMap (fun k => [Reg.ADC_CORE_STATUS (4 * g + k), Reg.ADC_SW_TRIG (4 * g + k)])) s t) ∧
  (∀ (s : State) (c : Fin 40) (m : Fin 4) (a b x d : Nat),
    s.bit (Fld.ADC_OW_CFG_OW_EN c) m = true → sampling s = true → coreUsed s c = true → s.rd (Fld.ADC_OW_OFS_OW_OFS c m) ≤ 2499 →
    let o : Int := s.rd (Fld.ADC_OW_OFS_OW_OFS c m)
    nearCodes (s.core c) m o = some [a, b, x, d] ∨ (nearCodes (s.core c) m o = none ∧ nearCodes (s.core c) m (o - 2500) = some [a, b, x, d]) →
    let clip := [a, b, d].any (fun v => v = 0 || v = 16383)
    let far : Bool := decide ((2 * s.rd (Fld.ADC_OW_CFG_OW_THR c) : Int) < 2 * b - a - d)
      || decide ((2 * s.rd (Fld.ADC_OW_CFG_OW_THR c) : Int) < a + d - 2 * b)
    let was := s.bit (Fld.ADC_CORE_STATUS_OPEN c) m
    Does (.openWireCheck c m) s fun t =>
      t.bit (Fld.ADC_CORE_STATUS_OPEN c) m = (if clip then was else far) ∧
      t.bit (Fld.ADC_CORE_EVENTS_OW_EV c) m = (s.bit (Fld.ADC_CORE_EVENTS_OW_EV c) m || (far && !clip && !was)) ∧
      (∀ k, k < 40 → t.core k = (if k = c.val then { s.core k with near := (t.core k).near } else s.core k)) ∧
      t = { s with cycle := s.cycle + 1, regs := t.regs, log := t.log, adc := t.adc } ∧
      BitsKept (Reg.ADC_CORE_STATUS c) [⟨Reg.ADC_CORE_STATUS c, 20 + m, 20 + m⟩] s t ∧
      BitsKept (Reg.ADC_CORE_EVENTS c) [⟨Reg.ADC_CORE_EVENTS c, 16 + m, 16 + m⟩] s t ∧
      RegsKept [Reg.ADC_CORE_STATUS c, Reg.ADC_CORE_EVENTS c, Reg.LOG_STATUS] s t) ∧
  (∀ (s : State) (c : Fin 40) (m : Fin 4),
    let o : Int := s.rd (Fld.ADC_OW_OFS_OW_OFS c m)
    nearCodes (s.core c) m o = none → nearCodes (s.core c) m (o - 2500) = none →
    Does (.openWireCheck c m) s fun t => t = { s with cycle := s.cycle + 1 })

/-- R251, R252, R254, R256 to R259, R262 to R266, R271, R272: the HI comparator of a window asserts above its threshold and releases below the threshold
less the hysteresis, the LO comparator below it and above the threshold plus the hysteresis; the threshold is that of its DAC, code × 1.250 V / 1,024,
or its pin; one that is not enabled never asserts. The comparators of a window act on its latches unless its check runs or a blanking mask applies; no
mask applies without BLANK or without the control PLL's lock. WIN_TRIP gives the signal of a window and the threshold pins of its group of four,
RAW_HI and RAW_LO follow, and each asserted comparator sets its latch; BLANK_END lets an assertion that is still present act. At each rise TRIP_EV is
set. Windows of other groups stay. A write of WIN_CLR clears both latches of each window named whose CLR_MODE is 0, whose comparators are released and
whose CHK_FAIL bit is clear; of a window of CLR_MODE 0 named with a comparator asserted or its check failed it clears neither and sets CLR_REF. A
window under check is left alone. The access answers OK in both cases. Levels come with WIN_TRIP (log entry 73). A write of WIN_CHK_CTRL with GO = 1
and a mode starts the check of the window named, or of every enabled window in ascending order; the write asked for while a check runs is refused with
BUSY and CHK_REFUSED. A check of a window whose enabled comparators give the expected levels clears its CHK_FAIL bit, and in the check at the load of
TRIP its latches where no comparator is asserted; else the bit and both latches of the window are set. The next window of the list follows, and after
the last BUSY is clear. -/
def Obligations.WindowMonitors : Prop :=
  (∀ (s : State) (n : Fin 32) (v hi lo at' : Nat) (forced : Bool),
    let mask := masked s n at' forced
    let act := fun k => !(if k = n.val then mask else s.win.blanked.testBit k) && !underCheck s k && decide (k / 4 = n.val / 4)
    Does (.winTrip n v hi lo at' forced) s fun t =>
      (s.rdB (Fld.WIN_CFG_EN n) = false ∨ s.rdB (Fld.WIN_CFG_HI_EN n) = false → t.bit Fld.WIN_RAW_HI n = false) ∧
      (s.rdB (Fld.WIN_CFG_EN n) = true → s.rdB (Fld.WIN_CFG_HI_EN n) = true → s.rdB (Fld.WIN_CFG_HI_SRC n) = true →
        t.bit Fld.WIN_RAW_HI n = hiOutput (s.bit Fld.WIN_RAW_HI n) (v * 1024) (s.rd (Fld.WIN_DAC_DAC_HI n) * 1250000) (hysteresis s n)) ∧
      (s.rdB (Fld.WIN_CFG_EN n) = true → s.rdB (Fld.WIN_CFG_HI_EN n) = true → s.rdB (Fld.WIN_CFG_HI_SRC n) = false → 100000 ≤ hi → hi ≤ 1700000 →
        t.bit Fld.WIN_RAW_HI n = hiOutput (s.bit Fld.WIN_RAW_HI n) (v * 1024) (hi * 1024) (hysteresis s n)) ∧
      (s.rdB (Fld.WIN_CFG_EN n) = false ∨ s.rdB (Fld.WIN_CFG_LO_EN n) = false → t.bit Fld.WIN_RAW_LO n = false) ∧
      (s.rdB (Fld.WIN_CFG_EN n) = true → s.rdB (Fld.WIN_CFG_LO_EN n) = true → s.rdB (Fld.WIN_CFG_LO_SRC n) = true →
        t.bit Fld.WIN_RAW_LO n = loOutput (s.bit Fld.WIN_RAW_LO n) (v * 1024) (s.rd (Fld.WIN_DAC_DAC_LO n) * 1250000) (hysteresis s n)) ∧
      (s.rdB (Fld.WIN_CFG_EN n) = true → s.rdB (Fld.WIN_CFG_LO_EN n) = true → s.rdB (Fld.WIN_CFG_LO_SRC n) = false → 100000 ≤ lo → lo ≤ 1700000 →
        t.bit Fld.WIN_RAW_LO n = loOutput (s.bit Fld.WIN_RAW_LO n) (v * 1024) (lo * 1024) (hysteresis s n)) ∧
      (∀ k, k < 32 → k / 4 ≠ n.val / 4 → t.bit Fld.WIN_RAW_HI k = s.bit Fld.WIN_RAW_HI k ∧ t.bit Fld.WIN_RAW_LO k = s.bit Fld.WIN_RAW_LO k) ∧
      (∀ k, k < 32 → t.bit Fld.WIN_LATCH_HI k = (s.bit Fld.WIN_LATCH_HI k || (act k && t.bit Fld.WIN_RAW_HI k))) ∧
      (∀ k, k < 32 → t.bit Fld.WIN_LATCH_LO k = (s.bit Fld.WIN_LATCH_LO k || (act k && t.bit Fld.WIN_RAW_LO k))) ∧
      (∀ k, k < 32 → t.bit Fld.WIN_TRIP_EV k = (s.bit Fld.WIN_TRIP_EV k || (act k &&
        ((t.bit Fld.WIN_RAW_HI k && !s.bit Fld.WIN_LATCH_HI k) || (t.bit Fld.WIN_RAW_LO k && !s.bit Fld.WIN_LATCH_LO k))))) ∧
      t = { s with cycle := s.cycle + 1, regs := t.regs, log := t.log, perf := t.perf, out := t.out, freeIx := t.freeIx,
                   win := { s.win with blanked := setBitOf s.win.blanked n mask, level := t.win.level, pins := t.win.pins } } ∧
      RegsKeptBut (fun a => tripReg a || [Reg.WIN_RAW_HI, Reg.WIN_RAW_LO, Reg.WIN_LATCH_HI, Reg.WIN_LATCH_LO,
        Reg.WIN_TRIP_EV].contains a) s t) ∧
  (∀ (s : State) (n : Fin 32), underCheck s n = false →
    Does (.blankEnd n) s fun t =>
      (∀ k, k < 32 → t.bit Fld.WIN_LATCH_HI k = (s.bit Fld.WIN_LATCH_HI k || (decide (k = n) && s.bit Fld.WIN_RAW_HI n))) ∧
      (∀ k, k < 32 → t.bit Fld.WIN_LATCH_LO k = (s.bit Fld.WIN_LATCH_LO k || (decide (k = n) && s.bit Fld.WIN_RAW_LO n))) ∧
      t = { s with cycle := s.cycle + 1, regs := t.regs, log := t.log, perf := t.perf, out := t.out,
                   win := { s.win with blanked := setBitOf s.win.blanked n false } } ∧
      RegsKeptBut (fun a => tripReg a || [Reg.WIN_LATCH_HI, Reg.WIN_LATCH_LO, Reg.WIN_TRIP_EV].contains a) s t) ∧
  (∀ (was : Bool) (v th hyst : Nat),
    (th < v → hiOutput was v th hyst = true) ∧ (v + hyst < th → hiOutput was v th hyst = false) ∧
    (v ≤ th → th ≤ v + hyst → hiOutput was v th hyst = was) ∧ (v < th → loOutput was v th hyst = true) ∧
    (th + hyst < v → loOutput was v th hyst = false) ∧ (th ≤ v → v ≤ th + hyst → loOutput was v th hyst = was)) ∧
  (∀ (s : State) (n at' : Nat) (forced : Bool),
    (s.rd (Fld.WIN_CFG_BLANK n) = 0 ∨ s.rdB Fld.CLK_STATUS_CTRL_LOCK = false → masked s n at' forced = false) ∧
    (s.rd (Fld.WIN_CFG_BLANK n) ≠ 0 → s.rdB Fld.CLK_STATUS_CTRL_LOCK = true → masked s n at' true = true)) ∧
  (∀ (s : State) (i : Initiator) (v : Word), Reaches s i Reg.WIN_CLR →
    let named := fun k => v.getLsbD k && !s.rdB (Fld.WIN_CFG_CLR_MODE k) && !underCheck s k
    let stuck := fun k => s.bit Fld.WIN_RAW_HI k || s.bit Fld.WIN_RAW_LO k || s.bit Fld.WIN_CHK_FAIL k
    Does (.winClr i v) s fun t =>
      (∀ k, k < 32 → t.bit Fld.WIN_LATCH_HI k = (s.bit Fld.WIN_LATCH_HI k && !(named k && !stuck k))) ∧
      (∀ k, k < 32 → t.bit Fld.WIN_LATCH_LO k = (s.bit Fld.WIN_LATCH_LO k && !(named k && !stuck k))) ∧
      (∀ k, k < 32 → t.bit Fld.WIN_CLR_REF k = (s.bit Fld.WIN_CLR_REF k || (named k && stuck k))) ∧
      t.bus = ⟨0#32, .done, .ok⟩ ∧
      t = { s with cycle := s.cycle + 1, regs := t.regs, log := t.log, perf := t.perf, bus := t.bus } ∧
      RegsKeptBut (fun a => tripReg a || [Reg.WIN_LATCH_HI, Reg.WIN_LATCH_LO, Reg.WIN_CLR_REF].contains a) s t) ∧
  (∀ (s : State) (i : Initiator) (v : Word) (n : Nat) (rest : List Nat), Reaches s i Reg.WIN_CHK_CTRL →
    coreOr [2, 3] s i = true → Fld.WIN_CHK_CTRL_GO.get v = 1 → Fld.WIN_CHK_CTRL_MODE.get v ≠ 0 → s.win.check = none →
    (if Fld.WIN_CHK_CTRL_ALL.get v = 1 then enabledWindows s else [Fld.WIN_CHK_CTRL_WIN.get v]) = n :: rest →
    Does (.winChkStart i v) s fun t =>
      t.win = { s.win with check := some ⟨n, rest, Fld.WIN_CHK_CTRL_MODE.get v, false⟩ } ∧ t.rd Fld.WIN_CHK_CTRL_BUSY = 1 ∧
      t.bus = ⟨0#32, .done, .ok⟩ ∧
      t = { s with cycle := s.cycle + 1, regs := t.regs, log := t.log, perf := t.perf, bus := t.bus, win := t.win } ∧
      RegsKeptBut (fun a => tripReg a || decide (a = Reg.WIN_CHK_CTRL)) s t) ∧
  (∀ (s : State) (i : Initiator) (v : Word), Reaches s i Reg.WIN_CHK_CTRL →
    coreOr [2, 3] s i = true → Fld.WIN_CHK_CTRL_GO.get v = 1 → Fld.WIN_CHK_CTRL_MODE.get v ≠ 0 → s.win.check ≠ none →
    Does (.winChkStart i v) s fun t =>
      t.bus.status = .busy ∧ t.rd Fld.WIN_CHK_CTRL_CHK_REFUSED = 1 ∧
      t = { s with cycle := s.cycle + 1, regs := t.regs, log := t.log, bus := t.bus } ∧
      RegsKept [Reg.WIN_CHK_CTRL, Reg.LOG_STATUS] s t) ∧
  (∀ (s : State) (m : WinSample) (n : Fin 32) (rest : List Nat) (mode : Nat) (load : Bool),
    s.win.check = some ⟨n, rest, mode, load⟩ → opsWith s 0x51 = [] → mode = 1 ∨ (mode = 2 ∧ m.changed = false) →
    let pass := if mode = 1 then knownOk s n m else swapOk s n m
    Does (.winChkDone m) s fun t =>
      (∀ k, k < 32 → t.bit Fld.WIN_CHK_FAIL k = (if k = n then !pass else s.bit Fld.WIN_CHK_FAIL k)) ∧
      (pass = false → t.bit Fld.WIN_LATCH_HI n = true ∧ t.bit Fld.WIN_LATCH_LO n = true) ∧
      (pass = true → load = true → s.bit Fld.WIN_RAW_HI n = false → s.bit Fld.WIN_RAW_LO n = false →
        t.bit Fld.WIN_LATCH_HI n = false ∧ t.bit Fld.WIN_LATCH_LO n = false) ∧
      t.win = { s.win with check := (match rest with | [] => none | k :: r => some ⟨k, r, mode, load⟩) } ∧
      (rest = [] → t.rd Fld.WIN_CHK_CTRL_BUSY = 0) ∧
      t = { s with cycle := s.cycle + 1, regs := t.regs, log := t.log, perf := t.perf, out := t.out, win := t.win } ∧
      RegsKeptBut (fun a => tripReg a || [Reg.WIN_LATCH_HI, Reg.WIN_LATCH_LO, Reg.WIN_TRIP_EV, Reg.WIN_CHK_FAIL,
        Reg.WIN_CHK_CTRL].contains a) s t) ∧
  (∀ (s : State) (i : Initiator) (v : Word), Reaches s i Reg.WIN_CHK_CTRL →
    coreOr [2, 3] s i = false → checkAsked v = true →
    Does (.winChkStart i v) s fun t => t = { s with cycle := s.cycle + 1, bus := ⟨0#32, .done, .denied⟩ }) ∧
  (∀ (s : State) (m : WinSample), s.win.check = none → Does (.winChkDone m) s fun t => t = { s with cycle := s.cycle + 1 })

/-- R277, R278, R287 to R290, R296 to R299: A slot whose turn has come, that is not halted nor ramping and whose checked sources are good, moves its
effective set-point within its slew, passes the difference to its feedback through its sections in transposed direct form II (here none or one), adds
its weighted feed-forward and limits the result; an integrating section keeps its states while the output is clamped. A halted slot gives 0. A slot
that is not due, has completed or waits is left as it is. Other slots' registers stay. A due slot that is stale beyond its tolerance and outside the
grace period answers as STALE_RESP says: HOLD keeps the output, RAMP moves it towards 0 by the magnitude of RAMP and halts the slot there, TRIP trips
every pair the slot drives and halts it; within the tolerance or the grace period it keeps the output. STALE, STALE_CAUSE and the count follow, and at
the first tick beyond the tolerance STALE_EV is set. A slot halted so has output 0, OUT_OK 0 and its section states at 0. -/
def Obligations.SlotSteps : Prop :=
  (∀ (s : State) (n : Fin 96) (at' : BitVec 13), slotTurn s n at'.toNat = true → s.rdB (Fld.SLOT_STATUS_HALTED n) = false →
    s.rdB (Fld.SLOT_STATUS_RAMPING n) = false → slotCauses s n = 0 → s.rd (Fld.SLOT_SEC_NSEC n) ≤ 1 →
    let fb := (slotReads s n).1.value
    let ff := (slotReads s n).2.1.value
    let tgt := (slotReads s n).2.2.value
    let p := fun q => wInt (s.act (0x20 * n + 4 * q))
    let k := s.rd (Fld.SLOT_SEC_SEC_BASE n)
    let cf := fun q => wInt (s.act (0x4000 + 0x20 * k + 4 * q))
    let m := fun x c => sat40 (mulCf x c)
    let r0 := if (s.slot n).rInit then fb else (s.slot n).rPrev
    let r := if r0 < tgt then (if p 2 ≤ 0 then tgt else min tgt (sat32 (r0 + p 2)))
      else if tgt < r0 then (if p 3 ≤ 0 then tgt else max tgt (sat32 (r0 - p 3))) else r0
    let x := r - fb
    let one := decide (s.rd (Fld.SLOT_SEC_NSEC n) = 1)
    let y := if one then sat40 (m x (cf 0) + (s.sec k).1) else sat40 x
    let u := if s.rd (Fld.SLOT_EXEC_FF_KIND n) = 0 then y else sat40 (y + m ff (p 4))
    let clamped := decide (p 1 < u) || decide (u < p 0)
    r0 < 2 ^ 31 → -(2 ^ 31) ≤ r0 →
    Does (.slotCompute n at') s fun t =>
      wInt (t.reg (Reg.SLOT_OUT n)) = min (max u (p 0)) (p 1) ∧ t.rdB (Fld.SLOT_STATUS_CLAMPED n) = clamped ∧
      t.rd (Fld.SLOT_STATUS_OUT_OK n) = 1 ∧ t.rd (Fld.SLOT_STATUS_STALE n) = 0 ∧ t.rd (Fld.SLOT_STATUS_STALE_CNT n) = 0 ∧
      t.rd (Fld.SLOT_STATUS_DONE_AT n) = at'.toNat ∧ (t.slot n).rPrev = r ∧ (t.slot n).rInit = false ∧
      t.sec k = (if one && !(clamped && s.bit (Fld.SLOT_SEC_INTEG n) 0) then
        (sat40 (sat40 (m x (cf 1) - m y (cf 3)) + (s.sec k).2), sat40 (m x (cf 2) - m y (cf 4))) else s.sec k) ∧
      t = { s with cycle := s.cycle + 1, regs := t.regs, log := t.log, perf := t.perf, loop :=
        { s.loop with slots := t.loop.slots, sec := t.loop.sec, slotDone := s.loop.slotDone ||| 2 ^ n.val, used := t.loop.used } } ∧
      (∀ j, j < 512 → j ≠ k → t.sec j = s.sec j) ∧ (∀ j, j < 96 → j ≠ n.val → t.slot j = s.slot j) ∧
      BitsKept (Reg.SLOT_STATUS n) [Fld.SLOT_STATUS_CLAMPED n, Fld.SLOT_STATUS_OUT_OK n, Fld.SLOT_STATUS_STALE n, Fld.SLOT_STATUS_SAT n,
        Fld.SLOT_STATUS_STALE_CNT n, Fld.SLOT_STATUS_DONE_AT n] s t ∧
      RegsKept [Reg.SLOT_OUT n, Reg.SLOT_STATUS n, Reg.LE_SLOT_STALE (n / 32), Reg.LE_EVENTS, Reg.LOG_STATUS] s t) ∧
  (∀ (s : State) (n : Fin 96) (at' : BitVec 13), slotTurn s n at'.toNat = true → s.rdB (Fld.SLOT_STATUS_HALTED n) = true →
    Does (.slotCompute n at') s fun t =>
      t.reg (Reg.SLOT_OUT n) = 0#32 ∧ t.rd (Fld.SLOT_STATUS_DONE_AT n) = at'.toNat ∧
      t = { s with cycle := s.cycle + 1, regs := t.regs, loop :=
        { s.loop with slotDone := s.loop.slotDone ||| 2 ^ n.val, used := t.loop.used } } ∧
      BitsKept (Reg.SLOT_STATUS n) [Fld.SLOT_STATUS_DONE_AT n] s t ∧ RegsKept [Reg.SLOT_OUT n, Reg.SLOT_STATUS n] s t) ∧
  (∀ (s : State) (n : Fin 96) (at' : BitVec 13), slotTurn s n at'.toNat = false →
    Does (.slotCompute n at') s fun t => t = { s with cycle := s.cycle + 1 }) ∧
  (∀ (s : State) (n : Fin 96) (at' : BitVec 13), slotTurn s n at'.toNat = true → s.rdB (Fld.SLOT_STATUS_HALTED n) = false →
    s.rdB (Fld.SLOT_STATUS_RAMPING n) = false → slotCauses s n ≠ 0 → s.rd Fld.LE_STATUS_HALTED_N < 255 →
    let cnt := Nat.min 15 (s.rd (Fld.SLOT_STATUS_STALE_CNT n) + 1)
    let tol := s.rd (Fld.SLOT_SEC_STALE_TOL n)
    let acts := !s.rdB Fld.LE_STATUS_GRACE && decide (tol < cnt)
    let resp := s.rd (Fld.SLOT_SEC_STALE_RESP n)
    let ramp : Int := (wInt (s.act (0x20 * n + 0x14))).natAbs
    let o := wInt (s.reg (Reg.SLOT_OUT n))
    let o' : Int := if ramp = 0 then 0 else if 0 < o then max 0 (o - ramp) else min 0 (o + ramp)
    let halts := acts && (decide (resp = 2) || (decide (resp = 1) && decide (o' = 0)))
    Does (.slotCompute n at') s fun t =>
      t.rd (Fld.SLOT_STATUS_STALE n) = 1 ∧ t.rd (Fld.SLOT_STATUS_STALE_CAUSE n) = slotCauses s n % 32 ∧
      t.mapBit Fld.LE_SLOT_STALE n = true ∧ t.loop.slotStale = s.loop.slotStale ||| 2 ^ n.val ∧
      t.rd (Fld.SLOT_STATUS_STALE_CNT n) = (if s.rdB Fld.LE_STATUS_GRACE then s.rd (Fld.SLOT_STATUS_STALE_CNT n) else cnt) ∧
      t.rdB Fld.LE_EVENTS_STALE_EV = (s.rdB Fld.LE_EVENTS_STALE_EV || (acts && decide (s.rd (Fld.SLOT_STATUS_STALE_CNT n) ≤ tol))) ∧
      t.rdB (Fld.SLOT_STATUS_HALTED n) = halts ∧ t.mapBit Fld.LE_SLOT_HALT n = (halts || s.mapBit Fld.LE_SLOT_HALT n) ∧
      t.rdB (Fld.SLOT_STATUS_RAMPING n) = (acts && decide (resp = 1) && !halts) ∧
      wInt (t.reg (Reg.SLOT_OUT n)) = (if halts then 0 else if acts && decide (resp = 1) then o' else o) ∧
      t.rdB (Fld.SLOT_STATUS_OUT_OK n) = (s.rdB (Fld.SLOT_STATUS_OUT_OK n) && !halts) ∧
      (∀ k, k < 512 → t.sec k = (if halts && decide (s.rd (Fld.SLOT_SEC_SEC_BASE n) ≤ k) &&
        decide (k < s.rd (Fld.SLOT_SEC_SEC_BASE n) + s.rd (Fld.SLOT_SEC_NSEC n)) then (0, 0) else s.sec k)) ∧
      (acts = true → resp = 2 → ∀ p, p < 72 → hasBit (drivenPairs s (2 ^ n.val)) p = true →
        [1, 2, 4].contains (s.rd (Fld.PWM_STATUS_STATE p)) = true →
        t.rd (Fld.PWM_STATUS_STATE p) = 3 ∧ t.bit (Fld.PWM_TRIP_SRC p) 25 = true) ∧
      t.loop.slots = s.loop.slots ∧ t.loop.slotDone = s.loop.slotDone ||| 2 ^ n.val ∧
      t = { s with cycle := s.cycle + 1, regs := t.regs, log := t.log, perf := t.perf, out := t.out, pwm := t.pwm, gate := t.gate,
                   loop := { s.loop with sec := t.loop.sec, slotDone := t.loop.slotDone, slotStale := t.loop.slotStale, used := t.loop.used } } ∧
      RegsKeptBut (fun a => [Reg.SLOT_OUT n, Reg.SLOT_STATUS n, Reg.LE_SLOT_STALE (n / 32), Reg.LE_SLOT_HALT (n / 32), Reg.LE_EVENTS,
        Reg.LE_STATUS, Reg.LOG_STATUS].contains a || (acts && decide (resp = 2) && tripReg a)) s t)

/-- R293 to R295: an operator instance whose turn has come and whose inputs are good gives the outputs of its type, rounded to nearest and limited to
PU32, and is OK; SVM2, SVM3 and LIM2DUTY write every duty of their pairs in the same cycle, SVM2 and LIM2DUTY within DMIN and DMAX. A stale instance,
also by a DC input at or below VDC_MIN, writes no pair, keeps its outputs with OK cleared, sets its bit in LE_OP_STALE and OP_STALE_EV at the start of
an episode, and trips its pairs with LOOP_STALE. -/
def Obligations.Operators : Prop :=
  (∀ (s : State) (k : Fin 128) (at' : BitVec 13) (cycle : Nat), opTurn s k at'.toNat = true →
    let type := s.rd (Fld.OP_CTL_TYPE k)
    let pair := s.rd (Fld.OP_CTL_PAIR k)
    let r := opReads s k
    let x := fun n => (r.getD n ⟨0, 0⟩).value
    let p := fun q => wInt (s.act (0x2000 + 0x20 * k + 4 * q))
    let phi := ((x 4).toNat + (s.act (0x2000 + 0x20 * k)).toNat) % 2 ^ 32
    let out := fun (v : Int) (scale : Nat) => sat32 (roundDiv v scale)
    opStale s k type r = false → pair ≤ 66 → type ≤ 6 →
    Does (.operatorCompute k at' true false cycle) s fun t =>
      (type = 1 → portValue t k 0 = out (2 * x 0 - x 1 - x 2) 3 ∧ portValue t k 2 = out (x 0 + x 1 + x 2) 3) ∧
      (type = 2 → portValue t k 0 = out (x 0 * cos60 phi + x 1 * sin60 phi) (2 ^ 60) ∧ portValue t k 1 = out (x 1 * cos60 phi - x 0 * sin60 phi) (2 ^ 60) ∧
        portValue t k 2 = out (x 0 * cos60 phi - x 1 * sin60 phi) (2 ^ 60) ∧ portValue t k 3 = out (x 1 * cos60 phi + x 0 * sin60 phi) (2 ^ 60)) ∧
      (type = 3 → portValue t k 0 = out (x 0 * cos60 phi - x 1 * sin60 phi + x 2 * cos60 phi + x 3 * sin60 phi) (2 ^ 60) ∧
        portValue t k 1 = out (x 0 * sin60 phi + x 1 * cos60 phi - x 2 * sin60 phi + x 3 * cos60 phi) (2 ^ 60)) ∧
      (type = 4 → p 0 ≤ p 1 → ∀ j, j < 3 → p 0 ≤ dutyValue t (pair + j) ∧ dutyValue t (pair + j) ≤ p 1) ∧
      (type = 4 → portValue t k 0 = 0 ∨ portValue t k 0 = pu1) ∧
      (type = 5 → 0 < p 0 → p 0 ≤ p 1 → ∀ j, j < 3 → (dutyValue t (pair + 2 * j) = 0 ∨ dutyValue t (pair + 2 * j + 1) = 0) ∧
        (dutyValue t (pair + 2 * j) = 0 ∨ (p 0 ≤ dutyValue t (pair + 2 * j) ∧ dutyValue t (pair + 2 * j) ≤ p 1)) ∧
        (dutyValue t (pair + 2 * j + 1) = 0 ∨ (p 0 ≤ dutyValue t (pair + 2 * j + 1) ∧ dutyValue t (pair + 2 * j + 1) ≤ p 1))) ∧
      (type = 6 → p 0 ≤ p 1 → 0 ≤ p 2 → p 2 ≤ pu1 →
        let d := min (max (x 0) (p 0)) (p 1)
        portValue t k 0 = (if d < p 2 then 0 else if pu1 - p 2 < d then pu1 else d) ∧ dutyValue t (pair + 0) = portValue t k 0) ∧
      t.mapBit Fld.LE_OP_STALE k = false ∧ hasBit t.loop.opOk k = true ∧
      t = { s with cycle := s.cycle + 1, regs := t.regs, loop :=
        { s.loop with opDone := s.loop.opDone ||| 2 ^ k.val, opOk := t.loop.opOk, used := t.loop.used } } ∧
      (∀ j, j < 128 → j ≠ k.val → hasBit t.loop.opOk j = hasBit s.loop.opOk j) ∧
      RegsKept ([Reg.OP_OUT k 0, Reg.OP_OUT k 1, Reg.OP_OUT k 2, Reg.OP_OUT k 3, Reg.LE_OP_STALE (k / 32)] ++
        (opPairs s k).map Reg.PWM_DUTY) s t) ∧
  (∀ (s : State) (k : Fin 128) (at' : BitVec 13) (agree ab : Bool) (cycle : Nat), opTurn s k at'.toNat = true →
    opStale s k (s.rd (Fld.OP_CTL_TYPE k)) (opReads s k) = true →
    Does (.operatorCompute k at' agree ab cycle) s fun t =>
      t.mapBit Fld.LE_OP_STALE k = true ∧ hasBit t.loop.opOk k = false ∧
      t.rdB Fld.LE_EVENTS_OP_STALE_EV = (s.rdB Fld.LE_EVENTS_OP_STALE_EV || !s.mapBit Fld.LE_OP_STALE k) ∧
      (∀ p, p < 72 → (opPairs s k).contains p = true → [1, 2, 4].contains (s.rd (Fld.PWM_STATUS_STATE p)) = true →
        t.rd (Fld.PWM_STATUS_STATE p) = 3 ∧ t.bit (Fld.PWM_TRIP_SRC p) 25 = true) ∧
      t = { s with cycle := s.cycle + 1, regs := t.regs, log := t.log, perf := t.perf, out := t.out, pwm := t.pwm, gate := t.gate, loop :=
        { s.loop with opDone := s.loop.opDone ||| 2 ^ k.val, opOk := t.loop.opOk, used := t.loop.used } } ∧
      RegsKeptBut (fun a => [Reg.LE_OP_STALE (k / 32), Reg.LE_EVENTS, Reg.LOG_STATUS].contains a ||
        (!(opPairs s k).isEmpty && tripReg a)) s t) ∧
  (∀ (s : State) (k : Fin 128) (at' : BitVec 13) (agree ab : Bool) (cycle : Nat), opTurn s k at'.toNat = false →
    Does (.operatorCompute k at' agree ab cycle) s fun t => t = { s with cycle := s.cycle + 1 })

/-- R289, R298, R299, R306: a write of LE_REARM waits for each slot it names; the tick cycle that takes it clears HALTED and the stale count of a halted
slot, and r_prev starts at 0, or at the first valid feedback where SLEW_INIT is 1; a slot that is not halted is left alone. The
engine starts where nothing holds it: every section state, slot output and operator output is 0, OUT_OK is 1 for every used slot, none is halted, RUN
and GRACE are 1, and the grace period is two frames; else nothing changes. -/
def Obligations.RearmAndStart : Prop :=
  (∀ (s : State) (i : Initiator) (b : Fin 3) (v : Word), Reaches s i (Reg.LE_REARM b) → mayWrite s i (Reg.LE_REARM b) = true →
    Does (.rearm i b v) s fun t =>
      (∀ n, n < 96 → t.slot n = { s.slot n with rearm := (s.slot n).rearm || (decide (n / 32 = b.val) && v.getLsbD (n % 32)) }) ∧
      t = { s with cycle := s.cycle + 1, bus := ⟨0#32, .done, .ok⟩, loop := { s.loop with slots := t.loop.slots } }) ∧
  (∀ (s : State), ticksRun s = true → s.time.nextTick < ticksPerFrame s → engineRuns s = true →
    let hit := fun n => (s.slot n).rearm && s.rdB (Fld.SLOT_STATUS_HALTED n)
    Does .controlTick s fun t =>
      (∀ n, n < 96 → (t.slot n).rearm = false ∧ t.rdB (Fld.SLOT_STATUS_HALTED n) = (s.rdB (Fld.SLOT_STATUS_HALTED n) && !hit n) ∧
        t.rd (Fld.SLOT_STATUS_STALE_CNT n) = (if hit n then 0 else s.rd (Fld.SLOT_STATUS_STALE_CNT n)) ∧
        t.mapBit Fld.LE_SLOT_HALT n = (s.mapBit Fld.LE_SLOT_HALT n && !hit n) ∧
        (t.slot n).rPrev = (if hit n then 0 else (s.slot n).rPrev) ∧
        (t.slot n).rInit = (if hit n then s.rdB (Fld.SLOT_SEC_SLEW_INIT n) else (s.slot n).rInit) ∧
        BitsKept (Reg.SLOT_STATUS n) [Fld.SLOT_STATUS_HALTED n, Fld.SLOT_STATUS_STALE_CNT n] s t) ∧
      t.rd Fld.LE_STATUS_HALTED_N = s.rd Fld.LE_STATUS_HALTED_N - ((List.range 96).filter hit).length) ∧
  (∀ (s : State), engineMayStart s = true → (∀ g, g < 8 → s.rd (Fld.GST_CTRL_AUTO g) = 0) → (∀ k, k < 24 → s.rd (Fld.TRK_CFG_AUTO k) = 0) →
    Does .engineStart s fun t =>
      t.rd Fld.LE_STATUS_RUN = 1 ∧ t.rd Fld.LE_STATUS_GRACE = 1 ∧ t.loop.grace = 2 ∧ t.rd Fld.LE_STATUS_HALTED_N = 0 ∧
      (∀ n, n < 96 → t.reg (Reg.SLOT_OUT n) = 0#32 ∧ t.rd (Fld.SLOT_STATUS_HALTED n) = 0 ∧
        t.rdB (Fld.SLOT_STATUS_OUT_OK n) = slotUsed s n ∧ (t.slot n).rPrev = 0 ∧ (t.slot n).rInit = s.rdB (Fld.SLOT_SEC_SLEW_INIT n)) ∧
      (∀ k, k < 128 → ∀ q, q < 4 → t.reg (Reg.OP_OUT k q) = 0#32) ∧ t.loop.sec = [] ∧
      t = { s with cycle := s.cycle + 1, regs := t.regs, perf := t.perf, loop := t.loop } ∧
      t.loop.bank0 = s.loop.bank0 ∧ t.loop.bank1 = s.loop.bank1 ∧ t.loop.ports = s.loop.ports ∧
      RegsKeptBut (fun a => inArray (Reg.SLOT_STATUS 0) 0x20 96 a || inArray (Reg.SLOT_OUT 0) 0x20 96 a || decide (a = Reg.LE_STATUS) ||
        decide (0x140080 ≤ a ∧ a < 0x1400C0) || [0, 1, 2, 3].any (fun q => inArray (Reg.OP_OUT 0 q) 0x20 128 a) ||
        [0, 1, 2, 3].any (fun q => a == Reg.LE_MAX q || a == Reg.LE_OVR q) || decide (a = Reg.LS_STATUS)) s t) ∧
  (∀ (s : State), engineMayStart s = false → Does .engineStart s fun t => t = { s with cycle := s.cycle + 1 })

/-- R302 to R304: ARM_AT arms a swap for the frame of LE_SWAP_AT and ARM_NEXT one for the current frame + 2: F is written into LE_SWAP_AT and ARM_STATE
shows hashing; a target outside 2 to 2^47 - 1 frames ahead or a limit OUT_MIN > OUT_MAX answers BAD_ARG, and then an armed swap or a running copy
STATE_CONFLICT, with ARM_REFUSED set. The digest is shown and the swap is armed when it is done; in frame F the inactive bank becomes the active one,
and the change log gets the digest. DISARM returns to no swap. COPY copies the active bank. -/
def Obligations.BankSwaps : Prop :=
  (∀ (s : State) (i : Initiator), Reaches s i Reg.LE_BANK_CTRL → mayWrite s i Reg.LE_BANK_CTRL = true →
    let ahead := fun (f : Nat) => (f + 2 ^ 48 - s.fn) % 2 ^ 48
    let bank := fun o => wInt (if s.rd Fld.LE_STATUS_ACT_BANK = 0 then Tab.get 0#32 s.loop.bank1 o else Tab.get 0#32 s.loop.bank0 o)
    let wrong := fun (f : Nat) => decide (ahead f < 2 ∨ 2 ^ 47 ≤ ahead f) || (List.range 96).any (fun n => decide (bank (0x20 * n + 4) < bank (0x20 * n)))
    let conflict := s.rdB Fld.LE_STATUS_COPY_BUSY || decide (s.rd Fld.LE_STATUS_ARM_STATE ≠ 0)
    let armed : Nat → State → Prop := fun f t =>
      (wrong f = false → conflict = false → t.rd Fld.LE_STATUS_ARM_STATE = 1 ∧ t.rd Fld.LE_SWAP_AT_LO + 2 ^ 32 * t.rd Fld.LE_SWAP_AT_HI = f ∧
        t.bus = ⟨0#32, .done, .ok⟩ ∧ t.log = s.log) ∧
      (wrong f = false → conflict = true → t.bus = ⟨0#32, .done, .stateConflict⟩ ∧ Logged 0x12 9 2 s t) ∧
      (wrong f = true → t.bus = ⟨0#32, .done, .badArg⟩ ∧ Logged 0x12 9 4 s t) ∧
      (wrong f = true ∨ conflict = true → t.rd Fld.LE_EVENTS_ARM_REFUSED = 1 ∧ t.loop = s.loop ∧ RegsKept [Reg.LE_EVENTS, Reg.LOG_STATUS] s t) ∧
      t = { s with cycle := s.cycle + 1, regs := t.regs, log := t.log, bus := t.bus, loop := { s.loop with armedBy := t.loop.armedBy } } ∧
      RegsKept [Reg.LE_STATUS, Reg.LE_SWAP_AT_LO, Reg.LE_SWAP_AT_HI, Reg.LE_EVENTS, Reg.LOG_STATUS] s t
    Does (.armNext i) s (armed ((s.fn + 2) % 2 ^ 48)) ∧
    Does (.armAt i) s (armed (s.rd Fld.LE_SWAP_AT_LO + 2 ^ 32 * s.rd Fld.LE_SWAP_AT_HI))) ∧
  (∀ (s : State), s.rd Fld.LE_STATUS_ARM_STATE = 1 →
    let bank := if s.rd Fld.LE_STATUS_ACT_BANK = 0 then s.loop.bank1 else s.loop.bank0
    let d := Config.sha384 ((List.range 8192).flatMap (fun k => leBytes 4 (Tab.get 0#32 bank (4 * k)).toNat))
    Does .bankDigestDone s fun t =>
      t.rd Fld.LE_STATUS_ARM_STATE = 2 ∧
      (∀ w, w < 4 → t.rd (Fld.LE_BANK_DIGEST w) = digestWord (first16 d) w) ∧
      t = { s with cycle := s.cycle + 1, regs := t.regs } ∧ BitsKept Reg.LE_STATUS [Fld.LE_STATUS_ARM_STATE] s t ∧
      RegsKept [Reg.LE_STATUS, Reg.LE_BANK_DIGEST 0, Reg.LE_BANK_DIGEST 1, Reg.LE_BANK_DIGEST 2, Reg.LE_BANK_DIGEST 3] s t) ∧
  (∀ (s : State), s.rd Fld.LE_STATUS_ARM_STATE = 2 → s.rd Fld.LE_SWAP_AT_LO + 2 ^ 32 * s.rd Fld.LE_SWAP_AT_HI = s.fn →
    s.rd Fld.SCHED_CFG_TICK_RUN = 1 → s.clogFull = false →
    Does .leSwap s fun t =>
      t.rd Fld.LE_STATUS_ACT_BANK = 1 - s.rd Fld.LE_STATUS_ACT_BANK ∧ t.rd Fld.LE_STATUS_ARM_STATE = 0 ∧ t.rd Fld.LE_EVENTS_SWAP_DONE = 1 ∧
      t.loop = s.loop ∧ t.clog.queue.length = s.clog.queue.length + 1 ∧
      (t.clog.queue.getLast?.map (fun e => (e.kind, e.subject, e.new))) = some (5, Reg.LE_BANK_CTRL,
        digestOfWords (s.rd (Fld.LE_BANK_DIGEST 0)) (s.rd (Fld.LE_BANK_DIGEST 1)) (s.rd (Fld.LE_BANK_DIGEST 2)) (s.rd (Fld.LE_BANK_DIGEST 3))) ∧
      t = { s with cycle := s.cycle + 1, regs := t.regs, log := t.log, clog := t.clog, out := t.out } ∧
      RegsKept [Reg.LE_STATUS, Reg.LE_EVENTS, Reg.LOG_STATUS, Reg.CLOG_STATUS] s t) ∧
  (∀ (s : State) (i : Initiator), Reaches s i Reg.LE_BANK_CTRL → mayWrite s i Reg.LE_BANK_CTRL = true →
    Does (.disarm i) s fun t =>
      t.rd Fld.LE_STATUS_ARM_STATE = 0 ∧ t = { s with cycle := s.cycle + 1, regs := t.regs, bus := ⟨0#32, .done, .ok⟩ } ∧
      BitsKept Reg.LE_STATUS [Fld.LE_STATUS_ARM_STATE] s t ∧ RegsKept [Reg.LE_STATUS] s t) ∧
  (∀ (s : State) (i : Initiator), Reaches s i Reg.LE_BANK_CTRL → mayWrite s i Reg.LE_BANK_CTRL = true →
    let bank := fun o => wInt (if s.rd Fld.LE_STATUS_ACT_BANK = 0 then Tab.get 0#32 s.loop.bank1 o else Tab.get 0#32 s.loop.bank0 o)
    let bad := (List.range 96).any (fun n => decide (bank (0x20 * n + 4) < bank (0x20 * n)))
    let conflict := s.rdB Fld.LE_STATUS_COPY_BUSY || decide (s.rd Fld.LE_STATUS_ARM_STATE ≠ 0)
    Does (.copy i) s fun t =>
      t.bus = ⟨0#32, .done, if bad then .badArg else if conflict then .stateConflict else .ok⟩ ∧
      t.rdB Fld.LE_STATUS_COPY_BUSY = (s.rdB Fld.LE_STATUS_COPY_BUSY || !(bad || conflict)) ∧
      t.rdB Fld.LE_EVENTS_ARM_REFUSED = (s.rdB Fld.LE_EVENTS_ARM_REFUSED || bad || conflict) ∧
      t = { s with cycle := s.cycle + 1, regs := t.regs, log := t.log, bus := t.bus } ∧
      RegsKept [Reg.LE_STATUS, Reg.LE_EVENTS, Reg.LOG_STATUS] s t) ∧
  (∀ (s : State), s.rd Fld.LE_STATUS_COPY_BUSY = 1 →
    Does .copyDone s fun t =>
      t.rd Fld.LE_STATUS_COPY_BUSY = 0 ∧
      (let live := if s.rd Fld.LE_STATUS_ACT_BANK = 0 then s.loop.bank0 else s.loop.bank1
       t.loop = { s.loop with bank0 := live, bank1 := live }) ∧
      t = { s with cycle := s.cycle + 1, regs := t.regs, loop := t.loop } ∧ BitsKept Reg.LE_STATUS [Fld.LE_STATUS_COPY_BUSY] s t ∧
      RegsKept [Reg.LE_STATUS] s t)

/-- R324: a read of S1_LO of a section answers bits 31:0 of its state s1 and latches the other three words of its two 40-bit states in the same cycle. -/
def Obligations.SectionStateRead : Prop :=
  ∀ (s : State) (i : Initiator) (j : Fin 512), Reaches s i (Reg.SEC_S1_LO j) → mayRead s i (Reg.SEC_S1_LO j) = true →
    let s1 := BitVec.ofInt 40 (s.sec j).1
    let s2 := BitVec.ofInt 40 (s.sec j).2
    Does (.secStateRead i j) s fun t =>
      t.bus = ⟨s1.extractLsb' 0 32, .done, .ok⟩ ∧ t.reg (Reg.SEC_S1_LO j) = s1.extractLsb' 0 32 ∧
      t.rd (Fld.SEC_S1_HI j) = (s1.extractLsb' 32 8).toNat ∧ t.reg (Reg.SEC_S2_LO j) = s2.extractLsb' 0 32 ∧
      t.rd (Fld.SEC_S2_HI j) = (s2.extractLsb' 32 8).toNat ∧
      t = { s with cycle := s.cycle + 1, regs := t.regs, bus := t.bus } ∧
      RegsKept [Reg.SEC_S1_LO j, Reg.SEC_S1_HI j, Reg.SEC_S2_LO j, Reg.SEC_S2_HI j] s t

/-- R326, R327, R329, R331: a unit whose three results of the tick are written, valid and not frozen updates: each phase's integrator moves by Ts w times
(K_SOGI e - x2), and its quadrature part by Ts w times the new x1; V1 and V2 are the magnitudes of the sequences; COAST and STALE_CNT are 0 and ANG_OK
1; below 0.05 p.u. FREEZE is 1, w stands and the angle advances at the held frequency; F stays within F_NOM ± 10 Hz. Else the unit coasts: its
states stand, COAST is 1, the angle advances at the held frequency, STALE_CNT counts to 255, and as it passes STALE_TICKS ANG_OK falls with STALE_EV.
A unit that starts has its states at 0 and w at 2π F_NOM; it updates once in a tick. LOCKED falls with V1 low, F off or ANG_OK at 0, and rises once
its conditions have held for 100 ms. The order of the products of Ts w is the model's (log entry 20). -/
def Obligations.GridSyncUnits : Prop :=
  (∀ (s : State), unitOn s 8 = true → s.rd Fld.SCHED_CFG_TICK_RUN = 1 → s.rd Fld.CLK_STATUS_CTRL_LOCK = 1 → (s.unit 8).done = false →
    (unitSources s 8).all (resultUsable s) = true →
    let x := fun n => phaseValue s 8 n ((unitSources s 8).getD n (0, 0))
    let va := sat32 (roundDiv (2 * x 0 - x 1 - x 2) 3)
    let vb := sat32 (roundDiv ((x 1 - x 2) * sqrt3) (3 * 2 ^ 40))
    let q := if (s.unit 8).started then s.unit 8 else { restUnit with w := 6746518852 * (if s.rdB (Fld.GS_CFG_F_NOM 8) then 60 else 50) }
    let k : Int := s.rd (Fld.GS_CFG_K_SOGI 8)
    let tw := sat40 (roundDiv (20 * q.w) (1000000 * ticksPerFrame s))
    let in1 := fun v x1 x2 => add40 x1 (mul40 tw (add40 (sat40 (roundDiv (k * add40 v (-x1)) 64)) (-x2)))
    let in2 := fun x1 x2 => add40 x2 (mul40 tw x1)
    let half := fun x y => roundDiv (add40 x y) 2
    let a1 := in1 va q.x1a q.x2a
    let a2 := in2 a1 q.x2a
    let b1 := in1 vb q.x1b q.x2b
    let b2 := in2 b1 q.x2b
    Does (.gsUpdate 8) s fun t =>
      (t.unit 8).x1a = a1 ∧ (t.unit 8).x2a = a2 ∧ (t.unit 8).x1b = b1 ∧ (t.unit 8).x2b = b2 ∧
      t.rdI (Fld.GS_V1 8) = sat32 (magnitude (half a1 (-b2)) (half a2 b1)) ∧
      t.rdI (Fld.GS_V2 8) = sat32 (magnitude (half a1 b2) (half b1 (-a2))) ∧
      t.rd (Fld.GS_STATUS_COAST 8) = 0 ∧ t.rd (Fld.GS_STATUS_STALE_CNT 8) = 0 ∧ t.rd (Fld.GS_STATUS_ANG_OK 8) = 1 ∧
      t.rdB (Fld.GS_STATUS_FREEZE 8) = decide (t.rdI (Fld.GS_V1 8) < 53687091) ∧
      (t.rd (Fld.GS_STATUS_FREEZE 8) = 1 → twoPi * (fNom s 8 - 10 : Nat) ≤ q.w → q.w ≤ twoPi * (fNom s 8 + 10 : Nat) → (t.unit 8).w = q.w ∧
        t.rd (Fld.GS_THETA1 8) = angleHeld s 8 (t.rd (Fld.GS_FREQ 8))) ∧
      (fNom s 8 - 10) * 65536 ≤ t.rd (Fld.GS_FREQ 8) ∧ t.rd (Fld.GS_FREQ 8) ≤ (fNom s 8 + 10) * 65536 ∧
      (t.rd (Fld.GS_STATUS_LOCKED 8) = 1 → s.rd (Fld.GS_STATUS_LOCKED 8) = 1 ∧ t.rd (Fld.GS_STATUS_FREEZE 8) = 0) ∧
      t = { s with cycle := s.cycle + 1, regs := t.regs, log := t.log, units := t.units } ∧
      (∀ u, u < 8 → t.unit u = s.unit u) ∧
      RegsKept [Reg.GS_STATUS 8, Reg.GS_EVENTS 8, Reg.GS_V1 8, Reg.GS_V2 8, Reg.GS_VPH_MIN 8, Reg.GS_VPH_MAX 8, Reg.GS_VFAST 8, Reg.GS_THETA1 8,
        Reg.GS_THETA2 8, Reg.GS_FREQ 8, Reg.LOG_STATUS] s t) ∧
  (∀ (s : State), unitOn s 8 = true → s.rd Fld.SCHED_CFG_TICK_RUN = 1 → s.rd Fld.CLK_STATUS_CTRL_LOCK = 1 → (s.unit 8).done = false →
    (unitSources s 8).all (resultUsable s) = false →
    let q := if (s.unit 8).started then s.unit 8 else { restUnit with w := 6746518852 * (if s.rdB (Fld.GS_CFG_F_NOM 8) then 60 else 50) }
    let cnt := Nat.min 255 (s.rd (Fld.GS_STATUS_STALE_CNT 8) + 1)
    let beyond := decide (s.rd (Fld.GS_STATUS_STALE_CNT 8) ≤ s.rd (Fld.GS_CFG_STALE_TICKS 8)) && decide (s.rd (Fld.GS_CFG_STALE_TICKS 8) < cnt)
    let ok := s.rdB (Fld.GS_STATUS_ANG_OK 8) && !beyond
    let f := s.rd (Fld.GS_FREQ 8)
    let keep := ok && decide (53687091 ≤ s.rdI (Fld.GS_V1 8)) && decide ((fNom s 8 - 6) * 65536 ≤ f) && decide (f ≤ (fNom s 8 + 6) * 65536)
    Does (.gsUpdate 8) s fun t =>
      (t.unit 8).x1a = q.x1a ∧ (t.unit 8).x2a = q.x2a ∧ (t.unit 8).x1b = q.x1b ∧ (t.unit 8).x2b = q.x2b ∧ (t.unit 8).w = q.w ∧
      t.rd (Fld.GS_THETA1 8) = angleHeld s 8 (freqOf q.w) ∧
      t.rd (Fld.GS_STATUS_COAST 8) = 1 ∧ t.rd (Fld.GS_STATUS_STALE_CNT 8) = cnt ∧ t.rdB (Fld.GS_STATUS_ANG_OK 8) = ok ∧
      t.rdB (Fld.GS_EVENTS_STALE_EV 8) = (s.rdB (Fld.GS_EVENTS_STALE_EV 8) || beyond) ∧
      t.rdB (Fld.GS_STATUS_LOCKED 8) = (s.rdB (Fld.GS_STATUS_LOCKED 8) && keep) ∧
      t.rdB (Fld.GS_EVENTS_UNLOCK_EV 8) = (s.rdB (Fld.GS_EVENTS_UNLOCK_EV 8) || (s.rdB (Fld.GS_STATUS_LOCKED 8) && !keep)) ∧
      t = { s with cycle := s.cycle + 1, regs := t.regs, log := t.log, units := t.units } ∧ (∀ u, u < 8 → t.unit u = s.unit u) ∧
      RegsKept [Reg.GS_STATUS 8, Reg.GS_EVENTS 8, Reg.GS_THETA1 8, Reg.LOG_STATUS] s t) ∧
  (∀ (s : State) (u : Fin 9), unitOn s u = false ∨ s.rd Fld.SCHED_CFG_TICK_RUN = 0 ∨ s.rd Fld.CLK_STATUS_CTRL_LOCK = 0 ∨ (s.unit u).done = true →
    Does (.gsUpdate u) s fun t => t = { s with cycle := s.cycle + 1 }) ∧
  (∀ (s : State) (u : Fin 9), 5000 * ticksPerFrame s ≤ (s.unit u).lockTicks → s.rd (Fld.GS_STATUS_LOCKED u) = 0 →
    s.rd (Fld.GS_STATUS_ANG_OK u) = 1 →
    Does (.gsLock u) s fun t =>
      t.rd (Fld.GS_STATUS_LOCKED u) = 1 ∧ t.rd (Fld.GS_EVENTS_LOCK_EV u) = 1 ∧ Logged 0x13 1 u s t ∧
      t = { s with cycle := s.cycle + 1, regs := t.regs, log := t.log } ∧
      BitsKept (Reg.GS_STATUS u) [Fld.GS_STATUS_LOCKED u] s t ∧ RegsKept [Reg.GS_STATUS u, Reg.GS_EVENTS u, Reg.LOG_STATUS] s t) ∧
  (∀ (s : State) (u : Fin 9), (s.unit u).lockTicks < 5000 * ticksPerFrame s →
    Does (.gsLock u) s fun t => t = { s with cycle := s.cycle + 1 })

/-- R338 to R342, R345: the commands of a stage as its tick takes them. START leads from OFF to WAIT_GRID, or sets START_REF while no table set is in
force; STOP leads from RAMP and RUN to STOPPING with the references as they were, and from WAIT_GRID, CLOSING and STARTING to OFF with CONNECT at 0;
RESET_FAULT leads from FAULT to OFF once CONT_FB is 0 and no other source is asserted on the pairs. A trip cause in the tick wins, also that of a
timer, which its own command makes. In Ring-only and while the ticks are lost a stage stays OFF. CONT_FB follows the read-back of the output that
drives the contactor. Other stages stay.
The further changes of state of a stage. The conditions of R340 held for the delay lead to CLOSING with CONNECT at 1; the contactor closed for 20 ms
to STARTING with the clear of the pairs requested, or to FAULT (CLEAR) where it is refused; 20 ms after the clear to RAMP; the end of P_ENTER's rise
to RUN; the end of STOPPING's ramp stops the pairs and drops CONNECT, and leads to OFF where the contactor is open. The contactor that has not
followed for 100 ms leads to FAULT (CONTACTOR), its opening while CONNECT is 1 to FAULT (SAFETY), after TRIPPED to WAIT_GRID with RECONNECT_DELAY, and
after STOPPING to OFF; an expired point leads to TRIPPED with its index in RT_POINT. -/
def Obligations.GridStages : Prop :=
  (∀ (s : State) (i : Initiator) (g : Fin 8), Reaches s i (Reg.GST_CTRL g) → mayWrite s i (Reg.GST_CTRL g) = true →
    s.rd (Fld.GST_MAP_EN g) = 1 → s.rd (Fld.GST_STATUS_STATE g) = 0 →
    let up := !s.rdB Fld.SCHED_STATUS_TICK_LOST && s.bit Fld.DOM_STATUS_ON 14
    let ok := decide (s.rd Fld.GC_STAT_CODE_IN_FORCE ≠ 0) && s.rdB Fld.GC_STAT_SET_OK
    Does (.gridStart i g) s fun t =>
      (if up && ok then StageIn g 1 (s.rdB (Fld.GST_STATUS_CONNECT g)) t ∧ (t.stage g).reconnect = false ∧ (t.stage g).delay = 0
       else t.rd (Fld.GST_STATUS_STATE g) = 0 ∧ t.rdB (Fld.GST_EVENTS_START_REF g) = (s.rdB (Fld.GST_EVENTS_START_REF g) || up)) ∧
      t.rd (Fld.GST_CTRL_CMD g) = 0 ∧ (∀ q, q < 4 → t.reg (Reg.GST_REF g q) = 0#32) ∧
      StageFrame g { s with bus := ⟨0#32, .done, .ok⟩ } t) ∧
  (∀ (s : State) (i : Initiator) (g : Fin 8), Reaches s i (Reg.GST_CTRL g) → mayWrite s i (Reg.GST_CTRL g) = true →
    s.rd (Fld.GST_MAP_EN g) = 1 → 1 ≤ s.rd (Fld.GST_STATUS_STATE g) → s.rd (Fld.GST_STATUS_STATE g) ≤ 5 →
    (s.rd (Fld.GST_STATUS_STATE g) = 1 ∨ stageCause s g = none) → timerTrips s g = false →
    Does (.gridStop i g) s fun t =>
      (if 4 ≤ s.rd (Fld.GST_STATUS_STATE g) then StageIn g 6 (s.rdB (Fld.GST_STATUS_CONNECT g)) t ∧ (t.stage g).stopped = false ∧
          (∀ q, q < 4 → t.reg (Reg.GST_REF g q) = s.reg (Reg.GST_REF g q) ∧ Tab.get 0#32 t.loop.ports (4 * g + q) = s.reg (Reg.GST_REF g q))
       else StageIn g 0 false t ∧ (∀ q, q < 4 → t.reg (Reg.GST_REF g q) = 0#32 ∧ Tab.get 0#32 t.loop.ports (4 * g + q) = 0#32)) ∧
      t.rd (Fld.GST_CTRL_CMD g) = 0 ∧ StageFrame g { s with bus := ⟨0#32, .done, .ok⟩ } t) ∧
  (∀ (s : State) (i : Initiator) (g : Fin 8) (c : Nat), Reaches s i (Reg.GST_CTRL g) → mayWrite s i (Reg.GST_CTRL g) = true →
    s.rd (Fld.GST_MAP_EN g) = 1 → 2 ≤ s.rd (Fld.GST_STATUS_STATE g) → s.rd (Fld.GST_STATUS_STATE g) ≤ 6 → stageCause s g = some c →
    let tripped : State → Prop := fun t =>
      StageTripped g c t ∧ t.rd (Fld.GST_CTRL_CMD g) = 0 ∧ (∀ q, q < 4 → t.reg (Reg.GST_REF g q) = 0#32) ∧
      StageFrame g { s with bus := ⟨0#32, .done, .ok⟩ } t
    Does (.gridStart i g) s tripped ∧ Does (.gridStop i g) s tripped ∧ Does (.gridResetFault i g) s tripped) ∧
  (∀ (s : State) (i : Initiator) (g : Fin 8), Reaches s i (Reg.GST_CTRL g) → mayWrite s i (Reg.GST_CTRL g) = true →
    s.rd (Fld.GST_MAP_EN g) = 1 → timerTrips s g = true → stageCause s g = none →
    let same : State → Prop := fun t =>
      t.rd (Fld.GST_CTRL_CMD g) = 0 ∧ t.rd (Fld.GST_STATUS_STATE g) = s.rd (Fld.GST_STATUS_STATE g) ∧ t.stage g = s.stage g ∧ t.pwm = s.pwm ∧
      StageFrame g { s with bus := ⟨0#32, .done, .ok⟩ } t
    Does (.gridStart i g) s same ∧ Does (.gridStop i g) s same ∧ Does (.gridResetFault i g) s same) ∧
  (∀ (s : State) (i : Initiator) (g : Fin 8), Reaches s i (Reg.GST_CTRL g) → mayWrite s i (Reg.GST_CTRL g) = true →
    s.rd (Fld.GST_MAP_EN g) = 1 → s.rd (Fld.GST_STATUS_STATE g) = 8 →
    let free := !s.rdB (Fld.GST_STATUS_CONT_FB g) && (stagePairs s g).all (fun p => tripLive 0 s p ||| (2 ^ 26 + 2 ^ 27) == 2 ^ 26 + 2 ^ 27)
    Does (.gridResetFault i g) s fun t =>
      (if free then StageIn g 0 (s.rdB (Fld.GST_STATUS_CONNECT g)) t else t.rd (Fld.GST_STATUS_STATE g) = 8) ∧
      t.rd (Fld.GST_CTRL_CMD g) = 0 ∧ StageFrame g { s with bus := ⟨0#32, .done, .ok⟩ } t) ∧
  (∀ (s : State) (g : Fin 8), s.rd (Fld.GST_STATUS_STATE g) = 1 → mayConnect s g = true → connectDelay s g ≤ (s.stage g).delay →
    Does (.connectDelayEnd g) s fun t => StageIn g 2 true t ∧ StageFrame g s t) ∧
  (∀ (s : State) (g : Fin 8), s.rd (Fld.GST_STATUS_STATE g) = 2 → s.rd (Fld.GST_STATUS_CONT_FB g) = 1 →
    1000 * ticksPerFrame s ≤ (s.stage g).fb →
    Does (.contactorClosed g) s fun t =>
      (if (stagePairs s g).any (fun p => t.rd (Fld.PWM_STATUS_STATE p) == 3) then t.rd (Fld.GST_STATUS_STATE g) = 8 ∧ StageTripped g 11 t
       else StageIn g 3 (s.rdB (Fld.GST_STATUS_CONNECT g)) t) ∧ StageFrame g s t) ∧
  (∀ (s : State) (g : Fin 8) (closing : Bool), 5000 * ticksPerFrame s ≤ (s.stage g).conn →
    s.rd (Fld.GST_STATUS_STATE g) = (if closing then 2 else 6) → s.rdB (Fld.GST_STATUS_CONNECT g) = closing →
    s.rdB (Fld.GST_STATUS_CONT_FB g) = !closing →
    Does (.contactorTimeout g) s fun t => StageTripped g 10 t ∧ t.rd (Fld.GST_EVENTS_CONT_FAULT g) = 1 ∧ StageFrame g s t) ∧
  (∀ (s : State) (g : Fin 8), s.rd (Fld.GST_STATUS_STATE g) = 3 → 1000 * ticksPerFrame s ≤ (s.stage g).clear →
    Does (.rampStart g) s fun t => StageIn g 4 (s.rdB (Fld.GST_STATUS_CONNECT g)) t ∧ (t.stage g).ramp = 0 ∧ StageFrame g s t) ∧
  (∀ (s : State) (g : Fin 8), s.rd (Fld.GST_STATUS_STATE g) = 4 → 2 ^ 31 ≤ pEnter s g →
    Does (.rampEnd g) s fun t => StageIn g 5 (s.rdB (Fld.GST_STATUS_CONNECT g)) t ∧ StageFrame g s t) ∧
  (∀ (s : State) (g : Fin 8), s.rd (Fld.GST_STATUS_STATE g) = 6 → (s.stage g).stopped = false → 5000 * ticksPerFrame s ≤ (s.stage g).stop →
    Does (.stopRampEnd g) s fun t =>
      t.rd (Fld.GST_STATUS_STATE g) = (if s.rd (Fld.GST_STATUS_CONT_FB g) = 0 then 0 else 6) ∧ t.rd (Fld.GST_STATUS_CONNECT g) = 0 ∧
      (∀ p ∈ stagePairs s g, hasBit t.pwm.stageStop p = true) ∧ (∀ q, q < 4 → t.reg (Reg.GST_REF g q) = 0#32) ∧ StageFrame g s t) ∧
  (∀ (s : State) (g : Fin 8),
    let level := s.bit Fld.SOUT_STATE_SRB (s.rd (Fld.GST_MAP_CONT_OUT g))
    let st := s.rd (Fld.GST_STATUS_STATE g)
    let con := s.rdB (Fld.GST_STATUS_CONNECT g)
    let fell := s.rdB (Fld.GST_STATUS_CONT_FB g) && !level
    Does (.contFbChange g) s fun t =>
      t.rdB (Fld.GST_STATUS_CONT_FB g) = level ∧
      (if fell && con && decide (2 ≤ st ∧ st ≤ 6) then StageTripped g 8 t
       else if !level && decide (st = 6) && !con then StageIn g 0 false t
       else if !level && decide (st = 7) then StageIn g 1 con t ∧ (t.stage g).reconnect = true ∧ (t.stage g).delay = 0
       else t.rd (Fld.GST_STATUS_STATE g) = st ∧ t.stage g = s.stage g ∧ t.pwm = s.pwm ∧ RegsKept [Reg.GST_STATUS g] s t) ∧ StageFrame g s t) ∧
  (∀ (s : State) (g : Fin 8) (kind : Fin 5) (i : Fin 16), 2 ≤ s.rd (Fld.GST_STATUS_STATE g) → s.rd (Fld.GST_STATUS_STATE g) ≤ 6 →
    pointExpired s g kind i = true →
    Does (.rtPointExpiry g kind i) s fun t => StageTripped g kind t ∧ t.rd (Fld.GST_STATUS_RT_POINT g) = i ∧ StageFrame g s t)

/-- R333 to R337, R346: in the update of a stage in RUN that no cause trips and whose ride-through stays NORMAL, the active reference is the demand
limited by I_MAX and the reactive one by what it leaves, the other way round for PRIO 1; both negative-sequence references are 0; a clamp sets LIMIT.
In CEASE all four references are 0. A low voltage leads to LVRT, or to CEASE below V_CEASE, and a high one to HVRT, with RT_EV set. Here the unit
coasts in the tick, so that its voltages are those the registers hold, Q is Q_SET and P is not taken from a slot. P_SET, Q_SET, PF_SET, I_MAX and
the Q(V) points act as they stood in the tick cycle. -/
def Obligations.GridReferences : Prop :=
  (∀ (s : State) (g : Fin 8), ticksRun s = true → s.time.nextTick < ticksPerFrame s → s.rd (Fld.GST_MAP_EN g) = 1 →
    Does .controlTick s fun t =>
      snapI t g (Fld.GST_P_SET g) = t.rdI (Fld.GST_P_SET g) ∧ snapI t g (Fld.GST_Q_SET g) = t.rdI (Fld.GST_Q_SET g) ∧
      snapI t g (Fld.GST_PF_SET g) = t.rdI (Fld.GST_PF_SET g) ∧ snapI t g (Fld.GST_I_MAX g) = t.rdI (Fld.GST_I_MAX g) ∧
      (∀ p, p < 4 → snapRd t g (Fld.GST_QV_V g p) = t.rd (Fld.GST_QV_V g p) ∧ snapI t g (Fld.GST_QV_Q g p) = t.rdI (Fld.GST_QV_Q g p))) ∧
  (∀ (s : State) (g : Fin 8), unitOn s g = true → s.rd Fld.SCHED_CFG_TICK_RUN = 1 → s.rd Fld.CLK_STATUS_CTRL_LOCK = 1 →
    (s.unit g).done = false → (unitSources s g).all (resultUsable s) = false → s.rd (Fld.GST_MAP_EN g) = 1 →
    s.rd (Fld.GST_STATUS_STATE g) = 5 → s.rd (Fld.GST_CTRL_CMD g) = 0 → s.rd (Fld.GST_CTRL_QMODE g) = 0 → s.rd (Fld.GST_MAP_ACT_SRC g) = 0 →
    s.rd Fld.ISL_PHI = 0 →
    let v := max (s.rdI (Fld.GS_V1 g)) 53687091
    let m := clampInt 0 (3 * 2 ^ 29) (snapI s g (Fld.GST_I_MAX g))
    let imp := s.rdB (Fld.GST_CTRL_IMPORT_EN g)
    let pDem := roundDiv (min (snapI s g (Fld.GST_P_SET g)) (min (2 ^ 31) (pFreq s g)) * 2 ^ 30) v.natAbs
    let pDem := if imp then pDem else max pDem 0
    let qDem := -(roundDiv (snapI s g (Fld.GST_Q_SET g) * 2 ^ 30) v.natAbs)
    let rest := fun x : Int => (isqrt 33 (m.natAbs * m.natAbs - x.natAbs * x.natAbs) : Int)
    let idA := clampInt (if imp then -m else 0) m pDem
    let iqR := clampSym m qDem
    let refs := if s.rdB (Fld.GST_CTRL_PRIO g) then (clampInt (if imp then -(rest iqR) else 0) (rest iqR) pDem, iqR)
      else (idA, clampSym (rest idA) qDem)
    let rt := s.rd (Fld.GST_STATUS_RT_STATE g)
    let low := rtLow s g 0
    let high := decide (0 < puMinus (s.rdI (Fld.GS_VPH_MAX g)) (s.rd Fld.GC_ENTER_HV_ENTER))
    let cease := s.rdB Fld.GC_K_CEASE_EN && decide (puMinus (s.rdI (Fld.GS_VPH_MIN g)) (s.rd Fld.GC_CEASE_V_CEASE) < 0)
    Does (.gsUpdate (g.castLE (by decide))) s fun t =>
      t.rd (Fld.GS_STATUS_COAST g) = 1 ∧
      (t.rd (Fld.GST_STATUS_STATE g) = 5 ∨ t.rd (Fld.GST_STATUS_STATE g) = 7 ∨ t.rd (Fld.GST_STATUS_STATE g) = 8) ∧
      (t.rd (Fld.GS_STATUS_ANG_OK g) = 1 → t.rd (Fld.GS_STATUS_LOCKED g) = 1 → stageCause s g = none → t.rd (Fld.GST_STATUS_STATE g) = 5) ∧
      (t.rd (Fld.GST_STATUS_STATE g) = 5 → rt = 0 → low = false → high = false →
        t.rd (Fld.GST_STATUS_RT_STATE g) = 0 ∧ wInt (t.reg (Reg.GST_REF g 0)) = refs.1 ∧ wInt (t.reg (Reg.GST_REF g 1)) = refs.2 ∧
        t.reg (Reg.GST_REF g 2) = 0#32 ∧ t.reg (Reg.GST_REF g 3) = 0#32 ∧
        t.rdB (Fld.GST_STATUS_LIMIT g) = !(decide (refs.1 = pDem) && decide (refs.2 = qDem))) ∧
      (t.rd (Fld.GST_STATUS_STATE g) = 5 → rt = 0 → low || high → t.rd (Fld.GST_EVENTS_RT_EV g) = 1 ∧
        t.rd (Fld.GST_STATUS_RT_STATE g) = (if low then (if cease then 2 else 1) else 3) ∧ (t.stage g).v1Pre = (s.stage g).v1Pre ∧
        (t.stage g).iqPre = (s.stage g).iqPre) ∧
      (t.rd (Fld.GST_STATUS_STATE g) = 5 → t.rd (Fld.GST_STATUS_RT_STATE g) = 2 → ∀ q, q < 4 → t.reg (Reg.GST_REF g q) = 0#32) ∧
      (∀ q, q < 4 → Tab.get 0#32 t.loop.ports (4 * g + q) = t.reg (Reg.GST_REF g q)) ∧
      Tab.get 0#32 t.loop.ports (56 + g) = s.reg (Reg.GS_V1 g) ∧
      (∀ h, h < 8 → h ≠ g.val → t.stage h = s.stage h) ∧ (∀ u, u < 9 → u ≠ g.val → t.unit u = s.unit u))

/-- R361 to R365, R370 to R372: A command of a tracker that takes no fault in the tick. START leads from OFF to WAIT with EN = 1, and else sets START_REF;
STOP leads to OFF from every state but FAULT; RESET_FAULT leads from FAULT to OFF once no other source is asserted on the pair; SCAN_NOW asks for a
scan in TRACK, and elsewhere sets SCAN_REF. Any other command changes nothing, and CMD reads 0. In OFF and WAIT the port carries V_MEAN. Where a fault
of STARTING to SCAN is found in the same tick, also REV by a step that is due, it wins and the command is discarded. The moments a tracker waits for. The start conditions held for
START_DELAY lead from WAIT to STARTING with the clear requested, dir -1 and K_START × V_MEAN on the port, or to FAULT (CLEAR) where the pair stays
tripped; P_MEAN ≤ P_STOP for 60 s leads from TRACK or LIMIT to WAIT; a scan that waits begins from TRACK and keeps V_REF and P_MEAN, and in another
state is skipped with SCAN_SKIP; the last frame tick of a scan takes V_BEST where P_BEST is at least P_before × (1 + SCAN_MARGIN), else V_before, and
leads to TRACK, where the first step only records. -/
def Obligations.Trackers : Prop :=
  (∀ (s : State) (i : Initiator) (k : Fin 24), Reaches s i (Reg.TRK_CTRL k) → mayWrite s i (Reg.TRK_CTRL k) = true →
    s.rd (Fld.TRK_CTRL_CMD k) = 0 →
    (s.rd (Fld.TRK_CFG_EN k) = 0 ∨ trkCause s k (stepComes s k) = none ∨ s.rd (Fld.TRK_STATUS_STATE k) ≤ 1 ∨ s.rd (Fld.TRK_STATUS_STATE k) = 7) →
    let st := s.rd (Fld.TRK_STATUS_STATE k)
    let en := s.rd (Fld.TRK_CFG_EN k) = 1
    let after : Nat → State → Prop := fun c t =>
      (c = 0 ∧ st = 0 → if en then TrackerIn k 1 t ∧ (t.trk k).delay = 0 else t.rd (Fld.TRK_EVENTS_START_REF k) = 1 ∧ t.rd (Fld.TRK_STATUS_STATE k) = 0) ∧
      (c = 1 ∧ st ≠ 7 ∧ st ≠ 0 → TrackerIn k 0 t) ∧
      (c = 2 ∧ st = 7 → if otherTrips s (2 ^ 26 + 2 ^ 28) (s.rd (Fld.TRK_CFG_PAIR k)) = 0 then TrackerIn k 0 t
        else t.rd (Fld.TRK_STATUS_STATE k) = 7) ∧
      (c = 3 → if st = 3 then (t.trk k).scanReq = true else t.rd (Fld.TRK_EVENTS_SCAN_REF k) = 1) ∧
      ((c = 0 ∧ st ≠ 0) ∨ (c = 1 ∧ (st = 0 ∨ st = 7)) ∨ (c = 2 ∧ st ≠ 7) ∨ c = 3 → t.rd (Fld.TRK_STATUS_STATE k) = st) ∧
      ((c = 0 ∧ st ≠ 0) ∨ (c = 1 ∧ (st = 0 ∨ st = 7)) ∨ (c = 2 ∧ st ≠ 7) → t.reg (Reg.TRK_EVENTS k) = s.reg (Reg.TRK_EVENTS k) ∧ t.trk k = s.trk k) ∧
      (en → t.rd (Fld.TRK_STATUS_STATE k) ≤ 1 → TrackerRefers k (wInt (s.reg (Reg.TRK_V_MEAN k))) t) ∧
      t.rd (Fld.TRK_CTRL_CMD k) = 0 ∧ TrackerFrame k { s with bus := ⟨0#32, .done, .ok⟩ } t
    Does (.trkStart i k) s (after 0) ∧ Does (.trkStop i k) s (after 1) ∧ Does (.trkResetFault i k) s (after 2) ∧ Does (.scanNow i k) s (after 3)) ∧
  (∀ (s : State) (i : Initiator) (k : Fin 24) (cause : Nat), Reaches s i (Reg.TRK_CTRL k) → mayWrite s i (Reg.TRK_CTRL k) = true →
    s.rd (Fld.TRK_CFG_EN k) = 1 → 2 ≤ s.rd (Fld.TRK_STATUS_STATE k) → s.rd (Fld.TRK_STATUS_STATE k) ≤ 6 → trkCause s k (stepComes s k) = some cause →
    let faulted : State → Prop := fun t =>
      TrackerFaulted k cause t ∧ (t.trk k).scan = none ∧ t.reg (Reg.TRK_V_REF k) = s.reg (Reg.TRK_V_REF k) ∧
      TrackerFrame k { s with bus := ⟨0#32, .done, .ok⟩ } t
    Does (.trkStart i k) s faulted ∧ Does (.trkStop i k) s faulted ∧ Does (.trkResetFault i k) s faulted ∧ Does (.scanNow i k) s faulted) ∧
  (∀ (s : State) (k : Fin 24), s.rd (Fld.TRK_CFG_EN k) = 1 → s.bit Fld.DOM_STATUS_ON 14 = true → s.rd (Fld.TRK_STATUS_STATE k) = 1 →
    startOk s k = true → s.rd (Fld.TRK_WIN_START_DELAY k) * 50000 ≤ (s.trk k).delay →
    Does (.trkStartDelayEnd k) s fun t =>
      (if t.rd (Fld.PWM_STATUS_STATE (s.rd (Fld.TRK_CFG_PAIR k))) = 3 then TrackerFaulted k 5 t
       else TrackerIn k 2 t ∧ (t.trk k).slotInit = true ∧
        TrackerRefers k (sat32 (mulPu (s.rdI (Fld.TRK_K_START k)) (s.rdI (Fld.TRK_V_MEAN k)))) t) ∧
      (t.trk k).dir = -1 ∧ t.rd (Fld.TRK_STATUS_DIR k) = 2 ∧ TrackerFrame k s t) ∧
  (∀ (s : State) (k : Fin 24) (n : Nat), s.rd (Fld.TRK_CFG_EN k) = 1 → s.bit Fld.DOM_STATUS_ON 14 = true →
    (s.rd (Fld.TRK_STATUS_STATE k) = 3 ∨ s.rd (Fld.TRK_STATUS_STATE k) = 4) → (s.trk k).dusk = some n → 60 * 50000 ≤ n →
    Does (.trkDuskStop k) s fun t =>
      TrackerIn k 1 t ∧ t.rd (Fld.TRK_STATUS_LAST_CAUSE k) = s.rd (Fld.TRK_STATUS_LAST_CAUSE k) ∧ (t.trk k).delay = 0 ∧ (t.trk k).scan = none ∧
      TrackerRefers k (wInt (s.reg (Reg.TRK_V_MEAN k))) t ∧ TrackerFrame k s t) ∧
  (∀ (s : State) (k : Fin 24), s.rd (Fld.TRK_CFG_EN k) = 1 → s.bit Fld.DOM_STATUS_ON 14 = true → s.rd Fld.SCHED_CFG_TICK_RUN = 1 →
    (s.trk k).scanSeen = false →
    ((s.trk k).scanReq = true ∨ (s.rd (Fld.TRK_SCAN_SCAN_PERIOD k) ≠ 0 ∧ s.fn % 50000 = 0 ∧
      s.fn / 50000 % s.rd (Fld.TRK_SCAN_SCAN_PERIOD k) = s.rd (Fld.TRK_SCAN_SCAN_OFS k) % s.rd (Fld.TRK_SCAN_SCAN_PERIOD k))) →
    Does (.scanStart k) s fun t =>
      (if s.rd (Fld.TRK_STATUS_STATE k) = 3 then TrackerIn k 6 t ∧ (t.trk k).stepSeen = true ∧
          (t.trk k).scan = some ⟨s.rdI (Fld.TRK_V_REF k), s.rdI (Fld.TRK_P_MEAN k), 0, none⟩
       else t.rd (Fld.TRK_EVENTS_SCAN_SKIP k) = 1 ∧ t.reg (Reg.TRK_STATUS k) = s.reg (Reg.TRK_STATUS k) ∧
          t.trk k = { s.trk k with scanSeen := true } ∧ Logged 0x14 5 (k + s.rd (Fld.TRK_STATUS_STATE k) * 256) s t) ∧
      TrackerFrame k s t) ∧
  (∀ (s : State) (k : Fin 24) (p v vb pb : Int) (n : Nat), s.rd (Fld.TRK_STATUS_STATE k) = 6 →
    (s.trk k).scan = some ⟨vb, pb, n, some (p, v)⟩ → 500 * max 1 (s.rd (Fld.TRK_WIN_SCAN_TIME k)) ≤ n →
    let best := wInt (intW v)
    Does (.scanDone k) s fun t =>
      TrackerIn k 3 t ∧ t.reg (Reg.TRK_V_BEST k) = intW v ∧ t.reg (Reg.TRK_P_BEST k) = intW p ∧
      TrackerRefers k (if pb * (1000 + s.rd (Fld.TRK_WIN_SCAN_MARGIN k)) ≤ p * 1000 then best else vb) t ∧
      (t.trk k).record = true ∧ (t.trk k).scan = none ∧ t.rd (Fld.TRK_EVENTS_SCAN_DONE k) = 1 ∧
      t.rd (Fld.TRK_COUNT_SCANS k) = min (s.rd (Fld.TRK_COUNT_SCANS k) + 1) 0xFFFF ∧ TrackerFrame k s t)

/-- R359, R360, R366, R367: a due step. The means of the window are formed; with fewer than half of its ticks usable the step is skipped: SKIPPED counts,
V_REF, the direction and the previous values stand, and the eighth in a row sets STALE. Else, in TRACK or LIMIT, the step after a start, a scan or
CURTAIL only records; any other follows the rule: above P_LIM the tracker is in LIMIT and moves up, within the band it holds, else it is in TRACK and
moves by perturb and observe or by incremental conductance, by K_ADAPT times the slope within STEP_MIN and STEP_MAX, and turns round at V_MAX and
V_MIN with BOUND. -/
def Obligations.TrackerStep : Prop :=
  ∀ (s : State) (k : Fin 24), s.rd (Fld.TRK_CFG_EN k) = 1 → s.bit Fld.DOM_STATUS_ON 14 = true → s.rd Fld.SCHED_CFG_TICK_RUN = 1 →
    (s.trk k).stepSeen = false → (s.rd (Fld.TRK_STATUS_STATE k) = 3 ∨ s.rd (Fld.TRK_STATUS_STATE k) = 4) →
    (scanWaits s k = false ∨ s.rd (Fld.TRK_STATUS_STATE k) = 4) →
    s.fn % max 50 (s.rd (Fld.TRK_TIMING_STEP_FRAMES k)) = s.rd (Fld.TRK_TIMING_STEP_PHASE k) % max 50 (s.rd (Fld.TRK_TIMING_STEP_FRAMES k)) →
    let w := windowSum ((s.trk k).frames.take (min (max 1 (s.rd (Fld.TRK_WIN_AVG_FRAMES k))) (max 50 (s.rd (Fld.TRK_TIMING_STEP_FRAMES k)))))
    w.n ≠ 0 →
    let v := wInt (intW (roundDiv w.v w.n))
    let i := wInt (intW (roundDiv w.i w.n))
    let p := wInt (intW (roundDiv w.p w.n))
    0 ≤ i + s.rdI (Fld.TRK_I_REV k) →
    let q := s.trk k
    let dv := v - q.vPrev
    let di := i - q.iPrev
    let dp := p - q.pPrev
    let db := s.rdI (Fld.TRK_DB k)
    let est := sat40 (i + sat40 (quotient (sat40 (mulPu v di) * 2 ^ 30) dv))
    let sgn := fun x : Int => if (x.natAbs : Int) ≤ db then (0 : Int) else if x = 0 then 0 else if 0 < x then 1 else -1
    let lim := s.rdI (Fld.TRK_P_LIM k)
    let st := if lim < p then 4 else if lim - s.rdI (Fld.TRK_P_BAND k) ≤ p ∧ s.rd (Fld.TRK_STATUS_STATE k) = 4 then 4 else 3
    let move := if lim < p then (1, slopeOf dp dv) else if st = 4 then (0, 0)
      else if s.rd (Fld.TRK_CFG_ALG k) = 0 then
        (if (dp.natAbs : Int) ≤ db then (if q.dir = 0 then -1 else q.dir, 0)
         else (if (if dp < 0 then -q.dir else q.dir) = 0 then -1 else if dp < 0 then -q.dir else q.dir, slopeOf dp dv))
      else if dv.natAbs < 2 ^ 14 then (sgn di, (di.natAbs : Int)) else (sgn est, (est.natAbs : Int))
    let size := clampInt (s.rdI (Fld.TRK_STEP_MIN k)) (s.rdI (Fld.TRK_STEP_MAX k)) (sat40 (mulCf move.2 (s.rdI (Fld.TRK_K_ADAPT k))))
    let aim := sat40 (s.rdI (Fld.TRK_V_REF k) + move.1 * size)
    let hi := s.rdI (Fld.TRK_V_MAX k)
    let lo := s.rdI (Fld.TRK_V_MIN k)
    let moves := !q.record && decide (w.ticks ≤ 2 * w.n)
    Does (.trackStep k) s fun t =>
      t.rdI (Fld.TRK_V_MEAN k) = v ∧ t.rdI (Fld.TRK_I_MEAN k) = i ∧ t.rdI (Fld.TRK_P_MEAN k) = p ∧ (t.trk k).stepSeen = true ∧
      (2 * w.n < w.ticks → t.rd (Fld.TRK_COUNT_SKIPPED k) = min (s.rd (Fld.TRK_COUNT_SKIPPED k) + 1) 0xFFFF ∧ (t.trk k).skips = q.skips + 1 ∧
        t.rd (Fld.TRK_STATUS_STALE k) = (if q.skips = 7 then 1 else s.rd (Fld.TRK_STATUS_STALE k)) ∧
        (t.trk k).vPrev = q.vPrev ∧ (t.trk k).iPrev = q.iPrev ∧ (t.trk k).pPrev = q.pPrev ∧ (t.trk k).record = q.record) ∧
      (w.ticks ≤ 2 * w.n → t.rd (Fld.TRK_STATUS_STALE k) = 0 ∧ (t.trk k).skips = 0 ∧
        (t.trk k).vPrev = v ∧ (t.trk k).iPrev = i ∧ (t.trk k).pPrev = p ∧ (t.trk k).record = false) ∧
      (moves = false → t.rd (Fld.TRK_STATUS_STATE k) = s.rd (Fld.TRK_STATUS_STATE k) ∧ TrackerRefers k (s.rdI (Fld.TRK_V_REF k)) t ∧
        (t.trk k).dir = q.dir) ∧
      (moves = true → t.rd (Fld.TRK_STATUS_STATE k) = st ∧
        TrackerRefers k (if hi ≤ aim then hi else if aim ≤ lo then lo else sat32 aim) t ∧
        (t.trk k).dir = (if hi ≤ aim then -1 else if aim ≤ lo then 1 else move.1) ∧
        t.rdB (Fld.TRK_STATUS_BOUND k) = (decide (hi ≤ aim) || decide (aim ≤ lo))) ∧
      TrackerFrame k s t

/-- R378 to R382, R385, R388, R390, R392, R394, R396, R402: an anchor publishes a phasor cell on every UP group at its publication frames, with SEQ
counted on, whatever EN is. A rise of BRK_OPEN or GRID_DEAD at an anchor asks for 3 breaker cells and acts as its own direct transfer trip. The first
copy of a cell of a bound anchor waits for the frame tick; other cells and copies are ignored. An anchor without a cell for 3 × PUB_FRAMES + MAX_AGE
frames becomes SILENT. In FALLBACK the ROCOF criterion held for ROCOF_T (cause 5), and the frequency outside the window for AFD_T with AFD_ON (cause
7), each bring a disconnect into force, the lower code first; a cause that applies while a disconnect is in force is logged once. FORCE_DISC and RELEASE wait in CMD for the frame tick, and are ignored in
MODE OFF; there FORCE_DISC brings a disconnect into force, with OP_FORCED until a RELEASE is taken. DISC falls, with RELEASE_EV, once the release
conditions have held for CLR_DELAY. -/
def Obligations.Islanding : Prop :=
  (∀ (s : State),
    let due := s.rdB Fld.CS_ROLE_ROLE_IN_FORCE && s.rdB Fld.ISL_CFG_PUB && s.rdB Fld.SCHED_CFG_TICK_RUN &&
      decide (s.fn % pubFrames s = s.rd Fld.ISL_MAP_PUB_PHASE % pubFrames s)
    let seq := (s.rd Fld.ISL_PUB_SEQ + 1) % 256
    let sent : AncCell := ⟨nodeNo s, s.rdB Fld.ISL_PUB_BRK_OPEN, s.rdB Fld.ISL_PUB_GRID_DEAD, s.unsynced, false, seq, s.fn, s.rd (Fld.GS_FT_ANGLE 8),
      s.rd (Fld.GS_FT_V1 8), s.rd (Fld.GS_FT_FREQ 8), s.rd (Fld.GS_ROCOF 8)⟩
    Does .phasorPublish s fun t =>
      (due = true → t.rd Fld.ISL_PUB_SEQ = seq ∧ t.rd Fld.ISL_PUB_PUB_SENT = min (s.rd Fld.ISL_PUB_PUB_SENT + 1) 0xFFFF ∧
        (∀ g, g < 4 → if (upGroups s).contains g then Queues (.anchor (ancBytes sent)) g s t else t.cq g = s.cq g)) ∧
      (due = false → t = { s with cycle := s.cycle + 1 }) ∧
      t = { s with cycle := s.cycle + 1, regs := t.regs, log := t.log, ctl := t.ctl } ∧
      RegsKeptBut (fun a => cellReg a || decide (a = Reg.ISL_PUB)) s t) ∧
  (∀ (s : State), s.rd Fld.CS_ROLE_ROLE_IN_FORCE = 0 ∨ s.rd Fld.SCHED_CFG_TICK_RUN = 0 → Does .breakerChange s fun t => t = { s with cycle := s.cycle + 1 }) ∧
  (∀ (s : State), s.rd Fld.CS_ROLE_ROLE_IN_FORCE = 1 → s.rd Fld.SCHED_CFG_TICK_RUN = 1 →
    let open' := !s.bit Fld.SIN_RUN (s.rd Fld.ISL_MAP_BRK_IN)
    let dead := decide (s.rd (Fld.GS_STATUS_LOCKED 8) = 0) || decide (s.rdI (Fld.GS_FT_V1 8) < 2 ^ 29)
    let opens := open' && !s.rdB Fld.ISL_PUB_BRK_OPEN
    let rises := opens || (dead && !s.rdB Fld.ISL_PUB_GRID_DEAD)
    Does .breakerChange s fun t =>
      t.rdB Fld.ISL_PUB_BRK_OPEN = open' ∧ t.rdB Fld.ISL_PUB_GRID_DEAD = dead ∧
      t.isl.brkLeft = (if rises then 3 else s.isl.brkLeft) ∧
      (rises = true → s.rd Fld.ISL_STATUS_MODE ≠ 0 → t.rd Fld.ISL_STATUS_DISC = 1 ∧ (s.rd Fld.ISL_STATUS_DISC = 0 →
        t.rd Fld.ISL_STATUS_LAST_CAUSE = (if opens then 1 else 2) ∧ t.rd Fld.ISL_EVENTS_DISC_EV = 1)) ∧
      (rises = false ∨ s.rd Fld.ISL_STATUS_MODE = 0 → t.reg Reg.ISL_STATUS = s.reg Reg.ISL_STATUS ∧ t.reg Reg.ISL_EVENTS = s.reg Reg.ISL_EVENTS) ∧
      t = { s with cycle := s.cycle + 1, regs := t.regs, log := t.log,
                   isl := { s.isl with brkLeft := t.isl.brkLeft, causes := t.isl.causes, clear := t.isl.clear } } ∧
      RegsKept [Reg.ISL_PUB, Reg.ISL_STATUS, Reg.ISL_EVENTS, Reg.LOG_STATUS] s t) ∧
  (∀ (s : State) (c : AncCell) (a : Fin 2), s.rd Fld.ISL_CFG_EN = 1 →
    (if a = 0 then s.rd Fld.ISL_CFG_ANC0_EN = 1 ∧ s.rd Fld.ISL_ANC_ANC0_ID = c.ancId
     else s.rd Fld.ISL_CFG_ANC1_EN = 1 ∧ s.rd Fld.ISL_ANC_ANC1_ID = c.ancId ∧ s.rd Fld.ISL_CFG_ANC0_EN = 0) →
    Does (.anchorCellRx c) s fun t =>
      (if (s.anc a).seen.contains (c.fn, c.dtt) then t.isl = s.isl
       else t.isl.cells.map (fun x => (x.anchor, x.cell, x.age)) = s.isl.cells.map (fun x => (x.anchor, x.cell, x.age)) ++ [(a.val, c, fnDiff s.fn c.fn)] ∧
        (t.anc a).seen.contains (c.fn, c.dtt) = true) ∧
      t = { s with cycle := s.cycle + 1, isl := { s.isl with cells := t.isl.cells, anchors := t.isl.anchors } }) ∧
  (∀ (s : State) (c : AncCell), s.rd Fld.ISL_CFG_EN = 0 ∨
    ((s.rd Fld.ISL_CFG_ANC0_EN = 0 ∨ s.rd Fld.ISL_ANC_ANC0_ID ≠ c.ancId) ∧ (s.rd Fld.ISL_CFG_ANC1_EN = 0 ∨ s.rd Fld.ISL_ANC_ANC1_ID ≠ c.ancId)) →
    Does (.anchorCellRx c) s fun t => t = { s with cycle := s.cycle + 1 }) ∧
  (∀ (s : State) (a : Fin 2),
    let due := decide (s.rd Fld.ISL_STATUS_MODE ≠ 0) && bound s a && !(s.anc a).silent &&
      decide (3 * max 1 (s.rd Fld.ISL_CFG_PUB_FRAMES) + max 1 (s.rd Fld.ISL_TIME_MAX_AGE) ≤ fnDiff s.fn (s.anc a).cellAt)
    Does (.ancSilent a) s fun t =>
      (due = true → t.rd (Fld.ISL_ANC_ST_STATE a) = 1 ∧ (t.anc a).silent = true ∧ (t.anc a).armed = false ∧ t.rd Fld.ISL_EVENTS_SILENT_EV = 1 ∧
        Logged 0x15 5 a s t ∧ (∀ b, b < 2 → b ≠ a.val → t.anc b = s.anc b)) ∧
      (due = false → t = { s with cycle := s.cycle + 1 }) ∧
      t = { s with cycle := s.cycle + 1, regs := t.regs, log := t.log, isl := { s.isl with anchors := t.isl.anchors } } ∧
      RegsKept [Reg.ISL_ANC_ST a, Reg.ISL_EVENTS, Reg.LOG_STATUS] s t) ∧
  (∀ (s : State),
    let due := s.rdB Fld.ISL_CFG_ROCOF_EN && decide (s.rd Fld.ISL_STATUS_MODE = 1) && decide (max 1 (50 * s.rd Fld.ISL_FB_TIME_ROCOF_T) ≤ s.isl.rocof) &&
      !(s.isl.causes.testBit 5 && s.rdB Fld.ISL_STATUS_DISC)
    Does .rocofCriterion s fun t =>
      (due = true → DisconnectActs 5 0 s t ∧ t.isl.causes.testBit 5 = true) ∧ (due = false → t = { s with cycle := s.cycle + 1 }) ∧
      t = { s with cycle := s.cycle + 1, regs := t.regs, log := t.log, isl := { s.isl with causes := t.isl.causes, clear := t.isl.clear } } ∧
      RegsKept [Reg.ISL_STATUS, Reg.ISL_EVENTS, Reg.LOG_STATUS] s t) ∧
  (∀ (s : State),
    let rocof := s.rdB Fld.ISL_CFG_ROCOF_EN && decide (max 1 (50 * s.rd Fld.ISL_FB_TIME_ROCOF_T) ≤ s.isl.rocof)
    let due := s.rdB Fld.ISL_STATUS_AFD_ON && decide (s.rd Fld.ISL_STATUS_MODE = 1) && decide (max 1 (50 * s.rd Fld.ISL_FB_TIME_AFD_T) ≤ s.isl.afd)
    let known := s.isl.causes.testBit 7 && s.rdB Fld.ISL_STATUS_DISC
    Does .afdCriterion s fun t =>
      (due = true → rocof = false → known = false → DisconnectActs 7 0 s t ∧ t.isl.causes.testBit 7 = true) ∧
      (due = true → rocof = true → t.rd Fld.ISL_STATUS_DISC = 1 ∧ t.isl.causes.testBit 5 = true ∧ t.isl.causes.testBit 7 = true ∧
        t.rd Fld.ISL_STATUS_LAST_CAUSE = (if s.rd Fld.ISL_STATUS_DISC = 0 then 5 else s.rd Fld.ISL_STATUS_LAST_CAUSE)) ∧
      (due = false ∨ (rocof = false ∧ known = true) → t = { s with cycle := s.cycle + 1 }) ∧
      t = { s with cycle := s.cycle + 1, regs := t.regs, log := t.log, isl := { s.isl with causes := t.isl.causes, clear := t.isl.clear } } ∧
      RegsKept [Reg.ISL_STATUS, Reg.ISL_EVENTS, Reg.LOG_STATUS] s t) ∧
  (∀ (s : State) (i : Initiator), Reaches s i Reg.ISL_CTRL → mayWrite s i Reg.ISL_CTRL = true →
    let waits : Nat → State → Prop := fun cmd t =>
      t.rd Fld.ISL_CTRL_CMD = (if s.rd Fld.ISL_STATUS_MODE = 0 then s.rd Fld.ISL_CTRL_CMD else cmd) ∧
      t = { s with cycle := s.cycle + 1, regs := t.regs, bus := ⟨0#32, .done, .ok⟩ } ∧
      BitsKept Reg.ISL_CTRL [Fld.ISL_CTRL_CMD] s t ∧ RegsKept [Reg.ISL_CTRL] s t
    Does (.forceDisc i) s (waits 1) ∧ Does (.release i) s (waits 2)) ∧
  (∀ (s : State) (sinA sinB : BitVec 32) (srb : BitVec 16) (ack : Bool), s.mainOn = true → ticksRun s = true → s.rd Fld.ISL_STATUS_MODE ≠ 0 →
    Does (.frameTick sinA sinB srb ack) s fun t =>
      t.rd Fld.ISL_STATUS_MODE ≠ 0 →
        (s.rd Fld.ISL_CTRL_CMD = 1 → t.rd Fld.ISL_STATUS_OP_FORCED = 1 ∧ t.rd Fld.ISL_STATUS_DISC = 1 ∧ t.isl.clear = 0 ∧ t.rd Fld.ISL_CTRL_CMD = 0) ∧
        (s.rd Fld.ISL_CTRL_CMD = 2 → t.rd Fld.ISL_STATUS_OP_FORCED = 0 ∧ t.rd Fld.ISL_CTRL_CMD = 0)) ∧
  (∀ (s : State),
    let due := s.rdB Fld.ISL_STATUS_DISC && decide (s.rd Fld.ISL_STATUS_MODE ≠ 0) && decide (5000 * max 1 (s.rd Fld.ISL_TIME_CLR_DELAY) ≤ s.isl.clear)
    Does .islRelease s fun t =>
      (due = true → t.rd Fld.ISL_STATUS_DISC = 0 ∧ t.rd Fld.ISL_EVENTS_RELEASE_EV = 1 ∧ Logged 0x15 2 (s.rd Fld.ISL_STATUS_LAST_CAUSE) s t ∧
        BitsKept Reg.ISL_STATUS [Fld.ISL_STATUS_DISC] s t) ∧
      (due = false → t = { s with cycle := s.cycle + 1 }) ∧
      t = { s with cycle := s.cycle + 1, regs := t.regs, log := t.log } ∧ RegsKept [Reg.ISL_STATUS, Reg.ISL_EVENTS, Reg.LOG_STATUS] s t)

/-- R407, R408, R412, R416, R418, R421, R427, R434: at a period boundary that is due (R31) the pending values of a pair become active unless its transfers
are held, LEN is the length of the period that begins and ON the duty limited to 0 to 1.0, times it, in fine steps, rounded. An ARMED or held pair
goes on to RUN, or to the hold while a cycle-by-cycle line is asserted, unless a latching source trips it; a TRIPPED pair stays. Both outputs are low
outside RUN, and a pair that starts waits for its dead time. The ADC entries that follow an event of the pair see the new period; without a due
boundary or a running counter nothing happens. The maps measured since for its two delay lines are installed (R410). -/
def Obligations.PwmPeriod : Prop :=
  (∀ (s : State) (p : Fin 72) (k : Nat), s.rd (Fld.PWM_CFG_EN p) = 1 → s.bit Fld.DOM_STATUS_ON 14 = true → s.rd Fld.CLK_STATUS_CTRL_LOCK = 1 →
    s.rd Fld.SCHED_CFG_TICK_RUN = 1 → s.time.baseLost = false → boundaryIndex s p = some k →
    let act := if s.mapBit Fld.PWM_HOLD p && !s.rdB (Fld.PWM_CFG_SLOT_DRV p) then Tab.get zeroAct s.pwm.act p
      else ⟨s.rd (Fld.PWM_DUTY p), s.rd (Fld.PWM_PER_PER p), s.rd (Fld.PWM_DT_DT_RISE p), s.rd (Fld.PWM_DT_DT_FALL p),
        [s.rd (Fld.PWM_CMP p 0), s.rd (Fld.PWM_CMP p 1), s.rd (Fld.PWM_CMP p 2), s.rd (Fld.PWM_CMP p 3)]⟩
    let m := s.rd (Fld.PWM_CFG_FACTOR p) + 1
    let len := if s.rd (Fld.PWM_CFG_TLOCK p) = 0 then max 400 act.per
      else if s.rd (Fld.PWM_CFG_DIVMODE p) = 0 then 8000 * m else (k % m + 1) * 8000 / m - (k % m) * 8000 / m
    let duty := (min (max (BitVec.ofNat 32 act.duty).toInt 0) (2 ^ 30)).toNat
    let st := s.rd (Fld.PWM_STATUS_STATE p)
    Does (.periodBoundary p) s fun t =>
      Tab.get zeroAct t.pwm.act p = act ∧ Tab.get 0 t.pwm.index p = k + 1 ∧ hasBit t.pwm.begun p = true ∧
      (∀ j, j < 144 → Tab.get [] t.pwm.map j = (if j / 2 = p.val then (Tab.get none s.pwm.newMap j).getD (Tab.get [] s.pwm.map j) else Tab.get [] s.pwm.map j) ∧
        Tab.get none t.pwm.newMap j = (if j / 2 = p.val then none else Tab.get none s.pwm.newMap j)) ∧
      t.rd (Fld.PWM_ACT_PER_LEN p) = len % 2 ^ 20 ∧ t.rd (Fld.PWM_ACT_ON_ON p) = (2 * (duty * len * 32) + 2 ^ 30) / 2 ^ 31 % 2 ^ 25 ∧
      (st = 3 → t.rd (Fld.PWM_STATUS_STATE p) = 3) ∧
      (st = 1 ∨ st = 2 ∨ st = 4 → t.rd (Fld.PWM_STATUS_STATE p) =
        (if tripLive 0 t p &&& latchingMask t p ≠ 0 then 3 else if tripLive 0 t p &&& cycleMask t p ≠ 0 then 2 else 1)) ∧
      (st = 4 → t.mapBit Fld.PWM_TRIPPED p = decide (t.rd (Fld.PWM_STATUS_STATE p) = 3)) ∧
      (t.rd (Fld.PWM_STATUS_STATE p) ≠ 1 → t.rd (Fld.PWM_STATUS_OUT_H p) = 0 ∧ t.rd (Fld.PWM_STATUS_OUT_L p) = 0 ∧ Tab.get lowWave t.pwm.wave p = lowWave) ∧
      (st ≠ 1 → 0 < act.dtRise → t.rd (Fld.PWM_STATUS_OUT_H p) = 0) ∧ (st ≠ 1 → 0 < act.dtFall → t.rd (Fld.PWM_STATUS_OUT_L p) = 0) ∧
      (∀ c, c < 40 → (s.core c).due = [] → entriesWith s c (fun e => s.rd (Fld.ADC_ENTRY_A_TRIG c e) == 1 && s.rd (Fld.ADC_ENTRY_A_PAIR c e) == p.val) = [] →
        (t.core c).due = []) ∧
      (∀ q, q < 72 → q ≠ p.val → Tab.get zeroAct t.pwm.act q = Tab.get zeroAct s.pwm.act q ∧ Tab.get lowWave t.pwm.wave q = Tab.get lowWave s.pwm.wave q ∧
        Tab.get 0 t.pwm.index q = Tab.get 0 s.pwm.index q) ∧
      t = { s with cycle := s.cycle + 1, regs := t.regs, log := t.log, perf := t.perf, out := t.out,
                   adc := t.adc, pwm := { s.pwm with act := t.pwm.act, wave := t.pwm.wave, index := t.pwm.index, begun := t.pwm.begun,
                                                     stretch := t.pwm.stretch, span := t.pwm.span, before := t.pwm.before,
                                                     map := t.pwm.map, newMap := t.pwm.newMap } } ∧
      RegsKeptBut (fun a => tripReg a || [Reg.PWM_ACT_ON p, Reg.PWM_ACT_PER p, Reg.PWM_CAL, Reg.WIN_LATCH_HI, Reg.WIN_LATCH_LO].contains a) s t) ∧
  (∀ (s : State) (p : Fin 72), boundaryIndex s p = none ∨ counterRuns s p = false →
    Does (.periodBoundary p) s fun t => t = { s with cycle := s.cycle + 1 })

/-- R410, R411, R420 to R423, R426, R428, R436, R437: trips, holds, clears and forces of the pairs. An event with the pulse sources RAIL_FAULT and
LOOP_STALE of a pair, a cycle-by-cycle hold, a write of PWM_FORCE and the loss of the base clock each end with the pairs settled on their sources. The
loss of the clock also stops every counter, and with it the events of the periods. A clear request takes a TRIPPED pair without a latching source to ARMED with TRIP_SRC at 0, and of one with a source it sets TRIP_CLR_REFUSED; other
pairs stay. In the steady round a frame measures the line FN48 modulo 144, once; its map waits for the line's next boundary, and a line that fails
has none and sets CAL_EV of its pair. The first round after the control PLL locks measures every line, takes 29 frames, sets CAL_DONE, and ends the
source INIT where the PWM section is loaded. -/
def Obligations.PwmTripsAndCalibration : Prop :=
  (∀ (s : State) (p : Fin 72) (railFault loopStale : Bool),
    Does (.pwmTrip p railFault loopStale) s fun t =>
      (∀ q, q < 72 → PairSettled (if q = p then (if railFault then 2 ^ 22 else 0) + (if loopStale then 2 ^ 25 else 0) else 0) q s t ∧ LatchSettled q s t) ∧
      t = { s with cycle := s.cycle + 1, regs := t.regs, log := t.log, perf := t.perf, out := t.out } ∧ RegsKeptBut tripReg s t) ∧
  (∀ (s : State) (p : Fin 72),
    Does (.cycleHold p) s fun t =>
      PairSettled 0 p s t ∧ t = { s with cycle := s.cycle + 1, regs := t.regs, perf := t.perf, out := t.out } ∧
      RegsKept [Reg.PWM_STATUS p, Reg.PWM_TRIP_SRC p, Reg.PWM_EVENTS p, Reg.PWM_COUNT p, Reg.PWM_TRIPPED 0, Reg.PWM_TRIPPED 1, Reg.PWM_TRIPPED 2] s t) ∧
  (∀ (s : State) (i : Initiator) (w : Fin 3) (v : Word), Reaches s i (Reg.PWM_CLR w) → mayWrite s i (Reg.PWM_CLR w) = true →
    Does (.pwmClr i w v) s fun t =>
      (∀ p, p < 72 →
        if p / 32 = w ∧ v.getLsbD (p % 32) = true ∧ s.rd (Fld.PWM_STATUS_STATE p) = 3 then
          (if tripLive 0 s p &&& latchingMask s p = 0 then t.rd (Fld.PWM_STATUS_STATE p) = 4 ∧ t.rd (Fld.PWM_TRIP_SRC p) = 0 ∧
              t.rd (Fld.PWM_STATUS_FIRST_SRC p) = s.rd (Fld.PWM_STATUS_FIRST_SRC p) ∧ t.reg (Reg.PWM_EVENTS p) = s.reg (Reg.PWM_EVENTS p)
            else t.rd (Fld.PWM_EVENTS_TRIP_CLR_REFUSED p) = 1 ∧ t.reg (Reg.PWM_STATUS p) = s.reg (Reg.PWM_STATUS p) ∧
              t.reg (Reg.PWM_TRIP_SRC p) = s.reg (Reg.PWM_TRIP_SRC p))
        else t.reg (Reg.PWM_STATUS p) = s.reg (Reg.PWM_STATUS p) ∧ t.reg (Reg.PWM_TRIP_SRC p) = s.reg (Reg.PWM_TRIP_SRC p) ∧
          t.reg (Reg.PWM_EVENTS p) = s.reg (Reg.PWM_EVENTS p)) ∧
      t.bus = ⟨0#32, .done, .ok⟩ ∧ t = { s with cycle := s.cycle + 1, regs := t.regs, log := t.log, bus := t.bus } ∧
      RegsKeptBut (fun a => decide (a = Reg.LOG_STATUS) || inArray (Reg.PWM_STATUS 0) 0x80 72 a || inArray (Reg.PWM_TRIP_SRC 0) 0x80 72 a ||
        inArray (Reg.PWM_EVENTS 0) 0x80 72 a) s t) ∧
  (∀ (s : State) (i : Initiator) (w : Fin 3) (v : Word), Reaches s i (Reg.PWM_FORCE w) → mayWrite s i (Reg.PWM_FORCE w) = true →
    Does (.pwmForce i w v) s fun t =>
      t.reg (Reg.PWM_FORCE w) = (if w = 2 then v &&& 0xFF#32 else v) ∧ AllSettled s t ∧ t.bus = ⟨0#32, .done, .ok⟩ ∧
      t = { s with cycle := s.cycle + 1, regs := t.regs, log := t.log, perf := t.perf, out := t.out, bus := t.bus } ∧
      RegsKeptBut (fun a => tripReg a || decide (a = Reg.PWM_FORCE w)) s t) ∧
  (∀ (s : State),
    Does .baseClockLoss s fun t =>
      (∀ p, p < 72 → s.rd (Fld.PWM_STATUS_STATE p) = 1 ∨ s.rd (Fld.PWM_STATUS_STATE p) = 2 ∨ s.rd (Fld.PWM_STATUS_STATE p) = 4 →
        t.rd (Fld.PWM_STATUS_STATE p) = 3 ∧ hasBit (t.rd (Fld.PWM_TRIP_SRC p)) 17 = true ∧ t.rd (Fld.PWM_STATUS_OUT_H p) = 0 ∧
        t.rd (Fld.PWM_STATUS_OUT_L p) = 0) ∧
      AllSettled s t ∧ t.time = { s.time with baseLost := true } ∧
      (∀ c, c < 40 → ∀ d ∈ (t.core c).due, s.rd (Fld.ADC_ENTRY_A_PAIR c d.1.entry) < 72 → s.rd (Fld.ADC_ENTRY_A_TRIG c d.1.entry) ≠ 1) ∧
      t = { s with cycle := s.cycle + 1, regs := t.regs, log := t.log, perf := t.perf, out := t.out, time := t.time, adc := t.adc,
                   pwm := { s.pwm with begun := 0, span := [], before := [] } } ∧ RegsKeptBut tripReg s t) ∧
  (∀ (s : State) (m : Option (List (Fin 48))), s.rd Fld.CLK_STATUS_CTRL_LOCK = 1 → s.rd Fld.PWM_CAL_CAL_DONE = 1 → s.pwm.calSeen = false →
    let line := s.fn % 144
    Does (.lineCalibration m) s fun t =>
      (∀ j, j < 144 → hasBit t.pwm.calBad j = (if j = line then m.isNone else hasBit s.pwm.calBad j) ∧
        Tab.get none t.pwm.newMap j = (if j = line ∧ m ≠ none then m else Tab.get none s.pwm.newMap j)) ∧
      (m = none → t.rd (Fld.PWM_EVENTS_CAL_EV (line / 2)) = 1) ∧
      t = { s with cycle := s.cycle + 1, regs := t.regs, log := t.log, pwm := { s.pwm with calBad := t.pwm.calBad, newMap := t.pwm.newMap, calSeen := true } } ∧
      (m ≠ none → t.regs = s.regs ∧ t.log = s.log) ∧ RegsKept [Reg.PWM_EVENTS (line / 2), Reg.LOG_STATUS] s t) ∧
  (∀ (s : State) (m : Option (List (Fin 48))), s.rd Fld.CLK_STATUS_CTRL_LOCK = 0 ∨ s.rd Fld.PWM_CAL_CAL_DONE = 0 ∨ s.pwm.calSeen = true →
    Does (.lineCalibration m) s fun t => t = { s with cycle := s.cycle + 1 }) ∧
  (∀ (s : State) (maps : List (Option (List (Fin 48)))), s.rd Fld.CLK_STATUS_CTRL_LOCK = 1 → s.rd Fld.PWM_CAL_CAL_DONE = 0 → 29 ≤ s.pwm.calFrames →
    Does (.calDone maps) s fun t =>
      t.rd Fld.PWM_CAL_CAL_DONE = 1 ∧ t.pwm.initSrc = (s.pwm.initSrc && !s.pwm.loaded) ∧
      (∀ j, j < 144 → hasBit t.pwm.calBad j = (maps.getD j none).isNone ∧
        Tab.get none t.pwm.newMap j = (if maps.getD j none = none then Tab.get none s.pwm.newMap j else maps.getD j none)) ∧
      (∀ p, p < 72 → maps.getD (2 * p) none = none ∨ maps.getD (2 * p + 1) none = none → t.rd (Fld.PWM_EVENTS_CAL_EV p) = 1) ∧
      t = { s with cycle := s.cycle + 1, regs := t.regs, log := t.log, perf := t.perf, out := t.out,
                   pwm := { s.pwm with calBad := t.pwm.calBad, newMap := t.pwm.newMap, initSrc := t.pwm.initSrc } } ∧
      RegsKeptBut (fun a => tripReg a || decide (a = Reg.PWM_CAL)) s t) ∧
  (∀ (s : State) (maps : List (Option (List (Fin 48)))), s.rd Fld.CLK_STATUS_CTRL_LOCK = 0 ∨ s.rd Fld.PWM_CAL_CAL_DONE = 1 ∨ s.pwm.calFrames < 29 →
    Does (.calDone maps) s fun t => t = { s with cycle := s.cycle + 1 })

/-- R439, R442, R444 to R446, R448, R449, R460: the inputs of a pair. A level of GDFLT_N shows in FLT_LIVE. A valid status word renews the link and stores
its SEQ and flags; one with a bad code, a wrong CRC or a repeated SEQ only counts in BAD_WORDS. STAT_TO microseconds, at least 5, without a valid word
take the link DOWN with LINK_LOSSES and LINK_EV; the link of a pair that is not watched is ignored. After each, every latch and pair is settled on its sources. GD_EN low sets cause ENABLE on every watched pair. Its rise after 4,000 locked
cycles low, with the TRIP section loaded, is a clearing edge: the latch of each watched pair without a cause clears with CAUSE at 0, FIRST_CAUSE kept,
and the others stay and set CLR_BLOCKED. Another rise clears nothing and, with the TRIP section loaded, sets SHORT_TOGGLE. LOW_TIME shows the low time
in µs. -/
def Obligations.GateDrive : Prop :=
  (∀ (s : State) (p : Fin 72) (low : Bool),
    Does (.gdFlt p low) s fun t =>
      t.rdB (Fld.GDL_STATUS_FLT_LIVE p) = low ∧ AllSettled s t ∧ (∀ q, q < 72 → hasBit t.gate.fltLow q = (if q = p then low else hasBit s.gate.fltLow q)) ∧
      t = { s with cycle := s.cycle + 1, regs := t.regs, log := t.log, perf := t.perf, out := t.out, gate := { s.gate with fltLow := t.gate.fltLow } } ∧
      RegsKeptBut tripReg s t) ∧
  (∀ (s : State) (p : Fin 72) (w : BitVec 24) (codeOk : Bool), watched s p = true → s.rd (Fld.GDL_CFG_STAT_EN p) = 1 → s.rd Fld.CLK_STATUS_CTRL_LOCK = 1 →
    let seq := w.toNat / 2 ^ 20
    let valid := codeOk && decide (crc4 w = w.toNat % 16) && (!hasBit s.gate.wordSeen p || decide (seq ≠ s.rd (Fld.GDL_STATUS_LAST_SEQ p)))
    Does (.statusWordRx p w codeOk) s fun t =>
      (valid = true → t.rd (Fld.GDL_STATUS_LINK_UP p) = 1 ∧ t.rd (Fld.GDL_STATUS_LAST_SEQ p) = seq ∧
        t.rd (Fld.GDL_STATUS_LAST_FLAGS p) = w.toNat / 2 ^ 9 % 2 ^ 11 ∧ hasBit t.gate.wordSeen p = true ∧ AllSettled s t) ∧
      (valid = false → t.rd (Fld.GDL_COUNT_BAD_WORDS p) = min (s.rd (Fld.GDL_COUNT_BAD_WORDS p) + 1) 0xFFFF ∧ t.gate = s.gate ∧ t.log = s.log ∧
        RegsKept [Reg.GDL_COUNT p] s t) ∧
      t = { s with cycle := s.cycle + 1, regs := t.regs, log := t.log, perf := t.perf, out := t.out, gate := t.gate } ∧ RegsKeptBut tripReg s t) ∧
  (∀ (s : State) (p : Fin 72) (ns : Nat), watched s p = true → s.rd (Fld.GDL_CFG_STAT_EN p) = 1 → s.rd Fld.CLK_STATUS_CTRL_LOCK = 1 →
    s.rd (Fld.GDL_STATUS_LINK_UP p) = 1 → 1000 * max 5 (s.rd (Fld.GDL_CFG_STAT_TO p)) ≤ ns →
    Does (.linkLost p ns) s fun t =>
      t.rd (Fld.GDL_STATUS_LINK_UP p) = 0 ∧ t.rd (Fld.GDL_COUNT_LINK_LOSSES p) = min (s.rd (Fld.GDL_COUNT_LINK_LOSSES p) + 1) 0xFF ∧
      t.rd Fld.GDL_EVENTS_LINK_EV = 1 ∧ AllSettled s t ∧ (s.gate.quietDown.testBit p = false → t.rd (Fld.GDL_STATUS_LATCHED p) = 1) ∧
      t = { s with cycle := s.cycle + 1, regs := t.regs, log := t.log, perf := t.perf, out := t.out } ∧ RegsKeptBut tripReg s t) ∧
  (∀ (s : State) (p : Fin 72) (ns : Nat), watched s p = false ∨ s.rd (Fld.GDL_CFG_STAT_EN p) = 0 ∨ s.rd Fld.CLK_STATUS_CTRL_LOCK = 0 ∨
    s.rd (Fld.GDL_STATUS_LINK_UP p) = 0 ∨ ns < 1000 * max 5 (s.rd (Fld.GDL_CFG_STAT_TO p)) →
    Does (.linkLost p ns) s fun t => t = { s with cycle := s.cycle + 1 }) ∧
  (∀ (s : State) (p : Fin 72) (w : BitVec 24) (codeOk : Bool), watched s p = false ∨ s.rd (Fld.GDL_CFG_STAT_EN p) = 0 ∨ s.rd Fld.CLK_STATUS_CTRL_LOCK = 0 →
    Does (.statusWordRx p w codeOk) s fun t => t = { s with cycle := s.cycle + 1 }) ∧
  (∀ (s : State),
    Does .gdEnLow s fun t =>
      t.rd Fld.GDL_EN_STATUS_GD_EN_LEVEL = 0 ∧ AllSettled s t ∧
      (∀ p, p < 72 → watched s p = true → t.rd (Fld.GDL_STATUS_LATCHED p) = 1 ∧ hasBit (t.rd (Fld.GDL_CAUSE_CAUSE p)) 1 = true) ∧
      t = { s with cycle := s.cycle + 1, regs := t.regs, log := t.log, perf := t.perf, out := t.out, gate := { s.gate with enHigh := false } } ∧
      RegsKeptBut tripReg s t) ∧
  (∀ (s : State) (low : Nat) (locked : Bool),
    let edge := s.gate.tripLoaded && decide (4000 ≤ low) && locked && s.rdB Fld.CLK_STATUS_CTRL_LOCK
    let causes := fun p => gateCauses false (s.wr Fld.GDL_EN_STATUS_GD_EN_LEVEL 1) p
    Does (.gdEnRise low locked) s fun t =>
      t.rd Fld.GDL_EN_STATUS_GD_EN_LEVEL = 1 ∧ t.rd Fld.GDL_EN_STATUS_LOW_TIME = min (low / 400) 0xFFFF ∧
      (edge = true → t.rd Fld.GDL_EVENTS_CLEARED_EV = 1 ∧
        (∀ p, p < 72 → watched s p = true → s.rd (Fld.GDL_STATUS_LATCHED p) = 1 →
          t.rd (Fld.GDL_STATUS_FIRST_CAUSE p) = s.rd (Fld.GDL_STATUS_FIRST_CAUSE p) ∧ t.rd (Fld.GDL_COUNT_FAULTS p) = s.rd (Fld.GDL_COUNT_FAULTS p) ∧
          (if causes p = 0 then t.rd (Fld.GDL_STATUS_LATCHED p) = 0 ∧ t.rd (Fld.GDL_CAUSE_CAUSE p) = 0 ∧ t.mapBit Fld.GDL_LATCHED p = false
           else t.rd (Fld.GDL_STATUS_LATCHED p) = 1 ∧ t.rd Fld.GDL_EVENTS_CLR_BLOCKED = 1)) ∧
        RegsKeptBut (fun a => tripReg a) s t) ∧
      (edge = false → (∀ p, p < 72 → t.reg (Reg.GDL_STATUS p) = s.reg (Reg.GDL_STATUS p)) ∧
        (s.gate.tripLoaded = true → t.rd Fld.GDL_EVENTS_SHORT_TOGGLE = 1 ∧ Logged 0x17 4 (min (low / 400) 0xFFFF) s t) ∧
        (s.gate.tripLoaded = false → t.log = s.log ∧ t.reg Reg.GDL_EVENTS = s.reg Reg.GDL_EVENTS) ∧
        RegsKept [Reg.GDL_EN_STATUS, Reg.GDL_EVENTS, Reg.LOG_STATUS] s t) ∧
      t = { s with cycle := s.cycle + 1, regs := t.regs, log := t.log, perf := t.perf, out := t.out, gate := { s.gate with enHigh := true } })

/-- R43, R194, R467, R468, R470 to R473, R475, R476, R480, R484 to R486, R526: at the end of a window of the core, of the engine, or of both in one
cycle, a window of a unit that is compared and has its length, or less where a tick or a clock loss has cut it short, gives both signatures and
counts; where they differ, or the comparator sets disagree, the reaction of a mismatch of the core, of the engine, or of both follows (of both, the
cycle recorded is the core's: log entry 104). The oldest safety change of the core is released, with its entry in the change log where it is no
output image, where the copies and the comparator sets agree, or a broken core runs in test-stand mode; a broken core releases nothing outside it (log
entry 105); else it is a mismatch of the core. GO of LS_TEST starts the self-test: of a SAFETY session with the password at once, with its entry in
the change log; of the lockstep core once the checker releases the change; every other initiator is denied. At the end of the test that runs TEST_OK
and PASS show its result; a failure brings lockout, and one on demand the reaction of a core mismatch; the pass of the test of a reset lets the core
run. A read of a LO word of LS_SIG latches its HI word. -/
def Obligations.Lockstep : Prop :=
  (∀ (s : State) (core eng : Option SigWindow), s.rd Fld.CLK_STATUS_CTRL_LOCK = 1 →
    let sig := fun l : List (BitVec 64) =>
      (l.foldl (fun x o => if x.msb then (x <<< 1) ^^^ o ^^^ 0x1B#64 else (x <<< 1) ^^^ o) (BitVec.allOnes 64)).toNat
    let ends := fun (cut : Option Nat) (win n : Nat) => (cut.map (fun w => decide (n ≤ w))).getD (decide (n = win))
    let c := core.filter (fun w => decide (s.rd Fld.LS_STATUS_CORE_STATE = 1) && ends s.ls.coreCut s.ls.coreWin w.lead.length)
    let e := eng.filter (fun w => (decide (s.rd Fld.LS_STATUS_ENG_STATE = 1) || (decide (s.rd Fld.LS_STATUS_ENG_STATE = 0) && s.ls.engCut.isSome)) &&
      ends s.ls.engCut s.ls.engWin w.lead.length)
    let bad := fun (w : Option SigWindow) => w.any (fun w => decide (sig w.lead ≠ sig w.trail) || w.ab)
    let at' := fun (w : Option SigWindow) => (w.map (fun w => w.lead.length - 1)).getD 0
    let ab := fun (w : Option SigWindow) => w.any (·.ab)
    let old := fun k => Tab.get 0 s.ls.sig k
    Does (.signatureCompare core eng) s fun t =>
      [Tab.get 0 t.ls.sig 0, Tab.get 0 t.ls.sig 1] = (c.map (fun w => [sig w.lead, sig w.trail])).getD [old 0, old 1] ∧
      [Tab.get 0 t.ls.sig 2, Tab.get 0 t.ls.sig 3] = (e.map (fun w => [sig w.lead, sig w.trail])).getD [old 2, old 3] ∧
      (∀ w ∈ c, t.reg (sigLo 0) = BitVec.ofNat 32 (sig w.lead) ∧ t.reg (sigLo 1) = BitVec.ofNat 32 (sig w.trail)) ∧
      (∀ w ∈ e, t.reg (sigLo 2) = BitVec.ofNat 32 (sig w.lead) ∧ t.reg (sigLo 3) = BitVec.ofNat 32 (sig w.trail)) ∧
      t.rd Fld.LS_COUNT_WINDOWS = min (s.rd Fld.LS_COUNT_WINDOWS + c.toList.length + e.toList.length) (2 ^ 32 - 1) ∧
      t.ls.coreCut = (if c.isSome then none else s.ls.coreCut) ∧ t.ls.engCut = (if e.isSome then none else s.ls.engCut) ∧
      (bad c = false → bad e = false → t.ls = { s.ls with sig := t.ls.sig, coreCut := t.ls.coreCut, engCut := t.ls.engCut } ∧ t.log = s.log ∧
        RegsKept [Reg.LS_COUNT, sigLo 0, sigLo 1, sigLo 2, sigLo 3] s t) ∧
      (bad c = true → bad e = false → MismatchNoted 1 false (ab c) (at' c) s t ∧ t.rd Fld.LS_EVENTS_CORE_MM_EV = 1 ∧ CoreMade 7 s t) ∧
      (bad c = false → bad e = true → MismatchNoted 2 false (ab e) (at' e) s t ∧ t.rd Fld.LS_EVENTS_ENG_MM_EV = 1 ∧ t.rd Fld.LS_STATUS_ENG_STATE = 2 ∧
        t.rd Fld.LE_STATUS_RUN = 0 ∧ t.ls = { s.ls with trip := true, sig := t.ls.sig, coreCut := t.ls.coreCut, engCut := t.ls.engCut } ∧
        AllSettled s t ∧ t.reg Reg.SOUT_STATE = s.reg Reg.SOUT_STATE) ∧
      (bad c = true → bad e = true → MismatchNoted 3 false (ab c || ab e) (at' c) s t ∧ t.rd Fld.LS_EVENTS_CORE_MM_EV = 1 ∧
        t.rd Fld.LS_EVENTS_ENG_MM_EV = 1 ∧ t.rd Fld.LS_STATUS_ENG_STATE = 2 ∧ t.rd Fld.LE_STATUS_RUN = 0 ∧ t.rd Fld.LS_STATUS_CORE_STATE = 2 ∧
        t.ls.coreHeld = true ∧ t.ls.trip = true ∧ t.ls.changes = [] ∧ t.rd Fld.SAFE_STATUS_LOCKED = 1 ∧ t.rd Fld.SOUT_STATE_ON = 0) ∧
      t = { s with cycle := s.cycle + 1, regs := t.regs, log := t.log, perf := t.perf, out := t.out, ls := t.ls,
                   safe := { s.safe with arisen := t.safe.arisen } } ∧
      RegsKeptBut (fun a => lockReg a || [Reg.LS_COUNT, sigLo 0, sigLo 1, sigLo 2, sigLo 3, Reg.LS_EVENTS, Reg.LS_STATUS, Reg.LS_MM_INFO,
        Reg.LE_STATUS].contains a) s t) ∧
  (∀ (s : State) (core eng : Option SigWindow), s.rd Fld.CLK_STATUS_CTRL_LOCK = 0 →
    Does (.signatureCompare core eng) s fun t => t = { s with cycle := s.cycle + 1 }) ∧
  (∀ (s : State) (agree ab : Bool) (cycle : Nat) (v : Word) (rest : List (Nat × Word)), s.ls.changes = (Reg.SOUT_STATE, v) :: rest →
    s.ls.coreHeld = false → s.ls.coreHalted = false → s.rd Fld.CLK_STATUS_CTRL_LOCK = 1 →
    let broken := decide (s.rd Fld.LS_STATUS_CORE_STATE = 3)
    let ok := if broken then s.rdB Fld.SAFE_STATUS_TEST_STAND else agree && !ab
    Does (.safetyChangeRelease agree ab cycle) s fun t =>
      (ok = true → t.ls = { s.ls with changes := rest } ∧
        t.rd Fld.SOUT_STATE_ON = (if s.rd Fld.SAFE_STATUS_LOCKED = 1 then 0 else v.toNat % 2 ^ 16) ∧ t.log = s.log ∧
        BitsKept Reg.SOUT_STATE [Fld.SOUT_STATE_ON] s t ∧ RegsKept [Reg.SOUT_STATE] s t) ∧
      (ok = false → broken = false → t.rd Fld.LS_EVENTS_CORE_MM_EV = 1 ∧ MismatchNoted 1 true ab cycle s t ∧ CoreMade 7 s t) ∧
      (ok = false → broken = true → t = { s with cycle := s.cycle + 1 }) ∧
      t = { s with cycle := s.cycle + 1, regs := t.regs, log := t.log, perf := t.perf, out := t.out, ls := t.ls,
                   safe := { s.safe with arisen := t.safe.arisen } } ∧
      RegsKeptBut (fun a => lockReg a || [Reg.LS_EVENTS, Reg.LS_STATUS, Reg.LS_MM_INFO].contains a) s t) ∧
  (∀ (s : State) (cycle a : Nat) (v : Word) (rest : List (Nat × Word)), s.ls.changes = (a, v) :: rest → a ≠ Reg.SOUT_STATE →
    s.ls.coreHeld = false → s.ls.coreHalted = false → s.rd Fld.CLK_STATUS_CTRL_LOCK = 1 → s.rd Fld.LS_STATUS_CORE_STATE ≠ 3 →
    Does (.safetyChangeRelease true false cycle) s fun t =>
      t.ls.changes = rest ∧
      (s.clogFull = true → t = { s with cycle := s.cycle + 1, ls := { s.ls with changes := rest }, bus := ⟨0#32, .done, .busy⟩ }) ∧
      (s.clogFull = false → t.clog.queue.length = s.clog.queue.length + 1 ∧ (a = Reg.LS_TEST → v.getLsbD 31 = true → t.rd Fld.LS_TEST_BUSY = 1) ∧
        (a = Reg.SAFE_CTRL → v.getLsbD 0 = true → t.rd Fld.SAFE_STATUS_LOCKED = 1) ∧ (a = Reg.SOUT_REQ → t.rd Fld.SOUT_REQ_REQ = v.toNat % 2 ^ 16) ∧
        (a = Reg.LS_CFG → t.rd Fld.LS_CFG_ENG_WIN = Fld.LS_CFG_ENG_WIN.get v ∧ t.rd Fld.LS_CFG_CORE_WIN = Fld.LS_CFG_CORE_WIN.get v)) ∧
      t = { s with cycle := s.cycle + 1, regs := t.regs, log := t.log, perf := t.perf, out := t.out, clog := t.clog,
                   bus := t.bus, ls := { s.ls with changes := rest, auto := t.ls.auto }, safe := { s.safe with arisen := t.safe.arisen } } ∧
      RegsKeptBut (fun b => lockReg b || [Reg.CLOG_STATUS, Reg.LS_TEST, Reg.LS_CFG, Reg.LS_EVENTS, Reg.SOUT_REQ, Reg.SIN_DEMAND_EV].contains b) s t) ∧
  (∀ (s : State) (agree ab : Bool) (cycle : Nat), s.ls.changes = [] ∨ s.ls.coreHeld = true ∨ s.ls.coreHalted = true ∨ s.rd Fld.CLK_STATUS_CTRL_LOCK = 0 →
    Does (.safetyChangeRelease agree ab cycle) s fun t => t = { s with cycle := s.cycle + 1 }) ∧
  (∀ (s : State) (k : Fin 64) (v : Word), accessFault s Reg.LS_TEST = none → s.rd (Fld.CE_SESS_ROLE k) = 2 → s.rd (Fld.CE_SESS_PW_OK k) = 1 →
    s.clog.queue.length < 64 →
    Does (.lsTest (.session k) v) s fun t =>
      t.rd Fld.LS_TEST_BUSY = (if v.getLsbD 31 then 1 else s.rd Fld.LS_TEST_BUSY) ∧ t.bus = ⟨0#32, .done, .ok⟩ ∧
      t.clog.queue.length = s.clog.queue.length + 1 ∧ BitsKept Reg.LS_TEST [Fld.LS_TEST_BUSY] s t ∧
      t.ls = { s.ls with auto := s.ls.auto && !(v.getLsbD 31 && !s.rdB Fld.LS_TEST_BUSY) } ∧
      t = { s with cycle := s.cycle + 1, regs := t.regs, bus := t.bus, clog := t.clog, ls := t.ls } ∧ RegsKept [Reg.LS_TEST, Reg.CLOG_STATUS] s t) ∧
  (∀ (s : State) (v : Word), accessFault s Reg.LS_TEST = none →
    Does (.lsTest .core v) s fun t => t = { s with cycle := s.cycle + 1, bus := ⟨0#32, .done, .ok⟩, ls := { s.ls with changes := s.ls.changes ++ [(Reg.LS_TEST, v)] } }) ∧
  (∀ (s : State) (i : Initiator) (v : Word), Reaches s i Reg.LS_TEST →
    (i = .fw ∨ (i ≠ .core ∧ (s.roleOf i ≠ 2 ∨ pwOk s i = false))) →
    Does (.lsTest i v) s fun t => t.bus = ⟨0#32, .done, .denied⟩ ∧ Logged 1 4 Reg.LS_TEST s t ∧
      t = { s with cycle := s.cycle + 1, regs := t.regs, bus := t.bus, log := t.log } ∧ RegsKept [Reg.LOG_STATUS] s t) ∧
  (∀ (s : State) (failA failB : Bool), s.rd Fld.LS_TEST_BUSY = 0 → Does (.lsTestDone failA failB) s fun t => t = { s with cycle := s.cycle + 1 }) ∧
  (∀ (s : State) (failA failB : Bool), opsWith s 0x51 = [] → s.rd Fld.LS_TEST_BUSY = 1 →
    let fails := failA || failB
    let demand := !s.ls.auto
    let starts := !fails && !demand && s.ls.coreHeld && decide (s.rd Fld.LS_STATUS_CORE_STATE = 0)
    Does (.lsTestDone failA failB) s fun t =>
      t.rd Fld.LS_TEST_BUSY = 0 ∧ t.rdB Fld.LS_STATUS_TEST_OK = !fails ∧ t.rdB Fld.LS_TEST_PASS = !fails ∧
      (fails = true → demand = true → t.rd Fld.LS_EVENTS_TEST_FAIL_EV = 1 ∧ CoreMade 11 s t) ∧
      (fails = true → demand = false → LockedOut 11 s t ∧ t.ls = { s.ls with auto := false, trip := true }) ∧
      (fails = false → t.reg Reg.SAFE_STATUS = s.reg Reg.SAFE_STATUS ∧ t.reg Reg.SOUT_STATE = s.reg Reg.SOUT_STATE) ∧
      (starts = true → t.rd Fld.LS_STATUS_CORE_STATE = 1 ∧ t.ls = { s.ls with coreHeld := false, trip := false, auto := false } ∧ AllSettled s t) ∧
      (starts = false → fails = false → t.ls = { s.ls with auto := false } ∧ t.rd Fld.LS_STATUS_CORE_STATE = s.rd Fld.LS_STATUS_CORE_STATE) ∧
      t = { s with cycle := s.cycle + 1, regs := t.regs, log := t.log, perf := t.perf, out := t.out, ls := t.ls,
                   safe := { s.safe with arisen := t.safe.arisen } } ∧
      RegsKeptBut (fun a => lockReg a || [Reg.LS_STATUS, Reg.LS_TEST, Reg.LS_EVENTS].contains a) s t) ∧
  (∀ (s : State) (i : Initiator) (k : Fin 4), Reaches s i (sigLo k) →
    Does (.lsSigLoRead i k) s fun t =>
      t.bus = ⟨s.reg (sigLo k), .done, .ok⟩ ∧ t.reg (sigLo k + 4) = BitVec.ofNat 32 (Tab.get 0 s.ls.sig k / 2 ^ 32) ∧
      t = { s with cycle := s.cycle + 1, regs := t.regs, bus := t.bus } ∧ RegsKept [sigLo k + 4] s t)

/-- R487 to R492, R494, R497, R498, R501, R502, R510, R511: one sample of a used channel in a control tick. A usable one gives P and Q, each accumulator
takes the increment of its quantity and kind unless SAT is set, and one that would pass its limit takes the limit with SAT and GUARD_OVF; NSAMP
counts. An unusable one integrates the last P and Q again, as filled, for up to 16 samples in a row while the cores are powered; else, and always
with P_BASE = 0, it integrates nothing, with reason SAMPLES. A second sample in the tick changes nothing. P and Q are formed in internal-state
arithmetic; the order of its operations is the model's (log entry 20). Every fifth frame tick each used pulse input is sampled: a level shown by
DEBOUNCE × 10 samples is accepted, and an accepted change to low is a pulse of WT, or of 1 with UNIT 2; with bank 5 bad every run restarts and no
level counts as accepted. A used and emitting output that is idle with PENDING > 0 starts a pulse of PW × 50 frames, counted in PULSES, and in LOST
too with bank 5 bad; at its end the low time of the same length begins, and then it is idle. -/
def Obligations.MeterSamplesAndPulses : Prop :=
  (∀ (s : State) (m : Fin 9), meterRuns s = true → s.rd Fld.SCHED_CFG_TICK_RUN = 1 → s.rd (Fld.MTR_CFG_EN m) = 1 → (s.chan m).done = false →
    let v := fun x => meterInput s m x
    let neg := fun x : Int => if s.rd (Fld.MTR_CFG_DIR m) = 1 then sat32 (-x) else x
    let mul := fun x y : Int => sat40 (roundDiv (x * y) (2 ^ 30))
    let p := sat40 (sat40 (mul (v 0) (v 3) + mul (v 1) (v 4)) + mul (v 2) (v 5))
    let q := sat40 (sat40 (mul (sat40 (v 1 - v 2)) (v 3) + mul (sat40 (v 2 - v 0)) (v 4)) + mul (sat40 (v 0 - v 1)) (v 5))
    let fresh := (neg (sat32 (sat40 (roundDiv (2 * p) 3))), neg (sat32 (sat40 (roundDiv (2 * q * 2 ^ 40) (3 * 1904410002820)))))
    let usable := sampleUsable s m
    let based := decide (s.rd (Fld.MTR_PBASE m) ≠ 0)
    let fills := !usable && (s.chan m).last.isSome && coresPowered s m && decide ((s.chan m).run < 16) && based
    let counts := (usable && based) || fills
    let pq := if usable then fresh else (s.chan m).last.getD (0, 0)
    let e := fun x : Int => roundDiv (x * s.rd (Fld.MTR_PBASE m) * 4) (180000 * ticksPerFrame s)
    let of := fun id => e (if accQty s id then pq.2 else pq.1)
    let inc := fun id => if accKind s id = 0 then max (of id) 0 else if accKind s id = 1 then max (-(of id)) 0 else if accKind s id = 2 then of id
      else ((of id).natAbs : Int)
    let idk := fun k => 4 * m.val + k
    let at' := fun k => (s.acc (idk k) + inc (idk k)) / 2 ^ 32
    let lo := fun id => if accKind s id = 2 then -(2 ^ 47 : Int) else 0
    let hi := fun id => if accKind s id = 2 then (2 ^ 47 - 1 : Int) else 2 ^ 48 - 1
    Does (.meterSample m) s fun t =>
      (t.chan m).done = true ∧ t.rdB (Fld.MTR_STATUS_ACTIVE m) = counts ∧ t.rdB (Fld.MTR_STATUS_HOLDING m) = fills ∧
      (usable = true → t.rdI (Fld.MTR_P m) = fresh.1 ∧ t.rdI (Fld.MTR_Q m) = fresh.2 ∧ (t.chan m).last = some fresh ∧ (t.chan m).run = 0) ∧
      (usable = false → t.reg (Reg.MTR_P m) = s.reg (Reg.MTR_P m) ∧ t.reg (Reg.MTR_Q m) = s.reg (Reg.MTR_Q m) ∧ (t.chan m).last = (s.chan m).last) ∧
      (t.chan m).nsamp = (s.chan m).nsamp + (if counts then 1 else 0) ∧ (t.chan m).filled = (s.chan m).filled + (if fills then 1 else 0) ∧
      (∀ k, k < 4 →
        if accEn s (idk k) && counts && !accSat s (idk k) then
          (if at' k < lo (idk k) then t.acc (idk k) = lo (idk k) * 2 ^ 32 ∧ accSat t (idk k) = true ∧ t.bit (Fld.MTR_EVENTS_GUARD_OVF m) k = true
           else if hi (idk k) < at' k then t.acc (idk k) = hi (idk k) * 2 ^ 32 ∧ accSat t (idk k) = true ∧ t.bit (Fld.MTR_EVENTS_GUARD_OVF m) k = true
           else t.acc (idk k) = s.acc (idk k) + inc (idk k) ∧ accSat t (idk k) = false)
        else t.acc (idk k) = s.acc (idk k) ∧ accSat t (idk k) = accSat s (idk k)) ∧
      (counts = false → hasBit (t.rd (Fld.MTR_STATUS_INV_NOW m)) 1 = true) ∧
      (∀ id, id < 80 → id / 4 ≠ m → t.acc id = s.acc id) ∧ (∀ n, n < 9 → n ≠ m.val → t.chan n = s.chan n) ∧
      t = { s with cycle := s.cycle + 1, regs := t.regs, log := t.log, perf := t.perf, out := t.out,
                   meter := { s.meter with chans := t.meter.chans, acc := t.meter.acc, outs := t.meter.outs } } ∧
      RegsKeptBut (fun a => [Reg.MTR_P m, Reg.MTR_Q m, Reg.MTR_STATUS m, Reg.MTR_EVENTS m, Reg.LOG_STATUS].contains a ||
        (List.range 8).any (fun j => decide (a = Reg.POUT_ST j) || decide (a = Reg.POUT_CNT j))) s t) ∧
  (∀ (s : State) (m : Fin 9), meterRuns s = false ∨ s.rd Fld.SCHED_CFG_TICK_RUN = 0 ∨ s.rd (Fld.MTR_CFG_EN m) = 0 ∨ (s.chan m).done = true →
    Does (.meterSample m) s fun t => t = { s with cycle := s.cycle + 1 }) ∧
  (∀ (s : State) (levels : BitVec 16), meterRuns s = true → s.fn % 5 = 0 → bankBad s 5 = false →
    let high := fun n => levels.getLsbD n
    let need := fun n => max 1 (s.rd (Fld.PIN_CFG_DEBOUNCE n)) * 10
    let run := fun n => if high n = (s.pin n).raw then min (need n) ((s.pin n).run + 1) else 1
    let pulse := fun n => decide (run n = need n) && !high n && !s.rdB (Fld.PIN_ST_LEVEL n) && (s.pin n).known
    let sum := fun n => s.acc (0x40 + n) + (if s.rd (Fld.PIN_CFG_UNIT n) = 2 then 1 else (s.rd (Fld.PIN_WT n) : Int)) * 2 ^ 32
    Does (.pulseSample levels) s fun t =>
      (∀ n, n < 16 → s.rd (Fld.PIN_CFG_EN n) = 1 →
        (t.pin n).raw = high n ∧ (t.pin n).run = run n ∧ (t.pin n).known = ((s.pin n).known || decide (run n = need n)) ∧
        t.rdB (Fld.PIN_ST_LEVEL n) = (if run n = need n then !high n else s.rdB (Fld.PIN_ST_LEVEL n)) ∧
        t.rd (Fld.PIN_CNT_PULSES n) = (if pulse n then min (s.rd (Fld.PIN_CNT_PULSES n) + 1) 0xFFFF else s.rd (Fld.PIN_CNT_PULSES n)) ∧
        t.acc (0x40 + n) = (if pulse n && !accSat s (0x40 + n) then
          (if 2 ^ 80 ≤ sum n then (2 ^ 48 - 1) * 2 ^ 32 else if sum n < 0 then 0 else sum n) else s.acc (0x40 + n))) ∧
      (∀ n, n < 16 → s.rd (Fld.PIN_CFG_EN n) = 0 → t.pin n = s.pin n ∧ t.acc (0x40 + n) = s.acc (0x40 + n)) ∧
      t = { s with cycle := s.cycle + 1, regs := t.regs, log := t.log, meter := { s.meter with pins := t.meter.pins, acc := t.meter.acc } } ∧
      RegsKeptBut (fun a => decide (a = Reg.LOG_STATUS) || inArray (Reg.PIN_ST 0) 0x20 16 a || inArray (Reg.PIN_CNT 0) 0x20 16 a) s t) ∧
  (∀ (s : State) (levels : BitVec 16), meterRuns s = true → s.fn % 5 = 0 → bankBad s 5 = true →
    Does (.pulseSample levels) s fun t => (∀ n, n < 16 → t.pin n = { s.pin n with raw := true, run := 0, known := false }) ∧
      t = { s with cycle := s.cycle + 1, meter := { s.meter with pins := t.meter.pins } }) ∧
  (∀ (s : State) (j : Fin 8), meterRuns s = true → poutOn s j = true → (s.pout j).phase = none → s.rd (Fld.POUT_ST_PENDING j) ≠ 0 → s.rd Fld.SCHED_CFG_TICK_RUN = 1 →
    Does (.poutPulse j) s fun t =>
      t.pout j = { s.pout j with phase := some (true, max 1 (s.rd (Fld.POUT_CFG_PW j)) * 50) } ∧
      t.rd (Fld.POUT_ST_PENDING j) = s.rd (Fld.POUT_ST_PENDING j) - 1 ∧ t.rd (Fld.POUT_ST_ACTIVE j) = 1 ∧
      t.rd (Fld.POUT_CNT_PULSES j) = min (s.rd (Fld.POUT_CNT_PULSES j) + 1) 0xFFFF ∧
      t.rd (Fld.POUT_CNT_LOST j) = (if bankBad s 5 then min (s.rd (Fld.POUT_CNT_LOST j) + 1) 0xFFFF else s.rd (Fld.POUT_CNT_LOST j)) ∧
      (∀ h, h < 8 → h ≠ j.val → t.pout h = s.pout h) ∧
      t = { s with cycle := s.cycle + 1, regs := t.regs, meter := { s.meter with outs := t.meter.outs } } ∧ RegsKept [Reg.POUT_ST j, Reg.POUT_CNT j] s t) ∧
  (∀ (s : State) (j : Fin 8) (high : Bool), (s.pout j).phase = some (high, 0) →
    Does (.poutPulseEnd j) s fun t =>
      t.pout j = { s.pout j with phase := if high then some (false, max 1 (s.rd (Fld.POUT_CFG_PW j)) * 50) else none } ∧
      t.rd (Fld.POUT_ST_ACTIVE j) = (if high then 0 else s.rd (Fld.POUT_ST_ACTIVE j)) ∧ (∀ h, h < 8 → h ≠ j.val → t.pout h = s.pout h) ∧
      t = { s with cycle := s.cycle + 1, regs := t.regs, meter := { s.meter with outs := t.meter.outs } } ∧
      BitsKept (Reg.POUT_ST j) [Fld.POUT_ST_ACTIVE j] s t ∧ RegsKept [Reg.POUT_ST j] s t)

/-- R493 to R496, R503, R507, R509: A latch that is due makes the record of every used channel and pulse input: the deltas of its accumulators, NSAMP,
FILLED, the means, the FN48 of the boundary and the reasons, with NEW and INT_EV; over an unread one INT_OVR is set. The next interval starts from the
accumulators as they stand. A write of INT_LEN by SERVICE holds the length and makes a latch due at the next frame tick; without a latch due nothing
happens. CLEAR and PRESET of SERVICE wait in MTR_CMD for the frame tick; a preset out of range answers BAD_ARG. Taken after a latch that is due, an
enabled accumulator becomes 0 or the preset value, with SAT and fraction at 0, an entry in the log and in the change log, and reason CONFIG; a target
that is not enabled sets CMD_REF; CMD then reads 0. At every whole second all accumulators with their fraction, SAT and configuration byte are copied
into the Lantern domain. A read of a LO word latches its HI word. -/
def Obligations.MeterRecordsAndCommands : Prop :=
  (∀ (s : State) (extra next : Nat), meterRuns s = true → s.meter.due = some (extra, next) → s.rd Fld.MTR_CMD_CMD = 0 →
    Does .intervalLatch s fun t =>
      (∀ m, m < 9 → s.rd (Fld.MTR_CFG_EN m) = 1 →
        (∀ k, k < 4 → ((Tab.get 0 t.meter.wide (Reg.MTR_DELTA_LO m k) : Nat) : Int) = (s.acc (4 * m + k) / 2 ^ 32 - Tab.get 0 (s.chan m).start k) % 2 ^ 64 ∧
          Tab.get 0 (t.chan m).start k = s.acc (4 * m + k) / 2 ^ 32) ∧
        t.rd (Fld.MTR_NSAMP m) = (s.chan m).nsamp % 2 ^ 32 ∧ t.rd (Fld.MTR_FILLED m) = (s.chan m).filled % 2 ^ 32 ∧
        Tab.get 0 t.meter.wide (Reg.MTR_END_LO m) = s.fn ∧ t.rd (Fld.MTR_REC_NEW m) = 1 ∧ t.rd (Fld.MTR_EVENTS_INT_EV m) = 1 ∧
        t.rd (Fld.MTR_REC_INV m) = (s.rd (Fld.MTR_STATUS_INV_NOW m) ||| extra) % 2 ^ 8 ∧
        (s.rd (Fld.MTR_REC_NEW m) = 1 → t.rd (Fld.MTR_EVENTS_INT_OVR m) = 1) ∧ (t.chan m).nsamp = 0 ∧ (t.chan m).filled = 0 ∧
        ((s.chan m).frames ≠ 0 → t.rdI (Fld.MTR_V1_MEAN m) = wInt (intW (roundDiv (s.chan m).v1Sum (s.chan m).frames)) ∧
          t.rdI (Fld.MTR_F_MEAN m) = wInt (intW (roundDiv (s.chan m).fSum (s.chan m).frames)))) ∧
      (∀ n, n < 16 → s.rd (Fld.PIN_CFG_EN n) = 1 →
        ((Tab.get 0 t.meter.wide (Reg.PIN_DELTA_LO n) : Nat) : Int) = (s.acc (0x40 + n) / 2 ^ 32 - (s.pin n).start) % 2 ^ 64 ∧ t.rd (Fld.PIN_ST_NEW n) = 1 ∧
        t.rd (Fld.PIN_ST_INV n) = ((s.pin n).inv ||| extra) % 2 ^ 8 ∧ t.pin n = { s.pin n with start := s.acc (0x40 + n) / 2 ^ 32, inv := next }) ∧
      t.meter.due = none ∧ (∀ m, m < 9 → s.rd (Fld.MTR_CFG_EN m) = 0 → t.chan m = s.chan m) ∧
      t = { s with cycle := s.cycle + 1, regs := t.regs, log := t.log, freeIx := t.freeIx,
                   meter := { s.meter with chans := t.meter.chans, pins := t.meter.pins, wide := t.meter.wide, due := none, next := [] } } ∧
      RegsKeptBut (fun a => decide (a = Reg.LOG_STATUS) || decide (0x200000 ≤ a ∧ a < 0x201000) || inArray (Reg.PIN_ST 0) 0x20 16 a) s t ∧
      t.reg Reg.MTR_INT_CFG = s.reg Reg.MTR_INT_CFG ∧ t.reg Reg.MTR_CMD = s.reg Reg.MTR_CMD) ∧
  (∀ (s : State), meterRuns s = false ∨ s.meter.due = none → Does .intervalLatch s fun t => t = { s with cycle := s.cycle + 1 }) ∧
  (∀ (s : State) (i : Initiator) (v : Word), Reaches s i Reg.MTR_INT_CFG → sessionOf [3] s i = true → s.clog.queue.length < 64 →
    Does (.intLenWrite i v) s fun t =>
      t.meter = { s.meter with lenDue := true } ∧ t.rd Fld.MTR_INT_CFG_INT_LEN = v.toNat % 2 ^ 16 ∧ t.bus = ⟨0#32, .done, .ok⟩ ∧
      t.clog.queue.length = s.clog.queue.length + (if s.rd Fld.MTR_INT_CFG_INT_LEN = v.toNat % 2 ^ 16 then 0 else 1) ∧
      t = { s with cycle := s.cycle + 1, regs := t.regs, bus := t.bus, clog := t.clog, meter := t.meter } ∧
      RegsKept [Reg.MTR_INT_CFG, Reg.CLOG_STATUS] s t) ∧
  (∀ (s : State) (i : Initiator) (target : BitVec 8), Reaches s i Reg.MTR_CMD → sessionOf [3] s i = true →
    s.clog.queue.length < 64 →
    let id := target.toNat
    let raw := s.rd Fld.MTR_PRESET_LO + 2 ^ 32 * s.rd Fld.MTR_PRESET_HI
    let signed := decide (accKind s id = 2)
    let fits := if signed then decide (-(2 ^ 47) ≤ (BitVec.ofNat 64 raw).toInt ∧ (BitVec.ofNat 64 raw).toInt < 2 ^ 47) else decide (raw < 2 ^ 48)
    let after : Nat → Bool → State → Prop := fun cmd waits t =>
      (waits → t.rd Fld.MTR_CMD_TARGET = id ∧ t.rd Fld.MTR_CMD_CMD = cmd ∧
        t.meter = { s.meter with cmdBy := (s.roleOf i, sessOf i) } ∧ t.bus.status = .ok) ∧
      (waits = false → t.bus.status = .badArg ∧ t.meter = s.meter ∧ t.regs = s.regs) ∧
      t = { s with cycle := s.cycle + 1, regs := t.regs, bus := t.bus, meter := { s.meter with cmdBy := t.meter.cmdBy } } ∧ RegsKept [Reg.MTR_CMD] s t
    Does (.clear i target) s (after 1 true) ∧ Does (.preset i target) s (after 2 (!accEn s id || fits))) ∧
  (∀ (s : State) (extra next : Nat), meterRuns s = true → s.meter.due = some (extra, next) → s.rd Fld.MTR_CMD_CMD = 1 ∨ s.rd Fld.MTR_CMD_CMD = 2 →
    s.clog.queue.length < 64 →
    let id := s.rd Fld.MTR_CMD_TARGET
    let raw := s.rd Fld.MTR_PRESET_LO + 2 ^ 32 * s.rd Fld.MTR_PRESET_HI
    let v : Int := if s.rd Fld.MTR_CMD_CMD = 2 then (if accKind s id = 2 then (BitVec.ofNat 64 raw).toInt else raw) else 0
    let fits := if accKind s id = 2 then decide (-(2 ^ 47) ≤ v ∧ v < 2 ^ 47) else decide (0 ≤ v ∧ v < 2 ^ 48)
    Does .intervalLatch s fun t =>
      t.rd Fld.MTR_CMD_CMD = 0 ∧ t.meter.due = none ∧
      (∀ m, m < 9 → s.rd (Fld.MTR_CFG_EN m) = 1 → t.rd (Fld.MTR_REC_NEW m) = 1 ∧
        (∀ k, k < 4 → ((Tab.get 0 t.meter.wide (Reg.MTR_DELTA_LO m k) : Nat) : Int) = (s.acc (4 * m + k) / 2 ^ 32 - Tab.get 0 (s.chan m).start k) % 2 ^ 64)) ∧
      (accEn s id && fits → t.acc id = v * 2 ^ 32 ∧ accSat t id = false ∧ t.clog.queue.length = s.clog.queue.length + 1 ∧
        (if id < 0x24 then hasBit (t.rd (Fld.MTR_STATUS_INV_NOW (id / 4))) 6 = true else hasBit (t.pin (id - 0x40)).inv 6 = true)) ∧
      ((accEn s id && fits) = false → t.rd Fld.MTR_GLB_EV_CMD_REF = 1 ∧ t.meter.acc = s.meter.acc ∧ t.clog = s.clog) ∧
      (∀ j, j < 80 → j ≠ id → t.acc j = s.acc j) ∧
      t = { s with cycle := s.cycle + 1, regs := t.regs, log := t.log, freeIx := t.freeIx, clog := t.clog,
                   meter := { s.meter with chans := t.meter.chans, pins := t.meter.pins, acc := t.meter.acc, wide := t.meter.wide, due := none, next := [] } } ∧
      RegsKeptBut (fun a => [Reg.MTR_CMD, Reg.MTR_GLB_EV, Reg.LOG_STATUS, Reg.CLOG_STATUS].contains a || decide (0x200000 ≤ a ∧ a < 0x201000) ||
        inArray (Reg.PIN_ST 0) 0x20 16 a) s t) ∧
  (∀ (s : State),
    let due := meterRuns s && decide (s.fn % 50000 = 0)
    Does .meterRetain s fun t =>
      (due = true → t.lan.meterCopy = some ⟨s.meter.acc, (accIds s).filter (accSat s), (accIds s).map (fun id => (id, accByte s id))⟩) ∧
      (due = false → t.lan = s.lan) ∧ t = { s with cycle := s.cycle + 1, lan := { s.lan with meterCopy := t.lan.meterCopy } }) ∧
  (∀ (s : State) (i : Initiator) (k : Fin 2048), isMeterLo (0x200000 + 4 * k) = true → Reaches s i (0x200000 + 4 * k) →
    let v := meterLo s (0x200000 + 4 * k)
    Does (.meterLoRead i k) s fun t =>
      t.bus = ⟨BitVec.ofNat 32 v, .done, .ok⟩ ∧ t.reg (0x200000 + 4 * k) = BitVec.ofNat 32 v ∧ t.reg (0x200004 + 4 * k) = BitVec.ofNat 32 (v / 2 ^ 32) ∧
      t = { s with cycle := s.cycle + 1, regs := t.regs, bus := t.bus } ∧ RegsKept [0x200000 + 4 * k, 0x200004 + 4 * k] s t)

/-- R513, R515 to R517, R519 to R523, R526: what brings the safety I/O into lockout: an input whose channels have differed for DISC_T (cause 3, with the
input's FAULT bit, out of RUN); a channel that fails at the test sample of its source (cause 4), while one fed elsewhere that reads low is noted for
confirmation, and a test that passes clears the fault of its source; three frames without an image (cause 10, SEQ_RUN 0); a read-back that has
differed for longer than RB_T (cause 5); an off-pulse read back high (cause 6), while one that passes clears OP_FAIL; and TRIP of SAFE_CTRL written by
a SAFETY session with the password (cause 2). At the accepted fall of SAFE_ACK a press of 100 ms to 5 s whose rise came inside the lockout ends it
where no cause is pending, with RELEASE_EV, RESETS and the latched causes at 0, and clears each WAIT_ACK whose ALLOW holds; with a cause pending it
sets ACK_REF. Without a lockout a press whose rise came after a WAIT_ACK clears the WAIT_ACKs. What either lets on is in
the image written in that frame. A press outside the limits sets ACK_REJ, and one with
neither a lockout nor a WAIT_ACK in force changes nothing. A cause that arose at the press's own scan bars the release too (log entry 109), and while
the safety core is held or halted no press is judged. Once its 60 s have run, the block on the password ends. -/
def Obligations.SafetyIo : Prop :=
  (∀ (s : State) (n : Fin 32),
    let q := Tab.get restIn s.safe.inputs n
    s.rd (Fld.SIN_CFG_EN n) = 1 → q.discFault = false → 1 ≤ q.disc → s.rd (Fld.SIN_CFG_DISC_T n) * 50 + 1 ≤ q.disc →
    Does (.discrepancy n) s fun t =>
      Tab.get restIn t.safe.inputs n = { q with discFault := true } ∧ t.bit Fld.SIN_FAULT n = true ∧ t.bit Fld.SIN_RUN n = false ∧ LockedOut 3 s t ∧
      (∀ m, m < 32 → m ≠ n.val → Tab.get restIn t.safe.inputs m = Tab.get restIn s.safe.inputs m ∧ t.bit Fld.SIN_FAULT m = s.bit Fld.SIN_FAULT m ∧
        t.bit Fld.SIN_RUN m = s.bit Fld.SIN_RUN m) ∧
      t = { s with cycle := s.cycle + 1, regs := t.regs, log := t.log, perf := t.perf, out := t.out,
                   safe := { s.safe with inputs := t.safe.inputs, arisen := t.safe.arisen } } ∧
      RegsKeptBut (fun a => lockReg a || [Reg.SIN_FAULT, Reg.SIN_RUN].contains a) s t) ∧
  (∀ (s : State) (k : Fin 8) (sa sb : BitVec 32), s.safe.loaded = true → s.rd Fld.CLK_STATUS_CTRL_LOCK = 1 →
    s.fn % max 8 (s.rd Fld.SAFE_CFG_TP_PERIOD) = k →
    let fault := fun (fed : Bool) (src : Nat) (high x : Bool) (f : Option Nat) =>
      if fed && high then (if src = k then (if x then (if f.isNone then some k.val else f) else if f = some k.val then none else f)
        else if x && decide (f = some k.val) then none else f) else f
    let cross := fun (fed : Bool) (src : Nat) (high x : Bool) (c : Option Nat) =>
      if fed && high && decide (src ≠ k) && !x then some k.val else c
    let newly := fun (fed : Bool) (src : Nat) (high x : Bool) (f : Option Nat) => fed && high && decide (src = k) && x && f.isNone
    let ins := fun n => Tab.get restIn s.safe.inputs n
    let recent := fun n => (ins n).demandAt.any (fun f => decide (fnDiff s.fn f < 50000))
    let fails := (List.range 32).any (fun n => s.rdB (Fld.SIN_CFG_EN n) &&
      (newly (s.rdB (Fld.SIN_CFG_TP_A_EN n)) (s.rd (Fld.SIN_CFG_TP_A n)) (ins n).a.level (sa.getLsbD n) (ins n).tpA ||
       newly (s.rdB (Fld.SIN_CFG_TP_B_EN n)) (s.rd (Fld.SIN_CFG_TP_B n)) (ins n).b.level (sb.getLsbD n) (ins n).tpB))
    Does (.testPulse k sa sb) s fun t =>
      (∀ n, n < 32 → s.rd (Fld.SIN_CFG_EN n) = 1 →
        Tab.get restIn t.safe.inputs n = { ins n with
          tpA := fault (s.rdB (Fld.SIN_CFG_TP_A_EN n)) (s.rd (Fld.SIN_CFG_TP_A n)) (ins n).a.level (sa.getLsbD n) (ins n).tpA,
          tpB := fault (s.rdB (Fld.SIN_CFG_TP_B_EN n)) (s.rd (Fld.SIN_CFG_TP_B n)) (ins n).b.level (sb.getLsbD n) (ins n).tpB,
          crossA := cross (s.rdB (Fld.SIN_CFG_TP_A_EN n)) (s.rd (Fld.SIN_CFG_TP_A n)) (ins n).a.level (sa.getLsbD n) (ins n).crossA,
          crossB := cross (s.rdB (Fld.SIN_CFG_TP_B_EN n)) (s.rd (Fld.SIN_CFG_TP_B n)) (ins n).b.level (sb.getLsbD n) (ins n).crossB,
          demandAt := if s.bit Fld.SIN_RUN n && t.bit Fld.SIN_FAULT n && !recent n then some s.fn else (ins n).demandAt } ∧
        t.bit Fld.SIN_DEMAND_EV n = (s.bit Fld.SIN_DEMAND_EV n || (s.bit Fld.SIN_RUN n && t.bit Fld.SIN_FAULT n)) ∧
        t.bit Fld.SIN_FAULT n = ((ins n).discFault || (Tab.get restIn t.safe.inputs n).tpA.isSome || (Tab.get restIn t.safe.inputs n).tpB.isSome) ∧
        t.bit Fld.SIN_RUN n = (s.bit Fld.SIN_RUN n && !t.bit Fld.SIN_FAULT n)) ∧
      (fails = true → t.rd Fld.SAFE_STATUS_LOCKED = 1 ∧ hasBit (t.rd Fld.SAFE_CAUSE_LATCHED) 4 = true ∧
        t.rd Fld.SOUT_STATE_ON = (if standHalt s then s.rd Fld.SOUT_STATE_ON else 0) ∧
        (s.rd Fld.SAFE_STATUS_LOCKED = 0 → t.rd Fld.SAFE_STATUS_FIRST_CAUSE = 4 ∧ t.rd Fld.SAFE_EVENTS_LOCK_EV = 1)) ∧
      (fails = false → t.reg Reg.SAFE_STATUS = s.reg Reg.SAFE_STATUS ∧ t.reg Reg.SOUT_STATE = s.reg Reg.SOUT_STATE ∧ t.safe.arisen = s.safe.arisen) ∧
      t.safe.pulsed = some k.val ∧
      t = { s with cycle := s.cycle + 1, regs := t.regs, log := t.log, perf := t.perf, out := t.out,
                   safe := { s.safe with inputs := t.safe.inputs, pulsed := t.safe.pulsed, arisen := t.safe.arisen } } ∧
      RegsKeptBut (fun a => lockReg a || [Reg.SIN_FAULT, Reg.SIN_RUN, Reg.SIN_DEMAND_EV].contains a) s t) ∧
  (∀ (s : State), 3 ≤ s.safe.sinceWrite → (s.bit Fld.SAFE_CAUSE_LATCHED 10 = false ∨ s.rd Fld.SAFE_STATUS_SEQ_RUN = 1) →
    Does .seqWdog s fun t => t.rd Fld.SAFE_STATUS_SEQ_RUN = 0 ∧ LockedOut 10 s t ∧
      t = { s with cycle := s.cycle + 1, regs := t.regs, log := t.log, perf := t.perf, out := t.out, safe := { s.safe with arisen := t.safe.arisen } } ∧
      RegsKeptBut lockReg s t) ∧
  (∀ (s : State) (n : Fin 16), s.rd (Fld.SOUT_CFG_EN n) = 1 → s.bit Fld.SOUT_FAULT_RB_FAIL n = false →
    max 1 (s.rd (Fld.SOUT_CFG_RB_T n)) * 100 < (Tab.get 0 s.safe.rbBad n - 1) * 20 →
    Does (.rbFail n) s fun t =>
      (∀ m, m < 16 → t.bit Fld.SOUT_FAULT_RB_FAIL m = (decide (m = n) || s.bit Fld.SOUT_FAULT_RB_FAIL m)) ∧ LockedOut 5 s t ∧
      t = { s with cycle := s.cycle + 1, regs := t.regs, log := t.log, perf := t.perf, out := t.out, safe := { s.safe with arisen := t.safe.arisen } } ∧
      RegsKeptBut (fun a => lockReg a || decide (a = Reg.SOUT_FAULT)) s t) ∧
  (∀ (s : State) (n : Fin 16) (rb : Bool), offPulseDue s n = true →
    Does (.offPulse n rb) s fun t =>
      (∀ m, m < 16 → t.bit Fld.SOUT_FAULT_OP_FAIL m = (if m = n then rb else s.bit Fld.SOUT_FAULT_OP_FAIL m)) ∧
      (rb = true → LockedOut 6 s t) ∧
      (rb = false → t.reg Reg.SOUT_STATE = s.reg Reg.SOUT_STATE ∧ t.log = s.log ∧ t.safe.arisen = s.safe.arisen) ∧
      Tab.get none t.safe.offAt n = some s.fn ∧ (∀ m, m < 16 → m ≠ n.val → Tab.get none t.safe.offAt m = Tab.get none s.safe.offAt m) ∧
      t = { s with cycle := s.cycle + 1, regs := t.regs, log := t.log, perf := t.perf, out := t.out,
                   safe := { s.safe with arisen := t.safe.arisen, offAt := t.safe.offAt } } ∧
      RegsKeptBut (fun a => lockReg a || decide (a = Reg.SOUT_FAULT)) s t) ∧
  (∀ (s : State) (k : Fin 64) (v : Word), accessFault s Reg.SAFE_CTRL = none → s.rd (Fld.CE_SESS_ROLE k) = 2 → s.rd (Fld.CE_SESS_PW_OK k) = 1 →
    s.clog.queue.length < 64 → v.getLsbD 31 = true →
    Does (.safeTrip (.session k) v) s fun t => LockedOut 2 s t ∧ t.bus = ⟨0#32, .done, .ok⟩ ∧ t.clog.queue.length = s.clog.queue.length + 1 ∧
      t = { s with cycle := s.cycle + 1, regs := t.regs, log := t.log, perf := t.perf, out := t.out, bus := t.bus, clog := t.clog,
                   safe := { s.safe with arisen := t.safe.arisen } } ∧
      RegsKeptBut (fun a => lockReg a || decide (a = Reg.CLOG_STATUS)) s t) ∧
  (∀ (s : State), s.safe.ackFall = true → s.ls.coreHeld = false → s.ls.coreHalted = false →
    let locked := s.rdB Fld.SAFE_STATUS_LOCKED
    let waits := s.rd Fld.SOUT_WAIT_WAIT_ACK
    let long := decide (100 * 50 ≤ s.safe.press ∧ s.safe.press ≤ 5000 * 50)
    let good := long && (if locked then s.safe.pressInLock else decide (s.safe.pressWait &&& waits ≠ 0))
    let judged := locked || decide (waits ≠ 0)
    let bars := pendingCauses s ||| (if s.safe.arisen.1 = s.fn then s.safe.arisen.2 else 0)
    let ends := judged && good && locked && decide (bars = 0)
    let lets := ends || (judged && good && !locked)
    Does .safeAckPress s fun t =>
      (judged = false → t.regs = s.regs ∧ t.log = s.log) ∧
      (judged = true → good = false → t.rd Fld.SAFE_EVENTS_ACK_REJ = 1 ∧ Logged 0x1A 4 (min 0xFFFF (s.safe.press / 50)) s t ∧
        RegsKept [Reg.SAFE_EVENTS, Reg.LOG_STATUS] s t) ∧
      (good = true → locked = true → ends = false → t.rd Fld.SAFE_EVENTS_ACK_REF = 1 ∧ Logged 0x1A 3 (lowestBit bars) s t ∧
        RegsKept [Reg.SAFE_EVENTS, Reg.LOG_STATUS] s t) ∧
      (ends = true → t.rd Fld.SAFE_STATUS_LOCKED = 0 ∧ t.rd Fld.SAFE_CAUSE_LATCHED = 0 ∧ t.rd Fld.SAFE_EVENTS_RELEASE_EV = 1 ∧
        t.rd Fld.SAFE_COUNT_RESETS = min (s.rd Fld.SAFE_COUNT_RESETS + 1) 0xFFFF ∧ AllSettled s t) ∧
      (lets = true → (∀ n, n < 16 → t.bit Fld.SOUT_WAIT_ALLOW n = outAllow t n ∧
          t.bit Fld.SOUT_WAIT_WAIT_ACK n = ((s.bit Fld.SOUT_WAIT_WAIT_ACK n && !((locked || hasBit s.safe.pressWait n) && outAllow t n)) ||
            (s.rdB (Fld.SOUT_CFG_RESTART n) && s.bit Fld.SOUT_STATE_ON n && s.bit Fld.SOUT_WAIT_ALLOW n && !outAllow t n)) ∧
          hasBit t.safe.image n = (s.rdB (Fld.SOUT_CFG_EN n) && outAllow t n && outRequest t n && !t.bit Fld.SOUT_WAIT_WAIT_ACK n)) ∧
        t.rd Fld.SAFE_STATUS_SEQ_RUN = 1 ∧ t.safe.sinceWrite = 0 ∧ t.ls.changes = s.ls.changes ++
          (if t.safe.image = s.safe.image then [] else [(Reg.SOUT_STATE, BitVec.ofNat 32 t.safe.image)])) ∧
      (lets = false → t.safe.image = s.safe.image ∧ t.safe.sinceWrite = s.safe.sinceWrite ∧ t.ls.changes = s.ls.changes) ∧
      (judged = true → good = true → locked = false → RegsKept [Reg.SOUT_WAIT, Reg.SAFE_STATUS] s t ∧
        BitsKept Reg.SAFE_STATUS [Fld.SAFE_STATUS_SEQ_RUN] s t) ∧
      t = { s with cycle := s.cycle + 1, regs := t.regs, log := t.log, perf := t.perf, out := t.out, ls := { s.ls with changes := t.ls.changes },
                   safe := { s.safe with ackFall := false, image := t.safe.image, sinceWrite := t.safe.sinceWrite } } ∧
      t.rd Fld.SOUT_STATE_ON = s.rd Fld.SOUT_STATE_ON ∧ RegsKeptBut lockReg s t) ∧
  (∀ (s : State), s.safe.ackFall = false ∨ s.ls.coreHeld = true ∨ s.ls.coreHalted = true →
    Does .safeAckPress s fun t => t = { s with cycle := s.cycle + 1 }) ∧
  (∀ (s : State), Does .pwBlockEnd s fun t =>
    t = { s with cycle := s.cycle + 1, safe := { s.safe with pwBlocked := if s.safe.pwLeft = 0 then false else s.safe.pwBlocked } })

/-- R540, R541, R546, R548, R555 to R557: A lane that goes down shows DOWN with the locks its cause takes away, and its port falls from UP, counted; one
that carries nothing loses its signal and locks alone; a
lane that aligns shows ALIGNED with its locks, and its port is UP once all its lanes are. A group without its port goes DOWN: neighbour invalid, queue
discarded, its span broken. NBR_ID goes out on a group that is UP or drowsing, and a received one of the expected node and RING_SIZE makes the
neighbour valid; another takes the group DOWN for 10 s, after which a group with its port UP is tried again. The lower end of a span whose conditions
have held for DROWSE_WIN proposes a drowse at Q, LEAVE_FRAMES ahead; the other end, where they have held too, agrees: the group is DROWSING, lanes 1
to 15 freeze and the span is broken, planned and drowsed. An acknowledged proposal does the same at the proposer; a refusal or 100 frames without a
reply end it. At Q the lanes go to electrical idle and have no signal. A wake request takes a drowsing or drowsed group to WAKING with its lanes
adapting, and with them aligned beside the sentinel it is UP; the lower end heals the span. -/
def Obligations.LanesAndDrowse : Prop :=
  (∀ (s : State) (l : Fin 128) (cause : Fin 16),
    let st := s.rd (Fld.RG_LANE_STATUS_STATE l)
    let acts := decide (s.rd (Fld.RG_LANE_CFG_EN l) = 1) && decide (st ≠ 0)
    let falls := acts && decide (st ≠ 4) && decide (st ≠ 5)
    let noSig := decide (cause = 1) || decide (cause = 4)
    Does (.laneDown l cause) s fun t =>
      (acts = false → t = { s with cycle := s.cycle + 1 }) ∧
      (acts = true → t.rd (Fld.RG_LANE_STATUS_STATE l) = (if falls then 5 else st) ∧
        t.rd (Fld.RG_LANE_STATUS_SIG l) = (if noSig then 0 else s.rd (Fld.RG_LANE_STATUS_SIG l)) ∧
        t.rd (Fld.RG_LANE_STATUS_AM_LOCK l) = (if noSig || decide (cause = 2) then 0 else s.rd (Fld.RG_LANE_STATUS_AM_LOCK l)) ∧
        t.rd (Fld.RG_LANE_STATUS_BLOCK_LOCK l) = (if noSig || decide (cause = 2) then 0 else s.rd (Fld.RG_LANE_STATUS_BLOCK_LOCK l))) ∧
      (acts = true → falls = false →
        t = { s with cycle := s.cycle + 1, regs := t.regs } ∧ RegsKept [Reg.RG_LANE_STATUS l, Reg.SYNCE_CFG] s t) ∧
      (falls = true → (∀ p, p < 128 → portOf s l = some p → portUp s p = true → portUp t p = false ∧ (t.pq p).queue = [] ∧
          t.rd (Fld.RG_PORT_STATUS_DOWNS p) = min (s.rd (Fld.RG_PORT_STATUS_DOWNS p) + 1) 0xFFFF)) ∧
      ((∀ g, g < 4 → groupState s g ≠ 6) → ∀ k, k < 128 → k ≠ l.val → t.reg (Reg.RG_LANE_STATUS k) = s.reg (Reg.RG_LANE_STATUS k))) ∧
  (∀ (s : State) (l : Fin 128),
    let st := s.rd (Fld.RG_LANE_STATUS_STATE l)
    let can := decide (s.rd (Fld.RG_LANE_CFG_EN l) = 1) && s.bit Fld.DOM_STATUS_ON (5 + l / 16) && s.bit Fld.CLK_STATUS_SD_LOCK (l / 32) &&
      decide (st ≠ 2) && decide (st ≠ 3) && decide (st ≠ 4)
    Does (.laneAligned l) s fun t =>
      (can = false → t = { s with cycle := s.cycle + 1 }) ∧
      (can = true → t.rd (Fld.RG_LANE_STATUS_STATE l) = 2 ∧ t.rd (Fld.RG_LANE_STATUS_SIG l) = 1 ∧ t.rd (Fld.RG_LANE_STATUS_BLOCK_LOCK l) = 1 ∧
        t.rd (Fld.RG_LANE_STATUS_AM_LOCK l) = 1 ∧
        (∀ p, p < 128 → portUp t p = (portUp s p || (decide (portOf s l = some p) &&
          (portLanes s p).all (fun k => decide (k = l.val) || s.rd (Fld.RG_LANE_STATUS_STATE k) == 2))))) ∧
      (∀ k, k < 128 → k ≠ l.val → t.reg (Reg.RG_LANE_STATUS k) = s.reg (Reg.RG_LANE_STATUS k)) ∧
      t = { s with cycle := s.cycle + 1, regs := t.regs, log := t.log, ctl := t.ctl }) ∧
  (∀ (s : State) (g : Fin 4) (cause : Fin 16), groupState s g = 3 ∨ groupState s g = 5 ∨ groupState s g = 7 → portUp s (groupPort g) = false →
    Does (.groupDown g cause) s fun t =>
      groupState t g = 4 ∧ t.rd (Fld.RG_GROUP_STATUS_NBR_VALID g) = 0 ∧ t.rd Fld.RG_RING_EVENTS_GROUP_DOWN_EV = 1 ∧ (t.pq (groupPort g)).queue = [] ∧
      (t.grp g).proposal = none ∧ (t.grp g).quiesce = none ∧ BreakHeld (g / 2) (spanOf s g) false false s t ∧
      (t.ins (g / 2)).breaks.all (fun b => b.span != spanOf s g || !b.planned || b.quick) = true ∧
      t.ring.seq = (s.ring.seq + 1) % 65536) ∧
  (∀ (s : State) (g : Fin 4) (cause : Fin 16),
    (groupState s g ≠ 3 ∧ groupState s g ≠ 5 ∧ groupState s g ≠ 7) ∨ portUp s (groupPort g) = true →
    Does (.groupDown g cause) s fun t => t = { s with cycle := s.cycle + 1 }) ∧
  (∀ (s : State) (g : Fin 4),
    let on := (decide (groupState s g = 3) || decide (5 ≤ groupState s g)) && decide (50000 ≤ (s.grp g).sent)
    Does (.nbrIdSend g) s fun t =>
      (on = true → (t.grp g).sent = 0 ∧ CellFor (.nbrId (s.rd Fld.RG_RING_CFG_NODE) (s.rd (insField (g / 2))) (s.rd Fld.RG_RING_CFG_RING_SIZE)) g s t) ∧
      (on = false → t = { s with cycle := s.cycle + 1 }) ∧
      t = { s with cycle := s.cycle + 1, regs := t.regs, log := t.log, ctl := t.ctl, ring := { s.ring with groups := t.ring.groups } } ∧
      RegsKeptBut cellReg s t) ∧
  (∀ (s : State) (g : Fin 4) (node : BitVec 10) (ins : Fin 8) (size : BitVec 10),
    let on := decide (groupState s g = 3) || decide (5 ≤ groupState s g)
    let right := decide (size.toNat = s.rd Fld.RG_RING_CFG_RING_SIZE ∧ node.toNat = expectedNode s g)
    Does (.nbrId g node ins size) s fun t =>
      (on = false → t = { s with cycle := s.cycle + 1 }) ∧
      (on = true → right = true → t.rd (Fld.RG_GROUP_STATUS_NBR_VALID g) = 1 ∧ t.rd (Fld.RG_GROUP_STATUS_NBR_NODE g) = node.toNat ∧
        (t.grp g).nbrIns = ins ∧ groupState t g = groupState s g ∧
        (s.rd (Fld.RG_GROUP_STATUS_NBR_VALID g) = 0 → Logged 0x20 2 (g + node.toNat * 65536) s t) ∧
        t = { s with cycle := s.cycle + 1, regs := t.regs, log := t.log, ring := t.ring } ∧ RegsKept [Reg.RG_GROUP_STATUS g, Reg.LOG_STATUS] s t) ∧
      (on = true → right = false → groupState t g = 4 ∧ t.rd (Fld.RG_GROUP_STATUS_NBR_VALID g) = 0 ∧ t.rd Fld.RG_RING_EVENTS_NBR_WRONG = 1 ∧
        (t.grp g).retry = 500000 ∧ BreakHeld (g / 2) (spanOf s g) false false s t)) ∧
  (∀ (s : State) (g : Fin 4),
    let again := decide (groupState s g = 4) && decide ((s.grp g).retry = 0) && portUp s (groupPort g)
    let ins := s.rd (insField (g / 2))
    Does (.nbrRetry g) s fun t =>
      groupState t g = (if again && decide (3 ≤ ins ∧ ins ≤ 5) then 3 else if again && decide (ins = 1 ∨ ins = 2) then 1 else groupState s g) ∧
      (groupState t g = 3 → groupState s g = 4 → t.rd (Fld.RG_GROUP_STATUS_NBR_VALID g) = 0 ∧
        CellFor (.nbrId (s.rd Fld.RG_RING_CFG_NODE) ins (s.rd Fld.RG_RING_CFG_RING_SIZE)) g s t) ∧
      t = { s with cycle := s.cycle + 1, regs := t.regs, log := t.log, ctl := t.ctl, ring := { s.ring with groups := t.ring.groups } } ∧
      RegsKeptBut (fun a => cellReg a || decide (a = Reg.RG_GROUP_STATUS g)) s t) ∧
  (∀ (s : State) (g : Fin 4), drowseOk s g = true → 50000 * s.rd Fld.RG_DROWSE_CFG_DROWSE_WIN ≤ (s.grp g).quiet → lowerEnd s g = true → (s.grp g).proposal = none →
    let q := (s.fn + s.rd Fld.RG_RING_TIMING_LEAVE_FRAMES) % 2 ^ 48
    Does (.drowsePropose g) s fun t =>
      t.grp g = { s.grp g with proposal := some (q, 0) } ∧ CellFor (.drowseReq (g / 2) q) g s t ∧ t.ring.ins = s.ring.ins ∧ RegsKeptBut cellReg s t ∧
      RingFrame s t) ∧
  (∀ (s : State) (g : Fin 4) (q : BitVec 48), groupState s g = 3 →
    let agreed : State → Prop := fun t =>
      groupState t g = 5 ∧ (∀ k, k < 15 → t.rd (Fld.RG_LANE_STATUS_STATE (16 * g + 1 + k)) = 3) ∧ (t.grp g).quiesce = some q.toNat ∧ (t.grp g).proposal = none ∧
      (t.ins (g / 2)).breaks.any (fun b => b.span == spanOf s g && b.planned && b.drowse) = true ∧ RingFrame s t
    ((s.grp g).proposal.any (fun p => p.1 == q.toNat) = true → Does (.drowseAck g q) s agreed) ∧
    (drowseOk s g = true → 50000 * s.rd Fld.RG_DROWSE_CFG_DROWSE_WIN ≤ (s.grp g).quiet → lowerEnd s g = false → Does (.drowseReq g q true) s agreed)) ∧
  (∀ (s : State) (g : Fin 4) (q : BitVec 48) (loadOk : Bool), groupState s g = 3 ∨ 5 ≤ groupState s g →
    drowseOk s g = false ∨ (s.grp g).quiet < 50000 * s.rd Fld.RG_DROWSE_CFG_DROWSE_WIN ∨ loadOk = false ∨ lowerEnd s g = true →
    Does (.drowseReq g q loadOk) s fun t =>
      CellFor (.drowseNak (g / 2) q.toNat (Config.freeValue s.freeIx)) g s t ∧ t.ring = s.ring ∧ RegsKeptBut cellReg s t ∧
      t = { s with cycle := s.cycle + 1, regs := t.regs, log := t.log, ctl := t.ctl, freeIx := s.freeIx + 1 }) ∧
  (∀ (s : State) (g : Fin 4), Does (.drowseNak g) s fun t =>
    t.grp g = { s.grp g with proposal := none, quiet := 0 } ∧ (∀ h, h < 4 → h ≠ g.val → t.grp h = s.grp h) ∧
    t = { s with cycle := s.cycle + 1, ring := { s.ring with groups := t.ring.groups } }) ∧
  (∀ (s : State) (g : Fin 4),
    let late := (s.grp g).proposal.any (fun p => decide (100 ≤ p.2))
    Does (.drowseReplyTimeout g) s fun t =>
      t.grp g = (if late then { s.grp g with proposal := none, quiet := 0 } else s.grp g) ∧ (∀ h, h < 4 → h ≠ g.val → t.grp h = s.grp h) ∧
      t = { s with cycle := s.cycle + 1, ring := { s.ring with groups := t.ring.groups } }) ∧
  (∀ (s : State) (g : Fin 4) (q : Nat), groupState s g = 5 → (s.grp g).quiesce = some q → fnReached q s.fn = true →
    Does (.drowseQuiesce g) s fun t =>
      groupState t g = 6 ∧ SideLanes g 4 s t ∧ (∀ k, k < 15 → t.rd (Fld.RG_LANE_STATUS_SIG (16 * g + 1 + k)) = 0) ∧ (t.grp g).quiesce = none ∧ t.rd Fld.RG_RING_EVENTS_DROWSE_EV = 1 ∧ Logged 0x20 0x0A (g + 512) s t ∧
      t.ring.ins = s.ring.ins ∧ t.ctl = s.ctl ∧ RingFrame s t) ∧
  (∀ (s : State) (g : Fin 4) (received : Bool),
    let sleeps := decide (groupState s g = 5) || decide (groupState s g = 6)
    Does (.wakeCell g received) s fun t =>
      (sleeps = true → groupState t g = 7 ∧ SideLanes g 1 s t ∧ (t.grp g).quiesce = none ∧ (if received then t.ctl = s.ctl else CellFor (.wake g) g s t)) ∧
      (sleeps = false → t.regs = s.regs ∧ t.log = s.log ∧ t.ctl = s.ctl) ∧ (t.grp g).proposal = none ∧ t.ring.ins = s.ring.ins ∧ RingFrame s t) ∧
  (∀ (s : State) (g : Fin 4), groupState s g = 7 → s.rd (Fld.RG_LANE_STATUS_STATE (16 * g)) = 2 →
    Does (.retrainDone g) s fun t =>
      groupState t g = 3 ∧ SideLanes g 2 s t ∧ t.ins (1 - g / 2) = s.ins (1 - g / 2) ∧
      (if lowerEnd s g then BreakHealed (g / 2) (spanOf s g) s t ∧ t.ring.seq = (s.ring.seq + 1) % 65536 else t.ring = s.ring ∧ t.ctl = s.ctl) ∧ RingFrame s t)

/-- R545, R548 to R551, R553, R554, R556, R562, R565: A received RING_BREAK enters its span in the break list and a RING_HEAL takes it out. After
HEAL_HOLD the lower end of a span heals it and floods RING_HEAL. A received INSERT_PLAN breaks the span it will cut, planned, and a LEAVE the two
spans beside the node. A command waits in RG_RING_CTRL for the frame tick, where the register reads 0 again: LEAVE takes the named rings that are IN to
LEAVING until frame N, where the hold is withdrawn; released for 10 ms, a ring is OUT; INSERT ends a backoff, and WAKE wakes the named groups. The
insertion of a ring, step by step: OUT without backoff and with the conditions of
LOOP_TEST goes into it; the test, passed, leads the first ring to HOLD_WAIT, while the second waits for its planned insertion; failed, to OUT with a
backoff of 10 s. 10 ms after the first edge the ring is JOINING, and with valid neighbours IN; without, or with both groups down for 500 ms later, it
bypasses itself, with a backoff that doubles up to 320 s and leads back to OUT. -/
def Obligations.RingBreaksAndInsertion : Prop :=
  (∀ (s : State) (r : Fin 2) (span : BitVec 10) (planned drowse : Bool),
    Does (.ringBreak r span planned drowse) s fun t => BreakHeld r span.toNat planned drowse s t ∧ RingFrame s t) ∧
  (∀ (s : State) (r : Fin 2) (span : BitVec 10),
    Does (.ringHeal r span) s fun t =>
      BreakHealed r span.toNat s t ∧ t.ins (1 - r) = s.ins (1 - r) ∧ ((s.ins r).breaks.length ≤ 16 → Logged 0x20 8 (r + span.toNat * 65536) s t) ∧
      t.ctl = s.ctl ∧ RingFrame s t) ∧
  (∀ (s : State) (g : Fin 4),
    let span := spanOf s g
    let b := (s.ins (g / 2)).breaks.find? (fun b => b.span == span)
    let due := groupValid s g && lowerEnd s g && b.any (fun b => b.quick || decide (50 * s.rd Fld.RG_RING_TIMING_HEAL_HOLD ≤ b.up))
    Does (.healHoldEnd g) s fun t =>
      (due = true → BreakHealed (g / 2) span s t ∧ t.ring.seq = (s.ring.seq + 1) % 65536 ∧
        (∀ h, h < 4 → if groupState s h = 3 then Queues (.ringHeal (g / 2) span s.ring.seq) h s t else t.cq h = s.cq h)) ∧
      (due = false → t = { s with cycle := s.cycle + 1 }) ∧ RingFrame s t) ∧
  (∀ (s : State) (g : Fin 4) (r : Fin 2),
    Does (.insertPlan g r) s fun t =>
      BreakHeld r (spanOf s (2 * r + g % 2)) true false s t ∧ t.ring.seq = (s.ring.seq + 1) % 65536 ∧ RingFrame s t) ∧
  (∀ (s : State) (i : Initiator) (x : BitVec 4), Reaches s i Reg.RG_RING_CTRL → mayWrite s i Reg.RG_RING_CTRL = true →
    let waits : Nat → State → Prop := fun cmd t =>
      t.rd Fld.RG_RING_CTRL_CMD = cmd ∧ t.rd Fld.RG_RING_CTRL_TARGET = x.toNat ∧ BitsKept Reg.RG_RING_CTRL [Fld.RG_RING_CTRL_CMD, Fld.RG_RING_CTRL_TARGET] s t ∧
      t = { s with cycle := s.cycle + 1, regs := t.regs, bus := ⟨0#32, .done, .ok⟩ } ∧ RegsKept [Reg.RG_RING_CTRL] s t
    Does (.leave i x) s (waits 1) ∧ Does (.insert i x) s (waits 2) ∧ Does (.wake i x) s (waits 3)) ∧
  (∀ (s : State) (sinA sinB : BitVec 32) (srb : BitVec 16) (ack : Bool), s.mainOn = true → s.ring.forwarding = true → s.ring.arrived = [] →
    let cmd := s.rd Fld.RG_RING_CTRL_CMD
    let named := hasBit (s.rd Fld.RG_RING_CTRL_TARGET)
    Does (.frameTick sinA sinB srb ack) s fun t =>
      t.rd Fld.RG_RING_CTRL_CMD = 0 ∧
      (cmd = 1 → ∀ r, r < 2 → named r = true → s.rd (insField r) = 4 →
        t.rd (insField r) = 5 ∧ t.rdB (holdReqField r) = true ∧ (t.ins r).leaveAt = some ((t.fn + s.rd Fld.RG_RING_TIMING_LEAVE_FRAMES) % 2 ^ 48)) ∧
      (cmd = 2 → ∀ r, r < 2 → named r = true → (t.ins r).backoff = 0) ∧
      (cmd = 3 → ∀ g, g < 4 → named g = true → groupState s g = 5 ∨ groupState s g = 6 → groupState t g = 7)) ∧
  (∀ (s : State) (g : Fin 4) (rings : BitVec 2),
    let node := s.rd (Fld.RG_GROUP_STATUS_NBR_NODE g)
    Does (.leaveCell g rings) s fun t =>
      (∀ r, r < 2 → rings.getLsbD r = true → (t.ins r).left.contains node = true ∧
        [(node + ringSize s - 1) % ringSize s, node].all (fun x => (t.ins r).breaks.any (fun b => b.span == x && b.planned)) = true) ∧
      (∀ r, r < 2 → rings.getLsbD r = false → t.ins r = s.ins r) ∧ RingFrame s t) ∧
  (∀ (s : State), s.ring.reset = none →
    Does .leaveAtN s fun t =>
      (∀ r, r < 2 → if s.rd (insField r) = 5 ∧ (s.ins r).leaveAt.any (fun n => fnReached n s.fn) = true
        then t.rdB (holdReqField r) = false ∧ t.ins r = { s.ins r with leaveAt := none }
        else t.rdB (holdReqField r) = s.rdB (holdReqField r) ∧ t.ins r = s.ins r) ∧
      t = { s with cycle := s.cycle + 1, regs := t.regs, ring := { s.ring with ins := t.ring.ins } } ∧ RegsKept [Reg.RG_RING_STATUS] s t) ∧
  (∀ (s : State) (r : Fin 2),
    let out := decide (s.rd (insField r) = 5) && !s.rdB (holdReqField r) && !s.rdB (holdField r) && decide (500 ≤ (s.ins r).since)
    Does (.releaseCounted r) s fun t =>
      (out = true → RingIn r 0 t ∧ groupState t (2 * r) = 0 ∧ groupState t (2 * r + 1) = 0 ∧ OtherRingKept r s t) ∧
      (out = false → t = { s with cycle := s.cycle + 1 }) ∧ t.log = s.log ∧ t.ctl = s.ctl ∧ RingFrame s t) ∧
  (∀ (s : State) (r : Fin 2), s.rd (insField r) = 0 → (s.ins r).backoff = 0 → ringUsed s r = true → s.rd Fld.SCHED_CFG_TICK_RUN = 1 →
    s.bit Fld.DOM_STATUS_ON (5 + 2 * r) = true → s.bit Fld.DOM_STATUS_ON (6 + 2 * r) = true → s.ring.forwarding = true → s.rd Fld.PWR_STATE_STATE ≤ 2 →
    Does (.loopTestStart r) s fun t =>
      RingIn r 1 t ∧ (t.ins r).passed = false ∧ (t.ins r).planAt = (s.ins r).planAt ∧ (t.ins r).up = 0 ∧
      (∀ g ∈ ringGroups r, groupState t g = (if portUp s (groupPort g) then 1 else groupState s g)) ∧ OtherRingKept r s t ∧ t.log = s.log ∧ t.ctl = s.ctl ∧
      RingFrame s t) ∧
  (∀ (s : State) (r : Fin 2) (corr uncorr : Nat), s.rd (insField r) = 1 →
    (s.ins r).passed = true ∨ s.rdB (loopFitField r) = false ∨ (1000 ≤ (s.ins r).up ∧ corr < 1024 ∧ uncorr = 0) →
    let second := ringUsed s (1 - r) && decide (s.rd (insField (1 - r)) = 4)
    Does (.loopTestPass r corr uncorr) s fun t =>
      (t.ins r).passed = true ∧ t.rd (insField r) = (if !second && decide (firstRing s = r) then 2 else 1) ∧
      (t.ins r).planAt = (if second then some ((s.ins r).planAt.getD ((s.fn + s.rd Fld.RG_RING_TIMING_LEAVE_FRAMES) % 2 ^ 48))
        else if firstRing s = r then none else (s.ins r).planAt) ∧
      (t.rd (insField r) = 2 → RingIn r 2 t) ∧ OtherRingKept r s t ∧ RingFrame s t) ∧
  (∀ (s : State) (r : Fin 2) (lane : Fin 128) (corr uncorr : Nat), s.rd (insField r) = 1 → s.rdB (loopFitField r) = true →
    1024 ≤ corr ∨ 0 < uncorr ∨ ((ringGroups r).all (fun g => portUp s (groupPort g)) = false ∧ (10000 ≤ (s.ins r).since ∨ (s.ins r).passed = true)) →
    Does (.loopFail r lane corr uncorr) s fun t =>
      RingIn r 0 t ∧ (t.ins r).backoff = 500000 ∧ (t.ins r).planAt = (s.ins r).planAt ∧ groupState t (2 * r) = 0 ∧ groupState t (2 * r + 1) = 0 ∧
      t.rd Fld.RG_RING_EVENTS_LOOP_FAIL_EV = 1 ∧ Logged 0x20 3 (r + 256 * lane) s t ∧ OtherRingKept r s t ∧ RingFrame s t) ∧
  (∀ (s : State) (r : Fin 2), s.rd (insField r) = 2 → s.rdB (holdField r) = true → 500 ≤ (s.ins r).since →
    Does (.joinStart r) s fun t =>
      RingIn r 3 t ∧ (∀ g ∈ ringGroups r, groupState t g = (if portUp s (groupPort g) then (if (s.grp g).retry = 0 then 3 else groupState s g) else 2)) ∧
      OtherRingKept r s t ∧ RingFrame s t) ∧
  (∀ (s : State) (r : Fin 2), s.rd (insField r) = 3 → groupValid s (2 * r) = true ∨ groupValid s (2 * r + 1) = true →
    (groupValid s (2 * r) = true ∧ groupValid s (2 * r + 1) = true) ∨ 25000 ≤ (s.ins r).since →
    let plan := ringUsed s (1 - r) && decide (s.rd (insField (1 - r)) ≠ 4) && (s.ins (1 - r)).planAt.isNone
    Does (.inserted r) s fun t =>
      RingIn r 4 t ∧ (t.ins r).bypasses = 0 ∧ (t.ins r).backoff = 0 ∧ t.rd Fld.RG_RING_EVENTS_INSERTED_EV = 1 ∧
      t.ins (1 - r) = (if plan then { s.ins (1 - r) with planAt := some ((s.fn + s.rd Fld.RG_RING_TIMING_LEAVE_FRAMES) % 2 ^ 48) } else s.ins (1 - r)) ∧
      (plan = false → Logged 0x20 4 r s t) ∧ RingFrame s t) ∧
  (∀ (s : State) (r : Fin 2),
    let n := (s.ins r).bypasses + 1
    let bypassed : State → Prop := fun t =>
      RingIn r 6 t ∧ (t.ins r).bypasses = n ∧ (t.ins r).backoff = min 16000000 (500000 * 2 ^ (min n 6 - 1)) ∧ (t.ins r).planAt = none ∧
      groupState t (2 * r) = 0 ∧ groupState t (2 * r + 1) = 0 ∧ t.rd Fld.RG_RING_EVENTS_SELF_BYPASS_EV = 1 ∧
      t.ring.swapFirst = (if firstRing s = r ∧ n % 2 = 0 then !s.ring.swapFirst else s.ring.swapFirst) ∧ Logged 0x20 5 (r + 256 * min n 255) s t ∧
      OtherRingKept r s t ∧ RingFrame s t
    (s.rd (insField r) = 3 → 25000 ≤ (s.ins r).since → groupValid s (2 * r) = false → groupValid s (2 * r + 1) = false →
      Does (.joinTimeout r) s bypassed) ∧
    (s.rd (insField r) = 4 → 25000 ≤ (s.ins r).down → Does (.selfBypass r) s bypassed)) ∧
  (∀ (s : State) (r : Fin 2), s.rd (insField r) = 6 → (s.ins r).backoff = 0 →
    Does (.backoffEnd r) s fun t => RingIn r 0 t ∧ OtherRingKept r s t ∧ RegsKept [Reg.RG_RING_STATUS] s t ∧ RingFrame s t) ∧
  (∀ (s : State) (r : Fin 2) (n : Nat), s.rd (insField r) = 1 → (s.ins r).passed = true → (s.ins r).planAt = some n → fnReached n s.fn = true →
    Does (.plannedInsert r) s fun t => RingIn r 2 t ∧ (t.ins r).planAt = none ∧ OtherRingKept r s t ∧ RegsKept [Reg.RG_RING_STATUS] s t ∧ RingFrame s t)

/-- R572, R583, R584, R601, R602: WRITE, READ and DELETE act on the entry of PQ_FDB_KEY in the inactive bank, with ACC_OK; WRITE, DELETE and COPY are
refused while a swap is armed or a copy runs, with WR_REF. A copy leaves the inactive bank as the active one. ARM_AT arms a swap 2 to 2^47 - 1 frames
ahead, DISARM ends it; at F the banks change places, SWAP_DONE, unless forwarding is stopped. A learned entry without a hit for AGE_TIME leaves both
banks. -/
def Obligations.ForwardingTable : Prop :=
  (∀ (s : State) (p : Fin 64) (mac : BitVec 48) (b : Fin 2),
    let k := fdbKey p mac.toNat
    let life := 50000 * s.rd Fld.PQ_FDB_CFG_AGE_TIME
    let old := (fdbGet s b k).any (fun e => !e.static && decide (0 < life ∧ life ≤ fnDiff s.fn e.hitAt))
    Does (.fdbAge p mac) s fun t =>
      fdbGet t b k = (if old then none else fdbGet s b k) ∧ (t.bank b).keep (fun j => j != k) = (s.bank b).keep (fun j => j != k) ∧
      t = { s with cycle := s.cycle + 1, plots := { s.plots with bank0 := t.plots.bank0, bank1 := t.plots.bank1 } }) ∧
  (∀ (s : State) (i : Initiator), Reaches s i Reg.PQ_FDB_CTRL → mayWrite s i Reg.PQ_FDB_CTRL = true → s.plots.armedAt = none →
    s.rd Fld.PQ_FDB_STATUS_COPY_BUSY = 0 →
    let k := accessKey s
    let b := idleBank s
    let e : FdbEntry := ⟨s.rdB Fld.PQ_FDB_RES_STATIC, s.rd Fld.PQ_FDB_RES_TYPE, s.rd Fld.PQ_FDB_RES_NODE, s.rd Fld.PQ_FDB_RES_PORT, s.fn⟩
    let clear := decide (s.rd Fld.PQ_FDB_RES_VALID = 0)
    let ok := clear || (decide (e.type ≠ 3) && ((fdbGet s b k).isSome || !bucketFull s b k))
    Does (.fdbWrite i) s fun t =>
      fdbGet t b k = (if clear then none else if ok then some e else fdbGet s b k) ∧ t.rdB Fld.PQ_FDB_STATUS_ACC_OK = ok ∧
      (t.bank b).keep (fun j => j != k) = (s.bank b).keep (fun j => j != k) ∧ t.bank (1 - b) = s.bank (1 - b) ∧
      t = { s with cycle := s.cycle + 1, regs := t.regs, bus := ⟨0#32, .done, .ok⟩,
                   plots := { s.plots with bank0 := t.plots.bank0, bank1 := t.plots.bank1 } } ∧
      BitsKept Reg.PQ_FDB_STATUS [Fld.PQ_FDB_STATUS_ACC_OK] s t ∧ RegsKept [Reg.PQ_FDB_STATUS] s t) ∧
  (∀ (s : State) (i : Initiator), Reaches s i Reg.PQ_FDB_CTRL → mayWrite s i Reg.PQ_FDB_CTRL = true →
    let e := fdbGet s (idleBank s) (accessKey s)
    Does (.fdbRead i) s fun t =>
      t.rdB Fld.PQ_FDB_STATUS_ACC_OK = e.isSome ∧ (e.isNone = true → t.reg Reg.PQ_FDB_RES = 0#32) ∧
      (∀ x ∈ e.toList, t.rd Fld.PQ_FDB_RES_VALID = 1 ∧ t.rdB Fld.PQ_FDB_RES_STATIC = x.static ∧ t.rd Fld.PQ_FDB_RES_TYPE = x.type % 4 ∧
        t.rd Fld.PQ_FDB_RES_NODE = x.node % 2 ^ 10 ∧ t.rd Fld.PQ_FDB_RES_PORT = x.port % 2 ^ 7) ∧
      t = { s with cycle := s.cycle + 1, regs := t.regs, bus := ⟨0#32, .done, .ok⟩ } ∧ RegsKept [Reg.PQ_FDB_STATUS, Reg.PQ_FDB_RES] s t) ∧
  (∀ (s : State) (i : Initiator), Reaches s i Reg.PQ_FDB_CTRL → mayWrite s i Reg.PQ_FDB_CTRL = true → s.plots.armedAt = none →
    s.rd Fld.PQ_FDB_STATUS_COPY_BUSY = 0 →
    let k := accessKey s
    let b := idleBank s
    Does (.fdbDelete i) s fun t =>
      fdbGet t b k = none ∧ t.rdB Fld.PQ_FDB_STATUS_ACC_OK = (fdbGet s b k).isSome ∧
      (t.bank b).keep (fun j => j != k) = (s.bank b).keep (fun j => j != k) ∧ t.bank (1 - b) = s.bank (1 - b) ∧
      t = { s with cycle := s.cycle + 1, regs := t.regs, bus := ⟨0#32, .done, .ok⟩,
                   plots := { s.plots with bank0 := t.plots.bank0, bank1 := t.plots.bank1 } } ∧ RegsKept [Reg.PQ_FDB_STATUS] s t) ∧
  (∀ (s : State) (i : Initiator), Reaches s i Reg.PQ_FDB_CTRL → mayWrite s i Reg.PQ_FDB_CTRL = true →
    s.plots.armedAt ≠ none ∨ s.rd Fld.PQ_FDB_STATUS_COPY_BUSY = 1 →
    let refused : State → Prop := fun t =>
      t.rd Fld.PQ_FDB_STATUS_WR_REF = 1 ∧ t.rd Fld.PQ_FDB_STATUS_ACC_OK = 0 ∧ Logged 0x21 6 0 s t ∧
      t = { s with cycle := s.cycle + 1, regs := t.regs, log := t.log, bus := ⟨0#32, .done, .ok⟩ } ∧ RegsKept [Reg.PQ_FDB_STATUS, Reg.LOG_STATUS] s t
    Does (.fdbWrite i) s refused ∧ Does (.fdbDelete i) s refused ∧ Does (.fdbCopy i) s refused) ∧
  (∀ (s : State) (i : Initiator), Reaches s i Reg.PQ_FDB_CTRL → mayWrite s i Reg.PQ_FDB_CTRL = true →
    let f := s.rd Fld.PQ_FDB_AT_LO + 2 ^ 32 * s.rd Fld.PQ_FDB_AT_HI
    let ahead := decide (2 ≤ fnDiff f s.fn ∧ fnDiff f s.fn < 2 ^ 47)
    let ok := s.plots.armedAt.isNone && ahead
    Does (.fdbArmAt i) s fun t =>
      t.plots = (if ok then { s.plots with armedAt := some f } else s.plots) ∧
      t.rd Fld.PQ_FDB_STATUS_ARMED = (if ok then 1 else s.rd Fld.PQ_FDB_STATUS_ARMED) ∧
      t.bus.status = (if ahead then (if ok then .ok else .stateConflict) else .badArg) ∧
      t = { s with cycle := s.cycle + 1, regs := t.regs, bus := t.bus, plots := t.plots } ∧ RegsKept [Reg.PQ_FDB_STATUS] s t) ∧
  (∀ (s : State) (i : Initiator), Reaches s i Reg.PQ_FDB_CTRL → mayWrite s i Reg.PQ_FDB_CTRL = true →
    Does (.fdbDisarm i) s fun t =>
      t.plots = { s.plots with armedAt := none } ∧ t.rd Fld.PQ_FDB_STATUS_ARMED = 0 ∧
      t = { s with cycle := s.cycle + 1, regs := t.regs, bus := ⟨0#32, .done, .ok⟩, plots := t.plots } ∧ RegsKept [Reg.PQ_FDB_STATUS] s t) ∧
  (∀ (s : State) (i : Initiator), Reaches s i Reg.PQ_FDB_CTRL → mayWrite s i Reg.PQ_FDB_CTRL = true → s.plots.armedAt = none →
    s.rd Fld.PQ_FDB_STATUS_COPY_BUSY = 0 →
    Does (.fdbCopy i) s fun t =>
      t.rd Fld.PQ_FDB_STATUS_COPY_BUSY = 1 ∧ t = { s with cycle := s.cycle + 1, regs := t.regs, bus := ⟨0#32, .done, .ok⟩ } ∧
      BitsKept Reg.PQ_FDB_STATUS [Fld.PQ_FDB_STATUS_COPY_BUSY] s t ∧ RegsKept [Reg.PQ_FDB_STATUS] s t) ∧
  (∀ (s : State), s.rd Fld.PQ_FDB_STATUS_COPY_BUSY = 1 →
    Does .fdbCopyDone s fun t =>
      t.bank (idleBank s) = s.bank (actBank s) ∧ t.bank (actBank s) = s.bank (actBank s) ∧ t.rd Fld.PQ_FDB_STATUS_COPY_BUSY = 0 ∧
      t = { s with cycle := s.cycle + 1, regs := t.regs, plots := { s.plots with bank0 := t.plots.bank0, bank1 := t.plots.bank1 } } ∧
      RegsKept [Reg.PQ_FDB_STATUS] s t) ∧
  (∀ (s : State), s.plots.armedAt = some s.fn → activatesNow s = false →
    Does .fdbSwap s fun t =>
      (if s.ring.forwarding then t.rd Fld.PQ_FDB_STATUS_ACT_BANK = 1 - s.rd Fld.PQ_FDB_STATUS_ACT_BANK ∧ t.rd Fld.PQ_FDB_STATUS_SWAP_DONE = 1 ∧
          Logged 0x21 4 (idleBank s) s t
       else t.rd Fld.PQ_FDB_STATUS_ACT_BANK = s.rd Fld.PQ_FDB_STATUS_ACT_BANK ∧ t.rd Fld.PQ_FDB_STATUS_SWAP_DISC = 1 ∧ Logged 0x21 5 3 s t) ∧
      t.rd Fld.PQ_FDB_STATUS_ARMED = 0 ∧ t.plots = { s.plots with armedAt := none } ∧
      t = { s with cycle := s.cycle + 1, regs := t.regs, log := t.log, plots := t.plots } ∧ RegsKept [Reg.PQ_FDB_STATUS, Reg.LOG_STATUS] s t)

/-- R567 to R577, R594, R599: a frame at an access port is counted; one of a used, unquenched plot without policer whose address is found at another port
of the plot joins that port's queue, and its cells the plot's use. A frame on a ring group for another node goes on with one hop less; for this node,
as management, to the host; an unknown or invalid one is dropped. A policer word waits for the frame tick. An SA that comes or goes shows in SA_UP. The
plot commands that have arrived are due at the frame tick; one that is due takes effect. -/
def Obligations.PlotFrames : Prop :=
  (∀ (s : State) (l : Fin 128) (tag : Option (BitVec 3)) (da sa : BitVec 48) (len : Nat) (e : FdbEntry), s.ring.forwarding = true →
    portUp s l = true → s.rd (Fld.RG_PORT_CFG_RING l) = 0 → s.rd (Fld.PQ_PORT_MAP_ROLE l) = 1 → s.rd (Fld.PQ_PORT_MAP_SHUT l) = 0 →
    64 ≤ len → len ≤ 9174 → len ≤ s.rd (Fld.RG_PORT_CFG_MTU l) →
    let p := s.rd (Fld.PQ_PORT_MAP_PLOT l)
    let f : Frame := { plot := some p, cls := classOf s l (tag.map BitVec.toNat), yellow := false, da := da.toNat, sa := sa.toNat, len := len }
    s.rd (Fld.PQ_PLOT_CFG_EN p) = 1 → s.rd (Fld.PQ_PLOT_STATUS_QUENCHED p) = 0 → s.rd (Fld.PQ_PLOT_STATUS_THROTTLED p) = 0 →
    s.rd (Fld.PQ_PLOT_CFG_LEARN p) = 0 → polRate s p f.cls = (0, 0) → groupMac da.toNat = false → fdbGet s (actBank s) (fdbKey p da.toNat) = some e →
    e.type = 0 → (plotPorts s p).contains e.port = true → poolAdmits s f = true →
    Does (.tenantFrame l tag da sa len) s fun t =>
      (t.pq e.port).queue = (s.pq e.port).queue ++ [⟨s.plots.nextBuf, f, none⟩] ∧ (∀ q, q < 128 → q ≠ e.port → t.pq q = s.pq q) ∧
      t.rd (Fld.PQ_PLOT_USE_BUF_USE p) = (s.rd (Fld.PQ_PLOT_USE_BUF_USE p) + (len + 255) / 256) % 2 ^ 20 ∧
      t.wide (Reg.PCN_RX_FRAMES_LO l) = (s.wide (Reg.PCN_RX_FRAMES_LO l) + 1) % 2 ^ 64 ∧
      t.wide (Reg.PCN_RX_BYTES_LO l) = (s.wide (Reg.PCN_RX_BYTES_LO l) + len) % 2 ^ 64 ∧
      t = { s with cycle := s.cycle + 1, regs := t.regs, perf := t.perf, plots := t.plots } ∧ RegsKept [Reg.PQ_PLOT_USE p, Reg.PQ_PLOT_STATUS p] s t) ∧
  (∀ (s : State) (l : Fin 128) (tag : Option (BitVec 3)) (da sa : BitVec 48) (len : Nat),
    let on := s.ring.forwarding && portUp s l && decide (s.rd (Fld.RG_PORT_CFG_RING l) = 0)
    let role := s.rd (Fld.PQ_PORT_MAP_ROLE l)
    on = false ∨ role = 0 ∨ role = 3 ∨ s.rd (Fld.PQ_PORT_MAP_SHUT l) = 1 ∨ len < 64 ∨ 9174 < len ∨ s.rd (Fld.RG_PORT_CFG_MTU l) < len →
    Does (.tenantFrame l tag da sa len) s fun t =>
      (on = false → t = { s with cycle := s.cycle + 1 }) ∧
      (on = true → t.wide (Reg.PCN_RX_DROPS_LO l) = (s.wide (Reg.PCN_RX_DROPS_LO l) + 1) % 2 ^ 64) ∧
      t = { s with cycle := s.cycle + 1, perf := { s.perf with wide := t.perf.wide } }) ∧
  (∀ (s : State) (g : Fin 4) (vid : BitVec 12) (pcp : BitVec 3) (dei : Bool) (dst src hops : BitVec 10) (secOk : Bool) (da sa : BitVec 48) (len frags : Nat),
    s.ring.forwarding = true → groupState s g = 3 → 64 ≤ len → len ≤ 9174 → secOk = true → 0x100 ≤ vid.toNat → vid.toNat < 0x140 →
    let p := vid.toNat - 0x100
    let out := 16 * (2 * (g.val / 2) + (1 - g.val % 2))
    let f : Frame := { plot := some p, cls := min 5 pcp.toNat, yellow := dei, da := da.toNat, sa := sa.toNat, len := len }
    s.rd (Fld.PQ_PLOT_CFG_EN p) = 1 → s.rd (Fld.PQ_PLOT_STATUS_QUENCHED p) = 0 → dst.toNat ≠ nodeNo s → dst.toNat ≠ 0x3FF → 1 < hops.toNat →
    groupState s (out / 16) = 3 → poolAdmits s f = true →
    Does (.ringFrame g vid pcp dei dst src hops secOk da sa len frags) s fun t =>
      (t.pq out).queue = (s.pq out).queue ++ [⟨s.plots.nextBuf, f, some ⟨dst.toNat, src.toNat, hops.toNat - 1⟩⟩] ∧ (∀ q, q < 128 → q ≠ out → t.pq q = s.pq q) ∧
      t.wide (Reg.PCN_RX_FRAMES_LO (16 * g)) = (s.wide (Reg.PCN_RX_FRAMES_LO (16 * g)) + 1) % 2 ^ 64 ∧
      t = { s with cycle := s.cycle + 1, regs := t.regs, perf := t.perf, plots := t.plots } ∧ RegsKept [Reg.PQ_PLOT_USE p, Reg.PQ_PLOT_STATUS p] s t) ∧
  (∀ (s : State) (g : Fin 4) (vid : BitVec 12) (pcp : BitVec 3) (dei : Bool) (dst src hops : BitVec 10) (secOk : Bool) (da sa : BitVec 48) (len frags : Nat),
    s.ring.forwarding = true → groupState s g = 3 → len ≤ 9174 →
    let mine := decide (vid.toNat = 0xFF) && secOk && decide (dst.toNat = nodeNo s) && decide (22 ≤ len)
    mine = true ∨ len < 22 ∨ (vid.toNat ≠ 0xFF ∧ (vid.toNat < 0x100 ∨ 0x140 ≤ vid.toNat)) →
    Does (.ringFrame g vid pcp dei dst src hops secOk da sa len frags) s fun t =>
      t.out = s.out ++ (if mine then [Out.host { plot := none, cls := 6, yellow := false, da := da.toNat, sa := sa.toNat, len := len }] else []) ∧
      t.wide (Reg.PCN_RX_DROPS_LO (16 * g)) = (s.wide (Reg.PCN_RX_DROPS_LO (16 * g)) + (if mine then 0 else 1)) % 2 ^ 64 ∧
      t = { s with cycle := s.cycle + 1, perf := { s.perf with wide := t.perf.wide }, out := t.out }) ∧
  (∀ (s : State) (i : Initiator) (p : Fin 64) (c : Fin 6) (burst : Bool) (v : Word),
    let a := if burst then Reg.PQ_POL_BURST p c else Reg.PQ_POL_RATE p c
    Reaches s i a → mayWrite s i a = true → sessionOf [1] s i = true →
    Does (.policerUpdate i p c burst v) s fun t =>
      t.reg a = v ∧ polWords t p c = polWords s p c ∧
      t = { s with cycle := s.cycle + 1, regs := t.regs, bus := ⟨0#32, .done, .ok⟩, plots := { s.plots with polHeld := t.plots.polHeld } } ∧
      RegsKept [a] s t) ∧
  (∀ (s : State) (plot : Fin 64) (g : Fin 4) (up : Bool),
    let falls := !up && s.bit (Fld.PQ_PLOT_STATUS_SA_UP plot) g
    Does (.saStateChange (plot.castSucc) g up) s fun t =>
      (∀ h, h < 4 → t.bit (Fld.PQ_PLOT_STATUS_SA_UP plot) h = (if h = g.val then up else s.bit (Fld.PQ_PLOT_STATUS_SA_UP plot) h)) ∧
      (falls = true → Logged 0x21 7 (plot + 256 * g) s t) ∧ (falls = false → t.log = s.log) ∧
      t = { s with cycle := s.cycle + 1, regs := t.regs, log := t.log } ∧ RegsKept [Reg.PQ_PLOT_STATUS plot, Reg.LOG_STATUS] s t) ∧
  (∀ (s : State) (g : Fin 4) (up : Bool),
    (sessionsValid s).all (fun k => s.rd (Fld.CE_SESS_TRANSPORT k) != 1 || (s.sess k).port != groupPort g) = true →
    Does (.saStateChange (Fin.last 64) g up) s fun t =>
      (up = false → Logged 0x21 7 (63 + 256 * g) s t) ∧ (up = true → t.log = s.log) ∧ t = { s with cycle := s.cycle + 1, regs := t.regs, log := t.log } ∧
      RegsKept [Reg.LOG_STATUS] s t) ∧
  (∀ (s : State) (sinA sinB : BitVec 32) (srb : BitVec 16) (ack : Bool), s.mainOn = true →
    Does (.frameTick sinA sinB srb ack) s fun t => t.ctl.plotDue = s.ctl.plotDue ++ s.ctl.plotCmds ∧ t.ctl.plotCmds = []) ∧
  (∀ (s : State) (k : Fin 5) (x : Fin 64) (r : BitVec 16), s.ring.forwarding = true → s.ctl.plotDue = [⟨0x70 + k.val, x.val, r.toNat⟩] →
    Does .plotCommandEffect s fun t =>
      t.rd (Fld.PQ_PLOT_STATUS_QUENCHED x) = (if k = 0 then 1 else if k = 2 then 0 else s.rd (Fld.PQ_PLOT_STATUS_QUENCHED x)) ∧
      t.rd (Fld.PQ_PLOT_STATUS_THROTTLED x) = (if k = 1 then (if r = 0 then 0 else 1) else if k = 2 then 0 else s.rd (Fld.PQ_PLOT_STATUS_THROTTLED x)) ∧
      (k = 1 → t.rd (Fld.PQ_POL_RATE_CIR x 6) = r.toNat ∧ t.rd (Fld.PQ_POL_RATE_PIR x 6) = r.toNat ∧ t.rd (Fld.PQ_POL_BURST_CBS x 6) = (if r = 0 then 0 else 64)) ∧
      (k = 2 → ∀ c, c < 7 → polMiss t x c = (0, 0)) ∧
      t.rd (Fld.PQ_PORT_MAP_SHUT x) = (if k = 3 then 1 else if k = 4 then 0 else s.rd (Fld.PQ_PORT_MAP_SHUT x)) ∧ t.ctl = { s.ctl with plotDue := [] } ∧
      t = { s with cycle := s.cycle + 1, regs := t.regs, log := t.log, ctl := t.ctl,
                   plots := { s.plots with missing := t.plots.missing, polHeld := t.plots.polHeld } } ∧
      RegsKept [Reg.PQ_PLOT_STATUS x, Reg.PQ_POL_RATE x 6, Reg.PQ_POL_BURST x 6, Reg.PQ_PORT_MAP x, Reg.LOG_STATUS] s t)

/-- R545, R580, R587 to R591: a class-7 frame on a group that is UP or drowsing is counted, at most 320 in a frame; one whose check fails or whose TYPE is none
of the table counts as BAD, a replay as REPLAY, one of this node is ignored. An accepted unicast cell for another node goes on with one hop more. A
flooded RING_BREAK waits for the frame tick, but for a further copy of one seen within 64 frames, which is dropped (R545). An
insertion slot takes the planned cell, or the one of highest priority, with the frame number of now. -/
def Obligations.ControlCells : Prop :=
  (∀ (s : State) (g : Fin 4) (c : Cell) (valid : Bool) (at' : CellTime), knownType c.body = true →
    let on := s.ring.forwarding && (decide (groupState s g = 3) || decide (5 ≤ groupState s g ∧ groupState s g ≤ 7))
    let n := (s.cq g).rx
    let bad := on && decide (n < 320) && !valid
    let again := on && decide (n < 320) && valid && decide (c.origin ≠ nodeNo s) && replayed s c
    on = false ∨ 320 ≤ n ∨ valid = false ∨ c.origin = nodeNo s ∨ replayed s c = true →
    Does (.controlCell g c valid at') s fun t =>
      (on = false → t = { s with cycle := s.cycle + 1 }) ∧
      (on = true → (t.cq g).rx = n + 1 ∧ t.wide (Reg.PCN_RX_FRAMES_LO (16 * g)) = (s.wide (Reg.PCN_RX_FRAMES_LO (16 * g)) + 1) % 2 ^ 64 ∧
        t.rd (Fld.PQ_CTL_CNT0_RX_OVER g) = min (s.rd (Fld.PQ_CTL_CNT0_RX_OVER g) + (if 320 ≤ n then 1 else 0)) 0xFFFF ∧
        t.rd (Fld.PQ_CTL_CNT0_BAD g) = min (s.rd (Fld.PQ_CTL_CNT0_BAD g) + (if bad then 1 else 0)) 0xFFFF ∧
        t.rd (Fld.PQ_CTL_CNT1_REPLAY g) = min (s.rd (Fld.PQ_CTL_CNT1_REPLAY g) + (if again then 1 else 0)) 0xFFFF) ∧
      t = { s with cycle := s.cycle + 1, regs := t.regs, log := t.log, ctl := { s.ctl with groups := t.ctl.groups, badAt := t.ctl.badAt },
                   perf := { s.perf with wide := t.perf.wide } } ∧
      RegsKept [Reg.PQ_CTL_CNT0 g, Reg.PQ_CTL_CNT1 g, Reg.LOG_STATUS] s t) ∧
  (∀ (s : State) (g : Fin 4) (c : Cell) (at' : CellTime), knownType c.body = true → s.ring.forwarding = true → groupState s g = 3 → (s.cq g).rx < 320 →
    c.origin ≠ nodeNo s → replayed s c = false → c.reach = 1 → c.dest ≠ nodeNo s →
    let o := 2 * (g.val / 2) + (1 - g.val % 2)
    let again := s.ctl.sent.any (fun e => e.1 == c.origin && e.2.1 == c.hseq && decide (fnDiff s.fn e.2.2 ≤ 64))
    let goes := decide (c.hops + 1 < ringSize s) && !again && (decide (groupState s o = 3) || decide (groupState s o = 5))
    Does (.controlCell g c true at') s fun t =>
      t.out = s.out ++ (if goes then [Out.cell o { c with hops := c.hops + 1 }] else []) ∧ t.ctl.seen.contains (c.origin, c.fn, c.hseq) = true ∧
      t.regs = s.regs ∧ t = { s with cycle := s.cycle + 1, ctl := t.ctl, perf := t.perf, out := t.out }) ∧
  (∀ (s : State) (g : Fin 4) (cell : Cell) (ring span seq : Nat) (planned drowse : Bool) (at' : CellTime),
    s.ring.forwarding = true → groupState s g = 3 → (s.cq g).rx < 320 → cell.origin ≠ nodeNo s →
    let c := { cell with body := .ringBreak ring span planned drowse seq, reach := 2 }
    let copy := s.ring.floods.any (fun e => decide (e.1 = c.origin ∧ e.2.1 = seq ∧ fnDiff s.fn e.2.2 ≤ 64))
    replayed s c = false →
    Does (.controlCell g c true at') s fun t =>
      t.ring = (if copy then s.ring else { s.ring with arrived := s.ring.arrived ++ [c.body], floods := t.ring.floods }) ∧
      (copy = true → t.out = s.out) ∧ (copy = false → t.ring.floods.contains (c.origin, seq, s.fn) = true) ∧
      t.ctl.seen.contains (c.origin, c.fn, c.hseq) = true ∧ t.regs = s.regs ∧
      t = { s with cycle := s.cycle + 1, ctl := t.ctl, ring := t.ring, perf := t.perf, out := t.out }) ∧
  (∀ (s : State) (g : Fin 4),
    let on := s.ring.forwarding && (decide (groupState s g = 3) || decide (5 ≤ groupState s g ∧ groupState s g ≤ 7)) && decide ((s.cq g).slots < 4)
    Does (.cellInsert g) s fun t =>
      (on = false ∨ nextCell (s.cq g) = none → t = { s with cycle := s.cycle + 1 }) ∧
      (on = true → ∀ x ∈ (nextCell (s.cq g)).toList, groupState s g = 3 ∨ x.1.reach = 0 →
        t.cq g = { x.2 with slots := x.2.slots + 1 } ∧ t.out = s.out ++ [Out.cell g (sealCell s { x.1 with fn := s.fn })] ∧
        t.wide (Reg.PCN_TX_FRAMES_LO (16 * g)) = (s.wide (Reg.PCN_TX_FRAMES_LO (16 * g)) + 1) % 2 ^ 64) ∧
      (∀ h, h < 4 → h ≠ g.val → t.cq h = s.cq h) ∧ t.regs = s.regs ∧
      t = { s with cycle := s.cycle + 1, ctl := { s.ctl with groups := t.ctl.groups }, perf := t.perf, out := t.out })

/-- R302, R606, R607, R613, R614, R616 to R619: SESSION_OPEN allots a free index, half-open, under the key of both nonces, or answers what the checks
find; SESSION_PROVE opens it; NOP is answered and renews the idle time. A session closes by SESSION_CLOSE, once idle for SESS_IDLE, half-open for 5 s,
or at a wrong PROVE; a frame that is not authentic is counted, and the 16th in a row closes the session. A right password sets PW_OK; a wrong one is
counted, and the fifth blocks. A REG_READ of words of the identity block returns them; a REG_WRITE of a word whose fields are all RW writes it.
BANK_SWAP arms as LE_BANK_CTRL does, or is refused as that is. -/
def Obligations.SessionsAndRegisters : Prop :=
  (∀ (s : State) (h : Hdr) (role plot : BitVec 8) (cnonce : BitVec 128), h.session = 0xFF#8 → serves h s = true →
    openVerdict h role.toNat plot.toNat s = .ok →
    let k := (freeIndex h.transport.val s).getD 0
    let pnonce := leBytes 16 (Config.freeValue s.freeIx)
    let sn := snonceOf (beBytes 16 cnonce.toNat) pnonce
    let cred := (credential s role.toNat plot.toNat).getD 0
    Does (.sessionOpen h role plot cnonce) s fun t =>
      t.rd (Fld.CE_SESS_VALID k) = 1 ∧ t.rd (Fld.CE_SESS_HALF_OPEN k) = 1 ∧ t.rd (Fld.CE_SESS_ROLE k) = role.toNat ∧
      t.rd (Fld.CE_SESS_TRANSPORT k) = h.transport.val ∧ t.rd (Fld.CE_SESS_PLOT k) = plot.toNat ∧ t.rd (Fld.CE_SESS_PW_OK k) = 0 ∧
      t.sess k = { restSess with key := sessionKey cred (keyNode s) k sn, snonce := sn, port := h.port.val } ∧
      (∀ j, j < 64 → j ≠ k → t.sess j = s.sess j) ∧ t.freeIx = s.freeIx + 1 ∧
      Delivered h.transport.val ⟨0xFF, 1, h.tag.toNat, 0, true, false, 0, leBytes 4 k ++ pnonce, 0⟩ t ∧
      t = { s with cycle := s.cycle + 1, regs := t.regs, out := t.out, csp := t.csp, freeIx := t.freeIx, eng := { s.eng with sess := t.eng.sess },
                   img := { s.img with alerted := t.img.alerted } } ∧
      RegsKept [Reg.CE_SESS k, Reg.CE_STATUS] s t) ∧
  (∀ (s : State) (h : Hdr) (role plot : BitVec 8) (cnonce : BitVec 128), h.session = 0xFF#8 → serves h s = true →
    openVerdict h role.toNat plot.toNat s ≠ .ok →
    Does (.sessionOpen h role plot cnonce) s fun t =>
      Delivered h.transport.val ⟨0xFF, 1, h.tag.toNat, (openVerdict h role.toNat plot.toNat s).code, true, false, 0, [], 0⟩ t ∧
      (openVerdict h role.toNat plot.toNat s = .noResource → freeIndex h.transport.val s = none → t.rd Fld.CE_EVENTS_SESS_FULL_EV = 1) ∧
      t = { s with cycle := s.cycle + 1, regs := t.regs, log := t.log, out := t.out, csp := t.csp, eng := { s.eng with tagsAt := t.eng.tagsAt } } ∧
      RegsKept [Reg.CE_EVENTS, Reg.LOG_STATUS] s t) ∧
  (∀ (s : State) (h : Hdr), serves h s = true → h.session.toNat < 64 → s.rd (Fld.CE_SESS_VALID h.session.toNat) = 1 →
    s.rd (Fld.CE_SESS_HALF_OPEN h.session.toNat) = 1 → h.seq = 1#32 → h.argLen = 0 → tagInFlight s h.tag.toNat = false → stateNamed true s = true →
    bucketEmpty s h.session.toNat = false → tagsFull s = false →
    let k := h.session.toNat
    Does (.sessionProve h) s fun t =>
      t.rd (Fld.CE_SESS_HALF_OPEN k) = 0 ∧ t.rd (Fld.CE_SESS_VALID k) = 1 ∧ CommandTaken h s t ∧ (∀ j, j < 64 → j ≠ k → t.sess j = s.sess j) ∧
      (s.img.alertLeft = 0 → Responds h 2 .ok [] s t) ∧
      (s.rd Fld.PWR_STATE_STATE ≠ 1 → Logged 0x05 1 (k + sessRole s k * 256 + s.rd (Fld.CE_SESS_TRANSPORT k) * 4096) s t ∧
        t = { commandBase s t with log := t.log } ∧ RegsKeptBut (fun a => commandReg h a || decide (a = Reg.LOG_STATUS)) s t)) ∧
  (∀ (s : State) (h : Hdr), CommandReady h true s → h.argLen = 0 →
    Does (.nop h) s fun t =>
      CommandTaken h s t ∧ Responds h 4 .ok [] s t ∧ (∀ j, j < 64 → j ≠ h.session.toNat → t.sess j = s.sess j) ∧ t = commandBase s t ∧
      RegsKeptBut (commandReg h) s t) ∧
  (∀ (s : State) (h : Hdr), CommandReady h true s → h.argLen = 0 →
    let k := h.session.toNat
    Does (.sessionClose h) s fun t =>
      t.reg (Reg.CE_SESS k) = 0#32 ∧ t.sess k = restSess ∧ Responds h 3 .ok [] s t ∧ (s.rd Fld.DBG_UNLOCK_SESSION ≠ k → Logged 0x05 2 (k + 256) s t) ∧
      (∀ j, j < 64 → j ≠ k → t.sess j = s.sess j ∧ t.reg (Reg.CE_SESS j) = s.reg (Reg.CE_SESS j)) ∧
      (∀ j, j < 16 → opLive s j = true → (s.op j).any (fun o => o.session == k) = true → (t.op j).any (fun o => o.session == 0xFF) = true)) ∧
  (∀ (s : State) (session : BitVec 8) (transport : Fin 5) (prove : Bool),
    let k := session.toNat
    let heard := decide (s.rd Fld.CE_STATUS_FRONT_ONLY = 0) && s.mainOn && decide (s.otp.lifecycle ≠ 3) && (decide (s.img.phase ≠ .noImage) || decide (transport = 2))
    let mine := decide (k < 64) && decide (s.rd (Fld.CE_SESS_VALID k) = 1)
    let frees := mine && ((prove && decide (s.rd (Fld.CE_SESS_HALF_OPEN k) = 1)) || decide (16 ≤ (s.sess k).rejects + 1))
    Does (.unauthenticFrame session transport prove) s fun t =>
      (heard = false → t = { s with cycle := s.cycle + 1 }) ∧
      (heard = true → t.rd Fld.CE_COUNT_REJECTED = min (s.rd Fld.CE_COUNT_REJECTED + 1) 0xFFFF ∧ t.rd Fld.CE_EVENTS_AUTH_FAIL_EV = 1 ∧
        (frees = true → t.reg (Reg.CE_SESS k) = 0#32 ∧ t.sess k = restSess) ∧
        (mine = true → frees = false → (t.sess k).rejects = (s.sess k).rejects + 1 ∧ t.reg (Reg.CE_SESS k) = s.reg (Reg.CE_SESS k))) ∧
      (∀ j, j < 64 → j ≠ k → t.sess j = s.sess j ∧ t.reg (Reg.CE_SESS j) = s.reg (Reg.CE_SESS j)) ∧ t.out = s.out ∧ t.csp = s.csp) ∧
  (∀ (s : State) (k : Fin 64),
    let half := decide (s.rd (Fld.CE_SESS_HALF_OPEN k) = 1) && decide (250000 ≤ (s.sess k).idle) && decide (s.rd (Fld.CE_SESS_VALID k) = 1)
    let idle := sessOpen s k && decide (max 10 (s.rd Fld.CE_CFG_SESS_IDLE) * 50000 ≤ (s.sess k).idle)
    let after : Bool → State → Prop := fun expired t =>
      (expired = true → t.reg (Reg.CE_SESS k) = 0#32 ∧ t.sess k = restSess) ∧
      (expired = false → t.reg (Reg.CE_SESS k) = s.reg (Reg.CE_SESS k) ∧ t.sess k = s.sess k) ∧
      (∀ j, j < 64 → j ≠ k.val → t.sess j = s.sess j ∧ t.reg (Reg.CE_SESS j) = s.reg (Reg.CE_SESS j)) ∧ t.out = s.out ∧ t.csp = s.csp
    Does (.halfOpenTimeout k) s (after half) ∧ Does (.sessionIdle k) s (after idle)) ∧
  (∀ (s : State) (h : Hdr) (proof : BitVec 256), CommandReady h false s → sessRole s h.session.toNat = 2 → h.argLen = 32 → s.safe.pwBlocked = false →
    let right := decide (Config.hmac256 s.otp.spw (s.sess h.session.toNat).snonce = proof)
    Does (.passwordPresent h proof) s fun t =>
      CommandTaken h s t ∧ t.rd (Fld.CE_SESS_PW_OK h.session.toNat) = (if right then 1 else s.rd (Fld.CE_SESS_PW_OK h.session.toNat)) ∧
      Responds h 5 (if right then .ok else .denied) [] s t ∧
      t.safe = { s.safe with pwWrong := if right then 0 else s.safe.pwWrong + 1, pwBlocked := !right && decide (5 ≤ s.safe.pwWrong + 1),
                             pwLeft := if !right && decide (5 ≤ s.safe.pwWrong + 1) then 60 * 50000 else s.safe.pwLeft } ∧
      t = { commandBase s t with log := t.log, safe := t.safe } ∧ RegsKeptBut (fun a => commandReg h a || decide (a = Reg.LOG_STATUS)) s t) ∧
  (∀ (s : State) (h : Hdr) (a : Word) (count : BitVec 16), CommandReady h true s → h.argLen = 6 → 1 ≤ sessRole s h.session.toNat →
    sessRole s h.session.toNat ≤ 3 → 1 ≤ count.toNat → count.toNat ≤ 64 → a.toNat % 4 = 0 → a.toNat + 4 * count.toNat ≤ 0x10000 →
    (wordAddrs a.toNat count.toNat).all decoded = true →
    Does (.regRead h a count) s fun t =>
      CommandTaken h s t ∧
      Responds h 0x10 .ok (leBytes 4 count.toNat ++ (wordAddrs a.toNat count.toNat).flatMap (fun x => leBytes 4 (s.reg x).toNat)) s t ∧
      RegsKeptBut (commandReg h) s t) ∧
  (∀ (s : State) (h : Hdr) (a : Word) (v : Word) (d : RegDesc), CommandReady h false s → h.argLen = 10 → 1 ≤ sessRole s h.session.toNat →
    sessRole s h.session.toNat ≤ 3 → a.toNat % 4 = 0 → descOf a.toNat = some d → ruledReg a.toNat = false → accessFault s a.toNat = none →
    mayWrite s (sessInit h.session.toNat) a.toNat = true → d.rwl = 0 → d.rwc = 0 → d.w1c = 0 → d.w1s = 0 → d.rws = 0 →
    ¬ (0x600000 ≤ a.toNat ∧ a.toNat < 0x610000) →
    Does (.regWrite h a 1 [v]) s fun t =>
      CommandTaken h s t ∧ Responds h 0x11 .ok (leBytes 4 1) s t ∧
      (∀ n, n < 32 → (t.reg a.toNat).getLsbD n = (if hasBit d.rw n then v.getLsbD n else (s.reg a.toNat).getLsbD n)) ∧
      RegsKeptBut (fun x => commandReg h x || decide (x = a.toNat)) s t) ∧
  (∀ (s : State) (h : Hdr) (mode : BitVec 8) (f : BitVec 48), CommandReady h false s → h.argLen = 7 → mode.toNat ≤ 1 →
    sessRole s h.session.toNat = 1 ∨ sessRole s h.session.toNat = 3 → accessFault s Reg.LE_BANK_CTRL = none →
    mayWrite s (sessInit h.session.toNat) Reg.LE_BANK_CTRL = true →
    let at' := if mode = 0 then f.toNat else (s.fn + 2) % 2 ^ 48
    Does (.bankSwap h mode f) s fun t =>
      CommandTaken h s t ∧ Responds h 0x26 (armStatus at' s) [] s t ∧
      (armStatus at' s = .ok → swapAt t = at' ∧ t.rd Fld.LE_STATUS_ARM_STATE = 1 ∧ t.loop = { s.loop with armedBy := (sessRole s h.session.toNat, h.session.toNat) }) ∧
      (armStatus at' s ≠ .ok → swapAt t = swapAt s ∧ t.rd Fld.LE_STATUS_ARM_STATE = s.rd Fld.LE_STATUS_ARM_STATE ∧ t.loop = s.loop))

/-- R9, R180, R188, R191 to R193, R553, R615, R618, R620, R656: the commands on the part itself. A counted setting is programmed and consumes a count; the
value already held does not; with none left NO_RESOURCE. A key is enrolled or revoked, a credential or a CAK unwrapped and stored, a consent held for
the staged digest. SYS_RESET resets the main domain, or after a removal a node on its rings; CT_RESET the control die. An activation or re-pitch that
the checks pass writes its pending record and runs as an operation. -/
def Obligations.PartCommands : Prop :=
  (∀ (s : State) (h : Hdr) (offset : BitVec 16) (value : Word), CommandReady h false s → h.argLen = 6 → sessRole s h.session.toNat = 1 →
    (offset = 0x100 ∧ value.toNat ≤ 4) ∨ (offset = 0x104 ∧ value.toNat ≤ 1) → s.otp.programming = none → s.clogFull = false →
    let now := settingNow s offset.toNat
    let st : Status := if now.2 = 0 then .noResource else .ok
    Does (.settingWrite h offset value) s fun t =>
      CommandTaken h s t ∧ (st = .noResource ∨ now.1 = value.toNat → Responds h 0x30 st [] s t ∧ t.otp = s.otp) ∧
      (st = .ok → now.1 ≠ value.toNat →
        t.otp.programming = some ⟨offset.toNat, value.toNat, 0, h.session.toNat, 1, 0x30, h.tag.toNat⟩ ∧ settingNow t offset.toNat = (now.1, now.2 - 1) ∧
        t.out = s.out ∧ t.csp = s.csp) ∧
      t = { commandBase s t with otp := t.otp } ∧
      RegsKeptBut (fun a => commandReg h a || [Reg.CS_GRID, Reg.CS_ROLE, Reg.CS_SPW, Reg.CS_TOKEN, Reg.IMG_KEYS, Reg.LIFECYCLE, Reg.CE_STATUS].contains a) s t) ∧
  (∀ (s : State) (h : Hdr) (new : BitVec 256), CommandReady h false s → h.argLen = 32 → safetyOk h.session.toNat s = true → s.otp.spwRemain ≠ 0 →
    s.otp.programming = none → s.clogFull = false →
    let hash := new ^^^ Config.hmac256 (s.sess h.session.toNat).key ([0x53#8, 0x50#8, 0x57#8] ++ leBytes 4 h.seq.toNat)
    Does (.spwChange h new) s fun t =>
      CommandTaken h s t ∧ (hash = s.otp.spw → Responds h 0x31 .ok [] s t ∧ t.otp = s.otp) ∧
      (hash ≠ s.otp.spw → t.otp = { s.otp with spwRemain := s.otp.spwRemain - 1, programming := some ⟨0x108, 0, hash, h.session.toNat, 2, 0x31, h.tag.toNat⟩ }) ∧
      t = { commandBase s t with otp := t.otp }) ∧
  (∀ (s : State) (h : Hdr) (target : BitVec 8), CommandReady h true s → h.argLen = 1 → sessRole s h.session.toNat = (if s.otp.lifecycle = 0 then 3 else 1) →
    target.toNat = s.otp.lifecycle + 1 → target.toNat ≤ 3 → s.otp.programming = none → s.clogFull = false →
    Does (.lifecycleAdvance h target) s fun t =>
      CommandTaken h s t ∧
      t.otp = { s.otp with programming := some ⟨0x14, target.toNat, 0, h.session.toNat, sessRole s h.session.toNat, 0x32, h.tag.toNat⟩ } ∧
      t = { commandBase s t with otp := t.otp }) ∧
  (∀ (s : State) (h : Hdr) (token : List Byte), CommandReady h false s → h.argLen = 160 → token.length = 160 → sessRole s h.session.toNat = 3 →
    Does (.serviceUnlock h token) s fun t =>
      CommandTaken h s t ∧
      (if tokenStatus token s = .ok then
        t.otp = { s.otp with tokenRemain := s.otp.tokenRemain - 1, programming := some ⟨0x10C, leAt token 8 1 + 256 * leAt token 10 2, 0, h.session.toNat, 3, 0x33, h.tag.toNat⟩ } ∧ t.out = s.out ∧ t.csp = s.csp
       else t.otp = s.otp ∧ Responds h 0x33 (tokenStatus token s) [] s t) ∧
      t = { commandBase s t with otp := t.otp, log := t.log, eng := { s.eng with sess := t.eng.sess, quiet := 0, tagsAt := t.eng.tagsAt } }) ∧
  (∀ (s : State) (h : Hdr) (slot : Fin 4) (hash : BitVec 384), CommandReady h true s → h.argLen = 49 → sessRole s h.session.toNat = 3 →
    s.otp.lifecycle ≤ 1 → s.otp.enrolled.testBit slot = false → s.otp.revoked.testBit slot = false → s.clogFull = false →
    Does (.keyEnrol h (BitVec.ofNat 8 slot) hash) s fun t =>
      CommandTaken h s t ∧ Responds h 0x34 .ok [] s t ∧ Tab.get 0#384 t.otp.keyHash slot = hash ∧
      (∀ j, j < 4 → t.otp.enrolled.testBit j = (decide (j = slot.val) || s.otp.enrolled.testBit j)) ∧ t.clog.queue.length = s.clog.queue.length + 1 ∧
      t = { commandBase s t with otp := { s.otp with keyHash := t.otp.keyHash, enrolled := t.otp.enrolled }, clog := t.clog }) ∧
  (∀ (s : State) (h : Hdr) (slot : Fin 4), CommandReady h true s → h.argLen = 1 → sessRole s h.session.toNat = 1 → keyInUse slot s = false → s.clogFull = false →
    Does (.keyRevoke h (BitVec.ofNat 8 slot)) s fun t =>
      CommandTaken h s t ∧ Responds h 0x35 .ok [] s t ∧ (∀ j, j < 4 → t.otp.revoked.testBit j = (decide (j = slot.val) || s.otp.revoked.testBit j)) ∧
      t.clog.queue.length = s.clog.queue.length + 1 ∧ t = { commandBase s t with otp := { s.otp with revoked := t.otp.revoked }, clog := t.clog }) ∧
  (∀ (s : State) (h : Hdr) (role plot : BitVec 8) (wrapped : List Byte), CommandReady h true s → h.argLen = 42 → wrapped.length = 40 →
    1 ≤ role.toNat → role.toNat ≤ 4 → plot.toNat < (if role.toNat = 4 then 64 else 1) →
    (sessRole s h.session.toNat = 3 ∨ (sessRole s h.session.toNat = role.toNat ∧ role.toNat ≤ 2) ∨ (sessRole s h.session.toNat = 1 ∧ role.toNat = 4)) →
    let c := Config.keyUnwrap (wrapKey h.session.toNat s) wrapped
    Does (.credSet h role plot wrapped) s fun t =>
      CommandTaken h s t ∧ Responds h 0x36 (if c.isSome then .ok else .integrity) [] s t ∧
      t.eng.creds = (if c.isSome then Tab.set none s.eng.creds (role.toNat * 64 + plot.toNat) c else s.eng.creds) ∧
      t = { commandBase s t with eng := { s.eng with sess := t.eng.sess, quiet := 0, creds := t.eng.creds } } ∧ RegsKeptBut (commandReg h) s t) ∧
  (∀ (s : State) (h : Hdr) (plot : BitVec 8) (ckn : BitVec 128) (wrapped : List Byte), CommandReady h false s → h.argLen = 57 → wrapped.length = 40 →
    plot.toNat ≤ 63 → sessRole s h.session.toNat = 1 →
    let c := Config.keyUnwrap (wrapKey h.session.toNat s) wrapped
    Does (.cakInstall h plot ckn wrapped) s fun t =>
      CommandTaken h s t ∧ Responds h 0x37 (if c.isSome then .ok else .integrity) [] s t ∧
      t.eng.caks = (if c.isSome then Tab.set none s.eng.caks plot.toNat (c.map (fun k => (beBytes 16 ckn.toNat, k))) else s.eng.caks) ∧
      t = { commandBase s t with eng := { s.eng with sess := t.eng.sess, quiet := 0, caks := t.eng.caks } } ∧ RegsKeptBut (commandReg h) s t) ∧
  (∀ (s : State) (h : Hdr) (digest : BitVec 128), CommandReady h false s → h.argLen = 16 → safetyOk h.session.toNat s = true →
    (slotWith (liveRec s) .staged).isSome = true → digest = stagedDigest s →
    Does (.safetyConsent h digest) s fun t =>
      CommandTaken h s t ∧ Responds h 0x23 .ok [] s t ∧ t.img.consent = some digest ∧
      t = { commandBase s t with img := { s.img with alertLeft := t.img.alertLeft, alerted := t.img.alerted, consent := some digest } } ∧
      RegsKeptBut (commandReg h) s t) ∧
  (∀ (s : State) (h : Hdr), CommandReady h true s → h.argLen = 0 → sessRole s h.session.toNat = 1 ∨ sessRole s h.session.toNat = 3 →
    let n := (s.fn + s.rd Fld.RG_RING_TIMING_LEAVE_FRAMES) % 2 ^ 48
    Does (.sysReset h) s fun t =>
      (s.img.phase = .booted → t.ring.reset = some (2, (n + 50) % 2 ^ 48) ∧ Responds h 0x40 .ok [] s t ∧ CommandTaken h s t ∧
        (∀ r, r < 2 → t.rd (insField r) = (if s.rd (insField r) = 4 then 5 else s.rd (insField r)))) ∧
      (s.img.phase ≠ .booted → t.img.phase = .inReset ∧ t.rd Fld.RESET_CAUSE_CAUSE = 2 ∧ t.otp = s.otp ∧ t.flash = s.flash)) ∧
  (∀ (s : State) (h : Hdr), CommandReady h false s → h.argLen = 0 → sessRole s h.session.toNat = 3 ∨ safetyOk h.session.toNat s = true →
    opsWith s 0x51 = [] →
    Does (.ctReset h) s fun t =>
      CommandTaken h s t ∧ Responds h 0x41 .ok [] s t ∧ t.rd Fld.CLK_STATUS_CTRL_LOCK = 0 ∧ t.rd Fld.SCHED_CFG_TICK_RUN = 0 ∧
      t.rd Fld.RESET_CAUSE_CT_RESETS = min (s.rd Fld.RESET_CAUSE_CT_RESETS + 1) 0xFF ∧ t.otp = s.otp ∧ t.flash = s.flash ∧ t.ring = s.ring) ∧
  (∀ (s : State) (h : Hdr) (p : Fin 64) (n : BitVec 48) (digest : BitVec 128) (isLocal : Bool), CommandReady h false s → h.argLen = 23 →
    sessRole s h.session.toNat = 1 → 50 ≤ fnDiff n.toNat s.fn → fnDiff n.toNat s.fn ≤ 2 ^ 47 - 1 → consentMissing s = false → actReady digest s = true →
    (opFree s).isSome = true →
    let j := (opFree s).getD 0
    let slot := (slotWith (liveRec s) .staged).getD 0
    let armed : Nat → Bool → Option Nat → State → Prop := fun opcode own plot t =>
      CommandTaken h s t ∧ (liveRec t).pending = some ⟨slot, n.toNat, own, plot⟩ ∧ (liveRec t).commit = false ∧
      t.rd (Fld.CE_OP_VALID j) = 1 ∧ t.rd (Fld.CE_OP_STATE j) = 1 ∧ t.rd (Fld.CE_OP_TAG j) = h.tag.toNat ∧
      t.op j = some (newOp opcode h.tag.toNat h.session.toNat 1) ∧
      Delivered (s.rd (Fld.CE_SESS_TRANSPORT h.session.toNat)) (nextResponse h.session.toNat opcode h.tag.toNat 0 false [] s) t
    Does (.imageActivateAt h n digest (if isLocal then 1 else 0)) s (armed 0x22 isLocal none) ∧
    (repitchOnly p s = true → Does (.plotRepitch h (BitVec.ofNat 8 p) n digest) s (armed 0x24 false (some p.val))))

/-- R177, R178, R182, R621, R623 to R627: a long command takes a free entry of the operation table, QUEUED; with its resource free it runs. OP_STATUS
returns state, status and progress. A suspended operation resumes where its resource is free, else is queued; a cancelled one is CANCELLED, with its
slot EMPTY or its pending record erased; 60 s without DATA suspend, 3,600 s suspended cancel. DATA programs its bytes, or joins a header that is not
complete; a complete image is verified and takes its place, or fails with its slot EMPTY. One of no bytes begins its slot only then (for FLASH_WRITE
the slot is judged again: log entry 112), or ends FAILED with STATE_CONFLICT where it may not. A dump ends with its summary. -/
def Obligations.LongOperations : Prop :=
  (∀ (s : State) (h : Hdr) (slot : Fin 2) (len : Word), CommandReady h true s →
    sessRole s h.session.toNat = 1 ∨ sessRole s h.session.toNat = 3 → len.toNat ≤ 12582912 → (liveRec s).pending = none → (opFree s).isSome = true →
    let taken : Nat → Nat → State → Prop := fun opcode k t =>
      LongTaken h ((opFree s).getD 0)
        { newOp opcode h.tag.toNat h.session.toNat (sessRole s h.session.toNat) with slot := k, length := len.toNat } s t
    (h.argLen = 4 → Does (.imageStage h len) s (taken 0x20 0)) ∧
    (h.argLen = 5 → (liveRec s).slot slot ≠ SlotState.active → s.img.phase = .noImage ∨ s.otp.lifecycle = 0 →
      Does (.flashWrite h (BitVec.ofNat 8 slot) len) s (taken 0x25 slot))) ∧
  (∀ (s : State) (h : Hdr) (from' : BitVec 64) (count : Word), CommandReady h true s → 1 ≤ sessRole s h.session.toNat →
    sessRole s h.session.toNat ≤ 3 → h.argLen = 13 → (opFree s).isSome = true →
    let o := newOp 0x50 h.tag.toNat h.session.toNat (sessRole s h.session.toNat)
    Does (.logDump h 1 from' count) s fun t => LongTaken h ((opFree s).getD 0) { o with log := 1, pos := from'.toNat, left := count.toNat } s t) ∧
  (∀ (s : State) (h : Hdr) (parts : BitVec 8), CommandReady h false s → 1 ≤ sessRole s h.session.toNat → sessRole s h.session.toNat ≤ 3 →
    h.argLen = 1 → parts.toNat ≤ 7 → testQuiet s = true → (opFree s).isSome = true →
    let o := newOp 0x51 h.tag.toNat h.session.toNat (sessRole s h.session.toNat)
    Does (.selfTestFull h parts) s fun t => LongTaken h ((opFree s).getD 0) { o with parts := parts.toNat } s t) ∧
  (∀ (s : State) (j : Fin 16) (o : LongOp), s.op j = some o → opLive s j = true → s.rd (Fld.CE_OP_STATE j) = 0 → opsMayRun s = true →
    resourceFree j o s = true → o.opcode ≠ 0x51 → (o.opcode = 0x20 → begun o = true ∨ (liveRec s).pending = none) →
    Does (.opRun j) s fun t =>
      t.rd (Fld.CE_OP_STATE j) = 1 ∧ t.op j = some { o with idle := 0 } ∧ OtherOpsKept j s t ∧
      t = { s with cycle := s.cycle + 1, regs := t.regs, eng := { s.eng with ops := t.eng.ops } } ∧ RegsKept [Reg.CE_OP j] s t) ∧
  (∀ (s : State) (h : Hdr) (tag : BitVec 16) (j : Nat) (o : LongOp), CommandReady h true s → h.argLen = 2 → opNamed s tag.toNat = some (j, o) →
    sessRole s h.session.toNat = o.role ∨ sessRole s h.session.toNat = 3 →
    Does (.opStatus h tag) s fun t =>
      CommandTaken h s t ∧
      Responds h 0x60 .ok (leBytes 1 (s.rd (Fld.CE_OP_STATE j)) ++ leBytes 1 (s.rd (Fld.CE_OP_STATUS j)) ++ leBytes 1 (s.rd (Fld.CE_OP2_PROGRESS j)) ++ [0#8]) s t ∧
      t = commandBase s t ∧ RegsKeptBut (commandReg h) s t) ∧
  (∀ (s : State) (h : Hdr) (tag : BitVec 16) (j : Nat) (o : LongOp), CommandReady h true s → h.argLen = 2 → opNamed s tag.toNat = some (j, o) →
    sessRole s h.session.toNat = o.role ∨ sessRole s h.session.toNat = 3 → s.rd (Fld.CE_OP_STATE j) < 2 → isAct o = false →
    let later := decide (o.opcode = 0x51) && decide (o.pos = 1) && decide (s.rd (Fld.CE_OP_STATE j) = 1)
    Does (.opSuspend h tag) s fun t =>
      CommandTaken h s t ∧ Responds h 0x61 .ok [] s t ∧ t.rd (Fld.CE_OP_STATE j) = (if later then 1 else 2) ∧
      t.op j = some (if later then { o with left := 1 } else { o with held := 0 }) ∧ OtherOpsKept j s t ∧
      RegsKeptBut (fun a => commandReg h a || decide (a = Reg.CE_OP j)) s t) ∧
  (∀ (s : State) (h : Hdr) (tag : BitVec 16) (j : Nat) (o : LongOp), CommandReady h true s → h.argLen = 2 → opNamed s tag.toNat = some (j, o) →
    sessRole s h.session.toNat = o.role ∨ sessRole s h.session.toNat = 3 → s.rd (Fld.CE_OP_STATE j) = 2 → o.opcode ≠ 0x51 →
    (o.opcode = 0x20 → begun o = true ∨ (liveRec s).pending = none) →
    let holder := if feeds o then h.session.toNat else o.session
    let runs := opsMayRun s && resourceFree j { o with session := holder, idle := 0 } s
    Does (.opResume h tag) s fun t =>
      CommandTaken h s t ∧ Responds h 0x62 .ok (if feeds o then leBytes 4 o.next else []) s t ∧ t.rd (Fld.CE_OP_STATE j) = (if runs then 1 else 0) ∧
      t.rd (Fld.CE_OP2_SESSION j) = holder % 2 ^ 8 ∧ t.op j = some { o with session := holder, idle := 0 } ∧ OtherOpsKept j s t) ∧
  (∀ (s : State) (h : Hdr) (tag : BitVec 16) (j : Nat) (o : LongOp), CommandReady h true s → h.argLen = 2 → opNamed s tag.toNat = some (j, o) →
    sessRole s h.session.toNat = o.role ∨ sessRole s h.session.toNat = 3 → s.rd (Fld.CE_OP_STATE j) < 3 → (isAct o = true → actAhead s = true) →
    let later := decide (o.opcode = 0x51) && decide (o.pos = 1) && decide (s.rd (Fld.CE_OP_STATE j) = 1)
    Does (.opCancel h tag) s fun t =>
      CommandTaken h s t ∧ (later = true → t.op j = some { o with left := 2 } ∧ t.rd (Fld.CE_OP_STATE j) = 1) ∧
      (later = false → OpEnded j 4 7 t ∧ (isAct o = true → (liveRec t).pending = none) ∧
        (feeds o = true → begun o = true → o.slot < 2 → (liveRec t).slot o.slot = SlotState.empty)) ∧ OtherOpsKept j s t) ∧
  (∀ (s : State) (j : Fin 16) (o : LongOp), s.op j = some o → opLive s j = true → s.rd (Fld.CE_OP_STATE j) = 1 → feeds o = true → 3000000 ≤ o.idle →
    Does (.dataTimeout j) s fun t =>
      t.rd (Fld.CE_OP_STATE j) = 2 ∧ t.op j = some { o with held := 0 } ∧ OtherOpsKept j s t ∧
      t = { s with cycle := s.cycle + 1, regs := t.regs, eng := { s.eng with ops := t.eng.ops } } ∧ RegsKept [Reg.CE_OP j] s t) ∧
  (∀ (s : State) (j : Fin 16) (o : LongOp), s.op j = some o → opLive s j = true → s.rd (Fld.CE_OP_STATE j) = 2 → 180000000 ≤ o.held →
    Does (.suspendTimeout j) s fun t => OpEnded j 4 7 t ∧ OtherOpsKept j s t) ∧
  (∀ (s : State) (h : Hdr) (target : BitVec 12) (ofs : Word) (l : List Byte) (j : Nat) (o : LongOp), CommandReady h true s →
    opNamed s target.toNat = some (j, o) → o.session = h.session.toNat → feeds o = true → h.argLen = 6 + l.length → opLive s j = true →
    s.rd (Fld.CE_OP_STATE j) = 1 → ofs.toNat = o.next → ofs.toNat + l.length ≤ o.length →
    begun o = true ∨ (o.opcode = 0x20 ∧ o.next + l.length < min 4096 o.length) → o.slot < 2 →
    Does (.data h target ofs l false) s fun t =>
      CommandTaken h s t ∧ Responds h 0x21 .ok (leBytes 4 (o.next + l.length)) s t ∧
      t.op j = some (if begun o then { o with next := o.next + l.length, idle := 0 } else { o with next := o.next + l.length, idle := 0, buf := o.buf ++ l }) ∧
      t.flash.slot o.slot = (if begun o then s.flash.slot o.slot ++ l else s.flash.slot o.slot) ∧
      t.rd (Fld.CE_OP2_PROGRESS j) = (if o.length = 0 then 0 else (o.next + l.length) * 100 / o.length) % 2 ^ 8 ∧ OtherOpsKept j s t) ∧
  (∀ (s : State) (j : Fin 16) (o : LongOp), s.op j = some o → opLive s j = true → s.rd (Fld.CE_OP_STATE j) = 1 → o.next = 0 → o.length = 0 →
    let st := verifyImage s.otp []
    let after : Bool → Nat → State → Prop := fun free k t =>
      (free = false → OpEnded j 5 2 t ∧ (liveRec t) = (liveRec s) ∧ t.flash.slot k = s.flash.slot k) ∧
      (free = true → st ≠ .ok → OpEnded j 5 st.code t ∧ (liveRec t).slot k = SlotState.empty) ∧ OtherOpsKept j s t
    (o.opcode = 0x20 → Does (.stageComplete j) s (after (liveRec s).pending.isNone (stageSlot s))) ∧
    (o.opcode = 0x25 → o.slot < 2 →
      Does (.flashWriteComplete j) s (after (decide ((liveRec s).slot o.slot ≠ SlotState.active) && (liveRec s).pending.isNone) o.slot))) ∧
  (∀ (s : State) (j : Fin 16) (o : LongOp), s.op j = some o → opLive s j = true → s.rd (Fld.CE_OP_STATE j) = 1 →
    o.next = o.length → o.slot < 2 → begun o = true →
    let st := verifyImage s.otp (s.flash.slot o.slot)
    let after : Bool → State → Prop := fun asStaged t =>
      (st = .ok → OpEnded j 3 0 t ∧ t.rd (Fld.CE_OP2_PROGRESS j) = 100 ∧ (liveRec t).slot o.slot = (if asStaged then SlotState.staged else SlotState.active) ∧
        (asStaged = true → t.rd Fld.IMG_STATUS_PRELOADED = 1 ∧ t.img.shadow = s.flash.slot o.slot) ∧
        (asStaged = false → (liveRec s).slot (1 - o.slot) = SlotState.active → (liveRec t).slot (1 - o.slot) = SlotState.previous)) ∧
      (st ≠ .ok → OpEnded j 5 st.code t ∧ (liveRec t).slot o.slot = SlotState.empty ∧ t.rd Fld.CE_EVENTS_OP_FAIL_EV = 1) ∧ OtherOpsKept j s t ∧
      t.img.consent = none
    (o.opcode = 0x20 → Does (.stageComplete j) s (after (decide (s.img.phase ≠ .noImage)))) ∧
    (o.opcode = 0x25 → Does (.flashWriteComplete j) s (after false))) ∧
  (∀ (s : State) (j : Fin 16) (o : LongOp), s.op j = some o → opLive s j = true → s.rd (Fld.CE_OP_STATE j) = 1 → o.opcode = 0x50 →
    let r := dumpRead o s
    let n := (chunks (dumpChunk o s) r.1.length r.1).length
    Does (.logDumpComplete j) s fun t =>
      OpEnded j 3 0 t ∧ OtherOpsKept j s t ∧
      (o.session < 64 → s.rd (Fld.CE_SESS_VALID o.session) = 1 → (t.sess o.session).seqOut = (s.sess o.session).seqOut + n + 1))

/-- R593, R594, R618, R628, R629: a plot command of an OPERATOR session acts at this node, at all, or at another, whose answer the session's waits for. A
short command that verifies is carried out at the frame tick if its role and arguments are right, and answered where it came alone; another is logged
as SHORT_AUTH_FAIL, once a second and origin. A verified response answers the command that waits for it; without one for 10 ms it FAILED. -/
def Obligations.PlotCommands : Prop :=
  (∀ (s : State) (h : Hdr) (dest : BitVec 16) (p : Fin 64), CommandReady h false s → sessRole s h.session.toNat = 1 → h.argLen = 3 →
    dest.toNat ≤ 0x3FF →
    (Does (.plotQuench h dest (BitVec.ofNat 8 p)) s fun t => PlotCommandTaken h dest.toNat 0x70 p 0 s t) ∧
    (Does (.plotRelease h dest (BitVec.ofNat 8 p)) s fun t => PlotCommandTaken h dest.toNat 0x72 p 0 s t)) ∧
  (∀ (s : State) (h : Hdr) (dest : BitVec 16) (p : Fin 64) (r : BitVec 16), CommandReady h false s → sessRole s h.session.toNat = 1 → h.argLen = 5 →
    dest.toNat ≤ 0x3FF →
    Does (.plotThrottle h dest (BitVec.ofNat 8 p) r) s fun t => PlotCommandTaken h dest.toNat 0x71 p r.toNat s t) ∧
  (∀ (s : State) (h : Hdr) (dest : BitVec 16) (l : Fin 128), CommandReady h false s → sessRole s h.session.toNat = 1 → h.argLen = 3 →
    dest.toNat ≤ 0x3FF →
    (Does (.portShut h dest (BitVec.ofNat 8 l)) s fun t => PlotCommandTaken h dest.toNat 0x73 l 0 s t) ∧
    (Does (.portOpen h dest (BitVec.ofNat 8 l)) s fun t => PlotCommandTaken h dest.toNat 0x74 l 0 s t)) ∧
  (∀ (s : State) (origin dest : BitVec 10) (fn : BitVec 48) (c : ShortCmd), s.img.phase = .booted →
    let cred := if 1 ≤ c.role ∧ c.role ≤ 3 then credential s c.role 0 else none
    let key := sessionKey (cred.getD 0) origin.toNat c.session c.snonce
    let good := cred.isSome && decide (c.hmac = hmac16 key (shortBytes c dest.toNat fn.toNat))
    let st : Status := if c.role ≠ 1 then .denied else if 0x70 ≤ c.sop ∧ c.sop ≤ 0x74 ∧ plotHere c.sop c.arg0 s = true ∧ c.arg1 ≤ 65535 then .ok else .badArg
    let recent := (Tab.get none s.eng.shortAt origin.toNat).any (fun f => decide (fnDiff s.fn f < 50000))
    Does (.shortCommand origin dest fn c) s fun t =>
      t.ctl.plotCmds = s.ctl.plotCmds ++ (if good && st == .ok then [⟨c.sop, c.arg0, c.arg1⟩] else []) ∧
      (good = true → t.eng = s.eng) ∧ (good = true → st ≠ .ok → dest = 0x3FF#10 → t.log = s.log) ∧
      (∀ g, g < 4 → if good = true ∧ dest ≠ 0x3FF#10 ∧ groupState s g = 3 then
          Queues (.commandResp c.sop st.code c.tag c.snonce c.seq (hmac16 key (respBytes c.sop st.code c.tag c.snonce c.seq))) g s t
        else t.cq g = s.cq g) ∧
      (good = false → if recent then t.log = s.log else Logged 0x05 8 origin.toNat s t) ∧
      t = { s with cycle := s.cycle + 1, regs := t.regs, log := t.log, ctl := t.ctl, eng := { s.eng with shortAt := t.eng.shortAt } } ∧ RegsKeptBut cellReg s t) ∧
  (∀ (s : State) (w : ShortWait) (sop status : BitVec 8) (tag : BitVec 12) (snonce : BitVec 64) (seq : BitVec 32) (hmac : BitVec 128),
    s.eng.waits.find? (fun x => x.tag == tag.toNat && x.seq == seq.toNat && x.opcode == sop.toNat &&
      decide ((s.sess x.session).snonce = beBytes 8 snonce.toNat)) = some w → w.session < 64 → s.rd (Fld.CE_SESS_VALID w.session) = 1 →
    let key := (s.sess w.session).key
    let good := decide (hmac = hmac16 key (respBytes sop.toNat status.toNat tag.toNat (beBytes 8 snonce.toNat) seq.toNat))
    Does (.commandResp sop status tag snonce seq hmac) s fun t =>
      (good = false → t = { s with cycle := s.cycle + 1 }) ∧
      (good = true → t.eng.waits = s.eng.waits.erase w ∧
        Delivered (s.rd (Fld.CE_SESS_TRANSPORT w.session)) (nextResponse w.session w.opcode w.tag status.toNat true [] s) t) ∧
      t = { s with cycle := s.cycle + 1, regs := t.regs, out := t.out, csp := t.csp, eng := { s.eng with sess := t.eng.sess, waits := t.eng.waits } } ∧
      RegsKept [Reg.CE_STATUS] s t) ∧
  (∀ (s : State) (w : ShortWait), s.eng.waits.find? (fun x => x.tag == w.tag && decide (500 ≤ x.age)) = some w → w.tag < 4096 → w.session < 64 →
    s.rd (Fld.CE_SESS_VALID w.session) = 1 →
    Does (.shortRespTimeout (BitVec.ofNat 12 w.tag)) s fun t =>
      t.eng.waits = s.eng.waits.erase w ∧
      Delivered (s.rd (Fld.CE_SESS_TRANSPORT w.session)) (nextResponse w.session w.opcode w.tag 8 true [] s) t ∧
      t = { s with cycle := s.cycle + 1, regs := t.regs, out := t.out, csp := t.csp, eng := { s.eng with sess := t.eng.sess, waits := t.eng.waits } } ∧
      RegsKept [Reg.CE_STATUS] s t)

/-- R630 to R634, R641, R642: a push fills the TX FIFO of a port that has one, or sets TX_OVF; a pop takes the oldest received word or length, or sets
RX_UNF. GO on a master sends LEN + 1 bits if it has the words, else sets XFER_REF; its end brings the words received. A raw slave transfer exchanges
words and queues its length. With the command function a transfer takes the oldest response once all of it has gone out. -/
def Obligations.SerialPorts : Prop :=
  (∀ (s : State) (i : Initiator) (n : Fin 4) (v : Word), Reaches s i (Reg.CSP_TXDATA n) → mayWrite s i (Reg.CSP_TXDATA n) = true →
    let takes := decide (n ≠ 0) && !cspCommand s n
    let full := decide (512 ≤ (s.cspOf n).tx.length)
    Does (.cspTxPush i n v) s fun t =>
      t.cspOf n = (if takes && !full then { s.cspOf n with tx := (s.cspOf n).tx ++ [v] } else s.cspOf n) ∧
      (takes = true → full = true → t.rd (Fld.CSP_STATUS_TX_OVF n) = 1) ∧
      (takes = true → full = false → t.rd (Fld.CSP_STATUS_TX_LEVEL n) = (s.cspOf n).tx.length + 1) ∧
      (∀ m, m < 4 → m ≠ n.val → t.cspOf m = s.cspOf m) ∧ t = { s with cycle := s.cycle + 1, regs := t.regs, bus := ⟨0#32, .done, .ok⟩, csp := t.csp } ∧
      RegsKept [Reg.CSP_STATUS n] s t) ∧
  (∀ (s : State) (i : Initiator) (n : Fin 4), Reaches s i (Reg.CSP_RXDATA n) → mayRead s i (Reg.CSP_RXDATA n) = true → cspCommand s n = false →
    Does (.cspRxPop i n) s fun t =>
      t.bus = ⟨(s.cspOf n).rx.headD 0#32, .done, .ok⟩ ∧ t.cspOf n = { s.cspOf n with rx := (s.cspOf n).rx.tail } ∧
      ((s.cspOf n).rx = [] → t.rd (Fld.CSP_STATUS_RX_UNF n) = 1) ∧ (∀ m, m < 4 → m ≠ n.val → t.cspOf m = s.cspOf m) ∧
      t = { s with cycle := s.cycle + 1, regs := t.regs, bus := t.bus, csp := t.csp } ∧ RegsKept [Reg.CSP_STATUS n] s t) ∧
  (∀ (s : State) (i : Initiator) (n : Fin 4), Reaches s i (Reg.CSP_RXLEN n) → mayRead s i (Reg.CSP_RXLEN n) = true → cspCommand s n = false →
    Does (.cspRxlenPop i n) s fun t =>
      t.bus = ⟨BitVec.ofNat 32 ((s.cspOf n).lens.headD 0), .done, .ok⟩ ∧ t.cspOf n = { s.cspOf n with lens := (s.cspOf n).lens.tail } ∧
      ((s.cspOf n).lens = [] → t.rd (Fld.CSP_STATUS_RX_UNF n) = 1) ∧ (∀ m, m < 4 → m ≠ n.val → t.cspOf m = s.cspOf m) ∧
      t = { s with cycle := s.cycle + 1, regs := t.regs, bus := t.bus, csp := t.csp } ∧ RegsKept [Reg.CSP_STATUS n] s t) ∧
  (∀ (s : State) (i : Initiator) (n : Fin 4) (len : BitVec 12), Reaches s i (Reg.CSP_XFER n) → mayWrite s i (Reg.CSP_XFER n) = true → n ≠ 0 →
    s.rd (Fld.CSP_CFG_EN n) = 1 → s.rd (Fld.CSP_CFG_MODE n) = 1 →
    let words := (len.toNat + 1 + 31) / 32
    let goes := decide ((s.cspOf n).busy = none) && decide (words ≤ (s.cspOf n).tx.length)
    Does (.cspGo i n len) s fun t =>
      t.rd (Fld.CSP_XFER_LEN n) = len.toNat ∧ (goes = false → t.rd (Fld.CSP_STATUS_XFER_REF n) = 1 ∧ t.cspOf n = s.cspOf n ∧ t.out = s.out) ∧
      (goes = true → t.rd (Fld.CSP_XFER_BUSY n) = 1 ∧ t.cspOf n = { s.cspOf n with tx := (s.cspOf n).tx.drop words, busy := some (len.toNat + 1) } ∧
        t.out = s.out ++ [Out.serial n (len.toNat + 1) ((s.cspOf n).tx.take words)]) ∧ (∀ m, m < 4 → m ≠ n.val → t.cspOf m = s.cspOf m) ∧
      t = { s with cycle := s.cycle + 1, regs := t.regs, bus := ⟨0#32, .done, .ok⟩, csp := t.csp, out := t.out } ∧
      RegsKept [Reg.CSP_XFER n, Reg.CSP_STATUS n] s t) ∧
  (∀ (s : State) (n : Fin 4) (rx : List Word) (bits : Nat), s.rd Fld.CLK_STATUS_APP_LOCK = 1 → (s.cspOf n).busy = some bits →
    let w := rxWords (s.rdB (Fld.CSP_CFG_LSB_FIRST n)) bits rx
    Does (.cspXferDone n rx) s fun t =>
      t.rd (Fld.CSP_XFER_BUSY n) = 0 ∧ t.cspOf n = { s.cspOf n with busy := none, rx := ((s.cspOf n).rx ++ w).take 512 } ∧
      (512 < (s.cspOf n).rx.length + w.length → t.rd (Fld.CSP_STATUS_RX_OVF n) = 1) ∧ (∀ m, m < 4 → m ≠ n.val → t.cspOf m = s.cspOf m) ∧
      t = { s with cycle := s.cycle + 1, regs := t.regs, csp := t.csp } ∧ RegsKept [Reg.CSP_XFER n, Reg.CSP_STATUS n] s t) ∧
  (∀ (s : State) (n : Fin 4) (bits : Nat) (rx : List Word), cspRawSlave s n = true → 0 < bits →
    let w := rxWords (s.rdB (Fld.CSP_CFG_LSB_FIRST n)) (min bits 4096) rx
    Does (.cspSlaveXfer n bits rx) s fun t =>
      t.cspOf n = { s.cspOf n with tx := (s.cspOf n).tx.drop ((bits + 31) / 32), rx := ((s.cspOf n).rx ++ w).take 512, lens := ((s.cspOf n).lens ++ [min bits 4096]).take 16 } ∧
      ((s.cspOf n).tx.length < (bits + 31) / 32 → t.rd (Fld.CSP_STATUS_TX_UNF n) = 1) ∧ (4096 < bits → t.rd (Fld.CSP_STATUS_LONG_EV n) = 1) ∧
      t.out = s.out ++ [Out.serial n bits ((s.cspOf n).tx.take ((bits + 31) / 32))] ∧ (∀ m, m < 4 → m ≠ n.val → t.cspOf m = s.cspOf m) ∧
      t = { s with cycle := s.cycle + 1, regs := t.regs, csp := t.csp, out := t.out } ∧ RegsKept [Reg.CSP_STATUS n] s t) ∧
  (∀ (s : State) (n : Fin 4) (bits len : Nat), cspCommand s n = true →
    let leaves := (s.cspOf n).responses.head?.any (fun r => decide (16 + 8 * (48 + r.data.length) ≤ bits))
    Does (.cspCmdXfer n bits len) s fun t =>
      (bits < 16 + 8 * len → t.rd (Fld.CSP_STATUS_SHORT_EV n) = 1) ∧
      t.cspOf n = (if leaves then { s.cspOf n with responses := (s.cspOf n).responses.tail } else s.cspOf n) ∧
      t.out = s.out ++ (if leaves then (s.cspOf n).responses.head?.toList.map (fun r => Out.response (n + 1) r) else []) ∧
      (∀ m, m < 4 → m ≠ n.val → t.cspOf m = s.cspOf m) ∧ t = { s with cycle := s.cycle + 1, regs := t.regs, csp := t.csp, out := t.out } ∧
      RegsKept [Reg.CSP_STATUS n] s t)

/-- R643, R647 to R650: a write of PC_SEL selects the event, unit, EN and OVF_EN of a counter and keeps its value; an event or unit outside the list
answers BAD_ARG, and a speculative event from any but the firmware and SERVICE DENIED, and nothing changes. CNT_LO is held until CNT_HI presets both;
a CNT_HI with a bit above 15 answers BAD_ARG. A read of a LO word answers bits 31:0 of the counter and latches its HI word; a counter of a speculative
event reads 0 to others. A counter that has passed 2^48 sets its OVF bit, and with OVF_EN interrupts the firmware. -/
def Obligations.PerformanceCounters : Prop :=
  (∀ (s : State) (i : Initiator) (c : Fin 64) (v : Word), Reaches s i (Reg.PC_SEL c) → mayWrite s i (Reg.PC_SEL c) = true →
    let e := v.toNat / 256 % 1024
    let hidden := (decide (e = 0x07E) || decide (e = 0x07F)) && !(decide (i = .fw) || sessionOf [3] s i)
    let listed := (qualMax e).any (fun m => decide (v.toNat % 256 ≤ m))
    let ok := listed && !hidden
    Does (.pcSelWrite i c v) s fun t =>
      t.reg (Reg.PC_SEL c) = (if ok then v &&& 0xC003FFFF#32 else s.reg (Reg.PC_SEL c)) ∧
      t.bus = ⟨0#32, .done, if ok then .ok else if hidden then .denied else .badArg⟩ ∧
      t.perf.on.contains c.val = (if ok then v.getLsbD 31 else s.perf.on.contains c.val) ∧
      (∀ d, d < 64 → d ≠ c.val → t.perf.on.contains d = s.perf.on.contains d) ∧
      t = { s with cycle := s.cycle + 1, regs := t.regs, bus := t.bus, perf := { s.perf with on := t.perf.on } } ∧ RegsKept [Reg.PC_SEL c] s t) ∧
  (∀ (s : State) (i : Initiator) (c : Fin 64) (v : Word), Reaches s i (Reg.PC_CNT_LO c) → mayWrite s i (Reg.PC_CNT_LO c) = true →
    Does (.cntLoWrite i c v) s fun t =>
      (∀ d, d < 64 → Tab.get none t.perf.loHeld d = (if d = c.val then some v else Tab.get none s.perf.loHeld d)) ∧
      t = { s with cycle := s.cycle + 1, bus := ⟨0#32, .done, .ok⟩, perf := { s.perf with loHeld := t.perf.loHeld } }) ∧
  (∀ (s : State) (i : Initiator) (c : Fin 64) (v : Word), Reaches s i (Reg.PC_CNT_HI c) → mayWrite s i (Reg.PC_CNT_HI c) = true →
    let ok := decide (v.toNat < 2 ^ 16)
    let lo := (Tab.get none s.perf.loHeld c.val).elim (s.wide (Reg.PC_CNT_LO c) % 2 ^ 32) (fun w => w.toNat)
    Does (.cntHiWrite i c v) s fun t =>
      t.bus = ⟨0#32, .done, if ok then .ok else .badArg⟩ ∧ (ok = false → t.perf = s.perf) ∧
      (ok = true → t.wide (Reg.PC_CNT_LO c) = v.toNat * 2 ^ 32 + lo ∧ Tab.get none t.perf.loHeld c.val = none) ∧
      (∀ d, d < 64 → d ≠ c.val → Tab.get none t.perf.loHeld d = Tab.get none s.perf.loHeld d) ∧
      t = { s with cycle := s.cycle + 1, bus := t.bus, perf := { s.perf with loHeld := t.perf.loHeld, wide := t.perf.wide } } ∧
      WideKept (fun a => decide (a = Reg.PC_CNT_LO c)) s t) ∧
  (∀ (s : State) (i : Initiator) (ofs : BitVec 17), isCounterLo (0x700000 + ofs.toNat) = true → Reaches s i (0x700000 + ofs.toNat) →
    mayRead s i (0x700000 + ofs.toNat) = true →
    let a := 0x700000 + ofs.toNat
    let hidden := (selCounterAt a).any (fun c => decide (s.rd (Fld.PC_SEL_EVENT c) = 0x07E ∨ s.rd (Fld.PC_SEL_EVENT c) = 0x07F)) &&
      !(decide (i = .fw) || sessionOf [3] s i)
    let n := if hidden || noPort s a then 0 else s.wide a
    Does (.counterLoRead i ofs) s fun t =>
      t.bus = ⟨BitVec.ofNat 32 n, .done, .ok⟩ ∧ t.reg (a + 4) = BitVec.ofNat 32 (n / 2 ^ 32) ∧
      t = { s with cycle := s.cycle + 1, regs := t.regs, bus := t.bus } ∧ RegsKept [a, a + 4] s t) ∧
  (∀ (s : State) (c : Fin 64), s.perf.passed.contains c.val = true →
    Does (.counterOvf c) s fun t =>
      t.mapBit Fld.PC_OVF c = true ∧ t.perf.passed.contains c.val = false ∧
      t.out = s.out ++ (if s.rd (Fld.PC_SEL_OVF_EN c) = 1 then [Out.fwIrq 0x22 c] else []) ∧ t.log = s.log ∧
      (∀ d, d < 64 → d ≠ c.val → t.mapBit Fld.PC_OVF d = s.mapBit Fld.PC_OVF d ∧ t.perf.passed.contains d = s.perf.passed.contains d) ∧
      t = { s with cycle := s.cycle + 1, regs := t.regs, out := t.out, perf := { s.perf with passed := t.perf.passed } } ∧
      RegsKept [Reg.PC_OVF 0, Reg.PC_OVF 1] s t)

/-- R643, R651 to R654, R668: a command of PC_CTRL waits in CMD for the frame tick; an F of SNAP_AT that does not lie ahead answers BAD_ARG. The frame tick
takes it: SNAP_NEXT takes the snapshot of that frame, SNAP_AT that of frame F, and FREEZE and UNFREEZE set and clear FROZEN. A snapshot, taken at its
frame's tick or now, shows the fixed, loop engine and selectable counters in the window, LE_MAX restarts where it is taken, SNAP_FN is the frame and
SNAP_DONE is set; with no ticks the control die's counters keep their copies and SNAP_PART is set. A whole bandwidth window latches the lowest,
highest and mean rate of each used port, and the next window starts where it ended. -/
def Obligations.SnapshotsAndWindows : Prop :=
  (∀ (s : State) (i : Initiator), Reaches s i Reg.PC_CTRL → mayWrite s i Reg.PC_CTRL = true →
    let d := (s.rd Fld.PC_AT_LO + 2 ^ 32 * s.rd Fld.PC_AT_HI + 2 ^ 48 - s.fn) % 2 ^ 48
    let ahead := decide (1 ≤ d ∧ d < 2 ^ 47)
    let waits : Nat → State → Prop := fun cmd t =>
      t.rd Fld.PC_CTRL_CMD = cmd ∧ BitsKept Reg.PC_CTRL [Fld.PC_CTRL_CMD] s t ∧
      t = { s with cycle := s.cycle + 1, regs := t.regs, bus := ⟨0#32, .done, .ok⟩ } ∧ RegsKept [Reg.PC_CTRL] s t
    Does (.snapNext i) s (waits 1) ∧ (ahead = true → Does (.snapAt i) s (waits 2)) ∧
    (ahead = false → Does (.snapAt i) s fun t => t = { s with cycle := s.cycle + 1, bus := ⟨0#32, .done, .badArg⟩ }) ∧
    Does (.freeze i) s (waits 3) ∧ Does (.unfreeze i) s (waits 4)) ∧
  (∀ (s : State) (sinA sinB : BitVec 32) (srb : BitVec 16) (ack : Bool), s.mainOn = true →
    let cmd := s.rd Fld.PC_CTRL_CMD
    let f := s.rd Fld.PC_AT_LO + 2 ^ 32 * s.rd Fld.PC_AT_HI
    Does (.frameTick sinA sinB srb ack) s fun t =>
      t.rd Fld.PC_CTRL_CMD = 0 ∧
      t.rd Fld.PC_STATUS_FROZEN = (if cmd = 3 then 1 else if cmd = 4 then 0 else s.rd Fld.PC_STATUS_FROZEN) ∧
      (cmd = 1 ∨ (cmd = 2 ∧ f = t.fn) → t.perf.held.any (fun h => h.frame == t.fn) = true ∧ t.perf.snapAt = none) ∧
      (cmd = 2 → 1 ≤ fnDiff f t.fn → fnDiff f t.fn < 2 ^ 47 → t.perf.snapAt = some f)) ∧
  (∀ (s : State), s.perf.held.isSome = true ∨ s.perf.snapAt = some s.fn →
    let now := s.perf.held.isNone
    let part := (s.perf.held.map Held.part).getD (decide (s.rd Fld.SCHED_CFG_TICK_RUN = 0))
    let src := fun a => (s.perf.held.map (fun h => Tab.get 0 h.wide a)).getD (s.wide a)
    let le := fun st => (s.perf.held.map (fun h => (h.le[st]?).getD (0#32, 0#32))).getD (s.reg (Reg.LE_MAX st), s.reg (Reg.LE_OVR st))
    let frame := (s.perf.held.map Held.frame).getD s.fn
    let ctrl := fun c => decide (0x080 ≤ s.rd (Fld.PC_SEL_EVENT c) ∧ s.rd (Fld.PC_SEL_EVENT c) ≤ 0x088)
    Does .snapshot s fun t =>
      (∀ p, p < 128 → ∀ k, k < 8 → t.wide (Reg.PCN_RX_BYTES_LO p + 8 * k + 0x10000) = src (Reg.PCN_RX_BYTES_LO p + 8 * k)) ∧
      (∀ c, c < 64 → t.wide (Reg.PC_CNT_LO c + 0x10000) = (if part && ctrl c then s.wide (Reg.PC_CNT_LO c + 0x10000) else src (Reg.PC_CNT_LO c))) ∧
      (∀ k, k < 5 → t.wide (0x714000 + 8 * k) = (if part then s.wide (0x714000 + 8 * k) else src (0x704000 + 8 * k))) ∧
      (∀ st, st < 4 → t.reg (Reg.LE_MAX st + 0x10000) = (if part then s.reg (Reg.LE_MAX st + 0x10000) else (le st).1) ∧
        t.reg (Reg.LE_OVR st + 0x10000) = (if part then s.reg (Reg.LE_OVR st + 0x10000) else (le st).2) ∧
        t.rd (Fld.LE_MAX st) = (if now && !part then 0 else s.rd (Fld.LE_MAX st)) ∧ t.reg (Reg.LE_OVR st) = s.reg (Reg.LE_OVR st)) ∧
      t.rd Fld.PC_SNAP_FN_LO = frame % 2 ^ 32 ∧ t.rd Fld.PC_SNAP_FN_HI = frame / 2 ^ 32 % 2 ^ 16 ∧ t.rd Fld.PC_STATUS_SNAP_DONE = 1 ∧
      t.rd Fld.PC_STATUS_SNAP_PART = (if part then 1 else s.rd Fld.PC_STATUS_SNAP_PART) ∧
      t = { s with cycle := s.cycle + 1, regs := t.regs,
                   perf := { s.perf with wide := t.perf.wide, snapAt := if now then none else s.perf.snapAt, held := none } } ∧
      WideKept (fun a => decide (0x710000 ≤ a ∧ a < 0x720000)) s t ∧
      RegsKeptBut (fun a => within [(0x704030, 0x704040), (0x714030, 0x714050)] a ||
        [Reg.PC_SNAP_FN_LO, Reg.PC_SNAP_FN_HI, Reg.PC_STATUS].contains a) s t) ∧
  (∀ (s : State), s.perf.held = none → s.perf.snapAt ≠ some s.fn → Does .snapshot s fun t => t = { s with cycle := s.cycle + 1 }) ∧
  (∀ (s : State), s.perf.ended = none → Does .bwWindowEnd s fun t => t = { s with cycle := s.cycle + 1 }) ∧
  (∀ (s : State), s.perf.ended.isSome = true →
    let w := s.perf.win
    let latch := s.perf.whole
    let r := fun k => Tab.get restBw s.perf.bw k
    let rate := fun b : Nat => min (roundDiv (b * 8) 100).toNat (2 ^ 32 - 1)
    let mean := fun b : Nat => min (roundDiv (b * 8) (1000 * w)).toNat (2 ^ 32 - 1)
    Does .bwWindowEnd s fun t =>
      t.rd Fld.PC_STATUS_BW_VALID = (if latch then 1 else s.rd Fld.PC_STATUS_BW_VALID) ∧
      (∀ p ∈ portsOn s, Tab.get restBw t.perf.bw (2 * p) = ⟨(r (2 * p)).subAt, (r (2 * p)).subAt, none, 0⟩ ∧
        Tab.get restBw t.perf.bw (2 * p + 1) = ⟨(r (2 * p + 1)).subAt, (r (2 * p + 1)).subAt, none, 0⟩ ∧
        (latch = true → t.rd (Fld.BW_RX_MIN p) = rate ((r (2 * p)).lo.getD 0) ∧ t.rd (Fld.BW_RX_MAX p) = rate (r (2 * p)).hi ∧
          t.rd (Fld.BW_RX_MEAN p) = mean (bytesSince (r (2 * p)).subAt (r (2 * p)).winAt) ∧
          t.rd (Fld.BW_TX_MIN p) = rate ((r (2 * p + 1)).lo.getD 0) ∧ t.rd (Fld.BW_TX_MAX p) = rate (r (2 * p + 1)).hi ∧
          t.rd (Fld.BW_TX_MEAN p) = mean (bytesSince (r (2 * p + 1)).subAt (r (2 * p + 1)).winAt))) ∧
      t = { s with cycle := s.cycle + 1, regs := t.regs, perf := { s.perf with bw := t.perf.bw, whole := true, ended := none } } ∧
      (latch = false → RegsKept [] s t) ∧
      RegsKeptBut (fun a => decide (a = Reg.PC_STATUS) || (portsOn s).any (fun p => decide (Reg.BW_RX_MIN p ≤ a ∧ a < Reg.BW_RX_MIN p + 24))) s t)

/-- R59, R60, R307, R477, R478, R655 to R662, R671, R672: the TAP accepts IDCODE, SAMPLE and BYPASS always, the other codes only in their scope; IDCODE
shifts out the identity, and an accepted boundary instruction its register. A route within the scope is logged and taken, outside it DENIED. A
debugger's halt marks its units, breaks lockstep, and outside test-stand mode locks the safety I/O out; the resume clears the marks. An unlock ends by
its time, or by LOCK of its own session only: routes none, the TAP reset, halted units resume. -/
def Obligations.TestAccess : Prop :=
  (∀ (s : State),
    let open' := decide (s.otp.lifecycle ≤ 1) || (decide (s.otp.lifecycle = 2) && s.dbg.unlockLeft.isSome)
    let scope := if s.otp.lifecycle ≤ 1 then 15 else s.rd Fld.DBG_UNLOCK_SCOPE
    let in' := fun b : Nat => open' && scope.testBit b
    let after : Nat → Bool → Nat → State → Prop := fun code takes shifts t =>
      t.dbg = { s.dbg with tap := if takes then code else 0xFF, heldEn := regEnOut s } ∧
      t.out = s.out ++ (if shifts = 2 then [Out.tap idcode] else if takes && decide (shifts = 1) then [Out.tap (scanWord t)] else []) ∧
      (s.rd Fld.RAIL_STATUS_EN = regEnOut s → t.rd Fld.RAIL_STATUS_EN = regEnOut t) ∧
      (takes = true → (code = 3 ∨ code = 4) → regEnOut t = regEnOut s) ∧
      t = { s with cycle := s.cycle + 1, regs := t.regs, out := t.out, dbg := t.dbg } ∧
      BitsKept Reg.RAIL_STATUS [Fld.RAIL_STATUS_EN] s t ∧ RegsKept [Reg.RAIL_STATUS] s t
    Does .idcode s (after 0x01 true 2) ∧ Does .samplePreload s (after 0x02 true 1) ∧ Does .extest s (after 0x03 (in' 2) 1) ∧
    Does .intest s (after 0x04 (in' 2) 1) ∧ Does .extestPulse s (after 0x05 (in' 2) 0) ∧ Does .extestTrain s (after 0x06 (in' 2) 0) ∧
    Does .debug s (after 0x10 (in' 3) 0) ∧ Does .bypass s (after 0xFF true 0)) ∧
  (∀ (s : State) (i : Initiator) (n : Fin 2) (v : Word), Reaches s i (Reg.DBG_ATEST_SEL n) → mayWrite s i (Reg.DBG_ATEST_SEL n) = true →
    s.reg (Reg.DBG_ATEST_SEL n) ≠ v &&& 0xFFF#32 → (scopeBit 1 s = true → s.clog.queue.length < 64) →
    let ok := (atestLimit (v.toNat / 256 % 16)).any (fun m => decide (v.toNat % 256 < m))
    let takes := scopeBit 1 s && ok
    Does (.atestRoute i n v) s fun t =>
      t.reg (Reg.DBG_ATEST_SEL n) = (if takes then v &&& 0xFFF#32 else s.reg (Reg.DBG_ATEST_SEL n)) ∧
      t.bus = ⟨0#32, .done, if takes then .ok else if scopeBit 1 s then .badArg else .denied⟩ ∧
      t.clog.queue.length = s.clog.queue.length + (if takes then 1 else 0) ∧
      (takes = true → v.toNat / 256 % 16 = 1 → t.bit (Fld.ADC_CORE_STATUS_DISTURB (v.toNat % 256 / 4)) (v.toNat % 4) = true) ∧
      (scopeBit 1 s = false → Logged 1 3 (Reg.DBG_ATEST_SEL n) s t) ∧
      t = { s with cycle := s.cycle + 1, regs := t.regs, bus := t.bus, clog := t.clog, log := t.log, adc := t.adc } ∧
      RegsKeptBut (fun a => [Reg.DBG_ATEST_SEL n, Reg.CLOG_STATUS, Reg.LOG_STATUS].contains a || inArray (Reg.ADC_CORE_STATUS 0) 0x1000 40 a ||
        inArray (Reg.ADC_CORE_EVENTS 0) 0x1000 40 a) s t) ∧
  (∀ (s : State) (core eng : Bool) (apps : BitVec 4), s.dbg.tap = 0x10 → scopeBit 3 s = true → (core || eng || decide (apps ≠ 0#4)) = true →
    let units := core || eng
    Does (.debugHalt core eng apps) s fun t =>
      t.rd Fld.DBG_HALT_STATUS_APP = s.rd Fld.DBG_HALT_STATUS_APP ||| apps.toNat ∧
      (units = false → Logged 0x22 4 (apps.toNat * 16) s t ∧ RegsKept [Reg.DBG_HALT_STATUS, Reg.LOG_STATUS] s t ∧
        t = { s with cycle := s.cycle + 1, regs := t.regs, log := t.log }) ∧
      (units = true → t.rdB Fld.DBG_HALT_STATUS_CORE = (s.rdB Fld.DBG_HALT_STATUS_CORE || core) ∧
        t.rdB Fld.DBG_HALT_STATUS_ENGINE = (s.rdB Fld.DBG_HALT_STATUS_ENGINE || eng) ∧ t.rd Fld.LS_STATUS_LOCKSTEP_BROKEN = 1 ∧
        t.rd Fld.LS_STATUS_BROKEN_UNIT = s.rd Fld.LS_STATUS_BROKEN_UNIT ||| core.toNat + 2 * eng.toNat ∧ t.rd Fld.LS_EVENTS_BROKEN_EV = 1 ∧
        t.ls = { s.ls with coreHalted := s.ls.coreHalted || core, engHalted := s.ls.engHalted || eng } ∧
        t.rd Fld.LS_STATUS_CORE_STATE = (if core && decide (s.rd Fld.LS_STATUS_CORE_STATE ≠ 2) then 3 else s.rd Fld.LS_STATUS_CORE_STATE) ∧
        t.rd Fld.LS_STATUS_ENG_STATE = (if eng && decide (s.rd Fld.LS_STATUS_ENG_STATE ≠ 2) then 3 else s.rd Fld.LS_STATUS_ENG_STATE) ∧
        (eng = true → t.rd Fld.LE_STATUS_DBG_HALT = 1 ∧ t.rd Fld.LE_STATUS_RUN = 0)) ∧
      (units = true → s.rd Fld.SAFE_STATUS_TEST_STAND = 0 → LockedOut 7 s t) ∧
      (units = true → s.rd Fld.SAFE_STATUS_TEST_STAND = 1 → AllSettled s t ∧ t.reg Reg.SOUT_STATE = s.reg Reg.SOUT_STATE ∧
        t.reg Reg.SAFE_STATUS = s.reg Reg.SAFE_STATUS) ∧
      t = { s with cycle := s.cycle + 1, regs := t.regs, log := t.log, perf := t.perf, out := t.out, ls := t.ls,
                   safe := { s.safe with arisen := t.safe.arisen } } ∧
      RegsKeptBut (fun a => lockReg a || [Reg.DBG_HALT_STATUS, Reg.LS_STATUS, Reg.LS_EVENTS, Reg.LE_STATUS].contains a) s t) ∧
  (∀ (s : State), s.dbg.tap = 0x10 → scopeBit 3 s = true →
    let units := s.ls.coreHalted || s.ls.engHalted
    let app := s.rd Fld.DBG_HALT_STATUS_APP
    Does .debugResume s fun t =>
      t.rd Fld.DBG_HALT_STATUS_APP = 0 ∧ t.lan = (if app % 2 = 0 ∧ app = 0 then s.lan else { s.lan with appAge := 0 }) ∧
      (units = false → t = { s with cycle := s.cycle + 1, regs := t.regs, lan := t.lan } ∧ RegsKept [Reg.DBG_HALT_STATUS] s t) ∧
      (units = true → t.rd Fld.DBG_HALT_STATUS_CORE = 0 ∧ t.rd Fld.DBG_HALT_STATUS_ENGINE = 0 ∧ t.rd Fld.LE_STATUS_DBG_HALT = 0 ∧
        t.rd Fld.LS_STATUS_LOCKSTEP_BROKEN = s.rd Fld.LS_STATUS_LOCKSTEP_BROKEN ∧
        t.ls = { s.ls with coreHalted := false, engHalted := false, trip := s.ls.trip || !s.rdB Fld.SAFE_STATUS_TEST_STAND } ∧ AllSettled s t ∧
        (s.rd Fld.SAFE_STATUS_LOCKED = 1 → OutputsOff t)) ∧
      t = { s with cycle := s.cycle + 1, regs := t.regs, log := t.log, perf := t.perf, out := t.out, ls := t.ls, lan := t.lan } ∧
      RegsKeptBut (fun a => lockReg a || [Reg.DBG_HALT_STATUS, Reg.LE_STATUS].contains a) s t) ∧
  (∀ (s : State) (k : Fin 64),
    let ended : Nat → State → Prop := fun reason t =>
      t.dbg.unlockLeft = none ∧ t.dbg.tap = 1 ∧ (∀ n, n < 4 → t.reg (Reg.DBG_OBS_SEL n) = 0#32) ∧ (∀ n, n < 2 → t.reg (Reg.DBG_ATEST_SEL n) = 0#32) ∧
      t.rd Fld.DBG_UNLOCK_MIN_LEFT = 0 ∧ t.rdB Fld.DBG_UNLOCK_OPEN = decide (s.otp.lifecycle ≤ 1) ∧
      t.rd Fld.DBG_UNLOCK_SCOPE = (if s.otp.lifecycle ≤ 1 then 15 else 0) ∧
      t.rd Fld.DBG_HALT_STATUS_APP = 0 ∧ t.ls.coreHalted = false ∧ t.ls.engHalted = false ∧
      t.rd Fld.LS_STATUS_LOCKSTEP_BROKEN = s.rd Fld.LS_STATUS_LOCKSTEP_BROKEN ∧
      (s.ls.coreHalted = false → s.ls.engHalted = false → (∀ m, m < 2 → s.reg (Reg.DBG_ATEST_SEL m) = 0#32) → Logged 0x22 2 reason s t)
    (s.dbg.unlockLeft = some 0 → Does .unlockEnd s (ended 1)) ∧
    (accessFault s Reg.DBG_UNLOCK = none → mayWrite s (.session k) Reg.DBG_UNLOCK = true → s.dbg.unlockLeft.isSome = true →
      s.rd Fld.DBG_UNLOCK_SESSION = k.val → Does (.dbgLock (.session k)) s (ended 3))) ∧
  (∀ (s : State) (i : Initiator), Reaches s i Reg.DBG_UNLOCK → mayWrite s i Reg.DBG_UNLOCK = true →
    s.dbg.unlockLeft = none ∨ (∀ k : Fin 64, i = .session k → s.rd Fld.DBG_UNLOCK_SESSION ≠ k.val) →
    Does (.dbgLock i) s fun t => t = { s with cycle := s.cycle + 1, bus := ⟨0#32, .done, .denied⟩ }) ∧
  (∀ (s : State), s.dbg.unlockLeft ≠ some 0 → Does .unlockEnd s fun t => t = { s with cycle := s.cycle + 1 })

/-- R3, R40: the register file keeps its canonical form in every step, whatever the state: addresses rise strictly and no word is listed that equals the
reset word of its address, so that equal register files are equal data (the form is the model's own, log entry 54). -/
def Obligations.RegisterFileStaysCanonical : Prop :=
  ∀ (s t : State), s.RegsOk → step s = .next t → t.RegsOk

/-- R142 to R145, R196: the stores of the logs stay within their size in every step: the ingress queues of the Lantern, the control die and the switch die
hold at most 8, 32 and 32 entries, the trouble log 1,024, and the queue of the change log 64. -/
def Obligations.LogStoresStayBounded : Prop :=
  ∀ (s t : State), s.LogsOk → step s = .next t → t.LogsOk

/-- R142, R196: after reset the register file has its canonical form and the stores of the logs are within their size. -/
def Obligations.ResetMeetsTheInvariants : Prop :=
  State.reset.RegsOk ∧ State.reset.LogsOk

/-- R5, R22, R41, R42: a command never stops the part: every command in every state, whatever its operands, answers a next state. -/
def Obligations.EveryCommandCompletes : Prop :=
  ∀ (c : Instr) (s : State), ∃ t, exec c s = .next t
end

