-- ==== Sys2Proof/Laws/Fields.lean ====
section
/-!
SUPPORT. Laws/Fields.lean: what reading a field gives after a field has been written.
-/
namespace Sys2Proof.Machine

/-- A field lies within its word. -/
abbrev FRef.ok (f : FRef) : Prop := f.lo ≤ f.hi ∧ f.hi < 32

theorem FRef.mask_bit (f : FRef) (h : f.ok) (n : Nat) (hn : n < 32) : f.mask.getLsbD n = decide (f.lo ≤ n ∧ n ≤ f.hi) := by
  obtain ⟨h1, h2⟩ := h
  unfold FRef.mask
  simp only [BitVec.getLsbD_shiftLeft, BitVec.getLsbD_ushiftRight, BitVec.getLsbD_allOnes, hn, decide_true, Bool.true_and]
  by_cases ha : n < f.lo
  · simp [ha, show ¬ f.lo ≤ n by omega]
  · by_cases hb : n ≤ f.hi
    · simp [ha, hb, show f.lo ≤ n by omega]; omega
    · simp [ha, hb]; omega

/-- Bit `i` of a field is bit `lo + i` of its word. -/
theorem FRef.testBit_get (f : FRef) (h : f.ok) (w : Word) (i : Nat) :
    (f.get w).testBit i = (decide (i < f.width) && w.getLsbD (f.lo + i)) := by
  have h' := h
  obtain ⟨h1, h2⟩ := h
  unfold FRef.get
  rw [BitVec.testBit_toNat, BitVec.getLsbD_ushiftRight, BitVec.getLsbD_and]
  by_cases hn : f.lo + i < 32
  · rw [FRef.mask_bit f h' _ hn]
    have : decide (f.lo ≤ f.lo + i ∧ f.lo + i ≤ f.hi) = decide (i < f.width) := by
      unfold FRef.width
      exact decide_eq_decide.mpr (by omega)
    rw [this, Bool.and_comm]
  · have : ¬ i < f.width := by unfold FRef.width; omega
    rw [BitVec.getLsbD_of_ge _ _ (by omega)]
    simp [this]

/-- Bit `n` of a word with one field replaced. -/
theorem FRef.bit_put (f : FRef) (h : f.ok) (w : Word) (v n : Nat) (hn : n < 32) :
    (f.put w v).getLsbD n = if f.lo ≤ n ∧ n ≤ f.hi then v.testBit (n - f.lo) else w.getLsbD n := by
  have h' := h
  obtain ⟨h1, h2⟩ := h
  unfold FRef.put
  rw [BitVec.getLsbD_or, BitVec.getLsbD_and, BitVec.getLsbD_not, BitVec.getLsbD_and, BitVec.getLsbD_shiftLeft,
    FRef.mask_bit f h' n hn]
  by_cases hm : f.lo ≤ n ∧ n ≤ f.hi
  · have : n - f.lo < 32 := by omega
    simp [hm, hn, show ¬ n < f.lo by omega, BitVec.getLsbD_ofNat, this, - BitVec.getLsbD_eq_getElem]
  · simp [hm, hn]

/-- A field reads what was written to it, modulo its range. -/
theorem FRef.get_put_same (f : FRef) (h : f.ok) (w : Word) (v : Nat) : f.get (f.put w v) = v % 2 ^ f.width := by
  apply Nat.eq_of_testBit_eq
  intro i
  rw [FRef.testBit_get f h, Nat.testBit_mod_two_pow]
  by_cases hi : i < f.width
  · have h2 := h.2
    have h1 := h.1
    have hw : i < f.hi + 1 - f.lo := hi
    rw [FRef.bit_put f h _ _ _ (by omega)]
    have : f.lo ≤ f.lo + i ∧ f.lo + i ≤ f.hi := by omega
    simp [hi, this]
  · simp [hi]

/-- A write of one field leaves every field beside it as it was. -/
theorem FRef.get_put_disjoint (f g : FRef) (hf : f.ok) (hg : g.ok) (h : g.hi < f.lo ∨ f.hi < g.lo) (w : Word) (v : Nat) :
    g.get (f.put w v) = g.get w := by
  apply Nat.eq_of_testBit_eq
  intro i
  rw [FRef.testBit_get g hg, FRef.testBit_get g hg]
  by_cases hi : i < g.width
  · have h2 := hg.2
    have hw : i < g.hi + 1 - g.lo := hi
    rw [FRef.bit_put f hf _ _ _ (by omega)]
    have : ¬ (f.lo ≤ g.lo + i ∧ g.lo + i ≤ f.hi) := by omega
    simp [this]
  · simp [hi]

/-- A field's value lies in its range. -/
theorem FRef.get_lt (f : FRef) (h : f.ok) (w : Word) : f.get w < 2 ^ f.width := by
  apply Nat.lt_pow_two_of_testBit
  intro i hi
  rw [FRef.testBit_get f h]
  simp [show ¬ i < f.width by omega]

/-- Writing a field with the value it holds changes nothing. -/
theorem FRef.put_get_self (f : FRef) (h : f.ok) (w : Word) : f.put w (f.get w) = w := by
  apply BitVec.eq_of_getLsbD_eq
  intro i hi
  rw [FRef.bit_put f h _ _ _ hi]
  split
  · next hm =>
    rw [FRef.testBit_get f h]
    have : i - f.lo < f.width := by unfold FRef.width; omega
    simp [this, show f.lo + (i - f.lo) = i by omega]
  · rfl

end Sys2Proof.Machine
end

