-- ==== Sys2Proof/Laws/Tab.lean ====
section
/-!
SUPPORT. Laws/Tab.lean: what a read of a sparse table gives after a write, and that every operation keeps its canonical form.
-/
namespace Sys2Proof.Machine

theorem Tab.get_erase_same {α : Type} (d : α) (t : Tab α) (a : Nat) : Tab.get d (t.erase a) a = d := by
  induction t with
  | nil => rfl
  | cons e t ih =>
    obtain ⟨k, v⟩ := e
    by_cases h : k = a <;> simp [Tab.erase, Tab.get, h, ih]

theorem Tab.get_erase_ne {α : Type} (d : α) (t : Tab α) {a b : Nat} (h : a ≠ b) : Tab.get d (t.erase a) b = Tab.get d t b := by
  induction t with
  | nil => rfl
  | cons e t ih =>
    obtain ⟨k, v⟩ := e
    by_cases hk : k = a
    · subst hk; simp [Tab.erase, Tab.get, h, ih]
    · by_cases hb : k = b
      · subst hb; simp [Tab.erase, Tab.get, hk]
      · simp [Tab.erase, Tab.get, hk, hb, ih]

theorem Tab.get_insert_ne {α : Type} (d : α) (t : Tab α) {a b : Nat} (v : α) (h : a ≠ b) : Tab.get d (t.insert a v) b = Tab.get d t b := by
  induction t with
  | nil => simp [Tab.insert, Tab.get, h]
  | cons e t ih =>
    obtain ⟨k, w⟩ := e
    by_cases hk : a < k
    · simp [Tab.insert, hk, Tab.get, h]
    · by_cases hb : k = b
      · subst hb; simp [Tab.insert, hk, Tab.get]
      · simp [Tab.insert, hk, Tab.get, hb, ih]

theorem Tab.get_insert_erase {α : Type} (d : α) (t : Tab α) (a : Nat) (v : α) : Tab.get d ((t.erase a).insert a v) a = v := by
  induction t with
  | nil => simp [Tab.erase, Tab.insert, Tab.get]
  | cons e t ih =>
    obtain ⟨k, w⟩ := e
    by_cases hk : k = a
    · simp [Tab.erase, hk, ih]
    · by_cases hl : a < k <;> simp [Tab.erase, hk, Tab.insert, hl, Tab.get, ih]

/-- A read after a write of the same key gives the value written. -/
theorem Tab.get_set_same {α : Type} [DecidableEq α] (d : α) (t : Tab α) (a : Nat) (v : α) : Tab.get d (Tab.set d t a v) a = v := by
  unfold Tab.set
  split
  · next h => rw [Tab.get_erase_same, h]
  · exact Tab.get_insert_erase d t a v

/-- A write leaves every other key as it was, whatever that key reads as when it is unlisted. -/
theorem Tab.get_set_ne {α : Type} [DecidableEq α] (d d' : α) (t : Tab α) {a b : Nat} (v : α) (h : a ≠ b) :
    Tab.get d' (Tab.set d t a v) b = Tab.get d' t b := by
  unfold Tab.set
  split
  · exact Tab.get_erase_ne d' t h
  · rw [Tab.get_insert_ne d' _ v h, Tab.get_erase_ne d' t h]

theorem Tab.rising_mono {α : Type} (t : Tab α) {x y : Option Nat} (h : ∀ l, y = some l → ∃ m, x = some m ∧ l ≤ m) :
    Tab.rising x t = true → Tab.rising y t = true := by
  cases t with
  | nil => intro _; rfl
  | cons e t =>
    obtain ⟨k, v⟩ := e
    intro hr
    simp only [Tab.rising, Bool.and_eq_true] at hr ⊢
    refine ⟨?_, hr.2⟩
    cases y with
    | none => rfl
    | some l =>
      obtain ⟨m, rfl, hm⟩ := h l rfl
      have := hr.1
      simp only [decide_eq_true_eq] at this ⊢
      omega

theorem Tab.rising_erase {α : Type} (t : Tab α) (a : Nat) (x : Option Nat) (h : Tab.rising x t = true) : Tab.rising x (t.erase a) = true := by
  induction t generalizing x with
  | nil => rfl
  | cons e t ih =>
    obtain ⟨k, v⟩ := e
    simp only [Tab.rising, Bool.and_eq_true] at h
    by_cases hk : k = a
    · simp only [Tab.erase, hk, if_true]
      apply ih
      refine Tab.rising_mono t ?_ h.2
      intro l hl
      subst hl
      have := h.1
      simp only [decide_eq_true_eq] at this
      exact ⟨k, rfl, by omega⟩
    · simp only [Tab.erase, hk, if_false, Tab.rising, Bool.and_eq_true]
      exact ⟨h.1, ih _ h.2⟩

theorem Tab.erase_ne {α : Type} (t : Tab α) (a : Nat) : ∀ e ∈ t.erase a, e.1 ≠ a := by
  induction t with
  | nil => intro e he; cases he
  | cons f t ih =>
    obtain ⟨k, v⟩ := f
    intro e he
    by_cases hk : k = a
    · rw [Tab.erase, if_pos hk] at he; exact ih e he
    · rw [Tab.erase, if_neg hk] at he
      rcases List.mem_cons.mp he with rfl | h
      · exact hk
      · exact ih e h

theorem Tab.mem_erase {α : Type} (t : Tab α) (a : Nat) : ∀ e ∈ t.erase a, e ∈ t := by
  induction t with
  | nil => intro e he; cases he
  | cons f t ih =>
    obtain ⟨k, v⟩ := f
    intro e he
    by_cases hk : k = a
    · rw [Tab.erase, if_pos hk] at he; exact List.mem_cons_of_mem _ (ih e he)
    · rw [Tab.erase, if_neg hk] at he
      rcases List.mem_cons.mp he with rfl | h
      · exact List.mem_cons_self
      · exact List.mem_cons_of_mem _ (ih e h)

theorem Tab.mem_insert {α : Type} (t : Tab α) (a : Nat) (v : α) : ∀ e ∈ t.insert a v, e = (a, v) ∨ e ∈ t := by
  induction t with
  | nil => intro e he; simp [Tab.insert] at he; exact Or.inl he
  | cons f t ih =>
    obtain ⟨k, w⟩ := f
    intro e he
    by_cases hk : a < k
    · rw [Tab.insert, if_pos hk] at he
      rcases List.mem_cons.mp he with h | h
      · exact Or.inl h
      · exact Or.inr h
    · rw [Tab.insert, if_neg hk] at he
      rcases List.mem_cons.mp he with rfl | h
      · exact Or.inr List.mem_cons_self
      · rcases ih e h with h | h
        · exact Or.inl h
        · exact Or.inr (List.mem_cons_of_mem _ h)

theorem Tab.rising_insert {α : Type} (t : Tab α) (a : Nat) (v : α) (x : Option Nat) (hx : ∀ l, x = some l → l < a)
    (hne : ∀ e ∈ t, e.1 ≠ a) (h : Tab.rising x t = true) : Tab.rising x (t.insert a v) = true := by
  induction t generalizing x with
  | nil =>
    cases x with
    | none => rfl
    | some l => simp [Tab.insert, Tab.rising, hx l rfl]
  | cons f t ih =>
    obtain ⟨k, w⟩ := f
    simp only [Tab.rising, Bool.and_eq_true] at h
    have hk : k ≠ a := hne (k, w) List.mem_cons_self
    by_cases hl : a < k
    · rw [Tab.insert, if_pos hl]
      simp only [Tab.rising, Bool.and_eq_true, decide_eq_true_eq]
      refine ⟨?_, hl, h.2⟩
      cases x with
      | none => rfl
      | some l => simpa using hx l rfl
    · rw [Tab.insert, if_neg hl]
      simp only [Tab.rising, Bool.and_eq_true]
      refine ⟨h.1, ih _ ?_ (fun e he => hne e (List.mem_cons_of_mem _ he)) h.2⟩
      intro l hl'
      cases hl'
      omega

/-- Writing a key keeps the canonical form. -/
theorem Tab.wf_set {α : Type} [DecidableEq α] (d : Nat → α) (t : Tab α) (a : Nat) (v : α) (h : Tab.wf d t = true) :
    Tab.wf d (Tab.set (d a) t a v) = true := by
  simp only [Tab.wf, Bool.and_eq_true, List.all_eq_true, decide_eq_true_eq] at h ⊢
  unfold Tab.set
  split
  · exact ⟨Tab.rising_erase t a none h.1, fun e he => h.2 e (Tab.mem_erase t a e he)⟩
  · next hv =>
    refine ⟨Tab.rising_insert _ a v none (by simp) (Tab.erase_ne t a) (Tab.rising_erase t a none h.1), ?_⟩
    intro e he
    rcases Tab.mem_insert _ a v e he with rfl | h'
    · exact hv
    · exact h.2 e (Tab.mem_erase t a e h')

theorem Tab.mem_keep {α : Type} (p : Nat → Bool) (t : Tab α) : ∀ e ∈ t.keep p, e ∈ t := by
  induction t with
  | nil => intro e he; cases he
  | cons f t ih =>
    obtain ⟨k, v⟩ := f
    intro e he
    by_cases hk : p k = true
    · rw [Tab.keep, if_pos hk] at he
      rcases List.mem_cons.mp he with rfl | h
      · exact List.mem_cons_self
      · exact List.mem_cons_of_mem _ (ih e h)
    · rw [Tab.keep, if_neg hk] at he; exact List.mem_cons_of_mem _ (ih e he)

theorem Tab.rising_keep {α : Type} (p : Nat → Bool) (t : Tab α) (x : Option Nat) (h : Tab.rising x t = true) :
    Tab.rising x (t.keep p) = true := by
  induction t generalizing x with
  | nil => rfl
  | cons e t ih =>
    obtain ⟨k, v⟩ := e
    simp only [Tab.rising, Bool.and_eq_true] at h
    by_cases hk : p k = true
    · simp only [Tab.keep, hk, if_true, Tab.rising, Bool.and_eq_true]
      exact ⟨h.1, ih _ h.2⟩
    · rw [Tab.keep, if_neg hk]
      apply ih
      refine Tab.rising_mono t ?_ h.2
      intro l hl
      subst hl
      have := h.1
      simp only [decide_eq_true_eq] at this
      exact ⟨k, rfl, by omega⟩

/-- Dropping entries keeps the canonical form. -/
theorem Tab.wf_keep {α : Type} [DecidableEq α] (d : Nat → α) (p : Nat → Bool) (t : Tab α) (h : Tab.wf d t = true) :
    Tab.wf d (t.keep p) = true := by
  simp only [Tab.wf, Bool.and_eq_true, List.all_eq_true, decide_eq_true_eq] at h ⊢
  exact ⟨Tab.rising_keep p t none h.1, fun e he => h.2 e (Tab.mem_keep p t e he)⟩

/-- A read after dropping entries: the kept ones read as before, the others as unlisted. -/
theorem Tab.get_keep {α : Type} (d : α) (p : Nat → Bool) (t : Tab α) (a : Nat) :
    Tab.get d (t.keep p) a = if p a = true then Tab.get d t a else d := by
  induction t with
  | nil => simp [Tab.keep, Tab.get]
  | cons e t ih =>
    obtain ⟨k, v⟩ := e
    by_cases hk : p k = true
    · by_cases ha : k = a
      · subst ha; simp [Tab.keep, hk, Tab.get]
      · simp [Tab.keep, hk, Tab.get, ha, ih]
    · by_cases ha : k = a
      · subst ha; simp [Tab.keep, hk, ih]
      · simp [Tab.keep, hk, Tab.get, ha, ih]

end Sys2Proof.Machine
end

