-- ==== Sys2Proof/Laws/State.lean ====
section
/-!
SUPPORT. Laws/State.lean: what each field of the state is after each update: one lemma per field per update, so that no proof unfolds a
record update; and what a register or a field of a register reads as after a write.
-/
namespace Sys2Proof.Machine

/-! ### A register after an update of another field of the state -/

@[simp] theorem reg_with_pending (s : State) (x) (a : Nat) : State.reg { s with pending := x } a = s.reg a := rfl
@[simp] theorem reg_with_cycle (s : State) (x) (a : Nat) : State.reg { s with cycle := x } a = s.reg a := rfl
@[simp] theorem reg_with_bus (s : State) (x) (a : Nat) : State.reg { s with bus := x } a = s.reg a := rfl
@[simp] theorem reg_with_out (s : State) (x) (a : Nat) : State.reg { s with out := x } a = s.reg a := rfl
@[simp] theorem reg_with_freeIx (s : State) (x) (a : Nat) : State.reg { s with freeIx := x } a = s.reg a := rfl
@[simp] theorem reg_with_log (s : State) (x) (a : Nat) : State.reg { s with log := x } a = s.reg a := rfl
@[simp] theorem reg_with_clog (s : State) (x) (a : Nat) : State.reg { s with clog := x } a = s.reg a := rfl
@[simp] theorem reg_with_otp (s : State) (x) (a : Nat) : State.reg { s with otp := x } a = s.reg a := rfl
@[simp] theorem reg_with_flash (s : State) (x) (a : Nat) : State.reg { s with flash := x } a = s.reg a := rfl
@[simp] theorem reg_with_img (s : State) (x) (a : Nat) : State.reg { s with img := x } a = s.reg a := rfl
@[simp] theorem reg_with_time (s : State) (x) (a : Nat) : State.reg { s with time := x } a = s.reg a := rfl
@[simp] theorem reg_with_pwr (s : State) (x) (a : Nat) : State.reg { s with pwr := x } a = s.reg a := rfl
@[simp] theorem reg_with_lan (s : State) (x) (a : Nat) : State.reg { s with lan := x } a = s.reg a := rfl
@[simp] theorem reg_with_pwm (s : State) (x) (a : Nat) : State.reg { s with pwm := x } a = s.reg a := rfl
@[simp] theorem reg_with_gate (s : State) (x) (a : Nat) : State.reg { s with gate := x } a = s.reg a := rfl
@[simp] theorem reg_with_win (s : State) (x) (a : Nat) : State.reg { s with win := x } a = s.reg a := rfl
@[simp] theorem reg_with_ls (s : State) (x) (a : Nat) : State.reg { s with ls := x } a = s.reg a := rfl
@[simp] theorem reg_with_safe (s : State) (x) (a : Nat) : State.reg { s with safe := x } a = s.reg a := rfl
@[simp] theorem reg_with_adc (s : State) (x) (a : Nat) : State.reg { s with adc := x } a = s.reg a := rfl
@[simp] theorem reg_with_loop (s : State) (x) (a : Nat) : State.reg { s with loop := x } a = s.reg a := rfl
@[simp] theorem reg_with_units (s : State) (x) (a : Nat) : State.reg { s with units := x } a = s.reg a := rfl
@[simp] theorem reg_with_stages (s : State) (x) (a : Nat) : State.reg { s with stages := x } a = s.reg a := rfl
@[simp] theorem reg_with_trks (s : State) (x) (a : Nat) : State.reg { s with trks := x } a = s.reg a := rfl
@[simp] theorem reg_with_isl (s : State) (x) (a : Nat) : State.reg { s with isl := x } a = s.reg a := rfl
@[simp] theorem reg_with_meter (s : State) (x) (a : Nat) : State.reg { s with meter := x } a = s.reg a := rfl
@[simp] theorem reg_with_ctl (s : State) (x) (a : Nat) : State.reg { s with ctl := x } a = s.reg a := rfl
@[simp] theorem reg_with_ring (s : State) (x) (a : Nat) : State.reg { s with ring := x } a = s.reg a := rfl
@[simp] theorem reg_with_plots (s : State) (x) (a : Nat) : State.reg { s with plots := x } a = s.reg a := rfl
@[simp] theorem reg_with_eng (s : State) (x) (a : Nat) : State.reg { s with eng := x } a = s.reg a := rfl
@[simp] theorem reg_with_csp (s : State) (x) (a : Nat) : State.reg { s with csp := x } a = s.reg a := rfl
@[simp] theorem reg_with_perf (s : State) (x) (a : Nat) : State.reg { s with perf := x } a = s.reg a := rfl
@[simp] theorem reg_with_dbg (s : State) (x) (a : Nat) : State.reg { s with dbg := x } a = s.reg a := rfl

/-! ### The other fields of the state after a register write -/

@[simp] theorem setReg_pending (s : State) (a : Nat) (w : Word) : (s.setReg a w).pending = s.pending := rfl
@[simp] theorem wr_pending (s : State) (f : FRef) (v : Nat) : (s.wr f v).pending = s.pending := rfl
@[simp] theorem setReg_cycle (s : State) (a : Nat) (w : Word) : (s.setReg a w).cycle = s.cycle := rfl
@[simp] theorem wr_cycle (s : State) (f : FRef) (v : Nat) : (s.wr f v).cycle = s.cycle := rfl
@[simp] theorem setReg_bus (s : State) (a : Nat) (w : Word) : (s.setReg a w).bus = s.bus := rfl
@[simp] theorem wr_bus (s : State) (f : FRef) (v : Nat) : (s.wr f v).bus = s.bus := rfl
@[simp] theorem setReg_out (s : State) (a : Nat) (w : Word) : (s.setReg a w).out = s.out := rfl
@[simp] theorem wr_out (s : State) (f : FRef) (v : Nat) : (s.wr f v).out = s.out := rfl
@[simp] theorem setReg_freeIx (s : State) (a : Nat) (w : Word) : (s.setReg a w).freeIx = s.freeIx := rfl
@[simp] theorem wr_freeIx (s : State) (f : FRef) (v : Nat) : (s.wr f v).freeIx = s.freeIx := rfl
@[simp] theorem setReg_log (s : State) (a : Nat) (w : Word) : (s.setReg a w).log = s.log := rfl
@[simp] theorem wr_log (s : State) (f : FRef) (v : Nat) : (s.wr f v).log = s.log := rfl
@[simp] theorem setReg_clog (s : State) (a : Nat) (w : Word) : (s.setReg a w).clog = s.clog := rfl
@[simp] theorem wr_clog (s : State) (f : FRef) (v : Nat) : (s.wr f v).clog = s.clog := rfl
@[simp] theorem setReg_otp (s : State) (a : Nat) (w : Word) : (s.setReg a w).otp = s.otp := rfl
@[simp] theorem wr_otp (s : State) (f : FRef) (v : Nat) : (s.wr f v).otp = s.otp := rfl
@[simp] theorem setReg_flash (s : State) (a : Nat) (w : Word) : (s.setReg a w).flash = s.flash := rfl
@[simp] theorem wr_flash (s : State) (f : FRef) (v : Nat) : (s.wr f v).flash = s.flash := rfl
@[simp] theorem setReg_img (s : State) (a : Nat) (w : Word) : (s.setReg a w).img = s.img := rfl
@[simp] theorem wr_img (s : State) (f : FRef) (v : Nat) : (s.wr f v).img = s.img := rfl
@[simp] theorem setReg_time (s : State) (a : Nat) (w : Word) : (s.setReg a w).time = s.time := rfl
@[simp] theorem wr_time (s : State) (f : FRef) (v : Nat) : (s.wr f v).time = s.time := rfl
@[simp] theorem setReg_pwr (s : State) (a : Nat) (w : Word) : (s.setReg a w).pwr = s.pwr := rfl
@[simp] theorem wr_pwr (s : State) (f : FRef) (v : Nat) : (s.wr f v).pwr = s.pwr := rfl
@[simp] theorem setReg_lan (s : State) (a : Nat) (w : Word) : (s.setReg a w).lan = s.lan := rfl
@[simp] theorem wr_lan (s : State) (f : FRef) (v : Nat) : (s.wr f v).lan = s.lan := rfl
@[simp] theorem setReg_pwm (s : State) (a : Nat) (w : Word) : (s.setReg a w).pwm = s.pwm := rfl
@[simp] theorem wr_pwm (s : State) (f : FRef) (v : Nat) : (s.wr f v).pwm = s.pwm := rfl
@[simp] theorem setReg_gate (s : State) (a : Nat) (w : Word) : (s.setReg a w).gate = s.gate := rfl
@[simp] theorem wr_gate (s : State) (f : FRef) (v : Nat) : (s.wr f v).gate = s.gate := rfl
@[simp] theorem setReg_win (s : State) (a : Nat) (w : Word) : (s.setReg a w).win = s.win := rfl
@[simp] theorem wr_win (s : State) (f : FRef) (v : Nat) : (s.wr f v).win = s.win := rfl
@[simp] theorem setReg_ls (s : State) (a : Nat) (w : Word) : (s.setReg a w).ls = s.ls := rfl
@[simp] theorem wr_ls (s : State) (f : FRef) (v : Nat) : (s.wr f v).ls = s.ls := rfl
@[simp] theorem setReg_safe (s : State) (a : Nat) (w : Word) : (s.setReg a w).safe = s.safe := rfl
@[simp] theorem wr_safe (s : State) (f : FRef) (v : Nat) : (s.wr f v).safe = s.safe := rfl
@[simp] theorem setReg_adc (s : State) (a : Nat) (w : Word) : (s.setReg a w).adc = s.adc := rfl
@[simp] theorem wr_adc (s : State) (f : FRef) (v : Nat) : (s.wr f v).adc = s.adc := rfl
@[simp] theorem setReg_loop (s : State) (a : Nat) (w : Word) : (s.setReg a w).loop = s.loop := rfl
@[simp] theorem wr_loop (s : State) (f : FRef) (v : Nat) : (s.wr f v).loop = s.loop := rfl
@[simp] theorem setReg_units (s : State) (a : Nat) (w : Word) : (s.setReg a w).units = s.units := rfl
@[simp] theorem wr_units (s : State) (f : FRef) (v : Nat) : (s.wr f v).units = s.units := rfl
@[simp] theorem setReg_stages (s : State) (a : Nat) (w : Word) : (s.setReg a w).stages = s.stages := rfl
@[simp] theorem wr_stages (s : State) (f : FRef) (v : Nat) : (s.wr f v).stages = s.stages := rfl
@[simp] theorem setReg_trks (s : State) (a : Nat) (w : Word) : (s.setReg a w).trks = s.trks := rfl
@[simp] theorem wr_trks (s : State) (f : FRef) (v : Nat) : (s.wr f v).trks = s.trks := rfl
@[simp] theorem setReg_isl (s : State) (a : Nat) (w : Word) : (s.setReg a w).isl = s.isl := rfl
@[simp] theorem wr_isl (s : State) (f : FRef) (v : Nat) : (s.wr f v).isl = s.isl := rfl
@[simp] theorem setReg_meter (s : State) (a : Nat) (w : Word) : (s.setReg a w).meter = s.meter := rfl
@[simp] theorem wr_meter (s : State) (f : FRef) (v : Nat) : (s.wr f v).meter = s.meter := rfl
@[simp] theorem setReg_ctl (s : State) (a : Nat) (w : Word) : (s.setReg a w).ctl = s.ctl := rfl
@[simp] theorem wr_ctl (s : State) (f : FRef) (v : Nat) : (s.wr f v).ctl = s.ctl := rfl
@[simp] theorem setReg_ring (s : State) (a : Nat) (w : Word) : (s.setReg a w).ring = s.ring := rfl
@[simp] theorem wr_ring (s : State) (f : FRef) (v : Nat) : (s.wr f v).ring = s.ring := rfl
@[simp] theorem setReg_plots (s : State) (a : Nat) (w : Word) : (s.setReg a w).plots = s.plots := rfl
@[simp] theorem wr_plots (s : State) (f : FRef) (v : Nat) : (s.wr f v).plots = s.plots := rfl
@[simp] theorem setReg_eng (s : State) (a : Nat) (w : Word) : (s.setReg a w).eng = s.eng := rfl
@[simp] theorem wr_eng (s : State) (f : FRef) (v : Nat) : (s.wr f v).eng = s.eng := rfl
@[simp] theorem setReg_csp (s : State) (a : Nat) (w : Word) : (s.setReg a w).csp = s.csp := rfl
@[simp] theorem wr_csp (s : State) (f : FRef) (v : Nat) : (s.wr f v).csp = s.csp := rfl
@[simp] theorem setReg_perf (s : State) (a : Nat) (w : Word) : (s.setReg a w).perf = s.perf := rfl
@[simp] theorem wr_perf (s : State) (f : FRef) (v : Nat) : (s.wr f v).perf = s.perf := rfl
@[simp] theorem setReg_dbg (s : State) (a : Nat) (w : Word) : (s.setReg a w).dbg = s.dbg := rfl
@[simp] theorem wr_dbg (s : State) (f : FRef) (v : Nat) : (s.wr f v).dbg = s.dbg := rfl

/-! ### Reads after writes -/

/-- Two states with one register file hold the same registers. -/
theorem reg_congr {s t : State} (h : t.regs = s.regs) (a : Nat) : t.reg a = s.reg a := by unfold State.reg; rw [h]

@[simp] theorem reg_setReg_same (s : State) (a : Nat) (w : Word) : (s.setReg a w).reg a = w := Tab.get_set_same _ _ _ _

theorem reg_setReg_ne (s : State) {a b : Nat} (w : Word) (h : a ≠ b) : (s.setReg a w).reg b = s.reg b := Tab.get_set_ne _ _ _ w h

theorem reg_setReg (s : State) (a b : Nat) (w : Word) : (s.setReg a w).reg b = if a = b then w else s.reg b := by
  split
  · next h => subst h; exact reg_setReg_same s a w
  · next h => exact reg_setReg_ne s w h

theorem reg_wr_ne (s : State) {f : FRef} {b : Nat} (v : Nat) (h : f.addr ≠ b) : (s.wr f v).reg b = s.reg b := reg_setReg_ne s _ h

theorem reg_wr_same (s : State) (f : FRef) (v : Nat) : (s.wr f v).reg f.addr = f.put (s.reg f.addr) v := reg_setReg_same s _ _

/-- A field reads what was written to it, modulo its range. -/
theorem rd_wr_same (s : State) (f : FRef) (v : Nat) (h : f.ok) : (s.wr f v).rd f = v % 2 ^ f.width := by
  unfold State.rd; rw [reg_wr_same, FRef.get_put_same f h]

/-- A write of a field leaves the fields of other registers. -/
theorem rd_wr_ne (s : State) (f g : FRef) (v : Nat) (h : f.addr ≠ g.addr) : (s.wr f v).rd g = s.rd g := by
  unfold State.rd; rw [reg_wr_ne s v h]

/-- A write of a field leaves the other fields of its register. -/
theorem rd_wr_disjoint (s : State) (f g : FRef) (v : Nat) (hf : f.ok) (hg : g.ok) (h : g.hi < f.lo ∨ f.hi < g.lo) :
    (s.wr f v).rd g = s.rd g := by
  by_cases ha : f.addr = g.addr
  · unfold State.rd; rw [← ha, reg_wr_same, FRef.get_put_disjoint f g hf hg h]
  · exact rd_wr_ne s f g v ha

theorem rd_setReg_ne (s : State) (a : Nat) (w : Word) (g : FRef) (h : a ≠ g.addr) : (s.setReg a w).rd g = s.rd g := by
  unfold State.rd; rw [reg_setReg_ne s w h]

theorem rd_setReg_same (s : State) (w : Word) (g : FRef) : (s.setReg g.addr w).rd g = g.get w := by
  unfold State.rd; rw [reg_setReg_same]

theorem rd_congr {s t : State} (f : FRef) (h : t.reg f.addr = s.reg f.addr) : t.rd f = s.rd f := by unfold State.rd; rw [h]

/-- A field's value lies in its range. -/
theorem rd_lt (s : State) (f : FRef) (h : f.ok) : s.rd f < 2 ^ f.width := FRef.get_lt f h _

@[simp] theorem rdB_eq (s : State) (f : FRef) : s.rdB f = decide (s.rd f ≠ 0) := rfl

@[simp] theorem wrB_eq (s : State) (f : FRef) (b : Bool) : s.wrB f b = s.wr f b.toNat := rfl

@[simp] theorem wrBit_eq (s : State) (f : FRef) (i : Nat) (b : Bool) : s.wrBit f i b = s.wr f (setBitOf (s.rd f) i b) := rfl

@[simp] theorem inc_eq (s : State) (f : FRef) : s.inc f = s.wr f (Nat.min (s.rd f + 1) (2 ^ f.width - 1)) := rfl

/-! ### The canonical form of the register file -/

/-- A register write keeps the canonical form of the register file. -/
theorem setReg_wf (s : State) (a : Nat) (w : Word) (h : Tab.wf resetWord s.regs = true) : Tab.wf resetWord (s.setReg a w).regs = true :=
  Tab.wf_set resetWord s.regs a w h

/-! ### Logging -/

/-- What making a log entry can do: only the log changes, and where the queue of its die is full only DROPPED. -/
theorem enqueue_spec (s : State) (e : LogEntry) :
    s.enqueue e = { s with regs := (s.enqueue e).regs, log := (s.enqueue e).log } ∧
      ∀ a, a ≠ Reg.LOG_STATUS → (s.enqueue e).reg a = s.reg a := by
  unfold State.enqueue
  split
  · exact ⟨rfl, fun _ _ => rfl⟩
  · split <;> split
    all_goals first
      | exact ⟨rfl, fun a _ => rfl⟩
      | exact ⟨rfl, fun a ha => reg_wr_ne s _ (Ne.symm ha)⟩

/-- Logging an event leaves every register but LOG_STATUS. -/
theorem reg_logEv (s : State) (source code datum : Nat) {a : Nat} (h : a ≠ Reg.LOG_STATUS) : (s.logEv source code datum).reg a = s.reg a :=
  (enqueue_spec s _).2 a h

theorem rd_logEv (s : State) (source code datum : Nat) (f : FRef) (h : f.addr ≠ Reg.LOG_STATUS) :
    (s.logEv source code datum).rd f = s.rd f := rd_congr f (reg_logEv s source code datum h)

/-- Logging an event leaves every register but LOG_STATUS. -/
theorem reg_logOnce (s : State) (source code unit datum : Nat) {a : Nat} (h : a ≠ Reg.LOG_STATUS) :
    (s.logOnce source code unit datum).reg a = s.reg a := by
  unfold State.logOnce
  split
  · rfl
  · exact reg_logEv s source code datum h

theorem rd_logOnce (s : State) (source code unit datum : Nat) (f : FRef) (h : f.addr ≠ Reg.LOG_STATUS) :
    (s.logOnce source code unit datum).rd f = s.rd f := rd_congr f (reg_logOnce s source code unit datum h)

/-- What logging an event can do beside the log. -/
theorem logEv_spec (s : State) (source code datum : Nat) :
    s.logEv source code datum = { s with regs := (s.logEv source code datum).regs, log := (s.logEv source code datum).log } :=
  (enqueue_spec s _).1

theorem logOnce_spec (s : State) (source code unit datum : Nat) :
    s.logOnce source code unit datum
      = { s with regs := (s.logOnce source code unit datum).regs, log := (s.logOnce source code unit datum).log } := by
  unfold State.logOnce
  split
  · rfl
  · have h := logEv_spec s source code datum
    generalize s.logEv source code datum = t at h
    rw [h]

@[simp] theorem logEv_pending (s : State) (a b c : Nat) : (s.logEv a b c).pending = s.pending := by rw [logEv_spec]
@[simp] theorem logOnce_pending (s : State) (a b c d : Nat) : (s.logOnce a b c d).pending = s.pending := by rw [logOnce_spec]
@[simp] theorem logEv_cycle (s : State) (a b c : Nat) : (s.logEv a b c).cycle = s.cycle := by rw [logEv_spec]
@[simp] theorem logOnce_cycle (s : State) (a b c d : Nat) : (s.logOnce a b c d).cycle = s.cycle := by rw [logOnce_spec]
@[simp] theorem logEv_bus (s : State) (a b c : Nat) : (s.logEv a b c).bus = s.bus := by rw [logEv_spec]
@[simp] theorem logOnce_bus (s : State) (a b c d : Nat) : (s.logOnce a b c d).bus = s.bus := by rw [logOnce_spec]
@[simp] theorem logEv_out (s : State) (a b c : Nat) : (s.logEv a b c).out = s.out := by rw [logEv_spec]
@[simp] theorem logOnce_out (s : State) (a b c d : Nat) : (s.logOnce a b c d).out = s.out := by rw [logOnce_spec]
@[simp] theorem logEv_freeIx (s : State) (a b c : Nat) : (s.logEv a b c).freeIx = s.freeIx := by rw [logEv_spec]
@[simp] theorem logOnce_freeIx (s : State) (a b c d : Nat) : (s.logOnce a b c d).freeIx = s.freeIx := by rw [logOnce_spec]
@[simp] theorem logEv_clog (s : State) (a b c : Nat) : (s.logEv a b c).clog = s.clog := by rw [logEv_spec]
@[simp] theorem logOnce_clog (s : State) (a b c d : Nat) : (s.logOnce a b c d).clog = s.clog := by rw [logOnce_spec]
@[simp] theorem logEv_otp (s : State) (a b c : Nat) : (s.logEv a b c).otp = s.otp := by rw [logEv_spec]
@[simp] theorem logOnce_otp (s : State) (a b c d : Nat) : (s.logOnce a b c d).otp = s.otp := by rw [logOnce_spec]
@[simp] theorem logEv_flash (s : State) (a b c : Nat) : (s.logEv a b c).flash = s.flash := by rw [logEv_spec]
@[simp] theorem logOnce_flash (s : State) (a b c d : Nat) : (s.logOnce a b c d).flash = s.flash := by rw [logOnce_spec]
@[simp] theorem logEv_img (s : State) (a b c : Nat) : (s.logEv a b c).img = s.img := by rw [logEv_spec]
@[simp] theorem logOnce_img (s : State) (a b c d : Nat) : (s.logOnce a b c d).img = s.img := by rw [logOnce_spec]
@[simp] theorem logEv_time (s : State) (a b c : Nat) : (s.logEv a b c).time = s.time := by rw [logEv_spec]
@[simp] theorem logOnce_time (s : State) (a b c d : Nat) : (s.logOnce a b c d).time = s.time := by rw [logOnce_spec]
@[simp] theorem logEv_pwr (s : State) (a b c : Nat) : (s.logEv a b c).pwr = s.pwr := by rw [logEv_spec]
@[simp] theorem logOnce_pwr (s : State) (a b c d : Nat) : (s.logOnce a b c d).pwr = s.pwr := by rw [logOnce_spec]
@[simp] theorem logEv_lan (s : State) (a b c : Nat) : (s.logEv a b c).lan = s.lan := by rw [logEv_spec]
@[simp] theorem logOnce_lan (s : State) (a b c d : Nat) : (s.logOnce a b c d).lan = s.lan := by rw [logOnce_spec]
@[simp] theorem logEv_pwm (s : State) (a b c : Nat) : (s.logEv a b c).pwm = s.pwm := by rw [logEv_spec]
@[simp] theorem logOnce_pwm (s : State) (a b c d : Nat) : (s.logOnce a b c d).pwm = s.pwm := by rw [logOnce_spec]
@[simp] theorem logEv_gate (s : State) (a b c : Nat) : (s.logEv a b c).gate = s.gate := by rw [logEv_spec]
@[simp] theorem logOnce_gate (s : State) (a b c d : Nat) : (s.logOnce a b c d).gate = s.gate := by rw [logOnce_spec]
@[simp] theorem logEv_win (s : State) (a b c : Nat) : (s.logEv a b c).win = s.win := by rw [logEv_spec]
@[simp] theorem logOnce_win (s : State) (a b c d : Nat) : (s.logOnce a b c d).win = s.win := by rw [logOnce_spec]
@[simp] theorem logEv_ls (s : State) (a b c : Nat) : (s.logEv a b c).ls = s.ls := by rw [logEv_spec]
@[simp] theorem logOnce_ls (s : State) (a b c d : Nat) : (s.logOnce a b c d).ls = s.ls := by rw [logOnce_spec]
@[simp] theorem logEv_safe (s : State) (a b c : Nat) : (s.logEv a b c).safe = s.safe := by rw [logEv_spec]
@[simp] theorem logOnce_safe (s : State) (a b c d : Nat) : (s.logOnce a b c d).safe = s.safe := by rw [logOnce_spec]
@[simp] theorem logEv_adc (s : State) (a b c : Nat) : (s.logEv a b c).adc = s.adc := by rw [logEv_spec]
@[simp] theorem logOnce_adc (s : State) (a b c d : Nat) : (s.logOnce a b c d).adc = s.adc := by rw [logOnce_spec]
@[simp] theorem logEv_loop (s : State) (a b c : Nat) : (s.logEv a b c).loop = s.loop := by rw [logEv_spec]
@[simp] theorem logOnce_loop (s : State) (a b c d : Nat) : (s.logOnce a b c d).loop = s.loop := by rw [logOnce_spec]
@[simp] theorem logEv_units (s : State) (a b c : Nat) : (s.logEv a b c).units = s.units := by rw [logEv_spec]
@[simp] theorem logOnce_units (s : State) (a b c d : Nat) : (s.logOnce a b c d).units = s.units := by rw [logOnce_spec]
@[simp] theorem logEv_stages (s : State) (a b c : Nat) : (s.logEv a b c).stages = s.stages := by rw [logEv_spec]
@[simp] theorem logOnce_stages (s : State) (a b c d : Nat) : (s.logOnce a b c d).stages = s.stages := by rw [logOnce_spec]
@[simp] theorem logEv_trks (s : State) (a b c : Nat) : (s.logEv a b c).trks = s.trks := by rw [logEv_spec]
@[simp] theorem logOnce_trks (s : State) (a b c d : Nat) : (s.logOnce a b c d).trks = s.trks := by rw [logOnce_spec]
@[simp] theorem logEv_isl (s : State) (a b c : Nat) : (s.logEv a b c).isl = s.isl := by rw [logEv_spec]
@[simp] theorem logOnce_isl (s : State) (a b c d : Nat) : (s.logOnce a b c d).isl = s.isl := by rw [logOnce_spec]
@[simp] theorem logEv_meter (s : State) (a b c : Nat) : (s.logEv a b c).meter = s.meter := by rw [logEv_spec]
@[simp] theorem logOnce_meter (s : State) (a b c d : Nat) : (s.logOnce a b c d).meter = s.meter := by rw [logOnce_spec]
@[simp] theorem logEv_ctl (s : State) (a b c : Nat) : (s.logEv a b c).ctl = s.ctl := by rw [logEv_spec]
@[simp] theorem logOnce_ctl (s : State) (a b c d : Nat) : (s.logOnce a b c d).ctl = s.ctl := by rw [logOnce_spec]
@[simp] theorem logEv_ring (s : State) (a b c : Nat) : (s.logEv a b c).ring = s.ring := by rw [logEv_spec]
@[simp] theorem logOnce_ring (s : State) (a b c d : Nat) : (s.logOnce a b c d).ring = s.ring := by rw [logOnce_spec]
@[simp] theorem logEv_plots (s : State) (a b c : Nat) : (s.logEv a b c).plots = s.plots := by rw [logEv_spec]
@[simp] theorem logOnce_plots (s : State) (a b c d : Nat) : (s.logOnce a b c d).plots = s.plots := by rw [logOnce_spec]
@[simp] theorem logEv_eng (s : State) (a b c : Nat) : (s.logEv a b c).eng = s.eng := by rw [logEv_spec]
@[simp] theorem logOnce_eng (s : State) (a b c d : Nat) : (s.logOnce a b c d).eng = s.eng := by rw [logOnce_spec]
@[simp] theorem logEv_csp (s : State) (a b c : Nat) : (s.logEv a b c).csp = s.csp := by rw [logEv_spec]
@[simp] theorem logOnce_csp (s : State) (a b c d : Nat) : (s.logOnce a b c d).csp = s.csp := by rw [logOnce_spec]
@[simp] theorem logEv_perf (s : State) (a b c : Nat) : (s.logEv a b c).perf = s.perf := by rw [logEv_spec]
@[simp] theorem logOnce_perf (s : State) (a b c d : Nat) : (s.logOnce a b c d).perf = s.perf := by rw [logOnce_spec]
@[simp] theorem logEv_dbg (s : State) (a b c : Nat) : (s.logEv a b c).dbg = s.dbg := by rw [logEv_spec]
@[simp] theorem logOnce_dbg (s : State) (a b c d : Nat) : (s.logOnce a b c d).dbg = s.dbg := by rw [logOnce_spec]

end Sys2Proof.Machine
end

