-- ==== Sys2Proof/Laws/Bits.lean ====
section
/-!
SUPPORT. Laws/Bits.lean: single bits of a field after the write of one bit.
-/
namespace Sys2Proof.Machine

/-- Numbers without a common bit add without carries. -/
theorem testBit_add_of_and (i : Nat) : ∀ x y : Nat, x &&& y = 0 → (x + y).testBit i = (x.testBit i || y.testBit i) := by
  induction i with
  | zero =>
    intro x y h
    have h0 : (x &&& y).testBit 0 = false := by rw [h]; rfl
    rw [Nat.testBit_and] at h0
    simp only [Nat.testBit_zero] at h0 ⊢
    rcases Nat.mod_two_eq_zero_or_one x with hx | hx <;> rcases Nat.mod_two_eq_zero_or_one y with hy | hy <;>
      simp [hx, hy, Nat.add_mod] at h0 ⊢
  | succ i ih =>
    intro x y h
    have h0 : (x &&& y).testBit 0 = false := by rw [h]; rfl
    rw [Nat.testBit_and] at h0
    simp only [Nat.testBit_zero] at h0
    have hd : (x + y) / 2 = x / 2 + y / 2 := by
      rcases Nat.mod_two_eq_zero_or_one x with hx | hx <;> rcases Nat.mod_two_eq_zero_or_one y with hy | hy <;>
        simp [hx, hy] at h0 <;> omega
    rw [Nat.testBit_succ, Nat.testBit_succ, Nat.testBit_succ, hd]
    apply ih
    rw [← Nat.and_div_two, h]

/-- A number with one bit written differs in that bit alone. -/
theorem setBitOf_testBit (n i j : Nat) (b : Bool) : (setBitOf n i b).testBit j = if j = i then b else n.testBit j := by
  unfold setBitOf
  rw [Nat.one_shiftLeft]
  cases b with
  | true =>
    rw [if_pos rfl, Nat.testBit_or, Nat.testBit_two_pow]
    by_cases h : j = i
    · simp [h]
    · simp [h, Ne.symm h]
  | false =>
    rw [if_neg (by decide)]
    have key : n - (n &&& 2 ^ i) = n ^^^ (n &&& 2 ^ i) := by
      have h1 : (n ^^^ (n &&& 2 ^ i)) + (n &&& 2 ^ i) = n := by
        apply Nat.eq_of_testBit_eq
        intro k
        rw [testBit_add_of_and]
        · simp only [Nat.testBit_xor, Nat.testBit_and]
          cases n.testBit k <;> cases (2 ^ i).testBit k <;> rfl
        · apply Nat.eq_of_testBit_eq
          intro j
          simp only [Nat.testBit_and, Nat.testBit_xor, Nat.zero_testBit]
          cases n.testBit j <;> cases (2 ^ i).testBit j <;> rfl
      omega
    rw [key, Nat.testBit_xor, Nat.testBit_and, Nat.testBit_two_pow]
    by_cases h : j = i
    · simp [h]
    · simp [h, Ne.symm h]

/-- A bit of a field after the write of one bit of it. -/
theorem bit_wrBit_same (s : State) (f : FRef) (h : f.ok) (i j : Nat) (b : Bool) (hj : j < f.width) :
    (s.wrBit f i b).bit f j = if j = i then b else s.bit f j := by
  unfold State.bit State.wrBit
  rw [rd_wr_same s f _ h, Nat.testBit_mod_two_pow, setBitOf_testBit]
  simp [hj]

theorem bit_wr_ne (s : State) (f g : FRef) (v j : Nat) (h : f.addr ≠ g.addr) : (s.wr f v).bit g j = s.bit g j := by
  unfold State.bit; rw [rd_wr_ne s f g v h]

theorem bit_congr {s t : State} (f : FRef) (j : Nat) (h : t.reg f.addr = s.reg f.addr) : t.bit f j = s.bit f j := by
  unfold State.bit; rw [rd_congr f h]

end Sys2Proof.Machine
end

