-- ==== Sys2Proof/Laws/Trips.lean ====
section
/-!
SUPPORT. Laws/Trips.lean: everything that the settling of the trips and a safety lockout can do: the registers named by `tripReg` and
`lockReg`, the log and the counters; nothing else.
-/
namespace Sys2Proof.Machine

/-- `t` differs from `s` at most in the registers that satisfy `p`, the log and the counters. -/
structure RegsLogPerf (p : Nat → Bool) (s t : State) : Prop where
  rest : t = { s with regs := t.regs, log := t.log, perf := t.perf }
  regs : RegsKeptBut p s t

theorem RegsLogPerf.refl (p : Nat → Bool) (s : State) : RegsLogPerf p s s := ⟨rfl, fun _ _ => rfl⟩

theorem RegsLogPerf.trans {p : Nat → Bool} {r s t : State} (h : RegsLogPerf p r s) (k : RegsLogPerf p s t) : RegsLogPerf p r t := by
  refine ⟨?_, fun a ha => (k.regs a ha).trans (h.regs a ha)⟩
  have h1 := h.rest
  have k1 := k.rest
  rw [h1] at k1
  exact k1

theorem RegsLogPerf.mono {p q : Nat → Bool} {s t : State} (h : RegsLogPerf p s t) (hpq : ∀ a, q a = false → p a = false) :
    RegsLogPerf q s t := ⟨h.rest, fun a ha => h.regs a (hpq a ha)⟩

theorem RegsLogPerf.wr {p : Nat → Bool} {r s : State} (f : FRef) (v : Nat) (hf : p f.addr = true) (h : RegsLogPerf p r s) :
    RegsLogPerf p r (s.wr f v) := by
  refine h.trans ⟨rfl, fun a ha => reg_wr_ne s v ?_⟩
  intro he
  rw [he, ha] at hf
  cases hf

theorem RegsLogPerf.setReg {p : Nat → Bool} {r s : State} (b : Nat) (w : Word) (hf : p b = true) (h : RegsLogPerf p r s) :
    RegsLogPerf p r (s.setReg b w) := by
  refine h.trans ⟨rfl, fun a ha => reg_setReg_ne s w ?_⟩
  intro he
  rw [he, ha] at hf
  cases hf

theorem RegsLogPerf.logEv {p : Nat → Bool} {r s : State} (a b c : Nat) (hp : p Reg.LOG_STATUS = true) (h : RegsLogPerf p r s) :
    RegsLogPerf p r (s.logEv a b c) := by
  refine h.trans ⟨?_, fun x hx => reg_logEv s a b c ?_⟩
  · have := logEv_spec s a b c
    generalize s.logEv a b c = t at *
    rw [this]
  · intro he
    rw [he, hp] at hx
    cases hx

theorem RegsLogPerf.logOnce {p : Nat → Bool} {r s : State} (a b c d : Nat) (hp : p Reg.LOG_STATUS = true) (h : RegsLogPerf p r s) :
    RegsLogPerf p r (s.logOnce a b c d) := by
  refine h.trans ⟨?_, fun x hx => reg_logOnce s a b c d ?_⟩
  · have := logOnce_spec s a b c d
    generalize s.logOnce a b c d = t at *
    rw [this]
  · intro he
    rw [he, hp] at hx
    cases hx

theorem RegsLogPerf.forEach {p : Nat → Bool} (l : List Nat) (f : Nat → State → State) {r s : State}
    (hf : ∀ i ∈ l, ∀ {s : State}, RegsLogPerf p r s → RegsLogPerf p r (f i s)) (h : RegsLogPerf p r s) :
    RegsLogPerf p r (forEach l f s) := by
  unfold Machine.forEach
  induction l generalizing s with
  | nil => exact h
  | cons i l ih =>
    rw [List.foldl_cons]
    exact ih (fun j hj => hf j (List.mem_cons_of_mem _ hj)) (hf i List.mem_cons_self h)

/-- One selectable counter's count changes the counters alone. -/
theorem countSel_spec (c n : Nat) (s : State) : ∃ p, countSel c n s = { s with perf := p } := by
  unfold countSel State.bump State.setWide
  dsimp only
  split
  · exact ⟨_, rfl⟩
  · exact ⟨_, rfl⟩

/-- Counting an event changes the counters alone. -/
theorem countEv_can (event unit n : Nat) (s : State) : ∃ p, countEv event unit n s = { s with perf := p } := by
  unfold countEv
  split
  · exact ⟨s.perf, rfl⟩
  · unfold Machine.forEach
    have key : ∀ (l : List Nat) (t : State), (∃ p, t = { s with perf := p }) →
        ∃ p, l.foldl (fun t i => if t.rd (Fld.PC_SEL_EVENT i) = event ∧ t.rd (Fld.PC_SEL_QUAL i) = unit then countSel i n t else t) t
          = { s with perf := p } := by
      intro l
      induction l with
      | nil => intro t h; exact h
      | cons c l ih =>
        rintro t ⟨p, rfl⟩
        rw [List.foldl_cons]
        apply ih
        split
        · obtain ⟨q, hq⟩ := countSel_spec c n { s with perf := p }
          exact ⟨q, hq⟩
        · exact ⟨p, rfl⟩
    exact key s.perf.on s ⟨s.perf, rfl⟩

/-- Counting an event changes the counters alone. -/
theorem countEv_spec (event unit n : Nat) (s : State) : countEv event unit n s = { s with perf := (countEv event unit n s).perf } := by
  obtain ⟨p, hp⟩ := countEv_can event unit n s
  rw [hp]

theorem RegsLogPerf.countEv {p : Nat → Bool} {r s : State} (e u n : Nat) (h : RegsLogPerf p r s) : RegsLogPerf p r (countEv e u n s) := by
  have k := countEv_spec e u n s
  refine h.trans ⟨?_, fun a _ => reg_congr ?_ a⟩
  · generalize Machine.countEv e u n s = t at *
    rw [k]
  · rw [k]

theorem inArray_at (base stride n i : Nat) (hs : 0 < stride) (h : i < n) : inArray base stride n (base + stride * i) = true := by
  unfold inArray
  have h1 : stride * i < stride * n := Nat.mul_lt_mul_of_pos_left h hs
  simp only [decide_eq_true_eq]
  refine ⟨by omega, by omega, ?_⟩
  rw [Nat.add_sub_cancel_left, Nat.mul_mod_right]

theorem pairs_lt {i : Nat} (h : i ∈ pairs) : i < 72 := List.mem_range.mp h

theorem tripReg_log : tripReg Reg.LOG_STATUS = true := by decide
theorem tripReg_pwmStatus {i : Nat} (h : i < 72) : tripReg (Reg.PWM_STATUS i) = true := by
  simp [tripReg, show inArray (Reg.PWM_STATUS 0) 0x80 72 (Reg.PWM_STATUS i) = true from inArray_at _ _ _ _ (by decide) h]
theorem tripReg_pwmSrc {i : Nat} (h : i < 72) : tripReg (Reg.PWM_TRIP_SRC i) = true := by
  simp [tripReg, show inArray (Reg.PWM_TRIP_SRC 0) 0x80 72 (Reg.PWM_TRIP_SRC i) = true from inArray_at _ _ _ _ (by decide) h]
theorem tripReg_pwmEvents {i : Nat} (h : i < 72) : tripReg (Reg.PWM_EVENTS i) = true := by
  simp [tripReg, show inArray (Reg.PWM_EVENTS 0) 0x80 72 (Reg.PWM_EVENTS i) = true from inArray_at _ _ _ _ (by decide) h]
theorem tripReg_pwmCount {i : Nat} (h : i < 72) : tripReg (Reg.PWM_COUNT i) = true := by
  simp [tripReg, show inArray (Reg.PWM_COUNT 0) 0x80 72 (Reg.PWM_COUNT i) = true from inArray_at _ _ _ _ (by decide) h]
theorem tripReg_pwmTripped {i : Nat} (h : i < 3) : tripReg (Reg.PWM_TRIPPED i) = true := by
  simp [tripReg, show inArray (Reg.PWM_TRIPPED 0) 4 3 (Reg.PWM_TRIPPED i) = true from inArray_at _ _ _ _ (by decide) h]
theorem tripReg_gdlStatus {i : Nat} (h : i < 72) : tripReg (Reg.GDL_STATUS i) = true := by
  simp [tripReg, show inArray (Reg.GDL_STATUS 0) 0x10 72 (Reg.GDL_STATUS i) = true from inArray_at _ _ _ _ (by decide) h]
theorem tripReg_gdlCause {i : Nat} (h : i < 72) : tripReg (Reg.GDL_CAUSE i) = true := by
  simp [tripReg, show inArray (Reg.GDL_CAUSE 0) 0x10 72 (Reg.GDL_CAUSE i) = true from inArray_at _ _ _ _ (by decide) h]
theorem tripReg_gdlCount {i : Nat} (h : i < 72) : tripReg (Reg.GDL_COUNT i) = true := by
  simp [tripReg, show inArray (Reg.GDL_COUNT 0) 0x10 72 (Reg.GDL_COUNT i) = true from inArray_at _ _ _ _ (by decide) h]
theorem tripReg_gdlLatched {i : Nat} (h : i < 3) : tripReg (Reg.GDL_LATCHED i) = true := by
  simp [tripReg, show inArray (Reg.GDL_LATCHED 0) 4 3 (Reg.GDL_LATCHED i) = true from inArray_at _ _ _ _ (by decide) h]

theorem RegsLogPerf.inc {p : Nat → Bool} {r s : State} (f : FRef) (hf : p f.addr = true) (h : RegsLogPerf p r s) :
    RegsLogPerf p r (s.inc f) := h.wr f _ hf

theorem RegsLogPerf.wrMapBit {p : Nat → Bool} {r s : State} (f : Nat → FRef) (i : Nat) (b : Bool) (hf : p (f (i / 32)).addr = true)
    (h : RegsLogPerf p r s) : RegsLogPerf p r (s.wrMapBit f i b) := h.wr _ _ hf

theorem gateRise_can {p : Nat → Bool} (hp : ∀ a, tripReg a = true → p a = true) (c : Nat) {i : Nat} (hi : i < 72) {r s : State}
    (h : RegsLogPerf p r s) : RegsLogPerf p r (gateRise i c s) := by
  unfold gateRise
  have key : ∀ k, RegsLogPerf p r (State.wrMapBit
      (((((s.wr (Fld.GDL_STATUS_LATCHED i) 1).wr (Fld.GDL_STATUS_FIRST_CAUSE i) k).wr (Fld.GDL_CAUSE_CAUSE i) c).inc
        (Fld.GDL_COUNT_FAULTS i)).wr Fld.GDL_EVENTS_FAULT_EV 1) Fld.GDL_LATCHED i true) := by
    intro k
    refine RegsLogPerf.wrMapBit _ _ _ (hp _ (tripReg_gdlLatched (by omega))) ?_
    refine RegsLogPerf.wr _ _ (hp _ (by decide)) ?_
    refine RegsLogPerf.inc _ (hp _ (tripReg_gdlCount hi)) ?_
    refine RegsLogPerf.wr _ _ (hp _ (tripReg_gdlCause hi)) ?_
    refine RegsLogPerf.wr _ _ (hp _ (tripReg_gdlStatus hi)) ?_
    exact RegsLogPerf.wr _ _ (hp _ (tripReg_gdlStatus hi)) h
  extract_lets c' s1 s2
  split
  · exact key c'
  · exact RegsLogPerf.logOnce _ _ _ _ (hp _ tripReg_log) (key c')

theorem settleGatePair_can {p : Nat → Bool} (hp : ∀ a, tripReg a = true → p a = true) {i : Nat} (hi : i < 72) {r s : State}
    (h : RegsLogPerf p r s) : RegsLogPerf p r (settleGatePair i s) := by
  unfold settleGatePair
  split
  · exact h
  · split
    · exact h.wr _ _ (hp _ (tripReg_gdlCause hi))
    · split
      · exact gateRise_can hp _ hi h
      · exact h

theorem settleGate_can {p : Nat → Bool} (hp : ∀ a, tripReg a = true → p a = true) {r s : State} (h : RegsLogPerf p r s) :
    RegsLogPerf p r (settleGate s) := by
  unfold settleGate
  extract_lets t
  refine RegsLogPerf.wr _ _ (hp _ (by decide)) ?_
  exact RegsLogPerf.forEach _ _ (fun i hi _ h => settleGatePair_can hp (pairs_lt hi) h) h

theorem outputsLow_can {p : Nat → Bool} (hp : ∀ a, tripReg a = true → p a = true) {i : Nat} (hi : i < 72) {r s : State}
    (h : RegsLogPerf p r s) : RegsLogPerf p r (outputsLow i s) := by
  unfold outputsLow
  refine RegsLogPerf.wr _ _ (hp _ (tripReg_pwmStatus hi)) ?_
  exact RegsLogPerf.wr _ _ (hp _ (tripReg_pwmStatus hi)) h

theorem pairTrip_can {p : Nat → Bool} (hp : ∀ a, tripReg a = true → p a = true) (src : Nat) {i : Nat} (hi : i < 72) {r s : State}
    (h : RegsLogPerf p r s) : RegsLogPerf p r (pairTrip i src s) := by
  unfold pairTrip
  extract_lets s1 s2
  refine RegsLogPerf.countEv _ _ _ ?_
  refine RegsLogPerf.wrMapBit _ _ _ (hp _ (tripReg_pwmTripped (by omega))) (outputsLow_can hp hi ?_)
  refine RegsLogPerf.inc _ (hp _ (tripReg_pwmCount hi)) ?_
  refine RegsLogPerf.wr _ _ (hp _ (tripReg_pwmEvents hi)) ?_
  refine RegsLogPerf.wr _ _ (hp _ (tripReg_pwmStatus hi)) ?_
  refine RegsLogPerf.wr _ _ (hp _ (tripReg_pwmStatus hi)) ?_
  refine RegsLogPerf.wr _ _ (hp _ (tripReg_pwmSrc hi)) ?_
  exact RegsLogPerf.wr _ _ (hp _ (tripReg_pwmStatus hi)) h

theorem pairHold_can {p : Nat → Bool} (hp : ∀ a, tripReg a = true → p a = true) {i : Nat} (hi : i < 72) {r s : State}
    (h : RegsLogPerf p r s) : RegsLogPerf p r (pairHold i s) := by
  unfold pairHold
  refine RegsLogPerf.countEv _ _ _ (outputsLow_can hp hi ?_)
  refine RegsLogPerf.inc _ (hp _ (tripReg_pwmCount hi)) ?_
  refine RegsLogPerf.wr _ _ (hp _ (tripReg_pwmEvents hi)) ?_
  exact RegsLogPerf.wr _ _ (hp _ (tripReg_pwmStatus hi)) h

theorem settlePair_can {p : Nat → Bool} (hp : ∀ a, tripReg a = true → p a = true) (pulse : Nat) {i : Nat} (hi : i < 72) {r s : State}
    (h : RegsLogPerf p r s) : RegsLogPerf p r (settlePair pulse i s) := by
  unfold settlePair
  extract_lets live src st
  split
  · exact h.wr _ _ (hp _ (tripReg_pwmSrc hi))
  · split
    · exact pairTrip_can hp _ hi h
    · split
      · exact pairHold_can hp hi h
      · exact h

theorem logTrips_can {p : Nat → Bool} (hp : p Reg.LOG_STATUS = true) (rising : List (Nat × Nat)) (k : Nat) {r s : State}
    (h : RegsLogPerf p r s) : RegsLogPerf p r (logTrips rising k s) := by
  unfold logTrips
  split
  · exact h
  · exact h.logOnce _ _ _ _ hp
  · refine RegsLogPerf.forEach _ _ (fun i _ t ht => ?_) (h.logEv _ _ _ hp)
    exact ht.trans ⟨rfl, fun _ _ => rfl⟩

/-- Everything that the settling of the trips can do. -/
theorem settleTrips_can {p : Nat → Bool} (hp : ∀ a, tripReg a = true → p a = true) (pulse : Nat → Nat) {r s : State}
    (h : RegsLogPerf p r s) : RegsLogPerf p r (settleTrips pulse s) := by
  unfold settleTrips
  extract_lets s1 rising s2
  refine RegsLogPerf.forEach _ _ (fun k _ t ht => logTrips_can (hp _ tripReg_log) _ k ht) ?_
  refine RegsLogPerf.forEach _ _ (fun i hi t ht => settlePair_can hp _ (pairs_lt hi) ht) ?_
  exact settleGate_can hp (h.wr _ _ (hp _ (by decide)))

/-- The settling of the trips changes only the registers that follow them, the log and the counters. -/
theorem settleTrips_spec (pulse : Nat → Nat) (s : State) : RegsLogPerf tripReg s (settleTrips pulse s) :=
  settleTrips_can (fun _ h => h) pulse (RegsLogPerf.refl _ _)

theorem outputsOff_can {p : Nat → Bool} (hp : ∀ a, lockReg a = true → p a = true) {r s : State} (h : RegsLogPerf p r s) :
    RegsLogPerf p r (outputsOff s) := by
  unfold outputsOff
  extract_lets m
  refine RegsLogPerf.wr _ _ (hp _ (by decide)) ?_
  refine RegsLogPerf.wr _ _ (hp _ (by decide)) ?_
  exact RegsLogPerf.wr _ _ (hp _ (by decide)) h

/-- Everything that a lockout cause can do, once it is noted among the causes of the frame. -/
theorem enterLockout_can {p : Nat → Bool} (hp : ∀ a, lockReg a = true → p a = true) (cause unit : Nat) {r s : State}
    (h : RegsLogPerf p r { s with safe := { s.safe with
      arisen := (s.fn, 2 ^ cause ||| (if s.safe.arisen.1 = s.fn then s.safe.arisen.2 else 0)) } }) :
    RegsLogPerf p r (enterLockout cause unit s) := by
  unfold enterLockout safetyPending
  extract_lets safe s0 s1 s2
  refine settleTrips_can (fun a ha => hp a (by simp [lockReg, ha])) _ (RegsLogPerf.wr _ _ (hp _ (by decide)) ?_)
  have h1 : RegsLogPerf p r s1 := by
    show RegsLogPerf p r (if _ then _ else _)
    split
    · exact h
    · exact outputsOff_can hp h
  show RegsLogPerf p r (if _ then _ else _)
  split
  · exact h1.wr _ _ (hp _ (by decide))
  · refine RegsLogPerf.logEv _ _ _ (hp _ (by decide)) ?_
    refine RegsLogPerf.inc _ (hp _ (by decide)) ?_
    refine RegsLogPerf.wr _ _ (hp _ (by decide)) ?_
    refine RegsLogPerf.wr _ _ (hp _ (by decide)) ?_
    refine RegsLogPerf.wr _ _ (hp _ (by decide)) ?_
    exact RegsLogPerf.wr _ _ (hp _ (by decide)) h1

/-- A lockout cause notes itself among the causes of the frame, and else changes only the registers that follow it, the log and the counters. -/
theorem enterLockout_spec (cause unit : Nat) (s : State) :
    RegsLogPerf lockReg { s with safe := { s.safe with
      arisen := (s.fn, 2 ^ cause ||| (if s.safe.arisen.1 = s.fn then s.safe.arisen.2 else 0)) } } (enterLockout cause unit s) :=
  enterLockout_can (fun _ h => h) cause unit (RegsLogPerf.refl _ _)

end Sys2Proof.Machine
end

