-- ==== Sys2Proof/Tests/Slice0.lean ====
section
/-!
SUPPORT. Tests/Slice0.lean: ill-formed commands that WellFormed refuses, witnesses of the hypotheses of the statements, and single steps
whose results are worked out from the rules.
-/
open Sys2Proof Sys2Proof.Machine

namespace Sys2Proof.Tests

/-! ### Ill-formed commands -/

theorem test_wf_drain_abort : Instr.wf (.drainAbort 65536 0) = false := by decide
theorem test_wf_rail_levels : Instr.wf (.railSequenceStep 0#16 [] 0 0) = false := by decide
theorem test_wf_tick_mark_rx : Instr.wf (.tickMark 0#48 20000 0) = false := by decide
theorem test_wf_win_level : Instr.wf (.winTrip 0 2100001 0 0 0 false) = false := by decide
theorem test_wf_win_hi : Instr.wf (.winTrip 0 0 2100001 0 0 false) = false := by decide
theorem test_wf_win_lo : Instr.wf (.winTrip 0 0 0 2100001 0 false) = false := by decide
theorem test_wf_cell_ns : Instr.wf (.controlCell 0 ⟨.wake 0, 0, 0, 0, false, false, 0, 0, 0⟩ true ⟨20000, 0, 0⟩) = false := by decide
theorem test_wf_pmbus_vout : Instr.wf (.pmbusPoll (List.replicate 17 0) [] none) = false := by decide
theorem test_wf_pmbus_iout : Instr.wf (.pmbusPoll [] (List.replicate 17 0) none) = false := by decide
theorem test_wf_entry_result :
    Instr.wf (.entryResult 0 (List.replicate 2501 0) 0#13) = false := by
  show decide ((List.replicate 2501 (0 : Int)).length ≤ 2500) = false
  rw [List.length_replicate]; rfl
theorem test_wf_anchor_id : Instr.wf (.anchorCellRx ⟨(2 ^ 16), false, false, false, false, 0, 0, 0, 0, 0, 0⟩) = false := by decide
theorem test_wf_anchor_seq : Instr.wf (.anchorCellRx ⟨0, false, false, false, false, (2 ^ 8), 0, 0, 0, 0, 0⟩) = false := by decide
theorem test_wf_anchor_fn : Instr.wf (.anchorCellRx ⟨0, false, false, false, false, 0, (2 ^ 48), 0, 0, 0, 0⟩) = false := by decide
theorem test_wf_anchor_angle : Instr.wf (.anchorCellRx ⟨0, false, false, false, false, 0, 0, (2 ^ 32), 0, 0, 0⟩) = false := by decide
theorem test_wf_anchor_v1 : Instr.wf (.anchorCellRx ⟨0, false, false, false, false, 0, 0, 0, (2 ^ 32), 0, 0⟩) = false := by decide
theorem test_wf_anchor_freq : Instr.wf (.anchorCellRx ⟨0, false, false, false, false, 0, 0, 0, 0, (2 ^ 32), 0⟩) = false := by decide
theorem test_wf_anchor_rocof : Instr.wf (.anchorCellRx ⟨0, false, false, false, false, 0, 0, 0, 0, 0, (2 ^ 32)⟩) = false := by decide
theorem test_wf_signature_length : Instr.wf (.signatureCompare (some ⟨[1#64], [], false⟩) none) = false := by decide
theorem test_wf_signature_empty : Instr.wf (.signatureCompare none (some ⟨[], [], false⟩)) = false := by decide
theorem test_wf_signature_none : Instr.wf (.signatureCompare none none) = false := by decide
theorem test_wf_map_taps : Instr.wf (.lineCalibration (some [0])) = false := by decide
theorem test_wf_cal_lines : Instr.wf (.calDone []) = false := by decide
theorem test_wf_cell_tick_mark : Instr.wf (.controlCell 0 ⟨.tickMark (2 ^ 48), 0, 0, 0, false, false, 0, 0, 0⟩ true ⟨0, 0, 0⟩) = false := by decide
theorem test_wf_cell_announce : Instr.wf (.controlCell 0 ⟨.announce [0], 0, 0, 0, false, false, 0, 0, 0⟩ true ⟨0, 0, 0⟩) = false := by decide
theorem test_wf_cell_ring_break_ring :
    Instr.wf (.controlCell 0 ⟨.ringBreak 2 0 false false 0, 0, 0, 0, false, false, 0, 0, 0⟩ true ⟨0, 0, 0⟩) = false := by decide
theorem test_wf_cell_ring_break_span :
    Instr.wf (.controlCell 0 ⟨.ringBreak 0 1024 false false 0, 0, 0, 0, false, false, 0, 0, 0⟩ true ⟨0, 0, 0⟩) = false := by decide
theorem test_wf_cell_leave_rings : Instr.wf (.controlCell 0 ⟨.leave 4 0, 0, 0, 0, false, false, 0, 0, 0⟩ true ⟨0, 0, 0⟩) = false := by decide
theorem test_wf_cell_leave_frame : Instr.wf (.controlCell 0 ⟨.leave 0 (2 ^ 48), 0, 0, 0, false, false, 0, 0, 0⟩ true ⟨0, 0, 0⟩) = false := by decide
theorem test_wf_cell_wake : Instr.wf (.controlCell 0 ⟨.wake 4, 0, 0, 0, false, false, 0, 0, 0⟩ true ⟨0, 0, 0⟩) = false := by decide
theorem test_wf_cell_heal_ring : Instr.wf (.controlCell 0 ⟨.ringHeal 2 0 0, 0, 0, 0, false, false, 0, 0, 0⟩ true ⟨0, 0, 0⟩) = false := by decide
theorem test_wf_cell_heal_span : Instr.wf (.controlCell 0 ⟨.ringHeal 0 1024 0, 0, 0, 0, false, false, 0, 0, 0⟩ true ⟨0, 0, 0⟩) = false := by decide
theorem test_wf_cell_insert_ring : Instr.wf (.controlCell 0 ⟨.insertPlan 2 0, 0, 0, 0, false, false, 0, 0, 0⟩ true ⟨0, 0, 0⟩) = false := by decide
theorem test_wf_cell_insert_frame :
    Instr.wf (.controlCell 0 ⟨.insertPlan 0 (2 ^ 48), 0, 0, 0, false, false, 0, 0, 0⟩ true ⟨0, 0, 0⟩) = false := by decide
theorem test_wf_cell_drowse_req_ring : Instr.wf (.controlCell 0 ⟨.drowseReq 2 0, 0, 0, 0, false, false, 0, 0, 0⟩ true ⟨0, 0, 0⟩) = false := by decide
theorem test_wf_cell_drowse_req_frame :
    Instr.wf (.controlCell 0 ⟨.drowseReq 0 (2 ^ 48), 0, 0, 0, false, false, 0, 0, 0⟩ true ⟨0, 0, 0⟩) = false := by decide
theorem test_wf_cell_drowse_ack_ring : Instr.wf (.controlCell 0 ⟨.drowseAck 2 0, 0, 0, 0, false, false, 0, 0, 0⟩ true ⟨0, 0, 0⟩) = false := by decide
theorem test_wf_cell_drowse_ack_frame :
    Instr.wf (.controlCell 0 ⟨.drowseAck 0 (2 ^ 48), 0, 0, 0, false, false, 0, 0, 0⟩ true ⟨0, 0, 0⟩) = false := by decide
theorem test_wf_cell_drowse_nak_ring :
    Instr.wf (.controlCell 0 ⟨.drowseNak 2 0 0, 0, 0, 0, false, false, 0, 0, 0⟩ true ⟨0, 0, 0⟩) = false := by decide
theorem test_wf_cell_drowse_nak_frame :
    Instr.wf (.controlCell 0 ⟨.drowseNak 0 (2 ^ 48) 0, 0, 0, 0, false, false, 0, 0, 0⟩ true ⟨0, 0, 0⟩) = false := by decide
theorem test_wf_cell_nbr_node : Instr.wf (.controlCell 0 ⟨.nbrId 1024 0 0, 0, 0, 0, false, false, 0, 0, 0⟩ true ⟨0, 0, 0⟩) = false := by decide
theorem test_wf_cell_nbr_ins : Instr.wf (.controlCell 0 ⟨.nbrId 0 8 0, 0, 0, 0, false, false, 0, 0, 0⟩ true ⟨0, 0, 0⟩) = false := by decide
theorem test_wf_cell_nbr_size : Instr.wf (.controlCell 0 ⟨.nbrId 0 0 1024, 0, 0, 0, false, false, 0, 0, 0⟩ true ⟨0, 0, 0⟩) = false := by decide
theorem test_wf_cell_other : Instr.wf (.controlCell 0 ⟨.other 256, 0, 0, 0, false, false, 0, 0, 0⟩ true ⟨0, 0, 0⟩) = false := by decide
set_option maxRecDepth 10000 in
theorem test_wf_cell_anchor_payload :
    Instr.wf (.controlCell 0 ⟨.anchor (List.replicate 73 0#8), 0, 0, 0, false, false, 0, 0, 0⟩ true ⟨0, 0, 0⟩) = false := by decide
theorem test_wf_cell_origin : Instr.wf (.controlCell 0 ⟨.wake 0, 1024, 0, 0, false, false, 0, 0, 0⟩ true ⟨0, 0, 0⟩) = false := by decide
theorem test_wf_cell_reach : Instr.wf (.controlCell 0 ⟨.wake 0, 0, 4, 0, false, false, 0, 0, 0⟩ true ⟨0, 0, 0⟩) = false := by decide
theorem test_wf_cell_hops : Instr.wf (.controlCell 0 ⟨.wake 0, 0, 0, 1024, false, false, 0, 0, 0⟩ true ⟨0, 0, 0⟩) = false := by decide
theorem test_wf_cell_fn : Instr.wf (.controlCell 0 ⟨.wake 0, 0, 0, 0, false, false, 2 ^ 48, 0, 0⟩ true ⟨0, 0, 0⟩) = false := by decide
theorem test_wf_cell_hseq : Instr.wf (.controlCell 0 ⟨.wake 0, 0, 0, 0, false, false, 0, 2 ^ 16, 0⟩ true ⟨0, 0, 0⟩) = false := by decide
theorem test_wf_cell_dest : Instr.wf (.controlCell 0 ⟨.wake 0, 0, 0, 0, false, false, 0, 0, 1024⟩ true ⟨0, 0, 0⟩) = false := by decide
theorem test_wf_short_sop :
    Instr.wf (.controlCell 0 ⟨.command ⟨256, 0, 0, 0, (List.replicate 8 0#8), 0, 0, 0, 0#128⟩, 0, 0, 0, false, false, 0, 0, 0⟩ true ⟨0, 0, 0⟩) = false := by decide
theorem test_wf_short_role :
    Instr.wf (.controlCell 0 ⟨.command ⟨0, 256, 0, 0, (List.replicate 8 0#8), 0, 0, 0, 0#128⟩, 0, 0, 0, false, false, 0, 0, 0⟩ true ⟨0, 0, 0⟩) = false := by decide
theorem test_wf_short_session :
    Instr.wf (.controlCell 0 ⟨.command ⟨0, 0, 256, 0, (List.replicate 8 0#8), 0, 0, 0, 0#128⟩, 0, 0, 0, false, false, 0, 0, 0⟩ true ⟨0, 0, 0⟩) = false := by decide
theorem test_wf_short_tag :
    Instr.wf (.controlCell 0 ⟨.command ⟨0, 0, 0, 4096, (List.replicate 8 0#8), 0, 0, 0, 0#128⟩, 0, 0, 0, false, false, 0, 0, 0⟩ true ⟨0, 0, 0⟩) = false := by decide
theorem test_wf_short_snonce :
    Instr.wf (.controlCell 0 ⟨.command ⟨0, 0, 0, 0, [], 0, 0, 0, 0#128⟩, 0, 0, 0, false, false, 0, 0, 0⟩ true ⟨0, 0, 0⟩) = false := by decide
theorem test_wf_short_seq :
    Instr.wf (.controlCell 0 ⟨.command ⟨0, 0, 0, 0, (List.replicate 8 0#8), 2 ^ 32, 0, 0, 0#128⟩, 0, 0, 0, false, false, 0, 0, 0⟩ true ⟨0, 0, 0⟩) = false := by decide
theorem test_wf_short_arg0 :
    Instr.wf (.controlCell 0 ⟨.command ⟨0, 0, 0, 0, (List.replicate 8 0#8), 0, 2 ^ 32, 0, 0#128⟩, 0, 0, 0, false, false, 0, 0, 0⟩ true ⟨0, 0, 0⟩) = false := by decide
theorem test_wf_short_arg1 :
    Instr.wf (.controlCell 0 ⟨.command ⟨0, 0, 0, 0, (List.replicate 8 0#8), 0, 0, 2 ^ 32, 0#128⟩, 0, 0, 0, false, false, 0, 0, 0⟩ true ⟨0, 0, 0⟩) = false := by decide
theorem test_wf_resp_sop :
    Instr.wf (.controlCell 0 ⟨.commandResp 256 0 0 (List.replicate 8 0#8) 0 0#128, 0, 0, 0, false, false, 0, 0, 0⟩ true ⟨0, 0, 0⟩) = false := by decide
theorem test_wf_resp_status :
    Instr.wf (.controlCell 0 ⟨.commandResp 0 256 0 (List.replicate 8 0#8) 0 0#128, 0, 0, 0, false, false, 0, 0, 0⟩ true ⟨0, 0, 0⟩) = false := by decide
theorem test_wf_resp_tag :
    Instr.wf (.controlCell 0 ⟨.commandResp 0 0 4096 (List.replicate 8 0#8) 0 0#128, 0, 0, 0, false, false, 0, 0, 0⟩ true ⟨0, 0, 0⟩) = false := by decide
theorem test_wf_resp_snonce :
    Instr.wf (.controlCell 0 ⟨.commandResp 0 0 0 [] 0 0#128, 0, 0, 0, false, false, 0, 0, 0⟩ true ⟨0, 0, 0⟩) = false := by decide
theorem test_wf_resp_seq :
    Instr.wf (.controlCell 0 ⟨.commandResp 0 0 0 (List.replicate 8 0#8) (2 ^ 32) 0#128, 0, 0, 0, false, false, 0, 0, 0⟩ true ⟨0, 0, 0⟩) = false := by decide
theorem test_wf_header_length : Instr.wf (.nop ⟨0, 0, 0#8, 0#12, 0#32, 4097⟩) = false := by decide
theorem test_wf_header_serial : Instr.wf (.nop ⟨2, 0, 0#8, 0#12, 0#32, 463⟩) = false := by decide
set_option maxRecDepth 10000 in
theorem test_wf_reg_write_words :
    Instr.wf (.regWrite ⟨0, 0, 0#8, 0#12, 0#32, 8⟩ 0#32 0 (List.replicate 1025 0#32)) = false := by decide
theorem test_wf_header_sessionOpen : Instr.wf (.sessionOpen ⟨0, 0, 0#8, 0#12, 0#32, 4097⟩ 0#8 0#8 0#128) = false := by decide
theorem test_wf_header_sessionProve : Instr.wf (.sessionProve ⟨0, 0, 0#8, 0#12, 0#32, 4097⟩) = false := by decide
theorem test_wf_header_sessionClose : Instr.wf (.sessionClose ⟨0, 0, 0#8, 0#12, 0#32, 4097⟩) = false := by decide
theorem test_wf_header_passwordPresent : Instr.wf (.passwordPresent ⟨0, 0, 0#8, 0#12, 0#32, 4097⟩ 0#256) = false := by decide
theorem test_wf_header_regRead : Instr.wf (.regRead ⟨0, 0, 0#8, 0#12, 0#32, 4097⟩ 0#32 0#16) = false := by decide
theorem test_wf_header_regWrite : Instr.wf (.regWrite ⟨0, 0, 0#8, 0#12, 0#32, 4097⟩ 0#32 0#16 []) = false := by decide
theorem test_wf_header_imageStage : Instr.wf (.imageStage ⟨0, 0, 0#8, 0#12, 0#32, 4097⟩ 0#32) = false := by decide
theorem test_wf_header_data : Instr.wf (.data ⟨0, 0, 0#8, 0#12, 0#32, 4097⟩ 0#12 0#32 [] false) = false := by decide
theorem test_wf_header_imageActivateAt : Instr.wf (.imageActivateAt ⟨0, 0, 0#8, 0#12, 0#32, 4097⟩ 0#48 0#128 0#8) = false := by decide
theorem test_wf_header_safetyConsent : Instr.wf (.safetyConsent ⟨0, 0, 0#8, 0#12, 0#32, 4097⟩ 0#128) = false := by decide
theorem test_wf_header_plotRepitch : Instr.wf (.plotRepitch ⟨0, 0, 0#8, 0#12, 0#32, 4097⟩ 0#8 0#48 0#128) = false := by decide
theorem test_wf_header_flashWrite : Instr.wf (.flashWrite ⟨0, 0, 0#8, 0#12, 0#32, 4097⟩ 0#8 0#32) = false := by decide
theorem test_wf_header_bankSwap : Instr.wf (.bankSwap ⟨0, 0, 0#8, 0#12, 0#32, 4097⟩ 0#8 0#48) = false := by decide
theorem test_wf_header_settingWrite : Instr.wf (.settingWrite ⟨0, 0, 0#8, 0#12, 0#32, 4097⟩ 0#16 0#32) = false := by decide
theorem test_wf_header_spwChange : Instr.wf (.spwChange ⟨0, 0, 0#8, 0#12, 0#32, 4097⟩ 0#256) = false := by decide
theorem test_wf_header_lifecycleAdvance : Instr.wf (.lifecycleAdvance ⟨0, 0, 0#8, 0#12, 0#32, 4097⟩ 0#8) = false := by decide
theorem test_wf_header_serviceUnlock : Instr.wf (.serviceUnlock ⟨0, 0, 0#8, 0#12, 0#32, 4097⟩ []) = false := by decide
theorem test_wf_header_keyEnrol : Instr.wf (.keyEnrol ⟨0, 0, 0#8, 0#12, 0#32, 4097⟩ 0#8 0#384) = false := by decide
theorem test_wf_header_keyRevoke : Instr.wf (.keyRevoke ⟨0, 0, 0#8, 0#12, 0#32, 4097⟩ 0#8) = false := by decide
theorem test_wf_header_credSet : Instr.wf (.credSet ⟨0, 0, 0#8, 0#12, 0#32, 4097⟩ 0#8 0#8 []) = false := by decide
theorem test_wf_header_cakInstall : Instr.wf (.cakInstall ⟨0, 0, 0#8, 0#12, 0#32, 4097⟩ 0#8 0#128 []) = false := by decide
theorem test_wf_header_sysReset : Instr.wf (.sysReset ⟨0, 0, 0#8, 0#12, 0#32, 4097⟩) = false := by decide
theorem test_wf_header_ctReset : Instr.wf (.ctReset ⟨0, 0, 0#8, 0#12, 0#32, 4097⟩) = false := by decide
theorem test_wf_header_logDump : Instr.wf (.logDump ⟨0, 0, 0#8, 0#12, 0#32, 4097⟩ 0#8 0#64 0#32) = false := by decide
theorem test_wf_header_selfTestFull : Instr.wf (.selfTestFull ⟨0, 0, 0#8, 0#12, 0#32, 4097⟩ 0#8) = false := by decide
theorem test_wf_header_opStatus : Instr.wf (.opStatus ⟨0, 0, 0#8, 0#12, 0#32, 4097⟩ 0#16) = false := by decide
theorem test_wf_header_opSuspend : Instr.wf (.opSuspend ⟨0, 0, 0#8, 0#12, 0#32, 4097⟩ 0#16) = false := by decide
theorem test_wf_header_opResume : Instr.wf (.opResume ⟨0, 0, 0#8, 0#12, 0#32, 4097⟩ 0#16) = false := by decide
theorem test_wf_header_opCancel : Instr.wf (.opCancel ⟨0, 0, 0#8, 0#12, 0#32, 4097⟩ 0#16) = false := by decide
theorem test_wf_header_plotQuench : Instr.wf (.plotQuench ⟨0, 0, 0#8, 0#12, 0#32, 4097⟩ 0#16 0#8) = false := by decide
theorem test_wf_header_plotThrottle : Instr.wf (.plotThrottle ⟨0, 0, 0#8, 0#12, 0#32, 4097⟩ 0#16 0#8 0#16) = false := by decide
theorem test_wf_header_plotRelease : Instr.wf (.plotRelease ⟨0, 0, 0#8, 0#12, 0#32, 4097⟩ 0#16 0#8) = false := by decide
theorem test_wf_header_portShut : Instr.wf (.portShut ⟨0, 0, 0#8, 0#12, 0#32, 4097⟩ 0#16 0#8) = false := by decide
theorem test_wf_header_portOpen : Instr.wf (.portOpen ⟨0, 0, 0#8, 0#12, 0#32, 4097⟩ 0#16 0#8) = false := by decide
theorem test_wf_data_length : Instr.wf (.data ⟨0, 0, 0#8, 0#12, 0#32, 0⟩ 0#12 0#32 [] false) = false := by decide
theorem test_wf_token_length : Instr.wf (.serviceUnlock ⟨0, 0, 0#8, 0#12, 0#32, 0⟩ [0#8]) = false := by decide
theorem test_wf_cred_length : Instr.wf (.credSet ⟨0, 0, 0#8, 0#12, 0#32, 0⟩ 0#8 0#8 [0#8]) = false := by decide
theorem test_wf_cak_length : Instr.wf (.cakInstall ⟨0, 0, 0#8, 0#12, 0#32, 0⟩ 0#8 0#128 [0#8]) = false := by decide
set_option maxRecDepth 10000 in
theorem test_wf_xfer_words : Instr.wf (.cspXferDone 0 (List.replicate 129 0#32)) = false := by decide
theorem test_wf_slave_words : Instr.wf (.cspSlaveXfer 0 0 [0#32]) = false := by decide
theorem test_wf_cmd_xfer_len : Instr.wf (.cspCmdXfer 0 0 65536) = false := by decide
theorem test_wf_tenant_frame_len : Instr.wf (.tenantFrame 0 none 0#48 0#48 63) = false := by decide
theorem test_wf_ring_frame_len : Instr.wf (.ringFrame 0 0#12 0#3 false 0#10 0#10 0#10 false 0#48 0#48 63 0) = false := by decide
theorem test_wf_short_command : Instr.wf (.shortCommand 0#10 0#10 0#48 ⟨256, 0, 0, 0, (List.replicate 8 0#8), 0, 0, 0, 0#128⟩) = false := by decide

/-! ### Witnesses: for each clause of a statement, a state and operands that meet its hypotheses -/

/-- The part after a boot, with every domain on and every clock locked. -/
def up : State :=
  let s := { State.reset with lan := { State.reset.lan with mode := .mainOn }, img := { State.reset.img with phase := .booted } }
  ((((s.wr Fld.DOM_STATUS_ON 0xFFFF).wr Fld.CLK_STATUS_CTRL_LOCK 1).wr Fld.CLK_STATUS_RG_LOCK 1).wr Fld.CLK_STATUS_APP_LOCK 1).wr
    Fld.SCHED_CFG_TICK_RUN 1

/-- A state with some fields written. -/
def put (s : State) (l : List (FRef × Nat)) : State := l.foldl (fun s e => s.wr e.1 e.2) s

/-- A header of session 2. -/
def hdr (n : Nat) : Hdr := ⟨0, 0, 2#8, 4#12, 1#32, n⟩

set_option maxRecDepth 20000 in
theorem hyps_AccessRefused :
    ((fun (a : Word) (size : Nat) => (size ≠ 4 ∨ a.toNat % 4 ≠ 0)) (1#32) (1)) ∧
    ((fun (a : Word) => (a.toNat % 4 = 0) ∧ (decoded a.toNat = false)) (0x10FFFC#32)) ∧
    ((fun (s : State) (i : Initiator) (a : Word) => (a.toNat % 4 = 0) ∧ (decoded a.toNat = true) ∧ (fwStalled s i = true)) ({ put up [(Fld.DOM_STATUS_ON, 1)] with pwr := { up.pwr with biasBusy := some (1, .nom) } }) .fw (0x150000#32)) ∧
    ((fun (s : State) (i : Initiator) (a : Word) (k : BusKind) (st : Status) => (a.toNat % 4 = 0) ∧ (decoded a.toNat = true) ∧ (fwStalled s i = false) ∧ (accessFault s a.toNat = some (k, st))) (State.reset) .fw (0x150000#32) (((accessFault State.reset 0x150000).get (by decide)).1) (((accessFault State.reset 0x150000).get (by decide)).2)) ∧
    ((fun (s : State) (i : Initiator) (a : Word) => (a.toNat % 4 = 0) ∧ (decoded a.toNat = true) ∧ (Reaches s i a.toNat) ∧ (inSafetyBlock a.toNat = true) ∧ (mayWriteSafety s i = false)) (up) .fw (0x1F0000#32)) := by
  refine ⟨?_, ?_, ?_, ?_, ?_⟩ <;> first | decide | (dsimp only; done) | (dsimp only; decide) | (dsimp only [CommandReady]; decide)

set_option maxRecDepth 20000 in
theorem hyps_RegisterAccess :
    ((fun (s : State) (i : Initiator) (a : Word) (v : Word) (d : RegDesc) => (a.toNat % 4 = 0) ∧ (descOf a.toNat = some d) ∧ (ruledReg a.toNat = false) ∧ (Reaches s i a.toNat) ∧ (mayWrite s i a.toNat = true) ∧ (lockedChange d (unlockedBy d.unlock s i a.toNat) (s.reg a.toNat) v = true)) (up) .fw ((BitVec.ofNat 32 Reg.CE_CFG)) (1#32) (((descOf Reg.CE_CFG).get (by decide)))) ∧
    ((fun (s : State) (i : Initiator) (a : Word) (v : Word) (d : RegDesc) => (a.toNat % 4 = 0) ∧ (descOf a.toNat = some d) ∧ (ruledReg a.toNat = false) ∧ (Reaches s i a.toNat) ∧ (mayWrite s i a.toNat = true) ∧ (let o := unlockedBy d.unlock s i a.toNat; (lockedChange d o (s.reg a.toNat) v = false) ∧ ((effectiveLocked d o (s.reg a.toNat) v = true → s.clogFull = false)))) (put up [((Fld.CE_SESS_ROLE 1), 1), ((Fld.CE_SESS_VALID 1), 1)]) (.session 1) ((BitVec.ofNat 32 Reg.CE_CFG)) (0xFF00012C#32) (((descOf Reg.CE_CFG).get (by decide)))) ∧
    ((fun (s : State) (i : Initiator) (a : Word) (v : Word) (d : RegDesc) => (a.toNat % 4 = 0) ∧ (descOf a.toNat = some d) ∧ (ruledReg a.toNat = false) ∧ (Reaches s i a.toNat) ∧ (mayWrite s i a.toNat = true) ∧ (s.clogFull = true) ∧ (effectiveLocked d (unlockedBy d.unlock s i a.toNat) (s.reg a.toNat) v = true)) ({ put up [((Fld.CE_SESS_ROLE 1), 1), ((Fld.CE_SESS_VALID 1), 1)] with clog := { up.clog with queue := List.replicate 64 ⟨1, 0, 0, false, false, false, 1, 2, 4, 0, 0, 0⟩ } }) (.session 1) ((BitVec.ofNat 32 Reg.CE_CFG)) (1#32) (((descOf Reg.CE_CFG).get (by decide)))) ∧
    ((fun (s : State) (i : Initiator) (a : Word) (d : RegDesc) => (a.toNat % 4 = 0) ∧ (descOf a.toNat = some d) ∧ (Reaches s i a.toNat) ∧ (mayRead s i a.toNat = true) ∧ (d.rc ≠ 0) ∧ (¬ (0x680000 ≤ a.toNat ∧ a.toNat < 0x700000))) (up) .fw ((BitVec.ofNat 32 Reg.CE_COUNT)) (((descOf Reg.CE_COUNT).get (by decide)))) := by
  refine ⟨?_, ?_, ?_, ?_⟩ <;> first | decide | (dsimp only; done) | (dsimp only; decide) | (dsimp only [CommandReady]; decide)

set_option maxRecDepth 20000 in
theorem hyps_TicksAdvance :
    ((fun (s : State) => (s.mainOn = true)) (up)) ∧
    ((fun (s : State) => (ticksRun s = true) ∧ (s.time.nextTick < ticksPerFrame s)) (up)) := by
  refine ⟨?_, ?_⟩ <;> first | decide | (dsimp only; done) | (dsimp only; decide) | (dsimp only [CommandReady]; decide)

set_option maxRecDepth 20000 in
theorem hyps_PowerStateRequest :
    ((fun (s : State) (i : Initiator) => (Reaches s i Reg.PWR_CTRL) ∧ (mayRequestState s i = false)) (up) .core) ∧
    ((fun (s : State) (i : Initiator) => (Reaches s i Reg.PWR_CTRL) ∧ (mayRequestState s i = true) ∧ (s.clogFull = false) ∧ (s.rd Fld.PWR_STATE_STATE = 3)) (put up [(Fld.PWR_STATE_STATE, 3)]) .fw) ∧
    ((fun (s : State) (i : Initiator) => (Reaches s i Reg.PWR_CTRL) ∧ (mayRequestState s i = true) ∧ (s.clogFull = false) ∧ (s.pwr.change ≠ none ∨ s.rdB Fld.PWR_STATE_BUSY = true)) (up) .fw) ∧
    ((fun (s : State) (i : Initiator) => (Reaches s i Reg.PWR_CTRL) ∧ (mayRequestState s i = true) ∧ (s.clogFull = false) ∧ (s.pwr.change = none) ∧ (s.rdB Fld.PWR_STATE_BUSY = false)) (put up [(Fld.PWR_STATE_BUSY, 0), (Fld.PWR_STATE_STATE, 0)]) .fw) ∧
    ((fun (s : State) (i : Initiator) => (Reaches s i Reg.PWR_CTRL) ∧ (mayRequestState s i = true) ∧ (s.clogFull = false) ∧ (s.pwr.change = none) ∧ (s.rdB Fld.PWR_STATE_BUSY = false) ∧ (s.rd Fld.PWR_STATE_STATE ≤ 3) ∧ (280 ≤ s.rd Fld.INRUSH_CFG_BUDGET)) (put up [(Fld.PWR_STATE_BUSY, 0), (Fld.PWR_STATE_STATE, 0), (Fld.INRUSH_CFG_BUDGET, 280)]) .fw) ∧
    ((fun (s : State) => (s.rdB Fld.PWR_CTRL_IDLE_AUTO = true) ∧ (s.rd Fld.PWR_STATE_STATE = 0) ∧ (s.pwr.change = none) ∧ (s.rdB Fld.PWR_STATE_BUSY = false) ∧ (noLongOp s = true) ∧ (Nat.max 1 (s.rd Fld.PWR_CTRL_IDLE_DELAY) * 5000 ≤ s.eng.quiet) ∧ (280 ≤ s.rd Fld.INRUSH_CFG_BUDGET)) ({ put up [(Fld.PWR_CTRL_IDLE_AUTO, 1), (Fld.PWR_STATE_STATE, 0), (Fld.PWR_STATE_BUSY, 0), (Fld.INRUSH_CFG_BUDGET, 280)] with eng := { up.eng with quiet := 5000000 } })) := by
  refine ⟨?_, ?_, ?_, ?_, ?_, ?_⟩ <;> first | decide | (dsimp only; done) | (dsimp only; decide) | (dsimp only [CommandReady]; decide)

set_option maxRecDepth 20000 in
theorem hyps_StateChangeCompletes :
    ((fun (s : State) (c : PwrChange) => (s.pwr.change = some c) ∧ (legReady s = true) ∧ (c.phase = .domains) ∧ (c.leg ≤ 2) ∧ (c.leg = c.goal) ∧ (s.pwr.pendingReq = none) ∧ (c.cause < 16)) ({ up with pwr := { up.pwr with change := some ⟨0, 0, 1, 1, 0xFFFF, .domains, 0, false⟩ } }) (⟨0, 0, 1, 1, 0xFFFF, .domains, 0, false⟩)) ∧
    ((fun (s : State) (c : PwrChange) => (s.pwr.change = some c) ∧ (legReady s = true) ∧ (c.phase = .domains) ∧ (2 < c.leg)) ({ up with pwr := { up.pwr with change := some ⟨3, 3, 1, 1, 0xFFFF, .domains, 0, false⟩ } }) (⟨3, 3, 1, 1, 0xFFFF, .domains, 0, false⟩)) ∧
    ((fun (s : State) (c : PwrChange) => (s.pwr.change = some c) ∧ (legReady s = true) ∧ (c.phase = .rails)) ({ up with pwr := { up.pwr with change := some ⟨3, 3, 1, 1, 0xFFFF, .rails, 0, false⟩ } }) (⟨3, 3, 1, 1, 0xFFFF, .rails, 0, false⟩)) ∧
    ((fun (s : State) (c : PwrChange) => (s.pwr.change = some c) ∧ (legReady s = false ∨ c.phase = .stopping ∨ c.phase = .bias)) ({ up with pwr := { up.pwr with change := some ⟨3, 3, 1, 1, 0xFFFF, .stopping, 0, false⟩ } }) (⟨3, 3, 1, 1, 0xFFFF, .stopping, 0, false⟩)) ∧
    ((fun (s : State) => (s.pwr.change = none)) (up)) ∧
    ((fun (s : State) (b : Nat) (a : Assist) => (s.pwr.biasBusy = some (b, a))) ({ up with pwr := { up.pwr with biasBusy := some (1, .nom) } }) 1 .nom) ∧
    ((fun (s : State) => (s.pwr.biasBusy = none)) (up)) := by
  refine ⟨?_, ?_, ?_, ?_, ?_, ?_, ?_⟩ <;> first | decide | (dsimp only; done) | (dsimp only; decide) | (dsimp only [CommandReady]; decide)

set_option maxRecDepth 20000 in
theorem hyps_DomainsWakeAndDrain :
    ((fun (s : State) (d : Nat) (q : List Nat) => (s.pwr.wakeQ = d :: q) ∧ (d < 16) ∧ (q.length < 32) ∧ (s.rd Fld.INRUSH_STATUS_WAKING = 0x1F) ∧ (s.rd Fld.INRUSH_STATUS_LOAD + maxLoad d + surge d ≤ s.rd Fld.INRUSH_CFG_BUDGET)) ({ put up [(Fld.INRUSH_STATUS_WAKING, 0x1F), (Fld.INRUSH_CFG_BUDGET, 1023)] with pwr := { up.pwr with wakeQ := [5, 6] } }) 5 ([6])) ∧
    ((fun (s : State) => (s.pwr.wakeQ = [] ∨ s.rd Fld.INRUSH_STATUS_WAKING ≠ 0x1F ∨ s.rd Fld.INRUSH_CFG_BUDGET < s.rd Fld.INRUSH_STATUS_LOAD + maxLoad (s.pwr.wakeQ.headD 0) + surge (s.pwr.wakeQ.headD 0))) (up)) ∧
    ((fun (s : State) (d : Nat) => (s.rd Fld.INRUSH_STATUS_WAKING = d) ∧ (d ≤ 15) ∧ (s.rd Fld.INRUSH_STATUS_LOAD + maxLoad d < 1024)) (put up [(Fld.INRUSH_STATUS_WAKING, 15)]) 15) ∧
    ((fun (s : State) => (15 < s.rd Fld.INRUSH_STATUS_WAKING)) (put up [(Fld.INRUSH_STATUS_WAKING, 16)])) ∧
    ((fun (s : State) (d : Nat) (q : List Nat) => (s.pwr.wakeQ = d :: q) ∧ (d < 16) ∧ (wakeOverdue s = true) ∧ (q.length < 32) ∧ (wakeNeeded s d = false)) ({ up with pwr := { up.pwr with wakeQ := [5], wakeAge := [(5, 60000)] } }) 5 ([])) ∧
    ((fun (s : State) (d : Nat) (q : List Nat) (c : PwrChange) => (s.pwr.wakeQ = d :: q) ∧ (d < 16) ∧ (wakeOverdue s = true) ∧ (wakeNeeded s d = true) ∧ (q.length < 16) ∧ (s.pwr.change = some c) ∧ (s.pwr.pendingReq = none) ∧ (c.fromState < 8) ∧ (c.fromOn < 65536)) ({ up with pwr := { up.pwr with used := 0xFFFF, wakeQ := [14], wakeAge := [(14, 60000)], change := some ⟨0, 0, 1, 1, 0xFFFF, .domains, 0, false⟩ } }) 14 ([]) (⟨0, 0, 1, 1, 0xFFFF, .domains, 0, false⟩)) ∧
    ((fun (s : State) => (wakeOverdue s = false)) (up)) ∧
    ((fun (s : State) (d : Nat) (q : List Nat) => (s.pwr.drainQ = d :: q) ∧ (d < 16) ∧ (s.waking d = false)) ({ up with pwr := { up.pwr with drainQ := [5] } }) 5 ([])) ∧
    ((fun (s : State) (us : Nat) (d : Nat) (q : List Nat) => (s.pwr.drainQ = d :: q) ∧ (d < 16) ∧ (s.waking d = false) ∧ (drainLimit s ≤ us)) ({ up with pwr := { up.pwr with drainQ := [5] } }) 10000 5 ([])) ∧
    ((fun (s : State) => (s.drains = false)) (up)) ∧
    ((fun (s : State) (us : Nat) => (us < drainLimit s)) (up) 1) := by
  refine ⟨?_, ?_, ?_, ?_, ?_, ?_, ?_, ?_, ?_, ?_, ?_⟩ <;> first | decide | (dsimp only; done) | (dsimp only; decide) | (dsimp only [CommandReady]; decide)

set_option maxRecDepth 20000 in
theorem hyps_RailsAndRegulators :
    ((fun (s : State) (pg : BitVec 16) (goodFor : Nat) => (s.pwr.seqUp = some true) ∧ (s.img.phase ≠ .firmware) ∧ (stepGood pg.toNat goodFor s = true)) ({ up with pwr := { up.pwr with seqUp := some true } }) (0xFFFF#16) 1000000) ∧
    ((fun (s : State) (pg : BitVec 16) (goodFor : Nat) (offFor : Nat) => ((s.pwr.seqUp = some true ∧ stepGood pg.toNat goodFor s = false) ∨ (s.pwr.seqUp = some false ∧ stepOff pg.toNat offFor s = false) ∨ s.pwr.seqUp = none)) (up) (1#16) 1 1) ∧
    ((fun (s : State) (pg : BitVec 16) (offFor : Nat) => (s.pwr.seqUp = some false) ∧ (stepOff pg.toNat offFor s = true) ∧ (s.pwr.thenUp = false)) ({ up with pwr := { up.pwr with seqUp := some false, thenUp := false } }) (0#16) 1000000) ∧
    ((fun (s : State) (faulty : BitVec 16) => ((∀ n, n < 16 → s.rdB (Fld.RAIL_CFG_PMB_EN n) = true → faulty.getLsbD n = false))) (up) (1#16)) ∧
    ((fun (s : State) (faulty : BitVec 16) (n : Fin 16) => (s.rdB (Fld.RAIL_CFG_PMB_EN n.val) = true) ∧ (faulty.getLsbD n.val = true)) (put up [((Fld.RAIL_CFG_PMB_EN 1), 1)]) (2#16) 1) ∧
    ((fun (s : State) (i : Initiator) (n : Fin 16) (v : Int) => (sessionOf [3] s i = true) ∧ (s.rdB (Fld.RAIL_CFG_PMB_EN n.val) = true) ∧ (v.natAbs ≤ 500)) (put up [((Fld.RAIL_CFG_PMB_EN 1), 1), ((Fld.CE_SESS_ROLE 1), 3), ((Fld.CE_SESS_VALID 1), 1)]) (.session 1) 1 1) := by
  refine ⟨?_, ?_, ?_, ?_, ?_, ?_⟩ <;> first | decide | (dsimp only; done) | (dsimp only; decide) | (dsimp only [CommandReady]; decide)

set_option maxRecDepth 20000 in
theorem hyps_SupplyFaults :
    ((fun (s : State) (n : Fin 16) => (s.pwr.regEn.testBit n.val = true)) ({ up with pwr := { up.pwr with regEn := 2 } }) 1) ∧
    ((fun (s : State) (n : Fin 16) => (s.pwr.regEn.testBit n.val = false)) (up) 1) ∧
    ((fun (s : State) (n : Fin 16) => (s.pwr.seqUp = some true) ∧ ((railsOfStep s s.pwr.seqStep).testBit n.val = true)) ({ put up [((Fld.RAIL_CFG_CLASS 1), 1)] with pwr := { up.pwr with seqUp := some true, seqStep := 0 } }) 1) ∧
    ((fun (s : State) (n : Fin 16) => (s.pwr.seqUp ≠ some true ∨ (railsOfStep s s.pwr.seqStep).testBit n.val = false)) (up) 1) ∧
    ((fun (s : State) => (s.lan.mode = .mainOn)) (up)) ∧
    ((fun (s : State) => (s.lan.mode ≠ .mainOn)) ({ up with lan := { up.lan with mode := .dormant } })) := by
  refine ⟨?_, ?_, ?_, ?_, ?_, ?_⟩ <;> first | decide | (dsimp only; done) | (dsimp only; decide) | (dsimp only [CommandReady]; decide)

set_option maxRecDepth 20000 in
theorem hyps_ClockLosses :
    ((fun (s : State) (slip : Bool) (lockV : BitVec 8) => (s.rdB Fld.CLK_STATUS_CTRL_LOCK = true) ∧ (slip = true ∨ pinReads s.time.pinLock lockV.toNat = false)) (put up [(Fld.CLK_STATUS_CTRL_LOCK, 1)]) true (1#8)) ∧
    ((fun (s : State) (slip : Bool) (lockV : BitVec 8) => (s.rdB Fld.CLK_STATUS_CTRL_LOCK = false ∨ (slip = false ∧ pinReads s.time.pinLock lockV.toNat = true))) (put up [(Fld.CLK_STATUS_CTRL_LOCK, 0)]) true (1#8)) ∧
    ((fun (s : State) => (s.rdB Fld.CLK_STATUS_RG_LOCK = true)) (put up [(Fld.CLK_STATUS_RG_LOCK, 1)])) ∧
    ((fun (s : State) => (s.rdB Fld.CLK_STATUS_APP_LOCK = true)) (put up [(Fld.CLK_STATUS_APP_LOCK, 1)])) ∧
    ((fun (s : State) => (s.rdB Fld.CLK_STATUS_SYSCLK_OK = true)) (put up [(Fld.CLK_STATUS_SYSCLK_OK, 1)])) ∧
    ((fun (s : State) (k : Fin 4) => (s.bit Fld.CLK_STATUS_SD_LOCK k.val = true)) (put up [(Fld.CLK_STATUS_SD_LOCK, 2)]) 1) ∧
    ((fun (s : State) (k : Fin 4) => (s.mainOn = true) ∧ (s.bit Fld.CLK_STATUS_REFCLK_OK k.val = true)) (up) 1) := by
  refine ⟨?_, ?_, ?_, ?_, ?_, ?_, ?_⟩ <;> first | decide | (dsimp only; done) | (dsimp only; decide) | (dsimp only [CommandReady]; decide)

set_option maxRecDepth 20000 in
theorem hyps_ClockReturns :
    ((fun (s : State) (lockV : BitVec 8) => (s.rdB Fld.CLK_STATUS_CTRL_LOCK = false) ∧ (pinReads s.time.pinLock lockV.toNat = true)) (put up [(Fld.CLK_STATUS_CTRL_LOCK, 0)]) (80#8)) ∧
    ((fun (s : State) (lockV : BitVec 8) => (s.rdB Fld.CLK_STATUS_CTRL_LOCK = true ∨ pinReads s.time.pinLock lockV.toNat = false)) (put up [(Fld.CLK_STATUS_CTRL_LOCK, 1)]) (1#8)) ∧
    ((fun (s : State) => (s.time.resume = some 1) ∧ (s.rdB Fld.CLK_STATUS_CTRL_LOCK = true) ∧ (s.img.phase = .booted)) ({ put up [(Fld.CLK_STATUS_CTRL_LOCK, 1)] with time := { up.time with resume := some 1 } })) ∧
    ((fun (s : State) => (s.time.resume ≠ some 1 ∨ s.rdB Fld.CLK_STATUS_CTRL_LOCK = false ∨ s.img.phase ≠ .booted)) (up)) := by
  refine ⟨?_, ?_, ?_, ?_⟩ <;> first | decide | (dsimp only; done) | (dsimp only; decide) | (dsimp only [CommandReady]; decide)

set_option maxRecDepth 20000 in
theorem hyps_RingTimeFollowsTheMaster :
    ((fun (s : State) => (s.rd Fld.TIME_SYNC_SERVO ≠ 3)) (up)) ∧
    ((fun (s : State) => (s.rd Fld.TIME_SYNC_SERVO = 3)) (put up [(Fld.TIME_SYNC_SERVO, 3)])) ∧
    ((fun (s : State) => (s.rd Fld.TIME_SYNC_SERVO ≠ 3)) (up)) ∧
    ((fun (s : State) (g : Nat) (a : Announce) => (bestForeign s = some (g, a)) ∧ ((∀ h, h < 4 → ∀ k, k < 4 → (Tab.get none s.time.foreign h).all (fun b => (Tab.get none s.time.foreign k).all (fun c => decide (b.identity = c.identity → announceRank b = announceRank c))) = true))) ({ up with time := { up.time with foreign := [(1, some ⟨128#8, 6#8, 0x21#8, 0#16, 128#8, 5#64, 0#16⟩)] } }) 1 (⟨128#8, 6#8, 0x21#8, 0#16, 128#8, 5#64, 0#16⟩)) ∧
    ((fun (s : State) (mark : BitVec 48) (ns : Nat) (corr : Nat) => (mark.toNat ≠ fnCorrected ns corr s)) (up) (1#48) 1 1) ∧
    ((fun (s : State) (mark : BitVec 48) (ns : Nat) (corr : Nat) => (mark.toNat = fnCorrected ns corr s)) (up) (0#48) 0 0) ∧
    ((fun (s : State) (k : Int) => (s.time.stepPending = some k) ∧ (s.time.rt < 2 ^ 64)) ({ up with time := { up.time with stepPending := some 1 } }) 1) ∧
    ((fun (s : State) => (s.time.stepPending = none)) (up)) ∧
    ((fun (s : State) => (s.fn % 50 = 0) ∧ (s.img.phase = .booted)) (up)) ∧
    ((fun (s : State) => (s.fn % 50 ≠ 0 ∨ s.img.phase ≠ .booted)) ({ up with img := { up.img with phase := .noImage } })) := by
  refine ⟨?_, ?_, ?_, ?_, ?_, ?_, ?_, ?_, ?_, ?_⟩ <;> first | decide | (dsimp only; done) | (dsimp only; decide) | (dsimp only [CommandReady]; decide)

set_option maxRecDepth 20000 in
theorem hyps_RingTimeRead :
    ((fun (s : State) (i : Initiator) => (Reaches s i Reg.RT_NOW_LO)) (up) .fw) ∧
    ((fun (s : State) (i : Initiator) => (fwStalled s i = true)) ({ put up [(Fld.DOM_STATUS_ON, 1)] with pwr := { up.pwr with biasBusy := some (1, .nom) } }) .fw) ∧
    ((fun (s : State) (i : Initiator) (k : BusKind) (st : Status) => (fwStalled s i = false) ∧ (accessFault s Reg.RT_NOW_LO = some (k, st))) ({ up with lan := { up.lan with mode := .dormant } }) .fw .domainOff .stateConflict) := by
  refine ⟨?_, ?_, ?_⟩ <;> first | decide | (dsimp only; done) | (dsimp only; decide) | (dsimp only [CommandReady]; decide)

set_option maxRecDepth 20000 in
theorem hyps_LanternSuppliesAndCell :
    ((fun (s : State) (c : Instr) (low : Bool) (counts : Nat) => (s.lan.mode = .stopped) ∧ ([Instr.boostTakeover, .chgRestart, .lxtalFail, .lxtalReturn, .trimPeriodEnd, .rtcSyncLoad, .ridgelineHeartbeat, .rgHbLost, .ctHbLost, .appHbLost, .wakeIn low counts, .wakeTimerExpiry counts, .mainWake counts, .wakeFail counts, .wakeRetry counts, .logWriteSlot].contains c = true)) ({ up with lan := { up.lan with mode := .stopped } }) .chgRestart true 1) ∧
    ((fun (s : State) => (s.lan.mode ≠ .stopped) ∧ (s.rdB Fld.POWER_CFG_HARV_EN = true)) (put up [(Fld.POWER_CFG_HARV_EN, 1)])) ∧
    ((fun (s : State) => (s.rdB Fld.POWER_CFG_HARV_EN = false)) (put up [(Fld.POWER_CFG_HARV_EN, 0)])) ∧
    ((fun (s : State) => (s.lan.mode ≠ .stopped) ∧ (s.rdB Fld.POWER_CFG_HARV_EN = true) ∧ (s.lan.boostOn = true)) ({ put up [(Fld.POWER_CFG_HARV_EN, 1)] with lan := { up.lan with boostOn := true } })) ∧
    ((fun (s : State) => (s.lan.mode ≠ .stopped)) (up)) ∧
    ((fun (s : State) => (s.rdB Fld.POWER_CFG_HARV_EN = false ∨ s.lan.boostOn = false)) (put up [(Fld.POWER_CFG_HARV_EN, 0)])) ∧
    ((fun (s : State) => (s.lan.mode ≠ .stopped)) (up)) ∧
    ((fun (s : State) (vcell : Nat) (temp : Int) => (s.lan.mode ≠ .stopped) ∧ (s.rdB Fld.POWER_CFG_CELL_TYPE = true) ∧ (vchgMv s + 150 < vcell ∨ temp < 0 ∨ 60 < temp)) (put up [(Fld.POWER_CFG_CELL_TYPE, 1)]) 4251 25) ∧
    ((fun (s : State) (vcell : Nat) (temp : Int) => (s.rdB Fld.POWER_CFG_CELL_TYPE = false ∨ (vcell ≤ vchgMv s + 150 ∧ 0 ≤ temp ∧ temp ≤ 60))) (put up [(Fld.POWER_CFG_CELL_TYPE, 0)]) 1 1) ∧
    ((fun (s : State) => (s.lan.mode ≠ .stopped)) (up)) ∧
    ((fun (s : State) (vcell : Nat) => (s.lan.mode ≠ .stopped) ∧ (s.rdB Fld.LAN_STATUS_CELL_CONN = true) ∧ (vcell < uvdMv s)) (put up [(Fld.LAN_STATUS_CELL_CONN, 1)]) 1) ∧
    ((fun (s : State) (vcell : Nat) => (s.rdB Fld.LAN_STATUS_CELL_CONN = false ∨ uvdMv s ≤ vcell)) (put up [(Fld.LAN_STATUS_CELL_CONN, 0)]) 1) ∧
    ((fun (s : State) (vcell : Nat) => (s.lan.mode ≠ .stopped) ∧ (s.rdB Fld.LAN_STATUS_CELL_CONN = false) ∧ (s.rdB Fld.POWER_CFG_CELL_TYPE = true) ∧ (uvdMv s + 300 ≤ vcell)) (put up [(Fld.LAN_STATUS_CELL_CONN, 0), (Fld.POWER_CFG_CELL_TYPE, 1)]) 4200) ∧
    ((fun (s : State) (vcell : Nat) => (s.rdB Fld.LAN_STATUS_CELL_CONN = true ∨ s.rdB Fld.POWER_CFG_CELL_TYPE = false ∨ vcell < uvdMv s + 300)) (put up [(Fld.LAN_STATUS_CELL_CONN, 1)]) 1) ∧
    ((fun (s : State) => (s.lan.mode = .stopped)) ({ up with lan := { up.lan with mode := .stopped } })) := by
  refine ⟨?_, ?_, ?_, ?_, ?_, ?_, ?_, ?_, ?_, ?_, ?_, ?_, ?_, ?_, ?_⟩ <;> first | decide | (dsimp only; done) | (dsimp only; decide) | (dsimp only [CommandReady]; decide)

set_option maxRecDepth 20000 in
theorem hyps_LanternClockAndHeartbeats :
    ((fun (s : State) => (s.lan.mode ≠ .stopped) ∧ (s.lan.onRc = false)) (up)) ∧
    ((fun (s : State) => (s.lan.onRc = true)) ({ up with lan := { up.lan with onRc := true } })) ∧
    ((fun (s : State) => (s.lan.mode ≠ .stopped)) (up)) ∧
    ((fun (s : State) => (s.lan.mode ≠ .stopped)) (up)) ∧
    ((fun (s : State) => (s.lan.mode = .mainOn) ∧ (s.rdB Fld.TIME_SYNC_UNSYNCED = false) ∧ (s.rdB Fld.RTC_TRIM_RTC_SYNC = true) ∧ (s.time.rt % 1000000000 = 0)) (put up [(Fld.TIME_SYNC_UNSYNCED, 0), (Fld.RTC_TRIM_RTC_SYNC, 1)])) ∧
    ((fun (s : State) => (s.lan.mode ≠ .mainOn ∨ s.rdB Fld.TIME_SYNC_UNSYNCED = true ∨ s.rdB Fld.RTC_TRIM_RTC_SYNC = false ∨ s.time.rt % 1000000000 ≠ 0)) (up)) ∧
    ((fun (s : State) (i : Initiator) => (s.lan.mode = .mainOn) ∧ (fwStalled s i = false)) (up) .fw) ∧
    ((fun (s : State) => (s.lan.mode = .mainOn) ∧ (s.ring.forwarding = true)) ({ up with ring := { up.ring with forwarding := true } })) ∧
    ((fun (s : State) => (s.lan.mode ≠ .mainOn ∨ s.ring.forwarding = false)) (up)) ∧
    ((fun (s : State) (i : Initiator) => (s.lan.mode ≠ .stopped) ∧ (fwStalled s i = false)) (up) .fw) ∧
    ((fun (s : State) => (s.lan.mode = .mainOn)) (up)) ∧
    ((fun (s : State) => (s.lan.mode = .mainOn)) (up)) ∧
    ((fun (s : State) => (s.lan.mode = .mainOn) ∧ (s.rd Fld.DBG_HALT_STATUS_APP = 0) ∧ (Nat.max 1 (s.rd Fld.HB_CTRL_APP_PERIOD) * 5000 ≤ s.lan.appAge)) ({ put up [(Fld.DBG_HALT_STATUS_APP, 0)] with lan := { up.lan with appAge := 1000000000 } })) ∧
    ((fun (s : State) (r : Fin 2) => (s.lan.mode ≠ .stopped) ∧ (s.lan.holdWait.testBit r.val = true)) ({ up with lan := { up.lan with holdWait := 2 } }) 1) ∧
    ((fun (s : State) => (s.lan.mode ≠ .stopped)) (up)) ∧
    ((fun (s : State) (r : Fin 2) => (s.lan.mode ≠ .stopped) ∧ (s.rdB (posFitField r.val) = true)) (put up [((posFitField 1), 1)]) 1) ∧
    ((fun (s : State) => (s.lan.mode = .mainOn) ∧ (s.rd Fld.DBG_HALT_STATUS_APP ≠ 0 ∨ s.lan.appAge < Nat.max 1 (s.rd Fld.HB_CTRL_APP_PERIOD) * 5000)) (put up [(Fld.DBG_HALT_STATUS_APP, 1)])) := by
  refine ⟨?_, ?_, ?_, ?_, ?_, ?_, ?_, ?_, ?_, ?_, ?_, ?_, ?_, ?_, ?_, ?_, ?_⟩ <;> first | decide | (dsimp only; done) | (dsimp only; decide) | (dsimp only [CommandReady]; decide)

set_option maxRecDepth 20000 in
theorem hyps_SleepAndWake :
    ((fun (s : State) => (asleep s = true) ∧ (s.pwr.change = none)) ({ up with lan := { up.lan with mode := .dormant } })) ∧
    ((fun (s : State) => (s.lan.mode = .mainOn) ∧ (s.pwr.change = none)) (up)) ∧
    ((fun (s : State) => (s.lan.mode = .mainOn) ∧ (enteringSleep s = true) ∧ (s.lan.wakeActive.testBit 0 = false) ∧ (s.pwr.change.map (fun c => (c.railOff, decide (c.leg ≤ 2), decide (c.fromState = 3))) = some (false, true, false))) ({ up with pwr := { up.pwr with change := some ⟨3, 1, 1, 1, 0xFFFF, .domains, 0, false⟩ } })) ∧
    ((fun (s : State) (counts : Nat) => (asleep s = true) ∧ (wakeMask (sleepPass counts s) ≠ 0) ∧ (wakeMask (sleepPass counts s) < 64) ∧ ((sleepPass counts s).lan.wakeFailed = false) ∧ (1639 ≤ s.lan.lowFor + counts)) ({ up with lan := { up.lan with mode := .dormant, wakeActive := 1, wakeFailed := false } }) 1639) ∧
    ((fun (s : State) (counts : Nat) => (asleep s = true) ∧ (wakeMask (sleepPass counts s) ≠ 0) ∧ (wakeMask (sleepPass counts s) < 64) ∧ ((sleepPass counts s).lan.wakeFailed = true) ∧ (1966080 ≤ s.lan.lowFor + counts)) ({ up with lan := { up.lan with mode := .bivouac, wakeActive := 63, wakeFailed := true } }) 1966080) ∧
    ((fun (s : State) => (asleep s = true)) ({ up with lan := { up.lan with mode := .dormant } })) ∧
    ((fun (s : State) => (s.lan.mode = .mainOn)) (up)) ∧
    ((fun (s : State) => (s.lan.mode = .waking)) ({ up with lan := { up.lan with mode := .waking } })) ∧
    ((fun (s : State) => (s.lan.mode = .bivouac)) ({ up with lan := { up.lan with mode := .bivouac } })) ∧
    ((fun (s : State) => (s.lan.mode ≠ .bivouac)) (up)) ∧
    ((fun (s : State) => (s.lan.mode = .mainOn)) (up)) ∧
    ((fun (s : State) => (s.lan.mode ≠ .mainOn)) ({ up with lan := { up.lan with mode := .dormant } })) := by
  refine ⟨?_, ?_, ?_, ?_, ?_, ?_, ?_, ?_, ?_, ?_, ?_, ?_⟩ <;> first | decide | (dsimp only; done) | (dsimp only; decide) | (dsimp only [CommandReady]; decide)

set_option maxRecDepth 20000 in
theorem hyps_TroubleLogAccess :
    ((fun (s : State) (e : LogEntry) (l : TroubleLog) => (s.lan.mode ≠ .stopped) ∧ (logPop s.log = some (e, l))) ({ up with log := { up.log with lanQ := [⟨1, 1, 0#32, 0, false, false, none, 0⟩], ctrlQ := [], switchQ := [] } }) (⟨1, 1, 0#32, 0, false, false, none, 0⟩) ({ up.log with lanQ := [] })) ∧
    ((fun (s : State) => (s.log.lanQ = []) ∧ (s.log.ctrlQ = []) ∧ (s.log.switchQ = [])) ({ up with log := { up.log with lanQ := [], ctrlQ := [], switchQ := [] } })) ∧
    ((fun (s : State) (k : Fin 64) => (s.lan.mode ≠ .stopped) ∧ (s.rd (Fld.CE_SESS_ROLE k.val) = 3)) (put up [((Fld.CE_SESS_ROLE 1), 3)]) 1) ∧
    ((fun (s : State) (i : Initiator) => (s.lan.mode ≠ .stopped) ∧ (sessionOf [3] s i = false)) (up) .fw) ∧
    ((fun (s : State) (i : Initiator) => (s.lan.mode = .mainOn) ∧ (fwStalled s i = false)) (up) .fw) := by
  refine ⟨?_, ?_, ?_, ?_, ?_⟩ <;> first | decide | (dsimp only; done) | (dsimp only; decide) | (dsimp only [CommandReady]; decide)

set_option maxRecDepth 20000 in
theorem hyps_ResetAndBoot :
    ((fun (s : State) => (s.lan.mode = .mainOn)) (up)) ∧
    ((fun (s : State) => (s.lan.mode ≠ .mainOn)) ({ up with lan := { up.lan with mode := .dormant } })) ∧
    ((fun (s : State) => (s.lan.mode = .waking)) ({ up with lan := { up.lan with mode := .waking } })) ∧
    ((fun (s : State) => (s.lan.mode = .mainOn)) (up)) ∧
    ((fun (s : State) => (s.lan.mode ≠ .mainOn) ∧ (s.lan.mode ≠ .waking)) ({ up with lan := { up.lan with mode := .stopped } })) ∧
    ((fun (s : State) => (s.lan.mode = .mainOn) ∧ (s.img.phase = .released)) ({ up with img := { up.img with phase := .released } })) ∧
    ((fun (s : State) => (s.img.phase = .firmware) ∧ (s.pwr.railsUp = true) ∧ (s.rdB Fld.CLK_STATUS_CTRL_LOCK = true)) ({ put up [(Fld.CLK_STATUS_CTRL_LOCK, 1)] with img := { up.img with phase := .firmware }, pwr := { up.pwr with railsUp := true } })) ∧
    ((fun (s : State) => (s.img.phase ≠ .firmware ∨ s.pwr.railsUp = false ∨ s.rdB Fld.CLK_STATUS_CTRL_LOCK = false)) (up)) ∧
    ((fun (s : State) => (s.img.phase = .controlLoaded)) ({ up with img := { up.img with phase := .controlLoaded } })) ∧
    ((fun (s : State) => (s.img.phase ≠ .controlLoaded)) (up)) ∧
    ((fun (s : State) (k : Nat) => (s.img.phase = .booted) ∧ ((liveRec s).pending.map (·.slot) = some k)) ({ up with flash := { up.flash with rec0 := ⟨true, 5, .active, .staged, some ⟨1, 0, false, none⟩, true⟩ } }) 1) ∧
    ((fun (s : State) => (s.img.phase ≠ .booted ∨ (liveRec s).pending = none)) (up)) := by
  refine ⟨?_, ?_, ?_, ?_, ?_, ?_, ?_, ?_, ?_, ?_, ?_, ?_⟩ <;> first | decide | (dsimp only; done) | (dsimp only; decide) | (dsimp only [CommandReady]; decide)

set_option maxRecDepth 20000 in
theorem hyps_Activations :
    ((fun (s : State) (p : PendingAct) => ((liveRec s).pending = some p) ∧ (p.target = s.fn) ∧ (s.img.unresolved = false) ∧ (p.slot < 2) ∧ (missReason p s = none) ∧ (s.clogFull = false) ∧ (s.img.rewriteDue = false)) ({ put up [(Fld.IMG_STATUS_PRELOADED, 1), (Fld.DOM_STATUS_ON, 0xBFFF), (Fld.TIME_SYNC_UNSYNCED, 0)] with flash := { up.flash with rec0 := ⟨true, 5, .active, .staged, some ⟨1, 0, false, some 3⟩, true⟩ } }) (⟨1, 0, false, some 3⟩)) ∧
    ((fun (s : State) (p : PendingAct) (r : Nat) => ((liveRec s).pending = some p) ∧ (p.target = s.fn) ∧ (s.img.unresolved = false) ∧ (missReason p s = some r) ∧ (r < 16)) ({ up with flash := { up.flash with rec0 := ⟨true, 5, .active, .staged, some ⟨1, 0, false, none⟩, true⟩ } }) (⟨1, 0, false, none⟩) (((missReason ⟨1, 0, false, none⟩ { up with flash := { up.flash with rec0 := ⟨true, 5, .active, .staged, some ⟨1, 0, false, none⟩, true⟩ } }).get (by decide)))) ∧
    ((fun (s : State) (p : PendingAct) => (s.img.unresolved = true) ∧ (s.unsynced = false) ∧ (s.img.phase = .booted) ∧ ((liveRec s).pending = some p) ∧ (p.target ≠ s.fn)) ({ put up [(Fld.TIME_SYNC_UNSYNCED, 0)] with flash := { up.flash with rec0 := ⟨true, 5, .active, .staged, some ⟨1, 7, false, none⟩, true⟩ }, img := { up.img with unresolved := true } }) (⟨1, 7, false, none⟩)) ∧
    ((fun (s : State) => (s.img.unresolved = false ∨ s.unsynced = true ∨ s.img.phase ≠ .booted)) (up)) ∧
    ((fun (s : State) => (s.img.commitDue = true)) ({ up with img := { up.img with commitDue := true } })) ∧
    ((fun (s : State) => (s.img.rewriteDue = true) ∧ ((currentRec s.flash).seq + 1 < 2 ^ 32)) ({ up with img := { up.img with rewriteDue := true } })) := by
  refine ⟨?_, ?_, ?_, ?_, ?_, ?_⟩ <;> first | decide | (dsimp only; done) | (dsimp only; decide) | (dsimp only [CommandReady]; decide)

set_option maxRecDepth 20000 in
theorem hyps_DigestAgreement :
    ((fun (s : State) => (s.img.phase ≠ .booted ∨ announceDue s = false)) (up)) ∧
    ((fun (s : State) (i : Initiator) => (Reaches s i (Reg.EXP_DIGEST 3)) ∧ (s.roleOf i = 1) ∧ (s.clog.queue.length ≤ 60)) (put up [((Fld.CE_SESS_ROLE 1), 1), ((Fld.CE_SESS_VALID 1), 1)]) (.session 1)) ∧
    ((fun (s : State) (i : Initiator) (v : Word) => (Reaches s i (Reg.EXP_DIGEST 3)) ∧ (s.roleOf i ≠ 1) ∧ (s.reg (Reg.EXP_DIGEST 3) ≠ v)) (up) .fw (1#32)) := by
  refine ⟨?_, ?_, ?_⟩ <;> first | decide | (dsimp only; done) | (dsimp only; decide) | (dsimp only [CommandReady]; decide)

set_option maxRecDepth 20000 in
theorem hyps_CountedSettingsAndChangeLog :
    ((fun (s : State) (j : OtpJob) => (s.otp.programming = some j) ∧ (j.offset = 0x100 ∨ j.offset = 0x104 ∨ j.offset = 0x108) ∧ (s.clogFull = false)) ({ up with otp := { up.otp with programming := some ⟨0x100, 1, 0, 2, 1, 0x30, 5⟩ } }) (⟨0x100, 1, 0, 2, 1, 0x30, 5⟩)) ∧
    ((fun (s : State) (j : OtpJob) => (s.otp.programming = some j) ∧ (j.offset = 0x14) ∧ (s.img.phase ≠ .booted) ∧ (s.lan.mode = .mainOn)) ({ up with otp := { up.otp with programming := some ⟨0x14, 1, 0, 2, 1, 0x30, 5⟩ }, img := { up.img with phase := .noImage } }) (⟨0x14, 1, 0, 2, 1, 0x30, 5⟩)) ∧
    ((fun (s : State) (j : OtpJob) => (s.otp.programming = some j)) ({ up with otp := { up.otp with programming := some ⟨0x100, 1, 0, 2, 1, 0x30, 5⟩ } }) (⟨0x100, 1, 0, 2, 1, 0x30, 5⟩)) ∧
    ((fun (s : State) => (s.otp.programming = none)) (up)) ∧
    ((fun (s : State) (e : ClogEntry) (q : List ClogEntry) => (s.clog.queue = e :: q) ∧ (q.length < 128)) ({ up with clog := { up.clog with queue := [⟨1, 0, 0, false, false, false, 1, 2, 4, 0, 0, 0⟩] } }) (⟨1, 0, 0, false, false, false, 1, 2, 4, 0, 0, 0⟩) ([])) ∧
    ((fun (s : State) => (s.clog.queue = [])) (up)) := by
  refine ⟨?_, ?_, ?_, ?_, ?_, ?_⟩ <;> first | decide | (dsimp only; done) | (dsimp only; decide) | (dsimp only [CommandReady]; decide)

set_option maxRecDepth 20000 in
theorem hyps_SequencerTriggers :
    ((fun (s : State) (c : Fin 40) (e : Fin 16) (d : AdcQ × Int) => ((s.core c).due.find? (fun d => d.1.entry == e.val) = some d) ∧ (sampling s = true) ∧ ((s.core c).due.all (dueFirst d) = true) ∧ ((s.core c).running = none ∨ 5 * d.2 < instantAt s (s.core c).next) ∧ (coreUsed s c = true) ∧ (s.rdB (Fld.ADC_ENTRY_A_EN c e) = true)) ({ put up [((Fld.ADC_CORE_CFG_EN 1), 1), ((Fld.ADC_REF_CFG_REF_OK 0), 1), ((Fld.ADC_ENTRY_A_EN 1 1), 1)] with adc := [(1, { restCore with due := [(⟨1, false, false, 0, none⟩, 100)] })] }) 1 1 ((⟨1, false, false, 0, none⟩, 100))) ∧
    ((fun (s : State) (c : Fin 40) (e : Fin 16) (d : AdcQ × Int) (r : AdcQ) => ((s.core c).due.find? (fun d => d.1.entry == e.val) = some d) ∧ (sampling s = true) ∧ ((s.core c).due.all (dueFirst d) = true) ∧ ((s.core c).running = some r) ∧ (5 * d.2 < instantAt s (s.core c).next) ∧ (coreUsed s c = true) ∧ (s.rdB (Fld.ADC_ENTRY_A_EN c e) = true) ∧ (entryBusy (s.core c) e = false) ∧ (d.1.urgent = true)) ({ put up [((Fld.ADC_CORE_CFG_EN 1), 1), ((Fld.ADC_REF_CFG_REF_OK 0), 1), ((Fld.ADC_ENTRY_A_EN 1 1), 1)] with adc := [(1, { restCore with running := some ⟨2, false, false, 0, none⟩, next := 500, due := [(⟨1, true, false, 0, none⟩, 100)] })] }) 1 1 ((⟨1, true, false, 0, none⟩, 100)) (⟨2, false, false, 0, none⟩)) ∧
    ((fun (s : State) (c : Fin 40) (e : Fin 16) => ((s.core c).due.find? (fun d => d.1.entry == e.val) = none ∨ sampling s = false)) (up) 1 1) ∧
    ((fun (s : State) (i : Initiator) (c : Fin 40) (v : Word) => (Reaches s i (Reg.ADC_SW_TRIG c)) ∧ (mayWrite s i (Reg.ADC_SW_TRIG c) = true) ∧ (coreUsed s c = true) ∧ ((∀ e, e < 16 → v.getLsbD e = true → s.rdB (Fld.ADC_ENTRY_A_URGENT c e) = false)) ∧ ((s.core c).running.isSome = true)) ({ put up [((Fld.ADC_CORE_CFG_EN 1), 1), ((Fld.ADC_REF_CFG_REF_OK 0), 1)] with adc := [(1, { restCore with running := some ⟨2, false, false, 0, none⟩ })] }) .fw 1 (1#32)) ∧
    ((fun (s : State) (i : Initiator) (c : Fin 40) (v : Word) => (Reaches s i (Reg.ADC_URG_REQ c)) ∧ (coreFwOr [1, 3] s i = true) ∧ (mayWrite s i (Reg.ADC_URG_REQ c) = true) ∧ (v.getLsbD 31 = true)) (up) .fw 1 (0x80000001#32)) ∧
    ((fun (s : State) (i : Initiator) (c : Fin 40) => (Reaches s i (Reg.ADC_URG_REQ c)) ∧ (mayWrite s i (Reg.ADC_URG_REQ c) = true) ∧ (coreFwOr [1, 3] s i = false)) (put up [((Fld.CE_SESS_ROLE 1), 2), ((Fld.CE_SESS_VALID 1), 1)]) (.session 1) 1) := by
  refine ⟨?_, ?_, ?_, ?_, ?_, ?_⟩ <;> first | decide | (dsimp only; done) | (dsimp only; decide) | (dsimp only [CommandReady]; decide)

set_option maxRecDepth 20000 in
theorem hyps_EntryResults :
    ((fun (s : State) (c : Fin 40) (x : AdcQ) => (entriesRun s = true) ∧ ((s.core c).running = none) ∧ (nextQueued (s.core c).queue = some x)) ({ up with adc := [(1, { restCore with queue := [⟨1, false, false, 0, none⟩] })] }) 1 (⟨1, false, false, 0, none⟩)) ∧
    ((fun (s : State) (c : Fin 40) => ((s.core c).running ≠ none ∨ (s.core c).queue = [] ∨ entriesRun s = false)) (up) 1) ∧
    ((fun (s : State) (c : Fin 40) (x : AdcQ) (l : List Int) => (sampling s = true) ∧ ((s.core c).running = some x) ∧ (x.entry < 16) ∧ (let q := gather s c x (takingOf s c x.entry) l (s.core c); (q.n < 1048576) ∧ (q.sum < 64 * 16384 * q.n + 1) ∧ (q.excl < 4096))) ({ up with adc := [(1, { restCore with running := some ⟨1, false, false, 0, none⟩ })] }) 1 (⟨1, false, false, 0, none⟩) ([])) ∧
    ((fun (s : State) (c : Fin 40) (e : Fin 16) (u : Bool) (ab : Bool) => (sampling s = true) ∧ ((s.core c).running = some ⟨e, u, ab, 0, none⟩) ∧ (refOk s c = true) ∧ (s.rdB (Fld.ADC_CORE_CFG_PAIR_EN c) = false) ∧ (s.rd (Fld.ADC_ENTRY_A_MODE c e) = 0) ∧ (s.rd (Fld.ADC_ENTRY_B_BURST_N c e) = 0) ∧ ((s.core c).n = 0) ∧ ((s.core c).sum = 0) ∧ ((s.core c).exclude = 0) ∧ (s.bit (Fld.ADC_CORE_STATUS_DISTURB c) (s.rd (Fld.ADC_ENTRY_A_MUX c e)) = false) ∧ (injectedAt s c (s.rd (Fld.ADC_ENTRY_A_MUX c e)) (s.core c).next = false)) ({ put up [((Fld.ADC_CORE_CFG_PAIR_EN 1), 0), ((Fld.ADC_ENTRY_A_MODE 1 1), 0), ((Fld.ADC_ENTRY_B_BURST_N 1 1), 0), ((Fld.ADC_CORE_CFG_EN 1), 1), ((Fld.ADC_REF_CFG_REF_OK 0), 1)] with adc := [(1, { restCore with running := some ⟨1, false, false, 0, none⟩ })] }) 1 1 false false) ∧
    ((fun (s : State) (c : Fin 40) => (sampling s = true) ∧ ((s.core c).running = none)) (up) 1) ∧
    ((fun (s : State) => (sampling s = false)) (put up [(Fld.CLK_STATUS_CTRL_LOCK, 0)])) := by
  refine ⟨?_, ?_, ?_, ?_, ?_, ?_⟩ <;> first | decide | (dsimp only; done) | (dsimp only; decide) | (dsimp only [CommandReady]; decide)

set_option maxRecDepth 20000 in
theorem hyps_ReferencesAndOpenWires :
    ((fun (s : State) (g : Fin 10) => (s.rd (Fld.ADC_REF_CFG_REF_OK (4 * g)) = 1)) (put up [((Fld.ADC_REF_CFG_REF_OK (4 * 1)), 1)]) 1) ∧
    ((fun (s : State) (g : Fin 10) => (s.rd (Fld.ADC_REF_CFG_REF_OK (4 * g)) = 0)) (put up [((Fld.ADC_REF_CFG_REF_OK (4 * 1)), 0)]) 1) ∧
    ((fun (s : State) (g : Fin 10) => (s.rd (Fld.ADC_REF_CFG_REF_OK (4 * g)) = 0) ∧ (s.bit Fld.DOM_STATUS_ON 15 = true)) (put up [((Fld.ADC_REF_CFG_REF_OK (4 * 1)), 0), (Fld.DOM_STATUS_ON, (2 ^ (15 : Nat)))]) 1) ∧
    ((fun (s : State) (c : Fin 40) (m : Fin 4) (a : Nat) (b : Nat) (x : Nat) (d : Nat) => (s.bit (Fld.ADC_OW_CFG_OW_EN c) m = true) ∧ (sampling s = true) ∧ (coreUsed s c = true) ∧ (s.rd (Fld.ADC_OW_OFS_OW_OFS c m) ≤ 2499) ∧ (let o : Int := s.rd (Fld.ADC_OW_OFS_OW_OFS c m); (nearCodes (s.core c) m o = some [a, b, x, d] ∨ (nearCodes (s.core c) m o = none ∧ nearCodes (s.core c) m (o - 2500) = some [a, b, x, d])))) ({ put up [((Fld.ADC_OW_OFS_OW_OFS 1 1), 0), ((Fld.ADC_CORE_CFG_EN 1), 1), ((Fld.ADC_REF_CFG_REF_OK 0), 1), ((Fld.ADC_OW_CFG_OW_EN 1), 2)] with adc := [(1, { restCore with near := [⟨-1, 1, 1, true⟩, ⟨0, 1, 2, true⟩, ⟨1, 1, 3, true⟩, ⟨2, 1, 4, true⟩] })] }) 1 1 1 2 3 4) ∧
    ((fun (s : State) (c : Fin 40) (m : Fin 4) => let o : Int := s.rd (Fld.ADC_OW_OFS_OW_OFS c m); (nearCodes (s.core c) m o = none) ∧ (nearCodes (s.core c) m (o - 2500) = none)) (up) 1 1) := by
  refine ⟨?_, ?_, ?_, ?_, ?_⟩ <;> first | decide | (dsimp only; done) | (dsimp only; decide) | (dsimp only [CommandReady]; decide)

set_option maxRecDepth 20000 in
theorem hyps_WindowMonitors :
    ((fun (s : State) (n : Fin 32) => (underCheck s n = false)) (up) 1) ∧
    ((fun (s : State) (i : Initiator) => (Reaches s i Reg.WIN_CLR)) (up) .fw) ∧
    ((fun (s : State) (i : Initiator) (v : Word) (n : Nat) (rest : List Nat) => (Reaches s i Reg.WIN_CHK_CTRL) ∧ (coreOr [2, 3] s i = true) ∧ (Fld.WIN_CHK_CTRL_GO.get v = 1) ∧ (Fld.WIN_CHK_CTRL_MODE.get v ≠ 0) ∧ (s.win.check = none) ∧ ((if Fld.WIN_CHK_CTRL_ALL.get v = 1 then enabledWindows s else [Fld.WIN_CHK_CTRL_WIN.get v]) = n :: rest)) (up) .core (0x8100001F#32) 31 ([])) ∧
    ((fun (s : State) (i : Initiator) (v : Word) => (Reaches s i Reg.WIN_CHK_CTRL) ∧ (coreOr [2, 3] s i = true) ∧ (Fld.WIN_CHK_CTRL_GO.get v = 1) ∧ (Fld.WIN_CHK_CTRL_MODE.get v ≠ 0) ∧ (s.win.check ≠ none)) ({ up with win := { up.win with check := some ⟨1, [], 1, false⟩ } }) .core (0xFFFFFFFF#32)) ∧
    ((fun (s : State) (m : WinSample) (n : Fin 32) (rest : List Nat) (mode : Nat) (load : Bool) => (s.win.check = some ⟨n, rest, mode, load⟩) ∧ (opsWith s 0x51 = []) ∧ (mode = 1 ∨ (mode = 2 ∧ m.changed = false))) ({ up with win := { up.win with check := some ⟨1, [], 1, false⟩ } }) (⟨true, true, true, true, false, false, false, false, false⟩) 1 ([]) 1 false) ∧
    ((fun (s : State) (i : Initiator) (v : Word) => (Reaches s i Reg.WIN_CHK_CTRL) ∧ (coreOr [2, 3] s i = false) ∧ (checkAsked v = true)) (up) .fw (0xFFFFFFFF#32)) ∧
    ((fun (s : State) => (s.win.check = none)) (up)) := by
  refine ⟨?_, ?_, ?_, ?_, ?_, ?_, ?_⟩ <;> first | decide | (dsimp only; done) | (dsimp only; decide) | (dsimp only [CommandReady]; decide)

set_option maxRecDepth 20000 in
theorem hyps_SlotSteps :
    ((fun (s : State) (n : Fin 96) (at' : BitVec 13) => (slotTurn s n at'.toNat = true) ∧ (s.rdB (Fld.SLOT_STATUS_HALTED n) = false) ∧ (s.rdB (Fld.SLOT_STATUS_RAMPING n) = false) ∧ (slotCauses s n = 0) ∧ (s.rd (Fld.SLOT_SEC_NSEC n) ≤ 1) ∧ (let fb := (slotReads s n).1.value; let r0 := if (s.slot n).rInit then fb else (s.slot n).rPrev; (r0 < 2 ^ 31) ∧ (-(2 ^ 31) ≤ r0))) (put up [((Fld.SLOT_STATUS_HALTED 1), 0), ((Fld.SLOT_STATUS_RAMPING 1), 0), ((Fld.SLOT_SEC_NSEC 1), 0), (Fld.LE_STATUS_RUN, 1), ((Fld.SLOT_SRC_SP_KIND 1), 6)]) 1 (1#13)) ∧
    ((fun (s : State) (n : Fin 96) (at' : BitVec 13) => (slotTurn s n at'.toNat = true) ∧ (s.rdB (Fld.SLOT_STATUS_HALTED n) = true)) (put up [(Fld.LE_STATUS_RUN, 1), ((Fld.SLOT_SRC_SP_KIND 1), 6), ((Fld.SLOT_STATUS_HALTED 1), 1)]) 1 (1#13)) ∧
    ((fun (s : State) (n : Fin 96) (at' : BitVec 13) => (slotTurn s n at'.toNat = false)) (up) 1 (1#13)) ∧
    ((fun (s : State) (n : Fin 96) (at' : BitVec 13) => (slotTurn s n at'.toNat = true) ∧ (s.rdB (Fld.SLOT_STATUS_HALTED n) = false) ∧ (s.rdB (Fld.SLOT_STATUS_RAMPING n) = false) ∧ (slotCauses s n ≠ 0) ∧ (s.rd Fld.LE_STATUS_HALTED_N < 255)) (put up [((Fld.SLOT_STATUS_HALTED 1), 0), ((Fld.SLOT_STATUS_RAMPING 1), 0), (Fld.LE_STATUS_HALTED_N, 0), (Fld.LE_STATUS_RUN, 1), ((Fld.SLOT_SRC_FB_KIND 1), 4), ((Fld.SLOT_SRC_FB_IDX 1), 5), ((Fld.SLOT_STATUS_HALTED 5), 1)]) 1 (1#13)) := by
  refine ⟨?_, ?_, ?_, ?_⟩ <;> first | decide | (dsimp only; done) | (dsimp only; decide) | (dsimp only [CommandReady]; decide)

set_option maxRecDepth 20000 in
theorem hyps_Operators :
    ((fun (s : State) (k : Fin 128) (at' : BitVec 13) => (opTurn s k at'.toNat = true) ∧ (let type := s.rd (Fld.OP_CTL_TYPE k); let pair := s.rd (Fld.OP_CTL_PAIR k); let r := opReads s k; (opStale s k type r = false) ∧ (pair ≤ 66) ∧ (type ≤ 6))) (put up [(Fld.LE_STATUS_RUN, 1), ((Fld.OP_CTL_TYPE 1), 6)]) 1 (1#13)) ∧
    ((fun (s : State) (k : Fin 128) (at' : BitVec 13) => (opTurn s k at'.toNat = true) ∧ (opStale s k (s.rd (Fld.OP_CTL_TYPE k)) (opReads s k) = true)) (put up [(Fld.LE_STATUS_RUN, 1), ((Fld.OP_CTL_TYPE 1), 1), ((Fld.OP_IN01_IN0 1), 2053), ((Fld.SLOT_STATUS_HALTED 5), 1)]) 1 (1#13)) ∧
    ((fun (s : State) (k : Fin 128) (at' : BitVec 13) => (opTurn s k at'.toNat = false)) (up) 1 (1#13)) := by
  refine ⟨?_, ?_, ?_⟩ <;> first | decide | (dsimp only; done) | (dsimp only; decide) | (dsimp only [CommandReady]; decide)

set_option maxRecDepth 20000 in
theorem hyps_RearmAndStart :
    ((fun (s : State) (i : Initiator) (b : Fin 3) => (Reaches s i (Reg.LE_REARM b)) ∧ (mayWrite s i (Reg.LE_REARM b) = true)) (up) .fw 1) ∧
    ((fun (s : State) => (ticksRun s = true) ∧ (s.time.nextTick < ticksPerFrame s) ∧ (engineRuns s = true)) (put up [(Fld.LE_STATUS_RUN, 1)])) ∧
    ((fun (s : State) => (engineMayStart s = true) ∧ ((∀ g, g < 8 → s.rd (Fld.GST_CTRL_AUTO g) = 0)) ∧ ((∀ k, k < 24 → s.rd (Fld.TRK_CFG_AUTO k) = 0))) ({ put up [(Fld.LS_STATUS_ENG_STATE, 1)] with ls := { up.ls with coreHeld := false } })) ∧
    ((fun (s : State) => (engineMayStart s = false)) (up)) := by
  refine ⟨?_, ?_, ?_, ?_⟩ <;> first | decide | (dsimp only; done) | (dsimp only; decide) | (dsimp only [CommandReady]; decide)

set_option maxRecDepth 20000 in
theorem hyps_BankSwaps :
    ((fun (s : State) (i : Initiator) => (Reaches s i Reg.LE_BANK_CTRL) ∧ (mayWrite s i Reg.LE_BANK_CTRL = true)) (up) .fw) ∧
    ((fun (s : State) => (s.rd Fld.LE_STATUS_ARM_STATE = 1)) (put up [(Fld.LE_STATUS_ARM_STATE, 1)])) ∧
    ((fun (s : State) => (s.rd Fld.LE_STATUS_ARM_STATE = 2) ∧ (s.rd Fld.LE_SWAP_AT_LO + 2 ^ 32 * s.rd Fld.LE_SWAP_AT_HI = s.fn) ∧ (s.rd Fld.SCHED_CFG_TICK_RUN = 1) ∧ (s.clogFull = false)) (put up [(Fld.LE_STATUS_ARM_STATE, 2), (Fld.SCHED_CFG_TICK_RUN, 1)])) ∧
    ((fun (s : State) (i : Initiator) => (Reaches s i Reg.LE_BANK_CTRL) ∧ (mayWrite s i Reg.LE_BANK_CTRL = true)) (up) .fw) ∧
    ((fun (s : State) (i : Initiator) => (Reaches s i Reg.LE_BANK_CTRL) ∧ (mayWrite s i Reg.LE_BANK_CTRL = true)) (up) .fw) ∧
    ((fun (s : State) => (s.rd Fld.LE_STATUS_COPY_BUSY = 1)) (put up [(Fld.LE_STATUS_COPY_BUSY, 1)])) := by
  refine ⟨?_, ?_, ?_, ?_, ?_, ?_⟩ <;> first | decide | (dsimp only; done) | (dsimp only; decide) | (dsimp only [CommandReady]; decide)

set_option maxRecDepth 20000 in
theorem hyps_SectionStateRead :
    (fun (s : State) (i : Initiator) (j : Fin 512) => (Reaches s i (Reg.SEC_S1_LO j)) ∧ (mayRead s i (Reg.SEC_S1_LO j) = true)) (up) .fw 1 := by
  first | decide | (dsimp only; done) | (dsimp only; decide) | (dsimp only [CommandReady]; decide)

set_option maxRecDepth 20000 in
theorem hyps_GridSyncUnits :
    ((fun (s : State) => (unitOn s 8 = true) ∧ (s.rd Fld.SCHED_CFG_TICK_RUN = 1) ∧ (s.rd Fld.CLK_STATUS_CTRL_LOCK = 1) ∧ ((s.unit 8).done = false) ∧ ((unitSources s 8).all (resultUsable s) = true)) ({ put up [(Fld.SCHED_CFG_TICK_RUN, 1), (Fld.CLK_STATUS_CTRL_LOCK, 1), ((Fld.GS_CFG_EN 8), 1), ((Fld.ADC_RESULT_VALID 0 0), 1)] with units := [(8, { restUnit with started := true })], adc := [(0, { restCore with wroteAt := [(0, some 3)] })] })) ∧
    ((fun (s : State) => (unitOn s 8 = true) ∧ (s.rd Fld.SCHED_CFG_TICK_RUN = 1) ∧ (s.rd Fld.CLK_STATUS_CTRL_LOCK = 1) ∧ ((s.unit 8).done = false) ∧ ((unitSources s 8).all (resultUsable s) = false)) ({ put up [(Fld.SCHED_CFG_TICK_RUN, 1), (Fld.CLK_STATUS_CTRL_LOCK, 1), ((Fld.GS_CFG_EN 8), 1)] with units := [(8, { restUnit with started := true })], adc := [(0, { restCore with wroteAt := [(0, some 3)] })] })) ∧
    ((fun (s : State) (u : Fin 9) => (unitOn s u = false ∨ s.rd Fld.SCHED_CFG_TICK_RUN = 0 ∨ s.rd Fld.CLK_STATUS_CTRL_LOCK = 0 ∨ (s.unit u).done = true)) (up) 1) ∧
    ((fun (s : State) (u : Fin 9) => (5000 * ticksPerFrame s ≤ (s.unit u).lockTicks) ∧ (s.rd (Fld.GS_STATUS_LOCKED u) = 0) ∧ (s.rd (Fld.GS_STATUS_ANG_OK u) = 1)) ({ put up [((Fld.GS_STATUS_LOCKED 1), 0), ((Fld.GS_STATUS_ANG_OK 1), 1)] with units := [(1, { restUnit with lockTicks := 20000 })], adc := [(0, { restCore with wroteAt := [(0, some 3)] })] }) 1) ∧
    ((fun (s : State) (u : Fin 9) => ((s.unit u).lockTicks < 5000 * ticksPerFrame s)) (up) 1) := by
  refine ⟨?_, ?_, ?_, ?_, ?_⟩ <;> first | decide | (dsimp only; done) | (dsimp only; decide) | (dsimp only [CommandReady]; decide)

set_option maxRecDepth 20000 in
theorem hyps_GridStages :
    ((fun (s : State) (i : Initiator) (g : Fin 8) => (Reaches s i (Reg.GST_CTRL g)) ∧ (mayWrite s i (Reg.GST_CTRL g) = true) ∧ (s.rd (Fld.GST_MAP_EN g) = 1) ∧ (s.rd (Fld.GST_STATUS_STATE g) = 0)) (put up [((Fld.GST_MAP_EN 1), 1), ((Fld.GST_STATUS_STATE 1), 0)]) .fw 1) ∧
    ((fun (s : State) (i : Initiator) (g : Fin 8) => (Reaches s i (Reg.GST_CTRL g)) ∧ (mayWrite s i (Reg.GST_CTRL g) = true) ∧ (s.rd (Fld.GST_MAP_EN g) = 1) ∧ (1 ≤ s.rd (Fld.GST_STATUS_STATE g)) ∧ (s.rd (Fld.GST_STATUS_STATE g) ≤ 5) ∧ ((s.rd (Fld.GST_STATUS_STATE g) = 1 ∨ stageCause s g = none)) ∧ (timerTrips s g = false)) (put up [((Fld.GST_MAP_EN 1), 1), ((Fld.GST_STATUS_STATE 1), 1)]) .fw 1) ∧
    ((fun (s : State) (i : Initiator) (g : Fin 8) (c : Nat) => (Reaches s i (Reg.GST_CTRL g)) ∧ (mayWrite s i (Reg.GST_CTRL g) = true) ∧ (s.rd (Fld.GST_MAP_EN g) = 1) ∧ (2 ≤ s.rd (Fld.GST_STATUS_STATE g)) ∧ (s.rd (Fld.GST_STATUS_STATE g) ≤ 6) ∧ (stageCause s g = some c)) (put up [((Fld.GST_STATUS_STATE 1), 2), ((Fld.GST_MAP_EN 1), 1)]) .fw 1 5) ∧
    ((fun (s : State) (i : Initiator) (g : Fin 8) => (Reaches s i (Reg.GST_CTRL g)) ∧ (mayWrite s i (Reg.GST_CTRL g) = true) ∧ (s.rd (Fld.GST_MAP_EN g) = 1) ∧ (timerTrips s g = true) ∧ (stageCause s g = none)) ({ put up [((Fld.GST_MAP_EN 1), 1), ((Fld.GS_STATUS_ANG_OK 1), 1), ((Fld.GS_STATUS_LOCKED 1), 1), (Fld.IO_BANK_STATUS_PRESENT, 0xFF), (Fld.GDL_EN_STATUS_BANK_OK, 1), ((Fld.PWM_CFG_EN 0), 1), ((Fld.PWM_CFG_EN 1), 1), ((Fld.PWM_CFG_EN 2), 1), ((Fld.GDL_STATUS_LATCHED 0), 0), ((Fld.GDL_STATUS_LATCHED 1), 0), ((Fld.GDL_STATUS_LATCHED 2), 0), (Fld.SAFE_STATUS_LOCKED, 0), ((Fld.GST_STATUS_STATE 1), 2), ((Fld.GST_STATUS_CONNECT 1), 1), ((Fld.GST_STATUS_CONT_FB 1), 0)] with pwm := { up.pwm with initSrc := false, loaded := true }, ls := { up.ls with trip := false, coreHeld := false }, stages := [(1, { restStage with conn := 20000 })] }) .fw 1) ∧
    ((fun (s : State) (i : Initiator) (g : Fin 8) => (Reaches s i (Reg.GST_CTRL g)) ∧ (mayWrite s i (Reg.GST_CTRL g) = true) ∧ (s.rd (Fld.GST_MAP_EN g) = 1) ∧ (s.rd (Fld.GST_STATUS_STATE g) = 8)) (put up [((Fld.GST_MAP_EN 1), 1), ((Fld.GST_STATUS_STATE 1), 8)]) .fw 1) ∧
    ((fun (s : State) (g : Fin 8) => (s.rd (Fld.GST_STATUS_STATE g) = 1) ∧ (mayConnect s g = true) ∧ (connectDelay s g ≤ (s.stage g).delay)) ({ put up [((Fld.GST_STATUS_STATE 1), 1), (Fld.GC_STAT_CODE_IN_FORCE, 1), (Fld.GC_STAT_SET_OK, 1), ((Fld.GS_STATUS_LOCKED 1), 1), ((Fld.GS_STATUS_LOCKED 8), 1), (Fld.GC_EN_F_EN_F_LO, 0), (Fld.GC_EN_V_EN_V_LO, 0), (Fld.SAFE_STATUS_LOCKED, 0), (Fld.ISL_STATUS_DISC, 0), ((Fld.GST_MAP_EN 1), 1), (Fld.GC_EN_F_EN_F_HI, 65535), (Fld.GC_EN_V_EN_V_HI, 65535), ((Fld.PWM_CFG_EN 0), 1), ((Fld.GDL_STATUS_LATCHED 0), 0), (Fld.IO_BANK_STATUS_PRESENT, 0xFF), ((Fld.PWM_CFG_EN 1), 1), ((Fld.PWM_CFG_EN 2), 1), ((Fld.GDL_STATUS_LATCHED 1), 0), ((Fld.GDL_STATUS_LATCHED 2), 0)] with pwm := { up.pwm with initSrc := false, loaded := true }, ls := { up.ls with trip := false, coreHeld := false }, stages := [(1, { restStage with delay := 100000000 })] }) 1) ∧
    ((fun (s : State) (g : Fin 8) => (s.rd (Fld.GST_STATUS_STATE g) = 2) ∧ (s.rd (Fld.GST_STATUS_CONT_FB g) = 1) ∧ (1000 * ticksPerFrame s ≤ (s.stage g).fb)) ({ put up [((Fld.GST_STATUS_STATE 1), 2), ((Fld.GST_STATUS_CONT_FB 1), 1)] with stages := [(1, { restStage with fb := 4000 })] }) 1) ∧
    ((fun (s : State) (g : Fin 8) (closing : Bool) => (5000 * ticksPerFrame s ≤ (s.stage g).conn) ∧ (s.rd (Fld.GST_STATUS_STATE g) = (if closing then 2 else 6)) ∧ (s.rdB (Fld.GST_STATUS_CONNECT g) = closing) ∧ (s.rdB (Fld.GST_STATUS_CONT_FB g) = !closing)) ({ put up [((Fld.GST_STATUS_STATE 1), 2), ((Fld.GST_STATUS_CONNECT 1), 1)] with stages := [(1, { restStage with conn := 20000 })] }) 1 true) ∧
    ((fun (s : State) (g : Fin 8) => (s.rd (Fld.GST_STATUS_STATE g) = 3) ∧ (1000 * ticksPerFrame s ≤ (s.stage g).clear)) ({ put up [((Fld.GST_STATUS_STATE 1), 3)] with stages := [(1, { restStage with clear := 4000 })] }) 1) ∧
    ((fun (s : State) (g : Fin 8) => (s.rd (Fld.GST_STATUS_STATE g) = 4) ∧ (2 ^ 31 ≤ pEnter s g)) (put up [((Fld.GST_STATUS_STATE 1), 4)]) 1) ∧
    ((fun (s : State) (g : Fin 8) => (s.rd (Fld.GST_STATUS_STATE g) = 6) ∧ ((s.stage g).stopped = false) ∧ (5000 * ticksPerFrame s ≤ (s.stage g).stop)) ({ put up [((Fld.GST_STATUS_STATE 1), 6)] with stages := [(1, { restStage with stop := 20000, stopped := false })] }) 1) ∧
    ((fun (s : State) (g : Fin 8) (kind : Fin 5) (i : Fin 16) => (2 ≤ s.rd (Fld.GST_STATUS_STATE g)) ∧ (s.rd (Fld.GST_STATUS_STATE g) ≤ 6) ∧ (pointExpired s g kind i = true)) ({ put up [((Fld.GC_LV_V 0), 1), ((Fld.GST_STATUS_STATE 1), 2)] with stages := [(1, { restStage with lv := [(0, 1000000000)] })] }) 1 1 0) := by
  refine ⟨?_, ?_, ?_, ?_, ?_, ?_, ?_, ?_, ?_, ?_, ?_, ?_⟩ <;> first | decide | (dsimp only; done) | (dsimp only; decide) | (dsimp only [CommandReady]; decide)

set_option maxRecDepth 20000 in
theorem hyps_GridReferences :
    ((fun (s : State) (g : Fin 8) => (ticksRun s = true) ∧ (s.time.nextTick < ticksPerFrame s) ∧ (s.rd (Fld.GST_MAP_EN g) = 1)) ({ put up [((Fld.GST_MAP_EN 1), 1), ((Fld.GS_CFG_EN 1), 1)] with units := [(1, { restUnit with started := true })], adc := [(0, { restCore with wroteAt := [(0, some 3)] })] }) 1) ∧
    ((fun (s : State) (g : Fin 8) => (unitOn s g = true) ∧ (s.rd Fld.SCHED_CFG_TICK_RUN = 1) ∧ (s.rd Fld.CLK_STATUS_CTRL_LOCK = 1) ∧ ((s.unit g).done = false) ∧ ((unitSources s g).all (resultUsable s) = false) ∧ (s.rd (Fld.GST_MAP_EN g) = 1) ∧ (s.rd (Fld.GST_STATUS_STATE g) = 5) ∧ (s.rd (Fld.GST_CTRL_CMD g) = 0) ∧ (s.rd (Fld.GST_CTRL_QMODE g) = 0) ∧ (s.rd (Fld.GST_MAP_ACT_SRC g) = 0) ∧ (s.rd Fld.ISL_PHI = 0)) (put up [(Fld.SCHED_CFG_TICK_RUN, 1), (Fld.CLK_STATUS_CTRL_LOCK, 1), ((Fld.GST_MAP_EN 1), 1), ((Fld.GST_STATUS_STATE 1), 5), ((Fld.GST_CTRL_CMD 1), 0), ((Fld.GST_CTRL_QMODE 1), 0), ((Fld.GST_MAP_ACT_SRC 1), 0), (Fld.ISL_PHI, 0), ((Fld.GS_CFG_EN 1), 1)]) 1) := by
  refine ⟨?_, ?_⟩ <;> first | decide | (dsimp only; done) | (dsimp only; decide) | (dsimp only [CommandReady]; decide)

set_option maxRecDepth 20000 in
theorem hyps_Trackers :
    ((fun (s : State) (i : Initiator) (k : Fin 24) => (Reaches s i (Reg.TRK_CTRL k)) ∧ (mayWrite s i (Reg.TRK_CTRL k) = true) ∧ (s.rd (Fld.TRK_CTRL_CMD k) = 0) ∧ ((s.rd (Fld.TRK_CFG_EN k) = 0 ∨ trkCause s k (stepComes s k) = none ∨ s.rd (Fld.TRK_STATUS_STATE k) ≤ 1 ∨ s.rd (Fld.TRK_STATUS_STATE k) = 7))) (put up [((Fld.TRK_CTRL_CMD 1), 0), ((Fld.TRK_CFG_EN 1), 0)]) .fw 1) ∧
    ((fun (s : State) (i : Initiator) (k : Fin 24) (cause : Nat) => (Reaches s i (Reg.TRK_CTRL k)) ∧ (mayWrite s i (Reg.TRK_CTRL k) = true) ∧ (s.rd (Fld.TRK_CFG_EN k) = 1) ∧ (2 ≤ s.rd (Fld.TRK_STATUS_STATE k)) ∧ (s.rd (Fld.TRK_STATUS_STATE k) ≤ 6) ∧ (trkCause s k (stepComes s k) = some cause)) (put up [((Fld.TRK_CFG_EN 1), 1), ((Fld.TRK_STATUS_STATE 1), 2)]) .fw 1 3) ∧
    ((fun (s : State) (k : Fin 24) => (s.rd (Fld.TRK_CFG_EN k) = 1) ∧ (s.bit Fld.DOM_STATUS_ON 14 = true) ∧ (s.rd (Fld.TRK_STATUS_STATE k) = 1) ∧ (startOk s k = true) ∧ (s.rd (Fld.TRK_WIN_START_DELAY k) * 50000 ≤ (s.trk k).delay)) ({ put up [(Fld.DOM_STATUS_ON, (2 ^ (14 : Nat))), ((Fld.TRK_CFG_EN 1), 1), ((Fld.TRK_STATUS_STATE 1), 1), ((Fld.PWM_CFG_EN 0), 1), (Fld.SAFE_STATUS_LOCKED, 0), (Fld.IO_BANK_STATUS_PRESENT, 0xFF), (Fld.GDL_EN_STATUS_BANK_OK, 1), ((Fld.GDL_STATUS_LATCHED 0), 0)] with trks := [(1, { restTracker with windowOk := true, delay := 100000000 })], pwm := { up.pwm with initSrc := false, loaded := true }, ls := { up.ls with trip := false, coreHeld := false }, safe := { up.safe with loaded := true } }) 1) ∧
    ((fun (s : State) (k : Fin 24) (n : Nat) => (s.rd (Fld.TRK_CFG_EN k) = 1) ∧ (s.bit Fld.DOM_STATUS_ON 14 = true) ∧ ((s.rd (Fld.TRK_STATUS_STATE k) = 3 ∨ s.rd (Fld.TRK_STATUS_STATE k) = 4)) ∧ ((s.trk k).dusk = some n) ∧ (60 * 50000 ≤ n)) ({ put up [((Fld.TRK_CFG_EN 1), 1), (Fld.DOM_STATUS_ON, (2 ^ (14 : Nat))), ((Fld.TRK_STATUS_STATE 1), 3)] with trks := [(1, { restTracker with dusk := some 3000000 })] }) 1 3000000) ∧
    ((fun (s : State) (k : Fin 24) => (s.rd (Fld.TRK_CFG_EN k) = 1) ∧ (s.bit Fld.DOM_STATUS_ON 14 = true) ∧ (s.rd Fld.SCHED_CFG_TICK_RUN = 1) ∧ ((s.trk k).scanSeen = false) ∧ (((s.trk k).scanReq = true ∨ (s.rd (Fld.TRK_SCAN_SCAN_PERIOD k) ≠ 0 ∧ s.fn % 50000 = 0 ∧ s.fn / 50000 % s.rd (Fld.TRK_SCAN_SCAN_PERIOD k) = s.rd (Fld.TRK_SCAN_SCAN_OFS k) % s.rd (Fld.TRK_SCAN_SCAN_PERIOD k))))) ({ put up [((Fld.TRK_CFG_EN 1), 1), (Fld.DOM_STATUS_ON, (2 ^ (14 : Nat))), (Fld.SCHED_CFG_TICK_RUN, 1)] with trks := [(1, { restTracker with scanReq := true })] }) 1) ∧
    ((fun (s : State) (k : Fin 24) (p : Int) (v : Int) (vb : Int) (pb : Int) (n : Nat) => (s.rd (Fld.TRK_STATUS_STATE k) = 6) ∧ ((s.trk k).scan = some ⟨vb, pb, n, some (p, v)⟩) ∧ (500 * max 1 (s.rd (Fld.TRK_WIN_SCAN_TIME k)) ≤ n)) ({ put up [((Fld.TRK_STATUS_STATE 1), 6)] with trks := [(1, { restTracker with scan := some ⟨5, 6, 10000000, some (3, 4)⟩ })] }) 1 3 4 5 6 10000000) := by
  refine ⟨?_, ?_, ?_, ?_, ?_, ?_⟩ <;> first | decide | (dsimp only; done) | (dsimp only; decide) | (dsimp only [CommandReady]; decide)

set_option maxRecDepth 20000 in
theorem hyps_TrackerStep :
    (fun (s : State) (k : Fin 24) => (s.rd (Fld.TRK_CFG_EN k) = 1) ∧ (s.bit Fld.DOM_STATUS_ON 14 = true) ∧ (s.rd Fld.SCHED_CFG_TICK_RUN = 1) ∧ ((s.trk k).stepSeen = false) ∧ ((s.rd (Fld.TRK_STATUS_STATE k) = 3 ∨ s.rd (Fld.TRK_STATUS_STATE k) = 4)) ∧ ((scanWaits s k = false ∨ s.rd (Fld.TRK_STATUS_STATE k) = 4)) ∧ (s.fn % max 50 (s.rd (Fld.TRK_TIMING_STEP_FRAMES k)) = s.rd (Fld.TRK_TIMING_STEP_PHASE k) % max 50 (s.rd (Fld.TRK_TIMING_STEP_FRAMES k))) ∧ (let w := windowSum ((s.trk k).frames.take (min (max 1 (s.rd (Fld.TRK_WIN_AVG_FRAMES k))) (max 50 (s.rd (Fld.TRK_TIMING_STEP_FRAMES k))))); (w.n ≠ 0) ∧ (let i := wInt (intW (roundDiv w.i w.n)); (0 ≤ i + s.rdI (Fld.TRK_I_REV k))))) ({ put up [(Fld.DOM_STATUS_ON, (2 ^ (14 : Nat))), (Fld.SCHED_CFG_TICK_RUN, 1), ((Fld.TRK_CFG_EN 1), 1), ((Fld.TRK_STATUS_STATE 1), 3)] with trks := [(1, { restTracker with frames := [⟨1, 1, 5, 6, 7, 0, 0⟩] })] }) 1 := by
  first | decide | (dsimp only; done) | (dsimp only; decide) | (dsimp only [CommandReady]; decide)

set_option maxRecDepth 20000 in
theorem hyps_Islanding :
    ((fun (s : State) => (s.rd Fld.CS_ROLE_ROLE_IN_FORCE = 0 ∨ s.rd Fld.SCHED_CFG_TICK_RUN = 0)) (put up [(Fld.CS_ROLE_ROLE_IN_FORCE, 0)])) ∧
    ((fun (s : State) => (s.rd Fld.CS_ROLE_ROLE_IN_FORCE = 1) ∧ (s.rd Fld.SCHED_CFG_TICK_RUN = 1)) (put up [(Fld.CS_ROLE_ROLE_IN_FORCE, 1), (Fld.SCHED_CFG_TICK_RUN, 1)])) ∧
    ((fun (s : State) (c : AncCell) (a : Fin 2) => (s.rd Fld.ISL_CFG_EN = 1) ∧ ((if a = 0 then s.rd Fld.ISL_CFG_ANC0_EN = 1 ∧ s.rd Fld.ISL_ANC_ANC0_ID = c.ancId else s.rd Fld.ISL_CFG_ANC1_EN = 1 ∧ s.rd Fld.ISL_ANC_ANC1_ID = c.ancId ∧ s.rd Fld.ISL_CFG_ANC0_EN = 0))) (put up [(Fld.ISL_CFG_EN, 1), (Fld.ISL_CFG_ANC0_EN, 1)]) (⟨0, false, false, false, false, 0, 0, 0, 0, 0, 0⟩) 0) ∧
    ((fun (s : State) (c : AncCell) => (s.rd Fld.ISL_CFG_EN = 0 ∨ ((s.rd Fld.ISL_CFG_ANC0_EN = 0 ∨ s.rd Fld.ISL_ANC_ANC0_ID ≠ c.ancId) ∧ (s.rd Fld.ISL_CFG_ANC1_EN = 0 ∨ s.rd Fld.ISL_ANC_ANC1_ID ≠ c.ancId)))) (put up [(Fld.ISL_CFG_EN, 0)]) (⟨5, false, false, false, false, 0, 0, 0, 0, 0, 0⟩)) ∧
    ((fun (s : State) (i : Initiator) => (Reaches s i Reg.ISL_CTRL) ∧ (mayWrite s i Reg.ISL_CTRL = true)) (up) .fw) ∧
    ((fun (s : State) => (s.mainOn = true) ∧ (ticksRun s = true) ∧ (s.rd Fld.ISL_STATUS_MODE ≠ 0)) (put up [(Fld.ISL_STATUS_MODE, 1)])) := by
  refine ⟨?_, ?_, ?_, ?_, ?_, ?_⟩ <;> first | decide | (dsimp only; done) | (dsimp only; decide) | (dsimp only [CommandReady]; decide)

set_option maxRecDepth 20000 in
theorem hyps_PwmPeriod :
    ((fun (s : State) (p : Fin 72) (k : Nat) => (s.rd (Fld.PWM_CFG_EN p) = 1) ∧ (s.bit Fld.DOM_STATUS_ON 14 = true) ∧ (s.rd Fld.CLK_STATUS_CTRL_LOCK = 1) ∧ (s.rd Fld.SCHED_CFG_TICK_RUN = 1) ∧ (s.time.baseLost = false) ∧ (boundaryIndex s p = some k)) (put up [(Fld.DOM_STATUS_ON, (2 ^ (14 : Nat))), (Fld.CLK_STATUS_CTRL_LOCK, 1), (Fld.SCHED_CFG_TICK_RUN, 1), ((Fld.PWM_CFG_EN 1), 1), ((Fld.PWM_CFG_TLOCK 1), 1), ((Fld.PWM_CFG_DIVMODE 1), 1)]) 1 0) ∧
    ((fun (s : State) (p : Fin 72) => (boundaryIndex s p = none ∨ counterRuns s p = false)) (up) 1) := by
  refine ⟨?_, ?_⟩ <;> first | decide | (dsimp only; done) | (dsimp only; decide) | (dsimp only [CommandReady]; decide)

set_option maxRecDepth 20000 in
theorem hyps_PwmTripsAndCalibration :
    ((fun (s : State) (i : Initiator) (w : Fin 3) => (Reaches s i (Reg.PWM_CLR w)) ∧ (mayWrite s i (Reg.PWM_CLR w) = true)) (up) .fw 1) ∧
    ((fun (s : State) (i : Initiator) (w : Fin 3) => (Reaches s i (Reg.PWM_FORCE w)) ∧ (mayWrite s i (Reg.PWM_FORCE w) = true)) (up) .fw 1) ∧
    ((fun (s : State) => (s.rd Fld.CLK_STATUS_CTRL_LOCK = 1) ∧ (s.rd Fld.PWM_CAL_CAL_DONE = 1) ∧ (s.pwm.calSeen = false)) (put up [(Fld.CLK_STATUS_CTRL_LOCK, 1), (Fld.PWM_CAL_CAL_DONE, 1)])) ∧
    ((fun (s : State) => (s.rd Fld.CLK_STATUS_CTRL_LOCK = 0 ∨ s.rd Fld.PWM_CAL_CAL_DONE = 0 ∨ s.pwm.calSeen = true)) (put up [(Fld.CLK_STATUS_CTRL_LOCK, 0)])) ∧
    ((fun (s : State) => (s.rd Fld.CLK_STATUS_CTRL_LOCK = 1) ∧ (s.rd Fld.PWM_CAL_CAL_DONE = 0) ∧ (29 ≤ s.pwm.calFrames)) ({ put up [(Fld.CLK_STATUS_CTRL_LOCK, 1), (Fld.PWM_CAL_CAL_DONE, 0)] with pwm := { up.pwm with calFrames := 29 } })) ∧
    ((fun (s : State) => (s.rd Fld.CLK_STATUS_CTRL_LOCK = 0 ∨ s.rd Fld.PWM_CAL_CAL_DONE = 1 ∨ s.pwm.calFrames < 29)) (put up [(Fld.CLK_STATUS_CTRL_LOCK, 0)])) := by
  refine ⟨?_, ?_, ?_, ?_, ?_, ?_⟩ <;> first | decide | (dsimp only; done) | (dsimp only; decide) | (dsimp only [CommandReady]; decide)

set_option maxRecDepth 20000 in
theorem hyps_GateDrive :
    ((fun (s : State) (p : Fin 72) => (watched s p = true) ∧ (s.rd (Fld.GDL_CFG_STAT_EN p) = 1) ∧ (s.rd Fld.CLK_STATUS_CTRL_LOCK = 1)) (put up [((Fld.GDL_CFG_STAT_EN 1), 1), (Fld.CLK_STATUS_CTRL_LOCK, 1)]) 1) ∧
    ((fun (s : State) (p : Fin 72) (ns : Nat) => (watched s p = true) ∧ (s.rd (Fld.GDL_CFG_STAT_EN p) = 1) ∧ (s.rd Fld.CLK_STATUS_CTRL_LOCK = 1) ∧ (s.rd (Fld.GDL_STATUS_LINK_UP p) = 1) ∧ (1000 * max 5 (s.rd (Fld.GDL_CFG_STAT_TO p)) ≤ ns)) (put up [((Fld.GDL_CFG_STAT_EN 1), 1), (Fld.CLK_STATUS_CTRL_LOCK, 1), ((Fld.GDL_STATUS_LINK_UP 1), 1)]) 1 5000) ∧
    ((fun (s : State) (p : Fin 72) (ns : Nat) => (watched s p = false ∨ s.rd (Fld.GDL_CFG_STAT_EN p) = 0 ∨ s.rd Fld.CLK_STATUS_CTRL_LOCK = 0 ∨ s.rd (Fld.GDL_STATUS_LINK_UP p) = 0 ∨ ns < 1000 * max 5 (s.rd (Fld.GDL_CFG_STAT_TO p)))) (up) 1 1) ∧
    ((fun (s : State) (p : Fin 72) => (watched s p = false ∨ s.rd (Fld.GDL_CFG_STAT_EN p) = 0 ∨ s.rd Fld.CLK_STATUS_CTRL_LOCK = 0)) (up) 1) := by
  refine ⟨?_, ?_, ?_, ?_⟩ <;> first | decide | (dsimp only; done) | (dsimp only; decide) | (dsimp only [CommandReady]; decide)

set_option maxRecDepth 20000 in
theorem hyps_Lockstep :
    ((fun (s : State) => (s.rd Fld.CLK_STATUS_CTRL_LOCK = 1)) (put up [(Fld.CLK_STATUS_CTRL_LOCK, 1)])) ∧
    ((fun (s : State) => (s.rd Fld.CLK_STATUS_CTRL_LOCK = 0)) (put up [(Fld.CLK_STATUS_CTRL_LOCK, 0)])) ∧
    ((fun (s : State) (v : Word) (rest : List (Nat × Word)) => (s.ls.changes = (Reg.SOUT_STATE, v) :: rest) ∧ (s.ls.coreHeld = false) ∧ (s.ls.coreHalted = false) ∧ (s.rd Fld.CLK_STATUS_CTRL_LOCK = 1)) ({ put up [(Fld.CLK_STATUS_CTRL_LOCK, 1)] with ls := { up.ls with changes := [(Reg.SOUT_STATE, 1#32)], coreHeld := false } }) (1#32) ([])) ∧
    ((fun (s : State) (a : Nat) (v : Word) (rest : List (Nat × Word)) => (s.ls.changes = (a, v) :: rest) ∧ (a ≠ Reg.SOUT_STATE) ∧ (s.ls.coreHeld = false) ∧ (s.ls.coreHalted = false) ∧ (s.rd Fld.CLK_STATUS_CTRL_LOCK = 1) ∧ (s.rd Fld.LS_STATUS_CORE_STATE ≠ 3)) ({ put up [(Fld.CLK_STATUS_CTRL_LOCK, 1)] with ls := { up.ls with changes := [(1, 1#32)], coreHeld := false } }) 1 (1#32) ([])) ∧
    ((fun (s : State) => (s.ls.changes = [] ∨ s.ls.coreHeld = true ∨ s.ls.coreHalted = true ∨ s.rd Fld.CLK_STATUS_CTRL_LOCK = 0)) (up)) ∧
    ((fun (s : State) (k : Fin 64) => (accessFault s Reg.LS_TEST = none) ∧ (s.rd (Fld.CE_SESS_ROLE k) = 2) ∧ (s.rd (Fld.CE_SESS_PW_OK k) = 1) ∧ (s.clog.queue.length < 64)) (put up [((Fld.CE_SESS_ROLE 1), 2), ((Fld.CE_SESS_PW_OK 1), 1)]) 1) ∧
    ((fun (s : State) => (accessFault s Reg.LS_TEST = none)) (up)) ∧
    ((fun (s : State) (i : Initiator) => (Reaches s i Reg.LS_TEST) ∧ ((i = .fw ∨ (i ≠ .core ∧ (s.roleOf i ≠ 2 ∨ pwOk s i = false))))) (up) .fw) ∧
    ((fun (s : State) => (s.rd Fld.LS_TEST_BUSY = 0)) (put up [(Fld.LS_TEST_BUSY, 0)])) ∧
    ((fun (s : State) => (opsWith s 0x51 = []) ∧ (s.rd Fld.LS_TEST_BUSY = 1)) (put up [(Fld.LS_TEST_BUSY, 1)])) ∧
    ((fun (s : State) (i : Initiator) (k : Fin 4) => (Reaches s i (sigLo k))) (up) .fw 1) := by
  refine ⟨?_, ?_, ?_, ?_, ?_, ?_, ?_, ?_, ?_, ?_, ?_⟩ <;> first | decide | (dsimp only; done) | (dsimp only; decide) | (dsimp only [CommandReady]; decide)

set_option maxRecDepth 20000 in
theorem hyps_MeterSamplesAndPulses :
    ((fun (s : State) (m : Fin 9) => (meterRuns s = true) ∧ (s.rd Fld.SCHED_CFG_TICK_RUN = 1) ∧ (s.rd (Fld.MTR_CFG_EN m) = 1) ∧ ((s.chan m).done = false)) (put up [(Fld.SCHED_CFG_TICK_RUN, 1), ((Fld.MTR_CFG_EN 1), 1)]) 1) ∧
    ((fun (s : State) (m : Fin 9) => (meterRuns s = false ∨ s.rd Fld.SCHED_CFG_TICK_RUN = 0 ∨ s.rd (Fld.MTR_CFG_EN m) = 0 ∨ (s.chan m).done = true)) (up) 1) ∧
    ((fun (s : State) => (meterRuns s = true) ∧ (s.fn % 5 = 0) ∧ (bankBad s 5 = false)) (put up [(Fld.IO_BANK_STATUS_PRESENT, 0xFF)])) ∧
    ((fun (s : State) => (meterRuns s = true) ∧ (s.fn % 5 = 0) ∧ (bankBad s 5 = true)) (up)) ∧
    ((fun (s : State) (j : Fin 8) => (meterRuns s = true) ∧ (poutOn s j = true) ∧ ((s.pout j).phase = none) ∧ (s.rd (Fld.POUT_ST_PENDING j) ≠ 0) ∧ (s.rd Fld.SCHED_CFG_TICK_RUN = 1)) (put up [((Fld.POUT_ST_PENDING 1), 1), (Fld.SCHED_CFG_TICK_RUN, 1), ((Fld.POUT_CFG_EN 1), 1), ((Fld.MTR_ACC_CFG_EN_0 0), 1)]) 1) ∧
    ((fun (s : State) (j : Fin 8) (high : Bool) => ((s.pout j).phase = some (high, 0))) ({ up with meter := { up.meter with outs := [(1, ⟨0, some (true, 0)⟩)] } }) 1 true) := by
  refine ⟨?_, ?_, ?_, ?_, ?_, ?_⟩ <;> first | decide | (dsimp only; done) | (dsimp only; decide) | (dsimp only [CommandReady]; decide)

set_option maxRecDepth 20000 in
theorem hyps_MeterRecordsAndCommands :
    ((fun (s : State) (extra : Nat) (next : Nat) => (meterRuns s = true) ∧ (s.meter.due = some (extra, next)) ∧ (s.rd Fld.MTR_CMD_CMD = 0)) ({ put up [(Fld.MTR_CMD_CMD, 0)] with meter := { up.meter with due := some (0, 1) } }) 0 1) ∧
    ((fun (s : State) => (meterRuns s = false ∨ s.meter.due = none)) (up)) ∧
    ((fun (s : State) (i : Initiator) => (Reaches s i Reg.MTR_INT_CFG) ∧ (sessionOf [3] s i = true) ∧ (s.clog.queue.length < 64)) (put up [((Fld.CE_SESS_ROLE 1), 3), ((Fld.CE_SESS_VALID 1), 1)]) (.session 1)) ∧
    ((fun (s : State) (i : Initiator) => (Reaches s i Reg.MTR_CMD) ∧ (sessionOf [3] s i = true) ∧ (s.clog.queue.length < 64)) (put up [((Fld.CE_SESS_ROLE 1), 3), ((Fld.CE_SESS_VALID 1), 1)]) (.session 1)) ∧
    ((fun (s : State) (extra : Nat) (next : Nat) => (meterRuns s = true) ∧ (s.meter.due = some (extra, next)) ∧ (s.rd Fld.MTR_CMD_CMD = 1 ∨ s.rd Fld.MTR_CMD_CMD = 2) ∧ (s.clog.queue.length < 64)) ({ put up [(Fld.MTR_CMD_CMD, 1)] with meter := { up.meter with due := some (0, 1) } }) 0 1) ∧
    ((fun (s : State) (i : Initiator) (k : Fin 2048) => (isMeterLo (0x200000 + 4 * k) = true) ∧ (Reaches s i (0x200000 + 4 * k))) (up) .fw ((Fin.ofNat 2048 ((Reg.MTR_ACC_LO 0 0 - 0x200000) / 4)))) := by
  refine ⟨?_, ?_, ?_, ?_, ?_, ?_⟩ <;> first | decide | (dsimp only; done) | (dsimp only; decide) | (dsimp only [CommandReady]; decide)

set_option maxRecDepth 20000 in
theorem hyps_SafetyIo :
    ((fun (s : State) (n : Fin 32) => let q := Tab.get restIn s.safe.inputs n; (s.rd (Fld.SIN_CFG_EN n) = 1) ∧ (q.discFault = false) ∧ (1 ≤ q.disc) ∧ (s.rd (Fld.SIN_CFG_DISC_T n) * 50 + 1 ≤ q.disc)) ({ put up [((Fld.SIN_CFG_EN 1), 1)] with safe := { up.safe with inputs := [(1, { restIn with disc := 100000 })] } }) 1) ∧
    ((fun (s : State) (k : Fin 8) => (s.safe.loaded = true) ∧ (s.rd Fld.CLK_STATUS_CTRL_LOCK = 1) ∧ (s.fn % max 8 (s.rd Fld.SAFE_CFG_TP_PERIOD) = k)) ({ put up [(Fld.CLK_STATUS_CTRL_LOCK, 1)] with safe := { up.safe with loaded := true } }) 0) ∧
    ((fun (s : State) => (3 ≤ s.safe.sinceWrite) ∧ ((s.bit Fld.SAFE_CAUSE_LATCHED 10 = false ∨ s.rd Fld.SAFE_STATUS_SEQ_RUN = 1))) ({ up with safe := { up.safe with sinceWrite := 3 } })) ∧
    ((fun (s : State) (n : Fin 16) => (s.rd (Fld.SOUT_CFG_EN n) = 1) ∧ (s.bit Fld.SOUT_FAULT_RB_FAIL n = false) ∧ (max 1 (s.rd (Fld.SOUT_CFG_RB_T n)) * 100 < (Tab.get 0 s.safe.rbBad n - 1) * 20)) ({ put up [((Fld.SOUT_CFG_EN 1), 1)] with safe := { up.safe with rbBad := [(1, 1000000)] } }) 1) ∧
    ((fun (s : State) (n : Fin 16) => (offPulseDue s n = true)) ({ put up [((Fld.SOUT_CFG_EN 0), 1), ((Fld.SOUT_CFG_OP_EN 0), 1), (Fld.SOUT_STATE_ON, 1)] with safe := { up.safe with loaded := true } }) 0) ∧
    ((fun (s : State) (k : Fin 64) (v : Word) => (accessFault s Reg.SAFE_CTRL = none) ∧ (s.rd (Fld.CE_SESS_ROLE k) = 2) ∧ (s.rd (Fld.CE_SESS_PW_OK k) = 1) ∧ (s.clog.queue.length < 64) ∧ (v.getLsbD 31 = true)) (put up [((Fld.CE_SESS_ROLE 1), 2), ((Fld.CE_SESS_PW_OK 1), 1)]) 1 (0x80000000#32)) ∧
    ((fun (s : State) => (s.safe.ackFall = true) ∧ (s.ls.coreHeld = false) ∧ (s.ls.coreHalted = false)) ({ up with safe := { up.safe with ackFall := true }, ls := { up.ls with coreHeld := false } })) ∧
    ((fun (s : State) => (s.safe.ackFall = false ∨ s.ls.coreHeld = true ∨ s.ls.coreHalted = true)) (up)) := by
  refine ⟨?_, ?_, ?_, ?_, ?_, ?_, ?_, ?_⟩ <;> first | decide | (dsimp only; done) | (dsimp only; decide) | (dsimp only [CommandReady]; decide)

set_option maxRecDepth 20000 in
theorem hyps_LanesAndDrowse :
    ((fun (s : State) (g : Fin 4) => (groupState s g = 3 ∨ groupState s g = 5 ∨ groupState s g = 7) ∧ (portUp s (groupPort g) = false)) (put up [((Fld.RG_GROUP_STATUS_STATE 1), 3), ((Fld.RG_GROUP_STATUS_NBR_VALID 1), 1)]) 1) ∧
    ((fun (s : State) (g : Fin 4) => ((groupState s g ≠ 3 ∧ groupState s g ≠ 5 ∧ groupState s g ≠ 7) ∨ portUp s (groupPort g) = true)) (up) 1) ∧
    ((fun (s : State) (g : Fin 4) => (drowseOk s g = true) ∧ (50000 * s.rd Fld.RG_DROWSE_CFG_DROWSE_WIN ≤ (s.grp g).quiet) ∧ (lowerEnd s g = true) ∧ ((s.grp g).proposal = none)) ({ put up [((Fld.RG_GROUP_STATUS_STATE 0), 3), ((Fld.RG_GROUP_STATUS_STATE 1), 3), ((Fld.RG_GROUP_STATUS_STATE 2), 3), ((Fld.RG_GROUP_STATUS_STATE 3), 3), ((Fld.RG_GROUP_STATUS_NBR_VALID 0), 1), ((Fld.RG_GROUP_STATUS_NBR_VALID 1), 1), ((Fld.RG_GROUP_STATUS_NBR_VALID 2), 1), ((Fld.RG_GROUP_STATUS_NBR_VALID 3), 1), (Fld.RG_RING_CFG_DROWSE_EN, 1), ((Fld.RG_GROUP_STATUS_NBR_NODE 1), 5)] with ring := { up.ring with groups := [(1, { restGrp with quiet := 1000000000 })] } }) 1) ∧
    ((fun (s : State) (g : Fin 4) => (groupState s g = 3)) (put up [((Fld.RG_GROUP_STATUS_STATE 0), 3), ((Fld.RG_GROUP_STATUS_STATE 1), 3), ((Fld.RG_GROUP_STATUS_STATE 2), 3), ((Fld.RG_GROUP_STATUS_STATE 3), 3), ((Fld.RG_GROUP_STATUS_NBR_VALID 0), 1), ((Fld.RG_GROUP_STATUS_NBR_VALID 1), 1), ((Fld.RG_GROUP_STATUS_NBR_VALID 2), 1), ((Fld.RG_GROUP_STATUS_NBR_VALID 3), 1), (Fld.RG_RING_CFG_DROWSE_EN, 1)]) 1) ∧
    ((fun (s : State) (g : Fin 4) (loadOk : Bool) => (groupState s g = 3 ∨ 5 ≤ groupState s g) ∧ (drowseOk s g = false ∨ (s.grp g).quiet < 50000 * s.rd Fld.RG_DROWSE_CFG_DROWSE_WIN ∨ loadOk = false ∨ lowerEnd s g = true)) (put up [((Fld.RG_GROUP_STATUS_STATE 1), 3), ((Fld.RG_GROUP_STATUS_NBR_VALID 1), 1)]) 1 true) ∧
    ((fun (s : State) (g : Fin 4) (q : Nat) => (groupState s g = 5) ∧ ((s.grp g).quiesce = some q) ∧ (fnReached q s.fn = true)) ({ put up [((Fld.RG_GROUP_STATUS_STATE 1), 5)] with ring := { up.ring with groups := [(1, { restGrp with quiesce := some 0 })] } }) 1 0) ∧
    ((fun (s : State) (g : Fin 4) => (groupState s g = 7) ∧ (s.rd (Fld.RG_LANE_STATUS_STATE (16 * g)) = 2)) (put up [((Fld.RG_LANE_STATUS_STATE (16 * 1)), 2), ((Fld.RG_GROUP_STATUS_STATE 1), 7)]) 1) := by
  refine ⟨?_, ?_, ?_, ?_, ?_, ?_, ?_⟩ <;> first | decide | (dsimp only; done) | (dsimp only; decide) | (dsimp only [CommandReady]; decide)

set_option maxRecDepth 20000 in
theorem hyps_RingBreaksAndInsertion :
    ((fun (s : State) (i : Initiator) => (Reaches s i Reg.RG_RING_CTRL) ∧ (mayWrite s i Reg.RG_RING_CTRL = true)) (up) .fw) ∧
    ((fun (s : State) => (s.mainOn = true) ∧ (s.ring.forwarding = true) ∧ (s.ring.arrived = [])) ({ up with ring := { up.ring with forwarding := true } })) ∧
    ((fun (s : State) => (s.ring.reset = none)) (up)) ∧
    ((fun (s : State) (r : Fin 2) => (s.rd (insField r) = 0) ∧ ((s.ins r).backoff = 0) ∧ (ringUsed s r = true) ∧ (s.rd Fld.SCHED_CFG_TICK_RUN = 1) ∧ (s.bit Fld.DOM_STATUS_ON (5 + 2 * r) = true) ∧ (s.bit Fld.DOM_STATUS_ON (6 + 2 * r) = true) ∧ (s.ring.forwarding = true) ∧ (s.rd Fld.PWR_STATE_STATE ≤ 2)) ({ put up [((insField 1), 0), (Fld.SCHED_CFG_TICK_RUN, 1), (Fld.PWR_STATE_STATE, 0), (Fld.RG_RING_CFG_RING_A_EN, 1), (Fld.RG_RING_CFG_RING_B_EN, 1), (Fld.DOM_STATUS_ON, 0xFFFF)] with ring := { up.ring with forwarding := true } }) 1) ∧
    ((fun (s : State) (r : Fin 2) (corr : Nat) (uncorr : Nat) => (s.rd (insField r) = 1) ∧ ((s.ins r).passed = true ∨ s.rdB (loopFitField r) = false ∨ (1000 ≤ (s.ins r).up ∧ corr < 1024 ∧ uncorr = 0))) (put up [((insField 1), 1)]) 1 1 1) ∧
    ((fun (s : State) (r : Fin 2) (corr : Nat) (uncorr : Nat) => (s.rd (insField r) = 1) ∧ (s.rdB (loopFitField r) = true) ∧ (1024 ≤ corr ∨ 0 < uncorr ∨ ((ringGroups r).all (fun g => portUp s (groupPort g)) = false ∧ (10000 ≤ (s.ins r).since ∨ (s.ins r).passed = true)))) (put up [((insField 1), 1), ((loopFitField 1), 1)]) 1 1 1) ∧
    ((fun (s : State) (r : Fin 2) => (s.rd (insField r) = 2) ∧ (s.rdB (holdField r) = true) ∧ (500 ≤ (s.ins r).since)) ({ put up [((insField 1), 2), ((holdField 1), 1)] with ring := { up.ring with forwarding := true, ins := [(1, { restIns with since := 500 })] } }) 1) ∧
    ((fun (s : State) (r : Fin 2) => (s.rd (insField r) = 3) ∧ (groupValid s (2 * r) = true ∨ groupValid s (2 * r + 1) = true) ∧ ((groupValid s (2 * r) = true ∧ groupValid s (2 * r + 1) = true) ∨ 25000 ≤ (s.ins r).since)) (put up [((insField 1), 3), ((Fld.RG_GROUP_STATUS_STATE 2), 3), ((Fld.RG_GROUP_STATUS_STATE 3), 3), ((Fld.RG_GROUP_STATUS_NBR_VALID 2), 1), ((Fld.RG_GROUP_STATUS_NBR_VALID 3), 1)]) 1) ∧
    ((fun (s : State) (r : Fin 2) => (s.rd (insField r) = 6) ∧ ((s.ins r).backoff = 0)) (put up [((insField 1), 6)]) 1) ∧
    ((fun (s : State) (r : Fin 2) (n : Nat) => (s.rd (insField r) = 1) ∧ ((s.ins r).passed = true) ∧ ((s.ins r).planAt = some n) ∧ (fnReached n s.fn = true)) ({ put up [((insField 1), 1)] with ring := { up.ring with forwarding := true, ins := [(1, { restIns with passed := true, planAt := some 0 })] } }) 1 0) := by
  refine ⟨?_, ?_, ?_, ?_, ?_, ?_, ?_, ?_, ?_, ?_⟩ <;> first | decide | (dsimp only; done) | (dsimp only; decide) | (dsimp only [CommandReady]; decide)

set_option maxRecDepth 20000 in
theorem hyps_ForwardingTable :
    ((fun (s : State) (i : Initiator) => (Reaches s i Reg.PQ_FDB_CTRL) ∧ (mayWrite s i Reg.PQ_FDB_CTRL = true) ∧ (s.plots.armedAt = none) ∧ (s.rd Fld.PQ_FDB_STATUS_COPY_BUSY = 0)) (put up [(Fld.PQ_FDB_STATUS_COPY_BUSY, 0)]) .fw) ∧
    ((fun (s : State) (i : Initiator) => (Reaches s i Reg.PQ_FDB_CTRL) ∧ (mayWrite s i Reg.PQ_FDB_CTRL = true)) (up) .fw) ∧
    ((fun (s : State) (i : Initiator) => (Reaches s i Reg.PQ_FDB_CTRL) ∧ (mayWrite s i Reg.PQ_FDB_CTRL = true) ∧ (s.plots.armedAt = none) ∧ (s.rd Fld.PQ_FDB_STATUS_COPY_BUSY = 0)) (put up [(Fld.PQ_FDB_STATUS_COPY_BUSY, 0)]) .fw) ∧
    ((fun (s : State) (i : Initiator) => (Reaches s i Reg.PQ_FDB_CTRL) ∧ (mayWrite s i Reg.PQ_FDB_CTRL = true) ∧ (s.plots.armedAt ≠ none ∨ s.rd Fld.PQ_FDB_STATUS_COPY_BUSY = 1)) (put up [(Fld.PQ_FDB_STATUS_COPY_BUSY, 1)]) .fw) ∧
    ((fun (s : State) (i : Initiator) => (Reaches s i Reg.PQ_FDB_CTRL) ∧ (mayWrite s i Reg.PQ_FDB_CTRL = true)) (up) .fw) ∧
    ((fun (s : State) (i : Initiator) => (Reaches s i Reg.PQ_FDB_CTRL) ∧ (mayWrite s i Reg.PQ_FDB_CTRL = true)) (up) .fw) ∧
    ((fun (s : State) (i : Initiator) => (Reaches s i Reg.PQ_FDB_CTRL) ∧ (mayWrite s i Reg.PQ_FDB_CTRL = true) ∧ (s.plots.armedAt = none) ∧ (s.rd Fld.PQ_FDB_STATUS_COPY_BUSY = 0)) (put up [(Fld.PQ_FDB_STATUS_COPY_BUSY, 0)]) .fw) ∧
    ((fun (s : State) => (s.rd Fld.PQ_FDB_STATUS_COPY_BUSY = 1)) (put up [(Fld.PQ_FDB_STATUS_COPY_BUSY, 1)])) ∧
    ((fun (s : State) => (s.plots.armedAt = some s.fn) ∧ (activatesNow s = false)) ({ up with plots := { up.plots with armedAt := some 0 } })) := by
  refine ⟨?_, ?_, ?_, ?_, ?_, ?_, ?_, ?_, ?_⟩ <;> first | decide | (dsimp only; done) | (dsimp only; decide) | (dsimp only [CommandReady]; decide)

set_option maxRecDepth 20000 in
theorem hyps_PlotFrames :
    ((fun (s : State) (l : Fin 128) (tag : Option (BitVec 3)) (da : BitVec 48) (sa : BitVec 48) (len : Nat) (e : FdbEntry) => (s.ring.forwarding = true) ∧ (portUp s l = true) ∧ (s.rd (Fld.RG_PORT_CFG_RING l) = 0) ∧ (s.rd (Fld.PQ_PORT_MAP_ROLE l) = 1) ∧ (s.rd (Fld.PQ_PORT_MAP_SHUT l) = 0) ∧ (64 ≤ len) ∧ (len ≤ 9174) ∧ (len ≤ s.rd (Fld.RG_PORT_CFG_MTU l)) ∧ (let p := s.rd (Fld.PQ_PORT_MAP_PLOT l); let f : Frame := { plot := some p, cls := classOf s l (tag.map BitVec.toNat), yellow := false, da := da.toNat, sa := sa.toNat, len := len }; (s.rd (Fld.PQ_PLOT_CFG_EN p) = 1) ∧ (s.rd (Fld.PQ_PLOT_STATUS_QUENCHED p) = 0) ∧ (s.rd (Fld.PQ_PLOT_STATUS_THROTTLED p) = 0) ∧ (s.rd (Fld.PQ_PLOT_CFG_LEARN p) = 0) ∧ (polRate s p f.cls = (0, 0)) ∧ (groupMac da.toNat = false) ∧ (fdbGet s (actBank s) (fdbKey p da.toNat) = some e) ∧ (e.type = 0) ∧ ((plotPorts s p).contains e.port = true) ∧ (poolAdmits s f = true))) ({ put up [((Fld.PQ_PORT_MAP_ROLE 4), 1), ((Fld.PQ_PLOT_CFG_EN 0), 1), ((Fld.RG_LANE_STATUS_STATE 4), 4), ((Fld.RG_PORT_CFG_MTU 4), 9000), ((Fld.PQ_PLOT_BUF_BUF_MIN 0), 100), ((Fld.PQ_PLOT_BUF_BUF_MAX 0), 100), ((Fld.PQ_PLOT_LIM_DESC_MIN 0), 100), ((Fld.PQ_PLOT_LIM_DESC_MAX 0), 100), ((Fld.RG_PORT_CFG_EN 4), 1), ((Fld.RG_PORT_STATUS_UP 4), 1)] with ring := { up.ring with forwarding := true }, plots := { up.plots with bank0 := [(2, some ⟨true, 0, 0, 4, 0⟩)] } }) 4 none (2#48) (1#48) 64 (⟨true, 0, 0, 4, 0⟩)) ∧
    ((fun (s : State) (l : Fin 128) (len : Nat) => let on := s.ring.forwarding && portUp s l && decide (s.rd (Fld.RG_PORT_CFG_RING l) = 0); let role := s.rd (Fld.PQ_PORT_MAP_ROLE l); (on = false ∨ role = 0 ∨ role = 3 ∨ s.rd (Fld.PQ_PORT_MAP_SHUT l) = 1 ∨ len < 64 ∨ 9174 < len ∨ s.rd (Fld.RG_PORT_CFG_MTU l) < len)) (up) 1 1) ∧
    ((fun (s : State) (g : Fin 4) (vid : BitVec 12) (pcp : BitVec 3) (dei : Bool) (dst : BitVec 10) (hops : BitVec 10) (secOk : Bool) (da : BitVec 48) (sa : BitVec 48) (len : Nat) => (s.ring.forwarding = true) ∧ (groupState s g = 3) ∧ (64 ≤ len) ∧ (len ≤ 9174) ∧ (secOk = true) ∧ (0x100 ≤ vid.toNat) ∧ (vid.toNat < 0x140) ∧ (let p := vid.toNat - 0x100; let out := 16 * (2 * (g.val / 2) + (1 - g.val % 2)); let f : Frame := { plot := some p, cls := min 5 pcp.toNat, yellow := dei, da := da.toNat, sa := sa.toNat, len := len }; (s.rd (Fld.PQ_PLOT_CFG_EN p) = 1) ∧ (s.rd (Fld.PQ_PLOT_STATUS_QUENCHED p) = 0) ∧ (dst.toNat ≠ nodeNo s) ∧ (dst.toNat ≠ 0x3FF) ∧ (1 < hops.toNat) ∧ (groupState s (out / 16) = 3) ∧ (poolAdmits s f = true))) ({ put up [((Fld.RG_GROUP_STATUS_STATE 0), 3), ((Fld.RG_GROUP_STATUS_STATE 1), 3), ((Fld.RG_GROUP_STATUS_NBR_VALID 0), 1), ((Fld.RG_GROUP_STATUS_NBR_VALID 1), 1), ((Fld.PQ_PLOT_CFG_EN 0), 1), ((Fld.PQ_PLOT_BUF_BUF_MIN 0), 100), ((Fld.PQ_PLOT_BUF_BUF_MAX 0), 100), ((Fld.PQ_PLOT_LIM_DESC_MIN 0), 100), ((Fld.PQ_PLOT_LIM_DESC_MAX 0), 100)] with ring := { up.ring with forwarding := true } }) 1 (0x100#12) (1#3) false (5#10) (2#10) true (1#48) (1#48) 64) ∧
    ((fun (s : State) (g : Fin 4) (vid : BitVec 12) (dst : BitVec 10) (secOk : Bool) (len : Nat) => (s.ring.forwarding = true) ∧ (groupState s g = 3) ∧ (len ≤ 9174) ∧ (let mine := decide (vid.toNat = 0xFF) && secOk && decide (dst.toNat = nodeNo s) && decide (22 ≤ len); (mine = true ∨ len < 22 ∨ (vid.toNat ≠ 0xFF ∧ (vid.toNat < 0x100 ∨ 0x140 ≤ vid.toNat))))) ({ put up [((Fld.RG_GROUP_STATUS_STATE 1), 3), ((Fld.RG_GROUP_STATUS_NBR_VALID 1), 1)] with ring := { up.ring with forwarding := true } }) 1 (1#12) (1#10) true 21) ∧
    ((fun (s : State) (i : Initiator) (p : Fin 64) (c : Fin 6) (burst : Bool) => let a := if burst then Reg.PQ_POL_BURST p c else Reg.PQ_POL_RATE p c; (Reaches s i a) ∧ (mayWrite s i a = true) ∧ (sessionOf [1] s i = true)) (put up [((Fld.CE_SESS_ROLE 1), 1), ((Fld.CE_SESS_VALID 1), 1)]) (.session 1) 1 1 true) ∧
    ((fun (s : State) (g : Fin 4) => ((sessionsValid s).all (fun k => s.rd (Fld.CE_SESS_TRANSPORT k) != 1 || (s.sess k).port != groupPort g) = true)) (up) 1) ∧
    ((fun (s : State) => (s.mainOn = true)) (up)) ∧
    ((fun (s : State) (k : Fin 5) (x : Fin 64) (r : BitVec 16) => (s.ring.forwarding = true) ∧ (s.ctl.plotDue = [⟨0x70 + k.val, x.val, r.toNat⟩])) ({ up with ring := { up.ring with forwarding := true }, ctl := { up.ctl with plotDue := [⟨0x71, 1, 1⟩] } }) 1 1 (1#16)) := by
  refine ⟨?_, ?_, ?_, ?_, ?_, ?_, ?_, ?_⟩ <;> first | decide | (dsimp only; done) | (dsimp only; decide) | (dsimp only [CommandReady]; decide)

set_option maxRecDepth 20000 in
theorem hyps_ControlCells :
    ((fun (s : State) (g : Fin 4) (c : Cell) (valid : Bool) => (knownType c.body = true) ∧ (let on := s.ring.forwarding && (decide (groupState s g = 3) || decide (5 ≤ groupState s g ∧ groupState s g ≤ 7)); let n := (s.cq g).rx; (on = false ∨ 320 ≤ n ∨ valid = false ∨ c.origin = nodeNo s ∨ replayed s c = true))) ({ put up [((Fld.RG_GROUP_STATUS_STATE 1), 3), ((Fld.RG_GROUP_STATUS_NBR_VALID 1), 1)] with ring := { up.ring with forwarding := true } }) 1 (⟨.wake 1, 5, 1, 1, false, false, 0, 1, 3⟩) false) ∧
    ((fun (s : State) (g : Fin 4) (c : Cell) => (knownType c.body = true) ∧ (s.ring.forwarding = true) ∧ (groupState s g = 3) ∧ ((s.cq g).rx < 320) ∧ (c.origin ≠ nodeNo s) ∧ (replayed s c = false) ∧ (c.reach = 1) ∧ (c.dest ≠ nodeNo s)) ({ put up [((Fld.RG_GROUP_STATUS_STATE 1), 3), ((Fld.RG_GROUP_STATUS_NBR_VALID 1), 1)] with ring := { up.ring with forwarding := true } }) 1 (⟨.wake 1, 5, 1, 1, false, false, 0, 1, 3⟩)) ∧
    ((fun (s : State) (g : Fin 4) (cell : Cell) (ring : Nat) (span : Nat) (seq : Nat) (planned : Bool) (drowse : Bool) => (s.ring.forwarding = true) ∧ (groupState s g = 3) ∧ ((s.cq g).rx < 320) ∧ (cell.origin ≠ nodeNo s) ∧ (let c := { cell with body := .ringBreak ring span planned drowse seq, reach := 2 }; (replayed s c = false))) ({ put up [((Fld.RG_GROUP_STATUS_STATE 1), 3), ((Fld.RG_GROUP_STATUS_NBR_VALID 1), 1)] with ring := { up.ring with forwarding := true, floods := [(5, 7, 0)] } }) 1 (⟨.wake 1, 5, 2, 1, false, false, 0, 1, 3⟩) 0 3 7 true true) := by
  refine ⟨?_, ?_, ?_⟩ <;> first | decide | (dsimp only; done) | (dsimp only; decide) | (dsimp only [CommandReady]; decide)

set_option maxRecDepth 20000 in
theorem hyps_SessionsAndRegisters :
    ((fun (s : State) (h : Hdr) (role : BitVec 8) (plot : BitVec 8) => (h.session = 0xFF#8) ∧ (serves h s = true) ∧ (openVerdict h role.toNat plot.toNat s = .ok)) ({ put up [(Fld.CE_STATUS_FRONT_ONLY, 0)] with eng := { up.eng with creds := [(64, some 7#256)] } }) (⟨0, 0, 0xFF#8, 4#12, 0#32, 18⟩) (1#8) (0#8)) ∧
    ((fun (s : State) (h : Hdr) (role : BitVec 8) (plot : BitVec 8) => (h.session = 0xFF#8) ∧ (serves h s = true) ∧ (openVerdict h role.toNat plot.toNat s ≠ .ok)) (put up [(Fld.CE_STATUS_FRONT_ONLY, 0)]) (⟨0, 0, 0xFF#8, 4#12, 0#32, 18⟩) (2#8) (0#8)) ∧
    ((fun (s : State) (h : Hdr) => (serves h s = true) ∧ (h.session.toNat < 64) ∧ (s.rd (Fld.CE_SESS_VALID h.session.toNat) = 1) ∧ (s.rd (Fld.CE_SESS_HALF_OPEN h.session.toNat) = 1) ∧ (h.seq = 1#32) ∧ (h.argLen = 0) ∧ (tagInFlight s h.tag.toNat = false) ∧ (stateNamed true s = true) ∧ (bucketEmpty s h.session.toNat = false) ∧ (tagsFull s = false)) (put up [((Fld.CE_SESS_VALID (hdr 0 : Hdr).session.toNat), 1), ((Fld.CE_SESS_HALF_OPEN (hdr 0 : Hdr).session.toNat), 1), (Fld.CE_STATUS_FRONT_ONLY, 0), ((Fld.CE_SESS_VALID 2), 1), ((Fld.CE_SESS_HALF_OPEN 2), 1), ((Fld.CE_SESS_ROLE 2), 1), ((Fld.CE_SESS_PW_OK 2), 0)]) (hdr 0)) ∧
    ((fun (s : State) (h : Hdr) => (CommandReady h true s) ∧ (h.argLen = 0)) (put up [(Fld.CE_STATUS_FRONT_ONLY, 0), ((Fld.CE_SESS_VALID 2), 1), ((Fld.CE_SESS_HALF_OPEN 2), 0), ((Fld.CE_SESS_ROLE 2), 1), ((Fld.CE_SESS_PW_OK 2), 0)]) (hdr 0)) ∧
    ((fun (s : State) (h : Hdr) => (CommandReady h true s) ∧ (h.argLen = 0)) (put up [(Fld.CE_STATUS_FRONT_ONLY, 0), ((Fld.CE_SESS_VALID 2), 1), ((Fld.CE_SESS_HALF_OPEN 2), 0), ((Fld.CE_SESS_ROLE 2), 1), ((Fld.CE_SESS_PW_OK 2), 0)]) (hdr 0)) ∧
    ((fun (s : State) (h : Hdr) => (CommandReady h false s) ∧ (sessRole s h.session.toNat = 2) ∧ (h.argLen = 32) ∧ (s.safe.pwBlocked = false)) (put up [(Fld.CE_STATUS_FRONT_ONLY, 0), ((Fld.CE_SESS_VALID 2), 1), ((Fld.CE_SESS_HALF_OPEN 2), 0), ((Fld.CE_SESS_ROLE 2), 2), ((Fld.CE_SESS_PW_OK 2), 0)]) (hdr 32)) ∧
    ((fun (s : State) (h : Hdr) (a : Word) (count : BitVec 16) => (CommandReady h true s) ∧ (h.argLen = 6) ∧ (1 ≤ sessRole s h.session.toNat) ∧ (sessRole s h.session.toNat ≤ 3) ∧ (1 ≤ count.toNat) ∧ (count.toNat ≤ 64) ∧ (a.toNat % 4 = 0) ∧ (a.toNat + 4 * count.toNat ≤ 0x10000) ∧ ((wordAddrs a.toNat count.toNat).all decoded = true)) (put up [(Fld.CE_STATUS_FRONT_ONLY, 0), ((Fld.CE_SESS_VALID 2), 1), ((Fld.CE_SESS_HALF_OPEN 2), 0), ((Fld.CE_SESS_ROLE 2), 1), ((Fld.CE_SESS_PW_OK 2), 0)]) (hdr 6) (0#32) (1#16)) ∧
    ((fun (s : State) (h : Hdr) (a : Word) (d : RegDesc) => (CommandReady h false s) ∧ (h.argLen = 10) ∧ (1 ≤ sessRole s h.session.toNat) ∧ (sessRole s h.session.toNat ≤ 3) ∧ (a.toNat % 4 = 0) ∧ (descOf a.toNat = some d) ∧ (ruledReg a.toNat = false) ∧ (accessFault s a.toNat = none) ∧ (mayWrite s (sessInit h.session.toNat) a.toNat = true) ∧ (d.rwl = 0) ∧ (d.rwc = 0) ∧ (d.w1c = 0) ∧ (d.w1s = 0) ∧ (d.rws = 0) ∧ (¬ (0x600000 ≤ a.toNat ∧ a.toNat < 0x610000))) (put up [(Fld.CE_STATUS_FRONT_ONLY, 0), ((Fld.CE_SESS_VALID 2), 1), ((Fld.CE_SESS_HALF_OPEN 2), 0), ((Fld.CE_SESS_ROLE 2), 1), ((Fld.CE_SESS_PW_OK 2), 0)]) (hdr 10) ((BitVec.ofNat 32 Reg.PC_SNAP_FN_LO)) (((descOf Reg.PC_SNAP_FN_LO).get (by decide)))) ∧
    ((fun (s : State) (h : Hdr) (mode : BitVec 8) => (CommandReady h false s) ∧ (h.argLen = 7) ∧ (mode.toNat ≤ 1) ∧ (sessRole s h.session.toNat = 1 ∨ sessRole s h.session.toNat = 3) ∧ (accessFault s Reg.LE_BANK_CTRL = none) ∧ (mayWrite s (sessInit h.session.toNat) Reg.LE_BANK_CTRL = true)) (put up [(Fld.CE_STATUS_FRONT_ONLY, 0), ((Fld.CE_SESS_VALID 2), 1), ((Fld.CE_SESS_HALF_OPEN 2), 0), ((Fld.CE_SESS_ROLE 2), 1), ((Fld.CE_SESS_PW_OK 2), 0)]) (hdr 7) (0#8)) := by
  refine ⟨?_, ?_, ?_, ?_, ?_, ?_, ?_, ?_, ?_⟩ <;> first | decide | (dsimp only; done) | (dsimp only; decide) | (dsimp only [CommandReady]; decide)

set_option maxRecDepth 20000 in
theorem hyps_PartCommands :
    ((fun (s : State) (h : Hdr) (offset : BitVec 16) (value : Word) => (CommandReady h false s) ∧ (h.argLen = 6) ∧ (sessRole s h.session.toNat = 1) ∧ ((offset = 0x100 ∧ value.toNat ≤ 4) ∨ (offset = 0x104 ∧ value.toNat ≤ 1)) ∧ (s.otp.programming = none) ∧ (s.clogFull = false)) (put up [(Fld.CE_STATUS_FRONT_ONLY, 0), ((Fld.CE_SESS_VALID 2), 1), ((Fld.CE_SESS_HALF_OPEN 2), 0), ((Fld.CE_SESS_ROLE 2), 1), ((Fld.CE_SESS_PW_OK 2), 0)]) (hdr 6) (0x100#16) (4#32)) ∧
    ((fun (s : State) (h : Hdr) => (CommandReady h false s) ∧ (h.argLen = 32) ∧ (safetyOk h.session.toNat s = true) ∧ (s.otp.spwRemain ≠ 0) ∧ (s.otp.programming = none) ∧ (s.clogFull = false)) (put up [(Fld.CE_STATUS_FRONT_ONLY, 0), ((Fld.CE_SESS_VALID 2), 1), ((Fld.CE_SESS_HALF_OPEN 2), 0), ((Fld.CE_SESS_ROLE 2), 2), ((Fld.CE_SESS_PW_OK 2), 1)]) (hdr 32)) ∧
    ((fun (s : State) (h : Hdr) (target : BitVec 8) => (CommandReady h true s) ∧ (h.argLen = 1) ∧ (sessRole s h.session.toNat = (if s.otp.lifecycle = 0 then 3 else 1)) ∧ (target.toNat = s.otp.lifecycle + 1) ∧ (target.toNat ≤ 3) ∧ (s.otp.programming = none) ∧ (s.clogFull = false)) ({ put up [(Fld.CE_STATUS_FRONT_ONLY, 0), ((Fld.CE_SESS_VALID 2), 1), ((Fld.CE_SESS_HALF_OPEN 2), 0), ((Fld.CE_SESS_ROLE 2), 3), ((Fld.CE_SESS_PW_OK 2), 0)] with otp := { up.otp with lifecycle := 0 } }) (hdr 1) (1#8)) ∧
    ((fun (s : State) (h : Hdr) (token : List Byte) => (CommandReady h false s) ∧ (h.argLen = 160) ∧ (token.length = 160) ∧ (sessRole s h.session.toNat = 3)) (put up [(Fld.CE_STATUS_FRONT_ONLY, 0), ((Fld.CE_SESS_VALID 2), 1), ((Fld.CE_SESS_HALF_OPEN 2), 0), ((Fld.CE_SESS_ROLE 2), 3), ((Fld.CE_SESS_PW_OK 2), 0)]) (hdr 160) (List.replicate 160 0#8)) ∧
    ((fun (s : State) (h : Hdr) (slot : Fin 4) => (CommandReady h true s) ∧ (h.argLen = 49) ∧ (sessRole s h.session.toNat = 3) ∧ (s.otp.lifecycle ≤ 1) ∧ (s.otp.enrolled.testBit slot = false) ∧ (s.otp.revoked.testBit slot = false) ∧ (s.clogFull = false)) ({ put up [(Fld.CE_STATUS_FRONT_ONLY, 0), ((Fld.CE_SESS_VALID 2), 1), ((Fld.CE_SESS_HALF_OPEN 2), 0), ((Fld.CE_SESS_ROLE 2), 3), ((Fld.CE_SESS_PW_OK 2), 0)] with otp := { up.otp with lifecycle := 0, enrolled := 0, revoked := 0 } }) (hdr 49) 1) ∧
    ((fun (s : State) (h : Hdr) (slot : Fin 4) => (CommandReady h true s) ∧ (h.argLen = 1) ∧ (sessRole s h.session.toNat = 1) ∧ (keyInUse slot s = false) ∧ (s.clogFull = false)) (put up [(Fld.CE_STATUS_FRONT_ONLY, 0), ((Fld.CE_SESS_VALID 2), 1), ((Fld.CE_SESS_HALF_OPEN 2), 0), ((Fld.CE_SESS_ROLE 2), 1), ((Fld.CE_SESS_PW_OK 2), 0)]) (hdr 1) 1) ∧
    ((fun (s : State) (h : Hdr) (role : BitVec 8) (plot : BitVec 8) (wrapped : List Byte) => (CommandReady h true s) ∧ (h.argLen = 42) ∧ (wrapped.length = 40) ∧ (1 ≤ role.toNat) ∧ (role.toNat ≤ 4) ∧ (plot.toNat < (if role.toNat = 4 then 64 else 1)) ∧ ((sessRole s h.session.toNat = 3 ∨ (sessRole s h.session.toNat = role.toNat ∧ role.toNat ≤ 2) ∨ (sessRole s h.session.toNat = 1 ∧ role.toNat = 4)))) (put up [(Fld.CE_STATUS_FRONT_ONLY, 0), ((Fld.CE_SESS_VALID 2), 1), ((Fld.CE_SESS_HALF_OPEN 2), 0), ((Fld.CE_SESS_ROLE 2), 3), ((Fld.CE_SESS_PW_OK 2), 0)]) (hdr 42) (4#8) (63#8) (List.replicate 40 0#8)) ∧
    ((fun (s : State) (h : Hdr) (plot : BitVec 8) (wrapped : List Byte) => (CommandReady h false s) ∧ (h.argLen = 57) ∧ (wrapped.length = 40) ∧ (plot.toNat ≤ 63) ∧ (sessRole s h.session.toNat = 1)) (put up [(Fld.CE_STATUS_FRONT_ONLY, 0), ((Fld.CE_SESS_VALID 2), 1), ((Fld.CE_SESS_HALF_OPEN 2), 0), ((Fld.CE_SESS_ROLE 2), 1), ((Fld.CE_SESS_PW_OK 2), 0)]) (hdr 57) (63#8) (List.replicate 40 0#8)) ∧
    ((fun (s : State) (h : Hdr) (digest : BitVec 128) => (CommandReady h false s) ∧ (h.argLen = 16) ∧ (safetyOk h.session.toNat s = true) ∧ ((slotWith (liveRec s) .staged).isSome = true) ∧ (digest = stagedDigest s)) ({ put up [(Fld.CE_STATUS_FRONT_ONLY, 0), ((Fld.CE_SESS_VALID 2), 1), ((Fld.CE_SESS_HALF_OPEN 2), 0), ((Fld.CE_SESS_ROLE 2), 2), ((Fld.CE_SESS_PW_OK 2), 1)] with flash := { up.flash with rec0 := ⟨true, 5, .active, .staged, none, true⟩ } }) (hdr 16) (0#128)) ∧
    ((fun (s : State) (h : Hdr) => (CommandReady h true s) ∧ (h.argLen = 0) ∧ (sessRole s h.session.toNat = 1 ∨ sessRole s h.session.toNat = 3)) (put up [(Fld.CE_STATUS_FRONT_ONLY, 0), ((Fld.CE_SESS_VALID 2), 1), ((Fld.CE_SESS_HALF_OPEN 2), 0), ((Fld.CE_SESS_ROLE 2), 1), ((Fld.CE_SESS_PW_OK 2), 0)]) (hdr 0)) ∧
    ((fun (s : State) (h : Hdr) => (CommandReady h false s) ∧ (h.argLen = 0) ∧ (sessRole s h.session.toNat = 3 ∨ safetyOk h.session.toNat s = true) ∧ (opsWith s 0x51 = [])) (put up [(Fld.CE_STATUS_FRONT_ONLY, 0), ((Fld.CE_SESS_VALID 2), 1), ((Fld.CE_SESS_HALF_OPEN 2), 0), ((Fld.CE_SESS_ROLE 2), 3), ((Fld.CE_SESS_PW_OK 2), 0)]) (hdr 0)) ∧
    ((fun (s : State) (h : Hdr) (n : BitVec 48) (digest : BitVec 128) => (CommandReady h false s) ∧ (h.argLen = 23) ∧ (sessRole s h.session.toNat = 1) ∧ (50 ≤ fnDiff n.toNat s.fn) ∧ (fnDiff n.toNat s.fn ≤ 2 ^ 47 - 1) ∧ (consentMissing s = false) ∧ (actReady digest s = true) ∧ ((opFree s).isSome = true)) ({ put up [(Fld.CE_STATUS_FRONT_ONLY, 0), ((Fld.CE_SESS_VALID 2), 1), ((Fld.CE_SESS_HALF_OPEN 2), 0), ((Fld.CE_SESS_ROLE 2), 1), ((Fld.CE_SESS_PW_OK 2), 0), (Fld.IMG_STATUS_PRELOADED, 1)] with flash := { up.flash with rec0 := ⟨true, 5, .active, .staged, none, true⟩ } }) (hdr 23) (50#48) (0#128)) := by
  refine ⟨?_, ?_, ?_, ?_, ?_, ?_, ?_, ?_, ?_, ?_, ?_, ?_⟩ <;> first | decide | (dsimp only; done) | (dsimp only; decide) | (dsimp only [CommandReady]; decide)

set_option maxRecDepth 20000 in
theorem hyps_LongOperations :
    ((fun (s : State) (h : Hdr) (len : Word) => (CommandReady h true s) ∧ (sessRole s h.session.toNat = 1 ∨ sessRole s h.session.toNat = 3) ∧ (len.toNat ≤ 12582912) ∧ ((liveRec s).pending = none) ∧ ((opFree s).isSome = true)) (put up [(Fld.CE_STATUS_FRONT_ONLY, 0), ((Fld.CE_SESS_VALID 2), 1), ((Fld.CE_SESS_HALF_OPEN 2), 0), ((Fld.CE_SESS_ROLE 2), 1), ((Fld.CE_SESS_PW_OK 2), 0)]) (hdr 4) (12582912#32)) ∧
    ((fun (s : State) (h : Hdr) => (CommandReady h true s) ∧ (1 ≤ sessRole s h.session.toNat) ∧ (sessRole s h.session.toNat ≤ 3) ∧ (h.argLen = 13) ∧ ((opFree s).isSome = true)) (put up [(Fld.CE_STATUS_FRONT_ONLY, 0), ((Fld.CE_SESS_VALID 2), 1), ((Fld.CE_SESS_HALF_OPEN 2), 0), ((Fld.CE_SESS_ROLE 2), 1), ((Fld.CE_SESS_PW_OK 2), 0)]) (hdr 13)) ∧
    ((fun (s : State) (h : Hdr) (parts : BitVec 8) => (CommandReady h false s) ∧ (1 ≤ sessRole s h.session.toNat) ∧ (sessRole s h.session.toNat ≤ 3) ∧ (h.argLen = 1) ∧ (parts.toNat ≤ 7) ∧ (testQuiet s = true) ∧ ((opFree s).isSome = true)) (put up [(Fld.CE_STATUS_FRONT_ONLY, 0), ((Fld.CE_SESS_VALID 2), 1), ((Fld.CE_SESS_HALF_OPEN 2), 0), ((Fld.CE_SESS_ROLE 2), 2), ((Fld.CE_SESS_PW_OK 2), 0)]) (hdr 1) (7#8)) ∧
    ((fun (s : State) (j : Fin 16) (o : LongOp) => (s.op j = some o) ∧ (opLive s j = true) ∧ (s.rd (Fld.CE_OP_STATE j) = 0) ∧ (opsMayRun s = true) ∧ (resourceFree j o s = true) ∧ (o.opcode ≠ 0x51) ∧ ((o.opcode = 0x20 → begun o = true ∨ (liveRec s).pending = none))) ({ put up [(Fld.CE_STATUS_FRONT_ONLY, 0), ((Fld.CE_SESS_VALID 2), 1), ((Fld.CE_SESS_HALF_OPEN 2), 0), ((Fld.CE_SESS_ROLE 2), 1), ((Fld.CE_SESS_PW_OK 2), 0), ((Fld.CE_OP_VALID 3), 1), ((Fld.CE_OP_TAG 3), 9), ((Fld.CE_OP_STATE 3), 0), (Fld.PWR_STATE_STATE, 0)] with eng := { up.eng with ops := [(3, some (newOp 0x50 9 2 1))] } }) 3 (newOp 0x50 9 2 1)) ∧
    ((fun (s : State) (h : Hdr) (tag : BitVec 16) (j : Nat) (o : LongOp) => (CommandReady h true s) ∧ (h.argLen = 2) ∧ (opNamed s tag.toNat = some (j, o)) ∧ (sessRole s h.session.toNat = o.role ∨ sessRole s h.session.toNat = 3)) ({ put up [(Fld.CE_STATUS_FRONT_ONLY, 0), ((Fld.CE_SESS_VALID 2), 1), ((Fld.CE_SESS_HALF_OPEN 2), 0), ((Fld.CE_SESS_ROLE 2), 1), ((Fld.CE_SESS_PW_OK 2), 0), ((Fld.CE_OP_VALID 3), 1), ((Fld.CE_OP_TAG 3), 9), ((Fld.CE_OP_STATE 3), 1)] with eng := { up.eng with ops := [(3, some (newOp 0x50 9 2 1))] } }) (hdr 2) (9#16) 3 (newOp 0x50 9 2 1)) ∧
    ((fun (s : State) (h : Hdr) (tag : BitVec 16) (j : Nat) (o : LongOp) => (CommandReady h true s) ∧ (h.argLen = 2) ∧ (opNamed s tag.toNat = some (j, o)) ∧ (sessRole s h.session.toNat = o.role ∨ sessRole s h.session.toNat = 3) ∧ (s.rd (Fld.CE_OP_STATE j) < 2) ∧ (isAct o = false)) ({ put up [(Fld.CE_STATUS_FRONT_ONLY, 0), ((Fld.CE_SESS_VALID 2), 1), ((Fld.CE_SESS_HALF_OPEN 2), 0), ((Fld.CE_SESS_ROLE 2), 1), ((Fld.CE_SESS_PW_OK 2), 0), ((Fld.CE_OP_VALID 3), 1), ((Fld.CE_OP_TAG 3), 9), ((Fld.CE_OP_STATE 3), 1)] with eng := { up.eng with ops := [(3, some (newOp 0x50 9 2 1))] } }) (hdr 2) (9#16) 3 (newOp 0x50 9 2 1)) ∧
    ((fun (s : State) (h : Hdr) (tag : BitVec 16) (j : Nat) (o : LongOp) => (CommandReady h true s) ∧ (h.argLen = 2) ∧ (opNamed s tag.toNat = some (j, o)) ∧ (sessRole s h.session.toNat = o.role ∨ sessRole s h.session.toNat = 3) ∧ (s.rd (Fld.CE_OP_STATE j) = 2) ∧ (o.opcode ≠ 0x51) ∧ ((o.opcode = 0x20 → begun o = true ∨ (liveRec s).pending = none))) ({ put up [(Fld.CE_STATUS_FRONT_ONLY, 0), ((Fld.CE_SESS_VALID 2), 1), ((Fld.CE_SESS_HALF_OPEN 2), 0), ((Fld.CE_SESS_ROLE 2), 1), ((Fld.CE_SESS_PW_OK 2), 0), ((Fld.CE_OP_VALID 3), 1), ((Fld.CE_OP_TAG 3), 9), ((Fld.CE_OP_STATE 3), 2)] with eng := { up.eng with ops := [(3, some (newOp 0x50 9 2 1))] } }) (hdr 2) (9#16) 3 (newOp 0x50 9 2 1)) ∧
    ((fun (s : State) (h : Hdr) (tag : BitVec 16) (j : Nat) (o : LongOp) => (CommandReady h true s) ∧ (h.argLen = 2) ∧ (opNamed s tag.toNat = some (j, o)) ∧ (sessRole s h.session.toNat = o.role ∨ sessRole s h.session.toNat = 3) ∧ (s.rd (Fld.CE_OP_STATE j) < 3) ∧ ((isAct o = true → actAhead s = true))) ({ put up [(Fld.CE_STATUS_FRONT_ONLY, 0), ((Fld.CE_SESS_VALID 2), 1), ((Fld.CE_SESS_HALF_OPEN 2), 0), ((Fld.CE_SESS_ROLE 2), 1), ((Fld.CE_SESS_PW_OK 2), 0), ((Fld.CE_OP_VALID 3), 1), ((Fld.CE_OP_TAG 3), 9), ((Fld.CE_OP_STATE 3), 2)] with eng := { up.eng with ops := [(3, some (newOp 0x50 9 2 1))] } }) (hdr 2) (9#16) 3 (newOp 0x50 9 2 1)) ∧
    ((fun (s : State) (j : Fin 16) (o : LongOp) => (s.op j = some o) ∧ (opLive s j = true) ∧ (s.rd (Fld.CE_OP_STATE j) = 1) ∧ (feeds o = true) ∧ (3000000 ≤ o.idle)) ({ put up [(Fld.CE_STATUS_FRONT_ONLY, 0), ((Fld.CE_SESS_VALID 2), 1), ((Fld.CE_SESS_HALF_OPEN 2), 0), ((Fld.CE_SESS_ROLE 2), 1), ((Fld.CE_SESS_PW_OK 2), 0), ((Fld.CE_OP_VALID 3), 1), ((Fld.CE_OP_TAG 3), 9), ((Fld.CE_OP_STATE 3), 1)] with eng := { up.eng with ops := [(3, some ({ newOp 0x20 9 2 1 with idle := 3000000 }))] } }) 3 ({ newOp 0x20 9 2 1 with idle := 3000000 })) ∧
    ((fun (s : State) (j : Fin 16) (o : LongOp) => (s.op j = some o) ∧ (opLive s j = true) ∧ (s.rd (Fld.CE_OP_STATE j) = 2) ∧ (180000000 ≤ o.held)) ({ put up [(Fld.CE_STATUS_FRONT_ONLY, 0), ((Fld.CE_SESS_VALID 2), 1), ((Fld.CE_SESS_HALF_OPEN 2), 0), ((Fld.CE_SESS_ROLE 2), 1), ((Fld.CE_SESS_PW_OK 2), 0), ((Fld.CE_OP_VALID 3), 1), ((Fld.CE_OP_TAG 3), 9), ((Fld.CE_OP_STATE 3), 2)] with eng := { up.eng with ops := [(3, some ({ newOp 0x50 9 2 1 with held := 180000000 }))] } }) 3 ({ newOp 0x50 9 2 1 with held := 180000000 })) ∧
    ((fun (s : State) (h : Hdr) (target : BitVec 12) (ofs : Word) (l : List Byte) (j : Nat) (o : LongOp) => (CommandReady h true s) ∧ (opNamed s target.toNat = some (j, o)) ∧ (o.session = h.session.toNat) ∧ (feeds o = true) ∧ (h.argLen = 6 + l.length) ∧ (opLive s j = true) ∧ (s.rd (Fld.CE_OP_STATE j) = 1) ∧ (ofs.toNat = o.next) ∧ (ofs.toNat + l.length ≤ o.length) ∧ (begun o = true ∨ (o.opcode = 0x20 ∧ o.next + l.length < min 4096 o.length)) ∧ (o.slot < 2)) ({ put up [(Fld.CE_STATUS_FRONT_ONLY, 0), ((Fld.CE_SESS_VALID 2), 1), ((Fld.CE_SESS_HALF_OPEN 2), 0), ((Fld.CE_SESS_ROLE 2), 1), ((Fld.CE_SESS_PW_OK 2), 0), ((Fld.CE_OP_VALID 3), 1), ((Fld.CE_OP_TAG 3), 9), ((Fld.CE_OP_STATE 3), 1)] with eng := { up.eng with ops := [(3, some ({ newOp 0x20 9 2 1 with length := 8192 }))] } }) (hdr 8) (9#12) (0#32) ([1#8, 2#8]) 3 ({ newOp 0x20 9 2 1 with length := 8192 })) ∧
    ((fun (s : State) (j : Fin 16) (o : LongOp) => (s.op j = some o) ∧ (opLive s j = true) ∧ (s.rd (Fld.CE_OP_STATE j) = 1) ∧ (o.next = 0) ∧ (o.length = 0)) ({ put up [(Fld.CE_STATUS_FRONT_ONLY, 0), ((Fld.CE_SESS_VALID 2), 1), ((Fld.CE_SESS_HALF_OPEN 2), 0), ((Fld.CE_SESS_ROLE 2), 1), ((Fld.CE_SESS_PW_OK 2), 0), ((Fld.CE_OP_VALID 3), 1), ((Fld.CE_OP_TAG 3), 9), ((Fld.CE_OP_STATE 3), 1)] with eng := { up.eng with ops := [(3, some (newOp 0x25 9 2 1))] } }) 3 (newOp 0x25 9 2 1)) ∧
    ((fun (s : State) (j : Fin 16) (o : LongOp) => (s.op j = some o) ∧ (opLive s j = true) ∧ (s.rd (Fld.CE_OP_STATE j) = 1) ∧ (o.next = o.length) ∧ (o.slot < 2) ∧ (begun o = true)) ({ put up [(Fld.CE_STATUS_FRONT_ONLY, 0), ((Fld.CE_SESS_VALID 2), 1), ((Fld.CE_SESS_HALF_OPEN 2), 0), ((Fld.CE_SESS_ROLE 2), 1), ((Fld.CE_SESS_PW_OK 2), 0), ((Fld.CE_OP_VALID 3), 1), ((Fld.CE_OP_TAG 3), 9), ((Fld.CE_OP_STATE 3), 1)] with eng := { up.eng with ops := [(3, some ({ newOp 0x25 9 2 1 with length := 8192, next := 8192 }))] } }) 3 ({ newOp 0x25 9 2 1 with length := 8192, next := 8192 })) ∧
    ((fun (s : State) (j : Fin 16) (o : LongOp) => (s.op j = some o) ∧ (opLive s j = true) ∧ (s.rd (Fld.CE_OP_STATE j) = 1) ∧ (o.opcode = 0x50)) ({ put up [(Fld.CE_STATUS_FRONT_ONLY, 0), ((Fld.CE_SESS_VALID 2), 1), ((Fld.CE_SESS_HALF_OPEN 2), 0), ((Fld.CE_SESS_ROLE 2), 1), ((Fld.CE_SESS_PW_OK 2), 0), ((Fld.CE_OP_VALID 3), 1), ((Fld.CE_OP_TAG 3), 9), ((Fld.CE_OP_STATE 3), 1)] with eng := { up.eng with ops := [(3, some (newOp 0x50 9 2 1))] } }) 3 (newOp 0x50 9 2 1)) := by
  refine ⟨?_, ?_, ?_, ?_, ?_, ?_, ?_, ?_, ?_, ?_, ?_, ?_, ?_, ?_⟩ <;> first | decide | (dsimp only; done) | (dsimp only; decide) | (dsimp only [CommandReady]; decide)

set_option maxRecDepth 20000 in
theorem hyps_PlotCommands :
    ((fun (s : State) (h : Hdr) (dest : BitVec 16) => (CommandReady h false s) ∧ (sessRole s h.session.toNat = 1) ∧ (h.argLen = 3) ∧ (dest.toNat ≤ 0x3FF)) (put up [(Fld.CE_STATUS_FRONT_ONLY, 0), ((Fld.CE_SESS_VALID 2), 1), ((Fld.CE_SESS_HALF_OPEN 2), 0), ((Fld.CE_SESS_ROLE 2), 1), ((Fld.CE_SESS_PW_OK 2), 0)]) (hdr 3) (0x3FF#16)) ∧
    ((fun (s : State) (h : Hdr) (dest : BitVec 16) => (CommandReady h false s) ∧ (sessRole s h.session.toNat = 1) ∧ (h.argLen = 5) ∧ (dest.toNat ≤ 0x3FF)) (put up [(Fld.CE_STATUS_FRONT_ONLY, 0), ((Fld.CE_SESS_VALID 2), 1), ((Fld.CE_SESS_HALF_OPEN 2), 0), ((Fld.CE_SESS_ROLE 2), 1), ((Fld.CE_SESS_PW_OK 2), 0)]) (hdr 5) (0x3FF#16)) ∧
    ((fun (s : State) (h : Hdr) (dest : BitVec 16) => (CommandReady h false s) ∧ (sessRole s h.session.toNat = 1) ∧ (h.argLen = 3) ∧ (dest.toNat ≤ 0x3FF)) (put up [(Fld.CE_STATUS_FRONT_ONLY, 0), ((Fld.CE_SESS_VALID 2), 1), ((Fld.CE_SESS_HALF_OPEN 2), 0), ((Fld.CE_SESS_ROLE 2), 1), ((Fld.CE_SESS_PW_OK 2), 0)]) (hdr 3) (0x3FF#16)) ∧
    ((fun (s : State) => (s.img.phase = .booted)) (up)) ∧
    ((fun (s : State) (w : ShortWait) (sop : BitVec 8) (tag : BitVec 12) (snonce : BitVec 64) (seq : BitVec 32) => (s.eng.waits.find? (fun x => x.tag == tag.toNat && x.seq == seq.toNat && x.opcode == sop.toNat && decide ((s.sess x.session).snonce = beBytes 8 snonce.toNat)) = some w) ∧ (w.session < 64) ∧ (s.rd (Fld.CE_SESS_VALID w.session) = 1)) ({ put up [((Fld.CE_SESS_VALID (⟨2, 4, 0x70, 5, 500⟩ : ShortWait).session), 1), (Fld.CE_STATUS_FRONT_ONLY, 0), ((Fld.CE_SESS_VALID 2), 1), ((Fld.CE_SESS_HALF_OPEN 2), 0), ((Fld.CE_SESS_ROLE 2), 1), ((Fld.CE_SESS_PW_OK 2), 0)] with eng := { up.eng with waits := [⟨2, 4, 0x70, 5, 500⟩], sess := [(2, { restSess with snonce := List.replicate 8 0#8 })] } }) (⟨2, 4, 0x70, 5, 500⟩) (0x70#8) (4#12) (0#64) (5#32)) ∧
    ((fun (s : State) (w : ShortWait) => (s.eng.waits.find? (fun x => x.tag == w.tag && decide (500 ≤ x.age)) = some w) ∧ (w.tag < 4096) ∧ (w.session < 64) ∧ (s.rd (Fld.CE_SESS_VALID w.session) = 1)) ({ put up [((Fld.CE_SESS_VALID (⟨2, 4, 0x70, 5, 500⟩ : ShortWait).session), 1), (Fld.CE_STATUS_FRONT_ONLY, 0), ((Fld.CE_SESS_VALID 2), 1), ((Fld.CE_SESS_HALF_OPEN 2), 0), ((Fld.CE_SESS_ROLE 2), 1), ((Fld.CE_SESS_PW_OK 2), 0)] with eng := { up.eng with waits := [⟨2, 4, 0x70, 5, 500⟩] } }) (⟨2, 4, 0x70, 5, 500⟩)) := by
  refine ⟨?_, ?_, ?_, ?_, ?_, ?_⟩ <;> first | decide | (dsimp only; done) | (dsimp only; decide) | (dsimp only [CommandReady]; decide)

set_option maxRecDepth 20000 in
theorem hyps_SerialPorts :
    ((fun (s : State) (i : Initiator) (n : Fin 4) => (Reaches s i (Reg.CSP_TXDATA n)) ∧ (mayWrite s i (Reg.CSP_TXDATA n) = true)) (up) .fw 1) ∧
    ((fun (s : State) (i : Initiator) (n : Fin 4) => (Reaches s i (Reg.CSP_RXDATA n)) ∧ (mayRead s i (Reg.CSP_RXDATA n) = true) ∧ (cspCommand s n = false)) (put up [((Fld.CSP_CFG_MODE 2), 1)]) .fw 2) ∧
    ((fun (s : State) (i : Initiator) (n : Fin 4) => (Reaches s i (Reg.CSP_RXLEN n)) ∧ (mayRead s i (Reg.CSP_RXLEN n) = true) ∧ (cspCommand s n = false)) (put up [((Fld.CSP_CFG_MODE 2), 1)]) .fw 2) ∧
    ((fun (s : State) (i : Initiator) (n : Fin 4) => (Reaches s i (Reg.CSP_XFER n)) ∧ (mayWrite s i (Reg.CSP_XFER n) = true) ∧ (n ≠ 0) ∧ (s.rd (Fld.CSP_CFG_EN n) = 1) ∧ (s.rd (Fld.CSP_CFG_MODE n) = 1)) (put up [((Fld.CSP_CFG_EN 1), 1), ((Fld.CSP_CFG_MODE 1), 1)]) .fw 1) ∧
    ((fun (s : State) (n : Fin 4) (bits : Nat) => (s.rd Fld.CLK_STATUS_APP_LOCK = 1) ∧ ((s.cspOf n).busy = some bits)) ({ put up [(Fld.CLK_STATUS_APP_LOCK, 1)] with csp := [(1, { restCsp with busy := some 32 })] }) 1 32) ∧
    ((fun (s : State) (n : Fin 4) (bits : Nat) => (cspRawSlave s n = true) ∧ (0 < bits)) (put up [((Fld.CSP_CFG_EN 2), 1), ((Fld.CSP_CFG_MODE 2), 0), ((Fld.CSP_CFG_FUNC 2), 0)]) 2 1) ∧
    ((fun (s : State) (n : Fin 4) => (cspCommand s n = true)) (up) 1) := by
  refine ⟨?_, ?_, ?_, ?_, ?_, ?_, ?_⟩ <;> first | decide | (dsimp only; done) | (dsimp only; decide) | (dsimp only [CommandReady]; decide)

set_option maxRecDepth 20000 in
theorem hyps_PerformanceCounters :
    ((fun (s : State) (i : Initiator) (c : Fin 64) => (Reaches s i (Reg.PC_SEL c)) ∧ (mayWrite s i (Reg.PC_SEL c) = true)) (up) .fw 1) ∧
    ((fun (s : State) (i : Initiator) (c : Fin 64) => (Reaches s i (Reg.PC_CNT_LO c)) ∧ (mayWrite s i (Reg.PC_CNT_LO c) = true)) (up) .fw 1) ∧
    ((fun (s : State) (i : Initiator) (c : Fin 64) => (Reaches s i (Reg.PC_CNT_HI c)) ∧ (mayWrite s i (Reg.PC_CNT_HI c) = true)) (up) .fw 1) ∧
    ((fun (s : State) (i : Initiator) (ofs : BitVec 17) => (isCounterLo (0x700000 + ofs.toNat) = true) ∧ (Reaches s i (0x700000 + ofs.toNat)) ∧ (mayRead s i (0x700000 + ofs.toNat) = true)) (up) .fw (0#17)) ∧
    ((fun (s : State) (c : Fin 64) => (s.perf.passed.contains c.val = true)) ({ up with perf := { up.perf with passed := [1] } }) 1) := by
  refine ⟨?_, ?_, ?_, ?_, ?_⟩ <;> first | decide | (dsimp only; done) | (dsimp only; decide) | (dsimp only [CommandReady]; decide)

set_option maxRecDepth 20000 in
theorem hyps_SnapshotsAndWindows :
    ((fun (s : State) (i : Initiator) => (Reaches s i Reg.PC_CTRL) ∧ (mayWrite s i Reg.PC_CTRL = true)) (up) .fw) ∧
    ((fun (s : State) => (s.mainOn = true)) (up)) ∧
    ((fun (s : State) => (s.perf.held.isSome = true ∨ s.perf.snapAt = some s.fn)) ({ up with perf := { up.perf with snapAt := some 0 } })) ∧
    ((fun (s : State) => (s.perf.held = none) ∧ (s.perf.snapAt ≠ some s.fn)) (up)) ∧
    ((fun (s : State) => (s.perf.ended = none)) (up)) ∧
    ((fun (s : State) => (s.perf.ended.isSome = true)) ({ up with perf := { up.perf with ended := some 0 } })) := by
  refine ⟨?_, ?_, ?_, ?_, ?_, ?_⟩ <;> first | decide | (dsimp only; done) | (dsimp only; decide) | (dsimp only [CommandReady]; decide)

set_option maxRecDepth 20000 in
theorem hyps_TestAccess :
    ((fun (s : State) (i : Initiator) (n : Fin 2) (v : Word) => (Reaches s i (Reg.DBG_ATEST_SEL n)) ∧ (mayWrite s i (Reg.DBG_ATEST_SEL n) = true) ∧ (s.reg (Reg.DBG_ATEST_SEL n) ≠ v &&& 0xFFF#32) ∧ ((scopeBit 1 s = true → s.clog.queue.length < 64))) (up) .fw 1 (1#32)) ∧
    ((fun (s : State) (core : Bool) (eng : Bool) (apps : BitVec 4) => (s.dbg.tap = 0x10) ∧ (scopeBit 3 s = true) ∧ ((core || eng || decide (apps ≠ 0#4)) = true)) ({ up with dbg := { up.dbg with tap := 0x10 }, otp := { up.otp with lifecycle := 1 } }) true true (1#4)) ∧
    ((fun (s : State) => (s.dbg.tap = 0x10) ∧ (scopeBit 3 s = true)) ({ up with dbg := { up.dbg with tap := 0x10 }, otp := { up.otp with lifecycle := 1 } })) ∧
    ((fun (s : State) (i : Initiator) => (Reaches s i Reg.DBG_UNLOCK) ∧ (mayWrite s i Reg.DBG_UNLOCK = true) ∧ (s.dbg.unlockLeft = none ∨ (∀ k : Fin 64, i = .session k → s.rd Fld.DBG_UNLOCK_SESSION ≠ k.val))) (up) .fw) ∧
    ((fun (s : State) => (s.dbg.unlockLeft ≠ some 0)) (up)) := by
  refine ⟨?_, ?_, ?_, ?_, ?_⟩ <;> first | decide | (dsimp only; done) | (dsimp only; decide) | (dsimp only [CommandReady]; decide)

/-- An image whose one section is an empty CLASSES section. -/
def announcing : List Byte := List.replicate 0x18 0#8 ++ [1#8, 0#8] ++ List.replicate (0x1000 - 0x1A) 0#8 ++ 4#8 :: List.replicate 15 0#8

set_option maxRecDepth 30000 in
/-- The offset of the announcement is the image's (R189): its frame is some frame. -/
theorem hyps_DigestAgreement_announceDue : ∃ s : State, s.img.phase = .booted ∧ announceDue s = true := by
  have h : imgSection announcing 0x04 = some [] := by decide
  refine ⟨{ up with img := { up.img with active := announcing }, time := { up.time with rt := Config.announceOffset [] % 50000 * 20000 } },
    by decide, ?_⟩
  simp only [announceDue, h, State.fn, frameNs, fnModulus, Bool.and_eq_true, beq_iff_eq, bne_iff_ne]
  generalize Config.announceOffset [] = x
  have hx : x % 50000 < 50000 := Nat.mod_lt _ (by decide)
  generalize x % 50000 = y at hx
  refine ⟨?_, by intro e; cases e⟩
  rw [Nat.mul_div_cancel _ (by decide), Nat.mod_eq_of_lt (Nat.lt_trans hx (by decide)), Nat.mod_eq_of_lt hx]

/-! ### Single steps, with results worked out from the rules -/

/-- The command answers a next state that passes a test. -/
def gives (c : Instr) (s : State) (p : State → Bool) : Bool := match exec c s with | .next t => p t | _ => false

/-- The preset of the example of R649: 2^48 - 10,000 is 0x0000_FFFF_FFFF_D8F0. -/
theorem test_counter_preset :
    gives (.cntLoWrite .fw 2 0xFFFFD8F0#32) up (fun s => gives (.cntHiWrite .fw 2 0xFFFF#32) s (fun t => t.wide (Reg.PC_CNT_LO 2) == 2 ^ 48 - 10000)) = true := by
  decide

/-- CNT_HI with bits 31:16 not zero returns BAD_ARG (R648). -/
theorem test_counter_preset_refused :
    gives (.cntHiWrite .fw 2 0x10000#32) up (fun t => t.bus.status == .badArg && t.wide (Reg.PC_CNT_LO 2) == 0) = true := by decide

/-- The HI threshold of code 922 is 1.1255 V (the example of R262): 1.126 V asserts, 1.125 V does not, and 1.120 V is within 8 mV of it. -/
theorem test_window_threshold :
    (hiOutput false (1126000 * 1024) (922 * 1250000) (8000 * 1024), hiOutput false (1125000 * 1024) (922 * 1250000) (8000 * 1024),
      hiOutput true (1120000 * 1024) (922 * 1250000) (8000 * 1024), hiOutput true (1117000 * 1024) (922 * 1250000) (8000 * 1024))
      = (true, false, true, false) := by decide

/-- EXTEST acts as BYPASS in DEPLOYED without an unlock (R655, R661), and is taken in DEVELOP. -/
theorem test_extest_scope :
    (gives .extest { up with otp := { up.otp with lifecycle := 2 }, dbg := { up.dbg with unlockLeft := none } } (fun t => t.dbg.tap == 0xFF) &&
      gives .extest { up with otp := { up.otp with lifecycle := 1 } } (fun t => t.dbg.tap == 0x03)) = true := by decide

/-- A request for a power state by the lockstep core is refused and logged (R8, R88). -/
theorem test_req_denied :
    gives (.reqIdle .core) (put up [(Fld.PWR_CTRL_REQ, 0)]) (fun t => t.bus.status == .denied && t.rd Fld.PWR_CTRL_REQ == 0) = true := by decide

/-- A write of an undefined address returns BAD_ARG (R41). -/
theorem test_undefined_address : gives (.registerWrite .fw 0x0010FFFC#32 4 1#32) up (fun t => t.bus.status == .badArg) = true := by decide

/-- A read of RT_NOW_LO latches the upper word (R118): RT64 = 2^32 + 5. -/
theorem test_rt_now :
    gives (.rtNowRead .fw 0) { up with time := { up.time with rt := 2 ^ 32 + 5 } }
      (fun t => t.bus.value == 5#32 && t.reg Reg.RT_NOW_HI == 1#32) = true := by decide

/-- An empty queue idles; a waiting command is taken from its front. -/
theorem test_step_idles : step State.reset = .next State.reset := by rfl

/-- The header of a RING_HEAL cell (R586): PCP 7 and VID 0x0FE in the S-tag, VER 1 with KEY_ID 1, TYPE 0x33, REACH flood, ring B going west. -/
theorem test_cell_header :
    ((cellHeader 0x021122334455 1 5 ⟨.ringHeal 1 3 9, 0x0A2, 2, 4, true, true, 0x100, 0x1234, 0x3FF⟩).drop 12).take 20
      = [0x88#8, 0xA8#8, 0xE0#8, 0xFE#8, 0x88#8, 0xB5#8, 0x11#8, 0x33#8, 0x20#8, 0xA2#8, 0xC0#8, 0x04#8, 0x00#8, 0x00#8, 0x00#8, 0x00#8, 0x01#8,
         0x00#8, 0x12#8, 0x34#8] := by decide

end Sys2Proof.Tests
end

