-- ==== Sys2Proof/Proofs/Evolves.lean ====
section
/-!
PROOFS. Proofs/Evolves.lean: what every operation of the model keeps of the stores: one rule per operation, in the order of the model, each
proved by the rules of the operations that it is made of. A rule takes `Evolves w r s`, what is known of the state so far, to the state after
the operation, so that the proof of a pipeline of operations is the pipeline of their rules.
-/
namespace Sys2Proof.Machine

/-- What an operation keeps of the stores that it does not name: the commands that wait and the count of commands are as they were, the
register file keeps its canonical form and the logs their size; with `w` false the counted settings and the flash are as they were, too. -/
structure Evolves (w : Bool) (r s : State) : Prop where
  pending : s.pending = r.pending
  cycle : s.cycle = r.cycle
  otp : w = false → s.otp = r.otp
  flash : w = false → s.flash = r.flash
  regsOk : r.RegsOk → s.RegsOk
  logsOk : r.LogsOk → s.LogsOk

theorem Evolves.refl (w : Bool) (s : State) : Evolves w s s := ⟨rfl, rfl, fun _ => rfl, fun _ => rfl, id, id⟩

theorem Evolves.trans {w : Bool} {r s t : State} (h : Evolves w r s) (k : Evolves w s t) : Evolves w r t :=
  ⟨k.pending.trans h.pending, k.cycle.trans h.cycle, fun e => (k.otp e).trans (h.otp e), fun e => (k.flash e).trans (h.flash e),
    k.regsOk ∘ h.regsOk, k.logsOk ∘ h.logsOk⟩

/-- A change of the parts of the state that the relation does not speak of. -/
theorem Evolves.upd {w : Bool} {r s : State} (h : Evolves w r s)
    {bus out freeIx img time pwr lan pwm gate win ls safe adc loop units stages trks isl meter ctl ring plots eng csp perf dbg} :
    Evolves w r { s with
      bus := bus, out := out, freeIx := freeIx, img := img, time := time, pwr := pwr, lan := lan, pwm := pwm, gate := gate, win := win,
      ls := ls, safe := safe, adc := adc, loop := loop, units := units, stages := stages, trks := trks, isl := isl, meter := meter,
      ctl := ctl, ring := ring, plots := plots, eng := eng, csp := csp, perf := perf, dbg := dbg } :=
  ⟨h.1, h.2, h.3, h.4, h.5, h.6⟩

/-- A change that may also reach the counted settings and the flash. -/
theorem Evolves.updStores {r s : State} (h : Evolves true r s)
    {bus out freeIx otp flash img time pwr lan pwm gate win ls safe adc loop units stages trks isl meter ctl ring plots eng csp perf dbg} :
    Evolves true r { s with
      bus := bus, out := out, freeIx := freeIx, otp := otp, flash := flash, img := img, time := time, pwr := pwr, lan := lan, pwm := pwm,
      gate := gate, win := win, ls := ls, safe := safe, adc := adc, loop := loop, units := units, stages := stages, trks := trks,
      isl := isl, meter := meter, ctl := ctl, ring := ring, plots := plots, eng := eng, csp := csp, perf := perf, dbg := dbg } :=
  ⟨h.1, h.2, nofun, nofun, h.5, h.6⟩

theorem Evolves.ite {w : Bool} {r s t : State} {c : Prop} [Decidable c] (h : Evolves w r s) (k : Evolves w r t) : Evolves w r
  (if c then s else t) := by
  split
  · exact h
  · exact k

/-- Dropping registers keeps the canonical form. -/
theorem Evolves.keep {w : Bool} {r s : State} (h : Evolves w r s) {p : Nat → Bool} : Evolves w r { s with regs := Tab.keep p s.regs } :=
  h.trans ⟨rfl, rfl, fun _ => rfl, fun _ => rfl, Tab.wf_keep resetWord p s.regs, id⟩

/-- New contents of the logs that are within their size where the old ones are. -/
theorem Evolves.relog {w : Bool} {r s : State} (h : Evolves w r s) {l : TroubleLog} {c : ChangeLog}
    (hl : s.LogsOk → { s with log := l, clog := c }.LogsOk) : Evolves w r { s with log := l, clog := c } :=
  h.trans ⟨rfl, rfl, fun _ => rfl, fun _ => rfl, id, hl⟩

section
variable {w : Bool} {r s : State} (h : Evolves w r s)
include h

/-! ### Registers, logs and answers -/

theorem Evolves.setReg {a : Nat} {x : Word} : Evolves w r (s.setReg a x) :=
  h.trans ⟨rfl, rfl, fun _ => rfl, fun _ => rfl, setReg_wf s a x, id⟩
theorem Evolves.wr {f : FRef} {v : Nat} : Evolves w r (State.wr s f v) := h.setReg
theorem Evolves.wrB {f : FRef} {b : Bool} : Evolves w r (State.wrB s f b) := h.wr
theorem Evolves.wrBit {f : FRef} {i : Nat} {b : Bool} : Evolves w r (State.wrBit s f i b) := h.wr
theorem Evolves.wrI {f : FRef} {v : Int} : Evolves w r (State.wrI s f v) := h.wr
theorem Evolves.incBy {f : FRef} {n : Nat} : Evolves w r (State.incBy s f n) := h.wr
theorem Evolves.inc {f : FRef} : Evolves w r (State.inc s f) := h.incBy
theorem Evolves.wr64 {lo hi : FRef} {v : Nat} : Evolves w r (State.wr64 s lo hi v) := h.wr.wr

theorem Evolves.foldl {α : Type} {l : List α} {f : State → α → State} (hf : ∀ s x, Evolves w r s → Evolves w r (f s x)) : Evolves w r
  (l.foldl f s) := by
  induction l generalizing s with
  | nil => exact h
  | cons x l ih => exact ih (hf s x h)

theorem Evolves.forEach {l : List Nat} {f : Nat → State → State} (hf : ∀ i s, Evolves w r s → Evolves w r (f i s)) : Evolves w r (forEach l f s) :=
  h.foldl fun s i => hf i s

theorem Evolves.when {b : Bool} {f : State → State} (hf : ∀ s, Evolves w r s → Evolves w r (f s)) : Evolves w r (when b f s) :=
  .ite (hf s h) h
theorem Evolves.free : Evolves w r s.free.2 := h.upd
theorem Evolves.wrFree {f : FRef} : Evolves w r (State.wrFree s f) := h.free.wr
theorem Evolves.setUnsynced {b : Bool} : Evolves w r (State.setUnsynced s b) := h.wrB.wrB

theorem Evolves.enqueue {e : LogEntry} : Evolves w r (s.enqueue e) := by
  refine h.trans ?_
  unfold State.enqueue
  split
  · exact .refl w s
  · split <;> split
    all_goals first
      | exact (Evolves.refl w s).inc
      | refine ⟨rfl, rfl, fun _ => rfl, fun _ => rfl, id, fun ⟨h1, h2, h3, h4, h5⟩ => ⟨?_, ?_, ?_, h4, h5⟩⟩ <;> simp <;> omega

theorem Evolves.logEv {source code datum : Nat} : Evolves w r (State.logEv s source code datum) := h.enqueue
theorem Evolves.logLate {source code datum rtc : Nat} : Evolves w r (State.logLate s source code datum rtc) := h.enqueue

theorem Evolves.logOnce {source code unit datum : Nat} : Evolves w r (s.logOnce source code unit datum) := by
  unfold State.logOnce
  split
  · exact h
  · have k : Evolves w r (s.logEv source code datum) := h.logEv
    exact k.relog (c := (s.logEv source code datum).clog) id

theorem Evolves.clogPush {role session kind subject : Nat} {new : BitVec 128} : Evolves w r (s.clogPush role session kind subject new) := by
  unfold State.clogPush
  split
  · exact h
  · next hf =>
    have hl : s.clog.queue.length < 64 := by
      rw [State.clogFull, decide_eq_true_eq, State.clogUsed] at hf
      omega
    extract_lets seq e
    have hlogs : s.LogsOk → { s with clog := { s.clog with queue := s.clog.queue ++ [e], reservedSeq := seq } }.LogsOk :=
      fun ⟨h1, h2, h3, h4, _⟩ => ⟨h1, h2, h3, h4, by simpa using hl⟩
    exact (h.relog hlogs).wr

theorem Evolves.answer {v : Word} {k : BusKind} {st : Status} : Evolves w r (State.answer s v k st) := h.upd
theorem Evolves.answerSt {st : Status} : Evolves w r (State.answerSt s st) := h.answer
theorem Evolves.send {o : Out} : Evolves w r (State.send s o) := h.upd

/-! ### Counters and flags -/

theorem Evolves.w1cWrite {a : Nat} {v : Word} : Evolves w r (w1cWrite a v s) := h.setReg
theorem Evolves.setWide {a v : Nat} : Evolves w r (State.setWide s a v) := h.upd
theorem Evolves.bump {a n : Nat} : Evolves w r (State.bump s a n) := h.setWide

theorem Evolves.countSel {c n : Nat} : Evolves w r (countSel c n s) := by
  unfold Machine.countSel
  extract_lets _ _ s1
  have h1 : Evolves w r s1 := h.bump
  exact .ite h1.upd h1

theorem Evolves.countEv {event unit n : Nat} : Evolves w r (countEv event unit n s) := .ite h (h.forEach (fun _ _ h => (.ite h.countSel h)))
theorem Evolves.latchRead {lo hi v : Nat} : Evolves w r (latchRead lo hi v s) := h.setReg.setReg.answer

/-! ### Trips and the safety lockout -/

theorem Evolves.wrMapBit {f : Nat → FRef} {i : Nat} {b : Bool} : Evolves w r (State.wrMapBit s f i b) := h.wrBit

theorem Evolves.gateRise {p causes : Nat} : Evolves w r (gateRise p causes s) := by
  unfold Machine.gateRise
  extract_lets _ s1 s2
  have h1 : Evolves w r s1 := h.wr.wr.wr
  have h2 : Evolves w r s2 := h1.inc.wr.wrMapBit
  exact .ite h2 h2.logOnce

theorem Evolves.settleGatePair {p : Nat} : Evolves w r (settleGatePair p s) := .ite h (.ite h.wr (.ite h.gateRise h))
theorem Evolves.settleGate : Evolves w r (settleGate s) := (h.forEach (fun _ _ h => h.settleGatePair)).wrB
theorem Evolves.declMirror : Evolves w r (declMirror s) := h.wr
theorem Evolves.outputsLow {p : Nat} : Evolves w r (outputsLow p s) := h.wr.wr
theorem Evolves.pairTrip {p src : Nat} : Evolves w r (pairTrip p src s) := h.wr.wr.wr.wr.wr.inc.outputsLow.wrMapBit.countEv
theorem Evolves.pairHold {p : Nat} : Evolves w r (pairHold p s) := h.wr.wr.inc.outputsLow.countEv
theorem Evolves.settlePair {pulse p : Nat} : Evolves w r (settlePair pulse p s) := .ite h.wr (.ite h.pairTrip (.ite h.pairHold h))

theorem Evolves.logTrips {rising : List (Nat × Nat)} {k : Nat} : Evolves w r (logTrips rising k s) := by
  unfold Machine.logTrips
  split
  · exact h
  · exact h.logOnce
  · exact h.logEv.forEach fun _ s h => h.relog (c := s.clog) id

theorem Evolves.settleTrips {pulse : Nat → Nat} : Evolves w r (settleTrips pulse s) :=
  (h.wr.settleGate.forEach (fun _ _ h => h.settlePair)).forEach fun _ _ h => h.logTrips
theorem Evolves.safetyPending : Evolves w r (safetyPending s) := h.wr
theorem Evolves.outputsOff : Evolves w r (outputsOff s) := h.wr.wr.wr

theorem Evolves.enterLockout {cause unit : Nat} : Evolves w r (enterLockout cause unit s) := by
  unfold Machine.enterLockout
  extract_lets _ s1 s2 s3 s4
  have h1 : Evolves w r s1 := h.upd
  have h2 : Evolves w r s2 := .ite h1 h1.outputsOff
  have h3 : Evolves w r s3 := h2.wr.wr.wr
  have h4 : Evolves w r s4 := .ite h2.wr h3.wr.inc.logEv
  exact h4.safetyPending.settleTrips

/-! ### Admission of accesses -/

theorem Evolves.readAdmitted {i : Initiator} {a : Nat} {f : State → State} (hf : ∀ s, Evolves w r s → Evolves w r (f s)) :
    Evolves w r (readAdmitted i a f s) := by
  unfold Machine.readAdmitted
  split
  · exact h
  · split
    · exact h.answer
    · exact .ite (hf _ h) h.answerSt

theorem Evolves.writeAdmitted {i : Initiator} {a : Nat} {f : State → State} (hf : ∀ s, Evolves w r s → Evolves w r (f s)) :
    Evolves w r (writeAdmitted i a f s) := by
  unfold Machine.writeAdmitted
  split
  · exact h
  · split
    · exact h.answer
    · exact .ite h.logEv.answerSt (.ite h.answerSt (hf _ h.answerSt))

theorem Evolves.refuseLocked {a : Nat} : Evolves w r (refuseLocked a s) := h.logEv.answerSt

theorem Evolves.unlockedFor {roles : List Nat} {i : Initiator} {a : Nat} {f : State → State} (hf : ∀ s, Evolves w r s → Evolves w r (f s)) :
    Evolves w r (unlockedFor roles i a f s) :=
  h.writeAdmitted fun _ h => (.ite (hf _ h) h.refuseLocked)

/-! ### Window monitors -/

theorem Evolves.winLatch {n : Nat} {hi lo chk : Bool} : Evolves w r (winLatch n hi lo chk s) :=
  .ite (((h.when (fun _ h => h.wrBit)).when (fun _ h => h.wrBit)).wrBit.logOnce.when (fun _ h => h.send)) h
theorem Evolves.winAct {n : Nat} : Evolves w r (winAct n s) := .ite h h.winLatch

theorem Evolves.compOut {f : Bool → Nat → Nat → Nat → Bool} {was : Bool} {v : Option Nat} {th : Threshold} {hyst : Nat} :
    Evolves w r (compOut f was v th hyst s).2 := by
  unfold Machine.compOut
  split
  · exact h
  · exact h.free
  · exact h

theorem Evolves.compEval {n : Nat} : Evolves w r (compEval n s) := by
  unfold Machine.compEval
  extract_lets v hi s1 lo
  have hhi : Evolves w r hi.2 := by
    unfold hi
    split
    · exact h.compOut
    · exact h
  have h1 : Evolves w r s1 := hhi.wrBit
  have hlo : Evolves w r lo.2 := by
    unfold lo
    split
    · exact h1.compOut
    · exact h1
  exact hlo.wrBit

theorem Evolves.maskFree {n : Nat} : Evolves w r (maskFree n s) := .ite h.free.upd h.upd
theorem Evolves.dacWritten {n : Nat} : Evolves w r (dacWritten n s) := h.maskFree.compEval.winAct.settleTrips
theorem Evolves.windowsFollow : Evolves w r (windowsFollow s) := (h.forEach (fun _ _ h => h.compEval.winAct)).settleTrips
theorem Evolves.masksLift : Evolves w r (masksLift s) := h.upd.forEach fun _ _ h => h.winAct
theorem Evolves.winClear {n : Nat} : Evolves w r (winClear n s) := .ite h (.ite h.wrBit.logEv h.wrBit.wrBit)
theorem Evolves.winClrWrite {v : Word} : Evolves w r (winClrWrite v s) := (h.forEach (fun _ _ h => (h.when (fun _ h => h.winClear)))).settleTrips
theorem Evolves.winPeriodClear {p : Nat} : Evolves w r (winPeriodClear p s) :=
  h.forEach fun _ _ h => (.ite ((h.when (fun _ h => h.wrBit)).when (fun _ h => h.wrBit)) h)

theorem Evolves.startChecks {l : List Nat} {mode : Nat} {load : Bool} : Evolves w r (startChecks l mode load s) := by
  unfold Machine.startChecks
  split
  · exact h
  · exact h.upd.wr.settleTrips

theorem Evolves.winChkWrite {v : Word} : Evolves w r (winChkWrite v s) := by
  unfold Machine.winChkWrite
  extract_lets s1 s2
  have h1 : Evolves w r s1 := h.when fun _ h => h.wr
  have h2 : Evolves w r s2 := h1.when fun _ h => h.wr
  exact .ite h2 (.ite h2.wr.logEv.answerSt h2.startChecks)

theorem Evolves.winChkFrom {i : Initiator} {v : Word} : Evolves w r (winChkFrom i v s) := .ite h.winChkWrite h.answerSt
theorem Evolves.chkPass {n : Nat} : Evolves w r (chkPass n s) := h.wrBit
theorem Evolves.chkFail {n kind : Nat} : Evolves w r (chkFail n kind s) := h.wrBit.logEv.winLatch

theorem Evolves.chkResult {n mode : Nat} {m : WinSample} : Evolves w r (chkResult n mode m s) := by
  unfold Machine.chkResult
  extract_lets s1
  have h1 : Evolves w r s1 := .ite (.ite h.chkPass h.chkFail) h
  exact .ite (.ite h1.wr.logEv (.ite (.ite h1 h1.chkPass) h1.chkFail)) h1

theorem Evolves.winChkDone {m : WinSample} : Evolves w r (winChkDone m s) := by
  unfold Machine.winChkDone
  split
  · exact h
  · extract_lets s1 s2 _ s3
    have h1 : Evolves w r s1 := h.chkResult
    have h2 : Evolves w r s2 := h1.when fun _ h => h.wrBit.wrBit
    have h3 : Evolves w r s3 := by
      unfold s3
      split
      · exact h2.upd.wr
      · exact h2.upd
    exact h3.winAct.settleTrips

theorem Evolves.winLoad : Evolves w r (winLoad s) :=
  ((h.upd.wr.forEach (fun _ _ h => h.compEval.winAct)).forEach (fun _ _ h => h.wrBit.wrBit)).startChecks.settleTrips

/-! ### PWM -/

theorem Evolves.levelsShow {t : Int} {p : Nat} : Evolves w r (levelsShow t p s) := by
  unfold Machine.levelsShow
  split
  · exact .ite h.wrB.wrB h
  · exact h

theorem Evolves.coarseBoundary {p : Nat} : Evolves w r (coarseBoundary p s) := .ite h.wr.wr (.ite h.wr.wr.logOnce h)
theorem Evolves.driveBoundary {p len on : Nat} {extra : Int} {a : PwmAct} {fresh : Bool} : Evolves w r (driveBoundary p len on extra a fresh s) :=
  .ite h.upd.wrB.wrB h.upd.outputsLow

theorem Evolves.mapsInstall {p : Nat} : Evolves w r (mapsInstall p s) := (h.forEach (fun _ _ h => by
    split
    · exact h.upd
    · exact h))

theorem Evolves.periodBoundary {p k : Nat} : Evolves w r (periodBoundary p k s) := by
  unfold Machine.periodBoundary
  extract_lets s1 _ _ _ _ _ s2 s3 s4 _ _ s5 s6
  have h1 : Evolves w r s1 := h.winPeriodClear.settleTrips
  have h2 : Evolves w r s2 := h1.upd
  have h3 : Evolves w r s3 := h2.wr.wr
  have h4 : Evolves w r s4 := h3.mapsInstall.coarseBoundary
  have h5 : Evolves w r s5 := .ite h4.pairHold h4.wr
  have h6 : Evolves w r s6 := h5.when fun _ h => h.wrMapBit
  exact h6.driveBoundary

theorem Evolves.stretchWave {p : Nat} : Evolves w r (stretchWave p s) := by
  unfold Machine.stretchWave
  extract_lets _ _ s1
  have h1 : Evolves w r s1 := h.upd
  split
  · exact .ite h1.upd h1
  · exact h1

theorem Evolves.pairFrame {p : Nat} : Evolves w r (pairFrame p s) := by
  unfold Machine.pairFrame
  extract_lets _ _ s1
  have h1 : Evolves w r s1 := h.upd
  exact .ite h (.ite (.ite h h.upd) (.ite h (.ite h1.stretchWave h1)))

theorem Evolves.pwmFrame : Evolves w r (pwmFrame s) := h.forEach fun _ _ h => h.pairFrame
theorem Evolves.pairClear {p : Nat} : Evolves w r (pairClear p s) := .ite h (.ite h.wr.logOnce h.wr.wr)
theorem Evolves.pwmForceWrite {wd : Nat} {v : Word} : Evolves w r (pwmForceWrite wd v s) := h.setReg.settleTrips

theorem Evolves.lineMeasured {j : Nat} {m : Option (List (Fin 48))} : Evolves w r (lineMeasured j m s) := by
  unfold Machine.lineMeasured
  extract_lets _ s1
  have h1 : Evolves w r s1 := h.upd
  exact .ite h1 h1.wr.logOnce

theorem Evolves.calFrame : Evolves w r (calFrame s) := h.upd
theorem Evolves.initEnds : Evolves w r (initEnds s) := .ite h.upd h
theorem Evolves.countersStop : Evolves w r (countersStop s) := h.upd

theorem Evolves.pwmLoaded : Evolves w r (pwmLoaded s) := (h.countersStop.upd.forEach (fun _ _ h => by
    extract_lets _ s1
    have h1 : Evolves w r s1 := h.upd
    exact (Evolves.ite h1 h1.wr.wrMapBit))).initEnds.settleTrips

theorem Evolves.pwmPowerUp : Evolves w r (pwmPowerUp s) := h.countersStop.forEach fun _ _ h => (.ite h.wr.wr.wr.wr.outputsLow.wrMapBit h)

/-! ### Gate drive -/

theorem Evolves.validWord {p : Nat} {wd : BitVec 24} : Evolves w r (validWord p wd s) := by
  unfold Machine.validWord
  extract_lets s1 _ s2 s3
  have h1 : Evolves w r s1 := h.wr.wr
  have h2 : Evolves w r s2 := h1.upd
  have h3 : Evolves w r s3 := .ite h2 h2.wr.logEv
  exact h3.settleTrips

theorem Evolves.gateClear {p : Nat} : Evolves w r (gateClear p s) := h.wr.wr.wrMapBit

theorem Evolves.clearingEdge : Evolves w r (clearingEdge s) := by
  unfold Machine.clearingEdge
  extract_lets _ _ c s1 s2 s3
  have h1 : Evolves w r s1 := h.forEach fun _ _ h => h.gateClear
  have h2 : Evolves w r s2 := h1.wr.logEv
  have h3 : Evolves w r s3 := by
    unfold s3
    clear_value c
    split
    · exact h2.wr.logEv
    · exact h2
  exact h3.settleTrips

theorem Evolves.gateBank : Evolves w r (gateBank s) := (h.when (fun _ h => h.logEv)).wrB.settleTrips
theorem Evolves.gateShow : Evolves w r (gateShow s) := (h.forEach (fun _ _ h => h.wr)).wrB.wrB
theorem Evolves.gateLoad : Evolves w r (gateLoad s) := (h.upd.forEach (fun _ _ h => h.gateClear)).settleTrips
theorem Evolves.gateClockLost : Evolves w r (gateClockLost s) := h.upd.forEach fun _ _ h => (h.when (fun _ h => h.wr))

/-! ### Safety I/O -/

theorem Evolves.mmInfo {unit : Nat} {direct ab : Bool} {cycle : Nat} : Evolves w r (mmInfo unit direct ab cycle s) := .ite h h.wr.wr.wrB.wrB.wr

theorem Evolves.engineStops : Evolves w r (engineStops s) := by
  unfold Machine.engineStops
  extract_lets s1
  have h1 : Evolves w r s1 := h.wr
  exact .ite h1.wr h1

theorem Evolves.coreSafe {cause : Nat} : Evolves w r (coreSafe cause s) := h.upd.wr.outputsOff.enterLockout
theorem Evolves.coreMismatch {direct ab : Bool} {cycle : Nat} : Evolves w r (coreMismatch direct ab cycle s) := h.wr.mmInfo.logEv.coreSafe
theorem Evolves.engSafe : Evolves w r (engSafe s) := h.upd.wr.wr.settleTrips
theorem Evolves.engMismatch {direct ab : Bool} {cycle : Nat} : Evolves w r (engMismatch direct ab cycle s) := h.wr.mmInfo.logEv.engSafe
theorem Evolves.bothMismatch {ab : Bool} {cycle : Nat} : Evolves w r (bothMismatch ab cycle s) := h.wr.wr.mmInfo.logEv.coreSafe.engSafe

theorem Evolves.sigTake {b : Nat} {wd : Option SigWindow} : Evolves w r (sigTake b wd s) := by
  unfold Machine.sigTake
  split
  · exact h
  · exact h.upd.inc.setReg.setReg

theorem Evolves.windowsCompare {c e : Option SigWindow} : Evolves w r (windowsCompare c e s) := by
  unfold Machine.windowsCompare
  extract_lets _ s1 s2
  have h1 : Evolves w r s1 := h.upd
  have h2 : Evolves w r s2 := h1.sigTake.sigTake
  split
  · exact h2.bothMismatch
  · exact h2.coreMismatch
  · exact h2.engMismatch
  · exact h2

theorem Evolves.windowsCut : Evolves w r (windowsCut s) := h.upd
theorem Evolves.windowsTake : Evolves w r (windowsTake s) := h.upd
theorem Evolves.sigRead {k : Nat} : Evolves w r (sigRead k s) := h.setReg.answer
theorem Evolves.safetyEffect {a : Nat} {v : Word} : Evolves w r (safetyEffect a v s) :=
  .ite (h.when (fun _ h => h.enterLockout)) (.ite h.w1cWrite (.ite h.wr (.ite h.wr.wr (.ite (h.when (fun _ h => h.upd.wr)) h))))

theorem Evolves.logged {i : Initiator} {kind subject : Nat} {new : BitVec 128} {f : State → State}
    (hf : ∀ s, Evolves w r s → Evolves w r (f s)) :
    Evolves w r (logged i kind subject new f s) :=
  .ite h.answerSt (hf _ h.clogPush)

theorem Evolves.safetyWrite {i : Initiator} {a : Nat} {v : Word} : Evolves w r (safetyWrite i a v s) := (h.writeAdmitted (fun _ h => by
    split
    · exact h.upd
    · exact (h.logged (fun _ h => h.safetyEffect))))

theorem Evolves.releaseChange {a : Nat} {v : Word} : Evolves w r (releaseChange a v s) := .ite h.wr (h.logged (fun _ h => h.safetyEffect))
theorem Evolves.autoTest : Evolves w r (autoTest s) := .ite h.upd.wr h

theorem Evolves.lsTestDone {failA failB : Bool} : Evolves w r (lsTestDone failA failB s) := by
  unfold Machine.lsTestDone
  extract_lets _ _ s1 s2 s3 _ s4 _ s5
  have h1 : Evolves w r s1 := h.upd.wr
  have h2 : Evolves w r s2 := h1.wr.wr
  have h3 : Evolves w r s3 := h2.logEv
  have h4 : Evolves w r s4 := h1.wr.wr
  have h5 : Evolves w r s5 := h4.upd.wr
  exact .ite (.ite h3.wr.coreSafe h3.upd.enterLockout) (.ite h5.safetyPending.settleTrips h4.safetyPending)

theorem Evolves.tpFail {n : Nat} {chB cross : Bool} {source : Nat} : Evolves w r (tpFail n chB cross source s) := h.wrBit.logEv.enterLockout
theorem Evolves.faultBit {n : Nat} {q : SafeIn} : Evolves w r (faultBit n q s) := h.wrBit
theorem Evolves.setIn {n : Nat} {q : SafeIn} : Evolves w r (State.setIn s n q) := h.upd
theorem Evolves.scanRaw {sa sb : BitVec 32} {n : Nat} : Evolves w r (scanRaw sa sb n s) := h.wrBit.wrBit

theorem Evolves.inputState {n : Nat} {runs : Bool} : Evolves w r (inputState n runs s) := by
  unfold Machine.inputState
  extract_lets _ s1 _ s2
  have h1 : Evolves w r s1 := h.wrBit
  have h2 : Evolves w r s2 := h1.wrBit
  exact .ite (.ite h2 h2.setIn.logEv) h1

theorem Evolves.scanInput {n : Nat} : Evolves w r (scanInput n s) := by
  unfold Machine.scanInput
  extract_lets _ _ _ _ _ _ _ _ c c2 _ s1 s2 s3
  have h1 : Evolves w r s1 := h.setIn.faultBit
  have h2 : Evolves w r s2 := by
    unfold s2
    clear_value c
    split
    · exact h1.tpFail
    · exact h1
  have h3 : Evolves w r s3 := by
    unfold s3
    clear_value c2
    split
    · exact h2.tpFail
    · exact h2
  exact h3.inputState

theorem Evolves.evalOutput {n : Nat} : Evolves w r (evalOutput n s) := h.wrBit.wrBit.upd

theorem Evolves.scanReadback {rb : BitVec 16} {n : Nat} : Evolves w r (scanReadback rb n s) := by
  unfold Machine.scanReadback
  extract_lets _ _ _ _ _ s1 s2
  have h1 : Evolves w r s1 := h.upd
  have h2 : Evolves w r s2 := h1.wrBit
  exact .ite h2.wrBit h2

theorem Evolves.scanAck {x : Bool} : Evolves w r (scanAck x s) := by
  unfold Machine.scanAck
  extract_lets _ _ s1 _ s2
  have h1 : Evolves w r s1 := h.wrB
  have h2 : Evolves w r s2 := h1.upd
  exact .ite h1.upd.wrB (.ite h1.upd.wr (.ite h2.wr h2))

theorem Evolves.evalFrame : Evolves w r (evalFrame s) := by
  unfold Machine.evalFrame
  split
  · extract_lets _ s1 _ s2
    have h1 : Evolves w r s1 := h.forEach fun _ _ h => h.evalOutput
    have h2 : Evolves w r s2 := h1.upd.wr
    exact .ite h2 h2.upd
  · exact .ite h h.upd

theorem Evolves.safetyScan {sa sb : BitVec 32} {rb : BitVec 16} {ack : Bool} : Evolves w r (safetyScan sa sb rb ack s) :=
  .ite h (((((h.forEach (fun _ _ h => h.scanRaw)).forEach (fun _ _ h => h.scanInput)).forEach (fun _ _ h => h.wrBit)).forEach
    (fun _ _ h => h.scanReadback)).scanAck.evalFrame.safetyPending.upd)

theorem Evolves.testInput {k : Nat} {sa sb : BitVec 32} {n : Nat} : Evolves w r (testInput k sa sb n s) := by
  unfold Machine.testInput
  extract_lets _ _ _ _ _ s1 s2 s3
  have h1 : Evolves w r s1 := h.setIn.faultBit
  have h2 : Evolves w r s2 := h1.when fun _ h => h.tpFail
  have h3 : Evolves w r s3 := h2.when fun _ h => h.tpFail
  exact .ite h3.inputState h3

theorem Evolves.lockoutRelease : Evolves w r (lockoutRelease s) := h.logEv.wr.wr.wr.inc.safetyPending.settleTrips
theorem Evolves.waitsClear {mask : Nat} : Evolves w r (waitsClear mask s) := h.wr
theorem Evolves.ackPressed : Evolves w r (ackPressed s) :=
  .ite h (.ite (.ite h.waitsClear.evalFrame (.ite h.lockoutRelease.waitsClear.evalFrame h.wr.logEv)) h.wr.logEv)
theorem Evolves.pwFrame : Evolves w r (pwFrame s) := h.upd

/-! ### Analogue acquisition -/

theorem Evolves.setCore {c : Nat} {q : AdcCore} : Evolves w r (State.setCore s c q) := by
  unfold State.setCore
  extract_lets s1 _ s2 s3
  have h1 : Evolves w r s1 := h.upd
  have h2 : Evolves w r s2 := h1.wr.wr
  have h3 : Evolves w r s3 := by
    unfold s3
    split
    · exact h2.wr.wrB
    · exact h2.wr
  exact h3.wr

theorem Evolves.putCore {c : Nat} {q : AdcCore} : Evolves w r (State.putCore s c q) := h.upd
theorem Evolves.corePeriod {p c : Nat} : Evolves w r (corePeriod p c s) := h.putCore
theorem Evolves.adcPeriod {p : Nat} : Evolves w r (adcPeriod p s) := h.forEach fun _ _ h => h.corePeriod
theorem Evolves.eventsGone {gone : Int → Bool} {p c : Nat} : Evolves w r (eventsGone gone p c s) := .ite h h.putCore
theorem Evolves.adcPairStops {p : Nat} : Evolves w r (adcPairStops p s) := h.forEach fun _ _ h => h.eventsGone
theorem Evolves.adcPairsStop : Evolves w r (adcPairsStop s) := h.forEach fun _ _ h => h.adcPairStops

theorem Evolves.adcStretch {old : State} {p : Nat} : Evolves w r (adcStretch old p s) := by
  unfold Machine.adcStretch
  split
  · exact h
  · exact ((h.forEach (fun _ _ h => h.eventsGone)).forEach (fun _ _ h => by
      split
      · exact h
      · exact h.putCore))

theorem Evolves.adcTick {trig : Nat} {t : Int} : Evolves w r (adcTick trig t s) := (h.forEach (fun _ _ h => by
    split
    · exact h
    · exact h.putCore))

theorem Evolves.adcFrame {d : Int} : Evolves w r (adcFrame d s) := h.forEach fun _ _ h => (.ite h h.putCore)
theorem Evolves.startEntry {c : Nat} {x : AdcQ} {k : Int} : Evolves w r (startEntry c x k s) := h.setCore
theorem Evolves.trigOver {c e : Nat} : Evolves w r (trigOver c e s) := h.wr.logOnce
theorem Evolves.enqueueEntry {c : Nat} {x : AdcQ} : Evolves w r (enqueueEntry c x s) := h.setCore

theorem Evolves.urgentRequest {c : Nat} {x : AdcQ} {k : Int} : Evolves w r (urgentRequest c x k s) := by
  unfold Machine.urgentRequest
  extract_lets _ s1
  have h1 : Evolves w r s1 := h.inc.wr.countEv
  split
  · exact h.trigOver
  · split
    · exact .ite h.startEntry h.enqueueEntry
    · exact .ite h.enqueueEntry h1.setCore.enqueueEntry.startEntry

theorem Evolves.triggerEntry {c : Nat} {x : AdcQ} {k : Int} : Evolves w r (triggerEntry c x k s) :=
  .ite h (.ite h.urgentRequest (.ite h.trigOver (.ite h.startEntry h.enqueueEntry)))
theorem Evolves.swTrigWrite {c : Nat} {v : Word} : Evolves w r (swTrigWrite c v s) := h.forEach fun _ _ h => (h.when (fun _ h => h.triggerEntry))
theorem Evolves.urgentWrite {i : Initiator} {c : Nat} {v : Word} : Evolves w r (urgentWrite i c v s) :=
  .ite h.answerSt (.ite h (.ite h.wr.logOnce.answerSt h.urgentRequest))

theorem Evolves.setFrozen {c e : Nat} {v repeatRun : Bool} : Evolves w r (setFrozen c e v repeatRun s) := by
  unfold Machine.setFrozen
  extract_lets _ s1
  have h1 : Evolves w r s1 := h.wrB
  exact .ite h1.wrBit.logOnce h1

theorem Evolves.writeResult {c e cycle : Nat} {q : AdcCore} : Evolves w r (writeResult c e cycle q s) := by
  unfold Machine.writeResult
  extract_lets s1 s2 s3 s4 s5 s6 s7
  have h1 : Evolves w r s1 := h.setCore
  have h2 : Evolves w r s2 := (h1.wrB.when (fun _ h => h.countEv)).countEv
  have h3 : Evolves w r s3 := .ite h2.wr h2
  have h4 : Evolves w r s4 := h3.wr
  have h5 : Evolves w r s5 := h4.wrB
  have h6 : Evolves w r s6 := h5.wrB
  have h7 : Evolves w r s7 := h6.wr.wr
  exact h7.setFrozen

theorem Evolves.stallCheck : Evolves w r (stallCheck s) :=
  h.forEach fun _ _ h => (.ite h (h.forEach (fun _ _ h => (h.when (fun _ h => h.setFrozen)))))
theorem Evolves.ticksForget : Evolves w r (ticksForget s) := h.forEach fun _ _ h => (.ite h h.putCore)

theorem Evolves.refFalls {g : Nat} : Evolves w r (refFalls g s) := by
  unfold Machine.refFalls
  split
  · exact h
  · extract_lets _ s1 s2 s3
    have h1 : Evolves w r s1 := h.wr
    have h2 : Evolves w r s2 := h1.forEach fun _ _ h => h.wr
    have h3 : Evolves w r s3 := h2.forEach fun _ _ h => h.setCore
    exact .ite h3 h3.logOnce

theorem Evolves.setOpen {c m : Nat} {v : Bool} : Evolves w r (setOpen c m v s) := by
  unfold Machine.setOpen
  extract_lets _ s1
  have h1 : Evolves w r s1 := h.wrBit
  exact .ite h1.wrBit.logOnce (.ite h1.logOnce h1)

theorem Evolves.adcClockLost : Evolves w r (adcClockLost s) := h.forEach fun _ _ h => (.ite h h.setCore)
theorem Evolves.adcResume : Evolves w r (adcResume s) := h.forEach fun _ _ h => (.ite h h.putCore)
theorem Evolves.adcCoreOff {c : Nat} : Evolves w r (adcCoreOff c s) := (h.keep (p := fun a => !inCore c a)).upd
theorem Evolves.slaveZero {c : Nat} : Evolves w r (slaveZero c s) :=
  (h.forEach (fun _ _ h => h.setReg.setReg.setReg.setReg)).setReg.forEach fun _ _ h => h.setReg
theorem Evolves.coreTidy {c : Nat} : Evolves w r (coreTidy c s) :=
  ((h.when (fun _ h => h.wr)).wrB.when (fun _ h => h.slaveZero)).when fun _ h => h.setReg
theorem Evolves.adcTidy : Evolves w r (adcTidy s) := h.forEach fun _ _ h => h.coreTidy

theorem Evolves.disturbEval {m : Nat} : Evolves w r (disturbEval m s) := by
  unfold Machine.disturbEval
  extract_lets _ _ _ s1
  have h1 : Evolves w r s1 := h.wrBit
  exact .ite h1.wr.logOnce (.ite h1.setCore h1)

theorem Evolves.disturbAll : Evolves w r (disturbAll s) := (h.forEach (fun _ _ h => by
    split
    · exact h.disturbEval
    · exact h))

theorem Evolves.coresStart {l : List Nat} : Evolves w r (coresStart l s) := (h.adcTidy.forEach (fun _ _ h => h.setCore)).disturbAll
theorem Evolves.adcLoaded : Evolves w r (adcLoaded s) := h.coresStart
theorem Evolves.corePaired {old : State} {c : Nat} : Evolves w r (corePaired old c s) := .ite h h.putCore
theorem Evolves.adcChanged {old : State} : Evolves w r (adcChanged old s) :=
  ((h.adcTidy.forEach (fun _ _ h => h.corePaired)).forEach (fun _ _ h => h.refFalls)).forEach fun _ _ h => h.setCore
theorem Evolves.adcSuspendStall : Evolves w r (adcSuspendStall s) := h.forEach fun _ _ h => (.ite h.putCore h)

/-! ### Debug -/

theorem Evolves.tapTo {code : Nat} : Evolves w r (tapTo code s) := by
  unfold Machine.tapTo
  extract_lets _ _ s1
  have h1 : Evolves w r s1 := h.upd
  exact .ite h1 h1.wr

theorem Evolves.dbgShow : Evolves w r (dbgShow s) := by
  unfold Machine.dbgShow
  extract_lets s1
  have h1 : Evolves w r s1 := h.wr.wrB
  split
  · exact h1.wr
  · exact h1.wr.wr

theorem Evolves.routeWrite {i : Initiator} {a scope : Nat} {limit : Nat → Option Nat} {v : Word} {f : State → State}
    (hf : ∀ s, Evolves w r s → Evolves w r (f s)) :
    Evolves w r (routeWrite i a scope limit v f s) :=
  .ite h (.ite h.refuseLocked (.ite h.answerSt (h.logged (fun _ h => (hf _ h)))))

theorem Evolves.obsRoute {i : Initiator} {n : Nat} {v : Word} : Evolves w r (obsRoute i n v s) := h.routeWrite fun _ h => h.setReg

theorem Evolves.atestPut {n : Nat} {v : Word} : Evolves w r (atestPut n v s) := by
  unfold Machine.atestPut
  extract_lets c s1 s2
  have h1 : Evolves w r s1 := h.setReg
  have h2 : Evolves w r s2 := by
    unfold s2
    clear_value c
    split
    · exact h1.disturbEval
    · exact h1
  split
  · exact h2.disturbEval
  · exact h2

theorem Evolves.atestRoute {i : Initiator} {n : Nat} {v : Word} : Evolves w r (atestRoute i n v s) := h.routeWrite fun _ h => h.atestPut

theorem Evolves.brokenSafety : Evolves w r (brokenSafety s) := by
  unfold Machine.brokenSafety
  split
  · extract_lets s1
    have h1 : Evolves w r s1 := (Evolves.ite h.engineStops h).enterLockout
    exact .ite h1 h1.upd.settleTrips
  · exact h

theorem Evolves.lockstepBroken {unit : Nat} : Evolves w r (lockstepBroken unit s) :=
  ((h.wr.wr.when (fun _ h => h.wr)).when (fun _ h => h.wr)).wr.logEv

theorem Evolves.debugHalt {core eng : Bool} {apps : Nat} : Evolves w r (debugHalt core eng apps s) := by
  unfold Machine.debugHalt
  extract_lets s1 s2 _ s3 s4 s5
  have h1 : Evolves w r s1 := h.wr
  have h2 : Evolves w r s2 := h1.logEv
  have h3 : Evolves w r s3 := h2.upd
  have h4 : Evolves w r s4 := h3.when fun _ h => h.wr
  have h5 : Evolves w r s5 := h4.when fun _ h => h.wr.wr.wr
  exact .ite h2 h5.lockstepBroken.settleTrips.brokenSafety

theorem Evolves.debugResume : Evolves w r (debugResume s) := by
  unfold Machine.debugResume
  extract_lets s1 s2 _ s3 s4 _ s5
  have h1 : Evolves w r s1 := h.when fun _ h => h.upd
  have h2 : Evolves w r s2 := h1.wr
  have h3 : Evolves w r s3 := h2.upd
  have h4 : Evolves w r s4 := h3.wr.wr.wr
  have h5 : Evolves w r s5 := .ite h4 h4.upd
  exact .ite h2 ((h5.when (fun _ h => h.outputsOff)).settleTrips)

theorem Evolves.accessShut : Evolves w r (accessShut s) := ((h.upd.tapTo.forEach (fun _ _ h => h.setReg)).forEach (fun _ _ h => h.atestPut)).dbgShow
theorem Evolves.unlockEnd {reason : Nat} : Evolves w r (unlockEnd reason s) := .ite h h.accessShut.debugResume.logEv

theorem Evolves.unlockFrame : Evolves w r (unlockFrame s) := by
  unfold Machine.unlockFrame
  split
  · exact h.upd.dbgShow
  · exact h

theorem Evolves.dbgLock {i : Initiator} : Evolves w r (dbgLock i s) := by
  unfold Machine.dbgLock
  split
  · exact .ite h.unlockEnd h.answerSt
  · exact h.answerSt

theorem Evolves.tapLoad {code : Nat} : Evolves w r (tapLoad code s) := h.tapTo
theorem Evolves.scanOut : Evolves w r (scanOut s) := .ite h h.send

/-! ### Command engine -/

theorem Evolves.setSess {k : Nat} {x : Sess} : Evolves w r (State.setSess s k x) := h.upd
theorem Evolves.showSessions : Evolves w r (showSessions s) := h.wr
theorem Evolves.setCsp {n : Nat} {x : Csp} : Evolves w r (State.setCsp s n x) := h.upd
theorem Evolves.deliver {transport : Nat} {rv : Response} : Evolves w r (deliver transport rv s) := .ite h.setCsp h.send

theorem Evolves.respond {k opcode tag status : Nat} {final more : Bool} {data : List Byte} :
    Evolves w r (respond k opcode tag status final more data s) :=
  .ite h.setSess.deliver h

theorem Evolves.respondOpen {transport opcode tag status : Nat} {final more : Bool} {data : List Byte} :
    Evolves w r (respondOpen transport opcode tag status final more data s) :=
  h.deliver

theorem Evolves.setOp {k : Nat} {o : LongOp} : Evolves w r (State.setOp s k o) := h.upd
theorem Evolves.showOps : Evolves w r (showOps s) := h.wr.wr
theorem Evolves.opPlace {k state : Nat} {o : LongOp} : Evolves w r (opPlace k state o s) := h.setReg.setReg.wr.wr.wr.wr.wr.setOp.showOps
theorem Evolves.opRespond {o : LongOp} {status : Nat} {final more : Bool} {data : List Byte} : Evolves w r (opRespond o status final more data s) :=
  .ite h.respondOpen h.respond

theorem Evolves.opEnd {k state status : Nat} {data : List Byte} : Evolves w r (opEnd k state status data s) := by
  unfold Machine.opEnd
  split
  · exact h
  · exact ((h.upd.setOp.wr.wr.when (fun _ h => h.wr)).when (fun _ h => h.wr)).logEv.showOps.opRespond

theorem Evolves.opSuspend {k : Nat} : Evolves w r (opSuspend k s) := by
  unfold Machine.opSuspend
  split
  · exact h.setOp.wr
  · exact h

theorem Evolves.freeSession {k : Nat} : Evolves w r (freeSession k s) := (((h.setReg.setSess.forEach (fun _ _ h => by
    split
    · exact .ite h.opSuspend h
    · exact h)).forEach (fun _ _ h => by
    split
    · exact .ite h.setOp.wr h
    · exact h)).upd.when (fun _ h => h.unlockEnd)).showSessions

theorem Evolves.closeSession {k reason : Nat} : Evolves w r (closeSession k reason s) := .ite h.logEv.freeSession h
theorem Evolves.transportLost {transport p : Nat} : Evolves w r (transportLost transport p s) := h.forEach fun _ _ h => h.closeSession

theorem Evolves.rejectFrame {k transport : Nat} : Evolves w r (rejectFrame k transport s) := by
  unfold Machine.rejectFrame
  extract_lets s1 _ _ s2 s3
  have h1 : Evolves w r s1 := h.inc.wr
  have h2 : Evolves w r s2 := h1.when fun _ h => h.logEv
  have h3 : Evolves w r s3 := h2.setSess
  exact .ite (.ite h3.closeSession h3) h1.logOnce

theorem Evolves.sessionIdle {k : Nat} : Evolves w r (sessionIdle k s) := .ite h.closeSession h
theorem Evolves.halfOpenTimeout {k : Nat} : Evolves w r (halfOpenTimeout k s) := .ite h.logEv.closeSession h

theorem Evolves.sessFrame {k : Nat} : Evolves w r (sessFrame k s) := by
  unfold Machine.sessFrame
  extract_lets _ _ s1
  have h1 : Evolves w r s1 := h.setSess
  exact .ite h1.wr h1

theorem Evolves.opFrame {k : Nat} : Evolves w r (opFrame k s) := by
  unfold Machine.opFrame
  split
  · split
    · exact h.setOp
    · exact h.setOp
    · exact h
  · exact h

theorem Evolves.engineFrame : Evolves w r (engineFrame s) := ((h.forEach (fun _ _ h => h.sessFrame)).forEach (fun _ _ h => h.opFrame)).upd
theorem Evolves.appCoresStop : Evolves w r (appCoresStop s) := (h.forEach (fun _ _ h => h.closeSession)).wr
theorem Evolves.opFail {k : Nat} : Evolves w r (opFail k s) := h.opEnd
theorem Evolves.opsFail : Evolves w r (opsFail s) := h.forEach fun _ _ h => h.opFail
theorem Evolves.waitsDrop : Evolves w r (waitsDrop s) := h.upd
theorem Evolves.coresServe : Evolves w r (coresServe s) := .ite h h.wr
theorem Evolves.appCoresRestart : Evolves w r (appCoresRestart s) := .ite h.opsFail.waitsDrop.coresServe.showOps h
theorem Evolves.firmwareStart : Evolves w r (firmwareStart s) := h.wr
theorem Evolves.recoveryServe : Evolves w r (recoveryServe s) := h.setReg.wr
omit h in
theorem Evolves.zeroise (h : Evolves true r s) : Evolves true r (zeroise s) := h.updStores

/-! ### Serial ports -/

theorem Evolves.cspShow {n : Nat} : Evolves w r (cspShow n s) := h.wr.wr
theorem Evolves.cspPush {n : Nat} {v : Word} : Evolves w r (cspPush n v s) := .ite h (.ite h.wr h.setCsp.cspShow)

theorem Evolves.cspPop {n : Nat} : Evolves w r (cspPop n s) := by
  unfold Machine.cspPop
  split
  · exact h.answer
  · split
    · exact h.wr.answer
    · exact h.setCsp.cspShow.answer

theorem Evolves.cspLenPop {n : Nat} : Evolves w r (cspLenPop n s) := by
  unfold Machine.cspLenPop
  split
  · exact h.answer
  · split
    · exact h.wr.answer
    · exact h.setCsp.answer

theorem Evolves.cspReceive {n : Nat} {l : List Word} : Evolves w r (cspReceive n l s) := by
  unfold Machine.cspReceive
  extract_lets _ s1
  have h1 : Evolves w r s1 := h.setCsp
  exact (Evolves.ite h1.wr h1).cspShow

theorem Evolves.cspXferWrite {n : Nat} {v : Word} : Evolves w r (cspXferWrite n v s) := by
  unfold Machine.cspXferWrite
  split
  · exact h
  · extract_lets s1 _ _ s2
    have h1 : Evolves w r s1 := h.wr
    have h2 : Evolves w r s2 := h1.setCsp
    exact .ite h1 (.ite h1.wr h2.wr.send.cspShow)

theorem Evolves.cspSlave {n bits : Nat} {rx : List Word} : Evolves w r (cspSlave n bits rx s) := by
  unfold Machine.cspSlave
  extract_lets _ _ s1 s2 s3 s4
  have h1 : Evolves w r s1 := .ite h.wr h
  have h2 : Evolves w r s2 := h1.setCsp.send
  have h3 : Evolves w r s3 := .ite h2.wr h2
  have h4 : Evolves w r s4 := h3.cspReceive
  exact h4.setCsp

theorem Evolves.cspFrame {n bits len : Nat} : Evolves w r (cspFrame n bits len s) := by
  unfold Machine.cspFrame
  extract_lets s1
  have h1 : Evolves w r s1 := .ite h.wr h
  split
  · exact h1
  · exact .ite h1.setCsp.send h1

/-! ### Boot flash and boot record -/

theorem Evolves.norSend {l : List Out} : Evolves w r (norSend l s) := h.upd

theorem Evolves.showSlots : Evolves w r (showSlots s) := by
  unfold Machine.showSlots
  extract_lets _ s1
  have h1 : Evolves w r s1 := h.wr.wr
  split
  · exact h1.wr.forEach fun _ _ h => h.wr
  · exact h1.wr.forEach fun _ _ h => h.wr

theorem Evolves.nbrPendEval {g : Nat} : Evolves w r (nbrPendEval g s) := h.wrBit

theorem Evolves.showPending : Evolves w r (showPending s) := by
  unfold Machine.showPending
  split
  · exact h.wr.wrB.wr64.forEach fun _ _ h => h.nbrPendEval
  · exact h.wr.wr.wr64.forEach fun _ _ h => h.nbrPendEval

omit h in
theorem Evolves.saveRec (h : Evolves true r s) {rv : BootRec} : Evolves true r (saveRec rv s) := h.norSend.updStores.showSlots.showPending
theorem Evolves.showActive : Evolves w r (showActive s) := h.wr.forEach fun _ _ h => h.wr

/-! ### Ports and buffers -/

theorem Evolves.countRx {p len : Nat} : Evolves w r (countRx p len s) := h.bump.bump
theorem Evolves.countTx {p len : Nat} : Evolves w r (countTx p len s) := h.bump.bump
theorem Evolves.dropRx {p : Nat} : Evolves w r (dropRx p s) := h.bump
theorem Evolves.dropTx {p : Nat} : Evolves w r (dropTx p s) := h.bump
theorem Evolves.setCq {g : Nat} {q : CellQ} : Evolves w r (State.setCq s g q) := h.upd

theorem Evolves.queueOn {c : Cell} {g : Nat} : Evolves w r (queueOn c g s) := by
  unfold Machine.queueOn
  extract_lets
  split
  · exact h.setCq
  · exact .ite h.inc.logEv h.setCq.wr

theorem Evolves.sendCell {body : CellBody} {reach dest : Nat} {groups : List Nat} : Evolves w r (sendCell body reach dest groups s) :=
  h.upd.forEach fun _ _ h => h.queueOn
theorem Evolves.floodCell {body : CellBody} : Evolves w r (floodCell body s) := h.sendCell
theorem Evolves.unicastCell {body : CellBody} {dest : Nat} : Evolves w r (unicastCell body dest s) := h.sendCell
theorem Evolves.nbrCell {body : CellBody} {g : Nat} : Evolves w r (nbrCell body g s) := h.sendCell

theorem Evolves.useUp {plot : Option Nat} {cells : Nat} : Evolves w r (useUp plot cells s) := by
  unfold Machine.useUp
  split
  · exact h.wr.wr
  · exact h

theorem Evolves.useDown {plot : Option Nat} {cells : Nat} : Evolves w r (useDown plot cells s) := by
  unfold Machine.useDown
  split
  · exact h.wr.wr
  · exact h

theorem Evolves.bufRelease {b : Nat} : Evolves w r (bufRelease b s) := by
  unfold Machine.bufRelease
  split
  · exact h
  · exact .ite h.upd.useDown h.upd

theorem Evolves.setPq {p : Nat} {q : PortQ} : Evolves w r (State.setPq s p q) := h.upd

theorem Evolves.intake {inp : Nat} {f : Frame} {dests : List (Nat × Option RingTag)} : Evolves w r (intake inp f dests s) := by
  unfold Machine.intake
  split
  · exact h
  · split
    · exact h.upd.useUp.foldl fun _ _ h => h.setPq
    · extract_lets s1
      have h1 : Evolves w r s1 := h.dropRx
      split
      · exact h1.inc.countEv
      · exact h1

theorem Evolves.flushPort {p : Nat} : Evolves w r (flushPort p s) := h.setPq.foldl fun _ _ h => h.dropTx.bufRelease

theorem Evolves.quenchOut {p : Nat} {x : QFrame} : Evolves w r (quenchOut p x s) := by
  unfold Machine.quenchOut
  extract_lets s1
  have h1 : Evolves w r s1 := h.dropTx.bufRelease
  split
  · exact h1.inc
  · exact h1

theorem Evolves.quenchFlush {p : Nat} : Evolves w r (quenchFlush p s) := .ite h (h.setPq.foldl (fun _ _ h => h.quenchOut))

theorem Evolves.portServe {p k : Nat} : Evolves w r (portServe p k s) := by
  induction k generalizing s with
  | zero => exact h
  | succ k ih =>
    unfold Machine.portServe
    split
    · exact h
    · split
      · exact h
      · split
        · exact h
        · exact ih h.setPq.bufRelease.countTx.send

theorem Evolves.portFrame {p : Nat} : Evolves w r (portFrame p s) := by
  unfold Machine.portFrame
  extract_lets s1 _ _ s2
  have h1 : Evolves w r s1 := h.quenchFlush
  have h2 : Evolves w r s2 := h1.setPq.portServe
  exact .ite (.ite h1 h1.setPq) (.ite h1 (.ite h2.free.bump h2))

/-! ### Lantern core -/

theorem Evolves.rtcCount {n : Nat} : Evolves w r (rtcCount n s) := h.upd
theorem Evolves.rtcAdvance {ns : Nat} : Evolves w r (rtcAdvance ns s) := h.upd.rtcCount
theorem Evolves.wakeSet {bit : Nat} {on : Bool} : Evolves w r (wakeSet bit on s) := h.upd

theorem Evolves.wakeTimer {n : Int} : Evolves w r (wakeTimer n s) := by
  unfold Machine.wakeTimer
  split
  · extract_lets _ s1
    have h1 : Evolves w r s1 := h.upd
    exact .ite h1.wakeSet h1
  · exact h

theorem Evolves.sleepPass {n : Nat} : Evolves w r (sleepPass n s) := .ite h h.upd.rtcCount.wakeTimer
theorem Evolves.holdStop {rv : Nat} : Evolves w r (holdStop rv s) := .ite h.upd.wr h
theorem Evolves.holdEval {rv : Nat} : Evolves w r (holdEval rv s) := .ite (.ite h h.upd.wr) h.holdStop
theorem Evolves.supplyEval : Evolves w r (supplyEval s) := h.wr
theorem Evolves.lanternSleep {orderly : Bool} : Evolves w r (lanternSleep orderly s) := h.wrB.upd.logEv

/-! ### Rings -/

theorem Evolves.setIns {rv : Nat} {x : RingIns} : Evolves w r (State.setIns s rv x) := h.upd
theorem Evolves.setGrp {g : Nat} {x : GroupSt} : Evolves w r (State.setGrp s g x) := h.upd
theorem Evolves.setGroup {g st : Nat} : Evolves w r (setGroup g st s) := h.wr
theorem Evolves.insTo {rv st : Nat} : Evolves w r (insTo rv st s) := h.setIns.wr.wrB
theorem Evolves.sideLanes {g st : Nat} : Evolves w r (sideLanes g st s) := h.forEach fun _ _ h => h.wr
theorem Evolves.wakeGroup {g : Nat} {received : Bool} : Evolves w r (wakeGroup g received s) :=
  .ite ((h.when (fun _ h => h.nbrCell)).setGrp.setGroup.sideLanes.logEv) h.setGrp
theorem Evolves.showBreaks {rv : Nat} : Evolves w r (showBreaks rv s) := (h.forEach (fun _ _ h => h.setReg)).wr.wrB.when fun _ h => h.logEv
theorem Evolves.breakAdd {rv span : Nat} {planned drowse : Bool} : Evolves w r (breakAdd rv span planned drowse s) :=
  (Evolves.ite h.setIns h.setIns.wr).showBreaks.forEach fun _ _ h => h.wakeGroup
theorem Evolves.breakHeal {rv span : Nat} : Evolves w r (breakHeal rv span s) := h.setIns.showBreaks
theorem Evolves.nextSeq : Evolves w r (nextSeq s) := h.upd
theorem Evolves.sendBreak {rv span : Nat} {planned drowse : Bool} : Evolves w r (sendBreak rv span planned drowse s) := h.floodCell.nextSeq
theorem Evolves.sendHeal {rv span : Nat} : Evolves w r (sendHeal rv span s) := h.floodCell.nextSeq
theorem Evolves.planFell {rv span : Nat} : Evolves w r (planFell rv span s) := h.setIns
theorem Evolves.groupFall {g : Nat} : Evolves w r (groupFall g s) :=
  (Evolves.ite h h.upd).setGroup.wr.setGrp.flushPort.wr.breakAdd.planFell.sendBreak.wakeGroup
theorem Evolves.synceEval : Evolves w r (synceEval s) := h.wrB.wrB
theorem Evolves.portFall {p : Nat} : Evolves w r (portFall p s) := .ite h.wr.inc.flushPort.transportLost h
theorem Evolves.sentinelLost {g cause : Nat} : Evolves w r (sentinelLost g cause s) := h.sideLanes.setGroup.wr.wr.logEv.setIns.showBreaks.wakeGroup

theorem Evolves.laneLoses {l cause : Nat} : Evolves w r (laneLoses l cause s) := by
  unfold Machine.laneLoses
  extract_lets s1 s2
  have h1 : Evolves w r s1 := .ite h.wr h
  have h2 : Evolves w r s2 := .ite h1.wr.wr h1
  exact h2.synceEval

theorem Evolves.laneDown {l cause : Nat} : Evolves w r (laneDown l cause s) := by
  unfold Machine.laneDown
  extract_lets _ s1
  have h1 : Evolves w r s1 := h.wr.laneLoses
  split
  · exact h
  · split
    · exact h.laneLoses
    · split
      · exact h1
      · extract_lets s2
        have h2 : Evolves w r s2 := h1.portFall
        exact .ite h2.sentinelLost h2

theorem Evolves.lanesDown {l : List Nat} : Evolves w r (lanesDown l s) :=
  (h.forEach (fun _ _ h => h.laneDown)).forEach fun _ _ h => (.ite h.logEv.groupFall h)
theorem Evolves.sendNbrId {g : Nat} : Evolves w r (sendNbrId g s) := h.setGrp.nbrCell
theorem Evolves.groupUp {g : Nat} : Evolves w r (groupUp g s) := .ite h.setGroup (.ite h.setGroup.wr.sendNbrId h)

theorem Evolves.nbrIdRx {g node ins size : Nat} : Evolves w r (nbrIdRx g node ins size s) := by
  unfold Machine.nbrIdRx
  extract_lets _ s1 s2 _ s3 s4 _ s5
  have h1 : Evolves w r s1 := h.groupFall
  have h2 : Evolves w r s2 := h1.wr.logEv
  have h3 : Evolves w r s3 := .ite h h.logEv
  have h4 : Evolves w r s4 := h3.wr.wr
  have h5 : Evolves w r s5 := h4.setGrp
  exact .ite h (.ite h2.setGrp (.ite h5.setIns h5))

theorem Evolves.ringBreakRx {rv span : Nat} {planned drowse : Bool} : Evolves w r (ringBreakRx rv span planned drowse s) := h.breakAdd.logEv
theorem Evolves.ringHealRx {rv span : Nat} : Evolves w r (ringHealRx rv span s) := h.breakHeal.logEv
theorem Evolves.sendPlan {rv : Nat} : Evolves w r (sendPlan rv s) := (h.forEach (fun _ _ h => (.ite h.nbrCell h))).setIns

theorem Evolves.selfBypass {rv : Nat} : Evolves w r (selfBypass rv s) := by
  unfold Machine.selfBypass
  extract_lets _ _ _ s1 s2 _ s3
  have h1 : Evolves w r s1 := h.setIns.insTo
  have h2 : Evolves w r s2 := h1.forEach fun _ _ h => h.setGroup
  have h3 : Evolves w r s3 := .ite h2.upd h2
  exact h3.wr.logEv

theorem Evolves.insertPlanRx {g rv : Nat} : Evolves w r (insertPlanRx g rv s) := h.breakAdd.sendBreak
theorem Evolves.leaveRings {mask : Nat} : Evolves w r (leaveRings mask s) :=
  .ite h ((h.forEach (fun _ _ h => (h.forEach (fun _ _ h => (.ite h.nbrCell h))).setIns.insTo)).logEv)
theorem Evolves.leaveForReset {cause : Nat} : Evolves w r (leaveForReset cause s) := h.leaveRings.upd

theorem Evolves.withdrawHolds : Evolves w r (withdrawHolds s) := (h.forEach (fun _ _ h => by
    split
    · exact .ite h.setIns.wr h
    · exact h))

theorem Evolves.ringMissed {jump : Nat → Bool} : Evolves w r (ringMissed jump s) := (((h.forEach (fun _ _ h => by
    split
    · exact h.when fun _ h => h.setIns
    · exact h)).forEach (fun _ _ h => by
    split
    · exact h.when fun _ h => (h.setIns.when (fun _ h => h.insTo))
    · exact h)).forEach (fun _ _ h => by
    split
    · exact h.when fun _ h => h.setGrp
    · exact h))

theorem Evolves.insertCmd {mask : Nat} : Evolves w r (insertCmd mask s) := h.forEach fun _ _ h => (h.when (fun _ h => h.setIns))
theorem Evolves.wakeCmd {mask : Nat} : Evolves w r (wakeCmd mask s) := h.forEach fun _ _ h => (h.when (fun _ h => h.wakeGroup))

theorem Evolves.ringTake {cmd target : Nat} : Evolves w r (ringTake cmd target s) := by
  unfold Machine.ringTake
  extract_lets s1
  have h1 : Evolves w r s1 := h.wr.wr
  split
  · exact h1.leaveRings
  · exact h1.insertCmd
  · exact h1.wakeCmd
  · exact h1

theorem Evolves.ringCommand {cmd target : Nat} : Evolves w r (ringCommand cmd target s) := h.wr.wr
theorem Evolves.leaveRx {g rings : Nat} : Evolves w r (leaveRx g rings s) :=
  h.forEach fun _ _ h => (.ite (h.setIns.forEach (fun _ _ h => h.breakAdd.sendBreak)) h)
theorem Evolves.drowseAgree {g q : Nat} : Evolves w r (drowseAgree g q s) := h.setGrp.setGroup.sideLanes.breakAdd.sendBreak.logEv
theorem Evolves.drowseReqRx {g q : Nat} {loadOk : Bool} : Evolves w r (drowseReqRx g q loadOk s) := .ite h.nbrCell.drowseAgree h.free.nbrCell
theorem Evolves.drowseReqAt {g q : Nat} {loadOk : Bool} : Evolves w r (drowseReqAt g q loadOk s) := .ite h.drowseReqRx h

theorem Evolves.drowseAckRx {g q : Nat} : Evolves w r (drowseAckRx g q s) := by
  unfold Machine.drowseAckRx
  split
  · exact .ite h.drowseAgree h
  · exact h

theorem Evolves.drowseNakRx {g : Nat} : Evolves w r (drowseNakRx g s) := h.setGrp
theorem Evolves.sideAligned {g : Nat} : Evolves w r (sideAligned g s) := h.forEach fun _ _ h => h.wr.wr.wr.wr

theorem Evolves.forwardingStop : Evolves w r (forwardingStop s) :=
  .ite h (((((h.upd.forEach (fun _ _ h => (.ite h.wr h))).forEach (fun _ _ h => (.ite h.wr.inc.transportLost h))).forEach
    (fun _ _ h => h.setGroup.wr)).forEach (fun _ _ h => h.setIns.insTo)).synceEval)

theorem Evolves.forwardingResume : Evolves w r (forwardingResume s) :=
  .ite h ((h.upd.forEach (fun _ _ h => h.flushPort)).forEach (fun _ _ h => (.ite h.wr h)))
theorem Evolves.lanesOn {g : Nat} : Evolves w r (lanesOn g s) := h.forEach fun _ _ h => (.ite h.wr h)
theorem Evolves.lanesOff {g : Nat} : Evolves w r (lanesOff g s) := (h.lanesDown.forEach (fun _ _ h => h.setReg)).synceEval

theorem Evolves.ringCounts {rv : Nat} : Evolves w r (ringCounts rv s) := by
  unfold Machine.ringCounts
  extract_lets _ _ _ _ s1
  have h1 : Evolves w r s1 := h.setIns
  exact .ite h1 h1.showBreaks

theorem Evolves.laneCodewords {l : Nat} : Evolves w r (laneCodewords l s) := .ite h.free.incBy.free.incBy h

theorem Evolves.arrivedTake : Evolves w r (arrivedTake s) := (h.upd.foldl (fun _ _ h => by
    split
    · exact h.ringBreakRx
    · exact h.ringHealRx
    · exact h))

theorem Evolves.ringFrame : Evolves w r (ringFrame s) := by
  unfold Machine.ringFrame
  extract_lets s1 _ s2 s3
  have h1 : Evolves w r s1 := .ite h h.ringTake
  have h2 : Evolves w r s2 := h1.upd.arrivedTake.forEach fun _ _ h => h.ringCounts
  have h3 : Evolves w r s3 := h2.forEach fun _ _ h => h.setGrp
  exact .ite h1 (h3.forEach (fun _ _ h => h.laneCodewords))

/-! ### Plots -/

theorem Evolves.setBank {b : Nat} {t : Tab (Option FdbEntry)} : Evolves w r (State.setBank s b t) := .ite h.upd h.upd
theorem Evolves.fdbPut {b k : Nat} {e : Option FdbEntry} : Evolves w r (fdbPut b k e s) := h.setBank

theorem Evolves.fdbLearn {p mac type node port : Nat} : Evolves w r (fdbLearn p mac type node port s) :=
  (Evolves.ite h (Evolves.ite h.inc ((Evolves.ite h.countEv h).forEach (fun _ _ h => by
    split
    · exact .ite h h.fdbPut
    · exact h.fdbPut))))

theorem Evolves.fdbLookup {p da pipe : Nat} : Evolves w r (fdbLookup p da pipe s).2 := by
  have put : ∀ b s, Evolves w r s → Evolves w r (match fdbGet s b (fdbKey p da) with
      | some x => Machine.fdbPut b (fdbKey p da) (some { x with hitAt := s.fn }) s | none => s) := by
    intro b s h
    split
    · exact h.fdbPut
    · exact h
  unfold Machine.fdbLookup
  extract_lets k s1
  have h1 : Evolves w r s1 := h.countEv
  split
  · exact h1
  · exact h1.forEach put

theorem Evolves.fdbWritable {f : State → State} (hf : ∀ s, Evolves w r s → Evolves w r (f s)) : Evolves w r (fdbWritable f s) :=
  .ite h.wr.wr.logEv (hf _ h)
theorem Evolves.fdbWrite : Evolves w r (fdbWrite s) := h.fdbWritable fun _ h => (.ite h.fdbPut.wr (.ite h.wr h.fdbPut.wr))

theorem Evolves.fdbRead : Evolves w r (fdbRead s) := by
  unfold Machine.fdbRead
  split
  · exact h.wr.wrB.wr.wr.wr.wr
  · exact h.setReg.wr

theorem Evolves.fdbDelete : Evolves w r (fdbDelete s) := h.fdbWritable fun _ h => (.ite h.fdbPut.wr h.wr)
theorem Evolves.fdbArm : Evolves w r (fdbArm s) := .ite h.answerSt (.ite h.answerSt h.upd.wr)
theorem Evolves.fdbDisarm : Evolves w r (fdbDisarm s) := h.upd.wr
theorem Evolves.fdbCopy : Evolves w r (fdbCopy s) := h.fdbWritable fun _ h => h.wr

theorem Evolves.fdbCommand {cmd : Nat} : Evolves w r (fdbCommand cmd s) := by
  unfold Machine.fdbCommand
  split
  · exact h.fdbArm
  · exact h.fdbDisarm
  · exact h.fdbCopy
  · exact h.fdbWrite
  · exact h.fdbRead
  · exact h.fdbDelete
  · exact h

theorem Evolves.fdbDiscard {reason : Nat} : Evolves w r (fdbDiscard reason s) := h.fdbDisarm.wr.logEv
theorem Evolves.fdbSwapNow : Evolves w r (fdbSwapNow s) := h.fdbDisarm.wr.wr.logEv
theorem Evolves.fdbRepitch {p : Nat} {content : List Byte} : Evolves w r (fdbRepitch p content s) :=
  h.forEach fun _ _ h => (h.setBank.foldl (fun _ _ h => h.fdbPut))
theorem Evolves.setMiss {p c : Nat} {m : Nat × Nat} : Evolves w r (setMiss p c m s) := h.upd
theorem Evolves.polFull {p : Nat} : Evolves w r (polFull p s) := h.upd.forEach fun _ _ h => h.setMiss
theorem Evolves.polFrame : Evolves w r (polFrame s) := h.upd
theorem Evolves.polTakeOne {p c : Nat} : Evolves w r (polTakeOne p c s) := h.upd.setMiss
theorem Evolves.polTake : Evolves w r (polTake s) := h.forEach fun _ _ h => h.polTakeOne
theorem Evolves.polWrite {p c : Nat} {burst : Bool} {v : Word} : Evolves w r (polWrite p c burst v s) := h.upd.setReg

theorem Evolves.police {p c len : Nat} : Evolves w r (police p c len s).2 := by
  unfold Machine.police
  extract_lets size m colour
  have hc : Evolves w r colour.2 := by
    unfold colour
    split
    · exact h
    · split
      · exact h
      · split <;> exact h.setMiss
  clear_value colour
  split
  · exact hc
  · split
    · exact hc
    · extract_lets t
      split
      · exact hc
      · exact hc.setMiss

theorem Evolves.quenchDrop {p inp : Nat} : Evolves w r (quenchDrop p inp s) := h.inc.dropRx

theorem Evolves.tenantFrame {l p : Nat} {tag : Option Nat} {da sa len : Nat} : Evolves w r (tenantFrame l p tag da sa len s) := by
  unfold Machine.tenantFrame
  split
  · exact h.dropRx
  · split
    · exact h.quenchDrop
    · extract_lets c
      have hp : Evolves w r (Machine.police p c len s).2 := h.police
      split
      · next heq =>
        rw [heq] at hp
        exact hp.inc.dropRx.countEv
      · next y s1 heq =>
        rw [heq] at hp
        extract_lets s2 s3
        have h2 : Evolves w r s2 := hp.when fun _ h => h.countEv
        have h3 : Evolves w r s3 := h2.fdbLearn
        have hl : Evolves w r (Machine.fdbLookup p da (l / 32) s3).2 := h3.fdbLookup
        split
        next entry s4 heq =>
        rw [heq] at hl
        split
        extract_lets s5 lost
        have h5 : Evolves w r s5 := hl.when fun _ h => h.countEv
        split
        · exact h5.dropRx
        · exact (h5.forEach fun _ _ h => h.dropTx).intake

theorem Evolves.ringPlotFrame {g p : Nat} {tag : RingTag} {f : Frame} : Evolves w r (ringPlotFrame g p tag f s) := by
  unfold Machine.ringPlotFrame
  split
  · exact h.dropRx
  · split
    · exact h.quenchDrop
    · extract_lets here s1
      have h1 : Evolves w r s1 := h.when fun _ h => h.fdbLearn
      have hf : Evolves w r (if tag.dst = nodeNo s1 then Machine.fdbLookup p f.da (g / 2) s1 else (none, s1)).2 := by
        split
        · exact h1.fdbLookup
        · exact h1
      generalize (if tag.dst = nodeNo s1 then Machine.fdbLookup p f.da (g / 2) s1 else (none, s1)) = found at hf ⊢
      split
      extract_lets copies go
      exact .ite (.ite hf hf.dropRx) hf.intake

theorem Evolves.ringMgmtFrame {g : Nat} {tag : RingTag} {f : Frame} : Evolves w r (ringMgmtFrame g tag f s) := by
  unfold Machine.ringMgmtFrame
  extract_lets s1
  have h1 : Evolves w r s1 := h.when fun _ h => h.send
  exact .ite h1 (.ite (.ite h1 h1.dropRx) h1.intake)

theorem Evolves.plotRelease {p : Nat} : Evolves w r (plotRelease p s) := h.wr.wr.setReg.setReg.polFull.logEv
theorem Evolves.plotThrottle {p rv : Nat} : Evolves w r (plotThrottle p rv s) := h.wrB.wr.wr.wr.wr.setMiss.logEv

theorem Evolves.plotCommand {c : PlotCmd} : Evolves w r (plotCommand c s) := by
  unfold Machine.plotCommand
  split
  · exact h.wr.logEv
  · exact h.plotThrottle
  · exact h.plotRelease
  · exact h.wr.logEv
  · exact h.wr.logEv
  · exact h

theorem Evolves.plotCommandsTake : Evolves w r (plotCommandsTake s) := h.upd.foldl fun _ _ h => h.plotCommand
theorem Evolves.plotDueFrame : Evolves w r (plotDueFrame s) := h.upd

theorem Evolves.ctlFrame : Evolves w r (ctlFrame s) := by
  unfold Machine.ctlFrame
  extract_lets s1 _ s2 _ _ s3 _ _ s4
  have h1 : Evolves w r s1 := h.plotDueFrame
  have h2 : Evolves w r s2 := .ite h1 h1.logEv
  have h3 : Evolves w r s3 := h2.wr.wr.wr
  have h4 : Evolves w r s4 := .ite h2 (.ite h3.upd.logEv h3)
  exact .ite h1 (h4.forEach (fun _ _ h => h.setCq))

theorem Evolves.plotsFrame : Evolves w r (plotsFrame s) := .ite h.polTake (h.polFrame.polTake.forEach (fun _ _ h => h.portFrame))

/-! ### Performance counters -/

theorem Evolves.pcSelWrite {i : Initiator} {c : Nat} {v : Word} : Evolves w r (pcSelWrite i c v s) := .ite h.answerSt (.ite h.answerSt h.setReg.upd)
theorem Evolves.cntLoWrite {c : Nat} {v : Word} : Evolves w r (cntLoWrite c v s) := h.upd
theorem Evolves.cntHiWrite {c : Nat} {v : Word} : Evolves w r (cntHiWrite c v s) := .ite h.answerSt h.setWide.upd
theorem Evolves.counterLoRead {i : Initiator} {a : Nat} : Evolves w r (counterLoRead i a s) := h.latchRead
theorem Evolves.counterOvf {c : Nat} : Evolves w r (counterOvf c s) := .ite (h.upd.wrMapBit.when (fun _ h => h.send)) h
theorem Evolves.bwRestart : Evolves w r (bwRestart s) := h.forEach fun _ _ h => h.upd
theorem Evolves.bwSub : Evolves w r (bwSub s) := h.forEach fun _ _ h => h.upd
theorem Evolves.bwLatch {wd : Nat} : Evolves w r (bwLatch wd s) := (h.forEach (fun _ _ h => (.ite h.wr.wr.wr h.wr.wr.wr))).wr
theorem Evolves.bwNext : Evolves w r (bwNext s) := h.forEach fun _ _ h => h.upd
theorem Evolves.bwWindowEnd : Evolves w r (bwWindowEnd s) := .ite ((h.when (fun _ h => h.bwLatch)).upd.bwNext) h
theorem Evolves.counterCommand {cmd : Nat} : Evolves w r (counterCommand cmd s) := .ite h.answerSt h.wr
theorem Evolves.snapTake : Evolves w r (snapTake s) := (Evolves.ite h (h.forEach (fun _ _ h => h.wr))).upd

theorem Evolves.snapShow {hd : Held} : Evolves w r (snapShow hd s) := by
  unfold Machine.snapShow
  extract_lets _ _ s1 s2 s3
  have h1 : Evolves w r s1 := h.upd
  have h2 : Evolves w r s2 := h1.forEach fun _ _ h => h.setWide
  have h3 : Evolves w r s3 := .ite h2.wr (h2.forEach (fun _ _ h => h.setReg.setReg))
  exact h3.wr64.wr

theorem Evolves.snapshotDue : Evolves w r (snapshotDue s) := by
  unfold Machine.snapshotDue
  extract_lets s1
  have h1 : Evolves w r s1 := h.when fun _ h => h.snapTake
  split
  · exact h1.snapShow
  · exact h1

theorem Evolves.snapMiss {f : Nat} : Evolves w r (snapMiss f s) := h.upd.wr.logEv

theorem Evolves.snapMissed : Evolves w r (snapMissed s) := by
  unfold Machine.snapMissed
  split
  · exact .ite h (.ite h h.snapMiss)
  · exact h

theorem Evolves.coreEvents : Evolves w r (coreEvents s) := .ite h (h.forEach (fun _ _ h => (.ite h.free.countSel h)))

theorem Evolves.counterTake : Evolves w r (counterTake s) := by
  unfold Machine.counterTake
  extract_lets c _ s1 _ s2 s3
  have h1 : Evolves w r s1 := h.wr
  have h2 : Evolves w r s2 := by
    unfold s2
    generalize c = n
    split
    · exact h1.upd
    · exact .ite h1.upd h1.snapMiss
    · exact h1
  have h3 : Evolves w r s3 := h2.when fun _ h => h.snapTake
  exact .ite h3.wr (.ite h3.wr h3)

theorem Evolves.perfFrame : Evolves w r (perfFrame s) := by
  unfold Machine.perfFrame
  extract_lets s1 s2 _ s3 s4
  have h1 : Evolves w r s1 := h.coreEvents.bwWindowEnd
  have h2 : Evolves w r s2 := by
    unfold s2
    split
    · exact h1.snapShow.counterTake
    · exact h1.counterTake
  have h3 : Evolves w r s3 := .ite h2 h2.upd.wr.bwRestart
  have h4 : Evolves w r s4 := .ite h3.bwSub h3
  exact .ite h4.upd h4

/-! ### Loop engine -/

theorem Evolves.setSlot {n : Nat} {q : LoopSlot} : Evolves w r (State.setSlot s n q) := h.upd
theorem Evolves.setBankWord {b o : Nat} {wd : Word} : Evolves w r (State.setBankWord s b o wd) := .ite h.upd h.upd
theorem Evolves.setUnit {u : Nat} {q : GsUnit} : Evolves w r (State.setUnit s u q) := h.upd
theorem Evolves.zeroSections {n : Nat} : Evolves w r (zeroSections n s) := h.upd
theorem Evolves.slotHalt {n : Nat} : Evolves w r (slotHalt n s) := h.setReg.wr.wr.wr.wrMapBit.wr.zeroSections
theorem Evolves.slotSat {n : Nat} : Evolves w r (slotSat n s) := (Evolves.ite h h.wr.wr).logOnce
theorem Evolves.rampStep {n : Nat} : Evolves w r (rampStep n s) := .ite h.slotHalt h.setReg.wr

theorem Evolves.slotStaleResp {n causes : Nat} : Evolves w r (slotStaleResp n causes s) := by
  unfold Machine.slotStaleResp
  extract_lets s1 _ s2 _ _ _ c s3 s4
  have h1 : Evolves w r s1 := h.wr.wr.wrMapBit
  have h2 : Evolves w r s2 := h1.upd.countEv
  have h3 : Evolves w r s3 := h2.wr
  have h4 : Evolves w r s4 := .ite h3.wr.logEv h3
  split
  · exact h2
  · split
    · exact h3
    · clear_value c
      split
      · exact h4.rampStep
      · exact h4.settleTrips.slotHalt
      · exact h4

theorem Evolves.slotCompute {n : Nat} {fb ff tgt : Int} : Evolves w r (slotCompute n fb ff tgt s) := by
  unfold Machine.slotCompute
  extract_lets _ _ _ _ _ _ _ _ _ _ _ _ _ s1 _ s2 s3 s4 s5
  have h1 : Evolves w r s1 := h.setSlot
  have h2 : Evolves w r s2 := h1.upd
  have h3 : Evolves w r s3 := h2.setReg.wrB
  have h4 : Evolves w r s4 := h3.wr.wr.wr
  have h5 : Evolves w r s5 := h4.wrMapBit.when fun _ h => h.countEv
  exact .ite h5.slotSat h5

theorem Evolves.rampTick {n causes : Nat} : Evolves w r (rampTick n causes s) := by
  unfold Machine.rampTick
  extract_lets _ s1 s2 s3 _ s4
  have h1 : Evolves w r s1 := h.wrB.wrMapBit
  have h2 : Evolves w r s2 := h1.wr
  have h3 : Evolves w r s3 := h2.wr
  have h4 : Evolves w r s4 := .ite h3.upd.countEv h2
  exact h4.rampStep

theorem Evolves.slotBody {n : Nat} : Evolves w r (slotBody n s) := .ite h.setReg (.ite h.rampTick (.ite h.slotStaleResp h.slotCompute))
theorem Evolves.stepUsed {st at' : Nat} : Evolves w r (stepUsed st at' s) := h.upd

theorem Evolves.opStaleResp {k : Nat} : Evolves w r (opStaleResp k s) := by
  unfold Machine.opStaleResp
  extract_lets _ s1 _ s2 s3
  have h1 : Evolves w r s1 := h.wrMapBit
  have h2 : Evolves w r s2 := h1.upd
  have h3 : Evolves w r s3 := .ite h2.wr.logEv h2
  split
  · exact h3
  · exact h3.settleTrips

theorem Evolves.opWrites {k : Nat} {rv : OpResult} : Evolves w r (opWrites k rv s) :=
  (h.wrMapBit.upd.forEach (fun _ _ h => h.setReg)).foldl fun _ _ h => (.ite h.setReg h)
theorem Evolves.applyRearm {n : Nat} : Evolves w r (applyRearm n s) := .ite h (.ite h.setSlot h.setSlot.wr.wr.wrMapBit.wr.logEv)
theorem Evolves.rearmWrite {b : Nat} {v : Word} : Evolves w r (rearmWrite b v s) := h.forEach fun _ _ h => h.setSlot
theorem Evolves.slotUnhalt {n : Nat} : Evolves w r (slotUnhalt n s) := (Evolves.ite h.wr.wr h).wr.wrB

theorem Evolves.engineZero : Evolves w r (engineZero s) :=
  (((h.forEach (fun _ _ h => h.setSlot.setReg.slotUnhalt)).forEach (fun _ _ h => (h.forEach (fun _ _ h => h.setReg)))).forEach
    (fun _ _ h => h.setReg)).wr.upd

theorem Evolves.countersZero : Evolves w r (countersZero s) := h.setWide.forEach fun _ _ h => h.setWide.wr.wr

theorem Evolves.engineStart : Evolves w r (engineStart s) := by
  unfold Machine.engineStart
  extract_lets s1 _ s2
  have h1 : Evolves w r s1 := h.countersZero.engineZero.wr.wr
  have h2 : Evolves w r s2 := h1.upd
  exact .ite h2.wr h2

theorem Evolves.overrun {strands : Nat} : Evolves w r (overrun strands s) := by
  unfold Machine.overrun
  extract_lets _ s1 s2 _ _ s3
  have h1 : Evolves w r s1 := h.wr.wr
  have h2 : Evolves w r s2 := h1.logOnce
  have h3 : Evolves w r s3 := h2.upd
  split
  · exact h2.upd.settleTrips
  · exact h3.engineStops.settleTrips
  · exact h2

theorem Evolves.strandCount {strands : Nat} : Evolves w r (strandCount strands s) := (h.forEach (fun _ _ h => by
    extract_lets _ s1
    have h1 : Evolves w r s1 := h.bump.wr
    exact (Evolves.ite h1.inc h1))).bump

theorem Evolves.strandReport {strands : Nat} : Evolves w r (strandReport strands s) := by
  unfold Machine.strandReport
  extract_lets s1 s2
  have h1 : Evolves w r s1 := h.forEach fun _ _ h => h.wr.wr
  have h2 : Evolves w r s2 := .ite h1 h1.strandCount
  exact h2.upd

theorem Evolves.engineTickEnd : Evolves w r (engineTickEnd s) := by
  unfold Machine.engineTickEnd
  split
  · extract_lets _ s1
    have h1 : Evolves w r s1 := h.wr.strandReport
    exact .ite h1 h1.overrun
  · exact h

theorem Evolves.engineTickBegin : Evolves w r (engineTickBegin s) := ((h.forEach (fun _ _ h => h.setSlot)).forEach (fun _ _ h => h.applyRearm)).upd

theorem Evolves.graceFrame : Evolves w r (graceFrame s) := by
  unfold Machine.graceFrame
  extract_lets _ s1
  have h1 : Evolves w r s1 := h.upd
  exact .ite h1.wr h1

theorem Evolves.armRefused {st : Status} : Evolves w r (armRefused st s) := h.wr.logEv.answerSt

/-- The match on `armStatus` is generalised under the function's binders: the kernel would else compute with 2 ^ 47 in unary. -/
theorem Evolves.armSwap {i : Initiator} {f : Nat} : Evolves w r (armSwap i f s) := by
  rw [show Machine.armSwap = _ by delta Machine.armSwap; rfl]
  generalize armStatus f s = st
  split
  · exact (Evolves.upd h.wr64.wr).answerSt
  · exact h.armRefused

theorem Evolves.armAt {i : Initiator} : Evolves w r (armAt i s) := h.armSwap
theorem Evolves.armNext {i : Initiator} : Evolves w r (armNext i s) := h.armSwap
theorem Evolves.swapDisarm : Evolves w r (swapDisarm s) := h.wr
theorem Evolves.bankCopy : Evolves w r (bankCopy s) := .ite h.armRefused (.ite h.armRefused h.wr)
theorem Evolves.showDigest {f : Nat → FRef} {d : BitVec 128} : Evolves w r (showDigest f d s) := h.forEach fun _ _ h => h.wr
theorem Evolves.swapDiscard {reason : Nat} : Evolves w r (swapDiscard reason s) := .ite h h.wr.wr.logEv
theorem Evolves.bankSwapNow : Evolves w r (bankSwapNow s) := h.wr.wr.wr.logEv.clogPush
theorem Evolves.swapMissed : Evolves w r (swapMissed s) := .ite h.swapDiscard h
theorem Evolves.leWrite {a : Nat} {v : Word} : Evolves w r (leWrite a v s) :=
  .ite h.w1cWrite (.ite (.ite h.wr.logEv.answerSt h.setReg) (.ite (.ite h.wr.logEv.answerSt (.ite h.wr.logEv.answerSt (.ite h h.setBankWord))) h))
theorem Evolves.secStateRead {j : Nat} : Evolves w r (secStateRead j s) := h.wr.wr.wr.wr.answer
theorem Evolves.unusedClear : Evolves w r (unusedClear s) := h.forEach fun _ _ h => (h.when (fun _ h => h.setReg.wr))
theorem Evolves.loopLoaded : Evolves w r (loopLoaded s) := h.swapDiscard.unusedClear.wr.wr.showDigest

/-! ### Grid stages -/

theorem Evolves.unitStart {u : Nat} : Evolves w r (unitStart u s) := h.setUnit

theorem Evolves.unitCoast {u : Nat} : Evolves w r (unitCoast u s) := by
  unfold Machine.unitCoast
  extract_lets _ _ s1 s2 s3
  have h1 : Evolves w r s1 := h.setUnit
  have h2 : Evolves w r s2 := h1.wr.wr
  have h3 : Evolves w r s3 := h2.inc
  exact .ite h3.wr.wr.logEv h3

theorem Evolves.unlockCheck {u : Nat} : Evolves w r (unlockCheck u s) := .ite h.wr.wr.logEv h
theorem Evolves.unitCompute {u : Nat} : Evolves w r (unitCompute u s) := h.setUnit.wrI.wrI.wrI.wrI.wrI.wr.wr.wr.wrB.wr.wr.wr

theorem Evolves.unitUpdate {u : Nat} : Evolves w r (unitUpdate u s) := by
  unfold Machine.unitUpdate
  extract_lets s1
  have h1 : Evolves w r s1 := .ite h h.unitStart
  exact (Evolves.ite h1.unitCompute h1.unitCoast).unlockCheck

theorem Evolves.anglesTake : Evolves w r (anglesTake s) := h.forEach fun _ _ h => (h.when (fun _ h => h.setUnit))
theorem Evolves.unitFrame {u : Nat} : Evolves w r (unitFrame u s) := .ite h h.setUnit.wr.wr.wr.wrI
theorem Evolves.setStage {g : Nat} {q : Stage} : Evolves w r (State.setStage s g q) := h.upd
theorem Evolves.stageSources {g : Nat} : Evolves w r (stageSources g s) := h.upd.settleTrips
theorem Evolves.writeRefs {g : Nat} {rv : List Int} : Evolves w r (writeRefs g rv s) := (h.forEach (fun _ _ h => h.setReg)).upd
theorem Evolves.rtExit {g : Nat} : Evolves w r (rtExit g s) := .ite h h.wr.logEv

theorem Evolves.stageTo {g st : Nat} : Evolves w r (stageTo g st s) := by
  unfold Machine.stageTo
  split
  · exact h
  · extract_lets s1 _ s2 s3 s4
    have h1 : Evolves w r s1 := h.wr.wr.logEv
    have h2 : Evolves w r s2 := .ite h1 h1.setStage
    have h3 : Evolves w r s3 := .ite h2 h2.wr.rtExit
    have h4 : Evolves w r s4 := .ite h3 h3.writeRefs
    exact h4.stageSources

theorem Evolves.stageConnect {g : Nat} {b : Bool} : Evolves w r (stageConnect g b s) := .ite h h.setStage.wrB
theorem Evolves.stageTrip {g cause point : Nat} : Evolves w r (stageTrip g cause point s) :=
  ((h.when (fun _ h => h.wr)).wr.wr.when (fun _ h => h.wr)).logEv.stageConnect.stageTo
theorem Evolves.stageStart {g : Nat} : Evolves w r (stageStart g s) := .ite h (.ite h.wr.logEv h.setStage.stageTo)
theorem Evolves.stageStop {g : Nat} : Evolves w r (stageStop g s) := .ite h.setStage.stageTo (.ite h.stageConnect.stageTo h)
theorem Evolves.stageResetFault {g : Nat} : Evolves w r (stageResetFault g s) := .ite h.stageTo h

theorem Evolves.takeCmd {g : Nat} : Evolves w r (takeCmd g s) := by
  unfold Machine.takeCmd
  extract_lets c s1
  have h1 : Evolves w r s1 := h.wr
  clear_value c
  split
  · exact h1.stageStart
  · exact h1.stageStop
  · exact h1.stageResetFault
  · exact h1

theorem Evolves.stagesTake : Evolves w r (stagesTake s) := h.forEach fun _ _ h => (.ite h.setStage h)
theorem Evolves.rtEnter {g st : Nat} : Evolves w r (rtEnter g st s) := h.wr.wr.logEv

theorem Evolves.rtStep {g : Nat} : Evolves w r (rtStep g s) := by
  unfold Machine.rtStep
  extract_lets c
  clear_value c
  split
  · exact .ite h.rtEnter (.ite h.wr h)
  · exact .ite h.rtEnter h
  · exact .ite h.wr h
  · exact .ite h.setStage.rtEnter (.ite h.setStage.rtEnter (.ite h.rtExit h))

theorem Evolves.runRefs {g : Nat} : Evolves w r (runRefs g s) := by
  unfold Machine.runRefs
  extract_lets
  split
  · exact (h.setStage.wrB.when (fun _ h => h.wr)).writeRefs
  · exact (h.setStage.wrB.when (fun _ h => h.wr)).writeRefs
  · exact (h.setStage.wrB.when (fun _ h => h.wr)).writeRefs
  · exact (h.setStage.wrB.when (fun _ h => h.wr)).writeRefs

theorem Evolves.stopRefs {g : Nat} : Evolves w r (stopRefs g s) := .ite h.writeRefs h.writeRefs

theorem Evolves.stageRefs {g : Nat} : Evolves w r (stageRefs g s) := by
  unfold Machine.stageRefs
  extract_lets _ _ s1 s2
  have h1 : Evolves w r s1 := h.upd
  have h2 : Evolves w r s2 := h1.wr
  exact .ite h1.runRefs (.ite h2.stopRefs h2.writeRefs)

theorem Evolves.stageTimers {g : Nat} : Evolves w r (stageTimers g s) := (h.when (fun _ h => h.wr)).setStage
theorem Evolves.stageReopen {g : Nat} : Evolves w r (stageReopen g s) := .ite h.setStage.stageTo h

theorem Evolves.stageChecks {g : Nat} : Evolves w r (stageChecks g s) := by
  unfold Machine.stageChecks
  extract_lets c
  clear_value c
  split
  · exact h.stageTrip.wr
  · exact .ite h.wr h.takeCmd

theorem Evolves.stageUpdate {g : Nat} : Evolves w r (stageUpdate g s) := by
  unfold Machine.stageUpdate
  split
  · exact h
  · extract_lets s1 _ s2
    have h1 : Evolves w r s1 := h.stageReopen.stageTimers.stageChecks
    have h2 : Evolves w r s2 := .ite h1.rtStep h1
    exact h2.stageRefs

theorem Evolves.stageTake {g : Nat} : Evolves w r (stageTake g s) := by
  unfold Machine.stageTake
  split
  · exact h
  · extract_lets s1
    have h1 : Evolves w r s1 := h.stageReopen.stageChecks
    exact .ite h1 h1.stageRefs

theorem Evolves.stageCmd {i : Initiator} {g cmd : Nat} : Evolves w r (stageCmd i g cmd s) := h.writeAdmitted fun _ h => h.wr.stageTake

theorem Evolves.stageStarting {g : Nat} : Evolves w r (stageStarting g s) := by
  unfold Machine.stageStarting
  extract_lets _ s1 s2
  have h1 : Evolves w r s1 := h.setStage.stageTo
  have h2 : Evolves w r s2 := h1.forEach fun _ _ h => h.pairClear
  exact .ite h2.stageTrip h2

theorem Evolves.stageFrame {g : Nat} : Evolves w r (stageFrame g s) := .ite h h.setStage.wrB
theorem Evolves.stagesOff : Evolves w r (stagesOff s) := h.forEach fun _ _ h => (h.when (fun _ h => h.stageConnect.stageTo))
theorem Evolves.stagesStop : Evolves w r (stagesStop s) := h.forEach fun _ _ h => (h.when (fun _ h => h.stageStop))
theorem Evolves.stagesAuto : Evolves w r (stagesAuto s) := h.forEach fun _ _ h => (h.when (fun _ h => h.stageStart))

/-! ### Islanding -/

theorem Evolves.setAnc {a : Nat} {x : Anchor} : Evolves w r (State.setAnc s a x) := h.upd
theorem Evolves.showAnchor {a : Nat} : Evolves w r (showAnchor a s) := h.wr
theorem Evolves.disconnect {cause anchor : Nat} : Evolves w r (disconnect cause anchor s) := .ite h.logEv h.wr.wr.wr.upd.logEv
theorem Evolves.causeOnce {cause anchor : Nat} : Evolves w r (causeOnce cause anchor s) := .ite h h.upd.disconnect
theorem Evolves.breakerCells : Evolves w r (breakerCells s) := .ite h h.upd.floodCell

theorem Evolves.anchorCellRx {c : AncCell} : Evolves w r (anchorCellRx c s) := by
  unfold Machine.anchorCellRx
  split
  · exact h
  · split
    · exact h
    · exact .ite h h.setAnc.upd

theorem Evolves.staleCell {a age : Nat} : Evolves w r (staleCell a age s) := by
  unfold Machine.staleCell
  extract_lets s1
  have h1 : Evolves w r s1 := h.inc
  exact .ite h1.setAnc.logEv h1

theorem Evolves.compare {a fn : Nat} {delta : Int} : Evolves w r (compare a fn delta s).2 := by
  unfold Machine.compare
  extract_lets x d base first fl since base' s1 s2 s3
  have h2 : Evolves w r s2 := (Evolves.setAnc (s := s) h).inc.wrI
  have h3 : Evolves w r s3 := by
    unfold s3
    clear_value d
    split
    · exact h2.wrI
    · exact h2
  exact h3.wrI

omit h in
theorem Evolves.takeCell {acc : Tab CmpFlags × State} {c : CellIn} (h : Evolves w r acc.2) : Evolves w r (takeCell acc c).2 := by
  unfold Machine.takeCell
  extract_lets none' s1 a anc s2 s3
  have h3 : Evolves w r s3 := h.setAnc.wr.wr
  split
  · exact h3.staleCell
  · split
    · split
      · exact h3
      · exact h3.compare
    · exact h3

theorem Evolves.armEval {a : Nat} : Evolves w r (armEval a s) := h.setAnc.showAnchor
theorem Evolves.toFallback : Evolves w r (toFallback s) := h.upd.wr.wr.wr.logEv
theorem Evolves.toAnchor {a : Nat} : Evolves w r (toAnchor a s) := h.upd.wr.wr.wr.logEv
theorem Evolves.modeEval : Evolves w r (modeEval s) := .ite (.ite h.toAnchor (.ite h h.wr.wr.logEv)) (.ite h h.toFallback)
theorem Evolves.discFalls : Evolves w r (discFalls s) := h.wr.wr.logEv
theorem Evolves.toOff : Evolves w r (toOff s) := (h.when (fun _ h => h.discFalls)).wr.wr.wr.wr.wr

theorem Evolves.islandStart : Evolves w r (islandStart s) := by
  unfold Machine.islandStart
  extract_lets _ s1 _ s2
  have h1 : Evolves w r s1 := h.upd
  have h2 : Evolves w r s2 := h1.forEach fun _ _ h => (Evolves.ite h.setAnc h).showAnchor
  exact .ite h2.toFallback h2.toOff

theorem Evolves.islandOff : Evolves w r (islandOff s) := h.upd.toOff
theorem Evolves.actCauses {l : List (Nat × Nat)} : Evolves w r (actCauses l s) :=
  Evolves.upd (Evolves.foldl h fun _ _ h => h.causeOnce)

theorem Evolves.islTake {cmd : Nat} : Evolves w r (islTake cmd s) := by
  unfold Machine.islTake
  extract_lets s1 s2
  have h1 : Evolves w r s1 := h.wr
  have h2 : Evolves w r s2 := h1.wr.disconnect
  split
  · exact h1
  · split
    · exact h2.upd
    · exact h1.wr
    · exact h1

theorem Evolves.islCommand {cmd : Nat} : Evolves w r (islCommand cmd s) := .ite h h.wr
theorem Evolves.phiEval : Evolves w r (phiEval s) := .ite (.ite h.wrI.wr h.wr.wr) h.upd.wrI.wrB

theorem Evolves.islandFrame : Evolves w r (islandFrame s) := by
  unfold Machine.islandFrame
  have cells : ∀ l acc, Evolves w r acc.2 → Evolves w r (List.foldl Machine.takeCell acc l).2 := by
    intro l
    induction l with
    | nil => exact fun _ k => k
    | cons c l ih => exact fun _ k => ih _ k.takeCell
  extract_lets _ _ s1 s2 cs _ res s3 _ s4 s5 s6 _ s7
  have h2 : Evolves w r s2 := Evolves.breakerCells (Evolves.upd h)
  have h3 : Evolves w r s3 := Evolves.modeEval (Evolves.armEval (Evolves.armEval (cells _ _ (Evolves.upd h2))))
  have h5 : Evolves w r s5 := Evolves.actCauses (Evolves.upd h3)
  have h6 : Evolves w r s6 := .ite h5 h5.islTake
  exact .ite h2 (Evolves.phiEval (Evolves.upd h6))

/-! ### Metering -/

theorem Evolves.setChan {m : Nat} {q : MeterChan} : Evolves w r (State.setChan s m q) := h.upd
theorem Evolves.setPin {n : Nat} {q : PulseIn} : Evolves w r (State.setPin s n q) := h.upd
theorem Evolves.setPout {j : Nat} {q : PulseOut} : Evolves w r (State.setPout s j q) := h.upd
theorem Evolves.setAcc {id : Nat} {v : Int} : Evolves w r (State.setAcc s id v) := h.upd
theorem Evolves.setSat {id : Nat} {b : Bool} : Evolves w r (setSat id b s) := .ite h.wrBit h.wrB
theorem Evolves.chanReason {m mask : Nat} : Evolves w r (chanReason m mask s) := h.wr
theorem Evolves.pinReason {n mask : Nat} : Evolves w r (pinReason n mask s) := h.setPin
theorem Evolves.meterInvalidAll {mask : Nat} : Evolves w r (meterInvalidAll mask s) :=
  (h.forEach (fun _ _ h => h.chanReason)).forEach fun _ _ h => h.pinReason
theorem Evolves.pulseInvalid {mask : Nat} : Evolves w r (pulseInvalid mask s) := h.forEach fun _ _ h => h.pinReason
theorem Evolves.pinsForget : Evolves w r (pinsForget s) := h.forEach fun _ _ h => h.setPin

theorem Evolves.guardOverflow {id : Nat} {limit : Int} : Evolves w r (guardOverflow id limit s) := by
  unfold Machine.guardOverflow
  extract_lets s1
  have h1 : Evolves w r s1 := h.setAcc.setSat.logEv
  exact .ite h1.wrBit h1.wr

theorem Evolves.accAdd {id : Nat} {inc : Int} : Evolves w r (accAdd id inc s) := .ite h (.ite h.guardOverflow (.ite h.guardOverflow h.setAcc))

theorem Evolves.poutPend {j n : Nat} : Evolves w r (poutPend j n s) := by
  unfold Machine.poutPend
  extract_lets _ _ s1 s2
  have h1 : Evolves w r s1 := h.wr
  have h2 : Evolves w r s2 := .ite h1 h1.logEv
  exact .ite h1 h2.incBy.wr

theorem Evolves.poutFeed {j : Nat} {inc : Int} : Evolves w r (poutFeed j inc s) := by
  unfold Machine.poutFeed
  extract_lets _ _ _ s1
  have h1 : Evolves w r s1 := h.setPout
  exact .ite h1 h1.poutPend

theorem Evolves.integrate {m : Nat} {pq : Int × Int} : Evolves w r (integrate m pq s) :=
  (h.forEach (fun _ _ h => (.ite ((h.forEach (fun _ _ h => h.poutFeed)).accAdd) h))).setChan.wr
theorem Evolves.integrateNone {m : Nat} : Evolves w r (integrateNone m s) := h.wr.wr.chanReason

theorem Evolves.integrateFilled {m : Nat} {pq : Int × Int} : Evolves w r (integrateFilled m pq s) := by
  unfold Machine.integrateFilled
  extract_lets _ s1 s2
  have h1 : Evolves w r s1 := h.setChan
  have h2 : Evolves w r s2 := h1.integrate.wr.countEv
  exact .ite h2.chanReason h2

theorem Evolves.meterSample {m : Nat} : Evolves w r (meterSample m s) := by
  unfold Machine.meterSample
  extract_lets _ s1 _ _ s2 s3 s4
  have h1 : Evolves w r s1 := h.setChan
  have h2 : Evolves w r s2 := h1.setChan
  have h3 : Evolves w r s3 := h2.wrI.wrI.wr
  have h4 : Evolves w r s4 := by
    unfold s4
    split
    · exact .ite h3.integrateNone h3.integrate
    · split
      · exact .ite h1.integrateFilled h1.setChan.integrateNone
      · exact h1.integrateNone
  exact .ite h4.chanReason h4

theorem Evolves.meterTick : Evolves w r (meterTick s) := h.forEach fun _ _ h => (.ite h.setChan h)
theorem Evolves.recOver {unread : Bool} {f : FRef} {id : Nat} : Evolves w r (recOver unread f id s) := .ite h.wr.logEv h

theorem Evolves.latchChan {m extra next : Nat} : Evolves w r (latchChan m extra next s) := by
  unfold Machine.latchChan
  extract_lets _ _ s1 _ _ s2 s3 s4 s5 s6 _ _ _ _ s7
  have h1 : Evolves w r s1 := h.recOver
  have h2 : Evolves w r s2 := h1.upd
  have h3 : Evolves w r s3 := h2.wr.wr.wr
  have h4 : Evolves w r s4 := h3.wr.wr
  have h5 : Evolves w r s5 := .ite h4.wrFree.wrFree h4.wrI.wrI
  have h6 : Evolves w r s6 := .ite h5 h5.wr.logEv
  have h7 : Evolves w r s7 := h6.setChan
  exact h7.wr

theorem Evolves.latchPin {n extra next : Nat} : Evolves w r (latchPin n extra next s) := by
  unfold Machine.latchPin
  extract_lets _ _ s1 _ s2 s3 s4
  have h1 : Evolves w r s1 := h.recOver
  have h2 : Evolves w r s2 := h1.upd
  have h3 : Evolves w r s3 := h2.wr.wr
  have h4 : Evolves w r s4 := .ite h3 h3.logEv
  exact h4.setPin

theorem Evolves.latchAll {extra next : Nat} : Evolves w r (latchAll extra next s) :=
  ((h.forEach (fun _ _ h => h.latchChan)).forEach (fun _ _ h => h.latchPin)).upd

theorem Evolves.accLoad {id : Nat} {v : Int} : Evolves w r (accLoad id v s) := by
  unfold Machine.accLoad
  extract_lets s1
  have h1 : Evolves w r s1 := h.setAcc.setSat
  exact .ite h1.chanReason h1.pinReason

theorem Evolves.meterCmd {i : Initiator} {cmd id : Nat} : Evolves w r (meterCmd i cmd id s) :=
  h.unlockedFor fun _ h => (.ite h.answerSt (.ite h.answerSt h.wr.wr.upd))
theorem Evolves.meterCmdDo {cmd id : Nat} : Evolves w r (meterCmdDo cmd id s) := .ite h.wr.logEv h.clogPush.accLoad.logEv
theorem Evolves.meterCmdTake : Evolves w r (meterCmdTake s) := .ite h (.ite (.ite h h.wr.meterCmdDo) h.wr)
theorem Evolves.intLenTake {i : Initiator} {n : Nat} : Evolves w r (intLenTake i n s) := .ite h.upd (h.logged (fun _ h => h.wr.upd))
theorem Evolves.intLenWrite {i : Initiator} {v : Word} : Evolves w r (intLenWrite i v s) :=
  h.writeAdmitted fun _ h => (.ite h.intLenTake (.ite h h.refuseLocked))

theorem Evolves.meterFigures : Evolves w r (meterFigures s) := by
  unfold Machine.meterFigures
  extract_lets _ _ _ s1 s2
  have h1 : Evolves w r s1 := h.upd
  have h2 : Evolves w r s2 := h1.forEach fun _ _ h => (.ite h.upd h.setChan.chanReason)
  exact .ite h2.upd h2.pulseInvalid

theorem Evolves.meterFrame : Evolves w r (meterFrame s) := (Evolves.ite h ((h.meterFigures.when (fun _ h => h.meterCmdTake)).forEach (fun _ _ h => by
    split
    · exact h.setPout
    · exact h)))

theorem Evolves.meterStepped {old new : Nat} : Evolves w r (meterStepped old new s) := by
  unfold Machine.meterStepped
  extract_lets _ s1
  have h1 : Evolves w r s1 := h.meterInvalidAll
  exact .ite h1.upd h1

theorem Evolves.meterTicksLost : Evolves w r (meterTicksLost s) := h.meterInvalidAll.upd.forEach fun _ _ h => (.ite h.setPout.wr h)
theorem Evolves.meterCopyOut : Evolves w r (meterCopyOut s) := h.upd
theorem Evolves.chanBegin {reasons m : Nat} : Evolves w r (chanBegin reasons m s) := h.setChan.wr
theorem Evolves.pinBegin {reasons n : Nat} : Evolves w r (pinBegin reasons n s) := h.setPin
theorem Evolves.intervalsBegin {reasons : Nat} : Evolves w r (intervalsBegin reasons s) :=
  (h.forEach (fun _ _ h => h.chanBegin)).forEach fun _ _ h => h.pinBegin

theorem Evolves.meterRestore : Evolves w r (meterRestore s) := by
  unfold Machine.meterRestore
  split
  · exact h
  · extract_lets _ s1
    have h1 : Evolves w r s1 := h.upd
    split
    · exact (h1.forEach (fun _ _ h => h.setAcc.setSat)).wr.logEv.intervalsBegin
    · exact h1.wr.logEv.intervalsBegin

theorem Evolves.meterReconfigured {old : List (Nat × Nat)} {chans pins : List Nat} : Evolves w r (meterReconfigured old chans pins s) :=
  (((h.forEach (fun _ _ h => h.setAcc.setSat)).forEach (fun _ _ h => h.chanBegin)).forEach (fun _ _ h => h.pinBegin)).meterInvalidAll
theorem Evolves.calibrated {old : State} : Evolves w r (calibrated old s) := h.forEach fun _ _ h => h.chanReason
theorem Evolves.meterLoRead {a : Nat} : Evolves w r (meterLoRead a s) := h.latchRead
theorem Evolves.pinPulse {n : Nat} : Evolves w r (pinPulse n s) := h.inc.accAdd

theorem Evolves.pinLevel {n : Nat} {high : Bool} : Evolves w r (pinLevel n high s) := by
  unfold Machine.pinLevel
  extract_lets _ _ _ _ s1 s2 s3
  have h1 : Evolves w r s1 := .ite h.inc h
  have h2 : Evolves w r s2 := h1.setPin
  have h3 : Evolves w r s3 := h2.wrB
  exact .ite h2 (.ite h3.pinPulse h3)

theorem Evolves.pinSample {n : Nat} {high : Bool} : Evolves w r (pinSample n high s) := by
  unfold Machine.pinSample
  extract_lets s1
  have h1 : Evolves w r s1 := h.pinLevel
  exact .ite h1.pinReason h1

theorem Evolves.meterReset : Evolves w r (meterReset s) := h.upd

/-! ### String tracking -/

theorem Evolves.setTrk {k : Nat} {q : Tracker} : Evolves w r (State.setTrk s k q) := h.upd
theorem Evolves.trkSources {k : Nat} : Evolves w r (trkSources k s) := h.upd.settleTrips
theorem Evolves.trkPort {k : Nat} {v : Int} : Evolves w r (trkPort k v s) := h.wrI.upd
theorem Evolves.trkTo {k st : Nat} : Evolves w r (trkTo k st s) := .ite h h.wr.wr.logEv.setTrk.trkSources
theorem Evolves.trkFault {k cause : Nat} : Evolves w r (trkFault k cause s) := h.wr.wr.logEv.trkTo
theorem Evolves.trkDir {k : Nat} {d : Int} : Evolves w r (trkDir k d s) := h.setTrk.wr
theorem Evolves.trkStart {k : Nat} : Evolves w r (trkStart k s) := .ite h (.ite h.trkTo h.wr.logEv)
theorem Evolves.trkStop {k : Nat} : Evolves w r (trkStop k s) := .ite h h.trkTo
theorem Evolves.trkResetFault {k : Nat} : Evolves w r (trkResetFault k s) := .ite h.trkTo h
theorem Evolves.trkScanNow {k : Nat} : Evolves w r (trkScanNow k s) := .ite h.setTrk h.wr

theorem Evolves.trkTake {k : Nat} : Evolves w r (trkTake k s) := by
  unfold Machine.trkTake
  extract_lets c s1
  have h1 : Evolves w r s1 := h.wr
  clear_value c
  split
  · exact h1.trkStart
  · exact h1.trkStop
  · exact h1.trkResetFault
  · exact h1.trkScanNow
  · exact h1

theorem Evolves.trkSample {k : Nat} : Evolves w r (trkSample k s) := by
  unfold Machine.trkSample
  extract_lets
  split
  · exact h.setTrk
  · exact h.setTrk

omit h in
theorem Evolves.trkFaults {k : Nat} {step : Bool} {t : State} (h : Evolves w r s) (ht : trkFaults k step s = some t) : Evolves w r t := by
  unfold Machine.trkFaults at ht
  split at ht
  · obtain ⟨c, -, rfl⟩ := Option.map_eq_some_iff.mp ht
    exact h.trkFault
  · cases ht

theorem Evolves.trkVdcCheck {k : Nat} : Evolves w r (trkVdcCheck k s) := by
  unfold Machine.trkVdcCheck
  extract_lets _ s1
  have h1 : Evolves w r s1 := by
    unfold s1
    split
    · exact .ite h.wr.logEv.trkTo h
    · exact h
  exact .ite h1.wrI h1

theorem Evolves.trkSlotInit {k : Nat} : Evolves w r (trkSlotInit k s) := .ite h (h.setTrk.forEach (fun _ _ h => h.setSlot.zeroSections))

theorem Evolves.scanProgress {k : Nat} {ended : TrkFrame} : Evolves w r (scanProgress k ended s) := by
  unfold Machine.scanProgress
  split
  · exact h
  · exact .ite h h.setTrk.wrI

theorem Evolves.trkWait {k : Nat} : Evolves w r (trkWait k s) := .ite h.setTrk h
theorem Evolves.trkFrame {k : Nat} : Evolves w r (trkFrame k s) := h.setTrk

theorem Evolves.trackerTick {frame : Bool} {k : Nat} : Evolves w r (trackerTick frame k s) := by
  unfold Machine.trackerTick
  split
  · exact .ite h.trkTake h
  · extract_lets s1 ended s2 s3 s4 s5
    have h2 : Evolves w r s2 := (Evolves.trkSample h.trkSlotInit).when fun _ h => h.trkFrame
    have h3 : Evolves w r s3 := by
      unfold s3
      split
      · next ht => exact (h2.trkFaults ht).when fun _ h => h.wr
      · exact h2.when fun _ h => h.trkTake
    exact (Evolves.when h3.trkWait.trkVdcCheck fun _ h => h.scanProgress).trkPort

theorem Evolves.trackersTick {frame : Bool} : Evolves w r (trackersTick frame s) := h.forEach fun _ _ h => h.trackerTick

theorem Evolves.trkCmd {i : Initiator} {k cmd : Nat} : Evolves w r (trkCmd i k cmd s) := by
  refine h.writeAdmitted fun s h => ?_
  split
  · next ht =>
    split at ht
    · exact h.trkFaults ht
    · cases ht
  · exact .ite (Evolves.trkPort (Evolves.trkTake h.wr)) (Evolves.trkTake h.wr)

theorem Evolves.trkMeans {k : Nat} {wd : TrkFrame} : Evolves w r (trkMeans k wd s) := .ite h.wrFree.wrFree.wrFree h.wrI.wrI.wrI

theorem Evolves.trkSkip {k : Nat} : Evolves w r (trkSkip k s) := by
  unfold Machine.trkSkip
  extract_lets _ _ s1
  have h1 : Evolves w r s1 := h.setTrk.inc
  exact .ite h1.wr.wr.logEv h1

theorem Evolves.trkMove {k : Nat} {dir g : Int} : Evolves w r (trkMove k dir g s) := .ite h.wrI.trkDir.wr (.ite h.wrI.trkDir.wr h.wrI.trkDir.wr)
theorem Evolves.trkStep {k : Nat} : Evolves w r (trkStep k s) :=
  .ite h.setTrk (.ite h.trkTo.trkMove.setTrk (.ite h.trkMove.setTrk h.trkTo.trkMove.setTrk))
theorem Evolves.trkDusk {k : Nat} : Evolves w r (trkDusk k s) := .ite h.setTrk h.setTrk
theorem Evolves.trkUncurtail {k : Nat} {wd : TrkFrame} : Evolves w r (trkUncurtail k wd s) := .ite h.trkTo.trkDir.setTrk h
theorem Evolves.trkStarted {k : Nat} : Evolves w r (trkStarted k s) := .ite h.trkTo.setTrk h

theorem Evolves.trkDueStep {k : Nat} : Evolves w r (trkDueStep k s) := by
  unfold Machine.trkDueStep
  extract_lets _ _ s1 s2 _ s3 s4 s5
  have h1 : Evolves w r s1 := h.trkMeans.when fun _ h => h.trkFault
  have h2 : Evolves w r s2 := h1.trkUncurtail.trkStarted
  have h3 : Evolves w r s3 := h2.setTrk.wr
  have h4 : Evolves w r s4 := h3.trkDusk
  have h5 : Evolves w r s5 := .ite h2.trkSkip (.ite h4.trkStep h4)
  exact h5.trkWait.trkPort

theorem Evolves.scanBest {k : Nat} {best : Option (Int × Int)} : Evolves w r (scanBest k best s) := by
  unfold Machine.scanBest
  split
  · exact h.wrI.wrI
  · exact h.wrFree.wrFree

theorem Evolves.trkStarting {k : Nat} : Evolves w r (trkStarting k s) := by
  unfold Machine.trkStarting
  extract_lets s1 _ s2
  have h1 : Evolves w r s1 := h.trkTo.trkDir
  have h2 : Evolves w r s2 := h1.setTrk.pairClear
  exact .ite h2.trkFault h2.trkPort

theorem Evolves.trackersOff : Evolves w r (trackersOff s) := h.forEach fun _ _ h => (h.when (fun _ h => h.trkTo))
theorem Evolves.trackersStop : Evolves w r (trackersStop s) := h.forEach fun _ _ h => (h.when (fun _ h => h.trkStop))
theorem Evolves.trackersAuto : Evolves w r (trackersAuto s) := h.forEach fun _ _ h => (h.when (fun _ h => h.trkStart))
theorem Evolves.ownersRelease : Evolves w r (ownersRelease s) := h.upd
theorem Evolves.stringLoaded : Evolves w r (stringLoaded s) := h.ownersRelease.forEach fun _ _ h => (h.when (fun _ h => h.trkSources))

/-! ### Stops of clocks and domains -/

theorem Evolves.stopAll : Evolves w r (stopAll s) := h.stagesStop.trackersStop
theorem Evolves.ticksShow : Evolves w r (ticksShow s) := h.wr.wr.wr.engineStops
theorem Evolves.ticksLost : Evolves w r (ticksLost s) :=
  h.windowsCut.ticksShow.countersStop.logEv.adcClockLost.gateClockLost.settleTrips.stagesOff.trackersOff.meterTicksLost.islandOff
theorem Evolves.ctSupLost : Evolves w r (ctSupLost s) := h.outputsOff.islandOff.wr.engineStops.stagesOff.trackersOff
theorem Evolves.ctConvLost : Evolves w r (ctConvLost s) := h.countersStop.adcPairsStop.engineStops.stagesOff.trackersOff.settleTrips
theorem Evolves.domainLost {d : Nat} : Evolves w r (domainLost d s) :=
  .ite h.forwardingStop (.ite h.lanesOff (.ite h.ctSupLost (.ite h.ctConvLost (.ite (h.upd.forEach (fun _ _ h => h.adcCoreOff)) h))))
theorem Evolves.otpShow : Evolves w r (otpShow s) := h.wr.wr.wr.wr.wr.wr.wr.wr.wr.wr
theorem Evolves.mainKept : Evolves w r (mainKept s) :=
  ((h.keep (p := inLantern)).relog (l := { s.log with once := [] }) (c := s.clog) id).upd
theorem Evolves.mainClear : Evolves w r (mainClear s) := h.mainKept.setReg.wr.wr.wr.wr.declMirror.gateShow.otpShow.wr
theorem Evolves.mainOff : Evolves w r (mainOff s) := h.unlockEnd.mainClear.upd.wr.wr.setReg
theorem Evolves.mainReset {cause : Nat} : Evolves w r (mainReset cause s) := h.unlockEnd.mainClear.upd.wr.wrB.upd
theorem Evolves.controlKept : Evolves w r (controlKept s) := (h.keep (p := fun a => !ctCleared a)).upd
theorem Evolves.controlReset : Evolves w r (controlReset s) := h.controlKept.meterReset.gateShow.upd.wr.wr.inc.wr.wr.forEach fun _ _ h => h.opFail
theorem Evolves.sleepEntry {orderly : Bool} : Evolves w r (sleepEntry orderly s) := (Evolves.ite h.meterCopyOut h).lanternSleep.mainOff

/-! ### Image sections -/

theorem Evolves.putBits {a : Nat} {m wd : Word} : Evolves w r (putBits a m wd s) := h.setReg
theorem Evolves.secClear {own : Nat → Bool} {sec : Nat} : Evolves w r (secClear own sec s) := h.foldl fun _ _ h => (.ite h.putBits h)
theorem Evolves.loadWord {own : Nat → Bool} {sec : Nat} {e : Nat × Word} : Evolves w r (loadWord own sec e s) :=
  .ite h.setBankWord (.ite h.setBankWord (.ite h.putBits h))

theorem Evolves.nodeOverlay {own : Nat → Bool} {sec : Nat} {m : List Byte} : Evolves w r (nodeOverlay own sec m s) := by
  unfold Machine.nodeOverlay
  split
  · exact h.foldl fun _ _ h => (.ite h.putBits h)
  · exact h

theorem Evolves.loadWithin {own : Nat → Bool} {sec : Nat} {m : List Byte} : Evolves w r (loadWithin own sec m s) := by
  unfold Machine.loadWithin
  extract_lets s1 s2
  have h1 : Evolves w r s1 := h.secClear
  have h2 : Evolves w r s2 := by
    unfold s2
    split
    · exact h1.foldl fun _ _ h => h.loadWord
    · exact h1
  exact .ite h2.nodeOverlay h2

theorem Evolves.loadRegs {sec : Nat} {m : List Byte} : Evolves w r (loadRegs sec m s) := h.loadWithin
theorem Evolves.loadLoop {m : List Byte} : Evolves w r (loadLoop m s) := h.upd.loadRegs.loopLoaded
theorem Evolves.loadPwm {m : List Byte} : Evolves w r (loadPwm m s) := h.loadRegs.pwmLoaded
theorem Evolves.loadTrip {m : List Byte} : Evolves w r (loadTrip m s) := h.loadRegs.gateLoad.winLoad
theorem Evolves.loadAdc {m : List Byte} : Evolves w r (loadAdc m s) := h.loadRegs.adcLoaded
theorem Evolves.loadAdcNow {m : List Byte} : Evolves w r (loadAdcNow m s) := h.loadRegs.adcChanged
theorem Evolves.loadGrid {m : List Byte} : Evolves w r (loadGrid m s) :=
  (h.loadRegs.ownersRelease.forEach (fun _ _ h => (h.when (fun _ h => h.stageSources)))).settleTrips
theorem Evolves.loadString {m : List Byte} : Evolves w r (loadString m s) := h.loadRegs.stringLoaded.settleTrips

theorem Evolves.loadIsland {m : List Byte} : Evolves w r (loadIsland m s) := by
  unfold Machine.loadIsland
  extract_lets s1
  have h1 : Evolves w r s1 := h.loadRegs
  exact .ite h1.islandStart h1

theorem Evolves.loadMeter {m : List Byte} : Evolves w r (loadMeter m s) := h.loadRegs.meterReconfigured
theorem Evolves.testStandEval : Evolves w r (testStandEval s) := h.wrB.brokenSafety
theorem Evolves.sequencerStart : Evolves w r (sequencerStart s) := h.upd.testStandEval.safetyPending
theorem Evolves.loadSafety {m : List Byte} : Evolves w r (loadSafety m s) := h.loadRegs.sequencerStart
theorem Evolves.loadSupervision {m : List Byte} : Evolves w r (loadSupervision m s) := h.loadRegs.sequencerStart
theorem Evolves.loadControl {m : List Byte} : Evolves w r (loadControl m s) :=
  h.loadAdc.loadLoop.loadPwm.loadTrip.loadGrid.loadString.loadIsland.loadRegs.loadSafety.loadSupervision
theorem Evolves.gcClear : Evolves w r (gcClear s) := h.forEach fun _ _ h => h.putBits

theorem Evolves.gridSetLoad : Evolves w r (gridSetLoad s) := by
  unfold Machine.gridSetLoad
  split
  · exact h
  · extract_lets _ s1 c
    have h1 : Evolves w r s1 := h.wr.gcClear
    clear_value c
    split
    · exact (h1.foldl (fun _ _ h => h.putBits)).wr
    · exact h1.wr.logEv

theorem Evolves.lanesRetrain {l : List Nat} : Evolves w r (lanesRetrain l s) := h.lanesDown.forEach fun _ _ h => h.wr
theorem Evolves.loadLanes {m : List Byte} : Evolves w r (loadLanes m s) := h.loadRegs.lanesRetrain.synceEval

theorem Evolves.plotPortsLoad {p : Nat} {m : List Byte} : Evolves w r (plotPortsLoad p m s) := by
  unfold Machine.plotPortsLoad
  split
  · exact h.foldl fun _ _ h => (.ite h.putBits h)
  · exact h

theorem Evolves.plotPortsClear {p : Nat} : Evolves w r (plotPortsClear p s) := h.forEach fun _ _ h => (.ite h.putBits.putBits h)
theorem Evolves.flushPlot {p port : Nat} : Evolves w r (flushPlot p port s) := .ite h (h.setPq.foldl (fun _ _ h => h.dropTx.bufRelease))
theorem Evolves.loadPlot {p : Nat} {m : List Byte} : Evolves w r (loadPlot p m s) :=
  (h.forEach (fun _ _ h => h.flushPlot)).loadWithin.plotPortsClear.plotPortsLoad.fdbRepitch.polFull.wr
theorem Evolves.loadClasses {m : List Byte} : Evolves w r (loadClasses m s) := h.loadRegs.forEach fun _ _ h => h.plotPortsLoad
theorem Evolves.harvEnApply : Evolves w r (harvEnApply s) := .ite h.upd h.upd

theorem Evolves.cellTypeApply : Evolves w r (cellTypeApply s) := by
  unfold Machine.cellTypeApply
  extract_lets s1 _ s2
  have h1 : Evolves w r s1 := h.harvEnApply
  have h2 : Evolves w r s2 := .ite h1.upd.wr h1
  exact (Evolves.ite h2.wr h2).supplyEval

theorem Evolves.loadLantern {m : List Byte} : Evolves w r (loadLantern m s) := by
  unfold Machine.loadLantern
  extract_lets _ s1 s2 _ s3
  have h1 : Evolves w r s1 := h.loadRegs
  have h2 : Evolves w r s2 := (Evolves.ite h1.wr h1).cellTypeApply
  have h3 : Evolves w r s3 := h2.wrB.wrB
  exact h3.wrB.wrB

theorem Evolves.loadSection {m : List Byte} {id : Nat} : Evolves w r (loadSection m id s) :=
  .ite h.loadLanes (.ite h.loadClasses (.ite h.loadRegs (.ite h.loadAdcNow (.ite h.loadTrip (.ite h.loadLoop (.ite h.loadPwm (.ite h.loadGrid
    (.ite h.loadString (.ite h.loadIsland (.ite h.loadMeter (.ite h.loadSafety (.ite h.loadSupervision (.ite h.loadLantern (.ite h.loadPlot
    (.ite h.loadRegs.adcTidy.calibrated h)))))))))))))))

theorem Evolves.loadSwitch {m : List Byte} : Evolves w r (loadSwitch m s) := h.forEach fun _ _ h => h.loadSection

/-! ### Activation -/

theorem Evolves.selfCompare : Evolves w r (selfCompare s) := by
  unfold Machine.selfCompare
  extract_lets _ _ _ s1
  have h1 : Evolves w r s1 := h.wrB
  exact .ite h1.wr.logEv h1

theorem Evolves.bankCheck : Evolves w r (bankCheck s) := by
  unfold Machine.bankCheck
  extract_lets s1 s2
  have h1 : Evolves w r s1 := h.forEach fun _ _ h => (h.wrBit.when (fun _ h => h.logEv))
  have h2 : Evolves w r s2 := h1.gateBank.safetyPending
  exact .ite h2.enterLockout h2

theorem Evolves.ticksStart : Evolves w r (ticksStart s) := h.wr.upd.islandStart
theorem Evolves.controlReload : Evolves w r (controlReload s) := .ite h.loadControl.meterRestore h
theorem Evolves.convUp : Evolves w r (convUp s) := (Evolves.ite h.loadLoop.loadPwm h).upd.pwmPowerUp
theorem Evolves.domainUp {d : Nat} : Evolves w r (domainUp d s) := .ite h.forwardingResume (.ite h.lanesOn (.ite h.convUp (.ite h.loadAdc h)))

theorem Evolves.coreOff {kept : List Nat} {c : Nat} : Evolves w r (coreOff kept c s) := by
  unfold Machine.coreOff
  extract_lets _ _ _ s1
  have h1 : Evolves w r s1 := h.upd.adcCoreOff
  exact .ite h1.setReg h1

theorem Evolves.coresDown : Evolves w r (coresDown s) := h.forEach fun _ _ h => h.coreOff
theorem Evolves.coresLost : Evolves w r (coresLost s) := .ite ((h.forEach (fun _ _ h => h.coreOff)).upd) h
theorem Evolves.coresUp : Evolves w r (coresUp s) := .ite h h.upd.loadWithin.coresStart

theorem Evolves.coresKeep : Evolves w r (coresKeep s) := by
  unfold Machine.coresKeep
  split
  · exact h
  · split
    · exact h.forEach fun _ _ h => h.coreOff
    · extract_lets _ _ s1
      have h1 : Evolves w r s1 := h.forEach fun _ _ h => h.coreOff
      exact .ite h1 h1.upd.coresStart

theorem Evolves.actOpEnd {state status : Nat} : Evolves w r (actOpEnd state status s) := by
  unfold Machine.actOpEnd
  split
  · exact h.opEnd
  · exact h

omit h in
theorem Evolves.pendingErase (h : Evolves true r s) : Evolves true r (pendingErase s) := h.saveRec.upd
omit h in
theorem Evolves.missActivation (h : Evolves true r s) {reason : Nat} : Evolves true r (missActivation reason s) := h.wr.wr.logEv.pendingErase.actOpEnd

omit h in
theorem Evolves.jumpOver (h : Evolves true r s) {old new : Nat} : Evolves true r (jumpOver old new s) := by
  unfold Machine.jumpOver
  extract_lets s1 s2 s3
  have h1 : Evolves true r s1 := h.when fun _ h => h.swapDiscard
  have h2 : Evolves true r s2 := by
    unfold s2
    split
    · exact h1.when fun _ h => h.fdbDiscard
    · exact h1
  have h3 : Evolves true r s3 := by
    unfold s3
    split
    · exact h2.when fun _ h => h.missActivation
    · exact h2
  exact h3.ringMissed.snapMissed

omit h in
theorem Evolves.stepped (h : Evolves true r s) {old new : Nat} : Evolves true r (stepped old new s) := by
  unfold Machine.stepped
  extract_lets s1
  have h1 : Evolves true r s1 := h.meterStepped
  exact .ite h1.jumpOver h1

theorem Evolves.swapsGive : Evolves w r (swapsGive s) := (h.when (fun _ h => h.swapDiscard)).when fun _ h => h.fdbDiscard
theorem Evolves.loadAlways {new : List Byte} {id : Nat} : Evolves w r (loadAlways new id s) :=
  .ite h.loadWithin.synceEval (.ite h.loadRegs.adcTidy (.ite h.loadWithin.windowsFollow (.ite h.loadLantern h)))

theorem Evolves.swapSections {old new : List Byte} : Evolves w r (swapSections old new s) := ((Evolves.ite h.enterLockout h).forEach (fun _ _ h => by
    split
    · exact h.loadSection
    · exact h.loadAlways))

theorem Evolves.slotsSwap {k : Nat} : Evolves w r (slotsSwap k s) := h.upd.wr.wr.showSlots.showPending.showActive.selfCompare

theorem Evolves.actRecord {p : PendingAct} : Evolves w r (actRecord p s) := by
  unfold Machine.actRecord
  extract_lets _ _ _ _ s1
  have h1 : Evolves w r s1 := by
    unfold s1
    split
    · exact h.logEv.clogPush
    · exact h.logEv.clogPush
  exact h1.actOpEnd

theorem Evolves.activateAll {old new : List Byte} : Evolves w r (activateAll old new s) := by
  unfold Machine.activateAll
  extract_lets s1 s2
  have h1 : Evolves w r s1 := .ite h.wakeCmd h
  have h2 : Evolves w r s2 := h1.swapSections.gridSetLoad.coresKeep.adcSuspendStall.bankCheck
  exact .ite h2.appCoresStop.appCoresRestart h2

theorem Evolves.activate {p : PendingAct} : Evolves w r (activate p s) := by
  unfold Machine.activate
  extract_lets _ _ s1 _ s2 s3
  have h1 : Evolves w r s1 := h.swapsGive
  have h2 : Evolves w r s2 := h1.upd
  have h3 : Evolves w r s3 := by
    unfold s3
    split
    · exact h2.loadSection
    · exact h2.activateAll
  exact h3.slotsSwap.actRecord

omit h in
theorem Evolves.activateNow (h : Evolves true r s) : Evolves true r (activateNow s) := by
  unfold Machine.activateNow
  split
  · exact h
  · split
    · exact h.missActivation
    · exact .ite h.free.missActivation h.activate

omit h in
theorem Evolves.otpApply (h : Evolves true r s) {j : OtpJob} : Evolves true r (otpApply j s) :=
  (Evolves.ite h.updStores (.ite h.updStores (.ite h.updStores (.ite h.updStores h)))).logEv.clogPush.otpShow

/-! ### Power -/

theorem Evolves.setWakeQ {q : List Nat} : Evolves w r (State.setWakeQ s q) := h.upd.wr

theorem Evolves.setDrainQ {q : List Nat} : Evolves w r (s.setDrainQ q) := by
  unfold State.setDrainQ
  split
  · exact (Evolves.wrBit h.upd).settleTrips
  · exact h.upd

theorem Evolves.requestWake {d : Nat} : Evolves w r (requestWake d s) := .ite h.wrBit.setDrainQ (.ite h (.ite h.wr.wr.answerSt h.setWakeQ))
theorem Evolves.requestDown {d : Nat} : Evolves w r (requestDown d s) := .ite h.setWakeQ (.ite h.setDrainQ h)
theorem Evolves.requestMask {m : Nat} : Evolves w r (requestMask m s) := h.wr.wr.wr.forEach fun _ _ h => (.ite h.requestWake h.requestDown)
theorem Evolves.setRegEn {m : Nat} : Evolves w r (State.setRegEn s m) := h.upd.wr

theorem Evolves.railsOn {k : Nat} : Evolves w r (railsOn k s) := by
  unfold Machine.railsOn
  split
  · exact h.upd.setRegEn
  · exact h.upd

theorem Evolves.auxOff : Evolves w r (auxOff s) := h.setRegEn
theorem Evolves.ctSupplyOff {k : Nat} : Evolves w r (ctSupplyOff k s) := .ite h.upd h

theorem Evolves.domainOff {d : Nat} : Evolves w r (domainOff d s) := by
  unfold Machine.domainOff
  extract_lets s1 s2
  have h1 : Evolves w r s1 := h.wrBit
  have h2 : Evolves w r s2 := h1.wr
  exact (Evolves.ite h2.auxOff h2).domainLost

theorem Evolves.domainForceOff {d : Nat} : Evolves w r (domainForceOff d s) := by
  unfold Machine.domainForceOff
  extract_lets _ s1 s2
  have h1 : Evolves w r s1 := h.when fun _ h => h.setWakeQ
  have h2 : Evolves w r s2 := .ite h1.wrBit.wr (.ite h1.domainOff h1)
  exact h2.when fun _ h => h.setDrainQ

theorem Evolves.railsDown {k : Nat} : Evolves w r (railsDown k s) := by
  unfold Machine.railsDown
  split
  · exact (h.forEach (fun _ _ h => h.domainForceOff)).setRegEn.ctSupplyOff.upd
  · extract_lets s1 _ s2
    have h1 : Evolves w r s1 := h.setRegEn
    have h2 : Evolves w r s2 := h1.upd
    exact .ite h2.upd.railsOn h2

theorem Evolves.railsOff {set : Nat} {thenUp : Bool} : Evolves w r (railsOff set thenUp s) := h.upd.railsDown
theorem Evolves.auxOn : Evolves w r (auxOn s) := .ite h.railsOn h
theorem Evolves.bankLost {b : Nat} : Evolves w r (bankLost b s) :=
  (h.upd.wrBit.wrBit.declMirror.gateBank.when (fun _ h => h.pulseInvalid.pinsForget)).when fun _ h => h.enterLockout
theorem Evolves.bankLevels {present det : Nat} : Evolves w r (bankLevels present det s) :=
  (h.forEach (fun _ _ h => h.bankLost)).upd.wr.wr.declMirror.gateBank.safetyPending

theorem Evolves.biasTick : Evolves w r (biasTick s) := by
  unfold Machine.biasTick
  split
  · exact h.upd
  · exact h

theorem Evolves.biasStart : Evolves w r (biasStart s) := .ite h h.biasTick
theorem Evolves.requestBias {st : Nat} : Evolves w r (requestBias st s) := h.upd.biasStart
theorem Evolves.pendingTake : Evolves w r (pendingTake s).2 := h.upd
theorem Evolves.endChange {st cause : Nat} : Evolves w r (endChange st cause s) := h.upd.wr.wr.wr.wr

theorem Evolves.changeFail : Evolves w r (changeFail s) := by
  unfold Machine.changeFail
  split
  · exact h
  · exact h.requestMask.requestBias.endChange

theorem Evolves.startDomains : Evolves w r (startDomains s) := by
  unfold Machine.startDomains
  split
  · exact h
  · extract_lets _ s1 _ s2
    have h1 : Evolves w r s1 := h.upd
    have h2 : Evolves w r s2 := (Evolves.ite h1.settleTrips h1).requestMask
    exact .ite h2 h2.changeFail

theorem Evolves.startLeg {c : PwrChange} : Evolves w r (startLeg c s) := by
  unfold Machine.startLeg
  extract_lets _ s1 s2 s3 _ s4
  have h1 : Evolves w r s1 := h.upd
  have h2 : Evolves w r s2 := h1.wr.wr
  have h3 : Evolves w r s3 := h2.requestBias
  have h4 : Evolves w r s4 := h2.requestBias.stopAll
  split
  · exact .ite h3.startDomains h3.upd
  · exact h2.requestBias.startDomains
  · exact .ite h4.startDomains h4.upd
  · exact h2.startDomains

theorem Evolves.startChange {goal cause : Nat} : Evolves w r (startChange goal cause s) := (Evolves.ite h.leaveRings h).startLeg
theorem Evolves.requestState {goal cause : Nat} : Evolves w r (requestState goal cause s) :=
  .ite h.logEv (.ite ((h.when (fun _ h => h.wr)).upd) (.ite h h.startChange))

theorem Evolves.pendingApply : Evolves w r (pendingApply s) := by
  unfold Machine.pendingApply
  extract_lets p
  have hp : Evolves w r p.2 := h.pendingTake
  clear_value p
  split
  · exact h
  · split
    · exact hp.requestState
    · exact h

theorem Evolves.runNeeded : Evolves w r (runNeeded s) := .ite h.requestState h
theorem Evolves.reqWrite {i : Initiator} {goal : Nat} : Evolves w r (reqWrite i goal s) :=
  .ite (.ite h h.refuseLocked) (.ite h.requestState (h.logged (fun _ h => h.wr.requestState)))

theorem Evolves.biasDone {b : Nat × Assist} : Evolves w r (biasDone b s) := by
  unfold Machine.biasDone
  extract_lets _ _ s1
  have h1 : Evolves w r s1 := h.upd.biasStart
  split
  · exact .ite h1.startDomains.pendingApply h1
  · exact h1

theorem Evolves.finishChange {st cause : Nat} : Evolves w r (finishChange st cause s) := h.endChange.pendingApply

theorem Evolves.enterState {st : Nat} : Evolves w r (enterState st s) := by
  unfold Machine.enterState
  extract_lets s1
  have h1 : Evolves w r s1 := h.wr
  exact .ite h1.coresDown (.ite h1.coresUp h1)

theorem Evolves.changeDone : Evolves w r (changeDone s) := by
  unfold Machine.changeDone
  split
  · exact h
  · split
    · exact h
    · split
      · exact h
      · exact h
      · exact h.sleepEntry
      · split
        · extract_lets s1
          have h1 : Evolves w r s1 := h.enterState
          exact .ite h1.finishChange h1.startLeg.pendingApply
        · exact h.upd.railsOff

theorem Evolves.wakesAge : Evolves w r (wakesAge s) := h.upd

theorem Evolves.pwrTick : Evolves w r (pwrTick s) := by
  unfold Machine.pwrTick
  extract_lets s1
  have h1 : Evolves w r s1 := h.wakesAge
  split
  · exact .ite (.ite h1.startDomains.pendingApply h1.upd) h1
  · exact h1

theorem Evolves.cancelSleep : Evolves w r (cancelSleep s) := by
  unfold Machine.cancelSleep
  split
  · split
    · extract_lets s1 _ s2
      have h1 : Evolves w r s1 := h.logEv
      have h2 : Evolves w r s2 := h1.upd
      exact .ite h2.requestMask.endChange.pendingApply (.ite h2.upd.wr h2.startLeg.pendingApply)
    · exact h
  · exact h

theorem Evolves.wakeTimeout : Evolves w r (wakeTimeout s) := by
  unfold Machine.wakeTimeout
  split
  · exact h
  · extract_lets s1 s2
    have h1 : Evolves w r s1 := h.setWakeQ.wr.wr
    have h2 : Evolves w r s2 := h1.logEv
    exact .ite h2.changeFail.pendingApply h2

theorem Evolves.drainNext : Evolves w r (drainNext s) := by
  unfold Machine.drainNext
  split
  · exact h
  · exact h.domainOff.setDrainQ

theorem Evolves.startBootState : Evolves w r (startBootState s) := .ite h.requestMask h.startLeg.pendingApply

theorem Evolves.usedChanged : Evolves w r (usedChanged s) := by
  unfold Machine.usedChanged
  extract_lets _ _ s1
  have h1 : Evolves w r s1 := h.upd
  split
  · exact h
  · split
    · exact h1.requestMask
    · exact .ite h1.requestMask h1

theorem Evolves.sdgWrite {v : Nat} : Evolves w r (sdgWrite v s) := (h.forEach (fun _ _ h => by
    split
    · exact h
    · split
      · exact h.logEv
      · split
        · exact h.wrBit.requestWake
        · exact h.wrBit.requestDown))

theorem Evolves.railsDone : Evolves w r (railsDone s) := .ite h.requestMask h
theorem Evolves.ctSupplyOn : Evolves w r (ctSupplyOn s) := .ite h.upd h
theorem Evolves.railFaultMark {n : Nat} : Evolves w r (railFaultMark n s) := h.wr.logEv

theorem Evolves.controlDieOff : Evolves w r (controlDieOff s) := by
  unfold Machine.controlDieOff
  extract_lets s1 s2 _ s3 s4
  have h1 : Evolves w r s1 := h.forEach fun _ _ h => h.domainForceOff
  have h2 : Evolves w r s2 := h1.setRegEn.ctSupplyOff
  have h3 : Evolves w r s3 := h2.upd
  have h4 : Evolves w r s4 := h3.wr.wr.wr
  exact .ite h2 h4.wr.requestBias.requestMask

theorem Evolves.faultToRingOnly : Evolves w r (faultToRingOnly s) := .ite h h.upd.startChange
theorem Evolves.serdesOff : Evolves w r (serdesOff s) := (h.forEach (fun _ _ h => h.domainForceOff)).forwardingStop

theorem Evolves.railFault {n : Nat} : Evolves w r (railFault n s) := by
  unfold Machine.railFault
  extract_lets s1 _ s2
  have h1 : Evolves w r s1 := h.railFaultMark
  have h2 : Evolves w r s2 := h1.upd
  split
  · exact h2.controlDieOff
  · exact h2.settleTrips.meterInvalidAll.coresLost.faultToRingOnly
  · exact h2.settleTrips.meterInvalidAll.faultToRingOnly
  · exact h2.bankLost
  · exact h2.serdesOff
  · exact h2.serdesOff
  · exact h2

theorem Evolves.marginRail {i : Initiator} {n : Nat} {v : Int} : Evolves w r (marginRail i n v s) := .ite h.answerSt (.ite h.answerSt h.upd.answerSt)

theorem Evolves.tier1Log : Evolves w r (tier1Log s) := by
  unfold Machine.tier1Log
  split
  · next hq =>
    refine h.relog (c := s.clog) ?_
    rintro ⟨_, h2, h3, h4, h5⟩
    exact ⟨by simpa using hq, h2, h3, h4, h5⟩
  · exact h.inc

/-! ### Clocks -/

theorem Evolves.controlClockLost : Evolves w r (controlClockLost s) := h.wr.wr.upd.ticksLost.masksLift.settleTrips.enterLockout

theorem Evolves.pinRead {v : Nat} : Evolves w r (pinRead v s) := by
  unfold Machine.pinRead
  extract_lets _ _ s1
  have h1 : Evolves w r s1 := h.upd.wr
  exact .ite h1.wr.logEv (.ite h1.wr h1)

theorem Evolves.heldBack {f : State → State} (hf : ∀ r s, Evolves w r s → Evolves w r (f s)) : Evolves w r (heldBack f s).1 := by
  obtain ⟨kp, kc, ko, kf, kr, kl⟩ := hf _ _ (Evolves.refl w { s with log := { s.log with ctrlQ := [], switchQ := [] } })
  refine h.trans ⟨kp, kc, ko, kf, kr, fun ⟨h1, h2, h3, h4, h5⟩ => ?_⟩
  obtain ⟨k1, _, _, k4, k5⟩ := kl ⟨h1, Nat.zero_le _, Nat.zero_le _, h4, h5⟩
  exact ⟨k1, h2, h3, k4, k5⟩

theorem Evolves.lateWithRg {f : State → State} (hf : ∀ r s, Evolves w r s → Evolves w r (f s)) : Evolves w r (lateWithRg f s) :=
  (h.heldBack hf).upd
theorem Evolves.lateWithApp {f : State → State} (hf : ∀ r s, Evolves w r s → Evolves w r (f s)) : Evolves w r (lateWithApp f s) :=
  (h.heldBack hf).upd
theorem Evolves.ridgelineClockLost : Evolves w r (ridgelineClockLost s) :=
  Evolves.lateWithRg (Evolves.upd h.wr.wr) fun _ _ h => h.forwardingStop
theorem Evolves.appClockLost : Evolves w r (appClockLost s) :=
  Evolves.lateWithApp (Evolves.upd h.wr.wr) fun _ _ h => h.appCoresStop
theorem Evolves.serdesLost {k : Nat} : Evolves w r (serdesLost k s) := h.wrBit.wrBit.logEv.lanesDown
theorem Evolves.logLateAll {l : List (Nat × Nat × Nat)} {rtc : Nat} : Evolves w r (logLateAll l rtc s) := h.foldl fun _ _ h => h.logLate
theorem Evolves.groupTrain {k : Nat} : Evolves w r (groupTrain k s) := h.forEach fun _ _ h => (.ite h.wr h)
theorem Evolves.ridgelineLocked : Evolves w r (ridgelineLocked s) := h.upd.wr.forwardingResume.logLateAll
theorem Evolves.applicationLocked : Evolves w r (applicationLocked s) := h.upd.wr.appCoresRestart.logLateAll

theorem Evolves.servo {group : Nat} {measured filtered : Int} : Evolves w r (servo group measured filtered s) := by
  unfold Machine.servo
  extract_lets s1 _ _ s2 s3 s4
  have h1 : Evolves w r s1 := h.wrI.wr
  have h2 : Evolves w r s2 := h1.upd
  have h3 : Evolves w r s3 := .ite h2.setUnsynced (.ite h2.setUnsynced h2)
  have h4 : Evolves w r s4 := h3.wr
  exact .ite h4.upd (.ite h4.upd h4)

theorem Evolves.ptpFrame : Evolves w r (ptpFrame s) := by
  unfold Machine.ptpFrame
  split
  · exact h
  · extract_lets _ _ s1 s2
    have h1 : Evolves w r s1 := .ite (h.forEach (fun _ _ h => h.send)) h
    have h2 : Evolves w r s2 := .ite (h1.forEach (fun _ _ h => h.send)) h1
    exact .ite (.ite (h2.forEach (fun _ _ h => h.send)) h2) h1

theorem Evolves.syncLost : Evolves w r (syncLost s) := h.upd.setUnsynced

theorem Evolves.bmca : Evolves w r (bmca s) := by
  unfold Machine.bmca
  extract_lets _ _ s1
  have h1 : Evolves w r s1 := h.setUnsynced.wr
  split
  · exact .ite h1 (.ite h h.upd.wr.wr)
  · exact .ite h1 h.wr

theorem Evolves.tickMark {mark ns corr : Nat} : Evolves w r (tickMark mark ns corr s) := .ite h h.wr.logEv.upd
theorem Evolves.rtNowRead {ns : Nat} : Evolves w r (rtNowRead ns s) := h.latchRead

/-! ### Lantern -/

theorem Evolves.lanternClear {m : LanMode} : Evolves w r (lanternClear m s) := by
  unfold Machine.lanternClear
  extract_lets cell s1
  have h1 : Evolves w r s1 := h.mainOff
  clear_value s1 cell
  have h2 := h1.keep (p := fun a => !inLantern a)
  have h3 := h2.relog (l := ⟨[], [], [], [], []⟩) (c := { s1.clog with queue := [] }) fun _ => by simp [State.LogsOk]
  exact (Evolves.upd h3).wrB

theorem Evolves.rtcRead : Evolves w r (rtcRead s) := h.latchRead

theorem Evolves.appKick {i : Initiator} : Evolves w r (appKick i s) := by
  unfold Machine.appKick
  split
  · exact h.upd.answerSt
  · exact h.answerSt

theorem Evolves.wakeSource {bit : Nat} {on : Bool} : Evolves w r (wakeSource bit on s) := .ite h.wakeSet.cancelSleep h.wakeSet
theorem Evolves.wakeNow : Evolves w r (wakeNow s) := h.upd.wr.logEv

theorem Evolves.lmonCycle {n v : Nat} : Evolves w r (lmonCycle n v s) := by
  unfold Machine.lmonCycle
  split
  · exact h
  · extract_lets s1 _ _ s2 _ s3 s4
    have h1 : Evolves w r s1 := h.wr
    have h2 : Evolves w r s2 := h1.upd
    have h3 : Evolves w r s3 := h2.upd
    have h4 : Evolves w r s4 := .ite h3.wakeSet h3
    exact .ite (.ite h2 h4.wrBit.logEv) h1.upd.wakeSet

theorem Evolves.cellLow {code : Nat} : Evolves w r (cellLow code s) := by
  unfold Machine.cellLow
  split
  · extract_lets _ s1
    have h1 : Evolves w r s1 := .ite h h.upd.wr.logEv
    exact .ite h1.upd h1
  · exact h.upd

theorem Evolves.logWrite {e : LogEntry} : Evolves w r (logWrite e s) := by
  refine Evolves.wr ((Evolves.when h fun _ h => h.inc).relog ?_)
  rintro ⟨h1, h2, h3, _, h5⟩
  exact ⟨h1, h2, h3, by simp, h5⟩

theorem Evolves.logClear {i : Initiator} : Evolves w r (logClear i s) := by
  unfold Machine.logClear
  split
  · split
    · refine Evolves.answerSt (Evolves.logWrite (h.wr.wr.relog ?_))
      rintro ⟨h1, h2, h3, _, h5⟩
      exact ⟨h1, h2, h3, Nat.zero_le _, h5⟩
    · exact h.answerSt
  · exact h.answerSt

theorem Evolves.logEntryRead : Evolves w r (logEntryRead s) := (h.forEach (fun _ _ h => h.wr)).answer

/-! ### Image control -/

theorem Evolves.clogCheck : Evolves w r (clogCheck s) := by
  unfold Machine.clogCheck
  extract_lets _ _ s1 _ s2
  have h1 : Evolves w r s1 := .ite h h.wr.logEv
  have h2 : Evolves w r s2 := .ite h1.wr.logEv h1
  exact h2.wr.wr

theorem Evolves.noImage : Evolves w r (noImage s) := (h.wr.logEv.upd.forEach (fun _ _ h => h.setReg)).railsOff.recoveryServe

theorem Evolves.applyRailPlan {m : List Byte} : Evolves w r (applyRailPlan m s) := by
  unfold Machine.applyRailPlan
  extract_lets s1 _ _ _ s2
  have h1 : Evolves w r s1 := h.forEach fun _ _ h => h.wr.wr.wr.wr.wr
  have h2 : Evolves w r s2 := h1.upd
  exact .ite h2.railsOn h2.railsOff

theorem Evolves.bootFrom {k : Nat} : Evolves w r (bootFrom k s) := h.upd.wr.setReg.wr.logEv.applyRailPlan.firmwareStart.dbgShow

omit h in
theorem Evolves.boot (h : Evolves true r s) : Evolves true r (boot s) := by
  unfold Machine.boot
  extract_lets _ s1 s2 s3 _ s4 s5 s6 s7
  have h1 : Evolves true r s1 := h.upd
  have h2 : Evolves true r s2 := h1.clogCheck
  have h3 : Evolves true r s3 := h2.norSend
  have h4 : Evolves true r s4 := h3.norSend
  have h5 : Evolves true r s5 := .ite h3 h4.updStores
  have h6 : Evolves true r s6 := h5.norSend
  have h7 : Evolves true r s7 := h6.norSend
  split
  · exact h2.noImage
  · split
    · exact h6.showSlots.showPending.noImage
    · exact (Evolves.ite h7.updStores.wr.logEv h6).upd.showSlots.showPending.bootFrom

theorem Evolves.loadTime : Evolves w r (loadTime s) := h.upd.setUnsynced
theorem Evolves.firstTicks : Evolves w r (firstTicks s) := .ite h.ticksStart h
theorem Evolves.localActivate : Evolves w r (localActivate s) :=
  h.upd.loadSwitch.showActive.selfCompare.gridSetLoad.meterRestore.bankCheck.firstTicks.requestMask.startBootState

omit h in
theorem Evolves.pendingResolve (h : Evolves true r s) : Evolves true r (pendingResolve s) := by
  unfold Machine.pendingResolve
  extract_lets _ s1
  have h1 : Evolves true r s1 := h.upd
  split
  · exact h1
  · exact .ite h1 (.ite h1.activateNow.usedChanged h1.missActivation)

omit h in
theorem Evolves.pendingNow (h : Evolves true r s) {re : Bool} : Evolves true r (pendingNow re s) := by
  unfold Machine.pendingNow
  split
  · exact .ite h.activateNow.usedChanged h
  · exact h

theorem Evolves.nbrCompare {g : Nat} : Evolves w r (nbrCompare g s) := by
  unfold Machine.nbrCompare
  extract_lets _ _ _ s1
  have h1 : Evolves w r s1 := h.wrBit
  exact .ite h1.wrBit.logEv h1

theorem Evolves.announceRx {g : Nat} {digest : BitVec 128} {epoch : Nat} {pend : Option (Nat × BitVec 128)} :
    Evolves w r (announceRx g digest epoch pend s) :=
  (h.forEach (fun _ _ h => h.wr)).wr.wrBit.upd.nbrCompare.nbrPendEval

theorem Evolves.zeroExpClears : Evolves w r (zeroExpClears s) := .ite h.wr h

theorem Evolves.expWrite {i : Initiator} {wd : Nat} {v : Word} : Evolves w r (expWrite i wd v s) :=
  .ite (.ite h.answerSt h.logEv.answerSt) (.ite h.upd.answerSt (.ite h.answerSt ((h.forEach
    (fun _ _ h => h.setReg.clogPush)).upd.selfCompare.zeroExpClears.answerSt)))

omit h in
theorem Evolves.lifecycleDone (h : Evolves true r s) {j : OtpJob} : Evolves true r (lifecycleDone j s) := by
  unfold Machine.lifecycleDone
  extract_lets s1 s2
  have h1 : Evolves true r s1 := .ite h.zeroise.otpShow h
  have h2 : Evolves true r s2 := .ite h1.unlockEnd (.ite h1.dbgShow h1.accessShut)
  exact .ite h2.leaveForReset h2.mainReset

theorem Evolves.unlockBegin {j : OtpJob} : Evolves w r (unlockBegin j s) := .ite h.upd.wr.wr.logEv.dbgShow h

omit h in
theorem Evolves.otpDone (h : Evolves true r s) {success : Bool} : Evolves true r (otpDone success s) := by
  unfold Machine.otpDone
  split
  · exact h
  · extract_lets _ s1 s2 s3
    have h1 : Evolves true r s1 := h.updStores
    have h2 : Evolves true r s2 := h1.otpApply.showOps.respond
    have h3 : Evolves true r s3 := .ite h2.unlockBegin h2
    exact .ite (.ite h3.lifecycleDone h3) h1.logEv.showOps.respond

/-! ### Ticks -/

theorem Evolves.slewFrame : Evolves w r (slewFrame s) := by
  unfold Machine.slewFrame
  extract_lets _ s1
  have h1 : Evolves w r s1 := h.upd
  exact .ite h1.upd (.ite h1.upd h1.upd)

theorem Evolves.transferFrame : Evolves w r (transferFrame s) := .ite h.upd h
theorem Evolves.timeFrame : Evolves w r (timeFrame s) :=
  (h.relog (l := { s.log with once := [] }) (c := s.clog) id).upd.calFrame.adcFrame.upd.slewFrame.transferFrame.rtcAdvance
theorem Evolves.heartbeatFrame : Evolves w r (heartbeatFrame s) := h.upd
theorem Evolves.resumeFrame : Evolves w r (resumeFrame s) := .ite h.upd.adcResume h
theorem Evolves.stretchAdc {old : State} : Evolves w r (stretchAdc old s) := h.forEach fun _ _ h => h.adcStretch

theorem Evolves.controlFrame {sa sb : BitVec 32} {rb : BitVec 16} {ack : Bool} : Evolves w r (controlFrame sa sb rb ack s) :=
  ((h.graceFrame.swapMissed.pwmFrame.resumeFrame.stretchAdc.adcTick.forEach (fun _ _ h => h.unitFrame)).forEach
    (fun _ _ h => h.stageFrame)).islandFrame.heartbeatFrame.meterFrame.safetyScan

theorem Evolves.switchFrame : Evolves w r (switchFrame s) := h.biasTick.pwrTick.ptpFrame.ringFrame.ctlFrame.plotsFrame.engineFrame.unlockFrame.pwFrame

theorem Evolves.frameTick {sa sb : BitVec 32} {rb : BitVec 16} {ack : Bool} : Evolves w r (frameTick sa sb rb ack s) := by
  unfold Machine.frameTick
  extract_lets s1 s2
  have h1 : Evolves w r s1 := h.timeFrame.perfFrame
  have h2 : Evolves w r s2 := .ite h1.controlFrame h1
  exact h2.switchFrame

theorem Evolves.controlTick {i : Nat} : Evolves w r (controlTick i s) :=
  (h.forEach (fun _ _ h =>
    h.levelsShow)).stallCheck.engineTickEnd.wr.upd.upd.adcTick.windowsCut.windowsTake.anglesTake.stagesTake
      |>.engineTickBegin.meterTick.trackersTick.ticksForget

/-! ### Register accesses -/

theorem Evolves.widthRefused {a : Nat} : Evolves w r (widthRefused a s) := h.logEv.answerSt
theorem Evolves.undecoded {a : Nat} : Evolves w r (undecoded a s) := h.logEv.answerSt

theorem Evolves.plainWrite {i : Initiator} {d : RegDesc} {a : Nat} {v : Word} {after : State → State}
    (hafter : ∀ s, Evolves w r s → Evolves w r (after s)) :
    Evolves w r (plainWrite i d a v after s) :=
  .ite h.refuseLocked (.ite (h.logged (fun _ h => (hafter _ h.setReg))) (hafter _ h.setReg))

theorem Evolves.pwrCtrlWrite {i : Initiator} {v : Word} : Evolves w r (pwrCtrlWrite i v s) := by
  unfold Machine.pwrCtrlWrite
  extract_lets _ _ s1
  have h1 : Evolves w r s1 := h.wr.wr
  exact .ite h.refuseLocked (.ite h.answerSt (.ite h1.logEv h1.reqWrite))

theorem Evolves.domReqWrite {i : Initiator} {v : Word} : Evolves w r (domReqWrite i v s) :=
  .ite h (.ite h.refuseLocked (h.logged (fun _ h => h.sdgWrite)))

theorem Evolves.schedWrite {v : Word} : Evolves w r (schedWrite v s) := by
  unfold Machine.schedWrite
  extract_lets _ _ _ s1 s2
  have h1 : Evolves w r s1 := h.w1cWrite
  have h2 : Evolves w r s2 := h1.when fun _ h => h.logEv
  exact .ite h2.upd.settleTrips h2

theorem Evolves.logCtrlWrite {i : Initiator} {v : Word} : Evolves w r (logCtrlWrite i v s) := by
  unfold Machine.logCtrlWrite
  split
  · exact h.answerSt
  · extract_lets s1
    have h1 : Evolves w r s1 := h.wr
    exact .ite h1.logClear h1

theorem Evolves.bankCtrlWrite {i : Initiator} {v : Word} : Evolves w r (bankCtrlWrite i v s) := by
  unfold Machine.bankCtrlWrite
  split
  · exact h
  · split
    · exact h.armAt
    · exact h.armNext
    · exact h.swapDisarm
    · exact h.bankCopy
    · exact h

theorem Evolves.loopWrite {i : Initiator} {d : RegDesc} {a : Nat} {v : Word} : Evolves w r (loopWrite i d a v s) := by
  unfold Machine.loopWrite
  split
  · exact h.bankCtrlWrite
  · split
    · exact h.rearmWrite
    · exact .ite h.leWrite (h.plainWrite (fun _ h => h))

theorem Evolves.pwmWrite {i : Initiator} {d : RegDesc} {a : Nat} {v : Word} : Evolves w r (pwmWrite i d a v s) := by
  unfold Machine.pwmWrite
  split
  · split
    · exact h.forEach fun _ _ h => h.pairClear
    · exact h.pwmForceWrite
    · exact h.setReg
    · exact h.plainWrite fun _ h => h
  · split
    · exact .ite h.refuseLocked (h.plainWrite (fun _ h => h))
    · exact .ite h.refuseLocked (h.plainWrite (fun _ h => h))
    · exact h.plainWrite fun _ h => h

theorem Evolves.adcWrite {i : Initiator} {d : RegDesc} {a : Nat} {v : Word} : Evolves w r (adcWrite i d a v s) := by
  unfold Machine.adcWrite
  split
  · exact h
  · exact .ite h.urgentWrite (.ite h.swTrigWrite (.ite h (h.plainWrite (fun _ h => h))))

theorem Evolves.meterWrite {i : Initiator} {d : RegDesc} {a : Nat} {v : Word} : Evolves w r (meterWrite i d a v s) := by
  unfold Machine.meterWrite
  split
  · exact .ite h.meterCmd (h.unlockedFor (fun _ h => h.wr.wr))
  · split
    · exact h.intLenWrite
    · split
      · exact h.plainWrite fun _ h => h.chanReason
      · exact h.plainWrite fun _ h => h

theorem Evolves.plotWrite {i : Initiator} {d : RegDesc} {a : Nat} {v : Word} : Evolves w r (plotWrite i d a v s) := by
  unfold Machine.plotWrite
  split
  · exact .ite h.fdbCommand h
  · split
    · exact .ite h (h.unlockedFor (fun _ h => h.polWrite))
    · exact h.plainWrite fun _ h => h

theorem Evolves.cspWrite {i : Initiator} {d : RegDesc} {a : Nat} {v : Word} : Evolves w r (cspWrite i d a v s) :=
  .ite h (.ite h.cspXferWrite (.ite h.cspPush (h.plainWrite (fun _ h => h))))

theorem Evolves.counterWrite {i : Initiator} {d : RegDesc} {a : Nat} {v : Word} : Evolves w r (counterWrite i d a v s) := by
  unfold Machine.counterWrite
  split
  · exact h
  · split
    · exact h.pcSelWrite
    · exact h.cntLoWrite
    · exact h.cntHiWrite
    · exact .ite h.counterCommand (h.plainWrite (fun _ h => h))

theorem Evolves.debugWrite {i : Initiator} {a : Nat} {v : Word} : Evolves w r (debugWrite i a v s) := by
  unfold Machine.debugWrite
  split
  · exact .ite h.dbgLock h
  · split
    · exact h.obsRoute
    · exact h.atestRoute
    · exact h

theorem Evolves.switchWrite {i : Initiator} {d : RegDesc} {a : Nat} {v : Word} : Evolves w r (switchWrite i d a v s) := by
  unfold Machine.switchWrite
  split
  · exact h.pwrCtrlWrite
  · split
    · exact h.domReqWrite
    · split
      · exact h.schedWrite
      · split
        · exact h.plainWrite fun _ h => h.synceEval
        · split
          · extract_lets s1
            have h1 : Evolves w r s1 := h.plainWrite fun _ h => h
            exact .ite h1.appKick h1
          · split
            · exact h.logCtrlWrite
            · split
              · exact h.plainWrite fun _ h => h.cellTypeApply
              · split
                · exact h.plainWrite fun _ h => h.selfCompare
                · split
                  · exact h.expWrite
                  · exact .ite h.answerSt (h.plainWrite (fun _ h => h))

theorem Evolves.islCtrlWrite {i : Initiator} {d : RegDesc} {v : Word} : Evolves w r (islCtrlWrite i d v s) := .ite h (h.plainWrite (fun _ h => h))

theorem Evolves.blockWrite {i : Initiator} {d : RegDesc} {a : Nat} {v : Word} : Evolves w r (blockWrite i d a v s) :=
  .ite h.switchWrite (.ite h.adcWrite (.ite h.winClrWrite (.ite h.winChkFrom (.ite (h.plainWrite (fun _ h => h.dacWritten)) (.ite h.loopWrite
    (.ite h.islCtrlWrite (.ite h.pwmWrite (.ite h.meterWrite (.ite h.plotWrite (.ite h.cspWrite (.ite h.counterWrite (.ite h.debugWrite
    (h.plainWrite (fun _ h => h))))))))))))))

theorem Evolves.writeWord {i : Initiator} {a : Nat} {v : Word} : Evolves w r (writeWord i a v s) :=
  (Evolves.ite h.undecoded (Evolves.ite h.safetyWrite (h.writeAdmitted (fun _ h => by
    split
    · exact h.blockWrite
    · exact h))))

theorem Evolves.plainRead {d : RegDesc} {a : Nat} : Evolves w r (plainRead d a s) := (Evolves.ite h h.setReg).answer
theorem Evolves.snapshotRead {i : Initiator} {a : Nat} : Evolves w r (snapshotRead i a s) := .ite h.counterLoRead h.answer

theorem Evolves.blockRead {i : Initiator} {d : RegDesc} {a : Nat} : Evolves w r (blockRead i d a s) := by
  unfold Machine.blockRead
  split
  · exact h.free.rtNowRead
  · split
    · exact h.rtcRead
    · split
      · exact h.logEntryRead
      · split
        · exact h.secStateRead
        · exact h.sigRead
        · exact .ite h.meterLoRead (.ite h.counterLoRead (.ite h.answer (.ite h.cspPop (.ite h.cspLenPop h.plainRead))))

theorem Evolves.readWord {i : Initiator} {a : Nat} : Evolves w r (readWord i a s) := (Evolves.ite h.undecoded (h.readAdmitted (fun _ h => by
    split
    · exact h.blockRead
    · exact h.snapshotRead)))

/-! ### Sessions -/

theorem Evolves.alertHeard {k : Nat} : Evolves w r (alertHeard k s) := .ite h.upd h
theorem Evolves.accepted {hd : Hdr} : Evolves w r (accepted hd s) := h.inc.countEv.setSess.wr.alertHeard.upd

theorem Evolves.withSession {hd : Hdr} {f : Nat → State → State} (hf : ∀ x1 s, Evolves w r s → Evolves w r (f x1 s)) :
    Evolves w r (withSession hd f s) :=
  .ite h (.ite (hf _ _ h.accepted) h.rejectFrame)

theorem Evolves.bucketTake {k : Nat} : Evolves w r (bucketTake k s) := .ite h.setSess h

theorem Evolves.tagsFullShow : Evolves w r (tagsFullShow s) := by
  unfold Machine.tagsFullShow
  extract_lets s1
  have h1 : Evolves w r s1 := h.wr
  exact .ite h1.upd.logEv h1

theorem Evolves.refusalLog {opcode k : Nat} {st : Status} : Evolves w r (refusalLog opcode k st s) := by
  unfold Machine.refusalLog
  split
  · exact h.wr.logEv
  · exact h.wr.logEv
  · exact h

theorem Evolves.busyShow {k : Nat} {st : Status} : Evolves w r (busyShow k st s) := .ite h (.ite h.wr (.ite h.tagsFullShow h))
theorem Evolves.refuse {hd : Hdr} {opcode k : Nat} {st : Status} : Evolves w r (refuse hd opcode k st s) := h.busyShow.refusalLog.respond
theorem Evolves.finish {hd : Hdr} {opcode k : Nat} {st : Status} {data : List Byte} : Evolves w r (finish hd opcode k st data s) := h.respond
theorem Evolves.longAck {hd : Hdr} {opcode k : Nat} : Evolves w r (longAck hd opcode k s) := h.respond

theorem Evolves.command {hd : Hdr} {opcode : Nat} {noImg : Bool} {find : Nat → State → Finding} {act : Nat → State → State}
    (hact : ∀ x1 s, Evolves w r s → Evolves w r (act x1 s)) :
    Evolves w r (command hd opcode noImg find act s) :=
  (h.withSession (fun _ _ h => by
    split
    · exact hact _ _ h.bucketTake
    · exact h.refuse))

theorem Evolves.openAt {hd : Hdr} {k role plot : Nat} {cnonce : List Byte} : Evolves w r (openAt hd k role plot cnonce s) :=
  h.free.setSess.upd.setReg.wr.wr.wr.wr.wr.showSessions.respondOpen

theorem Evolves.openRefuse {hd : Hdr} {st : Status} : Evolves w r (openRefuse hd st s) := by
  unfold Machine.openRefuse
  extract_lets s1
  have h1 : Evolves w r s1 := by
    unfold s1
    split
    · exact .ite h.wr.logEv h
    · exact h.tagsFullShow
    · exact h
  exact h1.refusalLog.respondOpen

theorem Evolves.sessionOpen {hd : Hdr} {role plot : Nat} {cnonce : List Byte} : Evolves w r (sessionOpen hd role plot cnonce s) := by
  unfold Machine.sessionOpen
  split
  · exact h.withSession fun _ _ h => h.refuse
  · split
    · exact h
    · split
      · exact h.openAt
      · exact h.openRefuse

theorem Evolves.coldAlert {k : Nat} : Evolves w r (coldAlert k s) := .ite h.upd.send h

theorem Evolves.sessionProved {hd : Hdr} {k : Nat} : Evolves w r (sessionProved hd k s) := by
  unfold Machine.sessionProved
  extract_lets s1 s2 s3 s4
  have h1 : Evolves w r s1 := h.wr
  have h2 : Evolves w r s2 := h1.logEv
  have h3 : Evolves w r s3 := h2.finish
  have h4 : Evolves w r s4 := .ite h3.runNeeded h3
  exact h4.coldAlert

theorem Evolves.sessionProve {hd : Hdr} : Evolves w r (sessionProve hd s) := by
  unfold Machine.sessionProve
  extract_lets _ s1
  have h1 : Evolves w r s1 := h.accepted
  split
  · exact h
  · split
    · split
      · exact h1.sessionProved
      · exact h1.refuse
    · exact h.command fun _ _ h => h

theorem Evolves.unauthenticFrame {k transport : Nat} {prove : Bool} : Evolves w r (unauthenticFrame k transport prove s) :=
  .ite h (.ite h.inc.wr.logEv.freeSession h.rejectFrame)

theorem Evolves.passwordWrong {k : Nat} : Evolves w r (passwordWrong k s) := by
  unfold Machine.passwordWrong
  extract_lets _ _ s1
  have h1 : Evolves w r s1 := h.upd.logEv
  exact .ite h1.upd.logEv h1

theorem Evolves.present {hd : Hdr} {k : Nat} {proof : BitVec 256} : Evolves w r (present hd k proof s) := .ite h.upd.wr.finish h.passwordWrong.finish

theorem Evolves.readWords {i : Initiator} {as : List Nat} {l : List Word} : Evolves w r (readWords i as l s).2.2 := by
  induction as generalizing l s with
  | nil => exact h
  | cons a as ih =>
    unfold Machine.readWords
    extract_lets s1
    have h1 : Evolves w r s1 := .ite h.readWord h.widthRefused
    split
    · exact ih h1
    · exact h1

theorem Evolves.regRead {hd : Hdr} {k a n : Nat} : Evolves w r (regRead hd k a n s) := h.readWords.finish
theorem Evolves.regReadRetired {hd : Hdr} {a n : Nat} : Evolves w r (regReadRetired hd a n s) :=
  .ite h.readWords.respondOpen h

theorem Evolves.writeWords {i : Initiator} {l : List (Nat × Word)} {n : Nat} : Evolves w r (writeWords i l n s).2.2 := by
  induction l generalizing n s with
  | nil => exact h
  | cons e l ih =>
    obtain ⟨a, v⟩ := e
    unfold Machine.writeWords
    extract_lets s1
    have h1 : Evolves w r s1 := .ite (Evolves.writeWord h.answerSt) h.widthRefused
    split
    · exact ih h1
    · exact h1

theorem Evolves.regWrite {hd : Hdr} {k a : Nat} {l : List Word} : Evolves w r (regWrite hd k a l s) := h.writeWords.finish

/-! ### Long operations -/

omit h in
theorem Evolves.setSlotBytes (h : Evolves true r s) {k : Nat} {l : List Byte} : Evolves true r (setSlotBytes k l s) := h.updStores

theorem Evolves.stagedLost : Evolves w r (stagedLost s) := by
  unfold Machine.stagedLost
  extract_lets _ s1
  have h1 : Evolves w r s1 := h.upd
  exact .ite h1 h1.upd.wr

omit h in
theorem Evolves.slotTo (h : Evolves true r s) {k : Nat} {x : SlotState} : Evolves true r (slotTo k x s) := h.saveRec.stagedLost
omit h in
theorem Evolves.slotBegin (h : Evolves true r s) {k : Nat} : Evolves true r (slotBegin k s) := h.slotTo.setSlotBytes
omit h in
theorem Evolves.slotDrop (h : Evolves true r s) {k : Nat} : Evolves true r (slotDrop k s) := h.setSlotBytes.slotTo
theorem Evolves.opAdvance {j n : Nat} {o : LongOp} : Evolves w r (opAdvance j n o s) := h.setOp.wr
omit h in
theorem Evolves.slotProgram (h : Evolves true r s) {k n : Nat} {l : List Byte} : Evolves true r (slotProgram k n l s) := h.setSlotBytes.norSend
omit h in
theorem Evolves.program (h : Evolves true r s) {j : Nat} {o : LongOp} {l : List Byte} : Evolves true r (program j o l s) := h.slotProgram.opAdvance

omit h in
theorem Evolves.stageHeader (h : Evolves true r s) {j : Nat} {o : LongOp} {l : List Byte} : Evolves true r (stageHeader j o l s).2 := by
  unfold Machine.stageHeader
  extract_lets all
  split
  · exact h.opEnd
  · exact h.slotBegin.slotProgram.opAdvance

omit h in
theorem Evolves.feed (h : Evolves true r s) {j : Nat} {o : LongOp} {l : List Byte} : Evolves true r (feed j o l s).2 := by
  unfold Machine.feed
  split
  · exact h.program
  · split
    · split
      · exact h
      · split
        · exact h.slotBegin.program
        · exact h.opEnd
    · split
      · exact h.stageHeader
      · exact h.opAdvance

omit h in
theorem Evolves.dataTake (h : Evolves true r s) {hd : Hdr} {target : Nat} {l : List Byte} {k : Nat} : Evolves true r (dataTake hd target l k s) := by
  unfold Machine.dataTake
  split
  · exact h
  · split
    · exact h
    · extract_lets res
      have hr : Evolves true r res.2 := h.feed
      clear_value res
      split
      · exact hr.finish
      · exact hr.refuse

omit h in
theorem Evolves.slotGood (h : Evolves true r s) {o : LongOp} : Evolves true r (slotGood o s) := .ite h.slotTo.upd.wr h.saveRec.stagedLost

omit h in
theorem Evolves.slotVerify (h : Evolves true r s) {j : Nat} {o : LongOp} : Evolves true r (slotVerify j o s) := by
  unfold Machine.slotVerify
  split
  · exact h.slotGood.opEnd
  · exact (h.slotDrop.when (fun _ h => h.logEv)).opEnd

omit h in
theorem Evolves.emptyComplete (h : Evolves true r s) {j : Nat} {o : LongOp} : Evolves true r (emptyComplete j o s) :=
  .ite h.opEnd h.slotBegin.slotVerify

omit h in
theorem Evolves.writeComplete (h : Evolves true r s) {opcode j : Nat} : Evolves true r (writeComplete opcode j s) := by
  unfold Machine.writeComplete
  split
  · exact .ite (.ite h.slotVerify h.emptyComplete) h
  · exact h

theorem Evolves.dumpDone {j : Nat} {o : LongOp} : Evolves w r (dumpDone j o s) := (h.foldl (fun _ _ h => h.opRespond)).opEnd

omit h in
theorem Evolves.partNext (h : Evolves true r s) {j f : Nat} : Evolves true r (partNext j f s) := by
  induction f generalizing s with
  | zero => exact h
  | succ f ih =>
    unfold Machine.partNext
    split
    · exact h
    · refine .ite h.opEnd (.ite h.setOp.opSuspend (.ite h.opEnd (.ite (.ite h h.setOp.wr) (.ite h (.ite (ih h.setOp) ?_)))))
      exact h.setOp.startChecks

omit h in
theorem Evolves.partDone (h : Evolves true r s) {window pass : Bool} : Evolves true r (partDone window pass s) := by
  unfold Machine.partDone
  split
  · exact h
  · split
    · exact h
    · exact .ite h.setOp.partNext (.ite h.partNext h)

omit h in
theorem Evolves.opBegin (h : Evolves true r s) {j : Nat} {o : LongOp} : Evolves true r (opBegin j o s) := by
  unfold Machine.opBegin
  extract_lets s1
  have h1 : Evolves true r s1 := h.setOp.wr
  exact .ite h1.opEnd (.ite h1.partNext h1)

omit h in
theorem Evolves.opCancel (h : Evolves true r s) {j : Nat} : Evolves true r (opCancel j s) := by
  unfold Machine.opCancel
  split
  · exact h
  · exact .ite h.pendingErase.opEnd (.ite h.setOp ((Evolves.ite h.slotDrop h).opEnd))

theorem Evolves.opHold {j : Nat} : Evolves w r (opHold j s) := by
  unfold Machine.opHold
  split
  · exact h
  · exact .ite h.setOp h.opSuspend

omit h in
theorem Evolves.opResume (h : Evolves true r s) {j k : Nat} : Evolves true r (opResume j k s) := by
  unfold Machine.opResume
  split
  · exact h
  · extract_lets _ s1
    have h1 : Evolves true r s1 := h.setOp.wr
    exact .ite h1.opBegin h1.wr.runNeeded

theorem Evolves.opCommand {hd : Hdr} {opcode tag : Nat} {ok : Nat → LongOp → State → Bool} {f : Nat → Nat → LongOp → State → State}
    (hf : ∀ x1 x2 x3 s, Evolves w r s → Evolves w r (f x1 x2 x3 s)) :
    Evolves w r (opCommand hd opcode tag ok f s) :=
  (h.command (fun _ _ h => by
    split
    · exact hf _ _ _ _ h
    · exact h))

theorem Evolves.longStart {hd : Hdr} {k state : Nat} {o : LongOp} : Evolves w r (longStart hd k state o s) := by
  unfold Machine.longStart
  split
  · exact h
  · exact h.opPlace.longAck

theorem Evolves.dumpRetired {hd : Hdr} {log from' n : Nat} : Evolves w r (dumpRetired hd log from' n s) := by
  unfold Machine.dumpRetired
  split
  · split
    · exact h.opPlace.respondOpen
    · exact h.respondOpen
  · exact h

/-! ### Commands -/

omit h in
theorem Evolves.actAccept (h : Evolves true r s) {hd : Hdr} {opcode k n : Nat} {isLocal : Bool} {plot : Option Nat} :
    Evolves true r (actAccept hd opcode k n isLocal plot s) := by
  unfold Machine.actAccept
  split
  · exact h
  · exact h.saveRec.longStart

omit h in
theorem Evolves.actCommand (h : Evolves true r s) {hd : Hdr} {opcode n : Nat} {args : State → Bool} {digest : BitVec 128}
    {more : State → Bool} {isLocal : Bool} {plot : Option Nat} :
    Evolves true r (actCommand hd opcode n args digest more isLocal plot s) :=
  (h.withSession (fun _ _ h => by
    split
    · exact h.bucketTake.actAccept
    · exact h.refuse))

theorem Evolves.bankSwap {hd : Hdr} {k mode f : Nat} : Evolves w r (bankSwap hd k mode f s) := by
  unfold Machine.bankSwap
  extract_lets _ s1
  have h1 : Evolves w r s1 := (h.writeAdmitted (fun _ h => by
      split
      · exact h.armSwap
      · exact h.armNext))
  split
  · exact h1.finish
  · exact h1.refuse

omit h in
theorem Evolves.otpStart (h : Evolves true r s) {hd : Hdr} {k offset value : Nat} {hash : BitVec 256} {opcode : Nat} :
    Evolves true r (otpStart hd k offset value hash opcode s) :=
  h.updStores.otpShow.showOps

omit h in
theorem Evolves.settingSpend (h : Evolves true r s) {offset : Nat} : Evolves true r (settingSpend offset s) := .ite h.updStores h.updStores

omit h in
theorem Evolves.serviceUnlock (h : Evolves true r s) {hd : Hdr} {k : Nat} {t : List Byte} : Evolves true r (serviceUnlock hd k t s) := by
  unfold Machine.serviceUnlock
  split
  · exact h.updStores.otpStart
  · exact h.logEv.refuse

omit h in
theorem Evolves.keyChange (h : Evolves true r s) {k slot : Nat} {o : Otp} : Evolves true r (keyChange k slot o s) := h.updStores.otpShow.clogPush

/-! ### Control cells -/

theorem Evolves.plotArrive {c : PlotCmd} : Evolves w r (plotArrive c s) := h.upd

theorem Evolves.plotSend {hd : Hdr} {k dest : Nat} {c : PlotCmd} : Evolves w r (plotSend hd k dest c s) := by
  unfold Machine.plotSend
  split
  · exact .ite h.plotArrive.finish h.refuse
  · split
    · extract_lets s1
      have h1 : Evolves w r s1 := h.floodCell
      exact .ite h1.plotArrive.finish h1.finish
    · exact h.unicastCell.upd.showOps

theorem Evolves.plotBy {hd : Hdr} {dest len : Nat} {c : PlotCmd} : Evolves w r (plotBy hd dest len c s) := h.command fun _ _ h => h.plotSend
theorem Evolves.shortFail {origin : Nat} : Evolves w r (shortFail origin s) := .ite h.upd.logEv h

theorem Evolves.shortAnswer {key : BitVec 256} {origin : Nat} {flood : Bool} {c : ShortCmd} {st : Status} :
    Evolves w r (shortAnswer key origin flood c st s) :=
  .ite h h.unicastCell

theorem Evolves.shortRun {key : BitVec 256} {origin : Nat} {flood : Bool} {c : ShortCmd} : Evolves w r (shortRun key origin flood c s) := by
  unfold Machine.shortRun
  extract_lets c s1
  have h1 : Evolves w r s1 := by
    unfold s1
    clear_value c
    split
    · exact h.plotArrive.logEv
    · exact h
  exact h1.shortAnswer

theorem Evolves.shortCommand {origin dest fn : Nat} {c : ShortCmd} : Evolves w r (shortCommand origin dest fn c s) := by
  unfold Machine.shortCommand
  split
  · exact h
  · split
    · exact h.shortFail
    · exact .ite h.shortRun h.shortFail

theorem Evolves.commandResp {sop status tag : Nat} {snonce : List Byte} {seq : Nat} {hmac : BitVec 128} :
    Evolves w r (commandResp sop status tag snonce seq hmac s) := by
  unfold Machine.commandResp
  split
  · exact h
  · exact .ite h.upd.showOps.respond h

theorem Evolves.shortTimeout {tag : Nat} : Evolves w r (shortTimeout tag s) := by
  unfold Machine.shortTimeout
  split
  · exact h
  · exact h.upd.showOps.respond

theorem Evolves.badCell {g : Nat} {replay : Bool} : Evolves w r (badCell g replay s) := by
  unfold Machine.badCell
  extract_lets s1
  have h1 : Evolves w r s1 := .ite h.inc h.inc
  exact .ite h1.upd.logEv h1

theorem Evolves.cellSeen {c : Cell} : Evolves w r (cellSeen c s) := h.upd
theorem Evolves.cellForward {g : Nat} {c : Cell} : Evolves w r (cellForward g c s) := .ite h h.upd.countTx.send

theorem Evolves.ringCell {g : Nat} {b : CellBody} : Evolves w r (ringCell g b s) := by
  unfold Machine.ringCell
  split
  · exact h.upd
  · exact h.upd
  · exact h.leaveRx
  · exact h.wakeGroup
  · exact h.insertPlanRx
  · exact h.free.drowseReqAt
  · exact h.drowseAckRx
  · exact h.drowseNakRx
  · exact h.nbrIdRx
  · exact h

theorem Evolves.announceWordsRx {g : Nat} {wd : List Nat} : Evolves w r (announceWordsRx g wd s) := h.announceRx

theorem Evolves.cellConsume {g : Nat} {c : Cell} {at' : CellTime} : Evolves w r (cellConsume g c at' s) := by
  unfold Machine.cellConsume
  split
  · exact h.anchorCellRx
  · exact h.tickMark
  · exact h.announceWordsRx
  · exact h.shortCommand
  · exact h.commandResp
  · exact h.ringCell

theorem Evolves.floodSeen {c : Cell} : Evolves w r (floodSeen c s) := by
  unfold Machine.floodSeen
  split
  · exact h.upd
  · exact h

theorem Evolves.cellReach {g : Nat} {c : Cell} {t : CellTime} : Evolves w r (cellReach g c t s) :=
  .ite h.cellConsume (.ite (.ite h.cellConsume h.cellForward) (.ite h h.floodSeen.cellConsume.cellForward))
theorem Evolves.ptpForward {g : Nat} {c : Cell} {kind corr stay : Nat} : Evolves w r (ptpForward g c kind corr stay s) := .ite h h.countTx.send

theorem Evolves.cellChecked {g : Nat} {c : Cell} {valid : Bool} {t : CellTime} : Evolves w r (cellChecked g c valid t s) := by
  unfold Machine.cellChecked
  split
  · exact h.ptpForward
  · exact .ite h.badCell (.ite h (.ite h.badCell h.cellSeen.countEv.cellReach))

theorem Evolves.controlCell {g : Nat} {c : Cell} {valid : Bool} {t : CellTime} : Evolves w r (controlCell g c valid t s) := by
  unfold Machine.controlCell
  extract_lets _ _ _ s1
  have h1 : Evolves w r s1 := h.setCq.countRx
  exact .ite h (.ite h1.inc h1.cellChecked)

end

end Sys2Proof.Machine
end

