-- ==== Sys2Proof/Proofs/EveryCommand.lean ====
section
/-!
PROOFS. Proofs/EveryCommand.lean: every command answers a next state that keeps the stores in order; the register file stays canonical.
-/
namespace Sys2Proof.Machine

/-- A command answers a next state that keeps the stores as `Evolves` says, one cycle later. -/
def Ends (w : Bool) (s : State) (o : Host.Outcome State Fault Refusal) : Prop :=
  ∃ t, o = .next t ∧ Evolves w { s with cycle := s.cycle + 1 } t

theorem run_ends {w : Bool} {s : State} {f : State → State} (hf : ∀ r s, Evolves w r s → Evolves w r (f s)) : Ends w s (run f s) :=
  ⟨_, rfl, hf _ _ (.refl w _)⟩

theorem runLan_ends {w : Bool} {s : State} {f : State → State} (hf : ∀ r s, Evolves w r s → Evolves w r (f s)) : Ends w s (runLan f s) :=
  run_ends fun r s h => .ite h (hf r s h)

/-- Taking the oldest queued entry only shortens a queue. -/
theorem logPop_shortens {l m : TroubleLog} {e : LogEntry} (h : logPop l = some (e, m)) :
    m.lanQ.length ≤ l.lanQ.length ∧ m.ctrlQ.length ≤ l.ctrlQ.length ∧ m.switchQ.length ≤ l.switchQ.length ∧ m.ring = l.ring := by
  obtain ⟨lanQ, ctrlQ, switchQ, ring, once⟩ := l
  rcases lanQ with - | ⟨a, q⟩ <;> rcases ctrlQ with - | ⟨b, p⟩ <;> rcases switchQ with - | ⟨d, x⟩ <;> simp only [logPop] at h
  all_goals try split at h
  all_goals try split at h
  all_goals cases h
  all_goals simp

section
variable {w : Bool} {s : State}

/-! ### Window monitors -/

theorem execWinTrip_ends {n : Fin 32} {v hi lo at' : Nat} {forced : Bool} : Ends w s (execWinTrip n v hi lo at' forced s) :=
  run_ends fun _ _ h => (h.upd.forEach (fun _ _ h => h.compEval.winAct)).settleTrips
theorem execBlankEnd_ends {n : Fin 32} : Ends w s (execBlankEnd n s) := run_ends fun _ _ h => h.upd.winAct.settleTrips
theorem execWinClr_ends {i : Initiator} {v : Word} : Ends w s (execWinClr i v s) := run_ends fun _ _ h => h.writeAdmitted fun _ h => h.winClrWrite
theorem execWinChkStart_ends {i : Initiator} {v : Word} : Ends w s (execWinChkStart i v s) :=
  run_ends fun _ _ h => h.writeAdmitted fun _ h => h.winChkFrom

/-! ### PWM -/

theorem execPwmTrip_ends {p : Fin 72} {railFault loopStale : Bool} : Ends w s (execPwmTrip p railFault loopStale s) :=
  run_ends fun _ _ h => h.settleTrips
theorem execCycleHold_ends {p : Fin 72} : Ends w s (execCycleHold p s) := run_ends fun _ _ h => h.settlePair
theorem execPwmClr_ends {i : Initiator} {wd : Fin 3} {v : Word} : Ends w s (execPwmClr i wd v s) :=
  run_ends fun _ _ h => h.writeAdmitted fun _ h => (h.forEach (fun _ _ h => h.pairClear))
theorem execPwmForce_ends {i : Initiator} {wd : Fin 3} {v : Word} : Ends w s (execPwmForce i wd v s) :=
  run_ends fun _ _ h => h.writeAdmitted fun _ h => h.pwmForceWrite
theorem execLineCalibration_ends {m : Option (List (Fin 48))} : Ends w s (execLineCalibration m s) := run_ends fun _ _ h => .ite h.upd.lineMeasured h
theorem execCalDone_ends {maps : List (Option (List (Fin 48)))} : Ends w s (execCalDone maps s) :=
  run_ends fun _ _ h => .ite ((h.forEach (fun _ _ h => h.lineMeasured)).wr.initEnds.settleTrips) h

/-! ### Gate drive -/

theorem execGdFlt_ends {p : Fin 72} {low : Bool} : Ends w s (execGdFlt p low s) := run_ends fun _ _ h => h.upd.wrB.settleTrips
theorem execStatusWordRx_ends {p : Fin 72} {wd : BitVec 24} {codeOk : Bool} : Ends w s (execStatusWordRx p wd codeOk s) :=
  run_ends fun _ _ h => .ite (.ite h.validWord h.inc.countEv) h
theorem execLinkLost_ends {p : Fin 72} {ns : Nat} : Ends w s (execLinkLost p ns s) := run_ends fun _ _ h => .ite h.wr.inc.wr.logEv.settleTrips h
theorem execGdEnLow_ends : Ends w s (execGdEnLow s) := run_ends fun _ _ h => (h.when (fun _ h => h.logEv)).upd.wr.settleTrips

theorem execGdEnRise_ends {low : Nat} {locked : Bool} : Ends w s (execGdEnRise low locked s) := run_ends fun r s h => by
  extract_lets _ _ s1 s2
  have h1 : Evolves w r s1 := h.upd
  have h2 : Evolves w r s2 := h1.wr.wr
  exact .ite h2 (.ite h2.clearingEdge h2.wr.logEv)

/-! ### Safety I/O -/

theorem execSignatureCompare_ends {core eng : Option SigWindow} : Ends w s (execSignatureCompare core eng s) :=
  run_ends fun _ _ h => .ite h.windowsCompare h
theorem execLsSigLoRead_ends {i : Initiator} {k : Fin 4} : Ends w s (execLsSigLoRead i k s) :=
  run_ends fun _ _ h => h.readAdmitted fun _ h => h.sigRead
theorem execSafeTrip_ends {i : Initiator} {v : Word} : Ends w s (execSafeTrip i v s) := run_ends fun _ _ h => h.safetyWrite
theorem execLsTest_ends {i : Initiator} {v : Word} : Ends w s (execLsTest i v s) := run_ends fun _ _ h => h.safetyWrite

theorem execSafetyChangeRelease_ends {agree ab : Bool} {cycle : Nat} : Ends w s (execSafetyChangeRelease agree ab cycle s) := run_ends fun r s h => by
  split
  · exact h
  · exact .ite h (.ite (.ite h.upd.releaseChange h) (.ite h.upd.releaseChange h.coreMismatch))

theorem execDiscrepancy_ends {n : Fin 32} : Ends w s (execDiscrepancy n s) := run_ends fun _ _ h => .ite h.setIn.faultBit.wrBit.logEv.enterLockout h
theorem execTestPulse_ends {k : Fin 8} {sa sb : BitVec 32} : Ends w s (execTestPulse k sa sb s) :=
  run_ends fun _ _ h => .ite ((h.upd.forEach (fun _ _ h => h.testInput)).safetyPending) h
theorem execSeqWdog_ends : Ends w s (execSeqWdog s) := run_ends fun _ _ h => .ite h.wr.logEv.enterLockout h
theorem execRbFail_ends {n : Fin 16} : Ends w s (execRbFail n s) := run_ends fun _ _ h => .ite h.wrBit.logEv.enterLockout h

theorem execOffPulse_ends {n : Fin 16} {rb : Bool} : Ends w s (execOffPulse n rb s) := run_ends fun r s h => by
  split
  · extract_lets _ s1
    have h1 : Evolves w r s1 := h.upd
    exact .ite h1.wrBit.logEv.enterLockout h1.wrBit.safetyPending
  · exact h

theorem execSafeAckPress_ends : Ends w s (execSafeAckPress s) := run_ends fun _ _ h => .ite h.ackPressed.upd h
theorem execPwBlockEnd_ends : Ends w s (execPwBlockEnd s) := run_ends fun _ _ h => .ite h.upd h

/-! ### Analogue acquisition -/

theorem execAdcTrigger_ends {c : Fin 40} {e : Fin 16} : Ends w s (execAdcTrigger c e s) := run_ends fun r s h => by
  extract_lets
  split
  · exact h
  · exact .ite h h.putCore.triggerEntry

theorem execAdcSwTrig_ends {i : Initiator} {c : Fin 40} {v : Word} : Ends w s (execAdcSwTrig i c v s) :=
  run_ends fun _ _ h => h.writeAdmitted fun _ h => h.swTrigWrite
theorem execUrgentRequest_ends {i : Initiator} {c : Fin 40} {v : Word} : Ends w s (execUrgentRequest i c v s) :=
  run_ends fun _ _ h => h.writeAdmitted fun _ h => h.urgentWrite

theorem execEntryResult_ends {c : Fin 40} {l : List Int} {cycle : BitVec 13} : Ends w s (execEntryResult c l cycle s) := run_ends fun r s h => by
  split
  · exact h
  · split
    · exact h.setCore
    · exact .ite h.writeResult h.setCore

theorem execEntryStart_ends {c : Fin 40} {cycle : BitVec 13} : Ends w s (execEntryStart c cycle s) := run_ends fun r s h => by
  extract_lets
  split
  · exact h
  · split
    · exact h
    · extract_lets s1 s2
      have h1 : Evolves w r s1 := h.setCore
      have h2 : Evolves w r s2 := h1.wrBit.logOnce
      exact .ite h2.writeResult h1.startEntry

theorem execRefLost_ends {g : Fin 10} : Ends w s (execRefLost g s) := run_ends fun _ _ h => h.refFalls
theorem execRefRestored_ends {g : Fin 10} : Ends w s (execRefRestored g s) :=
  run_ends fun _ _ h => .ite h (h.wr.logOnce.forEach (fun _ _ h => h.setCore))

theorem execOpenWireCheck_ends {c : Fin 40} {m : Fin 4} : Ends w s (execOpenWireCheck c m s) := run_ends fun r s h => by
  extract_lets _ _ _ _ s1
  have h1 : Evolves w r s1 := h.putCore
  split
  · exact .ite h1.setOpen h
  · exact h

/-! ### Debug -/

theorem execAtestRoute_ends {i : Initiator} {n : Fin 2} {v : Word} : Ends w s (execAtestRoute i n v s) :=
  run_ends fun _ _ h => h.writeAdmitted fun _ h => h.atestRoute
theorem execDebugHalt_ends {core eng : Bool} {apps : BitVec 4} : Ends w s (execDebugHalt core eng apps s) := run_ends fun _ _ h => .ite h.debugHalt h
theorem execDebugResume_ends : Ends w s (execDebugResume s) := run_ends fun _ _ h => .ite h.debugResume h
theorem execUnlockEnd_ends : Ends w s (execUnlockEnd s) := run_ends fun _ _ h => .ite h.unlockEnd h
theorem execDbgLock_ends {i : Initiator} : Ends w s (execDbgLock i s) := run_ends fun _ _ h => h.writeAdmitted fun _ h => h.dbgLock
theorem execIdcode_ends : Ends w s (execIdcode s) := run_ends fun _ _ h => h.tapLoad.send
theorem execSamplePreload_ends : Ends w s (execSamplePreload s) := run_ends fun _ _ h => h.tapLoad.scanOut
theorem execExtest_ends : Ends w s (execExtest s) := run_ends fun _ _ h => h.tapLoad.scanOut
theorem execIntest_ends : Ends w s (execIntest s) := run_ends fun _ _ h => h.tapLoad.scanOut
theorem execExtestPulse_ends : Ends w s (execExtestPulse s) := run_ends fun _ _ h => h.tapLoad
theorem execExtestTrain_ends : Ends w s (execExtestTrain s) := run_ends fun _ _ h => h.tapLoad
theorem execBypass_ends : Ends w s (execBypass s) := run_ends fun _ _ h => h.tapLoad
theorem execDebug_ends : Ends w s (execDebug s) := run_ends fun _ _ h => h.tapLoad

/-! ### Command engine -/

theorem execSessionIdle_ends {k : Fin 64} : Ends w s (execSessionIdle k s) := run_ends fun _ _ h => h.sessionIdle
theorem execHalfOpenTimeout_ends {k : Fin 64} : Ends w s (execHalfOpenTimeout k s) := run_ends fun _ _ h => h.halfOpenTimeout

/-! ### Serial ports -/

theorem execCspTxPush_ends {i : Initiator} {n : Fin 4} {v : Word} : Ends w s (execCspTxPush i n v s) :=
  run_ends fun _ _ h => h.writeAdmitted fun _ h => h.cspPush
theorem execCspRxPop_ends {i : Initiator} {n : Fin 4} : Ends w s (execCspRxPop i n s) := run_ends fun _ _ h => h.readAdmitted fun _ h => h.cspPop
theorem execCspRxlenPop_ends {i : Initiator} {n : Fin 4} : Ends w s (execCspRxlenPop i n s) :=
  run_ends fun _ _ h => h.readAdmitted fun _ h => h.cspLenPop
theorem execCspGo_ends {i : Initiator} {n : Fin 4} {len : BitVec 12} : Ends w s (execCspGo i n len s) :=
  run_ends fun _ _ h => h.writeAdmitted fun _ h => h.cspXferWrite

theorem execCspXferDone_ends {n : Fin 4} {rx : List Word} : Ends w s (execCspXferDone n rx s) := run_ends fun r s h => by
  split
  · exact h
  · split
    · exact h
    · exact h.setCsp.wr.cspReceive

theorem execCspSlaveXfer_ends {n : Fin 4} {bits : Nat} {rx : List Word} : Ends w s (execCspSlaveXfer n bits rx s) :=
  run_ends fun _ _ h => .ite h.cspSlave h
theorem execCspCmdXfer_ends {n : Fin 4} {bits len : Nat} : Ends w s (execCspCmdXfer n bits len s) := run_ends fun _ _ h => .ite h.cspFrame h

/-! ### Ports and buffers -/

theorem execCellInsert_ends {g : Fin 4} : Ends w s (execCellInsert g s) := run_ends fun r s h => by
  extract_lets
  split
  · split
    · exact .ite h h.setCq.countEv.countTx.send
    · exact h
  · exact h

/-! ### Rings -/

theorem execGroupDown_ends {g : Fin 4} {cause : Fin 16} : Ends w s (execGroupDown g cause s) := run_ends fun _ _ h => .ite h.logEv.groupFall h
theorem execLaneDown_ends {l : Fin 128} {cause : Fin 16} : Ends w s (execLaneDown l cause s) := run_ends fun _ _ h => .ite h.laneDown h

theorem execLaneAligned_ends {l : Fin 128} : Ends w s (execLaneAligned l s) := run_ends fun r s h => by
  extract_lets _ s1 s2 s3
  have h1 : Evolves w r s1 := h.wr
  have h2 : Evolves w r s2 := h1.wr.wr.wr
  have h3 : Evolves w r s3 := h2.synceEval
  split
  · split
    · exact h3
    · split
      · extract_lets s4
        have h4 : Evolves w r s4 := h3.wr
        exact .ite h4.groupUp h4
      · exact h3
  · exact h

theorem execNbrIdSend_ends {g : Fin 4} : Ends w s (execNbrIdSend g s) := run_ends fun _ _ h => .ite h.sendNbrId h
theorem execNbrId_ends {g : Fin 4} {node : BitVec 10} {ins : Fin 8} {size : BitVec 10} : Ends w s (execNbrId g node ins size s) :=
  run_ends fun _ _ h => h.nbrIdRx
theorem execNbrRetry_ends {g : Fin 4} : Ends w s (execNbrRetry g s) := run_ends fun _ _ h => .ite h.groupUp h
theorem execRingBreak_ends {rv : Fin 2} {span : BitVec 10} {planned drowse : Bool} : Ends w s (execRingBreak rv span planned drowse s) :=
  run_ends fun _ _ h => h.ringBreakRx
theorem execRingHeal_ends {rv : Fin 2} {span : BitVec 10} : Ends w s (execRingHeal rv span s) := run_ends fun _ _ h => h.ringHealRx

theorem execHealHoldEnd_ends {g : Fin 4} : Ends w s (execHealHoldEnd g s) := run_ends fun r s h => by
  extract_lets
  split
  · exact h
  · exact .ite h.breakHeal.sendHeal h

theorem execLoopTestStart_ends {rv : Fin 2} : Ends w s (execLoopTestStart rv s) :=
  run_ends fun _ _ h => .ite (h.setIns.insTo.forEach (fun _ _ h => (.ite h.setGroup h))) h

theorem execLoopTestPass_ends {rv : Fin 2} {corr uncorr : Nat} : Ends w s (execLoopTestPass rv corr uncorr s) := run_ends fun r s h => by
  extract_lets _ s1
  have h1 : Evolves w r s1 := h.setIns
  exact .ite (.ite (.ite h1.sendPlan h1) (.ite h1.setIns.insTo h1)) h

theorem execLoopFail_ends {rv : Fin 2} {lane : Fin 128} {corr uncorr : Nat} : Ends w s (execLoopFail rv lane corr uncorr s) :=
  run_ends fun _ _ h => .ite ((h.setIns.insTo.forEach (fun _ _ h => h.setGroup)).wr.logEv) h
theorem execJoinStart_ends {rv : Fin 2} : Ends w s (execJoinStart rv s) :=
  run_ends fun _ _ h => .ite (h.insTo.forEach (fun _ _ h => (.ite h.groupUp h.setGroup))) h

theorem execInserted_ends {rv : Fin 2} : Ends w s (execInserted rv s) := run_ends fun r s h => by
  extract_lets _ _ s1 s2
  have h1 : Evolves w r s1 := h.setIns.insTo
  have h2 : Evolves w r s2 := h1.wr.logEv
  exact .ite (.ite h2.sendPlan h2) h

theorem execJoinTimeout_ends {rv : Fin 2} : Ends w s (execJoinTimeout rv s) := run_ends fun _ _ h => .ite h.selfBypass h
theorem execSelfBypass_ends {rv : Fin 2} : Ends w s (execSelfBypass rv s) := run_ends fun _ _ h => .ite h.selfBypass h
theorem execBackoffEnd_ends {rv : Fin 2} : Ends w s (execBackoffEnd rv s) := run_ends fun _ _ h => .ite h.insTo h
theorem execInsertPlan_ends {g : Fin 4} {rv : Fin 2} : Ends w s (execInsertPlan g rv s) := run_ends fun _ _ h => h.insertPlanRx

theorem execPlannedInsert_ends {rv : Fin 2} : Ends w s (execPlannedInsert rv s) := run_ends fun r s h => by
  split
  · exact .ite h.setIns.insTo h
  · exact h

theorem execLeave_ends {i : Initiator} {rings : BitVec 4} : Ends w s (execLeave i rings s) :=
  run_ends fun _ _ h => h.writeAdmitted fun _ h => h.ringCommand
theorem execInsert_ends {i : Initiator} {rings : BitVec 4} : Ends w s (execInsert i rings s) :=
  run_ends fun _ _ h => h.writeAdmitted fun _ h => h.ringCommand
theorem execWake_ends {i : Initiator} {groups : BitVec 4} : Ends w s (execWake i groups s) :=
  run_ends fun _ _ h => h.writeAdmitted fun _ h => h.ringCommand
theorem execLeaveCell_ends {g : Fin 4} {rings : BitVec 2} : Ends w s (execLeaveCell g rings s) := run_ends fun _ _ h => h.leaveRx
theorem execReleaseCounted_ends {rv : Fin 2} : Ends w s (execReleaseCounted rv s) :=
  run_ends fun _ _ h => .ite (h.insTo.forEach (fun _ _ h => h.setGroup)) h
theorem execDrowsePropose_ends {g : Fin 4} : Ends w s (execDrowsePropose g s) := run_ends fun _ _ h => .ite h.setGrp.nbrCell h
theorem execDrowseReq_ends {g : Fin 4} {q : BitVec 48} {loadOk : Bool} : Ends w s (execDrowseReq g q loadOk s) := run_ends fun _ _ h => h.drowseReqAt
theorem execDrowseAck_ends {g : Fin 4} {q : BitVec 48} : Ends w s (execDrowseAck g q s) := run_ends fun _ _ h => h.drowseAckRx
theorem execDrowseNak_ends {g : Fin 4} : Ends w s (execDrowseNak g s) := run_ends fun _ _ h => h.drowseNakRx

theorem execDrowseReplyTimeout_ends {g : Fin 4} : Ends w s (execDrowseReplyTimeout g s) := run_ends fun r s h => by
  split
  · exact .ite h.drowseNakRx h
  · exact h

theorem execDrowseQuiesce_ends {g : Fin 4} : Ends w s (execDrowseQuiesce g s) := run_ends fun r s h => by
  split
  · exact .ite ((h.setGrp.setGroup.sideLanes.forEach (fun _ _ h => h.laneLoses)).wr.logEv) h
  · exact h

theorem execWakeCell_ends {g : Fin 4} {received : Bool} : Ends w s (execWakeCell g received s) := run_ends fun _ _ h => h.wakeGroup

theorem execRetrainDone_ends {g : Fin 4} : Ends w s (execRetrainDone g s) := run_ends fun r s h => by
  split
  · extract_lets s1
    have h1 : Evolves w r s1 := h.setGroup.sideAligned.synceEval
    exact .ite h1.breakHeal.sendHeal h1
  · exact h

/-! ### Plots -/

theorem execFdbAge_ends {p : Fin 64} {mac : BitVec 48} : Ends w s (execFdbAge p mac s) := run_ends fun _ _ h => (h.forEach (fun _ _ h => by
    split
    · exact .ite h.fdbPut h
    · exact h))

theorem execFdbArmAt_ends {i : Initiator} : Ends w s (execFdbArmAt i s) := run_ends fun _ _ h => h.writeAdmitted fun _ h => h.fdbCommand
theorem execFdbDisarm_ends {i : Initiator} : Ends w s (execFdbDisarm i s) := run_ends fun _ _ h => h.writeAdmitted fun _ h => h.fdbCommand
theorem execFdbCopy_ends {i : Initiator} : Ends w s (execFdbCopy i s) := run_ends fun _ _ h => h.writeAdmitted fun _ h => h.fdbCommand
theorem execFdbWrite_ends {i : Initiator} : Ends w s (execFdbWrite i s) := run_ends fun _ _ h => h.writeAdmitted fun _ h => h.fdbCommand
theorem execFdbRead_ends {i : Initiator} : Ends w s (execFdbRead i s) := run_ends fun _ _ h => h.writeAdmitted fun _ h => h.fdbCommand
theorem execFdbDelete_ends {i : Initiator} : Ends w s (execFdbDelete i s) := run_ends fun _ _ h => h.writeAdmitted fun _ h => h.fdbCommand
theorem execFdbCopyDone_ends : Ends w s (execFdbCopyDone s) := run_ends fun _ _ h => .ite h.setBank.wr h
theorem execPolicerUpdate_ends {i : Initiator} {p : Fin 64} {c : Fin 6} {burst : Bool} {v : Word} : Ends w s (execPolicerUpdate i p c burst v s) :=
  run_ends fun _ _ h => h.unlockedFor fun _ h => h.polWrite

theorem execTenantFrame_ends {l : Fin 128} {tag : Option (BitVec 3)} {da sa : BitVec 48} {len : Nat} : Ends w s (execTenantFrame l tag da sa len s) :=
  run_ends fun r s h => by
  split
  · extract_lets s1
    have h1 : Evolves w r s1 := h.countRx
    exact .ite h1.dropRx (.ite h1.send h1.tenantFrame)
  · exact h

theorem execRingFrame_ends {g : Fin 4} {vid : BitVec 12} {pcp : BitVec 3} {dei : Bool} {dst src hops : BitVec 10} {secOk : Bool} {da sa : BitVec 48}
  {len frags : Nat} :
    Ends w s (execRingFrame g vid pcp dei dst src hops secOk da sa len frags s) :=
  run_ends fun r s h => by
  split
  · extract_lets s1 _ _ c
    have h1 : Evolves w r s1 := h.countRx.bump
    split
    · exact h1.dropRx
    · split
      · exact h1.dropRx.countEv
      · clear_value c
        split
        · exact h1.ringPlotFrame
        · exact h1.ringMgmtFrame
  · exact h

theorem execSaStateChange_ends {plot : Fin 65} {g : Fin 4} {up : Bool} : Ends w s (execSaStateChange plot g up s) :=
  run_ends fun _ _ h => ((h.when (fun _ h => h.wrBit)).when (fun _ h => h.logEv)).when fun _ h => h.transportLost
theorem execPlotCommandEffect_ends : Ends w s (execPlotCommandEffect s) := run_ends fun _ _ h => .ite h.plotCommandsTake h

/-! ### Performance counters -/

theorem execPcSelWrite_ends {i : Initiator} {c : Fin 64} {v : Word} : Ends w s (execPcSelWrite i c v s) :=
  run_ends fun _ _ h => h.writeAdmitted fun _ h => h.pcSelWrite
theorem execCntLoWrite_ends {i : Initiator} {c : Fin 64} {v : Word} : Ends w s (execCntLoWrite i c v s) :=
  run_ends fun _ _ h => h.writeAdmitted fun _ h => h.cntLoWrite
theorem execCntHiWrite_ends {i : Initiator} {c : Fin 64} {v : Word} : Ends w s (execCntHiWrite i c v s) :=
  run_ends fun _ _ h => h.writeAdmitted fun _ h => h.cntHiWrite
theorem execCounterLoRead_ends {i : Initiator} {ofs : BitVec 17} : Ends w s (execCounterLoRead i ofs s) :=
  run_ends fun _ _ h => .ite (h.readAdmitted (fun _ h => h.counterLoRead)) h
theorem execCounterOvf_ends {c : Fin 64} : Ends w s (execCounterOvf c s) := run_ends fun _ _ h => h.counterOvf
theorem execBwWindowEnd_ends : Ends w s (execBwWindowEnd s) := run_ends fun _ _ h => h.bwWindowEnd
theorem execSnapNext_ends {i : Initiator} : Ends w s (execSnapNext i s) := run_ends fun _ _ h => h.writeAdmitted fun _ h => h.counterCommand
theorem execSnapAt_ends {i : Initiator} : Ends w s (execSnapAt i s) := run_ends fun _ _ h => h.writeAdmitted fun _ h => h.counterCommand
theorem execFreeze_ends {i : Initiator} : Ends w s (execFreeze i s) := run_ends fun _ _ h => h.writeAdmitted fun _ h => h.counterCommand
theorem execUnfreeze_ends {i : Initiator} : Ends w s (execUnfreeze i s) := run_ends fun _ _ h => h.writeAdmitted fun _ h => h.counterCommand
theorem execSnapshot_ends : Ends w s (execSnapshot s) := run_ends fun _ _ h => h.snapshotDue

/-! ### Loop engine -/

theorem execSlotCompute_ends {n : Fin 96} {doneAt : BitVec 13} : Ends w s (execSlotCompute n doneAt s) :=
  run_ends fun _ _ h => .ite h.slotBody.upd.wr.stepUsed h

theorem execOperatorCompute_ends {k : Fin 128} {doneAt : BitVec 13} {agree ab : Bool} {cycle : Nat} :
    Ends w s (execOperatorCompute k doneAt agree ab cycle s) :=
  run_ends fun r s h => by
  extract_lets _ _ _ _ s1 _ s2
  have h1 : Evolves w r s1 := .ite h.opStaleResp h.opWrites
  have h2 : Evolves w r s2 := h1.upd.stepUsed
  exact .ite (.ite h2.engMismatch h2) h

theorem execRearm_ends {i : Initiator} {b : Fin 3} {v : Word} : Ends w s (execRearm i b v s) :=
  run_ends fun _ _ h => h.writeAdmitted fun _ h => h.rearmWrite
theorem execArmAt_ends {i : Initiator} : Ends w s (execArmAt i s) := run_ends fun _ _ h => h.writeAdmitted fun _ h => h.armAt
theorem execArmNext_ends {i : Initiator} : Ends w s (execArmNext i s) := run_ends fun _ _ h => h.writeAdmitted fun _ h => h.armNext
theorem execDisarm_ends {i : Initiator} : Ends w s (execDisarm i s) := run_ends fun _ _ h => h.writeAdmitted fun _ h => h.swapDisarm
theorem execCopy_ends {i : Initiator} : Ends w s (execCopy i s) := run_ends fun _ _ h => h.writeAdmitted fun _ h => h.bankCopy
theorem execCopyDone_ends : Ends w s (execCopyDone s) := run_ends fun _ _ h => .ite ((Evolves.ite h.upd h.upd).wr) h
theorem execBankDigestDone_ends : Ends w s (execBankDigestDone s) := run_ends fun _ _ h => .ite h.showDigest.wr h
theorem execSecStateRead_ends {i : Initiator} {j : Fin 512} : Ends w s (execSecStateRead i j s) :=
  run_ends fun _ _ h => h.readAdmitted fun _ h => h.secStateRead

/-! ### Grid stages -/

theorem execGsLock_ends {u : Fin 9} : Ends w s (execGsLock u s) := run_ends fun _ _ h => .ite h.wr.wr.logEv h

theorem execGsUpdate_ends {u : Fin 9} : Ends w s (execGsUpdate u s) := run_ends fun r s h => by
  split
  · extract_lets s1 _ s2
    have h1 : Evolves w r s1 := h.unitUpdate
    have h2 : Evolves w r s2 := h1.setUnit
    exact .ite h2 h2.stageUpdate
  · exact h

theorem execGridStart_ends {i : Initiator} {g : Fin 8} : Ends w s (execGridStart i g s) := run_ends fun _ _ h => h.stageCmd
theorem execGridStop_ends {i : Initiator} {g : Fin 8} : Ends w s (execGridStop i g s) := run_ends fun _ _ h => h.stageCmd
theorem execGridResetFault_ends {i : Initiator} {g : Fin 8} : Ends w s (execGridResetFault i g s) := run_ends fun _ _ h => h.stageCmd
theorem execRtPointExpiry_ends {g : Fin 8} {kind : Fin 5} {i : Fin 16} : Ends w s (execRtPointExpiry g kind i s) :=
  run_ends fun _ _ h => .ite h.stageTrip h
theorem execConnectDelayEnd_ends {g : Fin 8} : Ends w s (execConnectDelayEnd g s) := run_ends fun _ _ h => .ite h.stageConnect.stageTo h
theorem execContactorClosed_ends {g : Fin 8} : Ends w s (execContactorClosed g s) := run_ends fun _ _ h => .ite h.stageStarting h
theorem execContactorTimeout_ends {g : Fin 8} : Ends w s (execContactorTimeout g s) := run_ends fun _ _ h => .ite h.stageTrip h
theorem execRampStart_ends {g : Fin 8} : Ends w s (execRampStart g s) := run_ends fun _ _ h => .ite h.setStage.stageTo h
theorem execRampEnd_ends {g : Fin 8} : Ends w s (execRampEnd g s) := run_ends fun _ _ h => .ite h.stageTo h

theorem execStopRampEnd_ends {g : Fin 8} : Ends w s (execStopRampEnd g s) := run_ends fun r s h => by
  split
  · extract_lets _ s1 s2
    have h1 : Evolves w r s1 := h.setStage.stageSources
    have h2 : Evolves w r s2 := h1.stageConnect.writeRefs
    exact .ite h2 h2.stageTo
  · exact h

theorem execContFbChange_ends {g : Fin 8} : Ends w s (execContFbChange g s) := run_ends fun r s h => by
  extract_lets _ _ s1
  have h1 : Evolves w r s1 := h.wrB
  exact .ite h1.stageTrip (.ite h1.stageTo (.ite h1.setStage.stageTo h1))

/-! ### Islanding -/

theorem execPhasorPublish_ends : Ends w s (execPhasorPublish s) := run_ends fun _ _ h => .ite h.wr.inc.floodCell h

theorem execBreakerChange_ends : Ends w s (execBreakerChange s) := run_ends fun r s h => by
  split
  · extract_lets _ _ _ _ s1 s2 _ _ _ s3
    have h1 : Evolves w r s1 := h.wrB.wrB
    have h2 : Evolves w r s2 := h1.when fun _ h => h.logEv
    have h3 : Evolves w r s3 := .ite h2.upd h2
    exact .ite h3 ((h3.when (fun _ h => h.causeOnce)).when (fun _ h => h.causeOnce))
  · exact h

theorem execAnchorCellRx_ends {c : AncCell} : Ends w s (execAnchorCellRx c s) := run_ends fun _ _ h => h.anchorCellRx
theorem execAncSilent_ends {a : Fin 2} : Ends w s (execAncSilent a s) := run_ends fun _ _ h => .ite h.setAnc.wr.logEv.showAnchor h
theorem execRocofCriterion_ends : Ends w s (execRocofCriterion s) := run_ends fun _ _ h => .ite h.causeOnce h
theorem execAfdCriterion_ends : Ends w s (execAfdCriterion s) := run_ends fun _ _ h => .ite ((Evolves.ite h.causeOnce h).causeOnce) h
theorem execForceDisc_ends {i : Initiator} : Ends w s (execForceDisc i s) := run_ends fun _ _ h => h.writeAdmitted fun _ h => h.islCommand
theorem execRelease_ends {i : Initiator} : Ends w s (execRelease i s) := run_ends fun _ _ h => h.writeAdmitted fun _ h => h.islCommand
theorem execIslRelease_ends : Ends w s (execIslRelease s) := run_ends fun _ _ h => .ite h.discFalls h

/-! ### Metering -/

theorem execMeterSample_ends {m : Fin 9} : Ends w s (execMeterSample m s) := run_ends fun _ _ h => .ite h.meterSample h
theorem execClear_ends {i : Initiator} {target : BitVec 8} : Ends w s (execClear i target s) := run_ends fun _ _ h => h.meterCmd
theorem execPreset_ends {i : Initiator} {target : BitVec 8} : Ends w s (execPreset i target s) := run_ends fun _ _ h => h.meterCmd

theorem execIntervalLatch_ends : Ends w s (execIntervalLatch s) := run_ends fun r s h => by
  split
  · split
    · exact h.latchAll.meterCmdTake
    · exact h
  · exact h

theorem execIntLenWrite_ends {i : Initiator} {v : Word} : Ends w s (execIntLenWrite i v s) := run_ends fun _ _ h => h.intLenWrite
theorem execMeterRetain_ends : Ends w s (execMeterRetain s) := run_ends fun _ _ h => .ite h.meterCopyOut h
theorem execMeterLoRead_ends {i : Initiator} {k : Fin 2048} : Ends w s (execMeterLoRead i k s) :=
  run_ends fun _ _ h => .ite (h.readAdmitted (fun _ h => h.meterLoRead)) h
theorem execPulseSample_ends {levels : BitVec 16} : Ends w s (execPulseSample levels s) :=
  run_ends fun _ _ h => .ite h (.ite h.pinsForget (h.forEach (fun _ _ h => h.pinSample)))

theorem execPoutPulse_ends {j : Fin 8} : Ends w s (execPoutPulse j s) := run_ends fun r s h => by
  extract_lets _ _ s1 s2
  have h1 : Evolves w r s1 := h.setPout.wr
  have h2 : Evolves w r s2 := h1.wr.inc
  exact .ite (.ite h2.inc h2) h

theorem execPoutPulseEnd_ends {j : Fin 8} : Ends w s (execPoutPulseEnd j s) := run_ends fun r s h => by
  split
  · exact h.setPout.wr
  · exact h.setPout
  · exact h

/-! ### String tracking -/

theorem execTrkStart_ends {i : Initiator} {k : Fin 24} : Ends w s (execTrkStart i k s) := run_ends fun _ _ h => h.trkCmd
theorem execTrkStop_ends {i : Initiator} {k : Fin 24} : Ends w s (execTrkStop i k s) := run_ends fun _ _ h => h.trkCmd
theorem execTrkResetFault_ends {i : Initiator} {k : Fin 24} : Ends w s (execTrkResetFault i k s) := run_ends fun _ _ h => h.trkCmd
theorem execScanNow_ends {i : Initiator} {k : Fin 24} : Ends w s (execScanNow i k s) := run_ends fun _ _ h => h.trkCmd
theorem execTrackStep_ends {k : Fin 24} : Ends w s (execTrackStep k s) := run_ends fun _ _ h => .ite h.setTrk.trkDueStep h
theorem execScanStart_ends {k : Fin 24} : Ends w s (execScanStart k s) := run_ends fun _ _ h => .ite (.ite h.setTrk.trkTo h.setTrk.wr.logEv) h

theorem execScanDone_ends {k : Fin 24} : Ends w s (execScanDone k s) := run_ends fun r s h => by
  split
  · exact h
  · exact .ite h.scanBest.wrI.trkTo.setTrk.wr.inc.logEv.trkPort h

theorem execTrkStartDelayEnd_ends {k : Fin 24} : Ends w s (execTrkStartDelayEnd k s) := run_ends fun _ _ h => .ite h.trkStarting h
theorem execTrkDuskStop_ends {k : Fin 24} : Ends w s (execTrkDuskStop k s) := run_ends fun _ _ h => .ite h.trkTo.trkPort h

/-! ### Stops of clocks and domains -/

theorem execBaseClockLoss_ends : Ends w s (execBaseClockLoss s) := run_ends fun _ _ h => h.upd.countersStop.adcPairsStop.settleTrips

/-! ### Activation -/

theorem execLeSwap_ends : Ends w s (execLeSwap s) := run_ends fun _ _ h => .ite (.ite h.swapDiscard (.ite h h.bankSwapNow)) h

theorem execFdbSwap_ends : Ends w s (execFdbSwap s) := run_ends fun r s h => by
  split
  · exact h
  · exact .ite h (.ite h.fdbDiscard (.ite h.fdbDiscard (.ite h.fdbDiscard h.fdbSwapNow)))

/-! ### Power -/

theorem execIoBankSupplyLoss_ends {b : Fin 8} : Ends w s (execIoBankSupplyLoss b s) := run_ends fun _ _ h => h.bankLost
theorem execReqRun_ends {i : Initiator} : Ends w s (execReqRun i s) := run_ends fun _ _ h => h.writeAdmitted fun _ h => h.reqWrite
theorem execReqIdle_ends {i : Initiator} : Ends w s (execReqIdle i s) := run_ends fun _ _ h => h.writeAdmitted fun _ h => h.reqWrite
theorem execReqRingOnly_ends {i : Initiator} : Ends w s (execReqRingOnly i s) := run_ends fun _ _ h => h.writeAdmitted fun _ h => h.reqWrite
theorem execReqBivouac_ends {i : Initiator} : Ends w s (execReqBivouac i s) := run_ends fun _ _ h => h.writeAdmitted fun _ h => h.reqWrite
theorem execReqDormant_ends {i : Initiator} : Ends w s (execReqDormant i s) := run_ends fun _ _ h => h.writeAdmitted fun _ h => h.reqWrite
theorem execIdleAutoEntry_ends : Ends w s (execIdleAutoEntry s) := run_ends fun _ _ h => .ite h.startChange h

theorem execBiasChangeDone_ends : Ends w s (execBiasChangeDone s) := run_ends fun r s h => by
  split
  · exact h.biasDone
  · exact h

theorem execStateChangeDone_ends : Ends w s (execStateChangeDone s) := run_ends fun _ _ h => h.changeDone

theorem execWakeAdmit_ends : Ends w s (execWakeAdmit s) := run_ends fun r s h => by
  split
  · exact h
  · exact .ite h.setWakeQ.wr h

theorem execDomainGood_ends : Ends w s (execDomainGood s) := run_ends fun r s h => by
  extract_lets _ s1 s2
  have h1 : Evolves w r s1 := h.wrBit.wr
  have h2 : Evolves w r s2 := h1.wr.domainUp
  exact .ite (.ite h2.auxOn h2) h

theorem execWakeTimeout_ends : Ends w s (execWakeTimeout s) := run_ends fun _ _ h => .ite h.wakeTimeout h
theorem execDrainComplete_ends : Ends w s (execDrainComplete s) := run_ends fun _ _ h => .ite h.drainNext h
theorem execDrainAbort_ends {n us : Nat} : Ends w s (execDrainAbort n us s) := run_ends fun _ _ h => .ite h.wr.wr.logEv.drainNext h

theorem execRailSequenceStep_ends {pg : BitVec 16} {mv : List Nat} {goodFor offFor : Nat} : Ends w s (execRailSequenceStep pg mv goodFor offFor s) :=
  run_ends fun r s h => by
  extract_lets s1
  have h1 : Evolves w r s1 := h.wr.bankLevels
  split
  · exact .ite h1.ctSupplyOn.railsOn.railsDone h1
  · exact .ite h1.railsDown h1
  · exact h1

theorem execRailFault_ends {n : Fin 16} : Ends w s (execRailFault n s) := run_ends fun _ _ h => .ite h.wrBit.railFault h
theorem execRailPgTimeout_ends {n : Fin 16} : Ends w s (execRailPgTimeout n s) := run_ends fun _ _ h => .ite h.railFault.railsOff h
theorem execPmbAlert_ends {alerted faulty : BitVec 16} : Ends w s (execPmbAlert alerted faulty s) :=
  run_ends fun _ _ h => (h.wr.forEach (fun _ _ h => h.logEv)).forEach fun _ _ h => h.railFault

theorem execPmbusPoll_ends {vout iout : List Nat} {margin : Option (Initiator × Fin 16 × Int)} : Ends w s (execPmbusPoll vout iout margin s) :=
  run_ends fun r s h => by
  split
  · exact h.marginRail.forEach fun _ _ h => (.ite h.wr.wr.countEv h)
  · exact h.forEach fun _ _ h => (.ite h.wr.wr.countEv h)

theorem execTier1Fault_ends : Ends w s (execTier1Fault s) := run_ends fun _ _ h => .ite h.tier1Log.sleepEntry h

/-! ### Clocks -/

theorem execCtrlPllGated_ends {slip : Bool} {lockV : BitVec 8} : Ends w s (execCtrlPllGated slip lockV s) := run_ends fun r s h => by
  extract_lets s1
  have h1 : Evolves w r s1 := h.pinRead
  exact .ite h1.logEv.controlClockLost h1

theorem execCtrlPllLock_ends {lockV : BitVec 8} : Ends w s (execCtrlPllLock lockV s) := run_ends fun r s h => by
  extract_lets s1 s2 _ _ s3
  have h1 : Evolves w r s1 := h.pinRead.wr
  have h2 : Evolves w r s2 := h1.wr
  have h3 : Evolves w r s3 := h2.upd
  exact .ite h3.controlReload.autoTest.safetyPending.settleTrips h1

theorem execTickResume_ends : Ends w s (execTickResume s) := run_ends fun _ _ h => .ite h.ticksStart.upd h
theorem execRgPllLoss_ends : Ends w s (execRgPllLoss s) := run_ends fun _ _ h => .ite h.ridgelineClockLost h
theorem execAppPllLoss_ends : Ends w s (execAppPllLoss s) := run_ends fun _ _ h => .ite h.appClockLost h
theorem execSerdesPllLoss_ends {k : Fin 4} : Ends w s (execSerdesPllLoss k s) := run_ends fun _ _ h => .ite h.serdesLost h

theorem execSysclkLoss_ends : Ends w s (execSysclkLoss s) := run_ends fun r s h => by
  split
  · extract_lets s1 _ s2 _ s3 s4
    have h1 : Evolves w r s1 := h.pinRead.wr.wr
    have h2 : Evolves w r s2 := h1.upd
    have h3 : Evolves w r s3 := .ite (Evolves.lateWithRg (Evolves.upd h2) fun _ _ h => h.controlClockLost) h2
    have h4 : Evolves w r s4 := .ite h3.ridgelineClockLost h3
    exact .ite h4.appClockLost h4
  · exact h

theorem execRefclkLoss_ends {k : Fin 4} : Ends w s (execRefclkLoss k s) := run_ends fun r s h => by
  split
  · extract_lets s1 s2 s3
    have h1 : Evolves w r s1 := h.wrBit.wrBit
    have h2 : Evolves w r s2 := h1.logEv
    have h3 : Evolves w r s3 := h2.wr.wr.logEv
    exact .ite (.ite h3.serdesLost h3) h2
  · exact h

theorem execTbFailback_ends : Ends w s (execTbFailback s) := run_ends fun _ _ h => h.wrBit.wr

theorem execPllRelock_ends {p : PllId} {locked : Bool} : Ends w s (execPllRelock p locked s) := run_ends fun r s h => by
  split
  · exact h.wr.when fun _ h => h.ridgelineLocked
  · exact h.wr.when fun _ h => h.applicationLocked
  · exact h.wrBit.when fun _ h => h.wrBit.groupTrain

theorem execSyncMessage_ends {group : Fin 4} {t1 t2 corr : Nat} {filtered : Int} : Ends w s (execSyncMessage group t1 t2 corr filtered s) :=
  run_ends fun _ _ h => .ite h h.servo
theorem execPdelayMessage_ends {group : Fin 4} {request : Bool} {t1 t2 t3 t4 : Nat} : Ends w s (execPdelayMessage group request t1 t2 t3 t4 s) :=
  run_ends fun _ _ h => .ite h.send h.upd
theorem execSyncTimeout_ends : Ends w s (execSyncTimeout s) := run_ends fun _ _ h => .ite h (.ite h.syncLost h.syncLost.wr)

theorem execPtpAnnounceMessage_ends {d : BmcaInput} : Ends w s (execPtpAnnounceMessage d s) := run_ends fun r s h => by
  split
  · exact h.upd.bmca
  · exact h.upd.bmca

theorem execTickMark_ends {mark : BitVec 48} {ns corr : Nat} : Ends w s (execTickMark mark ns corr s) := run_ends fun _ _ h => h.tickMark
theorem execTickMarkSend_ends : Ends w s (execTickMarkSend s) := run_ends fun _ _ h => .ite h.floodCell h

theorem execTickStep_ends : Ends true s (execTickStep s) := run_ends fun r s h => by
  split
  · exact h
  · exact h.upd.wr.logEv.stepped

theorem execRtNowRead_ends {i : Initiator} {ns : Fin 20000} : Ends w s (execRtNowRead i ns s) :=
  run_ends fun _ _ h => h.readAdmitted fun _ h => h.rtNowRead

/-! ### Lantern -/

theorem execLanternResetAssert_ends : Ends w s (execLanternResetAssert s) := run_ends fun _ _ h => h.lanternClear.wr

theorem execLanternColdStart_ends {src : Fin 3} : Ends w s (execLanternColdStart src s) := run_ends fun r s h => by
  extract_lets cell s1 _ s2 s3
  have h3 : Evolves w r s3 := (Evolves.upd h.lanternClear).wr.wrB
  refine h3.relog (c := s3.clog) fun ⟨h1, h2, h3, _, h5⟩ => ⟨h1, h2, h3, ?_, h5⟩
  simp

theorem execBoostTakeover_ends : Ends w s (execBoostTakeover s) := runLan_ends fun _ _ h => .ite h.upd.supplyEval h
theorem execHarvestOcvMeasure_ends {ocv : Nat} : Ends w s (execHarvestOcvMeasure ocv s) :=
  runLan_ends fun _ _ h => .ite (.ite h.upd h.upd.supplyEval) h

theorem execLanternSupplyChange_ends {ext harv : Bool} : Ends w s (execLanternSupplyChange ext harv s) := runLan_ends fun r s h => by
  extract_lets _ _ s1
  have h1 : Evolves w r s1 := h.upd.supplyEval
  exact .ite h1.upd h1

theorem execChargerPhase_ends {vcell icell vlan avail : Nat} : Ends w s (execChargerPhase vcell icell vlan avail s) :=
  runLan_ends fun _ _ h => h.upd.wr
theorem execChgFault_ends {vcell : Nat} {dieTemp : Int} : Ends w s (execChgFault vcell dieTemp s) := runLan_ends fun _ _ h => .ite h.upd.wr.wr.logEv h
theorem execChgRestart_ends : Ends w s (execChgRestart s) := runLan_ends fun _ _ h => h.upd

theorem execCellUv_ends {vcell : Nat} : Ends w s (execCellUv vcell s) := run_ends fun r s h => by
  split
  · extract_lets s1
    have h1 : Evolves w r s1 := h.wr
    exact .ite h1 h1.wr.logEv.supplyEval
  · exact h

theorem execCellReconnect_ends {vcell : Nat} : Ends w s (execCellReconnect vcell s) := run_ends fun r s h => by
  split
  · extract_lets s1
    have h1 : Evolves w r s1 := h.wr
    exact .ite h1 h1.logEv.supplyEval
  · exact h

theorem execLxtalFail_ends : Ends w s (execLxtalFail s) := runLan_ends fun _ _ h => .ite h.wr.wr.wr.upd.logEv.holdStop.holdStop h
theorem execLxtalReturn_ends : Ends w s (execLxtalReturn s) := runLan_ends fun _ _ h => h.upd.wr.holdEval.holdEval
theorem execTrimPeriodEnd_ends : Ends w s (execTrimPeriodEnd s) := runLan_ends fun _ _ h => .ite h h.upd.wakeTimer
theorem execRtcSyncLoad_ends : Ends w s (execRtcSyncLoad s) := runLan_ends fun _ _ h => .ite (.ite (h.upd.wr.when (fun _ h => h.logEv)) h) h
theorem execRtcRead_ends {i : Initiator} : Ends w s (execRtcRead i s) := runLan_ends fun _ _ h => h.readAdmitted fun _ h => h.rtcRead
theorem execRidgelineHeartbeat_ends : Ends w s (execRidgelineHeartbeat s) := runLan_ends fun _ _ h => .ite h.upd.holdEval.holdEval h
theorem execAppKick_ends {i : Initiator} : Ends w s (execAppKick i s) := runLan_ends fun _ _ h => .ite h h.appKick
theorem execRgHbLost_ends : Ends w s (execRgHbLost s) := runLan_ends fun _ _ h => (h.upd.when (fun _ h => h.upd.wr.logEv)).holdStop.holdStop
theorem execCtHbLost_ends : Ends w s (execCtHbLost s) := runLan_ends fun _ _ h => .ite h.upd.wr.logEv h
theorem execAppHbLost_ends : Ends w s (execAppHbLost s) :=
  runLan_ends fun _ _ h => .ite (h.upd.wr.logEv.when (fun _ h => h.appCoresStop.appCoresRestart)) h
theorem execHoldWaitEnd_ends {rv : Fin 2} : Ends w s (execHoldWaitEnd rv s) := runLan_ends fun _ _ h => .ite h.upd.holdEval h
theorem execBypassCounted_ends {rv : Fin 2} : Ends w s (execBypassCounted rv s) := runLan_ends fun _ _ h => .ite h h.upd

theorem execBypPosSample_ends {rv : Fin 2} {closed : Bool} : Ends w s (execBypPosSample rv closed s) := runLan_ends fun r s h => by
  split
  · extract_lets s1 _ _ s2
    have h1 : Evolves w r s1 := h.wrB
    have h2 : Evolves w r s2 := h1.upd
    exact .ite h1.upd (.ite h2.wr.logEv h2)
  · exact h

theorem execWakeIn_ends {low : Bool} {counts : Nat} : Ends w s (execWakeIn low counts s) := runLan_ends fun _ _ h => h.sleepPass.wakeSource
theorem execWakeTimerExpiry_ends {counts : Nat} : Ends w s (execWakeTimerExpiry counts s) := runLan_ends fun _ _ h => h.sleepPass

theorem execMainWake_ends {counts : Nat} : Ends w s (execMainWake counts s) := runLan_ends fun r s h => by
  extract_lets s1
  have h1 : Evolves w r s1 := h.sleepPass
  exact .ite h1.wakeNow h1

theorem execWakeFail_ends {counts : Nat} : Ends w s (execWakeFail counts s) := runLan_ends fun _ _ h => .ite h.sleepPass.upd.wr.logEv h

theorem execWakeRetry_ends {counts : Nat} : Ends w s (execWakeRetry counts s) := runLan_ends fun r s h => by
  extract_lets s1
  have h1 : Evolves w r s1 := h.sleepPass
  exact .ite h1.wakeNow h1

theorem execBivouacCycle_ends {l0 l1 l2 l3 vcell : BitVec 12} : Ends w s (execBivouacCycle l0 l1 l2 l3 vcell s) :=
  runLan_ends fun _ _ h => .ite h.sleepPass.lmonCycle.lmonCycle.lmonCycle.lmonCycle.wr.cellLow h
theorem execLmonConvert_ends {l0 l1 l2 l3 vlan vcell : BitVec 12} : Ends w s (execLmonConvert l0 l1 l2 l3 vlan vcell s) :=
  runLan_ends fun _ _ h => .ite h.wr.wr.wr.wr.wr.wr.upd h

theorem execLogWriteSlot_ends : Ends w s (execLogWriteSlot s) := runLan_ends fun r s h => by
  split
  · next e l hl =>
    obtain ⟨ha, hb, hc, hd⟩ := logPop_shortens hl
    refine (h.relog (c := s.clog) fun ⟨h1, h2, h3, h4, h5⟩ => ?_).logWrite
    exact ⟨ha.trans h1, hb.trans h2, hc.trans h3, hd ▸ h4, h5⟩
  · exact h

theorem execLogClear_ends {i : Initiator} : Ends w s (execLogClear i s) := runLan_ends fun _ _ h => h.logClear
theorem execLogEntryRead_ends {i : Initiator} : Ends w s (execLogEntryRead i s) := runLan_ends fun _ _ h => h.readAdmitted fun _ h => h.logEntryRead

/-! ### Image control -/

theorem execSysRst_ends : Ends w s (execSysRst s) := run_ends fun _ _ h => .ite h.mainReset h
theorem execResetRelease_ends {vio0 vio1 counts : Nat} : Ends w s (execResetRelease vio0 vio1 counts s) :=
  run_ends fun _ _ h => .ite h.sleepPass.upd.upd.mainReset.upd (.ite h.upd h)
theorem execBoot_ends : Ends true s (execBoot s) := run_ends fun _ _ h => .ite h.boot h
theorem execControlSectionsLoad_ends : Ends w s (execControlSectionsLoad s) := run_ends fun _ _ h => .ite h.loadControl.upd.loadTime h
theorem execLocalActivation_ends : Ends w s (execLocalActivation s) := run_ends fun _ _ h => .ite h.localActivate h

theorem execPreloadComplete_ends : Ends w s (execPreloadComplete s) := run_ends fun r s h => by
  split
  · exact .ite h.upd.wr h
  · exact h

theorem execPendingResolve_ends : Ends true s (execPendingResolve s) := run_ends fun _ _ h => .ite h.pendingResolve h
theorem execActivation_ends : Ends true s (execActivation s) := run_ends fun _ _ h => h.pendingNow
theorem execRepitch_ends : Ends true s (execRepitch s) := run_ends fun _ _ h => h.pendingNow
theorem execCommitMarker_ends : Ends true s (execCommitMarker s) := run_ends fun _ _ h => .ite h.norSend.updStores h
theorem execBootRecordRewrite_ends : Ends true s (execBootRecordRewrite s) := run_ends fun _ _ h => .ite h.saveRec h
theorem execSecMinRaise_ends : Ends true s (execSecMinRaise s) := run_ends fun _ _ h => .ite h.updStores.wr.logEv.clogPush h
theorem execAnnounceSend_ends : Ends w s (execAnnounceSend s) := run_ends fun _ _ h => .ite (h.upd.forEach (fun _ _ h => h.nbrCell)) h

theorem execAnnounceRx_ends {g : Fin 4} {digest : BitVec 128} {epoch : Word} {pend : Option (BitVec 48 × BitVec 128)} :
    Ends w s (execAnnounceRx g digest epoch pend s) :=
  run_ends fun _ _ h => h.announceRx

theorem execExpDigestCommit_ends {i : Initiator} {v : Word} : Ends w s (execExpDigestCommit i v s) :=
  run_ends fun _ _ h => h.writeAdmitted fun _ h => h.expWrite
theorem execNbrSilent_ends {g : Fin 4} : Ends w s (execNbrSilent g s) := run_ends fun _ _ h => .ite h.wrBit.wrBit.logEv h
theorem execOtpProgramDone_ends {success : Bool} : Ends true s (execOtpProgramDone success s) := run_ends fun _ _ h => h.otpDone

theorem execClogFlashWrite_ends : Ends true s (execClogFlashWrite s) := run_ends fun r s h => by
  split
  · exact h
  · next e q hq =>
    extract_lets full e' old
    have hlogs : s.LogsOk → { s with clog := { s.clog with queue := q, writtenSeq := e'.seq, headHash := clogHash e' } }.LogsOk :=
      fun ⟨h1, h2, h3, h4, h5⟩ => ⟨h1, h2, h3, h4, by rw [hq, List.length_cons] at h5; exact Nat.le_of_succ_le h5⟩
    exact (Evolves.updStores (h.relog hlogs)).wr.wr

/-! ### Ticks -/

theorem execFrameTick_ends {sinA sinB : BitVec 32} {srb : BitVec 16} {ack : Bool} : Ends w s (execFrameTick sinA sinB srb ack s) :=
  run_ends fun _ _ h => .ite h.frameTick h
theorem execControlTick_ends : Ends w s (execControlTick s) := run_ends fun _ _ h => .ite h.controlTick h

theorem execPeriodBoundary_ends {p : Fin 72} : Ends w s (execPeriodBoundary p s) := run_ends fun r s h => by
  split
  · exact .ite h.periodBoundary.adcPeriod h
  · exact h

theorem execEngineStart_ends : Ends w s (execEngineStart s) := run_ends fun _ _ h => .ite h.engineStart.stagesAuto.trackersAuto h

theorem execLeaveAtN_ends : Ends w s (execLeaveAtN s) := run_ends fun r s h => by
  extract_lets s1
  have h1 : Evolves w r s1 := h.withdrawHolds
  split
  · exact .ite h1.mainReset h1
  · exact h1

/-! ### Register accesses -/

theorem execRegisterWrite_ends {i : Initiator} {a : Word} {size : Nat} {v : Word} : Ends w s (execRegisterWrite i a size v s) :=
  run_ends fun r s h => by
  split
  · exact h.widthRefused
  · exact h.writeWord

theorem execRcFieldRead_ends {i : Initiator} {a : Word} {size : Nat} : Ends w s (execRcFieldRead i a size s) := run_ends fun r s h => by
  split
  · exact h.widthRefused
  · exact h.readWord

/-! ### Sessions -/

theorem execSessionOpen_ends {hd : Hdr} {role plot : BitVec 8} {cnonce : BitVec 128} : Ends w s (execSessionOpen hd role plot cnonce s) :=
  run_ends fun _ _ h => h.sessionOpen
theorem execSessionProve_ends {hd : Hdr} : Ends w s (execSessionProve hd s) := run_ends fun _ _ h => h.sessionProve

theorem execUnauthenticFrame_ends {session : BitVec 8} {transport : Fin 5} {prove : Bool} :
    Ends w s (execUnauthenticFrame session transport prove s) :=
  run_ends fun _ _ h => h.unauthenticFrame

theorem execSessionClose_ends {hd : Hdr} : Ends w s (execSessionClose hd s) := run_ends fun _ _ h => h.command fun _ _ h => h.finish.closeSession
theorem execNop_ends {hd : Hdr} : Ends w s (execNop hd s) := run_ends fun _ _ h => h.command fun _ _ h => h.finish
theorem execPasswordPresent_ends {hd : Hdr} {proof : BitVec 256} : Ends w s (execPasswordPresent hd proof s) :=
  run_ends fun _ _ h => h.command fun _ _ h => h.present
theorem execRegRead_ends {hd : Hdr} {a : Word} {count : BitVec 16} : Ends w s (execRegRead hd a count s) :=
  run_ends fun _ _ h => .ite h.regReadRetired (h.command (fun _ _ h => h.regRead))
theorem execRegWrite_ends {hd : Hdr} {a : Word} {count : BitVec 16} {words : List Word} : Ends w s (execRegWrite hd a count words s) :=
  run_ends fun _ _ h => h.command fun _ _ h => h.regWrite

/-! ### Long operations -/

theorem execData_ends {hd : Hdr} {target : BitVec 12} {ofs : Word} {l : List Byte} {bufFull : Bool} :
    Ends true s (execData hd target ofs l bufFull s) :=
  run_ends fun _ _ h => h.command fun _ _ h => h.dataTake

theorem execStageComplete_ends {j : Fin 16} : Ends true s (execStageComplete j s) := run_ends fun _ _ h => h.writeComplete
theorem execFlashWriteComplete_ends {j : Fin 16} : Ends true s (execFlashWriteComplete j s) := run_ends fun _ _ h => h.writeComplete

theorem execLogDumpComplete_ends {j : Fin 16} : Ends w s (execLogDumpComplete j s) := run_ends fun r s h => by
  split
  · exact .ite h.dumpDone h
  · exact h

theorem execLsTestDone_ends {failA failB : Bool} : Ends true s (execLsTestDone failA failB s) := run_ends fun _ _ h => .ite h.lsTestDone.partDone h

theorem execWinChkDone_ends {m : WinSample} : Ends true s (execWinChkDone m s) := run_ends fun r s h => by
  extract_lets s1
  have h1 : Evolves true r s1 := h.winChkDone
  exact .ite h1 h1.partDone

theorem execOpRun_ends {j : Fin 16} : Ends true s (execOpRun j s) := run_ends fun r s h => by
  split
  · exact .ite h.opBegin h
  · exact h

theorem execOpStatus_ends {hd : Hdr} {tag : BitVec 16} : Ends w s (execOpStatus hd tag s) :=
  run_ends fun _ _ h => h.opCommand fun _ _ _ _ h => h.finish
theorem execOpSuspend_ends {hd : Hdr} {tag : BitVec 16} : Ends w s (execOpSuspend hd tag s) :=
  run_ends fun _ _ h => h.opCommand fun _ _ _ _ h => h.opHold.finish
theorem execOpResume_ends {hd : Hdr} {tag : BitVec 16} : Ends true s (execOpResume hd tag s) :=
  run_ends fun _ _ h => h.opCommand fun _ _ _ _ h => h.finish.opResume
theorem execOpCancel_ends {hd : Hdr} {tag : BitVec 16} : Ends true s (execOpCancel hd tag s) :=
  run_ends fun _ _ h => h.opCommand fun _ _ _ _ h => h.finish.opCancel

theorem execDataTimeout_ends {j : Fin 16} : Ends w s (execDataTimeout j s) := run_ends fun r s h => by
  split
  · exact .ite h.opSuspend h
  · exact h

theorem execSuspendTimeout_ends {j : Fin 16} : Ends true s (execSuspendTimeout j s) := run_ends fun r s h => by
  split
  · exact .ite h.opCancel h
  · exact h

theorem execImageStage_ends {hd : Hdr} {len : Word} : Ends w s (execImageStage hd len s) :=
  run_ends fun _ _ h => h.command fun _ _ h => h.longStart.runNeeded
theorem execFlashWrite_ends {hd : Hdr} {slot : BitVec 8} {len : Word} : Ends w s (execFlashWrite hd slot len s) :=
  run_ends fun _ _ h => h.command fun _ _ h => h.longStart.runNeeded
theorem execLogDump_ends {hd : Hdr} {log : BitVec 8} {from' : BitVec 64} {count : Word} : Ends w s (execLogDump hd log from' count s) :=
  run_ends fun _ _ h => .ite h.dumpRetired (h.command (fun _ _ h => h.longStart.runNeeded))
theorem execSelfTestFull_ends {hd : Hdr} {parts : BitVec 8} : Ends w s (execSelfTestFull hd parts s) :=
  run_ends fun _ _ h => h.command fun _ _ h => h.longStart.runNeeded

/-! ### Commands -/

theorem execImageActivateAt_ends {hd : Hdr} {n : BitVec 48} {digest : BitVec 128} {isLocal : BitVec 8} :
    Ends true s (execImageActivateAt hd n digest isLocal s) :=
  run_ends fun _ _ h => h.actCommand

theorem execPlotRepitch_ends {hd : Hdr} {p : BitVec 8} {n : BitVec 48} {digest : BitVec 128} : Ends true s (execPlotRepitch hd p n digest s) :=
  run_ends fun _ _ h => h.actCommand
theorem execSafetyConsent_ends {hd : Hdr} {digest : BitVec 128} : Ends w s (execSafetyConsent hd digest s) :=
  run_ends fun _ _ h => h.command fun _ _ h => h.upd.finish
theorem execBankSwap_ends {hd : Hdr} {mode : BitVec 8} {f : BitVec 48} : Ends w s (execBankSwap hd mode f s) :=
  run_ends fun _ _ h => h.command fun _ _ h => h.bankSwap
theorem execSettingWrite_ends {hd : Hdr} {offset : BitVec 16} {value : Word} : Ends true s (execSettingWrite hd offset value s) :=
  run_ends fun _ _ h => h.command fun _ _ h => (.ite h.finish h.settingSpend.otpStart)
theorem execSpwChange_ends {hd : Hdr} {new : BitVec 256} : Ends true s (execSpwChange hd new s) :=
  run_ends fun _ _ h => h.command fun _ _ h => (.ite h.finish h.updStores.otpStart)
theorem execLifecycleAdvance_ends {hd : Hdr} {target : BitVec 8} : Ends true s (execLifecycleAdvance hd target s) :=
  run_ends fun _ _ h => h.command fun _ _ h => h.otpStart
theorem execServiceUnlock_ends {hd : Hdr} {token : List Byte} : Ends true s (execServiceUnlock hd token s) :=
  run_ends fun _ _ h => h.command fun _ _ h => h.serviceUnlock
theorem execKeyEnrol_ends {hd : Hdr} {slot : BitVec 8} {hash : BitVec 384} : Ends true s (execKeyEnrol hd slot hash s) :=
  run_ends fun _ _ h => h.command fun _ _ h => h.keyChange.finish
theorem execKeyRevoke_ends {hd : Hdr} {slot : BitVec 8} : Ends true s (execKeyRevoke hd slot s) :=
  run_ends fun _ _ h => h.command fun _ _ h => h.keyChange.finish

theorem execCredSet_ends {hd : Hdr} {role plot : BitVec 8} {wrapped : List Byte} : Ends w s (execCredSet hd role plot wrapped s) :=
  run_ends fun _ _ h => (h.command (fun _ _ h => by
    split
    · exact h.upd.finish
    · exact h.finish))

theorem execCakInstall_ends {hd : Hdr} {plot : BitVec 8} {ckn : BitVec 128} {wrapped : List Byte} : Ends w s (execCakInstall hd plot ckn wrapped s) :=
  run_ends fun _ _ h => (h.command (fun _ _ h => by
    split
    · exact h.upd.finish
    · exact h.finish))

theorem execSysReset_ends {hd : Hdr} : Ends w s (execSysReset hd s) := run_ends fun r _ h => h.command fun _ _ h => by
  extract_lets s1
  have h1 : Evolves w r s1 := h.finish
  exact .ite h1.leaveForReset h1.mainReset

theorem execCtReset_ends {hd : Hdr} : Ends w s (execCtReset hd s) := run_ends fun _ _ h => h.command fun _ _ h => h.finish.controlReset

/-! ### Control cells -/

theorem execPlotQuench_ends {hd : Hdr} {dest : BitVec 16} {p : BitVec 8} : Ends w s (execPlotQuench hd dest p s) := run_ends fun _ _ h => h.plotBy
theorem execPlotThrottle_ends {hd : Hdr} {dest : BitVec 16} {p : BitVec 8} {rv : BitVec 16} : Ends w s (execPlotThrottle hd dest p rv s) :=
  run_ends fun _ _ h => h.plotBy
theorem execPlotRelease_ends {hd : Hdr} {dest : BitVec 16} {p : BitVec 8} : Ends w s (execPlotRelease hd dest p s) := run_ends fun _ _ h => h.plotBy
theorem execPortShut_ends {hd : Hdr} {dest : BitVec 16} {lane : BitVec 8} : Ends w s (execPortShut hd dest lane s) := run_ends fun _ _ h => h.plotBy
theorem execPortOpen_ends {hd : Hdr} {dest : BitVec 16} {lane : BitVec 8} : Ends w s (execPortOpen hd dest lane s) := run_ends fun _ _ h => h.plotBy
theorem execShortCommand_ends {origin dest : BitVec 10} {fn : BitVec 48} {c : ShortCmd} : Ends w s (execShortCommand origin dest fn c s) :=
  run_ends fun _ _ h => h.shortCommand

theorem execCommandResp_ends {sop status : BitVec 8} {tag : BitVec 12} {snonce : BitVec 64} {seq : BitVec 32} {hmac : BitVec 128} :
    Ends w s (execCommandResp sop status tag snonce seq hmac s) :=
  run_ends fun _ _ h => h.commandResp

theorem execShortRespTimeout_ends {tag : BitVec 12} : Ends w s (execShortRespTimeout tag s) := run_ends fun _ _ h => h.shortTimeout
theorem execControlCell_ends {g : Fin 4} {c : Cell} {valid : Bool} {t : CellTime} : Ends w s (execControlCell g c valid t s) :=
  run_ends fun _ _ h => h.controlCell

end

/-- Every command answers a next state, one cycle later, with its stores in order. -/
theorem exec_ends (s : State) : ∀ c : Instr, Ends true s (exec c s)
  | .registerWrite .. => execRegisterWrite_ends
  | .rcFieldRead .. => execRcFieldRead_ends
  | .frameTick .. => execFrameTick_ends
  | .controlTick => execControlTick_ends
  | .tickResume => execTickResume_ends
  | .tickStep => execTickStep_ends
  | .biasChangeDone => execBiasChangeDone_ends
  | .reqRun .. => execReqRun_ends
  | .reqIdle .. => execReqIdle_ends
  | .reqRingOnly .. => execReqRingOnly_ends
  | .reqBivouac .. => execReqBivouac_ends
  | .reqDormant .. => execReqDormant_ends
  | .idleAutoEntry => execIdleAutoEntry_ends
  | .stateChangeDone => execStateChangeDone_ends
  | .wakeAdmit => execWakeAdmit_ends
  | .domainGood => execDomainGood_ends
  | .wakeTimeout => execWakeTimeout_ends
  | .drainComplete => execDrainComplete_ends
  | .drainAbort .. => execDrainAbort_ends
  | .railSequenceStep .. => execRailSequenceStep_ends
  | .railPgTimeout .. => execRailPgTimeout_ends
  | .railFault .. => execRailFault_ends
  | .tier1Fault => execTier1Fault_ends
  | .pmbAlert .. => execPmbAlert_ends
  | .pmbusPoll .. => execPmbusPoll_ends
  | .ioBankSupplyLoss .. => execIoBankSupplyLoss_ends
  | .ctrlPllGated .. => execCtrlPllGated_ends
  | .ctrlPllLock .. => execCtrlPllLock_ends
  | .rgPllLoss => execRgPllLoss_ends
  | .appPllLoss => execAppPllLoss_ends
  | .serdesPllLoss .. => execSerdesPllLoss_ends
  | .sysclkLoss => execSysclkLoss_ends
  | .refclkLoss .. => execRefclkLoss_ends
  | .tbFailback => execTbFailback_ends
  | .pllRelock .. => execPllRelock_ends
  | .syncMessage .. => execSyncMessage_ends
  | .pdelayMessage .. => execPdelayMessage_ends
  | .syncTimeout => execSyncTimeout_ends
  | .tickMark .. => execTickMark_ends
  | .tickMarkSend => execTickMarkSend_ends
  | .rtNowRead .. => execRtNowRead_ends
  | .lanternColdStart .. => execLanternColdStart_ends
  | .boostTakeover => execBoostTakeover_ends
  | .harvestOcvMeasure .. => execHarvestOcvMeasure_ends
  | .chargerPhase .. => execChargerPhase_ends
  | .chgFault .. => execChgFault_ends
  | .chgRestart => execChgRestart_ends
  | .cellUv .. => execCellUv_ends
  | .cellReconnect .. => execCellReconnect_ends
  | .lxtalFail => execLxtalFail_ends
  | .lxtalReturn => execLxtalReturn_ends
  | .trimPeriodEnd => execTrimPeriodEnd_ends
  | .rtcSyncLoad => execRtcSyncLoad_ends
  | .rtcRead .. => execRtcRead_ends
  | .ridgelineHeartbeat => execRidgelineHeartbeat_ends
  | .appKick .. => execAppKick_ends
  | .rgHbLost => execRgHbLost_ends
  | .ctHbLost => execCtHbLost_ends
  | .appHbLost => execAppHbLost_ends
  | .holdWaitEnd .. => execHoldWaitEnd_ends
  | .bypassCounted .. => execBypassCounted_ends
  | .bypPosSample .. => execBypPosSample_ends
  | .wakeIn .. => execWakeIn_ends
  | .wakeTimerExpiry .. => execWakeTimerExpiry_ends
  | .mainWake .. => execMainWake_ends
  | .wakeFail .. => execWakeFail_ends
  | .wakeRetry .. => execWakeRetry_ends
  | .bivouacCycle .. => execBivouacCycle_ends
  | .lmonConvert .. => execLmonConvert_ends
  | .logWriteSlot => execLogWriteSlot_ends
  | .logClear .. => execLogClear_ends
  | .logEntryRead .. => execLogEntryRead_ends
  | .sysRst => execSysRst_ends
  | .resetRelease .. => execResetRelease_ends
  | .boot => execBoot_ends
  | .controlSectionsLoad => execControlSectionsLoad_ends
  | .localActivation => execLocalActivation_ends
  | .pendingResolve => execPendingResolve_ends
  | .stageComplete .. => execStageComplete_ends
  | .activation => execActivation_ends
  | .commitMarker => execCommitMarker_ends
  | .bootRecordRewrite => execBootRecordRewrite_ends
  | .repitch => execRepitch_ends
  | .secMinRaise => execSecMinRaise_ends
  | .announceSend => execAnnounceSend_ends
  | .announceRx .. => execAnnounceRx_ends
  | .expDigestCommit .. => execExpDigestCommit_ends
  | .nbrSilent .. => execNbrSilent_ends
  | .otpProgramDone .. => execOtpProgramDone_ends
  | .clogFlashWrite => execClogFlashWrite_ends
  | .adcTrigger .. => execAdcTrigger_ends
  | .adcSwTrig .. => execAdcSwTrig_ends
  | .entryStart .. => execEntryStart_ends
  | .entryResult .. => execEntryResult_ends
  | .urgentRequest .. => execUrgentRequest_ends
  | .refLost .. => execRefLost_ends
  | .refRestored .. => execRefRestored_ends
  | .openWireCheck .. => execOpenWireCheck_ends
  | .winTrip .. => execWinTrip_ends
  | .blankEnd .. => execBlankEnd_ends
  | .winClr .. => execWinClr_ends
  | .winChkStart .. => execWinChkStart_ends
  | .winChkDone .. => execWinChkDone_ends
  | .slotCompute .. => execSlotCompute_ends
  | .operatorCompute .. => execOperatorCompute_ends
  | .rearm .. => execRearm_ends
  | .engineStart => execEngineStart_ends
  | .armAt .. => execArmAt_ends
  | .armNext .. => execArmNext_ends
  | .disarm .. => execDisarm_ends
  | .copy .. => execCopy_ends
  | .bankDigestDone => execBankDigestDone_ends
  | .copyDone => execCopyDone_ends
  | .leSwap => execLeSwap_ends
  | .secStateRead .. => execSecStateRead_ends
  | .gsUpdate .. => execGsUpdate_ends
  | .gsLock .. => execGsLock_ends
  | .rtPointExpiry .. => execRtPointExpiry_ends
  | .gridStart .. => execGridStart_ends
  | .gridStop .. => execGridStop_ends
  | .gridResetFault .. => execGridResetFault_ends
  | .connectDelayEnd .. => execConnectDelayEnd_ends
  | .contactorClosed .. => execContactorClosed_ends
  | .contactorTimeout .. => execContactorTimeout_ends
  | .rampStart .. => execRampStart_ends
  | .rampEnd .. => execRampEnd_ends
  | .stopRampEnd .. => execStopRampEnd_ends
  | .contFbChange .. => execContFbChange_ends
  | .trackStep .. => execTrackStep_ends
  | .trkStart .. => execTrkStart_ends
  | .trkStop .. => execTrkStop_ends
  | .trkResetFault .. => execTrkResetFault_ends
  | .scanNow .. => execScanNow_ends
  | .trkStartDelayEnd .. => execTrkStartDelayEnd_ends
  | .trkDuskStop .. => execTrkDuskStop_ends
  | .scanStart .. => execScanStart_ends
  | .scanDone .. => execScanDone_ends
  | .phasorPublish => execPhasorPublish_ends
  | .breakerChange => execBreakerChange_ends
  | .anchorCellRx .. => execAnchorCellRx_ends
  | .ancSilent .. => execAncSilent_ends
  | .rocofCriterion => execRocofCriterion_ends
  | .afdCriterion => execAfdCriterion_ends
  | .islRelease => execIslRelease_ends
  | .forceDisc .. => execForceDisc_ends
  | .release .. => execRelease_ends
  | .periodBoundary .. => execPeriodBoundary_ends
  | .pwmTrip .. => execPwmTrip_ends
  | .cycleHold .. => execCycleHold_ends
  | .pwmClr .. => execPwmClr_ends
  | .pwmForce .. => execPwmForce_ends
  | .lineCalibration .. => execLineCalibration_ends
  | .calDone .. => execCalDone_ends
  | .baseClockLoss => execBaseClockLoss_ends
  | .gdFlt .. => execGdFlt_ends
  | .statusWordRx .. => execStatusWordRx_ends
  | .linkLost .. => execLinkLost_ends
  | .gdEnLow => execGdEnLow_ends
  | .gdEnRise .. => execGdEnRise_ends
  | .signatureCompare .. => execSignatureCompare_ends
  | .safetyChangeRelease .. => execSafetyChangeRelease_ends
  | .lsTest .. => execLsTest_ends
  | .lsTestDone .. => execLsTestDone_ends
  | .meterSample .. => execMeterSample_ends
  | .intervalLatch => execIntervalLatch_ends
  | .clear .. => execClear_ends
  | .preset .. => execPreset_ends
  | .intLenWrite .. => execIntLenWrite_ends
  | .meterRetain => execMeterRetain_ends
  | .meterLoRead .. => execMeterLoRead_ends
  | .pulseSample .. => execPulseSample_ends
  | .poutPulse .. => execPoutPulse_ends
  | .poutPulseEnd .. => execPoutPulseEnd_ends
  | .discrepancy .. => execDiscrepancy_ends
  | .testPulse .. => execTestPulse_ends
  | .seqWdog => execSeqWdog_ends
  | .rbFail .. => execRbFail_ends
  | .offPulse .. => execOffPulse_ends
  | .safeTrip .. => execSafeTrip_ends
  | .safeAckPress => execSafeAckPress_ends
  | .pwBlockEnd => execPwBlockEnd_ends
  | .laneDown .. => execLaneDown_ends
  | .groupDown .. => execGroupDown_ends
  | .ringBreak .. => execRingBreak_ends
  | .ringHeal .. => execRingHeal_ends
  | .healHoldEnd .. => execHealHoldEnd_ends
  | .nbrIdSend .. => execNbrIdSend_ends
  | .nbrId .. => execNbrId_ends
  | .nbrRetry .. => execNbrRetry_ends
  | .loopTestStart .. => execLoopTestStart_ends
  | .loopTestPass .. => execLoopTestPass_ends
  | .loopFail .. => execLoopFail_ends
  | .joinStart .. => execJoinStart_ends
  | .inserted .. => execInserted_ends
  | .joinTimeout .. => execJoinTimeout_ends
  | .selfBypass .. => execSelfBypass_ends
  | .backoffEnd .. => execBackoffEnd_ends
  | .insertPlan .. => execInsertPlan_ends
  | .plannedInsert .. => execPlannedInsert_ends
  | .leave .. => execLeave_ends
  | .insert .. => execInsert_ends
  | .wake .. => execWake_ends
  | .leaveCell .. => execLeaveCell_ends
  | .leaveAtN => execLeaveAtN_ends
  | .releaseCounted .. => execReleaseCounted_ends
  | .drowsePropose .. => execDrowsePropose_ends
  | .drowseReq .. => execDrowseReq_ends
  | .drowseAck .. => execDrowseAck_ends
  | .drowseNak .. => execDrowseNak_ends
  | .drowseReplyTimeout .. => execDrowseReplyTimeout_ends
  | .drowseQuiesce .. => execDrowseQuiesce_ends
  | .wakeCell .. => execWakeCell_ends
  | .retrainDone .. => execRetrainDone_ends
  | .tenantFrame .. => execTenantFrame_ends
  | .ringFrame .. => execRingFrame_ends
  | .fdbAge .. => execFdbAge_ends
  | .policerUpdate .. => execPolicerUpdate_ends
  | .fdbArmAt .. => execFdbArmAt_ends
  | .fdbDisarm .. => execFdbDisarm_ends
  | .fdbCopy .. => execFdbCopy_ends
  | .fdbCopyDone => execFdbCopyDone_ends
  | .fdbWrite .. => execFdbWrite_ends
  | .fdbRead .. => execFdbRead_ends
  | .fdbDelete .. => execFdbDelete_ends
  | .fdbSwap => execFdbSwap_ends
  | .controlCell .. => execControlCell_ends
  | .cellInsert .. => execCellInsert_ends
  | .plotCommandEffect => execPlotCommandEffect_ends
  | .unauthenticFrame .. => execUnauthenticFrame_ends
  | .sessionOpen .. => execSessionOpen_ends
  | .sessionProve .. => execSessionProve_ends
  | .sessionClose .. => execSessionClose_ends
  | .nop .. => execNop_ends
  | .passwordPresent .. => execPasswordPresent_ends
  | .regRead .. => execRegRead_ends
  | .regWrite .. => execRegWrite_ends
  | .imageStage .. => execImageStage_ends
  | .data .. => execData_ends
  | .imageActivateAt .. => execImageActivateAt_ends
  | .safetyConsent .. => execSafetyConsent_ends
  | .plotRepitch .. => execPlotRepitch_ends
  | .flashWrite .. => execFlashWrite_ends
  | .bankSwap .. => execBankSwap_ends
  | .settingWrite .. => execSettingWrite_ends
  | .spwChange .. => execSpwChange_ends
  | .lifecycleAdvance .. => execLifecycleAdvance_ends
  | .serviceUnlock .. => execServiceUnlock_ends
  | .keyEnrol .. => execKeyEnrol_ends
  | .keyRevoke .. => execKeyRevoke_ends
  | .credSet .. => execCredSet_ends
  | .cakInstall .. => execCakInstall_ends
  | .sysReset .. => execSysReset_ends
  | .ctReset .. => execCtReset_ends
  | .logDump .. => execLogDump_ends
  | .selfTestFull .. => execSelfTestFull_ends
  | .opStatus .. => execOpStatus_ends
  | .opSuspend .. => execOpSuspend_ends
  | .opResume .. => execOpResume_ends
  | .opCancel .. => execOpCancel_ends
  | .plotQuench .. => execPlotQuench_ends
  | .plotThrottle .. => execPlotThrottle_ends
  | .plotRelease .. => execPlotRelease_ends
  | .portShut .. => execPortShut_ends
  | .portOpen .. => execPortOpen_ends
  | .halfOpenTimeout .. => execHalfOpenTimeout_ends
  | .sessionIdle .. => execSessionIdle_ends
  | .opRun .. => execOpRun_ends
  | .dataTimeout .. => execDataTimeout_ends
  | .suspendTimeout .. => execSuspendTimeout_ends
  | .shortCommand .. => execShortCommand_ends
  | .commandResp .. => execCommandResp_ends
  | .shortRespTimeout .. => execShortRespTimeout_ends
  | .cspGo .. => execCspGo_ends
  | .cspXferDone .. => execCspXferDone_ends
  | .cspSlaveXfer .. => execCspSlaveXfer_ends
  | .cspCmdXfer .. => execCspCmdXfer_ends
  | .cspTxPush .. => execCspTxPush_ends
  | .cspRxPop .. => execCspRxPop_ends
  | .cspRxlenPop .. => execCspRxlenPop_ends
  | .pcSelWrite .. => execPcSelWrite_ends
  | .cntLoWrite .. => execCntLoWrite_ends
  | .cntHiWrite .. => execCntHiWrite_ends
  | .counterLoRead .. => execCounterLoRead_ends
  | .counterOvf .. => execCounterOvf_ends
  | .bwWindowEnd => execBwWindowEnd_ends
  | .snapNext .. => execSnapNext_ends
  | .snapAt .. => execSnapAt_ends
  | .freeze .. => execFreeze_ends
  | .unfreeze .. => execUnfreeze_ends
  | .snapshot => execSnapshot_ends
  | .unlockEnd => execUnlockEnd_ends
  | .dbgLock .. => execDbgLock_ends
  | .atestRoute .. => execAtestRoute_ends
  | .idcode => execIdcode_ends
  | .samplePreload => execSamplePreload_ends
  | .extest => execExtest_ends
  | .intest => execIntest_ends
  | .extestPulse => execExtestPulse_ends
  | .extestTrain => execExtestTrain_ends
  | .bypass => execBypass_ends
  | .debug => execDebug_ends
  | .debugHalt .. => execDebugHalt_ends
  | .debugResume => execDebugResume_ends
  | .laneAligned .. => execLaneAligned_ends
  | .lanternResetAssert => execLanternResetAssert_ends
  | .lanternSupplyChange .. => execLanternSupplyChange_ends
  | .ptpAnnounceMessage .. => execPtpAnnounceMessage_ends
  | .saStateChange .. => execSaStateChange_ends
  | .preloadComplete => execPreloadComplete_ends
  | .flashWriteComplete .. => execFlashWriteComplete_ends
  | .logDumpComplete .. => execLogDumpComplete_ends
  | .lsSigLoRead .. => execLsSigLoRead_ends

/-- Settles O57. -/
theorem registerFileStaysCanonical : Obligations.RegisterFileStaysCanonical := by
  intro s t hs hstep
  unfold step at hstep
  split at hstep
  · cases hstep
    exact hs
  · next c rest hp =>
    obtain ⟨u, hu, hev⟩ := exec_ends { s with pending := rest } c
    rw [hu] at hstep
    cases hstep
    exact hev.regsOk hs

end Sys2Proof.Machine
end

