-- ==== Sys2Proof/Proofs/Accesses.lean ====
section
/-!
PROOFS. Proofs/Accesses.lean: a register access as its width, its address and the admission of accesses judge it; accesses that reach no
register, and a register whose write has a rule of its own beside those that `ruledReg` lists.
-/
namespace Sys2Proof.Machine

/-- The place of a log entry does not depend on the count of commands. -/
theorem regs_logEv_with_cycle (s : State) (n source code datum : Nat) :
    ({ s with cycle := n }.logEv source code datum).regs = (s.logEv source code datum).regs := by
  have he (e e' : LogEntry) (h : e.source = e'.source) : ({ s with cycle := n }.enqueue e).regs = (s.enqueue e').regs := by
    unfold State.enqueue
    rw [h, show State.mainOn { s with cycle := n } = s.mainOn from rfl]
    split
    · rfl
    · split <;> split <;> rfl
  exact he _ _ rfl

/-- An access that is refused with an entry of the trouble log: the log and its DROPPED change, nothing else. -/
theorem logEv_answerSt_of_cycle (s : State) (source code datum : Nat) (st : Status) :
    let t := ({ s with cycle := s.cycle + 1 }.logEv source code datum).answerSt st
    t = { (s.logEv source code datum) with cycle := s.cycle + 1, log := t.log, bus := ⟨0#32, .done, st⟩ } ∧ RegsKept [Reg.LOG_STATUS] s t := by
  intro t
  constructor
  · have hr := regs_logEv_with_cycle s (s.cycle + 1) source code datum
    show State.answerSt _ _ = _
    unfold State.answerSt State.answer
    rw [logEv_spec { s with cycle := s.cycle + 1 }, logEv_spec s, hr]
    rfl
  · intro a ha
    exact reg_logEv { s with cycle := s.cycle + 1 } source code datum (by simpa using ha)

theorem does_run {f : State → State} {c : Instr} {s : State} {p : State → Prop} (hc : exec c s = run f s)
    (hp : p (f { s with cycle := s.cycle + 1 })) : Does c s p := ⟨_, hc, hp⟩

theorem badWidth_of {a size : Nat} (h : size ≠ 4 ∨ a % 4 ≠ 0) : badWidth a size = true := by
  rcases h with h | h <;> simp [badWidth, h]

theorem badWidth_aligned {a : Nat} (h : a % 4 = 0) : badWidth a 4 = false := by simp [badWidth, h]

/-- An aligned write of 32 bits is judged by its address. -/
theorem exec_registerWrite_word (s : State) (i : Initiator) (a v : Word) (h : a.toNat % 4 = 0) :
    exec (.registerWrite i a 4 v) s = run (writeWord i a.toNat v) s := by
  show run (if badWidth a.toNat 4 then _ else _) s = _
  rw [badWidth_aligned h]; rfl

theorem exec_rcFieldRead_word (s : State) (i : Initiator) (a : Word) (h : a.toNat % 4 = 0) :
    exec (.rcFieldRead i a 4) s = run (readWord i a.toNat) s := by
  show run (if badWidth a.toNat 4 then _ else _) s = _
  rw [badWidth_aligned h]; rfl

theorem exec_registerWrite_badWidth (s : State) (i : Initiator) (a v : Word) (size : Nat) (h : size ≠ 4 ∨ a.toNat % 4 ≠ 0) :
    exec (.registerWrite i a size v) s = run (widthRefused a.toNat) s := by
  show run (if badWidth a.toNat size then _ else _) s = _
  rw [badWidth_of h]; rfl

theorem exec_rcFieldRead_badWidth (s : State) (i : Initiator) (a : Word) (size : Nat) (h : size ≠ 4 ∨ a.toNat % 4 ≠ 0) :
    exec (.rcFieldRead i a size) s = run (widthRefused a.toNat) s := by
  show run (if badWidth a.toNat size then _ else _) s = _
  rw [badWidth_of h]; rfl

section
variable {s : State} {i : Initiator} {a : Nat} {v : Word} {f : State → State}

theorem writeWord_undecoded (h : decoded a = false) : writeWord i a v s = undecoded a s := by
  rw [writeWord, if_pos h]

theorem readWord_undecoded (h : decoded a = false) : readWord i a s = undecoded a s := by
  rw [readWord, if_pos h]

theorem writeAdmitted_stalled (h : fwStalled s i = true) : writeAdmitted i a f s = s := by rw [writeAdmitted, if_pos h]

theorem readAdmitted_stalled (h : fwStalled s i = true) : readAdmitted i a f s = s := by rw [readAdmitted, if_pos h]

theorem writeAdmitted_fault {k : BusKind} {st : Status} (h : fwStalled s i = false) (hf : accessFault s a = some (k, st)) :
    writeAdmitted i a f s = s.answer 0#32 k st := by
  rw [writeAdmitted, h, hf]; rfl

theorem readAdmitted_fault {k : BusKind} {st : Status} (h : fwStalled s i = false) (hf : accessFault s a = some (k, st)) :
    readAdmitted i a f s = s.answer 0#32 k st := by
  rw [readAdmitted, h, hf]; rfl

theorem writeAdmitted_safetyDenied (h : Reaches s i a) (hb : inSafetyBlock a = true) (hw : mayWriteSafety s i = false) :
    writeAdmitted i a f s = (s.logEv 0x01 0x0004 a).answerSt .denied := by
  rw [writeAdmitted, h.1, h.2, hb, hw]; rfl

/-- The access of an initiator who may write the address is admitted. -/
theorem writeAdmitted_reaches (h : Reaches s i a) (hb : inSafetyBlock a = false) (hw : mayWrite s i a = true) :
    writeAdmitted i a f s = f (s.answerSt .ok) := by
  rw [writeAdmitted, h.1, h.2, hb, hw]; rfl

end

/-- An aligned write of 32 bits to a decoded address goes through the admission of accesses, whatever the block. -/
theorem exec_registerWrite_decoded (s : State) (i : Initiator) (a v : Word) (ha : a.toNat % 4 = 0) (hd : decoded a.toNat = true) :
    ∃ f, exec (.registerWrite i a 4 v) s = run (writeAdmitted i a.toNat f) s := by
  rw [exec_registerWrite_word s i a v ha, run, writeWord, if_neg (by simp [hd])]
  split
  · exact ⟨_, rfl⟩
  · exact ⟨_, rfl⟩

theorem exec_rcFieldRead_decoded (s : State) (i : Initiator) (a : Word) (ha : a.toNat % 4 = 0) (hd : decoded a.toNat = true) :
    ∃ f, exec (.rcFieldRead i a 4) s = run (readAdmitted i a.toNat f) s := by
  rw [exec_rcFieldRead_word s i a ha, run, readWord, if_neg (by simp [hd])]
  exact ⟨_, rfl⟩

/-- Settles O2: an access is judged by its width, by its address, and by the admission of accesses, in this order. -/
theorem accessRefused : Obligations.AccessRefused := by
  refine ⟨fun s i a v size h => ⟨?_, ?_⟩, fun s i a v ha hd => ⟨?_, ?_⟩, fun s i a v ha hd hs => ⟨?_, ?_⟩,
    fun s i a v k st ha hd hs hf => ⟨?_, ?_⟩, fun s i a v ha hd hr hb hw => ?_⟩
  · exact does_run (exec_registerWrite_badWidth s i a v size h) (logEv_answerSt_of_cycle s _ _ _ _)
  · exact does_run (exec_rcFieldRead_badWidth s i a size h) (logEv_answerSt_of_cycle s _ _ _ _)
  · refine does_run (exec_registerWrite_word s i a v ha) ?_
    rw [writeWord_undecoded hd]
    exact logEv_answerSt_of_cycle s _ _ _ _
  · refine does_run (exec_rcFieldRead_word s i a ha) ?_
    rw [readWord_undecoded hd]
    exact logEv_answerSt_of_cycle s _ _ _ _
  · obtain ⟨f, hc⟩ := exec_registerWrite_decoded s i a v ha hd
    exact does_run hc (writeAdmitted_stalled hs)
  · obtain ⟨f, hc⟩ := exec_rcFieldRead_decoded s i a ha hd
    exact does_run hc (readAdmitted_stalled hs)
  · obtain ⟨f, hc⟩ := exec_registerWrite_decoded s i a v ha hd
    exact does_run hc (writeAdmitted_fault hs hf)
  · obtain ⟨f, hc⟩ := exec_rcFieldRead_decoded s i a ha hd
    exact does_run hc (readAdmitted_fault hs hf)
  · obtain ⟨f, hc⟩ := exec_registerWrite_decoded s i a v ha hd
    refine does_run hc ?_
    rw [writeAdmitted_safetyDenied (s := { s with cycle := s.cycle + 1 }) hr hb hw]
    exact logEv_answerSt_of_cycle s _ _ _ _

/-! ### A command written to ISL_CTRL in MODE OFF -/

/-- A part after its boot with the domains of the control die on, its clocks locked, and islanding in mode OFF. -/
def islandingOff : State :=
  { State.reset with
    lan := { State.reset.lan with mode := .mainOn }
    img := { State.reset.img with phase := .booted }
    regs := [(Fld.DOM_STATUS_ON.addr, 0xFFFF#32), (Fld.CLK_STATUS_CTRL_LOCK.addr, 0xFFFFFFFF#32)] }

theorem islandingOff_reaches : Reaches islandingOff .fw Reg.ISL_CTRL := by decide

/-- ISL_CTRL as the register map has it: CMD is RWS. -/
def islCtrlDesc : RegDesc := ⟨Reg.ISL_CTRL, 0, 1, 0, 1, 0, 0, 7, 0, 0, 0, 0, 0, 0, .never, []⟩

theorem descOf_islCtrl : descOf Reg.ISL_CTRL = some islCtrlDesc := by decide

/-- In MODE OFF a command written to ISL_CTRL is ignored (R402). -/
theorem writeWord_islCtrl_off {s : State} {i : Initiator} (v : Word) (hr : Reaches s i Reg.ISL_CTRL) (hw : mayWrite s i Reg.ISL_CTRL = true)
    (hm : s.rd Fld.ISL_STATUS_MODE = 0) : writeWord i Reg.ISL_CTRL v s = s.answerSt .ok := by
  rw [writeWord, if_neg (by decide), if_neg (by decide), writeAdmitted_reaches hr (by decide) hw, descOf_islCtrl]
  exact if_pos hm

theorem exec_islCtrlWrite_off {s : State} {i : Initiator} (v : Word) (hr : Reaches s i Reg.ISL_CTRL) (hw : mayWrite s i Reg.ISL_CTRL = true)
    (hm : s.rd Fld.ISL_STATUS_MODE = 0) :
    exec (.registerWrite i (BitVec.ofNat 32 Reg.ISL_CTRL) 4 v) s = .next ({ s with cycle := s.cycle + 1 }.answerSt .ok) := by
  rw [exec_registerWrite_word s i _ v (by decide)]
  exact congrArg Host.Outcome.next (writeWord_islCtrl_off (s := { s with cycle := s.cycle + 1 }) (i := i) v hr hw hm)

/-- Refutes O3: `ruledReg` does not list ISL_CTRL, whose RWS field CMD does not take the value written while islanding is in MODE OFF (R402). -/
theorem not_registerAccess : ¬ Obligations.RegisterAccess := by
  rintro ⟨-, hwrite, -⟩
  obtain ⟨t, ht, hbits, -⟩ := hwrite islandingOff .fw (BitVec.ofNat 32 Reg.ISL_CTRL) 1#32 islCtrlDesc (by decide) descOf_islCtrl (by decide)
    islandingOff_reaches rfl (by decide) (by decide)
  cases (exec_islCtrlWrite_off 1#32 islandingOff_reaches rfl (by decide)).symm.trans ht
  exact absurd (hbits 0 (by decide)) (by decide)

end Sys2Proof.Machine
end

