-- ==== Sys2Proof/Proofs/Counterexamples.lean ====
section
/-!
PROOFS. Proofs/Counterexamples.lean: states in which a statement about resets and one about the commands on the part fail.
-/
namespace Sys2Proof.Machine

/-! ### A register of the main domain that shows a pin -/

/-- A part whose main domain is on and whose gate-drive enable pin is high. -/
def gateEnabled : State :=
  { State.reset with lan := { State.reset.lan with mode := .mainOn }, gate := { State.reset.gate with enHigh := true } }

set_option maxRecDepth 20000 in
/-- After the reset GD_EN_LEVEL shows the level of the pin, which the reset does not change. -/
theorem exec_sysRst_gateEnabled :
    ∃ t, exec .sysRst gateEnabled = .next t ∧ t.reg Reg.GDL_EN_STATUS ≠ resetWord Reg.GDL_EN_STATUS := ⟨_, rfl, by decide⟩

/-- Refutes O18: `resetTaken` does not list GDL_EN_STATUS, whose GD_EN_LEVEL follows its pin through a reset of the main domain. -/
theorem not_resetAndBoot : ¬ Obligations.ResetAndBoot := by
  rintro ⟨hreset, -⟩
  obtain ⟨t, ht, -, -, -, -, -, -, -, -, -, -, -, -, -, -, -, -, hregs, -⟩ := hreset gateEnabled rfl
  obtain ⟨t', ht', hne⟩ := exec_sysRst_gateEnabled
  cases ht'.symm.trans ht
  exact hne (hregs Reg.GDL_EN_STATUS (by decide))

/-! ### The last sequence number of the boot record -/

/-- A booted part with an open OPERATOR session and a preloaded staged image, whose boot record has taken the last of its sequence numbers. -/
def lastRecordSeq : State :=
  let s : State :=
    { State.reset with
      lan := { State.reset.lan with mode := .mainOn }
      img := { State.reset.img with phase := .booted }
      flash := { State.reset.flash with rec0 := ⟨true, 2 ^ 32 - 1, .active, .staged, none, false⟩ } }
  (((s.wr Fld.CE_STATUS_FRONT_ONLY 0).wr (Fld.CE_SESS_VALID 2) 1).wr (Fld.CE_SESS_ROLE 2) 1).wr Fld.IMG_STATUS_PRELOADED 1

/-- A header of the session of `lastRecordSeq`. -/
def activationHdr : Hdr := ⟨0, 0, 2#8, 4#12, 1#32, 23⟩

theorem lastRecordSeq_ready : CommandReady activationHdr false lastRecordSeq := by
  dsimp only [CommandReady]
  decide

theorem lastRecordSeq_actReady :
    consentMissing lastRecordSeq = false ∧ actReady 0#128 lastRecordSeq = true ∧ (opFree lastRecordSeq).isSome = true := by
  decide

set_option maxRecDepth 20000 in
/-- IMAGE_ACTIVATE_AT at frame 50 rewrites the other copy with sequence number 0: the copy in use stays the one of before, with nothing
pending. -/
theorem exec_imageActivateAt_lastRecordSeq :
    ∃ t, exec (.imageActivateAt activationHdr 50#48 0#128 0#8) lastRecordSeq = .next t ∧ (liveRec t).pending = none := ⟨_, rfl, by decide⟩

/-- Refutes O50: the sequence number of the boot record is modulo 2^32 (R168), and an activation that the checks pass leaves no pending record in
use where the number wraps. -/
theorem not_partCommands : ¬ Obligations.PartCommands := by
  rintro ⟨-, -, -, -, -, -, -, -, -, -, -, hact⟩
  obtain ⟨hconsent, hready, hfree⟩ := lastRecordSeq_actReady
  obtain ⟨⟨t, ht, -, hpending, -⟩, -⟩ := hact lastRecordSeq activationHdr 0 50#48 0#128 false lastRecordSeq_ready rfl (by decide)
    (by decide) (by decide) hconsent hready hfree
  obtain ⟨t', ht', hnone⟩ := exec_imageActivateAt_lastRecordSeq
  cases ht'.symm.trans ht
  rw [hnone] at hpending
  cases hpending

end Sys2Proof.Machine
end

