-- ==== Sys2Proof/Proofs/ClockCounterexamples.lean ====
section
/-!
PROOFS. Proofs/ClockCounterexamples.lean: states in which the statements about the loss and the return of clocks, about ring time and about the
lockstep checker fail.
-/
namespace Sys2Proof.Machine

/-! ### A service unlock that ends with the application clock -/

/-- A part on which session 1 holds a service unlock and has halted an application core through it, whose heartbeat is 3 frames old. -/
def haltedByDebugger : State :=
  let s : State :=
    { State.reset with
      lan := { State.reset.lan with mode := .mainOn, appAge := 3 }
      dbg := { State.reset.dbg with unlockLeft := some 5000 } }
  (((s.wr Fld.CLK_STATUS_APP_LOCK 1).wr (Fld.CE_SESS_VALID 1) 1).wr Fld.DBG_UNLOCK_SESSION 1).wr Fld.DBG_HALT_STATUS_APP 1

/-- The loss closes the session, its unlock ends with it (R657), and the heartbeat of the core that resumes is awaited anew. -/
theorem exec_appPllLoss_haltedByDebugger :
    ∃ t, exec .appPllLoss haltedByDebugger = .next t ∧ t.lan.appAge = 0 := ⟨_, rfl, by decide⟩

/-- Refutes O10: a loss of the application PLL changes the Lantern where it closes the session of a service unlock. -/
theorem not_clockLosses : ¬ Obligations.ClockLosses := by
  rintro ⟨-, -, -, happ, -⟩
  obtain ⟨t, ht, -, -, -, -, -, -, -, -, -, -, hlan, -⟩ := happ haltedByDebugger (by decide)
  obtain ⟨t', ht', hage⟩ := exec_appPllLoss_haltedByDebugger
  cases ht'.symm.trans ht
  rw [hlan] at hage
  exact absurd hage (by decide)

/-! ### A resume of the ticks that finds the control die's log queue full -/

/-- A booted part with islanding used that awaits its first frame tick since the control PLL was declared locked; the control die's queue of the
trouble log is full. -/
def resumeWithFullQueue : State :=
  let s : State :=
    { State.reset with
      lan := { State.reset.lan with mode := .mainOn }
      img := { State.reset.img with phase := .booted }
      time := { State.reset.time with resume := some 1 }
      log := { State.reset.log with ctrlQ := List.replicate 32 (State.reset.logEntry 0x12 2 0 none) } }
  (s.wr Fld.CLK_STATUS_CTRL_LOCK 1).wr Fld.ISL_CFG_EN 1

/-- The entry into FALLBACK (R387) is counted in DROPPED (R145). -/
theorem exec_tickResume_fullQueue :
    ∃ t, exec .tickResume resumeWithFullQueue = .next t ∧ t.rd Fld.LOG_STATUS_DROPPED = 1 := ⟨_, rfl, by decide⟩

/-- Refutes O11: islanding starts with the ticks, and its log entry changes LOG_STATUS where the queue is full. -/
theorem not_clockReturns : ¬ Obligations.ClockReturns := by
  rintro ⟨-, -, hresume, -⟩
  obtain ⟨t, ht, -, -, -, -, -, -, -, hregs⟩ := hresume resumeWithFullQueue rfl (by decide) rfl
  obtain ⟨t', ht', hdrop⟩ := exec_tickResume_fullQueue
  cases ht'.symm.trans ht
  rw [rd_congr Fld.LOG_STATUS_DROPPED (hregs Reg.LOG_STATUS (by decide))] at hdrop
  exact absurd hdrop (by decide)

/-! ### A step of ring time over the frame of an activation -/

/-- A booted part at frame 0 with an activation pending for frame 5, and a step of 10 frames that waits for the tick. -/
def stepOverActivation : State :=
  { State.reset with
    lan := { State.reset.lan with mode := .mainOn }
    img := { State.reset.img with phase := .booted }
    time := { State.reset.time with stepPending := some 10 }
    flash := { State.reset.flash with rec0 := ⟨true, 1, .active, .staged, some ⟨1, 5, false, none⟩, false⟩ } }

set_option maxRecDepth 20000 in
/-- The activation is missed (R187): its pending record is erased, by a write of the other copy of the boot record. -/
theorem exec_tickStep_overActivation :
    ∃ t, exec .tickStep stepOverActivation = .next t ∧ t.flash.rec1.valid = true := ⟨_, rfl, by decide⟩

/-- Refutes O12: a step over the frame of a pending activation rewrites the boot record in the flash. -/
theorem not_ringTimeFollowsTheMaster : ¬ Obligations.RingTimeFollowsTheMaster := by
  rintro ⟨-, -, -, -, -, -, -, -, hstep, -⟩
  obtain ⟨t, ht, -, -, -, -, -, -, hflash, -⟩ := hstep stepOverActivation 10 rfl (by decide)
  obtain ⟨t', ht', hvalid⟩ := exec_tickStep_overActivation
  cases ht'.symm.trans ht
  rw [hflash] at hvalid
  cases hvalid

/-! ### The last place of the change queue -/

/-- A part with a SAFETY session that has presented the password, a counted setting that is being programmed, and 63 entries in the change
queue. -/
def lastPlaceKept : State :=
  let s : State :=
    { State.reset with
      lan := { State.reset.lan with mode := .mainOn }
      otp := { State.reset.otp with programming := some ⟨0x104, 1, 0#256, 2, 1, 0x30, 4⟩ }
      clog := { State.reset.clog with queue := List.replicate 63 ⟨1, 0, 0, false, false, false, 1, 2, 4, 0, 0#128, 0#128⟩ } }
  ((((s.wr Fld.DOM_STATUS_ON 0xFFFF).wr Fld.CLK_STATUS_CTRL_LOCK 1).wr (Fld.CE_SESS_VALID 1) 1).wr (Fld.CE_SESS_ROLE 1) 2).wr (Fld.CE_SESS_PW_OK 1) 1

/-- The last place is kept for the setting (log entry 97), so the write answers BUSY (R196). -/
theorem exec_lsTest_lastPlaceKept :
    ∃ t, exec (.lsTest (.session 1) 0x80000000#32) lastPlaceKept = .next t ∧ t.bus.status = .busy := ⟨_, rfl, by decide⟩

/-- Refutes O40: a place of the change queue is kept while a counted setting is programmed, so 63 entries fill it. -/
theorem not_lockstep : ¬ Obligations.Lockstep := by
  rintro ⟨-, -, -, -, -, htest, -⟩
  obtain ⟨t, ht, -, hbus, -⟩ := htest lastPlaceKept 1 0x80000000#32 (by decide) (by decide) (by decide) (by decide)
  obtain ⟨t', ht', hbusy⟩ := exec_lsTest_lastPlaceKept
  cases ht'.symm.trans ht
  rw [hbus] at hbusy
  cases hbusy

end Sys2Proof.Machine
end

