-- ==== Sys2Proof/Proofs/Sequencer.lean ====
section
/-!
PROOFS. Proofs/Sequencer.lean: what the operations of an ADC core's sequencer do to the core (R218, R219, R226), what they leave alone, and the
commands that bring triggers.
-/
namespace Sys2Proof.Machine

/-! ### The store of a core -/

/-- What holds once core `c` is stored, and through every write of the fields of its STATUS below ABORTS and of ADC_SW_TRIG, holds of
`setCore`. -/
theorem setCore_rule (s : State) (c : Nat) (q : AdcCore) {p : State → Prop} (hput : p (s.putCore c q))
    (hstatus : ∀ t (f : FRef) v, f.addr = Reg.ADC_CORE_STATUS c → f.lo ≤ f.hi ∧ f.hi < 24 → p t → p (t.wr f v))
    (htrig : ∀ t v, p t → p (t.wr (Fld.ADC_SW_TRIG_TRIG c) v)) : p (s.setCore c q) := by
  unfold State.setCore
  extract_lets s1 st s2 s3
  have h2 : p s2 := hstatus _ _ _ rfl (by simp) (hstatus _ _ _ rfl (by simp) hput)
  have h3 : p s3 := by
    unfold s3
    split
    · exact hstatus _ _ _ rfl (by simp) (hstatus _ _ _ rfl (by simp) h2)
    · exact hstatus _ _ _ rfl (by simp) h2
  exact htrig _ _ h3

/-! ### What the sequencer of a core leaves alone -/

/-- The registers that follow the sequencer of core `c`, LOG_STATUS among them (R239, R240, R243). -/
def seqRegs (c : Nat) : List Nat := [Reg.ADC_CORE_STATUS c, Reg.ADC_CORE_EVENTS c, Reg.ADC_SW_TRIG c, Reg.LOG_STATUS]

/-- `t` differs from `s` at most in what the sequencer of core `c` changes: the core, its registers, the log and the counters. -/
structure SeqFrame (c : Nat) (s t : State) : Prop where
  rest : t = { s with regs := t.regs, log := t.log, perf := t.perf, adc := t.adc }
  regs : RegsKept (seqRegs c) s t
  cores : ∀ k, k ≠ c → t.core k = s.core k

theorem SeqFrame.refl (c : Nat) (s : State) : SeqFrame c s s := ⟨rfl, fun _ _ => rfl, fun _ _ => rfl⟩

theorem SeqFrame.trans {c : Nat} {r s t : State} (h : SeqFrame c r s) (k : SeqFrame c s t) : SeqFrame c r t := by
  refine ⟨?_, fun a ha => (k.regs a ha).trans (h.regs a ha), fun j hj => (k.cores j hj).trans (h.cores j hj)⟩
  have hs := h.rest
  have ht := k.rest
  rw [hs] at ht
  exact ht

section
variable {c : Nat} {r s : State} (h : SeqFrame c r s)
include h

theorem SeqFrame.wr {f : FRef} {v : Nat} (hf : f.addr ∈ seqRegs c) : SeqFrame c r (s.wr f v) :=
  h.trans ⟨rfl, fun _ ha => reg_wr_ne s v (fun he => ha (he ▸ hf)), fun _ _ => rfl⟩

theorem SeqFrame.logOnce {source code unit datum : Nat} : SeqFrame c r (s.logOnce source code unit datum) := by
  have hl := logOnce_spec s source code unit datum
  refine h.trans ⟨?_, fun _ ha => reg_logOnce s _ _ _ _ (fun he => ha (by simp [seqRegs, he])), fun k _ => ?_⟩
  · generalize s.logOnce source code unit datum = t at hl
    rw [hl]
  · rw [State.core, logOnce_adc, State.core]

theorem SeqFrame.countEv {event unit n : Nat} : SeqFrame c r (countEv event unit n s) := by
  have hc := countEv_spec event unit n s
  generalize Machine.countEv event unit n s = t at hc
  rw [hc]
  exact h.trans ⟨rfl, fun _ _ => rfl, fun _ _ => rfl⟩

theorem SeqFrame.putCore {q : AdcCore} : SeqFrame c r (s.putCore c q) :=
  h.trans ⟨rfl, fun _ _ => rfl, fun _ hk => Tab.get_set_ne _ _ _ _ (Ne.symm hk)⟩

theorem SeqFrame.setCore {q : AdcCore} : SeqFrame c r (s.setCore c q) :=
  setCore_rule s c q h.putCore (fun _ _ _ hf _ k => k.wr (by simp [seqRegs, hf])) (fun _ _ k => k.wr (by simp [seqRegs]))

theorem SeqFrame.trigOver {e : Nat} : SeqFrame c r (trigOver c e s) := (h.wr (by simp [seqRegs])).logOnce
theorem SeqFrame.enqueueEntry {x : AdcQ} : SeqFrame c r (enqueueEntry c x s) := h.setCore
theorem SeqFrame.startEntry {x : AdcQ} {k : Int} : SeqFrame c r (startEntry c x k s) := h.setCore

theorem SeqFrame.urgentRequest {x : AdcQ} {k : Int} : SeqFrame c r (urgentRequest c x k s) := by
  unfold Machine.urgentRequest
  extract_lets q
  split
  · exact h.trigOver
  · split
    · split
      · exact h.startEntry
      · exact h.enqueueEntry
    · split
      · exact h.enqueueEntry
      · exact ((h.wr (by simp [seqRegs])).wr (by simp [seqRegs])).countEv.setCore.enqueueEntry.startEntry

theorem SeqFrame.triggerEntry {x : AdcQ} {k : Int} : SeqFrame c r (triggerEntry c x k s) := by
  unfold Machine.triggerEntry
  split
  · exact h
  · split
    · exact h.urgentRequest
    · split
      · exact h.trigOver
      · split
        · exact h.startEntry
        · exact h.enqueueEntry

/-- A register that does not follow the sequencer reads as before. -/
theorem SeqFrame.rd {f : FRef} (hf : f.addr ∉ seqRegs c) : s.rd f = r.rd f := rd_congr f (h.regs _ hf)

end

theorem adcBase_ge (c : Nat) : 0x100000 ≤ Reg.adcBase c := by
  unfold Reg.adcBase
  split <;> omega

theorem coreCfg_notMem_seqRegs (c : Nat) : Reg.ADC_CORE_CFG c ∉ seqRegs c := by
  have := adcBase_ge c
  simp only [seqRegs, Reg.ADC_CORE_STATUS, Reg.ADC_CORE_EVENTS, Reg.ADC_SW_TRIG, Reg.LOG_STATUS, Reg.ADC_CORE_CFG, List.mem_cons,
    List.not_mem_nil, or_false]
  omega

theorem entryA_notMem_seqRegs (c e : Nat) : Reg.ADC_ENTRY_A c e ∉ seqRegs c := by
  have := adcBase_ge c
  simp only [seqRegs, Reg.ADC_CORE_STATUS, Reg.ADC_CORE_EVENTS, Reg.ADC_SW_TRIG, Reg.LOG_STATUS, Reg.ADC_ENTRY_A, List.mem_cons,
    List.not_mem_nil, or_false]
  omega

/-! ### The core after each operation -/

@[simp] theorem core_wr (s : State) (f : FRef) (v c : Nat) : (s.wr f v).core c = s.core c := rfl
@[simp] theorem core_with_cycle (s : State) (n c : Nat) : State.core { s with cycle := n } c = s.core c := rfl
@[simp] theorem core_answerSt (s : State) (st : Status) (c : Nat) : (s.answerSt st).core c = s.core c := rfl
@[simp] theorem core_logOnce (s : State) (source code unit datum c : Nat) : (s.logOnce source code unit datum).core c = s.core c := by
  rw [State.core, logOnce_adc, State.core]
@[simp] theorem core_putCore (s : State) (c : Nat) (q : AdcCore) : (s.putCore c q).core c = q := Tab.get_set_same _ _ _ _

@[simp] theorem core_setCore (s : State) (c : Nat) (q : AdcCore) : (s.setCore c q).core c = q :=
  setCore_rule s c q (p := fun t => t.core c = q) (core_putCore s c q) (fun _ _ _ _ _ h => h) (fun _ _ h => h)

@[simp] theorem core_trigOver (s : State) (c e k : Nat) : (trigOver c e s).core k = s.core k := by simp [trigOver]

@[simp] theorem core_enqueueEntry (s : State) (c : Nat) (x : AdcQ) :
    (enqueueEntry c x s).core c = { s.core c with queue := (s.core c).queue ++ [x] } := core_setCore _ _ _

/-- The core after a start (R219, R225). -/
theorem core_startEntry (s : State) (c : Nat) (x : AdcQ) (k : Int) :
    let q := s.core c
    let t := (startEntry c x k s).core c
    t.running = some x ∧ t.queue = q.queue ∧ t.next = max k q.next ∧ t.settings = some (entrySettings s c x.entry) ∧
    t.exclude = (if q.settings = some (entrySettings s c x.entry) then q.exclude - (k - q.next).toNat else 12) := by
  unfold startEntry
  extract_lets q q1 q2 q3 t
  have ht : t = q3 := core_setCore s c q3
  rw [ht]
  by_cases hset : q.settings = some (entrySettings s c x.entry)
  · have h3 : q3 = q1 := if_pos hset
    rw [h3, if_pos hset]
    exact ⟨rfl, rfl, rfl, hset, rfl⟩
  · have h3 : q3 = { q2 with settings := some (entrySettings s c x.entry) } := if_neg hset
    rw [h3, if_neg hset]
    exact ⟨rfl, rfl, rfl, rfl, rfl⟩

/-- Storing a core leaves its events. -/
theorem reg_setCore_events (s : State) (c : Nat) (q : AdcCore) :
    (s.setCore c q).reg (Reg.ADC_CORE_EVENTS c) = s.reg (Reg.ADC_CORE_EVENTS c) :=
  setCore_rule s c q (p := fun t => t.reg (Reg.ADC_CORE_EVENTS c) = s.reg (Reg.ADC_CORE_EVENTS c)) rfl
    (fun t _ v hf _ h => (reg_wr_ne t v (by simp [hf])).trans h) (fun t v h => (reg_wr_ne t v (by simp)).trans h)

theorem rd_setCore_events (s : State) (c : Nat) (q : AdcCore) {f : FRef} (hf : f.addr = Reg.ADC_CORE_EVENTS c) :
    (s.setCore c q).rd f = s.rd f := rd_congr f (by rw [hf]; exact reg_setCore_events s c q)

theorem rd_setCore_aborts (s : State) (c : Nat) (q : AdcCore) :
    (s.setCore c q).rd (Fld.ADC_CORE_STATUS_ABORTS c) = s.rd (Fld.ADC_CORE_STATUS_ABORTS c) :=
  setCore_rule s c q (p := fun t => t.rd (Fld.ADC_CORE_STATUS_ABORTS c) = s.rd (Fld.ADC_CORE_STATUS_ABORTS c)) rfl
    (fun t f v _ hf h => (rd_wr_disjoint t f _ v ⟨hf.1, hf.2.trans (by decide)⟩ (by simp [FRef.ok]) (.inr hf.2)).trans h)
    (fun t v h => (rd_wr_ne t _ _ v (by simp)).trans h)

theorem rd_trigOver (s : State) (c e : Nat) : (trigOver c e s).rd (Fld.ADC_CORE_EVENTS_TRIG_OVR c) = 1 := by
  have := adcBase_ge c
  rw [trigOver, rd_logOnce _ _ _ _ _ _ (by simp only [ne_eq, Reg.ADC_CORE_EVENTS, Reg.LOG_STATUS]; omega), rd_wr_same _ _ _ (by simp [FRef.ok])]
  rfl

/-! ### What becomes of a trigger (R219, R226) -/

/-- A trigger of entry `x` finds the core free and nothing before it, while entries run. -/
def startsNow (s : State) (c : Nat) (x : AdcQ) : Bool :=
  entriesRun s && (s.core c).running.isNone && (if x.urgent then !(s.core c).queue.any (·.urgent) else (s.core c).queue.isEmpty)

/-- Entry `r` of core `c` is aborted and waits to restart (R226). -/
def abortRunning (c : Nat) (r : AdcQ) (s : State) : State :=
  let t := countEv 0x082 c 1 ((s.inc (Fld.ADC_CORE_STATUS_ABORTS c)).wr (Fld.ADC_CORE_EVENTS_ABORT_EV c) 1)
  enqueueEntry c { r with aborted := true } (t.setCore c { s.core c with running := none })

theorem core_abortRunning (s : State) (c : Nat) (r : AdcQ) :
    (abortRunning c r s).core c = { s.core c with running := none, queue := (s.core c).queue ++ [{ r with aborted := true }] } := by
  rw [abortRunning, core_enqueueEntry, core_setCore]

theorem rd_countEv (s : State) (event unit n : Nat) (f : FRef) : (countEv event unit n s).rd f = s.rd f :=
  rd_congr f (reg_congr (by rw [countEv_spec]) _)

theorem rd_abortRunning_event (s : State) (c : Nat) (r : AdcQ) : (abortRunning c r s).rd (Fld.ADC_CORE_EVENTS_ABORT_EV c) = 1 := by
  rw [abortRunning, enqueueEntry, rd_setCore_events, rd_setCore_events, rd_countEv, rd_wr_same _ _ _ (by simp [FRef.ok])]
  · rfl
  all_goals rfl

theorem rd_abortRunning_aborts (s : State) (c : Nat) (r : AdcQ) :
    (abortRunning c r s).rd (Fld.ADC_CORE_STATUS_ABORTS c) = Nat.min 255 (s.rd (Fld.ADC_CORE_STATUS_ABORTS c) + 1) := by
  rw [abortRunning, enqueueEntry, rd_setCore_aborts, rd_setCore_aborts, rd_countEv, rd_wr_ne _ _ _ _ (by simp), inc_eq,
    rd_wr_same _ _ _ (by simp [FRef.ok])]
  show Nat.min (_ + 1) 255 % 256 = _
  rw [Nat.mod_eq_of_lt (Nat.lt_succ_of_le (Nat.min_le_right _ _))]
  exact Nat.min_comm _ _

section
variable {s : State} {c : Nat} {x : AdcQ} {k : Int}

theorem urgentRequest_busy (hb : entryBusy (s.core c) x.entry = true) : urgentRequest c x k s = trigOver c x.entry s := if_pos hb

theorem urgentRequest_free (hb : entryBusy (s.core c) x.entry = false) (hr : (s.core c).running = none) :
    urgentRequest c x k s =
      if entriesRun s && !(s.core c).queue.any (·.urgent) then startEntry c x k s else enqueueEntry c x s := by
  simp only [urgentRequest, hb, hr, Bool.false_eq_true, if_false]

theorem urgentRequest_behind {r : AdcQ} (hb : entryBusy (s.core c) x.entry = false) (hr : (s.core c).running = some r)
    (hu : r.urgent = true) : urgentRequest c x k s = enqueueEntry c x s := by
  simp only [urgentRequest, hb, hr, hu, Bool.false_eq_true, if_false, if_true]

/-- An urgent request aborts a running entry that is not urgent (R226). -/
theorem urgentRequest_aborts {r : AdcQ} (hb : entryBusy (s.core c) x.entry = false) (hr : (s.core c).running = some r)
    (hu : r.urgent = false) : urgentRequest c x k s = startEntry c x k (abortRunning c r s) := by
  unfold urgentRequest abortRunning
  simp only [hb, hr, hu, Bool.false_eq_true, if_false]

end

section
variable {s : State} {c : Nat} {x : AdcQ} {k : Int} (hused : coreUsed s c = true) (hen : s.rdB (Fld.ADC_ENTRY_A_EN c x.entry) = true)
include hused hen

theorem triggerEntry_urgent (hu : x.urgent = true) : triggerEntry c x k s = urgentRequest c x k s := by
  rw [triggerEntry, hused, hen, hu]
  rfl

theorem triggerEntry_busy (hb : entryBusy (s.core c) x.entry = true) : triggerEntry c x k s = trigOver c x.entry s := by
  cases hu : x.urgent with
  | true => rw [triggerEntry_urgent hused hen hu, urgentRequest_busy hb]
  | false => rw [triggerEntry, hused, hen, hu, hb]; rfl

theorem triggerEntry_starts (hb : entryBusy (s.core c) x.entry = false) (hs : startsNow s c x = true) :
    triggerEntry c x k s = startEntry c x k s := by
  simp only [startsNow, Bool.and_eq_true, Option.isNone_iff_eq_none] at hs
  obtain ⟨⟨hrun, hnone⟩, hq⟩ := hs
  cases hu : x.urgent with
  | true =>
    simp only [hu, if_true] at hq
    rw [triggerEntry_urgent hused hen hu, urgentRequest_free hb hnone, hrun, hq]
    rfl
  | false =>
    simp only [hu, Bool.false_eq_true, if_false] at hq
    rw [triggerEntry, hused, hen, hu, hb, hnone, hq, hrun]
    rfl

theorem triggerEntry_waits (hb : entryBusy (s.core c) x.entry = false) (hs : startsNow s c x = false)
    (hu : x.urgent = false ∨ (s.core c).running = none) : triggerEntry c x k s = enqueueEntry c x s := by
  cases hx : x.urgent with
  | true =>
    have hnone : (s.core c).running = none := hu.resolve_left (by simp [hx])
    have hq : (entriesRun s && !(s.core c).queue.any (·.urgent)) = false := by simpa [startsNow, hx, hnone] using hs
    rw [triggerEntry_urgent hused hen hx, urgentRequest_free hb hnone, hq]
    rfl
  | false =>
    have hq : ((s.core c).running.isNone && (s.core c).queue.isEmpty && entriesRun s) = false := by
      rw [← hs, startsNow, hx, Bool.and_comm, Bool.and_assoc]
      rfl
    rw [triggerEntry, hused, hen, hx, hb, hq]
    rfl

/-- A trigger is dropped, starts its entry or lets it wait (R219), unless it is urgent and meets a running entry. -/
theorem triggerEntry_outcome :
    let t := triggerEntry c x k s
    let q := s.core c
    (entryBusy q x.entry = true → t.core c = q ∧ t.rd (Fld.ADC_CORE_EVENTS_TRIG_OVR c) = 1) ∧
    (entryBusy q x.entry = false → startsNow s c x = true →
      (t.core c).running = some x ∧ (t.core c).queue = q.queue ∧ (t.core c).next = max k q.next ∧
      (t.core c).settings = some (entrySettings s c x.entry) ∧
      (t.core c).exclude = (if q.settings = some (entrySettings s c x.entry) then q.exclude - (k - q.next).toNat else 12)) ∧
    (entryBusy q x.entry = false → startsNow s c x = false → x.urgent = false ∨ q.running = none →
      t.core c = { q with queue := q.queue ++ [x] }) := by
  intro t q
  refine ⟨fun hb => ?_, fun hb hs => ?_, fun hb hs hu => ?_⟩
  · rw [show t = trigOver c x.entry s from triggerEntry_busy hused hen hb]
    exact ⟨core_trigOver _ _ _ _, rd_trigOver _ _ _⟩
  · rw [show t = startEntry c x k s from triggerEntry_starts hused hen hb hs]
    exact core_startEntry s c x k
  · rw [show t = enqueueEntry c x s from triggerEntry_waits hused hen hb hs hu]
    exact core_enqueueEntry s c x

end

/-! ### A trigger that has fallen due -/

/-- The state in which the trigger of entry `e` is taken: it no longer falls due. -/
def dueTaken (s : State) (c e : Nat) : State :=
  State.putCore { s with cycle := s.cycle + 1 } c { s.core c with due := (s.core c).due.filter (fun x => x.1.entry != e) }

@[simp] theorem core_dueTaken (s : State) (c e : Nat) :
    (dueTaken s c e).core c = { s.core c with due := (s.core c).due.filter (fun x => x.1.entry != e) } := core_putCore _ _ _

theorem entry_of_due {l : List (AdcQ × Int)} {e : Nat} {d : AdcQ × Int} (h : l.find? (fun d => d.1.entry == e) = some d) : d.1.entry = e := by
  simpa using List.find?_some h

theorem startsNow_dueTaken (s : State) (c e : Nat) (x : AdcQ) : startsNow (dueTaken s c e) c x = startsNow s c x := by
  rw [startsNow, core_dueTaken]
  rfl

/-- A trigger is taken in its order, once the sample instants up to it have been taken (R39, R218). -/
theorem exec_adcTrigger_due {s : State} {c : Fin 40} {e : Fin 16} {d : AdcQ × Int}
    (hd : (s.core c).due.find? (fun d => d.1.entry == e.val) = some d) (hs : sampling s = true) (hfirst : (s.core c).due.all (dueFirst d) = true)
    (hr : (s.core c).running = none ∨ 5 * d.2 < instantAt s (s.core c).next) :
    exec (.adcTrigger c e) s = .next (triggerEntry c d.1 (firstAfter s d.2) (dueTaken s c e)) := by
  have hpast : ((s.core c).running.isSome && decide (instantAt s (s.core c).next ≤ 5 * d.2)) = false := by
    rcases hr with hr | hr
    · rw [hr]; rfl
    · simp [hr]
  have hsamp : sampling { s with cycle := s.cycle + 1 } = true := hs
  show run (fun s => _) s = _
  simp only [run, core_with_cycle, hd, hsamp, hfirst]
  exact congrArg Host.Outcome.next (if_neg (by simp [show instantAt { s with cycle := s.cycle + 1 } _ = instantAt s _ from rfl, hpast]))

/-- A trigger that is not due, or comes without the sample clock, is not taken. -/
theorem exec_adcTrigger_idle {s : State} {c : Fin 40} {e : Fin 16}
    (h : (s.core c).due.find? (fun d => d.1.entry == e.val) = none ∨ sampling s = false) :
    exec (.adcTrigger c e) s = .next { s with cycle := s.cycle + 1 } := by
  show run (fun s => _) s = _
  simp only [run, core_with_cycle]
  split
  · rfl
  · next d hd =>
    have hs : sampling { s with cycle := s.cycle + 1 } = false := h.resolve_left (by simp [hd])
    simp only [hs]
    rfl

end Sys2Proof.Machine
end

