-- ==== Sys2Proof/Proofs/SequencerTriggers.lean ====
section
/-!
PROOFS. Proofs/SequencerTriggers.lean: the writes of ADC_SW_TRIG and ADC_URG_REQ, and the triggers of the sequencer (O22).
-/
namespace Sys2Proof.Machine

/-! ### The triggers of a write of ADC_SW_TRIG (R218, R243) -/

/-- The bit of entry `e` in a write `v` of ADC_SW_TRIG triggers an entry that is enabled. -/
def swHit (s : State) (c : Nat) (v : Word) (e : Nat) : Bool :=
  v.getLsbD e && decide (s.rd (Fld.ADC_ENTRY_A_TRIG c e) = 0) && decide (s.rd (Fld.ADC_ENTRY_A_MODE c e) = 0) && s.rdB (Fld.ADC_ENTRY_A_EN c e)

/-- What a write `v` of ADC_SW_TRIG does for entry `e`. -/
def swTrigOne (c : Nat) (v : Word) (k : Int) (e : Nat) (s : State) : State :=
  when (v.getLsbD e && decide (s.rd (Fld.ADC_ENTRY_A_TRIG c e) = 0) && decide (s.rd (Fld.ADC_ENTRY_A_MODE c e) = 0))
    (triggerEntry c ⟨e, s.rdB (Fld.ADC_ENTRY_A_URGENT c e), false, 0, none⟩ k) s

theorem swTrigWrite_eq (c : Nat) (v : Word) (s : State) :
    swTrigWrite c v s = forEach (triggerOrder c s) (swTrigOne c v (s.core c).next) s := rfl

/-- On a core with a running entry a hit joins the queue, or is dropped if its entry is running or queued (R219). -/
theorem swTrigOne_eq {s : State} {c : Nat} {v : Word} (k : Int) {e : Nat} (hused : coreUsed s c = true) (hrun : (s.core c).running.isSome = true)
    (hurg : v.getLsbD e = true → s.rdB (Fld.ADC_ENTRY_A_URGENT c e) = false) :
    swTrigOne c v k e s =
      if swHit s c v e then (if entryBusy (s.core c) e then trigOver c e s else enqueueEntry c ⟨e, false, false, 0, none⟩ s) else s := by
  have hwaits : startsNow s c ⟨e, false, false, 0, none⟩ = false := by simp [startsNow, Option.ne_none_iff_isSome.mpr hrun]
  unfold swTrigOne when swHit
  generalize hb : (v.getLsbD e && decide (s.rd (Fld.ADC_ENTRY_A_TRIG c e) = 0) && decide (s.rd (Fld.ADC_ENTRY_A_MODE c e) = 0)) = b
  cases b with
  | false => rfl
  | true =>
    have hv : v.getLsbD e = true := by simp only [Bool.and_eq_true] at hb; exact hb.1.1
    rw [hurg hv, if_pos rfl, Bool.true_and]
    by_cases hen : s.rdB (Fld.ADC_ENTRY_A_EN c e) = true
    · rw [if_pos hen]
      by_cases hbusy : entryBusy (s.core c) e = true
      · rw [if_pos hbusy]; exact triggerEntry_busy hused hen hbusy
      · rw [if_neg hbusy]; exact triggerEntry_waits hused hen (by simpa using hbusy) hwaits (.inl rfl)
    · rw [if_neg hen, triggerEntry, hused, eq_false_of_ne_true hen]; rfl

/-- The triggers of the entries `l` have been taken on a core with a running entry: those of idle entries wait, the others are dropped. -/
structure SwTaken (c : Nat) (v : Word) (l : List Nat) (s t : State) : Prop where
  frame : SeqFrame c s t
  perf : t.perf = s.perf
  core : t.core c = { s.core c with
    queue := (s.core c).queue ++ (l.filter (fun e => swHit s c v e && !entryBusy (s.core c) e)).map (fun e => ⟨e, false, false, 0, none⟩) }
  lost : t.rdB (Fld.ADC_CORE_EVENTS_TRIG_OVR c) =
    (s.rdB (Fld.ADC_CORE_EVENTS_TRIG_OVR c) || l.any (fun e => swHit s c v e && entryBusy (s.core c) e))

theorem SeqFrame.swHit {c : Nat} {s t : State} (h : SeqFrame c s t) (v : Word) (e : Nat) : Machine.swHit t c v e = Machine.swHit s c v e := by
  simp only [Machine.swHit, State.rdB, h.rd (f := Fld.ADC_ENTRY_A_TRIG c e) (entryA_notMem_seqRegs c e),
    h.rd (f := Fld.ADC_ENTRY_A_MODE c e) (entryA_notMem_seqRegs c e), h.rd (f := Fld.ADC_ENTRY_A_EN c e) (entryA_notMem_seqRegs c e)]

theorem perf_trigOver (s : State) (c e : Nat) : (trigOver c e s).perf = s.perf := by rw [trigOver, logOnce_spec]; rfl

theorem perf_enqueueEntry (s : State) (c : Nat) (x : AdcQ) : (enqueueEntry c x s).perf = s.perf :=
  setCore_rule s c _ (p := fun t => t.perf = s.perf) rfl (fun _ _ _ _ _ h => h) (fun _ _ h => h)

theorem rdB_trigOver (s : State) (c e : Nat) : (trigOver c e s).rdB (Fld.ADC_CORE_EVENTS_TRIG_OVR c) = true := by
  rw [State.rdB, rd_trigOver]; rfl

theorem rdB_enqueueEntry_over (s : State) (c : Nat) (x : AdcQ) :
    (enqueueEntry c x s).rdB (Fld.ADC_CORE_EVENTS_TRIG_OVR c) = s.rdB (Fld.ADC_CORE_EVENTS_TRIG_OVR c) := by
  rw [State.rdB, enqueueEntry, rd_setCore_events _ _ _ rfl, State.rdB]

theorem swTaken_nil (c : Nat) (v : Word) (s : State) : SwTaken c v [] s s where
  frame := .refl _ _
  perf := rfl
  core := by simp
  lost := by simp

theorem swTaken_one {s : State} {c : Nat} {v : Word} (k : Int) {e : Nat} (hused : coreUsed s c = true) (hrun : (s.core c).running.isSome = true)
    (hurg : v.getLsbD e = true → s.rdB (Fld.ADC_ENTRY_A_URGENT c e) = false) : SwTaken c v [e] s (swTrigOne c v k e s) := by
  rw [swTrigOne_eq k hused hrun hurg]
  by_cases hhit : swHit s c v e = true
  · by_cases hbusy : entryBusy (s.core c) e = true
    · rw [if_pos hhit, if_pos hbusy]
      exact ⟨(SeqFrame.refl _ _).trigOver, perf_trigOver _ _ _, by simp [hbusy], by rw [rdB_trigOver]; simp [hhit, hbusy]⟩
    · rw [if_pos hhit, if_neg hbusy]
      exact ⟨(SeqFrame.refl _ _).enqueueEntry, perf_enqueueEntry _ _ _, by simp [hhit, hbusy], by rw [rdB_enqueueEntry_over]; simp [hbusy]⟩
  · rw [if_neg hhit]
    exact ⟨.refl _ _, rfl, by simp [hhit], by simp [hhit]⟩

/-- Another entry joining the queue leaves an entry as busy as it was. -/
theorem entryBusy_append_ne (q : AdcCore) {e : Nat} {l : List AdcQ} (h : ∀ x ∈ l, x.entry ≠ e) :
    entryBusy { q with queue := q.queue ++ l } e = entryBusy q e := by
  have hl : l.any (fun x => x.entry == e) = false := by simpa using h
  simp only [entryBusy, List.any_append, hl, Bool.or_false]

theorem SwTaken.cons {c : Nat} {v : Word} {e : Nat} {l : List Nat} {r s t : State} (he : e ∉ l) (h : SwTaken c v [e] r s) (k : SwTaken c v l s t) :
    SwTaken c v (e :: l) r t := by
  have hbusy : ∀ j ∈ l, entryBusy (s.core c) j = entryBusy (r.core c) j := by
    intro j hj
    rw [h.core]
    refine entryBusy_append_ne _ fun x hx => ?_
    have hx : x.entry = e := by
      obtain ⟨a, ha, rfl⟩ := List.mem_map.mp hx
      exact List.mem_singleton.mp (List.mem_of_mem_filter ha)
    exact fun hxj => he (hx ▸ hxj ▸ hj)
  have hwaits : l.filter (fun j => swHit s c v j && !entryBusy (s.core c) j) = l.filter (fun j => swHit r c v j && !entryBusy (r.core c) j) :=
    List.filter_congr fun j hj => by rw [h.frame.swHit, hbusy j hj]
  have hdrops : l.any (fun j => swHit s c v j && entryBusy (s.core c) j) = l.any (fun j => swHit r c v j && entryBusy (r.core c) j) := by
    rw [Bool.eq_iff_iff, List.any_eq_true, List.any_eq_true]
    exact exists_congr fun j => and_congr_right fun hj => by rw [h.frame.swHit, hbusy j hj]
  refine ⟨h.frame.trans k.frame, k.perf.trans h.perf, ?_, ?_⟩
  · rw [k.core, hwaits, h.core, ← List.singleton_append (l := l), List.filter_append [e] l, List.map_append, ← List.append_assoc]
  · rw [k.lost, hdrops, h.lost, ← List.singleton_append (l := l), List.any_append (xs := [e]) (ys := l), Bool.or_assoc]

/-- The triggers of a write of ADC_SW_TRIG, taken one after another (R39). -/
theorem swTaken_forEach {c : Nat} {v : Word} (k : Int) {l : List Nat} (hl : l.Nodup) :
    ∀ {s : State}, coreUsed s c = true → (s.core c).running.isSome = true →
      (∀ e ∈ l, v.getLsbD e = true → s.rdB (Fld.ADC_ENTRY_A_URGENT c e) = false) → SwTaken c v l s (forEach l (swTrigOne c v k) s) := by
  induction l with
  | nil => exact fun _ _ _ => swTaken_nil c v _
  | cons e l ih =>
    intro s hused hrun hurg
    obtain ⟨he, hl⟩ := List.nodup_cons.mp hl
    have h1 : SwTaken c v [e] s (swTrigOne c v k e s) := swTaken_one k hused hrun (hurg e List.mem_cons_self)
    refine h1.cons he (ih hl ?_ (by rw [h1.core]; exact hrun) fun j hj hv => ?_)
    · rw [← hused]
      simp only [coreUsed, State.rdB, h1.frame.rd (f := Fld.ADC_CORE_CFG_EN c) (coreCfg_notMem_seqRegs c),
        h1.frame.rd (f := Fld.ADC_CORE_CFG_SLAVE c) (coreCfg_notMem_seqRegs c)]
    · rw [State.rdB, h1.frame.rd (f := Fld.ADC_ENTRY_A_URGENT c j) (entryA_notMem_seqRegs c j)]
      exact hurg j (List.mem_cons_of_mem _ hj) hv

theorem triggerOrder_perm (c : Nat) (s : State) : (triggerOrder c s).Perm (List.range 16) := List.filter_append_perm _ _

/-! ### The writes of the sequencer's registers -/

theorem adcBase_lt {c : Nat} (h : c < 40) : Reg.adcBase c < 0x138000 := by
  unfold Reg.adcBase
  split <;> omega

theorem adcBlock_notSafety {c k : Nat} (h : c < 40) (hk : k < 0x1000) : inSafetyBlock (Reg.adcBase c + k) = false := by
  have := adcBase_lt h
  simp only [inSafetyBlock, Bool.or_eq_false_iff, decide_eq_false_iff_not]
  omega

theorem urgReqEntry_eq (c : Nat) (v : Word) : (Fld.ADC_URG_REQ_ENTRY c).get v = (v.extractLsb' 0 4).toNat := by
  apply Nat.eq_of_testBit_eq
  intro i
  rw [FRef.testBit_get _ (by simp [FRef.ok]), BitVec.testBit_toNat, BitVec.getLsbD_extractLsb']
  rfl

theorem urgReqGo_ne_zero (c : Nat) {v : Word} (h : v.getLsbD 31 = true) : (Fld.ADC_URG_REQ_GO c).get v ≠ 0 := by
  have hbit : ((Fld.ADC_URG_REQ_GO c).get v).testBit 0 = true := by
    rw [FRef.testBit_get _ (by simp [FRef.ok])]
    exact h
  intro h0
  simp [h0] at hbit

/-! ### Accesses of a core's registers -/

theorem SeqFrame.answerSt {c : Nat} {s t : State} (h : SeqFrame c s t) (st : Status) : SeqFrame c (s.answerSt st) (t.answerSt st) :=
  ⟨congrArg (State.answerSt · st) h.rest, h.regs, h.cores⟩

/-- The state in which an admitted write acts. -/
def admitted (s : State) : State := State.answerSt { s with cycle := s.cycle + 1 } .ok

/-- What an access that is answered leaves, where it acts on the sequencer of core `c` alone. -/
theorem SeqFrame.answered {c : Nat} {s t : State} {st : Status} (h : SeqFrame c ((admitted s).answerSt st) t) :
    t.bus = ⟨0#32, .done, st⟩ ∧ (∀ k, k < 40 → k ≠ c → t.core k = s.core k) ∧
    t = { s with cycle := s.cycle + 1, regs := t.regs, log := t.log, perf := t.perf, bus := t.bus, adc := t.adc } ∧
    RegsKept [Reg.ADC_CORE_STATUS c, Reg.ADC_CORE_EVENTS c, Reg.ADC_SW_TRIG c, Reg.LOG_STATUS] s t := by
  have hbus : t.bus = ⟨0#32, .done, st⟩ := congrArg State.bus h.rest
  exact ⟨hbus, fun k _ hk => h.cores k hk, h.rest.trans (by rw [hbus]; rfl), h.regs⟩

/-- An admitted write of a register of an ADC core. -/
theorem run_writeAdmitted_adc {s : State} {i : Initiator} {c : Fin 40} {k : Nat} (hk : k < 0x1000) {f : State → State}
    (h : Reaches s i (Reg.adcBase c.val + k)) (hw : mayWrite s i (Reg.adcBase c.val + k) = true) :
    run (writeAdmitted i (Reg.adcBase c.val + k) f) s = .next (f (admitted s)) :=
  congrArg Host.Outcome.next
    (writeAdmitted_reaches (s := { s with cycle := s.cycle + 1 }) h (adcBlock_notSafety c.isLt hk) hw)

theorem swTrigWrite_taken {s : State} {c : Nat} {v : Word} (hused : coreUsed s c = true) (hrun : (s.core c).running.isSome = true)
    (hurg : ∀ e, e < 16 → v.getLsbD e = true → s.rdB (Fld.ADC_ENTRY_A_URGENT c e) = false) :
    SwTaken c v (triggerOrder c s) s (swTrigWrite c v s) :=
  swTaken_forEach _ ((triggerOrder_perm c s).nodup_iff.mpr List.nodup_range) hused hrun
    fun e he => hurg e (List.mem_range.mp ((triggerOrder_perm c s).mem_iff.mp he))

/-- What an urgent request does on a core with no running entry (R226, R234). -/
theorem urgentRequest_idle {s : State} {c : Nat} {x : AdcQ} (k : Int) (hb : entryBusy (s.core c) x.entry = false)
    (hr : (s.core c).running = none) :
    let t := urgentRequest c x k s
    if entriesRun s && !(s.core c).queue.any (·.urgent) then (t.core c).running = some x ∧ (t.core c).queue = (s.core c).queue
    else t.core c = { s.core c with queue := (s.core c).queue ++ [x] } := by
  intro t
  have ht : t = _ := urgentRequest_free hb hr
  by_cases hst : (entriesRun s && !(s.core c).queue.any (·.urgent)) = true
  · rw [if_pos hst] at ht ⊢
    obtain ⟨hrun, hqueue, -⟩ := core_startEntry s c x k
    rw [ht]
    exact ⟨hrun, hqueue⟩
  · rw [if_neg hst] at ht ⊢
    rw [ht, core_enqueueEntry]

/-- What an urgent request does on a core with a running entry (R226). -/
theorem urgentRequest_running {s : State} {c : Nat} {x r : AdcQ} (k : Int) (hb : entryBusy (s.core c) x.entry = false)
    (hr : (s.core c).running = some r) :
    let t := urgentRequest c x k s
    if r.urgent then (t.core c).running = some r ∧ (t.core c).queue = (s.core c).queue ++ [x]
    else (t.core c).running = some x ∧ (t.core c).queue = (s.core c).queue ++ [{ r with aborted := true }] ∧
      t.rd (Fld.ADC_CORE_EVENTS_ABORT_EV c) = 1 ∧ t.rd (Fld.ADC_CORE_STATUS_ABORTS c) = Nat.min 255 (s.rd (Fld.ADC_CORE_STATUS_ABORTS c) + 1) := by
  intro t
  cases hu : r.urgent with
  | true =>
    have ht : t = enqueueEntry c x s := urgentRequest_behind hb hr hu
    rw [if_pos rfl, ht, core_enqueueEntry]
    exact ⟨hr, rfl⟩
  | false =>
    have ht : t = startEntry c x k (abortRunning c r s) := urgentRequest_aborts hb hr hu
    obtain ⟨hrun, hqueue, -⟩ := core_startEntry (abortRunning c r s) c x k
    rw [if_neg (by decide), ht, hrun, hqueue, core_abortRunning, startEntry, rd_setCore_events, rd_setCore_aborts]
    · exact ⟨rfl, by rw [hu], rd_abortRunning_event s c r, rd_abortRunning_aborts s c r⟩
    · rfl

/-! ### A write of ADC_URG_REQ (R226, R227) -/

/-- A write of ADC_URG_REQ may not name entry `e`. -/
def urgentRefused (s : State) (c e : Nat) : Bool :=
  s.rdB (Fld.ADC_CORE_CFG_SLAVE c) || !s.rdB (Fld.ADC_ENTRY_A_EN c e) || decide (s.rd (Fld.ADC_ENTRY_A_MODE c e) = 1)

/-- The refusal of an urgent request for entry `e`. -/
def urgentReject (c e : Nat) (s : State) : State :=
  ((s.wr (Fld.ADC_CORE_EVENTS_URG_REJ c) 1).logOnce 0x10 0x0008 c (adcDatum c e)).answerSt .badArg

section
variable {s : State} {i : Initiator} {c : Fin 40} {v : Word} (hreach : Reaches s i (Reg.ADC_URG_REQ c))
  (hw : mayWrite s i (Reg.ADC_URG_REQ c) = true)
include hreach hw

theorem exec_urgentRequest_denied (h : coreFwOr [1, 3] s i = false) : exec (.urgentRequest i c v) s = .next ((admitted s).answerSt .denied) := by
  refine (run_writeAdmitted_adc (by decide) hreach hw).trans (congrArg _ ?_)
  rw [urgentWrite, show coreFwOr [1, 3] (admitted s) i = false from h]
  rfl

theorem exec_urgentRequest_go (h : coreFwOr [1, 3] s i = true) (hv : v.getLsbD 31 = true) :
    exec (.urgentRequest i c v) s = .next (
      if urgentRefused s c (v.extractLsb' 0 4).toNat then urgentReject c (v.extractLsb' 0 4).toNat (admitted s)
      else urgentRequest c ⟨(v.extractLsb' 0 4).toNat, true, false, 0, none⟩ (s.core c).next (admitted s)) := by
  refine (run_writeAdmitted_adc (by decide) hreach hw).trans (congrArg _ ?_)
  rw [urgentWrite, show coreFwOr [1, 3] (admitted s) i = true from h, if_neg (by decide), if_neg (urgReqGo_ne_zero c hv), urgReqEntry_eq]
  rfl

end

theorem adc_urgentReject (c e : Nat) (s : State) : (urgentReject c e s).adc = s.adc := logOnce_adc _ _ _ _ _

theorem rd_urgentReject (c e : Nat) (s : State) : (urgentReject c e s).rd (Fld.ADC_CORE_EVENTS_URG_REJ c) = 1 := by
  have := adcBase_ge c
  show State.rd (State.logOnce _ _ _ _ _) _ = 1
  rw [rd_logOnce _ _ _ _ _ _ (by simp only [ne_eq, Reg.ADC_CORE_EVENTS, Reg.LOG_STATUS]; omega), rd_wr_same _ _ _ (by simp [FRef.ok])]
  rfl

/-- A refused request leaves what an urgent request leaves. -/
theorem urgentReject_frame (c e : Nat) (s : State) : SeqFrame c (s.answerSt .badArg) (urgentReject c e s) :=
  SeqFrame.answerSt (((SeqFrame.refl c s).wr (by simp [seqRegs])).logOnce) .badArg

/-- Settles O22: what a trigger does follows from the state of its core and whether the entry is urgent; a write of ADC_SW_TRIG is a run of
triggers in the order of R39, one of ADC_URG_REQ an urgent request. -/
theorem sequencerTriggers : Obligations.SequencerTriggers := by
  unfold Obligations.SequencerTriggers
  refine ⟨?_, ?_, ?_, ?_, ?_, ?_⟩
  · intro s c e d hd hs hfirst hr hused hen q starts
    have he : d.1.entry = e := entry_of_due hd
    have hen : (dueTaken s c e).rdB (Fld.ADC_ENTRY_A_EN c d.1.entry) = true := by rw [he]; exact hen
    have hframe : SeqFrame c { s with cycle := s.cycle + 1 } (triggerEntry c d.1 (firstAfter s d.2) (dueTaken s c e)) :=
      (SeqFrame.refl _ _).putCore.triggerEntry
    have houtcome := triggerEntry_outcome (s := dueTaken s c e) (k := firstAfter s d.2) hused hen
    rw [core_dueTaken, startsNow_dueTaken, he] at houtcome
    obtain ⟨hbusy, hstarts, hwaits⟩ := houtcome
    exact ⟨_, exec_adcTrigger_due hd hs hfirst hr, hbusy, hstarts, hwaits, fun k _ hk => hframe.cores k hk, hframe.rest, hframe.regs⟩
  · intro s c e d r hd hs hfirst hr hpast hused hen hb hu
    have he : d.1.entry = e := entry_of_due hd
    have hrun : ((dueTaken s c e).core c).running = some r := by rw [core_dueTaken]; exact hr
    have hb : entryBusy ((dueTaken s c e).core c) d.1.entry = false := by rw [he, core_dueTaken]; exact hb
    have hen : (dueTaken s c e).rdB (Fld.ADC_ENTRY_A_EN c d.1.entry) = true := by rw [he]; exact hen
    have ht := triggerEntry_urgent (s := dueTaken s c e) (k := firstAfter s d.2) hused hen hu
    have hreq := urgentRequest_running (firstAfter s d.2) hb hrun
    rw [← ht, core_dueTaken] at hreq
    exact ⟨_, exec_adcTrigger_due hd hs hfirst (.inr hpast), hreq⟩
  · exact fun s c e h => ⟨_, exec_adcTrigger_idle h, rfl⟩
  · intro s i c v hreach hw hused hurg hrun hit order new
    obtain ⟨hframe, hperf, hcore, hlost⟩ := swTrigWrite_taken (s := admitted s) hused hrun hurg
    rw [(triggerOrder_perm _ _).any_eq] at hlost
    obtain ⟨hbus, hcores, hrest, hregs⟩ := hframe.answered
    exact ⟨_, run_writeAdmitted_adc (by decide) hreach hw, hcore, hlost, hbus, hcores, hrest.trans (by rw [hperf]; rfl), hregs⟩
  · intro s i c v hreach hfw hw hv e q bad
    refine ⟨_, exec_urgentRequest_go hreach hw hfw hv, ?_⟩
    cases hbad : urgentRefused s c e with
    | true =>
      rw [if_pos rfl]
      obtain ⟨hbus, hframe⟩ := (urgentReject_frame c e (admitted s)).answered
      have hno : bad ≠ false := by simp [show bad = true from hbad]
      exact ⟨fun _ => ⟨adc_urgentReject _ _ _, hbus, rd_urgentReject _ _ _⟩,
        (absurd · hno), (absurd · hno), (absurd · hno), (absurd · hno), hframe⟩
    | false =>
      rw [if_neg (by decide)]
      have hframe : SeqFrame c (admitted s) (urgentRequest c ⟨e, true, false, 0, none⟩ q.next (admitted s)) := (SeqFrame.refl _ _).urgentRequest
      obtain ⟨hbus, hframe⟩ := hframe.answered
      have hno : bad ≠ true := by simp [show bad = false from hbad]
      refine ⟨(absurd · hno), fun _ => hbus, fun _ hb => ?_,
        fun _ hb hr => urgentRequest_idle (s := admitted s) (x := ⟨e, true, false, 0, none⟩) q.next hb hr, fun _ hb hr => ?_, hframe⟩
      · have ht := urgentRequest_busy (s := admitted s) (x := ⟨e, true, false, 0, none⟩) (k := q.next) hb
        exact ⟨(congrArg (State.core · c) ht).trans (core_trigOver _ _ _ _), (congrArg (State.rd · _) ht).trans (rd_trigOver _ _ _)⟩
      · obtain ⟨r, hr⟩ := Option.isSome_iff_exists.mp hr
        have hreq := urgentRequest_running (s := admitted s) (x := ⟨e, true, false, 0, none⟩) q.next hb hr
        rw [hr]
        by_cases hu : r.urgent = true
        · rw [if_pos hu] at hreq
          rw [if_pos (c := (some r).any (·.urgent) = true) hu]
          exact hreq
        · rw [if_neg hu] at hreq
          obtain ⟨hrun, hqueue, habort, -⟩ := hreq
          rw [if_neg (c := (some r).any (·.urgent) = true) hu]
          exact ⟨hrun, hqueue, habort⟩
  · exact fun s i c v hreach hw hdenied => ⟨_, exec_urgentRequest_denied hreach hw hdenied, rfl⟩

end Sys2Proof.Machine
end

