-- ==== Sys2Proof/Proofs/RailCounterexample.lean ====
section
/-!
PROOFS. Proofs/RailCounterexample.lean: the enabled rails as the loss of VDD_CT takes CT_CONV down, and a step of the rail sequence in which the
statement about the rails (O8) fails.
-/
namespace Sys2Proof.Machine

/-! ### What the loss of CT_CONV leaves of the power manager -/

theorem forEach_keeps {α : Type} (π : State → α) {f : Nat → State → State} (hf : ∀ i s, π (f i s) = π s) (l : List Nat) (s : State) :
    π (forEach l f s) = π s := by
  unfold forEach
  induction l generalizing s with
  | nil => rfl
  | cons i l ih => exact (ih (f i s)).trans (hf i s)

theorem when_keeps {α : Type} (π : State → α) {f : State → State} (hf : ∀ s, π (f s) = π s) (b : Bool) (s : State) : π (when b f s) = π s := by
  cases b with
  | true => exact hf s
  | false => rfl

@[simp] theorem settleTrips_pwr (pulse : Nat → Nat) (s : State) : (settleTrips pulse s).pwr = s.pwr := by
  rw [(settleTrips_spec pulse s).rest]

@[simp] theorem engineStops_pwr (s : State) : (engineStops s).pwr = s.pwr := by
  unfold engineStops
  extract_lets s1
  split <;> rfl

@[simp] theorem adcPairsStop_pwr (s : State) : (adcPairsStop s).pwr = s.pwr := by
  refine forEach_keeps State.pwr (fun p s => forEach_keeps State.pwr (fun c s => ?_) _ s) _ s
  unfold eventsGone
  extract_lets q ofPair close t
  split <;> rfl

@[simp] theorem stageConnect_pwr (g : Nat) (b : Bool) (s : State) : (stageConnect g b s).pwr = s.pwr := by
  unfold stageConnect
  split <;> rfl

@[simp] theorem rtExit_pwr (g : Nat) (s : State) : (rtExit g s).pwr = s.pwr := by
  unfold rtExit
  split <;> simp

@[simp] theorem writeRefs_pwr (g : Nat) (r : List Int) (s : State) : (writeRefs g r s).pwr = s.pwr :=
  forEach_keeps State.pwr (f := fun q s => s.setReg (Reg.GST_REF g q) (intW (r.getD q 0))) (fun _ _ => rfl) [0, 1, 2, 3] s

@[simp] theorem stageSources_pwr (g : Nat) (s : State) : (stageSources g s).pwr = s.pwr := settleTrips_pwr _ _

@[simp] theorem stageTo_pwr (g st : Nat) (s : State) : (stageTo g st s).pwr = s.pwr := by
  unfold stageTo
  extract_lets s1 q s2 s3 s4
  have h2 : s2.pwr = s.pwr := by
    unfold s2
    split <;> simp [s1, State.setStage]
  have h3 : s3.pwr = s.pwr := by
    unfold s3
    split <;> simp [h2]
  have h4 : s4.pwr = s.pwr := by
    unfold s4
    split <;> simp [h3]
  split <;> simp [h4]

@[simp] theorem stagesOff_pwr (s : State) : (stagesOff s).pwr = s.pwr :=
  forEach_keeps State.pwr (fun _ s => when_keeps State.pwr (fun _ => by simp) _ s) _ s

@[simp] theorem trkTo_pwr (k st : Nat) (s : State) : (trkTo k st s).pwr = s.pwr := by
  unfold trkTo
  split
  · rfl
  · simp [trkSources, State.setTrk]

@[simp] theorem trackersOff_pwr (s : State) : (trackersOff s).pwr = s.pwr :=
  forEach_keeps State.pwr (fun k s => when_keeps State.pwr (trkTo_pwr k 0) _ s) _ s

theorem ctConvLost_pwr (s : State) : (ctConvLost s).pwr = s.pwr := by simp [ctConvLost, countersStop]

/-! ### The enabled rails as VDD_CT is switched off -/

theorem domainLost_ctConv (s : State) : domainLost 14 s = ctConvLost s := by simp [domainLost]

theorem domainLost_ana_regEn (s : State) : (domainLost 15 s).pwr.regEn = s.pwr.regEn := by
  have hoff (t : State) : (forEach adcCores adcCoreOff t).pwr = t.pwr :=
    forEach_keeps State.pwr (f := adcCoreOff) (fun _ _ => rfl) adcCores t
  simp [domainLost, hoff]

theorem railsOfPlan_congr {s t : State} (hp : s.pwr.plan = t.pwr.plan) (k : Nat) : railsOfPlan s k = railsOfPlan t k := by
  unfold railsOfPlan
  rw [hp]

theorem railsOnAt_congr {s t : State} (hp : s.pwr.plan = t.pwr.plan) (he : s.pwr.regEn = t.pwr.regEn) (ho : s.pwr.offSet = t.pwr.offSet) (k : Nat) :
    railsOnAt s k = railsOnAt t k := by
  rw [railsOnAt, railsOnAt, railsOfPlan_congr hp, he, ho]

theorem nextStepDown_congr {s t : State} (h : ∀ k, railsOnAt s k = railsOnAt t k) (k : Nat) : nextStepDown s k = nextStepDown t k := by
  induction k with
  | zero => rfl
  | succ k ih => rw [nextStepDown, nextStepDown, h, ih]

theorem auxOff_pwr (s : State) : (auxOff s).pwr = { s.pwr with regEn := s.pwr.regEn - (s.pwr.regEn &&& railsOfPlan s 11) } := rfl

/-- CT_CONV takes the rails of AUX_CONV with it (R70). -/
theorem domainOff_ctConv_pwr (s : State) :
    (domainOff 14 s).pwr = { s.pwr with regEn := s.pwr.regEn - (s.pwr.regEn &&& railsOfPlan s 11) } := by
  unfold domainOff
  extract_lets s1 s2
  have h2 : s2.pwr = s.pwr := by simp [s2, s1]
  rw [domainLost_ctConv, ctConvLost_pwr, if_pos rfl, auxOff_pwr, railsOfPlan_congr (t := s) (by rw [h2]), h2]

theorem domainOff_ana_regEn (s : State) : (domainOff 15 s).pwr.regEn = s.pwr.regEn := by
  unfold domainOff
  rw [domainLost_ana_regEn]
  rfl

theorem setDrainQ_regEn (s : State) (q : List Nat) : (s.setDrainQ q).pwr.regEn = s.pwr.regEn := by
  cases q with
  | nil => rfl
  | cons d q =>
    show (settleTrips _ _).pwr.regEn = _
    rw [settleTrips_pwr]
    rfl

theorem domainForceOff_regEn {d : Nat} (hd : ∀ s, (domainOff d s).pwr.regEn = s.pwr.regEn) (s : State) :
    (domainForceOff d s).pwr.regEn = s.pwr.regEn := by
  unfold domainForceOff
  extract_lets draining s1 s2
  have h1 : s1.pwr.regEn = s.pwr.regEn :=
    when_keeps (·.pwr.regEn) (f := fun s => s.setWakeQ (s.pwr.wakeQ.filter (· ≠ d))) (fun _ => rfl) _ s
  have h2 : s2.pwr.regEn = s.pwr.regEn := by
    unfold s2
    split
    · exact h1
    · split
      · exact (hd s1).trans h1
      · exact h1
  exact (when_keeps (·.pwr.regEn) (fun _ => setDrainQ_regEn _ _) _ s2).trans h2

section
variable {s : State} {d : Nat} (hw : s.pwr.wakeQ = []) (hwaking : s.waking d = false)
include hw hwaking

theorem domainForceOff_of_off (hd : s.pwr.drainQ = []) (hon : s.domOn d = false) : domainForceOff d s = s := by
  unfold domainForceOff
  extract_lets draining s1 s2
  have h1 : s1 = s := by simp [s1, hw, when]
  have h2 : s2 = s := by
    unfold s2 draining
    rw [h1, hwaking, hon, hd]
    rfl
  rw [h2, hd]
  rfl

theorem domainForceOff_of_on (hd : (domainOff d s).pwr.drainQ = []) (hon : s.domOn d = true) : domainForceOff d s = domainOff d s := by
  unfold domainForceOff
  extract_lets draining s1 s2
  have h1 : s1 = s := by simp [s1, hw, when]
  have h2 : s2 = domainOff d s := by
    unfold s2
    rw [h1, hwaking, hon]
    rfl
  rw [h2, hd]
  rfl

end

/-- The rails that stay enabled as step `j` goes off: those that its domains leave enabled, without the rails of the step. -/
theorem railsDown_regEn {s : State} {k j : Nat} (h : nextStepDown s k = some j) :
    (railsDown k s).pwr.regEn = (forEach (domainsOfStep j) domainForceOff s).pwr.regEn
      - ((forEach (domainsOfStep j) domainForceOff s).pwr.regEn &&& railsOnAt s j) := by
  unfold railsDown
  rw [h]
  dsimp only
  unfold ctSupplyOff
  split <;> rfl

/-- The loss of VDD_CT (step 0) with CT_CONV as the one domain on disables the rails of AUX_CONV too. -/
theorem forEach_domainForceOff_ctRail_regEn {s : State} (hw : s.pwr.wakeQ = []) (hd : s.pwr.drainQ = []) (hwaking : ∀ d, d < 16 → s.waking d = false)
    (hsup : s.domOn 13 = false) (hconv : s.domOn 14 = true) :
    (forEach (domainsOfStep 0) domainForceOff s).pwr.regEn = s.pwr.regEn - (s.pwr.regEn &&& railsOfPlan s 11) := by
  have hpwr := domainOff_ctConv_pwr s
  show (domainForceOff 15 (domainForceOff 14 (domainForceOff 13 s))).pwr.regEn = _
  rw [domainForceOff_of_off hw (hwaking 13 (by decide)) hd hsup,
    domainForceOff_of_on hw (hwaking 14 (by decide)) (by rw [hpwr]; exact hd) hconv, domainForceOff_regEn domainOff_ana_regEn, hpwr]

/-! ### The supplies of the banks while none of them falls -/

theorem gateBank_can {p : Nat → Bool} (hp : ∀ a, tripReg a = true → p a = true) {r s : State} (h : RegsLogPerf p r s) :
    RegsLogPerf p r (gateBank s) := by
  unfold gateBank
  extract_lets ok s1
  have h1 : RegsLogPerf p r s1 := by
    unfold s1 when
    split
    · exact h.logEv _ _ _ (hp _ tripReg_log)
    · exact h
  exact settleTrips_can hp _ (h1.wr _ _ (hp _ (by decide)))

/-- The registers that the levels of the bank supplies change. -/
def bankReg (a : Nat) : Bool := lockReg a || decide (a = Reg.IO_BANK_STATUS)

/-- Where no supply falls, the banks themselves and the registers that follow them change. -/
theorem bankLevels_rising {s : State} (present det : Nat) (h : ∀ b, b < 8 → s.pwr.bankPresent.testBit b = true → present.testBit b = true) :
    RegsLogPerf bankReg { s with pwr := { s.pwr with bankPresent := present, bank3v3 := det &&& present } } (bankLevels present det s) := by
  have hnone : (List.range 8).filter (fun b => s.pwr.bankPresent.testBit b && !present.testBit b) = [] := by
    rw [List.filter_eq_nil_iff]
    intro b hb
    have := h b (List.mem_range.mp hb)
    cases hs : s.pwr.bankPresent.testBit b <;> simp_all
  unfold bankLevels
  rw [hnone]
  refine RegsLogPerf.wr _ _ (by decide) (gateBank_can (fun a ha => by simp [bankReg, lockReg, ha]) ?_)
  exact RegsLogPerf.wr _ _ (by decide) (RegsLogPerf.wr _ _ (by decide) (RegsLogPerf.wr _ _ (by decide) (RegsLogPerf.refl _ _)))

/-! ### A step of the rail sequence that disables more rails than those of its step -/

/-- The state in which a step of the rail sequence goes on: the command is counted, and the levels of REG_PG_nn and of the banks are shown. -/
def levelsShown (pg : BitVec 16) (mv : List Nat) (s : State) : State :=
  bankLevels (banksPresent mv) (banks3v3 mv) (State.wr { s with cycle := s.cycle + 1 } Fld.RAIL_STATUS_PG pg.toNat)

section
variable {s : State} {pg : BitVec 16} {mv : List Nat} (h : ∀ b, b < 8 → s.pwr.bankPresent.testBit b = true → (banksPresent mv).testBit b = true)
include h

theorem levelsShown_pwr : (levelsShown pg mv s).pwr =
    { s.pwr with bankPresent := banksPresent mv, bank3v3 := banks3v3 mv &&& banksPresent mv } :=
  congrArg State.pwr (bankLevels_rising (s := State.wr { s with cycle := s.cycle + 1 } Fld.RAIL_STATUS_PG pg.toNat) _ (banks3v3 mv) h).rest

theorem levelsShown_reg {a : Nat} (ha : bankReg a = false) (hne : Reg.RAIL_STATUS ≠ a) : (levelsShown pg mv s).reg a = s.reg a :=
  ((bankLevels_rising (s := State.wr { s with cycle := s.cycle + 1 } Fld.RAIL_STATUS_PG pg.toNat) _ (banks3v3 mv) h).regs a ha).trans
    (reg_wr_ne { s with cycle := s.cycle + 1 } _ hne)

end

theorem exec_railSequenceStep_off {s : State} {pg : BitVec 16} {mv : List Nat} {goodFor offFor : Nat}
    (hup : (levelsShown pg mv s).pwr.seqUp = some false) (hoff : stepOff pg.toNat offFor (levelsShown pg mv s) = true) :
    exec (.railSequenceStep pg mv goodFor offFor) s
      = .next (railsDown (levelsShown pg mv s).pwr.seqStep (levelsShown pg mv s)) := by
  show execRailSequenceStep pg mv goodFor offFor s = _
  unfold execRailSequenceStep run
  change Host.Outcome.next (match (levelsShown pg mv s).pwr.seqUp with
    | some true => _ | some false => if stepOff pg.toNat offFor (levelsShown pg mv s) then _ else _ | none => _) = _
  rw [hup, hoff]
  rfl

/-- A part with CT_CONV on and a rail of VDD_CT (0) and of AUX_CONV (1) enabled, of which the sequence is switching off that of VDD_CT alone. -/
def ctRailGoesOff : State :=
  let s : State :=
    { State.reset with
      pwr := { State.reset.pwr with
        seqUp := some false, seqStep := 1, regEn := 0b11, plan := [(0, (1, 0)), (1, (7, 0))], offSet := 0b01 } }
  s.wrBit Fld.DOM_STATUS_ON 14 true

/-- The same part once its next step has found every rail low and banks 0 and 1 as they were. -/
def ctRailLow : State := levelsShown 0#16 [1800, 1800] ctRailGoesOff

theorem ctRailGoesOff_banks (b : Nat) (_ : b < 8) (h : ctRailGoesOff.pwr.bankPresent.testBit b = true) :
    (banksPresent [1800, 1800]).testBit b = true := by
  rw [show banksPresent [1800, 1800] = 3 from by decide]
  exact h

theorem ctRailLow_pwr : ctRailLow.pwr =
    { ctRailGoesOff.pwr with bankPresent := banksPresent [1800, 1800], bank3v3 := banks3v3 [1800, 1800] &&& banksPresent [1800, 1800] } :=
  levelsShown_pwr ctRailGoesOff_banks

theorem ctRailLow_reg {a : Nat} (ha : bankReg a = false) (hne : Reg.RAIL_STATUS ≠ a) : ctRailLow.reg a = ctRailGoesOff.reg a :=
  levelsShown_reg ctRailGoesOff_banks ha hne

theorem ctRailGoesOff_step : nextStepDown ctRailGoesOff 1 = some 0 ∧ railsOnAt ctRailGoesOff 0 = 0b01 := by decide

theorem ctRailLow_railsOnAt (k : Nat) : railsOnAt ctRailLow k = railsOnAt ctRailGoesOff k :=
  railsOnAt_congr (by rw [ctRailLow_pwr]) (by rw [ctRailLow_pwr]) (by rw [ctRailLow_pwr]) k

theorem ctRailLow_waking (d : Nat) (hd : d < 16) : ctRailLow.waking d = false := by
  have hnone : ctRailLow.rd Fld.INRUSH_STATUS_WAKING = 0x1F :=
    (rd_congr Fld.INRUSH_STATUS_WAKING (ctRailLow_reg (by decide) (by decide))).trans (by decide)
  simp only [State.waking, hnone, beq_eq_false_iff_ne]
  omega

theorem ctRailLow_domOn (d : Nat) : ctRailLow.domOn d = ctRailGoesOff.domOn d :=
  bit_congr Fld.DOM_STATUS_ON d (ctRailLow_reg (by decide) (by decide))

/-- No rail stays enabled: AUX_CONV goes off with CT_CONV. -/
theorem railsDown_ctRailLow_regEn : (railsDown 1 ctRailLow).pwr.regEn = 0 := by
  obtain ⟨hnext, hon⟩ := ctRailGoesOff_step
  have hpwr := ctRailLow_pwr
  rw [railsDown_regEn ((nextStepDown_congr ctRailLow_railsOnAt 1).trans hnext), ctRailLow_railsOnAt, hon,
    forEach_domainForceOff_ctRail_regEn (by rw [hpwr]; rfl) (by rw [hpwr]; rfl) ctRailLow_waking (by rw [ctRailLow_domOn]; decide)
      (by rw [ctRailLow_domOn]; decide), railsOfPlan_congr (t := ctRailGoesOff) (by rw [hpwr]), hpwr]
  decide

theorem exec_railSequenceStep_ctRailGoesOff :
    exec (.railSequenceStep 0#16 [1800, 1800] 0 0) ctRailGoesOff = .next (railsDown 1 ctRailLow) := by
  have hoff := exec_railSequenceStep_off (s := ctRailGoesOff) (pg := 0#16) (mv := [1800, 1800]) (goodFor := 0) (offFor := 0)
  rw [← ctRailLow, ctRailLow_pwr] at hoff
  exact hoff rfl (by simp [stepOff])

/-- Refutes O8: the step that switches VDD_CT off disables the rails of AUX_CONV with CT_CONV (R70), though they are not of that step. -/
theorem not_railsAndRegulators : ¬ Obligations.RailsAndRegulators := by
  rintro ⟨-, -, -, hdown, -⟩
  obtain ⟨t, ht, hrails, -⟩ := hdown ctRailGoesOff 0#16 [1800, 1800] 0 0 rfl (by simp [stepOff]) rfl
  obtain ⟨hnext, hon⟩ := ctRailGoesOff_step
  have ht' : t = railsDown 1 ctRailLow := Host.Outcome.next.inj (ht.symm.trans exec_railSequenceStep_ctRailGoesOff)
  rw [show ctRailGoesOff.pwr.seqStep = 1 from rfl, hnext] at hrails
  have hstays : t.pwr.regEn = 0b11 - (0b11 &&& railsOnAt ctRailGoesOff 0) := congrArg Prod.snd hrails
  rw [ht', railsDown_ctRailLow_regEn, hon] at hstays
  exact absurd hstays (by decide)

end Sys2Proof.Machine
end

