-- ==== Sys2Proof/Proofs/PinCounterexamples.lean ====
section
/-!
PROOFS. Proofs/PinCounterexamples.lean: states in which the statements about supply faults, about the always-on domain and about test access
fail.
-/
namespace Sys2Proof.Machine

/-! ### A fault of VDD_CT in a sleep entry that has switched a rail off -/

/-- A part on its way from Ring-only to Dormant that has switched a rail off, with the rail of VDD_CT (0) still enabled. -/
def sleepCommittedWithCtRail : State :=
  let s : State :=
    { State.reset with
      pwr := { State.reset.pwr with
        regEn := 0b1, plan := [(0, (1, 0))], offSet := 0xFFFF, seqUp := some false, seqStep := 1,
        change := some ⟨4, 4, 2, 2, 0, .rails, 0, true⟩ } }
  (s.wr (Fld.RAIL_CFG_CLASS 0) 1).wr Fld.PWR_STATE_STATE 2

/-- The sleep entry completes, whatever comes (R76): the fault leaves the change of state in progress. -/
theorem exec_railFault_sleepCommittedWithCtRail :
    ∃ t, exec (.railFault 0) sleepCommittedWithCtRail = .next t ∧ t.pwr.change.isSome = true := ⟨_, rfl, by decide⟩

/-- Refutes O9: a fault of VDD_CT does not bring Switch-only about once a sleep entry has switched a rail off (R76). -/
theorem not_supplyFaults : ¬ Obligations.SupplyFaults := by
  rintro ⟨hfault, -⟩
  obtain ⟨t, ht, -, -, -, hct, -⟩ := hfault sleepCommittedWithCtRail 0 (by decide)
  obtain ⟨-, -, -, -, -, -, hended, -⟩ := hct (by decide)
  obtain ⟨t', ht', hgoes⟩ := exec_railFault_sleepCommittedWithCtRail
  cases ht'.symm.trans ht
  rw [hended] at hgoes
  cases hgoes

/-! ### A count of sessions that no session bears out -/

/-- A part with APP_ACT = 1 whose application cores have given no heartbeat for APP_PERIOD; SESSIONS reads 1, with no session valid. -/
def sessionsMiscounted : State :=
  let s : State := { State.reset with lan := { State.reset.lan with mode := .mainOn, appAge := 5000 } }
  ((s.wr Fld.HB_CTRL_APP_PERIOD 1).wr Fld.HB_CTRL_APP_ACT 1).wr Fld.CE_STATUS_SESSIONS 1

/-- SESSIONS is written where a session closes (R638), and none does. -/
theorem exec_appHbLost_sessionsMiscounted :
    ∃ t, exec .appHbLost sessionsMiscounted = .next t ∧ t.rd Fld.CE_STATUS_SESSIONS = 1 := ⟨_, rfl, by decide⟩

/-- Refutes O15: it has no hypothesis that SESSIONS counts the valid sessions, and where it does not, a loss of the heartbeat of the application
cores leaves it as it was if no session is there to be closed. -/
theorem not_lanternClockAndHeartbeats : ¬ Obligations.LanternClockAndHeartbeats := by
  rintro ⟨-, -, -, -, -, -, -, -, -, -, -, -, hlost, -⟩
  obtain ⟨t, ht, -, -, hrestart, -⟩ := hlost sessionsMiscounted rfl (by decide) (by decide)
  obtain ⟨hzero, -⟩ := hrestart (by decide)
  obtain ⟨t', ht', hone⟩ := exec_appHbLost_sessionsMiscounted
  cases ht'.symm.trans ht
  rw [hzero] at hone
  cases hone

/-! ### The last place of the change queue, again -/

/-- The last place is kept for the setting that is being programmed (log entry 97), so a route within the scope answers BUSY (R196). -/
theorem exec_atestRoute_lastPlaceKept :
    ∃ t, exec (.atestRoute (.session 1) 0 0x100#32) lastPlaceKept = .next t ∧ t.bus.status = .busy := ⟨_, rfl, by decide⟩

/-- Refutes O56: a place of the change queue is kept while a counted setting is programmed, so 63 entries fill it. -/
theorem not_testAccess : ¬ Obligations.TestAccess := by
  rintro ⟨-, hroute, -⟩
  obtain ⟨t, ht, -, hbus, -⟩ := hroute lastPlaceKept (.session 1) 0 0x100#32 (by decide) (by decide) (by decide) (by decide)
  obtain ⟨t', ht', hbusy⟩ := exec_atestRoute_lastPlaceKept
  cases ht'.symm.trans ht
  rw [hbus] at hbusy
  exact absurd hbusy (by decide)

end Sys2Proof.Machine
end

