-- ==== Sys2Proof/Proofs/PowerCounterexamples.lean ====
section
/-!
PROOFS. Proofs/PowerCounterexamples.lean: the registers that an entry into Bivouac from Ring-only reaches beside the removal from the rings, and the
states in which the statements about requests for a power state, about changes of state and about the wakes of domains fail.
-/
namespace Sys2Proof.Machine

/-! ### An entry into Bivouac from Ring-only -/

theorem domainsComing_zero (s : State) : domainsComing 0 s = true := by simp [domainsComing, bitsOf]

/-- A leg into Bivouac asks for no domain (R75), and so for nothing that could be refused. -/
theorem startDomains_bivouac {s : State} {c : PwrChange} (h : s.pwr.change = some c) (hleg : c.leg = 3) :
    startDomains s = requestMask 0 { s with pwr := { s.pwr with change := some { c with phase := .domains } } } := by
  unfold startDomains
  rw [h]
  simp [hleg, legState, stateMask, domainsComing_zero]

theorem startLeg_bivouac {c : PwrChange} (hleg : c.leg = 3) (s : State) :
    startLeg c s
      = startDomains ((State.wr { s with pwr := { s.pwr with change := some c } } Fld.PWR_STATE_TARGET c.goal).wr Fld.PWR_STATE_BUSY 1) := by
  unfold startLeg
  simp only [hleg]

/-- The registers that the power manager changes as it asks for domains: its own, and those that follow the trips. -/
def powerReg (a : Nat) : Bool := tripReg a || within [(0x10000, 0x10100)] a

section
variable {a : Nat} (ha : powerReg a = false)
include ha

theorem reg_wr_power (f : FRef) (hf : powerReg f.addr = true) (v : Nat) (s : State) : (s.wr f v).reg a = s.reg a :=
  reg_wr_ne s v fun h => by rw [h, ha] at hf; cases hf

theorem settleTrips_reg (pulse : Nat → Nat) (s : State) : (settleTrips pulse s).reg a = s.reg a :=
  (settleTrips_spec pulse s).regs a (by simp only [powerReg, Bool.or_eq_false_iff] at ha; exact ha.1)

theorem setWakeQ_reg (q : List Nat) (s : State) : (s.setWakeQ q).reg a = s.reg a :=
  reg_wr_power ha Fld.INRUSH_STATUS_QUEUED (by decide) _ _

theorem setDrainQ_reg (q : List Nat) (s : State) : (s.setDrainQ q).reg a = s.reg a := by
  cases q with
  | nil => rfl
  | cons d q => exact (settleTrips_reg ha _ _).trans (reg_wr_power ha Fld.DOM_STATUS_ON (by decide) _ _)

theorem requestWake_reg (d : Nat) (s : State) : (requestWake d s).reg a = s.reg a := by
  unfold requestWake
  split
  · exact (setDrainQ_reg ha _ _).trans (reg_wr_power ha Fld.DOM_STATUS_ON (by decide) _ _)
  · split
    · rfl
    · split
      · exact (reg_wr_power ha Fld.PWR_EVENTS_LAST_DOM (by decide) _ _).trans (reg_wr_power ha Fld.PWR_EVENTS_WAKE_REFUSED (by decide) _ _)
      · exact setWakeQ_reg ha _ _

theorem requestDown_reg (d : Nat) (s : State) : (requestDown d s).reg a = s.reg a := by
  unfold requestDown
  split
  · exact setWakeQ_reg ha _ _
  · split
    · exact setDrainQ_reg ha _ _
    · rfl

theorem requestMask_reg (m : Nat) (s : State) : (requestMask m s).reg a = s.reg a := by
  refine (forEach_keeps (State.reg · a) (fun d s => ?_) _ _).trans ?_
  · split
    · exact requestWake_reg ha d s
    · exact requestDown_reg ha d s
  · exact (reg_wr_power ha Fld.DOM_REQ_REQ_CT (by decide) _ _).trans
      ((reg_wr_power ha Fld.DOM_REQ_REQ_SDG (by decide) _ _).trans (reg_wr_power ha Fld.DOM_REQ_REQ_SW (by decide) _ _))

theorem startLeg_bivouac_reg {c : PwrChange} (hleg : c.leg = 3) (s : State) : (startLeg c s).reg a = s.reg a := by
  rw [startLeg_bivouac hleg, startDomains_bivouac (c := c) rfl hleg, requestMask_reg ha]
  exact (reg_wr_power ha Fld.PWR_STATE_BUSY (by decide) _ _).trans (reg_wr_power ha Fld.PWR_STATE_TARGET (by decide) _ _)

end

/-! ### A request for Bivouac on a ring -/

theorem reqWrite_again {s : State} {goal : Nat} (hreq : s.rd Fld.PWR_CTRL_REQ = goal) : reqWrite .fw goal s = requestState goal 1 s := by
  unfold reqWrite
  rw [if_neg (by simp [mayRequestState]), if_pos hreq]

theorem requestState_sleep_begins {s : State} {goal : Nat} (cause : Nat) (h3 : 3 ≤ goal) (h4 : goal ≤ 4) (hchange : s.pwr.change = none)
    (hbusy : s.rdB Fld.PWR_STATE_BUSY = false) : requestState goal cause s = startChange goal cause s := by
  rw [requestState, if_neg (by omega), if_neg (by rw [hchange, hbusy]; decide), if_neg (by omega)]

/-- REQ asks for Bivouac again where it reads so already. -/
theorem exec_reqBivouac_again {s : State} (hreach : Reaches s .fw Reg.PWR_CTRL) (hreq : s.rd Fld.PWR_CTRL_REQ = 3) (hchange : s.pwr.change = none)
    (hbusy : s.rdB Fld.PWR_STATE_BUSY = false) : exec (.reqBivouac .fw) s = .next (startChange 3 1 (admitted s)) := by
  show Host.Outcome.next (writeAdmitted .fw Reg.PWR_CTRL (reqWrite .fw 3) { s with cycle := s.cycle + 1 }) = _
  rw [writeAdmitted_reaches (s := { s with cycle := s.cycle + 1 }) (i := .fw) (a := Reg.PWR_CTRL) hreach (by decide) rfl]
  exact congrArg _ ((reqWrite_again (s := admitted s) hreq).trans (requestState_sleep_begins 1 (by decide) (by decide) hchange hbusy))

theorem startChange_bivouac_reg {s : State} {a : Nat} (ha : powerReg a = false) (cause : Nat) (hst : s.rd Fld.PWR_STATE_STATE = 2) :
    (startChange 3 cause s).reg a = (leaveRings 3 s).reg a := by
  rw [startChange, hst]
  exact startLeg_bivouac_reg ha rfl _

/-- A part in Ring-only, with no change in progress, whose ring A is IN with its east group UP; REQ reads Bivouac from an earlier request, which a
wake source cancelled (R76). -/
def ringOnlyOnRing : State :=
  (((State.reset.wr Fld.PWR_STATE_BUSY 0).wr Fld.PWR_CTRL_REQ 3).wr Fld.RG_RING_STATUS_INS_A 4).wr (Fld.RG_GROUP_STATUS_STATE 0) 3

/-- LEAVE goes into the insertion queue of the group (R553), whose greatest length PQ_CTL_STATUS shows (R590). -/
theorem leaveRings_ringOnlyOnRing : (leaveRings 3 (admitted ringOnlyOnRing)).rd Fld.PQ_CTL_STATUS_INS_MAX = 1 := by decide

theorem exec_reqBivouac_ringOnlyOnRing :
    ∃ t, exec (.reqBivouac .fw) ringOnlyOnRing = .next t ∧ t.rd Fld.PQ_CTL_STATUS_INS_MAX = 1 :=
  ⟨_, exec_reqBivouac_again (by decide) (by decide) rfl (by decide),
    (rd_congr Fld.PQ_CTL_STATUS_INS_MAX (startChange_bivouac_reg (by decide) 1 (by decide))).trans leaveRings_ringOnlyOnRing⟩

/-- Refutes O5: the orderly removal of the node from its rings changes PQ_CTL_STATUS, which lies outside the registers that the statement lets a
request for a sleep state change. -/
theorem not_powerStateRequest : ¬ Obligations.PowerStateRequest := by
  rintro ⟨-, -, -, -, hbegins, -⟩
  obtain ⟨-, -, -, ⟨t, ht, -, -, -, -, -, -, -, -, -, -, -, -, hregs⟩, -⟩ :=
    hbegins ringOnlyOnRing .fw (by decide) rfl (by decide) rfl (by decide) (by decide) (by decide)
  obtain ⟨t', ht', hmax⟩ := exec_reqBivouac_ringOnlyOnRing
  cases ht'.symm.trans ht
  rw [rd_congr Fld.PQ_CTL_STATUS_INS_MAX (hregs Reg.PQ_CTL_STATUS (by decide))] at hmax
  exact absurd hmax (by decide)

/-! ### A change from Ring-only to Idle with an ADC core off -/

/-- A part at the end of a change from Ring-only to Idle, with ADC core 0 powered down. -/
def idleWithCoreOff : State :=
  { State.reset with pwr := { State.reset.pwr with coresOff := 1, change := some ⟨1, 1, 1, 2, 3, .domains, 0, false⟩ } }

set_option maxRecDepth 20000 in
/-- The core powers up as Idle is entered (R74, R234). -/
theorem exec_stateChangeDone_idleWithCoreOff :
    ∃ t, exec .stateChangeDone idleWithCoreOff = .next t ∧ t.pwr.coresOff = 0 := ⟨_, rfl, by decide⟩

/-- Refutes O6: a change that enters Idle from Ring-only powers up the ADC cores that Ring-only had off, so more than PWR_STATE changes. -/
theorem not_stateChangeCompletes : ¬ Obligations.StateChangeCompletes := by
  rintro ⟨hdone, -⟩
  obtain ⟨t, ht, -, -, -, -, -, hidle, -⟩ := hdone idleWithCoreOff _ rfl (by decide) rfl (by decide) rfl rfl (by decide)
  obtain ⟨t', ht', hup⟩ := exec_stateChangeDone_idleWithCoreOff
  cases ht'.symm.trans ht
  obtain ⟨hstate, -⟩ := hidle rfl
  rw [hstate] at hup
  cases hup

/-! ### A failed change and the reserved bits of DOM_REQ -/

/-- A part on its way from Ring-only to Run whose wake of CT_CONV has waited for 1.2 s; bits 31:16 of DOM_REQ, which belong to no field, are set. -/
def overdueWakeReservedBits : State :=
  let s : State :=
    { State.reset with
      pwr := { State.reset.pwr with
        used := 0xFFFF, wakeQ := [14], wakeAge := [(14, 60000)], change := some ⟨0, 0, 1, 2, 3, .domains, 0, false⟩ } }
  (s.wr Fld.SCHED_CFG_TICK_RUN 1).setReg Reg.DOM_REQ 0xFFFF0003#32

set_option maxRecDepth 20000 in
/-- The power manager rewrites the three fields of DOM_REQ (R90). -/
theorem exec_wakeTimeout_overdueWakeReservedBits :
    ∃ t, exec .wakeTimeout overdueWakeReservedBits = .next t ∧ t.reg Reg.DOM_REQ = 0xFFFF0003#32 := ⟨_, rfl, by decide⟩

/-- Refutes O7: it gives the whole word of DOM_REQ after a failed change, without a hypothesis that the bits of the register that belong to no
field are clear. -/
theorem not_domainsWakeAndDrain : ¬ Obligations.DomainsWakeAndDrain := by
  rintro ⟨-, -, -, -, -, hfail, -⟩
  obtain ⟨t, ht, -, -, -, -, -, hreq, -⟩ :=
    hfail overdueWakeReservedBits 14 [] _ rfl (by decide) (by decide) (by decide) (by decide) rfl rfl (by decide) (by decide)
  obtain ⟨t', ht', hkept⟩ := exec_wakeTimeout_overdueWakeReservedBits
  cases ht'.symm.trans ht
  rw [hreq] at hkept
  exact absurd hkept (by decide)

end Sys2Proof.Machine
end

