-- ==== Sys2Proof/Proofs/LanternSleep.lean ====
section
/-!
PROOFS. Proofs/LanternSleep.lean: the passing of RTC counts while the Lantern sleeps, its wake sources, the cancelling of a sleep entry, and the
wake itself, succeeding or failing.
-/
namespace Sys2Proof.Machine

/-! ### Commands of the Lantern, and its log entries -/

/-- A command of a Lantern that is not stopped does its effect. -/
theorem does_runLan {f : State → State} {c : Instr} {s : State} {p : State → Prop} (hc : exec c s = runLan f s) (hs : s.lan.mode ≠ .stopped)
    (hp : p (f { s with cycle := s.cycle + 1 })) : Does c s p :=
  ⟨_, hc.trans (congrArg Host.Outcome.next (if_neg hs)), hp⟩

/-- A command of the Lantern that has no effect only counts as a cycle, whether the Lantern is stopped or not. -/
theorem does_runLan_nothing {f : State → State} {c : Instr} {s : State} {p : State → Prop} (hc : exec c s = runLan f s)
    (hf : f { s with cycle := s.cycle + 1 } = { s with cycle := s.cycle + 1 }) (hp : p { s with cycle := s.cycle + 1 }) : Does c s p :=
  ⟨_, hc.trans (congrArg Host.Outcome.next ((congrArg (ite _ _) hf).trans (ite_self _))), hp⟩

theorem ne_stopped_of_asleep {s : State} (h : asleep s = true) : s.lan.mode ≠ .stopped := by
  intro hm
  simp [asleep, hm] at h

/-- The log that an entry leaves depends on the log, on whether the main domain is on, and on the entry. -/
theorem enqueue_log_congr {s t : State} {e : LogEntry} (hlog : t.log = s.log) (hmain : t.mainOn = s.mainOn) :
    (t.enqueue e).log = (s.enqueue e).log := by
  unfold State.enqueue
  rw [hlog, hmain]
  split
  · exact hlog
  · split <;> split <;> simp [hlog]

/-- An entry of the Lantern joins its queue, which holds 8 (R145). -/
theorem logEv_lanQ (s : State) (code datum : Nat) :
    (s.logEv 0 code datum).log.lanQ = if s.log.lanQ.length < 8 then s.log.lanQ ++ [s.logEntry 0 code datum none] else s.log.lanQ := by
  have hdie : dieOf (s.logEntry 0 code datum none).source = 0 := rfl
  unfold State.logEv State.enqueue
  rw [hdie, if_neg (by simp)]
  change (if s.log.lanQ.length < 8 then { s with log := { s.log with lanQ := _ } } else s.inc Fld.LOG_STATUS_DROPPED).log.lanQ = _
  split <;> rfl

/-! ### The passing of RTC counts -/

/-- A wake source changes the sources and the failure that awaits its retry. -/
theorem wakeSet_rest (b : Nat) (on : Bool) (s : State) :
    wakeSet b on s =
      { s with lan := { s.lan with wakeActive := (wakeSet b on s).lan.wakeActive, wakeFailed := (wakeSet b on s).lan.wakeFailed } } := rfl

/-- A source is active or not as it is set, and the others are as they were. -/
theorem wakeSet_testBit (b : Nat) (on : Bool) (s : State) (j : Nat) :
    (wakeSet b on s).lan.wakeActive.testBit j = if j = b then on else s.lan.wakeActive.testBit j := setBitOf_testBit _ _ _ _

/-- A timed wake changes what is left of it and the sources. -/
theorem wakeTimer_rest (n : Int) (s : State) :
    wakeTimer n s = { s with lan := { s.lan with
      wakeLeft := (wakeTimer n s).lan.wakeLeft, wakeActive := (wakeTimer n s).lan.wakeActive, wakeFailed := (wakeTimer n s).lan.wakeFailed } } := by
  unfold wakeTimer
  split
  · dsimp only
    split <;> rfl
  · rfl

theorem wakeTimer_testBit (n : Int) (s : State) {j : Nat} (hj : j ≠ 1) :
    (wakeTimer n s).lan.wakeActive.testBit j = s.lan.wakeActive.testBit j := by
  unfold wakeTimer
  split
  · dsimp only
    split
    · rw [wakeSet_testBit, if_neg hj]
    · rfl
  · rfl

/-- At zero a timed wake is an active source (R134, R152). -/
theorem wakeTimer_counts (n k : Nat) (s : State) (h : s.lan.wakeLeft = some k) :
    (wakeTimer n s).lan.wakeLeft = some (k - n) ∧ (n < k ∨ (wakeTimer n s).lan.wakeActive.testBit 1 = true) := by
  have hleft : ((k : Int) - n).toNat = k - n := by omega
  unfold wakeTimer
  rw [h]
  dsimp only
  split
  · exact ⟨congrArg some hleft, .inr (by rw [wakeSet_testBit, if_pos rfl])⟩
  · exact ⟨congrArg some hleft, .inl (by omega)⟩

theorem sleepPass_mainOn {s : State} (n : Nat) (h : s.lan.mode = .mainOn) : sleepPass n s = s := by
  unfold sleepPass
  rw [if_pos (by simp [State.mainOn, h])]

/-- The state that a timed wake counts in, once the RTC and the time since WAKE_OUT fell have counted on. -/
def rtcPassed (n : Nat) (s : State) : State := rtcCount n { s with lan := { s.lan with lowFor := s.lan.lowFor + n } }

theorem sleepPass_off {s : State} (n : Nat) (h1 : s.lan.mode ≠ .mainOn) (h2 : s.lan.mode ≠ .stopped) :
    sleepPass n s = wakeTimer n (rtcPassed n s) := by
  unfold sleepPass
  rw [if_neg (by simp [State.mainOn, h1, h2])]
  rfl

/-- The passing of time changes the Lantern alone, and depends on it alone. -/
theorem sleepPass_congr (n : Nat) {s t : State} (h : t.lan = s.lan) : sleepPass n t = { t with lan := (sleepPass n s).lan } := by
  have ht : t = { t with lan := s.lan } := by rw [← h]
  rw [ht]
  unfold sleepPass wakeTimer rtcCount State.mainOn
  dsimp only
  split
  · rfl
  · split
    · split <;> rfl
    · rfl

theorem sleepPass_rest (n : Nat) (s : State) : sleepPass n s = { s with lan := (sleepPass n s).lan } := sleepPass_congr n rfl

theorem sleepPass_with_cycle (n c : Nat) (s : State) : sleepPass n { s with cycle := c } = { sleepPass n s with cycle := c } :=
  (sleepPass_congr n (s := s) (t := { s with cycle := c }) rfl).trans (congrArg (fun u : State => { u with cycle := c }) (sleepPass_rest n s).symm)

@[simp] theorem sleepPass_reg (n : Nat) (s : State) (a : Nat) : (sleepPass n s).reg a = s.reg a := by rw [sleepPass_rest]; rfl

@[simp] theorem sleepPass_log (n : Nat) (s : State) : (sleepPass n s).log = s.log := by rw [sleepPass_rest]

@[simp] theorem sleepPass_pwr (n : Nat) (s : State) : (sleepPass n s).pwr = s.pwr := by rw [sleepPass_rest]

section
variable {s : State} (n : Nat) (h1 : s.lan.mode ≠ .mainOn) (h2 : s.lan.mode ≠ .stopped)
include h1 h2

/-- What the passing of time changes of a Lantern without the main domain. -/
theorem sleepPass_lan : (sleepPass n s).lan = { (rtcPassed n s).lan with
    wakeLeft := (sleepPass n s).lan.wakeLeft, wakeActive := (sleepPass n s).lan.wakeActive, wakeFailed := (sleepPass n s).lan.wakeFailed } := by
  rw [sleepPass_off n h1 h2, wakeTimer_rest]

theorem sleepPass_mode : (sleepPass n s).lan.mode = s.lan.mode := by rw [sleepPass_lan n h1 h2]; rfl

theorem sleepPass_rtc : (sleepPass n s).lan.rtc = (s.lan.rtc + n) % 2 ^ 48 := by rw [sleepPass_lan n h1 h2]; rfl

theorem sleepPass_lowFor : (sleepPass n s).lan.lowFor = s.lan.lowFor + n := by rw [sleepPass_lan n h1 h2]; rfl

theorem sleepPass_coldSince : (sleepPass n s).lan.coldSince = s.lan.coldSince := by rw [sleepPass_lan n h1 h2]; rfl

theorem sleepPass_testBit {j : Nat} (hj : j ≠ 1) : (sleepPass n s).lan.wakeActive.testBit j = s.lan.wakeActive.testBit j := by
  rw [sleepPass_off n h1 h2, wakeTimer_testBit n _ hj]
  rfl

theorem sleepPass_wakeLeft :
    s.lan.wakeLeft.all (fun k =>
      (sleepPass n s).lan.wakeLeft == some (k - n) && (decide (n < k) || (sleepPass n s).lan.wakeActive.testBit 1)) = true := by
  rw [sleepPass_off n h1 h2]
  cases hk : s.lan.wakeLeft with
  | none => rfl
  | some k =>
    obtain ⟨hleft, hrun⟩ := wakeTimer_counts n k (rtcPassed n s) hk
    rw [Option.all_some, hleft]
    simpa using hrun

end

/-! ### Wake sources -/

theorem cancelSleep_none {s : State} (h : s.pwr.change = none) : cancelSleep s = s := by
  unfold cancelSleep
  rw [h]

/-- With no change of state in progress a wake source is only kept (R134). -/
theorem wakeSource_idle (b : Nat) (on : Bool) {s : State} (h : s.pwr.change = none) : wakeSource b on s = wakeSet b on s := by
  unfold wakeSource
  split
  · exact cancelSleep_none h
  · rfl

/-- A sleep entry on its way to Ring-only that has switched no rail off ends there instead (R76). -/
theorem cancelSleep_leg {s : State} {c : PwrChange} (h : s.pwr.change = some c) (hgoal : 3 ≤ c.goal) (hrail : c.railOff = false)
    (hfrom : c.fromState ≠ 3) (hleg : c.leg ≤ 2) :
    cancelSleep s =
      State.wr { s.logEv 0x02 0x0005 0 with pwr := { s.pwr with seqUp := none, change := some { c with goal := 2 } } } Fld.PWR_STATE_TARGET 2 := by
  unfold cancelSleep
  rw [h]
  dsimp only
  rw [if_pos ⟨hgoal, hrail⟩, if_neg hfrom, if_pos hleg]

theorem wakeSource_cancels (b : Nat) {s : State} (h : s.lan.wakeActive.testBit b = false) :
    wakeSource b true s = cancelSleep (wakeSet b true s) := by
  unfold wakeSource
  rw [if_pos (by rw [h]; rfl)]

/-! ### The wake itself -/

/-- The main domain is being woken (R134): WAKE_OUT is high, and the sources are in WAKE_CAUSE and in the entry WAKE. -/
structure Woken (s t : State) : Prop where
  cause : t.rd Fld.LAN_STATUS_WAKE_CAUSE = wakeMask s + (if s.lan.coldSince then 64 else 0)
  entry : t.log.lanQ.map (fun e => (e.source, e.code, e.datum)) =
    (if s.log.lanQ.length < 8 then
      s.log.lanQ.map (fun e => (e.source, e.code, e.datum)) ++ [(0x00, 0x000B, BitVec.ofNat 32 (wakeMask s + (if s.lan.coldSince then 64 else 0)))]
     else s.log.lanQ.map (fun e => (e.source, e.code, e.datum)))
  rest : t = { s with regs := t.regs, log := t.log, lan := { s.lan with mode := .waking, wakeOut := true, wakeFailed := false, cellDorm := false } }
  regs : RegsKept [Reg.LAN_STATUS, Reg.LOG_STATUS] s t

theorem wakeNow_wakes {s : State} (h : wakeMask s < 64) : Woken s (wakeNow s) := by
  unfold wakeNow
  extract_lets c s1
  have hc : c < 2 ^ Fld.LAN_STATUS_WAKE_CAUSE.width := by
    show wakeMask s + (if s.lan.coldSince then 64 else 0) < 128
    split <;> omega
  refine ⟨?_, ?_, ?_, fun a ha => ?_⟩
  · rw [rd_logEv _ _ _ _ _ (by decide), rd_wr_same _ _ _ (by decide), Nat.mod_eq_of_lt hc]
  · rw [logEv_lanQ]
    show List.map _ (if s.log.lanQ.length < 8 then s.log.lanQ ++ [_] else s.log.lanQ) = _
    split <;> simp [State.logEntry, c]
  · rw [logEv_spec]
    rfl
  · simp only [List.mem_cons, List.not_mem_nil, or_false, not_or] at ha
    rw [reg_logEv _ _ _ _ ha.2, reg_wr_ne _ _ (Ne.symm ha.1)]
    rfl

end Sys2Proof.Machine
end

