-- ==== Sys2Proof/Proofs/LmonCycle.lean ====
section
/-!
PROOFS. Proofs/LmonCycle.lean: one channel of a cycle of Bivouac, as the cycle leaves it and as the other channels find it (R137, R138).
-/
namespace Sys2Proof.Machine

/-! ### A channel and its fields -/

/-- LMON_n is converted in Bivouac: its ACT is not 0. -/
def lmonUsed (s : State) (n : Nat) : Bool := decide (s.rd (Fld.LMON_CFG_ACT n) ≠ 0)

/-- A sample of LMON_n lies outside [LO, HI], or inside it with MODE = 1. -/
def lmonHit (s : State) (n v : Nat) : Bool :=
  (decide (s.rd (Fld.LMON_CFG_LO n) ≤ v ∧ v ≤ s.rd (Fld.LMON_CFG_HI n))) == s.rdB (Fld.LMON_CFG_MODE n)

/-- The matching cycles in a row, with one more. -/
def lmonNext (s : State) (n : Nat) : Nat := Nat.min 15 (Tab.get 0 s.lan.lmonRun n + 1)

/-- LMON_n enters match with a sample. -/
def lmonEnters (s : State) (n v : Nat) : Bool :=
  lmonUsed s n && lmonHit s n v && !s.lan.lmonIn.testBit n && decide (Nat.max 1 (s.rd (Fld.LMON_CFG_COUNT n)) ≤ lmonNext s n)

theorem lmonMatches_eq_hit (s : State) (n v : Nat) : lmonMatches s n v = lmonHit s n v := by
  unfold lmonMatches lmonHit
  cases s.rdB (Fld.LMON_CFG_MODE n) <;> simp

theorem lmonField_ok (n : Nat) : (lmonField n).ok ∧ (lmonField n).width = 12 := by
  unfold lmonField
  split
  · decide
  · split
    · decide
    · split <;> decide

theorem lmonField_addr (n : Nat) : (lmonField n).addr = Reg.LMON_DATA_01 ∨ (lmonField n).addr = Reg.LMON_DATA_23 := by
  unfold lmonField
  split
  · exact .inl rfl
  · split
    · exact .inl rfl
    · split <;> exact .inr rfl

/-- The samples of two channels lie in two fields. -/
theorem rd_lmonField_ne (s : State) {n m : Nat} (hn : n < 4) (hm : m < 4) (h : m ≠ n) (v : Nat) :
    (s.wr (lmonField n) v).rd (lmonField m) = s.rd (lmonField m) := by
  have hapart : ∀ n < 4, ∀ m < 4, m ≠ n → (lmonField n).addr ≠ (lmonField m).addr ∨ (lmonField m).hi < (lmonField n).lo ∨
      (lmonField n).hi < (lmonField m).lo := by decide
  rcases hapart n hn m hm h with ha | hb
  · exact rd_wr_ne _ _ _ _ ha
  · exact rd_wr_disjoint _ _ _ _ (lmonField_ok n).1 (lmonField_ok m).1 hb

/-! ### What a cycle reaches -/

/-- The registers that a cycle of Bivouac changes. -/
def lmonRegs : List Nat := [Reg.LMON_DATA_01, Reg.LMON_DATA_23, Reg.SUPPLY_DATA, Reg.LAN_EVENTS, Reg.LOG_STATUS]

/-- Beside its registers and the log, what a channel changes: the runs, the matches and the wake sources. -/
structure LmonFrame (s t : State) : Prop where
  rest : t = { s with regs := t.regs, log := t.log, lan := { s.lan with
    lmonRun := t.lan.lmonRun, lmonIn := t.lan.lmonIn, wakeActive := t.lan.wakeActive, wakeFailed := t.lan.wakeFailed } }
  regs : RegsKept lmonRegs s t

/-- What channel `m` shows and holds is as it was. -/
structure ChannelKept (m : Nat) (s t : State) : Prop where
  data : t.rd (lmonField m) = s.rd (lmonField m)
  run : Tab.get 0 t.lan.lmonRun m = Tab.get 0 s.lan.lmonRun m
  inMatch : t.lan.lmonIn.testBit m = s.lan.lmonIn.testBit m
  shown : t.bit Fld.LAN_EVENTS_LMON_MATCH m = s.bit Fld.LAN_EVENTS_LMON_MATCH m
  source : t.lan.wakeActive.testBit (2 + m) = s.lan.wakeActive.testBit (2 + m)
  settings : t.reg (Reg.LMON_CFG m) = s.reg (Reg.LMON_CFG m)

/-- A cycle has judged the sample `v` of channel `n` (R138). -/
structure ChannelDone (n v : Nat) (s t : State) : Prop where
  data : t.rd (lmonField n) = if lmonUsed s n then v else s.rd (lmonField n)
  run : Tab.get 0 t.lan.lmonRun n =
    if lmonUsed s n then (if lmonHit s n v then lmonNext s n else 0) else Tab.get 0 s.lan.lmonRun n
  inMatch : t.lan.lmonIn.testBit n =
    if lmonUsed s n then lmonHit s n v && (s.lan.lmonIn.testBit n || lmonEnters s n v) else s.lan.lmonIn.testBit n
  shown : t.bit Fld.LAN_EVENTS_LMON_MATCH n = (s.bit Fld.LAN_EVENTS_LMON_MATCH n || lmonEnters s n v)
  source : t.lan.wakeActive.testBit (2 + n) =
    if lmonUsed s n && !lmonHit s n v then false
    else s.lan.wakeActive.testBit (2 + n) || (lmonEnters s n v && decide (s.rd (Fld.LMON_CFG_ACT n) = 2))
  settings : t.reg (Reg.LMON_CFG n) = s.reg (Reg.LMON_CFG n)

theorem LmonFrame.trans {r s t : State} (h : LmonFrame r s) (k : LmonFrame s t) : LmonFrame r t := by
  refine ⟨?_, fun a ha => (k.regs a ha).trans (h.regs a ha)⟩
  have hr := h.rest
  have kr := k.rest
  rw [hr] at kr
  exact kr

theorem ChannelKept.trans {m : Nat} {r s t : State} (h : ChannelKept m r s) (k : ChannelKept m s t) : ChannelKept m r t :=
  ⟨k.data.trans h.data, k.run.trans h.run, k.inMatch.trans h.inMatch, k.shown.trans h.shown, k.source.trans h.source,
    k.settings.trans h.settings⟩

/-- A channel that is kept before the cycle judges it is judged as it was. -/
theorem ChannelKept.done {n v : Nat} {r s t : State} (h : ChannelKept n r s) (k : ChannelDone n v s t) : ChannelDone n v r t := by
  have hused : lmonUsed s n = lmonUsed r n := by unfold lmonUsed; rw [rd_congr _ h.settings]
  have hhit : lmonHit s n v = lmonHit r n v := by
    simp only [lmonHit, rdB_eq, rd_congr (Fld.LMON_CFG_LO n) h.settings, rd_congr (Fld.LMON_CFG_HI n) h.settings,
      rd_congr (Fld.LMON_CFG_MODE n) h.settings]
  have hnext : lmonNext s n = lmonNext r n := by rw [lmonNext, h.run, lmonNext]
  have henters : lmonEnters s n v = lmonEnters r n v := by
    rw [lmonEnters, hused, hhit, h.inMatch, hnext, rd_congr (Fld.LMON_CFG_COUNT n) h.settings, lmonEnters]
  obtain ⟨data, run, inMatch, shown, source, settings⟩ := k
  rw [hused, h.data] at data
  rw [hused, hhit, hnext, h.run] at run
  rw [hused, hhit, henters, h.inMatch] at inMatch
  rw [henters, h.shown] at shown
  rw [hused, hhit, henters, h.source, rd_congr (Fld.LMON_CFG_ACT n) h.settings] at source
  exact ⟨data, run, inMatch, shown, source, settings.trans h.settings⟩

/-- A channel that is kept after the cycle has judged it stays judged. -/
theorem ChannelDone.kept {n v : Nat} {r s t : State} (h : ChannelDone n v r s) (k : ChannelKept n s t) : ChannelDone n v r t :=
  ⟨k.data.trans h.data, k.run.trans h.run, k.inMatch.trans h.inMatch, k.shown.trans h.shown, k.source.trans h.source,
    k.settings.trans h.settings⟩

/-! ### The parts of a channel's step -/

/-- A step of channel `n` leaves what belongs to no channel, and every other channel. -/
structure ChannelStep (n : Nat) (s t : State) : Prop where
  frame : LmonFrame s t
  others : ∀ m, m < 4 → m ≠ n → ChannelKept m s t

theorem ChannelStep.refl (n : Nat) (s : State) : ChannelStep n s s :=
  ⟨⟨rfl, fun _ _ => rfl⟩, fun _ _ _ => ⟨rfl, rfl, rfl, rfl, rfl, rfl⟩⟩

theorem ChannelStep.trans {n : Nat} {r s t : State} (h : ChannelStep n r s) (k : ChannelStep n s t) : ChannelStep n r t :=
  ⟨h.frame.trans k.frame, fun m hm hne => (h.others m hm hne).trans (k.others m hm hne)⟩

theorem lmonField_ne_cfg (n : Nat) {m : Nat} (hm : m < 4) : (lmonField n).addr ≠ Reg.LMON_CFG m := by
  rcases lmonField_addr n with h | h <;> rw [h] <;> simp only [Reg.LMON_DATA_01, Reg.LMON_DATA_23, Reg.LMON_CFG] <;> omega

theorem lmonField_ne_events (n : Nat) : (lmonField n).addr ≠ Reg.LAN_EVENTS := by
  rcases lmonField_addr n with h | h <;> rw [h] <;> decide

theorem cfg_ne_events (m : Nat) : Reg.LAN_EVENTS ≠ Reg.LMON_CFG m := by
  simp only [Reg.LAN_EVENTS, Reg.LMON_CFG]
  omega

theorem lmonField_ne_log (n : Nat) : (lmonField n).addr ≠ Reg.LOG_STATUS := by
  rcases lmonField_addr n with h | h <;> rw [h] <;> decide

theorem cfg_ne_log {m : Nat} (hm : m < 4) : Reg.LMON_CFG m ≠ Reg.LOG_STATUS := by
  unfold Reg.LMON_CFG Reg.LOG_STATUS
  omega

/-- The sample of a channel changes its field of LMON_DATA alone. -/
theorem ChannelStep.sample {n : Nat} (hn : n < 4) (v : Nat) (s : State) : ChannelStep n s (s.wr (lmonField n) v) := by
  refine ⟨⟨rfl, fun a ha => reg_wr_ne _ _ ?_⟩, fun m hm hne => ⟨rd_lmonField_ne _ hn hm hne _, rfl, rfl, bit_wr_ne _ _ _ _ _ (lmonField_ne_events n), rfl,
    reg_wr_ne _ _ (lmonField_ne_cfg n hm)⟩⟩
  rintro rfl
  rcases lmonField_addr n with h | h <;> simp [h, lmonRegs] at ha

theorem ChannelStep.run (n r : Nat) (s : State) :
    ChannelStep n s { s with lan := { s.lan with lmonRun := Tab.set 0 s.lan.lmonRun n r } } :=
  ⟨⟨rfl, fun _ _ => rfl⟩, fun _ _ hne => ⟨rfl, Tab.get_set_ne _ _ _ _ (Ne.symm hne), rfl, rfl, rfl, rfl⟩⟩

theorem ChannelStep.inMatch (n : Nat) (b : Bool) (s : State) :
    ChannelStep n s { s with lan := { s.lan with lmonIn := setBitOf s.lan.lmonIn n b } } :=
  ⟨⟨rfl, fun _ _ => rfl⟩, fun _ _ hne => ⟨rfl, rfl, (setBitOf_testBit _ _ _ _).trans (if_neg hne), rfl, rfl, rfl⟩⟩

theorem ChannelStep.source (n : Nat) (b : Bool) (s : State) : ChannelStep n s (wakeSet (2 + n) b s) :=
  ⟨⟨rfl, fun _ _ => rfl⟩, fun _ _ hne => ⟨rfl, rfl, rfl, rfl, (wakeSet_testBit _ _ _ _).trans (if_neg (by omega)), rfl⟩⟩

theorem ChannelStep.shown (n : Nat) (s : State) : ChannelStep n s (s.wrBit Fld.LAN_EVENTS_LMON_MATCH n true) := by
  refine ⟨⟨rfl, fun a ha => reg_wr_ne _ _ ?_⟩, fun m hm hne => ⟨rd_wr_ne _ _ _ _ (Ne.symm (lmonField_ne_events m)), rfl, rfl, ?_, rfl,
    reg_wr_ne _ _ (cfg_ne_events m)⟩⟩
  · rintro rfl
    simp [lmonRegs] at ha
  · rw [bit_wrBit_same _ _ (by decide) _ _ _ hm, if_neg hne]

theorem ChannelStep.log (n code datum : Nat) (s : State) : ChannelStep n s (s.logEv 0 code datum) := by
  have hlog (a : Nat) (ha : a ≠ Reg.LOG_STATUS) : (s.logEv 0 code datum).reg a = s.reg a := reg_logEv _ _ _ _ ha
  refine ⟨⟨?_, fun a ha => hlog a ?_⟩, fun m hm _ => ⟨rd_congr _ (hlog _ ?_), ?_, ?_, bit_congr _ _ (hlog _ (by decide)), ?_, hlog _ ?_⟩⟩
  · rw [logEv_spec]
  · rintro rfl
    simp [lmonRegs] at ha
  · exact lmonField_ne_log m
  · rw [logEv_lan]
  · rw [logEv_lan]
  · rw [logEv_lan]
  · exact cfg_ne_log hm

/-! ### One channel of a cycle -/

/-- A matching sample of a channel that does not enter match with it. -/
def lmonCounted (n v : Nat) (s : State) : State :=
  { s.wr (lmonField n) v with lan := { s.lan with lmonRun := Tab.set 0 s.lan.lmonRun n (lmonNext s n) } }

/-- The channel is in match. -/
def lmonMatched (n v : Nat) (s : State) : State :=
  let t := lmonCounted n v s
  { t with lan := { t.lan with lmonIn := setBitOf t.lan.lmonIn n true } }

/-- With ACT = 2 it is a wake source. -/
def lmonSourced (n v : Nat) (s : State) : State :=
  if (lmonMatched n v s).rd (Fld.LMON_CFG_ACT n) = 2 then wakeSet (2 + n) true (lmonMatched n v s) else lmonMatched n v s

/-- A channel that enters match shows and logs it. -/
def lmonEntered (n v : Nat) (s : State) : State :=
  ((lmonSourced n v s).wrBit Fld.LAN_EVENTS_LMON_MATCH n true).logEv 0x00 0x000D (n * 2 ^ 24 + v % 4096)

/-- A sample that does not match ends the run, the match and the wake source. -/
def lmonMissed (n v : Nat) (s : State) : State :=
  wakeSet (2 + n) false { s.wr (lmonField n) v with
    lan := { s.lan with lmonRun := Tab.set 0 s.lan.lmonRun n 0, lmonIn := setBitOf s.lan.lmonIn n false } }

section
variable {s : State} {n v : Nat} (hn : n < 4)

theorem lmonCycle_unused (h : lmonUsed s n = false) : lmonCycle n v s = s := if_pos (by simpa [lmonUsed] using h)

include hn

theorem lmonCounted_cfg : (lmonCounted n v s).reg (Reg.LMON_CFG n) = s.reg (Reg.LMON_CFG n) :=
  reg_wr_ne s v (lmonField_ne_cfg n hn)

theorem lmonHit_sampled : lmonHit (s.wr (lmonField n) v) n v = lmonHit s n v := by
  have hcfg : (s.wr (lmonField n) v).reg (Reg.LMON_CFG n) = s.reg (Reg.LMON_CFG n) := lmonCounted_cfg (s := s) (v := v) hn
  simp only [lmonHit, rdB_eq, rd_congr (Fld.LMON_CFG_LO n) hcfg, rd_congr (Fld.LMON_CFG_HI n) hcfg, rd_congr (Fld.LMON_CFG_MODE n) hcfg]

/-- The three ways in which a converted sample is judged (R138). -/
theorem lmonCycle_used (hu : lmonUsed s n = true) :
    lmonCycle n v s = if lmonHit s n v then (if lmonEnters s n v then lmonEntered n v s else lmonCounted n v s) else lmonMissed n v s := by
  have hact : ¬ s.rd (Fld.LMON_CFG_ACT n) = 0 := by simpa [lmonUsed] using hu
  unfold lmonCycle
  rw [if_neg hact]
  change (if lmonMatches (s.wr (lmonField n) v) n v = true then
    (if (s.lan.lmonIn.testBit n || decide (lmonNext s n < Nat.max 1 ((lmonCounted n v s).rd (Fld.LMON_CFG_COUNT n)))) = true
      then lmonCounted n v s else lmonEntered n v s) else lmonMissed n v s) = _
  rw [lmonMatches_eq_hit, lmonHit_sampled hn, rd_congr (Fld.LMON_CFG_COUNT n) (lmonCounted_cfg hn)]
  split
  · next hh =>
    have henters : lmonEnters s n v =
        !(s.lan.lmonIn.testBit n || decide (lmonNext s n < Nat.max 1 (s.rd (Fld.LMON_CFG_COUNT n)))) := by
      simp only [lmonEnters, hu, hh, Bool.true_and, Bool.not_or, ← decide_not, not_lt]
    rw [henters]
    cases s.lan.lmonIn.testBit n || decide (lmonNext s n < Nat.max 1 (s.rd (Fld.LMON_CFG_COUNT n))) <;> rfl
  · rfl

theorem lmonCounted_step : ChannelStep n s (lmonCounted n v s) := (ChannelStep.sample hn v s).trans (ChannelStep.run n _ _)

theorem lmonMatched_step : ChannelStep n s (lmonMatched n v s) := (lmonCounted_step hn).trans (.inMatch n true _)

theorem lmonSourced_step : ChannelStep n s (lmonSourced n v s) := by
  refine (lmonMatched_step (v := v) hn).trans ?_
  unfold lmonSourced
  split
  · exact .source n true _
  · exact .refl n _

theorem lmonEntered_step : ChannelStep n s (lmonEntered n v s) :=
  (lmonSourced_step hn).trans ((ChannelStep.shown n _).trans (.log n _ _ _))

theorem lmonMissed_step : ChannelStep n s (lmonMissed n v s) :=
  (((ChannelStep.sample hn v s).trans (ChannelStep.run n 0 _)).trans (ChannelStep.inMatch n false _)).trans (ChannelStep.source n false _)

theorem lmonCycle_step : ChannelStep n s (lmonCycle n v s) := by
  cases hu : lmonUsed s n with
  | false =>
    rw [lmonCycle_unused hu]
    exact ChannelStep.refl n s
  | true =>
    rw [lmonCycle_used hn hu]
    split
    · split
      · exact lmonEntered_step hn
      · exact lmonCounted_step hn
    · exact lmonMissed_step hn

/-! ### A channel that has been judged -/

omit hn in
theorem rd_lmonField_same (s : State) (n : Nat) (hv : v < 4096) : (s.wr (lmonField n) v).rd (lmonField n) = v := by
  rw [rd_wr_same _ _ _ (lmonField_ok n).1, (lmonField_ok n).2]
  exact Nat.mod_eq_of_lt hv

omit hn in
/-- A sample and what it shows of the channel are all that a channel entering match writes. -/
theorem reg_lmonEntered {a : Nat} (h1 : a ≠ Reg.LAN_EVENTS) (h2 : a ≠ Reg.LOG_STATUS) :
    (lmonEntered n v s).reg a = (s.wr (lmonField n) v).reg a := by
  have hsourced : (lmonSourced n v s).reg a = (lmonMatched n v s).reg a := by
    unfold lmonSourced
    split <;> rfl
  rw [lmonEntered, reg_logEv _ _ _ _ h2, State.wrBit, reg_wr_ne _ _ (Ne.symm h1), hsourced]
  rfl

omit hn in
theorem lan_lmonEntered : (lmonEntered n v s).lan = (lmonSourced n v s).lan := logEv_lan _ _ _ _

omit hn in
/-- Being a wake source is all that a channel in match adds to it. -/
theorem lmonSourced_rest : (lmonSourced n v s).lan = { (lmonMatched n v s).lan with
    wakeActive := (lmonSourced n v s).lan.wakeActive, wakeFailed := (lmonSourced n v s).lan.wakeFailed } := by
  unfold lmonSourced
  split <;> rfl

omit hn in
theorem lmonMatched_wakeActive : (lmonMatched n v s).lan.wakeActive = s.lan.wakeActive := rfl

theorem lmonSourced_source :
    (lmonSourced n v s).lan.wakeActive.testBit (2 + n) =
      (s.lan.wakeActive.testBit (2 + n) || decide (s.rd (Fld.LMON_CFG_ACT n) = 2)) := by
  have hcfg : (lmonMatched n v s).reg (Reg.LMON_CFG n) = s.reg (Reg.LMON_CFG n) := lmonCounted_cfg (s := s) (v := v) hn
  have hact : (lmonMatched n v s).rd (Fld.LMON_CFG_ACT n) = s.rd (Fld.LMON_CFG_ACT n) := rd_congr _ hcfg
  by_cases h : s.rd (Fld.LMON_CFG_ACT n) = 2
  · rw [lmonSourced, if_pos (hact.trans h), wakeSet_testBit, if_pos rfl, decide_eq_true h, Bool.or_true]
  · rw [lmonSourced, if_neg (hact.trans_ne h), decide_eq_false h, Bool.or_false, lmonMatched_wakeActive]

omit hn in
theorem lmonSourced_shown :
    (lmonSourced n v s).bit Fld.LAN_EVENTS_LMON_MATCH n = s.bit Fld.LAN_EVENTS_LMON_MATCH n := by
  have hreg : (lmonSourced n v s).reg Reg.LAN_EVENTS = s.reg Reg.LAN_EVENTS := by
    have hmatched : (lmonSourced n v s).reg Reg.LAN_EVENTS = (s.wr (lmonField n) v).reg Reg.LAN_EVENTS := by
      unfold lmonSourced
      split <;> rfl
    exact hmatched.trans (reg_wr_ne s v (lmonField_ne_events n))
  exact bit_congr _ _ hreg

/-! ### A channel that has been judged -/

theorem lmonMissed_done (hv : v < 4096) (hu : lmonUsed s n = true) (hh : lmonHit s n v = false) :
    ChannelDone n v s (lmonMissed n v s) where
  data := by rw [if_pos hu]; exact rd_lmonField_same s n hv
  run := by simp [hu, hh, lmonMissed, wakeSet, Tab.get_set_same]
  inMatch := by simp [hu, hh, lmonMissed, wakeSet, setBitOf_testBit]
  shown := by
    rw [show lmonEnters s n v = false by simp [lmonEnters, hh], Bool.or_false]
    exact bit_wr_ne s _ _ v n (lmonField_ne_events n)
  source := by simp [hu, hh, lmonMissed, wakeSet_testBit]
  settings := reg_wr_ne s v (lmonField_ne_cfg n hn)

theorem lmonCounted_done (hv : v < 4096) (hu : lmonUsed s n = true) (hh : lmonHit s n v = true) (he : lmonEnters s n v = false) :
    ChannelDone n v s (lmonCounted n v s) where
  data := by rw [if_pos hu]; exact rd_lmonField_same s n hv
  run := by simp [hu, hh, lmonCounted, Tab.get_set_same]
  inMatch := by simp [hu, hh, he, lmonCounted]
  shown := by
    rw [he, Bool.or_false]
    exact bit_wr_ne s _ _ v n (lmonField_ne_events n)
  source := by simp [hh, he, lmonCounted]
  settings := lmonCounted_cfg hn

theorem lmonEntered_done (hv : v < 4096) (hu : lmonUsed s n = true) (hh : lmonHit s n v = true) (he : lmonEnters s n v = true) :
    ChannelDone n v s (lmonEntered n v s) where
  data := by
    rw [if_pos hu, rd_congr (lmonField n) (reg_lmonEntered (lmonField_ne_events n) (lmonField_ne_log n))]
    exact rd_lmonField_same s n hv
  run := by
    rw [lan_lmonEntered, lmonSourced_rest]
    simp [hu, hh, lmonMatched, lmonCounted, Tab.get_set_same]
  inMatch := by
    rw [lan_lmonEntered, lmonSourced_rest]
    simp [hu, hh, he, lmonMatched, setBitOf_testBit]
  shown := by
    rw [lmonEntered, bit_congr _ _ (reg_logEv _ _ _ _ (by decide)), bit_wrBit_same _ _ (by decide) _ _ _ hn, if_pos rfl, he, Bool.or_true]
  source := by
    rw [lan_lmonEntered, lmonSourced_source hn]
    simp [hh, he]
  settings := (reg_lmonEntered (Ne.symm (cfg_ne_events n)) (cfg_ne_log hn)).trans (lmonCounted_cfg hn)

/-- A cycle of Bivouac judges a channel as R138 says. -/
theorem lmonCycle_done (hv : v < 4096) : ChannelDone n v s (lmonCycle n v s) := by
  cases hu : lmonUsed s n with
  | false =>
    rw [lmonCycle_unused hu]
    constructor <;> simp [hu, lmonEnters]
  | true =>
    rw [lmonCycle_used hn hu]
    cases hh : lmonHit s n v with
    | false => exact lmonMissed_done hn hv hu hh
    | true =>
      cases he : lmonEnters s n v with
      | false => exact lmonCounted_done hn hv hu hh he
      | true => exact lmonEntered_done hn hv hu hh he

end

end Sys2Proof.Machine
end

