-- ==== Sys2Proof/Proofs/BivouacCycle.lean ====
section
/-!
PROOFS. Proofs/BivouacCycle.lean: a whole cycle of Bivouac: the four channels one after the other, VCELL, and the cell-low condition (R137 to R139).
-/
namespace Sys2Proof.Machine

/-! ### The four channels -/

/-- The four channels of a cycle, in their order. -/
def lmonRound (v : Nat → Nat) (s : State) : State := lmonCycle 3 (v 3) (lmonCycle 2 (v 2) (lmonCycle 1 (v 1) (lmonCycle 0 (v 0) s)))

theorem lmonRound_frame (v : Nat → Nat) (s : State) : LmonFrame s (lmonRound v s) := by
  have hstep (n : Nat) (hn : n < 4) (t : State) : LmonFrame t (lmonCycle n (v n) t) := (lmonCycle_step hn).frame
  exact (((hstep 0 (by decide) _).trans (hstep 1 (by decide) _)).trans (hstep 2 (by decide) _)).trans (hstep 3 (by decide) _)

/-- Each channel is judged once, and kept before and after. -/
theorem lmonRound_done {v : Nat → Nat} (hv : ∀ n, v n < 4096) (s : State) {n : Nat} (hn : n < 4) : ChannelDone n (v n) s (lmonRound v s) := by
  have hdone (t : State) : ChannelDone n (v n) t (lmonCycle n (v n) t) := lmonCycle_done hn (hv n)
  have hkept (m : Nat) (hm : m < 4) (hne : n ≠ m) (t : State) : ChannelKept n t (lmonCycle m (v m) t) := (lmonCycle_step hm).others n hn hne
  obtain rfl | rfl | rfl | rfl : n = 0 ∨ n = 1 ∨ n = 2 ∨ n = 3 := by omega
  · exact (((hdone s).kept (hkept 1 (by decide) (by decide) _)).kept (hkept 2 (by decide) (by decide) _)).kept (hkept 3 (by decide) (by decide) _)
  · exact (((hkept 0 (by decide) (by decide) s).done (hdone _)).kept (hkept 2 (by decide) (by decide) _)).kept (hkept 3 (by decide) (by decide) _)
  · exact (((hkept 0 (by decide) (by decide) s).trans (hkept 1 (by decide) (by decide) _)).done (hdone _)).kept (hkept 3 (by decide) (by decide) _)
  · exact (((hkept 0 (by decide) (by decide) s).trans (hkept 1 (by decide) (by decide) _)).trans (hkept 2 (by decide) (by decide) _)).done (hdone _)

/-! ### What comes before and after them -/

theorem sleepPass_kept {s : State} (n m : Nat) (h1 : s.lan.mode ≠ .mainOn) (h2 : s.lan.mode ≠ .stopped) :
    ChannelKept m s (sleepPass n s) where
  data := rd_congr _ (sleepPass_reg n s _)
  run := by rw [sleepPass_lan n h1 h2]; rfl
  inMatch := by rw [sleepPass_lan n h1 h2]; rfl
  shown := bit_congr _ _ (sleepPass_reg n s _)
  source := sleepPass_testBit n h1 h2 (by omega)
  settings := sleepPass_reg n s _

/-- The cell-low condition reaches its entry, its event, and with CELL_LOW_DORM the mode. -/
structure CellJudged (s t : State) : Prop where
  rest : t = { s with regs := t.regs, log := t.log, lan := { s.lan with
    mode := t.lan.mode, cellLowLogged := t.lan.cellLowLogged, cellDorm := t.lan.cellDorm } }
  mode : t.lan.mode = s.lan.mode ∨ t.lan.mode = .dormant
  regs : RegsKept [Reg.LAN_EVENTS, Reg.LOG_STATUS] s t
  shown : ∀ m, t.bit Fld.LAN_EVENTS_LMON_MATCH m = s.bit Fld.LAN_EVENTS_LMON_MATCH m

/-- A cell that falls low shows and logs it once (R139). -/
def cellFell (s : State) : State :=
  ({ s with lan := { s.lan with cellLowLogged := true } }.wr Fld.LAN_EVENTS_CELL_LOW 1).logEv 0x00 0x0006 0

theorem cellFell_judged (s : State) : CellJudged s (cellFell s) where
  rest := by unfold cellFell; rw [logEv_spec]; rfl
  mode := .inl (by rw [cellFell, logEv_lan]; rfl)
  regs a ha := by
    simp only [List.mem_cons, List.not_mem_nil, or_false, not_or] at ha
    obtain ⟨hevents, hlog⟩ := ha
    exact (reg_logEv _ _ _ _ hlog).trans (reg_wr_ne _ _ (Ne.symm hevents))
  shown m := by
    rw [cellFell, bit_congr _ _ (reg_logEv _ _ _ _ (by decide))]
    exact congrArg (Nat.testBit · m) (rd_wr_disjoint s _ _ _ (by decide) (by decide) (by decide))

/-- A cell that is low, once it is logged. -/
def cellLogged (s : State) : State := if s.lan.cellLowLogged then s else cellFell s

theorem cellLogged_judged (s : State) : CellJudged s (cellLogged s) := by
  unfold cellLogged
  split
  · exact ⟨rfl, .inl rfl, fun _ _ => rfl, fun _ => rfl⟩
  · exact cellFell_judged s

theorem CellJudged.dormant {s t : State} (h : CellJudged s t) :
    CellJudged s { t with lan := { t.lan with mode := .dormant, cellDorm := true } } where
  rest := by rw [h.rest]
  mode := .inr rfl
  regs := h.regs
  shown := h.shown

theorem cellLow_of_low {code : Nat} {s : State} (h : cellIsLow code s = true) :
    cellLow code s = if (cellLogged s).rdB Fld.POWER_CFG_CELL_LOW_DORM then
      { cellLogged s with lan := { (cellLogged s).lan with mode := .dormant, cellDorm := true } } else cellLogged s := if_pos h

theorem cellLow_judged (code : Nat) (s : State) : CellJudged s (cellLow code s) := by
  cases h : cellIsLow code s with
  | true =>
    rw [cellLow_of_low h]
    split
    · exact (cellLogged_judged s).dormant
    · exact cellLogged_judged s
  | false =>
    rw [cellLow, h]
    exact ⟨rfl, .inl rfl, fun _ _ => rfl, fun _ => rfl⟩

theorem CellJudged.kept {s t : State} (h : CellJudged s t) {m : Nat} (hm : m < 4) : ChannelKept m s t := by
  have hreg (a : Nat) (h1 : a ≠ Reg.LAN_EVENTS) (h2 : a ≠ Reg.LOG_STATUS) : t.reg a = s.reg a := h.regs a (by simp [h1, h2])
  refine ⟨rd_congr _ (hreg _ (lmonField_ne_events m) (lmonField_ne_log m)), ?_, ?_, h.shown m, ?_,
    hreg _ (Ne.symm (cfg_ne_events m)) (cfg_ne_log hm)⟩
  · rw [h.rest]
  · rw [h.rest]
  · rw [h.rest]

theorem vcell_kept (s : State) (v m : Nat) (hm : m < 4) : ChannelKept m s (s.wr Fld.SUPPLY_DATA_VCELL_V v) := by
  have hdata : Reg.SUPPLY_DATA ≠ (lmonField m).addr := by rcases lmonField_addr m with h | h <;> rw [h] <;> decide
  have hcfg : Reg.SUPPLY_DATA ≠ Reg.LMON_CFG m := by unfold Reg.SUPPLY_DATA Reg.LMON_CFG; omega
  exact ⟨rd_wr_ne _ _ _ _ hdata, rfl, rfl, bit_wr_ne _ _ _ _ _ (by decide), rfl, reg_wr_ne _ _ hcfg⟩

/-! ### The cycle -/

/-- The RTC counts of a cycle (R137). -/
def bivouacCounts (s : State) : Nat := 1024 * 2 ^ Nat.min 13 (s.rd Fld.BIV_CFG_PERIOD)

/-- A cycle of Bivouac, as it leaves the Lantern. -/
def bivouacCycled (v : Nat → Nat) (vcell : Nat) (s : State) : State :=
  cellLow vcell ((lmonRound v (sleepPass (bivouacCounts s) s)).wr Fld.SUPPLY_DATA_VCELL_V vcell)

/-- A cycle of Bivouac judges its channels, shows VCELL, counts the RTC on and stays in Bivouac or changes to Dormant (R137 to R139). -/
structure BivouacCycled (v : Nat → Nat) (vcell : Nat) (s t : State) : Prop where
  channels : ∀ n, n < 4 → ChannelDone n (v n) s t
  vcell : t.rd Fld.SUPPLY_DATA_VCELL_V = vcell
  rtc : t.lan.rtc = (s.lan.rtc + bivouacCounts s) % 2 ^ 48
  mode : t.lan.mode = .bivouac ∨ t.lan.mode = .dormant
  rest : t = { s with regs := t.regs, log := t.log, lan := t.lan }
  regs : RegsKept lmonRegs s t

theorem bivouacCycled_cycles {v : Nat → Nat} {vcell : Nat} {s : State} (hv : ∀ n, v n < 4096) (hc : vcell < 4096)
    (hm : s.lan.mode = .bivouac) : BivouacCycled v vcell s (bivouacCycled v vcell s) := by
  have h1 : s.lan.mode ≠ .mainOn := by rw [hm]; decide
  have h2 : s.lan.mode ≠ .stopped := by rw [hm]; decide
  unfold bivouacCycled
  set s1 := sleepPass (bivouacCounts s) s with hs1
  set s2 := lmonRound v s1 with hs2
  set s3 := s2.wr Fld.SUPPLY_DATA_VCELL_V vcell with hs3
  have hround : LmonFrame s1 s2 := lmonRound_frame v s1
  have hcell : CellJudged s3 (cellLow vcell s3) := cellLow_judged vcell s3
  have hlan2 : s2.lan.rtc = s1.lan.rtc ∧ s2.lan.mode = s1.lan.mode := by rw [hround.rest]; exact ⟨rfl, rfl⟩
  have hmode : s3.lan.mode = .bivouac := hlan2.2.trans ((sleepPass_mode _ h1 h2).trans hm)
  refine ⟨fun n hn => ?_, ?_, ?_, ?_, ?_, fun a ha => ?_⟩
  · exact (((sleepPass_kept _ n h1 h2).done (lmonRound_done hv s1 hn)).kept (vcell_kept s2 vcell n hn)).kept (hcell.kept hn)
  · have hreg : (cellLow vcell s3).reg Reg.SUPPLY_DATA = s3.reg Reg.SUPPLY_DATA := hcell.regs _ (by decide)
    rw [rd_congr Fld.SUPPLY_DATA_VCELL_V hreg, rd_wr_same _ _ _ (by decide)]
    exact Nat.mod_eq_of_lt hc
  · have hrtc : (cellLow vcell s3).lan.rtc = s3.lan.rtc := by rw [hcell.rest]
    exact hrtc.trans (hlan2.1.trans (sleepPass_rtc _ h1 h2))
  · exact hcell.mode.imp_left (Eq.trans · hmode)
  · have hrest : s3 = { s with regs := s3.regs, log := s3.log, lan := s3.lan } := by
      rw [hs3, hround.rest, hs1, sleepPass_rest]
      rfl
    rw [hcell.rest, hrest]
  · simp only [lmonRegs, List.mem_cons, List.not_mem_nil, or_false, not_or] at ha
    obtain ⟨h01, h23, hsupply, hevents, hlog⟩ := ha
    have hlast : (cellLow vcell s3).reg a = s3.reg a := hcell.regs a (by simp [hevents, hlog])
    have hmid : s2.reg a = s1.reg a := hround.regs a (by simp [lmonRegs, h01, h23, hsupply, hevents, hlog])
    exact hlast.trans ((reg_wr_ne s2 vcell (Ne.symm hsupply)).trans (hmid.trans (sleepPass_reg _ s a)))

end Sys2Proof.Machine
end

