-- ==== Sys2Proof/Proofs/SleepAndWake.lean ====
section
/-!
PROOFS. Proofs/SleepAndWake.lean: the commands by which the Lantern sleeps, wakes the main domain and watches its inputs (O16).
-/
namespace Sys2Proof.Machine

theorem ne_mainOn_of_asleep {s : State} (h : asleep s = true) : s.lan.mode ≠ .mainOn := by
  intro hm
  simp [asleep, hm] at h

theorem not_asleep_of_mainOn {s : State} (h : s.lan.mode = .mainOn) : asleep s = false := by simp [asleep, h]

theorem ne_stopped_of_mainOn {s : State} (h : s.lan.mode = .mainOn) : s.lan.mode ≠ .stopped := by rw [h]; decide

theorem asleep_sleepPass (n : Nat) {s : State} (h : asleep s = true) : asleep (sleepPass n s) = true := by
  rw [asleep, sleepPass_mode n (ne_mainOn_of_asleep h) (ne_stopped_of_asleep h)]
  exact h

/-! ### Wake sources come and go -/

theorem exec_wakeIn (low : Bool) (n : Nat) (s : State) : exec (.wakeIn low n) s = runLan (fun s => wakeSource 0 low (sleepPass n s)) s := rfl

theorem exec_wakeTimerExpiry (n : Nat) (s : State) : exec (.wakeTimerExpiry n) s = runLan (sleepPass n) s := rfl

/-- With no change in progress WAKE_IN only keeps the source (R134). -/
theorem wakeIn_idle (low : Bool) (n : Nat) {s : State} (hs : s.lan.mode ≠ .stopped) (hc : s.pwr.change = none) :
    Does (.wakeIn low n) s fun t => t = { wakeSet 0 low (sleepPass n s) with cycle := s.cycle + 1 } := by
  refine does_runLan (exec_wakeIn low n s) hs ?_
  rw [sleepPass_with_cycle]
  exact wakeSource_idle 0 low (by simpa using hc)

theorem wakeTimerExpiry_passes (n : Nat) {s : State} (hs : s.lan.mode ≠ .stopped) :
    Does (.wakeTimerExpiry n) s fun t => t = { sleepPass n s with cycle := s.cycle + 1 } :=
  does_runLan (exec_wakeTimerExpiry n s) hs (sleepPass_with_cycle n _ s)

/-- A source has turned a sleep entry toward Ring-only, and the entry of the log says so (R76). -/
structure SleepCancelled (s t : State) : Prop where
  goal : t.pwr.change.map (·.goal) = some 2
  target : t.rd Fld.PWR_STATE_TARGET = 2
  logged : t.log = (s.logEv 0x02 0x0005 0).log
  rest : t = { s with regs := t.regs, log := t.log, pwr := t.pwr,
                      lan := { s.lan with wakeActive := setBitOf s.lan.wakeActive 0 true, wakeFailed := false } }
  regs : RegsKept [Reg.PWR_STATE, Reg.LOG_STATUS] s t

theorem wakeSource_cancelled {s : State} {c : PwrChange} (hb : s.lan.wakeActive.testBit 0 = false) (h : s.pwr.change = some c)
    (hgoal : 3 ≤ c.goal) (hrail : c.railOff = false) (hfrom : c.fromState ≠ 3) (hleg : c.leg ≤ 2) :
    SleepCancelled s (wakeSource 0 true s) := by
  have hset : wakeSet 0 true s = { s with lan := { s.lan with wakeActive := setBitOf s.lan.wakeActive 0 true, wakeFailed := false } } := by
    simp [wakeSet, hb]
  rw [wakeSource_cancels 0 hb, cancelSleep_leg (s := wakeSet 0 true s) h hgoal hrail hfrom hleg]
  refine ⟨rfl, rd_wr_same _ _ _ (by decide), enqueue_log_congr rfl rfl, ?_, fun a ha => ?_⟩
  · rw [logEv_spec, hset]
    rfl
  · simp only [List.mem_cons, List.not_mem_nil, or_false, not_or] at ha
    obtain ⟨hstate, hlog⟩ := ha
    rw [reg_wr_ne _ _ (Ne.symm hstate)]
    exact reg_logEv _ _ _ _ hlog

theorem wakeIn_cancels (n : Nat) {s : State} {c : PwrChange} (hm : s.lan.mode = .mainOn) (hb : s.lan.wakeActive.testBit 0 = false)
    (h : s.pwr.change = some c) (hgoal : 3 ≤ c.goal) (hrail : c.railOff = false) (hfrom : c.fromState ≠ 3) (hleg : c.leg ≤ 2) :
    Does (.wakeIn true n) s (SleepCancelled { s with cycle := s.cycle + 1 }) := by
  refine does_runLan (exec_wakeIn true n s) (ne_stopped_of_mainOn hm) ?_
  rw [sleepPass_with_cycle, sleepPass_mainOn n hm]
  exact wakeSource_cancelled hb h hgoal hrail hfrom hleg

/-! ### The wake -/

/-- A sleeping Lantern that wakes records what it found once the counts had passed (R134). -/
theorem does_wakeNow {f : State → State} {c : Instr} {n : Nat} {s : State} (hc : exec c s = runLan f s) (ha : asleep s = true)
    (hmask : wakeMask (sleepPass n s) < 64)
    (hf : f { s with cycle := s.cycle + 1 } = wakeNow { sleepPass n s with cycle := s.cycle + 1 }) :
    let cause := wakeMask (sleepPass n s) + (if s.lan.coldSince then 64 else 0)
    Does c s fun t =>
      t.rd Fld.LAN_STATUS_WAKE_CAUSE = cause ∧ t.log.lanQ.map (fun e => (e.source, e.code, e.datum)) =
        (if s.log.lanQ.length < 8 then s.log.lanQ.map (fun e => (e.source, e.code, e.datum)) ++ [(0x00, 0x000B, BitVec.ofNat 32 cause)]
         else s.log.lanQ.map (fun e => (e.source, e.code, e.datum))) ∧
      t = { s with cycle := s.cycle + 1, regs := t.regs, log := t.log,
                   lan := { (sleepPass n s).lan with mode := .waking, wakeOut := true, wakeFailed := false, cellDorm := false } } ∧
      RegsKept [Reg.LAN_STATUS, Reg.LOG_STATUS] s t := by
  have hs : s.lan.mode ≠ .stopped := ne_stopped_of_asleep ha
  obtain ⟨cause, entry, rest, regs⟩ := wakeNow_wakes (s := { sleepPass n s with cycle := s.cycle + 1 }) hmask
  have hcold : (sleepPass n s).lan.coldSince = s.lan.coldSince := sleepPass_coldSince n (ne_mainOn_of_asleep ha) hs
  have hmask' : wakeMask { sleepPass n s with cycle := s.cycle + 1 } = wakeMask (sleepPass n s) := rfl
  rw [hmask', hcold] at cause
  rw [hmask', hcold, sleepPass_log] at entry
  refine does_runLan hc hs ?_
  rw [hf]
  refine ⟨cause, entry, rest.trans ?_, fun a ha => (regs a ha).trans (sleepPass_reg n s a)⟩
  rw [sleepPass_rest]

/-- MAIN_WAKE wakes by a source that has not failed, once WAKE_OUT has been low for 50 ms. -/
def mainWakes (s : State) : Bool := asleep s && !s.lan.wakeFailed && decide (wakeMask s ≠ 0 ∧ wakeGap ≤ s.lan.lowFor)

/-- WAKE_RETRY wakes 60 s after a failed wake, by a source that is still active. -/
def retryWakes (s : State) : Bool := asleep s && s.lan.wakeFailed && decide (wakeMask s ≠ 0 ∧ wakeRetryGap ≤ s.lan.lowFor)

theorem exec_mainWake (n : Nat) (s : State) :
    exec (.mainWake n) s = runLan (fun s => if mainWakes (sleepPass n s) then wakeNow (sleepPass n s) else sleepPass n s) s := rfl

theorem exec_wakeRetry (n : Nat) (s : State) :
    exec (.wakeRetry n) s = runLan (fun s => if retryWakes (sleepPass n s) then wakeNow (sleepPass n s) else sleepPass n s) s := rfl

section
variable {s : State} (n : Nat) (ha : asleep s = true)
include ha

theorem mainWakes_iff : mainWakes (sleepPass n s) = true ↔
    (sleepPass n s).lan.wakeFailed = false ∧ wakeMask (sleepPass n s) ≠ 0 ∧ 1639 ≤ s.lan.lowFor + n := by
  simp [mainWakes, asleep_sleepPass n ha, wakeGap, sleepPass_lowFor n (ne_mainOn_of_asleep ha) (ne_stopped_of_asleep ha)]

theorem retryWakes_iff : retryWakes (sleepPass n s) = true ↔
    (sleepPass n s).lan.wakeFailed = true ∧ wakeMask (sleepPass n s) ≠ 0 ∧ 1966080 ≤ s.lan.lowFor + n := by
  simp [retryWakes, asleep_sleepPass n ha, wakeRetryGap, sleepPass_lowFor n (ne_mainOn_of_asleep ha) (ne_stopped_of_asleep ha)]

end

/-- A wake that is not due lets the counts pass. -/
theorem does_noWake {w : State → Bool} {c : Instr} {n : Nat} {s : State}
    (hc : exec c s = runLan (fun s => if w (sleepPass n s) then wakeNow (sleepPass n s) else sleepPass n s) s)
    (hs : s.lan.mode ≠ .stopped) (hw : w { sleepPass n s with cycle := s.cycle + 1 } = false) :
    Does c s fun t => t = { sleepPass n s with cycle := s.cycle + 1 } := by
  refine does_runLan hc hs ?_
  rw [sleepPass_with_cycle, if_neg (hw ▸ Bool.false_ne_true)]

/-- A wake has failed: WAKE_OUT falls, and the Lantern sleeps again as BIV_EN says (R135, R136). -/
def sleptAgain (s : State) : State :=
  ({ s with lan := { s.lan with mode := (if s.rdB Fld.BIV_CFG_BIV_EN then .bivouac else .dormant), wakeOut := false, lowFor := 0,
                                wakeFailed := true } }.wr Fld.LAN_EVENTS_WAKE_FAIL 1).logEv 0x00 0x000C 0

theorem sleptAgain_rest (s : State) :
    sleptAgain s = { s with regs := (sleptAgain s).regs, log := (sleptAgain s).log,
                            lan := { s.lan with mode := (if s.rdB Fld.BIV_CFG_BIV_EN then .bivouac else .dormant), wakeOut := false,
                                                lowFor := 0, wakeFailed := true } } := logEv_spec _ _ _ _

theorem sleptAgain_shown (s : State) : (sleptAgain s).rd Fld.LAN_EVENTS_WAKE_FAIL = 1 := by
  unfold sleptAgain
  rw [rd_logEv _ _ _ _ _ (by decide), rd_wr_same _ _ _ (by decide)]
  rfl

theorem sleptAgain_regs (s : State) : RegsKept [Reg.LAN_EVENTS, Reg.LOG_STATUS] s (sleptAgain s) := by
  intro a ha
  simp only [List.mem_cons, List.not_mem_nil, or_false, not_or] at ha
  obtain ⟨hevents, hlog⟩ := ha
  exact (reg_logEv _ _ _ _ hlog).trans (reg_wr_ne _ _ (Ne.symm hevents))

theorem exec_wakeFail (n : Nat) (s : State) :
    exec (.wakeFail n) s = runLan (fun s => if s.lan.mode = .waking then sleptAgain (sleepPass n s) else s) s := rfl

theorem wakeFail_sleeps (n : Nat) {s : State} (hm : s.lan.mode = .waking) :
    Does (.wakeFail n) s fun t =>
      t.rd Fld.LAN_EVENTS_WAKE_FAIL = 1 ∧
      t = { s with cycle := s.cycle + 1, regs := t.regs, log := t.log,
                   lan := { (sleepPass n s).lan with
                     mode := (if s.rdB Fld.BIV_CFG_BIV_EN then .bivouac else .dormant), wakeOut := false, lowFor := 0, wakeFailed := true } } ∧
      RegsKept [Reg.LAN_EVENTS, Reg.LOG_STATUS] s t := by
  set u : State := { sleepPass n s with cycle := s.cycle + 1 } with hu
  have hreg (a : Nat) : u.reg a = s.reg a := sleepPass_reg n s a
  have hbiv : u.rdB Fld.BIV_CFG_BIV_EN = s.rdB Fld.BIV_CFG_BIV_EN := by rw [rdB_eq, rdB_eq, rd_congr Fld.BIV_CFG_BIV_EN (hreg _)]
  refine does_runLan (exec_wakeFail n s) (by rw [hm]; decide) ?_
  rw [if_pos hm, sleepPass_with_cycle]
  refine ⟨sleptAgain_shown u, (sleptAgain_rest u).trans ?_, fun a ha => (sleptAgain_regs u a ha).trans (hreg a)⟩
  rw [hbiv, hu, sleepPass_rest]

/-- A wake that does not happen cannot fail. -/
theorem wakeFail_nothing (n : Nat) {s : State} (hm : s.lan.mode ≠ .waking) :
    Does (.wakeFail n) s fun t => t = { s with cycle := s.cycle + 1 } :=
  does_runLan_nothing (exec_wakeFail n s) (if_neg hm) rfl

/-! ### The inputs -/

/-- The samples of a cycle, by channel. -/
def lmonSamples (l0 l1 l2 l3 : BitVec 12) (n : Nat) : Nat :=
  if n = 0 then l0.toNat else if n = 1 then l1.toNat else if n = 2 then l2.toNat else l3.toNat

theorem lmonSamples_lt (l0 l1 l2 l3 : BitVec 12) (n : Nat) : lmonSamples l0 l1 l2 l3 n < 4096 := by
  unfold lmonSamples
  split
  · exact l0.isLt
  · split
    · exact l1.isLt
    · split
      · exact l2.isLt
      · exact l3.isLt

theorem exec_bivouacCycle (l0 l1 l2 l3 vcell : BitVec 12) (s : State) :
    exec (.bivouacCycle l0 l1 l2 l3 vcell) s =
      runLan (fun s => if s.lan.mode = .bivouac then bivouacCycled (lmonSamples l0 l1 l2 l3) vcell.toNat s else s) s := rfl

theorem bivouacCycle_cycles (l0 l1 l2 l3 vcell : BitVec 12) {s : State} (hm : s.lan.mode = .bivouac) :
    Does (.bivouacCycle l0 l1 l2 l3 vcell) s
      (BivouacCycled (lmonSamples l0 l1 l2 l3) vcell.toNat { s with cycle := s.cycle + 1 }) := by
  refine does_runLan (exec_bivouacCycle l0 l1 l2 l3 vcell s) (by rw [hm]; decide) ?_
  rw [if_pos hm]
  exact bivouacCycled_cycles (lmonSamples_lt l0 l1 l2 l3) vcell.isLt hm

theorem bivouacCycle_nothing (l0 l1 l2 l3 vcell : BitVec 12) {s : State} (hm : s.lan.mode ≠ .bivouac) :
    Does (.bivouacCycle l0 l1 l2 l3 vcell) s fun t => t = { s with cycle := s.cycle + 1 } :=
  does_runLan_nothing (exec_bivouacCycle l0 l1 l2 l3 vcell s) (if_neg hm) rfl

/-- The fields of the inputs and supplies, all converted with the main domain on (R138). -/
def supplySamples (l0 l1 l2 l3 vlan vcell : BitVec 12) (s : State) : State :=
  (((((s.wr (lmonField 0) l0.toNat).wr (lmonField 1) l1.toNat).wr (lmonField 2) l2.toNat).wr (lmonField 3) l3.toNat).wr
    Fld.SUPPLY_DATA_VLAN vlan.toNat).wr Fld.SUPPLY_DATA_VCELL_V vcell.toNat

/-- What a conversion adds to the samples: a cell that is low no longer can fall again (R139). -/
def lmonConverted (l0 l1 l2 l3 vlan vcell : BitVec 12) (s : State) : State :=
  let t := supplySamples l0 l1 l2 l3 vlan vcell s
  { t with lan := { t.lan with cellLowLogged := t.lan.cellLowLogged && cellIsLow vcell.toNat t } }

theorem exec_lmonConvert (l0 l1 l2 l3 vlan vcell : BitVec 12) (s : State) :
    exec (.lmonConvert l0 l1 l2 l3 vlan vcell) s = runLan (fun s => if s.mainOn then lmonConverted l0 l1 l2 l3 vlan vcell s else s) s := rfl

section
variable (l0 l1 l2 l3 vlan vcell : BitVec 12) (s : State)

theorem reg_supplySamples {a : Nat} (ha : a ∉ [Reg.LMON_DATA_01, Reg.LMON_DATA_23, Reg.SUPPLY_DATA]) :
    (supplySamples l0 l1 l2 l3 vlan vcell s).reg a = s.reg a := by
  simp only [List.mem_cons, List.not_mem_nil, or_false, not_or] at ha
  obtain ⟨h01, h23, hsupply⟩ := ha
  unfold supplySamples
  rw [reg_wr_ne _ _ (Ne.symm hsupply), reg_wr_ne _ _ (Ne.symm hsupply), reg_wr_ne _ _ (Ne.symm h23), reg_wr_ne _ _ (Ne.symm h23),
    reg_wr_ne _ _ (Ne.symm h01), reg_wr_ne _ _ (Ne.symm h01)]

theorem rd_supplySamples_lmon {n : Nat} (hn : n < 4) :
    (supplySamples l0 l1 l2 l3 vlan vcell s).rd (lmonField n) = lmonSamples l0 l1 l2 l3 n := by
  have hsupply : Reg.SUPPLY_DATA ≠ (lmonField n).addr := by rcases lmonField_addr n with h | h <;> rw [h] <;> decide
  have hkept (m v : Nat) (hm : m < 4) (hne : n ≠ m) (t : State) : (t.wr (lmonField m) v).rd (lmonField n) = t.rd (lmonField n) :=
    rd_lmonField_ne t hm hn hne v
  rw [supplySamples, rd_wr_ne _ _ _ _ hsupply, rd_wr_ne _ _ _ _ hsupply]
  obtain rfl | rfl | rfl | rfl : n = 0 ∨ n = 1 ∨ n = 2 ∨ n = 3 := by omega
  · rw [hkept 3 _ (by decide) (by decide), hkept 2 _ (by decide) (by decide), hkept 1 _ (by decide) (by decide)]
    exact rd_lmonField_same _ 0 l0.isLt
  · rw [hkept 3 _ (by decide) (by decide), hkept 2 _ (by decide) (by decide)]
    exact rd_lmonField_same _ 1 l1.isLt
  · rw [hkept 3 _ (by decide) (by decide)]
    exact rd_lmonField_same _ 2 l2.isLt
  · exact rd_lmonField_same _ 3 l3.isLt

theorem rd_supplySamples_vcell : (supplySamples l0 l1 l2 l3 vlan vcell s).rd Fld.SUPPLY_DATA_VCELL_V = vcell.toNat := by
  rw [supplySamples, rd_wr_same _ _ _ (by decide)]
  exact Nat.mod_eq_of_lt vcell.isLt

theorem rd_supplySamples_vlan : (supplySamples l0 l1 l2 l3 vlan vcell s).rd Fld.SUPPLY_DATA_VLAN = vlan.toNat := by
  rw [supplySamples, rd_wr_disjoint _ _ _ _ (by decide) (by decide) (by decide), rd_wr_same _ _ _ (by decide)]
  exact Nat.mod_eq_of_lt vlan.isLt

/-- The samples are all that a conversion writes. -/
theorem lmonConverted_reg (a : Nat) : (lmonConverted l0 l1 l2 l3 vlan vcell s).reg a = (supplySamples l0 l1 l2 l3 vlan vcell s).reg a := by
  rw [lmonConverted, reg_with_lan]

theorem supplySamples_rest :
    supplySamples l0 l1 l2 l3 vlan vcell s = { s with regs := (supplySamples l0 l1 l2 l3 vlan vcell s).regs } := by
  simp only [supplySamples, State.wr, State.setReg]

/-- A conversion changes only registers, and whether the cell is logged as low. -/
theorem lmonConverted_rest :
    lmonConverted l0 l1 l2 l3 vlan vcell s =
      { s with regs := (lmonConverted l0 l1 l2 l3 vlan vcell s).regs,
               lan := { s.lan with cellLowLogged := (lmonConverted l0 l1 l2 l3 vlan vcell s).lan.cellLowLogged } } := by
  have hrest := supplySamples_rest l0 l1 l2 l3 vlan vcell s
  unfold lmonConverted
  generalize supplySamples l0 l1 l2 l3 vlan vcell s = t at hrest ⊢
  rw [hrest]

theorem rd_lmonConverted (f : FRef) :
    (lmonConverted l0 l1 l2 l3 vlan vcell s).rd f = (supplySamples l0 l1 l2 l3 vlan vcell s).rd f :=
  rd_congr f (lmonConverted_reg l0 l1 l2 l3 vlan vcell s f.addr)

variable {s}

theorem lmonConvert_converts (hm : s.lan.mode = .mainOn) :
    Does (.lmonConvert l0 l1 l2 l3 vlan vcell) s fun t => t = lmonConverted l0 l1 l2 l3 vlan vcell { s with cycle := s.cycle + 1 } := by
  refine does_runLan (exec_lmonConvert l0 l1 l2 l3 vlan vcell s) (ne_stopped_of_mainOn hm) ?_
  rw [if_pos (by simp [State.mainOn, hm])]

theorem lmonConvert_nothing (hm : s.lan.mode ≠ .mainOn) :
    Does (.lmonConvert l0 l1 l2 l3 vlan vcell) s fun t => t = { s with cycle := s.cycle + 1 } :=
  does_runLan_nothing (exec_lmonConvert l0 l1 l2 l3 vlan vcell s) (if_neg (by simp [State.mainOn, hm])) rfl

end

/-! ### The obligation -/

theorem mainWakes_mainOn {s : State} (hm : s.lan.mode = .mainOn) : mainWakes s = false := by
  rw [mainWakes, not_asleep_of_mainOn hm]
  rfl

theorem retryWakes_mainOn {s : State} (hm : s.lan.mode = .mainOn) : retryWakes s = false := by
  rw [retryWakes, not_asleep_of_mainOn hm]
  rfl

theorem does_imp {c : Instr} {s : State} {p q : State → Prop} (h : ∀ t, p t → q t) : Does c s p → Does c s q :=
  fun ⟨t, ht, hp⟩ => ⟨t, ht, h t hp⟩

/-- Settles O16: each command by its own lemma, the cycle of Bivouac by its four channels in their order. -/
theorem sleepAndWake : Obligations.SleepAndWake := by
  unfold Obligations.SleepAndWake
  refine ⟨fun s low n ha hc => ?asleep, fun s low n hm hc => ?mainOn, fun s n hm he hb h => ?cancels, fun s n ha hne hlt hf hgap => ?wakes,
    fun s n ha hne hlt hf hgap => ?retries, fun s n ha => ⟨fun h => ?noWake, fun h => ?noRetry⟩, fun s n hm => ?awake,
    fun s n hm => wakeFail_sleeps n hm, fun s l0 l1 l2 l3 vcell hm => ?cycles, fun s l0 l1 l2 l3 vcell hm => bivouacCycle_nothing l0 l1 l2 l3 vcell hm,
    fun s l0 l1 l2 l3 vlan vcell hm => ?converts, fun s l0 l1 l2 l3 vlan vcell hm => lmonConvert_nothing l0 l1 l2 l3 vlan vcell hm⟩
  case asleep =>
    have h1 := ne_mainOn_of_asleep ha
    have h2 := ne_stopped_of_asleep ha
    exact ⟨sleepPass_rtc n h1 h2, sleepPass_wakeLeft n h1 h2, wakeIn_idle low n h2 hc, wakeTimerExpiry_passes n h2⟩
  case mainOn =>
    have h2 := ne_stopped_of_mainOn hm
    have hin := wakeIn_idle low n h2 hc
    have hexpiry := wakeTimerExpiry_passes n h2
    rw [sleepPass_mainOn n hm] at hin hexpiry
    exact ⟨hin, hexpiry⟩
  case cancels =>
    obtain ⟨c, hc, hfields⟩ := Option.map_eq_some_iff.1 h
    simp only [Prod.mk.injEq, decide_eq_true_eq, decide_eq_false_iff_not] at hfields
    obtain ⟨hrail, hleg, hfrom⟩ := hfields
    have hgoal : 3 ≤ c.goal := by simpa [enteringSleep, hc] using he
    refine does_imp (fun t ht => ?_) (wakeIn_cancels n hm hb hc hgoal hrail hfrom hleg)
    exact ⟨ht.goal, ht.target, ht.logged, by rw [ht.rest]; simp [State.mainOn, hm], ht.rest, ht.regs⟩
  case wakes =>
    have hw : mainWakes (sleepPass n s) = true := (mainWakes_iff n ha).2 ⟨hf, hne, hgap⟩
    refine does_wakeNow (exec_mainWake n s) ha hlt ?_
    rw [sleepPass_with_cycle]
    exact if_pos hw
  case retries =>
    have hw : retryWakes (sleepPass n s) = true := (retryWakes_iff n ha).2 ⟨hf, hne, hgap⟩
    refine does_wakeNow (exec_wakeRetry n s) ha hlt ?_
    rw [sleepPass_with_cycle]
    exact if_pos hw
  case noWake =>
    have hw : mainWakes (sleepPass n s) = false := by
      rw [← Bool.not_eq_true, mainWakes_iff n ha]
      rintro ⟨hf, hne, hgap⟩
      rcases h with h | h | h
      · exact hne h
      · exact Bool.false_ne_true (hf.symm.trans h)
      · omega
    exact does_noWake (exec_mainWake n s) (ne_stopped_of_asleep ha) hw
  case noRetry =>
    have hw : retryWakes (sleepPass n s) = false := by
      rw [← Bool.not_eq_true, retryWakes_iff n ha]
      rintro ⟨hf, hne, hgap⟩
      rcases h with h | h | h
      · exact hne h
      · exact Bool.false_ne_true (h.symm.trans hf)
      · omega
    exact does_noWake (exec_wakeRetry n s) (ne_stopped_of_asleep ha) hw
  case awake =>
    have h2 := ne_stopped_of_mainOn hm
    have hpass : sleepPass n s = s := sleepPass_mainOn n hm
    have hwake := does_noWake (w := mainWakes) (exec_mainWake n s) h2 (by rw [hpass]; exact mainWakes_mainOn hm)
    have hretry := does_noWake (w := retryWakes) (exec_wakeRetry n s) h2 (by rw [hpass]; exact retryWakes_mainOn hm)
    rw [hpass] at hwake hretry
    exact ⟨hwake, hretry, wakeFail_nothing n (by rw [hm]; decide)⟩
  case cycles =>
    refine does_imp (fun t ht => ?_) (bivouacCycle_cycles l0 l1 l2 l3 vcell hm)
    obtain ⟨channels, hvcell, hrtc, hmode, hrest, hregs⟩ := ht
    exact ⟨fun n hn => (channels n hn).data, hvcell, fun n hn => (channels n hn).run, fun n hn => (channels n hn).inMatch,
      fun n hn => (channels n hn).shown, fun n hn => (channels n hn).source, hrtc, hmode, hrest, hregs⟩
  case converts =>
    refine does_imp (fun t ht => ?_) (lmonConvert_converts l0 l1 l2 l3 vlan vcell hm)
    subst ht
    set u : State := { s with cycle := s.cycle + 1 }
    have hlmon {n : Nat} (hn : n < 4) : (lmonConverted l0 l1 l2 l3 vlan vcell u).rd (lmonField n) = lmonSamples l0 l1 l2 l3 n :=
      (rd_lmonConverted l0 l1 l2 l3 vlan vcell u _).trans (rd_supplySamples_lmon l0 l1 l2 l3 vlan vcell u hn)
    refine ⟨hlmon (n := 0) (by decide), hlmon (n := 1) (by decide), hlmon (n := 2) (by decide), hlmon (n := 3) (by decide), ?_, ?_,
      lmonConverted_rest l0 l1 l2 l3 vlan vcell u, fun a ha => ?_⟩
    · exact (rd_lmonConverted l0 l1 l2 l3 vlan vcell u _).trans (rd_supplySamples_vlan l0 l1 l2 l3 vlan vcell u)
    · exact (rd_lmonConverted l0 l1 l2 l3 vlan vcell u _).trans (rd_supplySamples_vcell l0 l1 l2 l3 vlan vcell u)
    · exact (lmonConverted_reg l0 l1 l2 l3 vlan vcell u a).trans (reg_supplySamples l0 l1 l2 l3 vlan vcell u ha)

end Sys2Proof.Machine
end

