-- ==== Sys2Proof/Proofs/RingTimeReads.lean ====
section
/-!
PROOFS. Proofs/RingTimeReads.lean: an admitted read, the read of a LO word that latches its HI word, and the read of the ring time (R118).
-/
namespace Sys2Proof.Machine

section
variable {s : State} {i : Initiator} {a : Nat} {f : State → State}

/-- The read of an initiator who may read the address is admitted. -/
theorem readAdmitted_reaches (h : Reaches s i a) (hr : mayRead s i a = true) : readAdmitted i a f s = f s := by
  rw [readAdmitted, h.1, h.2, hr]; rfl

/-- Every initiator may read outside the performance counters' block (R643). -/
theorem mayRead_of_not_counterBlock (h : counterBlock a = false) : mayRead s i a = true := by rw [mayRead, h]; rfl

end

/-! ### The read of a LO word that latches its HI word -/

section
variable (lo hi v : Nat) (s : State)

@[simp] theorem latchRead_bus : (latchRead lo hi v s).bus = ⟨BitVec.ofNat 32 v, .done, .ok⟩ := rfl

@[simp] theorem latchRead_reg_hi : (latchRead lo hi v s).reg hi = BitVec.ofNat 32 (v / 2 ^ 32) := reg_setReg_same _ _ _

theorem latchRead_reg_lo {lo hi : Nat} (h : hi ≠ lo) : (latchRead lo hi v s).reg lo = BitVec.ofNat 32 v :=
  (reg_setReg_ne _ _ h).trans (reg_setReg_same _ _ _)

theorem latchRead_regsKept : RegsKept [lo, hi] s (latchRead lo hi v s) := by
  intro a ha
  obtain ⟨hlo, hhi⟩ : a ≠ lo ∧ a ≠ hi := by simpa using ha
  exact (reg_setReg_ne _ _ hhi.symm).trans (reg_setReg_ne s _ hlo.symm)

theorem latchRead_rest : latchRead lo hi v s = { s with regs := (latchRead lo hi v s).regs, bus := (latchRead lo hi v s).bus } := rfl

end

/-! ### The read of the ring time -/

theorem exec_rtNowRead (i : Initiator) (ns : Fin 20000) (s : State) :
    exec (.rtNowRead i ns) s = run (readAdmitted i Reg.RT_NOW_LO (rtNowRead ns.val)) s := rfl

/-- The ring time that a read `ns` nanoseconds after the latest frame tick finds: RT64 counts modulo 2^64. -/
theorem rtNowRead_eq_latchRead (ns : Nat) (s : State) :
    rtNowRead ns s = latchRead Reg.RT_NOW_LO Reg.RT_NOW_HI ((s.time.rt + ns) % 2 ^ 64) s := rfl

/-- A read that is admitted latches the ring time. -/
theorem exec_rtNowRead_reaches {s : State} {i : Initiator} (ns : Fin 20000) (h : Reaches s i Reg.RT_NOW_LO) :
    exec (.rtNowRead i ns) s = run (latchRead Reg.RT_NOW_LO Reg.RT_NOW_HI ((s.time.rt + ns.val) % 2 ^ 64)) s := by
  have hr : mayRead { s with cycle := s.cycle + 1 } i Reg.RT_NOW_LO = true := mayRead_of_not_counterBlock (by decide)
  rw [exec_rtNowRead, run, readAdmitted_reaches (s := { s with cycle := s.cycle + 1 }) (i := i) (a := Reg.RT_NOW_LO) h hr, rtNowRead_eq_latchRead]
  rfl

/-- Settles O13: the admission of the read refuses it or lets it latch the ring time. -/
theorem ringTimeRead : Obligations.RingTimeRead := by
  refine ⟨fun s i ns h => ?reads, fun s i ns hs => ?stalled, fun s i ns k st hs hf => ?refused⟩
  case reads =>
    refine does_run (exec_rtNowRead_reaches ns h) ?_
    exact ⟨latchRead_bus .., latchRead_reg_lo _ _ (by decide), latchRead_reg_hi .., latchRead_rest .., latchRead_regsKept _ _ _ _⟩
  case stalled => exact does_run (exec_rtNowRead i ns s) (readAdmitted_stalled hs)
  case refused => exact does_run (exec_rtNowRead i ns s) (readAdmitted_fault hs hf)

end Sys2Proof.Machine
end

