-- ==== Sys2Proof/Proofs/LogStores.lean ====
section
/-!
PROOFS. Proofs/LogStores.lean: what a step keeps of the logs and the register file, and what they are after reset.
-/
namespace Sys2Proof.Machine

/-- A step is the idling of the block or one command, which keeps the form of the register file and the size of the logs. -/
theorem step_keeps_stores {s t : State} (h : step s = .next t) : (s.RegsOk → t.RegsOk) ∧ (s.LogsOk → t.LogsOk) := by
  unfold step at h
  split at h
  case h_1 =>
    cases h
    exact ⟨id, id⟩
  case h_2 c rest _ =>
    obtain ⟨u, hu, hev⟩ := exec_ends { s with pending := rest } c
    cases hu.symm.trans h
    exact ⟨hev.regsOk, hev.logsOk⟩

/-- Settles O58: every command keeps the logs within their size (`exec_ends`), since an entry enters only a queue with room and a written log is
cut to its newest entries. -/
theorem logStoresStayBounded : Obligations.LogStoresStayBounded := fun _ _ hs hstep => (step_keeps_stores hstep).2 hs

theorem reset_regsOk : State.reset.RegsOk := by
  unfold State.RegsOk
  decide

theorem reset_logsOk : State.reset.LogsOk := by
  unfold State.LogsOk
  decide

/-- Settles O59. -/
theorem resetMeetsTheInvariants : Obligations.ResetMeetsTheInvariants := ⟨reset_regsOk, reset_logsOk⟩

end Sys2Proof.Machine
end

