-- ==== Sys2Proof/Proofs/TroubleLog.lean ====
section
/-!
PROOFS. Proofs/TroubleLog.lean: an entry is written to the trouble log, the log is cleared, and an entry of it is read (R142, R145, R146).
-/
namespace Sys2Proof.Machine

/-! ### An entry is written -/

/-- An entry as the log holds it: with the RTC time recorded for it, or that of the writing. -/
def writtenRec (e : LogEntry) (s : State) : LogRec := ⟨e, e.late.getD s.lan.rtc, !s.rdB Fld.LAN_STATUS_RTC_VALID⟩

/-- Over a full log the oldest entry is lost and counted. -/
def countOverwritten (s : State) : State := when (decide (1024 ≤ s.log.ring.length)) (fun s => s.inc Fld.LOG_OVF_OVERWRITTEN) s

theorem countOverwritten_rest (s : State) : countOverwritten s = { s with regs := (countOverwritten s).regs } := by
  unfold countOverwritten when
  split <;> rfl

theorem countOverwritten_reg (s : State) {a : Nat} (h : a ≠ Reg.LOG_OVF) : (countOverwritten s).reg a = s.reg a := by
  unfold countOverwritten when
  split
  · exact reg_wr_ne s _ (Ne.symm h)
  · rfl

/-- The count of lost entries saturates at all ones. -/
theorem countOverwritten_rd (s : State) : (countOverwritten s).rd Fld.LOG_OVF_OVERWRITTEN =
    if 1024 ≤ s.log.ring.length then Nat.min 0xFFFFFFFF (s.rd Fld.LOG_OVF_OVERWRITTEN + 1) else s.rd Fld.LOG_OVF_OVERWRITTEN := by
  unfold countOverwritten when
  simp only [decide_eq_true_eq]
  split
  · rw [inc_eq, rd_wr_same _ _ _ (by decide)]
    change min (_ + 1) 0xFFFFFFFF % 2 ^ 32 = min 0xFFFFFFFF (_ + 1)
    omega
  · rfl

/-- An entry has been written to the log: it is the newest of at most 1,024, and COUNT and OVERWRITTEN follow (R142). -/
structure LogWritten (e : LogEntry) (s t : State) : Prop where
  log : t.log = { s.log with ring := (writtenRec e s :: s.log.ring).take 1024 }
  count : t.rd Fld.LOG_STATUS_COUNT = t.log.ring.length % 2048
  dropped : t.rd Fld.LOG_STATUS_DROPPED = s.rd Fld.LOG_STATUS_DROPPED
  overwritten : t.rd Fld.LOG_OVF_OVERWRITTEN =
    if 1024 ≤ s.log.ring.length then Nat.min 0xFFFFFFFF (s.rd Fld.LOG_OVF_OVERWRITTEN + 1) else s.rd Fld.LOG_OVF_OVERWRITTEN
  rest : t = { s with regs := t.regs, log := t.log }
  regs : RegsKept [Reg.LOG_STATUS, Reg.LOG_OVF] s t

theorem logWrite_eq (e : LogEntry) (s : State) :
    logWrite e s = State.wr { countOverwritten s with log := { s.log with ring := (writtenRec e s :: s.log.ring).take 1024 } }
      Fld.LOG_STATUS_COUNT ((writtenRec e s :: s.log.ring).take 1024).length := by
  have hlog : (countOverwritten s).log = s.log := by rw [countOverwritten_rest]
  rw [← hlog]
  rfl

theorem logWrite_written (e : LogEntry) (s : State) : LogWritten e s (logWrite e s) := by
  rw [logWrite_eq]
  refine ⟨rfl, rd_wr_same _ _ _ (by decide), ?_, ?_, ?_, fun a ha => ?_⟩
  · rw [rd_wr_disjoint _ _ _ _ (by decide) (by decide) (by decide)]
    exact rd_congr _ (countOverwritten_reg s (by decide))
  · rw [rd_wr_ne _ _ _ _ (by decide)]
    exact countOverwritten_rd s
  · rw [countOverwritten_rest]
    rfl
  · simp only [List.mem_cons, List.not_mem_nil, or_false, not_or] at ha
    obtain ⟨hstatus, hovf⟩ := ha
    exact (reg_wr_ne _ _ (Ne.symm hstatus)).trans (countOverwritten_reg s hovf)

/-- A writing slot writes the oldest queued entry (R145). -/
theorem does_logWriteSlot {s : State} {e : LogEntry} {l : TroubleLog} {p : State → Prop} (hs : s.lan.mode ≠ .stopped)
    (h : logPop s.log = some (e, l)) (hp : p (logWrite e { s with cycle := s.cycle + 1, log := l })) : Does .logWriteSlot s p := by
  refine ⟨_, ?_, hp⟩
  change execLogWriteSlot s = _
  simp [execLogWriteSlot, runLan, run, hs, h]

/-- A writing slot with nothing queued writes nothing. -/
theorem does_logWriteSlot_idle {s : State} (h : logPop s.log = none) : Does .logWriteSlot s fun t => t = { s with cycle := s.cycle + 1 } := by
  refine ⟨_, ?_, rfl⟩
  change execLogWriteSlot s = _
  simp [execLogWriteSlot, runLan, run, h]

theorem logPop_empty {l : TroubleLog} (h1 : l.lanQ = []) (h2 : l.ctrlQ = []) (h3 : l.switchQ = []) : logPop l = none := by
  unfold logPop
  rw [h1, h2, h3]

/-! ### The log is cleared -/

/-- A log without entries, its counts at 0. -/
def logEmptied (s : State) : State :=
  { (s.wr Fld.LOG_STATUS_DROPPED 0).wr Fld.LOG_OVF_OVERWRITTEN 0 with log := { s.log with ring := [] } }

/-- SERVICE empties the log, and LOG_CLEARED is its first entry (R146). -/
theorem logClear_service {s : State} {k : Fin 64} (h : s.rd (Fld.CE_SESS_ROLE k.val) = 3) :
    ∃ e : LogEntry, (e.source, e.code, e.datum, e.late) = (0x00, 0x000F, 0#32, none) ∧
      logClear (.session k) s = (logWrite e (logEmptied s)).answerSt .ok :=
  ⟨_, rfl, if_pos h⟩

theorem logClear_denied {s : State} {i : Initiator} (h : sessionOf [3] s i = false) : logClear i s = s.answerSt .denied := by
  cases i with
  | core => rfl
  | fw => rfl
  | session k =>
    have hrole : s.rd (Fld.CE_SESS_ROLE k.val) ≠ 3 := by simpa [sessionOf, State.roleOf] using h
    exact if_neg hrole

theorem logEmptied_reg (s : State) (a : Nat) :
    (logEmptied s).reg a = ((s.wr Fld.LOG_STATUS_DROPPED 0).wr Fld.LOG_OVF_OVERWRITTEN 0).reg a := by rw [logEmptied, reg_with_log]

theorem logEmptied_dropped (s : State) : (logEmptied s).rd Fld.LOG_STATUS_DROPPED = 0 := by
  rw [rd_congr _ (logEmptied_reg s _), rd_wr_ne _ _ _ _ (by decide), rd_wr_same _ _ _ (by decide)]
  rfl

theorem logEmptied_overwritten (s : State) : (logEmptied s).rd Fld.LOG_OVF_OVERWRITTEN = 0 := by
  rw [rd_congr _ (logEmptied_reg s _), rd_wr_same _ _ _ (by decide)]
  rfl

theorem logEmptied_regs (s : State) : RegsKept [Reg.LOG_STATUS, Reg.LOG_OVF] s (logEmptied s) := by
  intro a ha
  simp only [List.mem_cons, List.not_mem_nil, or_false, not_or] at ha
  obtain ⟨hstatus, hovf⟩ := ha
  rw [logEmptied_reg, reg_wr_ne _ _ (Ne.symm hovf), reg_wr_ne _ _ (Ne.symm hstatus)]

/-- The log has been emptied: LOG_CLEARED is its one entry, and both counts are 0 (R146). -/
structure LogCleared (s t : State) : Prop where
  entry : t.log.ring.map (fun r => (r.entry.source, r.entry.code, r.entry.datum, r.rtc)) = [(0x00, 0x000F, 0#32, s.lan.rtc)]
  count : t.rd Fld.LOG_STATUS_COUNT = 1
  dropped : t.rd Fld.LOG_STATUS_DROPPED = 0
  overwritten : t.rd Fld.LOG_OVF_OVERWRITTEN = 0
  bus : t.bus = ⟨0#32, .done, .ok⟩
  rest : t = { s with regs := t.regs, log := { s.log with ring := t.log.ring }, bus := t.bus }
  regs : RegsKept [Reg.LOG_STATUS, Reg.LOG_OVF] s t

theorem logClear_clears {s : State} {k : Fin 64} (h : s.rd (Fld.CE_SESS_ROLE k.val) = 3) : LogCleared s (logClear (.session k) s) := by
  obtain ⟨e, he, hclear⟩ := logClear_service h
  simp only [Prod.mk.injEq] at he
  obtain ⟨hsource, hcode, hdatum, hlate⟩ := he
  obtain ⟨log, count, dropped, overwritten, rest, regs⟩ := logWrite_written e (logEmptied s)
  rw [hclear]
  generalize logWrite e (logEmptied s) = t at log count dropped overwritten rest regs ⊢
  have hring : t.log.ring = [writtenRec e (logEmptied s)] := by rw [log]; rfl
  refine ⟨?_, ?_, dropped.trans (logEmptied_dropped s), overwritten.trans (logEmptied_overwritten s), rfl, ?_,
    fun a ha => (regs a ha).trans (logEmptied_regs s a ha)⟩
  · change t.log.ring.map _ = _
    rw [hring]
    simp only [List.map_cons, List.map_nil, writtenRec, hsource, hcode, hdatum, hlate]
    rfl
  · change t.rd Fld.LOG_STATUS_COUNT = 1
    rw [count, hring]
    rfl
  · rw [rest, log]
    rfl

theorem does_logClear {s : State} {i : Initiator} {p : State → Prop} (hs : s.lan.mode ≠ .stopped)
    (hp : p (logClear i { s with cycle := s.cycle + 1 })) : Does (.logClear i) s p := does_runLan rfl hs hp

/-! ### An entry is read -/

/-- The bytes of the selected entry, zeros where there is none. -/
def selectedBytes (s : State) : List Byte := ((s.log.ring[s.rd Fld.LOG_CTRL_LOG_SEL]?).map logBytes).getD (List.replicate 16 0#8)

/-- Some bytes are copied into LOG_E0 to LOG_E3. -/
def copyEntry (b : List Byte) (s : State) : State := forEach [0, 1, 2, 3] (fun k s => s.wr (Fld.LOG_E_ENTRY k) (leAt b (4 * k) 4)) s

theorem logEntryRead_eq (s : State) :
    logEntryRead s = (copyEntry (selectedBytes s) s).answer (BitVec.ofNat 32 (leAt (selectedBytes s) 0 4)) .done .ok := by
  unfold logEntryRead selectedBytes copyEntry
  cases s.log.ring[s.rd Fld.LOG_CTRL_LOG_SEL]? <;> rfl

/-- A field that fills its word leaves nothing of the old word. -/
theorem FRef.put_whole (a : Nat) (w : Word) (v : Nat) : FRef.put ⟨a, 31, 0⟩ w v = BitVec.ofNat 32 v := by
  apply BitVec.eq_of_getLsbD_eq
  intro n hn
  rw [FRef.bit_put _ ⟨Nat.zero_le 31, Nat.lt_succ_self 31⟩ w v n hn, if_pos ⟨Nat.zero_le n, Nat.le_of_lt_succ hn⟩, BitVec.getLsbD_ofNat, Nat.sub_zero]
  simp [hn]

theorem reg_wr_entry_same (s : State) (k v : Nat) : (s.wr (Fld.LOG_E_ENTRY k) v).reg (Reg.LOG_E k) = BitVec.ofNat 32 v :=
  (reg_wr_same s _ v).trans (FRef.put_whole _ _ v)

theorem reg_wr_entry_ne (s : State) {k j : Nat} (v : Nat) (h : k ≠ j) : (s.wr (Fld.LOG_E_ENTRY k) v).reg (Reg.LOG_E j) = s.reg (Reg.LOG_E j) :=
  reg_wr_ne s v (by show 0x30510 + 4 * k ≠ 0x30510 + 4 * j; omega)

theorem copyEntry_same (b : List Byte) (s : State) {k : Nat} (hk : k < 4) :
    (copyEntry b s).reg (Reg.LOG_E k) = BitVec.ofNat 32 (leAt b (4 * k) 4) := by
  unfold copyEntry
  simp only [forEach, List.foldl_cons, List.foldl_nil]
  obtain rfl | rfl | rfl | rfl : k = 0 ∨ k = 1 ∨ k = 2 ∨ k = 3 := by omega
  · rw [reg_wr_entry_ne _ _ (by decide), reg_wr_entry_ne _ _ (by decide), reg_wr_entry_ne _ _ (by decide), reg_wr_entry_same]
  · rw [reg_wr_entry_ne _ _ (by decide), reg_wr_entry_ne _ _ (by decide), reg_wr_entry_same]
  · rw [reg_wr_entry_ne _ _ (by decide), reg_wr_entry_same]
  · rw [reg_wr_entry_same]

theorem copyEntry_regs (b : List Byte) (s : State) : RegsLogPerf (inArray (Reg.LOG_E 0) 4 4) s (copyEntry b s) :=
  RegsLogPerf.forEach _ _
    (fun k hk _ h => h.wr _ _ (inArray_at _ _ _ k (by decide) (List.mem_range.mp (show k ∈ List.range 4 from hk)))) (.refl _ _)

theorem copyEntry_rest (b : List Byte) (s : State) : copyEntry b s = { s with regs := (copyEntry b s).regs } := by
  simp only [copyEntry, forEach, List.foldl_cons, List.foldl_nil, State.wr, State.setReg]

/-- An answer after writes of registers. -/
theorem answer_rest {s t : State} (h : t = { s with regs := t.regs }) (v : Word) (k : BusKind) (st : Status) :
    t.answer v k st = { s with regs := (t.answer v k st).regs, bus := (t.answer v k st).bus } :=
  congrArg (fun u : State => u.answer v k st) h

/-- The bytes of an entry have been copied, and the read answers the first word of them (R146). -/
structure EntryRead (b : List Byte) (s t : State) : Prop where
  words : ∀ k, k < 4 → t.reg (Reg.LOG_E k) = BitVec.ofNat 32 (leAt b (4 * k) 4)
  bus : t.bus = ⟨BitVec.ofNat 32 (leAt b 0 4), .done, .ok⟩
  rest : t = { s with regs := t.regs, bus := t.bus }
  regs : RegsKeptBut (inArray (Reg.LOG_E 0) 4 4) s t

theorem logEntryRead_reads (s : State) : EntryRead (selectedBytes s) s (logEntryRead s) := by
  rw [logEntryRead_eq]
  have hrest := copyEntry_rest (selectedBytes s) s
  have hregs := (copyEntry_regs (selectedBytes s) s).regs
  have hwords := fun k hk => copyEntry_same (selectedBytes s) s (k := k) hk
  generalize copyEntry (selectedBytes s) s = t at hrest hregs hwords ⊢
  have hreg (v : Word) (k : BusKind) (st : Status) (a : Nat) : (t.answer v k st).reg a = t.reg a := reg_with_bus t _ a
  exact ⟨fun k hk => (hreg ..).trans (hwords k hk), rfl, answer_rest hrest .., fun a ha => (hreg ..).trans (hregs a ha)⟩

/-- The Lantern's registers are reached whenever the main domain is on (R42). -/
theorem reaches_logEntry {s : State} {i : Initiator} (hm : s.lan.mode = .mainOn) (hs : fwStalled s i = false) : Reaches s i (Reg.LOG_E 0) := by
  have hdomain : blockDomain (Reg.LOG_E 0) = none := by decide
  refine ⟨hs, ?_⟩
  simp [accessFault, State.mainOn, hm, hdomain]

/-- A read of LOG_E0 with the main domain on copies the selected entry (R146). -/
theorem does_logEntryRead {s : State} {i : Initiator} {p : State → Prop} (hm : s.lan.mode = .mainOn) (hs : fwStalled s i = false)
    (hp : p (logEntryRead { s with cycle := s.cycle + 1 })) : Does (.logEntryRead i) s p := by
  refine does_runLan rfl (ne_stopped_of_mainOn hm) ?_
  rw [readAdmitted_reaches (s := { s with cycle := s.cycle + 1 }) (i := i) (a := Reg.LOG_E 0) (reaches_logEntry hm hs)
    (mayRead_of_not_counterBlock (by decide))]
  exact hp

/-! ### The obligation -/

/-- Settles O17: the writing, the clearing and the read each by the rule of its operation. -/
theorem troubleLogAccess : Obligations.TroubleLogAccess := by
  unfold Obligations.TroubleLogAccess
  refine ⟨fun s e l hs h => ?writes, fun s h1 h2 h3 => does_logWriteSlot_idle (logPop_empty h1 h2 h3), fun s k hs hrole => ?clears,
    fun s i hs hi => ?denies, fun s i hm hs => ?reads⟩
  case writes =>
    obtain ⟨log, count, -, overwritten, rest, regs⟩ := logWrite_written e { s with cycle := s.cycle + 1, log := l }
    have hring : l.ring = s.log.ring := (logPop_shortens h).2.2.2
    rw [hring] at log overwritten
    exact does_logWriteSlot hs h ⟨log, count, overwritten, rest, regs⟩
  case clears =>
    obtain ⟨entry, count, dropped, overwritten, bus, rest, regs⟩ := logClear_clears (s := { s with cycle := s.cycle + 1 }) hrole
    exact does_logClear hs ⟨entry, count, dropped, overwritten, bus, rest, regs⟩
  case denies =>
    refine does_logClear hs ?_
    rw [logClear_denied (s := { s with cycle := s.cycle + 1 }) (i := i) hi]
    rfl
  case reads =>
    obtain ⟨words, bus, rest, regs⟩ := logEntryRead_reads { s with cycle := s.cycle + 1 }
    exact does_logEntryRead hm hs ⟨words, bus, rest, regs⟩

end Sys2Proof.Machine
end

