-- ==== Sys2Proof/Proofs/LanternReset.lean ====
section
/-!
PROOFS. Proofs/LanternReset.lean: the assertion and the release of the Lantern's power-on reset: what they clear, and what they leave (R122, R123,
R127, R141).
-/
namespace Sys2Proof.Machine

/-! ### What the loss of the main domain keeps of the bus and the free values -/

/-- The answer on the bus and the count of free values taken are as they were. -/
structure AnswerKept (r s : State) : Prop where
  bus : s.bus = r.bus
  freeIx : s.freeIx = r.freeIx

theorem AnswerKept.trans {r s t : State} (h : AnswerKept r s) (k : AnswerKept s t) : AnswerKept r t :=
  ⟨k.bus.trans h.bus, k.freeIx.trans h.freeIx⟩

theorem AnswerKept.ofRegsLogPerf {p : Nat → Bool} {s t : State} (h : RegsLogPerf p s t) : AnswerKept s t := by
  rw [h.rest]
  exact ⟨rfl, rfl⟩

section
variable {r s : State} (h : AnswerKept r s)
include h

theorem AnswerKept.ite {t : State} {c : Prop} [Decidable c] (k : AnswerKept r t) : AnswerKept r (if c then s else t) := by
  split
  · exact h
  · exact k

theorem AnswerKept.setReg {a : Nat} {x : Word} : AnswerKept r (s.setReg a x) := h.trans ⟨rfl, rfl⟩
theorem AnswerKept.upd {regs log clog img pwr lan ls adc dbg} :
    AnswerKept r { s with regs := regs, log := log, clog := clog, img := img, pwr := pwr, lan := lan, ls := ls, adc := adc, dbg := dbg } :=
  h.trans ⟨rfl, rfl⟩
theorem AnswerKept.wr {f : FRef} {v : Nat} : AnswerKept r (s.wr f v) := h.setReg
theorem AnswerKept.logEv {source code datum : Nat} : AnswerKept r (s.logEv source code datum) := h.trans ⟨logEv_bus .., logEv_freeIx ..⟩
theorem AnswerKept.logOnce {source code unit datum : Nat} : AnswerKept r (s.logOnce source code unit datum) :=
  h.trans ⟨logOnce_bus .., logOnce_freeIx ..⟩

theorem AnswerKept.forEach {l : List Nat} {f : Nat → State → State} (hf : ∀ i s, AnswerKept r s → AnswerKept r (f i s)) :
    AnswerKept r (forEach l f s) := by
  unfold Machine.forEach
  induction l generalizing s with
  | nil => exact h
  | cons i l ih => exact ih (hf i s h)

theorem AnswerKept.settleTrips {pulse : Nat → Nat} : AnswerKept r (settleTrips pulse s) := h.trans (.ofRegsLogPerf (settleTrips_spec pulse s))

/-! The end of an unlock -/

theorem AnswerKept.setCore {c : Nat} {q : AdcCore} : AnswerKept r (s.setCore c q) := by
  unfold State.setCore
  extract_lets s1 _ s2 s3
  have h1 : AnswerKept r s1 := h.upd
  have h2 : AnswerKept r s2 := h1.wr.wr
  have h3 : AnswerKept r s3 := by
    unfold s3
    split
    · exact h2.wr.wr
    · exact h2.wr
  exact h3.wr

theorem AnswerKept.disturbEval {m : Nat} : AnswerKept r (disturbEval m s) := by
  unfold Machine.disturbEval
  extract_lets _ _ _ s1
  have h1 : AnswerKept r s1 := h.wr
  exact .ite h1.wr.logOnce (.ite h1.setCore h1)

theorem AnswerKept.disturbInput {m : Option Nat} : AnswerKept r (match m with | some m => Machine.disturbEval m s | none => s) := by
  split
  · exact h.disturbEval
  · exact h

theorem AnswerKept.atestPut {n : Nat} {v : Word} : AnswerKept r (atestPut n v s) := by
  have h1 : AnswerKept r (s.setReg (Reg.DBG_ATEST_SEL n) v) := h.setReg
  exact h1.disturbInput.disturbInput

theorem AnswerKept.tapTo {code : Nat} : AnswerKept r (tapTo code s) := by
  unfold Machine.tapTo
  extract_lets _ _ s1
  have h1 : AnswerKept r s1 := h.upd
  exact .ite h1 h1.wr

theorem AnswerKept.dbgShow : AnswerKept r (dbgShow s) := by
  unfold Machine.dbgShow
  extract_lets s1
  have h1 : AnswerKept r s1 := h.wr.wr
  split
  · exact h1.wr
  · exact h1.wr.wr

theorem AnswerKept.accessShut : AnswerKept r (accessShut s) :=
  ((h.upd.tapTo.forEach fun _ _ h => h.setReg).forEach fun _ _ h => h.atestPut).dbgShow

theorem AnswerKept.debugResume : AnswerKept r (debugResume s) := by
  unfold Machine.debugResume
  extract_lets s1 s2 _ s3 s4 _ s5
  have h1 : AnswerKept r s1 := .ite h.upd h
  have h2 : AnswerKept r s2 := h1.wr
  have h3 : AnswerKept r s3 := h2.upd
  have h4 : AnswerKept r s4 := h3.wr.wr.wr
  have h5 : AnswerKept r s5 := .ite h4 h4.upd
  have h6 : AnswerKept r (when (s5.rdB Fld.SAFE_STATUS_LOCKED) outputsOff s5) := .ite h5.wr.wr.wr h5
  exact .ite h2 h6.settleTrips

theorem AnswerKept.unlockEnd {reason : Nat} : AnswerKept r (unlockEnd reason s) := .ite h h.accessShut.debugResume.logEv

/-! The clearing of the main domain -/

theorem AnswerKept.gateShow : AnswerKept r (gateShow s) := (h.forEach fun _ _ h => h.wr).wr.wr

theorem AnswerKept.mainClear : AnswerKept r (mainClear s) := by
  have h1 : AnswerKept r (mainKept s) := h.trans ⟨rfl, rfl⟩
  have h2 := (h1.setReg (a := Reg.CLK_STATUS) (x := s.reg Reg.CLK_STATUS &&& 0x00F00108#32)).wr (f := Fld.RAIL_STATUS_EN) (v := s.pwr.regEn)
  exact h2.wr.wr.wr.wr.gateShow.wr.wr.wr.wr.wr.wr.wr.wr.wr.wr.wr

theorem AnswerKept.mainOff : AnswerKept r (mainOff s) := h.unlockEnd.mainClear.upd.wr.wr.setReg

theorem AnswerKept.lanternClear {m : LanMode} : AnswerKept r (lanternClear m s) := by
  unfold Machine.lanternClear
  extract_lets cell s1
  have h1 : AnswerKept r s1 := h.mainOff
  clear_value s1 cell
  exact h1.upd.wr

end

/-! ### The clearing of the Lantern -/

/-- Where the Lantern's registers are forgotten, each reads as its reset word. -/
def lanternForgotten (s : State) : State := { mainOff s with regs := Tab.keep (fun a => !inLantern a) (mainOff s).regs }

theorem reg_lanternForgotten (s : State) {a : Nat} (h : inLantern a = true) : (lanternForgotten s).reg a = resetWord a := by
  have hget := Tab.get_keep (resetWord a) (fun a => !inLantern a) (mainOff s).regs a
  rw [h] at hget
  exact hget

/-- Of the registers, the clearing writes the state of the cell switch alone (R127). -/
theorem reg_lanternClear (m : LanMode) (s : State) (a : Nat) :
    (lanternClear m s).reg a = ((lanternForgotten s).wrB Fld.LAN_STATUS_CELL_CONN (s.rdB Fld.LAN_STATUS_CELL_CONN)).reg a := by
  unfold lanternClear lanternForgotten
  generalize mainOff s = u
  rfl

/-- What no reset of the Lantern reaches: the count of commands, what waits, the counted settings, the flash, and the answer on the bus. -/
structure LanternKept (s t : State) : Prop where
  cycle : t.cycle = s.cycle
  pending : t.pending = s.pending
  otp : t.otp = s.otp
  flash : t.flash = s.flash
  bus : t.bus = s.bus
  freeIx : t.freeIx = s.freeIx

theorem LanternKept.upd {r s : State} (h : LanternKept r s) {regs log lan} : LanternKept r { s with regs := regs, log := log, lan := lan } :=
  ⟨h.cycle, h.pending, h.otp, h.flash, h.bus, h.freeIx⟩

theorem LanternKept.wr {r s : State} (h : LanternKept r s) {f : FRef} {v : Nat} : LanternKept r (s.wr f v) := h.upd

/-- The clearing leaves the counted settings, the flash, what waits and the answer on the bus, and the main domain is off (R123). -/
structure LanternCleared (m : LanMode) (s t : State) : Prop where
  mode : t.lan.mode = m
  rtc : t.lan.rtc = 0
  wakeOut : t.lan.wakeOut = false
  coldSince : t.lan.coldSince = true
  cell : t.rd Fld.LAN_STATUS_CELL_CONN = s.rd Fld.LAN_STATUS_CELL_CONN
  status : ∀ f, f.addr = Reg.LAN_STATUS → f.ok → f.hi < 15 ∨ 15 < f.lo → t.rd f = 0
  reset : ∀ a, inLantern a = true → a ≠ Reg.LAN_STATUS → t.reg a = resetWord a
  ring : t.log.ring = []
  kept : LanternKept s t

/-- A field of one bit is its truth value as a number. -/
theorem toNat_rdB (s : State) {f : FRef} (h : s.rd f < 2) : (s.rdB f).toNat % 2 ^ 1 = s.rd f := by
  rw [rdB_eq]
  obtain h0 | h1 : s.rd f = 0 ∨ s.rd f = 1 := by omega
  · rw [h0]; rfl
  · rw [h1]; rfl

theorem bit_toNat_ne_zero (b : Bool) : decide (b.toNat % 2 ^ 1 ≠ 0) = b := by cases b <;> rfl

theorem lanternClear_cleared (m : LanMode) (s : State) : LanternCleared m s (lanternClear m s) := by
  have hkept : Evolves false s (lanternClear m s) := (Evolves.refl false s).lanternClear
  have hanswer : AnswerKept s (lanternClear m s) := AnswerKept.lanternClear ⟨rfl, rfl⟩
  refine ⟨rfl, rfl, rfl, rfl, ?_, fun f ha hf hd => ?_, fun a ha hne => ?_, rfl, ⟨hkept.cycle, hkept.pending, hkept.otp rfl, hkept.flash rfl,
    hanswer.bus, hanswer.freeIx⟩⟩
  · rw [rd_congr _ (reg_lanternClear m s _), wrB_eq, rd_wr_same _ _ _ (by decide)]
    exact toNat_rdB s (rd_lt s Fld.LAN_STATUS_CELL_CONN (by decide))
  · rw [rd_congr f (reg_lanternClear m s _), wrB_eq, rd_wr_disjoint _ _ _ _ (by decide) hf hd, State.rd, ha, reg_lanternForgotten s (by decide),
      show resetWord Reg.LAN_STATUS = 0#32 by decide]
    simp [FRef.get]
  · rw [reg_lanternClear, wrB_eq, reg_wr_ne _ _ (Ne.symm hne), reg_lanternForgotten s ha]

theorem inLantern_offset {a : Nat} (h : a < 0x10000) : inLantern (0x30000 + a) = true := by
  unfold inLantern
  simp only [decide_eq_true_eq]
  omega

/-! ### The assertion -/

/-- The Lantern with its power-on reset asserted; no source carries it. -/
def lanternStopped (s : State) : State := (lanternClear .stopped s).wr Fld.LAN_STATUS_SUPPLY 3

theorem exec_lanternResetAssert (s : State) : exec .lanternResetAssert s = run lanternStopped s := rfl

theorem reg_lanternStopped (s : State) {a : Nat} (h : a ≠ Reg.LAN_STATUS) : (lanternStopped s).reg a = (lanternClear .stopped s).reg a :=
  reg_wr_ne _ _ (Ne.symm h)

/-- What the assertion of the power-on reset leaves (R122, R123, R127). -/
structure LanternStops (s t : State) : Prop where
  mode : t.lan.mode = .stopped
  rtc : t.lan.rtc = 0
  wakeOut : t.lan.wakeOut = false
  supply : t.rd Fld.LAN_STATUS_SUPPLY = 3
  ring : t.log.ring = []
  cell : t.rd Fld.LAN_STATUS_CELL_CONN = s.rd Fld.LAN_STATUS_CELL_CONN
  reset : ∀ a, inLantern a = true → a ≠ Reg.LAN_STATUS → t.reg a = resetWord a
  kept : LanternKept s t

theorem lanternStopped_stops (s : State) : LanternStops s (lanternStopped s) := by
  obtain ⟨mode, rtc, wakeOut, -, cell, -, reset, ring, kept⟩ := lanternClear_cleared .stopped s
  have hlan : (lanternStopped s).lan = (lanternClear .stopped s).lan := wr_lan ..
  have hlog : (lanternStopped s).log = (lanternClear .stopped s).log := wr_log ..
  refine ⟨by rw [hlan, mode], by rw [hlan, rtc], by rw [hlan, wakeOut], rd_wr_same _ _ _ (by decide), by rw [hlog, ring], ?_,
    fun a ha hne => (reg_lanternStopped s hne).trans (reset a ha hne), kept.wr⟩
  rw [lanternStopped, rd_wr_disjoint _ _ _ _ (by decide) (by decide) (by decide), cell]

/-! ### The release -/

/-- The Lantern cleared, with the source that starts it. -/
def lanternPowered (src : Fin 3) (s : State) : State :=
  let t := lanternClear .dormant s
  { t with lan := { t.lan with extSupply := src.val == 0, harvest := src.val == 1 } }

/-- The Lantern that a source has started, before its first entry. -/
def lanternStarted (src : Fin 3) (s : State) : State :=
  ((lanternPowered src s).wr Fld.LAN_STATUS_SUPPLY src.val).wrB Fld.LAN_STATUS_CELL_CONN (src.val == 2 || s.rdB Fld.LAN_STATUS_CELL_CONN)

theorem reg_lanternPowered (src : Fin 3) (s : State) (a : Nat) : (lanternPowered src s).reg a = (lanternClear .dormant s).reg a := by
  rw [lanternPowered, reg_with_lan]

/-- The Lantern after a cold start, with the entry COLD_START. -/
def coldStarted (src : Fin 3) (s : State) : State :=
  let t := lanternStarted src s
  { t with log := { t.log with ring := [firstRec t 0x0001 src.val] } }

theorem exec_lanternColdStart (src : Fin 3) (s : State) : exec (.lanternColdStart src) s = run (coldStarted src) s := rfl

theorem source_eq : ∀ src k : Fin 3, (src.val == k.val) = decide (src = k) := by decide

section
variable (src : Fin 3) (s : State)

/-- The cold start writes LAN_STATUS alone. -/
theorem reg_lanternStarted {a : Nat} (h : a ≠ Reg.LAN_STATUS) : (lanternStarted src s).reg a = (lanternClear .dormant s).reg a := by
  unfold lanternStarted
  rw [wrB_eq, reg_wr_ne _ _ (Ne.symm h), reg_wr_ne _ _ (Ne.symm h), reg_lanternPowered]

theorem lanternStarted_cell :
    (lanternStarted src s).rdB Fld.LAN_STATUS_CELL_CONN = (decide (src = 2) || s.rdB Fld.LAN_STATUS_CELL_CONN) := by
  have hsrc : (src.val == 2) = decide (src = 2) := source_eq src 2
  unfold lanternStarted
  rw [rdB_eq, wrB_eq, rd_wr_same _ _ _ (by decide), hsrc]
  exact bit_toNat_ne_zero _

theorem lanternStarted_supply : (lanternStarted src s).rd Fld.LAN_STATUS_SUPPLY = src.val := by
  unfold lanternStarted
  rw [wrB_eq, rd_wr_disjoint _ _ _ _ (by decide) (by decide) (by decide), rd_wr_same _ _ _ (by decide)]
  exact Nat.mod_eq_of_lt (Nat.lt_trans src.isLt (by decide))

/-- The other fields of LAN_STATUS start at 0. -/
theorem lanternStarted_status {f : FRef} (ha : f.addr = Reg.LAN_STATUS) (hf : f.ok) (hhi : f.hi < 15) :
    (lanternStarted src s).rd f = 0 := by
  have hcell : f.hi < Fld.LAN_STATUS_CELL_CONN.lo := hhi
  have hsupply : f.hi < Fld.LAN_STATUS_SUPPLY.lo := Nat.lt_trans hhi (by decide)
  unfold lanternStarted
  rw [wrB_eq, rd_wr_disjoint _ _ _ _ (by decide) hf (.inl hcell), rd_wr_disjoint _ _ _ _ (by decide) hf (.inl hsupply)]
  exact (rd_congr f (reg_lanternPowered src s _)).trans ((lanternClear_cleared .dormant s).status f ha hf (.inl hhi))

/-- Before its first entry the log shows the one entry that its reset word counts. -/
theorem lanternStarted_count : (lanternStarted src s).rd Fld.LOG_STATUS_COUNT = 1 := by
  have hreg : (lanternStarted src s).reg Reg.LOG_STATUS = resetWord Reg.LOG_STATUS :=
    (reg_lanternStarted src s (by decide)).trans ((lanternClear_cleared .dormant s).reset _ (by decide) (by decide))
  rw [State.rd, hreg]
  decide

theorem coldStarted_reg (a : Nat) : (coldStarted src s).reg a = (lanternStarted src s).reg a := by
  rw [coldStarted, reg_with_log]

theorem coldStarted_rd (f : FRef) : (coldStarted src s).rd f = (lanternStarted src s).rd f := rd_congr f (coldStarted_reg src s _)

theorem coldStarted_rdB (f : FRef) : (coldStarted src s).rdB f = (lanternStarted src s).rdB f := by
  rw [rdB_eq, rdB_eq, coldStarted_rd]

end

/-- What a cold start by the source `src` leaves (R122, R123, R127, R141). -/
structure ColdStarts (src : Fin 3) (s t : State) : Prop where
  mode : t.lan.mode = .dormant
  rtc : t.lan.rtc = 0
  coldSince : t.lan.coldSince = true
  wakeOut : t.lan.wakeOut = false
  supply : t.rd Fld.LAN_STATUS_SUPPLY = src.val
  rtcValid : t.rd Fld.LAN_STATUS_RTC_VALID = 0
  orderly : t.rd Fld.LAN_STATUS_ORDERLY = 0
  count : t.rd Fld.LOG_STATUS_COUNT = 1
  entry : t.log.ring.map (fun r => (r.entry.source, r.entry.code, r.entry.datum, r.rtc)) = [(0x00, 0x0001, BitVec.ofNat 32 src.val, 0)]
  extSupply : t.lan.extSupply = decide (src = 0)
  harvest : t.lan.harvest = decide (src = 1)
  cell : t.rdB Fld.LAN_STATUS_CELL_CONN = (decide (src = 2) || s.rdB Fld.LAN_STATUS_CELL_CONN)
  reset : ∀ a, inLantern a = true → a ≠ Reg.LAN_STATUS → t.reg a = resetWord a
  kept : LanternKept s t

theorem coldStarted_lan (src : Fin 3) (s : State) : (coldStarted src s).lan = (lanternPowered src s).lan := by
  have hstarted : (lanternStarted src s).lan = (lanternPowered src s).lan := by rw [lanternStarted, wrB_eq, wr_lan, wr_lan]
  rw [← hstarted]
  unfold coldStarted
  generalize lanternStarted src s = t
  rfl

theorem coldStarted_starts (src : Fin 3) (s : State) : ColdStarts src s (coldStarted src s) := by
  obtain ⟨mode, rtc, wakeOut, coldSince, -, -, reset, -, kept⟩ := lanternClear_cleared .dormant s
  have hlan := coldStarted_lan src s
  have hpowered : LanternKept s (lanternPowered src s) := kept.upd
  have hkept : LanternKept s (coldStarted src s) := hpowered.wr.wr.upd
  have hrtc : (lanternStarted src s).lan.rtc = 0 := (congrArg Lantern.rtc hlan).trans rtc
  refine ⟨?_, ?_, ?_, ?_, ?_, ?_, ?_, ?_, ?_, ?_, ?_, ?_, fun a ha hne => ?_, hkept⟩
  · rw [hlan]; exact mode
  · rw [hlan]; exact rtc
  · rw [hlan]; exact coldSince
  · rw [hlan]; exact wakeOut
  · rw [coldStarted_rd, lanternStarted_supply]
  · rw [coldStarted_rd, lanternStarted_status src s rfl (by decide) (by decide)]
  · rw [coldStarted_rd, lanternStarted_status src s rfl (by decide) (by decide)]
  · rw [coldStarted_rd, lanternStarted_count]
  · exact congrArg (fun r => [(0x00, 0x0001, BitVec.ofNat 32 src.val, r)]) hrtc
  · rw [hlan]; exact source_eq src 0
  · rw [hlan]; exact source_eq src 1
  · rw [coldStarted_rdB, lanternStarted_cell]
  · rw [coldStarted_reg, reg_lanternStarted src s hne, reset a ha hne]

end Sys2Proof.Machine
end

