-- ==== Sys2Proof/Proofs/LanternSupplies.lean ====
section
/-!
PROOFS. Proofs/LanternSupplies.lean: the source that carries VDD_LAN, the harvest boost and the cell switch (R122, R124, R125, R127, R139).
-/
namespace Sys2Proof.Machine

/-! ### A stopped Lantern -/

/-- The events of the Lantern that its power-on reset holds up only count as a cycle (R123). -/
theorem lanternEvent_stopped {c : Instr} {low : Bool} {counts : Nat} {s : State} (hs : s.lan.mode = .stopped)
    (h : c ∈ [Instr.boostTakeover, .chgRestart, .lxtalFail, .lxtalReturn, .trimPeriodEnd, .rtcSyncLoad, .ridgelineHeartbeat, .rgHbLost, .ctHbLost,
      .appHbLost, .wakeIn low counts, .wakeTimerExpiry counts, .mainWake counts, .wakeFail counts, .wakeRetry counts, .logWriteSlot]) :
    Does c s fun t => t = { s with cycle := s.cycle + 1 } := by
  simp only [List.mem_cons, List.not_mem_nil, or_false] at h
  obtain rfl | rfl | rfl | rfl | rfl | rfl | rfl | rfl | rfl | rfl | rfl | rfl | rfl | rfl | rfl | rfl := h <;>
    exact ⟨_, congrArg Host.Outcome.next (if_pos hs), rfl⟩

/-! ### The source that carries VDD_LAN -/

/-- The code of the highest source present (R122). -/
def supplySource (s : State) : Nat :=
  if s.lan.extSupply then 0 else if s.lan.harvest && s.rdB Fld.POWER_CFG_HARV_EN then 1 else if s.rdB Fld.LAN_STATUS_CELL_CONN then 2 else 3

theorem supplySource_lt (s : State) : supplySource s < 4 := by
  unfold supplySource
  split
  · decide
  · split
    · decide
    · split <;> decide

theorem supplyEval_eq (s : State) : supplyEval s = s.wr Fld.LAN_STATUS_SUPPLY (supplySource s) := rfl

theorem supplyEval_supply (s : State) : (supplyEval s).rd Fld.LAN_STATUS_SUPPLY = supplySource s := by
  rw [supplyEval_eq, rd_wr_same _ _ _ (by decide)]
  exact Nat.mod_eq_of_lt (supplySource_lt s)

theorem supplyEval_rest (s : State) : supplyEval s = { s with regs := (supplyEval s).regs } := rfl

theorem reg_supplyEval (s : State) {a : Nat} (h : a ≠ Reg.LAN_STATUS) : (supplyEval s).reg a = s.reg a := reg_wr_ne s _ (Ne.symm h)

/-- SUPPLY is all that follows a change of the Lantern's sources. -/
theorem supplyEval_with_lan_regs (s : State) (n : Lantern) : RegsKept [Reg.LAN_STATUS] s (supplyEval { s with lan := n }) := by
  intro a ha
  rw [reg_supplyEval _ (by simpa using ha), reg_with_lan]

/-! ### The harvest boost -/

theorem exec_boostTakeover (s : State) :
    exec .boostTakeover s = runLan (fun s => if s.rdB Fld.POWER_CFG_HARV_EN then
      supplyEval { s with lan := { s.lan with boostOn := true, harvest := true } } else s) s := rfl

theorem boostTakeover_takes {s : State} (hs : s.lan.mode ≠ .stopped) (h : s.rdB Fld.POWER_CFG_HARV_EN = true) :
    Does .boostTakeover s fun t =>
      t.rd Fld.LAN_STATUS_SUPPLY = (if s.lan.extSupply then 0 else 1) ∧
      t = { s with cycle := s.cycle + 1, regs := t.regs, lan := { s.lan with boostOn := true, harvest := true } } ∧
      RegsKept [Reg.LAN_STATUS] s t := by
  refine does_runLan (exec_boostTakeover s) hs ?_
  rw [if_pos (show State.rdB { s with cycle := s.cycle + 1 } Fld.POWER_CFG_HARV_EN = true from h)]
  refine ⟨?_, supplyEval_rest _, supplyEval_with_lan_regs _ _⟩
  rw [supplyEval_supply]
  change (if s.lan.extSupply then 0 else if true && s.rdB Fld.POWER_CFG_HARV_EN then 1 else _) = _
  rw [h]
  rfl

theorem boostTakeover_nothing {s : State} (h : s.rdB Fld.POWER_CFG_HARV_EN = false) :
    Does .boostTakeover s fun t => t = { s with cycle := s.cycle + 1 } :=
  does_runLan_nothing (exec_boostTakeover s) (if_neg (by rw [← Bool.not_eq_true] at h; exact h)) rfl

/-- The boost has measured the open-circuit voltage of the TEG and runs on, at half of it (R125). -/
def ocvHeld (ocv : Nat) (s : State) : State := { s with lan := { s.lan with tegOcv := ocv, tegHold := ocv / 2 } }

/-- The boost has measured less than it can run on, and stops. -/
def ocvLost (ocv : Nat) (s : State) : State :=
  supplyEval { s with lan := { s.lan with tegOcv := ocv, tegHold := 0, boostOn := false, harvest := false } }

theorem exec_harvestOcvMeasure (ocv : Nat) (s : State) :
    exec (.harvestOcvMeasure ocv) s = runLan (fun s => if s.rdB Fld.POWER_CFG_HARV_EN && s.lan.boostOn then
      (if 1000 ≤ ocv / 2 then ocvHeld ocv s else ocvLost ocv s) else s) s := rfl

theorem harvestOcvMeasure_measures (ocv : Nat) {s : State} (hs : s.lan.mode ≠ .stopped) (h : s.rdB Fld.POWER_CFG_HARV_EN = true)
    (hb : s.lan.boostOn = true) :
    Does (.harvestOcvMeasure ocv) s fun t =>
      t.lan = (if 1000 ≤ ocv / 2 then { s.lan with tegOcv := ocv, tegHold := ocv / 2 }
        else { s.lan with tegOcv := ocv, tegHold := 0, boostOn := false, harvest := false }) ∧
      t = { s with cycle := s.cycle + 1, regs := t.regs, lan := t.lan } ∧ RegsKept [Reg.LAN_STATUS] s t := by
  have hrun : (State.rdB { s with cycle := s.cycle + 1 } Fld.POWER_CFG_HARV_EN && s.lan.boostOn) = true := by
    rw [hb, Bool.and_true]
    exact h
  refine does_runLan (exec_harvestOcvMeasure ocv s) hs ?_
  rw [if_pos hrun]
  by_cases hv : 1000 ≤ ocv / 2
  · rw [if_pos hv, if_pos hv]
    exact ⟨rfl, rfl, fun _ _ => rfl⟩
  · rw [if_neg hv, if_neg hv]
    exact ⟨rfl, rfl, supplyEval_with_lan_regs _ _⟩

theorem harvestOcvMeasure_nothing (ocv : Nat) {s : State} (h : s.rdB Fld.POWER_CFG_HARV_EN = false ∨ s.lan.boostOn = false) :
    Does (.harvestOcvMeasure ocv) s fun t => t = { s with cycle := s.cycle + 1 } := by
  have hrun : (State.rdB { s with cycle := s.cycle + 1 } Fld.POWER_CFG_HARV_EN && s.lan.boostOn) = false := by
    rcases h with h | h
    · exact Bool.and_eq_false_imp.2 fun hon => absurd (h.symm.trans hon) Bool.false_ne_true
    · rw [h, Bool.and_false]
  exact does_runLan_nothing (exec_harvestOcvMeasure ocv s) (if_neg (hrun ▸ Bool.false_ne_true)) rfl

/-! ### Sources come and go -/

/-- The power of the TEG reaches the boost, which runs as HARV_EN says (R125). -/
def boostRuns (harv : Bool) (s : State) : Bool := harv && s.rdB Fld.POWER_CFG_HARV_EN

/-- External supply and the TEG as they now are. -/
def sourcesSeen (ext harv : Bool) (s : State) : State :=
  supplyEval { s with lan := { s.lan with extSupply := ext, harvest := harv, boostOn := boostRuns harv s,
                                          tegHold := if boostRuns harv s then s.lan.tegHold else 0 } }

/-- A source other than the cell brings a Lantern that CELL_LOW sent to Dormant back to Bivouac (R139). -/
def comesBack (ext harv : Bool) (s : State) : Bool := decide (s.lan.mode = .dormant) && s.lan.cellDorm && (ext || boostRuns harv s)

theorem exec_lanternSupplyChange (ext harv : Bool) (s : State) :
    exec (.lanternSupplyChange ext harv) s = runLan (fun s =>
      if s.lan.mode = .dormant ∧ s.lan.cellDorm = true ∧ (ext || boostRuns harv s) = true then
        { sourcesSeen ext harv s with lan :=
          { (sourcesSeen ext harv s).lan with mode := .bivouac, cellDorm := false, cellLowLogged := false } }
      else sourcesSeen ext harv s) s := rfl

theorem sourcesSeen_supply (ext harv : Bool) (s : State) : (sourcesSeen ext harv s).rd Fld.LAN_STATUS_SUPPLY =
    if ext then 0 else if boostRuns harv s then 1 else if s.rdB Fld.LAN_STATUS_CELL_CONN then 2 else 3 := by
  rw [sourcesSeen, supplyEval_supply]
  rfl

theorem comesBack_iff (ext harv : Bool) (s : State) :
    (s.lan.mode = .dormant ∧ s.lan.cellDorm = true ∧ (ext || boostRuns harv s) = true) ↔ comesBack ext harv s = true := by
  simp [comesBack, and_assoc]

theorem lanternSupplyChange_changes (ext harv : Bool) {s : State} (hs : s.lan.mode ≠ .stopped) :
    Does (.lanternSupplyChange ext harv) s fun t =>
      t.rd Fld.LAN_STATUS_SUPPLY = (if ext then 0 else if boostRuns harv s then 1 else if s.rdB Fld.LAN_STATUS_CELL_CONN then 2 else 3) ∧
      t = { s with cycle := s.cycle + 1, regs := t.regs, lan :=
        { s.lan with extSupply := ext, harvest := harv, boostOn := boostRuns harv s, tegHold := (if boostRuns harv s then s.lan.tegHold else 0),
                     mode := (if comesBack ext harv s then .bivouac else s.lan.mode), cellDorm := s.lan.cellDorm && !comesBack ext harv s,
                     cellLowLogged := s.lan.cellLowLogged && !comesBack ext harv s } } ∧
      RegsKept [Reg.LAN_STATUS] s t := by
  have hsupply := sourcesSeen_supply ext harv { s with cycle := s.cycle + 1 }
  have hregs : RegsKept [Reg.LAN_STATUS] s (sourcesSeen ext harv { s with cycle := s.cycle + 1 }) := supplyEval_with_lan_regs _ _
  have hback := comesBack_iff ext harv { s with cycle := s.cycle + 1 }
  refine does_runLan (exec_lanternSupplyChange ext harv s) hs ?_
  cases hc : comesBack ext harv s with
  | true =>
    rw [if_pos (hback.2 hc)]
    simp only [if_true, Bool.not_true, Bool.and_false]
    exact ⟨hsupply, rfl, hregs⟩
  | false =>
    rw [if_neg (fun h => Bool.false_ne_true (hc.symm.trans (hback.1 h)))]
    simp only [Bool.false_eq_true, if_false, Bool.not_false, Bool.and_true]
    exact ⟨hsupply, rfl, hregs⟩

/-! ### The cell switch -/

/-- The log that an event leaves depends on the log, the mode, ring time, and whether that is synchronised. -/
theorem logEv_log_congr {s t : State} (source code datum : Nat) (ht : t = { s with regs := t.regs, lan := t.lan }) (hm : t.mainOn = s.mainOn)
    (hsync : t.reg Reg.TIME_SYNC = s.reg Reg.TIME_SYNC) : (t.logEv source code datum).log = (s.logEv source code datum).log := by
  have hlog : t.log = s.log := by rw [ht]
  have htime : t.time = s.time := by rw [ht]
  have hcycle : t.cycle = s.cycle := by rw [ht]
  have hentry : t.logEntry source code datum none = s.logEntry source code datum none := by
    rw [State.logEntry, State.logEntry, hm, hcycle, State.fn, State.fn, htime, State.unsynced, State.unsynced, rdB_eq, rdB_eq,
      rd_congr Fld.TIME_SYNC_UNSYNCED hsync]
  rw [State.logEv, State.logEv, hentry]
  exact enqueue_log_congr hlog hm

/-- The cell switch has moved and its entry is made; the source that carries VDD_LAN follows. -/
def switchLogged (code datum : Nat) (u : State) : State := supplyEval (u.logEv 0x00 code datum)

section
variable {s u : State} (code datum : Nat) (hu : u = { s with regs := u.regs }) (hregs : RegsKept [Reg.LAN_STATUS, Reg.LAN_EVENTS] s u)

theorem switchLogged_rd {f : FRef} (hf : f.ok) (hs : f.hi < 30) (hl : f.addr ≠ Reg.LOG_STATUS) :
    (switchLogged code datum u).rd f = u.rd f := by
  rw [switchLogged, supplyEval_eq, rd_wr_disjoint _ _ _ _ (by decide) hf (.inl hs), rd_logEv _ _ _ _ _ hl]

theorem switchLogged_reg {a : Nat} (hs : a ≠ Reg.LAN_STATUS) (hl : a ≠ Reg.LOG_STATUS) : (switchLogged code datum u).reg a = u.reg a := by
  rw [switchLogged, reg_supplyEval _ hs, reg_logEv _ _ _ _ hl]

include hu

theorem switchLogged_rest : switchLogged code datum u =
    { s with regs := (switchLogged code datum u).regs, log := (switchLogged code datum u).log } := by
  have h1 : switchLogged code datum u = { u with regs := (switchLogged code datum u).regs, log := (switchLogged code datum u).log } := by
    have h := logEv_spec u 0x00 code datum
    unfold switchLogged
    generalize u.logEv 0x00 code datum = t at h ⊢
    rw [supplyEval_rest, h]
  generalize switchLogged code datum u = t at h1 ⊢
  rw [hu] at h1
  exact h1

include hregs

theorem switchLogged_log : (switchLogged code datum u).log = (s.logEv 0x00 code datum).log := by
  have hlan : u.lan = s.lan := by rw [hu]
  rw [switchLogged, supplyEval_eq, wr_log]
  refine logEv_log_congr _ _ _ ?_ (by rw [State.mainOn, hlan, State.mainOn]) (hregs _ (by decide))
  rw [hlan]
  exact hu

theorem switchLogged_supply : (switchLogged code datum u).rd Fld.LAN_STATUS_SUPPLY =
    if s.lan.extSupply then 0 else if s.lan.harvest && s.rdB Fld.POWER_CFG_HARV_EN then 1
    else if u.rdB Fld.LAN_STATUS_CELL_CONN then 2 else 3 := by
  have hlan : (u.logEv 0x00 code datum).lan = s.lan := by rw [logEv_lan, hu]
  have hharv : (u.logEv 0x00 code datum).rd Fld.POWER_CFG_HARV_EN = s.rd Fld.POWER_CFG_HARV_EN := by
    rw [rd_logEv _ _ _ _ _ (by decide), rd_congr _ (hregs _ (by decide))]
  rw [switchLogged, supplyEval_supply, supplySource, hlan, rdB_eq, rdB_eq, hharv, rd_logEv _ _ _ _ _ (by decide), rdB_eq, rdB_eq]

end

/-- The cell switch open, with its event. -/
def cellOpened (s : State) : State := (s.wr Fld.LAN_STATUS_CELL_CONN 0).wr Fld.LAN_EVENTS_CELL_UV 1

/-- The cell switch opens below UVD. -/
def opens (vcell : Nat) (s : State) : Bool := s.rdB Fld.LAN_STATUS_CELL_CONN && decide (vcell < uvdMv s)

/-- The cell switch closes again 0.30 V above UVD. -/
def closes (vcell : Nat) (s : State) : Bool :=
  !s.rdB Fld.LAN_STATUS_CELL_CONN && s.rdB Fld.POWER_CFG_CELL_TYPE && decide (uvdMv s + 300 ≤ vcell)

theorem exec_cellUv (vcell : Nat) (s : State) :
    exec (.cellUv vcell) s = run (fun s => if opens vcell s then
      (if s.lan.mode = .stopped then s.wr Fld.LAN_STATUS_CELL_CONN 0 else switchLogged 0x0004 vcell (cellOpened s)) else s) s := rfl

theorem exec_cellReconnect (vcell : Nat) (s : State) :
    exec (.cellReconnect vcell) s = run (fun s => if closes vcell s then
      (if s.lan.mode = .stopped then s.wr Fld.LAN_STATUS_CELL_CONN 1 else switchLogged 0x0005 0 (s.wr Fld.LAN_STATUS_CELL_CONN 1))
      else s) s := rfl

theorem opens_iff (vcell : Nat) (s : State) : opens vcell s = true ↔ s.rdB Fld.LAN_STATUS_CELL_CONN = true ∧ vcell < uvdMv s := by
  simp [opens]

theorem closes_iff (vcell : Nat) (s : State) : closes vcell s = true ↔
    s.rdB Fld.LAN_STATUS_CELL_CONN = false ∧ s.rdB Fld.POWER_CFG_CELL_TYPE = true ∧ uvdMv s + 300 ≤ vcell := by
  simp [closes, and_assoc]

theorem cellOpened_rest (s : State) : cellOpened s = { s with regs := (cellOpened s).regs } := by simp only [cellOpened, State.wr, State.setReg]

theorem cellOpened_regs (s : State) : RegsKept [Reg.LAN_STATUS, Reg.LAN_EVENTS] s (cellOpened s) := by
  intro a ha
  simp only [List.mem_cons, List.not_mem_nil, or_false, not_or] at ha
  obtain ⟨hstatus, hevents⟩ := ha
  rw [cellOpened, reg_wr_ne _ _ (Ne.symm hevents), reg_wr_ne _ _ (Ne.symm hstatus)]

theorem cellOpened_conn (s : State) : (cellOpened s).rd Fld.LAN_STATUS_CELL_CONN = 0 := by
  rw [cellOpened, rd_wr_ne _ _ _ _ (by decide), rd_wr_same _ _ _ (by decide)]
  rfl

theorem cellOpened_event (s : State) : (cellOpened s).rd Fld.LAN_EVENTS_CELL_UV = 1 := by
  rw [cellOpened, rd_wr_same _ _ _ (by decide)]
  rfl

theorem wr_cell_regs (s : State) (v : Nat) : RegsKept [Reg.LAN_STATUS] s (s.wr Fld.LAN_STATUS_CELL_CONN v) := by
  intro a ha
  exact reg_wr_ne s v (by simpa using Ne.symm (show ¬a = Reg.LAN_STATUS by simpa using ha))

theorem cellUv_opens {vcell : Nat} {s : State} (hs : s.lan.mode ≠ .stopped) (h : opens vcell s = true) :
    Does (.cellUv vcell) s fun t =>
      t.rd Fld.LAN_STATUS_CELL_CONN = 0 ∧ t.rd Fld.LAN_EVENTS_CELL_UV = 1 ∧ Logged 0x00 0x0004 vcell s t ∧
      t.rd Fld.LAN_STATUS_SUPPLY = (if s.lan.extSupply then 0 else if s.lan.harvest && s.rdB Fld.POWER_CFG_HARV_EN then 1 else 3) ∧
      t = { s with cycle := s.cycle + 1, regs := t.regs, log := t.log } ∧ RegsKept [Reg.LAN_STATUS, Reg.LAN_EVENTS, Reg.LOG_STATUS] s t := by
  have hopen : opens vcell { s with cycle := s.cycle + 1 } = true := h
  refine does_run (exec_cellUv vcell s) ?_
  rw [if_pos hopen, if_neg hs]
  have hrest := cellOpened_rest { s with cycle := s.cycle + 1 }
  have hregs := cellOpened_regs { s with cycle := s.cycle + 1 }
  have hconn := cellOpened_conn { s with cycle := s.cycle + 1 }
  have hevent := cellOpened_event { s with cycle := s.cycle + 1 }
  generalize cellOpened { s with cycle := s.cycle + 1 } = u at hrest hregs hconn hevent ⊢
  refine ⟨?_, ?_, switchLogged_log _ _ hrest hregs, ?_, switchLogged_rest _ _ hrest, fun a ha => ?_⟩
  · rw [switchLogged_rd _ _ (by decide) (by decide) (by decide), hconn]
  · rw [switchLogged_rd _ _ (by decide) (by decide) (by decide), hevent]
  · rw [switchLogged_supply _ _ hrest hregs, rdB_eq u, hconn]
    rfl
  · simp only [List.mem_cons, List.not_mem_nil, or_false, not_or] at ha
    obtain ⟨hstatus, hevents, hlog⟩ := ha
    exact (switchLogged_reg _ _ hstatus hlog).trans (hregs a (by simp [hstatus, hevents]))

theorem cellUv_nothing {vcell : Nat} {s : State} (h : opens vcell s = false) :
    Does (.cellUv vcell) s fun t => t = { s with cycle := s.cycle + 1 } :=
  does_run (exec_cellUv vcell s) (if_neg (show ¬opens vcell s = true from h ▸ Bool.false_ne_true))

/-- The switch of a stopped Lantern works, and nothing is flagged or logged. -/
theorem cellUv_stopped {vcell : Nat} {s : State} (hs : s.lan.mode = .stopped) (h : opens vcell s = true) :
    Does (.cellUv vcell) s fun t =>
      t.rd Fld.LAN_STATUS_CELL_CONN = 0 ∧ t = { s with cycle := s.cycle + 1, regs := t.regs } ∧ RegsKept [Reg.LAN_STATUS] s t := by
  have hopen : opens vcell { s with cycle := s.cycle + 1 } = true := h
  refine does_run (exec_cellUv vcell s) ?_
  rw [if_pos hopen, if_pos hs]
  exact ⟨rd_wr_same _ _ _ (by decide), rfl, wr_cell_regs _ _⟩

theorem cellReconnect_closes {vcell : Nat} {s : State} (hs : s.lan.mode ≠ .stopped) (h : closes vcell s = true) :
    Does (.cellReconnect vcell) s fun t =>
      t.rd Fld.LAN_STATUS_CELL_CONN = 1 ∧ Logged 0x00 0x0005 0 s t ∧
      t.rd Fld.LAN_STATUS_SUPPLY = (if s.lan.extSupply then 0 else if s.lan.harvest && s.rdB Fld.POWER_CFG_HARV_EN then 1 else 2) ∧
      t = { s with cycle := s.cycle + 1, regs := t.regs, log := t.log } ∧ RegsKept [Reg.LAN_STATUS, Reg.LOG_STATUS] s t := by
  have hclose : closes vcell { s with cycle := s.cycle + 1 } = true := h
  refine does_run (exec_cellReconnect vcell s) ?_
  rw [if_pos hclose, if_neg hs]
  have hkept := wr_cell_regs { s with cycle := s.cycle + 1 } 1
  have hrest : State.wr { s with cycle := s.cycle + 1 } Fld.LAN_STATUS_CELL_CONN 1 =
    { s with cycle := s.cycle + 1, regs := (State.wr { s with cycle := s.cycle + 1 } Fld.LAN_STATUS_CELL_CONN 1).regs } := rfl
  have hconn : (State.wr { s with cycle := s.cycle + 1 } Fld.LAN_STATUS_CELL_CONN 1).rd Fld.LAN_STATUS_CELL_CONN = 1 :=
    rd_wr_same _ _ _ (by decide)
  generalize State.wr { s with cycle := s.cycle + 1 } Fld.LAN_STATUS_CELL_CONN 1 = u at hkept hrest hconn ⊢
  have hregs : RegsKept [Reg.LAN_STATUS, Reg.LAN_EVENTS] { s with cycle := s.cycle + 1 } u := fun a ha =>
    hkept a (fun h => ha (List.mem_cons.2 (.inl (List.mem_singleton.1 h))))
  refine ⟨?_, switchLogged_log (s := { s with cycle := s.cycle + 1 }) _ _ hrest hregs, ?_,
    switchLogged_rest (s := { s with cycle := s.cycle + 1 }) _ _ hrest, fun a ha => ?_⟩
  · rw [switchLogged_rd _ _ (by decide) (by decide) (by decide), hconn]
  · rw [switchLogged_supply (s := { s with cycle := s.cycle + 1 }) _ _ hrest hregs, rdB_eq u, hconn]
    rfl
  · simp only [List.mem_cons, List.not_mem_nil, or_false, not_or] at ha
    obtain ⟨hstatus, hlog⟩ := ha
    exact (switchLogged_reg _ _ hstatus hlog).trans (hkept a (by simp [hstatus]))

theorem cellReconnect_nothing {vcell : Nat} {s : State} (h : closes vcell s = false) :
    Does (.cellReconnect vcell) s fun t => t = { s with cycle := s.cycle + 1 } :=
  does_run (exec_cellReconnect vcell s) (if_neg (show ¬closes vcell s = true from h ▸ Bool.false_ne_true))

theorem cellReconnect_stopped {vcell : Nat} {s : State} (hs : s.lan.mode = .stopped) (h : closes vcell s = true) :
    Does (.cellReconnect vcell) s fun t =>
      t.rd Fld.LAN_STATUS_CELL_CONN = 1 ∧ t = { s with cycle := s.cycle + 1, regs := t.regs } ∧ RegsKept [Reg.LAN_STATUS] s t := by
  have hclose : closes vcell { s with cycle := s.cycle + 1 } = true := h
  refine does_run (exec_cellReconnect vcell s) ?_
  rw [if_pos hclose, if_pos hs]
  exact ⟨rd_wr_same _ _ _ (by decide), rfl, wr_cell_regs _ _⟩

end Sys2Proof.Machine
end

