-- ==== Sys2Proof/Proofs/Charger.lean ====
section
/-!
PROOFS. Proofs/Charger.lean: the phases of the cell's charger, what it draws, its faults and its restart (R126), and the obligation on the
Lantern's supplies.
-/
namespace Sys2Proof.Machine

/-! ### The next phase -/

/-- Where a charge goes from each phase, and where a charger that is off or done begins again. -/
def phaseFrom (s : State) (vcell icell : Nat) : Nat → Nat
  | 0 => if s.lan.chgDone = true ∧ vchgMv s ≤ vcell + 100 then 0 else firstPhase s vcell
  | 1 => if 2700 ≤ vcell then 2 else 1
  | 2 => if vchgMv s ≤ vcell then 3 else if vcell < 2500 then 1 else 2
  | _ => if 10 * icell < 5 * s.rd Fld.POWER_CFG_ICHG then 0 else 3

section
variable {s : State} {vcell icell vlan : Nat}

theorem nextPhase_off (h : chargerOk s = false) : nextPhase s vcell icell vlan = 0 := if_pos h

/-- While VDD_LAN is below 3.05 V the charger keeps its phase. -/
theorem nextPhase_low (h : chargerOk s = true) (hv : vlan < 3050) : nextPhase s vcell icell vlan = s.rd Fld.LAN_STATUS_CHG_PHASE := by
  rw [nextPhase, if_neg (by rw [h]; decide), if_pos hv]

/-- A charger that may run and is fed goes on from its phase. -/
theorem nextPhase_runs (h : chargerOk s = true) (hv : 3050 ≤ vlan) :
    nextPhase s vcell icell vlan = phaseFrom s vcell icell (s.rd Fld.LAN_STATUS_CHG_PHASE) := by
  rw [nextPhase, if_neg (by rw [h]; decide), if_neg (Nat.not_lt.2 hv)]
  rfl

variable (h : chargerOk s = true) (hv : 3050 ≤ vlan)
include h hv

/-- A charger that is done rests until the cell is more than 0.10 V below VCHG. -/
theorem nextPhase_done (hp : s.rd Fld.LAN_STATUS_CHG_PHASE = 0) (hd : s.lan.chgDone = true) (hc : vchgMv s ≤ vcell + 100) :
    nextPhase s vcell icell vlan = 0 := by
  rw [nextPhase_runs h hv, hp]
  exact if_pos ⟨hd, hc⟩

theorem nextPhase_begins (hp : s.rd Fld.LAN_STATUS_CHG_PHASE = 0) (hd : s.lan.chgDone = false ∨ vcell + 100 < vchgMv s) :
    nextPhase s vcell icell vlan = firstPhase s vcell := by
  rw [nextPhase_runs h hv, hp]
  refine if_neg fun ⟨hdone, hcell⟩ => ?_
  rcases hd with hd | hd
  · exact Bool.false_ne_true (hd.symm.trans hdone)
  · omega

theorem nextPhase_precharge (hp : s.rd Fld.LAN_STATUS_CHG_PHASE = 1) : nextPhase s vcell icell vlan = if 2700 ≤ vcell then 2 else 1 := by
  rw [nextPhase_runs h hv, hp]
  rfl

theorem nextPhase_current (hp : s.rd Fld.LAN_STATUS_CHG_PHASE = 2) (hc : 2700 ≤ vcell) :
    nextPhase s vcell icell vlan = if vchgMv s ≤ vcell then 3 else 2 := by
  rw [nextPhase_runs h hv, hp, phaseFrom, if_neg (show ¬vcell < 2500 by omega)]

theorem nextPhase_voltage (hp : s.rd Fld.LAN_STATUS_CHG_PHASE = 3) :
    nextPhase s vcell icell vlan = if 10 * icell < 5 * s.rd Fld.POWER_CFG_ICHG then 0 else 3 := by
  rw [nextPhase_runs h hv, hp]
  rfl

end

theorem firstPhase_le (s : State) (vcell : Nat) : firstPhase s vcell ≤ 3 := by
  unfold firstPhase
  split
  · decide
  · split <;> decide

/-- A charge begins with the precharge of a cell below 2.70 V. -/
theorem firstPhase_precharge {vcell : Nat} (s : State) (h : vcell < 2700) : firstPhase s vcell = 1 := if_pos h

theorem firstPhase_current {vcell : Nat} {s : State} (h : 2700 ≤ vcell) (hc : vcell < vchgMv s) : firstPhase s vcell = 2 := by
  rw [firstPhase, if_neg (by omega), if_neg (by omega)]

theorem phaseFrom_lt (s : State) (vcell icell p : Nat) : phaseFrom s vcell icell p < 4 := by
  have hfirst := firstPhase_le s vcell
  unfold phaseFrom
  split
  · split <;> omega
  · split <;> decide
  · split
    · decide
    · split <;> decide
  · split <;> decide

/-- Every phase has a code of CHG_PHASE. -/
theorem nextPhase_lt (s : State) (vcell icell vlan : Nat) : nextPhase s vcell icell vlan < 4 := by
  have hp : s.rd Fld.LAN_STATUS_CHG_PHASE < 4 := rd_lt s _ (by decide)
  cases h : chargerOk s with
  | false => rw [nextPhase_off h]; decide
  | true =>
    by_cases hv : vlan < 3050
    · rwa [nextPhase_low h hv]
    · rw [nextPhase_runs h (Nat.not_lt.1 hv)]
      exact phaseFrom_lt ..

/-! ### A step of the charger -/

/-- The charger has taken the phase that its supplies give. -/
def charged (vcell icell vlan avail : Nat) (s : State) : State :=
  let p := nextPhase s vcell icell vlan
  State.wr { s with lan := { s.lan with
    chgDone := chargerOk s && decide (p = 0) && (s.lan.chgDone || decide (s.rd Fld.LAN_STATUS_CHG_PHASE = 3)),
    chgUa := chargeUa s p icell vlan avail } } Fld.LAN_STATUS_CHG_PHASE p

theorem exec_chargerPhase (vcell icell vlan avail : Nat) (s : State) :
    exec (.chargerPhase vcell icell vlan avail) s = runLan (charged vcell icell vlan avail) s := rfl

/-- A write of a field keeps the other bits of its register. -/
theorem bitsKept_wr (s : State) (f : FRef) (hf : f.ok) (v : Nat) : BitsKept f.addr [f] s (s.wr f v) := by
  intro n hn hout
  rw [reg_wr_same, FRef.bit_put f hf _ _ _ hn, if_neg]
  have := hout f List.mem_cons_self
  omega

section
variable (vcell icell vlan avail : Nat) (s : State)

theorem charged_phase : (charged vcell icell vlan avail s).rd Fld.LAN_STATUS_CHG_PHASE = nextPhase s vcell icell vlan := by
  rw [charged, rd_wr_same _ _ _ (by decide)]
  exact Nat.mod_eq_of_lt (nextPhase_lt s vcell icell vlan)

theorem charged_bits : BitsKept Reg.LAN_STATUS [Fld.LAN_STATUS_CHG_PHASE] s (charged vcell icell vlan avail s) :=
  bitsKept_wr _ Fld.LAN_STATUS_CHG_PHASE (by decide) _

theorem charged_regs : RegsKept [Reg.LAN_STATUS] s (charged vcell icell vlan avail s) := by
  intro a ha
  have hne : a ≠ Reg.LAN_STATUS := by simpa using ha
  rw [charged, reg_wr_ne _ _ (Ne.symm hne), reg_with_lan]

theorem charged_rest : charged vcell icell vlan avail s =
    { s with regs := (charged vcell icell vlan avail s).regs, lan := (charged vcell icell vlan avail s).lan } := rfl

end

/-! ### Faults and restart -/

/-- A cell or a die outside its limits stops the charger of a fitted cell. -/
def chargerTrips (vcell : Nat) (temp : Int) (s : State) : Bool := s.rdB Fld.POWER_CFG_CELL_TYPE && (cellOver s vcell || dieOut temp)

/-- The charger is stopped by a fault, which is shown. -/
def chargerStopped (s : State) : State :=
  (State.wr { s with lan := { s.lan with chgFault := true, chgDone := false, chgUa := 0 } } Fld.LAN_STATUS_CHG_PHASE 0).wr
    Fld.LAN_EVENTS_CHG_FAULT 1

theorem exec_chgFault (vcell : Nat) (temp : Int) (s : State) :
    exec (.chgFault vcell temp) s = runLan (fun s => if chargerTrips vcell temp s then
      (chargerStopped s).logEv 0x00 0x0007 (if cellOver s vcell then 1 else 2) else s) s := rfl

theorem exec_chgRestart (s : State) :
    exec .chgRestart s = runLan (fun s => { s with lan := { s.lan with chgFault := false } }) s := rfl

theorem chargerTrips_iff (vcell : Nat) (temp : Int) (s : State) : chargerTrips vcell temp s = true ↔
    s.rdB Fld.POWER_CFG_CELL_TYPE = true ∧ (vchgMv s + 150 < vcell ∨ temp < 0 ∨ 60 < temp) := by
  simp [chargerTrips, cellOver, dieOut]

theorem chargerStopped_rest (s : State) : chargerStopped s =
    { s with regs := (chargerStopped s).regs, lan := { s.lan with chgFault := true, chgDone := false, chgUa := 0 } } := by
  simp only [chargerStopped, State.wr, State.setReg]

theorem chargerStopped_regs (s : State) : RegsKept [Reg.LAN_STATUS, Reg.LAN_EVENTS] s (chargerStopped s) := by
  intro a ha
  simp only [List.mem_cons, List.not_mem_nil, or_false, not_or] at ha
  obtain ⟨hstatus, hevents⟩ := ha
  rw [chargerStopped, reg_wr_ne _ _ (Ne.symm hevents), reg_wr_ne _ _ (Ne.symm hstatus), reg_with_lan]

theorem chargerStopped_phase (s : State) : (chargerStopped s).rd Fld.LAN_STATUS_CHG_PHASE = 0 := by
  rw [chargerStopped, rd_wr_ne _ _ _ _ (by decide), rd_wr_same _ _ _ (by decide)]
  rfl

theorem chargerStopped_event (s : State) : (chargerStopped s).rd Fld.LAN_EVENTS_CHG_FAULT = 1 := by
  rw [chargerStopped, rd_wr_same _ _ _ (by decide)]
  rfl

theorem chgFault_stops {vcell : Nat} {temp : Int} {s : State} (hs : s.lan.mode ≠ .stopped) (h : chargerTrips vcell temp s = true) :
    Does (.chgFault vcell temp) s fun t =>
      t.rd Fld.LAN_STATUS_CHG_PHASE = 0 ∧ t.rd Fld.LAN_EVENTS_CHG_FAULT = 1 ∧ Logged 0x00 0x0007 (if vchgMv s + 150 < vcell then 1 else 2) s t ∧
      t = { s with cycle := s.cycle + 1, regs := t.regs, log := t.log, lan := { s.lan with chgFault := true, chgDone := false, chgUa := 0 } } ∧
      RegsKept [Reg.LAN_STATUS, Reg.LAN_EVENTS, Reg.LOG_STATUS] s t := by
  have htrips : chargerTrips vcell temp { s with cycle := s.cycle + 1 } = true := h
  have hdatum : (if cellOver { s with cycle := s.cycle + 1 } vcell then 1 else 2) = if vchgMv s + 150 < vcell then 1 else 2 := by
    change (if decide (vchgMv s + 150 < vcell) = true then 1 else 2) = _
    simp only [decide_eq_true_eq]
  refine does_runLan (exec_chgFault vcell temp s) hs ?_
  rw [if_pos htrips, hdatum]
  generalize (if vchgMv s + 150 < vcell then 1 else 2) = d
  have hrest := chargerStopped_rest { s with cycle := s.cycle + 1 }
  have hregs := chargerStopped_regs { s with cycle := s.cycle + 1 }
  have hphase := chargerStopped_phase { s with cycle := s.cycle + 1 }
  have hevent := chargerStopped_event { s with cycle := s.cycle + 1 }
  generalize chargerStopped { s with cycle := s.cycle + 1 } = u at hrest hregs hphase hevent ⊢
  have hlan : u.lan = { s.lan with chgFault := true, chgDone := false, chgUa := 0 } := by rw [hrest]
  refine ⟨?_, ?_, logEv_log_congr (s := { s with cycle := s.cycle + 1 }) _ _ _ ?_ ?_ (hregs _ (by decide)), ?_, fun a ha => ?_⟩
  · rw [rd_logEv _ _ _ _ _ (by decide), hphase]
  · rw [rd_logEv _ _ _ _ _ (by decide), hevent]
  · rw [hlan]
    exact hrest
  · rw [State.mainOn, hlan]
    rfl
  · have hlog := logEv_spec u 0x00 0x0007 d
    generalize u.logEv 0x00 0x0007 d = t at hlog ⊢
    rw [hrest] at hlog
    exact hlog
  · simp only [List.mem_cons, List.not_mem_nil, or_false, not_or] at ha
    obtain ⟨hstatus, hevents, hlog⟩ := ha
    exact (reg_logEv _ _ _ _ hlog).trans (hregs a (by simp [hstatus, hevents]))

theorem chgFault_nothing {vcell : Nat} {temp : Int} {s : State} (h : chargerTrips vcell temp s = false) :
    Does (.chgFault vcell temp) s fun t => t = { s with cycle := s.cycle + 1 } :=
  does_runLan_nothing (exec_chgFault vcell temp s) (if_neg (show ¬chargerTrips vcell temp s = true from h ▸ Bool.false_ne_true)) rfl

/-! ### The obligation -/

/-- Settles O14: the reset, the sources, the charger and the cell switch each by the rule of its command. -/
theorem lanternSuppliesAndCell : Obligations.LanternSuppliesAndCell := by
  unfold Obligations.LanternSuppliesAndCell
  refine ⟨fun s c low counts hs hc => lanternEvent_stopped hs (by simpa using hc), fun s => ?asserts, fun s src => ?starts,
    fun s hs h => boostTakeover_takes hs h, fun s h => boostTakeover_nothing h, fun s ocv hs h hb => harvestOcvMeasure_measures ocv hs h hb,
    fun s ext harv hs => lanternSupplyChange_changes ext harv hs, fun s ocv h => harvestOcvMeasure_nothing ocv h,
    fun s vcell icell vlan avail hs => ?charges, fun s vcell temp hs hcell h => chgFault_stops hs ((chargerTrips_iff ..).2 ⟨hcell, h⟩),
    fun s vcell temp h => chgFault_nothing ?noFault, fun s hs => does_runLan (exec_chgRestart s) hs rfl,
    fun s vcell hs hconn h => cellUv_opens hs ((opens_iff ..).2 ⟨hconn, h⟩), fun s vcell h => cellUv_nothing ?keptClosed,
    fun s vcell hs hconn hcell h => cellReconnect_closes hs ((closes_iff ..).2 ⟨hconn, hcell, h⟩), fun s vcell h => cellReconnect_nothing ?keptOpen,
    fun s vcell hs => ⟨fun hconn h => cellUv_stopped hs ((opens_iff ..).2 ⟨hconn, h⟩),
      fun hconn hcell h => cellReconnect_stopped hs ((closes_iff ..).2 ⟨hconn, hcell, h⟩)⟩⟩
  case asserts =>
    obtain ⟨mode, rtc, wakeOut, supply, ring, cell, reset, kept⟩ := lanternStopped_stops { s with cycle := s.cycle + 1 }
    refine does_run (exec_lanternResetAssert s) ⟨mode, by rw [State.mainOn, mode]; rfl, rtc, wakeOut, supply, ring, cell, fun a ha hpos => ?_,
      kept.cycle, kept.pending, kept.otp, kept.flash, kept.bus, kept.freeIx⟩
    exact reset _ (inLantern_offset ha) (by show 0x30000 + a ≠ 0x30000; omega)
  case starts =>
    obtain ⟨mode, rtc, coldSince, wakeOut, supply, rtcValid, orderly, count, entry, extSupply, harvest, cell, reset, kept⟩ :=
      coldStarted_starts src { s with cycle := s.cycle + 1 }
    refine does_run (exec_lanternColdStart src s) ⟨mode, rtc, coldSince, wakeOut, supply, rtcValid, orderly, count, entry, extSupply, harvest,
      cell, fun a ha hpos => ?_, kept.cycle, kept.pending, kept.otp, kept.flash, kept.bus, kept.freeIx⟩
    exact reset _ (inLantern_offset ha) (by show 0x30000 + a ≠ 0x30000; omega)
  case charges =>
    have hphase := charged_phase vcell icell vlan avail { s with cycle := s.cycle + 1 }
    refine does_runLan (exec_chargerPhase vcell icell vlan avail s) hs ?_
    refine ⟨fun h => ?_, fun h hv => ?_, fun h hv hp hd hc => ?_, fun h hv hp hd hc => ?_, fun h hv hp hd hc hlt => ?_, fun h hv hp => ?_,
      fun h hv hp hc => ?_, fun h hv hp => ?_, charged_bits vcell icell vlan avail _, ?_,
      charged_rest vcell icell vlan avail _, charged_regs vcell icell vlan avail _⟩
    · exact hphase.trans (nextPhase_off h)
    · exact hphase.trans (nextPhase_low h hv)
    · exact hphase.trans (nextPhase_done h hv hp hd hc)
    · exact hphase.trans ((nextPhase_begins h hv hp hd).trans (firstPhase_precharge _ (Nat.lt_trans hc (by decide))))
    · exact hphase.trans ((nextPhase_begins h hv hp hd).trans (firstPhase_current hc hlt))
    · exact hphase.trans (nextPhase_precharge h hv hp)
    · exact hphase.trans (nextPhase_current h hv hp hc)
    · exact hphase.trans (nextPhase_voltage h hv hp)
    · rw [hphase]
      rfl
  case noFault =>
    rw [← Bool.not_eq_true, chargerTrips_iff]
    rintro ⟨hcell, hout⟩
    rcases h with h | h
    · exact Bool.false_ne_true (h.symm.trans hcell)
    · omega
  case keptClosed =>
    rw [← Bool.not_eq_true, opens_iff]
    rintro ⟨hconn, hlow⟩
    rcases h with h | h
    · exact Bool.false_ne_true (h.symm.trans hconn)
    · omega
  case keptOpen =>
    rw [← Bool.not_eq_true, closes_iff]
    rintro ⟨hconn, hcell, hhigh⟩
    rcases h with h | h | h
    · exact Bool.false_ne_true (hconn.symm.trans h)
    · exact Bool.false_ne_true (h.symm.trans hcell)
    · omega

end Sys2Proof.Machine
end

