-- ==== Sys2Proof/Proofs/ImageCounterexamples.lean ====
section
/-!
PROOFS. Proofs/ImageCounterexamples.lean: states in which the statements about activations, about digest agreement, about counted settings and about
long operations fail.
-/
namespace Sys2Proof.Machine

/-! ### A missed activation under the last sequence number of the boot record -/

/-- The part of `lastRecordSeq`, synchronised, at frame 5, whose boot has found an activation pending for frame 0. -/
def missedAtLastSeq : State :=
  { lastRecordSeq.wr Fld.TIME_SYNC_UNSYNCED 0 with
    time := { lastRecordSeq.time with rt := 5 * frameNs }
    img := { lastRecordSeq.img with unresolved := true }
    flash := { lastRecordSeq.flash with rec0 := ⟨true, 2 ^ 32 - 1, .active, .staged, some ⟨1, 0, false, none⟩, false⟩ } }

theorem missedAtLastSeq_past : fnLater 0 missedAtLastSeq.fn = false ∧ 0 ≠ missedAtLastSeq.fn := by decide

set_option maxRecDepth 20000 in
/-- The miss erases the record in the other copy, under sequence number 0: the copy in use stays the one of before, with the activation pending. -/
theorem exec_pendingResolve_missedAtLastSeq :
    ∃ t, exec .pendingResolve missedAtLastSeq = .next t ∧ (liveRec t).pending ≠ none := ⟨_, rfl, by decide⟩

/-- Refutes O19: the sequence number of the boot record is modulo 2^32 (R168), and a missed activation leaves its pending record in use where the
number wraps. -/
theorem not_activations : ¬ Obligations.Activations := by
  rintro ⟨-, -, -, hresolve, -⟩
  obtain ⟨hpast, hne⟩ := missedAtLastSeq_past
  obtain ⟨t, ht, -, -, hmissed, -⟩ := hresolve missedAtLastSeq ⟨1, 0, false, none⟩ rfl (by decide) rfl rfl hne
  rw [hpast] at hmissed
  obtain ⟨-, -, herased⟩ := hmissed
  obtain ⟨t', ht', hpending⟩ := exec_pendingResolve_missedAtLastSeq
  cases ht'.symm.trans ht
  exact hpending herased

/-! ### A commit of EXP_DIGEST that needs the place kept for a counted setting -/

/-- A part with an OPERATOR session that has written EXP_DIGEST_0 to 2, a counted setting that is being programmed, and 60 entries in the change
queue. -/
def expDigestHeld : State :=
  let s : State :=
    { State.reset with
      lan := { State.reset.lan with mode := .mainOn }
      img := { State.reset.img with expHeld := [(0, some 1#32), (1, some 1#32), (2, some 1#32)] }
      otp := { State.reset.otp with programming := some ⟨0x104, 1, 0#256, 2, 1, 0x30, 4⟩ }
      clog := { State.reset.clog with queue := List.replicate 60 ⟨1, 0, 0, false, false, false, 1, 2, 4, 0, 0#128, 0#128⟩ } }
  (s.wr (Fld.CE_SESS_VALID 1) 1).wr (Fld.CE_SESS_ROLE 1) 1

theorem expDigestHeld_reached :
    Reaches expDigestHeld (.session 1) (Reg.EXP_DIGEST 3) ∧ expDigestHeld.roleOf (.session 1) = 1 ∧ expDigestHeld.clog.queue.length ≤ 60 := by
  decide

/-- Four words change, and three places are free beside the one that is kept for the setting (log entry 97): the commit answers BUSY (R196). -/
theorem exec_expDigestCommit_expDigestHeld :
    ∃ t, exec (.expDigestCommit (.session 1) 1#32) expDigestHeld = .next t ∧ t.bus.status = .busy := ⟨_, rfl, by decide⟩

/-- Refutes O20: a place of the change queue is kept while a counted setting is programmed, so 60 entries leave no room for the four words. -/
theorem not_digestAgreement : ¬ Obligations.DigestAgreement := by
  rintro ⟨-, -, -, -, hcommit, -⟩
  obtain ⟨hreaches, hrole, hqueue⟩ := expDigestHeld_reached
  obtain ⟨t, ht, -, hbus, -⟩ := hcommit expDigestHeld (.session 1) 1#32 hreaches hrole hqueue
  obtain ⟨t', ht', hbusy⟩ := exec_expDigestCommit_expDigestHeld
  cases ht'.symm.trans ht
  rw [hbus] at hbusy
  cases hbusy

/-! ### A grid code that CS_GRID cannot show -/

/-- A part that programs the grid code 16. -/
def gridCodeTooWide : State :=
  { State.reset with
    lan := { State.reset.lan with mode := .mainOn }
    otp := { State.reset.otp with programming := some ⟨0x100, 16, 0#256, 2, 1, 0x30, 4⟩ } }

set_option maxRecDepth 20000 in
/-- CODE of CS_GRID has four bits (R207) and shows 0. -/
theorem exec_otpProgramDone_gridCodeTooWide :
    ∃ t, exec (.otpProgramDone true) gridCodeTooWide = .next t ∧ t.rd Fld.CS_GRID_CODE = 0 ∧ t.otp.gridCode = 16 := ⟨_, rfl, by decide⟩

/-- Refutes O21: it has CS_GRID show the low eight bits of the grid code, whose field has four, and no hypothesis bounds the code. -/
theorem not_countedSettingsAndChangeLog : ¬ Obligations.CountedSettingsAndChangeLog := by
  rintro ⟨hdone, -⟩
  obtain ⟨t, ht, -, hshows, -⟩ := hdone gridCodeTooWide ⟨0x100, 16, 0#256, 2, 1, 0x30, 4⟩ rfl (.inl rfl) (by decide)
  obtain ⟨t', ht', hzero, hcode⟩ := exec_otpProgramDone_gridCodeTooWide
  cases ht'.symm.trans ht
  rw [hzero, hcode] at hshows
  cases hshows

/-! ### A slot that is begun under the last sequence number of the boot record -/

/-- A FLASH_WRITE of no bytes into slot B. -/
def emptyWrite : LongOp := { newOp 0x25 4 2 1 with slot := 1 }

/-- The part of `lastRecordSeq` with `emptyWrite` running as operation 3. -/
def emptyWriteAtLastSeq : State :=
  ({ lastRecordSeq with eng := { lastRecordSeq.eng with ops := [(3, some emptyWrite)] } }.wr (Fld.CE_OP_VALID 3) 1).wr (Fld.CE_OP_STATE 3) 1

theorem emptyWriteAtLastSeq_runs :
    emptyWriteAtLastSeq.op 3 = some emptyWrite ∧ opLive emptyWriteAtLastSeq 3 = true ∧ emptyWriteAtLastSeq.rd (Fld.CE_OP_STATE 3) = 1 := by
  decide

/-- Slot B may be written, and no bytes are no image. -/
theorem emptyWriteAtLastSeq_fails :
    slotFree 1 emptyWriteAtLastSeq = true ∧ verifyImage emptyWriteAtLastSeq.otp [] ≠ .ok := by decide

set_option maxRecDepth 20000 in
/-- The slot is marked in the other copy of the boot record, under sequence number 0: the copy in use stays the one of before, in which slot B is
STAGED. -/
theorem exec_flashWriteComplete_emptyWriteAtLastSeq :
    ∃ t, exec (.flashWriteComplete 3) emptyWriteAtLastSeq = .next t ∧ (liveRec t).slot 1 = .staged := ⟨_, rfl, by decide⟩

/-- Refutes O51: the sequence number of the boot record is modulo 2^32 (R168), and a slot whose writing fails is not EMPTY in the record in use
where the number wraps. -/
theorem not_longOperations : ¬ Obligations.LongOperations := by
  rintro ⟨-, -, -, -, -, -, -, -, -, -, -, hempty, -⟩
  obtain ⟨hop, hlive, hruns⟩ := emptyWriteAtLastSeq_runs
  obtain ⟨hfree, hfails⟩ := emptyWriteAtLastSeq_fails
  obtain ⟨-, hwrite⟩ := hempty emptyWriteAtLastSeq 3 emptyWrite hop hlive hruns rfl rfl
  obtain ⟨t, ht, -, hdropped, -⟩ := hwrite rfl (by decide)
  obtain ⟨-, hslot⟩ := hdropped hfree hfails
  obtain ⟨t', ht', hstaged⟩ := exec_flashWriteComplete_emptyWriteAtLastSeq
  cases ht'.symm.trans ht
  exact absurd (hstaged.symm.trans hslot) (by decide)

end Sys2Proof.Machine
end

