-- ==== Sys2Proof/Proofs/AdcRegisters.lean ====
section
/-!
PROOFS. Proofs/AdcRegisters.lean: what the registers of an ADC core read as after the operations on the core (R239 to R241, R249, R250).
-/
namespace Sys2Proof.Machine

/-! ### Two fields that share no bit -/

/-- Two fields share no bit of any register. -/
abbrev FRef.apart (f g : FRef) : Prop := f.addr ≠ g.addr ∨ g.hi < f.lo ∨ f.hi < g.lo

theorem rd_wr_apart (s : State) (f g : FRef) (v : Nat) (hf : f.ok) (hg : g.ok) (h : f.apart g) : (s.wr f v).rd g = s.rd g :=
  h.elim (rd_wr_ne s f g v) (rd_wr_disjoint s f g v hf hg)

/-- A write of one bit of a field keeps the other bits of its register. -/
theorem bitsKept_wrBit (s : State) (f : FRef) (hf : f.ok) (i : Nat) (b : Bool) :
    BitsKept f.addr [⟨f.addr, f.lo + i, f.lo + i⟩] s (s.wrBit f i b) := by
  intro n hn hout
  have hne : n ≠ f.lo + i := by
    have := hout _ List.mem_cons_self
    dsimp only at this
    omega
  rw [wrBit_eq, reg_wr_same, FRef.bit_put f hf _ _ _ hn]
  split
  · next hin =>
    rw [setBitOf_testBit, if_neg (by omega), State.rd, FRef.testBit_get f hf, Nat.add_sub_cancel' hin.1,
      decide_eq_true (by unfold FRef.width; omega), Bool.true_and]
  · rfl

/-! ### The registers of the cores are distinct -/

theorem adcReg_ne {c d i j : Nat} (hi : i < 0x1000) (hj : j < 0x1000) (h : c ≠ d ∨ i ≠ j) : Reg.adcBase c + i ≠ Reg.adcBase d + j := by
  unfold Reg.adcBase
  split <;> split <;> omega

theorem adcReg_ne_log (c i : Nat) : Reg.adcBase c + i ≠ Reg.LOG_STATUS := by
  have := adcBase_ge c
  simp only [Reg.LOG_STATUS, ne_eq]
  omega

/-! ### What the operations of the cores leave alone -/

/-- `t` differs from `s` at most in the registers of a list, the cores, the log and the counters. -/
structure AdcFrame (l : List Nat) (s t : State) : Prop where
  rest : t = { s with regs := t.regs, log := t.log, perf := t.perf, adc := t.adc }
  regs : RegsKept l s t

theorem AdcFrame.refl (l : List Nat) (s : State) : AdcFrame l s s := ⟨rfl, fun _ _ => rfl⟩

theorem AdcFrame.trans {l : List Nat} {r s t : State} (h : AdcFrame l r s) (k : AdcFrame l s t) : AdcFrame l r t := by
  refine ⟨?_, fun a ha => (k.regs a ha).trans (h.regs a ha)⟩
  have hs := h.rest
  have ht := k.rest
  rw [hs] at ht
  exact ht

theorem AdcFrame.mono {l m : List Nat} {s t : State} (h : AdcFrame l s t) (hlm : ∀ a ∈ l, a ∈ m) : AdcFrame m s t :=
  ⟨h.rest, fun a ha => h.regs a (fun hl => ha (hlm a hl))⟩

theorem AdcFrame.rd {l : List Nat} {s t : State} (h : AdcFrame l s t) {f : FRef} (hf : f.addr ∉ l) : t.rd f = s.rd f := rd_congr f (h.regs _ hf)

section
variable {l : List Nat} {r s : State} (h : AdcFrame l r s)
include h

theorem AdcFrame.wr {f : FRef} {v : Nat} (hf : f.addr ∈ l) : AdcFrame l r (s.wr f v) :=
  h.trans ⟨rfl, fun _ ha => reg_wr_ne s v (fun he => ha (he ▸ hf))⟩

theorem AdcFrame.putCore {c : Nat} {q : AdcCore} : AdcFrame l r (s.putCore c q) := h.trans ⟨rfl, fun _ _ => rfl⟩

theorem AdcFrame.setCore {c : Nat} {q : AdcCore} (hs : Reg.ADC_CORE_STATUS c ∈ l) (ht : Reg.ADC_SW_TRIG c ∈ l) : AdcFrame l r (s.setCore c q) :=
  setCore_rule s c q h.putCore (fun _ _ _ hf _ k => k.wr (hf ▸ hs)) (fun _ _ k => k.wr ht)

theorem AdcFrame.logOnce {source code unit datum : Nat} (hl : Reg.LOG_STATUS ∈ l) : AdcFrame l r (s.logOnce source code unit datum) := by
  have hlog := logOnce_spec s source code unit datum
  refine h.trans ⟨?_, fun a ha => reg_logOnce s _ _ _ _ (fun he => ha (he ▸ hl))⟩
  generalize s.logOnce source code unit datum = t at hlog
  rw [hlog]

theorem AdcFrame.countEv {event unit n : Nat} : AdcFrame l r (countEv event unit n s) := by
  have hc := countEv_spec event unit n s
  generalize Machine.countEv event unit n s = t at hc
  rw [hc]
  exact h.trans ⟨rfl, fun _ _ => rfl⟩

theorem AdcFrame.when {f : State → State} (b : Bool) (hf : AdcFrame l r (f s)) : AdcFrame l r (when b f s) := by
  cases b with
  | true => exact hf
  | false => exact h

theorem AdcFrame.forEach {f : Nat → State → State} {is : List Nat} (hf : ∀ i ∈ is, ∀ {s : State}, AdcFrame l r s → AdcFrame l r (f i s)) :
    AdcFrame l r (forEach is f s) := by
  unfold Machine.forEach
  induction is generalizing s with
  | nil => exact h
  | cons i is ih =>
    rw [List.foldl_cons]
    exact ih (hf i List.mem_cons_self h) (fun j hj => hf j (List.mem_cons_of_mem _ hj))

end

/-! ### The store of a core -/

theorem reg_setCore (s : State) (c : Nat) (q : AdcCore) {a : Nat} (ha : a ∉ [Reg.ADC_CORE_STATUS c, Reg.ADC_SW_TRIG c]) :
    (s.setCore c q).reg a = s.reg a := ((AdcFrame.refl [Reg.ADC_CORE_STATUS c, Reg.ADC_SW_TRIG c] s).setCore (by simp) (by simp)).regs a ha

theorem core_setCore_ne (s : State) {c k : Nat} (q : AdcCore) (h : k ≠ c) : (s.setCore c q).core k = s.core k :=
  (SeqFrame.refl c s).setCore.cores k h

/-- Storing a core changes registers and cores alone. -/
theorem setCore_spec (s : State) (c : Nat) (q : AdcCore) :
    s.setCore c q = { s with regs := (s.setCore c q).regs, adc := (s.setCore c q).adc } := by
  have hwr {t : State} (f : FRef) (v : Nat) (h : t = { s with regs := t.regs, adc := t.adc }) :
      t.wr f v = { s with regs := (t.wr f v).regs, adc := (t.wr f v).adc } :=
    congrArg (fun u : State => { u with regs := (t.wr f v).regs }) h
  exact setCore_rule s c q (p := fun t => t = { s with regs := t.regs, adc := t.adc }) rfl (fun _ f v _ _ => hwr f v) (fun _ => hwr _)

theorem rdB_congr {s t : State} (f : FRef) (h : t.reg f.addr = s.reg f.addr) : t.rdB f = s.rdB f := by rw [State.rdB, rd_congr f h, State.rdB]

/-- STATE of core `c` once it has become `q` (R239). -/
def stateCode (s : State) (c : Nat) (q : AdcCore) : Nat :=
  if !s.rdB (Fld.ADC_CORE_CFG_EN c) then 0 else if !refOk s c then 3 else if q.running.isSome then 2 else 1

theorem stateCode_lt (s : State) (c : Nat) (q : AdcCore) : stateCode s c q < 4 := by
  unfold stateCode
  repeat' split
  all_goals decide

/-- STATE depends on the registers CORE_CFG of the core and REF_CFG of its group. -/
theorem stateCode_congr {s t : State} {c : Nat} (q : AdcCore) (hcfg : t.reg (Reg.ADC_CORE_CFG c) = s.reg (Reg.ADC_CORE_CFG c))
    (href : t.reg (Reg.ADC_REF_CFG (4 * (c / 4))) = s.reg (Reg.ADC_REF_CFG (4 * (c / 4)))) : stateCode t c q = stateCode s c q := by
  unfold stateCode refOk
  rw [rdB_congr (Fld.ADC_CORE_CFG_EN c) hcfg, rdB_congr (Fld.ADC_REF_CFG_REF_OK (4 * (c / 4))) href]

/-- The store of a core shows in a field of CORE_STATUS that does not speak of the running entry as STATE and QUEUED do. -/
theorem rd_setCore_status (s : State) (c : Nat) (q : AdcCore) {f : FRef} (hf : f.ok) (ha : f.addr = Reg.ADC_CORE_STATUS c)
    (hrun : (Fld.ADC_CORE_STATUS_URG_RUN c).apart f) (hentry : (Fld.ADC_CORE_STATUS_ENTRY c).apart f) :
    (s.setCore c q).rd f = ((s.wr (Fld.ADC_CORE_STATUS_STATE c) (stateCode s c q)).wr (Fld.ADC_CORE_STATUS_QUEUED c) q.queue.length).rd f := by
  unfold State.setCore
  extract_lets s1 st s2 s3
  have h3 : s3.rd f = s2.rd f := by
    unfold s3
    split
    · rw [wrB_eq, rd_wr_apart _ _ _ _ (by simp [FRef.ok]) hf hrun, rd_wr_apart _ _ _ _ (by simp [FRef.ok]) hf hentry]
    · exact rd_wr_apart _ _ _ _ (by simp [FRef.ok]) hf hrun
  rw [rd_wr_ne _ _ _ _ (by simp [ha]), h3]
  rfl

theorem rd_setCore_state (s : State) (c : Nat) (q : AdcCore) : (s.setCore c q).rd (Fld.ADC_CORE_STATUS_STATE c) = stateCode s c q := by
  rw [rd_setCore_status s c q (by simp [FRef.ok]) rfl (.inr (by simp)) (.inr (by simp)),
    rd_wr_apart _ _ _ _ (by simp [FRef.ok]) (by simp [FRef.ok]) (.inr (by simp)), rd_wr_same _ _ _ (by simp [FRef.ok])]
  exact Nat.mod_eq_of_lt (stateCode_lt s c q)

/-- Storing a core leaves OPEN. -/
theorem rd_setCore_open (s : State) (c : Nat) (q : AdcCore) :
    (s.setCore c q).rd (Fld.ADC_CORE_STATUS_OPEN c) = s.rd (Fld.ADC_CORE_STATUS_OPEN c) := by
  rw [rd_setCore_status s c q (by simp [FRef.ok]) rfl (.inr (by simp)) (.inr (by simp))]
  simp [rd_wr_apart, FRef.ok, FRef.apart]

end Sys2Proof.Machine
end

