-- ==== Sys2Proof/Proofs/ResultRegisters.lean ====
section
/-!
PROOFS. Proofs/ResultRegisters.lean: what the registers of an entry read as once its result is written (R223, R224, R230, R233).
-/
namespace Sys2Proof.Machine

/-! ### The registers of a result (R223, R224, R230) -/

/-- The registers that the end of entry `e` of core `c` writes (R239 to R241, R243, R249, R250). -/
def resultRegs (c e : Nat) : List Nat :=
  [Reg.ADC_CORE_STATUS c, Reg.ADC_ENTRY_EVENTS c, Reg.ADC_SW_TRIG c, Reg.LOG_STATUS, Reg.ADC_RESULT c e, Reg.ADC_NCOUNT c e]

section
variable (c e : Nat)

/-- Storing a core touches none of these registers. -/
theorem notMem_storeRegs :
    Reg.ADC_RESULT c e ∉ [Reg.ADC_CORE_STATUS c, Reg.ADC_SW_TRIG c] ∧ Reg.ADC_ENTRY_A c e ∉ [Reg.ADC_CORE_STATUS c, Reg.ADC_SW_TRIG c] ∧
    Reg.ADC_ENTRY_B c e ∉ [Reg.ADC_CORE_STATUS c, Reg.ADC_SW_TRIG c] ∧ Reg.ADC_CORE_CFG c ∉ [Reg.ADC_CORE_STATUS c, Reg.ADC_SW_TRIG c] ∧
    Reg.ADC_ENTRY_EVENTS c ∉ [Reg.ADC_CORE_STATUS c, Reg.ADC_SW_TRIG c] := by
  simp only [Reg.ADC_RESULT, Reg.ADC_ENTRY_A, Reg.ADC_ENTRY_B, Reg.ADC_CORE_CFG, Reg.ADC_ENTRY_EVENTS, Reg.ADC_CORE_STATUS, Reg.ADC_SW_TRIG,
    List.mem_cons, List.not_mem_nil, or_false]
  omega

/-- None of these registers is a result or count register. -/
theorem notMem_shownRegs {e : Nat} (he : e < 16) :
    Reg.ADC_ENTRY_A c e ∉ [Reg.ADC_RESULT c e, Reg.ADC_NCOUNT c e] ∧ Reg.ADC_CORE_STATUS c ∉ [Reg.ADC_RESULT c e, Reg.ADC_NCOUNT c e] ∧
    Reg.ADC_ENTRY_B c e ∉ [Reg.ADC_RESULT c e, Reg.ADC_NCOUNT c e] ∧ Reg.ADC_CORE_CFG c ∉ [Reg.ADC_RESULT c e, Reg.ADC_NCOUNT c e] ∧
    Reg.ADC_ENTRY_EVENTS c ∉ [Reg.ADC_RESULT c e, Reg.ADC_NCOUNT c e] := by
  simp only [Reg.ADC_RESULT, Reg.ADC_NCOUNT, Reg.ADC_ENTRY_A, Reg.ADC_CORE_STATUS, Reg.ADC_ENTRY_B, Reg.ADC_CORE_CFG, Reg.ADC_ENTRY_EVENTS,
    List.mem_cons, List.not_mem_nil, or_false]
  omega

/-- The registers that FROZEN and the log write are not the result's, but for FROZEN itself. -/
theorem result_ne_frozenRegs :
    Reg.ADC_ENTRY_EVENTS c ≠ Reg.ADC_RESULT c e ∧ Reg.ADC_ENTRY_EVENTS c ≠ Reg.ADC_NCOUNT c e ∧ Reg.ADC_RESULT c e ≠ Reg.ADC_NCOUNT c e ∧
    Reg.ADC_RESULT c e ≠ Reg.LOG_STATUS ∧ Reg.ADC_NCOUNT c e ≠ Reg.LOG_STATUS := by
  have := adcBase_ge c
  simp only [Reg.ADC_ENTRY_EVENTS, Reg.ADC_RESULT, Reg.ADC_NCOUNT, Reg.LOG_STATUS]
  omega

end

/-- VALID and VALUE of entry `e` show the samples that core state `q` has gathered. -/
def valueShown (c e : Nat) (q : AdcCore) (s : State) : State :=
  let t := countEv 0x080 c 1 (when (q.n == 0) (countEv 0x081 c 1) (s.wrB (Fld.ADC_RESULT_VALID c e) (decide (1 ≤ q.n))))
  if 1 ≤ q.n then t.wr (Fld.ADC_RESULT_VALUE c e) ((q.sum + q.n / 2) / q.n) else t

/-- SEQ, SRC, OW and the counts of entry `e` follow the end of its run. -/
def runEndShown (c e : Nat) (q : AdcCore) (s : State) : State :=
  let t := (s.wr (Fld.ADC_RESULT_SEQ c e) ((s.rd (Fld.ADC_RESULT_SEQ c e) + 1) % 256)).wrB (Fld.ADC_RESULT_SRC c e) q.src
  ((t.wrB (Fld.ADC_RESULT_OW c e) (t.bit (Fld.ADC_CORE_STATUS_OPEN c) (t.rd (Fld.ADC_ENTRY_A_MUX c e)))).wr (Fld.ADC_NCOUNT_NVALID c e) q.n).wr
    (Fld.ADC_NCOUNT_EXCL c e) q.excl

section
variable {l : List Nat} {c e : Nat} {q : AdcCore} {r s : State} (h : AdcFrame l r s)
include h

theorem AdcFrame.valueShown (hl : Reg.ADC_RESULT c e ∈ l) : AdcFrame l r (valueShown c e q s) := by
  have hvalid := h.wr (f := Fld.ADC_RESULT_VALID c e) (v := (decide (1 ≤ q.n)).toNat) hl
  have hcount := (hvalid.when (q.n == 0) (hvalid.countEv (event := 0x081) (unit := c) (n := 1))).countEv (event := 0x080) (unit := c) (n := 1)
  unfold Machine.valueShown
  extract_lets t
  split
  · exact hcount.wr hl
  · exact hcount

theorem AdcFrame.runEndShown (hl : Reg.ADC_RESULT c e ∈ l) (hn : Reg.ADC_NCOUNT c e ∈ l) : AdcFrame l r (runEndShown c e q s) :=
  ((((h.wr hl).wr hl).wr hl).wr hn).wr hn

end

section
variable (c e : Nat) (q : AdcCore) (s : State)

theorem rd_when_countEv (b : Bool) (event unit n : Nat) (f : FRef) : (when b (countEv event unit n) s).rd f = s.rd f := by
  cases b with
  | true => exact rd_countEv _ _ _ _ _
  | false => rfl

theorem rd_valueShown :
    let t := valueShown c e q s
    t.rd (Fld.ADC_RESULT_VALID c e) = (if 1 ≤ q.n then 1 else 0) ∧
    t.rd (Fld.ADC_RESULT_VALUE c e) = (if 1 ≤ q.n then (q.sum + q.n / 2) / q.n % 1048576 else s.rd (Fld.ADC_RESULT_VALUE c e)) ∧
    t.rd (Fld.ADC_RESULT_SEQ c e) = s.rd (Fld.ADC_RESULT_SEQ c e) ∧ t.rd (Fld.ADC_RESULT_FROZEN c e) = s.rd (Fld.ADC_RESULT_FROZEN c e) := by
  by_cases hn : 1 ≤ q.n <;>
    simp [valueShown, hn, rd_countEv, rd_when_countEv, rd_wr_apart, rd_wr_same, FRef.ok, FRef.apart, FRef.width]

theorem rd_runEndShown (he : e < 16) :
    let t := runEndShown c e q s
    t.rd (Fld.ADC_RESULT_VALID c e) = s.rd (Fld.ADC_RESULT_VALID c e) ∧ t.rd (Fld.ADC_RESULT_VALUE c e) = s.rd (Fld.ADC_RESULT_VALUE c e) ∧
    t.rd (Fld.ADC_RESULT_SEQ c e) = (s.rd (Fld.ADC_RESULT_SEQ c e) + 1) % 256 ∧ t.rd (Fld.ADC_RESULT_SRC c e) = q.src.toNat ∧
    t.rd (Fld.ADC_RESULT_OW c e) = (s.bit (Fld.ADC_CORE_STATUS_OPEN c) (s.rd (Fld.ADC_ENTRY_A_MUX c e))).toNat ∧
    t.rd (Fld.ADC_RESULT_FROZEN c e) = s.rd (Fld.ADC_RESULT_FROZEN c e) ∧
    t.rd (Fld.ADC_NCOUNT_NVALID c e) = q.n % 1048576 ∧ t.rd (Fld.ADC_NCOUNT_EXCL c e) = q.excl % 4096 := by
  have hentry : Reg.ADC_RESULT c e ≠ Reg.ADC_ENTRY_A c e := by simp only [Reg.ADC_RESULT, Reg.ADC_ENTRY_A]; omega
  have hstatus : Reg.ADC_RESULT c e ≠ Reg.ADC_CORE_STATUS c := by simp only [Reg.ADC_RESULT, Reg.ADC_CORE_STATUS]; omega
  have how (v : Nat) (b : Bool) : ((s.wr (Fld.ADC_RESULT_SEQ c e) v).wrB (Fld.ADC_RESULT_SRC c e) b).bit (Fld.ADC_CORE_STATUS_OPEN c)
      (((s.wr (Fld.ADC_RESULT_SEQ c e) v).wrB (Fld.ADC_RESULT_SRC c e) b).rd (Fld.ADC_ENTRY_A_MUX c e)) =
      s.bit (Fld.ADC_CORE_STATUS_OPEN c) (s.rd (Fld.ADC_ENTRY_A_MUX c e)) := by
    rw [wrB_eq, rd_wr_ne _ _ _ _ hentry, rd_wr_ne _ _ _ _ hentry, bit_wr_ne _ _ _ _ _ hstatus, bit_wr_ne _ _ _ _ _ hstatus]
  dsimp only [runEndShown]
  rw [how]
  simp [Bool.toNat_le, rd_wr_apart, rd_wr_same, FRef.ok, FRef.apart, FRef.width]

/-! ### FROZEN (R233) -/

variable (v r : Bool)

theorem setFrozen_eq : setFrozen c e v r s =
    if v && !s.rdB (Fld.ADC_RESULT_FROZEN c e) then
      ((s.wrB (Fld.ADC_RESULT_FROZEN c e) v).wrBit (Fld.ADC_ENTRY_EVENTS_FRZ_EV c) e true).logOnce 0x10 0x0003 c (adcDatum c e + bitIf r 16)
    else s.wrB (Fld.ADC_RESULT_FROZEN c e) v := rfl

theorem setFrozen_frame : AdcFrame [Reg.ADC_RESULT c e, Reg.ADC_ENTRY_EVENTS c, Reg.LOG_STATUS] s (setFrozen c e v r s) := by
  have h := (AdcFrame.refl [Reg.ADC_RESULT c e, Reg.ADC_ENTRY_EVENTS c, Reg.LOG_STATUS] s).wr (f := Fld.ADC_RESULT_FROZEN c e) (v := v.toNat)
    (by simp)
  rw [setFrozen_eq]
  split
  · exact (h.wr (by simp)).logOnce (by simp)
  · exact h

@[simp] theorem core_setFrozen (k : Nat) : (setFrozen c e v r s).core k = s.core k := by
  rw [setFrozen_eq]
  split <;> simp

variable {c e s} in
theorem rd_setFrozen {f : FRef} (hf : f.ok) (hfrozen : (Fld.ADC_RESULT_FROZEN c e).apart f) (hevent : (Fld.ADC_ENTRY_EVENTS_FRZ_EV c).apart f)
    (hlog : f.addr ≠ Reg.LOG_STATUS) : (setFrozen c e v r s).rd f = s.rd f := by
  have h : (s.wrB (Fld.ADC_RESULT_FROZEN c e) v).rd f = s.rd f := rd_wr_apart _ _ _ _ (by simp [FRef.ok]) hf hfrozen
  rw [setFrozen_eq]
  split
  · rw [rd_logOnce _ _ _ _ _ _ hlog, wrBit_eq, rd_wr_apart _ _ _ _ (by simp [FRef.ok]) hf hevent, h]
  · exact h

theorem rdB_setFrozen : (setFrozen c e v r s).rdB (Fld.ADC_RESULT_FROZEN c e) = v := by
  have h : (s.wrB (Fld.ADC_RESULT_FROZEN c e) v).rdB (Fld.ADC_RESULT_FROZEN c e) = v := by
    rw [State.rdB, wrB_eq, rd_wr_same _ _ _ (by simp [FRef.ok])]
    cases v <;> rfl
  rw [setFrozen_eq]
  split
  · obtain ⟨hevents, -, -, hlog, -⟩ := result_ne_frozenRegs c e
    rw [State.rdB, rd_logOnce _ _ _ _ _ _ hlog, wrBit_eq, rd_wr_ne _ _ _ _ hevents]
    exact h
  · exact h

theorem bit_setFrozen_event (he : e < 16) : (setFrozen c e v r s).bit (Fld.ADC_ENTRY_EVENTS_FRZ_EV c) e =
    (s.bit (Fld.ADC_ENTRY_EVENTS_FRZ_EV c) e || (v && !s.rdB (Fld.ADC_RESULT_FROZEN c e))) := by
  rw [setFrozen_eq]
  split
  · next h =>
    rw [bit_congr _ _ (reg_logOnce _ _ _ _ _ (adcReg_ne_log c 12)), bit_wrBit_same _ _ (by simp [FRef.ok]) _ _ _ he, if_pos rfl, h, Bool.or_true]
  · next h =>
    rw [eq_false_of_ne_true h, Bool.or_false]
    exact bit_wr_ne _ _ _ _ _ (result_ne_frozenRegs c e).1.symm

end

/-! ### A result that is written (R223, R224, R230, R233) -/

theorem runFrozen_congr {s t : State} {c e : Nat} (q : AdcCore) (hb : t.reg (Reg.ADC_ENTRY_B c e) = s.reg (Reg.ADC_ENTRY_B c e))
    (hcfg : t.reg (Reg.ADC_CORE_CFG c) = s.reg (Reg.ADC_CORE_CFG c)) : runFrozen t c e q = runFrozen s c e q := by
  unfold runFrozen frzN
  rw [rd_congr (Fld.ADC_ENTRY_B_FRZ_N c e) hb, rdB_congr (Fld.ADC_CORE_CFG_PAIR_EN c) hcfg]

/-- The core once the result of entry `e` is written in cycle `cycle` of the tick: the first one of a tick is noted (R281). -/
def resultNoted (e cycle : Nat) (q : AdcCore) : AdcCore :=
  if (Tab.get none q.wroteAt e).isSome then q else { q with wroteAt := Tab.set none q.wroteAt e (some cycle) }

theorem resultNoted_eq (e cycle : Nat) (q : AdcCore) : resultNoted e cycle q =
    { q with wroteAt := if (Tab.get none q.wroteAt e).isSome then q.wroteAt else Tab.set none q.wroteAt e (some cycle) } := by
  unfold resultNoted
  split <;> rfl

/-- The registers of `t` show the result of entry `e` that core state `q` has gathered in `s`. -/
structure EntryWritten (c e : Nat) (q : AdcCore) (s t : State) : Prop where
  valid : t.rd (Fld.ADC_RESULT_VALID c e) = if 1 ≤ q.n then 1 else 0
  value : t.rd (Fld.ADC_RESULT_VALUE c e) = if 1 ≤ q.n then (q.sum + q.n / 2) / q.n % 1048576 else s.rd (Fld.ADC_RESULT_VALUE c e)
  seq : t.rd (Fld.ADC_RESULT_SEQ c e) = (s.rd (Fld.ADC_RESULT_SEQ c e) + 1) % 256
  src : t.rdB (Fld.ADC_RESULT_SRC c e) = q.src
  openWire : t.rdB (Fld.ADC_RESULT_OW c e) = s.bit (Fld.ADC_CORE_STATUS_OPEN c) (s.rd (Fld.ADC_ENTRY_A_MUX c e))
  nvalid : t.rd (Fld.ADC_NCOUNT_NVALID c e) = q.n % 1048576
  excl : t.rd (Fld.ADC_NCOUNT_EXCL c e) = q.excl % 4096
  frozen : t.rdB (Fld.ADC_RESULT_FROZEN c e) = runFrozen s c e q
  event : t.bit (Fld.ADC_ENTRY_EVENTS_FRZ_EV c) e =
    (s.bit (Fld.ADC_ENTRY_EVENTS_FRZ_EV c) e || (runFrozen s c e q && !s.rdB (Fld.ADC_RESULT_FROZEN c e)))
  late : t.rd (Fld.ADC_ENTRY_EVENTS_LATE_EV c) = s.rd (Fld.ADC_ENTRY_EVENTS_LATE_EV c)

section
variable (c e cycle : Nat) (q : AdcCore) (s : State)

/-- The core is stored and the result and count registers of entry `e` show what it has gathered, but for FROZEN. -/
def resultShown : State := runEndShown c e q (valueShown c e q (s.setCore c (resultNoted e cycle q)))

theorem writeResult_eq : writeResult c e cycle q s =
    setFrozen c e (runFrozen (resultShown c e cycle q s) c e q) true (resultShown c e cycle q s) := rfl

theorem writeResult_frame : AdcFrame (resultRegs c e) s (writeResult c e cycle q s) := by
  rw [writeResult_eq]
  refine AdcFrame.trans ?_ ((setFrozen_frame _ _ _ _ _).mono (by simp [resultRegs]))
  exact (((AdcFrame.refl _ _).setCore (by simp [resultRegs]) (by simp [resultRegs])).valueShown (by simp [resultRegs])).runEndShown
    (by simp [resultRegs]) (by simp [resultRegs])

/-- Registers that neither the store of a core nor the result of its entry writes. -/
theorem reg_resultShown {a : Nat} (hs : a ∉ [Reg.ADC_CORE_STATUS c, Reg.ADC_SW_TRIG c]) (hr : a ∉ [Reg.ADC_RESULT c e, Reg.ADC_NCOUNT c e]) :
    (resultShown c e cycle q s).reg a = s.reg a :=
  ((((AdcFrame.refl _ _).valueShown (by simp)).runEndShown (by simp) (by simp)).regs a hr).trans (reg_setCore _ _ _ hs)

theorem rd_resultShown (he : e < 16) :
    let t := resultShown c e cycle q s
    t.rd (Fld.ADC_RESULT_VALID c e) = (if 1 ≤ q.n then 1 else 0) ∧
    t.rd (Fld.ADC_RESULT_VALUE c e) = (if 1 ≤ q.n then (q.sum + q.n / 2) / q.n % 1048576 else s.rd (Fld.ADC_RESULT_VALUE c e)) ∧
    t.rd (Fld.ADC_RESULT_SEQ c e) = (s.rd (Fld.ADC_RESULT_SEQ c e) + 1) % 256 ∧ t.rd (Fld.ADC_RESULT_SRC c e) = q.src.toNat ∧
    t.rd (Fld.ADC_RESULT_OW c e) = (s.bit (Fld.ADC_CORE_STATUS_OPEN c) (s.rd (Fld.ADC_ENTRY_A_MUX c e))).toNat ∧
    t.rd (Fld.ADC_RESULT_FROZEN c e) = s.rd (Fld.ADC_RESULT_FROZEN c e) ∧
    t.rd (Fld.ADC_NCOUNT_NVALID c e) = q.n % 1048576 ∧ t.rd (Fld.ADC_NCOUNT_EXCL c e) = q.excl % 4096 := by
  obtain ⟨hresult, hentry, -⟩ := notMem_storeRegs c e
  obtain ⟨hentry', hstatus', -⟩ := notMem_shownRegs c he
  have hstored {f : FRef} (ha : f.addr = Reg.ADC_RESULT c e) : (s.setCore c (resultNoted e cycle q)).rd f = s.rd f :=
    rd_congr f (reg_setCore _ _ _ (ha ▸ hresult))
  have hmux := rd_congr (Fld.ADC_ENTRY_A_MUX c e) (reg_setCore s c (resultNoted e cycle q) hentry)
  have hframe : AdcFrame [Reg.ADC_RESULT c e, Reg.ADC_NCOUNT c e] _ (valueShown c e q (s.setCore c (resultNoted e cycle q))) :=
    (AdcFrame.refl _ _).valueShown (by simp)
  obtain ⟨hvalid, hvalue, hseq, hfrozen⟩ := rd_valueShown c e q (s.setCore c (resultNoted e cycle q))
  obtain ⟨hvalid', hvalue', hseq', hsrc, how, hfrozen', hcounts⟩ :=
    rd_runEndShown c e q (valueShown c e q (s.setCore c (resultNoted e cycle q))) he
  rw [hstored rfl] at hvalue hseq hfrozen
  rw [State.bit, hframe.rd hstatus', hframe.rd hentry', rd_setCore_open, hmux] at how
  exact ⟨hvalid'.trans hvalid, hvalue'.trans hvalue, hseq'.trans (by rw [hseq]), hsrc, how, hfrozen'.trans hfrozen, hcounts⟩

theorem rdB_of_rd {t : State} {f : FRef} {b : Bool} (h : t.rd f = b.toNat) : t.rdB f = b := by
  rw [State.rdB, h]
  cases b <;> rfl

/-- The result and count registers of an entry are written together (R223, R224, R230). -/
theorem writeResult_written (he : e < 16) : EntryWritten c e q s (writeResult c e cycle q s) := by
  obtain ⟨-, -, hb, hcfg, hevents⟩ := notMem_storeRegs c e
  obtain ⟨-, -, hb', hcfg', hevents'⟩ := notMem_shownRegs c he
  obtain ⟨hne, hne', hne'', hlog, hlog'⟩ := result_ne_frozenRegs c e
  obtain ⟨hvalid, hvalue, hseq, hsrc, how, hfrozen, hnvalid, hexcl⟩ := rd_resultShown c e cycle q s he
  have hrun : runFrozen (resultShown c e cycle q s) c e q = runFrozen s c e q :=
    runFrozen_congr q (reg_resultShown c e cycle q s hb hb') (reg_resultShown c e cycle q s hcfg hcfg')
  have hkept := reg_resultShown c e cycle q s hevents hevents'
  rw [writeResult_eq, hrun]
  generalize resultShown c e cycle q s = t at *
  have hresult {f : FRef} (ha : f.addr = Reg.ADC_RESULT c e) (hf : f.ok) (hd : (Fld.ADC_RESULT_FROZEN c e).apart f) :
      (setFrozen c e (runFrozen s c e q) true t).rd f = t.rd f := rd_setFrozen _ _ hf hd (.inl (ha ▸ hne)) (ha ▸ hlog)
  have hcount {f : FRef} (ha : f.addr = Reg.ADC_NCOUNT c e) (hf : f.ok) :
      (setFrozen c e (runFrozen s c e q) true t).rd f = t.rd f := rd_setFrozen _ _ hf (.inl (ha ▸ hne'')) (.inl (ha ▸ hne')) (ha ▸ hlog')
  exact {
    valid := (hresult rfl (by simp [FRef.ok]) (.inr (by simp))).trans hvalid
    value := (hresult rfl (by simp [FRef.ok]) (.inr (by simp))).trans hvalue
    seq := (hresult rfl (by simp [FRef.ok]) (.inr (by simp))).trans hseq
    src := rdB_of_rd ((hresult rfl (by simp [FRef.ok]) (.inr (by simp))).trans hsrc)
    openWire := rdB_of_rd ((hresult rfl (by simp [FRef.ok]) (.inr (by simp))).trans how)
    nvalid := (hcount rfl (by simp [FRef.ok])).trans hnvalid
    excl := (hcount rfl (by simp [FRef.ok])).trans hexcl
    frozen := rdB_setFrozen c e t _ true
    event := by rw [bit_setFrozen_event c e t _ true he, bit_congr _ _ hkept, State.rdB, hfrozen, State.rdB]
    late := (rd_setFrozen _ _ (by simp [FRef.ok]) (.inl hne.symm) (.inr (by simp)) (adcReg_ne_log c 12)).trans (rd_congr _ hkept) }

theorem core_countEv (event unit n k : Nat) : (countEv event unit n s).core k = s.core k := by
  rw [countEv_spec]
  rfl

@[simp] theorem core_valueShown (k : Nat) : (valueShown c e q s).core k = s.core k := by
  have hwhen (t : State) : (when (q.n == 0) (countEv 0x081 c 1) t).core k = t.core k := when_keeps (State.core · k) (fun _ => core_countEv ..) _ _
  unfold valueShown
  extract_lets t
  have ht : t.core k = s.core k := by unfold t; rw [core_countEv, hwhen]; rfl
  split <;> exact ht

/-- The cores once the result of an entry is written (R224, R281). -/
theorem core_writeResult (k : Nat) : (writeResult c e cycle q s).core k = (s.setCore c (resultNoted e cycle q)).core k := by
  rw [writeResult_eq, core_setFrozen]
  exact core_valueShown c e q _ k

end

end Sys2Proof.Machine
end

