-- ==== Sys2Proof/Proofs/EntryResults.lean ====
section
/-!
PROOFS. Proofs/EntryResults.lean: the commands that start and end the entries of an ADC core (O23).
-/
namespace Sys2Proof.Machine

/-- The state in which a command acts: its cycle number has advanced. -/
def ticked (s : State) : State := { s with cycle := s.cycle + 1 }

theorem run_ticked (f : State → State) (s : State) : run f s = .next (f (ticked s)) := rfl

/-! ### ENTRY_START (R219, R221) -/

/-- A window entry `x` that starts at the next instant of core `c` finds its t_close past. -/
def startsLate (s : State) (c : Nat) (x : AdcQ) : Bool :=
  decide (s.rd (Fld.ADC_ENTRY_A_MODE c x.entry) = 1) && x.closeAt.any (fun v => decide (5 * v < instantAt s (s.core c).next))

/-- Entry `x` leaves the queue of core `c`. -/
def leaveQueue (c : Nat) (x : AdcQ) (s : State) : State := s.setCore c { s.core c with queue := (s.core c).queue.erase x }

/-- The window of entry `x` is found past as it would start: LATE_EV is set and the event logged (R221). -/
def lateNoted (c : Nat) (x : AdcQ) (s : State) : State :=
  ((leaveQueue c x s).wrBit (Fld.ADC_ENTRY_EVENTS_LATE_EV c) x.entry true).logOnce 0x10 0x0006 c (adcDatum c x.entry)

/-- A core that has gathered nothing. -/
def emptyRun (q : AdcCore) : AdcCore := { q with sum := 0, n := 0, excl := 0, src := false }

/-- The empty result of a window that is found past is written (R221). -/
def lateWritten (c : Nat) (x : AdcQ) (cycle : Nat) (s : State) : State :=
  writeResult c x.entry cycle (emptyRun ((lateNoted c x s).core c)) (lateNoted c x s)

/-- A burst has not ended before it has a sample, a window if its t_close has passed. -/
theorem entryEnded_leaveQueue (s : State) (c : Nat) (x : AdcQ) : entryEnded (leaveQueue c x s) c x { s.core c with n := 0 } = startsLate s c x := by
  have hmode : (leaveQueue c x s).rd (Fld.ADC_ENTRY_A_MODE c x.entry) = s.rd (Fld.ADC_ENTRY_A_MODE c x.entry) :=
    rd_congr _ (reg_setCore _ _ _ (notMem_storeRegs c x.entry).2.1)
  have htime : (leaveQueue c x s).time = s.time :=
    setCore_rule s c _ (p := fun t => t.time = s.time) rfl (fun _ _ _ _ _ h => h) (fun _ _ h => h)
  unfold entryEnded startsLate instantAt
  rw [hmode, htime]
  split
  · next h =>
    rw [decide_eq_true h, Bool.true_and]
    cases x.closeAt <;> rfl
  · next h =>
    rw [decide_eq_false h, Bool.false_and]
    exact decide_eq_false (Nat.not_lt_zero _)

/-- A free core serves its queue (R219). -/
theorem exec_entryStart_served {s : State} {c : Fin 40} {cycle : BitVec 13} {x : AdcQ} (hruns : entriesRun s = true)
    (hfree : (s.core c).running = none) (hx : nextQueued (s.core c).queue = some x) :
    exec (.entryStart c cycle) s = .next (
      if startsLate (ticked s) c x then lateWritten c x cycle.toNat (ticked s)
      else startEntry c x ((ticked s).core c).next (leaveQueue c x (ticked s))) := by
  replace hruns : entriesRun (ticked s) = true := hruns
  replace hfree : ((ticked s).core c).running = none := hfree
  replace hx : nextQueued ((ticked s).core c).queue = some x := hx
  show execEntryStart c cycle s = _
  rw [execEntryStart, run_ticked]
  generalize ticked s = r at hruns hfree hx ⊢
  simp only [hx]
  rw [← entryEnded_leaveQueue r c x]
  exact congrArg _ (if_neg (by simp [hfree, hruns]))

/-- With no free core, nothing queued or no entries running, nothing is served. -/
theorem exec_entryStart_idle {s : State} {c : Fin 40} {cycle : BitVec 13}
    (h : (s.core c).running ≠ none ∨ (s.core c).queue = [] ∨ entriesRun s = false) :
    exec (.entryStart c cycle) s = .next (ticked s) := by
  replace h : ((ticked s).core c).running ≠ none ∨ ((ticked s).core c).queue = [] ∨ entriesRun (ticked s) = false := h
  show execEntryStart c cycle s = _
  rw [execEntryStart, run_ticked]
  generalize ticked s = r at h ⊢
  dsimp only
  split
  · rfl
  · next x hx =>
    refine congrArg _ (if_pos ?_)
    rcases h with h | h | h
    · rw [Option.ne_none_iff_isSome.mp h, Bool.true_or]
    · rw [h] at hx; cases hx
    · rw [h, Bool.not_false, Bool.or_true]

/-! ### ENTRY_RESULT (R213, R220 to R224) -/

/-- The running entry of core `c` takes the levels `l` at the core's next sample instants. -/
def gathered (s : State) (c : Nat) (x : AdcQ) (l : List Int) : AdcCore := gather s c x (takingOf s c x.entry) l (s.core c)

section
variable {s : State} {c : Fin 40} {l : List Int} {cycle : BitVec 13}

theorem exec_entryResult_stopped (hs : sampling s = false) : exec (.entryResult c l cycle) s = .next (ticked s) :=
  congrArg Host.Outcome.next (if_pos (by rw [show sampling { s with cycle := s.cycle + 1 } = false from hs]; rfl))

theorem exec_entryResult_free (hs : sampling s = true) (hr : (s.core c).running = none) :
    exec (.entryResult c l cycle) s = .next ((ticked s).setCore c (idleSamples l.length ((ticked s).core c))) := by
  replace hs : sampling (ticked s) = true := hs
  replace hr : ((ticked s).core c).running = none := hr
  show execEntryResult c l cycle s = _
  rw [execEntryResult, run_ticked]
  generalize ticked s = r at hs hr ⊢
  simp only [hs, hr]
  rfl

theorem gathered_ticked (c : Nat) (x : AdcQ) : gathered (ticked s) c x l = gathered s c x l := by
  have h (q : AdcCore) : gather (ticked s) c x (takingOf s c x.entry) l q = gather s c x (takingOf s c x.entry) l q := by
    induction l generalizing q with
    | nil => rfl
    | cons v l ih =>
      unfold gather
      rw [ih]
      rfl
  exact h _

/-- A core whose running entry has ended. -/
def runEnded (q : AdcCore) : AdcCore := { q with running := none }

section
variable {x : AdcQ} {q : AdcCore} (hs : sampling s = true) (hr : (s.core c).running = some x) (hq : gathered s c x l = q)
include hs hr hq

theorem exec_entryResult_running : exec (.entryResult c l cycle) s = .next (
    if entryEnded s c x q then writeResult c x.entry cycle.toNat (runEnded q) (ticked s) else (ticked s).setCore c q) := by
  replace hs : sampling (ticked s) = true := hs
  replace hr : ((ticked s).core c).running = some x := hr
  rw [← gathered_ticked] at hq
  rw [show entryEnded s c x q = entryEnded (ticked s) c x q from rfl]
  show execEntryResult c l cycle s = _
  rw [execEntryResult, run_ticked]
  generalize ticked s = r at hs hr hq ⊢
  simp only [hs, hr, ← hq]
  rfl

theorem exec_entryResult_ended (h : entryEnded s c x q = true) :
    exec (.entryResult c l cycle) s = .next (writeResult c x.entry cycle.toNat (runEnded q) (ticked s)) := by
  rw [exec_entryResult_running hs hr hq, if_pos h]

theorem exec_entryResult_goesOn (h : entryEnded s c x q = false) : exec (.entryResult c l cycle) s = .next ((ticked s).setCore c q) := by
  rw [exec_entryResult_running hs hr hq, if_neg (by simp [h])]

end

end

section
variable (s : State) (c : Nat) (x : AdcQ)

theorem core_lateNoted : (lateNoted c x s).core c = { s.core c with queue := (s.core c).queue.erase x } := by
  rw [lateNoted, core_logOnce, wrBit_eq, core_wr, leaveQueue, core_setCore]

theorem core_lateNoted_ne {k : Nat} (h : k ≠ c) : (lateNoted c x s).core k = s.core k := by
  rw [lateNoted, core_logOnce, wrBit_eq, core_wr, leaveQueue, core_setCore_ne _ _ h]

theorem lateNoted_frame :
    AdcFrame [Reg.ADC_CORE_STATUS c, Reg.ADC_ENTRY_EVENTS c, Reg.ADC_SW_TRIG c, Reg.LOG_STATUS] s (lateNoted c x s) :=
  (((AdcFrame.refl _ s).setCore (by simp) (by simp)).wr (by simp)).logOnce (by simp)

theorem bit_lateNoted (hx : x.entry < 16) : (lateNoted c x s).bit (Fld.ADC_ENTRY_EVENTS_LATE_EV c) x.entry = true := by
  rw [lateNoted, bit_congr _ _ (reg_logOnce _ _ _ _ _ (adcReg_ne_log c 12)), bit_wrBit_same _ _ (by simp [FRef.ok]) _ _ _ hx, if_pos rfl]

/-- A window that is found past has an empty result of its entry (R221). -/
theorem lateWritten_result {cycle : Nat} (hx : x.entry < 16) :
    let t := lateWritten c x cycle s
    t.bit (Fld.ADC_ENTRY_EVENTS_LATE_EV c) x.entry = true ∧ t.rd (Fld.ADC_RESULT_VALID c x.entry) = 0 ∧
    t.rd (Fld.ADC_RESULT_VALUE c x.entry) = s.rd (Fld.ADC_RESULT_VALUE c x.entry) ∧
    t.rd (Fld.ADC_RESULT_SEQ c x.entry) = (s.rd (Fld.ADC_RESULT_SEQ c x.entry) + 1) % 256 ∧
    t.rd (Fld.ADC_NCOUNT_NVALID c x.entry) = 0 ∧ t.rd (Fld.ADC_NCOUNT_EXCL c x.entry) = 0 := by
  intro t
  have hres : Reg.ADC_RESULT c x.entry ∉ [Reg.ADC_CORE_STATUS c, Reg.ADC_ENTRY_EVENTS c, Reg.ADC_SW_TRIG c, Reg.LOG_STATUS] := by
    have := adcBase_ge c
    simp only [Reg.ADC_RESULT, Reg.ADC_CORE_STATUS, Reg.ADC_ENTRY_EVENTS, Reg.ADC_SW_TRIG, Reg.LOG_STATUS, List.mem_cons, List.not_mem_nil,
      or_false]
    omega
  have hkept {f : FRef} (hf : f.addr = Reg.ADC_RESULT c x.entry) : (lateNoted c x s).rd f = s.rd f := (lateNoted_frame s c x).rd (hf ▸ hres)
  have h : EntryWritten c x.entry _ (lateNoted c x s) t := writeResult_written c x.entry cycle _ _ hx
  exact ⟨(congrArg (Nat.testBit · _) h.late).trans (bit_lateNoted s c x hx), h.valid, h.value.trans (hkept rfl), by rw [h.seq, hkept rfl],
    h.nvalid, h.excl⟩

/-- What a window that is found past leaves of the cores and of everything else (R221). -/
theorem lateWritten_frame (cycle : Nat) :
    let t := lateWritten c x cycle s
    (t.core c).queue = (s.core c).queue.erase x ∧ (t.core c).running = (s.core c).running ∧ (∀ k, k ≠ c → t.core k = s.core k) ∧
    AdcFrame (resultRegs c x.entry) s t := by
  intro t
  have hcore : t.core c = resultNoted x.entry cycle (emptyRun ((lateNoted c x s).core c)) := (core_writeResult ..).trans (core_setCore ..)
  rw [hcore, resultNoted_eq, core_lateNoted]
  refine ⟨rfl, rfl, fun k hk => ?_, ?_⟩
  · exact ((core_writeResult ..).trans (core_setCore_ne _ _ hk)).trans (core_lateNoted_ne _ _ _ hk)
  · exact ((lateNoted_frame s c x).mono (by simp [resultRegs])).trans (writeResult_frame ..)

end

/-! ### Samples (R213, R222, R223) -/

/-- A sample instant that nothing excludes brings one more valid sample (R222, R223). -/
theorem takeSample_valid {s : State} {c e : Nat} {k : Taking} {q : AdcCore} (uv : Int) (hcap : q.n < k.cap) (hex : q.exclude = 0)
    (href : k.refOk = true) (hdist : k.disturbed = false) (hinj : injectedAt s c k.mux q.next = false) :
    (takeSample s c e k q uv).n = q.n + 1 ∧
    (takeSample s c e k q uv).sum = q.sum + (sampleValue k.pair (adcCode 8 k.ref uv) (adcCode (if k.pair then 1 else k.gain) k.ref uv)).1 := by
  unfold takeSample
  extract_lets x1 x8 inj clean q1 q2 v r1 r2
  have hn : q2.n = q.n ∧ q2.sum = q.sum := by
    unfold q2 q1
    split <;> exact ⟨rfl, rfl⟩
  have hclean : clean = true := by simp [clean, hex, href, hdist]
  rw [if_neg (by omega), if_neg (by simp [hclean, inj, hinj]), ← hn.1, ← hn.2]
  exact ⟨rfl, rfl⟩

/-- One sample instant of a single core, with nothing that excludes it, completes a burst of one. -/
theorem gathered_one {s : State} {c : Nat} {e : Fin 16} {u ab : Bool} (uv : Int) (href : refOk s c = true)
    (hpair : s.rdB (Fld.ADC_CORE_CFG_PAIR_EN c) = false) (hmode : s.rd (Fld.ADC_ENTRY_A_MODE c e) = 0)
    (hburst : s.rd (Fld.ADC_ENTRY_B_BURST_N c e) = 0) (hn : (s.core c).n = 0) (hsum : (s.core c).sum = 0) (hex : (s.core c).exclude = 0)
    (hdist : s.bit (Fld.ADC_CORE_STATUS_DISTURB c) (s.rd (Fld.ADC_ENTRY_A_MUX c e)) = false)
    (hinj : injectedAt s c (s.rd (Fld.ADC_ENTRY_A_MUX c e)) (s.core c).next = false) :
    let q := gathered s c ⟨e, u, ab, 0, none⟩ [uv]
    q.n = 1 ∧ q.sum = 64 * adcCode (2 ^ s.rd (Fld.ADC_ENTRY_A_GAIN c e)) (vref s (c / 4)) uv ∧
    entryEnded s c ⟨e, u, ab, 0, none⟩ q = true := by
  have hended (q : AdcCore) : entryEnded s c ⟨e, u, ab, 0, none⟩ q = decide (0 < q.n) := by simp [entryEnded, hmode, hburst]
  have hcap : (takingOf s c e).cap = 1 := by simp [takingOf, hmode, hburst]
  have hvalue : (sampleValue (takingOf s c e).pair (adcCode 8 (takingOf s c e).ref uv)
      (adcCode (if (takingOf s c e).pair then 1 else (takingOf s c e).gain) (takingOf s c e).ref uv)).1 =
      64 * adcCode (2 ^ s.rd (Fld.ADC_ENTRY_A_GAIN c e)) (vref s (c / 4)) uv := by
    rw [show (takingOf s c e).pair = false from hpair]
    rfl
  intro q
  have hq : q = takeSample s c e (takingOf s c e) (s.core c) uv := by
    show gather _ _ _ _ [uv] _ = _
    rw [gather, hended, hn]
    rfl
  have href : (takingOf s c e).refOk = true := href
  obtain ⟨hn', hsum'⟩ := takeSample_valid (e := e) uv (by rw [hcap, hn]; decide) hex href hdist hinj
  rw [hn, ← hq] at hn'
  rw [hsum, Nat.zero_add, hvalue, ← hq] at hsum'
  exact ⟨hn', hsum', by rw [hended, hn']; rfl⟩

theorem clampInt_mem {lo hi : Int} (h : lo ≤ hi) (v : Int) : lo ≤ clampInt lo hi v ∧ clampInt lo hi v ≤ hi := by
  unfold clampInt
  split
  · exact ⟨le_rfl, h⟩
  · split <;> omega

/-- The 14-bit code of an input (R213). -/
theorem adcCode_eq (gain ref : Nat) (uv : Int) :
    (adcCode gain ref uv : Int) = clampInt 0 16383 (8192 + roundDiv (gain * (2 * uv - ref) * 8192) ref) :=
  Int.toNat_of_nonneg (clampInt_mem (by decide) _).1

theorem adcCode_le (gain ref : Nat) (uv : Int) : adcCode gain ref uv ≤ 16383 := by
  have h := (clampInt_mem (lo := 0) (hi := 16383) (by decide) (8192 + roundDiv (gain * (2 * uv - ref) * 8192) ref)).2
  rw [← adcCode_eq] at h
  omega

/-! ### The entries' commands -/

/-- The end of an entry that has gathered `q`, where the counts fit their fields. -/
theorem writeResult_runEnded (s : State) (c cycle : Nat) {e : Nat} (q : AdcCore) (he : e < 16) (hn : q.n < 1048576) (hexcl : q.excl < 4096) :
    let t := writeResult c e cycle (runEnded q) s
    t.rd (Fld.ADC_RESULT_VALID c e) = (if 1 ≤ q.n then 1 else 0) ∧
    t.rd (Fld.ADC_RESULT_VALUE c e) = (if 1 ≤ q.n then (q.sum + q.n / 2) / q.n % 1048576 else s.rd (Fld.ADC_RESULT_VALUE c e)) ∧
    t.rd (Fld.ADC_RESULT_SEQ c e) = (s.rd (Fld.ADC_RESULT_SEQ c e) + 1) % 256 ∧ t.rdB (Fld.ADC_RESULT_SRC c e) = q.src ∧
    t.rdB (Fld.ADC_RESULT_OW c e) = s.bit (Fld.ADC_CORE_STATUS_OPEN c) (s.rd (Fld.ADC_ENTRY_A_MUX c e)) ∧
    t.rd (Fld.ADC_NCOUNT_NVALID c e) = q.n ∧ t.rd (Fld.ADC_NCOUNT_EXCL c e) = q.excl ∧ t.rdB (Fld.ADC_RESULT_FROZEN c e) = runFrozen s c e q ∧
    t.bit (Fld.ADC_ENTRY_EVENTS_FRZ_EV c) e =
      (s.bit (Fld.ADC_ENTRY_EVENTS_FRZ_EV c) e || (runFrozen s c e q && !s.rdB (Fld.ADC_RESULT_FROZEN c e))) ∧
    t.core c = { q with running := none,
                        wroteAt := if (Tab.get none q.wroteAt e).isSome then q.wroteAt else Tab.set none q.wroteAt e (some cycle) } := by
  intro t
  have h : EntryWritten c e (runEnded q) s t := writeResult_written c e cycle _ s he
  have hcore : t.core c = resultNoted e cycle (runEnded q) := by rw [core_writeResult, core_setCore]
  exact ⟨h.valid, h.value, h.seq, h.src, h.openWire, h.nvalid.trans (Nat.mod_eq_of_lt hn), h.excl.trans (Nat.mod_eq_of_lt hexcl), h.frozen, h.event,
    hcore.trans (resultNoted_eq ..)⟩

/-- Settles O23: an entry that the queue serves starts or, as a window that is past, writes an empty result; a running entry gathers samples until it
has ended, and what it has gathered is what its registers then show. -/
theorem entryResults : Obligations.EntryResults := by
  unfold Obligations.EntryResults
  refine ⟨?_, ?_, ?_, ?_, ?_, ?_⟩
  · intro s c cycle x hruns hfree hx late
    have hexec := exec_entryStart_served (cycle := cycle) hruns hfree hx
    rw [show startsLate (ticked s) c x = late from rfl] at hexec
    clear_value late
    cases late with
    | true =>
      rw [if_pos rfl] at hexec
      obtain ⟨hqueue, hrunning, hcores, hframe⟩ := lateWritten_frame (ticked s) c x cycle.toNat
      exact ⟨_, hexec, hqueue, hrunning.trans hfree, fun hx _ => lateWritten_result (ticked s) c x hx, fun k _ hk => hcores k hk,
        hframe.rest, hframe.regs⟩
    | false =>
      rw [if_neg (by decide)] at hexec
      obtain ⟨hrunning, hqueue, -⟩ := core_startEntry (leaveQueue c x (ticked s)) c x ((ticked s).core c).next
      have hframe : AdcFrame [Reg.ADC_CORE_STATUS c, Reg.ADC_ENTRY_EVENTS c, Reg.ADC_SW_TRIG c, Reg.LOG_STATUS] (ticked s)
          (startEntry c x ((ticked s).core c).next (leaveQueue c x (ticked s))) :=
        ((AdcFrame.refl _ _).setCore (by simp) (by simp)).setCore (by simp) (by simp)
      refine ⟨_, hexec, hqueue.trans ?_, hrunning, fun _ h => absurd h (by decide), fun k _ hk => ?_, hframe.rest, hframe.regs⟩
      · rw [leaveQueue, core_setCore]
        rfl
      · exact (core_setCore_ne _ _ hk).trans (core_setCore_ne _ _ hk)
  · exact fun s c cycle h => ⟨_, exec_entryStart_idle h, rfl⟩
  · intro s c x l cycle hs hr hx q hn hsum hexcl e
    have hq : gathered s c x l = q := rfl
    clear_value q
    cases hended : entryEnded s c x q with
    | true =>
      have hframe := writeResult_frame c e cycle.toNat (runEnded q) (ticked s)
      refine ⟨_, exec_entryResult_ended hs hr hq hended, fun _ => writeResult_runEnded (ticked s) c cycle.toNat q hx hn hexcl, nofun,
        fun k _ hk => ?_, hframe.rest, hframe.regs⟩
      exact (core_writeResult ..).trans (core_setCore_ne _ _ hk)
    | false =>
      have hframe : AdcFrame (resultRegs c e) (ticked s) ((ticked s).setCore c q) :=
        (AdcFrame.refl _ _).setCore (by simp [resultRegs]) (by simp [resultRegs])
      refine ⟨_, exec_entryResult_goesOn hs hr hq hended, nofun, fun _ => ⟨core_setCore .., ?_⟩, fun k _ hk => core_setCore_ne _ _ hk,
        hframe.rest, hframe.regs⟩
      exact reg_setCore _ _ _ (notMem_storeRegs c e).1
  · intro s c e u ab uv cycle hs hr href hpair hmode hburst hn hsum hex hdist hinj code
    obtain ⟨hn', hsum', hended⟩ := gathered_one uv href hpair hmode hburst hn hsum hex hdist hinj
    have h := writeResult_written c e cycle.toNat (runEnded (gathered s c ⟨e, u, ab, 0, none⟩ [uv])) (ticked s) e.isLt
    have hle := adcCode_le (2 ^ s.rd (Fld.ADC_ENTRY_A_GAIN c e)) (vref s (c / 4)) uv
    have hn1 : (runEnded (gathered s c ⟨e, u, ab, 0, none⟩ [uv])).n = 1 := hn'
    have hs1 : (runEnded (gathered s c ⟨e, u, ab, 0, none⟩ [uv])).sum = 64 * _ := hsum'
    refine ⟨_, exec_entryResult_ended hs hr rfl hended, ?_, ?_, ?_⟩
    · rw [h.valid, hn1]; rfl
    · rw [h.value, hn1, hs1, if_pos (by decide), show code = adcCode _ _ uv from (adcCode_eq ..).symm]
      omega
    · rw [h.nvalid, hn1]
  · intro s c l cycle hs hr
    exact ⟨_, exec_entryResult_free hs hr, core_setCore .., setCore_spec .., fun _ ha => reg_setCore _ _ _ ha⟩
  · exact fun s c l cycle hs => ⟨_, exec_entryResult_stopped hs, rfl⟩

end Sys2Proof.Machine
end

