-- ==== Sys2Proof/Proofs/References.lean ====
section
/-!
PROOFS. Proofs/References.lean: several cores stored in turn, and the fall and rise of the reference of a group (R215, R216, R225).
-/
namespace Sys2Proof.Machine

/-! ### Several cores stored in turn -/

/-- Each core of a list becomes what `f` makes of it. -/
def storeAll (f : AdcCore → AdcCore) (l : List Nat) (s : State) : State := forEach l (fun c s => s.setCore c (f (s.core c))) s

theorem storeAll_cons (f : AdcCore → AdcCore) (c : Nat) (l : List Nat) (s : State) :
    storeAll f (c :: l) s = storeAll f l (s.setCore c (f (s.core c))) := rfl

theorem core_storeAll (f : AdcCore → AdcCore) {l : List Nat} (hl : l.Nodup) (s : State) (k : Nat) :
    (storeAll f l s).core k = if k ∈ l then f (s.core k) else s.core k := by
  induction l generalizing s with
  | nil => rfl
  | cons c l ih =>
    obtain ⟨hc, hl⟩ := List.nodup_cons.mp hl
    rw [storeAll_cons, ih hl]
    by_cases hk : k = c
    · subst hk
      rw [if_neg hc, if_pos List.mem_cons_self, core_setCore]
    · simp only [core_setCore_ne _ _ hk, List.mem_cons, hk, false_or]

theorem AdcFrame.storeAll {m : List Nat} {r s : State} (h : AdcFrame m r s) {f : AdcCore → AdcCore} {l : List Nat}
    (hl : ∀ c ∈ l, Reg.ADC_CORE_STATUS c ∈ m ∧ Reg.ADC_SW_TRIG c ∈ m) : AdcFrame m r (storeAll f l s) :=
  h.forEach fun c hc _ k => k.setCore (hl c hc).1 (hl c hc).2

@[simp] theorem perf_storeAll (f : AdcCore → AdcCore) (l : List Nat) (s : State) : (storeAll f l s).perf = s.perf :=
  forEach_keeps State.perf (fun _ s => by rw [setCore_spec]) l s

/-- Storing cores leaves a register of a core that is neither STATUS nor SW_TRIG of one of them. -/
theorem reg_storeAll (f : AdcCore → AdcCore) {l : List Nat} (s : State) {d i : Nat} (hi : i < 0x1000)
    (h : ∀ c ∈ l, d ≠ c ∨ i ≠ 4 ∧ i ≠ 0x14) : (storeAll f l s).reg (Reg.adcBase d + i) = s.reg (Reg.adcBase d + i) := by
  induction l generalizing s with
  | nil => rfl
  | cons c l ih =>
    rw [storeAll_cons, ih _ fun k hk => h k (List.mem_cons_of_mem _ hk)]
    refine reg_setCore _ _ _ ?_
    simp only [List.mem_cons, List.not_mem_nil, or_false, not_or]
    rcases h c List.mem_cons_self with h | ⟨h4, h20⟩
    · exact ⟨adcReg_ne hi (by decide) (.inl h), adcReg_ne hi (by decide) (.inl h)⟩
    · exact ⟨adcReg_ne hi (by decide) (.inr h4), adcReg_ne hi (by decide) (.inr h20)⟩

/-- STATE of each core that is stored. -/
theorem rd_storeAll_state (f : AdcCore → AdcCore) {l : List Nat} (hl : l.Nodup) (s : State) {k : Nat} (hk : k ∈ l) :
    (storeAll f l s).rd (Fld.ADC_CORE_STATUS_STATE k) = stateCode s k (f (s.core k)) := by
  induction l generalizing s with
  | nil => cases hk
  | cons c l ih =>
    obtain ⟨hc, hl⟩ := List.nodup_cons.mp hl
    rw [storeAll_cons]
    rcases List.mem_cons.mp hk with rfl | hk
    · rw [rd_congr _ (reg_storeAll f (d := k) _ (by decide) fun j hj => .inl (ne_of_mem_of_not_mem hj hc).symm), rd_setCore_state]
    · have hne : k ≠ c := fun h => hc (h ▸ hk)
      rw [ih hl _ hk, core_setCore_ne _ _ hne]
      exact stateCode_congr _ (reg_storeAll f (l := [c]) s (by decide) fun _ _ => .inr (by decide))
        (reg_storeAll f (l := [c]) s (by decide) fun _ _ => .inr (by decide))

/-! ### The four cores of a group -/

theorem mem_groupCores {g c : Nat} : c ∈ groupCores g ↔ c / 4 = g := by
  simp only [groupCores, List.mem_cons, List.not_mem_nil, or_false]
  omega

theorem groupCores_nodup (g : Nat) : (groupCores g).Nodup := by simp [groupCores]

/-! ### The fall of REF_OK (R216) -/

/-- REF_LOST is set in the cores of a list. -/
def lostNoted (l : List Nat) (s : State) : State := forEach l (fun c s => s.wr (Fld.ADC_CORE_EVENTS_REF_LOST c) 1) s

theorem AdcFrame.lostNoted {m : List Nat} {r s : State} (h : AdcFrame m r s) {l : List Nat} (hl : ∀ c ∈ l, Reg.ADC_CORE_EVENTS c ∈ m) :
    AdcFrame m r (lostNoted l s) := h.forEach fun c hc _ k => k.wr (hl c hc)

theorem core_lostNoted (l : List Nat) (s : State) (k : Nat) : (lostNoted l s).core k = s.core k :=
  forEach_keeps (State.core · k) (f := fun c s => s.wr (Fld.ADC_CORE_EVENTS_REF_LOST c) 1) (fun _ _ => rfl) l s

theorem perf_lostNoted (l : List Nat) (s : State) : (lostNoted l s).perf = s.perf :=
  forEach_keeps State.perf (f := fun c s => s.wr (Fld.ADC_CORE_EVENTS_REF_LOST c) 1) (fun _ _ => rfl) l s

theorem reg_lostNoted (l : List Nat) (s : State) {d i : Nat} (hi : i < 0x1000) (h : i ≠ 8) :
    (lostNoted l s).reg (Reg.adcBase d + i) = s.reg (Reg.adcBase d + i) :=
  forEach_keeps (State.reg · (Reg.adcBase d + i)) (fun _ s => reg_wr_ne s _ (adcReg_ne (by decide) hi (.inr (Ne.symm h)))) l s

theorem rd_lostNoted (l : List Nat) (s : State) (c : Nat) :
    (lostNoted l s).rd (Fld.ADC_CORE_EVENTS_REF_LOST c) = if c ∈ l then 1 else s.rd (Fld.ADC_CORE_EVENTS_REF_LOST c) := by
  induction l generalizing s with
  | nil => rfl
  | cons d l ih =>
    have hcons : lostNoted (d :: l) s = lostNoted l (s.wr (Fld.ADC_CORE_EVENTS_REF_LOST d) 1) := rfl
    rw [hcons, ih]
    by_cases hc : c = d
    · subst hc
      rw [rd_wr_same _ _ _ (by simp [FRef.ok]), if_pos List.mem_cons_self]
      exact ite_self _
    · have hne : Reg.ADC_CORE_EVENTS d ≠ Reg.ADC_CORE_EVENTS c := adcReg_ne (by decide) (by decide) (.inl (Ne.symm hc))
      rw [rd_wr_ne _ _ _ _ hne]
      simp only [List.mem_cons, hc, false_or]

/-- The cores of group `g` on which an entry runs. -/
def runningCores (s : State) (g : Nat) : List Nat := (groupCores g).filter (fun c => (s.core c).running.isSome)

/-- REF_OK of group `g` is clear, and the cores of the group show it. -/
def refDown (g : Nat) (s : State) : State :=
  storeAll id (groupCores g) (lostNoted (runningCores s g) (s.wr (Fld.ADC_REF_CFG_REF_OK (4 * g)) 0))

theorem refFalls_eq {s : State} {g : Nat} (h : s.rd (Fld.ADC_REF_CFG_REF_OK (4 * g)) = 1) :
    refFalls g s = when (!(runningCores s g).isEmpty) (State.logOnce · 0x10 0x0001 (4 * g) (g * 2 ^ 24)) (refDown g s) := by
  have hok : ¬ (!s.rdB (Fld.ADC_REF_CFG_REF_OK (4 * g))) = true := by simp [h]
  rw [refFalls, if_neg hok, when]
  show (if (runningCores s g).isEmpty then refDown g s else (refDown g s).logOnce _ _ _ _) = _
  cases (runningCores s g).isEmpty <;> rfl

theorem refFalls_clear {s : State} {g : Nat} (h : s.rd (Fld.ADC_REF_CFG_REF_OK (4 * g)) = 0) : refFalls g s = s := if_pos (by simp [h])

section
variable {s : State} {g : Nat} (h : s.rd (Fld.ADC_REF_CFG_REF_OK (4 * g)) = 1)
include h

/-- A register of an ADC core is after the fall as it is before the log entry. -/
theorem rd_refFalls {f : FRef} (d i : Nat) (hf : f.addr = Reg.adcBase d + i) : (refFalls g s).rd f = (refDown g s).rd f := by
  rw [refFalls_eq h]
  exact when_keeps (State.rd · f) (fun _ => rd_logOnce _ _ _ _ _ _ (hf ▸ adcReg_ne_log d i)) _ _

theorem refFalls_core (k : Nat) : (refFalls g s).core k = s.core k := by
  rw [refFalls_eq h, when_keeps (State.core · k) (fun _ => core_logOnce ..), refDown, core_storeAll _ (groupCores_nodup g), core_lostNoted, core_wr]
  exact ite_self _

theorem refFalls_refOk : (refFalls g s).rd (Fld.ADC_REF_CFG_REF_OK (4 * g)) = 0 := by
  rw [rd_refFalls h (4 * g) 0x40 rfl, refDown,
    rd_congr (Fld.ADC_REF_CFG_REF_OK (4 * g)) (reg_storeAll _ _ (by decide) fun _ _ => .inr (by decide)),
    rd_congr (Fld.ADC_REF_CFG_REF_OK (4 * g)) (reg_lostNoted _ _ (by decide) (by decide)), rd_wr_same _ _ _ (by simp [FRef.ok])]
  rfl

theorem refFalls_lost {c : Nat} (hc : c / 4 = g) :
    (refFalls g s).rdB (Fld.ADC_CORE_EVENTS_REF_LOST c) = (s.rdB (Fld.ADC_CORE_EVENTS_REF_LOST c) || (s.core c).running.isSome) := by
  have hmem : c ∈ runningCores s g ↔ (s.core c).running.isSome = true := by
    simp only [runningCores, List.mem_filter, mem_groupCores, hc, true_and]
  have hcfg : Reg.ADC_REF_CFG (4 * g) ≠ Reg.ADC_CORE_EVENTS c := adcReg_ne (by decide) (by decide) (.inr (by decide))
  rw [State.rdB, rd_refFalls h c 8 rfl, refDown,
    rd_congr (Fld.ADC_CORE_EVENTS_REF_LOST c) (reg_storeAll _ _ (by decide) fun _ _ => .inr (by decide)), rd_lostNoted,
    rd_wr_ne _ _ _ _ hcfg, State.rdB]
  simp only [hmem]
  cases (s.core c).running.isSome <;> simp

theorem refFalls_state {c : Nat} (hc : c / 4 = g) (hen : s.rdB (Fld.ADC_CORE_CFG_EN c) = true) :
    (refFalls g s).rd (Fld.ADC_CORE_STATUS_STATE c) = 3 := by
  have hcfg : Reg.ADC_REF_CFG (4 * g) ≠ Reg.ADC_CORE_CFG c := adcReg_ne (by decide) (by decide) (.inr (by decide))
  have hen' : (lostNoted (runningCores s g) (s.wr (Fld.ADC_REF_CFG_REF_OK (4 * g)) 0)).rdB (Fld.ADC_CORE_CFG_EN c) = true := by
    rw [rdB_congr (Fld.ADC_CORE_CFG_EN c) (reg_lostNoted _ _ (by decide) (by decide)), rdB_congr (Fld.ADC_CORE_CFG_EN c) (reg_wr_ne _ _ hcfg), hen]
  have hok : (lostNoted (runningCores s g) (s.wr (Fld.ADC_REF_CFG_REF_OK (4 * g)) 0)).rdB (Fld.ADC_REF_CFG_REF_OK (4 * g)) = false := by
    rw [rdB_congr (Fld.ADC_REF_CFG_REF_OK (4 * g)) (reg_lostNoted _ _ (by decide) (by decide)), State.rdB, rd_wr_same _ _ _ (by simp [FRef.ok])]
    rfl
  rw [rd_refFalls h c 4 rfl, refDown, rd_storeAll_state _ (groupCores_nodup g) _ (mem_groupCores.mpr hc), stateCode, refOk, hc, hen', hok]
  rfl

end

/-! ### The registers of a group -/

/-- Where the counters stay, an ADC core's operations leave no more than registers, the log and the cores. -/
theorem AdcFrame.rest_of_perf {l : List Nat} {s t : State} (h : AdcFrame l s t) (hp : t.perf = s.perf) :
    t = { s with regs := t.regs, log := t.log, adc := t.adc } := h.rest.trans (by rw [hp])

theorem mem_perCore {g c : Nat} (hc : c / 4 = g) (regs : Nat → List Nat) {a : Nat} (ha : a ∈ regs c) :
    a ∈ [0, 1, 2, 3].flatMap (fun k => regs (4 * g + k)) := by
  refine List.mem_flatMap.mpr ⟨c % 4, ?_, ?_⟩
  · simp only [List.mem_cons, List.not_mem_nil, or_false]
    omega
  · rwa [show 4 * g + c % 4 = c by omega]

/-- The registers that the fall of REF_OK of group `g` can write (R216). -/
def lostRegs (g : Nat) : List Nat := [Reg.ADC_REF_CFG (4 * g), Reg.LOG_STATUS] ++
  [0, 1, 2, 3].flatMap (fun k => [Reg.ADC_CORE_EVENTS (4 * g + k), Reg.ADC_CORE_STATUS (4 * g + k), Reg.ADC_SW_TRIG (4 * g + k)])

theorem mem_lostRegs {g c : Nat} (hc : c / 4 = g) {a : Nat} (ha : a ∈ [Reg.ADC_CORE_EVENTS c, Reg.ADC_CORE_STATUS c, Reg.ADC_SW_TRIG c]) :
    a ∈ lostRegs g := List.mem_append_right _ (mem_perCore hc (fun c => [Reg.ADC_CORE_EVENTS c, Reg.ADC_CORE_STATUS c, Reg.ADC_SW_TRIG c]) ha)

theorem refFalls_frame {s : State} {g : Nat} (h : s.rd (Fld.ADC_REF_CFG_REF_OK (4 * g)) = 1) : AdcFrame (lostRegs g) s (refFalls g s) := by
  have hlost : AdcFrame (lostRegs g) s (lostNoted (runningCores s g) (s.wr (Fld.ADC_REF_CFG_REF_OK (4 * g)) 0)) :=
    AdcFrame.lostNoted ((AdcFrame.refl _ _).wr (by simp [lostRegs]))
      fun c hc => mem_lostRegs (mem_groupCores.mp (List.mem_of_mem_filter hc)) (by simp)
  have hdown : AdcFrame (lostRegs g) s (refDown g s) := hlost.storeAll fun c hc =>
    ⟨mem_lostRegs (mem_groupCores.mp hc) (by simp), mem_lostRegs (mem_groupCores.mp hc) (by simp)⟩
  rw [refFalls_eq h]
  exact hdown.when _ (hdown.logOnce (by simp [lostRegs]))

theorem refFalls_perf {s : State} {g : Nat} (h : s.rd (Fld.ADC_REF_CFG_REF_OK (4 * g)) = 1) : (refFalls g s).perf = s.perf := by
  rw [refFalls_eq h, when_keeps State.perf (fun _ => logOnce_perf ..), refDown, perf_storeAll, perf_lostNoted, wr_perf]

/-! ### The rise of REF_OK (R215, R225) -/

/-- REF_OK of group `g` is set, which is a change on each of its cores (R215, R225). -/
def refRises (g : Nat) (s : State) : State :=
  storeAll coreChange (groupCores g) ((s.wr (Fld.ADC_REF_CFG_REF_OK (4 * g)) 1).logOnce 0x10 0x0002 (4 * g) (g * 2 ^ 24))

theorem exec_refRestored {s : State} {g : Fin 10} (h : s.rd (Fld.ADC_REF_CFG_REF_OK (4 * g)) = 0) (hana : s.bit Fld.DOM_STATUS_ON 15 = true) :
    exec (.refRestored g) s = .next (refRises g (ticked s)) := by
  replace h : (ticked s).rd (Fld.ADC_REF_CFG_REF_OK (4 * g)) = 0 := h
  replace hana : (ticked s).bit Fld.DOM_STATUS_ON 15 = true := hana
  show execRefRestored g s = _
  rw [execRefRestored, run_ticked]
  exact congrArg _ (if_neg (by simp [h, hana]))

section
variable (g : Nat) (s : State)

theorem refRises_refOk : (refRises g s).rd (Fld.ADC_REF_CFG_REF_OK (4 * g)) = 1 := by
  rw [refRises, rd_congr (Fld.ADC_REF_CFG_REF_OK (4 * g)) (reg_storeAll _ _ (by decide) fun _ _ => .inr (by decide)),
    rd_logOnce _ _ _ _ _ _ (adcReg_ne_log (4 * g) 0x40), rd_wr_same _ _ _ (by simp [FRef.ok])]
  rfl

theorem refRises_core (k : Nat) : (refRises g s).core k = if k / 4 = g then coreChange (s.core k) else s.core k := by
  simp only [refRises, core_storeAll _ (groupCores_nodup g), mem_groupCores, core_logOnce, core_wr]

theorem refRises_state {c : Nat} (hc : c / 4 = g) (hen : s.rdB (Fld.ADC_CORE_CFG_EN c) = true) :
    (refRises g s).rd (Fld.ADC_CORE_STATUS_STATE c) = if (s.core c).running.isSome then 2 else 1 := by
  have hcfg : Reg.ADC_REF_CFG (4 * g) ≠ Reg.ADC_CORE_CFG c := adcReg_ne (by decide) (by decide) (.inr (by decide))
  have hen' : ((s.wr (Fld.ADC_REF_CFG_REF_OK (4 * g)) 1).logOnce 0x10 0x0002 (4 * g) (g * 2 ^ 24)).rdB (Fld.ADC_CORE_CFG_EN c) = true := by
    rw [rdB_congr (Fld.ADC_CORE_CFG_EN c) (reg_logOnce _ _ _ _ _ (adcReg_ne_log c 0)), rdB_congr (Fld.ADC_CORE_CFG_EN c) (reg_wr_ne _ _ hcfg), hen]
  have hok : ((s.wr (Fld.ADC_REF_CFG_REF_OK (4 * g)) 1).logOnce 0x10 0x0002 (4 * g) (g * 2 ^ 24)).rdB (Fld.ADC_REF_CFG_REF_OK (4 * g)) = true := by
    rw [rdB_congr (Fld.ADC_REF_CFG_REF_OK (4 * g)) (reg_logOnce _ _ _ _ _ (adcReg_ne_log (4 * g) 0x40)), State.rdB,
      rd_wr_same _ _ _ (by simp [FRef.ok])]
    rfl
  rw [refRises, rd_storeAll_state _ (groupCores_nodup g) _ (mem_groupCores.mpr hc), stateCode, refOk, hc, hen', hok, core_logOnce]
  rfl

theorem refRises_frame : AdcFrame ([Reg.ADC_REF_CFG (4 * g), Reg.LOG_STATUS] ++
    [0, 1, 2, 3].flatMap (fun k => [Reg.ADC_CORE_STATUS (4 * g + k), Reg.ADC_SW_TRIG (4 * g + k)])) s (refRises g s) := by
  refine AdcFrame.storeAll (((AdcFrame.refl _ s).wr (by simp)).logOnce (by simp)) fun c hc => ?_
  have hmem {a : Nat} (ha : a ∈ [Reg.ADC_CORE_STATUS c, Reg.ADC_SW_TRIG c]) :=
    mem_perCore (mem_groupCores.mp hc) (fun c => [Reg.ADC_CORE_STATUS c, Reg.ADC_SW_TRIG c]) ha
  exact ⟨List.mem_append_right _ (hmem (by simp)), List.mem_append_right _ (hmem (by simp))⟩

theorem refRises_perf : (refRises g s).perf = s.perf := by
  rw [refRises, perf_storeAll, logOnce_perf, wr_perf]

end

end Sys2Proof.Machine
end

