-- ==== Sys2Proof/Proofs/OpenWires.lean ====
section
/-!
PROOFS. Proofs/OpenWires.lean: the check for an open wire (R231), and the references and open wires of the cores (O24).
-/
namespace Sys2Proof.Machine

/-! ### The check for an open wire (R231) -/

/-- The injection instant at which a check of input `m` of core `c` judges: of this frame, or of the frame before. -/
def judgedAt (s : State) (c m : Nat) : Int :=
  let o : Int := s.rd (Fld.ADC_OW_OFS_OW_OFS c m)
  if (nearCodes (s.core c) m o).isSome then o else o - 2500

theorem judgedAt_before {s : State} {c m : Nat} (h : nearCodes (s.core c) m (s.rd (Fld.ADC_OW_OFS_OW_OFS c m)) = none) :
    judgedAt s c m = s.rd (Fld.ADC_OW_OFS_OW_OFS c m) - 2500 := if_neg (by simp [h])

/-- This frame's codes are judged where all of them have been taken, else those of the frame before. -/
theorem nearCodes_judgedAt {s : State} {c m : Nat} {r : List Nat}
    (h : nearCodes (s.core c) m (s.rd (Fld.ADC_OW_OFS_OW_OFS c m)) = some r ∨ (nearCodes (s.core c) m (s.rd (Fld.ADC_OW_OFS_OW_OFS c m)) = none ∧
      nearCodes (s.core c) m (s.rd (Fld.ADC_OW_OFS_OW_OFS c m) - 2500) = some r)) : nearCodes (s.core c) m (judgedAt s c m) = some r := by
  rcases h with h | ⟨hnow, h⟩
  · have hat : judgedAt s c m = s.rd (Fld.ADC_OW_OFS_OW_OFS c m) := if_pos (by simp [h])
    rw [hat, h]
  · rw [judgedAt_before hnow, h]

/-- The instants around injection `k` of input `m` have been judged. -/
def nearJudged (c m : Nat) (k : Int) (s : State) : State :=
  s.putCore c { s.core c with near := (s.core c).near.filter (fun x => !(x.mux == m && decide (k - 1 ≤ x.k ∧ x.k ≤ k + 2))) }

/-- The middle code lies further from the mean of its neighbours than OW_THR allows, both doubled. -/
def farCode (s : State) (c a b d : Nat) : Bool :=
  decide (2 * s.rd (Fld.ADC_OW_CFG_OW_THR c) < (2 * (b : Int) - (a + d : Nat)).natAbs)

section
variable {s : State} {c : Fin 40} {m : Fin 4}

theorem exec_openWireCheck_skipped (h : nearCodes (s.core c) m (judgedAt s c m) = none) : exec (.openWireCheck c m) s = .next (ticked s) := by
  replace h : nearCodes ((ticked s).core c) m (judgedAt (ticked s) c m) = none := h
  unfold judgedAt at h
  show execOpenWireCheck c m s = _
  rw [execOpenWireCheck, run_ticked]
  generalize ticked s = r at h ⊢
  dsimp only at h ⊢
  rw [h]

theorem exec_openWireCheck_judged {a b x d : Nat} (h : nearCodes (s.core c) m (judgedAt s c m) = some [a, b, x, d])
    (hen : s.bit (Fld.ADC_OW_CFG_OW_EN c) m = true) (hs : sampling s = true) (hused : coreUsed s c = true)
    (hofs : s.rd (Fld.ADC_OW_OFS_OW_OFS c m) ≤ 2499) :
    exec (.openWireCheck c m) s = .next (
      if clipped a || clipped b || clipped d then ticked s
      else setOpen c m (farCode s c a b d) (nearJudged c m (judgedAt s c m) (ticked s))) := by
  replace h : nearCodes ((ticked s).core c) m (judgedAt (ticked s) c m) = some [a, b, x, d] := h
  replace hen : (ticked s).bit (Fld.ADC_OW_CFG_OW_EN c) m = true := hen
  replace hs : sampling (ticked s) = true := hs
  replace hused : coreUsed (ticked s) c = true := hused
  replace hofs : (ticked s).rd (Fld.ADC_OW_OFS_OW_OFS c m) ≤ 2499 := hofs
  show execOpenWireCheck c m s =
    .next (if _ then _ else setOpen c m (farCode (ticked s) c a b d) (nearJudged c m (judgedAt (ticked s) c m) (ticked s)))
  rw [execOpenWireCheck, run_ticked]
  generalize ticked s = r at *
  unfold judgedAt at h ⊢
  dsimp only at h ⊢
  rw [h]
  have hofs' : decide ((r.rd (Fld.ADC_OW_OFS_OW_OFS c m) : Int) ≤ 2499) = true := decide_eq_true (by omega)
  refine congrArg _ ?_
  simp only [hen, hused, hofs', hs, Bool.true_and, ← Bool.not_or]
  cases clipped a || clipped b || clipped d <;> rfl

end

/-! ### OPEN (R231) -/

/-- OPEN of input `m` takes a value, and a rise sets its event. -/
def openShown (c m : Nat) (v : Bool) (s : State) : State :=
  when (v && !s.bit (Fld.ADC_CORE_STATUS_OPEN c) m) (State.wrBit · (Fld.ADC_CORE_EVENTS_OW_EV c) m true) (s.wrBit (Fld.ADC_CORE_STATUS_OPEN c) m v)

/-- A change of OPEN is logged. -/
theorem setOpen_eq (c m : Nat) (v : Bool) (s : State) : setOpen c m v s =
    when (v != s.bit (Fld.ADC_CORE_STATUS_OPEN c) m) (State.logOnce · 0x10 (if v then 0x0004 else 0x0005) c (4 * c + m)) (openShown c m v s) := by
  unfold setOpen openShown when
  cases v <;> cases s.bit (Fld.ADC_CORE_STATUS_OPEN c) m <;> simp

section
variable (c m : Nat) (v : Bool) (s : State)

theorem setOpen_frame : AdcFrame [Reg.ADC_CORE_STATUS c, Reg.ADC_CORE_EVENTS c, Reg.LOG_STATUS] s (setOpen c m v s) := by
  have hopen := (AdcFrame.refl [Reg.ADC_CORE_STATUS c, Reg.ADC_CORE_EVENTS c, Reg.LOG_STATUS] s).wr (f := Fld.ADC_CORE_STATUS_OPEN c)
    (v := setBitOf (s.rd (Fld.ADC_CORE_STATUS_OPEN c)) m v) (by simp)
  have hshown := hopen.when (v && !s.bit (Fld.ADC_CORE_STATUS_OPEN c) m) (f := (State.wrBit · (Fld.ADC_CORE_EVENTS_OW_EV c) m true))
    (hopen.wr (by simp))
  rw [setOpen_eq]
  exact hshown.when _ (hshown.logOnce (by simp))

theorem perf_setOpen : (setOpen c m v s).perf = s.perf := by
  rw [setOpen_eq, when_keeps State.perf (fun _ => logOnce_perf ..)]
  exact when_keeps State.perf (f := (State.wrBit · (Fld.ADC_CORE_EVENTS_OW_EV c) m true)) (fun _ => rfl) _ _

theorem core_setOpen (k : Nat) : (setOpen c m v s).core k = s.core k := by
  rw [setOpen_eq, when_keeps (State.core · k) (fun _ => core_logOnce ..)]
  exact when_keeps (State.core · k) (f := (State.wrBit · (Fld.ADC_CORE_EVENTS_OW_EV c) m true)) (fun _ => rfl) _ _

theorem reg_setOpen_status :
    (setOpen c m v s).reg (Reg.ADC_CORE_STATUS c) = (s.wrBit (Fld.ADC_CORE_STATUS_OPEN c) m v).reg (Reg.ADC_CORE_STATUS c) := by
  rw [setOpen_eq, when_keeps (State.reg · _) (fun _ => reg_logOnce _ _ _ _ _ (adcReg_ne_log c 4))]
  exact when_keeps (State.reg · _) (fun _ => reg_wr_ne _ _ (by simp)) _ _

theorem reg_setOpen_events : (setOpen c m v s).reg (Reg.ADC_CORE_EVENTS c) =
    (when (v && !s.bit (Fld.ADC_CORE_STATUS_OPEN c) m) (State.wrBit · (Fld.ADC_CORE_EVENTS_OW_EV c) m true)
      (s.wrBit (Fld.ADC_CORE_STATUS_OPEN c) m v)).reg (Reg.ADC_CORE_EVENTS c) := by
  rw [setOpen_eq, when_keeps (State.reg · _) (fun _ => reg_logOnce _ _ _ _ _ (adcReg_ne_log c 8)), openShown]

theorem bit_setOpen (hm : m < 4) : (setOpen c m v s).bit (Fld.ADC_CORE_STATUS_OPEN c) m = v := by
  rw [bit_congr _ _ (reg_setOpen_status c m v s), bit_wrBit_same _ _ (by simp [FRef.ok]) _ _ _ hm, if_pos rfl]

theorem bit_setOpen_event (hm : m < 4) : (setOpen c m v s).bit (Fld.ADC_CORE_EVENTS_OW_EV c) m =
    (s.bit (Fld.ADC_CORE_EVENTS_OW_EV c) m || (v && !s.bit (Fld.ADC_CORE_STATUS_OPEN c) m)) := by
  have hopen : (s.wrBit (Fld.ADC_CORE_STATUS_OPEN c) m v).bit (Fld.ADC_CORE_EVENTS_OW_EV c) m = s.bit (Fld.ADC_CORE_EVENTS_OW_EV c) m :=
    bit_wr_ne _ _ _ _ _ (by simp)
  rw [bit_congr _ _ (reg_setOpen_events c m v s)]
  cases v && !s.bit (Fld.ADC_CORE_STATUS_OPEN c) m with
  | true => rw [when, if_pos rfl, bit_wrBit_same _ _ (by simp [FRef.ok]) _ _ _ hm, if_pos rfl, Bool.or_true]
  | false => rw [when, if_neg (by decide), hopen, Bool.or_false]

theorem bitsKept_setOpen_status : BitsKept (Reg.ADC_CORE_STATUS c) [⟨Reg.ADC_CORE_STATUS c, 20 + m, 20 + m⟩] s (setOpen c m v s) := by
  intro n hn hout
  rw [reg_setOpen_status]
  exact bitsKept_wrBit s (Fld.ADC_CORE_STATUS_OPEN c) (by simp [FRef.ok]) m v n hn hout

theorem bitsKept_setOpen_events : BitsKept (Reg.ADC_CORE_EVENTS c) [⟨Reg.ADC_CORE_EVENTS c, 16 + m, 16 + m⟩] s (setOpen c m v s) := by
  intro n hn hout
  have hopen : (s.wrBit (Fld.ADC_CORE_STATUS_OPEN c) m v).reg (Reg.ADC_CORE_EVENTS c) = s.reg (Reg.ADC_CORE_EVENTS c) := reg_wr_ne _ _ (by simp)
  rw [reg_setOpen_events, ← hopen]
  cases v && !s.bit (Fld.ADC_CORE_STATUS_OPEN c) m with
  | true => exact bitsKept_wrBit _ (Fld.ADC_CORE_EVENTS_OW_EV c) (by simp [FRef.ok]) m true n hn hout
  | false => rfl

end

/-- Settles O24: REF_OK moves with the state of each core of its group, and a check of an open wire that no clipped code spoils stores its verdict
in OPEN. -/
theorem referencesAndOpenWires : Obligations.ReferencesAndOpenWires := by
  unfold Obligations.ReferencesAndOpenWires
  refine ⟨?_, ?_, ?_, ?_, ?_⟩
  · intro s g h
    replace h : (ticked s).rd (Fld.ADC_REF_CFG_REF_OK (4 * g)) = 1 := h
    have hgroup {k : Nat} (hk : k < 4) : (4 * g.val + k) / 4 = g := by omega
    have hframe := refFalls_frame h
    exact ⟨_, run_ticked _ _, refFalls_refOk h, fun k hk => refFalls_lost h (hgroup hk), fun k hk hen => refFalls_state h (hgroup hk) hen,
      fun k _ => refFalls_core h k, hframe.rest_of_perf (refFalls_perf h), hframe.regs⟩
  · exact fun s g h => ⟨_, run_ticked _ _, refFalls_clear h⟩
  · intro s g h hana
    have hgroup {k : Nat} (hk : k < 4) : (4 * g.val + k) / 4 = g := by omega
    have hframe := refRises_frame g (ticked s)
    exact ⟨_, exec_refRestored h hana, refRises_refOk _ _, fun k _ => refRises_core _ _ k, fun k hk hen => refRises_state _ _ (hgroup hk) hen,
      hframe.rest_of_perf (refRises_perf _ _), hframe.regs⟩
  · intro s c m a b x d hen hs hused hofs o hcodes clip far was
    have hexec := exec_openWireCheck_judged (nearCodes_judgedAt hcodes) hen hs hused hofs
    have hclip : (clipped a || clipped b || clipped d) = clip := by
      simp only [clip, clipped, List.any_cons, List.any_nil, Bool.or_false, Bool.or_assoc]
      rfl
    have hfar : farCode s c a b d = far := by
      rw [Bool.eq_iff_iff]
      simp only [farCode, far, Bool.or_eq_true, decide_eq_true_eq]
      omega
    rw [hclip, hfar] at hexec
    clear_value clip far
    cases clip with
    | true =>
      rw [if_pos rfl] at hexec
      refine ⟨_, hexec, rfl, ?_, fun k _ => ?_, rfl, fun _ _ _ => rfl, fun _ _ _ => rfl, fun _ _ => rfl⟩
      · rw [Bool.not_true, Bool.and_false, Bool.false_and, Bool.or_false]
        rfl
      · split <;> rfl
    | false =>
      rw [if_neg (by decide)] at hexec
      have hframe := (AdcFrame.refl _ (ticked s)).putCore.trans (setOpen_frame c m far (nearJudged c m (judgedAt s c m) (ticked s)))
      refine ⟨_, hexec, bit_setOpen _ _ _ _ m.isLt, ?_, fun k _ => ?_, hframe.rest_of_perf (perf_setOpen ..),
        bitsKept_setOpen_status c m far (nearJudged c m (judgedAt s c m) (ticked s)),
        bitsKept_setOpen_events c m far (nearJudged c m (judgedAt s c m) (ticked s)), hframe.regs⟩
      · rw [bit_setOpen_event _ _ _ _ m.isLt, Bool.not_false, Bool.and_true]
        rfl
      · rw [core_setOpen]
        split
        · next hk =>
          rw [hk, nearJudged, core_putCore]
          rfl
        · next hk => exact (SeqFrame.refl c.val (ticked s)).putCore.cores k hk
  · intro s c m o hnow hbefore
    exact ⟨_, exec_openWireCheck_skipped (by rw [judgedAt_before hnow]; exact hbefore), rfl⟩

end Sys2Proof.Machine
end

