-- ==== Sys2Proof/Proofs/WindowCounterexample.lean ====
section
/-!
PROOFS. Proofs/WindowCounterexample.lean: a state in which the statement about the window monitors fails.
-/
namespace Sys2Proof.Machine

/-- A SELF_TEST_FULL in its known-level check of the windows, the only part that it has to run. -/
def knownLevelPart : LongOp := { newOp 0x51 4 2 2 with parts := 0b010, pos := 1 }

/-- A part with `knownLevelPart` running as operation 3, on which no check runs and no window is enabled, as after a load of TRIP that enables
none (R261). -/
def selfTestLeftByLoad : State :=
  let s : State :=
    { State.reset with
      lan := { State.reset.lan with mode := .mainOn }
      img := { State.reset.img with phase := .booted }
      eng := { State.reset.eng with ops := [(3, some knownLevelPart)] } }
  (s.wr (Fld.CE_OP_VALID 3) 1).wr (Fld.CE_OP_STATE 3) 1

theorem selfTestLeftByLoad_runs :
    selfTestLeftByLoad.win.check = none ∧ opsWith selfTestLeftByLoad 0x51 = [3] ∧ selfTestLeftByLoad.rd (Fld.CE_OP_STATE 3) = 1 := by decide

/-- The windows pass unless an enabled one shows a failed check (log entry 51). -/
def windowsPass (s : State) : Bool := (enabledWindows s).all fun n => !s.bit Fld.WIN_CHK_FAIL n

section
variable {s : State} (m : WinSample)

theorem winChkDone_idle (h : s.win.check = none) : winChkDone m s = s := by rw [winChkDone, h]

/-- While no check runs WIN_CHK_DONE leaves the windows as they are, and still ends a window part or starts one that waits (R626). -/
theorem exec_winChkDone_idle (h : s.win.check = none) :
    exec (.winChkDone m) s = .next (partDone true (windowsPass (ticked s)) (ticked s)) := by
  replace h : (ticked s).win.check = none := h
  show execWinChkDone m s = _
  rw [execWinChkDone, run_ticked, winChkDone_idle m h, if_neg (by simp [h])]
  rfl

end

set_option maxRecDepth 20000 in
/-- The window part ends with nothing checked, and with its last part the operation is DONE. -/
theorem partDone_selfTestLeftByLoad :
    (partDone true (windowsPass (ticked selfTestLeftByLoad)) (ticked selfTestLeftByLoad)).rd (Fld.CE_OP_STATE 3) = 3 := by decide

theorem exec_winChkDone_selfTestLeftByLoad (m : WinSample) :
    ∃ t, exec (.winChkDone m) selfTestLeftByLoad = .next t ∧ t.rd (Fld.CE_OP_STATE 3) = 3 :=
  ⟨_, exec_winChkDone_idle m rfl, partDone_selfTestLeftByLoad⟩

/-- Refutes O25: its last part, that WIN_CHK_DONE changes nothing while no check runs, has no hypothesis that no SELF_TEST_FULL is live; the
command then still ends the window part that such an operation has begun. -/
theorem not_windowMonitors : ¬ Obligations.WindowMonitors := by
  rintro ⟨-, -, -, -, -, -, -, -, -, hidle⟩
  obtain ⟨hcheck, -, hruns⟩ := selfTestLeftByLoad_runs
  obtain ⟨t, ht, hkept⟩ := hidle selfTestLeftByLoad ⟨false, false, false, false, false, false, false, false, false⟩ hcheck
  obtain ⟨t', ht', hdone⟩ := exec_winChkDone_selfTestLeftByLoad ⟨false, false, false, false, false, false, false, false, false⟩
  cases ht'.symm.trans ht
  rw [hkept] at hdone
  exact absurd (hruns.symm.trans hdone) (by decide)

end Sys2Proof.Machine
end

