-- ==== Sys2Proof/Proofs/SectionStateReads.lean ====
section
/-!
PROOFS. Proofs/SectionStateReads.lean: the read of a section's states, which latches all their words (R324).
-/
namespace Sys2Proof.Machine

/-! ### The two words of a 40-bit state -/

theorem toNat_ofInt_eq (w : Nat) (v : Int) : (BitVec.ofInt w v).toNat = ofInt w v := by
  rw [BitVec.toNat_ofInt, ofInt, Nat.cast_pow, Nat.cast_ofNat]

/-- The low word of a state. -/
theorem extractLsb'_low_ofInt (v : Int) : (BitVec.ofInt 40 v).extractLsb' 0 32 = BitVec.ofNat 32 (ofInt 40 v) := by
  rw [BitVec.extractLsb', toNat_ofInt_eq]; rfl

/-- The high bits of a state. -/
theorem toNat_extractLsb'_high_ofInt (v : Int) : ((BitVec.ofInt 40 v).extractLsb' 32 8).toNat = ofInt 40 v / 2 ^ 32 % 2 ^ 8 := by
  rw [BitVec.extractLsb'_toNat, toNat_ofInt_eq, Nat.shiftRight_eq_div_pow]

/-- A field of all 32 bits takes the word written. -/
theorem reg_wr_word (s : State) (a v : Nat) : (s.wr ⟨a, 31, 0⟩ (v % 2 ^ 32)).reg a = BitVec.ofNat 32 v := by
  have hmask : FRef.mask ⟨a, 31, 0⟩ = BitVec.allOnes 32 := rfl
  refine (reg_wr_same s ⟨a, 31, 0⟩ _).trans ?_
  rw [FRef.put, hmask, BitVec.not_allOnes, BitVec.and_zero, BitVec.zero_or, BitVec.and_allOnes, BitVec.shiftLeft_zero]
  exact BitVec.eq_of_toNat_eq (by simp)

/-! ### The read -/

section
variable (j : Nat) (s : State)

/-- The registers after the read: the four words of the two states are written, S1_LO last. -/
def secStateShown : State :=
  (((s.wr (Fld.SEC_S1_HI j) (ofInt 40 (s.sec j).1 / 2 ^ 32)).wr (Fld.SEC_S2_LO j) (ofInt 40 (s.sec j).2 % 2 ^ 32)).wr
    (Fld.SEC_S2_HI j) (ofInt 40 (s.sec j).2 / 2 ^ 32)).wr (Fld.SEC_S1_LO j) (ofInt 40 (s.sec j).1 % 2 ^ 32)

theorem secStateRead_eq : secStateRead j s = (secStateShown j s).answer (BitVec.ofNat 32 (ofInt 40 (s.sec j).1)) .done .ok := rfl

theorem secStateRead_reg (a : Nat) : (secStateRead j s).reg a = (secStateShown j s).reg a := by
  rw [secStateRead_eq, State.answer, reg_with_bus]

theorem secStateRead_rd (f : FRef) : (secStateRead j s).rd f = (secStateShown j s).rd f := rd_congr f (secStateRead_reg j s _)

theorem secStateRead_bus : (secStateRead j s).bus = ⟨(BitVec.ofInt 40 (s.sec j).1).extractLsb' 0 32, .done, .ok⟩ := by
  rw [extractLsb'_low_ofInt, secStateRead_eq]; rfl

theorem secStateRead_rest : secStateRead j s = { s with regs := (secStateRead j s).regs, bus := (secStateRead j s).bus } := rfl

theorem secStateRead_s1Lo : (secStateRead j s).reg (Reg.SEC_S1_LO j) = (BitVec.ofInt 40 (s.sec j).1).extractLsb' 0 32 := by
  rw [secStateRead_reg, secStateShown, reg_wr_word, extractLsb'_low_ofInt]

theorem secStateRead_s1Hi : (secStateRead j s).rd (Fld.SEC_S1_HI j) = ((BitVec.ofInt 40 (s.sec j).1).extractLsb' 32 8).toNat := by
  rw [secStateRead_rd, secStateShown, rd_wr_ne _ _ _ _ (by simp), rd_wr_ne _ _ _ _ (by simp), rd_wr_ne _ _ _ _ (by simp),
    rd_wr_same _ _ _ ⟨by simp, by simp⟩, toNat_extractLsb'_high_ofInt]
  rfl

theorem secStateRead_s2Lo : (secStateRead j s).reg (Reg.SEC_S2_LO j) = (BitVec.ofInt 40 (s.sec j).2).extractLsb' 0 32 := by
  rw [secStateRead_reg, secStateShown, reg_wr_ne _ _ (by simp), reg_wr_ne _ _ (by simp), reg_wr_word, extractLsb'_low_ofInt]

theorem secStateRead_s2Hi : (secStateRead j s).rd (Fld.SEC_S2_HI j) = ((BitVec.ofInt 40 (s.sec j).2).extractLsb' 32 8).toNat := by
  rw [secStateRead_rd, secStateShown, rd_wr_ne _ _ _ _ (by simp), rd_wr_same _ _ _ ⟨by simp, by simp⟩, toNat_extractLsb'_high_ofInt]
  rfl

theorem secStateRead_regsKept :
    RegsKept [Reg.SEC_S1_LO j, Reg.SEC_S1_HI j, Reg.SEC_S2_LO j, Reg.SEC_S2_HI j] s (secStateRead j s) := by
  intro a ha
  simp only [List.mem_cons, List.not_mem_nil, or_false, not_or] at ha
  obtain ⟨hs1Lo, hs1Hi, hs2Lo, hs2Hi⟩ := ha
  rw [secStateRead_reg, secStateShown, reg_wr_ne _ _ (Ne.symm hs1Lo), reg_wr_ne _ _ (Ne.symm hs2Hi), reg_wr_ne _ _ (Ne.symm hs2Lo),
    reg_wr_ne _ _ (Ne.symm hs1Hi)]

end

/-- A read that is admitted latches the states. -/
theorem exec_secStateRead_reaches {s : State} {i : Initiator} {j : Fin 512} (h : Reaches s i (Reg.SEC_S1_LO j))
    (hr : mayRead s i (Reg.SEC_S1_LO j) = true) : exec (.secStateRead i j) s = .next (secStateRead j.val (ticked s)) := by
  show execSecStateRead i j s = _
  rw [execSecStateRead, run_ticked, readAdmitted_reaches (s := ticked s) (i := i) (a := Reg.SEC_S1_LO j) h hr]

/-- Settles O30: the read is admitted, and each of the four registers holds its part of the two states. -/
theorem sectionStateRead : Obligations.SectionStateRead := by
  intro s i j h hr
  exact ⟨_, exec_secStateRead_reaches h hr, secStateRead_bus .., secStateRead_s1Lo .., secStateRead_s1Hi .., secStateRead_s2Lo ..,
    secStateRead_s2Hi .., secStateRead_rest .., secStateRead_regsKept j (ticked s)⟩

end Sys2Proof.Machine
end

