-- ==== Sys2Proof/Proofs/LoopCounterexamples.lean ====
section
/-!
PROOFS. Proofs/LoopCounterexamples.lean: states in which statements about the slots, the rearms and the bank swaps of the loop engine fail.
-/
namespace Sys2Proof.Machine

/-! ### A slot that takes an angle which no word holds -/

/-- A grid-sync unit whose angle source holds 2^40, as no word of THETA1 does. -/
def wideAngle : GsUnit := { restUnit with angle := 2 ^ 40 }

/-- A running engine whose slot 0 has no section: it takes its set-point and its feed-forward from `wideAngle`, weighs the feed-forward with -1.0,
and limits its output to 0 to 2^-30. -/
def wideAngleSlot : State :=
  let s : State :=
    { State.reset with
      units := [(0, wideAngle)]
      loop := { State.reset.loop with bank0 := [(0x04, 1#32), (0x10, 0xF0000000#32)] } }
  (((s.wr Fld.LE_STATUS_RUN 1).wr Fld.SCHED_CFG_TICK_RUN 1).wr (Fld.SLOT_SRC_SP_KIND 0) 7).wr (Fld.SLOT_EXEC_FF_KIND 0) 7

set_option maxRecDepth 20000 in
theorem wideAngleSlot_turn : slotTurn wideAngleSlot 0 1 = true := by decide

set_option maxRecDepth 20000 in
/-- The difference 2^40 enters the sum as it is: with the feed-forward, saturated at -2^39, it gives more than OUT_MAX. -/
theorem exec_slotCompute_wideAngleSlot : ∃ t, exec (.slotCompute 0 1#13) wideAngleSlot = .next t ∧ wInt (t.reg (Reg.SLOT_OUT 0)) = 1 :=
  ⟨_, rfl, by decide⟩

set_option maxRecDepth 20000 in
/-- Refutes O26: for a slot without sections it saturates the difference of set-point and feedback before the feed-forward is added, where the model
saturates the sum alone. The two differ for an angle beyond the 40 bits of internal state, which the statement's states may hold. -/
theorem not_slotSteps : ¬ Obligations.SlotSteps := by
  rintro ⟨hcompute, -⟩
  obtain ⟨t, ht, hout, -⟩ := hcompute wideAngleSlot 0 1#13 wideAngleSlot_turn (by decide) (by decide) (by decide) (by decide) (by decide) (by decide)
  obtain ⟨t', ht', hmodel⟩ := exec_slotCompute_wideAngleSlot
  cases ht'.symm.trans ht
  exact absurd (hmodel.symm.trans hout) (by decide)

/-! ### A rearm while ticks wait for the next frame -/

/-- A running engine with a rearm of slot 0 to take, on a control die that has its clock back and whose ticks resume at the next frame tick (R26). -/
def rearmBeforeResume : State :=
  let s : State :=
    { State.reset with
      lan := { State.reset.lan with mode := .mainOn }
      time := { State.reset.time with resume := some 0 }
      loop := { State.reset.loop with slots := [(0, { restSlot with rearm := true })] } }
  ((s.wr Fld.LE_STATUS_RUN 1).wr Fld.SCHED_CFG_TICK_RUN 1).wr Fld.CLK_STATUS_CTRL_LOCK 1

/-- No control tick comes before the frame tick at which ticks resume (R26). -/
theorem exec_controlTick_resuming {s : State} (h : s.time.resume = some 0) : exec .controlTick s = .next (ticked s) := by
  show execControlTick s = _
  rw [execControlTick, run_ticked, if_neg (by simp [ticked, h])]

/-- Refutes O28: the tick cycle that takes the rearms is said to come wherever ticks run, and not only once they have resumed (R26). -/
theorem not_rearmAndStart : ¬ Obligations.RearmAndStart := by
  rintro ⟨-, htick, -⟩
  obtain ⟨t, ht, hslots, -⟩ := htick rearmBeforeResume (by decide) (by decide) (by decide)
  cases (exec_controlTick_resuming (s := rearmBeforeResume) rfl).symm.trans ht
  exact absurd (hslots 0 (by decide)).1 (by decide)

/-! ### A bank swap armed for the frame of an activation -/

/-- A booted part in frame 5 with a bank swap armed for that frame, for which the activation of a preloaded image is pending. -/
def swapMeetsActivation : State :=
  let s : State :=
    { State.reset with
      lan := { State.reset.lan with mode := .mainOn }
      img := { State.reset.img with phase := .booted }
      time := { State.reset.time with rt := 5 * frameNs }
      flash := { State.reset.flash with rec0 := ⟨true, 1, .active, .staged, some ⟨1, 5, false, none⟩, false⟩ } }
  ((((s.wr Fld.LE_STATUS_ARM_STATE 2).wr Fld.LE_SWAP_AT_LO 5).wr Fld.SCHED_CFG_TICK_RUN 1).wr Fld.TIME_SYNC_UNSYNCED 0).wr Fld.IMG_STATUS_PRELOADED 1

theorem swapMeetsActivation_activates : activatesNow swapMeetsActivation = true := by decide

/-- An activation in the tick cycle of its frame discards the swap (R39, R303). -/
theorem exec_leSwap_activation {s : State} (harm : s.rd Fld.LE_STATUS_ARM_STATE = 2) (hat : swapAt s = s.fn)
    (hrun : s.rdB Fld.SCHED_CFG_TICK_RUN = true) (hact : activatesNow s = true) : exec .leSwap s = .next (swapDiscard 1 (ticked s)) := by
  show execLeSwap s = _
  have hact' : activatesNow (ticked s) = true := hact
  rw [execLeSwap, run_ticked, if_pos ⟨harm, hat, hrun⟩, if_pos hact']

/-- A swap that is discarded leaves the active bank. -/
theorem swapDiscard_actBank (reason : Nat) (s : State) : (swapDiscard reason s).rd Fld.LE_STATUS_ACT_BANK = s.rd Fld.LE_STATUS_ACT_BANK := by
  unfold swapDiscard
  split
  · rfl
  · rw [rd_logEv _ _ _ _ _ (by decide), rd_wr_ne _ _ _ _ (by decide), rd_wr_disjoint _ _ _ _ (by decide) (by decide) (by decide)]

/-- Refutes O29: a swap is said to be made in its frame whatever falls on that frame, where an image activation discards it (R39, R303). -/
theorem not_bankSwaps : ¬ Obligations.BankSwaps := by
  rintro ⟨-, -, hswap, -⟩
  obtain ⟨t, ht, hbank, -⟩ := hswap swapMeetsActivation (by decide) (by decide) (by decide) (by decide)
  cases (exec_leSwap_activation (by decide) (by decide) (by decide) swapMeetsActivation_activates).symm.trans ht
  rw [swapDiscard_actBank] at hbank
  have hkept : (ticked swapMeetsActivation).rd Fld.LE_STATUS_ACT_BANK = swapMeetsActivation.rd Fld.LE_STATUS_ACT_BANK := rfl
  omega

end Sys2Proof.Machine
end

