-- ==== Sys2Proof/Proofs/SessionCounterexample.lean ====
section
/-!
PROOFS. Proofs/SessionCounterexample.lean: a state in which the statement about sessions and registers fails.
-/
namespace Sys2Proof.Machine

/-- A change from Run to Idle that waits for its domains. -/
def changeToIdle : PwrChange :=
  { goal := 1, leg := 1, cause := 2, fromState := 0, fromOn := 0xFFFF, phase := .domains, stopLeft := 0, railOff := false }

/-- A booted part in Run on its way to Idle, with sessions 0 to 3 open and session 4 half-open. -/
def fifthSession : State :=
  let s : State :=
    { State.reset with
      lan := { State.reset.lan with mode := .mainOn }
      img := { State.reset.img with phase := .booted }
      pwr := { State.reset.pwr with change := some changeToIdle } }
  let s := forEach [0, 1, 2, 3, 4] (fun k s => s.wr (Fld.CE_SESS_VALID k) 1) s
  ((s.wr (Fld.CE_SESS_HALF_OPEN 4) 1).wr Fld.CE_STATUS_FRONT_ONLY 0).wr Fld.PWR_STATE_STATE 0

/-- The header of the SESSION_PROVE of session 4. -/
def proveHdr : Hdr := ⟨0, 0, 4#8, 4#12, 1#32, 0⟩

theorem fifthSession_serves : serves proveHdr fifthSession = true ∧ stateNamed true fifthSession = true := by decide

theorem fifthSession_room :
    tagInFlight fifthSession proveHdr.tag.toNat = false ∧ bucketEmpty fifthSession proveHdr.session.toNat = false ∧
      tagsFull fifthSession = false := by decide

set_option maxRecDepth 20000 in
/-- The fifth open session asks for Run, which is held until the change has ended (R75, R76). -/
theorem exec_sessionProve_fifthSession :
    ∃ t, exec (.sessionProve proveHdr) fifthSession = .next t ∧ t.pwr.pendingReq = some (0, 2) := ⟨_, rfl, by decide⟩

/-- What every command of a session may change leaves the power manager. -/
theorem pwr_of_commandBase {s t : State} {log : TroubleLog} (h : t = { commandBase s t with log := log }) : t.pwr = s.pwr :=
  (congrArg State.pwr h).trans rfl

/-- Refutes O49: SESSION_PROVE is said to change no power request wherever PWR_STATE does not show Idle, where a part on its way to Idle is brought
back to Run by a fifth open session (R75). -/
theorem not_sessionsAndRegisters : ¬ Obligations.SessionsAndRegisters := by
  rintro ⟨-, -, hprove, -⟩
  obtain ⟨hserves, hstate⟩ := fifthSession_serves
  obtain ⟨htag, hbucket, htags⟩ := fifthSession_room
  obtain ⟨t, ht, -, -, -, -, -, hpwr⟩ :=
    hprove fifthSession proveHdr hserves (by decide) (by decide) (by decide) rfl rfl htag hstate hbucket htags
  obtain ⟨-, hbase, -⟩ := hpwr (by decide)
  have hkept := pwr_of_commandBase hbase
  obtain ⟨t', ht', hasked⟩ := exec_sessionProve_fifthSession
  cases ht'.symm.trans ht
  rw [hkept] at hasked
  exact absurd hasked (by decide)

end Sys2Proof.Machine
end

