-- ==== Sys2Proof/Proofs/GridCounterexamples.lean ====
section
/-!
PROOFS. Proofs/GridCounterexamples.lean: states in which statements about the states and about the references of the grid stages fail, and which
registers a change of state of a stage leaves alone.
-/
namespace Sys2Proof.Machine

/-! ### A control tick that waits for the frame tick -/

/-- A part that has its control clock back and whose ticks resume at the next frame tick (R26), with a set-point for stage 0 that no tick has
taken yet. -/
def setPointBeforeResume : State :=
  let s : State :=
    { State.reset with
      lan := { State.reset.lan with mode := .mainOn }
      time := { State.reset.time with resume := some 0 } }
  (((s.wr Fld.SCHED_CFG_TICK_RUN 1).wr Fld.CLK_STATUS_CTRL_LOCK 1).wr (Fld.GST_MAP_EN 0) 1).wr (Fld.GST_P_SET 0) 1

theorem setPointBeforeResume_ticks :
    ticksRun setPointBeforeResume = true ∧ setPointBeforeResume.time.nextTick < ticksPerFrame setPointBeforeResume ∧
      setPointBeforeResume.rd (Fld.GST_MAP_EN 0) = 1 := by decide

theorem setPointBeforeResume_notTaken :
    snapI (ticked setPointBeforeResume) 0 (Fld.GST_P_SET 0) ≠ (ticked setPointBeforeResume).rdI (Fld.GST_P_SET 0) := by decide

/-- Refutes O33: the tick cycle in which the stages take their set-points is said to come wherever ticks run, and not only once they have resumed
(R26). -/
theorem not_gridReferences : ¬ Obligations.GridReferences := by
  rintro ⟨htick, -⟩
  obtain ⟨hruns, hnext, hen⟩ := setPointBeforeResume_ticks
  obtain ⟨t, ht, hset, -⟩ := htick setPointBeforeResume 0 hruns hnext hen
  cases (exec_controlTick_resuming (s := setPointBeforeResume) rfl).symm.trans ht
  exact setPointBeforeResume_notTaken hset

/-! ### The registers that a change of state of a stage writes -/

/-- The registers of stage `g` that a change of its state may write. -/
def stageRegs (g : Nat) : List Nat :=
  [Reg.GST_STATUS g, Reg.GST_EVENTS g, Reg.GST_REF g 0, Reg.GST_REF g 1, Reg.GST_REF g 2, Reg.GST_REF g 3]

/-- A register follows neither the trips nor the state of stage `g`. -/
abbrev StageSpares (g a : Nat) : Prop := tripReg a = false ∧ a ∉ stageRegs g

theorem StageSpares.ne_log {g a : Nat} (h : StageSpares g a) : a ≠ Reg.LOG_STATUS := by
  rintro rfl
  exact absurd h.1 (by decide)

theorem StageSpares.ne {g a b : Nat} (h : StageSpares g a) (hb : b ∈ stageRegs g) : b ≠ a := fun he => h.2 (he ▸ hb)

section
variable {g a : Nat} (h : StageSpares g a) (s : State)
include h

theorem reg_stageSources : (stageSources g s).reg a = s.reg a := (settleTrips_spec _ _).regs a h.1

theorem reg_writeRefs (r : List Int) : (writeRefs g r s).reg a = s.reg a := by
  have hrefs : ∀ q ∈ [0, 1, 2, 3], Reg.GST_REF g q ∈ stageRegs g := by simp [stageRegs]
  unfold writeRefs
  extract_lets s1 ports
  rw [reg_with_loop]
  exact (RegsLogPerf.forEach [0, 1, 2, 3] (fun q s => s.setReg (Reg.GST_REF g q) (intW (r.getD q 0)))
    (fun q hq _ k => k.setReg _ _ (decide_eq_true (hrefs q hq))) (.refl (fun b => decide (b ∈ stageRegs g)) s)).regs a (decide_eq_false h.2)

theorem reg_rtExit : (rtExit g s).reg a = s.reg a := by
  unfold rtExit
  split
  · rfl
  · rw [reg_logEv _ _ _ _ h.ne_log, reg_wr_ne _ _ (h.ne (by simp [stageRegs]))]

theorem reg_stageTo (st : Nat) : (stageTo g st s).reg a = s.reg a := by
  unfold stageTo
  split
  · rfl
  · extract_lets s1 q s2 s3 s4
    have h1 : s1.reg a = s.reg a := by
      rw [reg_logEv _ _ _ _ h.ne_log, reg_wr_ne _ _ (h.ne (by simp [stageRegs])), reg_wr_ne _ _ (h.ne (by simp [stageRegs]))]
    have h2 : s2.reg a = s1.reg a := by
      unfold s2
      split <;> rfl
    have h3 : s3.reg a = s2.reg a := by
      unfold s3
      split
      · rfl
      · rw [reg_rtExit h, reg_wr_ne _ _ (h.ne (by simp [stageRegs]))]
    have h4 : s4.reg a = s3.reg a := by
      unfold s4
      split
      · rfl
      · exact reg_writeRefs h s3 _
    rw [reg_stageSources h, h4, h3, h2, h1]

theorem reg_stageConnect (b : Bool) : (stageConnect g b s).reg a = s.reg a := by
  unfold stageConnect
  split
  · rfl
  · exact reg_wr_ne _ _ (h.ne (by simp [stageRegs]))

theorem reg_stageTrip (cause point : Nat) : (stageTrip g cause point s).reg a = s.reg a := by
  have hwr (f : FRef) (hf : f.addr ∈ stageRegs g) (v : Nat) (s : State) : (s.wr f v).reg a = s.reg a := reg_wr_ne s v (h.ne hf)
  have hwhen (b : Bool) (f : FRef) (hf : f.addr ∈ stageRegs g) (v : Nat) (s : State) : (when b (fun s => s.wr f v) s).reg a = s.reg a :=
    when_keeps (·.reg a) (hwr f hf v) b s
  rw [stageTrip, reg_stageTo h, reg_stageConnect h, reg_logEv _ _ _ _ h.ne_log, hwhen _ _ (by simp [stageRegs]), hwr _ (by simp [stageRegs]),
    hwr _ (by simp [stageRegs]), hwhen _ _ (by simp [stageRegs])]

end

/-! ### A stage mapped past the last pair -/

/-- The registers that a clear request for pair `p` may write (R426). -/
def clearRegs (p : Nat) : List Nat := [Reg.PWM_STATUS p, Reg.PWM_EVENTS p, Reg.PWM_TRIP_SRC p, Reg.LOG_STATUS]

theorem reg_pairClear {p a : Nat} (h : a ∉ clearRegs p) (s : State) : (pairClear p s).reg a = s.reg a := by
  simp only [clearRegs, List.mem_cons, List.not_mem_nil, or_false, not_or] at h
  obtain ⟨hstatus, hevents, hsrc, hlog⟩ := h
  unfold pairClear
  split
  · rfl
  · split
    · rw [reg_logOnce _ _ _ _ _ hlog, reg_wr_ne _ _ (Ne.symm hevents)]
    · rw [reg_wr_ne _ _ (Ne.symm hstatus), reg_wr_ne _ _ (Ne.symm hsrc)]

/-- A clear request for a tripped pair shows: in TRIP_CLR_REFUSED, or in STATE (R426). -/
theorem pairClear_shows {p : Nat} {s : State} (htripped : s.rd (Fld.PWM_STATUS_STATE p) = 3) (hclear : s.rd (Fld.PWM_EVENTS_TRIP_CLR_REFUSED p) = 0) :
    (pairClear p s).reg (Reg.PWM_EVENTS p) ≠ s.reg (Reg.PWM_EVENTS p) ∨ (pairClear p s).reg (Reg.PWM_STATUS p) ≠ s.reg (Reg.PWM_STATUS p) := by
  have hlog : Reg.PWM_EVENTS p ≠ Reg.LOG_STATUS := by simp only [Reg.PWM_EVENTS, Reg.LOG_STATUS]; omega
  unfold pairClear
  rw [if_neg (by simp [htripped])]
  split
  · refine .inl fun hkept => ?_
    have hrefused := rd_congr (Fld.PWM_EVENTS_TRIP_CLR_REFUSED p) hkept
    rw [rd_logOnce _ _ _ _ _ _ hlog, rd_wr_same _ _ _ (by simp [FRef.ok]), hclear] at hrefused
    exact absurd hrefused (by simp [FRef.width])
  · refine .inr fun hkept => ?_
    have harmed := rd_congr (Fld.PWM_STATUS_STATE p) hkept
    rw [rd_wr_same _ _ _ (by simp [FRef.ok]), htripped] at harmed
    exact absurd harmed (by simp [FRef.width])

theorem stagePairs_congr {s t : State} {g : Nat} (h : t.reg (Reg.GST_MAP g) = s.reg (Reg.GST_MAP g)) : stagePairs t g = stagePairs s g := by
  rw [stagePairs, rdB_congr (Fld.GST_MAP_TYPE g) h, rd_congr (Fld.GST_MAP_PAIR_FIRST g) h, stagePairs]

/-- The entry of a stage on pairs 70 to 72 into STARTING asks for a clear of pair 72, too, of which the part has none. -/
theorem stageStarting_pastPairs {s : State} (hpairs : stagePairs s 0 = [70, 71, 72]) (htripped : s.rd (Fld.PWM_STATUS_STATE 72) = 3)
    (hclear : s.rd (Fld.PWM_EVENTS_TRIP_CLR_REFUSED 72) = 0) :
    (stageStarting 0 s).reg (Reg.PWM_EVENTS 72) ≠ s.reg (Reg.PWM_EVENTS 72) ∨
      (stageStarting 0 s).reg (Reg.PWM_STATUS 72) ≠ s.reg (Reg.PWM_STATUS 72) := by
  have hevents : StageSpares 0 (Reg.PWM_EVENTS 72) := by decide
  have hstatus : StageSpares 0 (Reg.PWM_STATUS 72) := by decide
  have hmap : StageSpares 0 (Reg.GST_MAP 0) := by decide
  unfold stageStarting
  extract_lets _ s1 s2
  have h1 {a : Nat} (ha : StageSpares 0 a) : s1.reg a = s.reg a := reg_stageTo ha _ 3
  have hs2 : s2 = pairClear 72 (pairClear 71 (pairClear 70 s1)) := by
    unfold s2
    rw [stagePairs_congr (h1 hmap), hpairs]
    rfl
  have h71 {a : Nat} (ha : StageSpares 0 a) (hb : a ∉ clearRegs 70 ++ clearRegs 71) : (pairClear 71 (pairClear 70 s1)).reg a = s.reg a := by
    rw [List.mem_append, not_or] at hb
    rw [reg_pairClear hb.2, reg_pairClear hb.1, h1 ha]
  have hshown := pairClear_shows (p := 72) (s := pairClear 71 (pairClear 70 s1))
    ((rd_congr _ (h71 hstatus (by decide))).trans htripped) ((rd_congr _ (h71 hevents (by decide))).trans hclear)
  rw [← hs2, h71 hevents (by decide), h71 hstatus (by decide)] at hshown
  split
  · rwa [reg_stageTrip hevents, reg_stageTrip hstatus]
  · exact hshown

theorem exec_contactorClosed {s : State} {g : Fin 8} (hstate : s.rd (Fld.GST_STATUS_STATE g) = 2) (hfb : s.rd (Fld.GST_STATUS_CONT_FB g) = 1)
    (h20ms : 1000 * ticksPerFrame s ≤ (s.stage g).fb) : exec (.contactorClosed g) s = .next (stageStarting g (ticked s)) := by
  show execContactorClosed g s = _
  have hfb' : (ticked s).rdB (Fld.GST_STATUS_CONT_FB g) = true := by rw [rdB_eq]; exact decide_eq_true (hfb.trans_ne Nat.one_ne_zero)
  rw [execContactorClosed, run_ticked, if_pos ⟨hstate, hfb', h20ms⟩]

/-- Stage 0 in CLOSING with its contactor closed for 20 ms, mapped to pairs 70 to 72; the register of a pair 72 shows it tripped. -/
def stagePastPairs : State :=
  let s : State := { State.reset with stages := [(0, { restStage with fb := 1000 })] }
  (((s.wr (Fld.GST_STATUS_STATE 0) 2).wr (Fld.GST_STATUS_CONT_FB 0) 1).wr (Fld.GST_MAP_PAIR_FIRST 0) 70).wr (Fld.PWM_STATUS_STATE 72) 3

theorem stagePastPairs_closed :
    stagePastPairs.rd (Fld.GST_STATUS_STATE 0) = 2 ∧ stagePastPairs.rd (Fld.GST_STATUS_CONT_FB 0) = 1 ∧
      1000 * ticksPerFrame stagePastPairs ≤ (stagePastPairs.stage 0).fb := by decide

theorem stagePastPairs_tripped :
    stagePairs (ticked stagePastPairs) 0 = [70, 71, 72] ∧ (ticked stagePastPairs).rd (Fld.PWM_STATUS_STATE 72) = 3 ∧
      (ticked stagePastPairs).rd (Fld.PWM_EVENTS_TRIP_CLR_REFUSED 72) = 0 := by decide

/-- Refutes O32: at the entry into STARTING only the registers of the stage and of the 72 pairs are said to change, where the clear of a stage
whose PAIR_FIRST maps it past pair 71 reaches the addresses beyond. -/
theorem not_gridStages : ¬ Obligations.GridStages := by
  rintro ⟨-, -, -, -, -, -, hclosed, -⟩
  obtain ⟨hstate, hfb, h20ms⟩ := stagePastPairs_closed
  obtain ⟨t, ht, -, -, -, -, hregs⟩ := hclosed stagePastPairs 0 hstate hfb h20ms
  obtain rfl := Host.Outcome.next.inj ((exec_contactorClosed (g := 0) hstate hfb h20ms).symm.trans ht)
  obtain ⟨hpairs, htripped, hclear⟩ := stagePastPairs_tripped
  rcases stageStarting_pastPairs hpairs htripped hclear with hevents | hstatus
  · exact hevents (hregs _ (by decide))
  · exact hstatus (hregs _ (by decide))

end Sys2Proof.Machine
end

