-- ==== Sys2Proof/Proofs/GridSync.lean ====
section
/-!
PROOFS. Proofs/GridSync.lean: the update of a grid-sync unit, from its three results or coasting, and its lock (R326, R327, R329, R331; O31).
-/
namespace Sys2Proof.Machine

/-! ### What the operations of a unit leave alone -/

@[simp] theorem unit_wr (s : State) (f : FRef) (v u : Nat) : (s.wr f v).unit u = s.unit u := rfl

@[simp] theorem unit_logEv (s : State) (source code datum u : Nat) : (s.logEv source code datum).unit u = s.unit u := by
  rw [State.unit, logEv_units, State.unit]

@[simp] theorem unit_setUnit_same (s : State) (u : Nat) (q : GsUnit) : (s.setUnit u q).unit u = q := Tab.get_set_same ..

@[simp] theorem rd_setUnit (s : State) (u : Nat) (q : GsUnit) (f : FRef) : (s.setUnit u q).rd f = s.rd f := rfl

theorem unit_setUnit_ne (s : State) {u v : Nat} (q : GsUnit) (h : v ≠ u) : (s.setUnit u q).unit v = s.unit v := Tab.get_set_ne _ _ _ _ (Ne.symm h)

/-- `t` differs from `s` at most in the registers of a list, the log and grid-sync unit `u`. -/
structure UnitFrame (l : List Nat) (u : Nat) (s t : State) : Prop where
  rest : t = { s with regs := t.regs, log := t.log, units := t.units }
  units : ∀ v, v ≠ u → t.unit v = s.unit v
  regs : RegsKept l s t

theorem UnitFrame.refl (l : List Nat) (u : Nat) (s : State) : UnitFrame l u s s := ⟨rfl, fun _ _ => rfl, fun _ _ => rfl⟩

theorem UnitFrame.trans {l : List Nat} {u : Nat} {r s t : State} (h : UnitFrame l u r s) (k : UnitFrame l u s t) : UnitFrame l u r t := by
  refine ⟨?_, fun v hv => (k.units v hv).trans (h.units v hv), fun a ha => (k.regs a ha).trans (h.regs a ha)⟩
  have hs := h.rest
  have ht := k.rest
  rw [hs] at ht
  exact ht

section
variable {l : List Nat} {u : Nat} {r s : State} (h : UnitFrame l u r s)
include h

theorem UnitFrame.wr {f : FRef} {v : Nat} (hf : f.addr ∈ l) : UnitFrame l u r (s.wr f v) :=
  h.trans ⟨rfl, fun _ _ => rfl, fun _ ha => reg_wr_ne s v (fun he => ha (he ▸ hf))⟩

theorem UnitFrame.setUnit {q : GsUnit} : UnitFrame l u r (s.setUnit u q) :=
  h.trans ⟨rfl, fun _ hv => unit_setUnit_ne s q hv, fun _ _ => rfl⟩

theorem UnitFrame.logEv {source code datum : Nat} (hl : Reg.LOG_STATUS ∈ l) : UnitFrame l u r (s.logEv source code datum) := by
  have hlog := logEv_spec s source code datum
  refine h.trans ⟨?_, fun _ _ => unit_logEv .., fun a ha => reg_logEv s _ _ _ (fun he => ha (he ▸ hl))⟩
  generalize s.logEv source code datum = t at hlog
  rw [hlog]

end

/-! ### The start of a unit (R327) -/

section
variable (s : State) (u : Nat)

/-- Unit `u` as an update finds it: as it stands, or started. -/
def unitFound : GsUnit :=
  if (s.unit u).started then s.unit u else { restUnit with w := 6746518852 * (if s.rdB (Fld.GS_CFG_F_NOM u) then 60 else 50) }

/-- The state in which unit `u` has started. -/
def unitBegun : State := if (s.unit u).started then s else unitStart u s

theorem unitBegun_unit : (unitBegun s u).unit u = { unitFound s u with started := true } := by
  unfold unitBegun unitFound
  split
  · next h => rw [← h]
  · rw [unitStart, unit_setUnit_same, fNom]
    split <;> rfl

theorem unitBegun_frame (l : List Nat) : UnitFrame l u s (unitBegun s u) := by
  unfold unitBegun
  split
  · exact .refl l u s
  · exact (UnitFrame.refl l u s).setUnit

end

/-! ### The values of an update (R325, R327) -/

section
variable (s : State) (u : Nat) (q : GsUnit)

/-- The phase of number `n` of unit `u` (R325). -/
def unitPhase (n : Nat) : Int := phaseValue s u n ((unitSources s u).getD n (0, 0))

/-- α of the three phases. -/
def unitAlpha : Int := sat32 (roundDiv (2 * unitPhase s u 0 - unitPhase s u 1 - unitPhase s u 2) 3)

/-- β of the three phases. -/
def unitBeta : Int := sat32 (roundDiv ((unitPhase s u 1 - unitPhase s u 2) * sqrt3) (3 * 2 ^ 40))

/-- The integrators of α after the tick, from unit state `q`. -/
def sogiAlpha : Int × Int :=
  sogi (s.rd (Fld.GS_CFG_K_SOGI u)) (ticksPerFrame s) q.w (add40 (unitAlpha s u) (-q.x1a)) q.x1a q.x2a

/-- The integrators of β after the tick, from unit state `q`. -/
def sogiBeta : Int × Int :=
  sogi (s.rd (Fld.GS_CFG_K_SOGI u)) (ticksPerFrame s) q.w (add40 (unitBeta s u) (-q.x1b)) q.x1b q.x2b

/-- The magnitude of the positive sequence. -/
def unitV1 : Int :=
  magnitude (half40 (sogiAlpha s u q).1 (-(sogiBeta s u q).2)) (half40 (sogiAlpha s u q).2 (sogiBeta s u q).1)

/-- The magnitude of the negative sequence. -/
def unitV2 : Int :=
  magnitude (half40 (sogiAlpha s u q).1 (sogiBeta s u q).2) (half40 (sogiBeta s u q).1 (-(sogiAlpha s u q).2))

/-- V1 lies below 0.05 p.u. (R331). -/
def unitFrozen : Bool := decide (unitV1 s u q < vFloor)

/-- w after the tick: held or from the frequency-locked loop, and within F_NOM ± 10 Hz. -/
def unitW : Int :=
  clampInt (twoPi * (fNom s u - 10 : Nat)) (twoPi * (fNom s u + 10 : Nat))
    (if unitFrozen s u q then q.w
     else fllStep s u q.w (add40 (mul40 (add40 (unitAlpha s u) (-q.x1a)) (sogiAlpha s u q).2)
      (mul40 (add40 (unitBeta s u) (-q.x1b)) (sogiBeta s u q).2)) (unitV1 s u q))

/-- The hidden part of the unit after the tick. -/
def unitMoved : GsUnit :=
  lockCount s u (unitV1 s u q) (freqOf (unitW s u q))
    { q with x1a := (sogiAlpha s u q).1, x2a := (sogiAlpha s u q).2, x1b := (sogiBeta s u q).1, x2b := (sogiBeta s u q).2, w := unitW s u q }

end

/-- The time of the lock conditions is counted apart from the integrators. -/
theorem lockCount_spec (s : State) (u : Nat) (v1 : Int) (f : Nat) (q : GsUnit) :
    lockCount s u v1 f q = { q with
      lockTicks := (lockCount s u v1 f q).lockTicks, fMin := (lockCount s u v1 f q).fMin, fMax := (lockCount s u v1 f q).fMax } := by
  unfold lockCount
  split
  · extract_lets lo hi
    split <;> rfl
  · rfl

/-- F of a w between two whole frequencies in Hz lies between them. -/
theorem freqOf_between {w : Int} {lo hi : Nat} (hlo : twoPi * lo ≤ w) (hhi : w ≤ twoPi * hi) :
    lo * 65536 ≤ freqOf w ∧ freqOf w ≤ hi * 65536 := by
  have hd : twoPi.toNat = 6746518852 := rfl
  simp only [twoPi] at hlo hhi
  rw [freqOf, hd, roundDiv, if_pos (by omega)]
  omega

theorem clampInt_between {lo hi : Int} (h : lo ≤ hi) (v : Int) : lo ≤ clampInt lo hi v ∧ clampInt lo hi v ≤ hi := by
  unfold clampInt
  split
  · omega
  · split <;> omega

theorem clampInt_of_between {lo hi v : Int} (hlo : lo ≤ v) (hhi : v ≤ hi) : clampInt lo hi v = v := by
  rw [clampInt, if_neg (by omega), if_neg (by omega)]

theorem fNom_le (s : State) (u : Nat) : fNom s u ≤ 60 := by
  unfold fNom
  split <;> omega

section
variable (s : State) (u : Nat) (q : GsUnit)

theorem freqOf_unitW : (fNom s u - 10) * 65536 ≤ freqOf (unitW s u q) ∧ freqOf (unitW s u q) ≤ (fNom s u + 10) * 65536 := by
  obtain ⟨hlo, hhi⟩ := clampInt_between (lo := twoPi * (fNom s u - 10 : Nat)) (hi := twoPi * (fNom s u + 10 : Nat))
    (by simp only [twoPi]; omega) (if unitFrozen s u q then q.w
     else fllStep s u q.w (add40 (mul40 (add40 (unitAlpha s u) (-q.x1a)) (sogiAlpha s u q).2)
      (mul40 (add40 (unitBeta s u) (-q.x1b)) (sogiBeta s u q).2)) (unitV1 s u q))
  exact freqOf_between hlo hhi

theorem freqOf_unitW_lt : freqOf (unitW s u q) < 2 ^ 32 := by
  have hle := (freqOf_unitW s u q).2
  have hnom := fNom_le s u
  omega

/-- While V1 is below 0.05 p.u. a w within the limits is held (R331). -/
theorem unitW_frozen (h : unitFrozen s u q = true) (hlo : twoPi * (fNom s u - 10 : Nat) ≤ q.w) (hhi : q.w ≤ twoPi * (fNom s u + 10 : Nat)) :
    unitW s u q = q.w := by
  rw [unitW, if_pos h]
  exact clampInt_of_between hlo hhi

end

/-! ### The registers of an update (R326 to R329) -/

/-- What an update writes into the registers of its unit. -/
structure UnitShown where
  v1 : Int
  v2 : Int
  vMin : Int
  vMax : Int
  vFast : Int
  th1 : Nat
  th2 : Nat
  f : Nat
  freeze : Bool

/-- The registers of unit `u` show an update. -/
def showUnit (u : Nat) (x : UnitShown) (s : State) : State :=
  let s := (s.wrI (Fld.GS_V1 u) (sat32 x.v1)).wrI (Fld.GS_V2 u) (sat32 x.v2)
  let s := (s.wrI (Fld.GS_VPH_MIN u) (sat32 x.vMin)).wrI (Fld.GS_VPH_MAX u) (sat32 x.vMax)
  let s := (s.wrI (Fld.GS_VFAST u) (sat32 x.vFast)).wr (Fld.GS_THETA1 u) x.th1
  let s := (s.wr (Fld.GS_THETA2 u) x.th2).wr (Fld.GS_FREQ u) x.f
  let s := (s.wrB (Fld.GS_STATUS_FREEZE u) x.freeze).wr (Fld.GS_STATUS_COAST u) 0
  (s.wr (Fld.GS_STATUS_STALE_CNT u) 0).wr (Fld.GS_STATUS_ANG_OK u) 1

/-- The registers of unit `u` after an update from unit state `q`; while V1 is below 0.05 p.u. the angle advances at the held frequency. -/
def unitShown (s : State) (u : Nat) (q : GsUnit) : UnitShown :=
  let a := sogiAlpha s u q
  let b := sogiBeta s u q
  let f := freqOf (unitW s u q)
  let m := phaseMags (s.rdB (Fld.GS_CFG_VMON u)) a.1 a.2 b.1 b.2
  { v1 := unitV1 s u q, v2 := unitV2 s u q, vMin := minOf m, vMax := maxOf m, vFast := magnitude (unitAlpha s u) (unitBeta s u),
    th1 := if unitFrozen s u q then angleHeld s u f
      else (((atan2 (half40 a.2 b.1) (half40 a.1 (-b.2)) : Int) +
        angleAdvance f (20000 / ticksPerFrame s - s.rdI (Fld.GS_TIMING_CENTRE_OFS u)) + s.rd (Fld.GS_ANG_CAL u)) % 2 ^ 32).toNat,
    th2 := atan2 (half40 b.1 (-a.2)) (half40 a.1 b.2), f := f, freeze := unitFrozen s u q }

theorem unitCompute_eq (u : Nat) (s : State) :
    unitCompute u s = showUnit u (unitShown s u (s.unit u)) (s.setUnit u (unitMoved s u (s.unit u))) := by
  unfold unitCompute
  extract_lets q t src v i va vb k ea eb a b v1a v1b v2a v2b v1 v2 freeze ef w0 w f th1 pub m s1 s2 s3 s4 s5 s6
  have ha : a = sogiAlpha s u q := rfl
  have hb : b = sogiBeta s u q := rfl
  have hw : w = unitW s u q := rfl
  have h1 : s1 = s.setUnit u (unitMoved s u q) := rfl
  have hx : unitShown s u q = ⟨v1, v2, minOf m, maxOf m, magnitude va vb, pub, atan2 v2b v2a, f, freeze⟩ := by
    unfold unitShown
    rw [← ha, ← hb, ← hw]
    rfl
  rw [hx, ← h1]
  clear hx h1 ha hb hw
  clear_value s1 v1 v2 m va vb pub v2a v2b f freeze
  rfl

theorem sat32_between (v : Int) : -(2 ^ 31) ≤ sat32 v ∧ sat32 v < 2 ^ 31 := by
  have h := clampInt_between (lo := -(2 ^ 31)) (hi := 2 ^ 31 - 1) (by omega) v
  unfold sat32
  omega

/-- A field of 32 bits that holds a signed value reads as that value. -/
theorem rdI_of_rd_ofInt {s : State} {f : FRef} {v : Int} (hf : f.width = 32) (hv : -(2 ^ 31) ≤ v ∧ v < 2 ^ 31) (h : s.rd f = ofInt 32 v) :
    s.rdI f = v := by
  rw [State.rdI, hf, h, ofInt]
  split <;> omega

theorem ofInt_lt (w : Nat) (v : Int) : ofInt w v < 2 ^ w := by
  have hpos : (0 : Int) < 2 ^ w := by positivity
  have hlt := Int.emod_lt_of_pos v hpos
  have hnn := Int.emod_nonneg v hpos.ne'
  unfold ofInt
  zify
  rw [Int.toNat_of_nonneg hnn]
  exact hlt

theorem angleHeld_lt (s : State) (u f : Nat) : angleHeld s u f < 2 ^ 32 := by
  unfold angleHeld
  omega

section
variable (u : Nat) (x : UnitShown) (s : State)

theorem rd_showUnit :
    let t := showUnit u x s
    t.rd (Fld.GS_V1 u) = ofInt 32 (sat32 x.v1) ∧ t.rd (Fld.GS_V2 u) = ofInt 32 (sat32 x.v2) ∧
    t.rd (Fld.GS_THETA1 u) = x.th1 % 2 ^ 32 ∧ t.rd (Fld.GS_FREQ u) = x.f % 2 ^ 32 ∧ t.rd (Fld.GS_STATUS_FREEZE u) = x.freeze.toNat ∧
    t.rd (Fld.GS_STATUS_COAST u) = 0 ∧ t.rd (Fld.GS_STATUS_STALE_CNT u) = 0 ∧ t.rd (Fld.GS_STATUS_ANG_OK u) = 1 ∧
    t.rd (Fld.GS_STATUS_LOCKED u) = s.rd (Fld.GS_STATUS_LOCKED u) := by
  have hv (v : Int) : ofInt 32 v % 4294967296 = ofInt 32 v := Nat.mod_eq_of_lt (ofInt_lt 32 v)
  have hb : x.freeze.toNat % 2 = x.freeze.toNat := Nat.mod_eq_of_lt x.freeze.toNat_lt
  simp [showUnit, State.wrI, rd_wr_apart, rd_wr_same, FRef.ok, FRef.apart, FRef.width, hv, hb]

/-- The registers that an update may write. -/
def unitRegs : List Nat :=
  [Reg.GS_STATUS u, Reg.GS_EVENTS u, Reg.GS_V1 u, Reg.GS_V2 u, Reg.GS_VPH_MIN u, Reg.GS_VPH_MAX u, Reg.GS_VFAST u, Reg.GS_THETA1 u,
    Reg.GS_THETA2 u, Reg.GS_FREQ u, Reg.LOG_STATUS]

theorem showUnit_frame : UnitFrame (unitRegs u) u s (showUnit u x s) := by
  refine (((((((((((UnitFrame.refl (unitRegs u) u s).wr ?_).wr ?_).wr ?_).wr ?_).wr ?_).wr ?_).wr ?_).wr ?_).wr ?_).wr ?_).wr ?_ |>.wr ?_
  all_goals simp [unitRegs]

end

theorem unitReg_ne_log (u : Nat) :
    Reg.GS_STATUS u ≠ Reg.LOG_STATUS ∧ Reg.GS_EVENTS u ≠ Reg.LOG_STATUS ∧ Reg.GS_V1 u ≠ Reg.LOG_STATUS ∧ Reg.GS_V2 u ≠ Reg.LOG_STATUS ∧
    Reg.GS_THETA1 u ≠ Reg.LOG_STATUS ∧ Reg.GS_FREQ u ≠ Reg.LOG_STATUS := by
  simp only [Reg.GS_STATUS, Reg.GS_EVENTS, Reg.GS_V1, Reg.GS_V2, Reg.GS_THETA1, Reg.GS_FREQ, Reg.LOG_STATUS]
  omega

/-! ### A coasted tick (R326) -/

section
variable (u : Nat) (s : State)

/-- Another coasted tick takes STALE_CNT past STALE_TICKS. -/
def passesStale : Bool :=
  decide (s.rd (Fld.GS_STATUS_STALE_CNT u) ≤ s.rd (Fld.GS_CFG_STALE_TICKS u)) &&
    decide (s.rd (Fld.GS_CFG_STALE_TICKS u) < Nat.min 255 (s.rd (Fld.GS_STATUS_STALE_CNT u) + 1))

/-- The unit after a coasted tick, but for the end of its published angle. -/
def unitCoasted : State :=
  (((s.setUnit u (lockCount s u (s.rdI (Fld.GS_V1 u)) (s.rd (Fld.GS_FREQ u)) (s.unit u))).wr (Fld.GS_STATUS_COAST u) 1).wr (Fld.GS_THETA1 u)
    (angleHeld s u (freqOf (s.unit u).w))).inc (Fld.GS_STATUS_STALE_CNT u)

theorem rd_unitCoasted_staleCnt :
    (unitCoasted u s).rd (Fld.GS_STATUS_STALE_CNT u) = Nat.min 255 (s.rd (Fld.GS_STATUS_STALE_CNT u) + 1) := by
  rw [unitCoasted, inc_eq, rd_wr_same _ _ _ (by simp [FRef.ok]), rd_wr_apart _ _ _ _ (by simp [FRef.ok]) (by simp [FRef.ok]) (by simp [FRef.apart]),
    rd_wr_apart _ _ _ _ (by simp [FRef.ok]) (by simp [FRef.ok]) (by simp [FRef.apart]), rd_setUnit]
  exact (Nat.mod_eq_of_lt ((Nat.min_le_right _ _).trans_lt (Nat.sub_lt (Nat.two_pow_pos _) Nat.one_pos))).trans (Nat.min_comm _ _)

/-- A tick that takes STALE_CNT past STALE_TICKS ends the published angle. -/
theorem unitCoast_eq : unitCoast u s =
    if passesStale u s then (((unitCoasted u s).wr (Fld.GS_STATUS_ANG_OK u) 0).wr (Fld.GS_EVENTS_STALE_EV u) 1).logEv 0x13 0x0003 u
    else unitCoasted u s := by
  have hticks : (unitCoasted u s).rd (Fld.GS_CFG_STALE_TICKS u) = s.rd (Fld.GS_CFG_STALE_TICKS u) := by
    rw [unitCoasted, inc_eq, rd_wr_ne _ _ _ _ (by simp), rd_wr_ne _ _ _ _ (by simp), rd_wr_ne _ _ _ _ (by simp)]
    rfl
  have hpass : passesStale u s = decide (s.rd (Fld.GS_STATUS_STALE_CNT u) ≤ (unitCoasted u s).rd (Fld.GS_CFG_STALE_TICKS u) ∧
      (unitCoasted u s).rd (Fld.GS_CFG_STALE_TICKS u) < (unitCoasted u s).rd (Fld.GS_STATUS_STALE_CNT u)) := by
    rw [hticks, rd_unitCoasted_staleCnt, Bool.decide_and]
    rfl
  rw [hpass]
  simp only [decide_eq_true_eq]
  rfl

theorem rd_unitCoasted :
    let t := unitCoasted u s
    t.rd (Fld.GS_THETA1 u) = angleHeld s u (freqOf (s.unit u).w) ∧ t.rd (Fld.GS_STATUS_COAST u) = 1 ∧
    t.rd (Fld.GS_STATUS_ANG_OK u) = s.rd (Fld.GS_STATUS_ANG_OK u) ∧ t.rd (Fld.GS_STATUS_LOCKED u) = s.rd (Fld.GS_STATUS_LOCKED u) := by
  have hang : angleHeld s u (freqOf (s.unit u).w) % 4294967296 = angleHeld s u (freqOf (s.unit u).w) := Nat.mod_eq_of_lt (angleHeld_lt s u _)
  simp [unitCoasted, rd_wr_apart, rd_wr_same, FRef.ok, FRef.apart, FRef.width, hang]

/-- The registers that a coasted tick may write. -/
def coastRegs : List Nat := [Reg.GS_STATUS u, Reg.GS_EVENTS u, Reg.GS_THETA1 u, Reg.LOG_STATUS]

theorem unitCoasted_frame : UnitFrame (coastRegs u) u s (unitCoasted u s) := by
  refine (((UnitFrame.refl (coastRegs u) u s).setUnit.wr ?_).wr ?_).wr ?_
  all_goals simp [coastRegs]

theorem unitCoast_frame : UnitFrame (coastRegs u) u s (unitCoast u s) := by
  have h := unitCoasted_frame u s
  rw [unitCoast_eq]
  split
  · exact ((h.wr (by simp [coastRegs])).wr (by simp [coastRegs])).logEv (by simp [coastRegs])
  · exact h

theorem unitCoast_unit : (unitCoast u s).unit u = lockCount s u (s.rdI (Fld.GS_V1 u)) (s.rd (Fld.GS_FREQ u)) (s.unit u) := by
  rw [unitCoast_eq]
  split <;> simp [unitCoasted]

/-- The registers of unit `u` after a coasted tick (R326). -/
theorem rd_unitCoast :
    let t := unitCoast u s
    t.rd (Fld.GS_THETA1 u) = angleHeld s u (freqOf (s.unit u).w) ∧ t.rd (Fld.GS_STATUS_COAST u) = 1 ∧
    t.rd (Fld.GS_STATUS_STALE_CNT u) = Nat.min 255 (s.rd (Fld.GS_STATUS_STALE_CNT u) + 1) ∧
    t.rdB (Fld.GS_STATUS_ANG_OK u) = (s.rdB (Fld.GS_STATUS_ANG_OK u) && !passesStale u s) ∧
    t.rdB (Fld.GS_STATUS_LOCKED u) = s.rdB (Fld.GS_STATUS_LOCKED u) ∧
    t.rdB (Fld.GS_EVENTS_STALE_EV u) = (s.rdB (Fld.GS_EVENTS_STALE_EV u) || passesStale u s) ∧
    t.rdB (Fld.GS_EVENTS_UNLOCK_EV u) = s.rdB (Fld.GS_EVENTS_UNLOCK_EV u) := by
  obtain ⟨hang, hcoast, hok, hlocked⟩ := rd_unitCoasted u s
  have hcnt := rd_unitCoasted_staleCnt u s
  have hevents (f : FRef) (hf : f.addr = Reg.GS_EVENTS u) : (unitCoasted u s).rd f = s.rd f := by
    refine rd_congr f ?_
    rw [hf, unitCoasted, inc_eq, reg_wr_ne _ _ (by simp), reg_wr_ne _ _ (by simp), reg_wr_ne _ _ (by simp)]
    rfl
  have hstale := hevents (Fld.GS_EVENTS_STALE_EV u) rfl
  have hunlock := hevents (Fld.GS_EVENTS_UNLOCK_EV u) rfl
  dsimp only
  rw [unitCoast_eq]
  cases passesStale u s with
  | false => simp [hang, hcoast, hok, hlocked, hcnt, hstale, hunlock]
  | true => simp [rd_logEv, unitReg_ne_log, rd_wr_apart, rd_wr_same, FRef.ok, FRef.apart, FRef.width, hang, hcoast, hlocked, hcnt, hunlock]

end

/-! ### The fall of LOCKED (R331) -/

section
variable (u : Nat) (s : State)

/-- Unit `u` may stay locked: V1 and F are within their limits and the angle is good. -/
def staysLocked : Bool :=
  decide (vFloor ≤ s.rdI (Fld.GS_V1 u)) && nearNom s u 6 (s.rd (Fld.GS_FREQ u)) && s.rdB (Fld.GS_STATUS_ANG_OK u)

theorem unlockCheck_eq : ∃ datum, unlockCheck u s =
    if s.rdB (Fld.GS_STATUS_LOCKED u) && !staysLocked u s then
      ((s.wr (Fld.GS_STATUS_LOCKED u) 0).wr (Fld.GS_EVENTS_UNLOCK_EV u) 1).logEv 0x13 0x0002 datum
    else s := by
  unfold unlockCheck
  extract_lets low off noAng
  have hfall : (low || off || noAng) = !staysLocked u s := by
    simp only [low, off, noAng, staysLocked, Bool.not_and, ← decide_not, Int.not_le]
  rw [hfall]
  exact ⟨_, rfl⟩

theorem unlockCheck_frame {l : List Nat} (hstatus : Reg.GS_STATUS u ∈ l) (hevents : Reg.GS_EVENTS u ∈ l) (hlog : Reg.LOG_STATUS ∈ l) :
    UnitFrame l u s (unlockCheck u s) := by
  obtain ⟨datum, h⟩ := unlockCheck_eq u s
  rw [h]
  split
  · exact (((UnitFrame.refl l u s).wr hstatus).wr hevents).logEv hlog
  · exact .refl l u s

theorem unlockCheck_unit (v : Nat) : (unlockCheck u s).unit v = s.unit v := by
  obtain ⟨datum, h⟩ := unlockCheck_eq u s
  rw [h]
  split <;> simp

/-- Only LOCKED and its event follow the check. -/
theorem rd_unlockCheck :
    let t := unlockCheck u s
    t.rd (Fld.GS_V1 u) = s.rd (Fld.GS_V1 u) ∧ t.rd (Fld.GS_V2 u) = s.rd (Fld.GS_V2 u) ∧ t.rd (Fld.GS_THETA1 u) = s.rd (Fld.GS_THETA1 u) ∧
    t.rd (Fld.GS_FREQ u) = s.rd (Fld.GS_FREQ u) ∧ t.rd (Fld.GS_STATUS_FREEZE u) = s.rd (Fld.GS_STATUS_FREEZE u) ∧
    t.rd (Fld.GS_STATUS_COAST u) = s.rd (Fld.GS_STATUS_COAST u) ∧ t.rd (Fld.GS_STATUS_STALE_CNT u) = s.rd (Fld.GS_STATUS_STALE_CNT u) ∧
    t.rd (Fld.GS_STATUS_ANG_OK u) = s.rd (Fld.GS_STATUS_ANG_OK u) ∧ t.rd (Fld.GS_EVENTS_STALE_EV u) = s.rd (Fld.GS_EVENTS_STALE_EV u) := by
  obtain ⟨datum, h⟩ := unlockCheck_eq u s
  rw [h]
  split
  · simp [rd_logEv, unitReg_ne_log, rd_wr_apart, FRef.ok, FRef.apart]
  · simp

theorem rdB_unlockCheck :
    (unlockCheck u s).rdB (Fld.GS_STATUS_LOCKED u) = (s.rdB (Fld.GS_STATUS_LOCKED u) && staysLocked u s) ∧
    (unlockCheck u s).rdB (Fld.GS_EVENTS_UNLOCK_EV u) =
      (s.rdB (Fld.GS_EVENTS_UNLOCK_EV u) || (s.rdB (Fld.GS_STATUS_LOCKED u) && !staysLocked u s)) := by
  obtain ⟨datum, h⟩ := unlockCheck_eq u s
  rw [h]
  cases hlocked : s.rdB (Fld.GS_STATUS_LOCKED u) <;> cases hstays : staysLocked u s
  case true.false => simp [rd_logEv, unitReg_ne_log, rd_wr_apart, rd_wr_same, FRef.ok, FRef.apart, FRef.width]
  all_goals simpa using hlocked

end

/-! ### The update of a tick (R22, R326) -/

section
variable (u : Nat) (s : State)

theorem rd_unitBegun (f : FRef) : (unitBegun s u).rd f = s.rd f := rd_congr f ((unitBegun_frame s u []).regs _ (by simp))

theorem rdB_unitBegun (f : FRef) : (unitBegun s u).rdB f = s.rdB f := by rw [State.rdB, rd_unitBegun, State.rdB]

theorem ticksPerFrame_unitBegun : ticksPerFrame (unitBegun s u) = ticksPerFrame s := by rw [ticksPerFrame, rd_unitBegun, ticksPerFrame]

theorem fNom_unitBegun : fNom (unitBegun s u) u = fNom s u := by rw [fNom, rdB_unitBegun, fNom]

theorem angleHeld_unitBegun (f : Nat) : angleHeld (unitBegun s u) u f = angleHeld s u f := by
  rw [angleHeld, rd_unitBegun, ticksPerFrame_unitBegun, angleHeld]

theorem unitPhase_unitBegun (n : Nat) : unitPhase (unitBegun s u) u n = unitPhase s u n := by
  unfold unitBegun
  split <;> rfl

theorem sogi_unitBegun (q : GsUnit) :
    sogiAlpha (unitBegun s u) u q = sogiAlpha s u q ∧ sogiBeta (unitBegun s u) u q = sogiBeta s u q := by
  simp only [sogiAlpha, sogiBeta, unitAlpha, unitBeta, unitPhase_unitBegun, rd_unitBegun, ticksPerFrame_unitBegun, and_self]

theorem unitV_unitBegun (q : GsUnit) : unitV1 (unitBegun s u) u q = unitV1 s u q ∧ unitV2 (unitBegun s u) u q = unitV2 s u q := by
  simp only [unitV1, unitV2, sogi_unitBegun, and_self]

/-- The start of a unit is none of the things that decide whether it updates or coasts. -/
theorem usable_unitBegun : (unitSources (unitBegun s u) u).all (resultUsable (unitBegun s u)) = (unitSources s u).all (resultUsable s) := by
  unfold unitBegun
  split <;> rfl

theorem unitUpdate_eq : unitUpdate u s =
    unlockCheck u (if (unitSources s u).all (resultUsable s) then unitCompute u (unitBegun s u) else unitCoast u (unitBegun s u)) := by
  rw [← usable_unitBegun]
  rfl

/-- The one update of unit `u` in a tick. -/
def unitTick : State := (unitUpdate u s).setUnit u { (unitUpdate u s).unit u with done := true }

theorem rd_unitTick (f : FRef) : (unitTick u s).rd f = (unitUpdate u s).rd f := rfl

end

theorem rdI_congr {s t : State} {f : FRef} (h : t.rd f = s.rd f) : t.rdI f = s.rdI f := by rw [State.rdI, h, State.rdI]

/-- A field of one bit that is not 0 reads 1. -/
theorem rd_eq_one {s : State} {f : FRef} (hf : f.ok) (hw : f.width = 1) (h : s.rd f ≠ 0) : s.rd f = 1 := by
  have hlt := rd_lt s f hf
  rw [hw] at hlt
  omega

/-- V1 lies below 0.05 p.u. where its register does. -/
theorem sat32_lt_vFloor (v : Int) : sat32 v < vFloor ↔ v < vFloor := by
  unfold sat32 clampInt vFloor
  split
  · omega
  · split <;> omega

/-- The hidden part of unit `u` and its registers show an update from unit state `q` in state `s` (R327 to R329). -/
structure UnitComputed (u : Nat) (q : GsUnit) (s t : State) : Prop where
  x1a : (t.unit u).x1a = (sogiAlpha s u q).1
  x2a : (t.unit u).x2a = (sogiAlpha s u q).2
  x1b : (t.unit u).x1b = (sogiBeta s u q).1
  x2b : (t.unit u).x2b = (sogiBeta s u q).2
  w : (t.unit u).w = unitW s u q
  v1 : t.rdI (Fld.GS_V1 u) = sat32 (unitV1 s u q)
  v2 : t.rdI (Fld.GS_V2 u) = sat32 (unitV2 s u q)
  freq : t.rd (Fld.GS_FREQ u) = freqOf (unitW s u q)
  freeze : t.rdB (Fld.GS_STATUS_FREEZE u) = unitFrozen s u q
  held : unitFrozen s u q = true → t.rd (Fld.GS_THETA1 u) = angleHeld s u (freqOf (unitW s u q))
  coast : t.rd (Fld.GS_STATUS_COAST u) = 0
  staleCnt : t.rd (Fld.GS_STATUS_STALE_CNT u) = 0
  angOk : t.rd (Fld.GS_STATUS_ANG_OK u) = 1

theorem unitMoved_spec (s : State) (u : Nat) (q : GsUnit) :
    (unitMoved s u q).x1a = (sogiAlpha s u q).1 ∧ (unitMoved s u q).x2a = (sogiAlpha s u q).2 ∧
    (unitMoved s u q).x1b = (sogiBeta s u q).1 ∧ (unitMoved s u q).x2b = (sogiBeta s u q).2 ∧ (unitMoved s u q).w = unitW s u q := by
  rw [unitMoved, lockCount_spec]
  simp only [and_self]

theorem unitShown_spec (s : State) (u : Nat) (q : GsUnit) :
    (unitShown s u q).v1 = unitV1 s u q ∧ (unitShown s u q).v2 = unitV2 s u q ∧ (unitShown s u q).f = freqOf (unitW s u q) ∧
    (unitShown s u q).freeze = unitFrozen s u q ∧
    (unitFrozen s u q = true → (unitShown s u q).th1 = angleHeld s u (freqOf (unitW s u q))) := by
  simp +contextual only [unitShown, if_true, implies_true, and_self]

theorem unit_showUnit (u : Nat) (x : UnitShown) (s : State) (v : Nat) : (showUnit u x s).unit v = s.unit v := by
  simp [showUnit, State.wrI]

theorem unitCompute_computed (u : Nat) (s : State) : UnitComputed u (s.unit u) s (unitCompute u s) := by
  rw [unitCompute_eq]
  generalize s.unit u = q
  obtain ⟨hxv1, hxv2, hxf, hxfreeze, hxth1⟩ := unitShown_spec s u q
  obtain ⟨hv1, hv2, hth1, hf, hfreeze, hcoast, hcnt, hok, -⟩ := rd_showUnit u (unitShown s u q) (s.setUnit u (unitMoved s u q))
  obtain ⟨hx1a, hx2a, hx1b, hx2b, hw⟩ := unitMoved_spec s u q
  have hunit : (showUnit u (unitShown s u q) (s.setUnit u (unitMoved s u q))).unit u = unitMoved s u q := by
    rw [unit_showUnit, unit_setUnit_same]
  rw [← hunit] at hx1a hx2a hx1b hx2b hw
  exact {
    x1a := hx1a, x2a := hx2a, x1b := hx1b, x2b := hx2b, w := hw, coast := hcoast, staleCnt := hcnt, angOk := hok
    v1 := rdI_of_rd_ofInt rfl (sat32_between _) (hxv1 ▸ hv1)
    v2 := rdI_of_rd_ofInt rfl (sat32_between _) (hxv2 ▸ hv2)
    freq := by rw [hf, hxf, Nat.mod_eq_of_lt (freqOf_unitW_lt s u q)]
    freeze := rdB_of_rd (hxfreeze ▸ hfreeze)
    held := fun h => by rw [hth1, hxth1 h, Nat.mod_eq_of_lt (angleHeld_lt s u _)] }

/-- The check of the lock leaves what an update shows. -/
theorem UnitComputed.unlockCheck {u : Nat} {q : GsUnit} {s t : State} (h : UnitComputed u q s t) : UnitComputed u q s (unlockCheck u t) := by
  obtain ⟨hv1, hv2, hth1, hf, hfreeze, hcoast, hcnt, hok, -⟩ := rd_unlockCheck u t
  have hunit := unlockCheck_unit u t u
  exact {
    x1a := hunit ▸ h.x1a, x2a := hunit ▸ h.x2a, x1b := hunit ▸ h.x1b, x2b := hunit ▸ h.x2b, w := hunit ▸ h.w
    v1 := (rdI_congr hv1).trans h.v1
    v2 := (rdI_congr hv2).trans h.v2
    freq := hf.trans h.freq
    freeze := by rw [State.rdB, hfreeze]; exact h.freeze
    held := fun hz => hth1.trans (h.held hz)
    coast := hcoast.trans h.coast
    staleCnt := hcnt.trans h.staleCnt
    angOk := hok.trans h.angOk }

section
variable (u : Nat) (s : State)

theorem unitTick_unit :
    let t := unitTick u s
    (t.unit u).x1a = ((unitUpdate u s).unit u).x1a ∧ (t.unit u).x2a = ((unitUpdate u s).unit u).x2a ∧
    (t.unit u).x1b = ((unitUpdate u s).unit u).x1b ∧ (t.unit u).x2b = ((unitUpdate u s).unit u).x2b ∧
    (t.unit u).w = ((unitUpdate u s).unit u).w := by
  simp [unitTick]

theorem unitCompute_frame : UnitFrame (unitRegs u) u s (unitCompute u s) := by
  rw [unitCompute_eq]
  exact (UnitFrame.refl _ u s).setUnit.trans (showUnit_frame ..)

theorem unitTick_frame {l : List Nat} (h : UnitFrame l u s (unitUpdate u s)) : UnitFrame l u s (unitTick u s) := h.setUnit

theorem unitTick_usable_frame (h : (unitSources s u).all (resultUsable s) = true) : UnitFrame (unitRegs u) u s (unitTick u s) := by
  refine unitTick_frame u s ?_
  rw [unitUpdate_eq, if_pos h]
  exact ((unitBegun_frame s u _).trans (unitCompute_frame u _)).trans
    (unlockCheck_frame u _ (by simp [unitRegs]) (by simp [unitRegs]) (by simp [unitRegs]))

theorem unitTick_coasting_frame (h : (unitSources s u).all (resultUsable s) = false) : UnitFrame (coastRegs u) u s (unitTick u s) := by
  refine unitTick_frame u s ?_
  rw [unitUpdate_eq, if_neg (by simp [h])]
  exact ((unitBegun_frame s u _).trans (unitCoast_frame u _)).trans
    (unlockCheck_frame u _ (by simp [coastRegs]) (by simp [coastRegs]) (by simp [coastRegs]))

end

theorem exec_gsUpdate_pcc {s : State} (hon : unitOn s 8 = true) (hrun : s.rd Fld.SCHED_CFG_TICK_RUN = 1) (hlock : s.rd Fld.CLK_STATUS_CTRL_LOCK = 1)
    (hdone : (s.unit 8).done = false) : exec (.gsUpdate 8) s = .next (unitTick 8 (ticked s)) := by
  show execGsUpdate 8 s = _
  have hon' : unitOn (ticked s) 8 = true := hon
  have hrun' : (ticked s).rd Fld.SCHED_CFG_TICK_RUN = 1 := hrun
  have hlock' : (ticked s).rd Fld.CLK_STATUS_CTRL_LOCK = 1 := hlock
  have hdone' : ((ticked s).unit 8).done = false := hdone
  rw [execGsUpdate, run_ticked]
  refine congrArg _ ((if_pos ?_).trans (if_pos rfl))
  simp [hon', hrun', hlock', hdone']

theorem exec_gsUpdate_idle {s : State} {u : Fin 9} (h : unitOn s u = false ∨ s.rd Fld.SCHED_CFG_TICK_RUN = 0 ∨ s.rd Fld.CLK_STATUS_CTRL_LOCK = 0 ∨
    (s.unit u).done = true) : exec (.gsUpdate u) s = .next (ticked s) := by
  replace h : unitOn (ticked s) u = false ∨ (ticked s).rd Fld.SCHED_CFG_TICK_RUN = 0 ∨ (ticked s).rd Fld.CLK_STATUS_CTRL_LOCK = 0 ∨
    ((ticked s).unit u).done = true := h
  show execGsUpdate u s = _
  rw [execGsUpdate, run_ticked]
  refine congrArg _ (if_neg ?_)
  rcases h with h | h | h | h <;> simp [h]

/-! ### The rise of LOCKED (R331) -/

/-- The log that an event leaves does not depend on registers other than the one that shows UNSYNCED (R112). -/
theorem wr_regs_only (s : State) (f : FRef) (v : Nat) : s.wr f v = { s with regs := (s.wr f v).regs } := rfl

theorem wr_wr_regs_only (s : State) (f g : FRef) (v w : Nat) : (s.wr f v).wr g w = { s with regs := ((s.wr f v).wr g w).regs } := by
  have hg := wr_regs_only (s.wr f v) g w
  generalize (s.wr f v).wr g w = t at hg ⊢
  have hf := wr_regs_only s f v
  generalize s.wr f v = r at hg hf
  rw [hg, hf]

theorem wr_wr_timeSync (s : State) {f g : FRef} (hf : f.addr ≠ Reg.TIME_SYNC) (hg : g.addr ≠ Reg.TIME_SYNC) (v w : Nat) :
    ((s.wr f v).wr g w).reg Reg.TIME_SYNC = s.reg Reg.TIME_SYNC :=
  (reg_wr_ne _ _ hg).trans (reg_wr_ne _ _ hf)

theorem logEv_log_wr_wr (s : State) {f g : FRef} (hf : f.addr ≠ Reg.TIME_SYNC) (hg : g.addr ≠ Reg.TIME_SYNC) (v w source code datum : Nat) :
    (((s.wr f v).wr g w).logEv source code datum).log = (s.logEv source code datum).log := by
  have hrest := wr_wr_regs_only s f g v w
  have hsync := wr_wr_timeSync s hf hg v w
  generalize (s.wr f v).wr g w = t at hrest hsync ⊢
  have hlan : t.lan = s.lan := by rw [hrest]
  exact logEv_log_congr source code datum (hlan ▸ hrest) (by rw [State.mainOn, hlan, State.mainOn]) hsync

theorem logEv_wr_wr_rest (s : State) (f g : FRef) (v w source code datum : Nat) :
    ((s.wr f v).wr g w).logEv source code datum = { s with
      regs := (((s.wr f v).wr g w).logEv source code datum).regs, log := (((s.wr f v).wr g w).logEv source code datum).log } :=
  logEv_spec ..

/-- Unit `u` becomes locked. -/
def unitLocked (u : Nat) (s : State) : State := ((s.wr (Fld.GS_STATUS_LOCKED u) 1).wr (Fld.GS_EVENTS_LOCK_EV u) 1).logEv 0x13 0x0001 u

section
variable (u : Nat) (s : State)

theorem rd_unitLocked : (unitLocked u s).rd (Fld.GS_STATUS_LOCKED u) = 1 ∧ (unitLocked u s).rd (Fld.GS_EVENTS_LOCK_EV u) = 1 := by
  simp [unitLocked, rd_logEv, unitReg_ne_log, rd_wr_apart, rd_wr_same, FRef.ok, FRef.apart, FRef.width]

theorem unitLocked_rest : unitLocked u s = { s with regs := (unitLocked u s).regs, log := (unitLocked u s).log } :=
  logEv_wr_wr_rest ..

theorem unitLocked_regsKept : RegsKept [Reg.GS_STATUS u, Reg.GS_EVENTS u, Reg.LOG_STATUS] s (unitLocked u s) := by
  intro a ha
  simp only [List.mem_cons, List.not_mem_nil, or_false, not_or] at ha
  obtain ⟨hstatus, hevents, hlog⟩ := ha
  rw [unitLocked, reg_logEv _ _ _ _ hlog, reg_wr_ne _ _ (Ne.symm hevents), reg_wr_ne _ _ (Ne.symm hstatus)]

theorem unitLocked_bitsKept : BitsKept (Reg.GS_STATUS u) [Fld.GS_STATUS_LOCKED u] s (unitLocked u s) := by
  have hreg : (unitLocked u s).reg (Reg.GS_STATUS u) = (s.wr (Fld.GS_STATUS_LOCKED u) 1).reg (Reg.GS_STATUS u) := by
    rw [unitLocked, reg_logEv _ _ _ _ (unitReg_ne_log u).1, reg_wr_ne _ _ (by simp)]
  intro n hn hout
  rw [hreg]
  exact bitsKept_wr s (Fld.GS_STATUS_LOCKED u) (by simp [FRef.ok]) 1 n hn hout

theorem unitLocked_log : (unitLocked u s).log = (s.logEv 0x13 0x0001 u).log := by
  refine logEv_log_wr_wr s ?_ ?_ 1 1 0x13 0x0001 u
  all_goals
    simp only [Reg.GS_STATUS, Reg.GS_EVENTS, Reg.TIME_SYNC]
    omega

end

section
variable {s : State} {u : Fin 9}

theorem exec_gsLock_rises (h100ms : 5000 * ticksPerFrame s ≤ (s.unit u).lockTicks) (hlocked : s.rd (Fld.GS_STATUS_LOCKED u) = 0)
    (hok : s.rd (Fld.GS_STATUS_ANG_OK u) = 1) : exec (.gsLock u) s = .next (unitLocked u (ticked s)) := by
  replace hlocked : (ticked s).rdB (Fld.GS_STATUS_LOCKED u) = false := by rw [rdB_eq]; exact decide_eq_false (not_not.mpr hlocked)
  replace hok : (ticked s).rdB (Fld.GS_STATUS_ANG_OK u) = true := by rw [rdB_eq]; exact decide_eq_true (hok.trans_ne Nat.one_ne_zero)
  show execGsLock u s = _
  rw [execGsLock, run_ticked]
  exact congrArg _ (if_pos ⟨h100ms, hlocked, hok⟩)

theorem exec_gsLock_early (h : (s.unit u).lockTicks < 5000 * ticksPerFrame s) : exec (.gsLock u) s = .next (ticked s) := by
  show execGsLock u s = _
  rw [execGsLock, run_ticked]
  exact congrArg _ (if_neg (fun hrise => absurd hrise.1 (Nat.not_le.mpr h)))

end

section
variable {u : Nat} {q : GsUnit} {s t : State} (h : UnitComputed u q s t)
include h

theorem UnitComputed.freeze_eq : t.rdB (Fld.GS_STATUS_FREEZE u) = decide (t.rdI (Fld.GS_V1 u) < vFloor) := by
  rw [h.freeze, h.v1, unitFrozen]
  exact decide_eq_decide.mpr (sat32_lt_vFloor _).symm

/-- While FREEZE shows, w stands and the angle advances at the held frequency (R331). -/
theorem UnitComputed.holds (hz : t.rd (Fld.GS_STATUS_FREEZE u) = 1) (hlo : twoPi * (fNom s u - 10 : Nat) ≤ q.w)
    (hhi : q.w ≤ twoPi * (fNom s u + 10 : Nat)) :
    (t.unit u).w = q.w ∧ t.rd (Fld.GS_THETA1 u) = angleHeld s u (t.rd (Fld.GS_FREQ u)) := by
  have hfrozen : unitFrozen s u q = true := by
    rw [← h.freeze, rdB_eq, hz]
    rfl
  exact ⟨h.w.trans (unitW_frozen s u q hfrozen hlo hhi), (h.held hfrozen).trans (by rw [h.freq])⟩

theorem UnitComputed.freq_between :
    (fNom s u - 10) * 65536 ≤ t.rd (Fld.GS_FREQ u) ∧ t.rd (Fld.GS_FREQ u) ≤ (fNom s u + 10) * 65536 := by
  rw [h.freq]
  exact freqOf_unitW s u q

end

/-! ### What an update and a coasted tick leave (R326 to R329, R331) -/

section
variable (u : Nat) (s : State)

theorem unitW_started (q : GsUnit) : unitW s u { q with started := true } = unitW s u q := by
  have hfrozen : unitFrozen s u { q with started := true } = unitFrozen s u q := rfl
  have halpha : sogiAlpha s u { q with started := true } = sogiAlpha s u q := rfl
  have hbeta : sogiBeta s u { q with started := true } = sogiBeta s u q := rfl
  have hv1 : unitV1 s u { q with started := true } = unitV1 s u q := rfl
  rw [unitW, hfrozen, halpha, hbeta, hv1, unitW]

theorem unitW_unitBegun (q : GsUnit) : unitW (unitBegun s u) u q = unitW s u q := by
  obtain ⟨halpha, hbeta⟩ := sogi_unitBegun u s q
  have hv1 := (unitV_unitBegun u s q).1
  have hfrozen : unitFrozen (unitBegun s u) u q = unitFrozen s u q := by rw [unitFrozen, hv1, unitFrozen]
  have hfll (w ef v1 : Int) : fllStep (unitBegun s u) u w ef v1 = fllStep s u w ef v1 := by
    simp only [fllStep, rd_unitBegun, ticksPerFrame_unitBegun]
  have hphases : unitAlpha (unitBegun s u) u = unitAlpha s u ∧ unitBeta (unitBegun s u) u = unitBeta s u := by
    simp only [unitAlpha, unitBeta, unitPhase_unitBegun, and_self]
  rw [unitW, hfrozen, halpha, hbeta, hv1, hfll, hphases.1, hphases.2, fNom_unitBegun, unitW]

/-- The update of a tick works on the unit as the tick finds it. -/
theorem unitTick_computed (h : (unitSources s u).all (resultUsable s) = true) : UnitComputed u (unitFound s u) s (unitTick u s) := by
  have hc := (unitCompute_computed u (unitBegun s u)).unlockCheck
  rw [unitBegun_unit, show unlockCheck u (unitCompute u (unitBegun s u)) = unitUpdate u s from ((unitUpdate_eq u s).trans (by rw [if_pos h])).symm] at hc
  obtain ⟨hx1a, hx2a, hx1b, hx2b, hw⟩ := unitTick_unit u s
  obtain ⟨halpha, hbeta⟩ := sogi_unitBegun u s { unitFound s u with started := true }
  obtain ⟨hv1, hv2⟩ := unitV_unitBegun u s { unitFound s u with started := true }
  have hwq := (unitW_unitBegun u s { unitFound s u with started := true }).trans (unitW_started u s _)
  have hfrozen : unitFrozen (unitBegun s u) u { unitFound s u with started := true } = unitFrozen s u (unitFound s u) := by
    rw [unitFrozen, hv1]; rfl
  exact {
    x1a := hx1a.trans (hc.x1a.trans (by rw [halpha]; rfl))
    x2a := hx2a.trans (hc.x2a.trans (by rw [halpha]; rfl))
    x1b := hx1b.trans (hc.x1b.trans (by rw [hbeta]; rfl))
    x2b := hx2b.trans (hc.x2b.trans (by rw [hbeta]; rfl))
    w := hw.trans (hc.w.trans hwq)
    v1 := hc.v1.trans (by rw [hv1]; rfl)
    v2 := hc.v2.trans (by rw [hv2]; rfl)
    freq := hc.freq.trans (by rw [hwq])
    freeze := hc.freeze.trans hfrozen
    held := fun hz => by rw [rd_unitTick, hc.held (hfrozen.trans hz), hwq, angleHeld_unitBegun]
    coast := hc.coast, staleCnt := hc.staleCnt, angOk := hc.angOk }

theorem rd_unitCompute_locked : (unitCompute u s).rd (Fld.GS_STATUS_LOCKED u) = s.rd (Fld.GS_STATUS_LOCKED u) := by
  obtain ⟨-, -, -, -, -, -, -, -, hkept⟩ := rd_showUnit u (unitShown s u (s.unit u)) (s.setUnit u (unitMoved s u (s.unit u)))
  rw [unitCompute_eq, hkept, rd_setUnit]

/-- A unit that shows LOCKED after an update has shown it before, and V1 is no less than 0.05 p.u. -/
theorem unitTick_locked (h : (unitSources s u).all (resultUsable s) = true) (hlocked : (unitTick u s).rd (Fld.GS_STATUS_LOCKED u) ≠ 0) :
    s.rd (Fld.GS_STATUS_LOCKED u) ≠ 0 ∧ vFloor ≤ (unitTick u s).rdI (Fld.GS_V1 u) := by
  have hupdate (f : FRef) : (unitTick u s).rd f = (unlockCheck u (unitCompute u (unitBegun s u))).rd f := by rw [rd_unitTick, unitUpdate_eq, if_pos h]
  obtain ⟨hv1, -⟩ := rd_unlockCheck u (unitCompute u (unitBegun s u))
  obtain ⟨hfall, -⟩ := rdB_unlockCheck u (unitCompute u (unitBegun s u))
  have hbefore := (rd_unitCompute_locked u (unitBegun s u)).trans (rd_unitBegun u s _)
  rw [rdB_eq, rdB_eq, ← hupdate, hbefore, decide_eq_true hlocked] at hfall
  obtain ⟨hlocked, hstays⟩ := Bool.and_eq_true_iff.mp hfall.symm
  rw [staysLocked, Bool.and_eq_true, Bool.and_eq_true, decide_eq_true_eq] at hstays
  exact ⟨of_decide_eq_true hlocked, hstays.1.1.trans_eq (rdI_congr ((hupdate _).trans hv1)).symm⟩

/-- The conditions of LOCKED in a coasted tick, in which V1 and F stand. -/
def coastKeepsLock : Bool :=
  s.rdB (Fld.GS_STATUS_ANG_OK u) && !passesStale u s && decide (vFloor ≤ s.rdI (Fld.GS_V1 u)) &&
    decide ((fNom s u - 6) * 65536 ≤ s.rd (Fld.GS_FREQ u)) && decide (s.rd (Fld.GS_FREQ u) ≤ (fNom s u + 6) * 65536)

theorem passesStale_unitBegun : passesStale u (unitBegun s u) = passesStale u s := by
  simp only [passesStale, rd_unitBegun]

theorem staysLocked_unitCoast : staysLocked u (unitCoast u (unitBegun s u)) = coastKeepsLock u s := by
  have hkept {f : FRef} (hf : f.addr ∉ coastRegs u) : (unitCoast u (unitBegun s u)).rd f = s.rd f :=
    (rd_congr f ((unitCoast_frame u _).regs _ hf)).trans (rd_unitBegun u s f)
  have hlog := unitReg_ne_log u
  have hcfg : Reg.GS_CFG u ≠ Reg.LOG_STATUS := by simp only [Reg.GS_CFG, Reg.LOG_STATUS]; omega
  have hv1 := hkept (f := Fld.GS_V1 u) (by simp [coastRegs, hlog])
  have hf := hkept (f := Fld.GS_FREQ u) (by simp [coastRegs, hlog])
  have hnom : fNom (unitCoast u (unitBegun s u)) u = fNom s u := by
    rw [fNom, State.rdB, hkept (by simp [coastRegs, hcfg]), fNom, State.rdB]
  obtain ⟨-, -, -, hok, -⟩ := rd_unitCoast u (unitBegun s u)
  rw [passesStale_unitBegun, rdB_unitBegun] at hok
  rw [staysLocked, nearNom, Bool.decide_and, hok, hf, hnom, rdI_congr hv1, coastKeepsLock]
  ac_rfl

/-- Unit `u` and its registers after a coasted tick (R326). -/
theorem unitTick_coasted (h : (unitSources s u).all (resultUsable s) = false) :
    let t := unitTick u s
    let q := unitFound s u
    (t.unit u).x1a = q.x1a ∧ (t.unit u).x2a = q.x2a ∧ (t.unit u).x1b = q.x1b ∧ (t.unit u).x2b = q.x2b ∧ (t.unit u).w = q.w ∧
    t.rd (Fld.GS_THETA1 u) = angleHeld s u (freqOf q.w) ∧ t.rd (Fld.GS_STATUS_COAST u) = 1 ∧
    t.rd (Fld.GS_STATUS_STALE_CNT u) = Nat.min 255 (s.rd (Fld.GS_STATUS_STALE_CNT u) + 1) ∧
    t.rdB (Fld.GS_STATUS_ANG_OK u) = (s.rdB (Fld.GS_STATUS_ANG_OK u) && !passesStale u s) ∧
    t.rdB (Fld.GS_EVENTS_STALE_EV u) = (s.rdB (Fld.GS_EVENTS_STALE_EV u) || passesStale u s) ∧
    t.rdB (Fld.GS_STATUS_LOCKED u) = (s.rdB (Fld.GS_STATUS_LOCKED u) && coastKeepsLock u s) ∧
    t.rdB (Fld.GS_EVENTS_UNLOCK_EV u) = (s.rdB (Fld.GS_EVENTS_UNLOCK_EV u) || (s.rdB (Fld.GS_STATUS_LOCKED u) && !coastKeepsLock u s)) := by
  have hupdate : unitUpdate u s = unlockCheck u (unitCoast u (unitBegun s u)) := by rw [unitUpdate_eq, if_neg (by simp [h])]
  have hrd (f : FRef) : (unitTick u s).rd f = (unlockCheck u (unitCoast u (unitBegun s u))).rd f := by rw [rd_unitTick, hupdate]
  have hrdB (f : FRef) : (unitTick u s).rdB f = (unlockCheck u (unitCoast u (unitBegun s u))).rdB f := by rw [State.rdB, hrd, State.rdB]
  have hunit : (unitUpdate u s).unit u = (unitCoast u (unitBegun s u)).unit u := by rw [hupdate, unlockCheck_unit]
  rw [unitCoast_unit, unitBegun_unit, lockCount_spec] at hunit
  have hticked := unitTick_unit u s
  rw [hunit] at hticked
  obtain ⟨hx1a, hx2a, hx1b, hx2b, hw⟩ := hticked
  obtain ⟨hth1, hcoast, hcnt, hok, hlocked, hstale, hunlock⟩ := rd_unitCoast u (unitBegun s u)
  rw [unitBegun_unit, angleHeld_unitBegun] at hth1
  rw [rd_unitBegun] at hcnt
  rw [passesStale_unitBegun, rdB_unitBegun] at hok hstale
  rw [rdB_unitBegun] at hlocked hunlock
  obtain ⟨-, -, kth1, -, -, kcoast, kcnt, kok, kstale⟩ := rd_unlockCheck u (unitCoast u (unitBegun s u))
  obtain ⟨klocked, kunlock⟩ := rdB_unlockCheck u (unitCoast u (unitBegun s u))
  rw [hlocked, staysLocked_unitCoast] at klocked
  rw [hunlock, hlocked, staysLocked_unitCoast] at kunlock
  refine ⟨hx1a, hx2a, hx1b, hx2b, hw, ?_, ?_, ?_, ?_, ?_, (hrdB _).trans klocked, (hrdB _).trans kunlock⟩
  · exact (hrd _).trans (kth1.trans hth1)
  · exact (hrd _).trans (kcoast.trans hcoast)
  · exact (hrd _).trans (kcnt.trans hcnt)
  · rw [hrdB, State.rdB, kok, ← State.rdB, hok]
  · rw [hrdB, State.rdB, kstale, ← State.rdB, hstale]

end

/-! ### The obligation -/

/-- Settles O31: the values of an update and of a coasted tick are those of `UnitComputed` and `rd_unitCoast`, and the check of the lock comes
after them. -/
theorem gridSyncUnits : Obligations.GridSyncUnits := by
  refine ⟨fun s hon hrun hlock hdone husable => ?_, fun s hon hrun hlock hdone hcoasts => ?_, fun s u hidle => ?_,
    fun s u h100ms hlocked hok => ?_, fun s u hearly => ?_⟩
  · extract_lets x va vb rest q k tw in1 in2 half a1 a2 b1 b2
    have hc := unitTick_computed 8 (ticked s) husable
    have hframe := unitTick_usable_frame 8 (ticked s) husable
    have hq : unitFound (ticked s) 8 = q := rfl
    rw [hq] at hc
    have ha : sogiAlpha (ticked s) 8 q = (a1, a2) := rfl
    have hb : sogiBeta (ticked s) 8 q = (b1, b2) := rfl
    have hv1 : unitV1 (ticked s) 8 q = magnitude (half a1 (-b2)) (half a2 b1) := by rw [unitV1, ha, hb]; rfl
    have hv2 : unitV2 (ticked s) 8 q = magnitude (half a1 b2) (half b1 (-a2)) := by rw [unitV2, ha, hb]; rfl
    refine ⟨_, exec_gsUpdate_pcc hon hrun hlock hdone, ?_⟩
    have hlocks := unitTick_locked 8 (ticked s) husable
    generalize unitTick 8 (ticked s) = t at *
    refine ⟨hc.x1a.trans (by rw [ha]), hc.x2a.trans (by rw [ha]), hc.x1b.trans (by rw [hb]), hc.x2b.trans (by rw [hb]), hc.v1.trans (by rw [hv1]),
      hc.v2.trans (by rw [hv2]), hc.coast, hc.staleCnt, hc.angOk, hc.freeze_eq, hc.holds, hc.freq_between.1, hc.freq_between.2,
      fun hlocked => ?_, hframe.rest, fun u hu => hframe.units u hu.ne, hframe.regs⟩
    obtain ⟨hlocked, hv1⟩ := hlocks (hlocked.trans_ne Nat.one_ne_zero)
    have hfrozen := hc.freeze_eq
    rw [rdB_eq, decide_eq_decide] at hfrozen
    exact ⟨rd_eq_one (by simp [FRef.ok]) rfl hlocked, not_not.mp (fun hz => absurd (hfrozen.mp hz) (Int.not_lt.mpr hv1))⟩
  · extract_lets rest q cnt beyond ok f keep
    obtain ⟨hx1a, hx2a, hx1b, hx2b, hw, hth1, hcoast, hcnt, hok, hstale, hlocked, hunlock⟩ := unitTick_coasted 8 (ticked s) hcoasts
    have hframe := unitTick_coasting_frame 8 (ticked s) hcoasts
    exact ⟨_, exec_gsUpdate_pcc hon hrun hlock hdone, hx1a, hx2a, hx1b, hx2b, hw, hth1, hcoast, hcnt, hok, hstale, hlocked, hunlock, hframe.rest,
      fun u hu => hframe.units u hu.ne, hframe.regs⟩
  · exact ⟨_, exec_gsUpdate_idle hidle, rfl⟩
  · obtain ⟨hrises, hevent⟩ := rd_unitLocked u (ticked s)
    exact ⟨_, exec_gsLock_rises h100ms hlocked hok, hrises, hevent, unitLocked_log u (ticked s), unitLocked_rest u (ticked s),
      unitLocked_bitsKept u (ticked s), unitLocked_regsKept u (ticked s)⟩
  · exact ⟨_, exec_gsLock_early hearly, rfl⟩

end Sys2Proof.Machine
end

