-- ==== Sys2Proof/Proofs/Totality.lean ====
section
/-!
PROOFS. Proofs/Totality.lean: a step runs the command at the front of its queue, and every command answers a next state.
-/
namespace Sys2Proof.Machine

/-- Settles O1: both sides run the same command on the same state, or idle. -/
theorem stepRunsTheFrontCommand : Obligations.StepRunsTheFrontCommand :=
  ⟨fun _ _ _ => rfl, fun _ => rfl⟩

/-- Settles O60: every command ends in a state whose time has gone on (`exec_ends`). -/
theorem everyCommandCompletes : Obligations.EveryCommandCompletes := fun c s =>
  let ⟨t, ht, _⟩ := exec_ends s c
  ⟨t, ht⟩

end Sys2Proof.Machine
end

