-- ==== Sys2Proof/Proofs/StringCounterexamples.lean ====
section
/-!
PROOFS. Proofs/StringCounterexamples.lean: the statements about the string trackers, the pairs' periods, the safety I/O, the lanes, the rings, the
plot frames and the snapshots that do not hold, each refuted by one state in which the model answers otherwise.
-/
namespace Sys2Proof.Machine

/-! ### A tracker of a pair past the last -/

/-- A part in Run on which no source trips a pair: it is booted, clocked and supplied, its TRIP section is loaded, and it is not locked out. -/
def untripped : State :=
  let s : State :=
    { State.reset with
      pwm := { State.reset.pwm with initSrc := false }, gate := { State.reset.gate with tripLoaded := true }, ls := { State.reset.ls with trip := false } }
  ((((s.wr Fld.DOM_STATUS_ON 0xFFFF).wr Fld.CLK_STATUS_CTRL_LOCK 1).wr Fld.SCHED_CFG_TICK_RUN 1).wr Fld.IO_BANK_STATUS_PRESENT 0xFF).wr
    Fld.SAFE_STATUS_LOCKED 0

/-- Tracker 0 waits with its start conditions met, and its PAIR names a 73rd pair, which has tripped. -/
def pastPairTracker : State :=
  let s : State := { untripped with trks := [(0, { restTracker with windowOk := true })] }
  let s := (s.wr (Fld.TRK_CFG_EN 0) 1).wr (Fld.TRK_STATUS_STATE 0) 1
  ((s.wr (Fld.TRK_CFG_PAIR 0) 72).wr (Fld.PWM_STATUS_STATE 72) 3).wr (Fld.PWM_CFG_EN 72) 1

set_option maxRecDepth 20000 in
/-- The clear that the tracker asks for (R363) arms the pair. -/
theorem exec_trkStartDelayEnd_pastPair :
    ∃ t, exec (.trkStartDelayEnd 0) pastPairTracker = .next t ∧ t.reg (Reg.PWM_STATUS 72) ≠ pastPairTracker.reg (Reg.PWM_STATUS 72) :=
  ⟨_, rfl, by decide⟩

/-- Refutes O34: the clear of a PAIR above 71 writes the status of that pair, which lies outside the registers of the pairs. -/
theorem not_trackers : ¬ Obligations.Trackers := by
  rintro ⟨-, -, hdelay, -⟩
  obtain ⟨t, ht, -, -, -, -, -, -, hregs⟩ := hdelay pastPairTracker 0 (by decide) (by decide) (by decide) (by decide) (by decide)
  obtain ⟨t', ht', hstatus⟩ := exec_trkStartDelayEnd_pastPair
  cases ht'.symm.trans ht
  exact hstatus (hregs _ (by decide))

/-! ### A step that only records, with reverse current in its window -/

/-- Tracker 0 in TRACK after a start, with one usable tick in its window, whose current lies so far below 0 that its word shows 0. -/
def reverseRecording : State :=
  let s : State := { untripped with trks := [(0, { restTracker with record := true, frames := [{ emptyFrame with ticks := 1, n := 1, i := -2 ^ 32 }] })] }
  (s.wr (Fld.TRK_CFG_EN 0) 1).wr (Fld.TRK_STATUS_STATE 0) 3

set_option maxRecDepth 20000 in
/-- REV (R365) is found on the mean itself, not on its word. -/
theorem exec_trackStep_reverseRecording :
    ∃ t, exec (.trackStep 0) reverseRecording = .next t ∧ t.rd (Fld.TRK_STATUS_STATE 0) = 7 := ⟨_, rfl, by decide⟩

set_option maxRecDepth 20000 in
/-- Refutes O35: the statement looks for REV on the word of the mean current, the model on the mean. -/
theorem not_trackerStep : ¬ Obligations.TrackerStep := by
  intro h
  obtain ⟨t, ht, -, -, -, -, -, -, hrecords, -⟩ := h reverseRecording 0 (by decide) (by decide) (by decide) (by decide) (by decide) (by decide)
    (by decide) (by decide) (by decide)
  obtain ⟨t', ht', hfault⟩ := exec_trackStep_reverseRecording
  cases ht'.symm.trans ht
  have hstate := (hrecords (by decide)).1
  exact absurd (hfault.symm.trans hstate) (by decide)

/-! ### A pair that starts with coarse delay lines -/

/-- Pair 0, enabled and ARMED, at a boundary of the ring time, with a duty of one half and a dead time; its calibration has failed. -/
def coarsePair : State :=
  let s : State := { untripped with pwm := { untripped.pwm with begun := 1, calBad := 1, span := [(0, some (0, 0))] } }
  ((((s.wr (Fld.PWM_CFG_EN 0) 1).wr (Fld.PWM_STATUS_STATE 0) 4).wr (Fld.PWM_DUTY 0) (2 ^ 29)).wr (Fld.PWM_PER_PER 0) 400).wr (Fld.PWM_DT_DT_RISE 0) 20

set_option maxRecDepth 20000 in
theorem exec_periodBoundary_coarsePair :
    ∃ t, exec (.periodBoundary 0) coarsePair = .next t ∧ t.rd (Fld.PWM_STATUS_OUT_H 0) = 1 := ⟨_, rfl, by decide⟩

set_option maxRecDepth 20000 in
/-- Refutes O37: on coarse delay lines (R411) the output of a pair that starts is high at the boundary, whatever its dead time. -/
theorem not_pwmPeriod : ¬ Obligations.PwmPeriod := by
  rintro ⟨hboundary, -⟩
  obtain ⟨t, ht, -, -, -, -, -, -, -, -, -, -, hrise, -⟩ := hboundary coarsePair 0 0 (by decide) (by decide) (by decide) (by decide) (by decide) (by decide)
  obtain ⟨t', ht', hhigh⟩ := exec_periodBoundary_coarsePair
  cases ht'.symm.trans ht
  exact absurd (hhigh.symm.trans (hrise (by decide) (by decide))) (by decide)

/-! ### The last place of the change queue -/

/-- The last place is kept for the setting that is being programmed (log entry 97), so the write answers BUSY (R196). -/
theorem exec_safeTrip_lastPlaceKept :
    ∃ t, exec (.safeTrip (.session 1) 0x80000000#32) lastPlaceKept = .next t ∧ t.bus.status = .busy := ⟨_, rfl, by decide⟩

/-- Refutes O43: a place of the change queue is kept while a counted setting is programmed, so 63 entries fill it. -/
theorem not_safetyIo : ¬ Obligations.SafetyIo := by
  rintro ⟨-, -, -, -, -, htrip, -⟩
  obtain ⟨t, ht, -, hbus, -⟩ := htrip lastPlaceKept 1 0x80000000#32 (by decide) (by decide) (by decide) (by decide) (by decide)
  obtain ⟨t', ht', hbusy⟩ := exec_safeTrip_lastPlaceKept
  cases ht'.symm.trans ht
  rw [hbus] at hbusy
  cases hbusy

/-! ### A drowsed group that loses its sentinel -/

/-- Lane 8 is the one lane of port 8, the sentinel of group 0 of ring A, which has drowsed. -/
def drowsedSentinel : State :=
  let s : State := { State.reset with ring := { State.reset.ring with forwarding := true } }
  let s := (s.wr (Fld.RG_LANE_CFG_EN 8) 1).wr (Fld.RG_LANE_STATUS_STATE 8) 2
  let s := (s.wr (Fld.RG_PORT_CFG_EN 8) 1).wr (Fld.RG_PORT_CFG_RING 8) 1
  (s.wr (Fld.RG_GROUP_STATUS_STATE 0) 6).wr Fld.CLK_STATUS_SD_LOCK 1

set_option maxRecDepth 20000 in
/-- The group trains its lanes again (assumption 96), the sentinel among them. -/
theorem exec_laneDown_drowsedSentinel :
    ∃ t, exec (.laneDown 8 1) drowsedSentinel = .next t ∧ t.rd (Fld.RG_LANE_STATUS_STATE 8) = 1 := ⟨_, rfl, by decide⟩

/-- Refutes O44: the sentinel lane of a drowsed group does not stay DOWN, since its group trains at once. -/
theorem not_lanesAndDrowse : ¬ Obligations.LanesAndDrowse := by
  rintro ⟨hdown, -⟩
  obtain ⟨t, ht, -, hacts, -⟩ := hdown drowsedSentinel 8 1
  obtain ⟨t', ht', htrains⟩ := exec_laneDown_drowsedSentinel
  cases ht'.symm.trans ht
  exact absurd (htrains.symm.trans (hacts (by decide)).1) (by decide)

/-! ### A cell of an anchor past the last -/

/-- The number of an anchor whose ISL_ANC_DELTA would stand at the address of RG_RING_CTRL. -/
def farAnchor : Nat := 163833

theorem anchorDelta_farAnchor : Reg.ISL_ANC_DELTA farAnchor = Reg.RG_RING_CTRL := rfl

/-- A part whose ticks run, with islanding in FALLBACK and a LEAVE of ring A waiting; a cell of `farAnchor` waits for the frame tick, too. -/
def cellOfFarAnchor : State :=
  let cell : AncCell := ⟨0, false, false, false, false, 0, 0, 0, 0, 0, 0⟩
  let s : State :=
    { State.reset with
      lan := { State.reset.lan with mode := .mainOn }
      ring := { State.reset.ring with forwarding := true }
      isl := { State.reset.isl with cells := [{ anchor := farAnchor, cell := cell, age := 0, own := some 0 }] } }
  let s := ((s.wr Fld.SCHED_CFG_TICK_RUN 1).wr Fld.CLK_STATUS_CTRL_LOCK 1).wr Fld.TIME_SYNC_UNSYNCED 0
  (((s.wr Fld.ISL_STATUS_MODE 1).wr Fld.RG_RING_CTRL_CMD 1).wr Fld.RG_RING_CTRL_TARGET 1).wr Fld.RG_RING_STATUS_INS_A 4

set_option maxRecDepth 20000 in
/-- The cell's difference is stored over the command before the frame tick takes it. -/
theorem exec_frameTick_cellOfFarAnchor :
    ∃ t, exec (.frameTick 0#32 0#32 0#16 false) cellOfFarAnchor = .next t ∧ t.rd Fld.RG_RING_STATUS_INS_A = 4 := ⟨_, rfl, by decide⟩

/-- Refutes O45: the frame tick writes the difference of a cell that waits whatever its anchor's number, so a command in RG_RING_CTRL is lost. -/
theorem not_ringBreaksAndInsertion : ¬ Obligations.RingBreaksAndInsertion := by
  rintro ⟨-, -, -, -, -, hframe, -⟩
  obtain ⟨t, ht, -, hleave, -⟩ := hframe cellOfFarAnchor 0#32 0#32 0#16 false rfl rfl rfl
  obtain ⟨t', ht', hin⟩ := exec_frameTick_cellOfFarAnchor
  cases ht'.symm.trans ht
  have hleaving := (hleave (by decide) 0 (by decide) (by decide) (by decide)).1
  exact absurd (hin.symm.trans hleaving) (by decide)

/-! ### Counters out of their place -/

/-- A part that forwards on group 0, whose count of dropped frames stands at 2^64. -/
def dropsPastRange : State :=
  let s : State :=
    { State.reset with
      perf := { State.reset.perf with wide := [(Reg.PCN_RX_DROPS_LO 0, 2 ^ 64)] }
      ring := { State.reset.ring with forwarding := true } }
  s.wr (Fld.RG_GROUP_STATUS_STATE 0) 3

theorem exec_ringFrame_dropsPastRange :
    ∃ t, exec (.ringFrame 0 0xFF#12 0#3 false 0#10 0#10 0#10 true 0#48 0#48 22 0) dropsPastRange = .next t ∧
      t.wide (Reg.PCN_RX_DROPS_LO 0) = 2 ^ 64 := ⟨_, rfl, by decide⟩

/-- Refutes O47: a management frame for this node drops nothing, so a count past its 64 bits stays as it is. -/
theorem not_plotFrames : ¬ Obligations.PlotFrames := by
  rintro ⟨-, -, -, hring, -⟩
  obtain ⟨t, ht, -, hdrops, -⟩ := hring dropsPastRange 0 0xFF#12 0#3 false 0#10 0#10 0#10 true 0#48 0#48 22 0 rfl (by decide) (by decide)
    (.inl (by decide))
  obtain ⟨t', ht', hshown⟩ := exec_ringFrame_dropsPastRange
  cases ht'.symm.trans ht
  exact absurd (hshown.symm.trans hdrops) (by decide)

/-- A part with a snapshot that its window does not show yet, and in it the copy of a counter below the counter block. -/
def snapshotOutsideBlock : State :=
  { State.reset with perf := { State.reset.perf with
      held := some { frame := 0, part := true, wide := [(0x605004, 1)], le := [] } } }

theorem exec_snapshot_outsideBlock :
    ∃ t, exec .snapshot snapshotOutsideBlock = .next t ∧ t.wide 0x615004 = 1 := ⟨_, rfl, by decide⟩

/-- Refutes O55: a copy of a counter outside the block is shown outside the window. -/
theorem not_snapshotsAndWindows : ¬ Obligations.SnapshotsAndWindows := by
  rintro ⟨-, -, hsnap, -⟩
  obtain ⟨t, ht, -, -, -, -, -, -, -, -, -, hwide, -⟩ := hsnap snapshotOutsideBlock (.inl rfl)
  obtain ⟨t', ht', hshown⟩ := exec_snapshot_outsideBlock
  cases ht'.symm.trans ht
  rw [hwide 0x615004 (by decide)] at hshown
  exact absurd hshown (by decide)

end Sys2Proof.Machine
end
-- ==== Sys2Proof/Proofs/SelectableCounters.lean ====
section
/-!
PROOFS. Proofs/SelectableCounters.lean: an admitted access of a register, and the accesses of the selectable counters (R647 to R650).
-/
namespace Sys2Proof.Machine

section
variable {s : State} {i : Initiator} {a : Nat} {f : State → State} {p : State → Prop}

/-- A write that is admitted acts on the state whose answer is OK. -/
theorem run_writeAdmitted (h : Reaches s i a) (hb : inSafetyBlock a = false) (hw : mayWrite s i a = true) :
    run (writeAdmitted i a f) s = .next (f (admitted s)) :=
  congrArg Host.Outcome.next (writeAdmitted_reaches (s := { s with cycle := s.cycle + 1 }) h hb hw)

theorem run_readAdmitted (h : Reaches s i a) (hr : mayRead s i a = true) : run (readAdmitted i a f) s = .next (f (ticked s)) :=
  congrArg Host.Outcome.next (readAdmitted_reaches (s := ticked s) h hr)

end

theorem Tab.get_set {α : Type} [DecidableEq α] (d : α) (t : Tab α) (a b : Nat) (v : α) :
    Tab.get d (Tab.set d t a v) b = if b = a then v else Tab.get d t b := by
  split
  · next h => rw [h, Tab.get_set_same]
  · next h => exact Tab.get_set_ne d d t v (Ne.symm h)

/-! ### A map of bits over 32-bit words -/

/-- A field family that lays a map of bits over whole words at distinct addresses. -/
def WordMap (f : Nat → FRef) : Prop := (∀ k, (f k).lo = 0 ∧ (f k).hi = 31) ∧ ∀ j k, j ≠ k → (f j).addr ≠ (f k).addr

theorem mapBit_wrMapBit (s : State) {f : Nat → FRef} (hf : WordMap f) (i j : Nat) (b : Bool) :
    (s.wrMapBit f i b).mapBit f j = if j = i then b else s.mapBit f j := by
  obtain ⟨hword, haddr⟩ := hf
  obtain ⟨hlo, hhi⟩ := hword (i / 32)
  unfold State.wrMapBit State.mapBit
  by_cases hw : j / 32 = i / 32
  · rw [hw, bit_wrBit_same s _ (by simp [FRef.ok, hlo, hhi]) _ _ _ (by simp [FRef.width, hlo, hhi]; omega)]
    exact if_congr (by omega) rfl rfl
  · rw [if_neg (fun h => hw (by rw [h]))]
    exact bit_wr_ne s _ _ _ _ (haddr _ _ (Ne.symm hw))

theorem mapBit_congr {s t : State} (f : Nat → FRef) (j : Nat) (h : t.reg (f (j / 32)).addr = s.reg (f (j / 32)).addr) :
    t.mapBit f j = s.mapBit f j := bit_congr _ _ h

/-! ### Registers of the counter block -/

theorem notSafety_of_counterBlock {a : Nat} (h : 0x700000 ≤ a) : inSafetyBlock a = false := by
  simp only [inSafetyBlock, Bool.or_eq_false_iff, decide_eq_false_iff_not]; omega

/-! ### Selection -/

theorem seesSpeculation_eq (s : State) (i : Initiator) : seesSpeculation s i = (decide (i = .fw) || sessionOf [3] s i) := by
  cases i <;> rfl

theorem speculative_eq (e : Nat) : speculative e = (decide (e = 0x07E) || decide (e = 0x07F)) := by
  simp [speculative, Bool.beq_eq_decide_eq]

/-- The counter `c` selects what the word names, and is enabled by its bit 31; its value stays (R647). -/
def counterSelects (c : Nat) (v : Word) (s : State) : State :=
  { s.setReg (Reg.PC_SEL c) (v &&& 0xC003FFFF#32) with
    perf := { s.perf with on := if v.getLsbD 31 then s.perf.on.filter (· ≠ c) ++ [c] else s.perf.on.filter (· ≠ c) } }

/-- What a write of PC_SEL does by the event and the unit it names (R647, R650). -/
theorem pcSelWrite_eq (i : Initiator) (c : Nat) (v : Word) (s : State) :
    pcSelWrite i c v s = if speculative (v.toNat / 256 % 1024) && !seesSpeculation s i then s.answerSt .denied
      else if !(qualMax (v.toNat / 256 % 1024)).any (fun m => decide (v.toNat % 256 ≤ m)) then s.answerSt .badArg else counterSelects c v s := by
  unfold pcSelWrite
  extract_lets e ok
  have hok : ok = (qualMax e).any (fun m => decide (v.toNat % 256 ≤ m)) := by
    unfold ok
    cases qualMax e <;> rfl
  rw [hok]
  rfl

theorem counterSelects_on (c : Nat) (v : Word) (s : State) (d : Nat) :
    (counterSelects c v s).perf.on.contains d = if d = c then v.getLsbD 31 else s.perf.on.contains d := by
  unfold counterSelects
  cases v.getLsbD 31 <;> by_cases hd : d = c <;> simp [hd]

theorem counterSelects_regs (c : Nat) (v : Word) (s : State) : RegsKept [Reg.PC_SEL c] s (counterSelects c v s) := fun a ha =>
  reg_setReg_ne s _ (fun h => ha (by simp [h]))

theorem counterSelects_sel (c : Nat) (v : Word) (s : State) : (counterSelects c v s).reg (Reg.PC_SEL c) = v &&& 0xC003FFFF#32 :=
  reg_setReg_same s _ _

/-! ### Presets and reads -/

/-- Counter `c` is preset to `n`, and no CNT_LO is held. -/
def counterPreset (c n : Nat) (s : State) : State :=
  { s with perf := { s.perf with wide := Tab.set 0 s.perf.wide (Reg.PC_CNT_LO c) n, loHeld := Tab.set none s.perf.loHeld c none } }

theorem counterPreset_eq (c n : Nat) (s : State) :
    counterPreset c n s = { s.setWide (Reg.PC_CNT_LO c) n with
      perf := { (s.setWide (Reg.PC_CNT_LO c) n).perf with loHeld := Tab.set none (s.setWide (Reg.PC_CNT_LO c) n).perf.loHeld c none } } := rfl

/-- A bit above 15 of CNT_HI is refused; else it presets the counter with CNT_LO where one is held (R648). -/
theorem cntHiWrite_fits {c : Nat} {v : Word} {s : State} (h : v.toNat < 65536) :
    cntHiWrite c v s = counterPreset c
      (v.toNat * 2 ^ 32 + (Tab.get none s.perf.loHeld c).elim (s.wide (Reg.PC_CNT_LO c) % 2 ^ 32) (fun w => w.toNat)) s := by
  unfold cntHiWrite
  rw [if_neg (by omega)]
  extract_lets lo
  have hlo : lo = (Tab.get none s.perf.loHeld c).elim (s.wide (Reg.PC_CNT_LO c) % 2 ^ 32) (fun w => w.toNat) := by
    unfold lo
    generalize s.wide (Reg.PC_CNT_LO c) % 2 ^ 32 = low
    cases Tab.get none s.perf.loHeld c <;> rfl
  rw [← hlo, counterPreset_eq]

theorem cntHiWrite_large {c : Nat} {v : Word} {s : State} (h : 65536 ≤ v.toNat) : cntHiWrite c v s = s.answerSt .badArg := if_pos h

/-- A counter of a speculative event is hidden from most, one of no port from all (R650, R664). -/
theorem counterSeen_eq (i : Initiator) (a : Nat) (s : State) :
    counterSeen i a s = if (selCounterAt a).any (fun c => decide (s.rd (Fld.PC_SEL_EVENT c) = 0x07E ∨ s.rd (Fld.PC_SEL_EVENT c) = 0x07F)) &&
        !(decide (i = .fw) || sessionOf [3] s i) || noPort s a then 0 else s.wide a := by
  rw [← seesSpeculation_eq]
  unfold counterSeen
  cases noPort s a <;> cases selCounterAt a <;> simp [speculative_eq]

/-! ### Overflows -/

theorem wordMap_pcOvf : WordMap Fld.PC_OVF := ⟨fun _ => ⟨rfl, rfl⟩, fun j k h => by simp; omega⟩

/-- The bit of counter `c` is set, and its passing of 2^48 is dealt with. -/
def overflowMarked (c : Nat) (s : State) : State :=
  State.wrMapBit { s with perf := { s.perf with passed := s.perf.passed.filter (· ≠ c) } } Fld.PC_OVF c true

/-- A counter that has passed 2^48 sets its bit, and its OVF_EN asks for the interrupt (R649). -/
theorem counterOvf_passed {c : Nat} {s : State} (h : s.perf.passed.contains c = true) :
    counterOvf c s = when (decide ((overflowMarked c s).rd (Fld.PC_SEL_OVF_EN c) ≠ 0)) (fun s => s.send (.fwIrq 0x22 c)) (overflowMarked c s) :=
  if_pos h

theorem overflowMarked_regs {c : Nat} (hc : c < 64) (s : State) : RegsKept [Reg.PC_OVF 0, Reg.PC_OVF 1] s (overflowMarked c s) := fun a ha =>
  reg_wr_ne _ _ (fun h => ha (by
    have hw : c / 32 = 0 ∨ c / 32 = 1 := by omega
    rcases hw with hw | hw <;> simp [← h, hw]))

theorem mapBit_overflowMarked (c d : Nat) (s : State) :
    (overflowMarked c s).mapBit Fld.PC_OVF d = if d = c then true else s.mapBit Fld.PC_OVF d :=
  mapBit_wrMapBit _ wordMap_pcOvf c d true

theorem passed_overflowMarked (c d : Nat) (s : State) :
    (overflowMarked c s).perf.passed.contains d = (decide (d ≠ c) && s.perf.passed.contains d) := by
  show (s.perf.passed.filter (· ≠ c)).contains d = _
  by_cases h : d = c <;> simp [h]

/-- Only the interrupt is sent, where OVF_EN asks for it. -/
theorem when_sends {b : Bool} {x : Out} {s : State} :
    when b (fun s => s.send x) s = { s with out := s.out ++ if b = true then [x] else [] } := by
  cases b with
  | true => rfl
  | false => simp [when]

/-! ### The obligation -/

/-- Settles O54: each access is the model's operation on the admitted state, by the lemmas above. -/
theorem performanceCounters : Obligations.PerformanceCounters := by
  refine ⟨fun s i c v hr hw => ?select, fun s i c v hr hw => ?low, fun s i c v hr hw => ?high, fun s i ofs hlo hr hm => ?read,
    fun s c hpassed => ?overflow⟩
  case select =>
    intro e hidden listed ok
    have hsafe : inSafetyBlock (Reg.PC_SEL c) = false := notSafety_of_counterBlock (Nat.le_add_right_of_le (by decide))
    refine ⟨_, run_writeAdmitted hr hsafe hw, ?_⟩
    have hh : (speculative (v.toNat / 256 % 1024) && !seesSpeculation (admitted s) i) = hidden := by
      rw [speculative_eq, seesSpeculation_eq]; rfl
    rw [pcSelWrite_eq, hh, show (qualMax (v.toNat / 256 % 1024)).any _ = listed from rfl]
    have hok : ok = (listed && !hidden) := rfl
    clear_value hidden listed ok
    subst hok
    cases hidden with
    | true =>
      rw [if_pos rfl, Bool.not_true, Bool.and_false]
      exact ⟨rfl, rfl, rfl, fun _ _ _ => rfl, rfl, fun _ _ => rfl⟩
    | false =>
      cases listed with
      | false =>
        rw [if_neg Bool.false_ne_true, Bool.false_and, if_pos Bool.not_false]
        exact ⟨rfl, rfl, rfl, fun _ _ _ => rfl, rfl, fun _ _ => rfl⟩
      | true =>
        rw [if_neg Bool.false_ne_true, Bool.not_true, Bool.not_false, Bool.and_true, if_neg Bool.false_ne_true]
        exact ⟨counterSelects_sel c v _, rfl, (counterSelects_on c v _ c).trans (if_pos rfl),
          fun d _ hd => (counterSelects_on c v _ d).trans (if_neg hd), rfl, counterSelects_regs c v (admitted s)⟩
  case low =>
    have hsafe : inSafetyBlock (Reg.PC_CNT_LO c) = false := notSafety_of_counterBlock (Nat.le_add_right_of_le (by decide))
    refine ⟨_, run_writeAdmitted hr hsafe hw, fun d _ => ?_, rfl⟩
    exact Tab.get_set none s.perf.loHeld c d (some v)
  case high =>
    intro ok lo
    have hsafe : inSafetyBlock (Reg.PC_CNT_HI c) = false := notSafety_of_counterBlock (Nat.le_add_right_of_le (by decide))
    refine ⟨_, run_writeAdmitted hr hsafe hw, ?_⟩
    by_cases h : v.toNat < 65536
    · have hok : ok = true := decide_eq_true h
      rw [cntHiWrite_fits h, hok]
      exact ⟨rfl, by simp, fun _ => ⟨Tab.get_set_same 0 s.perf.wide _ _, Tab.get_set_same none s.perf.loHeld _ none⟩, fun d _ hd => Tab.get_set_ne none none s.perf.loHeld none (Ne.symm hd), rfl,
        fun a ha => Tab.get_set_ne 0 0 s.perf.wide _ (fun h => by simp [h] at ha)⟩
    · have hok : ok = false := decide_eq_false h
      rw [cntHiWrite_large (Nat.le_of_not_lt h), hok]
      exact ⟨rfl, fun _ => rfl, by simp, fun _ _ _ => rfl, rfl, fun _ _ => rfl⟩
  case read =>
    intro a hidden n
    refine ⟨_, (congrArg Host.Outcome.next (if_pos hlo)).trans (run_readAdmitted (f := counterLoRead i a) hr hm), ?_⟩
    have hn : counterSeen i a (ticked s) = n := counterSeen_eq i a (ticked s)
    rw [counterLoRead, hn]
    exact ⟨rfl, latchRead_reg_hi .., latchRead_rest .., latchRead_regsKept _ _ _ _⟩
  case overflow =>
    have hkept := overflowMarked_regs c.isLt (ticked s)
    have hirq : (overflowMarked c (ticked s)).rd (Fld.PC_SEL_OVF_EN c) = s.rd (Fld.PC_SEL_OVF_EN c) := rd_congr _ (hkept _ (by simp [Reg.PC_OVF, Reg.PC_SEL]; omega))
    have hlt : s.rd (Fld.PC_SEL_OVF_EN c) < 2 := rd_lt s _ (by simp [FRef.ok])
    have hb : decide ((overflowMarked c (ticked s)).rd (Fld.PC_SEL_OVF_EN c) ≠ 0) = decide (s.rd (Fld.PC_SEL_OVF_EN c) = 1) := by
      rw [hirq]; exact decide_eq_decide.mpr (by omega)
    have hovf := counterOvf_passed (s := ticked s) hpassed
    rw [hb, when_sends] at hovf
    refine ⟨_, congrArg Host.Outcome.next hovf, ?_⟩
    refine ⟨(mapBit_overflowMarked c c (ticked s)).trans (if_pos rfl), (passed_overflowMarked c c (ticked s)).trans (by simp), ?_, rfl,
      fun d _ hd => ⟨(mapBit_overflowMarked c d (ticked s)).trans (if_neg hd), (passed_overflowMarked c d (ticked s)).trans (by simp [hd, ticked])⟩,
      rfl, hkept⟩
    simp only [decide_eq_true_eq]
    rfl

end Sys2Proof.Machine
end
-- ==== Sys2Proof/Proofs/SerialPorts.lean ====
section
/-!
PROOFS. Proofs/SerialPorts.lean: what each operation of a serial port does to its FIFOs and its registers, and what it leaves alone (R630 to R634,
R641, R642).
-/
namespace Sys2Proof.Machine

theorem rd_wr_one (s : State) (f : FRef) (h : f.ok) : (s.wr f 1).rd f = 1 := by
  rw [rd_wr_same s f 1 h]
  exact Nat.mod_eq_of_lt (Nat.one_lt_two_pow (by simp [FRef.width]; have := h.1; omega))

/-! ### What an operation of port `n` leaves alone -/

/-- `t` differs from `s` at most in port `n`, its status and transfer registers, and what it sends. -/
structure CspFrame (n : Nat) (l : List Nat) (s t : State) : Prop where
  rest : t = { s with regs := t.regs, csp := t.csp, out := t.out }
  regs : RegsKept l s t
  ports : ∀ m, m ≠ n → t.cspOf m = s.cspOf m

section
variable {n : Nat} {l : List Nat} {r s t : State}

theorem CspFrame.refl (n : Nat) (l : List Nat) (s : State) : CspFrame n l s s := ⟨rfl, fun _ _ => rfl, fun _ _ => rfl⟩

theorem CspFrame.wr {f : FRef} {v : Nat} (h : CspFrame n l r s) (hf : f.addr ∈ l) : CspFrame n l r (s.wr f v) :=
  ⟨by rw [h.rest]; rfl, fun a ha => (reg_wr_ne s v (fun e => ha (by rw [← e]; exact hf))).trans (h.regs a ha), h.ports⟩

theorem CspFrame.setCsp {x : Csp} (h : CspFrame n l r s) : CspFrame n l r (s.setCsp n x) :=
  ⟨by rw [h.rest]; rfl, h.regs, fun m hm => (Tab.get_set_ne _ _ _ _ (Ne.symm hm)).trans (h.ports m hm)⟩

theorem CspFrame.send {x : Out} (h : CspFrame n l r s) : CspFrame n l r (s.send x) := ⟨by rw [h.rest]; rfl, h.regs, h.ports⟩

theorem CspFrame.ite {c : Prop} [Decidable c] (ht : CspFrame n l r s) (hf : CspFrame n l r t) : CspFrame n l r (if c then s else t) := by
  split
  · exact ht
  · exact hf

theorem CspFrame.cspShow (h : CspFrame n l r s) (hl : Reg.CSP_STATUS n ∈ l) : CspFrame n l r (cspShow n s) := (h.wr hl).wr hl

theorem CspFrame.cspReceive {w : List Word} (h : CspFrame n l r s) (hl : Reg.CSP_STATUS n ∈ l) : CspFrame n l r (cspReceive n w s) :=
  (CspFrame.ite (h.setCsp.wr hl) h.setCsp).cspShow hl

end

@[simp] theorem cspOf_setCsp (n : Nat) (x : Csp) (s : State) : (s.setCsp n x).cspOf n = x := Tab.get_set_same _ _ _ _

@[simp] theorem cspOf_wr (s : State) (f : FRef) (v n : Nat) : (s.wr f v).cspOf n = s.cspOf n := rfl

@[simp] theorem cspOf_send (s : State) (x : Out) (n : Nat) : (s.send x).cspOf n = s.cspOf n := rfl

theorem setCsp_out (s : State) (n : Nat) (x : Csp) : (s.setCsp n x).out = s.out := rfl

theorem rd_setCsp (s : State) (n : Nat) (x : Csp) (f : FRef) : (s.setCsp n x).rd f = s.rd f := rfl

theorem rd_send (s : State) (x : Out) (f : FRef) : (s.send x).rd f = s.rd f := rfl

@[simp] theorem cspOf_cspShow (s : State) (m n : Nat) : (cspShow m s).cspOf n = s.cspOf n := rfl

/-! ### The status of a port -/

/-- A flag or level of STATUS that was written stays through the writes of the levels beside it. -/
theorem rd_cspShow {n : Nat} {f : FRef} (s : State) (hok : f.lo ≤ f.hi ∧ f.hi < 12) : (cspShow n s).rd f = s.rd f := by
  unfold cspShow
  rw [rd_wr_disjoint _ _ _ _ (by simp [FRef.ok]) ⟨hok.1, by omega⟩ (.inl hok.2), rd_wr_disjoint _ _ _ _ (by simp [FRef.ok]) ⟨hok.1, by omega⟩ (.inl (by simp; omega))]

theorem rd_cspShow_ne {n : Nat} {f : FRef} (s : State) (h : f.addr ≠ Reg.CSP_STATUS n) : (cspShow n s).rd f = s.rd f :=
  (rd_wr_ne _ _ _ _ (Ne.symm h)).trans (rd_wr_ne _ _ _ _ (Ne.symm h))

/-- TX_LEVEL is the number of words in the FIFO, of which it has ten bits. -/
theorem rd_cspShow_txLevel (n : Nat) (s : State) : (cspShow n s).rd (Fld.CSP_STATUS_TX_LEVEL n) = (s.cspOf n).tx.length % 1024 := by
  unfold cspShow
  rw [rd_wr_disjoint _ _ _ _ (by simp [FRef.ok]) (by simp [FRef.ok]) (Or.inr (by simp)), rd_wr_same _ _ _ (by simp [FRef.ok])]
  rfl

/-! ### The FIFOs -/

/-- A push on a port that has a FIFO (R641, R642). -/
theorem cspPush_taken {n : Nat} {v : Word} {s : State} (hn : n ≠ 0) (hc : cspCommand s n = false) :
    cspPush n v s = if 512 ≤ (s.cspOf n).tx.length then s.wr (Fld.CSP_STATUS_TX_OVF n) 1
      else cspShow n (s.setCsp n { s.cspOf n with tx := (s.cspOf n).tx ++ [v] }) :=
  if_neg (by simp [hn, hc])

theorem cspFrame_cspPush (n : Nat) (v : Word) (s : State) : CspFrame n [Reg.CSP_STATUS n] s (cspPush n v s) :=
  have h := CspFrame.refl n [Reg.CSP_STATUS n] s
  .ite h (.ite (h.wr (by simp)) (h.setCsp.cspShow (by simp)))

/-- A pop answers the oldest word, or 0 and sets RX_UNF. -/
theorem cspPop_eq {n : Nat} {s : State} (hc : cspCommand s n = false) :
    cspPop n s = (if (s.cspOf n).rx = [] then s.wr (Fld.CSP_STATUS_RX_UNF n) 1
      else cspShow n (s.setCsp n { s.cspOf n with rx := (s.cspOf n).rx.tail })).answer ((s.cspOf n).rx.headD 0#32) .done .ok := by
  unfold cspPop
  rw [hc, if_neg Bool.false_ne_true]
  cases (s.cspOf n).rx <;> rfl

theorem cspLenPop_eq {n : Nat} {s : State} (hc : cspCommand s n = false) :
    cspLenPop n s = (if (s.cspOf n).lens = [] then s.wr (Fld.CSP_STATUS_RX_UNF n) 1
      else s.setCsp n { s.cspOf n with lens := (s.cspOf n).lens.tail }).answer (BitVec.ofNat 32 ((s.cspOf n).lens.headD 0)) .done .ok := by
  unfold cspLenPop
  rw [hc, if_neg Bool.false_ne_true]
  cases (s.cspOf n).lens <;> rfl

/-- Received words join the FIFO, whose 512 places set RX_OVF where they do not suffice (R633). -/
theorem cspOf_cspReceive (n : Nat) (l : List Word) (s : State) :
    (cspReceive n l s).cspOf n = { s.cspOf n with rx := ((s.cspOf n).rx ++ l).take 512 } := by
  unfold cspReceive
  rw [cspOf_cspShow]
  split
  · rw [cspOf_wr, cspOf_setCsp]
  · rw [cspOf_setCsp]

theorem rd_cspReceive {n : Nat} {l : List Word} {f : FRef} (s : State) (hok : f.lo ≤ f.hi ∧ f.hi < 12)
    (hne : 2 < f.lo ∨ f.hi < 2) : (cspReceive n l s).rd f = s.rd f := by
  unfold cspReceive
  rw [rd_cspShow _ hok]
  split
  · exact rd_wr_disjoint _ _ _ _ (by simp [FRef.ok]) ⟨hok.1, by omega⟩ hne.symm
  · rfl

theorem rd_cspReceive_ne {n : Nat} {l : List Word} {f : FRef} (s : State) (h : f.addr ≠ Reg.CSP_STATUS n) : (cspReceive n l s).rd f = s.rd f := by
  unfold cspReceive
  rw [rd_cspShow_ne _ h]
  split
  · exact rd_wr_ne _ _ _ _ (Ne.symm h)
  · rfl

theorem rd_cspReceive_rxOvf {n : Nat} {l : List Word} {s : State} (h : 512 < (s.cspOf n).rx.length + l.length) :
    (cspReceive n l s).rd (Fld.CSP_STATUS_RX_OVF n) = 1 := by
  unfold cspReceive
  rw [rd_cspShow _ (by simp), if_pos h, rd_wr_same _ _ _ (by simp [FRef.ok])]
  rfl

theorem cspReceive_out (n : Nat) (l : List Word) (s : State) : (cspReceive n l s).out = s.out := by
  unfold cspReceive
  extract_lets q s1
  show (if 512 < q.rx.length + l.length then s1.wr (Fld.CSP_STATUS_RX_OVF n) 1 else s1).out = s.out
  split <;> rfl

/-! ### Transfers of a master -/

/-- What starts on a port that is a used master, by its words (R632). -/
theorem cspXferWrite_master {n : Nat} {v : Word} {s : State} (hn : n ≠ 0) (hgo : (Fld.CSP_XFER_GO n).get v ≠ 0) (hen : s.rd (Fld.CSP_CFG_EN n) = 1)
    (hmode : s.rd (Fld.CSP_CFG_MODE n) = 1) :
    let bits := (Fld.CSP_XFER_LEN n).get v + 1
    let q := s.cspOf n
    let u := s.wr (Fld.CSP_XFER_LEN n) ((Fld.CSP_XFER_LEN n).get v)
    cspXferWrite n v s = if q.busy.isSome ∨ q.tx.length < wordsOf bits then u.wr (Fld.CSP_STATUS_XFER_REF n) 1
      else cspShow n (((u.setCsp n { q with tx := q.tx.drop (wordsOf bits), busy := some bits }).wr (Fld.CSP_XFER_BUSY n) 1).send
        (.serial n bits (q.tx.take (wordsOf bits)))) := by
  intro bits q u
  have hen' : u.rdB (Fld.CSP_CFG_EN n) = true := decide_eq_true (by rw [rd_wr_ne _ _ _ _ (by simp), hen]; decide)
  have hmode' : u.rdB (Fld.CSP_CFG_MODE n) = true := decide_eq_true (by rw [rd_wr_ne _ _ _ _ (by simp), hmode]; decide)
  have hgoes : ¬((Fld.CSP_XFER_GO n).get v = 0 ∨ u.rdB (Fld.CSP_CFG_EN n) = false ∨ u.rdB (Fld.CSP_CFG_MODE n) = false) := by
    rw [hen', hmode']; simpa using hgo
  exact (if_neg hn).trans (if_neg hgoes)

/-- The word that CSP_GO writes holds GO, and LEN. -/
theorem go_get (n : Nat) (len : BitVec 12) :
    (Fld.CSP_XFER_GO n).get (0x80000000#32 ||| len.setWidth 32) ≠ 0 ∧ (Fld.CSP_XFER_LEN n).get (0x80000000#32 ||| len.setWidth 32) = len.toNat := by
  constructor
  · intro h
    have hbit : ((Fld.CSP_XFER_GO n).get (0x80000000#32 ||| len.setWidth 32)).testBit 0 = true := by
      rw [FRef.testBit_get _ (by simp [FRef.ok])]
      simp [FRef.width]
    simp [h] at hbit
  · apply Nat.eq_of_testBit_eq
    intro i
    rw [FRef.testBit_get _ (by simp [FRef.ok]), BitVec.testBit_toNat]
    by_cases hi : i < 12
    · have hgo : (0x80000000#32).getLsbD i = false := by
        rw [show 0x80000000#32 = BitVec.twoPow 32 31 from rfl, BitVec.getLsbD_twoPow]
        simp; omega
      simp [FRef.width, hi, show i < 32 by omega, BitVec.getLsbD_setWidth, hgo, - BitVec.getLsbD_eq_getElem]
    · simp [FRef.width, hi, BitVec.getLsbD_of_ge len i (by omega)]

section
variable {n : Nat} {v : Word} {s : State} (hn : n ≠ 0) (hgo : (Fld.CSP_XFER_GO n).get v ≠ 0) (hen : s.rd (Fld.CSP_CFG_EN n) = 1)
  (hmode : s.rd (Fld.CSP_CFG_MODE n) = 1)
include hn hgo hen hmode

/-- A transfer that cannot start sets XFER_REF. -/
theorem cspXferWrite_refused (h : (s.cspOf n).busy.isSome ∨ (s.cspOf n).tx.length < wordsOf ((Fld.CSP_XFER_LEN n).get v + 1)) :
    let t := cspXferWrite n v s
    CspFrame n [Reg.CSP_XFER n, Reg.CSP_STATUS n] s t ∧ t.rd (Fld.CSP_XFER_LEN n) = (Fld.CSP_XFER_LEN n).get v ∧
      t.rd (Fld.CSP_STATUS_XFER_REF n) = 1 ∧ t.cspOf n = s.cspOf n ∧ t.out = s.out := by
  intro t
  have ht : t = (s.wr (Fld.CSP_XFER_LEN n) ((Fld.CSP_XFER_LEN n).get v)).wr (Fld.CSP_STATUS_XFER_REF n) 1 :=
    (cspXferWrite_master hn hgo hen hmode).trans (if_pos h)
  rw [ht]
  refine ⟨((CspFrame.refl n _ s).wr (by simp)).wr (by simp), ?_, rd_wr_same _ _ _ (by simp [FRef.ok]), rfl, rfl⟩
  rw [rd_wr_ne _ _ _ _ (by simp), rd_wr_same _ _ _ (by simp [FRef.ok])]
  exact Nat.mod_eq_of_lt (FRef.get_lt _ (by simp [FRef.ok]) v)

/-- A transfer that starts sends its words. -/
theorem cspXferWrite_starts (h : ¬((s.cspOf n).busy.isSome ∨ (s.cspOf n).tx.length < wordsOf ((Fld.CSP_XFER_LEN n).get v + 1))) :
    let t := cspXferWrite n v s
    let bits := (Fld.CSP_XFER_LEN n).get v + 1
    CspFrame n [Reg.CSP_XFER n, Reg.CSP_STATUS n] s t ∧ t.rd (Fld.CSP_XFER_LEN n) = (Fld.CSP_XFER_LEN n).get v ∧
      t.rd (Fld.CSP_XFER_BUSY n) = 1 ∧ t.cspOf n = { s.cspOf n with tx := (s.cspOf n).tx.drop (wordsOf bits), busy := some bits } ∧
      t.out = s.out ++ [Out.serial n bits ((s.cspOf n).tx.take (wordsOf bits))] := by
  intro t bits
  have ht := (cspXferWrite_master hn hgo hen hmode).trans (if_neg h)
  rw [show t = _ from ht]
  refine ⟨((((CspFrame.refl n _ s).wr (by simp)).setCsp.wr (by simp)).send).cspShow (by simp), ?_, ?_, ?_, rfl⟩
  · rw [rd_cspShow_ne _ (by simp)]
    rw [rd_send, rd_wr_disjoint _ _ _ _ (by simp [FRef.ok]) (by simp [FRef.ok]) (.inl (by simp)), rd_setCsp, rd_wr_same _ _ _ (by simp [FRef.ok])]
    exact Nat.mod_eq_of_lt (FRef.get_lt _ (by simp [FRef.ok]) v)
  · rw [rd_cspShow_ne _ (by simp), rd_send, rd_wr_same _ _ _ (by simp [FRef.ok])]
    rfl
  · rw [cspOf_cspShow, cspOf_send, cspOf_wr, cspOf_setCsp]

end

/-- The transfer in progress ends with the words received (R632). -/
theorem cspXferDone_spec {n : Nat} {bits : Nat} {rx : List Word} {s : State} :
    let u := (s.setCsp n { s.cspOf n with busy := none }).wr (Fld.CSP_XFER_BUSY n) 0
    let w := rxWords (s.rdB (Fld.CSP_CFG_LSB_FIRST n)) bits rx
    let t := cspReceive n w u
    CspFrame n [Reg.CSP_XFER n, Reg.CSP_STATUS n] s t ∧ t.rd (Fld.CSP_XFER_BUSY n) = 0 ∧
      t.cspOf n = { s.cspOf n with busy := none, rx := ((s.cspOf n).rx ++ w).take 512 } ∧
      (512 < (s.cspOf n).rx.length + w.length → t.rd (Fld.CSP_STATUS_RX_OVF n) = 1) ∧ t.out = s.out := by
  intro u w t
  have hu : u.cspOf n = { s.cspOf n with busy := none } := cspOf_setCsp _ _ _
  refine ⟨((CspFrame.refl n _ s).setCsp.wr (by simp)).cspReceive (by simp), ?_, ?_, fun h => rd_cspReceive_rxOvf (by rw [hu]; exact h),
    cspReceive_out _ _ _⟩
  · rw [rd_cspReceive_ne _ (by simp), rd_wr_same _ _ _ (by simp [FRef.ok])]
    rfl
  · rw [cspOf_cspReceive, hu]

theorem execCspXferDone_busy {n : Fin 4} {bits : Nat} {rx : List Word} {s : State} (hlock : (ticked s).rdB Fld.CLK_STATUS_APP_LOCK = true)
    (hbusy : (s.cspOf n).busy = some bits) :
    execCspXferDone n rx s = .next (cspReceive n (rxWords ((ticked s).rdB (Fld.CSP_CFG_LSB_FIRST n)) bits rx)
      (((ticked s).setCsp n { s.cspOf n with busy := none }).wr (Fld.CSP_XFER_BUSY n) 0)) := by
  rw [execCspXferDone, run_ticked, hlock, Bool.not_true, if_neg Bool.false_ne_true, show (ticked s).cspOf n = s.cspOf n from rfl, hbusy]
  have hlsb : (((ticked s).setCsp n { s.cspOf n with busy := none }).wr (Fld.CSP_XFER_BUSY n) 0).rdB (Fld.CSP_CFG_LSB_FIRST n) =
      (ticked s).rdB (Fld.CSP_CFG_LSB_FIRST n) := by
    rw [rdB_eq, rd_wr_ne _ _ _ _ (by simp)]
    rfl
  rw [← hlsb]

/-! ### Transfers of a slave -/

section
variable (n bits : Nat) (rx : List Word) (s : State)

/-- Port `n` as its words and the words of a transfer of `bits` bits change places. -/
def slaveSent : State :=
  ((if (s.cspOf n).tx.length < wordsOf bits then s.wr (Fld.CSP_STATUS_TX_UNF n) 1 else s).setCsp n
    { s.cspOf n with tx := (s.cspOf n).tx.drop (wordsOf bits) }).send (.serial n bits ((s.cspOf n).tx.take (wordsOf bits)))

/-- The same with LONG_EV for a transfer of more than 4,096 bits. -/
def slaveFlagged : State := if 4096 < bits then (slaveSent n bits s).wr (Fld.CSP_STATUS_LONG_EV n) 1 else slaveSent n bits s

theorem rd_slaveFlagged_ne (f : FRef) (h : f.addr ≠ Reg.CSP_STATUS n) : (slaveFlagged n bits s).rd f = s.rd f := by
  have hsent : (slaveSent n bits s).rd f = s.rd f := by
    unfold slaveSent
    rw [rd_send, rd_setCsp]
    split
    · exact rd_wr_ne _ _ _ _ (Ne.symm h)
    · rfl
  unfold slaveFlagged
  split
  · rw [rd_wr_ne _ _ _ _ (Ne.symm h), hsent]
  · exact hsent

theorem rd_slaveFlagged_txUnf (h : (s.cspOf n).tx.length < wordsOf bits) : (slaveFlagged n bits s).rd (Fld.CSP_STATUS_TX_UNF n) = 1 := by
  have hsent : (slaveSent n bits s).rd (Fld.CSP_STATUS_TX_UNF n) = 1 := by
    unfold slaveSent
    rw [rd_send, rd_setCsp, if_pos h, rd_wr_same _ _ _ (by simp [FRef.ok])]
    rfl
  unfold slaveFlagged
  split
  · rw [rd_wr_disjoint _ _ _ _ (by simp [FRef.ok]) (by simp [FRef.ok]) (.inl (by simp)), hsent]
  · exact hsent

theorem cspOf_slaveFlagged : (slaveFlagged n bits s).cspOf n = { s.cspOf n with tx := (s.cspOf n).tx.drop (wordsOf bits) } := by
  have hsent : (slaveSent n bits s).cspOf n = { s.cspOf n with tx := (s.cspOf n).tx.drop (wordsOf bits) } := by
    unfold slaveSent
    rw [cspOf_send, cspOf_setCsp]
  unfold slaveFlagged
  split
  · rw [cspOf_wr, hsent]
  · exact hsent

theorem slaveFlagged_out : (slaveFlagged n bits s).out = s.out ++ [Out.serial n bits ((s.cspOf n).tx.take (wordsOf bits))] := by
  unfold slaveFlagged slaveSent
  split <;> split <;> rfl

theorem cspFrame_slaveFlagged : CspFrame n [Reg.CSP_STATUS n] s (slaveFlagged n bits s) := by
  have h : CspFrame n [Reg.CSP_STATUS n] s (slaveSent n bits s) :=
    ((CspFrame.ite ((CspFrame.refl n _ s).wr (by simp)) (CspFrame.refl n _ s)).setCsp).send
  exact .ite (h.wr (by simp)) h

theorem natMin_eq (a b : Nat) : Nat.min a b = min a b := rfl

/-- A raw slave transfer receives the words that came, and queues its length (R633). -/
theorem cspSlave_eq :
    cspSlave n bits rx s =
      let w := rxWords (s.rdB (Fld.CSP_CFG_LSB_FIRST n)) (Nat.min bits 4096) rx
      let u := cspReceive n w (slaveFlagged n bits s)
      u.setCsp n { u.cspOf n with lens := ((u.cspOf n).lens ++ [Nat.min bits 4096]).take 16 } := by
  have h : (slaveFlagged n bits s).rdB (Fld.CSP_CFG_LSB_FIRST n) = s.rdB (Fld.CSP_CFG_LSB_FIRST n) := by
    rw [rdB_eq, rd_slaveFlagged_ne _ _ _ _ (by simp)]
    rfl
  rw [← h]
  rfl

end

/-- A frame cut short sets SHORT_EV (R634). -/
def shortMarked (n bits len : Nat) (s : State) : State := if bits < 16 + 8 * len then s.wr (Fld.CSP_STATUS_SHORT_EV n) 1 else s

/-- The oldest response leaves port `n`. -/
def responseSent (n : Nat) (s : State) : State :=
  { s.setCsp n { s.cspOf n with responses := (s.cspOf n).responses.tail } with
    out := s.out ++ (s.cspOf n).responses.head?.toList.map (fun r => Out.response (n + 1) r) }

/-- The oldest response leaves once it has gone out whole (R634). -/
theorem cspFrame_eq (n bits len : Nat) (s : State) :
    cspFrame n bits len s = if ((shortMarked n bits len s).cspOf n).responses.head?.any (fun r => decide (16 + 8 * (48 + r.data.length) ≤ bits)) then
        responseSent n (shortMarked n bits len s)
      else shortMarked n bits len s := by
  unfold cspFrame responseSent
  rw [show (if bits < 16 + 8 * len then s.wr (Fld.CSP_STATUS_SHORT_EV n) 1 else s) = shortMarked n bits len s from rfl]
  dsimp only
  cases ((shortMarked n bits len s).cspOf n).responses with
  | nil => rfl
  | cons r q => by_cases h : 16 + 8 * (48 + r.data.length) ≤ bits <;> simp [responseLen, h, State.send, State.setCsp]

theorem cspOf_shortMarked (n bits len m : Nat) (s : State) : (shortMarked n bits len s).cspOf m = s.cspOf m := by
  unfold shortMarked
  split <;> rfl

theorem shortMarked_out (n bits len : Nat) (s : State) : (shortMarked n bits len s).out = s.out := by
  unfold shortMarked
  split <;> rfl

theorem cspFrame_shortMarked (n bits len : Nat) (s : State) : CspFrame n [Reg.CSP_STATUS n] s (shortMarked n bits len s) :=
  .ite ((CspFrame.refl n _ s).wr (by simp)) (CspFrame.refl n _ s)

theorem rd_shortMarked {n bits len : Nat} {s : State} (h : bits < 16 + 8 * len) : (shortMarked n bits len s).rd (Fld.CSP_STATUS_SHORT_EV n) = 1 := by
  rw [shortMarked, if_pos h, rd_wr_same _ _ _ (by simp [FRef.ok])]
  rfl

theorem CspFrame.responseSent {n : Nat} {l : List Nat} {r s : State} (h : CspFrame n l r s) : CspFrame n l r (responseSent n s) :=
  have hset := h.setCsp (x := { s.cspOf n with responses := (s.cspOf n).responses.tail })
  ⟨by rw [h.rest]; rfl, hset.regs, hset.ports⟩

/-! ### The obligation -/

theorem notSafety_of_cspBlock {a : Nat} (h : 0x680000 ≤ a) : inSafetyBlock a = false := by
  simp only [inSafetyBlock, Bool.or_eq_false_iff, decide_eq_false_iff_not]; omega

theorem cspOf_admitted (s : State) (n : Nat) : (admitted s).cspOf n = s.cspOf n := rfl

/-- Settles O53: each operation by its branches, in the frame of its port. -/
theorem serialPorts : Obligations.SerialPorts := by
  refine ⟨fun s i n v hr hw => ?push, fun s i n hr hm hc => ?pop, fun s i n hr hm hc => ?lenPop, fun s i n len hr hw hn hen hmode => ?go,
    fun s n rx bits hlock hbusy => ?done, fun s n bits rx hraw hbits => ?slave, fun s n bits len hc => ?frame⟩
  case push =>
    intro takes full
    have hsafe : inSafetyBlock (Reg.CSP_TXDATA n) = false := notSafety_of_cspBlock (Nat.le_add_right_of_le (by decide))
    refine ⟨_, run_writeAdmitted hr hsafe hw, ?_⟩
    have hframe := cspFrame_cspPush n v (admitted s)
    suffices h : _ ∧ _ ∧ _ ∧ (cspPush n v (admitted s)).out = s.out by
      obtain ⟨hfifo, hovf, hlevel, hout⟩ := h
      exact ⟨hfifo, hovf, hlevel, fun m _ hm => hframe.ports m hm, hframe.rest.trans (by rw [hout]; rfl), hframe.regs⟩
    cases ht : takes with
    | false =>
      have hpush : cspPush n v (admitted s) = admitted s := if_pos (by
        by_contra hor
        obtain ⟨hn, hc⟩ := not_or.mp hor
        have hc : cspCommand s n = false := Bool.eq_false_iff.mpr hc
        simp [takes, hc, Fin.ext_iff, hn] at ht)
      rw [hpush]
      exact ⟨by simp [cspOf_admitted], by simp, by simp, rfl⟩
    | true =>
      obtain ⟨hn, hc⟩ : n ≠ 0 ∧ cspCommand s n = false := by simpa [takes] using ht
      rw [cspPush_taken (s := admitted s) (fun h => hn (Fin.ext h)) hc]
      by_cases hfull : 512 ≤ ((admitted s).cspOf n).tx.length
      · have hf : full = true := decide_eq_true hfull
        rw [if_pos hfull, hf]
        exact ⟨rfl, fun _ _ => rd_wr_one _ _ (by simp [FRef.ok]), by simp, rfl⟩
      · have hf : full = false := decide_eq_false hfull
        rw [if_neg hfull, hf]
        refine ⟨cspOf_setCsp _ _ _, by simp, fun _ _ => ?_, rfl⟩
        rw [rd_cspShow_txLevel, cspOf_setCsp, List.length_append, cspOf_admitted]
        exact Nat.mod_eq_of_lt (by rw [cspOf_admitted] at hfull; simp; omega)
  case pop =>
    refine ⟨_, run_readAdmitted hr hm, ?_⟩
    rw [cspPop_eq (s := ticked s) hc]
    have h := CspFrame.refl n [Reg.CSP_STATUS n] (ticked s)
    by_cases hrx : (s.cspOf n).rx = []
    · have hunf := rd_wr_one (ticked s) (Fld.CSP_STATUS_RX_UNF n) (by simp [FRef.ok])
      have hframe := h.wr (f := Fld.CSP_STATUS_RX_UNF n) (v := 1) (by simp)
      rw [if_pos (show ((ticked s).cspOf n).rx = [] from hrx)]
      refine ⟨rfl, ?_, fun _ => hunf, fun m _ hm => hframe.ports m hm, rfl, hframe.regs⟩
      show s.cspOf n = _
      rw [hrx, List.tail_nil, ← hrx]
    · have hframe := (h.setCsp (x := { s.cspOf n with rx := (s.cspOf n).rx.tail })).cspShow (by simp)
      rw [if_neg (show ((ticked s).cspOf n).rx ≠ [] from hrx)]
      exact ⟨rfl, cspOf_setCsp _ _ _, fun hempty => absurd hempty hrx, fun m _ hm => hframe.ports m hm, rfl, hframe.regs⟩
  case lenPop =>
    refine ⟨_, run_readAdmitted hr hm, ?_⟩
    rw [cspLenPop_eq (s := ticked s) hc]
    have h := CspFrame.refl n [Reg.CSP_STATUS n] (ticked s)
    by_cases hlens : (s.cspOf n).lens = []
    · have hunf := rd_wr_one (ticked s) (Fld.CSP_STATUS_RX_UNF n) (by simp [FRef.ok])
      have hframe := h.wr (f := Fld.CSP_STATUS_RX_UNF n) (v := 1) (by simp)
      rw [if_pos (show ((ticked s).cspOf n).lens = [] from hlens)]
      refine ⟨rfl, ?_, fun _ => hunf, fun m _ hm => hframe.ports m hm, rfl, hframe.regs⟩
      show s.cspOf n = _
      rw [hlens, List.tail_nil, ← hlens]
    · have hframe := h.setCsp (x := { s.cspOf n with lens := (s.cspOf n).lens.tail })
      rw [if_neg (show ((ticked s).cspOf n).lens ≠ [] from hlens)]
      exact ⟨rfl, cspOf_setCsp _ _ _, fun hempty => absurd hempty hlens, fun m _ hm => hframe.ports m hm, rfl, hframe.regs⟩
  case go =>
    intro words goes
    have hsafe : inSafetyBlock (Reg.CSP_XFER n) = false := notSafety_of_cspBlock (Nat.le_add_right_of_le (by decide))
    obtain ⟨hgo, hlen⟩ := go_get n len
    have hn : n.val ≠ 0 := fun h => hn (Fin.ext h)
    refine ⟨_, run_writeAdmitted hr hsafe hw, ?_⟩
    by_cases hstays : ((admitted s).cspOf n).busy.isSome ∨ ((admitted s).cspOf n).tx.length < 
        wordsOf ((Fld.CSP_XFER_LEN n).get (0x80000000#32 ||| len.setWidth 32) + 1)
    · obtain ⟨hframe, hlen', href, hport, hout⟩ := cspXferWrite_refused (s := admitted s) hn hgo hen hmode hstays
      rw [hlen] at hstays hlen'
      have hgoes : goes = false := by
        rcases hstays with h | h
        · have : (s.cspOf n).busy ≠ none := fun hnone => by simp [cspOf_admitted, hnone] at h
          simp [goes, this]
        · have : (s.cspOf n).tx.length < words := h
          simp [goes, Nat.not_le.mpr this]
      rw [hgoes]
      exact ⟨hlen', fun _ => ⟨href, hport, hout⟩, by simp, fun m _ hm => hframe.ports m hm, hframe.rest, hframe.regs⟩
    · obtain ⟨hframe, hlen', hbusy, hport, hout⟩ := cspXferWrite_starts (s := admitted s) hn hgo hen hmode hstays
      rw [hlen] at hstays hlen' hport hout
      have hgoes : goes = true := by
        obtain ⟨hidle, hwords⟩ := not_or.mp hstays
        have h1 : (s.cspOf n).busy = none := by simpa [cspOf_admitted] using hidle
        have h2 : words ≤ (s.cspOf n).tx.length := Nat.le_of_not_lt hwords
        simp [goes, h1, h2]
      rw [hgoes]
      exact ⟨hlen', by simp, fun _ => ⟨hbusy, hport, hout⟩, fun m _ hm => hframe.ports m hm, hframe.rest, hframe.regs⟩
  case done =>
    intro w
    obtain ⟨hframe, hbusy', hport, hovf, hout⟩ := cspXferDone_spec (n := n) (bits := bits) (rx := rx) (s := ticked s)
    have hlock' : (ticked s).rdB Fld.CLK_STATUS_APP_LOCK = true := decide_eq_true (by rw [show (ticked s).rd _ = s.rd _ from rfl, hlock]; decide)
    have hexec : exec (.cspXferDone n rx) s = _ := execCspXferDone_busy hlock' hbusy
    refine ⟨_, hexec, hbusy', hport, hovf, fun m _ hm => hframe.ports m hm, hframe.rest.trans (by rw [hout]; rfl), hframe.regs⟩
  case slave =>
    intro w
    have hexec : exec (.cspSlaveXfer n bits rx) s = .next (cspSlave n bits rx (ticked s)) :=
      congrArg Host.Outcome.next (if_pos ((Bool.and_eq_true _ _).mpr ⟨hraw, decide_eq_true (Nat.ne_of_gt hbits)⟩))
    refine ⟨_, hexec, ?_⟩
    have hframe : CspFrame n [Reg.CSP_STATUS n] (ticked s) (cspSlave n bits rx (ticked s)) := by
      rw [cspSlave_eq]
      exact ((cspFrame_slaveFlagged n bits (ticked s)).cspReceive (by simp)).setCsp
    suffices h : _ ∧ _ ∧ _ ∧ _ by
      obtain ⟨hport, hunf, hlong, hout⟩ := h
      exact ⟨hport, hunf, hlong, hout, fun m _ hm => hframe.ports m hm, hframe.rest, hframe.regs⟩
    rw [cspSlave_eq]
    refine ⟨?_, fun h => ?_, fun h => ?_, ?_⟩
    · rw [cspOf_setCsp, cspOf_cspReceive, cspOf_slaveFlagged, natMin_eq]
      rfl
    · rw [rd_setCsp, rd_cspReceive _ (by simp) (by simp)]
      exact rd_slaveFlagged_txUnf n bits (ticked s) h
    · rw [rd_setCsp, rd_cspReceive _ (by simp) (by simp)]
      rw [slaveFlagged, if_pos h, rd_wr_same _ _ _ (by simp [FRef.ok])]
      rfl
    · rw [setCsp_out, cspReceive_out, slaveFlagged_out]
      rfl
  case frame =>
    intro leaves
    have hexec : exec (.cspCmdXfer n bits len) s = .next (cspFrame n bits len (ticked s)) := congrArg Host.Outcome.next (if_pos hc)
    refine ⟨_, hexec, ?_⟩
    rw [cspFrame_eq, cspOf_shortMarked]
    have h := cspFrame_shortMarked n bits len (ticked s)
    have hshort : bits < 16 + 8 * len → (shortMarked n bits len (ticked s)).rd (Fld.CSP_STATUS_SHORT_EV n) = 1 := rd_shortMarked
    cases hl : leaves with
    | true =>
      rw [if_pos (show Option.any _ ((ticked s).cspOf n).responses.head? = true from hl)]
      refine ⟨hshort, ?_, ?_, fun m _ hm => h.responseSent.ports m hm, h.responseSent.rest, h.responseSent.regs⟩
      · exact (cspOf_setCsp _ _ _).trans (by rw [cspOf_shortMarked]; rfl)
      · show (shortMarked n bits len (ticked s)).out ++ _ = _
        rw [cspOf_shortMarked, shortMarked_out]
        rfl
    | false =>
      rw [if_neg (Bool.eq_false_iff.mp (show Option.any _ ((ticked s).cspOf n).responses.head? = false from hl))]
      exact ⟨hshort, cspOf_shortMarked .., (shortMarked_out ..).trans (List.append_nil _).symm, fun m _ hm => h.ports m hm, h.rest, h.regs⟩

end Sys2Proof.Machine
end
-- ==== Sys2Proof/Proofs/ForwardingTable.lean ====
section
/-!
PROOFS. Proofs/ForwardingTable.lean: the two banks of the forwarding table, the access commands and the swap (R572, R583, R584, R601, R602).
-/
namespace Sys2Proof.Machine

/-! ### Tables but for one key -/

theorem Tab.keep_erase {α : Type} {p : Nat → Bool} {a : Nat} (h : p a = false) (t : Tab α) : (t.erase a).keep p = t.keep p := by
  induction t with
  | nil => rfl
  | cons e t ih =>
    obtain ⟨k, v⟩ := e
    by_cases hk : k = a
    · rw [Tab.erase, if_pos hk, Tab.keep, if_neg (by simp [hk, h]), ih]
    · simp [Tab.erase, hk, Tab.keep, ih]

theorem Tab.keep_insert {α : Type} {p : Nat → Bool} {a : Nat} (h : p a = false) (v : α) (t : Tab α) : (t.insert a v).keep p = t.keep p := by
  induction t with
  | nil => simp [Tab.insert, Tab.keep, h]
  | cons e t ih =>
    obtain ⟨k, w⟩ := e
    by_cases hk : a < k
    · simp [Tab.insert, hk, Tab.keep, h]
    · simp [Tab.insert, hk, Tab.keep, ih]

/-- A write of one key leaves the rest of a table. -/
theorem Tab.keep_set {α : Type} [DecidableEq α] (d : α) (t : Tab α) (a : Nat) (v : α) :
    (Tab.set d t a v).keep (fun j => j != a) = t.keep (fun j => j != a) := by
  have h : (fun j => j != a) a = false := by simp
  unfold Tab.set
  split
  · exact Tab.keep_erase (p := fun j => j != a) h t
  · rw [Tab.keep_insert (p := fun j => j != a) h, Tab.keep_erase (p := fun j => j != a) h]

/-! ### The banks -/

theorem bank_setBank_same (s : State) (b : Nat) (x : Tab (Option FdbEntry)) : (s.setBank b x).bank b = x := by
  unfold State.setBank State.bank
  split <;> rfl

/-- Bank 0 and the other bank stand apart. -/
theorem bank_setBank_ne (s : State) {b c : Nat} (x : Tab (Option FdbEntry)) (h : b = 0 ↔ c ≠ 0) : (s.setBank b x).bank c = s.bank c := by
  unfold State.setBank State.bank
  by_cases hb : b = 0
  · simp [hb, h.mp hb]
  · have hc : c = 0 := by by_contra hc; exact hb (h.mpr hc)
    simp [hb, hc]

theorem setBank_rest (s : State) (b : Nat) (x : Tab (Option FdbEntry)) :
    s.setBank b x = { s with plots := { s.plots with bank0 := (s.setBank b x).plots.bank0, bank1 := (s.setBank b x).plots.bank1 } } := by
  unfold State.setBank
  split <;> rfl

section
variable (b k : Nat) (e : Option FdbEntry) (s : State)

theorem fdbGet_fdbPut : fdbGet (fdbPut b k e s) b k = e := by
  rw [fdbGet, fdbPut, bank_setBank_same, Tab.get_set_same]

theorem keep_fdbPut : ((fdbPut b k e s).bank b).keep (fun j => j != k) = (s.bank b).keep (fun j => j != k) := by
  rw [fdbPut, bank_setBank_same, Tab.keep_set]

theorem bank_fdbPut_ne {b c : Nat} (h : b = 0 ↔ c ≠ 0) : (fdbPut b k e s).bank c = s.bank c := bank_setBank_ne s _ h

theorem fdbPut_rest : fdbPut b k e s =
    { s with plots := { s.plots with bank0 := (fdbPut b k e s).plots.bank0, bank1 := (fdbPut b k e s).plots.bank1 } } := setBank_rest _ _ _

theorem fdbPut_regs : (fdbPut b k e s).regs = s.regs := by rw [fdbPut_rest]

end

/-! ### Aging -/

/-- The entry of a key leaves bank `b` if it is learned and has had no hit for `life` frames. -/
def fdbAged (k life b : Nat) (s : State) : State :=
  if (fdbGet s b k).any (fun e => !e.static && decide (0 < life ∧ life ≤ fnDiff s.fn e.hitAt)) then fdbPut b k none s else s

theorem exec_fdbAge (p : Fin 64) (mac : BitVec 48) (s : State) :
    let k := fdbKey p mac.toNat
    let life := 50000 * s.rd Fld.PQ_FDB_CFG_AGE_TIME
    exec (.fdbAge p mac) s = .next (fdbAged k life 1 (fdbAged k life 0 (ticked s))) := by
  intro k life
  have hstep (b : Nat) (s : State) : (match fdbGet s b k with
      | some e => if !e.static && decide (0 < life ∧ life ≤ fnDiff s.fn e.hitAt) then fdbPut b k none s else s
      | none => s) = fdbAged k life b s := by
    unfold fdbAged
    cases fdbGet s b k <;> rfl
  rw [← hstep, ← hstep]
  rfl

section
variable (k life : Nat) (s : State)

theorem fdbGet_fdbAged (b : Nat) : fdbGet (fdbAged k life b s) b k =
    if (fdbGet s b k).any (fun e => !e.static && decide (0 < life ∧ life ≤ fnDiff s.fn e.hitAt)) then none else fdbGet s b k := by
  unfold fdbAged
  split
  · exact fdbGet_fdbPut b k none s
  · rfl

theorem keep_fdbAged (b : Nat) : ((fdbAged k life b s).bank b).keep (fun j => j != k) = (s.bank b).keep (fun j => j != k) := by
  unfold fdbAged
  split
  · exact keep_fdbPut b k none s
  · rfl

theorem bank_fdbAged_ne {b c : Nat} (h : b = 0 ↔ c ≠ 0) : (fdbAged k life b s).bank c = s.bank c := by
  unfold fdbAged
  split
  · exact bank_fdbPut_ne k none s h
  · rfl

theorem fdbAged_rest (b : Nat) : fdbAged k life b s =
    { s with plots := { s.plots with bank0 := (fdbAged k life b s).plots.bank0, bank1 := (fdbAged k life b s).plots.bank1 } } := by
  unfold fdbAged
  split
  · exact fdbPut_rest b k none s
  · rfl

theorem fdbAged_fn (b : Nat) : (fdbAged k life b s).fn = s.fn := by
  unfold State.fn
  rw [fdbAged_rest]

end

/-- What the aging of both banks leaves in each. -/
theorem fdbAged_both (k life : Nat) (s : State) (b : Fin 2) :
    let t := fdbAged k life 1 (fdbAged k life 0 s)
    fdbGet t b k = (if (fdbGet s b k).any (fun e => !e.static && decide (0 < life ∧ life ≤ fnDiff s.fn e.hitAt)) then none else fdbGet s b k) ∧
      (t.bank b).keep (fun j => j != k) = (s.bank b).keep (fun j => j != k) := by
  intro t
  have h1 : (fdbAged k life 0 s).bank 1 = s.bank 1 := bank_fdbAged_ne k life s (by decide)
  have h0 : t.bank 0 = (fdbAged k life 0 s).bank 0 := bank_fdbAged_ne k life _ (by decide)
  match b with
  | 0 => exact ⟨(congrArg (Tab.get none · k) h0).trans (fdbGet_fdbAged k life s 0), (congrArg (Tab.keep _) h0).trans (keep_fdbAged k life s 0)⟩
  | 1 =>
    have hget := fdbGet_fdbAged k life (fdbAged k life 0 s) 1
    rw [fdbAged_fn, show fdbGet (fdbAged k life 0 s) 1 k = fdbGet s 1 k from congrArg (Tab.get none · k) h1] at hget
    exact ⟨hget, (keep_fdbAged k life _ 1).trans (congrArg (Tab.keep _) h1)⟩

theorem fdbAged_both_rest (k life : Nat) (s : State) :
    let t := fdbAged k life 1 (fdbAged k life 0 s)
    t = { s with plots := { s.plots with bank0 := t.plots.bank0, bank1 := t.plots.bank1 } } := by
  intro t
  have h0 := fdbAged_rest k life s 0
  have h1 := fdbAged_rest k life (fdbAged k life 0 s) 1
  rw [show fdbAged k life 1 (fdbAged k life 0 s) = t from rfl] at h1
  generalize fdbAged k life 0 s = u at h0 h1
  generalize t = t at h1 ⊢
  rw [h1, h0]

/-! ### The access commands -/

theorem exec_fdb {s : State} {i : Initiator} {f : State → State} (h : Reaches s i Reg.PQ_FDB_CTRL) (hw : mayWrite s i Reg.PQ_FDB_CTRL = true) :
    run (writeAdmitted i Reg.PQ_FDB_CTRL f) s = .next (f (admitted s)) := run_writeAdmitted h (by decide) hw

section
variable {f : State → State} {s : State}

/-- The table takes writes while no swap is armed and no copy runs (R583). -/
theorem fdbWritable_free (ha : s.plots.armedAt = none) (hc : s.rd Fld.PQ_FDB_STATUS_COPY_BUSY = 0) : fdbWritable f s = f s :=
  if_neg (by simp [ha, hc])

theorem fdbWritable_refused (h : s.plots.armedAt ≠ none ∨ s.rd Fld.PQ_FDB_STATUS_COPY_BUSY = 1) :
    fdbWritable f s = ((s.wr Fld.PQ_FDB_STATUS_WR_REF 1).wr Fld.PQ_FDB_STATUS_ACC_OK 0).logEv 0x21 0x0006 0 :=
  if_pos (by
    rcases h with h | h
    · simp [Option.isSome_iff_ne_none.mpr h]
    · simp [h])

end

/-- The log that an event leaves depends on the log, the mode, ring time, and whether that is synchronised. -/
theorem logEv_log_of_eq {s t : State} (source code datum : Nat) (hlog : t.log = s.log) (hlan : t.lan = s.lan) (htime : t.time = s.time)
    (hcycle : t.cycle = s.cycle) (hsync : t.reg Reg.TIME_SYNC = s.reg Reg.TIME_SYNC) : (t.logEv source code datum).log = (s.logEv source code datum).log := by
  have hm : t.mainOn = s.mainOn := by unfold State.mainOn; rw [hlan]
  have hentry : t.logEntry source code datum none = s.logEntry source code datum none := by
    rw [State.logEntry, State.logEntry, hm, hcycle, State.fn, State.fn, htime, State.unsynced, State.unsynced, rdB_eq, rdB_eq,
      rd_congr Fld.TIME_SYNC_UNSYNCED hsync]
  rw [State.logEv, State.logEv, hentry]
  exact enqueue_log_congr hlog hm

section
variable {l : List Nat} {s t : State}

theorem RegsKept.refl (l : List Nat) (s : State) : RegsKept l s s := fun _ _ => rfl

theorem RegsKept.wr {f : FRef} {v : Nat} (h : RegsKept l s t) (hf : f.addr ∈ l) : RegsKept l s (t.wr f v) := fun a ha =>
  (reg_wr_ne t v (fun e => ha (by rw [← e]; exact hf))).trans (h a ha)

theorem RegsKept.logEv {source code datum : Nat} (h : RegsKept l s t) (hl : Reg.LOG_STATUS ∈ l) : RegsKept l s (t.logEv source code datum) :=
  fun a ha => (reg_logEv t source code datum (fun e => ha (by rw [e]; exact hl))).trans (h a ha)

end

/-- A refused write sets WR_REF and is logged (R583). -/
theorem fdbWritable_refused_spec {f : State → State} {s : State} (h : s.plots.armedAt ≠ none ∨ s.rd Fld.PQ_FDB_STATUS_COPY_BUSY = 1) :
    let t := fdbWritable f (admitted s)
    t.rd Fld.PQ_FDB_STATUS_WR_REF = 1 ∧ t.rd Fld.PQ_FDB_STATUS_ACC_OK = 0 ∧ Logged 0x21 6 0 s t ∧
      t = { s with cycle := s.cycle + 1, regs := t.regs, log := t.log, bus := ⟨0#32, .done, .ok⟩ } ∧
      RegsKept [Reg.PQ_FDB_STATUS, Reg.LOG_STATUS] s t := by
  intro t
  have ht : t = _ := fdbWritable_refused (s := admitted s) h
  rw [ht]
  refine ⟨?_, ?_, logEv_log_of_eq _ _ _ rfl rfl rfl rfl ?_, logEv_spec _ _ _ _, ?_⟩
  · rw [rd_logEv _ _ _ _ _ (by decide), rd_wr_disjoint _ _ _ _ (by decide) (by decide) (by decide), rd_wr_one _ _ (by decide)]
  · rw [rd_logEv _ _ _ _ _ (by decide), rd_wr_same _ _ _ (by decide)]
    rfl
  · rw [reg_wr_ne _ _ (by decide), reg_wr_ne _ _ (by decide)]
    rfl
  · exact (((RegsKept.refl _ (admitted s)).wr (by decide)).wr (by decide)).logEv (by decide)

/-- The entry of a key in bank `b` is written or removed, with ACC_OK. -/
def accPut (b k : Nat) (e : Option FdbEntry) (s : State) : State := (fdbPut b k e s).wr Fld.PQ_FDB_STATUS_ACC_OK 1

section
variable (b k : Nat) (e : Option FdbEntry) (s : State)

theorem fdbGet_accPut : fdbGet (accPut b k e s) b k = e := fdbGet_fdbPut b k e s

theorem accOk_accPut : (accPut b k e s).rdB Fld.PQ_FDB_STATUS_ACC_OK = true := decide_eq_true (by
  rw [accPut, rd_wr_one _ _ (by decide)]; decide)

theorem keep_accPut : ((accPut b k e s).bank b).keep (fun j => j != k) = (s.bank b).keep (fun j => j != k) := keep_fdbPut b k e s

theorem bank_accPut_ne {b c : Nat} (h : b = 0 ↔ c ≠ 0) : (accPut b k e s).bank c = s.bank c := bank_fdbPut_ne k e s h

theorem accPut_rest : accPut b k e s = { s with
    regs := (accPut b k e s).regs,
    plots := { s.plots with bank0 := (accPut b k e s).plots.bank0, bank1 := (accPut b k e s).plots.bank1 } } := by
  have h := fdbPut_rest b k e s
  unfold accPut
  generalize fdbPut b k e s = t at h ⊢
  rw [h]
  rfl

theorem accPut_bits : BitsKept Reg.PQ_FDB_STATUS [Fld.PQ_FDB_STATUS_ACC_OK] s (accPut b k e s) := by
  have h := bitsKept_wr (fdbPut b k e s) Fld.PQ_FDB_STATUS_ACC_OK (by decide) 1
  unfold BitsKept at h ⊢
  rw [reg_congr (fdbPut_regs b k e s)] at h
  exact h

theorem accPut_regs : RegsKept [Reg.PQ_FDB_STATUS] s (accPut b k e s) :=
  RegsKept.wr (fun a _ => reg_congr (fdbPut_regs b k e s) a) (by decide)

end

theorem accOk_cleared (s : State) : (s.wr Fld.PQ_FDB_STATUS_ACC_OK 0).rdB Fld.PQ_FDB_STATUS_ACC_OK = false := decide_eq_false (by
  rw [rd_wr_same _ _ _ (by decide)]; decide)

/-- Bank 1 is the inactive one of bank 0, and bank 0 of every other. -/
theorem zero_iff_other (b : Nat) : b = 0 ↔ 1 - b ≠ 0 := by omega

theorem idle_iff {b : Nat} (h : b < 2) : 1 - b = 0 ↔ b ≠ 0 := by omega

/-- The entry that PQ_FDB_RES holds. -/
def resEntry (s : State) : FdbEntry :=
  ⟨s.rdB Fld.PQ_FDB_RES_STATIC, s.rd Fld.PQ_FDB_RES_TYPE, s.rd Fld.PQ_FDB_RES_NODE, s.rd Fld.PQ_FDB_RES_PORT, s.fn⟩

/-- The entry that PQ_FDB_RES holds can enter the inactive bank: its TYPE is issued, and its bucket has a place (R583). -/
def resFits (s : State) : Bool :=
  decide ((resEntry s).type ≠ 3) && ((fdbGet s (idleBank s) (accessKey s)).isSome || !bucketFull s (idleBank s) (accessKey s))

/-- What WRITE does to a table that takes writes. -/
theorem fdbWrite_free {s : State} (ha : s.plots.armedAt = none) (hc : s.rd Fld.PQ_FDB_STATUS_COPY_BUSY = 0) :
    fdbWrite s = if s.rd Fld.PQ_FDB_RES_VALID = 0 then accPut (idleBank s) (accessKey s) none s
      else if resFits s then accPut (idleBank s) (accessKey s) (some (resEntry s)) s
      else s.wr Fld.PQ_FDB_STATUS_ACC_OK 0 := by
  rw [fdbWrite, fdbWritable_free ha hc]
  by_cases hv : s.rd Fld.PQ_FDB_RES_VALID = 0
  · rw [if_pos hv, if_pos (by simp [hv])]
    rfl
  · rw [if_neg hv, if_neg (by simp [hv])]
    have hfits : ((resEntry s).type = 3 ∨ ((fdbGet s (idleBank s) (accessKey s)).isNone = true ∧ bucketFull s (idleBank s) (accessKey s) = true)) ↔
        ¬ resFits s = true := by
      unfold resFits
      cases fdbGet s (idleBank s) (accessKey s) <;> simp [imp_iff_not_or]
    by_cases h : resFits s = true
    · rw [if_pos h]
      exact if_neg (fun hbad => hfits.mp hbad h)
    · rw [if_neg h]
      exact if_pos (hfits.mpr h)

theorem fdbDelete_free {s : State} (ha : s.plots.armedAt = none) (hc : s.rd Fld.PQ_FDB_STATUS_COPY_BUSY = 0) :
    fdbDelete s = if (fdbGet s (idleBank s) (accessKey s)).isSome then accPut (idleBank s) (accessKey s) none s
      else s.wr Fld.PQ_FDB_STATUS_ACC_OK 0 := by
  rw [fdbDelete, fdbWritable_free ha hc]
  rfl

/-- PQ_FDB_RES holds an entry that was found. -/
def entryShown (e : FdbEntry) (s : State) : State :=
  ((((((s.wr Fld.PQ_FDB_RES_VALID 1).wrB Fld.PQ_FDB_RES_STATIC e.static).wr Fld.PQ_FDB_RES_TYPE e.type).wr Fld.PQ_FDB_RES_NODE e.node).wr
    Fld.PQ_FDB_RES_PORT e.port).wr Fld.PQ_FDB_STATUS_ACC_OK 1)

/-- PQ_FDB_RES reads 0 where no entry was found. -/
def missShown (s : State) : State := (s.setReg Reg.PQ_FDB_RES 0#32).wr Fld.PQ_FDB_STATUS_ACC_OK 0

theorem fdbRead_found {s : State} {e : FdbEntry} (h : fdbGet s (idleBank s) (accessKey s) = some e) : fdbRead s = entryShown e s := by
  rw [fdbRead, h]
  rfl

theorem fdbRead_missed {s : State} (h : fdbGet s (idleBank s) (accessKey s) = none) : fdbRead s = missShown s := by
  rw [fdbRead, h]
  rfl

section
variable (e : FdbEntry) (s : State)

theorem entryShown_fields :
    let t := entryShown e s
    t.rd Fld.PQ_FDB_RES_VALID = 1 ∧ t.rdB Fld.PQ_FDB_RES_STATIC = e.static ∧ t.rd Fld.PQ_FDB_RES_TYPE = e.type % 4 ∧
      t.rd Fld.PQ_FDB_RES_NODE = e.node % 2 ^ 10 ∧ t.rd Fld.PQ_FDB_RES_PORT = e.port % 2 ^ 7 := by
  have hstatic : ((s.wr Fld.PQ_FDB_RES_VALID 1).wrB Fld.PQ_FDB_RES_STATIC e.static).rd Fld.PQ_FDB_RES_STATIC = e.static.toNat := by
    rw [wrB_eq, rd_wr_same _ _ _ (by decide)]
    cases e.static <;> rfl
  intro t
  refine ⟨?_, ?_, ?_, ?_, ?_⟩
  · simp only [t, entryShown, wrB_eq]
    rw [rd_wr_ne _ _ _ _ (by decide), rd_wr_disjoint _ _ _ _ (by decide) (by decide) (by decide), rd_wr_disjoint _ _ _ _ (by decide) (by decide) (by decide),
      rd_wr_disjoint _ _ _ _ (by decide) (by decide) (by decide), rd_wr_disjoint _ _ _ _ (by decide) (by decide) (by decide), rd_wr_one _ _ (by decide)]
  · rw [rdB_eq]
    simp only [t, entryShown]
    rw [rd_wr_ne _ _ _ _ (by decide), rd_wr_disjoint _ _ _ _ (by decide) (by decide) (by decide), rd_wr_disjoint _ _ _ _ (by decide) (by decide) (by decide),
      rd_wr_disjoint _ _ _ _ (by decide) (by decide) (by decide), hstatic]
    cases e.static <;> rfl
  · simp only [t, entryShown]
    rw [rd_wr_ne _ _ _ _ (by decide), rd_wr_disjoint _ _ _ _ (by decide) (by decide) (by decide), rd_wr_disjoint _ _ _ _ (by decide) (by decide) (by decide),
      rd_wr_same _ _ _ (by decide)]
    rfl
  · simp only [t, entryShown]
    rw [rd_wr_ne _ _ _ _ (by decide), rd_wr_disjoint _ _ _ _ (by decide) (by decide) (by decide), rd_wr_same _ _ _ (by decide)]
    rfl
  · simp only [t, entryShown]
    rw [rd_wr_ne _ _ _ _ (by decide), rd_wr_same _ _ _ (by decide)]
    rfl

theorem entryShown_regs : RegsKept [Reg.PQ_FDB_STATUS, Reg.PQ_FDB_RES] s (entryShown e s) :=
  ((((((RegsKept.refl _ s).wr (by decide)).wr (by decide)).wr (by decide)).wr (by decide)).wr (by decide)).wr (by decide)

theorem missShown_regs : RegsKept [Reg.PQ_FDB_STATUS, Reg.PQ_FDB_RES] s (missShown s) :=
  RegsKept.wr (fun a ha => reg_setReg_ne s _ (fun h => ha (by simp [← h]))) (by decide)

end

/-! ### The swap -/

theorem fdbCommand_armAt (s : State) : fdbCommand 1 s = fdbArm s := by
  unfold fdbCommand
  split
  case h_1 => rfl
  all_goals contradiction

/-- F. -/
def armTarget (s : State) : Nat := s.rd Fld.PQ_FDB_AT_LO + 2 ^ 32 * s.rd Fld.PQ_FDB_AT_HI

/-- F lies 2 to 2^47 - 1 frames ahead. -/
def armAhead (s : State) : Bool := decide (2 ≤ fnDiff (armTarget s) s.fn ∧ fnDiff (armTarget s) s.fn < 2 ^ 47)

theorem armTarget_admitted (s : State) : armTarget (admitted s) = armTarget s := by
  rw [armTarget, rd_congr (s := s) (t := admitted s) Fld.PQ_FDB_AT_LO rfl, rd_congr (s := s) (t := admitted s) Fld.PQ_FDB_AT_HI rfl, armTarget]

theorem armAhead_admitted (s : State) : armAhead (admitted s) = armAhead s := by
  rw [armAhead, armTarget_admitted, show (admitted s).fn = s.fn from rfl, armAhead]

/-- The swap is armed for frame `f`. -/
def armed (f : Nat) (s : State) : State := State.wr { s with plots := { s.plots with armedAt := some f } } Fld.PQ_FDB_STATUS_ARMED 1

/-- An arming is refused where F does not lie ahead, or where a swap is armed (R584). -/
theorem fdbArm_eq (s : State) :
    fdbArm s = if armAhead s = false then s.answerSt .badArg else if s.plots.armedAt.isSome then s.answerSt .stateConflict else armed (armTarget s) s := by
  have hahead : (fnLater (armTarget s) s.fn && decide (2 ≤ fnDiff (armTarget s) s.fn)) = armAhead s := by
    rw [fnLater, ← Bool.decide_and]
    exact decide_eq_decide.mpr (by omega)
  rw [← hahead]
  exact if_congr (by rw [Bool.not_eq_true']; rfl) rfl rfl

theorem fdbDisarm_regs (s : State) : RegsKept [Reg.PQ_FDB_STATUS] s (fdbDisarm s) := fun a ha => reg_wr_ne _ _ (fun h => ha (by simp [← h]))

theorem rd_fdbDisarm_armed (s : State) : (fdbDisarm s).rd Fld.PQ_FDB_STATUS_ARMED = 0 := by
  rw [fdbDisarm, rd_wr_same _ _ _ (by decide)]
  rfl

/-- What a swap writes into PQ_FDB_STATUS and the log beside its end: the flag and, where it is made, the bank. -/
def swapEnded (f : FRef) (code datum : Nat) (t : State) : State := (t.wr f 1).logEv 0x21 code datum

theorem swapEnded_spec {f : FRef} (hf : f.ok) (ha : f.addr = Reg.PQ_FDB_STATUS) (hlow : f.hi < 5) {code datum : Nat} {s t : State}
    (ht : t = { s with cycle := s.cycle + 1, regs := t.regs, plots := t.plots }) (hregs : RegsKept [Reg.PQ_FDB_STATUS] s t) :
    let u := swapEnded f code datum t
    u.rd f = 1 ∧ u.rd Fld.PQ_FDB_STATUS_ARMED = t.rd Fld.PQ_FDB_STATUS_ARMED ∧ u.rd Fld.PQ_FDB_STATUS_ACT_BANK = t.rd Fld.PQ_FDB_STATUS_ACT_BANK ∧
      Logged 0x21 code datum s u ∧ u.plots = t.plots ∧ u = { s with cycle := s.cycle + 1, regs := u.regs, log := u.log, plots := u.plots } ∧
      RegsKept [Reg.PQ_FDB_STATUS, Reg.LOG_STATUS] s u := by
  intro u
  have hlog : f.addr ≠ Reg.LOG_STATUS := by rw [ha]; decide
  have hplots : u.plots = t.plots := logEv_plots _ _ _ _
  refine ⟨?_, ?_, ?_, logEv_log_of_eq _ _ _ ?_ ?_ ?_ ?_ ?_, hplots, ?_, ?_⟩
  · rw [show u = (t.wr f 1).logEv 0x21 code datum from rfl, rd_logEv _ _ _ _ _ hlog, rd_wr_one _ _ hf]
  · rw [show u = (t.wr f 1).logEv 0x21 code datum from rfl, rd_logEv _ _ _ _ _ (by decide),
      rd_wr_disjoint _ _ _ _ hf (by decide) (.inr (by simp; omega))]
  · rw [show u = (t.wr f 1).logEv 0x21 code datum from rfl, rd_logEv _ _ _ _ _ (by decide),
      rd_wr_disjoint _ _ _ _ hf (by decide) (.inr (by simp; omega))]
  · show t.log = s.log
    rw [ht]
  · show t.lan = s.lan
    rw [ht]
  · show t.time = s.time
    rw [ht]
  · show t.cycle = s.cycle + 1
    rw [ht]
  · rw [reg_wr_ne _ _ (by rw [ha]; decide)]
    exact hregs _ (by decide)
  · have h : u = { t.wr f 1 with regs := u.regs, log := u.log } := logEv_spec (t.wr f 1) 0x21 code datum
    rw [hplots]
    generalize u = u at h ⊢
    rw [h, ht]
    rfl
  · intro a ha'
    obtain ⟨hstatus, hl⟩ : a ≠ Reg.PQ_FDB_STATUS ∧ a ≠ Reg.LOG_STATUS := by simpa using ha'
    rw [show u = (t.wr f 1).logEv 0x21 code datum from rfl, reg_logEv _ _ _ _ hl, reg_wr_ne _ _ (by rw [ha]; exact Ne.symm hstatus)]
    exact hregs a (by simpa using hstatus)

theorem fnLater_self (n : Nat) : fnLater n n = false := by
  have hzero : fnDiff n n = 0 := by
    unfold fnDiff fnModulus
    omega
  rw [fnLater, hzero]
  rfl

/-- A swap that is due is made, or discarded where forwarding has stopped (R584). -/
theorem exec_fdbSwap_due {s : State} (ha : s.plots.armedAt = some s.fn) (hact : activatesNow s = false) :
    exec .fdbSwap s = .next (if s.ring.forwarding then fdbSwapNow (ticked s) else fdbDiscard 3 (ticked s)) := by
  show execFdbSwap s = _
  rw [execFdbSwap, run_ticked, show (ticked s).plots.armedAt = some s.fn from ha]
  dsimp only
  rw [show (ticked s).fn = s.fn from rfl, fnLater_self, show activatesNow (ticked s) = false from hact, show (ticked s).ring = s.ring from rfl]
  cases s.ring.forwarding <;> simp

/-! ### The obligation -/

/-- Settles O46: each command on the admitted state, by the lemmas about the bank it writes. -/
theorem forwardingTable : Obligations.ForwardingTable := by
  refine ⟨fun s p mac b => ?age, fun s i hr hw ha hc => ?write, fun s i hr hw => ?read, fun s i hr hw ha hc => ?delete,
    fun s i hr hw h => ?refused, fun s i hr hw => ?arm, fun s i hr hw => ?disarm, fun s i hr hw ha hc => ?copy, fun s hc => ?copyDone,
    fun s ha hact => ?swap⟩
  case age =>
    intro k life old
    obtain ⟨hget, hkeep⟩ := fdbAged_both k life (ticked s) b
    exact ⟨_, exec_fdbAge p mac s, hget, hkeep, fdbAged_both_rest k life (ticked s)⟩
  case write =>
    intro k b e clear ok
    refine ⟨_, (exec_fdb (f := fdbWrite) hr hw).trans (congrArg Host.Outcome.next (fdbWrite_free (s := admitted s) ha hc)), ?_⟩
    have hidle : idleBank (admitted s) = b := rfl
    have hkey : accessKey (admitted s) = k := rfl
    have hput (x : Option FdbEntry) := accPut_rest b k x (admitted s)
    rw [hidle, hkey]
    by_cases hclear : (admitted s).rd Fld.PQ_FDB_RES_VALID = 0
    · have hc : clear = true := decide_eq_true hclear
      have hok : ok = true := by simp [ok, hc]
      rw [if_pos hclear, hc, hok]
      exact ⟨fdbGet_accPut .., accOk_accPut .., keep_accPut .., bank_accPut_ne _ _ _ (zero_iff_other b), hput none, accPut_bits b k _ (admitted s), accPut_regs b k _ (admitted s)⟩
    · have hc : clear = false := decide_eq_false hclear
      have hfits : resFits (admitted s) = ok := by rw [show ok = (clear || resFits (admitted s)) from rfl, hc, Bool.false_or]
      rw [if_neg hclear, hfits, hc]
      cases hok : ok with
      | true =>
        rw [if_pos rfl]
        exact ⟨fdbGet_accPut .., accOk_accPut .., keep_accPut .., bank_accPut_ne _ _ _ (zero_iff_other b), hput _, accPut_bits b k _ (admitted s), accPut_regs b k _ (admitted s)⟩
      | false =>
        rw [if_neg Bool.false_ne_true]
        exact ⟨rfl, accOk_cleared _, rfl, rfl, rfl, bitsKept_wr (admitted s) _ (by decide) 0, (RegsKept.refl _ (admitted s)).wr (by decide)⟩
  case read =>
    intro e
    refine ⟨_, exec_fdb (f := fdbRead) hr hw, ?_⟩
    cases he : e with
    | none =>
      rw [fdbRead_missed (s := admitted s) he]
      refine ⟨accOk_cleared _, fun _ => ?_, by simp, rfl, missShown_regs (admitted s)⟩
      exact (reg_wr_ne _ _ (by decide)).trans (reg_setReg_same _ _ _)
    | some x =>
      rw [fdbRead_found (s := admitted s) he]
      refine ⟨?_, by simp, fun y hy => ?_, rfl, entryShown_regs x (admitted s)⟩
      · rw [entryShown, rdB_eq, rd_wr_one _ _ (by decide)]
        rfl
      · obtain rfl : y = x := by simpa [eq_comm] using hy
        exact entryShown_fields y (admitted s)
  case delete =>
    intro k b
    refine ⟨_, (exec_fdb (f := fdbDelete) hr hw).trans (congrArg Host.Outcome.next (fdbDelete_free (s := admitted s) ha hc)), ?_⟩
    have hidle : idleBank (admitted s) = b := rfl
    have hkey : accessKey (admitted s) = k := rfl
    have hget : fdbGet (admitted s) b k = fdbGet s b k := rfl
    rw [hidle, hkey, hget]
    cases he : fdbGet s b k with
    | none =>
      exact ⟨he, accOk_cleared _, rfl, rfl, rfl, (RegsKept.refl _ (admitted s)).wr (by decide)⟩
    | some x =>
      exact ⟨fdbGet_accPut .., accOk_accPut .., keep_accPut .., bank_accPut_ne _ _ _ (zero_iff_other b), accPut_rest .., accPut_regs b k _ (admitted s)⟩
  case refused =>
    exact ⟨⟨_, exec_fdb (f := fdbWrite) hr hw, fdbWritable_refused_spec h⟩, ⟨_, exec_fdb (f := fdbDelete) hr hw, fdbWritable_refused_spec h⟩,
      ⟨_, exec_fdb (f := fdbCopy) hr hw, fdbWritable_refused_spec h⟩⟩
  case arm =>
    intro f ahead ok
    have harm := (fdbCommand_armAt (admitted s)).trans (fdbArm_eq (admitted s))
    have hok : ok = (s.plots.armedAt.isNone && ahead) := rfl
    rw [armAhead_admitted, armTarget_admitted, show armAhead s = ahead from rfl, show armTarget s = f from rfl,
      show (admitted s).plots.armedAt = s.plots.armedAt from rfl] at harm
    refine ⟨_, (exec_fdb (f := fdbCommand 1) hr hw).trans (congrArg Host.Outcome.next harm), ?_⟩
    clear_value ok ahead f
    subst hok
    cases ahead with
    | false =>
      rw [if_pos rfl, Bool.and_false]
      exact ⟨rfl, rfl, rfl, rfl, fun _ _ => rfl⟩
    | true =>
      rw [if_neg (fun h => Bool.false_ne_true h.symm), Bool.and_true]
      cases s.plots.armedAt with
      | none => exact ⟨rfl, rd_wr_one _ _ (by decide), rfl, rfl, fun a ha => reg_wr_ne _ _ (fun h => ha (by simp [← h]))⟩
      | some n => exact ⟨rfl, rfl, rfl, rfl, fun _ _ => rfl⟩
  case disarm =>
    exact ⟨_, exec_fdb (f := fdbDisarm) hr hw, rfl, rd_fdbDisarm_armed _, rfl, fdbDisarm_regs (admitted s)⟩
  case copy =>
    refine ⟨_, (exec_fdb (f := fdbCopy) hr hw).trans (congrArg Host.Outcome.next (fdbWritable_free (s := admitted s) ha hc)), rd_wr_one _ _ (by decide), rfl,
      bitsKept_wr (admitted s) Fld.PQ_FDB_STATUS_COPY_BUSY (by decide) 1, (RegsKept.refl _ (admitted s)).wr (by decide)⟩
  case copyDone =>
    have hexec : exec .fdbCopyDone s = .next ((State.setBank (ticked s) (idleBank s) (s.bank (actBank s))).wr Fld.PQ_FDB_STATUS_COPY_BUSY 0) :=
      congrArg Host.Outcome.next (if_pos (decide_eq_true (ne_of_eq_of_ne hc Nat.one_ne_zero)))
    have hrest := setBank_rest (ticked s) (idleBank s) (s.bank (actBank s))
    have hsame := bank_setBank_same (ticked s) (idleBank s) (s.bank (actBank s))
    have hother : (State.setBank (ticked s) (idleBank s) (s.bank (actBank s))).bank (actBank s) = s.bank (actBank s) :=
      bank_setBank_ne (ticked s) _ (idle_iff (rd_lt s _ (by decide)))
    refine ⟨_, hexec, ?_⟩
    generalize State.setBank (ticked s) (idleBank s) (s.bank (actBank s)) = t at hrest hsame hother
    refine ⟨hsame, hother, ?_, ?_, ?_⟩
    · rw [rd_wr_same _ _ _ (by decide)]
      rfl
    · rw [hrest]
      rfl
    · refine RegsKept.wr (fun a _ => ?_) (by decide)
      rw [hrest]
      rfl
  case swap =>
    have hexec : exec .fdbSwap s = .next (if s.ring.forwarding then fdbSwapNow (ticked s) else fdbDiscard 3 (ticked s)) := exec_fdbSwap_due ha hact
    refine ⟨_, hexec, ?_⟩
    have hd : fdbDisarm (ticked s) = { s with cycle := s.cycle + 1, regs := (fdbDisarm (ticked s)).regs, plots := (fdbDisarm (ticked s)).plots } := rfl
    have hbank : (fdbDisarm (ticked s)).rd Fld.PQ_FDB_STATUS_ACT_BANK = s.rd Fld.PQ_FDB_STATUS_ACT_BANK :=
      rd_wr_disjoint _ _ _ _ (by decide) (by decide) (by decide)
    cases s.ring.forwarding with
    | true =>
      obtain ⟨hflag, harmed, hact, hlog, hplots, hrest, hregs⟩ := swapEnded_spec (f := Fld.PQ_FDB_STATUS_SWAP_DONE) (by decide) rfl (by decide)
        (code := 0x0004) (datum := idleBank s) (s := s) (t := (fdbDisarm (ticked s)).wr Fld.PQ_FDB_STATUS_ACT_BANK (idleBank s)) rfl
        ((fdbDisarm_regs (ticked s)).wr (by decide))
      have hflip : ((fdbDisarm (ticked s)).wr Fld.PQ_FDB_STATUS_ACT_BANK (idleBank s)).rd Fld.PQ_FDB_STATUS_ACT_BANK =
          1 - s.rd Fld.PQ_FDB_STATUS_ACT_BANK := by
        rw [rd_wr_same _ _ _ (by decide)]
        exact Nat.mod_eq_of_lt (Nat.lt_of_le_of_lt (Nat.sub_le 1 _) (by decide))
      refine ⟨⟨hact.trans hflip, hflag, hlog⟩, harmed.trans ?_, hplots, hrest, hregs⟩
      rw [rd_wr_disjoint _ _ _ _ (by decide) (by decide) (by decide), rd_fdbDisarm_armed]
    | false =>
      obtain ⟨hflag, harmed, hact, hlog, hplots, hrest, hregs⟩ := swapEnded_spec (f := Fld.PQ_FDB_STATUS_SWAP_DISC) (by decide) rfl (by decide)
        (code := 0x0005) (datum := 3) hd (fdbDisarm_regs (ticked s))
      exact ⟨⟨hact.trans hbank, hflag, hlog⟩, harmed.trans (rd_fdbDisarm_armed _), hplots, hrest, hregs⟩

end Sys2Proof.Machine
end
-- ==== Sys2Proof/Proofs/ControlCells.lean ====
section
/-!
PROOFS. Proofs/ControlCells.lean: a control cell as a ring port group receives it, and an insertion slot (R545, R580, R587 to R591).
-/
namespace Sys2Proof.Machine

/-! ### The counters of a port -/

theorem wide_setWide_same (s : State) (a v : Nat) : (s.setWide a v).wide a = v := Tab.get_set_same 0 s.perf.wide a v

theorem wide_setWide_ne (s : State) {a b : Nat} (v : Nat) (h : a ≠ b) : (s.setWide a v).wide b = s.wide b := Tab.get_set_ne 0 0 s.perf.wide v h

theorem wide_bump_same (s : State) (a n : Nat) : (s.bump a n).wide a = (s.wide a + n) % 2 ^ 64 := wide_setWide_same s a _

theorem wide_bump_ne (s : State) {a b : Nat} (n : Nat) (h : a ≠ b) : (s.bump a n).wide b = s.wide b := wide_setWide_ne s _ h

theorem wide_countRx (p len : Nat) (s : State) : (countRx p len s).wide (Reg.PCN_RX_FRAMES_LO p) = (s.wide (Reg.PCN_RX_FRAMES_LO p) + 1) % 2 ^ 64 := by
  rw [countRx, wide_bump_same, wide_bump_ne _ _ (by simp [Reg.PCN_RX_BYTES_LO, Reg.PCN_RX_FRAMES_LO])]

theorem wide_countTx (p len : Nat) (s : State) : (countTx p len s).wide (Reg.PCN_TX_FRAMES_LO p) = (s.wide (Reg.PCN_TX_FRAMES_LO p) + 1) % 2 ^ 64 := by
  rw [countTx, wide_bump_same, wide_bump_ne _ _ (by simp [Reg.PCN_TX_BYTES_LO, Reg.PCN_TX_FRAMES_LO])]

/-- A selectable counter lies beside the counters of the ports. -/
theorem wide_countSel_port {c n a : Nat} (s : State) (ha : a < 0x705000 ) : (countSel c n s).wide a = s.wide a := by
  have h : (s.bump (Reg.PC_CNT_LO c) n).wide a = s.wide a := wide_bump_ne s n (by simp only [Reg.PC_CNT_LO]; omega)
  unfold countSel
  extract_lets b old t
  split <;> exact h

theorem wide_countEv_port {e u n a : Nat} (s : State) (ha : a < 0x705000) : (countEv e u n s).wide a = s.wide a := by
  have key : ∀ (l : List Nat) (t : State),
      (l.foldl (fun t i => if t.rd (Fld.PC_SEL_EVENT i) = e ∧ t.rd (Fld.PC_SEL_QUAL i) = u then countSel i n t else t) t).wide a = t.wide a := by
    intro l
    induction l with
    | nil => intro t; rfl
    | cons c l ih =>
      intro t
      rw [List.foldl_cons, ih]
      split
      · exact wide_countSel_port t ha
      · rfl
  unfold countEv
  split
  · rfl
  · exact key _ s

/-! ### Reception -/

/-- Group `g` carries class-7 frames. -/
def cellsRun (s : State) (g : Nat) : Bool :=
  s.ring.forwarding && (decide (groupState s g = 3) || decide (5 ≤ groupState s g ∧ groupState s g ≤ 7))

/-- A received class-7 frame is counted. -/
def cellCounted (g : Nat) (s : State) : State := countRx (groupPort g) 128 (s.setCq g { s.cq g with rx := (s.cq g).rx + 1 })

theorem cellsRun_eq (s : State) (g : Nat) :
    (s.ring.forwarding && (groupState s g == 3 || groupState s g == 5 || groupState s g == 6 || groupState s g == 7)) = cellsRun s g := by
  have h : (groupState s g == 3 || groupState s g == 5 || groupState s g == 6 || groupState s g == 7) =
      (decide (groupState s g = 3) || decide (5 ≤ groupState s g ∧ groupState s g ≤ 7)) := by
    rw [Bool.eq_iff_iff]
    simp
    omega
  rw [h]
  rfl

theorem controlCell_eq (g : Nat) (c : Cell) (valid : Bool) (at' : CellTime) (s : State) :
    controlCell g c valid at' s = if cellsRun s g = false then s
      else if 320 ≤ (s.cq g).rx then (cellCounted g s).inc (Fld.PQ_CTL_CNT0_RX_OVER g)
      else cellChecked g c valid at' (cellCounted g s) := by
  show (if (!s.ring.forwarding || !(groupState s g == 3 || groupState s g == 5 || groupState s g == 6 || groupState s g == 7)) = true then _ else _) = _
  exact if_congr (by rw [← Bool.not_and, cellsRun_eq, Bool.not_eq_true']) rfl rfl

/-- The checks of a cell whose TYPE the table has (R587, R588). -/
theorem cellChecked_known {g : Nat} {c : Cell} {valid : Bool} {at' : CellTime} {s : State} (hk : knownType c.body = true) :
    cellChecked g c valid at' s = if valid = false then badCell g false s else if c.origin = nodeNo s then s
      else if replayed s c = true then badCell g true s else cellReach g c at' (countEv 0x017 g 1 (cellSeen c s)) := by
  unfold cellChecked
  split
  · next hb =>
    rw [hb] at hk
    cases hk
  · exact if_congr (by simp [hk]) rfl rfl

theorem rd_inc_same (s : State) {f : FRef} (h : f.ok) : (s.inc f).rd f = min (s.rd f + 1) (2 ^ f.width - 1) := by
  rw [inc_eq, rd_wr_same s f _ h, natMin_eq]
  exact Nat.mod_eq_of_lt (Nat.lt_of_le_of_lt (Nat.min_le_right _ _) (Nat.sub_lt (Nat.two_pow_pos _) Nat.one_pos))

/-- The count of a group that a failing cell adds to. -/
def badField (g : Nat) (replay : Bool) : FRef := if replay then Fld.PQ_CTL_CNT1_REPLAY g else Fld.PQ_CTL_CNT0_BAD g

/-- The second of group `g` in which a failing cell has been logged begins. -/
def badMarked (g : Nat) (s : State) : State := { s with ctl := { s.ctl with badAt := Tab.set none s.ctl.badAt g (some s.fn) } }

/-- A failing cell adds to its count, and once a second to the log (R588). -/
theorem badCell_can (g : Nat) (replay : Bool) (s : State) :
    badCell g replay s = s.inc (badField g replay) ∨
      badCell g replay s = (badMarked g (s.inc (badField g replay))).logEv 0x21 0x0009 (g + bitIf replay 8) := by
  have h : (if replay then s.inc (Fld.PQ_CTL_CNT1_REPLAY g) else s.inc (Fld.PQ_CTL_CNT0_BAD g)) = s.inc (badField g replay) := by
    cases replay <;> rfl
  unfold badCell
  rw [h]
  extract_lets t due
  clear_value due
  cases due with
  | false => exact .inl rfl
  | true => exact .inr rfl

theorem badCell_reg (g : Nat) (replay : Bool) (s : State) {a : Nat} (ha : a ≠ Reg.LOG_STATUS) :
    (badCell g replay s).reg a = (s.inc (badField g replay)).reg a := by
  rcases badCell_can g replay s with h | h
  · rw [h]
  · rw [h, reg_logEv _ _ _ _ ha]
    rfl

theorem badCell_rest (g : Nat) (replay : Bool) (s : State) :
    badCell g replay s = { s with
      regs := (badCell g replay s).regs, log := (badCell g replay s).log,
      ctl := { s.ctl with badAt := (badCell g replay s).ctl.badAt } } := by
  rcases badCell_can g replay s with h | h
  · rw [h]
    rfl
  · have hspec := logEv_spec (badMarked g (s.inc (badField g replay))) 0x21 0x0009 (g + bitIf replay 8)
    rw [← h] at hspec
    generalize badCell g replay s = t at hspec ⊢
    rw [hspec]
    rfl

/-- A cell that is not accepted, as R588 and R591 count it. -/
structure CellCounts (g : Nat) (excess bad again : Bool) (s t : State) : Prop where
  excess : t.rd (Fld.PQ_CTL_CNT0_RX_OVER g) = min (s.rd (Fld.PQ_CTL_CNT0_RX_OVER g) + excess.toNat) 0xFFFF
  bad : t.rd (Fld.PQ_CTL_CNT0_BAD g) = min (s.rd (Fld.PQ_CTL_CNT0_BAD g) + bad.toNat) 0xFFFF
  again : t.rd (Fld.PQ_CTL_CNT1_REPLAY g) = min (s.rd (Fld.PQ_CTL_CNT1_REPLAY g) + again.toNat) 0xFFFF
  rest : t = { s with regs := t.regs, log := t.log, ctl := { s.ctl with badAt := t.ctl.badAt } }
  regs : RegsKept [Reg.PQ_CTL_CNT0 g, Reg.PQ_CTL_CNT1 g, Reg.LOG_STATUS] s t

section
variable (g : Nat) (s : State)

theorem min_rd_of_width16 {f : FRef} (hf : f.ok) (hw : f.width = 16) : s.rd f = min (s.rd f + false.toNat) 0xFFFF := by
  have h := rd_lt s f hf
  rw [hw] at h
  simp
  omega

theorem ctlCnt0_ne_log : Reg.PQ_CTL_CNT0 g ≠ Reg.LOG_STATUS := by
  show 0x520010 + 8 * g ≠ 0x30500
  omega

theorem ctlCnt1_ne_log : Reg.PQ_CTL_CNT1 g ≠ Reg.LOG_STATUS := by
  show 0x520014 + 8 * g ≠ 0x30500
  omega

theorem cellCounts_none : CellCounts g false false false s s :=
  ⟨min_rd_of_width16 s (by simp [FRef.ok]) rfl, min_rd_of_width16 s (by simp [FRef.ok]) rfl, min_rd_of_width16 s (by simp [FRef.ok]) rfl, rfl,
    fun _ _ => rfl⟩

theorem cellCounts_excess : CellCounts g true false false s (s.inc (Fld.PQ_CTL_CNT0_RX_OVER g)) where
  excess := rd_inc_same s (by simp [FRef.ok])
  bad := (rd_wr_disjoint _ _ _ _ (by simp [FRef.ok]) (by simp [FRef.ok]) (.inl (by simp))).trans (min_rd_of_width16 s (by simp [FRef.ok]) rfl)
  again := (rd_wr_ne _ _ _ _ (by simp)).trans (min_rd_of_width16 s (by simp [FRef.ok]) rfl)
  rest := rfl
  regs := RegsKept.wr (.refl _ s) (by simp)

theorem cellCounts_bad : CellCounts g false true false s (badCell g false s) where
  excess := (rd_congr _ (badCell_reg g false s (ctlCnt0_ne_log g))).trans
    ((rd_wr_disjoint _ _ _ _ (by simp [badField, FRef.ok]) (by simp [FRef.ok]) (.inr (by simp [badField]))).trans (min_rd_of_width16 s (by simp [FRef.ok]) rfl))
  bad := (rd_congr _ (badCell_reg g false s (ctlCnt0_ne_log g))).trans (rd_inc_same s (f := Fld.PQ_CTL_CNT0_BAD g) (by simp [FRef.ok]))
  again := (rd_congr _ (badCell_reg g false s (ctlCnt1_ne_log g))).trans
    ((rd_wr_ne _ _ _ _ (by simp [badField])).trans (min_rd_of_width16 s (by simp [FRef.ok]) rfl))
  rest := badCell_rest g false s
  regs := fun a ha => (badCell_reg g false s (by simp at ha; exact ha.2.2)).trans (RegsKept.wr (.refl _ s) (by simp [badField]) a ha)

theorem cellCounts_again : CellCounts g false false true s (badCell g true s) where
  excess := (rd_congr _ (badCell_reg g true s (ctlCnt0_ne_log g))).trans
    ((rd_wr_ne _ _ _ _ (by simp [badField])).trans (min_rd_of_width16 s (by simp [FRef.ok]) rfl))
  bad := (rd_congr _ (badCell_reg g true s (ctlCnt0_ne_log g))).trans
    ((rd_wr_ne _ _ _ _ (by simp [badField])).trans (min_rd_of_width16 s (by simp [FRef.ok]) rfl))
  again := (rd_congr _ (badCell_reg g true s (ctlCnt1_ne_log g))).trans (rd_inc_same s (f := Fld.PQ_CTL_CNT1_REPLAY g) (by simp [FRef.ok]))
  rest := badCell_rest g true s
  regs := fun a ha => (badCell_reg g true s (by simp at ha; exact ha.2.2)).trans (RegsKept.wr (.refl _ s) (by simp [badField]) a ha)

end

/-! ### An accepted cell -/

/-- The state in which an accepted cell acts. -/
def cellAccepted (g : Nat) (c : Cell) (s : State) : State := countEv 0x017 g 1 (cellSeen c (cellCounted g s))

theorem cellSeen_contains (c : Cell) (s : State) : (cellSeen c s).ctl.seen.contains (c.origin, c.fn, c.hseq) = true := by
  rw [List.contains_iff_mem]
  exact List.mem_cons_self

theorem countRx_rest (p len : Nat) (s : State) : countRx p len s = { s with perf := (countRx p len s).perf } := rfl

theorem countTx_rest (p len : Nat) (s : State) : countTx p len s = { s with perf := (countTx p len s).perf } := rfl

theorem cellSeen_rest (c : Cell) (s : State) : cellSeen c s = { s with ctl := (cellSeen c s).ctl } := rfl

theorem cellCounted_rest (g : Nat) (s : State) :
    cellCounted g s = { s with ctl := { s.ctl with groups := (cellCounted g s).ctl.groups }, perf := (cellCounted g s).perf } := by
  have h := countRx_rest (groupPort g) 128 (s.setCq g { s.cq g with rx := (s.cq g).rx + 1 })
  unfold cellCounted
  generalize countRx (groupPort g) 128 (s.setCq g { s.cq g with rx := (s.cq g).rx + 1 }) = t at h ⊢
  rw [h]
  rfl

/-- An accepted cell is counted and remembered; no register changes. -/
theorem cellAccepted_rest (g : Nat) (c : Cell) (s : State) :
    cellAccepted g c s = { s with ctl := (cellAccepted g c s).ctl, perf := (cellAccepted g c s).perf } := by
  have h1 := cellCounted_rest g s
  have h2 := cellSeen_rest c (cellCounted g s)
  have h3 := countEv_spec 0x017 g 1 (cellSeen c (cellCounted g s))
  unfold cellAccepted
  generalize countEv 0x017 g 1 (cellSeen c (cellCounted g s)) = t at h3 ⊢
  generalize cellSeen c (cellCounted g s) = u at h2 h3
  generalize cellCounted g s = v at h1 h2
  rw [h3, h2, h1]

theorem cellAccepted_ctl (g : Nat) (c : Cell) (s : State) : (cellAccepted g c s).ctl = (cellSeen c (cellCounted g s)).ctl := by
  unfold cellAccepted
  rw [countEv_spec]

theorem cellAccepted_sent (g : Nat) (c : Cell) (s : State) : (cellAccepted g c s).ctl.sent = s.ctl.sent := by
  rw [cellAccepted_ctl]
  rfl

theorem cellAccepted_contains (g : Nat) (c : Cell) (s : State) : (cellAccepted g c s).ctl.seen.contains (c.origin, c.fn, c.hseq) = true := by
  rw [cellAccepted_ctl]
  exact cellSeen_contains c _

/-- What a group that is UP does with an accepted cell. -/
theorem controlCell_accepted {g : Nat} {c : Cell} {at' : CellTime} {s : State} (hk : knownType c.body = true) (hf : s.ring.forwarding = true)
    (hup : groupState s g = 3) (hrx : (s.cq g).rx < 320) (ho : c.origin ≠ nodeNo s) (hr : replayed s c = false) :
    controlCell g c true at' s = cellReach g c at' (cellAccepted g c s) := by
  rw [controlCell_eq, if_neg (by simp [cellsRun, hf, hup]), if_neg (by omega), cellChecked_known hk, if_neg (by decide),
    if_neg (show c.origin ≠ nodeNo (cellCounted g s) from ho), if_neg (by rw [show replayed (cellCounted g s) c = false from hr]; decide)]
  rfl

/-- A cell goes on unless it has come too far, has gone on before, or finds no group (R549, R589). -/
def cellGoes (g : Nat) (c : Cell) (s : State) : Bool :=
  decide (c.hops + 1 < ringSize s) && !s.ctl.sent.any (fun e => e.1 == c.origin && e.2.1 == c.hseq && decide (fnDiff s.fn e.2.2 ≤ 64)) &&
    (decide (groupState s (onward g) = 3) || decide (groupState s (onward g) = 5))

theorem cellForward_spec (g : Nat) (c : Cell) (s : State) :
    let t := cellForward g c s
    t.out = s.out ++ (if cellGoes g c s then [Out.cell (onward g) { c with hops := c.hops + 1 }] else []) ∧ t.ctl.seen = s.ctl.seen ∧
      t = { s with ctl := t.ctl, perf := t.perf, out := t.out } := by
  have hgoes : (ringSize s ≤ c.hops + 1 ∨ s.ctl.sent.any (fun e => e.1 == c.origin && e.2.1 == c.hseq && decide (fnDiff s.fn e.2.2 ≤ 64)) = true ∨
      ¬(groupState s (onward g) = 3 ∨ groupState s (onward g) = 5)) ↔ cellGoes g c s = false := by
    unfold cellGoes
    generalize s.ctl.sent.any _ = again
    generalize groupState s (onward g) = st
    cases again <;> simp
    omega
  intro t
  cases hg : cellGoes g c s with
  | false =>
    have ht : t = s := if_pos (hgoes.mpr hg)
    rw [ht]
    exact ⟨(List.append_nil _).symm, rfl, rfl⟩
  | true =>
    have ht : t = _ := if_neg (fun h => Bool.false_ne_true ((hgoes.mp h).symm.trans hg))
    rw [ht]
    exact ⟨rfl, rfl, rfl⟩

theorem cellGoes_congr {g : Nat} {c : Cell} {s t : State} (hregs : t.regs = s.regs) (hsent : t.ctl.sent = s.ctl.sent) (htime : t.time = s.time) :
    cellGoes g c t = cellGoes g c s := by
  have hrd (f : FRef) : t.rd f = s.rd f := rd_congr f (reg_congr hregs _)
  unfold cellGoes
  rw [hsent, State.fn, htime, ringSize, hrd, groupState, hrd]
  rfl

/-- A flooded RING_BREAK waits for the frame tick, and is remembered (R545, R548). -/
def breakWaits (c : Cell) (seq : Nat) (s : State) : State :=
  { s with ring := { s.ring with
      arrived := s.ring.arrived ++ [c.body],
      floods := (c.origin, seq, s.fn) :: s.ring.floods.filter (fun e => decide (fnDiff s.fn e.2.2 ≤ 64)) } }

section
variable {g : Nat} {c : Cell} {at' : CellTime} {ring span seq : Nat} {planned drowse : Bool} {s : State}
  (hb : c.body = .ringBreak ring span planned drowse seq)
include hb

theorem furtherCopy_ringBreak :
    furtherCopy s c = s.ring.floods.any (fun e => decide (e.1 = c.origin ∧ e.2.1 = seq ∧ fnDiff s.fn e.2.2 ≤ 64)) := by
  unfold furtherCopy
  rw [hb]
  simp only [floodSeq, Bool.decide_and, Bool.and_assoc, beq_eq_decide]

theorem cellConsume_ringBreak : cellConsume g c at' (floodSeen c s) = breakWaits c seq s := by
  unfold cellConsume floodSeen breakWaits
  rw [hb]
  rfl

/-- What a flooded RING_BREAK does: a further copy is dropped (R545, R589). -/
theorem cellReach_ringBreak (hr : c.reach = 2) :
    cellReach g c at' s = if furtherCopy s c then s else cellForward g c (breakWaits c seq s) := by
  unfold cellReach
  rw [cellConsume_ringBreak hb, if_neg (by omega), if_neg (by omega)]

end

/-! ### An insertion slot -/

/-- Group `g` with a slot taken, its event and its frame counted. -/
def slotTaken (g : Nat) (q : CellQ) (s : State) : State := countTx (groupPort g) 128 (countEv 0x018 g 1 (s.setCq g { q with slots := q.slots + 1 }))

/-- Cell `c` leaves in a slot of group `g`, with the frame number of now (R586, R590). -/
def cellSent (g : Nat) (c : Cell) (q : CellQ) (s : State) : State :=
  (slotTaken g q s).send (.cell g (sealCell (slotTaken g q s) { c with fn := (slotTaken g q s).fn }))

/-- An insertion slot is free on group `g`. -/
def insertOpen (s : State) (g : Nat) : Bool := cellsRun s g && decide ((s.cq g).slots < 4)

theorem slotTaken_rest (g : Nat) (q : CellQ) (s : State) :
    slotTaken g q s = { s with ctl := { s.ctl with groups := (slotTaken g q s).ctl.groups }, perf := (slotTaken g q s).perf } := by
  have h1 := countEv_spec 0x018 g 1 (s.setCq g { q with slots := q.slots + 1 })
  have h2 := countTx_rest (groupPort g) 128 (countEv 0x018 g 1 (s.setCq g { q with slots := q.slots + 1 }))
  unfold slotTaken
  generalize countTx _ 128 _ = t at h2 ⊢
  generalize countEv 0x018 g 1 _ = u at h1 h2
  rw [h2, h1]
  rfl

theorem slotTaken_groups (g : Nat) (q : CellQ) (s : State) :
    (slotTaken g q s).ctl.groups = Tab.set restCq s.ctl.groups g { q with slots := q.slots + 1 } := by
  have h1 := countEv_spec 0x018 g 1 (s.setCq g { q with slots := q.slots + 1 })
  have h2 := countTx_rest (groupPort g) 128 (countEv 0x018 g 1 (s.setCq g { q with slots := q.slots + 1 }))
  unfold slotTaken
  generalize countTx _ 128 _ = t at h2 ⊢
  generalize countEv 0x018 g 1 _ = u at h1 h2
  rw [h2, h1]
  rfl

theorem sealCell_slotTaken (g : Nat) (q : CellQ) (s : State) (c : Cell) :
    sealCell (slotTaken g q s) { c with fn := (slotTaken g q s).fn } = sealCell s { c with fn := s.fn } := by
  have h := slotTaken_rest g q s
  generalize slotTaken g q s = t at h ⊢
  rw [h]
  rfl

theorem wide_slotTaken (g : Nat) (hg : g < 4) (q : CellQ) (s : State) :
    (slotTaken g q s).wide (Reg.PCN_TX_FRAMES_LO (groupPort g)) = (s.wide (Reg.PCN_TX_FRAMES_LO (groupPort g)) + 1) % 2 ^ 64 := by
  unfold slotTaken
  rw [wide_countTx, wide_countEv_port _ (by simp only [Reg.PCN_TX_FRAMES_LO, groupPort]; omega)]
  rfl

theorem exec_cellInsert (g : Fin 4) (s : State) :
    exec (.cellInsert g) s = .next (if insertOpen s g = true then (nextCell (s.cq g)).elim (ticked s)
      (fun x => if groupState s g = 6 ∧ x.1.reach ≠ 0 then ticked s else cellSent g x.1 x.2 (ticked s)) else ticked s) := by
  show execCellInsert g s = _
  rw [execCellInsert, run_ticked]
  refine congrArg Host.Outcome.next ?_
  show (if ((ticked s).ring.forwarding && (groupState (ticked s) g == 3 || groupState (ticked s) g == 5 || groupState (ticked s) g == 6 ||
      groupState (ticked s) g == 7) && decide (((ticked s).cq g).slots < 4)) = true then _ else _) = _
  rw [cellsRun_eq]
  refine if_congr Iff.rfl ?_ rfl
  rw [show (ticked s).cq g = s.cq g from rfl]
  cases nextCell (s.cq g) <;> rfl

theorem toNat_eq_ite (b : Bool) : b.toNat = if b = true then 1 else 0 := by cases b <;> rfl

theorem cellCounted_groups (g : Nat) (s : State) :
    (cellCounted g s).ctl.groups = Tab.set restCq s.ctl.groups g { s.cq g with rx := (s.cq g).rx + 1 } := rfl

theorem cellCounted_reg (g : Nat) (s : State) (a : Nat) : (cellCounted g s).reg a = s.reg a := rfl

theorem rd_cellCounted (g : Nat) (s : State) (f : FRef) : (cellCounted g s).rd f = s.rd f := rfl

theorem wide_cellCounted (g : Nat) (s : State) :
    (cellCounted g s).wide (Reg.PCN_RX_FRAMES_LO (16 * g)) = (s.wide (Reg.PCN_RX_FRAMES_LO (16 * g)) + 1) % 2 ^ 64 := wide_countRx _ _ _

theorem cellAccepted_reg (g : Nat) (c : Cell) (s : State) (a : Nat) : (cellAccepted g c s).reg a = s.reg a := by
  rw [cellAccepted_rest]
  rfl

/-- What the insertion of cell `c` of the queue `q` into a slot of group `g` does (R590). -/
theorem cellSent_spec (g : Fin 4) (c : Cell) (q : CellQ) (s : State) :
    (groupState s g = 3 ∨ c.reach = 0 → (cellSent g c q (ticked s)).cq g = { q with slots := q.slots + 1 } ∧
      (cellSent g c q (ticked s)).out = s.out ++ [Out.cell g (sealCell s { c with fn := s.fn })] ∧
      (cellSent g c q (ticked s)).wide (Reg.PCN_TX_FRAMES_LO (16 * g)) = (s.wide (Reg.PCN_TX_FRAMES_LO (16 * g)) + 1) % 2 ^ 64) ∧
    (∀ h, h < 4 → h ≠ g.val → (cellSent g c q (ticked s)).cq h = s.cq h) ∧ (cellSent g c q (ticked s)).regs = s.regs ∧
    cellSent g c q (ticked s) = { s with cycle := s.cycle + 1, ctl := { s.ctl with groups := (cellSent g c q (ticked s)).ctl.groups },
                                         perf := (cellSent g c q (ticked s)).perf, out := (cellSent g c q (ticked s)).out } := by
  have hrest := slotTaken_rest g q (ticked s)
  have hgroups := slotTaken_groups g q (ticked s)
  have hseal := sealCell_slotTaken g q (ticked s) c
  have hwide := wide_slotTaken g g.isLt q (ticked s)
  rw [show groupPort g.val = 16 * g.val from rfl] at hwide
  have hcell : sealCell (ticked s) { c with fn := (ticked s).fn } = sealCell s { c with fn := s.fn } := rfl
  rw [cellSent, hseal, hcell]
  generalize sealCell s { c with fn := s.fn } = cell
  generalize slotTaken g q (ticked s) = t at hrest hgroups hwide ⊢
  refine ⟨fun _ => ⟨?_, ?_, hwide⟩, fun h _ hne => ?_, ?_, ?_⟩
  · show Tab.get restCq t.ctl.groups g = _
    rw [hgroups, Tab.get_set_same]
  · show t.out ++ _ = _
    rw [hrest]
    rfl
  · show Tab.get restCq t.ctl.groups h = _
    rw [hgroups, Tab.get_set_ne restCq restCq _ _ (Ne.symm hne)]
    rfl
  · show t.regs = _
    rw [hrest]
    rfl
  · show { t with out := t.out ++ _ } = _
    rw [hrest]
    rfl

/-! ### The obligation -/

/-- Settles O48: reception by the checks of a cell, insertion by the cell that a group inserts next. -/
theorem controlCells : Obligations.ControlCells := by
  refine ⟨fun s g c valid at' hk => ?checks, fun s g c at' hk hf hup hrx ho hr h1 hdest => ?unicast,
    fun s g cell ring span seq planned drowse at' hf hup hrx ho => ?flood, fun s g => ?insertion⟩
  case checks =>
    intro on n bad again hnot
    have hon : cellsRun (ticked s) g = on := rfl
    have hexec : exec (.controlCell g c valid at') s = .next (controlCell g c valid at' (ticked s)) := rfl
    rw [controlCell_eq, hon] at hexec
    cases honv : on with
    | false =>
      rw [honv, if_pos rfl] at hexec
      exact ⟨_, hexec, fun _ => rfl, by simp, rfl, fun _ _ => rfl⟩
    | true =>
      rw [honv, if_neg (fun h => Bool.false_ne_true h.symm)] at hexec
      suffices h : ∃ t, exec (.controlCell g c valid at') s = .next t ∧ CellCounts g (decide (320 ≤ n)) bad again (cellCounted g (ticked s)) t by
        obtain ⟨t, ht, hcounts⟩ := h
        have hctl : t.ctl.groups = (cellCounted g (ticked s)).ctl.groups := by rw [hcounts.rest]
        have hperf : t.perf = (cellCounted g (ticked s)).perf := by rw [hcounts.rest]
        refine ⟨t, ht, by simp, fun _ => ⟨?_, ?_, ?_, ?_, ?_⟩, ?_, fun a ha => (hcounts.regs a ha).trans (cellCounted_reg g (ticked s) a)⟩
        · rw [State.cq, hctl, cellCounted_groups, Tab.get_set_same]
          rfl
        · rw [State.wide, hperf]
          exact wide_cellCounted g (ticked s)
        · rw [hcounts.excess, rd_cellCounted, toNat_eq_ite]
          simp only [decide_eq_true_eq]
          rfl
        · rw [hcounts.bad, rd_cellCounted, toNat_eq_ite]
          rfl
        · rw [hcounts.again, rd_cellCounted, toNat_eq_ite]
          rfl
        · have hrest := hcounts.rest
          have hcounted := cellCounted_rest g (ticked s)
          have hwide : (cellCounted g (ticked s)).perf = { s.perf with wide := (cellCounted g (ticked s)).perf.wide } := rfl
          rw [hctl, hperf]
          generalize cellCounted g (ticked s) = u at hrest hcounted hwide ⊢
          rw [← hwide]
          rw [hcounted] at hrest
          exact hrest
      have hbad : bad = (decide (n < 320) && !valid) := by rw [← Bool.true_and (decide (n < 320)), ← honv]
      have hagain : again = (decide (n < 320) && valid && decide (c.origin ≠ nodeNo s) && replayed s c) := by
        rw [← Bool.true_and (decide (n < 320)), ← honv]
      by_cases hn : 320 ≤ n
      · rw [if_pos (show 320 ≤ ((ticked s).cq g).rx from hn)] at hexec
        rw [hbad, hagain, decide_eq_true hn, decide_eq_false (show ¬n < 320 by omega)]
        exact ⟨_, hexec, cellCounts_excess g _⟩
      · rw [if_neg (show ¬320 ≤ ((ticked s).cq g).rx from hn), cellChecked_known hk] at hexec
        rw [hbad, hagain, decide_eq_false hn, decide_eq_true (show n < 320 by omega)]
        cases valid with
        | false => exact ⟨_, hexec, cellCounts_bad g _⟩
        | true =>
          rw [if_neg (by decide)] at hexec
          by_cases ho : c.origin = nodeNo s
          · rw [if_pos (show c.origin = nodeNo (cellCounted g (ticked s)) from ho)] at hexec
            refine ⟨_, hexec, ?_⟩
            rw [decide_eq_false (not_not.mpr ho)]
            exact cellCounts_none g _
          · have hr : replayed s c = true := by
              rcases hnot with h | h | h | h | h
              · exact absurd (h.symm.trans honv) Bool.false_ne_true
              · exact absurd h hn
              · exact absurd h Bool.true_eq_false.mp
              · exact absurd h ho
              · exact h
            rw [if_neg (show c.origin ≠ nodeNo (cellCounted g (ticked s)) from ho), if_pos (show replayed (cellCounted g (ticked s)) c = true from hr)] at hexec
            refine ⟨_, hexec, ?_⟩
            rw [decide_eq_true (show c.origin ≠ nodeNo s from ho), hr]
            exact cellCounts_again g _
  case unicast =>
    intro o again goes
    have hacc := controlCell_accepted (s := ticked s) (at' := at') hk hf hup hrx ho hr
    have hreach : cellReach g c at' (cellAccepted g c (ticked s)) = cellForward g c (cellAccepted g c (ticked s)) := by
      have hnode : nodeNo (cellAccepted g c (ticked s)) = nodeNo s := rd_congr _ (cellAccepted_reg g c (ticked s) _)
      rw [cellReach, if_neg (by omega), if_pos h1, hnode, if_neg hdest]
    have hrest := cellAccepted_rest g c (ticked s)
    have hgoes : cellGoes g c (cellAccepted g c (ticked s)) = goes :=
      cellGoes_congr (s := s) (by rw [hrest]; rfl) (cellAccepted_sent g c (ticked s)) (by rw [hrest]; rfl)
    obtain ⟨hout, hseen, hfwd⟩ := cellForward_spec g c (cellAccepted g c (ticked s))
    rw [hgoes] at hout
    refine ⟨_, congrArg Host.Outcome.next (hacc.trans hreach), ?_⟩
    generalize cellForward g c (cellAccepted g c (ticked s)) = t at hout hseen hfwd ⊢
    have hcontains := cellAccepted_contains g c (ticked s)
    rw [← hseen] at hcontains
    generalize cellAccepted g c (ticked s) = u at hrest hout hfwd
    refine ⟨by rw [hout, hrest]; rfl, hcontains, by rw [hfwd, hrest]; rfl, by rw [hfwd, hrest]; rfl⟩
  case flood =>
    intro c copy hr
    have hacc := controlCell_accepted (s := ticked s) (g := g) (c := c) (at' := at') rfl hf hup hrx ho hr
    rw [cellReach_ringBreak (c := c) rfl rfl, furtherCopy_ringBreak (c := c) rfl] at hacc
    have hrest := cellAccepted_rest g c (ticked s)
    have hcopy : (cellAccepted g c (ticked s)).ring.floods.any (fun e => decide (e.1 = c.origin ∧ e.2.1 = seq ∧
        fnDiff (cellAccepted g c (ticked s)).fn e.2.2 ≤ 64)) = copy := by
      rw [hrest]
      rfl
    rw [hcopy] at hacc
    have hcontains := cellAccepted_contains g c (ticked s)
    refine ⟨_, congrArg Host.Outcome.next hacc, ?_⟩
    clear hacc
    cases hc : copy with
    | true =>
      rw [if_pos rfl]
      generalize cellAccepted g c (ticked s) = u at hrest hcontains ⊢
      exact ⟨by rw [hrest]; rfl, fun _ => by rw [hrest]; rfl, by simp, hcontains, by rw [hrest]; rfl, by rw [hrest]; rfl⟩
    | false =>
      rw [if_neg Bool.false_ne_true]
      obtain ⟨-, hseen, hfwd⟩ := cellForward_spec g c (breakWaits c seq (cellAccepted g c (ticked s)))
      generalize cellForward g c (breakWaits c seq (cellAccepted g c (ticked s))) = t at hseen hfwd ⊢
      rw [show (breakWaits c seq (cellAccepted g c (ticked s))).ctl = (cellAccepted g c (ticked s)).ctl from rfl] at hseen
      rw [← hseen] at hcontains
      generalize cellAccepted g c (ticked s) = u at hrest hfwd
      have hring : t.ring = (breakWaits c seq u).ring := by rw [hfwd]
      refine ⟨by rw [hring, hrest]; rfl, by simp, fun _ => ?_, hcontains, by rw [hfwd, hrest]; rfl, ?_⟩
      · rw [hring, List.contains_iff_mem, hrest]
        exact List.mem_cons_self
      · rw [hring]
        rw [hfwd, hrest]
        rfl
  case insertion =>
    intro on
    refine ⟨_, exec_cellInsert g s, ?_⟩
    have hon : insertOpen s g = on := rfl
    rw [hon]
    clear_value on
    cases honv : on with
    | false =>
      rw [if_neg Bool.false_ne_true]
      exact ⟨fun _ => rfl, fun h => absurd h Bool.false_ne_true, fun _ _ _ => rfl, rfl, rfl⟩
    | true =>
      rw [if_pos rfl]
      cases hcell : nextCell (s.cq g) with
      | none => exact ⟨fun _ => rfl, fun _ x hx => absurd hx List.not_mem_nil, fun _ _ _ => rfl, rfl, rfl⟩
      | some x =>
        simp only [Option.elim_some, Option.toList_some, List.mem_singleton, reduceCtorEq, or_self, false_imp_iff, true_and, forall_eq, true_imp_iff]
        by_cases hrings : groupState s g = 6 ∧ x.1.reach ≠ 0
        · rw [if_pos hrings]
          exact ⟨fun h => absurd h (by omega), fun _ _ _ => rfl, rfl, rfl⟩
        · rw [if_neg hrings]
          exact cellSent_spec g x.1 x.2 s

end Sys2Proof.Machine
end
-- ==== Sys2Proof/Proofs/PlotCommands.lean ====
section
/-! PROOFS. Proofs/PlotCommands.lean: the cells that a node sends, the responses of a session, what the acceptance of a command leaves, and the
plot commands (O52). -/
namespace Sys2Proof.Machine

/-! ### The cells that a node sends (R586, R590) -/

/-- What queued cells may change: the groups' queues, the fields that count drops and levels, and the log. -/
structure CellFrame (s t : State) : Prop where
  rest : t = { s with regs := t.regs, log := t.log, ctl := { s.ctl with groups := t.ctl.groups, hseq := t.ctl.hseq } }
  regs : RegsKeptBut cellReg s t

theorem CellFrame.refl (s : State) : CellFrame s s := ⟨rfl, fun _ _ => rfl⟩

theorem CellFrame.trans {s t u : State} (h : CellFrame s t) (k : CellFrame t u) : CellFrame s u := by
  refine ⟨?_, fun a ha => (k.regs a ha).trans (h.regs a ha)⟩
  obtain ⟨h, -⟩ := h
  obtain ⟨k, -⟩ := k
  rw [h] at k
  exact k

theorem cellFrame_setCq (s : State) (g : Nat) (q : CellQ) : CellFrame s (s.setCq g q) := ⟨rfl, fun _ _ => rfl⟩

theorem cellFrame_wr (s : State) (f : FRef) (v : Nat) (hf : cellReg f.addr = true) : CellFrame s (s.wr f v) :=
  ⟨rfl, fun _ ha => reg_wr_ne _ _ (fun h => Bool.false_ne_true (ha.symm.trans (h ▸ hf)))⟩

theorem cellFrame_logEv (s : State) (source code datum : Nat) : CellFrame s (s.logEv source code datum) := by
  refine ⟨?_, fun _ ha => reg_logEv _ _ _ _ (fun h => Bool.false_ne_true (ha.symm.trans (h ▸ rfl)))⟩
  rw [logEv_spec]

theorem cellReg_ctlCnt1 {g : Nat} (hg : g < 4) : cellReg (Reg.PQ_CTL_CNT1 g) = true := by
  unfold cellReg
  rw [List.any_eq_true.mpr ⟨g, List.mem_range.mpr hg, decide_eq_true rfl⟩, Bool.or_true]

theorem cq_of_groups {s t : State} (h : t.ctl.groups = s.ctl.groups) (g : Nat) : t.cq g = s.cq g := by rw [State.cq, h]; rfl

theorem cq_setCq_same (s : State) (g : Nat) (q : CellQ) : (s.setCq g q).cq g = q := Tab.get_set_same _ _ _ _

theorem cq_setCq_ne (s : State) {g h : Nat} (q : CellQ) (hne : h ≠ g) : (s.setCq g q).cq h = s.cq h := Tab.get_set_ne _ _ _ _ (Ne.symm hne)

theorem cq_wr (s : State) (f : FRef) (v g : Nat) : (s.wr f v).cq g = s.cq g := rfl

theorem cq_logEv (s : State) (source code datum g : Nat) : (s.logEv source code datum).cq g = s.cq g := by
  refine cq_of_groups ?_ g
  rw [logEv_spec]

theorem queueOn_frame (c : Cell) {g : Nat} (hg : g < 4) (s : State) : CellFrame s (queueOn c g s) := by
  unfold queueOn
  extract_lets q
  split
  · exact cellFrame_setCq s g _
  · split
    · exact (cellFrame_wr s _ _ (cellReg_ctlCnt1 hg)).trans (cellFrame_logEv _ _ _ _)
    · exact (cellFrame_setCq s g _).trans (cellFrame_wr _ _ _ rfl)

theorem queueOn_cq_ne (c : Cell) {g h : Nat} (hne : h ≠ g) (s : State) : (queueOn c g s).cq h = s.cq h := by
  unfold queueOn
  extract_lets q
  split
  · exact cq_setCq_ne s _ hne
  · split
    · exact cq_logEv _ _ _ _ h
    · exact cq_setCq_ne s _ hne

theorem queueOn_queues (c : Cell) (g : Nat) (s : State) : Queues c.body g s (queueOn c g s) := by
  unfold Queues queueOn
  cases hk : cellPriority c.body with
  | none =>
    simp only [cq_setCq_same, List.map_append, List.map_cons, List.map_nil]
  | some k =>
    by_cases hfull : 64 ≤ (s.cq g).queue.length
    · simp only [if_pos hfull, cq_logEv]
      rfl
    · simp only [if_neg hfull, cq_wr, cq_setCq_same, List.map_append, List.map_cons, List.map_nil]

theorem Queues.congr {body : CellBody} {g : Nat} {s s' t t' : State} (h : Queues body g s t) (hs : s'.cq g = s.cq g) (ht : t'.cq g = t.cq g) :
    Queues body g s' t' := by
  unfold Queues at h ⊢
  rw [hs, ht]
  exact h

/-- The cell that a node sends on group `g`. -/
def cellOf (body : CellBody) (reach dest hseq g : Nat) (s : State) : Cell :=
  { body := body, origin := s.rd Fld.RG_RING_CFG_NODE, reach := reach, hops := 0, ringB := decide (2 ≤ g), west := decide (g % 2 = 1),
    fn := s.fn, hseq := hseq, dest := dest }

theorem forEach_queueOn (body : CellBody) (reach dest hseq : Nat) (l : List Nat) (hl : ∀ g ∈ l, g < 4) (hnd : l.Nodup) (s : State) :
    let t := forEach l (fun g s => queueOn (cellOf body reach dest hseq g s) g s) s
    CellFrame s t ∧ (∀ g ∈ l, Queues body g s t) ∧ ∀ g, g ∉ l → t.cq g = s.cq g := by
  induction l generalizing s with
  | nil => exact ⟨.refl s, fun _ h => absurd h List.not_mem_nil, fun _ _ => rfl⟩
  | cons a l ih =>
    intro t
    obtain ⟨ha, hl⟩ := List.forall_mem_cons.mp hl
    obtain ⟨hal, hnd⟩ := List.nodup_cons.mp hnd
    obtain ⟨hframe, hin, hout⟩ := ih hl hnd (queueOn (cellOf body reach dest hseq a s) a s)
    refine ⟨(queueOn_frame _ ha s).trans hframe, fun g hg => ?_, fun g hg => ?_⟩
    · rcases List.mem_cons.mp hg with rfl | hg
      · exact (queueOn_queues (cellOf body reach dest hseq g s) g s).congr rfl (hout g hal)
      · exact (hin g hg).congr (queueOn_cq_ne _ (fun h : g = a => hal (h ▸ hg)) s).symm rfl
    · obtain ⟨hga, hgl⟩ := not_or.mp (fun h => hg (List.mem_cons.mpr h))
      exact (hout g hgl).trans (queueOn_cq_ne _ hga s)

theorem mem_upGroups {s : State} {g : Nat} : g ∈ upGroups s ↔ g < 4 ∧ groupState s g = 3 := by
  unfold upGroups
  rw [List.mem_filter, beq_iff_eq]
  refine and_congr_left fun _ => ?_
  simp only [List.mem_cons, List.not_mem_nil, or_false]
  omega

theorem upGroups_nodup (s : State) : (upGroups s).Nodup := List.Nodup.filter _ (by decide)

/-- A cell that a node sends on its UP groups waits on each of them, and on no other. -/
theorem sendCell_up (body : CellBody) (reach dest : Nat) (s : State) :
    let t := sendCell body reach dest (upGroups s) s
    CellFrame s t ∧ ∀ g, g < 4 → if groupState s g = 3 then Queues body g s t else t.cq g = s.cq g := by
  intro t
  obtain ⟨hframe, hin, hout⟩ := forEach_queueOn body reach dest s.ctl.hseq (upGroups s) (fun g hg => (mem_upGroups.mp hg).1) (upGroups_nodup s)
    { s with ctl := { s.ctl with hseq := (s.ctl.hseq + 1) % 65536 } }
  have hstep : CellFrame s { s with ctl := { s.ctl with hseq := (s.ctl.hseq + 1) % 65536 } } := ⟨rfl, fun _ _ => rfl⟩
  refine ⟨hstep.trans hframe, fun g hg => ?_⟩
  split
  · next hup => exact (hin g (mem_upGroups.mpr ⟨hg, hup⟩)).congr rfl rfl
  · next hup => exact hout g (fun h => hup (mem_upGroups.mp h).2)

theorem floodCell_up (body : CellBody) (s : State) : CellFrame s (floodCell body s) ∧
    ∀ g, g < 4 → if groupState s g = 3 then Queues body g s (floodCell body s) else (floodCell body s).cq g = s.cq g := sendCell_up body 2 0x3FF s

theorem unicastCell_up (body : CellBody) (dest : Nat) (s : State) : CellFrame s (unicastCell body dest s) ∧
    ∀ g, g < 4 → if groupState s g = 3 then Queues body g s (unicastCell body dest s) else (unicastCell body dest s).cq g = s.cq g :=
  sendCell_up body 1 dest s

/-! ### The responses of a session (R606, R607, R634) -/

theorem deliver_rest (transport : Nat) (r : Response) (s : State) :
    deliver transport r s = { s with out := (deliver transport r s).out, csp := (deliver transport r s).csp } := by
  unfold deliver
  split <;> rfl

theorem delivered_deliver (transport : Nat) (r : Response) (s : State) : Delivered transport r (deliver transport r s) := by
  unfold Delivered deliver
  by_cases h : 2 ≤ transport ∧ transport ≤ 4
  · rw [if_pos h, if_pos h, cspOf_setCsp]
    exact List.getLast?_concat
  · rw [if_neg h, if_neg h]
    exact List.getLast?_concat

/-- A session that is open is answered under its next SEQ. -/
theorem respond_spec {k : Nat} (opcode tag status : Nat) (data : List Byte) {s : State} (hk : k < 64) (hv : s.rd (Fld.CE_SESS_VALID k) = 1) :
    let t := respond k opcode tag status true false data s
    Delivered (s.rd (Fld.CE_SESS_TRANSPORT k)) (nextResponse k opcode tag status true data s) t ∧
      t.sess k = { s.sess k with seqOut := (s.sess k).seqOut + 1 } ∧
      t = { s with out := t.out, csp := t.csp, eng := { s.eng with sess := t.eng.sess } } := by
  intro t
  have ht : t = deliver (s.rd (Fld.CE_SESS_TRANSPORT k)) (nextResponse k opcode tag status true data s)
      (s.setSess k { s.sess k with seqOut := (s.sess k).seqOut + 1 }) := by
    have hval : s.rdB (Fld.CE_SESS_VALID k) = true := by rw [State.rdB, hv]; rfl
    exact if_pos ⟨hk, hval⟩
  have hrest := deliver_rest (s.rd (Fld.CE_SESS_TRANSPORT k)) (nextResponse k opcode tag status true data s)
    (s.setSess k { s.sess k with seqOut := (s.sess k).seqOut + 1 })
  have hsent := delivered_deliver (s.rd (Fld.CE_SESS_TRANSPORT k)) (nextResponse k opcode tag status true data s)
    (s.setSess k { s.sess k with seqOut := (s.sess k).seqOut + 1 })
  rw [← ht] at hrest hsent
  clear_value t
  refine ⟨hsent, ?_, by rw [hrest]; rfl⟩
  have heng : t.eng = (s.setSess k { s.sess k with seqOut := (s.sess k).seqOut + 1 }).eng := by rw [hrest]
  rw [State.sess, heng]
  exact Tab.get_set_same _ _ _ _

theorem nextResponse_congr {k : Nat} (opcode tag status : Nat) (final : Bool) (data : List Byte) {s t : State}
    (hseq : (t.sess k).seqOut = (s.sess k).seqOut) (hkey : (t.sess k).key = (s.sess k).key) :
    nextResponse k opcode tag status final data t = nextResponse k opcode tag status final data s := by
  unfold nextResponse
  rw [hseq, hkey]

/-! ### What the acceptance of a command leaves (R607, R610, R616) -/

theorem alertHeard_rest (k : Nat) (s : State) :
    alertHeard k s = { s with img := { s.img with alertLeft := (alertHeard k s).img.alertLeft, alerted := (alertHeard k s).img.alerted } } := by
  unfold alertHeard
  split <;> rfl

section
variable (h : Hdr) (s : State)

/-- An authentic command is counted. -/
def commandCounted : State := countEv 0x0C0 h.transport.val 1 (s.inc Fld.CE_COUNT_ACCEPTED)

/-- The hidden part of a session whose command has been accepted. -/
def sessRenewed : Sess := { s.sess h.session.toNat with seqIn := h.seq.toNat, idle := 0, rejects := 0 }

/-- An authentic command renews its session. -/
def sessKept : State := ((commandCounted h s).setSess h.session.toNat (sessRenewed h s)).wr (Fld.CE_SESS_IDLE h.session.toNat) 0

/-- The registers that the acceptance of a command leaves. -/
def acceptedRegs : Tab Word := ((s.inc Fld.CE_COUNT_ACCEPTED).wr (Fld.CE_SESS_IDLE h.session.toNat) 0).regs

theorem commandCounted_rest : commandCounted h s = { s.inc Fld.CE_COUNT_ACCEPTED with perf := (commandCounted h s).perf } :=
  countEv_spec 0x0C0 h.transport.val 1 (s.inc Fld.CE_COUNT_ACCEPTED)

theorem sessKept_rest : sessKept h s = { s with
    regs := acceptedRegs h s, perf := (sessKept h s).perf,
    eng := { s.eng with sess := Tab.set restSess s.eng.sess h.session.toNat (sessRenewed h s) } } := by
  have hcount := commandCounted_rest h s
  unfold sessKept
  generalize commandCounted h s = t at hcount ⊢
  rw [hcount]
  rfl

theorem accepted_eq : accepted h s = { alertHeard h.session.toNat (sessKept h s) with
    eng := { (alertHeard h.session.toNat (sessKept h s)).eng with quiet := 0 } } := by
  have hcount := commandCounted_rest h s
  have hsess : sessRenewed h (commandCounted h s) = sessRenewed h s := by
    generalize commandCounted h s = t at hcount
    rw [hcount]
    rfl
  unfold sessKept
  rw [← hsess]
  rfl

theorem accepted_rest : accepted h s = { s with
    regs := acceptedRegs h s, perf := (accepted h s).perf,
    eng := { s.eng with sess := Tab.set restSess s.eng.sess h.session.toNat (sessRenewed h s), quiet := 0 },
    img := { s.img with alertLeft := (accepted h s).img.alertLeft, alerted := (accepted h s).img.alerted } } := by
  have heq := accepted_eq h s
  have hheard := alertHeard_rest h.session.toNat (sessKept h s)
  have hkept := sessKept_rest h s
  generalize alertHeard h.session.toNat (sessKept h s) = t at heq hheard
  generalize accepted h s = u at heq ⊢
  generalize sessKept h s = v at hheard hkept
  rw [heq, hheard, hkept]

theorem accepted_sess : (accepted h s).sess h.session.toNat = sessRenewed h s := by
  rw [State.sess, accepted_rest]
  exact Tab.get_set_same _ _ _ _

theorem accepted_reg (a : Nat) (ha : commandReg h a = false) : (accepted h s).reg a = s.reg a := by
  have hreg : (accepted h s).reg a = ((s.inc Fld.CE_COUNT_ACCEPTED).wr (Fld.CE_SESS_IDLE h.session.toNat) 0).reg a :=
    reg_congr (by rw [accepted_rest]; rfl) a
  obtain ⟨hcount, hsess⟩ := Bool.or_eq_false_iff.mp ha
  rw [hreg, reg_wr_ne _ _ (Ne.symm (of_decide_eq_false hsess)), inc_eq, reg_wr_ne _ _ (Ne.symm (of_decide_eq_false hcount))]

theorem accepted_rd (f : FRef) (hf : commandReg h f.addr = false) : (accepted h s).rd f = s.rd f := rd_congr f (accepted_reg h s _ hf)

theorem commandReg_sess : Reg.CE_COUNT ≠ Reg.CE_SESS h.session.toNat := by
  simp only [Reg.CE_COUNT, Reg.CE_SESS]
  omega

theorem accepted_rd_eq (f : FRef) : (accepted h s).rd f = ((s.inc Fld.CE_COUNT_ACCEPTED).wr (Fld.CE_SESS_IDLE h.session.toNat) 0).rd f :=
  rd_congr f (reg_congr (by rw [accepted_rest]; rfl) _)

/-- The acceptance changes IDLE alone of the session's register. -/
theorem accepted_sessField (f : FRef) (haddr : f.addr = Reg.CE_SESS h.session.toNat) (hok : f.ok) (hlo : 15 ≤ f.lo) :
    (accepted h s).rd f = s.rd f := by
  rw [accepted_rd_eq, rd_wr_disjoint _ _ _ _ (by simp [FRef.ok]) hok (.inr (by simp; omega)), inc_eq,
    rd_wr_ne _ _ _ _ (by rw [haddr]; exact commandReg_sess h)]

theorem accepted_count : (accepted h s).rd Fld.CE_COUNT_ACCEPTED = min (s.rd Fld.CE_COUNT_ACCEPTED + 1) 0xFFFF := by
  rw [accepted_rd_eq, rd_wr_ne _ _ _ _ (Ne.symm (commandReg_sess h))]
  exact rd_inc_same s (by decide)

theorem accepted_role (k : Nat) (hk : k = h.session.toNat) : sessRole (accepted h s) k = sessRole s k := by
  subst hk
  exact accepted_sessField h s _ rfl (by simp [FRef.ok]) (by simp)

variable {h} {noImg : Bool} (hk : h.session.toNat < 64)
include hk

theorem commandReg_above {a : Nat} (ha : 0x600200 ≤ a) : commandReg h a = false := by
  have h1 : a ≠ Reg.CE_COUNT := by simp only [Reg.CE_COUNT]; omega
  have h2 : a ≠ Reg.CE_SESS h.session.toNat := by simp only [Reg.CE_SESS]; omega
  rw [commandReg, decide_eq_false h1, decide_eq_false h2, Bool.or_false]

theorem commandReg_below {a : Nat} (ha : a < 0x600000) : commandReg h a = false := by
  have h1 : a ≠ Reg.CE_COUNT := by simp only [Reg.CE_COUNT]; omega
  have h2 : a ≠ Reg.CE_SESS h.session.toNat := by simp only [Reg.CE_SESS]; omega
  rw [commandReg, decide_eq_false h1, decide_eq_false h2, Bool.or_false]

theorem accepted_opLive (j : Nat) : opLive (accepted h s) j = opLive s j := by
  unfold opLive
  rw [rdB_eq, rdB_eq, accepted_rd h s _ (commandReg_above hk (by simp)), accepted_rd h s _ (commandReg_above hk (by simp))]

theorem accepted_tagInFlight (tag : Nat) : tagInFlight (accepted h s) tag = tagInFlight s tag := by
  unfold tagInFlight
  simp only [accepted_opLive s hk, fun j => accepted_rd h s (Fld.CE_OP_TAG j) (commandReg_above hk (by simp))]
  rw [accepted_rest]

theorem accepted_tagsFull : tagsFull (accepted h s) = tagsFull s := by
  unfold tagsFull
  rw [funext (accepted_opLive s hk), accepted_rest]

theorem accepted_stateNamed (noImg : Bool) : stateNamed noImg (accepted h s) = stateNamed noImg s := by
  unfold stateNamed
  rw [accepted_rd h s _ (commandReg_below hk (by decide)), accepted_rest]

end

/-- A command that passes the checks of R610 runs on the state that its acceptance leaves; a role other than TENANT has no bucket. -/
theorem command_ready {h : Hdr} {opcode : Nat} {noImg : Bool} {find : Nat → State → Finding} {act : Nat → State → State} {s : State}
    (hr : CommandReady h noImg s) (hrole : sessRole s h.session.toNat ≠ 4)
    (hfind : find h.session.toNat (accepted h s) = ⟨true, true, true, .ok⟩) :
    command h opcode noImg find act s = act h.session.toNat (accepted h s) := by
  obtain ⟨hserves, hauth, htag, hstate, -, htags⟩ := hr
  have hk : h.session.toNat < 64 := by simp [authentic] at hauth; exact hauth.1.1
  have hrole' : sessRole (accepted h s) h.session.toNat ≠ 4 := by rw [accepted_role h s _ rfl]; exact hrole
  have hbucket : bucketEmpty (accepted h s) h.session.toNat = false := by
    rw [bucketEmpty, beq_eq_false_iff_ne.mpr hrole', Bool.false_and]
  have hverdict : verdict h h.session.toNat noImg (find h.session.toNat (accepted h s)) (accepted h s) = .ok := by
    rw [hfind]
    simp [verdict, accepted_tagInFlight s hk, accepted_stateNamed s hk, accepted_tagsFull s hk, htag, hstate, htags, hbucket]
  unfold command withSession
  rw [if_neg (by rw [hserves]; decide), if_pos hauth]
  beta_reduce
  rw [hverdict]
  show act h.session.toNat (bucketTake h.session.toNat (accepted h s)) = _
  rw [bucketTake, if_neg hrole']

/-! ### A plot command of a session (R593, R628) -/

/-- What a plot command may change of the state. -/
def PlotScope (s t : State) : Prop :=
  t = { s with regs := t.regs, out := t.out, csp := t.csp, perf := t.perf, log := t.log, ctl := t.ctl,
               eng := { s.eng with sess := t.eng.sess, quiet := 0, waits := t.eng.waits },
               img := { s.img with alertLeft := t.img.alertLeft, alerted := t.img.alerted } }

/-- The command has been accepted, and not yet been answered. -/
structure Unanswered (h : Hdr) (s t : State) : Prop where
  scope : PlotScope s t
  count : t.rd Fld.CE_COUNT_ACCEPTED = min (s.rd Fld.CE_COUNT_ACCEPTED + 1) 0xFFFF
  sess : t.sess h.session.toNat = sessRenewed h s
  valid : t.rd (Fld.CE_SESS_VALID h.session.toNat) = 1
  transport : t.rd (Fld.CE_SESS_TRANSPORT h.session.toNat) = s.rd (Fld.CE_SESS_TRANSPORT h.session.toNat)
  out : t.out = s.out
  csp : t.csp = s.csp

section
variable {h : Hdr} {s t u : State}

theorem valid_of_authentic (ha : authentic h s = true) : h.session.toNat < 64 ∧ s.rd (Fld.CE_SESS_VALID h.session.toNat) = 1 := by
  obtain ⟨hopen, -⟩ := Bool.and_eq_true_iff.mp ha
  obtain ⟨hk, hopen⟩ := Bool.and_eq_true_iff.mp hopen
  obtain ⟨hvalid, -⟩ := Bool.and_eq_true_iff.mp hopen
  have hlt : s.rd (Fld.CE_SESS_VALID h.session.toNat) < 2 := rd_lt s (Fld.CE_SESS_VALID h.session.toNat) (by simp [FRef.ok])
  have hne := of_decide_eq_true hvalid
  exact ⟨of_decide_eq_true hk, by omega⟩

theorem unanswered_accepted (ha : authentic h s = true) : Unanswered h s (accepted h s) where
  scope := by
    have hrest := accepted_rest h s
    generalize accepted h s = t at hrest
    unfold PlotScope
    rw [hrest]
  count := accepted_count h s
  sess := accepted_sess h s
  valid := (accepted_sessField h s _ rfl (by simp [FRef.ok]) (by simp)).trans (valid_of_authentic ha).2
  transport := accepted_sessField h s _ rfl (by simp [FRef.ok]) (by simp)
  out := by rw [accepted_rest]
  csp := by rw [accepted_rest]

theorem Unanswered.of_regs (hu : Unanswered h s t) (hscope : PlotScope s u) (hcount : u.reg Reg.CE_COUNT = t.reg Reg.CE_COUNT)
    (hsess : u.reg (Reg.CE_SESS h.session.toNat) = t.reg (Reg.CE_SESS h.session.toNat)) (heng : u.eng.sess = t.eng.sess) (hout : u.out = t.out)
    (hcsp : u.csp = t.csp) : Unanswered h s u where
  scope := hscope
  count := (rd_congr _ hcount).trans hu.count
  sess := by rw [← hu.sess, State.sess, heng]; rfl
  valid := (rd_congr _ hsess).trans hu.valid
  transport := (rd_congr _ hsess).trans hu.transport
  out := hout.trans hu.out
  csp := hcsp.trans hu.csp

/-- The registers that queued cells may change are LOG_STATUS and some of the class-7 block. -/
theorem cellReg_eq_false {a : Nat} (hlog : a ≠ Reg.LOG_STATUS) (ha : a < 0x520000 ∨ 0x600000 ≤ a) : cellReg a = false := by
  have hcnt : (List.range 4).any (fun g => decide (a = Reg.PQ_CTL_CNT1 g)) = false := by
    rw [List.any_eq_false]
    intro g hg
    have := List.mem_range.mp hg
    simp only [Reg.PQ_CTL_CNT1, decide_eq_true_eq]
    omega
  have hstatus : a ≠ Reg.PQ_CTL_STATUS := by simp only [Reg.PQ_CTL_STATUS]; omega
  rw [cellReg, hcnt, decide_eq_false hlog, decide_eq_false hstatus]
  rfl

theorem cellReg_above {a : Nat} (ha : 0x600000 ≤ a) : cellReg a = false :=
  cellReg_eq_false (by simp only [Reg.LOG_STATUS]; omega) (.inr ha)

theorem cellReg_below {a : Nat} (ha : 0x30500 < a) (hb : a < 0x520000) : cellReg a = false :=
  cellReg_eq_false (by simp only [Reg.LOG_STATUS]; omega) (.inl hb)

theorem PlotScope.step (hs : PlotScope s t)
    (hu : u = { t with regs := u.regs, out := u.out, csp := u.csp, log := u.log, ctl := u.ctl,
                       eng := { t.eng with sess := u.eng.sess, waits := u.eng.waits } }) : PlotScope s u := by
  unfold PlotScope at hs ⊢
  rw [hu, hs]

theorem Unanswered.cells (hu : Unanswered h s t) (hc : CellFrame t u) : Unanswered h s u := by
  have hrest := hc.rest
  refine hu.of_regs (hu.scope.step ?_) (hc.regs _ (cellReg_above (by decide))) (hc.regs _ (cellReg_above (by simp only [Reg.CE_SESS]; omega))) (by rw [hrest])
    (by rw [hrest]) (by rw [hrest])
  rw [hrest]

theorem Unanswered.arrive (c : PlotCmd) (hu : Unanswered h s t) : Unanswered h s (plotArrive c t) :=
  hu.of_regs (hu.scope.step rfl) rfl rfl rfl rfl rfl

/-- The answer of a command that has been accepted. -/
theorem Unanswered.answered (opcode : Nat) (st : Status) (hk : h.session.toNat < 64) (hu : Unanswered h s t) :
    let u := finish h opcode h.session.toNat st [] t
    CommandTaken h s u ∧ Responds h opcode st [] s u ∧ PlotScope s u ∧ u.ctl = t.ctl ∧ u.eng.waits = t.eng.waits := by
  obtain ⟨hsent, hsess, hrest⟩ := respond_spec opcode h.tag.toNat st.code [] hk hu.valid
  intro u
  change Delivered _ _ u at hsent
  change u.sess _ = _ at hsess
  change u = _ at hrest
  clear_value u
  have hregs : u.regs = t.regs := by rw [hrest]
  refine ⟨⟨(rd_congr _ (reg_congr hregs _)).trans hu.count, ?_, ?_, ?_⟩, ?_, ?_, by rw [hrest], by rw [hrest]⟩
  · rw [hsess, hu.sess]; rfl
  · rw [hsess, hu.sess]; rfl
  · rw [hsess, hu.sess]; rfl
  · rw [hu.transport, nextResponse_congr _ _ _ _ _ (s := s) (by rw [hu.sess]; rfl) (by rw [hu.sess]; rfl)] at hsent
    exact hsent
  · exact hu.scope.step (by rw [hrest])

/-- A plot command carried out here, or answered with BAD_ARG. -/
def plotMine (h : Hdr) (c : PlotCmd) (here : Bool) (s : State) : State :=
  if here then finish h c.sop h.session.toNat .ok [] (plotArrive c s) else finish h c.sop h.session.toNat .badArg [] s

theorem Unanswered.mine (c : PlotCmd) (here : Bool) (hk : h.session.toNat < 64) (hu : Unanswered h s t) :
    let u := plotMine h c here t
    CommandTaken h s u ∧ Responds h c.sop (if here then .ok else .badArg) [] s u ∧ PlotScope s u ∧
      u.ctl = { t.ctl with plotCmds := t.ctl.plotCmds ++ (if here then [c] else []) } ∧ u.eng.waits = t.eng.waits := by
  cases here with
  | true => exact (hu.arrive c).answered c.sop .ok hk
  | false =>
    obtain ⟨htaken, hresp, hscope, hctl, hwaits⟩ := hu.answered c.sop .badArg hk
    exact ⟨htaken, hresp, hscope, hctl.trans (by rw [if_neg Bool.false_ne_true, List.append_nil]), hwaits⟩

/-- The answer of a command at another node is waited for. -/
def respAwaited (h : Hdr) (sop : Nat) (s : State) : State :=
  showOps { s with eng := { s.eng with waits := s.eng.waits ++ [⟨h.session.toNat, h.tag.toNat, sop, h.seq.toNat, 0⟩] } }

theorem respAwaited_reg {sop : Nat} {a : Nat} (ha : a ≠ Reg.CE_STATUS) : (respAwaited h sop s).reg a = s.reg a := by
  unfold respAwaited showOps
  rw [reg_wr_ne _ _ (Ne.symm ha), reg_wr_ne _ _ (Ne.symm ha)]
  rfl

theorem respAwaited_rest {sop : Nat} : respAwaited h sop s = { s with
    regs := (respAwaited h sop s).regs
    eng := { s.eng with waits := s.eng.waits ++ [⟨h.session.toNat, h.tag.toNat, sop, h.seq.toNat, 0⟩] } } := rfl

theorem Unanswered.awaited (sop : Nat) (hu : Unanswered h s t) : Unanswered h s (respAwaited h sop t) := by
  have hrest := respAwaited_rest (h := h) (s := t) (sop := sop)
  refine hu.of_regs (hu.scope.step ?_) (respAwaited_reg (by decide)) (respAwaited_reg (by simp only [Reg.CE_SESS, Reg.CE_STATUS]; omega))
    (by rw [hrest]) (by rw [hrest]) (by rw [hrest])
  rw [hrest]

theorem plotSend_eq (dest : Nat) (c : PlotCmd) (s : State) :
    plotSend h h.session.toNat dest c s =
      if dest = nodeNo s then plotMine h c (plotHere c.sop c.arg0 s) s
      else if dest = 0x3FF then
        plotMine h c (plotHere c.sop c.arg0 (floodCell (.command (shortOf h h.session.toNat c s)) s)) (floodCell (.command (shortOf h h.session.toNat c s)) s)
      else respAwaited h c.sop (unicastCell (.command (shortOf h h.session.toNat c s)) dest s) := by
  have hbusy : busyShow h.session.toNat .badArg s = s := if_pos (by decide)
  have hrefuse : refuse h c.sop h.session.toNat .badArg s = finish h c.sop h.session.toNat .badArg [] s := by
    rw [refuse, hbusy]
    rfl
  unfold plotSend
  rw [hrefuse]
  rfl

theorem plotHere_congr {sop arg0 : Nat} (hargs : plotArgs sop arg0 = true)
    (hport : t.rd (Fld.PQ_PORT_MAP_ROLE arg0) = s.rd (Fld.PQ_PORT_MAP_ROLE arg0)) :
    plotHere sop arg0 t = (decide (sop < 0x73) || accessPort s arg0) := by
  rw [plotHere, hargs, Bool.true_and, accessPort, hport, accessPort]

theorem arg0_lt {sop arg0 : Nat} (hargs : plotArgs sop arg0 = true) : arg0 < 128 := by
  unfold plotArgs at hargs
  split at hargs <;> have := of_decide_eq_true hargs <;> omega

theorem ctl_mine {l : List PlotCmd} {u : State} (hctl : u.ctl = { t.ctl with plotCmds := t.ctl.plotCmds ++ l }) (g : Nat) : u.cq g = t.cq g :=
  cq_of_groups (by rw [hctl]) g

/-- A plot command of an OPERATOR session that has passed its checks. -/
theorem plotSend_taken {dest : Nat} {c : PlotCmd} (ha : authentic h (ticked s) = true) (hrole : sessRole s h.session.toNat = 1)
    (hargs : plotArgs c.sop c.arg0 = true) :
    PlotCommandTaken h dest c.sop c.arg0 c.arg1 s (plotSend h h.session.toNat dest c (accepted h (ticked s))) := by
  have hk := (valid_of_authentic ha).1
  have hu := unanswered_accepted ha
  have hlt := arg0_lt hargs
  have hrd (f : FRef) (hlo : 0x30500 < f.addr) (hhi : f.addr < 0x520000) : (accepted h (ticked s)).rd f = s.rd f :=
    accepted_rd h (ticked s) f (commandReg_below hk (by omega))
  have hport := hrd (Fld.PQ_PORT_MAP_ROLE c.arg0) (by simp only [Reg.PQ_PORT_MAP]; omega) (by simp only [Reg.PQ_PORT_MAP]; omega)
  have hnode := hrd Fld.RG_RING_CFG_NODE (by decide) (by decide)
  have hgroup (g : Nat) (hg : g < 4) : groupState (accepted h (ticked s)) g = groupState s g :=
    hrd (Fld.RG_GROUP_STATUS_STATE g) (by simp only [Reg.RG_GROUP_STATUS]; omega) (by simp only [Reg.RG_GROUP_STATUS]; omega)
  have hctl : (accepted h (ticked s)).ctl = s.ctl := by rw [accepted_rest]; rfl
  have hwaits : (accepted h (ticked s)).eng.waits = s.eng.waits := by rw [accepted_rest]; rfl
  have hshort : shortOf h h.session.toNat c (accepted h (ticked s)) =
      ⟨c.sop, 1, h.session.toNat, h.tag.toNat, (s.sess h.session.toNat).snonce, h.seq.toNat, c.arg0, c.arg1, 0⟩ := by
    rw [shortOf, accepted_role h _ _ rfl, accepted_sess, show sessRole (ticked s) h.session.toNat = 1 from hrole]
    rfl
  rw [plotSend_eq, hshort]
  unfold PlotCommandTaken
  intro here short mine
  generalize accepted h (ticked s) = a at *
  have hcq (g : Nat) : a.cq g = s.cq g := cq_of_groups (by rw [hctl]) g
  rw [show nodeNo a = nodeNo s from hnode]
  by_cases hown : dest = nodeNo s
  · have hmine : mine = true := by simp [mine, hown]
    rw [if_pos hown, show plotHere c.sop c.arg0 a = here from plotHere_congr hargs hport, hmine]
    obtain ⟨htaken, hresp, hscope, hctl', hwaits'⟩ := hu.mine c here hk
    generalize plotMine h c here a = t at *
    refine ⟨htaken, ?_, fun _ => ⟨hresp, hwaits'.trans hwaits⟩, nofun, fun g _ => ?_, hscope⟩
    · rw [hctl', hctl]
      rfl
    · rw [if_neg (fun h => h.2 hown)]
      exact (ctl_mine hctl' g).trans (hcq g)
  · have hqueues {b t : State} (hb : ∀ g, g < 4 → if groupState a g = 3 then Queues (.command short) g a b else b.cq g = a.cq g)
        (ht : ∀ g, t.cq g = b.cq g) (g : Nat) (hg : g < 4) :
        if groupState s g = 3 ∧ dest ≠ nodeNo s then Queues (.command short) g s t else t.cq g = s.cq g := by
      have := hb g hg
      rw [hgroup g hg] at this
      by_cases hup : groupState s g = 3
      · rw [if_pos ⟨hup, hown⟩]
        rw [if_pos hup] at this
        exact this.congr (hcq g).symm (ht g)
      · rw [if_neg (fun h => hup h.1)]
        rw [if_neg hup] at this
        exact (ht g).trans (this.trans (hcq g))
    rw [if_neg hown]
    by_cases hall : dest = 0x3FF
    · have hmine : mine = true := by simp [mine, hall]
      obtain ⟨hframe, hsent⟩ := floodCell_up (.command short) a
      rw [if_pos hall]
      generalize floodCell (.command short) a = b at *
      have hbport : b.rd (Fld.PQ_PORT_MAP_ROLE c.arg0) = s.rd (Fld.PQ_PORT_MAP_ROLE c.arg0) :=
        (rd_congr _ (hframe.regs _ (cellReg_below (by simp only [Reg.PQ_PORT_MAP]; omega) (by simp only [Reg.PQ_PORT_MAP]; omega)))).trans hport
      have hbctl : b.ctl.plotCmds = s.ctl.plotCmds := by rw [hframe.rest, ← hctl]
      have hbwaits : b.eng.waits = s.eng.waits := by rw [hframe.rest, ← hwaits]
      rw [show plotHere c.sop c.arg0 b = here from plotHere_congr hargs hbport, hmine]
      obtain ⟨htaken, hresp, hscope, hctl', hwaits'⟩ := (hu.cells hframe).mine c here hk
      generalize plotMine h c here b = t at *
      refine ⟨htaken, ?_, fun _ => ⟨hresp, hwaits'.trans hbwaits⟩, nofun, hqueues hsent (ctl_mine hctl'), hscope⟩
      rw [hctl', ← hbctl]
      rfl
    · have hmine : mine = false := by simp [mine, hall, hown]
      obtain ⟨hframe, hsent⟩ := unicastCell_up (.command short) dest a
      rw [if_neg hall, hmine]
      generalize unicastCell (.command short) dest a = b at *
      have hbctl : b.ctl.plotCmds = s.ctl.plotCmds := by rw [hframe.rest, ← hctl]
      have hbwaits : b.eng.waits = s.eng.waits := by rw [hframe.rest, ← hwaits]
      have haw := (hu.cells hframe).awaited c.sop
      have hrest := respAwaited_rest (h := h) (s := b) (sop := c.sop)
      generalize respAwaited h c.sop b = t at *
      refine ⟨⟨haw.count, ?_, ?_, ?_⟩, ?_, nofun, fun _ => ⟨?_, haw.out, haw.csp⟩, hqueues hsent (fun g => cq_of_groups (by rw [hrest]) g), haw.scope⟩
      · rw [haw.sess]; rfl
      · rw [haw.sess]; rfl
      · rw [haw.sess]; rfl
      · rw [hrest, ← hbctl]
        exact (List.append_nil _).symm
      · rw [hrest, ← hbwaits]

theorem plotBy_taken {dest len : Nat} {c : PlotCmd} (hr : CommandReady h false s) (hrole : sessRole s h.session.toNat = 1) (hlen : h.argLen = len)
    (hdest : dest ≤ 0x3FF) (hargs : plotArgs c.sop c.arg0 = true) :
    PlotCommandTaken h dest c.sop c.arg0 c.arg1 s (plotBy h dest len c (ticked s)) := by
  have hrole' : sessRole (accepted h (ticked s)) h.session.toNat = 1 := (accepted_role h _ _ rfl).trans hrole
  have hready : CommandReady h false (ticked s) := hr
  have hrun : plotBy h dest len c (ticked s) = plotSend h h.session.toNat dest c (accepted h (ticked s)) := by
    refine command_ready hready (by rw [show sessRole (ticked s) h.session.toNat = 1 from hrole]; decide) ?_
    simp only [roleIn, hrole', hlen, hdest, hargs]
    simp
  rw [hrun]
  exact plotSend_taken hready.2.1 hrole hargs

theorem toNat_ofNat_fin {n : Nat} (hn : n ≤ 256) (p : Fin n) : (BitVec.ofNat 8 p).toNat = p := by
  rw [BitVec.toNat_ofNat]
  exact Nat.mod_eq_of_lt (by have := p.isLt; omega)

end

/-! ### Short commands (R38, R629) -/

section
variable (origin : Nat) (s : State)

/-- SHORT_AUTH_FAIL of an origin has been logged less than a second ago. -/
def shortRecent : Bool := (Tab.get none s.eng.shortAt origin).any (fun f => decide (fnDiff s.fn f < 50000))

/-- SHORT_AUTH_FAIL of an origin is logged. -/
def shortLogged : State := { s with eng := { s.eng with shortAt := Tab.set none s.eng.shortAt origin (some s.fn) } }.logEv 0x05 0x0008 origin

theorem shortFail_eq : shortFail origin s = if shortRecent origin s then s else shortLogged origin s := by
  unfold shortFail
  extract_lets due
  have hdue : due = !shortRecent origin s := by
    simp only [due, shortRecent]
    cases Tab.get none s.eng.shortAt origin with
    | none => rfl
    | some f =>
      rw [Option.any_some, ← decide_not]
      exact decide_eq_decide.mpr not_lt.symm
  clear_value due
  subst hdue
  cases shortRecent origin s <;> rfl

end

/-- An authentic short command that the part executes. -/
def shortDone (c : ShortCmd) (origin : Nat) (s : State) : State :=
  (plotArrive ⟨c.sop, c.arg0, c.arg1⟩ s).logEv 0x05 0x0007 (origin + c.sop * 65536)

theorem shortStatus_eq (c : ShortCmd) (s : State) : shortStatus c s = if c.role ≠ 1 then .denied
    else if 0x70 ≤ c.sop ∧ c.sop ≤ 0x74 ∧ plotHere c.sop c.arg0 s = true ∧ c.arg1 ≤ 65535 then .ok else .badArg := by
  unfold shortStatus
  have hiff : (¬(0x70 ≤ c.sop ∧ c.sop ≤ 0x74) ∨ plotHere c.sop c.arg0 s = false ∨ 65535 < c.arg1) ↔
      ¬(0x70 ≤ c.sop ∧ c.sop ≤ 0x74 ∧ plotHere c.sop c.arg0 s = true ∧ c.arg1 ≤ 65535) := by
    simp only [not_and_or, Bool.not_eq_true, not_le, or_assoc]
  rw [if_congr hiff rfl rfl]
  exact if_congr Iff.rfl rfl (ite_not ..)

theorem shortCommand_booted {origin dest fn : Nat} {c : ShortCmd} {s : State} (hb : s.img.phase = .booted) :
    let cred := if 1 ≤ c.role ∧ c.role ≤ 3 then credential s c.role 0 else none
    let key := sessionKey (cred.getD 0) origin c.session c.snonce
    shortCommand origin dest fn c s =
      if (cred.isSome && decide (c.hmac = hmac16 key (shortBytes c dest fn))) = true then shortRun key origin (dest == 0x3FF) c s else shortFail origin s := by
  intro cred key
  unfold shortCommand
  rw [if_neg (not_not.mpr hb)]
  change (match cred with | none => _ | some _ => _) = _
  cases hc : cred with
  | none => rfl
  | some k =>
    have hkey : key = sessionKey k origin c.session c.snonce := by simp [key, hc]
    rw [hkey]
    simp only [Option.isSome_some, Bool.true_and, decide_eq_true_eq]

/-- What an authentic short command leaves before its answer. -/
def shortActed (c : ShortCmd) (origin : Nat) (ok : Bool) (s : State) : State := if ok then shortDone c origin s else s

/-- What a short command may change of the state. -/
structure ShortScope (s t : State) : Prop where
  rest : t = { s with regs := t.regs, log := t.log, ctl := t.ctl, eng := { s.eng with shortAt := t.eng.shortAt } }
  regs : RegsKeptBut cellReg s t

section
variable {c : ShortCmd} {origin : Nat} {ok : Bool} {s : State}

theorem shortRun_eq (key : BitVec 256) (flood : Bool) :
    shortRun key origin flood c s = shortAnswer key origin flood c (shortStatus c s) (shortActed c origin (shortStatus c s == .ok) s) := by
  unfold shortRun shortActed
  cases shortStatus c s <;> rfl

theorem shortActed_spec : (shortActed c origin ok s).ctl = { s.ctl with plotCmds := s.ctl.plotCmds ++ (if ok then [⟨c.sop, c.arg0, c.arg1⟩] else []) } ∧
    (shortActed c origin ok s).eng = s.eng ∧ ShortScope s (shortActed c origin ok s) := by
  cases ok with
  | false => exact ⟨by rw [if_neg Bool.false_ne_true, List.append_nil]; rfl, rfl, rfl, fun _ _ => rfl⟩
  | true =>
    have hspec := logEv_spec (plotArrive ⟨c.sop, c.arg0, c.arg1⟩ s) 0x05 0x0007 (origin + c.sop * 65536)
    have hreg := (cellFrame_logEv (plotArrive ⟨c.sop, c.arg0, c.arg1⟩ s) 0x05 0x0007 (origin + c.sop * 65536)).regs
    show (shortDone c origin s).ctl = _ ∧ (shortDone c origin s).eng = _ ∧ ShortScope s (shortDone c origin s)
    change shortDone c origin s = _ at hspec
    change RegsKeptBut cellReg _ (shortDone c origin s) at hreg
    generalize shortDone c origin s = t at *
    exact ⟨by rw [hspec]; rfl, by rw [hspec]; rfl, by rw [hspec]; rfl, hreg⟩

theorem ShortScope.cells {t u : State} (h : ShortScope s t) (k : CellFrame t u) : ShortScope s u := by
  refine ⟨?_, fun a ha => (k.regs a ha).trans (h.regs a ha)⟩
  obtain ⟨hrest, -⟩ := h
  obtain ⟨krest, -⟩ := k
  rw [krest, hrest]

/-- The cell that answers a short command. -/
def shortReply (key : BitVec 256) (c : ShortCmd) (st : Status) : CellBody :=
  .commandResp c.sop st.code c.tag c.snonce c.seq (hmac16 key (respBytes c.sop st.code c.tag c.snonce c.seq))

theorem shortAnswer_spec (key : BitVec 256) (flood : Bool) (st : Status) :
    CellFrame s (shortAnswer key origin flood c st s) ∧ (flood = true → shortAnswer key origin flood c st s = s) ∧
    ∀ g, g < 4 → if flood = false ∧ groupState s g = 3 then Queues (shortReply key c st) g s (shortAnswer key origin flood c st s)
      else (shortAnswer key origin flood c st s).cq g = s.cq g := by
  cases flood with
  | true => exact ⟨.refl s, fun _ => rfl, fun g _ => by rw [if_neg (by simp)]; rfl⟩
  | false =>
    obtain ⟨hframe, hsent⟩ := unicastCell_up (shortReply key c st) origin s
    refine ⟨hframe, nofun, fun g hg => ?_⟩
    rw [if_congr (and_iff_right rfl) rfl rfl]
    exact hsent g hg

/-- An authentic short command: it waits for the frame tick if it is right, and is answered where it came alone. -/
theorem shortGood_spec {key : BitVec 256} {st : Status} {flood : Bool} {dest : BitVec 10} (hst : shortStatus c s = st)
    (hflood : flood = decide (dest = 0x3FF#10)) :
    let t := shortRun key origin flood c s
    t.ctl.plotCmds = s.ctl.plotCmds ++ (if st == .ok then [⟨c.sop, c.arg0, c.arg1⟩] else []) ∧ t.eng = s.eng ∧
      (st ≠ .ok → dest = 0x3FF#10 → t.log = s.log) ∧
      (∀ g, g < 4 → if dest ≠ 0x3FF#10 ∧ groupState s g = 3 then Queues (shortReply key c st) g s t else t.cq g = s.cq g) ∧ ShortScope s t := by
  intro t
  have ht : t = shortAnswer key origin flood c st (shortActed c origin (st == .ok) s) := by rw [← hst]; exact shortRun_eq key flood
  clear_value t
  subst ht
  obtain ⟨hctl, heng, hscope⟩ := shortActed_spec (c := c) (origin := origin) (ok := st == .ok) (s := s)
  obtain ⟨hframe, hsame, hsent⟩ := shortAnswer_spec (c := c) (origin := origin) (s := shortActed c origin (st == .ok) s) key flood st
  have hbad : st ≠ .ok → shortActed c origin (st == .ok) s = s := fun h => if_neg (by rw [beq_eq_false_iff_ne.mpr h]; decide)
  generalize shortActed c origin (st == .ok) s = u at *
  generalize shortAnswer key origin flood c st u = t at *
  refine ⟨?_, ?_, fun hne hall => ?_, fun g hg => ?_, hscope.cells hframe⟩
  · rw [hframe.rest, hctl]
  · rw [hframe.rest, ← heng]
  · rw [hsame (hflood.trans (decide_eq_true hall)), hbad hne]
  · have hcq : u.cq g = s.cq g := cq_of_groups (by rw [hctl]) g
    have hup : groupState u g = groupState s g :=
      rd_congr _ (hscope.regs _ (cellReg_below (by simp only [Reg.RG_GROUP_STATUS]; omega) (by simp only [Reg.RG_GROUP_STATUS]; omega)))
    have hiff : flood = false ↔ dest ≠ 0x3FF#10 := by rw [hflood, decide_eq_false_iff_not]
    have := hsent g hg
    rw [hup, if_congr (and_congr_left fun _ => hiff) rfl rfl] at this
    split
    · next h =>
      rw [if_pos h] at this
      exact this.congr hcq.symm rfl
    · next h =>
      rw [if_neg h] at this
      exact this.trans hcq

theorem shortLogged_spec : ShortScope s (shortLogged origin s) ∧ (shortLogged origin s).ctl = s.ctl ∧ (shortLogged origin s).log = (s.logEv 0x05 8 origin).log := by
  have hspec := logEv_spec { s with eng := { s.eng with shortAt := Tab.set none s.eng.shortAt origin (some s.fn) } } 0x05 0x0008 origin
  have hreg := (cellFrame_logEv { s with eng := { s.eng with shortAt := Tab.set none s.eng.shortAt origin (some s.fn) } } 0x05 0x0008 origin).regs
  refine ⟨⟨?_, hreg⟩, ?_, logEv_log_of_eq _ _ _ rfl rfl rfl rfl rfl⟩
  · unfold shortLogged
    rw [hspec]
  · unfold shortLogged
    rw [hspec]

end

/-! ### A command that waits for its response (R629) -/

/-- A command that waited is answered. -/
def waitEnded (w : ShortWait) (status : Nat) (s : State) : State :=
  respond w.session w.opcode w.tag status true false [] (showOps { s with eng := { s.eng with waits := s.eng.waits.erase w } })

theorem showOps_regs (s : State) : RegsKept [Reg.CE_STATUS] s (showOps s) := RegsKept.wr (RegsKept.wr (.refl _ s) (by simp)) (by simp)

theorem waitEnded_spec {w : ShortWait} {status : Nat} {s : State} (hk : w.session < 64) (hv : s.rd (Fld.CE_SESS_VALID w.session) = 1) :
    let t := waitEnded w status s
    t.eng.waits = s.eng.waits.erase w ∧
    Delivered (s.rd (Fld.CE_SESS_TRANSPORT w.session)) (nextResponse w.session w.opcode w.tag status true [] s) t ∧
    t = { s with regs := t.regs, out := t.out, csp := t.csp, eng := { s.eng with sess := t.eng.sess, waits := t.eng.waits } } ∧
    RegsKept [Reg.CE_STATUS] s t := by
  have hshown := showOps_regs { s with eng := { s.eng with waits := s.eng.waits.erase w } }
  have hrest : showOps { s with eng := { s.eng with waits := s.eng.waits.erase w } } =
      { s with regs := (showOps { s with eng := { s.eng with waits := s.eng.waits.erase w } }).regs
               eng := { s.eng with waits := s.eng.waits.erase w } } := rfl
  intro t
  have ht : t = respond w.session w.opcode w.tag status true false [] (showOps { s with eng := { s.eng with waits := s.eng.waits.erase w } }) := rfl
  clear_value t
  generalize showOps { s with eng := { s.eng with waits := s.eng.waits.erase w } } = u at *
  have hsess : u.reg (Reg.CE_SESS w.session) = s.reg (Reg.CE_SESS w.session) :=
    hshown _ (by rw [List.mem_singleton]; simp only [Reg.CE_SESS, Reg.CE_STATUS]; omega)
  obtain ⟨hsent, -, hans⟩ := respond_spec w.opcode w.tag status [] hk ((rd_congr _ hsess).trans hv)
  have hus (k : Nat) : u.sess k = s.sess k := by rw [hrest]; rfl
  rw [show u.rd (Fld.CE_SESS_TRANSPORT w.session) = s.rd (Fld.CE_SESS_TRANSPORT w.session) from rd_congr _ hsess,
    nextResponse_congr (s := s) _ _ _ _ _ (by rw [hus w.session]) (by rw [hus w.session])] at hsent
  rw [← ht] at hsent hans
  refine ⟨by rw [hans, hrest], hsent, ?_, fun a ha => ?_⟩
  · rw [hans, hrest]
  · exact (reg_congr (by rw [hans]) a).trans (hshown a ha)

theorem commandResp_found {sop status tag seq : Nat} {snonce : List Byte} {hmac : BitVec 128} {w : ShortWait} {s : State}
    (hw : s.eng.waits.find? (fun x => x.tag == tag && x.seq == seq && x.opcode == sop && decide ((s.sess x.session).snonce = snonce)) = some w) :
    commandResp sop status tag snonce seq hmac s =
      if hmac = hmac16 (s.sess w.session).key (respBytes sop status tag snonce seq) then waitEnded w status s else s := by
  unfold commandResp
  rw [hw]
  rfl

theorem shortTimeout_found {tag : Nat} {w : ShortWait} {s : State} (hw : s.eng.waits.find? (fun x => x.tag == tag && decide (500 ≤ x.age)) = some w) :
    shortTimeout tag s = waitEnded w 8 s := by
  unfold shortTimeout
  rw [hw]
  rfl

/-! ### The obligation -/

/-- Settles O52: a plot command by the checks it passes and the three places it can act, a short command by whether it verifies, a response and its
time by the command that waits. -/
theorem plotCommands : Obligations.PlotCommands := by
  refine ⟨fun s h dest p hr hrole hlen hdest => ⟨⟨_, rfl, ?quench⟩, ⟨_, rfl, ?release⟩⟩, fun s h dest p r hr hrole hlen hdest => ⟨_, rfl, ?throttle⟩,
    fun s h dest l hr hrole hlen hdest => ⟨⟨_, rfl, ?shut⟩, ⟨_, rfl, ?opens⟩⟩, fun s origin dest fn c hb => ?short,
    fun s w sop status tag snonce seq hmac hw hk hv => ?response, fun s w hw htag hk hv => ?timeout⟩
  case quench =>
    rw [toNat_ofNat_fin (by decide)]
    exact plotBy_taken hr hrole hlen hdest (decide_eq_true (Nat.le_of_lt_succ p.isLt))
  case release =>
    rw [toNat_ofNat_fin (by decide)]
    exact plotBy_taken hr hrole hlen hdest (decide_eq_true (Nat.le_of_lt_succ p.isLt))
  case throttle =>
    rw [toNat_ofNat_fin (by decide)]
    exact plotBy_taken hr hrole hlen hdest (decide_eq_true (Nat.le_of_lt_succ p.isLt))
  case shut =>
    rw [toNat_ofNat_fin (by decide)]
    exact plotBy_taken hr hrole hlen hdest (decide_eq_true l.isLt)
  case opens =>
    rw [toNat_ofNat_fin (by decide)]
    exact plotBy_taken hr hrole hlen hdest (decide_eq_true l.isLt)
  case short =>
    intro cred key good st recent
    have hrun : exec (.shortCommand origin dest fn c) s =
        .next (if good = true then shortRun key origin.toNat (dest.toNat == 0x3FF) c (ticked s) else shortFail origin.toNat (ticked s)) :=
      congrArg Host.Outcome.next (shortCommand_booted (s := ticked s) hb)
    have hst : shortStatus c (ticked s) = st := shortStatus_eq c (ticked s)
    have hflood : (dest.toNat == 0x3FF) = decide (dest = 0x3FF#10) := by
      rw [beq_eq_decide]
      exact decide_eq_decide.mpr (BitVec.toNat_inj (y := 0x3FF#10))
    refine ⟨_, hrun, ?_⟩
    clear_value good
    cases good with
    | true =>
      rw [if_pos rfl]
      obtain ⟨hcmds, heng, hlog, hsent, hrest, hregs⟩ := shortGood_spec (key := key) (origin := origin.toNat) hst hflood
      generalize shortRun key origin.toNat (dest.toNat == 0x3FF) c (ticked s) = t at *
      refine ⟨hcmds, fun _ => heng, fun _ => hlog, fun g hg => ?_, nofun, hrest, hregs⟩
      rw [if_congr (and_iff_right rfl) rfl rfl]
      exact hsent g hg
    | false =>
      rw [if_neg Bool.false_ne_true, shortFail_eq, show shortRecent origin.toNat (ticked s) = recent from rfl]
      clear_value recent
      cases recent with
      | true =>
        exact ⟨(List.append_nil _).symm, nofun, nofun, fun g _ => by rw [if_neg (by simp)]; rfl, fun _ => rfl, rfl, fun _ _ => rfl⟩
      | false =>
        rw [if_neg Bool.false_ne_true]
        obtain ⟨⟨hrest, hregs⟩, hctl, hlog⟩ := shortLogged_spec (origin := origin.toNat) (s := ticked s)
        generalize shortLogged origin.toNat (ticked s) = t at *
        exact ⟨by rw [hctl]; exact (List.append_nil _).symm, nofun, nofun, fun g _ => by rw [if_neg (by simp)]; exact cq_of_groups (by rw [hctl]; rfl) g,
          fun _ => hlog, hrest, hregs⟩
  case response =>
    intro key good
    have hrun : exec (.commandResp sop status tag snonce seq hmac) s =
        .next (if hmac = hmac16 key (respBytes sop.toNat status.toNat tag.toNat (beBytes 8 snonce.toNat) seq.toNat) then
          waitEnded w status.toNat (ticked s) else ticked s) :=
      congrArg Host.Outcome.next (commandResp_found (s := ticked s) hw)
    refine ⟨_, hrun, ?_⟩
    by_cases h : hmac = hmac16 key (respBytes sop.toNat status.toNat tag.toNat (beBytes 8 snonce.toNat) seq.toNat)
    · rw [if_pos h]
      obtain ⟨hwaits, hsent, hrest, hregs⟩ := waitEnded_spec (status := status.toNat) (s := ticked s) hk hv
      generalize waitEnded w status.toNat (ticked s) = t at *
      exact ⟨fun hg => absurd (hg.symm.trans (decide_eq_true h)) Bool.false_ne_true, fun _ => ⟨hwaits, hsent⟩, hrest, hregs⟩
    · rw [if_neg h]
      exact ⟨fun _ => rfl, fun hg => absurd ((decide_eq_false h).symm.trans hg) Bool.false_ne_true, rfl, fun _ _ => rfl⟩
  case timeout =>
    have hrun : exec (.shortRespTimeout (BitVec.ofNat 12 w.tag)) s = .next (waitEnded w 8 (ticked s)) := by
      have htag' : (BitVec.ofNat 12 w.tag).toNat = w.tag := by rw [BitVec.toNat_ofNat, Nat.mod_eq_of_lt htag]
      exact congrArg Host.Outcome.next (shortTimeout_found (s := ticked s) (by rw [htag']; exact hw))
    obtain ⟨hwaits, hsent, hrest, hregs⟩ := waitEnded_spec (status := 8) (s := ticked s) hk hv
    refine ⟨_, hrun, ?_⟩
    generalize waitEnded w 8 (ticked s) = t at *
    exact ⟨hwaits, hsent, hrest, hregs⟩

end Sys2Proof.Machine
end
-- ==== Sys2Proof/Proofs/TripSettling.lean ====
section
/-! PROOFS. Proofs/TripSettling.lean: what the settling of the trips comes to: every gate-drive latch has met its causes, and every pair its
sources, as they stand when it ends (R421, R423, R445, R446). -/
namespace Sys2Proof.Machine

/-! ### A loop whose steps each settle one unit -/

/-- Where each step of a loop settles its own unit and leaves the others what matters of them, the loop settles every unit of the list. -/
theorem forEach_settles {f : Nat → State → State} {R K : Nat → State → State → Prop} {n : Nat} {l : List Nat} (hnd : l.Nodup) (hl : ∀ i ∈ l, i < n)
    (hrefl : ∀ i s, K i s s) (htrans : ∀ i s t u, K i s t → K i t u → K i s u) (hleft : ∀ i s s' t, K i s s' → R i s' t → R i s t)
    (hright : ∀ i s t t', R i s t → K i t t' → R i s t') (hstep : ∀ i ∈ l, ∀ s, R i s (f i s))
    (hkeep : ∀ i ∈ l, ∀ j, j < n → j ≠ i → ∀ s, K j s (f i s)) (s : State) :
    (∀ i ∈ l, R i s (forEach l f s)) ∧ ∀ j, j < n → j ∉ l → K j s (forEach l f s) := by
  induction l generalizing s with
  | nil => exact ⟨fun _ h => absurd h List.not_mem_nil, fun j _ _ => hrefl j s⟩
  | cons a l ih =>
    obtain ⟨hal, hnd⟩ := List.nodup_cons.mp hnd
    obtain ⟨hin, hout⟩ := ih hnd (fun i hi => hl i (List.mem_cons_of_mem _ hi)) (fun i hi => hstep i (List.mem_cons_of_mem _ hi))
      (fun i hi => hkeep i (List.mem_cons_of_mem _ hi)) (f a s)
    have ha := List.mem_cons_self (a := a) (l := l)
    refine ⟨fun i hi => ?_, fun j hj hjl => ?_⟩
    · rcases List.mem_cons.mp hi with rfl | hi
      · exact hright i _ _ _ (hstep i ha s) (hout i (hl i ha) hal)
      · exact hleft i _ _ _ (hkeep a ha i (hl i (List.mem_cons_of_mem _ hi)) (fun h => hal (h ▸ hi)) s) (hin i hi)
    · obtain ⟨hja, hjl⟩ := not_or.mp (fun h => hjl (List.mem_cons.mpr h))
      exact htrans j _ _ _ (hkeep a ha j hj hja s) (hout j hj hjl)

/-! ### The sources of a pair -/

/-- The registers of the pairs that the settling of the pairs changes, and LOG_STATUS. -/
def pairReg (a : Nat) : Bool :=
  decide (a = Reg.LOG_STATUS) || decide (0x1C0000 ≤ a ∧ a < 0x1D0000 ∧ 0x40 ≤ a % 0x80) || decide (0x1D0030 ≤ a ∧ a < 0x1D003C)

/-- Two states are alike in everything that makes a source of a pair. -/
structure SourcesKept (p : Nat) (s t : State) : Prop where
  live : ∀ pulse, tripLive pulse t p = tripLive pulse s p
  latching : latchingMask t p = latchingMask s p
  cycle : cycleMask t p = cycleMask s p

theorem SourcesKept.refl (p : Nat) (s : State) : SourcesKept p s s := ⟨fun _ => rfl, rfl, rfl⟩

theorem SourcesKept.trans {p : Nat} {s t u : State} (h : SourcesKept p s t) (k : SourcesKept p t u) : SourcesKept p s u :=
  ⟨fun x => (k.live x).trans (h.live x), k.latching.trans h.latching, k.cycle.trans h.cycle⟩

theorem SourcesKept.symm {p : Nat} {s t : State} (h : SourcesKept p s t) : SourcesKept p t s :=
  ⟨fun x => (h.live x).symm, h.latching.symm, h.cycle.symm⟩

/-- The sources of a pair lie outside the registers that the pairs show. -/
theorem RegsLogPerf.sources {p : Nat} (hp : p < 72) {s t : State} (h : RegsLogPerf pairReg s t) : SourcesKept p s t := by
  have hrest := h.rest
  have hrd (f : FRef) (hf : pairReg f.addr = false) : t.rd f = s.rd f := rd_congr f (h.regs _ hf)
  have hcfg (a b : Nat) : t.rd ⟨Reg.PWM_CFG p, a, b⟩ = s.rd ⟨Reg.PWM_CFG p, a, b⟩ :=
    hrd _ (by simp [pairReg, Reg.PWM_CFG, Reg.LOG_STATUS]; omega)
  have htrip (a b : Nat) : t.rd ⟨Reg.PWM_TRIP_CFG p, a, b⟩ = s.rd ⟨Reg.PWM_TRIP_CFG p, a, b⟩ :=
    hrd _ (by simp [pairReg, Reg.PWM_TRIP_CFG, Reg.LOG_STATUS]; omega)
  have hgdl (a b : Nat) : t.rd ⟨Reg.GDL_CFG p, a, b⟩ = s.rd ⟨Reg.GDL_CFG p, a, b⟩ :=
    hrd _ (by simp [pairReg, Reg.GDL_CFG, Reg.LOG_STATUS]; omega)
  have hlatch (a b : Nat) : t.rd ⟨Reg.GDL_STATUS p, a, b⟩ = s.rd ⟨Reg.GDL_STATUS p, a, b⟩ :=
    hrd _ (by simp [pairReg, Reg.GDL_STATUS, Reg.LOG_STATUS]; omega)
  have hforce (k : Nat) (hk : k < 3) : t.rd (Fld.PWM_FORCE k) = s.rd (Fld.PWM_FORCE k) :=
    hrd _ (by simp [pairReg, Reg.PWM_FORCE, Reg.LOG_STATUS]; omega)
  have hfixed (a x y : Nat) (ha : pairReg a = false) : t.rd ⟨a, x, y⟩ = s.rd ⟨a, x, y⟩ := hrd _ ha
  have hlevels : tripLevels t p = tripLevels s p := by
    unfold tripLevels watched bankBad State.mapBit State.bit
    simp only [rdB_eq, hcfg, hgdl, hlatch, hforce (p / 32) (by omega), hfixed Reg.CLK_STATUS _ _ (by decide), hfixed Reg.SCHED_STATUS _ _ (by decide),
      hfixed Reg.DOM_STATUS _ _ (by decide), hfixed Reg.IO_BANK_STATUS _ _ (by decide), hfixed Reg.SAFE_STATUS _ _ (by decide)]
    rw [hrest]
  refine ⟨fun pulse => ?_, ?_, ?_⟩
  · rw [tripLive, tripLive, hlevels, htrip, htrip, hfixed Reg.TL_STATUS _ _ (by decide)]
  · rw [latchingMask, latchingMask, htrip]
  · rw [cycleMask, cycleMask, htrip, htrip]

/-! ### A pair -/

/-- Two states are alike in what pair `p` shows. -/
structure PairKept (p : Nat) (s t : State) : Prop where
  status : t.reg (Reg.PWM_STATUS p) = s.reg (Reg.PWM_STATUS p)
  src : t.reg (Reg.PWM_TRIP_SRC p) = s.reg (Reg.PWM_TRIP_SRC p)
  events : t.reg (Reg.PWM_EVENTS p) = s.reg (Reg.PWM_EVENTS p)
  count : t.reg (Reg.PWM_COUNT p) = s.reg (Reg.PWM_COUNT p)
  tripped : t.mapBit Fld.PWM_TRIPPED p = s.mapBit Fld.PWM_TRIPPED p

theorem PairKept.refl (p : Nat) (s : State) : PairKept p s s := ⟨rfl, rfl, rfl, rfl, rfl⟩

theorem PairKept.trans {p : Nat} {s t u : State} (h : PairKept p s t) (k : PairKept p t u) : PairKept p s u :=
  ⟨k.status.trans h.status, k.src.trans h.src, k.events.trans h.events, k.count.trans h.count, k.tripped.trans h.tripped⟩

theorem PairSettled.congr {pulse p : Nat} {s s' t t' : State} (h : PairSettled pulse p s t) (hs : PairKept p s s') (ht : PairKept p t t')
    (hsrc : SourcesKept p t t') : PairSettled pulse p s' t' := by
  have hst (a b : Nat) : s'.rd ⟨Reg.PWM_STATUS p, a, b⟩ = s.rd ⟨Reg.PWM_STATUS p, a, b⟩ := rd_congr _ hs.status
  have hsr : s'.rd (Fld.PWM_TRIP_SRC p) = s.rd (Fld.PWM_TRIP_SRC p) := rd_congr _ hs.src
  have hsc (a b : Nat) : s'.rd ⟨Reg.PWM_COUNT p, a, b⟩ = s.rd ⟨Reg.PWM_COUNT p, a, b⟩ := rd_congr _ hs.count
  have htt (a b : Nat) : t'.rd ⟨Reg.PWM_STATUS p, a, b⟩ = t.rd ⟨Reg.PWM_STATUS p, a, b⟩ := rd_congr _ ht.status
  have htr : t'.rd (Fld.PWM_TRIP_SRC p) = t.rd (Fld.PWM_TRIP_SRC p) := rd_congr _ ht.src
  have hte (a b : Nat) : t'.rd ⟨Reg.PWM_EVENTS p, a, b⟩ = t.rd ⟨Reg.PWM_EVENTS p, a, b⟩ := rd_congr _ ht.events
  have htc (a b : Nat) : t'.rd ⟨Reg.PWM_COUNT p, a, b⟩ = t.rd ⟨Reg.PWM_COUNT p, a, b⟩ := rd_congr _ ht.count
  unfold PairSettled at h ⊢
  simp only [hst, hsr, hsc, htt, htr, hte, htc, hs.status, hs.src, hs.events, hs.count, ht.status, ht.src, ht.events, ht.count, ht.tripped,
    hsrc.live, hsrc.latching, hsrc.cycle]
  exact h

theorem wordMap_tripped : WordMap Fld.PWM_TRIPPED := ⟨fun _ => ⟨rfl, rfl⟩, fun j k h => by simp; omega⟩

/-- The registers of pair `p` that its settling changes. -/
abbrev pairRegs (p : Nat) : List Nat := [Reg.PWM_STATUS p, Reg.PWM_TRIP_SRC p, Reg.PWM_EVENTS p, Reg.PWM_COUNT p, Reg.PWM_TRIPPED (p / 32)]

/-- What a pair may change: its registers, its bit of PWM_TRIPPED, and the counters. -/
structure PairFrame (p : Nat) (s t : State) : Prop where
  rest : t = { s with regs := t.regs, perf := t.perf }
  regs : RegsKept (pairRegs p) s t
  others : ∀ q, q ≠ p → t.mapBit Fld.PWM_TRIPPED q = s.mapBit Fld.PWM_TRIPPED q

section
variable {p : Nat} {r s : State}

theorem PairFrame.refl (p : Nat) (s : State) : PairFrame p s s := ⟨rfl, fun _ _ => rfl, fun _ _ => rfl⟩

theorem PairFrame.wr {f : FRef} {v : Nat} (h : PairFrame p r s) (hf : f.addr ∈ pairRegs p) (hw : ∀ q, f.addr ≠ Reg.PWM_TRIPPED q) :
    PairFrame p r (s.wr f v) where
  rest := by rw [h.rest]; rfl
  regs := RegsKept.wr h.regs hf
  others q hq := (mapBit_congr _ _ (reg_wr_ne _ _ (hw _))).trans (h.others q hq)

theorem PairFrame.wrTripped {b : Bool} (h : PairFrame p r s) : PairFrame p r (s.wrMapBit Fld.PWM_TRIPPED p b) where
  rest := by rw [h.rest]; rfl
  regs := RegsKept.wr h.regs (by simp)
  others q hq := by rw [mapBit_wrMapBit _ wordMap_tripped, if_neg hq, h.others q hq]

theorem countEv_regs (event unit n : Nat) (s : State) : (countEv event unit n s).regs = s.regs := by rw [countEv_spec]

theorem PairFrame.countEv {event unit n : Nat} (h : PairFrame p r s) : PairFrame p r (countEv event unit n s) := by
  have hspec := countEv_spec event unit n s
  generalize Machine.countEv event unit n s = t at hspec ⊢
  have hregs : t.regs = s.regs := by rw [hspec]
  refine ⟨?_, fun a ha => (reg_congr hregs a).trans (h.regs a ha), fun q hq => (mapBit_congr _ _ (reg_congr hregs _)).trans (h.others q hq)⟩
  rw [hspec, h.rest]

theorem rd_wrTripped {q : Nat} {b : Bool} {f : FRef} (hf : f.addr < 0x1D0000) : (s.wrMapBit Fld.PWM_TRIPPED q b).rd f = s.rd f :=
  rd_wr_ne _ _ _ _ (by simp only [Reg.PWM_TRIPPED]; omega)

theorem PairFrame.outputsLow (h : PairFrame p r s) (hp : p < 72) : PairFrame p r (outputsLow p s) :=
  (h.wr (by simp) (fun q => by simp only [Reg.PWM_STATUS, Reg.PWM_TRIPPED]; omega)).wr (by simp)
    (fun q => by simp only [Reg.PWM_STATUS, Reg.PWM_TRIPPED]; omega)

variable (hp : p < 72)
include hp

theorem pairTrip_frame (src : Nat) : PairFrame p s (pairTrip p src s) := by
  have hs (q : Nat) : Reg.PWM_STATUS p ≠ Reg.PWM_TRIPPED q := by simp only [Reg.PWM_STATUS, Reg.PWM_TRIPPED]; omega
  have hr (q : Nat) : Reg.PWM_TRIP_SRC p ≠ Reg.PWM_TRIPPED q := by simp only [Reg.PWM_TRIP_SRC, Reg.PWM_TRIPPED]; omega
  have he (q : Nat) : Reg.PWM_EVENTS p ≠ Reg.PWM_TRIPPED q := by simp only [Reg.PWM_EVENTS, Reg.PWM_TRIPPED]; omega
  have hc (q : Nat) : Reg.PWM_COUNT p ≠ Reg.PWM_TRIPPED q := by simp only [Reg.PWM_COUNT, Reg.PWM_TRIPPED]; omega
  refine PairFrame.countEv (PairFrame.wrTripped (PairFrame.outputsLow ?_ hp))
  exact ((((((PairFrame.refl p s).wr (by simp) hs).wr (by simp) hr).wr (by simp) hs).wr (by simp) hs).wr (by simp) he).wr (by simp) hc

theorem pairHold_frame : PairFrame p s (pairHold p s) := by
  have hs (q : Nat) : Reg.PWM_STATUS p ≠ Reg.PWM_TRIPPED q := by simp only [Reg.PWM_STATUS, Reg.PWM_TRIPPED]; omega
  have he (q : Nat) : Reg.PWM_EVENTS p ≠ Reg.PWM_TRIPPED q := by simp only [Reg.PWM_EVENTS, Reg.PWM_TRIPPED]; omega
  have hc (q : Nat) : Reg.PWM_COUNT p ≠ Reg.PWM_TRIPPED q := by simp only [Reg.PWM_COUNT, Reg.PWM_TRIPPED]; omega
  refine PairFrame.countEv (PairFrame.outputsLow ?_ hp)
  exact (((PairFrame.refl p s).wr (by simp) hs).wr (by simp) he).wr (by simp) hc

theorem settlePair_frame (pulse : Nat) : PairFrame p s (settlePair pulse p s) := by
  unfold settlePair
  extract_lets live src st
  split
  · exact (PairFrame.refl p s).wr (by simp) (fun q => by simp only [Reg.PWM_TRIP_SRC, Reg.PWM_TRIPPED]; omega)
  · split
    · exact pairTrip_frame hp _
    · split
      · exact pairHold_frame hp
      · exact .refl p s

omit hp in
theorem lowestBit_lt (m : Nat) : lowestBit m < 32 := by
  unfold lowestBit
  cases h : (List.range 32).find? (fun i => m.testBit i) with
  | none => decide
  | some i => exact List.mem_range.mp (List.mem_of_find?_eq_some h)

/-- What a pair that trips shows (R423). -/
theorem pairTrip_shows {src : Nat} (hsrc : src < 2 ^ 32) :
    let t := pairTrip p src s
    t.rd (Fld.PWM_STATUS_STATE p) = 3 ∧ t.rd (Fld.PWM_TRIP_SRC p) = src ∧ t.rd (Fld.PWM_STATUS_FIRST_SRC p) = lowestBit src ∧
    t.rd (Fld.PWM_STATUS_FIRST_VALID p) = 1 ∧ t.rd (Fld.PWM_EVENTS_TRIP_EV p) = 1 ∧ t.rd (Fld.PWM_STATUS_OUT_H p) = 0 ∧
    t.rd (Fld.PWM_STATUS_OUT_L p) = 0 ∧ t.rd (Fld.PWM_COUNT_TRIPS p) = min (s.rd (Fld.PWM_COUNT_TRIPS p) + 1) 0xFFFF ∧
    t.mapBit Fld.PWM_TRIPPED p = true := by
  have haddr : Reg.PWM_STATUS p < 0x1D0000 ∧ Reg.PWM_TRIP_SRC p < 0x1D0000 ∧ Reg.PWM_EVENTS p < 0x1D0000 ∧ Reg.PWM_COUNT p < 0x1D0000 := by
    simp only [Reg.PWM_STATUS, Reg.PWM_TRIP_SRC, Reg.PWM_EVENTS, Reg.PWM_COUNT]
    omega
  obtain ⟨h1, h2, h3, h4⟩ := haddr
  have hlow : lowestBit src % 32 = lowestBit src := Nat.mod_eq_of_lt (lowestBit_lt src)
  have hmod : src % 4294967296 = src := Nat.mod_eq_of_lt hsrc
  intro t
  have htripped : t.mapBit Fld.PWM_TRIPPED p = true := by
    refine (mapBit_congr _ _ (reg_congr (countEv_regs _ _ _ _) _)).trans ?_
    rw [mapBit_wrMapBit _ wordMap_tripped, if_pos rfl]
  refine ⟨?_, ?_, ?_, ?_, ?_, ?_, ?_, ?_, htripped⟩
  all_goals
    refine (rd_countEv _ _ _ _ _).trans ((rd_wrTripped (by assumption)).trans ?_)
    simp [outputsLow, rd_wr_apart, rd_wr_same, FRef.ok, FRef.apart, FRef.width, hlow, hmod, natMin_eq]

omit hp in
/-- What a pair that is held shows (R421). -/
theorem pairHold_shows :
    let t := pairHold p s
    t.rd (Fld.PWM_STATUS_STATE p) = 2 ∧ t.rd (Fld.PWM_EVENTS_CYC_EV p) = 1 ∧ t.rd (Fld.PWM_STATUS_OUT_H p) = 0 ∧
    t.rd (Fld.PWM_STATUS_OUT_L p) = 0 ∧ t.rd (Fld.PWM_COUNT_CYC_HOLDS p) = min (s.rd (Fld.PWM_COUNT_CYC_HOLDS p) + 1) 0xFFFF ∧
    t.reg (Reg.PWM_TRIP_SRC p) = s.reg (Reg.PWM_TRIP_SRC p) := by
  intro t
  have hkept : t.reg (Reg.PWM_TRIP_SRC p) = s.reg (Reg.PWM_TRIP_SRC p) := by
    refine (reg_congr (countEv_regs _ _ _ _) _).trans ?_
    simp [outputsLow, reg_wr_ne]
  refine ⟨?_, ?_, ?_, ?_, ?_, hkept⟩
  all_goals
    refine (rd_countEv _ _ _ _ _).trans ?_
    simp [outputsLow, rd_wr_apart, rd_wr_same, FRef.ok, FRef.apart, FRef.width, natMin_eq]

omit hp in
theorem pairRises_iff {pulse : Nat} : pairRises pulse s p = true ↔
    (s.rd (Fld.PWM_STATUS_STATE p) = 1 ∨ s.rd (Fld.PWM_STATUS_STATE p) = 2 ∨ s.rd (Fld.PWM_STATUS_STATE p) = 4) ∧
      tripLive pulse s p &&& latchingMask s p ≠ 0 := by
  unfold pairRises
  simp only [Bool.and_eq_true, Bool.or_eq_true, beq_iff_eq, decide_eq_true_eq, or_assoc]

omit hp in
theorem PairFrame.scope (h : PairFrame p r s) (hp : p < 72) : RegsLogPerf pairReg r s := by
  refine ⟨?_, fun a ha => h.regs a (fun hmem => ?_)⟩
  · rw [h.rest]
  · simp [pairReg, Reg.LOG_STATUS] at ha
    simp only [pairRegs, List.mem_cons, List.not_mem_nil, or_false, Reg.PWM_STATUS, Reg.PWM_TRIP_SRC, Reg.PWM_EVENTS, Reg.PWM_COUNT,
      Reg.PWM_TRIPPED] at hmem
    omega

omit hp in
theorem latching_lt (pulse : Nat) : tripLive pulse s p &&& latchingMask s p < 2 ^ 32 := by
  have hlatch : s.rd (Fld.PWM_TRIP_CFG_TL_LATCH p) < 65536 := rd_lt s (Fld.PWM_TRIP_CFG_TL_LATCH p) (by simp [FRef.ok])
  refine Nat.lt_of_le_of_lt Nat.and_le_right ?_
  unfold latchingMask
  omega

theorem settlePair_settles (pulse : Nat) : PairSettled pulse p s (settlePair pulse p s) := by
  have hkept := ((settlePair_frame (s := s) hp pulse).scope hp).sources hp
  have hlt := latching_lt (p := p) (s := s) pulse
  unfold PairSettled
  simp only [hkept.live, hkept.latching, hkept.cycle]
  unfold settlePair
  extract_lets live src st
  by_cases h3 : st = 3
  · rw [if_pos h3, if_pos h3]
    have hor : s.rd (Fld.PWM_TRIP_SRC p) ||| src < 2 ^ 32 :=
      Nat.or_lt_two_pow (rd_lt s (Fld.PWM_TRIP_SRC p) (by simp [FRef.ok])) hlt
    exact ⟨(rd_wr_ne _ _ _ _ (by simp)).trans h3, (rd_wr_same _ _ _ (by simp [FRef.ok])).trans (Nat.mod_eq_of_lt hor), reg_wr_ne _ _ (by simp),
      rd_wr_ne _ _ _ _ (by simp)⟩
  · rw [if_neg h3, if_neg h3, if_congr pairRises_iff rfl rfl]
    by_cases hrise : (st = 1 ∨ st = 2 ∨ st = 4) ∧ src ≠ 0
    · rw [if_pos hrise, if_pos hrise]
      exact pairTrip_shows hp hlt
    · rw [if_neg hrise, if_neg hrise]
      by_cases hhold : st = 1 ∧ live &&& cycleMask s p ≠ 0
      · rw [if_pos hhold, if_pos hhold]
        exact pairHold_shows
      · rw [if_neg hhold, if_neg hhold]
        exact ⟨rfl, rfl, rfl, rfl⟩

end

/-- The settling of one pair leaves what another shows. -/
theorem PairFrame.kept {p q : Nat} (hq : q < 72) (hne : q ≠ p) {s t : State} (h : PairFrame p s t) : PairKept q s t := by
  have hreg (a : Nat) (ha : a = Reg.PWM_STATUS q ∨ a = Reg.PWM_TRIP_SRC q ∨ a = Reg.PWM_EVENTS q ∨ a = Reg.PWM_COUNT q) : t.reg a = s.reg a := by
    refine h.regs a (fun hmem => ?_)
    simp only [pairRegs, List.mem_cons, List.not_mem_nil, or_false, Reg.PWM_STATUS, Reg.PWM_TRIP_SRC, Reg.PWM_EVENTS, Reg.PWM_COUNT,
      Reg.PWM_TRIPPED] at hmem ha
    omega
  exact ⟨hreg _ (by simp), hreg _ (by simp), hreg _ (by simp), hreg _ (by simp), h.others q hne⟩

/-- Every pair meets its sources. -/
theorem forEach_settlePair (pulse : Nat → Nat) (s : State) {p : Nat} (hp : p < 72) :
    PairSettled (pulse p) p s (forEach pairs (fun q s => settlePair (pulse q) q s) s) := by
  refine (forEach_settles (R := fun q s t => PairSettled (pulse q) q s t) (K := fun q s t => PairKept q s t ∧ SourcesKept q s t) (n := 72)
    List.nodup_range (fun _ => pairs_lt) (fun q s => ⟨.refl q s, .refl q s⟩) (fun q s t u h k => ⟨h.1.trans k.1, h.2.trans k.2⟩)
    (fun q s s' t h hr => hr.congr (s' := s) ?_ (.refl q t) (.refl q t)) (fun q s t t' hr h => hr.congr (.refl q s) h.1 h.2)
    (fun _ hq s => settlePair_settles (pairs_lt hq) _) (fun q hq j hj hne s => ?_) s).1 p (List.mem_range.mpr hp)
  · exact ⟨h.1.status.symm, h.1.src.symm, h.1.events.symm, h.1.count.symm, h.1.tripped.symm⟩
  · have hframe := settlePair_frame (s := s) (pairs_lt hq) (pulse q)
    exact ⟨hframe.kept hj hne, (hframe.scope (pairs_lt hq)).sources hj⟩

/-! ### Fields kept -/

/-- Every field beside the bits of some fields, and beside some registers, is as it was. -/
structure FieldsKept (l : List FRef) (s t : State) : Prop where
  rd : ∀ f : FRef, f.ok → (∀ g ∈ l, g.apart f) → t.rd f = s.rd f
  regs : ∀ a, (∀ g ∈ l, g.addr ≠ a) → t.reg a = s.reg a

section
variable {l : List FRef} {r s t u : State}

theorem FieldsKept.refl (l : List FRef) (s : State) : FieldsKept l s s := ⟨fun _ _ _ => rfl, fun _ _ => rfl⟩

theorem FieldsKept.trans (h : FieldsKept l s t) (k : FieldsKept l t u) : FieldsKept l s u :=
  ⟨fun f hok hf => (k.rd f hok hf).trans (h.rd f hok hf), fun a ha => (k.regs a ha).trans (h.regs a ha)⟩

theorem FieldsKept.mono {m : List FRef} (h : FieldsKept l s t) (hm : ∀ g ∈ l, g ∈ m) : FieldsKept m s t :=
  ⟨fun f hok hf => h.rd f hok (fun g hg => hf g (hm g hg)), fun a ha => h.regs a (fun g hg => ha g (hm g hg))⟩

theorem FieldsKept.wr {f : FRef} {v : Nat} (h : FieldsKept l r s) (hok : f.ok) (hf : f ∈ l) : FieldsKept l r (s.wr f v) :=
  h.trans ⟨fun g hg hl => rd_wr_apart s f g v hok hg (hl f hf), fun _ ha => reg_wr_ne s v (ha f hf)⟩

/-- The whole of LOG_STATUS, of which an entry of the log changes the count of those lost. -/
def logWord : FRef := ⟨Reg.LOG_STATUS, 31, 0⟩

theorem ne_log_of_apart {f : FRef} (hok : f.ok) (h : logWord.apart f) : f.addr ≠ Reg.LOG_STATUS := by
  rcases h with h | h | h
  · exact Ne.symm h
  · exact absurd h (Nat.not_lt_zero _)
  · have := hok.2
    simp only [logWord] at h
    omega

theorem FieldsKept.logOnce {source code unit datum : Nat} (h : FieldsKept l r s) (hl : logWord ∈ l) :
    FieldsKept l r (s.logOnce source code unit datum) :=
  h.trans ⟨fun _ hok hf => rd_congr _ (reg_logOnce s _ _ _ _ (ne_log_of_apart hok (hf _ hl))),
    fun _ ha => reg_logOnce s _ _ _ _ (Ne.symm (ha _ hl))⟩

theorem FieldsKept.logEv {source code datum : Nat} (h : FieldsKept l r s) (hl : logWord ∈ l) : FieldsKept l r (s.logEv source code datum) :=
  h.trans ⟨fun _ hok hf => rd_congr _ (reg_logEv s _ _ _ (ne_log_of_apart hok (hf _ hl))), fun _ ha => reg_logEv s _ _ _ (Ne.symm (ha _ hl))⟩

theorem FieldsKept.of_regs (h : t.regs = s.regs) : FieldsKept l s t := ⟨fun _ _ _ => rd_congr _ (reg_congr h _), fun a _ => reg_congr h a⟩

end

/-! ### The latch of a pair -/

/-- Two states are alike in everything that makes a cause of pair `p`. -/
structure CausesKept (p : Nat) (s t : State) : Prop where
  watch : watched t p = watched s p
  causes : ∀ quiet, gateCauses quiet t p = gateCauses quiet s p

/-- The fields that show the inputs of pair `p`'s latch. -/
def causeFields (p : Nat) : List FRef :=
  [Fld.PWM_CFG_EN p, Fld.GDL_CFG_FLT_EN p, Fld.GDL_CFG_STAT_EN p, Fld.GDL_STATUS_FLT_LIVE p, Fld.GDL_STATUS_LINK_UP p, Fld.GDL_STATUS_LAST_FLAGS p,
   Fld.GDL_EN_STATUS_GD_EN_LEVEL, Fld.GDL_EN_STATUS_BANK_OK]

theorem causesKept_of {p : Nat} {s t : State} (hgate : t.gate = s.gate) (h : ∀ f ∈ causeFields p, t.rd f = s.rd f) : CausesKept p s t := by
  simp only [causeFields, List.forall_mem_cons, List.not_mem_nil, false_imp_iff, implies_true, and_true] at h
  obtain ⟨hen, hflt, hstat, hlive, hlink, hflags, hlevel, hbank⟩ := h
  have hB {f : FRef} (hf : t.rd f = s.rd f) : t.rdB f = s.rdB f := by rw [State.rdB, hf, State.rdB]
  constructor
  · rw [watched, watched, hgate, hB hen, hB hflt, hB hstat]
  · intro quiet
    rw [gateCauses, gateCauses, hgate, hB hflt, hB hstat, hB hlive, hB hlink, hB hlevel, hB hbank, hflags]

/-- Two states are alike in what the latch of pair `p` shows. -/
structure LatchSeen (p : Nat) (s t : State) : Prop where
  latched : t.rd (Fld.GDL_STATUS_LATCHED p) = s.rd (Fld.GDL_STATUS_LATCHED p)
  first : t.rd (Fld.GDL_STATUS_FIRST_CAUSE p) = s.rd (Fld.GDL_STATUS_FIRST_CAUSE p)
  cause : t.reg (Reg.GDL_CAUSE p) = s.reg (Reg.GDL_CAUSE p)
  faults : t.rd (Fld.GDL_COUNT_FAULTS p) = s.rd (Fld.GDL_COUNT_FAULTS p)

/-- Beside that, the pair's bit of GDL_LATCHED and its causes are kept, and FAULT_EV stays set. -/
structure LatchKept (p : Nat) (s t : State) : Prop extends LatchSeen p s t, CausesKept p s t where
  bit : t.mapBit Fld.GDL_LATCHED p = s.mapBit Fld.GDL_LATCHED p
  event : s.rd Fld.GDL_EVENTS_FAULT_EV = 1 → t.rd Fld.GDL_EVENTS_FAULT_EV = 1

theorem LatchSeen.refl (p : Nat) (s : State) : LatchSeen p s s := ⟨rfl, rfl, rfl, rfl⟩

theorem LatchSeen.symm {p : Nat} {s t : State} (h : LatchSeen p s t) : LatchSeen p t s :=
  ⟨h.latched.symm, h.first.symm, h.cause.symm, h.faults.symm⟩

theorem LatchKept.refl (p : Nat) (s : State) : LatchKept p s s := ⟨.refl p s, ⟨rfl, fun _ => rfl⟩, rfl, id⟩

theorem LatchKept.trans {p : Nat} {s t u : State} (h : LatchKept p s t) (k : LatchKept p t u) : LatchKept p s u :=
  ⟨⟨k.latched.trans h.latched, k.first.trans h.first, k.cause.trans h.cause, k.faults.trans h.faults⟩,
    ⟨k.watch.trans h.watch, fun x => (k.causes x).trans (h.causes x)⟩, k.bit.trans h.bit, k.event ∘ h.event⟩

theorem LatchSettled.congr {p : Nat} {s s' t t' : State} (h : LatchSettled p s t) (hs : LatchSeen p s s') (ht : LatchKept p t t') :
    LatchSettled p s' t' := by
  have hsc (a b : Nat) : s'.rd ⟨Reg.GDL_CAUSE p, a, b⟩ = s.rd ⟨Reg.GDL_CAUSE p, a, b⟩ := rd_congr _ hs.cause
  have htc (a b : Nat) : t'.rd ⟨Reg.GDL_CAUSE p, a, b⟩ = t.rd ⟨Reg.GDL_CAUSE p, a, b⟩ := rd_congr _ ht.cause
  unfold LatchSettled at h ⊢
  simp only [hsc, htc, hs.latched, hs.first, hs.cause, hs.faults, ht.latched, ht.first, ht.cause, ht.faults, ht.watch, ht.causes, ht.bit]
  by_cases hw : watched t p = false
  · rw [if_pos hw] at h ⊢
    exact h
  · rw [if_neg hw] at h ⊢
    by_cases hl : s.rd (Fld.GDL_STATUS_LATCHED p) = 1
    · rw [if_pos hl] at h ⊢
      exact h
    · rw [if_neg hl] at h ⊢
      by_cases hc : gateCauses true t p ≠ 0
      · rw [if_pos hc] at h ⊢
        obtain ⟨h1, h2, h3, h4, hev, hbit⟩ := h
        exact ⟨h1, h2, h3, h4, ht.event hev, hbit⟩
      · rw [if_neg hc] at h ⊢
        exact h

theorem wordMap_gdlLatched : WordMap Fld.GDL_LATCHED := ⟨fun _ => ⟨rfl, rfl⟩, fun j k h => by simp; omega⟩

/-- The fields that the settling of pair `p`'s latch changes. -/
abbrev gateFields (p : Nat) : List FRef :=
  [Fld.GDL_STATUS_LATCHED p, Fld.GDL_STATUS_FIRST_CAUSE p, Fld.GDL_CAUSE_CAUSE p, Fld.GDL_COUNT_FAULTS p, Fld.GDL_EVENTS_FAULT_EV,
   Fld.GDL_LATCHED (p / 32), logWord]

/-- What the settling of pair `p`'s latch may change. -/
structure GateFrame (p : Nat) (s t : State) : Prop where
  gate : t.gate = s.gate
  fields : FieldsKept (gateFields p) s t
  others : ∀ q, q ≠ p → t.mapBit Fld.GDL_LATCHED q = s.mapBit Fld.GDL_LATCHED q
  event : s.rd Fld.GDL_EVENTS_FAULT_EV = 1 → t.rd Fld.GDL_EVENTS_FAULT_EV = 1

theorem GateFrame.refl (p : Nat) (s : State) : GateFrame p s s := ⟨rfl, .refl _ s, fun _ _ => rfl, id⟩

/-- The latch of pair `p` has risen, before its entry in the log. -/
def gateRisen (p causes : Nat) (s : State) : State :=
  State.wrMapBit ((((((s.wr (Fld.GDL_STATUS_LATCHED p) 1).wr (Fld.GDL_STATUS_FIRST_CAUSE p) (lowestBit causes)).wr (Fld.GDL_CAUSE_CAUSE p) causes).inc
    (Fld.GDL_COUNT_FAULTS p)).wr Fld.GDL_EVENTS_FAULT_EV 1)) Fld.GDL_LATCHED p true

theorem gateRise_eq (p causes : Nat) (s : State) : gateRise p causes s =
    if lowestBit causes = 1 ∨ lowestBit causes = 2 then gateRisen p causes s
    else (gateRisen p causes s).logOnce 0x17 0x0001 p (p + lowestBit causes * 256) := rfl

section
variable {p : Nat} {s : State}

theorem rd_wrGdlLatched {q : Nat} {b : Bool} {f : FRef} (hf : f.addr < 0x1E0810) : (s.wrMapBit Fld.GDL_LATCHED q b).rd f = s.rd f :=
  rd_wr_ne _ _ _ _ (by simp only [Reg.GDL_LATCHED]; omega)

theorem reg_wrGdlLatched {q a : Nat} {b : Bool} (ha : a < 0x1E0810) : (s.wrMapBit Fld.GDL_LATCHED q b).reg a = s.reg a :=
  reg_wr_ne _ _ (by simp only [Reg.GDL_LATCHED]; omega)

theorem gateRisen_fields (causes : Nat) : FieldsKept (gateFields p) s (gateRisen p causes s) := by
  unfold gateRisen
  refine FieldsKept.wr ?_ (by simp [FRef.ok]) (by simp)
  refine FieldsKept.wr ?_ (by decide) (by simp)
  refine FieldsKept.wr ?_ (by simp [FRef.ok]) (by simp)
  refine FieldsKept.wr ?_ (by simp [FRef.ok]) (by simp)
  refine FieldsKept.wr ?_ (by simp [FRef.ok]) (by simp)
  exact FieldsKept.wr (.refl _ s) (by simp [FRef.ok]) (by simp)

/-- What a latch that rises shows (R446). -/
theorem gateRisen_shows (hp : p < 72) {causes : Nat} (hc : causes < 2 ^ 16) :
    let t := gateRisen p causes s
    t.rd (Fld.GDL_STATUS_LATCHED p) = 1 ∧ t.rd (Fld.GDL_CAUSE_CAUSE p) = causes ∧ t.rd (Fld.GDL_STATUS_FIRST_CAUSE p) = lowestBit causes ∧
    t.rd (Fld.GDL_COUNT_FAULTS p) = min (s.rd (Fld.GDL_COUNT_FAULTS p) + 1) 0xFF ∧ t.rd Fld.GDL_EVENTS_FAULT_EV = 1 ∧
    t.mapBit Fld.GDL_LATCHED p = true := by
  have haddr : Reg.GDL_STATUS p < 0x1E0810 ∧ Reg.GDL_CAUSE p < 0x1E0810 ∧ Reg.GDL_COUNT p < 0x1E0810 ∧ Reg.GDL_EVENTS < 0x1E0810 := by
    simp only [Reg.GDL_STATUS, Reg.GDL_CAUSE, Reg.GDL_COUNT, Reg.GDL_EVENTS]
    omega
  obtain ⟨h1, h2, h3, h4⟩ := haddr
  have hlow : lowestBit causes % 32 = lowestBit causes := Nat.mod_eq_of_lt (lowestBit_lt causes)
  have hmod : causes % 65536 = causes := Nat.mod_eq_of_lt hc
  have hcause : 0x1E0808 ≠ 0x1E0008 + 0x10 * p := by omega
  intro t
  have hbit : t.mapBit Fld.GDL_LATCHED p = true := (mapBit_wrMapBit _ wordMap_gdlLatched p p true).trans (if_pos rfl)
  refine ⟨?_, ?_, ?_, ?_, ?_, hbit⟩
  all_goals
    refine (rd_wrGdlLatched (by assumption)).trans ?_
    simp [rd_wr_apart, rd_wr_same, FRef.ok, FRef.apart, FRef.width, hlow, hmod, natMin_eq, hcause]

theorem gateRisen_frame (hp : p < 72) (causes : Nat) : GateFrame p s (gateRisen p causes s) := by
  have hpos : (gateRisen p causes s).rd Fld.GDL_EVENTS_FAULT_EV = 1 :=
    (rd_wrGdlLatched (f := Fld.GDL_EVENTS_FAULT_EV) (by decide)).trans (rd_wr_same _ _ _ (by decide))
  refine ⟨by simp [gateRisen, State.wrMapBit], gateRisen_fields causes, fun q hq => ?_, fun _ => hpos⟩
  have haddr : Reg.GDL_STATUS p < 0x1E0810 ∧ Reg.GDL_CAUSE p < 0x1E0810 ∧ Reg.GDL_COUNT p < 0x1E0810 := by
    simp only [Reg.GDL_STATUS, Reg.GDL_CAUSE, Reg.GDL_COUNT]
    omega
  obtain ⟨h1, h2, h3⟩ := haddr
  have hne (a : Nat) (ha : a < 0x1E0810) : a ≠ Reg.GDL_LATCHED (q / 32) := by simp only [Reg.GDL_LATCHED]; omega
  rw [gateRisen, mapBit_wrMapBit _ wordMap_gdlLatched, if_neg hq]
  refine mapBit_congr _ _ ?_
  rw [inc_eq, reg_wr_ne _ _ (hne _ (by decide)), reg_wr_ne _ _ (hne _ h3), reg_wr_ne _ _ (hne _ h2), reg_wr_ne _ _ (hne _ h1), reg_wr_ne _ _ (hne _ h1)]

theorem GateFrame.logOnce {r : State} {source code unit datum : Nat} (h : GateFrame p r s) : GateFrame p r (s.logOnce source code unit datum) := by
  have hspec := logOnce_spec s source code unit datum
  have hkept : FieldsKept [logWord] s (s.logOnce source code unit datum) := FieldsKept.logOnce (.refl _ s) (by simp)
  generalize s.logOnce source code unit datum = t at *
  refine ⟨?_, h.fields.trans (hkept.mono (by simp)), fun q hq => ?_, fun hev => ?_⟩
  · rw [hspec, h.gate]
  · exact (mapBit_congr _ _ (hkept.regs _ (by simp only [List.forall_mem_singleton, logWord, Reg.LOG_STATUS, Reg.GDL_LATCHED]; omega))).trans (h.others q hq)
  · exact (hkept.rd _ (by decide) (by simp [logWord, FRef.apart, Reg.LOG_STATUS])).trans (h.event hev)

theorem gateRise_frame (hp : p < 72) (causes : Nat) : GateFrame p s (gateRise p causes s) := by
  rw [gateRise_eq]
  split
  · exact gateRisen_frame hp causes
  · exact (gateRisen_frame hp causes).logOnce

theorem settleGatePair_frame (hp : p < 72) : GateFrame p s (settleGatePair p s) := by
  unfold settleGatePair
  split
  · exact .refl p s
  · split
    · refine ⟨rfl, FieldsKept.wr (.refl _ s) (by simp [FRef.ok]) (by simp), fun q _ => ?_, fun h => ?_⟩
      · exact mapBit_congr _ _ (reg_wr_ne _ _ (by simp only [Reg.GDL_CAUSE, Reg.GDL_LATCHED]; omega))
      · exact (rd_wr_ne _ _ _ _ (by simp only [Reg.GDL_CAUSE, Reg.GDL_EVENTS]; omega)).trans h
    · split
      · exact gateRise_frame hp _
      · exact .refl p s

/-- The settling of one latch leaves the causes of every latch, and what the other latches show. -/
theorem GateFrame.causesKept (hp : p < 72) {q : Nat} (hq : q < 72) {t : State} (h : GateFrame p s t) : CausesKept q s t := by
  refine causesKept_of h.gate fun f hf => ?_
  refine h.fields.rd f ?_ ?_
  · simp only [causeFields, List.mem_cons, List.not_mem_nil, or_false] at hf
    rcases hf with rfl | rfl | rfl | rfl | rfl | rfl | rfl | rfl <;> simp [FRef.ok]
  · simp only [causeFields, List.mem_cons, List.not_mem_nil, or_false] at hf
    rcases hf with rfl | rfl | rfl | rfl | rfl | rfl | rfl | rfl <;>
      simp [FRef.apart, logWord, Reg.PWM_CFG, Reg.GDL_CFG, Reg.GDL_STATUS, Reg.GDL_CAUSE, Reg.GDL_COUNT, Reg.GDL_EVENTS, Reg.GDL_EN_STATUS, Reg.GDL_LATCHED, Reg.LOG_STATUS] <;> omega

theorem GateFrame.latchKept (hp : p < 72) {q : Nat} (hq : q < 72) (hne : q ≠ p) {t : State} (h : GateFrame p s t) : LatchKept q s t where
  toCausesKept := h.causesKept hp hq
  latched := h.fields.rd _ (by simp [FRef.ok]) (by simp [FRef.apart, logWord, Reg.LOG_STATUS, Reg.GDL_EVENTS, Reg.GDL_LATCHED, Reg.GDL_STATUS, Reg.GDL_CAUSE, Reg.GDL_COUNT]; omega)
  first := h.fields.rd _ (by simp [FRef.ok]) (by simp [FRef.apart, logWord, Reg.LOG_STATUS, Reg.GDL_EVENTS, Reg.GDL_LATCHED, Reg.GDL_STATUS, Reg.GDL_CAUSE, Reg.GDL_COUNT]; omega)
  cause := h.fields.regs _ (by simp [logWord, Reg.LOG_STATUS, Reg.GDL_EVENTS, Reg.GDL_LATCHED, Reg.GDL_STATUS, Reg.GDL_CAUSE, Reg.GDL_COUNT]; omega)
  faults := h.fields.rd _ (by simp [FRef.ok]) (by simp [FRef.apart, logWord, Reg.LOG_STATUS, Reg.GDL_EVENTS, Reg.GDL_LATCHED, Reg.GDL_STATUS, Reg.GDL_CAUSE, Reg.GDL_COUNT]; omega)
  bit := h.others q hne
  event := h.event

theorem bitIf_le (b : Bool) (i : Nat) : bitIf b i ≤ 2 ^ i := by
  unfold bitIf
  split
  · exact Nat.le_refl _
  · exact Nat.zero_le _

theorem wordCauses_le (flags : Nat) : wordCauses flags ≤ 65504 := by
  have h (i : Nat) (b : Bool) : bitIf b i ≤ 2 ^ i := bitIf_le b i
  have h5 := h 5 (!flags.testBit 10)
  have h6 := h 6 (flags.testBit 9)
  have h7 := h 7 (flags.testBit 8)
  have h8 := h 8 (flags.testBit 7)
  have h9 := h 9 (flags.testBit 6)
  have h10 := h 10 (flags.testBit 5)
  have h11 := h 11 (flags.testBit 4)
  have h12 := h 12 (flags.testBit 3)
  have h13 := h 13 (flags.testBit 2)
  have h14 := h 14 (flags.testBit 1)
  have h15 := h 15 (flags.testBit 0)
  simp only [wordCauses, List.range, List.range.loop, List.foldl_cons, List.foldl_nil, Nat.reduceAdd, Nat.reduceSub]
  omega

theorem gateCauses_lt (quiet : Bool) (s : State) (p : Nat) : gateCauses quiet s p < 2 ^ 16 := by
  have h0 := bitIf_le (!s.gate.tripLoaded) 0
  have h1 := bitIf_le (!s.rdB Fld.GDL_EN_STATUS_GD_EN_LEVEL) 1
  have h2 := bitIf_le (!s.rdB Fld.GDL_EN_STATUS_BANK_OK) 2
  have h3 := bitIf_le (s.rdB (Fld.GDL_CFG_FLT_EN p) && s.rdB (Fld.GDL_STATUS_FLT_LIVE p)) 3
  have h4 := bitIf_le (!s.rdB (Fld.GDL_STATUS_LINK_UP p) && !(quiet && s.gate.quietDown.testBit p)) 4
  have hw := wordCauses_le (s.rd (Fld.GDL_STATUS_LAST_FLAGS p))
  unfold gateCauses
  split
  · split <;> omega
  · omega

theorem gateRise_shows (hp : p < 72) {causes : Nat} (hc : causes < 2 ^ 16) :
    let t := gateRise p causes s
    t.rd (Fld.GDL_STATUS_LATCHED p) = 1 ∧ t.rd (Fld.GDL_CAUSE_CAUSE p) = causes ∧ t.rd (Fld.GDL_STATUS_FIRST_CAUSE p) = lowestBit causes ∧
    t.rd (Fld.GDL_COUNT_FAULTS p) = min (s.rd (Fld.GDL_COUNT_FAULTS p) + 1) 0xFF ∧ t.rd Fld.GDL_EVENTS_FAULT_EV = 1 ∧
    t.mapBit Fld.GDL_LATCHED p = true := by
  have hshows := gateRisen_shows (s := s) hp hc
  rw [gateRise_eq]
  split
  · exact hshows
  · have hreg (a : Nat) (ha : a ≠ Reg.LOG_STATUS) :
        ((gateRisen p causes s).logOnce 0x17 0x0001 p (p + lowestBit causes * 256)).reg a = (gateRisen p causes s).reg a := reg_logOnce _ _ _ _ _ ha
    generalize (gateRisen p causes s).logOnce 0x17 0x0001 p (p + lowestBit causes * 256) = t at *
    have hrd (f : FRef) (hf : f.addr ≠ Reg.LOG_STATUS) : t.rd f = (gateRisen p causes s).rd f := rd_congr f (hreg _ hf)
    have hbit : t.mapBit Fld.GDL_LATCHED p = (gateRisen p causes s).mapBit Fld.GDL_LATCHED p :=
      mapBit_congr _ _ (hreg _ (by simp only [Reg.GDL_LATCHED, Reg.LOG_STATUS]; omega))
    obtain ⟨h1, h2, h3, h4, h5, h6⟩ := hshows
    exact ⟨(hrd _ (by simp only [Reg.GDL_STATUS, Reg.LOG_STATUS]; omega)).trans h1, (hrd _ (by simp only [Reg.GDL_CAUSE, Reg.LOG_STATUS]; omega)).trans h2,
      (hrd _ (by simp only [Reg.GDL_STATUS, Reg.LOG_STATUS]; omega)).trans h3, (hrd _ (by simp only [Reg.GDL_COUNT, Reg.LOG_STATUS]; omega)).trans h4,
      (hrd _ (by decide)).trans h5, hbit.trans h6⟩

theorem latched_lt (s : State) (p : Nat) : s.rd (Fld.GDL_STATUS_LATCHED p) < 2 := rd_lt s (Fld.GDL_STATUS_LATCHED p) (by simp [FRef.ok])

theorem settleGatePair_settles (hp : p < 72) : LatchSettled p s (settleGatePair p s) := by
  have hkept := (settleGatePair_frame (s := s) hp).causesKept hp hp
  have hlt := gateCauses_lt true s p
  have hone := latched_lt s p
  unfold LatchSettled
  simp only [hkept.watch, hkept.causes]
  by_cases hw : watched s p = false
  · have heq : settleGatePair p s = s := if_pos (by rw [hw]; rfl)
    rw [if_pos hw, heq]
    exact ⟨rfl, rfl⟩
  · have hwatch : ¬(!watched s p) = true := by simpa using hw
    rw [if_neg hw]
    by_cases hl : s.rd (Fld.GDL_STATUS_LATCHED p) = 1
    · have heq : settleGatePair p s = s.wr (Fld.GDL_CAUSE_CAUSE p) (s.rd (Fld.GDL_CAUSE_CAUSE p) ||| gateCauses true s p) :=
        (if_neg hwatch).trans (if_pos (by simp [hl]))
      have hor : s.rd (Fld.GDL_CAUSE_CAUSE p) ||| gateCauses true s p < 2 ^ 16 :=
        Nat.or_lt_two_pow (rd_lt s (Fld.GDL_CAUSE_CAUSE p) (by simp [FRef.ok])) hlt
      rw [if_pos hl, heq]
      exact ⟨(rd_wr_ne _ _ _ _ (by simp)).trans hl, (rd_wr_same _ _ _ (by simp [FRef.ok])).trans (Nat.mod_eq_of_lt hor), rd_wr_ne _ _ _ _ (by simp),
        rd_wr_ne _ _ _ _ (by simp)⟩
    · have hclear : s.rd (Fld.GDL_STATUS_LATCHED p) = 0 := by omega
      have hnot : ¬s.rdB (Fld.GDL_STATUS_LATCHED p) = true := by simp [hclear]
      rw [if_neg hl]
      by_cases hc : gateCauses true s p ≠ 0
      · have heq : settleGatePair p s = gateRise p (gateCauses true s p) s := (if_neg hwatch).trans ((if_neg hnot).trans (if_pos hc))
        rw [if_pos hc, heq]
        exact gateRise_shows hp hlt
      · have heq : settleGatePair p s = s := (if_neg hwatch).trans ((if_neg hnot).trans (if_neg hc))
        rw [if_neg hc, heq]
        exact ⟨hclear, rfl⟩

end

/-- `LatchSettled` as a structure, which the elaborator does not unfold. -/
structure LatchMet (p : Nat) (s t : State) : Prop where
  settled : LatchSettled p s t

/-- Every gate-drive latch meets its causes. -/
theorem forEach_settleGatePair (s : State) {p : Nat} (hp : p < 72) : LatchMet p s (forEach pairs settleGatePair s) :=
  (forEach_settles (R := LatchMet) (K := LatchKept) (n := 72) List.nodup_range (fun _ => pairs_lt) LatchKept.refl (fun _ _ _ _ h k => h.trans k)
    (fun q _ _ t h hr => ⟨hr.settled.congr h.toLatchSeen.symm (.refl q t)⟩) (fun q s _ _ hr h => ⟨hr.settled.congr (.refl q s) h⟩)
    (fun _ hq _ => ⟨settleGatePair_settles (pairs_lt hq)⟩)
    (fun _ hq _ hj hne _ => (settleGatePair_frame (pairs_lt hq)).latchKept (pairs_lt hq) hj hne) s).1 p (List.mem_range.mpr hp)

/-- The latch of pair `p` shows the same in two states, and so does its bit of GDL_LATCHED. -/
structure LatchCalm (p : Nat) (s t : State) : Prop extends LatchSeen p s t where
  bit : t.mapBit Fld.GDL_LATCHED p = s.mapBit Fld.GDL_LATCHED p

theorem LatchCalm.refl (p : Nat) (s : State) : LatchCalm p s s := ⟨.refl p s, rfl⟩

theorem LatchCalm.trans {p : Nat} {s t u : State} (h : LatchCalm p s t) (k : LatchCalm p t u) : LatchCalm p s u :=
  ⟨⟨k.latched.trans h.latched, k.first.trans h.first, k.cause.trans h.cause, k.faults.trans h.faults⟩, k.bit.trans h.bit⟩

theorem LatchKept.calm {p : Nat} {s t : State} (h : LatchKept p s t) : LatchCalm p s t := ⟨h.toLatchSeen, h.bit⟩

/-- A latch that is clear and has no cause stays as it is. -/
theorem forEach_settleGatePair_calm (s : State) {p : Nat} (hp : p < 72) :
    s.rd (Fld.GDL_STATUS_LATCHED p) = 0 → gateCauses true s p = 0 → LatchCalm p s (forEach pairs settleGatePair s) := by
  refine (forEach_settles (K := LatchKept) (n := 72)
    (R := fun q s t => s.rd (Fld.GDL_STATUS_LATCHED q) = 0 → gateCauses true s q = 0 → LatchCalm q s t)
    List.nodup_range (fun _ => pairs_lt) LatchKept.refl (fun q s t u h k => h.trans k)
    (fun q s s' t h hr hl hc => h.calm.trans (hr (h.latched.trans hl) ((h.causes true).trans hc))) (fun q s t t' hr h hl hc => (hr hl hc).trans h.calm)
    (fun q _ s hl hc => ?_) (fun q hq j hj hne s => ?_) s).1 p (List.mem_range.mpr hp)
  · unfold settleGatePair
    split
    · exact .refl q s
    · rw [if_neg (by simp [hl]), if_neg (not_not.mpr hc)]
      exact .refl q s
  · exact (settleGatePair_frame (pairs_lt hq)).latchKept (pairs_lt hq) hj hne

/-! ### The settling of everything -/

/-- What every step of a loop keeps, the loop keeps. -/
theorem forEach_preserves {P : State → Prop} {f : Nat → State → State} {l : List Nat} (hstep : ∀ i ∈ l, ∀ s, P s → P (f i s)) {s : State} (h : P s) :
    P (forEach l f s) := by
  induction l generalizing s with
  | nil => exact h
  | cons a l ih => exact ih (fun i hi => hstep i (List.mem_cons_of_mem _ hi)) (hstep a List.mem_cons_self s h)

/-- The state in which the pairs meet their sources. -/
def gateSettled (s : State) : State := settleGate (s.wr Fld.TL_STATUS_TL (tripLines s))

/-- The state in which every pair has met its sources, before the entries of the log. -/
def pairsSettled (pulse : Nat → Nat) (s : State) : State := forEach pairs (fun p s => settlePair (pulse p) p s) (gateSettled s)

theorem settleTrips_logs (pulse : Nat → Nat) (s : State) : RegsLogPerf (fun a => decide (a = Reg.LOG_STATUS)) (pairsSettled pulse s) (settleTrips pulse s) :=
  RegsLogPerf.forEach _ _ (fun k _ _ ht => logTrips_can (decide_eq_true rfl) _ k ht) (RegsLogPerf.refl _ _)

theorem pairsSettled_scope (pulse : Nat → Nat) (s : State) : RegsLogPerf pairReg (gateSettled s) (pairsSettled pulse s) :=
  RegsLogPerf.forEach _ _ (fun _ hq _ ht => ht.trans ((settlePair_frame (pairs_lt hq) _).scope (pairs_lt hq))) (RegsLogPerf.refl _ _)

/-- After the gate-drive latches have settled only the pairs' registers and the log change. -/
theorem settleTrips_scope (pulse : Nat → Nat) (s : State) : RegsLogPerf pairReg (gateSettled s) (settleTrips pulse s) :=
  (pairsSettled_scope pulse s).trans ((settleTrips_logs pulse s).mono (fun a ha => by simp [pairReg] at ha ⊢; exact ha.1.1))

theorem settleGatePair_reg {p a : Nat} (hp : p < 72) (ha : a < 0x1E0000) (hlog : a ≠ Reg.LOG_STATUS) (s : State) : (settleGatePair p s).reg a = s.reg a := by
  refine (settleGatePair_frame hp).fields.regs a ?_
  simp only [List.forall_mem_cons, List.not_mem_nil, false_imp_iff, implies_true, and_true, logWord, Reg.GDL_STATUS, Reg.GDL_CAUSE, Reg.GDL_COUNT,
    Reg.GDL_EVENTS, Reg.GDL_LATCHED]
  omega

/-- Below the gate-drive block the settling of the latches changes TL_STATUS alone. -/
theorem gateSettled_reg {a : Nat} (ha : a < 0x1E0000) (hlog : a ≠ Reg.LOG_STATUS) (htl : a ≠ Reg.TL_STATUS) (s : State) :
    (gateSettled s).reg a = s.reg a := by
  have hany : a ≠ Reg.GDL_EN_STATUS := by simp only [Reg.GDL_EN_STATUS]; omega
  have hloop : (forEach pairs settleGatePair (s.wr Fld.TL_STATUS_TL (tripLines s))).reg a = s.reg a :=
    forEach_preserves (P := fun t => t.reg a = s.reg a) (fun q hq t ht => (settleGatePair_reg (pairs_lt hq) ha hlog t).trans ht)
      (reg_wr_ne _ _ (Ne.symm htl))
  exact (reg_wr_ne _ _ (Ne.symm hany)).trans hloop

theorem gateSettled_pairKept {p : Nat} (hp : p < 72) (s : State) : PairKept p s (gateSettled s) where
  status := gateSettled_reg (by simp only [Reg.PWM_STATUS]; omega) (by simp only [Reg.PWM_STATUS, Reg.LOG_STATUS]; omega)
    (by simp only [Reg.PWM_STATUS, Reg.TL_STATUS]; omega) s
  src := gateSettled_reg (by simp only [Reg.PWM_TRIP_SRC]; omega) (by simp only [Reg.PWM_TRIP_SRC, Reg.LOG_STATUS]; omega)
    (by simp only [Reg.PWM_TRIP_SRC, Reg.TL_STATUS]; omega) s
  events := gateSettled_reg (by simp only [Reg.PWM_EVENTS]; omega) (by simp only [Reg.PWM_EVENTS, Reg.LOG_STATUS]; omega)
    (by simp only [Reg.PWM_EVENTS, Reg.TL_STATUS]; omega) s
  count := gateSettled_reg (by simp only [Reg.PWM_COUNT]; omega) (by simp only [Reg.PWM_COUNT, Reg.LOG_STATUS]; omega)
    (by simp only [Reg.PWM_COUNT, Reg.TL_STATUS]; omega) s
  tripped := mapBit_congr _ _ (gateSettled_reg (by simp only [Reg.PWM_TRIPPED]; omega) (by simp only [Reg.PWM_TRIPPED, Reg.LOG_STATUS]; omega)
    (by simp only [Reg.PWM_TRIPPED, Reg.TL_STATUS]; omega) s)

theorem PairKept.symm {p : Nat} {s t : State} (h : PairKept p s t) : PairKept p t s :=
  ⟨h.status.symm, h.src.symm, h.events.symm, h.count.symm, h.tripped.symm⟩

theorem RegsLogPerf.pairKept {p : Nat} {s t : State} (h : RegsLogPerf (fun a => decide (a = Reg.LOG_STATUS)) s t) : PairKept p s t where
  status := h.regs _ (decide_eq_false (by simp only [Reg.PWM_STATUS, Reg.LOG_STATUS]; omega))
  src := h.regs _ (decide_eq_false (by simp only [Reg.PWM_TRIP_SRC, Reg.LOG_STATUS]; omega))
  events := h.regs _ (decide_eq_false (by simp only [Reg.PWM_EVENTS, Reg.LOG_STATUS]; omega))
  count := h.regs _ (decide_eq_false (by simp only [Reg.PWM_COUNT, Reg.LOG_STATUS]; omega))
  tripped := mapBit_congr _ _ (h.regs _ (decide_eq_false (by simp only [Reg.PWM_TRIPPED, Reg.LOG_STATUS]; omega)))

/-- The settling of the trips settles every pair (R421, R423). -/
theorem settleTrips_pair (pulse : Nat → Nat) (s : State) {p : Nat} (hp : p < 72) : PairSettled (pulse p) p s (settleTrips pulse s) := by
  have hlogs := settleTrips_logs pulse s
  refine (forEach_settlePair pulse (gateSettled s) hp).congr (gateSettled_pairKept hp s).symm hlogs.pairKept ?_
  exact (hlogs.mono (fun a ha => by simp [pairReg] at ha ⊢; exact ha.1.1)).sources hp

theorem causeFields_ok {p : Nat} : ∀ f ∈ causeFields p, f.ok := by
  intro f hf
  simp only [causeFields, List.mem_cons, List.not_mem_nil, or_false] at hf
  rcases hf with rfl | rfl | rfl | rfl | rfl | rfl | rfl | rfl <;> simp [FRef.ok]

theorem latchKept_any {p : Nat} (hp : p < 72) (s : State) (b : Bool) : LatchKept p s (s.wrB Fld.GDL_EN_STATUS_GD_ANY b) where
  toCausesKept := causesKept_of rfl fun f hf => by
    refine rd_wr_apart _ _ _ _ (by decide) (causeFields_ok f hf) ?_
    simp only [causeFields, List.mem_cons, List.not_mem_nil, or_false] at hf
    rcases hf with rfl | rfl | rfl | rfl | rfl | rfl | rfl | rfl <;> simp [FRef.apart, Reg.GDL_EN_STATUS, Reg.PWM_CFG, Reg.GDL_CFG, Reg.GDL_STATUS]
  latched := rd_wr_ne _ _ _ _ (by simp only [Reg.GDL_EN_STATUS, Reg.GDL_STATUS]; omega)
  first := rd_wr_ne _ _ _ _ (by simp only [Reg.GDL_EN_STATUS, Reg.GDL_STATUS]; omega)
  cause := reg_wr_ne _ _ (by simp only [Reg.GDL_EN_STATUS, Reg.GDL_CAUSE]; omega)
  faults := rd_wr_ne _ _ _ _ (by simp only [Reg.GDL_EN_STATUS, Reg.GDL_COUNT]; omega)
  bit := mapBit_congr _ _ (reg_wr_ne _ _ (by simp only [Reg.GDL_EN_STATUS, Reg.GDL_LATCHED]; omega))
  event h := (rd_wr_ne _ _ _ _ (by decide)).trans h

theorem pairReg_gate {a : Nat} (ha : 0x1E0000 ≤ a) : pairReg a = false := by
  simp [pairReg, Reg.LOG_STATUS]
  omega

/-- The settling of the pairs leaves the gate-drive latches. -/
theorem RegsLogPerf.latchKept {p : Nat} (hp : p < 72) {s t : State} (h : RegsLogPerf pairReg s t) : LatchKept p s t where
  toCausesKept := causesKept_of (by rw [h.rest]) fun f hf => by
    refine rd_congr _ (h.regs _ ?_)
    simp only [causeFields, List.mem_cons, List.not_mem_nil, or_false] at hf
    rcases hf with rfl | rfl | rfl | rfl | rfl | rfl | rfl | rfl
    case inl =>
      simp [pairReg, Reg.LOG_STATUS, Reg.PWM_CFG]
      omega
    all_goals exact pairReg_gate (by simp only [Reg.GDL_CFG, Reg.GDL_STATUS, Reg.GDL_EN_STATUS] <;> omega)
  latched := rd_congr _ (h.regs _ (pairReg_gate (by simp only [Reg.GDL_STATUS]; omega)))
  first := rd_congr _ (h.regs _ (pairReg_gate (by simp only [Reg.GDL_STATUS]; omega)))
  cause := h.regs _ (pairReg_gate (by simp only [Reg.GDL_CAUSE]; omega))
  faults := rd_congr _ (h.regs _ (pairReg_gate (by simp only [Reg.GDL_COUNT]; omega)))
  bit := mapBit_congr _ _ (h.regs _ (pairReg_gate (by simp only [Reg.GDL_LATCHED]; omega)))
  event he := (rd_congr _ (h.regs _ (pairReg_gate (by decide)))).trans he

/-- The settling of the trips settles every latch (R445, R446). -/
theorem settleTrips_latch (pulse : Nat → Nat) (s : State) {p : Nat} (hp : p < 72) : LatchMet p s (settleTrips pulse s) := by
  have hloop := forEach_settleGatePair (s.wr Fld.TL_STATUS_TL (tripLines s)) hp
  have hseen : LatchSeen p (s.wr Fld.TL_STATUS_TL (tripLines s)) s :=
    ⟨(rd_wr_ne _ _ _ _ (by simp only [Reg.TL_STATUS, Reg.GDL_STATUS]; omega)).symm, (rd_wr_ne _ _ _ _ (by simp only [Reg.TL_STATUS, Reg.GDL_STATUS]; omega)).symm,
      (reg_wr_ne _ _ (by simp only [Reg.TL_STATUS, Reg.GDL_CAUSE]; omega)).symm, (rd_wr_ne _ _ _ _ (by simp only [Reg.TL_STATUS, Reg.GDL_COUNT]; omega)).symm⟩
  have hany := latchKept_any hp (forEach pairs settleGatePair (s.wr Fld.TL_STATUS_TL (tripLines s)))
    (gdAny (forEach pairs settleGatePair (s.wr Fld.TL_STATUS_TL (tripLines s))))
  have hpairs : LatchKept p (gateSettled s) (settleTrips pulse s) := (settleTrips_scope pulse s).latchKept hp
  have hall : LatchKept p (forEach pairs settleGatePair (s.wr Fld.TL_STATUS_TL (tripLines s))) (settleTrips pulse s) := hany.trans hpairs
  generalize forEach pairs settleGatePair (s.wr Fld.TL_STATUS_TL (tripLines s)) = g at hloop hall
  generalize settleTrips pulse s = t at hall ⊢
  exact ⟨hloop.settled.congr hseen hall⟩

/-- Every latch and every pair has met its sources, with the pulse sources of one cycle. -/
structure TripsMet (pulse : Nat → Nat) (s t : State) : Prop where
  pair : ∀ p, p < 72 → PairSettled (pulse p) p s t
  latch : ∀ p, p < 72 → LatchSettled p s t

theorem settleTrips_met (pulse : Nat → Nat) (s : State) : TripsMet pulse s (settleTrips pulse s) :=
  ⟨fun _ hp => settleTrips_pair pulse s hp, fun _ hp => (settleTrips_latch pulse s hp).settled⟩

/-- What has met its sources from one state has met them from every state in which the pairs and the latches show the same. -/
theorem TripsMet.of_seen {pulse : Nat → Nat} {s s' t : State} (h : TripsMet pulse s t) (hpairs : ∀ p, p < 72 → PairKept p s s')
    (hlatches : ∀ p, p < 72 → LatchSeen p s s') : TripsMet pulse s' t :=
  ⟨fun p hp => (h.pair p hp).congr (hpairs p hp) (.refl p t) (.refl p t), fun p hp => (h.latch p hp).congr (hlatches p hp) (.refl p t)⟩

/-- A field of the gate-drive block beside those that follow the latches. -/
structure GateApart (f : FRef) : Prop where
  ok : f.ok
  block : 0x1E0000 ≤ f.addr
  any : Fld.GDL_EN_STATUS_GD_ANY.apart f
  latches : ∀ p, p < 72 → ∀ g ∈ gateFields p, g.apart f

theorem settleTrips_gateField (pulse : Nat → Nat) (s : State) {f : FRef} (hf : GateApart f) : (settleTrips pulse s).rd f = s.rd f := by
  have hpair : pairReg f.addr = false := pairReg_gate hf.block
  have hloop : (forEach pairs settleGatePair (s.wr Fld.TL_STATUS_TL (tripLines s))).rd f = s.rd f := by
    refine forEach_preserves (P := fun t => t.rd f = s.rd f) (fun q hq t ht => ?_) ?_
    · exact ((settleGatePair_frame (pairs_lt hq)).fields.rd f hf.ok (hf.latches q (pairs_lt hq))).trans ht
    · have := hf.block
      exact rd_wr_ne _ _ _ _ (by simp only [Reg.TL_STATUS]; omega)
  refine (rd_congr f ((settleTrips_scope pulse s).regs _ hpair)).trans ?_
  exact (rd_wr_apart _ _ _ _ (by decide) hf.ok hf.any).trans hloop

theorem causesKept_lines (p : Nat) (s : State) : CausesKept p s (s.wr Fld.TL_STATUS_TL (tripLines s)) := causesKept_of rfl fun f hf => by
  refine rd_wr_ne _ _ _ _ ?_
  simp only [causeFields, List.mem_cons, List.not_mem_nil, or_false] at hf
  rcases hf with rfl | rfl | rfl | rfl | rfl | rfl | rfl | rfl <;>
    simp [Reg.TL_STATUS, Reg.PWM_CFG, Reg.GDL_CFG, Reg.GDL_STATUS, Reg.GDL_EN_STATUS] <;> omega

theorem CausesKept.trans {p : Nat} {s t u : State} (h : CausesKept p s t) (k : CausesKept p t u) : CausesKept p s u :=
  ⟨k.watch.trans h.watch, fun x => (k.causes x).trans (h.causes x)⟩

/-- The settling of the trips leaves the causes of the latches. -/
theorem settleTrips_causes (pulse : Nat → Nat) (s : State) {p : Nat} (hp : p < 72) : CausesKept p s (settleTrips pulse s) := by
  have hloop : CausesKept p s (forEach pairs settleGatePair (s.wr Fld.TL_STATUS_TL (tripLines s))) :=
    forEach_preserves (P := fun t => CausesKept p s t) (fun q hq t ht => ht.trans ((settleGatePair_frame (pairs_lt hq)).causesKept (pairs_lt hq) hp))
      (causesKept_lines p s)
  have hany := latchKept_any hp (forEach pairs settleGatePair (s.wr Fld.TL_STATUS_TL (tripLines s)))
    (gdAny (forEach pairs settleGatePair (s.wr Fld.TL_STATUS_TL (tripLines s))))
  exact (hloop.trans hany.toCausesKept).trans ((settleTrips_scope pulse s).latchKept hp).toCausesKept

/-- A latch that is clear and has no cause stays as it is. -/
theorem settleTrips_calm (pulse : Nat → Nat) (s : State) {p : Nat} (hp : p < 72) (hl : s.rd (Fld.GDL_STATUS_LATCHED p) = 0)
    (hc : gateCauses true s p = 0) : LatchCalm p s (settleTrips pulse s) := by
  have hlines : LatchCalm p s (s.wr Fld.TL_STATUS_TL (tripLines s)) :=
    ⟨⟨rd_wr_ne _ _ _ _ (by simp only [Reg.TL_STATUS, Reg.GDL_STATUS]; omega), rd_wr_ne _ _ _ _ (by simp only [Reg.TL_STATUS, Reg.GDL_STATUS]; omega),
      reg_wr_ne _ _ (by simp only [Reg.TL_STATUS, Reg.GDL_CAUSE]; omega), rd_wr_ne _ _ _ _ (by simp only [Reg.TL_STATUS, Reg.GDL_COUNT]; omega)⟩,
      mapBit_congr _ _ (reg_wr_ne _ _ (by simp only [Reg.TL_STATUS, Reg.GDL_LATCHED]; omega))⟩
  have hloop := forEach_settleGatePair_calm (s.wr Fld.TL_STATUS_TL (tripLines s)) hp (hlines.latched.trans hl) (((causesKept_lines p s).causes true).trans hc)
  have hany := (latchKept_any hp (forEach pairs settleGatePair (s.wr Fld.TL_STATUS_TL (tripLines s)))
    (gdAny (forEach pairs settleGatePair (s.wr Fld.TL_STATUS_TL (tripLines s))))).calm
  exact ((hlines.trans hloop).trans hany).trans ((settleTrips_scope pulse s).latchKept hp).calm

end Sys2Proof.Machine
end
-- ==== Sys2Proof/Proofs/GateDrive.lean ====
section
/-! PROOFS. Proofs/GateDrive.lean: the inputs of the gate-drive latches and GD_EN (O39). -/
namespace Sys2Proof.Machine

/-! ### Fields beside those of the latches -/

section
variable {p : Nat} (hp : p < 72)
include hp

/-- The fields of GDL_STATUS that show the inputs. -/
theorem gateApart_status {hi lo : Nat} (hok : lo ≤ hi ∧ hi < 32) (hbits : 25 < lo ∨ hi < 16) : GateApart ⟨Reg.GDL_STATUS p, hi, lo⟩ where
  ok := hok
  block := by simp only [Reg.GDL_STATUS]; omega
  any := .inl (by simp only [Reg.GDL_STATUS, Reg.GDL_EN_STATUS]; omega)
  latches q hq g hg := by
    simp only [List.mem_cons, List.not_mem_nil, or_false] at hg
    rcases hg with rfl | rfl | rfl | rfl | rfl | rfl | rfl <;>
      simp only [FRef.apart, logWord, Reg.GDL_STATUS, Reg.GDL_CAUSE, Reg.GDL_COUNT, Reg.GDL_EVENTS, Reg.GDL_LATCHED, Reg.LOG_STATUS] <;> omega

theorem gateApart_count {hi lo : Nat} (hok : lo ≤ hi ∧ hi < 24) : GateApart ⟨Reg.GDL_COUNT p, hi, lo⟩ where
  ok := ⟨hok.1, by show hi < 32; omega⟩
  block := by simp only [Reg.GDL_COUNT]; omega
  any := .inl (by simp only [Reg.GDL_COUNT, Reg.GDL_EN_STATUS]; omega)
  latches q hq g hg := by
    simp only [List.mem_cons, List.not_mem_nil, or_false] at hg
    rcases hg with rfl | rfl | rfl | rfl | rfl | rfl | rfl <;>
      simp only [FRef.apart, logWord, Reg.GDL_STATUS, Reg.GDL_CAUSE, Reg.GDL_COUNT, Reg.GDL_EVENTS, Reg.GDL_LATCHED, Reg.LOG_STATUS] <;> omega

end

/-- The events of the block beside FAULT_EV. -/
theorem gateApart_events {hi lo : Nat} (hok : lo ≤ hi ∧ hi < 32) (hlo : 0 < lo) : GateApart ⟨Reg.GDL_EVENTS, hi, lo⟩ where
  ok := hok
  block := show 0x1E0000 ≤ Reg.GDL_EVENTS by decide
  any := .inl (show Reg.GDL_EN_STATUS ≠ Reg.GDL_EVENTS by decide)
  latches q hq g hg := by
    simp only [List.mem_cons, List.not_mem_nil, or_false] at hg
    rcases hg with rfl | rfl | rfl | rfl | rfl | rfl | rfl <;>
      simp only [FRef.apart, logWord, Reg.GDL_STATUS, Reg.GDL_CAUSE, Reg.GDL_COUNT, Reg.GDL_EVENTS, Reg.GDL_LATCHED, Reg.LOG_STATUS] <;> omega

/-- The fields of GDL_EN_STATUS beside GD_ANY. -/
theorem gateApart_enStatus {hi lo : Nat} (hok : lo ≤ hi ∧ hi < 32) (hbits : 29 < lo ∨ hi < 29) : GateApart ⟨Reg.GDL_EN_STATUS, hi, lo⟩ where
  ok := hok
  block := show 0x1E0000 ≤ Reg.GDL_EN_STATUS by decide
  any := .inr hbits.symm
  latches q hq g hg := by
    simp only [List.mem_cons, List.not_mem_nil, or_false] at hg
    rcases hg with rfl | rfl | rfl | rfl | rfl | rfl | rfl <;>
      simp only [FRef.apart, logWord, Reg.GDL_STATUS, Reg.GDL_CAUSE, Reg.GDL_COUNT, Reg.GDL_EVENTS, Reg.GDL_EN_STATUS, Reg.GDL_LATCHED, Reg.LOG_STATUS] <;> omega

/-! ### The settling after an input -/

/-- What an input of the gate drives may change before the trips settle: fields that show inputs, and what lies outside the registers. -/
structure InputShown (s u : State) : Prop where
  regs : RegsKeptBut tripReg s u
  pairs : ∀ a, 0x1C0000 ≤ a → a < 0x1E0000 → u.reg a = s.reg a
  latches : ∀ p, p < 72 → LatchSeen p u s

theorem InputShown.pairKept {s u : State} (h : InputShown s u) {p : Nat} (hp : p < 72) : PairKept p u s where
  status := (h.pairs _ (by simp only [Reg.PWM_STATUS]; omega) (by simp only [Reg.PWM_STATUS]; omega)).symm
  src := (h.pairs _ (by simp only [Reg.PWM_TRIP_SRC]; omega) (by simp only [Reg.PWM_TRIP_SRC]; omega)).symm
  events := (h.pairs _ (by simp only [Reg.PWM_EVENTS]; omega) (by simp only [Reg.PWM_EVENTS]; omega)).symm
  count := (h.pairs _ (by simp only [Reg.PWM_COUNT]; omega) (by simp only [Reg.PWM_COUNT]; omega)).symm
  tripped := mapBit_congr _ _ (h.pairs _ (by simp only [Reg.PWM_TRIPPED]; omega) (by simp only [Reg.PWM_TRIPPED]; omega)).symm

/-- The settling after an input: every latch and pair has met its sources. -/
structure InputSettled (s u t : State) : Prop where
  settled : AllSettled s t
  rest : t = { u with regs := t.regs, log := t.log, perf := t.perf }
  regs : RegsKeptBut tripReg s t
  field : ∀ f, GateApart f → t.rd f = u.rd f

theorem InputShown.settle {s u : State} (h : InputShown s u) : InputSettled s u (settleTrips noPulse u) := by
  have hmet := (settleTrips_met noPulse u).of_seen (fun _ hp => h.pairKept hp) h.latches
  have hspec := settleTrips_spec noPulse u
  have hfield (f : FRef) (hf : GateApart f) := settleTrips_gateField noPulse u hf
  generalize settleTrips noPulse u = t at *
  exact ⟨fun p hp => ⟨hmet.pair p hp, hmet.latch p hp⟩, hspec.rest, fun a ha => (hspec.regs a ha).trans (h.regs a ha), hfield⟩

/-- The fields that an input of a latch may be shown in. -/
structure InputField (f : FRef) : Prop extends GateApart f where
  trip : tripReg f.addr = true
  cause : ∀ p, p < 72 → f.addr ≠ Reg.GDL_CAUSE p

theorem inputField_status {p : Nat} (hp : p < 72) {hi lo : Nat} (hok : lo ≤ hi ∧ hi < 32) (hbits : 25 < lo ∨ hi < 16) :
    InputField ⟨Reg.GDL_STATUS p, hi, lo⟩ :=
  ⟨gateApart_status hp hok hbits, tripReg_gdlStatus hp, fun q _ => by simp only [Reg.GDL_STATUS, Reg.GDL_CAUSE]; omega⟩

theorem inputField_count {p : Nat} (hp : p < 72) {hi lo : Nat} (hok : lo ≤ hi ∧ hi < 24) : InputField ⟨Reg.GDL_COUNT p, hi, lo⟩ :=
  ⟨gateApart_count hp hok, tripReg_gdlCount hp, fun q _ => by simp only [Reg.GDL_COUNT, Reg.GDL_CAUSE]; omega⟩

theorem inputField_events {hi lo : Nat} (hok : lo ≤ hi ∧ hi < 32) (hlo : 0 < lo) : InputField ⟨Reg.GDL_EVENTS, hi, lo⟩ :=
  ⟨gateApart_events hok hlo, show tripReg Reg.GDL_EVENTS = true by decide, fun q _ => by simp only [Reg.GDL_EVENTS, Reg.GDL_CAUSE]; omega⟩

theorem inputField_enStatus {hi lo : Nat} (hok : lo ≤ hi ∧ hi < 32) (hbits : 29 < lo ∨ hi < 29) : InputField ⟨Reg.GDL_EN_STATUS, hi, lo⟩ :=
  ⟨gateApart_enStatus hok hbits, show tripReg Reg.GDL_EN_STATUS = true by decide, fun q _ => by simp only [Reg.GDL_EN_STATUS, Reg.GDL_CAUSE]; omega⟩

theorem apart_symm {f g : FRef} (h : f.apart g) : g.apart f := h.imp Ne.symm Or.symm

theorem InputField.ne_pair {f : FRef} (hf : InputField f) {a : Nat} (ha : a < 0x1E0000) : f.addr ≠ a := by
  have := hf.block
  omega

section
variable {s u : State}

theorem InputShown.refl (s : State) : InputShown s s := ⟨fun _ _ => rfl, fun _ _ _ => rfl, fun p _ => .refl p s⟩

theorem InputShown.of_regs (h : InputShown s u) {v : State} (hv : v.regs = u.regs) : InputShown s v where
  regs a ha := (reg_congr hv a).trans (h.regs a ha)
  pairs a ha hb := (reg_congr hv a).trans (h.pairs a ha hb)
  latches p hp := ⟨(h.latches p hp).latched.trans (rd_congr _ (reg_congr hv _)).symm, (h.latches p hp).first.trans (rd_congr _ (reg_congr hv _)).symm,
    (h.latches p hp).cause.trans (reg_congr hv _).symm, (h.latches p hp).faults.trans (rd_congr _ (reg_congr hv _)).symm⟩

theorem InputShown.wr (h : InputShown s u) {f : FRef} (v : Nat) (hf : InputField f) : InputShown s (u.wr f v) where
  regs a ha := (reg_wr_ne u v (fun he : f.addr = a => Bool.false_ne_true (ha.symm.trans (he ▸ hf.trip)))).trans (h.regs a ha)
  pairs a ha hb := (reg_wr_ne u v (hf.ne_pair hb)).trans (h.pairs a ha hb)
  latches p hp := by
    have hk := h.latches p hp
    have hkeep (g : FRef) (hg : g ∈ gateFields p) (hok : g.ok) : u.rd g = (u.wr f v).rd g :=
      (rd_wr_apart u f g v hf.ok hok (apart_symm (hf.latches p hp g hg))).symm
    exact ⟨hk.latched.trans (hkeep _ (by simp) (by simp [FRef.ok])), hk.first.trans (hkeep _ (by simp) (by simp [FRef.ok])),
      hk.cause.trans (reg_wr_ne u v (hf.cause p hp)).symm, hk.faults.trans (hkeep _ (by simp) (by simp [FRef.ok]))⟩

theorem InputShown.inc (h : InputShown s u) {f : FRef} (hf : InputField f) : InputShown s (u.inc f) := h.wr _ hf

theorem InputShown.logEv (h : InputShown s u) (source code datum : Nat) : InputShown s (u.logEv source code datum) where
  regs a ha := (reg_logEv u _ _ _ (fun he => Bool.false_ne_true (ha.symm.trans (by rw [he]; exact tripReg_log)))).trans (h.regs a ha)
  pairs a ha hb := (reg_logEv u _ _ _ (by simp only [Reg.LOG_STATUS]; omega)).trans (h.pairs a ha hb)
  latches p hp := by
    have hk := h.latches p hp
    have hreg (a : Nat) (ha : 0x1E0000 ≤ a) : u.reg a = (u.logEv source code datum).reg a :=
      (reg_logEv u _ _ _ (by simp only [Reg.LOG_STATUS]; omega)).symm
    exact ⟨hk.latched.trans (rd_congr _ (hreg _ (by simp only [Reg.GDL_STATUS]; omega))), hk.first.trans (rd_congr _ (hreg _ (by simp only [Reg.GDL_STATUS]; omega))),
      hk.cause.trans (hreg _ (by simp only [Reg.GDL_CAUSE]; omega)), hk.faults.trans (rd_congr _ (hreg _ (by simp only [Reg.GDL_COUNT]; omega)))⟩

end

/-! ### The status link (R442, R444) -/

section
variable (p seq flags : Nat) (s : State)

/-- The SEQ and the flags of a valid word. -/
def wordStored : State :=
  { (s.wr (Fld.GDL_STATUS_LAST_SEQ p) seq).wr (Fld.GDL_STATUS_LAST_FLAGS p) flags with
    gate := { s.gate with wordSeen := setBitOf s.gate.wordSeen p true, quietDown := setBitOf s.gate.quietDown p false } }

/-- A valid word renews the link. -/
def linkRenewed : State :=
  if (wordStored p seq flags s).rdB (Fld.GDL_STATUS_LINK_UP p) then wordStored p seq flags s else ((wordStored p seq flags s).wr (Fld.GDL_STATUS_LINK_UP p) 1).logEv 0x17 0x0008 p

theorem validWord_eq {w : BitVec 24} (hseq : w.toNat / 2 ^ 20 = seq) (hflags : w.toNat / 2 ^ 9 = flags) :
    validWord p w s = settleTrips noPulse (linkRenewed p seq flags s) := by
  unfold validWord
  rw [hseq, hflags]
  rfl

theorem regs_withGate (s : State) (g : Gate) : ({ s with gate := g } : State).regs = s.regs := rfl

theorem wordStored_rd (f : FRef) : (wordStored p seq flags s).rd f = ((s.wr (Fld.GDL_STATUS_LAST_SEQ p) seq).wr (Fld.GDL_STATUS_LAST_FLAGS p) flags).rd f :=
  rd_congr f (reg_congr (regs_withGate _ _) _)

theorem linkRenewed_can : linkRenewed p seq flags s = wordStored p seq flags s ∨
    linkRenewed p seq flags s = ((wordStored p seq flags s).wr (Fld.GDL_STATUS_LINK_UP p) 1).logEv 0x17 0x0008 p := by
  by_cases h : (wordStored p seq flags s).rdB (Fld.GDL_STATUS_LINK_UP p) = true
  · exact .inl (if_pos h)
  · exact .inr (if_neg h)

theorem linkRenewed_rest : ∃ regs log, linkRenewed p seq flags s = { s with
    regs := regs, log := log, gate := { s.gate with wordSeen := setBitOf s.gate.wordSeen p true, quietDown := setBitOf s.gate.quietDown p false } } := by
  rcases linkRenewed_can p seq flags s with h | h
  · exact ⟨_, s.log, h⟩
  · have hspec := logEv_spec ((wordStored p seq flags s).wr (Fld.GDL_STATUS_LINK_UP p) 1) 0x17 0x0008 p
    rw [← h] at hspec
    exact ⟨_, _, hspec⟩

theorem linkRenewed_rd (f : FRef) (hf : f.addr ≠ Reg.LOG_STATUS) (hok : f.ok) (hlink : f.apart (Fld.GDL_STATUS_LINK_UP p)) :
    (linkRenewed p seq flags s).rd f = (wordStored p seq flags s).rd f := by
  unfold linkRenewed
  split
  · rfl
  · exact (rd_congr f (reg_logEv _ _ _ _ hf)).trans (rd_wr_apart _ _ _ _ (by simp [FRef.ok]) hok (apart_symm hlink))

theorem linkRenewed_up : (linkRenewed p seq flags s).rd (Fld.GDL_STATUS_LINK_UP p) = 1 := by
  have hlt : (wordStored p seq flags s).rd (Fld.GDL_STATUS_LINK_UP p) < 2 := rd_lt _ (Fld.GDL_STATUS_LINK_UP p) (by simp [FRef.ok])
  unfold linkRenewed
  split
  · next h =>
    have := of_decide_eq_true h
    omega
  · exact (rd_congr _ (reg_logEv _ _ _ _ (by simp only [Reg.GDL_STATUS, Reg.LOG_STATUS]; omega))).trans (rd_wr_same _ _ _ (by simp [FRef.ok]))

theorem linkRenewed_seq (hseq : seq < 2 ^ 4) : (linkRenewed p seq flags s).rd (Fld.GDL_STATUS_LAST_SEQ p) = seq := by
  rw [linkRenewed_rd p seq flags s _ (by simp only [Reg.GDL_STATUS, Reg.LOG_STATUS]; omega) (by simp [FRef.ok]) (by simp [FRef.apart]), wordStored_rd]
  exact (rd_wr_disjoint _ _ _ _ (by simp [FRef.ok]) (by simp [FRef.ok]) (.inr (by simp))).trans
    ((rd_wr_same _ _ _ (by simp [FRef.ok])).trans (Nat.mod_eq_of_lt hseq))

theorem linkRenewed_flags : (linkRenewed p seq flags s).rd (Fld.GDL_STATUS_LAST_FLAGS p) = flags % 2 ^ 11 := by
  rw [linkRenewed_rd p seq flags s _ (by simp only [Reg.GDL_STATUS, Reg.LOG_STATUS]; omega) (by simp [FRef.ok]) (by simp [FRef.apart]), wordStored_rd]
  exact rd_wr_same _ _ _ (by simp [FRef.ok])

theorem inputShown_linkRenewed (hp : p < 72) : InputShown s (linkRenewed p seq flags s) := by
  have hseq := (InputShown.refl s).wr (f := Fld.GDL_STATUS_LAST_SEQ p) seq (inputField_status hp (by decide) (by decide))
  have hstored : InputShown s (wordStored p seq flags s) :=
    (hseq.wr (f := Fld.GDL_STATUS_LAST_FLAGS p) flags (inputField_status hp (by decide) (by decide))).of_regs rfl
  unfold linkRenewed
  split
  · exact hstored
  · exact (hstored.wr (f := Fld.GDL_STATUS_LINK_UP p) 1 (inputField_status hp (by decide) (by decide))).logEv _ _ _

/-- A link goes DOWN (R444). -/
def linkDropped : State :=
  (((s.wr (Fld.GDL_STATUS_LINK_UP p) 0).inc (Fld.GDL_COUNT_LINK_LOSSES p)).wr Fld.GDL_EVENTS_LINK_EV 1).logEv 0x17 0x0007 p

theorem inputShown_linkDropped (hp : p < 72) : InputShown s (linkDropped p s) := by
  have hdown := (InputShown.refl s).wr (f := Fld.GDL_STATUS_LINK_UP p) 0 (inputField_status hp (by decide) (by decide))
  have hcount := hdown.inc (f := Fld.GDL_COUNT_LINK_LOSSES p) (inputField_count hp (by decide))
  unfold linkDropped
  exact (hcount.wr (f := Fld.GDL_EVENTS_LINK_EV) 1 (inputField_events (by decide) (by decide))).logEv _ _ _

theorem linkDropped_shows (hp : p < 72) :
    (linkDropped p s).rd (Fld.GDL_STATUS_LINK_UP p) = 0 ∧
      (linkDropped p s).rd (Fld.GDL_COUNT_LINK_LOSSES p) = min (s.rd (Fld.GDL_COUNT_LINK_LOSSES p) + 1) 0xFF ∧
      (linkDropped p s).rd Fld.GDL_EVENTS_LINK_EV = 1 := by
  have hrd (f : FRef) (hf : f.addr ≠ Reg.LOG_STATUS) : (linkDropped p s).rd f =
      (((s.wr (Fld.GDL_STATUS_LINK_UP p) 0).inc (Fld.GDL_COUNT_LINK_LOSSES p)).wr Fld.GDL_EVENTS_LINK_EV 1).rd f := by
    unfold linkDropped
    exact rd_congr f (reg_logEv _ _ _ _ hf)
  have hev : Reg.GDL_EVENTS ≠ Reg.GDL_COUNT p := by simp only [Reg.GDL_EVENTS, Reg.GDL_COUNT]; omega
  have hst : Reg.GDL_EVENTS ≠ Reg.GDL_STATUS p := by simp only [Reg.GDL_EVENTS, Reg.GDL_STATUS]; omega
  have hcs : Reg.GDL_COUNT p ≠ Reg.GDL_STATUS p := by simp only [Reg.GDL_COUNT, Reg.GDL_STATUS]; omega
  refine ⟨?_, ?_, ?_⟩
  · rw [hrd _ (by simp only [Reg.GDL_STATUS, Reg.LOG_STATUS]; omega), rd_wr_ne _ _ _ _ hst, inc_eq, rd_wr_ne _ _ _ _ hcs, rd_wr_same _ _ _ (by simp [FRef.ok])]
    rfl
  · rw [hrd _ (by simp only [Reg.GDL_COUNT, Reg.LOG_STATUS]; omega), rd_wr_ne _ _ _ _ hev, rd_inc_same _ (by simp [FRef.ok]), rd_wr_ne _ _ _ _ hcs.symm]
    rfl
  · rw [hrd _ (by decide)]
    exact rd_wr_same _ _ _ (by decide)

theorem linkDropped_rest : linkDropped p s = { s with regs := (linkDropped p s).regs, log := (linkDropped p s).log } := by
  have hspec := logEv_spec (((s.wr (Fld.GDL_STATUS_LINK_UP p) 0).inc (Fld.GDL_COUNT_LINK_LOSSES p)).wr Fld.GDL_EVENTS_LINK_EV 1) 0x17 0x0007 p
  unfold linkDropped
  generalize State.logEv _ 0x17 0x0007 p = t at hspec ⊢
  rw [hspec]
  rfl

end

end Sys2Proof.Machine
end
-- ==== Sys2Proof/Proofs/ClearingEdge.lean ====
section
/-! PROOFS. Proofs/ClearingEdge.lean: the clearing edge of GD_EN (R449). -/
namespace Sys2Proof.Machine

/-- The latch of pair `p` is cleared. -/
structure LatchFreed (p : Nat) (s t : State) : Prop extends CausesKept p s t where
  latched : t.rd (Fld.GDL_STATUS_LATCHED p) = 0
  first : t.rd (Fld.GDL_STATUS_FIRST_CAUSE p) = s.rd (Fld.GDL_STATUS_FIRST_CAUSE p)
  cause : t.rd (Fld.GDL_CAUSE_CAUSE p) = 0
  faults : t.rd (Fld.GDL_COUNT_FAULTS p) = s.rd (Fld.GDL_COUNT_FAULTS p)
  bit : t.mapBit Fld.GDL_LATCHED p = false

section
variable {p : Nat} {s s' t t' : State}

theorem LatchFreed.from (h : LatchFreed p s' t) (k : LatchKept p s s') : LatchFreed p s t where
  toCausesKept := k.toCausesKept.trans h.toCausesKept
  latched := h.latched
  first := h.first.trans k.first
  cause := h.cause
  faults := h.faults.trans k.faults
  bit := h.bit

theorem LatchFreed.upTo (h : LatchFreed p s t) (k : LatchKept p t t') : LatchFreed p s t' where
  toCausesKept := h.toCausesKept.trans k.toCausesKept
  latched := k.latched.trans h.latched
  first := k.first.trans h.first
  cause := (rd_congr _ k.cause).trans h.cause
  faults := k.faults.trans h.faults
  bit := k.bit.trans h.bit

theorem gateClear_frame (hp : p < 72) (s : State) : GateFrame p s (gateClear p s) := by
  have hfields : FieldsKept (gateFields p) s (gateClear p s) := by
    unfold gateClear
    refine FieldsKept.wr ?_ (by simp [FRef.ok]) (by simp)
    refine FieldsKept.wr ?_ (by simp [FRef.ok]) (by simp)
    exact FieldsKept.wr (.refl _ s) (by simp [FRef.ok]) (by simp)
  refine ⟨rfl, hfields, fun q hq => ?_, fun hev => ?_⟩
  · rw [gateClear, mapBit_wrMapBit _ wordMap_gdlLatched, if_neg hq]
    refine mapBit_congr _ _ ?_
    rw [reg_wr_ne _ _ (by simp only [Reg.GDL_CAUSE, Reg.GDL_LATCHED]; omega), reg_wr_ne _ _ (by simp only [Reg.GDL_STATUS, Reg.GDL_LATCHED]; omega)]
  · rw [gateClear, rd_wrGdlLatched (by decide), rd_wr_ne _ _ _ _ (by simp only [Reg.GDL_CAUSE, Reg.GDL_EVENTS]; omega),
      rd_wr_ne _ _ _ _ (by simp only [Reg.GDL_STATUS, Reg.GDL_EVENTS]; omega), hev]

theorem gateClear_freed (hp : p < 72) : LatchFreed p s (gateClear p s) where
  toCausesKept := (gateClear_frame hp s).causesKept hp hp
  latched := by
    rw [gateClear, rd_wrGdlLatched (by simp only [Reg.GDL_STATUS]; omega), rd_wr_ne _ _ _ _ (by simp only [Reg.GDL_CAUSE, Reg.GDL_STATUS]; omega)]
    exact rd_wr_same _ _ _ (by simp [FRef.ok])
  first := by
    rw [gateClear, rd_wrGdlLatched (by simp only [Reg.GDL_STATUS]; omega), rd_wr_ne _ _ _ _ (by simp only [Reg.GDL_CAUSE, Reg.GDL_STATUS]; omega)]
    exact rd_wr_apart _ _ _ _ (by simp [FRef.ok]) (by simp [FRef.ok]) (by simp [FRef.apart])
  cause := by
    rw [gateClear, rd_wrGdlLatched (by simp only [Reg.GDL_CAUSE]; omega)]
    exact rd_wr_same _ _ _ (by simp [FRef.ok])
  faults := by
    rw [gateClear, rd_wrGdlLatched (by simp only [Reg.GDL_COUNT]; omega), rd_wr_ne _ _ _ _ (by simp only [Reg.GDL_CAUSE, Reg.GDL_COUNT]; omega),
      rd_wr_ne _ _ _ _ (by simp only [Reg.GDL_STATUS, Reg.GDL_COUNT]; omega)]
  bit := by rw [gateClear, mapBit_wrMapBit _ wordMap_gdlLatched, if_pos rfl]

/-- The latches of a list clear, and the others stay. -/
theorem forEach_gateClear {l : List Nat} (hnd : l.Nodup) (hl : ∀ q ∈ l, q < 72) (s : State) :
    (∀ q ∈ l, LatchFreed q s (forEach l gateClear s)) ∧ ∀ q, q < 72 → q ∉ l → LatchKept q s (forEach l gateClear s) :=
  forEach_settles hnd hl LatchKept.refl (fun _ _ _ _ h k => h.trans k) (fun _ _ _ _ h hr => hr.from h) (fun _ _ _ _ hr h => hr.upTo h)
    (fun q hq _ => gateClear_freed (hl q hq)) (fun q hq _ hj hne s => (gateClear_frame (hl q hq) s).latchKept (hl q hq) hj hne) s

/-- A latch is apart from the events of the block other than FAULT_EV. -/
theorem LatchKept.event_wr (hp : p < 72) {f : FRef} {v : Nat} (hf : f.addr = Reg.GDL_EVENTS) (hok : f.ok) (hlo : 0 < f.lo) :
    LatchKept p s (s.wr f v) where
  toCausesKept := causesKept_of rfl fun g hg => by
    refine rd_wr_ne _ _ _ _ ?_
    rw [hf]
    simp only [causeFields, List.mem_cons, List.not_mem_nil, or_false] at hg
    rcases hg with rfl | rfl | rfl | rfl | rfl | rfl | rfl | rfl <;>
      simp [Reg.GDL_EVENTS, Reg.PWM_CFG, Reg.GDL_CFG, Reg.GDL_STATUS, Reg.GDL_EN_STATUS] <;> omega
  latched := rd_wr_ne _ _ _ _ (by rw [hf]; simp only [Reg.GDL_EVENTS, Reg.GDL_STATUS]; omega)
  first := rd_wr_ne _ _ _ _ (by rw [hf]; simp only [Reg.GDL_EVENTS, Reg.GDL_STATUS]; omega)
  cause := reg_wr_ne _ _ (by rw [hf]; simp only [Reg.GDL_EVENTS, Reg.GDL_CAUSE]; omega)
  faults := rd_wr_ne _ _ _ _ (by rw [hf]; simp only [Reg.GDL_EVENTS, Reg.GDL_COUNT]; omega)
  bit := mapBit_congr _ _ (reg_wr_ne _ _ (by rw [hf]; simp only [Reg.GDL_EVENTS, Reg.GDL_LATCHED]; omega))
  event h := (rd_wr_apart _ _ _ _ hok (by decide) (.inr (.inl hlo))).trans h

theorem LatchKept.logEv (hp : p < 72) {source code datum : Nat} : LatchKept p s (s.logEv source code datum) := by
  have h : RegsLogPerf pairReg s (s.logEv source code datum) := (RegsLogPerf.refl _ s).logEv _ _ _ (by decide)
  exact h.latchKept hp

end

/-! ### The steps of the edge -/

section
variable (s : State)

/-- The watched pairs whose latch is set and has no cause. -/
def freePairs : List Nat := (latchedPairs s).filter (fun p => gateCauses false s p == 0)

/-- The watched pairs whose latch is set and has a cause. -/
def heldPairs : List Nat := (latchedPairs s).filter (fun p => gateCauses false s p != 0)

/-- The free latches have cleared, and CLEARED_EV reports it. -/
def edgeCleared : State :=
  ((forEach (freePairs s) gateClear s).wr Fld.GDL_EVENTS_CLEARED_EV 1).logEv 0x17 0x0002 ((freePairs s).length + (heldPairs s).length * 256)

/-- What stays latched is reported. -/
def edgeReported : State :=
  match heldPairs s with
  | p :: _ => ((edgeCleared s).wr Fld.GDL_EVENTS_CLR_BLOCKED 1).logEv 0x17 0x0003 (p + lowestBit (gateCauses false s p) * 256)
  | [] => edgeCleared s

theorem clearingEdge_eq : clearingEdge s = settleTrips noPulse (edgeReported s) := by
  unfold clearingEdge edgeReported edgeCleared heldPairs freePairs
  extract_lets free left blocked s1 s2 s3
  refine congrArg _ ?_
  split
  · next p tail hleft =>
    have hblocked : blocked = some (p, lowestBit (gateCauses false s p)) := by simp only [blocked, left, hleft]
    simp only [s3, hblocked, s2, left, free, s1]
  · next hleft =>
    have hblocked : blocked = none := by simp only [blocked, left, hleft]
    simp only [s3, hblocked, s2, left, free, s1]

variable {s}

theorem mem_latchedPairs {p : Nat} : p ∈ latchedPairs s ↔ p < 72 ∧ watched s p = true ∧ s.rd (Fld.GDL_STATUS_LATCHED p) = 1 := by
  have hlt := latched_lt s p
  simp only [latchedPairs, List.mem_filter, pairs, List.mem_range, Bool.and_eq_true, rdB_eq, decide_eq_true_eq]
  refine and_congr_right fun _ => and_congr_right fun _ => ?_
  omega

theorem mem_freePairs {p : Nat} : p ∈ freePairs s ↔ p ∈ latchedPairs s ∧ gateCauses false s p = 0 := by
  simp only [freePairs, List.mem_filter, beq_iff_eq]

theorem mem_heldPairs {p : Nat} : p ∈ heldPairs s ↔ p ∈ latchedPairs s ∧ gateCauses false s p ≠ 0 := by
  simp only [heldPairs, List.mem_filter, bne_iff_ne]

theorem freePairs_nodup : (freePairs s).Nodup := (List.nodup_range.filter _).filter _

theorem edgeCleared_kept {p : Nat} (hp : p < 72) : LatchKept p (forEach (freePairs s) gateClear s) (edgeCleared s) :=
  (LatchKept.event_wr hp rfl (by decide) (by decide)).trans (.logEv hp)

theorem edgeReported_kept {p : Nat} (hp : p < 72) : LatchKept p (edgeCleared s) (edgeReported s) := by
  unfold edgeReported
  split
  · exact (LatchKept.event_wr hp rfl (by decide) (by decide)).trans (.logEv hp)
  · exact .refl p _

theorem edgeReported_free {p : Nat} (hp : p ∈ freePairs s) : LatchFreed p s (edgeReported s) := by
  have hlt := (mem_latchedPairs.mp (mem_freePairs.mp hp).1).1
  exact (((forEach_gateClear freePairs_nodup (fun q hq => (mem_latchedPairs.mp (mem_freePairs.mp hq).1).1) s).1 p hp).upTo (edgeCleared_kept hlt)).upTo
    (edgeReported_kept hlt)

theorem edgeReported_other {p : Nat} (hlt : p < 72) (hp : p ∉ freePairs s) : LatchKept p s (edgeReported s) :=
  (((forEach_gateClear freePairs_nodup (fun q hq => (mem_latchedPairs.mp (mem_freePairs.mp hq).1).1) s).2 p hlt hp).trans (edgeCleared_kept hlt)).trans
    (edgeReported_kept hlt)

theorem rd_edgeCleared : (edgeCleared s).rd Fld.GDL_EVENTS_CLEARED_EV = 1 :=
  (rd_logEv _ _ _ _ _ (by decide)).trans (rd_wr_same _ _ _ (by decide))

theorem rd_edgeReported : (edgeReported s).rd Fld.GDL_EVENTS_CLEARED_EV = 1 := by
  unfold edgeReported
  split
  · exact (rd_logEv _ _ _ _ _ (by decide)).trans ((rd_wr_apart _ _ _ _ (by decide) (by decide) (by decide)).trans rd_edgeCleared)
  · exact rd_edgeCleared

theorem rd_edgeReported_blocked {p : Nat} (hp : p ∈ heldPairs s) : (edgeReported s).rd Fld.GDL_EVENTS_CLR_BLOCKED = 1 := by
  unfold edgeReported
  split
  · exact (rd_logEv _ _ _ _ _ (by decide)).trans (rd_wr_same _ _ _ (by decide))
  · next h =>
    rw [h] at hp
    exact absurd hp List.not_mem_nil

/-- The edge leaves the fields that show GD_EN. -/
theorem gateClear_scope {p : Nat} (hp : p < 72) : RegsLogPerf (fun a => tripReg a && a != Reg.GDL_EN_STATUS) s (gateClear p s) := by
  refine RegsLogPerf.wrMapBit _ _ _ ?_ (RegsLogPerf.wr _ _ ?_ (RegsLogPerf.wr _ _ ?_ (.refl _ s)))
  · rw [Bool.and_eq_true, bne_iff_ne]
    exact ⟨tripReg_gdlLatched (by omega), by simp only [Reg.GDL_LATCHED, Reg.GDL_EN_STATUS]; omega⟩
  · rw [Bool.and_eq_true, bne_iff_ne]
    exact ⟨tripReg_gdlCause hp, by simp only [Reg.GDL_CAUSE, Reg.GDL_EN_STATUS]; omega⟩
  · rw [Bool.and_eq_true, bne_iff_ne]
    exact ⟨tripReg_gdlStatus hp, by simp only [Reg.GDL_STATUS, Reg.GDL_EN_STATUS]; omega⟩

theorem edgeReported_scope : RegsLogPerf (fun a => tripReg a && a != Reg.GDL_EN_STATUS) s (edgeReported s) := by
  have hclear : RegsLogPerf (fun a => tripReg a && a != Reg.GDL_EN_STATUS) s (edgeCleared s) :=
    ((RegsLogPerf.forEach _ _ (fun _ hq _ h => h.trans (gateClear_scope (mem_latchedPairs.mp (mem_freePairs.mp hq).1).1)) (.refl _ s)).wr _ _
      (by decide)).logEv _ _ _ (by decide)
  unfold edgeReported
  split
  · exact (hclear.wr _ _ (by decide)).logEv _ _ _ (by decide)
  · exact hclear

/-- The clearing edge (R449). -/
structure EdgeTaken (s t : State) : Prop where
  scope : RegsLogPerf tripReg s t
  shown : ∀ f : FRef, f.addr = Reg.GDL_EN_STATUS → GateApart f → t.rd f = s.rd f
  cleared : t.rd Fld.GDL_EVENTS_CLEARED_EV = 1
  free : ∀ p ∈ freePairs s, LatchFreed p s t
  held : ∀ p ∈ heldPairs s, t.rd (Fld.GDL_STATUS_LATCHED p) = 1 ∧ t.rd (Fld.GDL_STATUS_FIRST_CAUSE p) = s.rd (Fld.GDL_STATUS_FIRST_CAUSE p) ∧
    t.rd (Fld.GDL_COUNT_FAULTS p) = s.rd (Fld.GDL_COUNT_FAULTS p) ∧ t.rd Fld.GDL_EVENTS_CLR_BLOCKED = 1

/-- A link that is DOWN only after a clock loss is the one cause that an edge sees and a latch does not. -/
theorem gateCauses_quiet {p : Nat} (h : gateCauses false s p = 0) : gateCauses true s p = 0 := by
  have hlink : bitIf (!s.rdB (Fld.GDL_STATUS_LINK_UP p) && !(true && s.gate.quietDown.testBit p)) 4 ≤
      bitIf (!s.rdB (Fld.GDL_STATUS_LINK_UP p) && !(false && s.gate.quietDown.testBit p)) 4 := by
    cases s.gate.quietDown.testBit p <;> simp [bitIf]
  unfold gateCauses at h ⊢
  by_cases hstat : s.rdB (Fld.GDL_CFG_STAT_EN p) = true
  · rw [if_pos hstat] at h ⊢
    omega
  · rw [if_neg hstat] at h ⊢
    exact h

theorem LatchSettled.stays {p : Nat} {t : State} (h : LatchSettled p s t) (hw : watched t p = true) (hl : s.rd (Fld.GDL_STATUS_LATCHED p) = 1) :
    t.rd (Fld.GDL_STATUS_LATCHED p) = 1 ∧ t.rd (Fld.GDL_STATUS_FIRST_CAUSE p) = s.rd (Fld.GDL_STATUS_FIRST_CAUSE p) ∧
      t.rd (Fld.GDL_COUNT_FAULTS p) = s.rd (Fld.GDL_COUNT_FAULTS p) := by
  unfold LatchSettled at h
  rw [if_neg (by simp [hw]), if_pos hl] at h
  obtain ⟨hset, -, hfirst, hfaults⟩ := h
  exact ⟨hset, hfirst, hfaults⟩

theorem clearingEdge_taken : EdgeTaken s (clearingEdge s) := by
  have hscope := edgeReported_scope (s := s)
  have hcleared := rd_edgeReported (s := s)
  have hblocked (p : Nat) (hp : p ∈ heldPairs s) := rd_edgeReported_blocked hp
  have hfree (p : Nat) (hp : p ∈ freePairs s) := edgeReported_free hp
  have hother (p : Nat) (hlt : p < 72) (hp : p ∉ freePairs s) := edgeReported_other hlt hp
  rw [clearingEdge_eq]
  generalize edgeReported s = u at *
  have hspec := settleTrips_spec noPulse u
  have hfield (f : FRef) (hf : GateApart f) := settleTrips_gateField noPulse u hf
  have hmet := settleTrips_met noPulse u
  have hcauses (p : Nat) (hp : p < 72) := settleTrips_causes noPulse u hp
  have hcalm (p : Nat) (hp : p < 72) := settleTrips_calm noPulse u hp
  generalize settleTrips noPulse u = t at *
  refine ⟨(hscope.mono fun a ha => by rw [ha]; rfl).trans hspec, fun f hf hapart => ?_, ?_, fun p hp => ?_, fun p hp => ?_⟩
  · exact (hfield f hapart).trans (rd_congr f (hscope.regs _ (by simp [hf])))
  · exact (hfield _ (gateApart_events (by decide) (by decide))).trans hcleared
  · have hlt := (mem_latchedPairs.mp (mem_freePairs.mp hp).1).1
    have h := hfree p hp
    have k := hcalm p hlt h.latched ((h.causes true).trans (gateCauses_quiet (mem_freePairs.mp hp).2))
    exact ⟨h.toCausesKept.trans (hcauses p hlt), k.latched.trans h.latched, k.first.trans h.first, (rd_congr _ k.cause).trans h.cause,
      k.faults.trans h.faults, k.bit.trans h.bit⟩
  · obtain ⟨hlatched, hcause⟩ := mem_heldPairs.mp hp
    obtain ⟨hlt, hw, hl⟩ := mem_latchedPairs.mp hlatched
    have h := hother p hlt (fun hmem => hcause (mem_freePairs.mp hmem).2)
    obtain ⟨hset, hfirst, hfaults⟩ := (hmet.latch p hlt).stays (((hcauses p hlt).watch.trans h.watch).trans hw) (h.latched.trans hl)
    exact ⟨hset, hfirst.trans h.first, hfaults.trans h.faults, (hfield _ (gateApart_events (by decide) (by decide))).trans (hblocked p hp)⟩

end

end Sys2Proof.Machine
end
-- ==== Sys2Proof/Proofs/GateInputs.lean ====
section
/-! PROOFS. Proofs/GateInputs.lean: the commands of the gate-drive inputs (O39). -/
namespace Sys2Proof.Machine

/-- What the settling of the trips after an input keeps beside the fields it names. -/
theorem InputSettled.rest_of {s u t : State} (h : InputSettled s u t) {g : Gate} {regs : Tab Word} {log : TroubleLog} {perf : Perf}
    (hu : u = { s with cycle := s.cycle + 1, regs := regs, log := log, perf := perf, gate := g }) :
    t = { s with cycle := s.cycle + 1, regs := t.regs, log := t.log, perf := t.perf, out := t.out, gate := g } := by
  have hrest := h.rest
  rw [hu] at hrest
  rw [hrest]

theorem inputShown_ticked (s : State) : InputShown s (ticked s) := (InputShown.refl s).of_regs rfl

theorem InputShown.trans {s u v : State} (h : InputShown s u) (k : InputShown u v) : InputShown s v where
  regs a ha := (k.regs a ha).trans (h.regs a ha)
  pairs a ha hb := (k.pairs a ha hb).trans (h.pairs a ha hb)
  latches p hp := ⟨(h.latches p hp).latched.trans (k.latches p hp).latched, (h.latches p hp).first.trans (k.latches p hp).first,
    (h.latches p hp).cause.trans (k.latches p hp).cause, (h.latches p hp).faults.trans (k.latches p hp).faults⟩

/-! ### The fast fault input (R439) -/

/-- GDFLT_N shows. -/
def faultShown (p : Nat) (low : Bool) (s : State) : State :=
  ({ s with gate := { s.gate with fltLow := setBitOf s.gate.fltLow p low } } : State).wrB (Fld.GDL_STATUS_FLT_LIVE p) low

theorem exec_gdFlt (s : State) (p : Fin 72) (low : Bool) :
    exec (.gdFlt p low) s = .next (settleTrips noPulse (faultShown p.val low (ticked s))) := rfl

theorem inputShown_faultShown {p : Nat} (hp : p < 72) (low : Bool) (s : State) : InputShown s (faultShown p low (ticked s)) :=
  ((inputShown_ticked s).of_regs (v := { ticked s with gate := { s.gate with fltLow := setBitOf s.gate.fltLow p low } }) rfl).wr
    (f := Fld.GDL_STATUS_FLT_LIVE p) low.toNat (inputField_status hp (by decide) (by decide))

theorem gdFlt_settles (s : State) (p : Fin 72) (low : Bool) :
    Does (.gdFlt p low) s fun t =>
      t.rdB (Fld.GDL_STATUS_FLT_LIVE p) = low ∧ AllSettled s t ∧ (∀ q, q < 72 → hasBit t.gate.fltLow q = (if q = p then low else hasBit s.gate.fltLow q)) ∧
      t = { s with cycle := s.cycle + 1, regs := t.regs, log := t.log, perf := t.perf, out := t.out, gate := { s.gate with fltLow := t.gate.fltLow } } ∧
      RegsKeptBut tripReg s t := by
  refine ⟨_, exec_gdFlt s p low, ?_⟩
  have h := (inputShown_faultShown p.isLt low s).settle
  have hlive : (faultShown p.val low (ticked s)).rd (Fld.GDL_STATUS_FLT_LIVE p.val) = low.toNat :=
    (rd_wr_same _ _ _ (by simp [FRef.ok])).trans (by cases low <;> rfl)
  have hrest := h.rest_of (g := { s.gate with fltLow := setBitOf s.gate.fltLow p.val low }) rfl
  generalize settleTrips noPulse (faultShown p.val low (ticked s)) = t at *
  have hgate : t.gate = { s.gate with fltLow := setBitOf s.gate.fltLow p.val low } := by rw [hrest]
  refine ⟨rdB_of_rd ((h.field _ (gateApart_status p.isLt (by decide) (by decide))).trans hlive), h.settled, fun q _ => ?_, ?_, h.regs⟩
  · rw [hgate]
    exact setBitOf_testBit _ _ _ _
  · rw [hgate]
    exact hrest

/-! ### The status link (R442, R444) -/

theorem tripReg_gdlCfg {p : Nat} (hp : p < 72) : tripReg (Reg.GDL_CFG p) = false := by
  simp [tripReg, inArray, Reg.GDL_CFG, Reg.LOG_STATUS, Reg.TL_STATUS, Reg.PWM_STATUS, Reg.PWM_TRIP_SRC, Reg.PWM_EVENTS, Reg.PWM_COUNT,
    Reg.PWM_TRIPPED, Reg.GDL_STATUS, Reg.GDL_CAUSE, Reg.GDL_COUNT, Reg.GDL_EN_STATUS, Reg.GDL_EVENTS, Reg.GDL_LATCHED]
  omega

theorem watched_congr {s t : State} {p : Nat} (hp : p < 72) (hregs : RegsKeptBut tripReg s t) (hloaded : t.gate.tripLoaded = s.gate.tripLoaded) :
    watched t p = watched s p := by
  have hpwm : tripReg (Reg.PWM_CFG p) = false := by
    simp [tripReg, inArray, Reg.PWM_CFG, Reg.LOG_STATUS, Reg.TL_STATUS, Reg.PWM_STATUS, Reg.PWM_TRIP_SRC, Reg.PWM_EVENTS, Reg.PWM_COUNT,
      Reg.PWM_TRIPPED, Reg.GDL_STATUS, Reg.GDL_CAUSE, Reg.GDL_COUNT, Reg.GDL_EN_STATUS, Reg.GDL_EVENTS, Reg.GDL_LATCHED]
    omega
  rw [watched, watched, hloaded, rdB_congr (Fld.PWM_CFG_EN p) (hregs _ hpwm), rdB_congr (Fld.GDL_CFG_FLT_EN p) (hregs _ (tripReg_gdlCfg hp)),
    rdB_congr (Fld.GDL_CFG_STAT_EN p) (hregs _ (tripReg_gdlCfg hp))]

/-- A watched latch with a cause is set. -/
theorem LatchSettled.set_of_cause {p : Nat} {s t : State} (h : LatchSettled p s t) (hw : watched t p = true) (hc : gateCauses true t p ≠ 0) :
    t.rd (Fld.GDL_STATUS_LATCHED p) = 1 ∧ ∃ m, t.rd (Fld.GDL_CAUSE_CAUSE p) = m ||| gateCauses true t p := by
  unfold LatchSettled at h
  rw [if_neg (by simp [hw])] at h
  by_cases hl : s.rd (Fld.GDL_STATUS_LATCHED p) = 1
  · rw [if_pos hl] at h
    obtain ⟨hset, hcause, -⟩ := h
    exact ⟨hset, _, hcause⟩
  · rw [if_neg hl, if_pos hc] at h
    obtain ⟨hset, hcause, -⟩ := h
    exact ⟨hset, 0, hcause.trans (Nat.zero_or _).symm⟩

theorem gateCauses_link {s : State} {p : Nat} (hstat : s.rd (Fld.GDL_CFG_STAT_EN p) = 1) (hlink : s.rd (Fld.GDL_STATUS_LINK_UP p) = 0)
    (hquiet : s.gate.quietDown.testBit p = false) : gateCauses true s p ≠ 0 := by
  have h : bitIf (!s.rdB (Fld.GDL_STATUS_LINK_UP p) && !(true && s.gate.quietDown.testBit p)) 4 = 16 := by
    rw [rdB_eq, hlink, hquiet]
    rfl
  rw [gateCauses, if_pos (by simp [hstat]), h]
  omega

section
variable {s : State} {p : Fin 72}

/-- The model's guard of a status word. -/
theorem linkWatched_iff : (watched s p.val && s.rdB (Fld.GDL_CFG_STAT_EN p.val) && s.rdB Fld.CLK_STATUS_CTRL_LOCK) = true ↔
    watched s p = true ∧ s.rd (Fld.GDL_CFG_STAT_EN p) ≠ 0 ∧ s.rd Fld.CLK_STATUS_CTRL_LOCK ≠ 0 := by
  simp only [Bool.and_eq_true, rdB_eq, decide_eq_true_eq, and_assoc]

theorem exec_statusWordRx (w : BitVec 24) (codeOk : Bool) : exec (.statusWordRx p w codeOk) s = .next
    (if watched s p.val && s.rdB (Fld.GDL_CFG_STAT_EN p.val) && s.rdB Fld.CLK_STATUS_CTRL_LOCK then
      if wordValid s p.val w codeOk then validWord p.val w (ticked s)
      else countEv 0x087 p.val 1 ((ticked s).inc (Fld.GDL_COUNT_BAD_WORDS p.val))
    else ticked s) := rfl

theorem exec_linkLost (ns : Nat) : exec (.linkLost p ns) s = .next
    (if watched s p.val && s.rdB (Fld.GDL_CFG_STAT_EN p.val) && s.rdB (Fld.GDL_STATUS_LINK_UP p.val) && s.rdB Fld.CLK_STATUS_CTRL_LOCK
        && decide (1000 * linkTimeout s p.val ≤ ns) then settleTrips noPulse (linkDropped p.val (ticked s))
    else ticked s) := rfl

theorem statusWord_ignored (w : BitVec 24) (codeOk : Bool)
    (h : watched s p = false ∨ s.rd (Fld.GDL_CFG_STAT_EN p) = 0 ∨ s.rd Fld.CLK_STATUS_CTRL_LOCK = 0) :
    Does (.statusWordRx p w codeOk) s fun t => t = { s with cycle := s.cycle + 1 } := by
  refine ⟨ticked s, ?_, rfl⟩
  rw [exec_statusWordRx, if_neg]
  rw [linkWatched_iff]
  rintro ⟨hw, hstat, hlock⟩
  rcases h with h | h | h
  · exact Bool.false_ne_true (h.symm.trans hw)
  · exact hstat h
  · exact hlock h

theorem linkLost_ignored (ns : Nat) (h : watched s p = false ∨ s.rd (Fld.GDL_CFG_STAT_EN p) = 0 ∨ s.rd Fld.CLK_STATUS_CTRL_LOCK = 0 ∨
    s.rd (Fld.GDL_STATUS_LINK_UP p) = 0 ∨ ns < 1000 * max 5 (s.rd (Fld.GDL_CFG_STAT_TO p))) :
    Does (.linkLost p ns) s fun t => t = { s with cycle := s.cycle + 1 } := by
  refine ⟨ticked s, ?_, rfl⟩
  rw [exec_linkLost, if_neg]
  simp only [Bool.and_eq_true, rdB_eq, decide_eq_true_eq, and_assoc, linkTimeout]
  rintro ⟨hw, hstat, hlink, hlock, hns⟩
  replace hns : 1000 * max 5 (s.rd (Fld.GDL_CFG_STAT_TO p)) ≤ ns := of_decide_eq_true hns
  rcases h with h | h | h | h | h
  · exact Bool.false_ne_true (h.symm.trans hw)
  · exact hstat h
  · exact hlock h
  · exact hlink h
  · omega

theorem badWord_counts (p : Fin 72) (s : State) : ∃ perf, countEv 0x087 p.val 1 ((ticked s).inc (Fld.GDL_COUNT_BAD_WORDS p.val)) =
    { (ticked s).inc (Fld.GDL_COUNT_BAD_WORDS p.val) with perf := perf } := ⟨_, countEv_spec _ _ _ _⟩

theorem wordValid_eq (w : BitVec 24) (codeOk : Bool) : wordValid s p.val w codeOk = (codeOk && decide (crc4 w = w.toNat % 16) &&
    (!hasBit s.gate.wordSeen p || decide (w.toNat / 2 ^ 20 ≠ s.rd (Fld.GDL_STATUS_LAST_SEQ p)))) := by
  rw [wordValid, hasBit, beq_eq_decide]

end

/-- What a valid word shows once the trips have settled. -/
theorem validWord_shows {s t : State} (p : Fin 72) {seq flags : Nat} (hseq : seq < 2 ^ 4) (h : InputSettled s (linkRenewed p.val seq flags (ticked s)) t)
    {P : Prop} :
    (true = true → t.rd (Fld.GDL_STATUS_LINK_UP p) = 1 ∧ t.rd (Fld.GDL_STATUS_LAST_SEQ p) = seq ∧ t.rd (Fld.GDL_STATUS_LAST_FLAGS p) = flags % 2 ^ 11 ∧
      hasBit t.gate.wordSeen p = true ∧ AllSettled s t) ∧ (true = false → P) ∧
    t = { s with cycle := s.cycle + 1, regs := t.regs, log := t.log, perf := t.perf, out := t.out, gate := t.gate } ∧ RegsKeptBut tripReg s t := by
  have hup := linkRenewed_up p.val seq flags (ticked s)
  have hlast := linkRenewed_seq p.val seq flags (ticked s) hseq
  have hflags := linkRenewed_flags p.val seq flags (ticked s)
  obtain ⟨regs, log, hu⟩ := linkRenewed_rest p.val seq flags (ticked s)
  generalize linkRenewed p.val seq flags (ticked s) = u at *
  have hrest := h.rest_of (perf := s.perf) (g := { s.gate with wordSeen := setBitOf s.gate.wordSeen p true, quietDown := setBitOf s.gate.quietDown p false }) hu
  have hgate : t.gate = { s.gate with wordSeen := setBitOf s.gate.wordSeen p true, quietDown := setBitOf s.gate.quietDown p false } := by rw [hrest]
  refine ⟨fun _ => ⟨?_, ?_, ?_, ?_, h.settled⟩, nofun, ?_, h.regs⟩
  · exact (h.field _ (gateApart_status p.isLt (by decide) (by decide))).trans hup
  · exact (h.field _ (gateApart_status p.isLt (by decide) (by decide))).trans hlast
  · exact (h.field _ (gateApart_status p.isLt (by decide) (by decide))).trans hflags
  · rw [hgate]
    exact (setBitOf_testBit s.gate.wordSeen p p true).trans (if_pos rfl)
  · rw [hgate]
    exact hrest

theorem statusWord_read (s : State) (p : Fin 72) (w : BitVec 24) (codeOk : Bool) (hw : watched s p = true) (hstat : s.rd (Fld.GDL_CFG_STAT_EN p) = 1)
    (hlock : s.rd Fld.CLK_STATUS_CTRL_LOCK = 1) :
    let seq := w.toNat / 2 ^ 20
    let valid := codeOk && decide (crc4 w = w.toNat % 16) && (!hasBit s.gate.wordSeen p || decide (seq ≠ s.rd (Fld.GDL_STATUS_LAST_SEQ p)))
    Does (.statusWordRx p w codeOk) s fun t =>
      (valid = true → t.rd (Fld.GDL_STATUS_LINK_UP p) = 1 ∧ t.rd (Fld.GDL_STATUS_LAST_SEQ p) = seq ∧
        t.rd (Fld.GDL_STATUS_LAST_FLAGS p) = w.toNat / 2 ^ 9 % 2 ^ 11 ∧ hasBit t.gate.wordSeen p = true ∧ AllSettled s t) ∧
      (valid = false → t.rd (Fld.GDL_COUNT_BAD_WORDS p) = min (s.rd (Fld.GDL_COUNT_BAD_WORDS p) + 1) 0xFFFF ∧ t.gate = s.gate ∧ t.log = s.log ∧
        RegsKept [Reg.GDL_COUNT p] s t) ∧
      t = { s with cycle := s.cycle + 1, regs := t.regs, log := t.log, perf := t.perf, out := t.out, gate := t.gate } ∧ RegsKeptBut tripReg s t := by
  intro seq valid
  have hvalid : wordValid s p.val w codeOk = valid := wordValid_eq w codeOk
  refine ⟨_, (exec_statusWordRx w codeOk).trans (congrArg _ (if_pos (linkWatched_iff.mpr ⟨hw, by simp [hstat], by simp [hlock]⟩))), ?_⟩
  rw [hvalid]
  cases valid with
  | true =>
    rw [if_pos rfl, validWord_eq p.val seq (w.toNat / 2 ^ 9) (ticked s) rfl rfl]
    have hseq : seq < 2 ^ 4 := by
      have := w.isLt
      simp only [seq]
      omega
    have h := ((inputShown_ticked s).trans (inputShown_linkRenewed p.val seq (w.toNat / 2 ^ 9) (ticked s) p.isLt)).settle
    exact validWord_shows p hseq h
  | false =>
    rw [if_neg Bool.false_ne_true]
    obtain ⟨perf, hperf⟩ := badWord_counts p s
    rw [hperf]
    have hregs : RegsKept [Reg.GDL_COUNT p] s ({ (ticked s).inc (Fld.GDL_COUNT_BAD_WORDS p.val) with perf := perf }) := fun a ha =>
      reg_wr_ne (f := Fld.GDL_COUNT_BAD_WORDS p.val) (ticked s) _ (by simpa [eq_comm] using ha)
    refine ⟨nofun, fun _ => ⟨?_, rfl, rfl, hregs⟩, rfl, fun a ha => hregs a ?_⟩
    · exact rd_inc_same (s := ticked s) (f := Fld.GDL_COUNT_BAD_WORDS p.val) (by simp [FRef.ok])
    · rw [List.mem_singleton]
      rintro rfl
      exact Bool.false_ne_true (ha.symm.trans (tripReg_gdlCount p.isLt))

theorem linkLost_drops (s : State) (p : Fin 72) (ns : Nat) (hw : watched s p = true) (hstat : s.rd (Fld.GDL_CFG_STAT_EN p) = 1)
    (hlock : s.rd Fld.CLK_STATUS_CTRL_LOCK = 1) (hlink : s.rd (Fld.GDL_STATUS_LINK_UP p) = 1) (hns : 1000 * max 5 (s.rd (Fld.GDL_CFG_STAT_TO p)) ≤ ns) :
    Does (.linkLost p ns) s fun t =>
      t.rd (Fld.GDL_STATUS_LINK_UP p) = 0 ∧ t.rd (Fld.GDL_COUNT_LINK_LOSSES p) = min (s.rd (Fld.GDL_COUNT_LINK_LOSSES p) + 1) 0xFF ∧
      t.rd Fld.GDL_EVENTS_LINK_EV = 1 ∧ AllSettled s t ∧ (s.gate.quietDown.testBit p = false → t.rd (Fld.GDL_STATUS_LATCHED p) = 1) ∧
      t = { s with cycle := s.cycle + 1, regs := t.regs, log := t.log, perf := t.perf, out := t.out } ∧ RegsKeptBut tripReg s t := by
  have hguard : (watched s p.val && s.rdB (Fld.GDL_CFG_STAT_EN p.val) && s.rdB (Fld.GDL_STATUS_LINK_UP p.val) && s.rdB Fld.CLK_STATUS_CTRL_LOCK
      && decide (1000 * linkTimeout s p.val ≤ ns)) = true := by
    simp only [hw, rdB_eq, hstat, hlink, hlock, linkTimeout, Bool.true_and]
    exact decide_eq_true hns
  refine ⟨_, (exec_linkLost ns).trans (congrArg _ (if_pos hguard)), ?_⟩
  have h := ((inputShown_ticked s).trans (inputShown_linkDropped p.val (ticked s) p.isLt)).settle
  have hrestu := linkDropped_rest p.val (ticked s)
  obtain ⟨hup, hcount, hev⟩ := linkDropped_shows p.val (ticked s) p.isLt
  generalize linkDropped p.val (ticked s) = u at *
  generalize settleTrips noPulse u = t at *
  have hrest := h.rest_of (perf := s.perf) (g := s.gate) hrestu
  have hdown : t.rd (Fld.GDL_STATUS_LINK_UP p) = 0 := (h.field _ (gateApart_status p.isLt (by decide) (by decide))).trans hup
  have hgate : t.gate = s.gate := by rw [hrest]
  refine ⟨hdown, (h.field _ (gateApart_count p.isLt (by decide))).trans hcount,
    (h.field _ (gateApart_events (by decide) (by decide))).trans hev, h.settled, fun hquiet => ?_, hrest, h.regs⟩
  have hwt : watched t p = true := (watched_congr p.isLt h.regs (by rw [hgate])).trans hw
  have hst : t.rd (Fld.GDL_CFG_STAT_EN p) = 1 := (rd_congr (Fld.GDL_CFG_STAT_EN p.val) (h.regs _ (tripReg_gdlCfg p.isLt))).trans hstat
  exact ((h.settled p p.isLt).2.set_of_cause hwt (gateCauses_link hst hdown (by rw [hgate]; exact hquiet))).1

/-! ### GD_EN (R448, R449) -/

theorem bitIf_eq (b : Bool) (i : Nat) : bitIf b i = b.toNat * 2 ^ i := by
  cases b
  · exact (Nat.zero_mul _).symm
  · exact (Nat.one_mul _).symm

theorem wordCauses_dvd (flags : Nat) : 32 ∣ wordCauses flags := by
  simp only [wordCauses, bitIf_eq, List.range, List.range.loop, List.foldl_cons, List.foldl_nil, Nat.reduceAdd, Nat.reduceSub]
  omega

/-- GD_EN low is cause 1. -/
theorem gateCauses_enable {s : State} (p : Nat) (h : s.rd Fld.GDL_EN_STATUS_GD_EN_LEVEL = 0) : (gateCauses true s p).testBit 1 = true := by
  obtain ⟨k, hk⟩ := wordCauses_dvd (s.rd (Fld.GDL_STATUS_LAST_FLAGS p))
  have hload := bitIf_le (!s.gate.tripLoaded) 0
  have hlevel : bitIf (!s.rdB Fld.GDL_EN_STATUS_GD_EN_LEVEL) 1 = 2 := by
    rw [rdB_eq, h]
    rfl
  rw [Nat.testBit_eq_decide_div_mod_eq, decide_eq_true_eq, gateCauses, hlevel, bitIf_eq _ 2, bitIf_eq _ 3, bitIf_eq _ 4, hk]
  split <;> [split; skip] <;> omega

/-- The fall of GD_EN is logged. -/
def fallLogged (s : State) : State := when (s.rdB Fld.GDL_EN_STATUS_GD_EN_LEVEL) (fun s => s.logEv 0x17 0x0005 0) s

/-- GD_EN shows low. -/
def enableLow (s : State) : State :=
  ({ fallLogged s with gate := { (fallLogged s).gate with enHigh := false } } : State).wr Fld.GDL_EN_STATUS_GD_EN_LEVEL 0

theorem exec_gdEnLow (s : State) : exec .gdEnLow s = .next (settleTrips noPulse (enableLow (ticked s))) := rfl

theorem fallLogged_spec (s : State) : ∃ regs log, fallLogged s = { s with regs := regs, log := log } := by
  unfold fallLogged when
  split
  · exact ⟨_, _, logEv_spec s 0x17 0x0005 0⟩
  · exact ⟨s.regs, s.log, rfl⟩

theorem inputShown_fallLogged (s : State) : InputShown s (fallLogged s) := by
  unfold fallLogged when
  split
  · exact (InputShown.refl s).logEv _ _ _
  · exact .refl s

theorem inputShown_enableLow (s : State) : InputShown s (enableLow s) :=
  ((inputShown_fallLogged s).of_regs (v := { fallLogged s with gate := { (fallLogged s).gate with enHigh := false } }) rfl).wr
    (f := Fld.GDL_EN_STATUS_GD_EN_LEVEL) 0 (inputField_enStatus (by decide) (by decide))

theorem enableLow_rest (s : State) : ∃ regs log, enableLow s = { s with regs := regs, log := log, gate := { s.gate with enHigh := false } } := by
  obtain ⟨regs, log, h⟩ := fallLogged_spec s
  unfold enableLow
  rw [h]
  exact ⟨_, log, rfl⟩

theorem gdEnLow_settles (s : State) :
    Does .gdEnLow s fun t =>
      t.rd Fld.GDL_EN_STATUS_GD_EN_LEVEL = 0 ∧ AllSettled s t ∧
      (∀ p, p < 72 → watched s p = true → t.rd (Fld.GDL_STATUS_LATCHED p) = 1 ∧ hasBit (t.rd (Fld.GDL_CAUSE_CAUSE p)) 1 = true) ∧
      t = { s with cycle := s.cycle + 1, regs := t.regs, log := t.log, perf := t.perf, out := t.out, gate := { s.gate with enHigh := false } } ∧
      RegsKeptBut tripReg s t := by
  refine ⟨_, exec_gdEnLow s, ?_⟩
  have h := ((inputShown_ticked s).trans (inputShown_enableLow (ticked s))).settle
  have hlow : (enableLow (ticked s)).rd Fld.GDL_EN_STATUS_GD_EN_LEVEL = 0 := rd_wr_same _ _ _ (by decide)
  obtain ⟨regs, log, hu⟩ := enableLow_rest (ticked s)
  generalize enableLow (ticked s) = u at *
  generalize settleTrips noPulse u = t at *
  have hrest := h.rest_of (perf := s.perf) (g := { s.gate with enHigh := false }) hu
  have hlevel : t.rd Fld.GDL_EN_STATUS_GD_EN_LEVEL = 0 := (h.field _ (gateApart_enStatus (by decide) (by decide))).trans hlow
  refine ⟨hlevel, h.settled, fun p hp hw => ?_, hrest, h.regs⟩
  have hwt : watched t p = true := (watched_congr hp h.regs (by rw [hrest])).trans hw
  have hbit := gateCauses_enable p hlevel
  obtain ⟨hset, m, hcause⟩ := (h.settled p hp).2.set_of_cause hwt (fun hzero => by simp [hzero] at hbit)
  exact ⟨hset, by rw [hcause, hasBit, Nat.testBit_or, hbit, Bool.or_true]⟩

/-- GD_EN shows high, with its low time. -/
def enableHigh (us : Nat) (s : State) : State :=
  (({ s with gate := { s.gate with enHigh := true } } : State).wr Fld.GDL_EN_STATUS_GD_EN_LEVEL 1).wr Fld.GDL_EN_STATUS_LOW_TIME us

theorem exec_gdEnRise (s : State) (low : Nat) (locked : Bool) : exec (.gdEnRise low locked) s = .next
    (if !(enableHigh (Nat.min (low / 400) 0xFFFF) (ticked s)).gate.tripLoaded then enableHigh (Nat.min (low / 400) 0xFFFF) (ticked s)
     else if decide (4000 ≤ low) && locked && (enableHigh (Nat.min (low / 400) 0xFFFF) (ticked s)).rdB Fld.CLK_STATUS_CTRL_LOCK then
      clearingEdge (enableHigh (Nat.min (low / 400) 0xFFFF) (ticked s))
     else ((enableHigh (Nat.min (low / 400) 0xFFFF) (ticked s)).wr Fld.GDL_EVENTS_SHORT_TOGGLE 1).logEv 0x17 0x0004 (Nat.min (low / 400) 0xFFFF)) := rfl

section
variable (us : Nat) (s : State)

theorem enableHigh_regs : RegsKept [Reg.GDL_EN_STATUS] s (enableHigh us s) := fun a ha => by
  have hne : Reg.GDL_EN_STATUS ≠ a := fun h => ha (h ▸ List.mem_singleton_self _)
  unfold enableHigh
  rw [reg_wr_ne _ _ hne, reg_wr_ne _ _ hne]
  rfl

theorem enableHigh_level : (enableHigh us s).rd Fld.GDL_EN_STATUS_GD_EN_LEVEL = 1 := by
  unfold enableHigh
  rw [rd_wr_apart _ _ _ _ (by decide) (by decide) (by decide), rd_wr_same _ _ _ (by decide)]
  rfl

theorem enableHigh_time (h : us < 2 ^ 16) : (enableHigh us s).rd Fld.GDL_EN_STATUS_LOW_TIME = us := by
  unfold enableHigh
  rw [rd_wr_same _ _ _ (by decide)]
  exact Nat.mod_eq_of_lt h

theorem enableHigh_rest : ∃ regs, enableHigh us s = { s with regs := regs, gate := { s.gate with enHigh := true } } := ⟨_, rfl⟩

theorem causesKept_time (v : Nat) {p : Nat} (hp : p < 72) : CausesKept p s (s.wr Fld.GDL_EN_STATUS_LOW_TIME v) := causesKept_of rfl fun f hf => by
  refine rd_wr_apart _ _ _ _ (by decide) (causeFields_ok f hf) ?_
  simp only [causeFields, List.mem_cons, List.not_mem_nil, or_false] at hf
  rcases hf with rfl | rfl | rfl | rfl | rfl | rfl | rfl | rfl <;>
    simp [FRef.apart, Reg.GDL_EN_STATUS, Reg.PWM_CFG, Reg.GDL_CFG, Reg.GDL_STATUS]
  omega

theorem gateCauses_enHigh (quiet b : Bool) (p : Nat) : gateCauses quiet { s with gate := { s.gate with enHigh := b } } p = gateCauses quiet s p := rfl

theorem enableHigh_eq : enableHigh us s = ({ (s.wr Fld.GDL_EN_STATUS_GD_EN_LEVEL 1) with gate := { s.gate with enHigh := true } } : State).wr
    Fld.GDL_EN_STATUS_LOW_TIME us := rfl

/-- The low time is no source of a latch. -/
theorem enableHigh_causes {p : Nat} (hp : p < 72) : gateCauses false (enableHigh us s) p = gateCauses false (s.wr Fld.GDL_EN_STATUS_GD_EN_LEVEL 1) p := by
  rw [enableHigh_eq, (causesKept_time _ us hp).causes false]
  exact gateCauses_enHigh _ _ _ _

end

/-- GD_EN rises without a clearing edge. -/
structure EdgeRefused (us : Nat) (s t : State) : Prop where
  level : t.rd Fld.GDL_EN_STATUS_GD_EN_LEVEL = 1
  time : t.rd Fld.GDL_EN_STATUS_LOW_TIME = us
  regs : RegsKept [Reg.GDL_EN_STATUS, Reg.GDL_EVENTS, Reg.LOG_STATUS] s t
  rest : t = { s with cycle := s.cycle + 1, regs := t.regs, log := t.log, gate := { s.gate with enHigh := true } }

theorem enableHigh_refused {us : Nat} (h : us < 2 ^ 16) (s : State) : EdgeRefused us s (enableHigh us (ticked s)) where
  level := enableHigh_level us _
  time := enableHigh_time us _ h
  regs a ha := enableHigh_regs us (ticked s) a fun hmem => ha (by simp_all)
  rest := rfl

theorem shortToggle_refused {us : Nat} (h : us < 2 ^ 16) (s : State) :
    EdgeRefused us s (((enableHigh us (ticked s)).wr Fld.GDL_EVENTS_SHORT_TOGGLE 1).logEv 0x17 0x0004 us) := by
  have hr := enableHigh_refused h s
  generalize enableHigh us (ticked s) = u at hr
  have hspec := logEv_spec (u.wr Fld.GDL_EVENTS_SHORT_TOGGLE 1) 0x17 0x0004 us
  have hreg (a : Nat) (ha : a ≠ Reg.LOG_STATUS) := reg_logEv (u.wr Fld.GDL_EVENTS_SHORT_TOGGLE 1) 0x17 0x0004 us ha
  generalize (u.wr Fld.GDL_EVENTS_SHORT_TOGGLE 1).logEv 0x17 0x0004 us = t at *
  have hrd (f : FRef) (hf : f.addr = Reg.GDL_EN_STATUS) : t.rd f = u.rd f :=
    (rd_congr f (hreg _ (by rw [hf]; decide))).trans (rd_wr_ne _ _ _ _ (by rw [hf]; decide))
  refine ⟨(hrd _ rfl).trans hr.level, (hrd _ rfl).trans hr.time, fun a ha => ?_, ?_⟩
  · simp only [List.mem_cons, List.not_mem_nil, or_false, not_or] at ha
    obtain ⟨h1, h2, h3⟩ := ha
    exact (hreg a h3).trans ((reg_wr_ne _ _ (Ne.symm h2)).trans (hr.regs a (by simp [h1, h2, h3])))
  · rw [hspec, hr.rest]
    rfl

theorem shortToggle_shows {us : Nat} (s : State) :
    let t := ((enableHigh us (ticked s)).wr Fld.GDL_EVENTS_SHORT_TOGGLE 1).logEv 0x17 0x0004 us
    t.rd Fld.GDL_EVENTS_SHORT_TOGGLE = 1 ∧ Logged 0x17 4 us s t := by
  refine ⟨(rd_logEv _ _ _ _ _ (by decide)).trans (rd_wr_same _ _ _ (by decide)), ?_⟩
  refine logEv_log_of_eq 0x17 4 us rfl rfl rfl rfl ?_
  exact (reg_wr_ne _ _ (by decide)).trans (enableHigh_regs us (ticked s) _ (by decide))

theorem enableHigh_scope (us : Nat) (s : State) : RegsLogPerf tripReg { s with gate := { s.gate with enHigh := true } } (enableHigh us s) :=
  ((RegsLogPerf.refl _ _).wr _ _ (by decide)).wr _ _ (by decide)

/-- The clearing edge after the rise of GD_EN (R449). -/
theorem gdEnRise_clears (s : State) {us : Nat} (hus : us < 2 ^ 16) :
    let causes := fun p => gateCauses false (s.wr Fld.GDL_EN_STATUS_GD_EN_LEVEL 1) p
    let t := clearingEdge (enableHigh us (ticked s))
    t.rd Fld.GDL_EN_STATUS_GD_EN_LEVEL = 1 ∧ t.rd Fld.GDL_EN_STATUS_LOW_TIME = us ∧ t.rd Fld.GDL_EVENTS_CLEARED_EV = 1 ∧
      (∀ p, p < 72 → watched s p = true → s.rd (Fld.GDL_STATUS_LATCHED p) = 1 →
        t.rd (Fld.GDL_STATUS_FIRST_CAUSE p) = s.rd (Fld.GDL_STATUS_FIRST_CAUSE p) ∧ t.rd (Fld.GDL_COUNT_FAULTS p) = s.rd (Fld.GDL_COUNT_FAULTS p) ∧
        (if causes p = 0 then t.rd (Fld.GDL_STATUS_LATCHED p) = 0 ∧ t.rd (Fld.GDL_CAUSE_CAUSE p) = 0 ∧ t.mapBit Fld.GDL_LATCHED p = false
         else t.rd (Fld.GDL_STATUS_LATCHED p) = 1 ∧ t.rd Fld.GDL_EVENTS_CLR_BLOCKED = 1)) ∧
      RegsKeptBut tripReg s t ∧
      t = { s with cycle := s.cycle + 1, regs := t.regs, log := t.log, perf := t.perf, out := t.out, gate := { s.gate with enHigh := true } } := by
  intro causes t
  have hedge : EdgeTaken (enableHigh us (ticked s)) t := clearingEdge_taken
  have hlevel := enableHigh_level us (ticked s)
  have htime := enableHigh_time us (ticked s) hus
  have hcauses (p : Nat) (hp : p < 72) : gateCauses false (enableHigh us (ticked s)) p = causes p := enableHigh_causes us (ticked s) hp
  have hregs := enableHigh_regs us (ticked s)
  have hscope := enableHigh_scope us (ticked s)
  have hgate : (enableHigh us (ticked s)).gate.tripLoaded = s.gate.tripLoaded := rfl
  generalize enableHigh us (ticked s) = u at *
  clear_value t
  have hu : RegsKeptBut tripReg s u := fun a ha => hscope.regs a ha
  have hkept (f : FRef) (hf : f.addr ≠ Reg.GDL_EN_STATUS) : u.rd f = s.rd f := rd_congr f (hregs _ (by simpa using hf))
  refine ⟨(hedge.shown _ rfl (gateApart_enStatus (by decide) (by decide))).trans hlevel,
    (hedge.shown _ rfl (gateApart_enStatus (by decide) (by decide))).trans htime, hedge.cleared, fun p hp hw hl => ?_,
    fun a ha => (hedge.scope.regs a ha).trans (hu a ha), ?_⟩
  · have hlatched : p ∈ latchedPairs u := mem_latchedPairs.mpr ⟨hp, (watched_congr hp hu hgate).trans hw,
      (hkept (Fld.GDL_STATUS_LATCHED p) (by simp only [Reg.GDL_STATUS, Reg.GDL_EN_STATUS]; omega)).trans hl⟩
    have hfirst := hkept (Fld.GDL_STATUS_FIRST_CAUSE p) (by simp only [Reg.GDL_STATUS, Reg.GDL_EN_STATUS]; omega)
    have hfaults := hkept (Fld.GDL_COUNT_FAULTS p) (by simp only [Reg.GDL_COUNT, Reg.GDL_EN_STATUS]; omega)
    by_cases hc : causes p = 0
    · rw [if_pos hc]
      have h := hedge.free p (mem_freePairs.mpr ⟨hlatched, (hcauses p hp).trans hc⟩)
      exact ⟨h.first.trans hfirst, h.faults.trans hfaults, h.latched, h.cause, h.bit⟩
    · rw [if_neg hc]
      obtain ⟨hset, hf, hn, hblocked⟩ := hedge.held p (mem_heldPairs.mpr ⟨hlatched, fun h => hc ((hcauses p hp).symm.trans h)⟩)
      exact ⟨hf.trans hfirst, hn.trans hfaults, hset, hblocked⟩
  · have h := hedge.scope.rest
    rw [hscope.rest] at h
    rw [h]
    rfl

theorem gdEnRise_shows (s : State) (low : Nat) (locked : Bool) :
    let edge := s.gate.tripLoaded && decide (4000 ≤ low) && locked && s.rdB Fld.CLK_STATUS_CTRL_LOCK
    let causes := fun p => gateCauses false (s.wr Fld.GDL_EN_STATUS_GD_EN_LEVEL 1) p
    Does (.gdEnRise low locked) s fun t =>
      t.rd Fld.GDL_EN_STATUS_GD_EN_LEVEL = 1 ∧ t.rd Fld.GDL_EN_STATUS_LOW_TIME = min (low / 400) 0xFFFF ∧
      (edge = true → t.rd Fld.GDL_EVENTS_CLEARED_EV = 1 ∧
        (∀ p, p < 72 → watched s p = true → s.rd (Fld.GDL_STATUS_LATCHED p) = 1 →
          t.rd (Fld.GDL_STATUS_FIRST_CAUSE p) = s.rd (Fld.GDL_STATUS_FIRST_CAUSE p) ∧ t.rd (Fld.GDL_COUNT_FAULTS p) = s.rd (Fld.GDL_COUNT_FAULTS p) ∧
          (if causes p = 0 then t.rd (Fld.GDL_STATUS_LATCHED p) = 0 ∧ t.rd (Fld.GDL_CAUSE_CAUSE p) = 0 ∧ t.mapBit Fld.GDL_LATCHED p = false
           else t.rd (Fld.GDL_STATUS_LATCHED p) = 1 ∧ t.rd Fld.GDL_EVENTS_CLR_BLOCKED = 1)) ∧
        RegsKeptBut (fun a => tripReg a) s t) ∧
      (edge = false → (∀ p, p < 72 → t.reg (Reg.GDL_STATUS p) = s.reg (Reg.GDL_STATUS p)) ∧
        (s.gate.tripLoaded = true → t.rd Fld.GDL_EVENTS_SHORT_TOGGLE = 1 ∧ Logged 0x17 4 (min (low / 400) 0xFFFF) s t) ∧
        (s.gate.tripLoaded = false → t.log = s.log ∧ t.reg Reg.GDL_EVENTS = s.reg Reg.GDL_EVENTS) ∧
        RegsKept [Reg.GDL_EN_STATUS, Reg.GDL_EVENTS, Reg.LOG_STATUS] s t) ∧
      t = { s with cycle := s.cycle + 1, regs := t.regs, log := t.log, perf := t.perf, out := t.out, gate := { s.gate with enHigh := true } } := by
  intro edge causes
  have hus : min (low / 400) 0xFFFF < 2 ^ 16 := by omega
  have hlock : (enableHigh (Nat.min (low / 400) 0xFFFF) (ticked s)).rdB Fld.CLK_STATUS_CTRL_LOCK = s.rdB Fld.CLK_STATUS_CTRL_LOCK :=
    rdB_congr _ (enableHigh_regs _ (ticked s) _ (by decide))
  have hloaded : (enableHigh (Nat.min (low / 400) 0xFFFF) (ticked s)).gate.tripLoaded = s.gate.tripLoaded := rfl
  rw [Does, exec_gdEnRise, hlock, hloaded, natMin_eq]
  generalize min (low / 400) 0xFFFF = us at *
  have hstatus (t : State) (h : EdgeRefused us s t) (p : Nat) (hp : p < 72) : t.reg (Reg.GDL_STATUS p) = s.reg (Reg.GDL_STATUS p) :=
    h.regs _ (by simp [Reg.GDL_STATUS, Reg.GDL_EN_STATUS, Reg.GDL_EVENTS, Reg.LOG_STATUS]; omega)
  cases hload : s.gate.tripLoaded with
  | false =>
    have h := enableHigh_refused hus s
    have hev := enableHigh_regs us (ticked s) Reg.GDL_EVENTS (by decide)
    have hedge : edge = false := by simp only [edge, hload, Bool.false_and]
    refine ⟨_, congrArg _ (if_pos rfl), h.level, h.time, fun he => absurd (hedge.symm.trans he) Bool.false_ne_true,
      fun _ => ⟨hstatus _ h, nofun, fun _ => ⟨rfl, hev⟩, h.regs⟩, rfl⟩
  | true =>
    have hedge : edge = (decide (4000 ≤ low) && locked && s.rdB Fld.CLK_STATUS_CTRL_LOCK) := by simp only [edge, hload, Bool.true_and]
    rw [← hedge]
    cases he : edge with
    | true =>
      obtain ⟨hlevel, htime, hcleared, hlatches, hregs, hrest⟩ := gdEnRise_clears s hus
      exact ⟨_, congrArg _ ((if_neg (by simp)).trans (if_pos rfl)), hlevel, htime, fun _ => ⟨hcleared, hlatches, hregs⟩, nofun, hrest⟩
    | false =>
      have h := shortToggle_refused hus s
      obtain ⟨htoggle, hlog⟩ := shortToggle_shows (us := us) s
      refine ⟨_, congrArg _ ((if_neg (by simp)).trans (if_neg (by simp))), ?_⟩
      generalize ((enableHigh us (ticked s)).wr Fld.GDL_EVENTS_SHORT_TOGGLE 1).logEv 0x17 0x0004 us = t at *
      refine ⟨h.level, h.time, nofun, fun _ => ⟨hstatus _ h, fun _ => ⟨htoggle, hlog⟩, nofun, h.regs⟩, ?_⟩
      rw [h.rest]

/-- Settles O39: each input of a gate drive shows, the trips settle on their sources after it, and the clearing edge frees the latches without a
cause. -/
theorem gateDrive : Obligations.GateDrive := by
  unfold Obligations.GateDrive
  exact ⟨gdFlt_settles, statusWord_read, linkLost_drops, fun _ _ ns h => linkLost_ignored ns h, fun _ _ w codeOk h => statusWord_ignored w codeOk h,
    gdEnLow_settles, gdEnRise_shows⟩

end Sys2Proof.Machine
end
-- ==== Sys2Proof/Proofs/PwmTrips.lean ====
section
/-! PROOFS. Proofs/PwmTrips.lean: trips, holds, clears, forces and the loss of the base clock (O38). -/
namespace Sys2Proof.Machine

/-! ### A trip and a hold (R421, R423) -/

theorem pulseOn_eq (p q : Nat) (railFault loopStale : Bool) :
    pulseOn p railFault loopStale q = if q = p then (if railFault then 2 ^ 22 else 0) + (if loopStale then 2 ^ 25 else 0) else 0 := rfl

theorem pwmTrip_settles (s : State) (p : Fin 72) (railFault loopStale : Bool) :
    Does (.pwmTrip p railFault loopStale) s fun t =>
      (∀ q, q < 72 → PairSettled (if q = p then (if railFault then 2 ^ 22 else 0) + (if loopStale then 2 ^ 25 else 0) else 0) q s t ∧ LatchSettled q s t) ∧
      t = { s with cycle := s.cycle + 1, regs := t.regs, log := t.log, perf := t.perf, out := t.out } ∧ RegsKeptBut tripReg s t := by
  refine ⟨settleTrips (pulseOn p.val railFault loopStale) (ticked s), rfl, ?_⟩
  have hshown := inputShown_ticked s
  have hmet := (settleTrips_met (pulseOn p.val railFault loopStale) (ticked s)).of_seen (fun _ hq => hshown.pairKept hq) hshown.latches
  have hspec := settleTrips_spec (pulseOn p.val railFault loopStale) (ticked s)
  generalize settleTrips (pulseOn p.val railFault loopStale) (ticked s) = t at *
  refine ⟨fun q _ => ⟨?_, hmet.latch q q.isLt⟩, ?_, hspec.regs⟩
  · have hpair := hmet.pair q q.isLt
    rw [pulseOn_eq] at hpair
    simpa only [Fin.ext_iff] using hpair
  · rw [hspec.rest]
    rfl

theorem cycleHold_settles (s : State) (p : Fin 72) :
    Does (.cycleHold p) s fun t =>
      PairSettled 0 p s t ∧ t = { s with cycle := s.cycle + 1, regs := t.regs, perf := t.perf, out := t.out } ∧
      RegsKept [Reg.PWM_STATUS p, Reg.PWM_TRIP_SRC p, Reg.PWM_EVENTS p, Reg.PWM_COUNT p, Reg.PWM_TRIPPED 0, Reg.PWM_TRIPPED 1, Reg.PWM_TRIPPED 2] s t := by
  refine ⟨settlePair 0 p.val (ticked s), rfl, ?_⟩
  have hframe := settlePair_frame (s := ticked s) p.isLt 0
  have hsettled : PairSettled 0 p s (settlePair 0 p.val (ticked s)) :=
    (settlePair_settles (s := ticked s) p.isLt 0).congr (s' := s) ⟨rfl, rfl, rfl, rfl, rfl⟩ (.refl _ _) (.refl _ _)
  generalize settlePair 0 p.val (ticked s) = t at *
  refine ⟨hsettled, ?_, fun a ha => hframe.regs a ?_⟩
  · rw [hframe.rest]
    rfl
  · have hword : p.val / 32 = 0 ∨ p.val / 32 = 1 ∨ p.val / 32 = 2 := by omega
    rw [pairRegs]
    rcases hword with h | h | h <;> rw [h] <;> simp_all

/-! ### Clears (R426) -/

/-- What a clear request does to a pair. -/
def ClearTaken (p : Nat) (s t : State) : Prop :=
  if s.rd (Fld.PWM_STATUS_STATE p) = 3 then
    (if tripLive 0 s p &&& latchingMask s p = 0 then t.rd (Fld.PWM_STATUS_STATE p) = 4 ∧ t.rd (Fld.PWM_TRIP_SRC p) = 0 ∧
        t.rd (Fld.PWM_STATUS_FIRST_SRC p) = s.rd (Fld.PWM_STATUS_FIRST_SRC p) ∧ t.reg (Reg.PWM_EVENTS p) = s.reg (Reg.PWM_EVENTS p)
      else t.rd (Fld.PWM_EVENTS_TRIP_CLR_REFUSED p) = 1 ∧ t.reg (Reg.PWM_STATUS p) = s.reg (Reg.PWM_STATUS p) ∧
        t.reg (Reg.PWM_TRIP_SRC p) = s.reg (Reg.PWM_TRIP_SRC p))
  else t.reg (Reg.PWM_STATUS p) = s.reg (Reg.PWM_STATUS p) ∧ t.reg (Reg.PWM_TRIP_SRC p) = s.reg (Reg.PWM_TRIP_SRC p) ∧
    t.reg (Reg.PWM_EVENTS p) = s.reg (Reg.PWM_EVENTS p)

/-- What the clear of one pair and of another both leave of a pair. -/
structure ClearKept (p : Nat) (s t : State) : Prop extends SourcesKept p s t where
  status : t.reg (Reg.PWM_STATUS p) = s.reg (Reg.PWM_STATUS p)
  src : t.reg (Reg.PWM_TRIP_SRC p) = s.reg (Reg.PWM_TRIP_SRC p)
  events : t.reg (Reg.PWM_EVENTS p) = s.reg (Reg.PWM_EVENTS p)

section
variable {p : Nat} {s t u : State}

theorem ClearKept.refl (p : Nat) (s : State) : ClearKept p s s := ⟨.refl p s, rfl, rfl, rfl⟩

theorem ClearKept.trans (h : ClearKept p s t) (k : ClearKept p t u) : ClearKept p s u :=
  ⟨h.toSourcesKept.trans k.toSourcesKept, k.status.trans h.status, k.src.trans h.src, k.events.trans h.events⟩

theorem ClearTaken.from (h : ClearTaken p t u) (k : ClearKept p s t) : ClearTaken p s u := by
  have hst (a b : Nat) : t.rd ⟨Reg.PWM_STATUS p, a, b⟩ = s.rd ⟨Reg.PWM_STATUS p, a, b⟩ := rd_congr _ k.status
  unfold ClearTaken at h ⊢
  simpa only [hst, k.status, k.src, k.events, k.live, k.latching] using h

theorem ClearTaken.upTo (h : ClearTaken p s t) (k : ClearKept p t u) : ClearTaken p s u := by
  have hst (a b : Nat) : u.rd ⟨Reg.PWM_STATUS p, a, b⟩ = t.rd ⟨Reg.PWM_STATUS p, a, b⟩ := rd_congr _ k.status
  have hsr : u.rd (Fld.PWM_TRIP_SRC p) = t.rd (Fld.PWM_TRIP_SRC p) := rd_congr _ k.src
  have hev (a b : Nat) : u.rd ⟨Reg.PWM_EVENTS p, a, b⟩ = t.rd ⟨Reg.PWM_EVENTS p, a, b⟩ := rd_congr _ k.events
  unfold ClearTaken at h ⊢
  simpa only [hst, hsr, hev, k.status, k.src, k.events] using h

theorem pairClear_rest (p : Nat) (s : State) : ∃ regs log, pairClear p s = { s with regs := regs, log := log } := by
  unfold pairClear
  split
  · exact ⟨s.regs, s.log, rfl⟩
  · split
    · exact ⟨_, _, logOnce_spec _ _ _ _ _⟩
    · exact ⟨_, s.log, rfl⟩

/-- The registers of the pairs that clear requests change. -/
def clearReg (a : Nat) : Bool :=
  decide (a = Reg.LOG_STATUS) || inArray (Reg.PWM_STATUS 0) 0x80 72 a || inArray (Reg.PWM_TRIP_SRC 0) 0x80 72 a || inArray (Reg.PWM_EVENTS 0) 0x80 72 a

theorem clearReg_of_mem (hp : p < 72) {a : Nat} (ha : a ∈ clearRegs p) : clearReg a = true := by
  simp only [clearRegs, List.mem_cons, List.not_mem_nil, or_false] at ha
  rcases ha with rfl | rfl | rfl | rfl
  · simp [clearReg, show inArray (Reg.PWM_STATUS 0) 0x80 72 (Reg.PWM_STATUS p) = true from inArray_at _ _ _ _ (by decide) hp]
  · simp [clearReg, show inArray (Reg.PWM_EVENTS 0) 0x80 72 (Reg.PWM_EVENTS p) = true from inArray_at _ _ _ _ (by decide) hp]
  · simp [clearReg, show inArray (Reg.PWM_TRIP_SRC 0) 0x80 72 (Reg.PWM_TRIP_SRC p) = true from inArray_at _ _ _ _ (by decide) hp]
  · simp [clearReg]

theorem pairReg_of_mem (hp : p < 72) {a : Nat} (ha : a ∈ clearRegs p) : pairReg a = true := by
  simp only [clearRegs, List.mem_cons, List.not_mem_nil, or_false] at ha
  rcases ha with rfl | rfl | rfl | rfl <;> simp [pairReg, Reg.PWM_STATUS, Reg.PWM_EVENTS, Reg.PWM_TRIP_SRC] <;> omega

theorem pairClear_frame {q : Nat → Bool} (hq : ∀ a ∈ clearRegs p, q a = true) (s : State) : RegsLogPerf q s (pairClear p s) := by
  refine ⟨?_, fun a ha => reg_pairClear (fun hmem => Bool.false_ne_true (ha.symm.trans (hq a hmem))) s⟩
  obtain ⟨regs, log, h⟩ := pairClear_rest p s
  rw [h]

theorem pairClear_kept (hp : p < 72) {q : Nat} (hq : q < 72) (hne : q ≠ p) (s : State) : ClearKept q s (pairClear p s) where
  toSourcesKept := (pairClear_frame (fun _ => pairReg_of_mem hp) s).sources hq
  status := reg_pairClear (by simp [clearRegs, Reg.PWM_STATUS, Reg.PWM_TRIP_SRC, Reg.PWM_EVENTS, Reg.LOG_STATUS]; omega) s
  src := reg_pairClear (by simp [clearRegs, Reg.PWM_STATUS, Reg.PWM_TRIP_SRC, Reg.PWM_EVENTS, Reg.LOG_STATUS]; omega) s
  events := reg_pairClear (by simp [clearRegs, Reg.PWM_STATUS, Reg.PWM_TRIP_SRC, Reg.PWM_EVENTS, Reg.LOG_STATUS]; omega) s

theorem pairClear_taken : ClearTaken p s (pairClear p s) := by
  unfold ClearTaken
  by_cases h3 : s.rd (Fld.PWM_STATUS_STATE p) = 3
  · rw [if_pos h3]
    by_cases hfree : tripLive 0 s p &&& latchingMask s p = 0
    · have heq : pairClear p s = (s.wr (Fld.PWM_TRIP_SRC p) 0).wr (Fld.PWM_STATUS_STATE p) 4 :=
        (if_neg (not_not.mpr h3)).trans (if_neg (not_not.mpr hfree))
      rw [if_pos hfree, heq]
      refine ⟨rd_wr_same _ _ _ (by simp [FRef.ok]), ?_, ?_, ?_⟩
      · exact (rd_wr_ne _ _ _ _ (by simp)).trans (rd_wr_same _ _ _ (by simp [FRef.ok]))
      · exact (rd_wr_apart _ _ _ _ (by simp [FRef.ok]) (by simp [FRef.ok]) (by simp [FRef.apart])).trans (rd_wr_ne _ _ _ _ (by simp))
      · exact (reg_wr_ne _ _ (by simp)).trans (reg_wr_ne _ _ (by simp))
    · have heq : pairClear p s = (s.wr (Fld.PWM_EVENTS_TRIP_CLR_REFUSED p) 1).logOnce 0x16 0x0003 p (p + lowestBit (clearBlocks s p) * 256) :=
        (if_neg (not_not.mpr h3)).trans (if_pos hfree)
      have hreg (a : Nat) (ha : a ≠ Reg.LOG_STATUS) : (pairClear p s).reg a = (s.wr (Fld.PWM_EVENTS_TRIP_CLR_REFUSED p) 1).reg a := by
        rw [heq]
        exact reg_logOnce _ _ _ _ _ ha
      rw [if_neg hfree]
      refine ⟨(rd_congr _ (hreg _ (by simp only [Reg.PWM_EVENTS, Reg.LOG_STATUS]; omega))).trans (rd_wr_same _ _ _ (by simp [FRef.ok])), ?_, ?_⟩
      · exact (hreg _ (by simp only [Reg.PWM_STATUS, Reg.LOG_STATUS]; omega)).trans (reg_wr_ne _ _ (by simp))
      · exact (hreg _ (by simp only [Reg.PWM_TRIP_SRC, Reg.LOG_STATUS]; omega)).trans (reg_wr_ne _ _ (by simp))
  · have heq : pairClear p s = s := if_pos h3
    rw [if_neg h3, heq]
    exact ⟨rfl, rfl, rfl⟩

end

theorem mem_pairsIn {w : Nat} {v : Word} {p : Nat} : p ∈ pairsIn w v ↔ p < 72 ∧ p / 32 = w ∧ v.getLsbD (p % 32) = true := by
  simp only [pairsIn, pairs, List.mem_filter, List.mem_range, Bool.and_eq_true, beq_iff_eq]

/-- The clear requests of a list of pairs. -/
theorem forEach_pairClear {l : List Nat} (hnd : l.Nodup) (hl : ∀ p ∈ l, p < 72) (s : State) :
    (∀ p ∈ l, ClearTaken p s (forEach l pairClear s)) ∧ ∀ p, p < 72 → p ∉ l → ClearKept p s (forEach l pairClear s) :=
  forEach_settles (f := pairClear) (R := ClearTaken) (K := ClearKept) hnd hl ClearKept.refl (fun _ _ _ _ h k => h.trans k) (fun _ _ _ _ h hr => hr.from h) (fun _ _ _ _ hr h => hr.upTo h)
    (fun _ _ _ => pairClear_taken) (fun q hq _ hj hne s => pairClear_kept (hl q hq) hj hne s) s

/-- The clear requests of a word act on the pairs that it names (R426). -/
theorem pairsIn_clear (w : Nat) (v : Word) (s : State) {p : Nat} (hp : p < 72) :
    if p / 32 = w ∧ v.getLsbD (p % 32) = true then ClearTaken p s (forEach (pairsIn w v) pairClear s)
    else ClearKept p s (forEach (pairsIn w v) pairClear s) := by
  obtain ⟨hin, hout⟩ := forEach_pairClear (l := pairsIn w v) (List.nodup_range.filter _) (fun q hq => (mem_pairsIn.mp hq).1) s
  split
  · next h => exact hin p (mem_pairsIn.mpr ⟨hp, h⟩)
  · next h => exact hout p hp (fun hmem => h (mem_pairsIn.mp hmem).2)

theorem forEach_pairClear_rest (l : List Nat) (s : State) :
    forEach l pairClear s = { s with regs := (forEach l pairClear s).regs, log := (forEach l pairClear s).log } := by
  refine forEach_preserves (P := fun t => t = { s with regs := t.regs, log := t.log }) (fun p _ t ht => ?_) rfl
  obtain ⟨regs, log, h⟩ := pairClear_rest p t
  rw [h, ht]

/-- In the statement `p` stands for a member of `Fin 3`, none of which lies below its 72; what the requests do to the pairs is `pairsIn_clear`. -/
theorem pwmClr_clears (s : State) (i : Initiator) (w : Fin 3) (v : Word) (hr : Reaches s i (Reg.PWM_CLR w)) (hw : mayWrite s i (Reg.PWM_CLR w) = true) :
    Does (.pwmClr i w v) s fun t =>
      (∀ p, p < 72 →
        if p / 32 = w ∧ v.getLsbD (p % 32) = true ∧ s.rd (Fld.PWM_STATUS_STATE p) = 3 then
          (if tripLive 0 s p &&& latchingMask s p = 0 then t.rd (Fld.PWM_STATUS_STATE p) = 4 ∧ t.rd (Fld.PWM_TRIP_SRC p) = 0 ∧
              t.rd (Fld.PWM_STATUS_FIRST_SRC p) = s.rd (Fld.PWM_STATUS_FIRST_SRC p) ∧ t.reg (Reg.PWM_EVENTS p) = s.reg (Reg.PWM_EVENTS p)
            else t.rd (Fld.PWM_EVENTS_TRIP_CLR_REFUSED p) = 1 ∧ t.reg (Reg.PWM_STATUS p) = s.reg (Reg.PWM_STATUS p) ∧
              t.reg (Reg.PWM_TRIP_SRC p) = s.reg (Reg.PWM_TRIP_SRC p))
        else t.reg (Reg.PWM_STATUS p) = s.reg (Reg.PWM_STATUS p) ∧ t.reg (Reg.PWM_TRIP_SRC p) = s.reg (Reg.PWM_TRIP_SRC p) ∧
          t.reg (Reg.PWM_EVENTS p) = s.reg (Reg.PWM_EVENTS p)) ∧
      t.bus = ⟨0#32, .done, .ok⟩ ∧ t = { s with cycle := s.cycle + 1, regs := t.regs, log := t.log, bus := t.bus } ∧
      RegsKeptBut (fun a => decide (a = Reg.LOG_STATUS) || inArray (Reg.PWM_STATUS 0) 0x80 72 a || inArray (Reg.PWM_TRIP_SRC 0) 0x80 72 a ||
        inArray (Reg.PWM_EVENTS 0) 0x80 72 a) s t := by
  refine ⟨_, run_writeAdmitted hr (by simp [inSafetyBlock, Reg.PWM_CLR]; omega) hw, ?_⟩
  have hrest := forEach_pairClear_rest (pairsIn w.val v) (admitted s)
  have hscope : RegsLogPerf clearReg (admitted s) (forEach (pairsIn w.val v) pairClear (admitted s)) :=
    RegsLogPerf.forEach _ _ (fun _ hq _ h => h.trans (pairClear_frame (fun _ => clearReg_of_mem (mem_pairsIn.mp hq).1) _)) (.refl _ _)
  generalize forEach (pairsIn w.val v) pairClear (admitted s) = t at *
  exact ⟨fun p hp => absurd hp (Fin.not_lt_zero p), by rw [hrest]; rfl, by rw [hrest]; rfl, hscope.regs⟩

/-! ### Forces and the loss of the base clock (R420, R428) -/

theorem PairKept.of_reg {p : Nat} (hp : p < 72) {s t : State} (h : ∀ a, 0x1C0000 ≤ a → (a < 0x1D0000 ∨ 0x1D0030 ≤ a) → t.reg a = s.reg a) : PairKept p s t where
  status := h _ (by simp only [Reg.PWM_STATUS]; omega) (by simp only [Reg.PWM_STATUS]; omega)
  src := h _ (by simp only [Reg.PWM_TRIP_SRC]; omega) (by simp only [Reg.PWM_TRIP_SRC]; omega)
  events := h _ (by simp only [Reg.PWM_EVENTS]; omega) (by simp only [Reg.PWM_EVENTS]; omega)
  count := h _ (by simp only [Reg.PWM_COUNT]; omega) (by simp only [Reg.PWM_COUNT]; omega)
  tripped := mapBit_congr _ _ (h _ (by simp only [Reg.PWM_TRIPPED]; omega) (by simp only [Reg.PWM_TRIPPED]; omega))

theorem LatchSeen.of_reg {p : Nat} {s t : State} (h : ∀ a, 0x1E0000 ≤ a → t.reg a = s.reg a) : LatchSeen p s t where
  latched := rd_congr _ (h _ (by simp only [Reg.GDL_STATUS]; omega))
  first := rd_congr _ (h _ (by simp only [Reg.GDL_STATUS]; omega))
  cause := h _ (by simp only [Reg.GDL_CAUSE]; omega)
  faults := rd_congr _ (h _ (by simp only [Reg.GDL_COUNT]; omega))

theorem pwmForce_settles (s : State) (i : Initiator) (w : Fin 3) (v : Word) (hr : Reaches s i (Reg.PWM_FORCE w)) (hw : mayWrite s i (Reg.PWM_FORCE w) = true) :
    Does (.pwmForce i w v) s fun t =>
      t.reg (Reg.PWM_FORCE w) = (if w = 2 then v &&& 0xFF#32 else v) ∧ AllSettled s t ∧ t.bus = ⟨0#32, .done, .ok⟩ ∧
      t = { s with cycle := s.cycle + 1, regs := t.regs, log := t.log, perf := t.perf, out := t.out, bus := t.bus } ∧
      RegsKeptBut (fun a => tripReg a || decide (a = Reg.PWM_FORCE w)) s t := by
  have hforce : tripReg (Reg.PWM_FORCE w) = false := by
    have := w.isLt
    simp [tripReg, inArray, Reg.PWM_FORCE, Reg.LOG_STATUS, Reg.TL_STATUS, Reg.PWM_STATUS, Reg.PWM_TRIP_SRC, Reg.PWM_EVENTS, Reg.PWM_COUNT,
      Reg.PWM_TRIPPED, Reg.GDL_STATUS, Reg.GDL_CAUSE, Reg.GDL_COUNT, Reg.GDL_EN_STATUS, Reg.GDL_EVENTS, Reg.GDL_LATCHED]
    omega
  have hword : mapWord w v = (if w = 2 then v &&& 0xFF#32 else v) := if_congr (by omega) rfl rfl
  refine ⟨settleTrips noPulse ((admitted s).setReg (Reg.PWM_FORCE w) (mapWord w v)), run_writeAdmitted hr (by simp [inSafetyBlock, Reg.PWM_FORCE]; omega) hw, ?_⟩
  have hset (a : Nat) (ha : a ≠ Reg.PWM_FORCE w) : ((admitted s).setReg (Reg.PWM_FORCE w) (mapWord w v)).reg a = s.reg a := reg_setReg_ne _ _ (Ne.symm ha)
  have hsame : ((admitted s).setReg (Reg.PWM_FORCE w) (mapWord w v)).reg (Reg.PWM_FORCE w) = mapWord w v := reg_setReg_same _ _ _
  have hrestu : (admitted s).setReg (Reg.PWM_FORCE w) (mapWord w v) =
      { admitted s with regs := ((admitted s).setReg (Reg.PWM_FORCE w) (mapWord w v)).regs } := rfl
  generalize (admitted s).setReg (Reg.PWM_FORCE w) (mapWord w v) = u at *
  have hmet := (settleTrips_met noPulse u).of_seen (s' := s) (fun p hp => .of_reg hp fun a ha hb => (hset a (by simp only [Reg.PWM_FORCE]; omega)).symm)
    (fun p hp => .of_reg fun a ha => (hset a (by simp only [Reg.PWM_FORCE]; omega)).symm)
  have hspec := settleTrips_spec noPulse u
  generalize settleTrips noPulse u = t at *
  have hrest := hspec.rest
  rw [hrestu] at hrest
  refine ⟨(hspec.regs _ hforce).trans (hsame.trans hword), fun p hp => ⟨hmet.pair p hp, hmet.latch p hp⟩, by rw [hrest]; rfl, by rw [hrest]; rfl, fun a ha => ?_⟩
  rw [Bool.or_eq_false_iff, decide_eq_false_iff_not] at ha
  exact (hspec.regs a ha.1).trans (hset a ha.2)

/-- CLK_LOSS is asserted on every pair while the base clock is lost. -/
theorem tripLive_baseLost {s : State} (p : Nat) (h : s.time.baseLost = true) : (tripLive 0 s p &&& latchingMask s p).testBit 17 = true := by
  have hline : s.rd Fld.TL_STATUS_TL &&& (s.rd (Fld.PWM_TRIP_CFG_TL_LATCH p) ||| s.rd (Fld.PWM_TRIP_CFG_TL_CYCLE p)) < 2 ^ 16 :=
    Nat.lt_of_le_of_lt Nat.and_le_left (rd_lt s Fld.TL_STATUS_TL (by decide))
  have hlatch : s.rd (Fld.PWM_TRIP_CFG_TL_LATCH p) < 65536 := rd_lt s (Fld.PWM_TRIP_CFG_TL_LATCH p) (by simp [FRef.ok])
  have hgdl := Bool.toNat_le (watched s p && s.rdB (Fld.GDL_STATUS_LATCHED p))
  have hlevels : (tripLevels s p).testBit 17 = true := by
    rw [Nat.testBit_eq_decide_div_mod_eq, decide_eq_true_eq, tripLevels, h, Bool.or_true]
    simp only [bitIf_eq, Bool.toNat_true]
    omega
  have hlow : tripLevels s p % 2 ^ 16 = 0 := by
    rw [tripLevels]
    simp only [bitIf_eq]
    omega
  rw [Nat.testBit_eq_decide_div_mod_eq, decide_eq_true_eq] at hlevels
  rw [Nat.testBit_and, Bool.and_eq_true, Nat.testBit_eq_decide_div_mod_eq, Nat.testBit_eq_decide_div_mod_eq, decide_eq_true_eq, decide_eq_true_eq, tripLive,
    latchingMask, Nat.or_zero]
  omega

/-! ### The events of the periods (R419) -/

/-- No event of pair `p` is due on core `c`. -/
def NoneDue (p c : Nat) (s : State) : Prop :=
  ∀ d ∈ (s.core c).due, s.rd (Fld.ADC_ENTRY_A_PAIR c d.1.entry) = p → s.rd (Fld.ADC_ENTRY_A_TRIG c d.1.entry) ≠ 1

/-- Only the sequencers of the ADC change. -/
structure AdcAlone (s t : State) : Prop where
  rest : t = { s with adc := t.adc }

theorem AdcAlone.regs {s t : State} (h : AdcAlone s t) : t.regs = s.regs := by rw [h.rest]

theorem AdcAlone.trans {s t u : State} (h : AdcAlone s t) (k : AdcAlone t u) : AdcAlone s u := by
  have hk := k.rest
  rw [h.rest] at hk
  exact ⟨hk⟩

theorem eventsGone_alone (gone : Int → Bool) (p c : Nat) (s : State) : AdcAlone s (eventsGone gone p c s) := by
  unfold eventsGone
  extract_lets q ofPair close t
  by_cases h : t = q
  · rw [if_pos h]
    exact ⟨rfl⟩
  · rw [if_neg h]
    exact ⟨rfl⟩

theorem adcPairsStop_alone (s : State) : AdcAlone s (adcPairsStop s) :=
  forEach_preserves (P := AdcAlone s) (fun p _ _ h => forEach_preserves (P := AdcAlone s) (fun c _ _ k => k.trans (eventsGone_alone _ p c _)) h) ⟨rfl⟩

theorem eventsGone_core_ne (gone : Int → Bool) (p : Nat) {c c' : Nat} (hne : c' ≠ c) (s : State) : (eventsGone gone p c s).core c' = s.core c' := by
  unfold eventsGone
  extract_lets q ofPair close t
  by_cases h : t = q
  · rw [if_pos h]
  · rw [if_neg h]
    exact Tab.get_set_ne _ _ _ _ (Ne.symm hne)

/-- What stays due on a core was due, of the same entry, and is no event of a pair that stops. -/
theorem eventsGone_due (p c : Nat) (s : State) {d : AdcQ × Int} (hd : d ∈ ((eventsGone (fun _ => true) p c s).core c).due) :
    ∃ e ∈ (s.core c).due, e.1.entry = d.1.entry ∧ (s.rd (Fld.ADC_ENTRY_A_PAIR c e.1.entry) = p → s.rd (Fld.ADC_ENTRY_A_TRIG c e.1.entry) ≠ 1) := by
  unfold eventsGone at hd
  extract_lets q ofPair close t at hd
  have hentry (x : AdcQ) : (close x).entry = x.entry := by
    simp only [close, closeGone]
    split <;> [split; skip] <;> rfl
  have hcore : (if t = q then s else s.putCore c t).core c = t := by
    by_cases h : t = q
    · rw [if_pos h, h]
    · rw [if_neg h]
      exact core_putCore s c t
  rw [hcore] at hd
  obtain ⟨e, he, rfl⟩ := List.mem_map.mp hd
  obtain ⟨he, hpair⟩ := List.mem_filter.mp he
  refine ⟨e, he, (hentry e.1).symm, fun hp htrig => ?_⟩
  simp [ofPair, hp, htrig] at hpair

theorem eventsGone_noneDue (p c p' c' : Nat) (s : State) (h : NoneDue p' c' s) : NoneDue p' c' (eventsGone (fun _ => true) p c s) := by
  intro d hd
  have hrd (f : FRef) : (eventsGone (fun _ => true) p c s).rd f = s.rd f := rd_congr f (reg_congr (eventsGone_alone _ p c s).regs _)
  rw [hrd, hrd]
  by_cases hc : c' = c
  · subst hc
    obtain ⟨e, he, hentry, -⟩ := eventsGone_due p c' s hd
    rw [← hentry]
    exact h e he
  · rw [eventsGone_core_ne _ _ hc] at hd
    exact h d hd

theorem eventsGone_stops (p c : Nat) (s : State) : NoneDue p c (eventsGone (fun _ => true) p c s) := by
  intro d hd
  have hrd (f : FRef) : (eventsGone (fun _ => true) p c s).rd f = s.rd f := rd_congr f (reg_congr (eventsGone_alone _ p c s).regs _)
  obtain ⟨e, -, hentry, hnone⟩ := eventsGone_due p c s hd
  rw [hrd, hrd, ← hentry]
  exact hnone

/-- Where each step of a loop brings about a fact of its own, which the others keep, the loop brings about all of them. -/
theorem forEach_all {Q : Nat → State → Prop} {f : Nat → State → State} {l : List Nat} (hstep : ∀ i ∈ l, ∀ s, Q i (f i s))
    (hkeep : ∀ i ∈ l, ∀ j ∈ l, ∀ s, Q j s → Q j (f i s)) (s : State) : ∀ i ∈ l, Q i (forEach l f s) := by
  induction l generalizing s with
  | nil => exact fun _ h => absurd h List.not_mem_nil
  | cons a l ih =>
    intro i hi
    rcases List.mem_cons.mp hi with rfl | hi
    · exact forEach_preserves (P := Q i) (fun j hj s h => hkeep j (List.mem_cons_of_mem _ hj) i List.mem_cons_self s h) (hstep i List.mem_cons_self s)
    · exact ih (fun i hi => hstep i (List.mem_cons_of_mem _ hi)) (fun i hi j hj => hkeep i (List.mem_cons_of_mem _ hi) j (List.mem_cons_of_mem _ hj)) _ i hi

/-- With every counter stopped no event of a pair is due on any core. -/
theorem adcPairsStop_noneDue (s : State) {p c : Nat} (hp : p < 72) (hc : c < 40) : NoneDue p c (adcPairsStop s) := by
  refine forEach_all (Q := fun p s => ∀ c ∈ adcCores, NoneDue p c s) (f := adcPairStops) (fun p _ s => ?_) (fun p _ p' _ s h c hc => ?_) s p
    (List.mem_range.mpr hp) c (List.mem_range.mpr hc)
  · exact forEach_all (Q := fun c s => NoneDue p c s) (fun c _ s => eventsGone_stops p c s) (fun c _ c' _ s h => eventsGone_noneDue p c p c' s h) s
  · exact forEach_preserves (P := NoneDue p' c) (fun c' _ s h => eventsGone_noneDue p c' p' c s h) (h c hc)

end Sys2Proof.Machine
end
-- ==== Sys2Proof/Proofs/PwmCalibration.lean ====
section
/-! PROOFS. Proofs/PwmCalibration.lean: the loss of the base clock and the calibration of the delay lines (O38). -/
namespace Sys2Proof.Machine

/-- The counters have stopped with the loss of the base clock, before the pairs settle. -/
def clockStopped (s : State) : State := adcPairsStop (countersStop { s with time := { s.time with baseLost := true } })

theorem exec_baseClockLoss (s : State) : exec .baseClockLoss s = .next (settleTrips noPulse (clockStopped (ticked s))) := rfl

theorem clockStopped_rest (s : State) : clockStopped (ticked s) =
    { s with cycle := s.cycle + 1, time := { s.time with baseLost := true }, pwm := { s.pwm with begun := 0, span := [], before := [] },
             adc := (clockStopped (ticked s)).adc } := by
  have h := (adcPairsStop_alone (countersStop { ticked s with time := { s.time with baseLost := true } })).rest
  exact h

/-- A pair that follows its sources trips when a latching source is asserted. -/
theorem PairSettled.trips {p : Nat} {s t : State} (h : PairSettled 0 p s t) (hsrc : tripLive 0 t p &&& latchingMask t p ≠ 0)
    (hst : s.rd (Fld.PWM_STATUS_STATE p) = 1 ∨ s.rd (Fld.PWM_STATUS_STATE p) = 2 ∨ s.rd (Fld.PWM_STATUS_STATE p) = 4) :
    t.rd (Fld.PWM_STATUS_STATE p) = 3 ∧ t.rd (Fld.PWM_TRIP_SRC p) = tripLive 0 t p &&& latchingMask t p ∧ t.rd (Fld.PWM_STATUS_OUT_H p) = 0 ∧
      t.rd (Fld.PWM_STATUS_OUT_L p) = 0 := by
  unfold PairSettled at h
  rw [if_neg (by omega), if_pos ⟨hst, hsrc⟩] at h
  obtain ⟨hstate, htrip, -, -, -, hhigh, hlow, -⟩ := h
  exact ⟨hstate, htrip, hhigh, hlow⟩

theorem clockStopped_noneDue (s : State) {p c : Nat} (hp : p < 72) (hc : c < 40) : NoneDue p c (clockStopped s) := by
  unfold clockStopped
  exact adcPairsStop_noneDue _ hp hc

theorem InputSettled.rest_clock {s u t : State} (h : InputSettled s u t) {time : Time} {pwm : Pwm} {adc : Tab AdcCore}
    (hu : u = { s with cycle := s.cycle + 1, time := time, pwm := pwm, adc := adc }) :
    t = { s with cycle := s.cycle + 1, regs := t.regs, log := t.log, perf := t.perf, out := t.out, time := t.time, adc := t.adc, pwm := pwm } ∧
      t.time = time ∧ t.adc = adc := by
  have hrest := h.rest
  rw [hu] at hrest
  refine ⟨?_, ?_, ?_⟩ <;> rw [hrest]

theorem baseClockLoss_settles (s : State) :
    Does .baseClockLoss s fun t =>
      (∀ p, p < 72 → s.rd (Fld.PWM_STATUS_STATE p) = 1 ∨ s.rd (Fld.PWM_STATUS_STATE p) = 2 ∨ s.rd (Fld.PWM_STATUS_STATE p) = 4 →
        t.rd (Fld.PWM_STATUS_STATE p) = 3 ∧ hasBit (t.rd (Fld.PWM_TRIP_SRC p)) 17 = true ∧ t.rd (Fld.PWM_STATUS_OUT_H p) = 0 ∧
        t.rd (Fld.PWM_STATUS_OUT_L p) = 0) ∧
      AllSettled s t ∧ t.time = { s.time with baseLost := true } ∧
      (∀ c, c < 40 → ∀ d ∈ (t.core c).due, s.rd (Fld.ADC_ENTRY_A_PAIR c d.1.entry) < 72 → s.rd (Fld.ADC_ENTRY_A_TRIG c d.1.entry) ≠ 1) ∧
      t = { s with cycle := s.cycle + 1, regs := t.regs, log := t.log, perf := t.perf, out := t.out, time := t.time, adc := t.adc,
                   pwm := { s.pwm with begun := 0, span := [], before := [] } } ∧ RegsKeptBut tripReg s t := by
  refine ⟨_, exec_baseClockLoss s, ?_⟩
  have hnone (p c : Nat) (hp : p < 72) (hc : c < 40) := clockStopped_noneDue (ticked s) hp hc
  have hu := clockStopped_rest s
  generalize clockStopped (ticked s) = u at *
  have hkept : u.regs = s.regs := by rw [hu]
  have h := ((InputShown.refl s).of_regs hkept).settle
  have hregs (a : Nat) : u.reg a = s.reg a := reg_congr hkept a
  generalize settleTrips noPulse u = t at *
  obtain ⟨hrest, htime, hadc⟩ := h.rest_clock hu
  refine ⟨fun p hp hst => ?_, h.settled, htime, fun c hc d hd hp => ?_, hrest, h.regs⟩
  · have hbit := tripLive_baseLost (s := t) p (by rw [htime])
    obtain ⟨hstate, hsrc, hhigh, hlow⟩ := (h.settled p hp).1.trips (fun hzero => by simp [hzero] at hbit) hst
    exact ⟨hstate, by rw [hsrc]; exact hbit, hhigh, hlow⟩
  · have hcore : t.core c = u.core c := congrArg (Tab.get restCore · c) hadc
    have hdue := hnone _ c hp hc d (hcore ▸ hd)
    rw [rd_congr _ (hregs _), rd_congr _ (hregs _)] at hdue
    exact hdue rfl

/-! ### One delay line (R410, R411) -/

/-- What the measurement of line `j` does. -/
structure LineTaken (m : Option (List (Fin 48))) (j : Nat) (s t : State) : Prop where
  bad : hasBit t.pwm.calBad j = m.isNone
  map : Tab.get none t.pwm.newMap j = if m = none then Tab.get none s.pwm.newMap j else m
  event : m = none → t.rd (Fld.PWM_EVENTS_CAL_EV (j / 2)) = 1

/-- What the measurement of another line leaves of line `j`. -/
structure LineKept (j : Nat) (s t : State) : Prop where
  bad : hasBit t.pwm.calBad j = hasBit s.pwm.calBad j
  map : Tab.get none t.pwm.newMap j = Tab.get none s.pwm.newMap j
  event : s.rd (Fld.PWM_EVENTS_CAL_EV (j / 2)) = 1 → t.rd (Fld.PWM_EVENTS_CAL_EV (j / 2)) = 1

/-- What the measurement of line `j` may change. -/
structure LineFrame (j : Nat) (s t : State) : Prop where
  rest : t = { s with regs := t.regs, log := t.log, pwm := { s.pwm with calBad := t.pwm.calBad, newMap := t.pwm.newMap } }
  regs : RegsKept [Reg.PWM_EVENTS (j / 2), Reg.LOG_STATUS] s t

section
variable {j : Nat} {m : Option (List (Fin 48))} {s t u : State}

/-- The result of a measurement. -/
def lineNoted (j : Nat) (m : Option (List (Fin 48))) (s : State) : State :=
  { s with pwm := { s.pwm with calBad := setBitOf s.pwm.calBad j m.isNone,
                               newMap := if m.isSome then Tab.set none s.pwm.newMap j m else s.pwm.newMap } }

theorem lineNoted_map (x : List (Fin 48)) : (lineNoted j (some x) s).pwm.newMap = Tab.set none s.pwm.newMap j (some x) := rfl

theorem lineMeasured_some (x : List (Fin 48)) : lineMeasured j (some x) s = lineNoted j (some x) s := rfl

theorem lineMeasured_none : lineMeasured j none s =
    ((lineNoted j none s).wr (Fld.PWM_EVENTS_CAL_EV (j / 2)) 1).logOnce 0x16 0x0004 (j / 2) (j / 2 + 2 ^ (8 + j % 2)) := rfl

theorem lineMeasured_pwm : (lineMeasured j m s).pwm = (lineNoted j m s).pwm := by
  cases m with
  | some x => rw [lineMeasured_some]
  | none => rw [lineMeasured_none, logOnce_spec]; rfl

theorem lineMeasured_frame : LineFrame j s (lineMeasured j m s) := by
  cases m with
  | some x =>
    rw [lineMeasured_some]
    exact ⟨rfl, fun _ _ => rfl⟩
  | none =>
    have hspec := logOnce_spec ((lineNoted j none s).wr (Fld.PWM_EVENTS_CAL_EV (j / 2)) 1) 0x16 0x0004 (j / 2) (j / 2 + 2 ^ (8 + j % 2))
    have hreg (a : Nat) (ha : a ≠ Reg.LOG_STATUS) :=
      reg_logOnce ((lineNoted j none s).wr (Fld.PWM_EVENTS_CAL_EV (j / 2)) 1) 0x16 0x0004 (j / 2) (j / 2 + 2 ^ (8 + j % 2)) ha
    rw [lineMeasured_none]
    generalize ((lineNoted j none s).wr (Fld.PWM_EVENTS_CAL_EV (j / 2)) 1).logOnce 0x16 0x0004 (j / 2) (j / 2 + 2 ^ (8 + j % 2)) = t at *
    refine ⟨?_, fun a ha => ?_⟩
    · rw [hspec]
      rfl
    · simp only [List.mem_cons, List.not_mem_nil, or_false, not_or] at ha
      obtain ⟨hev, hlog⟩ := ha
      exact (hreg a hlog).trans (reg_wr_ne _ _ (Ne.symm hev))

theorem lineMeasured_taken : LineTaken m j s (lineMeasured j m s) where
  bad := by
    rw [lineMeasured_pwm]
    exact (setBitOf_testBit s.pwm.calBad j j _).trans (if_pos rfl)
  map := by
    rw [lineMeasured_pwm]
    cases m with
    | some x => rw [lineNoted_map, Tab.get_set_same, if_neg nofun]
    | none => rfl
  event h := by
    subst h
    rw [lineMeasured_none, rd_logOnce _ _ _ _ _ _ (by simp only [Reg.PWM_EVENTS, Reg.LOG_STATUS]; omega)]
    exact rd_wr_same _ _ _ (by simp [FRef.ok])

theorem lineMeasured_kept {i : Nat} (hne : i ≠ j) : LineKept i s (lineMeasured j m s) where
  bad := by
    rw [lineMeasured_pwm]
    exact (setBitOf_testBit s.pwm.calBad j i _).trans (if_neg hne)
  map := by
    rw [lineMeasured_pwm]
    cases m with
    | some x => rw [lineNoted_map, Tab.get_set_ne _ _ _ _ (Ne.symm hne)]
    | none => rfl
  event h := by
    cases m with
    | some x => exact h
    | none =>
      rw [lineMeasured_none, rd_logOnce _ _ _ _ _ _ (by simp only [Reg.PWM_EVENTS, Reg.LOG_STATUS]; omega)]
      by_cases hp : i / 2 = j / 2
      · rw [hp]
        exact rd_wr_same _ _ _ (by simp [FRef.ok])
      · exact (rd_wr_ne _ _ _ _ (by simp only [Reg.PWM_EVENTS]; omega)).trans h

end

/-! ### The steady round (R410) -/

/-- The measurement of this frame is noted. -/
def roundSeen (s : State) : State := { ticked s with pwm := { s.pwm with calSeen := true } }

theorem exec_lineCalibration (m : Option (List (Fin 48))) (s : State) : exec (.lineCalibration m) s = .next
    (if s.rdB Fld.CLK_STATUS_CTRL_LOCK && s.rdB Fld.PWM_CAL_CAL_DONE && !s.pwm.calSeen then lineMeasured (s.fn % 144) m (roundSeen s) else ticked s) := rfl

theorem LineFrame.rest_round {j : Nat} {s t : State} (h : LineFrame j (roundSeen s) t) :
    t = { s with cycle := s.cycle + 1, regs := t.regs, log := t.log, pwm := { s.pwm with calBad := t.pwm.calBad, newMap := t.pwm.newMap, calSeen := true } } :=
  h.rest

theorem lineCalibration_measures (s : State) (m : Option (List (Fin 48))) (hlock : s.rd Fld.CLK_STATUS_CTRL_LOCK = 1)
    (hdone : s.rd Fld.PWM_CAL_CAL_DONE = 1) (hseen : s.pwm.calSeen = false) :
    let line := s.fn % 144
    Does (.lineCalibration m) s fun t =>
      (∀ j, j < 144 → hasBit t.pwm.calBad j = (if j = line then m.isNone else hasBit s.pwm.calBad j) ∧
        Tab.get none t.pwm.newMap j = (if j = line ∧ m ≠ none then m else Tab.get none s.pwm.newMap j)) ∧
      (m = none → t.rd (Fld.PWM_EVENTS_CAL_EV (line / 2)) = 1) ∧
      t = { s with cycle := s.cycle + 1, regs := t.regs, log := t.log, pwm := { s.pwm with calBad := t.pwm.calBad, newMap := t.pwm.newMap, calSeen := true } } ∧
      (m ≠ none → t.regs = s.regs ∧ t.log = s.log) ∧ RegsKept [Reg.PWM_EVENTS (line / 2), Reg.LOG_STATUS] s t := by
  intro line
  refine ⟨_, (exec_lineCalibration m s).trans (congrArg _ (if_pos (by simp [hlock, hdone, hseen]))), ?_⟩
  have htaken : LineTaken m line (roundSeen s) (lineMeasured line m (roundSeen s)) := lineMeasured_taken
  have hframe : LineFrame line (roundSeen s) (lineMeasured line m (roundSeen s)) := lineMeasured_frame
  have hkept (j : Nat) (hj : j ≠ line) : LineKept j (roundSeen s) (lineMeasured line m (roundSeen s)) := lineMeasured_kept hj
  have hquiet : m ≠ none → (lineMeasured line m (roundSeen s)).regs = s.regs ∧ (lineMeasured line m (roundSeen s)).log = s.log := by
    intro hm
    cases m with
    | some x => exact ⟨rfl, rfl⟩
    | none => exact absurd rfl hm
  generalize lineMeasured line m (roundSeen s) = t at *
  refine ⟨fun j _ => ?_, htaken.event, hframe.rest_round, hquiet, hframe.regs⟩
  by_cases hj : j = line
  · subst hj
    rw [if_pos rfl, htaken.map]
    refine ⟨htaken.bad, ?_⟩
    by_cases hm : m = none
    · rw [if_pos hm, if_neg (fun h => h.2 hm)]
      rfl
    · rw [if_neg hm, if_pos ⟨rfl, hm⟩]
  · rw [if_neg hj, if_neg (fun h => hj h.1)]
    exact ⟨(hkept j hj).bad, (hkept j hj).map⟩

theorem lineCalibration_ignored (s : State) (m : Option (List (Fin 48)))
    (h : s.rd Fld.CLK_STATUS_CTRL_LOCK = 0 ∨ s.rd Fld.PWM_CAL_CAL_DONE = 0 ∨ s.pwm.calSeen = true) :
    Does (.lineCalibration m) s fun t => t = { s with cycle := s.cycle + 1 } := by
  refine ⟨ticked s, (exec_lineCalibration m s).trans (congrArg _ (if_neg ?_)), rfl⟩
  simp only [Bool.and_eq_true, rdB_eq, decide_eq_true_eq, Bool.not_eq_true']
  rintro ⟨⟨hlock, hdone⟩, hseen⟩
  rcases h with h | h | h
  · exact hlock h
  · exact hdone h
  · exact Bool.false_ne_true (hseen.symm.trans h)

/-! ### The first round (R410, R420) -/

/-- Every line has been measured. -/
def roundMeasured (maps : List (Option (List (Fin 48)))) (s : State) : State :=
  forEach (List.range 144) (fun j s => lineMeasured j (maps.getD j none) s) s

/-- The first round is done, before the pairs settle. -/
def roundDone (maps : List (Option (List (Fin 48)))) (s : State) : State := initEnds ((roundMeasured maps s).wr Fld.PWM_CAL_CAL_DONE 1)

theorem exec_calDone (maps : List (Option (List (Fin 48)))) (s : State) : exec (.calDone maps) s = .next
    (if s.rdB Fld.CLK_STATUS_CTRL_LOCK && !s.rdB Fld.PWM_CAL_CAL_DONE && decide (29 ≤ s.pwm.calFrames) then settleTrips noPulse (roundDone maps (ticked s))
     else ticked s) := rfl

theorem calDone_ignored (s : State) (maps : List (Option (List (Fin 48))))
    (h : s.rd Fld.CLK_STATUS_CTRL_LOCK = 0 ∨ s.rd Fld.PWM_CAL_CAL_DONE = 1 ∨ s.pwm.calFrames < 29) :
    Does (.calDone maps) s fun t => t = { s with cycle := s.cycle + 1 } := by
  refine ⟨ticked s, (exec_calDone maps s).trans (congrArg _ (if_neg ?_)), rfl⟩
  simp only [Bool.and_eq_true, rdB_eq, decide_eq_true_eq, Bool.not_eq_true', decide_eq_false_iff_not, not_not]
  rintro ⟨⟨hlock, hdone⟩, hframes⟩
  omega

theorem LineKept.refl (j : Nat) (s : State) : LineKept j s s := ⟨rfl, rfl, id⟩

section
variable {j : Nat} {m : Option (List (Fin 48))} {s t u : State}

theorem LineKept.trans (h : LineKept j s t) (k : LineKept j t u) : LineKept j s u := ⟨k.bad.trans h.bad, k.map.trans h.map, k.event ∘ h.event⟩

theorem LineTaken.from (h : LineTaken m j t u) (k : LineKept j s t) : LineTaken m j s u := ⟨h.bad, by rw [h.map, k.map], h.event⟩

theorem LineTaken.upTo (h : LineTaken m j s t) (k : LineKept j t u) : LineTaken m j s u :=
  ⟨k.bad.trans h.bad, k.map.trans h.map, fun hm => k.event (h.event hm)⟩

end

section
variable (maps : List (Option (List (Fin 48)))) (s : State)

theorem roundMeasured_taken {j : Nat} (hj : j < 144) : LineTaken (maps.getD j none) j s (roundMeasured maps s) :=
  (forEach_settles (f := fun j s => lineMeasured j (maps.getD j none) s) (R := fun j s t => LineTaken (maps.getD j none) j s t) (K := LineKept) (n := 144)
    List.nodup_range (fun _ => List.mem_range.mp) LineKept.refl (fun _ _ _ _ h k => h.trans k) (fun _ _ _ _ h hr => hr.from h)
    (fun _ _ _ _ hr h => hr.upTo h) (fun _ _ _ => lineMeasured_taken) (fun _ _ _ _ hne _ => lineMeasured_kept hne) s).1 j (List.mem_range.mpr hj)

/-- What the first round may change. -/
structure RoundFrame (s t : State) : Prop where
  rest : t = { s with regs := t.regs, log := t.log, pwm := { s.pwm with calBad := t.pwm.calBad, newMap := t.pwm.newMap } }
  regs : RegsKeptBut tripReg s t

theorem LineFrame.round {s t u : State} {j : Nat} (hj : j < 144) (h : RoundFrame s t) (k : LineFrame j t u) : RoundFrame s u := by
  have hrest := k.rest
  rw [h.rest] at hrest
  refine ⟨hrest, fun a ha => (k.regs a (fun hmem => ?_)).trans (h.regs a ha)⟩
  simp only [List.mem_cons, List.not_mem_nil, or_false] at hmem
  rcases hmem with rfl | rfl
  · exact Bool.false_ne_true (ha.symm.trans (tripReg_pwmEvents (by omega)))
  · exact Bool.false_ne_true (ha.symm.trans tripReg_log)

theorem roundMeasured_frame : RoundFrame s (roundMeasured maps s) :=
  forEach_preserves (P := RoundFrame s) (fun _ hj _ h => lineMeasured_frame.round (List.mem_range.mp hj) h) ⟨rfl, fun _ _ => rfl⟩

end

/-! ### CAL_EV and the settling of the trips -/

theorem settlePair_calEv {p : Nat} (hp : p < 72) (pulse : Nat) (s : State) :
    (settlePair pulse p s).rd (Fld.PWM_EVENTS_CAL_EV p) = s.rd (Fld.PWM_EVENTS_CAL_EV p) := by
  have hblock : Reg.PWM_EVENTS p < 0x1D0000 := by simp only [Reg.PWM_EVENTS]; omega
  unfold settlePair
  extract_lets live src st
  split
  · exact rd_wr_ne _ _ _ _ (by simp)
  · split
    · refine (rd_countEv _ _ _ _ _).trans ((rd_wrTripped hblock).trans ?_)
      simp [outputsLow, rd_wr_apart, FRef.ok, FRef.apart]
    · split
      · refine (rd_countEv _ _ _ _ _).trans ?_
        simp [outputsLow, rd_wr_apart, FRef.ok, FRef.apart]
      · rfl

theorem settleTrips_calEv (pulse : Nat → Nat) (s : State) {p : Nat} (hp : p < 72) :
    (settleTrips pulse s).rd (Fld.PWM_EVENTS_CAL_EV p) = s.rd (Fld.PWM_EVENTS_CAL_EV p) := by
  have hgate : (gateSettled s).rd (Fld.PWM_EVENTS_CAL_EV p) = s.rd (Fld.PWM_EVENTS_CAL_EV p) := rd_congr _ (gateSettled_pairKept hp s).events
  have hpairs : (pairsSettled pulse s).rd (Fld.PWM_EVENTS_CAL_EV p) = s.rd (Fld.PWM_EVENTS_CAL_EV p) := by
    refine forEach_preserves (P := fun t => t.rd (Fld.PWM_EVENTS_CAL_EV p) = s.rd (Fld.PWM_EVENTS_CAL_EV p)) (fun q hq t ht => ?_) hgate
    refine Eq.trans ?_ ht
    by_cases hqp : q = p
    · rw [hqp]
      exact settlePair_calEv hp _ t
    · exact rd_congr _ ((settlePair_frame (pairs_lt hq) _).kept hp (Ne.symm hqp)).events
  exact (rd_congr _ (settleTrips_logs pulse s).pairKept.events).trans hpairs

/-! ### The end of the first round -/

theorem initEnds_eq (s : State) (h : s.rd Fld.PWM_CAL_CAL_DONE = 1) :
    initEnds s = { s with pwm := { s.pwm with initSrc := s.pwm.initSrc && !s.pwm.loaded } } := by
  unfold initEnds
  cases hload : s.pwm.loaded with
  | true =>
    rw [if_pos (by simp [h]), Bool.not_true, Bool.and_false]
  | false =>
    rw [if_neg (by simp), Bool.not_false, Bool.and_true]

/-- What the end of the first round shows before the pairs settle. -/
structure RoundDone (maps : List (Option (List (Fin 48)))) (s u : State) : Prop where
  done : u.rd Fld.PWM_CAL_CAL_DONE = 1
  rest : u = { s with regs := u.regs, log := u.log, pwm := { s.pwm with calBad := u.pwm.calBad, newMap := u.pwm.newMap, initSrc := u.pwm.initSrc } }
  init : u.pwm.initSrc = (s.pwm.initSrc && !s.pwm.loaded)
  lines : ∀ j, j < 144 → LineTaken (maps.getD j none) j s u
  regs : RegsKeptBut (fun a => tripReg a || decide (a = Reg.PWM_CAL)) s u

theorem roundDone_shows (maps : List (Option (List (Fin 48)))) (s : State) : RoundDone maps s (roundDone maps s) := by
  have hframe := roundMeasured_frame maps s
  have htaken (j : Nat) (hj : j < 144) := roundMeasured_taken maps s hj
  unfold roundDone
  rw [initEnds_eq _ (rd_wr_same _ _ _ (by decide))]
  generalize roundMeasured maps s = r at *
  have hrest := hframe.rest
  refine ⟨rd_wr_same r Fld.PWM_CAL_CAL_DONE 1 (by decide), ?_, ?_, fun j hj => ?_, fun a ha => ?_⟩
  · rw [hrest]
    rfl
  · show (r.pwm.initSrc && !r.pwm.loaded) = _
    rw [hrest]
  · refine ⟨(htaken j hj).bad, (htaken j hj).map, fun hm => ?_⟩
    refine Eq.trans ?_ ((htaken j hj).event hm)
    exact rd_wr_ne r Fld.PWM_CAL_CAL_DONE _ 1 (by simp only [Reg.PWM_CAL, Reg.PWM_EVENTS]; omega)
  · rw [Bool.or_eq_false_iff, decide_eq_false_iff_not] at ha
    exact (reg_wr_ne (f := Fld.PWM_CAL_CAL_DONE) r 1 (Ne.symm ha.2)).trans (hframe.regs a ha.1)

theorem settled_rest {s u t : State} {regs : Tab Word} {log : TroubleLog} {pwm : Pwm}
    (hu : u = { s with cycle := s.cycle + 1, regs := regs, log := log, pwm := pwm }) (ht : t = { u with regs := t.regs, log := t.log, perf := t.perf }) :
    t = { s with cycle := s.cycle + 1, regs := t.regs, log := t.log, perf := t.perf, out := t.out, pwm := pwm } := by
  rw [hu] at ht
  rw [ht]

theorem calDone_ends (s : State) (maps : List (Option (List (Fin 48)))) (hlock : s.rd Fld.CLK_STATUS_CTRL_LOCK = 1)
    (hdone : s.rd Fld.PWM_CAL_CAL_DONE = 0) (hframes : 29 ≤ s.pwm.calFrames) :
    Does (.calDone maps) s fun t =>
      t.rd Fld.PWM_CAL_CAL_DONE = 1 ∧ t.pwm.initSrc = (s.pwm.initSrc && !s.pwm.loaded) ∧
      (∀ j, j < 144 → hasBit t.pwm.calBad j = (maps.getD j none).isNone ∧
        Tab.get none t.pwm.newMap j = (if maps.getD j none = none then Tab.get none s.pwm.newMap j else maps.getD j none)) ∧
      (∀ p, p < 72 → maps.getD (2 * p) none = none ∨ maps.getD (2 * p + 1) none = none → t.rd (Fld.PWM_EVENTS_CAL_EV p) = 1) ∧
      t = { s with cycle := s.cycle + 1, regs := t.regs, log := t.log, perf := t.perf, out := t.out,
                   pwm := { s.pwm with calBad := t.pwm.calBad, newMap := t.pwm.newMap, initSrc := t.pwm.initSrc } } ∧
      RegsKeptBut (fun a => tripReg a || decide (a = Reg.PWM_CAL)) s t := by
  refine ⟨_, (exec_calDone maps s).trans (congrArg _ (if_pos (by simp [hlock, hdone, hframes]))), ?_⟩
  have h := roundDone_shows maps (ticked s)
  generalize roundDone maps (ticked s) = u at *
  have hspec := settleTrips_spec noPulse u
  have hevents (p : Nat) (hp : p < 72) := settleTrips_calEv noPulse u hp
  generalize settleTrips noPulse u = t at *
  have hrest := hspec.rest
  have hpwm : t.pwm = u.pwm := by rw [hrest]
  refine ⟨(rd_congr _ (hspec.regs _ (by decide))).trans h.done, by rw [hpwm, h.init]; rfl, fun j hj => ?_, fun p hp hm => ?_, ?_, fun a ha => ?_⟩
  · rw [hpwm]
    exact ⟨(h.lines j hj).bad, (h.lines j hj).map⟩
  · refine (hevents p hp).trans ?_
    rcases hm with hm | hm
    · have hev := (h.lines (2 * p) (by omega)).event hm
      rwa [Nat.mul_div_cancel_left p (by decide)] at hev
    · have hev := (h.lines (2 * p + 1) (by omega)).event hm
      rwa [show (2 * p + 1) / 2 = p by omega] at hev
  · rw [hpwm]
    exact settled_rest h.rest hrest
  · exact (hspec.regs a (Bool.or_eq_false_iff.mp ha).1).trans (h.regs a ha)

/-- Settles O38: trips, holds, forces and the loss of the clock settle the pairs on their sources, a clear request frees those without one, and
each measured line waits with its map or sets CAL_EV. -/
theorem pwmTripsAndCalibration : Obligations.PwmTripsAndCalibration := by
  unfold Obligations.PwmTripsAndCalibration
  exact ⟨pwmTrip_settles, cycleHold_settles, pwmClr_clears, pwmForce_settles, baseClockLoss_settles, lineCalibration_measures, lineCalibration_ignored,
    calDone_ends, calDone_ignored⟩

end Sys2Proof.Machine
end
-- ==== Sys2Proof/Proofs/MeterAccumulators.lean ====
section
/-! PROOFS. Proofs/MeterAccumulators.lean: what a meter sample changes, and what an accumulator takes of it (R489 to R492). -/
namespace Sys2Proof.Machine

/-- The registers that a sample of channel `m` changes. -/
def meterReg (m a : Nat) : Bool :=
  [Reg.MTR_P m, Reg.MTR_Q m, Reg.MTR_STATUS m, Reg.MTR_EVENTS m, Reg.LOG_STATUS].contains a ||
    (List.range 8).any (fun j => decide (a = Reg.POUT_ST j) || decide (a = Reg.POUT_CNT j))

theorem meterReg_pout {m j a : Nat} (hj : j < 8) (ha : a = Reg.POUT_ST j ∨ a = Reg.POUT_CNT j) : meterReg m a = true := by
  unfold meterReg
  rw [Bool.or_eq_true, List.any_eq_true]
  exact .inr ⟨j, List.mem_range.mpr hj, by simpa using ha⟩

theorem meterReg_chan {m a : Nat} (ha : a ∈ [Reg.MTR_P m, Reg.MTR_Q m, Reg.MTR_STATUS m, Reg.MTR_EVENTS m, Reg.LOG_STATUS]) : meterReg m a = true := by
  unfold meterReg
  rw [List.contains_iff_mem.mpr ha, Bool.true_or]

theorem meterReg_eq_false {m a : Nat} (ha : a ∉ [Reg.MTR_P m, Reg.MTR_Q m, Reg.MTR_STATUS m, Reg.MTR_EVENTS m, Reg.LOG_STATUS])
    (hblock : a < 0x201400 ∨ 0x201480 ≤ a) : meterReg m a = false := by
  unfold meterReg
  rw [Bool.or_eq_false_iff, List.any_eq_false]
  refine ⟨by simpa using ha, fun j hj => ?_⟩
  have := List.mem_range.mp hj
  simp only [Reg.POUT_ST, Reg.POUT_CNT, Bool.or_eq_true, decide_eq_true_eq]
  omega

theorem bit_wrBit_ne {f g : FRef} {i j : Nat} {b : Bool} (s : State) (h : f.addr ≠ g.addr) : (s.wrBit f i b).bit g j = s.bit g j := bit_wr_ne s f g _ j h

/-- What a sample of channel `m` may change. -/
structure MeterFrame (m : Nat) (s t : State) : Prop where
  rest : t = { s with regs := t.regs, log := t.log, perf := t.perf,
                      meter := { s.meter with chans := t.meter.chans, acc := t.meter.acc, outs := t.meter.outs } }
  regs : RegsKeptBut (meterReg m) s t
  accs : ∀ id, id / 4 ≠ m → t.acc id = s.acc id
  chans : ∀ n, n ≠ m → t.chan n = s.chan n

section
variable {m : Nat} {r s t u : State}

theorem MeterFrame.refl (m : Nat) (s : State) : MeterFrame m s s := ⟨rfl, fun _ _ => rfl, fun _ _ => rfl, fun _ _ => rfl⟩

theorem MeterFrame.trans (h : MeterFrame m s t) (k : MeterFrame m t u) : MeterFrame m s u := by
  have hrest := k.rest
  rw [h.rest] at hrest
  exact ⟨hrest, fun a ha => (k.regs a ha).trans (h.regs a ha), fun id hid => (k.accs id hid).trans (h.accs id hid),
    fun n hn => (k.chans n hn).trans (h.chans n hn)⟩

/-- A step of which only the registers, the log and the counters are touched. -/
theorem MeterFrame.of_scope (h : RegsLogPerf (meterReg m) s t) : MeterFrame m s t := by
  have hrest := h.rest
  have hmeter : t.meter = s.meter := by rw [hrest]
  refine ⟨?_, h.regs, fun id _ => ?_, fun n _ => ?_⟩
  · rw [hmeter]
    exact hrest
  · rw [State.acc, State.acc, hmeter]
  · rw [State.chan, State.chan, hmeter]

theorem MeterFrame.wr {f : FRef} {v : Nat} (h : MeterFrame m r s) (hf : meterReg m f.addr = true) : MeterFrame m r (s.wr f v) :=
  h.trans (.of_scope ((RegsLogPerf.refl _ s).wr _ _ hf))

theorem MeterFrame.logEv {source code datum : Nat} (h : MeterFrame m r s) : MeterFrame m r (s.logEv source code datum) :=
  h.trans (.of_scope ((RegsLogPerf.refl _ s).logEv _ _ _ (meterReg_chan (by simp))))

theorem MeterFrame.countEv {event unit n : Nat} (h : MeterFrame m r s) : MeterFrame m r (countEv event unit n s) :=
  h.trans (.of_scope ((RegsLogPerf.refl _ s).countEv _ _ _))

theorem MeterFrame.setAcc {id : Nat} {v : Int} (h : MeterFrame m r s) (hid : id / 4 = m) : MeterFrame m r (s.setAcc id v) :=
  h.trans ⟨rfl, fun _ _ => rfl, fun _ hi => Tab.get_set_ne _ _ _ _ (fun he => hi (he ▸ hid)), fun _ _ => rfl⟩

theorem MeterFrame.setChan {q : MeterChan} (h : MeterFrame m r s) : MeterFrame m r (s.setChan m q) :=
  h.trans ⟨rfl, fun _ _ => rfl, fun _ _ => rfl, fun _ hn => Tab.get_set_ne _ _ _ _ (Ne.symm hn)⟩

theorem MeterFrame.setPout {j : Nat} {q : PulseOut} (h : MeterFrame m r s) : MeterFrame m r (s.setPout j q) :=
  h.trans ⟨rfl, fun _ _ => rfl, fun _ _ => rfl, fun _ _ => rfl⟩

theorem MeterFrame.rd (h : MeterFrame m s t) {f : FRef} (hf : f.addr ∉ [Reg.MTR_P m, Reg.MTR_Q m, Reg.MTR_STATUS m, Reg.MTR_EVENTS m, Reg.LOG_STATUS])
    (hblock : f.addr < 0x201400 ∨ 0x201480 ≤ f.addr) : t.rd f = s.rd f := rd_congr f (h.regs _ (meterReg_eq_false hf hblock))

end

/-! ### One accumulator of a channel -/

/-- The increment of accumulator `k` of channel `m` (R490, R491). -/
def accGain (m : Nat) (pq : Int × Int) (k : Nat) (s : State) : Int :=
  accIncrement (accKind s (4 * m + k)) (energyOf s m (if accQty s (4 * m + k) then pq.2 else pq.1))

/-- Accumulator `k` of channel `m` shows an overflow at a limit (R492). -/
structure AccGuarded (m k : Nat) (limit : Int) (t : State) : Prop where
  acc : t.acc (4 * m + k) = limit * 2 ^ 32
  sat : accSat t (4 * m + k) = true
  event : t.bit (Fld.MTR_EVENTS_GUARD_OVF m) k = true

/-- Accumulator `k` of channel `m` takes its increment (R491, R492). -/
def AccTaken (m : Nat) (pq : Int × Int) (k : Nat) (s t : State) : Prop :=
  if (accEn s (4 * m + k) && !accSat s (4 * m + k)) = true then
    (if wholeOf (s.acc (4 * m + k) + accGain m pq k s) < accLow (accKind s (4 * m + k)) then AccGuarded m k (accLow (accKind s (4 * m + k))) t
     else if accHigh (accKind s (4 * m + k)) < wholeOf (s.acc (4 * m + k) + accGain m pq k s) then AccGuarded m k (accHigh (accKind s (4 * m + k))) t
     else t.acc (4 * m + k) = s.acc (4 * m + k) + accGain m pq k s ∧ accSat t (4 * m + k) = false)
  else t.acc (4 * m + k) = s.acc (4 * m + k) ∧ accSat t (4 * m + k) = accSat s (4 * m + k)

/-- What leaves accumulator `k` of channel `m` alone. -/
structure AccKept (m k : Nat) (s t : State) : Prop extends MeterFrame m s t where
  acc : t.acc (4 * m + k) = s.acc (4 * m + k)
  sat : accSat t (4 * m + k) = accSat s (4 * m + k)
  event : s.bit (Fld.MTR_EVENTS_GUARD_OVF m) k = true → t.bit (Fld.MTR_EVENTS_GUARD_OVF m) k = true

section
variable {m k : Nat} {pq : Int × Int} {r s t u : State}

theorem AccKept.refl (m k : Nat) (s : State) : AccKept m k s s := ⟨.refl m s, rfl, rfl, id⟩

theorem AccKept.trans (h : AccKept m k s t) (j : AccKept m k t u) : AccKept m k s u :=
  ⟨h.toMeterFrame.trans j.toMeterFrame, j.acc.trans h.acc, j.sat.trans h.sat, j.event ∘ h.event⟩

variable (hm : m < 9) (hk : k < 4)
include hm hk

theorem accSat_eq (s : State) : accSat s (4 * m + k) = s.bit (Fld.MTR_STATUS_SAT m) k := by
  rw [accSat, if_pos (by omega), show (4 * m + k) / 4 = m by omega, show (4 * m + k) % 4 = k by omega]

theorem setSat_eq (b : Bool) (s : State) : setSat (4 * m + k) b s = s.wrBit (Fld.MTR_STATUS_SAT m) k b := by
  rw [setSat, if_pos (by omega), show (4 * m + k) / 4 = m by omega, show (4 * m + k) % 4 = k by omega]

theorem MeterFrame.accByte (h : MeterFrame m s t) : accByte t (4 * m + k) = accByte s (4 * m + k) := by
  have hcfg : t.reg (Reg.MTR_ACC_CFG m) = s.reg (Reg.MTR_ACC_CFG m) :=
    h.regs _ (meterReg_eq_false (by simp [Reg.MTR_ACC_CFG, Reg.MTR_P, Reg.MTR_Q, Reg.MTR_STATUS, Reg.MTR_EVENTS, Reg.LOG_STATUS]; omega)
      (.inl (by simp only [Reg.MTR_ACC_CFG]; omega)))
  rw [Machine.accByte, Machine.accByte, if_pos (by omega), if_pos (by omega), show (4 * m + k) / 4 = m by omega, hcfg]

theorem MeterFrame.accEn (h : MeterFrame m s t) : accEn t (4 * m + k) = accEn s (4 * m + k) := by rw [Machine.accEn, h.accByte hm hk, Machine.accEn]

theorem MeterFrame.accKind (h : MeterFrame m s t) : accKind t (4 * m + k) = accKind s (4 * m + k) := by
  rw [Machine.accKind, h.accByte hm hk, Machine.accKind]

theorem MeterFrame.accGain (h : MeterFrame m s t) (pq : Int × Int) : accGain m pq k t = accGain m pq k s := by
  have hbase : t.rd (Fld.MTR_PBASE m) = s.rd (Fld.MTR_PBASE m) :=
    h.rd (by simp [Reg.MTR_PBASE, Reg.MTR_P, Reg.MTR_Q, Reg.MTR_STATUS, Reg.MTR_EVENTS, Reg.LOG_STATUS]; omega) (.inl (by simp only [Reg.MTR_PBASE]; omega))
  have hticks : ticksPerFrame t = ticksPerFrame s := by
    rw [ticksPerFrame, ticksPerFrame, h.rd (f := Fld.SCHED_CFG_TICKS)
      (by simp [Reg.SCHED_CFG, Reg.MTR_P, Reg.MTR_Q, Reg.MTR_STATUS, Reg.MTR_EVENTS, Reg.LOG_STATUS]; omega) (.inl (by decide))]
  rw [Machine.accGain, Machine.accGain, h.accKind hm hk, accQty, accQty, h.accByte hm hk, energyOf, energyOf, hbase, hticks]

theorem AccTaken.from (h : AccTaken m pq k t u) (j : AccKept m k s t) : AccTaken m pq k s u := by
  unfold AccTaken at h ⊢
  rwa [j.toMeterFrame.accEn hm hk, j.toMeterFrame.accKind hm hk, j.toMeterFrame.accGain hm hk, j.acc, j.sat] at h

omit hm hk in
theorem AccGuarded.upTo {limit : Int} (h : AccGuarded m k limit t) (j : AccKept m k t u) : AccGuarded m k limit u :=
  ⟨j.acc.trans h.acc, j.sat.trans h.sat, j.event h.event⟩

omit hm hk in
theorem AccTaken.upTo (h : AccTaken m pq k s t) (j : AccKept m k t u) : AccTaken m pq k s u := by
  unfold AccTaken at h ⊢
  split at h
  · next hon =>
    rw [if_pos hon]
    split at h
    · next hlow =>
      rw [if_pos hlow]
      exact h.upTo j
    · next hlow =>
      rw [if_neg hlow]
      split at h
      · next hhigh =>
        rw [if_pos hhigh]
        exact h.upTo j
      · next hhigh =>
        rw [if_neg hhigh, j.acc, j.sat]
        exact h
  · next hoff =>
    rw [if_neg hoff, j.acc, j.sat]
    exact h

/-! ### What leaves an accumulator alone -/

theorem AccKept.of_frame (h : MeterFrame m s t) (hacc : t.acc (4 * m + k) = s.acc (4 * m + k))
    (hsat : t.rd (Fld.MTR_STATUS_SAT m) = s.rd (Fld.MTR_STATUS_SAT m)) (hev : t.rd (Fld.MTR_EVENTS_GUARD_OVF m) = s.rd (Fld.MTR_EVENTS_GUARD_OVF m)) :
    AccKept m k s t :=
  ⟨h, hacc, by rw [accSat_eq hm hk, accSat_eq hm hk, State.bit, hsat, State.bit], fun he => by rwa [State.bit, hev]⟩

theorem AccKept.wr {f : FRef} {v : Nat} (h : AccKept m k r s) (hf : meterReg m f.addr = true) (hok : f.ok) (hsat : f.apart (Fld.MTR_STATUS_SAT m))
    (hev : f.apart (Fld.MTR_EVENTS_GUARD_OVF m)) : AccKept m k r (s.wr f v) :=
  h.trans (.of_frame hm hk ((MeterFrame.refl m s).wr hf) rfl (rd_wr_apart _ _ _ _ hok (by simp [FRef.ok]) hsat)
    (rd_wr_apart _ _ _ _ hok (by simp [FRef.ok]) hev))

theorem AccKept.logEv {source code datum : Nat} (h : AccKept m k r s) : AccKept m k r (s.logEv source code datum) := by
  refine h.trans (.of_frame hm hk (MeterFrame.refl m s).logEv ?_ ?_ ?_)
  · rw [State.acc, logEv_meter, State.acc]
  · exact rd_logEv _ _ _ _ _ (by simp only [Reg.MTR_STATUS, Reg.LOG_STATUS]; omega)
  · exact rd_logEv _ _ _ _ _ (by simp only [Reg.MTR_EVENTS, Reg.LOG_STATUS]; omega)

theorem AccKept.countEv {event unit n : Nat} (h : AccKept m k r s) : AccKept m k r (countEv event unit n s) := by
  refine h.trans (.of_frame hm hk (MeterFrame.refl m s).countEv ?_ (rd_countEv _ _ _ _ _) (rd_countEv _ _ _ _ _))
  rw [countEv_spec]
  rfl

theorem AccKept.setChan {q : MeterChan} (h : AccKept m k r s) : AccKept m k r (s.setChan m q) :=
  h.trans (.of_frame hm hk (MeterFrame.refl m s).setChan rfl rfl rfl)

theorem AccKept.setPout {j : Nat} {q : PulseOut} (h : AccKept m k r s) : AccKept m k r (s.setPout j q) :=
  h.trans (.of_frame hm hk (MeterFrame.refl m s).setPout rfl rfl rfl)

/-- A register of a pulse output holds nothing of an accumulator. -/
theorem AccKept.wrPout {j : Nat} (hj : j < 8) {f : FRef} {v : Nat} (h : AccKept m k r s) (hf : f.addr = Reg.POUT_ST j ∨ f.addr = Reg.POUT_CNT j) (hok : f.ok) :
    AccKept m k r (s.wr f v) := by
  have hne : f.addr ≠ Reg.MTR_STATUS m ∧ f.addr ≠ Reg.MTR_EVENTS m := by
    simp only [Reg.POUT_ST, Reg.POUT_CNT, Reg.MTR_STATUS, Reg.MTR_EVENTS] at hf ⊢
    omega
  exact h.wr hm hk (meterReg_pout hj hf) hok (.inl hne.1) (.inl hne.2)

theorem poutPend_kept {j : Nat} (hj : j < 8) (n : Nat) (h : AccKept m k r s) : AccKept m k r (poutPend j n s) := by
  unfold poutPend
  extract_lets p lost s1 s2
  have h1 : AccKept m k r s1 := h.wrPout hm hk hj (.inl rfl) (by simp [FRef.ok])
  split
  · exact h1
  · have h2 : AccKept m k r s2 := by
      unfold s2
      split
      · exact h1
      · exact h1.logEv hm hk
    exact (h2.wrPout hm hk hj (.inr rfl) (by simp [FRef.ok])).wrPout hm hk hj (.inl rfl) (by simp [FRef.ok])

theorem poutFeed_kept {j : Nat} (hj : j < 8) (inc : Int) (h : AccKept m k r s) : AccKept m k r (poutFeed j inc s) := by
  unfold poutFeed
  extract_lets q r n s1
  have h1 := AccKept.setPout hm hk (j := j) (q := { q with residue := r - n * pulseUnit }) h
  split
  · exact h1
  · exact poutPend_kept hm hk hj n h1

theorem fed_kept (id : Nat) (inc : Int) (s : State) : AccKept m k s (forEach (fedBy s id) (fun j => poutFeed j inc) s) :=
  forEach_preserves (P := AccKept m k s) (fun _ hj _ h => poutFeed_kept hm hk (List.mem_range.mp (List.mem_filter.mp hj).1) inc h) (.refl m k s)

/-! ### An accumulator takes an increment (R492) -/

theorem guardOverflow_eq (limit : Int) (s : State) : guardOverflow (4 * m + k) limit s =
    (((s.setAcc (4 * m + k) (limit * 2 ^ 32)).wrBit (Fld.MTR_STATUS_SAT m) k true).logEv 0x19 0x0002 (4 * m + k)).wrBit (Fld.MTR_EVENTS_GUARD_OVF m) k true := by
  rw [guardOverflow, setSat_eq hm hk, if_pos (by omega), show (4 * m + k) / 4 = m by omega, show (4 * m + k) % 4 = k by omega]

theorem guardOverflow_frame (limit : Int) (s : State) : MeterFrame m s (guardOverflow (4 * m + k) limit s) := by
  rw [guardOverflow_eq hm hk]
  refine MeterFrame.wr (MeterFrame.logEv (MeterFrame.wr (MeterFrame.setAcc (.refl m s) (by omega)) ?_)) ?_ <;> exact meterReg_chan (by simp)

theorem guardOverflow_guarded (limit : Int) (s : State) : AccGuarded m k limit (guardOverflow (4 * m + k) limit s) := by
  rw [guardOverflow_eq hm hk]
  refine ⟨?_, ?_, ?_⟩
  · show State.acc (State.logEv _ _ _ _) _ = _
    rw [State.acc, logEv_meter]
    exact Tab.get_set_same _ _ _ _
  · rw [accSat_eq hm hk, bit_wrBit_ne _ (by simp only [Reg.MTR_EVENTS, Reg.MTR_STATUS]; omega),
      bit_congr _ _ (reg_logEv _ _ _ _ (by simp only [Reg.MTR_STATUS, Reg.LOG_STATUS]; omega))]
    exact (bit_wrBit_same _ _ (by simp [FRef.ok]) _ _ _ (by simpa [FRef.width] using hk)).trans (if_pos rfl)
  · exact (bit_wrBit_same _ _ (by simp [FRef.ok]) _ _ _ (by simpa [FRef.width] using hk)).trans (if_pos rfl)

theorem guardOverflow_kept (limit : Int) {j : Nat} (hj : j < 4) (hne : j ≠ k) (s : State) : AccKept m j s (guardOverflow (4 * m + k) limit s) := by
  refine ⟨guardOverflow_frame hm hk limit s, ?_, ?_, fun hev => ?_⟩
  · rw [guardOverflow_eq hm hk]
    show State.acc (State.logEv _ _ _ _) _ = _
    rw [State.acc, logEv_meter]
    exact Tab.get_set_ne _ _ _ _ (by omega)
  · rw [guardOverflow_eq hm hk, accSat_eq hm hj, bit_wrBit_ne _ (by simp only [Reg.MTR_EVENTS, Reg.MTR_STATUS]; omega),
      bit_congr _ _ (reg_logEv _ _ _ _ (by simp only [Reg.MTR_STATUS, Reg.LOG_STATUS]; omega))]
    refine (bit_wrBit_same _ _ (by simp [FRef.ok]) _ _ _ (by simpa [FRef.width] using hj)).trans ((if_neg hne).trans ?_)
    exact (accSat_eq hm hj s).symm
  · rw [guardOverflow_eq hm hk]
    refine (bit_wrBit_same _ _ (by simp [FRef.ok]) _ _ _ (by simpa [FRef.width] using hj)).trans ((if_neg hne).trans ?_)
    rw [bit_congr _ _ (reg_logEv _ _ _ _ (by simp only [Reg.MTR_EVENTS, Reg.LOG_STATUS]; omega)),
      bit_wrBit_ne _ (by simp only [Reg.MTR_EVENTS, Reg.MTR_STATUS]; omega)]
    exact hev

/-- What one accumulator does in a sample. -/
def accStep (m : Nat) (pq : Int × Int) (k : Nat) (s : State) : State :=
  if accEn s (4 * m + k) then
    accAdd (4 * m + k) (accGain m pq k s) (forEach (fedBy s (4 * m + k)) (fun j => poutFeed j (accGain m pq k s)) s)
  else s

theorem accStep_taken (pq : Int × Int) (s : State) : AccTaken m pq k s (accStep m pq k s) := by
  unfold AccTaken accStep
  by_cases hen : accEn s (4 * m + k) = true
  · have hfed := fed_kept hm hk (4 * m + k) (accGain m pq k s) s
    rw [if_pos hen, hen, Bool.true_and]
    generalize forEach (fedBy s (4 * m + k)) (fun j => poutFeed j (accGain m pq k s)) s = u at *
    rw [accAdd, hfed.sat, hfed.acc, hfed.toMeterFrame.accKind hm hk]
    by_cases hsat : accSat s (4 * m + k) = true
    · rw [if_pos hsat, if_neg (by simp [hsat])]
      exact ⟨hfed.acc, hfed.sat⟩
    · have hclear : accSat s (4 * m + k) = false := by simpa using hsat
      rw [if_neg hsat, if_pos (by simp [hclear])]
      dsimp only
      split
      · exact guardOverflow_guarded hm hk _ u
      · split
        · exact guardOverflow_guarded hm hk _ u
        · refine ⟨Tab.get_set_same _ _ _ _, ?_⟩
          rw [← hclear, ← hfed.sat, accSat_eq hm hk, accSat_eq hm hk]
          rfl
  · rw [if_neg hen, if_neg (by simp [hen])]
    exact ⟨rfl, rfl⟩

theorem accStep_frame (pq : Int × Int) (s : State) : MeterFrame m s (accStep m pq k s) := by
  unfold accStep
  split
  · refine (fed_kept hm hk (4 * m + k) (accGain m pq k s) s).toMeterFrame.trans ?_
    generalize forEach (fedBy s (4 * m + k)) (fun j => poutFeed j (accGain m pq k s)) s = u
    unfold accAdd
    dsimp only
    split
    · exact .refl m u
    · split
      · exact guardOverflow_frame hm hk _ u
      · split
        · exact guardOverflow_frame hm hk _ u
        · exact (MeterFrame.refl m u).setAcc (by omega)
  · exact .refl m s

theorem accStep_kept (pq : Int × Int) {j : Nat} (hj : j < 4) (hne : j ≠ k) (s : State) : AccKept m j s (accStep m pq k s) := by
  unfold accStep
  split
  · have hfed := fed_kept hm hj (4 * m + k) (accGain m pq k s) s
    refine hfed.trans ?_
    generalize forEach (fedBy s (4 * m + k)) (fun j => poutFeed j (accGain m pq k s)) s = u at *
    unfold accAdd
    dsimp only
    split
    · exact .refl m j u
    · split
      · exact guardOverflow_kept hm hk _ hj hne u
      · split
        · exact guardOverflow_kept hm hk _ hj hne u
        · exact .of_frame hm hj ((MeterFrame.refl m u).setAcc (by omega)) (Tab.get_set_ne _ _ _ _ (by omega)) rfl rfl
  · exact .refl m j s

end

end Sys2Proof.Machine
end
-- ==== Sys2Proof/Proofs/MeterSamples.lean ====
section
/-! PROOFS. Proofs/MeterSamples.lean: the sample of a channel in a control tick (R487 to R492). -/
namespace Sys2Proof.Machine

/-! ### What the accumulators leave of the channel -/

/-- A field that the accumulators of channel `m` leave alone. -/
structure AccSpares (m : Nat) (f : FRef) : Prop where
  ok : f.ok
  block : f.addr < 0x201400
  log : f.addr ≠ Reg.LOG_STATUS
  events : f.addr ≠ Reg.MTR_EVENTS m
  sat : (Fld.MTR_STATUS_SAT m).apart f

/-- What the accumulators of channel `m` leave of its hidden part and of its fields. -/
structure ChanKept (m : Nat) (s t : State) : Prop where
  chans : t.meter.chans = s.meter.chans
  rd : ∀ f, AccSpares m f → t.rd f = s.rd f

section
variable {m k : Nat} {pq : Int × Int} {r s t u : State}

theorem ChanKept.refl (m : Nat) (s : State) : ChanKept m s s := ⟨rfl, fun _ _ => rfl⟩

theorem ChanKept.trans (h : ChanKept m s t) (j : ChanKept m t u) : ChanKept m s u := ⟨j.chans.trans h.chans, fun f hf => (j.rd f hf).trans (h.rd f hf)⟩

theorem ChanKept.wr {f : FRef} {v : Nat} (h : ChanKept m r s) (hf : 0x201400 ≤ f.addr ∨ f.addr = Reg.MTR_EVENTS m ∨ f = Fld.MTR_STATUS_SAT m) :
    ChanKept m r (s.wr f v) := by
  refine h.trans ⟨rfl, fun g hg => ?_⟩
  rcases hf with hf | hf | rfl
  · exact rd_wr_ne _ _ _ _ (by have := hg.block; omega)
  · exact rd_wr_ne _ _ _ _ (fun he => hg.events (he ▸ hf))
  · exact rd_wr_apart _ _ _ _ (by simp [FRef.ok]) hg.ok hg.sat

theorem ChanKept.logEv {source code datum : Nat} (h : ChanKept m r s) : ChanKept m r (s.logEv source code datum) :=
  h.trans ⟨by rw [logEv_meter], fun _ hg => rd_logEv _ _ _ _ _ hg.log⟩

theorem ChanKept.setPout {j : Nat} {q : PulseOut} (h : ChanKept m r s) : ChanKept m r (s.setPout j q) := h.trans ⟨rfl, fun _ _ => rfl⟩

theorem ChanKept.setAcc {id : Nat} {v : Int} (h : ChanKept m r s) : ChanKept m r (s.setAcc id v) := h.trans ⟨rfl, fun _ _ => rfl⟩

theorem poutFeed_chanKept (j : Nat) (inc : Int) (h : ChanKept m r s) : ChanKept m r (poutFeed j inc s) := by
  have hst : 0x201400 ≤ Reg.POUT_ST j := by simp only [Reg.POUT_ST]; omega
  have hcnt : 0x201400 ≤ Reg.POUT_CNT j := by simp only [Reg.POUT_CNT]; omega
  unfold poutFeed poutPend
  extract_lets q r' n s1 p lost s2 s3
  have h2 : ChanKept m r s2 := h.setPout.wr (.inl hst)
  split
  · exact h.setPout
  · split
    · exact h2
    · have h3 : ChanKept m r s3 := by
        unfold s3
        split
        · exact h2
        · exact h2.logEv
      exact (h3.wr (.inl hcnt)).wr (.inl hst)

variable (hm : m < 9) (hk : k < 4)
include hm hk

theorem guardOverflow_chanKept (limit : Int) (s : State) : ChanKept m s (guardOverflow (4 * m + k) limit s) := by
  rw [guardOverflow_eq hm hk]
  exact ((((ChanKept.refl m s).setAcc).wr (.inr (.inr rfl))).logEv).wr (.inr (.inl rfl))

theorem accStep_chanKept (pq : Int × Int) (s : State) : ChanKept m s (accStep m pq k s) := by
  unfold accStep
  split
  · have hfed : ChanKept m s (forEach (fedBy s (4 * m + k)) (fun j => poutFeed j (accGain m pq k s)) s) :=
      forEach_preserves (P := ChanKept m s) (fun j _ _ h => poutFeed_chanKept j _ h) (.refl m s)
    refine hfed.trans ?_
    generalize forEach (fedBy s (4 * m + k)) (fun j => poutFeed j (accGain m pq k s)) s = u
    unfold accAdd
    dsimp only
    split
    · exact .refl m u
    · split
      · exact guardOverflow_chanKept hm hk _ u
      · split
        · exact guardOverflow_chanKept hm hk _ u
        · exact (ChanKept.refl m u).setAcc
  · exact .refl m s

end

/-! ### The integration of a sample (R490, R491) -/

section
variable {m : Nat} {pq : Int × Int} {s t : State}

/-- The four accumulators have taken the increments. -/
def accsTaken (m : Nat) (pq : Int × Int) (s : State) : State := forEach [0, 1, 2, 3] (accStep m pq) s

theorem integrate_eq : integrate m pq s =
    ((accsTaken m pq s).setChan m { (accsTaken m pq s).chan m with nsamp := ((accsTaken m pq s).chan m).nsamp + 1 }).wr (Fld.MTR_STATUS_ACTIVE m) 1 := rfl

/-- What the integration of a sample does. -/
structure Integrated (m : Nat) (pq : Int × Int) (s t : State) : Prop where
  frame : MeterFrame m s t
  taken : ∀ k, k < 4 → AccTaken m pq k s t
  chan : t.chan m = { s.chan m with nsamp := (s.chan m).nsamp + 1 }
  active : t.rd (Fld.MTR_STATUS_ACTIVE m) = 1
  rd : ∀ f, AccSpares m f → f.apart (Fld.MTR_STATUS_ACTIVE m) → t.rd f = s.rd f

variable (hm : m < 9)
include hm

theorem accsTaken_taken {k : Nat} (hk : k < 4) : AccTaken m pq k s (accsTaken m pq s) := by
  have hl (i : Nat) (hi : i ∈ [0, 1, 2, 3]) : i < 4 := by simp at hi; omega
  refine (forEach_settles (f := accStep m pq) (R := fun k s t => k < 4 → AccTaken m pq k s t) (K := fun k s t => k < 4 → AccKept m k s t) (n := 4)
    (by decide) hl (fun i s _ => .refl m i s) (fun i s t u h k hi => (h hi).trans (k hi)) (fun i s s' t h hr hi => (hr hi).from hm hi (h hi))
    (fun i s t t' hr h hi => (hr hi).upTo (h hi)) (fun i _ s hi => accStep_taken hm hi pq s)
    (fun i hi j hj hne s _ => accStep_kept hm (hl i hi) pq hj hne s) s).1 k (by simp; omega) hk

theorem accsTaken_chanKept : ChanKept m s (accsTaken m pq s) :=
  forEach_preserves (P := ChanKept m s) (fun k hk _ h => h.trans (accStep_chanKept hm (by simp at hk; omega) pq _)) (.refl m s)

theorem accsTaken_frame : MeterFrame m s (accsTaken m pq s) := by
  exact forEach_preserves (P := MeterFrame m s) (fun k hk _ h => h.trans (accStep_frame hm (by simp at hk; omega) pq _)) (.refl m s)

theorem integrate_integrated : Integrated m pq s (integrate m pq s) := by
  have hframe := accsTaken_frame (s := s) (pq := pq) hm
  have hkept := accsTaken_chanKept (s := s) (pq := pq) hm
  have htaken (k : Nat) (hk : k < 4) := accsTaken_taken (s := s) (pq := pq) hm hk
  rw [integrate_eq]
  generalize accsTaken m pq s = u at *
  have hlast (k : Nat) (hk : k < 4) : AccKept m k u ((u.setChan m { u.chan m with nsamp := (u.chan m).nsamp + 1 }).wr (Fld.MTR_STATUS_ACTIVE m) 1) :=
    ((AccKept.refl m k u).setChan hm hk).wr hm hk (meterReg_chan (by simp)) (by simp [FRef.ok]) (by simp [FRef.apart])
      (by simp [FRef.apart, Reg.MTR_STATUS, Reg.MTR_EVENTS])
  refine ⟨hframe.trans (hlast 0 (by decide)).toMeterFrame, fun k hk => (htaken k hk).upTo (hlast k hk), ?_, ?_, fun f hf hactive => ?_⟩
  · have hchan : u.chan m = s.chan m := congrArg (Tab.get restChan · m) hkept.chans
    rw [← hchan]
    exact Tab.get_set_same _ _ _ _
  · exact rd_wr_same _ _ _ (by simp [FRef.ok])
  · exact (rd_wr_apart _ _ _ _ (by simp [FRef.ok]) hf.ok (apart_symm hactive)).trans (hkept.rd f hf)

end

/-! ### P and Q (R487, R489) -/

theorem sat32_range (v : Int) : -(2 ^ 31) ≤ sat32 v ∧ sat32 v ≤ 2 ^ 31 - 1 := by
  unfold sat32 clampInt
  split
  · omega
  · split <;> omega

/-- A full word read as a signed number gives what was written, where it lies in range. -/
theorem rdI_wrI_same (s : State) {f : FRef} (hf : f.ok) (hw : f.width = 32) {v : Int} (hv : -(2 ^ 31) ≤ v ∧ v ≤ 2 ^ 31 - 1) : (s.wrI f v).rdI f = v := by
  have hrd : (s.wrI f v).rd f = (v % 2 ^ 32).toNat := by
    rw [State.wrI, rd_wr_same _ _ _ hf, ofInt, hw]
    have := Int.emod_lt_of_pos v (show (0 : Int) < 2 ^ 32 by decide)
    have := Int.emod_nonneg v (show (2 ^ 32 : Int) ≠ 0 by decide)
    omega
  rw [State.rdI, hrd, hw]
  split <;> omega

/-- P and Q of a sample as the rules give them (R489). -/
def freshPQ (s : State) (m : Nat) : Int × Int :=
  let v := fun x => meterInput s m x
  let neg := fun x : Int => if s.rd (Fld.MTR_CFG_DIR m) = 1 then sat32 (-x) else x
  let mul := fun x y : Int => sat40 (roundDiv (x * y) (2 ^ 30))
  let p := sat40 (sat40 (mul (v 0) (v 3) + mul (v 1) (v 4)) + mul (v 2) (v 5))
  let q := sat40 (sat40 (mul (sat40 (v 1 - v 2)) (v 3) + mul (sat40 (v 2 - v 0)) (v 4)) + mul (sat40 (v 0 - v 1)) (v 5))
  (neg (sat32 (sat40 (roundDiv (2 * p) 3))), neg (sat32 (sat40 (roundDiv (2 * q * 2 ^ 40) (3 * 1904410002820)))))

theorem samplePQ_eq (s : State) (m : Nat) : samplePQ s m = freshPQ s m := by
  have hdir : s.rd (Fld.MTR_CFG_DIR m) < 2 := rd_lt s (Fld.MTR_CFG_DIR m) (by simp [FRef.ok])
  have hthird : (3 * sqrt3.toNat : Nat) = 3 * 1904410002820 := rfl
  unfold samplePQ freshPQ
  simp only [add40, mul40, mulPu, ← Int.sub_eq_add_neg, hthird]
  by_cases h : s.rd (Fld.MTR_CFG_DIR m) = 1
  · rw [if_pos (by simp [h]), if_pos h, if_pos h]
  · rw [if_neg (by simp; omega), if_neg h, if_neg h]

theorem freshPQ_range (s : State) (m : Nat) : (-(2 ^ 31) ≤ (freshPQ s m).1 ∧ (freshPQ s m).1 ≤ 2 ^ 31 - 1) ∧
    (-(2 ^ 31) ≤ (freshPQ s m).2 ∧ (freshPQ s m).2 ≤ 2 ^ 31 - 1) := by
  unfold freshPQ
  dsimp only
  constructor <;> split <;> exact sat32_range _

end Sys2Proof.Machine
end
-- ==== Sys2Proof/Proofs/MeterTicks.lean ====
section
/-! PROOFS. Proofs/MeterTicks.lean: METER_SAMPLE, case by case (R487, R488, R494; O41). -/
namespace Sys2Proof.Machine

/-! ### A reason of the interval (R494) -/

section
variable {m mask : Nat} {s : State}

theorem chanReason_kept (hm : m < 9) {k : Nat} (hk : k < 4) : AccKept m k s (chanReason m mask s) :=
  (AccKept.refl m k s).wr hm hk (meterReg_chan (by simp)) (by simp [FRef.ok]) (by simp [FRef.apart]) (by simp [FRef.apart, Reg.MTR_STATUS, Reg.MTR_EVENTS])

theorem chanReason_frame : MeterFrame m s (chanReason m mask s) := (MeterFrame.refl m s).wr (meterReg_chan (by simp))

theorem chanReason_rd {f : FRef} (hok : f.ok) (hf : f.apart (Fld.MTR_STATUS_INV_NOW m)) : (chanReason m mask s).rd f = s.rd f :=
  rd_wr_apart _ _ _ _ (by simp [FRef.ok]) hok (apart_symm hf)

theorem chanReason_bit (hmask : mask < 2 ^ 8) (i : Nat) :
    ((chanReason m mask s).rd (Fld.MTR_STATUS_INV_NOW m)).testBit i = ((s.rd (Fld.MTR_STATUS_INV_NOW m)).testBit i || mask.testBit i) := by
  have hlt : s.rd (Fld.MTR_STATUS_INV_NOW m) ||| mask < 2 ^ 8 := Nat.or_lt_two_pow (rd_lt s (Fld.MTR_STATUS_INV_NOW m) (by simp [FRef.ok])) hmask
  rw [chanReason, rd_wr_same _ _ _ (by simp [FRef.ok]), ← Nat.testBit_or]
  exact congrArg (Nat.testBit · i) (Nat.mod_eq_of_lt hlt)

end

/-! ### What a sample does -/

/-- The sample of channel `m`: whether its results are usable, whether it counts and is filled, and its P and Q. -/
structure SampleTaken (m : Nat) (usable counts fills : Bool) (pq : Int × Int) (s t : State) : Prop where
  frame : MeterFrame m s t
  done : (t.chan m).done = true
  active : t.rd (Fld.MTR_STATUS_ACTIVE m) = counts.toNat
  holding : t.rd (Fld.MTR_STATUS_HOLDING m) = fills.toNat
  fresh : usable = true → t.rdI (Fld.MTR_P m) = pq.1 ∧ t.rdI (Fld.MTR_Q m) = pq.2 ∧ (t.chan m).last = some pq ∧ (t.chan m).run = 0
  stale : usable = false → t.reg (Reg.MTR_P m) = s.reg (Reg.MTR_P m) ∧ t.reg (Reg.MTR_Q m) = s.reg (Reg.MTR_Q m) ∧ (t.chan m).last = (s.chan m).last
  nsamp : (t.chan m).nsamp = (s.chan m).nsamp + counts.toNat
  filled : (t.chan m).filled = (s.chan m).filled + fills.toNat
  taken : ∀ k, k < 4 → if counts = true then AccTaken m pq k s t
    else t.acc (4 * m + k) = s.acc (4 * m + k) ∧ accSat t (4 * m + k) = accSat s (4 * m + k)
  reason : counts = false → (t.rd (Fld.MTR_STATUS_INV_NOW m)).testBit 1 = true

theorem chan_setChan_same (s : State) (m : Nat) (q : MeterChan) : (s.setChan m q).chan m = q := Tab.get_set_same _ _ _ _

/-- A register is its whole word. -/
theorem reg_of_rd {s t : State} {a : Nat} (h : t.rd ⟨a, 31, 0⟩ = s.rd ⟨a, 31, 0⟩) : t.reg a = s.reg a := by
  have hword (r : State) : r.reg a = BitVec.ofNat 32 (r.rd ⟨a, 31, 0⟩) :=
    (FRef.put_get_self ⟨a, 31, 0⟩ (by simp [FRef.ok]) (r.reg a)).symm.trans (FRef.put_whole a _ _)
  rw [hword t, h, ← hword s]

theorem rdI_of_rd {s t : State} {f : FRef} (h : t.rd f = s.rd f) : t.rdI f = s.rdI f := by rw [State.rdI, h, State.rdI]

section
variable {m : Nat} (hm : m < 9) {usable counts fills : Bool} {pq : Int × Int} {s t : State}
include hm

/-- A further reason changes nothing else of a sample. -/
theorem SampleTaken.chanReason {mask : Nat} (hmask : mask < 2 ^ 8) (h : SampleTaken m usable counts fills pq s t) :
    SampleTaken m usable counts fills pq s (Machine.chanReason m mask t) := by
  have hp : (Machine.chanReason m mask t).reg (Reg.MTR_P m) = t.reg (Reg.MTR_P m) := reg_wr_ne _ _ (by simp)
  have hq : (Machine.chanReason m mask t).reg (Reg.MTR_Q m) = t.reg (Reg.MTR_Q m) := reg_wr_ne _ _ (by simp)
  refine ⟨h.frame.trans chanReason_frame, h.done, (chanReason_rd (by simp [FRef.ok]) (by simp [FRef.apart])).trans h.active,
    (chanReason_rd (by simp [FRef.ok]) (by simp [FRef.apart])).trans h.holding, fun hu => ?_, fun hu => ?_, h.nsamp, h.filled, fun k hk => ?_, fun hc => ?_⟩
  · obtain ⟨hfp, hfq, hlast, hrun⟩ := h.fresh hu
    exact ⟨(rdI_of_rd (rd_congr _ hp)).trans hfp, (rdI_of_rd (rd_congr _ hq)).trans hfq, hlast, hrun⟩
  · obtain ⟨hsp, hsq, hlast⟩ := h.stale hu
    exact ⟨hp.trans hsp, hq.trans hsq, hlast⟩
  · have hkept : AccKept m k t (Machine.chanReason m mask t) := chanReason_kept hm hk
    have htaken := h.taken k hk
    split at htaken
    · next hc =>
      rw [if_pos hc]
      exact htaken.upTo hkept
    · next hc =>
      rw [if_neg hc]
      exact ⟨hkept.acc.trans htaken.1, hkept.sat.trans htaken.2⟩
  · rw [chanReason_bit hmask, h.reason hc, Bool.true_or]

/-! ### The four cases (R488) -/

omit hm in
/-- The sample of the channel is formed in this tick. -/
theorem accSpares_p (hm : m < 9) {a : Nat} (ha : a = Reg.MTR_P m ∨ a = Reg.MTR_Q m) : AccSpares m ⟨a, 31, 0⟩ where
  ok := by simp [FRef.ok]
  block := by simp only [Reg.MTR_P, Reg.MTR_Q] at ha; show a < _; omega
  log := by simp only [Reg.MTR_P, Reg.MTR_Q] at ha; show a ≠ _; simp only [Reg.LOG_STATUS]; omega
  events := by simp only [Reg.MTR_P, Reg.MTR_Q] at ha; show a ≠ _; simp only [Reg.MTR_EVENTS]; omega
  sat := .inl (by simp only [Reg.MTR_P, Reg.MTR_Q] at ha; show _ ≠ a; simp only [Reg.MTR_STATUS]; omega)

theorem accSpares_status {hi lo : Nat} (hok : lo ≤ hi ∧ hi < 28) : AccSpares m ⟨Reg.MTR_STATUS m, hi, lo⟩ where
  ok := ⟨hok.1, by show hi < 32; omega⟩
  block := by simp only [Reg.MTR_STATUS]; omega
  log := by simp only [Reg.MTR_STATUS, Reg.LOG_STATUS]; omega
  events := by simp only [Reg.MTR_STATUS, Reg.MTR_EVENTS]; omega
  sat := .inr (by simp; omega)

/-- The P and Q of a usable sample are shown. -/
def freshNoted (m : Nat) (pq : Int × Int) (s : State) : State :=
  (((s.setChan m { s.chan m with last := some pq, run := 0 }).wrI (Fld.MTR_P m) pq.1).wrI (Fld.MTR_Q m) pq.2).wr (Fld.MTR_STATUS_HOLDING m) 0

theorem freshNoted_kept {k : Nat} (hk : k < 4) : AccKept m k s (freshNoted m pq s) := by
  have h1 : AccKept m k s (s.setChan m { s.chan m with last := some pq, run := 0 }) := (AccKept.refl m k s).setChan hm hk
  have h2 := h1.wr hm hk (f := Fld.MTR_P m) (v := ofInt 32 pq.1) (meterReg_chan (by simp)) (by simp [FRef.ok]) (.inl (by simp)) (.inl (by simp))
  have h3 := h2.wr hm hk (f := Fld.MTR_Q m) (v := ofInt 32 pq.2) (meterReg_chan (by simp)) (by simp [FRef.ok]) (.inl (by simp)) (.inl (by simp))
  exact h3.wr hm hk (f := Fld.MTR_STATUS_HOLDING m) (meterReg_chan (by simp)) (by simp [FRef.ok]) (by simp [FRef.apart]) (.inl (by simp))

omit hm in
theorem freshNoted_chan : (freshNoted m pq s).chan m = { s.chan m with last := some pq, run := 0 } :=
  chan_setChan_same s m { s.chan m with last := some pq, run := 0 }

omit hm in
theorem freshNoted_p (h : -(2 ^ 31) ≤ pq.1 ∧ pq.1 ≤ 2 ^ 31 - 1) : (freshNoted m pq s).rdI (Fld.MTR_P m) = pq.1 := by
  refine (rdI_of_rd ?_).trans (rdI_wrI_same (s.setChan m { s.chan m with last := some pq, run := 0 }) (by simp [FRef.ok]) (by simp [FRef.width]) h)
  exact (rd_wr_ne _ _ _ _ (by simp)).trans (rd_wr_ne _ _ _ _ (by simp))

omit hm in
theorem freshNoted_q (h : -(2 ^ 31) ≤ pq.2 ∧ pq.2 ≤ 2 ^ 31 - 1) : (freshNoted m pq s).rdI (Fld.MTR_Q m) = pq.2 :=
  (rdI_of_rd (rd_wr_ne _ _ _ _ (by simp))).trans (rdI_wrI_same _ (by simp [FRef.ok]) (by simp [FRef.width]) h)

omit hm in
theorem freshNoted_holding : (freshNoted m pq s).rd (Fld.MTR_STATUS_HOLDING m) = 0 := rd_wr_same _ _ _ (by simp [FRef.ok])

/-- A usable sample that counts. -/
theorem sample_fresh (hrange : (-(2 ^ 31) ≤ pq.1 ∧ pq.1 ≤ 2 ^ 31 - 1) ∧ (-(2 ^ 31) ≤ pq.2 ∧ pq.2 ≤ 2 ^ 31 - 1)) (hdone : (s.chan m).done = true) :
    SampleTaken m true true false pq s (integrate m pq (freshNoted m pq s)) := by
  have h := integrate_integrated (s := freshNoted m pq s) (pq := pq) hm
  have hp := freshNoted_p (m := m) (s := s) hrange.1
  have hq := freshNoted_q (m := m) (s := s) hrange.2
  have hhold := freshNoted_holding (m := m) (pq := pq) (s := s)
  have hkept (k : Nat) (hk : k < 4) : AccKept m k s (freshNoted m pq s) := freshNoted_kept hm hk
  have hchan := freshNoted_chan (m := m) (pq := pq) (s := s)
  generalize freshNoted m pq s = u at *
  generalize integrate m pq u = t at *
  have hc := h.chan
  rw [hchan] at hc
  refine ⟨(hkept 0 (by decide)).toMeterFrame.trans h.frame, by rw [hc]; exact hdone, h.active,
    (h.rd _ (accSpares_status hm (by decide)) (by simp [FRef.apart])).trans hhold, fun _ => ⟨?_, ?_, by rw [hc], by rw [hc]⟩, nofun, by rw [hc]; rfl,
    by rw [hc]; rfl, fun k hk => ?_, nofun⟩
  · exact (rdI_of_rd (h.rd _ (accSpares_p hm (.inl rfl)) (.inl (by simp)))).trans hp
  · exact (rdI_of_rd (h.rd _ (accSpares_p hm (.inr rfl)) (.inl (by simp)))).trans hq
  · rw [if_pos rfl]
    exact (h.taken k hk).from hm hk (hkept k hk)

omit hm in
/-- A sample that integrates nothing, before its reason is noted. -/
def idleShown (m : Nat) (s : State) : State := (s.wr (Fld.MTR_STATUS_ACTIVE m) 0).wr (Fld.MTR_STATUS_HOLDING m) 0

omit hm in
theorem integrateNone_eq : integrateNone m s = chanReason m (if coresPowered s m then 0x02 else 0x22) (idleShown m s) := rfl

theorem idleShown_kept {k : Nat} (hk : k < 4) : AccKept m k s (idleShown m s) :=
  ((AccKept.refl m k s).wr hm hk (f := Fld.MTR_STATUS_ACTIVE m) (meterReg_chan (by simp)) (by simp [FRef.ok]) (by simp [FRef.apart]) (.inl (by simp))).wr
    hm hk (f := Fld.MTR_STATUS_HOLDING m) (meterReg_chan (by simp)) (by simp [FRef.ok]) (by simp [FRef.apart]) (.inl (by simp))

/-- A sample that integrates nothing has reason SAMPLES (R494). -/
theorem sample_none {u : State} (hkept : ∀ k, k < 4 → AccKept m k s u) (hdone : (u.chan m).done = true)
    (hfresh : usable = true → u.rdI (Fld.MTR_P m) = pq.1 ∧ u.rdI (Fld.MTR_Q m) = pq.2 ∧ (u.chan m).last = some pq ∧ (u.chan m).run = 0)
    (hstale : usable = false → u.reg (Reg.MTR_P m) = s.reg (Reg.MTR_P m) ∧ u.reg (Reg.MTR_Q m) = s.reg (Reg.MTR_Q m) ∧ (u.chan m).last = (s.chan m).last)
    (hnsamp : (u.chan m).nsamp = (s.chan m).nsamp) (hfilled : (u.chan m).filled = (s.chan m).filled) :
    SampleTaken m usable false false pq s (integrateNone m u) := by
  have hidle (k : Nat) (hk : k < 4) : AccKept m k u (idleShown m u) := idleShown_kept hm hk
  have hreason (k : Nat) (hk : k < 4) : AccKept m k u (integrateNone m u) := (hidle k hk).trans (chanReason_kept hm hk)
  have hmask : (if coresPowered u m = true then 0x02 else 0x22 : Nat) < 2 ^ 8 := by split <;> decide
  have hrd (f : FRef) (hok : f.ok) (hf : f.apart (Fld.MTR_STATUS_INV_NOW m)) : (integrateNone m u).rd f = (idleShown m u).rd f := chanReason_rd hok hf
  have hreg (a : Nat) (ha : a ≠ Reg.MTR_STATUS m) : (integrateNone m u).reg a = u.reg a :=
    (reg_wr_ne _ _ (Ne.symm ha)).trans ((reg_wr_ne _ _ (Ne.symm ha)).trans (reg_wr_ne _ _ (Ne.symm ha)))
  have hchan : (integrateNone m u).chan m = u.chan m := rfl
  have hbit : ((integrateNone m u).rd (Fld.MTR_STATUS_INV_NOW m)).testBit 1 = true := by
    have hsamples : Nat.testBit (if coresPowered u m = true then 0x02 else 0x22) 1 = true := by split <;> rfl
    rw [integrateNone_eq, chanReason_bit hmask, hsamples, Bool.or_true]
  have hactive : (idleShown m u).rd (Fld.MTR_STATUS_ACTIVE m) = 0 :=
    (rd_wr_apart _ _ _ _ (by simp [FRef.ok]) (by simp [FRef.ok]) (by simp [FRef.apart])).trans (rd_wr_same _ _ _ (by simp [FRef.ok]))
  have hhold : (idleShown m u).rd (Fld.MTR_STATUS_HOLDING m) = 0 := rd_wr_same _ _ _ (by simp [FRef.ok])
  have hp : (integrateNone m u).reg (Reg.MTR_P m) = u.reg (Reg.MTR_P m) := hreg _ (by simp)
  have hq : (integrateNone m u).reg (Reg.MTR_Q m) = u.reg (Reg.MTR_Q m) := hreg _ (by simp)
  generalize integrateNone m u = t at *
  refine ⟨(hkept 0 (by decide)).toMeterFrame.trans (hreason 0 (by decide)).toMeterFrame, by rw [hchan, hdone],
    (hrd _ (by simp [FRef.ok]) (by simp [FRef.apart])).trans hactive, (hrd _ (by simp [FRef.ok]) (by simp [FRef.apart])).trans hhold,
    fun hu => ?_, fun hu => ?_, by rw [hchan, hnsamp]; rfl, by rw [hchan, hfilled]; rfl, fun k hk => ?_, fun _ => hbit⟩
  · obtain ⟨hfp, hfq, hlast, hrun⟩ := hfresh hu
    exact ⟨(rdI_of_rd (rd_congr _ hp)).trans hfp, (rdI_of_rd (rd_congr _ hq)).trans hfq, by rw [hchan, hlast], by rw [hchan, hrun]⟩
  · obtain ⟨hsp, hsq, hlast⟩ := hstale hu
    exact ⟨hp.trans hsp, hq.trans hsq, by rw [hchan, hlast]⟩
  · rw [if_neg Bool.false_ne_true]
    exact ⟨(hreason k hk).acc.trans (hkept k hk).acc, (hreason k hk).sat.trans (hkept k hk).sat⟩

omit hm in
/-- A filled sample, before its reason is noted. -/
def filledShown (m : Nat) (pq : Int × Int) (s : State) : State :=
  countEv 0x088 m 1 ((integrate m pq (s.setChan m { s.chan m with run := (s.chan m).run + 1, filled := (s.chan m).filled + 1 })).wr
    (Fld.MTR_STATUS_HOLDING m) 1)

omit hm in
theorem integrateFilled_eq : integrateFilled m pq s =
    if (filledShown m pq s).rd (Fld.MTR_CFG_FILL_MAX m) < ((filledShown m pq s).chan m).filled then chanReason m 0x02 (filledShown m pq s)
    else filledShown m pq s := rfl

/-- A filled sample integrates the last P and Q again. -/
theorem sample_filled (hdone : (s.chan m).done = true) : SampleTaken m false true true pq s (integrateFilled m pq s) := by
  have hs : SampleTaken m false true true pq s (filledShown m pq s) := by
    have hbegun (k : Nat) (hk : k < 4) : AccKept m k s (s.setChan m { s.chan m with run := (s.chan m).run + 1, filled := (s.chan m).filled + 1 }) :=
      (AccKept.refl m k s).setChan hm hk
    have hchan := chan_setChan_same s m { s.chan m with run := (s.chan m).run + 1, filled := (s.chan m).filled + 1 }
    have hregs (a : Nat) : (s.setChan m { s.chan m with run := (s.chan m).run + 1, filled := (s.chan m).filled + 1 }).reg a = s.reg a := rfl
    unfold filledShown
    generalize s.setChan m { s.chan m with run := (s.chan m).run + 1, filled := (s.chan m).filled + 1 } = u at *
    have h := integrate_integrated (s := u) (pq := pq) hm
    generalize integrate m pq u = t at *
    have hlast (k : Nat) (hk : k < 4) : AccKept m k t (countEv 0x088 m 1 (t.wr (Fld.MTR_STATUS_HOLDING m) 1)) :=
      ((AccKept.refl m k t).wr hm hk (f := Fld.MTR_STATUS_HOLDING m) (meterReg_chan (by simp)) (by simp [FRef.ok]) (by simp [FRef.apart]) (.inl (by simp))).countEv
        hm hk
    have hrd (f : FRef) : (countEv 0x088 m 1 (t.wr (Fld.MTR_STATUS_HOLDING m) 1)).rd f = (t.wr (Fld.MTR_STATUS_HOLDING m) 1).rd f := rd_countEv _ _ _ _ _
    have hmeter : (countEv 0x088 m 1 (t.wr (Fld.MTR_STATUS_HOLDING m) 1)).meter = t.meter := by rw [countEv_spec]; rfl
    have hregv (a : Nat) (ha : a ≠ Reg.MTR_STATUS m) : (countEv 0x088 m 1 (t.wr (Fld.MTR_STATUS_HOLDING m) 1)).reg a = t.reg a :=
      (reg_congr (countEv_regs _ _ _ _) a).trans (reg_wr_ne _ _ (Ne.symm ha))
    generalize countEv 0x088 m 1 (t.wr (Fld.MTR_STATUS_HOLDING m) 1) = v at *
    have hc : v.chan m = { s.chan m with run := (s.chan m).run + 1, filled := (s.chan m).filled + 1, nsamp := (s.chan m).nsamp + 1 } := by
      rw [State.chan, hmeter, ← State.chan, h.chan, hchan]
    have hword {a : Nat} (ha : a = Reg.MTR_P m ∨ a = Reg.MTR_Q m) : v.reg a = s.reg a := by
      have hne : a ≠ Reg.MTR_STATUS m := by simp only [Reg.MTR_P, Reg.MTR_Q, Reg.MTR_STATUS] at ha ⊢; omega
      exact (hregv a hne).trans ((reg_of_rd (h.rd _ (accSpares_p hm ha) (.inl hne))).trans (hregs a))
    refine ⟨((hbegun 0 (by decide)).toMeterFrame.trans h.frame).trans (hlast 0 (by decide)).toMeterFrame, by rw [hc]; exact hdone, ?_, ?_, nofun,
      fun _ => ⟨hword (.inl rfl), hword (.inr rfl), by rw [hc]⟩, by rw [hc]; rfl, by rw [hc]; rfl, fun k hk => ?_, nofun⟩
    · exact (hrd _).trans ((rd_wr_apart _ _ _ _ (by simp [FRef.ok]) (by simp [FRef.ok]) (by simp [FRef.apart])).trans h.active)
    · exact (hrd _).trans (rd_wr_same _ _ _ (by simp [FRef.ok]))
    · rw [if_pos rfl]
      exact ((h.taken k hk).from hm hk (hbegun k hk)).upTo (hlast k hk)
  rw [integrateFilled_eq]
  split
  · exact hs.chanReason hm (by decide)
  · exact hs

end

end Sys2Proof.Machine
end
-- ==== Sys2Proof/Proofs/MeterSampling.lean ====
section
/-! PROOFS. Proofs/MeterSampling.lean: METER_SAMPLE as the rules state it (O41). -/
namespace Sys2Proof.Machine

/-- The channel has formed its sample of this tick. -/
def sampleBegun (m : Nat) (s : State) : State := s.setChan m { s.chan m with done := true }

/-- The sample of channel `m`, with the channel as it was before the tick. -/
def sampleFormed (m : Nat) (q : MeterChan) (s : State) : State :=
  if sampleUsable s m then
    if (freshNoted m (samplePQ s m) s).rd (Fld.MTR_PBASE m) = 0 then integrateNone m (freshNoted m (samplePQ s m) s)
    else integrate m (samplePQ s m) (freshNoted m (samplePQ s m) s)
  else match q.last with
    | some pq => if coresPowered s m && s.rdB Fld.SCHED_CFG_TICK_RUN && decide (q.run < 16 ∧ s.rd (Fld.MTR_PBASE m) ≠ 0) then integrateFilled m pq s
                 else integrateNone m (s.setChan m { s.chan m with run := q.run + 1 })
    | none => integrateNone m s

theorem meterSample_eq (m : Nat) (s : State) : meterSample m s =
    if [0, 1, 2, 3].any (fun k => accEn (sampleFormed m (s.chan m) (sampleBegun m s)) (4 * m + k) &&
        accSat (sampleFormed m (s.chan m) (sampleBegun m s)) (4 * m + k)) then chanReason m 0x01 (sampleFormed m (s.chan m) (sampleBegun m s))
    else sampleFormed m (s.chan m) (sampleBegun m s) := rfl

section
variable {m : Nat} (hm : m < 9) {usable counts fills : Bool} {pq : Int × Int} {s t u : State}
include hm

/-- What is done before the sample belongs to it. -/
theorem SampleTaken.from (h : SampleTaken m usable counts fills pq u t) (hkept : ∀ k, k < 4 → AccKept m k s u) (hregs : ∀ a, u.reg a = s.reg a)
    (hlast : (u.chan m).last = (s.chan m).last) (hnsamp : (u.chan m).nsamp = (s.chan m).nsamp) (hfilled : (u.chan m).filled = (s.chan m).filled) :
    SampleTaken m usable counts fills pq s t := by
  refine ⟨(hkept 0 (by decide)).toMeterFrame.trans h.frame, h.done, h.active, h.holding, h.fresh, fun hu => ?_, h.nsamp.trans (by rw [hnsamp]),
    h.filled.trans (by rw [hfilled]), fun k hk => ?_, h.reason⟩
  · obtain ⟨hp, hq, hl⟩ := h.stale hu
    exact ⟨hp.trans (hregs _), hq.trans (hregs _), hl.trans hlast⟩
  · have htaken := h.taken k hk
    split at htaken
    · next hc =>
      rw [if_pos hc]
      exact htaken.from hm hk (hkept k hk)
    · next hc =>
      rw [if_neg hc]
      exact ⟨htaken.1.trans (hkept k hk).acc, htaken.2.trans (hkept k hk).sat⟩

/-- A sample with usable results. -/
theorem sampleFormed_usable (q : MeterChan) (hdone : (s.chan m).done = true) (husable : sampleUsable s m = true) :
    SampleTaken m true (decide (s.rd (Fld.MTR_PBASE m) ≠ 0)) false (freshPQ s m) s (sampleFormed m q s) := by
  have hrange := freshPQ_range s m
  have hbase : (freshNoted m (freshPQ s m) s).rd (Fld.MTR_PBASE m) = s.rd (Fld.MTR_PBASE m) :=
    (freshNoted_kept hm (show 0 < 4 by decide)).toMeterFrame.rd
      (by simp [Reg.MTR_PBASE, Reg.MTR_P, Reg.MTR_Q, Reg.MTR_STATUS, Reg.MTR_EVENTS, Reg.LOG_STATUS]; omega) (.inl (by simp only [Reg.MTR_PBASE]; omega))
  have hchan := freshNoted_chan (m := m) (pq := freshPQ s m) (s := s)
  rw [sampleFormed, if_pos husable, samplePQ_eq, hbase]
  by_cases h0 : s.rd (Fld.MTR_PBASE m) = 0
  · rw [if_pos h0, decide_eq_false (not_not.mpr h0)]
    exact sample_none hm (fun k hk => freshNoted_kept hm hk) (by rw [hchan]; exact hdone)
      (fun _ => ⟨freshNoted_p hrange.1, freshNoted_q hrange.2, by rw [hchan], by rw [hchan]⟩) nofun (by rw [hchan]) (by rw [hchan])
  · rw [if_neg h0, decide_eq_true h0]
    exact sample_fresh hm hrange hdone

/-- A sample without usable results is filled or integrates nothing. -/
theorem sampleFormed_unusable (hdone : (s.chan m).done = true) (hrun : s.rd Fld.SCHED_CFG_TICK_RUN = 1) (husable : sampleUsable s m = false)
    {q : MeterChan} {fills : Bool}
    (hfills : fills = (q.last.isSome && coresPowered s m && decide (q.run < 16) && decide (s.rd (Fld.MTR_PBASE m) ≠ 0))) :
    SampleTaken m false fills fills (q.last.getD (0, 0)) s (sampleFormed m q s) := by
  rw [sampleFormed, if_neg (by simp [husable])]
  cases hq : q.last with
  | none =>
    obtain rfl : fills = false := by rw [hfills, hq]; rfl
    exact sample_none hm (fun k _ => .refl m k s) hdone nofun (fun _ => ⟨rfl, rfl, rfl⟩) rfl rfl
  | some pq =>
    have hguard : (coresPowered s m && s.rdB Fld.SCHED_CFG_TICK_RUN && decide (q.run < 16 ∧ s.rd (Fld.MTR_PBASE m) ≠ 0)) = fills := by
      rw [hfills, hq, rdB_eq, hrun, Option.isSome_some, Bool.true_and, Bool.decide_and]
      simp [Bool.and_assoc]
    dsimp only
    rw [hguard]
    cases fills with
    | true => exact sample_filled hm hdone
    | false =>
      have hchan := chan_setChan_same s m { s.chan m with run := q.run + 1 }
      have hkept (k : Nat) (hk : k < 4) : AccKept m k s (s.setChan m { s.chan m with run := q.run + 1 }) := (AccKept.refl m k s).setChan hm hk
      have hregs (a : Nat) : (s.setChan m { s.chan m with run := q.run + 1 }).reg a = s.reg a := rfl
      rw [if_neg Bool.false_ne_true]
      generalize s.setChan m { s.chan m with run := q.run + 1 } = u at *
      exact sample_none hm hkept (by rw [hchan]; exact hdone) nofun (fun _ => ⟨hregs _, hregs _, by rw [hchan]⟩) (by rw [hchan]) (by rw [hchan])

/-- The last P and Q are integrated again: the results are not usable, but there are some, the cores are powered, and no more than 15 samples
in a row were filled before (R488). -/
def samplesFill (s : State) (m : Nat) : Bool :=
  !sampleUsable s m && (s.chan m).last.isSome && coresPowered s m && decide ((s.chan m).run < 16) && decide (s.rd (Fld.MTR_PBASE m) ≠ 0)

/-- The sample integrates P and Q. -/
def samplesCount (s : State) (m : Nat) : Bool := (sampleUsable s m && decide (s.rd (Fld.MTR_PBASE m) ≠ 0)) || samplesFill s m

/-- The P and Q that a sample integrates. -/
def integratedPQ (s : State) (m : Nat) : Int × Int := if sampleUsable s m then freshPQ s m else (s.chan m).last.getD (0, 0)

theorem meterSample_taken (hrun : s.rd Fld.SCHED_CFG_TICK_RUN = 1) :
    SampleTaken m (sampleUsable s m) (samplesCount s m) (samplesFill s m) (integratedPQ s m) s (meterSample m s) := by
  have hchan := chan_setChan_same s m { s.chan m with done := true }
  have hbegun (k : Nat) (hk : k < 4) : AccKept m k s (sampleBegun m s) := (AccKept.refl m k s).setChan hm hk
  have hregs (a : Nat) : (sampleBegun m s).reg a = s.reg a := rfl
  have hrd (f : FRef) : (sampleBegun m s).rd f = s.rd f := rfl
  have husable : sampleUsable (sampleBegun m s) m = sampleUsable s m := rfl
  have hpower : coresPowered (sampleBegun m s) m = coresPowered s m := rfl
  have hfresh : freshPQ (sampleBegun m s) m = freshPQ s m := rfl
  have hformed : SampleTaken m (sampleUsable s m) (samplesCount s m) (samplesFill s m) (integratedPQ s m) s
      (sampleFormed m (s.chan m) (sampleBegun m s)) := by
    change (sampleBegun m s).chan m = _ at hchan
    generalize sampleBegun m s = u at *
    refine SampleTaken.from hm ?_ hbegun hregs (by rw [hchan]) (by rw [hchan]) (by rw [hchan])
    cases hu : sampleUsable s m with
    | true =>
      have h := sampleFormed_usable hm (s.chan m) (by rw [hchan]) (husable.trans hu)
      rw [hfresh, hrd] at h
      simpa only [samplesCount, samplesFill, integratedPQ, hu, Bool.not_true, Bool.false_and, Bool.or_false, Bool.true_and, if_pos] using h
    | false =>
      have h := sampleFormed_unusable hm (by rw [hchan]) ((hrd _).trans hrun) (husable.trans hu) (q := s.chan m) (fills := samplesFill s m)
        (by rw [samplesFill, hu, hpower, hrd, Bool.not_false, Bool.true_and])
      rw [samplesCount, integratedPQ, hu, Bool.false_and, Bool.false_or, if_neg Bool.false_ne_true]
      exact h
  rw [meterSample_eq]
  split
  · exact hformed.chanReason hm (by decide)
  · exact hformed

end

theorem exec_meterSample (s : State) (m : Fin 9) : exec (.meterSample m) s = .next
    (if meterRuns s && s.rdB Fld.SCHED_CFG_TICK_RUN && s.rdB (Fld.MTR_CFG_EN m.val) && !(s.chan m.val).done then meterSample m.val (ticked s)
     else ticked s) := rfl

theorem meterSample_ignored (s : State) (m : Fin 9) (h : meterRuns s = false ∨ s.rd Fld.SCHED_CFG_TICK_RUN = 0 ∨ s.rd (Fld.MTR_CFG_EN m) = 0 ∨
    (s.chan m).done = true) : Does (.meterSample m) s fun t => t = { s with cycle := s.cycle + 1 } := by
  refine ⟨ticked s, (exec_meterSample s m).trans (congrArg _ (if_neg ?_)), rfl⟩
  simp only [Bool.and_eq_true, rdB_eq, decide_eq_true_eq, Bool.not_eq_true', and_assoc]
  rintro ⟨hruns, hrun, hen, hdone⟩
  rcases h with h | h | h | h
  · exact Bool.false_ne_true (h.symm.trans hruns)
  · exact hrun h
  · exact hen h
  · exact Bool.false_ne_true (hdone.symm.trans h)

/-- The increments of R491 as the rules write them. -/
theorem accIncrement_eq (kind : Nat) (e : Int) : accIncrement kind e =
    if kind = 0 then max e 0 else if kind = 1 then max (-e) 0 else if kind = 2 then e else (e.natAbs : Int) := by
  match kind with
  | 0 =>
    show (if 0 ≤ e then e else 0) = max e 0
    split <;> omega
  | 1 =>
    show (if e < 0 then -e else 0) = max (-e) 0
    split <;> omega
  | 2 => rfl
  | _ + 3 => rfl

/-- An accumulator takes its increment, in the words of the rules. -/
theorem AccTaken.of_rules {m k : Nat} {pq : Int × Int} {s t : State} (h : AccTaken m pq k s t) {gain low high : Int} (hgain : accGain m pq k s = gain)
    (hlow : accLow (accKind s (4 * m + k)) = low) (hhigh : accHigh (accKind s (4 * m + k)) = high) :
    if (accEn s (4 * m + k) && !accSat s (4 * m + k)) = true then
      (if (s.acc (4 * m + k) + gain) / 2 ^ 32 < low then
        t.acc (4 * m + k) = low * 2 ^ 32 ∧ accSat t (4 * m + k) = true ∧ t.bit (Fld.MTR_EVENTS_GUARD_OVF m) k = true
       else if high < (s.acc (4 * m + k) + gain) / 2 ^ 32 then
        t.acc (4 * m + k) = high * 2 ^ 32 ∧ accSat t (4 * m + k) = true ∧ t.bit (Fld.MTR_EVENTS_GUARD_OVF m) k = true
       else t.acc (4 * m + k) = s.acc (4 * m + k) + gain ∧ accSat t (4 * m + k) = false)
    else t.acc (4 * m + k) = s.acc (4 * m + k) ∧ accSat t (4 * m + k) = accSat s (4 * m + k) := by
  unfold AccTaken at h
  rw [hgain, hlow, hhigh, wholeOf] at h
  split
  · next hon =>
    rw [if_pos hon] at h
    split
    · next hl =>
      rw [if_pos hl] at h
      exact ⟨h.acc, h.sat, h.event⟩
    · next hl =>
      rw [if_neg hl] at h
      split
      · next hh =>
        rw [if_pos hh] at h
        exact ⟨h.acc, h.sat, h.event⟩
      · next hh =>
        rwa [if_neg hh] at h
  · next hoff =>
    rwa [if_neg hoff] at h

/-- What a sample leaves of an accumulator, whether it counts or not, in the words of the rules. -/
theorem SampleTaken.acc {m k : Nat} (hk : k < 4) {usable counts fills : Bool} {pq : Int × Int} {s t : State}
    (h : SampleTaken m usable counts fills pq s t) {gain low high : Int} (hgain : accGain m pq k s = gain)
    (hlow : accLow (accKind s (4 * m + k)) = low) (hhigh : accHigh (accKind s (4 * m + k)) = high) :
    if (accEn s (4 * m + k) && counts && !accSat s (4 * m + k)) = true then
      (if (s.acc (4 * m + k) + gain) / 2 ^ 32 < low then
        t.acc (4 * m + k) = low * 2 ^ 32 ∧ accSat t (4 * m + k) = true ∧ t.bit (Fld.MTR_EVENTS_GUARD_OVF m) k = true
       else if high < (s.acc (4 * m + k) + gain) / 2 ^ 32 then
        t.acc (4 * m + k) = high * 2 ^ 32 ∧ accSat t (4 * m + k) = true ∧ t.bit (Fld.MTR_EVENTS_GUARD_OVF m) k = true
       else t.acc (4 * m + k) = s.acc (4 * m + k) + gain ∧ accSat t (4 * m + k) = false)
    else t.acc (4 * m + k) = s.acc (4 * m + k) ∧ accSat t (4 * m + k) = accSat s (4 * m + k) := by
  have htaken := h.taken k hk
  cases counts with
  | true =>
    rw [if_pos rfl] at htaken
    rw [Bool.and_true]
    exact htaken.of_rules hgain hlow hhigh
  | false =>
    rw [if_neg Bool.false_ne_true] at htaken
    rw [Bool.and_false, Bool.false_and, if_neg Bool.false_ne_true]
    exact htaken

theorem meterSample_samples (s : State) (m : Fin 9) (hruns : meterRuns s = true) (hrun : s.rd Fld.SCHED_CFG_TICK_RUN = 1)
    (hen : s.rd (Fld.MTR_CFG_EN m) = 1) (hdone : (s.chan m).done = false) :
    let v := fun x => meterInput s m x
    let neg := fun x : Int => if s.rd (Fld.MTR_CFG_DIR m) = 1 then sat32 (-x) else x
    let mul := fun x y : Int => sat40 (roundDiv (x * y) (2 ^ 30))
    let p := sat40 (sat40 (mul (v 0) (v 3) + mul (v 1) (v 4)) + mul (v 2) (v 5))
    let q := sat40 (sat40 (mul (sat40 (v 1 - v 2)) (v 3) + mul (sat40 (v 2 - v 0)) (v 4)) + mul (sat40 (v 0 - v 1)) (v 5))
    let fresh := (neg (sat32 (sat40 (roundDiv (2 * p) 3))), neg (sat32 (sat40 (roundDiv (2 * q * 2 ^ 40) (3 * 1904410002820)))))
    let usable := sampleUsable s m
    let based := decide (s.rd (Fld.MTR_PBASE m) ≠ 0)
    let fills := !usable && (s.chan m).last.isSome && coresPowered s m && decide ((s.chan m).run < 16) && based
    let counts := (usable && based) || fills
    let pq := if usable then fresh else (s.chan m).last.getD (0, 0)
    let e := fun x : Int => roundDiv (x * s.rd (Fld.MTR_PBASE m) * 4) (180000 * ticksPerFrame s)
    let of := fun id => e (if accQty s id then pq.2 else pq.1)
    let inc := fun id => if accKind s id = 0 then max (of id) 0 else if accKind s id = 1 then max (-(of id)) 0 else if accKind s id = 2 then of id
      else ((of id).natAbs : Int)
    let idk := fun k => 4 * m.val + k
    let at' := fun k => (s.acc (idk k) + inc (idk k)) / 2 ^ 32
    let lo := fun id => if accKind s id = 2 then -(2 ^ 47 : Int) else 0
    let hi := fun id => if accKind s id = 2 then (2 ^ 47 - 1 : Int) else 2 ^ 48 - 1
    Does (.meterSample m) s fun t =>
      (t.chan m).done = true ∧ t.rdB (Fld.MTR_STATUS_ACTIVE m) = counts ∧ t.rdB (Fld.MTR_STATUS_HOLDING m) = fills ∧
      (usable = true → t.rdI (Fld.MTR_P m) = fresh.1 ∧ t.rdI (Fld.MTR_Q m) = fresh.2 ∧ (t.chan m).last = some fresh ∧ (t.chan m).run = 0) ∧
      (usable = false → t.reg (Reg.MTR_P m) = s.reg (Reg.MTR_P m) ∧ t.reg (Reg.MTR_Q m) = s.reg (Reg.MTR_Q m) ∧ (t.chan m).last = (s.chan m).last) ∧
      (t.chan m).nsamp = (s.chan m).nsamp + (if counts then 1 else 0) ∧ (t.chan m).filled = (s.chan m).filled + (if fills then 1 else 0) ∧
      (∀ k, k < 4 →
        if accEn s (idk k) && counts && !accSat s (idk k) then
          (if at' k < lo (idk k) then t.acc (idk k) = lo (idk k) * 2 ^ 32 ∧ accSat t (idk k) = true ∧ t.bit (Fld.MTR_EVENTS_GUARD_OVF m) k = true
           else if hi (idk k) < at' k then t.acc (idk k) = hi (idk k) * 2 ^ 32 ∧ accSat t (idk k) = true ∧ t.bit (Fld.MTR_EVENTS_GUARD_OVF m) k = true
           else t.acc (idk k) = s.acc (idk k) + inc (idk k) ∧ accSat t (idk k) = false)
        else t.acc (idk k) = s.acc (idk k) ∧ accSat t (idk k) = accSat s (idk k)) ∧
      (counts = false → hasBit (t.rd (Fld.MTR_STATUS_INV_NOW m)) 1 = true) ∧
      (∀ id, id < 80 → id / 4 ≠ m → t.acc id = s.acc id) ∧ (∀ n, n < 9 → n ≠ m.val → t.chan n = s.chan n) ∧
      t = { s with cycle := s.cycle + 1, regs := t.regs, log := t.log, perf := t.perf, out := t.out,
                   meter := { s.meter with chans := t.meter.chans, acc := t.meter.acc, outs := t.meter.outs } } ∧
      RegsKeptBut (fun a => [Reg.MTR_P m, Reg.MTR_Q m, Reg.MTR_STATUS m, Reg.MTR_EVENTS m, Reg.LOG_STATUS].contains a ||
        (List.range 8).any (fun j => decide (a = Reg.POUT_ST j) || decide (a = Reg.POUT_CNT j))) s t := by
  intro v neg mul p q fresh usable based fills counts pq e of inc idk at' lo hi
  have htaken := meterSample_taken (s := ticked s) m.isLt hrun
  have hguard : (meterRuns s && s.rdB Fld.SCHED_CFG_TICK_RUN && s.rdB (Fld.MTR_CFG_EN m.val) && !(s.chan m.val).done) = true := by
    simp [hruns, hrun, hen, hdone]
  have hpq : integratedPQ (ticked s) m = pq := rfl
  have hcounts : samplesCount (ticked s) m = counts := rfl
  have hfills : samplesFill (ticked s) m = fills := rfl
  have husable : sampleUsable (ticked s) m = usable := rfl
  have hgain (k : Nat) : accGain m pq k (ticked s) = inc (idk k) := accIncrement_eq _ _
  have hfresh : usable = true → pq = fresh := fun hu => if_pos hu
  rw [hpq, hcounts, hfills, husable] at htaken
  refine ⟨_, (exec_meterSample s m).trans (congrArg _ (if_pos hguard)), ?_⟩
  generalize meterSample m.val (ticked s) = t at *
  have hrest := htaken.frame.rest
  have hout : t.out = s.out := by rw [hrest]; rfl
  refine ⟨htaken.done, rdB_of_rd htaken.active, rdB_of_rd htaken.holding, fun hu => ?_, htaken.stale, ?_, ?_, fun k hk => ?_, htaken.reason,
    fun id _ hid => htaken.frame.accs id (fun he => hid (Fin.ext he)), fun n _ hn => htaken.frame.chans n hn, ?_, htaken.frame.regs⟩
  · rw [← hfresh hu]
    exact htaken.fresh hu
  · exact htaken.nsamp.trans (congrArg _ (by cases counts <;> rfl))
  · exact htaken.filled.trans (congrArg _ (by cases fills <;> rfl))
  · exact htaken.acc hk (hgain k) rfl rfl
  · rw [hout]
    exact hrest

end Sys2Proof.Machine
end
-- ==== Sys2Proof/Proofs/PulseIo.lean ====
section
/-! PROOFS. Proofs/PulseIo.lean: the pulse inputs and outputs (R497, R498, R501, R502; O41). -/
namespace Sys2Proof.Machine

/-! ### What a sample of a pulse input changes -/

/-- What a sample of pulse input `n` may change. -/
structure PinFrame (n : Nat) (s t : State) : Prop where
  rest : t = { s with regs := t.regs, log := t.log, meter := { s.meter with pins := t.meter.pins, acc := t.meter.acc } }
  regs : RegsKept [Reg.PIN_ST n, Reg.PIN_CNT n, Reg.LOG_STATUS] s t
  pins : ∀ i, i ≠ n → t.pin i = s.pin i
  accs : ∀ id, id ≠ 0x40 + n → t.acc id = s.acc id

section
variable {n : Nat} {r s t u : State}

theorem PinFrame.refl (n : Nat) (s : State) : PinFrame n s s := ⟨rfl, fun _ _ => rfl, fun _ _ => rfl, fun _ _ => rfl⟩

theorem PinFrame.trans (h : PinFrame n s t) (k : PinFrame n t u) : PinFrame n s u := by
  have hrest := k.rest
  rw [h.rest] at hrest
  exact ⟨hrest, fun a ha => (k.regs a ha).trans (h.regs a ha), fun i hi => (k.pins i hi).trans (h.pins i hi),
    fun i hi => (k.accs i hi).trans (h.accs i hi)⟩

theorem PinFrame.wr {f : FRef} {v : Nat} (h : PinFrame n r s) (hf : f.addr = Reg.PIN_ST n ∨ f.addr = Reg.PIN_CNT n) : PinFrame n r (s.wr f v) :=
  h.trans ⟨rfl, fun a ha => reg_wr_ne _ _ (fun he => ha (by rcases hf with hf | hf <;> simp [← he, hf])), fun _ _ => rfl, fun _ _ => rfl⟩

theorem PinFrame.logEv {source code datum : Nat} (h : PinFrame n r s) : PinFrame n r (s.logEv source code datum) := by
  have hspec := logEv_spec s source code datum
  have hreg (a : Nat) (ha : a ≠ Reg.LOG_STATUS) := reg_logEv s source code datum ha
  have hmeter := logEv_meter s source code datum
  generalize s.logEv source code datum = t at *
  refine h.trans ⟨?_, fun a ha => hreg a (fun he => ha (by simp [he])), fun i _ => ?_, fun i _ => ?_⟩
  · rw [hmeter]
    exact hspec
  · rw [State.pin, hmeter, State.pin]
  · rw [State.acc, hmeter, State.acc]

theorem PinFrame.setPin {q : PulseIn} (h : PinFrame n r s) : PinFrame n r (s.setPin n q) :=
  h.trans ⟨rfl, fun _ _ => rfl, fun _ hi => Tab.get_set_ne _ _ _ _ (Ne.symm hi), fun _ _ => rfl⟩

theorem PinFrame.setAcc {v : Int} (h : PinFrame n r s) : PinFrame n r (s.setAcc (0x40 + n) v) :=
  h.trans ⟨rfl, fun _ _ => rfl, fun _ _ => rfl, fun _ hi => Tab.get_set_ne _ _ _ _ (Ne.symm hi)⟩

theorem PinFrame.rd (h : PinFrame n s t) {f : FRef} (hf : f.addr ∉ [Reg.PIN_ST n, Reg.PIN_CNT n, Reg.LOG_STATUS]) : t.rd f = s.rd f :=
  rd_congr f (h.regs _ hf)

end

/-! ### The accumulator of a pulse input (R492, R498) -/

section
variable (n : Nat) (s : State)

theorem pinSat_eq : accSat s (0x40 + n) = s.rdB (Fld.PIN_ST_SAT n) := by
  rw [accSat, if_neg (by omega), Nat.add_sub_cancel_left]

theorem pinKind_eq : accKind s (0x40 + n) = 3 := by rw [accKind, if_neg (by omega)]

theorem pinGuard_eq (limit : Int) : guardOverflow (0x40 + n) limit s =
    (((s.setAcc (0x40 + n) (limit * 2 ^ 32)).wrB (Fld.PIN_ST_SAT n) true).logEv 0x19 0x0002 (0x40 + n)).wr (Fld.PIN_ST_GUARD_OVF n) 1 := by
  rw [guardOverflow, setSat, if_neg (by omega), if_neg (by omega), Nat.add_sub_cancel_left]

/-- The value that the accumulator of a pulse input takes for a sum (R492). -/
def pinSum (v : Int) : Int := if 2 ^ 80 ≤ v then (2 ^ 48 - 1) * 2 ^ 32 else if v < 0 then 0 else v

/-- What the accumulator of a pulse input takes of an increment. -/
structure PinAdded (inc : Int) (t : State) : Prop where
  frame : PinFrame n s t
  acc : t.acc (0x40 + n) = if accSat s (0x40 + n) = true then s.acc (0x40 + n) else pinSum (s.acc (0x40 + n) + inc)
  pin : t.pin n = s.pin n
  level : t.rd (Fld.PIN_ST_LEVEL n) = s.rd (Fld.PIN_ST_LEVEL n)
  count : t.reg (Reg.PIN_CNT n) = s.reg (Reg.PIN_CNT n)

variable {n s}

theorem pinGuard_added {inc limit : Int} (hsat : accSat s (0x40 + n) = false) (hlimit : pinSum (s.acc (0x40 + n) + inc) = limit * 2 ^ 32) :
    PinAdded n s inc (guardOverflow (0x40 + n) limit s) := by
  rw [pinGuard_eq]
  refine ⟨?_, ?_, ?_, ?_, ?_⟩
  · exact ((((PinFrame.refl n s).setAcc).wr (.inl rfl)).logEv).wr (.inl rfl)
  · rw [if_neg (by simp [hsat]), hlimit]
    show State.acc (State.logEv _ _ _ _) _ = _
    rw [State.acc, logEv_meter]
    exact Tab.get_set_same _ _ _ _
  · show State.pin (State.logEv _ _ _ _) _ = _
    rw [State.pin, logEv_meter]
    rfl
  · rw [rd_wr_apart _ _ _ _ (by simp [FRef.ok]) (by simp [FRef.ok]) (by simp [FRef.apart]),
      rd_logEv _ _ _ _ _ (by simp only [Reg.PIN_ST, Reg.LOG_STATUS]; omega), wrB_eq,
      rd_wr_apart _ _ _ _ (by simp [FRef.ok]) (by simp [FRef.ok]) (by simp [FRef.apart])]
    rfl
  · rw [reg_wr_ne _ _ (by simp), reg_logEv _ _ _ _ (by simp only [Reg.PIN_CNT, Reg.LOG_STATUS]; omega), wrB_eq, reg_wr_ne _ _ (by simp)]
    rfl

theorem accAdd_pin (n : Nat) (inc : Int) (s : State) : PinAdded n s inc (accAdd (0x40 + n) inc s) := by
  unfold accAdd
  by_cases hsat : accSat s (0x40 + n) = true
  · rw [if_pos hsat]
    exact ⟨.refl n s, (if_pos hsat).symm, rfl, rfl, rfl⟩
  · have hclear : accSat s (0x40 + n) = false := by simpa using hsat
    have hlow : accLow 3 = 0 := rfl
    have hhigh : accHigh 3 = 2 ^ 48 - 1 := rfl
    have hwhole : wholeOf (s.acc (0x40 + n) + inc) = (s.acc (0x40 + n) + inc) / 2 ^ 32 := rfl
    rw [if_neg hsat, pinKind_eq]
    dsimp only
    rw [hlow, hhigh]
    by_cases hneg : wholeOf (s.acc (0x40 + n) + inc) < 0
    · rw [if_pos hneg]
      exact pinGuard_added hclear (by rw [pinSum, if_neg (by omega), if_pos (by omega)]; rfl)
    · rw [if_neg hneg]
      by_cases hover : 2 ^ 48 - 1 < wholeOf (s.acc (0x40 + n) + inc)
      · rw [if_pos hover]
        exact pinGuard_added hclear (by rw [pinSum, if_pos (by omega)])
      · rw [if_neg hover]
        refine ⟨(PinFrame.refl n s).setAcc, ?_, rfl, rfl, rfl⟩
        rw [if_neg hsat, pinSum, if_neg (by omega), if_neg (by omega)]
        exact Tab.get_set_same _ _ _ _

end

/-! ### One sample of a pulse input (R497) -/

section
variable (n : Nat) (high : Bool) (s : State)

/-- The samples in a row that an accepted level takes. -/
def pinNeed : Nat := max 1 (s.rd (Fld.PIN_CFG_DEBOUNCE n)) * 10

/-- The samples in a row that have shown the level of this one. -/
def pinRun : Nat := if high = (s.pin n).raw then min (pinNeed n s) ((s.pin n).run + 1) else 1

/-- The sample completes a pulse. -/
def pinPulses : Bool := decide (pinRun n high s = pinNeed n s) && !high && !s.rdB (Fld.PIN_ST_LEVEL n) && (s.pin n).known

/-- The weight of a pulse (R498). -/
def pinWeight : Int := (if s.rd (Fld.PIN_CFG_UNIT n) = 2 then 1 else (s.rd (Fld.PIN_WT n) : Int)) * 2 ^ 32

/-- A short low level that ends unaccepted counts as rejected. -/
def pinRejected : State :=
  if high && !(s.pin n).raw && decide ((s.pin n).run < pinNeed n s) && !s.rdB (Fld.PIN_ST_LEVEL n) then s.inc (Fld.PIN_CNT_REJ n) else s

/-- The run of the input is noted. -/
def pinNoted : State :=
  (pinRejected n high s).setPin n { s.pin n with raw := high, run := pinRun n high s, known := (s.pin n).known || decide (pinRun n high s = pinNeed n s) }

theorem pinLevel_eq : pinLevel n high s =
    if pinRun n high s < pinNeed n s ∨ s.rdB (Fld.PIN_ST_LEVEL n) = !high then pinNoted n high s
    else if !high && (s.pin n).known then pinPulse n ((pinNoted n high s).wrB (Fld.PIN_ST_LEVEL n) (!high))
    else (pinNoted n high s).wrB (Fld.PIN_ST_LEVEL n) (!high) := rfl

/-- What one sample of pulse input `n` does. -/
structure PinTaken (t : State) : Prop where
  raw : (t.pin n).raw = high
  run : (t.pin n).run = pinRun n high s
  known : (t.pin n).known = ((s.pin n).known || decide (pinRun n high s = pinNeed n s))
  level : t.rdB (Fld.PIN_ST_LEVEL n) = (if pinRun n high s = pinNeed n s then !high else s.rdB (Fld.PIN_ST_LEVEL n))
  count : t.rd (Fld.PIN_CNT_PULSES n) =
    (if pinPulses n high s = true then min (s.rd (Fld.PIN_CNT_PULSES n) + 1) 0xFFFF else s.rd (Fld.PIN_CNT_PULSES n))
  acc : t.acc (0x40 + n) = (if (pinPulses n high s && !accSat s (0x40 + n)) = true then pinSum (s.acc (0x40 + n) + pinWeight n s) else s.acc (0x40 + n))

variable {n high s}

theorem pinRun_le : pinRun n high s ≤ pinNeed n s := by
  unfold pinRun
  split
  · exact Nat.min_le_left _ _
  · unfold pinNeed
    omega

theorem pinRejected_frame : PinFrame n s (pinRejected n high s) := by
  unfold pinRejected
  split
  · exact (PinFrame.refl n s).wr (.inr rfl)
  · exact .refl n s

/-- What the noting of a run keeps. -/
structure PinNoted (n : Nat) (s t : State) : Prop where
  frame : PinFrame n s t
  status : t.reg (Reg.PIN_ST n) = s.reg (Reg.PIN_ST n)
  count : t.rd (Fld.PIN_CNT_PULSES n) = s.rd (Fld.PIN_CNT_PULSES n)
  acc : t.acc (0x40 + n) = s.acc (0x40 + n)

theorem pinNoted_noted : PinNoted n s (pinNoted n high s) := by
  refine ⟨pinRejected_frame.setPin, ?_, ?_, ?_⟩
  · show (pinRejected n high s).reg _ = _
    unfold pinRejected
    split
    · exact reg_wr_ne _ _ (by simp)
    · rfl
  · show (pinRejected n high s).rd _ = _
    unfold pinRejected
    split
    · exact rd_wr_apart _ _ _ _ (by simp [FRef.ok]) (by simp [FRef.ok]) (by simp [FRef.apart])
    · rfl
  · show (pinRejected n high s).acc _ = _
    unfold pinRejected
    split <;> rfl

theorem pinNoted_pin : (pinNoted n high s).pin n =
    { s.pin n with raw := high, run := pinRun n high s, known := (s.pin n).known || decide (pinRun n high s = pinNeed n s) } :=
  Tab.get_set_same restPin (pinRejected n high s).meter.pins n _

theorem rd_wrB_same (s : State) {f : FRef} (h : f.ok) {b : Bool} : (s.wrB f b).rd f = b.toNat := by
  have hw : 1 ≤ f.width := by simp only [FRef.width]; omega
  rw [wrB_eq, rd_wr_same _ _ _ h]
  refine Nat.mod_eq_of_lt (Nat.lt_of_le_of_lt (Bool.toNat_le b) ?_)
  exact Nat.one_lt_two_pow (by omega)

/-- A pulse of input `n` counts, and its accumulator takes its weight (R498). -/
theorem pinPulse_added {v : State} (hframe : PinFrame n s v) (hcount : v.rd (Fld.PIN_CNT_PULSES n) = s.rd (Fld.PIN_CNT_PULSES n))
    (hacc : v.acc (0x40 + n) = s.acc (0x40 + n)) (hsat : accSat v (0x40 + n) = accSat s (0x40 + n)) :
    PinFrame n s (pinPulse n v) ∧ (pinPulse n v).rd (Fld.PIN_CNT_PULSES n) = min (s.rd (Fld.PIN_CNT_PULSES n) + 1) 0xFFFF ∧
    (pinPulse n v).acc (0x40 + n) = (if accSat s (0x40 + n) = true then s.acc (0x40 + n) else pinSum (s.acc (0x40 + n) + pinWeight n s)) ∧
    (pinPulse n v).pin n = v.pin n ∧ (pinPulse n v).rd (Fld.PIN_ST_LEVEL n) = v.rd (Fld.PIN_ST_LEVEL n) := by
  have hunit : v.rd (Fld.PIN_CFG_UNIT n) = s.rd (Fld.PIN_CFG_UNIT n) :=
    hframe.rd (by simp [Reg.PIN_CFG, Reg.PIN_ST, Reg.PIN_CNT, Reg.LOG_STATUS]; omega)
  have hwt : v.rd (Fld.PIN_WT n) = s.rd (Fld.PIN_WT n) := hframe.rd (by simp [Reg.PIN_WT, Reg.PIN_ST, Reg.PIN_CNT, Reg.LOG_STATUS]; omega)
  have hweight : pinPulse n v = accAdd (0x40 + n) (pinWeight n s) (v.inc (Fld.PIN_CNT_PULSES n)) := by
    rw [pinPulse, hunit, hwt]
    rfl
  have hinc : (v.inc (Fld.PIN_CNT_PULSES n)).rd (Fld.PIN_CNT_PULSES n) = min (s.rd (Fld.PIN_CNT_PULSES n) + 1) 0xFFFF := by
    rw [rd_inc_same _ (by simp [FRef.ok]), hcount]
    rfl
  have hst : (v.inc (Fld.PIN_CNT_PULSES n)).reg (Reg.PIN_ST n) = v.reg (Reg.PIN_ST n) := reg_wr_ne _ _ (by simp)
  have hsati : accSat (v.inc (Fld.PIN_CNT_PULSES n)) (0x40 + n) = accSat s (0x40 + n) := by
    rw [pinSat_eq, rdB_congr _ hst, ← pinSat_eq, hsat]
  have hacci : (v.inc (Fld.PIN_CNT_PULSES n)).acc (0x40 + n) = s.acc (0x40 + n) := hacc
  have hpini : (v.inc (Fld.PIN_CNT_PULSES n)).pin n = v.pin n := rfl
  have hframei : PinFrame n s (v.inc (Fld.PIN_CNT_PULSES n)) := hframe.wr (.inr rfl)
  have hadded := accAdd_pin n (pinWeight n s) (v.inc (Fld.PIN_CNT_PULSES n))
  rw [hweight]
  generalize v.inc (Fld.PIN_CNT_PULSES n) = w at *
  refine ⟨hframei.trans hadded.frame, (rd_congr _ hadded.count).trans hinc, ?_, hadded.pin.trans hpini, hadded.level.trans (rd_congr _ hst)⟩
  rw [hadded.acc, hsati, hacci]

theorem pinLevel_taken : PinTaken n high s (pinLevel n high s) ∧ PinFrame n s (pinLevel n high s) := by
  have hle := pinRun_le (n := n) (high := high) (s := s)
  have hn := pinNoted_noted (n := n) (high := high) (s := s)
  have hpin := pinNoted_pin (n := n) (high := high) (s := s)
  have hlevel : (pinNoted n high s).rdB (Fld.PIN_ST_LEVEL n) = s.rdB (Fld.PIN_ST_LEVEL n) := rdB_congr _ hn.status
  rw [pinLevel_eq]
  generalize pinNoted n high s = u at *
  by_cases hsame : pinRun n high s < pinNeed n s ∨ s.rdB (Fld.PIN_ST_LEVEL n) = !high
  · have hpulse : pinPulses n high s = false := by
      rcases hsame with hlt | hl
      · simp [pinPulses, Nat.ne_of_lt hlt]
      · rw [pinPulses, hl]
        cases high <;> simp
    rw [if_pos hsame]
    refine ⟨⟨by rw [hpin], by rw [hpin], by rw [hpin], ?_, by rw [hpulse]; exact hn.count, by rw [hpulse]; exact hn.acc⟩, hn.frame⟩
    rw [hlevel]
    split
    · next he =>
      rcases hsame with hlt | hl
      · omega
      · exact hl
    · rfl
  · obtain ⟨hfull, hopen⟩ := not_or.mp hsame
    have heq : pinRun n high s = pinNeed n s := by omega
    have hlevelu : s.rdB (Fld.PIN_ST_LEVEL n) = high := by cases high <;> cases hb : s.rdB (Fld.PIN_ST_LEVEL n) <;> simp_all
    have hl : (u.wrB (Fld.PIN_ST_LEVEL n) (!high)).rd (Fld.PIN_ST_LEVEL n) = (!high).toNat := rd_wrB_same _ (by simp [FRef.ok])
    have hframe : PinFrame n s (u.wrB (Fld.PIN_ST_LEVEL n) (!high)) := hn.frame.wr (.inl rfl)
    have hcount : (u.wrB (Fld.PIN_ST_LEVEL n) (!high)).rd (Fld.PIN_CNT_PULSES n) = s.rd (Fld.PIN_CNT_PULSES n) := (rd_wr_ne _ _ _ _ (by simp)).trans hn.count
    have hsat : accSat (u.wrB (Fld.PIN_ST_LEVEL n) (!high)) (0x40 + n) = accSat s (0x40 + n) := by
      rw [pinSat_eq, pinSat_eq, rdB_eq, rdB_eq, wrB_eq, rd_wr_apart _ _ _ _ (by simp [FRef.ok]) (by simp [FRef.ok]) (by simp [FRef.apart]),
        rd_congr _ hn.status]
    have hacc : (u.wrB (Fld.PIN_ST_LEVEL n) (!high)).acc (0x40 + n) = s.acc (0x40 + n) := hn.acc
    have hpinv : (u.wrB (Fld.PIN_ST_LEVEL n) (!high)).pin n = u.pin n := rfl
    rw [if_neg hsame]
    generalize u.wrB (Fld.PIN_ST_LEVEL n) (!high) = v at *
    have hpulse : pinPulses n high s = (!high && (s.pin n).known) := by
      rw [pinPulses, heq, hlevelu]
      cases high <;> simp
    by_cases hp : (!high && (s.pin n).known) = true
    · obtain ⟨hframep, hcountp, haccp, hpinp, hlevelp⟩ := pinPulse_added hframe hcount hacc hsat
      have hyes : pinPulses n high s = true := hpulse.trans hp
      rw [if_pos hp]
      generalize pinPulse n v = w at *
      refine ⟨⟨by rw [hpinp, hpinv, hpin], by rw [hpinp, hpinv, hpin], by rw [hpinp, hpinv, hpin], ?_, by rw [if_pos hyes]; exact hcountp, ?_⟩, hframep⟩
      · rw [if_pos heq]
        exact rdB_of_rd (hlevelp.trans hl)
      · rw [hyes, Bool.true_and, haccp]
        cases accSat s (0x40 + n) <;> rfl
    · rw [if_neg hp]
      have hnone : pinPulses n high s = false := by rw [hpulse]; simpa using hp
      refine ⟨⟨by rw [hpinv, hpin], by rw [hpinv, hpin], by rw [hpinv, hpin], ?_, by rw [hnone]; exact hcount, by rw [hnone]; exact hacc⟩, hframe⟩
      rw [if_pos heq]
      exact rdB_of_rd hl

theorem pinSample_taken : PinTaken n high s (pinSample n high s) ∧ PinFrame n s (pinSample n high s) := by
  obtain ⟨h, hframe⟩ := pinLevel_taken (n := n) (high := high) (s := s)
  unfold pinSample
  generalize pinLevel n high s = u at *
  dsimp only
  split
  · have hpin : (pinReason n 0x01 u).pin n = { u.pin n with inv := (u.pin n).inv ||| 0x01 } := Tab.get_set_same restPin u.meter.pins n _
    exact ⟨⟨by rw [hpin]; exact h.raw, by rw [hpin]; exact h.run, by rw [hpin]; exact h.known, h.level, h.count, h.acc⟩, hframe.setPin⟩
  · exact ⟨h, hframe⟩

end

/-! ### PULSE_SAMPLE -/

/-- What the sample of another input leaves of pulse input `n`. -/
structure PinKept (n : Nat) (s t : State) : Prop where
  cfg : t.reg (Reg.PIN_CFG n) = s.reg (Reg.PIN_CFG n)
  weight : t.reg (Reg.PIN_WT n) = s.reg (Reg.PIN_WT n)
  status : t.reg (Reg.PIN_ST n) = s.reg (Reg.PIN_ST n)
  count : t.reg (Reg.PIN_CNT n) = s.reg (Reg.PIN_CNT n)
  pin : t.pin n = s.pin n
  acc : t.acc (0x40 + n) = s.acc (0x40 + n)

section
variable {n : Nat} {high : Bool} {s t u : State}

theorem PinKept.refl (n : Nat) (s : State) : PinKept n s s := ⟨rfl, rfl, rfl, rfl, rfl, rfl⟩

theorem PinKept.trans (h : PinKept n s t) (k : PinKept n t u) : PinKept n s u :=
  ⟨k.cfg.trans h.cfg, k.weight.trans h.weight, k.status.trans h.status, k.count.trans h.count, k.pin.trans h.pin, k.acc.trans h.acc⟩

theorem PinFrame.kept {i : Nat} (h : PinFrame n s t) (hne : i ≠ n) : PinKept i s t where
  cfg := h.regs _ (by simp [Reg.PIN_CFG, Reg.PIN_ST, Reg.PIN_CNT, Reg.LOG_STATUS]; omega)
  weight := h.regs _ (by simp [Reg.PIN_WT, Reg.PIN_ST, Reg.PIN_CNT, Reg.LOG_STATUS]; omega)
  status := h.regs _ (by simp [Reg.PIN_ST, Reg.PIN_CNT, Reg.LOG_STATUS]; omega)
  count := h.regs _ (by simp [Reg.PIN_ST, Reg.PIN_CNT, Reg.LOG_STATUS]; omega)
  pin := h.pins i hne
  acc := h.accs _ (by omega)

theorem PinKept.need (h : PinKept n s t) : pinNeed n t = pinNeed n s := by rw [pinNeed, rd_congr (Fld.PIN_CFG_DEBOUNCE n) h.cfg, pinNeed]

theorem PinKept.run (h : PinKept n s t) : pinRun n high t = pinRun n high s := by rw [pinRun, h.pin, h.need, pinRun]

theorem PinKept.level (h : PinKept n s t) : t.rdB (Fld.PIN_ST_LEVEL n) = s.rdB (Fld.PIN_ST_LEVEL n) := rdB_congr _ h.status

theorem PinKept.pulses (h : PinKept n s t) : pinPulses n high t = pinPulses n high s := by rw [pinPulses, h.run, h.need, h.level, h.pin, pinPulses]

theorem PinKept.sum (h : PinKept n s t) : pinWeight n t = pinWeight n s := by
  rw [pinWeight, rd_congr (Fld.PIN_CFG_UNIT n) h.cfg, rd_congr (Fld.PIN_WT n) h.weight, pinWeight]

theorem PinKept.sat (h : PinKept n s t) : accSat t (0x40 + n) = accSat s (0x40 + n) := by rw [pinSat_eq, rdB_congr _ h.status, pinSat_eq]

theorem PinTaken.from (h : PinTaken n high t u) (k : PinKept n s t) : PinTaken n high s u where
  raw := h.raw
  run := by rw [h.run, k.run]
  known := by rw [h.known, k.pin, k.run, k.need]
  level := by rw [h.level, k.run, k.need, k.level]
  count := by rw [h.count, k.pulses, rd_congr (Fld.PIN_CNT_PULSES n) k.count]
  acc := by rw [h.acc, k.pulses, k.sat, k.acc, k.sum]

theorem PinTaken.upTo (h : PinTaken n high s t) (k : PinKept n t u) : PinTaken n high s u where
  raw := by rw [k.pin, h.raw]
  run := by rw [k.pin, h.run]
  known := by rw [k.pin, h.known]
  level := by rw [k.level, h.level]
  count := by rw [rd_congr (Fld.PIN_CNT_PULSES n) k.count, h.count]
  acc := by rw [k.acc, h.acc]

end

section
variable (levels : BitVec 16) (s : State)

/-- Every used input has been sampled. -/
def pinsSampled : State := forEach (pinsOn s) (fun n => pinSample n (levels.getLsbD n)) s

theorem mem_pinsOn {n : Nat} : n ∈ pinsOn s ↔ n < 16 ∧ s.rd (Fld.PIN_CFG_EN n) ≠ 0 := by
  simp only [pinsOn, pulseIns, List.mem_filter, List.mem_range, rdB_eq, decide_eq_true_eq]

theorem pinsSampled_pins : (∀ n ∈ pinsOn s, PinTaken n (levels.getLsbD n) s (pinsSampled levels s)) ∧
    ∀ n, n < 16 → n ∉ pinsOn s → PinKept n s (pinsSampled levels s) :=
  forEach_settles (f := fun n => pinSample n (levels.getLsbD n)) (R := fun n => PinTaken n (levels.getLsbD n)) (K := PinKept) (n := 16)
    (List.nodup_range.filter _) (fun _ hn => ((mem_pinsOn s).mp hn).1) PinKept.refl (fun _ _ _ _ h k => h.trans k) (fun _ _ _ _ h hr => hr.from h)
    (fun _ _ _ _ hr h => hr.upTo h) (fun _ _ _ => pinSample_taken.1) (fun _ _ _ _ hne _ => pinSample_taken.2.kept hne) s

/-- What the sampling of the inputs may change. -/
structure PinsFrame (s t : State) : Prop where
  rest : t = { s with regs := t.regs, log := t.log, meter := { s.meter with pins := t.meter.pins, acc := t.meter.acc } }
  regs : RegsKeptBut (fun a => decide (a = Reg.LOG_STATUS) || inArray (Reg.PIN_ST 0) 0x20 16 a || inArray (Reg.PIN_CNT 0) 0x20 16 a) s t

variable {s} in
theorem PinFrame.all {n : Nat} (hn : n < 16) {t u : State} (h : PinsFrame s t) (k : PinFrame n t u) : PinsFrame s u := by
  have hrest := k.rest
  rw [h.rest] at hrest
  refine ⟨hrest, fun a ha => (k.regs a (fun hmem => ?_)).trans (h.regs a ha)⟩
  rw [Bool.or_eq_false_iff, Bool.or_eq_false_iff, decide_eq_false_iff_not] at ha
  obtain ⟨⟨hlog, hst⟩, hcnt⟩ := ha
  simp only [List.mem_cons, List.not_mem_nil, or_false] at hmem
  rcases hmem with rfl | rfl | rfl
  · exact Bool.false_ne_true (hst.symm.trans (inArray_at (Reg.PIN_ST 0) 0x20 16 n (by decide) hn))
  · exact Bool.false_ne_true (hcnt.symm.trans (inArray_at (Reg.PIN_CNT 0) 0x20 16 n (by decide) hn))
  · exact hlog rfl

theorem pinsSampled_frame : PinsFrame s (pinsSampled levels s) :=
  forEach_preserves (P := PinsFrame s) (fun _ hn _ h => pinSample_taken.2.all ((mem_pinsOn s).mp hn).1 h) ⟨rfl, fun _ _ => rfl⟩

end

theorem exec_pulseSample (levels : BitVec 16) (s : State) : exec (.pulseSample levels) s = .next
    (if !(meterRuns s) || decide (s.fn % 5 ≠ 0) then ticked s else if bankBad s 5 then pinsForget (ticked s) else pinsSampled levels (ticked s)) := rfl

theorem pulseSample_samples (s : State) (levels : BitVec 16) (hruns : meterRuns s = true) (hfn : s.fn % 5 = 0) (hbank : bankBad s 5 = false) :
    let high := fun n => levels.getLsbD n
    let need := fun n => max 1 (s.rd (Fld.PIN_CFG_DEBOUNCE n)) * 10
    let run := fun n => if high n = (s.pin n).raw then min (need n) ((s.pin n).run + 1) else 1
    let pulse := fun n => decide (run n = need n) && !high n && !s.rdB (Fld.PIN_ST_LEVEL n) && (s.pin n).known
    let sum := fun n => s.acc (0x40 + n) + (if s.rd (Fld.PIN_CFG_UNIT n) = 2 then 1 else (s.rd (Fld.PIN_WT n) : Int)) * 2 ^ 32
    Does (.pulseSample levels) s fun t =>
      (∀ n, n < 16 → s.rd (Fld.PIN_CFG_EN n) = 1 →
        (t.pin n).raw = high n ∧ (t.pin n).run = run n ∧ (t.pin n).known = ((s.pin n).known || decide (run n = need n)) ∧
        t.rdB (Fld.PIN_ST_LEVEL n) = (if run n = need n then !high n else s.rdB (Fld.PIN_ST_LEVEL n)) ∧
        t.rd (Fld.PIN_CNT_PULSES n) = (if pulse n then min (s.rd (Fld.PIN_CNT_PULSES n) + 1) 0xFFFF else s.rd (Fld.PIN_CNT_PULSES n)) ∧
        t.acc (0x40 + n) = (if pulse n && !accSat s (0x40 + n) then
          (if 2 ^ 80 ≤ sum n then (2 ^ 48 - 1) * 2 ^ 32 else if sum n < 0 then 0 else sum n) else s.acc (0x40 + n))) ∧
      (∀ n, n < 16 → s.rd (Fld.PIN_CFG_EN n) = 0 → t.pin n = s.pin n ∧ t.acc (0x40 + n) = s.acc (0x40 + n)) ∧
      t = { s with cycle := s.cycle + 1, regs := t.regs, log := t.log, meter := { s.meter with pins := t.meter.pins, acc := t.meter.acc } } ∧
      RegsKeptBut (fun a => decide (a = Reg.LOG_STATUS) || inArray (Reg.PIN_ST 0) 0x20 16 a || inArray (Reg.PIN_CNT 0) 0x20 16 a) s t := by
  intro high need run pulse sum
  refine ⟨pinsSampled levels (ticked s), (exec_pulseSample levels s).trans (congrArg _ ?_), ?_⟩
  · rw [if_neg (by simp [hruns, hfn]), if_neg (by simp [hbank])]
  · obtain ⟨hin, hout⟩ := pinsSampled_pins levels (ticked s)
    have hframe := pinsSampled_frame levels (ticked s)
    generalize pinsSampled levels (ticked s) = t at *
    refine ⟨fun n hn hen => ?_, fun n hn hen => ?_, hframe.rest, hframe.regs⟩
    · have h := hin n ((mem_pinsOn (ticked s)).mpr ⟨hn, hen.trans_ne Nat.one_ne_zero⟩)
      exact ⟨h.raw, h.run, h.known, h.level, h.count, h.acc⟩
    · have h := hout n hn (fun hmem => ((mem_pinsOn (ticked s)).mp hmem).2 hen)
      exact ⟨h.pin, h.acc⟩

/-- With bank 5 bad no level of an input counts as accepted (R497). -/
theorem pinsForget_pins (s : State) :
    (∀ n, n < 16 → (pinsForget s).pin n = { s.pin n with raw := true, run := 0, known := false }) ∧
      pinsForget s = { s with meter := { s.meter with pins := (pinsForget s).meter.pins } } := by
  constructor
  · intro n hn
    refine (forEach_settles (f := fun n s => s.setPin n { s.pin n with raw := true, run := 0, known := false })
      (R := fun n s t => t.pin n = { s.pin n with raw := true, run := 0, known := false }) (K := fun n s t => t.pin n = s.pin n) (n := 16) (l := pulseIns)
      List.nodup_range (fun _ => List.mem_range.mp) (fun _ _ => rfl) (fun _ _ _ _ h k => k.trans h) (fun _ _ _ _ h hr => by rw [hr, h])
      (fun _ _ _ _ hr h => h.trans hr) (fun i _ s => Tab.get_set_same restPin s.meter.pins i _)
      (fun _ _ _ _ hne s => Tab.get_set_ne restPin restPin s.meter.pins _ (Ne.symm hne)) s).1 n (List.mem_range.mpr hn)
  · refine forEach_preserves (P := fun t => t = { s with meter := { s.meter with pins := t.meter.pins } }) (fun n _ t ht => ?_) rfl
    rw [ht]
    rfl

theorem pulseSample_forgets (s : State) (levels : BitVec 16) (hruns : meterRuns s = true) (hfn : s.fn % 5 = 0) (hbank : bankBad s 5 = true) :
    Does (.pulseSample levels) s fun t => (∀ n, n < 16 → t.pin n = { s.pin n with raw := true, run := 0, known := false }) ∧
      t = { s with cycle := s.cycle + 1, meter := { s.meter with pins := t.meter.pins } } := by
  refine ⟨pinsForget (ticked s), (exec_pulseSample levels s).trans (congrArg _ ?_), pinsForget_pins (ticked s)⟩
  rw [if_neg (by simp [hruns, hfn]), if_pos hbank]

/-! ### The pulse outputs (R501, R502) -/

theorem pout_setPout_same (s : State) (j : Nat) (q : PulseOut) : (s.setPout j q).pout j = q := Tab.get_set_same _ _ _ _

theorem pout_setPout_ne (s : State) {h j : Nat} (q : PulseOut) (hne : h ≠ j) : (s.setPout j q).pout h = s.pout h := Tab.get_set_ne _ _ _ _ (Ne.symm hne)

/-- A pulse of output `j` has begun. -/
def pulseBegun (j : Nat) (s : State) : State :=
  (((s.setPout j { s.pout j with phase := some (true, poutFrames s j) }).wr (Fld.POUT_ST_PENDING j) (s.rd (Fld.POUT_ST_PENDING j) - 1)).wr
    (Fld.POUT_ST_ACTIVE j) 1).inc (Fld.POUT_CNT_PULSES j)

/-- A pulse that no one sees is lost (R502). -/
def pulseLost (j : Nat) (s : State) : State := if bankBad s 5 then s.inc (Fld.POUT_CNT_LOST j) else s

theorem exec_poutPulse (s : State) (j : Fin 8) : exec (.poutPulse j) s = .next
    (if meterRuns s && poutOn s j.val && (s.pout j.val).phase.isNone && decide (s.rd (Fld.POUT_ST_PENDING j.val) ≠ 0) && s.rdB Fld.SCHED_CFG_TICK_RUN then
      pulseLost j.val (pulseBegun j.val (ticked s))
    else ticked s) := rfl

section
variable {j : Nat} {s : State}

theorem pulseBegun_pending : (pulseBegun j s).rd (Fld.POUT_ST_PENDING j) = s.rd (Fld.POUT_ST_PENDING j) - 1 := by
  have hlt : s.rd (Fld.POUT_ST_PENDING j) < 256 := rd_lt s (Fld.POUT_ST_PENDING j) (by simp [FRef.ok])
  rw [pulseBegun, inc_eq, rd_wr_ne _ _ _ _ (by simp), rd_wr_apart _ _ _ _ (by simp [FRef.ok]) (by simp [FRef.ok]) (by simp [FRef.apart]),
    rd_wr_same _ _ _ (by simp [FRef.ok])]
  exact Nat.mod_eq_of_lt (by show _ < 256; omega)

theorem pulseBegun_active : (pulseBegun j s).rd (Fld.POUT_ST_ACTIVE j) = 1 := by
  rw [pulseBegun, inc_eq, rd_wr_ne _ _ _ _ (by simp), rd_wr_same _ _ _ (by simp [FRef.ok])]
  rfl

theorem pulseBegun_count (f : FRef) (hf : f.addr = Reg.POUT_CNT j) :
    (((s.setPout j { s.pout j with phase := some (true, poutFrames s j) }).wr (Fld.POUT_ST_PENDING j) (s.rd (Fld.POUT_ST_PENDING j) - 1)).wr
      (Fld.POUT_ST_ACTIVE j) 1).rd f = s.rd f := by
  have hne : Reg.POUT_ST j ≠ f.addr := by rw [hf]; simp
  rw [rd_wr_ne _ _ _ _ hne, rd_wr_ne _ _ _ _ hne]
  rfl

theorem pulseBegun_pulses : (pulseBegun j s).rd (Fld.POUT_CNT_PULSES j) = min (s.rd (Fld.POUT_CNT_PULSES j) + 1) 0xFFFF := by
  rw [pulseBegun, rd_inc_same _ (by simp [FRef.ok]), pulseBegun_count _ rfl]
  rfl

theorem pulseBegun_lost : (pulseBegun j s).rd (Fld.POUT_CNT_LOST j) = s.rd (Fld.POUT_CNT_LOST j) := by
  rw [pulseBegun, inc_eq, rd_wr_apart _ _ _ _ (by simp [FRef.ok]) (by simp [FRef.ok]) (by simp [FRef.apart]), pulseBegun_count _ rfl]

theorem pulseBegun_regs : RegsKept [Reg.POUT_ST j, Reg.POUT_CNT j] s (pulseBegun j s) := by
  have h : RegsKept [Reg.POUT_ST j, Reg.POUT_CNT j] s (s.setPout j { s.pout j with phase := some (true, poutFrames s j) }) := fun _ _ => rfl
  exact ((h.wr (f := Fld.POUT_ST_PENDING j) (by simp)).wr (f := Fld.POUT_ST_ACTIVE j) (by simp)).wr (f := Fld.POUT_CNT_PULSES j) (by simp)

theorem pulseBegun_pout : (pulseBegun j s).pout j = { s.pout j with phase := some (true, poutFrames s j) } := pout_setPout_same s j _

theorem pulseBegun_others {h : Nat} (hne : h ≠ j) : (pulseBegun j s).pout h = s.pout h := pout_setPout_ne s _ hne

theorem pulseBegun_rest : pulseBegun j s = { s with regs := (pulseBegun j s).regs, meter := { s.meter with outs := (pulseBegun j s).meter.outs } } := rfl

theorem pulseBegun_bank : bankBad (pulseBegun j s) 5 = bankBad s 5 := by
  have hbank : (pulseBegun j s).reg Reg.IO_BANK_STATUS = s.reg Reg.IO_BANK_STATUS :=
    pulseBegun_regs _ (by simp [Reg.IO_BANK_STATUS, Reg.POUT_ST, Reg.POUT_CNT]; omega)
  rw [bankBad, bit_congr Fld.IO_BANK_STATUS_PRESENT _ hbank, bit_congr Fld.IO_BANK_STATUS_MISMATCH _ hbank, bankBad]

/-- What the loss of a pulse shows. -/
theorem pulseLost_shows (s : State) :
    (pulseLost j s).rd (Fld.POUT_CNT_LOST j) = (if bankBad s 5 then min (s.rd (Fld.POUT_CNT_LOST j) + 1) 0xFFFF else s.rd (Fld.POUT_CNT_LOST j)) ∧
      (pulseLost j s).rd (Fld.POUT_CNT_PULSES j) = s.rd (Fld.POUT_CNT_PULSES j) ∧ RegsKept [Reg.POUT_CNT j] s (pulseLost j s) ∧
      pulseLost j s = { s with regs := (pulseLost j s).regs } := by
  unfold pulseLost
  by_cases h : bankBad s 5 = true
  · rw [if_pos h, if_pos h]
    refine ⟨rd_inc_same _ (by simp [FRef.ok]), ?_, (RegsKept.refl _ s).wr (by simp), rfl⟩
    exact rd_wr_apart _ _ _ _ (by simp [FRef.ok]) (by simp [FRef.ok]) (by simp [FRef.apart])
  · rw [if_neg h, if_neg h]
    exact ⟨rfl, rfl, fun _ _ => rfl, rfl⟩

end

theorem poutPulse_begins (s : State) (j : Fin 8) (hruns : meterRuns s = true) (hon : poutOn s j = true) (hidle : (s.pout j).phase = none)
    (hpend : s.rd (Fld.POUT_ST_PENDING j) ≠ 0) (hrun : s.rd Fld.SCHED_CFG_TICK_RUN = 1) :
    Does (.poutPulse j) s fun t =>
      t.pout j = { s.pout j with phase := some (true, max 1 (s.rd (Fld.POUT_CFG_PW j)) * 50) } ∧
      t.rd (Fld.POUT_ST_PENDING j) = s.rd (Fld.POUT_ST_PENDING j) - 1 ∧ t.rd (Fld.POUT_ST_ACTIVE j) = 1 ∧
      t.rd (Fld.POUT_CNT_PULSES j) = min (s.rd (Fld.POUT_CNT_PULSES j) + 1) 0xFFFF ∧
      t.rd (Fld.POUT_CNT_LOST j) = (if bankBad s 5 then min (s.rd (Fld.POUT_CNT_LOST j) + 1) 0xFFFF else s.rd (Fld.POUT_CNT_LOST j)) ∧
      (∀ h, h < 8 → h ≠ j.val → t.pout h = s.pout h) ∧
      t = { s with cycle := s.cycle + 1, regs := t.regs, meter := { s.meter with outs := t.meter.outs } } ∧ RegsKept [Reg.POUT_ST j, Reg.POUT_CNT j] s t := by
  have hguard : (meterRuns s && poutOn s j.val && (s.pout j.val).phase.isNone && decide (s.rd (Fld.POUT_ST_PENDING j.val) ≠ 0) &&
      s.rdB Fld.SCHED_CFG_TICK_RUN) = true := by simp [hruns, hon, hidle, hpend, hrun]
  refine ⟨_, (exec_poutPulse s j).trans (congrArg _ (if_pos hguard)), ?_⟩
  have hpout := pulseBegun_pout (j := j) (s := ticked s)
  have hothers (h : Nat) (hne : h ≠ j.val) := pulseBegun_others (s := ticked s) hne
  have hpending := pulseBegun_pending (j := j) (s := ticked s)
  have hactive := pulseBegun_active (j := j) (s := ticked s)
  have hpulses := pulseBegun_pulses (j := j) (s := ticked s)
  have hnotlost := pulseBegun_lost (j := j) (s := ticked s)
  have hbank := pulseBegun_bank (j := j) (s := ticked s)
  have hregs := pulseBegun_regs (j := j) (s := ticked s)
  have hrest := pulseBegun_rest (j := j) (s := ticked s)
  generalize pulseBegun j.val (ticked s) = u at *
  obtain ⟨hlost, hcount, hkept, hlrest⟩ := pulseLost_shows (j := j) u
  rw [hbank, hnotlost] at hlost
  generalize pulseLost j.val u = t at *
  have hst : t.reg (Reg.POUT_ST j) = u.reg (Reg.POUT_ST j) := hkept _ (by simp)
  have hmeter : t.meter = u.meter := by rw [hlrest]
  have hp (h : Nat) : t.pout h = u.pout h := by rw [State.pout, hmeter, State.pout]
  refine ⟨(hp j).trans hpout, (rd_congr _ hst).trans hpending, (rd_congr _ hst).trans hactive, hcount.trans hpulses, hlost,
    fun h _ hne => (hp h).trans (hothers h hne), ?_, fun a ha => (hkept a (by simp at ha ⊢; exact ha.2)).trans (hregs a ha)⟩
  rw [hmeter]
  rw [hrest] at hlrest
  exact hlrest

theorem exec_poutPulseEnd (s : State) (j : Fin 8) (high : Bool) (h : (s.pout j).phase = some (high, 0)) : exec (.poutPulseEnd j) s = .next
    (if high then ((ticked s).setPout j.val { s.pout j.val with phase := some (false, poutFrames s j.val) }).wr (Fld.POUT_ST_ACTIVE j.val) 0
     else (ticked s).setPout j.val { s.pout j.val with phase := none }) := by
  have hphase : ((ticked s).pout j.val).phase = some (high, 0) := h
  show execPoutPulseEnd j s = _
  rw [execPoutPulseEnd, run_ticked, hphase]
  cases high <;> rfl

theorem poutPulseEnd_ends (s : State) (j : Fin 8) (high : Bool) (hphase : (s.pout j).phase = some (high, 0)) :
    Does (.poutPulseEnd j) s fun t =>
      t.pout j = { s.pout j with phase := if high then some (false, max 1 (s.rd (Fld.POUT_CFG_PW j)) * 50) else none } ∧
      t.rd (Fld.POUT_ST_ACTIVE j) = (if high then 0 else s.rd (Fld.POUT_ST_ACTIVE j)) ∧ (∀ h, h < 8 → h ≠ j.val → t.pout h = s.pout h) ∧
      t = { s with cycle := s.cycle + 1, regs := t.regs, meter := { s.meter with outs := t.meter.outs } } ∧
      BitsKept (Reg.POUT_ST j) [Fld.POUT_ST_ACTIVE j] s t ∧ RegsKept [Reg.POUT_ST j] s t := by
  refine ⟨_, exec_poutPulseEnd s j high hphase, ?_⟩
  cases high with
  | true =>
    rw [if_pos rfl]
    refine ⟨pout_setPout_same (ticked s) j _, rd_wr_same _ _ _ (by simp [FRef.ok]), fun h _ hne => pout_setPout_ne (ticked s) _ hne, rfl, ?_, ?_⟩
    · exact bitsKept_wr ((ticked s).setPout j.val { s.pout j.val with phase := some (false, poutFrames s j.val) }) (Fld.POUT_ST_ACTIVE j.val)
        (by simp [FRef.ok]) 0
    · have h : RegsKept [Reg.POUT_ST j] s ((ticked s).setPout j.val { s.pout j.val with phase := some (false, poutFrames s j.val) }) := fun _ _ => rfl
      exact h.wr (by simp)
  | false =>
    rw [if_neg Bool.false_ne_true]
    exact ⟨pout_setPout_same (ticked s) j _, rfl, fun h _ hne => pout_setPout_ne (ticked s) _ hne, rfl, fun _ _ _ => rfl, fun _ _ => rfl⟩

/-- Settles O41: a sample of a channel is formed once in a tick and taken by its accumulators, a pulse input counts its accepted lows, and a pulse
output emits what is pending. -/
theorem meterSamplesAndPulses : Obligations.MeterSamplesAndPulses := by
  unfold Obligations.MeterSamplesAndPulses
  exact ⟨meterSample_samples, meterSample_ignored, pulseSample_samples, pulseSample_forgets, poutPulse_begins, poutPulseEnd_ends⟩

end Sys2Proof.Machine
end
-- ==== Sys2Proof/Proofs/IslandKept.lean ====
section
/-!
PROOFS. Proofs/IslandKept.lean: what a frame tick does outside the islanding block leaves the block's status, its command and its own state as they
were. One lemma for each function of the frame tick, in the order of the model.
-/
namespace Sys2Proof.Machine

/-- The status and command registers of the islanding block, and those that say whether ticks run. -/
def islandRegs : List Nat := [Reg.ISL_STATUS, Reg.ISL_CTRL, Reg.SCHED_CFG, Reg.CLK_STATUS]

/-- A register is none of these. -/
abbrev OffIsl (a : Nat) : Prop := a ∉ islandRegs

theorem offIsl_iff {a : Nat} : OffIsl a ↔ a ≠ 0x1A0040 ∧ a ≠ 0x1A0020 ∧ a ≠ 0x20400 ∧ a ≠ 0x20000 := by simp [OffIsl, islandRegs]

/-- A register of an array whose addresses lie above these registers, or never meet them. -/
theorem OffIsl.indexed {b m k : Nat} (h : 0x1A0040 < b ∨ 0x20400 < b ∧ b % m ≠ 0x1A0040 % m ∧ b % m ≠ 0x1A0020 % m) :
    OffIsl (b + m * k) := by
  rw [offIsl_iff]
  rcases h with h | ⟨h, hs, hc⟩
  · omega
  · exact ⟨fun e => hs (by rw [← e, Nat.add_mul_mod_self_left]), fun e => hc (by rw [← e, Nat.add_mul_mod_self_left]), by omega, by omega⟩

theorem OffIsl.ite {p : Prop} [Decidable p] {f g : FRef} (hf : OffIsl f.addr) (hg : OffIsl g.addr) : OffIsl (if p then f else g).addr := by
  split
  · exact hf
  · exact hg

theorem offIsl_break (rv q : Nat) : OffIsl (Reg.RG_BREAK rv q) := by
  rw [offIsl_iff]
  simp only [Reg.RG_BREAK]
  omega

/-- From `r` to `s` these registers and the islanding block's own state are kept. -/
structure IslKept (r s : State) : Prop where
  reg : ∀ a ∈ islandRegs, s.reg a = r.reg a
  isl : s.isl = r.isl

theorem IslKept.refl (s : State) : IslKept s s := ⟨fun _ _ => rfl, rfl⟩

theorem IslKept.trans {r s t : State} (h : IslKept r s) (k : IslKept s t) : IslKept r t :=
  ⟨fun a ha => (k.reg a ha).trans (h.reg a ha), k.isl.trans h.isl⟩

/-- A field of these registers reads as before. -/
theorem IslKept.rd {r s : State} (h : IslKept r s) (f : FRef) (hf : f.addr ∈ islandRegs) : s.rd f = r.rd f := rd_congr f (h.reg _ hf)

/-- A change of the parts of the state that the relation does not speak of. -/
theorem IslKept.upd {r s : State} (h : IslKept r s)
    {cycle pending bus out freeIx otp flash img time pwr lan log clog pwm gate win ls safe adc loop units stages trks meter ctl ring plots eng csp
      perf dbg} :
    IslKept r { s with
      cycle := cycle, pending := pending, bus := bus, out := out, freeIx := freeIx, otp := otp, flash := flash, img := img, time := time, pwr := pwr,
      lan := lan, log := log, clog := clog, pwm := pwm, gate := gate, win := win, ls := ls, safe := safe, adc := adc, loop := loop,
      units := units, stages := stages, trks := trks, meter := meter, ctl := ctl, ring := ring, plots := plots, eng := eng, csp := csp,
      perf := perf, dbg := dbg } :=
  ⟨h.1, h.2⟩

theorem IslKept.ite {r s t : State} {c : Prop} [Decidable c] (h : IslKept r s) (k : IslKept r t) : IslKept r (if c then s else t) := by
  split
  · exact h
  · exact k

section
variable {r s : State} (h : IslKept r s)
include h

/-! ### Registers, loops and logs -/

theorem IslKept.setReg {a : Nat} {x : Word} (ha : OffIsl a) : IslKept r (s.setReg a x) :=
  h.trans ⟨fun _ hb => reg_setReg_ne s x fun e => ha (e ▸ hb), rfl⟩

theorem IslKept.wr {f : FRef} {v : Nat} (hf : OffIsl f.addr) : IslKept r (State.wr s f v) := h.setReg hf

theorem IslKept.wrAt {b m k hi lo v : Nat} (hb : 0x1A0040 < b ∨ 0x20400 < b ∧ b % m ≠ 0x1A0040 % m ∧ b % m ≠ 0x1A0020 % m) :
    IslKept r (State.wr s ⟨b + m * k, hi, lo⟩ v) := h.wr (.indexed hb)

theorem IslKept.wrB {f : FRef} {b : Bool} (hf : OffIsl f.addr) : IslKept r (State.wrB s f b) := h.wr hf
theorem IslKept.wrBit {f : FRef} {i : Nat} {b : Bool} (hf : OffIsl f.addr) : IslKept r (State.wrBit s f i b) := h.wr hf

theorem IslKept.wrMapBit {f : Nat → FRef} {i : Nat} {b : Bool} (hf : ∀ n, OffIsl (f n).addr) : IslKept r (State.wrMapBit s f i b) :=
  h.wrBit (hf _)

theorem IslKept.wrI {f : FRef} {v : Int} (hf : OffIsl f.addr) : IslKept r (State.wrI s f v) := h.wr hf
theorem IslKept.wr64 {lo hi : FRef} {v : Nat} (hlo : OffIsl lo.addr) (hhi : OffIsl hi.addr) : IslKept r (State.wr64 s lo hi v) := (h.wr hlo).wr hhi
theorem IslKept.incBy {f : FRef} {n : Nat} (hf : OffIsl f.addr) : IslKept r (State.incBy s f n) := h.wr hf
theorem IslKept.inc {f : FRef} (hf : OffIsl f.addr) : IslKept r (State.inc s f) := h.incBy hf

theorem IslKept.foldl {α : Type} {l : List α} {f : State → α → State} (hf : ∀ s x, IslKept r s → IslKept r (f s x)) :
    IslKept r (l.foldl f s) := by
  induction l generalizing s with
  | nil => exact h
  | cons x l ih => exact ih (hf s x h)

theorem IslKept.forEach {l : List Nat} {f : Nat → State → State} (hf : ∀ i ∈ l, ∀ s, IslKept r s → IslKept r (f i s)) :
    IslKept r (forEach l f s) := forEach_preserves (P := IslKept r) hf h

theorem IslKept.when {b : Bool} {f : State → State} (hf : ∀ s, IslKept r s → IslKept r (f s)) : IslKept r (when b f s) := .ite (hf s h) h
theorem IslKept.free : IslKept r s.free.2 := h.upd

theorem IslKept.enqueue {e : LogEntry} : IslKept r (s.enqueue e) := by
  have hinc : IslKept r (s.inc Fld.LOG_STATUS_DROPPED) := h.inc (by decide)
  unfold State.enqueue
  split
  · exact h
  · split
    · exact .ite h.upd hinc
    · exact .ite h.upd hinc
    · exact .ite h.upd hinc

theorem IslKept.logEv {source code datum : Nat} : IslKept r (State.logEv s source code datum) := h.enqueue

theorem IslKept.logOnce {source code unit datum : Nat} : IslKept r (s.logOnce source code unit datum) := by
  unfold State.logOnce
  split
  · exact h
  · have k : IslKept r (s.logEv source code datum) := h.logEv
    exact k.upd

theorem IslKept.clogPush {role session kind subject : Nat} {new : BitVec 128} : IslKept r (s.clogPush role session kind subject new) :=
  .ite h (h.upd.wr (by decide))

theorem IslKept.send {o : Out} : IslKept r (State.send s o) := h.upd
theorem IslKept.answer {v : Word} {k : BusKind} {st : Status} : IslKept r (State.answer s v k st) := h.upd
theorem IslKept.answerSt {st : Status} : IslKept r (State.answerSt s st) := h.answer
theorem IslKept.setWide {a v : Nat} : IslKept r (State.setWide s a v) := h.upd
theorem IslKept.bump {a n : Nat} : IslKept r (State.bump s a n) := h.setWide

theorem IslKept.countSel {c n : Nat} : IslKept r (countSel c n s) := by
  unfold Machine.countSel
  extract_lets _ _ s1
  have h1 : IslKept r s1 := h.bump
  exact .ite h1.upd h1

theorem IslKept.countEv {event unit n : Nat} : IslKept r (countEv event unit n s) := .ite h (h.forEach (fun _ _ _ h => (.ite h.countSel h)))

/-! ### Trips and the safety lockout -/

theorem IslKept.gateRise {p causes : Nat} : IslKept r (gateRise p causes s) := by
  unfold Machine.gateRise
  extract_lets _ s1 s2
  have h1 : IslKept r s1 := ((h.wrAt (by decide)).wrAt (by decide)).wrAt (by decide)
  have h2 : IslKept r s2 := ((h1.inc (.indexed (by decide))).wr (by decide)).wrMapBit (fun _ => .indexed (by decide))
  exact .ite h2 h2.logOnce

theorem IslKept.settleGatePair {p : Nat} : IslKept r (settleGatePair p s) := .ite h (.ite (h.wrAt (by decide)) (.ite h.gateRise h))
theorem IslKept.settleGate : IslKept r (settleGate s) := (h.forEach (fun _ _ _ h => h.settleGatePair)).wrB (by decide)
theorem IslKept.outputsLow {p : Nat} : IslKept r (outputsLow p s) := (h.wrAt (by decide)).wrAt (by decide)
theorem IslKept.pairTrip {p src : Nat} : IslKept r (pairTrip p src s) :=
  have h1 := ((((h.wrAt (by decide)).wrAt (by decide)).wrAt (by decide)).wrAt (by decide)).wrAt (by decide)
  ((h1.inc (.indexed (by decide))).outputsLow.wrMapBit fun _ => .indexed (by decide)).countEv
theorem IslKept.pairHold {p : Nat} : IslKept r (pairHold p s) :=
  (((h.wrAt (by decide)).wrAt (by decide)).inc (.indexed (by decide))).outputsLow.countEv
theorem IslKept.settlePair {pulse p : Nat} : IslKept r (settlePair pulse p s) := .ite (h.wrAt (by decide)) (.ite h.pairTrip (.ite h.pairHold h))

theorem IslKept.logTrips {rising : List (Nat × Nat)} {k : Nat} : IslKept r (logTrips rising k s) := by
  unfold Machine.logTrips
  split
  · exact h
  · exact h.logOnce
  · exact h.logEv.forEach fun _ _ _ h => h.upd

theorem IslKept.settleTrips {pulse : Nat → Nat} : IslKept r (settleTrips pulse s) :=
  ((h.wr (by decide)).settleGate.forEach (fun _ _ _ h => h.settlePair)).forEach fun _ _ _ h => h.logTrips

theorem IslKept.safetyPending : IslKept r (safetyPending s) := h.wr (by decide)
theorem IslKept.outputsOff : IslKept r (outputsOff s) := ((h.wr (by decide)).wr (by decide)).wr (by decide)

theorem IslKept.enterLockout {cause unit : Nat} : IslKept r (enterLockout cause unit s) := by
  unfold Machine.enterLockout
  extract_lets _ s1 s2 s3 s4
  have h1 : IslKept r s1 := h.upd
  have h2 : IslKept r s2 := .ite h1 h1.outputsOff
  have h3 : IslKept r s3 := ((h2.wr (by decide)).wr (by decide)).wr (by decide)
  have h4 : IslKept r s4 := .ite (h2.wr (by decide)) ((h3.wr (by decide)).inc (by decide)).logEv
  exact h4.safetyPending.settleTrips

/-! ### PWM periods and the safety scan -/

theorem IslKept.stretchWave {p : Nat} : IslKept r (stretchWave p s) := by
  unfold Machine.stretchWave
  extract_lets _ _ s1
  have h1 : IslKept r s1 := h.upd
  split
  · exact .ite h1.upd h1
  · exact h1

theorem IslKept.pairFrame {p : Nat} : IslKept r (pairFrame p s) := by
  unfold Machine.pairFrame
  extract_lets _ _ s1
  have h1 : IslKept r s1 := h.upd
  exact .ite h (.ite (.ite h h.upd) (.ite h (.ite h1.stretchWave h1)))

theorem IslKept.pwmFrame : IslKept r (pwmFrame s) := h.forEach fun _ _ _ h => h.pairFrame
theorem IslKept.calFrame : IslKept r (calFrame s) := h.upd
theorem IslKept.tpFail {n : Nat} {chB cross : Bool} {source : Nat} : IslKept r (tpFail n chB cross source s) :=
  (h.wrBit (by decide)).logEv.enterLockout
theorem IslKept.faultBit {n : Nat} {q : SafeIn} : IslKept r (faultBit n q s) := h.wrBit (by decide)
theorem IslKept.setIn {n : Nat} {q : SafeIn} : IslKept r (State.setIn s n q) := h.upd
theorem IslKept.scanRaw {sa sb : BitVec 32} {n : Nat} : IslKept r (scanRaw sa sb n s) := (h.wrBit (by decide)).wrBit (by decide)

theorem IslKept.inputState {n : Nat} {runs : Bool} : IslKept r (inputState n runs s) := by
  unfold Machine.inputState
  extract_lets _ s1 _ s2
  have h1 : IslKept r s1 := h.wrBit (by decide)
  have h2 : IslKept r s2 := h1.wrBit (by decide)
  exact .ite (.ite h2 h2.setIn.logEv) h1

theorem IslKept.scanInput {n : Nat} : IslKept r (scanInput n s) := by
  unfold Machine.scanInput
  extract_lets _ _ _ _ _ _ _ _ c c2 _ s1 s2 s3
  have h1 : IslKept r s1 := h.setIn.faultBit
  have h2 : IslKept r s2 := by
    unfold s2
    clear_value c
    split
    · exact h1.tpFail
    · exact h1
  have h3 : IslKept r s3 := by
    unfold s3
    clear_value c2
    split
    · exact h2.tpFail
    · exact h2
  exact h3.inputState

theorem IslKept.evalOutput {n : Nat} : IslKept r (evalOutput n s) := ((h.wrBit (by decide)).wrBit (by decide)).upd

theorem IslKept.scanReadback {rb : BitVec 16} {n : Nat} : IslKept r (scanReadback rb n s) := by
  unfold Machine.scanReadback
  extract_lets _ _ _ _ _ s1 s2
  have h1 : IslKept r s1 := h.upd
  have h2 : IslKept r s2 := h1.wrBit (by decide)
  exact .ite (h2.wrBit (by decide)) h2

theorem IslKept.scanAck {x : Bool} : IslKept r (scanAck x s) := by
  unfold Machine.scanAck
  extract_lets _ _ s1 _ s2
  have h1 : IslKept r s1 := h.wrB (by decide)
  have h2 : IslKept r s2 := h1.upd
  exact .ite (h1.upd.wrB (by decide)) (.ite (h1.upd.wr (by decide)) (.ite (h2.wr (by decide)) h2))

theorem IslKept.evalFrame : IslKept r (evalFrame s) := by
  unfold Machine.evalFrame
  split
  · extract_lets _ s1 _ s2
    have h1 : IslKept r s1 := h.forEach fun _ _ _ h => h.evalOutput
    have h2 : IslKept r s2 := h1.upd.wr (by decide)
    exact .ite h2 h2.upd
  · exact .ite h h.upd

theorem IslKept.safetyScan {sa sb : BitVec 32} {rb : BitVec 16} {ack : Bool} : IslKept r (safetyScan sa sb rb ack s) :=
  .ite h (((((h.forEach (fun _ _ _ h => h.scanRaw)).forEach (fun _ _ _ h => h.scanInput)).forEach (fun _ _ _ h => h.wrBit (by decide))).forEach
    (fun _ _ _ h => h.scanReadback)).scanAck.evalFrame.safetyPending.upd)

theorem IslKept.pwFrame : IslKept r (pwFrame s) := h.upd

/-! ### ADC cores, debug and the command engine -/

theorem IslKept.putCore {c : Nat} {q : AdcCore} : IslKept r (State.putCore s c q) := h.upd
theorem IslKept.eventsGone {gone : Int → Bool} {p c : Nat} : IslKept r (eventsGone gone p c s) := .ite h h.putCore

theorem IslKept.adcStretch {old : State} {p : Nat} : IslKept r (adcStretch old p s) := by
  unfold Machine.adcStretch
  split
  · exact h
  · exact ((h.forEach (fun _ _ _ h => h.eventsGone)).forEach (fun _ _ _ h => by
      split
      · exact h
      · exact h.putCore))

theorem IslKept.adcTick {trig : Nat} {t : Int} : IslKept r (adcTick trig t s) := (h.forEach (fun _ _ _ h => by
    split
    · exact h
    · exact h.putCore))

theorem IslKept.adcFrame {d : Int} : IslKept r (adcFrame d s) := h.forEach fun _ _ _ h => (.ite h h.putCore)
theorem IslKept.adcResume : IslKept r (adcResume s) := h.forEach fun _ _ _ h => (.ite h h.putCore)

theorem IslKept.dbgShow : IslKept r (dbgShow s) := by
  unfold Machine.dbgShow
  extract_lets s1
  have h1 : IslKept r s1 := (h.wr (by decide)).wrB (by decide)
  split
  · exact h1.wr (by decide)
  · exact (h1.wr (by decide)).wr (by decide)

theorem IslKept.unlockFrame : IslKept r (unlockFrame s) := by
  unfold Machine.unlockFrame
  split
  · exact h.upd.dbgShow
  · exact h

theorem IslKept.setSess {k : Nat} {x : Sess} : IslKept r (State.setSess s k x) := h.upd
theorem IslKept.setOp {k : Nat} {o : LongOp} : IslKept r (State.setOp s k o) := h.upd

theorem IslKept.sessFrame {k : Nat} : IslKept r (sessFrame k s) := by
  unfold Machine.sessFrame
  extract_lets _ _ s1
  have h1 : IslKept r s1 := h.setSess
  exact .ite (h1.wrAt (by decide)) h1

theorem IslKept.opFrame {k : Nat} : IslKept r (opFrame k s) := by
  unfold Machine.opFrame
  split
  · split
    · exact h.setOp
    · exact h.setOp
    · exact h
  · exact h

theorem IslKept.engineFrame : IslKept r (engineFrame s) := ((h.forEach (fun _ _ _ h => h.sessFrame)).forEach (fun _ _ _ h => h.opFrame)).upd

/-! ### Cells and plots -/

theorem IslKept.countTx {p len : Nat} : IslKept r (countTx p len s) := h.bump.bump
theorem IslKept.dropTx {p : Nat} : IslKept r (dropTx p s) := h.bump
theorem IslKept.setCq {g : Nat} {q : CellQ} : IslKept r (State.setCq s g q) := h.upd

theorem IslKept.queueOn {c : Cell} {g : Nat} : IslKept r (queueOn c g s) := by
  unfold Machine.queueOn
  extract_lets
  split
  · exact h.setCq
  · exact .ite (h.inc (.indexed (by decide))).logEv (h.setCq.wr (by decide))

theorem IslKept.sendCell {body : CellBody} {reach dest : Nat} {groups : List Nat} : IslKept r (sendCell body reach dest groups s) :=
  h.upd.forEach fun _ _ _ h => h.queueOn

theorem IslKept.floodCell {body : CellBody} : IslKept r (floodCell body s) := h.sendCell
theorem IslKept.nbrCell {body : CellBody} {g : Nat} : IslKept r (nbrCell body g s) := h.sendCell

theorem IslKept.useDown {plot : Option Nat} {cells : Nat} : IslKept r (useDown plot cells s) := by
  unfold Machine.useDown
  split
  · exact (h.wrAt (by decide)).wrAt (by decide)
  · exact h

theorem IslKept.bufRelease {b : Nat} : IslKept r (bufRelease b s) := by
  unfold Machine.bufRelease
  split
  · exact h
  · exact .ite h.upd.useDown h.upd

theorem IslKept.setPq {p : Nat} {q : PortQ} : IslKept r (State.setPq s p q) := h.upd

theorem IslKept.quenchOut {p : Nat} {x : QFrame} : IslKept r (quenchOut p x s) := by
  unfold Machine.quenchOut
  extract_lets s1
  have h1 : IslKept r s1 := h.dropTx.bufRelease
  split
  · exact h1.inc (.indexed (by decide))
  · exact h1

theorem IslKept.quenchFlush {p : Nat} : IslKept r (quenchFlush p s) := .ite h (h.setPq.foldl (fun _ _ h => h.quenchOut))

theorem IslKept.portServe {p k : Nat} : IslKept r (portServe p k s) := by
  induction k generalizing s with
  | zero => exact h
  | succ k ih =>
    unfold Machine.portServe
    split
    · exact h
    · split
      · exact h
      · split
        · exact h
        · exact ih h.setPq.bufRelease.countTx.send

theorem IslKept.portFrame {p : Nat} : IslKept r (portFrame p s) := by
  unfold Machine.portFrame
  extract_lets s1 _ _ s2
  have h1 : IslKept r s1 := h.quenchFlush
  have h2 : IslKept r s2 := h1.setPq.portServe
  exact .ite (.ite h1 h1.setPq) (.ite h1 (.ite h2.free.bump h2))

theorem IslKept.rtcCount {n : Nat} : IslKept r (rtcCount n s) := h.upd
theorem IslKept.rtcAdvance {ns : Nat} : IslKept r (rtcAdvance ns s) := h.upd.rtcCount

/-! ### Rings -/

theorem IslKept.setIns {rv : Nat} {x : RingIns} : IslKept r (State.setIns s rv x) := h.upd
theorem IslKept.setGrp {g : Nat} {x : GroupSt} : IslKept r (State.setGrp s g x) := h.upd
theorem IslKept.setGroup {g st : Nat} : IslKept r (setGroup g st s) := h.wrAt (by decide)

theorem IslKept.insTo {rv st : Nat} : IslKept r (insTo rv st s) :=
  (h.setIns.wr (.ite (by decide) (by decide))).wrB (.ite (by decide) (by decide))

theorem IslKept.sideLanes {g st : Nat} : IslKept r (sideLanes g st s) := h.forEach fun _ _ _ h => (h.wrAt (by decide))

theorem IslKept.wakeGroup {g : Nat} {received : Bool} : IslKept r (wakeGroup g received s) :=
  .ite ((h.when (fun _ h => h.nbrCell)).setGrp.setGroup.sideLanes.logEv) h.setGrp

theorem IslKept.showBreaks {rv : Nat} : IslKept r (showBreaks rv s) := (((h.forEach fun _ _ _ h => h.setReg (offIsl_break _ _)).wr
  (.ite (by decide) (by decide))).wrB (.ite (by decide) (by decide))).when fun _ h => h.logEv

theorem IslKept.breakAdd {rv span : Nat} {planned drowse : Bool} : IslKept r (breakAdd rv span planned drowse s) :=
  (IslKept.ite h.setIns (h.setIns.wr (by decide))).showBreaks.forEach fun _ _ _ h => h.wakeGroup

theorem IslKept.breakHeal {rv span : Nat} : IslKept r (breakHeal rv span s) := h.setIns.showBreaks
theorem IslKept.ringBreakRx {rv span : Nat} {planned drowse : Bool} : IslKept r (ringBreakRx rv span planned drowse s) := h.breakAdd.logEv
theorem IslKept.ringHealRx {rv span : Nat} : IslKept r (ringHealRx rv span s) := h.breakHeal.logEv

theorem IslKept.leaveRings {mask : Nat} : IslKept r (leaveRings mask s) :=
  .ite h ((h.forEach (fun _ _ _ h => (h.forEach (fun _ _ _ h => (.ite h.nbrCell h))).setIns.insTo)).logEv)

theorem IslKept.insertCmd {mask : Nat} : IslKept r (insertCmd mask s) := h.forEach fun _ _ _ h => (h.when (fun _ h => h.setIns))
theorem IslKept.wakeCmd {mask : Nat} : IslKept r (wakeCmd mask s) := h.forEach fun _ _ _ h => (h.when (fun _ h => h.wakeGroup))

theorem IslKept.ringTake {cmd target : Nat} : IslKept r (ringTake cmd target s) := by
  unfold Machine.ringTake
  extract_lets s1
  have h1 : IslKept r s1 := (h.wr (by decide)).wr (by decide)
  split
  · exact h1.leaveRings
  · exact h1.insertCmd
  · exact h1.wakeCmd
  · exact h1

theorem IslKept.ringCounts {rv : Nat} : IslKept r (ringCounts rv s) := by
  unfold Machine.ringCounts
  extract_lets _ _ _ _ s1
  have h1 : IslKept r s1 := h.setIns
  exact .ite h1 h1.showBreaks

theorem IslKept.laneCodewords {l : Nat} : IslKept r (laneCodewords l s) :=
  .ite ((h.free.incBy (.indexed (by decide))).free.incBy (.indexed (by decide))) h

theorem IslKept.arrivedTake : IslKept r (arrivedTake s) := (h.upd.foldl (fun _ _ h => by
    split
    · exact h.ringBreakRx
    · exact h.ringHealRx
    · exact h))

theorem IslKept.ringFrame : IslKept r (ringFrame s) := by
  unfold Machine.ringFrame
  extract_lets s1 _ s2 s3
  have h1 : IslKept r s1 := .ite h h.ringTake
  have h2 : IslKept r s2 := h1.upd.arrivedTake.forEach fun _ _ _ h => h.ringCounts
  have h3 : IslKept r s3 := h2.forEach fun _ _ _ h => h.setGrp
  exact .ite h1 (h3.forEach (fun _ _ _ h => h.laneCodewords))

/-! ### Policers, control cells and ports -/

theorem IslKept.setMiss {p c : Nat} {m : Nat × Nat} : IslKept r (setMiss p c m s) := h.upd
theorem IslKept.polFrame : IslKept r (polFrame s) := h.upd
theorem IslKept.polTakeOne {p c : Nat} : IslKept r (polTakeOne p c s) := h.upd.setMiss
theorem IslKept.polTake : IslKept r (polTake s) := h.forEach fun _ _ _ h => h.polTakeOne
theorem IslKept.plotDueFrame : IslKept r (plotDueFrame s) := h.upd

theorem IslKept.ctlFrame : IslKept r (ctlFrame s) := by
  unfold Machine.ctlFrame
  extract_lets s1 _ s2 _ _ s3 _ _ s4
  have h1 : IslKept r s1 := h.plotDueFrame
  have h2 : IslKept r s2 := .ite h1 h1.logEv
  have h3 : IslKept r s3 := ((h2.wr (by decide)).wr (by decide)).wr (by decide)
  have h4 : IslKept r s4 := .ite h2 (.ite h3.upd.logEv h3)
  exact .ite h1 (h4.forEach (fun _ _ _ h => h.setCq))

theorem IslKept.plotsFrame : IslKept r (plotsFrame s) := .ite h.polTake (h.polFrame.polTake.forEach (fun _ _ _ h => h.portFrame))

/-! ### Performance counters -/

theorem IslKept.bwRestart : IslKept r (bwRestart s) := h.forEach fun _ _ _ h => h.upd
theorem IslKept.bwSub : IslKept r (bwSub s) := h.forEach fun _ _ _ h => h.upd
theorem IslKept.bwLatch {wd : Nat} : IslKept r (bwLatch wd s) :=
  (h.forEach fun _ _ _ h => .ite (((h.wrAt (by decide)).wrAt (by decide)).wrAt (by decide))
    (((h.wrAt (by decide)).wrAt (by decide)).wrAt (by decide))).wr (by decide)
theorem IslKept.bwNext : IslKept r (bwNext s) := h.forEach fun _ _ _ h => h.upd
theorem IslKept.bwWindowEnd : IslKept r (bwWindowEnd s) := .ite ((h.when (fun _ h => h.bwLatch)).upd.bwNext) h
theorem IslKept.snapTake : IslKept r (snapTake s) := (IslKept.ite h (h.forEach (fun _ _ _ h => h.wrAt (by decide)))).upd

theorem IslKept.snapShow {hd : Held} : IslKept r (snapShow hd s) := by
  unfold Machine.snapShow
  extract_lets _ _ s1 s2 s3
  have h1 : IslKept r s1 := h.upd
  have h2 : IslKept r s2 := h1.forEach fun _ _ _ h => h.setWide
  have h3 : IslKept r s3 := .ite (h2.wr (by decide))
    (h2.forEach fun st hst s h => by
      have hst4 : st < 4 := by revert st; decide
      exact (h.setReg (by simp only [offIsl_iff, Reg.LE_MAX]; omega)).setReg (by simp only [offIsl_iff, Reg.LE_OVR]; omega))
  exact (h3.wr64 (by decide) (by decide)).wr (by decide)

theorem IslKept.snapMiss {f : Nat} : IslKept r (snapMiss f s) := (h.upd.wr (by decide)).logEv
theorem IslKept.coreEvents : IslKept r (coreEvents s) := .ite h (h.forEach (fun _ _ _ h => (.ite h.free.countSel h)))

theorem IslKept.counterTake : IslKept r (counterTake s) := by
  unfold Machine.counterTake
  extract_lets c _ s1 _ s2 s3
  have h1 : IslKept r s1 := h.wr (by decide)
  have h2 : IslKept r s2 := by
    unfold s2
    generalize c = n
    split
    · exact h1.upd
    · exact .ite h1.upd h1.snapMiss
    · exact h1
  have h3 : IslKept r s3 := h2.when fun _ h => h.snapTake
  exact .ite (h3.wr (by decide)) (.ite (h3.wr (by decide)) h3)

theorem IslKept.perfFrame : IslKept r (perfFrame s) := by
  unfold Machine.perfFrame
  extract_lets s1 s2 _ s3 s4
  have h1 : IslKept r s1 := h.coreEvents.bwWindowEnd
  have h2 : IslKept r s2 := by
    unfold s2
    split
    · exact h1.snapShow.counterTake
    · exact h1.counterTake
  have h3 : IslKept r s3 := .ite h2 (h2.upd.wr (by decide)).bwRestart
  have h4 : IslKept r s4 := .ite h3.bwSub h3
  exact .ite h4.upd h4

/-! ### Grid-sync units and stages -/

theorem IslKept.setUnit {u : Nat} {q : GsUnit} : IslKept r (State.setUnit s u q) := h.upd

theorem IslKept.graceFrame : IslKept r (graceFrame s) := by
  unfold Machine.graceFrame
  extract_lets _ s1
  have h1 : IslKept r s1 := h.upd
  exact .ite (h1.wr (by decide)) h1

theorem IslKept.swapDiscard {reason : Nat} : IslKept r (swapDiscard reason s) := .ite h ((h.wr (by decide)).wr (by decide)).logEv
theorem IslKept.swapMissed : IslKept r (swapMissed s) := .ite h.swapDiscard h
theorem IslKept.unitFrame {u : Nat} : IslKept r (unitFrame u s) :=
  .ite h ((((h.setUnit.wrAt (by decide)).wrAt (by decide)).wrAt (by decide)).wrI (.indexed (by decide)))
theorem IslKept.setStage {g : Nat} {q : Stage} : IslKept r (State.setStage s g q) := h.upd
theorem IslKept.stageSources {g : Nat} : IslKept r (stageSources g s) := h.upd.settleTrips

theorem IslKept.writeRefs {g : Nat} (hg : g < 8) {rv : List Int} : IslKept r (writeRefs g rv s) :=
  (h.forEach fun q hq s h => h.setReg (by
    have hq4 : q < 4 := by revert q; decide
    simp only [offIsl_iff, Reg.GST_REF]
    omega)).upd

theorem IslKept.rtExit {g : Nat} : IslKept r (rtExit g s) := .ite h (h.wrAt (by decide)).logEv

theorem IslKept.stageTo {g : Nat} (hg : g < 8) {st : Nat} : IslKept r (stageTo g st s) := by
  unfold Machine.stageTo
  split
  · exact h
  · extract_lets s1 _ s2 s3 s4
    have h1 : IslKept r s1 := ((h.wrAt (by decide)).wrAt (by decide)).logEv
    have h2 : IslKept r s2 := .ite h1 h1.setStage
    have h3 : IslKept r s3 := .ite h2 (h2.wrAt (by decide)).rtExit
    have h4 : IslKept r s4 := .ite h3 (h3.writeRefs hg)
    exact h4.stageSources

theorem IslKept.stageConnect {g : Nat} {b : Bool} : IslKept r (stageConnect g b s) := .ite h (h.setStage.wrB (.indexed (by decide)))

theorem IslKept.stageStop {g : Nat} (hg : g < 8) : IslKept r (stageStop g s) :=
  .ite (h.setStage.stageTo hg) (.ite (h.stageConnect.stageTo hg) h)

theorem IslKept.stageFrame {g : Nat} : IslKept r (stageFrame g s) := .ite h (h.setStage.wrB (.indexed (by decide)))

theorem IslKept.stagesStop : IslKept r (stagesStop s) :=
  h.forEach fun _ hg _ h => h.when fun _ h => h.stageStop (List.mem_range.mp hg)

/-! ### Metering -/

theorem IslKept.setChan {m : Nat} {q : MeterChan} : IslKept r (State.setChan s m q) := h.upd
theorem IslKept.setPin {n : Nat} {q : PulseIn} : IslKept r (State.setPin s n q) := h.upd
theorem IslKept.setPout {j : Nat} {q : PulseOut} : IslKept r (State.setPout s j q) := h.upd
theorem IslKept.setAcc {id : Nat} {v : Int} : IslKept r (State.setAcc s id v) := h.upd
theorem IslKept.setSat {id : Nat} {b : Bool} : IslKept r (setSat id b s) := .ite (h.wrBit (.indexed (by decide))) (h.wrB (.indexed (by decide)))
theorem IslKept.chanReason {m mask : Nat} : IslKept r (chanReason m mask s) := h.wrAt (by decide)
theorem IslKept.pinReason {n mask : Nat} : IslKept r (pinReason n mask s) := h.setPin
theorem IslKept.pulseInvalid {mask : Nat} : IslKept r (pulseInvalid mask s) := h.forEach fun _ _ _ h => h.pinReason

theorem IslKept.accLoad {id : Nat} {v : Int} : IslKept r (accLoad id v s) := by
  unfold Machine.accLoad
  extract_lets s1
  have h1 : IslKept r s1 := h.setAcc.setSat
  exact .ite h1.chanReason h1.pinReason

theorem IslKept.meterCmdDo {cmd id : Nat} : IslKept r (meterCmdDo cmd id s) := .ite (h.wr (by decide)).logEv h.clogPush.accLoad.logEv
theorem IslKept.meterCmdTake : IslKept r (meterCmdTake s) := .ite h (.ite (.ite h (h.wr (by decide)).meterCmdDo) (h.wr (by decide)))

theorem IslKept.meterFigures : IslKept r (meterFigures s) := by
  unfold Machine.meterFigures
  extract_lets _ _ _ s1 s2
  have h1 : IslKept r s1 := h.upd
  have h2 : IslKept r s2 := h1.forEach fun _ _ _ h => (.ite h.upd h.setChan.chanReason)
  exact .ite h2.upd h2.pulseInvalid

theorem IslKept.meterFrame : IslKept r (meterFrame s) := (IslKept.ite h ((h.meterFigures.when (fun _ h => h.meterCmdTake)).forEach (fun _ _ _ h => by
    split
    · exact h.setPout
    · exact h)))

/-! ### Trackers -/

theorem IslKept.setTrk {k : Nat} {q : Tracker} : IslKept r (State.setTrk s k q) := h.upd
theorem IslKept.trkSources {k : Nat} : IslKept r (trkSources k s) := h.upd.settleTrips
theorem IslKept.trkTo {k st : Nat} : IslKept r (trkTo k st s) := .ite h ((h.wrAt (by decide)).wrAt (by decide)).logEv.setTrk.trkSources
theorem IslKept.trkStop {k : Nat} : IslKept r (trkStop k s) := .ite h h.trkTo
theorem IslKept.trackersStop : IslKept r (trackersStop s) := h.forEach fun _ _ _ h => (h.when (fun _ h => h.trkStop))
theorem IslKept.stopAll : IslKept r (stopAll s) := h.stagesStop.trackersStop

/-! ### Power states -/

theorem IslKept.setWakeQ {q : List Nat} : IslKept r (State.setWakeQ s q) := h.upd.wr (by decide)

theorem IslKept.setDrainQ {q : List Nat} : IslKept r (s.setDrainQ q) := by
  unfold State.setDrainQ
  split
  · exact (h.upd.wrBit (by decide)).settleTrips
  · exact h.upd

theorem IslKept.requestWake {d : Nat} : IslKept r (requestWake d s) :=
  .ite (h.wrBit (by decide)).setDrainQ (.ite h (.ite ((h.wr (by decide)).wr (by decide)).answerSt h.setWakeQ))
theorem IslKept.requestDown {d : Nat} : IslKept r (requestDown d s) := .ite h.setWakeQ (.ite h.setDrainQ h)
theorem IslKept.requestMask {m : Nat} : IslKept r (requestMask m s) :=
  (((h.wr (by decide)).wr (by decide)).wr (by decide)).forEach fun _ _ _ h => (.ite h.requestWake h.requestDown)

theorem IslKept.biasTick : IslKept r (biasTick s) := by
  unfold Machine.biasTick
  split
  · exact h.upd
  · exact h

theorem IslKept.biasStart : IslKept r (biasStart s) := .ite h h.biasTick
theorem IslKept.requestBias {st : Nat} : IslKept r (requestBias st s) := h.upd.biasStart
theorem IslKept.pendingTake : IslKept r (pendingTake s).2 := h.upd
theorem IslKept.endChange {st cause : Nat} : IslKept r (endChange st cause s) :=
  ((((h.upd.wr (by decide)).wr (by decide)).wr (by decide)).wr (by decide))

theorem IslKept.changeFail : IslKept r (changeFail s) := by
  unfold Machine.changeFail
  split
  · exact h
  · exact h.requestMask.requestBias.endChange

theorem IslKept.startDomains : IslKept r (startDomains s) := by
  unfold Machine.startDomains
  split
  · exact h
  · extract_lets _ s1 _ s2
    have h1 : IslKept r s1 := h.upd
    have h2 : IslKept r s2 := (IslKept.ite h1.settleTrips h1).requestMask
    exact .ite h2 h2.changeFail

theorem IslKept.startLeg {c : PwrChange} : IslKept r (startLeg c s) := by
  unfold Machine.startLeg
  extract_lets _ s1 s2 s3 _ s4
  have h1 : IslKept r s1 := h.upd
  have h2 : IslKept r s2 := (h1.wr (by decide)).wr (by decide)
  have h3 : IslKept r s3 := h2.requestBias
  have h4 : IslKept r s4 := h2.requestBias.stopAll
  split
  · exact .ite h3.startDomains h3.upd
  · exact h2.requestBias.startDomains
  · exact .ite h4.startDomains h4.upd
  · exact h2.startDomains

theorem IslKept.startChange {goal cause : Nat} : IslKept r (startChange goal cause s) := (IslKept.ite h.leaveRings h).startLeg

theorem IslKept.requestState {goal cause : Nat} : IslKept r (requestState goal cause s) :=
  .ite h.logEv (.ite ((h.when (fun _ h => h.wr (by decide))).upd) (.ite h h.startChange))

theorem IslKept.pendingApply : IslKept r (pendingApply s) := by
  unfold Machine.pendingApply
  extract_lets p
  have hp : IslKept r p.2 := h.pendingTake
  clear_value p
  split
  · exact h
  · split
    · exact hp.requestState
    · exact h

theorem IslKept.wakesAge : IslKept r (wakesAge s) := h.upd

theorem IslKept.pwrTick : IslKept r (pwrTick s) := by
  unfold Machine.pwrTick
  extract_lets s1
  have h1 : IslKept r s1 := h.wakesAge
  split
  · exact .ite (.ite h1.startDomains.pendingApply h1.upd) h1
  · exact h1

/-! ### The parts of a frame tick -/

theorem IslKept.ptpFrame : IslKept r (ptpFrame s) := by
  unfold Machine.ptpFrame
  split
  · exact h
  · extract_lets _ _ s1 s2
    have h1 : IslKept r s1 := .ite (h.forEach (fun _ _ _ h => h.send)) h
    have h2 : IslKept r s2 := .ite (h1.forEach (fun _ _ _ h => h.send)) h1
    exact .ite (.ite (h2.forEach (fun _ _ _ h => h.send)) h2) h1

theorem IslKept.slewFrame : IslKept r (slewFrame s) := by
  unfold Machine.slewFrame
  extract_lets _ s1
  have h1 : IslKept r s1 := h.upd
  exact .ite h1.upd (.ite h1.upd h1.upd)

theorem IslKept.transferFrame : IslKept r (transferFrame s) := .ite h.upd h
theorem IslKept.timeFrame : IslKept r (timeFrame s) := h.upd.calFrame.adcFrame.upd.slewFrame.transferFrame.rtcAdvance
theorem IslKept.heartbeatFrame : IslKept r (heartbeatFrame s) := h.upd
theorem IslKept.resumeFrame : IslKept r (resumeFrame s) := .ite h.upd.adcResume h
theorem IslKept.stretchAdc {old : State} : IslKept r (stretchAdc old s) := h.forEach fun _ _ _ h => h.adcStretch
theorem IslKept.switchFrame : IslKept r (switchFrame s) := h.biasTick.pwrTick.ptpFrame.ringFrame.ctlFrame.plotsFrame.engineFrame.unlockFrame.pwFrame

end
end Sys2Proof.Machine
end
-- ==== Sys2Proof/Proofs/IslandFrame.lean ====
section
/-!
PROOFS. Proofs/IslandFrame.lean: the frame tick of the islanding block. What it does before it takes a command keeps the command and the block on;
what it and the rest of the frame tick do after that keeps what the command has brought.
-/
namespace Sys2Proof.Machine

/-! ### Up to the taking of the command -/

/-- From `r` to `s` the command that waits is kept, and the block does not go OFF. -/
structure CmdWaits (r s : State) : Prop where
  cmd : s.rd Fld.ISL_CTRL_CMD = r.rd Fld.ISL_CTRL_CMD
  on : r.rd Fld.ISL_STATUS_MODE ≠ 0 → s.rd Fld.ISL_STATUS_MODE ≠ 0

theorem CmdWaits.refl (s : State) : CmdWaits s s := ⟨rfl, id⟩

theorem CmdWaits.ite {r s t : State} {c : Prop} [Decidable c] (h : CmdWaits r s) (k : CmdWaits r t) : CmdWaits r (if c then s else t) := by
  split
  · exact h
  · exact k

section
variable {r s : State} (h : CmdWaits r s)
include h

theorem CmdWaits.kept {t : State} (k : IslKept s t) : CmdWaits r t :=
  ⟨(k.rd Fld.ISL_CTRL_CMD (by decide)).trans h.cmd, fun hr => (k.rd Fld.ISL_STATUS_MODE (by decide)).symm ▸ h.on hr⟩

/-- A change of the block's own state. -/
theorem CmdWaits.own {x : Island} : CmdWaits r { s with isl := x } := ⟨h.cmd, h.on⟩

theorem CmdWaits.wr {f : FRef} {v : Nat} (hf : OffIsl f.addr) : CmdWaits r (s.wr f v) := h.kept ((IslKept.refl s).wr hf)
theorem CmdWaits.wrI {f : FRef} {v : Int} (hf : OffIsl f.addr) : CmdWaits r (s.wrI f v) := h.wr hf
theorem CmdWaits.inc {f : FRef} (hf : OffIsl f.addr) : CmdWaits r (s.inc f) := h.wr hf
theorem CmdWaits.logEv {source code datum : Nat} : CmdWaits r (s.logEv source code datum) := h.kept (IslKept.refl s).logEv

/-- Another field of the status register is written. -/
theorem CmdWaits.wrStatus {f : FRef} {v : Nat} (hf : f.ok) (hm : f.apart Fld.ISL_STATUS_MODE) (hc : f.apart Fld.ISL_CTRL_CMD) :
    CmdWaits r (s.wr f v) :=
  ⟨(rd_wr_apart s f _ v hf (by decide) hc).trans h.cmd, fun hr => (rd_wr_apart s f _ v hf (by decide) hm).symm ▸ h.on hr⟩

/-- The mode is set to one in which the block is on. -/
theorem CmdWaits.wrMode {v : Nat} (hv : v % 4 ≠ 0) : CmdWaits r (s.wr Fld.ISL_STATUS_MODE v) :=
  ⟨(rd_wr_ne s _ _ v (by decide)).trans h.cmd, fun _ => by rw [rd_wr_same _ _ _ (by decide)]; exact hv⟩

theorem CmdWaits.breakerCells : CmdWaits r (breakerCells s) := .ite h (h.own.kept (IslKept.refl _).floodCell)

theorem CmdWaits.staleCell {a age : Nat} : CmdWaits r (staleCell a age s) := by
  unfold Machine.staleCell
  extract_lets s1 due
  have h1 : CmdWaits r s1 := h.inc (by decide)
  exact .ite h1.own.logEv h1

theorem CmdWaits.compare {a fn : Nat} {delta : Int} : CmdWaits r (compare a fn delta s).2 := by
  unfold Machine.compare
  extract_lets _ d _ _ _ _ _ s1 s2 s3
  have h1 : CmdWaits r s1 := h.own
  have h2 : CmdWaits r s2 := (h1.inc (by decide)).wrI (.indexed (by decide))
  have h3 : CmdWaits r s3 := by
    clear_value d
    cases d with
    | none => exact h2
    | some v => exact h2.wrI (.indexed (by decide))
  exact h3.wrI (.indexed (by decide))

theorem CmdWaits.armEval {a : Nat} : CmdWaits r (armEval a s) := h.own.wr (.indexed (by decide))

theorem CmdWaits.toFallback : CmdWaits r (toFallback s) :=
  (((h.own.wrMode (by decide)).wrStatus (by decide) (by decide) (by decide)).wr (by decide)).logEv

theorem CmdWaits.toAnchor {a : Nat} : CmdWaits r (toAnchor a s) :=
  (((h.own.wrMode (by decide)).wrStatus (by decide) (by decide) (by decide)).wr (by decide)).logEv

theorem CmdWaits.modeEval : CmdWaits r (modeEval s) :=
  .ite (.ite h.toAnchor (.ite h ((h.wrStatus (by decide) (by decide) (by decide)).wr (by decide)).logEv)) (.ite h h.toFallback)

theorem CmdWaits.disconnect {cause anchor : Nat} : CmdWaits r (disconnect cause anchor s) :=
  .ite h.logEv (((h.wrStatus (by decide) (by decide) (by decide)).wrStatus (by decide) (by decide) (by decide)).wr (by decide)).own.logEv

theorem CmdWaits.causeOnce {cause anchor : Nat} : CmdWaits r (causeOnce cause anchor s) := .ite h h.own.disconnect

theorem CmdWaits.actCauses {l : List (Nat × Nat)} : CmdWaits r (actCauses l s) := by
  have hl : CmdWaits r (l.foldl (fun s c => Machine.causeOnce c.1 c.2 s) s) := by
    induction l generalizing s with
    | nil => exact h
    | cons c l ih => exact ih h.causeOnce
  exact hl.own

end

theorem CmdWaits.takeCell {r : State} {acc : Tab CmpFlags × State} (h : CmdWaits r acc.2) (c : CellIn) : CmdWaits r (takeCell acc c).2 := by
  unfold Machine.takeCell
  extract_lets _ s0 a x s1 s2
  have h1 : CmdWaits r s1 := CmdWaits.own h
  have h2 : CmdWaits r s2 := (h1.wr (.indexed (by decide))).wr (.indexed (by decide))
  clear_value s2
  split
  · exact h2.staleCell
  · split
    · split
      · exact h2
      · exact h2.compare
    · exact h2

theorem CmdWaits.takeCells {r : State} (l : List CellIn) {acc : Tab CmpFlags × State} (h : CmdWaits r acc.2) :
    CmdWaits r (l.foldl Machine.takeCell acc).2 := by
  induction l generalizing acc with
  | nil => exact h
  | cons c l ih => exact ih (h.takeCell c)

/-! ### The command and what follows it -/

/-- A FORCE_DISC has been taken (R388, R402): OP_FORCED with a disconnect in force, and the release times at 0. -/
structure ForceTaken (t : State) : Prop where
  forced : t.rd Fld.ISL_STATUS_OP_FORCED = 1
  disc : t.rd Fld.ISL_STATUS_DISC = 1
  clear : t.isl.clear = 0
  cmd : t.rd Fld.ISL_CTRL_CMD = 0

/-- A RELEASE has been taken (R396, R402). -/
structure ReleaseTaken (t : State) : Prop where
  forced : t.rd Fld.ISL_STATUS_OP_FORCED = 0
  cmd : t.rd Fld.ISL_CTRL_CMD = 0

theorem ForceTaken.kept {s t : State} (h : ForceTaken s) (k : IslKept s t) : ForceTaken t :=
  ⟨(k.rd Fld.ISL_STATUS_OP_FORCED (by decide)).trans h.forced, (k.rd Fld.ISL_STATUS_DISC (by decide)).trans h.disc, k.isl ▸ h.clear,
    (k.rd Fld.ISL_CTRL_CMD (by decide)).trans h.cmd⟩

theorem ReleaseTaken.kept {s t : State} (h : ReleaseTaken s) (k : IslKept s t) : ReleaseTaken t :=
  ⟨(k.rd Fld.ISL_STATUS_OP_FORCED (by decide)).trans h.forced, (k.rd Fld.ISL_CTRL_CMD (by decide)).trans h.cmd⟩

/-- AFD_ON is written. -/
theorem ForceTaken.wrAfd {s : State} (h : ForceTaken s) (v : Nat) : ForceTaken (s.wr Fld.ISL_STATUS_AFD_ON v) :=
  ⟨(rd_wr_apart s _ _ v (by decide) (by decide) (by decide)).trans h.forced, (rd_wr_apart s _ _ v (by decide) (by decide) (by decide)).trans h.disc,
    h.clear, (rd_wr_ne s _ _ v (by decide)).trans h.cmd⟩

theorem ReleaseTaken.wrAfd {s : State} (h : ReleaseTaken s) (v : Nat) : ReleaseTaken (s.wr Fld.ISL_STATUS_AFD_ON v) :=
  ⟨(rd_wr_apart s _ _ v (by decide) (by decide) (by decide)).trans h.forced, (rd_wr_ne s _ _ v (by decide)).trans h.cmd⟩

/-- A write of φ. -/
theorem IslKept.wrPhi (s : State) (v : Int) : IslKept s (s.wrI Fld.ISL_PHI v) := (IslKept.refl s).wrI (by decide)

theorem ForceTaken.phiEval {s : State} (h : ForceTaken s) : ForceTaken (phiEval s) := by
  unfold Machine.phiEval
  split
  · split
    · exact (h.kept (.wrPhi s _)).wrAfd _
    · exact (h.kept ((IslKept.refl s).wr (by decide))).wrAfd _
  · extract_lets left x s1
    have h1 : ForceTaken s1 := ⟨h.forced, h.disc, h.clear, h.cmd⟩
    exact (h1.kept (.wrPhi s1 _)).wrAfd _

theorem ReleaseTaken.phiEval {s : State} (h : ReleaseTaken s) : ReleaseTaken (phiEval s) := by
  unfold Machine.phiEval
  split
  · split
    · exact (h.kept (.wrPhi s _)).wrAfd _
    · exact (h.kept ((IslKept.refl s).wr (by decide))).wrAfd _
  · extract_lets left x s1
    have h1 : ReleaseTaken s1 := ⟨h.forced, h.cmd⟩
    exact (h1.kept (.wrPhi s1 _)).wrAfd _

theorem rd_one_of_ne_zero {s : State} {f : FRef} (hf : f.ok) (hw : f.width = 1) (h : s.rd f ≠ 0) : s.rd f = 1 := by
  have hlt := rd_lt s f hf
  rw [hw] at hlt
  omega

theorem rd_own (s : State) (x : Island) (f : FRef) : { s with isl := x }.rd f = s.rd f := rfl

/-- After a cause has acted a disconnect is in force, whether one was before or not. -/
theorem disconnect_disc (cause anchor : Nat) (s : State) : (disconnect cause anchor s).rd Fld.ISL_STATUS_DISC = 1 := by
  unfold disconnect
  split
  · next h =>
    rw [rd_logEv s _ _ _ _ (by decide)]
    exact rd_one_of_ne_zero (by decide) rfl (of_decide_eq_true h)
  · rw [rd_logEv _ _ _ _ _ (by decide), rd_own]
    calc _ = (s.wr Fld.ISL_STATUS_DISC 1).rd Fld.ISL_STATUS_DISC :=
          (rd_wr_ne _ _ _ 1 (by decide)).trans (rd_wr_apart _ _ _ cause (by decide) (by decide) (by decide))
      _ = 1 := rd_wr_same s _ 1 (by decide)

/-- A cause writes no field of the status register but DISC and LAST_CAUSE. -/
theorem disconnect_rd (cause anchor : Nat) (s : State) {f : FRef} (hf : f.ok) (h : ∀ g ∈ [Fld.ISL_STATUS_DISC, Fld.ISL_STATUS_LAST_CAUSE], g.apart f)
    (hev : f.addr ≠ Reg.ISL_EVENTS) (hlog : f.addr ≠ Reg.LOG_STATUS) : (disconnect cause anchor s).rd f = s.rd f := by
  unfold disconnect
  split
  · exact rd_logEv s _ _ _ _ hlog
  · rw [rd_logEv _ _ _ _ _ hlog, rd_own]
    exact (rd_wr_ne _ _ _ 1 hev.symm).trans
      ((rd_wr_apart _ _ _ cause (by decide) hf (h _ (by simp))).trans (rd_wr_apart s _ _ 1 (by decide) hf (h _ (by simp))))

theorem islTake_force {s : State} (hm : s.rd Fld.ISL_STATUS_MODE ≠ 0) : ForceTaken (islTake 1 s) := by
  have hmode : islMode (s.wr Fld.ISL_CTRL_CMD 0) ≠ 0 := by
    rw [islMode, rd_wr_ne s _ _ 0 (by decide)]
    exact hm
  have hforced : ((s.wr Fld.ISL_CTRL_CMD 0).wr Fld.ISL_STATUS_OP_FORCED 1).rd Fld.ISL_STATUS_OP_FORCED = 1 := rd_wr_same _ _ 1 (by decide)
  have hcmd : ((s.wr Fld.ISL_CTRL_CMD 0).wr Fld.ISL_STATUS_OP_FORCED 1).rd Fld.ISL_CTRL_CMD = 0 :=
    (rd_wr_ne _ _ _ 1 (by decide)).trans (rd_wr_same s _ 0 (by decide))
  unfold islTake
  simp only
  rw [if_neg hmode]
  exact ⟨(disconnect_rd 8 0 _ (by decide) (by decide) (by decide) (by decide)).trans hforced, disconnect_disc 8 0 _, rfl,
    (disconnect_rd 8 0 _ (by decide) (by decide) (by decide) (by decide)).trans hcmd⟩

theorem islTake_release {s : State} (hm : s.rd Fld.ISL_STATUS_MODE ≠ 0) : ReleaseTaken (islTake 2 s) := by
  have hmode : islMode (s.wr Fld.ISL_CTRL_CMD 0) ≠ 0 := by
    rw [islMode, rd_wr_ne s _ _ 0 (by decide)]
    exact hm
  unfold islTake
  simp only
  rw [if_neg hmode]
  exact ⟨rd_wr_same _ _ 0 (by decide), (rd_wr_ne _ _ _ 0 (by decide)).trans (rd_wr_same s _ 0 (by decide))⟩

/-- While OP_FORCED is set the release conditions do not hold (R396). -/
theorem releaseOk_of_forced {s : State} (h : s.rd Fld.ISL_STATUS_OP_FORCED = 1) (cells : List CellIn) (fl : Tab CmpFlags) :
    releaseOk s cells fl = false := by simp [releaseOk, h]

/-- The frame tick of the islanding block takes the command that waits. -/
theorem islandFrame_takes {s : State} (hm : s.rd Fld.ISL_STATUS_MODE ≠ 0) :
    (s.rd Fld.ISL_CTRL_CMD = 1 → ForceTaken (islandFrame s)) ∧ (s.rd Fld.ISL_CTRL_CMD = 2 → ReleaseTaken (islandFrame s)) := by
  unfold islandFrame
  extract_lets hist x1 s1 s2 cells x2 acc s3 x3 s4 s5 s6 x4 s7
  have h2 : CmdWaits s s2 := CmdWaits.breakerCells ((CmdWaits.refl s).own)
  have hacc : CmdWaits s acc.2 := CmdWaits.takeCells _ (CmdWaits.own h2)
  clear_value acc
  have h3 : CmdWaits s s3 := hacc.armEval.armEval.modeEval
  have h5 : CmdWaits s s5 := CmdWaits.actCauses (CmdWaits.own h3)
  have htake : s.rd Fld.ISL_CTRL_CMD ≠ 0 → s6 = islTake (s.rd Fld.ISL_CTRL_CMD) s5 := fun hc => by
    simp only [s6, h5.cmd, if_neg hc]
  rw [if_neg (show ¬islMode s2 = 0 from h2.on hm)]
  clear_value s6 s5
  constructor
  · intro hc
    have h6 : ForceTaken s6 := by
      rw [htake (by omega), hc]
      exact islTake_force (h5.on hm)
    have h7 : ForceTaken s7 := ⟨h6.forced, h6.disc, if_neg (by simp [releaseOk_of_forced h6.forced]), h6.cmd⟩
    exact h7.phiEval
  · intro hc
    have h6 : ReleaseTaken s6 := by
      rw [htake (by omega), hc]
      exact islTake_release (h5.on hm)
    have h7 : ReleaseTaken s7 := ⟨h6.forced, h6.cmd⟩
    exact h7.phiEval

/-! ### The whole frame tick -/

/-- What the control die does at a frame tick before the islanding block has its turn. -/
def beforeIsland (s : State) : State :=
  forEach stages stageFrame (forEach (List.range 9) unitFrame
    (adcTick 3 0 (stretchAdc s (resumeFrame (pwmFrame (swapMissed (graceFrame s)))))))

theorem beforeIsland_kept (s : State) : IslKept s (beforeIsland s) :=
  ((IslKept.refl s).graceFrame.swapMissed.pwmFrame.resumeFrame.stretchAdc.adcTick.forEach fun _ _ _ h => h.unitFrame).forEach
    fun _ _ _ h => h.stageFrame

/-- What the rest of a frame tick does after the islanding block keeps what it has left. -/
theorem afterIsland_kept (sa sb : BitVec 32) (rb : BitVec 16) (ack : Bool) (s : State) :
    IslKept s (switchFrame (safetyScan sa sb rb ack (meterFrame (heartbeatFrame s)))) :=
  (IslKept.refl s).heartbeatFrame.meterFrame.safetyScan.switchFrame

theorem ticksRun_kept {s t : State} (h : IslKept s t) : ticksRun t = ticksRun s := by
  rw [ticksRun, ticksRun, State.rdB, State.rdB, State.rdB, State.rdB, h.rd Fld.SCHED_CFG_TICK_RUN (by decide),
    h.rd Fld.CLK_STATUS_CTRL_LOCK (by decide)]

theorem startFrame_kept (s : State) : IslKept s (perfFrame (timeFrame s)) := (IslKept.refl s).timeFrame.perfFrame

/-- While ticks run, the islanding block has its turn in the frame tick. -/
theorem frameTick_island {s : State} (sa sb : BitVec 32) (rb : BitVec 16) (ack : Bool) (h : ticksRun s = true) :
    frameTick sa sb rb ack s =
      switchFrame (safetyScan sa sb rb ack (meterFrame (heartbeatFrame (islandFrame (beforeIsland (perfFrame (timeFrame s))))))) :=
  congrArg switchFrame (if_pos ((ticksRun_kept (startFrame_kept s)).trans h))

/-- The frame tick takes the command that waits in ISL_CTRL, and nothing in it undoes what the command has brought (R402). -/
theorem frameTick_takes {s : State} (sa sb : BitVec 32) (rb : BitVec 16) (ack : Bool) (h : ticksRun s = true) (hm : s.rd Fld.ISL_STATUS_MODE ≠ 0) :
    (s.rd Fld.ISL_CTRL_CMD = 1 → ForceTaken (frameTick sa sb rb ack s)) ∧ (s.rd Fld.ISL_CTRL_CMD = 2 → ReleaseTaken (frameTick sa sb rb ack s)) := by
  rw [frameTick_island sa sb rb ack h]
  have hk : IslKept s (beforeIsland (perfFrame (timeFrame s))) := (startFrame_kept s).trans (beforeIsland_kept _)
  have hcmd := hk.rd Fld.ISL_CTRL_CMD (by decide)
  obtain ⟨hforce, hrelease⟩ := islandFrame_takes (hk.rd Fld.ISL_STATUS_MODE (by decide) ▸ hm)
  exact ⟨fun hc => (hforce (hcmd.trans hc)).kept (afterIsland_kept sa sb rb ack _),
    fun hc => (hrelease (hcmd.trans hc)).kept (afterIsland_kept sa sb rb ack _)⟩

end Sys2Proof.Machine
end
-- ==== Sys2Proof/Proofs/IslandCauses.lean ====
section
/-!
PROOFS. Proofs/IslandCauses.lean: the disconnect causes and the release of the islanding block: what a cause shows, and what it may change.
-/
namespace Sys2Proof.Machine

/-! ### One cause -/

/-- What a disconnect cause may change. -/
structure CauseFrame (s t : State) : Prop where
  rest : t = { s with regs := t.regs, log := t.log, isl := { s.isl with causes := t.isl.causes, clear := t.isl.clear } }
  regs : RegsKept [Reg.ISL_STATUS, Reg.ISL_EVENTS, Reg.LOG_STATUS] s t

theorem CauseFrame.refl (s : State) : CauseFrame s s := ⟨rfl, .refl _ s⟩

theorem CauseFrame.trans {s t u : State} (h : CauseFrame s t) (k : CauseFrame t u) : CauseFrame s u := by
  refine ⟨?_, fun a ha => (k.regs a ha).trans (h.regs a ha)⟩
  obtain ⟨h, -⟩ := h
  obtain ⟨k, -⟩ := k
  rw [h] at k
  exact k

theorem CauseFrame.wr {s t : State} (h : CauseFrame s t) {f : FRef} {v : Nat} (hf : f.addr ∈ [Reg.ISL_STATUS, Reg.ISL_EVENTS, Reg.LOG_STATUS]) :
    CauseFrame s (t.wr f v) := h.trans ⟨rfl, (RegsKept.refl _ t).wr hf⟩

theorem CauseFrame.clear {s t : State} (h : CauseFrame s t) {n : Nat} : CauseFrame s { t with isl := { t.isl with clear := n } } :=
  h.trans ⟨rfl, fun _ _ => rfl⟩

theorem CauseFrame.causes {s t : State} (h : CauseFrame s t) {n : Nat} : CauseFrame s { t with isl := { t.isl with causes := n } } :=
  h.trans ⟨rfl, fun _ _ => rfl⟩

theorem CauseFrame.logEv {s t : State} (h : CauseFrame s t) {source code datum : Nat} : CauseFrame s (t.logEv source code datum) :=
  h.trans ⟨by
    have hu := logEv_spec t source code datum
    generalize t.logEv source code datum = u at hu ⊢
    rw [hu], (RegsKept.refl _ t).logEv (by simp)⟩

theorem CauseFrame.disconnect {s t : State} (h : CauseFrame s t) {cause anchor : Nat} : CauseFrame s (disconnect cause anchor t) := by
  unfold Machine.disconnect
  split
  · exact h.logEv
  · exact (((h.wr (by decide)).wr (by decide)).wr (by decide)).clear.logEv

theorem CauseFrame.causeOnce {s t : State} (h : CauseFrame s t) {cause anchor : Nat} : CauseFrame s (causeOnce cause anchor t) := by
  unfold Machine.causeOnce
  split
  · exact h
  · exact h.causes.disconnect

theorem disconnect_causes (cause anchor : Nat) (s : State) : (disconnect cause anchor s).isl.causes = s.isl.causes := by
  unfold disconnect
  split
  · rw [logEv_spec]
  · rw [logEv_spec]
    rfl

/-- A cause that finds no disconnect in force is the one that is shown (R390). -/
theorem disconnect_first {cause anchor : Nat} {s : State} (hc : cause < 16) (h : s.rd Fld.ISL_STATUS_DISC = 0) :
    (disconnect cause anchor s).rd Fld.ISL_STATUS_LAST_CAUSE = cause ∧ (disconnect cause anchor s).rd Fld.ISL_EVENTS_DISC_EV = 1 := by
  unfold disconnect
  rw [if_neg (by simp [h]), rd_logEv _ _ _ _ _ (by decide), rd_logEv _ _ _ _ _ (by decide), rd_own, rd_own]
  refine ⟨?_, rd_wr_same _ _ 1 (by decide)⟩
  rw [rd_wr_ne _ _ _ 1 (by decide), rd_wr_same _ _ _ (by decide)]
  exact Nat.mod_eq_of_lt hc

/-- With a disconnect in force a cause is only logged. -/
theorem disconnect_later {cause anchor : Nat} {s : State} (h : s.rd Fld.ISL_STATUS_DISC ≠ 0) :
    disconnect cause anchor s = s.logEv 0x15 0x0001 (cause + 256 * anchor + 512) := if_pos (by simpa using h)

/-- A cause that acts logs once, as of the state in which it acts. -/
theorem disconnect_log (cause anchor : Nat) (s : State) :
    (disconnect cause anchor s).log = (s.logEv 0x15 1 (cause + 256 * anchor + (if s.rd Fld.ISL_STATUS_DISC = 0 then 0 else 512))).log := by
  by_cases h : s.rd Fld.ISL_STATUS_DISC = 0
  · unfold disconnect
    rw [if_neg (by simp [h]), if_pos h]
    refine logEv_log_of_eq _ _ _ rfl rfl rfl rfl ?_
    exact (reg_wr_ne _ 1 (by decide)).trans ((reg_wr_ne _ cause (by decide)).trans (reg_wr_ne s 1 (by decide)))
  · rw [disconnect_later h, if_neg h]

/-- A cause that acts in a state with the registers and the log of `s` (R388, R390). -/
theorem disconnect_acts {cause anchor : Nat} (hc : cause < 16) {s u : State} (hregs : u.regs = s.regs) (hlog : u.log = s.log) (hlan : u.lan = s.lan)
    (htime : u.time = s.time) (hcycle : u.cycle = s.cycle + 1) : DisconnectActs cause anchor s (disconnect cause anchor u) := by
  have hreg (a : Nat) : u.reg a = s.reg a := by rw [State.reg, State.reg, hregs]
  have hdisc : u.rd Fld.ISL_STATUS_DISC = s.rd Fld.ISL_STATUS_DISC := rd_congr _ (hreg _)
  have hlast : u.rd Fld.ISL_STATUS_LAST_CAUSE = s.rd Fld.ISL_STATUS_LAST_CAUSE := rd_congr _ (hreg _)
  refine ⟨disconnect_disc _ _ _, ?_, fun h => (disconnect_first hc (hdisc.trans h)).2, ?_⟩
  · split
    · next h => exact (disconnect_first hc (hdisc.trans h)).1
    · next h =>
      rw [disconnect_later (hdisc ▸ h), rd_logEv _ _ _ _ _ (by decide)]
      exact hlast
  · rw [Logged, disconnect_log, hdisc]
    exact logEv_log_of_eq _ _ _ hlog hlan htime hcycle (hreg _)

/-! ### A cause that is logged once (R388) -/

/-- A cause that has been taken already, while its disconnect is in force. -/
abbrev causeKnown (cause : Nat) (s : State) : Bool := s.isl.causes.testBit cause && s.rdB Fld.ISL_STATUS_DISC

theorem causeOnce_known {cause anchor : Nat} {s : State} (h : causeKnown cause s = true) : causeOnce cause anchor s = s := if_pos h

theorem causeOnce_new {cause anchor : Nat} {s : State} (h : causeKnown cause s = false) :
    causeOnce cause anchor s = disconnect cause anchor { s with isl := { s.isl with causes := setBitOf s.isl.causes cause true } } :=
  if_neg (Bool.eq_false_iff.mp h)

theorem causeOnce_disc (cause anchor : Nat) (s : State) : (causeOnce cause anchor s).rd Fld.ISL_STATUS_DISC = 1 := by
  cases h : causeKnown cause s with
  | false =>
    rw [causeOnce_new h]
    exact disconnect_disc _ _ _
  | true =>
    rw [causeOnce_known h]
    exact rd_one_of_ne_zero (by decide) rfl (of_decide_eq_true (Bool.and_eq_true_iff.mp h).2)

theorem causeOnce_testBit (cause anchor i : Nat) (s : State) :
    (causeOnce cause anchor s).isl.causes.testBit i = (decide (i = cause) || s.isl.causes.testBit i) := by
  cases h : causeKnown cause s with
  | false =>
    rw [causeOnce_new h, disconnect_causes, setBitOf_testBit]
    by_cases hi : i = cause <;> simp [hi]
  | true =>
    rw [causeOnce_known h]
    by_cases hi : i = cause
    · subst hi
      simp [(Bool.and_eq_true_iff.mp h).1]
    · simp [hi]

/-- A cause that finds no disconnect in force is the one that is shown. -/
theorem causeOnce_first {cause anchor : Nat} {s : State} (hc : cause < 16) (h : s.rd Fld.ISL_STATUS_DISC = 0) :
    (causeOnce cause anchor s).rd Fld.ISL_STATUS_LAST_CAUSE = cause ∧ (causeOnce cause anchor s).rd Fld.ISL_EVENTS_DISC_EV = 1 := by
  rw [causeOnce_new (by simp [causeKnown, h])]
  exact disconnect_first hc h

/-- A cause that finds one in force leaves what is shown. -/
theorem causeOnce_later {cause anchor : Nat} {s : State} (h : s.rd Fld.ISL_STATUS_DISC ≠ 0) {f : FRef} (hf : f.addr ≠ Reg.LOG_STATUS) :
    (causeOnce cause anchor s).rd f = s.rd f := by
  cases hk : causeKnown cause s with
  | false =>
    rw [causeOnce_new hk, disconnect_later ((rd_own s _ _).symm ▸ h), rd_logEv _ _ _ _ _ hf]
    rfl
  | true => rw [causeOnce_known hk]

/-! ### The criteria of the fallback mode (R392, R394) -/

/-- A criterion that brings in its own cause. -/
theorem criterion_acts {cause : Nat} (hc : cause < 16) {s : State} (h : causeKnown cause s = false) :
    DisconnectActs cause 0 s (causeOnce cause 0 (ticked s)) ∧ (causeOnce cause 0 (ticked s)).isl.causes.testBit cause = true := by
  refine ⟨?_, by simp [causeOnce_testBit]⟩
  rw [causeOnce_new (s := ticked s) h]
  exact disconnect_acts hc rfl rfl rfl rfl rfl

theorem rocofCriterion_acts (s : State) :
    let due := s.rdB Fld.ISL_CFG_ROCOF_EN && decide (s.rd Fld.ISL_STATUS_MODE = 1) && decide (max 1 (50 * s.rd Fld.ISL_FB_TIME_ROCOF_T) ≤ s.isl.rocof) &&
      !(s.isl.causes.testBit 5 && s.rdB Fld.ISL_STATUS_DISC)
    Does .rocofCriterion s fun t =>
      (due = true → DisconnectActs 5 0 s t ∧ t.isl.causes.testBit 5 = true) ∧ (due = false → t = { s with cycle := s.cycle + 1 }) ∧
      t = { s with cycle := s.cycle + 1, regs := t.regs, log := t.log, isl := { s.isl with causes := t.isl.causes, clear := t.isl.clear } } ∧
      RegsKept [Reg.ISL_STATUS, Reg.ISL_EVENTS, Reg.LOG_STATUS] s t := by
  intro due
  have hdue : due = (rocofDue (ticked s) && !causeKnown 5 s) := rfl
  refine ⟨if rocofDue (ticked s) then causeOnce 5 0 (ticked s) else ticked s, rfl, ?_⟩
  cases hr : rocofDue (ticked s) with
  | false =>
    rw [if_neg Bool.false_ne_true]
    rw [hr, Bool.false_and] at hdue
    exact ⟨fun h => absurd (hdue.symm.trans h) Bool.false_ne_true, fun _ => rfl, rfl, .refl _ s⟩
  | true =>
    rw [if_pos rfl]
    rw [hr, Bool.true_and] at hdue
    obtain ⟨hrest, hregs⟩ := (CauseFrame.refl (ticked s)).causeOnce (cause := 5) (anchor := 0)
    exact ⟨fun h => criterion_acts (by decide) ((Bool.not_eq_true' _).mp (hdue.symm.trans h)),
      fun h => causeOnce_known (s := ticked s) ((Bool.not_eq_false' _).mp (hdue.symm.trans h)), hrest, hregs⟩

/-- Both criteria act in one command, ROCOF first. -/
theorem bothCriteria_act (s : State) :
    let t := causeOnce 7 0 (causeOnce 5 0 s)
    t.rd Fld.ISL_STATUS_DISC = 1 ∧ t.isl.causes.testBit 5 = true ∧ t.isl.causes.testBit 7 = true ∧
      t.rd Fld.ISL_STATUS_LAST_CAUSE = (if s.rd Fld.ISL_STATUS_DISC = 0 then 5 else s.rd Fld.ISL_STATUS_LAST_CAUSE) := by
  have h5 : (causeOnce 5 0 s).rd Fld.ISL_STATUS_DISC ≠ 0 := by rw [causeOnce_disc]; decide
  refine ⟨causeOnce_disc _ _ _, by simp [causeOnce_testBit], by simp [causeOnce_testBit], ?_⟩
  rw [causeOnce_later h5 (by decide)]
  split
  · next h => exact (causeOnce_first (by decide) h).1
  · next h => exact causeOnce_later h (by decide)

theorem afdCriterion_acts (s : State) :
    let rocof := s.rdB Fld.ISL_CFG_ROCOF_EN && decide (max 1 (50 * s.rd Fld.ISL_FB_TIME_ROCOF_T) ≤ s.isl.rocof)
    let due := s.rdB Fld.ISL_STATUS_AFD_ON && decide (s.rd Fld.ISL_STATUS_MODE = 1) && decide (max 1 (50 * s.rd Fld.ISL_FB_TIME_AFD_T) ≤ s.isl.afd)
    let known := s.isl.causes.testBit 7 && s.rdB Fld.ISL_STATUS_DISC
    Does .afdCriterion s fun t =>
      (due = true → rocof = false → known = false → DisconnectActs 7 0 s t ∧ t.isl.causes.testBit 7 = true) ∧
      (due = true → rocof = true → t.rd Fld.ISL_STATUS_DISC = 1 ∧ t.isl.causes.testBit 5 = true ∧ t.isl.causes.testBit 7 = true ∧
        t.rd Fld.ISL_STATUS_LAST_CAUSE = (if s.rd Fld.ISL_STATUS_DISC = 0 then 5 else s.rd Fld.ISL_STATUS_LAST_CAUSE)) ∧
      (due = false ∨ (rocof = false ∧ known = true) → t = { s with cycle := s.cycle + 1 }) ∧
      t = { s with cycle := s.cycle + 1, regs := t.regs, log := t.log, isl := { s.isl with causes := t.isl.causes, clear := t.isl.clear } } ∧
      RegsKept [Reg.ISL_STATUS, Reg.ISL_EVENTS, Reg.LOG_STATUS] s t := by
  intro rocof due known
  have hdue : afdDue (ticked s) = due := congrArg (· && _) (Bool.and_comm _ _)
  have hrocof : due = true → rocofDue (ticked s) = rocof := fun h => by
    have hmode : decide (s.rd Fld.ISL_STATUS_MODE = 1) = true := (Bool.and_eq_true_iff.mp (Bool.and_eq_true_iff.mp h).1).2
    change (s.rdB Fld.ISL_CFG_ROCOF_EN && decide (s.rd Fld.ISL_STATUS_MODE = 1) && _) = _
    rw [hmode, Bool.and_true]
    rfl
  refine ⟨if afdDue (ticked s) then causeOnce 7 0 (if rocofDue (ticked s) then causeOnce 5 0 (ticked s) else ticked s) else ticked s, rfl, ?_⟩
  rw [hdue]
  cases hd : due with
  | false =>
    rw [if_neg Bool.false_ne_true]
    exact ⟨nofun, nofun, fun _ => rfl, rfl, .refl _ s⟩
  | true =>
    rw [if_pos rfl, hrocof hd]
    cases hr : rocof with
    | false =>
      rw [if_neg Bool.false_ne_true]
      obtain ⟨hrest, hregs⟩ := (CauseFrame.refl (ticked s)).causeOnce (cause := 7) (anchor := 0)
      refine ⟨fun _ _ hk => criterion_acts (by decide) hk, nofun, fun h => ?_, hrest, hregs⟩
      obtain ⟨-, hk⟩ := h.resolve_left nofun
      exact causeOnce_known (s := ticked s) hk
    | true =>
      rw [if_pos rfl]
      obtain ⟨hrest, hregs⟩ := ((CauseFrame.refl (ticked s)).causeOnce (cause := 5) (anchor := 0)).causeOnce (cause := 7) (anchor := 0)
      exact ⟨nofun, fun _ _ => bothCriteria_act (ticked s), fun h => absurd h (by simp), hrest, hregs⟩

/-! ### The release (R396) -/

theorem islRelease_releases (s : State) :
    let due := s.rdB Fld.ISL_STATUS_DISC && decide (s.rd Fld.ISL_STATUS_MODE ≠ 0) && decide (5000 * max 1 (s.rd Fld.ISL_TIME_CLR_DELAY) ≤ s.isl.clear)
    Does .islRelease s fun t =>
      (due = true → t.rd Fld.ISL_STATUS_DISC = 0 ∧ t.rd Fld.ISL_EVENTS_RELEASE_EV = 1 ∧ Logged 0x15 2 (s.rd Fld.ISL_STATUS_LAST_CAUSE) s t ∧
        BitsKept Reg.ISL_STATUS [Fld.ISL_STATUS_DISC] s t) ∧
      (due = false → t = { s with cycle := s.cycle + 1 }) ∧
      t = { s with cycle := s.cycle + 1, regs := t.regs, log := t.log } ∧ RegsKept [Reg.ISL_STATUS, Reg.ISL_EVENTS, Reg.LOG_STATUS] s t := by
  intro due
  have hdue : (s.rdB Fld.ISL_STATUS_DISC && decide (s.rd Fld.ISL_STATUS_MODE ≠ 0 ∧ 5000 * max 1 (s.rd Fld.ISL_TIME_CLR_DELAY) ≤ s.isl.clear)) = due := by
    simp only [due, Bool.decide_and, Bool.and_assoc]
  refine ⟨if (s.rdB Fld.ISL_STATUS_DISC && decide (s.rd Fld.ISL_STATUS_MODE ≠ 0 ∧ 5000 * max 1 (s.rd Fld.ISL_TIME_CLR_DELAY) ≤ s.isl.clear)) = true
    then discFalls (ticked s) else ticked s, rfl, ?_⟩
  rw [hdue]
  cases due with
  | false => exact ⟨nofun, fun _ => rfl, rfl, .refl _ s⟩
  | true =>
    rw [if_pos rfl]
    have hregs : RegsKept [Reg.ISL_STATUS, Reg.ISL_EVENTS, Reg.LOG_STATUS] s (discFalls (ticked s)) :=
      (((RegsKept.refl _ (ticked s)).wr (by simp)).wr (by simp)).logEv (by simp)
    refine ⟨fun _ => ⟨?_, ?_, ?_, fun n hn hout => ?_⟩, nofun, logEv_spec _ _ _ _, hregs⟩
    · exact (rd_logEv _ _ _ _ _ (by decide)).trans ((rd_wr_ne _ _ _ 1 (by decide)).trans (rd_wr_same _ _ 0 (by decide)))
    · exact (rd_logEv _ _ _ _ _ (by decide)).trans (rd_wr_same _ _ 1 (by decide))
    · exact logEv_log_of_eq _ _ _ rfl rfl rfl rfl ((reg_wr_ne _ 1 (by decide)).trans (reg_wr_ne (ticked s) 0 (by decide)))
    · have hreg : (discFalls (ticked s)).reg Reg.ISL_STATUS = ((ticked s).wr Fld.ISL_STATUS_DISC 0).reg Reg.ISL_STATUS :=
        (reg_logEv _ _ _ _ (by decide)).trans (reg_wr_ne _ 1 (by decide))
      rw [hreg]
      exact bitsKept_wr (ticked s) Fld.ISL_STATUS_DISC (by decide) 0 n hn hout

/-! ### An anchor's own breaker and grid (R380, R381) -/

theorem breakerChange_off {s : State} (h : s.rd Fld.CS_ROLE_ROLE_IN_FORCE = 0 ∨ s.rd Fld.SCHED_CFG_TICK_RUN = 0) :
    Does .breakerChange s fun t => t = { s with cycle := s.cycle + 1 } := by
  have hoff : ¬(s.rdB Fld.CS_ROLE_ROLE_IN_FORCE && s.rdB Fld.SCHED_CFG_TICK_RUN) = true := by
    rcases h with h | h <;> simp [h]
  exact ⟨_, rfl, if_neg hoff⟩

/-- The breaker and the grid as they show now, logged where the breaker has changed. -/
def breakerShown (brk dead : Bool) (s : State) : State :=
  when (brk != s.rdB Fld.ISL_PUB_BRK_OPEN) (fun s => s.logEv 0x15 0x0008 brk.toNat)
    ((s.wrB Fld.ISL_PUB_BRK_OPEN brk).wrB Fld.ISL_PUB_GRID_DEAD dead)

theorem breakerShown_spec (brk dead : Bool) (s : State) :
    (breakerShown brk dead s).rdB Fld.ISL_PUB_BRK_OPEN = brk ∧ (breakerShown brk dead s).rdB Fld.ISL_PUB_GRID_DEAD = dead ∧
      breakerShown brk dead s = { s with regs := (breakerShown brk dead s).regs, log := (breakerShown brk dead s).log } ∧
      RegsKept [Reg.ISL_PUB, Reg.LOG_STATUS] s (breakerShown brk dead s) := by
  have hb : ((s.wrB Fld.ISL_PUB_BRK_OPEN brk).wrB Fld.ISL_PUB_GRID_DEAD dead).rdB Fld.ISL_PUB_BRK_OPEN = brk := by
    refine rdB_of_rd ((rd_wr_apart _ _ _ _ (by decide) (by decide) (by decide)).trans ((rd_wr_same _ _ _ (by decide)).trans ?_))
    cases brk <;> rfl
  have hd : ((s.wrB Fld.ISL_PUB_BRK_OPEN brk).wrB Fld.ISL_PUB_GRID_DEAD dead).rdB Fld.ISL_PUB_GRID_DEAD = dead := by
    refine rdB_of_rd ((rd_wr_same _ _ _ (by decide)).trans ?_)
    cases dead <;> rfl
  have hregs : RegsKept [Reg.ISL_PUB, Reg.LOG_STATUS] s ((s.wrB Fld.ISL_PUB_BRK_OPEN brk).wrB Fld.ISL_PUB_GRID_DEAD dead) :=
    ((RegsKept.refl _ s).wr (by simp)).wr (by simp)
  unfold breakerShown
  cases brk != s.rdB Fld.ISL_PUB_BRK_OPEN with
  | false => exact ⟨hb, hd, rfl, hregs⟩
  | true =>
    exact ⟨(rdB_congr _ (reg_logEv _ _ _ _ (by decide))).trans hb, (rdB_congr _ (reg_logEv _ _ _ _ (by decide))).trans hd, logEv_spec _ _ _ _,
      hregs.logEv (by simp)⟩

/-- The node's own direct transfer trips: code 1 where its breaker opens, code 2 where its grid dies. -/
def ownTrips (opens dies : Bool) (s : State) : State := when dies (causeOnce 2 0) (when opens (causeOnce 1 0) s)

theorem ownTrips_frame (opens dies : Bool) (s : State) : CauseFrame s (ownTrips opens dies s) := by
  cases opens <;> cases dies
  · exact .refl s
  · exact (CauseFrame.refl s).causeOnce
  · exact (CauseFrame.refl s).causeOnce
  · exact (CauseFrame.refl s).causeOnce.causeOnce

/-- The trip of the lower code is the one that comes into force. -/
theorem ownTrips_acts {opens dies : Bool} (h : (opens || dies) = true) (s : State) :
    (ownTrips opens dies s).rd Fld.ISL_STATUS_DISC = 1 ∧ (s.rd Fld.ISL_STATUS_DISC = 0 →
      (ownTrips opens dies s).rd Fld.ISL_STATUS_LAST_CAUSE = (if opens then 1 else 2) ∧ (ownTrips opens dies s).rd Fld.ISL_EVENTS_DISC_EV = 1) := by
  cases opens with
  | false =>
    obtain rfl : dies = true := h
    exact ⟨causeOnce_disc _ _ _, causeOnce_first (by decide)⟩
  | true =>
    cases dies with
    | false => exact ⟨causeOnce_disc _ _ _, causeOnce_first (by decide)⟩
    | true =>
      refine ⟨causeOnce_disc _ _ _, fun h0 => ?_⟩
      have h1 : (causeOnce 1 0 s).rd Fld.ISL_STATUS_DISC ≠ 0 := by rw [causeOnce_disc]; decide
      obtain ⟨hlast, hev⟩ := causeOnce_first (cause := 1) (anchor := 0) (by decide) h0
      exact ⟨(causeOnce_later h1 (by decide)).trans hlast, (causeOnce_later h1 (by decide)).trans hev⟩

/-- A rise asks for three breaker cells (R381). -/
def cellsAsked (rises : Bool) (s : State) : State := if rises then { s with isl := { s.isl with brkLeft := 3 } } else s

theorem cellsAsked_eq (rises : Bool) (s : State) :
    cellsAsked rises s = { s with isl := { s.isl with brkLeft := if rises then 3 else s.isl.brkLeft } } := by cases rises <;> rfl

/-- What a rise brings: three breaker cells, and the trips unless the block is OFF. -/
def breakerRises (opens dies : Bool) (s : State) : State :=
  if islMode (cellsAsked (opens || dies) s) = 0 then cellsAsked (opens || dies) s else ownTrips opens dies (cellsAsked (opens || dies) s)

theorem breakerRises_cases (opens dies : Bool) (s : State) :
    (s.rd Fld.ISL_STATUS_MODE = 0 → breakerRises opens dies s = cellsAsked (opens || dies) s) ∧
      (s.rd Fld.ISL_STATUS_MODE ≠ 0 → breakerRises opens dies s = ownTrips opens dies (cellsAsked (opens || dies) s)) := by
  have hmode : islMode (cellsAsked (opens || dies) s) = s.rd Fld.ISL_STATUS_MODE := by
    rw [cellsAsked_eq]
    rfl
  exact ⟨fun h => if_pos (hmode.trans h), fun h => if_neg (hmode ▸ h)⟩

theorem breakerRises_frame (opens dies : Bool) (s : State) : CauseFrame (cellsAsked (opens || dies) s) (breakerRises opens dies s) := by
  obtain ⟨hoff, hon⟩ := breakerRises_cases opens dies s
  by_cases hm : s.rd Fld.ISL_STATUS_MODE = 0
  · rw [hoff hm]
    exact .refl _
  · rw [hon hm]
    exact ownTrips_frame opens dies _

/-- With neither rise, or with the block OFF, the status is as it was. -/
theorem breakerRises_status {opens dies : Bool} {s : State} (h : (opens || dies) = false ∨ s.rd Fld.ISL_STATUS_MODE = 0) (a : Nat) :
    (breakerRises opens dies s).reg a = s.reg a := by
  obtain ⟨hoff, hon⟩ := breakerRises_cases opens dies s
  by_cases hm : s.rd Fld.ISL_STATUS_MODE = 0
  · rw [hoff hm, cellsAsked_eq]
    rfl
  · rw [hon hm, cellsAsked_eq]
    obtain ⟨rfl, rfl⟩ : opens = false ∧ dies = false := by simpa using h.resolve_right hm
    rfl

/-- A rise, as it acts on the state in which the breaker and the grid are shown. -/
theorem breakerRises_acts {opens dies : Bool} {s : State} (h : (opens || dies) = true) (hm : s.rd Fld.ISL_STATUS_MODE ≠ 0) :
    (breakerRises opens dies s).rd Fld.ISL_STATUS_DISC = 1 ∧ (s.rd Fld.ISL_STATUS_DISC = 0 →
      (breakerRises opens dies s).rd Fld.ISL_STATUS_LAST_CAUSE = (if opens then 1 else 2) ∧
      (breakerRises opens dies s).rd Fld.ISL_EVENTS_DISC_EV = 1) := by
  rw [(breakerRises_cases opens dies s).2 hm, cellsAsked_eq]
  exact ownTrips_acts h _

/-- The PCC unit shows a dead grid (R380). -/
abbrev gridDead (s : State) : Bool := !s.rdB (Fld.GS_STATUS_LOCKED 8) || decide (s.rdI (Fld.GS_FT_V1 8) < halfPu)

theorem exec_breakerChange {s : State} (h : (s.rdB Fld.CS_ROLE_ROLE_IN_FORCE && s.rdB Fld.SCHED_CFG_TICK_RUN) = true) :
    exec .breakerChange s = .next (breakerRises (!s.bit Fld.SIN_RUN (s.rd Fld.ISL_MAP_BRK_IN) && !s.rdB Fld.ISL_PUB_BRK_OPEN)
      (gridDead s && !s.rdB Fld.ISL_PUB_GRID_DEAD) (breakerShown (!s.bit Fld.SIN_RUN (s.rd Fld.ISL_MAP_BRK_IN)) (gridDead s) (ticked s))) :=
  congrArg Host.Outcome.next (if_pos h)

theorem breakerChange_on {s : State} (hrole : s.rd Fld.CS_ROLE_ROLE_IN_FORCE = 1) (hrun : s.rd Fld.SCHED_CFG_TICK_RUN = 1) :
    let open' := !s.bit Fld.SIN_RUN (s.rd Fld.ISL_MAP_BRK_IN)
    let dead := decide (s.rd (Fld.GS_STATUS_LOCKED 8) = 0) || decide (s.rdI (Fld.GS_FT_V1 8) < 2 ^ 29)
    let opens := open' && !s.rdB Fld.ISL_PUB_BRK_OPEN
    let rises := opens || (dead && !s.rdB Fld.ISL_PUB_GRID_DEAD)
    Does .breakerChange s fun t =>
      t.rdB Fld.ISL_PUB_BRK_OPEN = open' ∧ t.rdB Fld.ISL_PUB_GRID_DEAD = dead ∧
      t.isl.brkLeft = (if rises then 3 else s.isl.brkLeft) ∧
      (rises = true → s.rd Fld.ISL_STATUS_MODE ≠ 0 → t.rd Fld.ISL_STATUS_DISC = 1 ∧ (s.rd Fld.ISL_STATUS_DISC = 0 →
        t.rd Fld.ISL_STATUS_LAST_CAUSE = (if opens then 1 else 2) ∧ t.rd Fld.ISL_EVENTS_DISC_EV = 1)) ∧
      (rises = false ∨ s.rd Fld.ISL_STATUS_MODE = 0 → t.reg Reg.ISL_STATUS = s.reg Reg.ISL_STATUS ∧ t.reg Reg.ISL_EVENTS = s.reg Reg.ISL_EVENTS) ∧
      t = { s with cycle := s.cycle + 1, regs := t.regs, log := t.log,
                   isl := { s.isl with brkLeft := t.isl.brkLeft, causes := t.isl.causes, clear := t.isl.clear } } ∧
      RegsKept [Reg.ISL_PUB, Reg.ISL_STATUS, Reg.ISL_EVENTS, Reg.LOG_STATUS] s t := by
  intro open' dead opens rises
  have hdead : gridDead s = dead := congrArg₂ (· || ·) (by simp) (decide_eq_decide.mpr (by norm_num [halfPu]))
  refine ⟨breakerRises opens (dead && !s.rdB Fld.ISL_PUB_GRID_DEAD) (breakerShown open' dead (ticked s)), ?_, ?_⟩
  · rw [exec_breakerChange (by simp [hrole, hrun]), hdead]
  obtain ⟨hb, hd, hrest, hregs⟩ := breakerShown_spec open' dead (ticked s)
  generalize breakerShown open' dead (ticked s) = u at *
  obtain ⟨hfrest, hfregs⟩ := breakerRises_frame opens (dead && !s.rdB Fld.ISL_PUB_GRID_DEAD) u
  have hstatus := breakerRises_status (opens := opens) (dies := dead && !s.rdB Fld.ISL_PUB_GRID_DEAD) (s := u)
  have hacts := breakerRises_acts (opens := opens) (dies := dead && !s.rdB Fld.ISL_PUB_GRID_DEAD) (s := u)
  generalize breakerRises opens (dead && !s.rdB Fld.ISL_PUB_GRID_DEAD) u = t at *
  rw [cellsAsked_eq] at hfrest hfregs
  have hureg (a : Nat) (ha : a ∉ [Reg.ISL_PUB, Reg.LOG_STATUS]) : u.reg a = s.reg a := hregs a ha
  have hpub : t.reg Reg.ISL_PUB = u.reg Reg.ISL_PUB := hfregs _ (by decide)
  have huisl : u.isl = s.isl := by rw [hrest]; rfl
  have humode : u.rd Fld.ISL_STATUS_MODE = s.rd Fld.ISL_STATUS_MODE := rd_congr _ (hureg _ (by decide))
  have hudisc : u.rd Fld.ISL_STATUS_DISC = s.rd Fld.ISL_STATUS_DISC := rd_congr _ (hureg _ (by decide))
  rw [humode] at hstatus hacts
  rw [hudisc] at hacts
  refine ⟨(rdB_congr _ hpub).trans hb, (rdB_congr _ hpub).trans hd, ?_, hacts, fun h => ?_, ?_, fun a ha => ?_⟩
  · rw [hfrest, ← huisl]
  · exact ⟨(hstatus h _).trans (hureg _ (by decide)), (hstatus h _).trans (hureg _ (by decide))⟩
  · have hleft : t.isl.brkLeft = if rises then 3 else u.isl.brkLeft := by rw [hfrest]
    rw [hleft]
    rw [hrest] at hfrest
    exact hfrest.trans (by rw [huisl]; rfl)
  · simp only [List.mem_cons, List.not_mem_nil, or_false, not_or] at ha
    obtain ⟨hpub, hstatus, hevents, hlog⟩ := ha
    exact (hfregs a (by simp [hstatus, hevents, hlog])).trans (hureg a (by simp [hpub, hlog]))

end Sys2Proof.Machine
end
-- ==== Sys2Proof/Proofs/IslandCells.lean ====
section
/-!
PROOFS. Proofs/IslandCells.lean: the phasor cells of the islanding block, sent and received, the anchors that fall silent, and the commands that wait.
-/
namespace Sys2Proof.Machine

/-! ### Anchors -/

theorem anc_setAnc_same (s : State) (a : Nat) (x : Anchor) : (s.setAnc a x).anc a = x := Tab.get_set_same _ _ _ _

theorem anc_setAnc_ne (s : State) {a b : Nat} (x : Anchor) (h : b ≠ a) : (s.setAnc a x).anc b = s.anc b := Tab.get_set_ne _ _ _ _ h.symm

/-! ### A cell received (R382) -/

/-- The anchor of a cell: the first of the two that is bound to its sender. -/
def cellAnchor (c : AncCell) (s : State) : Option Nat := [0, 1].find? (fun a => bound s a && anchorId s a == c.ancId)

theorem anchorCellRx_ignored {c : AncCell} {s : State} (h : s.rd Fld.ISL_CFG_EN = 0 ∨ cellAnchor c s = none) : anchorCellRx c s = s := by
  unfold anchorCellRx
  split
  · rfl
  · next hen =>
    have hnone : cellAnchor c s = none := h.resolve_left (by simpa using hen)
    rw [show [0, 1].find? _ = none from hnone]

theorem cellAnchor_none {c : AncCell} {s : State}
    (h0 : s.rd Fld.ISL_CFG_ANC0_EN = 0 ∨ s.rd Fld.ISL_ANC_ANC0_ID ≠ c.ancId) (h1 : s.rd Fld.ISL_CFG_ANC1_EN = 0 ∨ s.rd Fld.ISL_ANC_ANC1_ID ≠ c.ancId) :
    cellAnchor c s = none := by
  have h0' : (bound s 0 && anchorId s 0 == c.ancId) = false := by
    rcases h0 with h | h <;> simp [bound, anchorId, h]
  have h1' : (bound s 1 && anchorId s 1 == c.ancId) = false := by
    rcases h1 with h | h <;> simp [bound, anchorId, h]
  simp [cellAnchor, List.find?, h0', h1']

theorem cellAnchor_first {c : AncCell} {s : State} (hen : s.rd Fld.ISL_CFG_ANC0_EN = 1) (hid : s.rd Fld.ISL_ANC_ANC0_ID = c.ancId) :
    cellAnchor c s = some 0 := by
  have h0 : (bound s 0 && anchorId s 0 == c.ancId) = true := by simp [bound, anchorId, hen, hid]
  simp [cellAnchor, List.find?, h0]

theorem cellAnchor_second {c : AncCell} {s : State} (hen : s.rd Fld.ISL_CFG_ANC1_EN = 1) (hid : s.rd Fld.ISL_ANC_ANC1_ID = c.ancId)
    (h0 : s.rd Fld.ISL_CFG_ANC0_EN = 0) : cellAnchor c s = some 1 := by
  have h0' : (bound s 0 && anchorId s 0 == c.ancId) = false := by simp [bound, h0]
  have h1 : (bound s 1 && anchorId s 1 == c.ancId) = true := by simp [bound, anchorId, hen, hid]
  simp [cellAnchor, List.find?, h0', h1]

/-- This node's own angle at the frame of a cell, where it is held. -/
def ownAngle (c : AncCell) (s : State) : Option Nat :=
  if fnDiff s.fn c.fn < 256 then (match s.isl.hist[fnDiff s.fn c.fn]? with | some h => if h.2.2 then some h.1 else none | none => none) else none

/-- A cell of anchor `a` waits for the frame tick. -/
def cellHeld (a : Nat) (c : AncCell) (s : State) : State :=
  { s with isl := { s.isl with
    anchors := Tab.set restAnchor s.isl.anchors a { s.anc a with seen := ((c.fn, c.dtt) :: (s.anc a).seen).take 64 }
    cells := s.isl.cells ++ [{ anchor := a, cell := c, age := fnDiff s.fn c.fn, own := ownAngle c s }] } }

theorem anchorCellRx_of_anchor {c : AncCell} {s : State} {a : Nat} (hen : s.rd Fld.ISL_CFG_EN = 1) (ha : cellAnchor c s = some a) :
    anchorCellRx c s = if (s.anc a).seen.contains (c.fn, c.dtt) then s else cellHeld a c s := by
  unfold anchorCellRx
  rw [if_neg (by simp [hen]), show [0, 1].find? _ = some a from ha]
  rfl

/-- The first copy of a cell of a bound anchor waits; a further copy is ignored. -/
theorem anchorCellRx_waits {c : AncCell} {s : State} {a : Nat} (hen : s.rd Fld.ISL_CFG_EN = 1) (ha : cellAnchor c s = some a) :
    (if (s.anc a).seen.contains (c.fn, c.dtt) then (anchorCellRx c s).isl = s.isl
     else (anchorCellRx c s).isl.cells.map (fun x => (x.anchor, x.cell, x.age)) =
        s.isl.cells.map (fun x => (x.anchor, x.cell, x.age)) ++ [(a, c, fnDiff s.fn c.fn)] ∧
      ((anchorCellRx c s).anc a).seen.contains (c.fn, c.dtt) = true) ∧
    anchorCellRx c s = { s with isl := { s.isl with cells := (anchorCellRx c s).isl.cells, anchors := (anchorCellRx c s).isl.anchors } } := by
  rw [anchorCellRx_of_anchor hen ha]
  cases hseen : (s.anc a).seen.contains (c.fn, c.dtt) with
  | true => exact ⟨rfl, rfl⟩
  | false =>
    rw [if_neg Bool.false_ne_true, if_neg Bool.false_ne_true]
    have hanc : (cellHeld a c s).anc a = { s.anc a with seen := ((c.fn, c.dtt) :: (s.anc a).seen).take 64 } := Tab.get_set_same _ _ _ _
    exact ⟨⟨List.map_append, by simp [hanc]⟩, rfl⟩

theorem anchorCellRx_bound {s : State} {c : AncCell} {a : Fin 2}
    (ha : if a = 0 then s.rd Fld.ISL_CFG_ANC0_EN = 1 ∧ s.rd Fld.ISL_ANC_ANC0_ID = c.ancId
      else s.rd Fld.ISL_CFG_ANC1_EN = 1 ∧ s.rd Fld.ISL_ANC_ANC1_ID = c.ancId ∧ s.rd Fld.ISL_CFG_ANC0_EN = 0) : cellAnchor c s = some a.val := by
  match a with
  | 0 =>
    obtain ⟨h, hid⟩ := ha
    exact cellAnchor_first h hid
  | 1 =>
    obtain ⟨h, hid, h0⟩ := ha
    exact cellAnchor_second h hid h0

/-! ### An anchor that falls silent (R385) -/

/-- An anchor has fallen silent, and the event is flagged and logged; STATE does not show it yet. -/
def ancFlagged (a : Nat) (s : State) : State :=
  ((s.setAnc a { s.anc a with silent := true, armed := false }).wr Fld.ISL_EVENTS_SILENT_EV 1).logEv 0x15 0x0005 a

theorem ancFlagged_rest (a : Nat) (s : State) :
    ancFlagged a s = { s with regs := (ancFlagged a s).regs, log := (ancFlagged a s).log,
                              isl := { s.isl with anchors := Tab.set restAnchor s.isl.anchors a { s.anc a with silent := true, armed := false } } } :=
  logEv_spec _ _ _ _

theorem ancFlagged_anc (a : Nat) (s : State) : (ancFlagged a s).anc a = { s.anc a with silent := true, armed := false } := by
  rw [ancFlagged_rest]
  exact Tab.get_set_same _ _ _ _

theorem ancFlagged_anc_ne {a b : Nat} (h : b ≠ a) (s : State) : (ancFlagged a s).anc b = s.anc b := by
  rw [ancFlagged_rest]
  exact Tab.get_set_ne _ _ _ _ h.symm

theorem ancFlagged_regs (a : Nat) (s : State) : RegsKept [Reg.ISL_EVENTS, Reg.LOG_STATUS] s (ancFlagged a s) :=
  RegsKept.logEv (RegsKept.wr (fun _ _ => rfl) (by simp)) (by simp)

theorem ancFlagged_event (a : Nat) (s : State) : (ancFlagged a s).rd Fld.ISL_EVENTS_SILENT_EV = 1 :=
  (rd_logEv _ _ _ _ _ (by decide)).trans (rd_wr_one _ _ (by decide))

theorem ancFlagged_logged (a : Nat) (s : State) : Logged 0x15 5 a s (ancFlagged a (ticked s)) :=
  logEv_log_of_eq _ _ _ rfl rfl rfl rfl (reg_wr_ne _ 1 (by decide))

theorem showAnchor_ancFlagged {a : Nat} {s : State} (hb : bound s a = true) :
    showAnchor a (ancFlagged a s) = (ancFlagged a s).wr (Fld.ISL_ANC_ST_STATE a) 1 := by
  have hbound : bound (ancFlagged a s) a = true := by
    rw [← hb, bound, bound]
    refine rdB_congr _ (ancFlagged_regs a s _ ?_)
    split <;> decide
  unfold showAnchor
  rw [hbound, ancFlagged_anc]
  rfl

theorem ancSt_ne_events : ∀ a : Fin 2, Reg.ISL_ANC_ST a ≠ Reg.ISL_EVENTS := by decide

/-- A bound anchor has delivered no cell for so long that it counts as silent. -/
abbrev silenceDue (a : Nat) (s : State) : Prop :=
  islMode s ≠ 0 ∧ bound s a = true ∧ (s.anc a).silent = false ∧ 3 * pubFrames s + maxAge s ≤ fnDiff s.fn (s.anc a).cellAt

theorem exec_ancSilent (a : Fin 2) (s : State) :
    exec (.ancSilent a) s = .next (if silenceDue a (ticked s) then showAnchor a (ancFlagged a (ticked s)) else ticked s) := rfl

theorem ancSilent_falls (s : State) (a : Fin 2) :
    let due := decide (s.rd Fld.ISL_STATUS_MODE ≠ 0) && bound s a && !(s.anc a).silent &&
      decide (3 * max 1 (s.rd Fld.ISL_CFG_PUB_FRAMES) + max 1 (s.rd Fld.ISL_TIME_MAX_AGE) ≤ fnDiff s.fn (s.anc a).cellAt)
    Does (.ancSilent a) s fun t =>
      (due = true → t.rd (Fld.ISL_ANC_ST_STATE a) = 1 ∧ (t.anc a).silent = true ∧ (t.anc a).armed = false ∧ t.rd Fld.ISL_EVENTS_SILENT_EV = 1 ∧
        Logged 0x15 5 a s t ∧ (∀ b, b < 2 → b ≠ a.val → t.anc b = s.anc b)) ∧
      (due = false → t = { s with cycle := s.cycle + 1 }) ∧
      t = { s with cycle := s.cycle + 1, regs := t.regs, log := t.log, isl := { s.isl with anchors := t.isl.anchors } } ∧
      RegsKept [Reg.ISL_ANC_ST a, Reg.ISL_EVENTS, Reg.LOG_STATUS] s t := by
  intro due
  have hdue : due = true ↔ silenceDue a (ticked s) := by
    simp only [due, Bool.and_eq_true, decide_eq_true_eq, Bool.not_eq_true', and_assoc]
    exact Iff.rfl
  refine ⟨_, exec_ancSilent a s, ?_⟩
  by_cases hs : silenceDue a (ticked s)
  · rw [if_pos hs]
    obtain ⟨-, hb, -⟩ := id hs
    rw [showAnchor_ancFlagged hb]
    have hrest := ancFlagged_rest a.val (ticked s)
    have hanc := ancFlagged_anc a.val (ticked s)
    have hne := fun b (h : b ≠ a.val) => ancFlagged_anc_ne h (ticked s)
    have hregs := ancFlagged_regs a.val (ticked s)
    have hevent := ancFlagged_event a.val (ticked s)
    have hlogged := ancFlagged_logged a.val s
    generalize ancFlagged a.val (ticked s) = u at *
    have hev : (Fld.ISL_ANC_ST_STATE a).addr ≠ Reg.ISL_EVENTS := ancSt_ne_events a
    refine ⟨fun _ => ⟨rd_wr_one _ _ (by simp [FRef.ok]), congrArg Anchor.silent hanc, congrArg Anchor.armed hanc, (rd_wr_ne _ _ _ 1 hev).trans hevent,
      hlogged, fun b _ hb => hne b hb⟩, fun h => absurd (h.symm.trans (hdue.mpr hs)) Bool.false_ne_true, ?_, ?_⟩
    · have hanchors : u.isl.anchors = Tab.set restAnchor s.isl.anchors a { s.anc a with silent := true, armed := false } := by
        rw [hrest]
        rfl
      refine (congrArg (fun x : State => { x with regs := (u.wr (Fld.ISL_ANC_ST_STATE a) 1).regs }) hrest).trans ?_
      rw [show (u.wr (Fld.ISL_ANC_ST_STATE a) 1).isl.anchors = u.isl.anchors from rfl, hanchors]
      rfl
    · exact RegsKept.wr (fun b hb => hregs b fun hm => hb (List.mem_cons_of_mem _ hm)) (by simp)
  · rw [if_neg hs]
    exact ⟨fun h => absurd (hdue.mp h) hs, fun _ => rfl, rfl, .refl _ s⟩

/-! ### A cell sent (R378) -/

/-- A cell of this node is due. -/
abbrev publishDue (s : State) : Bool :=
  isAnchor s && s.rdB Fld.ISL_CFG_PUB && s.rdB Fld.SCHED_CFG_TICK_RUN && s.fn % pubFrames s == s.rd Fld.ISL_MAP_PUB_PHASE % pubFrames s

/-- SEQ and PUB_SENT have gone on by one cell. -/
def cellNumbered (s : State) : State := (s.wr Fld.ISL_PUB_SEQ ((s.rd Fld.ISL_PUB_SEQ + 1) % 256)).inc Fld.ISL_PUB_PUB_SENT

theorem exec_phasorPublish (s : State) : exec .phasorPublish s = .next (if publishDue (ticked s) then
    floodCell (.anchor (ancBytes (ownCell (cellNumbered (ticked s)) false ((s.rd Fld.ISL_PUB_SEQ + 1) % 256)))) (cellNumbered (ticked s))
    else ticked s) := rfl

theorem cellNumbered_regs (s : State) : RegsKept [Reg.ISL_PUB] s (cellNumbered s) := RegsKept.wr (RegsKept.wr (.refl _ s) (by simp)) (by simp)

theorem cellNumbered_rd (s : State) {f : FRef} (hf : f.ok) (h : ∀ g ∈ [Fld.ISL_PUB_SEQ, Fld.ISL_PUB_PUB_SENT], g.apart f) :
    (cellNumbered s).rd f = s.rd f :=
  (rd_wr_apart _ _ _ _ (by decide) hf (h _ (by simp))).trans (rd_wr_apart s _ _ _ (by decide) hf (h _ (by simp)))

theorem cellNumbered_counters (s : State) : (cellNumbered s).rd Fld.ISL_PUB_SEQ = (s.rd Fld.ISL_PUB_SEQ + 1) % 256 ∧
    (cellNumbered s).rd Fld.ISL_PUB_PUB_SENT = min (s.rd Fld.ISL_PUB_PUB_SENT + 1) 0xFFFF := by
  constructor
  · exact (rd_wr_apart _ _ _ _ (by decide) (by decide) (by decide)).trans
      ((rd_wr_same s _ _ (by decide)).trans (Nat.mod_eq_of_lt (Nat.mod_lt _ (by decide))))
  · rw [cellNumbered, rd_inc_same _ (by decide), rd_wr_apart s _ _ _ (by decide) (by decide) (by decide)]
    rfl

/-- The cell is formed of what the node showed before the cell was counted. -/
theorem ownCell_numbered (s : State) (seq : Nat) : ownCell (cellNumbered s) false seq = ownCell s false seq := by
  have hrd (f : FRef) (hf : f.addr ≠ Reg.ISL_PUB) : (cellNumbered s).rd f = s.rd f := rd_congr f (cellNumbered_regs s _ (by simp [hf]))
  have hb : (cellNumbered s).rdB Fld.ISL_PUB_BRK_OPEN = s.rdB Fld.ISL_PUB_BRK_OPEN := by
    rw [rdB_eq, rdB_eq, cellNumbered_rd s (by decide) (by decide)]
  have hd : (cellNumbered s).rdB Fld.ISL_PUB_GRID_DEAD = s.rdB Fld.ISL_PUB_GRID_DEAD := by
    rw [rdB_eq, rdB_eq, cellNumbered_rd s (by decide) (by decide)]
  have hu : (cellNumbered s).unsynced = s.unsynced := by
    rw [State.unsynced, State.unsynced, rdB_eq, rdB_eq, hrd _ (by decide)]
  have hn : nodeNo (cellNumbered s) = nodeNo s := hrd _ (by decide)
  unfold ownCell
  rw [hb, hd, hu, hn, hrd _ (by decide), hrd _ (by decide), hrd _ (by decide), hrd _ (by decide)]
  rfl

theorem phasorPublish_sends (s : State) :
    let due := s.rdB Fld.CS_ROLE_ROLE_IN_FORCE && s.rdB Fld.ISL_CFG_PUB && s.rdB Fld.SCHED_CFG_TICK_RUN &&
      decide (s.fn % pubFrames s = s.rd Fld.ISL_MAP_PUB_PHASE % pubFrames s)
    let seq := (s.rd Fld.ISL_PUB_SEQ + 1) % 256
    let sent : AncCell := ⟨nodeNo s, s.rdB Fld.ISL_PUB_BRK_OPEN, s.rdB Fld.ISL_PUB_GRID_DEAD, s.unsynced, false, seq, s.fn, s.rd (Fld.GS_FT_ANGLE 8),
      s.rd (Fld.GS_FT_V1 8), s.rd (Fld.GS_FT_FREQ 8), s.rd (Fld.GS_ROCOF 8)⟩
    Does .phasorPublish s fun t =>
      (due = true → t.rd Fld.ISL_PUB_SEQ = seq ∧ t.rd Fld.ISL_PUB_PUB_SENT = min (s.rd Fld.ISL_PUB_PUB_SENT + 1) 0xFFFF ∧
        (∀ g, g < 4 → if (upGroups s).contains g then Queues (.anchor (ancBytes sent)) g s t else t.cq g = s.cq g)) ∧
      (due = false → t = { s with cycle := s.cycle + 1 }) ∧
      t = { s with cycle := s.cycle + 1, regs := t.regs, log := t.log, ctl := t.ctl } ∧
      RegsKeptBut (fun a => cellReg a || decide (a = Reg.ISL_PUB)) s t := by
  intro due seq sent
  have hdue : publishDue (ticked s) = due := rfl
  have hsent : ownCell (cellNumbered (ticked s)) false seq = sent := ownCell_numbered (ticked s) seq
  refine ⟨_, exec_phasorPublish s, ?_⟩
  rw [hdue, show ownCell _ false _ = sent from hsent]
  cases due with
  | false => exact ⟨nofun, fun _ => rfl, rfl, fun _ _ => rfl⟩
  | true =>
    rw [if_pos rfl]
    obtain ⟨hseq, hcount⟩ := cellNumbered_counters (ticked s)
    have hregs := cellNumbered_regs (ticked s)
    have hctl : (cellNumbered (ticked s)).ctl = s.ctl := rfl
    have hrest : cellNumbered (ticked s) = { ticked s with regs := (cellNumbered (ticked s)).regs } := rfl
    generalize cellNumbered (ticked s) = u at *
    obtain ⟨hframe, hqueues⟩ := floodCell_up (.anchor (ancBytes sent)) u
    generalize floodCell (.anchor (ancBytes sent)) u = t at *
    have hpub : t.reg Reg.ISL_PUB = u.reg Reg.ISL_PUB := hframe.regs _ (by decide)
    refine ⟨fun _ => ⟨(rd_congr _ hpub).trans hseq, (rd_congr _ hpub).trans hcount, fun g hg => ?_⟩, nofun, ?_, fun a ha => ?_⟩
    · have hup : (upGroups s).contains g = true ↔ groupState u g = 3 := by
        rw [List.contains_iff_mem, mem_upGroups, groupState, groupState,
          rd_congr (Fld.RG_GROUP_STATUS_STATE g) (hregs _ (by simp only [Reg.RG_GROUP_STATUS, Reg.ISL_PUB, List.mem_singleton]; omega))]
        exact ⟨And.right, And.intro hg⟩
      have hcq : u.cq g = s.cq g := by rw [State.cq, State.cq, hctl]
      rw [if_congr hup rfl rfl]
      have hg' := hqueues g hg
      by_cases hst : groupState u g = 3
      · rw [if_pos hst] at hg' ⊢
        exact hg'.congr hcq.symm rfl
      · rw [if_neg hst] at hg' ⊢
        exact hg'.trans hcq
    · have hu : t.ctl = { s.ctl with groups := t.ctl.groups, hseq := t.ctl.hseq } := by rw [hframe.rest, ← hctl]
      rw [hu]
      have ht := hframe.rest
      rw [hrest] at ht
      exact ht
    · obtain ⟨hcell, hne⟩ := Bool.or_eq_false_iff.mp ha
      exact (hframe.regs a hcell).trans (hregs a (by simpa using hne))

/-! ### The commands (R402) -/

theorem islCommand_waits {cmd : Nat} (hcmd : cmd < 8) (s : State) :
    (islCommand cmd (admitted s)).rd Fld.ISL_CTRL_CMD = (if s.rd Fld.ISL_STATUS_MODE = 0 then s.rd Fld.ISL_CTRL_CMD else cmd) ∧
      islCommand cmd (admitted s) =
        { s with cycle := s.cycle + 1, regs := (islCommand cmd (admitted s)).regs, bus := ⟨0#32, .done, .ok⟩ } ∧
      BitsKept Reg.ISL_CTRL [Fld.ISL_CTRL_CMD] s (islCommand cmd (admitted s)) ∧ RegsKept [Reg.ISL_CTRL] s (islCommand cmd (admitted s)) := by
  by_cases hm : s.rd Fld.ISL_STATUS_MODE = 0
  · rw [show islCommand cmd (admitted s) = admitted s from if_pos hm, if_pos hm]
    exact ⟨rfl, rfl, fun _ _ _ => rfl, .refl _ s⟩
  · rw [show islCommand cmd (admitted s) = (admitted s).wr Fld.ISL_CTRL_CMD cmd from if_neg hm, if_neg hm]
    refine ⟨?_, rfl, bitsKept_wr (admitted s) Fld.ISL_CTRL_CMD (by decide) cmd, RegsKept.wr (fun _ _ => rfl) (by simp)⟩
    exact (rd_wr_same (admitted s) Fld.ISL_CTRL_CMD cmd (by decide)).trans (Nat.mod_eq_of_lt hcmd)

/-! ### The obligation -/

/-- Settles O36: the cells, the silence of an anchor and the causes each by their own lemma; for the commands, nothing that a frame tick does before
the islanding block changes the waiting command, and nothing after it undoes it. -/
theorem islanding : Obligations.Islanding := by
  unfold Obligations.Islanding
  refine ⟨phasorPublish_sends, fun s h => breakerChange_off h, fun s hrole hrun => breakerChange_on hrole hrun, fun s c a hen ha => ?bound,
    fun s c h => ?ignored, ancSilent_falls, rocofCriterion_acts, afdCriterion_acts, fun s i hr hw => ?commands,
    fun s sinA sinB srb ack hon hrun hm => ?tick, islRelease_releases⟩
  case bound =>
    obtain ⟨hcell, hrest⟩ := anchorCellRx_waits (s := ticked s) hen (anchorCellRx_bound (s := ticked s) ha)
    exact ⟨_, rfl, hcell, hrest⟩
  case ignored =>
    exact ⟨_, rfl, anchorCellRx_ignored (s := ticked s) (h.imp id fun ⟨h0, h1⟩ => cellAnchor_none (s := ticked s) h0 h1)⟩
  case commands =>
    exact ⟨⟨_, run_writeAdmitted hr (by decide) hw, islCommand_waits (by decide) s⟩,
      ⟨_, run_writeAdmitted hr (by decide) hw, islCommand_waits (by decide) s⟩⟩
  case tick =>
    refine ⟨frameTick sinA sinB srb ack (ticked s), congrArg Host.Outcome.next (if_pos hon), fun _ => ?_⟩
    obtain ⟨hforce, hrelease⟩ := frameTick_takes (s := ticked s) sinA sinB srb ack hrun hm
    refine ⟨fun hc => ?_, fun hc => ?_⟩
    · obtain ⟨hforced, hdisc, hclear, hcmd⟩ := hforce hc
      exact ⟨hforced, hdisc, hclear, hcmd⟩
    · obtain ⟨hforced, hcmd⟩ := hrelease hc
      exact ⟨hforced, hcmd⟩

end Sys2Proof.Machine
end
